-- ==== Sys2Proof/Word.lean ====
section
/-! DEFINITION. The native word (R6: 32 bits) and the byte. -/

namespace Sys2Proof

/-- The native word. -/
abbrev Word := BitVec 32

/-- One byte of an on-module memory. -/
abbrev Byte := BitVec 8

end Sys2Proof
end

