-- ==== Sys2Proof/Syntax.lean ====
section
/-! DEFINITION. The commands of the CX7420: one constructor per row of the table of operations and events,
with the operands the row's step takes. A host request (opcodes 0x0001 to 0x0C08) names only its mailbox:
its parameters stand in the mailbox page, where R265, R279 and R280 put them. -/

namespace Sys2Proof

/-- The host interface of an access (R258: 0 BAR0, 1 BAR2, 2 QSPI). -/
inductive Ifc where
  | bar0 | bar2 | qspi
  deriving DecidableEq, Repr

/-- The second ALU operand: the register Db of class 0x1, or IMM [14:0] of class 0x2 (R113, R114).
LOOP's count is coded the same way: IMM 1 carries COUNT, IMM 0 names Dk. -/
inductive AluB where
  | reg (k : Nat) | imm (v : Nat)
  deriving DecidableEq, Repr

/-- A data access of classes 0x3 and 0x4: SP (Y when `y`), the pointer Pr, the mode AM and IMM (R111, R113). -/
structure MemRef where
  y : Bool
  p : Nat
  am : Nat
  imm : Int
  deriving DecidableEq, Repr

/-- The second MAC unit of class 0x6: OP2 0 MPY, 1 MAC, 2 MSU (R115). -/
structure MacUnit where
  op : Nat
  ac : Nat
  da : Nat
  db : Nat
  deriving DecidableEq, Repr

/-- The X parallel move XM: Dx, Px (P0 to P3) and MX (R113). -/
structure XMove where
  dx : Nat
  px : Nat
  byN : Bool
  deriving DecidableEq, Repr

/-- The Y parallel move YM: KIND (a 64-bit load to Ay when `wide`), the destination, Py (P4 to P7, coded
0 to 3) and MY (R113). -/
structure YMove where
  wide : Bool
  dst : Nat
  py : Nat
  my : Nat
  deriving DecidableEq, Repr

/-- The target of a branch: OFS in words, or the address in Dk (R118). -/
inductive BrTgt where
  | ofs (w : Int) | ind (dk : Nat)
  deriving DecidableEq, Repr

/-- What a debug access addresses (R482). -/
inductive DbgSpace where
  | bar0 | bar2 | engX (e : Nat) | engY (e : Nat) | engP (e : Nat) | axisStore | mgmt | trace | safe
  deriving DecidableEq, Repr

/-- The commands. Each docstring names the row's rule. -/
inductive Instr where
  /-- REG64_LOW_READ (R10). -/
  | reg64LowRead (ifc : Ifc) (addr : Nat)
  /-- REG64_HIGH_WRITE (R10). -/
  | reg64HighWrite (ifc : Ifc) (addr v : Nat)
  /-- REG64_LOW_WRITE (R10). -/
  | reg64LowWrite (ifc : Ifc) (addr v : Nat)
  /-- PCIE_64BIT_READ (R10). -/
  | pcie64Read (ifc : Ifc) (addr : Nat)
  /-- PCIE_64BIT_WRITE (R10). -/
  | pcie64Write (ifc : Ifc) (addr v : Nat)
  /-- W1C_WRITE (R11). -/
  | w1cWrite (ifc : Ifc) (addr v hw : Nat)
  /-- RC_READ (R11). -/
  | rcRead (ifc : Ifc) (addr ev : Nat)
  /-- REGISTER_WRITE (R14). -/
  | registerWrite (ifc : Ifc) (addr : Nat) (bytes : List Nat)
  /-- BOUNDARY (R31). -/
  | boundary (t n : Nat)
  /-- OVERLAY_SWAP (R288). -/
  | overlaySwap
  /-- STATISTICS_LATCH (R59). -/
  | statisticsLatch
  /-- ENABLE_TIMEOUT (R44). -/
  | enableTimeout (a : Nat)
  /-- STOP_HOLD (R45). -/
  | stopHold (a : Nat)
  /-- BRAKE_ENGAGE_DELAY (R45). -/
  | brakeEngageDelay (a : Nat)
  /-- STOP_TIMEOUT (R46). -/
  | stopTimeout (a : Nat)
  /-- FRST_TIMEOUT (R513). -/
  | frstTimeout (a : Nat)
  /-- AXIS_LOOP (R65). -/
  | axisLoop (a : Nat)
  /-- FE_TIMED (R83). -/
  | feTimed (a : Nat)
  /-- POSITION_PART (R87). -/
  | positionPart (a : Nat)
  /-- GROUP_CLAUSE (R86). -/
  | groupClause (g : Nat)
  /-- VELOCITY_PART (R87). -/
  | velocityPart (a : Nat)
  /-- TRAJECTORY_STEP (R138). -/
  | trajectoryStep (a : Nat)
  /-- SUPERVISION (R138). -/
  | supervision (r : Nat)
  /-- LEARNING_UPDATE (R92). -/
  | learningUpdate (tb : Nat)
  /-- TUNING_CAPTURE (R99). -/
  | tuningCapture (ch : Nat)
  /-- TRACKER_RETUNE (R80). -/
  | trackerRetune (a k : Nat)
  /-- SWEEP_COMPLETE (R98). -/
  | sweepComplete (ch : Nat)
  /-- RECORD_LOAD_DONE (R106). -/
  | recordLoadDone (e : Nat)
  /-- CLAUSE_DISPATCH (R147). -/
  | clauseDispatch
  /-- PREEMPTION (R125). -/
  | preemption (e : Nat)
  /-- NOP (R120). -/
  | nop (e : Nat)
  /-- DONE (R128). -/
  | done (e : Nat)
  /-- PUB (R120). -/
  | pub (e dr w : Nat)
  /-- PROT (R120). -/
  | prot (e n : Nat)
  /-- BRKL (R120). -/
  | brkl (e : Nat)
  /-- MVFS (R120). -/
  | mvfs (e dr code : Nat)
  /-- MVTS (R120). -/
  | mvts (e code dr : Nat)
  /-- SPUSH (R120). -/
  | spush (e code : Nat)
  /-- SPOP (R120). -/
  | spop (e code : Nat)
  /-- DISP (R120). -/
  | disp (e : Nat)
  /-- RETI (R120). -/
  | reti (e : Nat)
  /-- ADD (R114). -/
  | add (e dd da : Nat) (b : AluB)
  /-- SUB (R114). -/
  | sub (e dd da : Nat) (b : AluB)
  /-- ADDS (R114). -/
  | adds (e dd da : Nat) (b : AluB)
  /-- SUBS (R114). -/
  | subs (e dd da : Nat) (b : AluB)
  /-- RSUB (R114). -/
  | rsub (e dd da : Nat) (b : AluB)
  /-- AND (R114). -/
  | and (e dd da : Nat) (b : AluB)
  /-- OR (R114). -/
  | or (e dd da : Nat) (b : AluB)
  /-- XOR (R114). -/
  | xor (e dd da : Nat) (b : AluB)
  /-- SHL (R114). -/
  | shl (e dd da : Nat) (b : AluB)
  /-- SHR (R114). -/
  | shr (e dd da : Nat) (b : AluB)
  /-- ASR (R114). -/
  | asr (e dd da : Nat) (b : AluB)
  /-- MIN (R114). -/
  | min (e dd da : Nat) (b : AluB)
  /-- MAX (R114). -/
  | max (e dd da : Nat) (b : AluB)
  /-- CMP (R114). -/
  | cmp (e da : Nat) (b : AluB)
  /-- MOV (R114). -/
  | mov (e dd : Nat) (b : AluB)
  /-- ABS (R114). -/
  | abs (e dd da : Nat)
  /-- NEG (R114). -/
  | neg (e dd da : Nat)
  /-- LD32 (R113). -/
  | ld32 (e : Nat) (m : MemRef) (dr : Nat)
  /-- ST32 (R113). -/
  | st32 (e : Nat) (m : MemRef) (dr : Nat)
  /-- LDA (R113). -/
  | lda (e : Nat) (m : MemRef) (ac : Nat)
  /-- STA64 (R130). -/
  | sta64 (e : Nat) (m : MemRef) (ac sh : Nat) (rnd : Bool)
  /-- STA32 (R130). -/
  | sta32 (e : Nat) (m : MemRef) (ac sh : Nat) (rnd : Bool)
  /-- MPY (R115). -/
  | mpy (e ac da db : Nat) (u2 : Option MacUnit) (x : Option XMove) (y : Option YMove)
  /-- MAC (R115). -/
  | mac (e ac da db : Nat) (u2 : Option MacUnit) (x : Option XMove) (y : Option YMove)
  /-- MSU (R115). -/
  | msu (e ac da db : Nat) (u2 : Option MacUnit) (x : Option XMove) (y : Option YMove)
  /-- PARALLEL_MOVE (R115). -/
  | parallelMove (e : Nat) (x : Option XMove) (y : Option YMove)
  /-- TAPM (R117). -/
  | tapm (e ac : Nat) (subtract : Bool) (px py : Nat)
  /-- CLRA (R116). -/
  | clra (e ad : Nat)
  /-- MOVA (R116). -/
  | mova (e ad src : Nat)
  /-- ADDA (R116). -/
  | adda (e ad src : Nat)
  /-- SUBA (R116). -/
  | suba (e ad src : Nat)
  /-- NEGA (R116). -/
  | nega (e ad src : Nat)
  /-- SHLA (R116). -/
  | shla (e ad src sh : Nat)
  /-- SHRA (R116). -/
  | shra (e ad src sh : Nat)
  /-- MVA (R116). -/
  | mva (e dr src sh : Nat) (rnd : Bool)
  /-- SOUT (R116). -/
  | sout (e dr src dk : Nat) (rnd : Bool)
  /-- LDAD (R116). -/
  | ldad (e ad dr sh : Nat)
  /-- TSTA (R116). -/
  | tsta (e src : Nat)
  /-- BR (R118). -/
  | br (e cond : Nat) (tgt : BrTgt)
  /-- CALL (R118). -/
  | call (e cond : Nat) (tgt : BrTgt)
  /-- LOOP (R119). -/
  | loop (e : Nat) (count : AluB) (fin : Nat)
  /-- FAR_LOAD (R121). -/
  | farLoad (e dr da : Nat)
  /-- FAR_LOAD_ARRIVAL (R121). -/
  | farLoadArrival (e : Nat)
  /-- FAR_STORE (R121). -/
  | farStore (e dr da : Nat)
  /-- LDI (R113). -/
  | ldi (e dd v : Nat)
  /-- LDIA (R113). -/
  | ldia (e ad sh v : Nat)
  /-- BRL (R113). -/
  | brl (e cond : Nat) (link : Bool) (tgt : Nat)
  /-- WDOG (R133). -/
  | wdog (e : Nat)
  /-- SELF_TEST_COMPLETE (R135). -/
  | selfTestComplete (e : Nat) (pass : Bool)
  /-- SLOT_LANDING (R140). -/
  | slotLanding (r slot : Nat) (copy : Bool) (codeErr : Bool) (half : List Nat)
  /-- BACKSTOP_RELEASE (R141). -/
  | backstopRelease (d : Nat)
  /-- DEADLINE (R152). -/
  | deadline (d : Nat)
  /-- OVERRUN_FAULT (R154). -/
  | overrunFault (a : Nat)
  /-- BUDGET (R149). -/
  | budget (e : Nat)
  /-- TRACE_DRAIN (R159). -/
  | traceDrain
  /-- TRACE_FREEZE (R162). -/
  | traceFreeze
  /-- SCH_TRC_CTL_FREEZE (R162). -/
  | schTrcCtlFreeze
  /-- SCH_TRC_CTL_ARM (R162). -/
  | schTrcCtlArm
  /-- SCH_TRC_CTL_RELEASE (R162). -/
  | schTrcCtlRelease
  /-- MOTION_TAKES_HOLD (R165). -/
  | motionTakesHold (a : Nat)
  /-- SEGMENT_END (R185). -/
  | segmentEnd (a : Nat)
  /-- HOMING_TIMEOUT (R191). -/
  | homingTimeout (a : Nat)
  /-- HARD_STOP_STALL (R192). -/
  | hardStopStall (a : Nat)
  /-- COMPARE_FIRE (R196). -/
  | compareFire (u t : Nat)
  /-- COMPARE_PULSE_END (R197). -/
  | comparePulseEnd (u : Nat)
  /-- CAPTURE_EDGE (R200). -/
  | captureEdge (c t frac : Nat) (rising : Bool)
  /-- CMP_ARM (R203). -/
  | cmpArm (u : Nat)
  /-- CMP_DISARM (R203). -/
  | cmpDisarm (u : Nat)
  /-- CMP_CAP_NEXT (R203). -/
  | cmpCapNext (c : Nat)
  /-- CMP_CAP_ARM (R203). -/
  | cmpCapArm (c : Nat)
  /-- CUT_OFF (R222). -/
  | cutOff (r : Nat) (cont : Bool) (inst : Nat)
  /-- CYCLE_FRAME_RETURN (R223). -/
  | cycleFrameReturn (p : Nat) (fcsOk : Bool) (mac header payload : List Nat) (t frac : Nat)
  /-- DC_LOCK (R237). -/
  | dcLock
  /-- DC_HOLDOVER (R238). -/
  | dcHoldover
  /-- DC_REF2_SWITCH (R238). -/
  | dcRef2Switch
  /-- FRAME_FORWARD (R207). -/
  | frameForward (p : Nat) (fcsOk : Bool) (mac header payload : List Nat) (resid : Nat)
  /-- FOREIGN_HEAD_FRAME (R434). -/
  | foreignHeadFrame (r cid epoch : Nat)
  /-- PORT_LINK_UP (R241). -/
  | portLinkUp (p : Nat) (phyOk : Bool)
  /-- PORT_LINK_DOWN (R244). -/
  | portLinkDown (p : Nat)
  /-- LINK_WAIT_TIMEOUT (R241). -/
  | linkWaitTimeout (r : Nat)
  /-- SCAN_FRAME_RETURN (R241). -/
  | scanFrameReturn (r hops : Nat) (entries : List Nat)
  /-- DELAY_MEASUREMENT (R239). -/
  | delayMeasurement (r : Nat)
  /-- PROBE_RETURN (R240). -/
  | probeReturn (r : Nat) (reverse : Bool) (acc maxrx : Nat)
  /-- PEER_DELAY_REQUEST (R239). -/
  | peerDelayRequest (p id t2 t3 : Nat)
  /-- PEER_DELAY_RESPONSE (R239). -/
  | peerDelayResponse (p id t1 t2 t3 t4 : Nat)
  /-- NODE_LOST (R243). -/
  | nodeLost (r node : Nat)
  /-- IDENTIFY_REPEAT (R243). -/
  | identifyRepeat (r node : Nat)
  /-- ACYC_MESSAGE (R234). -/
  | acycMessage (r node : Nat) (frags : List (Nat × List Nat))
  /-- ACYC_TIMEOUT (R234). -/
  | acycTimeout (r node : Nat)
  /-- BYPASS_TRANSITION (R246). -/
  | bypassTransition (r : Nat) (closed : Bool)
  /-- MBX_DB (R265). -/
  | mbxDb (ifc : Ifc) (n : Nat)
  /-- HIF_DB_ALL (R265). -/
  | hifDbAll (ifc : Ifc) (mask : Nat)
  /-- MBX_ACK (R266). -/
  | mbxAck (ifc : Ifc) (n : Nat)
  /-- LOP_ACK (R272). -/
  | lopAck (k : Nat)
  /-- HIF_TICK (R259). -/
  | hifTick
  /-- FAST_READ (R254). -/
  | fastRead (addr words : Nat)
  /-- QUAD_READ (R254). -/
  | quadRead (addr words : Nat)
  /-- WRITE (R254). -/
  | write (addr : Nat) (bytes : List Nat)
  /-- QUAD_WRITE (R254). -/
  | quadWrite (addr : Nat) (bytes : List Nat)
  /-- READ_STATUS (R254). -/
  | readStatus
  /-- ECHO (R280). -/
  | echo (mb : Nat)
  /-- GET_INFO (R280). -/
  | getInfo (mb : Nat)
  /-- LOP_SUSPEND (R274). -/
  | lopSuspend (mb : Nat)
  /-- LOP_RESUME (R274). -/
  | lopResume (mb : Nat)
  /-- LOP_CANCEL (R274). -/
  | lopCancel (mb : Nat)
  /-- TAG_RESET (R270). -/
  | tagReset (mb : Nat)
  /-- WIN_READ (R280). -/
  | winRead (mb : Nat)
  /-- WIN_WRITE (R280). -/
  | winWrite (mb : Nat)
  /-- AXIS_CONFIGURE (R42). -/
  | axisConfigure (mb : Nat)
  /-- AXIS_DECONFIGURE (R42). -/
  | axisDeconfigure (mb : Nat)
  /-- AXIS_ENABLE (R42). -/
  | axisEnable (mb : Nat)
  /-- AXIS_DISABLE (R45). -/
  | axisDisable (mb : Nat)
  /-- AXIS_FAULT_RESET (R42). -/
  | axisFaultReset (mb : Nat)
  /-- AXIS_FAULT_RAISE (R280). -/
  | axisFaultRaise (mb : Nat)
  /-- AXIS_REACTIONS (R55). -/
  | axisReactions (mb : Nat)
  /-- REC_READ (R280). -/
  | recRead (mb : Nat)
  /-- REC_WRITE (R77). -/
  | recWrite (mb : Nat)
  /-- SEC_RECIPE (R74). -/
  | secRecipe (mb : Nat)
  /-- GRP_READ (R280). -/
  | grpRead (mb : Nat)
  /-- GRP_WRITE (R89). -/
  | grpWrite (mb : Nat)
  /-- LFF_WRITE (R95). -/
  | lffWrite (mb : Nat)
  /-- LFF_CLEAR (R95). -/
  | lffClear (mb : Nat)
  /-- LFF_EXPORT (R95). -/
  | lffExport (mb : Nat)
  /-- LFF_IMPORT (R95). -/
  | lffImport (mb : Nat)
  /-- PROBE_ALLOC (R263). -/
  | probeAlloc (mb : Nat)
  /-- SWEEP_START (R98). -/
  | sweepStart (mb : Nat)
  /-- CODE_LOAD (R107). -/
  | codeLoad (mb : Nat)
  /-- DESC_WRITE (R136). -/
  | descWrite (mb : Nat)
  /-- SCH_CONFIG (R163). -/
  | schConfig (mb : Nat)
  /-- MOVE (R172). -/
  | move (mb : Nat)
  /-- STOP (R175). -/
  | stop (mb : Nat)
  /-- SEG_APPEND (R182). -/
  | segAppend (mb : Nat)
  /-- TABLE_START (R183). -/
  | tableStart (mb : Nat)
  /-- HOME_START (R187). -/
  | homeStart (mb : Nat)
  /-- CMP_CONFIG (R194). -/
  | cmpConfig (mb : Nat)
  /-- CMP_LIST_WRITE (R203). -/
  | cmpListWrite (mb : Nat)
  /-- CAP_CONFIG (R200). -/
  | capConfig (mb : Nat)
  /-- RING_CONFIG (R241). -/
  | ringConfig (mb : Nat)
  /-- RING_STOP (R280). -/
  | ringStop (mb : Nat)
  /-- ACYC (R234). -/
  | acyc (mb : Nat)
  /-- BYPASS (R246). -/
  | bypass (mb : Nat)
  /-- TOPO_READ (R280). -/
  | topoRead (mb : Nat)
  /-- MODE_SWITCH (R288). -/
  | modeSwitch (mb : Nat)
  /-- CFG_COMMIT (R291). -/
  | cfgCommit (mb : Nat)
  /-- COMMIT_COMPLETE (R291). -/
  | commitComplete
  /-- FW_UPDATE (R295). -/
  | fwUpdate (mb : Nat)
  /-- FW_DATA (R295). -/
  | fwData (mb : Nat)
  /-- FW_SIGNATURE_CHECK (R295). -/
  | fwSignatureCheck
  /-- FW_WRITE_COMPLETE (R295). -/
  | fwWriteComplete
  /-- FLASH_SCRUB (R294). -/
  | flashScrub (mb : Nat)
  /-- FLASH_SCRUB_COMPLETE (R294). -/
  | flashScrubComplete (bad : Bool)
  /-- GARBAGE_COLLECTION (R293): the blocks of the configuration log whose erasure fails; from 368 on a number
  names none. -/
  | garbageCollection (f0 f1 f2 f3 f4 : Nat)
  /-- SAFETY_LOGIN (R296). -/
  | safetyLogin (mb : Nat)
  /-- SAFETY_LOGOUT (R296). -/
  | safetyLogout (mb : Nat)
  /-- SESSION_TIMEOUT (R296). -/
  | sessionTimeout
  /-- LOCKOUT_EXPIRY (R296). -/
  | lockoutExpiry
  /-- PASSWORD_SET (R297). -/
  | passwordSet (mb : Nat)
  /-- SAFETY_CHANGE_COMPLETE (R298). -/
  | safetyChangeComplete
  /-- OVL_WRITE (R285). -/
  | ovlWrite (mb : Nat)
  /-- OVL_READ (R300). -/
  | ovlRead (mb : Nat)
  /-- OVL_CLEAR (R300). -/
  | ovlClear (mb : Nat)
  /-- LOG_READ (R300). -/
  | logRead (mb : Nat)
  /-- DRV_CONFIG (R337). -/
  | drvConfig (mb : Nat)
  /-- PTG_CONFIG (R337). -/
  | ptgConfig (mb : Nat)
  /-- CAL_START (R336). -/
  | calStart (mb : Nat)
  /-- CALIBRATION_STEP_COMPLETE (R336). -/
  | calibrationStepComplete (p v w : Nat)
  /-- DRV_CLEAR (R326). -/
  | drvClear (mb : Nat)
  /-- ENC_CONFIG (R337). -/
  | encConfig (mb : Nat)
  /-- CONVERSION (R304). -/
  | conversion (vals : List Nat) (chs : Nat)
  /-- OV_TRIP (R328). -/
  | ovTrip (p : Nat)
  /-- CHOPPER_FAULT (R326). -/
  | chopperFault (p : Nat)
  /-- GATE_DRIVER_FAULT (R330). -/
  | gateDriverFault (p : Nat)
  /-- DTC_EVALUATION (R312). -/
  | dtcEvaluation (p : Nat)
  /-- ELLIPSIS_TORQUE_LIMIT (R315). -/
  | ellipsisTorqueLimit (p : Nat)
  /-- ELLIPSIS_LIMIT_END (R315). -/
  | ellipsisLimitEnd (p : Nat)
  /-- ELLIPSIS_HWOFF (R315). -/
  | ellipsisHwoff (p : Nat)
  /-- PWM_VALLEY (R321). -/
  | pwmValley (p : Nat)
  /-- STEP_ISSUE (R334). -/
  | stepIssue (dp : Bool) (q : Nat)
  /-- STEPPER_HOLD_CURRENT (R321). -/
  | stepperHoldCurrent (p : Nat)
  /-- STALL (R324). -/
  | stall (p : Nat)
  /-- OFFSET_CALIBRATION_COMPLETE (R316). -/
  | offsetCalibrationComplete (p o0 o1 o2 o3 : Nat)
  /-- SPIN_PROBE (R317). -/
  | spinProbe (p : Nat) (fe : Int) (ang mag : Nat)
  /-- SATURATION_TEST_PULSE (R318). -/
  | saturationTestPulse (p peak : Nat) (readable : Bool)
  /-- ENCODER_EDGE (R309). -/
  | encoderEdge (c : Nat) (ab : Nat) (z : Bool)
  /-- FIO_CONFIG (R347). -/
  | fioConfig (mb : Nat)
  /-- FIO_OUT (R369). -/
  | fioOut (mb : Nat)
  /-- FIO_CLEAR (R369). -/
  | fioClear (mb : Nat)
  /-- FIO_OUT_SET (R371). -/
  | fioOutSet (mask : Nat)
  /-- FIO_OUT_CLR (R371). -/
  | fioOutClr (mask : Nat)
  /-- TICK (R345). -/
  | tick (t : Nat)
  /-- REFRESH (R345). -/
  | refresh (valid safeOk : Bool)
  /-- RETURN_LANDING (R345). -/
  | returnLanding (valid safeOk : Bool) (raw rb : Nat) (cur vfg : List Nat)
  /-- FILTER_OUTPUT_CHANGE (R349). -/
  | filterOutputChange (c : Nat)
  /-- DEBOUNCE_ACCEPT (R350). -/
  | debounceAccept (c t frac : Nat) (lvl : Bool)
  /-- WIRE_BREAK (R352). -/
  | wireBreak (c : Nat)
  /-- WIRE_BREAK_CLEAR (R352). -/
  | wireBreakClear (c : Nat)
  /-- EXTERNAL_DRIVE (R357). -/
  | externalDrive (c : Nat)
  /-- EXTERNAL_DRIVE_CLEAR (R357). -/
  | externalDriveClear (c : Nat)
  /-- OUTPUT_TEST_PULSE (R358). -/
  | outputTestPulse (c : Nat) (last rbHigh : Bool)
  /-- CURRENT_LIMIT (R356). -/
  | currentLimit (c : Nat) (limiting : Bool)
  /-- THERMAL_SHUTDOWN (R356). -/
  | thermalShutdown (c : Nat)
  /-- THERMAL_RESTART (R356). -/
  | thermalRestart (c : Nat)
  /-- GROUP_OVERCURRENT (R356). -/
  | groupOvercurrent (g : Nat)
  /-- SUPPLY_WARNING (R364). -/
  | supplyWarning (g : Nat)
  /-- SUPPLY_WARNING_CLEAR (R364). -/
  | supplyWarningClear (g : Nat)
  /-- UNDERVOLTAGE (R365). -/
  | undervoltage (g : Nat)
  /-- UNDERVOLTAGE_RECOVERY (R366). -/
  | undervoltageRecovery (g : Nat)
  /-- SILENCE (R360). -/
  | silence
  /-- FIELD_LINK_LOSS (R362). -/
  | fieldLinkLoss
  /-- FIELD_DIE_START (R363). -/
  | fieldDieStart
  /-- FIELD_DIE_STOP (R363). -/
  | fieldDieStop
  /-- THRESHOLD_TRIM (R451). -/
  | thresholdTrim (c : Nat) (ok : Bool)
  /-- SAFE_SAMPLE (R377). -/
  | safeSample (j : Nat) (path2 : Bool)
  /-- WATCHDOG_EXPIRY (R378). -/
  | watchdogExpiry
  /-- SS1_EXPIRY (R383). -/
  | ss1Expiry (g : Nat)
  /-- DISCREPANCY_FAULT (R392). -/
  | discrepancyFault (k : Nat)
  /-- FSTOP_N_LOW (R388). -/
  | fstopNLow
  /-- FULL_STOP_END (R389). -/
  | fullStopEnd
  /-- FULL_STOP_RELEASE_TIMEOUT (R389). -/
  | fullStopReleaseTimeout
  /-- SAFE_TEST_PULSE (R397). -/
  | safeTestPulse (k : Nat) (last rbHigh : Bool)
  /-- PROOF_STEP (R399). -/
  | proofStep (k : Nat) (rbHigh senseHigh : Bool)
  /-- PROOF_DUE (R399). -/
  | proofDue
  /-- CONTAINER_LANDING (R404). -/
  | containerLanding (c : Nat) (bytes : List Nat)
  /-- CONNECTION_WATCHDOG (R404). -/
  | connectionWatchdog (c : Nat)
  /-- SAFE_PARAM_WRITE (R409). -/
  | safeParamWrite (mb : Nat)
  /-- SAFE_PARAM_COMMIT (R409). -/
  | safeParamCommit (mb : Nat)
  /-- SAFE_RESET (R410). -/
  | safeReset (mb : Nat)
  /-- SAFE_TEST (R399). -/
  | safeTest (mb : Nat)
  /-- FULL_STOP (R387). -/
  | fullStop (mb : Nat)
  /-- FULL_STOP_RELEASE (R389). -/
  | fullStopRelease (mb : Nat)
  /-- PAIR_CONFIG (R414). -/
  | pairConfig (mb : Nat)
  /-- PAIR_REJOIN (R436). -/
  | pairRejoin (mb : Nat)
  /-- PAIR_HANDOVER (R439). -/
  | pairHandover (mb : Nat)
  /-- PAIR_TAKEBACK (R439). -/
  | pairTakeback (mb : Nat)
  /-- PAIR_UNPAIR (R440). -/
  | pairUnpair (mb : Nat)
  /-- LANE_LOST (R418). -/
  | laneLost (l : Nat)
  /-- JOURNAL_ENTRY (R421). -/
  | journalEntry (mb tag opc accept : Nat) (bytes : List Nat)
  /-- DIGEST_COMPARISON (R427). -/
  | digestComparison (f par : Nat) (stMap fbMap : List Nat)
  /-- ONESIDED_COPY (R426). -/
  | onesidedCopy (a : Nat) (words : List (Nat × Nat))
  /-- VERDICT (R428). -/
  | verdict (own par failStep : Nat)
  /-- VERDICT_TIMEOUT (R428). -/
  | verdictTimeout (own : Bool)
  /-- PERIODIC_SELF_DIAGNOSIS (R429). -/
  | periodicSelfDiagnosis (pass : Bool)
  /-- SWITCH_OVER (R430). -/
  | switchOver
  /-- HANDOVER (R439). -/
  | handover
  /-- STANDSTILL (R439). -/
  | standstill
  /-- REJOIN_TRANSFER_COMPLETE (R436). -/
  | rejoinTransferComplete (backlog : Nat)
  /-- REPLAY_COMPLETE (R436). -/
  | replayComplete
  /-- REJOIN_CONFIRMED (R436). -/
  | rejoinConfirmed
  /-- SCRUB (R447). -/
  | scrub (arr : Nat)
  /-- CONVERTER_CALIBRATION (R450). -/
  | converterCalibration (ch : Nat) (ofs gain : Int) (stale : Bool)
  /-- TELEMETRY_MEASUREMENT (R452). -/
  | telemetryMeasurement (temps rails eyeH eyeV : List Nat)
  /-- CLOCK_LOSS (R454). -/
  | clockLoss (src : Nat)
  /-- INJECTION (R457). -/
  | injection (slot : Nat)
  /-- INJ_ARM (R460). -/
  | injArm (mb : Nat)
  /-- INJ_DISARM (R460). -/
  | injDisarm (mb : Nat)
  /-- EVLOG_READ (R460). -/
  | evlogRead (mb : Nat)
  /-- TEL_CONFIG (R460). -/
  | telConfig (mb : Nat)
  /-- PWR_STATE_SET (R466). -/
  | pwrStateSet (mb : Nat)
  /-- STANDBY_ENTRY (R466). -/
  | standbyEntry
  /-- STANDBY_EXIT_COMPLETE (R467). -/
  | standbyExitComplete
  /-- WAKE (R469). -/
  | wake (cause : Nat)
  /-- VIN_LOSS (R470). -/
  | vinLoss
  /-- POWER_ON_RESET (R473). -/
  | powerOnReset (held : Bool)
  /-- RST_N (R472). -/
  | rstN (low : Bool) (hsel : Nat)
  /-- CONJUNCTION_RESET (R472). -/
  | conjunctionReset
  /-- FIRMWARE_WATCHDOG (R472). -/
  | firmwareWatchdog
  /-- HOST_SIDE_RESET (R472). -/
  | hostSideReset
  /-- PWR_RESET (R474). -/
  | pwrReset (mb : Nat)
  /-- PWR_CONFIG (R486). -/
  | pwrConfig (mb : Nat)
  /-- BOOT (R475). -/
  | boot (us : Nat)
  /-- SEC_PROVISION (R478). -/
  | secProvision (mb : Nat)
  /-- SEC_SEAL (R478). -/
  | secSeal (mb : Nat)
  /-- SEC_TOKEN (R479). -/
  | secToken (mb : Nat)
  /-- SEC_REVOKE (R486). -/
  | secRevoke (mb : Nat)
  /-- SEC_PW_CLEAR (R297). -/
  | secPwClear (mb : Nat)
  /-- SEC_ATTEST (R486). -/
  | secAttest (mb : Nat)
  /-- TAP_BYPASS (R481). -/
  | tapBypass
  /-- IDCODE (R481). -/
  | idcode
  /-- SAMPLE_PRELOAD (R481). -/
  | samplePreload (pins : Nat)
  /-- EXTEST (R484). -/
  | extest
  /-- CLAMP (R484). -/
  | clamp
  /-- HIGHZ (R484). -/
  | highz
  /-- DBG_CHAL (R481). -/
  | dbgChal
  /-- DBG_TOKEN (R479). -/
  | dbgToken (bytes : List Nat)
  /-- DBG_ACCESS_READ (R482). -/
  | dbgAccessRead (level : Nat) (sp : DbgSpace) (addr : Nat)
  /-- DBG_ACCESS_WRITE (R482). -/
  | dbgAccessWrite (sp : DbgSpace) (addr v : Nat)
  /-- CORE_HALT (R484). -/
  | coreHalt (core : Nat)
  /-- CORE_STEP (R482). -/
  | coreStep (core : Nat)
  /-- BREAKPOINT_HIT (R482). -/
  | breakpointHit (core : Nat)
  /-- TRST_N (R481). -/
  | trstN
  /-- REGISTER_READ (R28). -/
  | registerRead (ifc : Ifc) (addr size : Nat)
  /-- PCIE_POWER_STATE (R253). -/
  | pciePowerState (d3hot : Bool)
  /-- LANE_RESTORED (R418). -/
  | laneRestored (l : Nat)
  /-- CLOCK_RESTORED (R471). -/
  | clockRestored (src : Nat)
  /-- MGMT_LOCKSTEP_MISMATCH (R472). -/
  | mgmtLockstepMismatch
  /-- EXPECTED_FRAME_MISSING (R433). -/
  | expectedFrameMissing (r : Nat)
  /-- JOURNAL_COMPLETION (R421). -/
  | journalCompletion (mb tag status reason opc handle : Nat) (bytes : List Nat)
  deriving DecidableEq, Repr

end Sys2Proof
end

