-- ==== Sys2Proof/Config.lean ====
section
/-! DEFINITION. What the spec leaves open: opaque constants with no body, so that no proof can see their
values. -/

namespace Sys2Proof

/-- A value the spec leaves open, one for each count of the state's own counter. -/
opaque Config.freeValue : Nat → Nat

/-- The node that owns a static slot to which no axis is bound (R232): the spec names no register for it. -/
opaque Config.slotOwner : Nat → Nat → Nat

/-- A cosine of `n/d` turns takes the Q2.30 value above it and not the one below: the spec leaves its rounding open (R79,
R80). -/
opaque Config.cosUp : Nat → Nat → Bool

/-- A sine of a phase in turns takes the Q1.31 value above it and not the one below: the spec leaves its rounding open (R98). -/
opaque Config.sinUp : Rat → Bool

/-- What the sum of a multisine's harmonics is scaled by, for the harmonics chosen (R98): the spec gives no scale. -/
opaque Config.multisineScale : List Nat → Rat

/-- A bit of the pseudo-random sequence of an order (R98): the spec names no polynomial. -/
opaque Config.prbsBit : Nat → Nat → Bool

/-- The zero radius of a notch recipe from its depth, in Q2.30: the spec gives no formula (R74). -/
opaque Config.notchZero : Nat → Int

/-- The pole radius of a notch recipe from its width and a sample period in ns, in Q2.30: the spec gives no formula (R74). -/
opaque Config.notchPole : Nat → Nat → Int

/-- B0, B1, B2, A1, A2 of a recipe with a parameter that is no number, or that divides by 0, for parameters in binary32 and
a sample period in ns: the spec states no result (R74). -/
opaque Config.recipe : Nat → List Nat → Nat → List Rat

/-- What the discrete form of the flux integral and of its filter leaves open (R310), in 2^(−32) mWb around 0; less than a unit of
DRV_FLUX_EST of it is used. -/
opaque Config.fluxOpen : List Int → Nat → Nat

/-- The angle of a vector takes the unit above its direction and not the one below: the spec leaves its rounding open (R310). -/
opaque Config.angleUp : Int → Int → Bool

/-- The angle of the vector 0, which the spec does not state (R310). -/
opaque Config.angleOfZero : Nat

/-- What the discrete form of the motor model leaves open in a predicted current (R314), in units of the converter; one at most of it is
used. -/
opaque Config.predictOpen : List Int → Nat → Nat

/-- The magnitude |e| ÷ (2π f_e) of the flux at a catch takes the value above it and not the one below: rounding is open (R317). -/
opaque Config.catchUp : Nat → Nat → Bool

/-- A torque estimate takes the value above it and not the one below: rounding is open (R310). -/
opaque Config.torqueUp : List Int → Bool

/-- The proportional gain of the phase-current loops, in 2^(−31) of full scale (R321): the spec gives none. -/
opaque Config.loopP : Int

/-- Their integral gain (R321). -/
opaque Config.loopI : Int

/-- The CRC-32C of a page of an image in the configuration log, from its sequence number, the page and what the image holds there (R291):
the spec does not give the order of an image's bytes. -/
opaque Config.pageCrc : Nat → Nat → List (Nat × Nat) → Nat

/-- The CRC-32C of a safety parameter set (R298, R409): the spec names the CRC and not the order of the words under
it. -/
opaque Config.safetyCrc : List Nat → Nat

/-- The key that PBKDF2-HMAC-SHA-256 derives from a password under a salt, 256 bits (R296). -/
opaque Config.pbkdf2 (salt : Nat) (password : List Nat) : Nat

/-- SHA-256 of the public key in the header of a firmware image, 256 bits (R295). -/
opaque Config.imageKey : List Nat → Nat

/-- The ECDSA P-256 signature of a firmware image verifies with the key in its header (R295). -/
opaque Config.imageSigned : List Nat → Bool

/-- The rollback counter of a firmware image (R295); the place of the counter in the image is not given. -/
opaque Config.imageRollback : List Nat → Nat

/-- The version of a firmware image, in the format of HIF_FW_VER (R301). -/
opaque Config.imageVersion : List Nat → Nat

/-- The ECDSA P-256 signature of 96-byte tokens verifies with the key whose hash is given (R479). -/
opaque Config.tokenSigned (token : List Nat) (keyHash : Nat) : Bool

/-- The signature of the device key over bytes, 64 bytes as one number (R486). -/
opaque Config.deviceSign : List Nat → Nat

end Sys2Proof
end

