-- ==== Sys2Proof/Machine/Map.lean ====
section
/-! DEFINITION. The two sorted maps the state is made of: register values by key, and the bytes of the
on-module memories by address (Host.Cell). In both an unlisted key reads as the value a fresh part holds, and
no entry repeats that value, so equal contents are equal lists. -/

namespace Sys2Proof.Machine

/-- The value listed under a key, if any. -/
def regFind (l : List (Nat × Nat)) (k : Nat) : Option Nat :=
  match l with
  | [] => none
  | p :: t => if p.1 = k then some p.2 else regFind t k

/-- The list without a key. -/
def regDrop (l : List (Nat × Nat)) (k : Nat) : List (Nat × Nat) :=
  l.filter fun p => p.1 != k

/-- A new entry at its place in the rising order. -/
def regAdd (k v : Nat) : List (Nat × Nat) → List (Nat × Nat)
  | [] => [(k, v)]
  | p :: t => if k < p.1 then (k, v) :: p :: t else p :: regAdd k v t

/-- The list with key `k` at value `v`, where an unlisted `k` reads as `dflt`. -/
def regSet (l : List (Nat × Nat)) (k dflt v : Nat) : List (Nat × Nat) :=
  if v = dflt then regDrop l k else regAdd k v (regDrop l k)

/-- The value of key `k`, where an unlisted `k` reads as `dflt`. -/
def regGet (l : List (Nat × Nat)) (k dflt : Nat) : Nat :=
  (regFind l k).getD dflt

/-- The keys rise strictly. -/
def regSorted : List (Nat × Nat) → Bool
  | [] => true
  | p :: t => (t.all fun q => decide (p.1 < q.1)) && regSorted t

/-- The contents of an on-module memory that nothing has written (R475: start-up writes every array with
zero and good check bits). -/
def memEmpty : Byte := 0

/-- The byte at an address. -/
def memGet (l : List Host.Cell) (a : Nat) : Byte :=
  match l with
  | [] => memEmpty
  | p :: t => if p.1 = a then p.2 else memGet t a

/-- A new cell at its place in the rising order. -/
def memAdd (a : Nat) (v : Byte) : List Host.Cell → List Host.Cell
  | [] => [(a, v)]
  | p :: t => if a < p.1 then (a, v) :: p :: t else p :: memAdd a v t

/-- The memory without an address's cell. -/
def memDrop (l : List Host.Cell) (a : Nat) : List Host.Cell :=
  l.filter fun p => p.1 != a

/-- The memory with `v` at address `a`. -/
def memSet (l : List Host.Cell) (a : Nat) (v : Byte) : List Host.Cell :=
  if v = memEmpty then memDrop l a else memAdd a v (memDrop l a)

/-- The canonical form: addresses strictly rising, no cell at the unlisted value. -/
def Memory.wf : List Host.Cell → Bool
  | [] => true
  | p :: t => (t.all fun q => decide (p.1 < q.1)) && decide (p.2 ≠ memEmpty) && Memory.wf t

end Sys2Proof.Machine
end

