-- ==== Sys2Proof/Machine/Arith.lean ====
section
/-! DEFINITION. Numbers: two's complement views, saturation, rounding, bits and little-endian bytes (R8, R9). -/

namespace Sys2Proof.Machine

/-- The value of the low `w` bits of `n` as a two's complement number. -/
def sext (w n : Nat) : Int :=
  if n % 2 ^ w < 2 ^ (w - 1) then ((n % 2 ^ w : Nat) : Int) else ((n % 2 ^ w : Nat) : Int) - ((2 ^ w : Nat) : Int)

/-- The `w`-bit word of an integer, two's complement. -/
def trunc (w : Nat) (v : Int) : Nat := (v % ((2 ^ w : Nat) : Int)).toNat

/-- The integer held into a range. -/
def clampI (lo hi v : Int) : Int := if v < lo then lo else if hi < v then hi else v

/-- The natural number held into a range. -/
def clampN (lo hi v : Nat) : Nat := if v < lo then lo else if hi < v then hi else v

/-- Saturation to `w` bits, two's complement. -/
def satI (w : Nat) (v : Int) : Int := clampI (-((2 ^ (w - 1) : Nat) : Int)) (((2 ^ (w - 1) : Nat) : Int) - 1) v

/-- An integer lies in `w` bits, two's complement. -/
def fitsI (w : Nat) (v : Int) : Bool := decide (satI w v = v)

/-- Bit `k` of a word. -/
def bit (n k : Nat) : Bool := n / 2 ^ k % 2 == 1

/-- Bits `lo + w - 1` down to `lo`. -/
def bits (n lo w : Nat) : Nat := n / 2 ^ lo % 2 ^ w

/-- The word with bit `k` set. -/
def setBit (n k : Nat) : Nat := n ||| 2 ^ k

/-- The word with bit `k` clear. -/
def clrBit (n k : Nat) : Nat := if bit n k then n - 2 ^ k else n

/-- The bits of `n` that are not in `mask`. -/
def andNot (n mask : Nat) : Nat := n - (n &&& mask)

/-- 1 or 0. -/
def b2n (b : Bool) : Nat := if b then 1 else 0

/-- Arithmetic shift right: floor of `v / 2^n`. -/
def asr (v : Int) (n : Nat) : Int := v / ((2 ^ n : Nat) : Int)

/-- Quotient by `2^n` rounded to nearest, ties away from zero. -/
def roundAway (v : Int) (n : Nat) : Int :=
  if n = 0 then v
  else if 0 ≤ v then asr (v + ((2 ^ (n - 1) : Nat) : Int)) n
  else -(asr (-v + ((2 ^ (n - 1) : Nat) : Int)) n)

/-- Quotient by `2^n` rounded to nearest, ties to even. -/
def roundEven (v : Int) (n : Nat) : Int :=
  if n = 0 then v
  else
    let q := asr v n
    let r := v - q * ((2 ^ n : Nat) : Int)
    let h : Int := ((2 ^ (n - 1) : Nat) : Int)
    if r < h then q else if h < r then q + 1 else if q % 2 = 0 then q else q + 1

/-- Integer quotient rounded to nearest, ties away from zero; 0 for a divisor of 0. -/
def divRound (a : Int) (b : Nat) : Int :=
  if b = 0 then 0
  else if 0 ≤ a then (2 * a + b) / (2 * b) else -((2 * -a + b) / (2 * b))

/-- A rational in units of `1/n`, rounded to nearest, ties away from zero. -/
def ratIn (n : Nat) (x : Rat) : Int := divRound (x.num * n) x.den

/-- The `n` little-endian bytes of a value. -/
def toBytes : Nat → Nat → List Nat
  | 0, _ => []
  | n + 1, v => v % 256 :: toBytes n (v / 256)

/-- The value of little-endian bytes. -/
def ofBytes : List Nat → Nat
  | [] => 0
  | b :: t => b % 256 + 256 * ofBytes t

/-- The 32-bit little-endian words of bytes, a last short word dropped. -/
def toWords : List Nat → List Nat
  | a :: b :: c :: d :: t => ofBytes [a, b, c, d] :: toWords t
  | _ => []

/-- The bytes of 32-bit words. -/
def ofWords (ws : List Nat) : List Nat := ws.flatMap (toBytes 4)

/-- The number of bits set among the low `n`. -/
def popCount (n v : Nat) : Nat := ((List.range n).filter fun k => bit v k).length

/-- The indices of the bits set among the low `n`, ascending. -/
def bitsOn (n v : Nat) : List Nat := (List.range n).filter fun k => bit v k

/-- Floor of the square root, bit by bit from `2^k` down. -/
def sqrtFrom : Nat → Nat → Nat → Nat
  | 0, _, r => r
  | k + 1, n, r => if (r + 2 ^ k) * (r + 2 ^ k) ≤ n then sqrtFrom k n (r + 2 ^ k) else sqrtFrom k n r

/-- Floor of the square root of a value below `2^256`. -/
def isqrt (n : Nat) : Nat := sqrtFrom 128 n 0

/-- Floor of the cube root, bit by bit. -/
def cbrtFrom : Nat → Nat → Nat → Nat
  | 0, _, r => r
  | k + 1, n, r =>
    if (r + 2 ^ k) * (r + 2 ^ k) * (r + 2 ^ k) ≤ n then cbrtFrom k n (r + 2 ^ k) else cbrtFrom k n r

/-- Floor of the cube root of a value below `2^192`. -/
def icbrt (n : Nat) : Nat := cbrtFrom 64 n 0

/-- The list with entry `i` replaced, where it has one. -/
def setAt {α : Type} (l : List α) (i : Nat) (v : α) : List α := l.set i v

end Sys2Proof.Machine
end

