-- ==== Sys2Proof/Machine/Fields.lean ====
section
/-! DEFINITION. The register fields of the part, one constant per field of the spec's register tables, with
its place, access code and reset value (R11, R13). Axis records, group records, learning-table headers and
the BAR2 windows have tables of the same form and stand in address spaces of their own. -/

namespace Sys2Proof.Machine

/-- The access codes of R11. -/
inductive Acc where
  | RW | RO | WO | W1C | W1S | RC
  deriving DecidableEq, Repr

/-- What becomes of a written value (R275): clamped into a range, or a reserved code read as another. -/
inductive Fix where
  | clamp (lo hi : Nat)
  | code (lo hi val : Nat)
  deriving DecidableEq, Repr

/-- One register field: instance i, element j lies at byte address base + stride * i + step * j, from bit
`lo` up, `width` bits wide. `rsts`, when not empty, holds the reset values of the elements, repeating. -/
structure Fld where
  base : Nat
  lo : Nat
  width : Nat
  acc : Acc := .RO
  reset : Nat := 0
  n : Nat := 1
  stride : Nat := 0
  m : Nat := 1
  step : Nat := 0
  rsts : List Nat := []
  fix : List Fix := []
  deriving DecidableEq, Repr


namespace R

/-- R56. -/
def AXS_STATUS_STATE : Fld := { base := 0x20000000, lo := 0, width := 4, n := 256, stride := 0x10 }
/-- R56. -/
def AXS_STATUS_KIND : Fld := { base := 0x20000000, lo := 4, width := 2, n := 256, stride := 0x10 }
/-- R56. -/
def AXS_STATUS_SAFE_DEMAND : Fld := { base := 0x20000000, lo := 6, width := 1, n := 256, stride := 0x10 }
/-- R56. -/
def AXS_STATUS_STALE : Fld := { base := 0x20000000, lo := 7, width := 1, n := 256, stride := 0x10 }
/-- R56. -/
def AXS_STATUS_ARITH : Fld := { base := 0x20000000, lo := 8, width := 1, n := 256, stride := 0x10 }
/-- R56. -/
def AXS_STATUS_FE_WARN : Fld := { base := 0x20000000, lo := 9, width := 1, n := 256, stride := 0x10 }
/-- R56. -/
def AXS_STATUS_LIMIT_VIOL : Fld := { base := 0x20000000, lo := 10, width := 1, n := 256, stride := 0x10 }
/-- R56. -/
def AXS_STATUS_POS_UNCERTAIN : Fld := { base := 0x20000000, lo := 11, width := 1, n := 256, stride := 0x10 }
/-- R56. -/
def AXS_STATUS_TORQUE_LIMITED : Fld := { base := 0x20000000, lo := 12, width := 1, n := 256, stride := 0x10 }
/-- R56. -/
def AXS_STATUS_BRAKE : Fld := { base := 0x20000000, lo := 13, width := 1, reset := 0x1, n := 256, stride := 0x10 }
/-- R56. -/
def AXS_STATUS_HOMED : Fld := { base := 0x20000000, lo := 14, width := 1, n := 256, stride := 0x10 }
/-- R56. -/
def AXS_STATUS_REACTION : Fld := { base := 0x20000000, lo := 16, width := 4, reset := 0xf, n := 256, stride := 0x10 }
/-- R56. -/
def AXS_STATUS_FAULT_CLASS : Fld := { base := 0x20000000, lo := 20, width := 4, n := 256, stride := 0x10 }
/-- R56. -/
def AXS_STATUS_OVR_CONSEC : Fld := { base := 0x20000000, lo := 24, width := 2, n := 256, stride := 0x10 }
/-- R56. -/
def AXS_STATUS_DELAY : Fld := { base := 0x20000000, lo := 32, width := 21, n := 256, stride := 0x10 }
/-- R56. -/
def AXS_STATUS_SAMPLE_SEQ : Fld := { base := 0x20000000, lo := 53, width := 11, n := 256, stride := 0x10 }
/-- R57. -/
def LIV_SAMPLES : Fld := { base := 0x21000004, lo := 0, width := 32, n := 256, stride := 0x40 }
/-- R57. -/
def LIV_FE_MIN : Fld := { base := 0x21000008, lo := 0, width := 32, reset := 0x7fffffff, n := 256, stride := 0x40 }
/-- R57. -/
def LIV_FE_MAX : Fld := { base := 0x2100000c, lo := 0, width := 32, reset := 0x80000000, n := 256, stride := 0x40 }
/-- R57. -/
def LIV_OVERRUN : Fld := { base := 0x21000010, lo := 0, width := 32, n := 256, stride := 0x40 }
/-- R57. -/
def LIV_ELLIPSIS : Fld := { base := 0x21000014, lo := 0, width := 32, n := 256, stride := 0x40 }
/-- R57. -/
def LIV_MISS_FB : Fld := { base := 0x21000018, lo := 0, width := 32, n := 256, stride := 0x40 }
/-- R57. -/
def LIV_MISS_CMD : Fld := { base := 0x2100001c, lo := 0, width := 32, n := 256, stride := 0x40 }
/-- R57. -/
def LIV_CLAMP : Fld := { base := 0x21000020, lo := 0, width := 32, n := 256, stride := 0x40 }
/-- R55. -/
def AXS_EN_TIMEOUT : Fld := { base := 0x10000700, lo := 0, width := 16, acc := .RW, reset := 0x1f4, n := 256, stride := 0x1000, fix := [.clamp 0x1 0x1388] }
/-- R55. -/
def AXS_STOP_HOLD : Fld := { base := 0x10000704, lo := 0, width := 16, acc := .RW, reset := 0x32, n := 256, stride := 0x1000, fix := [.clamp 0x0 0x3e8] }
/-- R55. -/
def AXS_BRK_DELAY : Fld := { base := 0x10000704, lo := 16, width := 16, acc := .RW, n := 256, stride := 0x1000, fix := [.clamp 0x0 0x1f4] }
/-- R55. -/
def AXS_STOP_TIMEOUT : Fld := { base := 0x10000708, lo := 0, width := 16, acc := .RW, reset := 0x3e8, n := 256, stride := 0x1000, fix := [.clamp 0xa 0x2710] }
/-- R55. -/
def AXS_FB_LIMIT : Fld := { base := 0x1000070c, lo := 0, width := 5, acc := .RW, reset := 0x3, n := 256, stride := 0x1000, fix := [.clamp 0x1 0x10] }
/-- R55. -/
def AXS_BRK_FIO : Fld := { base := 0x1000070c, lo := 8, width := 6, acc := .RW, reset := 0x3f, n := 256, stride := 0x1000, fix := [.code 0x20 0x3e 0x3f] }
/-- R55. -/
def AXS_REACT : Fld := { base := 0x10000710, lo := 0, width := 8, acc := .RW, n := 256, stride := 0x1000, m := 13, step := 1, rsts := [0x1, 0x2, 0x1, 0x1, 0x3, 0x3, 0x1, 0x3, 0x3, 0x3, 0x3, 0x1, 0xf], fix := [.clamp 0x0 0x3] }
/-- R61. -/
def SNP_SEQ : Fld := { base := 0x40010000, lo := 0, width := 32, n := 259, stride := 0x40 }
/-- R61. -/
def SNP_SAMPLES : Fld := { base := 0x40010004, lo := 0, width := 32, n := 259, stride := 0x40 }
/-- R61. -/
def SNP_FE_MIN : Fld := { base := 0x40010008, lo := 0, width := 32, reset := 0x7fffffff, n := 259, stride := 0x40 }
/-- R61. -/
def SNP_FE_MAX : Fld := { base := 0x4001000c, lo := 0, width := 32, reset := 0x80000000, n := 259, stride := 0x40 }
/-- R61. -/
def SNP_OVERRUN : Fld := { base := 0x40010010, lo := 0, width := 32, n := 259, stride := 0x40 }
/-- R61. -/
def SNP_ELLIPSIS : Fld := { base := 0x40010014, lo := 0, width := 32, n := 259, stride := 0x40 }
/-- R61. -/
def SNP_MISS_FB : Fld := { base := 0x40010018, lo := 0, width := 32, n := 259, stride := 0x40 }
/-- R61. -/
def SNP_MISS_CMD : Fld := { base := 0x4001001c, lo := 0, width := 32, n := 259, stride := 0x40 }
/-- R61. -/
def SNP_CLAMP : Fld := { base := 0x40010020, lo := 0, width := 32, n := 259, stride := 0x40 }
/-- R61. -/
def SNP_AXES : Fld := { base := 0x40010024, lo := 0, width := 9, n := 259, stride := 0x40 }
/-- R61. -/
def SNP_BOUNDARY : Fld := { base := 0x40010028, lo := 0, width := 64, n := 259, stride := 0x40 }
/-- R61. -/
def SNP_SEQ_END : Fld := { base := 0x4001003c, lo := 0, width := 32, n := 259, stride := 0x40 }
/-- R89. -/
def GRP_CFG_N : Fld := { base := 0x18000000, lo := 0, width := 4, acc := .RW, n := 32, stride := 0x200, fix := [.code 0x1 0x1 0x0, .clamp 0x0 0x8] }
/-- R89. -/
def GRP_CFG_FREEZE : Fld := { base := 0x18000000, lo := 4, width := 1, acc := .RW, n := 32, stride := 0x200 }
/-- R89. -/
def GRP_CFG_CC_SHIFT : Fld := { base := 0x18000000, lo := 16, width := 12, acc := .RW, n := 32, stride := 0x200 }
/-- R89. -/
def GRP_MEM0 : Fld := { base := 0x18000004, lo := 0, width := 32, acc := .RW, n := 32, stride := 0x200 }
/-- R89. -/
def GRP_MEM1 : Fld := { base := 0x18000008, lo := 0, width := 32, acc := .RW, n := 32, stride := 0x200 }
/-- R89. -/
def GRP_M : Fld := { base := 0x18000010, lo := 0, width := 32, acc := .RW, n := 32, stride := 0x200, m := 64, step := 4, rsts := [0x40000000, 0x0, 0x0, 0x0, 0x0, 0x0, 0x0, 0x0, 0x0] }
/-- R89. -/
def GRP_CC_COEF : Fld := { base := 0x18000110, lo := 0, width := 32, acc := .RW, n := 32, stride := 0x200, m := 20, step := 4, rsts := [0x40000000, 0x0, 0x0, 0x0, 0x0] }
/-- R89. -/
def GRP_CC_STATE : Fld := { base := 0x18000160, lo := 0, width := 64, n := 32, stride := 0x200, m := 8, step := 8 }
/-- R95. -/
def LFF_BIND_AXIS : Fld := { base := 0x19000000, lo := 0, width := 8, acc := .RW, n := 64, stride := 0x40 }
/-- R95. -/
def LFF_BIND_EN : Fld := { base := 0x19000000, lo := 8, width := 1, acc := .RW, n := 64, stride := 0x40 }
/-- R95. -/
def LFF_BIND_MOVE_ID : Fld := { base := 0x19000000, lo := 16, width := 16, acc := .RW, n := 64, stride := 0x40 }
/-- R95. -/
def LFF_STAT_STATE : Fld := { base := 0x19000004, lo := 0, width := 2, n := 64, stride := 0x40 }
/-- R95. -/
def LFF_STAT_DUR_MISMATCH : Fld := { base := 0x19000004, lo := 2, width := 1, n := 64, stride := 0x40 }
/-- R95. -/
def LFF_STAT_UPDATE_PENDING : Fld := { base := 0x19000004, lo := 3, width := 1, n := 64, stride := 0x40 }
/-- R95. -/
def LFF_STAT_REPS : Fld := { base := 0x19000004, lo := 16, width := 16, n := 64, stride := 0x40 }
/-- R95. -/
def LFF_GAIN : Fld := { base := 0x19000008, lo := 0, width := 32, acc := .RW, n := 64, stride := 0x40 }
/-- R95. -/
def LFF_CFG_LEAD : Fld := { base := 0x1900000c, lo := 0, width := 6, acc := .RW, n := 64, stride := 0x40 }
/-- R95. -/
def LFF_CFG_QSHIFT : Fld := { base := 0x1900000c, lo := 8, width := 3, acc := .RW, n := 64, stride := 0x40 }
/-- R95. -/
def LFF_CFG_FREEZE : Fld := { base := 0x1900000c, lo := 16, width := 1, acc := .RW, n := 64, stride := 0x40 }
/-- R95. -/
def LFF_D0 : Fld := { base := 0x19000010, lo := 0, width := 32, n := 64, stride := 0x40 }
/-- R95. -/
def LFF_Q : Fld := { base := 0x19000014, lo := 0, width := 32, acc := .RW, n := 64, stride := 0x40, m := 5, step := 4, rsts := [0x40000000, 0x0, 0x0, 0x0, 0x0] }
/-- R102. -/
def AXS_STAGE_CFG_NPOS : Fld := { base := 0x10000000, lo := 0, width := 4, acc := .RW, n := 256, stride := 0x1000, fix := [.clamp 0x0 0x8] }
/-- R102. -/
def AXS_STAGE_CFG_NVEL : Fld := { base := 0x10000000, lo := 4, width := 4, acc := .RW, n := 256, stride := 0x1000, fix := [.clamp 0x0 0xc] }
/-- R102. -/
def AXS_STAGE_CFG_NOUT : Fld := { base := 0x10000000, lo := 8, width := 3, acc := .RW, n := 256, stride := 0x1000, fix := [.clamp 0x0 0x4] }
/-- R102. -/
def AXS_STAGE_CFG_GROUP : Fld := { base := 0x10000000, lo := 16, width := 8, reset := 0xff, n := 256, stride := 0x1000 }
/-- R102. -/
def AXS_SEC_FREEZE : Fld := { base := 0x10000004, lo := 0, width := 24, acc := .RW, n := 256, stride := 0x1000 }
/-- R102. -/
def AXS_SEC_BYPASS : Fld := { base := 0x10000008, lo := 0, width := 24, acc := .RW, n := 256, stride := 0x1000 }
/-- R102. -/
def AXS_SEC_CLHOLD : Fld := { base := 0x10000010, lo := 0, width := 24, acc := .RW, n := 256, stride := 0x1000 }
/-- R102. -/
def AXS_SEC_SHIFT0 : Fld := { base := 0x10000014, lo := 0, width := 24, acc := .RW, n := 256, stride := 0x1000 }
/-- R102. -/
def AXS_SEC_SHIFT1 : Fld := { base := 0x10000018, lo := 0, width := 24, acc := .RW, n := 256, stride := 0x1000 }
/-- R102. -/
def AXS_SEC_SHIFT2 : Fld := { base := 0x1000001c, lo := 0, width := 24, acc := .RW, n := 256, stride := 0x1000 }
/-- R102. -/
def AXS_POS_SCALE : Fld := { base := 0x10000020, lo := 0, width := 32, acc := .RW, reset := 0x10000, n := 256, stride := 0x1000 }
/-- R102. -/
def AXS_VEL_SCALE : Fld := { base := 0x10000024, lo := 0, width := 32, acc := .RW, reset := 0x10000, n := 256, stride := 0x1000 }
/-- R102. -/
def AXS_KVFF : Fld := { base := 0x10000028, lo := 0, width := 32, acc := .RW, n := 256, stride := 0x1000 }
/-- R102. -/
def AXS_KAFF : Fld := { base := 0x1000002c, lo := 0, width := 32, acc := .RW, n := 256, stride := 0x1000 }
/-- R102. -/
def AXS_KTFF : Fld := { base := 0x10000030, lo := 0, width := 32, acc := .RW, n := 256, stride := 0x1000 }
/-- R102. -/
def AXS_KLFF : Fld := { base := 0x10000034, lo := 0, width := 32, acc := .RW, reset := 0x40000000, n := 256, stride := 0x1000 }
/-- R102. -/
def AXS_TRQ_MAX : Fld := { base := 0x10000038, lo := 0, width := 32, acc := .RW, reset := 0x7fffffff, n := 256, stride := 0x1000 }
/-- R102. -/
def AXS_TRQ_MIN : Fld := { base := 0x1000003c, lo := 0, width := 32, acc := .RW, reset := 0x80000000, n := 256, stride := 0x1000 }
/-- R102. -/
def AXS_P_DEM : Fld := { base := 0x10000040, lo := 0, width := 64, n := 256, stride := 0x1000 }
/-- R102. -/
def AXS_P_ACT : Fld := { base := 0x10000048, lo := 0, width := 64, n := 256, stride := 0x1000 }
/-- R102. -/
def AXS_FE : Fld := { base := 0x10000050, lo := 0, width := 32, n := 256, stride := 0x1000 }
/-- R102. -/
def AXS_V_ACT : Fld := { base := 0x10000054, lo := 0, width := 32, n := 256, stride := 0x1000 }
/-- R102. -/
def AXS_TRQ_CMD : Fld := { base := 0x10000058, lo := 0, width := 32, n := 256, stride := 0x1000 }
/-- R102. -/
def AXS_LIM_FLAGS : Fld := { base := 0x1000005c, lo := 0, width := 2, n := 256, stride := 0x1000 }
/-- R102. -/
def AXS_TRK0_COEF : Fld := { base := 0x10000060, lo := 0, width := 32, n := 256, stride := 0x1000, m := 5, step := 4 }
/-- R102. -/
def AXS_TRK1_COEF : Fld := { base := 0x10000074, lo := 0, width := 32, n := 256, stride := 0x1000, m := 5, step := 4 }
/-- R102. -/
def AXS_SEC_COEF : Fld := { base := 0x100000a0, lo := 0, width := 32, acc := .RW, n := 256, stride := 0x1000, m := 120, step := 4, rsts := [0x40000000, 0x0, 0x0, 0x0, 0x0] }
/-- R102. -/
def AXS_SEC_STATE : Fld := { base := 0x10000280, lo := 0, width := 64, n := 256, stride := 0x1000, m := 48, step := 8 }
/-- R103. -/
def AXS_FE_LIMIT : Fld := { base := 0x10000400, lo := 0, width := 32, acc := .RW, reset := 0x2710, n := 256, stride := 0x1000 }
/-- R103. -/
def AXS_FE_IMM : Fld := { base := 0x10000404, lo := 0, width := 32, acc := .RW, reset := 0x186a0, n := 256, stride := 0x1000 }
/-- R103. -/
def AXS_FE_TIME : Fld := { base := 0x10000408, lo := 0, width := 32, acc := .RW, reset := 0x2710, n := 256, stride := 0x1000, fix := [.clamp 0x0 0xf4240] }
/-- R103. -/
def AXS_FE_CTL_EN_TIMED : Fld := { base := 0x1000040c, lo := 0, width := 1, acc := .RW, reset := 0x1, n := 256, stride := 0x1000 }
/-- R103. -/
def AXS_FE_CTL_EN_IMM : Fld := { base := 0x1000040c, lo := 1, width := 1, acc := .RW, reset := 0x1, n := 256, stride := 0x1000 }
/-- R103. -/
def AXS_FE_CTL_FE_CNT : Fld := { base := 0x1000040c, lo := 16, width := 16, n := 256, stride := 0x1000 }
/-- R103. -/
def AXS_TRK0_RP : Fld := { base := 0x10000414, lo := 0, width := 32, acc := .RW, reset := 0x3ccccccd, n := 256, stride := 0x1000 }
/-- R103. -/
def AXS_TRK0_RZ : Fld := { base := 0x10000418, lo := 0, width := 32, acc := .RW, reset := 0x40000000, n := 256, stride := 0x1000 }
/-- R103. -/
def AXS_TRK1_RP : Fld := { base := 0x1000041c, lo := 0, width := 32, acc := .RW, reset := 0x3ccccccd, n := 256, stride := 0x1000 }
/-- R103. -/
def AXS_TRK1_RZ : Fld := { base := 0x10000420, lo := 0, width := 32, acc := .RW, reset := 0x40000000, n := 256, stride := 0x1000 }
/-- R103. -/
def AXS_TRK0_FC : Fld := { base := 0x10000424, lo := 0, width := 32, n := 256, stride := 0x1000 }
/-- R103. -/
def AXS_TRK1_FC : Fld := { base := 0x10000428, lo := 0, width := 32, n := 256, stride := 0x1000 }
/-- R103. -/
def AXS_PRB_SEL0 : Fld := { base := 0x100005b0, lo := 0, width := 32, acc := .RW, reset := 0xffffffff, n := 256, stride := 0x1000 }
/-- R103. -/
def AXS_PRB_SEL1 : Fld := { base := 0x100005b4, lo := 0, width := 32, acc := .RW, reset := 0xffffffff, n := 256, stride := 0x1000 }
/-- R103. -/
def AXS_PRB_CTL_DECIM : Fld := { base := 0x100005b8, lo := 0, width := 8, acc := .RW, n := 256, stride := 0x1000 }
/-- R103. -/
def AXS_PRB_CTL_EN : Fld := { base := 0x100005b8, lo := 8, width := 1, acc := .RW, n := 256, stride := 0x1000 }
/-- R103. -/
def AXS_PRB_STAT_LOST : Fld := { base := 0x100005bc, lo := 0, width := 32, n := 256, stride := 0x1000 }
/-- R137. -/
def SCH_DESC_ENTRY : Fld := { base := 0x41000, lo := 0, width := 16, n := 1024, stride := 0x20 }
/-- R137. -/
def SCH_DESC_PRIO : Fld := { base := 0x41000, lo := 16, width := 3, n := 1024, stride := 0x20 }
/-- R137. -/
def SCH_DESC_REL : Fld := { base := 0x41000, lo := 20, width := 2, reset := 0x3, n := 1024, stride := 0x20 }
/-- R137. -/
def SCH_DESC_EN : Fld := { base := 0x41000, lo := 22, width := 1, n := 1024, stride := 0x20 }
/-- R137. -/
def SCH_DESC_TYPE : Fld := { base := 0x41000, lo := 24, width := 4, n := 1024, stride := 0x20 }
/-- R137. -/
def SCH_DESC_REC : Fld := { base := 0x41004, lo := 0, width := 8, n := 1024, stride := 0x20 }
/-- R137. -/
def SCH_DESC_RTYPE : Fld := { base := 0x41004, lo := 8, width := 2, reset := 0x2, n := 1024, stride := 0x20 }
/-- R137. -/
def SCH_DESC_AFF : Fld := { base := 0x41004, lo := 16, width := 4, n := 1024, stride := 0x20 }
/-- R137. -/
def SCH_DESC_AFFV : Fld := { base := 0x41004, lo := 20, width := 1, n := 1024, stride := 0x20 }
/-- R137. -/
def SCH_DESC_PEND : Fld := { base := 0x41004, lo := 24, width := 3, n := 1024, stride := 0x20 }
/-- R137. -/
def SCH_DESC_JCNT : Fld := { base := 0x41004, lo := 28, width := 4, n := 1024, stride := 0x20 }
/-- R137. -/
def SCH_DESC_SLOT : Fld := { base := 0x41008, lo := 0, width := 8, n := 1024, stride := 0x20 }
/-- R137. -/
def SCH_DESC_RING : Fld := { base := 0x41008, lo := 15, width := 1, n := 1024, stride := 0x20 }
/-- R137. -/
def SCH_DESC_DIV : Fld := { base := 0x41008, lo := 16, width := 2, n := 1024, stride := 0x20 }
/-- R137. -/
def SCH_DESC_PHASE : Fld := { base := 0x41008, lo := 18, width := 3, n := 1024, stride := 0x20 }
/-- R137. -/
def SCH_DESC_BUDGET : Fld := { base := 0x4100c, lo := 0, width := 16, n := 1024, stride := 0x20 }
/-- R137. -/
def SCH_DESC_DLSEL : Fld := { base := 0x4100c, lo := 16, width := 2, n := 1024, stride := 0x20 }
/-- R137. -/
def SCH_DESC_DLREL : Fld := { base := 0x4100c, lo := 18, width := 14, n := 1024, stride := 0x20 }
/-- R137. -/
def SCH_DESC_NEXT : Fld := { base := 0x41010, lo := 0, width := 10, n := 1024, stride := 0x20 }
/-- R137. -/
def SCH_DESC_NEXT_EN : Fld := { base := 0x41010, lo := 10, width := 1, n := 1024, stride := 0x20 }
/-- R137. -/
def SCH_DESC_SIB : Fld := { base := 0x41010, lo := 16, width := 10, n := 1024, stride := 0x20 }
/-- R137. -/
def SCH_DESC_SIB_EN : Fld := { base := 0x41010, lo := 26, width := 1, n := 1024, stride := 0x20 }
/-- R137. -/
def SCH_DESC_JOIN : Fld := { base := 0x41010, lo := 28, width := 4, n := 1024, stride := 0x20 }
/-- R137. -/
def SCH_DESC_FSW0 : Fld := { base := 0x41014, lo := 0, width := 32, n := 1024, stride := 0x20 }
/-- R137. -/
def SCH_DESC_FSW1 : Fld := { base := 0x41018, lo := 0, width := 32, n := 1024, stride := 0x20 }
/-- R137. -/
def SCH_DESC_LAST_CYC : Fld := { base := 0x4101c, lo := 0, width := 16, n := 1024, stride := 0x20 }
/-- R137. -/
def SCH_DESC_MAX_CYC : Fld := { base := 0x4101c, lo := 16, width := 16, n := 1024, stride := 0x20 }
/-- R163. -/
def SCH_STATUS_ENG_INSVC : Fld := { base := 0x40000, lo := 0, width := 16, reset := 0xffff }
/-- R163. -/
def SCH_STATUS_OVERLOAD : Fld := { base := 0x40000, lo := 16, width := 1 }
/-- R163. -/
def SCH_STATUS_TRC_FROZEN : Fld := { base := 0x40000, lo := 17, width := 1 }
/-- R163. -/
def SCH_ENG_STATE : Fld := { base := 0x40004, lo := 0, width := 32 }
/-- R163. -/
def SCH_RDY : Fld := { base := 0x40008, lo := 0, width := 8 }
/-- R163. -/
def SCH_CFG_ADMIT : Fld := { base := 0x4000c, lo := 0, width := 7, reset := 0x55, fix := [.clamp 0x32 0x5f] }
/-- R163. -/
def SCH_CFG_TRC_POST : Fld := { base := 0x4000c, lo := 16, width := 12, reset := 0x400, fix := [.clamp 0x0 0xfff] }
/-- R163. -/
def SCH_TRC_TRIG : Fld := { base := 0x40010, lo := 0, width := 16 }
/-- R163. -/
def SCH_LOAD_AVG : Fld := { base := 0x40014, lo := 0, width := 10 }
/-- R163. -/
def SCH_LOAD_MAX : Fld := { base := 0x40014, lo := 16, width := 10 }
/-- R163. -/
def SCH_ADMITTED : Fld := { base := 0x40018, lo := 0, width := 10 }
/-- R163. -/
def SCH_CNT_OVR : Fld := { base := 0x40020, lo := 0, width := 32, acc := .RC }
/-- R163. -/
def SCH_CNT_AFFMISS : Fld := { base := 0x40024, lo := 0, width := 32, acc := .RC }
/-- R163. -/
def SCH_CNT_PREEMPT : Fld := { base := 0x40028, lo := 0, width := 32, acc := .RC }
/-- R163. -/
def SCH_CNT_RETRY : Fld := { base := 0x4002c, lo := 0, width := 32, acc := .RC }
/-- R163. -/
def SCH_CNT_ABORT : Fld := { base := 0x40030, lo := 0, width := 32, acc := .RC }
/-- R163. -/
def SCH_CNT_TRCLOST : Fld := { base := 0x40034, lo := 0, width := 32, acc := .RC }
/-- R163. -/
def SCH_TRC_WPTR_IDX : Fld := { base := 0x40040, lo := 0, width := 12 }
/-- R163. -/
def SCH_TRC_WPTR_WRAPS : Fld := { base := 0x40040, lo := 16, width := 16 }
/-- R163. -/
def SCH_TRC_TRIGIDX : Fld := { base := 0x40044, lo := 0, width := 12 }
/-- R163. -/
def SCH_TRC_CTL_FREEZE : Fld := { base := 0x40048, lo := 0, width := 1, acc := .W1S }
/-- R163. -/
def SCH_TRC_CTL_ARM : Fld := { base := 0x40048, lo := 1, width := 1, acc := .W1S }
/-- R163. -/
def SCH_TRC_CTL_RELEASE : Fld := { base := 0x40048, lo := 2, width := 1, acc := .WO }
/-- R170. -/
def TRJ_VMAX : Fld := { base := 0x10000600, lo := 0, width := 32, acc := .RW, reset := 0xf4240, n := 256, stride := 0x1000, fix := [.clamp 0x1 0x7fffffff] }
/-- R170. -/
def TRJ_SSV : Fld := { base := 0x10000604, lo := 0, width := 32, acc := .RW, reset := 0x3e8, n := 256, stride := 0x1000 }
/-- R170. -/
def TRJ_AMAX : Fld := { base := 0x10000608, lo := 0, width := 64, acc := .RW, reset := 0x989680, n := 256, stride := 0x1000, fix := [.clamp 0x1 0xffffffffffff] }
/-- R170. -/
def TRJ_DMAX : Fld := { base := 0x10000610, lo := 0, width := 64, acc := .RW, reset := 0x989680, n := 256, stride := 0x1000, fix := [.clamp 0x1 0xffffffffffff] }
/-- R170. -/
def TRJ_JMAX : Fld := { base := 0x10000618, lo := 0, width := 64, acc := .RW, reset := 0x3b9aca00, n := 256, stride := 0x1000, fix := [.clamp 0x1 0xffffffffffff] }
/-- R170. -/
def TRJ_QDEC : Fld := { base := 0x10000620, lo := 0, width := 64, acc := .RW, reset := 0x1312d00, n := 256, stride := 0x1000, fix := [.clamp 0x1 0xffffffffffff] }
/-- R170. -/
def TRJ_QJRK : Fld := { base := 0x10000628, lo := 0, width := 64, acc := .RW, reset := 0x77359400, n := 256, stride := 0x1000, fix := [.clamp 0x1 0xffffffffffff] }
/-- R170. -/
def TRJ_EDEC : Fld := { base := 0x10000630, lo := 0, width := 64, acc := .RW, reset := 0x2faf080, n := 256, stride := 0x1000, fix := [.clamp 0x1 0xffffffffffff] }
/-- R170. -/
def TRJ_EJRK : Fld := { base := 0x10000638, lo := 0, width := 64, acc := .RW, n := 256, stride := 0x1000, fix := [.clamp 0x0 0xffffffffffff] }
/-- R170. -/
def TRJ_SWL_POS : Fld := { base := 0x10000640, lo := 0, width := 64, acc := .RW, reset := 0x7fffffffffffffff, n := 256, stride := 0x1000 }
/-- R170. -/
def TRJ_SWL_NEG : Fld := { base := 0x10000648, lo := 0, width := 64, acc := .RW, reset := 0x8000000000000000, n := 256, stride := 0x1000 }
/-- R170. -/
def TRJ_AFS : Fld := { base := 0x10000650, lo := 0, width := 64, acc := .RW, reset := 0x80000000, n := 256, stride := 0x1000, fix := [.clamp 0x1 0x7fffffffffffffff] }
/-- R170. -/
def TRJ_SSP : Fld := { base := 0x10000658, lo := 0, width := 32, acc := .RW, reset := 0xa, n := 256, stride := 0x1000 }
/-- R170. -/
def TRJ_CFG_SWL_EN : Fld := { base := 0x1000065c, lo := 0, width := 1, acc := .RW, n := 256, stride := 0x1000 }
/-- R170. -/
def TRJ_CFG_LIM_P : Fld := { base := 0x1000065c, lo := 8, width := 8, acc := .RW, reset := 0xff, n := 256, stride := 0x1000, fix := [.code 0x20 0x3f 0xff, .code 0x43 0xfe 0xff] }
/-- R170. -/
def TRJ_CFG_LIM_N : Fld := { base := 0x1000065c, lo := 16, width := 8, acc := .RW, reset := 0xff, n := 256, stride := 0x1000, fix := [.code 0x20 0x3f 0xff, .code 0x43 0xfe 0xff] }
/-- R170. -/
def TRJ_CFG_HOME : Fld := { base := 0x1000065c, lo := 24, width := 8, acc := .RW, reset := 0xff, n := 256, stride := 0x1000, fix := [.code 0x20 0x3f 0xff, .code 0x43 0xfe 0xff] }
/-- R170. -/
def TRJ_TFF_STAT : Fld := { base := 0x10000660, lo := 0, width := 32, acc := .RW, n := 256, stride := 0x1000 }
/-- R170. -/
def TRJ_TFF_FRIC : Fld := { base := 0x10000664, lo := 0, width := 32, acc := .RW, n := 256, stride := 0x1000 }
/-- R170. -/
def TRJ_STAT_MODE : Fld := { base := 0x10000668, lo := 0, width := 3, n := 256, stride := 0x1000 }
/-- R170. -/
def TRJ_STAT_INPOS : Fld := { base := 0x10000668, lo := 3, width := 1, n := 256, stride := 0x1000 }
/-- R170. -/
def TRJ_STAT_LIMP : Fld := { base := 0x10000668, lo := 4, width := 1, n := 256, stride := 0x1000 }
/-- R170. -/
def TRJ_STAT_LIMN : Fld := { base := 0x10000668, lo := 5, width := 1, n := 256, stride := 0x1000 }
/-- R170. -/
def TRJ_STAT_REVERSAL : Fld := { base := 0x10000668, lo := 6, width := 1, n := 256, stride := 0x1000 }
/-- R170. -/
def TRJ_OVERSHOOT : Fld := { base := 0x1000066c, lo := 0, width := 32, n := 256, stride := 0x1000 }
/-- R170. -/
def TRJ_TARGET : Fld := { base := 0x10000670, lo := 0, width := 64, n := 256, stride := 0x1000 }
/-- R170. -/
def TRJ_T_END : Fld := { base := 0x10000678, lo := 0, width := 64, n := 256, stride := 0x1000 }
/-- R170. -/
def TRJ_SEG_STAT_COUNT : Fld := { base := 0x10000680, lo := 0, width := 8, n := 256, stride := 0x1000 }
/-- R170. -/
def TRJ_SEG_STAT_STATE : Fld := { base := 0x10000680, lo := 8, width := 3, n := 256, stride := 0x1000 }
/-- R170. -/
def TRJ_SEG_STAT_UNDERRUNS : Fld := { base := 0x10000680, lo := 16, width := 16, n := 256, stride := 0x1000 }
/-- R170. -/
def TRJ_SEG_DONE : Fld := { base := 0x10000684, lo := 0, width := 32, n := 256, stride := 0x1000 }
/-- R170. -/
def HM_CFG_METHOD : Fld := { base := 0x100006a0, lo := 0, width := 3, acc := .RW, n := 256, stride := 0x1000, fix := [.clamp 0x0 0x4] }
/-- R170. -/
def HM_CFG_DIR : Fld := { base := 0x100006a0, lo := 3, width := 1, acc := .RW, n := 256, stride := 0x1000 }
/-- R170. -/
def HM_CFG_REV : Fld := { base := 0x100006a0, lo := 4, width := 1, acc := .RW, reset := 0x1, n := 256, stride := 0x1000 }
/-- R170. -/
def HM_VSEARCH : Fld := { base := 0x100006a4, lo := 0, width := 32, acc := .RW, reset := 0xc350, n := 256, stride := 0x1000 }
/-- R170. -/
def HM_VCREEP : Fld := { base := 0x100006a8, lo := 0, width := 32, acc := .RW, reset := 0x1388, n := 256, stride := 0x1000 }
/-- R170. -/
def HM_TRQ : Fld := { base := 0x100006ac, lo := 0, width := 32, acc := .RW, reset := 0x1999999a, n := 256, stride := 0x1000 }
/-- R170. -/
def HM_OFFSET : Fld := { base := 0x100006b0, lo := 0, width := 64, acc := .RW, n := 256, stride := 0x1000 }
/-- R170. -/
def HM_HOMEPOS : Fld := { base := 0x100006b8, lo := 0, width := 64, acc := .RW, n := 256, stride := 0x1000 }
/-- R170. -/
def HM_DIST : Fld := { base := 0x100006c0, lo := 0, width := 64, acc := .RW, reset := 0x7fffffffffffffff, n := 256, stride := 0x1000 }
/-- R170. -/
def HM_DWELL : Fld := { base := 0x100006c8, lo := 0, width := 32, acc := .RW, reset := 0x2710, n := 256, stride := 0x1000 }
/-- R170. -/
def HM_STALLV : Fld := { base := 0x100006cc, lo := 0, width := 32, acc := .RW, reset := 0x3e8, n := 256, stride := 0x1000 }
/-- R170. -/
def HM_FEIMM : Fld := { base := 0x100006d0, lo := 0, width := 32, acc := .RW, reset := 0x186a0, n := 256, stride := 0x1000 }
/-- R170. -/
def HM_TIMEOUT : Fld := { base := 0x100006d4, lo := 0, width := 32, acc := .RW, reset := 0x7530, n := 256, stride := 0x1000, fix := [.clamp 0x64 0x927c0] }
/-- R170. -/
def HM_STAT_PHASE : Fld := { base := 0x100006d8, lo := 0, width := 3, n := 256, stride := 0x1000 }
/-- R170. -/
def HM_STAT_REVERSED : Fld := { base := 0x100006d8, lo := 3, width := 1, n := 256, stride := 0x1000 }
/-- R170. -/
def HM_STAT_LAT_P : Fld := { base := 0x100006d8, lo := 4, width := 1, n := 256, stride := 0x1000 }
/-- R170. -/
def HM_STAT_LAT_N : Fld := { base := 0x100006d8, lo := 5, width := 1, n := 256, stride := 0x1000 }
/-- R170. -/
def HM_STAT_COARSE : Fld := { base := 0x100006d8, lo := 6, width := 1, n := 256, stride := 0x1000 }
/-- R170. -/
def HM_STAT_ERR : Fld := { base := 0x100006d8, lo := 8, width := 8, n := 256, stride := 0x1000 }
/-- R170. -/
def HM_REF : Fld := { base := 0x100006e0, lo := 0, width := 64, n := 256, stride := 0x1000 }
/-- R203. -/
def CMP_TRG_DIR : Fld := { base := 0x80000, lo := 0, width := 16 }
/-- R203. -/
def CMP_CTL_EN : Fld := { base := 0x80100, lo := 0, width := 1, n := 32, stride := 0x40 }
/-- R203. -/
def CMP_CTL_MODE : Fld := { base := 0x80100, lo := 1, width := 2, n := 32, stride := 0x40, fix := [.code 0x3 0x3 0x0] }
/-- R203. -/
def CMP_CTL_DIR : Fld := { base := 0x80100, lo := 3, width := 2, reset := 0x1, n := 32, stride := 0x40, fix := [.code 0x0 0x0 0x3] }
/-- R203. -/
def CMP_CTL_SRC : Fld := { base := 0x80100, lo := 5, width := 1, n := 32, stride := 0x40 }
/-- R203. -/
def CMP_CTL_OUT : Fld := { base := 0x80100, lo := 8, width := 6, reset := 0x3f, n := 32, stride := 0x40 }
/-- R203. -/
def CMP_CTL_POL : Fld := { base := 0x80100, lo := 14, width := 1, n := 32, stride := 0x40 }
/-- R203. -/
def CMP_CTL_AXIS : Fld := { base := 0x80100, lo := 16, width := 8, n := 32, stride := 0x40 }
/-- R203. -/
def CMP_WIDTH : Fld := { base := 0x80104, lo := 0, width := 20, reset := 0x1388, n := 32, stride := 0x40, fix := [.clamp 0x5 0x7a120] }
/-- R203. -/
def CMP_POS : Fld := { base := 0x80108, lo := 0, width := 64, n := 32, stride := 0x40 }
/-- R203. -/
def CMP_INC : Fld := { base := 0x80110, lo := 0, width := 64, n := 32, stride := 0x40 }
/-- R203. -/
def CMP_LIST_BASE : Fld := { base := 0x80118, lo := 0, width := 13, n := 32, stride := 0x40 }
/-- R203. -/
def CMP_LIST_LEN : Fld := { base := 0x80118, lo := 16, width := 14, n := 32, stride := 0x40, fix := [.clamp 0x0 0x2000] }
/-- R203. -/
def CMP_CNT : Fld := { base := 0x8011c, lo := 0, width := 32, n := 32, stride := 0x40 }
/-- R203. -/
def CMP_STAT_FIRED : Fld := { base := 0x80120, lo := 0, width := 16, n := 32, stride := 0x40 }
/-- R203. -/
def CMP_STAT_ARMED : Fld := { base := 0x80120, lo := 16, width := 1, n := 32, stride := 0x40 }
/-- R203. -/
def CMP_STAT_DONE : Fld := { base := 0x80120, lo := 17, width := 1, n := 32, stride := 0x40 }
/-- R203. -/
def CMP_STAT_MISSED : Fld := { base := 0x80120, lo := 24, width := 8, n := 32, stride := 0x40 }
/-- R203. -/
def CMP_FLAGS_GAP : Fld := { base := 0x80124, lo := 0, width := 1, acc := .W1C, n := 32, stride := 0x40 }
/-- R203. -/
def CMP_FLAGS_GAP_STOP : Fld := { base := 0x80124, lo := 1, width := 1, acc := .W1C, n := 32, stride := 0x40 }
/-- R203. -/
def CMP_FLAGS_LATE : Fld := { base := 0x80124, lo := 2, width := 1, acc := .W1C, n := 32, stride := 0x40 }
/-- R203. -/
def CMP_FLAGS_OVERLAP : Fld := { base := 0x80124, lo := 3, width := 1, acc := .W1C, n := 32, stride := 0x40 }
/-- R203. -/
def CMP_LAST_T : Fld := { base := 0x80128, lo := 0, width := 64, n := 32, stride := 0x40 }
/-- R203. -/
def CMP_ARM : Fld := { base := 0x80130, lo := 0, width := 1, acc := .WO, n := 32, stride := 0x40 }
/-- R203. -/
def CMP_DISARM : Fld := { base := 0x80134, lo := 0, width := 1, acc := .WO, n := 32, stride := 0x40 }
/-- R203. -/
def CMP_CAP_CTL_EN : Fld := { base := 0x80900, lo := 0, width := 1, n := 32, stride := 0x40 }
/-- R203. -/
def CMP_CAP_CTL_MODE : Fld := { base := 0x80900, lo := 1, width := 1, n := 32, stride := 0x40 }
/-- R203. -/
def CMP_CAP_CTL_EDGE : Fld := { base := 0x80900, lo := 2, width := 2, reset := 0x1, n := 32, stride := 0x40, fix := [.code 0x0 0x0 0x3] }
/-- R203. -/
def CMP_CAP_CTL_SRC : Fld := { base := 0x80900, lo := 4, width := 6, reset := 0x3f, n := 32, stride := 0x40 }
/-- R203. -/
def CMP_CAP_CTL_AXIS : Fld := { base := 0x80900, lo := 16, width := 8, n := 32, stride := 0x40 }
/-- R203. -/
def CMP_CAP_STAT_COUNT : Fld := { base := 0x80904, lo := 0, width := 5, n := 32, stride := 0x40 }
/-- R203. -/
def CMP_CAP_STAT_ARMED : Fld := { base := 0x80904, lo := 8, width := 1, n := 32, stride := 0x40 }
/-- R203. -/
def CMP_CAP_FLAGS_OVF : Fld := { base := 0x80908, lo := 0, width := 1, acc := .W1C, n := 32, stride := 0x40 }
/-- R203. -/
def CMP_CAP_OVFCNT : Fld := { base := 0x8090c, lo := 0, width := 32, acc := .RC, n := 32, stride := 0x40 }
/-- R203. -/
def CMP_CAP_TS : Fld := { base := 0x80910, lo := 0, width := 64, n := 32, stride := 0x40 }
/-- R203. -/
def CMP_CAP_TSF : Fld := { base := 0x80918, lo := 0, width := 16, n := 32, stride := 0x40 }
/-- R203. -/
def CMP_CAP_EDGE : Fld := { base := 0x80918, lo := 16, width := 1, n := 32, stride := 0x40 }
/-- R203. -/
def CMP_CAP_POS : Fld := { base := 0x80920, lo := 0, width := 64, n := 32, stride := 0x40 }
/-- R203. -/
def CMP_CAP_NEXT : Fld := { base := 0x80928, lo := 0, width := 1, acc := .WO, n := 32, stride := 0x40 }
/-- R203. -/
def CMP_CAP_ARM : Fld := { base := 0x8092c, lo := 0, width := 1, acc := .WO, n := 32, stride := 0x40 }
/-- R249. -/
def NRT_RCFG_EN : Fld := { base := 0x50000, lo := 0, width := 1, n := 2, stride := 0x100 }
/-- R249. -/
def NRT_RCFG_MODE : Fld := { base := 0x50000, lo := 1, width := 2, n := 2, stride := 0x100, fix := [.code 0x3 0x3 0x0] }
/-- R249. -/
def NRT_RCFG_C : Fld := { base := 0x50000, lo := 4, width := 3, reset := 0x2, n := 2, stride := 0x100, fix := [.clamp 0x1 0x4] }
/-- R249. -/
def NRT_RCFG_SSIZE : Fld := { base := 0x50000, lo := 8, width := 2, reset := 0x1, n := 2, stride := 0x100 }
/-- R249. -/
def NRT_RCFG_CYC : Fld := { base := 0x50000, lo := 12, width := 3, reset := 0x1, n := 2, stride := 0x100, fix := [.code 0x5 0x7 0x4] }
/-- R249. -/
def NRT_RCFG2_NSLOT : Fld := { base := 0x50004, lo := 0, width := 9, n := 2, stride := 0x100, fix := [.clamp 0x0 0x100] }
/-- R249. -/
def NRT_RCFG2_NZHV : Fld := { base := 0x50004, lo := 16, width := 7, n := 2, stride := 0x100, fix := [.clamp 0x0 0x40] }
/-- R249. -/
def NRT_RCFG2_NCOMMA : Fld := { base := 0x50004, lo := 24, width := 7, reset := 0x30, n := 2, stride := 0x100, fix := [.clamp 0x0 0x40] }
/-- R249. -/
def NRT_RCFG3_NHC : Fld := { base := 0x50008, lo := 0, width := 4, reset := 0x8, n := 2, stride := 0x100, fix := [.clamp 0x0 0x8] }
/-- R249. -/
def NRT_RCFG3_ETYPE : Fld := { base := 0x50008, lo := 16, width := 16, reset := 0x88b5, n := 2, stride := 0x100 }
/-- R249. -/
def NRT_RCFG4_REF : Fld := { base := 0x5000c, lo := 0, width := 12, n := 2, stride := 0x100 }
/-- R249. -/
def NRT_RCFG4_REF2 : Fld := { base := 0x5000c, lo := 16, width := 12, n := 2, stride := 0x100 }
/-- R249. -/
def NRT_RSTATE_STATE : Fld := { base := 0x50010, lo := 0, width := 3, n := 2, stride := 0x100 }
/-- R249. -/
def NRT_RSTATE_HEAD : Fld := { base := 0x50010, lo := 3, width := 1, n := 2, stride := 0x100 }
/-- R249. -/
def NRT_RSTATE_SPLIT : Fld := { base := 0x50010, lo := 4, width := 1, n := 2, stride := 0x100 }
/-- R249. -/
def NRT_RSTATE_REFUSE : Fld := { base := 0x50010, lo := 8, width := 4, n := 2, stride := 0x100 }
/-- R249. -/
def NRT_TOPO_NODES : Fld := { base := 0x50014, lo := 0, width := 12, n := 2, stride := 0x100 }
/-- R249. -/
def NRT_TOPO_HOPS : Fld := { base := 0x50014, lo := 16, width := 12, n := 2, stride := 0x100 }
/-- R249. -/
def NRT_R_PS : Fld := { base := 0x50018, lo := 0, width := 32, n := 2, stride := 0x100 }
/-- R249. -/
def NRT_F_PS : Fld := { base := 0x5001c, lo := 0, width := 32, n := 2, stride := 0x100 }
/-- R249. -/
def NRT_L_PS : Fld := { base := 0x50020, lo := 0, width := 32, n := 2, stride := 0x100 }
/-- R249. -/
def NRT_G_PS : Fld := { base := 0x50024, lo := 0, width := 32, n := 2, stride := 0x100 }
/-- R249. -/
def NRT_APPLY_NS : Fld := { base := 0x50028, lo := 0, width := 32, n := 2, stride := 0x100 }
/-- R249. -/
def NRT_MAXRX_PS : Fld := { base := 0x5002c, lo := 0, width := 32, n := 2, stride := 0x100 }
/-- R249. -/
def NRT_MEAS_CYC : Fld := { base := 0x50030, lo := 0, width := 64, n := 2, stride := 0x100 }
/-- R249. -/
def NRT_CYCLE : Fld := { base := 0x50038, lo := 0, width := 64, n := 2, stride := 0x100 }
/-- R249. -/
def NRT_TOKEN_CID : Fld := { base := 0x50040, lo := 0, width := 32, n := 2, stride := 0x100 }
/-- R249. -/
def NRT_TOKEN_EPOCH : Fld := { base := 0x50044, lo := 0, width := 16, n := 2, stride := 0x100 }
/-- R249. -/
def NRT_FLAGS_SPLIT_ENTERED : Fld := { base := 0x50048, lo := 0, width := 1, acc := .W1C, n := 2, stride := 0x100 }
/-- R249. -/
def NRT_FLAGS_APPLY_MARGIN : Fld := { base := 0x50048, lo := 1, width := 1, acc := .W1C, n := 2, stride := 0x100 }
/-- R249. -/
def NRT_FLAGS_LATE_RETURN : Fld := { base := 0x50048, lo := 2, width := 1, acc := .W1C, n := 2, stride := 0x100 }
/-- R249. -/
def NRT_FLAGS_TOPO_CHANGE : Fld := { base := 0x50048, lo := 3, width := 1, acc := .W1C, n := 2, stride := 0x100 }
/-- R249. -/
def NRT_FLAGS_NODE_LOST : Fld := { base := 0x50048, lo := 4, width := 1, acc := .W1C, n := 2, stride := 0x100 }
/-- R249. -/
def NRT_FLAGS_DC_UNLOCK : Fld := { base := 0x50048, lo := 5, width := 1, acc := .W1C, n := 2, stride := 0x100 }
/-- R249. -/
def NRT_CNT_MISSFB : Fld := { base := 0x50050, lo := 0, width := 32, acc := .RC, n := 2, stride := 0x100 }
/-- R249. -/
def NRT_CNT_STALE : Fld := { base := 0x50054, lo := 0, width := 32, acc := .RC, n := 2, stride := 0x100 }
/-- R249. -/
def NRT_CNT_CODE : Fld := { base := 0x50058, lo := 0, width := 32, acc := .RC, n := 2, stride := 0x100 }
/-- R249. -/
def NRT_CNT_FCS : Fld := { base := 0x5005c, lo := 0, width := 32, acc := .RC, n := 2, stride := 0x100 }
/-- R249. -/
def NRT_CNT_ACYC_DROP : Fld := { base := 0x50060, lo := 0, width := 32, acc := .RC, n := 2, stride := 0x100 }
/-- R249. -/
def NRT_CNT_FOREIGN_HEAD : Fld := { base := 0x50064, lo := 0, width := 32, acc := .RC, n := 2, stride := 0x100 }
/-- R249. -/
def NRT_PSTAT_LINK : Fld := { base := 0x50400, lo := 0, width := 1, n := 4, stride := 0x40 }
/-- R249. -/
def NRT_PSTAT_BYP : Fld := { base := 0x50400, lo := 1, width := 1, reset := 0x1, n := 4, stride := 0x40 }
/-- R249. -/
def NRT_PCNT_CODE : Fld := { base := 0x50404, lo := 0, width := 32, acc := .RC, n := 4, stride := 0x40 }
/-- R249. -/
def NRT_PCNT_DOWN : Fld := { base := 0x50408, lo := 0, width := 32, acc := .RC, n := 4, stride := 0x40 }
/-- R249. -/
def NRT_PCNT_FCS : Fld := { base := 0x5040c, lo := 0, width := 32, acc := .RC, n := 4, stride := 0x40 }
/-- R249. -/
def NRT_PCNT_FOREIGN : Fld := { base := 0x50410, lo := 0, width := 32, acc := .RC, n := 4, stride := 0x40 }
/-- R249. -/
def NRT_PD_PS : Fld := { base := 0x50414, lo := 0, width := 32, n := 4, stride := 0x40 }
/-- R250. -/
def DCK_TIME : Fld := { base := 0x60000, lo := 0, width := 64 }
/-- R250. -/
def DCK_FRAC : Fld := { base := 0x60008, lo := 0, width := 16 }
/-- R250. -/
def DCK_STATE_STATE : Fld := { base := 0x6000c, lo := 0, width := 2 }
/-- R250. -/
def DCK_STATE_REFSRC : Fld := { base := 0x6000c, lo := 2, width := 2 }
/-- R250. -/
def DCK_OFFSET : Fld := { base := 0x60010, lo := 0, width := 32 }
/-- R250. -/
def DCK_RATE : Fld := { base := 0x60014, lo := 0, width := 32 }
/-- R250. -/
def DCK_LOCKLOSS : Fld := { base := 0x60018, lo := 0, width := 32, acc := .RC }
/-- R257. -/
def HIF_ID_PART : Fld := { base := 0x0, lo := 0, width := 16, reset := 0x7420 }
/-- R257. -/
def HIF_ID_VARIANT : Fld := { base := 0x0, lo := 16, width := 1, reset := 0x1 }
/-- R257. -/
def HIF_ID_PACK : Fld := { base := 0x0, lo := 17, width := 1 }
/-- R257. -/
def HIF_ID_REV : Fld := { base := 0x0, lo := 24, width := 8, reset := 0x1 }
/-- R257. -/
def HIF_FW_VER : Fld := { base := 0x4, lo := 0, width := 32 }
/-- R257. -/
def HIF_SERIAL : Fld := { base := 0x8, lo := 0, width := 64, reset := 0x1 }
/-- R257. -/
def HIF_MAC : Fld := { base := 0x10, lo := 0, width := 48, reset := 0x34e52000001 }
/-- R257. -/
def HIF_CID : Fld := { base := 0x18, lo := 0, width := 32, reset := 0x1 }
/-- R257. -/
def HIF_PCI_ID : Fld := { base := 0x1c, lo := 0, width := 32, reset := 0x74200000 }
/-- R257. -/
def HIF_STATUS_READY : Fld := { base := 0x20, lo := 0, width := 1 }
/-- R257. -/
def HIF_STATUS_FULL_STOP : Fld := { base := 0x20, lo := 1, width := 1 }
/-- R257. -/
def HIF_STATUS_ERR : Fld := { base := 0x20, lo := 2, width := 1 }
/-- R257. -/
def HIF_STATUS_ROLE : Fld := { base := 0x20, lo := 4, width := 2 }
/-- R257. -/
def HIF_STATUS_SEC : Fld := { base := 0x20, lo := 8, width := 2, reset := 0x1 }
/-- R257. -/
def HIF_STATUS_PWR : Fld := { base := 0x20, lo := 12, width := 2 }
/-- R257. -/
def HIF_STATUS_HSEL : Fld := { base := 0x20, lo := 16, width := 2 }
/-- R257. -/
def HIF_STATUS_BOOT_CNT : Fld := { base := 0x20, lo := 24, width := 8 }
/-- R257. -/
def HIF_CYCLE : Fld := { base := 0x28, lo := 0, width := 64 }
/-- R257. -/
def HIF_INT_STAT : Fld := { base := 0x30, lo := 0, width := 14, acc := .W1C }
/-- R257. -/
def HIF_INT_EN : Fld := { base := 0x34, lo := 0, width := 14, acc := .RW }
/-- R257. -/
def HIF_INT_MBX_STAT : Fld := { base := 0x38, lo := 0, width := 32, acc := .W1C }
/-- R257. -/
def HIF_INT_MBX_EN : Fld := { base := 0x3c, lo := 0, width := 32, acc := .RW }
/-- R257. -/
def HIF_TICK_DIV : Fld := { base := 0x40, lo := 0, width := 16, acc := .RW }
/-- R257. -/
def HIF_DB_ALL : Fld := { base := 0x44, lo := 0, width := 32, acc := .WO }
/-- R257. -/
def HIF_PI_CTL_HOLD_A : Fld := { base := 0x48, lo := 0, width := 1, acc := .RW }
/-- R257. -/
def HIF_PI_CTL_HOLD_B : Fld := { base := 0x48, lo := 1, width := 1, acc := .RW }
/-- R257. -/
def HIF_INT_QEN : Fld := { base := 0x4c, lo := 0, width := 14, acc := .RW }
/-- R257. -/
def HIF_ERRLOG_WPTR_IDX : Fld := { base := 0x50, lo := 0, width := 4 }
/-- R257. -/
def HIF_ERRLOG_WPTR_WRAPS : Fld := { base := 0x50, lo := 16, width := 16 }
/-- R257. -/
def HIF_CNT_ERR : Fld := { base := 0x54, lo := 0, width := 32, acc := .RC }
/-- R257. -/
def HIF_AXEVT : Fld := { base := 0x60, lo := 0, width := 32, acc := .W1C, m := 8, step := 4 }
/-- R262. -/
def MIR_MSEQ : Fld := { base := 0x40000000, lo := 0, width := 32, n := 256, stride := 0x100 }
/-- R262. -/
def MIR_P_DEM : Fld := { base := 0x40000010, lo := 0, width := 64, n := 256, stride := 0x100 }
/-- R262. -/
def MIR_P_ACT : Fld := { base := 0x40000018, lo := 0, width := 64, n := 256, stride := 0x100 }
/-- R262. -/
def MIR_FE : Fld := { base := 0x40000020, lo := 0, width := 32, n := 256, stride := 0x100 }
/-- R262. -/
def MIR_V_ACT : Fld := { base := 0x40000024, lo := 0, width := 32, n := 256, stride := 0x100 }
/-- R262. -/
def MIR_TRQ_CMD : Fld := { base := 0x40000028, lo := 0, width := 32, n := 256, stride := 0x100 }
/-- R262. -/
def MIR_LIM_FLAGS : Fld := { base := 0x4000002c, lo := 0, width := 2, n := 256, stride := 0x100 }
/-- R262. -/
def MIR_TRJ_STAT : Fld := { base := 0x40000030, lo := 0, width := 32, n := 256, stride := 0x100 }
/-- R262. -/
def MIR_HM_STAT : Fld := { base := 0x40000034, lo := 0, width := 32, n := 256, stride := 0x100 }
/-- R262. -/
def MIR_TRJ_TARGET : Fld := { base := 0x40000038, lo := 0, width := 64, n := 256, stride := 0x100 }
/-- R262. -/
def MIR_TRJ_T_END : Fld := { base := 0x40000040, lo := 0, width := 64, n := 256, stride := 0x100 }
/-- R262. -/
def MIR_TRJ_SEG_STAT : Fld := { base := 0x40000048, lo := 0, width := 32, n := 256, stride := 0x100 }
/-- R262. -/
def MIR_TRJ_SEG_DONE : Fld := { base := 0x4000004c, lo := 0, width := 32, n := 256, stride := 0x100 }
/-- R262. -/
def MIR_FB_BOUNDARY : Fld := { base := 0x40000050, lo := 0, width := 64, n := 256, stride := 0x100 }
/-- R262. -/
def MIR_MSEQ_END : Fld := { base := 0x400000fc, lo := 0, width := 32, n := 256, stride := 0x100 }
/-- R264. -/
def MBX_REQ_OPCODE : Fld := { base := 0x10000, lo := 0, width := 16, acc := .RW, n := 32, stride := 0x40 }
/-- R264. -/
def MBX_REQ_TAG : Fld := { base := 0x10000, lo := 16, width := 16, acc := .RW, n := 32, stride := 0x40 }
/-- R264. -/
def MBX_LEN : Fld := { base := 0x10004, lo := 0, width := 13, acc := .RW, n := 32, stride := 0x40, fix := [.clamp 0x0 0x1000] }
/-- R264. -/
def MBX_ARG : Fld := { base := 0x10008, lo := 0, width := 32, acc := .RW, n := 32, stride := 0x40 }
/-- R264. -/
def MBX_DB : Fld := { base := 0x1000c, lo := 0, width := 1, acc := .WO, n := 32, stride := 0x40 }
/-- R264. -/
def MBX_ACK : Fld := { base := 0x10010, lo := 0, width := 1, acc := .WO, n := 32, stride := 0x40 }
/-- R264. -/
def MBX_STAT_STATUS : Fld := { base := 0x10014, lo := 0, width := 3, n := 32, stride := 0x40 }
/-- R264. -/
def MBX_STAT_DUP : Fld := { base := 0x10014, lo := 3, width := 1, n := 32, stride := 0x40 }
/-- R264. -/
def MBX_STAT_DUP_OP : Fld := { base := 0x10014, lo := 4, width := 1, n := 32, stride := 0x40 }
/-- R264. -/
def MBX_STAT_DUP_TRUNC : Fld := { base := 0x10014, lo := 5, width := 1, n := 32, stride := 0x40 }
/-- R264. -/
def MBX_STAT_RTAG : Fld := { base := 0x10014, lo := 16, width := 16, n := 32, stride := 0x40 }
/-- R264. -/
def MBX_RES_REASON : Fld := { base := 0x10018, lo := 0, width := 16, n := 32, stride := 0x40 }
/-- R264. -/
def MBX_RES_RLEN : Fld := { base := 0x10018, lo := 16, width := 13, n := 32, stride := 0x40 }
/-- R264. -/
def MBX_HANDLE : Fld := { base := 0x1001c, lo := 0, width := 16, n := 32, stride := 0x40 }
/-- R264. -/
def MBX_ROP : Fld := { base := 0x10020, lo := 0, width := 16, n := 32, stride := 0x40 }
/-- R264. -/
def MBX_CNT_IGN : Fld := { base := 0x10024, lo := 0, width := 32, acc := .RC, n := 32, stride := 0x40 }
/-- R264. -/
def MBX_T_DONE : Fld := { base := 0x10028, lo := 0, width := 64, n := 32, stride := 0x40 }
/-- R272. -/
def LOP_ID_HANDLE : Fld := { base := 0x11000, lo := 0, width := 16, n := 32, stride := 0x20 }
/-- R272. -/
def LOP_ID_STATUS : Fld := { base := 0x11000, lo := 16, width := 3, n := 32, stride := 0x20 }
/-- R272. -/
def LOP_OBJ_OPCODE : Fld := { base := 0x11004, lo := 0, width := 16, n := 32, stride := 0x20 }
/-- R272. -/
def LOP_OBJ_INDEX : Fld := { base := 0x11004, lo := 16, width := 16, n := 32, stride := 0x20 }
/-- R272. -/
def LOP_PROG_REASON : Fld := { base := 0x11008, lo := 0, width := 16, n := 32, stride := 0x20 }
/-- R272. -/
def LOP_PROG_PERMILLE : Fld := { base := 0x11008, lo := 16, width := 10, n := 32, stride := 0x20 }
/-- R272. -/
def LOP_ACK : Fld := { base := 0x1100c, lo := 0, width := 1, acc := .WO, n := 32, stride := 0x20 }
/-- R272. -/
def LOP_T_START : Fld := { base := 0x11010, lo := 0, width := 64, n := 32, stride := 0x20 }
/-- R272. -/
def LOP_T_END : Fld := { base := 0x11018, lo := 0, width := 64, n := 32, stride := 0x20 }
/-- R301. -/
def CFG_MODE_ACTIVE : Fld := { base := 0x120000, lo := 0, width := 4 }
/-- R301. -/
def CFG_MODE_PENDING : Fld := { base := 0x120000, lo := 4, width := 4, reset := 0xf }
/-- R301. -/
def CFG_MODE_OVERRIDDEN : Fld := { base := 0x120000, lo := 8, width := 1 }
/-- R301. -/
def CFG_MODE_CYC : Fld := { base := 0x120008, lo := 0, width := 64 }
/-- R301. -/
def CFG_STATUS_DIRTY : Fld := { base := 0x120010, lo := 0, width := 1 }
/-- R301. -/
def CFG_STATUS_COMMIT_LOST : Fld := { base := 0x120010, lo := 1, width := 1, acc := .W1C }
/-- R301. -/
def CFG_STATUS_IMG_FALLBACK : Fld := { base := 0x120010, lo := 2, width := 1, acc := .W1C }
/-- R301. -/
def CFG_STATUS_FW_TRIAL : Fld := { base := 0x120010, lo := 3, width := 1 }
/-- R301. -/
def CFG_STATUS_FW_FALLBACK : Fld := { base := 0x120010, lo := 4, width := 1, acc := .W1C }
/-- R301. -/
def CFG_STATUS_LOG_WRAPPED : Fld := { base := 0x120010, lo := 5, width := 1 }
/-- R301. -/
def CFG_STATUS_NO_PASSWORD : Fld := { base := 0x120010, lo := 6, width := 1, reset := 0x1 }
/-- R301. -/
def CFG_STATUS_FLASH_WORN : Fld := { base := 0x120010, lo := 7, width := 1 }
/-- R301. -/
def CFG_IMG_SEQ : Fld := { base := 0x120014, lo := 0, width := 32 }
/-- R301. -/
def CFG_IMG_BYTES : Fld := { base := 0x120018, lo := 0, width := 32 }
/-- R301. -/
def CFG_BOOT_MODE : Fld := { base := 0x12001c, lo := 0, width := 4 }
/-- R301. -/
def CFG_OVL_N : Fld := { base := 0x120020, lo := 0, width := 12, m := 8, step := 4 }
/-- R301. -/
def CFG_FL_BLK_ERASED : Fld := { base := 0x120040, lo := 0, width := 16 }
/-- R301. -/
def CFG_FL_BLK_USED : Fld := { base := 0x120040, lo := 16, width := 16 }
/-- R301. -/
def CFG_FL_RETIRED : Fld := { base := 0x120044, lo := 0, width := 16 }
/-- R301. -/
def CFG_FL_ECMAX : Fld := { base := 0x120048, lo := 0, width := 32 }
/-- R301. -/
def CFG_FL_ECMIN : Fld := { base := 0x12004c, lo := 0, width := 32 }
/-- R301. -/
def CFG_FW_SLOT : Fld := { base := 0x120050, lo := 0, width := 1 }
/-- R301. -/
def CFG_FW_VER0 : Fld := { base := 0x120054, lo := 0, width := 32 }
/-- R301. -/
def CFG_FW_VER1 : Fld := { base := 0x120058, lo := 0, width := 32 }
/-- R301. -/
def CFG_FW_ARB : Fld := { base := 0x12005c, lo := 0, width := 16 }
/-- R301. -/
def CFG_SAF_SESS_MBX : Fld := { base := 0x120060, lo := 0, width := 5 }
/-- R301. -/
def CFG_SAF_SESS_OPEN : Fld := { base := 0x120060, lo := 8, width := 1 }
/-- R301. -/
def CFG_SAF_SESS_AUTHOR : Fld := { base := 0x120060, lo := 16, width := 16 }
/-- R301. -/
def CFG_SAF_FAILS : Fld := { base := 0x120064, lo := 0, width := 8 }
/-- R301. -/
def CFG_SAF_LOCK : Fld := { base := 0x120064, lo := 16, width := 16 }
/-- R301. -/
def CFG_SAF_CRC : Fld := { base := 0x120068, lo := 0, width := 32 }
/-- R301. -/
def CFG_LOG_SEQ : Fld := { base := 0x12006c, lo := 0, width := 32 }
/-- R339. -/
def DRV_CFG_MODE : Fld := { base := 0xa0000, lo := 0, width := 2, n := 8, stride := 0x1000, fix := [.code 0x3 0x3 0x0] }
/-- R339. -/
def DRV_CFG_EVAL : Fld := { base := 0xa0000, lo := 2, width := 2, reset := 0x2, n := 8, stride := 0x1000, fix := [.code 0x3 0x3 0x2] }
/-- R339. -/
def DRV_CFG_ZSEL : Fld := { base := 0xa0000, lo := 4, width := 1, n := 8, stride := 0x1000 }
/-- R339. -/
def DRV_CFG_SSN : Fld := { base := 0xa0000, lo := 5, width := 1, n := 8, stride := 0x1000 }
/-- R339. -/
def DRV_CFG_CATCHDIR : Fld := { base := 0xa0000, lo := 6, width := 1, n := 8, stride := 0x1000 }
/-- R339. -/
def DRV_CFG_KEEP : Fld := { base := 0xa0000, lo := 7, width := 1, reset := 0x1, n := 8, stride := 0x1000 }
/-- R339. -/
def DRV_CFG_BUSGRP : Fld := { base := 0xa0000, lo := 8, width := 3, n := 8, stride := 0x1000 }
/-- R339. -/
def DRV_CFG_ENC : Fld := { base := 0xa0000, lo := 12, width := 4, reset := 0xf, n := 8, stride := 0x1000 }
/-- R339. -/
def DRV_DEAD : Fld := { base := 0xa0004, lo := 0, width := 10, reset := 0xc8, n := 8, stride := 0x1000, fix := [.clamp 0x14 0x320] }
/-- R339. -/
def DRV_TMIN_ON : Fld := { base := 0xa0004, lo := 16, width := 10, reset := 0x14, n := 8, stride := 0x1000, fix := [.clamp 0x5 0xfa] }
/-- R339. -/
def DRV_FSW_MAX : Fld := { base := 0xa0008, lo := 0, width := 6, reset := 0x28, n := 8, stride := 0x1000, fix := [.clamp 0x1 0x28] }
/-- R339. -/
def DRV_TSHUNT : Fld := { base := 0xa0008, lo := 16, width := 10, reset := 0xf0, n := 8, stride := 0x1000, fix := [.clamp 0x28 0x3e8] }
/-- R339. -/
def DRV_TBAND : Fld := { base := 0xa000c, lo := 0, width := 32, reset := 0x147ae14, n := 8, stride := 0x1000 }
/-- R339. -/
def DRV_FBAND : Fld := { base := 0xa0010, lo := 0, width := 32, reset := 0x28f5c29, n := 8, stride := 0x1000 }
/-- R339. -/
def DRV_FLUX_REF : Fld := { base := 0xa0014, lo := 0, width := 32, reset := 0xa0000, n := 8, stride := 0x1000, fix := [.clamp 0x1 0x7fffffff] }
/-- R339. -/
def DRV_RS : Fld := { base := 0xa0018, lo := 0, width := 32, reset := 0x8000, n := 8, stride := 0x1000, fix := [.clamp 0x1 0x7fffffff] }
/-- R339. -/
def DRV_LS : Fld := { base := 0xa001c, lo := 0, width := 32, reset := 0x640000, n := 8, stride := 0x1000, fix := [.clamp 0x1 0x7fffffff] }
/-- R339. -/
def DRV_PP : Fld := { base := 0xa0020, lo := 0, width := 8, reset := 0x4, n := 8, stride := 0x1000, fix := [.clamp 0x1 0x40] }
/-- R339. -/
def DRV_TFS : Fld := { base := 0xa0024, lo := 0, width := 32, reset := 0x10000, n := 8, stride := 0x1000, fix := [.clamp 0x1 0x7fffffff] }
/-- R339. -/
def DRV_IFS : Fld := { base := 0xa0028, lo := 0, width := 32, reset := 0x140000, n := 8, stride := 0x1000, fix := [.clamp 0x1 0x7fffffff] }
/-- R339. -/
def DRV_VBUS_FS : Fld := { base := 0xa002c, lo := 0, width := 32, reset := 0x640000, n := 8, stride := 0x1000, fix := [.clamp 0x1 0x7fffffff] }
/-- R339. -/
def DRV_CHOP_ON : Fld := { base := 0xa0030, lo := 0, width := 32, n := 8, stride := 0x1000, fix := [.clamp 0x0 0x7fffffff] }
/-- R339. -/
def DRV_CHOP_OFF : Fld := { base := 0xa0034, lo := 0, width := 32, n := 8, stride := 0x1000, fix := [.clamp 0x0 0x7fffffff] }
/-- R339. -/
def DRV_CHOP_RISE : Fld := { base := 0xa0038, lo := 0, width := 32, reset := 0x10000, n := 8, stride := 0x1000, fix := [.clamp 0x1 0x7fffffff] }
/-- R339. -/
def DRV_CHS_T : Fld := { base := 0xa003c, lo := 0, width := 10, reset := 0x14, n := 8, stride := 0x1000, fix := [.clamp 0x1 0x3e8] }
/-- R339. -/
def DRV_OV_TRIP : Fld := { base := 0xa0040, lo := 0, width := 32, reset := 0x500000, n := 8, stride := 0x1000, fix := [.clamp 0x1 0x7fffffff] }
/-- R339. -/
def DRV_UV : Fld := { base := 0xa0044, lo := 0, width := 32, reset := 0xa0000, n := 8, stride := 0x1000, fix := [.clamp 0x1 0x7fffffff] }
/-- R339. -/
def DRV_CATCH : Fld := { base := 0xa0048, lo := 0, width := 32, reset := 0xa0000, n := 8, stride := 0x1000, fix := [.clamp 0x1 0x7fffffff] }
/-- R339. -/
def DRV_BRK_TRQ : Fld := { base := 0xa004c, lo := 0, width := 32, reset := 0x20000000, n := 8, stride := 0x1000 }
/-- R339. -/
def DRV_SS_TP : Fld := { base := 0xa0050, lo := 0, width := 8, reset := 0x14, n := 8, stride := 0x1000, fix := [.clamp 0x5 0x64] }
/-- R339. -/
def DRV_SS_IMAX : Fld := { base := 0xa0050, lo := 16, width := 16, reset := 0x4000, n := 8, stride := 0x1000 }
/-- R339. -/
def DRV_ST_IRUN : Fld := { base := 0xa0054, lo := 0, width := 32, reset := 0x40000000, n := 8, stride := 0x1000 }
/-- R339. -/
def DRV_ST_IHOLD : Fld := { base := 0xa0058, lo := 0, width := 32, reset := 0x20000000, n := 8, stride := 0x1000 }
/-- R339. -/
def DRV_ST_HOLD_T : Fld := { base := 0xa005c, lo := 0, width := 16, reset := 0x64, n := 8, stride := 0x1000, fix := [.clamp 0x0 0xea60] }
/-- R339. -/
def DRV_ST_THR : Fld := { base := 0xa0060, lo := 0, width := 32, n := 8, stride := 0x1000, m := 5, step := 4, rsts := [0xc8, 0x320, 0xc80, 0x3200, 0x6400] }
/-- R339. -/
def DRV_ST_HYST : Fld := { base := 0xa0074, lo := 0, width := 7, reset := 0xa, n := 8, stride := 0x1000, fix := [.clamp 0x1 0x32] }
/-- R339. -/
def DRV_ST_SLA : Fld := { base := 0xa0078, lo := 0, width := 8, reset := 0x50, n := 8, stride := 0x1000, fix := [.clamp 0x1e 0xaa] }
/-- R339. -/
def DRV_ST_SN : Fld := { base := 0xa0078, lo := 8, width := 8, reset := 0x4, n := 8, stride := 0x1000, fix := [.clamp 0x1 0x40] }
/-- R339. -/
def DRV_ST_SVMIN : Fld := { base := 0xa0078, lo := 16, width := 16, reset := 0xc8, n := 8, stride := 0x1000 }
/-- R339. -/
def DRV_STAT_RDY : Fld := { base := 0xa0080, lo := 0, width := 1, n := 8, stride := 0x1000 }
/-- R339. -/
def DRV_STAT_HWOFF : Fld := { base := 0xa0080, lo := 1, width := 1, n := 8, stride := 0x1000 }
/-- R339. -/
def DRV_STAT_GFLT : Fld := { base := 0xa0080, lo := 2, width := 1, n := 8, stride := 0x1000 }
/-- R339. -/
def DRV_STAT_OVTRIP : Fld := { base := 0xa0080, lo := 3, width := 1, n := 8, stride := 0x1000 }
/-- R339. -/
def DRV_STAT_UV : Fld := { base := 0xa0080, lo := 4, width := 1, n := 8, stride := 0x1000 }
/-- R339. -/
def DRV_STAT_CHOPF : Fld := { base := 0xa0080, lo := 5, width := 1, n := 8, stride := 0x1000 }
/-- R339. -/
def DRV_STAT_CHOP : Fld := { base := 0xa0080, lo := 6, width := 1, n := 8, stride := 0x1000 }
/-- R339. -/
def DRV_STAT_TLIM_ELL : Fld := { base := 0xa0080, lo := 7, width := 1, n := 8, stride := 0x1000 }
/-- R339. -/
def DRV_STAT_TLIM_CHOP : Fld := { base := 0xa0080, lo := 8, width := 1, n := 8, stride := 0x1000 }
/-- R339. -/
def DRV_STAT_CAL_OK : Fld := { base := 0xa0080, lo := 9, width := 1, n := 8, stride := 0x1000 }
/-- R339. -/
def DRV_STAT_SS_ERR : Fld := { base := 0xa0080, lo := 10, width := 1, n := 8, stride := 0x1000 }
/-- R339. -/
def DRV_STAT_STALL : Fld := { base := 0xa0080, lo := 11, width := 1, n := 8, stride := 0x1000 }
/-- R339. -/
def DRV_STAT_POS_UNC : Fld := { base := 0xa0080, lo := 12, width := 1, n := 8, stride := 0x1000 }
/-- R339. -/
def DRV_STAT_RES : Fld := { base := 0xa0080, lo := 16, width := 3, n := 8, stride := 0x1000 }
/-- R339. -/
def DRV_STAT_ELL_CONSEC : Fld := { base := 0xa0080, lo := 24, width := 4, n := 8, stride := 0x1000 }
/-- R339. -/
def DRV_VBUS : Fld := { base := 0xa0084, lo := 0, width := 32, n := 8, stride := 0x1000 }
/-- R339. -/
def DRV_I01 : Fld := { base := 0xa0088, lo := 0, width := 32, n := 8, stride := 0x1000 }
/-- R339. -/
def DRV_I23 : Fld := { base := 0xa008c, lo := 0, width := 32, n := 8, stride := 0x1000 }
/-- R339. -/
def DRV_ANGLE : Fld := { base := 0xa0090, lo := 0, width := 16, n := 8, stride := 0x1000 }
/-- R339. -/
def DRV_FLUX_EST : Fld := { base := 0xa0094, lo := 0, width := 32, n := 8, stride := 0x1000 }
/-- R339. -/
def DRV_MSTEP : Fld := { base := 0xa0098, lo := 0, width := 32, n := 8, stride := 0x1000 }
/-- R339. -/
def DRV_TQE : Fld := { base := 0xa009c, lo := 0, width := 32, n := 8, stride := 0x1000 }
/-- R339. -/
def DRV_CNT_ELL : Fld := { base := 0xa00a0, lo := 0, width := 32, acc := .RC, n := 8, stride := 0x1000 }
/-- R339. -/
def DRV_CNT_GFLT : Fld := { base := 0xa00a4, lo := 0, width := 32, acc := .RC, n := 8, stride := 0x1000 }
/-- R339. -/
def DRV_CNT_OV : Fld := { base := 0xa00a8, lo := 0, width := 32, acc := .RC, n := 8, stride := 0x1000 }
/-- R339. -/
def DRV_CNT_CHOPF : Fld := { base := 0xa00ac, lo := 0, width := 32, acc := .RC, n := 8, stride := 0x1000 }
/-- R339. -/
def DRV_CAL_OFS01 : Fld := { base := 0xa00b0, lo := 0, width := 32, n := 8, stride := 0x1000 }
/-- R339. -/
def DRV_CAL_OFS23 : Fld := { base := 0xa00b4, lo := 0, width := 32, n := 8, stride := 0x1000 }
/-- R340. -/
def DRV_ENC_CFG_A : Fld := { base := 0xa8000, lo := 0, width := 4, n := 8, stride := 0x20 }
/-- R340. -/
def DRV_ENC_CFG_B : Fld := { base := 0xa8000, lo := 4, width := 4, n := 8, stride := 0x20 }
/-- R340. -/
def DRV_ENC_CFG_Z : Fld := { base := 0xa8000, lo := 8, width := 4, n := 8, stride := 0x20 }
/-- R340. -/
def DRV_ENC_CFG_ZEN : Fld := { base := 0xa8000, lo := 12, width := 1, n := 8, stride := 0x20 }
/-- R340. -/
def DRV_ENC_CFG_INV : Fld := { base := 0xa8000, lo := 13, width := 1, n := 8, stride := 0x20 }
/-- R340. -/
def DRV_ENC_CFG_FILT : Fld := { base := 0xa8000, lo := 16, width := 2, n := 8, stride := 0x20 }
/-- R340. -/
def DRV_ENC_CFG_EN : Fld := { base := 0xa8000, lo := 20, width := 1, n := 8, stride := 0x20 }
/-- R340. -/
def DRV_ENC_CNT : Fld := { base := 0xa8004, lo := 0, width := 32, n := 8, stride := 0x20 }
/-- R340. -/
def DRV_ENC_IDX : Fld := { base := 0xa8008, lo := 0, width := 32, n := 8, stride := 0x20 }
/-- R340. -/
def DRV_ENC_STAT_IDXV : Fld := { base := 0xa800c, lo := 0, width := 1, acc := .W1C, n := 8, stride := 0x20 }
/-- R340. -/
def DRV_ENC_ERR : Fld := { base := 0xa8010, lo := 0, width := 32, acc := .RC, n := 8, stride := 0x20 }
/-- R340. -/
def DRV_ANA : Fld := { base := 0xa8200, lo := 0, width := 16, n := 8, stride := 0x4 }
/-- R341. -/
def PTG_CFG_STEP_POL : Fld := { base := 0xb0000, lo := 1, width := 1, n := 16, stride := 0x40 }
/-- R341. -/
def PTG_CFG_DIR_POL : Fld := { base := 0xb0000, lo := 2, width := 1, n := 16, stride := 0x40 }
/-- R341. -/
def PTG_CFG_ENC : Fld := { base := 0xb0000, lo := 4, width := 4, reset := 0xf, n := 16, stride := 0x40 }
/-- R341. -/
def PTG_WIDTH : Fld := { base := 0xb0004, lo := 0, width := 12, reset := 0x28, n := 16, stride := 0x40, fix := [.clamp 0x8 0xfa0] }
/-- R341. -/
def PTG_LOW : Fld := { base := 0xb0004, lo := 16, width := 12, reset := 0x28, n := 16, stride := 0x40, fix := [.clamp 0x8 0xfa0] }
/-- R341. -/
def PTG_DSETUP : Fld := { base := 0xb0008, lo := 0, width := 12, reset := 0x50, n := 16, stride := 0x40, fix := [.clamp 0x8 0xfa0] }
/-- R341. -/
def PTG_DHOLD : Fld := { base := 0xb0008, lo := 16, width := 12, reset := 0x28, n := 16, stride := 0x40, fix := [.clamp 0x8 0xfa0] }
/-- R341. -/
def PTG_COUNT : Fld := { base := 0xb0010, lo := 0, width := 64, n := 16, stride := 0x40 }
/-- R341. -/
def PTG_RATE : Fld := { base := 0xb0018, lo := 0, width := 32, n := 16, stride := 0x40 }
/-- R341. -/
def PTG_STAT_LAG : Fld := { base := 0xb001c, lo := 0, width := 1, n := 16, stride := 0x40 }
/-- R341. -/
def PTG_STAT_DIR : Fld := { base := 0xb001c, lo := 1, width := 1, n := 16, stride := 0x40 }
/-- R341. -/
def PTG_CNT_CLAMP : Fld := { base := 0xb0020, lo := 0, width := 32, acc := .RC, n := 16, stride := 0x40 }
/-- R372. -/
def FIO_GCFG_SIL_TO : Fld := { base := 0xc0000, lo := 0, width := 8, reset := 0x14, fix := [.clamp 0x1 0xfa] }
/-- R372. -/
def FIO_GCFG_AUTO_RESUME : Fld := { base := 0xc0000, lo := 8, width := 1 }
/-- R372. -/
def FIO_TP_WIDTH : Fld := { base := 0xc0004, lo := 0, width := 7, reset := 0x14, fix := [.clamp 0xa 0x50] }
/-- R372. -/
def FIO_TP_PERIOD : Fld := { base := 0xc0004, lo := 16, width := 10, reset := 0x28, fix := [.clamp 0xa 0x3e8] }
/-- R372. -/
def FIO_LINK_STATE : Fld := { base := 0xc0008, lo := 0, width := 2 }
/-- R372. -/
def FIO_LINK_FLAGS_SILENT : Fld := { base := 0xc000c, lo := 0, width := 1, acc := .W1C }
/-- R372. -/
def FIO_LINK_FLAGS_FLD_POR : Fld := { base := 0xc000c, lo := 1, width := 1, acc := .W1C }
/-- R372. -/
def FIO_IN : Fld := { base := 0xc0010, lo := 0, width := 32 }
/-- R372. -/
def FIO_RAW : Fld := { base := 0xc0014, lo := 0, width := 32 }
/-- R372. -/
def FIO_OUT_CMD : Fld := { base := 0xc0018, lo := 0, width := 32 }
/-- R372. -/
def FIO_OUT_ACT : Fld := { base := 0xc001c, lo := 0, width := 32 }
/-- R372. -/
def FIO_OUT_SET : Fld := { base := 0xc0020, lo := 0, width := 32, acc := .WO }
/-- R372. -/
def FIO_OUT_CLR : Fld := { base := 0xc0024, lo := 0, width := 32, acc := .WO }
/-- R372. -/
def FIO_VALID : Fld := { base := 0xc0028, lo := 0, width := 32 }
/-- R372. -/
def FIO_CNT_IGN : Fld := { base := 0xc002c, lo := 0, width := 32, acc := .RC }
/-- R372. -/
def FIO_IN_T : Fld := { base := 0xc0030, lo := 0, width := 64 }
/-- R372. -/
def FIO_CNT_LINKERR : Fld := { base := 0xc0038, lo := 0, width := 32, acc := .RC }
/-- R372. -/
def FIO_GRP_STAT_WARN : Fld := { base := 0xc0040, lo := 0, width := 1, n := 4, stride := 0x10 }
/-- R372. -/
def FIO_GRP_STAT_UV : Fld := { base := 0xc0040, lo := 1, width := 1, n := 4, stride := 0x10 }
/-- R372. -/
def FIO_GRP_STAT_RECOV : Fld := { base := 0xc0040, lo := 2, width := 1, n := 4, stride := 0x10 }
/-- R372. -/
def FIO_GRP_STAT_OC : Fld := { base := 0xc0040, lo := 3, width := 1, n := 4, stride := 0x10 }
/-- R372. -/
def FIO_GRP_V : Fld := { base := 0xc0044, lo := 0, width := 16, n := 4, stride := 0x10 }
/-- R372. -/
def FIO_GRP_I : Fld := { base := 0xc0044, lo := 16, width := 16, n := 4, stride := 0x10 }
/-- R372. -/
def FIO_GRP_FLAGS_UV_SEEN : Fld := { base := 0xc0048, lo := 0, width := 1, acc := .W1C, n := 4, stride := 0x10 }
/-- R372. -/
def FIO_GRP_FLAGS_WARN_SEEN : Fld := { base := 0xc0048, lo := 1, width := 1, acc := .W1C, n := 4, stride := 0x10 }
/-- R372. -/
def FIO_GRP_CNT_UV : Fld := { base := 0xc004c, lo := 0, width := 32, acc := .RC, n := 4, stride := 0x10 }
/-- R372. -/
def FIO_CFG_DIR : Fld := { base := 0xc0100, lo := 0, width := 1, n := 32, stride := 0x20 }
/-- R372. -/
def FIO_CFG_ITYPE : Fld := { base := 0xc0100, lo := 1, width := 1, n := 32, stride := 0x20 }
/-- R372. -/
def FIO_CFG_FILT : Fld := { base := 0xc0100, lo := 2, width := 1, n := 32, stride := 0x20 }
/-- R372. -/
def FIO_CFG_WB : Fld := { base := 0xc0100, lo := 3, width := 1, n := 32, stride := 0x20 }
/-- R372. -/
def FIO_CFG_FAILACT : Fld := { base := 0xc0100, lo := 4, width := 1, n := 32, stride := 0x20 }
/-- R372. -/
def FIO_CFG_SAFE : Fld := { base := 0xc0100, lo := 5, width := 2, n := 32, stride := 0x20, fix := [.code 0x3 0x3 0x0] }
/-- R372. -/
def FIO_CFG_AUTO : Fld := { base := 0xc0100, lo := 7, width := 1, n := 32, stride := 0x20 }
/-- R372. -/
def FIO_CFG_DEMAG : Fld := { base := 0xc0100, lo := 8, width := 1, n := 32, stride := 0x20 }
/-- R372. -/
def FIO_CFG_TP : Fld := { base := 0xc0100, lo := 9, width := 1, n := 32, stride := 0x20 }
/-- R372. -/
def FIO_CFG_TSD_AUTO : Fld := { base := 0xc0100, lo := 10, width := 1, n := 32, stride := 0x20 }
/-- R372. -/
def FIO_CFG_INV : Fld := { base := 0xc0100, lo := 11, width := 1, n := 32, stride := 0x20 }
/-- R372. -/
def FIO_CFG_THR : Fld := { base := 0xc0100, lo := 16, width := 8, reset := 0x3, n := 32, stride := 0x20, fix := [.clamp 0x1 0xff] }
/-- R372. -/
def FIO_DEB : Fld := { base := 0xc0104, lo := 0, width := 16, reset := 0x64, n := 32, stride := 0x20, fix := [.clamp 0x1 0xffff] }
/-- R372. -/
def FIO_CSTAT_IN : Fld := { base := 0xc0108, lo := 0, width := 1, n := 32, stride := 0x20 }
/-- R372. -/
def FIO_CSTAT_RAW : Fld := { base := 0xc0108, lo := 1, width := 1, n := 32, stride := 0x20 }
/-- R372. -/
def FIO_CSTAT_VALID : Fld := { base := 0xc0108, lo := 2, width := 1, n := 32, stride := 0x20 }
/-- R372. -/
def FIO_CSTAT_WB : Fld := { base := 0xc0108, lo := 3, width := 1, n := 32, stride := 0x20 }
/-- R372. -/
def FIO_CSTAT_OVL : Fld := { base := 0xc0108, lo := 4, width := 1, n := 32, stride := 0x20 }
/-- R372. -/
def FIO_CSTAT_TSD : Fld := { base := 0xc0108, lo := 5, width := 1, n := 32, stride := 0x20 }
/-- R372. -/
def FIO_CSTAT_EXT : Fld := { base := 0xc0108, lo := 6, width := 1, n := 32, stride := 0x20 }
/-- R372. -/
def FIO_CSTAT_TPFAIL : Fld := { base := 0xc0108, lo := 7, width := 1, n := 32, stride := 0x20 }
/-- R372. -/
def FIO_CSTAT_UVOFF : Fld := { base := 0xc0108, lo := 8, width := 1, n := 32, stride := 0x20 }
/-- R372. -/
def FIO_CSTAT_SILOFF : Fld := { base := 0xc0108, lo := 9, width := 1, n := 32, stride := 0x20 }
/-- R372. -/
def FIO_CSTAT_OWNER : Fld := { base := 0xc0108, lo := 12, width := 2, n := 32, stride := 0x20 }
/-- R372. -/
def FIO_CSTAT_CNT : Fld := { base := 0xc0108, lo := 16, width := 8, n := 32, stride := 0x20 }
/-- R372. -/
def FIO_CFLAGS_WB_SEEN : Fld := { base := 0xc010c, lo := 0, width := 1, acc := .W1C, n := 32, stride := 0x20 }
/-- R372. -/
def FIO_CFLAGS_OVL_SEEN : Fld := { base := 0xc010c, lo := 1, width := 1, acc := .W1C, n := 32, stride := 0x20 }
/-- R372. -/
def FIO_CFLAGS_TSD_SEEN : Fld := { base := 0xc010c, lo := 2, width := 1, acc := .W1C, n := 32, stride := 0x20 }
/-- R372. -/
def FIO_CFLAGS_EXT_SEEN : Fld := { base := 0xc010c, lo := 3, width := 1, acc := .W1C, n := 32, stride := 0x20 }
/-- R372. -/
def FIO_CFLAGS_TPFAIL_SEEN : Fld := { base := 0xc010c, lo := 4, width := 1, acc := .W1C, n := 32, stride := 0x20 }
/-- R372. -/
def FIO_I : Fld := { base := 0xc0110, lo := 0, width := 32, n := 32, stride := 0x20 }
/-- R372. -/
def FIO_CNT_TSD : Fld := { base := 0xc0114, lo := 0, width := 32, acc := .RC, n := 32, stride := 0x20 }
/-- R372. -/
def FIO_CNT_EDGE : Fld := { base := 0xc0118, lo := 0, width := 32, acc := .RC, n := 32, stride := 0x20 }
/-- R412. -/
def SAF_STATUS_STATE : Fld := { base := 0xd0000, lo := 0, width := 2 }
/-- R412. -/
def SAF_STATUS_FS_CAUSE : Fld := { base := 0xd0000, lo := 4, width := 6 }
/-- R412. -/
def SAF_STATUS_FSTOP_PIN : Fld := { base := 0xd0000, lo := 12, width := 1, reset := 0x1 }
/-- R412. -/
def SAF_STATUS_PROOF_DUE : Fld := { base := 0xd0000, lo := 13, width := 1 }
/-- R412. -/
def SAF_SG_DEM : Fld := { base := 0xd0004, lo := 0, width := 16, reset := 0xffff }
/-- R412. -/
def SAF_SG_STO : Fld := { base := 0xd0008, lo := 0, width := 16, reset := 0xffff }
/-- R412. -/
def SAF_EVT : Fld := { base := 0xd000c, lo := 0, width := 5, acc := .W1C }
/-- R412. -/
def SAF_SAMPLE : Fld := { base := 0xd0010, lo := 0, width := 64 }
/-- R412. -/
def SAF_TP_WIDTH : Fld := { base := 0xd0020, lo := 0, width := 7, reset := 0x14, fix := [.clamp 0xa 0x50] }
/-- R412. -/
def SAF_TP_PERIOD : Fld := { base := 0xd0020, lo := 16, width := 10, reset := 0x28, fix := [.clamp 0xa 0x3e8] }
/-- R412. -/
def SAF_FS_T_SS1 : Fld := { base := 0xd0024, lo := 0, width := 16, fix := [.code 0x1 0x9 0xa, .clamp 0x0 0x7530] }
/-- R412. -/
def SAF_SIN_CFG_EN : Fld := { base := 0xd0100, lo := 0, width := 1, n := 4, stride := 0x20 }
/-- R412. -/
def SAF_SIN_CFG_THR : Fld := { base := 0xd0100, lo := 8, width := 8, reset := 0x3, n := 4, stride := 0x20, fix := [.clamp 0x1 0xff] }
/-- R412. -/
def SAF_SIN_CFG_DISC : Fld := { base := 0xd0100, lo := 16, width := 12, reset := 0xa, n := 4, stride := 0x20, fix := [.clamp 0x4 0xbb8] }
/-- R412. -/
def SAF_SIN_STAT_DEMAND : Fld := { base := 0xd0104, lo := 0, width := 1, reset := 0x1, n := 4, stride := 0x20 }
/-- R412. -/
def SAF_SIN_STAT_FAULT : Fld := { base := 0xd0104, lo := 1, width := 1, n := 4, stride := 0x20 }
/-- R412. -/
def SAF_SIN_STAT_CH_A : Fld := { base := 0xd0104, lo := 2, width := 1, n := 4, stride := 0x20 }
/-- R412. -/
def SAF_SIN_STAT_CH_B : Fld := { base := 0xd0104, lo := 3, width := 1, n := 4, stride := 0x20 }
/-- R412. -/
def SAF_SIN_STAT_WIN : Fld := { base := 0xd0104, lo := 4, width := 1, n := 4, stride := 0x20 }
/-- R412. -/
def SAF_SIN_STAT_WCNT : Fld := { base := 0xd0104, lo := 16, width := 16, n := 4, stride := 0x20 }
/-- R412. -/
def SAF_SIN_CNT_DISC : Fld := { base := 0xd0108, lo := 0, width := 32, acc := .RC, n := 4, stride := 0x20 }
/-- R412. -/
def SAF_SO_CFG_EN : Fld := { base := 0xd0200, lo := 0, width := 1, n := 4, stride := 0x20 }
/-- R412. -/
def SAF_SO_CFG_KIND : Fld := { base := 0xd0200, lo := 1, width := 1, n := 4, stride := 0x20 }
/-- R412. -/
def SAF_SO_CFG_AXIS : Fld := { base := 0xd0200, lo := 8, width := 8, n := 4, stride := 0x20 }
/-- R412. -/
def SAF_SO_CFG_SG : Fld := { base := 0xd0200, lo := 16, width := 16, n := 4, stride := 0x20 }
/-- R412. -/
def SAF_SO_STAT_ON : Fld := { base := 0xd0204, lo := 0, width := 1, n := 4, stride := 0x20 }
/-- R412. -/
def SAF_SO_STAT_HS : Fld := { base := 0xd0204, lo := 1, width := 1, n := 4, stride := 0x20 }
/-- R412. -/
def SAF_SO_STAT_LS : Fld := { base := 0xd0204, lo := 2, width := 1, n := 4, stride := 0x20 }
/-- R412. -/
def SAF_SO_STAT_FAULT : Fld := { base := 0xd0204, lo := 3, width := 1, n := 4, stride := 0x20 }
/-- R412. -/
def SAF_SO_STAT_CAUSE : Fld := { base := 0xd0204, lo := 4, width := 4, n := 4, stride := 0x20 }
/-- R412. -/
def SAF_SO_STAT_PROOF_OK : Fld := { base := 0xd0204, lo := 8, width := 1, n := 4, stride := 0x20 }
/-- R412. -/
def SAF_SO_STAT_PROOF_STEP : Fld := { base := 0xd0204, lo := 9, width := 3, n := 4, stride := 0x20 }
/-- R412. -/
def SAF_SO_CNT_DISC : Fld := { base := 0xd0208, lo := 0, width := 32, acc := .RC, n := 4, stride := 0x20 }
/-- R412. -/
def SAF_SO_T_PROOF : Fld := { base := 0xd0210, lo := 0, width := 64, n := 4, stride := 0x20 }
/-- R412. -/
def SAF_SG_CFG_EN : Fld := { base := 0xd0400, lo := 0, width := 1, n := 16, stride := 0x10 }
/-- R412. -/
def SAF_SG_CFG_FUNC : Fld := { base := 0xd0400, lo := 1, width := 1, n := 16, stride := 0x10 }
/-- R412. -/
def SAF_SG_CFG_RESTART : Fld := { base := 0xd0400, lo := 2, width := 1, reset := 0x1, n := 16, stride := 0x10 }
/-- R412. -/
def SAF_SG_CFG_SRC_SIN : Fld := { base := 0xd0400, lo := 4, width := 4, n := 16, stride := 0x10 }
/-- R412. -/
def SAF_SG_CFG_SLS_SIN : Fld := { base := 0xd0400, lo := 8, width := 4, n := 16, stride := 0x10 }
/-- R412. -/
def SAF_SG_CFG_SLS_LVL : Fld := { base := 0xd0400, lo := 12, width := 2, n := 16, stride := 0x10 }
/-- R412. -/
def SAF_SG_T_SS1 : Fld := { base := 0xd0404, lo := 0, width := 16, reset := 0x3e8, n := 16, stride := 0x10, fix := [.clamp 0xa 0x7530] }
/-- R412. -/
def SAF_SG_CONN : Fld := { base := 0xd0408, lo := 0, width := 64, n := 16, stride := 0x10 }
/-- R412. -/
def SAF_AXMAP : Fld := { base := 0xd0600, lo := 0, width := 32, reset := 0xffffffff, m := 32, step := 4 }
/-- R412. -/
def SAF_CONN_CFG_EN : Fld := { base := 0xd0800, lo := 0, width := 1, n := 64, stride := 0x20 }
/-- R412. -/
def SAF_CONN_CFG_DIR : Fld := { base := 0xd0800, lo := 1, width := 1, n := 64, stride := 0x20 }
/-- R412. -/
def SAF_CONN_CFG_RING : Fld := { base := 0xd0800, lo := 2, width := 1, n := 64, stride := 0x20 }
/-- R412. -/
def SAF_CONN_CFG_CONT : Fld := { base := 0xd0800, lo := 4, width := 6, n := 64, stride := 0x20 }
/-- R412. -/
def SAF_CONN_CFG_NODE : Fld := { base := 0xd0800, lo := 16, width := 12, n := 64, stride := 0x20 }
/-- R412. -/
def SAF_CONN_ID : Fld := { base := 0xd0804, lo := 0, width := 16, n := 64, stride := 0x20 }
/-- R412. -/
def SAF_CONN_WD : Fld := { base := 0xd0804, lo := 16, width := 16, reset := 0x64, n := 64, stride := 0x20, fix := [.clamp 0x1 0x3e8] }
/-- R412. -/
def SAF_CONN_STAT_STATE : Fld := { base := 0xd0808, lo := 0, width := 2, n := 64, stride := 0x20 }
/-- R412. -/
def SAF_CONN_STAT_ERR : Fld := { base := 0xd0808, lo := 4, width := 3, n := 64, stride := 0x20 }
/-- R412. -/
def SAF_CONN_STAT_CNUM : Fld := { base := 0xd0808, lo := 16, width := 16, n := 64, stride := 0x20 }
/-- R412. -/
def SAF_CONN_CNT_REP : Fld := { base := 0xd080c, lo := 0, width := 32, acc := .RC, n := 64, stride := 0x20 }
/-- R412. -/
def SAF_CONN_CNT_ERR : Fld := { base := 0xd0810, lo := 0, width := 32, acc := .RC, n := 64, stride := 0x20 }
/-- R412. -/
def SAF_CONN_SDATA : Fld := { base := 0xd0818, lo := 0, width := 64, n := 64, stride := 0x20 }
/-- R442. -/
def CNJ_CFG_EN : Fld := { base := 0x70000, lo := 0, width := 1 }
/-- R442. -/
def CNJ_CFG_PREF : Fld := { base := 0x70000, lo := 1, width := 1 }
/-- R442. -/
def CNJ_CFG_AUTO_REJOIN : Fld := { base := 0x70000, lo := 2, width := 1, reset := 0x1 }
/-- R442. -/
def CNJ_CFG_AUTO_TB : Fld := { base := 0x70000, lo := 3, width := 1 }
/-- R442. -/
def CNJ_PARTNER_CID : Fld := { base := 0x70004, lo := 0, width := 32 }
/-- R442. -/
def CNJ_STATE_ROLE : Fld := { base := 0x70008, lo := 0, width := 3 }
/-- R442. -/
def CNJ_STATE_LANES : Fld := { base := 0x70008, lo := 4, width := 2 }
/-- R442. -/
def CNJ_STATE_REFUSE : Fld := { base := 0x70008, lo := 8, width := 4 }
/-- R442. -/
def CNJ_STATE_REJOIN_PH : Fld := { base := 0x70008, lo := 12, width := 3 }
/-- R442. -/
def CNJ_STATE_PERMILLE : Fld := { base := 0x70008, lo := 16, width := 10 }
/-- R442. -/
def CNJ_EPOCH : Fld := { base := 0x7000c, lo := 0, width := 16 }
/-- R442. -/
def CNJ_DIG_LOCAL : Fld := { base := 0x70010, lo := 0, width := 64 }
/-- R442. -/
def CNJ_DIG_PARTNER : Fld := { base := 0x70018, lo := 0, width := 64 }
/-- R442. -/
def CNJ_DIG_CYC : Fld := { base := 0x70020, lo := 0, width := 64 }
/-- R442. -/
def CNJ_DIAG_LOCAL : Fld := { base := 0x70028, lo := 0, width := 2 }
/-- R442. -/
def CNJ_DIAG_PARTNER : Fld := { base := 0x70028, lo := 2, width := 2 }
/-- R442. -/
def CNJ_DIAG_FAILSTEP : Fld := { base := 0x70028, lo := 4, width := 4 }
/-- R442. -/
def CNJ_FLAGS_MISMATCH : Fld := { base := 0x7002c, lo := 0, width := 1, acc := .W1C }
/-- R442. -/
def CNJ_FLAGS_SWITCH : Fld := { base := 0x7002c, lo := 1, width := 1, acc := .W1C }
/-- R442. -/
def CNJ_FLAGS_ONESIDED : Fld := { base := 0x7002c, lo := 2, width := 1, acc := .W1C }
/-- R442. -/
def CNJ_FLAGS_LINK_LOST : Fld := { base := 0x7002c, lo := 3, width := 1, acc := .W1C }
/-- R442. -/
def CNJ_FLAGS_LANE_LOST : Fld := { base := 0x7002c, lo := 4, width := 1, acc := .W1C }
/-- R442. -/
def CNJ_FLAGS_DUAL_PASS : Fld := { base := 0x7002c, lo := 5, width := 1, acc := .W1C }
/-- R442. -/
def CNJ_FLAGS_REJOIN_FAIL : Fld := { base := 0x7002c, lo := 6, width := 1, acc := .W1C }
/-- R442. -/
def CNJ_SW_CYC : Fld := { base := 0x70030, lo := 0, width := 64 }
/-- R442. -/
def CNJ_SW_CAUSE : Fld := { base := 0x70038, lo := 0, width := 3 }
/-- R442. -/
def CNJ_BACKLOG : Fld := { base := 0x7003c, lo := 0, width := 16 }
/-- R442. -/
def CNJ_CNT_CMP : Fld := { base := 0x70040, lo := 0, width := 32, acc := .RC }
/-- R442. -/
def CNJ_CNT_MISMATCH : Fld := { base := 0x70044, lo := 0, width := 32, acc := .RC }
/-- R442. -/
def CNJ_CNT_ONESIDED : Fld := { base := 0x70048, lo := 0, width := 32, acc := .RC }
/-- R442. -/
def CNJ_CNT_SWITCH : Fld := { base := 0x7004c, lo := 0, width := 32, acc := .RC }
/-- R442. -/
def CNJ_CNT_LANEERR : Fld := { base := 0x70050, lo := 0, width := 32, acc := .RC }
/-- R462. -/
def INT_SUM_ERR : Fld := { base := 0xe0000, lo := 0, width := 1 }
/-- R462. -/
def INT_SUM_DOM : Fld := { base := 0xe0000, lo := 16, width := 12 }
/-- R462. -/
def INT_EVLOG_SEQ : Fld := { base := 0xe0004, lo := 0, width := 32 }
/-- R462. -/
def INT_ARR_CE : Fld := { base := 0xe0100, lo := 0, width := 32, acc := .RC, n := 10, stride := 0x20 }
/-- R462. -/
def INT_ARR_UE : Fld := { base := 0xe0104, lo := 0, width := 32, acc := .RC, n := 10, stride := 0x20 }
/-- R462. -/
def INT_ARR_LAST_CE : Fld := { base := 0xe0108, lo := 0, width := 32, n := 10, stride := 0x20 }
/-- R462. -/
def INT_ARR_LAST_UE : Fld := { base := 0xe010c, lo := 0, width := 32, n := 10, stride := 0x20 }
/-- R462. -/
def INT_ARR_POS : Fld := { base := 0xe0110, lo := 0, width := 32, n := 10, stride := 0x20 }
/-- R462. -/
def INT_ARR_PASSES : Fld := { base := 0xe0114, lo := 0, width := 32, n := 10, stride := 0x20 }
/-- R462. -/
def INT_ARR_STAT_LATE : Fld := { base := 0xe0118, lo := 0, width := 1, acc := .W1C, n := 10, stride := 0x20 }
/-- R462. -/
def INT_DET_STICKY : Fld := { base := 0xe0400, lo := 0, width := 1, acc := .W1C, n := 32, stride := 0x10 }
/-- R462. -/
def INT_DET_INJ : Fld := { base := 0xe0400, lo := 1, width := 1, n := 32, stride := 0x10 }
/-- R462. -/
def INT_DET_INST : Fld := { base := 0xe0400, lo := 16, width := 16, n := 32, stride := 0x10 }
/-- R462. -/
def INT_DET_CNT : Fld := { base := 0xe0404, lo := 0, width := 32, acc := .RC, n := 32, stride := 0x10 }
/-- R462. -/
def INT_DET_T : Fld := { base := 0xe0408, lo := 0, width := 64, n := 32, stride := 0x10 }
/-- R462. -/
def INT_INJ_STAT_STATE : Fld := { base := 0xe0800, lo := 0, width := 2, n := 8, stride := 0x20 }
/-- R462. -/
def INT_INJ_STAT_DET : Fld := { base := 0xe0800, lo := 8, width := 8, n := 8, stride := 0x20 }
/-- R462. -/
def INT_INJ_STAT_INST : Fld := { base := 0xe0800, lo := 16, width := 16, n := 8, stride := 0x20 }
/-- R462. -/
def INT_INJ_FIRED : Fld := { base := 0xe0804, lo := 0, width := 8, n := 8, stride := 0x20 }
/-- R463. -/
def TEL_TEMP : Fld := { base := 0xf0000, lo := 0, width := 16, n := 6, stride := 0x4 }
/-- R463. -/
def TEL_RAIL : Fld := { base := 0xf0040, lo := 0, width := 16, n := 6, stride := 0x4 }
/-- R463. -/
def TEL_EYE_H : Fld := { base := 0xf0080, lo := 0, width := 16, n := 10, stride := 0x4 }
/-- R463. -/
def TEL_EYE_V : Fld := { base := 0xf0080, lo := 16, width := 16, n := 10, stride := 0x4 }
/-- R463. -/
def TEL_VFG : Fld := { base := 0xf00c0, lo := 0, width := 16, n := 4, stride := 0x4 }
/-- R463. -/
def TEL_CFG_TWARN : Fld := { base := 0xf0100, lo := 0, width := 8, reset := 0x6e, fix := [.clamp 0x3c 0x78] }
/-- R463. -/
def TEL_CFG_EYE_H : Fld := { base := 0xf0104, lo := 0, width := 16, reset := 0xfa }
/-- R463. -/
def TEL_CFG_EYE_V : Fld := { base := 0xf0104, lo := 16, width := 16, reset := 0x32 }
/-- R463. -/
def TEL_FLAGS_TEMP_WARN : Fld := { base := 0xf0108, lo := 0, width := 1, acc := .W1C }
/-- R463. -/
def TEL_FLAGS_TEMP_CRIT : Fld := { base := 0xf0108, lo := 1, width := 1, acc := .W1C }
/-- R463. -/
def TEL_FLAGS_RAIL : Fld := { base := 0xf0108, lo := 2, width := 1, acc := .W1C }
/-- R463. -/
def TEL_FLAGS_EYE : Fld := { base := 0xf0108, lo := 3, width := 1, acc := .W1C }
/-- R463. -/
def TEL_FLAGS_ADC_CAL : Fld := { base := 0xf0108, lo := 4, width := 1, acc := .W1C }
/-- R488. -/
def PWR_STATE_STATE : Fld := { base := 0x100000, lo := 0, width := 2 }
/-- R488. -/
def PWR_STATE_PENDING : Fld := { base := 0x100000, lo := 4, width := 2, reset := 0x3 }
/-- R488. -/
def PWR_STATE_BOOT : Fld := { base := 0x100000, lo := 8, width := 2 }
/-- R488. -/
def PWR_CFG_IDLE_EN : Fld := { base := 0x100004, lo := 0, width := 1 }
/-- R488. -/
def PWR_CFG_WDT : Fld := { base := 0x100004, lo := 16, width := 10, reset := 0xc8, fix := [.clamp 0xa 0x3e8] }
/-- R488. -/
def PWR_DOM_ON : Fld := { base := 0x100008, lo := 0, width := 12, reset := 0x1 }
/-- R488. -/
def PWR_DOM_RST : Fld := { base := 0x100008, lo := 16, width := 12, reset := 0xffe }
/-- R488. -/
def PWR_CLK_LOCK : Fld := { base := 0x10000c, lo := 0, width := 5 }
/-- R488. -/
def PWR_CLK_REF : Fld := { base := 0x10000c, lo := 8, width := 1 }
/-- R488. -/
def PWR_RSTCAUSE : Fld := { base := 0x100010, lo := 0, width := 7, acc := .W1C, reset := 0x1 }
/-- R488. -/
def PWR_WAKE_CAUSE : Fld := { base := 0x100014, lo := 0, width := 3 }
/-- R488. -/
def PWR_WAKE_TMR : Fld := { base := 0x100018, lo := 0, width := 32 }
/-- R488. -/
def PWR_BOOT_T : Fld := { base := 0x10001c, lo := 0, width := 32 }
/-- R488. -/
def PWR_CNT_WDT : Fld := { base := 0x100020, lo := 0, width := 32, acc := .RC }
/-- R489. -/
def SEC_STATE_STATE : Fld := { base := 0x110000, lo := 0, width := 2, reset := 0x1 }
/-- R489. -/
def SEC_STATE_ZEROISED : Fld := { base := 0x110000, lo := 4, width := 1 }
/-- R489. -/
def SEC_STATE_OBS_TOKEN : Fld := { base := 0x110000, lo := 5, width := 1 }
/-- R489. -/
def SEC_KEYS_PROG : Fld := { base := 0x110004, lo := 0, width := 4, reset := 0x3 }
/-- R489. -/
def SEC_KEYS_REVOKED : Fld := { base := 0x110004, lo := 8, width := 4 }
/-- R489. -/
def SEC_CHAL : Fld := { base := 0x110008, lo := 0, width := 32, m := 4, step := 4 }
/-- R489. -/
def SEC_DBG_REQ : Fld := { base := 0x110018, lo := 0, width := 2 }
/-- R489. -/
def SEC_DBG_LEVEL : Fld := { base := 0x110018, lo := 4, width := 2 }
/-- R489. -/
def SEC_DBG_HALTED : Fld := { base := 0x110018, lo := 8, width := 1 }
/-- R489. -/
def SEC_DBG_EXTEST : Fld := { base := 0x110018, lo := 9, width := 1 }
/-- R489. -/
def SEC_CNT_TOKFAIL : Fld := { base := 0x11001c, lo := 0, width := 32, acc := .RC }
/-- R489. -/
def SEC_CNT_DBGREF : Fld := { base := 0x110020, lo := 0, width := 32, acc := .RC }
/-- R489. -/
def SEC_IDCODE : Fld := { base := 0x110024, lo := 0, width := 32, reset := 0x17420001 }
/-- R102. -/
def AXS_TRK_CTL_T0_SEC : Fld := { base := 0x1000000c, lo := 0, width := 5, acc := .RW, n := 256, stride := 0x1000 }
/-- R102. -/
def AXS_TRK_CTL_T0_EN : Fld := { base := 0x1000000c, lo := 5, width := 1, acc := .RW, n := 256, stride := 0x1000 }
/-- R102. -/
def AXS_TRK_CTL_T0_BANK : Fld := { base := 0x1000000c, lo := 6, width := 1, n := 256, stride := 0x1000 }
/-- R102. -/
def AXS_TRK_CTL_T1_SEC : Fld := { base := 0x1000000c, lo := 8, width := 5, acc := .RW, n := 256, stride := 0x1000 }
/-- R102. -/
def AXS_TRK_CTL_T1_EN : Fld := { base := 0x1000000c, lo := 13, width := 1, acc := .RW, n := 256, stride := 0x1000 }
/-- R102. -/
def AXS_TRK_CTL_T1_BANK : Fld := { base := 0x1000000c, lo := 14, width := 1, n := 256, stride := 0x1000 }
/-- R103. -/
def AXS_TRK_SRC_T0_AXIS : Fld := { base := 0x10000410, lo := 0, width := 8, acc := .RW, n := 256, stride := 0x1000 }
/-- R103. -/
def AXS_TRK_SRC_T0_NPT : Fld := { base := 0x10000410, lo := 8, width := 5, acc := .RW, n := 256, stride := 0x1000, fix := [.code 0x1 0x1 0x0, .clamp 0x0 0xc] }
/-- R103. -/
def AXS_TRK0_PT_POS : Fld := { base := 0x10000430, lo := 0, width := 64, acc := .RW, n := 256, stride := 0x1000, m := 12, step := 16 }
/-- R103. -/
def AXS_TRK0_PT_FRQ : Fld := { base := 0x10000438, lo := 0, width := 32, acc := .RW, n := 256, stride := 0x1000, m := 12, step := 16 }
/-- R103. -/
def AXS_TRK_SRC_T1_AXIS : Fld := { base := 0x10000410, lo := 16, width := 8, acc := .RW, n := 256, stride := 0x1000 }
/-- R103. -/
def AXS_TRK_SRC_T1_NPT : Fld := { base := 0x10000410, lo := 24, width := 5, acc := .RW, n := 256, stride := 0x1000, fix := [.code 0x1 0x1 0x0, .clamp 0x0 0xc] }
/-- R103. -/
def AXS_TRK1_PT_POS : Fld := { base := 0x100004f0, lo := 0, width := 64, acc := .RW, n := 256, stride := 0x1000, m := 12, step := 16 }
/-- R103. -/
def AXS_TRK1_PT_FRQ : Fld := { base := 0x100004f8, lo := 0, width := 32, acc := .RW, n := 256, stride := 0x1000, m := 12, step := 16 }
/-- R89. -/
def GRP_CC_CTL_SRC : Fld := { base := 0x1800000c, lo := 0, width := 3, acc := .RW, n := 32, stride := 0x200, m := 4, step := 1 }
/-- R89. -/
def GRP_CC_CTL_DST : Fld := { base := 0x1800000c, lo := 3, width := 3, acc := .RW, n := 32, stride := 0x200, m := 4, step := 1 }
/-- R89. -/
def GRP_CC_CTL_EN : Fld := { base := 0x1800000c, lo := 6, width := 1, acc := .RW, n := 32, stride := 0x200, m := 4, step := 1 }
/-- R89. -/
def GRP_CC_CTL_FREEZE : Fld := { base := 0x1800000c, lo := 7, width := 1, acc := .RW, n := 32, stride := 0x200, m := 4, step := 1 }
/-- R258. -/
def HIF_ERRLOG_T : Fld := { base := 0x100, lo := 0, width := 64, n := 16, stride := 0x10 }
/-- R258. -/
def HIF_ERRLOG_ADDR : Fld := { base := 0x108, lo := 0, width := 32, n := 16, stride := 0x10 }
/-- R258. -/
def HIF_ERRLOG_INFO : Fld := { base := 0x10c, lo := 0, width := 32, n := 16, stride := 0x10 }
/-- R252. -/
def HIF_MSIX_ADDR : Fld := { base := 0x8000, lo := 0, width := 64, acc := .RW, n := 64, stride := 0x10 }
/-- R252. -/
def HIF_MSIX_DATA : Fld := { base := 0x8008, lo := 0, width := 32, acc := .RW, n := 64, stride := 0x10 }
/-- R252. -/
def HIF_MSIX_MASK : Fld := { base := 0x800c, lo := 0, width := 1, acc := .RW, reset := 0x1, n := 64, stride := 0x10 }
/-- R252. -/
def HIF_MSIX_PBA : Fld := { base := 0x9000, lo := 0, width := 64 }
/-- R262. -/
def MIR_AXS_STATUS : Fld := { base := 0x40000008, lo := 0, width := 64, n := 256, stride := 0x100 }

/-- Fields of the ast table, part 0. -/
def astFields0 : List Fld := [AXS_STATUS_STATE, AXS_STATUS_KIND, AXS_STATUS_SAFE_DEMAND, AXS_STATUS_STALE, AXS_STATUS_ARITH, AXS_STATUS_FE_WARN, AXS_STATUS_LIMIT_VIOL, AXS_STATUS_POS_UNCERTAIN, AXS_STATUS_TORQUE_LIMITED, AXS_STATUS_BRAKE, AXS_STATUS_HOMED, AXS_STATUS_REACTION, AXS_STATUS_FAULT_CLASS, AXS_STATUS_OVR_CONSEC, AXS_STATUS_DELAY, AXS_STATUS_SAMPLE_SEQ]

/-- The fields of the ast table. -/
def astFields : List Fld := astFields0

/-- Fields of the liv table, part 0. -/
def livFields0 : List Fld := [LIV_SAMPLES, LIV_FE_MIN, LIV_FE_MAX, LIV_OVERRUN, LIV_ELLIPSIS, LIV_MISS_FB, LIV_MISS_CMD, LIV_CLAMP]

/-- The fields of the liv table. -/
def livFields : List Fld := livFields0

/-- Fields of the axs table, part 0. -/
def axsFields0 : List Fld := [AXS_EN_TIMEOUT, AXS_STOP_HOLD, AXS_BRK_DELAY, AXS_STOP_TIMEOUT, AXS_FB_LIMIT, AXS_BRK_FIO, AXS_REACT, AXS_STAGE_CFG_NPOS, AXS_STAGE_CFG_NVEL, AXS_STAGE_CFG_NOUT, AXS_STAGE_CFG_GROUP, AXS_SEC_FREEZE, AXS_SEC_BYPASS, AXS_SEC_CLHOLD, AXS_SEC_SHIFT0, AXS_SEC_SHIFT1, AXS_SEC_SHIFT2, AXS_POS_SCALE, AXS_VEL_SCALE, AXS_KVFF, AXS_KAFF, AXS_KTFF, AXS_KLFF, AXS_TRQ_MAX, AXS_TRQ_MIN, AXS_P_DEM, AXS_P_ACT, AXS_FE, AXS_V_ACT, AXS_TRQ_CMD, AXS_LIM_FLAGS, AXS_TRK0_COEF, AXS_TRK1_COEF, AXS_SEC_COEF, AXS_SEC_STATE, AXS_FE_LIMIT, AXS_FE_IMM, AXS_FE_TIME, AXS_FE_CTL_EN_TIMED, AXS_FE_CTL_EN_IMM]

/-- Fields of the axs table, part 1. -/
def axsFields1 : List Fld := [AXS_FE_CTL_FE_CNT, AXS_TRK0_RP, AXS_TRK0_RZ, AXS_TRK1_RP, AXS_TRK1_RZ, AXS_TRK0_FC, AXS_TRK1_FC, AXS_PRB_SEL0, AXS_PRB_SEL1, AXS_PRB_CTL_DECIM, AXS_PRB_CTL_EN, AXS_PRB_STAT_LOST, TRJ_VMAX, TRJ_SSV, TRJ_AMAX, TRJ_DMAX, TRJ_JMAX, TRJ_QDEC, TRJ_QJRK, TRJ_EDEC, TRJ_EJRK, TRJ_SWL_POS, TRJ_SWL_NEG, TRJ_AFS, TRJ_SSP, TRJ_CFG_SWL_EN, TRJ_CFG_LIM_P, TRJ_CFG_LIM_N, TRJ_CFG_HOME, TRJ_TFF_STAT, TRJ_TFF_FRIC, TRJ_STAT_MODE, TRJ_STAT_INPOS, TRJ_STAT_LIMP, TRJ_STAT_LIMN, TRJ_STAT_REVERSAL, TRJ_OVERSHOOT, TRJ_TARGET, TRJ_T_END, TRJ_SEG_STAT_COUNT]

/-- Fields of the axs table, part 2. -/
def axsFields2 : List Fld := [TRJ_SEG_STAT_STATE, TRJ_SEG_STAT_UNDERRUNS, TRJ_SEG_DONE, HM_CFG_METHOD, HM_CFG_DIR, HM_CFG_REV, HM_VSEARCH, HM_VCREEP, HM_TRQ, HM_OFFSET, HM_HOMEPOS, HM_DIST, HM_DWELL, HM_STALLV, HM_FEIMM, HM_TIMEOUT, HM_STAT_PHASE, HM_STAT_REVERSED, HM_STAT_LAT_P, HM_STAT_LAT_N, HM_STAT_COARSE, HM_STAT_ERR, HM_REF, AXS_TRK_CTL_T0_SEC, AXS_TRK_CTL_T0_EN, AXS_TRK_CTL_T0_BANK, AXS_TRK_CTL_T1_SEC, AXS_TRK_CTL_T1_EN, AXS_TRK_CTL_T1_BANK, AXS_TRK_SRC_T0_AXIS, AXS_TRK_SRC_T0_NPT, AXS_TRK0_PT_POS, AXS_TRK0_PT_FRQ, AXS_TRK_SRC_T1_AXIS, AXS_TRK_SRC_T1_NPT, AXS_TRK1_PT_POS, AXS_TRK1_PT_FRQ]

/-- The fields of the axs table. -/
def axsFields : List Fld := axsFields0 ++ axsFields1 ++ axsFields2

/-- Fields of the snp table, part 0. -/
def snpFields0 : List Fld := [SNP_SEQ, SNP_SAMPLES, SNP_FE_MIN, SNP_FE_MAX, SNP_OVERRUN, SNP_ELLIPSIS, SNP_MISS_FB, SNP_MISS_CMD, SNP_CLAMP, SNP_AXES, SNP_BOUNDARY, SNP_SEQ_END]

/-- The fields of the snp table. -/
def snpFields : List Fld := snpFields0

/-- Fields of the grp table, part 0. -/
def grpFields0 : List Fld := [GRP_CFG_N, GRP_CFG_FREEZE, GRP_CFG_CC_SHIFT, GRP_MEM0, GRP_MEM1, GRP_M, GRP_CC_COEF, GRP_CC_STATE, GRP_CC_CTL_SRC, GRP_CC_CTL_DST, GRP_CC_CTL_EN, GRP_CC_CTL_FREEZE]

/-- The fields of the grp table. -/
def grpFields : List Fld := grpFields0

/-- Fields of the lff table, part 0. -/
def lffFields0 : List Fld := [LFF_BIND_AXIS, LFF_BIND_EN, LFF_BIND_MOVE_ID, LFF_STAT_STATE, LFF_STAT_DUR_MISMATCH, LFF_STAT_UPDATE_PENDING, LFF_STAT_REPS, LFF_GAIN, LFF_CFG_LEAD, LFF_CFG_QSHIFT, LFF_CFG_FREEZE, LFF_D0, LFF_Q]

/-- The fields of the lff table. -/
def lffFields : List Fld := lffFields0

/-- Fields of the sch table, part 0. -/
def schFields0 : List Fld := [SCH_DESC_ENTRY, SCH_DESC_PRIO, SCH_DESC_REL, SCH_DESC_EN, SCH_DESC_TYPE, SCH_DESC_REC, SCH_DESC_RTYPE, SCH_DESC_AFF, SCH_DESC_AFFV, SCH_DESC_PEND, SCH_DESC_JCNT, SCH_DESC_SLOT, SCH_DESC_RING, SCH_DESC_DIV, SCH_DESC_PHASE, SCH_DESC_BUDGET, SCH_DESC_DLSEL, SCH_DESC_DLREL, SCH_DESC_NEXT, SCH_DESC_NEXT_EN, SCH_DESC_SIB, SCH_DESC_SIB_EN, SCH_DESC_JOIN, SCH_DESC_FSW0, SCH_DESC_FSW1, SCH_DESC_LAST_CYC, SCH_DESC_MAX_CYC, SCH_STATUS_ENG_INSVC, SCH_STATUS_OVERLOAD, SCH_STATUS_TRC_FROZEN, SCH_ENG_STATE, SCH_RDY, SCH_CFG_ADMIT, SCH_CFG_TRC_POST, SCH_TRC_TRIG, SCH_LOAD_AVG, SCH_LOAD_MAX, SCH_ADMITTED, SCH_CNT_OVR, SCH_CNT_AFFMISS]

/-- Fields of the sch table, part 1. -/
def schFields1 : List Fld := [SCH_CNT_PREEMPT, SCH_CNT_RETRY, SCH_CNT_ABORT, SCH_CNT_TRCLOST, SCH_TRC_WPTR_IDX, SCH_TRC_WPTR_WRAPS, SCH_TRC_TRIGIDX, SCH_TRC_CTL_FREEZE, SCH_TRC_CTL_ARM, SCH_TRC_CTL_RELEASE]

/-- The fields of the sch table. -/
def schFields : List Fld := schFields0 ++ schFields1

/-- Fields of the cmp table, part 0. -/
def cmpFields0 : List Fld := [CMP_TRG_DIR, CMP_CTL_EN, CMP_CTL_MODE, CMP_CTL_DIR, CMP_CTL_SRC, CMP_CTL_OUT, CMP_CTL_POL, CMP_CTL_AXIS, CMP_WIDTH, CMP_POS, CMP_INC, CMP_LIST_BASE, CMP_LIST_LEN, CMP_CNT, CMP_STAT_FIRED, CMP_STAT_ARMED, CMP_STAT_DONE, CMP_STAT_MISSED, CMP_FLAGS_GAP, CMP_FLAGS_GAP_STOP, CMP_FLAGS_LATE, CMP_FLAGS_OVERLAP, CMP_LAST_T, CMP_ARM, CMP_DISARM, CMP_CAP_CTL_EN, CMP_CAP_CTL_MODE, CMP_CAP_CTL_EDGE, CMP_CAP_CTL_SRC, CMP_CAP_CTL_AXIS, CMP_CAP_STAT_COUNT, CMP_CAP_STAT_ARMED, CMP_CAP_FLAGS_OVF, CMP_CAP_OVFCNT, CMP_CAP_TS, CMP_CAP_TSF, CMP_CAP_EDGE, CMP_CAP_POS, CMP_CAP_NEXT, CMP_CAP_ARM]

/-- The fields of the cmp table. -/
def cmpFields : List Fld := cmpFields0

/-- Fields of the nrt table, part 0. -/
def nrtFields0 : List Fld := [NRT_RCFG_EN, NRT_RCFG_MODE, NRT_RCFG_C, NRT_RCFG_SSIZE, NRT_RCFG_CYC, NRT_RCFG2_NSLOT, NRT_RCFG2_NZHV, NRT_RCFG2_NCOMMA, NRT_RCFG3_NHC, NRT_RCFG3_ETYPE, NRT_RCFG4_REF, NRT_RCFG4_REF2, NRT_RSTATE_STATE, NRT_RSTATE_HEAD, NRT_RSTATE_SPLIT, NRT_RSTATE_REFUSE, NRT_TOPO_NODES, NRT_TOPO_HOPS, NRT_R_PS, NRT_F_PS, NRT_L_PS, NRT_G_PS, NRT_APPLY_NS, NRT_MAXRX_PS, NRT_MEAS_CYC, NRT_CYCLE, NRT_TOKEN_CID, NRT_TOKEN_EPOCH, NRT_FLAGS_SPLIT_ENTERED, NRT_FLAGS_APPLY_MARGIN, NRT_FLAGS_LATE_RETURN, NRT_FLAGS_TOPO_CHANGE, NRT_FLAGS_NODE_LOST, NRT_FLAGS_DC_UNLOCK, NRT_CNT_MISSFB, NRT_CNT_STALE, NRT_CNT_CODE, NRT_CNT_FCS, NRT_CNT_ACYC_DROP, NRT_CNT_FOREIGN_HEAD]

/-- Fields of the nrt table, part 1. -/
def nrtFields1 : List Fld := [NRT_PSTAT_LINK, NRT_PSTAT_BYP, NRT_PCNT_CODE, NRT_PCNT_DOWN, NRT_PCNT_FCS, NRT_PCNT_FOREIGN, NRT_PD_PS]

/-- The fields of the nrt table. -/
def nrtFields : List Fld := nrtFields0 ++ nrtFields1

/-- Fields of the dck table, part 0. -/
def dckFields0 : List Fld := [DCK_TIME, DCK_FRAC, DCK_STATE_STATE, DCK_STATE_REFSRC, DCK_OFFSET, DCK_RATE, DCK_LOCKLOSS]

/-- The fields of the dck table. -/
def dckFields : List Fld := dckFields0

/-- Fields of the hif table, part 0. -/
def hifFields0 : List Fld := [HIF_ID_PART, HIF_ID_VARIANT, HIF_ID_PACK, HIF_ID_REV, HIF_FW_VER, HIF_SERIAL, HIF_MAC, HIF_CID, HIF_PCI_ID, HIF_STATUS_READY, HIF_STATUS_FULL_STOP, HIF_STATUS_ERR, HIF_STATUS_ROLE, HIF_STATUS_SEC, HIF_STATUS_PWR, HIF_STATUS_HSEL, HIF_STATUS_BOOT_CNT, HIF_CYCLE, HIF_INT_STAT, HIF_INT_EN, HIF_INT_MBX_STAT, HIF_INT_MBX_EN, HIF_TICK_DIV, HIF_DB_ALL, HIF_PI_CTL_HOLD_A, HIF_PI_CTL_HOLD_B, HIF_INT_QEN, HIF_ERRLOG_WPTR_IDX, HIF_ERRLOG_WPTR_WRAPS, HIF_CNT_ERR, HIF_AXEVT, HIF_ERRLOG_T, HIF_ERRLOG_ADDR, HIF_ERRLOG_INFO, HIF_MSIX_ADDR, HIF_MSIX_DATA, HIF_MSIX_MASK, HIF_MSIX_PBA]

/-- The fields of the hif table. -/
def hifFields : List Fld := hifFields0

/-- Fields of the mir table, part 0. -/
def mirFields0 : List Fld := [MIR_MSEQ, MIR_P_DEM, MIR_P_ACT, MIR_FE, MIR_V_ACT, MIR_TRQ_CMD, MIR_LIM_FLAGS, MIR_TRJ_STAT, MIR_HM_STAT, MIR_TRJ_TARGET, MIR_TRJ_T_END, MIR_TRJ_SEG_STAT, MIR_TRJ_SEG_DONE, MIR_FB_BOUNDARY, MIR_MSEQ_END, MIR_AXS_STATUS]

/-- The fields of the mir table. -/
def mirFields : List Fld := mirFields0

/-- Fields of the mbx table, part 0. -/
def mbxFields0 : List Fld := [MBX_REQ_OPCODE, MBX_REQ_TAG, MBX_LEN, MBX_ARG, MBX_DB, MBX_ACK, MBX_STAT_STATUS, MBX_STAT_DUP, MBX_STAT_DUP_OP, MBX_STAT_DUP_TRUNC, MBX_STAT_RTAG, MBX_RES_REASON, MBX_RES_RLEN, MBX_HANDLE, MBX_ROP, MBX_CNT_IGN, MBX_T_DONE, LOP_ID_HANDLE, LOP_ID_STATUS, LOP_OBJ_OPCODE, LOP_OBJ_INDEX, LOP_PROG_REASON, LOP_PROG_PERMILLE, LOP_ACK, LOP_T_START, LOP_T_END]

/-- The fields of the mbx table. -/
def mbxFields : List Fld := mbxFields0

/-- Fields of the cfg table, part 0. -/
def cfgFields0 : List Fld := [CFG_MODE_ACTIVE, CFG_MODE_PENDING, CFG_MODE_OVERRIDDEN, CFG_MODE_CYC, CFG_STATUS_DIRTY, CFG_STATUS_COMMIT_LOST, CFG_STATUS_IMG_FALLBACK, CFG_STATUS_FW_TRIAL, CFG_STATUS_FW_FALLBACK, CFG_STATUS_LOG_WRAPPED, CFG_STATUS_NO_PASSWORD, CFG_STATUS_FLASH_WORN, CFG_IMG_SEQ, CFG_IMG_BYTES, CFG_BOOT_MODE, CFG_OVL_N, CFG_FL_BLK_ERASED, CFG_FL_BLK_USED, CFG_FL_RETIRED, CFG_FL_ECMAX, CFG_FL_ECMIN, CFG_FW_SLOT, CFG_FW_VER0, CFG_FW_VER1, CFG_FW_ARB, CFG_SAF_SESS_MBX, CFG_SAF_SESS_OPEN, CFG_SAF_SESS_AUTHOR, CFG_SAF_FAILS, CFG_SAF_LOCK, CFG_SAF_CRC, CFG_LOG_SEQ]

/-- The fields of the cfg table. -/
def cfgFields : List Fld := cfgFields0

/-- Fields of the drv table, part 0. -/
def drvFields0 : List Fld := [DRV_CFG_MODE, DRV_CFG_EVAL, DRV_CFG_ZSEL, DRV_CFG_SSN, DRV_CFG_CATCHDIR, DRV_CFG_KEEP, DRV_CFG_BUSGRP, DRV_CFG_ENC, DRV_DEAD, DRV_TMIN_ON, DRV_FSW_MAX, DRV_TSHUNT, DRV_TBAND, DRV_FBAND, DRV_FLUX_REF, DRV_RS, DRV_LS, DRV_PP, DRV_TFS, DRV_IFS, DRV_VBUS_FS, DRV_CHOP_ON, DRV_CHOP_OFF, DRV_CHOP_RISE, DRV_CHS_T, DRV_OV_TRIP, DRV_UV, DRV_CATCH, DRV_BRK_TRQ, DRV_SS_TP, DRV_SS_IMAX, DRV_ST_IRUN, DRV_ST_IHOLD, DRV_ST_HOLD_T, DRV_ST_THR, DRV_ST_HYST, DRV_ST_SLA, DRV_ST_SN, DRV_ST_SVMIN, DRV_STAT_RDY]

/-- Fields of the drv table, part 1. -/
def drvFields1 : List Fld := [DRV_STAT_HWOFF, DRV_STAT_GFLT, DRV_STAT_OVTRIP, DRV_STAT_UV, DRV_STAT_CHOPF, DRV_STAT_CHOP, DRV_STAT_TLIM_ELL, DRV_STAT_TLIM_CHOP, DRV_STAT_CAL_OK, DRV_STAT_SS_ERR, DRV_STAT_STALL, DRV_STAT_POS_UNC, DRV_STAT_RES, DRV_STAT_ELL_CONSEC, DRV_VBUS, DRV_I01, DRV_I23, DRV_ANGLE, DRV_FLUX_EST, DRV_MSTEP, DRV_TQE, DRV_CNT_ELL, DRV_CNT_GFLT, DRV_CNT_OV, DRV_CNT_CHOPF, DRV_CAL_OFS01, DRV_CAL_OFS23, DRV_ENC_CFG_A, DRV_ENC_CFG_B, DRV_ENC_CFG_Z, DRV_ENC_CFG_ZEN, DRV_ENC_CFG_INV, DRV_ENC_CFG_FILT, DRV_ENC_CFG_EN, DRV_ENC_CNT, DRV_ENC_IDX, DRV_ENC_STAT_IDXV, DRV_ENC_ERR, DRV_ANA]

/-- The fields of the drv table. -/
def drvFields : List Fld := drvFields0 ++ drvFields1

/-- Fields of the ptg table, part 0. -/
def ptgFields0 : List Fld := [PTG_CFG_STEP_POL, PTG_CFG_DIR_POL, PTG_CFG_ENC, PTG_WIDTH, PTG_LOW, PTG_DSETUP, PTG_DHOLD, PTG_COUNT, PTG_RATE, PTG_STAT_LAG, PTG_STAT_DIR, PTG_CNT_CLAMP]

/-- The fields of the ptg table. -/
def ptgFields : List Fld := ptgFields0

/-- Fields of the fio table, part 0. -/
def fioFields0 : List Fld := [FIO_GCFG_SIL_TO, FIO_GCFG_AUTO_RESUME, FIO_TP_WIDTH, FIO_TP_PERIOD, FIO_LINK_STATE, FIO_LINK_FLAGS_SILENT, FIO_LINK_FLAGS_FLD_POR, FIO_IN, FIO_RAW, FIO_OUT_CMD, FIO_OUT_ACT, FIO_OUT_SET, FIO_OUT_CLR, FIO_VALID, FIO_CNT_IGN, FIO_IN_T, FIO_CNT_LINKERR, FIO_GRP_STAT_WARN, FIO_GRP_STAT_UV, FIO_GRP_STAT_RECOV, FIO_GRP_STAT_OC, FIO_GRP_V, FIO_GRP_I, FIO_GRP_FLAGS_UV_SEEN, FIO_GRP_FLAGS_WARN_SEEN, FIO_GRP_CNT_UV, FIO_CFG_DIR, FIO_CFG_ITYPE, FIO_CFG_FILT, FIO_CFG_WB, FIO_CFG_FAILACT, FIO_CFG_SAFE, FIO_CFG_AUTO, FIO_CFG_DEMAG, FIO_CFG_TP, FIO_CFG_TSD_AUTO, FIO_CFG_INV, FIO_CFG_THR, FIO_DEB, FIO_CSTAT_IN]

/-- Fields of the fio table, part 1. -/
def fioFields1 : List Fld := [FIO_CSTAT_RAW, FIO_CSTAT_VALID, FIO_CSTAT_WB, FIO_CSTAT_OVL, FIO_CSTAT_TSD, FIO_CSTAT_EXT, FIO_CSTAT_TPFAIL, FIO_CSTAT_UVOFF, FIO_CSTAT_SILOFF, FIO_CSTAT_OWNER, FIO_CSTAT_CNT, FIO_CFLAGS_WB_SEEN, FIO_CFLAGS_OVL_SEEN, FIO_CFLAGS_TSD_SEEN, FIO_CFLAGS_EXT_SEEN, FIO_CFLAGS_TPFAIL_SEEN, FIO_I, FIO_CNT_TSD, FIO_CNT_EDGE]

/-- The fields of the fio table. -/
def fioFields : List Fld := fioFields0 ++ fioFields1

/-- Fields of the saf table, part 0. -/
def safFields0 : List Fld := [SAF_STATUS_STATE, SAF_STATUS_FS_CAUSE, SAF_STATUS_FSTOP_PIN, SAF_STATUS_PROOF_DUE, SAF_SG_DEM, SAF_SG_STO, SAF_EVT, SAF_SAMPLE, SAF_TP_WIDTH, SAF_TP_PERIOD, SAF_FS_T_SS1, SAF_SIN_CFG_EN, SAF_SIN_CFG_THR, SAF_SIN_CFG_DISC, SAF_SIN_STAT_DEMAND, SAF_SIN_STAT_FAULT, SAF_SIN_STAT_CH_A, SAF_SIN_STAT_CH_B, SAF_SIN_STAT_WIN, SAF_SIN_STAT_WCNT, SAF_SIN_CNT_DISC, SAF_SO_CFG_EN, SAF_SO_CFG_KIND, SAF_SO_CFG_AXIS, SAF_SO_CFG_SG, SAF_SO_STAT_ON, SAF_SO_STAT_HS, SAF_SO_STAT_LS, SAF_SO_STAT_FAULT, SAF_SO_STAT_CAUSE, SAF_SO_STAT_PROOF_OK, SAF_SO_STAT_PROOF_STEP, SAF_SO_CNT_DISC, SAF_SO_T_PROOF, SAF_SG_CFG_EN, SAF_SG_CFG_FUNC, SAF_SG_CFG_RESTART, SAF_SG_CFG_SRC_SIN, SAF_SG_CFG_SLS_SIN, SAF_SG_CFG_SLS_LVL]

/-- Fields of the saf table, part 1. -/
def safFields1 : List Fld := [SAF_SG_T_SS1, SAF_SG_CONN, SAF_AXMAP, SAF_CONN_CFG_EN, SAF_CONN_CFG_DIR, SAF_CONN_CFG_RING, SAF_CONN_CFG_CONT, SAF_CONN_CFG_NODE, SAF_CONN_ID, SAF_CONN_WD, SAF_CONN_STAT_STATE, SAF_CONN_STAT_ERR, SAF_CONN_STAT_CNUM, SAF_CONN_CNT_REP, SAF_CONN_CNT_ERR, SAF_CONN_SDATA]

/-- The fields of the saf table. -/
def safFields : List Fld := safFields0 ++ safFields1

/-- Fields of the cnj table, part 0. -/
def cnjFields0 : List Fld := [CNJ_CFG_EN, CNJ_CFG_PREF, CNJ_CFG_AUTO_REJOIN, CNJ_CFG_AUTO_TB, CNJ_PARTNER_CID, CNJ_STATE_ROLE, CNJ_STATE_LANES, CNJ_STATE_REFUSE, CNJ_STATE_REJOIN_PH, CNJ_STATE_PERMILLE, CNJ_EPOCH, CNJ_DIG_LOCAL, CNJ_DIG_PARTNER, CNJ_DIG_CYC, CNJ_DIAG_LOCAL, CNJ_DIAG_PARTNER, CNJ_DIAG_FAILSTEP, CNJ_FLAGS_MISMATCH, CNJ_FLAGS_SWITCH, CNJ_FLAGS_ONESIDED, CNJ_FLAGS_LINK_LOST, CNJ_FLAGS_LANE_LOST, CNJ_FLAGS_DUAL_PASS, CNJ_FLAGS_REJOIN_FAIL, CNJ_SW_CYC, CNJ_SW_CAUSE, CNJ_BACKLOG, CNJ_CNT_CMP, CNJ_CNT_MISMATCH, CNJ_CNT_ONESIDED, CNJ_CNT_SWITCH, CNJ_CNT_LANEERR]

/-- The fields of the cnj table. -/
def cnjFields : List Fld := cnjFields0

/-- Fields of the int table, part 0. -/
def intFields0 : List Fld := [INT_SUM_ERR, INT_SUM_DOM, INT_EVLOG_SEQ, INT_ARR_CE, INT_ARR_UE, INT_ARR_LAST_CE, INT_ARR_LAST_UE, INT_ARR_POS, INT_ARR_PASSES, INT_ARR_STAT_LATE, INT_DET_STICKY, INT_DET_INJ, INT_DET_INST, INT_DET_CNT, INT_DET_T, INT_INJ_STAT_STATE, INT_INJ_STAT_DET, INT_INJ_STAT_INST, INT_INJ_FIRED]

/-- The fields of the int table. -/
def intFields : List Fld := intFields0

/-- Fields of the tel table, part 0. -/
def telFields0 : List Fld := [TEL_TEMP, TEL_RAIL, TEL_EYE_H, TEL_EYE_V, TEL_VFG, TEL_CFG_TWARN, TEL_CFG_EYE_H, TEL_CFG_EYE_V, TEL_FLAGS_TEMP_WARN, TEL_FLAGS_TEMP_CRIT, TEL_FLAGS_RAIL, TEL_FLAGS_EYE, TEL_FLAGS_ADC_CAL]

/-- The fields of the tel table. -/
def telFields : List Fld := telFields0

/-- Fields of the pwr table, part 0. -/
def pwrFields0 : List Fld := [PWR_STATE_STATE, PWR_STATE_PENDING, PWR_STATE_BOOT, PWR_CFG_IDLE_EN, PWR_CFG_WDT, PWR_DOM_ON, PWR_DOM_RST, PWR_CLK_LOCK, PWR_CLK_REF, PWR_RSTCAUSE, PWR_WAKE_CAUSE, PWR_WAKE_TMR, PWR_BOOT_T, PWR_CNT_WDT]

/-- The fields of the pwr table. -/
def pwrFields : List Fld := pwrFields0

/-- Fields of the sec table, part 0. -/
def secFields0 : List Fld := [SEC_STATE_STATE, SEC_STATE_ZEROISED, SEC_STATE_OBS_TOKEN, SEC_KEYS_PROG, SEC_KEYS_REVOKED, SEC_CHAL, SEC_DBG_REQ, SEC_DBG_LEVEL, SEC_DBG_HALTED, SEC_DBG_EXTEST, SEC_CNT_TOKFAIL, SEC_CNT_DBGREF, SEC_IDCODE]

/-- The fields of the sec table. -/
def secFields : List Fld := secFields0

end R

end Sys2Proof.Machine
end

