-- ==== Sys2Proof/Machine/Hidden.lean ====
section
/-! DEFINITION. State of the part that no register shows: what the rules of the spec imply must be held between
two commands. Each is one field of a key space of its own, read and written as the register fields are. -/

namespace Sys2Proof.Machine

namespace H

/-- R10. Latched high half of the 64-bit register at a byte address (bit 32: a value is latched). -/
def LAT_HI : Fld := { base := 0x60000000, lo := 0, width := 33, n := 16777216, stride := 1 }
/-- R10. Staged high half of the 64-bit register at a byte address (bit 32: a value is staged). -/
def STG_HI : Fld := { base := 0x61000000, lo := 0, width := 33, n := 16777216, stride := 1 }
/-- R10. As LAT_HI, for the BAR2 windows. -/
def LAT_HI2 : Fld := { base := 0x62000000, lo := 0, width := 33, n := 1073741824, stride := 1 }
/-- R252. The PCIe function is in D3hot. -/
def D3HOT : Fld := { base := 0xa2000000, lo := 0, width := 1 }
/-- R259. Cycles since the last tick cause. -/
def TICK_CNT : Fld := { base := 0xa2000001, lo := 0, width := 16 }
/-- R59. Cycles since the last statistics boundary. -/
def STAT_CNT : Fld := { base := 0xa2000002, lo := 0, width := 32 }
/-- R59. Statistics period in seconds, as set. -/
def STAT_SEC : Fld := { base := 0xa2000003, lo := 0, width := 6, reset := 0x1 }
/-- R59. Statistics period in base periods, in force. -/
def STAT_LEN : Fld := { base := 0xa2000004, lo := 0, width := 32 }
/-- R265. Opcode of the snapshot taken at the doorbell. -/
def MB_OPC : Fld := { base := 0xa2000005, lo := 0, width := 16, n := 32, stride := 1 }
/-- R265. Tag of the snapshot. -/
def MB_TAG : Fld := { base := 0xa2000025, lo := 0, width := 16, n := 32, stride := 1 }
/-- R265. Length of the snapshot. -/
def MB_LEN : Fld := { base := 0xa2000045, lo := 0, width := 13, n := 32, stride := 1 }
/-- R265. Argument word of the snapshot. -/
def MB_ARG : Fld := { base := 0xa2000065, lo := 0, width := 32, n := 32, stride := 1 }
/-- R272. Last handle given out. -/
def LOP_NEXT : Fld := { base := 0xa2000085, lo := 0, width := 16 }
/-- R455. Domains reported since STICKY of the detector code was cleared. -/
def DET_DOMS : Fld := { base := 0xa2000086, lo := 0, width := 12, n := 32, stride := 1 }
/-- R456. Time of the last event-log entry of detector 0x01, per array. -/
def CE_T : Fld := { base := 0xa20000a6, lo := 0, width := 64, n := 10, stride := 1 }
/-- R456. An entry of detector 0x01 has been written for the array. -/
def CE_LOGGED : Fld := { base := 0xa20000b0, lo := 0, width := 1, n := 10, stride := 1 }
/-- MODEL'S OWN counter of free values. -/
def FREE : Fld := { base := 0xa20000ba, lo := 0, width := 64 }
/-- R108. Data registers D0 to D15 of an engine. -/
def ENG_D : Fld := { base := 0xa20000bb, lo := 0, width := 32, n := 16, stride := 16, m := 16, step := 1 }
/-- R108. Accumulators A0 to A3. -/
def ENG_A : Fld := { base := 0xa20001bb, lo := 0, width := 80, n := 16, stride := 4, m := 4, step := 1 }
/-- R108. Address pointers P0 to P7. -/
def ENG_P : Fld := { base := 0xa20001fb, lo := 0, width := 16, n := 16, stride := 8, m := 8, step := 1 }
/-- R108. Post-modify offsets N0 to N7. -/
def ENG_N : Fld := { base := 0xa200027b, lo := 0, width := 16, n := 16, stride := 8, m := 8, step := 1 }
/-- R108. Circular buffer lengths M0 to M7. -/
def ENG_M : Fld := { base := 0xa20002fb, lo := 0, width := 16, n := 16, stride := 8, m := 8, step := 1 }
/-- R108. Loop counts LC0 and LC1. -/
def ENG_LC : Fld := { base := 0xa200037b, lo := 0, width := 16, n := 16, stride := 2, m := 2, step := 1 }
/-- R108. Loop start addresses LS0 and LS1. -/
def ENG_LS : Fld := { base := 0xa200039b, lo := 0, width := 16, n := 16, stride := 2, m := 2, step := 1 }
/-- R108. Loop end addresses LE0 and LE1. -/
def ENG_LE : Fld := { base := 0xa20003bb, lo := 0, width := 16, n := 16, stride := 2, m := 2, step := 1 }
/-- R109. Engine status, bits [15:0] (ENG and QUAD follow from the engine number). -/
def ENG_ESR : Fld := { base := 0xa20003db, lo := 0, width := 16, n := 16, stride := 1 }
/-- R108. Save pointer. -/
def ENG_SVP : Fld := { base := 0xa20003eb, lo := 0, width := 16, n := 16, stride := 1 }
/-- R108. Return address at pre-emption. -/
def ENG_EPC : Fld := { base := 0xa20003fb, lo := 0, width := 16, n := 16, stride := 1 }
/-- R108. ESR saved at pre-emption. -/
def ENG_ESS : Fld := { base := 0xa200040b, lo := 0, width := 32, n := 16, stride := 1 }
/-- R108. ECYC saved at pre-emption. -/
def ENG_ECS : Fld := { base := 0xa200041b, lo := 0, width := 32, n := 16, stride := 1 }
/-- R108. Engine cycles since dispatch of the running clause. -/
def ENG_ECYC : Fld := { base := 0xa200042b, lo := 0, width := 32, n := 16, stride := 1 }
/-- R108. Program counter. -/
def ENG_PC : Fld := { base := 0xa200043b, lo := 0, width := 16, n := 16, stride := 1 }
/-- R123. Where execution goes on after the delay slot that is next (bit 16: there is one; 17: it is RETI's; 18: the branch
was not taken). -/
def ENG_DLY : Fld := { base := 0xa200044b, lo := 0, width := 19, n := 16, stride := 1 }
/-- R124. The next instruction is the first at a branch target. -/
def ENG_BT : Fld := { base := 0xa200045b, lo := 0, width := 1, n := 16, stride := 1 }
/-- R124. The last instruction wrote LC, LS, LE or ESR. -/
def ENG_WL : Fld := { base := 0xa200046b, lo := 0, width := 1, n := 16, stride := 1 }
/-- R127. Outbox words, level 0 then level 1. -/
def ENG_OUT : Fld := { base := 0xa200047b, lo := 0, width := 32, n := 16, stride := 8, m := 8, step := 1 }
/-- R127. The clause of a level has executed a PUB. -/
def ENG_PUB : Fld := { base := 0xa20004fb, lo := 0, width := 1, n := 16, stride := 2, m := 2, step := 1 }
/-- R126. A pre-empting clause runs at level 1. -/
def ENG_LVL1 : Fld := { base := 0xa200051b, lo := 0, width := 1, n := 16, stride := 1 }
/-- R121. Destination of the pending far load. -/
def ENG_FARD : Fld := { base := 0xa200052b, lo := 0, width := 4, n := 16, stride := 1 }
/-- R121. Address of the pending far load. -/
def ENG_FARA : Fld := { base := 0xa200053b, lo := 0, width := 22, n := 16, stride := 1 }
/-- R106. A record load runs. -/
def ENG_LOAD : Fld := { base := 0xa200054b, lo := 0, width := 1, n := 16, stride := 1 }
/-- R106. Record held by a record slot: 0 none, 1 + axis, 0x200 + group. -/
def ENG_SLOT : Fld := { base := 0xa200055b, lo := 0, width := 10, n := 16, stride := 32, m := 32, step := 1 }
/-- R106. When a record slot was last used. -/
def ENG_SLOT_T : Fld := { base := 0xa200075b, lo := 0, width := 64, n := 16, stride := 32, m := 32, step := 1 }
/-- R106. Counter of record slot uses. -/
def ENG_USE : Fld := { base := 0xa200095b, lo := 0, width := 64 }
/-- R135. Time of the last RESIDUE or MEM_DED exception (bit 64: there was one). -/
def ENG_EXC_T : Fld := { base := 0xa200095c, lo := 0, width := 65, n := 16, stride := 1 }
/-- R107. The engine no longer holds the common program image. -/
def ENG_OWN : Fld := { base := 0xa200096c, lo := 0, width := 1, n := 16, stride := 1 }
/-- R484. The engine is halted by debug. -/
def ENG_HALT : Fld := { base := 0xa200097c, lo := 0, width := 1, n := 16, stride := 1 }
/-- R458. Residue injection at this engine cycle (bit 16: waits for the next dispatch, bit 17: acts in the running clause). -/
def ENG_INJR : Fld := { base := 0xa200098c, lo := 0, width := 18, n := 16, stride := 1 }
/-- R458. ECYC starts at 65535 less this at the next dispatch (bit 16: armed). -/
def ENG_INJW : Fld := { base := 0xa200099c, lo := 0, width := 17, n := 16, stride := 1 }
/-- R458. GOV is set before DONE of the next sample of the axis. -/
def ENG_INJG : Fld := { base := 0xa20009ac, lo := 0, width := 1, n := 256, stride := 1 }
/-- R458. The next self-test fails. -/
def ENG_INJT : Fld := { base := 0xa2000aac, lo := 0, width := 1, n := 16, stride := 1 }
/-- R163. Engine cycles run since the latest base boundary. -/
def ENG_BUSY : Fld := { base := 0xa2000abc, lo := 0, width := 32, n := 16, stride := 1 }
/-- R30. Cycle number of the latest boundary. -/
def BND_N : Fld := { base := 0xa2000acc, lo := 0, width := 64 }
/-- R30. Distributed-clock time of the latest boundary. -/
def BND_T : Fld := { base := 0xa2000acd, lo := 0, width := 64 }
/-- R144. Number of instances released. -/
def INST_ID : Fld := { base := 0xa2000ace, lo := 0, width := 64 }
/-- R162. A TRIGGER record has been written and the trace has not frozen yet. -/
def TRC_TRIG : Fld := { base := 0xa2000acf, lo := 0, width := 1 }
/-- R162. Records still to be written before the trace freezes. -/
def TRC_POST : Fld := { base := 0xa2000ad0, lo := 0, width := 12 }
/-- R162. The TRIGGER record is in trace memory. -/
def TRC_PHASE : Fld := { base := 0xa2000ad1, lo := 0, width := 1 }
/-- R143. The last instance failed; the successors' JCNT is reloaded at the next release. -/
def DESC_RELOAD : Fld := { base := 0xa2000af2, lo := 0, width := 1, n := 1024, stride := 1 }
/-- R280. The descriptor was allocated by DESC_WRITE. -/
def DESC_CUSTOM : Fld := { base := 0xa2000ef2, lo := 0, width := 1, n := 1024, stride := 1 }
/-- R280. Binding: 0 Ring A, 1 Ring B, 0x10 + p drive port, 0x20 + p pulse-train port. -/
def AX_BIND : Fld := { base := 0xa20012f2, lo := 0, width := 6, n := 256, stride := 1 }
/-- R280. Node address. -/
def AX_NODE : Fld := { base := 0xa20013f2, lo := 0, width := 12, n := 256, stride := 1 }
/-- R280. Static slot index. -/
def AX_SLOT : Fld := { base := 0xa20014f2, lo := 0, width := 8, n := 256, stride := 1 }
/-- R280. Vendor of the node. -/
def AX_VENDOR : Fld := { base := 0xa20015f2, lo := 0, width := 32, n := 256, stride := 1 }
/-- R280. Product of the node. -/
def AX_PROD : Fld := { base := 0xa20016f2, lo := 0, width := 32, n := 256, stride := 1 }
/-- R280. Divider code. -/
def AX_DIV : Fld := { base := 0xa20017f2, lo := 0, width := 2, n := 256, stride := 1 }
/-- R280. Release phase. -/
def AX_PHASE : Fld := { base := 0xa20018f2, lo := 0, width := 3, n := 256, stride := 1 }
/-- R139. Axis loop, trajectory-step or position-part descriptor (bit 10: allocated). -/
def AX_DESC : Fld := { base := 0xa20019f2, lo := 0, width := 11, n := 256, stride := 1 }
/-- R139. Velocity-part descriptor of a group member (bit 10: allocated). -/
def AX_DESC2 : Fld := { base := 0xa2001af2, lo := 0, width := 11, n := 256, stride := 1 }
/-- R40. Torque is on. -/
def AX_TRQ : Fld := { base := 0xa2001bf2, lo := 0, width := 1, n := 256, stride := 1 }
/-- R45. Stop or reaction sequence: 0 none, 1 ramp, 2 hold, 3 release, 4 hold with torque on for good. -/
def AX_STOP : Fld := { base := 0xa2001cf2, lo := 0, width := 3, n := 256, stride := 1 }
/-- R42. The fault reaction has finished. -/
def AX_RDONE : Fld := { base := 0xa2001df2, lo := 0, width := 1, n := 256, stride := 1 }
/-- R43. The output path is ready. -/
def AX_READY : Fld := { base := 0xa2001ef2, lo := 0, width := 1, n := 256, stride := 1 }
/-- R43. The loop is seeded. -/
def AX_SEED : Fld := { base := 0xa2001ff2, lo := 0, width := 1, n := 256, stride := 1 }
/-- R512. Actual velocity, counts/s. -/
def AX_V : Fld := { base := 0xa20020f2, lo := 0, width := 64, n := 256, stride := 1 }
/-- R218. Actual torque, Q1.15. -/
def AX_TQA : Fld := { base := 0xa20021f2, lo := 0, width := 16, n := 256, stride := 1 }
/-- R218. STAT bits of the drive or port. -/
def AX_STAT : Fld := { base := 0xa20022f2, lo := 0, width := 16, n := 256, stride := 1 }
/-- R512. Feedback boundary of the last sample, ns. -/
def AX_FBB : Fld := { base := 0xa20023f2, lo := 0, width := 64, n := 256, stride := 1 }
/-- R50. Consecutive missed feedbacks. -/
def AX_MISS : Fld := { base := 0xa20024f2, lo := 0, width := 5, n := 256, stride := 1 }
/-- R84. The previous sample was loop-closed. -/
def AX_CLOSED : Fld := { base := 0xa20025f2, lo := 0, width := 1, n := 256, stride := 1 }
/-- R84. The previous sample was over AXS_FE_IMM. -/
def AX_OVIMM : Fld := { base := 0xa20026f2, lo := 0, width := 1, n := 256, stride := 1 }
/-- R83. The timed limit has been raised in this excursion. -/
def AX_FEHIT : Fld := { base := 0xa20027f2, lo := 0, width := 1, n := 256, stride := 1 }
/-- R65. X_p of the last sample. -/
def AX_XP : Fld := { base := 0xa20028f2, lo := 0, width := 32, n := 256, stride := 1 }
/-- R65. Y_p of the last sample. -/
def AX_YP : Fld := { base := 0xa20029f2, lo := 0, width := 32, n := 256, stride := 1 }
/-- R65. Z of the last sample. -/
def AX_Z : Fld := { base := 0xa2002af2, lo := 0, width := 32, n := 256, stride := 1 }
/-- R71. Output of a section's last unfrozen sample. -/
def SEC_HELD : Fld := { base := 0xa2002bf2, lo := 0, width := 32, n := 256, stride := 24, m := 24, step := 1 }
/-- R70. The section was bypassed and waits for its steady state. -/
def SEC_BYP : Fld := { base := 0xa20043f2, lo := 0, width := 1, n := 256, stride := 24, m := 24, step := 1 }
/-- R222. Last published command words. -/
def OUT_W : Fld := { base := 0xa2005bf2, lo := 0, width := 32, n := 256, stride := 4, m := 4, step := 1 }
/-- R222. A command has been published since the axis entered Configured. -/
def OUT_V : Fld := { base := 0xa20061f2, lo := 0, width := 1, n := 256, stride := 1 }
/-- R513. Fault-reset halves are being published. -/
def FRST_ON : Fld := { base := 0xa20062f2, lo := 0, width := 1, n := 256, stride := 1 }
/-- R513. Fault-reset halves sent. -/
def FRST_N : Fld := { base := 0xa20063f2, lo := 0, width := 5, n := 256, stride := 1 }
/-- R305. References in force at a drive port. -/
def DP_REF : Fld := { base := 0xa20064f2, lo := 0, width := 32, n := 8, stride := 4, m := 4, step := 1 }
/-- R305. Gates enabled by CTRL.EN. -/
def DP_EN : Fld := { base := 0xa2006512, lo := 0, width := 1, n := 8, stride := 1 }
/-- R302. The BRK pin is high (brake released). -/
def DP_BRK : Fld := { base := 0xa200651a, lo := 0, width := 1, n := 8, stride := 1 }
/-- R305. CTRL.IDXARM of the references in force. -/
def DP_IDXARM : Fld := { base := 0xa2006522, lo := 0, width := 1, n := 8, stride := 1 }
/-- R331. A fault reset of the axis has come since the hardware turn-off. -/
def DP_FR : Fld := { base := 0xa200652a, lo := 0, width := 1, n := 8, stride := 1 }
/-- R331. A reference with EN at 0 has come since the hardware turn-off. -/
def DP_EN0 : Fld := { base := 0xa2006532, lo := 0, width := 1, n := 8, stride := 1 }
/-- R334. Time of the last landing. -/
def DP_TL : Fld := { base := 0xa200653a, lo := 0, width := 64, n := 8, stride := 1 }
/-- R321. Rate of the step generator, counts/s. -/
def DP_RATE : Fld := { base := 0xa2006542, lo := 0, width := 32, n := 8, stride := 1 }
/-- R334. References have landed since the last boundary of the axis. -/
def DP_LANDED : Fld := { base := 0xa200654a, lo := 0, width := 1, n := 8, stride := 1 }
/-- R309. The index latch of an encoder channel is armed. -/
def ENC_ARM : Fld := { base := 0xa2006552, lo := 0, width := 1, n := 8, stride := 1 }
/-- R305. References in force at a pulse-train port. -/
def PT_REF : Fld := { base := 0xa200655a, lo := 0, width := 32, n := 16, stride := 4, m := 4, step := 1 }
/-- R334. Time of the last landing. -/
def PT_TL : Fld := { base := 0xa200659a, lo := 0, width := 64, n := 16, stride := 1 }
/-- R334. References have landed since the last boundary of the axis. -/
def PT_LANDED : Fld := { base := 0xa20065aa, lo := 0, width := 1, n := 16, stride := 1 }
/-- R334. A change of direction waits for the next step. -/
def PT_DIRP : Fld := { base := 0xa20065ba, lo := 0, width := 1, n := 16, stride := 1 }
/-- R162. Index of the TRIGGER record in trace memory. -/
def TRC_IDX : Fld := { base := 0xa20065ca, lo := 0, width := 12 }
/-- R141. Last frame for which a REL = 0 descriptor was released (bit 64: there is one). -/
def REL_F : Fld := { base := 0xa20065cb, lo := 0, width := 65, n := 1024, stride := 1 }
/-- R138. The standard clause at a level of the engine has run. -/
def ENG_DID : Fld := { base := 0xa20069cb, lo := 0, width := 1, n := 16, stride := 2, m := 2, step := 1 }
/-- R189. Position offset. -/
def AX_OFS : Fld := { base := 0xa20069eb, lo := 0, width := 64, n := 256, stride := 1 }
/-- R201. The axis has completed a sample. -/
def AX_SAMP : Fld := { base := 0xa2006aeb, lo := 0, width := 1, n := 256, stride := 1 }
/-- R96. V_ff term of the last sample. -/
def AX_VFF : Fld := { base := 0xa2006beb, lo := 0, width := 32, n := 256, stride := 1 }
/-- R96. A_ff term. -/
def AX_AFF : Fld := { base := 0xa2006ceb, lo := 0, width := 32, n := 256, stride := 1 }
/-- R96. T_ff term. -/
def AX_TFF : Fld := { base := 0xa2006deb, lo := 0, width := 32, n := 256, stride := 1 }
/-- R96. U_L. -/
def AX_UL : Fld := { base := 0xa2006eeb, lo := 0, width := 32, n := 256, stride := 1 }
/-- R96. X_v. -/
def AX_XV : Fld := { base := 0xa2006feb, lo := 0, width := 32, n := 256, stride := 1 }
/-- R96. X_o. -/
def AX_XO : Fld := { base := 0xa20070eb, lo := 0, width := 32, n := 256, stride := 1 }
/-- R96. Injected signal. -/
def AX_INJ : Fld := { base := 0xa20071eb, lo := 0, width := 32, n := 256, stride := 1 }
/-- R96. Output of a section in the last sample. -/
def SEC_Y : Fld := { base := 0xa20072eb, lo := 0, width := 32, n := 256, stride := 24, m := 24, step := 1 }
/-- R191. Start of the running homing, ns, less the time in suspension. -/
def HM_T0 : Fld := { base := 0xa2008aeb, lo := 0, width := 64, n := 256, stride := 1 }
/-- R191. Position at the start of the phase. -/
def HM_P0 : Fld := { base := 0xa2008beb, lo := 0, width := 64, n := 256, stride := 1 }
/-- R188. What the rest brings: 0 the phase runs, 1 next phase, 2 search on reversed, 3 abort, 4 suspended, 5 cancelled, 6 homing ends. -/
def HM_NEXT : Fld := { base := 0xa2008ceb, lo := 0, width := 3, n := 256, stride := 1 }
/-- R193. Homing is suspended. -/
def HM_SUSP : Fld := { base := 0xa2008deb, lo := 0, width := 1, n := 256, stride := 1 }
/-- R191. When it was suspended. -/
def HM_SUSPT : Fld := { base := 0xa2008eeb, lo := 0, width := 64, n := 256, stride := 1 }
/-- R192. Feedback boundary of the first of the samples, up to the last, in which the stall condition has held (bit 64: it held). -/
def HM_STALL : Fld := { base := 0xa2008feb, lo := 0, width := 65, n := 256, stride := 1 }
/-- R188. The home source was accepted at the last boundary. -/
def HM_HACC : Fld := { base := 0xa20090eb, lo := 0, width := 1, n := 256, stride := 1 }
/-- R189. Timestamp of the home edge, in 2^(−16) ns (bit 80: there is one). -/
def HM_EDGE : Fld := { base := 0xa20091eb, lo := 0, width := 81, n := 256, stride := 1 }
/-- R188. An index is awaited. -/
def IDX_ARM : Fld := { base := 0xa20092eb, lo := 0, width := 1, n := 256, stride := 1 }
/-- R90. Learning table of the move in force, plus one. -/
def LRN_T : Fld := { base := 0xa20093eb, lo := 0, width := 7, n := 256, stride := 1 }
/-- R90. The table is applied. -/
def LRN_ON : Fld := { base := 0xa20094eb, lo := 0, width := 1, n := 256, stride := 1 }
/-- R91. The repetition is recorded. -/
def LRN_REC : Fld := { base := 0xa20095eb, lo := 0, width := 1, n := 256, stride := 1 }
/-- R90. Start boundary of the move. -/
def LRN_T0 : Fld := { base := 0xa20096eb, lo := 0, width := 64, n := 256, stride := 1 }
/-- R90. Its planned duration, ns. -/
def LRN_D : Fld := { base := 0xa20097eb, lo := 0, width := 64, n := 256, stride := 1 }
/-- R181. Start of the running segment, ns. -/
def SEG_TK : Fld := { base := 0xa20098eb, lo := 0, width := 64, n := 256, stride := 1 }
/-- R181. Its end, ns. -/
def SEG_TE : Fld := { base := 0xa20099eb, lo := 0, width := 64, n := 256, stride := 1 }
/-- R180. Its flags. -/
def SEG_FL : Fld := { base := 0xa2009aeb, lo := 0, width := 8, n := 256, stride := 1 }
/-- R180. Its end position. -/
def SEG_PE : Fld := { base := 0xa2009beb, lo := 0, width := 64, n := 256, stride := 1 }
/-- R180. Its end velocity. -/
def SEG_VE : Fld := { base := 0xa2009ceb, lo := 0, width := 32, n := 256, stride := 1 }
/-- R62. The axis's statistics have begun. -/
def STAT_ON : Fld := { base := 0xa2009deb, lo := 0, width := 1, n := 256, stride := 1 }
/-- R139. Descriptor of the learning update (bit 10: allocated). -/
def LFF_DESC : Fld := { base := 0xa2009eeb, lo := 0, width := 11, n := 64, stride := 1 }
/-- R93. A complete record waits for update. -/
def LFF_WAIT : Fld := { base := 0xa2009f2b, lo := 0, width := 1, n := 64, stride := 1 }
/-- R138. Chunks of the update done. -/
def LFF_CHUNK : Fld := { base := 0xa2009f6b, lo := 0, width := 4, n := 64, stride := 1 }
/-- R93. A new table replaces the old one at the next start. -/
def LFF_NEW : Fld := { base := 0xa2009fab, lo := 0, width := 1, n := 64, stride := 1 }
/-- R95. Halves of an imported table that are staged. -/
def LFF_IMP : Fld := { base := 0xa2009feb, lo := 0, width := 2, n := 64, stride := 1 }
/-- R139. Descriptor of the group clause (bit 10: allocated). -/
def GRP_DESC : Fld := { base := 0xa200a02b, lo := 0, width := 11, n := 32, stride := 1 }
/-- R88. Z of the last unfrozen group sample. -/
def GRP_Z : Fld := { base := 0xa200a04b, lo := 0, width := 32, n := 32, stride := 8, m := 8, step := 1 }
/-- R71. Held output of a cross-coupling section. -/
def GRP_CCH : Fld := { base := 0xa200a14b, lo := 0, width := 32, n := 32, stride := 4, m := 4, step := 1 }
/-- R79. Recipe code of a section, plus one; 0 raw. -/
def SEC_NOTCH : Fld := { base := 0xa200a1cb, lo := 0, width := 8, n := 256, stride := 24, m := 24, step := 1 }
/-- R80. Time of the tracker's last retune. -/
def TRK_T : Fld := { base := 0xa200b9cb, lo := 0, width := 64, n := 256, stride := 2, m := 2, step := 1 }
/-- R263. First page of the axis's probe ring, plus one. -/
def PRB_PAGE : Fld := { base := 0xa200bbcb, lo := 0, width := 9, n := 256, stride := 1 }
/-- R263. Pages of the probe ring. -/
def PRB_N : Fld := { base := 0xa200bccb, lo := 0, width := 9, n := 256, stride := 1 }
/-- R97. Samples since the last record. -/
def PRB_DEC : Fld := { base := 0xa200bdcb, lo := 0, width := 8, n := 256, stride := 1 }
/-- R263. Trace page in use. -/
def PG_USED : Fld := { base := 0xa200becb, lo := 0, width := 1, n := 248, stride := 1 }
/-- R98. Injection channel in use. -/
def SW_ON : Fld := { base := 0xa200bfc3, lo := 0, width := 1, n := 32, stride := 1 }
/-- R98. Its sweep runs. -/
def SW_RUN : Fld := { base := 0xa200bfe3, lo := 0, width := 1, n := 32, stride := 1 }
/-- R98. Axis of the channel. -/
def SW_AXIS : Fld := { base := 0xa200c003, lo := 0, width := 8, n := 32, stride := 1 }
/-- R98. Injection point. -/
def SW_CODE : Fld := { base := 0xa200c023, lo := 0, width := 8, n := 32, stride := 1 }
/-- R98. Signal. -/
def SW_SIG : Fld := { base := 0xa200c043, lo := 0, width := 2, n := 32, stride := 1 }
/-- R98. Response codes. -/
def SW_RESP : Fld := { base := 0xa200c063, lo := 0, width := 8, n := 32, stride := 3, m := 3, step := 1 }
/-- R98. Amplitude. -/
def SW_AMP : Fld := { base := 0xa200c0c3, lo := 0, width := 32, n := 32, stride := 1 }
/-- R98. Signal parameters. -/
def SW_PAR : Fld := { base := 0xa200c0e3, lo := 0, width := 32, n := 32, stride := 11, m := 11, step := 1 }
/-- R98. Samples injected. -/
def SW_K : Fld := { base := 0xa200c243, lo := 0, width := 32, n := 32, stride := 1 }
/-- R99. Records captured. -/
def SW_REC : Fld := { base := 0xa200c263, lo := 0, width := 32, n := 32, stride := 1 }
/-- R99. Records planned. -/
def SW_LEN : Fld := { base := 0xa200c283, lo := 0, width := 32, n := 32, stride := 1 }
/-- R263. First page of its buffer, plus one. -/
def SW_PAGE : Fld := { base := 0xa200c2a3, lo := 0, width := 9, n := 32, stride := 1 }
/-- R263. Pages of its buffer. -/
def SW_NPG : Fld := { base := 0xa200c2c3, lo := 0, width := 9, n := 32, stride := 1 }
/-- R99. Injected value and responses of the last sample. -/
def SW_V : Fld := { base := 0xa200c2e3, lo := 0, width := 32, n := 32, stride := 4, m := 4, step := 1 }
/-- R139. Descriptor of the tuning capture (bit 10: allocated). -/
def SW_DESC : Fld := { base := 0xa200c363, lo := 0, width := 11, n := 32, stride := 1 }
/-- R139. Descriptor of a ring's supervision clause (bit 10: allocated). -/
def SUP_DESC : Fld := { base := 0xa200c383, lo := 0, width := 11, n := 3, stride := 1 }
/-- R196. Arming (1) or disarming (2) waits for the next boundary. -/
def CMP_PEND : Fld := { base := 0xa200c386, lo := 0, width := 2, n := 32, stride := 1 }
/-- R194. Configuration waits for the next boundary. -/
def CMP_CFGP : Fld := { base := 0xa200c3a6, lo := 0, width := 1, n := 32, stride := 1 }
/-- R194. The words that wait. -/
def CMP_NEWW : Fld := { base := 0xa200c3c6, lo := 0, width := 32, n := 32, stride := 8, m := 8, step := 1 }
/-- R203. Arming (1) or disarming (2) waits for the next boundary. -/
def CAP_PEND : Fld := { base := 0xa200c4c6, lo := 0, width := 2, n := 32, stride := 1 }
/-- R200. Configuration waits for the next boundary. -/
def CAP_CFGP : Fld := { base := 0xa200c4e6, lo := 0, width := 1, n := 32, stride := 1 }
/-- R200. The word that waits. -/
def CAP_NEWW : Fld := { base := 0xa200c506, lo := 0, width := 32, n := 32, stride := 1 }
/-- R202. Boundary of the disarm (bit 64: edges before it still count). -/
def CAP_DIS : Fld := { base := 0xa200c526, lo := 0, width := 65, n := 32, stride := 1 }
/-- R196. Firings in the list or interval since arming. -/
def CMP_K : Fld := { base := 0xa200c546, lo := 0, width := 32, n := 32, stride := 1 }
/-- R198. Consecutive missing intervals. -/
def CMP_TGAP : Fld := { base := 0xa200c646, lo := 0, width := 2, n := 32, stride := 1 }
/-- R197. The output pulse is active. -/
def CMP_PON : Fld := { base := 0xa200c666, lo := 0, width := 1, n := 32, stride := 1 }
/-- R197. End of the pulse, ns. -/
def CMP_TE : Fld := { base := 0xa200c686, lo := 0, width := 64, n := 32, stride := 1 }
/-- R243. The axis's node is online. -/
def AX_ONLINE : Fld := { base := 0xa200c6a6, lo := 0, width := 1, n := 256, stride := 1 }
/-- R42. The node was lost and torque is still on. -/
def NODE_GONE : Fld := { base := 0xa200c7a6, lo := 0, width := 1, n := 256, stride := 1 }
/-- R43. The sample seeded the loop; its command carries the seed torque. -/
def AX_FIRST : Fld := { base := 0xa200c8a6, lo := 0, width := 1, n := 256, stride := 1 }
/-- R65. What the last sample was: 0 feedback part, 1 before the output path is ready, 2 seeding, 3 loop closed. -/
def AX_SMODE : Fld := { base := 0xa200c9a6, lo := 0, width := 2, n := 256, stride := 1 }
/-- R306. Port position at the last latch. -/
def AX_LATP : Fld := { base := 0xa200caa6, lo := 0, width := 32, n := 256, stride := 1 }
/-- R189. The reference is taken in the next sample. -/
def HM_REFP : Fld := { base := 0xa200cba6, lo := 0, width := 1, n := 256, stride := 1 }
/-- R308. Unwrapped estimator angle, counts. -/
def DP_POSU : Fld := { base := 0xa200cca6, lo := 0, width := 32, n := 8, stride := 1 }
/-- R306. Estimator speed, counts/s. -/
def DP_SPEED : Fld := { base := 0xa200ccae, lo := 0, width := 32, n := 8, stride := 1 }
/-- R306. Ellipses since the last latch. -/
def DP_ELLP : Fld := { base := 0xa200ccb6, lo := 0, width := 8, n := 8, stride := 1 }
/-- R321. Current amplitude in use. -/
def DP_IAMP : Fld := { base := 0xa200ccbe, lo := 0, width := 32, n := 8, stride := 1 }
/-- R309. Time of the index (bit 64: not yet reported). -/
def ENC_IDXT : Fld := { base := 0xa200ccc6, lo := 0, width := 65, n := 8, stride := 1 }
/-- R288. Mailbox of the mode switch under way, plus one. -/
def MSW_MB : Fld := { base := 0xa200ccce, lo := 0, width := 6 }
/-- R288. When its staging completes. -/
def MSW_T : Fld := { base := 0xa200cccf, lo := 0, width := 64 }
/-- R288. Its named start cycle. -/
def MSW_CYC : Fld := { base := 0xa200ccd0, lo := 0, width := 64 }
/-- R185. T_s of a successor accepted too late for the running segment, ns; 0 none. -/
def SEG_TS : Fld := { base := 0xa200ccd1, lo := 0, width := 64, n := 256, stride := 1 }
/-- R243. Node at ring × 4096 + address: 0 not in the last scan, 1 in it, 2 identified, 3 lost. -/
def NODE_ST : Fld := { base := 0xa200cdd1, lo := 0, width := 2, n := 8192, stride := 1 }
/-- R243. A lost node has been seen again. -/
def NODE_SEEN : Fld := { base := 0xa200edd1, lo := 0, width := 1, n := 8192, stride := 1 }
/-- R243. Vendor it last answered with. -/
def NODE_VEND : Fld := { base := 0xa2012dd1, lo := 0, width := 32, n := 8192, stride := 1 }
/-- R243. Product it last answered with. -/
def NODE_PROD : Fld := { base := 0xa2014dd1, lo := 0, width := 32, n := 8192, stride := 1 }
/-- R241. Entries of the last scan frame. -/
def SCAN_N : Fld := { base := 0xa2016dd1, lo := 0, width := 13, n := 2, stride := 1 }
/-- R241. A scan frame has returned in this step. -/
def SCAN_HAVE : Fld := { base := 0xa2016dd3, lo := 0, width := 1, n := 2, stride := 1 }
/-- R241. Its HOPS. -/
def SCAN_HOPS : Fld := { base := 0xa2016dd5, lo := 0, width := 16, n := 2, stride := 1 }
/-- R228. Greatest receipt time by direction, ps. -/
def NRT_RX : Fld := { base := 0xa2016dd9, lo := 0, width := 32, n := 2, stride := 2, m := 2, step := 1 }
/-- R244. At the next boundary: 1 split mode, 2 single launch. -/
def SPLITP : Fld := { base := 0xa2016ddd, lo := 0, width := 2, n := 2, stride := 1 }
/-- R240. Probe frames due in the next cycles. -/
def PROBEP : Fld := { base := 0xa2016de1, lo := 0, width := 2, n := 2, stride := 1 }
/-- R280. The ring is stopping. -/
def RSTOP : Fld := { base := 0xa2016de3, lo := 0, width := 1, n := 2, stride := 1 }
/-- R280. It starts anew once stopped. -/
def RNEW : Fld := { base := 0xa2016de5, lo := 0, width := 1, n := 2, stride := 1 }
/-- R280. Configuration words of that start. -/
def RING_W : Fld := { base := 0xa2016de7, lo := 0, width := 32, n := 2, stride := 4, m := 4, step := 1 }
/-- R246. The bypass request holds the bypass closed. -/
def BYP_HOLD : Fld := { base := 0xa2016def, lo := 0, width := 1, n := 2, stride := 1 }
/-- R232. Address after which the round-robin of grants goes on. -/
def NRT_RR : Fld := { base := 0xa2016df1, lo := 0, width := 12, n := 2, stride := 1 }
/-- R245. Frame of the copy that has landed first at ring × 256 + slot (bit 64: there is one). -/
def LAND_F : Fld := { base := 0xa2016df3, lo := 0, width := 65, n := 512, stride := 1 }
/-- R245. That copy came back on NP0 (NP2). -/
def LAND_C : Fld := { base := 0xa2016ff3, lo := 0, width := 1, n := 512, stride := 1 }
/-- R224. Epoch of the last frame forwarded (bit 16: there is one). -/
def FWD_EPOCH : Fld := { base := 0xa20171f3, lo := 0, width := 17, n := 2, stride := 1 }
/-- R239. Last peer-delay response sent on a port: REQ_ID, T2, T3. -/
def PD_RESP : Fld := { base := 0xa20171f5, lo := 0, width := 80, n := 4, stride := 3, m := 3, step := 1 }
/-- R237. A first offset has been taken. -/
def DC_FIRST : Fld := { base := 0xa2017201, lo := 0, width := 1 }
/-- R317. Start of a three-phase port, or stage of a two-phase one: 0 down, 1 spin probe, 2 saturation start, 3 braking, 4 running. -/
def DP_START : Fld := { base := 0xa2017202, lo := 0, width := 3, n := 8, stride := 1 }
/-- R320. Failed starts since Enabling began. -/
def DP_TRY : Fld := { base := 0xa201720a, lo := 0, width := 2, n := 8, stride := 1 }
/-- R318. Test pulses done. -/
def DP_PLS : Fld := { base := 0xa2017212, lo := 0, width := 5, n := 8, stride := 1 }
/-- R320. The pulse under way could not be read once. -/
def DP_PLSF : Fld := { base := 0xa201721a, lo := 0, width := 1, n := 8, stride := 1 }
/-- R318. Pulse with the greatest peak current. -/
def DP_PKI : Fld := { base := 0xa2017222, lo := 0, width := 5, n := 8, stride := 1 }
/-- R318. Greatest peak current. -/
def DP_PKMAX : Fld := { base := 0xa201722a, lo := 0, width := 32, n := 8, stride := 1 }
/-- R320. Least peak current. -/
def DP_PKMIN : Fld := { base := 0xa2017232, lo := 0, width := 32, n := 8, stride := 1 }
/-- R310. Stator flux, alpha and beta, 2^(-32) mWb. -/
def DP_PSI : Fld := { base := 0xa201723a, lo := 0, width := 64, n := 8, stride := 2, m := 2, step := 1 }
/-- R312. Vector applied: legs U, V, W as bits 2, 1, 0. -/
def DP_LEG : Fld := { base := 0xa201724a, lo := 0, width := 3, n := 8, stride := 1 }
/-- R313. Conversions since a leg changed. -/
def DP_LEGN : Fld := { base := 0xa2017252, lo := 0, width := 16, n := 8, stride := 3, m := 3, step := 1 }
/-- R314. A readable instant has come since the last evaluation. -/
def DP_SMP : Fld := { base := 0xa201726a, lo := 0, width := 1, n := 8, stride := 1 }
/-- R314. Currents at the latest readable instant. -/
def DP_IS : Fld := { base := 0xa2017272, lo := 0, width := 16, n := 8, stride := 4, m := 4, step := 1 }
/-- R314. Currents of the last sample, measured or predicted. -/
def DP_I : Fld := { base := 0xa2017292, lo := 0, width := 16, n := 8, stride := 3, m := 3, step := 1 }
/-- R312. The last current sample was an Ellipsis. -/
def DP_ELLS : Fld := { base := 0xa20172aa, lo := 0, width := 1, n := 8, stride := 1 }
/-- R315. Consecutive measured samples. -/
def DP_MEAS : Fld := { base := 0xa20172b2, lo := 0, width := 5, n := 8, stride := 1 }
/-- R311. Torque comparator: 0, 1 for +1, 2 for -1. -/
def DP_CTQ : Fld := { base := 0xa20172ba, lo := 0, width := 2, n := 8, stride := 1 }
/-- R311. Flux comparator. -/
def DP_CFL : Fld := { base := 0xa20172c2, lo := 0, width := 1, n := 8, stride := 1 }
/-- R328. Consecutive conversions at DRV_OV_TRIP or above. -/
def DP_OVN : Fld := { base := 0xa20172ca, lo := 0, width := 2, n := 8, stride := 1 }
/-- R326. Conversions since CHOP rose. -/
def DP_CHN : Fld := { base := 0xa20172d2, lo := 0, width := 24, n := 8, stride := 1 }
/-- R326. VBUS when CHOP rose. -/
def DP_CHV : Fld := { base := 0xa20172da, lo := 0, width := 32, n := 8, stride := 1 }
/-- R326. CHS has been high since CHOP rose. -/
def DP_CHS : Fld := { base := 0xa20172e2, lo := 0, width := 1, n := 8, stride := 1 }
/-- R326. CHS at the last conversion. -/
def DP_CHSL : Fld := { base := 0xa20172ea, lo := 0, width := 1, n := 8, stride := 1 }
/-- R321. The hold current is in use. -/
def DP_HOLD : Fld := { base := 0xa20172f2, lo := 0, width := 1, n := 8, stride := 1 }
/-- R327. The speed falls in this period. -/
def DP_FALL : Fld := { base := 0xa20172fa, lo := 0, width := 1, n := 8, stride := 1 }
/-- R323. Encoder count when the stage was powered down. -/
def DP_ENC0 : Fld := { base := 0xa2017302, lo := 0, width := 32, n := 8, stride := 1 }
/-- R337. Configuration words that wait. -/
def DP_NEWW : Fld := { base := 0xa201730a, lo := 0, width := 32, n := 8, stride := 32, m := 32, step := 1 }
/-- R337. Which of them wait. -/
def DP_NEWM : Fld := { base := 0xa201740a, lo := 0, width := 32, n := 8, stride := 1 }
/-- R337. Pulse-train configuration words that wait. -/
def PT_NEWW : Fld := { base := 0xa2017412, lo := 0, width := 32, n := 16, stride := 3, m := 3, step := 1 }
/-- R337. They wait. -/
def PT_NEWP : Fld := { base := 0xa2017442, lo := 0, width := 1, n := 16, stride := 1 }
/-- R337. Encoder configuration that waits. -/
def ENC_NEWW : Fld := { base := 0xa2017452, lo := 0, width := 32, n := 8, stride := 1 }
/-- R337. It waits. -/
def ENC_NEWP : Fld := { base := 0xa201745a, lo := 0, width := 1, n := 8, stride := 1 }
/-- R309. A (bit 0) and B (bit 1) of an encoder channel. -/
def ENC_AB : Fld := { base := 0xa2017462, lo := 0, width := 2, n := 8, stride := 1 }
/-- R336. Calibration steps still to do. -/
def DP_CALF : Fld := { base := 0xa201746a, lo := 0, width := 3, n := 8, stride := 1 }
/-- R336. Steps selected. -/
def DP_CALT : Fld := { base := 0xa2017472, lo := 0, width := 2, n := 8, stride := 1 }
/-- R324. A stall has been declared at the step now due. -/
def DP_STNOW : Fld := { base := 0xa201747a, lo := 0, width := 1, n := 8, stride := 1 }
/-- R363. The field die runs. -/
def FIO_LIVE : Fld := { base := 0xa2017482, lo := 0, width := 1 }
/-- R363. It has had a valid refresh with configuration. -/
def FIO_CONFD : Fld := { base := 0xa2017483, lo := 0, width := 1 }
/-- R360. It is in silence. -/
def FIO_SILD : Fld := { base := 0xa2017484, lo := 0, width := 1 }
/-- R345. The latest tick. -/
def FIO_TT : Fld := { base := 0xa2017485, lo := 0, width := 64 }
/-- R345. Output commands in the refresh sent at the latest tick. -/
def FIO_CMDR : Fld := { base := 0xa2017486, lo := 0, width := 32 }
/-- R345. Output commands executed. -/
def FIO_CMDX : Fld := { base := 0xa2017487, lo := 0, width := 32 }
/-- R344. Switches on. -/
def FIO_SW : Fld := { base := 0xa2017488, lo := 0, width := 32 }
/-- R372. Switches on at the latest tick. -/
def FIO_ACTT : Fld := { base := 0xa2017489, lo := 0, width := 32 }
/-- R360. Commands at the start of silence. -/
def FIO_HOLD : Fld := { base := 0xa201748a, lo := 0, width := 32 }
/-- R358. Test pulses in progress. -/
def FIO_TPX : Fld := { base := 0xa201748b, lo := 0, width := 32 }
/-- R367. Test pulses whose readback is discarded. -/
def FIO_TPD : Fld := { base := 0xa201748c, lo := 0, width := 32 }
/-- R356. Switches that have not cooled. -/
def FIO_HOT : Fld := { base := 0xa201748d, lo := 0, width := 32 }
/-- R349. Filter outputs. -/
def FIO_OUTF : Fld := { base := 0xa201748e, lo := 0, width := 32 }
/-- R366. Ticks an input's filter has run from 0. -/
def FIO_RUN : Fld := { base := 0xa201748f, lo := 0, width := 16, n := 32, stride := 1 }
/-- R351. Readbacks, filtered over three ticks. -/
def FIO_RB : Fld := { base := 0xa20174af, lo := 0, width := 32 }
/-- R351. Consecutive ticks in which the readback differs from FIO_RB. -/
def FIO_RBN : Fld := { base := 0xa20174b0, lo := 0, width := 2, n := 32, stride := 1 }
/-- R357. Consecutive ticks with a high readback. -/
def FIO_RBH : Fld := { base := 0xa20174d0, lo := 0, width := 2, n := 32, stride := 1 }
/-- R357. Consecutive ticks with a low readback. -/
def FIO_RBL : Fld := { base := 0xa20174f0, lo := 0, width := 2, n := 32, stride := 1 }
/-- R357. When the output last changed. -/
def FIO_CHG : Fld := { base := 0xa2017510, lo := 0, width := 64, n := 32, stride := 1 }
/-- R352. Consecutive ticks below 0.2 mA. -/
def FIO_WBL : Fld := { base := 0xa2017530, lo := 0, width := 12, n := 32, stride := 1 }
/-- R352. Consecutive ticks at or above 0.35 mA. -/
def FIO_WBH : Fld := { base := 0xa2017550, lo := 0, width := 12, n := 32, stride := 1 }
/-- R364. Consecutive samples below 18.0 V. -/
def FIO_GL : Fld := { base := 0xa2017570, lo := 0, width := 7, n := 4, stride := 1 }
/-- R364. Consecutive samples at or above 18.0 V. -/
def FIO_GH : Fld := { base := 0xa2017574, lo := 0, width := 7, n := 4, stride := 1 }
/-- R364. Consecutive samples below 15.0 V. -/
def FIO_UVL : Fld := { base := 0xa2017578, lo := 0, width := 2, n := 4, stride := 1 }
/-- R364. Consecutive samples above 18.5 V. -/
def FIO_REC : Fld := { base := 0xa201757c, lo := 0, width := 12, n := 4, stride := 1 }
/-- R356. Consecutive ticks with the group's total above 3.3 A. -/
def FIO_OCC : Fld := { base := 0xa2017580, lo := 0, width := 12, n := 4, stride := 1 }
/-- R362. Consecutive ticks with no valid return. -/
def FIO_MISS : Fld := { base := 0xa2017584, lo := 0, width := 2 }
/-- R451. Comparator in service of a field input. -/
def FIO_CMPS : Fld := { base := 0xa2017805, lo := 0, width := 1, n := 32, stride := 1 }
/-- R458. Ticks an output's readback still reads high by injection. -/
def INJ_RBT : Fld := { base := 0xa2017825, lo := 0, width := 32, n := 32, stride := 1 }
/-- R458. Injected VFG, 10 mV. -/
def INJ_VFG : Fld := { base := 0xa2017845, lo := 0, width := 16, n := 4, stride := 1 }
/-- R458. Ticks it still applies. -/
def INJ_VFT : Fld := { base := 0xa2017849, lo := 0, width := 32, n := 4, stride := 1 }
/-- R458. Ticks an input's current still reads 0.1 mA by injection. -/
def INJ_WBT : Fld := { base := 0xa201784d, lo := 0, width := 32, n := 32, stride := 1 }
/-- R458. Time until which refreshes are withheld by injection. -/
def INJ_REFT : Fld := { base := 0xa201786d, lo := 0, width := 64 }
/-- R458. Refreshes still to be corrupted. -/
def INJ_REFN : Fld := { base := 0xa201786e, lo := 0, width := 32 }
/-- R458. The channel's next trim fails. -/
def INJ_TRIM : Fld := { base := 0xa201786f, lo := 0, width := 1, n := 32, stride := 1 }
/-- R458. 0.1 V added to VBUS by injection. -/
def INJ_OVA : Fld := { base := 0xa201788f, lo := 0, width := 32, n := 8, stride := 1 }
/-- R458. Conversions it still applies. -/
def INJ_OVN : Fld := { base := 0xa2017897, lo := 0, width := 32, n := 8, stride := 1 }
/-- R458. Conversions CHS is still masked. -/
def INJ_CHS : Fld := { base := 0xa201789f, lo := 0, width := 32, n := 8, stride := 1 }
/-- R458. Current samples still unreadable by injection. -/
def INJ_ELL : Fld := { base := 0xa20178a7, lo := 0, width := 32, n := 8, stride := 1 }
/-- R395. Switch commands of a safe output from SC: high-side (bit 0), low-side (bit 1). -/
def SO_CMD : Fld := { base := 0xa20178af, lo := 0, width := 2, n := 4, stride := 1 }
/-- R395. Switch commands in the refresh sent at the latest tick. -/
def SO_SENT : Fld := { base := 0xa20178b3, lo := 0, width := 2, n := 4, stride := 1 }
/-- R379. The field die has found a refresh whose safe part failed. -/
def SO_LOSS : Fld := { base := 0xa20178b7, lo := 0, width := 1 }
/-- R350. Fraction of the timestamp of the last accepted debounce edge. -/
def FIO_EDGEF : Fld := { base := 0xa20178b8, lo := 0, width := 16, n := 8, stride := 1 }
/-- R379. The safe part of the latest return passed its check. -/
def SAF_RET : Fld := { base := 0xa20178c0, lo := 0, width := 1 }
/-- R412. A safety set has been committed. -/
def SAF_CONF : Fld := { base := 0xa20178c1, lo := 0, width := 1 }
/-- R378. The watchdog of the safety core has expired. -/
def SAF_WDD : Fld := { base := 0xa20178c2, lo := 0, width := 1 }
/-- R381. Stop groups that wait for a safety reset. -/
def SAF_WAIT : Fld := { base := 0xa20178c3, lo := 0, width := 16, reset := 0xffff }
/-- R383. 1 + time of the sample that found a stop group's own demand; 0 none. -/
def SAF_OWN : Fld := { base := 0xa20178c4, lo := 0, width := 65, n := 16, stride := 1 }
/-- R383. Stop groups whose SS1-t time has expired. -/
def SAF_SS1X : Fld := { base := 0xa20178d4, lo := 0, width := 16 }
/-- R377. Stop groups that leave demand when both paths have ended. -/
def SAF_REL : Fld := { base := 0xa20178d5, lo := 0, width := 16 }
/-- R377. Pairs that leave demand when both paths have ended. -/
def SAF_PREL : Fld := { base := 0xa20178d6, lo := 0, width := 4 }
/-- R385. Stop groups with SLS active. -/
def SAF_SLS : Fld := { base := 0xa20178d7, lo := 0, width := 16 }
/-- R405. RST of the produced containers. -/
def SAF_RST : Fld := { base := 0xa20178d8, lo := 0, width := 1 }
/-- R409. A committed set takes effect at the next safe sample. -/
def SAF_NEWP : Fld := { base := 0xa20178d9, lo := 0, width := 1 }
/-- R387. Time at which STO of Full Stop is due. -/
def FS_DUE : Fld := { base := 0xa20178da, lo := 0, width := 64 }
/-- R387. STO of Full Stop is in force. -/
def FS_STO : Fld := { base := 0xa20178db, lo := 0, width := 1 }
/-- R389. Causes of Full Stop that last, as SAF_STATUS.FS_CAUSE numbers them. -/
def FS_HOLD : Fld := { base := 0xa20178dc, lo := 0, width := 6 }
/-- R485. FSTOP_N went low while SAFE was in reset. -/
def FS_LOW : Fld := { base := 0xa20178dd, lo := 0, width := 1 }
/-- R387. The SS1-t time of Full Stop has expired. -/
def FS_X : Fld := { base := 0xa20178de, lo := 0, width := 1 }
/-- R389. A release window is open. -/
def REL_ON : Fld := { base := 0xa20178df, lo := 0, width := 1 }
/-- R396. A safe output is decided on. -/
def SO_WANT : Fld := { base := 0xa20178e0, lo := 0, width := 1, n := 4, stride := 1 }
/-- R396. A safe output is commanded on. -/
def SO_LIVE : Fld := { base := 0xa20178e4, lo := 0, width := 1, n := 4, stride := 1 }
/-- R397. A safe output is in its pulse slot. -/
def SO_SLOT : Fld := { base := 0xa20178e8, lo := 0, width := 1, n := 4, stride := 1 }
/-- R397. A test pulse opens the output's high-side switch. -/
def SO_TP : Fld := { base := 0xa20178ec, lo := 0, width := 1, n := 4, stride := 1 }
/-- R397. A test pulse of this slot waits for its readback. -/
def SO_TPD : Fld := { base := 0xa20178f0, lo := 0, width := 1, n := 4, stride := 1 }
/-- R398. An off demand came during the test pulse. -/
def SO_CUT : Fld := { base := 0xa20178f4, lo := 0, width := 1, n := 4, stride := 1 }
/-- R399. Proof step in progress, 0 none. -/
def SO_PRF : Fld := { base := 0xa20178f8, lo := 0, width := 3, n := 4, stride := 1 }
/-- R408. The proof was asked for while the output was in demand. -/
def SO_BLK : Fld := { base := 0xa20178fc, lo := 0, width := 1, n := 4, stride := 1 }
/-- R458. Channel A of a pair as the last sample found it. -/
def SAF_PA : Fld := { base := 0xa2017900, lo := 0, width := 1, n := 4, stride := 1 }
/-- R458. Channel B of a pair as the last sample found it. -/
def SAF_PB : Fld := { base := 0xa2017904, lo := 0, width := 1, n := 4, stride := 1 }
/-- R458. An SC fault is injected at the next sample: 1 + instance. -/
def INJ_SC : Fld := { base := 0xa2017908, lo := 0, width := 2 }
/-- R458. The next service of the watchdog is withheld. -/
def INJ_WD : Fld := { base := 0xa2017909, lo := 0, width := 1 }
/-- R458. Injection into a safe output: 1 TP_HIGH, 2 CROSS, 3 proof. -/
def INJ_SO : Fld := { base := 0xa201790a, lo := 0, width := 2, n := 4, stride := 1 }
/-- R458. Proof step of that injection. -/
def INJ_SOS : Fld := { base := 0xa201790e, lo := 0, width := 3, n := 4, stride := 1 }
/-- R458. Ms for which channel B of a pair is held after A changes; 0 none. -/
def INJ_PMS : Fld := { base := 0xa2017912, lo := 0, width := 32, n := 4, stride := 1 }
/-- R458. Time until which channel B is held. -/
def INJ_PT : Fld := { base := 0xa2017916, lo := 0, width := 64, n := 4, stride := 1 }
/-- R458. Kind of injection into a connection's next container. -/
def INJ_CN : Fld := { base := 0xa201791a, lo := 0, width := 3, n := 64, stride := 1 }
/-- R458. Time until which a connection's containers are withheld. -/
def INJ_CNT : Fld := { base := 0xa201795a, lo := 0, width := 64, n := 64, stride := 1 }
/-- R405. 1 + base CNUM of a connection in START; 0 none. -/
def CN_BASE : Fld := { base := 0xa201799a, lo := 0, width := 17, n := 64, stride := 1 }
/-- R403. SDATA of a produced connection from the latest evaluation. -/
def CN_SD : Fld := { base := 0xa20179da, lo := 0, width := 64, n := 64, stride := 1 }
/-- R421. The mailbox holds a journaled request of the active unit. -/
def MB_JRN : Fld := { base := 0xa2017a1a, lo := 0, width := 1, n := 32, stride := 1 }
/-- R421. Boundary of acceptance of that request. -/
def MB_ACC : Fld := { base := 0xa2017a3a, lo := 0, width := 64, n := 32, stride := 1 }
/-- R428. Role of the partner as this unit knows it. -/
def CNJ_PROLE : Fld := { base := 0xa2017a5a, lo := 0, width := 3 }
/-- R430. A switch-over is due, with its cause; 0 none. -/
def CNJ_SWP : Fld := { base := 0xa2017a5b, lo := 0, width := 3 }
/-- R428. Verdicts are awaited. -/
def CNJ_DW : Fld := { base := 0xa2017a5c, lo := 0, width := 1 }
/-- R425. First frame whose digest takes the axis in again. -/
def CNJ_XU : Fld := { base := 0xa2017a5d, lo := 0, width := 64, n := 256, stride := 1 }
/-- R436. Consecutive matching digests in confirmation. -/
def CNJ_MATCH : Fld := { base := 0xa2017b5d, lo := 0, width := 7 }
/-- R439. Agreed boundary of a handover, plus 1; 0 none. -/
def CNJ_HO : Fld := { base := 0xa2017b5e, lo := 0, width := 64 }
/-- R439. Cause of the agreed handover. -/
def CNJ_HOC : Fld := { base := 0xa2017b5f, lo := 0, width := 3 }
/-- R433. An expected cycle frame has not arrived in time. -/
def CNJ_EFM : Fld := { base := 0xa2017b60, lo := 0, width := 1 }
/-- R433. Conjunction is lost and isolation is due at the next boundary. -/
def CNJ_ISO : Fld := { base := 0xa2017b61, lo := 0, width := 1 }
/-- R434. A frame of a higher epoch was received; heading ends at the next boundary. -/
def CNJ_CEASE : Fld := { base := 0xa2017b62, lo := 0, width := 1 }
/-- R458. 1 + cycle whose own digest is inverted in one bit; 0 none. -/
def INJ_DIG : Fld := { base := 0xa2017b63, lo := 0, width := 65 }
/-- R458. Steps of the next self-diagnosis that fail (bit k: step k). -/
def INJ_DIAG : Fld := { base := 0xa2017b64, lo := 0, width := 6 }
/-- R472. What holds the module in reset or off: supervisor (bit 0), RST_N (1), no VIN (2), Hibernate (3). -/
def PWR_HOLD : Fld := { base := 0xa2017b65, lo := 0, width := 4 }
/-- R438. The last module reset was the partner's reset command. -/
def RST_CJ : Fld := { base := 0xa2017b66, lo := 0, width := 1 }
/-- R295. Firmware slots that hold an image that passed its check. -/
def FW_GOOD : Fld := { base := 0xa2017b67, lo := 0, width := 2, reset := 0x1 }
/-- R295. Key slot of the image in a firmware slot. -/
def FW_KEY : Fld := { base := 0xa2017b68, lo := 0, width := 2, n := 2, stride := 1 }
/-- R282. Active firmware slot of the boot record. -/
def FW_ACT : Fld := { base := 0xa2017b6a, lo := 0, width := 1 }
/-- R295. Trial flag of the boot record: 1 the active slot is to boot on trial, 2 it boots, 3 it was abandoned. -/
def FW_TRL : Fld := { base := 0xa2017b6b, lo := 0, width := 2 }
/-- R295. Firmware update: 0 none, 1 receiving, 2 checked and written. -/
def FW_PH : Fld := { base := 0xa2017b6c, lo := 0, width := 2 }
/-- R295. Declared length of the image. -/
def FW_LEN : Fld := { base := 0xa2017b6d, lo := 0, width := 23 }
/-- R295. Bytes received. -/
def FW_GOT : Fld := { base := 0xa2017b6e, lo := 0, width := 23 }
/-- R295. Key slot of the received image. -/
def FW_RK : Fld := { base := 0xa2017b6f, lo := 0, width := 2 }
/-- R291. Commit: 0 none, 1 waits for the boundary, 2 snapshot taken. -/
def CMT : Fld := { base := 0xa2017b70, lo := 0, width := 2 }
/-- R291. A configuration write has landed since the snapshot. -/
def CMT_D : Fld := { base := 0xa2017b71, lo := 0, width := 1 }
/-- R291. BOOT_MODE of the commit. -/
def CMT_BM : Fld := { base := 0xa2017b72, lo := 0, width := 4 }
/-- R291. The commit includes the learning tables. -/
def CMT_LFF : Fld := { base := 0xa2017b73, lo := 0, width := 1 }
/-- R292. A commit was lost before its record. -/
def CMT_TORN : Fld := { base := 0xa2017b74, lo := 0, width := 1 }
/-- R291. Sequence number used last. -/
def IMG_SEQ : Fld := { base := 0xa2017b75, lo := 0, width := 32 }
/-- R458. 1 + page of the newest image that fails its CRC at its next read; 0 none. -/
def INJ_PG : Fld := { base := 0xa2017b76, lo := 0, width := 33 }
/-- R296. Hash of the safety password in the safety store. -/
def SS_HASH : Fld := { base := 0xa2017b77, lo := 0, width := 256 }
/-- R296. Its salt. -/
def SS_SALT : Fld := { base := 0xa2017b78, lo := 0, width := 128 }
/-- R296. Reason code of the safety session. -/
def SS_REASON : Fld := { base := 0xa2017b79, lo := 0, width := 16 }
/-- R296. End of the login lockout. -/
def SS_LKT : Fld := { base := 0xa2017b7a, lo := 0, width := 64 }
/-- R297. Hash that a PASSWORD_SET is writing. -/
def SS_NEWH : Fld := { base := 0xa2017b7b, lo := 0, width := 256, n := 32, stride := 1 }
/-- R297. Its salt. -/
def SS_NEWS : Fld := { base := 0xa2017b9b, lo := 0, width := 128, n := 32, stride := 1 }
/-- R267. The channel's pages outlived a firmware restart. -/
def SW_ORPH : Fld := { base := 0xa2017bbb, lo := 0, width := 1, n := 32, stride := 1 }
/-- R478. Fused key hashes. -/
def KEY_HASH : Fld := { base := 0xa2017bdb, lo := 0, width := 256, n := 4, stride := 1 }
/-- R480. The device key is present. -/
def DEV_OK : Fld := { base := 0xa2017bdf, lo := 0, width := 1, reset := 0x1 }
/-- R481. Instruction of the TAP: 0 IDCODE, 1 BYPASS, 2 SAMPLE/PRELOAD, 3 EXTEST, 4 CLAMP, 5 HIGHZ, 6 DBG_CHAL, 7 DBG_TOKEN, 8 DBG_ACCESS. -/
def TAP_IR : Fld := { base := 0xa2017be0, lo := 0, width := 4 }
/-- R484. MC0 and MC1 are halted. -/
def MC_HALT : Fld := { base := 0xa2017be1, lo := 0, width := 1 }
/-- R484. SC is halted. -/
def SC_HALT : Fld := { base := 0xa2017be2, lo := 0, width := 1 }
/-- R484. Waits for STO: halt of MC0/MC1 (bit 16), of SC (17), a pin instruction (18). -/
def DBG_WANT : Fld := { base := 0xa2017be3, lo := 0, width := 19 }
/-- R478. Full debug waits for STO after a Service token. -/
def DBG_SP : Fld := { base := 0xa2017be4, lo := 0, width := 1 }
/-- R481. Pin instruction in force or waiting: 1 EXTEST, 2 CLAMP, 3 HIGHZ. -/
def DBG_INS : Fld := { base := 0xa2017be5, lo := 0, width := 2 }
/-- R479. A Service token is verified and takes effect at the next boundary. -/
def SVC_P : Fld := { base := 0xa2017be6, lo := 0, width := 1 }
/-- R481. Boundary chain as sampled last. -/
def PINS : Fld := { base := 0xa2017be7, lo := 0, width := 64 }
/-- R466. Standby: 0 no change, 1 entry waits for the next boundary, 2 releases have stopped and instances still run, 3 exit waits for the engines. -/
def PWR_STBY : Fld := { base := 0xa2017be8, lo := 0, width := 2 }
/-- R454. Clock losses that last, as INJ detector 0x0A numbers them. -/
def CLK_LOST : Fld := { base := 0xa2017be9, lo := 0, width := 6 }
/-- R458. Time until which a clock loss is shown by injection; 0 none. -/
def CLK_INJ : Fld := { base := 0xa2017bea, lo := 0, width := 64, n := 6, stride := 1 }
/-- R458. Degrees Celsius added to a sensor by injection. -/
def INJ_TT : Fld := { base := 0xa2017bf0, lo := 0, width := 32, n := 6, stride := 1 }
/-- R458. Time until which they are. -/
def INJ_TU : Fld := { base := 0xa2017bf6, lo := 0, width := 64, n := 6, stride := 1 }
/-- R458. MV added to a rail by injection. -/
def INJ_RT : Fld := { base := 0xa2017bfc, lo := 0, width := 32, n := 6, stride := 1 }
/-- R458. Time until which they are. -/
def INJ_RU : Fld := { base := 0xa2017c02, lo := 0, width := 64, n := 6, stride := 1 }
/-- R458. Eye margins of a lane by injection, mUI. -/
def INJ_EH : Fld := { base := 0xa2017c08, lo := 0, width := 32, n := 10, stride := 1 }
/-- R458. And mV. -/
def INJ_EV : Fld := { base := 0xa2017c12, lo := 0, width := 32, n := 10, stride := 1 }
/-- R458. Time until which they are. -/
def INJ_EU : Fld := { base := 0xa2017c1c, lo := 0, width := 64, n := 10, stride := 1 }
/-- R458. LSB added to the next reference conversion of a converter channel (bit 32: armed). -/
def INJ_CAL : Fld := { base := 0xa2017c26, lo := 0, width := 33, n := 48, stride := 1 }
/-- R458. Time until which an array's scrubber is suspended. -/
def INJ_SCU : Fld := { base := 0xa2017c56, lo := 0, width := 64, n := 10, stride := 1 }
/-- R458. Time until which GFLT of a port is asserted by injection. -/
def INJ_GFU : Fld := { base := 0xa2017c60, lo := 0, width := 64, n := 8, stride := 1 }
/-- R458. Frames of a port whose FCS is still to be inverted. -/
def INJ_FCS : Fld := { base := 0xa2017c68, lo := 0, width := 32, n := 4, stride := 1 }
/-- R452. Temperature warnings in force. -/
def TEL_WT : Fld := { base := 0xa2017c6c, lo := 0, width := 6 }
/-- R452. Rail warnings in force. -/
def TEL_WR : Fld := { base := 0xa2017c6d, lo := 0, width := 6 }
/-- R452. Eye margin warnings in force. -/
def TEL_WE : Fld := { base := 0xa2017c6e, lo := 0, width := 10 }
/-- R453. A sensor has been critical, and one has not read below TWARN since. -/
def TEL_CRIT : Fld := { base := 0xa2017c6f, lo := 0, width := 1 }
/-- R447. Start of a scrubber's pass. -/
def SCR_T0 : Fld := { base := 0xa2017c70, lo := 0, width := 64, n := 10, stride := 1 }
/-- R447. Bit 0: LATE has been reported in this pass. -/
def SCR_RP : Fld := { base := 0xa2017c7a, lo := 0, width := 5, n := 10, stride := 1 }
/-- R448. The next feedback half of a slot is delivered with V at 0, at ring × 256 + slot. -/
def FB_BAD : Fld := { base := 0xa2017c84, lo := 0, width := 1, n := 512, stride := 1 }
/-- R448. The next command half of a slot is sent stale, at ring × 256 + slot. -/
def CM_BAD : Fld := { base := 0xa2017e84, lo := 0, width := 1, n := 512, stride := 1 }
/-- R429. 1 + time of the last quarantine of an engine; 0 none. -/
def QUAR_T : Fld := { base := 0xa2018084, lo := 0, width := 65 }
/-- R429. An own fault has been found (a second engine quarantined within 1 s, a word lost) and acts at the next boundary. -/
def QUAR_2 : Fld := { base := 0xa2018085, lo := 0, width := 1 }
/-- R448. The next sample with the loop closed reseeds as enabling does. -/
def AX_RESEED : Fld := { base := 0xa2018086, lo := 0, width := 1, n := 256, stride := 1 }
/-- R450. Offset correction of a converter channel, LSB. -/
def CV_OFS : Fld := { base := 0xa2018186, lo := 0, width := 16, n := 48, stride := 1 }
/-- R450. Gain correction of a converter channel, ppm. -/
def CV_GAIN : Fld := { base := 0xa20181b6, lo := 0, width := 16, n := 48, stride := 1 }
/-- R155. Cycle of a group sample that has failed, plus 2^64, at the cycle modulo 16. -/
def GRP_FAILC : Fld := { base := 0xa20187e6, lo := 0, width := 65, n := 32, stride := 16, m := 16, step := 1 }
/-- R135. The engine is quarantined. -/
def ENG_QR : Fld := { base := 0xa20189e6, lo := 0, width := 1, n := 16, stride := 1 }
/-- R77, R265. The place of the mailbox's request in the order of the doorbells. -/
def MB_SEQ : Fld := { base := 0xa20189f6, lo := 0, width := 64, n := 32, stride := 1 }
/-- R77, R265. Doorbells taken. -/
def DB_SEQ : Fld := { base := 0xa2018a16, lo := 0, width := 64 }
/-- R91. Learning table of the repetition being recorded, plus one. -/
def LRN_RT : Fld := { base := 0xa2018a17, lo := 0, width := 7, n := 256, stride := 1 }
/-- R91. Its start boundary. -/
def LRN_RT0 : Fld := { base := 0xa2018b17, lo := 0, width := 64, n := 256, stride := 1 }
/-- R91. Its duration, ns. -/
def LRN_RD : Fld := { base := 0xa2018c17, lo := 0, width := 64, n := 256, stride := 1 }
/-- R91. The repetition in force is to be recorded once the one being recorded has ended. -/
def LRN_NR : Fld := { base := 0xa2018d17, lo := 0, width := 1, n := 256, stride := 1 }
/-- R188. Homing to the current position takes its reference in the sample of T_s. -/
def HM_M0 : Fld := { base := 0xa2018e17, lo := 0, width := 1, n := 256, stride := 1 }
/-- R194. Levels of the TRG pins that compare units drive. -/
def TRG_LVL : Fld := { base := 0xa2018f17, lo := 0, width := 16 }
/-- R239, R241. Measurements of the start that have returned: bit 0 the forward probe, bit 1 the reverse one, bits 2 and 3 the link delays of the two ports. -/
def MEAS : Fld := { base := 0xa2018f1a, lo := 0, width := 4, n := 2, stride := 1 }
/-- R239. Measurements of the start that have begun. -/
def MEAS_N : Fld := { base := 0xa2018f1c, lo := 0, width := 2, n := 2, stride := 1 }
/-- R239. Probes on their way: bit 0 forward, bit 1 reverse. -/
def PRB_OUT : Fld := { base := 0xa2018f1e, lo := 0, width := 2, n := 2, stride := 1 }
/-- R239. REQ_ID of the peer-delay request on its way (bit 16: there is one). -/
def PD_ID : Fld := { base := 0xa2018f20, lo := 0, width := 17, n := 4, stride := 1 }
/-- R239. REQ_ID of the next peer-delay request. -/
def PD_NEXT : Fld := { base := 0xa2018f24, lo := 0, width := 16 }
/-- R239. D of a forwarding element: path delay from the launch port, ps, forward and reverse. -/
def NRT_D : Fld := { base := 0xa2018f25, lo := 0, width := 64, n := 2, stride := 2, m := 2, step := 1 }
/-- R241. Start of the wait for link, ns. -/
def LINK_T : Fld := { base := 0xa2018f29, lo := 0, width := 64, n := 2, stride := 1 }
/-- R243. Cycle of the latest IDENTIFY to a node. -/
def NODE_IDT : Fld := { base := 0xa2018f2b, lo := 0, width := 64, n := 8192, stride := 1 }
/-- R234. TID of the latest message from the head. -/
def ACYC_TID : Fld := { base := 0xa201af2b, lo := 0, width := 8, n := 2, stride := 1 }
/-- R207. Length of the frame last forwarded through a port, from its destination address to its FCS. -/
def FWD_LEN : Fld := { base := 0xa201b02d, lo := 0, width := 14, n := 4, stride := 1 }
/-- R237. Consecutive cycles with the offset within 20 ns. -/
def DC_GOOD : Fld := { base := 0xa201b031, lo := 0, width := 5 }
/-- R238. REF_TIME of the last returning frame (bit 64: there is one). -/
def DC_REFT : Fld := { base := 0xa201b032, lo := 0, width := 65 }
/-- R238. Its cycle number. -/
def DC_REFN : Fld := { base := 0xa201b033, lo := 0, width := 64 }
/-- R238. Consecutive returning frames whose REF_TIME has not advanced. -/
def DC_STUCK : Fld := { base := 0xa201b034, lo := 0, width := 5 }
/-- R238. Cycles in holdover. -/
def DC_HOLDN : Fld := { base := 0xa201b035, lo := 0, width := 7 }
/-- R238. Starting phase taken from the backup reference, ps, signed. -/
def DC_PHASE : Fld := { base := 0xa201b036, lo := 0, width := 64 }
/-- R238. The next valid offset is the starting phase. -/
def DC_NEWREF : Fld := { base := 0xa201b037, lo := 0, width := 1 }
/-- The SHIFT of a tracked section when its tracking began, plus 8 (R80); 0 before. -/
def TRK_SH : Fld := { base := 0xa201b038, lo := 0, width := 4, n := 256, stride := 2, m := 2, step := 1 }
/-- When the field die executed its last valid refresh (R360). -/
def FIO_VT : Fld := { base := 0xa201b238, lo := 0, width := 64 }
/-- The tick at which the test pulse of an output began (R358). -/
def FIO_TPT : Fld := { base := 0xa201b239, lo := 0, width := 64, n := 32, stride := 1 }
/-- When the session last had a safety request (R296). -/
def SS_T : Fld := { base := 0xa201b259, lo := 0, width := 64 }
/-- Consecutive cycles without V at 1 in the feedback half of a slot, at 256·ring + slot, saturating (R243). -/
def SLOT_V0 : Fld := { base := 0xa201b25a, lo := 0, width := 7, n := 512, stride := 1 }
/-- R321, R334. Time of the last step of a two-phase port, in 2^(−16) ns. -/
def DP_NS : Fld := { base := 0xa201b45a, lo := 0, width := 80, n := 8, stride := 1 }
/-- R334. Time of the last step of a pulse-train port, in 2^(−16) ns. -/
def PT_NS : Fld := { base := 0xa201b462, lo := 0, width := 80, n := 16, stride := 1 }
/-- R335. When DIR of a pulse-train port changes for the next step, in 2^(−16) ns. -/
def PT_DT : Fld := { base := 0xa201b472, lo := 0, width := 80, n := 16, stride := 1 }
/-- R307. Evaluations, or PWM valleys, of a port in this base period. -/
def DP_EVK : Fld := { base := 0xa201b482, lo := 0, width := 6, n := 8, stride := 1 }
/-- R316. Conversions taken into an offset average. -/
def DP_CALN : Fld := { base := 0xa201b48a, lo := 0, width := 11, n := 8, stride := 1 }
/-- R316. Sums of an offset average. -/
def DP_CALS : Fld := { base := 0xa201b492, lo := 0, width := 32, n := 8, stride := 4, m := 4, step := 1 }
/-- R336. When the calibration step in progress began. -/
def DP_CALT0 : Fld := { base := 0xa201b4b2, lo := 0, width := 64, n := 8, stride := 1 }
/-- R377. The sample whose path 1 has ended last, plus one. -/
def SAF_J : Fld := { base := 0xa201b4ba, lo := 0, width := 65 }
/-- R389. When the release window began. -/
def REL_T : Fld := { base := 0xa201b4bb, lo := 0, width := 64 }
/-- R389. Since when FSTOP_N has not been seen low within the release window. -/
def REL_L : Fld := { base := 0xa201b4bc, lo := 0, width := 64 }
/-- R404. When a connection accepted its last container. -/
def CN_T : Fld := { base := 0xa201b4bd, lo := 0, width := 64, n := 64, stride := 1 }
/-- R397. Tick at which the slot of a safe output began. -/
def SO_SLT : Fld := { base := 0xa201b4fd, lo := 0, width := 64, n := 4, stride := 1 }
/-- R399. When the proof step in progress began. -/
def SO_PRT : Fld := { base := 0xa201b501, lo := 0, width := 64, n := 4, stride := 1 }
/-- R423. The stop-group demand word of the partner at the latest safe sample. -/
def SAF_PDEM : Fld := { base := 0xa201b505, lo := 0, width := 16 }
/-- R426. The copy of a one-sided axis has not landed yet. -/
def CNJ_CPY : Fld := { base := 0xa201b506, lo := 0, width := 1, n := 256, stride := 1 }
/-- R439. Consecutive cycles of standstill. -/
def CNJ_STL : Fld := { base := 0xa201b606, lo := 0, width := 6 }
/-- R428. When the verdicts began to be awaited. -/
def CNJ_DWT : Fld := { base := 0xa201b607, lo := 0, width := 64 }
/-- R448. Until when the firmware rewrites a configuration word of an axis record. -/
def REC_RWT : Fld := { base := 0xa201b608, lo := 0, width := 64, n := 256, stride := 1 }
/-- R448. Until when the firmware rewrites a descriptor. -/
def DESC_RWT : Fld := { base := 0xa201b708, lo := 0, width := 64, n := 1024, stride := 1 }
/-- R450. Conversions since the last one that VBUS and ANA channels gave to their references. -/
def CV_REFN : Fld := { base := 0xa201bb08, lo := 0, width := 13 }
/-- R458. The FCS of the frame last launched on a ring is inverted. -/
def WIRE_INV : Fld := { base := 0xa201bb09, lo := 0, width := 1, n := 2, stride := 1 }
/-- When the axis began enabling or stopping, ns (R44, R46). -/
def AX_T0 : Fld := { base := 0xa201bb0b, lo := 0, width := 64, n := 256, stride := 1 }
/-- When the hold or the brake delay of the stop in progress began to count, ns (R45). -/
def AX_HT : Fld := { base := 0xa201bc0b, lo := 0, width := 64, n := 256, stride := 1 }
/-- R135. A self-test of an engine that a halt has put off, or that is in progress while the engine is halted. -/
def ENG_TST : Fld := { base := 0xa201bd0b, lo := 0, width := 1, n := 16, stride := 1 }
/-- R110. The first 24 inbox bytes of the samples of an axis, six words for each of the latest 64 cycles. -/
def AX_PKT : Fld := { base := 0xa201bd1b, lo := 0, width := 32, n := 256, stride := 384, m := 384, step := 1 }
/-- R263. The handle of the operation that took the channel. -/
def SW_HDL : Fld := { base := 0xa2033d1b, lo := 0, width := 16, n := 32, stride := 1 }
/-- R191. Travel of the phase in progress before its reversal. -/
def HM_TRV : Fld := { base := 0xa2033d3b, lo := 0, width := 64, n := 256, stride := 1 }
/-- R189. The boundary at which the home input was accepted. -/
def HM_REFT : Fld := { base := 0xa2033e3b, lo := 0, width := 64, n := 256, stride := 1 }
/-- R55. The enabling timeout that the enabling in progress started with. -/
def SEQ_EN : Fld := { base := 0xa2033f3b, lo := 0, width := 16, n := 256, stride := 1 }
/-- R55. The hold time that the stop in progress started with. -/
def SEQ_HOLD : Fld := { base := 0xa203403b, lo := 0, width := 16, n := 256, stride := 1 }
/-- R55. The brake engage delay that the stop or reaction in progress started with. -/
def SEQ_BRK : Fld := { base := 0xa203413b, lo := 0, width := 16, n := 256, stride := 1 }
/-- R55. The stop timeout that the stop in progress started with. -/
def SEQ_STO : Fld := { base := 0xa203423b, lo := 0, width := 16, n := 256, stride := 1 }
/-- R330. The GFLT input is low. -/
def GFLT_L : Fld := { base := 0xa203433b, lo := 0, width := 1, n := 8, stride := 1 }
/-- R288. The mode that is being or has been staged, plus 1; 0 none. -/
def MSW_B : Fld := { base := 0xa2034343, lo := 0, width := 4 }
/-- R240. R of the latest forward measurement, ps. -/
def NRT_ACC : Fld := { base := 0xa2034344, lo := 0, width := 64, n := 2, stride := 1 }
/-- R232, R243. The cycle of the latest frame that has come back, plus 2^64; 0 none. -/
def RET_CYC : Fld := { base := 0xa2034346, lo := 0, width := 65, n := 2, stride := 1 }
/-- R244. In split mode, the cycle of the frame and of the copy that came back last with RET at 0, plus 2^64; 0 none. -/
def SPL_CYC : Fld := { base := 0xa2034348, lo := 0, width := 65, n := 2, stride := 2, m := 2, step := 1 }
/-- R245. The frame whose half of the frame and of the copy has landed last in split mode, plus 2^64; 0 none. -/
def LAND_L : Fld := { base := 0xa203434c, lo := 0, width := 65, n := 512, stride := 2, m := 2, step := 1 }
/-- R241. The cycle of the first cycle frame of a ring. -/
def RING_N0 : Fld := { base := 0xa203474c, lo := 0, width := 64, n := 2, stride := 1 }
/-- R246. An opening or closing of the bypass has been commanded and is not complete. -/
def BYP_CMD : Fld := { base := 0xa203474e, lo := 0, width := 1, n := 2, stride := 1 }
/-- R252. BAR0 of the PCIe endpoint. -/
def PCI_BAR0 : Fld := { base := 0xa2034750, lo := 0, width := 32 }
/-- R252. BAR2 and BAR3 of the PCIe endpoint. -/
def PCI_BAR2 : Fld := { base := 0xa2034751, lo := 0, width := 64 }
/-- R252. The error status of advanced error reporting: uncorrectable, correctable. -/
def PCI_AER : Fld := { base := 0xa2034752, lo := 0, width := 32, n := 2, stride := 1 }
/-- R13. MGMT has been reset and no valid return has come since: the registers of what the field die reports read as after reset. -/
def FIO_BLANK : Fld := { base := 0xa2034754, lo := 0, width := 1 }
/-- R266, R421. The STATUS of what a mailbox holds for its host while a journal entry is executed in it. -/
def JS_STAT : Fld := { base := 0xa2034755, lo := 0, width := 2, n := 32, stride := 1 }
/-- R266, R421. The opcode of what a mailbox holds for its host while a journal entry is executed in it. -/
def JS_OPC : Fld := { base := 0xa2034775, lo := 0, width := 16, n := 32, stride := 1 }
/-- R266, R421. The tag of what a mailbox holds for its host while a journal entry is executed in it. -/
def JS_TAG : Fld := { base := 0xa2034795, lo := 0, width := 16, n := 32, stride := 1 }
/-- R266, R421. The length of what a mailbox holds for its host while a journal entry is executed in it. -/
def JS_LEN : Fld := { base := 0xa20347b5, lo := 0, width := 16, n := 32, stride := 1 }
/-- R266, R421. The place in doorbell order of what a mailbox holds for its host while a journal entry is executed in it. -/
def JS_SEQ : Fld := { base := 0xa20347d5, lo := 0, width := 32, n := 32, stride := 1 }
/-- R347. Configuration words on their way to the field die: element 0 waits for the boundary, 1 for a tick, 2 is sent. -/
def FIO_NEWW : Fld := { base := 0xa20347f5, lo := 0, width := 32, n := 320, stride := 3, m := 3, step := 1 }
/-- R347. Such a word is there. -/
def FIO_NEWM : Fld := { base := 0xa2034bb5, lo := 0, width := 1, n := 320, stride := 3, m := 3, step := 1 }
/-- R349, R352. The results of the latest tick's samples have not come. -/
def FIO_SMP : Fld := { base := 0xa2034f75, lo := 0, width := 1 }
/-- R358. Test pulses whose readback has not been judged. -/
def FIO_TPA : Fld := { base := 0xa2034f76, lo := 0, width := 32 }
/-- R317, R318, R336. Conversions since the step of a start or of a calibration began. -/
def DP_STN : Fld := { base := 0xa2034f77, lo := 0, width := 16, n := 8, stride := 1 }
/-- R318. V0 follows a test pulse. -/
def DP_PPH : Fld := { base := 0xa2034f7f, lo := 0, width := 1, n := 8, stride := 1 }
/-- R317, R318, R336. The vector that a start or a calibration applies; bit 3: the gates are on. -/
def DP_SVEC : Fld := { base := 0xa2034f87, lo := 0, width := 4, n := 8, stride := 1 }
/-- R307. Conversions since the last PWM valley of a two-phase port. -/
def DP_PWT : Fld := { base := 0xa2034f8f, lo := 0, width := 16, n := 8, stride := 1 }
/-- R307. Duties of the four legs of a two-phase port, in 2^(−16). -/
def DP_DUTY : Fld := { base := 0xa2034f97, lo := 0, width := 17, n := 8, stride := 4, m := 4, step := 1 }
/-- R321. Integrators of the two phase-current loops. -/
def DP_INT : Fld := { base := 0xa2034fb7, lo := 0, width := 64, n := 8, stride := 2, m := 2, step := 1 }
/-- R321. Set points of the two phase currents, Q1.31 of DRV_IFS. -/
def DP_SETP : Fld := { base := 0xa2034fc7, lo := 0, width := 64, n := 8, stride := 2, m := 2, step := 1 }
/-- R324. Consecutive full steps with a load angle of DRV_ST_SLA or more. -/
def DP_LAC : Fld := { base := 0xa2034fd7, lo := 0, width := 7, n := 8, stride := 1 }
/-- R293. Erases of a block of the configuration log. -/
def FL_EC : Fld := { base := 0xa2034fdf, lo := 0, width := 17, n := 368, stride := 1 }
/-- R282, R293. Pages of a block programmed since it was erased. -/
def FL_WR : Fld := { base := 0xa203514f, lo := 0, width := 9, n := 368, stride := 1 }
/-- R293. The block is retired. -/
def FL_RT : Fld := { base := 0xa20352bf, lo := 0, width := 1, n := 368, stride := 1 }
/-- R293. The block whose pages are taken next, and 1; 0 none. -/
def FL_CUR : Fld := { base := 0xa203542f, lo := 0, width := 9 }
/-- R291. Bytes of the image written and verified. -/
def CMT_B : Fld := { base := 0xa2035430, lo := 0, width := 21 }
/-- R273. Blocks scrubbed. -/
def SCR_N : Fld := { base := 0xa2035431, lo := 0, width := 9 }
/-- R295. Bytes of a firmware image written to its slot. -/
def FW_WRN : Fld := { base := 0xa2035432, lo := 0, width := 23 }
/-- R298. The reason code of the session when the safety change of a mailbox was requested. -/
def SS_CR : Fld := { base := 0xa2035433, lo := 0, width := 16, n := 32, stride := 1 }
/-- R298. The author tag of the session then. -/
def SS_CA : Fld := { base := 0xa2035453, lo := 0, width := 16, n := 32, stride := 1 }
/-- The slot, from 1 on, in whose command half a port sends a code error next (R458). -/
def INJ_CODE : Fld := { base := 0xa2035473, lo := 0, width := 10, n := 4, stride := 1 }
/-- The slot, from 1 on, in whose command half the latest frame that a port launched carries a code error (R458). -/
def WIRE_CODE : Fld := { base := 0xa2035477, lo := 0, width := 10, n := 4, stride := 1 }
/-- A detector of ENG0 to ENG3, STORE, NET or MGMT has been set since the last matching digest (R427). -/
def CNJ_DETS : Fld := { base := 0xa203547b, lo := 0, width := 1 }
/-- The backlog with which the replay of a rejoin began (R436). -/
def CNJ_BKL : Fld := { base := 0xa203547c, lo := 0, width := 16 }
/-- When the switch-over that is due was decided, ns (R430). -/
def CNJ_SWT : Fld := { base := 0xa203547d, lo := 0, width := 64 }
/-- The latest cycle when the switch-over that is due was decided (R432). -/
def CNJ_SWB : Fld := { base := 0xa203547e, lo := 0, width := 64 }
/-- The next refresh is the first after a reset of MGMT: every output commanded off (R361). -/
def FIO_OFF1 : Fld := { base := 0xa203547f, lo := 0, width := 1 }

/-- What the part holds for each axis. -/
def perAxis : List Fld :=
  [AX_BIND, AX_NODE, AX_SLOT, AX_VENDOR, AX_PROD, AX_DIV, AX_PHASE, AX_DESC, AX_DESC2, AX_TRQ, AX_STOP,
   AX_RDONE, AX_READY, AX_SEED, AX_V, AX_TQA, AX_STAT, AX_FBB, AX_MISS, AX_CLOSED, AX_OVIMM, AX_FEHIT,
   AX_XP, AX_YP, AX_Z, SEC_HELD, SEC_BYP, OUT_W, OUT_V, FRST_ON, FRST_N, AX_OFS, AX_SAMP,
   AX_VFF, AX_AFF, AX_TFF, AX_UL, AX_XV, AX_XO, AX_INJ, SEC_Y, HM_T0, HM_P0, HM_NEXT, HM_SUSP, HM_SUSPT,
   HM_STALL, HM_HACC, HM_EDGE, IDX_ARM, LRN_T, LRN_ON, LRN_REC, LRN_T0, LRN_D, SEG_TK, SEG_TE, SEG_FL,
   SEG_PE, SEG_VE, STAT_ON, SEC_NOTCH, TRK_T, PRB_PAGE, PRB_N, PRB_DEC, AX_ONLINE, NODE_GONE, AX_FIRST,
   AX_SMODE, AX_LATP, HM_REFP, SEG_TS, CNJ_XU, AX_RESEED, AX_PKT, LRN_RT, LRN_RT0, LRN_RD, LRN_NR, HM_M0, TRK_SH, AX_T0, AX_HT,
   HM_TRV, HM_REFT, SEQ_EN, SEQ_HOLD, SEQ_BRK, SEQ_STO]

/-- What an engine holds. -/
def engVars : List Fld :=
  [ENG_D, ENG_A, ENG_P, ENG_N, ENG_M, ENG_LC, ENG_LS, ENG_LE, ENG_ESR, ENG_SVP, ENG_EPC, ENG_ESS, ENG_ECS,
   ENG_ECYC, ENG_PC, ENG_DLY, ENG_BT, ENG_WL, ENG_OUT, ENG_PUB, ENG_LVL1, ENG_FARD, ENG_FARA, ENG_LOAD,
   ENG_SLOT, ENG_SLOT_T, ENG_EXC_T, ENG_OWN, ENG_HALT, ENG_INJR, ENG_INJW, ENG_INJT, ENG_BUSY, ENG_DID, ENG_QR, ENG_TST]

/-- What the ports and encoder channels hold (domain DRV). -/
def drvVars : List Fld :=
  [DP_REF, DP_EN, DP_BRK, DP_IDXARM, DP_FR, DP_EN0, DP_TL, DP_RATE, DP_LANDED, ENC_ARM, PT_REF, PT_TL,
   PT_LANDED, PT_DIRP, DP_POSU, DP_SPEED, DP_ELLP, DP_IAMP, ENC_IDXT, DP_START, DP_TRY, DP_PLS, DP_PLSF,
   DP_PKI, DP_PKMAX, DP_PKMIN, DP_PSI, DP_LEG, DP_LEGN, DP_SMP, DP_IS, DP_I, DP_ELLS, DP_MEAS, DP_CTQ,
   DP_CFL, DP_OVN, DP_CHN, DP_CHV, DP_CHS, DP_CHSL, DP_HOLD, DP_FALL, DP_ENC0, DP_NEWW, DP_NEWM, PT_NEWW,
   PT_NEWP, ENC_NEWW, ENC_NEWP, ENC_AB, DP_CALF, DP_CALT, DP_STNOW, DP_NS, PT_NS, PT_DT, DP_EVK, DP_CALN, DP_CALS, DP_CALT0, CV_REFN, DP_STN, DP_PPH, DP_SVEC, DP_PWT, DP_DUTY, DP_INT, DP_SETP, DP_LAC]

/-- What the safety core holds (domain SAFE). -/
def safVars : List Fld :=
  [SO_CMD, SAF_WDD, SAF_WAIT, SAF_OWN, SAF_SS1X, SAF_REL, SAF_PREL, SAF_SLS, SAF_RST, SAF_NEWP, FS_DUE,
   FS_STO, FS_LOW, FS_X, REL_ON, SO_WANT, SO_LIVE, SO_SLOT, SO_TP, SO_TPD, SO_CUT, SO_PRF, SO_BLK, SAF_PA,
   SAF_PB, CN_BASE, CN_SD, SAF_J, REL_T, REL_L, CN_T, SO_SLT, SO_PRT, SAF_PDEM]

/-- What the flash, the fuses and the boot record hold. -/
def flashVars : List Fld :=
  [FREE, SAF_CONF, FW_GOOD, FW_KEY, FW_ACT, FW_TRL, CMT_TORN, IMG_SEQ, SS_HASH, SS_SALT, KEY_HASH, FL_EC, FL_WR, FL_RT, FL_CUR]

/-- What an injection holds until it ends by itself. -/
def injVars : List Fld :=
  [ENG_INJR, ENG_INJW, ENG_INJG, ENG_INJT, INJ_RBT, INJ_VFG, INJ_VFT, INJ_WBT, INJ_REFT, INJ_REFN,
   INJ_TRIM, INJ_OVA, INJ_OVN, INJ_CHS, INJ_ELL, INJ_SC, INJ_WD, INJ_SO, INJ_SOS, INJ_PMS, INJ_PT, INJ_CN,
   INJ_CNT, INJ_DIG, INJ_DIAG, INJ_PG, CLK_INJ, INJ_TT, INJ_TU, INJ_RT, INJ_RU, INJ_EH, INJ_EV, INJ_EU,
   INJ_CAL, INJ_SCU, INJ_GFU, INJ_FCS, INJ_CODE]

end H

end Sys2Proof.Machine
end

