-- ==== Sys2Proof/Machine/State.lean ====
section
/-! DEFINITION. The state of the part, as plain data, and the state after reset. -/

namespace Sys2Proof.Machine

/-- A stored completion of a tagged request (R270). -/
structure TagRec where
  mb : Nat
  tag : Nat
  status : Nat
  reason : Nat
  rlen : Nat
  handle : Nat
  rop : Nat
  tDone : Nat
  bytes : List Nat
  deriving DecidableEq, Repr

/-- A PENDING request that waits for a later event: its mailbox, its opcode, and what it waits for
(an axis, a ring, a slot, as the opcode says). -/
structure Wait where
  mb : Nat
  opc : Nat
  key : Nat
  arg : Nat := 0
  deriving DecidableEq, Repr

/-- What changes an axis's state at the axis's next boundary (R41, R42). A request carries its mailbox. -/
inductive AxKind where
  /-- A safety demand, with the reaction the safety function sets (0 ramp, 3 torque off). -/
  | safetyDemand (react : Nat)
  /-- A forced hardware reaction of a fault class. -/
  | hwReact (cls : Nat)
  /-- Full Stop entry, with the ramp of SS1-t or without. -/
  | fullStopEntry (ramp : Bool)
  | fullStopRelease
  /-- An axis fault of a class. -/
  | fault (cls : Nat)
  /-- The reaction of the fault in force is raised to torque off (R51). -/
  | raiseOff
  | nodeOnline
  | nodeLost
  /-- The configured stop is complete. -/
  | stopDone
  | enable (mb : Nat)
  | disable (mb : Nat)
  | faultReset (mb : Nat)
  | faultRaise (mb : Nat)
  | configured (mb : Nat)
  | deconfigured (mb : Nat)
  /-- A motion request, or a request to a homing operation (R165, R193). -/
  | motion (mb : Nat)
  /-- Learning table `t` is no longer bound to the axis (R47). -/
  | learnOff (t : Nat)
  deriving DecidableEq, Repr

/-- The order of R41 in which the events of one boundary are taken. -/
def AxKind.rank : AxKind → Nat
  | .safetyDemand _ => 1
  | .hwReact _ => 2
  | .fullStopEntry _ => 3
  | .fullStopRelease => 3
  | .fault _ => 4
  | .raiseOff => 4
  | .nodeOnline => 5
  | .nodeLost => 5
  | .stopDone => 4
  | .enable _ => 6
  | .disable _ => 6
  | .faultReset _ => 6
  | .faultRaise _ => 6
  | .configured _ => 6
  | .deconfigured _ => 6
  | .motion _ => 6
  | .learnOff _ => 6

/-- An event that waits for its axis's boundary. -/
structure AxEv where
  axis : Nat
  kind : AxKind
  deriving DecidableEq, Repr

/-- A released instance of a clause descriptor (R144). `st`: 0 ready, 1 running, 2 pre-empted, 3 accepted for
pre-emption and not yet dispatched. -/
structure Inst where
  id : Nat
  desc : Nat
  /-- The release cause of the inbox: 0 feedback, 1 period start, 2 completion (R110). -/
  cause : Nat
  /-- The cycle number of the sample it serves. -/
  cyc : Nat
  t : Nat
  dl : Nat
  prio : Nat
  budget : Nat
  entry : Nat
  st : Nat := 0
  eng : Nat := 0
  retry : Bool := false
  /-- The engine a retry keeps away from, plus one. -/
  notEng : Nat := 0
  /-- Its deadline has passed; its delivery is refused. -/
  late : Bool := false
  /-- Inbox bytes 0x00 to 0x17 (R110). -/
  pkt : List Nat := []
  /-- The feedback boundary, ns. -/
  fb : Nat := 0
  /-- TYPE, REC and RTYPE of its descriptor at its release: what it runs and for whom, whatever becomes of the descriptor
  (R136, R156). -/
  ty : Nat := 0
  recd : Nat := 0
  rtype : Nat := 0
  /-- ECYC has passed its budget and the BUDGET record is written (R149). -/
  past : Bool := false
  deriving DecidableEq, Repr

/-- A register of an engine with a value: a load that has not arrived yet, or the older value that the next
instruction may still read (R122). -/
structure EngReg where
  eng : Nat
  fld : Fld
  idx : Nat
  val : Nat
  deriving DecidableEq, Repr

/-- A word that a clause has written into a record slot and that DONE writes back (R106, R128). -/
structure SlotWord where
  eng : Nat
  addr : Nat
  val : Nat
  deriving DecidableEq, Repr

/-- Flipped bits in a word of an on-die array (R446, R448): array code, byte offset, how many bits. -/
structure ArrErr where
  arr : Nat
  off : Nat
  bits : Nat
  deriving DecidableEq, Repr

/-- One entry of the firmware event log (R456). -/
structure EvEntry where
  seq : Nat
  t : Nat
  kind : Nat
  code : Nat
  inst : Nat
  axis : Nat
  cls : Nat
  inj : Bool
  info : Nat
  deriving DecidableEq, Repr

/-- The parameters of an armed injection slot (R460). -/
structure InjSlot where
  slot : Nat
  det : Nat
  inst : Nat
  count : Nat
  interval : Nat
  start : Nat
  arg0 : Nat
  arg1 : Nat
  arg2 : Nat
  deriving DecidableEq, Repr

/-- Part of a demand function (R164, R181). Times are in units of 2^(-16) ns; positions, rates and their derivatives in
units of 2^(-32) counts, counts/s, and so on. -/
inductive Piece where
  /-- From time `t`: position, velocity, acceleration, and constant jerk. -/
  | jerk (t : Nat) (p v a j : Int)
  /-- From time `t` over duration `d`: the cubic of R181 through its ends. -/
  | cubic (t d : Nat) (p0 v0 p1 v1 : Int)
  deriving DecidableEq, Repr

/-- A function of time that an axis's demand follows from `ts` (ns) until the next one's `ts` (R165). `kind`: 0 hold,
1 move, 2 table, 3 homing, 4 quick stop, 5 emergency stop, 6 planned stop under the plan's D and J. -/
structure Motion where
  axis : Nat
  ts : Nat
  kind : Nat
  tgt : Int := 0
  v : Nat := 0
  a : Nat := 0
  d : Nat := 0
  j : Nat := 0
  /-- The overrides as the request gave them (R175). -/
  ovr : List Nat := []
  /-- Move identity, 0 none (R90). -/
  mid : Nat := 0
  /-- T_end, ns. -/
  te : Nat := 0
  /-- The rest point it passes, ns; 0 none (R173). -/
  rest : Nat := 0
  /-- Duration of the learnable run of a table start, ns; 0 none (R183). -/
  run : Nat := 0
  /-- A sample has evaluated it: what its start does for learning is done (R90, R93). -/
  begun : Bool := false
  /-- T_s has come and the function has taken hold. -/
  held : Bool := true
  pieces : List Piece := []
  deriving DecidableEq, Repr

/-- A queued segment (R180): duration in periods, flags, end position, end velocity. -/
structure Seg where
  axis : Nat
  dur : Nat
  flags : Nat
  pEnd : Int
  vEnd : Int
  deriving DecidableEq, Repr

/-- A stamped edge that waits for its bracketing sample (R201). -/
structure CapEdge where
  unit : Nat
  t : Nat
  frac : Nat
  rising : Bool
  deriving DecidableEq, Repr

/-- A completed sample: its feedback boundary (ns), actual position and actual velocity in counts/s (R201). -/
structure Hist where
  axis : Nat
  fb : Nat
  p : Int
  v : Int
  deriving DecidableEq, Repr

/-- A track interval of a compare unit (R195): its start and length in ns, position and velocity at its ends in units of
2^(-32), the firings in it (R197), and whether it extends the interval before it over a missing one (R198). -/
structure Track where
  unit : Nat
  t0 : Nat
  len : Nat
  p0 : Int
  v0 : Int
  p1 : Int
  v1 : Int
  fired : Nat := 0
  gap : Bool := false
  deriving DecidableEq, Repr

/-- An entry of a capture unit's FIFO (R202). -/
structure CapEntry where
  unit : Nat
  t : Nat
  frac : Nat
  rising : Bool
  pos : Int
  deriving DecidableEq, Repr

/-- The lists that the body of a clause may change. -/
structure WorkLists where
  waits : List Wait := []
  tags : List TagRec := []
  axEvs : List AxEv := []
  motions : List Motion := []
  segs : List Seg := []
  edges : List CapEdge := []
  hist : List Hist := []
  caps : List CapEntry := []
  tracks : List Track := []
  deriving DecidableEq, Repr

/-- What an engine holds of a clause it was given: the configuration of the record as it stood then, which the clause uses
throughout (R38, R76), and the work of the body that is lost if the clause does not complete (R23): register keys and bytes
with the value before and after, and the lists before and after. -/
structure Saved where
  inst : Nat
  recd : Nat
  cfg : List (Nat × Nat)
  regs : List (Nat × Option Nat × Option Nat) := []
  mem : List (Nat × Byte × Byte) := []
  bef : WorkLists := {}
  aft : WorkLists := {}
  deriving DecidableEq, Repr

/-- What the frame builder holds for a slot of an axis in frame `frame` (R32, R222): the words of a delivery, or, with `ovr`,
that the sample due in it overran. -/
structure OutCmd where
  axis : Nat
  frame : Nat
  ovr : Bool := false
  words : List Nat := []
  deriving DecidableEq, Repr

/-- An acyclic message from the head to a node (R234): its service, TID and data, the mailbox of the request it serves (none for an
IDENTIFY of the head's own, R243), the fragments sent, and the cycle in which it was last sent, or accepted. -/
structure AcycMsg where
  ring : Nat
  node : Nat
  svc : Nat
  tid : Nat
  data : List Nat
  mb : Option Nat := none
  sent : Nat := 0
  cyc : Nat := 0
  deriving DecidableEq, Repr

/-- A configuration image in the flash (R283): its sequence number, BOOT_MODE and size, whether every page passes its
check, the words and bytes it holds, the AXIS_CONFIGURE parameters of the configured axes, and the custom descriptors. -/
structure Image where
  seq : Nat
  bootMode : Nat
  size : Nat
  good : Bool
  regs : List (Nat × Nat)
  mem : List Host.Cell
  axes : List (List Nat)
  descs : List (Nat × List Nat)
  /-- Pages of the image in the configuration log, its commit record not counted. -/
  pages : Nat := 0
  /-- Where they and the record stand: block and number of pages in it. -/
  ext : List (Nat × Nat) := []
  deriving DecidableEq, Repr

/-- A KIND 5 overlay entry as the safety store holds it (R298): overlay, target, mask and value. -/
structure SafEntry where
  ovl : Nat
  t : Nat
  mask : Nat
  val : Nat
  deriving DecidableEq, Repr

/-- The state. `regs` holds every register field and every variable of Hidden.lean that differs from its
reset value, under its key; `mem` the bytes of the addressed memories; `pending` the queue of waiting
commands, first in first out. -/
structure State where
  regs : List (Nat × Nat) := []
  mem : List Host.Cell := []
  pending : List Instr := []
  /-- The bytes the last host or debug read returned, lowest address first. -/
  rdata : List Nat := []
  /-- The MSI-X vectors sent, newest first (R260). -/
  msix : List Nat := []
  /-- The tag histories of all mailboxes, newest first (R270). -/
  tags : List TagRec := []
  /-- Requests that wait for an event, oldest first. -/
  waits : List Wait := []
  /-- Events that wait for their axis's boundary, oldest first (R41). -/
  axEvs : List AxEv := []
  /-- The firmware event log, newest first (R456). -/
  evlog : List EvEntry := []
  /-- The armed injection slots (R457). -/
  injs : List InjSlot := []
  /-- The released clause instances, in release order (R144). -/
  insts : List Inst := []
  /-- Descriptor words that take effect at the next boundary, oldest first (R136). -/
  descPend : List (Nat × List Nat) := []
  /-- Custom code that takes effect at the next boundary: word offset and words (R107). -/
  codePend : List (Nat × List Nat) := []
  /-- Decision-trace records waiting to be drained, oldest first (R159). -/
  trcBuf : List Nat := []
  /-- Engine registers whose loads land after the next instruction (R122). -/
  late : List EngReg := []
  /-- Older values the next instruction still reads (R122). -/
  olds : List EngReg := []
  /-- Words written into record slots and not yet written back. -/
  slotW : List SlotWord := []
  /-- What the engines hold of the clauses given to them. -/
  saved : List Saved := []
  /-- Words of the arrays whose stored bits are in error. -/
  arrErrs : List ArrErr := []
  /-- The demand functions of the axes, in the order of acceptance for each axis (R164). -/
  motions : List Motion := []
  /-- The segment queues, oldest first (R182). -/
  segs : List Seg := []
  /-- Stamped edges that wait for their sample, oldest first (R201). -/
  edges : List CapEdge := []
  /-- Recent samples of the axes, newest first, that positions of stamped edges are formed from (R189, R201). -/
  hist : List Hist := []
  /-- Nodes with an acyclic message pending, in the order first seen: ring and address (R232). -/
  mpq : List (Nat × Nat) := []
  /-- The node Commas granted in the latest frame, in order: ring and address (R232). -/
  grants : List (Nat × Nat) := []
  /-- Base values of the words that the active overlay covers, by their TARGET (R284, R286). -/
  baseW : List (Nat × Nat) := []
  /-- The capture FIFOs, oldest first (R202). -/
  caps : List CapEntry := []
  /-- The configuration images in the flash that are not reclaimed, newest first (R292). -/
  images : List Image := []
  /-- The snapshot that a commit is writing (R291). -/
  snap : Option Image := none
  /-- The KIND 5 overlay entries in the safety store (R298). -/
  safOvl : List SafEntry := []
  /-- Commands of network axes that wait for the cut-off of their frame (R32, R222). -/
  outs : List OutCmd := []
  /-- Acyclic messages from the heads that wait for head Commas or for their responses, oldest first (R231, R234). -/
  acyc : List AcycMsg := []
  /-- The track intervals of the compare units, oldest first (R195). -/
  tracks : List Track := []
  deriving DecidableEq, Repr

/-- Why a step stops. No rule of the spec stops the part, so no meaning raises this; it is here because a step has
three outcomes. -/
inductive Fault where
  /-- Never raised. Safe. -/
  | none
  deriving DecidableEq, Repr

/-- Why a command is refused. -/
inductive Refusal where
  /-- The command named has no meaning in this model yet. Raised by exec alone. Safe. -/
  | notModelled (mnemonic : String)
  deriving DecidableEq, Repr

/-- The part right after reset: every field at its reset value, every memory as start-up writes it (R475),
nothing pending. -/
def State.reset : State := {}

end Sys2Proof.Machine
end

