-- ==== Sys2Proof/Machine/Ops.lean ====
section
/-! DEFINITION. The named operations over registers, memory and the lists of the state. -/

namespace Sys2Proof.Machine

/-- What a meaning answers. -/
abbrev Out := Host.Outcome State Fault Refusal

/-! ### Register fields -/

/-- The key of instance `i`, element `j` of a field. -/
def fkey (f : Fld) (i j : Nat) : Nat := 8 * (f.base + f.stride * i + f.step * j) + f.lo

/-- The reset value of element `j` (R13). -/
def fldReset (f : Fld) (j : Nat) : Nat :=
  if f.rsts.isEmpty then f.reset else f.rsts.getD (j % f.rsts.length) 0

/-- The value of a field, which its width holds. -/
def State.get (s : State) (f : Fld) (i : Nat := 0) (j : Nat := 0) : Nat :=
  regGet s.regs (fkey f i j) (fldReset f j) % 2 ^ f.width

/-- The state with a field at a value, held to the field's width. -/
def State.put (s : State) (f : Fld) (v : Nat) (i : Nat := 0) (j : Nat := 0) : State :=
  { s with regs := regSet s.regs (fkey f i j) (fldReset f j) (v % 2 ^ f.width) }

/-- The value of a field as a two's complement number. -/
def State.geti (s : State) (f : Fld) (i : Nat := 0) (j : Nat := 0) : Int := sext f.width (s.get f i j)

/-- The state with a field at a two's complement number. -/
def State.puti (s : State) (f : Fld) (v : Int) (i : Nat := 0) (j : Nat := 0) : State :=
  s.put f (trunc f.width v) i j

/-- A field of one bit as a truth value. -/
def State.on (s : State) (f : Fld) (i : Nat := 0) (j : Nat := 0) : Bool := s.get f i j != 0

/-- The state with a field one higher, held at the field's largest value. -/
def State.incSat (s : State) (f : Fld) (i : Nat := 0) (j : Nat := 0) : State :=
  s.put f (min (s.get f i j + 1) (2 ^ f.width - 1)) i j

/-- The state with a field higher by `n`, held at the field's largest value. -/
def State.addSat (s : State) (f : Fld) (n : Nat) (i : Nat := 0) (j : Nat := 0) : State :=
  s.put f (min (s.get f i j + n) (2 ^ f.width - 1)) i j

/-- The state with a field one higher, wrapping. -/
def State.incWrap (s : State) (f : Fld) (i : Nat := 0) (j : Nat := 0) : State :=
  s.put f (s.get f i j + 1) i j

/-- The state with bit `k` of a field set. -/
def State.orBit (s : State) (f : Fld) (k : Nat) (i : Nat := 0) (j : Nat := 0) : State :=
  s.put f (setBit (s.get f i j) k) i j

/-- The state with bit `k` of a field clear. -/
def State.clearBit (s : State) (f : Fld) (k : Nat) (i : Nat := 0) (j : Nat := 0) : State :=
  s.put f (clrBit (s.get f i j) k) i j

/-- The state with a field back at its reset value. -/
def State.resetFld (s : State) (f : Fld) (i : Nat := 0) (j : Nat := 0) : State :=
  s.put f (fldReset f j) i j

/-- Every register field whose byte address lies in `[lo, hi)` back at its reset value. -/
def State.resetRange (s : State) (lo hi : Nat) : State :=
  { s with regs := s.regs.filter fun p => decide (p.1 < 8 * lo) || decide (8 * hi ≤ p.1) }

/-! ### Memory -/

/-- The byte at an address of the addressed memories. -/
def State.byte (s : State) (a : Nat) : Nat := (memGet s.mem a).toNat

/-- The state with one byte written. -/
def State.setByte (s : State) (a v : Nat) : State := { s with mem := memSet s.mem a (BitVec.ofNat 8 v) }

/-- `n` bytes from an address up. -/
def State.bytes (s : State) (a n : Nat) : List Nat := (List.range n).map fun k => s.byte (a + k)

/-- The state with bytes written from an address up. -/
def State.setBytes (s : State) (a : Nat) : List Nat → State
  | [] => s
  | b :: t => (s.setByte a b).setBytes (a + 1) t

/-- A little-endian value of `n` bytes (R8). -/
def State.load (s : State) (a n : Nat) : Nat := ofBytes (s.bytes a n)

/-- The state with a little-endian value of `n` bytes stored (R8). -/
def State.store (s : State) (a n v : Nat) : State := s.setBytes a (toBytes n v)

/-- Every byte in `[lo, hi)` zero. -/
def State.zeroRange (s : State) (lo hi : Nat) : State :=
  { s with mem := s.mem.filter fun p => decide (p.1 < lo) || decide (hi ≤ p.1) }

/-! ### Free values and time -/

/-- Distributed-clock nanoseconds (R16). -/
def State.now (s : State) : Nat := s.get R.DCK_TIME

/-- The clock at a time and its fraction in 2^(−16) ns, where that is later than it stands (R16). -/
def State.clockTo (s : State) (t frac : Nat) : State :=
  if s.now * 65536 + s.get R.DCK_FRAC < t * 65536 + frac % 65536 then
    (s.put R.DCK_TIME t).put R.DCK_FRAC (frac % 65536)
  else s

/-- The state after a free value has been taken. -/
def State.useFree (s : State) : State := s.incWrap H.FREE

/-- The free value of `w` bits that stands next. -/
def State.free (s : State) (w : Nat) : Nat := Config.freeValue (s.get H.FREE) % 2 ^ w

/-- The free value of `w` bits that stands `k` after the next. -/
def State.freeAt (s : State) (k w : Nat) : Nat := Config.freeValue ((s.get H.FREE + k) % 2 ^ 64) % 2 ^ w

/-- The state run through a list, in order. -/
def State.each {α : Type} (s : State) (l : List α) (f : State → α → State) : State := l.foldl f s

/-- The state changed where a condition holds. -/
def State.when (s : State) (c : Bool) (f : State → State) : State := if c then f s else s

end Sys2Proof.Machine
end

