-- ==== Sys2Proof/Machine/HostOps.lean ====
section
/-! DEFINITION. Operations shared by every block: interrupts and MSI-X (R259, R260), the host error log (R258),
the firmware event log (R456), detector reports (R455), and mailbox completions (R264 to R274). -/

namespace Sys2Proof.Machine

/-- A domain (code of R258) is off or held in reset (R28). -/
def State.domDown (s : State) (k : Nat) : Bool := !bit (s.get R.PWR_DOM_ON) k || bit (s.get R.PWR_DOM_RST) k

/-! ### Interrupts -/

/-- The host attachment in force (R251): 0 PCIe only, 1 QSPI only, 2 both; the reserved strap 3 is taken as 0. -/
def State.attach (s : State) : Nat := if s.get R.HIF_STATUS_HSEL = 3 then 0 else s.get R.HIF_STATUS_HSEL

/-- A mailbox belongs to the PCIe interface (R251). -/
def State.pcieOwns (s : State) (n : Nat) : Bool := s.attach == 0 || (s.attach == 2 && 4 ≤ n)

/-- The status outputs STLED0 to STLED3, `true` where the output is low and its LED lit (R501): READY, Full Stop, ERR and
ROLE 1 of HIF_STATUS. -/
def State.stled (s : State) (k : Nat) : Bool :=
  match k with
  | 0 => s.on R.HIF_STATUS_READY
  | 1 => decide (2 ≤ s.get R.SAF_STATUS_STATE)
  | 2 => s.on R.INT_SUM_ERR
  | 3 => s.get R.HIF_STATUS_ROLE == 1
  | _ => false

/-- A mailbox belongs to the QSPI interface (R251). -/
def State.qspiOwns (s : State) (n : Nat) : Bool := (s.attach == 1 || s.attach == 2) && n < 4

/-- An MSI-X message of vector `v`, subject to the mask of the MSI-X table (R260). A masked message sets its
pending bit. -/
def State.sendMsix (s : State) (v : Nat) : State :=
  if s.attach = 1 then s
  else if s.on R.HIF_MSIX_MASK v then s.orBit R.HIF_MSIX_PBA v
  else { s with msix := v :: s.msix }

/-- Cause `k` of HIF_INT_STAT sets; its rise with its enable sends vector 32 + k (R259, R260). -/
def State.cause (s : State) (k : Nat) : State :=
  (s.orBit R.HIF_INT_STAT k).when
    (!bit (s.get R.HIF_INT_STAT) k && bit (s.get R.HIF_INT_EN) k) fun s => s.sendMsix (32 + k)

/-- QSPI_IRQ_N is low (R260). -/
def State.qspiIrq (s : State) : Bool :=
  ((List.range 32).any fun n =>
    s.qspiOwns n && bit (s.get R.HIF_INT_MBX_STAT) n && bit (s.get R.HIF_INT_MBX_EN) n) ||
  (s.get R.HIF_INT_STAT &&& s.get R.HIF_INT_QEN) != 0

/-- Mailbox `n` completed: its bit of HIF_INT_MBX_STAT, and vector `n` on its rise where the mailbox is
PCIe-owned (R259, R260). -/
def State.mbxCause (s : State) (n : Nat) : State :=
  (s.orBit R.HIF_INT_MBX_STAT n).when
    (!bit (s.get R.HIF_INT_MBX_STAT) n && bit (s.get R.HIF_INT_MBX_EN) n && s.pcieOwns n)
    fun s => s.sendMsix n

/-- The bit of axis `a` in HIF_AXEVT sets, and cause 6 with its rise (R257, R259). -/
def State.axEvt (s : State) (a : Nat) : State :=
  (s.orBit R.HIF_AXEVT (a % 32) 0 (a / 32)).when (!bit (s.get R.HIF_AXEVT 0 (a / 32)) (a % 32))
    fun s => s.cause 6

/-! ### The host error log -/

/-- The interface code of R258. -/
def ifcCode : Ifc → Nat
  | .bar0 => 0
  | .bar2 => 1
  | .qspi => 2

/-- One entry of the host error log (R258): interface, write, cause, domain, mailbox and address. -/
def State.errLog (s : State) (ifc : Ifc) (wr : Bool) (cause dom mb addr : Nat) : State :=
  let i := s.get R.HIF_ERRLOG_WPTR_IDX
  let s := s.put R.HIF_ERRLOG_T s.now i
  let s := s.put R.HIF_ERRLOG_ADDR addr i
  let s := s.put R.HIF_ERRLOG_INFO (ifcCode ifc + 4 * b2n wr + 16 * cause + 256 * dom + 65536 * mb) i
  let s := s.put R.HIF_ERRLOG_WPTR_IDX (i + 1)
  let s := s.when (i == 15) fun s => s.incWrap R.HIF_ERRLOG_WPTR_WRAPS
  (s.incSat R.HIF_CNT_ERR).cause 12

/-! ### Host interfaces -/

/-- The domain code (R258) of a BAR0 region (R256); a reserved region counts as HOST's own, which answers it (R14). -/
def bar0Dom (a : Nat) : Nat :=
  if 0x11400 ≤ a ∧ a < 0x20000 then 1 else
  match a / 0x10000 with
  | 0 => 1 | 1 => 2 | 2 => 2 | 3 => 2 | 4 => 5 | 5 => 4 | 6 => 4 | 7 => 4 | 8 => 4 | 9 => 4 | 10 => 10 | 11 => 10
  | 12 => 2 | 13 => 3 | 14 => 2 | 15 => 2 | 16 => 0 | 17 => 0 | 18 => 2
  | _ => 1

/-- A BAR0 address in no region of R256: reads give 0 and writes are ignored without error (R14). -/
def bar0Reserved (a : Nat) : Bool := (decide (0x11400 ≤ a) && decide (a < 0x20000)) || decide (0x130000 ≤ a)

/-- An interface answers: the attachment uses it, HOST is up, and over PCIe the function is in D0 (R251, R253). -/
def State.ifcUp (s : State) (i : Ifc) : Bool :=
  !s.domDown 1 &&
    match i with
    | .qspi => s.attach != 0
    | _ => s.attach != 1 && !s.on H.D3HOT && !bit (s.get H.CLK_LOST) 5

/-- A QSPI address reaches a BAR0 register or page (R255). -/
def qspiMapped (a : Nat) : Bool :=
  decide (a < 0x10100) || (decide (0x11000 ≤ a) && decide (a < 0x11400)) || (decide (0x20000 ≤ a) && decide (a < 0x24000))

/-- The domain that an access meets is off or in reset (R28); HOST answers for its own registers. -/
def State.barDown (s : State) (d : Nat) : Bool := d != 1 && s.domDown d

/-- The cause of the log entry of such an access: 1 DOMAIN_OFF, 2 DOMAIN_RESET (R258). -/
def State.downCause (s : State) (d : Nat) : Nat := if bit (s.get R.PWR_DOM_ON) d then 2 else 1

/-- A host write of a command register at BAR0 address `a`: over PCIe, or over QSPI where that is the only attachment. It
has its effect `f` where the interface answers, the address is mapped and its domain is up; a domain that is off or in reset
discards the write and logs it (R28, R251, R255). -/
def State.hostWord (s : State) (a : Nat) (f : State → State) : State :=
  let i : Ifc := if s.attach = 1 then .qspi else .bar0
  if !s.ifcUp i || (s.attach == 1 && !qspiMapped a) then s
  else if s.barDown (bar0Dom a) then s.errLog i true (s.downCause (bar0Dom a)) (bar0Dom a) 0 a
  else f s

/-! ### The firmware event log and the detectors -/

/-- One entry of the firmware event log, which holds 256 (R456), with cause 13. -/
def State.evAdd (s : State) (kind code inst axis cls : Nat) (inj : Bool) (info : Nat) : State :=
  let q := (s.get R.INT_EVLOG_SEQ + 1) % 2 ^ 32
  let e : EvEntry := { seq := q, t := s.now, kind := kind, code := code, inst := inst, axis := axis,
                       cls := cls, inj := inj, info := info }
  ({ s.put R.INT_EVLOG_SEQ q with evlog := (e :: s.evlog).take 256 }).cause 13

/-- The 32 bytes of an event-log entry (R456). -/
def EvEntry.bytes (e : EvEntry) : List Nat :=
  toBytes 4 e.seq ++ toBytes 8 e.t ++ [e.kind % 256, e.code % 256] ++ toBytes 2 e.inst ++ toBytes 2 e.axis ++
    [e.cls % 256, b2n e.inj] ++ toBytes 8 e.info ++ [0, 0, 0, 0]

/-- A slot is injecting into this detector and instance (R457, R458). -/
def State.injOn (s : State) (det inst : Nat) : Bool :=
  s.injs.any fun x => x.det == det && x.inst == inst && s.get R.INT_INJ_STAT_STATE x.slot == 2

/-- The domain code (R258) of an array (R444). -/
def arrDomain (arr : Nat) : Nat :=
  if arr < 4 then 6 + arr else if arr < 6 then 5 else if arr = 6 then 4 else if arr = 9 then 3 else 2

/-- The domain code (R258) in which a detector reports (R455). -/
def detDomain (code inst : Nat) : Nat :=
  if code = 0x01 ∨ code = 0x02 ∨ code = 0x1C then arrDomain inst
  else if code = 0x03 ∨ code = 0x05 ∨ code = 0x06 then 6 + inst / 4 % 4
  else if code = 0x04 then 5
  else if code = 0x07 ∨ code = 0x08 ∨ code = 0x0C ∨ code = 0x0E ∨ code = 0x0F then 3
  else if code = 0x09 ∨ code = 0x17 ∨ code = 0x18 ∨ code = 0x19 ∨ code = 0x1E then 2
  else if code = 0x0A then 0
  else if code = 0x0B ∨ code = 0x1A ∨ code = 0x1B then 4
  else if code = 0x13 ∨ code = 0x14 ∨ code = 0x15 ∨ code = 0x16 ∨ code = 0x1D then 10
  else 11

/-- INT_SUM from the detector records: a domain's bit is set while a record of it holds STICKY, ERR while any bit
of DOM is set, and cause 9 rises with ERR (R455, R259). -/
def State.sumUp (s : State) : State :=
  let d := (List.range 32).foldl (fun m c => m ||| s.get H.DET_DOMS c) 0
  let s1 := (s.put R.INT_SUM_DOM d).put R.INT_SUM_ERR (b2n (d != 0))
  s1.when (!s.on R.INT_SUM_ERR && d != 0) fun s => s.cause 9

/-- The domains whose integrity summary the pair's self-diagnosis looks at: MGMT, NET, STORE, ENG0 to ENG3 (R258, R427). -/
def diagDom (dom : Nat) : Bool := [2, 4, 5, 6, 7, 8, 9].contains dom

/-- A detector report in a named domain (R455), with its event-log entry. Entries of detector 0x01 are written at
most once per second per array (R456). -/
def State.reportIn (s : State) (dom code inst axis info : Nat) : State :=
  let inj := s.injOn code inst
  let s := s.put R.INT_DET_STICKY 1 code
  let s := s.put R.INT_DET_INJ (b2n inj) code
  let s := s.put R.INT_DET_INST inst code
  let s := s.incSat R.INT_DET_CNT code
  let s := s.put R.INT_DET_T s.now code
  let s := (s.orBit H.DET_DOMS dom code).sumUp
  let s := s.when (diagDom dom && code != 0x1A && code != 0x1B) fun s => s.put H.CNJ_DETS 1
  if code = 0x01 then
    if s.on H.CE_LOGGED inst && s.now < s.get H.CE_T inst + 1000000000 then s
    else ((s.put H.CE_LOGGED 1 inst).put H.CE_T s.now inst).evAdd 1 code inst axis 0 inj info
  else s.evAdd 1 code inst axis 0 inj info

/-- A detector report (R455). -/
def State.report (s : State) (code inst axis info : Nat) : State :=
  s.reportIn (detDomain code inst) code inst axis info

/-! ### Requests -/

/-- The live configuration differs from the newest image, and from a snapshot being committed (R291, R301). -/
def State.dirty (s : State) : State := (s.put R.CFG_STATUS_DIRTY 1).put H.CMT_D 1

/-- The address of mailbox `n`'s page (R256). -/
def pageOf (n : Nat) : Nat := 0x20000 + 0x1000 * n

/-- A parameter of a request: `n` bytes of the page at an offset, little-endian (R279). -/
def State.par (s : State) (mb off n : Nat) : Nat := s.load (pageOf mb + off) n

/-- A signed parameter of `n` bytes. -/
def State.parI (s : State) (mb off n : Nat) : Int := sext (8 * n) (s.par mb off n)

/-- The record that a request of an opcode addresses: 1 + axis for an axis record, 0x200 + group for a group record,
0x400 + table for a learning table (R77, R265). -/
def State.recOf (s : State) (mb : Nat) : Nat :=
  let o := s.get H.MB_OPC mb
  if (0x0100 ≤ o ∧ o ≤ 0x0108) ∨ o = 0x0200 ∨ o = 0x0207 ∨ o = 0x0208 ∨ (0x0400 ≤ o ∧ o ≤ 0x0404) then 1 + s.par mb 0 4
  else if o = 0x0201 ∨ o = 0x0202 then 0x200 + s.par mb 0 4
  else if o = 0x0203 ∨ o = 0x0204 then 0x400 + s.par mb 0 4
  else if o = 0x0205 ∨ o = 0x0206 then 0x400 + bits (s.get H.MB_ARG mb) 0 6
  else 0

/-- The opcodes that take effect at a boundary of their axis, in the order in which they have been posted (R41). -/
def posts (opc : Nat) : Bool := (decide (0x0100 ≤ opc) && decide (opc ≤ 0x0105)) || (decide (0x0400 ≤ opc) && decide (opc ≤ 0x0404))

/-- An earlier request on the same record has not been executed (R77, R265): nothing has begun to serve it, or, for a request that
takes effect at once, it waits for its axis's boundary. One that waits for a state change delays no other (R265). -/
def State.behind (s : State) (mb : Nat) : Bool :=
  s.recOf mb != 0 && (List.range 32).any fun k =>
    s.get R.MBX_STAT_STATUS k == 1 && decide (s.get H.MB_SEQ k < s.get H.MB_SEQ mb) && s.recOf k == s.recOf mb &&
      (!(s.waits.any fun w => w.mb == k) ||
        (!posts (s.get H.MB_OPC mb) && s.waits.any fun w => w.mb == k && decide (0x10000 ≤ w.key)))

/-- The requests that a standby executes for its own host: those that only read, the requests of the pair, and
FULL_STOP_RELEASE, which host software sends to both units (R389, R420). -/
def standbyRuns (opc : Nat) : Bool :=
  [0x0001, 0x0002, 0x0006, 0x0007, 0x0107, 0x0201, 0x0205, 0x0504, 0x0608, 0x060B, 0x0A00, 0x0A01, 0x0A02, 0x0A03,
   0x0A04, 0x0905, 0x0B02, 0x0C08].contains opc

/-- An active unit with a standby sends each request that changes state to it as a journal entry, before executing it (R421). -/
def State.journals (s : State) (opc : Nat) : Bool :=
  s.get R.CNJ_STATE_ROLE == 1 && s.get H.CNJ_PROLE == 2 && !standbyRuns opc

/-- How many cycles ahead of its boundary of acceptance a request is taken up: what writes records at once takes effect there (R421),
the rest at the boundary that comes next. -/
def accAhead (opc : Nat) : Nat := if [0x0106, 0x0200, 0x0202, 0x0203, 0x0204, 0x0206, 0x0207].contains opc then 0 else 1

/-- Mailbox `mb` holds a PENDING request of this opcode that nothing has begun to serve, no earlier request on its record is
still to be executed (R77), the management cores run, and its boundary of acceptance in a pair is not further off (R421). -/
def State.live (s : State) (mb opc : Nat) : Bool :=
  mb < 32 && !s.on H.MC_HALT && s.get R.MBX_STAT_STATUS mb == 1 && s.get H.MB_OPC mb == opc &&
    !(s.waits.any fun w => w.mb == mb) && !s.behind mb && decide (s.get H.MB_ACC mb ≤ s.get H.BND_N + accAhead opc)

/-- A completion placed in the tag history of a mailbox, which holds 64 (R270). -/
def State.tagAdd (s : State) (r : TagRec) : State :=
  { s with tags := (r :: s.tags.filter fun x => x.mb == r.mb).take 64 ++ s.tags.filter fun x => x.mb != r.mb }

/-- The place of what mailbox `n`'s page holds for its host while a journal entry is executed in it. -/
def jrnPage (n : Nat) : Nat := 0x5E600000 + 0x1000 * n

/-- `n` bytes copied from one place to another. -/
def State.copyRange (s : State) (src dst n : Nat) : State :=
  (s.mem.filter fun c => decide (src ≤ c.1) && decide (c.1 < src + n)).foldl
    (fun s c => s.setByte (c.1 - src + dst) c.2.toNat) (s.zeroRange dst (dst + n))

/-- What a mailbox holds for its host is put away for a journal entry (R266, R421). -/
def State.jrnAway (s : State) (mb : Nat) : State :=
  let s := (s.copyRange (pageOf mb) (jrnPage mb) 0x1000).put H.JS_STAT (s.get R.MBX_STAT_STATUS mb) mb
  let s := (s.put H.JS_OPC (s.get H.MB_OPC mb) mb).put H.JS_TAG (s.get H.MB_TAG mb) mb
  (s.put H.JS_LEN (s.get H.MB_LEN mb) mb).put H.JS_SEQ (s.get H.MB_SEQ mb) mb

/-- It is put back. -/
def State.jrnBack (s : State) (mb : Nat) : State :=
  let s := (s.copyRange (jrnPage mb) (pageOf mb) 0x1000).put R.MBX_STAT_STATUS (s.get H.JS_STAT mb) mb
  let s := (s.put H.MB_OPC (s.get H.JS_OPC mb) mb).put H.MB_TAG (s.get H.JS_TAG mb) mb
  ((s.put H.MB_LEN (s.get H.JS_LEN mb) mb).put H.MB_SEQ (s.get H.JS_SEQ mb) mb).put H.MB_ACC 0 mb

/-- The completion of a journaled request: the standby shows nothing of it; after a switch-over it enters the tag history
(R421, R435). -/
def State.completeJournal (s : State) (mb : Nat) (r : TagRec) : State :=
  let s := (s.put H.MB_JRN 0 mb).jrnBack mb
  let s := { s with waits := s.waits.filter fun w => w.mb != mb }
  if s.get R.CNJ_STATE_ROLE = 1 ∧ r.tag ≠ 0 then s.tagAdd r else s

/-- The completion of a request (R268), and its place in the tag history (R270). -/
def State.complete (s : State) (mb status reason handle : Nat) (res : List Nat) : State :=
  let opc := s.get H.MB_OPC mb
  let tag := s.get H.MB_TAG mb
  let r : TagRec := { mb := mb, tag := tag, status := status, reason := reason, rlen := res.length,
                      handle := handle, rop := opc, tDone := s.now, bytes := res.take 32 }
  if s.on H.MB_JRN mb then s.completeJournal mb r
  else
  let s := s.setBytes (pageOf mb) res
  let s := s.put R.MBX_RES_REASON reason mb
  let s := s.put R.MBX_RES_RLEN res.length mb
  let s := s.put R.MBX_HANDLE handle mb
  let s := s.put R.MBX_ROP opc mb
  let s := s.put R.MBX_T_DONE s.now mb
  let s := s.put R.MBX_STAT_STATUS status mb
  let s := { s with waits := s.waits.filter fun w => w.mb != mb }
  let s := s.mbxCause mb
  if tag = 0 ∨ opc = 0x0006 then s else s.tagAdd r

/-- A request completes DONE. -/
def State.done (s : State) (mb : Nat) (res : List Nat := []) : State := s.complete mb 2 0 0 res

/-- A request completes FAILED with a reason (R278). -/
def State.fail (s : State) (mb reason : Nat) (res : List Nat := []) : State := s.complete mb 3 reason 0 res

/-- A request stays PENDING, waiting. -/
def State.wait (s : State) (mb opc key : Nat) (arg : Nat := 0) : State :=
  { s with waits := s.waits ++ [{ mb := mb, opc := opc, key := key, arg := arg }] }

/-- The unit is standby or rejoining (R420). -/
def State.isStandby (s : State) : Bool := s.get R.CNJ_STATE_ROLE == 2 || s.get R.CNJ_STATE_ROLE == 3

/-- Requests that Standby refuses (R466). -/
def standbyPower (opc : Nat) : Bool := [0x0102, 0x0208, 0x0300, 0x0400, 0x0404, 0x0702].contains opc

/-- Requests that the boot ROM executes in recovery, on MB0 (R476). -/
def recoveryRuns (mb opc : Nat) : Bool := mb == 0 && [0x0002, 0x0602, 0x060A].contains opc

/-- The body of a request: it acts on a live request; recovery, the power state Standby and a standby refuse. A standby refuses a request that changes state, unless it came as a
journal entry (R420, R421); a length below the opcode's minimum fails (R275). -/
def State.request (s : State) (mb opc minLen : Nat) (f : State → State) : State :=
  if s.live mb opc then
    if s.get R.PWR_STATE_BOOT == 2 && !recoveryRuns mb opc then s.fail mb 0x0001
    else if s.get R.PWR_STATE_STATE == 2 && standbyPower opc then s.fail mb 0x0C09
    else if s.isStandby && !standbyRuns opc && !s.on H.MB_JRN mb then s.fail mb 0x0A00
    else if s.get H.MB_LEN mb < minLen then s.fail mb 0x0002
    else f s
  else s

/-- The mailboxes whose requests wait with an opcode and a key, in the order they came. -/
def State.waiting (s : State) (opc key : Nat) : List Nat :=
  (s.waits.filter fun w => w.opc == opc && w.key == key).map (·.mb)

/-- Every request waiting with an opcode and a key completes DONE. -/
def State.doneAll (s : State) (opc key : Nat) (res : List Nat := []) : State :=
  s.each (s.waiting opc key) fun s mb => s.done mb res

/-- Every request waiting with an opcode and a key completes FAILED. -/
def State.failAll (s : State) (opc key reason : Nat) (res : List Nat := []) : State :=
  s.each (s.waiting opc key) fun s mb => s.fail mb reason res

/-! ### Long operations -/

/-- The first free long-operation slot (R272). -/
def State.lopSlot (s : State) : Option Nat := (List.range 32).find? fun k => s.get R.LOP_ID_HANDLE k == 0

/-- The `k`-th handle after the last given out; handles run 1 to 65535 (R272). -/
def State.lopHandleAt (s : State) (k : Nat) : Nat := (s.get H.LOP_NEXT + k) % 65535 + 1

/-- The next handle, a value still in a slot skipped (R272). -/
def State.lopHandle (s : State) : Nat :=
  (((List.range 33).map s.lopHandleAt).find? fun h =>
    (List.range 32).all fun k => s.get R.LOP_ID_HANDLE k != h).getD 1

/-- The slot of a long operation of this opcode and index that has no final status. -/
def State.lopOf (s : State) (opc idx : Nat) : Option Nat :=
  (List.range 32).find? fun k =>
    s.get R.LOP_ID_HANDLE k != 0 && s.get R.LOP_OBJ_OPCODE k == opc && s.get R.LOP_OBJ_INDEX k == idx &&
    (s.get R.LOP_ID_STATUS k == 1 || s.get R.LOP_ID_STATUS k == 4)

/-- Any long operation of this opcode has no final status. -/
def State.lopBusy (s : State) (opc : Nat) : Bool :=
  (List.range 32).any fun k =>
    s.get R.LOP_ID_HANDLE k != 0 && s.get R.LOP_OBJ_OPCODE k == opc &&
    (s.get R.LOP_ID_STATUS k == 1 || s.get R.LOP_ID_STATUS k == 4)

/-- A long operation's slot opens, running (R272, cause 0 of R259). -/
def State.lopOpen (s : State) (k h opc idx : Nat) : State :=
  let s := s.put R.LOP_ID_HANDLE h k
  let s := s.put R.LOP_ID_STATUS 1 k
  let s := s.put R.LOP_OBJ_OPCODE opc k
  let s := s.put R.LOP_OBJ_INDEX idx k
  let s := s.put R.LOP_PROG_REASON 0 k
  let s := s.put R.LOP_PROG_PERMILLE 0 k
  let s := s.put R.LOP_T_START s.now k
  let s := s.put R.LOP_T_END 0 k
  (s.put H.LOP_NEXT h).cause 0

/-- A start request: with no slot free it fails NO_HANDLE; otherwise `f` starts the operation in its slot and the
request completes DONE with the handle (R272). -/
def State.lopStart (s : State) (mb opc idx : Nat) (f : State → Nat → State) (res : List Nat := []) : State :=
  match s.lopSlot with
  | none => s.fail mb 0x0009
  | some k => (f (s.lopOpen k s.lopHandle opc idx) k).complete mb 2 0 s.lopHandle res

/-- A long operation reaches a final status; requests waiting on it are answered (R272, R274). -/
def State.lopEnd (s : State) (k status reason : Nat) : State :=
  if s.get R.LOP_ID_STATUS k = 1 ∨ s.get R.LOP_ID_STATUS k = 4 then
    let s := s.put R.LOP_ID_STATUS status k
    let s := s.put R.LOP_PROG_REASON reason k
    let s := s.put R.LOP_T_END s.now k
    let s := s.when (status == 2) fun s => s.put R.LOP_PROG_PERMILLE 1000 k
    let s := s.cause 0
    let s := if status = 5 then s.doneAll 0x0005 k else s.failAll 0x0005 k 0x000D
    s.failAll 0x0003 k 0x000D
  else s

/-- The long operation of an opcode and index, if one runs, reaches a final status. -/
def State.lopFinish (s : State) (opc idx status reason : Nat) : State :=
  match s.lopOf opc idx with
  | none => s
  | some k => s.lopEnd k status reason

/-- A long operation reaches SUSPENDED; a pending suspend is DONE (R274). -/
def State.lopSuspended (s : State) (k : Nat) : State :=
  ((s.put R.LOP_ID_STATUS 4 k).cause 0).doneAll 0x0003 k

/-- Progress of a long operation, 0 to 1000 (R272). -/
def State.lopProgress (s : State) (k n d : Nat) : State :=
  s.put R.LOP_PROG_PERMILLE (if d = 0 then 1000 else min 1000 (1000 * n / d)) k

end Sys2Proof.Machine
end

