-- ==== Sys2Proof/Machine/LocalOps.lean ====
section
/-! DEFINITION. Time of the cycle, which port or slot an axis is bound to, and references landing at local ports
(R305, R331, R334). -/

namespace Sys2Proof.Machine

/-- The cycle time of a code of R213, ns. -/
def cycNs (code : Nat) : Nat := 15625 * 2 ^ min code 4

/-- The cycle in ns of a ring. -/
def State.ringCyc (s : State) (r : Nat) : Nat := cycNs (s.get R.NRT_RCFG_CYC r)

/-- The base period in ns: the cycle of Ring A, or of Ring B where only Ring B is enabled. -/
def State.baseNs (s : State) : Nat :=
  if !s.on R.NRT_RCFG_EN 0 && s.on R.NRT_RCFG_EN 1 then s.ringCyc 1 else s.ringCyc 0

/-- The divider of a code: 1, 2, 4 or 8 (R137). -/
def divOf (code : Nat) : Nat := 2 ^ (code % 4)

/-- A timer that runs out at time `t` has run out: no later than before the next boundary, which is as near as the steps of the clock
between boundaries need to come. -/
def State.timeUp (s : State) (t : Nat) : Bool := decide (t < s.get H.BND_T + s.baseNs) || decide (t ≤ s.now)

/-- The period of an axis, ns (R15). -/
def State.axPeriod (s : State) (a : Nat) : Nat := s.baseNs * divOf (s.get H.AX_DIV a)

/-- Cycle `n` is one in which the axis takes a sample (R140, R142). -/
def State.axDue (s : State) (a n : Nat) : Bool :=
  n % divOf (s.get H.AX_DIV a) == s.get H.AX_PHASE a % divOf (s.get H.AX_DIV a)

/-- The state code of an axis (R40). -/
def State.axSt (s : State) (a : Nat) : Nat := s.get R.AXS_STATUS_STATE a

/-- The kind code of an axis (R39). -/
def State.axKind (s : State) (a : Nat) : Nat := s.get R.AXS_STATUS_KIND a

/-- The configured axes. -/
def State.axes (s : State) : List Nat := (List.range 256).filter fun a => s.axSt a != 0

/-- The axis bound to a binding code of R280, if any. -/
def State.axisOf (s : State) (bind : Nat) : Option Nat :=
  (List.range 256).find? fun a => s.axSt a != 0 && s.get H.AX_BIND a == bind

/-- The axis bound to a static slot of a ring, if any. -/
def State.axisOfSlot (s : State) (r slot : Nat) : Option Nat :=
  (List.range 256).find? fun a => s.axSt a != 0 && s.get H.AX_BIND a == r && s.get H.AX_SLOT a == slot

/-- The axis is on a ring. -/
def State.isNirte (s : State) (a : Nat) : Bool := s.get H.AX_BIND a < 2

/-- The drive port of an axis. -/
def State.dpOf (s : State) (a : Nat) : Option Nat :=
  if 0x10 ≤ s.get H.AX_BIND a ∧ s.get H.AX_BIND a < 0x18 then some (s.get H.AX_BIND a - 0x10) else none

/-- The pulse-train port of an axis. -/
def State.ptOf (s : State) (a : Nat) : Option Nat :=
  if 0x20 ≤ s.get H.AX_BIND a ∧ s.get H.AX_BIND a < 0x30 then some (s.get H.AX_BIND a - 0x20) else none

/-- The encoder channel bound to the axis's port, if any (R308). A channel number of 8 or more means none. -/
def State.encOf (s : State) (a : Nat) : Option Nat :=
  match s.dpOf a with
  | some p => if s.get R.DRV_CFG_ENC p < 8 then some (s.get R.DRV_CFG_ENC p) else none
  | none =>
    match s.ptOf a with
    | some p => if s.get R.PTG_CFG_ENC p < 8 then some (s.get R.PTG_CFG_ENC p) else none
    | none => none

/-- An event waits for the axis's next boundary (R41). -/
def State.post (s : State) (a : Nat) (k : AxKind) : State :=
  { s with axEvs := s.axEvs ++ [{ axis := a, kind := k }] }

/-- The injections running on a detector and instance have been applied once more (R458, R462). -/
def State.injFired (s : State) (det inst : Nat) : State :=
  s.each (s.injs.filter fun x => x.det == det && x.inst == inst && s.get R.INT_INJ_STAT_STATE x.slot == 2)
    fun s x => s.put R.INT_INJ_FIRED (s.get R.INT_INJ_FIRED x.slot + 1) x.slot

/-- The place of container `i` of a ring's frame as this unit fixes it (R222). -/
def contAt (r i : Nat) : Nat := 0x5E0C0000 + 0x1000 * r + 16 * i

/-- The place of a trace page (R97, R263). -/
def pageAddr (p : Nat) : Nat := 0x40108000 + 0x1000 * p

/-- A record of a sweep is written into its buffer (R99, R263). -/
def State.sweepRec (s : State) (c : Nat) (ws : List Nat) : State :=
  let base := pageAddr (s.get H.SW_PAGE c - 1)
  let n := s.get H.SW_REC c
  if s.get H.SW_LEN c ≤ n then s
  else ((s.setBytes (base + 0x40 + 16 * n) (ofWords ws)).store base 4 (n + 1)).put H.SW_REC (n + 1) c

/-- The record of a sample that overran: every response reads 0x8000_0000 (R99). -/
def State.sweepMissed (s : State) (a : Nat) : State :=
  s.each (List.range 32) fun s c =>
    s.when (s.on H.SW_ON c && s.on H.SW_RUN c && s.get H.SW_AXIS c == a) fun s =>
      (s.sweepRec c [s.get H.SW_V c 0, 0x80000000, 0x80000000, 0x80000000]).put H.SW_K
        (max (s.get H.SW_K c) (s.get H.SW_REC c)) c

/-- The end of the period of the axis's sample whose feedback boundary is `fb`. -/
def State.periodEnd (s : State) (a fb : Nat) : Nat := fb + s.axPeriod a

/-- The rate of a step generator at a landing (R334): the counts still to go over the time to the next boundary,
plus the correction. -/
def stepRate (target n rcorr tl tb : Nat) : Int :=
  divRound (sext 32 (trunc 32 ((target : Int) - (n : Int))) * 1000000000) (max 1 (tb - tl)) + sext 32 rcorr

/-- The greatest rate of a pulse-train port, steps/s (R335). -/
def State.ptMax (s : State) (p : Nat) : Nat :=
  400000000 / max 40 (s.get R.PTG_WIDTH p + s.get R.PTG_LOW p)

/-- The time of the next step of a pulse-train port, in 2^(−16) ns: an interval after the last one, but not before the landing, and
after a change of DIR no sooner than DSETUP (R334, R335). -/
def State.ptStepAt (s : State) (p : Nat) : Nat :=
  let t := max (65536 * s.get H.PT_TL p) (s.get H.PT_NS p + 65536000000000 / (s.geti R.PTG_RATE p).natAbs)
  if s.on H.PT_DIRP p then max t (s.get H.PT_DT p + 163840 * s.get R.PTG_DSETUP p) else t

/-- References land at a pulse-train port at time `t`; the next boundary is `tb` (R334). -/
def State.landPt (s : State) (p : Nat) (ws : List Nat) (t tb : Nat) : State :=
  let s := s.each (List.range 4) fun s k => s.put H.PT_REF (ws.getD k 0) p k
  let r := stepRate (ws.getD 0 0) (s.get R.PTG_COUNT p % 2 ^ 32) (ws.getD 1 0) t tb
  let m : Int := s.ptMax p
  let above := decide (m < r) || decide (r < -m)
  let r := clampI (-m) m r
  let s := s.puti R.PTG_RATE r p
  let s := s.put R.PTG_STAT_LAG (b2n above) p
  let s := s.when above fun s => s.incSat R.PTG_CNT_CLAMP p
  let turn := r != 0 && decide (r < 0) != s.on R.PTG_STAT_DIR p
  let s := s.when (turn && !s.on H.PT_DIRP p) fun s =>
    s.put H.PT_DT (max (65536 * t) (s.get H.PT_NS p + 163840 * s.get R.PTG_DHOLD p)) p
  let s := s.put H.PT_DIRP (b2n turn) p
  let s := s.put H.PT_TL t p
  s.put H.PT_LANDED 1 p

/-- An offset average begins (R316). -/
def State.ofsStart (s : State) (p : Nat) : State :=
  (s.each (List.range 4) fun s j => s.put H.DP_CALS 0 p j).put H.DP_CALN 0 p

/-- The calibration step that comes next begins, or the one in progress begins again (R336). -/
def State.calStep (s : State) (p : Nat) : State :=
  (((((s.ofsStart p).put H.DP_CALT0 s.now p).put H.DP_STN 0 p).put H.DP_PPH 0 p).put H.DP_SVEC 0 p).put H.DP_PLS 0 p

/-- A drive port is ready for torque: its stage runs, the bus voltage is in range, and no hardware turn-off stands
(R306, R316, R329, R331). -/
def State.dpReady (s : State) (p : Nat) : Bool :=
  s.get H.DP_START p == 4 && s.on R.DRV_STAT_CAL_OK p && !s.on R.DRV_STAT_UV p && !s.on R.DRV_STAT_HWOFF p

/-- RDY of a drive port follows its conditions. -/
def State.rdyUp (s : State) (p : Nat) : State := s.put R.DRV_STAT_RDY (b2n (s.dpReady p)) p

/-- The DRV domain is off or in reset: every output of the ports is held low, and nothing lands (R303). -/
def State.drvOff (s : State) : Bool := s.domDown 10

/-- A three-phase port, or a two-phase one, goes to a stage of its start; its legs have just taken the stage's states (R316 to R318). -/
def State.stageAt (s : State) (p k : Nat) : State :=
  let s := s.each (List.range 3) fun s j => s.put H.DP_LEGN 0 p j
  ((((s.put H.DP_START k p).put H.DP_STN 0 p).put H.DP_PPH 0 p).put H.DP_SVEC 0 p).put H.DP_SMP 0 p

/-- Counts of a microstep at a resolution code (R321, R322). -/
def microCounts (res : Nat) : Nat := [1, 4, 16, 64, 128, 256].getD res 256

/-- The resolution that the speed calls for: the next coarser at its threshold, back below the hysteresis (R322). -/
def State.resWanted (s : State) (p : Nat) : Nat :=
  let r := s.get R.DRV_STAT_RES p
  let v := (s.geti H.DP_RATE p).natAbs
  if r < 5 ∧ 256 * s.get R.DRV_ST_THR p r ≤ v then r + 1
  else if 0 < r ∧ 100 * v < 256 * s.get R.DRV_ST_THR p (r - 1) * (100 - s.get R.DRV_ST_HYST p) then r - 1
  else r

/-- The resolution changes at an index that is a multiple of the new microstep (R322). -/
def State.resChange (s : State) (p : Nat) : State :=
  let r := s.resWanted p
  if s.get R.DRV_MSTEP p % microCounts r = 0 then s.put R.DRV_STAT_RES r p else s

/-- The resolution follows a new speed as far as the index admits (R322), but not at the step of a stall (R324). -/
def State.resSettle (s : State) (p : Nat) : State :=
  if s.on H.DP_STNOW p then s else s.each (List.range 5) fun s _ => s.resChange p

/-- The rate of a two-phase port's step generator changes (R321, R322). -/
def State.rateTo (s : State) (p : Nat) (r : Int) : State :=
  ((s.put H.DP_FALL (b2n (decide (r.natAbs < (s.geti H.DP_RATE p).natAbs))) p).puti H.DP_RATE r p).resSettle p

/-- The references of a drive port take effect (R305): the gates' enable, the brake pin, the index arming, and in
two-phase mode the rate of the step generator. An index latch is armed only while IDXARM is 1 (R309). -/
def State.applyDp (s : State) (p : Nat) (ws : List Nat) (t tb : Nat) : State :=
  let s := s.each (List.range 4) fun s k => s.put H.DP_REF (ws.getD k 0) p k
  let c := ws.getD 3 0
  let arm := bit c 3 && !s.on H.DP_IDXARM p
  let e := s.get R.DRV_CFG_ENC p
  let s := s.when (bit c 0 && !s.on H.DP_EN p) fun s => s.each (List.range 3) fun s j => s.put H.DP_LEGN 0 p j
  let s := (s.put H.DP_EN (b2n (bit c 0)) p).put H.DP_BRK (b2n (bit c 1)) p
  let s := s.put H.DP_IDXARM (b2n (bit c 3)) p
  let s := s.when (decide (e < 8) && !bit c 3) fun s => s.put H.ENC_ARM 0 e
  let s := s.when (arm && decide (e < 8)) fun s => (s.put H.ENC_ARM 1 e).put R.DRV_ENC_STAT_IDXV 0 e
  let s := s.when (s.get R.DRV_CFG_MODE p == 2) fun s =>
    s.rateTo p (stepRate (ws.getD 0 0) (s.get R.DRV_MSTEP p) (ws.getD 1 0) t tb)
  ((s.put H.DP_TL t p).put H.DP_LANDED 1 p).rdyUp p

/-- References land at a drive port. After a hardware turn-off they are held until a fault reset of the axis has
come and a reference with EN at 0 has been followed by one with EN at 1 (R331, R332). -/
def State.landDp (s : State) (p : Nat) (ws : List Nat) (t tb : Nat) : State :=
  if s.on R.DRV_STAT_HWOFF p then
    if bit (ws.getD 3 0) 0 then
      if s.on H.DP_FR p && s.on H.DP_EN0 p then
        (((s.put R.DRV_STAT_HWOFF 0 p).put H.DP_FR 0 p).put H.DP_EN0 0 p).applyDp p ws t tb
      else s
    else s.put H.DP_EN0 1 p
  else s.applyDp p ws t tb

/-- The four words of a local axis's delivery land at its port (R305); a port of a domain that is off takes none (R303). -/
def State.landRefs (s : State) (a : Nat) (ws : List Nat) (fb : Nat) : State :=
  if s.drvOff then s
  else
  match s.dpOf a with
  | some p => s.landDp p ws s.now (s.periodEnd a fb)
  | none =>
    match s.ptOf a with
    | some p => s.landPt p ws s.now (s.periodEnd a fb)
    | none => s

/-- A limit of the port holds back the command that has just landed for an axis (R57, R315, R327, R334): the step rate at a pulse-train
port, half torque or current while Ellipses last, motoring
only or the holding current during a chopper fault. That these are the command limits of R57 is the
model's reading (log entry 244). -/
def State.portLimits (s : State) (a : Nat) : Bool :=
  match s.dpOf a with
  | some p =>
    let q := s.geti H.DP_REF p 0
    let i := if s.get H.DP_REF p 2 = 0 then s.get R.DRV_ST_IRUN p else s.get H.DP_REF p 2
    if s.get R.DRV_CFG_MODE p = 2 then
      (s.on R.DRV_STAT_TLIM_ELL p && decide (0x40000000 < i)) ||
        (s.on R.DRV_STAT_TLIM_CHOP p && s.on H.DP_FALL p && decide (s.get R.DRV_ST_IHOLD p < i))
    else s.get R.DRV_CFG_MODE p == 1 &&
      ((s.on R.DRV_STAT_TLIM_ELL p && decide (0x40000000 < q.natAbs)) ||
        (s.on R.DRV_STAT_TLIM_CHOP p && decide (q * s.geti H.DP_SPEED p < 0)))
  | none =>
    match s.ptOf a with
    | some p => s.on R.PTG_STAT_LAG p
    | none => false

/-! ### Bit errors in the arrays (R446, R448) -/

/-- How many bits of a word of an array are in error. -/
def State.errBits (s : State) (arr off : Nat) : Nat :=
  match s.arrErrs.find? fun x => x.arr == arr && x.off == off with
  | some x => x.bits
  | none => 0

/-- The word of an array holds good bits again. -/
def State.errFix (s : State) (arr off : Nat) : State :=
  { s with arrErrs := s.arrErrs.filter fun x => !(x.arr == arr && x.off == off) }

/-- A single-bit error found by a read: counted, its offset kept, reported with the axis it was read for, and written back
(R25, R446). -/
def State.errSingle (s : State) (arr off : Nat) (ax : Nat := 0xFFFF) : State :=
  (((s.incSat R.INT_ARR_CE arr).put R.INT_ARR_LAST_CE off arr).report 0x01 arr ax off).errFix arr off

/-- A double-bit error found by a read: counted, its offset kept, reported with the axis it was read for (R24, R25,
R448). -/
def State.errDouble (s : State) (arr off : Nat) (ax : Nat := 0xFFFF) : State :=
  ((s.incSat R.INT_ARR_UE arr).put R.INT_ARR_LAST_UE off arr).report 0x02 arr ax off

/-- Words of an array written from an offset up: what was flipped in them is gone (R446, R459). -/
def State.errWrote (s : State) (arr off n : Nat) : State :=
  { s with arrErrs := s.arrErrs.filter fun x => !(x.arr == arr && decide (off < x.off + 8) && decide (x.off < off + n)) }

end Sys2Proof.Machine
end

