-- ==== Sys2Proof/Machine/RegView.lean ====
section
/-! DEFINITION. Register fields seen as 32-bit words: the word at a byte address, reads and writes of words,
the clamping of written values (R275), and the two halves of 64-bit registers (R10). -/

namespace Sys2Proof.Machine

/-- The instance and element of a field whose place is byte address `b`. -/
def fldAt (f : Fld) (b : Nat) : Option (Nat × Nat) :=
  if b < f.base then none
  else
    let d := b - f.base
    let i := if f.stride = 0 then 0 else d / f.stride
    let r := d - f.stride * i
    let j := if f.step = 0 then 0 else r / f.step
    if r = f.step * j ∧ i < f.n ∧ j < f.m then some (i, j) else none

/-- The part of the word at `w` that one field supplies, byte place `k` of the word. -/
def State.fldPart (s : State) (f : Fld) (w k : Nat) : Nat :=
  match fldAt f (w + k) with
  | none => 0
  | some (i, j) => s.get f i j * 2 ^ (f.lo + 8 * k) % 2 ^ 32

/-- The part of the word at `w` that a field starting in the word below supplies. -/
def State.fldHigh (s : State) (f : Fld) (w : Nat) : Nat :=
  if f.lo + f.width ≤ 32 ∨ w < 4 then 0
  else
    match fldAt f (w - 4) with
    | none => 0
    | some (i, j) => s.get f i j * 2 ^ f.lo / 2 ^ 32 % 2 ^ 32

/-- What one field supplies of the word at `w`; a WO field reads 0 (R11). -/
def State.fldWord (s : State) (f : Fld) (w : Nat) : Nat :=
  if f.acc = .WO then 0
  else s.fldPart f w 0 ||| s.fldPart f w 1 ||| s.fldPart f w 2 ||| s.fldPart f w 3 ||| s.fldHigh f w

/-- The word at `w` made of a list of fields; bits no field holds read 0 (R14). -/
def State.word (s : State) (fs : List Fld) (w : Nat) : Nat := fs.foldl (fun acc f => acc ||| s.fldWord f w) 0

/-- The fields of a list that hold bits of the word at `w`. -/
def fieldsOf (fs : List Fld) (w : Nat) : List Fld :=
  fs.filter fun f =>
    (fldAt f w).isSome || (fldAt f (w + 1)).isSome || (fldAt f (w + 2)).isSome || (fldAt f (w + 3)).isSome ||
    (decide (32 < f.lo + f.width) && decide (4 ≤ w) && (fldAt f (w - 4)).isSome)

/-- A value after clamping (R275). -/
def applyFix (fix : List Fix) (v : Nat) : Nat :=
  fix.foldl (fun v x =>
    match x with
    | .clamp lo hi => clampN lo hi v
    | .code lo hi val => if lo ≤ v ∧ v ≤ hi then val else v) v

/-- A field written and clamped (R275). -/
def State.write (s : State) (f : Fld) (v : Nat) (i : Nat := 0) (j : Nat := 0) : State :=
  s.put f (applyFix f.fix (v % 2 ^ f.width)) i j

/-- The bits of the word at `w` written into one field, unclamped: at byte place `k`. -/
def State.putPart (s : State) (f : Fld) (w k v : Nat) : State :=
  match fldAt f (w + k) with
  | none => s
  | some (i, j) =>
    if 32 < f.lo + f.width then
      s.put f (s.get f i j / 2 ^ (32 - f.lo) * 2 ^ (32 - f.lo) + v / 2 ^ f.lo) i j
    else s.put f (v / 2 ^ (f.lo + 8 * k)) i j

/-- The bits of the word at `w` written into a field that starts in the word below, unclamped. -/
def State.putHigh (s : State) (f : Fld) (w v : Nat) : State :=
  if f.lo + f.width ≤ 32 ∨ w < 4 then s
  else
    match fldAt f (w - 4) with
    | none => s
    | some (i, j) => s.put f (s.get f i j % 2 ^ (32 - f.lo) + v * 2 ^ (32 - f.lo)) i j

/-- One field takes its bits of a word, unclamped. -/
def State.putWord1 (s : State) (f : Fld) (w v : Nat) : State :=
  ((((s.putPart f w 0 v).putPart f w 1 v).putPart f w 2 v).putPart f w 3 v).putHigh f w v

/-- The fields of a list take their bits of the word at `w`, unclamped. -/
def State.putWord (s : State) (fs : List Fld) (w v : Nat) : State :=
  s.each (fieldsOf fs w) fun s f => s.putWord1 f w v

/-- One field of instance `i` brought into its range, every element (R275). -/
def State.clampFld (s : State) (f : Fld) (i : Nat) : State :=
  if f.fix.isEmpty then s
  else s.each (List.range f.m) fun s j => s.put f (applyFix f.fix (s.get f i j)) i j

/-- The fields of a list brought into their ranges, for one instance (R275). -/
def State.clampAll (s : State) (fs : List Fld) (i : Nat) : State := s.each fs fun s f => s.clampFld f i

/-- Words from a byte address up. -/
def State.words (s : State) (fs : List Fld) (w n : Nat) : List Nat :=
  (List.range n).map fun k => s.word fs (w + 4 * k)

/-- Words written from a byte address up, unclamped. -/
def State.putWords (s : State) (fs : List Fld) (w : Nat) : List Nat → State
  | [] => s
  | v :: t => (s.putWord fs w v).putWords fs (w + 4) t

/-! ### Records -/

/-- The place of axis record `a` (R101). -/
def axRec (a : Nat) : Nat := 0x10000000 + 0x1000 * a

/-- The place of group record `g` (R89). -/
def grRec (g : Nat) : Nat := 0x18000000 + 0x200 * g

/-- The place of learning-table header `t` (R95). -/
def lfRec (t : Nat) : Nat := 0x19000000 + 0x40 * t

/-- The fields of a list that host software may write. -/
def rwFields (fs : List Fld) : List Fld := fs.filter fun f => f.acc == .RW

/-- The word at an offset of an axis record. -/
def State.recWord (s : State) (a off : Nat) : Nat := s.word R.axsFields (axRec a + off)

/-- Every field of an axis record at its reset value (R101). -/
def State.recReset (s : State) (a : Nat) : State := s.resetRange (axRec a) (axRec a + 0x1000)

/-! ### The PCIe endpoint -/

/-- A word of the endpoint's configuration space (R252): identity, class code 0x11_8000 with HIF_ID.REV, BAR0 of 16 MiB, BAR2 and
BAR3 of 64 MiB, the status of advanced error reporting. No command reads it; the places of the words are those of the PCI Express
Base Specification (PRESUMED, log entry 280). -/
def State.pciWord (s : State) (off : Nat) : Nat :=
  match off with
  | 0x00 => s.get R.HIF_PCI_ID
  | 0x08 => 0x118000 * 256 + s.get R.HIF_ID_REV
  | 0x10 => s.get H.PCI_BAR0 / 0x1000000 * 0x1000000
  | 0x18 => s.get H.PCI_BAR2 % 2 ^ 32 / 0x4000000 * 0x4000000 + 0xC
  | 0x1C => s.get H.PCI_BAR2 / 2 ^ 32
  | 0x104 => s.get H.PCI_AER 0
  | 0x110 => s.get H.PCI_AER 1
  | _ => 0

end Sys2Proof.Machine
end

