-- ==== Sys2Proof/Machine/SchedOps.lean ====
section
/-! DEFINITION. Operations of the clause scheduler (Clause Scheduling): engine states, the decision trace, release,
deadlines, dispatch, completion, overruns, and how an engine leaves service. -/

namespace Sys2Proof.Machine

/-! ### Engines -/

/-- The state of an engine in SCH_ENG_STATE: 0 idle, 1 running, 2 self-test, 3 quarantined or off (R163). -/
def State.engSt (s : State) (e : Nat) : Nat := bits (s.get R.SCH_ENG_STATE) (2 * e) 2

/-- The state of an engine set. -/
def State.setEngSt (s : State) (e v : Nat) : State :=
  s.put R.SCH_ENG_STATE (s.get R.SCH_ENG_STATE + v * 4 ^ e - s.engSt e * 4 ^ e)

/-- The power domain of the engine's quad is on and out of reset (R26). -/
def State.engPowered (s : State) (e : Nat) : Bool :=
  bit (s.get R.PWR_DOM_ON) (6 + e / 4) && !bit (s.get R.PWR_DOM_RST) (6 + e / 4)

/-- An engine that dispatch may choose (R148, R107, R484). -/
def State.engIdle (s : State) (e : Nat) : Bool :=
  s.engSt e == 0 && s.engPowered e && !s.on H.ENG_OWN e && !s.on H.ENG_HALT e

/-- The instance running on an engine. -/
def State.runInst (s : State) (e : Nat) : Option Inst := s.insts.find? fun x => x.st == 1 && x.eng == e

/-- The instances with one replaced, by its number. -/
def setInst (l : List Inst) (x : Inst) : List Inst := l.map fun y => if y.id = x.id then x else y

/-- The state with an instance replaced. -/
def State.putInst (s : State) (x : Inst) : State := { s with insts := setInst s.insts x }

/-- An instance ends: it leaves the list and PEND counts down (R137). -/
def State.dropInst (s : State) (x : Inst) : State :=
  let s := { s with insts := s.insts.filter fun y => y.id != x.id,
                    saved := s.saved.filter fun y => y.inst != x.id }
  s.put R.SCH_DESC_PEND (s.get R.SCH_DESC_PEND x.desc - 1) x.desc

/-! ### Decision trace -/

/-- Nanoseconds since the latest cycle boundary. -/
def State.tofs (s : State) : Nat := s.now - s.get H.BND_T

/-- A record enters the buffer of 32; one more is lost and counted; a frozen trace takes and counts none (R159,
R162). A record whose type triggers, with ARM at 1, brings a TRIGGER record after it. -/
def State.trcPut (s : State) (r : Nat) : State :=
  if s.on R.SCH_STATUS_TRC_FROZEN then s
  else if 32 ≤ s.trcBuf.length then s.incSat R.SCH_CNT_TRCLOST
  else { s with trcBuf := s.trcBuf ++ [r] }

/-- The TRIGGER record (R160, R162). Where the buffer is full it is lost like any record, and the trace is not triggered. -/
def State.trcTrigger (s : State) : State :=
  (s.put H.TRC_TRIG (b2n (decide (s.trcBuf.length < 32)))).trcPut
    (10 * 2 ^ 60 + s.get H.BND_N % 2 ^ 36 * 2 ^ 24 + s.tofs % 2 ^ 24)

/-- The trace is armed, has not been triggered, and is not frozen (R162). -/
def State.trcArmed (s : State) : Bool :=
  s.on R.SCH_TRC_CTL_ARM && !s.on H.TRC_TRIG && !s.on R.SCH_STATUS_TRC_FROZEN

/-- A record of a type is written, with the trigger it may raise. -/
def State.trcRec (s : State) (ty r : Nat) : State :=
  (s.trcPut r).when (s.trcArmed && bit (s.get R.SCH_TRC_TRIG) ty && decide (s.trcBuf.length < 32)) fun s => s.trcTrigger

/-- A record about a clause (R160): type, engine where one is concerned, descriptor, priority, INFO, AUX. -/
def State.trc (s : State) (ty : Nat) (eng : Option Nat) (desc prio info aux : Nat) : State :=
  s.trcRec ty
    (ty * 2 ^ 60 + (eng.getD 0) % 16 * 2 ^ 56 + desc % 1024 * 2 ^ 46 + prio % 8 * 2 ^ 43 + info % 8 * 2 ^ 40 +
      b2n eng.isSome * 2 ^ 39 + aux % 2 ^ 15 * 2 ^ 24 + s.tofs % 2 ^ 24)

/-- The BOUNDARY record (R160). -/
def State.trcBoundary (s : State) : State :=
  s.trcRec 9 (9 * 2 ^ 60 + s.get H.BND_N % 2 ^ 36 * 2 ^ 24)

/-! ### Load and service -/

/-- Descriptors released by a completion: NEXT and its SIB chain (R143). -/
def State.chainFrom (s : State) : Nat → Nat → List Nat
  | 0, _ => []
  | n + 1, d => d :: if s.on R.SCH_DESC_SIB_EN d then s.chainFrom n (s.get R.SCH_DESC_SIB d) else []

/-- The descriptors that a completion of `d` counts down (R143). -/
def State.chain (s : State) (d : Nat) : List Nat :=
  if s.on R.SCH_DESC_NEXT_EN d then s.chainFrom 1024 (s.get R.SCH_DESC_NEXT d) else []

/-- The enabled descriptors. -/
def State.enabled (s : State) : List Nat := (List.range 1024).filter fun d => s.on R.SCH_DESC_EN d

/-- How many engines are in service. -/
def State.nService (s : State) : Nat := popCount 16 (s.get R.SCH_STATUS_ENG_INSVC)

/-- A bit field of word `k` of a descriptor as it will be once the changes of `pend` apply; `f` is the field that holds it. -/
def State.will (s : State) (pend : List (Nat × List Nat)) (d k lo w : Nat) (f : Fld) : Nat :=
  match pend.find? fun p => p.1 == d with
  | some p => bits (p.2.getD k 0) lo w
  | none => s.get f d

/-- The descriptors that will be enabled. -/
def State.willEnabled (s : State) (pend : List (Nat × List Nat)) : List Nat :=
  (List.range 1024).filter fun d => s.will pend d 0 22 1 R.SCH_DESC_EN != 0

/-- The SIB chain from a descriptor, as it will be (R143). -/
def State.willFrom (s : State) (pend : List (Nat × List Nat)) : Nat → Nat → List Nat
  | 0, _ => []
  | n + 1, d =>
    d :: if s.will pend d 4 26 1 R.SCH_DESC_SIB_EN != 0 then s.willFrom pend n (s.will pend d 4 16 10 R.SCH_DESC_SIB) else []

/-- The descriptors that a completion of `d` will count down (R143). -/
def State.willChain (s : State) (pend : List (Nat × List Nat)) (d : Nat) : List Nat :=
  if s.will pend d 4 10 1 R.SCH_DESC_NEXT_EN != 0 then s.willFrom pend 1024 (s.will pend d 4 0 10 R.SCH_DESC_NEXT) else []

/-- The divider that counts for the load of a descriptor: for REL = 2, that of the clause that releases it (R157). -/
def State.willDiv (s : State) (pend : List (Nat × List Nat)) (ds : List Nat) : Nat → Nat → Nat
  | 0, d => divOf (s.will pend d 2 16 2 R.SCH_DESC_DIV)
  | n + 1, d =>
    if s.will pend d 0 20 2 R.SCH_DESC_REL = 2 then
      match ds.find? fun r => (s.willChain pend r).contains d with
      | some r => s.willDiv pend ds n r
      | none => divOf (s.will pend d 2 16 2 R.SCH_DESC_DIV)
    else divOf (s.will pend d 2 16 2 R.SCH_DESC_DIV)

/-- The sum of R157 with the changes of `pend` applied: BUDGET × 2 ns ÷ divider over every descriptor that will be enabled,
in eighths of a nanosecond. -/
def State.loadSum (s : State) (pend : List (Nat × List Nat)) : Nat :=
  let ds := s.willEnabled pend
  ds.foldl (fun acc d => acc + s.will pend d 3 0 16 R.SCH_DESC_BUDGET * 2 * (8 / s.willDiv pend ds 1024 d)) 0

/-- A sum puts U above SCH_CFG.ADMIT (R157); with no engine in service any load does. -/
def State.loadOver (s : State) (sum : Nat) : Bool :=
  if s.nService = 0 then sum != 0 else decide (s.get R.SCH_CFG_ADMIT * 8 * s.baseNs * s.nService < 100 * sum)

/-- A request whose changes would make the sum `new` where it is `old` would raise U above ADMIT (R157). -/
def State.loadRefuses (s : State) (old new : Nat) : Bool := s.loadOver new && decide (old < new)

/-- SCH_ADMITTED and SCH_STATUS.OVERLOAD brought up to date (R158). -/
def State.loadUpdate (s : State) : State :=
  let sum := s.loadSum []
  let u := if s.nService = 0 then 1023 else min 1023 (1000 * sum / (8 * s.baseNs * s.nService))
  (s.put R.SCH_ADMITTED u).put R.SCH_STATUS_OVERLOAD (b2n (s.loadOver sum))

/-- An engine leaves or enters service (R135, R158). -/
def State.setService (s : State) (e : Nat) (inSvc : Bool) : State :=
  (if inSvc then s.orBit R.SCH_STATUS_ENG_INSVC e else s.clearBit R.SCH_STATUS_ENG_INSVC e).loadUpdate

/-- An engine is offered to the dispatcher again, but not while it is quarantined; one whose self-test has not ended goes on
with it (R135). -/
def State.engBack (s : State) (e : Nat) : State :=
  if s.on H.ENG_QR e then s
  else if s.engSt e = 2 ∨ s.on H.ENG_TST e then (s.put H.ENG_TST 0 e).setEngSt e 2
  else (s.setEngSt e 0).setService e true

/-- The affinity of every descriptor for an engine is no longer valid, and the engine's record slots are empty
(R148, R156). -/
def State.engForget (s : State) (e : Nat) : State :=
  let s := s.each (List.range 1024) fun s d =>
    s.when (s.on R.SCH_DESC_AFFV d && s.get R.SCH_DESC_AFF d == e) fun s => s.put R.SCH_DESC_AFFV 0 d
  let s := s.each (List.range 32) fun s k => s.put H.ENG_SLOT 0 e k
  { s with slotW := s.slotW.filter fun w => w.eng != e }

/-! ### Records and slots -/

/-- The code of a descriptor's record in ENG_SLOT. -/
def State.descRec (s : State) (d : Nat) : Nat :=
  if s.get R.SCH_DESC_RTYPE d = 0 then 1 + s.get R.SCH_DESC_REC d
  else if s.get R.SCH_DESC_RTYPE d = 1 then 0x200 + s.get R.SCH_DESC_REC d
  else 0

/-- The code in ENG_SLOT of the record an instance is for (R136). -/
def Inst.rcode (x : Inst) : Nat :=
  if x.rtype = 0 then 1 + x.recd else if x.rtype = 1 then 0x200 + x.recd else 0

/-- The code of what an instance takes its configuration from: its record, or the header of the learning table it updates
(R38). -/
def Inst.ccode (x : Inst) : Nat := if x.ty = 6 then 0x400 + x.recd else x.rcode

/-- The axis an instance is for; 0xFFFF where it is for none (R25). -/
def Inst.axisNo (x : Inst) : Nat := if x.rtype = 0 then x.recd else 0xFFFF

/-- The slot of an engine that holds a record. -/
def State.slotOf (s : State) (e rec : Nat) : Option Nat :=
  (List.range 32).find? fun k => rec != 0 && s.get H.ENG_SLOT e k == rec

/-- Records held by pre-empted clauses of an engine. -/
def State.heldRecs (s : State) (e : Nat) : List Nat :=
  (s.insts.filter fun x => x.st == 2 && x.eng == e).map Inst.rcode

/-- The slot a load goes to: an empty one, else the least recently used that no pre-empted clause holds (R106). -/
def State.victim (s : State) (e : Nat) : Nat :=
  let ok := (List.range 32).filter fun k => !(s.heldRecs e).contains (s.get H.ENG_SLOT e k) || s.get H.ENG_SLOT e k == 0
  match ok.find? fun k => s.get H.ENG_SLOT e k == 0 with
  | some k => k
  | none => ok.foldl (fun b k => if s.get H.ENG_SLOT_T e k < s.get H.ENG_SLOT_T e b then k else b) (ok.headD 0)

/-- A slot of an engine is emptied, with the words written in it (R128, R133). The record is no longer resident there: AFFV
of its descriptors clears (R137, R148). -/
def State.slotDrop (s : State) (e k : Nat) : State :=
  let r := s.get H.ENG_SLOT e k
  let s := if r = 0 then s
    else s.each (List.range 1024) fun s d =>
      s.when (s.on R.SCH_DESC_AFFV d && s.get R.SCH_DESC_AFF d == e && s.descRec d == r) fun s => s.put R.SCH_DESC_AFFV 0 d
  let s := s.put H.ENG_SLOT 0 e k
  let x := 0x4000 + 0x280 * k
  let y := 0x4000 + 0x180 * k
  { s with slotW := s.slotW.filter fun w =>
      w.eng != e || !((decide (x ≤ w.addr) && decide (w.addr < x + 0x280)) ||
        (decide (0x10000 + y ≤ w.addr) && decide (w.addr < 0x10000 + y + 0x180))) }

/-- No engine but `e` keeps a copy of the record (R21). -/
def State.evictOthers (s : State) (e rec : Nat) : State :=
  s.each (List.range 16) fun s x =>
    if x = e then s
    else match s.slotOf x rec with
      | some k => s.slotDrop x k
      | none => s

/-- A record slot is used now. -/
def State.slotUse (s : State) (e k : Nat) : State :=
  (s.incWrap H.ENG_USE).put H.ENG_SLOT_T (s.get H.ENG_USE + 1) e k

/-- A double-bit error in a word of the axis store that no engine holds a copy of (R448): a configuration word is rewritten
from the base table within 20 µs, in which clauses naming the record wait; another word makes the axis reseed at its next sample.
An active unit of a pair gives up. -/
def State.storeDouble (s : State) (off : Nat) : State :=
  let a := off / 0x1000
  let s := s.errDouble 4 off (if a < 256 then a else 0xFFFF) |>.put H.QUAR_2 1
  let cfg := !(fieldsOf (rwFields R.axsFields) (axRec a + off % 0x1000)).isEmpty ||
    !(fieldsOf (rwFields R.axsFields) (axRec a + off % 0x1000 + 4)).isEmpty
  let s := s.when (decide (a < 256) && s.get R.AXS_STATUS_STATE a != 0) fun s =>
    let s := s.put R.AXS_STATUS_ARITH 1 a
    if cfg then s.put H.REC_RWT (s.now + 20000) a else s.put H.AX_RESEED 1 a
  s.errFix 4 off

/-- The words of an axis record are read from the axis store: errors in them are found (R446, R448). -/
def State.recRead (s : State) (a : Nat) : State :=
  s.each (s.arrErrs.filter fun (x : ArrErr) => x.arr == 4 && x.off / 0x1000 == a) fun s x =>
    if x.bits = 1 then s.errSingle 4 x.off a else s.storeDouble x.off

/-- A record brought into a slot of an engine, no other engine keeping it (R21, R106); the load writes every word of the
slot. -/
def State.slotLoad (s : State) (e rec : Nat) : State :=
  if rec = 0 then s
  else
    let s := s.evictOthers e rec
    match s.slotOf e rec with
    | some k => s.slotUse e k
    | none =>
      let k := s.victim e
      let s := s.when (decide (rec < 0x200)) fun s => s.recRead (rec - 1)
      let s := ((s.slotDrop e k).put H.ENG_SLOT rec e k).slotUse e k
      let b := e % 4 * 0x30000 + 0x4000
      (s.errWrote (e / 4) (b + 0x280 * k) 0x280).errWrote (e / 4) (b + 0x10000 + 0x180 * k) 0x180

/-! ### Saved records -/

/-- The key range of the variables a clause writes: clause variables and section states of an axis record, or the
states of a group record. -/
def varKey (rec : Nat) (k : Nat) : Bool :=
  if rec = 0 then false
  else if rec < 0x200 then
    let b := 8 * axRec (rec - 1)
    (decide (b + 8 * 0x40 ≤ k) && decide (k < b + 8 * 0x60)) ||
      (decide (b + 8 * 0x280 ≤ k) && decide (k < b + 8 * 0x400))
  else
    let b := 8 * grRec (rec - 0x200)
    decide (b + 8 * 0x160 ≤ k) && decide (k < b + 8 * 0x1A0)

/-- A byte offset of an axis record whose bits the part itself writes outside the resident variables: FE_CNT, the
tracker frequencies, and the trajectory, probe and homing status. -/
def statKey (d : Nat) : Bool :=
  (decide (8 * 0x40C + 16 ≤ d) && decide (d < 8 * 0x410)) || (decide (8 * 0x424 ≤ d) && decide (d < 8 * 0x42C)) ||
    (decide (8 * 0x5BC ≤ d) && decide (d < 8 * 0x5C0)) || (decide (8 * 0x668 ≤ d) && decide (d < 8 * 0x6A0)) ||
    (decide (8 * 0x6D8 ≤ d) && decide (d < 8 * 0x700))

/-- The configuration of a learning-table header that an update reads (R92, R95). -/
def lffCfg : List Fld := [R.LFF_CFG_LEAD, R.LFF_CFG_QSHIFT, R.LFF_CFG_FREEZE, R.LFF_GAIN, R.LFF_Q]

/-- The keys of the learning-table headers that an axis's clause reads: LFF_BIND and LFF_CFG.FREEZE (R38, R91). -/
def lffKey (k : Nat) : Bool :=
  let d := k - 8 * 0x19000000
  decide (8 * 0x19000000 ≤ k) && decide (d < 64 * 512) && (decide (d % 512 < 32) || d % 512 == 8 * 0xC + 16)

/-- The keys of a record's configuration, with those of the tables an axis's clause reads, or of a learning-table header's
(R38). -/
def cfgKey (rec : Nat) (k : Nat) : Bool :=
  if rec = 0 then false
  else if 0x400 ≤ rec then lffCfg.any fun f => (List.range f.m).any fun j => k == fkey f (rec - 0x400) j
  else if rec < 0x200 then
    lffKey k || (decide (8 * axRec (rec - 1) ≤ k) && decide (k < 8 * (axRec (rec - 1) + 0x1000)) && !varKey rec k &&
      !statKey (k - 8 * axRec (rec - 1)))
  else
    decide (8 * grRec (rec - 0x200) ≤ k) && decide (k < 8 * (grRec (rec - 0x200) + 0x200)) && !varKey rec k

/-- The register map with the keys that `p` picks replaced by the entries of a list. -/
def regReplace (l : List (Nat × Nat)) (p : Nat → Bool) (new : List (Nat × Nat)) : List (Nat × Nat) :=
  new.foldl (fun l q => regAdd q.1 q.2 (regDrop l q.1)) (l.filter fun q => !p q.1)

/-- The configuration that an instance takes remembered at its dispatch (R38, R76). -/
def State.saveRec (s : State) (x : Inst) : State :=
  { s with saved := { inst := x.id, recd := x.ccode, cfg := s.regs.filter fun p => cfgKey x.ccode p.1 } ::
      s.saved.filter fun y => y.inst != x.id }

/-! ### Work that is lost (R23) -/

/-- The lists that the body of a clause may change. -/
def State.workLists (s : State) : WorkLists :=
  { waits := s.waits, tags := s.tags, axEvs := s.axEvs, motions := s.motions, segs := s.segs, edges := s.edges,
    hist := s.hist, caps := s.caps, tracks := s.tracks }

/-- A register key that belongs to an engine or to the free values: no clause's work. -/
def engKey (k : Nat) : Bool :=
  (H.FREE :: H.DET_DOMS :: H.engVars).any fun f => decide (8 * f.base ≤ k) && decide (k < 8 * (f.base + f.n * f.m))

/-- The keys whose value differs between two register maps, with both values. -/
def regDiff (l m : List (Nat × Nat)) : List (Nat × Option Nat × Option Nat) :=
  ((l.map Prod.fst ++ (m.map Prod.fst).filter fun k => (regFind l k).isNone).filter fun k =>
    !engKey k && regFind l k != regFind m k).map fun k => (k, regFind l k, regFind m k)

/-- The addresses whose byte differs between two memories, with both bytes. -/
def memDiff (l m : List Host.Cell) : List (Nat × Byte × Byte) :=
  ((l.map Prod.fst ++ (m.map Prod.fst).filter fun a => decide (memGet l a = memEmpty)).filter fun a =>
    decide (memGet l a ≠ memGet m a)).map fun a => (a, memGet l a, memGet m a)

/-- What the body of instance `x` did between states `b` and `s` is noted as work of a clause not yet complete. -/
def State.noteWork (s b : State) (x : Inst) : State :=
  { s with saved := s.saved.map fun y =>
      if y.inst = x.id then
        { y with regs := regDiff b.regs s.regs, mem := memDiff b.mem s.mem, bef := b.workLists, aft := s.workLists }
      else y }

/-- A key put back where it still holds what the lost work left there. -/
def undoReg (l : List (Nat × Nat)) (q : Nat × Option Nat × Option Nat) : List (Nat × Nat) :=
  if regFind l q.1 = q.2.2 then
    match q.2.1 with
    | none => regDrop l q.1
    | some v => regAdd q.1 v (regDrop l q.1)
  else l

/-- A byte put back where it still is what the lost work left there. -/
def undoByte (m : List Host.Cell) (q : Nat × Byte × Byte) : List Host.Cell :=
  if memGet m q.1 = q.2.2 then memSet m q.1 q.2.1 else m

/-- A list without what lost work added and with what it took away. -/
def undoList {α : Type} [BEq α] (cur bef aft : List α) : List α :=
  if cur == aft then bef else bef.diff aft ++ cur.diff (aft.diff bef)

/-- No mailbox has more than 64 entries in a list of completions (R270). -/
def tagsOk (l : List TagRec) : Bool := l.all fun x => decide ((l.filter fun y => y.mb == x.mb).length ≤ 64)

/-- No capture unit has more than 16 entries in a list (R202). -/
def capsOk (l : List CapEntry) : Bool := l.all fun x => decide ((l.filter fun y => y.unit == x.unit).length ≤ 16)

/-- The work of an instance's body is lost (R23, R131): what it changed and nothing has changed since is as it was
before. -/
def State.restoreRec (s : State) (x : Inst) : State :=
  match s.saved.find? fun y => y.inst == x.id with
  | none => s
  | some y =>
    let tags := undoList s.tags y.bef.tags y.aft.tags
    let caps := undoList s.caps y.bef.caps y.aft.caps
    let s : State := { s with regs := y.regs.foldl undoReg s.regs }
    let s : State := { s with mem := y.mem.foldl undoByte s.mem }
    let s : State := if tagsOk tags then { s with tags := tags } else s
    let s : State := if capsOk caps then { s with caps := caps } else s
    { s with
      waits := undoList s.waits y.bef.waits y.aft.waits
      axEvs := undoList s.axEvs y.bef.axEvs y.aft.axEvs
      motions := undoList s.motions y.bef.motions y.aft.motions
      segs := undoList s.segs y.bef.segs y.aft.segs
      edges := undoList s.edges y.bef.edges y.aft.edges
      hist := s.hist.diff (y.aft.hist.diff y.bef.hist)
      tracks := s.tracks.filter fun x =>
        !(y.aft.tracks.diff y.bef.tracks).any fun z => z.unit == x.unit && z.t0 == x.t0
      saved := s.saved.map fun z => if z.inst = x.id then { z with regs := [], mem := [], bef := {}, aft := {} } else z }

/-- The state with the configuration of a record that an instance found at its dispatch (R76). -/
def State.cfgThen (s : State) (id : Nat) : State :=
  match s.saved.find? fun y => y.inst == id with
  | none => s
  | some y => { s with regs := regReplace s.regs (cfgKey y.recd) y.cfg }

/-- The state with the configuration of a record as it stands in `now`. -/
def State.cfgFrom (s : State) (rec : Nat) (now : State) : State :=
  { s with regs := regReplace s.regs (cfgKey rec) (now.regs.filter fun p => cfgKey rec p.1) }

/-! ### Deadlines -/

/-- The time of boundary `n`, from the latest one. -/
def State.bndTime (s : State) (n : Nat) : Nat :=
  ((s.get H.BND_T : Int) + ((n : Int) - (s.get H.BND_N : Int)) * (s.baseNs : Int)).toNat

/-- Wire bytes in ns on a ring: 3.2 ns each at 2.5 Gb/s, 8 ns at 1 Gb/s (R204). -/
def State.wireNs (s : State) (r n : Nat) : Nat :=
  if s.get R.NRT_RCFG_MODE r = 0 then n * 16 / 5 else n * 8

/-- Slot size S in bytes (R215). -/
def State.slotSize (s : State) (r : Nat) : Nat := 16 * (s.get R.NRT_RCFG_SSIZE r + 1)

/-- The cut-off of a slot in frame `n`: 0.4 µs before its first byte leaves (R33, R212). -/
def State.slotCut (s : State) (r slot n : Nat) : Nat :=
  s.bndTime n + s.wireNs r (86 + s.slotSize r * slot) - 400

/-- The effective deadline of an instance (R146), following DLSEL 3 to its successors. -/
def State.deadlineOf (s : State) : Nat → Nat → Nat → Nat → Nat
  | 0, d, cyc, _ => s.bndTime cyc + s.baseNs * divOf (s.get R.SCH_DESC_DIV d) - 16
  | n + 1, d, cyc, t =>
    let pe := s.bndTime cyc + s.baseNs * divOf (s.get R.SCH_DESC_DIV d) - 16
    match s.get R.SCH_DESC_DLSEL d with
    | 0 =>
      let r := s.get R.SCH_DESC_RING d
      s.slotCut r (s.get R.SCH_DESC_SLOT d) (cyc + s.get R.NRT_RCFG_C r) - 16
    | 1 => pe
    | 2 => t + s.get R.SCH_DESC_DLREL d * 128
    | _ =>
      let l := ((s.chain d).filter fun x => s.on R.SCH_DESC_EN x).map fun x =>
        s.deadlineOf n x cyc t - s.get R.SCH_DESC_BUDGET x * 2
      match l with
      | [] => pe
      | x :: xs => xs.foldl min x

/-! ### Overruns -/

/-- The frame that carries the command of a network axis's sample of cycle `cyc`: f + C (R32, R33, R140). -/
def State.outFrame (s : State) (a cyc : Nat) : Nat := cyc + s.get R.NRT_RCFG_C (s.get H.AX_BIND a)

/-- The frame builder holds an entry for a frame of an axis, in place of any earlier one; entries of frames past are gone. -/
def State.outPut (s : State) (o : OutCmd) : State :=
  { s with outs := s.outs.filter (fun p => p.axis != o.axis || (p.frame != o.frame && decide (s.get H.BND_N ≤ p.frame))) ++
      [o] }

/-- Nothing waits in the frame builder for an axis. -/
def State.outDrop (s : State) (a : Nat) : State := { s with outs := s.outs.filter fun p => p.axis != a }

/-- One sample of an axis, of cycle `cyc`, is an overrun (R152, R153): STALE, the counters, the trace with the descriptor and
priority of the instance, and the stale half of its frame. DESIGN CHOICE: the OVERRUN record names no engine, ENGV 0, also
where one was running the instance (R160, log entry 267). -/
def State.overrun (s : State) (a d prio info cyc : Nat) : State :=
  let s := s.put R.AXS_STATUS_STALE 1 a
  let s := s.incSat R.LIV_OVERRUN a
  let s := s.incSat R.SCH_CNT_OVR
  let s := s.put R.AXS_STATUS_OVR_CONSEC (min 3 (s.get R.AXS_STATUS_OVR_CONSEC a + 1)) a
  let s := (s.when (s.isNirte a) fun s => s.outPut { axis := a, frame := s.outFrame a cyc, ovr := true }).sweepMissed a
  s.trc 6 none d prio info 0

/-- The member axes of a group (R85). -/
def State.members (s : State) (g : Nat) : List Nat :=
  (List.range (s.get R.GRP_CFG_N g)).map fun m =>
    if m < 4 then bits (s.get R.GRP_MEM0 g) (8 * m) 8 else bits (s.get R.GRP_MEM1 g) (8 * (m - 4)) 8

/-- A group sample fails: every member's sample is an overrun with INFO 4, once for the sample (R155). -/
def State.groupFail (s : State) (g cyc : Nat) : State :=
  if s.get H.GRP_FAILC g (cyc % 16) = 2 ^ 64 + cyc then s
  else (s.put H.GRP_FAILC (2 ^ 64 + cyc) g (cyc % 16)).each (s.members g) fun s a =>
    let d := s.get H.AX_DESC2 a % 1024
    s.overrun a d (s.get R.SCH_DESC_PRIO d) 4 cyc

/-- What an instance that publishes nothing means for its axis or group (R152, R155). Supervision, learning,
capture and clauses without an axis record carry no sample. -/
def State.missed (s : State) (x : Inst) (info : Nat) : State :=
  if x.ty = 1 then s.groupFail (s.get R.AXS_STAGE_CFG_GROUP x.recd) x.cyc
  else if x.ty = 3 then s.groupFail x.recd x.cyc
  else if (x.ty = 0 ∨ x.ty = 2 ∨ x.ty = 4 ∨ x.ty = 8) ∧ x.rtype = 0 then s.overrun x.recd x.desc x.prio info x.cyc
  else s

/-- An instance ends without completing: its successors are not released, and their JCNT is reloaded at the next
release of its descriptor (R143). Of one whose deadline had passed that was said then. -/
def State.failInst (s : State) (x : Inst) (info : Nat) : State :=
  (s.dropInst x).when (!x.late) fun s => (s.put H.DESC_RELOAD 1 x.desc).missed x info

/-- The deadline of an instance passes without a delivered completion (R152): one never dispatched is dropped; one that runs
is late, its delivery will be refused, and its successors are not released (R143). -/
def State.pastDeadline (s : State) (x : Inst) : State :=
  if x.st = 0 ∨ x.st = 3 then s.failInst x 0
  else ((s.putInst { x with late := true }).put H.DESC_RELOAD 1 x.desc).missed x 1

/-! ### Release -/

/-- JCNT of a descriptor back at JOIN, where 0 is read as 1 (R137). -/
def State.jReload (s : State) (d : Nat) : State := s.put R.SCH_DESC_JCNT (max 1 (s.get R.SCH_DESC_JOIN d)) d

/-- No clause is released: the module enters Standby or is in it (R466). -/
def State.noRelease (s : State) : Bool := s.get R.PWR_STATE_STATE == 2 || s.get H.PWR_STBY == 2

/-- The descriptor serves an axis that is Absent or Configured: no clause of it runs (R40). -/
def State.noClause (s : State) (d : Nat) : Bool :=
  s.get R.SCH_DESC_RTYPE d == 0 && decide (s.axSt (s.get R.SCH_DESC_REC d) < 2)

/-- The words of the packet of an axis's sample of cycle `cyc` that are kept (R110). -/
def State.axPkt (s : State) (a cyc : Nat) : List Nat :=
  ofWords ((List.range 6).map fun k => s.get H.AX_PKT a (6 * (cyc % 64) + k))

/-- The packet an instance of a descriptor is released with (R110): that of its event; at a completion, that of the axis's
sample it serves. -/
def State.relPkt (s : State) (d cause cyc : Nat) (pkt : List Nat) : List Nat :=
  if cause = 2 ∧ s.get R.SCH_DESC_RTYPE d = 0 then s.axPkt (s.get R.SCH_DESC_REC d) cyc else pkt

/-- The packet of an axis's sample of cycle `cyc` kept for the clauses that its completion releases. -/
def State.pktKeep (s : State) (d cause cyc : Nat) (pkt : List Nat) : State :=
  if cause = 2 ∨ s.get R.SCH_DESC_RTYPE d ≠ 0 then s
  else s.each (List.range 6) fun s k =>
    s.put H.AX_PKT (ofBytes ((List.range 4).map fun i => pkt.getD (4 * k + i) 0)) (s.get R.SCH_DESC_REC d)
      (6 * (cyc % 64) + k)

/-- A clause instance is released (R140 to R144). A release that finds PEND at 4 drops the oldest instance not
running; one of a descriptor that is being rewritten is dropped (R448). -/
def State.release (s : State) (d cause cyc fb : Nat) (pkt : List Nat) : State :=
  if !s.on R.SCH_DESC_EN d || s.noRelease || s.noClause d then s
  else
    let s := if s.get R.SCH_DESC_PEND d < 4 then s
      else match s.insts.find? fun x => x.desc == d && (x.st == 0 || x.st == 3) with
        | some x => s.failInst x 5
        | none => s
    let s := s.when (s.on H.DESC_RELOAD d) fun s =>
      (s.put H.DESC_RELOAD 0 d).each (s.chain d) fun s x => s.jReload x
    let x : Inst := { id := s.get H.INST_ID, desc := d, cause := cause, cyc := cyc, t := s.now,
                      dl := s.deadlineOf 1024 d cyc s.now, prio := s.get R.SCH_DESC_PRIO d,
                      budget := s.get R.SCH_DESC_BUDGET d, entry := s.get R.SCH_DESC_ENTRY d, pkt := s.relPkt d cause cyc pkt,
                      fb := fb, ty := s.get R.SCH_DESC_TYPE d, recd := s.get R.SCH_DESC_REC d,
                      rtype := s.get R.SCH_DESC_RTYPE d }
    let s := { s with insts := s.insts ++ [x] }.pktKeep d cause cyc pkt
    let s := (s.incWrap H.INST_ID).put R.SCH_DESC_PEND (s.get R.SCH_DESC_PEND d + 1) d
    s.when (decide (s.now < s.get H.DESC_RWT d)) fun s => s.failInst x 0

/-- A completion with status OK counts down the successors and releases those that reach 0 (R143). -/
def State.releaseNext (s : State) (x : Inst) : State :=
  s.each (s.chain x.desc) fun s d =>
    if s.get R.SCH_DESC_JCNT d ≤ 1 then (s.jReload d).release d 2 x.cyc x.fb []
    else s.put R.SCH_DESC_JCNT (s.get R.SCH_DESC_JCNT d - 1) d

/-! ### Dispatch -/

/-- An instance may be dispatched: ready, no earlier instance of its descriptor outstanding, its record held by
no running clause, not being rewritten, and no copy of it on its way to this standby (R144, R145, R426, R448). -/
def State.ready (s : State) (x : Inst) : Bool :=
  x.st == 0 && !(x.rtype == 0 && (s.on H.CNJ_CPY x.recd || decide (s.now < s.get H.REC_RWT x.recd))) &&
  !(s.insts.any fun y => y.desc == x.desc && decide (y.id < x.id)) &&
  !(s.insts.any fun y => y.id != x.id && y.st != 0 && x.rcode != 0 && y.rcode == x.rcode)

/-- The dispatch order within and between the ready lists (R147): `x` goes before `y`. A retry has no place of its own (R134);
of one descriptor it is the earliest outstanding, so it goes before a new release (R144, R156). -/
def before (x y : Inst) : Bool :=
  if x.prio ≠ y.prio then decide (y.prio < x.prio)
  else if x.dl ≠ y.dl then decide (x.dl < y.dl)
  else if x.t ≠ y.t then decide (x.t < y.t)
  else decide (x.desc < y.desc)

/-- The first of a list in the dispatch order. -/
def firstOf : List Inst → Option Inst
  | [] => none
  | x :: t =>
    match firstOf t with
    | none => some x
    | some y => if before y x then some y else some x

/-- The instance the dispatcher takes next. -/
def State.nextInst (s : State) : Option Inst := firstOf (s.insts.filter s.ready)

/-- The engine dispatch chooses for an instance (R148). -/
def State.engineFor (s : State) (x : Inst) : Option Nat :=
  let ok := (List.range 16).filter fun e => s.engIdle e && x.notEng != e + 1
  let aff := s.get R.SCH_DESC_AFF x.desc
  if s.on R.SCH_DESC_AFFV x.desc && ok.contains aff then some aff
  else match ok.find? fun e => e / 4 == aff / 4 with
    | some e => some e
    | none => ok.head?

/-- ESR at dispatch (R110): flags, GOV, SAT, LVL, PROTC and LSUSP clear, IE by priority, PRE and FLP unchanged. -/
def esrDispatch (esr prio : Nat) : Nat := bits esr 10 2 * 2 ^ 10 + (if prio < 7 then 64 else 0)

/-- The bytes of the release packet in the inbox (R110). -/
def Inst.inbox (x : Inst) : List Nat :=
  (List.range 24).map (fun k => x.pkt.getD k 0) ++ toBytes 8 x.fb ++ toBytes 8 x.t ++
    toBytes 4 (x.desc % 1024 + x.cause * 4096 + b2n x.retry * 65536) ++ List.replicate 20 0

/-- The place of an engine's memory: m 0 X, 1 Y, 2 program (R105). -/
def engMem (e m : Nat) : Nat := 0x50000000 + 0x30000 * e + 0x10000 * m

/-- What the engine sets at the dispatch of a clause (R110), at level 0 or 1. -/
def State.engStart (s : State) (e lvl : Nat) (x : Inst) : State :=
  let inb := if lvl = 0 then 0xFFC0 else 0xFF80
  let s := (s.errWrote (e / 4) (e % 4 * 0x30000 + inb) 64).setBytes (engMem e 0 + inb) x.inbox
  let s := s.put H.ENG_PC x.entry e
  let s := s.put H.ENG_P inb e 1
  let s := match s.slotOf e x.rcode with
    | some k => (s.put H.ENG_P (0x4000 + 0x280 * k) e 0).put H.ENG_P (0x4000 + 0x180 * k) e 4
    | none => s
  let s := s.put H.ENG_ECYC (if s.on H.ENG_INJW e then 65535 - bits (s.get H.ENG_INJW e) 0 16 else 0) e
  let s := s.when (s.on H.ENG_INJW e) fun s => s.injFired 0x05 e
  let s := s.put H.ENG_INJW 0 e
  let s := s.when (bit (s.get H.ENG_INJR e) 16) fun s => s.put H.ENG_INJR (2 ^ 17 + bits (s.get H.ENG_INJR e) 0 16) e
  let s := s.put H.ENG_ESR (esrDispatch (s.get H.ENG_ESR e) x.prio) e
  let s := s.each (List.range 4) fun s k => s.put H.ENG_OUT 0 e (4 * lvl + k)
  let s := ((s.put H.ENG_PUB 0 e lvl).put H.ENG_LVL1 lvl e).put H.ENG_DID 0 e lvl
  let s := ((s.put H.ENG_DLY 0 e).put H.ENG_BT 0 e).put H.ENG_WL 0 e
  { s with late := s.late.filter fun y => y.eng != e, olds := s.olds.filter fun y => y.eng != e }

/-- An instance is given to an engine (R148): affinity, the reload of a miss, the trace, the registers of R110. -/
def State.dispatchTo (s : State) (x : Inst) (e : Nat) : State :=
  let d := x.desc
  let hit := s.on R.SCH_DESC_AFFV d && s.get R.SCH_DESC_AFF d == e
  let s := s.trc (if hit then 1 else 2) (some e) d x.prio 0 (x.cause + b2n x.retry * 4)
  let s := s.when (!hit) fun s => (s.incSat R.SCH_CNT_AFFMISS).put H.ENG_LOAD (b2n (x.rcode != 0)) e
  let s := s.when x.retry fun s => s.incSat R.SCH_CNT_RETRY
  let s := s.slotLoad e x.rcode
  let s := (s.put R.SCH_DESC_AFF e d).put R.SCH_DESC_AFFV 1 d
  let s := (s.setEngSt e 1).putInst { x with st := 1, eng := e }
  (s.saveRec x).engStart e 0 x

/-! ### Descriptor changes -/

/-- The fields of a descriptor that a change writes (R137); the others are the scheduler's own. -/
def descCfg : List Fld :=
  [R.SCH_DESC_ENTRY, R.SCH_DESC_PRIO, R.SCH_DESC_REL, R.SCH_DESC_EN, R.SCH_DESC_TYPE, R.SCH_DESC_REC,
   R.SCH_DESC_RTYPE, R.SCH_DESC_SLOT, R.SCH_DESC_RING, R.SCH_DESC_DIV, R.SCH_DESC_PHASE, R.SCH_DESC_BUDGET,
   R.SCH_DESC_DLSEL, R.SCH_DESC_DLREL, R.SCH_DESC_NEXT, R.SCH_DESC_NEXT_EN, R.SCH_DESC_SIB, R.SCH_DESC_SIB_EN,
   R.SCH_DESC_JOIN, R.SCH_DESC_FSW0, R.SCH_DESC_FSW1]

/-- The eight words of a descriptor with EN at 0. -/
def descFree : List Nat := [0x00300000, 0x200, 0, 0, 0, 0, 0, 0]

/-- A descriptor change waits for the next boundary (R136). -/
def State.descStage (s : State) (d : Nat) (ws : List Nat) : State :=
  { s with descPend := s.descPend.filter (fun p => p.1 != d) ++ [(d, ws)] }

/-- The words a descriptor will hold after the next boundary. -/
def State.descNext (s : State) (d : Nat) : List Nat :=
  match s.descPend.find? fun p => p.1 == d with
  | some p => p.2
  | none => (List.range 8).map fun k => s.word descCfg (0x41000 + 0x20 * d + 4 * k)

/-- A descriptor that nothing uses, now or after the next boundary. -/
def State.descIsFree (s : State) (d : Nat) : Bool :=
  !s.on R.SCH_DESC_EN d && !(s.descPend.any fun p => p.1 == d && bit (p.2.getD 0 0) 22)

/-- The lowest free descriptor (R139). -/
def State.descAlloc (s : State) : Option Nat := (List.range 1024).find? s.descIsFree

/-- The number of free descriptors. -/
def State.descFreeN (s : State) : Nat := ((List.range 1024).filter s.descIsFree).length

/-- The descriptor changes take effect (R136). A descriptor that is enabled, or given another clause or record, starts its
cycle statistics anew; AFFV clears where its record is another, since the old one is not what it names (R137). -/
def State.descApply (s : State) : State :=
  if s.descPend.isEmpty then s
  else
    let s := s.each s.descPend fun s p =>
      let t := (s.errWrote 5 (0x20 * p.1) 32).putWords descCfg (0x41000 + 0x20 * p.1) p.2
      let t := t.put H.DESC_CUSTOM (b2n (bit (p.2.getD 0 0) 22 && bits (p.2.getD 0 0) 24 4 == 8)) p.1
      let rises := !s.on R.SCH_DESC_EN p.1 && t.on R.SCH_DESC_EN p.1
      let anew := rises || s.get R.SCH_DESC_TYPE p.1 != t.get R.SCH_DESC_TYPE p.1 || s.descRec p.1 != t.descRec p.1 ||
        s.get R.SCH_DESC_ENTRY p.1 != t.get R.SCH_DESC_ENTRY p.1
      let t := t.when anew fun t => (t.put R.SCH_DESC_LAST_CYC 0 p.1).put R.SCH_DESC_MAX_CYC 0 p.1
      let t := t.when (s.descRec p.1 != t.descRec p.1) fun t => t.put R.SCH_DESC_AFFV 0 p.1
      let t := t.when (rises || !t.on R.SCH_DESC_EN p.1 || s.descRec p.1 != t.descRec p.1) fun t => t.put H.REL_F 0 p.1
      t.when (anew || s.get R.SCH_DESC_JOIN p.1 != t.get R.SCH_DESC_JOIN p.1) fun t => t.jReload p.1
    { s with descPend := [] }.loadUpdate

/-- A change of one descriptor, with those that wait, would raise U above ADMIT (R157). -/
def State.descOver (s : State) (d : Nat) (ws : List Nat) : Bool :=
  s.loadRefuses (s.loadSum s.descPend) (s.loadSum (s.descPend.filter (fun p => p.1 != d) ++ [(d, ws)]))

/-! ### Delivery and completion -/

/-- Four words are delivered for an axis's sample of cycle `cyc` (R127): to the frame f + C of its slot on a ring (R140), or
to its port (R305). The sample is published: STALE and OVR_CONSEC return to 0, and DELAY shows the achieved delay (R36, R56,
R153, R154). -/
def State.deliver (s : State) (a : Nat) (ws : List Nat) (fb cyc : Nat) : State :=
  let s := (s.put R.AXS_STATUS_STALE 0 a).put R.AXS_STATUS_OVR_CONSEC 0 a
  if s.isNirte a then
    (s.outPut { axis := a, frame := s.outFrame a cyc, words := (List.range 4).map fun k => ws.getD k 0 }).put
      R.AXS_STATUS_DELAY (s.get R.NRT_RCFG_C (s.get H.AX_BIND a) * s.baseNs) a
  else
    let s := (s.each (List.range 4) fun s k => s.put H.OUT_W (ws.getD k 0) a k).put H.OUT_V 1 a
    let s := (s.put R.AXS_STATUS_DELAY (s.now - fb) a).landRefs a ws fb
    s.when (s.portLimits a && s.get R.AXS_LIM_FLAGS a == 0) fun s => s.incSat R.LIV_CLAMP a

/-- LAST_CYC and MAX_CYC at DONE (R137). -/
def State.cycStat (s : State) (d c : Nat) : State :=
  let c := min c 65535
  (s.put R.SCH_DESC_LAST_CYC c d).put R.SCH_DESC_MAX_CYC (max c (s.get R.SCH_DESC_MAX_CYC d)) d

/-- An instance completes with status OK: COMPLETE in the trace, with INFO 2 where its delivery was refused, and the
release of its successors (R143, R156). One that is late releases none; the reload of their JCNT was noted when its deadline
passed. -/
def State.completeInst (s : State) (x : Inst) (e cyc : Nat) : State :=
  let s := s.trc 3 (some e) x.desc x.prio (if x.late then 2 else 0) (min cyc 0x7FFF)
  let s := (s.dropInst x).cycStat x.desc cyc
  if x.late then s else s.releaseNext x

/-- An aborted instance is retried where time and the rule of one retry allow it; else it is an overrun with
INFO 2 (R134). -/
def State.abortInst (s : State) (x : Inst) (e cause : Nat) : State :=
  let s := (s.trc 7 (some e) x.desc x.prio cause 0).restoreRec x
  let again := (cause == 1 || cause == 2) && !x.retry && !x.late && decide (s.now + (x.budget + 160) * 2 ≤ x.dl)
  if again then s.putInst { x with st := 0, eng := 0, retry := true, notEng := e + 1, past := false }
  else s.failInst x 2

/-- A second exception of cause RESIDUE or MEM_DED on one engine within 1 s (R135). -/
def State.engAgain (s : State) (e : Nat) : Bool :=
  bit (s.get H.ENG_EXC_T e) 64 && decide (s.now < s.get H.ENG_EXC_T e % 2 ^ 64 + 1000000000)

/-- An engine is quarantined (R135); a second within 1 s is an own fault of an active unit (R429). -/
def State.quarantined (s : State) (e : Nat) : State :=
  let again := s.get H.QUAR_T != 0 && decide (s.now + 1 < s.get H.QUAR_T + 1000000000)
  ((s.when again fun s => s.put H.QUAR_2 1).put H.QUAR_T (s.now + 1)).put H.ENG_QR 1 e

/-- An engine goes to self-test, or to quarantine on a second exception within 1 s (R135, R156). -/
def State.engTest (s : State) (e : Nat) : State :=
  let q := s.engAgain e
  let s := (s.put H.ENG_EXC_T (2 ^ 64 + s.now) e).engForget e
  ((s.when q fun s => s.quarantined e).setEngSt e (if q then 3 else 2)).setService e false

/-- The management core's copy of the common program image. -/
def progCopy : Nat := 0x57000000

/-- The program memory of an engine rewritten from the common image (R107, R133). -/
def State.progReload (s : State) (e : Nat) : State :=
  let cells := (s.mem.filter fun p => decide (progCopy ≤ p.1) && decide (p.1 < progCopy + 0x10000)).map fun p =>
    (p.1 - progCopy, p.2.toNat)
  let s := s.errWrote (e / 4) (e % 4 * 0x30000 + 0x20000) 0x10000
  (s.zeroRange (engMem e 2) (engMem e 2 + 0x10000)).each cells fun s p => s.setByte (engMem e 2 + p.1) p.2

/-- The axis that the clause running on an engine is for; in a pre-emption handler between clauses, the pre-empted one's;
0xFFFF where there is none (R25). -/
def State.engAxis (s : State) (e : Nat) : Nat :=
  match s.runInst e with
  | some x => x.axisNo
  | none => ((s.insts.find? fun x => x.st == 2 && x.eng == e).map Inst.axisNo).getD 0xFFFF

/-- An engine exception of a cause of R133: the running and any pre-empted clause are aborted, PRE, LSUSP and LVL
clear, EPC, ESS and ECS discarded, and the engine goes idle or to self-test; after MEM_DED its program memory is reloaded. -/
def State.engAbort (s : State) (e cause : Nat) : State :=
  let run := s.insts.filter fun x => (x.st == 1 || x.st == 2) && x.eng == e
  let ax := s.engAxis e
  let s := s.incSat R.SCH_CNT_ABORT
  let s := s.when (cause == 1) fun s => s.report 0x03 e ax 0
  let s := s.when (cause == 6) fun s => s.report 0x05 e ax 0
  let s := s.each run fun s x =>
    let s := match s.slotOf e x.rcode with
      | some k => s.slotDrop e k
      | none => s
    let s := s.put R.SCH_DESC_AFFV 0 x.desc
    let s := s.when ((cause == 1 || cause == 2) && x.rtype == 0) fun s => s.put R.AXS_STATUS_ARITH 1 x.recd
    s.abortInst x e cause
  let s := { s with insts := s.insts.map fun (x : Inst) => if x.st = 3 ∧ x.eng = e then { x with st := 0 } else x }
  let s := s.put H.ENG_ESR (clrBit (clrBit (s.get H.ENG_ESR e) 10) 7 / 1024 * 1024 + clrBit (s.get H.ENG_ESR e) 7 % 256) e
  let s := ((s.put H.ENG_EPC 0 e).put H.ENG_ESS 0 e).put H.ENG_ECS 0 e
  let s := ((s.put H.ENG_LVL1 0 e).put H.ENG_DLY 0 e).put H.ENG_LOAD 0 e
  let s := s.when (cause == 2) fun s => s.progReload e
  if cause = 1 ∨ cause = 2 then s.engTest e else s.setEngSt e 0

/-- An engine stops without an exception (reset, power-down): the work of its clauses is lost, and each sample is an
overrun as one aborted and not retried (R23, R152). -/
def State.engStop (s : State) (e : Nat) : State :=
  let run := s.insts.filter fun x => x.st != 0 && x.eng == e
  let s := s.each run fun s x => (s.restoreRec x).failInst x 2
  let s := (s.engForget e).setEngSt e 0
  (s.put H.ENG_LVL1 0 e).put H.ENG_LOAD 0 e

end Sys2Proof.Machine
end

