-- ==== Sys2Proof/Machine/Flags.lean ====
section
/-! DEFINITION. The engine status register and the flag computations of the engine instructions (R109, R114, R129,
R130). -/

namespace Sys2Proof.Machine

/-- ESR of an engine, bits [15:0]. -/
def State.esr (s : State) (e : Nat) : Nat := s.get H.ENG_ESR e

/-- A bit of ESR written. -/
def State.esrPut (s : State) (e k : Nat) (v : Bool) : State :=
  if v then s.orBit H.ENG_ESR k e else s.clearBit H.ENG_ESR k e

/-- Active loop levels. -/
def esrLvl (r : Nat) : Nat := bits r 8 2

/-- ESR with a number of active loop levels. -/
def esrWithLvl (r n : Nat) : Nat := r - 256 * bits r 8 2 + 256 * (n % 4)

/-- Instructions left in the open PROT window. -/
def esrProt (r : Nat) : Nat := bits r 12 4

/-- ESR with a PROT window. -/
def esrWithProt (r n : Nat) : Nat := r - 4096 * bits r 12 4 + 4096 * (n % 16)

/-- The flags Z, N, C and V written. -/
def State.flags (s : State) (e : Nat) (z n c v : Bool) : State :=
  s.put H.ENG_ESR (s.esr e / 16 * 16 + b2n z + 2 * b2n n + 4 * b2n c + 8 * b2n v) e

/-- Z and N written, C and V kept. -/
def State.flagsZN (s : State) (e : Nat) (z n : Bool) : State :=
  s.put H.ENG_ESR (s.esr e / 4 * 4 + b2n z + 2 * b2n n) e

/-- A 32-bit word is negative. -/
def neg32 (v : Nat) : Bool := bit v 31

/-- The 32-bit signed value of a word. -/
def s32 (v : Nat) : Int := sext 32 v

/-- The result and the flags of one ALU operation. -/
structure AluRes where
  val : Nat
  c : Bool := false
  v : Bool := false
  sat : Bool := false
  deriving DecidableEq, Repr

/-- ADD: modulo 2^32, carry out, signed overflow. -/
def aluAdd (a b : Nat) : AluRes :=
  { val := (a + b) % 2 ^ 32, c := decide (2 ^ 32 ≤ a + b), v := !fitsI 32 (s32 a + s32 b) }

/-- SUB: modulo 2^32, C for no borrow, signed overflow. -/
def aluSub (a b : Nat) : AluRes :=
  { val := (a + 2 ^ 32 - b) % 2 ^ 32, c := decide (b ≤ a), v := !fitsI 32 (s32 a - s32 b) }

/-- ADDS: saturating, the flags C and V of the sum. -/
def aluAdds (a b : Nat) : AluRes :=
  { aluAdd a b with val := trunc 32 (satI 32 (s32 a + s32 b)), sat := (aluAdd a b).v }

/-- SUBS: saturating. -/
def aluSubs (a b : Nat) : AluRes :=
  { aluSub a b with val := trunc 32 (satI 32 (s32 a - s32 b)), sat := (aluSub a b).v }

/-- NEG: 0 − a, saturating. DESIGN CHOICE: R114 names no flags for the corner; of −2^31 NEG and ABS take the flags of the
saturating subtraction 0 − a, so V and SAT set (log 232). -/
def aluNeg (a : Nat) : AluRes := aluSubs 0 a

/-- ABS, saturating. DESIGN CHOICE: a value that is not negative passes with C and V clear (log 232). -/
def aluAbs (a : Nat) : AluRes := if neg32 a then aluNeg a else { val := a }

/-- A result with C and V clear (R114). -/
def aluPlain (v : Nat) : AluRes := { val := v % 2 ^ 32 }

/-- The flags of an ALU result, and SAT where it saturated (R114, R130). -/
def State.aluFlags (s : State) (e : Nat) (r : AluRes) : State :=
  (s.flags e (r.val == 0) (neg32 r.val) r.c r.v).when r.sat fun s => s.esrPut e 5 true

/-- A branch condition holds for an ESR (R118). -/
def condHolds (cond esr : Nat) : Bool :=
  let z := bit esr 0
  let n := bit esr 1
  let v := bit esr 3
  match cond with
  | 0 => true
  | 1 => z
  | 2 => !z
  | 3 => n != v
  | 4 => n == v
  | 5 => !z && n == v
  | 6 => z || n != v
  | 7 => bit esr 2
  | 8 => !bit esr 2
  | 9 => bit esr 4
  | 10 => bit esr 5
  | _ => false

/-- A sum in an accumulator wraps modulo 2^80 and then sets GOV (R129). -/
def govOf (v : Int) : Bool := !fitsI 80 v

/-- rnd(A ≫ SH) of R116 and R130: with RND, 2^(sh−1) is added before the shift. -/
def rndShift (a : Int) (sh : Nat) (rnd : Bool) : Int :=
  if rnd ∧ 0 < sh then asr (a + ((2 ^ (sh - 1) : Nat) : Int)) sh else asr a sh

end Sys2Proof.Machine
end

