-- ==== Sys2Proof/Machine/Operands.lean ====
section
/-! DEFINITION. Operands of the engine instructions: registers as an instruction reads them (R122), addresses and
pointer modification (R111, R112), engine memory with its record slots (R105, R106), special registers (R120). -/

namespace Sys2Proof.Machine

/-! ### Registers -/

/-- The older value of an engine register that the next instruction still reads, or its value (R122). -/
def State.older (s : State) (e : Nat) (f : Fld) (k : Nat) : Nat :=
  match s.olds.find? fun x => x.eng == e && x.fld == f && x.idx == k with
  | some x => x.val
  | none => s.get f e k

/-- A register written so that the next instruction still reads the old value where R122 says so. -/
def State.putOld (s : State) (e : Nat) (f : Fld) (k v : Nat) : State :=
  ({ s with olds := { eng := e, fld := f, idx := k, val := s.get f e k } :: s.olds }).put f v e k

/-- A load into a register, which lands after the next instruction has read its operands (R122). -/
def State.putLate (s : State) (e : Nat) (f : Fld) (k v : Nat) : State :=
  { s with late := s.late ++ [{ eng := e, fld := f, idx := k, val := v }] }

/-- The loads of the instruction before land, and the older values are gone. -/
def State.landLate (s : State) (e : Nat) : State :=
  let s1 := s.each (s.late.filter fun x => x.eng == e) fun s x => s.put x.fld x.val e x.idx
  { s1 with late := s1.late.filter fun x => x.eng != e, olds := s1.olds.filter fun x => x.eng != e }

/-- Data register Dk. -/
def State.dreg (s : State) (e k : Nat) : Nat := s.get H.ENG_D e (k % 16)

/-- Data register Dk written. -/
def State.putD (s : State) (e k v : Nat) : State := s.put H.ENG_D v e (k % 16)

/-- Accumulator An as a MAC accumulates into it. -/
def State.acc (s : State) (e k : Nat) : Int := s.geti H.ENG_A e (k % 4)

/-- Accumulator An as a class 0x8 function or a store reads it (R122). -/
def State.accOld (s : State) (e k : Nat) : Int := sext 80 (s.older e H.ENG_A (k % 4))

/-- A result in an accumulator: modulo 2^80, GOV on a wrap (R129); the next class 0x8 reads the old value. -/
def State.putAcc (s : State) (e k : Nat) (v : Int) : State :=
  (s.putOld e H.ENG_A (k % 4) (trunc 80 v)).when (govOf v) fun s => s.esrPut e 4 true

/-- The second ALU operand of an arithmetic function: a register, or the immediate sign-extended (R114). -/
def State.aluS (s : State) (e : Nat) (b : AluB) : Nat :=
  match b with
  | .reg k => s.dreg e k
  | .imm v => trunc 32 (sext 15 v)

/-- The second operand of a logical function: the immediate is zero-extended (R114). -/
def State.aluZ (s : State) (e : Nat) (b : AluB) : Nat :=
  match b with
  | .reg k => s.dreg e k
  | .imm v => v % 2 ^ 15

/-- The shift count of a shift: bits [4:0] (R114). -/
def State.aluSh (s : State) (e : Nat) (b : AluB) : Nat := s.aluZ e b % 32

/-- The data registers an ALU operand reads. -/
def aluRegs (b : AluB) : List Nat :=
  match b with
  | .reg k => [k % 16]
  | .imm _ => []

/-! ### Addresses -/

/-- The buffer length in use for a value of M: a multiple of 4, at most 32768; 0 is linear (R112). DESIGN CHOICE: R112 makes
the lengths 4 to 32768 and rounds M down; of M = 1 to 3, which round to 0, it does not speak, and the model takes them as
linear (log 229). -/
def bufLen (m : Nat) : Nat := min (m / 4 * 4) 32768

/-- The smallest power of two not less than `l`, among 2^k with k at most `n`. -/
def powUp : Nat → Nat → Nat
  | 0, _ => 1
  | n + 1, l => if l ≤ powUp n l then powUp n l else 2 ^ (n + 1)

/-- A pointer moved by `d`, circular where the buffer length is not 0 (R112). -/
def ptrMove (p m : Nat) (d : Int) : Nat :=
  let l := bufLen m
  if l = 0 then trunc 16 ((p : Int) + d)
  else
    let b := p - p % powUp 16 l
    b + ((((p - b : Nat) : Int) + d) % (l : Int)).toNat

/-- Pointer Pk, offset Nk and length Mk as an address is formed from them (R122). -/
def State.ptr (s : State) (e k : Nat) : Nat := s.older e H.ENG_P (k % 8)

/-- Nk, signed. -/
def State.nOfs (s : State) (e k : Nat) : Int := sext 16 (s.older e H.ENG_N (k % 8))

/-- Mk. -/
def State.mLen (s : State) (e k : Nat) : Nat := s.older e H.ENG_M (k % 8)

/-- The address of a load or store, (R111). -/
def State.memAddr (s : State) (e : Nat) (m : MemRef) : Nat :=
  if m.am = 3 then ptrMove (s.ptr e m.p) (s.mLen e m.p) m.imm % 2 ^ 16 else s.ptr e m.p

/-- The pointer after a load or store (R111). -/
def State.memPost (s : State) (e : Nat) (m : MemRef) : Nat :=
  if m.am = 1 then ptrMove (s.ptr e m.p) (s.mLen e m.p) (s.nOfs e m.p)
  else if m.am = 2 then ptrMove (s.ptr e m.p) (s.mLen e m.p) m.imm
  else s.ptr e m.p

/-- The pointer of a load or store modified, where the mode modifies it. -/
def State.postMod (t s : State) (e : Nat) (m : MemRef) : State :=
  if m.am = 1 ∨ m.am = 2 then t.put H.ENG_P (s.memPost e m) e (m.p % 8) else t

/-! ### Engine memory -/

/-- The record and the record offset that an address of X (m 0) or Y (m 1) shows through a record slot (R106). -/
def State.slotAt (s : State) (e m addr : Nat) : Option (Nat × Nat) :=
  if m = 0 ∧ 0x4000 ≤ addr ∧ addr < 0x9000 then
    let k := (addr - 0x4000) / 0x280
    let o := (addr - 0x4000) % 0x280
    let r := s.get H.ENG_SLOT e k
    if r = 0 ∨ (0x200 ≤ r ∧ 0x160 ≤ o) then none else some (r, o)
  else if m = 1 ∧ 0x4000 ≤ addr ∧ addr < 0x7000 then
    let k := (addr - 0x4000) / 0x180
    let o := (addr - 0x4000) % 0x180
    let r := s.get H.ENG_SLOT e k
    if r = 0 ∨ (0x200 ≤ r ∧ 0x40 ≤ o) then none
    else some (r, o + (if r < 0x200 then 0x280 else 0x160))
  else none

/-- The word of a record by the code of ENG_SLOT. -/
def State.anyRecWord (s : State) (r o : Nat) : Nat :=
  if r < 0x200 then s.word R.axsFields (axRec (r - 1) + o) else s.word R.grpFields (grRec (r - 0x200) + o)

/-- The configuration in the slots of an engine is the one its running clause found at dispatch (R76). -/
def State.engView (s : State) (e : Nat) : State :=
  match s.runInst e with
  | some x => s.cfgThen x.id
  | none => s

/-- A 32-bit word of X or Y. -/
def State.engWord (s : State) (e m addr : Nat) : Nat :=
  match s.slotW.find? fun w => w.eng == e && w.addr == 0x10000 * m + addr with
  | some w => w.val
  | none =>
    match s.slotAt e m addr with
    | some (r, o) => (s.engView e).anyRecWord r o
    | none => s.load (engMem e m + addr) 4

/-- A 64-bit value of X or Y. -/
def State.engWord2 (s : State) (e m addr : Nat) : Nat :=
  s.engWord e m addr + 2 ^ 32 * s.engWord e m ((addr + 4) % 2 ^ 16)

/-- The array code and offset of an engine memory word (R445). -/
def engArr (e m addr : Nat) : Nat × Nat := (e / 4, e % 4 * 0x30000 + m * 0x10000 + addr / 4 * 4)

/-- The error bits of an engine word. -/
def State.engErr (s : State) (e m addr : Nat) : Nat := s.errBits (engArr e m addr).1 (engArr e m addr).2

/-- A read of engine words with single-bit errors corrects and counts them (R446). -/
def State.engCe (s : State) (e m : Nat) (addrs : List Nat) : State :=
  s.each addrs fun s a =>
    if s.engErr e m a = 1 then s.errSingle (engArr e m a).1 (engArr e m a).2 (s.engAxis e) else s

/-- A 32-bit word of X or Y written; a word of a record slot is marked for DONE (R106). -/
def State.putEngWord (s : State) (e m addr v : Nat) : State :=
  let s := s.errFix (engArr e m addr).1 (engArr e m addr).2
  match s.slotAt e m addr with
  | some _ =>
    { s with slotW := { eng := e, addr := 0x10000 * m + addr, val := v % 2 ^ 32 } ::
        s.slotW.filter fun w => !(w.eng == e && w.addr == 0x10000 * m + addr) }
  | none => s.store (engMem e m + addr) 4 v

/-- A 64-bit value of X or Y written. -/
def State.putEngWord2 (s : State) (e m addr v : Nat) : State :=
  (s.putEngWord e m addr (v % 2 ^ 32)).putEngWord e m ((addr + 4) % 2 ^ 16) (v / 2 ^ 32)

/-- The memory a MemRef names. -/
def memOf (m : MemRef) : Nat := if m.y then 1 else 0

/-- The exception of a data access: 4 ALIGN, 2 MEM_DED, 0 none (R111, R133); with MEM_DED, 16 times the array offset of the
word in error. -/
def State.memExc (s : State) (e m addr size : Nat) : Nat :=
  if addr % size ≠ 0 then 4
  else if 2 ≤ s.engErr e m addr then 2 + 16 * (engArr e m addr).2
  else if size = 8 ∧ 2 ≤ s.engErr e m (addr + 4) then 2 + 16 * (engArr e m (addr + 4)).2
  else 0

/-! ### Axis store -/

/-- A word of the axis store by its byte address (R445): the records, then memory. -/
def State.storeWord (s : State) (a : Nat) : Nat :=
  if a < 0x100000 then s.recWord (a / 0x1000) (a % 0x1000) else s.load (0x58000000 + a) 4

/-- A word of the axis store written by an engine. -/
def State.putStoreWord (s : State) (a v : Nat) : State :=
  let s := s.errWrote 4 a 4
  if a < 0x100000 then s.putWord R.axsFields (axRec (a / 0x1000) + a % 0x1000) v
  else s.store (0x58000000 + a) 4 v

/-! ### Special registers (R120) -/

/-- Part p of an accumulator: 0 L, 1 H, 2 G. -/
def accPart (v p : Nat) : Nat :=
  if p = 0 then v % 2 ^ 32 else if p = 1 then v / 2 ^ 32 % 2 ^ 32 else v / 2 ^ 64 % 2 ^ 16

/-- An accumulator with a part replaced; AnG takes bits [15:0]. -/
def accWith (v p w : Nat) : Nat :=
  if p = 0 then v / 2 ^ 32 * 2 ^ 32 + w % 2 ^ 32
  else if p = 1 then v / 2 ^ 64 * 2 ^ 64 + w % 2 ^ 32 * 2 ^ 32 + v % 2 ^ 32
  else w % 2 ^ 16 * 2 ^ 64 + v % 2 ^ 64

/-- ESR with its read-only ENG and QUAD fields (R109). -/
def esrWhole (e r : Nat) : Nat := r % 2 ^ 16 + e % 16 * 2 ^ 16 + e % 16 / 4 * 2 ^ 20

/-- The residue a register carries (R108, R132): its bit pattern modulo 7. Every write of a register writes the residue of
the value with it, so what is stored follows from the register; Laws/Residue.lean shows that what R132 predicts from the
operands is this residue. An injected mismatch (R458) is the one way to another. -/
def residue (v : Nat) : Nat := v % 7

/-- A special register read. ESR is read as it stood before the last instruction where that wrote it (R122). -/
def State.special (s : State) (e code : Nat) : Nat :=
  if code < 0x08 then s.get H.ENG_P e code
  else if code < 0x10 then s.get H.ENG_N e (code - 0x08)
  else if code < 0x18 then s.get H.ENG_M e (code - 0x10)
  else if code < 0x1E then
    let l := (code - 0x18) / 3
    if (code - 0x18) % 3 = 0 then s.get H.ENG_LC e l
    else if (code - 0x18) % 3 = 1 then s.get H.ENG_LS e l
    else s.get H.ENG_LE e l
  else if code = 0x1E then esrWhole e (s.older e H.ENG_ESR 0)
  else if code = 0x1F then s.get H.ENG_SVP e
  else if code < 0x2C then accPart (s.get H.ENG_A e ((code - 0x20) / 3)) ((code - 0x20) % 3)
  else if code = 0x2C then s.get H.ENG_EPC e
  else if code = 0x2D then s.get H.ENG_ESS e
  else if code = 0x2E then s.get H.ENG_ECS e
  else if code = 0x2F then s.get H.ENG_ECYC e
  else s.dreg e (code - 0x30)

/-- ESR after a write: Z, N, C and V taken, SAT cleared by a 1, the RO fields kept (R109). -/
def esrWrite (r v : Nat) : Nat :=
  (if bit v 5 then clrBit r 5 else r) / 16 * 16 + v % 16

/-- A special register written; RO registers ignore the write (R120). P, N, M, LC, LS, LE and ESR are seen by their
consumers one instruction later (R122). -/
def State.putSpecial (s : State) (e code v : Nat) : State :=
  if code < 0x08 then s.putOld e H.ENG_P code v
  else if code < 0x10 then s.putOld e H.ENG_N (code - 0x08) v
  else if code < 0x18 then s.putOld e H.ENG_M (code - 0x10) v
  else if code < 0x1E then
    let l := (code - 0x18) / 3
    let s := s.put H.ENG_WL 1 e
    if (code - 0x18) % 3 = 0 then s.putOld e H.ENG_LC l v
    else if (code - 0x18) % 3 = 1 then s.putOld e H.ENG_LS l v
    else s.putOld e H.ENG_LE l v
  else if code = 0x1E then (s.put H.ENG_WL 1 e).putOld e H.ENG_ESR 0 (esrWrite (s.esr e) v)
  else if code = 0x1F then s.put H.ENG_SVP v e
  else if code < 0x2C then
    s.put H.ENG_A (accWith (s.get H.ENG_A e ((code - 0x20) / 3)) ((code - 0x20) % 3) v) e ((code - 0x20) / 3)
  else if 0x30 ≤ code then s.putD e (code - 0x30) v
  else s

end Sys2Proof.Machine
end

