-- ==== Sys2Proof/Machine/EngOps.lean ====
section
/-! DEFINITION. How an engine executes one instruction (R104, R118, R119, R122, R123): the loads before it land, its
effect, then the program counter with delay slots and hardware loops. -/

namespace Sys2Proof.Machine

/-- An engine can execute an instruction: it runs code, is not loading a record, not halted, and powered. -/
def State.engCan (s : State) (e : Nat) : Bool :=
  decide (e < 16) && s.engSt e == 1 && !s.on H.ENG_LOAD e && !s.on H.ENG_HALT e && s.engPowered e

/-- The next instruction stands in a delay slot (R123). -/
def State.inDelay (s : State) (e : Nat) : Bool := bit (s.get H.ENG_DLY e) 16

/-- The length in bytes of the instruction that program memory holds at `pc`: two words of class 0xE (R113). -/
def State.insLen (s : State) (e pc : Nat) : Nat :=
  if bits (s.load (engMem e 2 + pc % 2 ^ 16) 4) 28 4 = 0xE then 8 else 4

/-- The instruction at the program counter, of `len` bytes, is one of the last two of an active loop body (R123, R124). -/
def State.inLoopTail (s : State) (e len : Nat) : Bool :=
  let r := s.esr e
  let pc := s.get H.ENG_PC e
  !bit r 7 && (List.range (min 2 (esrLvl r))).any fun n => pc == s.get H.ENG_LE e n || pc + len == s.get H.ENG_LE e n

/-- The far load arrives: the word goes to its register and FLP clears (R121). -/
def State.farArrive (s : State) (e : Nat) : State :=
  (s.putD e (s.get H.ENG_FARD e) (s.storeWord (s.get H.ENG_FARA e / 4 * 4))).esrPut e 11 false

/-- An instruction that reads the register of a pending far load, or makes a far access, waits for it (R121). -/
def State.farSettle (s : State) (e : Nat) (far : Bool) (rd : List Nat) : State :=
  if bit (s.esr e) 11 && (far || rd.contains (s.get H.ENG_FARD e)) then s.farArrive e else s

/-- The program counter after an instruction at `pc` that no branch redirects: the loop-end comparison, with the loop
registers as R122 lets it see them (R119). -/
def State.loopEnd (t s : State) (e pc len : Nat) : State :=
  let r := s.esr e
  let n := esrLvl r - 1
  if esrLvl r = 0 ∨ bit r 7 ∨ pc ≠ s.older e H.ENG_LE n then t.put H.ENG_PC (pc + len) e
  else if 1 < s.older e H.ENG_LC n then
    (t.put H.ENG_LC (s.older e H.ENG_LC n - 1) e n).put H.ENG_PC (s.older e H.ENG_LS n) e
  else if s.older e H.ENG_LC n = 1 then
    ((t.put H.ENG_LC 0 e n).put H.ENG_ESR (esrWithLvl (t.esr e) n) e).put H.ENG_PC (pc + 4) e
  else t.put H.ENG_PC (pc + len) e

/-- The end of an instruction that began in state `s`: cycles, the PROT window, the delay slot, the program counter. RETI
and its delay slot do not count in ECYC, which excludes the pre-emption (R126); the instruction after the delay slot is a
branch target where the branch was taken (R124). -/
def State.engAdvance (t s : State) (e cost len : Nat) : State :=
  let pc := s.get H.ENG_PC e
  let own := !(t.inDelay e && bit (t.get H.ENG_DLY e) 17)
  let t := (t.when own fun t => t.put H.ENG_ECYC (t.get H.ENG_ECYC e + cost) e).addSat H.ENG_BUSY cost e
  let t := t.when (esrProt (s.esr e) != 0) fun t =>
    t.put H.ENG_ESR (esrWithProt (t.esr e) (esrProt (s.esr e) - 1)) e
  if s.inDelay e then
    ((t.put H.ENG_PC (s.get H.ENG_DLY e % 2 ^ 16) e).put H.ENG_DLY 0 e).put H.ENG_BT (b2n (!bit (s.get H.ENG_DLY e) 18)) e
  else t.loopEnd s e pc len

/-- An injected residue mismatch falls on an instruction of `cost` cycles (R132, R458): the one that writes its result at or
after the injection's cycle. -/
def State.resDue (s : State) (e cost : Nat) : Bool :=
  bit (s.get H.ENG_INJR e) 17 && decide (bits (s.get H.ENG_INJR e) 0 16 ≤ s.get H.ENG_ECYC e + cost)

/-- RESIDUE (R132, R133): an injected mismatch, of a register as it is read or of the result. -/
def State.engResidue (s : State) (e : Nat) : State := ((s.put H.ENG_INJR 0 e).injFired 0x03 e).engAbort e 1

/-- An exception by its code: R133's cause in the low four bits, and with MEM_DED the array offset of the word in error,
which is counted and reported (R24, R25, R448). -/
def State.engExc (s : State) (e c : Nat) : State :=
  (s.when (c % 16 == 2) fun s => s.errDouble (e / 4) (c / 16) (s.engAxis e)).engAbort e (c % 16)

/-- One instruction of engine `e`: nothing where the engine cannot execute; an exception of R133 where `exc` names one; else
its effect `f`, given the state before and the state in which earlier loads have landed. `cl` are its cycles and its length
in bytes, `wr` says whether it writes a result with a residue (R132). -/
def State.engRunOf (s : State) (e : Nat) (far : Bool) (rd : List Nat) (exc : State → Nat) (wr : State → Bool)
    (cl : State → Nat × Nat) (f : State → State → State) : State :=
  if !s.engCan e then s
  else
    let s := s.farSettle e far rd
    if exc s ≠ 0 then s.engExc e (exc s)
    else if wr s && s.resDue e (cl s).1 then s.engResidue e
    else
      let t := ((s.landLate e).put H.ENG_BT 0 e).put H.ENG_WL 0 e
      (f s t).engAdvance s e (cl s).1 (cl s).2

/-- An instruction whose cycles and length do not depend on the state. -/
def State.engRun (s : State) (e : Nat) (far : Bool) (rd : List Nat) (exc : State → Nat) (wr : State → Bool) (cost len : Nat)
    (f : State → State → State) : State :=
  s.engRunOf e far rd exc wr (fun _ => (cost, len)) f

/-- An instruction of one cycle and one word that raises no exception. -/
def State.engPlain (s : State) (e : Nat) (rd : List Nat) (wr : Bool) (f : State → State → State) : State :=
  s.engRun e false rd (fun _ => 0) (fun _ => wr) 1 4 f

/-- An ALU function with a result in Dd (R114). -/
def State.engAlu (s : State) (e dd : Nat) (rd : List Nat) (r : State → AluRes) : State :=
  s.engPlain e rd true fun s t => (t.putD e dd (r s).val).aluFlags e (r s)

/-- ILLEGAL in a delay slot (R123). -/
def State.delayIllegal (s : State) (e : Nat) : Nat := if s.inDelay e then 3 else 0

/-- A branch of `len` bytes is illegal in a delay slot and in the last two instructions of an active loop body, and with a
reserved condition (R118, R123). -/
def State.branchIllegal (s : State) (e cond len : Nat) : Nat :=
  if s.inDelay e ∨ s.inLoopTail e len ∨ 10 < cond then 3 else 0

/-- A branch taken goes on at its target after the delay slot (R123). -/
def State.branchTo (t : State) (e target : Nat) : State := t.put H.ENG_DLY (2 ^ 16 + target % 2 ^ 16) e

/-- A branch not taken has its delay slot too, and goes on after it (R123). -/
def State.branchNot (t : State) (e next : Nat) : State := t.put H.ENG_DLY (2 ^ 16 + 2 ^ 18 + next % 2 ^ 16) e

/-- The target of a branch at `pc` (R118). -/
def State.target (s : State) (e : Nat) (b : BrTgt) : Nat :=
  match b with
  | .ofs w => trunc 16 ((s.get H.ENG_PC e : Int) + 4 * w)
  | .ind k => s.dreg e k % 2 ^ 16

/-- The data registers a branch target reads. -/
def tgtRegs (b : BrTgt) : List Nat :=
  match b with
  | .ofs _ => []
  | .ind k => [k % 16]

/-- The 64-bit product of two data registers, signed (R115). -/
def State.product (s : State) (e da db : Nat) : Int := s32 (s.dreg e da) * s32 (s.dreg e db)

/-- A multiplication of a MAC unit: 0 MPY, 1 MAC, 2 MSU (R115). -/
def macVal (op : Nat) (a p : Int) : Int := if op = 0 then p else if op = 1 then a + p else a - p

/-- One MAC unit's result: the accumulation takes the accumulator without delay (R122). -/
def State.macUnit (t s : State) (e op ac da db : Nat) : State :=
  t.putAcc e ac (macVal op (s.acc e ac) (s.product e da db))

/-- The address of the X parallel move. -/
def State.xAddr (s : State) (e : Nat) (x : XMove) : Nat := s.ptr e (x.px % 4)

/-- The address of the Y parallel move. -/
def State.yAddr (s : State) (e : Nat) (y : YMove) : Nat := s.ptr e (4 + y.py % 4)

/-- The size of a Y move. -/
def ySize (y : YMove) : Nat := if y.wide then 8 else 4

/-- The exception of the parallel moves. -/
def State.moveExc (s : State) (e : Nat) (x : Option XMove) (y : Option YMove) : Nat :=
  let a := match x with
    | some x => s.memExc e 0 (s.xAddr e x) 4
    | none => 0
  let b := match y with
    | some y => s.memExc e 1 (s.yAddr e y) (ySize y)
    | none => 0
  if a ≠ 0 then a else b

/-- The X parallel move: a load to Dx and the pointer's step (R111, R113). -/
def State.xMove (t s : State) (e : Nat) (x : XMove) : State :=
  let k := x.px % 4
  let d : Int := if x.byN then s.nOfs e k else 4
  let t := (t.engCe e 0 [s.xAddr e x]).putLate e H.ENG_D (x.dx % 8) (s.engWord e 0 (s.xAddr e x))
  t.put H.ENG_P (ptrMove (s.ptr e k) (s.mLen e k) d) e k

/-- The Y parallel move: a load to Dy or to Ay, and the pointer's step. -/
def State.yMove (t s : State) (e : Nat) (y : YMove) : State :=
  let k := 4 + y.py % 4
  let a := s.yAddr e y
  let step : Int := ySize y
  let t := if y.wide then
      (t.engCe e 1 [a, a + 4]).putLate e H.ENG_A (y.dst % 4) (trunc 80 (sext 64 (s.engWord2 e 1 a)))
    else (t.engCe e 1 [a]).putLate e H.ENG_D (y.dst % 8) (s.engWord e 1 a)
  match y.my with
  | 0 => t
  | 1 => t.put H.ENG_P (ptrMove (s.ptr e k) (s.mLen e k) step) e k
  | 2 => t.put H.ENG_P (ptrMove (s.ptr e k) (s.mLen e k) (-step)) e k
  | _ => t.put H.ENG_P (ptrMove (s.ptr e k) (s.mLen e k) (s.nOfs e k)) e k

/-- Both parallel moves load one data register: its value is left open. -/
def moveClash (x : Option XMove) (y : Option YMove) : Option Nat :=
  match x, y with
  | some x, some y => if !y.wide && x.dx % 8 == y.dst % 8 then some (x.dx % 8) else none
  | _, _ => none

/-- The parallel moves of an instruction. -/
def State.moves (t s : State) (e : Nat) (x : Option XMove) (y : Option YMove) : State :=
  let t := match x with
    | some x => t.xMove s e x
    | none => t
  let t := match y with
    | some y => t.yMove s e y
    | none => t
  match moveClash x y with
  | some d => (t.putLate e H.ENG_D d (t.free 32)).useFree
  | none => t

/-- A class 0x5 or 0x6 instruction (R115): one or two multiplications and the moves; two units naming one accumulator
are illegal. -/
def State.engMac (s : State) (e op ac da db : Nat) (u2 : Option MacUnit) (x : Option XMove) (y : Option YMove) :
    State :=
  let r2 := match u2 with
    | some u => [u.da % 8, u.db % 8]
    | none => []
  s.engRun e false ([da % 8, db % 8] ++ r2)
    (fun s =>
      match u2 with
      | some u => if u.ac % 4 = ac % 4 then 3 else s.moveExc e x y
      | none => s.moveExc e x y)
    (fun _ => true) 1 4 fun s t =>
      let t := t.macUnit s e op ac (da % 8) (db % 8)
      let t := match u2 with
        | some u => t.macUnit s e u.op u.ac (u.da % 8) (u.db % 8)
        | none => t
      t.moves s e x y

/-- A class 0x8 function with an accumulator result (R116, R129). -/
def State.engAcc (s : State) (e ad : Nat) (rd : List Nat) (v : State → Int) : State :=
  s.engPlain e rd true fun s t => t.putAcc e ad (v s)

/-- A saturated word from an accumulator, with SAT where it changed (R130). -/
def State.putSat (t : State) (e dr : Nat) (v : Int) : State :=
  (t.putD e dr (trunc 32 (satI 32 v))).when (!fitsI 32 v) fun t => t.esrPut e 5 true

/-- Whether a store of an axis-store word lies in a far-store window of a descriptor: base and length in units of
64 bytes (R121, R137). -/
def inWindow (fsw a : Nat) : Bool :=
  decide (64 * (fsw % 65536) ≤ a) && decide (a < 64 * (fsw % 65536) + 64 * (fsw / 65536))

/-- A word that a clause wrote into its record slot goes back to the axis store: the variables of the record, never
configuration words (R22). It supersedes flipped bits there (R446). -/
def State.backWord (s : State) (r o v : Nat) : State :=
  if r < 0x200 then
    let fs := R.axsFields.filter fun f => varKey r (fkey f (r - 1) 0)
    (s.errWrote 4 (0x1000 * (r - 1) + o) 4).putWord fs (axRec (r - 1) + o) v
  else s.putWord (R.grpFields.filter fun f => varKey r (fkey f (r - 0x200) 0)) (grRec (r - 0x200) + o) v

/-- The marked words of an engine's slots go back (R22, R106, R128), those in the slot of a pre-empted clause excepted. -/
def State.writeBack (s : State) (e : Nat) : State :=
  let held := s.heldRecs e
  let at_ := fun (w : SlotWord) => s.slotAt e (w.addr / 0x10000) (w.addr % 0x10000)
  let mine := s.slotW.filter fun w => w.eng == e && !((at_ w).any fun p => held.contains p.1)
  let t := s.each mine.reverse fun t w =>
    match at_ w with
    | some (r, o) => t.backWord r o w.val
    | none => t
  { t with slotW := t.slotW.filter fun w => !mine.contains w }

/-- The engine after DONE: idle, or on in the handler that restores the pre-empted clause (R126). -/
def State.engEnd (s : State) (e : Nat) : State :=
  if s.on H.ENG_LVL1 e then
    let s := s.put H.ENG_ESR (esrWithLvl (setBit (s.esr e) 7) 0) e
    ((s.put H.ENG_PC 0x0080 e).put H.ENG_LVL1 0 e).put H.ENG_BT 1 e
  else s.setEngSt e 0

/-- DONE of the clause running on an engine (R128, R131). -/
def State.engDone (s : State) (e : Nat) : State :=
  match s.runInst e with
  | none => s
  | some x =>
    let isAx := x.rtype == 0
    let a := x.recd
    let inj := isAx && s.on H.ENG_INJG a
    let cyc := s.get H.ENG_ECYC e
    let lvl := s.get H.ENG_LVL1 e
    let gov := bit (s.esr e) 4 || inj
    let s := s.put H.ENG_INJR (s.get H.ENG_INJR e % 2 ^ 17) e
    let s := s.when inj fun s => (s.put H.ENG_INJG 0 a).injFired 0x04 a
    let s := if gov then
        let s := s.when isAx fun s => s.report 0x04 a a 0
        let s := match s.slotOf e x.rcode with
          | some k => s.slotDrop e k
          | none => s
        let s := (s.put R.SCH_DESC_AFFV 0 x.desc).restoreRec x
        let s := s.trc 3 (some e) x.desc x.prio 1 (min cyc 0x7FFF)
        let s := (s.failInst x 3).cycStat x.desc cyc
        s.when isAx fun s => (s.put R.AXS_STATUS_ARITH 1 a).post a (.fault 4)
      else
        let s := s.writeBack e
        let s := s.when (isAx && s.on H.ENG_PUB e lvl && !x.late) fun s =>
          s.deliver a ((List.range 4).map fun k => s.get H.ENG_OUT e (4 * lvl + k)) x.fb x.cyc
        s.completeInst x e cyc
    s.engEnd e

end Sys2Proof.Machine
end

