-- ==== Sys2Proof/Machine/TrajOps.lean ====
section
/-! DEFINITION. The demand as a function of time (R164 to R186): evaluation, the time-optimal planner, stops, and
the operations on the functions of an axis. -/

namespace Sys2Proof.Machine

/-! ### Evaluation -/

/-- Time units in a second: 2^(-16) ns. -/
def unitsPerS : Int := 65536000000000

/-- Position, velocity and acceleration, each in units of 2^(-32). -/
structure Pva where
  p : Int
  v : Int
  a : Int
  deriving DecidableEq, Repr

/-- Constant jerk `j` for `n` units from a state. -/
def Pva.jerk (x : Pva) (j n : Int) : Pva :=
  let u := unitsPerS
  { p := x.p + (6 * u * u * x.v * n + 3 * u * x.a * n * n + j * n * n * n) / (6 * u * u * u),
    v := x.v + (2 * u * x.a * n + j * n * n) / (2 * u * u),
    a := x.a + j * n / u }

/-- The cubic of R181 at `x` units into its duration `d`, with ends in units of 2^(-32). -/
def cubicAt (p0 v0 p1 v1 : Int) (d x : Int) : Pva :=
  let u := unitsPerS
  let d3 := d * d * d
  let b0 := 2 * x * x * x - 3 * x * x * d + d3
  let b1 := 3 * x * x * d - 2 * x * x * x
  let c0 := x * x * x - 2 * x * x * d + x * d * d
  let c1 := x * x * x - x * x * d
  { p := (u * (b0 * p0 + b1 * p1) + d * (c0 * v0 + c1 * v1)) / (u * d3),
    v := (u * (6 * x * x - 6 * x * d) * (p0 - p1) + d * ((3 * x * x - 4 * x * d + d * d) * v0 +
      (3 * x * x - 2 * x * d) * v1)) / d3,
    a := u * (u * (12 * x - 6 * d) * (p0 - p1) + d * ((6 * x - 4 * d) * v0 + (6 * x - 2 * d) * v1)) / d3 }

/-- The start of a piece. -/
def Piece.start : Piece → Nat
  | .jerk t _ _ _ _ => t
  | .cubic t _ _ _ _ _ => t

/-- A piece at a time. -/
def Piece.at (x : Piece) (t : Nat) : Pva :=
  match x with
  | .jerk t0 p v a j => Pva.jerk { p := p, v := v, a := a } j ((t : Int) - t0)
  | .cubic t0 d p0 v0 p1 v1 => cubicAt p0 v0 p1 v1 (max 1 d : Nat) (((t : Int) - t0))

/-- A piece with its positions moved by an offset in counts (R189). -/
def Piece.shift (x : Piece) (o : Int) : Piece :=
  match x with
  | .jerk t p v a j => .jerk t (p + o * 4294967296) v a j
  | .cubic t d p0 v0 p1 v1 => .cubic t d (p0 + o * 4294967296) v0 (p1 + o * 4294967296) v1

/-- The piece in force at a time: the last that starts by then, else the first. -/
def pieceAt (l : List Piece) (t : Nat) : Option Piece :=
  match (l.filter fun x => decide (x.start ≤ t)).getLast? with
  | some x => some x
  | none => l.head?

/-- The motions of an axis, in order. -/
def State.motionsOf (s : State) (a : Nat) : List Motion := s.motions.filter fun m => m.axis == a

/-- A value in units of 2^(-32) rounded to the nearest integer, halves toward +∞ (R164). -/
def roundUp (v : Int) (n : Nat) : Int :=
  if n = 0 then v else asr (v + ((2 ^ (n - 1) : Nat) : Int)) n

/-! ### Profiles -/

/-- A phase of a profile: its duration in units, the acceleration it starts with, its jerk, and the velocity it starts
with where that is known. -/
structure Phase where
  n : Nat
  a : Int
  j : Int
  v : Option Int := none
  deriving DecidableEq, Repr

/-- Units of time for a change at a rate, rounded. -/
def unitsFor (x rate : Int) : Nat := (divRound (unitsPerS * x) rate.toNat).toNat

/-- The sign of an integer. -/
def sgn (x : Int) : Int := if x < 0 then -1 else if 0 < x then 1 else 0

/-- The magnitude of an integer. -/
def absI (x : Int) : Int := if x < 0 then -x else x

/-- The quickest change from velocity `v0` and acceleration `a0` to velocity `v1` and acceleration 0 under a jerk
limit, an acceleration limit `la` while the speed rises and `ld` while it falls. -/
def ramp (v0 a0 v1 la ld j : Int) : List Phase :=
  let vz := v0 + a0 * absI a0 / (2 * j)
  let s : Int := if v1 < vz then -1 else 1
  let l := if 0 < s * v1 then la else ld
  let a := s * a0
  if l < a then
    [{ n := unitsFor (a - l) j, a := a0, j := -s * j }, { n := unitsFor (s * (v1 - vz)) l, a := s * l, j := 0 },
     { n := unitsFor l j, a := s * l, j := -s * j }]
  else
    let g := s * (v1 - v0)
    let pk : Int := (isqrt (j * g + a * a / 2).toNat : Nat)
    if pk ≤ l then
      [{ n := unitsFor (pk - a) j, a := a0, j := s * j }, { n := unitsFor pk j, a := s * pk, j := -s * j }]
    else
      [{ n := unitsFor (l - a) j, a := a0, j := s * j },
       { n := unitsFor (g - (2 * l * l - a * a) / (2 * j)) l, a := s * l, j := 0 },
       { n := unitsFor l j, a := s * l, j := -s * j }]

/-- Phases run from a time and a state: the pieces, and the time and state at their end. -/
def runPhases : List Phase → Nat → Pva → List Piece × Nat × Pva
  | [], t, x => ([], t, x)
  | ph :: rest, t, x =>
    let x := { x with a := ph.a, v := ph.v.getD x.v }
    let r := runPhases rest (t + ph.n) (x.jerk ph.j ph.n)
    (if ph.n = 0 then r.1 else .jerk t x.p x.v x.a ph.j :: r.1, r.2)

/-- The limits of a plan, in units of 2^(-32). -/
structure Limits where
  v : Int
  a : Int
  d : Int
  j : Int
  deriving DecidableEq, Repr

/-- The phases up to speed `vp` and back to rest, with a cruise of `n` units. -/
def overTop (x : Pva) (l : Limits) (vp : Int) (n : Nat) : List Phase :=
  ramp x.v x.a vp l.a l.d l.j ++ [{ n := n, a := 0, j := 0, v := some vp }] ++
    (ramp vp 0 0 l.a l.d l.j).mapIdx fun k ph => if k = 0 then { ph with v := some vp } else ph

/-- The phases that let a deceleration `x.a` ease to `a1` and then stop. -/
def easeStop (x : Pva) (l : Limits) (a1 : Int) : List Phase :=
  let n := unitsFor (absI (a1 - x.a)) l.j
  let j := sgn (a1 - x.a) * l.j
  let y := Pva.jerk x j n
  { n := n, a := x.a, j := j } :: ramp y.v a1 0 l.a l.d l.j

/-- How far phases bring the position, along a direction. -/
def reach (ph : List Phase) (x : Pva) (dir : Int) : Int := dir * ((runPhases ph 0 x).2.2.p - x.p)

/-- The largest value, bit by bit from `2^k` down and at most `top`, for which a test holds. -/
def searchUp (ok : Int → Bool) (top : Int) : Nat → Int → Int
  | 0, r => r
  | k + 1, r =>
    let c := r + ((2 ^ k : Nat) : Int)
    if c ≤ top && ok c then searchUp ok top k c else searchUp ok top k r

/-- The speed along a direction at which a state whose acceleration is brought to 0 at once goes on. -/
def Pva.coasts (x : Pva) (l : Limits) (dir : Int) : Int := dir * (x.v + x.a * absI x.a / (2 * l.j))

/-- A deceleration eased as little as the distance `d` needs, or, where it may ease away, the highest speed of at most V from which
the stop ends within `d`, cruised at for what is left (R172). A state above V is brought to V first by `direct`. -/
def easeOrPeak (x : Pva) (l : Limits) (dir d : Int) : List Phase :=
  if dir * x.a < 0 ∧ d < reach (easeStop x l 0) x dir then
    let a := absI x.a
    let e := searchUp (fun c => decide (reach (easeStop x l (-dir * (a - c))) x dir ≤ d)) a 82 0
    easeStop x l (-dir * (a - e))
  else
    let lo := min l.v (max 0 (x.coasts l dir))
    let vp := lo + searchUp (fun c => decide (reach (overTop x l (dir * (lo + c)) 0) x dir ≤ d)) (l.v - lo) 64 0
    let gap := d - reach (overTop x l (dir * vp) 0) x dir
    overTop x l (dir * vp) (if vp = 0 then 0 else unitsFor gap vp)

/-- The first `n` units of a profile. -/
def cutPhases : Nat → List Phase → List Phase
  | _, [] => []
  | n, ph :: t => if n ≤ ph.n then [{ ph with n := n }] else ph :: cutPhases (n - ph.n) t

/-- The state after phases. -/
def afterPhases (ph : List Phase) (x : Pva) : Pva := (runPhases ph 0 x).2.2

/-- The part of a stop that brings the speed along `dir` down to `v`. -/
def slowTo (x : Pva) (l : Limits) (dir v : Int) : List Phase :=
  let ph := ramp x.v x.a 0 l.a l.d l.j
  let n := (ph.map fun q => q.n).foldl (· + ·) 0
  let k := searchUp (fun c =>
    let y := afterPhases (cutPhases (n - c.toNat) ph) x
    decide (dir * y.v ≤ v) && decide (dir * y.a ≤ 0)) n 64 0
  cutPhases (n - k.toNat) ph

/-- A profile from a state to rest at `tgt`, which lies in direction `dir` no nearer than the stop reaches (R172): a state above
V decelerates to V first (R174). -/
def direct (x : Pva) (l : Limits) (tgt dir : Int) : List Phase :=
  let d := dir * (tgt - x.p)
  if x.coasts l dir ≤ l.v then easeOrPeak x l dir d
  else if reach (overTop x l (dir * l.v) 0) x dir ≤ d then
    overTop x l (dir * l.v) (unitsFor (d - reach (overTop x l (dir * l.v) 0) x dir) (max 1 l.v))
  else
    let pre := slowTo x l dir l.v
    let y := afterPhases pre x
    pre ++ easeOrPeak y l dir (dir * (tgt - y.p))

/-- A plan: its pieces with the rest at the end, the end and the rest point it passes (units). -/
structure Plan where
  pieces : List Piece
  te : Nat
  rest : Nat
  deriving DecidableEq, Repr

/-- Pieces ended by rest at a position. -/
def endAt (ps : List Piece) (te : Nat) (p : Int) (rest : Nat) : Plan :=
  { pieces := ps ++ [.jerk te p 0 0 0], te := te, rest := rest }

/-- The stop from a state under D and J: rest where it ends. -/
def planStop (t : Nat) (x : Pva) (l : Limits) : Plan :=
  let r := runPhases (ramp x.v x.a 0 l.a l.d l.j) t x
  endAt r.1 r.2.1 r.2.2.p 0

/-- The position at which a plan rests. -/
def Plan.pEnd (x : Plan) : Int := (x.pieces.getLast?.map fun q => (q.at x.te).p).getD 0

/-- The time-optimal profile from a state to rest at `tgt` (units of 2^(-32) counts), through a rest point where the
target lies behind the stop (R172, R173). Targets within 2^(-8) counts of the rest of the stop are met by it. -/
def planMove (t : Nat) (x : Pva) (l : Limits) (tgt : Int) : Plan :=
  let st := runPhases (ramp x.v x.a 0 l.a l.d l.j) t x
  let pr := st.2.2.p
  let dirn := if x.v = 0 then sgn x.a else sgn x.v
  if absI (tgt - pr) ≤ 16777216 then endAt st.1 st.2.1 tgt 0
  else if dirn = 0 then
    let r := runPhases (direct x l tgt (sgn (tgt - x.p))) t x
    endAt r.1 r.2.1 tgt 0
  else if dirn * (tgt - pr) < 0 then
    let y : Pva := { p := pr, v := 0, a := 0 }
    let r := runPhases (direct y l tgt (-dirn)) st.2.1 y
    endAt (st.1 ++ r.1) r.2.1 tgt st.2.1
  else
    let r := runPhases (direct x l tgt dirn) t x
    endAt r.1 r.2.1 tgt 0

/-- A stop with the deceleration applied as a step (R177): `dec` at once, and none at rest. -/
def stepStop (t : Nat) (x : Pva) (dec : Int) : Plan :=
  let n := unitsFor (absI x.v) dec
  let q := Pva.jerk { x with a := -(sgn x.v) * dec } 0 n
  endAt (if n = 0 then [] else [.jerk t x.p x.v (-(sgn x.v) * dec) 0]) (t + n) q.p 0

/-- The emergency stop of R177 toward the limit `lim` (units of 2^(-32) counts): the least deceleration not above
`ed` that lands on it, else `ed`. -/
def planEmergency (t : Nat) (x : Pva) (ed ej lim : Int) : Plan :=
  let one : Int := 4294967296
  let dir := if x.v = 0 then sgn x.a else sgn x.v
  let stop := fun dec : Int =>
    if ej = 0 then stepStop t x dec else planStop t x { v := 0, a := dec, d := dec, j := ej * one }
  let passes := fun dec : Int => decide (dir * lim < dir * (stop dec).pEnd)
  if passes (ed * one) ∨ !passes 1 then stop (ed * one)
  else
    let d := searchUp passes (ed * one) 80 0 + 1
    let q := stop d
    endAt q.pieces.dropLast q.te lim 0

/-! ### The functions of an axis -/

/-- An axis's functions with a new one that takes hold at its T_s; functions not yet in hold by then are dropped. -/
def State.setMotion (s : State) (m : Motion) : State :=
  { s with motions := s.motions.filter (fun x => x.axis != m.axis || decide (x.ts < m.ts)) ++ [m] }

/-- A function put in at its time, before those that wait for a later one. -/
def State.insMotion (s : State) (m : Motion) : State :=
  { s with motions := s.motions.filter (fun x => x.axis != m.axis || decide (x.ts < m.ts)) ++
      m :: s.motions.filter (fun x => x.axis == m.axis && decide (m.ts < x.ts)) }

/-- The function accepted last. -/
def State.lastMotion (s : State) (a : Nat) : Option Motion := (s.motionsOf a).getLast?

/-- The motion whose rest lasts from a time: a hold (R169). -/
def holdMotion (a t : Nat) (p : Int) : Motion :=
  { axis := a, ts := t, kind := 0, te := t, tgt := roundUp p 32, pieces := [.jerk (65536 * t) p 0 0 0] }

/-- TRJ_STAT.MODE of a kind of motion (R170). -/
def modeOf (kind : Nat) : Nat := if kind = 6 then 1 else kind

/-- Whole ns, rounded up, of a time in units. -/
def nsOf (t : Nat) : Nat := (t + 65535) / 65536

/-- A function with a plan put in. -/
def Motion.withPlan (m : Motion) (q : Plan) : Motion :=
  { m with pieces := q.pieces, te := nsOf q.te, rest := nsOf q.rest }

/-- A function comes into force: MODE, TARGET, T_END and REVERSAL show it (R170). -/
def State.showMotion (s : State) (m : Motion) : State :=
  let s := s.put R.TRJ_STAT_MODE (modeOf m.kind) m.axis
  let s := s.puti R.TRJ_TARGET m.tgt m.axis
  let s := s.put R.TRJ_T_END m.te m.axis
  s.put R.TRJ_STAT_REVERSAL (b2n (m.rest != 0)) m.axis

/-- A limit of a record in units of 2^(-32). -/
def State.lim (s : State) (f : Fld) (a : Nat) : Int := (s.get f a : Int) * 4294967296

/-- The limits of an axis (R170). -/
def State.axLimits (s : State) (a : Nat) : Limits :=
  { v := s.lim R.TRJ_VMAX a, a := s.lim R.TRJ_AMAX a, d := s.lim R.TRJ_DMAX a, j := s.lim R.TRJ_JMAX a }

/-- The values of a quick stop (R170). -/
def State.quickLimits (s : State) (a : Nat) : Limits :=
  { v := 0, a := s.lim R.TRJ_QDEC a, d := s.lim R.TRJ_QDEC a, j := s.lim R.TRJ_QJRK a }

/-- The limits a motion was planned under. -/
def Motion.limits (m : Motion) : Limits :=
  { v := (m.v : Int) * 4294967296, a := (m.a : Int) * 4294967296, d := (m.d : Int) * 4294967296,
    j := (m.j : Int) * 4294967296 }

/-- The queue of an axis is flushed, with a state code of TRJ_SEG_STAT (R170). -/
def State.flushSegs (s : State) (a st : Nat) : State :=
  (({ s with segs := s.segs.filter fun x => x.axis != a }).put R.TRJ_SEG_STAT_COUNT 0 a).put R.TRJ_SEG_STAT_STATE st a

/-- The segments queued for an axis. -/
def State.segsOf (s : State) (a : Nat) : List Seg := s.segs.filter fun x => x.axis == a

/-- The first queued segment of an axis taken out. -/
def dropSeg (a : Nat) : List Seg → List Seg
  | [] => []
  | x :: t => if x.axis = a then t else x :: dropSeg a t

/-- Software limits act (R176). -/
def State.swlOn (s : State) (a : Nat) : Bool :=
  s.on R.TRJ_CFG_SWL_EN a && s.on R.AXS_STATUS_HOMED a && s.get R.HM_STAT_PHASE a == 0

/-- A position clamped into the software limits where they act (R176). -/
def State.swlClamp (s : State) (a : Nat) (p : Int) : Int :=
  if s.swlOn a then clampI (s.geti R.TRJ_SWL_NEG a) (s.geti R.TRJ_SWL_POS a) p else p

/-- The duration of the learnable run: the sum of durations up to and including the first LAST, in periods (R183). -/
def lastRun : List Seg → Nat → Option Nat
  | [], _ => none
  | g :: t, n => if bit g.flags 0 then some (n + g.dur) else lastRun t (n + g.dur)

/-- The cubic of a segment keeps |v| ≤ TRJ_VMAX and |a| ≤ the greater of TRJ_AMAX and TRJ_DMAX throughout, and its
positions inside software limits that act (R184). Ends in units of 2^(-32); coefficients of the velocity times 10^9, over
its duration `n` ns. -/
def State.segOk (s : State) (a : Nat) (p0 v0 p1 v1 : Int) (n : Nat) : Bool :=
  let g : Int := 1000000000
  let n' : Int := n
  let ca := 6 * g * (p0 - p1) + 3 * n' * (v0 + v1)
  let cb := -6 * g * (p0 - p1) - n' * (4 * v0 + 2 * v1)
  let cc := n' * v0
  let vm := s.lim R.TRJ_VMAX a
  let am := max (s.lim R.TRJ_AMAX a) (s.lim R.TRJ_DMAX a)
  let inside := decide (0 < -cb * sgn ca) && decide (-cb * sgn ca < 2 * absI ca)
  let vOk := decide (absI v0 ≤ vm) && decide (absI v1 ≤ vm) &&
    (!inside || decide (absI (4 * ca * cc - cb * cb) ≤ 4 * absI ca * n' * vm))
  let aOk := decide (absI cb * g ≤ n' * n' * am) && decide (absI (2 * ca + cb) * g ≤ n' * n' * am)
  let one : Int := 4294967296
  let okAt := fun (p : Int) => !s.swlOn a ||
    (decide (s.geti R.TRJ_SWL_NEG a * one ≤ p) && decide (p ≤ s.geti R.TRJ_SWL_POS a * one))
  let disc := cb * cb - 4 * ca * cc
  let r : Int := isqrt disc.toNat
  let xs := if ca = 0 ∨ disc < 0 then [] else [(-cb + r) * 65536 * n' / (2 * ca), (-cb - r) * 65536 * n' / (2 * ca)]
  vOk && aOk && okAt p0 && okAt p1 &&
    xs.all fun x => !(decide (0 ≤ x) && decide (x ≤ 65536 * n')) || okAt (cubicAt p0 v0 p1 v1 (65536 * n') x).p

/-- A stop of a kind (4 quick, 6 planned) from a state at time `t` under limits. -/
def stopFrom (a t kind : Nat) (x : Pva) (l : Limits) : Motion :=
  let q := planStop (65536 * t) x l
  ({ axis := a, ts := t, kind := kind, tgt := roundUp q.pEnd 32, d := (l.d / 4294967296).toNat,
     j := (l.j / 4294967296).toNat : Motion }).withPlan q

/-- The function that a queued segment brings from time `t` and a state on: its cubic, or the quick stop of one that
fails its check (R181, R184). -/
def State.segFrom (s : State) (a t : Nat) (x : Pva) (g : Seg) : Motion :=
  let n := g.dur * s.axPeriod a
  let p1 := s.swlClamp a g.pEnd
  let pe := p1 * 4294967296
  let ve := g.vEnd * 4294967296
  if s.segOk a x.p x.v pe ve n then
    { axis := a, ts := t, kind := 2, tgt := p1, te := t + n, begun := true,
      pieces := [.cubic (65536 * t) (65536 * n) x.p x.v pe ve] }
  else stopFrom a t 4 x (s.quickLimits a)

/-- The state at the end of a function. -/
def Motion.endState (m : Motion) : Pva :=
  match pieceAt m.pieces (65536 * m.te) with
  | some x => x.at (65536 * m.te)
  | none => { p := m.tgt * 4294967296, v := 0, a := 0 }

/-- What follows a segment that ends without a successor: a hold where it ends at rest, else a quick stop (R185). -/
def State.underrun (s : State) (a : Nat) (m : Motion) : Motion :=
  let x := m.endState
  if x.v = 0 then { holdMotion a m.te x.p with kind := 2, begun := true } else stopFrom a m.te 4 x (s.quickLimits a)

/-- The function in force at time `t` where queued segments follow a segment `m` (R181, R185). -/
def State.tableRun (s : State) (a t : Nat) : List Seg → Motion → Motion
  | [], m => if m.kind = 2 ∧ m.te ≤ t then s.underrun a m else m
  | g :: l, m => if m.kind = 2 ∧ m.te ≤ t then s.tableRun a t l (s.segFrom a m.te m.endState g) else m

/-- The function of a running table at a time past the end of its segment `m`: its successors in the queue, or, where
they came too late for its end, what the underrun brings and then those (R185). -/
def State.tableAt (s : State) (a t : Nat) (m : Motion) : Motion :=
  let late := s.get H.SEG_TS a
  if late = 0 then s.tableRun a t (s.segsOf a) m
  else
    let w := s.underrun a m
    match s.segsOf a with
    | g :: l => if w.kind = 2 ∧ late ≤ t then s.tableRun a t l (s.segFrom a late w.endState g) else w
    | [] => w

/-- The function of an axis listed for a time: the last whose T_s has come by then, else the first. -/
def State.listedAt (s : State) (a t : Nat) : Option Motion :=
  match ((s.motionsOf a).filter fun m => decide (m.ts ≤ t)).getLast? with
  | some m => some m
  | none => (s.motionsOf a).head?

/-- A listed function is the running segment of its axis. -/
def State.runningSeg (s : State) (m : Motion) : Bool :=
  m.kind == 2 && s.get R.TRJ_SEG_STAT_STATE m.axis == 1 && s.get H.SEG_TK m.axis == m.ts

/-- The function that an axis's demand follows at a time (R164): past the end of the running segment, what the queue
brings next. -/
def State.motionAt (s : State) (a t : Nat) : Option Motion :=
  (s.listedAt a t).map fun m => if s.runningSeg m && decide (m.te ≤ t) then s.tableAt a t m else m

/-- What follows a segment of a running table up to time `t`, where nothing more comes: the queued segments, then the underrun
(R181, R185). -/
def State.tableTail (s : State) (a t : Nat) : List Seg → Motion → List Motion
  | [], m => if m.kind = 2 ∧ m.te < t then [s.underrun a m] else []
  | g :: l, m =>
    if m.kind = 2 ∧ m.te < t then
      let n := s.segFrom a m.te m.endState g
      n :: s.tableTail a t l n
    else []

/-- The same where the successor has come too late and starts at its own T_s (R185). -/
def State.tableLate (s : State) (a t : Nat) (m : Motion) : List Motion :=
  let late := s.get H.SEG_TS a
  if late = 0 then s.tableTail a t (s.segsOf a) m
  else if t ≤ m.te then []
  else
    let w := s.underrun a m
    match s.segsOf a with
    | g :: l =>
      if w.kind = 2 ∧ late < t then
        let n := s.segFrom a late w.endState g
        w :: n :: s.tableTail a t l n
      else [w]
    | [] => [w]

/-- The queue is flushed for a function that takes over at time `t`: up to then the demand follows what the table would have brought
(R165, R175, R181). -/
def State.flushTable (s : State) (a st t : Nat) : State :=
  let l := match (s.motionsOf a).find? fun m => s.runningSeg m with
    | none => []
    | some m => s.tableLate a t m
  (l.foldl (fun s m => s.insMotion m) s).flushSegs a st

/-- The demand of an axis at a time in ns (R164); an axis without a function holds P_DEM. -/
def State.demand (s : State) (a t : Nat) : Pva :=
  match (s.motionAt a t).bind fun m => pieceAt m.pieces (65536 * t) with
  | some x => x.at (65536 * t)
  | none => { p := s.geti R.AXS_P_DEM a * 4294967296, v := 0, a := 0 }

/-- P_DEM of an axis at a time (R164). -/
def State.posDem (s : State) (a t : Nat) : Int := roundUp (s.demand a t).p 32

/-- A stop of a kind (4 quick, 6 planned) of an axis from time `t` under limits. -/
def State.stopMotion (s : State) (a t kind : Nat) (l : Limits) : Motion := stopFrom a t kind (s.demand a t) l

/-- The quick stop of an axis from time `t` on (R45, R49, R191). -/
def State.quickStop (s : State) (a t : Nat) : State :=
  let m := s.stopMotion a t 4 (s.quickLimits a)
  (s.setMotion m).showMotion m

/-- The axis holds the position of its demand from time `t` on. -/
def State.holdFrom (s : State) (a t : Nat) : State :=
  let m := holdMotion a t (s.demand a t).p
  ((s.setMotion m).put R.TRJ_STAT_MODE 0 a).put R.TRJ_STAT_REVERSAL 0 a

/-- The axis is inside its standstill window (R168). -/
def State.still (s : State) (a : Nat) : Bool :=
  decide (absI (s.geti H.AX_V a) ≤ s.get R.TRJ_SSV a) && decide (absI (s.geti R.AXS_FE a) ≤ s.get R.TRJ_SSP a)

/-- T_s of a request accepted at `ta` (R165). -/
def State.tsOf (s : State) (a ta : Nat) : Nat :=
  if s.isNirte a then ta + s.get R.NRT_RCFG_C (s.get H.AX_BIND a) * s.baseNs else ta

/-- A sample up to the next boundary can have its effect at time `t` or after it, so that what follows at `t` has to be known
by then (R165, R181). -/
def State.effectUp (s : State) (a t : Nat) : Bool := s.timeUp (t - s.tsOf a 0)

/-- Functions that no sample still needs are forgotten: those followed by one whose T_s lies 16 ms back. -/
def State.pruneMotions (s : State) (a : Nat) : State :=
  match ((s.motionsOf a).filter fun m => decide (m.ts + 16000000 ≤ s.now)).getLast? with
  | none => s
  | some m => { s with motions := s.motions.filter fun x => x.axis != a || decide (m.ts ≤ x.ts) }

end Sys2Proof.Machine
end

