-- ==== Sys2Proof/Machine/Trig.lean ====
section
/-! DEFINITION. Sines, cosines, tangents, angles, logarithms and exponentials, in fixed point with more places than any
register takes. The spec fixes these values and leaves their last bit open (R74, R79, R80, R98, R310, R317): the value that a
register takes is the one just below or just above, an opaque constant says which (log entry 84). -/

namespace Sys2Proof.Machine

/-- 2π in units of 2^(−64). -/
def twoPi64 : Nat := 115904311329233965478

/-- The terms of the series of a sine or cosine after the term `t`, in units of 2^(−64): `sq` the square of the angle, `k` the
next divisor. -/
def trigSum : Nat → Int → Nat → Int → Int
  | 0, _, _, _ => 0
  | n + 1, t, k, sq =>
    let u := -(t * sq) / (2 ^ 64 * (k * (k + 1) : Nat))
    u + trigSum n u (k + 2) sq

/-- The angle of a part of a turn in units of 2^(−64), in radians of the same units. -/
def radians64 (r : Nat) : Nat := r * twoPi64 / 2 ^ 64

/-- The sine of an angle up to an eighth of a turn. -/
def sinSmall (r : Nat) : Int :=
  let a : Int := radians64 r
  a + trigSum 12 a 2 (a * a / 2 ^ 64)

/-- The cosine of an angle up to an eighth of a turn. -/
def cosSmall (r : Nat) : Int :=
  let a : Int := radians64 r
  2 ^ 64 + trigSum 12 (2 ^ 64) 1 (a * a / 2 ^ 64)

/-- The sine of an angle up to a quarter of a turn. -/
def sinFirst (r : Nat) : Int := if r ≤ 2 ^ 61 then sinSmall r else cosSmall (2 ^ 62 - r)

/-- The sine of an angle in units of 2^(−64) turns, in units of 2^(−64). -/
def sin64 (t : Nat) : Int :=
  let r := t % 2 ^ 62
  match t / 2 ^ 62 % 4 with
  | 0 => sinFirst r
  | 1 => sinFirst (2 ^ 62 - r)
  | 2 => -sinFirst r
  | _ => -sinFirst (2 ^ 62 - r)

/-- The cosine of an angle. -/
def cos64 (t : Nat) : Int := sin64 (t + 2 ^ 62)

/-- The part of a turn of a phase in turns, in units of 2^(−64). -/
def turn64 (x : Rat) : Nat := (x.num * 2 ^ 64 / (x.den : Int) % 2 ^ 64).toNat

/-- A value in units of 2^(−64) brought to `w` binary places: the value below it, or with `up` the one above. -/
def lastBit (up : Bool) (w : Nat) (v : Int) : Int :=
  asr v (64 - w) + if up && v % ((2 ^ (64 - w) : Nat) : Int) != 0 then 1 else 0

/-- The cosine of `n/d` turns in Q2.30 (R79, R80). -/
def cosTurn (n d : Nat) : Int := lastBit (Config.cosUp n d) 30 (cos64 (turn64 (mkRat n d)))

/-- The sine of a phase in turns, Q1.31 (R98). -/
def sinTurn (x : Rat) : Int := lastBit (Config.sinUp x) 31 (sin64 (turn64 x))

/-- The tangent of a number of half turns, below a half of one (R74). -/
def tanTurn (x : Rat) : Rat :=
  let t := turn64 (x / 2)
  mkRat (sin64 t) (cos64 t).toNat

/-! ### Logarithms and exponentials -/

/-- The logarithm of 2 in units of 2^(−128). -/
def lnTwo : Nat := 235865763225513294137944142764154484399

/-- The terms of the inverse hyperbolic tangent from the power `p` of its argument on, in units of 2^(−128): `sq` the square of
the argument, `k` the next divisor. -/
def atanhSum : Nat → Int → Nat → Int → Int
  | 0, _, _, _ => 0
  | n + 1, p, k, sq => p / k + atanhSum n (p * sq / 2 ^ 128) (k + 2) sq

/-- The natural logarithm of a number of 1 or more, in units of 2^(−128). -/
def lnUp (x : Rat) : Int :=
  let k := (x.num.toNat / x.den).log2
  let m : Int := x.num * 2 ^ 128 / (x.den * 2 ^ k : Nat)
  let z := (m - 2 ^ 128) * 2 ^ 128 / (m + 2 ^ 128)
  2 * atanhSum 44 z 1 (z * z / 2 ^ 128) + k * lnTwo

/-- The natural logarithm of a positive number. -/
def ln128 (x : Rat) : Int := if 1 ≤ x then lnUp x else -lnUp (1 / x)

/-- The terms of an exponential from the term `t` on. -/
def expSum : Nat → Int → Nat → Int → Int
  | 0, _, _, _ => 0
  | n + 1, t, k, r => t + expSum n (t * r / (2 ^ 128 * k)) (k + 1) r

/-- The exponential of a number in units of 2^(−128). -/
def expRat (v : Int) : Rat :=
  let k := v / lnTwo
  let e : Rat := mkRat (expSum 40 (2 ^ 128) 1 (v - k * lnTwo)) (2 ^ 128)
  if 0 ≤ k then e * 2 ^ k.toNat else e / 2 ^ (-k).toNat

/-- The phase in turns of a sweep in even ratios from one frequency to another, both in Hz, at a time out of its duration, both in
seconds (R98). -/
def logPhase (f0 f1 t d : Rat) : Rat :=
  let l := ln128 (f1 / f0)
  f0 * d * mkRat (2 ^ 128) 1 / (l : Rat) * (expRat ((l : Rat) * t / d).floor - 1)

/-! ### Angles -/

/-- The greatest angle, in units of 2^(−16) turns, from `n` on in steps of `2^k` downwards, that does not pass the direction of a
vector of the first quadrant. -/
def angleFrom : Nat → Nat → Int → Int → Nat
  | 0, n, _, _ => n
  | k + 1, n, x, y =>
    let m := n + 2 ^ k
    angleFrom k (if x * sin64 (m * 2 ^ 48) ≤ y * cos64 (m * 2 ^ 48) then m else n) x y

/-- The angle of a vector, 65 536 a revolution (R310): the unit below its direction, or the one above. Of the vector 0 the spec
states none. -/
def vectorAngle (x y : Int) : Nat :=
  if x = 0 ∧ y = 0 then Config.angleOfZero % 65536
  else
    let q := if 0 < x ∧ 0 ≤ y then 0 else if x ≤ 0 ∧ 0 < y then 1 else if x < 0 ∧ y ≤ 0 then 2 else 3
    let u := if q = 0 then (x, y) else if q = 1 then (y, -x) else if q = 2 then (-x, -y) else (-y, x)
    let n := angleFrom 14 0 u.1 u.2
    let exact := u.1 * sin64 (n * 2 ^ 48) == u.2 * cos64 (n * 2 ^ 48)
    (16384 * q + n + if Config.angleUp x y && !exact then 1 else 0) % 65536

end Sys2Proof.Machine
end

