-- ==== Sys2Proof/Machine/CascadeOps.lean ====
section
/-! DEFINITION. Section arithmetic, seeding, the cascade, tuning signals, probes and the following-error
supervisor (R64 to R73, R82 to R84, R96 to R99, R511). -/

namespace Sys2Proof.Machine

/-! ### Sections -/

/-- The coefficients and SHIFT of a section. -/
structure Coef where
  b0 : Int
  b1 : Int
  b2 : Int
  a1 : Int
  a2 : Int
  sh : Nat
  deriving DecidableEq, Repr

/-- 1.0 in Q2.30. -/
def oneQ30 : Int := 1073741824

/-- The tracker whose second bank a section uses (R80). -/
def State.trkBank (s : State) (a k : Nat) : Option Nat :=
  if s.on R.AXS_TRK_CTL_T0_EN a && s.on R.AXS_TRK_CTL_T0_BANK a && s.get R.AXS_TRK_CTL_T0_SEC a == k then some 0
  else if s.on R.AXS_TRK_CTL_T1_EN a && s.on R.AXS_TRK_CTL_T1_BANK a && s.get R.AXS_TRK_CTL_T1_SEC a == k then some 1
  else none

/-- The SHIFT of section `k` (R102). -/
def State.secShift (s : State) (a k : Nat) : Nat :=
  bits (if k < 8 then s.get R.AXS_SEC_SHIFT0 a else if k < 16 then s.get R.AXS_SEC_SHIFT1 a
    else s.get R.AXS_SEC_SHIFT2 a) (3 * (k % 8)) 3

/-- The coefficients in use of section `k` of an axis (R68, R80). -/
def State.coefOf (s : State) (a k : Nat) : Coef :=
  let c := fun n => match s.trkBank a k with
    | some 0 => s.geti R.AXS_TRK0_COEF a n
    | some _ => s.geti R.AXS_TRK1_COEF a n
    | none => s.geti R.AXS_SEC_COEF a (5 * k + n)
  { b0 := c 0, b1 := c 1, b2 := c 2, a1 := c 3, a2 := c 4, sh := s.secShift a k }

/-- The result of a section: its output and its two states. -/
structure SecOut where
  y : Int
  s1 : Int
  s2 : Int
  deriving DecidableEq, Repr

/-- One sample of a section (R68). -/
def Coef.run (c : Coef) (x s1 s2 : Int) : SecOut :=
  let acc := c.b0 * x + s1
  let yp := satI 32 (roundUp acc 30)
  { y := satI 32 (roundUp acc (30 - c.sh)), s1 := satI 64 (c.b1 * x - c.a1 * yp + s2),
    s2 := satI 64 (c.b2 * x - c.a2 * yp) }

/-- 1 + A1 + A2; 0 for an integrating section. -/
def Coef.den (c : Coef) : Int := oneQ30 + c.a1 + c.a2

/-- B0 + B1 + B2. -/
def Coef.num (c : Coef) : Int := c.b0 + c.b1 + c.b2

/-- A quotient rounded to nearest, ties away from zero, with a divisor of either sign. -/
def divSign (a b : Int) : Int := if b < 0 then divRound (-a) (-b).toNat else divRound a b.toNat

/-- The states at rest on input `x` with the output `n/d` before SHIFT (R70, R511): those that give it again and again. An output
that its 32 bits do not hold stays at their end. -/
def Coef.rest (c : Coef) (x n d : Int) : Int × Int :=
  let y := satI 32 (divSign n d)
  if y = divSign n d then
    (satI 64 (divSign (n * oneQ30) d - c.b0 * x), satI 64 (c.b2 * x - divSign (c.a2 * n) d))
  else (satI 64 (c.b1 * x - c.a1 * y + satI 64 (c.b2 * x - c.a2 * y)), satI 64 (c.b2 * x - c.a2 * y))

/-- The states that an unbounded run on input `x` reaches, by which the output is the DC gain times `x`; an integrating section
gives `x` at its output (R70). -/
def Coef.steady (c : Coef) (x : Int) : Int × Int :=
  if c.den = 0 then c.rest x x ((2 ^ c.sh : Nat) : Int) else c.rest x (x * c.num) c.den

/-- The output of a section at rest on input `x`. -/
def Coef.restOut (c : Coef) (x : Int) : Int := (c.run x (c.steady x).1 (c.steady x).2).y

/-- A section's states stored. -/
def State.putStates (s : State) (a k : Nat) (st : Int × Int) : State :=
  (s.puti R.AXS_SEC_STATE st.1 a (2 * k)).puti R.AXS_SEC_STATE st.2 a (2 * k + 1)

/-- CLHOLD keeps the states: the limiter clamped in the previous sample and the input drives further into it (R72). -/
def State.clhold (s : State) (a k : Nat) (x : Int) : Bool :=
  bit (s.get R.AXS_SEC_CLHOLD a) k &&
    ((decide (0 < x) && bit (s.get R.AXS_LIM_FLAGS a) 0) || (decide (x < 0) && bit (s.get R.AXS_LIM_FLAGS a) 1))

/-- One sample of section `k` of an axis on input `x` (R68, R70 to R72): the state after it; its output is then in
SEC_Y. -/
def State.secRun (s : State) (a k : Nat) (x : Int) : State :=
  if bit (s.get R.AXS_SEC_BYPASS a) k then
    ((s.puti H.SEC_Y x a k).puti H.SEC_HELD x a k).put H.SEC_BYP 1 a k
  else if bit (s.get R.AXS_SEC_FREEZE a) k then s.puti H.SEC_Y (s.geti H.SEC_HELD a k) a k
  else
    let c := s.coefOf a k
    let s := s.when (s.on H.SEC_BYP a k) fun s => (s.putStates a k (c.steady x)).put H.SEC_BYP 0 a k
    let r := c.run x (s.geti R.AXS_SEC_STATE a (2 * k)) (s.geti R.AXS_SEC_STATE a (2 * k + 1))
    let s := s.when (!s.clhold a k x) fun s => s.putStates a k (r.s1, r.s2)
    (s.puti H.SEC_Y r.y a k).puti H.SEC_HELD r.y a k

/-- The sections in use of a stage (R64): 0 position, 1 velocity, 2 output. -/
def State.stage (s : State) (a st : Nat) : List Nat :=
  if st = 0 then List.range (s.get R.AXS_STAGE_CFG_NPOS a)
  else if st = 1 then (List.range (s.get R.AXS_STAGE_CFG_NVEL a)).map (· + 8)
  else (List.range (s.get R.AXS_STAGE_CFG_NOUT a)).map (· + 20)

/-- The output of a stage run on sections `l` with input `x`. -/
def State.stageOut (s : State) (a : Nat) (l : List Nat) (x : Int) : Int :=
  match l.getLast? with
  | none => x
  | some k => s.geti H.SEC_Y a k

/-- The input of the section after those of `l`, run in ascending index. -/
def State.runStageFrom (s : State) (a : Nat) (x : Int) : List Nat → State
  | [] => s
  | k :: t =>
    let s := s.secRun a k x
    s.runStageFrom a (s.geti H.SEC_Y a k) t

/-! ### Seeding (R511) -/

/-- A section's seeded states and the output they give, which becomes the held output (R71, R511). -/
def State.seedSec (s : State) (a k : Nat) (st : Int × Int) (y : Int) : State :=
  (((s.putStates a k st).puti H.SEC_Y y a k).puti H.SEC_HELD y a k).put H.SEC_BYP 0 a k

/-- Section `k` takes part in seeding: it is not bypassed (R70, R511). -/
def State.seeds (s : State) (a k : Nat) : Bool := !bit (s.get R.AXS_SEC_BYPASS a) k

/-- Sections seeded at steady state for their seeded input, from `x` on; a bypassed one passes it on (R70). -/
def State.seedChain (s : State) (a : Nat) (x : Int) : List Nat → State
  | [] => s
  | k :: t =>
    if s.seeds a k then
      let c := s.coefOf a k
      (s.seedSec a k (c.steady x) (c.restOut x)).seedChain a (c.restOut x) t
    else (((s.puti H.SEC_Y x a k).puti H.SEC_HELD x a k).put H.SEC_BYP 1 a k).seedChain a x t

/-- Sections seeded at steady state for zero input; the states of a bypassed one are held (R70). -/
def State.seedZero (s : State) (a : Nat) (l : List Nat) : State :=
  s.each l fun s k =>
    if s.seeds a k then s.seedSec a k (0, 0) 0
    else ((s.puti H.SEC_Y 0 a k).puti H.SEC_HELD 0 a k).put H.SEC_BYP 1 a k

/-- The last section of a stage adjusted so that its output for input `x` is `t` in the next sample: its S1, with S2 as given
(R511). -/
def State.seedLast (s : State) (a k : Nat) (x t s2 : Int) : State :=
  let c := s.coefOf a k
  s.seedSec a k (satI 64 (t * ((2 ^ (30 - c.sh) : Nat) : Int) - c.b0 * x), s2) t

/-- The last integrating section of a stage, of those not bypassed. -/
def State.lastIntegrating (s : State) (a : Nat) (l : List Nat) : Option Nat :=
  (l.filter fun k => s.seeds a k && (s.coefOf a k).den == 0).getLast?

/-- The DC gain of sections as a fraction: numerator and denominator; a bypassed one has 1. -/
def State.dcGain (s : State) (a : Nat) (l : List Nat) : Int × Int :=
  (l.filter fun k => s.seeds a k).foldl (fun g k =>
    let c := s.coefOf a k
    (g.1 * c.num * ((2 ^ c.sh : Nat) : Int), g.2 * c.den)) (1, 1)

/-- The carrier stage seeded with torque `t` (R511). Where the sections after the last integrating one have a DC gain of 0, no
output of it makes the stage give `t`, and the spec states no other: a free value (log entry 236). -/
def State.seedCarrier (s : State) (a : Nat) (l : List Nat) (t : Int) : State :=
  match s.lastIntegrating a l with
  | some k =>
    let after := l.filter fun n => decide (k < n)
    let g := s.dcGain a after
    let y := if g.1 = 0 then sext 32 (s.free 32) else satI 32 (divSign (t * g.2) g.1)
    let s := s.when (g.1 == 0) fun s => s.useFree
    let c := s.coefOf a k
    let s := s.seedZero a (l.filter fun n => decide (n < k))
    (s.seedSec a k (c.rest 0 y ((2 ^ c.sh : Nat) : Int)) y).seedChain a y after
  | none =>
    match (l.filter fun k => s.seeds a k).getLast? with
    | none => s.seedZero a l
    | some k => ((s.seedZero a (l.filter fun n => decide (n < k))).seedLast a k 0 t 0).seedChain a t (l.filter fun n => decide (k < n))

/-- The section states at enabling (R43 step 4, R511), for a seed torque. In an output stage whose DC gain is not 1, the last
section's S1 is adjusted, its S2 staying at steady state. -/
def State.seed (s : State) (a : Nat) (t : Int) : State :=
  let s := s.seedZero a (s.stage a 0)
  let vel := s.stage a 1
  let out := s.stage a 2
  if vel.isEmpty then s.seedCarrier a out t
  else
    let s := (s.seedCarrier a vel t).seedChain a t out
    match (out.filter fun k => s.seeds a k).getLast? with
    | none => s
    | some k =>
      let g := s.dcGain a out
      if g.1 = g.2 then s
      else
        let x := s.stageOut a (out.filter fun n => decide (n < k)) t
        (s.seedLast a k x t ((s.coefOf a k).steady x).2).seedChain a t (out.filter fun n => decide (k < n))

/-! ### Tuning signals, probes -/

/-- The injection channel whose sweep runs on an axis at a point. -/
def State.swFor (s : State) (a code : Nat) : Option Nat :=
  (List.range 32).find? fun c =>
    s.on H.SW_ON c && s.on H.SW_RUN c && s.get H.SW_AXIS c == a && s.get H.SW_CODE c == code &&
      decide (s.get H.SW_K c < s.get H.SW_LEN c)

/-- The fraction of a turn of a phase. -/
def turnOf (x : Rat) : Rat := x - (x.floor : Rat)

/-- A frequency of a swept sine, Q16.16 Hz held to 0.1 Hz to half the sample rate, in Hz (R98). -/
def sweptFreq (f period : Nat) : Rat :=
  mkRat (clampN 6554 (max 6554 (65536 * 500000000 / max 1 period)) f) 65536

/-- The phase in turns of a swept sine, a time after its start out of its duration, both in seconds: the integral of the
frequency, which goes from one value to the other in even steps or in even ratios (R98). -/
def sweptPhase (linear : Bool) (f0 f1 t d : Rat) : Rat :=
  if linear || f0 == f1 then f0 * t + (f1 - f0) * t * t / (2 * d) else logPhase f0 f1 t d

/-- The Schroeder phase of the `j`-th of `n` harmonics, in turns (R98). -/
def schroeder (j n : Nat) : Rat := mkRat (-((j * (j + 1) : Nat) : Int)) (2 * n)

/-- The harmonics of a multisine: the places of the bits of its mask, from 1 (R98). -/
def harmonics (p : List Nat) : List Nat := (bitsOn 64 (p.getD 1 0 + 2 ^ 32 * p.getD 2 0)).map (· + 1)

/-- Sample `k` of a multisine, Q1.31: the sum of the harmonics of its base frequency, which repeats after `2^n` samples
(R98). -/
def multisine (p : List Nat) (k : Nat) : Int :=
  let n := 2 ^ clampN 8 16 (p.getD 0 0)
  let hs := harmonics p
  let x := hs.zipIdx.foldl (fun x h => x + sinTurn (turnOf (mkRat (h.1 * (k % n) : Nat) n + schroeder h.2 hs.length))) 0
  ratIn 1 (Config.multisineScale hs * (x : Rat))

/-- Sample `k` of a pseudo-random binary sequence, full scale of one sign or the other, each step held (R98). -/
def prbs (p : List Nat) (k : Nat) : Int :=
  let n := clampN 7 15 (p.getD 0 0)
  if Config.prbsBit n (k / clampN 1 8 (p.getD 1 0) % (2 ^ n - 1)) then 2 ^ 31 else -(2 ^ 31)

/-- Sample `k` of `len` of a tuning signal in Q1.31 of its amplitude, at a period in ns (R98; log entry 246). -/
def testSignal (sig : Nat) (p : List Nat) (k len period : Nat) : Int :=
  if sig = 0 then
    sinTurn (turnOf (sweptPhase (p.getD 2 0 == 0) (sweptFreq (p.getD 0 0) period) (sweptFreq (p.getD 1 0) period)
      (mkRat (k * period) 1000000000) (mkRat (len * period) 1000000000)))
  else if sig = 1 then multisine p k
  else prbs p k

/-- The present value of the signal of a channel, within its amplitude (R98). -/
def State.swSignal (s : State) (a c : Nat) : Int :=
  let p := (List.range 11).map fun k => s.get H.SW_PAR c k
  let y := testSignal (s.get H.SW_SIG c) p (s.get H.SW_K c) (s.get H.SW_LEN c) (s.axPeriod a)
  let m := absI (s.geti H.SW_AMP c)
  satI 32 (clampI (-m) m (roundUp (y * s.geti H.SW_AMP c) 31))

/-- A signal with the injection of its point added, saturated again (R98). -/
def State.injected (s : State) (a code : Nat) (x : Int) : Int :=
  match s.swFor a code with
  | none => x
  | some c => satI 32 (x + s.swSignal a c)

/-- The value of a probe code in the last sample (R96). The codes 0x22 to 0xFE name no signal: a probe that selects one reads 0, the
model's choice (log entry 237). -/
def State.signal (s : State) (a code : Nat) : Nat :=
  trunc 32 (if code < 24 then s.geti H.SEC_Y a code
    else if code = 0x18 then s.geti H.AX_XP a
    else if code = 0x19 then s.geti H.AX_XV a
    else if code = 0x1A then s.geti H.AX_XO a
    else if code = 0x1B then s.geti R.AXS_TRQ_CMD a
    else if code = 0x1C then s.geti H.AX_VFF a
    else if code = 0x1D then s.geti H.AX_AFF a
    else if code = 0x1E then s.geti H.AX_TFF a
    else if code = 0x1F then s.geti H.AX_UL a
    else if code = 0x20 then s.geti R.AXS_V_ACT a
    else if code = 0x21 then s.geti H.AX_INJ a
    else 0)

/-- The code of probe `q` (R102). -/
def State.probeSel (s : State) (a q : Nat) : Nat :=
  if q < 4 then bits (s.get R.AXS_PRB_SEL0 a) (8 * q) 8 else bits (s.get R.AXS_PRB_SEL1 a) (8 * (q - 4)) 8

/-- A record is written into a region of trace pages, a full ring overwriting its oldest (R97, R263): the record's size,
its bytes. -/
def State.ringPut (s : State) (base size : Nat) (rec : List Nat) : State :=
  let i := s.load base 4
  let cap := s.load (base + 4) 4
  let s := s.setBytes (base + 0x40 + size * i) rec
  if i + 1 < cap then s.store base 4 (i + 1) else (s.store base 4 0).store (base + 8) 4 (s.load (base + 8) 4 + 1)

/-- The probe record of a sample (R97). -/
def State.probeRecord (s : State) (a : Nat) : State :=
  if !s.on R.AXS_PRB_CTL_EN a || s.get H.PRB_PAGE a == 0 then s
  else if s.get H.PRB_DEC a < s.get R.AXS_PRB_CTL_DECIM a then s.incWrap H.PRB_DEC a
  else
    let base := pageAddr (s.get H.PRB_PAGE a - 1)
    let mask := (List.range 8).foldl (fun m q => if s.probeSel a q = 0xFF then m else setBit m q) 0
    let ws := (s.get R.AXS_STATUS_SAMPLE_SEQ a + mask * 65536) ::
      (List.range 8).map (fun q => if s.probeSel a q = 0xFF then 0 else s.signal a (s.probeSel a q)) ++ [0]
    let s := s.when (s.load (base + 8) 4 != 0) fun s => s.incSat R.AXS_PRB_STAT_LOST a
    (s.ringPut base 40 (ofWords ws)).put H.PRB_DEC 0 a

/-- The values of a sample for the sweeps of an axis: injected signal and responses (R99). -/
def State.sweepSample (s : State) (a : Nat) : State :=
  s.each (List.range 32) fun s c =>
    s.when (s.on H.SW_ON c && s.on H.SW_RUN c && s.get H.SW_AXIS c == a &&
        decide (s.get H.SW_K c < s.get H.SW_LEN c)) fun s =>
      let v := s.swSignal a c
      let s := (s.puti H.SW_V v c 0).puti H.AX_INJ v a
      let s := s.each (List.range 3) fun s k => s.put H.SW_V (s.signal a (s.get H.SW_RESP c k)) c (k + 1)
      s.incSat H.SW_K c

/-! ### The supervisor -/

/-- Elapsed count of the timed limit at which FE_TIMED is raised (R83). -/
def State.feCount (s : State) (a : Nat) : Nat :=
  (s.get R.AXS_FE_TIME a * 1000 + s.axPeriod a - 1) / max 1 (s.axPeriod a)

/-- Hard-stop phase of homing: phase 1 of method 4 (R192). -/
def State.hardStop (s : State) (a : Nat) : Bool :=
  s.get R.HM_STAT_PHASE a == 1 && s.get R.HM_CFG_METHOD a == 4

/-- The supervisor acts on the axis: not on a Pulse or Local-Step axis without an encoder (R82). -/
def State.supervised (s : State) (a : Nat) : Bool := s.axKind a < 2 || (s.encOf a).isSome

/-- The timed limit restarts (R83). -/
def State.feClear (s : State) (a : Nat) : State :=
  ((s.put R.AXS_FE_CTL_FE_CNT 0 a).put R.AXS_STATUS_FE_WARN 0 a).put H.AX_FEHIT 0 a

/-- The following-error checks of one sample (R82 to R84, R192). FE_TIMED is not raised by a count that is reached in a sample
that raises FE_IMMEDIATE (R84). -/
def State.supervise (s : State) (a : Nat) (closed : Bool) : State :=
  if !closed || !s.supervised a then ((s.feClear a).put H.AX_CLOSED (b2n closed) a).put H.AX_OVIMM 0 a
  else
    let fe := absI (s.geti R.AXS_FE a)
    let immLim := if s.hardStop a then s.get R.HM_FEIMM a else s.get R.AXS_FE_IMM a
    let above := decide ((immLim : Int) < fe)
    let imm := above && s.on R.AXS_FE_CTL_EN_IMM a && !(s.on H.AX_CLOSED a && s.on H.AX_OVIMM a)
    let s := s.when imm fun s => s.post a (.fault 2)
    let timed := s.on R.AXS_FE_CTL_EN_TIMED a && !s.hardStop a
    let s := if timed && decide ((s.get R.AXS_FE_LIMIT a : Int) < fe) then
        let s := if s.on R.AXS_STATUS_FE_WARN a then s.incSat R.AXS_FE_CTL_FE_CNT a
          else (s.put R.AXS_FE_CTL_FE_CNT 0 a).put R.AXS_STATUS_FE_WARN 1 a
        s.when (imm && decide (s.feCount a ≤ s.get R.AXS_FE_CTL_FE_CNT a)) fun s => s.put H.AX_FEHIT 1 a
      else s.feClear a
    (s.put H.AX_CLOSED 1 a).put H.AX_OVIMM (b2n above) a

end Sys2Proof.Machine
end

