-- ==== Sys2Proof/Machine/AxisOps.lean ====
section
/-! DEFINITION. The axis states: standard clause descriptors (R138, R139, R150), torque and brake, functions going
idle (R47), fault reactions (R49 to R54), and the transitions of R42. -/

namespace Sys2Proof.Machine

/-! ### Standard descriptors -/

/-- The cost of one section: frozen or bypassed 4, with CLHOLD 14, plain 10 (R138). -/
def State.secCost (s : State) (a k : Nat) : Nat :=
  if bit (s.get R.AXS_SEC_FREEZE a) k || bit (s.get R.AXS_SEC_BYPASS a) k then 4
  else if bit (s.get R.AXS_SEC_CLHOLD a) k then 14 else 10

/-- The cost of the sections of a stage. -/
def State.stageCost (s : State) (a st : Nat) : Nat := (s.stage a st).foldl (fun c k => c + s.secCost a k) 0

/-- The cost of an axis's clause by type (R138): 0 axis loop, 1 position part, 2 velocity part, 4 trajectory step. -/
def State.clauseCost (s : State) (a ty : Nat) : Nat :=
  match ty with
  | 0 => 220 + s.stageCost a 0 + s.stageCost a 1 + s.stageCost a 2
  | 1 => 150 + s.stageCost a 0
  | 2 => 120 + s.stageCost a 1 + s.stageCost a 2
  | _ => 110

/-- What stands in a standard descriptor (R137, R138). -/
structure StdDesc where
  prio : Nat := 0
  rel : Nat := 3
  ty : Nat := 0
  rec_ : Nat := 0
  rtype : Nat := 2
  slot : Nat := 0
  ring : Nat := 0
  div : Nat := 0
  phase : Nat := 0
  cost : Nat := 0
  dlsel : Nat := 1
  dlrel : Nat := 0
  nxt : Option Nat := none
  sib : Option Nat := none
  join : Nat := 0
  deriving DecidableEq, Repr

/-- The firmware entry point of a clause type; the value depends on the firmware build (R137). -/
def entryOf (ty : Nat) : Nat := Config.freeValue (2 ^ 64 + ty) % 0xC000

/-- The eight words of an enabled standard descriptor; its budget is its cost plus 40 cycles (R137, R138). -/
def StdDesc.words (d : StdDesc) : List Nat :=
  [entryOf d.ty + d.prio * 2 ^ 16 + d.rel * 2 ^ 20 + 2 ^ 22 + d.ty * 2 ^ 24,
   d.rec_ + d.rtype * 2 ^ 8,
   d.slot + d.ring * 2 ^ 15 + d.div * 2 ^ 16 + d.phase * 2 ^ 18,
   (d.cost + 40) % 2 ^ 16 + d.dlsel * 2 ^ 16 + d.dlrel % 2 ^ 14 * 2 ^ 18,
   d.nxt.getD 0 + b2n d.nxt.isSome * 2 ^ 10 + d.sib.getD 0 * 2 ^ 16 + b2n d.sib.isSome * 2 ^ 26 + d.join * 2 ^ 28,
   0, 0, 0]

/-- The ring of the data tree an axis belongs to: 0 A, 1 B, 2 local (R20). -/
def State.ringOf (s : State) (a : Nat) : Nat := if s.isNirte a then s.get H.AX_BIND a else 2

/-- The group of an axis; 255 none. -/
def State.groupOf (s : State) (a : Nat) : Nat := s.get R.AXS_STAGE_CFG_GROUP a

/-- The channels bound to an axis that hold a tuning-capture descriptor. -/
def State.capChans (s : State) (a : Nat) : List Nat :=
  (List.range 32).filter fun c => s.on H.SW_ON c && s.get H.SW_AXIS c == a && bit (s.get H.SW_DESC c) 10

/-- The first tuning-capture descriptor of an axis. -/
def State.capDescOf (s : State) (a : Nat) : Option Nat := (s.capChans a).head?.map fun c => s.get H.SW_DESC c % 1024

/-- The tuning-capture descriptor after that of channel `c`. -/
def State.capNext (s : State) (a c : Nat) : Option Nat :=
  ((s.capChans a).find? fun x => decide (c < x)).map fun x => s.get H.SW_DESC x % 1024

/-- The common part of the descriptors of an axis's clauses. -/
def State.axStd (s : State) (a ty : Nat) : StdDesc :=
  { ty := ty, rec_ := a, rtype := 0, slot := if s.isNirte a then s.get H.AX_SLOT a else 0,
    ring := if s.isNirte a then s.get H.AX_BIND a else 0, div := s.get H.AX_DIV a, phase := s.get H.AX_PHASE a,
    cost := s.clauseCost a ty, rel := if s.isNirte a then 0 else 1, dlsel := if s.isNirte a then 0 else 1 }

/-- A member of a group by its axis: the velocity-part descriptor. -/
def State.velDesc (s : State) (a : Nat) : Nat := s.get H.AX_DESC2 a % 1024

/-- The member after `a` in its group. -/
def State.nextMember (s : State) (g a : Nat) : Option Nat :=
  (((s.members g).dropWhile fun x => x != a).drop 1).head?

/-- The descriptor words of an axis's clauses: index and words (R138, R150). -/
def State.axDescs (s : State) (a : Nat) : List (Nat × List Nat) :=
  let g := s.groupOf a
  if g = 255 then
    let ty := if 2 ≤ s.axKind a && (s.encOf a).isNone then 4 else 0
    let prio := if ty = 0 && s.on R.AXS_STATUS_SAFE_DEMAND a then 7 else 5
    [(s.get H.AX_DESC a % 1024, { s.axStd a ty with prio := prio, nxt := s.capDescOf a }.words)]
  else
    [(s.get H.AX_DESC a % 1024,
      { s.axStd a 1 with prio := 6, dlsel := 3, nxt := some (s.get H.GRP_DESC g % 1024) }.words),
     (s.velDesc a,
      { s.axStd a 2 with
        prio := 6, rel := 2, nxt := s.capDescOf a, sib := (s.nextMember g a).map s.velDesc }.words)]

/-- The cost of a group clause: N members, c enabled cross-coupling sections (R138). -/
def groupCost (n c : Nat) : Nat := 60 + 16 * n + (n * n + 1) / 2 + 12 * c

/-- The descriptor words of a group's clause (R138, R150). -/
def State.groupDesc (s : State) (g : Nat) : List (Nat × List Nat) :=
  let ms := s.members g
  match ms with
  | [] => []
  | m :: _ =>
    let c := ((List.range 4).filter fun k => s.on R.GRP_CC_CTL_EN g k).length
    [(s.get H.GRP_DESC g % 1024,
      { s.axStd m 3 with
        rec_ := g, rtype := 1, prio := 6, rel := 2, slot := 0, ring := 0, dlsel := 3,
        cost := groupCost ms.length c, nxt := some (s.velDesc m), join := ms.length }.words)]

/-- How many axes are configured on a ring of the data tree. -/
def State.ringAxes (s : State) (r : Nat) : List Nat := s.axes.filter fun a => s.ringOf a == r

/-- The supervision clause of a ring with `n` axes (R138); disabled without one. -/
def State.supDesc (s : State) (r n : Nat) : List Nat :=
  if n = 0 then descFree
  else { ty := 5, rtype := 2, prio := 3, rel := 1, div := 3, cost := 40 + 6 * n, dlsel := 2,
         dlrel := 8 * s.baseNs / 128, ring := r % 2 : StdDesc }.words

/-- A learning-update clause (R138). -/
def State.lffDesc (s : State) (t : Nat) : List Nat :=
  { ty := 6, rec_ := t, rtype := 2, prio := 2, rel := 1, div := 3, cost := 6200, dlsel := 2,
    dlrel := 8 * s.baseNs / 128 : StdDesc }.words

/-- The tuning-capture clause of a channel bound to an axis (R138). -/
def State.swDesc (s : State) (c a : Nat) : List Nat :=
  { ty := 7, rec_ := c, rtype := 2, prio := 1, rel := 2, div := s.get H.AX_DIV a, cost := 24, dlsel := 2,
    dlrel := 2 * s.baseNs / 128, sib := s.capNext a c : StdDesc }.words

/-- Descriptor words staged where they differ from what stands or waits (R136). -/
def State.stageAll (s : State) (l : List (Nat × List Nat)) : State :=
  s.each l fun s p => if (s.descNext p.1).take 5 = p.2.take 5 then s else s.descStage p.1 p.2

/-- The descriptors of an axis and its group brought up to date. -/
def State.relink (s : State) (a : Nat) : State :=
  if s.axSt a = 0 then s
  else
    let g := s.groupOf a
    let s := s.stageAll ((s.capChans a).map fun c => (s.get H.SW_DESC c % 1024, s.swDesc c a))
    (s.stageAll (s.axDescs a)).when (g != 255) fun s => s.stageAll (s.groupDesc g)

/-- A free descriptor marked as taken: index plus 2^10. -/
def State.takeDesc (s : State) : Option Nat := s.descAlloc.map fun d => 1024 + d

/-- A descriptor given back (R136). -/
def State.freeDesc (s : State) (d : Nat) : State := if bit d 10 then s.descStage (d % 1024) descFree else s

/-! ### Torque, brake, commands -/

/-- The latest delivery for an axis that waits in the frame builder. -/
def State.outLast (s : State) (a : Nat) : Option OutCmd := (s.outs.filter fun o => o.axis == a && !o.ovr).getLast?

/-- The command of the axis published last has EN at 1 (R217, R305). -/
def State.lastEn (s : State) (a : Nat) : Bool :=
  if s.isNirte a then
    match s.outLast a with
    | some o => bit (o.words.getD 0 0) 0
    | none => s.on H.OUT_V a && bit (s.get H.OUT_W a 0) 0
  else s.on H.OUT_V a && bit (s.get H.OUT_W a 3) 0

/-- The brake of an axis, applied or released. -/
def State.brake (s : State) (a : Nat) (applied : Bool) : State := s.put R.AXS_STATUS_BRAKE (b2n applied) a

/-- The count of the encoder bound to a drive port; 0 without one (R308). -/
def State.dpEnc (s : State) (p : Nat) : Nat :=
  if s.get R.DRV_CFG_ENC p < 8 then s.get R.DRV_ENC_CNT (s.get R.DRV_CFG_ENC p) else 0

/-- The stage of a drive port is powered down, or its start abandoned (R320, R323). -/
def State.portDown (s : State) (a : Nat) : State :=
  match s.dpOf a with
  | none => s
  | some p =>
    let s := s.when (s.get H.DP_START p == 4) fun s => s.put H.DP_ENC0 (s.dpEnc p) p
    (((s.put H.DP_START 0 p).put H.DP_TRY 0 p).put H.DP_HOLD 0 p).rdyUp p

/-- The output path of a drive port is brought up (R43 step 1): the sensorless start begins with a spin probe (R317);
the microstep currents are restored, or the index snaps to the nearest full step (R323). -/
def State.portUp (s : State) (a : Nat) : State :=
  match (if s.drvOff then none else s.dpOf a) with
  | none => s
  | some p =>
    if s.get R.DRV_CFG_MODE p = 2 then
      let moved := sext 32 (trunc 32 ((s.dpEnc p : Int) - s.get H.DP_ENC0 p))
      let s := if s.on R.DRV_CFG_KEEP p then
          s.when (decide (s.get R.DRV_CFG_ENC p < 8) && decide (128 < moved.natAbs)) fun s => s.put R.DRV_STAT_POS_UNC 1 p
        else
          (s.put R.DRV_MSTEP ((s.get R.DRV_MSTEP p + 128) / 256 * 256) p).put R.DRV_STAT_POS_UNC 1 p
      ((s.put H.DP_START 4 p).put R.DRV_STAT_STALL 0 p).rdyUp p
    else (((s.stageAt p 1).put H.DP_TRY 0 p).put H.DP_PLS 0 p).rdyUp p

/-- Torque is removed and the brake applied; a local port takes EN and BRKREL at 0 (R45, R49, R305). -/
def State.torqueOff (s : State) (a : Nat) : State :=
  let s := ((s.put H.AX_TRQ 0 a).brake a true).put H.AX_STOP 0 a
  let s := (s.put H.AX_READY 0 a).put H.AX_SEED 0 a
  if s.isNirte a then s
  else (s.landRefs a [s.get H.OUT_W a 0, s.get H.OUT_W a 1, 0, 0] s.now).portDown a

/-- The module is in Full Stop (R387). -/
def State.inFullStop (s : State) : Bool := decide (2 ≤ s.get R.SAF_STATUS_STATE)

/-! ### Functions going idle (R47) -/

/-- A compare unit bound to an axis drops its unfired points; a capture unit is disarmed (R47). -/
def State.cmpIdle (s : State) (a : Nat) : State :=
  let s := s.each (List.range 32) fun s u =>
    s.when (s.on R.CMP_CTL_EN u && s.get R.CMP_CTL_AXIS u == a) fun s =>
      (s.put R.CMP_STAT_ARMED 0 u).put H.CMP_PEND 0 u
  s.each (List.range 32) fun s c =>
    s.when (s.on R.CMP_CAP_STAT_ARMED c && s.get R.CMP_CAP_CTL_AXIS c == a) fun s =>
      ((s.put R.CMP_CAP_STAT_ARMED 0 c).put H.CAP_DIS (2 ^ 64 + s.now) c).put H.CAP_PEND 0 c

/-- A sweep ends: injection stops, the buffer's STATE is 1 complete or 2 partial, the operation gets a final status,
the capture clause and its channel are freed (R47, R98, R100, R263). -/
def State.sweepEnd (s : State) (c st status : Nat) : State :=
  if !s.on H.SW_ON c then s
  else
    let a := s.get H.SW_AXIS c
    let s := (s.put H.SW_RUN 0 c).put H.AX_INJ 0 a
    let base := pageAddr (s.get H.SW_PAGE c - 1)
    let s := s.store (base + 8) 4 st
    let s := s.freeDesc (s.get H.SW_DESC c)
    let s := ((s.put H.SW_DESC 0 c).put H.SW_ON 0 c).lopFinish 0x0208 c status 0
    s.relink a

/-- The sweeps of an axis end partial and CANCELLED (R47, R100). -/
def State.sweepsIdle (s : State) (a : Nat) : State :=
  s.each (List.range 32) fun s c => s.when (s.on H.SW_ON c && s.get H.SW_AXIS c == a) fun s => s.sweepEnd c 2 5

/-- A repetition in progress is discarded (R47, R91). -/
def State.learnDrop (s : State) (a : Nat) : State := ((s.put H.LRN_ON 0 a).put H.LRN_REC 0 a).put H.LRN_NR 0 a

/-- Learning of one table is disabled: what it has in flight on an axis ends at the axis's boundary (R47). -/
def State.learnOff (s : State) (a t : Nat) : State :=
  let s := s.when (s.get H.LRN_T a == t + 1) fun s => (s.put H.LRN_ON 0 a).put H.LRN_NR 0 a
  s.when (s.get H.LRN_RT a == t + 1) fun s => s.put H.LRN_REC 0 a

/-- Homing ends: its phase variables clear (R191). -/
def State.homingOff (s : State) (a : Nat) : State :=
  let s := ((s.put R.HM_STAT_PHASE 0 a).put H.HM_NEXT 0 a).put H.HM_SUSP 0 a
  (((s.put R.HM_STAT_REVERSED 0 a).put H.HM_STALL 0 a).put H.IDX_ARM 0 a).put H.HM_M0 0 a

/-- Homing ends with a final status and reason; a failure's reason also stands in HM_STAT.ERR (R191). -/
def State.homingEnd (s : State) (a status reason : Nat) : State :=
  let s := s.homingOff a
  let s := s.when (status == 3) fun s => s.put R.HM_STAT_ERR reason a
  s.lopFinish 0x0404 a status reason

/-- Every function of an axis goes idle: the axis has left Operational (R47). -/
def State.functionsIdle (s : State) (a : Nat) : State :=
  let s := s.when ((s.lopOf 0x0404 a).isSome) fun s => s.homingEnd a 5 0
  let s := ((s.sweepsIdle a).put R.AXS_PRB_CTL_EN 0 a).learnDrop a
  let st := s.get R.TRJ_SEG_STAT_STATE a
  let s := s.when (st == 1 || st == 2 || decide (0 < (s.segsOf a).length)) fun s => s.flushTable a 4 (s.tsOf a (s.get H.BND_T))
  s.cmpIdle a

/-! ### Fault reactions -/

/-- The forced reaction of a class, if it is forced (R50). -/
def forcedReact (cls : Nat) : Option Nat :=
  if cls = 5 ∨ cls = 6 ∨ cls = 8 ∨ cls = 9 ∨ cls = 10 ∨ cls = 11 then some 3 else none

/-- The reaction of a class configured for one axis (R49, R50). -/
def State.cfgReact (s : State) (a cls : Nat) : Nat :=
  match forcedReact cls with
  | some r => r
  | none => min 3 (s.get R.AXS_REACT a (cls - 1))

/-- The effective reaction: for a member of a group the most severe of its members' (R54). -/
def State.effReact (s : State) (a cls : Nat) : Nat :=
  let g := s.groupOf a
  if g = 255 then s.cfgReact a cls
  else (s.members g).foldl (fun r m => max r (s.cfgReact m cls)) (s.cfgReact a cls)

/-- The fault reaction has finished; disable requests pending in Faulted are answered (R42). -/
def State.reactionDone (s : State) (a : Nat) : State :=
  let s := s.put H.AX_RDONE 1 a
  if s.get R.AXS_STATUS_REACTION a = 0 then s.failAll 0x0103 a 0x0103 (toBytes 4 (s.axSt a))
  else s.doneAll 0x0103 a (toBytes 4 (s.axSt a))

/-- A stop enters a phase: 1 ramp, 2 hold, 3 brake delay, 4 held at the end of a ramp (R45, R49). -/
def State.stopPhase (s : State) (a k : Nat) : State := (s.put H.AX_STOP k a).put H.AX_HT s.now a

/-- The times that a stop or reaction keeps throughout, as they stand when it starts (R55). -/
def State.seqTimes (s : State) (a : Nat) : State :=
  let s := (s.put H.SEQ_HOLD (s.get R.AXS_STOP_HOLD a) a).put H.SEQ_BRK (s.get R.AXS_BRK_DELAY a) a
  s.put H.SEQ_STO (s.get R.AXS_STOP_TIMEOUT a) a

/-- A reaction starts at a boundary `t` (R49); what it plans changes the demand from the boundary's effect on. With no torque on, it is torque off. -/
def State.react (s : State) (a r t : Nat) : State :=
  let s := ((s.put R.AXS_STATUS_REACTION r a).put H.AX_RDONE 0 a).seqTimes a
  if r = 3 ∨ !s.on H.AX_TRQ a then (s.torqueOff a).reactionDone a
  else if r = 2 then (s.brake a true).stopPhase a 3
  else (s.quickStop a (s.tsOf a t)).stopPhase a 1

/-- Pending enable requests of an axis fail (R42). -/
def State.failEnable (s : State) (a reason : Nat) : State := s.failAll 0x0102 a reason (toBytes 4 (s.axSt a))

/-- Pending fault resets of an axis end (R513). -/
def State.frstStop (s : State) (a : Nat) : State := (s.put H.FRST_ON 0 a).put H.FRST_N 0 a

/-- The axis enters Faulted with a class and a reaction (R42, R49, R50). -/
def State.enterFault (s : State) (a cls r t : Nat) : State :=
  let was := s.axSt a
  let s := s.evAdd 2 0 0 a cls false 0
  let s := (s.put R.AXS_STATUS_STATE 6 a).put R.AXS_STATUS_FAULT_CLASS cls a
  let s := (s.failEnable a (if cls = 8 then 0x0106 else 0x0105)).axEvt a
  let s := s.when (cls == 11) fun s => s.put R.AXS_STATUS_POS_UNCERTAIN 1 a
  let s := s.when (was == 4) fun s => s.functionsIdle a
  s.react a (if was ≤ 2 then 3 else r) t

/-- A fault of a class on one axis, with its effective reaction (R42, R51, R52). -/
def State.takeFault1 (s : State) (a cls r t : Nat) : State :=
  let st := s.axSt a
  let s := s.when (cls == 3) fun s => s.put R.AXS_STATUS_OVR_CONSEC 0 a
  if st < 2 then s
  else if st = 7 ∨ (st = 6 ∧ s.on R.AXS_STATUS_SAFE_DEMAND a) then s.evAdd 3 0 0 a cls false 0
  else if st = 6 then
    let cur := s.get R.AXS_STATUS_REACTION a
    if cur < r ∧ cur < 4 then
      ((s.evAdd 2 0 0 a cls false 0).put R.AXS_STATUS_FAULT_CLASS cls a).react a r t
    else s.evAdd 3 0 0 a cls false 0
  else s.enterFault a cls r t

/-- The other members of an axis's group. -/
def State.others (s : State) (a : Nat) : List Nat :=
  if s.groupOf a = 255 then [] else (s.members (s.groupOf a)).filter fun m => m != a

/-- A fault of a class takes effect at a boundary, on the axis and, where it enters Faulted, on every other member of its
group (R54). -/
def State.takeFault (s : State) (a cls t : Nat) : State :=
  let r := s.effReact a cls
  let enters := decide (2 ≤ s.axSt a) && decide (s.axSt a ≤ 5)
  let s := s.takeFault1 a cls r t
  s.when enters fun s => s.each (s.others a) fun s m => if s.axSt m = 6 then s else s.takeFault1 m cls r t

/-- The cause of a fault class stands (R42): for FEEDBACK_LOST while the latest feedback is missing, for DRIVE_FAULT while FLT is
set, for PORT_HW by R328 and R330, for SAFETY_DEMAND while it applies. -/
def State.causeOf (s : State) (a cls : Nat) : Bool :=
  (cls == 13 && s.on R.AXS_STATUS_SAFE_DEMAND a) ||
  (cls == 5 && s.on H.AX_MISS a) || (cls == 6 && s.isNirte a && bit (s.get H.AX_STAT a) 1) ||
  (cls == 10 && match s.dpOf a with
    | some p => (s.on R.DRV_STAT_OVTRIP p && decide (95 * s.get R.DRV_OV_TRIP p ≤ 100 * s.get R.DRV_VBUS p)) ||
        (s.on R.DRV_STAT_GFLT p && (decide (s.now < s.get H.INJ_GFU p) || s.on H.GFLT_L p))
    | none => false)

/-- The cause of the class in force, or a safety demand, is still present (R42). -/
def State.causePresent (s : State) (a : Nat) : Bool :=
  s.causeOf a 13 || s.causeOf a (s.get R.AXS_STATUS_FAULT_CLASS a)

/-- The class whose cause is present when Full Stop is released (R42), 0 where none is: a safety demand, the class held, DRIVE_FAULT,
FEEDBACK_LOST where the limit is reached, PORT_HW. The order among several is the model's (log entry 76). -/
def State.heldCause (s : State) (a : Nat) : Nat :=
  let held := s.get R.AXS_STATUS_FAULT_CLASS a
  if s.causeOf a 13 then 13
  else if s.causeOf a held then held
  else if s.causeOf a 6 then 6
  else if s.causeOf a 5 && decide (s.get R.AXS_FB_LIMIT a ≤ s.get H.AX_MISS a) then 5
  else if s.causeOf a 10 then 10
  else 0

/-- The GFLT input of an axis's port, once low, goes high at some boundary: no command reports its rise, so it is a free value
(R330). -/
def State.gfltRise (s : State) (a : Nat) : State :=
  match s.dpOf a with
  | some p => s.when (s.on H.GFLT_L p) fun s => (s.put H.GFLT_L (s.free 1) p).useFree
  | none => s

/-- A fault reset takes effect: class cleared, FE_WARN, ARITH and LIMIT_VIOL cleared, the axis Disabled (R42). The
port notes it (R331). -/
def State.resetFault (s : State) (a : Nat) : State :=
  let s := ((s.put R.AXS_STATUS_STATE 2 a).put R.AXS_STATUS_FAULT_CLASS 0 a).put R.AXS_STATUS_REACTION 0xF a
  let s := ((s.put R.AXS_STATUS_FE_WARN 0 a).put R.AXS_STATUS_ARITH 0 a).put R.AXS_STATUS_LIMIT_VIOL 0 a
  let s := match s.dpOf a with
    | some p => (((s.put H.DP_FR 1 p).put R.DRV_STAT_GFLT 0 p).put R.DRV_STAT_OVTRIP 0 p).put R.DRV_STAT_STALL 0 p
    | none => s
  ((s.torqueOff a).frstStop a).put H.AX_RDONE 0 a

/-! ### Transitions (R42) -/

/-- The axis goes to Configured: from Faulted and Full Stop the fault class, reaction and sticky flags are recorded, the low
word of AXS_STATUS as INFO, and then cleared, and pending requests fail with NODE_ABSENT; feedback counting stops. -/
def State.toConfigured (s : State) (a : Nat) : State :=
  let s := s.when (decide (6 ≤ s.axSt a)) fun s =>
    let cls := s.get R.AXS_STATUS_FAULT_CLASS a
    let s := s.when (cls != 0 || s.on R.AXS_STATUS_FE_WARN a || s.on R.AXS_STATUS_ARITH a || s.on R.AXS_STATUS_LIMIT_VIOL a)
      fun s => s.evAdd 3 0 0 a cls false (s.word R.astFields (0x20000000 + 0x10 * a))
    let s := (s.put R.AXS_STATUS_FAULT_CLASS 0 a).put R.AXS_STATUS_REACTION 0xF a
    ((s.put R.AXS_STATUS_FE_WARN 0 a).put R.AXS_STATUS_ARITH 0 a).put R.AXS_STATUS_LIMIT_VIOL 0 a
  let s := ((s.put R.AXS_STATUS_STATE 1 a).torqueOff a).frstStop a
  let s := (((s.put H.OUT_V 0 a).outDrop a).put H.AX_MISS 0 a).put H.NODE_GONE 0 a
  let s := s.put H.AX_STAT 0 a
  let r := toBytes 4 1
  ((s.failAll 0x0102 a 0x0511 r).failAll 0x0103 a 0x0511 r).failAll 0x0104 a 0x0511 r

/-- The axis becomes Disabled with torque off; pending disable requests are DONE (R42, R45). -/
def State.toDisabled (s : State) (a : Nat) : State :=
  let s := (s.torqueOff a).put R.AXS_STATUS_STATE 2 a
  s.doneAll 0x0103 a (toBytes 4 2)

/-- The node or port of an axis is online (R40, R243, R316). A PT port is while DRV runs (R466). -/
def State.axOnline (s : State) (a : Nat) : Bool :=
  if s.isNirte a then s.on H.AX_ONLINE a
  else if s.domDown 10 then false
  else match s.dpOf a with
    | some p => s.on R.DRV_STAT_CAL_OK p
    | none => true

/-- A mailbox of a request that waits is answered with the axis's state. -/
def State.doneSt (s : State) (mb a : Nat) : State := s.done mb (toBytes 4 (s.axSt a))

/-- FAILED with the axis's state. -/
def State.failSt (s : State) (mb a reason : Nat) : State := s.fail mb reason (toBytes 4 (s.axSt a))

/-- The stop group to which SAF_AXMAP maps an axis; 0xF none (R412). -/
def State.sgMap (s : State) (a : Nat) : Nat := bits (s.get R.SAF_AXMAP 0 (a / 8)) (4 * (a % 8)) 4

/-- The enabled stop group that an axis runs in; 255 none. A Pulse axis runs in none (R381). -/
def State.sgOf (s : State) (a : Nat) : Nat :=
  let g := s.sgMap a
  if g = 0xF ∨ !s.on R.SAF_SG_CFG_EN g ∨ s.axKind a = 3 then 255 else g

/-- SAFE_DEMAND of an axis follows its stop group (R386), and with it the priority of its clause (R138). -/
def State.safeSync (s : State) (a : Nat) : State :=
  let g := s.sgOf a
  let v := b2n (g != 255 && bit (s.get R.SAF_SG_DEM) g)
  if s.axSt a = 0 ∨ s.get R.AXS_STATUS_SAFE_DEMAND a = v then s
  else (s.put R.AXS_STATUS_SAFE_DEMAND v a).relink a

/-- A safety demand on an axis (R42, R52, R386). The axis and its group go to Faulted; on an axis that is Faulted for
it already, a further demand only raises the reaction (R383). -/
def State.takeDemand (s : State) (a r t : Nat) : State :=
  if s.axSt a = 0 then s
  else
    let s := s.safeSync a
    if s.axSt a = 6 ∧ s.get R.AXS_STATUS_FAULT_CLASS a = 13 then
      s.when (r == 3 && decide (s.get R.AXS_STATUS_REACTION a < 3)) fun s => s.react a 3 t
    else
    if s.axSt a = 7 then
      let s := s.put R.AXS_STATUS_FAULT_CLASS 13 a
      if r = 3 then s.torqueOff a else s
    else
      let s := s.enterFault a 13 r t
      s.each (s.others a) fun s m => if s.axSt m = 6 then s else s.takeFault1 m 13 r t

/-- Full Stop entry of an axis (R42, R387): with a ramp where SS1-t is used and torque is on. STO that follows removes
torque. -/
def State.takeFullStop (s : State) (a t : Nat) (ramp : Bool) : State :=
  let st := s.axSt a
  if st < 2 then s
  else if st = 7 then
    s.when (!ramp && s.on H.AX_TRQ a) fun s => (s.torqueOff a).doneAll 0x0103 a (toBytes 4 7)
  else
    let s := s.put R.AXS_STATUS_STATE 7 a
    let s := s.failEnable a 0x0104
    let s := s.when (st == 4) fun s => s.functionsIdle a
    let s := s.seqTimes a
    if ramp && s.on H.AX_TRQ a then (s.quickStop a (s.tsOf a t)).stopPhase a 1
    else (s.torqueOff a).doneAll 0x0103 a (toBytes 4 7)

/-- Full Stop is released (R42): the axis is Faulted where a fault cause is present, with its reaction finished, else Disabled. -/
def State.takeRelease (s : State) (a : Nat) : State :=
  if s.axSt a ≠ 7 then s
  else
    let f := s.heldCause a
    let s := (s.torqueOff a).put R.AXS_STATUS_FAULT_CLASS f a
    if f = 0 then (s.put R.AXS_STATUS_STATE 2 a).put R.AXS_STATUS_REACTION 0xF a
    else
      let s := (s.put R.AXS_STATUS_STATE 6 a).axEvt a
      (s.when (s.get R.AXS_STATUS_REACTION a == 0xF) fun s => s.put R.AXS_STATUS_REACTION 3 a).put H.AX_RDONE 1 a

/-- Node lost (R42): from Enabling, Operational and Stopping the axis goes to Faulted; from Faulted and Full Stop to
Configured, at the boundary at which torque is off. An axis that this event has made Faulted goes on at its next boundary,
the node still being lost. -/
def State.takeLost (s : State) (a t : Nat) : State :=
  let st := s.axSt a
  if st < 2 then s
  else if st = 2 then s.toConfigured a
  else if st < 6 then
    let s := s.put H.NODE_GONE 1 a
    if s.get R.AXS_STATUS_FAULT_CLASS a = 5 then s else s.takeFault a 5 t
  else if s.on H.AX_TRQ a then s.put H.NODE_GONE 1 a
  else s.toConfigured a

/-- Node online: Disabled, or Full Stop while the module is in Full Stop (R42). -/
def State.takeOnline (s : State) (a : Nat) : State :=
  if s.axSt a = 1 then
    (s.put R.AXS_STATUS_STATE (if s.inFullStop then 7 else 2) a).torqueOff a
  else s.put H.NODE_GONE 0 a

/-- An enable request at its boundary (R42, R43). -/
def State.takeEnable (s : State) (a mb : Nat) : State :=
  let st := s.axSt a
  if st = 2 then
    if s.on R.AXS_STATUS_SAFE_DEMAND a then s.failSt mb a 0x0004
    else if (match s.dpOf a with | some p => (s.lopOf 0x0702 p).isSome | none => false) then s.failSt mb a 0x0704
    else
      let s := ((s.put R.AXS_STATUS_STATE 3 a).put H.AX_READY (b2n (s.axKind a == 3)) a).put H.AX_T0 s.now a
      let s := (((s.put H.AX_SEED 0 a).put H.AX_STOP 0 a).put H.SEQ_EN (s.get R.AXS_EN_TIMEOUT a) a).outDrop a
      (s.portUp a).wait mb 0x0102 a
  else if st = 4 then s.doneSt mb a
  else if st = 5 then s.failSt mb a 0x0101
  else s.failSt mb a 0x0004

/-- The configured stop starts (R45): inside the standstill window the ramp takes no time. -/
def State.startStop (s : State) (a t : Nat) : State :=
  let s := ((s.put R.AXS_STATUS_STATE 5 a).functionsIdle a).put H.AX_T0 s.now a
  let s := s.seqTimes a
  let ts := s.tsOf a t
  if s.still a then (s.holdFrom a ts).stopPhase a 2 else (s.quickStop a ts).stopPhase a 1

/-- A disable request at its boundary (R42, R45). -/
def State.takeDisable (s : State) (a mb t : Nat) : State :=
  let st := s.axSt a
  if st = 4 then (s.startStop a t).wait mb 0x0103 a
  else if st = 5 then s.wait mb 0x0103 a
  else if st = 3 then
    let s := ((s.torqueOff a).put R.AXS_STATUS_STATE 2 a).failEnable a 0x0100
    s.doneSt mb a
  else if st = 6 then
    if s.get R.AXS_STATUS_REACTION a = 0 then
      if s.on H.AX_RDONE a then s.failSt mb a 0x0103 else s.wait mb 0x0103 a
    else if s.on H.AX_RDONE a then s.doneSt mb a
    else s.wait mb 0x0103 a
  else s.failSt mb a 0x0004

/-- A fault reset at its boundary (R42, R331, R513). A Nirte axis whose drive reports FLT sends fault-reset halves. -/
def State.takeReset (s : State) (a mb : Nat) : State :=
  let st := s.axSt a
  if st = 6 then
    if !s.on H.AX_RDONE a then s.failSt mb a 0x0102
    else if s.isNirte a && bit (s.get H.AX_STAT a) 1 && !s.on R.AXS_STATUS_SAFE_DEMAND a && !s.on H.AX_TRQ a then
      let s := s.when (!s.on H.FRST_ON a) fun s => (s.put H.FRST_ON 1 a).put H.FRST_N 0 a
      s.wait mb 0x0104 a
    else
      if s.causePresent a then s.failSt mb a 0x0102
      else (s.resetFault a).doneSt mb a
  else if 2 ≤ st ∧ st ≤ 5 then
    let s := match s.dpOf a with
      | some p => s.when (s.on R.DRV_STAT_HWOFF p) fun s => s.put H.DP_FR 1 p
      | none => s
    ((s.put R.AXS_STATUS_ARITH 0 a).put R.AXS_STATUS_LIMIT_VIOL 0 a).doneSt mb a
  else s.failSt mb a 0x0004

/-- Waiting fault resets proceed: FLT has cleared, or time has passed (R513). -/
def State.frstResolve (s : State) (a : Nat) (ok : Bool) : State :=
  let s := s.frstStop a
  if ok && s.axSt a == 6 && !s.causePresent a then
    (s.resetFault a).doneAll 0x0104 a (toBytes 4 2)
  else s.failAll 0x0104 a 0x0102 (toBytes 4 (s.axSt a))

/-- AXIS_FAULT_RAISE at its boundary: class HOST (R50, R280). -/
def State.takeRaise (s : State) (a mb t : Nat) : State :=
  if 2 ≤ s.axSt a ∧ s.axSt a ≤ 6 then (s.takeFault a 12 t).done mb else s.failSt mb a 0x0004

/-- The ramp of a stop or reaction ends, and what follows begins (R45, R49). -/
def State.rampEnded (s : State) (a : Nat) : State :=
  let s := (s.put R.TRJ_STAT_MODE 0 a).put R.TRJ_STAT_REVERSAL 0 a
  if s.axSt a = 5 then s.stopPhase a 2
  else if s.axSt a = 6 then
    if s.get R.AXS_STATUS_REACTION a = 0 then (s.stopPhase a 4).reactionDone a
    else (s.brake a true).stopPhase a 3
  else s.stopPhase a 4

/-- The brake-engage delay is over: torque is removed (R45, R49). -/
def State.takeStopDone (s : State) (a : Nat) : State :=
  if s.get H.AX_STOP a ≠ 3 then s
  else if s.axSt a = 5 then s.toDisabled a
  else if s.axSt a = 6 then (s.torqueOff a).reactionDone a
  else (s.torqueOff a).doneAll 0x0103 a (toBytes 4 (s.axSt a))

/-- Ramps end at boundary `t`, and a hold outside the standstill window counts anew (R45). -/
def State.stopProgress (s : State) (a t : Nat) : State :=
  if s.get H.AX_STOP a = 1 then
    match s.lastMotion a with
    | some m => if m.te ≤ t then s.rampEnded a else s
    | none => s.rampEnded a
  else if s.get H.AX_STOP a = 2 && !s.still a then s.put H.AX_HT t a
  else s

/-- An enabling axis whose loop the sample has seeded becomes Operational; its brake is released and its enable requests are
DONE (R42, R43). -/
def State.takeSeeded (s : State) (a : Nat) : State :=
  if s.axSt a = 3 ∧ s.on H.AX_SEED a then
    ((s.brake a false).put R.AXS_STATUS_STATE 4 a).doneAll 0x0102 a (toBytes 4 4)
  else s

/-- The reaction in force is raised to torque off (R51, R154). -/
def State.takeRaiseOff (s : State) (a t : Nat) : State :=
  let s := s.put R.AXS_STATUS_OVR_CONSEC 0 a
  if s.axSt a = 6 ∧ s.get R.AXS_STATUS_REACTION a < 2 then s.react a 3 t else s

end Sys2Proof.Machine
end

