-- ==== Sys2Proof/Machine/FioSwitch.lean ====
section
/-! DEFINITION. The switches of the field outputs (R344, R346, R356 to R361): when one is on. -/

namespace Sys2Proof.Machine

/-- The part is a CX7420-SX. -/
def State.isSX (s : State) : Bool := s.on R.HIF_ID_VARIANT

/-- A compare unit drives the channel with its pulse active (R194, R344). -/
def State.fioPulse (s : State) (c : Nat) : Bool :=
  (List.range 32).any fun u =>
    s.on R.CMP_CTL_EN u && s.get R.CMP_CTL_OUT u == 0x10 + c && s.on H.CMP_PON u != s.on R.CMP_CTL_POL u

/-- Undervoltage, thermal shutdown, a group trip, or a die that does not run or has no configuration holds the output off
(R344, R356, R363, R365). -/
def State.fioBarred (s : State) (c : Nat) : Bool :=
  !s.on H.FIO_LIVE || !s.on H.FIO_CONFD || s.on R.FIO_GRP_STAT_UV (c / 8) || s.on R.FIO_GRP_STAT_OC (c / 8) ||
    s.on R.FIO_CSTAT_UVOFF c || s.on R.FIO_CSTAT_TSD c

/-- The state an output is held in by silence (R360, R361). -/
def State.fioSafe (s : State) (c : Nat) : Bool :=
  s.get R.FIO_CFG_SAFE c == 1 || (s.get R.FIO_CFG_SAFE c == 2 && bit (s.get H.FIO_HOLD) c)

/-- An ordinary output is on (R344, R360, R367). -/
def State.fioOn (s : State) (c : Nat) : Bool :=
  s.on R.FIO_CFG_DIR c && !s.fioBarred c &&
    (if s.on R.FIO_CSTAT_SILOFF c then s.fioSafe c && !bit (s.get H.FIO_TPX) c
     else s.fioPulse c || (bit (s.get H.FIO_CMDX) c && !bit (s.get H.FIO_TPX) c))

/-- The high-side switch of a safe output is on, for its channel (R395). -/
def State.soHigh (s : State) (c : Nat) : Bool := decide (24 ≤ c) && c % 2 == 0 && s.on R.SAF_SO_STAT_HS ((c - 24) / 2)

/-- The switches take the states they have now; a change starts the blanking of R357; a compare pulse within a test pulse
discards the readback (R367). -/
def State.fioUpd (s : State) : State :=
  s.each (List.range 32) fun s c =>
    let on := if s.isSX && decide (24 ≤ c) then s.soHigh c else s.fioOn c
    let s := s.when (bit (s.get H.FIO_TPX) c && s.fioPulse c) fun s => s.orBit H.FIO_TPD c
    if on == bit (s.get H.FIO_SW) c then s
    else (if on then s.orBit H.FIO_SW c else s.clearBit H.FIO_SW c).put H.FIO_CHG s.now c

end Sys2Proof.Machine
end

