-- ==== Sys2Proof/Machine/CmpOps.lean ====
section
/-! DEFINITION. Position compare and capture (R194 to R203). -/

namespace Sys2Proof.Machine

/-! ### Capture -/

/-- The FIFO of a capture unit, oldest first. -/
def State.capsOf (s : State) (c : Nat) : List CapEntry := s.caps.filter fun x => x.unit == c

/-- The registers of a capture unit show its oldest entry and how many wait (R203). -/
def State.capView (s : State) (c : Nat) : State :=
  let l := s.capsOf c
  let s := s.put R.CMP_CAP_STAT_COUNT l.length c
  match l with
  | [] => (((s.put R.CMP_CAP_TS 0 c).put R.CMP_CAP_TSF 0 c).put R.CMP_CAP_EDGE 0 c).put R.CMP_CAP_POS 0 c
  | x :: _ =>
    (((s.put R.CMP_CAP_TS x.t c).put R.CMP_CAP_TSF x.frac c).put R.CMP_CAP_EDGE (b2n x.rising) c).puti
      R.CMP_CAP_POS x.pos c

/-- An edge that finds the FIFO full is discarded and counted (R202). -/
def State.capLost (s : State) (c : Nat) : State := (s.put R.CMP_CAP_FLAGS_OVF 1 c).incSat R.CMP_CAP_OVFCNT c

/-- An entry joins the FIFO (R201, R202), with its cause (R259). -/
def State.capPush (s : State) (x : CapEntry) : State :=
  if 16 ≤ (s.capsOf x.unit).length then s.capLost x.unit
  else (({ s with caps := s.caps ++ [x] } : State).capView x.unit).cause 4

/-- The EDGE setting takes an edge of this direction (R203). -/
def edgeTaken (edge : Nat) (rising : Bool) : Bool := bit edge (if rising then 0 else 1)

/-- Edges a capture unit takes: it is enabled and armed, or was disarmed at a boundary after the edge (R202). -/
def State.capTakes (s : State) (c t : Nat) (rising : Bool) : Bool :=
  s.on R.CMP_CAP_CTL_EN c && edgeTaken (s.get R.CMP_CAP_CTL_EDGE c) rising &&
    (s.on R.CMP_CAP_STAT_ARMED c ||
      (bit (s.get H.CAP_DIS c) 64 && decide (t < s.get H.CAP_DIS c % 2 ^ 64)))

/-- A stamped edge at a capture unit: it waits for its sample, and in single mode the unit disarms (R200 to R202). -/
def State.capEdge (s : State) (c t frac : Nat) (rising : Bool) : State :=
  if !s.capTakes c t rising then s
  else
    let waiting := (s.edges.filter fun x => x.unit == c).length
    if 16 ≤ (s.capsOf c).length + waiting then s.capLost c
    else
      let s : State := { s with edges := s.edges ++ [{ unit := c, t := t, frac := frac, rising := rising }] }
      s.when (s.get R.CMP_CAP_CTL_MODE c == 0) fun s =>
        (s.put R.CMP_CAP_STAT_ARMED 0 c).put H.CAP_DIS 0 c

/-- The bracket of a time in units of 2^(-16) ns among samples, newest first: the pair whose newer boundary is the first not
before it; the newest pair where the time lies after all of them. -/
def bracket (u : Nat) : List Hist → Option (Hist × Hist)
  | y :: x :: rest => if u ≤ 65536 * x.fb then (bracket u (x :: rest)).or (some (x, y)) else some (x, y)
  | _ => none

/-- The position of an axis at a time in units of 2^(-16) ns (R16), by the cubic of R181 through P_ACT and the velocity at the two feedback
boundaries that bracket it; at a boundary, P_ACT there (R201). -/
def State.posAt (s : State) (a u : Nat) : Int :=
  match bracket u (s.hist.filter fun x => x.axis == a) with
  | none => s.geti R.AXS_P_ACT a
  | some (x, y) =>
    if u = 65536 * y.fb then y.p
    else roundUp (cubicAt (x.p * 4294967296) (x.v * 4294967296) (y.p * 4294967296) (y.v * 4294967296)
      (65536 * ((y.fb : Int) - x.fb)) ((u : Int) - 65536 * x.fb)).p 32

/-- How long samples of an axis are remembered, ns: long enough for every debounce (R350) where an edge of a field
input may still be accepted for it. -/
def State.histKeep (s : State) (a : Nat) : Nat :=
  if s.get R.HM_STAT_PHASE a != 0 || ((List.range 32).any fun c =>
      s.on R.CMP_CAP_CTL_EN c && s.get R.CMP_CAP_CTL_AXIS c == a) then 70000000 else 4 * s.axPeriod a

/-- A completed sample is remembered (R201). -/
def State.histPut (s : State) (a : Nat) : State :=
  let fb := s.get H.AX_FBB a
  let keep := s.histKeep a
  let h : Hist := { axis := a, fb := fb, p := s.geti R.AXS_P_ACT a, v := s.geti H.AX_V a }
  { s with hist := h :: s.hist.filter fun x => x.axis != a || decide (fb ≤ x.fb + keep) }

/-- The edges of an axis's capture units whose sample has completed become entries (R201). -/
def State.capWrite (s : State) (a : Nat) : State :=
  let due := fun (x : CapEdge) => s.get R.CMP_CAP_CTL_AXIS x.unit == a && decide (65536 * x.t + x.frac ≤ 65536 * s.get H.AX_FBB a)
  let l := s.edges.filter due
  let s0 := s
  ({ s with edges := s.edges.filter fun x => !due x } : State).each l fun s x =>
    s.capPush { unit := x.unit, t := x.t, frac := x.frac, rising := x.rising, pos := s0.posAt a (65536 * x.t + x.frac) }

/-! ### Compare -/

/-- The place of list entry `k` (R203). -/
def cmpList (k : Nat) : Nat := 0x90000 + 8 * (k % 8192)

/-- The armed position of a compare unit: that of its `k`-th firing (R196). -/
def State.cmpArmed (s : State) (u : Nat) : Int :=
  let k := s.get H.CMP_K u
  match s.get R.CMP_CTL_MODE u with
  | 1 => sext 64 (s.load (cmpList (s.get R.CMP_LIST_BASE u + k)) 8)
  | 2 => s.geti R.CMP_POS u + k * s.geti R.CMP_INC u
  | _ => s.geti R.CMP_POS u

/-- The unit's positions are exhausted after `k` firings (R196). -/
def State.cmpOver (s : State) (u k : Nat) : Bool :=
  match s.get R.CMP_CTL_MODE u with
  | 1 => decide (s.get R.CMP_LIST_LEN u ≤ k)
  | 2 => s.get R.CMP_CNT u != 0 && decide (s.get R.CMP_CNT u ≤ k)
  | _ => decide (1 ≤ k)

/-- The length of a unit's output pulse, ns: at least 20 µs on a field channel (R197, R346). -/
def State.pulseNs (s : State) (u : Nat) : Nat :=
  let w := 2 * s.get R.CMP_WIDTH u
  if 16 ≤ s.get R.CMP_CTL_OUT u ∧ s.get R.CMP_CTL_OUT u < 48 then max 20000 w else w

/-- The levels of the TRG pins that enabled units drive: units naming one pin are ORed, each pulse inverted where POL says so
(R194, R203). -/
def State.trgSync (s : State) : State :=
  s.put H.TRG_LVL ((List.range 32).foldl (fun m u =>
    if s.on R.CMP_CTL_EN u ∧ s.get R.CMP_CTL_OUT u < 16 ∧ (s.on H.CMP_PON u) ≠ (s.on R.CMP_CTL_POL u) then
      m ||| 2 ^ s.get R.CMP_CTL_OUT u
    else m) 0)

/-- The outputs that compare units drive follow: TRG pins, and field outputs without waiting for a tick (R194, R346). -/
def State.cmpOut (s : State) : State := s.trgSync.fioUpd

/-- The interval of a unit that covers a time: the newest of those that do (R195). -/
def State.trackAt (s : State) (u t : Nat) : Option Track :=
  (s.tracks.filter fun x => x.unit == u && decide (x.t0 ≤ t) && decide (t < x.t0 + x.len)).getLast?

/-- The track's position at a time in ns, which may lie a little outside its interval. -/
def Track.posAt (x : Track) (t : Int) : Int :=
  (cubicAt x.p0 x.v0 x.p1 x.v1 (65536 * (max 1 x.len : Nat)) (65536 * (t - x.t0))).p

/-- The output of a unit fires at a time: the pulse, OVERLAP, and the next position (R196, R197). -/
def State.cmpFire (s : State) (u t : Nat) : State :=
  let s := s.when (s.on H.CMP_PON u) fun s => s.put R.CMP_FLAGS_OVERLAP 1 u
  let s := ((s.put H.CMP_PON 1 u).put H.CMP_TE (t + s.pulseNs u) u).cmpOut
  let s := (s.put R.CMP_LAST_T t u).incSat R.CMP_STAT_FIRED u
  let s : State := match s.trackAt u t with
    | some x => { s with tracks := s.tracks.map fun y => if y = x then { y with fired := y.fired + 1 } else y }
    | none => s
  let k := s.get H.CMP_K u + 1
  let s := s.put H.CMP_K k u
  if s.cmpOver u k then
    (s.put R.CMP_STAT_ARMED 0 u).when (s.get R.CMP_CTL_MODE u != 0) fun s => (s.put R.CMP_STAT_DONE 1 u).cause 5
  else s

/-- The armed position lies between two positions in units of 2^(-32), passed in a direction the unit takes (R196, R198). -/
def State.cmpPassed (s : State) (u : Nat) (p q : Int) : Bool :=
  let x := s.cmpArmed u * 4294967296
  (bit (s.get R.CMP_CTL_DIR u) 0 && decide (p < x) && decide (x ≤ q)) ||
    (bit (s.get R.CMP_CTL_DIR u) 1 && decide (q ≤ x) && decide (x < p))

/-- A crossing of the armed position at a time: the interval's track passes it there, to 2 ns, in a direction the unit takes; at most
four firings in one interval, none while firing has stopped (R195 to R198). -/
def State.cmpCross (s : State) (u t : Nat) : State :=
  if !s.on R.CMP_CTL_EN u || !s.on R.CMP_STAT_ARMED u || decide (2 ≤ s.get H.CMP_TGAP u) then s
  else match s.trackAt u t with
    | none => s
    | some x =>
      if !s.cmpPassed u (x.posAt ((t : Int) - 2)) (x.posAt ((t : Int) + 2)) then s
      else if 4 ≤ x.fired then s.put R.CMP_STAT_MISSED (min 255 (s.get R.CMP_STAT_MISSED u + 1)) u
      else s.cmpFire u t

/-- A new track interval of a unit (R195), in place of one for the same period. -/
def State.trackPut (s : State) (x : Track) : State :=
  { s with tracks := (s.tracks.filter fun y => !(y.unit == x.unit && y.t0 == x.t0)) ++ [x] }

/-- A sample of an axis writes the track of its compare units (R195): `t0` the start of the interval. -/
def State.trackWrite (s : State) (a t0 : Nat) : State :=
  let len := s.axPeriod a
  let x := s.demand a t0
  let y := s.demand a (t0 + len)
  let fe := s.geti R.AXS_FE a * 4294967296
  s.each (List.range 32) fun s u =>
    s.when (s.on R.CMP_CTL_EN u && s.get R.CMP_CTL_AXIS u == a) fun s =>
      let o := if s.on R.CMP_CTL_SRC u then 0 else fe
      s.trackPut { unit := u, t0 := t0, len := len, p0 := x.p - o, v0 := x.v, p1 := y.p - o, v1 := y.v }

/-- The interval of a unit from `t` on is missing: the previous cubic goes on for one period, and a second miss stops firing
(R198). Nothing where the unit has had no interval. -/
def State.trackGap (s : State) (u t : Nat) : State :=
  match (s.tracks.filter fun x => x.unit == u && decide (x.t0 ≤ t)).getLast? with
  | none => s
  | some x =>
    if s.get H.CMP_TGAP u = 0 then
      let d : Int := 65536 * (max 1 x.len : Nat)
      let y := cubicAt x.p0 x.v0 x.p1 x.v1 d (2 * d)
      ((s.put R.CMP_FLAGS_GAP 1 u).put H.CMP_TGAP 1 u).trackPut
        { x with t0 := t, p0 := x.p1, v0 := x.v1, p1 := y.p, v1 := y.v, fired := 0, gap := true }
    else (s.put R.CMP_FLAGS_GAP_STOP 1 u).put H.CMP_TGAP 2 u

/-- The interval of a unit from `x.t0` on begins: the intervals before it are over, and after a stop of firing a position already
passed fires at once (R198). -/
def State.trackBegin (s : State) (u : Nat) (x : Track) : State :=
  let was := (s.tracks.filter fun y => y.unit == u && decide (y.t0 < x.t0)).getLast?
  let stopped := decide (2 ≤ s.get H.CMP_TGAP u)
  let s := if x.gap then s else s.put H.CMP_TGAP 0 u
  let s := match was with
    | some w => s.when (stopped && s.on R.CMP_STAT_ARMED u && s.cmpPassed u w.p1 x.p0) fun s =>
        (s.put R.CMP_FLAGS_LATE 1 u).cmpFire u x.t0
    | none => s
  { s with tracks := s.tracks.filter fun y => !(y.unit == u && decide (y.t0 + y.len ≤ x.t0)) }

/-- The track of a unit at a boundary `t` of its axis: the interval from there on begins, or is missing (R198); none while the loop
is open. -/
def State.trackStep (s : State) (u t : Nat) (closed : Bool) : State :=
  if !closed then
    { s with tracks := s.tracks.filter fun x => x.unit != u }
  else match s.trackAt u t with
    | some x => s.trackBegin u x
    | none => s.trackGap u t

/-- The unit arms: its first position, no firings (R196). -/
def State.cmpArmNow (s : State) (u : Nat) : State :=
  let s := ((s.put H.CMP_K 0 u).put R.CMP_STAT_FIRED 0 u).put R.CMP_STAT_DONE 0 u
  if s.cmpOver u 0 then ((s.put R.CMP_STAT_ARMED 0 u).put R.CMP_STAT_DONE 1 u).cause 5
  else s.put R.CMP_STAT_ARMED (b2n (s.on R.CMP_CTL_EN u)) u

/-- The fields of a compare unit's configuration words (R203). -/
def cmpCfg : List Fld :=
  [R.CMP_CTL_EN, R.CMP_CTL_MODE, R.CMP_CTL_DIR, R.CMP_CTL_SRC, R.CMP_CTL_OUT, R.CMP_CTL_POL, R.CMP_CTL_AXIS,
   R.CMP_WIDTH, R.CMP_POS, R.CMP_INC, R.CMP_LIST_BASE, R.CMP_LIST_LEN, R.CMP_CNT]

/-- The fields of a capture unit's configuration word (R203). -/
def capCfg : List Fld :=
  [R.CMP_CAP_CTL_EN, R.CMP_CAP_CTL_MODE, R.CMP_CAP_CTL_EDGE, R.CMP_CAP_CTL_SRC, R.CMP_CAP_CTL_AXIS]

/-- Whether the unit drives an output it may drive (R194): FIO24 to FIO31 are read as none on a CX7420-SX. -/
def State.cmpOutFix (s : State) (u : Nat) : State :=
  let o := s.get R.CMP_CTL_OUT u
  s.when ((decide (0x30 ≤ o)) || (s.on R.HIF_ID_VARIANT && decide (0x28 ≤ o))) fun s => s.put R.CMP_CTL_OUT 0x3F u

/-- The TRG pins that are outputs: those an enabled compare unit drives (R194). -/
def State.trgDir (s : State) : State :=
  s.put R.CMP_TRG_DIR ((List.range 32).foldl (fun m u =>
    if s.on R.CMP_CTL_EN u ∧ s.get R.CMP_CTL_OUT u < 16 then m ||| 2 ^ s.get R.CMP_CTL_OUT u else m) 0)

/-- Waiting configurations, arming and disarming take effect at the boundary (R194, R196, R203). -/
def State.cmpBoundary (s : State) : State :=
  let s := s.each (List.range 32) fun s u =>
    let s := s.when (s.on H.CMP_CFGP u) fun s =>
      let ws := (List.range 8).map fun k => s.get H.CMP_NEWW u k
      let s := ((s.putWords cmpCfg (0x80100 + 0x40 * u) ws).clampAll cmpCfg u).put H.CMP_CFGP 0 u
      let s := s.put R.CMP_LIST_LEN (min (s.get R.CMP_LIST_LEN u) (8192 - s.get R.CMP_LIST_BASE u)) u
      let s : State := s.cmpOutFix u
      let s : State := { s with tracks := s.tracks.filter fun x => x.unit != u }
      let s := s.put H.CMP_TGAP 0 u
      s.when (!s.on R.CMP_CTL_EN u) fun s => s.put R.CMP_STAT_ARMED 0 u
    let s := if s.get H.CMP_PEND u = 1 then s.cmpArmNow u
      else if s.get H.CMP_PEND u = 2 then s.put R.CMP_STAT_ARMED 0 u else s
    s.put H.CMP_PEND 0 u
  let s := s.each (List.range 32) fun s c =>
    let s := s.when (s.on H.CAP_CFGP c) fun s =>
      let s := ((s.putWord capCfg (0x80900 + 0x40 * c) (s.get H.CAP_NEWW c)).clampAll capCfg c).put H.CAP_CFGP 0 c
      let src := s.get R.CMP_CAP_CTL_SRC c
      let s := s.when (decide (0x18 ≤ src) && src != 0x20) fun s => s.put R.CMP_CAP_CTL_SRC 0x3F c
      s.when (!s.on R.CMP_CAP_CTL_EN c) fun s => s.put R.CMP_CAP_STAT_ARMED 0 c
    let s := s.when (s.get H.CAP_PEND c == 1 && s.on R.CMP_CAP_CTL_EN c) fun s =>
      (s.put R.CMP_CAP_STAT_ARMED 1 c).put H.CAP_DIS 0 c
    s.put H.CAP_PEND 0 c
  s.trgDir.cmpOut

end Sys2Proof.Machine
end

