-- ==== Sys2Proof/Machine/HomeOps.lean ====
section
/-! DEFINITION. Homing (R187 to R193): phases, limits, the reference and the shift of the position offset. -/

namespace Sys2Proof.Machine

/-- What a homing phase does. -/
inductive HomeStep where
  | search | release | index | hardStop | final
  deriving DecidableEq, Repr

/-- The steps of a homing method, in order (R188). -/
def homeSteps (method : Nat) : List HomeStep :=
  match method with
  | 0 => []
  | 1 => [.search, .release, .final]
  | 2 => [.search, .release, .index, .final]
  | 3 => [.index, .final]
  | _ => [.hardStop, .final]

/-- The step of the phase in progress. -/
def State.homeStep (s : State) (a : Nat) : Option HomeStep :=
  if s.get R.HM_STAT_PHASE a = 0 then none
  else (homeSteps (s.get R.HM_CFG_METHOD a))[s.get R.HM_STAT_PHASE a - 1]?

/-- The sign of "toward" (R188). -/
def State.toward (s : State) (a : Nat) : Int := if s.on R.HM_CFG_DIR a then -1 else 1

/-- The direction of motion of the phase in progress (R188, R190); 0 where there is none. The last phase moves to reference +
HM_OFFSET, from where it begins or, until then, from the rest before it; it has no direction before its reference is taken. -/
def State.homeDir (s : State) (a : Nat) : Int :=
  match s.homeStep a with
  | some .search => if s.on R.HM_STAT_REVERSED a then -s.toward a else s.toward a
  | some .release => -s.toward a
  | some .index => if s.get R.HM_CFG_METHOD a = 2 then -s.toward a else s.toward a
  | some .hardStop => s.toward a
  | some .final =>
    if s.on H.HM_REFP a then 0
    else
      let from_ := if s.get H.HM_NEXT a = 1 then
          ((s.lastMotion a).map fun m => roundUp m.endState.p 32).getD (s.geti H.HM_P0 a)
        else s.geti H.HM_P0 a
      sgn (s.geti R.HM_REF a + s.geti R.HM_OFFSET a - from_)
  | none => 0

/-- The speed of a phase, in units of 2^(-32). -/
def State.homeSpeed (s : State) (a : Nat) : Int :=
  min (s.lim (if s.homeStep a = some .search then R.HM_VSEARCH else R.HM_VCREEP) a) (s.lim R.TRJ_VMAX a)

/-- Phases that begin at rest. -/
def fromRest : List Phase → List Phase
  | ph :: l => { ph with v := some 0 } :: l
  | [] => []

/-- The change of speed into a homing phase (R188): where the axis moves against the phase's direction it comes to rest under
TRJ_DMAX first, and gains speed from there under TRJ_AMAX. -/
def homeRamp (x : Pva) (v : Int) (l : Limits) : List Phase :=
  if v * (x.v + x.a * absI x.a / (2 * l.j)) < 0 then
    ramp x.v x.a 0 l.a l.d l.j ++ fromRest (ramp 0 0 v l.a l.d l.j)
  else ramp x.v x.a v l.a l.d l.j

/-- A motion of homing at constant speed from time `t` on, reached under the axis limits (R188). -/
def State.homeRun (s : State) (a t : Nat) : Motion :=
  let x := s.demand a t
  let v := s.homeDir a * s.homeSpeed a
  let r := runPhases (homeRamp x v (s.axLimits a)) (65536 * t) x
  { axis := a, ts := t, kind := 3, te := 2 ^ 64 - 1, tgt := s.geti R.TRJ_TARGET a,
    pieces := r.1 ++ [.jerk r.2.1 r.2.2.p v 0 0] }

/-- The stop that ends a phase, under the axis limits, with MODE 3 (R188). -/
def State.homeStop (s : State) (a t : Nat) : Motion :=
  { s.stopMotion a t 3 (s.axLimits a) with tgt := s.geti R.TRJ_TARGET a }

/-- The latches of a phase clear (R190). -/
def State.homeLatches (s : State) (a : Nat) : State :=
  ((s.put R.HM_STAT_REVERSED 0 a).put R.HM_STAT_LAT_P 0 a).put R.HM_STAT_LAT_N 0 a

/-- The motion of the phase in progress begins at time `t` (R188): the travel of a phase counts on through its reversal (R191),
and a stop that a suspend or cancel has asked for stays (R193). -/
def State.homeGo (s : State) (a t : Nat) : State :=
  let p := s.posDem a t
  let s := s.put H.HM_TRV
    (if s.get H.HM_NEXT a = 2 then s.get H.HM_TRV a + (absI (p - s.geti H.HM_P0 a)).toNat else 0) a
  let s := s.when (s.get H.HM_NEXT a != 4 && s.get H.HM_NEXT a != 5) fun s => s.put H.HM_NEXT 0 a
  let s := (s.puti H.HM_P0 p a).put H.HM_STALL 0 a
  let s := s.put H.IDX_ARM (b2n (s.homeStep a == some .index)) a
  match s.homeStep a with
  | some .final =>
    let tgt := s.geti R.HM_REF a + s.geti R.HM_OFFSET a
    let q := planMove (65536 * t) (s.demand a t) (s.axLimits a) (tgt * 4294967296)
    let m := ({ axis := a, ts := t, kind := 3, tgt := tgt : Motion }).withPlan q
    (s.insMotion m).showMotion m
  | _ =>
    let m := s.homeRun a t
    (s.insMotion m).showMotion m

/-- Progress of homing: phases completed (R273). -/
def State.homeProgress (s : State) (a : Nat) : State :=
  match s.lopOf 0x0404 a with
  | none => s
  | some k => s.lopProgress k (s.get R.HM_STAT_PHASE a - 1) (homeSteps (s.get R.HM_CFG_METHOD a)).length

/-- A phase reaches its end condition: the next is shown, its latches clear, and the axis goes to rest before it
(R188, R190). -/
def State.homeNext (s : State) (a t : Nat) : State :=
  let s := ((s.put R.HM_STAT_PHASE (s.get R.HM_STAT_PHASE a + 1) a).homeLatches a).homeProgress a
  let m := s.homeStop a t
  ((s.setMotion m).put H.HM_NEXT 1 a).put H.IDX_ARM 0 a

/-- An abort: a quick stop, and the operation ends FAILED with its reason (R191). -/
def State.homeAbort (s : State) (a t reason : Nat) : State := (s.quickStop a t).homingEnd a 3 reason

/-- The reference of the phase, at sample resolution where `coarse` (R189). -/
def State.homeRef (s : State) (a : Nat) (p : Int) (coarse : Bool) : State :=
  (s.puti R.HM_REF p a).put R.HM_STAT_COARSE (b2n coarse) a

/-- The entries of the compare list that units bound to an axis use. -/
def State.cmpEntries (s : State) (a : Nat) : List Nat :=
  let us := (List.range 32).filter fun u =>
    s.on R.CMP_CTL_EN u && s.get R.CMP_CTL_AXIS u == a && s.get R.CMP_CTL_MODE u == 1
  (List.range 8192).filter fun k => us.any fun u =>
    decide (s.get R.CMP_LIST_BASE u ≤ k) && decide (k < s.get R.CMP_LIST_BASE u + s.get R.CMP_LIST_LEN u)

/-- The position offset of an axis changes by `o`: P_ACT, P_DEM, the target, the demand and the positions of bound compare
units move with it (R189). -/
def State.shiftAxis (s : State) (a : Nat) (o : Int) : State :=
  let es := s.cmpEntries a
  let s := s.puti H.AX_OFS (s.geti H.AX_OFS a + o) a
  let s := (s.puti R.AXS_P_ACT (s.geti R.AXS_P_ACT a + o) a).puti R.AXS_P_DEM (s.geti R.AXS_P_DEM a + o) a
  let s := s.puti R.TRJ_TARGET (s.geti R.TRJ_TARGET a + o) a
  let s := { s with
    motions := s.motions.map fun (m : Motion) =>
      if m.axis = a then { m with tgt := m.tgt + o, pieces := m.pieces.map fun (x : Piece) => x.shift o } else m,
    hist := s.hist.map fun (x : Hist) => if x.axis = a then { x with p := x.p + o } else x }
  let s := s.each (List.range 32) fun s u =>
    s.when (s.on R.CMP_CTL_EN u && s.get R.CMP_CTL_AXIS u == a) fun s =>
      let s := s.puti R.CMP_POS (s.geti R.CMP_POS u + o) u
      { s with tracks := s.tracks.map fun (x : Track) =>
          if x.unit = u then { x with p0 := x.p0 + o * 4294967296, p1 := x.p1 + o * 4294967296 } else x }
  s.each es fun s k => s.store (cmpList k) 8 (trunc 64 (sext 64 (s.load (cmpList k) 8) + o))

/-- The offset is applied and HOMED sets: homing has found its reference (R189, R323). -/
def State.homeApply (s : State) (a : Nat) : State :=
  let s := s.shiftAxis a (s.geti R.HM_HOMEPOS a - (s.geti R.HM_REF a + s.geti R.HM_OFFSET a))
  let s := s.put R.AXS_STATUS_HOMED 1 a
  match s.dpOf a with
  | some p => s.put R.DRV_STAT_POS_UNC 0 p
  | none => s

/-- Homing ends at rest, DONE (R189). HM_STAT.ERR keeps the reason of the last failure (R170). -/
def State.homeFinish (s : State) (a t : Nat) : State := ((s.homeApply a).holdFrom a t).homingEnd a 2 0

/-- The axis has come to rest in homing (R188, R193): the phase's motion begins, homing is suspended, or it ends. -/
def State.homeRest (s : State) (a t : Nat) : State :=
  match s.get H.HM_NEXT a with
  | 0 => if s.homeStep a = some .final then s.homeFinish a t else s
  | 4 =>
    let s := ((s.holdFrom a t).put H.HM_SUSP 1 a).put H.HM_NEXT 6 a
    let s := s.put H.HM_SUSPT t a
    match s.lopOf 0x0404 a with
    | some k => s.lopSuspended k
    | none => s
  | 5 => (s.holdFrom a t).homingEnd a 5 0
  | 6 => s
  | _ => s.homeGo a t

/-! ### Inputs -/

/-- A limit or home source is active (R171). -/
def State.srcActive (s : State) (a code : Nat) : Bool :=
  if code < 32 then bit (s.get R.FIO_IN) code
  else if code = 0x40 then s.isNirte a && bit (s.get H.AX_STAT a) 2
  else if code = 0x41 then s.isNirte a && bit (s.get H.AX_STAT a) 3
  else if code = 0x42 then s.isNirte a && bit (s.get H.AX_STAT a) 4
  else false

/-- A limit accepted in the direction of motion of a phase acts once: reversal or abort (R188, R190). The answer's
second part says whether it acted. -/
def State.homeLimit (s : State) (a t : Nat) : State × Bool :=
  let d := s.homeDir a
  let p := decide (0 < d) && s.on R.TRJ_STAT_LIMP a && !s.on R.HM_STAT_LAT_P a
  let n := decide (d < 0) && s.on R.TRJ_STAT_LIMN a && !s.on R.HM_STAT_LAT_N a
  if !(p || n) then (s, false)
  else
    let s := s.put (if p then R.HM_STAT_LAT_P else R.HM_STAT_LAT_N) 1 a
    if s.homeStep a = some .search && s.on R.HM_CFG_REV a && !s.on R.HM_STAT_REVERSED a then
      let m := s.homeStop a t
      (((s.setMotion m).put R.HM_STAT_REVERSED 1 a).put H.HM_NEXT 2 a, true)
    else (s.homeAbort a t 0x0405, true)

/-- The home source accepted, or released, at a boundary (R188, R189): it ends its phase, and the reference is taken in
the next sample. -/
def State.homeInput (s : State) (a t : Nat) (acted : Bool) : State :=
  let src := s.get R.TRJ_CFG_HOME a
  let on := s.srcActive a src
  let rose := on && !s.on H.HM_HACC a
  let s := s.put H.HM_HACC (b2n on) a
  if acted then s
  else match s.homeStep a with
    | some .search => if rose && decide (s.get H.HM_NEXT a ≠ 1) then s.homeNext a t else s
    | some .release =>
      if !on && s.get H.HM_NEXT a == 0 then ((s.homeNext a t).put H.HM_REFP 1 a).put H.HM_REFT (s.get H.BND_T) a else s
    | _ => s

/-- Limits and the home source during homing, at a boundary, for motions that change from time `t` on (R188 to R191). -/
def State.homeBoundary (s : State) (a t : Nat) : State :=
  if s.get R.HM_STAT_PHASE a = 0 ∨ s.on H.HM_SUSP a ∨ 3 < s.get H.HM_NEXT a then s
  else
    let r := s.homeLimit a t
    if r.1.get R.HM_STAT_PHASE a = 0 then r.1 else r.1.homeInput a t r.2

/-- The reference at the home release edge, in the first sample whose feedback boundary `fb` follows acceptance: at the edge's own
time for FIO0 to FIO7, else at this sample (R189). -/
def State.homeTakeRef (s : State) (a fb : Nat) : State :=
  if !s.on H.HM_REFP a ∨ fb < s.get H.HM_REFT a then s
  else
    let s := s.put H.HM_REFP 0 a
    if bit (s.get H.HM_EDGE a) 80 && decide (s.get R.TRJ_CFG_HOME a < 8) then
      (s.homeRef a (s.posAt a (s.get H.HM_EDGE a % 2 ^ 80)) false).put H.HM_EDGE 0 a
    else s.homeRef a (s.geti R.AXS_P_ACT a) true

/-- An index came at time `te`: it is the reference of an index phase, which it ends (R188, R189). -/
def State.homeIndex (s : State) (a te t : Nat) : State :=
  if s.homeStep a = some .index ∧ s.get H.HM_NEXT a = 0 then
    (s.homeRef a (s.posAt a (65536 * te)) false).homeNext a t
  else s

/-- The stall condition of a sample in the hard-stop phase; on a Local-Step axis the port declares the stall (R192). -/
def State.stallHeld (s : State) (a : Nat) : Bool :=
  s.hardStop a && s.get H.HM_NEXT a == 0 && s.axKind a != 2 &&
    decide ((s.get R.HM_TRQ a : Int) ≤ absI (s.geti R.AXS_TRQ_CMD a)) &&
    decide (absI (s.geti H.AX_V a) ≤ s.get R.HM_STALLV a)

/-- The first of the samples, up to this one, in which the stall condition has held (R192). -/
def State.stallNote (s : State) (a fb : Nat) : State :=
  if s.stallHeld a then (if bit (s.get H.HM_STALL a) 64 then s else s.put H.HM_STALL (2 ^ 64 + fb) a)
  else s.put H.HM_STALL 0 a

/-- Homing to the current position takes P_ACT of the sample of T_s, and is DONE (R188, R189). A plan that was in force goes on to
its rest. -/
def State.homeHere (s : State) (a fb : Nat) : State :=
  if s.on H.HM_M0 a ∧ s.get H.HM_T0 a ≤ fb then
    (((s.homeRef a (s.geti R.AXS_P_ACT a) false).homeApply a).homingEnd a 2 0)
  else s

/-- What a sample does for homing: the reference, travel, the stall condition, and rest (R188 to R192). New motions
change the demand from time `eb` on. -/
def State.homeSample (s : State) (a fb eb : Nat) : State :=
  if s.get R.HM_STAT_PHASE a = 0 then s.homeHere a fb
  else
    let s := (s.homeTakeRef a fb).stallNote a fb
    if (s.get H.HM_NEXT a = 0 ∨ s.get H.HM_NEXT a = 2) ∧
        ((s.get R.HM_DIST a : Int) < s.get H.HM_TRV a + absI (s.geti R.AXS_P_ACT a - s.geti H.HM_P0 a)) then s.homeAbort a eb 0x0406
    else match s.lastMotion a with
      | some m => if m.te ≤ fb then s.homeRest a eb else s
      | none => s

/-- Homing starts at T_s (R187, R188). -/
def State.homeStart (s : State) (a t : Nat) : State :=
  let s := ((s.put R.HM_STAT_COARSE 0 a).put H.HM_HACC 0 a).put H.HM_EDGE 0 a
  let s := (s.homeLatches a).put H.HM_REFP 0 a
  let s := (s.put H.HM_T0 t a).put H.HM_SUSP 0 a
  if s.get R.HM_CFG_METHOD a = 0 then s.put H.HM_M0 1 a
  else
    let s := (s.put R.AXS_STATUS_HOMED 0 a).put R.HM_STAT_PHASE 1 a
    (s.homeGo a t).homeBoundary a t

end Sys2Proof.Machine
end

