-- ==== Sys2Proof/Machine/SampleOps.lean ====
section
/-! DEFINITION. One sample of an axis (R65 to R73, R82 to R84, R164, R511, R512): feedback, the position and velocity
parts, the limiter, learning, and the command words. -/

namespace Sys2Proof.Machine

/-! ### Feedback -/

/-- The feedback of a sample (R218, R306). -/
structure Feedback where
  valid : Bool
  pos : Nat
  vel : Int
  tqa : Nat
  evt : Nat
  stat : Nat
  deriving DecidableEq, Repr

/-- Word `k` of the release packet (R110). -/
def Inst.word (x : Inst) (k : Nat) : Nat := ofBytes ((x.pkt.drop (4 * k)).take 4)

/-- The feedback in the inbox of an axis's clause: the half of a slot on a ring, the latched values of a port. -/
def State.fbOf (s : State) (a : Nat) (x : Inst) : Feedback :=
  if s.isNirte a then
    { valid := bit (x.word 0) 31, stat := x.word 0 % 2 ^ 16, pos := x.word 1, vel := sext 32 (x.word 2),
      tqa := x.word 3 / 2 ^ 16, evt := x.word 3 % 2 ^ 16 }
  else
    { valid := true, pos := x.word 0, vel := sext 32 (x.word 1), tqa := x.word 2 / 2 ^ 16,
      evt := x.word 2 % 2 ^ 16, stat := x.word 3 }

/-- The position of the port of a local axis (R308). -/
def State.portPos (s : State) (a : Nat) : Nat :=
  match s.encOf a with
  | some e => s.get R.DRV_ENC_CNT e
  | none =>
    match s.dpOf a with
    | some p => if s.get R.DRV_CFG_MODE p = 2 then s.get R.DRV_MSTEP p else s.get H.DP_POSU p
    | none =>
      match s.ptOf a with
      | some p => s.get R.PTG_COUNT p % 2 ^ 32
      | none => 0

/-- The speed of the port: the count difference over the last period, or the estimator's without an encoder (R306). -/
def State.portVel (s : State) (a : Nat) : Int :=
  match s.encOf a, s.dpOf a with
  | none, some p =>
    if s.get R.DRV_CFG_MODE p = 1 then s.geti H.DP_SPEED p
    else divRound (sext 32 (trunc 32 ((s.portPos a : Int) - s.get H.AX_LATP a)) * 1000000000) (s.axPeriod a)
  | _, _ => divRound (sext 32 (trunc 32 ((s.portPos a : Int) - s.get H.AX_LATP a)) * 1000000000) (s.axPeriod a)

/-- The index reported at a boundary: EVT in units of 4 ns times the divider (R306, R309). -/
def State.portIdx (s : State) (a t : Nat) : Option Nat :=
  match s.encOf a with
  | some e =>
    if bit (s.get H.ENC_IDXT e) 64 then
      some (min 65535 ((t - s.get H.ENC_IDXT e % 2 ^ 64) / (4 * divOf (s.get H.AX_DIV a))))
    else none
  | none => none

/-- STAT of a port (R306). -/
def State.portStat (s : State) (a : Nat) (idx : Bool) : Nat :=
  match s.dpOf a with
  | some p =>
    s.get R.DRV_STAT_RDY p + 2 * s.get R.DRV_STAT_HWOFF p + 4 * s.get R.DRV_STAT_CHOPF p +
      8 * b2n (s.on R.DRV_STAT_TLIM_ELL p || s.on R.DRV_STAT_TLIM_CHOP p) + 16 * b2n idx +
      32 * s.get R.DRV_STAT_STALL p + 64 * s.get R.DRV_STAT_POS_UNC p + 128 * s.get R.DRV_STAT_UV p +
      256 * s.get H.DP_ELLP p + 65536 * min 65535 (s.get R.DRV_VBUS p * 10 / 65536)
  | none => 1 + 16 * b2n idx

/-- The torque estimate of a port, Q1.15 (R306). -/
def State.portTqe (s : State) (a : Nat) : Nat :=
  match s.dpOf a with
  | some p => if s.get R.DRV_CFG_MODE p = 1 then s.get R.DRV_TQE p / 2 ^ 16 else s.get H.DP_IAMP p / 2 ^ 16
  | none => 0

/-- The inbox bytes of a local axis at a boundary (R306). -/
def State.portPkt (s : State) (a t : Nat) : List Nat :=
  let idx := s.portIdx a t
  ofWords [s.portPos a, trunc 32 (s.portVel a), s.portTqe a * 65536 + idx.getD 0, s.portStat a idx.isSome]

/-- What latching does in the port: the position is kept for the next difference, a reported index and the Ellipses of
the period are taken (R306). -/
def State.portLatch (s : State) (a : Nat) : State :=
  let s := s.put H.AX_LATP (s.portPos a) a
  let s := match s.encOf a with
    | some e => s.put H.ENC_IDXT (s.get H.ENC_IDXT e % 2 ^ 64) e
    | none => s
  match s.dpOf a with
  | some p => s.put H.DP_ELLP 0 p
  | none => s

/-- A sample with valid feedback: POS extends P_ACT, velocity, torque and STAT are taken (R218, R219). FLT raises DRIVE_FAULT when
it sets, and while it stands in a state that an axis fault leaves (R42, R50). -/
def State.fbValid (s : State) (a : Nat) (f : Feedback) : State :=
  let p := s.geti R.AXS_P_ACT a
  let d := sext 32 (trunc 32 ((f.pos : Int) - (p - s.geti H.AX_OFS a)))
  let flt := s.isNirte a && bit f.stat 1 && !(s.axEvs.any fun e => e == { axis := a, kind := .fault 6 }) &&
    (!bit (s.get H.AX_STAT a) 1 || (decide (2 ≤ s.axSt a) && decide (s.axSt a ≤ 5)))
  let s := (s.puti R.AXS_P_ACT (p + d) a).puti H.AX_V f.vel a
  let s := (s.put H.AX_TQA f.tqa a).put H.AX_STAT (f.stat % 2 ^ 16) a
  let s := s.put H.AX_MISS 0 a
  if s.isNirte a then
    (s.when flt fun s => s.post a (.fault 6)).when (bit f.stat 7) fun s => s.incSat R.LIV_MISS_CMD a
  else
    let s := s.addSat R.LIV_ELLIPSIS (bits f.stat 8 8) a
    (s.put R.AXS_STATUS_TORQUE_LIMITED (b2n (bit f.stat 3)) a).put R.AXS_STATUS_POS_UNCERTAIN (b2n (bit f.stat 6)) a

/-- A sample with missing feedback (R512): velocity, torque and STAT stay, P_ACT is extrapolated, and the miss counts
toward FEEDBACK_LOST (R50). -/
def State.fbMissing (s : State) (a fb : Nat) : State :=
  let dt : Int := if s.on H.AX_SAMP a then (fb : Int) - s.get H.AX_FBB a else 0
  let s := s.puti R.AXS_P_ACT (s.geti R.AXS_P_ACT a + divRound (s.geti H.AX_V a * dt) 1000000000) a
  let s := (s.incSat R.LIV_MISS_FB a).incSat H.AX_MISS a
  s.when (decide (s.get R.AXS_FB_LIMIT a ≤ s.get H.AX_MISS a)) fun s => s.post a (.fault 5)

/-- The velocity in raw units: V_ACT = sat32(v × VEL_SCALE) (R65). -/
def State.rawVel (s : State) (a : Nat) (v : Int) : Int := satI 32 (roundUp (v * s.geti R.AXS_VEL_SCALE a) 16)

/-- Index and touch-probe events of a half or a port: whether one came, of which kind, and its time (R218, R306). -/
def State.fbEvents (s : State) (a fb : Nat) (f : Feedback) : State :=
  if s.isNirte a then
    let te := (if bit f.stat 9 then fb - s.baseNs else fb) - 4 * f.evt
    let s := s.when (bit f.stat 5) fun s => s.homeIndex a te (fb + s.get R.NRT_RCFG_C (s.get H.AX_BIND a) * s.baseNs)
    if bit f.stat 6 then
      s.each (List.range 32) fun s c =>
        if s.get R.CMP_CAP_CTL_AXIS c = a ∧ s.get R.CMP_CAP_CTL_SRC c = 0x20 then s.capEdge c te 0 true else s
    else s
  else if bit f.stat 4 then s.homeIndex a (fb - 4 * f.evt * divOf (s.get H.AX_DIV a)) fb
  else s

/-- The feedback part of a sample (R65, R138): position, velocity, events, the counters, SAMPLE_SEQ. -/
def State.fbPart (s : State) (a : Nat) (x : Inst) : State :=
  let f := s.fbOf a x
  let s := if f.valid then s.fbValid a f else s.fbMissing a x.fb
  let s := s.puti R.AXS_V_ACT (s.rawVel a (s.geti H.AX_V a)) a
  let s := ((s.put H.AX_FBB x.fb a).put H.AX_SAMP 1 a).histPut a
  let s := s.when f.valid fun s => s.fbEvents a x.fb f
  (s.incSat R.LIV_SAMPLES a).incWrap R.AXS_STATUS_SAMPLE_SEQ a

/-! ### Which kind of sample -/

/-- The kind of an axis's sample (R40, R43, R65): 0 feedback part, 1 before the output path is ready, 2 seeding, 3 with
the loop closed. -/
def State.sampleMode (s : State) (a : Nat) : Nat :=
  let st := s.axSt a
  if st = 3 then
    if s.on H.AX_SEED a then 3 else if s.on H.AX_READY a || bit (s.get H.AX_STAT a) 0 then 2 else 1
  else if (4 ≤ st ∧ st ≤ 7) ∧ s.on H.AX_TRQ a then if s.on H.AX_RESEED a then 2 else 3
  else 0

/-- The boundary at which the command of a sample takes effect (R33, R66). -/
def State.effect (s : State) (a fb : Nat) : Nat :=
  if s.isNirte a then fb + s.get R.NRT_RCFG_C (s.get H.AX_BIND a) * s.baseNs else fb

/-! ### Trajectory step -/

/-- The stop that R177 looks ahead to from a state: under D and J of the plan in force, or the quick-stop values. -/
def State.stopAhead (s : State) (a t : Nat) (x : Pva) : Int :=
  let l := match s.motionAt a t with
    | some m => if m.kind = 4 then s.quickLimits a else if m.kind = 1 ∨ m.kind = 6 then m.limits else s.axLimits a
    | none => s.axLimits a
  (planStop (65536 * t) x { l with a := l.d }).pEnd

/-- The software limit that the stopping point passes, moving outward, in units of 2^(-32) (R177). A point up to 2^(-16) counts
past a limit lies on it: so far the rounding of a plan's times may carry its end (log entry 238). -/
def State.limitPassed (s : State) (a t : Nat) : Option Int :=
  let x := s.demand a t
  let one : Int := 4294967296
  if !s.swlOn a || s.get R.TRJ_STAT_MODE a == 5 || (x.v == 0 && x.a == 0) then none
  else
    let p := s.stopAhead a t x
    if s.geti R.TRJ_SWL_POS a * one + 65536 < p ∧ x.p < p then some (s.geti R.TRJ_SWL_POS a * one)
    else if p + 65536 < s.geti R.TRJ_SWL_NEG a * one ∧ p < x.p then some (s.geti R.TRJ_SWL_NEG a * one)
    else none

/-- The check of the software limits in a sample with effect boundary `t`: the emergency stop (R177). -/
def State.limitCheck (s : State) (a t : Nat) : State :=
  match s.limitPassed a t with
  | none => s
  | some lim =>
    let q := planEmergency (65536 * t) (s.demand a t) (s.get R.TRJ_EDEC a) (s.get R.TRJ_EJRK a) lim
    let m := ({ axis := a, ts := t, kind := 5, tgt := roundUp q.pEnd 32 : Motion }).withPlan q
    let st := s.get R.TRJ_SEG_STAT_STATE a
    let s := s.when (st == 1 || st == 2) fun s => s.flushTable a 5 t
    let s := (s.setMotion m).showMotion m
    (s.put R.AXS_STATUS_LIMIT_VIOL 1 a).put R.TRJ_OVERSHOOT (roundUp (absI (q.pEnd - lim)) 32).toNat a

/-- Plans that have ended by a sample's feedback boundary: MODE 0; a rest point passed: REVERSAL 0 (R169, R170, R173). -/
def State.planEnds (s : State) (a fb : Nat) : State :=
  match s.lastMotion a with
  | none => s
  | some m =>
    let s := s.when (decide (m.rest ≤ fb)) fun s => s.put R.TRJ_STAT_REVERSAL 0 a
    s.when (decide (m.te ≤ fb) && m.kind != 3 && m.kind != 2 && m.kind != 0) fun s => s.put R.TRJ_STAT_MODE 0 a

/-- INPOS: the plan in force has ended and the axis is inside its standstill window (R168). -/
def State.inpos (s : State) (a fb : Nat) : State :=
  let ended := match s.lastMotion a with
    | some m => decide (m.te ≤ fb)
    | none => true
  s.put R.TRJ_STAT_INPOS (b2n (ended && s.still a)) a

/-- A quotient rounded to nearest, halves toward +∞. -/
def roundQ (n d : Int) : Int := (2 * n + d) / (2 * d)

/-- v_ff, a_ff, t_ff of a state at the effect boundary (R164). -/
def State.ffTerms (s : State) (a : Nat) (x : Pva) : State :=
  let one : Int := 4294967296
  let sv : Int := if absI x.v ≤ (s.get R.TRJ_SSV a : Int) * one then 0 else sgn x.v
  let s := s.puti H.AX_VFF (satI 32 (roundUp (x.v * s.geti R.AXS_VEL_SCALE a) 48)) a
  let s := s.puti H.AX_AFF (satI 32 (roundQ (x.a * 2147483648) ((max 1 (s.get R.TRJ_AFS a) : Nat) * one))) a
  s.puti H.AX_TFF (satI 32 (s.geti R.TRJ_TFF_STAT a + sv * s.geti R.TRJ_TFF_FRIC a)) a

/-! ### Learning (R90, R91) -/

/-- A place in a learning table's memory: 0 the table in force, 0x2000 the shadow table, 0x4000 an import, 0x6000 the waiting
record, 0x8000 the record being learned, 0xA000 sums and 0xE000 counts of the repetition in progress. -/
def lffMem (t o : Nat) : Nat := 0x5C000000 + 0x10000 * t + o

/-- The table of the move in force. -/
def State.lrnTab (s : State) (a : Nat) : Nat := s.get H.LRN_T a - 1

/-- The index of a time in a repetition from `t0` over `d` ns (R90). -/
def lrnIdx (t0 d t : Nat) : Nat := min 2047 (2048 * (t - t0) / max 1 d)

/-- u_L of a sample with effect boundary `t` (R90). The table is applied from t_0 to t_0 + D, the move's own span; that it gives 0
outside is the model's choice (log entry 233). -/
def State.lrnOut (s : State) (a t : Nat) : Int :=
  if s.on H.LRN_ON a ∧ s.get H.LRN_T0 a ≤ t ∧ t ≤ s.get H.LRN_T0 a + s.get H.LRN_D a then
    sext 32 (s.load (lffMem (s.lrnTab a) (4 * lrnIdx (s.get H.LRN_T0 a) (s.get H.LRN_D a) t)) 4)
  else 0

/-- A replaced table takes its place: an import, else the shadow table (R93, R95). -/
def State.lffSwap (s : State) (t : Nat) : State :=
  if s.get H.LFF_IMP t = 3 then
    ((s.setBytes (lffMem t 0) (s.bytes (lffMem t 0x4000) 0x2000)).put H.LFF_IMP 0 t).put H.LFF_NEW 0 t
  else if s.on H.LFF_NEW t then
    (s.setBytes (lffMem t 0) (s.bytes (lffMem t 0x2000) 0x2000)).put H.LFF_NEW 0 t
  else s

/-- The learning table bound to an axis and an identity (R90). -/
def State.lffFor (s : State) (a mid : Nat) : Option Nat :=
  if mid = 0 then none
  else (List.range 64).find? fun t =>
    s.on R.LFF_BIND_EN t && s.get R.LFF_BIND_AXIS t == a && s.get R.LFF_BIND_MOVE_ID t == mid

/-- The repetition in force lasts `d` ns: whether its table `t` is applied, and whether it is to be recorded (R91, R94). -/
def State.lrnTiming (s : State) (a t d : Nat) : State :=
  let d0 := s.get R.LFF_D0 t * 1000
  let off := d0 != 0 && (decide (10 * d < 9 * d0) || decide (11 * d0 < 10 * d))
  let s := (s.put R.LFF_STAT_DUR_MISMATCH (b2n off) t).put H.LRN_D d a
  let s := s.put H.LRN_ON (b2n (!off)) a
  s.put H.LRN_NR (b2n (!off && !s.on R.LFF_CFG_FREEZE t && decide (d ≤ 4294967000))) a

/-- A function takes the place of the one before at `ts`: a repetition that has not reached its end by then is incomplete
(R91). -/
def State.lrnCut (s : State) (a ts : Nat) : State :=
  let s := (s.put H.LRN_ON 0 a).put H.LRN_NR 0 a
  s.when (decide (ts < s.get H.LRN_RT0 a + s.get H.LRN_RD a)) fun s => s.put H.LRN_REC 0 a

/-- The duration that learning knows of a function: from T_s to T_end, or the learnable run of a table, taken from the queue
while its start still waits (R172, R183). -/
def State.lrnDur (s : State) (m : Motion) : Option Nat :=
  if m.kind = 1 then some (m.te - m.ts)
  else if m.kind ≠ 2 then none
  else if m.held then (if m.run = 0 then none else some m.run)
  else (lastRun (s.segsOf m.axis) 0).map fun n => n * s.axPeriod m.axis

/-- A function starts: what it interrupts ends, and a bound identity's table, replaced by a new one that stands ready, is
applied (R90, R91, R93, R94). -/
def State.lrnBegin (s : State) (m : Motion) : State :=
  let a := m.axis
  let s := s.lrnCut a m.ts
  match s.lffFor a m.mid, s.lrnDur m with
  | some t, some d => (((s.lffSwap t).put H.LRN_T (t + 1) a).put H.LRN_T0 m.ts a).lrnTiming a t d
  | _, _ => s

/-- Learning follows the function that a sample with effect boundary `t` evaluates: its first sample is its start; a stop that the
queue brings cuts the repetition (R90, R91). -/
def State.lrnFollow (s : State) (a t : Nat) : State :=
  let s := match s.listedAt a t with
    | some m =>
      if m.begun ∨ t < m.ts then s
      else
        let s := s.lrnBegin m
        { s with motions := s.motions.map fun x => if x = m then { x with begun := true } else x }
    | none => s
  match s.motionAt a t with
  | some m => s.when (!m.begun && decide (m.ts ≤ t)) fun s => s.lrnCut a m.ts
  | none => s

/-- Gaps of a record filled: linear between neighbours, the nearest value at the ends (R91). -/
def fillGaps : Option Int → Nat → List (Option Int) → List Int
  | p, n, [] => List.replicate n (p.getD 0)
  | p, n, none :: t => fillGaps p (n + 1) t
  | p, n, some v :: t =>
    (List.range n).map (fun k => match p with
      | none => v
      | some q => q + divRound ((v - q) * ((k : Int) + 1)) (n + 1)) ++ v :: fillGaps (some v) 0 t

/-- The record of the repetition in progress: the mean of every index, with its gaps filled (R91). -/
def State.lrnRecord (s : State) (t : Nat) : List Int :=
  fillGaps none 0 ((List.range 2048).map fun k =>
    let n := s.load (lffMem t (0xE000 + 4 * k)) 4
    if n = 0 then none else some (divRound (sext 64 (s.load (lffMem t (0xA000 + 8 * k)) 8)) n))

/-- A list of 32-bit values stored. -/
def State.putList (s : State) (base : Nat) (l : List Int) : State := s.setBytes base (ofWords (l.map (trunc 32)))

/-- STATE of a learning table: 0 empty, 1 learning, 2 frozen (R95). That FREEZE reads as frozen whatever the table holds, and that
a table is empty while it has learned nothing since its last clear (REPS and LFF_D0 0), is the model's choice (log entry
234). -/
def State.lffShow (s : State) (t : Nat) : State :=
  s.put R.LFF_STAT_STATE
    (if s.on R.LFF_CFG_FREEZE t then 2 else if s.get R.LFF_STAT_REPS t = 0 ∧ s.get R.LFF_D0 t = 0 then 0 else 1) t

/-- A repetition is complete: its record waits for update, in place of one that waits already; the first after a clear
stores its duration (R91, R93, R94, R95), in whole microseconds, rounded down: the rounding is the model's choice (log entry
235). -/
def State.lrnComplete (s : State) (a : Nat) : State :=
  let t := s.get H.LRN_RT a - 1
  let l := s.lrnRecord t
  let d := s.get H.LRN_RD a
  let s := s.put H.LRN_REC 0 a
  if s.on R.LFF_CFG_FREEZE t ∨ !s.on R.LFF_BIND_EN t then s
  else
    let s := (s.putList (lffMem t 0x6000) l).put H.LFF_WAIT 1 t
    let s := s.when (s.get R.LFF_D0 t == 0) fun s => s.put R.LFF_D0 (d / 1000) t
    (s.put R.LFF_STAT_UPDATE_PENDING 1 t).lffShow t

/-- x_p of a sample goes into the record, against the index of its feedback boundary (R91). -/
def State.lrnNote (s : State) (a fb : Nat) : State :=
  let t := s.get H.LRN_RT a - 1
  let k := lrnIdx (s.get H.LRN_RT0 a) (s.get H.LRN_RD a) fb
  let sa := lffMem t (0xA000 + 8 * k)
  let ca := lffMem t (0xE000 + 4 * k)
  (s.store sa 8 (trunc 64 (sext 64 (s.load sa 8) + s.geti H.AX_XP a))).store ca 4 (s.load ca 4 + 1)

/-- The repetition in force is recorded from here on (R91). -/
def State.lrnRecStart (s : State) (a : Nat) : State :=
  let t := s.lrnTab a
  let s := s.zeroRange (lffMem t 0xA000) (lffMem t 0x10000)
  let s := ((s.put H.LRN_RT (s.get H.LRN_T a) a).put H.LRN_RT0 (s.get H.LRN_T0 a) a).put H.LRN_RD (s.get H.LRN_D a) a
  (s.put H.LRN_NR 0 a).put H.LRN_REC 1 a

/-- The learning record of a sample (R91): the repetition being recorded goes on or is complete, and the one in force follows it.
Feedback boundaries run behind the effect boundaries that u_L is read at, so the two may overlap. -/
def State.lrnSample (s : State) (a fb : Nat) : State :=
  let s := s.when (s.on H.LRN_REC a && decide (s.get H.LRN_RT0 a + s.get H.LRN_RD a ≤ fb)) fun s => s.lrnComplete a
  let s := s.when (s.on H.LRN_NR a && !s.on H.LRN_REC a && decide (s.get H.LRN_T0 a ≤ fb)) fun s => s.lrnRecStart a
  s.when (s.on H.LRN_REC a && decide (s.get H.LRN_RT0 a ≤ fb) &&
    decide (fb < s.get H.LRN_RT0 a + s.get H.LRN_RD a)) fun s => s.lrnNote a fb

/-! ### The cascade (R65) -/

/-- Steps 1 to 3: FE, x_p, the position stage. On an axis of steps without an encoder only FE is formed (R67). -/
def State.posPart (s : State) (a : Nat) : State :=
  let fe := satI 32 (s.geti R.AXS_P_DEM a - s.geti R.AXS_P_ACT a)
  let s := s.puti R.AXS_FE fe a
  if s.axKind a < 2 ∨ (s.encOf a).isSome then
    let xp := s.injected a 0x18 (satI 32 (roundUp (fe * s.geti R.AXS_POS_SCALE a) 16))
    let s := (s.puti H.AX_XP xp a).runStageFrom a xp (s.stage a 0)
    s.puti H.AX_YP (s.stageOut a (s.stage a 0) xp) a
  else (s.puti H.AX_XP 0 a).puti H.AX_YP 0 a

/-- The limits of the limiter (R65, R192). -/
def State.trqRange (s : State) (a : Nat) : Int × Int :=
  if s.hardStop a then (-(s.geti R.HM_TRQ a), s.geti R.HM_TRQ a)
  else (s.geti R.AXS_TRQ_MIN a, s.geti R.AXS_TRQ_MAX a)

/-- The limiter: TRQ_CMD, LIM_FLAGS and the Clamp count (R65, R73). -/
def State.limit (s : State) (a : Nat) (y : Int) : State :=
  let r := s.trqRange a
  let above := decide (r.2 < y)
  let under := decide (y < r.1)
  let s := s.puti R.AXS_TRQ_CMD (clampI r.1 r.2 y) a
  let s := s.put R.AXS_LIM_FLAGS (b2n above + 2 * b2n under) a
  s.when (above || under) fun s => s.incSat R.LIV_CLAMP a

/-- A gain in Q2.30 applied to a term, rounded (R65). -/
def State.gain (s : State) (f : Fld) (a : Nat) (x : Int) : Int := roundUp (s.geti f a * x) 30

/-- Steps 4 to 9 (R65). Axes of steps have only z (R67). -/
def State.velPart (s : State) (a eb : Nat) : State :=
  let s := s.lrnFollow a eb
  let z := if s.groupOf a = 255 then s.geti H.AX_YP a else s.geti H.AX_Z a
  let s := (s.puti H.AX_Z z a).ffTerms a (s.demand a eb)
  let s := s.puti H.AX_UL (s.lrnOut a eb) a
  if 2 ≤ s.axKind a then s
  else
    let xv := s.injected a 0x19 (satI 32 (z + s.gain R.AXS_KVFF a (s.geti H.AX_VFF a) - s.geti R.AXS_V_ACT a))
    let s := (s.puti H.AX_XV xv a).runStageFrom a xv (s.stage a 1)
    let yv := s.stageOut a (s.stage a 1) xv
    let xo := s.injected a 0x1A (satI 32 (yv + s.gain R.AXS_KAFF a (s.geti H.AX_AFF a) +
      s.gain R.AXS_KTFF a (s.geti H.AX_TFF a) + s.gain R.AXS_KLFF a (s.geti H.AX_UL a)))
    let s := (s.puti H.AX_XO xo a).runStageFrom a xo (s.stage a 2)
    s.limit a (s.stageOut a (s.stage a 2) xo)

/-- The seed torque (R43). -/
def State.seedTrq (s : State) (a : Nat) : Int := if s.axKind a < 2 then s.geti H.AX_TQA a * 65536 else 0

/-- The seeding sample, and the sample that reseeds after a lost word of the record (R43, R44, R448, R511): the generator's state, the section states, the first command's torque; the brake is
released, torque is on, and an enabling axis is Operational. -/
def State.seedSample (s : State) (a fb : Nat) : State :=
  let p := s.geti R.AXS_P_ACT a
  let v := s.geti H.AX_V a
  let one : Int := 4294967296
  let s := (s.when (s.on H.AX_RESEED a) fun s => s.functionsIdle a).learnDrop a
  let s := s.puti R.AXS_P_DEM p a
  let s := if absI v ≤ s.get R.TRJ_SSV a then
      let m := holdMotion a fb (p * one)
      (({ s with motions := s.motions.filter fun x => x.axis != a }).setMotion m).showMotion m
    else
      let q := planStop (65536 * fb) { p := p * one, v := v * one, a := 0 }
        { s.axLimits a with a := s.lim R.TRJ_DMAX a }
      let m := ({ axis := a, ts := fb, kind := 6, tgt := roundUp q.pEnd 32, d := s.get R.TRJ_DMAX a,
                  j := s.get R.TRJ_JMAX a : Motion }).withPlan q
      (({ s with motions := s.motions.filter fun x => x.axis != a }).setMotion m).showMotion m
  let t := s.seedTrq a
  let s := (s.puti R.AXS_FE 0 a).seed a t
  let s := ((s.puti H.AX_XP 0 a).puti H.AX_YP 0 a).puti H.AX_Z 0 a
  let s := s.when (decide (s.axKind a < 2)) fun s => s.limit a t
  let s := ((s.put H.AX_TRQ 1 a).put H.AX_SEED 1 a).put H.AX_FIRST 1 a
  (s.put H.AX_RESEED 0 a).when (s.axSt a == 3) fun s => s.takeSeeded a

/-- FE extremes of a loop-closed sample (R57). -/
def State.feExtremes (s : State) (a : Nat) : State :=
  let fe := s.geti R.AXS_FE a
  let s := s.puti R.LIV_FE_MIN (min fe (s.geti R.LIV_FE_MIN a)) a
  s.puti R.LIV_FE_MAX (max fe (s.geti R.LIV_FE_MAX a)) a

/-! ### Command words (R217, R305) -/

/-- A capture unit awaits the drive's touch probe (R200). -/
def State.tpArm (s : State) (a : Nat) : Bool :=
  (List.range 32).any fun c =>
    s.on R.CMP_CAP_STAT_ARMED c && s.get R.CMP_CAP_CTL_AXIS c == a && s.get R.CMP_CAP_CTL_SRC c == 0x20

/-- z as a rate correction in counts/s (R67); a VEL_SCALE of 0 leaves it open. -/
def State.rateCorr (s : State) (a : Nat) : Nat :=
  let k := s.geti R.AXS_VEL_SCALE a
  if (s.encOf a).isNone then 0
  else if k = 0 then s.free 32
  else trunc 32 (satI 32 (divSign (s.geti H.AX_Z a * 65536) k))

/-- The low word of a position as a port counts it: without the axis's offset (R189, R305). -/
def State.portTarget (s : State) (a t : Nat) : Nat := trunc 32 (s.posDem a t - s.geti H.AX_OFS a)

/-- The four words of a command with EN as given (R217, R219, R305). -/
def State.cmdWords (s : State) (a fb : Nat) (en : Bool) (trq : Int) : List Nat :=
  let arm := s.on H.IDX_ARM a
  if s.isNirte a then
    let ctrl := b2n en + 2 * s.get R.AXS_STATUS_BRAKE a + 8 * b2n arm + 16 * b2n (s.tpArm a)
    [s.get R.AXS_STATUS_SAMPLE_SEQ a * 65536 + ctrl, trunc 32 trq, 0, 0]
  else
    let ctrl := b2n en + (if s.axKind a = 3 then 0 else 2 * (1 - s.get R.AXS_STATUS_BRAKE a) + 8 * b2n arm)
    if s.axKind a = 1 then [trunc 32 trq, 0x40000000, 0, ctrl]
    else [s.portTarget a (fb + s.axPeriod a), s.rateCorr a, 0, ctrl]

/-- PUB of the four words by the clause of an instance (R127). -/
def State.publish (s : State) (x : Inst) (ws : List Nat) : State :=
  let l := s.get H.ENG_LVL1 x.eng
  (s.each (List.range 4) fun s k => s.put H.ENG_OUT (ws.getD k 0) x.eng (4 * l + k)).put H.ENG_PUB 1 x.eng l

/-- The cycles of a clause pass on its engine. -/
def State.spend (s : State) (x : Inst) (n : Nat) : State :=
  (s.put H.ENG_ECYC (s.get H.ENG_ECYC x.eng + n) x.eng).addSat H.ENG_BUSY n x.eng

/-! ### Parts of a sample -/

/-- The first half of a sample, up to the position stage. -/
def State.sampleFirst (s : State) (a : Nat) (x : Inst) : State :=
  let s := s.fbPart a x
  let mode := s.sampleMode a
  let s := s.put H.AX_SMODE mode a
  let s := s.when (mode != 2) fun s => s.put H.AX_FIRST 0 a
  let eb := s.effect a x.fb
  match mode with
  | 2 => s.seedSample a x.fb
  | 3 =>
    let s := (s.limitCheck a eb).planEnds a x.fb
    (s.puti R.AXS_P_DEM (s.posDem a x.fb) a).posPart a
  | _ => (s.puti H.AX_XP 0 a).puti H.AX_YP 0 a

/-- What follows the command in a sample with the loop closed: supervision, statistics, learning, homing, probes, sweeps,
compare tracks and capture entries. -/
def State.sampleAfter (s : State) (a fb eb : Nat) : State :=
  let s := (s.feExtremes a).supervise a true
  let s := s.lrnSample a fb
  let s := s.homeSample a fb eb
  let s := s.inpos a fb
  s.trackWrite a (if s.isNirte a then eb else fb + s.axPeriod a)

/-- The second half of a sample: the rest of the cascade, the publication, and what follows. -/
def State.sampleSecond (s : State) (a : Nat) (x : Inst) : State :=
  let eb := s.effect a x.fb
  let s := match s.get H.AX_SMODE a with
    | 1 => ((s.supervise a false).inpos a x.fb).publish x (s.cmdWords a x.fb true 0)
    | 2 =>
      let s := s.sampleAfter a x.fb eb
      s.publish x (s.cmdWords a x.fb true (s.geti R.AXS_TRQ_CMD a))
    | 3 =>
      let s := s.velPart a eb
      let r := 2 ≤ s.axKind a && (s.encOf a).isSome && s.geti R.AXS_VEL_SCALE a == 0
      let s := s.sampleAfter a x.fb eb
      (s.publish x (s.cmdWords a x.fb true (s.geti R.AXS_TRQ_CMD a))).when r fun s => s.useFree
    | _ =>
      let s := (s.supervise a false).inpos a x.fb
      if (s.axSt a = 6 ∨ s.axSt a = 7) ∧ s.lastEn a then s.publish x (s.cmdWords a x.fb false 0) else s
  ((s.sweepSample a).probeRecord a).capWrite a

/-- The cycles of a sample's clause: those of the full clause, or of its feedback part (R138). R138 gives the 72 cycles of the
feedback part for an axis loop; that a position part outside the loop-closed states costs as many, and its velocity part its
full cost, is the model's choice (DESIGN CHOICE, log entry 274). -/
def State.sampleCost (s : State) (a ty : Nat) : Nat :=
  if s.get H.AX_SMODE a = 0 ∧ ty ≠ 4 then 72 else s.clauseCost a ty

/-! ### Standard clauses -/

/-- The instance of a standard clause that an engine runs and whose body has not yet run. -/
def State.clauseOn (s : State) (ty rec_ : Nat) : Option Inst :=
  s.insts.find? fun x =>
    x.st == 1 && x.ty == ty && x.recd == rec_ &&
    s.engCan x.eng && !s.on H.ENG_DID x.eng (s.get H.ENG_LVL1 x.eng)

/-- The body of a standard clause (R138) on the engine that runs it, with the configuration it found at its dispatch
(R38, R76); until the clause completes its work may still be lost (R23). Nothing where no engine runs it. -/
def State.runClause (s : State) (ty rec_ : Nat) (f : Inst → State → State) : State :=
  match s.clauseOn ty rec_ with
  | none => s
  | some x =>
    (((f x (s.cfgThen x.id)).cfgFrom x.ccode s).noteWork s x).put H.ENG_DID 1 x.eng (s.get H.ENG_LVL1 x.eng)

end Sys2Proof.Machine
end

