-- ==== Sys2Proof/Machine/ConfOps.lean ====
section
/-! DEFINITION. Configuration words named by a target (R284), overlays and the base table (R284 to R288), and the
writes of requests into axis, group and learning-table records (R55, R67, R76 to R81, R85, R102, R170). -/

namespace Sys2Proof.Machine

/-! ### Words -/

/-- A TARGET word: kind, index, byte offset (R284). -/
def ovlTgt (kind idx off : Nat) : Nat := kind * 2 ^ 28 + idx * 2 ^ 16 + off

/-- The fields of a field-channel's configuration (R372). -/
def fioCfg : List Fld :=
  [R.FIO_CFG_DIR, R.FIO_CFG_ITYPE, R.FIO_CFG_FILT, R.FIO_CFG_WB, R.FIO_CFG_FAILACT, R.FIO_CFG_SAFE, R.FIO_CFG_AUTO,
   R.FIO_CFG_DEMAG, R.FIO_CFG_TP, R.FIO_CFG_TSD_AUTO, R.FIO_CFG_INV, R.FIO_CFG_THR, R.FIO_DEB]

/-- The configuration fields of a drive port: offsets 0x000 to 0x07C (R339). -/
def drvCfg : List Fld := R.drvFields.filter fun f => decide (0xA0000 ≤ f.base) && decide (f.base < 0xA0080)

/-- The configuration of a drive port in its ranges: CHOP_OFF not above CHOP_ON (R275, R339). -/
def State.drvFix (s : State) (p : Nat) : State :=
  let s := s.clampAll drvCfg p
  s.put R.DRV_CHOP_OFF (min (s.get R.DRV_CHOP_OFF p) (s.get R.DRV_CHOP_ON p)) p

/-- The mode-dependent safety parameter (R409). -/
def safModeCfg : List Fld :=
  [R.SAF_SG_CFG_SLS_LVL]

/-- The fields and the place of the word a target names. -/
def targetWord (t : Nat) : List Fld × Nat :=
  let idx := bits t 16 12
  let off := bits t 0 16
  match bits t 28 4 with
  | 0 => (rwFields R.axsFields, axRec idx + off)
  | 1 => (rwFields R.grpFields, grRec idx + off)
  | 2 => (rwFields R.lffFields, lfRec idx + off)
  | 3 => (fioCfg, 0xC0100 + 0x20 * idx + off)
  | 4 => (drvCfg, 0xA0000 + 0x1000 * idx + off)
  | _ => (safModeCfg, 0xD0000 + off)

/-- The fields of FIO_GCFG and FIO_TP (R372). -/
def fioGlob : List Fld := [R.FIO_GCFG_SIL_TO, R.FIO_GCFG_AUTO_RESUME, R.FIO_TP_WIDTH, R.FIO_TP_PERIOD]

/-- A configuration word of field I/O is put, within the limits of its fields (R275, R350, R358, R360). -/
def State.fioTake (s : State) (k w : Nat) : State :=
  if k < 2 then
    let s := (s.putWord fioGlob (0xC0000 + 4 * k) w).clampAll fioGlob 0
    s.put R.FIO_TP_WIDTH (min (s.get R.FIO_TP_WIDTH) (s.get R.FIO_TP_PERIOD * 5 / 2))
  else
    let c := (k - 0x40) / 8
    let s := (s.putWord fioCfg (0xC0000 + 4 * k) w).clampAll fioCfg c
    let s := s.when (decide (8 ≤ c)) fun s => s.put R.FIO_CFG_FILT 0 c
    s.when (s.get R.FIO_CFG_SAFE c == 3) fun s => s.put R.FIO_CFG_SAFE 0 c

/-- What a configuration word of field I/O reads as once it is taken: clamped, with FILT 0 on a channel from FIO8 on (R275, R350). -/
def State.fioLimited (s : State) (k w : Nat) : Nat := (s.fioTake k w).word (fioCfg ++ fioGlob) (0xC0000 + 4 * k)

/-- The value of the word a target names; of a field channel, the one on its way to the field die (R347). -/
def State.confWord (s : State) (t : Nat) : Nat :=
  let k := 0x40 + 8 * bits t 16 12 + bits t 0 16 / 4
  match (List.range 3).find? fun j => bits t 28 4 == 3 && s.on H.FIO_NEWM k j with
  | some j => s.get H.FIO_NEWW k j
  | none => s.word (targetWord t).1 (targetWord t).2

/-- The bits of the word a target names that hold a field. -/
def confMask (t : Nat) : Nat :=
  (fieldsOf (targetWord t).1 (targetWord t).2).foldl (fun m f =>
    (List.range 4).foldl (fun m k =>
      match fldAt f ((targetWord t).2 + k) with
      | some _ => m ||| (2 ^ f.width - 1) * 2 ^ (f.lo + 8 * k) % 2 ^ 32
      | none => m) m |||
    (if 32 < f.lo + f.width ∧ 4 ≤ (targetWord t).2 ∧ (fldAt f ((targetWord t).2 - 4)).isSome then
      (2 ^ f.width - 1) * 2 ^ f.lo / 2 ^ 32 else 0)) 0

/-- The word is covered by the active overlay (R287). -/
def State.covered (s : State) (t : Nat) : Bool := s.baseW.any fun p => p.1 == t

/-- A host write has reached the word of a target: a covered word is overridden, another is part of B (R287, R291). -/
def State.confWrote (s : State) (t : Nat) : State :=
  if s.covered t then s.put R.CFG_MODE_OVERRIDDEN 1 else s.dirty

/-- The words from an offset up of one record have been written. -/
def State.confWroteAll (s : State) (kind idx off n : Nat) : State :=
  s.each (List.range n) fun s k => s.confWrote (ovlTgt kind idx (off + 4 * k))

/-! ### Overlays -/

/-- The place of entry `i` of overlay `m`. -/
def ovlAt (m i : Nat) : Nat := 0x5D000000 + 0x8000 * m + 12 * i

/-- The number of entries of overlay `m`; mode 0 has none. -/
def State.ovlCount (s : State) (m : Nat) : Nat := if m = 0 ∨ 8 < m then 0 else s.get R.CFG_OVL_N 0 (m - 1)

/-- An overlay entry: target, mask and value. -/
structure OvlEntry where
  t : Nat
  mask : Nat
  val : Nat
  deriving DecidableEq, Repr

/-- The entries of overlay `m`. -/
def State.ovl (s : State) (m : Nat) : List OvlEntry :=
  (List.range (s.ovlCount m)).map fun i =>
    { t := s.load (ovlAt m i) 4, mask := s.load (ovlAt m i + 4) 4, val := s.load (ovlAt m i + 8) 4 }

/-- The entry targets an axis that is Absent (R290). -/
def State.ovlAbsent (s : State) (e : OvlEntry) : Bool := bits e.t 28 4 == 0 && s.axSt (bits e.t 16 12) == 0

/-- The base value of a word: from the base table where the active overlay covers it, else the value in use. -/
def State.baseWord (s : State) (t : Nat) : Nat :=
  match s.baseW.find? fun p => p.1 == t with
  | some p => p.2
  | none => s.confWord t

/-- A word's value under entries that target it, from its base value (R286). -/
def overlaid (base : Nat) (es : List OvlEntry) : Nat :=
  es.foldl (fun v e => andNot v e.mask ||| (e.val &&& e.mask)) base

/-- The least GRP_CFG.N with which no enabled cross-coupling section of a GRP_CC_CTL word names a missing member (R89). -/
def ccNeed (w : Nat) : Nat :=
  (List.range 4).foldl (fun n c =>
    if bit w (8 * c + 6) then max n (max (bits w (8 * c) 3) (bits w (8 * c + 3) 3) + 1) else n) 0

/-- The same of a group's word as entries of an overlay make it; 0 where none targets it (R89). -/
def State.ovlCcNeed (s : State) (g : Nat) (es : List OvlEntry) : Nat :=
  let es := es.filter fun e => e.t == ovlTgt 1 g 0x0C
  if es.isEmpty then 0 else ccNeed (overlaid (s.baseWord (ovlTgt 1 g 0x0C)) es)

/-- The targets of entries, each once, in order. -/
def ovlTargets (es : List OvlEntry) : List Nat := (es.map (·.t)).eraseDups

/-! ### Axis records -/

/-- The writable fields of an axis record. -/
def axsRw : List Fld := rwFields R.axsFields

/-- The fixed reaction of a class, as AXS_REACT shows it (R55). -/
def reactForced (cls : Nat) : Option Nat := if cls = 13 then some 0xF else forcedReact cls

/-- The ranges that relate fields of a record or its kind (R50, R55, R67, R73, R84, R170, R171). -/
def State.recFix (s : State) (a : Nat) : State :=
  let s := s.clampAll axsRw a
  let s := s.when (decide (2 ≤ s.axKind a)) fun s => (s.put R.AXS_STAGE_CFG_NVEL 0 a).put R.AXS_STAGE_CFG_NOUT 0 a
  let s := s.when (s.axKind a == 3) fun s => s.put R.TRJ_VMAX (min 10000000 (s.get R.TRJ_VMAX a)) a
  let s := s.when (decide (s.geti R.TRJ_SWL_POS a < s.geti R.TRJ_SWL_NEG a)) fun s =>
    s.puti R.TRJ_SWL_NEG (s.geti R.TRJ_SWL_POS a) a
  let s := s.when (decide (s.geti R.AXS_TRQ_MAX a < s.geti R.AXS_TRQ_MIN a)) fun s =>
    s.puti R.AXS_TRQ_MIN (s.geti R.AXS_TRQ_MAX a) a
  let s := s.put R.AXS_FE_IMM (max (s.get R.AXS_FE_LIMIT a) (s.get R.AXS_FE_IMM a)) a
  let s := s.each [R.TRJ_CFG_LIM_P, R.TRJ_CFG_LIM_N, R.TRJ_CFG_HOME] fun s f =>
    s.when (decide (32 ≤ s.get f a) && !(decide (0x40 ≤ s.get f a) && decide (s.get f a ≤ 0x42))) fun s => s.put f 0xFF a
  let s := s.when (s.axKind a != 3) fun s => s.put R.AXS_BRK_FIO 0x3F a
  s.each (List.range 13) fun s k =>
    match reactForced (k + 1) with
    | some r => s.put R.AXS_REACT r a k
    | none => s.put R.AXS_REACT (min 3 (s.get R.AXS_REACT a k)) a k

/-- A channel that an axis's brake may not name: one the safety core owns, or another axis's brake (R55). -/
def State.brkTaken (s : State) (a c : Nat) : Bool :=
  (s.on R.HIF_ID_VARIANT && decide (16 ≤ c)) || (decide (c < 32) && !s.on R.FIO_CFG_DIR c) ||
    (List.range 256).any fun x => x != a && s.axSt x != 0 && s.axKind x == 3 && s.get R.AXS_BRK_FIO x == c

/-- The brake channel that a write has set stands only where it may; `st` and `old`: the axis's state and its channel before
the write (R55). -/
def State.brkHold (s : State) (a st old : Nat) : State :=
  if st ≠ 1 ∧ st ≠ 2 then s.put R.AXS_BRK_FIO old a
  else if s.brkTaken a (s.get R.AXS_BRK_FIO a) then s.put R.AXS_BRK_FIO 0x3F a
  else s

/-- Words written into an axis record from an offset up, RO fields unchanged, ranges held (R77, R275). The brake
channel changes only while the axis is Configured or Disabled (R55). -/
def State.recPut (s : State) (a off : Nat) (ws : List Nat) : State :=
  let old := s.get R.AXS_BRK_FIO a
  let st := s.axSt a
  let s := ((s.errWrote 4 (0x1000 * a + off) (4 * ws.length)).putWords axsRw (axRec a + off) ws).recFix a
  s.brkHold a st old

/-- The bank in use of a tracker that is switched off is copied into the main coefficients (R81). -/
def State.trkStop (s : State) (a k : Nat) (en bank sec coef : Fld) : State :=
  if s.on en a then
    let s := s.when (s.on bank a) fun s =>
      s.each (List.range 5) fun s n => s.put R.AXS_SEC_COEF (s.get coef a n) a (5 * s.get sec a + n)
    ((s.put bank 0 a).put H.TRK_T 0 a k).put H.TRK_SH 0 a k
  else s

/-- Both trackers of an axis that a write would switch off are first put away (R81): `t` the state after the write. -/
def State.trkStops (s t : State) (a : Nat) : State :=
  let s := if t.on R.AXS_TRK_CTL_T0_EN a then s
    else s.trkStop a 0 R.AXS_TRK_CTL_T0_EN R.AXS_TRK_CTL_T0_BANK R.AXS_TRK_CTL_T0_SEC R.AXS_TRK0_COEF
  if t.on R.AXS_TRK_CTL_T1_EN a then s
  else s.trkStop a 1 R.AXS_TRK_CTL_T1_EN R.AXS_TRK_CTL_T1_BANK R.AXS_TRK_CTL_T1_SEC R.AXS_TRK1_COEF

/-- Tracker `k`, of the fields `en` and `sec`, begins to track in `t`: it does not in `s`, or tracks another section there; the SHIFT of its
section is kept (R80). -/
def State.trkBeginOne (t s : State) (a k : Nat) (en sec : Fld) : State :=
  t.when (t.on en a && (!s.on en a || s.get sec a != t.get sec a)) fun t =>
    t.put H.TRK_SH (8 + t.secShift a (t.get sec a)) a k

/-- The SHIFT of a section whose tracking begins stays fixed while it is tracked (R80): `s` the state before the write. -/
def State.trkBegin (t s : State) (a : Nat) : State :=
  (t.trkBeginOne s a 0 R.AXS_TRK_CTL_T0_EN R.AXS_TRK_CTL_T0_SEC).trkBeginOne s a 1 R.AXS_TRK_CTL_T1_EN R.AXS_TRK_CTL_T1_SEC

/-- The offsets of a section's coefficients are met by words from `off` up (R81). -/
def touchesSec (k off n : Nat) : Bool := decide (off < 0xA0 + 20 * (k + 1)) && decide (0xA0 + 20 * k < off + 4 * n)

/-- A write into an axis record meets the coefficients of a tracked section (R81). -/
def State.tracked (s : State) (a off n : Nat) : Bool :=
  (s.on R.AXS_TRK_CTL_T0_EN a && touchesSec (s.get R.AXS_TRK_CTL_T0_SEC a) off n) ||
    (s.on R.AXS_TRK_CTL_T1_EN a && touchesSec (s.get R.AXS_TRK_CTL_T1_SEC a) off n)

/-- The positions of a tracker's table ascend (R79). -/
def ascending : List Int → Bool
  | x :: y :: t => decide (x < y) && ascending (y :: t)
  | _ => true

/-- How many sections are tracked in all (R79). -/
def State.trackCount (s : State) : Nat :=
  (List.range 256).foldl (fun n a => n + s.get R.AXS_TRK_CTL_T0_EN a + s.get R.AXS_TRK_CTL_T1_EN a) 0

/-- The points of a tracker's table (R79). -/
def State.trkPoints (s : State) (a : Nat) (npt pos : Fld) : List Int :=
  (List.range (s.get npt a)).map fun j => s.geti pos a j

/-- Why a tracker of the state after a write is refused (R79, R278); 0 where it is not: `s` the state before. A table that the
write changes must ascend, whether or not its tracker is enabled; a tracker with no table of two points is refused
with TABLE_ORDER as well, the model's choice (log entry 247). -/
def State.trkRefuse (s t : State) (a : Nat) (en sec npt pos : Fld) : Nat :=
  if t.on en a ∧ t.get H.SEC_NOTCH a (t.get sec a) ≠ 6 then 0x0208
  else if t.trkPoints a npt pos ≠ s.trkPoints a npt pos ∧ !ascending (t.trkPoints a npt pos) then 0x0201
  else if t.on en a ∧ (t.get npt a < 2 ∨ !ascending (t.trkPoints a npt pos)) then 0x0201
  else 0

/-- Why a record write is refused for its trackers; 0 where it is not. -/
def State.trkCheck (s t : State) (a off n : Nat) : Nat :=
  if s.tracked a off n then 0x0202
  else
    let r0 := s.trkRefuse t a R.AXS_TRK_CTL_T0_EN R.AXS_TRK_CTL_T0_SEC R.AXS_TRK_SRC_T0_NPT R.AXS_TRK0_PT_POS
    let r1 := s.trkRefuse t a R.AXS_TRK_CTL_T1_EN R.AXS_TRK_CTL_T1_SEC R.AXS_TRK_SRC_T1_NPT R.AXS_TRK1_PT_POS
    if r0 ≠ 0 then r0 else if r1 ≠ 0 then r1
    else if 64 < t.trackCount ∧ s.trackCount < t.trackCount then 0x0200
    else 0

/-- Raw coefficients written to a section end its recipe (R79). -/
def State.notchRaw (s : State) (a off n : Nat) : State :=
  s.each ((List.range 24).filter fun k => touchesSec k off n) fun s k => s.put H.SEC_NOTCH 0 a k

/-- The changes of a request raise U above ADMIT (R157): `t` the state with them. -/
def State.overload (s t : State) : Bool := s.loadRefuses (s.loadSum s.descPend) (t.loadSum t.descPend)

/-! ### Swap (R286, R288) -/

/-- The ports of a bus group (R325). -/
def State.busPorts (s : State) (g : Nat) : List Nat := (List.range 8).filter fun p => s.get R.DRV_CFG_BUSGRP p == g

/-- While a chopper fault stands on a port of a bus group, every port of it runs motoring only (R327). -/
def State.motoringOnly (s : State) : State :=
  s.each (List.range 8) fun s p =>
    s.put R.DRV_STAT_TLIM_CHOP (b2n ((s.busPorts (s.get R.DRV_CFG_BUSGRP p)).any fun q => s.on R.DRV_STAT_CHOPF q)) p

/-- One word takes its value of the new mode; a field word goes with the next refresh (R288). A brake channel follows only
where it may change (R55); a tracker that the swap switches off is put away (R81). -/
def State.swapWord (s : State) (es : List OvlEntry) (t : Nat) : State :=
  let v := overlaid (s.baseWord t) (es.filter fun e => e.t == t)
  if bits t 28 4 = 3 then
    let k := 0x40 + 8 * bits t 16 12 + bits t 0 16 / 4
    (s.put H.FIO_NEWW (s.fioLimited k v) k 1).put H.FIO_NEWM 1 k 1
  else
    let a := bits t 16 12
    let old := s.get R.AXS_BRK_FIO a
    let u := s.putWord (targetWord t).1 (targetWord t).2 v
    let u := if bits t 28 4 = 0 ∧ bits t 0 16 = 0x00C then
        ((s.trkStops u a).putWord (targetWord t).1 (targetWord t).2 v).trkBegin s a
      else u
    if bits t 28 4 = 0 ∧ bits t 0 16 = 0x70C then u.brkHold a (u.axSt a) old else u

/-- The record or port of a target is brought into its ranges (R275). -/
def State.fixTarget (s : State) (t : Nat) : State :=
  let idx := bits t 16 12
  match bits t 28 4 with
  | 0 => s.recFix idx
  | 1 => s.clampAll (rwFields R.grpFields) idx
  | 2 => s.clampAll (rwFields R.lffFields) idx
  | 4 => s.drvFix idx
  | _ => s

/-- AFFV of the descriptors of a record clears (R288). -/
def State.affClear (s : State) (rec : Nat) : State :=
  s.each (List.range 1024) fun s d => s.when (s.descRec d == rec) fun s => s.put R.SCH_DESC_AFFV 0 d

/-- The records that targets cover, as descriptors name them. -/
def ovlRecs (ts : List Nat) : List Nat :=
  (ts.filterMap fun t =>
    if bits t 28 4 = 0 then some (1 + bits t 16 12) else if bits t 28 4 = 1 then some (0x200 + bits t 16 12) else none).eraseDups

/-- The words of a target's record whose range depends on other words of it (R275). -/
def relWords (t : Nat) : List Nat :=
  let idx := bits t 16 12
  match bits t 28 4 with
  | 0 => ([R.TRJ_SWL_NEG, R.AXS_TRQ_MIN, R.AXS_FE_IMM].flatMap fun f =>
      (List.range ((f.width + 31) / 32)).map fun k => ovlTgt 0 idx (f.base - 0x10000000 + 4 * k))
  | 4 => [ovlTgt 4 idx (R.DRV_CHOP_OFF.base - 0xA0000)]
  | _ => []

/-- The swap to mode `b`: every covered word takes its new value, the base table holds those overlay `b` covers (R286,
R288). A word that is not covered and that its range moves with them (R275) keeps its value in B in the base table, and gets it
back at the next switch; the spec names no such word (DESIGN CHOICE, log entry 278). -/
def State.swapTo (s : State) (b : Nat) : State :=
  let eb := (s.ovl b).filter fun e => !s.ovlAbsent e
  let ea := s.baseW.map (·.1)
  let tb := ovlTargets eb
  let ts := (ea ++ tb).eraseDups
  let base := tb.map fun t => (t, s.baseWord t)
  let u := s.each ts fun s t => s.swapWord eb t
  let s := u.each ts fun s t => s.fixTarget t
  let s := s.when (ts.any fun t => bits t 28 4 == 4) fun s => s.motoringOnly
  let kept := (ts.flatMap relWords).eraseDups.filter fun t => !ts.contains t && u.confWord t != s.confWord t
  let s := { s with baseW := base ++ kept.map fun t => (t, u.confWord t) }
  let s := s.each (ovlRecs ts) fun s r => s.affClear r
  let s := s.each (ovlRecs ts) fun s r =>
    if r < 0x200 then s.relink (r - 1) else s.stageAll (s.groupDesc (r - 0x200))
  let s := (s.put R.CFG_MODE_ACTIVE b).put H.MSW_B 0
  s.put R.CFG_MODE_OVERRIDDEN 0

/-- The staged mode switch takes effect at boundary `n`, and its request completes (R288, R290, R300). -/
def State.swapNow (s : State) (n : Nat) : State :=
  if s.get H.MSW_B = 0 then s
  else
    let b := s.get H.MSW_B - 1
    let es := s.ovl b
    let skip := (es.filter fun e => s.ovlAbsent e).length
    let late := s.get H.MSW_CYC != 0 && decide (s.get H.MSW_CYC < n)
    let mb := s.get H.MSW_MB
    let s := ((s.swapTo b).put R.CFG_MODE_CYC n).put H.MSW_MB 0
    s.when (mb != 0) fun s =>
      s.done (mb - 1) (toBytes 8 n ++ toBytes 4 (es.length - skip) ++ toBytes 4 skip ++ toBytes 4 (b2n late))

/-- A staged switch is due at boundary `n`, time `t` (R288). -/
def State.swapDue (s : State) (t n : Nat) : Bool :=
  s.get H.MSW_B != 0 && decide (s.get H.MSW_T ≤ t) && decide (s.get H.MSW_CYC ≤ n)

end Sys2Proof.Machine
end

