-- ==== Sys2Proof/Machine/AxisReq.lean ====
section
/-! DEFINITION. The commands on axis states and records: R42 to R46, R55, R77 to R79, R89, R95, R97 to R99, R513, and the
requests 0x0100 to 0x0208 of R280. -/

namespace Sys2Proof.Machine

/-! ### Timers of an axis -/

/-- ENABLE_TIMEOUT: the output path was not ready in time (R44). -/
def execEnableTimeout (a : Nat) (s : State) : Out :=
  .next (if a < 256 ∧ s.axSt a = 3 ∧ s.timeUp (s.get H.AX_T0 a + 1000000 * s.get H.SEQ_EN a) then s.post a (.fault 8)
    else s)

/-- STOP_HOLD: the hold time inside the standstill window is over; the brake is applied (R45). -/
def execStopHold (a : Nat) (s : State) : Out :=
  .next (if a < 256 ∧ s.axSt a = 5 ∧ s.get H.AX_STOP a = 2 ∧ s.still a ∧
      s.timeUp (s.get H.AX_HT a + 1000000 * s.get H.SEQ_HOLD a) then (s.brake a true).stopPhase a 3
    else s)

/-- BRAKE_ENGAGE_DELAY: torque is removed at the next boundary (R45, R49). -/
def execBrakeEngageDelay (a : Nat) (s : State) : Out :=
  .next (if a < 256 ∧ s.get H.AX_STOP a = 3 ∧ s.timeUp (s.get H.AX_HT a + 1000000 * s.get H.SEQ_BRK a) then
      s.post a .stopDone
    else s)

/-- STOP_TIMEOUT: the stop did not reach the end of its hold in time (R46). -/
def execStopTimeout (a : Nat) (s : State) : Out :=
  .next (if a < 256 ∧ s.axSt a = 5 ∧ (s.get H.AX_STOP a = 1 ∨ s.get H.AX_STOP a = 2) ∧
      s.timeUp (s.get H.AX_T0 a + 1000000 * s.get H.SEQ_STO a) then s.post a (.fault 9)
    else s)

/-- FRST_TIMEOUT: the fault-reset halves have not cleared FLT in time (R513). -/
def execFrstTimeout (a : Nat) (s : State) : Out :=
  .next (if a < 256 ∧ s.on H.FRST_ON a ∧ 16 ≤ s.get H.FRST_N a then s.frstResolve a false else s)

/-! ### Requests that wait for the axis's boundary -/

/-- The axis named by a request, at offset 0 of its page. -/
def State.parAxis (s : State) (mb : Nat) : Nat := s.par mb 0 4

/-- An axis whose configuration waits for its boundary. -/
def State.configuring (s : State) (a : Nat) : Bool :=
  s.axEvs.any fun e => e.axis == a && match e.kind with | .configured _ => true | _ => false

/-- A request waits for the axis's boundary (R41). -/
def State.postReq (s : State) (mb opc a : Nat) (k : AxKind) : State := (s.wait mb opc (a + 0x10000)).post a k

/-- A request on the state of an axis that is not Absent (R42). -/
def State.stateReq (s : State) (mb opc : Nat) (k : AxKind) : State :=
  s.request mb opc 4 fun s =>
    let a := s.parAxis mb
    if 256 ≤ a then s.fail mb 0x0003
    else if s.axSt a = 0 && !s.configuring a then s.failSt mb a 0x0004
    else s.postReq mb opc a k

/-- AXIS_ENABLE (R42, R43). -/
def execAxisEnable (mb : Nat) (s : State) : Out := .next (s.stateReq mb 0x0102 (.enable mb))

/-- AXIS_DISABLE (R42, R45). -/
def execAxisDisable (mb : Nat) (s : State) : Out := .next (s.stateReq mb 0x0103 (.disable mb))

/-- AXIS_FAULT_RESET (R42). -/
def execAxisFaultReset (mb : Nat) (s : State) : Out := .next (s.stateReq mb 0x0104 (.faultReset mb))

/-- AXIS_FAULT_RAISE: class HOST (R50). -/
def execAxisFaultRaise (mb : Nat) (s : State) : Out := .next (s.stateReq mb 0x0105 (.faultRaise mb))

/-- AXIS_DECONFIGURE (R42). -/
def execAxisDeconfigure (mb : Nat) (s : State) : Out := .next (s.stateReq mb 0x0101 (.deconfigured mb))

/-! ### AXIS_CONFIGURE -/

/-- The eight parameters of AXIS_CONFIGURE: axis, binding, node, slot, vendor, product, divider code, phase. -/
def State.cfgPars (s : State) (mb : Nat) : List Nat := (List.range 8).map fun k => s.par mb (4 * k) 4

/-- A binding code of R280. -/
def bindOk (b : Nat) : Bool :=
  b == 0 || b == 1 || (decide (0x10 ≤ b) && decide (b < 0x18)) || (decide (0x20 ≤ b) && decide (b < 0x30))

/-- Bindings that waiting AXIS_CONFIGURE requests will take: binding and slot. -/
def State.bindsComing (s : State) : List (Nat × Nat) :=
  s.axEvs.filterMap fun e =>
    match e.kind with
    | .configured mb => some (s.par mb 4 4, s.par mb 12 4)
    | _ => none

/-- A slot or port that is in use, or will be (R280). -/
def State.bindTaken (s : State) (b slot : Nat) : Bool :=
  ((if b < 2 then s.axisOfSlot b slot else s.axisOf b).isSome) ||
    (s.bindsComing.any fun p => p.1 == b && (decide (2 ≤ b) || p.2 == slot))

/-- A produced connection serves a node (R381). -/
def State.hasConn (s : State) (r node : Nat) : Bool :=
  (List.range 64).any fun c =>
    s.on R.SAF_CONN_CFG_EN c && s.get R.SAF_CONN_CFG_DIR c == 0 && s.get R.SAF_CONN_CFG_RING c == r &&
      s.get R.SAF_CONN_CFG_NODE c == node

/-- The kind of an axis by its binding (R39). -/
def State.kindOf (s : State) (b : Nat) : Nat :=
  if b < 2 then 0 else if 0x20 ≤ b then 3 else if s.get R.DRV_CFG_MODE (b - 0x10) = 2 then 2 else 1

/-- The parameters of the AXIS_CONFIGURE requests that wait. -/
def State.cfgsComing (s : State) : List (List Nat) :=
  s.axEvs.filterMap fun e =>
    match e.kind with
    | .configured mb => some (s.cfgPars mb)
    | _ => none

/-- The supervision clause of a ring follows the number of its axes (R138, R139). -/
def State.supUp (s : State) (r : Nat) : State :=
  let n := (s.ringAxes r).length
  if n = 0 then (s.freeDesc (s.get H.SUP_DESC r)).put H.SUP_DESC 0 r
  else
    let s := s.when (!bit (s.get H.SUP_DESC r) 10) fun s => s.put H.SUP_DESC (s.takeDesc.getD 0) r
    s.when (bit (s.get H.SUP_DESC r) 10) fun s => s.stageAll [(s.get H.SUP_DESC r % 1024, s.supDesc r n)]

/-- The binding of an axis: axis, binding, node, slot, vendor, product, divider code, phase (R280). -/
def State.axBind (s : State) (p : List Nat) : State :=
  let a := p.getD 0 0
  let s := ((s.put H.AX_BIND (p.getD 1 0) a).put H.AX_NODE (p.getD 2 0) a).put H.AX_SLOT (p.getD 3 0) a
  let s := (s.put H.AX_VENDOR (p.getD 4 0) a).put H.AX_PROD (p.getD 5 0) a
  let s := (s.put H.AX_DIV (min 3 (p.getD 6 0)) a).put H.AX_PHASE (min 7 (p.getD 7 0)) a
  s.put R.AXS_STATUS_KIND (s.kindOf (p.getD 1 0)) a

/-- The descriptors of an axis that becomes Configured: its own, and the supervision clause of its ring (R138, R139). -/
def State.cfgStage (s : State) (p : List Nat) : State :=
  let a := p.getD 0 0
  let s := (s.axBind p).put R.AXS_STATUS_STATE 1 a
  ((s.put H.AX_DESC (s.takeDesc.getD 0) a).relink a).supUp (s.ringOf a)

/-- How many descriptors an axis that becomes Configured takes: its own, and with a ring's first axis the ring's (R139). -/
def State.cfgNeeds (s : State) (p : List Nat) : Nat :=
  1 + b2n (!bit (s.get H.SUP_DESC ((s.axBind p).ringOf (p.getD 0 0))) 10)

/-- Why an axis may not become Configured for its descriptors or the load they bring; 0 where it may (R139, R157). -/
def State.cfgRoom (s : State) (p : List Nat) : Nat :=
  if s.descFreeN < s.cfgNeeds p then 0x0300
  else if s.overload (s.cfgStage p) then 0x0301 else 0

/-- Why AXIS_CONFIGURE is refused on arrival; 0 where it is not (R139, R157, R280, R381). Descriptors and load are counted
with those of the requests that wait. -/
def State.cfgRefuse (s : State) (p : List Nat) : Nat :=
  let a := p.getD 0 0
  let b := p.getD 1 0
  let slot := p.getD 3 0
  if 256 ≤ a ∨ !bindOk b then 0x0003
  else if s.axSt a ≠ 0 ∨ s.configuring a then 0x0004
  else if b < 2 ∧ (p.getD 2 0 < 1 ∨ 4094 < p.getD 2 0 ∨ 255 < slot) then 0x0003
  else if b < 2 ∧ s.on R.NRT_RCFG_EN b ∧ s.get R.NRT_RCFG2_NSLOT b ≤ slot then 0x0003
  else if s.bindTaken b slot then 0x0003
  else if b < 2 ∧ s.on R.NRT_RCFG_EN b ∧ s.get R.NRT_RCFG_SSIZE b = 0 then 0x0507
  else if 0x10 ≤ b ∧ b < 0x18 ∧ s.get R.DRV_CFG_MODE (b - 0x10) = 0 then 0x0701
  else if s.sgMap a ≠ 0xF ∧ 0x20 ≤ b then 0x0906
  else if s.sgMap a ≠ 0xF ∧ b < 2 ∧ !s.hasConn b (p.getD 2 0) then 0x0907
  else (s.each s.cfgsComing fun s q => s.cfgStage q).cfgRoom p

/-- AXIS_CONFIGURE (R42): checked on arrival, in effect at the axis's boundary. -/
def execAxisConfigure (mb : Nat) (s : State) : Out :=
  .next (s.request mb 0x0100 32 fun s =>
    let p := s.cfgPars mb
    let r := s.cfgRefuse p
    if r ≠ 0 then s.fail mb r
    else s.postReq mb 0x0100 (p.getD 0 0) (.configured mb))

/-! ### Records -/

/-- AXIS_REACTIONS: the reaction codes of an axis (R55). -/
def execAxisReactions (mb : Nat) (s : State) : Out :=
  .next (s.request mb 0x0106 17 fun s =>
    let a := s.parAxis mb
    if 256 ≤ a then s.fail mb 0x0003
    else if s.axSt a = 0 then s.fail mb 0x0004
    else
      let s := s.each (List.range 13) fun s k => s.put R.AXS_REACT (s.par mb (4 + k) 1) a k
      ((s.recFix a).confWroteAll 0 a 0x710 4).done mb)

/-- REC_READ: words of an axis record (R280). -/
def execRecRead (mb : Nat) (s : State) : Out :=
  .next (s.request mb 0x0107 12 fun s =>
    let a := s.parAxis mb
    let off := s.par mb 4 4
    let len := s.par mb 8 4
    if 256 ≤ a then s.fail mb 0x0003
    else if s.axSt a = 0 then s.fail mb 0x0004
    else
      let len := max 4 (min len 4096)
      if off % 4 ≠ 0 ∨ len % 4 ≠ 0 ∨ 0x1000 < off + len then s.fail mb 0x0003
      else s.done mb (ofWords (s.words R.axsFields (axRec a + off) (len / 4))))

/-- The words of a write request from byte `k` of its page to its length. -/
def State.parWords (s : State) (mb k : Nat) : List Nat :=
  (List.range ((s.get H.MB_LEN mb - k) / 4)).map fun i => s.par mb (k + 4 * i) 4

/-- A write into an axis record (R76 to R81, R157): refused whole, or all its words. -/
def State.recWrite (s : State) (mb a off : Nat) (ws : List Nat) : State :=
  let t := s.recPut a off ws
  let r := s.trkCheck t a off ws.length
  if r ≠ 0 then s.fail mb r
  else
    let t := (((s.trkStops t a).recPut a off ws).notchRaw a off ws.length).trkBegin s a
    let t := (t.confWroteAll 0 a off ws.length).relink a
    if s.overload t then s.fail mb 0x0301 else t.done mb (toBytes 4 ws.length)

/-- REC_WRITE (R77). -/
def execRecWrite (mb : Nat) (s : State) : Out :=
  .next (s.request mb 0x0108 12 fun s =>
    let a := s.parAxis mb
    let off := s.par mb 4 4
    let ws := s.parWords mb 8
    if 256 ≤ a then s.fail mb 0x0003
    else if s.axSt a = 0 then s.fail mb 0x0004
    else if off % 4 ≠ 0 ∨ 0x1000 < off + 4 * ws.length then s.fail mb 0x0003
    else s.recWrite mb a off ws)

/-! ### Recipes (R74) -/

/-- The value of a binary32 number; none for an infinity or a NaN. -/
def f32 (w : Nat) : Option Rat :=
  let e := bits w 23 8
  if e = 255 then none
  else
    let m : Nat := if e = 0 then bits w 0 23 else 2 ^ 23 + bits w 0 23
    let v : Rat := (m : Rat) * 2 ^ max 1 e / 2 ^ 150
    some (if bit w 31 then -v else v)

/-- The quotient, where the divisor is not 0. -/
def quot (a b : Rat) : Option Rat := if b = 0 then none else some (a / b)

/-- A frequency in Hz held to 20 Hz to 0.45 times the sample rate (R74). -/
def recipeFreq (period : Nat) (f : Rat) : Rat := max 20 (min (450000000 / (max 1 period : Nat)) f)

/-- The tangent under which a frequency is pre-warped: of a half turn by the frequency and the sample period (R74). -/
def prewarp (period : Nat) (f : Rat) : Rat := tanTurn (recipeFreq period f * period / 1000000000)

/-- B0, B1, B2, A1, A2 from a numerator and a denominator in powers of the delay. -/
def biquad (b0 b1 b2 a0 a1 a2 : Rat) : Option (List Rat) :=
  if a0 = 0 then none else some [b0 / a0, b1 / a0, b2 / a0, a1 / a0, a2 / a0]

/-- PI: the Tustin integrator of an integral corner (R74). -/
def recipePi (k w : Rat) : List Rat := [k * (1 + w), k * (w - 1), 0, -1, 0]

/-- PID under Tustin, its derivative through a low-pass of `td / n`, for a sample period in seconds (R74). -/
def recipePid (k ti td n t : Rat) : Option (List Rat) :=
  match quot t (2 * ti), quot (2 * td) (n * t) with
  | some r, some q =>
    match quot (1 - q) (1 + q), quot (2 * td / t) (1 + q) with
    | some p, some g =>
      some [k * (1 + r + g), k * (p - 1 + r * (1 + p) - 2 * g), k * (r * p - p + g), p - 1, -p]
    | _, _ => none
  | _, _ => none

/-- Lead/lag: a first-order zero and pole, each pre-warped, of a gain at high frequency (R74). -/
def recipeLead (wz wp g : Rat) : Option (List Rat) := biquad (g * (1 + wz)) (g * (wz - 1)) 0 (1 + wp) (wp - 1) 0

/-- A notch with unity DC gain, for the cosine of its frequency, its zero and pole radii (R74). -/
def recipeNotch (c rz rp : Rat) : Option (List Rat) :=
  (quot (1 - 2 * rp * c + rp * rp) (1 - 2 * rz * c + rz * rz)).map fun k =>
    [k, -2 * rz * c * k, rz * rz * k, -2 * rp * c, rp * rp]

/-- A low-pass of second order with unity DC gain (R74). -/
def recipeLp2 (w z : Rat) : Option (List Rat) :=
  biquad (w * w) (2 * w * w) (w * w) (1 + 2 * z * w + w * w) (2 * (w * w - 1)) (1 - 2 * z * w + w * w)

/-- A low-pass of first order with unity DC gain (R74). -/
def recipeLp1 (w : Rat) : Option (List Rat) := biquad w w 0 (1 + w) (w - 1) 0

/-- B0, B1, B2, A1, A2 of a recipe before scaling, where its parameters give them (R74): the recipes of the table by their
Tustin forms, with frequencies pre-warped and held to their range (log entries 82 and 228). -/
def recipeFor (code : Nat) (pars : List Nat) (period : Nat) : Option (List Rat) :=
  let x := fun k => f32 (pars.getD k 0)
  let w := fun f => prewarp period f
  match code, x 0, x 1, x 2, x 3 with
  | 0, _, _, _, _ => some [1, 0, 0, 0, 0]
  | 1, some k, _, _, _ => some [k, 0, 0, 0, 0]
  | 2, some k, some f, _, _ => some (recipePi k (w f))
  | 3, some k, some ti, some td, some n => recipePid k ti td n (period / 1000000000)
  | 4, some fz, some fp, some g, _ => recipeLead (w fz) (w fp) g
  | 5, some f, _, _, _ =>
    let v := recipeFreq period f * period / 1000000000
    recipeNotch (mkRat (cosTurn v.num.toNat v.den) (2 ^ 30)) (mkRat (Config.notchZero (pars.getD 2 0)) (2 ^ 30))
      (mkRat (Config.notchPole (pars.getD 1 0) period) (2 ^ 30))
  | 6, some f, some z, _, _ => recipeLp2 (w f) z
  | 7, some f, _, _, _ => recipeLp1 (w f)
  | _, _, _, _, _ => none

/-- B0, B1, B2, A1, A2 of a recipe before scaling (R74). -/
def recipeOf (code : Nat) (pars : List Nat) (period : Nat) : List Rat :=
  (recipeFor code pars period).getD ((List.range 5).map fun k => (Config.recipe code pars period).getD k 0)

/-- A coefficient in Q2.30 under a SHIFT, rounded. -/
def underShift (b : Rat) (sh : Nat) : Int := ratIn (2 ^ 30) (b / 2 ^ sh)

/-- The least SHIFT for which every B coefficient lies in Q2.30, and the coefficients under it; with none, the gain is the
greatest that fits (R74). -/
def scaled (c : List Rat) : Nat × List Int :=
  let b := c.take 3
  let a := (c.drop 3).map fun x => satI 32 (ratIn (2 ^ 30) x)
  match (List.range 8).find? fun sh => b.all fun x => fitsI 32 (underShift x sh) with
  | some sh => (sh, b.map (fun x => underShift x sh) ++ a)
  | none =>
    let top := b.foldl (fun m x => max m (max x (-x))) 1
    (7, b.map (fun x => ratIn 2147483647 (x / top)) ++ a)

/-- SHIFT of section `k` written into the shared words (R102). -/
def State.putShift (s : State) (a k sh : Nat) : State :=
  let f := if k < 8 then R.AXS_SEC_SHIFT0 else if k < 16 then R.AXS_SEC_SHIFT1 else R.AXS_SEC_SHIFT2
  let v := s.get f a
  s.put f (v - bits v (3 * (k % 8)) 3 * 8 ^ (k % 8) + sh * 8 ^ (k % 8)) a

/-- A section's set written under the freeze rule: frozen, written, released (R78). -/
def State.putSection (s : State) (a k : Nat) (c : Nat × List Int) : State :=
  let s := s.orBit R.AXS_SEC_FREEZE k a
  let s := s.putShift a k c.1
  let s := s.each (List.range 5) fun s n => s.puti R.AXS_SEC_COEF (c.2.getD n 0) a (5 * k + n)
  s.clearBit R.AXS_SEC_FREEZE k a

/-- The SHIFT and the coefficients of a SEC_RECIPE request (R74). -/
def State.recipeCoef (s : State) (mb : Nat) : Nat × List Int :=
  let n := min 4 ((s.get H.MB_LEN mb - 12) / 4)
  scaled (recipeOf (s.par mb 8 4) ((List.range n).map fun j => s.par mb (12 + 4 * j) 4) (s.axPeriod (s.parAxis mb)))

/-- The axis with the section of a SEC_RECIPE request written, and its descriptors with it (R74, R138). -/
def State.withRecipe (s : State) (mb : Nat) : State :=
  let a := s.parAxis mb
  let k := s.par mb 4 4
  let t := (s.putSection a k (s.recipeCoef mb)).put H.SEC_NOTCH (s.par mb 8 4 + 1) a k
  ((t.confWroteAll 0 a (0x14 + 4 * (k / 8)) 1).confWroteAll 0 a (0xA0 + 20 * k) 5).relink a

/-- SEC_RECIPE (R74, R78, R81). R74's table ends at code 0x07: a code of 8 or above completes with BAD_INDEX, the model's
choice (log entry 245). -/
def execSecRecipe (mb : Nat) (s : State) : Out :=
  .next (s.request mb 0x0200 12 fun s =>
    let a := s.parAxis mb
    let k := s.par mb 4 4
    let code := s.par mb 8 4
    if 256 ≤ a ∨ 24 ≤ k ∨ 8 ≤ code then s.fail mb 0x0003
    else if s.axSt a = 0 then s.fail mb 0x0004
    else if s.tracked a (0xA0 + 20 * k) 5 then s.fail mb 0x0202
    else
      let c := s.recipeCoef mb
      let t := s.withRecipe mb
      if s.overload t then s.fail mb 0x0301 else t.done mb (ofWords (c.1 :: c.2.map (trunc 32))))

/-! ### Groups (R85, R89) -/

/-- GRP_READ: the 512 bytes of a group record. -/
def execGrpRead (mb : Nat) (s : State) : Out :=
  .next (s.request mb 0x0201 4 fun s =>
    let g := s.par mb 0 4
    if 32 ≤ g then s.fail mb 0x0003
    else s.done mb (ofWords (s.words R.grpFields (grRec g) 128)))

/-- The period and phase that members of one group share: period and phase modulo the divider (R85). -/
def State.grpPeriod (s : State) (a : Nat) : Nat × Nat := (s.axPeriod a, s.get H.AX_PHASE a % divOf (s.get H.AX_DIV a))

/-- Why the members of a group are refused; 0 where they are not (R85): configured axes, once each, of one period and
phase, in no other group. -/
def State.grpRefuse (s : State) (g : Nat) (ms : List Nat) : Nat :=
  if ms.any fun a => s.axSt a == 0 then 0x0003
  else if ms.any fun a => s.groupOf a != 255 && s.groupOf a != g then 0x0204
  else if ms.eraseDups.length ≠ ms.length then 0x0204
  else match ms with
    | [] => 0
    | m :: t => if t.any fun a => s.grpPeriod a != s.grpPeriod m then 0x0203 else 0

/-- A write of a group record leaves an enabled cross-coupling section on a member that does not exist, or lowers N under
what an overlay enables (R89): `t` the state with the write. -/
def State.grpCcBad (s t : State) (g : Nat) : Bool :=
  let n := t.get R.GRP_CFG_N g
  let w := t.confWord (ovlTgt 1 g 0x0C)
  ((n != s.get R.GRP_CFG_N g || w != s.confWord (ovlTgt 1 g 0x0C)) && decide (n < ccNeed w)) ||
    (decide (n < s.get R.GRP_CFG_N g) && (List.range 8).any fun m => decide (n < s.ovlCcNeed g (s.ovl (m + 1))))

/-- Axes leave a group: their descriptors are those of single axes again; without a member left, the group's is free
(R136, R139). -/
def State.grpLeave (s : State) (g : Nat) (gone : List Nat) (last : Bool) : State :=
  let s := s.each gone fun s a =>
    let s := (s.freeDesc (s.get H.AX_DESC2 a)).put H.AX_DESC2 0 a
    (s.put R.AXS_STAGE_CFG_GROUP 255 a).relink a
  s.when last fun s => (s.freeDesc (s.get H.GRP_DESC g)).put H.GRP_DESC 0 g

/-- How many descriptors the members of a group still need: its own, and a second one for each axis that has none (R139). -/
def State.grpNeeds (s : State) (g : Nat) : Nat :=
  if (s.members g).isEmpty then 0
  else b2n (!bit (s.get H.GRP_DESC g) 10) + ((s.members g).filter fun a => !bit (s.get H.AX_DESC2 a) 10).length

/-- A group takes its members: each shows its group and has a second descriptor, the group one of its own (R85, R139). -/
def State.grpForm (s : State) (g : Nat) : State :=
  let ms := s.members g
  if ms.isEmpty then s
  else
    let s := s.when (!bit (s.get H.GRP_DESC g) 10) fun s => s.put H.GRP_DESC (s.takeDesc.getD 0) g
    let s := s.stageAll (s.groupDesc g)
    let s := s.each ms fun s a =>
      let s := s.put R.AXS_STAGE_CFG_GROUP g a
      s.when (!bit (s.get H.AX_DESC2 a) 10) fun s =>
        let s := s.put H.AX_DESC2 (s.takeDesc.getD 0) a
        s.stageAll [(s.velDesc a, (s.axStd a 2).words)]
    s.each ms fun s a => s.relink a

/-- GRP_WRITE (R85, R89): refused whole, or all its words. A descriptor that the request frees is in use to the next boundary
(R136) and counts as taken. -/
def execGrpWrite (mb : Nat) (s : State) : Out :=
  .next (s.request mb 0x0202 12 fun s =>
    let g := s.par mb 0 4
    let off := s.par mb 4 4
    let ws := s.parWords mb 8
    if 32 ≤ g ∨ off % 4 ≠ 0 ∨ 0x200 < off + 4 * ws.length then s.fail mb 0x0003
    else
      let t := (s.putWords (rwFields R.grpFields) (grRec g + off) ws).clampAll (rwFields R.grpFields) g
      let same := s.members g == t.members g
      let r := if s.grpCcBad t g then 0x0003 else t.grpRefuse g (t.members g)
      if r ≠ 0 then s.fail mb r
      else
        let t := if same then t
          else t.grpLeave g ((s.members g).filter fun a => !(t.members g).contains a) (t.members g).isEmpty
        if !same ∧ t.descFreeN < t.grpNeeds g then s.fail mb 0x0300
        else
          let t := if same then t.stageAll (t.groupDesc g) else t.grpForm g
          let t := t.confWroteAll 1 g off ws.length
          if s.overload t then s.fail mb 0x0301 else t.done mb (toBytes 4 ws.length))

/-! ### Learning tables (R90 to R95) -/

/-- The fields of a learning-table header that software writes. -/
def lffRw : List Fld := rwFields R.lffFields

/-- Another table is bound to the same axis and identity (R90); identity 0 binds none, and a table whose EN is 0 is bound
where its identity is not 0. -/
def State.lffTwice (s : State) (t : Nat) : Bool :=
  s.get R.LFF_BIND_MOVE_ID t != 0 &&
    (List.range 64).any fun u => u != t && s.get R.LFF_BIND_AXIS u == s.get R.LFF_BIND_AXIS t &&
      s.get R.LFF_BIND_MOVE_ID u == s.get R.LFF_BIND_MOVE_ID t

/-- The learning-update descriptor of a table follows its binding (R138, R139). -/
def State.lffBind (s : State) (t : Nat) : State :=
  let want := s.on R.LFF_BIND_EN t && s.get R.LFF_BIND_MOVE_ID t != 0
  let has := bit (s.get H.LFF_DESC t) 10
  if want && !has then
    match s.takeDesc with
    | some d => (s.put H.LFF_DESC d t).descStage (d % 1024) (s.lffDesc t)
    | none => s
  else if !want && has then (s.freeDesc (s.get H.LFF_DESC t)).put H.LFF_DESC 0 t
  else s

/-- LFF_WRITE: the header of a learning table (R95); where it ends a binding, learning goes idle at the axis's next boundary
(R47). -/
def execLffWrite (mb : Nat) (s : State) : Out :=
  .next (s.request mb 0x0203 44 fun s =>
    let t := s.par mb 0 4
    if 64 ≤ t then s.fail mb 0x0003
    else
      let u := (s.putWords lffRw (lfRec t) ((List.range 10).map fun k => s.par mb (4 + 4 * k) 4)).clampAll lffRw t
      let want := u.on R.LFF_BIND_EN t && u.get R.LFF_BIND_MOVE_ID t != 0
      if u.lffTwice t then s.fail mb 0x0205
      else if want && !bit (s.get H.LFF_DESC t) 10 && s.descAlloc.isNone then s.fail mb 0x0300
      else
        let u := ((u.lffBind t).lffShow t).confWroteAll 2 t 0 10
        let off := s.on R.LFF_BIND_EN t && !(u.on R.LFF_BIND_EN t && u.get R.LFF_BIND_AXIS t == s.get R.LFF_BIND_AXIS t &&
          u.get R.LFF_BIND_MOVE_ID t == s.get R.LFF_BIND_MOVE_ID t)
        let u := u.when off fun u => u.post (s.get R.LFF_BIND_AXIS t) (.learnOff t)
        if s.overload u then s.fail mb 0x0301 else u.done mb)

/-- A table cleared: entries 0, REPS and LFF_D0 0, waiting records and tables discarded (R95). -/
def State.lffClear (s : State) (t : Nat) : State :=
  let s := s.zeroRange (lffMem t 0) (lffMem t 0xA000)
  let s := ((s.put R.LFF_STAT_REPS 0 t).put R.LFF_D0 0 t).put H.LFF_WAIT 0 t
  let s := ((s.put H.LFF_NEW 0 t).put H.LFF_IMP 0 t).put H.LFF_CHUNK 0 t
  (s.put R.LFF_STAT_UPDATE_PENDING 0 t).lffShow t

/-- LFF_CLEAR (R95). -/
def execLffClear (mb : Nat) (s : State) : Out :=
  .next (s.request mb 0x0204 4 fun s =>
    let t := s.par mb 0 4
    if 64 ≤ t then s.fail mb 0x0003 else (s.lffClear t).done mb)

/-- The table and half that MBX_ARG names (R280). -/
def State.lffArg (s : State) (mb : Nat) : Nat × Nat := (bits (s.get H.MB_ARG mb) 0 6, bits (s.get H.MB_ARG mb) 8 1)

/-- LFF_EXPORT: half of a table as last replaced (R93, R95). -/
def execLffExport (mb : Nat) (s : State) : Out :=
  .next (s.request mb 0x0205 0 fun s =>
    let p := s.lffArg mb
    s.done mb (s.bytes (lffMem p.1 (4096 * p.2)) 4096))

/-- LFF_IMPORT: half of a table staged (R93, R95). -/
def execLffImport (mb : Nat) (s : State) : Out :=
  .next (s.request mb 0x0206 4096 fun s =>
    let p := s.lffArg mb
    let s := s.setBytes (lffMem p.1 (0x4000 + 4096 * p.2)) (s.bytes (pageOf mb) 4096)
    (s.orBit H.LFF_IMP p.2 p.1).done mb)

/-! ### Trace pages (R97, R98, R263) -/

/-- The first run of `n` free pages. -/
def State.pageRun (s : State) (n : Nat) : Option Nat :=
  (List.range (249 - n)).find? fun p => (List.range n).all fun k => !s.on H.PG_USED (p + k)

/-- Pages marked as used or free. -/
def State.pageMark (s : State) (p n v : Nat) : State := s.each (List.range n) fun s k => s.put H.PG_USED v (p + k)

/-- The probe ring of an axis is freed (R263). -/
def State.probeFree (s : State) (a : Nat) : State :=
  if s.get H.PRB_PAGE a = 0 then s
  else ((s.pageMark (s.get H.PRB_PAGE a - 1) (s.get H.PRB_N a) 0).put H.PRB_PAGE 0 a).put H.PRB_N 0 a

/-- Trace pages of an axis that outlived a firmware restart are freed (R267). -/
def State.orphFree (s : State) (a : Nat) : State :=
  s.each (List.range 32) fun s c =>
    s.when (s.on H.SW_ORPH c && s.get H.SW_AXIS c == a) fun s =>
      ((s.pageMark (s.get H.SW_PAGE c - 1) (s.get H.SW_NPG c) 0).put H.SW_PAGE 0 c).put H.SW_ORPH 0 c

/-- A region's header as allocation leaves it: capacity, axis, the rest 0 (R263). -/
def State.pageHead (s : State) (p cap a : Nat) : State :=
  ((s.setBytes (pageAddr p) (List.replicate 64 0)).store (pageAddr p + 4) 4 cap).store (pageAddr p + 12) 4 a

/-- The BAR2 offset of a trace page. -/
def pageOff (p : Nat) : Nat := pageAddr p - 0x40000000

/-- PROBE_ALLOC: the probe ring of an axis is allocated anew (R97, R263). -/
def execProbeAlloc (mb : Nat) (s : State) : Out :=
  .next (s.request mb 0x0207 8 fun s =>
    let a := s.parAxis mb
    let n := clampN 1 248 (s.par mb 4 4)
    if 256 ≤ a then s.fail mb 0x0003
    else if s.axSt a = 0 then s.fail mb 0x0004
    else
      let u := (s.probeFree a).orphFree a
      match u.pageRun n with
      | none => s.fail mb 0x0206
      | some p =>
        let cap := (4096 * n - 64) / 40
        let u := ((u.pageMark p n 1).put H.PRB_PAGE (p + 1) a).put H.PRB_N n a
        ((u.pageHead p cap a).put H.PRB_DEC 0 a).done mb (toBytes 4 (pageOff p) ++ toBytes 4 cap))

/-! ### Sweeps (R98, R99) -/

/-- The samples of a sweep for its signal and parameters, at a period in ns (R98): sine, a duration; multisine, base
periods of 2^n samples; PRBS, 2^n - 1 steps of a hold. The spec gives the parameters no layout and no units; the
model's (log entry 246): sine, start and stop frequency in Q16.16 Hz at 0 and 1, 0 for a linear sweep at 2, the duration in
ms at 3; multisine, n at 0, the mask of harmonics 1 to 64 at 1 and 2, the base periods at 10; PRBS, the order at 0, the hold
at 1. -/
def sweepLen (sig : Nat) (p : List Nat) (period : Nat) : Nat :=
  if sig = 0 then clampN 10 60000 (p.getD 3 0) * 1000000 / max 1 period
  else if sig = 1 then 2 ^ clampN 8 16 (p.getD 0 0) * clampN 1 1024 (p.getD 10 0)
  else (2 ^ clampN 7 15 (p.getD 0 0) - 1) * clampN 1 8 (p.getD 1 0)

/-- The pages of a sweep buffer of `n` records. -/
def sweepPages (n : Nat) : Nat := (64 + 16 * n + 4095) / 4096

/-- A channel takes up a sweep (R98, R99). -/
def State.sweepSet (s : State) (c a mb page len : Nat) : State :=
  let s := (((s.put H.SW_ON 1 c).put H.SW_RUN 1 c).put H.SW_AXIS a c).put H.SW_CODE (s.par mb 4 4) c
  let s := ((s.put H.SW_SIG (s.par mb 8 4) c).put H.SW_AMP (s.par mb 16 4) c).put H.SW_LEN len c
  let s := s.each (List.range 3) fun s k => s.put H.SW_RESP (s.par mb (12 + k) 1) c k
  let s := s.each (List.range 11) fun s k => s.put H.SW_PAR (s.par mb (20 + 4 * k) 4) c k
  let s := ((s.put H.SW_K 0 c).put H.SW_REC 0 c).put H.SW_PAGE (page + 1) c
  let s := (s.put H.SW_NPG (sweepPages len) c).pageMark page (sweepPages len) 1
  let d := s.takeDesc.getD 0
  ((s.put H.SW_DESC d c).pageHead page len a).relink a

/-- SWEEP_START (R98, R99, R157, R272). What a refused request finds stays, the pages of an orphaned sweep too (R267). That an
axis that is not Operational answers WRONG_STATE, and a second sweep at one injection point BUSY, is the model's choice
(DESIGN CHOICE, log entry 277). -/
def execSweepStart (mb : Nat) (s : State) : Out :=
  .next (s.request mb 0x0208 64 fun s =>
    let a := s.parAxis mb
    let code := s.par mb 4 4
    let sig := s.par mb 8 4
    if 256 ≤ a ∨ code < 0x18 ∨ 0x1A < code ∨ 2 < sig then s.fail mb 0x0003
    else if s.axSt a ≠ 4 then s.failSt mb a 0x0004
    else
      let t := s.orphFree a
      let len := sweepLen sig ((List.range 11).map fun k => s.par mb (20 + 4 * k) 4) (s.axPeriod a)
      match (List.range 32).find? fun c => !t.on H.SW_ON c && t.get H.SW_PAGE c == 0 with
      | none => s.fail mb 0x0207
      | some c =>
        if (s.swFor a code).isSome then s.fail mb 0x000E
        else if 248 < sweepPages len then s.fail mb 0x0206
        else match t.pageRun (sweepPages len) with
          | none => s.fail mb 0x0206
          | some p =>
            if s.descAlloc.isNone then s.fail mb 0x0300
            else if s.overload (t.sweepSet c a mb p len) then s.fail mb 0x0301
            else if s.lopSlot.isNone then s.fail mb 0x0009
            else t.lopStart mb 0x0208 c (fun s k => (s.sweepSet c a mb p len).put H.SW_HDL (s.get R.LOP_ID_HANDLE k) c)
              (toBytes 4 (pageOff p)))

end Sys2Proof.Machine
end

