-- ==== Sys2Proof/Machine/TrajReq.lean ====
section
/-! DEFINITION. Motion requests and what they start (R165 to R187, R191 to R193): moves, stops, tables, homing. -/

namespace Sys2Proof.Machine

/-! ### Start times (R165, R167) -/

/-- T_s of a request accepted at `ta` that may name a start cycle, and whether it is late (R165, R167). -/
def State.startAt (s : State) (a ta cyc : Nat) : Nat × Bool :=
  if cyc = 0 then (s.tsOf a ta, false)
  else
    let tc := s.bndTime cyc
    let lead := if s.isNirte a then s.tsOf a ta - ta else s.axPeriod a
    if ta + lead ≤ tc then (tc, false) else (s.tsOf a ta, true)

/-- A function accepted at T_a: it is shown, and takes hold at its T_s (R165, R170). -/
def State.accept (s : State) (m : Motion) : State := (s.setMotion { m with held := false }).showMotion m

/-- No plan is in force up to a time: a hold, or a plan that has ended by then (R169). -/
def State.idleAt (s : State) (a t : Nat) : Bool :=
  match s.motionAt a t with
  | some m => m.kind == 0 || (m.kind != 2 && m.kind != 3 && decide (m.te ≤ t))
  | none => true

/-- The axis turns while it holds, so a new function starts from actual values (R186). -/
def State.turning (s : State) (a : Nat) : Bool := decide ((s.get R.TRJ_SSV a : Int) < absI (s.geti H.AX_V a))

/-! ### MOVE (R172 to R175) -/

/-- The limits of a move under its overrides: V, A, D, J (R172). -/
def State.moveLimits (s : State) (a : Nat) (ovr : List Nat) : List Nat :=
  let l := [s.get R.TRJ_VMAX a, s.get R.TRJ_AMAX a, s.get R.TRJ_DMAX a, s.get R.TRJ_JMAX a]
  (List.range 4).map fun k =>
    let o := ovr.getD k 0
    if o = 0 then l.getD k 0 else clampN 1 (l.getD k 0) o

/-- The stop planned at enabling gives way to a move in the same period: the axis coasts at its velocity until then
(R43). -/
def State.coast (s : State) (a : Nat) : State :=
  { s with motions := s.motions.map fun (m : Motion) =>
      if m.axis = a ∧ m.kind = 6 then
        { m with pieces := (m.pieces.head?.map fun x =>
            let q := x.at x.start
            Piece.jerk x.start q.p q.v 0 0).toList }
      else m }

/-- The target of a move: absolute or relative, held inside the software limits, and no motion toward an accepted limit
(R172, R175, R176). -/
def State.moveTarget (s : State) (a mb ts : Nat) : Int :=
  let p := s.posDem a ts
  let base : Int := if bit (s.par mb 4 4) 0 then (if s.get R.TRJ_STAT_MODE a = 0 then p else s.geti R.TRJ_TARGET a) else 0
  let t := s.swlClamp a (sext 64 (trunc 64 (base + s.parI mb 8 8)))
  if (s.on R.TRJ_STAT_LIMP a && decide (p < t)) || (s.on R.TRJ_STAT_LIMN a && decide (t < p)) then p else t

/-- The result of MOVE (R280). -/
def moveResult (ts te : Nat) (tgt : Int) (late keep : Bool) : List Nat :=
  toBytes 8 ts ++ toBytes 8 te ++ toBytes 8 (trunc 64 tgt) ++ toBytes 4 (b2n late + 2 * b2n keep)

/-- The state that a waiting move or table start takes hold from: actual values where no plan was in force up to T_s and the axis
turned; else the old function at T_s (R165, R186). -/
def State.startState (s : State) (m : Motion) : Pva :=
  let old : State := { s with motions := s.motions.filter fun x => x.axis != m.axis || decide (x.ts < m.ts) }
  if (m.kind = 1 ∨ m.kind = 2) ∧ old.idleAt m.axis m.ts ∧ s.turning m.axis then
    let v := s.geti H.AX_V m.axis
    let one : Int := 4294967296
    { p := s.geti R.AXS_P_ACT m.axis * one + divRound (v * one * ((m.ts : Int) - s.get H.AX_FBB m.axis)) 1000000000,
      v := v * one, a := 0 }
  else old.demand m.axis m.ts

/-- A motion in force is a move with this target and these overrides (R175). -/
def sameMove (m : Motion) (tgt : Int) (ovr : List Nat) : Bool := m.kind == 1 && m.tgt == tgt && m.ovr == ovr

/-- The plan of a move from a state. -/
def Motion.planned (m : Motion) (x : Pva) : Motion :=
  m.withPlan (planMove (65536 * m.ts) x m.limits (m.tgt * 4294967296))

/-- MOVE at T_a (R172 to R176, R186, R90): the T_end it answers is that of the plan from the state which is now to be expected at
T_s, the actual values of R186 where they apply. -/
def State.takeMove (s : State) (a mb ta : Nat) : State :=
  let mode := s.get R.TRJ_STAT_MODE a
  if s.axSt a ≠ 4 then s.failSt mb a 0x0004
  else if (s.lopOf 0x0404 a).isSome then s.fail mb 0x0400
  else if mode = 4 ∨ mode = 5 then s.fail mb 0x0401
  else
    let st := s.startAt a ta (s.par mb 48 8)
    let s := s.when (s.on H.AX_FIRST a && ((s.lastMotion a).map (·.kind) == some 6)) fun s => s.coast a
    let tgt := s.moveTarget a mb st.1
    let ovr := (List.range 4).map fun k => s.par mb (16 + 8 * k) 8
    match (s.lastMotion a).filter fun m => mode == 1 && sameMove m tgt ovr with
    | some m => s.done mb (moveResult m.ts m.te tgt false true)
    | none =>
      let l := s.moveLimits a ovr
      let mid := min 65535 (s.par mb 56 4)
      let m0 : Motion := { axis := a, ts := st.1, kind := 1, tgt := tgt, v := l.getD 0 0, a := l.getD 1 0,
                           d := l.getD 2 0, j := l.getD 3 0, ovr := ovr, mid := mid }
      let m := m0.planned (s.startState m0)
      (s.accept m).done mb (moveResult st.1 m.te tgt st.2 false)

/-! ### STOP (R175) -/

/-- The limits of a stop of kind 0 under the plan in force: its own D and J, or the axis's for a table (R175). -/
def State.planLimits (s : State) (a : Nat) : Limits :=
  match s.lastMotion a with
  | some m => if m.kind = 1 ∨ m.kind = 6 then { m.limits with a := m.limits.d } else s.axLimits a
  | none => s.axLimits a

/-- STOP at T_a (R166, R175): homing that runs ends CANCELLED. An axis that has become Absent since refuses it. -/
def State.takeStop (s : State) (a mb ta : Nat) : State :=
  let mode := s.get R.TRJ_STAT_MODE a
  let kind := min 1 (s.par mb 4 4)
  let ans := fun (s : State) (ts te : Nat) => s.done mb (toBytes 8 ts ++ toBytes 8 te)
  if s.axSt a = 0 then s.failSt mb a 0x0004
  else if s.axSt a ≠ 4 ∨ mode = 0 then ans s 0 0
  else match s.lastMotion a with
    | none => ans s 0 0
    | some m =>
      if mode = 4 ∨ mode = 5 ∨ (m.kind = 6 ∧ kind = 0) then ans s m.ts m.te
      else
        let ts := s.tsOf a ta
        let q := if kind = 1 then s.stopMotion a ts 4 (s.quickLimits a) else s.stopMotion a ts 6 (s.planLimits a)
        let s := s.when ((s.lopOf 0x0404 a).isSome) fun s => s.homingEnd a 5 0
        ans (s.accept q) ts q.te

/-! ### Segment tables (R180 to R185) -/

/-- A segment of a request's page (R180): DUR 0 counts as 1, V_END is held to TRJ_VMAX. -/
def State.segAt (s : State) (a mb k : Nat) : Seg :=
  let o := 16 + 16 * k
  let vm : Int := s.get R.TRJ_VMAX a
  { axis := a, dur := max 1 (s.par mb o 3), flags := s.par mb (o + 3) 1, pEnd := s.parI mb (o + 4) 8,
    vEnd := clampI (-vm) vm (s.parI mb (o + 12) 4) }

/-- A segment becomes active at `t` from a state, with the identity and learnable run of the table's start (R181, R184); what
waits for a later time stays, and stays shown. -/
def State.segStart (s : State) (a t : Nat) (x : Pva) (g : Seg) (mid run : Nat := 0) (begun : Bool := true) : State :=
  let m := s.segFrom a t x g
  let last := !(s.motionsOf a).any fun y => decide (t < y.ts)
  let s : State := { s with segs := dropSeg a s.segs }
  let s := s.put R.TRJ_SEG_STAT_COUNT (s.segsOf a).length a
  if m.kind = 2 then
    let s := (s.insMotion { m with mid := mid, run := run, begun := begun }).when last fun s => s.showMotion m
    let s := ((s.put H.SEG_TK t a).put H.SEG_TE m.te a).put H.SEG_FL g.flags a
    ((s.puti H.SEG_PE m.tgt a).puti H.SEG_VE g.vEnd a).put R.TRJ_SEG_STAT_STATE 1 a
  else ((s.flushSegs a 5).insMotion m).when last fun s => s.showMotion m

/-- TABLE_START at T_a (R183): up to T_s the queue waits whole behind a function that ends where it begins, at T_s, where the
first segment starts. TRJ_SEG_STAT.STATE between T_a and T_s R183 leaves open: the model shows 1 from T_a (DESIGN CHOICE, log
entry 276). -/
def State.takeTable (s : State) (a mb ta : Nat) : State :=
  let mode := s.get R.TRJ_STAT_MODE a
  let st := s.get R.TRJ_SEG_STAT_STATE a
  if s.axSt a ≠ 4 then s.failSt mb a 0x0004
  else if (s.lopOf 0x0404 a).isSome then s.fail mb 0x0400
  else if mode = 4 ∨ mode = 5 then s.fail mb 0x0401
  else if st = 1 ∨ st = 2 then s.fail mb 0x0404
  else match s.segsOf a with
    | [] => s.fail mb 0x0403
    | g :: _ =>
      let c := s.startAt a ta (s.par mb 8 8)
      let x := s.demand a c.1
      let m : Motion := { axis := a, ts := c.1, kind := 2, tgt := s.swlClamp a g.pEnd, te := c.1, held := false,
                          mid := min 65535 (s.par mb 16 4), pieces := [.jerk (65536 * c.1) x.p x.v 0 0] }
      let s := (s.setMotion m).showMotion { m with te := c.1 + g.dur * s.axPeriod a }
      let s := ((s.put R.TRJ_SEG_DONE 0 a).put H.SEG_TS 0 a).put R.TRJ_SEG_STAT_STATE 1 a
      let s := (s.put H.SEG_TK c.1 a).put H.SEG_TE c.1 a
      s.done mb (toBytes 8 c.1 ++ toBytes 4 (b2n c.2))

/-- The function of an axis that waits for its T_s, oldest first. -/
def State.waitingMotion (s : State) (a : Nat) : Option Motion := (s.motionsOf a).find? fun m => !m.held

/-- SEG_APPEND at T_a (R166, R182, R185): the segments that fit are queued; a waiting table goes on at the request's own
T_s, unless a function already accepted will have flushed it by then. -/
def State.takeAppend (s : State) (a mb ta : Nat) : State :=
  let st := s.get R.TRJ_SEG_STAT_STATE a
  if s.axSt a = 0 then s.failSt mb a 0x0004
  else if st = 3 ∨ st = 5 then s.fail mb 0x0402
  else
    let free := 128 - (s.segsOf a).length
    let n := min free (clampN 1 64 (s.par mb 4 4))
    let none' := (s.segsOf a).isEmpty
    let new := (List.range n).map fun k => s.segAt a mb k
    let s : State := { s with segs := s.segs ++ new }
    let s := s.put R.TRJ_SEG_STAT_COUNT (s.segsOf a).length a
    let ts := s.tsOf a ta
    let s := match st, new with
      | 2, g :: _ =>
        if (s.waitingMotion a).any fun (m : Motion) => decide (m.ts ≤ ts) then s
        else s.segStart a ts { p := s.geti H.SEG_PE a * 4294967296, v := 0, a := 0 } g
      | 1, _ :: _ => s.when (none' && decide (s.get H.SEG_TE a < ts)) fun s => s.put H.SEG_TS ts a
      | _, _ => s
    s.done mb (toBytes 4 n)

/-- The state at the end of the running segment (R181). -/
def State.segEnd (s : State) (a : Nat) : Pva :=
  { p := s.geti H.SEG_PE a * 4294967296, v := s.geti H.SEG_VE a * 4294967296,
    a := (((s.motionsOf a).find? fun m => s.runningSeg m).map fun m => m.endState.a).getD 0 }

/-- The running segment has ended without a successor in time (R185): the axis holds, or stops; what came too late follows a
hold. TRJ_STAT.MODE of a table that waits in STATE 2 R185 leaves open: the model keeps 2, so that R169 and R186 do not take the
wait for a hold (DESIGN CHOICE, log entry 275). -/
def State.segUnder (s : State) (a late : Nat) (x : Pva) : State :=
  let s := s.incSat R.TRJ_SEG_STAT_UNDERRUNS a
  let t := s.get H.SEG_TE a
  let last := !(s.motionsOf a).any fun y => decide (t < y.ts)
  if x.v = 0 then
    let s := (s.insMotion { holdMotion a t x.p with kind := 2, begun := true }).put R.TRJ_SEG_STAT_STATE 2 a
    match s.segsOf a with
    | g :: _ => s.segStart a late { x with a := 0 } g
    | [] => s
  else
    let m := stopFrom a t 4 x (s.quickLimits a)
    ((s.insMotion m).when last fun s => s.showMotion m).put R.TRJ_SEG_STAT_STATE 3 a

/-- The table runs: a segment is active, whose start no longer waits for T_s. -/
def State.tableOn (s : State) (a : Nat) : Bool :=
  s.get R.TRJ_SEG_STAT_STATE a == 1 && !(s.motionsOf a).any fun m => !m.held && m.ts == s.get H.SEG_TK a

/-- Another function has taken the place of the running segment by its end. -/
def State.segLeft (s : State) (a : Nat) : Bool :=
  (s.motionsOf a).any fun m => decide (s.get H.SEG_TK a < m.ts) && decide (m.ts ≤ s.get H.SEG_TE a)

/-- SEGMENT_END: the running segment ends; its successor starts, or an underrun occurs (R185); where another function takes
over by then, nothing follows it. -/
def execSegmentEnd (a : Nat) (s : State) : Out :=
  .next (if 256 ≤ a ∨ s.tableOn a = false ∨ s.effectUp a (s.get H.SEG_TE a) = false then s
    else
      let late := s.get H.SEG_TS a
      let x := s.segEnd a
      let left := s.segLeft a
      let s := s.put R.TRJ_SEG_DONE (s.get R.TRJ_SEG_DONE a + 1) a
      let s := (s.when (bit (s.get H.SEG_FL a) 1) fun s => s.axEvt a).put H.SEG_TS 0 a
      if left then s
      else match s.segsOf a, late with
        | g :: _, 0 => s.segStart a (s.get H.SEG_TE a) x g
        | _, _ => s.segUnder a late x)

/-! ### Homing (R187, R191 to R193) -/

/-- Homing by stall at a creep speed below the least at which the port detects stalls (R324): 256 counts a full step. -/
def State.stallSpeed (s : State) (a : Nat) : Bool :=
  match s.dpOf a with
  | some p =>
    s.axKind a == 2 && s.get R.HM_CFG_METHOD a == 4 && decide (s.get R.HM_VCREEP a < 256 * s.get R.DRV_ST_SVMIN p)
  | none => false

/-- HOME_START at T_a (R187, R272). -/
def State.takeHome (s : State) (a mb ta : Nat) : State :=
  let mode := s.get R.TRJ_STAT_MODE a
  if s.axSt a ≠ 4 then s.failSt mb a 0x0004
  else if (s.lopOf 0x0404 a).isSome then s.fail mb 0x0400
  else if mode = 4 ∨ mode = 5 then s.fail mb 0x0401
  else if s.stallSpeed a then s.fail mb 0x0705
  else
    let ts := s.tsOf a ta
    s.lopStart mb 0x0404 a fun s k =>
      let s := if s.get R.HM_CFG_METHOD a = 0 then s.lopProgress k 1 1 else s
      let m := if s.get R.HM_CFG_METHOD a = 0 then s.homeStop a ts else (s.put R.HM_STAT_PHASE 1 a).homeRun a ts
      s.accept (if s.get R.HM_CFG_METHOD a = 0 then { m with kind := 6 } else { m with kind := 3 })

/-- A suspend, resume or cancel of homing at T_a (R193, R274). -/
def State.takeHomeLop (s : State) (a k mb ta : Nat) : State :=
  let ts := s.tsOf a ta
  let opc := s.get H.MB_OPC mb
  if s.get R.LOP_ID_STATUS k ≠ 1 ∧ s.get R.LOP_ID_STATUS k ≠ 4 then s.fail mb 0x000D
  else if opc = 0x0004 then
    if s.get R.LOP_ID_STATUS k = 1 then s.done mb
    else
      let s := (s.put H.HM_T0 (s.get H.HM_T0 a + (ts - s.get H.HM_SUSPT a)) a).put H.HM_SUSP 0 a
      (((((s.homeLatches a).put H.HM_HACC 0 a).homeGo a ts).put R.LOP_ID_STATUS 1 k).cause 0).done mb
  else if s.get R.LOP_ID_STATUS k = 4 then
    if opc = 0x0003 then s.done mb else (s.homingEnd a 5 0).done mb
  else
    let s := (s.quickStop a ts).put H.HM_NEXT (if opc = 0x0003 ∧ s.get H.HM_NEXT a ≠ 5 then 4 else 5) a
    (s.put H.IDX_ARM 0 a).wait mb opc k

/-- A cancel of a sweep at the boundary: it ends partial (R47, R273). -/
def State.takeSweepLop (s : State) (c k mb : Nat) : State :=
  if s.get R.LOP_ID_STATUS k ≠ 1 then s.fail mb 0x000D else (s.sweepEnd c 2 5).done mb

/-- A motion request, or a request to a long operation of the axis, at the axis's boundary `ta` (R165, R193). -/
def State.takeMotion (s : State) (a mb ta : Nat) : State :=
  match s.get H.MB_OPC mb with
  | 0x0400 => s.takeMove a mb ta
  | 0x0401 => s.takeStop a mb ta
  | 0x0402 => s.takeAppend a mb ta
  | 0x0403 => s.takeTable a mb ta
  | 0x0404 => s.takeHome a mb ta
  | _ =>
    match (List.range 32).find? fun k => s.get R.LOP_ID_HANDLE k == s.par mb 0 4 && s.get R.LOP_ID_HANDLE k != 0 with
    | none => s.fail mb 0x000A
    | some k =>
      if s.get R.LOP_OBJ_OPCODE k = 0x0208 then s.takeSweepLop (s.get R.LOP_OBJ_INDEX k) k mb
      else s.takeHomeLop a k mb ta

/-- A function planned anew from a state; homing keeps the pieces it has. -/
def State.replan (s : State) (m : Motion) : Motion :=
  let x := s.startState m
  if m.kind = 1 then m.planned x
  else if m.kind = 4 ∨ m.kind = 6 then
    let l := if m.kind = 4 then s.quickLimits m.axis
      else { v := 0, a := (m.d : Int) * 4294967296, d := (m.d : Int) * 4294967296, j := (m.j : Int) * 4294967296 }
    let q := planStop (65536 * m.ts) x l
    { m.withPlan q with tgt := roundUp q.pEnd 32 }
  else m

/-- A start that planned anew has its duration for learning set right (R90, R94). -/
def State.lrnRetime (s : State) (m : Motion) : State :=
  let a := m.axis
  let t := s.lrnTab a
  match s.lrnDur m with
  | some d =>
    if m.begun && s.get H.LRN_T a != 0 && s.lffFor a m.mid == some t && s.get H.LRN_T0 a == m.ts then
      let rec_ := s.on H.LRN_REC a && s.get H.LRN_RT0 a == m.ts
      let s := s.lrnTiming a t d
      s.when rec_ fun s => ((s.put H.LRN_REC (s.get H.LRN_NR a) a).put H.LRN_RD d a).put H.LRN_NR 0 a
    else s
  | none => s

/-- The queue is flushed where a function other than a segment takes hold (R175, R185): by a move whatever it holds, by a stop or
homing where a table is in force. -/
def State.holdFlush (s : State) (m : Motion) : State :=
  let a := m.axis
  let st := s.get R.TRJ_SEG_STAT_STATE a
  s.when (st == 1 || st == 2 || (m.kind == 1 && (st != 0 || !(s.segsOf a).isEmpty))) fun s => s.flushTable a 4 m.ts

/-- A function that waited takes hold (R165, R175, R186, R187); of a table, its first segment starts. -/
def State.takeHold (s : State) (m : Motion) : State :=
  let a := m.axis
  match s.runningSeg m, s.segsOf a with
  | true, g :: _ =>
    let run := ((lastRun (s.segsOf a) 0).map fun n => n * s.axPeriod a).getD 0
    let s' := s.segStart a m.ts (s.startState m) g m.mid run m.begun
    s'.lrnRetime { m with held := true, run := run }
  | _, _ =>
    let n := { s.replan m with held := true }
    let s : State := { s with motions := s.motions.map fun x => if x = m then n else x }
    let last := !(s.motionsOf a).any fun y => decide (m.ts < y.ts)
    let s := ((s.when last fun s => s.showMotion n).holdFlush m).lrnRetime n
    s.when ((s.lopOf 0x0404 a).isSome && s.get R.HM_STAT_PHASE a == 0 &&
      (m.kind == 3 || (m.kind == 6 && s.get R.HM_CFG_METHOD a == 0))) fun s => s.homeStart a m.ts

/-- MOTION_TAKES_HOLD: T_s of the waiting function has come. -/
def execMotionTakesHold (a : Nat) (s : State) : Out :=
  .next (match s.waitingMotion a with
    | none => s
    | some m => if s.effectUp a m.ts then s.takeHold m else s)

/-- The time from which an abort between boundaries changes the demand: the effect of the next boundary. -/
def State.nextEffect (s : State) (a : Nat) : Nat := s.tsOf a (s.get H.BND_T + s.baseNs)

/-- HOMING_TIMEOUT (R191). -/
def execHomingTimeout (a : Nat) (s : State) : Out :=
  .next (if a < 256 ∧ s.get R.HM_STAT_PHASE a ≠ 0 ∧ !s.on H.HM_SUSP a ∧
      s.timeUp (s.get H.HM_T0 a + 1000000 * s.get R.HM_TIMEOUT a) then s.homeAbort a (s.nextEffect a) 0x0407 else s)

/-- The stall condition has held in every sample through HM_DWELL (R192). -/
def State.stallDwelt (s : State) (a : Nat) : Bool :=
  bit (s.get H.HM_STALL a) 64 && decide (s.get H.HM_STALL a % 2 ^ 64 + 1000 * s.get R.HM_DWELL a ≤ s.now)

/-- HARD_STOP_STALL: the stall condition has lasted the dwell; the reference is P_ACT (R188, R192). -/
def execHardStopStall (a : Nat) (s : State) : Out :=
  .next (if a < 256 ∧ s.hardStop a ∧ s.get H.HM_NEXT a = 0 ∧ s.stallDwelt a then
      (s.homeRef a (s.geti R.AXS_P_ACT a) false).homeNext a (s.nextEffect a)
    else s)

/-! ### Motion requests on arrival -/

/-- A motion request waits for its axis's boundary T_a (R165); an Absent axis refuses it (R166). -/
def State.motionReq (s : State) (mb opc minLen : Nat) : State :=
  s.request mb opc minLen fun s =>
    let a := s.parAxis mb
    if 256 ≤ a then s.fail mb 0x0003
    else if s.axSt a = 0 && !s.configuring a then s.failSt mb a 0x0004
    else s.postReq mb opc a (.motion mb)

/-- MOVE (R172). -/
def execMove (mb : Nat) (s : State) : Out := .next (s.motionReq mb 0x0400 60)

/-- STOP (R175). -/
def execStop (mb : Nat) (s : State) : Out := .next (s.motionReq mb 0x0401 8)

/-- TABLE_START (R183). -/
def execTableStart (mb : Nat) (s : State) : Out := .next (s.motionReq mb 0x0403 20)

/-- HOME_START (R187). -/
def execHomeStart (mb : Nat) (s : State) : Out := .next (s.motionReq mb 0x0404 4)

/-- SEG_APPEND (R182): its length must hold the segments it counts. -/
def execSegAppend (mb : Nat) (s : State) : Out :=
  .next (s.motionReq mb 0x0402 (16 + 16 * clampN 1 64 (s.par mb 4 4)))

end Sys2Proof.Machine
end

