-- ==== Sys2Proof/Machine/CmpReq.lean ====
section
/-! DEFINITION. The commands of compare and capture (R194 to R203). -/

namespace Sys2Proof.Machine

/-- COMPARE_FIRE: the track crosses the unit's armed position at time `t` (R195 to R197). -/
def execCompareFire (u t : Nat) (s : State) : Out := .next (if u < 32 then (s.clockTo t 0).cmpCross u t else s)

/-- COMPARE_PULSE_END: the output pulse has lasted its width, after the last of the firings that extended it (R197); its end is at
that time. -/
def execComparePulseEnd (u : Nat) (s : State) : Out :=
  .next (if u < 32 ∧ s.on H.CMP_PON u = true ∧ s.timeUp (s.get H.CMP_TE u) then ((s.clockTo (s.get H.CMP_TE u) 0).put H.CMP_PON 0 u).cmpOut else s)

/-- CAPTURE_EDGE: an edge at the source of a capture unit (R200); a TRG pin that is an output is no source. -/
def execCaptureEdge (c t frac : Nat) (rising : Bool) (s : State) : Out :=
  .next (
    let src := s.get R.CMP_CAP_CTL_SRC c
    if 32 ≤ c ∨ src = 0x3F ∨ (src < 16 ∧ bit (s.get R.CMP_TRG_DIR) src) then s
    else (s.clockTo t frac).capEdge c t frac rising)

/-- A unit arms from the next boundary (R203). -/
def State.cmpArmW (s : State) (u : Nat) : State := if u < 32 then s.put H.CMP_PEND 1 u else s

/-- A unit disarms from the next boundary (R203). -/
def State.cmpDisarmW (s : State) (u : Nat) : State := if u < 32 then s.put H.CMP_PEND 2 u else s

/-- A capture unit arms from the next boundary (R203). -/
def State.capArmW (s : State) (c : Nat) : State := if c < 32 then s.put H.CAP_PEND 1 c else s

/-- The first entry of a unit taken out. -/
def dropCap (c : Nat) : List CapEntry → List CapEntry
  | [] => []
  | x :: t => if x.unit = c then t else x :: dropCap c t

/-- The oldest entry of a capture unit leaves its FIFO (R203). -/
def State.capNextW (s : State) (c : Nat) : State :=
  if c < 32 then ({ s with caps := dropCap c s.caps } : State).capView c else s

/-- CMP_ARM (R196, R203). -/
def execCmpArm (u : Nat) (s : State) : Out :=
  .next (if u < 32 then s.hostWord (R.CMP_ARM.base + R.CMP_ARM.stride * u) fun s => s.cmpArmW u else s)

/-- CMP_DISARM (R203). -/
def execCmpDisarm (u : Nat) (s : State) : Out :=
  .next (if u < 32 then s.hostWord (R.CMP_DISARM.base + R.CMP_DISARM.stride * u) fun s => s.cmpDisarmW u else s)

/-- CMP_CAP_ARM (R203). -/
def execCmpCapArm (c : Nat) (s : State) : Out :=
  .next (if c < 32 then s.hostWord (R.CMP_CAP_ARM.base + R.CMP_CAP_ARM.stride * c) fun s => s.capArmW c else s)

/-- CMP_CAP_NEXT (R203). -/
def execCmpCapNext (c : Nat) (s : State) : Out :=
  .next (if c < 32 then s.hostWord (R.CMP_CAP_NEXT.base + R.CMP_CAP_NEXT.stride * c) fun s => s.capNextW c else s)

/-- A word of DRV_ENC_CFG uses a TRG pin as an encoder input (R309, R340). -/
def encUses (w pin : Nat) : Bool :=
  bit w 20 && (bits w 0 4 == pin || bits w 4 4 == pin || (bit w 12 && bits w 8 4 == pin))

/-- DRV_ENC_CFG of a channel (R340). -/
def State.encWord (s : State) (c : Nat) : Nat := s.word R.drvFields (0xA8000 + 0x20 * c)

/-- A TRG pin is an encoder input, now or from the next boundary (R309). -/
def State.encPin (s : State) (pin : Nat) : Bool :=
  decide (pin < 16) && (List.range 8).any fun c =>
    encUses (s.encWord c) pin || (s.on H.ENC_NEWP c && encUses (s.get H.ENC_NEWW c) pin)

/-- CMP_CONFIG: the words of a compare unit, from the next boundary (R194, R203). -/
def execCmpConfig (mb : Nat) (s : State) : Out :=
  .next (s.request mb 0x0405 36 fun s =>
    let u := s.par mb 0 4
    if 32 ≤ u then s.fail mb 0x0003
    else if bit (s.par mb 4 4) 0 && s.encPin (bits (s.par mb 4 4) 8 6) then s.fail mb 0x0702
    else
      let s := s.each (List.range 8) fun s k => s.put H.CMP_NEWW (s.par mb (4 + 4 * k) 4) u k
      (s.put H.CMP_CFGP 1 u).wait mb 0x0405 u)

/-- CMP_LIST_WRITE: positions of the list memory, at once; entries beyond 8191 are dropped (R203). -/
def execCmpListWrite (mb : Nat) (s : State) : Out :=
  .next (s.request mb 0x0406 8 fun s =>
    let k := s.par mb 0 4
    let n := clampN 1 511 (s.par mb 4 4)
    if 8192 ≤ k then s.fail mb 0x0003
    else if s.get H.MB_LEN mb < 8 + 8 * n then s.fail mb 0x0002
    else
      let s := s.each (List.range (min n (8192 - k))) fun s i => s.store (cmpList (k + i)) 8 (s.par mb (8 + 8 * i) 8)
      s.done mb)

/-- CAP_CONFIG: the control word of a capture unit, from the next boundary (R200, R203). -/
def execCapConfig (mb : Nat) (s : State) : Out :=
  .next (s.request mb 0x0407 8 fun s =>
    let c := s.par mb 0 4
    if 32 ≤ c then s.fail mb 0x0003
    else if bit (s.par mb 4 4) 0 && s.encPin (bits (s.par mb 4 4) 4 6) then s.fail mb 0x0702
    else ((s.put H.CAP_NEWW (s.par mb 4 4) c).put H.CAP_CFGP 1 c).wait mb 0x0407 c)

/-- The configuration requests of compare and capture complete at the boundary that puts them in effect. -/
def State.cmpReqs (s : State) : State :=
  s.each (List.range 32) fun s u => (s.doneAll 0x0405 u).doneAll 0x0407 u

end Sys2Proof.Machine
end

