-- ==== Sys2Proof/Machine/MotorModel.lean ====
section
/-! DEFINITION. The quantities that the drive ports reckon with (R310, R314, R317): two-axis components, the flux integral, the
torque and the motor model. -/

namespace Sys2Proof.Machine

/-- The square root of 3. -/
def sqrt3 : Rat := mkRat 31950697969885030203 (2 ^ 64)

/-- 2π. -/
def twoPi : Rat := mkRat twoPi64 (2 ^ 64)

/-- The components of three phase quantities on the axes alpha (0) and beta (1), of the same amplitude (R310). -/
def alphaBeta (u v w : Rat) : Nat → Rat
  | 0 => (2 * u - v - w) / 3
  | _ => (v - w) / sqrt3

/-- A phase quantity from its components. -/
def ofAlphaBeta (al be : Rat) : Nat → Rat
  | 0 => al
  | 1 => (sqrt3 * be - al) / 2
  | _ => -(sqrt3 * be + al) / 2

/-- A value whose rounding is open: the integer below it, or the one above. -/
def openRound (up : Bool) (x : Rat) : Int := if up && x.den != 1 then x.floor + 1 else x.floor

/-- The mean voltage of a leg over an interval, as a part of the bus voltage (R310): `hi` its state, `dead` the part of the interval in
which both its gates are low, when the sign of its current decides (log entry 282). -/
def legPart (hi : Bool) (dead : Rat) (out : Bool) : Rat := (if hi then 1 - dead else 0) + (if out then 0 else dead)

/-- A component of the flux after an interval of `t` s, in mWb: the integral of v − R·i, V and Ω and A, with a high-pass whose corner is
1 Hz (R310). -/
def fluxAfter (psi v i r t : Rat) : Rat := psi + t * (1000 * (v - r * i) - twoPi * psi)

/-- The torque in N·m: flux in mWb, currents in A (R310). -/
def torqueNm (pp psiA psiB iA iB : Rat) : Rat := 3 / 2 * pp * (psiA * iB - psiB * iA) / 1000

/-- A current after an interval of `t` s by the motor model (R314): V, Ω, A, H. -/
def currentAfter (i v e r l t : Rat) : Rat := i + t * (v - r * i - e) / l

/-- The magnitude of the flux at a catch, |e| ÷ (2π f_e), in 2^(−32) mWb: `mag` in Q16.16 V and `fe` in Q16.16 Hz (R317). -/
def catchFlux (mag fe : Nat) : Int :=
  openRound (Config.catchUp mag fe) (1000 * 4294967296 * (mag : Rat) / (twoPi * (max 1 fe : Nat)))

end Sys2Proof.Machine
end

