-- ==== Sys2Proof/Machine/DriveOps.lean ====
section
/-! DEFINITION. The drive ports (R302 to R333): converters, bus and chopper, the three-phase evaluation, starts, the
step generators, and configuration that waits for a boundary. Times inside a port are counted in conversions, one every
100 ns (R304). -/

namespace Sys2Proof.Machine

/-- The axis bound to a drive port. -/
def State.axisOfDp (s : State) (p : Nat) : Option Nat := s.axisOf (0x10 + p)

/-- The axis bound to a drive port is in a state. -/
def State.dpAxisIn (s : State) (p : Nat) (sts : List Nat) : Bool :=
  match s.axisOfDp p with
  | some a => sts.contains (s.axSt a)
  | none => false

/-- The axis number in a report about a drive port; 0xFFFF none (R456). -/
def State.dpAxis (s : State) (p : Nat) : Nat := (s.axisOfDp p).getD 0xFFFF

/-- Every gate of a port goes off and BRK low, until R331 is met. -/
def State.gatesOff (s : State) (p : Nat) : State :=
  let s := (s.put R.DRV_STAT_HWOFF 1 p).put H.DP_EN 0 p
  let s := ((s.put H.DP_BRK 0 p).put H.DP_FR 0 p).put H.DP_EN0 0 p
  (s.put H.DP_LEG 0 p).rdyUp p

/-- A hardware turn-off: every gate off, BRK low, and PORT_HW once (R315, R328, R330 to R332). -/
def State.hwOff (s : State) (p : Nat) : State :=
  if s.on R.DRV_STAT_HWOFF p then s
  else
    let s := s.gatesOff p
    match s.axisOfDp p with
    | some a => s.post a (.hwReact 10)
    | none => s

/-- GFLT of a port is low: latched, counted, the gates off, reported (R330). -/
def State.gateFault (s : State) (p : Nat) : State :=
  if 8 ≤ p ∨ s.get R.DRV_CFG_MODE p = 0 ∨ s.drvOff then s
  else (((s.put R.DRV_STAT_GFLT 1 p).incSat R.DRV_CNT_GFLT p).hwOff p).report 0x13 p (s.dpAxis p) 0

/-! ### Conversions -/

/-- A calibration offset of a shunt (R316). -/
def State.shuntOfs (s : State) (p j : Nat) : Int :=
  sext 16 (if j < 2 then bits (s.get R.DRV_CAL_OFS01 p) (16 * j) 16 else bits (s.get R.DRV_CAL_OFS23 p) (16 * (j - 2)) 16)

/-- The current of a shunt from a conversion, offset taken off, Q1.15 of DRV_IFS. -/
def State.shunt (s : State) (vals : List Nat) (p j : Nat) : Int :=
  satI 16 (sext 16 (vals.getD (4 * p + j) 0) - s.shuntOfs p j)

/-- VBUS in Q16.16 V from a conversion, Q1.15 of DRV_VBUS_FS (R302). -/
def State.busVolt (s : State) (v p : Nat) : Nat :=
  (max 0 (divRound (sext 16 v * s.get R.DRV_VBUS_FS p) 32768)).toNat +
    (if s.on H.INJ_OVN p then s.get H.INJ_OVA p * 65536 / 10 else 0)

/-- A calibration of a port runs, at a step that drives its gates (R336). -/
def State.calDrives (s : State) (p : Nat) : Bool :=
  (match s.lopOf 0x0702 p with
   | some k => s.get R.LOP_ID_STATUS k == 1
   | none => false) && !bit (s.get H.DP_CALF p) 0 && s.get H.DP_CALF p != 0

/-- A three-phase port's gates follow what its start or calibration applies, and not the control (R317, R318, R336). -/
def State.starting (s : State) (p : Nat) : Bool :=
  s.get H.DP_START p == 1 || s.get H.DP_START p == 2 || (s.get H.DP_START p == 0 && s.calDrives p)

/-- The port drives its gates (R303, R305, R315, R319, R331). -/
def State.driving (s : State) (p : Nat) : Bool :=
  !s.drvOff && !s.on R.DRV_STAT_HWOFF p && s.get R.DRV_CFG_MODE p != 0 &&
    (s.get H.DP_START p == 3 || (s.get H.DP_START p == 4 && s.on H.DP_EN p) || (s.starting p && bit (s.get H.DP_SVEC p) 3))

/-- The vector that the legs of a three-phase port have taken. -/
def State.legsNow (s : State) (p : Nat) : Nat := if s.starting p then s.get H.DP_SVEC p % 8 else s.get H.DP_LEG p

/-- After a change of a leg both its gates are low for DRV_DEAD (R313). -/
def State.legDead (s : State) (p j : Nat) : Bool := decide (40 * s.get H.DP_LEGN p j < s.get R.DRV_DEAD p)

/-- The leg's shunt is readable: its low-side gate has been high for DRV_TSHUNT after the dead time (R313, R314). -/
def State.legReadable (s : State) (p j : Nat) : Bool :=
  s.driving p && !bit (s.legsNow p) (2 - j) && decide (s.get R.DRV_DEAD p + s.get R.DRV_TSHUNT p ≤ 40 * s.get H.DP_LEGN p j)

/-- The three-phase currents at an instant with at least two readable legs (R314). -/
def State.phaseRead (s : State) (vals : List Nat) (p : Nat) : State :=
  let r := (List.range 3).filter fun j => s.legReadable p j
  if r.length < 2 then s
  else
    let c := fun j => if r.contains j then s.shunt vals p j else 0
    let sum := c 0 + c 1 + c 2
    let s := s.each (List.range 3) fun s j => s.puti H.DP_IS (if r.contains j then s.shunt vals p j else satI 16 (-sum)) p j
    s.put H.DP_SMP 1 p

/-- The chopper follows the bus voltage (R325); what its fault needs is noted (R326). -/
def State.chopper (s : State) (p : Nat) (chs : Bool) : State :=
  let v := s.get R.DRV_VBUS p
  let s := s.put H.DP_CHSL (b2n chs) p
  if s.get R.DRV_CHOP_ON p = 0 then s.put R.DRV_STAT_CHOP 0 p
  else if !s.on R.DRV_STAT_CHOP p then
    if s.get R.DRV_CHOP_ON p ≤ v then
      ((((s.put R.DRV_STAT_CHOP 1 p).put H.DP_CHV v p).put H.DP_CHN 0 p)).put H.DP_CHS (b2n chs) p
    else s
  else if v ≤ s.get R.DRV_CHOP_OFF p then s.put R.DRV_STAT_CHOP 0 p
  else (s.incSat H.DP_CHN p).when chs fun s => s.put H.DP_CHS 1 p

/-- A conversion is taken into the offset averages of a port, up to 1024 (R316). -/
def State.ofsAdd (s : State) (vals : List Nat) (p : Nat) : State :=
  if 1024 ≤ s.get H.DP_CALN p then s
  else
    let s := s.each (List.range 4) fun s j =>
      s.puti H.DP_CALS (s.geti H.DP_CALS p j + sext 16 (vals.getD (4 * p + j) 0)) p j
    s.put H.DP_CALN (s.get H.DP_CALN p + 1) p

/-- `o` is the average of 1024 codes of shunt `j`: one of the two integers next to the mean (R316, log entry 251). -/
def State.ofsNear (s : State) (p j o : Nat) : Bool :=
  decide ((1024 * sext 16 o - s.geti H.DP_CALS p j).natAbs < 1024)

/-- The four averages of 1024 conversions, two a word (R316). -/
def State.ofsMean (s : State) (p v w : Nat) : Bool :=
  s.ofsNear p 0 v && s.ofsNear p 1 (v / 65536) && s.ofsNear p 2 w && s.ofsNear p 3 (w / 65536)

/-- The averages become the offsets of a port (R316). -/
def State.ofsTake (s : State) (p v w : Nat) : State := (s.put R.DRV_CAL_OFS01 v p).put R.DRV_CAL_OFS23 w p

/-- Active vector `k`, taken modulo 6 (R312), as legs U, V, W on bits 2, 1, 0. -/
def activeVec (k : Nat) : Nat := [4, 6, 2, 3, 1, 5].getD ((k + 5) % 6) 0

/-- The number of test pulses (R318): 24 in the inductance step of a calibration (R336). -/
def State.pulseN (s : State) (p : Nat) : Nat :=
  if s.on R.DRV_CFG_SSN p || s.get H.DP_START p == 0 then 24 else 12

/-- The vector of a test pulse `t` conversions after it began: an active vector, or in an intermediate direction the two adjacent ones for
equal times, the first of them first (R318, log entry 284). -/
def State.pulseVec (s : State) (p t : Nat) : Nat :=
  let n := s.pulseN p
  let k := 6 * (s.get H.DP_PLS p % n)
  activeVec (k / n + 1 + if k % n ≠ 0 ∧ 5 * s.get R.DRV_SS_TP p ≤ t then 1 else 0)

/-- Three times the square of |i|, in units of the converter: the latest readings (R318). -/
def State.currentSq (s : State) (p : Nat) : Nat :=
  let i := fun j => s.geti H.DP_IS p j
  (3 * i 0 * i 0 + (i 1 - i 2) * (i 1 - i 2)).toNat

/-- |i| has reached DRV_SS_IMAX (R318, R336). -/
def State.currentAtMax (s : State) (p : Nat) : Bool :=
  decide (3 * s.get R.DRV_SS_IMAX p * s.get R.DRV_SS_IMAX p ≤ s.currentSq p)

/-- V0 after a test pulse has lasted until |i| is below 1 % of full scale, or 200 µs (R318). -/
def State.pulseRested (s : State) (p : Nat) : Bool :=
  decide (2000 ≤ s.get H.DP_STN p) || decide (10000 * s.currentSq p < 3 * 32768 * 32768)

/-- A test pulse has lasted DRV_SS_TP, or its current has reached DRV_SS_IMAX (R318): `peak` the greatest it had. -/
def State.pulseOver (s : State) (p peak : Nat) : Bool :=
  !s.on H.DP_PPH p && (decide (10 * s.get R.DRV_SS_TP p ≤ s.get H.DP_STN p) || decide (s.get R.DRV_SS_IMAX p ≤ peak))

/-- V0 follows a test pulse. -/
def State.pulseRest (s : State) (p : Nat) : State := (s.put H.DP_PPH 1 p).put H.DP_STN 0 p

/-- What a start or a calibration applies now, with bit 3 where the gates are on: in a spin probe V0 for 2 µs three times, 20 µs apart
(R317); test pulses and V0 after each (R318); a direct current at 0° (R336), whose ripple is the model's choice (log entry 284). -/
def State.startVec (s : State) (p : Nat) : Nat :=
  let t := s.get H.DP_STN p
  if s.get H.DP_START p = 1 then (if t < 600 ∧ t % 200 < 20 then 8 else 0)
  else if s.get H.DP_START p = 0 ∧ bit (s.get H.DP_CALF p) 1 then 8 + (if s.currentAtMax p then 0 else activeVec 1)
  else 8 + (if s.on H.DP_PPH p then 0 else s.pulseVec p t)

/-- A conversion's time passes in a start or a calibration (R317, R318, R336). -/
def State.startTick (s : State) (p : Nat) : State :=
  if !s.starting p then s
  else
    let s := s.incSat H.DP_STN p
    let s := s.when (s.get H.DP_START p == 0 && bit (s.get H.DP_CALF p) 2 && !bit (s.get H.DP_CALF p) 1 &&
        s.pulseOver p (if s.currentAtMax p then 65535 else 0) && decide (s.get H.DP_PLS p < 24)) fun s =>
      (s.pulseRest p).put H.DP_PLS (s.get H.DP_PLS p + 1) p
    let s := s.when (s.on H.DP_PPH p && s.pulseRested p) fun s => (s.put H.DP_PPH 0 p).put H.DP_STN 0 p
    let v := s.startVec p
    let was := s.get H.DP_SVEC p
    let s := s.each ((List.range 3).filter fun j => bit (v ^^^ was) (2 - j) || bit (v ^^^ was) 3) fun s j => s.put H.DP_LEGN 0 p j
    s.put H.DP_SVEC v p

/-- One conversion at one port: bus voltage, chopper, undervoltage, overvoltage count and shunts (R304, R314, R325 to
R329). At a reference conversion VBUS keeps its value and the overvoltage count skips the instant (R450). -/
def State.convPort (s : State) (vals : List Nat) (chs : Nat) (ref : Bool) (p : Nat) : State :=
  let s := if ref then s
    else (s.put R.DRV_VBUS (s.busVolt (vals.getD (32 + p) 0) p) p).put H.INJ_OVN (s.get H.INJ_OVN p - 1) p
  if s.get R.DRV_CFG_MODE p = 0 then s
  else
    let v := s.get R.DRV_VBUS p
    let s := s.ofsAdd vals p
    let s := s.chopper p (bit chs p && !s.on H.INJ_CHS p)
    let s := s.put H.INJ_CHS (s.get H.INJ_CHS p - 1) p
    let s := (s.put R.DRV_STAT_UV (b2n (decide (v < s.get R.DRV_UV p))) p).rdyUp p
    let s := if ref then s else if s.get R.DRV_OV_TRIP p ≤ v then s.incSat H.DP_OVN p else s.put H.DP_OVN 0 p
    let s := s.each (List.range 3) fun s j => s.incSat H.DP_LEGN p j
    let i := fun j => trunc 16 (s.shunt vals p j)
    if s.get R.DRV_CFG_MODE p = 1 then
      ((s.put R.DRV_I23 (s.get R.DRV_I23 p % 65536 + 65536 * i 3) p).phaseRead vals p).startTick p
    else s.each (List.range 4) fun s j => (s.incSat H.DP_PWT p).put H.DP_IS (i j) p j

/-! ### Ellipses -/

/-- A measured sample ends the run of Ellipses (R315). -/
def State.sampled (s : State) (p : Nat) : State :=
  ((s.put R.DRV_STAT_ELL_CONSEC 0 p).incSat H.DP_MEAS p).put H.DP_ELLS 0 p

/-- An Ellipsis counts; from the fifth in a row on, torque or current is limited (R306, R314, R315). -/
def State.ellipsis (s : State) (p : Nat) : State :=
  let s := ((s.incSat R.DRV_CNT_ELL p).incSat R.DRV_STAT_ELL_CONSEC p).incSat H.DP_ELLP p
  let s := s.when (decide (5 ≤ s.get R.DRV_STAT_ELL_CONSEC p)) fun s => s.put R.DRV_STAT_TLIM_ELL 1 p
  (s.put H.DP_MEAS 0 p).put H.DP_ELLS 1 p

/-- The registers show the currents of the sample (R339). -/
def State.showCurrents (s : State) (p : Nat) : State :=
  let s := s.put R.DRV_I01 (s.get H.DP_I p 0 + 65536 * s.get H.DP_I p 1) p
  s.put R.DRV_I23 (s.get H.DP_I p 2 + 65536 * (s.get R.DRV_I23 p / 65536)) p

/-- Evaluations per base period (R307). -/
def State.evalN (s : State) (p : Nat) : Nat :=
  max 1 (s.baseNs * (50000 * 2 ^ min 2 (s.get R.DRV_CFG_EVAL p)) / 1000000000)

/-- PWM valleys per base period of a two-phase port (R307). -/
def State.pwmN (s : State) (p : Nat) : Nat := max 1 (s.baseNs * s.get R.DRV_FSW_MAX p / 1000000)

/-- The interval between evaluations, s (R307). -/
def State.evalSec (s : State) (p : Nat) : Rat := mkRat s.baseNs (1000000000 * s.evalN p)

/-- A current in A from a reading, Q1.15 of DRV_IFS. -/
def State.amps (s : State) (p : Nat) (i : Int) : Rat := mkRat (i * s.get R.DRV_IFS p) (2 ^ 31)

/-- A reading from a current in A, unrounded. -/
def State.ofAmps (s : State) (p : Nat) (x : Rat) : Rat := x * 2147483648 / (max 1 (s.get R.DRV_IFS p) : Nat)

/-- VBUS in V. -/
def State.volts (s : State) (p : Nat) : Rat := mkRat (s.get R.DRV_VBUS p) 65536

/-- DRV_RS in Ω. -/
def State.ohms (s : State) (p : Nat) : Rat := mkRat (s.get R.DRV_RS p) 65536

/-- DRV_LS in H. -/
def State.henries (s : State) (p : Nat) : Rat := mkRat (max 1 (s.get R.DRV_LS p)) 65536000000

/-- A component of the stator voltage, V: the vector applied since the previous evaluation, VBUS, and for a leg that changed at that
evaluation the dead time (R310). -/
def State.voltOf (s : State) (p k : Nat) : Rat :=
  let u := fun j =>
    let fresh := decide (100 * s.get H.DP_LEGN p j * s.evalN p ≤ s.baseNs)
    let dead : Rat := if fresh then min 1 (mkRat (5 * s.get R.DRV_DEAD p) 2000000000 / s.evalSec p) else 0
    s.volts p * legPart (bit (s.get H.DP_LEG p) (2 - j)) dead (decide (0 ≤ s.geti H.DP_I p j))
  alphaBeta (u 0) (u 1) (u 2) k

/-- A component of the phase currents of the last sample, A. -/
def State.currOf (s : State) (p k : Nat) : Rat :=
  let i := fun j => s.amps p (s.geti H.DP_I p j)
  alphaBeta (i 0) (i 1) (i 2) k

/-- A component of the stator flux, mWb. -/
def State.fluxOf (s : State) (p k : Nat) : Rat := mkRat (s.geti H.DP_PSI p k) 4294967296

/-- A component of the back-EMF from the estimator, V: the flux turning at its speed (R310, R314). -/
def State.emfOf (s : State) (p k : Nat) : Rat :=
  let w := twoPi * mkRat (s.geti H.DP_SPEED p * s.get R.DRV_PP p) 65536
  w * (if k = 0 then -s.fluxOf p 1 else s.fluxOf p 0) / 1000

/-- A predicted reading: the model's value, and at most a unit that its discrete form leaves open (R314). -/
def openReading (ops : List Int) (j : Nat) (x : Rat) : Int := satI 16 (x.floor + (Config.predictOpen ops j % 3 : Nat) - 1)

/-- The phase currents predicted from the last sample by the motor model (R314). -/
def State.predicted (s : State) (p j : Nat) : Int :=
  let t := s.evalSec p
  let i := fun k => currentAfter (s.currOf p k) (s.voltOf p k) (s.emfOf p k) (s.ohms p) (s.henries p) t
  openReading ([s.geti H.DP_I p 0, s.geti H.DP_I p 1, s.geti H.DP_I p 2, s.get H.DP_LEG p, s.get R.DRV_VBUS p]) j
    (s.ofAmps p (ofAlphaBeta (i 0) (i 1) j))

/-- The sample of an evaluation: the currents of the latest readable instant, or predicted ones (R314). -/
def State.takeSample (s : State) (p : Nat) : State :=
  let inj := s.on H.INJ_ELL p
  let s := s.put H.INJ_ELL (s.get H.INJ_ELL p - 1) p
  let s := if s.on H.DP_SMP p && !inj then
      (s.each (List.range 3) fun s j => s.put H.DP_I (s.get H.DP_IS p j) p j).sampled p
    else
      let s0 := s
      (s.each (List.range 3) fun s j => s.puti H.DP_I (s0.predicted p j) p j).ellipsis p
  (s.put H.DP_SMP 0 p).showCurrents p

/-! ### The estimator and direct torque control -/

/-- A component of the flux after this evaluation's interval, 2^(−32) mWb: the integral of R310, and less than a unit of DRV_FLUX_EST
that its discrete form leaves open (log entry 282). -/
def State.fluxNext (s : State) (p k : Nat) : Int :=
  let x := fluxAfter (s.fluxOf p k) (s.voltOf p k) (s.currOf p k) (s.ohms p) (s.evalSec p)
  let ops : List Int := [s.geti H.DP_PSI p 0, s.geti H.DP_PSI p 1, s.get H.DP_LEG p, s.get R.DRV_VBUS p, s.geti H.DP_I p 0,
    s.geti H.DP_I p 1, s.geti H.DP_I p 2]
  (x * 4294967296).floor + (Config.fluxOpen ops k % 131072 : Nat) - 65536

/-- The torque estimate, Q1.31 of DRV_TFS (R310). -/
def State.torqueOf (s : State) (p : Nat) : Int :=
  let x := torqueNm (s.get R.DRV_PP p) (s.fluxOf p 0) (s.fluxOf p 1) (s.currOf p 0) (s.currOf p 1)
  satI 32 (openRound (Config.torqueUp [s.geti H.DP_PSI p 0, s.geti H.DP_PSI p 1, s.geti H.DP_I p 0, s.geti H.DP_I p 1])
    (x * 140737488355328 / (max 1 (s.get R.DRV_TFS p) : Nat)))

/-- The estimator's angle moves; the port position of Local-PM, the unwrapped angle, moves with it (R308, R310). -/
def State.angleTo (s : State) (p ang : Nat) : State :=
  let d := sext 16 (trunc 16 ((ang : Int) - s.get R.DRV_ANGLE p))
  (s.put R.DRV_ANGLE ang p).put H.DP_POSU (trunc 32 ((s.get H.DP_POSU p : Int) + d)) p

/-- Flux, torque, angle and speed from the sample (R310). -/
def State.estimate (s : State) (p : Nat) : State :=
  let pa := s.fluxNext p 0
  let pb := s.fluxNext p 1
  let s := (s.puti H.DP_PSI pa p 0).puti H.DP_PSI pb p 1
  let s := s.put R.DRV_FLUX_EST (isqrt (pa * pa + pb * pb).toNat / 65536) p
  let s := s.puti R.DRV_TQE (s.torqueOf p) p
  let ang := vectorAngle pa pb % 65536
  let d := sext 16 (trunc 16 ((ang : Int) - s.get R.DRV_ANGLE p))
  let s := s.angleTo p ang
  s.puti H.DP_SPEED (satI 32 (divRound (d * s.evalN p * 1000000000) (s.baseNs * max 1 (s.get R.DRV_PP p)))) p

/-- The electrical speed is at most DRV_CATCH, Q16.16 Hz: 65 536 counts an electrical revolution (R317, R319). -/
def State.slow (s : State) (p : Nat) : Bool :=
  decide ((s.geti H.DP_SPEED p).natAbs * s.get R.DRV_PP p ≤ s.get R.DRV_CATCH p)

/-- The torque reference of an evaluation: as it landed, limited to 50 % (R315), motoring only (R327), or opposing the
rotation while braking (R319). -/
def State.trqRef (s : State) (p : Nat) : Int :=
  let v := s.geti H.DP_SPEED p
  if s.get H.DP_START p = 3 then
    let b : Int := min (s.get R.DRV_BRK_TRQ p) 0x7FFFFFFF
    if 0 < v then -b else b
  else
    let t := s.geti H.DP_REF p 0
    let t := if s.on R.DRV_STAT_TLIM_ELL p then clampI (-0x40000000) 0x40000000 t else t
    if s.on R.DRV_STAT_TLIM_CHOP p && (decide (t < 0 ∧ 0 < v) || decide (0 < t ∧ v < 0)) then 0 else t

/-- The torque comparator (R311): codes 0, 1 for +1, 2 for -1. -/
def cmpTorque (cur : Nat) (err band : Int) : Nat :=
  if band ≤ err then 1
  else if err ≤ -band then 2
  else if cur = 1 then (if err ≤ 0 then 0 else 1)
  else if cur = 2 then (if 0 ≤ err then 0 else 2)
  else 0

/-- The flux comparator (R311), the error scaled like its band. -/
def cmpFlux (cur : Nat) (err band : Int) : Nat := if band ≤ err then 1 else if err ≤ -band then 0 else cur

/-- The sector of a flux angle (R312). -/
def sectorOf (ang : Nat) : Nat := (6 * ang + 32768) / 65536 % 6 + 1

/-- The zero vector (R312). -/
def State.zeroVec (s : State) (p : Nat) : Nat :=
  let l := s.get H.DP_LEG p
  if s.on R.DRV_CFG_ZSEL p || s.on H.DP_ELLS p then 0
  else if popCount 3 (l ^^^ 7) < popCount 3 l then 7 else 0

/-- The vector the comparators and the sector select (R312). -/
def State.selected (s : State) (p : Nat) : Nat :=
  let k := sectorOf (s.get R.DRV_ANGLE p)
  let up := s.on H.DP_CFL p
  match s.get H.DP_CTQ p with
  | 1 => activeVec (if up then k + 1 else k + 2)
  | 2 => activeVec (if up then k + 5 else k + 4)
  | _ => s.zeroVec p

/-- How long a leg holds a new state, in conversions of 100 ns (R313). -/
def State.legHold (s : State) (p : Nat) : Nat := max (s.get R.DRV_TMIN_ON p) ((5000 + s.get R.DRV_FSW_MAX p - 1) / max 1 (s.get R.DRV_FSW_MAX p))

/-- The selected vector is applied unless a leg would change too soon (R313). -/
def State.applyVec (s : State) (p v : Nat) : State :=
  let l := s.get H.DP_LEG p
  let ch := (List.range 3).filter fun j => bit (l ^^^ v) (2 - j)
  if ch.any fun j => decide (s.get H.DP_LEGN p j < s.legHold p) then s
  else (s.each ch fun s j => s.put H.DP_LEGN 0 p j).put H.DP_LEG v p

/-- An evaluation: the sample, the estimator, the comparators and the vector (R307, R310 to R313). -/
def State.evaluate (s : State) (p : Nat) : State :=
  let s := ((s.incSat H.DP_EVK p).takeSample p).estimate p
  let fr : Int := if s.get H.DP_START p = 3 then 0 else s.geti H.DP_REF p 1
  let terr := s.trqRef p - s.geti R.DRV_TQE p
  let ref : Int := s.get R.DRV_FLUX_REF p
  let ferr := 2 * fr * ref - 2147483648 * (s.get R.DRV_FLUX_EST p : Int)
  let s := s.put H.DP_CTQ (cmpTorque (s.get H.DP_CTQ p) terr (s.get R.DRV_TBAND p)) p
  let s := s.put H.DP_CFL (cmpFlux (s.get H.DP_CFL p) ferr (s.get R.DRV_FBAND p * s.get R.DRV_FLUX_REF p : Nat)) p
  let s := s.applyVec p (s.selected p)
  s.when (s.get H.DP_START p == 3 && s.slow p) fun s => (s.stageAt p 2).put H.DP_PLS 0 p

/-! ### Starts -/

/-- The estimator starts at an angle and a magnitude, the position with it, and the port is ready (R308, R317, R318). -/
def State.seedFlux (s : State) (p ang : Nat) (mag : Int) : State :=
  let c := cosTurn ang 65536
  let n := cosTurn ((ang + 49152) % 65536) 65536
  let s := (s.puti H.DP_PSI (mag * c / 1073741824) p 0).puti H.DP_PSI (mag * n / 1073741824) p 1
  let s := (s.angleTo p ang).put R.DRV_FLUX_EST (mag / 65536).toNat p
  ((s.stageAt p 4).put H.DP_LEG 0 p).rdyUp p

/-- A start fails: repeated from the spin probe, three attempts in all (R320). -/
def State.startFails (s : State) (p : Nat) : State :=
  let n := s.get H.DP_TRY p + 1
  let s := ((s.put R.DRV_STAT_SS_ERR 1 p).put H.DP_TRY n p).put H.DP_PLS 0 p
  (s.stageAt p (if n < 3 then 1 else 0)).put H.DP_PLSF 0 p

/-- After the last test pulse the d-axis is the direction of the greatest peak; too little difference fails the start
(R318, R320). -/
def State.pulsesDone (s : State) (p : Nat) : State :=
  let mx := s.get H.DP_PKMAX p
  if 100 * (mx - s.get H.DP_PKMIN p) < 3 * mx ∨ mx = 0 then s.startFails p
  else s.seedFlux p (s.get H.DP_PKI p * 65536 / s.pulseN p) (65536 * (s.get R.DRV_FLUX_REF p : Int))

/-! ### Two-phase ports -/

/-- The current amplitude in use: the hold current at standstill, the reference or DRV_ST_IRUN else, within the limits (R305, R315, R321,
R327). -/
def State.iamp (s : State) (p : Nat) : Nat :=
  let r := s.get H.DP_REF p 2
  let r := if s.on H.DP_HOLD p then s.get R.DRV_ST_IHOLD p else if r = 0 then s.get R.DRV_ST_IRUN p else r
  let r := if s.on R.DRV_STAT_TLIM_ELL p then min r 0x40000000 else r
  if s.on R.DRV_STAT_TLIM_CHOP p && s.on H.DP_FALL p then min r (s.get R.DRV_ST_IHOLD p) else r

/-- The time of the next step of a two-phase port, in 2^(−16) ns: a microstep after the last one, but not before the landing (R321,
R334). -/
def State.dpStepAt (s : State) (p : Nat) : Nat :=
  max (65536 * s.get H.DP_TL p)
    (s.get H.DP_NS p + 65536000000000 * microCounts (s.get R.DRV_STAT_RES p) / (s.geti H.DP_RATE p).natAbs)

/-- At each full step, while |s| is at least DRV_ST_SVMIN, the port compares the load angle with DRV_ST_SLA (R324). Nothing that comes to
the port tells the angle: it is a free value, in degrees (log entry 285). -/
def State.loadAngle (s : State) (p : Nat) : State :=
  if (s.geti H.DP_RATE p).natAbs < 256 * s.get R.DRV_ST_SVMIN p then s.put H.DP_LAC 0 p
  else if s.get R.DRV_MSTEP p % 256 ≠ 0 then s
  else (if s.get R.DRV_ST_SLA p ≤ s.free 8 then s.incSat H.DP_LAC p else s.put H.DP_LAC 0 p).useFree

/-! ### Currents of a two-phase port (R321) -/

/-- The angle θ of a microstep index, in 1024ths of a turn: 45° at index 0, 256 counts and 90° a full step (R321). -/
def State.theta (s : State) (p : Nat) : Nat := (128 + s.get R.DRV_MSTEP p) % 1024

/-- The set points IAMP × cos θ and IAMP × sin θ, Q1.31 of DRV_IFS (R321). -/
def State.setPoints (s : State) (p : Nat) : State :=
  let c := cosTurn (s.theta p) 1024
  let n := cosTurn ((s.theta p + 768) % 1024) 1024
  (s.puti H.DP_SETP (s.iamp p * c / 1073741824) p 0).puti H.DP_SETP (s.iamp p * n / 1073741824) p 1

/-- The voltage of a phase as a part of VBUS, 2^(−15), from the duties of its two legs. -/
def State.phaseVolt (s : State) (p k : Nat) : Int := ((s.get H.DP_DUTY p (2 * k) : Int) - s.get H.DP_DUTY p (2 * k + 1)) / 2

/-- A leg's shunt is readable at the PWM valley: its low-side gate has been high there for DRV_TSHUNT after the dead time. The valley lies
in the middle of the time that the centre-aligned duty leaves the low side (R307, R314). -/
def State.valleyLeg (s : State) (p j : Nat) : Bool :=
  decide (327680 * (s.get R.DRV_DEAD p + s.get R.DRV_TSHUNT p) * s.pwmN p ≤ (65536 - s.get H.DP_DUTY p j) * s.baseNs)

/-- Each phase has a readable leg (R314). -/
def State.valleyRead (s : State) (p : Nat) : Bool :=
  (s.valleyLeg p 0 || s.valleyLeg p 1) && (s.valleyLeg p 2 || s.valleyLeg p 3)

/-- The current of a phase from its readable leg; that of leg 2 flows the other way. -/
def State.phaseCur (s : State) (p k : Nat) : Int :=
  if s.valleyLeg p (2 * k) then s.geti H.DP_IS p (2 * k) else satI 16 (-s.geti H.DP_IS p (2 * k + 1))

/-- A phase current predicted from the last sample, with no back-EMF (R314). -/
def State.predictedTwo (s : State) (p k : Nat) : Int :=
  let t := mkRat s.baseNs (1000000000 * s.pwmN p)
  let i := s.geti H.DP_I p k
  let v := s.volts p * mkRat (s.phaseVolt p k) 32768
  openReading [i, s.phaseVolt p k, s.get R.DRV_VBUS p] k
    (s.ofAmps p (currentAfter (s.amps p i) v 0 (s.ohms p) (s.henries p) t))

/-- A phase-current loop: proportional and integral, its gains open, its output the duties of the phase's two legs about one half (R321,
log entry 286). -/
def State.currentLoop (s : State) (p k : Nat) : State :=
  let err := s.geti H.DP_SETP p k - 65536 * s.geti H.DP_I p k
  let s := s.puti H.DP_INT (satI 64 (s.geti H.DP_INT p k + err)) p k
  let u := clampI (-32768) 32768 ((Config.loopP * err + Config.loopI * s.geti H.DP_INT p k) / 2147483648)
  (s.put H.DP_DUTY (32768 + u).toNat p (2 * k)).put H.DP_DUTY (32768 - u).toNat p (2 * k + 1)

/-- A microstep of a two-phase port, at its time (R321, R322, R334), with the resolution change that is due but for the step of a stall
(R324); the run current returns. -/
def State.microStep (s : State) (p : Nat) : State :=
  let r := s.geti H.DP_RATE p
  if r = 0 ∨ !s.on H.DP_EN p ∨ s.get H.DP_START p ≠ 4 ∨ !s.timeUp (s.dpStepAt p / 65536) then s
  else
    let s := s.put H.DP_NS (s.dpStepAt p) p
    let s := if s.on H.DP_STNOW p then s.put H.DP_STNOW 0 p else s.resChange p
    let c : Int := microCounts (s.get R.DRV_STAT_RES p)
    let s := s.put R.DRV_MSTEP (trunc 32 ((s.get R.DRV_MSTEP p : Int) + (if r < 0 then -c else c))) p
    let s := s.put H.DP_HOLD 0 p
    (s.put H.DP_IAMP (s.iamp p) p).loadAngle p

/-- A step of a pulse-train port at its time: DIR follows the sign of the rate, and the count goes on (R334, R335). -/
def State.pulseStep (s : State) (q : Nat) : State :=
  let r := s.geti R.PTG_RATE q
  if r = 0 ∨ !bit (s.get H.PT_REF q 3) 0 ∨ !s.timeUp (s.ptStepAt q / 65536) then s
  else
    let neg := decide (r < 0)
    let s := s.put H.PT_NS (s.ptStepAt q) q
    let s := (s.put R.PTG_STAT_DIR (b2n neg) q).put H.PT_DIRP 0 q
    s.puti R.PTG_COUNT (s.geti R.PTG_COUNT q + (if neg then -1 else 1)) q

/-- A boundary of a local axis: a step generator with no landing in the period that ends stops (R334). -/
def State.portPeriod (s : State) (a : Nat) : State :=
  match s.dpOf a with
  | some p =>
    (s.when (!s.on H.DP_LANDED p) fun s => s.rateTo p 0).put H.DP_LANDED 0 p
  | none =>
    match s.ptOf a with
    | some p => (s.when (!s.on H.PT_LANDED p) fun s => s.put R.PTG_RATE 0 p).put H.PT_LANDED 0 p
    | none => s

/-! ### Configuration -/

/-- The structural bits of a drive port's word `k` (R339). -/
def drvStruct (k : Nat) : Nat := if k = 0 then 0xF00F else if k = 8 then 0xFF else 0

/-- A port whose axis is Enabling, Operational, Stopping or Faulted (R337). -/
def State.portActive (s : State) (bind : Nat) : Bool :=
  match s.axisOf bind with
  | some a => decide (3 ≤ s.axSt a) && decide (s.axSt a ≤ 6)
  | none => false

/-- DRV_CFG with its reserved codes read (R339). -/
def drvWord0 (w : Nat) : Nat :=
  let m := if w % 4 = 3 then 0 else w % 4
  let e := if bits w 2 2 = 3 then 2 else bits w 2 2
  m + 4 * e + bits w 4 28 * 16

/-- A word written to a drive port would change a structural field. -/
def State.drvChanges (s : State) (p k w : Nat) : Bool :=
  let v := s.word drvCfg (0xA0000 + 0x1000 * p + 4 * k)
  let w := if k = 0 then drvWord0 w else if k = 8 then clampN 1 64 (w % 256) else w
  (v &&& drvStruct k) != (w &&& drvStruct k)

/-- A port changes its mode: its stage is down, its gates, CHOP and BRK low (R302, R316). -/
def State.portOff (s : State) (p : Nat) : State :=
  let s := ((s.put R.DRV_STAT_CAL_OK 0 p).put H.DP_LEG 0 p).put R.DRV_STAT_CHOP 0 p
  ((s.put H.DP_EN 0 p).put H.DP_BRK 0 p).stageAt p 0

/-- The waiting words of a drive port take effect; a mode of 1 or 2 starts an offset calibration (R316, R337). -/
def State.drvApply (s : State) (p : Nat) : State :=
  let m := s.get H.DP_NEWM p
  if m = 0 then s
  else
    let was := s.get R.DRV_CFG_MODE p
    let s := s.each (bitsOn 32 m) fun s k =>
      (s.putWord drvCfg (0xA0000 + 0x1000 * p + 4 * k) (s.get H.DP_NEWW p k)).confWrote (ovlTgt 4 p (4 * k))
    let s := ((s.drvFix p).put H.DP_NEWM 0 p).motoringOnly
    let s := s.when (s.get R.DRV_CFG_MODE p != was) fun s =>
      let s := ((s.portOff p).ofsStart p).rdyUp p
      match s.axisOfDp p with
      | some a =>
        let s := ((s.put R.AXS_STATUS_KIND (s.kindOf (0x10 + p)) a).recFix a).relink a
        s.post a .nodeLost
      | none => s
    s.each (s.waits.filter fun w => w.opc == 0x0700 && w.key == p) fun s w => s.done w.mb (toBytes 4 w.arg)

/-- The fields of a pulse-train port's configuration (R341). -/
def ptCfg : List Fld :=
  [R.PTG_CFG_STEP_POL, R.PTG_CFG_DIR_POL, R.PTG_CFG_ENC, R.PTG_WIDTH, R.PTG_LOW, R.PTG_DSETUP, R.PTG_DHOLD]

/-- The fields of an encoder channel's configuration (R340). -/
def encCfg : List Fld :=
  [R.DRV_ENC_CFG_A, R.DRV_ENC_CFG_B, R.DRV_ENC_CFG_Z, R.DRV_ENC_CFG_ZEN, R.DRV_ENC_CFG_INV, R.DRV_ENC_CFG_FILT,
   R.DRV_ENC_CFG_EN]

/-- Waiting port, pulse-train and encoder configuration takes effect at the boundary, and its requests complete (R335,
R337); the evaluations of the base period begin (R307). -/
def State.portCfgs (s : State) : State :=
  let s := s.each (List.range 8) fun s p => (s.drvApply p).put H.DP_EVK 0 p
  let s := s.each (List.range 16) fun s q =>
    s.when (s.on H.PT_NEWP q) fun s =>
      let ws := (List.range 3).map fun k => s.get H.PT_NEWW q k
      let s := ((s.putWords ptCfg (0xB0000 + 0x40 * q) ws).clampAll ptCfg q).put H.PT_NEWP 0 q
      let s := s.put R.PTG_LOW (max (s.get R.PTG_LOW q) (40 - s.get R.PTG_WIDTH q)) q
      s.dirty.doneAll 0x0701 q
  s.each (List.range 8) fun s c =>
    s.when (s.on H.ENC_NEWP c) fun s =>
      let s := (s.putWord encCfg (0xA8000 + 0x20 * c) (s.get H.ENC_NEWW c)).put H.ENC_NEWP 0 c
      s.dirty.doneAll 0x0704 c

/-! ### Pins (R302, R303, R307, R313, R335) -/

/-- The gates of a leg, high side and low side: both low for the dead time after a change. -/
def State.legPins (s : State) (p j : Nat) : Bool × Bool :=
  if s.get R.DRV_CFG_MODE p = 1 then
    let h := bit (s.legsNow p) (2 - j)
    if 3 ≤ j ∨ s.legDead p j then (false, false) else (h, !h)
  else
    let per := s.baseNs / s.pwmN p
    let d := s.get H.DP_DUTY p j * per / 65536
    let off := (2 * (100 * s.get H.DP_PWT p) - (per : Int)).natAbs
    (decide (off + 5 * s.get R.DRV_DEAD p ≤ d), decide (d ≤ off))

/-- Nothing drives the pins of the ports: DRV is off or in reset, or EXTEST is in force (R303, R481, R484). -/
def State.pinsHeld (s : State) : Bool := s.drvOff || (s.on R.SEC_DBG_EXTEST && s.get H.DBG_INS == 1)

/-- GH0 to GH3 and GL0 to GL3 of a drive port (R302): a gate that is high turns its switch on. Held low while the port drives nothing. -/
def State.gatePins (s : State) (p : Nat) : Nat × Nat :=
  if !s.driving p || s.pinsHeld then (0, 0)
  else (List.range 4).foldl (fun m j =>
    (m.1 + b2n (s.legPins p j).1 * 2 ^ j, m.2 + b2n (s.legPins p j).2 * 2 ^ j)) (0, 0)

/-- The CHOP and BRK pins of a drive port (R302, R303). -/
def State.chopPin (s : State) (p : Nat) : Bool := !s.pinsHeld && s.on R.DRV_STAT_CHOP p

/-- BRK: high releases the brake. -/
def State.brkPin (s : State) (p : Nat) : Bool := !s.pinsHeld && s.on H.DP_BRK p

/-- STEP of a pulse-train port: active for PTG_WIDTH from a step on, at the level that STEP_POL gives (R303, R335). -/
def State.stepPin (s : State) (q : Nat) : Bool :=
  !s.pinsHeld && (s.on R.PTG_CFG_STEP_POL q !=
    (bit (s.get H.PT_REF q 3) 0 && s.on H.PT_NS q && decide (65536 * s.now < s.get H.PT_NS q + 163840 * s.get R.PTG_WIDTH q)))

/-- DIR of a pulse-train port: of the step to come from the time the change is due on, high for negative steps where DIR_POL is 1 and for
positive ones where it is 0 (R303, R335). -/
def State.dirPin (s : State) (q : Nat) : Bool :=
  let turned := s.on H.PT_DIRP q && decide (s.get H.PT_DT q ≤ 65536 * s.now)
  !s.pinsHeld && ((s.on R.PTG_STAT_DIR q != turned) == s.on R.PTG_CFG_DIR_POL q)

end Sys2Proof.Machine
end

