-- ==== Sys2Proof/Machine/Drive.lean ====
section
/-! DEFINITION. The commands of the drive ports, encoder channels and pulse-train ports (R302 to R341). -/

namespace Sys2Proof.Machine

/-- CONVERSION: the 48 converter readings, and the levels of the CHS pins (R304). Every 5000th, which is every 0.5 ms, is a reference
conversion on the VBUS and ANA channels, whose registers then keep their values (R450); that it is one instant for all of them is the
model's choice, log entry 254. Nothing converts while DRV is off or in reset (R303). -/
def execConversion (vals : List Nat) (chs : Nat) (s : State) : Out :=
  .next (if s.drvOff then s else
    let n := s.get H.CV_REFN
    let ref := n == 4999
    let s := s.put H.CV_REFN (if ref then 0 else n + 1)
    let s := s.each (List.range 8) fun s p => s.convPort vals chs ref p
    if ref then s else s.each (List.range 8) fun s k => s.put R.DRV_ANA (vals.getD (40 + k) 0) k)

/-- OV_TRIP: VBUS at DRV_OV_TRIP or above in two consecutive conversions (R328, R332). -/
def execOvTrip (p : Nat) (s : State) : Out :=
  .next (if 8 ≤ p ∨ s.get R.DRV_CFG_MODE p = 0 ∨ s.get H.DP_OVN p < 2 then s
    else ((((s.put H.DP_OVN 0 p).put R.DRV_STAT_OVTRIP 1 p).incSat R.DRV_CNT_OV p).hwOff p).report 0x14 p (s.dpAxis p) 0)

/-- CHOPPER_FAULT: CHOP high for DRV_CHS_T, no CHS, and the bus risen; the bus group runs motoring only (R326, R327). -/
def execChopperFault (p : Nat) (s : State) : Out :=
  .next (if 8 ≤ p ∨ !s.on R.DRV_STAT_CHOP p ∨ s.on H.DP_CHS p ∨ s.get H.DP_CHN p < 10 * s.get R.DRV_CHS_T p ∨
        s.get R.DRV_VBUS p < s.get H.DP_CHV p + s.get R.DRV_CHOP_RISE p ∨ s.on R.DRV_STAT_CHOPF p then s
    else
      let s := ((s.put R.DRV_STAT_CHOPF 1 p).incSat R.DRV_CNT_CHOPF p).report 0x15 p (s.dpAxis p) 0
      s.motoringOnly)

/-- GATE_DRIVER_FAULT: GFLT low for 100 ns (R330). -/
def execGateDriverFault (p : Nat) (s : State) : Out :=
  .next ((s.when (decide (p < 8)) fun s => s.put H.GFLT_L 1 p).gateFault p)

/-- DTC_EVALUATION of a three-phase port whose gates run, as often in a base period as R307 says (R307, R310 to R315, R319). -/
def execDtcEvaluation (p : Nat) (s : State) : Out :=
  .next (if 8 ≤ p ∨ s.get R.DRV_CFG_MODE p ≠ 1 ∨ s.on R.DRV_STAT_HWOFF p then s
    else if s.get H.DP_START p = 3 ∨ (s.get H.DP_START p = 4 ∧ s.on H.DP_EN p) then
      (if s.get H.DP_EVK p < s.evalN p then s.evaluate p else s)
    else s.put H.DP_LEG 0 p)

/-- ELLIPSIS_TORQUE_LIMIT: five consecutive Ellipses (R315). -/
def execEllipsisTorqueLimit (p : Nat) (s : State) : Out :=
  .next (if p < 8 ∧ 5 ≤ s.get R.DRV_STAT_ELL_CONSEC p then
      (s.put R.DRV_STAT_TLIM_ELL 1 p).report 0x16 p (s.dpAxis p) 0
    else s)

/-- ELLIPSIS_LIMIT_END: sixteen consecutive measured samples (R315). -/
def execEllipsisLimitEnd (p : Nat) (s : State) : Out :=
  .next (if p < 8 ∧ 16 ≤ s.get H.DP_MEAS p then s.put R.DRV_STAT_TLIM_ELL 0 p else s)

/-- ELLIPSIS_HWOFF: eight consecutive Ellipses (R315). -/
def execEllipsisHwoff (p : Nat) (s : State) : Out :=
  .next (if p < 8 ∧ 8 ≤ s.get R.DRV_STAT_ELL_CONSEC p then (s.hwOff p).report 0x16 p (s.dpAxis p) 0 else s)

/-- PWM_VALLEY: the current sample of a two-phase port, measured where each phase has a readable leg, and its phase-current loops (R314,
R315, R321). -/
def execPwmValley (p : Nat) (s : State) : Out :=
  .next (if 8 ≤ p ∨ s.get R.DRV_CFG_MODE p ≠ 2 ∨ s.get H.DP_START p ≠ 4 ∨ !s.on H.DP_EN p ∨ s.pwmN p ≤ s.get H.DP_EVK p then s
    else
      let s := (s.incSat H.DP_EVK p).put H.DP_PWT 0 p
      let read := s.valleyRead p && !s.on H.INJ_ELL p
      let s := s.put H.INJ_ELL (s.get H.INJ_ELL p - 1) p
      let s :=
        if read then
          let i := fun j => s.get H.DP_IS p j
          let s := (s.puti H.DP_I (s.phaseCur p 0) p 0).puti H.DP_I (s.phaseCur p 1) p 1
          ((s.put R.DRV_I01 (i 0 + 65536 * i 1) p).put R.DRV_I23 (i 2 + 65536 * i 3) p).sampled p
        else
          let a := s.predictedTwo p 0
          let b := s.predictedTwo p 1
          let w := fun i => trunc 16 i + 65536 * trunc 16 (satI 16 (-i))
          ((((s.puti H.DP_I a p 0).puti H.DP_I b p 1).put R.DRV_I01 (w a) p).put R.DRV_I23 (w b) p).ellipsis p
      let s := (s.put H.DP_IAMP (s.iamp p) p).setPoints p
      (s.currentLoop p 0).currentLoop p 1)

/-- STEP_ISSUE: the next step of a two-phase drive port or of a pulse-train port (R321, R334, R335). -/
def execStepIssue (dp : Bool) (q : Nat) (s : State) : Out :=
  .next (if dp then (if q < 8 ∧ s.get R.DRV_CFG_MODE q = 2 then s.microStep q else s)
    else if q < 16 then s.pulseStep q else s)

/-- STEPPER_HOLD_CURRENT: standstill in Operational for DRV_ST_HOLD_T (R321). -/
def execStepperHoldCurrent (p : Nat) (s : State) : Out :=
  .next (if p < 8 ∧ s.get R.DRV_CFG_MODE p = 2 ∧ s.geti H.DP_RATE p = 0 ∧ s.dpAxisIn p [4] ∧
        s.timeUp (s.get H.DP_NS p / 65536 + 1000000 * s.get R.DRV_ST_HOLD_T p) then
      let s := s.put H.DP_HOLD 1 p
      s.put H.DP_IAMP (s.iamp p) p
    else s)

/-- STALL: load angles of DRV_ST_SLA or more over DRV_ST_SN consecutive full steps, at a speed of at least DRV_ST_SVMIN. It ends the
hard-stop phase of a homing, and is fault class STALL elsewhere, where a homing in progress ends FAILED (R191, R192, R324). -/
def execStall (p : Nat) (s : State) : Out :=
  .next (if 8 ≤ p ∨ s.get R.DRV_CFG_MODE p ≠ 2 ∨ (s.geti H.DP_RATE p).natAbs < 256 * s.get R.DRV_ST_SVMIN p ∨
        s.get H.DP_LAC p < s.get R.DRV_ST_SN p then s
    else
      let s := ((s.put R.DRV_STAT_STALL 1 p).put H.DP_STNOW 1 p).put H.DP_LAC 0 p
      match s.axisOfDp p with
      | none => s
      | some a =>
        if s.hardStop a ∧ s.get H.HM_NEXT a = 0 then
          (s.homeRef a (s.geti R.AXS_P_ACT a) false).homeNext a (s.nextEffect a)
        else
          let s := s.put R.DRV_STAT_POS_UNC 1 p
          (s.when (s.get R.HM_STAT_PHASE a != 0) fun s => s.homingEnd a 3 0x0408).post a (.fault 11))

/-- The offset calibration of a port is complete: it is online, if it was not (R316). -/
def State.calOk (s : State) (p : Nat) : State :=
  if s.on R.DRV_STAT_CAL_OK p then s
  else
    let s := (s.put R.DRV_STAT_CAL_OK 1 p).rdyUp p
    match s.axisOfDp p with
    | some a => s.post a .nodeOnline
    | none => s

/-- OFFSET_CALIBRATION_COMPLETE: 1024 conversions are averaged, and the port is online (R316). The averages come with the
command; numbers that are not the averages of what was converted do nothing. -/
def execOffsetCalibrationComplete (p o0 o1 o2 o3 : Nat) (s : State) : Out :=
  let v := o0 % 65536 + 65536 * (o1 % 65536)
  let w := o2 % 65536 + 65536 * (o3 % 65536)
  .next (if 8 ≤ p ∨ s.get R.DRV_CFG_MODE p = 0 ∨ s.on R.DRV_STAT_CAL_OK p ∨ s.get H.DP_CALN p < 1024 ∨ !s.ofsMean p v w then s
    else (s.ofsTake p v w).calOk p)

/-- SPIN_PROBE: after its three pulses of V0, the last of which ends 42 µs after the first began, the electrical speed (Q16.16 Hz), the
angle and the magnitude (Q16.16 V) of the back-EMF vector; a catch, a braking or a saturation start follows (R317, R319). -/
def execSpinProbe (p : Nat) (fe : Int) (ang mag : Nat) (s : State) : Out :=
  .next (if 8 ≤ p ∨ s.get R.DRV_CFG_MODE p ≠ 1 ∨ s.get H.DP_START p ≠ 1 ∨ !s.dpAxisIn p [3] ∨ s.get H.DP_STN p < 420 then s
    else
      let s := s.puti H.DP_SPEED (satI 32 (divRound fe (max 1 (s.get R.DRV_PP p)))) p
      let s := (s.put H.DP_PLS 0 p).put H.DP_PLSF 0 p
      if fe.natAbs ≤ s.get R.DRV_CATCH p then s.stageAt p 2
      else if decide (fe < 0) == s.on R.DRV_CFG_CATCHDIR p then
        s.seedFlux p ((ang + 49152) % 65536) (catchFlux mag fe.natAbs)
      else s.stageAt p 3)

/-- SATURATION_TEST_PULSE: a test pulse ends after DRV_SS_TP or at DRV_SS_IMAX with its peak current, in the units of the converter, or could
not be read; V0 follows (R318, R320, R332). -/
def execSaturationTestPulse (p peak : Nat) (readable : Bool) (s : State) : Out :=
  .next (if 8 ≤ p ∨ s.get R.DRV_CFG_MODE p ≠ 1 ∨ s.get H.DP_START p ≠ 2 ∨ !s.dpAxisIn p [3] ∨
        !s.pulseOver p (if readable then peak else 0) then s
    else if !readable then
      if s.on H.DP_PLSF p then s.startFails p else (s.put H.DP_PLSF 1 p).pulseRest p
    else
      let s := s.pulseRest p
      let k := s.get H.DP_PLS p
      let s := s.put H.DP_PLSF 0 p
      let s := if k = 0 ∨ s.get H.DP_PKMAX p < peak then (s.put H.DP_PKMAX peak p).put H.DP_PKI k p else s
      let s := if k = 0 ∨ peak < s.get H.DP_PKMIN p then s.put H.DP_PKMIN peak p else s
      let s := s.put H.DP_PLS (k + 1) p
      if s.pulseN p ≤ k + 1 then s.pulsesDone p else s)

/-- The change of the count between two states of A and B: A leading counts up; A and B together is illegal (R309). -/
def quadStep (was now : Nat) : Option Int :=
  let pos := fun n => [0, 1, 3, 2].getD n 0
  match (pos now + 4 - pos was) % 4 with
  | 0 => some 0
  | 1 => some 1
  | 3 => some (-1)
  | _ => none

/-- ENCODER_EDGE: filtered levels of A (bit 0) and B (bit 1), and whether Z rose (R309). -/
def execEncoderEdge (c ab : Nat) (z : Bool) (s : State) : Out :=
  .next (if 8 ≤ c ∨ !s.on R.DRV_ENC_CFG_EN c ∨ s.drvOff then s
    else
      let s := match quadStep (s.get H.ENC_AB c) (ab % 4) with
        | none => s.incSat R.DRV_ENC_ERR c
        | some d =>
          let d := if s.on R.DRV_ENC_CFG_INV c then -d else d
          s.put R.DRV_ENC_CNT (trunc 32 ((s.get R.DRV_ENC_CNT c : Int) + d)) c
      let s := s.put H.ENC_AB ab c
      if z ∧ s.on R.DRV_ENC_CFG_ZEN c ∧ s.on H.ENC_ARM c then
        let s := (s.put R.DRV_ENC_IDX (s.get R.DRV_ENC_CNT c) c).put R.DRV_ENC_STAT_IDXV 1 c
        (s.put H.ENC_ARM 0 c).put H.ENC_IDXT (2 ^ 64 + s.now) c
      else s)

/-! ### Calibration (R336) -/

/-- The drive port's axis is Configured or Disabled (R336). -/
def State.calMay (s : State) (p : Nat) : Bool := s.dpAxisIn p [1, 2]

/-- CAL_START. -/
def execCalStart (mb : Nat) (s : State) : Out :=
  .next (s.request mb 0x0702 8 fun s =>
    let p := s.par mb 0 4
    let f := s.par mb 4 4 % 8
    if 8 ≤ p then s.fail mb 0x0003
    else if !s.calMay p then s.fail mb 0x0004
    else if (s.lopOf 0x0702 p).isSome then s.fail mb 0x000E
    else s.lopStart mb 0x0702 p fun s k =>
      let s := ((s.put H.DP_CALF f p).put H.DP_CALT (popCount 3 f) p).calStep p
      s.when (f == 0) fun s => s.lopEnd k 2 0)

/-- The calibration step in progress has had its time: 1024 conversions with these averages, 200 ms of current, or 24 pulses (R336). -/
def State.calDue (s : State) (p v w : Nat) : Bool :=
  if bit (s.get H.DP_CALF p) 0 then s.get H.DP_CALN p == 1024 && s.ofsMean p v w
  else if bit (s.get H.DP_CALF p) 1 then s.timeUp (s.get H.DP_CALT0 p + 200000000) else s.get H.DP_PLS p == 24



/-- CALIBRATION_STEP_COMPLETE: the step in progress ends with its result: the offsets averaged, as the words DRV_CAL_OFS01
and OFS23, `v` and `w`; the resistance `v`; or the inductance `w` (R336). -/
def execCalibrationStepComplete (p v w : Nat) (s : State) : Out :=
  .next (match (if p < 8 then s.lopOf 0x0702 p else none) with
    | none => s
    | some k =>
      if s.get R.LOP_ID_STATUS k ≠ 1 ∨ !s.calDue p v w then s
      else
        let f := s.get H.DP_CALF p
        let s := if bit f 0 then (s.ofsTake p v w).calOk p
          else if bit f 1 then (s.write R.DRV_RS v p).confWrote (ovlTgt 4 p 0x18)
          else (s.write R.DRV_LS w p).confWrote (ovlTgt 4 p 0x1C)
        let f := if bit f 0 then clrBit f 0 else if bit f 1 then clrBit f 1 else 0
        let s := (s.put H.DP_CALF f p).calStep p
        let n := s.get H.DP_CALT p
        if f = 0 then s.lopEnd k 2 0 else s.lopProgress k (n - popCount 3 f) n)

/-! ### Requests (R337) -/

/-- DRV_CLEAR: chopper faults of a bus group (R326). -/
def execDrvClear (mb : Nat) (s : State) : Out :=
  .next (s.request mb 0x0703 4 fun s =>
    let g := s.par mb 0 4
    if 8 ≤ g then s.fail mb 0x0003
    else if (s.busPorts g).any fun p => s.on R.DRV_STAT_CHOP p && !s.on H.DP_CHSL p then s.fail mb 0x0703
    else
      ((s.each (s.busPorts g) fun s p => s.put R.DRV_STAT_CHOPF 0 p).motoringOnly).done mb)

/-- A TRG pin drives a compare output or feeds a capture unit (R309). -/
def State.trgTaken (s : State) (pin : Nat) : Bool :=
  decide (pin < 16) && (List.range 32).any fun u =>
    (s.on R.CMP_CTL_EN u && s.get R.CMP_CTL_OUT u == pin) ||
      (s.on H.CMP_CFGP u && bit (s.get H.CMP_NEWW u 0) 0 && bits (s.get H.CMP_NEWW u 0) 8 6 == pin) ||
      (s.on R.CMP_CAP_CTL_EN u && s.get R.CMP_CAP_CTL_SRC u == pin) ||
      (s.on H.CAP_CFGP u && bit (s.get H.CAP_NEWW u) 0 && bits (s.get H.CAP_NEWW u) 4 6 == pin)

/-- Binding a port to an encoder channel would take a TRG pin of the channel that a compare output or a capture unit has (R309, R337):
`c` 8 or more names none. That the pins of a channel count whether or not it is enabled yet is the model's choice (log entry 283). -/
def State.encClash (s : State) (c : Nat) : Bool :=
  let w := if s.on H.ENC_NEWP c then s.get H.ENC_NEWW c else s.encWord c
  decide (c < 8) && (List.range 16).any fun pin => encUses (setBit w 20) pin && s.trgTaken pin

/-- DRV_CONFIG: words of a drive port, from the next boundary (R337). -/
def execDrvConfig (mb : Nat) (s : State) : Out :=
  .next (s.request mb 0x0700 16 fun s =>
    let p := s.par mb 0 4
    let k := s.par mb 4 4 / 4
    let n := clampN 1 32 (s.par mb 8 4)
    let w := fun i => s.par mb (12 + 4 * i) 4
    if 8 ≤ p ∨ 32 ≤ k then s.fail mb 0x0003
    else if s.get H.MB_LEN mb < 12 + 4 * n then s.fail mb 0x0002
    else
      let n := min n (32 - k)
      if s.portActive (0x10 + p) && (List.range n).any fun i => s.drvChanges p (k + i) (w i) then s.fail mb 0x0700
      else if k = 0 ∧ bits (w 0) 12 4 ≠ s.get R.DRV_CFG_ENC p ∧ s.encClash (bits (w 0) 12 4) then s.fail mb 0x0702
      else
        let s := s.each (List.range n) fun s i =>
          (s.put H.DP_NEWW (w i) p (k + i)).orBit H.DP_NEWM (k + i) p
        s.wait mb 0x0700 p n)

/-- PTG_CONFIG: the words of a pulse-train port, from the next boundary (R337). -/
def execPtgConfig (mb : Nat) (s : State) : Out :=
  .next (s.request mb 0x0701 16 fun s =>
    let q := s.par mb 0 4
    let w := fun i => s.par mb (4 + 4 * i) 4
    if 16 ≤ q then s.fail mb 0x0003
    else if s.portActive (0x20 + q) && bits (w 0) 4 4 != s.get R.PTG_CFG_ENC q then s.fail mb 0x0700
    else if bits (w 0) 4 4 ≠ s.get R.PTG_CFG_ENC q ∧ s.encClash (bits (w 0) 4 4) then s.fail mb 0x0702
    else ((s.each (List.range 3) fun s i => s.put H.PT_NEWW (w i) q i).put H.PT_NEWP 1 q).wait mb 0x0701 q)

/-- An encoder channel serves a port whose axis is Enabling, Operational, Stopping or Faulted (R337). -/
def State.encActive (s : State) (c : Nat) : Bool :=
  s.axes.any fun a => s.encOf a == some c && decide (3 ≤ s.axSt a) && decide (s.axSt a ≤ 6)

/-- ENC_CONFIG: an encoder channel, from the next boundary (R309, R337). -/
def execEncConfig (mb : Nat) (s : State) : Out :=
  .next (s.request mb 0x0704 8 fun s =>
    let c := s.par mb 0 4
    let w := s.par mb 4 4
    if 8 ≤ c then s.fail mb 0x0003
    else if s.encActive c && (s.encWord c &&& 0x101FFF) != (w &&& 0x101FFF) then s.fail mb 0x0700
    else if (List.range 16).any fun pin => encUses w pin && s.trgTaken pin then s.fail mb 0x0702
    else ((s.put H.ENC_NEWW w c).put H.ENC_NEWP 1 c).wait mb 0x0704 c)

end Sys2Proof.Machine
end

