-- ==== Sys2Proof/Machine/FioOps.lean ====
section
/-! DEFINITION. Field I/O (R342 to R373): ownership, the field die's filters and switches, silence, supplies, and
configuration on its way to the die. -/

namespace Sys2Proof.Machine

/-! ### Channels -/

/-- The safety core owns the channel (R342). -/
def State.safeCh (s : State) (c : Nat) : Bool := s.isSX && decide (16 ≤ c)

/-- The Pulse axis whose brake output a channel is, if any (R39, R343). -/
def State.brakeAxis (s : State) (c : Nat) : Option Nat :=
  (List.range 256).find? fun a => s.axSt a != 0 && s.axKind a == 3 && s.get R.AXS_BRK_FIO a == c

/-- The owner of a channel: 0 host, 1 axis brake, 2 safety core (R343, R372). -/
def State.fioOwner (s : State) (c : Nat) : Nat :=
  if s.safeCh c then 2 else if (s.brakeAxis c).isSome then 1 else 0

/-- Brake outputs follow their axes: on while the brake is released (R55). -/
def State.brakeOut (s : State) : State :=
  s.each (List.range 32) fun s c =>
    let s := s.put R.FIO_CSTAT_OWNER (s.fioOwner c) c
    match s.brakeAxis c with
    | some a =>
      if s.safeCh c then s
      else if s.on R.AXS_STATUS_BRAKE a then s.clearBit R.FIO_OUT_CMD c else s.orBit R.FIO_OUT_CMD c
    | none => s

/-- Host-owned outputs of a mask commanded on or off; other bits have no effect, counted once (R343, R371). -/
def State.fioOutW (s : State) (mask : Nat) (on : Bool) : State :=
  let ok := fun c => s.fioOwner c == 0 && s.on R.FIO_CFG_DIR c
  let bad := (bitsOn 32 mask).any fun c => !ok c
  let s := s.each ((bitsOn 32 mask).filter ok) fun s c =>
    if on then s.orBit R.FIO_OUT_CMD c else s.clearBit R.FIO_OUT_CMD c
  s.when bad fun s => s.incSat R.FIO_CNT_IGN

/-! ### Inputs as they are shown -/

/-- The filter has run from 0 for its time (R366). -/
def State.fioRan (s : State) (c : Nat) : Bool :=
  if s.on R.FIO_CFG_FILT c then decide (s.get R.FIO_DEB c ≤ 10 * s.get H.FIO_RUN c)
  else decide (s.get R.FIO_CFG_THR c ≤ s.get H.FIO_RUN c)

/-- The field die has a valid state of an input channel (R363 to R366). -/
def State.fioGood (s : State) (c : Nat) : Bool :=
  s.on H.FIO_LIVE && s.on H.FIO_CONFD && !s.on R.FIO_GRP_STAT_UV (c / 8) && !s.on R.FIO_CSTAT_WB c && s.fioRan c

/-- An input channel's state is valid (R351, R362 to R366). -/
def State.fioValid (s : State) (c : Nat) : Bool :=
  !s.on R.FIO_CFG_DIR c && s.get R.FIO_LINK_STATE != 0 && s.fioGood c

/-- What FIO_IN shows of a channel (R351). -/
def State.fioIn (s : State) (c : Nat) : Bool :=
  if s.on R.FIO_CFG_DIR c then bit (s.get H.FIO_RB) c
  else if s.fioValid c then bit (s.get H.FIO_OUTF) c
  else s.on R.FIO_CFG_FAILACT c

/-- FIO_IN, FIO_VALID and the channels' status follow the field die's results (R345, R351). -/
def State.fioView (s : State) : State :=
  s.each (List.range 32) fun s c =>
    let v := s.fioValid c
    let i := s.fioIn c
    let s := (s.put R.FIO_CSTAT_VALID (b2n v) c).put R.FIO_CSTAT_IN (b2n i) c
    let s := if v then s.orBit R.FIO_VALID c else s.clearBit R.FIO_VALID c
    if i then s.orBit R.FIO_IN c else s.clearBit R.FIO_IN c

/-- A filter's count and output restart from 0 (R347). -/
def State.filtRestart (s : State) (c : Nat) : State := (s.put R.FIO_CSTAT_CNT 0 c).clearBit H.FIO_OUTF c

/-- An input's filter starts from 0 with its output inactive, and must run before the input is valid (R365, R366). -/
def State.filtZero (s : State) (c : Nat) : State := (s.filtRestart c).put H.FIO_RUN 0 c

/-! ### Safe outputs as the field die sees them -/

/-- A bit of SAF_EVT sets, with cause 11; on a CX7420-NX none does (R412). -/
def State.safEvt (s : State) (k : Nat) : State := s.when s.isSX fun s => (s.orBit R.SAF_EVT k).cause 11

/-- SAFE_TEST requests learn that the proof of an output has ended, passed (`r` = 0), failed (1) or abandoned (2); one
whose proofs have all ended completes (R399, R410). The request's own word holds the outputs still running in bits 3:0,
passed in 7:4 and failed in 11:8. -/
def State.soTested (s : State) (k r : Nat) : State :=
  let upd := fun (w : Wait) =>
    if w.opc = 0x0903 ∧ bit w.arg k then
      let m := clrBit w.arg k
      { w with arg := if r = 0 then setBit m (4 + k) else if r = 1 then setBit m (8 + k) else m }
    else w
  let s := { s with waits := s.waits.map upd }
  s.each (s.waits.filter fun w => w.opc == 0x0903 && w.arg % 16 == 0) fun s w =>
    let res := toBytes 4 (bits w.arg 4 4)
    if bits w.arg 8 4 = 0 then s.done w.mb res else s.fail w.mb 0x0904 res

/-- A proof in progress ends without passing (R399, R408): failed (1) or abandoned (2). -/
def State.soProofOff (s : State) (k r : Nat) : State :=
  if s.get H.SO_PRF k = 0 then s
  else ((s.put H.SO_PRF 0 k).put R.SAF_SO_STAT_PROOF_STEP 0 k).soTested k r

/-- A fault of a safe output latches: both switches open, the proof lapses (R397, R399, R400). The first cause stands. -/
def State.soFail (s : State) (k cause : Nat) : State :=
  if !s.isSX || !s.on R.SAF_SO_CFG_EN k then s
  else
    let s := ((s.put R.SAF_SO_STAT_ON 0 k).put R.SAF_SO_STAT_HS 0 k).put R.SAF_SO_STAT_LS 0 k
    let s := (s.put H.SO_CMD 0 k).put R.SAF_SO_STAT_PROOF_OK 0 k
    let s := (((s.put H.SO_LIVE 0 k).put H.SO_WANT 0 k).put H.SO_TP 0 k).soProofOff k 1
    if s.on R.SAF_SO_STAT_FAULT k then s
    else (((s.put R.SAF_SO_STAT_FAULT 1 k).put R.SAF_SO_STAT_CAUSE cause k).report 0x0E k 0xFFFF cause).safEvt 1

/-- The field die starts anew: an output that is on or being proved fails, the proof of every other lapses (R363, R396,
R400). -/
def State.soLost (s : State) : State :=
  s.each (List.range 4) fun s k =>
    if s.on H.SO_LIVE k || s.on R.SAF_SO_STAT_HS k || s.on R.SAF_SO_STAT_LS k || s.get H.SO_PRF k != 0 then s.soFail k 6
    else s.put R.SAF_SO_STAT_PROOF_OK 0 k

/-- Every safe output fails with a cause (R356, R365, R379, R400). -/
def State.soFailAll (s : State) (cause : Nat) : State := s.each (List.range 4) fun s k => s.soFail k cause

/-- The safe part of a refresh is carried out: the switches take their commands (R379, R395). -/
def State.soExec (s : State) : State :=
  s.each (List.range 4) fun s k =>
    let c := s.get H.SO_SENT k
    let ok := s.isSX && !s.on R.SAF_SO_STAT_FAULT k && !s.fioBarred (24 + 2 * k)
    let h := ok && bit c 0
    let l := ok && bit c 1
    ((s.put R.SAF_SO_STAT_HS (b2n h) k).put R.SAF_SO_STAT_LS (b2n l) k).put R.SAF_SO_STAT_ON (b2n (h && l)) k

/-! ### Configuration -/

/-- A word offset of the FIO block that holds configuration (R372). -/
def fioIsCfg (k : Nat) : Bool := decide (k < 2) || (decide (0x40 ≤ k) && decide (k < 0x140) && decide (k % 8 < 2))

/-- One configuration word takes effect on the field die, with its further effects (R347). -/
def State.fioApply (s : State) (k : Nat) : State :=
  let w := s.get H.FIO_NEWW k 2
  if k < 2 then s.fioTake k w
  else
    let c := (k - 0x40) / 8
    let dir := s.get R.FIO_CFG_DIR c
    let filt := s.get R.FIO_CFG_FILT c
    let s := s.fioTake k w
    let s := s.when (dir == 1 && !s.on R.FIO_CFG_DIR c) fun s =>
      s.put H.FIO_RUN (if s.on R.FIO_GRP_STAT_UV (c / 8) then 0 else 0xFFFF) c
    if (dir = 1 ∧ s.get R.FIO_CFG_DIR c = 0) ∨ s.get R.FIO_CFG_FILT c ≠ filt then s.filtRestart c
    else s.put R.FIO_CSTAT_CNT (min (s.get R.FIO_CSTAT_CNT c) (s.get R.FIO_CFG_THR c)) c

/-- The words at one place on their way move to the next (R345, R347): 0 waiting for the boundary, 1 for a tick, 2 sent. A word that is
already at the next place gives way to the later one. -/
def State.fioStage (s : State) (j : Nat) : State :=
  s.each ((List.range 320).filter fun k => s.on H.FIO_NEWM k j) fun s k =>
    ((s.put H.FIO_NEWW (s.get H.FIO_NEWW k j) k (j + 1)).put H.FIO_NEWM 1 k (j + 1)).put H.FIO_NEWM 0 k j

/-- The words that a refresh carries take effect. -/
def State.fioConfNow (s : State) : State :=
  s.each ((List.range 320).filter fun k => s.on H.FIO_NEWM k 2) fun s k => (s.fioApply k).put H.FIO_NEWM 0 k 2

/-! ### Clearing -/

/-- FIO_CLEAR of one channel: its hold-offs end unless a cause is present (R356, R361, R366, R367). The second part says
whether it was restored. -/
def State.fioClearCh (s : State) (c : Nat) : State × Bool :=
  let tsd := s.on R.FIO_CSTAT_TSD c
  let uv := s.on R.FIO_CSTAT_UVOFF c
  let sil := s.on R.FIO_CSTAT_SILOFF c
  if (tsd && bit (s.get H.FIO_HOT) c) || (uv && s.on R.FIO_GRP_STAT_UV (c / 8)) || (sil && s.on H.FIO_SILD) then (s, false)
  else (((s.put R.FIO_CSTAT_TSD 0 c).put R.FIO_CSTAT_UVOFF 0 c).put R.FIO_CSTAT_SILOFF 0 c, tsd || uv || sil)

/-- FIO_CLEAR of one group: its trip ends while the total is back in range (R356, R367). -/
def State.fioClearGr (s : State) (g : Nat) : State × Nat :=
  if s.on R.FIO_GRP_STAT_OC g && !s.on H.FIO_OCC g then
    (s.put R.FIO_GRP_STAT_OC 0 g,
      2 ^ (8 * g) * (List.range 8).foldl (fun m i => if s.on R.FIO_CFG_DIR (8 * g + i) then m + 2 ^ i else m) 0)
  else (s, 0)

/-- FIO_CLEAR at a refresh: channels and groups; the mask of the channels restored (R369). -/
def State.fioClear (s : State) (cm gm : Nat) : State × Nat :=
  let r := (bitsOn 4 gm).foldl (fun (r : State × Nat) g =>
    let x := r.1.fioClearGr g
    (x.1, r.2 ||| x.2)) (s, 0)
  (bitsOn 32 cm).foldl (fun (r : State × Nat) c =>
    let x := r.1.fioClearCh c
    (x.1, if x.2 then setBit r.2 c else r.2)) r

/-- The clear requests that a refresh carries (R369). -/
def State.fioClears (s : State) : State :=
  s.each (s.waits.filter fun w => w.opc == 0x0802 && w.key == 1) fun s w =>
    let r := s.fioClear (s.par w.mb 0 4) (s.par w.mb 4 4)
    r.1.done w.mb (toBytes 4 (popCount 32 r.2))

/-- Waiting requests of an opcode at one stage move to another. -/
def State.waitStage (s : State) (opc a b : Nat) : State :=
  { s with waits := s.waits.map fun (w : Wait) => if w.opc = opc ∧ w.key = a then { w with key := b } else w }

/-- FIO_OUT takes its outputs. -/
def State.fioOutNow (s : State) (mb : Nat) : State :=
  let m := s.par mb 0 4
  s.put R.FIO_OUT_CMD (andNot (s.get R.FIO_OUT_CMD) m ||| (s.par mb 4 4 &&& m))

/-- FIO_OUT requests whose start cycle has come command their outputs (R369). -/
def State.fioOutsDue (s : State) (n : Nat) : State :=
  let l := s.waits.filter fun w => w.opc == 0x0801 && w.key == 0 && decide (w.arg ≤ n)
  s.each l fun s w =>
    let s := s.fioOutNow w.mb
    { s with waits := s.waits.map fun (x : Wait) => if x = w then { x with key := 1 } else x }

/-- What field I/O does at a cycle boundary: configuration becomes due and its requests complete, timed outputs are
commanded, brakes follow (R55, R347, R369). -/
def State.fioBoundary (s : State) (n : Nat) : State :=
  let s := (s.fioStage 0).fioOutsDue n
  let s := s.each (s.waits.filter fun w => w.opc == 0x0800) fun s w => s.done w.mb (toBytes 4 w.arg)
  s.brakeOut

/-! ### Events -/

/-- Silence at the field die (R360, R367, R400). -/
def State.enterSilence (s : State) : State :=
  let off := (List.range 32).foldl (fun m c => m + b2n (s.on R.FIO_CSTAT_SILOFF c) * 2 ^ c) 0
  let s := (s.put H.FIO_SILD 1).put H.FIO_HOLD ((s.get H.FIO_HOLD &&& off) ||| andNot (s.get H.FIO_CMDX) off)
  let s := s.each (List.range 32) fun s c =>
    s.when (s.on R.FIO_CFG_DIR c && !(s.isSX && decide (24 ≤ c))) fun s => s.put R.FIO_CSTAT_SILOFF 1 c
  let s := s.each (List.range 32) fun s u =>
    s.when (decide (16 ≤ s.get R.CMP_CTL_OUT u) && decide (s.get R.CMP_CTL_OUT u < 48)) fun s => s.put H.CMP_PON 0 u
  let s := ((s.put H.FIO_TPD (s.get H.FIO_TPD ||| s.get H.FIO_TPX)).put H.FIO_TPX 0).soFailAll 6
  (s.report 0x11 0 0xFFFF 0).fioUpd

/-- A valid refresh after a silence (R361). -/
def State.endSilence (s : State) : State :=
  if !s.on H.FIO_SILD then s
  else
    let s := (s.put H.FIO_SILD 0).put R.FIO_LINK_FLAGS_SILENT 1
    s.when (s.on R.FIO_GCFG_AUTO_RESUME) fun s => s.each (List.range 32) fun s c => s.put R.FIO_CSTAT_SILOFF 0 c

/-- A refresh fails at the field die: discarded and counted, the safe outputs off (R345, R379). -/
def State.refreshBad (s : State) : State :=
  (((s.incSat R.FIO_CNT_LINKERR).report 0x11 0 0xFFFF 0).put H.SO_LOSS 1).soFailAll 6

/-- A valid refresh is executed (R345, R347, R361, R363, R369). -/
def State.refreshOk (s : State) (safeOk : Bool) : State :=
  let fell := andNot (s.get H.FIO_CMDX) (s.get H.FIO_CMDR)
  let s := s.put H.FIO_TPD (s.get H.FIO_TPD ||| (fell &&& s.get H.FIO_TPX))
  let s := ((s.put H.FIO_CMDX (s.get H.FIO_CMDR)).put H.FIO_VT s.now).fioConfNow
  let s := s.when (!s.on H.FIO_CONFD) fun s => (s.put H.FIO_CONFD 1).put R.FIO_LINK_FLAGS_FLD_POR 1
  let s := s.endSilence.fioClears.doneAll 0x0801 2 (toBytes 4 0)
  let s := if safeOk then s.soExec else (s.put H.SO_LOSS 1).soFailAll 6
  s.fioUpd

/-- Undervoltage of a group (R365, R400). -/
def State.groupUv (s : State) (g : Nat) : State :=
  let s := ((s.put R.FIO_GRP_STAT_UV 1 g).put R.FIO_GRP_STAT_RECOV 0 g).put H.FIO_REC 0 g
  let s := (s.put R.FIO_GRP_FLAGS_UV_SEEN 1 g).incSat R.FIO_GRP_CNT_UV g
  let s := s.each ((List.range 8).map (8 * g + ·)) fun s c =>
    if s.on R.FIO_CFG_DIR c then
      (s.put R.FIO_CSTAT_UVOFF 1 c).when (bit (s.get H.FIO_TPX) c) fun s => (s.clearBit H.FIO_TPX c).orBit H.FIO_TPD c
    else ((s.filtZero c).put H.FIO_WBL 0 c).put H.FIO_WBH 0 c
  let s := s.when (g == 3) fun s => s.soFailAll 5
  ((s.report 0x10 g 0xFFFF 0).fioUpd).fioView

/-- Recovery of a group completes (R366). -/
def State.groupBack (s : State) (g : Nat) : State :=
  let s := ((s.put R.FIO_GRP_STAT_UV 0 g).put R.FIO_GRP_STAT_RECOV 0 g).put H.FIO_REC 0 g
  let s := s.each ((List.range 8).map (8 * g + ·)) fun s c =>
    if s.on R.FIO_CFG_DIR c then s.when (s.on R.FIO_CFG_AUTO c && !s.safeCh c) fun s => s.put R.FIO_CSTAT_UVOFF 0 c
    else s.put H.FIO_RUN 0 c
  s.fioUpd.fioView

/-- The field die is as a start leaves it: every output off, every input invalid to its first valid refresh, nothing counted
(R363). -/
def State.dieReset (s : State) : State :=
  let s := (s.put H.FIO_CONFD 0).put H.FIO_SILD 0
  let s := (((((s.put H.FIO_CMDX 0).put H.FIO_TPX 0).put H.FIO_TPA 0).put H.FIO_TPD 0).put H.FIO_HOT 0).put H.FIO_RB 0
  let s := s.each (List.range 32) fun s c =>
    let s := (s.filtRestart c).put H.FIO_RUN 0xFFFF c
    let s := (((s.put H.FIO_RBN 0 c).put H.FIO_RBH 0 c).put H.FIO_RBL 0 c).put H.FIO_WBL 0 c
    let s := (s.put H.FIO_WBH 0 c).put R.FIO_CSTAT_WB 0 c
    let s := ((s.put R.FIO_CSTAT_OVL 0 c).put R.FIO_CSTAT_TSD 0 c).put R.FIO_CSTAT_EXT 0 c
    ((s.put R.FIO_CSTAT_TPFAIL 0 c).put R.FIO_CSTAT_UVOFF 0 c).put R.FIO_CSTAT_SILOFF 0 c
  let s := s.each (List.range 4) fun s g =>
    let s := ((s.put H.FIO_GL 0 g).put H.FIO_GH 0 g).put H.FIO_UVL 0 g
    let s := (s.put H.FIO_REC 0 g).put H.FIO_OCC 0 g
    let s := (s.put R.FIO_GRP_STAT_WARN 0 g).put R.FIO_GRP_STAT_UV 0 g
    (s.put R.FIO_GRP_STAT_RECOV 0 g).put R.FIO_GRP_STAT_OC 0 g
  s.soLost.fioUpd.fioView

/-! ### A tick's results -/

/-- One input's sample: the filter counter, the run since it started, and the current for wire break (R349, R352,
R366). -/
def State.sampleInput (s : State) (c : Nat) (raw : Bool) (ua : Nat) : State :=
  if s.on R.FIO_GRP_STAT_UV (c / 8) || !s.on H.FIO_CONFD then s
  else
    let n := s.get R.FIO_CSTAT_CNT c
    let s := s.when (!s.on R.FIO_CFG_FILT c) fun s =>
      s.put R.FIO_CSTAT_CNT (if raw then min (n + 1) (s.get R.FIO_CFG_THR c) else n - 1) c
    let s := s.incSat H.FIO_RUN c
    if s.on R.FIO_CFG_WB c then
      let s := if ua < 200 then s.put H.FIO_WBL (min 2001 (s.get H.FIO_WBL c + 1)) c else s.put H.FIO_WBL 0 c
      if 350 ≤ ua then s.put H.FIO_WBH (min 2001 (s.get H.FIO_WBH c + 1)) c else s.put H.FIO_WBH 0 c
    else ((s.put H.FIO_WBL 0 c).put H.FIO_WBH 0 c).put R.FIO_CSTAT_WB 0 c

/-- One output's sample: the readback over the ticks (R351, R357). High readbacks do not count towards external drive for 200 µs after
the output's state changed (R357). -/
def State.sampleOutput (s : State) (c : Nat) (hi : Bool) : State :=
  let s := if hi then
      (if s.get H.FIO_TT < s.get H.FIO_CHG c + 200000 then s.put H.FIO_RBH 0 c else s.incSat H.FIO_RBH c).put H.FIO_RBL 0 c
    else (s.incSat H.FIO_RBL c).put H.FIO_RBH 0 c
  if hi == bit (s.get H.FIO_RB) c then s.put H.FIO_RBN 0 c
  else if s.get H.FIO_RBN c < 2 then s.incSat H.FIO_RBN c
  else (if hi then s.orBit H.FIO_RB c else s.clearBit H.FIO_RB c).put H.FIO_RBN 0 c

/-- One group's sample: the counts that thresholds of its supply and total current go by (R356, R364). `v` in 10 mV, `tot` in mA. -/
def State.sampleGroup (s : State) (g v tot : Nat) : State :=
  let s := if v < 1800 then (s.put H.FIO_GL (min 102 (s.get H.FIO_GL g + 1)) g).put H.FIO_GH 0 g
    else (s.put H.FIO_GH (min 102 (s.get H.FIO_GH g + 1)) g).put H.FIO_GL 0 g
  let s := if v < 1500 then s.incSat H.FIO_UVL g else s.put H.FIO_UVL 0 g
  let s := if s.on R.FIO_GRP_STAT_UV g then
      if 1850 < v then (s.put H.FIO_REC (min 2001 (s.get H.FIO_REC g + 1)) g).put R.FIO_GRP_STAT_RECOV 1 g
      else s.put H.FIO_REC 0 g
    else s
  if 3300 < tot then s.put H.FIO_OCC (min 2001 (s.get H.FIO_OCC g + 1)) g else s.put H.FIO_OCC 0 g

/-- A count of injected ticks goes on. -/
def State.tickDown (s : State) (f : Fld) (i : Nat) : State := s.put f (s.get f i - 1) i

/-- What the field die samples at a tick, injections with it (R345, R458): raw inputs and readbacks as bits, currents of inputs in µA
and of outputs in mA, supplies in 10 mV. -/
structure Samples where
  /-- Raw inputs. -/
  raw : Nat
  /-- Readbacks. -/
  rb : Nat
  /-- Currents. -/
  cur : List Nat
  /-- Supplies. -/
  vfg : List Nat
  deriving DecidableEq, Repr

/-- The raw state of an input (R350). -/
def State.rawOf (s : State) (x : Samples) (c : Nat) : Bool := bit x.raw c != s.on R.FIO_CFG_INV c

/-- The current of an input, µA (R352). -/
def State.uaOf (s : State) (x : Samples) (c : Nat) : Nat := if s.on H.INJ_WBT c then 100 else x.cur.getD c 0

/-- The readback of an output (R351). -/
def State.rbOf (s : State) (x : Samples) (c : Nat) : Bool := bit x.rb c || s.on H.INJ_RBT c

/-- The supply of a group, 10 mV (R364). -/
def State.vfgOf (s : State) (x : Samples) (g : Nat) : Nat := if s.on H.INJ_VFT g then s.get H.INJ_VFG g else x.vfg.getD g 0

/-- The total current of a group's outputs, mA (R353). -/
def State.totOf (s : State) (x : Samples) (g : Nat) : Nat :=
  (List.range 8).foldl (fun n i => if s.on R.FIO_CFG_DIR (8 * g + i) then n + min 65535 (x.cur.getD (8 * g + i) 0) else n) 0

/-- The field die takes the samples of a tick, whatever becomes of the return (R345, R349, R352, R364). -/
def State.dieSample (s : State) (x : Samples) : State :=
  let s := s.put H.FIO_SMP 0
  let s := s.each (List.range 4) fun s g => (s.sampleGroup g (s.vfgOf x g) (s.totOf x g)).tickDown H.INJ_VFT g
  s.each (List.range 32) fun s c =>
    if s.on R.FIO_CFG_DIR c then (s.sampleOutput c (s.rbOf x c)).tickDown H.INJ_RBT c
    else (s.sampleInput c (s.rawOf x c) (s.uaOf x c)).tickDown H.INJ_WBT c

/-- The samples of a tick whose return never came: nothing tells them, so they are free values (log entry 281). -/
def State.lostSamples (s : State) : Samples :=
  { raw := s.freeAt 0 32, rb := s.freeAt 1 32, cur := (List.range 32).map fun c => s.freeAt (2 + c) 16,
    vfg := (List.range 4).map fun g => s.freeAt (34 + g) 16 }

/-- The return of the latest tick has not come: its samples were taken all the same, and a return is missing (R349, R352, R362). -/
def State.returnLost (s : State) : State :=
  ((s.dieSample s.lostSamples).put H.FREE (s.get H.FREE + 38)).incSat H.FIO_MISS

/-- The results of a valid return are shown (R345, R372). -/
def State.showReturn (s : State) (x : Samples) : State :=
  let s := s.each (List.range 32) fun s c =>
    let hi := if s.on R.FIO_CFG_DIR c then s.rbOf x c else s.rawOf x c
    let i := if s.on R.FIO_CFG_DIR c then min 65535 (x.cur.getD c 0) else 65536 * min 65535 (s.uaOf x c)
    let s := (s.put R.FIO_CSTAT_RAW (b2n hi) c).put R.FIO_I i c
    if hi then s.orBit R.FIO_RAW c else s.clearBit R.FIO_RAW c
  let s := s.each (List.range 4) fun s g =>
    ((s.put R.FIO_GRP_V (s.vfgOf x g) g).put R.FIO_GRP_I (min 65535 (s.totOf x g)) g).put R.TEL_VFG (s.vfgOf x g) g
  (s.put R.FIO_OUT_ACT (s.get H.FIO_ACTT)).put R.FIO_IN_T (s.get H.FIO_TT)

/-- A valid return lands: inputs, readbacks, currents and supplies of the tick (R345, R372). -/
def State.landReturn (s : State) (x : Samples) : State :=
  let s := ((s.put H.FIO_MISS 0).put H.FIO_BLANK 0).put R.FIO_LINK_STATE (if s.on H.FIO_SILD then 2 else 1)
  ((s.showReturn x).dieSample x).fioView

/-! ### Test pulses (R358) -/

/-- A test pulse of channel `c` begins with the refresh of the tick at time `t`: the first at or after its nominal start,
`c` 32nds of a period into a period. -/
def State.tpStarts (s : State) (c t : Nat) : Bool :=
  let p := 1000000 * s.get R.FIO_TP_PERIOD
  decide ((t + p - c * p / 32 % p) % max 1 p < 10000)

/-- The tick is the last of the test pulse of a channel, or a later one: a pulse lasts WIDTH ticks. -/
def State.tpLast (s : State) (c t : Nat) : Bool :=
  decide (s.get H.FIO_TPT c + 10000 * (s.get R.FIO_TP_WIDTH - 1) ≤ t)

/-- The test pulses that have lasted WIDTH ticks end: their outputs carry on as commanded (R358). -/
def State.tpEnds (s : State) (t : Nat) : State :=
  s.each (List.range 32) fun s c =>
    s.when (bit (s.get H.FIO_TPX) c && decide (s.get H.FIO_TPT c + 10000 * s.get R.FIO_TP_WIDTH ≤ t)) fun s => s.clearBit H.FIO_TPX c

/-! ### A reset of MGMT -/

/-- What MGMT holds of field I/O is at its reset values: link, flags, counters and the results of the last tick; configuration on its
way to the field die is lost (R13, R256, R471). The configuration in force stands; the status bits of groups and channels
show their reset values until a return has come (H.FIO_BLANK), while the field die itself holds them on, log entry 249. -/
def State.fioRestart (s : State) : State :=
  let s := s.each [R.FIO_LINK_STATE, R.FIO_LINK_FLAGS_SILENT, R.FIO_LINK_FLAGS_FLD_POR, R.FIO_RAW, R.FIO_OUT_ACT, R.FIO_CNT_IGN,
    R.FIO_IN_T, R.FIO_CNT_LINKERR, H.FIO_MISS] fun s f => s.resetFld f
  let s := s.each (List.range 4) fun s g =>
    s.each [R.FIO_GRP_V, R.FIO_GRP_I, R.FIO_GRP_FLAGS_UV_SEEN, R.FIO_GRP_FLAGS_WARN_SEEN, R.FIO_GRP_CNT_UV] fun s f =>
      s.resetFld f g
  let s := s.each (List.range 32) fun s c =>
    let s := s.each [R.FIO_CSTAT_RAW, R.FIO_CFLAGS_WB_SEEN, R.FIO_CFLAGS_OVL_SEEN, R.FIO_CFLAGS_TSD_SEEN,
      R.FIO_CFLAGS_EXT_SEEN, R.FIO_CFLAGS_TPFAIL_SEEN, R.FIO_I, R.FIO_CNT_TSD, R.FIO_CNT_EDGE] fun s f => s.resetFld f c
    s.clearBit R.FIO_OUT_CMD c
  let s := s.each (List.range 320) fun s k => (s.put H.FIO_NEWM 0 k 0).put H.FIO_NEWM 0 k 1
  ((s.put H.FIO_BLANK 1).put H.FIO_OFF1 1).fioView

end Sys2Proof.Machine
end

