-- ==== Sys2Proof/Machine/Fio.lean ====
section
/-! DEFINITION. The commands of field I/O (R342 to R373, R451). -/

namespace Sys2Proof.Machine

/-! ### The link -/

/-- TICK: a multiple of 10 µs of distributed-clock time; another time is no tick. The refresh is formed with the commands,
configuration and clears that have landed, and the field die samples (R345). The samples come with RETURN_LANDING; those of an earlier
tick whose return has not come by now are unknown (log entry 281). -/
def execTick (t : Nat) (s : State) : Out :=
  .next (if t % 10000 ≠ 0 then s else
    let s := s.when (s.on H.FIO_SMP) fun s => s.returnLost
    let s := ((((s.clockTo t 0).put H.FIO_TT t).put H.FIO_SMP (s.get H.FIO_LIVE)).tpEnds t).brakeOut
    let s := ((s.put H.FIO_CMDR (if s.on H.FIO_OFF1 then 0 else s.get R.FIO_OUT_CMD)).put H.FIO_OFF1 0).fioStage 1
    let s := (s.waitStage 0x0801 1 2).waitStage 0x0802 0 1
    let s := s.each (List.range 4) fun s k => s.put H.SO_SENT (s.get H.SO_CMD k) k
    let s := s.fioUpd
    s.put H.FIO_ACTT (s.get H.FIO_SW))

/-- REFRESH: executed at T + 2.000 µs, or discarded (R345, R361, R379). Injections withhold or corrupt it (R458), and a MGMT that is
off or in reset sends none (R360). -/
def execRefresh (valid safeOk : Bool) (s : State) : Out :=
  .next (
    let s := s.clockTo (s.get H.FIO_TT + 2000) 0
    if !s.on H.FIO_LIVE || s.domDown 2 then s
    else if s.now < s.get H.INJ_REFT then (s.put H.SO_LOSS 1).soFailAll 6
    else if !valid || s.on H.INJ_REFN then
      (s.put H.INJ_REFN (s.get H.INJ_REFN - 1)).refreshBad.fioUpd
    else s.refreshOk (safeOk && !s.on H.SAF_WDD && !s.domDown 3))

/-- RETURN_LANDING: a tick's results land, or an invalid return is counted (R345, R362, R379); the field die has taken its samples in
both cases (R349, R352). A safe part that fails makes every safe input count as open. -/
def execReturnLanding (valid safeOk : Bool) (raw rb : Nat) (cur vfg : List Nat) (s : State) : Out :=
  .next (
    let s := s.put H.SAF_RET (b2n (valid && safeOk && s.on H.FIO_LIVE))
    if !s.on H.FIO_LIVE then s.incSat H.FIO_MISS
    else
      let x : Samples := { raw := raw, rb := rb, cur := cur, vfg := vfg }
      if !valid then ((s.incSat R.FIO_CNT_LINKERR).incSat H.FIO_MISS).dieSample x
      else s.landReturn x)

/-- SILENCE: no valid refresh for SIL_TO, which runs 0.95 to 1.05 times its value on the field die's own oscillator (R360). -/
def execSilence (s : State) : Out :=
  .next (if s.on H.FIO_LIVE && s.on H.FIO_CONFD && !s.on H.FIO_SILD &&
      s.timeUp (s.get H.FIO_VT + 950000 * s.get R.FIO_GCFG_SIL_TO) then s.enterSilence else s)

/-- FIELD_LINK_LOSS: no valid return for three ticks (R362). -/
def execFieldLinkLoss (s : State) : Out :=
  .next (if 3 ≤ s.get H.FIO_MISS ∧ s.get R.FIO_LINK_STATE ≠ 0 then
      ((s.put R.FIO_LINK_STATE 0).fioView).report 0x11 0 0xFFFF 0
    else s)

/-- FIELD_DIE_START: a VFG pin reaches 13.0 V (R363). -/
def execFieldDieStart (s : State) : Out := .next (if s.on H.FIO_LIVE then s else (s.put H.FIO_LIVE 1).dieReset)

/-- FIELD_DIE_STOP: every VFG pin has fallen below 12.0 V (R363). -/
def execFieldDieStop (s : State) : Out := .next (if s.on H.FIO_LIVE then (s.put H.FIO_LIVE 0).dieReset else s)

/-! ### Inputs -/

/-- FILTER_OUTPUT_CHANGE: the counter has reached THR, or 0 (R349). -/
def execFilterOutputChange (c : Nat) (s : State) : Out :=
  .next (
    let n := s.get R.FIO_CSTAT_CNT c
    let o := bit (s.get H.FIO_OUTF) c
    if 32 ≤ c ∨ s.on R.FIO_CFG_DIR c ∨ s.on R.FIO_CFG_FILT c then s
    else if s.get R.FIO_CFG_THR c ≤ n ∧ !o then ((s.orBit H.FIO_OUTF c).incSat R.FIO_CNT_EDGE c).fioView
    else if n = 0 ∧ o then ((s.clearBit H.FIO_OUTF c).incSat R.FIO_CNT_EDGE c).fioView
    else s)

/-- DEBOUNCE_ACCEPT: a raw state has lasted FIO_DEB since an edge, which is its timestamp (R189, R350). -/
def execDebounceAccept (c t frac : Nat) (lvl : Bool) (s : State) : Out :=
  .next (if 8 ≤ c ∨ s.on R.FIO_CFG_DIR c ∨ !s.on R.FIO_CFG_FILT c ∨ s.on R.FIO_GRP_STAT_UV (c / 8) ∨
        bit (s.get H.FIO_OUTF) c = lvl then s
    else
      let s := s.clockTo (t + 1000 * s.get R.FIO_DEB c) frac
      let s := (if lvl then s.orBit H.FIO_OUTF c else s.clearBit H.FIO_OUTF c).incSat R.FIO_CNT_EDGE c
      let s := s.put H.FIO_EDGEF frac c
      let s := s.each (s.axes.filter fun a => s.get R.TRJ_CFG_HOME a == c) fun s a => s.put H.HM_EDGE (2 ^ 80 + 65536 * t + frac) a
      s.fioView)

/-- WIRE_BREAK: current below 0.2 mA in every tick for 20 ms (R352). -/
def execWireBreak (c : Nat) (s : State) : Out :=
  .next (if 32 ≤ c ∨ !s.on R.FIO_CFG_WB c ∨ s.on R.FIO_CSTAT_WB c ∨ s.get H.FIO_WBL c < 2001 then s
    else (((s.put R.FIO_CSTAT_WB 1 c).put R.FIO_CFLAGS_WB_SEEN 1 c).fioView).report 0x12 c 0xFFFF 0)

/-- WIRE_BREAK_CLEAR: current at or above 0.35 mA in every tick for 20 ms (R352). -/
def execWireBreakClear (c : Nat) (s : State) : Out :=
  .next (if 32 ≤ c ∨ !s.on R.FIO_CSTAT_WB c ∨ s.get H.FIO_WBH c < 2001 then s
    else (s.put R.FIO_CSTAT_WB 0 c).fioView)

/-- THRESHOLD_TRIM: the spare comparator is swapped into service, or stays out of it (R451). -/
def execThresholdTrim (c : Nat) (ok : Bool) (s : State) : Out :=
  .next (if 32 ≤ c then s
    else
      let ok := ok && !s.on H.INJ_TRIM c
      let s := s.put H.INJ_TRIM 0 c
      if ok then s.put H.FIO_CMPS (1 - s.get H.FIO_CMPS c) c else s.report 0x1F c 0xFFFF 0)

/-! ### Outputs -/

/-- The output is commanded on, by its command or, in silence, by its safe state; a safe output's high side, by the safe part of the
refresh (R357, R395). -/
def State.fioWants (s : State) (c : Nat) : Bool :=
  if s.isSX && decide (24 ≤ c) then bit (s.get H.SO_SENT ((c - 24) / 2)) 0
  else if s.on R.FIO_CSTAT_SILOFF c then s.fioSafe c else s.fioPulse c || bit (s.get H.FIO_CMDX) c

/-- EXTERNAL_DRIVE: an output commanded off reads back high for three ticks (R357). -/
def execExternalDrive (c : Nat) (s : State) : Out :=
  .next (if 32 ≤ c ∨ !s.on R.FIO_CFG_DIR c ∨ s.on R.FIO_CSTAT_EXT c ∨ s.fioWants c ∨ s.get H.FIO_RBH c < 3 ∨
        s.get H.FIO_TT < s.get H.FIO_CHG c + 200000 then s
    else ((s.put R.FIO_CSTAT_EXT 1 c).put R.FIO_CFLAGS_EXT_SEEN 1 c).report 0x0D c 0xFFFF 0)

/-- EXTERNAL_DRIVE_CLEAR: three low readbacks, or the output is commanded on (R357). -/
def execExternalDriveClear (c : Nat) (s : State) : Out :=
  .next (if c < 32 ∧ (3 ≤ s.get H.FIO_RBL c ∨ s.fioWants c) then s.put R.FIO_CSTAT_EXT 0 c else s)

/-- OUTPUT_TEST_PULSE: a pulse starts, where one is due at this tick, or its last tick's readback is checked (R358, R367); the tick
after its last one ends it (State.tpEnds). -/
def execOutputTestPulse (c : Nat) (last rbHigh : Bool) (s : State) : Out :=
  .next (if 32 ≤ c ∨ s.safeCh c then s
    else if !last then
      if s.on R.FIO_CFG_TP c && s.on R.FIO_CFG_DIR c && s.fioOn c && !s.on H.FIO_SILD && s.tpStarts c (s.get H.FIO_TT) then
        ((((s.orBit H.FIO_TPX c).orBit H.FIO_TPA c).clearBit H.FIO_TPD c).put H.FIO_TPT (s.get H.FIO_TT) c).fioUpd
      else s
    else if !bit (s.get H.FIO_TPA) c then s
    else if !s.tpLast c (s.get H.FIO_TT) then s
    else
      let bad := bit (s.get H.FIO_TPD) c
      let hi := rbHigh || s.on H.INJ_RBT c
      let s := (s.clearBit H.FIO_TPA c).clearBit H.FIO_TPD c
      if bad then s
      else if hi then ((s.put R.FIO_CSTAT_TPFAIL 1 c).put R.FIO_CFLAGS_TPFAIL_SEEN 1 c).report 0x0D c 0xFFFF 0
      else s.put R.FIO_CSTAT_TPFAIL 0 c)

/-- CURRENT_LIMIT: the switch limits its current, or has stopped to (R356). -/
def execCurrentLimit (c : Nat) (limiting : Bool) (s : State) : Out :=
  .next (if 32 ≤ c then s
    else (s.put R.FIO_CSTAT_OVL (b2n limiting) c).when limiting fun s => s.put R.FIO_CFLAGS_OVL_SEEN 1 c)

/-- The high-side switch of a safe output opens (R356, R395). -/
def State.soTrip (s : State) (c : Nat) : State :=
  s.when (s.isSX && decide (24 ≤ c) && c % 2 == 0) fun s =>
    (s.put R.SAF_SO_STAT_HS 0 ((c - 24) / 2)).put R.SAF_SO_STAT_ON 0 ((c - 24) / 2)

/-- THERMAL_SHUTDOWN: an overheated switch turns off (R356). -/
def execThermalShutdown (c : Nat) (s : State) : Out :=
  .next (if 32 ≤ c ∨ !s.on R.FIO_CFG_DIR c ∨ s.on R.FIO_CSTAT_TSD c then s
    else
      let s := ((s.put R.FIO_CSTAT_TSD 1 c).orBit H.FIO_HOT c).put R.FIO_CFLAGS_TSD_SEEN 1 c
      let s := (s.incSat R.FIO_CNT_TSD c).evAdd 4 0 c 0xFFFF 0 false 0
      (s.soTrip c).fioUpd)

/-- THERMAL_RESTART: the switch has cooled; with TSD_AUTO it restarts (R356). -/
def execThermalRestart (c : Nat) (s : State) : Out :=
  .next (if 32 ≤ c then s
    else
      let s := s.clearBit H.FIO_HOT c
      if s.on R.FIO_CFG_TSD_AUTO c then (s.put R.FIO_CSTAT_TSD 0 c).fioUpd else s)

/-- GROUP_OVERCURRENT: a group's total above 3.3 A in every tick for 20 ms (R356, R400). -/
def execGroupOvercurrent (g : Nat) (s : State) : Out :=
  .next (if 4 ≤ g ∨ s.on R.FIO_GRP_STAT_OC g ∨ s.get H.FIO_OCC g < 2001 then s
    else ((s.put R.FIO_GRP_STAT_OC 1 g).when (g == 3) fun s => s.soFailAll 4).fioUpd)

/-! ### Supplies -/

/-- SUPPLY_WARNING: below 18.0 V in 102 consecutive samples (R364). -/
def execSupplyWarning (g : Nat) (s : State) : Out :=
  .next (if 4 ≤ g ∨ s.on R.FIO_GRP_STAT_WARN g ∨ s.get H.FIO_GL g < 102 then s
    else ((s.put R.FIO_GRP_STAT_WARN 1 g).put R.FIO_GRP_FLAGS_WARN_SEEN 1 g).evAdd 4 0 g 0xFFFF 0 false 0)

/-- SUPPLY_WARNING_CLEAR: at or above 18.0 V in 102 consecutive samples (R364). -/
def execSupplyWarningClear (g : Nat) (s : State) : Out :=
  .next (if g < 4 ∧ 102 ≤ s.get H.FIO_GH g then s.put R.FIO_GRP_STAT_WARN 0 g else s)

/-- UNDERVOLTAGE: below 15.0 V in two consecutive samples (R364, R365). -/
def execUndervoltage (g : Nat) (s : State) : Out :=
  .next (if 4 ≤ g ∨ s.on R.FIO_GRP_STAT_UV g ∨ s.get H.FIO_UVL g < 2 then s else s.groupUv g)

/-- UNDERVOLTAGE_RECOVERY: above 18.5 V in every sample for 20 ms (R364, R366). -/
def execUndervoltageRecovery (g : Nat) (s : State) : Out :=
  .next (if 4 ≤ g ∨ !s.on R.FIO_GRP_STAT_UV g ∨ s.get H.FIO_REC g < 2001 then s else s.groupBack g)

/-! ### Writes and requests -/

/-- FIO_OUT_SET (R371). -/
def execFioOutSet (mask : Nat) (s : State) : Out := .next (s.hostWord 0xC0020 fun s => s.fioOutW mask true)

/-- FIO_OUT_CLR (R371). -/
def execFioOutClr (mask : Nat) (s : State) : Out := .next (s.hostWord 0xC0024 fun s => s.fioOutW mask false)

/-- The channel of a configuration word (R372). -/
def fioCh (k : Nat) : Nat := (k - 0x40) / 8

/-- Why FIO_CONFIG is refused for one word; 0 where it is not (R369). -/
def State.fioRefuse (s : State) (k w : Nat) : Nat :=
  if k < 0x40 ∨ 0x140 ≤ k then 0
  else if s.safeCh (fioCh k) then 0x0800
  else if s.fioOwner (fioCh k) = 1 ∧ k % 8 = 0 ∧ !bit w 0 then 0x0801
  else 0

/-- FIO_CONFIG: words on their way to the field die; complete at the next boundary (R347, R369). -/
def execFioConfig (mb : Nat) (s : State) : Out :=
  .next (s.request mb 0x0800 12 fun s =>
    let k := s.par mb 0 4 / 4
    let n := clampN 1 64 (s.par mb 4 4)
    let w := fun i => s.par mb (8 + 4 * i) 4
    if 320 ≤ k then s.fail mb 0x0003
    else if s.get H.MB_LEN mb < 8 + 4 * n then s.fail mb 0x0002
    else
      let is := List.range (min n (320 - k))
      let r := is.foldl (fun r i => if r = 0 then s.fioRefuse (k + i) (w i) else r) 0
      if r ≠ 0 then s.fail mb r
      else
        let is := is.filter fun i => fioIsCfg (k + i)
        let l := fun i => s.fioLimited (k + i) (w i)
        let s := s.each is fun s i =>
          let s := (s.put H.FIO_NEWW (l i) (k + i) 0).put H.FIO_NEWM 1 (k + i) 0
          if 0x40 ≤ k + i then s.confWrote (ovlTgt 3 (fioCh (k + i)) (4 * ((k + i) % 8))) else s.dirty
        s.wait mb 0x0800 0 is.length)

/-- FIO_OUT: outputs by mask, at once or from a start cycle (R369). -/
def execFioOut (mb : Nat) (s : State) : Out :=
  .next (s.request mb 0x0801 16 fun s =>
    let cs := bitsOn 32 (s.par mb 0 4)
    let cyc := s.par mb 8 8
    if cs.any fun c => s.safeCh c then s.fail mb 0x0800
    else if cs.any fun c => s.fioOwner c != 0 then s.fail mb 0x0801
    else if cs.any fun c => !s.on R.FIO_CFG_DIR c then s.fail mb 0x0802
    else if cyc = 0 then (s.fioOutNow mb).done mb (toBytes 4 0)
    else if cyc ≤ s.get H.BND_N then (s.fioOutNow mb).done mb (toBytes 4 1)
    else s.wait mb 0x0801 0 cyc)

/-- FIO_CLEAR: at the next refresh (R369). -/
def execFioClear (mb : Nat) (s : State) : Out :=
  .next (s.request mb 0x0802 8 fun s =>
    if (bitsOn 32 (s.par mb 0 4)).any fun c => s.safeCh c then s.fail mb 0x0800
    else s.wait mb 0x0802 0)

end Sys2Proof.Machine
end

