-- ==== Sys2Proof/Machine/NirteOps.lean ====
section
/-! DEFINITION. Operations of the Nirte rings (R204 to R250): frame geometry, refusal, start and stop, nodes, landings and
slots. -/

namespace Sys2Proof.Machine

/-! ### Geometry -/

/-- Bytes of the payload of a cycle frame (R212). -/
def State.payload (s : State) (r : Nat) : Nat :=
  64 + s.get R.NRT_RCFG2_NSLOT r * s.slotSize r + 16 * (s.get R.NRT_RCFG2_NZHV r + s.get R.NRT_RCFG2_NCOMMA r)

/-- Picoseconds of a byte on the wire (R204). -/
def State.bytePs (s : State) (r : Nat) : Nat := if s.get R.NRT_RCFG_MODE r = 0 then 3200 else 8000

/-- F: wire time of the cycle frame, preamble to FCS, ps (R214). -/
def State.framePs (s : State) (r : Nat) : Nat := (26 + s.payload r) * s.bytePs r

/-- The refusal that follows from the configuration alone, first that holds (R214, R215, R220, R242); 0 none. -/
def State.refuseCfg (s : State) (r : Nat) : Nat :=
  if 64 < s.get R.NRT_RCFG2_NZHV 0 + s.get R.NRT_RCFG2_NZHV 1 then 11
  else if s.get R.NRT_RCFG_SSIZE r = 0 ∧ !(s.ringAxes r).isEmpty then 7
  else if 8192 < s.payload r then 4
  else if s.ringCyc r * 1000 < s.framePs r + 12 * s.bytePs r + 2500000 then 3
  else 0

/-- C cycles of a ring, ps. -/
def State.ceilPs (s : State) (r : Nat) : Nat := s.get R.NRT_RCFG_C r * s.ringCyc r * 1000

/-- R, L and G follow a forward measurement (R34, R240). -/
def State.setR (s : State) (r acc : Nat) : State :=
  let s := s.put H.NRT_ACC acc r
  let s := (s.put R.NRT_R_PS acc r).put R.NRT_F_PS (s.framePs r) r
  let s := s.put R.NRT_L_PS (acc + s.framePs r) r
  s.put R.NRT_G_PS (s.ceilPs r - acc - 400000 - s.slotSize r * s.bytePs r) r

/-- L exceeds C cycles (R242); L itself, which NRT_L_PS may be too narrow for. -/
def State.lateL (s : State) (r : Nat) : Bool := decide (s.ceilPs r < s.get H.NRT_ACC r + s.framePs r)

/-- G lies below 4 µs (R34). -/
def State.shortG (s : State) (r : Nat) : Bool := decide (s.get R.NRT_G_PS r < 4000000)

/-- APPLY for a greatest receipt time: the least multiple of 0.25 µs not below it plus 0.5 µs (R228). -/
def applyFor (maxrx : Nat) : Nat := (maxrx + 500000 + 249999) / 250000 * 250

/-! ### The frame on the wire (R212, R213, R221) -/

/-- The value of bytes with the most significant first (R8). -/
def ofBytesBE (l : List Nat) : Nat := ofBytes l.reverse

/-- The bytes of a value with the most significant first (R8). -/
def toBytesBE (n v : Nat) : List Nat := (toBytes n v).reverse

/-- REF_ADDR: the time reference node, 0 where it is the head (R235, R238). -/
def State.refAddr (s : State) (r : Nat) : Nat :=
  if r ≠ 0 then 0
  else if s.get R.DCK_STATE_REFSRC = 2 then s.get R.NRT_RCFG4_REF2 0 else s.get R.NRT_RCFG4_REF 0

/-- FLAGS.SPLIT and COPY of a launch (R213, R244). -/
def State.hdrFlags (s : State) (r : Nat) (copy : Bool) : Nat := s.get R.NRT_RSTATE_SPLIT r * 2 ^ 14 + b2n copy * 2 ^ 13

/-- Wire bytes 0 to 85 of a frame of type `ty` that the head of ring `r` launches in cycle `n` (R212, R213). -/
def State.frameHead (s : State) (r n ty : Nat) (copy : Bool) : List Nat :=
  List.replicate 7 0x55 ++ [0xD5] ++ toBytesBE 6 (0x034E5200000A + r) ++ toBytesBE 6 (s.get R.HIF_MAC) ++
    toBytesBE 2 (s.get R.NRT_RCFG3_ETYPE r) ++ [1, ty] ++ toBytesBE 2 (s.hdrFlags r copy) ++
    toBytesBE 8 n ++ toBytesBE 8 (s.get H.BND_T) ++ toBytesBE 4 (s.get R.HIF_CID) ++
    toBytesBE 4 (s.get R.NRT_TOKEN_CID r) ++ toBytesBE 2 (s.get R.NRT_TOKEN_EPOCH r) ++
    [r, s.get R.NRT_RCFG_SSIZE r * 64 + s.get R.NRT_RCFG_C r * 8 + min 4 (s.get R.NRT_RCFG_CYC r)] ++
    toBytesBE 2 (s.get R.NRT_RCFG2_NSLOT r) ++
    [s.get R.NRT_RCFG2_NZHV r, s.get R.NRT_RCFG2_NCOMMA r, s.get R.NRT_RCFG3_NHC r, 0] ++
    toBytesBE 2 0 ++ toBytesBE 2 (s.refAddr r) ++ toBytesBE 8 0 ++ toBytesBE 2 0 ++
    toBytesBE 4 (s.get R.NRT_APPLY_NS r) ++ toBytesBE 8 0

/-- The bytes of a Comma (R221). -/
def commaBytes (own ctrl : Nat) (data : List Nat) : List Nat :=
  toBytesBE 2 own ++ toBytesBE 2 ctrl ++ (List.range 12).map fun k => data.getD k 0

/-- The place of wire bytes 0 to 85 of the cycle frame last launched on a ring. -/
def headImg (r : Nat) : Nat := 0x5E500000 + 0x1000 * r

/-- The place of the Commas of that frame. -/
def commaImg (r : Nat) : Nat := 0x5E500400 + 0x1000 * r

/-- The place of the frame last sent in the quiet window of a ring or in its start: head and body (R239, R241). -/
def quietImg (r : Nat) : Nat := 0x5E502000 + 0x1000 * r

/-- The place of the frame last forwarded in through a port, from its destination address on (R207). -/
def fwdImg (p : Nat) : Nat := 0x5E510000 + 0x4000 * p

/-- A bit of a frame check sequence: one step of the CRC-32 of IEEE 802.3, least significant bit first. -/
def fcsStep (c : Nat) : Nat := if c % 2 = 1 then c / 2 ^^^ 0xEDB88320 else c / 2

/-- The FCS of a frame's bytes from the destination address on, in the order of transmission. That it is the CRC-32 of IEEE 802.3,
least significant byte first, is taken from that standard (log entry 239). -/
def frameFcs (l : List Nat) : List Nat :=
  toBytes 4 ((l.foldl (fun c b => (List.range 8).foldl (fun c _ => fcsStep c) (c ^^^ b % 256)) (2 ^ 32 - 1)) ^^^ (2 ^ 32 - 1))

/-- A frame sent in the quiet window or in the ring's start: the header and a body (R239, R241). -/
def State.quietSend (s : State) (r ty : Nat) (copy : Bool) (body : List Nat) : State :=
  s.setBytes (quietImg r) (s.frameHead r (s.get H.BND_N) ty copy ++ body)

/-- A sticky flag of a ring sets, with its cause (R249, R259). -/
def State.nrtFlag (s : State) (f : Fld) (r : Nat) : State :=
  (s.put f 1 r).when (!s.on f r) fun s => s.cause 7

/-! ### Nodes -/

/-- The index of a node. -/
def nodeAt (r node : Nat) : Nat := 4096 * (r % 2) + node % 4096

/-- The axes bound to a node. -/
def State.nodeAxes (s : State) (r node : Nat) : List Nat :=
  s.axes.filter fun a => s.get H.AX_BIND a == r && s.get H.AX_NODE a == node

/-- The node is lost to an axis: the event waits for the axis's boundary (R42, R243). -/
def State.axisLost (s : State) (a : Nat) : State :=
  if s.on H.AX_ONLINE a then (s.put H.AX_ONLINE 0 a).post a .nodeLost else s

/-- The bytes of a message: SERVICE, TID, STATUS 0, and its data (R234). -/
def AcycMsg.bytes (m : AcycMsg) : List Nat := toBytesBE 2 m.svc ++ [m.tid % 256, 0] ++ m.data

/-- Its fragments: 12 data bytes each (R221, R234). -/
def AcycMsg.frags (m : AcycMsg) : Nat := min 64 ((m.bytes.length + 11) / 12)

/-- A message to a node joins those that wait, with the next TID (R234). That TID counts up is the model's choice (log entry 240). -/
def State.acycPut (s : State) (r node svc : Nat) (data : List Nat) (mb : Option Nat) : State :=
  let s := s.incWrap H.ACYC_TID r
  { s with acyc := s.acyc ++ [{ ring := r, node := node, svc := svc, tid := s.get H.ACYC_TID r, data := data, mb := mb,
                                cyc := s.get H.BND_N }] }

/-- The head queries a node with IDENTIFY, unless its query is already on its way (R241, R243). -/
def State.queryNode (s : State) (r node : Nat) : State :=
  let s := s.put H.NODE_IDT (s.get H.BND_N) (nodeAt r node)
  if s.acyc.any fun m => m.ring == r && m.node == node && m.svc == 1 && m.mb.isNone then s
  else s.acycPut r node 1 [] none

/-- The head's own query to a node is given up. -/
def State.queryDrop (s : State) (r node : Nat) : State :=
  { s with acyc := s.acyc.filter fun m => !(m.ring == r && m.node == node && m.mb.isNone) }

/-- A node is lost (R243). -/
def State.nodeLost (s : State) (r node : Nat) : State :=
  let k := nodeAt r node
  if s.get H.NODE_ST k = 0 ∨ s.get H.NODE_ST k = 3 then s
  else
    let s := (s.put H.NODE_ST 3 k).put H.NODE_SEEN 0 k
    let s := (s.queryDrop r node).nrtFlag R.NRT_FLAGS_NODE_LOST r
    s.each (s.nodeAxes r node) fun s a => s.axisLost a

/-- An axis's node has answered with the identity in the axis's record, and its slot exists (R242, R243). -/
def State.nodeMatch (s : State) (a : Nat) : Bool :=
  let r := s.get H.AX_BIND a
  let k := nodeAt r (s.get H.AX_NODE a)
  s.isNirte a && s.get H.NODE_ST k == 2 && s.get R.NRT_RSTATE_STATE r == 4 &&
    s.get H.NODE_VEND k == s.get H.AX_VENDOR a && s.get H.NODE_PROD k == s.get H.AX_PROD a &&
    decide (s.get H.AX_SLOT a < s.get R.NRT_RCFG2_NSLOT r)

/-- An axis comes online or goes offline with its node's identity (R243). -/
def State.axisSeen (s : State) (a : Nat) : State :=
  if s.nodeMatch a then
    if s.on H.AX_ONLINE a then s else (s.put H.AX_ONLINE 1 a).post a .nodeOnline
  else if s.on H.AX_ONLINE a then
    (s.axisLost a).nrtFlag R.NRT_FLAGS_NODE_LOST (s.get H.AX_BIND a)
  else s

/-- A node has answered IDENTIFY (R234, R243). With an identity that some axis of it does not have it is lost for that axis, and seen:
the query goes out to it again. -/
def State.identified (s : State) (r node vend prod : Nat) : State :=
  let k := nodeAt r node
  let s := (s.put H.NODE_VEND vend k).put H.NODE_PROD prod k
  let as := s.nodeAxes r node
  let bad := fun a => s.get H.AX_VENDOR a != vend || s.get H.AX_PROD a != prod
  let some_ := as.any bad
  let s := s.when (some_ && s.get H.NODE_ST k != 3 && !s.on H.NODE_SEEN k) fun s => s.nrtFlag R.NRT_FLAGS_NODE_LOST r
  let s := (s.put H.NODE_ST (if some_ && as.all bad then 3 else 2) k).put H.NODE_SEEN (b2n some_) k
  let s := s.when some_ fun s => s.put H.NODE_IDT (s.get H.BND_N) k
  s.each as fun s a => s.axisSeen a

/-- A lost node is seen again: the head sends it IDENTIFY (R243). -/
def State.nodeSeen (s : State) (r node : Nat) : State :=
  let k := nodeAt r node
  if s.get H.NODE_ST k = 3 ∧ !s.on H.NODE_SEEN k then (s.put H.NODE_SEEN 1 k).queryNode r node else s

/-! ### The scan -/

/-- The place of entry `i` of the last scan of a ring. -/
def scanAt (r i : Nat) : Nat := 0x5E200000 + 0x4000 * r + 2 * i

/-- The entries of the last scan. -/
def State.scanList (s : State) (r : Nat) : List Nat :=
  (List.range (s.get H.SCAN_N r)).map fun i => s.load (scanAt r i) 2

/-- The entries of a scan stored. -/
def State.scanPut (s : State) (r hops : Nat) (es : List Nat) : State :=
  let s := s.setBytes (scanAt r 0) ((es.take 4096).flatMap (toBytes 2))
  ((s.put H.SCAN_N (min 4096 es.length) r).put H.SCAN_HAVE 1 r).put H.SCAN_HOPS hops r

/-- The addresses of scan entries (R241). -/
def scanAddrs (es : List Nat) : List Nat := es.map fun e => e % 4096

/-- The nodes of a completed scan are present, those it does not find are lost (R243). -/
def State.scanNodes (s : State) (r : Nat) (es : List Nat) : State :=
  let as := scanAddrs es
  let s := s.each (List.range 4096) fun s n =>
    if s.get H.NODE_ST (nodeAt r n) != 0 && !as.contains n then s.nodeLost r n else s
  s.each as fun s n =>
    if s.get H.NODE_ST (nodeAt r n) = 0 then s.put H.NODE_ST 1 (nodeAt r n) else s.nodeSeen r n

/-! ### Start and stop (R241, R242, R280) -/

/-- The ports of a ring: the launch port and the return port of a single module. -/
def ringPorts (r : Nat) : List Nat := [2 * r, 2 * r + 1]

/-- A ring is refused: STATE 6, and its request fails (R241). -/
def State.ringRefuse (s : State) (r code : Nat) : State :=
  let s := (s.put R.NRT_RSTATE_STATE 6 r).put R.NRT_RSTATE_REFUSE code r
  s.failAll 0x0500 r (0x0500 + code) (toBytes 4 code)

/-- Step 2 begins: the scan (R241), whose frames are launched with ENTRIES at 0. -/
def State.ringScan (s : State) (r : Nat) : State :=
  let s := (((s.put R.NRT_RSTATE_STATE 2 r).put H.SCAN_HAVE 0 r).put H.MEAS 0 r).put H.MEAS_N 0 r
  (s.put H.PRB_OUT 0 r).quietSend r 3 false []

/-- The configuration fields of a ring. -/
def ringCfg : List Fld :=
  [R.NRT_RCFG_EN, R.NRT_RCFG_MODE, R.NRT_RCFG_C, R.NRT_RCFG_SSIZE, R.NRT_RCFG_CYC, R.NRT_RCFG2_NSLOT,
   R.NRT_RCFG2_NZHV, R.NRT_RCFG2_NCOMMA, R.NRT_RCFG3_NHC, R.NRT_RCFG3_ETYPE, R.NRT_RCFG4_REF, R.NRT_RCFG4_REF2]

/-- The base period may be another: deadlines counted in base periods are staged anew (R138), and U and OVERLOAD follow
(R157, R158). -/
def State.baseChanged (s : State) : State :=
  let s := s.each (List.range 4) fun s r => s.when (bit (s.get H.SUP_DESC r) 10) fun s =>
    s.stageAll [(s.get H.SUP_DESC r % 1024, s.supDesc r (s.ringAxes r).length)]
  let s := s.each (List.range 64) fun s t => s.when (bit (s.get H.LFF_DESC t) 10) fun s =>
    s.stageAll [(s.get H.LFF_DESC t % 1024, s.lffDesc t)]
  (s.each s.axes fun s a => s.relink a).loadUpdate

/-- The clock runs from REFCLK25 alone (R235): until a reference has given its first offset, and without Ring A. -/
def State.dckOwn (s : State) : State :=
  (((s.put R.DCK_STATE_STATE 0).put R.DCK_STATE_REFSRC 0).put H.DC_GOOD 0).put H.DC_STUCK 0

/-- Configuration words stored for a ring; NZHV is 0 on a CX7420-NX (R220, R249). Both rings run the same cycle time (R211): a
ring configured beside another takes that ring's; that the earlier one's stands is the model's choice (log entry 241). -/
def State.ringStore (s : State) (r : Nat) (ws : List Nat) : State :=
  let s := (s.putWords ringCfg (0x50000 + 0x100 * r) ws).clampAll ringCfg r
  let s := s.when (!s.on R.HIF_ID_VARIANT) fun s => s.put R.NRT_RCFG2_NZHV 0 r
  let s := s.when (s.on R.NRT_RCFG_EN (1 - r)) fun s => s.put R.NRT_RCFG_CYC (s.get R.NRT_RCFG_CYC (1 - r)) r
  let s := s.when (r == 0 && !s.on R.NRT_RCFG_EN 0) fun s => s.dckOwn
  s.baseChanged.dirty

/-- A ring starts with its configuration (R241); a bypass request that holds the switches closed keeps them so (R246). -/
def State.ringStart (s : State) (r : Nat) : State :=
  let s := (s.put R.NRT_RSTATE_REFUSE 0 r).put R.NRT_RSTATE_SPLIT 0 r
  let c := s.refuseCfg r
  if c ≠ 0 then s.ringRefuse r c
  else
    let s := (s.put R.NRT_RSTATE_STATE 1 r).put H.LINK_T s.now r
    let s := s.when (!s.on H.BYP_HOLD r) fun s => s.each (ringPorts r) fun s p => s.put R.NRT_PSTAT_BYP 0 p
    if (ringPorts r).all fun p => s.on R.NRT_PSTAT_LINK p then s.ringScan r else s

/-- Waiting configurations of a ring that has not reached cyclic operation end (R280). -/
def State.ringAbandon (s : State) (r : Nat) : State := s.failAll 0x0500 r 0x0512 (toBytes 4 0)

/-- A ring launches no more: every node on it is lost (R280). -/
def State.ringHalt (s : State) (r : Nat) : State :=
  let s := (s.put H.RSTOP 1 r).each (List.range 4096) fun s n => s.nodeLost r n
  let s := s.each (List.range 4096) fun s n => s.put H.NODE_ST 0 (nodeAt r n)
  (s.put H.SPLITP 0 r).put R.NRT_RSTATE_HEAD 0 r

/-- The stop of a ring completes once every axis on it has reached Configured: STATE 0, its requests are answered, and a
start that waits begins (R280). -/
def State.ringStopped (s : State) (r : Nat) : State :=
  if s.on H.RSTOP r && (s.ringAxes r).all (fun a => decide (s.axSt a ≤ 1)) then
    let s := ((s.put H.RSTOP 0 r).put R.NRT_RSTATE_STATE 0 r).put R.NRT_RSTATE_SPLIT 0 r
    let s := s.when (r == 0) fun s => s.dckOwn
    let s := s.doneAll 0x0501 r
    if s.on H.RNEW r then
      let ws := (List.range 4).map fun k => s.get H.RING_W r k
      let s := (s.put H.RNEW 0 r).ringStore r ws
      if bit (ws.getD 0 0) 0 then s.ringStart r else s.doneAll 0x0500 r (toBytes 4 0)
    else s
  else s

/-- A ring stops: at once where it launches nothing, else when its axes have reached Configured (R280). -/
def State.ringStop (s : State) (r : Nat) : State :=
  if s.get R.NRT_RSTATE_STATE r = 4 then s.ringHalt r
  else ((s.put H.RSTOP 1 r).each (List.range 4096) fun s n => s.put H.NODE_ST 0 (nodeAt r n)).ringStopped r

/-- The unit forwards frames and heads no ring: standby, rejoining or isolated (R415, R430). -/
def State.isForwarder (s : State) : Bool := s.isStandby || s.get R.CNJ_STATE_ROLE == 4

/-- The measurements of step 3 are complete: the last checks, then cyclic operation (R241, R242). -/
def State.ringMeasured (s : State) (r : Nat) : State :=
  if s.get R.NRT_RSTATE_STATE r ≠ 3 ∨ s.get H.MEAS r ≠ 15 then s
  else
    let ap := applyFor (s.get R.NRT_MAXRX_PS r)
    let s := s.put R.NRT_APPLY_NS ap r
    if s.lateL r then s.ringRefuse r 1
    else if s.shortG r then s.ringRefuse r 2
    else if s.ringCyc r < ap then s.ringRefuse r 10
    else
      let s := ((s.put R.NRT_RSTATE_STATE 4 r).put R.NRT_RSTATE_HEAD (b2n (!s.isForwarder)) r).when (r == 0) fun s =>
        (((s.put H.DC_FIRST 0).put H.DC_REFT 0).put H.DC_PHASE 0).dckOwn
      let s := s.put H.RING_N0 (s.get H.BND_N + 1) r
      let as := scanAddrs (s.scanList r)
      let s := s.when (r == 0 && s.get R.NRT_RCFG4_REF 0 == 0) fun s => s.put R.NRT_RCFG4_REF (as.headD 0) 0
      let s := s.each as fun s n => s.queryNode r n
      let s := (s.put R.NRT_TOKEN_CID (s.get R.HIF_CID) r).put R.NRT_TOKEN_EPOCH (s.get R.CNJ_EPOCH) r
      s.doneAll 0x0500 r (toBytes 4 0)

/-- A switch-over is due for a cause, from now and from the cycle in progress on where none was due (R430, R432). -/
def State.swMark (s : State) (c : Nat) : State :=
  (s.when (!s.on H.CNJ_SWP) fun s => (s.put H.CNJ_SWT s.now).put H.CNJ_SWB (s.get H.BND_N)).put H.CNJ_SWP c

/-- An active unit that is giving up sends the frame with every command half at V = 0: one that it launches after the switch-over
was decided (R432). -/
def State.swGap (s : State) (f : Nat) : Bool :=
  s.get R.CNJ_STATE_ROLE == 1 && s.on H.CNJ_SWP && decide (s.get H.CNJ_SWB < f)

/-- A standby declares the active unit lost when Conjunction is lost and NP1 or NP3 has no link or an expected frame has
not come (R433). -/
def State.cnjCheck (s : State) : State :=
  let dark := (List.range 2).any fun r => s.on R.NRT_RCFG_EN r && !s.on R.NRT_PSTAT_LINK (2 * r + 1)
  s.when (s.get R.CNJ_STATE_ROLE == 2 && s.get R.CNJ_STATE_LANES == 0 && (dark || s.on H.CNJ_EFM)) fun s =>
    (s.swMark 3).put H.CNJ_ISO 0

/-- A break of a ring: split mode from the next boundary; in split mode it goes on (R244). -/
def State.ringBreak (s : State) (r : Nat) : State := s.put H.SPLITP (if s.on R.NRT_RSTATE_SPLIT r then 0 else 1) r

/-- A port loses its link: the loss counts; on the return port of a head it brings split mode (R244). -/
def State.linkDown (s : State) (p : Nat) : State :=
  let r := p / 2
  if 4 ≤ p ∨ !s.on R.NRT_PSTAT_LINK p then s
  else
    let s := (s.put R.NRT_PSTAT_LINK 0 p).incSat R.NRT_PCNT_DOWN p
    let s := s.when (p % 2 == 1 && s.get R.NRT_RSTATE_STATE r == 4 && s.on R.NRT_RSTATE_HEAD r) fun s =>
      s.ringBreak r
    s.cnjCheck

/-! ### Grants (R232) -/

/-- The addresses of a round-robin over the scan, in ascending order, from after `k`. -/
def roundRobin (as : List Nat) (k : Nat) : List Nat :=
  let l := (List.range 4096).filter fun a => as.contains a
  l.filter (fun a => decide (k < a)) ++ l.filter fun a => decide (a ≤ k)

/-- The first `n` of a list repeated. -/
def cyclic (l : List Nat) : Nat → List Nat → List Nat
  | 0, _ => []
  | n + 1, [] => match l with | [] => [] | x :: t => x :: cyclic l n t
  | n + 1, x :: t => x :: cyclic l n t

/-- The node Commas of the next frame of a ring are granted: once to the nodes with MP set in the latest frame to return, a second
time, then round-robin (R232). -/
def State.grantAll (s : State) (r : Nat) : State :=
  let n := s.get R.NRT_RCFG2_NCOMMA r - s.get R.NRT_RCFG3_NHC r
  let mp := (s.mpq.filter fun p => p.1 == r).map (·.2)
  let first := (mp ++ mp).take n
  let rr := roundRobin (scanAddrs (s.scanList r)) (s.get H.NRT_RR r)
  let rest := if rr.isEmpty then [] else cyclic rr (n - first.length) rr
  let s : State := { s with
    grants := s.grants.filter (fun p => p.1 != r) ++ (first ++ rest).map (fun a => (r, a)) }
  match rest.getLast? with
  | some a => s.put H.NRT_RR a r
  | none => s

/-- The first message of a ring that has a fragment to send: none goes before the answer to an earlier one to its node (R234). -/
def nextMsg (r : Nat) : List (Nat × Nat) → List AcycMsg → Option AcycMsg
  | _, [] => none
  | busy, m :: t =>
    if m.ring = r ∧ !busy.contains (m.ring, m.node) ∧ m.sent < m.frags then some m
    else nextMsg r ((m.ring, m.node) :: busy) t

/-- One head Comma is filled: the next fragment of the oldest message that has one, or nothing (R221, R231, R234). The order among
messages and the form of an empty head Comma are the model's choice (log entry 240). -/
def State.headComma (s : State) (r c : Nat) : State :=
  let at_ := commaImg r + 16 * c
  match nextMsg r [] s.acyc with
  | none => s.setBytes at_ (commaBytes 0x8000 0 [])
  | some m =>
    let d := (m.bytes.drop (12 * m.sent)).take 12
    let last := m.sent + 1 == m.frags
    let ctrl := b2n (m.sent == 0) * 2 ^ 15 + b2n last * 2 ^ 14 + m.sent * 256 + d.length
    let s : State := { s with acyc := s.acyc.map fun x =>
      if x = m then { x with sent := x.sent + 1, cyc := s.get H.BND_N } else x }
    s.setBytes at_ (commaBytes (0x8000 + m.node) ctrl d)

/-- The Commas of the frame to be launched: head Commas with their fragments, node Commas with their grants (R221, R231 to
R233). -/
def State.commaAll (s : State) (r : Nat) : State :=
  let nhc := min (s.get R.NRT_RCFG3_NHC r) (s.get R.NRT_RCFG2_NCOMMA r)
  let s := s.each (List.range nhc) fun s c => s.headComma r c
  let s := s.grantAll r
  let gs := s.grants.filter fun p => p.1 == r
  s.each (List.range (s.get R.NRT_RCFG2_NCOMMA r - nhc)) fun s k =>
    s.setBytes (commaImg r + 16 * (nhc + k)) (commaBytes ((gs.getD k (r, 0)).2) 0 [])

/-! ### Landings (R140, R218, R219, R223, R245) -/

/-- The frame that a feedback half landing now belongs to (R32, R33): latest launched, less the cycles the wire time
takes. -/
def State.landFrame (s : State) (r slot : Nat) : Nat :=
  s.get H.BND_N - (s.get R.NRT_R_PS r / 1000 + s.wireNs r (86 + s.slotSize r * (slot + 1))) / max 1 (s.ringCyc r)

/-- The engine words of the axis exchange of a half: word w from bytes 4w up, bit 31 in the first byte (R219). -/
def halfWords (h : List Nat) : List Nat := (List.range 4).map fun w => ofBytesBE ((h.drop (4 * w)).take 4)

/-- The inbox bytes of a feedback half (R110, R219). Bits [31:16] of the word at 0x10 and the word at 0x14 the table leaves
open for a half: the model puts 0 (DESIGN CHOICE, log entry 272). -/
def halfPkt (h : List Nat) : List Nat := ofWords (halfWords h) ++ ofWords [ofBytesBE (h.take 2), 0]

/-- A half with its V cleared (R223). -/
def clearV (h : List Nat) : List Nat :=
  match h with
  | [] => []
  | b :: t => b % 128 :: t

/-- V of a half. -/
def halfV (h : List Nat) : Bool := bit (h.headD 0) 7

/-- MP of a half. -/
def halfMP (h : List Nat) : Bool := bit (h.headD 0) 5

/-- The place of a slot's input image (R261). -/
def piIn (r slot : Nat) : Nat := 0x40204000 + 0x2000 * r + 0x20 * slot

/-- The place of a slot's output image (R261). -/
def piOut (r slot : Nat) : Nat := 0x40200000 + 0x2000 * r + 0x20 * slot

/-- The place of the image bytes last copied for a slot (R271). -/
def piHeld (r slot : Nat) : Nat := 0x5E300000 + 0x2000 * r + 0x20 * slot

/-- The place of the command half last fixed for a slot (R222). -/
def sentHalf (r slot : Nat) : Nat := 0x5E000000 + 0x4000 * r + 0x40 * slot

/-- The place of a half kept until the other copy lands (R245). -/
def heldHalf (r slot : Nat) : Nat := 0x5E100000 + 0x4000 * r + 0x40 * slot

/-- The descriptors released by a slot's landing in frame `f` (R140): enabled, REL = 0, not yet released for it. -/
def State.landDescs (s : State) (r slot f : Nat) : List Nat :=
  s.enabled.filter fun d =>
    s.get R.SCH_DESC_REL d == 0 && s.get R.SCH_DESC_RING d == r && s.get R.SCH_DESC_SLOT d == slot &&
    f % divOf (s.get R.SCH_DESC_DIV d) == s.get R.SCH_DESC_PHASE d % divOf (s.get R.SCH_DESC_DIV d) &&
    !(bit (s.get H.REL_F d) 64 && decide (f ≤ s.get H.REL_F d % 2 ^ 64))

/-- A half of frame `f` releases the clauses of its slot (R140). -/
def State.landRelease (s : State) (r slot f : Nat) (h : List Nat) : State :=
  s.each (s.landDescs r slot f) fun s d =>
    (s.put H.REL_F (2 ^ 64 + f) d).release d 0 f (s.bndTime f) (halfPkt h)

/-- The node that owns a slot: that of the axis bound to it; of a slot without an axis, a value the spec leaves open: it names no
register for the owner (log entry 242). -/
def State.slotNode (s : State) (r slot : Nat) : Nat :=
  match s.axisOfSlot r slot with
  | some a => s.get H.AX_NODE a
  | none => Config.slotOwner r slot % 4096

/-- A half that lands with V at 1 says that its node is there (R243). -/
def State.landNode (s : State) (r slot : Nat) (h : List Nat) : State :=
  s.when (halfV h) fun s => (s.put H.SLOT_V0 0 (256 * r + slot)).nodeSeen r (s.slotNode r slot)

/-- The frame of a half that lands in split mode: that of the other copy's half that waits, where a boundary may have passed between
the two and this copy's half of that frame has not come yet. SLOT_LANDING names no frame: the pairing is the model's (DESIGN
CHOICE, log entry 279). -/
def State.splitFrame (s : State) (r slot : Nat) (copy : Bool) : Nat :=
  let f := s.landFrame r slot
  let k := 256 * r + slot
  let g := s.get H.LAND_F k
  if bit g 64 && s.on H.LAND_C k != copy && decide (s.get H.LAND_L k (b2n copy) < g) && g % 2 ^ 64 + 1 == f then g % 2 ^ 64 else f

/-- A half reaches its slot's input image and releases its clauses (R140, R271). -/
def State.landTake (s : State) (r slot f : Nat) (h : List Nat) : State :=
  (s.setBytes (piIn r slot) (h ++ List.replicate (32 - h.length) 0)).landRelease r slot f h

/-- A half of a frame lands: node, input image, and the release, in split mode after the second copy (R223, R245, R271). -/
def State.landHalf (s : State) (r slot : Nat) (copy codeErr : Bool) (half : List Nat) : State :=
  let n := s.slotSize r / 2
  let h := (List.range n).map fun k => half.getD k 0 % 256
  let k := 256 * r + slot
  let h := if codeErr || s.on H.FB_BAD k then clearV h else h
  let s := (s.put H.FB_BAD 0 k).landNode r slot h
  let p := if copy then 2 * r else 2 * r + 1
  let s := s.when codeErr fun s =>
    ((s.incSat R.NRT_CNT_CODE r).incSat R.NRT_PCNT_CODE p).report 0x0B p ((s.axisOfSlot r slot).getD 0xFFFF) slot
  if !s.on R.NRT_RSTATE_SPLIT r then s.landTake r slot (s.landFrame r slot) h
  else
    let f := s.splitFrame r slot copy
    let s := s.put H.LAND_L (2 ^ 64 + f) k (b2n copy)
    if s.get H.LAND_F k = 2 ^ 64 + f ∧ s.on H.LAND_C k ≠ copy then
      let g := s.bytes (heldHalf r slot) n
      let main := if copy then g else h
      let other := if copy then h else g
      (s.put H.LAND_F 0 k).landTake r slot f (if halfV main then main else if halfV other then other else main)
    else ((s.setBytes (heldHalf r slot) h).put H.LAND_F (2 ^ 64 + f) k).put H.LAND_C (b2n copy) k

/-! ### The command half (R222, R513) -/

/-- The frame whose slot has its cut-off now: that of the latest boundary, or the next where the cut-off comes before the
boundary (R33). -/
def State.cutFrame (s : State) (r slot : Nat) : Nat :=
  if s.wireNs r (86 + s.slotSize r * slot) < 400 then s.get H.BND_N + 1 else s.get H.BND_N

/-- An instance that serves the sample whose command goes into frame `f` of an axis: its own clause, or that of its group (R140,
R155). -/
def State.serves (s : State) (a f : Nat) (x : Inst) : Bool :=
  s.outFrame a x.cyc == f &&
    ((x.rtype == 0 && (x.recd == a && (x.ty == 0 || x.ty == 1 || x.ty == 2 || x.ty == 4 || x.ty == 8) ||
        (x.ty == 1 && s.groupOf a != 255 && s.groupOf x.recd == s.groupOf a))) ||
      (x.ty == 3 && s.groupOf a != 255 && x.recd == s.groupOf a))

/-- The cut-off of a frame has come: what was to be delivered into it and has not been is past its deadline (R33, R146, R152). -/
def State.cutDue (s : State) (a f : Nat) : State :=
  s.each (s.insts.filter fun x => s.serves a f x && !x.late) fun s x =>
    match s.insts.find? fun y => y.id == x.id with
    | some y => s.pastDeadline y
    | none => s

/-- The four words of a slot's command half in frame `f` and whether they are stale, for an axis (R222, R513); in Standby V is 0
(R464), and so it is in a frame that an outgoing unit launches once it has given up (R432). FRST halves go out in the first cycle and the sixteen after it. -/
def State.cutWords (s : State) (a f : Nat) : List Nat × Bool :=
  let w := fun (l : List Nat) (st : Nat) => (l.getD 0 0 % 2 ^ 30 + 2 ^ 31 + st * 2 ^ 30) ::
    (List.range 3).map fun k => l.getD (k + 1) 0
  let last := (List.range 4).map fun k => s.get H.OUT_W a k
  let zero := ([0, 0, 0, 0], false)
  let st := s.axSt a
  if s.get R.PWR_STATE_STATE = 2 ∨ s.swGap f then zero
  else if s.on H.FRST_ON a ∧ s.get H.FRST_N a < 17 then
    ([2 ^ 31 + s.get R.AXS_STATUS_SAMPLE_SEQ a * 65536 + 6, 0, 0, 0], false)
  else if st ≤ 2 then zero
  else if (st = 6 ∨ st = 7) ∧ s.on H.OUT_V a ∧ !bit (last.getD 0 0) 0 then zero
  else match s.outs.find? fun o => o.axis == a && o.frame == f with
    | some o => if o.ovr then (if s.on H.OUT_V a then (w last 1, true) else zero) else (w o.words 0, false)
    | none => if s.on H.OUT_V a then (w last 0, false) else zero

/-- The words that frame `f` carries are the last published; entries of the frames up to it are gone (R222). -/
def State.cutTake (s : State) (a f : Nat) : State :=
  let s := match s.outs.find? fun o => o.axis == a && o.frame == f && !o.ovr with
    | some o => (s.each (List.range 4) fun s k => s.put H.OUT_W (o.words.getD k 0) a k).put H.OUT_V 1 a
    | none => s
  { s with outs := s.outs.filter fun o => o.axis != a || decide (f < o.frame) }

/-- The image bytes of a slot at its cut-off: copied, or held (R271). -/
def State.piCopy (s : State) (r slot : Nat) : State :=
  if s.on (if r = 0 then R.HIF_PI_CTL_HOLD_A else R.HIF_PI_CTL_HOLD_B) then s
  else s.setBytes (piHeld r slot) (s.bytes (piOut r slot) 32)

/-- The place of axis `a`'s digest record of frame `f` (R424), with 1 + f behind its 24 bytes. -/
def digRec (f a : Nat) : Nat := 0x5E400000 + 0x4000 * (f % 2) + 32 * a

/-- The digest record of an axis at a cut-off, kept in a pair (R424): axis number, half header, outbox words, AXS_STATUS. -/
def State.digKeep (s : State) (a f : Nat) (half : List Nat) : State :=
  if s.get R.CNJ_STATE_ROLE = 0 ∨ 3 < s.get R.CNJ_STATE_ROLE then s
  else
    let st := toBytesBE 4 (s.word R.astFields (0x20000000 + 0x10 * a))
    s.setBytes (digRec f a) (toBytesBE 2 a ++ half.take 2 ++ half.take 16 ++ st ++ toBytes 8 (f + 1))

/-- The cut-off of a slot: its command half is fixed (R222, R271), in the first cycle frame at V = 0 throughout (R241), on a standby into its shadow frame (R422). -/
def State.cutSlot (s : State) (r slot : Nat) : State :=
  let runs := s.on R.NRT_RSTATE_HEAD r || s.isStandby
  if s.get R.NRT_RSTATE_STATE r ≠ 4 ∨ !runs ∨ s.get R.NRT_RCFG2_NSLOT r ≤ slot then s
  else
    let n := s.slotSize r / 2
    let s := s.piCopy r slot
    let ext := fun (k : Nat) => (s.bytes (piHeld r slot + k) (n - k))
    match s.axisOfSlot r slot with
    | some a =>
      let f := s.cutFrame r slot
      let s := s.cutDue a f
      let s := s.when (s.on H.CM_BAD (256 * r + slot)) fun s =>
        (s.put H.CM_BAD 0 (256 * r + slot)).outPut { axis := a, frame := f, ovr := true }
      let p := s.cutWords a f
      let half := p.1.flatMap (toBytesBE 4) ++ ext 16
      let s := ((s.setBytes (sentHalf r slot) half).digKeep a f half).cutTake a f
      let s := s.when (s.on H.FRST_ON a) fun s => s.incSat H.FRST_N a
      s.when p.2 fun s => s.incSat R.NRT_CNT_STALE r
    | none =>
      if s.cutFrame r slot ≤ s.get H.RING_N0 r ∨ s.get R.PWR_STATE_STATE = 2 ∨ s.swGap (s.cutFrame r slot) then s.setBytes (sentHalf r slot) (List.replicate n 0)
      else s.setBytes (sentHalf r slot) (toBytesBE 2 (2 ^ 15 + s.cutFrame r slot % 2 ^ 11) ++ ext 2)

/-- The cycle frame last launched on a ring as it stands on the wire, from its first preamble byte to its FCS (R212): the halves and
containers are those fixed at their cut-offs, the feedback halves are launched as 0. The copy of split mode leaves with COPY
at 1 (R213, R244, R245). An injection inverts the FCS (R458). -/
def State.wireFrame (s : State) (r : Nat) (copy : Bool) : List Nat :=
  let n := s.slotSize r / 2
  let head := s.bytes (headImg r) 86
  let head := if copy then head.take 24 ++ [head.getD 24 0 ||| 0x20] ++ head.drop 25 else head
  let l := head ++ ((List.range (s.get R.NRT_RCFG2_NSLOT r)).flatMap fun i =>
      s.bytes (sentHalf r i) n ++ List.replicate n 0) ++
    s.bytes (contAt r 0) (16 * s.get R.NRT_RCFG2_NZHV r) ++ s.bytes (commaImg r) (16 * s.get R.NRT_RCFG2_NCOMMA r)
  l ++ if s.on H.WIRE_INV r then (frameFcs (l.drop 8)).map fun b => 255 - b else frameFcs (l.drop 8)

end Sys2Proof.Machine
end

