-- ==== Sys2Proof/Machine/Nirte.lean ====
section
/-! DEFINITION. The commands of the Nirte rings (R140, R141, R207, R223 to R246). -/

namespace Sys2Proof.Machine

/-! ### Feedback -/

/-- SLOT_LANDING: a feedback half lands (R140). -/
def execSlotLanding (r slot : Nat) (copy codeErr : Bool) (half : List Nat) (s : State) : Out :=
  .next (if 2 ≤ r ∨ s.get R.NRT_RCFG2_NSLOT r ≤ slot ∨ s.get R.NRT_RSTATE_STATE r ≠ 4 then s
    else s.landHalf r slot copy codeErr half)

/-- The frame whose release of a REL = 0 descriptor its backstop concerns: the next due after the last released, or the
latest due where none has been. -/
def State.backFrame (s : State) (d : Nat) : Nat :=
  let v := divOf (s.get R.SCH_DESC_DIV d)
  if bit (s.get H.REL_F d) 64 then s.get H.REL_F d % 2 ^ 64 + v
  else
    let n := s.get H.BND_N
    let ph := s.get R.SCH_DESC_PHASE d % v
    n - (n + v - ph) % v

/-- The backstop time of a REL = 0 descriptor for frame `f`, ns: its engine-side deadline less (BUDGET + 160) × 2 ns and 1 µs
(R141). -/
def State.backTime (s : State) (d f : Nat) : Nat :=
  s.deadlineOf 1024 d f s.now - (s.get R.SCH_DESC_BUDGET d + 160) * 2 - 1000

/-- The inbox of a backstop release: zero, or in split mode the half of a slot that only one of the two copies has reached (R141,
R245; DESIGN CHOICE, log entry 279). -/
def State.backPkt (s : State) (d f : Nat) : List Nat :=
  let r := s.get R.SCH_DESC_RING d
  let slot := s.get R.SCH_DESC_SLOT d
  if s.on R.NRT_RSTATE_SPLIT r ∧ s.get H.LAND_F (256 * r + slot) = 2 ^ 64 + f then
    halfPkt (s.bytes (heldHalf r slot) (s.slotSize r / 2))
  else []

/-- BACKSTOP_RELEASE: the clause runs with a zero inbox, from its backstop time on (R141). -/
def execBackstopRelease (d : Nat) (s : State) : Out :=
  let f := s.backFrame d
  .next (if 1024 ≤ d ∨ !s.on R.SCH_DESC_EN d ∨ s.get R.SCH_DESC_REL d ≠ 0 ∨ s.get H.BND_N < f ∨ !s.timeUp (s.backTime d f)
    then s
    else ((s.clockTo (s.backTime d f) 0).put H.REL_F (2 ^ 64 + f) d).release d 0 f (s.bndTime f) (s.backPkt d f))

/-! ### The frame back at the head -/

/-- A field of a received frame, whose bytes are given from the destination address on, by its wire byte (R212). -/
def wireField (l : List Nat) (w n : Nat) : Nat := ofBytesBE ((List.range n).map fun k => l.getD (w - 8 + k) 0 % 256)

/-- A frame that a ring of this module takes: its EtherType, its version, and a TYPE that is not reserved (R205). -/
def State.frameKnown (s : State) (r : Nat) (l : List Nat) : Bool :=
  wireField l 20 2 == s.get R.NRT_RCFG3_ETYPE r && wireField l 22 1 == 1 && decide (1 ≤ wireField l 23 1) &&
    decide (wireField l 23 1 ≤ 5)

/-- A rate correction within ±100 ppm, in units of 2^(-40); the spec gives no law for it: a free value, the one after D_ref's (R237,
log entry 124). -/
def State.dcRate (s : State) : State :=
  ((s.puti R.DCK_RATE (((s.freeAt 1 32 % 219902325 : Nat) : Int) - 109951162)).useFree).useFree

/-- The clock is set back by `o` ps, and the boundaries with it (R237). -/
def State.dcStep (s : State) (o : Int) : State :=
  let u := ((s.now * 65536 + s.get R.DCK_FRAC : Nat) : Int) - o * 65536 / 1000
  let b := ((s.get H.BND_T : Nat) : Int) - o / 1000
  ((s.put R.DCK_TIME (u / 65536).toNat).put R.DCK_FRAC (u % 65536).toNat).put H.BND_T b.toNat

/-- D_ref, the path delay of the reference, ps: of the first node that is the link delay of the launch port; of another node the spec
does not say how the head learns it, a free value (R236, R239, log entry 243). -/
def State.dcRefDelay (s : State) : Nat :=
  if s.refAddr 0 = (scanAddrs (s.scanList 0)).headD 0 then s.get R.NRT_PD_PS 0 else s.free 32

/-- A valid offset of the distributed clock, ps (R237, R238): the first after ring start steps the time once, the first from a backup
reference is its starting phase; from then on the clock is corrected by rate alone. R237 puts the step before the first cycle
frame, but only a cycle frame brings a REF_TIME (R235): the model steps when the first has come round (DESIGN CHOICE, log entry
260). -/
def State.dcOffset (s : State) (o : Int) : State :=
  let s := s.when (s.on H.DC_NEWREF) fun s => (s.puti H.DC_PHASE o).put H.DC_NEWREF 0
  let o := o - s.geti H.DC_PHASE
  let s := s.when (!s.on H.DC_FIRST) fun s => (s.dcStep o).put H.DC_FIRST 1
  let s := (s.puti R.DCK_OFFSET o).dcRate
  let s := s.when (s.get R.DCK_STATE_STATE == 0 || s.get R.DCK_STATE_STATE == 3) fun s =>
    (s.put R.DCK_STATE_STATE 1).when (s.get R.DCK_STATE_REFSRC == 0) fun s => s.put R.DCK_STATE_REFSRC 1
  let s := s.put H.DC_GOOD (if absI o ≤ 20000 then min 16 (s.get H.DC_GOOD + 1) else 0)
  if s.get R.DCK_STATE_STATE = 2 ∧ 100000 < absI o then
    ((s.put R.DCK_STATE_STATE 1).incSat R.DCK_LOCKLOSS).nrtFlag R.NRT_FLAGS_DC_UNLOCK 0
  else s

/-- REF_TIME has advanced with the cycles since the frame before, to ±1 µs; of the first frame there is nothing to compare it with
(R238). -/
def State.dcFresh (s : State) (n ref : Nat) : Bool :=
  let d := ((ref : Int) - s.get H.DC_REFT % 2 ^ 64) - ((n : Int) - s.get H.DC_REFN) * s.ringCyc 0
  !bit (s.get H.DC_REFT) 64 || decide (absI d ≤ 1000)

/-- The reference time of a cycle frame of Ring A that has come round, with its SFD at NP1 at `t` ns and `frac` (R237, R238). -/
def State.dcFrame (s : State) (l : List Nat) (t frac : Nat) : State :=
  let n := wireField l 26 8
  let ref := wireField l 64 8
  let fresh := s.dcFresh n ref
  let s := (s.put H.DC_REFT (2 ^ 64 + ref)).put H.DC_REFN n
  if !fresh then s.put H.DC_STUCK (min 16 (s.get H.DC_STUCK + 1))
  else
    let at_ : Int := (((t : Int) - ref) * 65536 + ((frac : Int) - wireField l 72 2)) * 1000 / 65536
    (s.put H.DC_STUCK 0).dcOffset (at_ - ((s.get R.NRT_R_PS 0 : Int) - s.dcRefDelay))

/-- A frame that fails its check at a port, or is made to by injection: counted and reported (R223, R458). -/
def State.fcsFail (s : State) (p : Nat) : State :=
  let s := (s.incSat R.NRT_PCNT_FCS p).report 0x0B p 0xFFFF 0
  s.put H.INJ_FCS (s.get H.INJ_FCS p - 1) p

/-- The feedback halves of a returned frame with V at 0, of the slots below NSLOT (R249). -/
def State.missHalves (s : State) (r : Nat) (l : List Nat) : Nat :=
  let z := s.slotSize r
  ((List.range (s.get R.NRT_RCFG2_NSLOT r)).filter fun i => wireField l (86 + z * i + z / 2) 1 < 128).length

/-- What the way the cycle frame of cycle `n` came back to port `p` says of the ring (R244): RET at 1 on NP0 (NP2) is a break; both
copies of a cycle back with RET at 0, each on the port opposite to its launch, end split mode. -/
def State.splitReturn (s : State) (p n : Nat) (ret copy : Bool) : State :=
  let r := p / 2
  if ret then s.when (p % 2 == 0) fun s => s.ringBreak r
  else if s.on R.NRT_RSTATE_SPLIT r && p % 2 == b2n !copy then
    let s := s.put H.SPL_CYC (2 ^ 64 + n) r (b2n copy)
    s.when (s.get H.SPL_CYC r (b2n !copy) == 2 ^ 64 + n) fun s => s.put H.SPLITP 2 r
  else s

/-- The first byte of the feedback half of slot `i` in a returned frame. -/
def State.retHalf (s : State) (r : Nat) (l : List Nat) (i : Nat) : Nat :=
  wireField l (86 + s.slotSize r * i + s.slotSize r / 2) 1

/-- What the feedback halves of the returned frame of cycle `n` say of their nodes: whose messages are pending (R232), and which slots
carry V at 0 once more (R243). The second copy of a cycle only adds to what the first one said. -/
def State.retHalves (s : State) (r n : Nat) (l : List Nat) : State :=
  let again := s.get H.RET_CYC r == 2 ^ 64 + n
  let slots := List.range (min 256 (s.get R.NRT_RCFG2_NSLOT r))
  let mp := ((slots.filter fun i => bit (s.retHalf r l i) 5).map fun i => (r, s.slotNode r i)).eraseDups
  let old := s.mpq.filter fun q => q.1 == r && (again || mp.contains q)
  let s : State := { s with
    mpq := s.mpq.filter (fun q => q.1 != r) ++ old ++ mp.filter fun q => !old.contains q }
  let s := s.each slots fun s i =>
    if bit (s.retHalf r l i) 7 then s.put H.SLOT_V0 0 (256 * r + i)
    else s.when (!again) fun s => s.incSat H.SLOT_V0 (256 * r + i)
  s.put H.RET_CYC (2 ^ 64 + n) r

/-- CYCLE_FRAME_RETURN: a frame has come in at port `p` of a head (R205, R223, R232, R237, R240, R243, R244): addresses and EtherType, header
and payload; the end of its SFD was at `t` ns and `frac`. A frame of another head is FOREIGN_HEAD_FRAME's. -/
def execCycleFrameReturn (p : Nat) (fcsOk : Bool) (mac header payload : List Nat) (t frac : Nat) (s : State) : Out :=
  let frame := mac ++ header ++ payload
  let r := p / 2
  .next (if 4 ≤ p ∨ s.get R.NRT_RSTATE_STATE r ≠ 4 ∨ !s.on R.NRT_RSTATE_HEAD r then s
    else if !s.frameKnown r frame then s.incSat R.NRT_PCNT_FOREIGN p
    else if wireField frame 23 1 ≠ 1 ∨ wireField frame 42 4 ≠ s.get R.HIF_CID then s
    else
      let fcsOk := fcsOk && !s.on H.INJ_FCS p
      let flags := wireField frame 24 2
      let s := s.when (!fcsOk) fun s => ((s.incSat R.NRT_CNT_FCS r).fcsFail p)
      let s := s.addSat R.NRT_CNT_MISSFB (s.missHalves r frame) r
      let n := wireField frame 26 8
      let s := (s.splitReturn p n (bit flags 15) (bit flags 13)).retHalves r n frame
      let s := s.when (wireField frame 60 2 != s.get R.NRT_TOPO_HOPS r) fun s =>
        (s.nrtFlag R.NRT_FLAGS_TOPO_CHANGE r).when (s.get H.PROBEP r == 0) fun s => s.put H.PROBEP 2 r
      s.when (p == 1 && fcsOk && !bit flags 15 && wireField frame 62 2 != 0) fun s => s.dcFrame frame t frac)

/-- DC_LOCK: the offset has stayed within 20 ns for 16 consecutive cycles (R237). -/
def execDcLock (s : State) : Out :=
  .next (if s.get R.DCK_STATE_STATE = 1 ∧ 16 ≤ s.get H.DC_GOOD then s.put R.DCK_STATE_STATE 2 else s)

/-- DC_HOLDOVER: REF_TIME has not advanced for 16 consecutive cycles; the last rate stays (R238). -/
def execDcHoldover (s : State) : Out :=
  .next (if (s.get R.DCK_STATE_STATE = 1 ∨ s.get R.DCK_STATE_STATE = 2) ∧ 16 ≤ s.get H.DC_STUCK then
      ((s.put R.DCK_STATE_STATE 3).put H.DC_HOLDN 0).put H.DC_GOOD 0
    else s)

/-- DC_REF2_SWITCH: after 64 cycles in holdover the backup node becomes the reference; its first offset will be the starting phase
(R238). -/
def execDcRef2Switch (s : State) : Out :=
  .next (if s.get R.DCK_STATE_STATE = 3 ∧ s.get R.NRT_RCFG4_REF2 0 ≠ 0 ∧ 64 ≤ s.get H.DC_HOLDN then
      ((((s.put R.DCK_STATE_REFSRC 2).put R.DCK_STATE_STATE 1).put H.DC_NEWREF 1).put H.DC_REFT 0).put H.DC_STUCK 0
    else s)

/-- A received frame with `n` bytes at a wire byte replaced. -/
def wirePut (l : List Nat) (w : Nat) (bs : List Nat) : List Nat := l.take (w - 8) ++ bs ++ l.drop (w - 8 + bs.length)

/-- What a forwarding element changes in a frame that passes: HOPS, and in a probe ACC, to which it adds the delay of the link it came
over and its own residence (R207, R239). -/
def forwarded (l : List Nat) (link resid : Nat) : List Nat :=
  let l := wirePut l 60 (toBytesBE 2 ((wireField l 60 2 + 1) % 65536))
  if wireField l 23 1 = 2 then wirePut l 86 (toBytesBE 8 (wireField l 86 8 + link + resid)) else l

/-- The FCS of a frame as forwarded: inverted where the frame came in with a bad one (R223). -/
def forwardFcs (l : List Nat) (ok : Bool) : List Nat := if ok then frameFcs l else (frameFcs l).map fun b => 255 - b

/-- FRAME_FORWARD: a frame passes a non-head in through port `p` (R205, R207, R223, R229, R239): addresses and
EtherType, header and payload; `resid` its residence here in ps. Peer-delay frames are not forwarded. -/
def execFrameForward (p : Nat) (fcsOk : Bool) (mac header payload : List Nat) (resid : Nat) (s : State) : Out :=
  .next (
    let frame := mac ++ header ++ payload
    let r := p / 2
    let ok := fcsOk && !s.on H.INJ_FCS p
    let ty := wireField frame 23 1
    if 4 ≤ p ∨ s.on R.NRT_RSTATE_HEAD r then s
    else if !s.frameKnown r frame then s.incSat R.NRT_PCNT_FOREIGN p
    else if 4 ≤ ty then s.when (!ok) fun s => s.fcsFail p
    else
      let link := s.get R.NRT_PD_PS p
      let out := forwarded frame link resid
      let s := (s.setBytes (fwdImg p) (out ++ forwardFcs out ok)).put H.FWD_LEN (out.length + 4) p
      if !ok then s.fcsFail p
      else
        let s := s.when (ty == 2) fun s => s.put H.NRT_D (wireField frame 86 8 + link) r (p % 2)
        if ty ≠ 1 then s
        else
          let s := s.put H.CNJ_EFM 0
          let s := (s.put R.NRT_APPLY_NS (wireField frame 74 4) r).put H.FWD_EPOCH (2 ^ 16 + wireField frame 50 2) r
          s.put R.NRT_TOPO_HOPS (wireField frame 60 2) r)

/-! ### Links and bypass -/

/-- PORT_LINK_UP: a port synchronises, or its PHY reports another rate (R205, R241). -/
def execPortLinkUp (p : Nat) (phyOk : Bool) (s : State) : Out :=
  .next (
    let r := p / 2
    if 4 ≤ p then s
    else if s.get R.NRT_RCFG_MODE r = 2 ∧ !phyOk then
      if s.get R.NRT_RSTATE_STATE r = 1 then s.ringRefuse r 8 else s
    else
      let s := s.put R.NRT_PSTAT_LINK 1 p
      if s.get R.NRT_RSTATE_STATE r = 1 ∧ (ringPorts r).all (fun q => s.on R.NRT_PSTAT_LINK q) then s.ringScan r else s)

/-- PORT_LINK_DOWN (R244). -/
def execPortLinkDown (p : Nat) (s : State) : Out := .next (s.linkDown p)

/-- LINK_WAIT_TIMEOUT: 500 ms have passed without link on both ports: NO_LINK (R241). -/
def execLinkWaitTimeout (r : Nat) (s : State) : Out :=
  .next (if r < 2 ∧ s.get R.NRT_RSTATE_STATE r = 1 ∧ s.timeUp (s.get H.LINK_T r + 500000000) then s.ringRefuse r 9 else s)

/-- BYPASS_TRANSITION: a commanded opening or closing is complete (R246): closing where the bypass request holds the switches closed,
opening where it does not. Without power, in reset and in Hibernate the switches stay closed. None is started in a cycle whose number
modulo 1024 is 0, 256 or 512. -/
def execBypassTransition (r : Nat) (closed : Bool) (s : State) : Out :=
  .next (if 2 ≤ r || !s.on H.BYP_CMD r || s.get H.PWR_HOLD != 0 || s.domDown 4 || s.on H.BYP_HOLD r != closed ||
      s.get H.BND_N % 1024 % 256 == 0 && s.get H.BND_N % 1024 != 768 then s
    else
      let s := s.each (ringPorts r) fun s p => s.put R.NRT_PSTAT_BYP (b2n closed) p
      (s.put H.BYP_CMD 0 r).doneAll 0x0503 r)

/-! ### Scan and measurement -/

/-- SCAN_FRAME_RETURN: two identical scans end step 2; a later scan finds which nodes are there (R241 to R243). -/
def execScanFrameReturn (r hops : Nat) (entries : List Nat) (s : State) : Out :=
  .next (
    let st := s.get R.NRT_RSTATE_STATE r
    if 2 ≤ r ∨ (st ≠ 2 ∧ st ≠ 4) then s
    else
      let same := s.on H.SCAN_HAVE r && s.scanList r == entries.take 4096 && s.get H.SCAN_HOPS r == hops
      let s := s.scanPut r hops entries
      if !same ∧ st = 2 then s
      else if st = 2 ∧ 4064 < entries.length then s.ringRefuse r 6
      else if st = 2 ∧ (scanAddrs entries).eraseDups.length ≠ entries.length then s.ringRefuse r 5
      else
        let s := ((s.put R.NRT_TOPO_NODES entries.length r).put R.NRT_TOPO_HOPS hops r).scanNodes r entries
        s.when (st == 2) fun s => s.put R.NRT_RSTATE_STATE 3 r)

/-- A probe leaves, forward on NP0 (NP2) or reverse on NP1 (NP3), with ACC and MAXRX at 0 (R239). -/
def State.probeSend (s : State) (r : Nat) (reverse : Bool) : State :=
  let s := (s.orBit H.PRB_OUT (b2n reverse) r).put R.NRT_MEAS_CYC (s.get H.BND_N) r
  s.quietSend r 2 reverse (List.replicate 16 0)

/-- A peer-delay request leaves on each port of the ring, with a REQ_ID of its own (R239). -/
def State.peerSend (s : State) (r : Nat) : State :=
  s.each (ringPorts r) fun s p =>
    let id := s.get H.PD_NEXT
    let s := (s.incWrap H.PD_NEXT).put H.PD_ID (2 ^ 16 + id) p
    s.quietSend r 4 (p % 2 == 1) (toBytesBE 2 id)

/-- DELAY_MEASUREMENT: what the schedule has for the quiet window (R239, R240): at the start the three measurements in their order; in
cyclic operation those of cycles 0, 256 and 512 modulo 1024, and a probe pair that a change of topology asks for. -/
def execDelayMeasurement (r : Nat) (s : State) : Out :=
  .next (
    let st := s.get R.NRT_RSTATE_STATE r
    if 2 ≤ r then s
    else if st = 3 then
      let k := s.get H.MEAS_N r
      let s := s.put H.MEAS_N (min 3 (k + 1)) r
      if k = 0 then s.probeSend r false else if k = 1 then s.probeSend r true
      else if k = 2 then s.peerSend r else s
    else if st ≠ 4 then s
    else
      let c := s.get H.BND_N % 1024
      if c = 512 then s.peerSend r
      else if !s.on R.NRT_RSTATE_HEAD r then s
      else if c = 0 then s.probeSend r false
      else if c = 256 then s.probeSend r true
      else
        let k := s.get H.PROBEP r
        let s := s.put H.PROBEP (k - 1) r
        if k = 2 then s.probeSend r false else if k = 1 then s.probeSend r true else s)

/-- PROBE_RETURN: R, L, G and the receipt times (R228, R230, R239, R240), of a probe that was on its way. -/
def execProbeReturn (r : Nat) (reverse : Bool) (acc maxrx : Nat) (s : State) : Out :=
  .next (
    let st := s.get R.NRT_RSTATE_STATE r
    if 2 ≤ r ∨ (st ≠ 3 ∧ st ≠ 4) ∨ !bit (s.get H.PRB_OUT r) (b2n reverse) then s
    else
      let s := s.clearBit H.PRB_OUT (b2n reverse) r
      let s := if reverse then s else s.setR r acc
      let s := s.put H.NRT_RX maxrx r (b2n reverse)
      let m := max (s.get H.NRT_RX r 0) (s.get H.NRT_RX r 1)
      let s := s.put R.NRT_MAXRX_PS m r
      if st = 3 then (s.orBit H.MEAS (b2n reverse) r).ringMeasured r
      else
        let s := s.when (!reverse && (s.lateL r || s.shortG r)) fun s => s.nrtFlag R.NRT_FLAGS_LATE_RETURN r
        s.when (decide (1000 * s.get R.NRT_APPLY_NS r < m + 200000)) fun s => s.nrtFlag R.NRT_FLAGS_APPLY_MARGIN r)

/-- PEER_DELAY_REQUEST: it is answered with its ingress and egress times (R239). -/
def execPeerDelayRequest (p id t2 t3 : Nat) (s : State) : Out :=
  .next (if 4 ≤ p then s
    else ((s.put H.PD_RESP id p 0).put H.PD_RESP t2 p 1).put H.PD_RESP t3 p 2)

/-- PEER_DELAY_RESPONSE to the request on its way at a port: the link delay, from times in units of 2^(-16) ns (R239); at a ring's start
it may be the last measurement (R241). -/
def execPeerDelayResponse (p id t1 t2 t3 t4 : Nat) (s : State) : Out :=
  .next (
    let d : Int := ((t4 : Int) - t1) - ((t3 : Int) - t2)
    let r := p / 2
    if 4 ≤ p ∨ s.get H.PD_ID p ≠ 2 ^ 16 + id then s
    else
      let s := (s.put R.NRT_PD_PS (d * 1000 / 131072).toNat p).put H.PD_ID 0 p
      if s.get R.NRT_RSTATE_STATE r = 3 then (s.orBit H.MEAS (2 + p % 2) r).ringMeasured r else s)

/-! ### Nodes and messages -/

/-- The slots of a ring that a node owns. -/
def State.nodeSlots (s : State) (r node : Nat) : List Nat :=
  (List.range (s.get R.NRT_RCFG2_NSLOT r)).filter fun i => s.slotNode r i == node

/-- The feedback halves of a node have carried V at 0 for 64 consecutive cycles, those that never came counted with them (R243). -/
def State.nodeSilent (s : State) (r node : Nat) : Bool :=
  !(s.nodeSlots r node).isEmpty && (s.nodeSlots r node).all fun i => decide (64 ≤ s.get H.SLOT_V0 (256 * r + i))

/-- NODE_LOST: 64 cycles of V at 0 (R243). -/
def execNodeLost (r node : Nat) (s : State) : Out :=
  .next (if r < 2 ∧ node < 4096 ∧ s.nodeSilent r node then s.nodeLost r node else s)

/-- IDENTIFY_REPEAT: the query to a node that is seen and lost, if only for one of its axes, goes out again after 256 cycles
(R243). -/
def execIdentifyRepeat (r node : Nat) (s : State) : Out :=
  .next (if r < 2 ∧ node < 4096 ∧ 2 ≤ s.get H.NODE_ST (nodeAt r node) ∧ s.on H.NODE_SEEN (nodeAt r node) ∧
      s.get H.NODE_IDT (nodeAt r node) + 256 ≤ s.get H.BND_N then s.queryNode r node
    else s)

/-- Fragments make a message: 1 to 64 of them, FIRST and LAST where they belong, FRAG counting up, LEN at most 12 (R221,
R234). -/
def fragsOk (l : List (Nat × List Nat)) : Bool :=
  decide (1 ≤ l.length) && decide (l.length ≤ 64) &&
    ((List.range l.length).all fun k =>
      let c := (l.getD k (0, [])).1
      (bit c 15 == (k == 0)) && (bit c 14 == (k + 1 == l.length)) && bits c 8 6 == k && decide (c % 16 ≤ 12))

/-- The bytes of a message. -/
def fragBytes (l : List (Nat × List Nat)) : List Nat :=
  l.flatMap fun p => (List.range (p.1 % 16)).map fun k => p.2.getD k 0 % 256

/-- The message to a node that is in flight: fragments of it have gone out, and its answer has not come (R234). -/
def State.acycOut (s : State) (r node : Nat) : Option AcycMsg :=
  s.acyc.find? fun m => m.ring == r && m.node == node && decide (0 < m.sent)

/-- The request that a message serves, if it still waits. -/
def State.acycReq (s : State) (m : AcycMsg) : Option Nat :=
  m.mb.bind fun mb => if s.waits.any fun w => w.mb == mb && w.opc == 0x0502 then some mb else none

/-- A message is no longer in flight. -/
def State.acycEnd (s : State) (m : AcycMsg) : State := { s with acyc := s.acyc.erase m }

/-- ACYC_MESSAGE: a message from a node: the response to what is in flight to it, by service and TID (R234, R243). -/
def execAcycMessage (r node : Nat) (frags : List (Nat × List Nat)) (s : State) : Out :=
  .next (if 2 ≤ r ∨ 4096 ≤ node then s
    else if !fragsOk frags then s.incSat R.NRT_CNT_ACYC_DROP r
    else
      let b := fragBytes frags
      let svc := ofBytesBE (b.take 2)
      let data := b.drop 4
      match (s.acycOut r node).filter fun m => m.svc == svc && m.tid == b.getD 2 0 && m.sent == m.frags with
      | none => s
      | some m =>
        let s := match s.acycReq m with
          | some mb => s.done mb (data.take 752)
          | none => s
        let s := s.acycEnd m
        if svc = 1 ∧ 8 ≤ data.length then
          s.identified r node (ofBytesBE (data.take 4)) (ofBytesBE ((data.drop 4).take 4))
        else s)

/-- ACYC_TIMEOUT: the oldest message to a node has had no response for 256 cycles (R234). -/
def execAcycTimeout (r node : Nat) (s : State) : Out :=
  .next (match s.acyc.find? fun m => m.ring == r && m.node == node with
    | none => s
    | some m =>
      if s.get H.BND_N < m.cyc + 256 then s
      else match s.acycReq m with
        | some mb => (s.fail mb 0x0510).acycEnd m
        | none => s.acycEnd m)

/-! ### Requests (R280) -/

/-- RING_CONFIG. -/
def execRingConfig (mb : Nat) (s : State) : Out :=
  .next (s.request mb 0x0500 20 fun s =>
    let r := s.par mb 0 4
    let ws := (List.range 4).map fun k => s.par mb (4 + 4 * k) 4
    if 2 ≤ r then s.fail mb 0x0003
    else
      let s := (s.ringAbandon r).wait mb 0x0500 r
      let st := s.get R.NRT_RSTATE_STATE r
      if (1 ≤ st ∧ st ≤ 4) ∨ s.on H.RSTOP r then
        let s := s.each (List.range 4) fun s k => s.put H.RING_W (ws.getD k 0) r k
        let s := s.put H.RNEW 1 r
        if s.on H.RSTOP r then s else s.ringStop r
      else
        let s := s.ringStore r ws
        if bit (ws.getD 0 0) 0 then s.ringStart r else (s.put R.NRT_RSTATE_STATE 0 r).doneAll 0x0500 r (toBytes 4 0))

/-- RING_STOP. -/
def execRingStop (mb : Nat) (s : State) : Out :=
  .next (s.request mb 0x0501 4 fun s =>
    let r := s.par mb 0 4
    if 2 ≤ r then s.fail mb 0x0003
    else
      let s := ((s.ringAbandon r).put H.RNEW 0 r).wait mb 0x0501 r
      if s.on H.RSTOP r then s else s.ringStop r)

/-- ACYC: a message to a node goes out in head Commas, and is answered by the response (R231, R234). -/
def execAcyc (mb : Nat) (s : State) : Out :=
  .next (s.request mb 0x0502 16 fun s =>
    let r := s.par mb 0 4
    let n := s.par mb 4 4
    let len := min 752 (s.par mb 12 4)
    if 2 ≤ r ∨ 4096 ≤ n then s.fail mb 0x0003
    else if s.get H.MB_LEN mb < 16 + len then s.fail mb 0x0002
    else if !(scanAddrs (s.scanList r)).contains n then s.fail mb 0x0511
    else
      let data := (List.range len).map fun k => s.par mb (16 + k) 1
      (s.acycPut r n (min 65535 (s.par mb 8 4)) data (some mb)).wait mb 0x0502 (nodeAt r n))

/-- BYPASS: close and hold, or release; complete with the transition, at once where the switches are so already (R246). -/
def execBypass (mb : Nat) (s : State) : Out :=
  .next (s.request mb 0x0503 8 fun s =>
    let r := s.par mb 0 4
    if 2 ≤ r then s.fail mb 0x0003
    else
      let v := min 1 (s.par mb 4 4)
      let s := (s.put H.BYP_HOLD v r).put H.BYP_CMD (b2n (s.get R.NRT_PSTAT_BYP (2 * r) != v)) r
      if s.get R.NRT_PSTAT_BYP (2 * r) = v then s.done mb else s.wait mb 0x0503 r)

/-- TOPO_READ: the entries of the last scan (R241). -/
def execTopoRead (mb : Nat) (s : State) : Out :=
  .next (s.request mb 0x0504 4 fun s =>
    let r := s.par mb 0 4
    if 2 ≤ r then s.fail mb 0x0003
    else s.done mb (((s.scanList r).take 2048).flatMap (toBytes 2)))

end Sys2Proof.Machine
end

