-- ==== Sys2Proof/Machine/SafeOps.lean ====
section
/-! DEFINITION. The safety core (R376 to R412): containers and their CRC, safe inputs, stop groups, Full Stop, safe
outputs, and the safety parameters. -/

namespace Sys2Proof.Machine

/-! ### CRC-32C and containers (R402) -/

/-- `n` bits of a reflected CRC-32C register. -/
def crcBits : Nat → Nat → Nat
  | 0, c => c
  | n + 1, c => crcBits n (if c % 2 = 1 then (c / 2) ^^^ 0x82F63B78 else c / 2)

/-- CRC-32C of bytes: polynomial 0x1EDC_6F41, reflected, initial value and final XOR of ones (R402). -/
def crc32c (bs : List Nat) : Nat := bs.foldl (fun c b => crcBits 8 (c ^^^ (b % 256))) 0xFFFFFFFF ^^^ 0xFFFFFFFF

/-- The 16 bytes of a container: SDATA, CNUM, CONN_ID, CRC over SDATA, CONN_ID and CNUM (R402). -/
def container (sd cnum cid : Nat) : List Nat :=
  toBytesBE 8 sd ++ toBytesBE 2 cnum ++ toBytesBE 2 cid ++
    toBytesBE 4 (crc32c (toBytesBE 8 sd ++ toBytesBE 2 cid ++ toBytesBE 2 cnum))

/-- SDATA of a container. -/
def cSdata (bs : List Nat) : Nat := ofBytesBE (bs.take 8)

/-- CNUM of a container. -/
def cCnum (bs : List Nat) : Nat := ofBytesBE ((bs.drop 8).take 2)

/-- CONN_ID of a container. -/
def cId (bs : List Nat) : Nat := ofBytesBE ((bs.drop 10).take 2)

/-- A container's CRC passes. -/
def cCrcOk (bs : List Nat) : Bool :=
  ofBytesBE ((bs.drop 12).take 4) ==
    crc32c (toBytesBE 8 (cSdata bs) ++ toBytesBE 2 (cId bs) ++ toBytesBE 2 (cCnum bs))

/-- The number after a CNUM; after 65 535 comes 1 (R402). -/
def cnumNext (n : Nat) : Nat := n % 65535 + 1

/-- The place of the last container that a connection delivered or saw. -/
def contSeen (c : Nat) : Nat := 0x5F200000 + 16 * c

/-- A container as an injection of a kind makes it (R458): 1 LOSS, 2 CORRUPT, 3 MASQUERADE, 4 SEQUENCE, 6 repetition of
`prev`. -/
def mangle (kind : Nat) (bs prev : List Nat) : List Nat :=
  match kind with
  | 1 => List.replicate 16 0
  | 2 => bs.take 15 ++ [bs.getD 15 0 % 256 ^^^ 1]
  | 3 => container (cSdata bs) (cCnum bs) (cId bs ^^^ 1)
  | 4 => container (cSdata bs) ((cCnum bs + 65532) % 65535 + 1) (cId bs)
  | 6 => prev
  | _ => bs

/-- An enabled connection of a direction: 0 produced, 1 consumed. -/
def State.conn (s : State) (c dir : Nat) : Bool :=
  s.isSX && decide (c < 64) && s.on R.SAF_CONN_CFG_EN c && s.get R.SAF_CONN_CFG_DIR c == dir

/-- A consumed connection gives no demand: in RUN with DEMAND_N at 1 (R381, R406). -/
def State.connOk (s : State) (c : Nat) : Bool := s.get R.SAF_CONN_STAT_STATE c == 2 && bit (s.get R.SAF_CONN_SDATA c) 0

/-- A connection goes to FAULT with an error (R404, R405). -/
def State.connFault (s : State) (c err : Nat) : State :=
  let s := (s.put R.SAF_CONN_STAT_STATE 3 c).put R.SAF_CONN_STAT_ERR err c
  (((s.put R.SAF_CONN_SDATA 0 c).incSat R.SAF_CONN_CNT_ERR c).report 0x0C c 0xFFFF err).safEvt 2

/-- A connection that starts over (R405). -/
def State.connStart (s : State) (c : Nat) : State :=
  ((s.put R.SAF_CONN_STAT_STATE 1 c).put H.CN_BASE 0 c).put R.SAF_CONN_SDATA 0 c

/-- A container is accepted: SDATA applied, its CNUM the last accepted. -/
def State.connTake (s : State) (c : Nat) (bs : List Nat) : State :=
  (((s.put R.SAF_CONN_STAT_STATE 2 c).put R.SAF_CONN_STAT_CNUM (cCnum bs) c).put R.SAF_CONN_SDATA (cSdata bs) c).put H.CN_T
    s.now c

/-- A container lands in START (R405). -/
def State.landStart (s : State) (c : Nat) (bs : List Nat) : State :=
  if bs.all (· == 0) || !cCrcOk bs || cId bs != s.get R.SAF_CONN_ID c then s.incSat R.SAF_CONN_CNT_ERR c
  else
    let base := s.get H.CN_BASE c
    let n := cCnum bs
    if base = n + 1 then s.incSat R.SAF_CONN_CNT_REP c
    else if base ≠ 0 ∧ n = cnumNext (base - 1) then s.connTake c bs
    else (s.put H.CN_BASE (n + 1) c).put R.SAF_CONN_STAT_CNUM n c

/-- A container lands in RUN (R404). -/
def State.landRun (s : State) (c : Nat) (bs : List Nat) : State :=
  if bs.all (· == 0) then s.connFault c 1
  else if !cCrcOk bs then s.connFault c 2
  else if cId bs ≠ s.get R.SAF_CONN_ID c then s.connFault c 3
  else
    let n := cCnum bs
    let last := s.get R.SAF_CONN_STAT_CNUM c
    let d := (n + 65535 - last % 65535) % 65535
    if n = 0 then s.connFault c 4
    else if d = 0 then s.incSat R.SAF_CONN_CNT_REP c
    else if d = 1 then s.connTake c bs
    else s.connFault c (if d ≤ 32767 then 1 else 4)

/-- A consumed container after any injection (R404, R405, R458). -/
def State.landCont (s : State) (c : Nat) (bs : List Nat) : State :=
  let kind := s.get H.INJ_CN c
  let prev := s.bytes (contSeen c) 16
  let s := (s.put H.INJ_CN 0 c).when (kind == 5) fun s =>
    s.put H.INJ_CNT (s.now + (s.get R.SAF_CONN_WD c + 1) * 1000000) c
  if s.now < s.get H.INJ_CNT c then s
  else
    let b := mangle kind bs prev
    let s := s.setBytes (contSeen c) b
    if s.get R.SAF_CONN_STAT_STATE c = 1 then s.landStart c b
    else if s.get R.SAF_CONN_STAT_STATE c = 2 then s.landRun c b
    else s

/-! ### SDATA of produced connections (R406) -/

/-- The axes of a node, the first eight in ascending slot order (R406). -/
def State.contAxes (s : State) (r n : Nat) : List Nat :=
  let slots := (List.range 256).filter fun k =>
    match s.axisOfSlot r k with
    | some a => s.get H.AX_NODE a == n
    | none => false
  (slots.filterMap fun k => s.axisOfSlot r k).take 8

/-- A byte with one bit for each axis of a list. -/
def axisBits (l : List Nat) (f : Nat → Bool) : Nat :=
  (List.range l.length).foldl (fun m i => if f (l.getD i 0) then setBit m i else m) 0

/-- STO holds an axis (R382, R387). -/
def State.axSto (s : State) (a : Nat) : Bool :=
  if s.sgOf a = 255 then s.inFullStop && s.on H.FS_STO else bit (s.get R.SAF_SG_STO) (s.sgOf a)

/-- SS1 of an axis is in progress (R383, R387). -/
def State.axSs1 (s : State) (a : Nat) : Bool :=
  !s.axSto a && (if s.sgOf a = 255 then s.inFullStop else bit (s.get R.SAF_SG_DEM) (s.sgOf a))

/-- SLS of an axis is active (R385). -/
def State.axSls (s : State) (a : Nat) : Bool := s.sgOf a != 255 && bit (s.get H.SAF_SLS) (s.sgOf a)

/-- SDATA of a produced connection as the state stands (R406). The level is that of the node's first axis with SLS
active. -/
def State.sdataOf (s : State) (c : Nat) : Nat :=
  let l := s.contAxes (s.get R.SAF_CONN_CFG_RING c) (s.get R.SAF_CONN_CFG_NODE c)
  let lvl := match l.find? s.axSls with
    | some a => s.get R.SAF_SG_CFG_SLS_LVL (s.sgOf a)
    | none => 0
  ofBytesBE [axisBits l fun a => !s.axSto a, axisBits l s.axSs1, axisBits l s.axSls, lvl + 128 * s.get H.SAF_RST, 0, 0, 0, 0]

/-- An evaluation has ended: SDATA of every produced connection (R403). -/
def State.produce (s : State) : State :=
  s.each ((List.range 64).filter fun c => s.conn c 0) fun s c => s.put H.CN_SD (s.sdataOf c) c

/-- A produced container at its cut-off (R222, R378, R403, R423): the next number with the latest SDATA; the last one
again where SC does not deliver; zeros after a watchdog expiry. -/
def State.cutCont (s : State) (r i : Nat) : State :=
  let off := s.get R.NRT_RSTATE_STATE r != 4 || !s.on R.NRT_RSTATE_HEAD r || decide (s.get R.NRT_RCFG2_NZHV r ≤ i)
  if off then s
  else
    match (List.range 64).find? fun c => s.conn c 0 && s.get R.SAF_CONN_CFG_RING c == r && s.get R.SAF_CONN_CFG_CONT c == i with
    | none => s.setBytes (contAt r i) (List.replicate 16 0)
    | some c =>
      let kind := s.get H.INJ_CN c
      let s := (s.put H.INJ_CN 0 c).when (kind == 5) fun s =>
        s.put H.INJ_CNT (s.now + (s.get R.SAF_CONN_WD c + 1) * 1000000) c
      if s.on H.SAF_WDD then s.setBytes (contAt r i) (List.replicate 16 0)
      else if s.domDown 3 || kind == 6 || decide (s.now < s.get H.INJ_CNT c) then
        s.setBytes (contAt r i) (s.bytes (contSeen c) 16)
      else
        let n := cnumNext (s.get R.SAF_CONN_STAT_CNUM c)
        let b := container (s.get H.CN_SD c) n (s.get R.SAF_CONN_ID c)
        let s := ((s.put R.SAF_CONN_STAT_CNUM n c).put R.SAF_CONN_STAT_STATE 2 c).put R.SAF_CONN_SDATA (s.get H.CN_SD c) c
        (s.setBytes (contSeen c) b).setBytes (contAt r i) (mangle kind b b)

/-! ### Safe outputs (R384, R395 to R400) -/

/-- Something keeps a safe output off (R384, R387, R396). -/
def State.soBlocked (s : State) (k : Nat) : Bool :=
  if s.inFullStop then true
  else if s.on R.SAF_SO_CFG_KIND k then
    let a := s.get R.SAF_SO_CFG_AXIS k
    s.axSt a == 0 || s.axSto a || s.on R.AXS_STATUS_BRAKE a
  else (s.get R.SAF_SO_CFG_SG k &&& s.get R.SAF_SG_DEM) != 0

/-- The field die receives valid safe refreshes (R396). -/
def State.soLink (s : State) : Bool := s.on H.FIO_LIVE && !s.on H.FIO_SILD && !s.on H.SO_LOSS

/-- The switch commands of proof steps 1 to 4 (R399): high-side in bit 0, low-side in bit 1. -/
def proofCmd (step : Nat) : Nat := if step = 2 then 1 else if step = 3 then 3 else if step = 4 then 2 else 0

/-- The switch commands of a safe output from what has been decided (R395 to R399). A switch-on taken in the output's
own slot waits for its last tick; an off in it cuts the pulse short. -/
def State.soDrive (s : State) (k : Nat) : State :=
  let on := !s.on H.SAF_WDD && !s.domDown 3 && s.on R.SAF_SO_CFG_EN k && s.get H.SO_PRF k == 0 && s.on H.SO_WANT k &&
    s.on R.SAF_SO_STAT_PROOF_OK k && !s.on R.SAF_SO_STAT_FAULT k && (!s.on H.SO_SLOT k || s.on H.SO_LIVE k)
  let s := s.when (!on && s.on H.SO_TP k) fun s => (s.put H.SO_TP 0 k).put H.SO_CUT 1 k
  let cmd := if s.on H.SAF_WDD || s.domDown 3 then 0
    else if s.get H.SO_PRF k != 0 then proofCmd (s.get H.SO_PRF k)
    else if on then (if s.on H.SO_TP k then 2 else 3)
    else 0
  (s.put H.SO_LIVE (b2n on) k).put H.SO_CMD cmd k

/-- A proof begins at its first step (R399). -/
def State.soProve (s : State) (k : Nat) (blocked : Bool) : State :=
  ((((s.put H.SO_PRF 1 k).put R.SAF_SO_STAT_PROOF_STEP 1 k).put H.SO_BLK (b2n blocked) k).put H.SO_PRT s.now k).soDrive k

/-- How long a proof step lasts, ns (R399). -/
def State.proofNs (s : State) (step : Nat) : Nat :=
  if step = 1 then 100000 else if step = 3 then 10000 * s.get R.SAF_TP_WIDTH else 1000000

/-- The part of an output's evaluation that only turns off: demands act, proofs are abandoned (R377, R396, R408). -/
def State.soOff (s : State) (k : Nat) : State :=
  let b := s.soBlocked k
  let s := s.when (b || !s.soLink || !s.on R.SAF_SO_CFG_EN k) fun s => s.put H.SO_WANT 0 k
  let s := s.when (b && !s.on H.SO_BLK k) fun s => s.soProofOff k 2
  s.soDrive k

/-- The part that turns on, with the proof before the first switch-on (R396, R399). -/
def State.soOn (s : State) (k : Nat) : State :=
  if s.soBlocked k || !s.soLink || !s.on R.SAF_SO_CFG_EN k || s.on R.SAF_SO_STAT_FAULT k then s
  else
    let s := s.put H.SO_WANT 1 k
    if s.on R.SAF_SO_STAT_PROOF_OK k || s.get H.SO_PRF k != 0 then s.soDrive k else s.soProve k false

/-- An enabled output has not been proved for 30 days (R399). -/
def State.proofOld (s : State) : Bool :=
  (List.range 4).any fun k => s.on R.SAF_SO_CFG_EN k && s.timeUp (s.get R.SAF_SO_T_PROOF k + 2592000000000000)

/-- PROOF_DUE sets, with its event (R399, R412). -/
def State.proofDue (s : State) : State :=
  if s.on R.SAF_STATUS_PROOF_DUE then s else (s.put R.SAF_STATUS_PROOF_DUE 1).safEvt 3

/-- The expected readback and sense of a proof step are seen (R399). -/
def proofOk (step : Nat) (rb se : Bool) : Bool :=
  if step = 1 then !rb && !se else if step = 2 then rb && se else if step = 3 then rb && !se else !rb

/-- A proof step ends (R399, R458). -/
def State.soStep (s : State) (k : Nat) (rb se : Bool) : State :=
  let p := s.get H.SO_PRF k
  let hit := s.get H.INJ_SO k == 3 && s.get H.INJ_SOS k == p
  let s := s.when hit fun s => s.put H.INJ_SO 0 k
  if hit || !proofOk p rb se then (s.soFail k 3).put R.SAF_SO_STAT_PROOF_STEP p k
  else if p < 4 then
    (((s.put H.SO_PRF (p + 1) k).put R.SAF_SO_STAT_PROOF_STEP (p + 1) k).put H.SO_PRT s.now k).soDrive k
  else
    let s := ((s.put H.SO_PRF 0 k).put R.SAF_SO_STAT_PROOF_STEP 0 k).put R.SAF_SO_STAT_PROOF_OK 1 k
    let s := (s.put R.SAF_SO_T_PROOF s.now k).soTested k 0
    (s.when (!s.proofOld) fun s => s.put R.SAF_STATUS_PROOF_DUE 0).soDrive k

/-! ### Stop groups (R381 to R386) -/

/-- The axes of a stop group. -/
def State.sgAxes (s : State) (g : Nat) : List Nat := s.axes.filter fun a => s.sgOf a == g

/-- A demand of a stop group reaches its axes with a reaction (R383, R386). -/
def State.sgPost (s : State) (g react : Nat) : State := s.each (s.sgAxes g) fun s a => s.post a (.safetyDemand react)

/-- STO of a stop group: gate-enable lines of its local ports low, the axes' torque off (R382). -/
def State.sgSto (s : State) (g : Nat) : State :=
  let s := s.orBit R.SAF_SG_STO g
  let s := s.each (s.sgAxes g) fun s a => match s.dpOf a with
    | some p => s.gatesOff p
    | none => s
  s.sgPost g 3

/-- A latched output fault puts a stop group into demand (R400). -/
def State.sgSoFault (s : State) (g : Nat) : Bool :=
  (List.range 4).any fun k => s.on R.SAF_SO_STAT_FAULT k &&
    (if s.on R.SAF_SO_CFG_KIND k then s.sgOf (s.get R.SAF_SO_CFG_AXIS k) == g else bit (s.get R.SAF_SO_CFG_SG k) g)

/-- The pairs in demand or in discrepancy fault, one bit each. Those accepted at this sample are not among them. -/
def State.pairDem (s : State) : Nat :=
  (List.range 4).foldl (fun m k =>
    if s.on R.SAF_SIN_STAT_FAULT k || (s.on R.SAF_SIN_STAT_DEMAND k && !bit (s.get H.SAF_PREL) k) then setBit m k else m) 0

/-- A source of a stop group demands, or the partner's evaluation finds it in demand (R381, R400, R423). -/
def State.sgSource (s : State) (g : Nat) : Bool :=
  (s.get R.SAF_SG_CFG_SRC_SIN g &&& s.pairDem) != 0 ||
    ((List.range 64).any fun c => bit (s.get R.SAF_SG_CONN g) c && !s.connOk c) || s.sgSoFault g || bit (s.get H.SAF_PDEM) g

/-- A pair in a stop group's SLS_SIN is in demand (R385). -/
def State.slsSource (s : State) (g : Nat) : Bool := (s.get R.SAF_SG_CFG_SLS_SIN g &&& s.pairDem) != 0

/-- The instant of the safe sample that is being evaluated (R377). -/
def State.smpT (s : State) : Nat := s.now / 125000 * 125000

/-- STO of a stop group in demand is due (R383, R387, R408). -/
def State.sgStoDue (s : State) (g : Nat) : Bool :=
  let own := s.get H.SAF_OWN g
  (own == 0 && !s.inFullStop) ||
  (own != 0 && (!s.on R.SAF_SG_CFG_FUNC g || bit (s.get H.SAF_SS1X) g ||
      decide (own - 1 + s.get R.SAF_SG_T_SS1 g * 1000000 ≤ s.smpT))) ||
  (s.inFullStop && s.on H.FS_STO)

/-- A stop group in demand leaves it: its bits clear, SAFE_DEMAND of its axes with them (R386). -/
def State.sgLeave (s : State) (g : Nat) : State :=
  let s := (s.clearBit R.SAF_SG_DEM g).clearBit R.SAF_SG_STO g
  let s := ((s.put H.SAF_OWN 0 g).clearBit H.SAF_SS1X g).clearBit H.SAF_WAIT g
  s.each (s.sgAxes g) fun s a => s.safeSync a

/-- The bits of a stop group that is not enabled read 0; on a CX7420-NX they read their reset value (R381, R412). -/
def State.sgNone (s : State) (g : Nat) : State :=
  s.when s.isSX fun s => (s.clearBit R.SAF_SG_DEM g).clearBit R.SAF_SG_STO g

/-- Evaluation of one stop group at a sample (R381 to R389); `named`: the groups that SAFE_RESET names at it. A release
waits for both paths. -/
def State.sgEval (s : State) (named g : Nat) : State :=
  if !s.on R.SAF_SG_CFG_EN g then s.sgNone g
  else
    let src := s.sgSource g
    let s := s.when (s.slsSource g) fun s => s.orBit H.SAF_SLS g
    let s := s.when (!s.on R.SAF_SG_CFG_RESTART g) fun s => s.clearBit H.SAF_WAIT g
    let was := bit (s.get R.SAF_SG_DEM) g
    if src || s.inFullStop then
      let s := s.when (src && s.get H.SAF_OWN g == 0) fun s => s.put H.SAF_OWN (s.smpT + 1) g
      let s := s.when (s.on R.SAF_SG_CFG_RESTART g) fun s => s.orBit H.SAF_WAIT g
      let s := (s.orBit R.SAF_SG_DEM g).when (!was) fun s => s.safEvt 0
      let due := s.sgStoDue g
      if due && !bit (s.get R.SAF_SG_STO) g then s.sgSto g
      else if was then s
      else s.sgPost g 1
    else
      let s := s.when (was && s.sgStoDue g && !bit (s.get R.SAF_SG_STO) g) fun s => s.sgSto g
      if was && (!s.on R.SAF_SG_CFG_RESTART g || !bit (s.get H.SAF_WAIT) g || bit named g) then s.orBit H.SAF_REL g else s

/-! ### Full Stop (R387 to R389) -/

/-- FSTOP_N as the module drives it: low in Full Stop, but not in a release window or while SAFE is down (R388). -/
def State.fsDrive (s : State) : Bool := s.inFullStop && !s.on H.REL_ON && !s.domDown 3

/-- A release window ends without release (R389 step 3). -/
def State.relFail (s : State) : State :=
  if !s.on H.REL_ON then s
  else ((s.put H.REL_ON 0).put R.SAF_STATUS_FSTOP_PIN 0).failAll 0x0905 0 0x0902

/-- STO of Full Stop: every stop group, and every axis (R387). -/
def State.fsSto (s : State) : State :=
  let s := s.put H.FS_STO 1
  let s := s.each (List.range 16) fun s g =>
    if s.on R.SAF_SG_CFG_EN g && !bit (s.get R.SAF_SG_STO) g then s.sgSto g else s
  s.each s.axes fun s a => s.post a (.fullStopEntry false)

/-- Full Stop is entered for a cause, or a further cause comes (R387, R408). Cause bits as in FS_CAUSE: 0 FSTOP_N, 1 host,
2 SC fault, 3 watchdog, 4 pair, 5 security. SC faults and watchdog expiry give STO at once. -/
def State.fsEnter (s : State) (k : Nat) : State :=
  let imm := k == 2 || k == 3 || s.get R.SAF_FS_T_SS1 == 0
  let due := (s.now + 124999) / 125000 * 125000 + s.get R.SAF_FS_T_SS1 * 1000000
  let was := s.inFullStop
  let s := s.orBit R.SAF_STATUS_FS_CAUSE k
  let s := s.when (k != 0) fun s => s.relFail
  if was then
    let s := s.when (!imm) fun s => s.put H.FS_DUE (min due (s.get H.FS_DUE))
    s.when (imm && !s.on H.FS_STO) fun s => s.fsSto
  else
    let s := (s.put R.SAF_STATUS_STATE 2).put R.SAF_STATUS_FSTOP_PIN 0
    let s := (((s.put R.HIF_STATUS_FULL_STOP 1).cause 8).safEvt 4).put H.FS_DUE due
    let s := (s.put H.FS_STO 0).put H.FS_X 0
    let s := s.each (List.range 16) fun s g =>
      if s.on R.SAF_SG_CFG_EN g then
        let s := s.when (s.on R.SAF_SG_CFG_RESTART g) fun s => s.orBit H.SAF_WAIT g
        if bit (s.get R.SAF_SG_DEM) g then s
        else ((s.orBit R.SAF_SG_DEM g).safEvt 0).when (!imm) fun s => s.sgPost g 1
      else s
    let s := s.put H.SAF_REL 0
    let s := s.each (List.range 4) fun s k => s.soOff k
    if imm then s.fsSto else s.each s.axes fun s a => s.post a (.fullStopEntry true)

/-- An SC fault: latched until SAFE is reset, Full Stop with STO at once (R380). -/
def State.scFault (s : State) (k : Nat) : State := (s.fsEnter k).put R.SAF_STATUS_STATE 3

/-- The safety watchdog expires: gates low, containers zero, safe refreshes stopped, an SC fault (R378). -/
def State.wdExpire (s : State) : State :=
  if s.domDown 3 || s.on H.SAF_WDD then s
  else
    let s := (s.put H.SAF_WDD 1).each (List.range 8) fun s p => s.gatesOff p
    let s := s.each (List.range 4) fun s k => s.soDrive k
    (s.report 0x08 0 0xFFFF 0).scFault 3

/-- A cause of Full Stop other than FSTOP_N is present, or an SC fault is latched (R389). -/
def State.fsHeld (s : State) : Bool := s.get R.SAF_STATUS_STATE == 3 || s.get H.FS_HOLD != 0

/-- Full Stop ends (R389 step 2): axes are released; stop groups leave demand at a sample. -/
def State.fsEnd (s : State) : State :=
  let s := (s.put R.SAF_STATUS_STATE (s.get H.SAF_CONF)).put R.SAF_STATUS_FS_CAUSE 0
  let s := ((s.put R.HIF_STATUS_FULL_STOP 0).cause 8).put H.FS_STO 0
  let s := ((s.put H.REL_ON 0).put R.SAF_STATUS_FSTOP_PIN 1).put H.FS_X 0
  (s.each s.axes fun s a => s.post a .fullStopRelease).doneAll 0x0905 0

/-! ### Safe input pairs (R390 to R393) -/

/-- A safe channel is closed: filter output active and valid, and the safe part of the return good (R379, R390). The results land in
SAFE too, which a reset of MGMT does not touch (R345, R472). -/
def State.closed (s : State) (c : Nat) : Bool :=
  s.on H.SAF_RET && decide (s.get H.FIO_MISS < 3) && bit (s.get H.FIO_OUTF) c && s.fioGood c

/-- A discrepancy fault of a pair latches (R392, R393). -/
def State.pairFault (s : State) (k : Nat) : State :=
  let s := ((s.put R.SAF_SIN_STAT_FAULT 1 k).put R.SAF_SIN_STAT_WIN 0 k).put R.SAF_SIN_STAT_DEMAND 1 k
  let s := (s.put R.SAF_SIN_STAT_WCNT 0 k).incSat R.SAF_SIN_CNT_DISC k
  (s.report 0x0F k 0xFFFF 0).safEvt 1

/-- The channels of a pair as the sample takes them: an injection holds channel B after A has changed (R458). -/
def State.pairIn (s : State) (k : Nat) : State × Bool × Bool :=
  let a := s.closed (16 + 2 * k)
  let b := s.closed (17 + 2 * k)
  let start := a != s.on H.SAF_PA k && s.get H.INJ_PMS k != 0
  let s := s.when start fun s => (s.put H.INJ_PT (s.now + s.get H.INJ_PMS k * 1000000) k).put H.INJ_PMS 0 k
  let b := if s.now < s.get H.INJ_PT k then s.on H.SAF_PB k else b
  ((s.put H.SAF_PA (b2n a) k).put H.SAF_PB (b2n b) k, a, b)

/-- One pair at a sample (R391, R392): a demand acts at once, leaving demand waits for both paths. -/
def State.pairEval (s : State) (k : Nat) (a b : Bool) : State :=
  let s := (s.put R.SAF_SIN_STAT_CH_A (b2n a) k).put R.SAF_SIN_STAT_CH_B (b2n b) k
  let n := s.get R.SAF_SIN_STAT_WCNT k + 1
  let s := if s.on R.SAF_SIN_STAT_WIN k then
      if 8 * s.get R.SAF_SIN_CFG_DISC k < n then s.pairFault k
      else if a == b then (s.put R.SAF_SIN_STAT_WIN 0 k).put R.SAF_SIN_STAT_WCNT 0 k
      else s.put R.SAF_SIN_STAT_WCNT n k
    else if a != b && !s.on R.SAF_SIN_STAT_FAULT k then (s.put R.SAF_SIN_STAT_WIN 1 k).put R.SAF_SIN_STAT_WCNT 0 k
    else s
  if s.on R.SAF_SIN_STAT_FAULT k || s.on R.SAF_SIN_STAT_WIN k || !(a && b) then s.put R.SAF_SIN_STAT_DEMAND 1 k
  else s.when (s.on R.SAF_SIN_STAT_DEMAND k) fun s => s.orBit H.SAF_PREL k

/-! ### SAFE_RESET (R393, R400, R405) -/

/-- A cause of an output fault from the field side lasts (R400). -/
def State.soCauseOn (s : State) (cause : Nat) : Bool :=
  (cause == 4 && s.on R.FIO_GRP_STAT_OC 3) || (cause == 5 && s.on R.FIO_GRP_STAT_UV 3) ||
    (cause == 6 && (!s.on H.FIO_LIVE || s.on H.FIO_SILD))

/-- What holds a safe output's switch off at the field die ends with the safety reset, once its cause is gone (R356, R366, R400). -/
def State.soUnbar (s : State) (k : Nat) : State :=
  let c := 24 + 2 * k
  let s := s.when (!s.on R.FIO_GRP_STAT_UV 3) fun s => s.put R.FIO_CSTAT_UVOFF 0 c
  s.when (!bit (s.get H.FIO_HOT) c) fun s => s.put R.FIO_CSTAT_TSD 0 c

/-- The pairs, outputs and connections that SAFE_RESET names are cleared; the number of items cleared (R393, R400,
R405). -/
def State.resetItems (s : State) (ps os : Nat) (cs : Nat) : State × Nat :=
  let p := (bitsOn 4 ps).filter fun k => s.on R.SAF_SIN_STAT_FAULT k
  let o := (bitsOn 4 os).filter fun k =>
    s.on R.SAF_SO_STAT_FAULT k && !s.soCauseOn (s.get R.SAF_SO_STAT_CAUSE k)
  let c := (bitsOn 64 cs).filter fun c => s.conn c 1 && s.get R.SAF_CONN_STAT_STATE c == 3
  let s := s.each p fun s k => (s.put R.SAF_SIN_STAT_FAULT 0 k).put R.SAF_SIN_STAT_WIN 0 k
  let s := s.each o fun s k =>
    ((s.put R.SAF_SO_STAT_FAULT 0 k).put R.SAF_SO_STAT_CAUSE 0 k).put R.SAF_SO_STAT_PROOF_STEP 0 k
  let s := (s.each c fun s c => s.connStart c).each (bitsOn 4 os) fun s k => s.soUnbar k
  (s, p.length + o.length + c.length)

/-- One SAFE_RESET at a sample: refused while a faulted pair it names has a channel closed; otherwise it waits, with its
count, for both paths. The second part is the mask of the stop groups named. -/
def State.resetOne (s : State) (mb : Nat) : State × Nat :=
  let ps := s.par mb 0 4
  if (bitsOn 4 ps).any fun k => s.on R.SAF_SIN_STAT_FAULT k && (s.on R.SAF_SIN_STAT_CH_A k || s.on R.SAF_SIN_STAT_CH_B k) then
    (s.fail mb 0x0901, 0)
  else
    let r := s.resetItems ps (s.par mb 4 4) (s.par mb 12 8)
    let s := r.1.put H.SAF_RST (1 - r.1.get H.SAF_RST)
    let upd := fun (w : Wait) => if w.mb = mb then { w with key := 1, arg := r.2 } else w
    ({ s with waits := s.waits.map upd }, s.par mb 8 4 % 65536)

/-- Every SAFE_RESET that waits for this sample; the stop groups they name. -/
def State.resetsNow (s : State) : State × Nat :=
  (s.waiting 0x0902 0).foldl (fun (r : State × Nat) mb =>
    let x := r.1.resetOne mb
    (x.1, r.2 ||| x.2)) (s, 0)

/-- Stop groups that leave demand count for the SAFE_RESET requests that name them. -/
def State.resetCount (s : State) : State :=
  let upd := fun (w : Wait) =>
    if w.opc = 0x0902 ∧ w.key = 1 then
      { w with arg := w.arg + popCount 16 (s.par w.mb 8 4 &&& s.get H.SAF_REL &&& s.get H.SAF_WAIT) }
    else w
  { s with waits := s.waits.map upd }

/-! ### Safety parameters (R276, R298, R373, R409) -/

/-- The configuration fields of SAF (R412). -/
def safCfg : List Fld :=
  [R.SAF_TP_WIDTH, R.SAF_TP_PERIOD, R.SAF_FS_T_SS1, R.SAF_SIN_CFG_EN, R.SAF_SIN_CFG_THR, R.SAF_SIN_CFG_DISC,
   R.SAF_SO_CFG_EN, R.SAF_SO_CFG_KIND, R.SAF_SO_CFG_AXIS, R.SAF_SO_CFG_SG, R.SAF_SG_CFG_EN, R.SAF_SG_CFG_FUNC,
   R.SAF_SG_CFG_RESTART, R.SAF_SG_CFG_SRC_SIN, R.SAF_SG_CFG_SLS_SIN, R.SAF_SG_CFG_SLS_LVL, R.SAF_SG_T_SS1, R.SAF_SG_CONN,
   R.SAF_AXMAP, R.SAF_CONN_CFG_EN, R.SAF_CONN_CFG_DIR, R.SAF_CONN_CFG_RING, R.SAF_CONN_CFG_CONT, R.SAF_CONN_CFG_NODE,
   R.SAF_CONN_ID, R.SAF_CONN_WD]

/-- The byte offsets in SAF of the words that hold configuration. -/
def safWords : List Nat := ((List.range 1016).map fun k => 0x20 + 4 * k).filter fun o => !(fieldsOf safCfg (0xD0000 + o)).isEmpty

/-- A configuration word's fields are in their ranges (R276, R412). -/
def safRange (o w : Nat) : Bool :=
  let b := 0xD0000 + o
  let at_ := fun (f : Fld) => (fldAt f b).isSome
  let inR := fun (v lo hi : Nat) => decide (lo ≤ v) && decide (v ≤ hi)
  (!at_ R.SAF_TP_WIDTH || (inR (bits w 0 7) 10 80 && inR (bits w 16 10) 10 1000)) &&
  (!at_ R.SAF_FS_T_SS1 || bits w 0 16 == 0 || inR (bits w 0 16) 10 30000) &&
  (!at_ R.SAF_SIN_CFG_EN || (inR (bits w 8 8) 1 255 && inR (bits w 16 12) 4 3000)) &&
  (!at_ R.SAF_SG_T_SS1 || inR (bits w 0 16) 10 30000) &&
  (!at_ R.SAF_CONN_ID || inR (bits w 16 16) 1 1000)

/-- The place of the staged value of a word. -/
def safStaged (o : Nat) : Nat := 0x5F000000 + o

/-- The place of the mark that a word has been staged. -/
def safMark (o : Nat) : Nat := 0x5F001000 + o / 4

/-- The place of a word of the set committed last. -/
def safSet (o : Nat) : Nat := 0x5F002000 + o

/-- The place of a word of the set that a mailbox's commit is writing. -/
def safWrite (mb o : Nat) : Nat := 0x5F010000 + 0x1000 * mb + o

/-- The value of a word in force. -/
def State.safWord (s : State) (o : Nat) : Nat := s.word safCfg (0xD0000 + o)

/-- The base value of a word of the safety set: of a word that the active overlay covers, the one it returns to (R284, R287). -/
def State.safBase (s : State) (o : Nat) : Nat :=
  match s.baseW.find? fun p => p.1 == 0x50000000 + o with
  | some p => p.2
  | none => s.safWord o

/-- The value of a word in the staged set: what has been staged, over the base values of what is in force (R287, R409). -/
def State.safNext (s : State) (o : Nat) : Nat :=
  if s.byte (safMark o) ≠ 0 then s.load (safStaged o) 4
  else if s.on H.SAF_NEWP then s.load (safSet o) 4
  else s.safBase o

/-- The number of parameters in which two states differ (R298). -/
def safChanged (s t : State) : Nat :=
  safCfg.foldl (fun n f => (List.range f.n).foldl (fun n i =>
    (List.range f.m).foldl (fun n j => if s.get f i j = t.get f i j then n else n + 1) n) n) 0

/-- The KIND 5 entries of every overlay, as words (R298). -/
def State.ovlSafety (s : State) : List Nat :=
  (List.range 8).flatMap fun m =>
    ((s.ovl (m + 1)).filter fun e => bits e.t 28 4 == 5).flatMap fun e => [e.t, e.mask, e.val]

/-- The state with the words of a set in the registers of SAF. -/
def State.safWith (s : State) (f : Nat → Nat) : State := s.each safWords fun s o => s.putWord safCfg (0xD0000 + o) (f o)

/-- The session that a safety write needs is open for a mailbox (R296, R297). -/
def State.sessionOk (s : State) (mb : Nat) : Bool :=
  s.on R.CFG_SAF_SESS_OPEN && s.get R.CFG_SAF_SESS_MBX == mb && !s.on R.CFG_STATUS_NO_PASSWORD

/-- A safety request of the session starts its time anew (R296). -/
def State.safetyUse (s : State) (mb : Nat) : State := s.when (s.sessionOk mb) fun s => s.put H.SS_T s.now

/-- A safety change waits for the safety store, with the session's reason code and author tag as they are now (R298, R299). -/
def State.changeWait (s : State) (mb opc : Nat) (arg : Nat := 0) : State :=
  ((s.put H.SS_CR (s.get H.SS_REASON) mb).put H.SS_CA (s.get R.CFG_SAF_SESS_AUTHOR) mb).wait mb opc 0 arg

/-- Words of an instance differ between two states. -/
def safDiff (s t : State) (lo n : Nat) : Bool :=
  (List.range n).any fun k => s.word safCfg (0xD0000 + lo + 4 * k) != t.word safCfg (0xD0000 + lo + 4 * k)

/-- A stop group, its axes, its connections or its outputs change from `s` to `t` (R409). -/
def safGroupChanged (s t : State) (g : Nat) : Bool :=
  safDiff s t (0x400 + 0x10 * g) 4 ||
  ((List.range 256).any fun a => s.sgMap a != t.sgMap a && (s.sgMap a == g || t.sgMap a == g)) ||
  ((List.range 64).any fun c => safDiff s t (0x800 + 0x20 * c) 2 &&
    (bit (s.get R.SAF_SG_CONN g) c || bit (t.get R.SAF_SG_CONN g) c ||
      (s.sgAxes g).any fun a => s.isNirte a && s.get H.AX_BIND a == s.get R.SAF_CONN_CFG_RING c &&
        s.get H.AX_NODE a == s.get R.SAF_CONN_CFG_NODE c && s.get R.SAF_CONN_CFG_DIR c == 0))

/-- An output belongs to a stop group. -/
def State.soOfGroup (s : State) (k g : Nat) : Bool :=
  if s.on R.SAF_SO_CFG_KIND k then s.sgMap (s.get R.SAF_SO_CFG_AXIS k) == g else bit (s.get R.SAF_SO_CFG_SG k) g

/-- A change is barred because a changed group is not in demand, or one of its outputs or a changed output is on (R409). -/
def safNotInDemand (s t : State) : Bool :=
  let chg := (List.range 16).filter fun g => safGroupChanged s t g ||
    (List.range 4).any fun k => safDiff s t (0x200 + 0x20 * k) 1 && (s.soOfGroup k g || t.soOfGroup k g)
  (chg.any fun g => s.on R.SAF_SG_CFG_EN g && !bit (s.get R.SAF_SG_DEM) g) ||
  (List.range 4).any fun k => (s.on R.SAF_SO_STAT_ON k || s.on H.SO_LIVE k) &&
    (safDiff s t (0x200 + 0x20 * k) 1 || chg.any fun g => s.soOfGroup k g)

/-- Why a set may not be committed (R381, R385, R409); 0 where it may: `t` the state with it. -/
def safRefuse (s t : State) (crc given : Nat) : Nat :=
  let as := s.axes.filter fun a => t.sgMap a != 0xF
  if crc ≠ given then 0x0900
  else if safNotInDemand s t then 0x0903
  else if as.any fun a => !s.isNirte a && t.get R.SAF_SG_CFG_SLS_SIN (t.sgMap a) != 0 then 0x0905
  else if as.any fun a => s.axKind a == 3 then 0x0906
  else if as.any fun a => s.isNirte a && !t.hasConn (s.get H.AX_BIND a) (s.get H.AX_NODE a) then 0x0907
  else 0

/-- The safe channels as the safety core configures them (R373, R390, R395); on a CX7420-NX they are ordinary channels
(R3). -/
def State.safChannels (s : State) : State :=
  if !s.isSX then s else s.each (List.range 4) fun s k =>
    let s := s.each [16 + 2 * k, 17 + 2 * k] fun s c => (s.put R.FIO_CFG_THR (s.get R.SAF_SIN_CFG_THR k) c).put R.FIO_CFG_DIR 0 c
    (s.put R.FIO_CFG_DIR (s.get R.SAF_SO_CFG_EN k) (24 + 2 * k)).put R.FIO_CFG_DIR 0 (25 + 2 * k)

/-- The word in use after a set has been committed: of a word that the active overlay covers, the value in use stands unless the set
gives the word another base value (R287). -/
def State.safUse (s : State) (o : Nat) : Nat :=
  if (s.baseW.any fun p => p.1 == 0x50000000 + o) && s.load (safSet o) 4 == s.safBase o then s.safWord o else s.load (safSet o) 4

/-- A committed set is the base of the words that the active overlay covers; one that gives such a word another value overrides the mode
(R284, R287, log entry 287). -/
def State.safRebase (s : State) : State :=
  let kind5 := fun (p : Nat × Nat) => bits p.1 28 4 == 5
  let new := fun (p : Nat × Nat) => s.load (safSet (bits p.1 0 16)) 4
  let chg := s.baseW.any fun p => kind5 p && new p != p.2
  ({ s with baseW := s.baseW.map fun p => if kind5 p then (p.1, new p) else p } : State).when chg fun s =>
    s.put R.CFG_MODE_OVERRIDDEN 1

/-- A committed set takes effect (R409): changed connections start over, newly enabled groups are in demand as at a start
of SC. -/
def State.safApply (s : State) : State :=
  if !s.on H.SAF_NEWP then s
  else
    let t := (((s.safWith s.safUse).safRebase).put H.SAF_NEWP 0).put H.SAF_CONF 1
    let t := t.each (List.range 16) fun t g =>
      if t.on R.SAF_SG_CFG_EN g && !s.on R.SAF_SG_CFG_EN g then
        (((t.orBit R.SAF_SG_DEM g).orBit R.SAF_SG_STO g).orBit H.SAF_WAIT g).put H.SAF_OWN 0 g
      else t
    let t := t.each (List.range 64) fun t c =>
      if safDiff s t (0x800 + 0x20 * c) 2 then
        if t.conn c 1 then t.connStart c else (t.put R.SAF_CONN_STAT_STATE 0 c).put R.SAF_CONN_SDATA 0 c
      else t
    let t := t.when (t.get R.SAF_STATUS_STATE == 0) fun t => t.put R.SAF_STATUS_STATE 1
    t.safChannels

/-! ### Evaluation (R377) -/

/-- The partner's stop-group demand word of the sample: a free value, for no command carries it; none counts while Conjunction is
lost (R423). -/
def State.partnerDemand (s : State) : State :=
  let pair := s.get R.CNJ_STATE_ROLE == 2 || (s.get R.CNJ_STATE_ROLE == 1 && s.get H.CNJ_PROLE == 2)
  if pair && s.get R.CNJ_STATE_LANES != 0 then (s.put H.SAF_PDEM (s.free 16)).useFree else s.put H.SAF_PDEM 0

/-- The end of path 1: resets, pairs, demands and offs act; what a release needs is noted. -/
def State.path1 (s : State) : State :=
  let s := (((s.safApply).put H.SAF_REL 0).put H.SAF_PREL 0).partnerDemand
  let s := s.when (s.on H.INJ_SC) fun s =>
    let i := s.get H.INJ_SC - 1
    ((s.report 0x07 i 0xFFFF 0).put H.INJ_SC 0).scFault 2
  let s := s.when (s.inFullStop && !s.on H.FS_STO && (s.on H.FS_X || decide (s.get H.FS_DUE ≤ s.smpT))) fun s => s.fsSto
  let s := s.each (List.range 4) fun s k =>
    let r := s.pairIn k
    r.1.when s.isSX fun t => (t.put R.SAF_SIN_STAT_CH_A (b2n r.2.1) k).put R.SAF_SIN_STAT_CH_B (b2n r.2.2) k
  let r := s.resetsNow
  let s := r.1
  let s := s.each ((List.range 4).filter fun k => s.on R.SAF_SIN_CFG_EN k) fun s k =>
    s.pairEval k (s.on R.SAF_SIN_STAT_CH_A k) (s.on R.SAF_SIN_STAT_CH_B k)
  let s := s.each (List.range 16) fun s g => s.sgEval r.2 g
  let s := s.each (List.range 4) fun s k => s.soOff k
  (s.put H.SO_LOSS 0).resetCount.produce

/-- Both paths have ended and agree: releases and switch-ons act, and SAFE_RESET requests complete. -/
def State.path2 (s : State) : State :=
  let s := s.each (bitsOn 4 (s.get H.SAF_PREL)) fun s k => s.put R.SAF_SIN_STAT_DEMAND 0 k
  let s := s.when (!s.inFullStop) fun s => s.each (bitsOn 16 (s.get H.SAF_REL)) fun s g => s.sgLeave g
  let s := (s.put H.SAF_REL 0).put H.SAF_PREL 0
  let s := s.each (List.range 16) fun s g => s.when (!s.slsSource g || !s.on R.SAF_SG_CFG_EN g) fun s => s.clearBit H.SAF_SLS g
  let s := s.each (List.range 4) fun s k => s.soOn k
  let s := s.each (s.waits.filter fun w => w.opc == 0x0902 && w.key == 1) fun s w => s.done w.mb (toBytes 4 w.arg)
  s.produce

end Sys2Proof.Machine
end

