-- ==== Sys2Proof/Machine/Safe.lean ====
section
/-! DEFINITION. Commands of the safety family (R377 to R411) and the cut-off of slots and containers (R222). -/

namespace Sys2Proof.Machine

/-- CUT_OFF: the frame builder fixes the command half of a slot, or the content of a container (R222, R403). -/
def execCutOff (r : Nat) (cont : Bool) (i : Nat) (s : State) : Out :=
  .next (if 2 ≤ r then s else if cont then s.cutCont r i else s.cutSlot r i)

/-- SAFE_SAMPLE: sample `j` at the end of path 1, or with both paths of it ended (R377). While SAFE is in reset nothing is
evaluated; an injection withholds the sample's service (R378, R458). -/
def execSafeSample (j : Nat) (path2 : Bool) (s : State) : Out :=
  .next (
    if s.domDown 3 || s.on H.SC_HALT then s
    else
      let s := s.clockTo (j * 125000) 0
      if path2 then
        if s.get H.SAF_J = j + 1 then s.path2.when s.isSX fun s => s.put R.SAF_SAMPLE j else s
      else if s.get H.SAF_J = j + 1 then s
      else if s.on H.INJ_WD then (s.put H.INJ_WD 0).injFired 0x08 0
      else s.path1.put H.SAF_J (j + 1))

/-- WATCHDOG_EXPIRY (R378). -/
def execWatchdogExpiry (s : State) : Out :=
  .next (if s.get H.SAF_J = 0 ∨ s.timeUp ((s.get H.SAF_J - 1) * 125000 + 150000) then s.wdExpire else s)

/-- SS1_EXPIRY: an SS1-t time has run out, of a stop group or (16) of Full Stop; the next sample acts on it (R383,
R387). -/
def execSs1Expiry (g : Nat) (s : State) : Out :=
  .next (
    if g = 16 then s.when (s.inFullStop && !s.on H.FS_STO && decide (s.get H.FS_DUE ≤ s.now)) fun s => s.put H.FS_X 1
    else s.when (decide (g < 16) && bit (s.get R.SAF_SG_DEM) g && s.on R.SAF_SG_CFG_FUNC g && s.get H.SAF_OWN g != 0 &&
        decide (s.get H.SAF_OWN g - 1 + s.get R.SAF_SG_T_SS1 g * 1000000 ≤ s.now))
      fun s => s.orBit H.SAF_SS1X g)

/-- DISCREPANCY_FAULT: sample N of a window has passed without the second channel following (R392). -/
def execDiscrepancyFault (k : Nat) (s : State) : Out :=
  .next (
    s.when (decide (k < 4) && s.on R.SAF_SIN_CFG_EN k && s.on R.SAF_SIN_STAT_WIN k &&
      decide (8 * s.get R.SAF_SIN_CFG_DISC k ≤ s.get R.SAF_SIN_STAT_WCNT k)) fun s => s.pairFault k)

/-- FSTOP_N_LOW: another device holds the pin low for 1 µs (R388). SC in reset reads the pin when it starts (R485). -/
def execFstopNLow (s : State) : Out :=
  .next (
    if s.domDown 3 then (s.put H.FS_LOW 1).put R.SAF_STATUS_FSTOP_PIN 0
    else if s.fsDrive then s
    else ((s.put H.REL_L s.now).put R.SAF_STATUS_FSTOP_PIN 0).fsEnter 0)

/-- FULL_STOP_END: within a release window the pin has been high for 1 ms without interruption (R389). -/
def execFullStopEnd (s : State) : Out :=
  .next (s.when (s.on H.REL_ON && !s.fsHeld && s.timeUp (s.get H.REL_L + 1000000) &&
    decide (s.now ≤ s.get H.REL_T + 100000000)) fun s => s.fsEnd)

/-- FULL_STOP_RELEASE_TIMEOUT: the pin has not been high within 100 ms, and is driven low again (R389). -/
def execFullStopReleaseTimeout (s : State) : Out :=
  .next (s.when (s.timeUp (s.get H.REL_T + 100000000)) fun s => s.relFail)

/-- The slot of output `k` begins k quarters of a period into a period of distributed time; the tick is that of its start (R397). -/
def State.soSlotStarts (s : State) (k t : Nat) : Bool :=
  let p := 1000000 * s.get R.SAF_TP_PERIOD
  (t + p - k * p / 4) % max 1 p == 0

/-- The refresh of the tick in hand carries the switch commands as they are now (R397, R398). -/
def State.soSend (s : State) (k : Nat) : State := s.put H.SO_SENT (s.get H.SO_CMD k) k

/-- SAFE_TEST_PULSE: the slot of an output begins, at its tick; or it ends, with the readback of its last tick (R397, R398). -/
def execSafeTestPulse (k : Nat) (last rbHigh : Bool) (s : State) : Out :=
  .next (
    if !s.isSX || !decide (k < 4) || !s.on R.SAF_SO_CFG_EN k then s
    else if !last then
      if s.soSlotStarts k (s.get H.FIO_TT) then
        let s := (((s.put H.SO_SLOT 1 k).put H.SO_CUT 0 k).put H.SO_TPD 0 k).put H.SO_SLT (s.get H.FIO_TT) k
        ((s.when (s.on H.SO_LIVE k) fun s => (s.put H.SO_TP 1 k).put H.SO_TPD 1 k).soDrive k).soSend k
      else s
    else if s.get H.FIO_TT < s.get H.SO_SLT k + 10000 * s.get R.SAF_TP_WIDTH then s
    else
      let tp := s.on H.SO_TPD k
      let cut := s.on H.SO_CUT k || s.on R.SAF_SO_STAT_FAULT k
      let s := (((s.put H.SO_SLOT 0 k).put H.SO_TP 0 k).put H.SO_TPD 0 k).put H.SO_CUT 0 k
      if !tp then (s.soDrive k).soSend k
      else if cut then ((s.incSat R.SAF_SO_CNT_DISC k).soDrive k).soSend k
      else
        let i := s.get H.INJ_SO k
        let other := (List.range 4).any fun m => m != k && s.on R.SAF_SO_STAT_ON m
        let s := s.when (i == 1 || i == 2) fun s => s.put H.INJ_SO 0 k
        if i = 2 ∨ (i ≠ 1 ∧ rbHigh ∧ other) then s.soFail k 2
        else if i = 1 ∨ rbHigh then s.soFail k 1
        else (s.soDrive k).soSend k)

/-- PROOF_STEP: the step in progress ends, after its time, and is checked (R399). -/
def execProofStep (k : Nat) (rbHigh senseHigh : Bool) (s : State) : Out :=
  .next (s.when (decide (k < 4) && s.get H.SO_PRF k != 0 &&
    s.timeUp (s.get H.SO_PRT k + s.proofNs (s.get H.SO_PRF k))) fun s => s.soStep k rbHigh senseHigh)

/-- PROOF_DUE: an enabled output has gone 30 days without proof (R399). -/
def execProofDue (s : State) : Out :=
  .next (s.when (s.isSX && s.proofOld) fun s => s.proofDue)

/-- CONTAINER_LANDING: a consumed container lands (R404, R405). A standby takes the number of a produced container that
passes (R423). -/
def execContainerLanding (c : Nat) (bytes : List Nat) (s : State) : Out :=
  .next (
    let b := (bytes.take 16).map (· % 256)
    if s.domDown 3 || b.length != 16 then s
    else if s.conn c 1 then s.landCont c b
    else if s.conn c 0 && (s.get R.CNJ_STATE_ROLE == 2 || s.get R.CNJ_STATE_ROLE == 3) && cCrcOk b &&
        cId b == s.get R.SAF_CONN_ID c then
      s.put R.SAF_CONN_STAT_CNUM (cCnum b) c
    else s)

/-- CONNECTION_WATCHDOG: WD has elapsed in RUN without an accepted container (R404). -/
def execConnectionWatchdog (c : Nat) (s : State) : Out :=
  .next (s.when (s.conn c 1 && !s.domDown 3 && s.get R.SAF_CONN_STAT_STATE c == 2 &&
    s.timeUp (s.get H.CN_T c + 1000000 * s.get R.SAF_CONN_WD c)) fun s => s.connFault c 5)

/-- SAFE_PARAM_WRITE: safety parameter words are staged (R276, R409). -/
def execSafeParamWrite (mb : Nat) (s : State) : Out :=
  .next (s.request mb 0x0900 12 fun s =>
    let off := s.par mb 0 4
    let n := s.par mb 4 4
    let w := fun (i : Nat) => s.par mb (8 + 4 * i) 4
    if !s.isSX then s.fail mb 0x0006
    else if !s.sessionOk mb then s.fail mb 0x0008
    else
    let s := s.safetyUse mb
    if off < 0x20 ∨ 0x1000 < off + 4 * n ∨ off % 4 ≠ 0 ∨ n = 0 ∨ 1020 < n then s.fail mb 0x0005
    else if s.get H.MB_LEN mb < 8 + 4 * n then s.fail mb 0x0002
    else if !((List.range n).all fun i => safRange (off + 4 * i) (w i)) then s.fail mb 0x0005
    else
      let ws := (List.range n).map w
      let s := s.each (List.range n) fun s i =>
        (s.store (safStaged (off + 4 * i)) 4 (ws.getD i 0)).setByte (safMark (off + 4 * i)) 1
      s.done mb (toBytes 4 n))

/-- SAFE_PARAM_COMMIT: the staged set is checked and goes to the safety store (R298, R409). -/
def execSafeParamCommit (mb : Nat) (s : State) : Out :=
  .next (s.request mb 0x0901 4 fun s =>
    if !s.isSX then s.fail mb 0x0006
    else if !s.sessionOk mb then s.fail mb 0x0008
    else
      let s := s.safetyUse mb
      let ws := safWords.map s.safNext
      let t := s.safWith s.safNext
      let r := safRefuse s t (Config.safetyCrc (ws ++ s.ovlSafety) % 2 ^ 32) (s.par mb 0 4)
      if r ≠ 0 then s.fail mb r
      else
        let s1 := s.each safWords fun x o => x.store (safWrite mb o) 4 (s.safNext o)
        (s1.zeroRange (safMark 0) (safMark 0x1000)).changeWait mb 0x0901 (safChanged s t))

/-- SAFE_RESET: waits for the next safe sample (R410). -/
def execSafeReset (mb : Nat) (s : State) : Out :=
  .next (s.request mb 0x0902 20 fun s => if !s.isSX then s.fail mb 0x0006 else (s.safetyUse mb).wait mb 0x0902 0)

/-- SAFE_TEST: the proof of the named outputs that are enabled (R399, R410). A latched fault keeps both switches open (R400), so an
output with one is not proved and counts as failed, log entry 253. -/
def execSafeTest (mb : Nat) (s : State) : Out :=
  .next (s.request mb 0x0903 4 fun s =>
    if !s.isSX then s.fail mb 0x0006
    else
      let s := s.safetyUse mb
      let ks := (bitsOn 4 (s.par mb 0 4)).filter fun k => s.on R.SAF_SO_CFG_EN k
      if ks.isEmpty then s.done mb (toBytes 4 0)
      else
        let s := s.each ks fun s k => s.soProofOff k 2
        let s := s.wait mb 0x0903 0 (ks.foldl setBit 0)
        s.each ks fun s k => if s.on R.SAF_SO_STAT_FAULT k then s.soTested k 1 else s.soProve k (s.soBlocked k))

/-- FULL_STOP: Full Stop with cause host (R387). -/
def execFullStop (mb : Nat) (s : State) : Out :=
  .next (s.request mb 0x0904 0 fun s => ((s.safetyUse mb).fsEnter 1).done mb)

/-- FULL_STOP_RELEASE: outside Full Stop no effect; refused while a cause lasts; otherwise FSTOP_N is released and the
request waits (R389). The pin's level in the window is the outside's. -/
def execFullStopRelease (mb : Nat) (s : State) : Out :=
  .next (s.request mb 0x0905 0 fun s =>
    let s := s.safetyUse mb
    if !s.inFullStop then s.done mb
    else if s.fsHeld then s.fail mb 0x0902
    else
      let s := s.when (!s.on H.REL_ON) fun s =>
        (((s.put R.SAF_STATUS_FSTOP_PIN (s.free 1)).useFree).put H.REL_T s.now).put H.REL_L s.now
      (s.put H.REL_ON 1).wait mb 0x0905 0)

end Sys2Proof.Machine
end

