-- ==== Sys2Proof/Machine/PairOps.lean ====
section
/-! DEFINITION. The redundant pair (R414 to R442): roles, the digest, giving up, switch-over and rejoining. -/

namespace Sys2Proof.Machine

/-- The unit's role, with HIF_STATUS.ROLE and cause 10 on its change (R416). -/
def State.setRole (s : State) (r : Nat) : State :=
  let shown := if r = 4 then 2 else if r = 5 then 0 else r
  let s := s.put R.CNJ_STATE_ROLE r
  (s.when (s.get R.HIF_STATUS_ROLE != shown) fun s => s.cause 10).put R.HIF_STATUS_ROLE shown

/-- The unit heads the rings that run (R430). -/
def State.takeHead (s : State) : State :=
  s.each (List.range 2) fun s r => s.when (s.get R.NRT_RSTATE_STATE r == 4) fun s =>
    let s := (s.put R.NRT_RSTATE_HEAD 1 r).put R.NRT_TOKEN_CID (s.get R.HIF_CID) r
    s.put R.NRT_TOKEN_EPOCH (s.get R.CNJ_EPOCH) r

/-- The unit heads no ring and forwards (R415, R430). -/
def State.dropHead (s : State) : State := s.each (List.range 2) fun s r => s.put R.NRT_RSTATE_HEAD 0 r

/-- A rejoin begins with its transfer (R436). -/
def State.rejoinStart (s : State) : State :=
  let s := ((s.setRole 3).put R.CNJ_STATE_REJOIN_PH 1).put R.CNJ_STATE_PERMILLE 0
  (s.put R.CNJ_BACKLOG 0).put H.CNJ_MATCH 0

/-- A rejoin fails, or is abandoned: ROLE 4 (R435, R437). -/
def State.rejoinFail (s : State) : State :=
  if s.get R.CNJ_STATE_ROLE ≠ 3 then s
  else ((s.setRole 4).put R.CNJ_STATE_REJOIN_PH 0).put R.CNJ_FLAGS_REJOIN_FAIL 1

/-- What a unit that has given up or been reset does: it rejoins by itself, or waits in ROLE 4 (R438). -/
def State.gaveUp (s : State) : State := if s.on R.CNJ_CFG_AUTO_REJOIN then s.rejoinStart else s.setRole 4

/-- Requests that wait for a handover end with a status: DONE with the cycle, or FAILED (R440). -/
def State.handoverEnd (s : State) (reason : Nat) (cyc : Nat) : State :=
  let s := s.put H.CNJ_HO 0
  s.each (s.waits.filter fun w => w.opc == 0x0A02 || w.opc == 0x0A03) fun s w =>
    if reason = 0 then s.done w.mb (toBytes 8 cyc) else s.fail w.mb reason

/-- A switch-over is due at T_s, for a cause (R430): no verdict is awaited any more, and a handover or takeback that was asked for is
cancelled (R435). -/
def State.swDue (s : State) (c : Nat) : State := ((s.swMark c).put H.CNJ_DW 0).handoverEnd 0x0A04 0

/-- An own fault of R429: an active unit with a standby in ROLE 2 gives up at the next boundary; a rejoin is abandoned (R435). -/
def State.ownFault (s : State) : State :=
  if s.get R.CNJ_STATE_ROLE = 1 ∧ s.get H.CNJ_PROLE = 2 then s.swDue 2 else s.rejoinFail

/-- The unit is in a pair with its partner in ROLE 1 or 2 (R454). -/
def State.inPair (s : State) : Bool :=
  s.get R.CNJ_STATE_ROLE == 2 || (s.get R.CNJ_STATE_ROLE == 1 && s.get H.CNJ_PROLE == 2)

/-! ### The digest (R424, R425) -/

/-- `n` shifts of a CRC-64 register, polynomial 0x42F0_E1EB_A9EA_3693, no reflection. -/
def crc64Bits : Nat → Nat → Nat
  | 0, c => c
  | n + 1, c => crc64Bits n (if bit c 63 then (2 * c % 2 ^ 64) ^^^ 0x42F0E1EBA9EA3693 else 2 * c % 2 ^ 64)

/-- CRC-64 of bytes, initial value and final XOR of ones (R424). -/
def crc64 (bs : List Nat) : Nat :=
  bs.foldl (fun c b => crc64Bits 8 (c ^^^ (b % 256 * 2 ^ 56))) (2 ^ 64 - 1) ^^^ (2 ^ 64 - 1)

/-- The axes whose records go into the digest of frame `f`: those with a command half in it, but for the excluded. -/
def State.digAxes (s : State) (f : Nat) : List Nat :=
  (List.range 256).filter fun a => s.load (digRec f a + 24) 8 == f + 1 && decide (s.get H.CNJ_XU a ≤ f)

/-- D_f of this unit (R424), with an injection's inverted bit (R458). -/
def State.digest (s : State) (f : Nat) : Nat :=
  let d := crc64 ((s.digAxes f).flatMap fun a => s.bytes (digRec f a) 24)
  if s.get H.INJ_DIG = f + 1 then d ^^^ 1 else d

/-- The one-sided axes of a frame are left out of its digest and of the next C; at the standby their next clauses wait for the copy
(R425, R426). -/
def State.oneSided (s : State) (f : Nat) (as : List Nat) : State :=
  let s := s.each as fun s a => (s.put H.CNJ_XU (f + 1 + s.get R.NRT_RCFG_C (s.get H.AX_BIND a)) a).incSat R.CNJ_CNT_ONESIDED
  let s := s.when (s.get R.CNJ_STATE_ROLE == 2) fun s => s.each as fun s a => s.put H.CNJ_CPY 1 a
  s.when (!as.isEmpty) fun s => s.put R.CNJ_FLAGS_ONESIDED 1

/-- The digests differ (R427): the units diagnose themselves and await verdicts, but not where an own fault has already made the
switch-over due (R435). -/
def State.mismatch (s : State) : State :=
  let s := (s.put R.CNJ_FLAGS_MISMATCH 1).incSat R.CNJ_CNT_MISMATCH
  let s := ((s.put R.CNJ_DIAG_LOCAL 0).put R.CNJ_DIAG_PARTNER 0).put R.CNJ_DIAG_FAILSTEP 0
  let s := (s.report 0x1A 0 0xFFFF 0).put H.CNJ_DWT s.now
  (s.when (!s.on H.CNJ_SWP) fun s => s.put H.CNJ_DW 1).handoverEnd 0x0A04 0

/-- The verdicts decide (R428): `act` and `stb` are 1 PASS, 2 FAIL, 3 none. -/
def State.pairDecide (s : State) (act stb : Nat) : State :=
  let s := s.put H.CNJ_DW 0
  if act = 2 ∧ stb = 1 then s.swDue 1
  else if act = 1 ∧ (stb = 2 ∨ stb = 3) then
    let s := s.put R.CNJ_FLAGS_REJOIN_FAIL 0
    if s.get R.CNJ_STATE_ROLE = 1 then s.put H.CNJ_PROLE 4 else s.setRole 4
  else
    let s := s.when (act == 1 && stb == 1) fun s => s.put R.CNJ_FLAGS_DUAL_PASS 1
    s.fsEnter 4

/-! ### Switch-over (R430, R439) -/

/-- Requests PENDING on the outgoing unit end with ROLE_CHANGED (R435). -/
def State.roleChanged (s : State) : State :=
  s.each (List.range 32) fun s mb =>
    s.when (s.get R.MBX_STAT_STATUS mb == 1 && !standbyRuns (s.get H.MB_OPC mb)) fun s => s.fail mb 0x0A07

/-- The ring configuration words of R249 that the units compare (R414). -/
def State.ringWords (s : State) : List Nat :=
  (List.range 2).flatMap fun r => (List.range 4).map fun k => s.word R.nrtFields (0x50000 + 0x100 * r + 4 * k)

/-- The code of the first item of R414 in which the partner differs, 0 for none: what it announces over Conjunction is free, and is
compared with this unit's own. -/
def State.pairRefuse (s : State) (cid : Nat) (pref : Bool) : Nat :=
  if s.freeAt 0 1 ≠ s.get R.HIF_ID_VARIANT then 1
  else if s.freeAt 1 32 ≠ s.get R.HIF_FW_VER then 2
  else if s.freeAt 2 1 = 1 then 3
  else if s.freeAt 3 32 ≠ s.get R.CFG_SAF_CRC then 4
  else if ((List.range 8).map fun k => s.freeAt (4 + k) 32) ≠ s.ringWords then 5
  else if s.freeAt 12 1 = 1 then 6
  else if pref ∧ s.freeAt 13 1 = 1 then 7
  else if s.freeAt 14 32 ≠ cid then 8
  else 0

/-- The token moves at a boundary, for a cause: step 2 to 4 of R430 on the unit that takes it, steps 1 and 4 on the one
that gives it. The boundary is the one that comes next. -/
def State.tokenMove (s : State) (c : Nat) : State :=
  let cyc := s.get H.BND_N + 1
  let s := ((s.put R.CNJ_SW_CYC cyc).put R.CNJ_SW_CAUSE c).put H.CNJ_SWP 0
  let s := ((s.put R.CNJ_FLAGS_SWITCH 1).incSat R.CNJ_CNT_SWITCH).put H.CNJ_ISO 0
  if s.get R.CNJ_STATE_ROLE = 1 then
    let s := (s.dropHead).put H.CNJ_PROLE 1
    if 4 ≤ c then s.setRole 2 else s.roleChanged.gaveUp
  else
    let s := (s.incWrap R.CNJ_EPOCH).takeHead
    (s.setRole 1).put H.CNJ_PROLE (if 4 ≤ c then 2 else 4)

/-- Why the token moves at a switch-over; 0 where nothing makes it move (R429, R430): what has been decided; an own fault of this
active unit that no boundary has seen yet; or, at a standby that hears its partner, an own fault of the partner. -/
def State.swCause (s : State) : Nat :=
  let role := s.get R.CNJ_STATE_ROLE
  if role ≠ 1 ∧ role ≠ 2 then 0
  else if s.on H.CNJ_SWP then s.get H.CNJ_SWP
  else if role = 1 then (if s.get H.CNJ_PROLE = 2 ∧ (s.on H.QUAR_2 ∨ s.on R.SCH_STATUS_OVERLOAD) then 2 else 0)
  else if s.get R.CNJ_STATE_LANES ≠ 0 then 2 else 0

/-- The boundary that comes next lies at least 1.0 µs after the decision: it is T_s (R430). -/
def State.swBoundary (s : State) : Bool :=
  !s.on H.CNJ_SWP || decide (s.get H.CNJ_SWT + 1000 ≤ s.get H.BND_T + s.baseNs)

/-- A boundary for a handover is agreed: at least 4 cycles ahead (R439, R440). -/
def State.handoverAgree (s : State) (c cyc : Nat) : State :=
  (s.put H.CNJ_HO (max cyc (s.get H.BND_N + 4) + 1)).put H.CNJ_HOC c

/-- The backlog that the kept region holds, in cycles (R437): feedback halves and containers of every cycle in 2 MiB. -/
def State.backlogCap (s : State) : Nat :=
  let per := (List.range 2).foldl (fun n r =>
    if s.on R.NRT_RCFG_EN r then n + s.get R.NRT_RCFG2_NSLOT r * (s.slotSize r / 2) + 16 * s.get R.NRT_RCFG2_NZHV r else n) 0
  if per = 0 then 65535 else 2 ^ 21 / per

/-- Every Nirte axis of the pair stands still (R439). -/
def State.standing (s : State) : Bool :=
  (s.axes.filter s.isNirte).all fun a =>
    s.axSt a == 2 || (s.axSt a == 4 && s.get R.TRJ_STAT_MODE a == 0 && s.on R.TRJ_STAT_INPOS a)

/-- The step of the self-diagnosis that this unit's own state fails; 0 none: 3 where a detector of the summary has been set since
the last matching digest, 4 where REFCLK25, PLL-A or PLL-B is lost (R427). -/
def State.diagStep (s : State) : Nat :=
  if s.on H.CNJ_DETS then 3 else if bits (s.get H.CLK_LOST) 0 3 ≠ 0 then 4 else 0

/-- A cycle of a rejoin (R436, R437): the transfer goes on, or the replay works on its backlog, to which each cycle adds one at the
most; a backlog above the kept region ends the rejoin. How far a cycle brings them is free. -/
def State.rejoinCycle (s : State) : State :=
  let k := s.free 16
  let b := s.get R.CNJ_BACKLOG
  if s.get R.CNJ_STATE_ROLE = 3 ∧ s.get R.CNJ_STATE_REJOIN_PH = 1 then
    let p := s.get R.CNJ_STATE_PERMILLE
    ((s.put R.CNJ_STATE_PERMILLE (p + k % (1001 - p))).put R.CNJ_BACKLOG (b + s.freeAt 1 1)).useFree.useFree
  else if s.get R.CNJ_STATE_ROLE = 3 ∧ s.get R.CNJ_STATE_REJOIN_PH = 2 then
    let n := k % (b + 2)
    let s := ((s.put R.CNJ_BACKLOG n).put R.CNJ_STATE_PERMILLE (1000 * (s.get H.CNJ_BKL - n) / max 1 (s.get H.CNJ_BKL))).useFree
    if s.backlogCap < n then s.rejoinFail else s
  else s

/-- The pair's part of a cycle boundary: cycles of standstill, isolation, a head that ceases, requests to unpair (R433, R434, R439,
R440). Outside a pair no copy is awaited. -/
def State.pairBoundary (s : State) : State :=
  let s := if s.standing then s.incSat H.CNJ_STL else s.put H.CNJ_STL 0
  let s := s.when (s.get R.CNJ_STATE_ROLE != 2) fun s =>
    s.each ((List.range 256).filter fun a => s.on H.CNJ_CPY a) fun s a => s.put H.CNJ_CPY 0 a
  let s := s.rejoinCycle
  let s := s.when (s.on H.CNJ_ISO) fun s =>
    (s.put H.CNJ_ISO 0).when (s.get R.CNJ_STATE_ROLE == 2) fun s => s.setRole 4
  let s := s.when (s.on H.CNJ_CEASE) fun s => ((s.put H.CNJ_CEASE 0).dropHead.put H.CNJ_PROLE 1).rejoinStart
  s.each (s.waiting 0x0A04 0) fun s mb =>
    let s := (s.setRole 0).put H.CNJ_PROLE 0
    (((s.put R.CNJ_STATE_REJOIN_PH 0).put H.CNJ_SWP 0).handoverEnd 0x0A04 0).done mb

/-- A Conjunction lane has had no valid word for 1.0 µs; with both lost, so is Conjunction (R418, R433). -/
def State.laneLost (s : State) (l : Nat) : State :=
  if 2 ≤ l ∨ !bit (s.get R.CNJ_STATE_LANES) l then s
  else
    let s := (s.clearBit R.CNJ_STATE_LANES l).put R.CNJ_FLAGS_LANE_LOST 1
    if s.get R.CNJ_STATE_LANES ≠ 0 then s
    else
      let s := s.put R.CNJ_FLAGS_LINK_LOST 1
      if s.get R.CNJ_STATE_ROLE = 3 then s.rejoinFail
      else if s.get R.CNJ_STATE_ROLE = 1 then (s.put H.CNJ_PROLE 4).handoverEnd 0x0A04 0
      else if s.get R.CNJ_STATE_ROLE = 2 then ((s.put H.CNJ_ISO 1).handoverEnd 0x0A04 0).cnjCheck
      else s

end Sys2Proof.Machine
end

