-- ==== Sys2Proof/Machine/Pair.lean ====
section
/-! DEFINITION. Commands of the pair family (R414 to R442). -/

namespace Sys2Proof.Machine

/-- FOREIGN_HEAD_FRAME: a head compares the epoch of another head's frame with its own (R244, R434). -/
def execForeignHeadFrame (r cid epoch : Nat) (s : State) : Out :=
  .next (
    if 2 ≤ r ∨ !s.on R.NRT_RSTATE_HEAD r ∨ cid = s.get R.HIF_CID then s
    else
      let s := s.incSat R.NRT_CNT_FOREIGN_HEAD r
      if s.get R.CNJ_EPOCH < epoch % 2 ^ 16 then s.put H.CNJ_CEASE 1
      else if epoch % 2 ^ 16 = s.get R.CNJ_EPOCH then s.fsEnter 4
      else s)

/-- The words PAIR_CONFIG sets (R277): the partner and CNJ_CFG of its flags. -/
def State.pairConf (s : State) (cid fl : Nat) : State :=
  let s := ((s.put R.CNJ_PARTNER_CID cid).put R.CNJ_CFG_EN fl).put R.CNJ_CFG_PREF (fl / 2)
  (s.put R.CNJ_CFG_AUTO_REJOIN (fl / 4)).put R.CNJ_CFG_AUTO_TB (fl / 8)

/-- PAIR_CONFIG: the checks of R414 and the roles of R415. What the partner announces is the outside's: its items and
whether it heads a ring are free values, log entry 161. -/
def execPairConfig (mb : Nat) (s : State) : Out :=
  .next (s.request mb 0x0A00 8 fun s =>
    let cid := s.par mb 0 4
    let fl := s.par mb 4 4
    let answer := fun (s : State) => toBytes 4 (s.get R.CNJ_STATE_ROLE) ++ toBytes 4 (s.get R.CNJ_STATE_REFUSE)
    if !bit fl 0 then
      let s := (((s.pairConf cid fl).setRole 0).put R.CNJ_STATE_REFUSE 0).put H.CNJ_PROLE 0
      s.done mb (answer s)
    else
      let refuse := s.pairRefuse cid (bit fl 1)
      let pref := s.freeAt 13 1 == 1
      let s := s.each (List.range 15) fun s _ => s.useFree
      let theirs := s.free 1 == 1
      let s := (s.useFree).put R.CNJ_STATE_REFUSE refuse
      if refuse ≠ 0 then
        let s := s.setRole 5
        s.fail mb 0x0A01 (answer s)
      else
        let s := s.pairConf cid fl
        let head := (List.range 2).any fun r => s.on R.NRT_RSTATE_HEAD r && s.get R.NRT_RSTATE_STATE r == 4
        let act := head || (!theirs && (bit fl 1 || (!pref && decide (s.get R.HIF_CID < cid))))
        let s := if act then (s.setRole 1).put H.CNJ_PROLE 3 else (s.dropHead.put H.CNJ_PROLE 1).rejoinStart
        s.done mb (answer s))

/-- PAIR_REJOIN: phase 1 starts (R436, R438). -/
def execPairRejoin (mb : Nat) (s : State) : Out :=
  .next (s.request mb 0x0A01 0 fun s =>
    let r := s.get R.CNJ_STATE_ROLE
    if !s.on R.CNJ_CFG_EN ∨ r = 0 ∨ r = 5 then s.fail mb 0x0A02
    else if r ≠ 4 ∨ s.get H.CNJ_PROLE ≠ 1 then s.fail mb 0x0A04
    else s.rejoinStart.done mb)

/-- PAIR_HANDOVER on the active unit: waits for the agreed boundary, or for the next standstill (R439, R440). -/
def execPairHandover (mb : Nat) (s : State) : Out :=
  .next (s.request mb 0x0A02 8 fun s =>
    if s.get R.CNJ_STATE_ROLE ≠ 1 ∨ s.get H.CNJ_PROLE ≠ 2 then s.fail mb 0x0A04
    else
      let c := s.par mb 0 8
      (s.when (c != 0) fun s => s.handoverAgree 5 c).wait mb 0x0A02 0)

/-- PAIR_TAKEBACK on the preferred standby (R439, R440). -/
def execPairTakeback (mb : Nat) (s : State) : Out :=
  .next (s.request mb 0x0A03 8 fun s =>
    if !s.on R.CNJ_CFG_PREF then s.fail mb 0x0A03
    else if s.get R.CNJ_STATE_ROLE ≠ 2 then s.fail mb 0x0A04
    else
      let c := s.par mb 0 8
      (s.when (c != 0) fun s => s.handoverAgree 4 c).wait mb 0x0A03 0)

/-- PAIR_UNPAIR: at the next boundary (R440). -/
def execPairUnpair (mb : Nat) (s : State) : Out := .next (s.request mb 0x0A04 0 fun s => s.wait mb 0x0A04 0)

/-- LANE_LOST (R418, R433). -/
def execLaneLost (l : Nat) (s : State) : Out := .next (s.laneLost l)

/-- LANE_RESTORED: the lane is in service again (R418). -/
def execLaneRestored (l : Nat) (s : State) : Out :=
  .next (if l < 2 then (s.orBit R.CNJ_STATE_LANES l).put H.CNJ_ISO 0 else s)

/-- JOURNAL_ENTRY: the standby takes a journaled request into the mailbox of the same number (R421); what the mailbox holds for its
own host stays as it is for the host (R266). -/
def execJournalEntry (mb tag opc accept : Nat) (bytes : List Nat) (s : State) : Out :=
  .next (
    if 32 ≤ mb ∨ !s.isStandby then s
    else
      let b := bytes.take 4096
      let s := s.when (!s.on H.MB_JRN mb) fun s => s.jrnAway mb
      let s := (s.setBytes (pageOf mb) b).put H.MB_LEN b.length mb
      let s := ((s.put H.MB_OPC opc mb).put H.MB_TAG tag mb).put H.MB_ACC accept mb
      let s := (s.incWrap H.DB_SEQ).put H.MB_SEQ (s.get H.DB_SEQ) mb
      (s.put H.MB_JRN 1 mb).put R.MBX_STAT_STATUS 1 mb)

/-- JOURNAL_COMPLETION: the active unit's completion enters the tag history of the same mailbox (R421). -/
def execJournalCompletion (mb tag status reason opc handle : Nat) (bytes : List Nat) (s : State) : Out :=
  .next (
    if 32 ≤ mb ∨ !s.isStandby ∨ tag = 0 then s
    else
      s.tagAdd { mb := mb, tag := tag, status := status, reason := reason, rlen := bytes.length, handle := handle,
                 rop := opc, tDone := s.now, bytes := bytes.take 32 })

/-- DIGEST_COMPARISON: the partner's digest `par` of frame `f` and the axes whose bits differ between the units in the ST
and FB maps are held (R425 to R427, R436). -/
def execDigestComparison (f par : Nat) (stMap fbMap : List Nat) (s : State) : Out :=
  .next (
    let role := s.get R.CNJ_STATE_ROLE
    let conf := role == 3 && s.get R.CNJ_STATE_REJOIN_PH == 3
    let pair := (role == 1 && s.get H.CNJ_PROLE == 2) || role == 2
    if !conf && !pair then s
    else
      let as := (List.range 256).filter fun a => (stMap.contains a || fbMap.contains a) && s.axSt a != 0 && s.isNirte a
      let s := s.oneSided f as
      let d := s.digest f
      let s := s.when (s.get H.INJ_DIG == f + 1) fun s => s.put H.INJ_DIG 0
      let s := ((s.put R.CNJ_DIG_LOCAL d).put R.CNJ_DIG_PARTNER par).put R.CNJ_DIG_CYC f
      let s := s.incSat R.CNJ_CNT_CMP
      let bad := d != par % 2 ^ 64 || decide (16 < as.length)
      if conf then
        if bad then s.rejoinFail
        else
          let n := min 64 (s.get H.CNJ_MATCH + 1)
          ((s.put H.CNJ_DETS 0).put H.CNJ_MATCH n).put R.CNJ_STATE_PERMILLE (1000 * n / 64)
      else if bad then s.mismatch
      else s.put H.CNJ_DETS 0)

/-- ONESIDED_COPY: the copy of a one-sided axis's record lands at the standby: offsets and words, those of its group's record from
0x1000 on (R426). -/
def execOnesidedCopy (a : Nat) (words : List (Nat × Nat)) (s : State) : Out :=
  .next (
    if 256 ≤ a ∨ !s.isStandby then s
    else
      let s := s.each (words.filter fun p => decide (p.1 < 0x1000) && p.1 % 4 == 0) fun s p =>
        s.putWord R.axsFields (axRec a + p.1) p.2
      let g := s.groupOf a
      let s := s.when (g != 255) fun s =>
        s.each (words.filter fun p => decide (0x1000 ≤ p.1) && decide (p.1 < 0x1200) && p.1 % 4 == 0) fun s p =>
          s.putWord R.grpFields (grRec g + (p.1 - 0x1000)) p.2
      s.put H.CNJ_CPY 0 a)

/-- VERDICT: both verdicts are held, 1 PASS or 2 FAIL, with the failed step of the own one (R427, R428). An injection makes
a step fail (R458). -/
def execVerdict (own par failStep : Nat) (s : State) : Out :=
  .next (
    if !s.on H.CNJ_DW then s
    else
      let inj := (List.range 6).find? fun k => bit (s.get H.INJ_DIAG) k
      let fails := inj.getD (if own = 1 then s.diagStep else failStep)
      let own := if inj.isNone ∧ own = 1 ∧ s.diagStep = 0 then 1 else 2
      let par := if par = 1 then 1 else 2
      let s := (s.put R.CNJ_DIAG_LOCAL own).put R.CNJ_DIAG_PARTNER par
      let s := s.put R.CNJ_DIAG_FAILSTEP (if own = 1 then 0 else fails)
      let s := (s.when (own == 2) fun s => s.report 0x1B (s.get R.CNJ_DIAG_FAILSTEP) 0xFFFF 0).put H.INJ_DIAG 0
      if s.get R.CNJ_STATE_ROLE = 1 then s.pairDecide own par else s.pairDecide par own)

/-- VERDICT_TIMEOUT: within 10 µs no verdict has come from this unit (`own`) or from the partner; the other's is PASS
(R428). -/
def execVerdictTimeout (own : Bool) (s : State) : Out :=
  .next (
    if !s.on H.CNJ_DW || !s.timeUp (s.get H.CNJ_DWT + 10000) then s
    else
      let act := s.get R.CNJ_STATE_ROLE == 1
      let s := if own then s.put R.CNJ_DIAG_PARTNER 1 else (s.put R.CNJ_DIAG_LOCAL 1).put R.CNJ_DIAG_PARTNER 3
      if act != own then s.pairDecide 1 3
      else if s.get R.CNJ_STATE_LANES = 0 then s.put H.CNJ_DW 0
      else s.pairDecide 3 1)

/-- PERIODIC_SELF_DIAGNOSIS: the known-answer step of every 1024 cycles ends (R429). -/
def execPeriodicSelfDiagnosis (pass : Bool) (s : State) : Out :=
  .next (
    if s.get R.CNJ_STATE_ROLE ≠ 1 ∧ s.get R.CNJ_STATE_ROLE ≠ 2 then s
    else
      let inj := bit (s.get H.INJ_DIAG) 2
      let s := s.clearBit H.INJ_DIAG 2
      if pass && !inj then s
      else
        let s := (s.put R.CNJ_DIAG_LOCAL 2).put R.CNJ_DIAG_FAILSTEP 2
        (s.report 0x1B 2 0xFFFF 0).ownFault)

/-- SWITCH_OVER: T_s, the first boundary at least 1.0 µs after the decision (R430). -/
def execSwitchOver (s : State) : Out :=
  .next (if s.swCause = 0 ∨ !s.swBoundary then s else ((s.swDue s.swCause).tokenMove s.swCause).put H.QUAR_2 0)

/-- HANDOVER: T_h (R439). A boundary that the partner's request has set is not in this unit's state: its active side takes
it for a takeback, its standby side for a handover. -/
def execHandover (s : State) : Out :=
  .next (
    let r := s.get R.CNJ_STATE_ROLE
    if !((r == 1 && s.get H.CNJ_PROLE == 2) || r == 2) || s.get H.CNJ_SWP != 0 || s.on H.CNJ_DW ||
        decide (s.get H.BND_N + 2 < s.get H.CNJ_HO) then s
    else
      let c := if s.on H.CNJ_HO then s.get H.CNJ_HOC else if r = 1 then 4 else 5
      let s := s.tokenMove c
      s.handoverEnd 0 (s.get R.CNJ_SW_CYC))

/-- STANDSTILL: 32 consecutive cycles of standstill: a handover that waits for it, or an automatic takeback, is agreed
(R439). -/
def execStandstill (s : State) : Out :=
  .next (
    if s.on H.CNJ_HO || decide (s.get H.CNJ_STL < 32) then s
    else if s.get R.CNJ_STATE_ROLE = 1 ∧ s.get H.CNJ_PROLE = 2 then
      s.when (!(s.waiting 0x0A02 0).isEmpty) fun s => s.handoverAgree 5 0
    else if s.get R.CNJ_STATE_ROLE = 2 then
      s.when (!(s.waiting 0x0A03 0).isEmpty || (s.on R.CNJ_CFG_AUTO_TB && s.on R.CNJ_CFG_PREF)) fun s => s.handoverAgree 4 0
    else s)

/-- REJOIN_TRANSFER_COMPLETE: replay begins with a backlog, unless the kept region cannot hold it (R436, R437). -/
def execRejoinTransferComplete (backlog : Nat) (s : State) : Out :=
  .next (
    if s.get R.CNJ_STATE_ROLE = 1 then s.put H.CNJ_PROLE 3
    else if s.get R.CNJ_STATE_ROLE ≠ 3 ∨ s.get R.CNJ_STATE_REJOIN_PH ≠ 1 then s
    else if s.backlogCap < backlog then s.rejoinFail
    else (((s.put R.CNJ_STATE_REJOIN_PH 2).put R.CNJ_STATE_PERMILLE 0).put R.CNJ_BACKLOG backlog).put H.CNJ_BKL backlog)

/-- REPLAY_COMPLETE: confirmation begins (R436). -/
def execReplayComplete (s : State) : Out :=
  .next (
    if s.get R.CNJ_STATE_ROLE ≠ 3 ∨ s.get R.CNJ_STATE_REJOIN_PH ≠ 2 then s
    else (((s.put R.CNJ_STATE_REJOIN_PH 3).put R.CNJ_STATE_PERMILLE 0).put R.CNJ_BACKLOG 0).put H.CNJ_MATCH 0)

/-- REJOIN_CONFIRMED: 64 consecutive matching digests: ROLE 2. The active unit learns that its partner is standby
(R436). -/
def execRejoinConfirmed (s : State) : Out :=
  .next (
    if s.get R.CNJ_STATE_ROLE = 1 then s.put H.CNJ_PROLE 2
    else if s.get R.CNJ_STATE_ROLE ≠ 3 ∨ s.get R.CNJ_STATE_REJOIN_PH ≠ 3 ∨ s.get H.CNJ_MATCH < 64 then s
    else ((s.setRole 2).put R.CNJ_STATE_REJOIN_PH 0).put R.CNJ_STATE_PERMILLE 0)

/-- EXPECTED_FRAME_MISSING: at the standby a cycle frame has not come 1 µs after its time (R433). -/
def execExpectedFrameMissing (r : Nat) (s : State) : Out :=
  .next (
    if 2 ≤ r ∨ !s.on R.NRT_RCFG_EN r ∨ s.on R.NRT_RSTATE_HEAD r then s else (s.put H.CNJ_EFM 1).cnjCheck)

end Sys2Proof.Machine
end

