-- ==== Sys2Proof/Machine/EngineAlu.lean ====
section
/-! DEFINITION. The ALU functions of the loop engines, classes 0x1 and 0x2 (R114): one meaning each over engAlu. -/

namespace Sys2Proof.Machine

/-- ADD: wraps modulo 2^32 (R114). -/
def execAdd (e dd da : Nat) (b : AluB) (s : State) : Out :=
  .next (s.engAlu e dd (da % 16 :: aluRegs b) fun s => aluAdd (s.dreg e da) (s.aluS e b))

/-- SUB: wraps modulo 2^32 (R114). -/
def execSub (e dd da : Nat) (b : AluB) (s : State) : Out :=
  .next (s.engAlu e dd (da % 16 :: aluRegs b) fun s => aluSub (s.dreg e da) (s.aluS e b))

/-- ADDS: saturates to 32 bits and sets SAT (R114). -/
def execAdds (e dd da : Nat) (b : AluB) (s : State) : Out :=
  .next (s.engAlu e dd (da % 16 :: aluRegs b) fun s => aluAdds (s.dreg e da) (s.aluS e b))

/-- SUBS: saturates to 32 bits and sets SAT (R114). -/
def execSubs (e dd da : Nat) (b : AluB) (s : State) : Out :=
  .next (s.engAlu e dd (da % 16 :: aluRegs b) fun s => aluSubs (s.dreg e da) (s.aluS e b))

/-- RSUB: Db or IMM minus Da (R114). -/
def execRsub (e dd da : Nat) (b : AluB) (s : State) : Out :=
  .next (s.engAlu e dd (da % 16 :: aluRegs b) fun s => aluSub (s.aluS e b) (s.dreg e da))

/-- AND (R114). -/
def execAnd (e dd da : Nat) (b : AluB) (s : State) : Out :=
  .next (s.engAlu e dd (da % 16 :: aluRegs b) fun s => aluPlain (s.dreg e da &&& s.aluZ e b))

/-- OR (R114). -/
def execOr (e dd da : Nat) (b : AluB) (s : State) : Out :=
  .next (s.engAlu e dd (da % 16 :: aluRegs b) fun s => aluPlain (s.dreg e da ||| s.aluZ e b))

/-- XOR (R114). -/
def execXor (e dd da : Nat) (b : AluB) (s : State) : Out :=
  .next (s.engAlu e dd (da % 16 :: aluRegs b) fun s => aluPlain (s.dreg e da ^^^ s.aluZ e b))

/-- SHL by bits [4:0] (R114). -/
def execShl (e dd da : Nat) (b : AluB) (s : State) : Out :=
  .next (s.engAlu e dd (da % 16 :: aluRegs b) fun s => aluPlain (s.dreg e da * 2 ^ s.aluSh e b))

/-- SHR, logical, by bits [4:0] (R114). -/
def execShr (e dd da : Nat) (b : AluB) (s : State) : Out :=
  .next (s.engAlu e dd (da % 16 :: aluRegs b) fun s => aluPlain (s.dreg e da / 2 ^ s.aluSh e b))

/-- ASR, arithmetic, by bits [4:0] (R114). -/
def execAsr (e dd da : Nat) (b : AluB) (s : State) : Out :=
  .next (s.engAlu e dd (da % 16 :: aluRegs b) fun s => aluPlain (trunc 32 (asr (s32 (s.dreg e da)) (s.aluSh e b))))

/-- MIN, signed (R114). -/
def execMin (e dd da : Nat) (b : AluB) (s : State) : Out :=
  .next (s.engAlu e dd (da % 16 :: aluRegs b) fun s => aluPlain (if s32 (s.dreg e da) ≤ s32 (s.aluS e b) then s.dreg e da else s.aluS e b))

/-- MAX, signed (R114). -/
def execMax (e dd da : Nat) (b : AluB) (s : State) : Out :=
  .next (s.engAlu e dd (da % 16 :: aluRegs b) fun s => aluPlain (if s32 (s.dreg e da) ≤ s32 (s.aluS e b) then s.aluS e b else s.dreg e da))

/-- CMP: the flags of Da − Db; Dd unchanged (R114). -/
def execCmp (e da : Nat) (b : AluB) (s : State) : Out :=
  .next (s.engPlain e (da % 16 :: aluRegs b) true fun s t => t.aluFlags e (aluSub (s.dreg e da) (s.aluS e b)))

/-- MOV: Dd ← Db or IMM (R114). -/
def execMov (e dd : Nat) (b : AluB) (s : State) : Out :=
  .next (s.engAlu e dd (aluRegs b) fun s => aluPlain (s.aluS e b))

/-- ABS, saturating (R114). -/
def execAbs (e dd da : Nat) (s : State) : Out :=
  .next (s.engAlu e dd [da % 16] fun s => aluAbs (s.dreg e da))

/-- NEG, saturating (R114). -/
def execNeg (e dd da : Nat) (s : State) : Out :=
  .next (s.engAlu e dd [da % 16] fun s => aluNeg (s.dreg e da))

end Sys2Proof.Machine
end

