-- ==== Sys2Proof/Machine/EngineCtl.lean ====
section
/-! DEFINITION. Control functions (class 0x0), branches, loops, and pre-emption on the loop engines (R118 to R126). -/

namespace Sys2Proof.Machine

/-- NOP (R120). -/
def execNop (e : Nat) (s : State) : Out := .next (s.engPlain e [] false fun _ t => t)

/-- DONE ends the clause (R120, R128); it is illegal in a delay slot (R123). -/
def execDone (e : Nat) (s : State) : Out :=
  .next (if !s.engCan e then s
    else if s.inDelay e then s.engAbort e 3
    else (s.landLate e).engDone e)

/-- PUB: outbox word w of the clause's level ← Dr (R120, R127). -/
def execPub (e dr w : Nat) (s : State) : Out :=
  .next (s.engPlain e [dr % 16] false fun s t =>
    (t.put H.ENG_OUT (s.dreg e dr) e (4 * s.get H.ENG_LVL1 e + w % 4)).put H.ENG_PUB 1 e (s.get H.ENG_LVL1 e))

/-- PROT closes the next n instructions to pre-emption; PROT 0, PROT in an open window and PROT in a delay slot are
illegal (R120, R123). -/
def execProt (e n : Nat) (s : State) : Out :=
  .next (s.engRun e false []
    (fun s => if s.inDelay e ∨ n % 16 = 0 ∨ esrProt (s.esr e) ≠ 0 then 3 else 0) (fun _ => false) 1 4
    fun _ t => t.put H.ENG_ESR (esrWithProt (t.esr e) n) e)

/-- BRKL: LVL ← LVL − 1 (R119, R120). It writes ESR, so the boundary after it is closed (R124). -/
def execBrkl (e : Nat) (s : State) : Out :=
  .next (s.engPlain e [] false fun s t =>
    (t.put H.ENG_ESR (esrWithLvl (t.esr e) (esrLvl (s.esr e) - 1)) e).put H.ENG_WL 1 e)

/-- MVFS: Dr ← special register (R120); the codes of D0 to D15 and above are illegal here. -/
def execMvfs (e dr code : Nat) (s : State) : Out :=
  .next (s.engRun e false [] (fun _ => if 0x30 ≤ code then 3 else 0) (fun _ => true) 1 4
    fun s t => t.putD e dr (s.special e code))

/-- MVTS: special register ← Dr; RO registers and fields ignore the write (R120). -/
def execMvts (e code dr : Nat) (s : State) : Out :=
  .next (s.engRun e false [dr % 16] (fun _ => if 0x30 ≤ code then 3 else 0) (fun _ => true) 1 4
    fun s t => t.putSpecial e code (s.dreg e dr))

/-- The data registers that a special code reads. -/
def specialRegs (code : Nat) : List Nat := if 0x30 ≤ code ∧ code < 0x40 then [code - 0x30] else []

/-- SPUSH: SVP ← SVP − 4; X[SVP] ← special register (R120), of SVP itself the value just formed. -/
def execSpush (e code : Nat) (s : State) : Out :=
  .next (s.engRun e false (specialRegs code)
    (fun s => if 0x40 ≤ code then 3 else if s.get H.ENG_SVP e % 4 ≠ 0 then 4 else 0) (fun _ => false) 1 4
    fun s t =>
      let a := trunc 16 ((s.get H.ENG_SVP e : Int) - 4)
      (t.put H.ENG_SVP a e).putEngWord e 0 a (if code = 0x1F then a else s.special e code))

/-- SPOP: special register ← X[SVP]; SVP ← SVP + 4 (R120), in this order for SVP itself too. -/
def execSpop (e code : Nat) (s : State) : Out :=
  .next (s.engRun e false []
    (fun s => if 0x40 ≤ code then 3 else s.memExc e 0 (s.get H.ENG_SVP e) 4) (fun _ => true) 1 4
    fun s t =>
      let a := s.get H.ENG_SVP e
      let t := ((t.engCe e 0 [a]).put H.ENG_SVP a e).putSpecial e code (s.engWord e 0 a)
      t.put H.ENG_SVP (t.get H.ENG_SVP e + 4) e)

/-- The instance an engine has accepted for pre-emption. -/
def State.acceptedInst (s : State) (e : Nat) : Option Inst := s.insts.find? fun x => x.st == 3 && x.eng == e

/-- DISP dispatches the pending pre-empting clause (R110, R120, R126); without PRE it is illegal (R123). -/
def execDisp (e : Nat) (s : State) : Out :=
  .next (if !s.engCan e then s
    else if !bit (s.esr e) 10 then s.engAbort e 3
    else match s.acceptedInst e with
      | none => s.engPlain e [] false fun _ t => t
      | some x =>
        let d := x.desc
        let t := s.landLate e
        let hit := t.on R.SCH_DESC_AFFV d && t.get R.SCH_DESC_AFF d == e
        let t := t.trc (if hit then 1 else 2) (some e) d x.prio 0 (x.cause + b2n x.retry * 4)
        let t := t.when (!hit) fun t =>
          (t.incSat R.SCH_CNT_AFFMISS).put H.ENG_LOAD (b2n (x.rcode != 0)) e
        let t := t.when x.retry fun t => t.incSat R.SCH_CNT_RETRY
        let t := t.slotLoad e x.rcode
        let t := (t.put R.SCH_DESC_AFF e d).put R.SCH_DESC_AFFV 1 d
        ((t.putInst { x with st := 1 }).saveRec x).engStart e 1 x)

/-- RETI: PC ← EPC after one delay slot, ESR ← ESS, ECYC ← ECS (R120); without PRE, or in a delay slot, it is
illegal (R123). FLP stays what it is, 1 only while a far load is outstanding (R121). The pre-empted clause runs on, with a
RESUME record (R151). DESIGN CHOICE: the next instruction still reads the older ESR, as after MVTS: the table of R122 does not
name RETI (log entry 269). -/
def execReti (e : Nat) (s : State) : Out :=
  .next (s.engRun e false []
    (fun s => if s.inDelay e ∨ !bit (s.esr e) 10 then 3 else 0) (fun _ => false) 1 4
    fun s t =>
      let t := t.putOld e H.ENG_ESR 0 (clrBit (s.get H.ENG_ESS e % 2 ^ 16) 11 + 2048 * bits (s.esr e) 11 1)
      let t := (t.put H.ENG_ECYC (s.get H.ENG_ECS e) e).put H.ENG_DLY (2 ^ 16 + 2 ^ 17 + s.get H.ENG_EPC e % 2 ^ 16) e
      match s.insts.find? fun x => x.st == 2 && x.eng == e with
      | none => t
      | some x => (t.putInst { x with st := 1 }).trc 5 (some e) x.desc x.prio 0 0)

/-- BR: to PC + 4 × OFS or to the address in Dk, after one delay slot (R118, R123). -/
def execBr (e cond : Nat) (tgt : BrTgt) (s : State) : Out :=
  .next (s.engRun e false (tgtRegs tgt) (fun s => s.branchIllegal e cond 4) (fun _ => false) 1 4 fun s t =>
    if condHolds cond (s.older e H.ENG_ESR 0) then t.branchTo e (s.target e tgt)
    else t.branchNot e (s.get H.ENG_PC e + 8))

/-- CALL: a branch that writes into D15 the address of the instruction after its delay slot (R118). DESIGN CHOICE: where its
condition does not hold, D15 stays, for CALL and for BRL with L: R118 does not speak of it (log entry 268). -/
def execCall (e cond : Nat) (tgt : BrTgt) (s : State) : Out :=
  .next (s.engRun e false (tgtRegs tgt) (fun s => s.branchIllegal e cond 4)
    (fun s => condHolds cond (s.older e H.ENG_ESR 0)) 1 4 fun s t =>
    if condHolds cond (s.older e H.ENG_ESR 0) then
      (t.branchTo e (s.target e tgt)).putD e 15 ((s.get H.ENG_PC e + 8) % 2 ^ 16)
    else t.branchNot e (s.get H.ENG_PC e + 8))

/-- BRL: a branch to the address of its second word; 2 cycles; with L it writes D15 where it is taken (R113, R118; log entry
268). -/
def execBrl (e cond : Nat) (link : Bool) (tgt : Nat) (s : State) : Out :=
  .next (s.engRun e false [] (fun s => s.branchIllegal e cond 8)
    (fun s => link && condHolds cond (s.older e H.ENG_ESR 0)) 2 8 fun s t =>
    if condHolds cond (s.older e H.ENG_ESR 0) then
      (t.branchTo e tgt).when link fun t => t.putD e 15 ((s.get H.ENG_PC e + 12) % 2 ^ 16)
    else t.branchNot e (s.get H.ENG_PC e + 12))

/-- The count of a LOOP: COUNT, or bits [15:0] of Dk (R119). -/
def State.loopCount (s : State) (e : Nat) (count : AluB) : Nat :=
  match count with
  | .reg k => s.dreg e k % 2 ^ 16
  | .imm v => v % 2 ^ 11

/-- LOOP at a level in use, with END 0, or with an inner body ending less than two instructions before the end of the outer
one is illegal (R119): the outer body ends no sooner than with the second instruction after the inner body. -/
def State.loopIllegal (s : State) (e fin : Nat) : Nat :=
  let lvl := esrLvl (s.esr e)
  let a := (s.get H.ENG_PC e + 4 * fin) % 2 ^ 16
  let b := a + s.insLen e a
  if s.inDelay e ∨ 2 ≤ lvl ∨ fin = 0 then 3
  else if lvl = 1 ∧ s.get H.ENG_LE e 0 < b + s.insLen e b then 3
  else 0

/-- LOOP sets up a loop level; a count of 0 skips the body at 2 cycles and leaves LVL as it is (R119). -/
def execLoop (e : Nat) (count : AluB) (fin : Nat) (s : State) : Out :=
  .next (s.engRunOf e false (aluRegs count) (fun s => s.loopIllegal e fin) (fun _ => true)
    (fun s => if s.loopCount e count = 0 then (2, 4 * fin + 4) else (1, 4)) fun s t =>
      let n := esrLvl (s.esr e)
      let pc := s.get H.ENG_PC e
      let t := t.put H.ENG_LS (pc + 4) e n
      let t := t.put H.ENG_LE (pc + 4 * fin) e n
      let t := (t.put H.ENG_LC (s.loopCount e count) e n).put H.ENG_WL 1 e
      if s.loopCount e count = 0 then t else t.put H.ENG_ESR (esrWithLvl (t.esr e) (n + 1)) e)

/-- ECYC reaches 65536: the watchdog aborts the clause (R133). -/
def execWdog (e : Nat) (s : State) : Out :=
  .next (if s.engCan e ∧ 65536 ≤ s.get H.ENG_ECYC e then s.engAbort e 6 else s)

/-- The boundary before the next instruction is open to pre-emption (R124). -/
def State.openBoundary (s : State) (e : Nat) : Bool :=
  !s.inDelay e && !s.on H.ENG_BT e && !s.inLoopTail e (s.insLen e (s.get H.ENG_PC e)) && !s.on H.ENG_WL e &&
  esrProt (s.esr e) == 0 && bit (s.esr e) 6

/-- The engine a priority-7 instance pre-empts (R151): of the engines running an instance of lower priority that is
not itself pre-empting, lowest priority, then latest deadline, then the engine holding the record, then the lowest
number. -/
def State.preemptVictim (s : State) (x : Inst) : Option Inst :=
  let c := s.insts.filter fun y => y.st == 1 && decide (y.prio < 7) && s.engPowered y.eng
  c.foldl (fun b y =>
    match b with
    | none => some y
    | some b =>
      let hold := fun (z : Inst) => (s.slotOf z.eng x.rcode).isSome
      if y.prio ≠ b.prio then (if y.prio < b.prio then some y else some b)
      else if y.dl ≠ b.dl then (if b.dl < y.dl then some y else some b)
      else if hold y ≠ hold b then (if hold y then some y else some b)
      else if y.eng < b.eng then some y else some b) none

/-- PREEMPTION: a ready priority-7 instance that finds no idle engine pre-empts engine `e` where R151 chooses it, at an
open boundary (R124, R125). DESIGN CHOICE: the PREEMPT record carries the descriptor and priority of the pre-empting instance;
R160 does not say whose (log entry 270). -/
def execPreemption (e : Nat) (s : State) : Out :=
  .next (match s.nextInst with
    | none => s
    | some x =>
      if x.prio ≠ 7 ∨ (s.engineFor x).isSome ∨ !s.engCan e ∨ !s.openBoundary e then s
      else
        match s.preemptVictim x with
        | none => s
        | some y =>
          if y.eng ≠ e then s
          else
            let t := s.landLate e
            let r := t.esr e
            let t := ((t.put H.ENG_EPC (t.get H.ENG_PC e) e).put H.ENG_ESS (esrWhole e r) e).put H.ENG_ECS (t.get H.ENG_ECYC e) e
            let t := t.put H.ENG_ESR (esrWithLvl (setBit (setBit (clrBit r 6) 7) 10) 0) e
            let t := (t.put H.ENG_PC 0x0040 e).put H.ENG_BT 1 e
            let t := (t.putInst { y with st := 2 }).putInst { x with st := 3, eng := e }
            (t.incSat R.SCH_CNT_PREEMPT).trc 4 (some e) x.desc x.prio 0 0)

end Sys2Proof.Machine
end

