-- ==== Sys2Proof/Machine/EngineMac.lean ====
section
/-! DEFINITION. Multiplications with parallel moves (classes 0x5 and 0x6), TAPM (class 0x7) and the accumulator
functions (class 0x8) (R115, R116, R117). -/

namespace Sys2Proof.Machine

/-- MPY: Aa ← Da × Db (R115). -/
def execMpy (e ac da db : Nat) (u2 : Option MacUnit) (x : Option XMove) (y : Option YMove) (s : State) : Out :=
  .next (s.engMac e 0 ac da db u2 x y)

/-- MAC: Aa ← Aa + Da × Db (R115). -/
def execMac (e ac da db : Nat) (u2 : Option MacUnit) (x : Option XMove) (y : Option YMove) (s : State) : Out :=
  .next (s.engMac e 1 ac da db u2 x y)

/-- MSU: Aa ← Aa − Da × Db (R115). -/
def execMsu (e ac da db : Nat) (u2 : Option MacUnit) (x : Option XMove) (y : Option YMove) (s : State) : Out :=
  .next (s.engMac e 2 ac da db u2 x y)

/-- Parallel moves without a multiplication (R115, OP 11). -/
def execParallelMove (e : Nat) (x : Option XMove) (y : Option YMove) (s : State) : Out :=
  .next (s.engRun e false [] (fun s => s.moveExc e x y) (fun _ => true) 1 4 fun s t => t.moves s e x y)

/-- The address TAPM writes the oldest sample to: Py + 4, circular (R117). -/
def State.tapNext (s : State) (e py : Nat) : Nat := ptrMove (s.ptr e (4 + py % 4)) (s.mLen e (4 + py % 4)) 4

/-- TAPM: one tap of a delay line (R117): the product of X[Px] and Y[Py] added to or subtracted from Aa, Y[Py] moved
to Y[Py + 4], both pointers down by 4. -/
def execTapm (e ac : Nat) (subtract : Bool) (px py : Nat) (s : State) : Out :=
  .next (s.engRun e false []
    (fun s =>
      let x := s.memExc e 0 (s.ptr e (px % 4)) 4
      let y := s.memExc e 1 (s.ptr e (4 + py % 4)) 4
      if x ≠ 0 then x else if y ≠ 0 then y else if s.tapNext e py % 4 ≠ 0 then 4 else 0)
    (fun _ => true) 1 4 fun s t =>
      let xa := s.ptr e (px % 4)
      let ya := s.ptr e (4 + py % 4)
      let p := s32 (s.engWord e 0 xa) * s32 (s.engWord e 1 ya)
      let t := (t.engCe e 0 [xa]).engCe e 1 [ya]
      let t := t.putAcc e ac (if subtract then s.acc e ac - p else s.acc e ac + p)
      let t := t.putEngWord e 1 (s.tapNext e py) (s.engWord e 1 ya)
      let t := t.put H.ENG_P (ptrMove xa (s.mLen e (px % 4)) (-4)) e (px % 4)
      t.put H.ENG_P (ptrMove ya (s.mLen e (4 + py % 4)) (-4)) e (4 + py % 4))

/-- CLRA: Ad ← 0 (R116). -/
def execClra (e ad : Nat) (s : State) : Out := .next (s.engAcc e ad [] fun _ => 0)

/-- MOVA: Ad ← As (R116). -/
def execMova (e ad src : Nat) (s : State) : Out := .next (s.engAcc e ad [] fun s => s.accOld e src)

/-- ADDA: Ad ← Ad + As (R116). -/
def execAdda (e ad src : Nat) (s : State) : Out :=
  .next (s.engAcc e ad [] fun s => s.accOld e ad + s.accOld e src)

/-- SUBA: Ad ← Ad − As (R116). -/
def execSuba (e ad src : Nat) (s : State) : Out :=
  .next (s.engAcc e ad [] fun s => s.accOld e ad - s.accOld e src)

/-- NEGA: Ad ← −As; −2^79 gives itself and sets GOV (R116, R129). -/
def execNega (e ad src : Nat) (s : State) : Out := .next (s.engAcc e ad [] fun s => -s.accOld e src)

/-- SHLA: Ad ← As shifted left by SH; GOV where the result leaves 80 bits (R116, R129). -/
def execShla (e ad src sh : Nat) (s : State) : Out :=
  .next (s.engAcc e ad [] fun s => s.accOld e src * ((2 ^ (sh % 64) : Nat) : Int))

/-- SHRA: Ad ← As shifted right arithmetically by SH (R116). -/
def execShra (e ad src sh : Nat) (s : State) : Out :=
  .next (s.engAcc e ad [] fun s => asr (s.accOld e src) (sh % 64))

/-- MVA: Dr ← sat32(rnd(As ≫ SH)) (R116, R130). -/
def execMva (e dr src sh : Nat) (rnd : Bool) (s : State) : Out :=
  .next (s.engPlain e [] true fun s t => t.putSat e dr (rndShift (s.accOld e src) (sh % 64) rnd))

/-- SOUT: Dr ← sat32(rnd(As ≫ (30 − Dk[2:0]))); then Dk ← Dk shifted right by 3 (R116). DESIGN CHOICE: with Dr = Dk it is the
value of Dk before the instruction that is shifted, and the register then holds it; R116 does not speak of it (log entry
271). -/
def execSout (e dr src dk : Nat) (rnd : Bool) (s : State) : Out :=
  .next (s.engPlain e [dk % 16] true fun s t =>
    (t.putSat e dr (rndShift (s.accOld e src) (30 - s.dreg e dk % 8) rnd)).putD e dk (s.dreg e dk / 8))

/-- LDAD: Ad ← Dr sign-extended and shifted left by SH; never sets GOV (R116, R129). -/
def execLdad (e ad dr sh : Nat) (s : State) : Out :=
  .next (s.engPlain e [dr % 16] true fun s t =>
    t.putOld e H.ENG_A (ad % 4) (trunc 80 (s32 (s.dreg e dr) * ((2 ^ (sh % 64) : Nat) : Int))))

/-- TSTA: Z and N from the 80-bit As (R116). -/
def execTsta (e src : Nat) (s : State) : Out :=
  .next (s.engPlain e [] false fun s t => t.flagsZN e (s.accOld e src == 0) (decide (s.accOld e src < 0)))

end Sys2Proof.Machine
end

