-- ==== Sys2Proof/Machine/EngineMem.lean ====
section
/-! DEFINITION. Loads and stores of the loop engines, classes 0x3 and 0x4, far accesses (class 0xB), and the long
immediates (class 0xE) (R111, R113, R121, R130). -/

namespace Sys2Proof.Machine

/-- LD32: a word of X or Y into Dr, which lands one instruction later (R111, R113, R122). -/
def execLd32 (e : Nat) (m : MemRef) (dr : Nat) (s : State) : Out :=
  .next (s.engRun e false [] (fun s => s.memExc e (memOf m) (s.memAddr e m) 4) (fun _ => true) 1 4 fun s t =>
    ((t.engCe e (memOf m) [s.memAddr e m]).putLate e H.ENG_D (dr % 16) (s.engWord e (memOf m) (s.memAddr e m))).postMod s e m)

/-- ST32: Dr to a word of X or Y (R111, R113). -/
def execSt32 (e : Nat) (m : MemRef) (dr : Nat) (s : State) : Out :=
  .next (s.engRun e false [dr % 16] (fun s => if s.memAddr e m % 4 ≠ 0 then 4 else 0) (fun _ => false) 1 4 fun s t =>
    (t.putEngWord e (memOf m) (s.memAddr e m) (s.dreg e dr)).postMod s e m)

/-- LDA: a 64-bit value, sign-extended into the guard bits, into As; it lands one instruction later (R122, R129). -/
def execLda (e : Nat) (m : MemRef) (ac : Nat) (s : State) : Out :=
  .next (s.engRun e false [] (fun s => s.memExc e (memOf m) (s.memAddr e m) 8) (fun _ => true) 1 4 fun s t =>
    ((t.engCe e (memOf m) [s.memAddr e m, s.memAddr e m + 4]).putLate e H.ENG_A (ac % 4)
      (trunc 80 (sext 64 (s.engWord2 e (memOf m) (s.memAddr e m))))).postMod s e m)

/-- STA64: rnd(As ≫ SH) saturated to 64 bits (R130). -/
def execSta64 (e : Nat) (m : MemRef) (ac sh : Nat) (rnd : Bool) (s : State) : Out :=
  .next (s.engRun e false [] (fun s => if s.memAddr e m % 8 ≠ 0 then 4 else 0) (fun _ => true) 1 4 fun s t =>
    let v := rndShift (s.accOld e ac) (sh % 64) rnd
    ((t.putEngWord2 e (memOf m) (s.memAddr e m) (trunc 64 (satI 64 v))).when (!fitsI 64 v)
      fun t => t.esrPut e 5 true).postMod s e m)

/-- STA32: rnd(As ≫ SH) saturated to 32 bits (R130). -/
def execSta32 (e : Nat) (m : MemRef) (ac sh : Nat) (rnd : Bool) (s : State) : Out :=
  .next (s.engRun e false [] (fun s => if s.memAddr e m % 4 ≠ 0 then 4 else 0) (fun _ => true) 1 4 fun s t =>
    let v := rndShift (s.accOld e ac) (sh % 64) rnd
    ((t.putEngWord e (memOf m) (s.memAddr e m) (trunc 32 (satI 32 v))).when (!fitsI 32 v)
      fun t => t.esrPut e 5 true).postMod s e m)

/-- A far load is issued: FLP is 1 until the word arrives (R121). An address that is not a multiple of 4 raises
ALIGN. -/
def execFarLoad (e dr da : Nat) (s : State) : Out :=
  .next (s.engRun e true [da % 16] (fun s => if s.dreg e da % 4 ≠ 0 then 4 else 0) (fun _ => false) 1 4 fun s t =>
    ((t.put H.ENG_FARD (dr % 16) e).put H.ENG_FARA (s.dreg e da) e).esrPut e 11 true)

/-- The word of a pending far load arrives in its register (R121). -/
def execFarLoadArrival (e : Nat) (s : State) : Out :=
  .next (if e < 16 ∧ bit (s.esr e) 11 then s.farArrive e else s)

/-- A far store: outside the two windows of the running clause's descriptor it raises ACCESS and writes nothing
(R121). -/
def execFarStore (e dr da : Nat) (s : State) : Out :=
  .next (s.engRun e true [dr % 16, da % 16]
    (fun s =>
      let a := s.dreg e da % 2 ^ 22
      match s.runInst e with
      | some x =>
        if inWindow (s.get R.SCH_DESC_FSW0 x.desc) a || inWindow (s.get R.SCH_DESC_FSW1 x.desc) a then
          (if a % 4 ≠ 0 then 4 else 0)
        else 5
      | none => 5)
    (fun _ => false) 1 4 fun s t => t.putStoreWord (s.dreg e da % 2 ^ 22) (s.dreg e dr))

/-- LDI: Dd ← the operand of the second word; 2 cycles; illegal in a delay slot (R113, R123). -/
def execLdi (e dd v : Nat) (s : State) : Out :=
  .next (s.engRun e false [] (fun s => s.delayIllegal e) (fun _ => true) 2 8 fun _ t => t.putD e dd v)

/-- LDIA: Ad ← the operand, sign-extended and shifted left by SH; never sets GOV (R113, R129). -/
def execLdia (e ad sh v : Nat) (s : State) : Out :=
  .next (s.engRun e false [] (fun s => s.delayIllegal e) (fun _ => true) 2 8 fun _ t =>
    t.put H.ENG_A (trunc 80 (sext 32 v * ((2 ^ (sh % 64) : Nat) : Int))) e (ad % 4))

end Sys2Proof.Machine
end

