-- ==== Sys2Proof/Machine/EngDecode.lean ====
section
/-! DEFINITION. The instruction words of the loop engines (R111, R113 to R121), and an engine's execution of the word at
its program counter. Bits that R113 gives as zero are not examined. -/

namespace Sys2Proof.Machine

/-- The X parallel move XM (R113). -/
def decodeXm (v : Nat) : Option XMove :=
  if bit v 6 then some { dx := bits v 3 3, px := bits v 1 2, byN := bit v 0 } else none

/-- The Y parallel move YM (R113). -/
def decodeYm (v : Nat) : Option YMove :=
  if bit v 8 then
    let w := bit v 7
    some { wide := w, dst := if w then bits v 4 2 else bits v 4 3, py := bits v 2 2, my := bits v 0 2 }
  else none

/-- Class 0x0, control (R120). -/
def decodeCtl (e w : Nat) : Option Instr :=
  let dr := bits w 8 4
  let code := bits w 0 6
  match bits w 24 4 with
  | 0x0 => some (.nop e)
  | 0x1 => some (.done e)
  | 0x2 => some (.pub e dr (bits w 0 2))
  | 0x3 => some (.prot e (bits w 0 4))
  | 0x4 => some (.brkl e)
  | 0x5 => some (.mvfs e dr code)
  | 0x6 => some (.mvts e code dr)
  | 0x7 => some (.spush e code)
  | 0x8 => some (.spop e code)
  | 0x9 => some (.disp e)
  | 0xA => some (.reti e)
  | _ => none

/-- Classes 0x1 and 0x2, ALU (R114), with their second operand. DESIGN CHOICE: R114 names no operand for ABS and NEG; the
model takes Da, and Db or IMM is ignored (log 231). -/
def decodeAlu (e w : Nat) (b : AluB) : Option Instr :=
  let dd := bits w 19 4
  let da := bits w 15 4
  match bits w 23 5 with
  | 0x00 => some (.add e dd da b)
  | 0x01 => some (.sub e dd da b)
  | 0x02 => some (.adds e dd da b)
  | 0x03 => some (.subs e dd da b)
  | 0x04 => some (.rsub e dd da b)
  | 0x05 => some (.and e dd da b)
  | 0x06 => some (.or e dd da b)
  | 0x07 => some (.xor e dd da b)
  | 0x08 => some (.shl e dd da b)
  | 0x09 => some (.shr e dd da b)
  | 0x0A => some (.asr e dd da b)
  | 0x0B => some (.min e dd da b)
  | 0x0C => some (.max e dd da b)
  | 0x0D => some (.cmp e da b)
  | 0x0E => some (.mov e dd b)
  | 0x0F => some (.abs e dd da)
  | 0x10 => some (.neg e dd da)
  | _ => none

/-- Class 0x3, words (R113). -/
def decodeWordMem (e w : Nat) : Option Instr :=
  let m : MemRef := { y := bit w 25, p := bits w 18 3, am := bits w 16 2, imm := sext 16 (bits w 0 16) }
  match bits w 26 2 with
  | 0 => some (.ld32 e m (bits w 21 4))
  | 1 => some (.st32 e m (bits w 21 4))
  | _ => none

/-- Class 0x4, accumulators (R113, R130). -/
def decodeAccMem (e w : Nat) : Option Instr :=
  let m : MemRef := { y := bit w 25, p := bits w 20 3, am := bits w 18 2, imm := sext 11 (bits w 0 11) }
  let ac := bits w 23 2
  match bits w 26 2 with
  | 0 => some (.lda e m ac)
  | 1 => some (.sta64 e m ac (bits w 12 6) (bit w 11))
  | 2 => some (.sta32 e m ac (bits w 12 6) (bit w 11))
  | _ => none

/-- A multiplication with an OP code (R115), the second unit and the parallel moves. -/
def macOf (e op ac da db : Nat) (u2 : Option MacUnit) (x : Option XMove) (y : Option YMove) : Instr :=
  match op with
  | 0 => .mpy e ac da db u2 x y
  | 1 => .mac e ac da db u2 x y
  | 2 => .msu e ac da db u2 x y
  | _ => .parallelMove e x y

/-- Class 0x5, MAC with parallel moves (R113, R115). -/
def decodeMac (e w : Nat) : Option Instr :=
  some (macOf e (bits w 26 2) (bits w 24 2) (bits w 21 3) (bits w 18 3) none (decodeXm (bits w 11 7)) (decodeYm (bits w 2 9)))

/-- Class 0x6, dual MAC (R113, R115). Where OP1 multiplies nothing, the second unit alone works. -/
def decodeDual (e w : Nat) : Option Instr :=
  let x := decodeXm (bits w 1 7)
  let u : MacUnit := { op := bits w 16 2, ac := bits w 14 2, da := bits w 11 3, db := bits w 8 3 }
  if bits w 26 2 = 3 then some (macOf e u.op u.ac u.da u.db none x none)
  else some (macOf e (bits w 26 2) (bits w 24 2) (bits w 21 3) (bits w 18 3) (if u.op = 3 then none else some u) x none)

/-- Class 0x7, TAPM (R113, R117). -/
def decodeTapm (e w : Nat) : Option Instr :=
  if bits w 24 2 < 2 then some (.tapm e (bits w 26 2) (bits w 24 2 == 1) (bits w 22 2) (bits w 20 2)) else none

/-- Class 0x8, accumulator functions (R116). -/
def decodeAcc (e w : Nat) : Option Instr :=
  let ad := bits w 22 2
  let src := bits w 20 2
  let dr := bits w 16 4
  let sh := bits w 6 6
  match bits w 24 4 with
  | 0x0 => some (.clra e ad)
  | 0x1 => some (.mova e ad src)
  | 0x2 => some (.adda e ad src)
  | 0x3 => some (.suba e ad src)
  | 0x4 => some (.nega e ad src)
  | 0x5 => some (.shla e ad src sh)
  | 0x6 => some (.shra e ad src sh)
  | 0x7 => some (.mva e dr src sh (bit w 5))
  | 0x8 => some (.sout e dr src (bits w 12 4) (bit w 5))
  | 0x9 => some (.ldad e ad dr sh)
  | 0xA => some (.tsta e src)
  | _ => none

/-- Class 0x9, branches (R118). -/
def decodeBranch (e w : Nat) : Option Instr :=
  let t := if bit w 22 then BrTgt.ind (bits w 16 4) else BrTgt.ofs (sext 16 (bits w 0 16))
  if 0xB ≤ bits w 24 4 then none
  else if bit w 23 then some (.call e (bits w 24 4) t) else some (.br e (bits w 24 4) t)

/-- Class 0xA, LOOP (R119). -/
def decodeLoop (e w : Nat) : Option Instr :=
  some (.loop e (if bit w 27 then .imm (bits w 16 11) else .reg (bits w 16 4)) (bits w 0 16))

/-- Class 0xB, far access (R121). -/
def decodeFar (e w : Nat) : Option Instr :=
  if bit w 27 then some (.farStore e (bits w 23 4) (bits w 19 4)) else some (.farLoad e (bits w 23 4) (bits w 19 4))

/-- Class 0xE, long, with the second word (R113). -/
def decodeLong (e w w2 : Nat) : Option Instr :=
  match bits w 24 4 with
  | 0 => some (.ldi e (bits w 20 4) w2)
  | 1 => some (.ldia e (bits w 22 2) (bits w 16 6) w2)
  | 2 => if 0xB ≤ bits w 20 4 then none else some (.brl e (bits w 20 4) (bit w 19) w2)
  | _ => none

/-- The instruction that a word, with the word after it, spells for engine `e`; none where R113 raises ILLEGAL. -/
def engDecode (e w w2 : Nat) : Option Instr :=
  match bits w 28 4 with
  | 0x0 => decodeCtl e w
  | 0x1 => decodeAlu e w (.reg (bits w 11 4))
  | 0x2 => decodeAlu e w (.imm (bits w 0 15))
  | 0x3 => decodeWordMem e w
  | 0x4 => decodeAccMem e w
  | 0x5 => decodeMac e w
  | 0x6 => decodeDual e w
  | 0x7 => decodeTapm e w
  | 0x8 => decodeAcc e w
  | 0x9 => decodeBranch e w
  | 0xA => decodeLoop e w
  | 0xB => decodeFar e w
  | 0xE => decodeLong e w w2
  | _ => none

/-- The state that an outcome answers; that before where it stops. -/
def stateOr (s : State) : Out → State
  | .next t => t
  | _ => s

/-- An engine instruction executed; a command of another kind changes nothing. -/
def engExec (i : Instr) (s : State) : State :=
  stateOr s (match i with
    | .nop e => execNop e s
    | .done e => execDone e s
    | .pub e dr w => execPub e dr w s
    | .prot e n => execProt e n s
    | .brkl e => execBrkl e s
    | .mvfs e dr code => execMvfs e dr code s
    | .mvts e code dr => execMvts e code dr s
    | .spush e code => execSpush e code s
    | .spop e code => execSpop e code s
    | .disp e => execDisp e s
    | .reti e => execReti e s
    | .add e dd da b => execAdd e dd da b s
    | .sub e dd da b => execSub e dd da b s
    | .adds e dd da b => execAdds e dd da b s
    | .subs e dd da b => execSubs e dd da b s
    | .rsub e dd da b => execRsub e dd da b s
    | .and e dd da b => execAnd e dd da b s
    | .or e dd da b => execOr e dd da b s
    | .xor e dd da b => execXor e dd da b s
    | .shl e dd da b => execShl e dd da b s
    | .shr e dd da b => execShr e dd da b s
    | .asr e dd da b => execAsr e dd da b s
    | .min e dd da b => execMin e dd da b s
    | .max e dd da b => execMax e dd da b s
    | .cmp e da b => execCmp e da b s
    | .mov e dd b => execMov e dd b s
    | .abs e dd da => execAbs e dd da s
    | .neg e dd da => execNeg e dd da s
    | .ld32 e m dr => execLd32 e m dr s
    | .st32 e m dr => execSt32 e m dr s
    | .lda e m ac => execLda e m ac s
    | .sta64 e m ac sh rnd => execSta64 e m ac sh rnd s
    | .sta32 e m ac sh rnd => execSta32 e m ac sh rnd s
    | .mpy e ac da db u2 x y => execMpy e ac da db u2 x y s
    | .mac e ac da db u2 x y => execMac e ac da db u2 x y s
    | .msu e ac da db u2 x y => execMsu e ac da db u2 x y s
    | .parallelMove e x y => execParallelMove e x y s
    | .tapm e ac subtract px py => execTapm e ac subtract px py s
    | .clra e ad => execClra e ad s
    | .mova e ad src => execMova e ad src s
    | .adda e ad src => execAdda e ad src s
    | .suba e ad src => execSuba e ad src s
    | .nega e ad src => execNega e ad src s
    | .shla e ad src sh => execShla e ad src sh s
    | .shra e ad src sh => execShra e ad src sh s
    | .mva e dr src sh rnd => execMva e dr src sh rnd s
    | .sout e dr src dk rnd => execSout e dr src dk rnd s
    | .ldad e ad dr sh => execLdad e ad dr sh s
    | .tsta e src => execTsta e src s
    | .br e cond tgt => execBr e cond tgt s
    | .call e cond tgt => execCall e cond tgt s
    | .loop e count fin => execLoop e count fin s
    | .farLoad e dr da => execFarLoad e dr da s
    | .farStore e dr da => execFarStore e dr da s
    | .ldi e dd v => execLdi e dd v s
    | .ldia e ad sh v => execLdia e ad sh v s
    | .brl e cond link tgt => execBrl e cond link tgt s
    | _ => .next s)

/-- The addresses in program memory of the words of the instruction at `pc`: two of class 0xE (R113). -/
def State.fetchAddrs (s : State) (e pc : Nat) : List Nat :=
  if s.insLen e pc = 8 then [pc, (pc + 4) % 2 ^ 16] else [pc]

/-- The engine executes the word at its program counter (R107, R113): ILLEGAL where the word spells nothing, MEM_DED where
it holds a double-bit error; a single-bit error is corrected and counted (R105, R133, R446). DESIGN CHOICE: R113 puts
instructions at multiples of 4 and names no exception for another PC, so the bytes there are fetched as they lie (log
230). -/
def State.engFetch (s : State) (e : Nat) : State :=
  let pc := s.get H.ENG_PC e
  let as := s.fetchAddrs e pc
  if !s.engCan e then s
  else
    match as.find? fun a => decide (2 ≤ s.engErr e 2 a) with
    | some a => s.engExc e (2 + 16 * (engArr e 2 a).2)
    | none =>
      let s := s.engCe e 2 as
      match engDecode e (s.load (engMem e 2 + pc) 4) (s.load (engMem e 2 + (pc + 4) % 2 ^ 16) 4) with
      | some i => engExec i s
      | none => s.engAbort e 3

end Sys2Proof.Machine
end

