-- ==== Sys2Proof/Machine/ConfigureOps.lean ====
section
/-! DEFINITION. An axis enters Configured or Absent: its record, its variables, its descriptors (R42, R63, R139). -/

namespace Sys2Proof.Machine

/-- What is held for an axis is as at reset: its record, status word, live counters and variables. -/
def State.axClear (s : State) (a : Nat) : State :=
  let s := (s.recReset a).resetRange (0x20000000 + 0x10 * a) (0x20000010 + 0x10 * a)
  let s := s.resetRange (0x21000000 + 0x40 * a) (0x21000040 + 0x40 * a)
  let s := s.each H.perAxis fun s f => s.each (List.range f.m) fun s j => s.resetFld f a j
  { s with
    motions := s.motions.filter fun (m : Motion) => m.axis != a
    segs := s.segs.filter fun (x : Seg) => x.axis != a
    hist := s.hist.filter fun (x : Hist) => x.axis != a
    baseW := s.baseW.filter fun (p : Nat × Nat) => !(bits p.1 28 4 == 0 && bits p.1 16 12 == a) }

/-- An axis becomes Configured: record and snapshot as at reset, its clause descriptors allocated; its statistics begin
at the next statistics boundary (R42, R63, R138). The states of its node or port follow (R40). -/
def State.axConfigured (s : State) (p : List Nat) : State :=
  let a := p.getD 0 0
  let s := (((s.axClear a).resetRange (0x40010000 + 0x40 * a) (0x40010040 + 0x40 * a)).axBind p).recFix a
  let s := (s.cfgStage p).safeSync a
  if s.isNirte a then s.axisSeen a else s.when (s.axOnline a) fun s => s.post a .nodeOnline

/-- The trace pages of an axis are freed (R263). -/
def State.pagesFree (s : State) (a : Nat) : State :=
  let s := s.probeFree a
  s.each (List.range 32) fun s c =>
    s.when (s.get H.SW_PAGE c != 0 && s.get H.SW_AXIS c == a && !s.on H.SW_ON c) fun s =>
      ((s.pageMark (s.get H.SW_PAGE c - 1) (s.get H.SW_NPG c) 0).put H.SW_PAGE 0 c).put H.SW_ORPH 0 c

/-- An axis becomes Absent: record and descriptors freed, its snapshot kept (R42, R63). -/
def State.axAbsent (s : State) (a : Nat) : State :=
  let r := s.ringOf a
  let s := (s.pagesFree a).freeDesc (s.get H.AX_DESC a)
  ((s.axClear a).supUp r).put R.AXS_STATUS_BRAKE 1 a

/-- A mailbox still waits for a request of an opcode on an axis's state. -/
def State.waitsFor (s : State) (mb opc a : Nat) : Bool :=
  s.waits.any fun w => w.mb == mb && w.opc == opc && w.key == a + 0x10000

/-- A request no longer waits for its axis's boundary; what it does next answers it or waits anew. -/
def State.unwait (s : State) (mb : Nat) : State := { s with waits := s.waits.filter fun w => w.mb != mb }

/-- AXIS_CONFIGURE takes effect (R41, R42). -/
def State.takeConfigured (s : State) (a mb : Nat) : State :=
  if s.waitsFor mb 0x0100 a then
    let s := s.unwait mb
    if s.axSt a ≠ 0 then s.failSt mb a 0x0004
    else
      let p := s.cfgPars mb
      let r := s.cfgRoom p
      if r ≠ 0 then s.fail mb r else (s.axConfigured p).dirty.done mb
  else s

/-- AXIS_DECONFIGURE takes effect (R42). What it does to the group of a member the spec leaves open: the model answers GROUP_BUSY
and the member stays (DESIGN CHOICE, log entry 273). -/
def State.takeDeconfigured (s : State) (a mb : Nat) : State :=
  if s.waitsFor mb 0x0101 a then
    let s := s.unwait mb
    if s.axSt a ≠ 1 ∧ s.axSt a ≠ 2 then s.failSt mb a 0x0004
    else if s.groupOf a ≠ 255 then s.fail mb 0x0204
    else (s.axAbsent a).dirty.done mb
  else s

end Sys2Proof.Machine
end

