-- ==== Sys2Proof/Machine/FlashOps.lean ====
section
/-! DEFINITION. The flash (R282, R291, R293): its regions, pages and blocks, and what an image takes of them. -/

namespace Sys2Proof.Machine

/-! ### Regions (R282) -/

/-- The erase unit, bytes. -/
def flashBlock : Nat := 0x10000

/-- The program unit, bytes. -/
def flashPage : Nat := 0x100

/-- A region of the flash: first address and size. -/
structure FlashRegion where
  /-- Its first address. -/
  base : Nat
  /-- Its bytes. -/
  size : Nat
  deriving DecidableEq, Repr

/-- The boot record: active firmware slot, trial flag. -/
def flashBoot : FlashRegion := { base := 0, size := 0x10000 }

/-- A firmware slot. -/
def flashSlot (k : Nat) : FlashRegion := { base := 0x10000 + 0x400000 * k, size := 0x400000 }

/-- The safety store. -/
def flashSafety : FlashRegion := { base := 0x810000, size := 0xF0000 }

/-- The configuration log. -/
def flashLog : FlashRegion := { base := 0x900000, size := 0x1700000 }

/-- The blocks of the configuration log. -/
def logBlocks : Nat := 368

/-- The flash address of a page of the configuration log. -/
def logPageAt (blk page : Nat) : Nat := flashLog.base + flashBlock * blk + flashPage * page

/-- The place in the state's memory of a byte of the flash, of the firmware slots. -/
def flashAt (a : Nat) : Nat := 0x94000000 + a

/-! ### Pages of an image (R291) -/

/-- The trailer of a page: 16 bytes. -/
structure PageTrailer where
  /-- The image sequence number. -/
  seq : Nat
  /-- The page index. -/
  idx : Nat
  /-- The CRC-32C of the page. -/
  crc : Nat
  deriving DecidableEq, Repr

/-- The pages of an image of a size: 240 bytes beside the trailer in each. -/
def imagePages (size : Nat) : Nat := (size + 239) / 240

/-- The trailer of a page of an image. -/
def Image.trailer (m : Image) (i : Nat) : PageTrailer :=
  { seq := m.seq, idx := i, crc := Config.pageCrc m.seq i m.regs % 2 ^ 32 }

/-- The commit record of an image. -/
structure CommitRecord where
  /-- The image sequence number. -/
  seq : Nat
  /-- The page count. -/
  pages : Nat
  /-- The CRC-32C over all pages. -/
  crc : Nat
  /-- BOOT_MODE. -/
  bootMode : Nat
  /-- The image size. -/
  size : Nat
  deriving DecidableEq, Repr

/-- The commit record of an image, with the CRC over its pages in order. -/
def Image.record (m : Image) : CommitRecord :=
  { seq := m.seq, pages := m.pages, crc := Config.pageCrc m.seq m.pages m.regs % 2 ^ 32, bootMode := m.bootMode, size := m.size }

/-! ### Blocks (R293) -/

/-- The blocks in service that are erased. -/
def State.blkFree (s : State) : List Nat := (List.range logBlocks).filter fun b => !s.on H.FL_RT b && s.get H.FL_WR b == 0

/-- The blocks in service that hold data. -/
def State.blkUsed (s : State) : List Nat := (List.range logBlocks).filter fun b => !s.on H.FL_RT b && s.get H.FL_WR b != 0

/-- Of some blocks the one with the lowest erase count, the first of several. -/
def State.blkLeast (s : State) (bs : List Nat) : Option Nat :=
  bs.foldl (fun r b => match r with
    | some x => if s.get H.FL_EC b < s.get H.FL_EC x then some b else r
    | none => some b) none

/-- The greatest erase count of some blocks. -/
def State.blkMost (s : State) (bs : List Nat) : Nat := bs.foldl (fun n b => max n (s.get H.FL_EC b)) 0

/-- The registers show the blocks (R293, R301). -/
def State.flView (s : State) : State :=
  let f := s.blkFree
  let u := s.blkUsed
  let n := (List.range logBlocks).foldl (fun n b => n + s.get H.FL_RT b) 0
  let least := match s.blkLeast (f ++ u) with
    | some b => s.get H.FL_EC b
    | none => 0
  let t := ((s.put R.CFG_FL_BLK_ERASED f.length).put R.CFG_FL_BLK_USED u.length).put R.CFG_FL_RETIRED n
  let t := (t.put R.CFG_FL_ECMAX (s.blkMost (f ++ u))).put R.CFG_FL_ECMIN least
  t.when (decide (logBlocks < n + 48)) fun t => t.put R.CFG_STATUS_FLASH_WORN 1

/-- Pages that can still be taken. -/
def State.blkRoom (s : State) : Nat :=
  256 * s.blkFree.length + (if s.get H.FL_CUR = 0 then 0 else 256 - s.get H.FL_WR (s.get H.FL_CUR - 1))

/-- Pages taken in the order of the log: the rest of the block in hand, then blocks anew, each the erased one with the lowest erase count
(R293). The second part says where they stand. -/
def State.pagesTake : Nat → State → Nat → State × List (Nat × Nat)
  | 0, s, _ => (s, [])
  | k + 1, s, n =>
    let c := s.get H.FL_CUR
    let left := if c = 0 then 0 else 256 - s.get H.FL_WR (c - 1)
    if n = 0 then (s, [])
    else if left = 0 then
      match s.blkLeast s.blkFree with
      | some b => State.pagesTake k (s.put H.FL_CUR (b + 1)) n
      | none => (s, [])
    else
      let g := min n left
      let r := State.pagesTake k (s.put H.FL_WR (s.get H.FL_WR (c - 1) + g) (c - 1)) (n - g)
      (r.1, (c - 1, g) :: r.2)

/-- The pages of an extent list in a block. -/
def pagesIn (l : List (Nat × Nat)) (b : Nat) : Nat := (l.filter fun x => x.1 == b).foldl (fun n x => n + x.2) 0

/-- The pages of a block that an image, or the one being written, holds. -/
def State.liveIn (s : State) (b : Nat) : Nat :=
  s.images.foldl (fun n m => n + pagesIn m.ext b) (match s.snap with | some m => pagesIn m.ext b | none => 0)

/-- The pages of an image in a block are copied elsewhere. -/
def State.extMove (s : State) (b : Nat) (l : List (Nat × Nat)) : State × List (Nat × Nat) :=
  let n := pagesIn l b
  if n = 0 then (s, l)
  else
    let r := State.pagesTake 1000 s n
    (r.1, (l.filter fun x => x.1 != b) ++ r.2)

/-- The live pages of a block are copied elsewhere, where there is room for them (R293, R294). -/
def State.blkMove (s : State) (b : Nat) : State :=
  let s := s.when (s.get H.FL_CUR == b + 1) fun s => s.put H.FL_CUR 0
  if s.blkRoom < s.liveIn b then s
  else
    let r := s.images.foldl (fun (r : State × List Image) m =>
      let x := r.1.extMove b m.ext
      (x.1, r.2 ++ [{ m with ext := x.2 }])) (s, [])
    match s.snap with
    | some m =>
      let x := r.1.extMove b m.ext
      { x.1 with images := r.2, snap := some { m with ext := x.2 } }
    | none => { r.1 with images := r.2 }

/-- A block that holds nothing live is erased; at 100 000 erases it is retired (R293). -/
def State.blkErase (s : State) (b : Nat) : State :=
  if s.liveIn b ≠ 0 ∨ s.on H.FL_RT b then s
  else
    let n := s.get H.FL_EC b + 1
    let s := ((s.put H.FL_EC n b).put H.FL_WR 0 b).when (s.get H.FL_CUR == b + 1) fun s => s.put H.FL_CUR 0
    s.when (decide (100000 ≤ n)) fun s => s.put H.FL_RT 1 b

/-- A block is retired at a program or erase failure, its live pages copied elsewhere first (R293). -/
def State.blkFail (s : State) (b : Nat) : State := if logBlocks ≤ b then s else (s.blkMove b).put H.FL_RT 1 b

/-- A block that holds pages of stale images is reclaimed: its live pages are copied out and it is erased (R293). -/
def State.blkReclaim (s : State) (b : Nat) : State :=
  if s.get H.FL_WR b ≤ s.liveIn b then s else (s.blkMove b).blkErase b

/-- When the erase counts are more than 1000 apart, the data of the block with the least count move (R293). -/
def State.blkLevel (s : State) : State :=
  match s.blkLeast (s.blkFree ++ s.blkUsed) with
  | some b =>
    if 1000 < s.blkMost (s.blkFree ++ s.blkUsed) - s.get H.FL_EC b ∧ s.get H.FL_WR b ≠ 0 then (s.blkMove b).blkErase b else s
  | none => s

/-- Garbage collection with the blocks that fail on the way (R293). -/
def State.flashCollect (s : State) (bad : List Nat) : State :=
  let s := s.each bad fun s b => s.blkFail b
  let s := s.each (List.range logBlocks) fun s b => s.blkReclaim b
  s.blkLevel.flView

/-! ### Work under way (R273, R291, R295) -/

/-- How far the flash has come with what it does, by a boundary: PERMILLE of a commit, of a firmware write and of a scrub. How much
is done from one boundary to the next is a free value (log entry 289); the end comes with the command that completes the work. -/
def State.flashWork (s : State) : State :=
  let s := match s.snap, s.lopOf 0x0601 0 with
    | some m, some k =>
      let n := min (m.size - 1) (s.get H.CMT_B + s.free 12)
      (s.useFree.put H.CMT_B n).lopProgress k n m.size
    | _, _ => s
  let s := match (if s.get H.FW_PH = 2 then s.lopOf 0x0602 0 else none) with
    | some k =>
      let n := min (s.get H.FW_LEN - 1) (s.get H.FW_WRN + s.free 12)
      (s.useFree.put H.FW_WRN n).lopProgress k (s.get H.FW_LEN + n) (2 * s.get H.FW_LEN)
    | none => s
  match (if s.get H.CMT ≠ 0 ∨ s.get H.FW_PH = 2 then none else s.lopOf 0x0603 0) with
  | some k =>
    if s.get R.LOP_ID_STATUS k ≠ 1 then s
    else
      let u := s.blkUsed.length
      let n := min (u - 1) (s.get H.SCR_N + s.free 1)
      (s.useFree.put H.SCR_N n).lopProgress k n (max 1 u)
  | none => s

end Sys2Proof.Machine
end

