-- ==== Sys2Proof/Machine/Scheduler.lean ====
section
/-! DEFINITION. The clause scheduler's own events and requests (Clause Scheduling; R107, R135, R280). -/

namespace Sys2Proof.Machine

/-- The loader has brought the record in; the engine's clause begins (R106). -/
def execRecordLoadDone (e : Nat) (s : State) : Out := .next (if e < 16 then s.put H.ENG_LOAD 0 e else s)

/-- The dispatcher gives the head of the highest ready list to an idle engine (R147, R148). -/
def execClauseDispatch (s : State) : Out :=
  .next (match s.nextInst with
    | none => s
    | some x =>
      match s.engineFor x with
      | none => s
      | some e => s.dispatchTo x e)

/-- The engine's self-test ends (R135): back to service, or quarantine. An armed injection makes it fail (R458). An engine that
is halted meanwhile, or that holds private code, stays out of service until that ends. -/
def execSelfTestComplete (e : Nat) (pass : Bool) (s : State) : Out :=
  .next (if e < 16 ∧ (s.engSt e = 2 ∨ s.on H.ENG_TST e) then
      let inj := s.on H.ENG_INJT e
      let s := s.when inj fun s => (s.put H.ENG_INJT 0 e).injFired 0x06 e
      let s := s.put H.ENG_TST 0 e
      if pass && !inj then
        if s.on H.ENG_HALT e || s.on H.ENG_OWN e then s.setEngSt e 3 else (s.setEngSt e 0).setService e true
      else ((s.quarantined e).setEngSt e 3).report 0x06 e 0xFFFF 0
    else s)

/-- DEADLINE: the effective deadline of the oldest instance of a descriptor passes without a delivered completion. One
not dispatched is dropped; one that runs is late, and its delivery is refused (R152). -/
def execDeadline (d : Nat) (s : State) : Out :=
  .next (match s.insts.find? fun x => x.desc == d && !x.late with
    | none => s
    | some x => if s.timeUp x.dl then s.pastDeadline x else s)

/-- A third consecutive overrun raises fault class OVERRUN at the axis's next boundary, or, during a reaction that
uses the quick-stop ramp, raises the reaction to torque off (R51, R154). -/
def execOverrunFault (a : Nat) (s : State) : Out :=
  .next (if a < 256 ∧ s.get R.AXS_STATUS_OVR_CONSEC a = 3 then
      if s.axSt a = 6 ∧ s.on H.AX_TRQ a ∧ s.get R.AXS_STATUS_REACTION a < 2 then s.post a .raiseOff else s.post a (.fault 3)
    else s)

/-- ECYC has passed the budget of the running instance: a BUDGET record, one for each run of it (R149). -/
def execBudget (e : Nat) (s : State) : Out :=
  .next (match s.runInst e with
    | none => s
    | some x =>
      if x.past ∨ s.get H.ENG_ECYC e ≤ x.budget then s
      else (s.putInst { x with past := true }).trc 8 (some e) x.desc x.prio 0 0)

/-- A waiting record is written into trace memory at IDX (R159); after a TRIGGER record TRC_POST records follow, and
then none until the trace freezes (R162). A write of FREEZE that found the buffer full triggers now. -/
def execTraceDrain (s : State) : Out :=
  .next (match s.trcBuf with
    | [] => s
    | r :: rest =>
      if s.on R.SCH_STATUS_TRC_FROZEN ∨ (s.on H.TRC_PHASE ∧ s.get H.TRC_POST = 0) then s
      else
        let i := s.get R.SCH_TRC_WPTR_IDX
        let s := ({ s with trcBuf := rest }.errFix 8 (8 * i)).store (0x40100000 + 8 * i) 8 r
        let s := s.put R.SCH_TRC_WPTR_IDX (i + 1)
        let s := s.when (i == 4095) fun s => s.incWrap R.SCH_TRC_WPTR_WRAPS
        let s := s.when (s.on R.SCH_TRC_CTL_FREEZE && s.trcArmed) fun s => s.trcTrigger
        if s.on H.TRC_PHASE then s.put H.TRC_POST (s.get H.TRC_POST - 1)
        else if r / 2 ^ 60 = 10 then
          (((s.put H.TRC_PHASE 1).put H.TRC_POST (s.get R.SCH_CFG_TRC_POST)).put H.TRC_IDX i).put
            R.SCH_TRC_CTL_FREEZE 0
        else s)

/-- The trace freezes when the records after the trigger have been written (R162), with cause 3 (R259). -/
def execTraceFreeze (s : State) : Out :=
  .next (if s.on H.TRC_PHASE ∧ s.get H.TRC_POST = 0 then
      let s := (s.put R.SCH_STATUS_TRC_FROZEN 1).put R.SCH_TRC_TRIGIDX (s.get H.TRC_IDX)
      let s := ((s.put R.SCH_TRC_CTL_ARM 0).put H.TRC_TRIG 0).put H.TRC_PHASE 0
      { s with trcBuf := [] }.cause 3
    else s)

/-- A write of 1 to SCH_TRC_CTL.FREEZE: with ARM at 1 it sets FREEZE and writes a TRIGGER record; else it is ignored
(R162). -/
def State.trcFreezeW (s : State) : State :=
  if s.trcArmed then (s.put R.SCH_TRC_CTL_FREEZE 1).trcTrigger else s

/-- The host writes 1 to SCH_TRC_CTL.FREEZE (R162). -/
def execSchTrcCtlFreeze (s : State) : Out := .next (s.hostWord 0x40048 State.trcFreezeW)

/-- The host writes 1 to SCH_TRC_CTL.ARM (R162). -/
def execSchTrcCtlArm (s : State) : Out := .next (s.hostWord 0x40048 fun s => s.put R.SCH_TRC_CTL_ARM 1)

/-- The host writes 1 to SCH_TRC_CTL.RELEASE: writing resumes at IDX (R162). -/
def execSchTrcCtlRelease (s : State) : Out :=
  .next (s.hostWord 0x40048 fun s => s.put R.SCH_STATUS_TRC_FROZEN 0)

/-- Code loads take effect in every engine at the boundary (R107). -/
def State.codeApply (s : State) : State :=
  if s.codePend.isEmpty then s
  else
    let s := s.each s.codePend fun s p =>
      (s.setBytes (progCopy + 0xC000 + 4 * p.1) (ofWords p.2)).each (List.range 16) fun s e =>
        (s.errWrote (e / 4) (e % 4 * 0x30000 + 0x2C000 + 4 * p.1) (4 * p.2.length)).setBytes
          (engMem e 2 + 0xC000 + 4 * p.1) (ofWords p.2)
    { s with codePend := [] }

/-- CODE_LOAD: the words reach all sixteen engines and take effect at the next boundary; engines that no longer hold
the common image are first rewritten from it, and those that are not halted go back to the state they were in (R107, R280). -/
def execCodeLoad (mb : Nat) (s : State) : Out :=
  .next (s.request mb 0x0300 8 fun s =>
    let off := s.par mb 0 4
    let n := clampN 1 1022 (s.par mb 4 4)
    if 4095 < off ∨ 4096 < off + n then s.fail mb 0x0003
    else if s.get H.MB_LEN mb < 8 + 4 * n then s.fail mb 0x0002
    else
      let s := s.each (List.range 16) fun s e =>
        if s.on H.ENG_OWN e then
          ((s.progReload e).put H.ENG_OWN 0 e).when (!s.on H.ENG_HALT e && s.engPowered e) fun s => s.engBack e
        else s
      let s := { s with codePend := s.codePend ++ [(off, (List.range n).map fun k => s.par mb (8 + 4 * k) 4)] }
      s.dirty.done mb)

/-- DESC_WRITE: a custom descriptor is written or allocated (R136, R146, R157, R280). -/
def execDescWrite (mb : Nat) (s : State) : Out :=
  .next (s.request mb 0x0301 36 fun s =>
    let req := s.par mb 0 4
    let ws := (List.range 8).map fun k => s.par mb (4 + 4 * k) 4
    let go := fun (s : State) (d : Nat) =>
      if bits (ws.getD 3 0) 16 2 = 3 ∧ !bit (ws.getD 4 0) 10 then s.fail mb 0x0303
      else if s.descOver d ws then s.fail mb 0x0301
      else (s.descStage d ws).dirty.done mb (toBytes 4 d)
    if bits (ws.getD 0 0) 24 4 ≠ 8 then s.fail mb 0x0302
    else if req = 0xFFFF then
      match s.descAlloc with
      | none => s.fail mb 0x0300
      | some d => go s d
    else if 1024 ≤ req then s.fail mb 0x0003
    else if bits ((s.descNext req).getD 0 0) 24 4 ≠ 8 then s.fail mb 0x0302
    else go s req)

/-- SCH_CONFIG: ADMIT, TRC_POST and TRIG, clamped (R157, R163, R280). -/
def execSchConfig (mb : Nat) (s : State) : Out :=
  .next (s.request mb 0x0302 12 fun s =>
    let s := s.put R.SCH_CFG_ADMIT (clampN 50 95 (s.par mb 0 4))
    let s := s.put R.SCH_CFG_TRC_POST (clampN 0 4095 (s.par mb 4 4))
    let s := s.put R.SCH_TRC_TRIG (s.par mb 8 4)
    s.loadUpdate.dirty.done mb)

end Sys2Proof.Machine
end

