-- ==== Sys2Proof/Machine/ImageOps.lean ====
section
/-! DEFINITION. Configuration images: what a commit takes a snapshot of, and what a boot loads (R283, R291, R292, R298). -/

namespace Sys2Proof.Machine

/-- The fields an image holds (R283). -/
def imgFields : List Fld :=
  axsRw ++ rwFields R.grpFields ++ lffRw ++ ringCfg ++ drvCfg ++ ptCfg ++ encCfg ++ fioCfg ++ fioGlob ++
    [R.SCH_CFG_ADMIT, R.SCH_CFG_TRC_POST, R.SCH_TRC_TRIG, R.CFG_OVL_N]

/-- A key is that of an element of a field. -/
def Fld.holds (f : Fld) (k : Nat) : Bool := decide (f.lo ≤ k) && (k - f.lo) % 8 == 0 && (fldAt f ((k - f.lo) / 8)).isSome

/-- The base values of every configuration word stand in the registers: covered words take them from the base table, words
on their way to the field die are taken as written (R283, R284). -/
def State.baseState (s : State) : State :=
  let s := s.each (List.range 320) fun s k =>
    s.each [2, 1, 0] fun s j =>
      s.when (s.on H.FIO_NEWM k j) fun s => s.putWord (fioCfg ++ fioGlob) (0xC0000 + 4 * k) (s.get H.FIO_NEWW k j)
  s.each s.baseW fun s p => s.putWord (targetWord p.1).1 (targetWord p.1).2 p.2

/-- The binding of a configured axis, as AXIS_CONFIGURE gives it (R280, R283). -/
def State.bindOf (s : State) (a : Nat) : List Nat :=
  [a, s.get H.AX_BIND a, s.get H.AX_NODE a, s.get H.AX_SLOT a, s.get H.AX_VENDOR a, s.get H.AX_PROD a,
   s.get H.AX_DIV a, s.get H.AX_PHASE a]

/-- A byte is part of an image: custom code, overlays, and on demand the learning tables in force (R283). -/
def imgByte (lff : Bool) (a : Nat) : Bool :=
  (decide (0x57000000 ≤ a) && decide (a < 0x58000000)) || (decide (0x5D000000 ≤ a) && decide (a < 0x5D050000)) ||
    (lff && decide (0x5C000000 ≤ a) && decide (a < 0x5C400000) && decide (a % 0x10000 < 0x2000))

/-- The greatest size of an image (R283): 1.25 MiB, with the learning tables 1.75 MiB. -/
def imgMost (lff : Bool) : Nat := if lff then 0x1C0000 else 0x140000

/-- The entries of an overlay written (R284). -/
def State.ovlPut (s : State) (m : Nat) (es : List OvlEntry) : State :=
  let es := es.take 2048
  let s := s.setBytes (ovlAt m 0) (es.flatMap fun e => toBytes 4 e.t ++ toBytes 4 e.mask ++ toBytes 4 e.val)
  let s := s.zeroRange (ovlAt m es.length) (ovlAt m 2048)
  s.put R.CFG_OVL_N es.length 0 (m - 1)

/-- An overlay entry carries a safety parameter (R284, R285). -/
def OvlEntry.safe (e : OvlEntry) : Bool := bits e.t 28 4 == 5

/-- The overlays without their KIND 5 entries, as an image holds them: those are the safety store's (R283, R298). -/
def State.ovlPlain (s : State) : State :=
  s.each (List.range 8) fun s i => s.ovlPut (i + 1) ((s.ovl (i + 1)).filter fun e => !e.safe)

/-- The snapshot of a commit (R283, R291). The size of its image is a free value within the bounds of R283. -/
def State.snapshot (s : State) (seq bootMode : Nat) (lff : Bool) : Image :=
  let b := s.baseState.ovlPlain
  let n := 1 + s.free 21 % imgMost lff
  { seq := seq, bootMode := bootMode, size := n, good := true,
    regs := b.regs.filter fun p => imgFields.any fun f => f.holds p.1,
    mem := b.mem.filter fun c => imgByte lff c.1,
    axes := s.axes.map s.bindOf,
    descs := ((List.range 1024).filter fun d => s.on H.DESC_CUSTOM d).map fun d => (d, s.descNext d),
    pages := imagePages n }

/-- The overlays hold exactly the KIND 5 entries of the safety store (R283, R298). -/
def State.ovlFromStore (s : State) : State :=
  s.each (List.range 8) fun s i =>
    let mine := (s.safOvl.filter fun x => x.ovl == i + 1).map fun x => ({ t := x.t, mask := x.mask, val := x.val } : OvlEntry)
    s.ovlPut (i + 1) (((s.ovl (i + 1)).filter fun e => !e.safe) ++ mine)

/-- The KIND 5 entries of the overlays, as the safety store keeps them. -/
def State.ovlToStore (s : State) : State :=
  { s with safOvl := (List.range 8).flatMap fun i =>
      ((s.ovl (i + 1)).filter fun (e : OvlEntry) => e.safe).map fun e =>
        ({ ovl := i + 1, t := e.t, mask := e.mask, val := e.val } : SafEntry) }

/-- An image loaded into a part as reset leaves it (R292): its axes Configured, its words and bytes in place, descriptors
and groups formed, its BOOT_MODE staged for the first boundary. -/
def State.imgLoad (s : State) (m : Image) : State :=
  let s := s.each m.axes fun s p => if s.descFreeN < s.cfgNeeds p then s else s.axConfigured p
  let s : State :=
    { s with
      regs := m.regs.foldl (fun r p => regSet r p.1 (p.2 + 1) p.2) s.regs
      mem := m.mem.foldl (fun x c => memSet x c.1 c.2) s.mem }
  let s := s.each (List.range 32) fun s g => s.grpForm g
  let s := s.each (List.range 64) fun s t => (s.lffBind t).lffShow t
  let s := s.each m.descs fun s d => s.descStage d.1 d.2
  let s := s.each m.axes fun s p => (s.recFix (p.getD 0 0)).relink (p.getD 0 0)
  let s := ((s.put R.CFG_IMG_SEQ m.seq).put R.CFG_IMG_BYTES m.size).put R.CFG_BOOT_MODE m.bootMode
  let s := s.when (m.bootMode != 0) fun s => ((s.put H.MSW_B (m.bootMode + 1)).put H.MSW_T 0).put H.MSW_CYC 0
  (s.put R.CFG_STATUS_DIRTY 0).loadUpdate

/-- The newest image fails its next check by injection (R458). -/
def State.injPage (s : State) : State :=
  if s.get H.INJ_PG = 0 then s
  else
    let s := (s.injFired 0x1E 0).report 0x1E 0 0xFFFF (s.get H.INJ_PG - 1)
    let s : State := { s with images := match s.images with | m :: t => { m with good := false } :: t | [] => [] }
    s.put H.INJ_PG 0

/-- The boot's choice of an image (R292). -/
def State.bootImage (s : State) : State :=
  let s := s.injPage
  let s := s.when (s.on H.CMT_TORN) fun s => s.put R.CFG_STATUS_COMMIT_LOST 1
  let s := s.when (match s.images with | m :: _ => !m.good | [] => false) fun s => s.put R.CFG_STATUS_IMG_FALLBACK 1
  match s.images.find? fun m => m.good with
  | none => s
  | some m => s.imgLoad m

/-- A commit's snapshot is taken at a boundary, and erased pages for it and its commit record; with too few of them stale images are
reclaimed first (R291, R299). -/
def State.commitSnap (s : State) : State :=
  if s.get H.CMT ≠ 1 then s
  else
    let q := (s.get H.IMG_SEQ + 1) % 2 ^ 32
    let m := s.snapshot q (s.get H.CMT_BM) (s.on H.CMT_LFF)
    let s := s.useFree
    let s := s.when (decide (s.blkRoom ≤ m.pages)) fun s => s.flashCollect []
    let r := State.pagesTake 1000 s (m.pages + 1)
    let s : State := { r.1 with snap := some { m with ext := r.2 } }
    (((s.flView.put H.CMT 2).put H.CMT_D 0).put H.CMT_B 0).put H.IMG_SEQ q

/-- A commit is lost before its record (R267, R292, R299). -/
def State.commitLost (s : State) : State :=
  let s := s.when (s.get H.CMT == 2) fun s => s.put H.CMT_TORN 1
  { (s.put H.CMT 0) with snap := none }

end Sys2Proof.Machine
end

