-- ==== Sys2Proof/Machine/ResetOps.lean ====
section
/-! DEFINITION. The end of injections (R457), clock losses (R454, R471), and the resets of domains and of the module (R266,
R267, R472 to R474). -/

namespace Sys2Proof.Machine

/-- Every element of the fields of a list at its reset value. -/
def State.resetList (s : State) (fs : List Fld) : State :=
  s.each fs fun s f => s.each (List.range f.n) fun s i => s.each (List.range f.m) fun s j => s.resetFld f i j

/-- Every element of the fields of a list as in another state. -/
def State.keepList (t s : State) (fs : List Fld) : State :=
  t.each fs fun t f => t.each (List.range f.n) fun t i => t.each (List.range f.m) fun t j => t.put f (s.get f i j) i j

/-- The registers whose byte addresses lie in a range as in another state. -/
def State.keepRange (t s : State) (lo hi : Nat) : State :=
  let t := t.resetRange lo hi
  let ps := s.regs.filter fun p => decide (8 * lo ≤ p.1) && decide (p.1 < 8 * hi)
  { t with regs := ps.foldl (fun r p => regSet r p.1 (p.2 + 1) p.2) t.regs }

/-- The bytes of a range as in another state. -/
def State.keepMem (t s : State) (lo hi : Nat) : State :=
  let t := t.zeroRange lo hi
  let cs := s.mem.filter fun c => decide (lo ≤ c.1) && decide (c.1 < hi)
  { t with mem := cs.foldl (fun x c => memSet x c.1 c.2) t.mem }

/-! ### HOST -/

/-- HOST is reset (R472): interrupts, the error log, the MSI-X table, latched and staged halves; what other domains show
there stands. -/
def State.hostReset (s : State) : State :=
  let s := (s.resetRange 0x30 0x10000).resetRange H.LAT_HI.base H.D3HOT.base
  (((s.put H.D3HOT 0).put H.TICK_CNT 0).put H.PCI_BAR0 0).resetList [H.PCI_BAR2, H.PCI_AER]

/-! ### Clock losses (R454) -/

/-- What FSTOP_N is driven low for while a clock is lost (R454). -/
def State.clkHold (s : State) : State :=
  if bits (s.get H.CLK_LOST) 0 3 = 0 then s.clearBit H.FS_HOLD 0 else s

/-- A clock loss is shown (R454): 0 REFCLK25, 1 PLL-A, 2 PLL-B, 3 PLL-S, 4 PLL-N, 5 PLL-P. -/
def State.clkLoss (s : State) (k : Nat) : State :=
  let s := (s.orBit H.CLK_LOST k).report 0x0A k 0xFFFF 0
  let s := if k = 0 then s.put R.PWR_CLK_REF 0 else s.clearBit R.PWR_CLK_LOCK (k - 1)
  if k ≤ 2 then
    if s.inPair then (if s.get R.CNJ_STATE_ROLE = 1 then s.ownFault else s.setRole 4)
    else (s.rejoinFail.orBit H.FS_HOLD 0).fsEnter 0
  else if k = 3 then s.wdExpire
  else if k = 4 then ((s.each (List.range 4) fun s p => s.linkDown p).laneLost 0).laneLost 1
  else if s.attach = 1 then s
  else s.hostReset.orBit R.PWR_RSTCAUSE 6

/-- A clock is shown again (R454). -/
def State.clkBack (s : State) (k : Nat) : State :=
  let s := (s.clearBit H.CLK_LOST k).put H.CLK_INJ 0 k
  let s := if k = 0 then s.put R.PWR_CLK_REF 1 else s.orBit R.PWR_CLK_LOCK (k - 1)
  s.clkHold

/-! ### Injections (R457, R458) -/

/-- What an injection holds until it ends by itself, by detector and instance. -/
def injHolds (det : Nat) : List Fld :=
  match det with
  | 0x03 => [H.ENG_INJR] | 0x04 => [H.ENG_INJG] | 0x05 => [H.ENG_INJW] | 0x06 => [H.ENG_INJT]
  | 0x07 => [H.INJ_SC] | 0x08 => [H.INJ_WD] | 0x0A => [H.CLK_INJ] | 0x0B => [H.INJ_FCS, H.INJ_CODE]
  | 0x0C => [H.INJ_CN, H.INJ_CNT] | 0x0D => [H.INJ_RBT] | 0x0E => [H.INJ_SO] | 0x0F => [H.INJ_PMS, H.INJ_PT]
  | 0x10 => [H.INJ_VFT] | 0x11 => [H.INJ_REFT, H.INJ_REFN] | 0x12 => [H.INJ_WBT] | 0x13 => [H.INJ_GFU]
  | 0x14 => [H.INJ_OVN] | 0x15 => [H.INJ_CHS] | 0x16 => [H.INJ_ELL] | 0x17 => [H.INJ_TU] | 0x18 => [H.INJ_RU]
  | 0x19 => [H.INJ_EU] | 0x1A => [H.INJ_DIG] | 0x1C => [H.INJ_SCU] | 0x1D => [H.INJ_CAL] | 0x1E => [H.INJ_PG]
  | 0x1F => [H.INJ_TRIM]
  | _ => []

/-- The fields among these that hold a time until which the condition lasts. -/
def injTimed (det : Nat) : Bool := [0x0A, 0x13, 0x17, 0x18, 0x19, 0x1C].contains det

/-- The instance under which the condition is held; a detector without instances has one. -/
def injInst (f : Fld) (inst : Nat) : Nat := if f.n = 1 then 0 else inst

/-- The condition of an injection still holds. -/
def State.injHeld (s : State) (x : InjSlot) : Bool :=
  if x.det = 0x1B then bit (s.get H.INJ_DIAG) x.inst
  else if x.det = 0x01 ∨ x.det = 0x02 then s.arrErrs.any fun e => e.arr == x.inst && e.off == x.arg1
  else (injHolds x.det).any fun f =>
    let v := s.get f (injInst f x.inst)
    if injTimed x.det || f == H.INJ_PT || f == H.INJ_CNT || f == H.INJ_REFT then decide (s.now < v) else v != 0

/-- The condition of an injection ends (R457). Flipped bits stay: they are an effect. -/
def State.injEnd (s : State) (x : InjSlot) : State :=
  let s := s.when (x.det == 0x0A && s.get H.CLK_INJ x.inst != 0) fun s => s.clkBack x.inst
  let s := s.when (x.det == 0x1B) fun s => s.clearBit H.INJ_DIAG x.inst
  s.each (injHolds x.det) fun s f => s.put f 0 (injInst f x.inst)

/-- Slots are disarmed: held conditions end, the slots are free (R457, R460). -/
def State.disarm (s : State) (p : Nat → Bool) : State :=
  let s := s.each (s.injs.filter fun (x : InjSlot) => p x.slot) fun s x => s.injEnd x
  let s := s.each ((List.range 8).filter p) fun s k =>
    ((s.put R.INT_INJ_STAT_STATE 0 k).put R.INT_INJ_STAT_DET 0 k).put R.INT_INJ_STAT_INST 0 k
  { s with injs := s.injs.filter fun (x : InjSlot) => !p x.slot }

/-- SEC_DBG.HALTED, and the cause of Full Stop that a halt of MC0/MC1 or SC or a pin instruction keeps up (R484). -/
def State.haltShow (s : State) : State :=
  let cores := s.on H.MC_HALT || s.on H.SC_HALT
  let any := cores || (List.range 16).any fun e => s.on H.ENG_HALT e
  let s := s.put R.SEC_DBG_HALTED (b2n any)
  if cores || s.on R.SEC_DBG_EXTEST then s else s.clearBit H.FS_HOLD 5

/-! ### MGMT (R266, R267, R361) -/

/-- What the restarted firmware does to one long operation, with its event-log entry of KIND 4 (R267). -/
def State.lopRestart (s : State) (opc idx : Nat) : State :=
  let s := s.evAdd 4 0 idx (if opc = 0x0404 then idx else if opc = 0x0208 then s.get H.SW_AXIS idx else 0xFFFF) 0 false opc
  if opc = 0x0404 then
    let s := (s.homingOff idx).put R.HM_STAT_ERR 0x0409 idx
    s.when (s.axSt idx == 4) fun s => s.quickStop idx s.now
  else if opc = 0x0208 then
    let a := s.get H.SW_AXIS idx
    let s := ((s.put H.SW_RUN 0 idx).put H.AX_INJ 0 a).put H.SW_ORPH 1 idx
    let s := (s.store (pageAddr (s.get H.SW_PAGE idx - 1) + 8) 4 2).freeDesc (s.get H.SW_DESC idx)
    ((s.put H.SW_DESC 0 idx).put H.SW_ON 0 idx).relink a
  else if opc = 0x0702 then (s.put H.DP_CALF 0 idx).put H.DP_EN 0 idx
  else if opc = 0x0601 then (s.commitLost).put R.CFG_STATUS_COMMIT_LOST 1
  else if opc = 0x0602 then
    (s.put H.FW_PH 0).clearBit H.FW_GOOD (1 - s.get R.CFG_FW_SLOT)
  else s

/-- The slots that hold an operation in progress: opcode and index. -/
def State.lopsLive (s : State) : List (Nat × Nat) :=
  ((List.range 32).filter fun k =>
    s.get R.LOP_ID_HANDLE k != 0 && (s.get R.LOP_ID_STATUS k == 1 || s.get R.LOP_ID_STATUS k == 4)).map fun k =>
      (s.get R.LOP_OBJ_OPCODE k, s.get R.LOP_OBJ_INDEX k)

/-- A key slot is accepted for firmware (R477). -/
def State.keyOk (s : State) (k : Nat) : Bool :=
  let st := s.get R.SEC_STATE_STATE
  bit (s.get R.SEC_KEYS_PROG) k && !bit (s.get R.SEC_KEYS_REVOKED) k &&
    (if st = 0 then k == 0 else if st = 1 then true else k != 0)

/-- A firmware slot passes its check at boot (R295). -/
def State.slotBoots (s : State) (k : Nat) : Bool := bit (s.get H.FW_GOOD) k && s.keyOk (s.get H.FW_KEY k)

/-- The boot ROM's choice of a slot (R295, R476): the active one, else the other, else recovery. After a trial that was abandoned the
active slot is the other one. READY, which the boot reaches with this step, ends a trial. -/
def State.fwPick (s : State) : State :=
  let a := s.get H.FW_ACT
  let run := fun (s : State) (k : Nat) =>
    ((s.put R.CFG_FW_SLOT k).put R.HIF_FW_VER (s.get (if k = 0 then R.CFG_FW_VER0 else R.CFG_FW_VER1))).put H.FW_ACT k
  let back := s.get H.FW_TRL == 3
  let s := s.put R.CFG_STATUS_FW_TRIAL 0
  if s.slotBoots a then
    (((run s a).put R.PWR_STATE_BOOT (b2n back)).when back fun s => s.put R.CFG_STATUS_FW_FALLBACK 1).put H.FW_TRL 0
  else if s.get H.FW_TRL ≠ 3 ∧ s.slotBoots (1 - a) then
    (((run s (1 - a)).put R.PWR_STATE_BOOT 1).put R.CFG_STATUS_FW_FALLBACK 1).put H.FW_TRL 0
  else (s.put R.PWR_STATE_BOOT 2).put R.HIF_FW_VER 0

/-- Events that carry a request are dropped with it. -/
def AxKind.ofRequest : AxKind → Bool
  | .enable _ => true
  | .disable _ => true
  | .faultReset _ => true
  | .faultRaise _ => true
  | .configured _ => true
  | .deconfigured _ => true
  | .motion _ => true
  | _ => false

/-- The safety session ends (R296). -/
def State.sessionEnd (s : State) : State :=
  (((s.put R.CFG_SAF_SESS_OPEN 0).put R.CFG_SAF_SESS_MBX 0).put R.CFG_SAF_SESS_AUTHOR 0).put H.SS_REASON 0

/-- MGMT is reset and the firmware restarts (R266, R267, R270, R296, R361, R456, R457): mailboxes IDLE, histories and the
long-operation table clear, the status, flags and counters of its blocks are at their reset values (R13), operations come to
rest, outputs commanded off. The firmware adopts the live configuration (R471), and everything else keeps running. -/
def State.mgmtReset (s : State) : State :=
  let ops := s.lopsLive
  let s := s.when ((List.range 32).any fun k => s.get R.LOP_ID_STATUS k != 0) fun s => s.cause 0
  let s := (s.disarm fun _ => true).sessionEnd
  let s : State :=
    { s with
      tags := []
      waits := []
      evlog := []
      axEvs := s.axEvs.filter fun (e : AxEv) => !e.kind.ofRequest }
  let s := (s.resetRange 0x10000 0x11400).resetRange 0xE0000 0x100000
  let s := s.resetList [H.LOP_NEXT, H.DET_DOMS, H.CE_T, H.CE_LOGGED, H.MB_JRN, H.MB_ACC, H.TEL_WT, H.TEL_WR, H.TEL_WE,
    H.TEL_CRIT, H.MSW_MB, H.PWR_STBY, H.MC_HALT, H.SCR_T0, H.SCR_RP]
  let s := ((s.put R.PWR_STATE_PENDING 3).put H.MSW_B 0).clearBit H.FS_HOLD 1
  let s := (s.fioRestart).resetList [R.CFG_MODE_CYC, R.CFG_STATUS_COMMIT_LOST, R.CFG_STATUS_IMG_FALLBACK, R.CFG_STATUS_FW_FALLBACK,
    R.CFG_SAF_FAILS, R.CFG_SAF_LOCK, H.SS_LKT]
  let s := s.each ops fun s o => s.lopRestart o.1 o.2
  let s := s.haltShow.fwPick
  (s.sumUp).put R.HIF_STATUS_BOOT_CNT (s.get R.HIF_STATUS_BOOT_CNT + 1)

/-! ### SAFE -/

/-- SC starts (R381, R388, R409, R475, R485): the set committed last is in force, every enabled stop group is in demand as
if it waited for a safety reset, and a low FSTOP_N is seen. -/
def State.scStart (s : State) : State :=
  let s := if s.on H.SAF_CONF then (s.safWith fun o => s.load (safSet o) 4).put R.SAF_STATUS_STATE 1 else s
  let s := s.each (List.range 16) fun s g =>
    if s.on R.SAF_SG_CFG_EN g then ((s.orBit R.SAF_SG_DEM g).orBit R.SAF_SG_STO g).orBit H.SAF_WAIT g
    else (s.sgNone g).clearBit H.SAF_WAIT g
  let s := s.each (List.range 64) fun s c => s.when (s.conn c 1) fun s => s.connStart c
  let s := s.safChannels
  let low := s.on H.FS_LOW || bit (s.get H.FS_HOLD) 0
  (s.put H.FS_LOW 0).when low fun s => (s.put R.SAF_STATUS_FSTOP_PIN 0).fsEnter 0

/-- SAFE is reset (R472, R474): SC restarts, a latched SC fault clears, Full Stop holds. -/
def State.safeReset (s : State) : State :=
  let was := s.inFullStop
  let cause := s.get R.SAF_STATUS_FS_CAUSE
  let low := s.on H.FS_LOW
  let t := ((s.resetRange 0xD0000 0xE0000).resetList H.safVars).put H.SC_HALT 0
  let t := (t.put H.FS_LOW (b2n low)).haltShow.scStart
  if was then (((t.put R.SAF_STATUS_STATE 2).put R.SAF_STATUS_FS_CAUSE (cause ||| t.get R.SAF_STATUS_FS_CAUSE)).put
    R.SAF_STATUS_FSTOP_PIN 0).put H.FS_STO 1
  else t

/-! ### DRV and ENG -/

/-- DRV is reset (R474): its configuration is written anew, ports go down and are offline until their offset calibration
(R316). With KEEP at 1 a two-phase port's microstep index comes back from the axis store (R323). -/
def State.drvReset (s : State) : State :=
  let t := (s.resetRange 0xA0000 0xC0000).resetList H.drvVars
  let t := t.keepList s (drvCfg ++ ptCfg ++ encCfg)
  let t := t.each ((List.range 8).filter fun p => s.on R.DRV_CFG_KEEP p) fun t p => t.put R.DRV_MSTEP (s.get R.DRV_MSTEP p) p
  t.each t.axes fun t a => t.when ((t.dpOf a).isSome) fun t => t.post a .nodeLost

/-- Quad `q` is reset (R474): its engines leave service, clauses running there are lost, program memory is reloaded and
quarantine cleared, and the engines are back in service; SVP holds 0xF100 from the start-up of the firmware there (R126). -/
def State.engReset (s : State) (q : Nat) : State :=
  State.haltShow <| s.each (List.range 4) fun s k =>
    let e := 4 * q + k
    let s := (s.engStop e).progReload e
    let s := s.each H.engVars fun s f => s.each (List.range f.m) fun s j => s.resetFld f e j
    let s : State := { s with late := s.late.filter fun (y : EngReg) => y.eng != e,
                              olds := s.olds.filter fun (y : EngReg) => y.eng != e }
    ((s.setEngSt e 0).setService e true).put H.ENG_SVP 0xF100 e

/-! ### NET and STORE, after their clock was lost (R471) -/

/-- NET is reset: rings, clock, Conjunction and compare units. -/
def State.netReset (s : State) : State :=
  let s := s.resetRange 0x50000 0xA0000
  let s := s.resetList [H.NODE_ST, H.NODE_SEEN, H.NODE_IDT, H.SCAN_N, H.SCAN_HAVE, H.MEAS, H.SPLITP, H.SPL_CYC, H.PROBEP,
    H.RSTOP, H.RNEW, H.BYP_HOLD, H.LAND_F, H.LAND_C, H.FWD_EPOCH, H.DC_FIRST, H.CMP_PEND, H.CMP_CFGP, H.CAP_PEND,
    H.CAP_CFGP, H.CMP_K, H.TRG_LVL, H.CMP_PON, H.CNJ_PROLE, H.CNJ_SWP, H.CNJ_DW, H.CNJ_HO, H.CNJ_ISO, H.CNJ_CEASE,
    H.FB_BAD, H.CM_BAD, H.MEAS_N, H.PRB_OUT, H.PD_ID, H.PD_NEXT, H.NRT_D, H.LINK_T, H.ACYC_TID, H.FWD_LEN, H.DC_GOOD,
    H.DC_REFT, H.DC_REFN, H.DC_STUCK, H.DC_HOLDN, H.DC_PHASE, H.DC_NEWREF, H.SLOT_V0, H.CNJ_CPY, H.CNJ_STL, H.CNJ_DWT, H.WIRE_INV,
    H.NRT_ACC, H.WIRE_CODE, H.CNJ_DETS, H.CNJ_BKL, H.CNJ_SWT, H.CNJ_SWB, H.RET_CYC, H.LAND_L, H.RING_N0, H.BYP_CMD]
  let s : State := { s with mpq := [], grants := [], caps := [], edges := [], tracks := [], outs := [], acyc := [] }
  let s := (s.put R.HIF_STATUS_ROLE 0).when (s.get R.HIF_STATUS_ROLE != 0) fun s => s.cause 10
  s.each s.axes fun s a => s.when (s.isNirte a) fun s => s.post a .nodeLost

/-- STORE is reset: the axis store, the scheduler and the statistics. -/
def State.storeReset (s : State) : State :=
  let s := s.each s.axes fun s a => s.axAbsent a
  let s := (s.resetRange 0x40000 0x50000).resetRange 0x40010000 0x40018000
  let s := ((s.resetRange 0x18000000 0x18004000).resetRange 0x19000000 0x19001000)
  let s := s.resetList [H.GRP_DESC, H.LFF_DESC, H.SUP_DESC, H.SW_DESC, H.DESC_CUSTOM, H.DESC_RELOAD, H.TRC_TRIG, H.TRC_POST,
    H.TRC_PHASE, H.REC_RWT, H.DESC_RWT]
  { s with insts := [], descPend := [], trcBuf := [], slotW := [], saved := [], baseW := [], outs := [] }

/-! ### The module (R472) -/

/-- The registers that firmware reads from the flash. -/
def flashRegs : List Fld :=
  [R.CFG_STATUS_LOG_WRAPPED, R.CFG_STATUS_NO_PASSWORD, R.CFG_STATUS_FLASH_WORN, R.CFG_FL_BLK_ERASED, R.CFG_FL_BLK_USED,
   R.CFG_FL_RETIRED, R.CFG_FL_ECMAX, R.CFG_FL_ECMIN, R.CFG_FW_SLOT, R.CFG_FW_VER0, R.CFG_FW_VER1, R.CFG_SAF_CRC, R.CFG_LOG_SEQ]

/-- The registers that fuses and the values set at test supply (R2, R4, R255, R477). -/
def fuseRegs : List Fld :=
  [R.HIF_ID_PART, R.HIF_ID_VARIANT, R.HIF_ID_PACK, R.HIF_ID_REV, R.HIF_SERIAL, R.HIF_MAC, R.HIF_CID, R.SEC_KEYS_PROG,
   R.SEC_KEYS_REVOKED]

/-- The challenge is drawn anew (R479). -/
def State.newChal (s : State) : State :=
  s.each (List.range 4) fun s k => (s.put R.SEC_CHAL (s.free 32) 0 k).useFree

/-- The module is released and the firmware starts: a slot on trial boots, until READY sets (R295, R301). -/
def State.romStart (s : State) : State :=
  if s.get H.PWR_HOLD = 0 ∧ s.get R.HIF_STATUS_READY = 0 ∧ s.get H.FW_TRL = 1 ∧ s.slotBoots (s.get H.FW_ACT) then
    (s.put H.FW_TRL 2).put R.CFG_STATUS_FW_TRIAL 1
  else s

/-- A trial that resets before READY is abandoned: the other slot is the active one (R295). -/
def State.trialLost (s : State) : State :=
  if s.get H.FW_TRL = 2 then (s.put H.FW_TRL 3).put H.FW_ACT (1 - s.get H.FW_ACT) else s

/-- What no reset changes: flash, fuses, the attachment pins, and the queue of commands. -/
def State.flashKept (s : State) : State :=
  let s := s.commitLost.trialLost
  let s := s.when (s.get H.FW_PH != 0) fun s => s.clearBit H.FW_GOOD (1 - s.get R.CFG_FW_SLOT)
  let t : State := { State.reset with pending := s.pending, msix := s.msix, images := s.images, safOvl := s.safOvl }
  let t := (t.keepList s H.flashVars).keepList s (flashRegs ++ fuseRegs ++ [R.HIF_STATUS_HSEL])
  let t := (t.keepMem s 0x5F002000 0x5F003000).keepMem s 0x5F100000 0x5F108000
  let t := t.keepMem s (flashAt 0) (flashAt 0x2000000)
  let sec := s.get R.SEC_STATE_STATE
  (t.put R.SEC_STATE_STATE (if sec = 3 then 2 else sec)).keepList s [H.PWR_HOLD]

/-- A power-on reset: all domains, AON included; fuses are read again (R472). -/
def State.powerReset (s : State) : State := s.flashKept.newChal

/-- RST_N, or what resets as it does: every domain but AON. Service ends (R472, R477). -/
def State.warmReset (s : State) (cause : Nat) : State :=
  let t := s.flashKept.keepRange s 0x100000 0x120000
  let sec := s.get R.SEC_STATE_STATE
  let t := (t.put R.SEC_STATE_STATE (if sec = 3 then 2 else sec)).put R.SEC_STATE_OBS_TOKEN 0
  let t := (t.put R.SEC_STATE_ZEROISED 0).put H.DEV_OK 1
  let t := ((t.put R.SEC_DBG_HALTED 0).put R.SEC_DBG_EXTEST 0).when (decide (2 ≤ sec)) fun t =>
    (t.put R.SEC_DBG_REQ 0).put R.SEC_DBG_LEVEL 0
  let t := ((t.put R.PWR_STATE_STATE 0).put R.PWR_STATE_PENDING 3).put R.PWR_STATE_BOOT 0
  let t := (t.put R.PWR_DOM_ON 1).put R.PWR_DOM_RST 0xFFE
  let t := ((t.put R.PWR_CLK_LOCK 0).put R.PWR_WAKE_TMR 0).put R.PWR_CFG_IDLE_EN (s.get R.PWR_CFG_IDLE_EN)
  let t := t.put R.HIF_STATUS_BOOT_CNT (s.get R.HIF_STATUS_BOOT_CNT)
  (t.orBit R.PWR_RSTCAUSE cause).newChal

end Sys2Proof.Machine
end

