-- ==== Sys2Proof/Machine/ConfigOps.lean ====
section
/-! DEFINITION. Overlays as requests write them (R284, R285), mode switches (R288, R290), commits and flash (R291 to R295),
the safety session and the change log (R296 to R298). -/

namespace Sys2Proof.Machine

/-! ### Overlay entries -/

/-- The bits that a field holds of the word at byte address `w`. -/
def fldBits (f : Fld) (w : Nat) : Nat :=
  match fldAt f w with
  | some _ => (2 ^ f.width - 1) * 2 ^ f.lo % 2 ^ 32
  | none => 0

/-- Bits that fix structure, which no entry targets (R285). -/
def ovlFixed (t : Nat) : Nat :=
  let fs := [R.GRP_CFG_N, R.GRP_MEM0, R.GRP_MEM1, R.LFF_BIND_AXIS, R.LFF_BIND_EN, R.LFF_BIND_MOVE_ID, R.AXS_TRK_CTL_T0_SEC,
    R.AXS_TRK_CTL_T0_EN, R.AXS_TRK_CTL_T1_SEC, R.AXS_TRK_CTL_T1_EN, R.AXS_TRK_SRC_T0_AXIS, R.AXS_TRK_SRC_T0_NPT,
    R.AXS_TRK_SRC_T1_AXIS, R.AXS_TRK_SRC_T1_NPT]
  fs.foldl (fun m f => m ||| fldBits f (targetWord t).2) 0

/-- The number of records of a kind, and the end of the offsets in one (R284). -/
def ovlExtent (kind : Nat) : Nat × Nat :=
  match kind with
  | 0 => (256, 0x740) | 1 => (32, 0x200) | 2 => (64, 0x40) | 3 => (32, 8) | 4 => (8, 0x80) | 5 => (1, 0x1000)
  | _ => (0, 0)

/-- An entry may stand in an overlay (R285). Of the words that hold structure, only GRP_CFG has bits left to an entry. The safe channels of a CX7420-SX are written by the safety core only (R373). -/
def State.ovlMay (s : State) (e : OvlEntry) : Bool :=
  let kind := bits e.t 28 4
  let idx := bits e.t 16 12
  let off := bits e.t 0 16
  let ext := ovlExtent kind
  decide (idx < ext.1) && decide (off < ext.2) && off % 4 == 0 && !(fieldsOf (targetWord e.t).1 (targetWord e.t).2).isEmpty &&
    (ovlFixed e.t == 0 || (e.t % 2 ^ 16 == 0 && kind == 1 && (e.mask &&& ovlFixed e.t) == 0)) && !(kind == 3 && s.safeCh idx) &&
    !(kind == 5 && andNot e.mask (confMask e.t) != 0)

/-- An entry with its value clamped as the word's fields are (R275, R285). -/
def State.ovlClamp (s : State) (e : OvlEntry) : OvlEntry :=
  if e.safe then e
  else
    let v := overlaid (s.baseWord e.t) [e]
    let t := (s.putWord (targetWord e.t).1 (targetWord e.t).2 v).fixTarget e.t
    let t := if bits e.t 28 4 = 3 then t.clampAll fioCfg (bits e.t 16 12) else t
    let w := t.word (targetWord e.t).1 (targetWord e.t).2
    let m := e.mask &&& confMask e.t
    { e with val := andNot e.val m ||| (w &&& m) }

/-- The entries that OVL_WRITE carries. -/
def State.ovlPars (s : State) (mb n : Nat) : List OvlEntry :=
  (List.range n).map fun i =>
    { t := s.par mb (12 + 12 * i) 4, mask := s.par mb (16 + 12 * i) 4, val := s.par mb (20 + 12 * i) 4 }

/-- Entries put over those of an overlay from an index up. A gap before them is filled with entries that set no bit. -/
def State.ovlOver (s : State) (m first : Nat) (es : List OvlEntry) : List OvlEntry :=
  let old := s.ovl m
  let nil_ : OvlEntry := { t := 0, mask := 0, val := 0 }
  (old ++ List.replicate (first - old.length) nil_).take first ++ es ++ old.drop (first + es.length)

/-- The overlay is in use or staged (R299). -/
def State.ovlInUse (s : State) (m : Nat) : Bool := s.get R.CFG_MODE_ACTIVE == m || s.get H.MSW_B == m + 1

/-- The entries of an OVL_WRITE request with its overlay and first index. -/
def State.ovlReq (s : State) (mb : Nat) : Nat × Nat × List OvlEntry :=
  (s.par mb 0 4, s.par mb 4 4, (s.ovlPars mb (clampN 1 340 (s.par mb 8 4))).map s.ovlClamp)

/-- With the entries in place the overlay would enable a cross-coupling section on a member that does not exist (R89). -/
def State.ovlCcBad (s : State) (m first : Nat) (es : List OvlEntry) : Bool :=
  es.any fun e => bits e.t 28 4 == 1 && bits e.t 0 16 == 0x0C &&
    decide (s.get R.GRP_CFG_N (bits e.t 16 12) < s.ovlCcNeed (bits e.t 16 12) (s.ovlOver m first es))

/-- The entries of OVL_WRITE take their place. -/
def State.ovlWrite (s : State) (mb : Nat) : State :=
  let r := s.ovlReq mb
  s.ovlPut r.1 (s.ovlOver r.1 r.2.1 r.2.2)

/-- Why a write of the safety set is refused for a mailbox (R276, R297); 0 where it is not. -/
def State.safeWriteBar (s : State) (mb : Nat) : Nat :=
  if !s.isSX then 0x0006 else if !s.sessionOk mb then 0x0008 else 0

/-! ### Mode switch -/

/-- The staged mode holds coefficients of a tracked section, or would change those that the mode in use holds (R81, R290). -/
def State.swapTracked (s t : State) (b : Nat) : Bool :=
  let trk := fun w : Nat => bits w 28 4 == 0 && s.tracked (bits w 16 12) (bits w 0 16) 1
  (ovlTargets (s.ovl b)).any trk || (s.baseW.any fun p => trk p.1 && s.confWord p.1 != t.confWord p.1)

/-- A mode is staged (R288): 1 µs, and 0.05 µs for each entry of both overlays. -/
def State.modeStage (s : State) (mb b cyc : Nat) : State :=
  let n := s.ovlCount b + s.ovlCount (s.get R.CFG_MODE_ACTIVE)
  let s := (s.put H.MSW_B (b + 1)).put H.MSW_T (s.now + 1000 + 50 * n)
  ((s.put H.MSW_CYC cyc).put H.MSW_MB (mb + 1)).wait mb 0x0600 0

/-! ### Flash -/

/-- The commit record has been read back (R291). -/
def State.commitDone (s : State) (m : Image) : State :=
  let s : State := { s with images := m :: s.images, snap := none }
  let s := ((s.put R.CFG_IMG_SEQ m.seq).put R.CFG_IMG_BYTES m.size).put R.CFG_BOOT_MODE m.bootMode
  let s := s.when (!s.on H.CMT_D) fun s => s.put R.CFG_STATUS_DIRTY 0
  ((s.put H.CMT 0).put H.CMT_TORN 0).lopFinish 0x0601 0 2 0

/-- The images that garbage collection keeps: down to the second newest valid one (R292, R293). -/
def keepImages : Nat → List Image → List Image
  | 0, _ => []
  | _, [] => []
  | n + 1, m :: t => m :: keepImages (if m.good then n else n + 1) t

/-- The place of the received firmware image, and of the mark of each byte. -/
def fwBuf : Nat := 0x90000000

/-- The marks of the bytes received. -/
def fwMark : Nat := 0x90800000

/-- Bytes of the image arrive; those not received before count (R295). -/
def State.fwTake (s : State) (off : Nat) (bs : List Nat) : State :=
  let new := ((List.range bs.length).filter fun i => s.byte (fwMark + off + i) == 0).length
  let s := (s.setBytes (fwBuf + off) bs).setBytes (fwMark + off) (List.replicate bs.length 1)
  s.put H.FW_GOT (s.get H.FW_GOT + new)

/-- The fused key slot whose hash is that of the image's key. -/
def State.fwKeySlot (s : State) (hash : Nat) : Option Nat :=
  (List.range 4).find? fun k => bit (s.get R.SEC_KEYS_PROG) k && s.get H.KEY_HASH k == hash

/-- What the check of a received image finds (R295, R477): a reason, 0 where it passes, and the key slot. -/
def State.fwCheck (s : State) (img : List Nat) : Nat × Nat :=
  match s.fwKeySlot (Config.imageKey img % 2 ^ 256) with
  | none => (0x0602, 0)
  | some k =>
    if bit (s.get R.SEC_KEYS_REVOKED) k then (0x0603, k)
    else if !s.keyOk k || !Config.imageSigned img then (0x0602, k)
    else if Config.imageRollback img < s.get R.CFG_FW_ARB then (0x0604, k)
    else (0, k)

/-- Flash scrub pauses while a commit or a firmware write runs (R299). -/
def State.scrubPaused (s : State) : Bool := s.get H.CMT != 0 || s.get H.FW_PH == 2

/-- A retained image is found bad; IMG_FALLBACK sets if it is the newest (R294). -/
def State.imageBad (s : State) (i : Nat) : State :=
  if s.images.length ≤ i then s
  else
    let s : State := { s with images := s.images.modify i fun m => { m with good := false } }
    (s.when (i == 0) fun s => s.put R.CFG_STATUS_IMG_FALLBACK 1).report 0x1E 0 0xFFFF 0

/-! ### Safety session (R296) -/

/-- Bytes of a request from an offset up. -/
def State.parBytes (s : State) (mb off n : Nat) : List Nat := s.bytes (pageOf mb + off) n

/-- The lockout after a number of consecutive failures, seconds: 60 at the fifth, doubling, up to 3600 (R296). -/
def lockSecs (n : Nat) : Nat := if n < 5 then 0 else min 3600 (60 * 2 ^ min 6 (n - 5))

/-- A login fails (R296). -/
def State.loginFails (s : State) (mb : Nat) : State :=
  let s := s.incSat R.CFG_SAF_FAILS
  let t := lockSecs (s.get R.CFG_SAF_FAILS)
  ((s.put R.CFG_SAF_LOCK t).put H.SS_LKT (s.now + 1000000000 * t)).fail mb 0x0609

/-- A login succeeds: the session is the mailbox's, an older one ends (R296). -/
def State.loginOk (s : State) (mb author reason : Nat) : State :=
  let s := ((s.sessionEnd.put R.CFG_SAF_SESS_OPEN 1).put R.CFG_SAF_SESS_MBX mb).put R.CFG_SAF_SESS_AUTHOR author
  (((s.put H.SS_REASON reason).put R.CFG_SAF_FAILS 0).put H.SS_T s.now).done mb

/-! ### The safety store and the change log (R298) -/

/-- A word of the safety set that stands in the safety store, or, where none has been committed, the word in force. -/
def State.safStored (s : State) (o : Nat) : Nat :=
  if s.on H.SAF_CONF || s.on H.SAF_NEWP then s.load (safSet o) 4 else s.safWord o

/-- The place of a change-log entry by its sequence number. -/
def logAt (q : Nat) : Nat := 0x5F100000 + 32 * (q % 512)

/-- One entry of the change log: kind and number of parameters changed, reason and author as of the request of a mailbox (R298). -/
def State.logAdd (s : State) (mb kind n : Nat) : State :=
  let crc := Config.safetyCrc (safWords.map s.safStored ++ s.ovlSafety) % 2 ^ 32
  let q := (s.get R.CFG_LOG_SEQ + 1) % 2 ^ 32
  let s := (s.put R.CFG_SAF_CRC crc).put R.CFG_LOG_SEQ q
  let s := s.when (decide (512 < q)) fun s => s.put R.CFG_STATUS_LOG_WRAPPED 1
  (s.setBytes (logAt q) (toBytes 4 q ++ toBytes 2 (s.get H.SS_CR mb) ++ toBytes 2 (s.get H.SS_CA mb) ++
    toBytes 8 s.now ++ toBytes 4 crc ++ toBytes 2 kind ++ toBytes 2 n ++ toBytes 8 0)).ovlToStore

/-- The words of a set are in the safety store; it takes effect at the next safe sample (R298, R409). -/
def State.safNewSet (s : State) (f : Nat → Nat) : State :=
  (s.each safWords fun t o => t.store (safSet o) 4 (f o)).put H.SAF_NEWP 1

/-- The KIND 5 entries leave every overlay. -/
def State.ovlNoSafety (s : State) : State :=
  s.each (List.range 8) fun s i =>
    if (s.ovl (i + 1)).any OvlEntry.safe then s.ovlPut (i + 1) ((s.ovl (i + 1)).filter fun e => !e.safe) else s

/-- A safety change that waits reaches the safety store (R297, R298): parameters, overlay entries, the password, or all
back to defaults. -/
def State.safetyChange (s : State) (w : Wait) : State :=
  let mb := w.mb
  if w.opc = 0x0901 then
    let t := (s.safNewSet fun o => s.load (safWrite mb o) 4).logAdd mb 1 w.arg
    t.done mb (toBytes 4 (t.get R.CFG_LOG_SEQ))
  else if w.opc = 0x0607 then
    let m := (s.ovlReq mb).1
    let t := (s.ovlWrite mb).logAdd mb 2 w.arg |>.dirty
    t.done mb (toBytes 4 (t.ovlCount m))
  else if w.opc = 0x0609 then (((s.ovlPut (s.par mb 0 4) []).logAdd mb 2 w.arg).dirty).done mb
  else if w.opc = 0x0606 then
    let t := (s.put H.SS_HASH (s.get H.SS_NEWH mb)).put H.SS_SALT (s.get H.SS_NEWS mb)
    ((t.put R.CFG_STATUS_NO_PASSWORD 0).logAdd mb 3 0).done mb
  else
    let d := fun (o : Nat) => (State.reset).safWord o
    let n := safChanged s (s.safWith d)
    let t := ((s.safNewSet d).ovlNoSafety.put H.SS_HASH 0).put H.SS_SALT 0
    let t : State := { t with baseW := t.baseW.map fun p => if bits p.1 28 4 = 5 then (p.1, d (bits p.1 0 16)) else p }
    let t := ((t.put R.CFG_STATUS_NO_PASSWORD 1).logAdd mb 4 n)
    t.done mb (toBytes 4 (t.get R.CFG_LOG_SEQ))

end Sys2Proof.Machine
end

