-- ==== Sys2Proof/Machine/HostAccess.lean ====
section
/-! DEFINITION. Accesses of the host: which register a word is (R255, R256, R261), what a read returns and does, what a
write does (R10, R11, R14, R28, R251, R253), and the mailboxes' doorbells and acknowledges (R264 to R270). -/

namespace Sys2Proof.Machine

/-! ### Regions -/

/-- The fields of the BAR0 region that holds a byte address (R256). -/
def bar0Fields (a : Nat) : List Fld :=
  match a / 0x10000 with
  | 0 => R.hifFields
  | 1 => R.mbxFields
  | 4 => R.schFields
  | 5 => R.nrtFields
  | 6 => R.dckFields
  | 7 => R.cnjFields
  | 8 => R.cmpFields
  | 9 => R.cmpFields
  | 10 => R.drvFields
  | 11 => R.ptgFields
  | 12 => R.fioFields
  | 13 => R.safFields
  | 14 => R.intFields
  | 15 => R.telFields
  | 16 => R.pwrFields
  | 17 => R.secFields
  | 18 => R.cfgFields
  | _ => []

/-- The domain code of a BAR2 window: mirror and statistics STORE, traces MGMT (R444), process image NET (R271). -/
def bar2Dom (o : Nat) : Nat :=
  if o < 0x18000 then 5 else if 0x100000 ≤ o ∧ o < 0x200000 then 2 else if 0x200000 ≤ o ∧ o < 0x208000 then 4 else 1

/-- The mailbox whose control set or page holds a BAR0 address. -/
def mbOf (a : Nat) : Option Nat :=
  if 0x10000 ≤ a ∧ a < 0x10800 then some ((a - 0x10000) / 0x40)
  else if 0x20000 ≤ a ∧ a < 0x40000 then some ((a - 0x20000) / 0x1000)
  else none

/-- An interface owns a mailbox (R251). -/
def State.owns (s : State) (i : Ifc) (n : Nat) : Bool :=
  match i with
  | .qspi => s.qspiOwns n
  | _ => s.pcieOwns n

/-! ### Views -/

/-- HIF_STATUS with the fields that other blocks hold: ERR, SEC and PWR (R257, R455, R464, R477). -/
def State.statusView (s : State) : State :=
  ((s.put R.HIF_STATUS_ERR (s.get R.INT_SUM_ERR)).put R.HIF_STATUS_SEC (s.get R.SEC_STATE_STATE)).put R.HIF_STATUS_PWR
    (s.get R.PWR_STATE_STATE)

/-- The lockout seconds that remain (R301). -/
def State.lockView (s : State) : State :=
  if s.get R.CFG_SAF_LOCK = 0 then s
  else s.put R.CFG_SAF_LOCK (max 1 ((s.get H.SS_LKT - s.now + 999999999) / 1000000000))

/-- CFG_MODE.PENDING: the mode whose staging is complete (R288, R301). -/
def State.pendView (s : State) : State :=
  s.put R.CFG_MODE_PENDING (if s.get H.MSW_B ≠ 0 ∧ s.get H.MSW_T ≤ s.now then s.get H.MSW_B - 1 else 0xF)

/-- SCH_RDY: the ready lists that are not empty (R163). An instance behind an earlier one of its descriptor is in none
(R144). -/
def State.rdyView (s : State) : Nat :=
  (List.range 8).foldl (fun m p => m + b2n (s.insts.any fun x => x.st == 0 && x.prio == p &&
    !(s.insts.any fun y => y.desc == x.desc && decide (y.id < x.id))) * 2 ^ p) 0

/-- The address at which a mailbox page stands as its host sees it: while a journal entry is executed in the mailbox, where it has
been put away (R266, R421). -/
def State.pageSeen (s : State) (a : Nat) : Nat :=
  if s.on H.MB_JRN ((a - 0x20000) / 0x1000) then a - 0x20000 + jrnPage 0 else a

/-- STATUS of the mailboxes as their hosts see it (R266, R421). -/
def State.jrnView (s : State) : State :=
  s.each (List.range 32) fun s n => s.when (s.on H.MB_JRN n) fun s => s.put R.MBX_STAT_STATUS (s.get H.JS_STAT n) n

/-- The field I/O registers that show what the field die reports: after a reset of MGMT as after reset, until a return has come (R13,
R256, R372). -/
def State.fioShown (s : State) : State :=
  s.when (s.on H.FIO_BLANK) fun s =>
    let s := s.each (List.range 4) fun s g =>
      s.each [R.FIO_GRP_STAT_WARN, R.FIO_GRP_STAT_UV, R.FIO_GRP_STAT_RECOV, R.FIO_GRP_STAT_OC] fun s f => s.resetFld f g
    s.each (List.range 32) fun s c =>
      s.each [R.FIO_CSTAT_WB, R.FIO_CSTAT_OVL, R.FIO_CSTAT_TSD, R.FIO_CSTAT_EXT, R.FIO_CSTAT_TPFAIL, R.FIO_CSTAT_UVOFF,
        R.FIO_CSTAT_SILOFF, R.FIO_CSTAT_CNT] fun s f => s.resetFld f c

/-- The word at a BAR0 address, as a read finds it, without its effects. -/
def State.bar0Word (s : State) (a : Nat) : Nat :=
  if 0x20000 ≤ a ∧ a < 0x40000 then s.load (s.pageSeen a) 4
  else if 0x10000 ≤ a ∧ a < 0x11000 then s.jrnView.word (bar0Fields a) a
  else if 0xC0000 ≤ a ∧ a < 0xD0000 then s.fioShown.word (bar0Fields a) a
  else if a = 0x20 then s.statusView.word R.hifFields a
  else if a = 0x40008 then s.rdyView
  else if a = 0x120000 then s.pendView.word R.cfgFields a
  else if a = 0x120064 then s.lockView.word R.cfgFields a
  else s.word (bar0Fields a) a

/-- The fields of the BAR2 window that holds an offset, if it is made of fields. -/
def bar2Fields (o : Nat) : List Fld :=
  if o < 0x10000 then R.mirFields else if o < 0x18000 then R.snpFields else []

/-- The word at a BAR2 offset (R61, R261 to R263, R271). -/
def State.bar2Word (s : State) (o : Nat) : Nat :=
  if o < 0x10000 then if s.axSt (o / 0x100) = 0 then 0 else s.word R.mirFields (0x40000000 + o)
  else if o < 0x18000 then s.word R.snpFields (0x40000000 + o)
  else if 0x108000 ≤ o ∧ o < 0x200000 then
    if s.on H.PG_USED ((o - 0x108000) / 0x1000) then s.load (0x40000000 + o) 4 else 0
  else if (0x100000 ≤ o ∧ o < 0x108000) ∨ (0x200000 ≤ o ∧ o < 0x208000) then s.load (0x40000000 + o) 4
  else 0

/-- A word is the low half of a 64-bit register (R10). -/
def isLow (fs : List Fld) (a : Nat) : Bool := fs.any fun f => decide (32 < f.lo + f.width) && (fldAt f a).isSome

/-- A word is the high half of a 64-bit register. -/
def isHigh (fs : List Fld) (a : Nat) : Bool := decide (4 ≤ a) && isLow fs (a - 4)

/-- The RC fields of a word are cleared by a read (R11). -/
def State.rcClear (s : State) (fs : List Fld) (a : Nat) : State :=
  s.each (fs.filter fun f => f.acc == .RC) fun s f =>
    match fldAt f a with
    | some (i, j) => s.put f 0 i j
    | none => s

/-- A word read with its effects: a low half latches the high half, a high half returns what was latched, RC fields clear
(R10, R11). `fs` are fields around key `k`, `lat` the latch, indexed by `o`, `v` the view. -/
def State.readHalf (s : State) (fs : List Fld) (k : Nat) (lat : Fld) (o : Nat) (v : Nat → Nat) : Nat × State :=
  if isHigh fs k ∧ bit (s.get lat (o - 4)) 32 then (s.get lat (o - 4) % 2 ^ 32, s)
  else
    let t := s.when (isLow fs k) fun s => s.put lat (2 ^ 32 + v (o + 4)) o
    (v o, t.rcClear fs k)

/-- Why an access to a word of BAR0 is not carried out: cause, domain and mailbox of its log entry (R28, R251, R258). -/
def State.barFault (s : State) (i : Ifc) (a : Nat) : Option (Nat × Nat × Nat) :=
  let d := bar0Dom a
  match mbOf a with
  | some n =>
    if !s.owns i n then some (3, 2, n) else if s.barDown d then some (s.downCause d, d, 0) else none
  | none => if s.barDown d then some (s.downCause d, d, 0) else none

/-- The same for a word of an interface's address space; unmapped QSPI addresses are no fault (R255). -/
def State.wordFault (s : State) (i : Ifc) (a : Nat) : Option (Nat × Nat × Nat) :=
  match i with
  | .bar2 => let d := bar2Dom (a % 0x4000000); if s.barDown d then some (s.downCause d, d, 0) else none
  | .qspi => if qspiMapped (a % 0x1000000) then s.barFault .qspi (a % 0x1000000) else none
  | .bar0 => s.barFault .bar0 (a % 0x1000000)

/-- One access has one entry in the host error log, of its first word that is not carried out (R28, R258). -/
def State.logAccess (s : State) (i : Ifc) (wr : Bool) (as : List Nat) : State :=
  match as.find? fun a => (s.wordFault i a).isSome with
  | some a =>
    let f := (s.wordFault i a).getD (0, 0, 0)
    s.errLog i wr f.1 f.2.1 f.2.2 a
  | none => s

/-- A read of an aligned word of BAR0 by an interface (R28, R251, R255). The low half of DCK_TIME latches DCK_FRAC with the high half
(R250). -/
def State.readBar0 (s : State) (i : Ifc) (a : Nat) : Nat × State :=
  if i == .qspi && !qspiMapped a then (0, s)
  else
    match s.barFault i a with
    | some f => (if f.1 = 3 then 0 else 0xFFFFFFFF, s)
    | none =>
      if a = 0x60008 ∧ bit (s.get H.LAT_HI a) 32 then (s.get H.LAT_HI a % 2 ^ 32, s)
      else
        let r := s.readHalf (bar0Fields a) a H.LAT_HI a s.bar0Word
        (r.1, r.2.when (a == 0x60000) fun t => t.put H.LAT_HI (2 ^ 32 + s.get R.DCK_FRAC) 0x60008)

/-- A read of an aligned word of BAR2. -/
def State.readBar2 (s : State) (o : Nat) : Nat × State :=
  if s.barDown (bar2Dom o) then (0xFFFFFFFF, s) else s.readHalf (bar2Fields o) (0x40000000 + o) H.LAT_HI2 o s.bar2Word

/-- A read of an aligned word through an interface, in the interface's address space. -/
def State.readWord (s : State) (i : Ifc) (a : Nat) : Nat × State :=
  match i with
  | .bar2 => s.readBar2 (a % 0x4000000)
  | _ => s.readBar0 i (a % 0x1000000)

/-- Words read in ascending order. -/
def State.readWords (s : State) (i : Ifc) : List Nat → List Nat × State
  | [] => ([], s)
  | a :: l =>
    let r := s.readWord i a
    let q := r.2.readWords i l
    (toBytes 4 r.1 ++ q.1, q.2)

/-- What a read returned is shown in `rdata`. -/
def State.shown (r : List Nat × State) : State := { r.2 with rdata := r.1 }

/-- A read of bytes through an interface; an interface that does not answer returns nothing (R253). -/
def State.readBytes (s : State) (i : Ifc) (a n : Nat) : State :=
  if !s.ifcUp i then { s with rdata := [] }
  else
    let w0 := a / 4
    let nw := (a + n + 3) / 4 - w0
    let as := (List.range nw).map fun k => if i == .qspi then 4 * (w0 + k) % 0x1000000 else 4 * (w0 + k)
    let r := (s.logAccess i false as).readWords i as
    State.shown ((r.1.drop (a % 4)).take n, r.2)

/-! ### Mailboxes -/

/-- The opcodes of R280 and R281. -/
def knownOp (opc : Nat) : Bool :=
  [0x0001, 0x0002, 0x0003, 0x0004, 0x0005, 0x0006, 0x0007, 0x0008].contains opc ||
    (decide (0x0100 ≤ opc) && decide (opc ≤ 0x0108)) || (decide (0x0200 ≤ opc) && decide (opc ≤ 0x0208)) ||
    (decide (0x0300 ≤ opc) && decide (opc ≤ 0x0302)) || (decide (0x0400 ≤ opc) && decide (opc ≤ 0x0407)) ||
    (decide (0x0500 ≤ opc) && decide (opc ≤ 0x0504)) || (decide (0x0600 ≤ opc) && decide (opc ≤ 0x060B)) ||
    (decide (0x0700 ≤ opc) && decide (opc ≤ 0x0704)) || (decide (0x0800 ≤ opc) && decide (opc ≤ 0x0802)) ||
    (decide (0x0900 ≤ opc) && decide (opc ≤ 0x0905)) || (decide (0x0A00 ≤ opc) && decide (opc ≤ 0x0A04)) ||
    (decide (0x0B00 ≤ opc) && decide (opc ≤ 0x0B03)) || (decide (0x0C00 ≤ opc) && decide (opc ≤ 0x0C08))

/-- An ignored doorbell, acknowledge or write (R258, R266). -/
def State.mbIgnored (s : State) (i : Ifc) (n cause a : Nat) : State :=
  (s.incSat R.MBX_CNT_IGN n).errLog i true cause 2 n a

/-- The result fields of a mailbox at 0 (R266). -/
def State.mbBlank (s : State) (n : Nat) : State :=
  let s := ((s.put R.MBX_RES_REASON 0 n).put R.MBX_RES_RLEN 0 n).put R.MBX_HANDLE 0 n
  let s := ((s.put R.MBX_ROP 0 n).put R.MBX_T_DONE 0 n).put R.MBX_STAT_DUP 0 n
  (s.put R.MBX_STAT_DUP_OP 0 n).put R.MBX_STAT_DUP_TRUNC 0 n

/-- A completion from the tag history (R268, R270). -/
def State.mbDup (s : State) (n : Nat) (r : TagRec) : State :=
  let s := s.setBytes (pageOf n) r.bytes
  let s := ((s.put R.MBX_RES_REASON r.reason n).put R.MBX_RES_RLEN (min 32 r.rlen) n).put R.MBX_HANDLE r.handle n
  let s := ((s.put R.MBX_ROP r.rop n).put R.MBX_T_DONE r.tDone n).put R.MBX_STAT_DUP 1 n
  let s := s.put R.MBX_STAT_DUP_OP (b2n (r.rop != s.get H.MB_OPC n)) n
  let s := s.put R.MBX_STAT_DUP_TRUNC (b2n (decide (32 < r.rlen))) n
  (s.put R.MBX_STAT_STATUS r.status n).mbxCause n

/-- The snapshot of the request, PENDING (R265, R266). In a pair the boundary of acceptance is one of the next four: when the standby
acknowledges the entry is not in this unit's state (R421). -/
def State.mbPend (s : State) (n : Nat) : State :=
  let s := (s.put H.MB_OPC (s.get R.MBX_REQ_OPCODE n) n).put H.MB_TAG (s.get R.MBX_REQ_TAG n) n
  let s := (s.put H.MB_LEN (s.get R.MBX_LEN n) n).put H.MB_ARG (s.get R.MBX_ARG n) n
  let s := (s.incWrap H.DB_SEQ).put H.MB_SEQ (s.get H.DB_SEQ) n
  let s := if s.journals (s.get H.MB_OPC n) then (s.put H.MB_ACC (s.get H.BND_N + 1 + s.free 2) n).useFree else s.put H.MB_ACC 0 n
  ((s.mbBlank n).put R.MBX_STAT_RTAG (s.get R.MBX_REQ_TAG n) n).put R.MBX_STAT_STATUS 1 n

/-- Doorbells are taken: the module is ready, or it waits in recovery on MB0 (R257, R476). -/
def State.takesDb (s : State) (n : Nat) : Bool := s.on R.HIF_STATUS_READY || (n == 0 && s.get R.PWR_STATE_BOOT == 2)

/-- The doorbell of a mailbox, rung through an address (R265, R266, R270, R275). A tag of the history returns the stored
completion; an opcode that does not exist fails. -/
def State.doorbell (s : State) (i : Ifc) (n a : Nat) : State :=
  if !s.takesDb n || s.get R.MBX_STAT_STATUS n != 0 || s.on H.MB_JRN n then s.mbIgnored i n 6 a
  else
    let s := s.mbPend n
    let tag := s.get H.MB_TAG n
    match s.tags.find? fun (r : TagRec) => r.mb == n && r.tag == tag && tag != 0 with
    | some r => s.mbDup n r
    | none => if knownOp (s.get H.MB_OPC n) then s else s.fail n 0x0001

/-- The doorbell as a write meets it: ownership, then the domain, then the mailbox (R28, R251). -/
def State.ringDb (s : State) (i : Ifc) (n a : Nat) : State :=
  if !s.owns i n then s.errLog i true 3 2 n a
  else if s.barDown 2 then s.errLog i true (s.downCause 2) 2 0 a
  else s.doorbell i n a

/-- The acknowledge of a mailbox (R266). -/
def State.mbAck (s : State) (i : Ifc) (n a : Nat) : State :=
  if s.on H.MB_JRN n then
    if s.get H.JS_STAT n = 2 ∨ s.get H.JS_STAT n = 3 then (s.mbBlank n).put H.JS_STAT 0 n else s.mbIgnored i n 8 a
  else if s.get R.MBX_STAT_STATUS n = 2 ∨ s.get R.MBX_STAT_STATUS n = 3 then (s.mbBlank n).put R.MBX_STAT_STATUS 0 n
  else s.mbIgnored i n 8 a

/-- A long-operation slot with a final status is freed, which changes its status (R259); a sweep's trace pages with it (R263,
R272). -/
def State.lopAck (s : State) (k : Nat) : State :=
  let st := s.get R.LOP_ID_STATUS k
  if s.get R.LOP_ID_HANDLE k = 0 ∨ (st ≠ 2 ∧ st ≠ 3 ∧ st ≠ 5) then s
  else
    let c := s.get R.LOP_OBJ_INDEX k
    let s := s.when (s.get R.LOP_OBJ_OPCODE k == 0x0208 && s.get H.SW_PAGE c != 0 && !s.on H.SW_ON c &&
        s.get H.SW_HDL c == s.get R.LOP_ID_HANDLE k) fun s =>
      (s.pageMark (s.get H.SW_PAGE c - 1) (s.get H.SW_NPG c) 0).put H.SW_PAGE 0 c
    let s := ((s.put R.LOP_ID_HANDLE 0 k).put R.LOP_ID_STATUS 0 k).put R.LOP_OBJ_OPCODE 0 k
    let s := ((s.put R.LOP_OBJ_INDEX 0 k).put R.LOP_PROG_REASON 0 k).put R.LOP_PROG_PERMILLE 0 k
    ((s.put R.LOP_T_START 0 k).put R.LOP_T_END 0 k).cause 0

/-- A write of a word of a mailbox's control set (R264 to R266). -/
def State.mbWrite (s : State) (i : Ifc) (n a v : Nat) : State :=
  let o := a % 0x40
  if o = 0x0C then if v % 2 = 1 then s.doorbell i n a else s
  else if o = 0x10 then if v % 2 = 1 then s.mbAck i n a else s
  else if 0x0C < o then s
  else if s.get R.MBX_STAT_STATUS n ≠ 0 then s.mbIgnored i n 4 a
  else if o = 0 then (s.put R.MBX_REQ_OPCODE v n).put R.MBX_REQ_TAG (v / 2 ^ 16) n
  else if o = 4 then s.put R.MBX_LEN (min 4096 (v % 2 ^ 13)) n
  else s.put R.MBX_ARG v n

/-- Bytes written into a mailbox's page: read-only from the doorbell to the acknowledge (R265, R266). -/
def State.pageWrite (s : State) (i : Ifc) (n a : Nat) (bs : List Nat) : State :=
  if s.get R.MBX_STAT_STATUS n ≠ 0 then s.mbIgnored i n 4 a else s.setBytes a bs

/-! ### Writes -/

/-- Interrupt bits rise with their enables: messages are sent, a mailbox's only where PCIe owns it (R260). -/
def State.sendRise (s : State) (stat0 en0 mbx : Nat) (isMbx : Bool) : State :=
  s.each (List.range 32) fun s k =>
    let was := bit stat0 k && bit en0 k
    let is_ := if isMbx then bit (s.get R.HIF_INT_MBX_STAT) k && bit (s.get R.HIF_INT_MBX_EN) k && s.pcieOwns k
      else bit (s.get R.HIF_INT_STAT) k && bit (s.get R.HIF_INT_EN) k
    s.when (is_ && (!was || bit mbx k)) fun s => s.sendMsix (if isMbx then k else 32 + k)

/-- The W1C fields of a word take a write, with bits that hardware sets in the same cycle, which win (R11). -/
def State.w1cFields (s : State) (fs : List Fld) (a v hw : Nat) : State :=
  s.each (fs.filter fun f => f.acc == .W1C) fun s f =>
    match fldAt f a with
    | some (i, j) =>
      let m := 2 ^ f.width - 1
      s.put f (andNot (s.get f i j) (v / 2 ^ f.lo &&& m) ||| (hw / 2 ^ f.lo &&& m)) i j
    | none => s

/-- What follows from W1C fields of a word that changed: messages, causes, and the error summary (R259, R260, R412, R455). -/
def State.w1cAfter (t s : State) (a v hw : Nat) : State :=
  let new := andNot (t.word (bar0Fields a) a &&& hw) (s.word (bar0Fields a) a) != 0
  if a = 0x30 then t.sendRise (s.get R.HIF_INT_STAT) (s.get R.HIF_INT_EN) (v &&& hw) false
  else if a = 0x38 then t.sendRise (s.get R.HIF_INT_MBX_STAT) (s.get R.HIF_INT_MBX_EN) (v &&& hw) true
  else if 0x60 ≤ a ∧ a < 0x80 then t.when new fun t => t.cause 6
  else if a / 0x10000 = 5 then t.when new fun t => t.cause 7
  else if a = 0xD000C then t.when new fun t => t.cause 11
  else if 0xE0400 ≤ a ∧ a < 0xE0600 then
    let c := (a - 0xE0400) / 0x10
    (if t.on R.INT_DET_STICKY c then t.when (t.get H.DET_DOMS c == 0) fun t =>
        t.orBit H.DET_DOMS (detDomain c (t.get R.INT_DET_INST c)) c
      else t.put H.DET_DOMS 0 c).sumUp
  else t

/-- A write to W1C fields of a word (R11, R260). -/
def State.w1cWrite (s : State) (a v hw : Nat) : State := (s.w1cFields (bar0Fields a) a v hw).w1cAfter s a v hw

/-- A vector unmasked while its message is pending sends it (R260). -/
def State.msixUnmask (s : State) (v : Nat) : State :=
  if !s.on R.HIF_MSIX_MASK v && bit (s.get R.HIF_MSIX_PBA) v then (s.clearBit R.HIF_MSIX_PBA v).sendMsix v else s

/-- A write to the RW fields of HIF: a high half is staged, a low half commits it (R10, R257, R260). -/
def State.hifWrite (s : State) (a v : Nat) : State :=
  let fs := rwFields R.hifFields
  if isHigh fs a then s.put H.STG_HI (2 ^ 32 + v) (a - 4)
  else
    let g := s.get H.STG_HI a
    let t := s.putWord fs a v
    let t := t.when (isLow fs a && bit g 32) fun t => (t.putWord fs (a + 4) g).put H.STG_HI 0 a
    if a = 0x34 then t.sendRise (s.get R.HIF_INT_STAT) (s.get R.HIF_INT_EN) 0 false
    else if a = 0x3C then t.sendRise (s.get R.HIF_INT_MBX_STAT) (s.get R.HIF_INT_MBX_EN) 0 true
    else if a = 0x40 then t.put H.TICK_CNT 0
    else if 0x8000 ≤ a ∧ a < 0x8400 then t.msixUnmask ((a - 0x8000) / 16)
    else t

/-- A write to SCH_TRC_CTL (R162). -/
def State.trcWrite (s : State) (v : Nat) : State :=
  let s := s.when (bit v 2) fun s => s.put R.SCH_STATUS_TRC_FROZEN 0
  let s := s.when (bit v 0) fun s => s.trcFreezeW
  s.when (bit v 1) fun s => s.put R.SCH_TRC_CTL_ARM 1

/-- A write of 1 to the WO bits of a compare or capture unit (R203). -/
def State.cmpWrite (s : State) (a v : Nat) : State :=
  if v % 2 = 0 then s
  else
    match fldAt R.CMP_ARM a, fldAt R.CMP_DISARM a, fldAt R.CMP_CAP_ARM a, fldAt R.CMP_CAP_NEXT a with
    | some (u, _), _, _, _ => s.cmpArmW u
    | _, some (u, _), _, _ => s.cmpDisarmW u
    | _, _, some (c, _), _ => s.capArmW c
    | _, _, _, some (c, _) => s.capNextW c
    | _, _, _, _ => s

/-- A word written to a BAR0 register outside the mailboxes (R11, R256): RO fields, reserved bits and reserved addresses
take nothing (R14). -/
def State.regWrite (s : State) (i : Ifc) (a v : Nat) : State :=
  if a = 0x44 then s.each (bitsOn 32 v) fun s n => s.ringDb i n 0x44
  else
    let s := s.w1cWrite a v 0
    if a < 0x10000 then s.hifWrite a v
    else if 0x11000 ≤ a ∧ a < 0x11400 then if a % 0x20 = 0x0C ∧ v % 2 = 1 then s.lopAck ((a - 0x11000) / 0x20) else s
    else if a = 0x40048 then s.trcWrite v
    else if 0x80000 ≤ a ∧ a < 0xA0000 then s.cmpWrite a v
    else if a = 0xC0020 then s.fioOutW v true
    else if a = 0xC0024 then s.fioOutW v false
    else s

/-- A word written to BAR0 by an interface (R28, R251, R255). -/
def State.writeBar0 (s : State) (i : Ifc) (a v : Nat) : State :=
  let d := bar0Dom a
  if i == .qspi && !qspiMapped a then s
  else
    match mbOf a with
    | some n =>
      if !s.owns i n then s.errLog i true 3 2 n a
      else if s.barDown d then s.errLog i true (s.downCause d) d 0 a
      else if a < 0x20000 then s.mbWrite i n a v
      else s.pageWrite i n a (toBytes 4 v)
    | none => if s.barDown d then s.errLog i true (s.downCause d) d 0 a else s.regWrite i a v

/-- Bytes written to a mailbox's page from BAR0: any size (R253). -/
def State.writePage (s : State) (i : Ifc) (n a : Nat) (bs : List Nat) : State :=
  if !s.owns i n then s.errLog i true 3 2 n a
  else if s.barDown 2 then s.errLog i true (s.downCause 2) 2 0 a
  else s.pageWrite i n a (bs.take (0x1000 - a % 0x1000))

/-- Words of bytes written upward; what is left of less than a word is discarded, over PCIe with a log entry of cause SIZE
(R253, R254). -/
def State.writeWords (s : State) (i : Ifc) (a : Nat) : List Nat → State
  | b0 :: b1 :: b2 :: b3 :: t =>
    (s.writeBar0 i (a % 0x1000000) (ofBytes [b0, b1, b2, b3])).writeWords i (a + 4) t
  | [] => s
  | _ => if i == .qspi || bar0Reserved (a % 0x1000000) then s else s.errLog i true 7 (bar0Dom a) 0 a

/-- A write over BAR0 (R253): pages take any size, register ranges whole words. A write that is not carried out is one log entry. -/
def State.writeB0 (s : State) (a : Nat) (bs : List Nat) : State :=
  if (s.barFault .bar0 a).isSome then s.logAccess .bar0 true [a]
  else if 0x20000 ≤ a ∧ a < 0x40000 then s.writePage .bar0 ((a - 0x20000) / 0x1000) a bs
  else if a % 4 ≠ 0 then (if bar0Reserved a then s else s.errLog .bar0 true 7 (bar0Dom a) 0 a)
  else s.writeWords .bar0 a bs

/-- A write over BAR2 (R261): the process-image output takes any size, other windows are read-only. -/
def State.writeB2 (s : State) (o : Nat) (bs : List Nat) : State :=
  let d := bar2Dom o
  if 0x200000 ≤ o ∧ o < 0x204000 then
    if s.barDown d then s.errLog .bar2 true (s.downCause d) d 0 o
    else s.setBytes (0x40000000 + o) (bs.take (0x204000 - o))
  else if d = 1 then s
  else s.errLog .bar2 true (if s.barDown d then s.downCause d else 5) d 0 o

/-- A write of bytes through an interface. -/
def State.writeBytes (s : State) (i : Ifc) (a : Nat) (bs : List Nat) : State :=
  if !s.ifcUp i || bs.isEmpty then s
  else
    match i with
    | .bar0 => s.writeB0 (a % 0x1000000) (bs.map (· % 256))
    | .bar2 => s.writeB2 (a % 0x4000000) (bs.map (· % 256))
    | .qspi => s.writeWords .qspi (a / 4 * 4) (bs.map (· % 256))

/-- A 64-bit PCIe write to an aligned address: both halves at once, nothing stays staged (R10). -/
def State.write64 (s : State) (i : Ifc) (a v : Nat) : State :=
  if !s.ifcUp i then s
  else
    match i with
    | .bar2 => s.writeB2 (a % 0x4000000) (toBytes 8 v)
    | _ =>
      let b := a % 0x1000000
      if (s.barFault i b).isSome || (decide (0x20000 ≤ b) && decide (b < 0x40000)) then s.writeB0 b (toBytes 8 v)
      else if isLow (rwFields R.hifFields) b && decide (b < 0x10000) then
        (s.put H.STG_HI (2 ^ 32 + v / 2 ^ 32 % 2 ^ 32) b).writeBar0 i b (v % 2 ^ 32)
      else (s.writeBar0 i b (v % 2 ^ 32)).writeBar0 i (b + 4) (v / 2 ^ 32 % 2 ^ 32)

end Sys2Proof.Machine
end

