-- ==== Sys2Proof/Machine/IntegrityOps.lean ====
section
/-! DEFINITION. Injections as they act (R457, R458, R459), the scrubbers (R444, R447, R448), and telemetry (R452, R453). -/

namespace Sys2Proof.Machine

/-! ### Injections -/

/-- The size of an array in bytes (R444). -/
def arrSize (a : Nat) : Nat :=
  [0xC0000, 0xC0000, 0xC0000, 0xC0000, 0x400000, 0x8000, 0x10000, 0x200000, 0x100000, 0x40000].getD a 0

/-- The bytes of a word of an array: 32 or 64 data bits under one SECDED code (R444). -/
def arrWord (a : Nat) : Nat := if a = 4 ∨ a = 5 ∨ a = 7 ∨ a = 8 then 8 else 4

/-- Bits of the word at an offset of an array flip; they add to those flipped already (R459). -/
def State.errAdd (s : State) (arr off n : Nat) : State :=
  let o := off / arrWord arr * arrWord arr
  let b := s.errBits arr o + n
  { s.errFix arr o with arrErrs := (s.errFix arr o).arrErrs ++ [{ arr := arr, off := o, bits := b }] }

/-- The number of instances of a detector (R458); 0 where it has none. -/
def injInsts (det : Nat) : Nat :=
  match det with
  | 0x01 => 10 | 0x02 => 10 | 0x03 => 16 | 0x04 => 256 | 0x05 => 16 | 0x06 => 16 | 0x07 => 2 | 0x0A => 6
  | 0x0B => 4 | 0x0C => 64 | 0x0D => 32 | 0x0E => 4 | 0x0F => 4 | 0x10 => 4 | 0x12 => 32 | 0x13 => 8 | 0x14 => 8
  | 0x15 => 8 | 0x16 => 8 | 0x17 => 6 | 0x18 => 6 | 0x19 => 10 | 0x1B => 6 | 0x1C => 10 | 0x1D => 48 | 0x1F => 32
  | _ => 0

/-- The named instance does not exist or is not configured, or the address lies outside the array (R459). -/
def State.injAbsent (s : State) (x : InjSlot) : Bool :=
  match x.det with
  | 0x01 => decide (arrSize x.inst ≤ x.arg1)
  | 0x02 => decide (arrSize x.inst ≤ x.arg1)
  | 0x04 => s.axSt x.inst == 0
  | 0x0B => !s.on R.NRT_RCFG_EN (x.inst / 2)
  | 0x0C => !s.on R.SAF_CONN_CFG_EN x.inst
  | 0x13 => s.get R.DRV_CFG_MODE x.inst == 0
  | 0x14 => s.get R.DRV_CFG_MODE x.inst == 0
  | 0x15 => s.get R.DRV_CFG_MODE x.inst == 0
  | 0x16 => s.get R.DRV_CFG_MODE x.inst == 0
  | _ => false

/-- A code that needs an open safety session (R457): always, or where it reaches the safe channels of a CX7420-SX. -/
def State.injSafety (s : State) (det inst : Nat) : Bool :=
  [0x07, 0x08, 0x0C, 0x0E, 0x0F].contains det ||
    (s.isSX && (det == 0x11 || (det == 0x10 && decide (2 ≤ inst)) || ((det == 0x0D || det == 0x12) && decide (16 ≤ inst))))

/-- A detector that only a CX7420-SX has (R457). -/
def injSxOnly (det inst : Nat) : Bool := det == 0x0C || det == 0x0E || det == 0x0F || (det == 0x07 && inst == 1)

/-- Injection is accepted in the security states Open and Service (R457). -/
def State.injOpen (s : State) : Bool := s.get R.SEC_STATE_STATE == 1 || s.get R.SEC_STATE_STATE == 3

/-- A slot that is not armed: free or done (R460). -/
def State.injFree (s : State) : Option Nat :=
  (List.range 8).find? fun k => s.get R.INT_INJ_STAT_STATE k == 0 || s.get R.INT_INJ_STAT_STATE k == 3

/-- Why an injection is not armed, 0 if it is (R457, R459, R460). -/
def State.injRefuse (s : State) (mb : Nat) (x : InjSlot) : Nat :=
  let n := injInsts x.det
  if x.det = 0 ∨ 0x1F < x.det ∨ (n ≠ 0 ∧ n ≤ x.inst) ∨ (x.det = 0x1B ∧ x.inst = 0) then 0x0003
  else if !s.injOpen then 0x0007
  else if !s.isSX && injSxOnly x.det x.inst then 0x0006
  else if s.injAbsent x then 0x0B01
  else if s.injSafety x.det x.inst && !s.sessionOk mb then 0x0008
  else if s.injs.any fun (y : InjSlot) => y.det == x.det && y.inst == x.inst then 0x0B02
  else if s.injFree.isNone then 0x0B00
  else 0

/-- The injection that a request asks for (R460). -/
def State.injPars (s : State) (mb : Nat) : InjSlot :=
  let det := s.par mb 0 4
  { slot := s.injFree.getD 0, det := det, inst := if injInsts det = 0 then 0 else s.par mb 4 4,
    count := clampN 1 255 (s.par mb 8 4), interval := min 65535 (s.par mb 12 4), start := s.par mb 16 8,
    arg0 := s.par mb 24 4, arg1 := s.par mb 28 4, arg2 := s.par mb 32 4 }

/-- The MC0/MC1 comparator finds a difference: MGMT is reset; an active unit in a pair gives up (R429, R458, R472). The
reset precedes the report in INT, which the reset clears. -/
def State.lockstepFail (s : State) (inj : Bool) : State :=
  let s := (s.ownFault.mgmtReset.orBit R.PWR_RSTCAUSE 4).report 0x09 0 0xFFFF 0
  if inj then
    { (s.put R.INT_DET_INJ 1 0x09) with evlog := match s.evlog with | e :: t => { e with inj := true } :: t | [] => [] }
  else s

/-- The injected condition of one occurrence (R458). -/
def State.injApply (s : State) (x : InjSlot) : State :=
  let i := x.inst
  match x.det with
  | 0x01 => s.errAdd i x.arg1 1
  | 0x02 => if x.arg0 % (8 * arrWord i) = x.arg2 % (8 * arrWord i) then s else s.errAdd i x.arg1 2
  | 0x03 => s.put H.ENG_INJR (2 ^ 16 + x.arg0 % 2 ^ 16) i
  | 0x04 => s.put H.ENG_INJG 1 i
  | 0x05 => s.put H.ENG_INJW (2 ^ 16 + x.arg0 % 2 ^ 16) i
  | 0x06 => s.put H.ENG_INJT 1 i
  | 0x07 => s.put H.INJ_SC (1 + i)
  | 0x08 => s.put H.INJ_WD 1
  | 0x09 => s.lockstepFail true
  | 0x0A => (s.put H.CLK_INJ (s.now + 1000 * x.arg0 + 1) i).clkLoss i
  | 0x0B => if x.arg0 = 0 then s.put H.INJ_FCS x.arg1 i else s.put H.INJ_CODE (x.arg2 + 1) i
  | 0x0C => s.put H.INJ_CN x.arg0 i
  | 0x0D => s.put H.INJ_RBT x.arg0 i
  | 0x0E => (s.put H.INJ_SO x.arg0 i).put H.INJ_SOS x.arg1 i
  | 0x0F => s.put H.INJ_PMS x.arg0 i
  | 0x10 => (s.put H.INJ_VFG x.arg0 i).put H.INJ_VFT x.arg1 i
  | 0x11 => (s.put H.INJ_REFT (s.now + 1000000 * x.arg0)).put H.INJ_REFN x.arg1
  | 0x12 => s.put H.INJ_WBT x.arg0 i
  | 0x13 => (s.put H.INJ_GFU (s.now + 100 * x.arg0) i).gateFault i
  | 0x14 => (s.put H.INJ_OVA x.arg0 i).put H.INJ_OVN x.arg1 i
  | 0x15 => s.put H.INJ_CHS (10 * x.arg0) i
  | 0x16 => s.put H.INJ_ELL x.arg0 i
  | 0x17 => (s.put H.INJ_TT x.arg0 i).put H.INJ_TU (s.now + 1000000 * x.arg1) i
  | 0x18 => (s.put H.INJ_RT x.arg0 i).put H.INJ_RU (s.now + 1000000 * x.arg1) i
  | 0x19 => ((s.put H.INJ_EH x.arg0 i).put H.INJ_EV x.arg1 i).put H.INJ_EU (s.now + 1000000 * x.arg2) i
  | 0x1A => s.put H.INJ_DIG (x.arg0 + 1)
  | 0x1B => s.orBit H.INJ_DIAG i
  | 0x1C => s.put H.INJ_SCU (s.now + 1000000 * x.arg0) i
  | 0x1D => s.put H.INJ_CAL (2 ^ 32 + x.arg0) i
  | 0x1E => s.put H.INJ_PG (x.arg0 + 1)
  | 0x1F => s.put H.INJ_TRIM 1 i
  | _ => s

/-- Detectors whose injections count when they take hold and not when they are set up (R458). -/
def injCountsLater (det : Nat) : Bool := [0x03, 0x04, 0x05, 0x06, 0x08, 0x1E].contains det

/-- One occurrence of an armed injection at cycle `n`: the slot runs, a waiting INJ_ARM is DONE, the condition acts, and
the next occurrence lies INTERVAL cycles on (R457, R460). -/
def State.injOnce (s : State) (x : InjSlot) (n : Nat) : State :=
  let s : State := { s with injs := s.injs.map fun (y : InjSlot) =>
    if y.slot = x.slot then { y with count := y.count - 1, start := n + y.interval } else y }
  let s := s.put R.INT_INJ_STAT_STATE 2 x.slot
  let s := s.when (!injCountsLater x.det) fun s => s.put R.INT_INJ_FIRED (s.get R.INT_INJ_FIRED x.slot + 1) x.slot
  (s.doneAll 0x0B00 x.slot (toBytes 4 x.slot)).injApply x

/-- The next occurrence due at cycle `n`, lowest slot first. -/
def State.injDue (s : State) (n : Nat) : Option InjSlot :=
  (List.range 8).findSome? fun k => s.injs.find? fun (x : InjSlot) => x.slot == k && x.count != 0 && decide (x.start ≤ n)

/-- The occurrences due at cycle `n`, at most as many as the count. -/
def State.injRun (n : Nat) : Nat → State → State
  | 0, s => s
  | k + 1, s =>
    match s.injDue n with
    | none => s
    | some x => State.injRun n k (s.injOnce x n)

/-- Slots are disarmed, requests that still wait for their arming answered (R457, R460). -/
def State.injDisarm (s : State) (p : Nat → Bool) : State :=
  (s.disarm p).each ((List.range 8).filter p) fun s k => s.doneAll 0x0B00 k (toBytes 4 k)

/-- A slot whose last occurrence has ended is done (R462). -/
def State.injDone (s : State) : State :=
  let l := s.injs.filter fun (x : InjSlot) => x.count == 0 && !s.injHeld x
  let s := s.each l fun s x => s.put R.INT_INJ_STAT_STATE 3 x.slot
  { s with injs := s.injs.filter fun (x : InjSlot) => !(l.any fun y => y.slot == x.slot) }

/-- Injection at boundary `n` (R457, R460). -/
def State.injBoundary (s : State) (n : Nat) : State :=
  let s := if s.injOpen then s else s.injDisarm fun _ => true
  let s := s.each ((List.range 8) ++ [0xFFFF]) fun s k =>
    if (s.waiting 0x0B01 k).isEmpty then s
    else (s.injDisarm fun j => j == k || k == 0xFFFF).doneAll 0x0B01 k
  let s := s.each (List.range 6) fun s k =>
    s.when (s.get H.CLK_INJ k != 0 && decide (s.get H.CLK_INJ k ≤ s.now)) fun s => s.clkBack k
  State.injRun n 2048 s.injDone

/-! ### Clocks -/

/-- The domains that a clock drives (R26): 0 REFCLK25 all that PLL-A, PLL-B and PLL-S drive, 1 PLL-A NET, STORE, the engines
and HOST where no PCIe link is configured, 2 PLL-B MGMT and DRV, 3 PLL-S SAFE, 5 PLL-P HOST with a PCIe link. PLL-N serves the
lanes alone. -/
def State.clkDoms (s : State) (k : Nat) : Nat :=
  let host := if s.attach = 1 then 2 else 0
  match k with
  | 0 => 0x7FC ||| host
  | 1 => 0x3F0 ||| host
  | 2 => 0x404
  | 3 => 8
  | 5 => if s.attach = 1 then 0 else 2
  | _ => 0

/-- A clock is lost, its loss not an injection that only shows it (R454, R458). -/
def State.clkStopped (s : State) (k : Nat) : Bool := bit (s.get H.CLK_LOST) k && s.get H.CLK_INJ k == 0

/-- The domains held in reset because a clock of theirs is lost (R471). -/
def State.clkHeldDoms (s : State) : Nat :=
  (List.range 6).foldl (fun m k => if s.clkStopped k then m ||| s.clkDoms k else m) 0

/-- A clock is lost: its domains are held in reset while it is (R454, R471). -/
def State.clkStop (s : State) (k : Nat) : State :=
  let s := (s.clkLoss k).put H.CLK_INJ 0 k
  s.put R.PWR_DOM_RST (s.get R.PWR_DOM_RST ||| s.clkDoms k)

/-- A clock returns: the powered domains it drives leave reset, but for those that another lost clock drives and for SAFE in
recovery (R471, R476). -/
def State.clkStart (s : State) (k : Nat) : State :=
  let s := s.clkBack k
  let rec' := if s.get R.PWR_STATE_BOOT = 2 then 8 else 0
  let m := andNot (s.clkDoms k &&& s.get R.PWR_DOM_ON) (s.clkHeldDoms ||| rec')
  s.put R.PWR_DOM_RST (andNot (s.get R.PWR_DOM_RST) m)

/-- The domains that a clock drives are reset when it returns (R471): 0 REFCLK25 drives all, 1 PLL-A NET, STORE and the
engines, 2 PLL-B MGMT and DRV, 3 PLL-S SAFE. HOST, NET's links and PCIe come back by R418, R244 and R253. -/
def State.clkResets (s : State) (k : Nat) : State :=
  let pllA := fun (s : State) => (s.netReset.storeReset).each (List.range 4) fun s q => s.engReset q
  let pllB := fun (s : State) => s.mgmtReset.drvReset
  match k with
  | 0 => (pllB (pllA s)).safeReset.hostReset
  | 1 => let s := pllA s
         s.when (s.attach == 1) fun s => s.hostReset
  | 2 => pllB s
  | 3 => s.safeReset
  | _ => s

/-! ### Scrubbing -/

/-- A double-bit error that a scrubber finds in an engine memory (R448): a record slot is invalidated; elsewhere the engine
leaves service for its self-test. -/
def State.engDouble (s : State) (q off : Nat) : State :=
  let e := 4 * q + off / 0x30000
  let m := off % 0x30000 / 0x10000
  let s := s.errDouble q off
  let s := match s.slotAt e m (off % 0x10000) with
    | some (r, _) => ((s.slotOf e r).elim s fun k => s.slotDrop e k).affClear r
    | none => ((s.engStop e).engTest e).progReload e
  s.errFix q off

/-- A double-bit error beyond the records of the axis store (R448): a learning table is cleared or a segment queue
flushed. Which of them lies there, the spec does not say: a free value. -/
def State.queueDouble (s : State) (off : Nat) : State :=
  let v := s.free 16
  let s := ((s.useFree.errDouble 4 off).put H.QUAR_2 1).errFix 4 off
  if v % 2 = 0 then s.lffClear (v / 2 % 64)
  else
    let a := v / 2 % 256
    if (s.segsOf a).isEmpty then s else (s.flushSegs a 5).quickStop a s.now

/-- A double-bit error that a scrubber finds (R448). -/
def State.scrubDouble (s : State) (arr off : Nat) : State :=
  if arr < 4 then s.engDouble arr off
  else if arr = 4 then
    let a := off / 0x1000
    if 256 ≤ a then s.queueDouble off
    else if (List.range 16).any fun e => (s.slotOf e (a + 1)).isSome then
      ((s.errDouble 4 off).put H.QUAR_2 1).errFix 4 off
    else s.storeDouble off
  else
    let s := (s.errDouble arr off).errFix arr off
    if arr = 5 then
      let d := off / 0x20
      if s.get R.SCH_DESC_TYPE d = 8 then (s.put R.SCH_DESC_EN 0 d).loadUpdate else s.put H.DESC_RWT (s.now + 20000) d
    else if arr = 6 then
      let v := s.free 10
      let s := s.useFree.put H.QUAR_2 1
      if v % 2 = 0 then s.put H.CM_BAD 1 (v / 2) else s.put H.FB_BAD 1 (v / 2)
    else if arr = 7 then s.mgmtReset.orBit R.PWR_RSTCAUSE 4
    else if arr = 8 then s.zeroRange (0x40100000 + off) (0x40100008 + off)
    else s.scFault 2

/-- A scrubber reads one word (R446, R448). -/
def State.scrubWord (s : State) (arr off : Nat) : State :=
  let b := s.errBits arr off
  if b = 0 then s else if b = 1 then s.errSingle arr off else s.scrubDouble arr off

/-- The pass of a scrubber has taken longer than 0.8 s: reported once a pass (R447). -/
def State.scrubLate (s : State) (arr : Nat) : State :=
  if s.now ≤ s.get H.SCR_T0 arr + 800000000 ∨ s.on H.SCR_RP arr then s
  else ((s.put H.SCR_RP 1 arr).put R.INT_ARR_STAT_LATE 1 arr).report 0x1C arr 0xFFFF 0

/-- A scrubber takes its next word; in an ENG quad, one word in each of the four engines (R444, R447). -/
def State.scrubStep (s : State) (arr : Nat) : State :=
  let s := s.scrubLate arr
  if s.now < s.get H.INJ_SCU arr then s
  else
    let pos := s.get R.INT_ARR_POS arr
    let next := pos + arrWord arr
    let top := if arr < 4 then 0x30000 else arrSize arr
    let s := s.put R.INT_ARR_POS (if next < top then next else 0) arr
    let s := s.when (decide (top ≤ next)) fun s =>
      ((s.incWrap R.INT_ARR_PASSES arr).put H.SCR_T0 s.now arr).put H.SCR_RP 0 arr
    if arr < 4 then s.each (List.range 4) fun s k => s.scrubWord arr (0x30000 * k + pos) else s.scrubWord arr pos

/-! ### Telemetry -/

/-- The nominal voltage of a rail, mV (R452). -/
def railNom (r : Nat) : Int := [5000, 800, 1000, 1800, 3300, 800].getD r 0

/-- A value is taken as a 16-bit signed word. -/
def tel16 (v : Nat) : Int := sext 16 v

/-- A warning with a margin of return: it stands where the reading is out, goes where it is back inside, and arises once,
with its flag and one event-log entry (R452). -/
def State.telWarn (s : State) (have_ flag : Fld) (det i : Nat) (out back : Bool) (info : Nat) : State :=
  let was := bit (s.get have_) i
  if out && !was then ((s.orBit have_ i).put flag 1).report det i 0xFFFF info
  else if was && back then s.clearBit have_ i
  else s

/-- A temperature (R452). -/
def State.telTemp (s : State) (t v : Nat) : State :=
  let x := clampI (-32768) 32767 (tel16 v + (if s.now < s.get H.INJ_TU t then 16 * s.geti H.INJ_TT t else 0))
  let w : Int := 16 * s.get R.TEL_CFG_TWARN
  (s.puti R.TEL_TEMP x t).telWarn H.TEL_WT R.TEL_FLAGS_TEMP_WARN 0x17 t (decide (w ≤ x)) (decide (x ≤ w - 32)) (trunc 16 x)

/-- A rail (R452). -/
def State.telRail (s : State) (r v : Nat) : State :=
  let x := clampI 0 65535 ((v : Int) + (if s.now < s.get H.INJ_RU r then s.geti H.INJ_RT r else 0))
  let n := railNom r
  (s.puti R.TEL_RAIL x r).telWarn H.TEL_WR R.TEL_FLAGS_RAIL 0x18 r (decide (100 * x < 95 * n) || decide (105 * n < 100 * x))
    (decide (96 * n ≤ 100 * x) && decide (100 * x ≤ 104 * n)) (trunc 16 x)

/-- The eye of a lane (R452). -/
def State.telEye (s : State) (l h v : Nat) : State :=
  let inj := decide (s.now < s.get H.INJ_EU l)
  let h := if inj then s.get H.INJ_EH l % 2 ^ 16 else h % 2 ^ 16
  let v := if inj then s.get H.INJ_EV l % 2 ^ 16 else v % 2 ^ 16
  let th := s.get R.TEL_CFG_EYE_H
  let tv := s.get R.TEL_CFG_EYE_V
  ((s.put R.TEL_EYE_H h l).put R.TEL_EYE_V v l).telWarn H.TEL_WE R.TEL_FLAGS_EYE 0x19 l
    (decide (h < th) || decide (v < tv)) (decide (11 * th ≤ 10 * h) && decide (11 * tv ≤ 10 * v)) (h + 65536 * v)

/-- A critical temperature: Full Stop by the host's path, held until every sensor reads below TWARN (R453). -/
def State.telCrit (s : State) : State :=
  let temp := fun (t : Nat) => s.geti R.TEL_TEMP t
  if s.on H.TEL_CRIT then
    if (List.range 6).all fun t => decide (temp t < 16 * (s.get R.TEL_CFG_TWARN : Int)) then
      (s.put H.TEL_CRIT 0).clearBit H.FS_HOLD 1
    else s
  else if (List.range 5).any fun t => decide ((2000 : Int) ≤ temp t) then
    (((s.put H.TEL_CRIT 1).put R.TEL_FLAGS_TEMP_CRIT 1).orBit H.FS_HOLD 1).fsEnter 1
  else s

/-- Thresholds that TEL_CONFIG brought take effect (R460). -/
def State.telConfigs (s : State) : State :=
  s.each (s.waiting 0x0B03 0) fun s mb =>
    let s := (s.put R.TEL_CFG_TWARN (clampN 60 120 (s.par mb 0 4))).put R.TEL_CFG_EYE_H (min 65535 (s.par mb 4 4))
    (s.put R.TEL_CFG_EYE_V (min 65535 (s.par mb 8 4))).done mb

/-- A measurement (R452, R453). -/
def State.telMeasure (s : State) (temps rails eyeH eyeV : List Nat) : State :=
  let s := s.telConfigs
  let s := s.each (List.range 6) fun s t => s.telTemp t (temps.getD t 0)
  let s := s.each (List.range 6) fun s r => s.telRail r (rails.getD r 0 % 2 ^ 16)
  let s := s.each (List.range 10) fun s l => s.telEye l (eyeH.getD l 0) (eyeV.getD l 0)
  let s := s.each (List.range 4) fun s g => s.put R.TEL_VFG (s.get R.FIO_GRP_V g) g
  s.telCrit

/-- A correction of a converter, held at its limit (R450). -/
def State.convCal (s : State) (ch : Nat) (ofs gain : Int) : State :=
  let inj : Int := if bit (s.get H.INJ_CAL ch) 32 then sext 32 (s.get H.INJ_CAL ch) else 0
  let o := clampI (-64) 64 (ofs + inj)
  let g := clampI (-20000) 20000 gain
  let s := ((s.put H.INJ_CAL 0 ch).puti H.CV_OFS o ch).puti H.CV_GAIN g ch
  s.when (o != ofs + inj || g != gain || o == 64 || o == -64 || g == 20000 || g == -20000) fun s =>
    (s.put R.TEL_FLAGS_ADC_CAL 1).report 0x1D ch 0xFFFF (trunc 64 o)

end Sys2Proof.Machine
end

