-- ==== Sys2Proof/Machine/PowerOps.lean ====
section
/-! DEFINITION. Power states and boot (R464 to R476). -/

namespace Sys2Proof.Machine

/-! ### Power domains -/

/-- The domains of a mask are powered and out of reset. -/
def State.domsUp (s : State) (m : Nat) : State :=
  (s.put R.PWR_DOM_ON (s.get R.PWR_DOM_ON ||| m)).put R.PWR_DOM_RST (andNot (s.get R.PWR_DOM_RST) m)

/-- The domains of a mask are off, and held in reset. -/
def State.domsOff (s : State) (m : Nat) : State :=
  (s.put R.PWR_DOM_ON (andNot (s.get R.PWR_DOM_ON) m)).put R.PWR_DOM_RST (s.get R.PWR_DOM_RST ||| m)

/-- ENG0 to ENG3 and DRV, as domain codes number them (R258). -/
def standbyDoms : Nat := 0x7C0

/-- Run, or Idle while IDLE_EN is 1 (R465). -/
def State.runState (s : State) : State := s.put R.PWR_STATE_STATE (s.get R.PWR_CFG_IDLE_EN)

/-! ### Standby (R466, R467) -/

/-- Why Standby and Hibernate are refused; 0 where they are not (R466). -/
def State.standbyBar (s : State) : Nat :=
  if !(s.axes.all fun a => s.axSt a == 1 || s.axSt a == 2 || s.axSt a == 7) ||
      s.lopBusy 0x0404 || s.lopBusy 0x0208 || s.lopBusy 0x0702 then 0x0C00
  else if s.get R.CNJ_STATE_ROLE ≠ 0 ∧ s.get R.CNJ_STATE_ROLE ≠ 4 then 0x0C01
  else 0

/-- The engines and DRV are powered off: program and data memories are lost, gates and pins are low, local axes lose
their port (R107, R303, R466). -/
def State.standbyOff (s : State) : State :=
  let s := (List.range 4).foldl (fun s q => State.engReset s q) s
  let s := s.each (List.range 16) fun s e => (s.setEngSt e 3).put R.SCH_STATUS_ENG_INSVC 0
  let s := ((s.zeroRange (engMem 0 0) (engMem 16 0)).drvReset).domsOff standbyDoms
  s.each (s.axes.filter fun a => (s.ptOf a).isSome) fun s a => s.post a .nodeLost

/-- Standby is entered in steps: releases stop, instances under way complete, then power goes off and the request is DONE
(R466). -/
def State.standbyStep (s : State) : State :=
  let s := s.when (s.get H.PWR_STBY == 1) fun s => s.put H.PWR_STBY 2
  if s.get H.PWR_STBY = 2 ∧ s.insts.isEmpty then
    let s := ((s.standbyOff.put R.PWR_STATE_STATE 2).put R.PWR_STATE_PENDING 3).put H.PWR_STBY 0
    s.loadUpdate.doneAll 0x0C00 2
  else s

/-- Standby is left: engines reloaded, self-tested and offered to the scheduler, DRV running, the request DONE (R467). The
ports' offset calibrations follow (R316); pulse-train ports need none. -/
def State.standbyExit (s : State) : State :=
  let s := (List.range 4).foldl (fun s q => State.engReset s q) (s.domsUp standbyDoms)
  let s := ((s.drvReset.runState).put R.PWR_STATE_PENDING 3).put H.PWR_STBY 0
  let s := s.each (s.axes.filter fun a => (s.ptOf a).isSome) fun s a => s.post a .nodeOnline
  s.doneAll 0x0C00 0

/-! ### Hibernate (R468, R469) -/

/-- A commit, a firmware update or a flash scrub runs (R468). -/
def State.flashBusy (s : State) : Bool := s.lopBusy 0x0601 || s.lopBusy 0x0602 || s.lopBusy 0x0603

/-- Hibernate: outputs off, bypasses closed, the request DONE, then all but AON is powered off; debug level Off, a token
of kind 1 void (R468, R483). AON, the security state and the fuse shadow stay. -/
def State.hibernate (s : State) (mb tmr : Nat) : State :=
  let s := s.done mb
  let t := s.flashKept.keepRange s 0x100000 0x120000
  let t := (t.put R.SEC_STATE_OBS_TOKEN 0).keepList s [H.DEV_OK, H.DBG_INS]
  let t := ((t.put R.SEC_DBG_REQ 0).put R.SEC_DBG_LEVEL 0).put R.SEC_DBG_HALTED 0
  let t := ((t.put R.PWR_STATE_STATE 0).put R.PWR_STATE_PENDING 3).put R.PWR_STATE_BOOT 0
  let t := ((t.put R.PWR_DOM_ON 1).put R.PWR_DOM_RST 0xFFE).put R.PWR_CLK_LOCK 0
  let t := (t.put R.PWR_WAKE_CAUSE 0).put R.PWR_WAKE_TMR tmr
  (t.keepList s [R.HIF_STATUS_BOOT_CNT]).orBit H.PWR_HOLD 3

/-- A wake source ends Hibernate: Service does not survive, the challenge is drawn anew, the boot may run (R469, R477,
R479). -/
def State.wakeFrom (s : State) (cause : Nat) : State :=
  let sec := s.get R.SEC_STATE_STATE
  let s := ((s.clearBit H.PWR_HOLD 3).put R.PWR_WAKE_CAUSE cause).put R.PWR_WAKE_TMR 0
  let s := (s.put R.SEC_STATE_STATE (if sec = 3 then 2 else sec)).put R.SEC_STATE_ZEROISED 0
  ((s.put H.DEV_OK 1).newChal).romStart

/-! ### Boot (R475, R476) -/

/-- All domains are powered and clocked (R471, R475). -/
def State.bootPower (s : State) : State :=
  let s := (s.domsUp 0xFFF).put R.PWR_CLK_LOCK (if s.attach = 1 then 0x0F else 0x1F)
  s.put R.PWR_CLK_REF 1

/-- The program memories are loaded, the engines tested and in service (R475, R135). -/
def State.bootEngines (s : State) : State :=
  (s.each (List.range 16) fun s e => (((s.progReload e).setEngSt e 0).orBit R.SCH_STATUS_ENG_INSVC e).put H.ENG_SVP 0xF100 e).loadUpdate

/-- Firmware runs: SC, the configuration image, the engines, READY, the configured rings, and in a pair what a unit reset
by its partner does (R241, R292, R438, R475). -/
def State.bootFirmware (s : State) (us : Nat) : State :=
  let s := s.put R.HIF_STATUS_BOOT_CNT (s.get R.HIF_STATUS_BOOT_CNT + 1)
  let s := (s.scStart.bootImage.ovlFromStore.bootEngines).runState
  let s := (s.put R.HIF_STATUS_READY 1).put R.PWR_BOOT_T us |>.flView
  let s := s.each (List.range 2) fun s r => s.when (s.on R.NRT_RCFG_EN r) fun s => s.ringStart r
  s.when (s.on H.RST_CJ) fun s => (s.put H.RST_CJ 0).gaveUp

/-- The boot: with no slot that passes its check the boot ROM stays in recovery, SC in reset (R476). -/
def State.bootRun (s : State) (us : Nat) : State :=
  let s := s.bootPower.fwPick
  if s.get R.PWR_STATE_BOOT = 2 then s.put R.PWR_DOM_RST 8 else s.bootFirmware us

/-- Nothing holds the module in reset or off, and it has not booted. -/
def State.bootMay (s : State) : Bool :=
  s.get H.PWR_HOLD == 0 && !s.on R.HIF_STATUS_READY && s.get R.PWR_STATE_BOOT != 2

/-! ### Resets of the module -/

/-- The reset by the partner's command keeps what the unit needs to rejoin (R438, R472). -/
def State.partnerReset (s : State) : State :=
  (((s.warmReset 2).keepList s [R.CNJ_CFG_EN, R.CNJ_CFG_PREF, R.CNJ_CFG_AUTO_REJOIN, R.CNJ_CFG_AUTO_TB,
    R.CNJ_PARTNER_CID]).put H.RST_CJ 1).romStart

/-- Why a scope of PWR_RESET is refused; 0 where it is not (R474). -/
def State.scopeBar (s : State) (mb scope : Nat) : Nat :=
  if scope = 2 then
    if s.get R.SAF_STATUS_STATE < 2 then 0x0C02
    else if s.isSX && !s.sessionOk mb then 0x0008 else 0
  else if scope = 3 then
    if s.axes.all fun a => s.isNirte a || decide (s.axSt a ≤ 2) then 0 else 0x0C00
  else 0

/-- A scope of PWR_RESET is reset, and the request answered where it is (R474). A quad or DRV that is off stays off. -/
def State.scopeReset (s : State) (mb scope : Nat) : State :=
  match scope with
  | 0 => s.warmReset 5
  | 1 => s.mgmtReset.orBit R.PWR_RSTCAUSE 5
  | 2 => ((s.safetyUse mb).safeReset.orBit R.PWR_RSTCAUSE 5).done mb
  | 3 => ((s.when (!s.domDown 10) fun s => s.drvReset).orBit R.PWR_RSTCAUSE 5).done mb
  | _ =>
    let q := scope - 4
    ((s.when (!s.domDown (6 + q)) fun s => s.engReset q).orBit R.PWR_RSTCAUSE 5).done mb

end Sys2Proof.Machine
end

