-- ==== Sys2Proof/Machine/SecurityOps.lean ====
section
/-! DEFINITION. Security states, tokens, debug levels and what a debug level does (R477 to R484). -/

namespace Sys2Proof.Machine

/-! ### Debug levels (R482 to R484) -/

/-- The module is in Hibernate. -/
def State.inHibernate (s : State) : Bool := bit (s.get H.PWR_HOLD) 3

/-- AON is powered and out of reset: the TAP answers (R481, R483). -/
def State.tapUp (s : State) : Bool := !bit (s.get H.PWR_HOLD) 0 && !bit (s.get H.PWR_HOLD) 2

/-- The matrix refuses a level outright: code X (R483). -/
def State.dbgRefused (s : State) (lvl : Nat) : Bool :=
  s.inHibernate && (lvl == 2 || (lvl == 1 && s.get R.SEC_STATE_STATE == 2))

/-- The level granted for a level requested: the requested one, or the highest that the matrix and the token in force allow
(R482, R483). Full after a Service token waits for STO (R478). -/
def State.dbgGrant (s : State) (lvl : Nat) : Nat :=
  if s.dbgRefused lvl then 0
  else
    let top := if s.get R.SEC_STATE_STATE = 2 then s.get R.SEC_STATE_OBS_TOKEN
      else if s.on H.DBG_SP then 1 else 2
    min lvl top

/-- A level or a halt is refused and counted (R483, R484). -/
def State.dbgRefuse (s : State) : State := s.incSat R.SEC_CNT_DBGREF

/-- The level falls from Full: halted cores resume, waiting halts and instructions are dropped (R484). -/
def State.dbgFall (s : State) : State :=
  let s := s.each (List.range 16) fun s e => s.when (s.on H.ENG_HALT e) fun s =>
    let s := s.put H.ENG_HALT 0 e
    s.when (s.engPowered e && !s.on H.ENG_OWN e) fun s => s.engBack e
  (((s.put H.MC_HALT 0).put H.SC_HALT 0).put H.DBG_WANT 0).haltShow

/-- The level granted is set. -/
def State.dbgSet (s : State) (lvl : Nat) : State :=
  let fell := s.get R.SEC_DBG_LEVEL == 2 && decide (lvl < 2)
  (s.put R.SEC_DBG_LEVEL lvl).when fell fun s => s.dbgFall

/-- The level granted follows the request, the security state and the token. -/
def State.dbgUp (s : State) : State := s.dbgSet (s.dbgGrant (s.get R.SEC_DBG_REQ))

/-- A level is requested through DBG_ACCESS (R482, R483). -/
def State.dbgAsk (s : State) (lvl : Nat) : State :=
  let lvl := min lvl 2
  let s := s.when (s.dbgRefused lvl) fun s => s.dbgRefuse
  (s.put R.SEC_DBG_REQ lvl).dbgUp

/-- The debug level is Off. -/
def State.dbgOff (s : State) : State := (s.put R.SEC_DBG_REQ 0).dbgSet 0

/-- The unit is in a pair, where halts and pin instructions are refused (R484). -/
def State.dbgPaired (s : State) : Bool := 1 ≤ s.get R.CNJ_STATE_ROLE && s.get R.CNJ_STATE_ROLE ≤ 3

/-- A core may be halted: 0 to 15 the engines, 16 MC0/MC1, 17 SC, this one in Service only (R482 to R484). -/
def State.haltMay (s : State) (c : Nat) : Bool :=
  s.get R.SEC_DBG_LEVEL == 2 && !s.dbgPaired &&
    (if c < 16 then s.engPowered c else if c = 16 then !s.domDown 2
     else c == 17 && !s.domDown 3 && s.get R.SEC_STATE_STATE == 3)

/-- What waits for STO takes effect: halts of MC0/MC1 and SC, and a pin instruction (R484). -/
def State.wantNow (s : State) : State :=
  let w := s.get H.DBG_WANT
  let s := s.when (bit w 16) fun s => s.put H.MC_HALT 1
  let s := s.when (bit w 17) fun s => s.put H.SC_HALT 1
  let s := s.when (bit w 18) fun s => s.put R.SEC_DBG_EXTEST 1
  (s.put H.DBG_WANT 0).haltShow

/-- Full Stop with STO in force on every stop group (R387). -/
def State.stoAll (s : State) : Bool := s.inFullStop && s.on H.FS_STO

/-- Once STO is in force everywhere, what waits for it happens; Full debug after a Service token is granted (R478, R484). -/
def State.dbgSto (s : State) : State :=
  if !s.stoAll then s
  else
    let s := s.when (s.get H.DBG_WANT != 0) fun s => s.wantNow
    s.when (s.on H.DBG_SP) fun s => (s.put H.DBG_SP 0).dbgUp

/-- Full Stop with cause security comes first (R484). -/
def State.dbgStop (s : State) (k : Nat) : State :=
  (((s.orBit H.FS_HOLD 5).fsEnter 5).orBit H.DBG_WANT k).dbgSto

/-- A core halts (R484). An engine leaves service at once, and its clause is lost; a self-test in progress is still to end
(R135). -/
def State.haltCore (s : State) (c : Nat) : State :=
  if !s.haltMay c then s.dbgRefuse
  else if c < 16 then
    let s := s.when (s.engSt c == 2) fun s => s.put H.ENG_TST 1 c
    ((((s.engStop c).setEngSt c 3).setService c false).put H.ENG_HALT 1 c).haltShow
  else s.dbgStop c

/-- One instruction of a halted engine is executed, and the engine stays halted; a self-test that an exception brings is still to
end (R135). -/
def State.stepEngine (s : State) (e : Nat) : State :=
  let s := ((s.put H.ENG_HALT 0 e).setEngSt e 1).engFetch e
  let s := s.when (s.engSt e == 2) fun s => s.put H.ENG_TST 1 e
  (s.put H.ENG_HALT 1 e).setEngSt e 3

/-- EXTEST (1), CLAMP (2) or HIGHZ (3): at level Full, outside a pair, after Full Stop with STO in force (R482, R484). -/
def State.pinInstr (s : State) (k : Nat) : State :=
  if s.get R.SEC_DBG_LEVEL ≠ 2 ∨ s.dbgPaired then s.dbgRefuse
  else (s.put H.DBG_INS k).dbgStop 18

/-! ### Security states (R477 to R480) -/

/-- The security state changes: the safety session ends, an event-log entry of KIND 4 is written (R478). -/
def State.secChange (s : State) (st : Nat) : State :=
  ((s.put R.SEC_STATE_STATE st).sessionEnd.evAdd 4 0 0 0xFFFF 0 false st).dbgUp

/-- Sealed → Service (R478, R480): Full Stop with cause security, the device key zeroised, full debug once STO is in
force. -/
def State.serviceEnter (s : State) : State :=
  let s := (s.put H.SVC_P 0).secChange 3
  let s := (s.put R.SEC_STATE_ZEROISED 1).put H.DEV_OK 0
  ((s.put H.DBG_SP 1).dbgUp.fsEnter 5).dbgSto

/-- A verified Service token takes effect at a boundary (R485). -/
def State.securityBoundary (s : State) : State :=
  let s := s.when (s.on H.SVC_P) fun s => s.serviceEnter
  (s.dbgSto).doneAll 0x0C05 0 (toBytes 4 (s.get R.SEC_STATE_STATE))

/-- The challenge, byte 12 of a token first (R479, R489). -/
def State.chal (s : State) : List Nat := (List.range 4).flatMap fun k => toBytes 4 (s.get R.SEC_CHAL 0 k)

/-- Why a token is refused; 0 where it is not: the challenge first, then its other conditions, then the state it is accepted
in (R479). -/
def State.tokenBar (s : State) (t : List Nat) : Nat :=
  let slot := ofBytes ((t.drop 28).take 4)
  let kind := ofBytes (t.take 2)
  if (t.drop 12).take 16 ≠ s.chal then 0x0C04
  else if ofBytes ((t.drop 4).take 8) ≠ s.get R.HIF_SERIAL ∨ slot = 0 ∨ 3 < slot ∨ !bit (s.get R.SEC_KEYS_PROG) slot ∨
      bit (s.get R.SEC_KEYS_REVOKED) slot ∨ !Config.tokenSigned (t.take 96) (s.get H.KEY_HASH slot) ∨ kind = 0 ∨ 2 < kind
    then 0x0C03
  else if s.get R.SEC_STATE_STATE ≠ 2 then 0x0007
  else 0

/-- A token is submitted: it is verified against the challenge that stands, which is then drawn anew (R479). The answer's
second part is the reason of a refusal. -/
def State.tokenTake (s : State) (t : List Nat) : State × Nat :=
  let r := s.tokenBar t
  let s := s.newChal
  if r ≠ 0 then (s.incSat R.SEC_CNT_TOKFAIL, r)
  else if ofBytes (t.take 2) = 1 then ((s.put R.SEC_STATE_OBS_TOKEN 1).dbgUp, 0)
  else (s.put H.SVC_P 1, 0)

/-! ### Debug access (R482) -/

/-- The domain code of a debug address space; an address of BAR0 or BAR2 lies in its block's. -/
def spDom (sp : DbgSpace) (a : Nat) : Nat :=
  match sp with
  | .bar0 => bar0Dom a
  | .bar2 => bar2Dom a
  | .engX e => 6 + e / 4 % 4
  | .engY e => 6 + e / 4 % 4
  | .engP e => 6 + e / 4 % 4
  | .axisStore => 5
  | .mgmt => 2
  | .trace => 2
  | .safe => 3

/-- The domain of a debug access is off or in reset; HOST's own too. -/
def State.spDown (s : State) (sp : DbgSpace) (a : Nat) : Bool := spDom sp a != 0 && s.domDown (spDom sp a)

/-- A read of a space is granted: Observe for all but SAFE memory, and in Hibernate only PWR and SEC (R482, R483). -/
def State.dbgReads (s : State) (sp : DbgSpace) (a : Nat) : Bool :=
  let lvl := s.get R.SEC_DBG_LEVEL
  if s.inHibernate then !s.dbgRefused (s.get R.SEC_DBG_REQ) && sp == .bar0 && decide (0x100000 ≤ a) && decide (a < 0x120000)
  else if sp == .safe then lvl == 2 else decide (1 ≤ lvl)

/-- The word at a debug address. What the firmware keeps in management and SAFE memory the spec does not lay out: a free
value. -/
def State.dbgWord (s : State) (sp : DbgSpace) (a : Nat) : Nat :=
  match sp with
  | .bar0 => s.bar0Word a
  | .bar2 => s.bar2Word a
  | .engX e => s.load (engMem (e % 16) 0 + a % 0x10000) 4
  | .engY e => s.load (engMem (e % 16) 1 + a % 0x10000) 4
  | .engP e => s.load (engMem (e % 16) 2 + a % 0x10000) 4
  | .axisStore => s.storeWord (a % 0x400000)
  | .mgmt => s.free 32
  | .trace => s.load (0x40100000 + a % 0x100000) 4
  | .safe => s.free 32

/-- A debug read: RC fields are not cleared; a domain that is off answers as R28 (R482, R483). -/
def State.dbgRead (s : State) (sp : DbgSpace) (a : Nat) : State :=
  let a := a / 4 * 4
  if !s.dbgReads sp a then { s with rdata := [] }
  else if s.spDown sp a then { s with rdata := [0xFF, 0xFF, 0xFF, 0xFF] }
  else
    let t := if sp == .mgmt || sp == .safe then s.useFree else s
    { t with rdata := toBytes 4 (s.dbgWord sp a) }

/-- A word written to a register or window by debug, as a write of the host reaches it. -/
def State.dbgWriteBar (s : State) (sp : DbgSpace) (a v : Nat) : State :=
  if sp == .bar0 then
    match mbOf a with
    | some n => if a < 0x20000 then s.mbWrite .bar0 n a v else s.store a 4 v
    | none => s.regWrite .bar0 a v
  else if 0x200000 ≤ a ∧ a < 0x204000 then s.store (0x40000000 + a) 4 v
  else s

/-- A word of an engine memory written by debug, with the check bits of the word (R105). -/
def State.engStore (s : State) (e m a v : Nat) : State :=
  (s.errFix (engArr e m (a % 0x10000)).1 (engArr e m (a % 0x10000)).2).store (engMem e m + a % 0x10000) 4 v

/-- A debug write at level Full. Program memory takes it only while its engine is halted, and then no longer holds the common
image; SAFE memory only in Service. Writes to what the firmware keeps in management and SAFE memory show nowhere in the
registers (R107, R482). -/
def State.dbgWrite (s : State) (sp : DbgSpace) (a v : Nat) : State :=
  let a := a / 4 * 4
  if s.get R.SEC_DBG_LEVEL ≠ 2 then s.dbgRefuse
  else if s.spDown sp a then s
  else
    match sp with
    | .engX e => s.engStore (e % 16) 0 a v
    | .engY e => s.engStore (e % 16) 1 a v
    | .engP e => if s.on H.ENG_HALT (e % 16) then (s.engStore (e % 16) 2 a v).put H.ENG_OWN 1 (e % 16) else s.dbgRefuse
    | .axisStore => s.putStoreWord (a % 0x400000) v
    | .trace => (s.errWrote 8 (a % 0x100000) 4).store (0x40100000 + a % 0x100000) 4 v
    | .mgmt => s
    | .safe => if s.get R.SEC_STATE_STATE = 3 then s else s.dbgRefuse
    | _ => s.dbgWriteBar sp a v

end Sys2Proof.Machine
end

