-- ==== Sys2Proof/Machine/Security.lean ====
section
/-! DEFINITION. Commands of the security and debug families (R477 to R486). -/

namespace Sys2Proof.Machine

/-! ### Requests -/

/-- SEC_PROVISION: the hashes are fused and read back; whether a read-back differs is the fuses', a free value (R478). -/
def execSecProvision (mb : Nat) (s : State) : Out :=
  .next (s.request mb 0x0C03 100 fun s =>
    let mask := s.par mb 0 4 &&& 0xE
    if s.get R.SEC_STATE_STATE ≠ 0 ∨ mask = 0 then s.fail mb 0x0007
    else
      let bad := s.free 1 == 1
      let s := s.useFree
      if bad then s.fail mb 0x0C08
      else
        let s := s.each [1, 2, 3] fun s k =>
          s.when (bit mask k) fun s => s.put H.KEY_HASH (s.par mb (4 + 32 * (k - 1)) 32) k
        ((s.put R.SEC_KEYS_PROG (s.get R.SEC_KEYS_PROG ||| mask)).secChange 1).done mb)

/-- SEC_SEAL: debug Off, injection slots disarmed (R478). -/
def execSecSeal (mb : Nat) (s : State) : Out :=
  .next (s.request mb 0x0C04 4 fun s =>
    if s.get R.SEC_STATE_STATE ≠ 1 then s.fail mb 0x0007
    else if s.par mb 0 4 ≠ s.get R.HIF_SERIAL % 2 ^ 32 then s.fail mb 0x0C06
    else ((s.secChange 2).dbgOff.injDisarm fun _ => true).done mb)

/-- SEC_TOKEN (R479): a Service token's request completes at the boundary at which Service is entered. -/
def execSecToken (mb : Nat) (s : State) : Out :=
  .next (s.request mb 0x0C05 96 fun s =>
    let r := s.tokenTake (s.bytes (pageOf mb) 96)
    if r.2 ≠ 0 then r.1.fail mb r.2
    else if r.1.on H.SVC_P then r.1.wait mb 0x0C05 0
    else r.1.done mb (toBytes 4 (r.1.get R.SEC_STATE_STATE)))

/-- SEC_REVOKE: an integrator slot, but not the last valid one (R486). -/
def execSecRevoke (mb : Nat) (s : State) : Out :=
  .next (s.request mb 0x0C06 4 fun s =>
    let k := s.par mb 0 4
    let valid := fun (j : Nat) => bit (s.get R.SEC_KEYS_PROG) j && !bit (s.get R.SEC_KEYS_REVOKED) j
    if k = 0 ∨ 3 < k then s.fail mb 0x0003
    else if s.get R.SEC_STATE_STATE ≠ 1 ∧ s.get R.SEC_STATE_STATE ≠ 3 then s.fail mb 0x0007
    else if (!([1, 2, 3].any fun j => j != k && valid j)) = true then s.fail mb 0x0C05
    else (s.orBit R.SEC_KEYS_REVOKED k).done mb)

/-- SEC_PW_CLEAR, in Service: the change waits for the safety store (R297, R298). -/
def execSecPwClear (mb : Nat) (s : State) : Out :=
  .next (s.request mb 0x0C07 0 fun s =>
    if !s.isSX then s.fail mb 0x0006
    else if s.get R.SEC_STATE_STATE ≠ 3 then s.fail mb 0x0007
    else s.changeWait mb 0x0C07)

/-- SEC_ATTEST: identity and state, signed by the device key over the nonce and the result (R480, R486). -/
def execSecAttest (mb : Nat) (s : State) : Out :=
  .next (s.request mb 0x0C08 16 fun s =>
    if !s.on H.DEV_OK then s.fail mb 0x0C07
    else
      let res := toBytes 8 (s.get R.HIF_SERIAL) ++ toBytes 4 (s.get R.SEC_STATE_STATE) ++ toBytes 4 (s.get R.HIF_FW_VER) ++
        toBytes 4 (s.get R.CFG_SAF_CRC)
      s.done mb (res ++ toBytes 64 (Config.deviceSign (s.bytes (pageOf mb) 16 ++ res))))

/-! ### The TAP (R481) -/

/-- TAP_BYPASS: the one-bit bypass register, which captures 0. -/
def execTapBypass (s : State) : Out :=
  .next (if s.tapUp then { s.put H.TAP_IR 1 with rdata := [0] } else s)

/-- IDCODE. -/
def execIdcode (s : State) : Out :=
  .next (if s.tapUp then { s.put H.TAP_IR 0 with rdata := toBytes 4 (s.get R.SEC_IDCODE) } else s)

/-- SAMPLE_PRELOAD: the boundary chain takes the pins (R481). In Hibernate only BYPASS, IDCODE and reads of AON run (R483). -/
def execSamplePreload (pins : Nat) (s : State) : Out :=
  .next (if s.tapUp && !s.inHibernate then
      let t := (s.put H.TAP_IR 2).put H.PINS pins
      { t with rdata := toBytes 8 (t.get H.PINS) }
    else s)

/-- EXTEST (R484). -/
def execExtest (s : State) : Out :=
  .next (if s.tapUp && !s.inHibernate then (s.put H.TAP_IR 3).pinInstr 1 else s)

/-- CLAMP (R484). -/
def execClamp (s : State) : Out :=
  .next (if s.tapUp && !s.inHibernate then (s.put H.TAP_IR 4).pinInstr 2 else s)

/-- HIGHZ (R484). -/
def execHighz (s : State) : Out :=
  .next (if s.tapUp && !s.inHibernate then (s.put H.TAP_IR 5).pinInstr 3 else s)

/-- DBG_CHAL: the challenge is read (R481, R485). -/
def execDbgChal (s : State) : Out :=
  .next (if s.tapUp && !s.inHibernate then { s.put H.TAP_IR 6 with rdata := s.chal } else s)

/-- DBG_TOKEN: a token is submitted through the TAP (R479). -/
def execDbgToken (bytes : List Nat) (s : State) : Out :=
  .next (if s.tapUp && !s.inHibernate then
      ((s.put H.TAP_IR 7).tokenTake ((List.range 96).map fun k => bytes.getD k 0 % 256)).1
    else s)

/-- DBG_ACCESS_READ: a level is requested, and a word read where the level granted allows it (R482, R483). -/
def execDbgAccessRead (level : Nat) (sp : DbgSpace) (addr : Nat) (s : State) : Out :=
  .next (if s.tapUp then ((s.put H.TAP_IR 8).dbgAsk level).dbgRead sp addr else s)

/-- DBG_ACCESS_WRITE (R107, R482). -/
def execDbgAccessWrite (sp : DbgSpace) (addr v : Nat) (s : State) : Out :=
  .next (if s.tapUp then (s.put H.TAP_IR 8).dbgWrite sp addr (v % 2 ^ 32) else s)

/-- CORE_HALT: 0 to 15 an engine, 16 MC0/MC1, 17 SC (R484). -/
def execCoreHalt (core : Nat) (s : State) : Out := .next (if s.tapUp && decide (core < 18) then s.haltCore core else s)

/-- CORE_STEP: a halted core executes one instruction. What an instruction of MC0/MC1 or SC does the spec does not say: those
stay halted. -/
def execCoreStep (core : Nat) (s : State) : Out :=
  .next (
    if !s.tapUp || !s.on H.ENG_HALT core || !decide (core < 16) then s
    else if s.get R.SEC_DBG_LEVEL ≠ 2 then s.dbgRefuse
    else s.stepEngine core)

/-- BREAKPOINT_HIT: a core at a breakpoint halts as by command (R482, R484). -/
def execBreakpointHit (core : Nat) (s : State) : Out :=
  .next (if s.tapUp && decide (core < 18) && s.get R.SEC_DBG_LEVEL == 2 then s.haltCore core else s)

/-- TRST_N low: the TAP is reset and the debug level Off (R481). -/
def execTrstN (s : State) : Out := .next (if s.tapUp then (s.put H.TAP_IR 0).dbgOff else s)

end Sys2Proof.Machine
end

