-- ==== Sys2Proof/Machine/BoundaryOps.lean ====
section
/-! DEFINITION. What a cycle boundary does, action by action, in the order of R31. -/

namespace Sys2Proof.Machine

/-! ### The new cycle (R30, R163, R257) -/

/-- The boundary's number and time; cycles count toward the tick (R30, R259). -/
def State.newCycle (s : State) (t n : Nat) : State :=
  let s := s.clockTo t 0
  let s := ((s.put H.BND_N n).put H.BND_T t).put R.HIF_CYCLE n
  s.put H.TICK_CNT (min 65535 (s.get H.TICK_CNT + 1))

/-- SCH_LOAD: the engines' busy time in the base period that ends, per mille (R163). -/
def State.schLoad (s : State) : State :=
  let es := (List.range 16).filter fun e => bit (s.get R.SCH_STATUS_ENG_INSVC) e
  let l := es.map fun e => min 1000 (s.get H.ENG_BUSY e * 2000 / s.baseNs)
  let s := s.put R.SCH_LOAD_AVG (l.foldl (· + ·) 0 / max 1 l.length)
  let s := s.put R.SCH_LOAD_MAX (l.foldl max 0)
  s.each (List.range 16) fun s e => s.put H.ENG_BUSY 0 e

/-! ### Step 1: the rings -/

/-- A ring enters split mode, or goes back to a single launch (R244). -/
def State.splitStep (s : State) (r : Nat) : State :=
  let p := s.get H.SPLITP r
  let s := s.put H.SPLITP 0 r
  if p = 1 then
    (((s.put R.NRT_RSTATE_SPLIT 1 r).put H.SPL_CYC 0 r 0).put H.SPL_CYC 0 r 1).nrtFlag R.NRT_FLAGS_SPLIT_ENTERED r
  else if p = 2 then (s.put R.NRT_RSTATE_SPLIT 0 r).put H.PROBEP 2 r
  else s

/-- A launch makes holdover a cycle longer (R238). -/
def State.launchCount (s : State) (r : Nat) : State :=
  s.when (r == 0 && s.get R.DCK_STATE_STATE == 3) fun s => s.incSat H.DC_HOLDN

/-- The code error that an injection puts into a command half of the frame that port `p` launches (R458). -/
def State.wireCode (s : State) (p : Nat) : State := (s.put H.WIRE_CODE (s.get H.INJ_CODE p) p).put H.INJ_CODE 0 p

/-- The head of a ring launches the frame of cycle `n`: its header, its Commas (R31, R32, R212, R213, R222, R231, R232, R425). -/
def State.launch (s : State) (n r : Nat) : State :=
  let s := s.splitStep r
  if s.get R.NRT_RSTATE_STATE r = 4 ∧ s.on R.NRT_RSTATE_HEAD r ∧ !s.on H.RSTOP r then
    let s := (s.put R.NRT_CYCLE n r).put R.NRT_TOKEN_CID (s.get R.HIF_CID) r
    let s := (s.put R.NRT_TOKEN_EPOCH (s.get R.CNJ_EPOCH) r).put H.WIRE_INV (b2n (s.on H.INJ_FCS (2 * r))) r
    let s := s.put H.INJ_FCS (s.get H.INJ_FCS (2 * r) - 1) (2 * r)
    let s := s.each (if s.on R.NRT_RSTATE_SPLIT r then [2 * r, 2 * r + 1] else [2 * r]) fun s p => s.wireCode p
    ((s.setBytes (headImg r) (s.frameHead r n 1 false)).commaAll r).launchCount r
  else s

/-! ### Step 2: statistics (R57 to R63) -/

/-- The counters that are copied into a snapshot and summed in a ring record. -/
def statCounts : List (Fld × Fld) :=
  [(R.LIV_SAMPLES, R.SNP_SAMPLES), (R.LIV_OVERRUN, R.SNP_OVERRUN), (R.LIV_ELLIPSIS, R.SNP_ELLIPSIS),
   (R.LIV_MISS_FB, R.SNP_MISS_FB), (R.LIV_MISS_CMD, R.SNP_MISS_CMD), (R.LIV_CLAMP, R.SNP_CLAMP)]

/-- The live counters of an axis restart (R59). -/
def State.statRestart (s : State) (a : Nat) : State :=
  let s := s.each statCounts fun s p => s.put p.1 0 a
  (s.resetFld R.LIV_FE_MIN a).resetFld R.LIV_FE_MAX a

/-- A record is latched: SEQ and its copy advance, the boundary is noted (R59, R61, R62). -/
def State.statMark (s : State) (k t : Nat) : State :=
  let s := (s.incWrap R.SNP_SEQ k).put R.SNP_BOUNDARY t k
  s.put R.SNP_SEQ_END (s.get R.SNP_SEQ k) k

/-- The snapshot record of an axis (R59, R61). -/
def State.statAxis (s : State) (a t : Nat) : State :=
  let s := s.each statCounts fun s p => s.put p.2 (s.get p.1 a) a
  ((s.put R.SNP_FE_MIN (s.get R.LIV_FE_MIN a) a).put R.SNP_FE_MAX (s.get R.LIV_FE_MAX a) a).statMark a t

/-- The ring record of ring `r` (0 A, 1 B, 2 local) over the axes that have counted (R58). -/
def State.statRing (s : State) (as : List Nat) (r t : Nat) : State :=
  let l := as.filter fun a => s.ringOf a == r
  let k := 256 + r
  let s := s.each statCounts fun s p => s.put p.2 (min (2 ^ 32 - 1) (l.foldl (fun n a => n + s.get p.1 a) 0)) k
  let s := s.puti R.SNP_FE_MIN (l.foldl (fun m a => min m (s.geti R.LIV_FE_MIN a)) (2 ^ 31 - 1)) k
  let s := s.puti R.SNP_FE_MAX (l.foldl (fun m a => max m (s.geti R.LIV_FE_MAX a)) (-(2 ^ 31))) k
  let s := s.put R.SNP_AXES (l.filter fun a => s.get R.LIV_SAMPLES a != 0).length k
  s.statMark k t

/-- The period in base periods (R59). -/
def State.statLen (s : State) : Nat := max 1 (s.get H.STAT_SEC * 1000000000 / s.baseNs)

/-- The statistics latch of boundary `t`, with cause 1 (R59, R259). An axis configured since the last one only begins to
count (R42). -/
def State.statLatch (s : State) (t : Nat) : State :=
  let as := s.axes.filter fun a => s.on H.STAT_ON a
  let s := s.each as fun s a => s.statAxis a t
  let s := s.each (List.range 3) fun s r => s.statRing as r t
  let s := s.each s.axes fun s a => (s.statRestart a).put H.STAT_ON 1 a
  ((s.put H.STAT_CNT 0).put H.STAT_LEN s.statLen).cause 1

/-- A boundary counts toward the statistics period, and may end it. -/
def State.statStep (s : State) (t : Nat) : State :=
  let s := s.when (s.get H.STAT_LEN == 0) fun s => s.put H.STAT_LEN s.statLen
  if s.get H.STAT_LEN ≤ s.get H.STAT_CNT + 1 then s.statLatch t
  else s.put H.STAT_CNT (s.get H.STAT_CNT + 1)

/-! ### Step 4: axis states (R41, R42, R47) -/

/-- The limit of one direction is accepted: in the direction of motion, outside homing, it raises HARD_LIMIT (R179). -/
def State.hardLimit (s : State) (a t : Nat) (sign : Int) : State :=
  let v := (s.demand a t).v
  let ssv : Int := (s.get R.TRJ_SSV a : Int) * 4294967296
  s.when (decide (ssv < sign * v) && s.get R.HM_STAT_PHASE a == 0 && decide (3 ≤ s.axSt a)) fun s => s.post a (.fault 7)

/-- The limit inputs at a boundary (R170, R171, R179). -/
def State.limitInputs (s : State) (a t : Nat) : State :=
  let p := s.srcActive a (s.get R.TRJ_CFG_LIM_P a)
  let n := s.srcActive a (s.get R.TRJ_CFG_LIM_N a)
  let newP := p && !s.on R.TRJ_STAT_LIMP a
  let newN := n && !s.on R.TRJ_STAT_LIMN a
  let s := (s.put R.TRJ_STAT_LIMP (b2n p) a).put R.TRJ_STAT_LIMN (b2n n) a
  (s.when newP fun s => s.hardLimit a t 1).when newN fun s => s.hardLimit a t (-1)

/-- A request takes effect if its mailbox still waits for this axis's boundary. -/
def State.ifWaits (s : State) (mb opc a : Nat) (f : State → State) : State :=
  s.when (s.waitsFor mb opc a) fun s => f (s.unwait mb)

/-- One event takes effect at the axis's boundary `t` (R41, R42). -/
def State.takeEv (s : State) (a t : Nat) (k : AxKind) : State :=
  match k with
  | .safetyDemand r => s.takeDemand a r t
  | .hwReact cls => s.takeFault a cls t
  | .fullStopEntry ramp => s.takeFullStop a t ramp
  | .fullStopRelease => s.takeRelease a
  | .fault cls => s.takeFault a cls t
  | .raiseOff => s.takeRaiseOff a t
  | .nodeOnline => s.takeOnline a
  | .nodeLost => s.takeLost a t
  | .stopDone => s.takeStopDone a
  | .enable mb => s.ifWaits mb 0x0102 a fun s => s.takeEnable a mb
  | .disable mb => s.ifWaits mb 0x0103 a fun s => s.takeDisable a mb t
  | .faultReset mb => s.ifWaits mb 0x0104 a fun s => s.takeReset a mb
  | .faultRaise mb => s.ifWaits mb 0x0105 a fun s => s.takeRaise a mb t
  | .configured mb => s.takeConfigured a mb
  | .deconfigured mb => s.takeDeconfigured a mb
  | .motion mb => s.ifWaits mb (s.get H.MB_OPC mb) a fun s => s.takeMotion a mb t
  | .learnOff tab => s.learnOff a tab

/-- The events of one boundary in the order of R41. -/
def evOrder (l : List AxEv) : List AxEv :=
  (List.range 7).flatMap fun r => l.filter fun e => e.kind.rank == r

/-- The events of one boundary take effect, those of every axis whose boundary it is, in the order of R41: a step of that
order is taken for every axis before the next, so that what an event does to other members of a group stands before their
later events (R41, R54). -/
def State.boundaryEvents (s : State) (t : Nat) (due : List Nat) : State :=
  let evs := s.axEvs.filter fun e => due.contains e.axis
  let s : State := { s with axEvs := s.axEvs.filter fun e => !due.contains e.axis }
  s.each (evOrder evs) fun s e => s.takeEv e.axis t e.kind

/-- What follows the events at an axis's boundary: the progress of stops, the way to Configured of an axis whose node was gone
before (`gone`), fault resets whose drive has cleared FLT (R513), SAFE_DEMAND, homing. -/
def State.axisAfter (s : State) (a t : Nat) (gone : Bool) : State :=
  if s.axSt a = 0 then s
  else
    let s := (s.stopProgress a t).gfltRise a
    let s := s.when (s.on H.FRST_ON a && !bit (s.get H.AX_STAT a) 1) fun s => s.frstResolve a true
    let s := s.when (gone && s.on H.NODE_GONE a && !s.on H.AX_TRQ a && decide (6 ≤ s.axSt a)) fun s => s.toConfigured a
    ((s.safeSync a).homeBoundary a (s.tsOf a t)).pruneMotions a

/-- The boundary of the axes that are due: inputs, events, and what follows. -/
def State.axesBoundary (s : State) (t : Nat) (due : List Nat) : State :=
  let s := s.each due fun s a => s.when (s.axSt a != 0) fun s => s.limitInputs a t
  let gone := due.filter fun a => s.on H.NODE_GONE a
  (s.boundaryEvents t due).each due fun s a => s.axisAfter a t (gone.contains a)

/-- Axes whose boundary this is and that are configured or about to be. -/
def State.dueAxes (s : State) (n : Nat) : List Nat :=
  (List.range 256).filter fun a => (s.axSt a != 0 || s.axEvs.any fun e => e.axis == a) && s.axDue a n

/-! ### Compare tracks (R198) -/

/-- The tracks of an axis's compare units at its boundary `t` (R195, R198); there are none while its loop is open. -/
def State.trackCheck (s : State) (a t : Nat) : State :=
  s.each ((List.range 32).filter fun u => s.on R.CMP_CTL_EN u && s.get R.CMP_CTL_AXIS u == a) fun s u =>
    s.trackStep u t (s.on H.AX_TRQ a)

/-! ### Step 5: releases at period start (R31, R142, R306) -/

/-- Descriptors released at the boundary of cycle `n` (R142). -/
def State.startDescs (s : State) (n : Nat) : List Nat :=
  s.enabled.filter fun d =>
    s.get R.SCH_DESC_REL d == 1 &&
      n % divOf (s.get R.SCH_DESC_DIV d) == s.get R.SCH_DESC_PHASE d % divOf (s.get R.SCH_DESC_DIV d)

/-- The inbox packet of a period-start release: the values latched in the axis's port (R306), else zeros. -/
def State.startPkt (s : State) (d t : Nat) : List Nat :=
  let a := s.get R.SCH_DESC_REC d
  if s.get R.SCH_DESC_RTYPE d = 0 ∧ !s.isNirte a then s.portPkt a t else []

/-- The clauses of a period start are released; the ports of local axes latch, and their next period begins. -/
def State.startRelease (s : State) (t n : Nat) (due : List Nat) : State :=
  let s := s.each (s.startDescs n) fun s d => s.release d 1 n t (s.startPkt d t)
  s.each (due.filter fun a => s.axSt a != 0 && !s.isNirte a) fun s a => (s.portLatch a).portPeriod a

/-! ### The mirror (R262) -/

/-- The mirror entry of an axis is rewritten from its latest sample; in Standby MSEQ and FB_BOUNDARY do not advance
(R466). -/
def State.mirror (s : State) (a : Nat) : State :=
  let held := s.get R.PWR_STATE_STATE == 2
  let s := s.when (!held) fun s => (s.incWrap R.MIR_MSEQ a).put R.MIR_FB_BOUNDARY (s.get H.AX_FBB a) a
  let st := 0x20000000 + 0x10 * a
  let s := s.put R.MIR_AXS_STATUS (s.word R.astFields st + 2 ^ 32 * s.word R.astFields (st + 4)) a
  let s := (s.put R.MIR_P_DEM (s.get R.AXS_P_DEM a) a).put R.MIR_P_ACT (s.get R.AXS_P_ACT a) a
  let s := (s.put R.MIR_FE (s.get R.AXS_FE a) a).put R.MIR_V_ACT (s.get R.AXS_V_ACT a) a
  let s := (s.put R.MIR_TRQ_CMD (s.get R.AXS_TRQ_CMD a) a).put R.MIR_LIM_FLAGS (s.get R.AXS_LIM_FLAGS a) a
  let s := s.put R.MIR_TRJ_STAT (s.word R.axsFields (axRec a + 0x668)) a
  let s := s.put R.MIR_HM_STAT (s.word R.axsFields (axRec a + 0x6D8)) a
  let s := (s.put R.MIR_TRJ_TARGET (s.get R.TRJ_TARGET a) a).put R.MIR_TRJ_T_END (s.get R.TRJ_T_END a) a
  let s := s.put R.MIR_TRJ_SEG_STAT (s.word R.axsFields (axRec a + 0x680)) a
  let s := s.put R.MIR_TRJ_SEG_DONE (s.get R.TRJ_SEG_DONE a) a
  s.put R.MIR_MSEQ_END (s.get R.MIR_MSEQ a) a

/-! ### The whole -/

/-- What else takes effect at a boundary: waiting configuration of ports, field channels, compare and capture units,
injections, the pair, security and power, a commit's snapshot; own faults of an active unit (R429). -/
def State.boundaryRest (s : State) (n : Nat) : State :=
  let s := (((s.portCfgs).fioBoundary n).cmpBoundary).cmpReqs
  let s := (s.injBoundary n).securityBoundary
  let s := s.when (s.on H.QUAR_2 || s.on R.SCH_STATUS_OVERLOAD) fun s => s.ownFault
  ((s.put H.QUAR_2 0).pairBoundary.commitSnap.flashWork).standbyStep

/-- The boundary of cycle `n` at time `t`, in the order of R31. -/
def State.boundary (s : State) (t n : Nat) : State :=
  let s := (s.newCycle t n).schLoad
  let s := s.each (List.range 2) fun s r => s.launch n r
  let s := s.statStep t
  let s := s.when (s.swapDue t n) fun s => s.swapNow n
  let due := s.dueAxes n
  let s := s.axesBoundary t due
  let s := s.each (List.range 2) fun s r => s.ringStopped r
  let s := s.boundaryRest n
  let s := s.each due fun s a => s.trackCheck a t
  let s := (s.descApply.codeApply).trcBoundary
  let s := s.startRelease t n due
  s.each (due.filter fun a => s.axSt a != 0) fun s a => s.mirror a

end Sys2Proof.Machine
end

