-- ==== Sys2Proof/Machine/Boundary.lean ====
section
/-! DEFINITION. The commands of the cycle boundary (R31, R59, R288). -/

namespace Sys2Proof.Machine

/-- BOUNDARY: cycle `n` begins at distributed-clock time `t` ns (R30, R31); nothing where NET is off or in reset. -/
def execBoundary (t n : Nat) (s : State) : Out := .next (if s.domDown 4 then s else s.boundary t n)

/-- OVERLAY_SWAP: a staged mode switch takes effect at the latest boundary where its staging is complete and its start cycle has come
(R288). -/
def execOverlaySwap (s : State) : Out :=
  .next (if s.swapDue (s.get H.BND_T) (s.get H.BND_N) then s.swapNow (s.get H.BND_N) else s)

/-- STATISTICS_LATCH: a statistics period ends at the latest boundary (R59). -/
def execStatisticsLatch (s : State) : Out := .next (if s.domDown 5 then s else s.statLatch (s.get H.BND_T))

end Sys2Proof.Machine
end

