-- ==== Sys2Proof/Machine/Clause.lean ====
section
/-! DEFINITION. The standard clauses (R65, R80 to R92, R98, R99, R138). -/

namespace Sys2Proof.Machine

/-- AXIS_LOOP: one sample of the standard axis clause (R65, R138). -/
def execAxisLoop (a : Nat) (s : State) : Out :=
  .next (s.runClause 0 a fun x s =>
    let s := (s.sampleFirst a x).sampleSecond a x
    s.spend x (s.sampleCost a 0))

/-- TRAJECTORY_STEP: the sample of an axis of steps without an encoder (R67, R138). -/
def execTrajectoryStep (a : Nat) (s : State) : Out :=
  .next (s.runClause 4 a fun x s =>
    let s := (s.sampleFirst a x).sampleSecond a x
    s.spend x (s.sampleCost a 4))

/-- POSITION_PART: the first half of a group member's sample, R65 steps 1 to 3 (R87). -/
def execPositionPart (a : Nat) (s : State) : Out :=
  .next (s.runClause 1 a fun x s =>
    let s := s.sampleFirst a x
    s.spend x (s.sampleCost a 1))

/-- VELOCITY_PART: the second half of a group member's sample, R65 steps 4 to 9 (R87). -/
def execVelocityPart (a : Nat) (s : State) : Out :=
  .next (s.runClause 2 a fun x s =>
    let s := s.sampleSecond a x
    s.spend x (s.clauseCost a 2))

/-- The coefficients of cross-coupling section `c` of a group (R89). -/
def State.ccCoef (s : State) (g c : Nat) : Coef :=
  { b0 := s.geti R.GRP_CC_COEF g (5 * c), b1 := s.geti R.GRP_CC_COEF g (5 * c + 1),
    b2 := s.geti R.GRP_CC_COEF g (5 * c + 2), a1 := s.geti R.GRP_CC_COEF g (5 * c + 3),
    a2 := s.geti R.GRP_CC_COEF g (5 * c + 4), sh := bits (s.get R.GRP_CFG_CC_SHIFT g) (3 * c) 3 }

/-- One sample of cross-coupling section `c`, on the x_p of its source member; its output is then in GRP_CCH (R68, R71,
R86). -/
def State.ccRun (s : State) (g c : Nat) : State :=
  if !s.on R.GRP_CC_CTL_EN g c || s.on R.GRP_CC_CTL_FREEZE g c then s
  else
    let x := match (s.members g)[s.get R.GRP_CC_CTL_SRC g c]? with
      | some m => s.geti H.AX_XP m
      | none => 0
    let r := (s.ccCoef g c).run x (s.geti R.GRP_CC_STATE g (2 * c)) (s.geti R.GRP_CC_STATE g (2 * c + 1))
    ((s.puti R.GRP_CC_STATE r.s1 g (2 * c)).puti R.GRP_CC_STATE r.s2 g (2 * c + 1)).puti H.GRP_CCH r.y g c

/-- z of member `j` of a group: the decoupling row over the members' y_p, and the cross-coupling sections that end at
`j`, saturated once (R65, R86, R88). -/
def State.groupZ (s : State) (g j : Nat) : Int :=
  let row := (s.members g).mapIdx fun i m =>
    if s.get H.AX_SMODE m = 3 then roundUp (s.geti R.GRP_M g (8 * j + i) * s.geti H.AX_YP m) 30 else 0
  let cc := (List.range 4).map fun c =>
    if s.on R.GRP_CC_CTL_EN g c && s.get R.GRP_CC_CTL_DST g c == j then s.geti H.GRP_CCH g c else 0
  satI 32 (row.foldl (· + ·) 0 + cc.foldl (· + ·) 0)

/-- GROUP_CLAUSE: z of every member (R86); while FREEZE is 1, the values of the last unfrozen sample (R88). -/
def execGroupClause (g : Nat) (s : State) : Out :=
  .next (s.runClause 3 g fun x s =>
    let ms := s.members g
    let s := if s.on R.GRP_CFG_FREEZE g then s
      else
        let s := s.each (List.range 4) fun s c => s.ccRun g c
        s.each (List.range ms.length) fun s j => s.puti H.GRP_Z (s.groupZ g j) g j
    let s := s.each (List.range ms.length) fun s j => s.puti H.AX_Z (s.geti H.GRP_Z g j) (ms.getD j 0)
    let c := ((List.range 4).filter fun k => s.on R.GRP_CC_CTL_EN g k).length
    s.spend x (groupCost ms.length c))

/-- The supervision descriptor of a ring of the data tree. -/
def State.supOn (s : State) (r : Nat) : Option Inst :=
  s.insts.find? fun x =>
    x.st == 1 && x.ty == 5 && bit (s.get H.SUP_DESC r) 10 &&
    s.get H.SUP_DESC r % 1024 == x.desc && s.engCan x.eng && !s.on H.ENG_DID x.eng (s.get H.ENG_LVL1 x.eng)

/-- SUPERVISION: the clause of a ring, 40 cycles and 6 per axis (R138). -/
def execSupervision (r : Nat) (s : State) : Out :=
  .next (match s.supOn r with
    | none => s
    | some x =>
      (s.spend x (40 + 6 * (s.ringAxes r).length)).put H.ENG_DID 1 x.eng (s.get H.ENG_LVL1 x.eng))

/-- FE_TIMED: the timed following-error limit has run its time; once in an excursion (R83, R84). -/
def execFeTimed (a : Nat) (s : State) : Out :=
  .next (if a < 256 ∧ s.on R.AXS_STATUS_FE_WARN a ∧ s.feCount a ≤ s.get R.AXS_FE_CTL_FE_CNT a ∧
      !s.on H.AX_FEHIT a ∧ s.on R.AXS_FE_CTL_EN_TIMED a then
      (s.put H.AX_FEHIT 1 a).post a (.fault 1)
    else s)

/-! ### Learning update (R92) -/

/-- A section run over a list, with the outputs in order. -/
def Coef.runList (c : Coef) : List Int → Int → Int → List Int
  | [], _, _ => []
  | x :: t, s1, s2 =>
    let r := c.run x s1 s2
    r.y :: c.runList t r.s1 r.s2

/-- The Q-filter of a learning table (R95). -/
def State.lffQ (s : State) (t : Nat) : Coef :=
  { b0 := s.geti R.LFF_Q t 0, b1 := s.geti R.LFF_Q t 1, b2 := s.geti R.LFF_Q t 2, a1 := s.geti R.LFF_Q t 3,
    a2 := s.geti R.LFF_Q t 4, sh := s.get R.LFF_CFG_QSHIFT t }

/-- A pass of the Q-filter, seeded at steady state for an input (R92). -/
def Coef.pass (c : Coef) (l : List Int) (x : Int) : List Int :=
  let st := c.steady x
  c.runList l st.1 st.2

/-- The two passes of the Q-filter (R92). -/
def Coef.zeroPhase (c : Coef) (l : List Int) : List Int :=
  let f := c.pass l (l.headD 0)
  (c.pass f.reverse (f.getLastD 0)).reverse

/-- The 2048 entries at a place of a learning table's memory. -/
def State.lffList (s : State) (t o : Nat) : List Int :=
  (List.range 2048).map fun k => sext 32 (s.load (lffMem t (o + 4 * k)) 4)

/-- The new table (R92). -/
def State.lffNew (s : State) (t : Nat) : List Int :=
  let u := s.lffList t 0
  let e := s.lffList t 0x8000
  let g := s.geti R.LFF_GAIN t
  let lead := s.get R.LFF_CFG_LEAD t
  (s.lffQ t).zeroPhase (u.mapIdx fun i x => satI 32 (x + roundUp (g * e.getD (min (i + lead) 2047) 0) 30))

/-- One instance of a learning update: a waiting record is taken up, and the eighth instance writes the shadow table
(R92, R93, R138). -/
def State.lffStep (s : State) (t : Nat) : State :=
  let k := s.get H.LFF_CHUNK t
  let s := s.when (k == 0) fun s =>
    (s.setBytes (lffMem t 0x8000) (s.bytes (lffMem t 0x6000) 0x2000)).put H.LFF_WAIT 0 t
  if k < 7 then s.put H.LFF_CHUNK (k + 1) t
  else
    let s := ((s.putList (lffMem t 0x2000) (s.lffNew t)).put H.LFF_CHUNK 0 t).put H.LFF_NEW 1 t
    let s := s.incSat R.LFF_STAT_REPS t
    (s.put R.LFF_STAT_UPDATE_PENDING (s.get H.LFF_WAIT t) t).lffShow t

/-- LEARNING_UPDATE: one instance of the clause of a learning table (R92, R138); none of its work while FREEZE is 1
(R95). -/
def execLearningUpdate (tb : Nat) (s : State) : Out :=
  .next (s.runClause 6 tb fun x s =>
    if (s.on H.LFF_WAIT tb ∨ s.get H.LFF_CHUNK tb ≠ 0) ∧ !s.on R.LFF_CFG_FREEZE tb then (s.lffStep tb).spend x 6200
    else s.spend x 30)

/-! ### Sweeps -/

/-- TUNING_CAPTURE: one record of a sweep (R99), with its progress (R273). -/
def execTuningCapture (ch : Nat) (s : State) : Out :=
  .next (s.runClause 7 ch fun x s =>
    let s := s.when (s.on H.SW_ON ch && s.on H.SW_RUN ch) fun s =>
      let s := s.sweepRec ch ((List.range 4).map fun k => s.get H.SW_V ch k)
      match s.lopOf 0x0208 ch with
      | some k => s.lopProgress k (s.get H.SW_REC ch) (s.get H.SW_LEN ch)
      | none => s
    s.spend x 24)

/-- SWEEP_COMPLETE: a sweep whose records are all captured ends DONE (R98, R272). -/
def execSweepComplete (ch : Nat) (s : State) : Out :=
  .next (if ch < 32 ∧ s.on H.SW_ON ch ∧ s.on H.SW_RUN ch ∧ s.get H.SW_LEN ch ≤ s.get H.SW_REC ch then
      s.sweepEnd ch 1 2
    else s)

/-! ### Tracking notches (R79, R80) -/

/-- The fields of a tracker. -/
structure Tracker where
  en : Fld
  bank : Fld
  sec : Fld
  src : Fld
  npt : Fld
  rp : Fld
  rz : Fld
  fc : Fld
  pos : Fld
  frq : Fld
  coef : Fld

/-- Tracker 0 or 1 of an axis (R102, R103). -/
def tracker (k : Nat) : Tracker :=
  if k = 0 then
    { en := R.AXS_TRK_CTL_T0_EN, bank := R.AXS_TRK_CTL_T0_BANK, sec := R.AXS_TRK_CTL_T0_SEC,
      src := R.AXS_TRK_SRC_T0_AXIS, npt := R.AXS_TRK_SRC_T0_NPT, rp := R.AXS_TRK0_RP, rz := R.AXS_TRK0_RZ,
      fc := R.AXS_TRK0_FC, pos := R.AXS_TRK0_PT_POS, frq := R.AXS_TRK0_PT_FRQ, coef := R.AXS_TRK0_COEF }
  else
    { en := R.AXS_TRK_CTL_T1_EN, bank := R.AXS_TRK_CTL_T1_BANK, sec := R.AXS_TRK_CTL_T1_SEC,
      src := R.AXS_TRK_SRC_T1_AXIS, npt := R.AXS_TRK_SRC_T1_NPT, rp := R.AXS_TRK1_RP, rz := R.AXS_TRK1_RZ,
      fc := R.AXS_TRK1_FC, pos := R.AXS_TRK1_PT_POS, frq := R.AXS_TRK1_PT_FRQ, coef := R.AXS_TRK1_COEF }

/-- The centre frequency of a table of points at a position, Q16.16 Hz: linear between points, the end value beyond them
(R80). -/
def interpolate (p : Int) : List (Int × Nat) → Nat
  | [] => 0
  | [x] => x.2
  | x :: y :: t =>
    if p ≤ x.1 then x.2
    else if p < y.1 then ((x.2 : Int) + divRound (((y.2 : Int) - x.2) * (p - x.1)) (y.1 - x.1).toNat).toNat
    else interpolate p (y :: t)

/-- A notch's coefficients with unity DC gain under a SHIFT, for cos ω, zero and pole radii in Q2.30 (R78, R79). -/
def notch (cosw rz rp : Int) (sh : Nat) : List Int :=
  let b1 := -2 * roundUp (rz * cosw) 30
  let b2 := roundUp (rz * rz) 30
  let a1 := -2 * roundUp (rp * cosw) 30
  let a2 := roundUp (rp * rp) 30
  let n := oneQ30 + a1 + a2
  let d := (oneQ30 + b1 + b2) * ((2 ^ sh : Nat) : Int)
  [satI 32 (divSign (oneQ30 * n) d), satI 32 (divSign (b1 * n) d), satI 32 (divSign (b2 * n) d), a1, a2]

/-- The notch of a tracker at a centre frequency under a SHIFT. For the coefficients the frequency is clamped to R74's range, 20 Hz
to 0.45 times the sample rate, while AXS_TRKt_FC holds it as interpolated: the model's choice (log entry 248). -/
def State.trkNotch (s : State) (a : Nat) (x : Tracker) (fc sh : Nat) : List Int :=
  let per := s.axPeriod a
  let fc := clampN (20 * 65536) (45 * 65536 * 10000000 / max 1 per) fc
  notch (cosTurn (fc * per) 65536000000000) (s.geti x.rz a) (s.geti x.rp a) sh

/-- Coefficients written into the bank of a section: 1 the tracker's, 0 the main one. -/
def State.trkWrite (s : State) (a : Nat) (x : Tracker) (bank : Nat) (c : List Int) : State :=
  s.each (List.range 5) fun s n =>
    if bank = 1 then s.puti x.coef (c.getD n 0) a n
    else s.puti R.AXS_SEC_COEF (c.getD n 0) a (5 * s.get x.sec a + n)

/-- TRACKER_RETUNE: the firmware's retune of a tracked notch, at most once per millisecond (R80). -/
def execTrackerRetune (a k : Nat) (s : State) : Out :=
  let x := tracker k
  let n := s.get x.npt a
  .next (if 256 ≤ a ∨ 2 ≤ k ∨ !s.on x.en a ∨ n < 2 ∨
      (s.get H.TRK_T a k ≠ 0 ∧ s.now < s.get H.TRK_T a k + 1000000) then s
    else
      let s := s.put H.TRK_T s.now a k
      let pts := (List.range n).map fun j => (s.geti x.pos a j, s.get x.frq a j)
      let fc := interpolate (s.geti R.AXS_P_ACT (s.get x.src a)) pts
      let old := s.get x.fc a
      if 200 * absI ((fc : Int) - old) ≤ old then s
      else
        let bank := 1 - s.get x.bank a
        let s := s.when (s.get H.TRK_SH a k == 0) fun s => s.put H.TRK_SH (8 + s.secShift a (s.get x.sec a)) a k
        ((s.trkWrite a x bank (s.trkNotch a x fc (s.get H.TRK_SH a k - 8))).put x.fc fc a).put x.bank bank a)

end Sys2Proof.Machine
end

