-- ==== Sys2Proof/Machine/Configuration.lean ====
section
/-! DEFINITION. The commands of configuration images and modes (R282 to R301). -/

namespace Sys2Proof.Machine

/-- MODE_SWITCH (R288, R290). -/
def execModeSwitch (mb : Nat) (s : State) : Out :=
  .next (s.request mb 0x0600 16 fun s =>
    let b := s.par mb 0 4
    let t := s.swapTo b
    if 8 < b then s.fail mb 0x0003
    else if s.get H.MSW_B ≠ 0 then s.fail mb 0x000E
    else if s.swapTracked t b then s.fail mb 0x0202
    else if s.overload t then s.fail mb 0x0301
    else s.modeStage mb b (s.par mb 8 8))

/-- CFG_COMMIT: the snapshot is taken at the next boundary (R291, R299). -/
def execCfgCommit (mb : Nat) (s : State) : Out :=
  .next (s.request mb 0x0601 8 fun s =>
    if s.lopBusy 0x0601 then s.fail mb 0x000E
    else s.lopStart mb 0x0601 0 fun s _ =>
      ((s.put H.CMT 1).put H.CMT_BM (min 8 (s.par mb 0 4))).put H.CMT_LFF (s.par mb 4 4 % 2))

/-- COMMIT_COMPLETE (R291). -/
def execCommitComplete (s : State) : Out :=
  .next (match s.snap with
    | some m => s.commitDone m
    | none => s)

/-- FW_UPDATE: reception starts, the inactive slot is erased (R295). -/
def execFwUpdate (mb : Nat) (s : State) : Out :=
  .next (s.request mb 0x0602 4 fun s =>
    if s.lopBusy 0x0602 then s.fail mb 0x000E
    else s.lopStart mb 0x0602 0 fun s _ =>
      let s := s.zeroRange fwBuf (fwMark + 0x800000)
      let s := s.zeroRange (flashAt (flashSlot (1 - s.get R.CFG_FW_SLOT)).base) (flashAt (flashSlot (2 - s.get R.CFG_FW_SLOT)).base)
      let s := ((s.put H.FW_PH 1).put H.FW_LEN (clampN 4096 4194304 (s.par mb 0 4))).put H.FW_GOT 0
      s.clearBit H.FW_GOOD (1 - s.get R.CFG_FW_SLOT))

/-- FW_DATA: a chunk of the image (R295, R300). -/
def execFwData (mb : Nat) (s : State) : Out :=
  .next (s.request mb 0x060A 12 fun s =>
    let h := s.par mb 0 4
    let off := s.par mb 4 4
    let n := clampN 1 4080 (s.par mb 8 4)
    if h = 0 ∨ 65535 < h then s.fail mb 0x0003
    else
      match (List.range 32).find? fun k => s.get R.LOP_ID_HANDLE k == h && s.get R.LOP_OBJ_OPCODE k == 0x0602 with
      | none => s.fail mb 0x000A
      | some k =>
        if s.get R.LOP_ID_STATUS k ≠ 1 then s.fail mb 0x000D
        else if s.get H.MB_LEN mb < 12 + n then s.fail mb 0x0002
        else if s.get H.FW_LEN < off + n then s.fail mb 0x0606
        else
          let s := s.when (s.get H.FW_PH == 1) fun s =>
            let s := s.fwTake off (s.parBytes mb 12 n)
            s.lopProgress k (s.get H.FW_GOT) (2 * s.get H.FW_LEN)
          s.done mb (toBytes 4 (s.get H.FW_GOT)))

/-- FW_SIGNATURE_CHECK, once every byte has been received (R295). -/
def execFwSignatureCheck (s : State) : Out :=
  .next (if s.get H.FW_PH ≠ 1 ∨ s.get H.FW_GOT ≠ s.get H.FW_LEN then s
    else
      let r := s.fwCheck (s.bytes fwBuf (s.get H.FW_LEN))
      if r.1 ≠ 0 then (s.put H.FW_PH 0).lopFinish 0x0602 0 3 r.1
      else
        let s := ((s.put H.FW_PH 2).put H.FW_RK r.2).put H.FW_WRN 0
        match s.lopOf 0x0602 0 with
        | some k => s.lopProgress k 1 2
        | none => s)

/-- FW_WRITE_COMPLETE: the image is in the slot, which the boot record names active on trial (R295). -/
def execFwWriteComplete (s : State) : Out :=
  .next (if s.get H.FW_PH ≠ 2 then s
    else
      let j := 1 - s.get R.CFG_FW_SLOT
      let v := Config.imageVersion (s.bytes fwBuf (s.get H.FW_LEN))
      let s := s.copyRange fwBuf (flashAt (flashSlot j).base) (s.get H.FW_LEN)
      let s := (s.orBit H.FW_GOOD j).put H.FW_KEY (s.get H.FW_RK) 0 j
      let s := s.put (if j = 0 then R.CFG_FW_VER0 else R.CFG_FW_VER1) v
      (((s.put H.FW_ACT j).put H.FW_TRL 1).put H.FW_PH 0).lopFinish 0x0602 0 2 0)

/-- FLASH_SCRUB (R294). -/
def execFlashScrub (mb : Nat) (s : State) : Out :=
  .next (s.request mb 0x0603 0 fun s =>
    if s.lopBusy 0x0603 then s.fail mb 0x000E else s.lopStart mb 0x0603 0 fun s _ => s.put H.SCR_N 0)

/-- FLASH_SCRUB_COMPLETE: every page in use has been read (R294, R299). `bad`: a page of a retained image fails at normal level; which
image is not told, a free value. Pages that fail at margin level only are rewritten into a fresh block: those of one block, drawn free
(log entry 288). -/
def execFlashScrubComplete (bad : Bool) (s : State) : Out :=
  .next (match s.lopOf 0x0603 0 with
    | none => s
    | some k =>
      if s.get R.LOP_ID_STATUS k ≠ 1 || s.scrubPaused then s
      else
        let inj := s.get H.INJ_PG != 0 && !s.images.isEmpty
        let weak := s.free 9
        let s := s.useFree
        let s := s.when (decide (s.liveIn weak ≠ 0)) fun s => (s.blkMove weak).flView
        let s :=
          if inj then s.injPage.put R.CFG_STATUS_IMG_FALLBACK 1
          else s.when bad fun s => s.useFree.imageBad (s.free 9 % max 1 s.images.length)
        s.lopEnd k 2 0)

/-- GARBAGE_COLLECTION: images older than the second newest valid one are stale; blocks that hold their pages are reclaimed, erase counts
levelled (R292, R293). The operands name blocks of the configuration log at which a program or an erase fails on the way, 368 and above
none. -/
def execGarbageCollection (f0 f1 f2 f3 f4 : Nat) (s : State) : Out :=
  .next (({ s with images := keepImages 2 s.images } : State).flashCollect [f0, f1, f2, f3, f4])

/-- SAFETY_LOGIN (R296). -/
def execSafetyLogin (mb : Nat) (s : State) : Out :=
  .next (s.request mb 0x0604 8 fun s =>
    let n := clampN 8 64 (s.par mb 4 4)
    if !s.isSX then s.fail mb 0x0006
    else if s.get H.MB_LEN mb < 8 + n then s.fail mb 0x0002
    else if s.get R.CFG_SAF_LOCK ≠ 0 then s.fail mb 0x060A
    else if !s.on R.CFG_STATUS_NO_PASSWORD && Config.pbkdf2 (s.get H.SS_SALT) (s.parBytes mb 8 n) % 2 ^ 256 == s.get H.SS_HASH then
      s.loginOk mb (max 1 (s.par mb 0 2)) (s.par mb 2 2)
    else s.loginFails mb)

/-- SAFETY_LOGOUT (R296). -/
def execSafetyLogout (mb : Nat) (s : State) : Out :=
  .next (s.request mb 0x0605 0 fun s =>
    if !s.isSX then s.fail mb 0x0006
    else if s.on R.CFG_SAF_SESS_OPEN && s.get R.CFG_SAF_SESS_MBX == mb then s.sessionEnd.done mb
    else s.fail mb 0x0008)

/-- SESSION_TIMEOUT: 600 s without a safety request (R296). -/
def execSessionTimeout (s : State) : Out :=
  .next (s.when (s.on R.CFG_SAF_SESS_OPEN && s.timeUp (s.get H.SS_T + 600000000000)) fun s => s.sessionEnd)

/-- LOCKOUT_EXPIRY: the time of a lockout is over (R296). -/
def execLockoutExpiry (s : State) : Out :=
  .next (s.when (s.timeUp (s.get H.SS_LKT)) fun s => (s.put R.CFG_SAF_LOCK 0).put H.SS_LKT 0)

/-- PASSWORD_SET (R297, R298). The salt is drawn: a free value. -/
def execPasswordSet (mb : Nat) (s : State) : Out :=
  .next (s.request mb 0x0606 4 fun s =>
    let n := s.par mb 0 4
    if !s.isSX then s.fail mb 0x0006
    else if !s.on R.CFG_STATUS_NO_PASSWORD && !s.sessionOk mb then s.fail mb 0x0008
    else if n < 8 ∨ 64 < n then s.fail mb 0x0005
    else if s.get H.MB_LEN mb < 4 + n then s.fail mb 0x0002
    else
      let salt := s.free 128
      let s := ((s.safetyUse mb).useFree.put H.SS_NEWS salt mb).put H.SS_NEWH (Config.pbkdf2 salt (s.parBytes mb 4 n) % 2 ^ 256) mb
      s.changeWait mb 0x0606)

/-- SAFETY_CHANGE_COMPLETE: the safety change that came first is in the safety store (R298). -/
def execSafetyChangeComplete (s : State) : Out :=
  .next (match s.waits.find? fun (w : Wait) => [0x0901, 0x0607, 0x0609, 0x0606, 0x0C07].contains w.opc with
    | some w => s.safetyChange w
    | none => s)

/-- OVL_WRITE (R285, R299, R300). -/
def execOvlWrite (mb : Nat) (s : State) : Out :=
  .next (s.request mb 0x0607 12 fun s =>
    let n := clampN 1 340 (s.par mb 8 4)
    let r := s.ovlReq mb
    let cut := ((s.ovl r.1).drop r.2.1).take n
    let bar := s.safeWriteBar mb
    if r.1 = 0 ∨ 8 < r.1 ∨ 2047 < r.2.1 then s.fail mb 0x0003
    else if s.get H.MB_LEN mb < 12 + 12 * n then s.fail mb 0x0002
    else if s.ovlInUse r.1 then s.fail mb 0x000E
    else if 2048 < r.2.1 + n then s.fail mb 0x0601
    else if !(r.2.2.all s.ovlMay) || s.ovlCcBad r.1 r.2.1 r.2.2 then s.fail mb 0x0600
    else if r.2.2.any OvlEntry.safe || cut.any OvlEntry.safe then
      if bar ≠ 0 then s.fail mb bar
      else (s.safetyUse mb).changeWait mb 0x0607 ((r.2.2 ++ cut).filter OvlEntry.safe).length
    else
      let t := (s.ovlWrite mb).dirty
      t.done mb (toBytes 4 (t.ovlCount r.1)))

/-- OVL_READ (R300). -/
def execOvlRead (mb : Nat) (s : State) : Out :=
  .next (s.request mb 0x0608 12 fun s =>
    let m := s.par mb 0 4
    let first := s.par mb 4 4
    if m = 0 ∨ 8 < m ∨ 2047 < first then s.fail mb 0x0003
    else
      let es := ((s.ovl m).drop first).take (clampN 1 341 (s.par mb 8 4))
      s.done mb (es.flatMap fun e => toBytes 4 e.t ++ toBytes 4 e.mask ++ toBytes 4 e.val))

/-- OVL_CLEAR (R299, R300). -/
def execOvlClear (mb : Nat) (s : State) : Out :=
  .next (s.request mb 0x0609 4 fun s =>
    let m := s.par mb 0 4
    let n := ((s.ovl m).filter OvlEntry.safe).length
    let bar := s.safeWriteBar mb
    if m = 0 ∨ 8 < m then s.fail mb 0x0003
    else if s.ovlInUse m then s.fail mb 0x000E
    else if n = 0 then (s.ovlPut m []).dirty.done mb
    else if bar ≠ 0 then s.fail mb bar
    else (s.safetyUse mb).changeWait mb 0x0609 n)

/-- LOG_READ: entries no longer held are omitted (R298, R300). -/
def execLogRead (mb : Nat) (s : State) : Out :=
  .next (s.request mb 0x060B 8 fun s =>
    let first := s.par mb 0 4
    let top := s.get R.CFG_LOG_SEQ
    let qs := ((List.range (clampN 1 127 (s.par mb 4 4))).map fun i => first + i).filter fun q =>
      decide (0 < q) && decide (q ≤ top) && decide (top < q + 512)
    s.done mb (qs.flatMap fun q => s.bytes (logAt q) 32))

end Sys2Proof.Machine
end

