-- ==== Sys2Proof/Machine/Host.lean ====
section
/-! DEFINITION. The commands of the host interfaces: register accesses (R10 to R14, R28), the QSPI port (R254), doorbells and
acknowledges (R264 to R272), and the requests of the mailboxes themselves (R270, R274, R280). -/

namespace Sys2Proof.Machine

/-! ### Accesses -/

/-- REG64_LOW_READ: a read of the low half at `addr` (R10). -/
def execReg64LowRead (ifc : Ifc) (addr : Nat) (s : State) : Out := .next (s.readBytes ifc (addr / 8 * 8) 4)

/-- A write of one word through an interface. -/
def State.writeHalf (s : State) (i : Ifc) (a v : Nat) : State := s.writeBytes i a (toBytes 4 v)

/-- REG64_HIGH_WRITE: a write of the high half of the register at `addr` (R10). -/
def execReg64HighWrite (ifc : Ifc) (addr v : Nat) (s : State) : Out := .next (s.writeHalf ifc (addr / 8 * 8 + 4) v)

/-- REG64_LOW_WRITE: a write of the low half of the register at `addr` (R10). -/
def execReg64LowWrite (ifc : Ifc) (addr v : Nat) (s : State) : Out := .next (s.writeHalf ifc (addr / 8 * 8) v)

/-- PCIE_64BIT_READ (R10). -/
def execPcie64Read (ifc : Ifc) (addr : Nat) (s : State) : Out := .next (s.readBytes ifc (addr / 8 * 8) 8)

/-- PCIE_64BIT_WRITE (R10). -/
def execPcie64Write (ifc : Ifc) (addr v : Nat) (s : State) : Out := .next (s.write64 ifc (addr / 8 * 8) v)

/-- A read or write of a register word can reach it: the interface answers, the address is mapped, the domain is up. -/
def State.regUp (s : State) (i : Ifc) (a : Nat) : Bool :=
  s.ifcUp i && i != .bar2 && (i != .qspi || qspiMapped a) && !s.barDown (bar0Dom a)

/-- W1C_WRITE: `hw` are the bits that hardware sets in the cycle of the write (R11, R260). -/
def execW1cWrite (ifc : Ifc) (addr v hw : Nat) (s : State) : Out :=
  .next (
    let a := addr / 4 * 4 % 0x1000000
    if s.regUp ifc a then s.w1cWrite a v hw else s.writeHalf ifc a v)

/-- Events counted or set into the RC fields of a word (R11). -/
def State.rcEvents (s : State) (a ev : Nat) : State :=
  s.each ((bar0Fields a).filter fun f => f.acc == .RC) fun s f =>
    match fldAt f a with
    | some (i, j) => s.addSat f ev i j
    | none => s

/-- RC_READ: `ev` events come in the cycle of the read and are kept (R11). -/
def execRcRead (ifc : Ifc) (addr ev : Nat) (s : State) : Out :=
  .next (
    let a := addr / 4 * 4
    let t := s.readBytes ifc a 4
    if s.regUp ifc (a % 0x1000000) then t.rcEvents (a % 0x1000000) ev else t)

/-- REGISTER_WRITE (R14, R253). -/
def execRegisterWrite (ifc : Ifc) (addr : Nat) (bytes : List Nat) (s : State) : Out := .next (s.writeBytes ifc addr bytes)

/-- REGISTER_READ: `size` bytes from an address (R28, R253). -/
def execRegisterRead (ifc : Ifc) (addr size : Nat) (s : State) : Out := .next (s.readBytes ifc addr (min 4096 size))

/-- PCIE_POWER_STATE (R252, R253). -/
def execPciePowerState (d3hot : Bool) (s : State) : Out :=
  .next (if s.attach = 1 || s.domDown 1 then s else s.put H.D3HOT (b2n d3hot))

/-- FAST_READ (R254). -/
def execFastRead (addr words : Nat) (s : State) : Out := .next (s.readBytes .qspi (addr / 4 * 4) (4 * words))

/-- QUAD_READ (R254). -/
def execQuadRead (addr words : Nat) (s : State) : Out := .next (s.readBytes .qspi (addr / 4 * 4) (4 * words))

/-- WRITE (R254). -/
def execWrite (addr : Nat) (bytes : List Nat) (s : State) : Out := .next (s.writeBytes .qspi addr bytes)

/-- QUAD_WRITE (R254). -/
def execQuadWrite (addr : Nat) (bytes : List Nat) (s : State) : Out := .next (s.writeBytes .qspi addr bytes)

/-- READ_STATUS (R254). -/
def execReadStatus (s : State) : Out :=
  .next { s with rdata := if s.ifcUp .qspi then [b2n s.qspiIrq + 2 * s.get R.HIF_STATUS_READY] else [] }

/-! ### Doorbells, acknowledges, ticks -/

/-- The address of a mailbox's control word. -/
def mbCtl (n o : Nat) : Nat := 0x10000 + 0x40 * n + o

/-- MBX_DB: 1 is written to the doorbell of mailbox `n` (R265). -/
def execMbxDb (ifc : Ifc) (n : Nat) (s : State) : Out :=
  .next (if 32 ≤ n then s else s.writeHalf ifc (mbCtl n 0x0C) 1)

/-- HIF_DB_ALL (R265). -/
def execHifDbAll (ifc : Ifc) (mask : Nat) (s : State) : Out := .next (s.writeHalf ifc 0x44 mask)

/-- MBX_ACK: 1 is written to the acknowledge of mailbox `n` (R266). -/
def execMbxAck (ifc : Ifc) (n : Nat) (s : State) : Out :=
  .next (if 32 ≤ n then s else s.writeHalf ifc (mbCtl n 0x10) 1)

/-- LOP_ACK (R272). -/
def execLopAck (k : Nat) (s : State) : Out :=
  .next (if k < 32 then s.hostWord (0x1100C + 0x20 * k) fun s => s.lopAck k else s)

/-- HIF_TICK: DIV cycles have passed since the last tick (R259). -/
def execHifTick (s : State) : Out :=
  .next (if s.get R.HIF_TICK_DIV = 0 || s.domDown 1 || decide (s.get H.TICK_CNT < s.get R.HIF_TICK_DIV) then s else (s.put H.TICK_CNT 0).cause 2)

/-! ### Requests -/

/-- ECHO (R280). -/
def execEcho (mb : Nat) (s : State) : Out :=
  .next (s.request mb 0x0001 0 fun s => s.done mb (s.bytes (pageOf mb) (s.get H.MB_LEN mb)))

/-- GET_INFO (R280). -/
def execGetInfo (mb : Nat) (s : State) : Out :=
  .next (s.request mb 0x0002 0 fun s =>
    let pages := ((List.range 248).filter fun p => !s.on H.PG_USED p).length
    let slots := ((List.range 32).filter fun k => s.get R.LOP_ID_HANDLE k == 0).length
    s.done mb (ofWords [s.get R.HIF_FW_VER, s.get R.HIF_STATUS_BOOT_CNT, s.axes.length, s.descFreeN, pages, slots]))

/-- TAG_RESET (R270). -/
def execTagReset (mb : Nat) (s : State) : Out :=
  .next (s.request mb 0x0006 0 fun s => { s with tags := s.tags.filter fun (r : TagRec) => r.mb != mb }.done mb)

/-- Bytes of BAR2 as a read finds them (R280). -/
def State.bar2Bytes (s : State) (o n : Nat) : List Nat :=
  let w0 := o / 4
  let ws := (List.range ((o + n + 3) / 4 - w0)).map fun k =>
    let a := 4 * (w0 + k) % 0x4000000
    if s.barDown (bar2Dom a) then 0xFFFFFFFF else s.bar2Word a
  ((ofWords ws).drop (o % 4)).take n

/-- WIN_READ (R280). Whether a window whose domain is off or in reset makes a host error log entry when a request, and not an
access, meets it R28 leaves open: the model makes none (DESIGN CHOICE, log entry 34). -/
def execWinRead (mb : Nat) (s : State) : Out :=
  .next (s.request mb 0x0007 8 fun s =>
    let o := s.par mb 0 4
    let n := clampN 4 4096 (s.par mb 4 4 / 4 * 4)
    if 0x4000000 < o + n then s.fail mb 0x0003 else s.done mb (s.bar2Bytes o n))

/-- WIN_WRITE (R271, R280): as a BAR2 write, which a NET that is off or in reset discards; with no host error log entry, as for
WIN_READ (DESIGN CHOICE, log entry 34). -/
def execWinWrite (mb : Nat) (s : State) : Out :=
  .next (s.request mb 0x0008 8 fun s =>
    let o := s.par mb 0 4
    let n := clampN 4 4088 (s.par mb 4 4 / 4 * 4)
    if o < 0x200000 ∨ 0x204000 < o + n then s.fail mb 0x0003
    else if s.get H.MB_LEN mb < 8 + n then s.fail mb 0x0002
    else (s.when (!s.barDown 4) fun s => s.setBytes (0x40000000 + o) (s.parBytes mb 8 n)).done mb)

/-- A suspend, resume or cancel of homing or of a sweep waits for the axis's boundary (R193, R274). -/
def State.lopAtAxis (s : State) (mb opc a : Nat) : State := s.postReq mb opc a (.motion mb)

/-- The kinds of operation that suspend and resume: calibration and flash scrub at once (R273, R274). -/
def State.lopSuspend (s : State) (mb k : Nat) : State :=
  let opc := s.get R.LOP_OBJ_OPCODE k
  if opc = 0x0404 then s.lopAtAxis mb 0x0003 (s.get R.LOP_OBJ_INDEX k)
  else if opc = 0x0702 ∨ opc = 0x0603 then
    if s.get R.LOP_ID_STATUS k = 4 then s.done mb
    else ((s.when (opc == 0x0702) fun s => s.put H.DP_EN 0 (s.get R.LOP_OBJ_INDEX k)).lopSuspended k).done mb
  else s.fail mb 0x000B

/-- A resume (R273, R274): of a running operation no effect. -/
def State.lopResume (s : State) (mb k : Nat) : State :=
  if s.get R.LOP_OBJ_OPCODE k = 0x0404 then s.lopAtAxis mb 0x0004 (s.get R.LOP_OBJ_INDEX k)
  else if s.get R.LOP_ID_STATUS k = 4 then
    let s := s.when (s.get R.LOP_OBJ_OPCODE k == 0x0702) fun s => s.calStep (s.get R.LOP_OBJ_INDEX k)
    ((s.put R.LOP_ID_STATUS 1 k).cause 0).done mb
  else s.done mb

/-- A cancel (R273, R274): of a suspended homing at once; a commit, and a firmware update after its signature check, go on. -/
def State.lopCancel (s : State) (mb k : Nat) : State :=
  let opc := s.get R.LOP_OBJ_OPCODE k
  let i := s.get R.LOP_OBJ_INDEX k
  if opc = 0x0404 ∧ s.get R.LOP_ID_STATUS k = 4 then (s.homingEnd i 5 0).done mb
  else if opc = 0x0404 then s.lopAtAxis mb 0x0005 i
  else if opc = 0x0208 then s.lopAtAxis mb 0x0005 (s.get H.SW_AXIS i)
  else if opc = 0x0702 then ((((s.put H.DP_EN 0 i).put H.DP_CALF 0 i).lopEnd k 5 0)).done mb
  else if opc = 0x0603 then (s.lopEnd k 5 0).done mb
  else if opc = 0x0602 ∧ s.get H.FW_PH = 1 then ((s.put H.FW_PH 0).lopEnd k 5 0).done mb
  else s.fail mb 0x000C

/-- A request that names a long operation by its handle (R273, R274, R275). -/
def State.lopCtl (s : State) (mb opc : Nat) (f : State → Nat → State) : State :=
  s.request mb opc 4 fun s =>
    let h := s.par mb 0 4
    if h = 0 ∨ 65535 < h then s.fail mb 0x0003
    else
      match (List.range 32).find? fun k => s.get R.LOP_ID_HANDLE k == h with
      | none => s.fail mb 0x000A
      | some k =>
        if s.get R.LOP_ID_STATUS k ≠ 1 ∧ s.get R.LOP_ID_STATUS k ≠ 4 then s.fail mb 0x000D else f s k

/-- LOP_SUSPEND (R274). -/
def execLopSuspend (mb : Nat) (s : State) : Out := .next (s.lopCtl mb 0x0003 fun s k => s.lopSuspend mb k)

/-- LOP_RESUME (R274). -/
def execLopResume (mb : Nat) (s : State) : Out := .next (s.lopCtl mb 0x0004 fun s k => s.lopResume mb k)

/-- LOP_CANCEL (R274). -/
def execLopCancel (mb : Nat) (s : State) : Out := .next (s.lopCtl mb 0x0005 fun s k => s.lopCancel mb k)

end Sys2Proof.Machine
end

