-- ==== Sys2Proof/Machine/Integrity.lean ====
section
/-! DEFINITION. The commands of integrity supervision (R444 to R463). -/

namespace Sys2Proof.Machine

/-- SCRUB: a scrubber reads the next word of its array; in a domain that is off its pass waits at address 0 (R447). -/
def execScrub (arr : Nat) (s : State) : Out :=
  .next (if 10 ≤ arr then s
    else if s.domDown (arrDomain arr) then (s.put R.INT_ARR_POS 0 arr).put H.SCR_T0 s.now arr
    else s.scrubStep arr)

/-- CONVERTER_CALIBRATION: offset in LSB and gain in ppm as the references give them; stale where no usable instant came
for 100 ms (R450). -/
def execConverterCalibration (ch : Nat) (ofs gain : Int) (stale : Bool) (s : State) : Out :=
  .next (if 48 ≤ ch ∨ s.domDown 10 then s
    else if stale then (s.put R.TEL_FLAGS_ADC_CAL 1).report 0x1D ch 0xFFFF 0
    else s.convCal ch ofs gain)

/-- TELEMETRY_MEASUREMENT (R452, R453). -/
def execTelemetryMeasurement (temps rails eyeH eyeV : List Nat) (s : State) : Out :=
  .next (if s.domDown 2 then s else s.telMeasure temps rails eyeH eyeV)

/-- CLOCK_LOSS (R454): a loss while an injection already shows it lost (R458) only stops the clock. -/
def execClockLoss (src : Nat) (s : State) : Out :=
  .next (if 6 ≤ src ∨ s.clkStopped src then s else s.clkStop src)

/-- CLOCK_RESTORED: the loss ends, and the domains the clock drives are reset (R471). -/
def execClockRestored (src : Nat) (s : State) : Out :=
  .next (if 6 ≤ src ∨ !bit (s.get H.CLK_LOST) src then s else (s.clkStart src).clkResets src)

/-- INJECTION: an armed slot applies its next occurrence (R457, R458). -/
def execInjection (slot : Nat) (s : State) : Out :=
  .next (match s.injs.find? fun (x : InjSlot) => x.slot == slot with
    | some x =>
      if x.count = 0 ∨ !s.injOpen ∨ x.start = 0 ∨ s.get R.HIF_CYCLE < x.start then s else s.injOnce x (s.get R.HIF_CYCLE)
    | none => s)

/-- INJ_ARM: DONE at the boundary of the first occurrence (R457, R460). -/
def execInjArm (mb : Nat) (s : State) : Out :=
  .next (s.request mb 0x0B00 36 fun s =>
    let x := s.injPars mb
    let r := s.injRefuse mb x
    if r ≠ 0 then s.fail mb r
    else
      let s := s.when (s.injSafety x.det x.inst) fun s => s.safetyUse mb
      let s : State := { s with injs := s.injs.filter (fun (y : InjSlot) => y.slot != x.slot) ++ [x] }
      let s := (s.put R.INT_INJ_STAT_STATE 1 x.slot).put R.INT_INJ_STAT_DET x.det x.slot
      ((s.put R.INT_INJ_STAT_INST x.inst x.slot).put R.INT_INJ_FIRED 0 x.slot).wait mb 0x0B00 x.slot)

/-- INJ_DISARM: at the next boundary (R460). -/
def execInjDisarm (mb : Nat) (s : State) : Out :=
  .next (s.request mb 0x0B01 4 fun s =>
    let k := s.par mb 0 4
    if 8 ≤ k ∧ k ≠ 0xFFFF then s.fail mb 0x0003 else s.wait mb 0x0B01 k)

/-- EVLOG_READ: entries from a sequence number up, those no longer held omitted (R456, R460). -/
def execEvlogRead (mb : Nat) (s : State) : Out :=
  .next (s.request mb 0x0B02 8 fun s =>
    let first := s.par mb 0 4
    let n := clampN 1 127 (s.par mb 4 4)
    let l := s.evlog.reverse.filter fun (e : EvEntry) => decide ((e.seq + 2 ^ 32 - first) % 2 ^ 32 < n)
    s.done mb (l.flatMap EvEntry.bytes))

/-- TEL_CONFIG: the thresholds stand from the next measurement (R460). -/
def execTelConfig (mb : Nat) (s : State) : Out := .next (s.request mb 0x0B03 12 fun s => s.wait mb 0x0B03 0)

/-- MGMT_LOCKSTEP_MISMATCH (R429, R472). -/
def execMgmtLockstepMismatch (s : State) : Out := .next (if s.domDown 2 then s else s.lockstepFail false)

end Sys2Proof.Machine
end

