-- ==== Sys2Proof/Machine/Power.lean ====
section
/-! DEFINITION. Commands of the power and reset family (R464 to R476). -/

namespace Sys2Proof.Machine

/-- PWR_STATE_SET (R465 to R468): Run, Standby or Hibernate; a state between them is read as the lower,
and a change under way makes it BUSY. -/
def execPwrStateSet (mb : Nat) (s : State) : Out :=
  .next (s.request mb 0x0C00 12 fun s =>
    let st := min 3 (s.par mb 0 4)
    let idle := fun (s : State) => s.put R.PWR_CFG_IDLE_EN (min 1 (s.par mb 4 4))
    let stby := s.get R.PWR_STATE_STATE == 2
    if s.get H.PWR_STBY ≠ 0 then s.fail mb 0x000E
    else if st < 2 then
      let s := idle s
      if stby then ((s.put R.PWR_STATE_PENDING 0).put H.PWR_STBY 3).wait mb 0x0C00 0 else s.runState.done mb
    else if s.standbyBar ≠ 0 then s.fail mb s.standbyBar
    else if st = 2 then
      let s := idle s
      if stby then s.done mb else ((s.put R.PWR_STATE_PENDING 2).put H.PWR_STBY 1).wait mb 0x0C00 2
    else if s.flashBusy then s.fail mb 0x000E
    else (idle s).hibernate mb (s.par mb 8 4))

/-- STANDBY_ENTRY: the next boundary after a request for Standby, and the end of the instances under way (R466). -/
def execStandbyEntry (s : State) : Out := .next s.standbyStep

/-- STANDBY_EXIT_COMPLETE (R467). -/
def execStandbyExitComplete (s : State) : Out := .next (if s.get H.PWR_STBY = 3 then s.standbyExit else s)

/-- WAKE: a source in Hibernate, 1 WAKE_N, 2 the wake timer where one was given, 3 QSPI_CS_N, 4 PE0 (R469). -/
def execWake (cause : Nat) (s : State) : Out :=
  .next (
    if s.get H.PWR_HOLD = 8 ∧ 1 ≤ cause ∧ cause ≤ 4 ∧ (cause = 2 → s.get R.PWR_WAKE_TMR ≠ 0) then s.wakeFrom cause else s)

/-- VIN_LOSS: the module is off at once (R470). -/
def execVinLoss (s : State) : Out := .next ((s.powerReset.clearBit H.PWR_HOLD 3).orBit H.PWR_HOLD 2)

/-- POWER_ON_RESET: a supervisor holds the reset, or releases it with every rail in its range (R473). -/
def execPowerOnReset (held : Bool) (s : State) : Out :=
  .next (
    if held then (s.powerReset.clearBit H.PWR_HOLD 3).orBit H.PWR_HOLD 0
    else ((s.clearBit H.PWR_HOLD 0).clearBit H.PWR_HOLD 2).romStart)

/-- RST_N: low for 1 µs, or released; HSEL is sampled at the release (R251, R472). It ends Hibernate (R485). -/
def execRstN (low : Bool) (hsel : Nat) (s : State) : Out :=
  .next (
    if !low then ((s.clearBit H.PWR_HOLD 1).put R.HIF_STATUS_HSEL hsel).romStart
    else if bit (s.get H.PWR_HOLD) 0 || bit (s.get H.PWR_HOLD) 2 then s.orBit H.PWR_HOLD 1
    else ((s.warmReset 1).clearBit H.PWR_HOLD 3).orBit H.PWR_HOLD 1)

/-- CONJUNCTION_RESET: the reset command of the active partner (R428, R472). -/
def execConjunctionReset (s : State) : Out := .next (if s.get H.PWR_HOLD = 0 then s.partnerReset else s)

/-- FIRMWARE_WATCHDOG: MC0/MC1 have not serviced it in time; a halt suspends it (R472, R484). -/
def execFirmwareWatchdog (s : State) : Out :=
  .next (if s.domDown 2 || s.on H.MC_HALT then s
    else ((s.incSat R.PWR_CNT_WDT).mgmtReset).orBit R.PWR_RSTCAUSE 3)

/-- HOST_SIDE_RESET: hot reset, link down or function-level reset (R472). -/
def execHostSideReset (s : State) : Out :=
  .next (if s.domDown 1 || s.attach == 1 then s else s.hostReset.orBit R.PWR_RSTCAUSE 6)

/-- PWR_RESET (R474). -/
def execPwrReset (mb : Nat) (s : State) : Out :=
  .next (s.request mb 0x0C01 4 fun s =>
    let scope := s.par mb 0 4
    if 7 < scope then s.fail mb 0x0003
    else if s.scopeBar mb scope ≠ 0 then s.fail mb (s.scopeBar mb scope)
    else s.scopeReset mb scope)

/-- PWR_CONFIG: the watchdog's period (R486, R488). -/
def execPwrConfig (mb : Nat) (s : State) : Out :=
  .next (s.request mb 0x0C02 4 fun s => (s.put R.PWR_CFG_WDT (clampN 10 1000 (s.par mb 0 4))).done mb)

/-- BOOT: READY is reached `us` after the release (R475), or the boot ROM stays in recovery (R476). -/
def execBoot (us : Nat) (s : State) : Out := .next (if s.bootMay then s.bootRun us else s)

end Sys2Proof.Machine
end

