-- ==== Sys2Proof/Machine/Dispatch.lean ====
section
/-! DEFINITION. The dispatch of every command to its meaning. -/

namespace Sys2Proof.Machine

/-- The effect of one command on everything but the queue. -/
def exec (i : Instr) (s : State) : Host.Outcome State Fault Refusal :=
  match i with
  | .reg64LowRead ifc addr => Sys2Proof.Machine.execReg64LowRead ifc addr s
  | .reg64HighWrite ifc addr v => Sys2Proof.Machine.execReg64HighWrite ifc addr v s
  | .reg64LowWrite ifc addr v => Sys2Proof.Machine.execReg64LowWrite ifc addr v s
  | .pcie64Read ifc addr => Sys2Proof.Machine.execPcie64Read ifc addr s
  | .pcie64Write ifc addr v => Sys2Proof.Machine.execPcie64Write ifc addr v s
  | .w1cWrite ifc addr v hw => Sys2Proof.Machine.execW1cWrite ifc addr v hw s
  | .rcRead ifc addr ev => Sys2Proof.Machine.execRcRead ifc addr ev s
  | .registerWrite ifc addr bytes => Sys2Proof.Machine.execRegisterWrite ifc addr bytes s
  | .boundary t n => Sys2Proof.Machine.execBoundary t n s
  | .overlaySwap => Sys2Proof.Machine.execOverlaySwap s
  | .statisticsLatch => Sys2Proof.Machine.execStatisticsLatch s
  | .enableTimeout a => Sys2Proof.Machine.execEnableTimeout a s
  | .stopHold a => Sys2Proof.Machine.execStopHold a s
  | .brakeEngageDelay a => Sys2Proof.Machine.execBrakeEngageDelay a s
  | .stopTimeout a => Sys2Proof.Machine.execStopTimeout a s
  | .frstTimeout a => Sys2Proof.Machine.execFrstTimeout a s
  | .axisLoop a => Sys2Proof.Machine.execAxisLoop a s
  | .feTimed a => Sys2Proof.Machine.execFeTimed a s
  | .positionPart a => Sys2Proof.Machine.execPositionPart a s
  | .groupClause g => Sys2Proof.Machine.execGroupClause g s
  | .velocityPart a => Sys2Proof.Machine.execVelocityPart a s
  | .trajectoryStep a => Sys2Proof.Machine.execTrajectoryStep a s
  | .supervision r => Sys2Proof.Machine.execSupervision r s
  | .learningUpdate tb => Sys2Proof.Machine.execLearningUpdate tb s
  | .tuningCapture ch => Sys2Proof.Machine.execTuningCapture ch s
  | .trackerRetune a k => Sys2Proof.Machine.execTrackerRetune a k s
  | .sweepComplete ch => Sys2Proof.Machine.execSweepComplete ch s
  | .recordLoadDone e => Sys2Proof.Machine.execRecordLoadDone e s
  | .clauseDispatch => Sys2Proof.Machine.execClauseDispatch s
  | .preemption e => Sys2Proof.Machine.execPreemption e s
  | .nop e => Sys2Proof.Machine.execNop e s
  | .done e => Sys2Proof.Machine.execDone e s
  | .pub e dr w => Sys2Proof.Machine.execPub e dr w s
  | .prot e n => Sys2Proof.Machine.execProt e n s
  | .brkl e => Sys2Proof.Machine.execBrkl e s
  | .mvfs e dr code => Sys2Proof.Machine.execMvfs e dr code s
  | .mvts e code dr => Sys2Proof.Machine.execMvts e code dr s
  | .spush e code => Sys2Proof.Machine.execSpush e code s
  | .spop e code => Sys2Proof.Machine.execSpop e code s
  | .disp e => Sys2Proof.Machine.execDisp e s
  | .reti e => Sys2Proof.Machine.execReti e s
  | .add e dd da b => Sys2Proof.Machine.execAdd e dd da b s
  | .sub e dd da b => Sys2Proof.Machine.execSub e dd da b s
  | .adds e dd da b => Sys2Proof.Machine.execAdds e dd da b s
  | .subs e dd da b => Sys2Proof.Machine.execSubs e dd da b s
  | .rsub e dd da b => Sys2Proof.Machine.execRsub e dd da b s
  | .and e dd da b => Sys2Proof.Machine.execAnd e dd da b s
  | .or e dd da b => Sys2Proof.Machine.execOr e dd da b s
  | .xor e dd da b => Sys2Proof.Machine.execXor e dd da b s
  | .shl e dd da b => Sys2Proof.Machine.execShl e dd da b s
  | .shr e dd da b => Sys2Proof.Machine.execShr e dd da b s
  | .asr e dd da b => Sys2Proof.Machine.execAsr e dd da b s
  | .min e dd da b => Sys2Proof.Machine.execMin e dd da b s
  | .max e dd da b => Sys2Proof.Machine.execMax e dd da b s
  | .cmp e da b => Sys2Proof.Machine.execCmp e da b s
  | .mov e dd b => Sys2Proof.Machine.execMov e dd b s
  | .abs e dd da => Sys2Proof.Machine.execAbs e dd da s
  | .neg e dd da => Sys2Proof.Machine.execNeg e dd da s
  | .ld32 e m dr => Sys2Proof.Machine.execLd32 e m dr s
  | .st32 e m dr => Sys2Proof.Machine.execSt32 e m dr s
  | .lda e m ac => Sys2Proof.Machine.execLda e m ac s
  | .sta64 e m ac sh rnd => Sys2Proof.Machine.execSta64 e m ac sh rnd s
  | .sta32 e m ac sh rnd => Sys2Proof.Machine.execSta32 e m ac sh rnd s
  | .mpy e ac da db u2 x y => Sys2Proof.Machine.execMpy e ac da db u2 x y s
  | .mac e ac da db u2 x y => Sys2Proof.Machine.execMac e ac da db u2 x y s
  | .msu e ac da db u2 x y => Sys2Proof.Machine.execMsu e ac da db u2 x y s
  | .parallelMove e x y => Sys2Proof.Machine.execParallelMove e x y s
  | .tapm e ac subtract px py => Sys2Proof.Machine.execTapm e ac subtract px py s
  | .clra e ad => Sys2Proof.Machine.execClra e ad s
  | .mova e ad src => Sys2Proof.Machine.execMova e ad src s
  | .adda e ad src => Sys2Proof.Machine.execAdda e ad src s
  | .suba e ad src => Sys2Proof.Machine.execSuba e ad src s
  | .nega e ad src => Sys2Proof.Machine.execNega e ad src s
  | .shla e ad src sh => Sys2Proof.Machine.execShla e ad src sh s
  | .shra e ad src sh => Sys2Proof.Machine.execShra e ad src sh s
  | .mva e dr src sh rnd => Sys2Proof.Machine.execMva e dr src sh rnd s
  | .sout e dr src dk rnd => Sys2Proof.Machine.execSout e dr src dk rnd s
  | .ldad e ad dr sh => Sys2Proof.Machine.execLdad e ad dr sh s
  | .tsta e src => Sys2Proof.Machine.execTsta e src s
  | .br e cond tgt => Sys2Proof.Machine.execBr e cond tgt s
  | .call e cond tgt => Sys2Proof.Machine.execCall e cond tgt s
  | .loop e count fin => Sys2Proof.Machine.execLoop e count fin s
  | .farLoad e dr da => Sys2Proof.Machine.execFarLoad e dr da s
  | .farLoadArrival e => Sys2Proof.Machine.execFarLoadArrival e s
  | .farStore e dr da => Sys2Proof.Machine.execFarStore e dr da s
  | .ldi e dd v => Sys2Proof.Machine.execLdi e dd v s
  | .ldia e ad sh v => Sys2Proof.Machine.execLdia e ad sh v s
  | .brl e cond link tgt => Sys2Proof.Machine.execBrl e cond link tgt s
  | .wdog e => Sys2Proof.Machine.execWdog e s
  | .selfTestComplete e pass => Sys2Proof.Machine.execSelfTestComplete e pass s
  | .slotLanding r slot copy codeErr half => Sys2Proof.Machine.execSlotLanding r slot copy codeErr half s
  | .backstopRelease d => Sys2Proof.Machine.execBackstopRelease d s
  | .deadline d => Sys2Proof.Machine.execDeadline d s
  | .overrunFault a => Sys2Proof.Machine.execOverrunFault a s
  | .budget e => Sys2Proof.Machine.execBudget e s
  | .traceDrain => Sys2Proof.Machine.execTraceDrain s
  | .traceFreeze => Sys2Proof.Machine.execTraceFreeze s
  | .schTrcCtlFreeze => Sys2Proof.Machine.execSchTrcCtlFreeze s
  | .schTrcCtlArm => Sys2Proof.Machine.execSchTrcCtlArm s
  | .schTrcCtlRelease => Sys2Proof.Machine.execSchTrcCtlRelease s
  | .motionTakesHold a => Sys2Proof.Machine.execMotionTakesHold a s
  | .segmentEnd a => Sys2Proof.Machine.execSegmentEnd a s
  | .homingTimeout a => Sys2Proof.Machine.execHomingTimeout a s
  | .hardStopStall a => Sys2Proof.Machine.execHardStopStall a s
  | .compareFire u t => Sys2Proof.Machine.execCompareFire u t s
  | .comparePulseEnd u => Sys2Proof.Machine.execComparePulseEnd u s
  | .captureEdge c t frac rising => Sys2Proof.Machine.execCaptureEdge c t frac rising s
  | .cmpArm u => Sys2Proof.Machine.execCmpArm u s
  | .cmpDisarm u => Sys2Proof.Machine.execCmpDisarm u s
  | .cmpCapNext c => Sys2Proof.Machine.execCmpCapNext c s
  | .cmpCapArm c => Sys2Proof.Machine.execCmpCapArm c s
  | .cutOff r cont inst => Sys2Proof.Machine.execCutOff r cont inst s
  | .cycleFrameReturn p fcsOk mac header payload t frac => Sys2Proof.Machine.execCycleFrameReturn p fcsOk mac header payload t frac s
  | .dcLock => Sys2Proof.Machine.execDcLock s
  | .dcHoldover => Sys2Proof.Machine.execDcHoldover s
  | .dcRef2Switch => Sys2Proof.Machine.execDcRef2Switch s
  | .frameForward p fcsOk mac header payload resid => Sys2Proof.Machine.execFrameForward p fcsOk mac header payload resid s
  | .foreignHeadFrame r cid epoch => Sys2Proof.Machine.execForeignHeadFrame r cid epoch s
  | .portLinkUp p phyOk => Sys2Proof.Machine.execPortLinkUp p phyOk s
  | .portLinkDown p => Sys2Proof.Machine.execPortLinkDown p s
  | .linkWaitTimeout r => Sys2Proof.Machine.execLinkWaitTimeout r s
  | .scanFrameReturn r hops entries => Sys2Proof.Machine.execScanFrameReturn r hops entries s
  | .delayMeasurement r => Sys2Proof.Machine.execDelayMeasurement r s
  | .probeReturn r reverse acc maxrx => Sys2Proof.Machine.execProbeReturn r reverse acc maxrx s
  | .peerDelayRequest p id t2 t3 => Sys2Proof.Machine.execPeerDelayRequest p id t2 t3 s
  | .peerDelayResponse p id t1 t2 t3 t4 => Sys2Proof.Machine.execPeerDelayResponse p id t1 t2 t3 t4 s
  | .nodeLost r node => Sys2Proof.Machine.execNodeLost r node s
  | .identifyRepeat r node => Sys2Proof.Machine.execIdentifyRepeat r node s
  | .acycMessage r node frags => Sys2Proof.Machine.execAcycMessage r node frags s
  | .acycTimeout r node => Sys2Proof.Machine.execAcycTimeout r node s
  | .bypassTransition r closed => Sys2Proof.Machine.execBypassTransition r closed s
  | .mbxDb ifc n => Sys2Proof.Machine.execMbxDb ifc n s
  | .hifDbAll ifc mask => Sys2Proof.Machine.execHifDbAll ifc mask s
  | .mbxAck ifc n => Sys2Proof.Machine.execMbxAck ifc n s
  | .lopAck k => Sys2Proof.Machine.execLopAck k s
  | .hifTick => Sys2Proof.Machine.execHifTick s
  | .fastRead addr words => Sys2Proof.Machine.execFastRead addr words s
  | .quadRead addr words => Sys2Proof.Machine.execQuadRead addr words s
  | .write addr bytes => Sys2Proof.Machine.execWrite addr bytes s
  | .quadWrite addr bytes => Sys2Proof.Machine.execQuadWrite addr bytes s
  | .readStatus => Sys2Proof.Machine.execReadStatus s
  | .commitComplete => Sys2Proof.Machine.execCommitComplete s
  | .fwSignatureCheck => Sys2Proof.Machine.execFwSignatureCheck s
  | .fwWriteComplete => Sys2Proof.Machine.execFwWriteComplete s
  | .flashScrubComplete bad => Sys2Proof.Machine.execFlashScrubComplete bad s
  | .garbageCollection f0 f1 f2 f3 f4 => Sys2Proof.Machine.execGarbageCollection f0 f1 f2 f3 f4 s
  | .sessionTimeout => Sys2Proof.Machine.execSessionTimeout s
  | .lockoutExpiry => Sys2Proof.Machine.execLockoutExpiry s
  | .safetyChangeComplete => Sys2Proof.Machine.execSafetyChangeComplete s
  | .calibrationStepComplete p v w => Sys2Proof.Machine.execCalibrationStepComplete p v w s
  | .conversion vals chs => Sys2Proof.Machine.execConversion vals chs s
  | .ovTrip p => Sys2Proof.Machine.execOvTrip p s
  | .chopperFault p => Sys2Proof.Machine.execChopperFault p s
  | .gateDriverFault p => Sys2Proof.Machine.execGateDriverFault p s
  | .dtcEvaluation p => Sys2Proof.Machine.execDtcEvaluation p s
  | .ellipsisTorqueLimit p => Sys2Proof.Machine.execEllipsisTorqueLimit p s
  | .ellipsisLimitEnd p => Sys2Proof.Machine.execEllipsisLimitEnd p s
  | .ellipsisHwoff p => Sys2Proof.Machine.execEllipsisHwoff p s
  | .pwmValley p => Sys2Proof.Machine.execPwmValley p s
  | .stepIssue dp q => Sys2Proof.Machine.execStepIssue dp q s
  | .stepperHoldCurrent p => Sys2Proof.Machine.execStepperHoldCurrent p s
  | .stall p => Sys2Proof.Machine.execStall p s
  | .offsetCalibrationComplete p o0 o1 o2 o3 => Sys2Proof.Machine.execOffsetCalibrationComplete p o0 o1 o2 o3 s
  | .spinProbe p fe ang mag => Sys2Proof.Machine.execSpinProbe p fe ang mag s
  | .saturationTestPulse p peak readable => Sys2Proof.Machine.execSaturationTestPulse p peak readable s
  | .encoderEdge c ab z => Sys2Proof.Machine.execEncoderEdge c ab z s
  | .tick t => Sys2Proof.Machine.execTick t s
  | .refresh valid safeOk => Sys2Proof.Machine.execRefresh valid safeOk s
  | .returnLanding valid safeOk raw rb cur vfg => Sys2Proof.Machine.execReturnLanding valid safeOk raw rb cur vfg s
  | .filterOutputChange c => Sys2Proof.Machine.execFilterOutputChange c s
  | .debounceAccept c t frac lvl => Sys2Proof.Machine.execDebounceAccept c t frac lvl s
  | .wireBreak c => Sys2Proof.Machine.execWireBreak c s
  | .wireBreakClear c => Sys2Proof.Machine.execWireBreakClear c s
  | .externalDrive c => Sys2Proof.Machine.execExternalDrive c s
  | .externalDriveClear c => Sys2Proof.Machine.execExternalDriveClear c s
  | .outputTestPulse c last rbHigh => Sys2Proof.Machine.execOutputTestPulse c last rbHigh s
  | .currentLimit c limiting => Sys2Proof.Machine.execCurrentLimit c limiting s
  | .thermalShutdown c => Sys2Proof.Machine.execThermalShutdown c s
  | .thermalRestart c => Sys2Proof.Machine.execThermalRestart c s
  | .groupOvercurrent g => Sys2Proof.Machine.execGroupOvercurrent g s
  | .supplyWarning g => Sys2Proof.Machine.execSupplyWarning g s
  | .supplyWarningClear g => Sys2Proof.Machine.execSupplyWarningClear g s
  | .undervoltage g => Sys2Proof.Machine.execUndervoltage g s
  | .undervoltageRecovery g => Sys2Proof.Machine.execUndervoltageRecovery g s
  | .silence => Sys2Proof.Machine.execSilence s
  | .fieldLinkLoss => Sys2Proof.Machine.execFieldLinkLoss s
  | .fieldDieStart => Sys2Proof.Machine.execFieldDieStart s
  | .fieldDieStop => Sys2Proof.Machine.execFieldDieStop s
  | .thresholdTrim c ok => Sys2Proof.Machine.execThresholdTrim c ok s
  | .safeSample j path2 => Sys2Proof.Machine.execSafeSample j path2 s
  | .watchdogExpiry => Sys2Proof.Machine.execWatchdogExpiry s
  | .ss1Expiry g => Sys2Proof.Machine.execSs1Expiry g s
  | .discrepancyFault k => Sys2Proof.Machine.execDiscrepancyFault k s
  | .fstopNLow => Sys2Proof.Machine.execFstopNLow s
  | .fullStopEnd => Sys2Proof.Machine.execFullStopEnd s
  | .fullStopReleaseTimeout => Sys2Proof.Machine.execFullStopReleaseTimeout s
  | .safeTestPulse k last rbHigh => Sys2Proof.Machine.execSafeTestPulse k last rbHigh s
  | .proofStep k rbHigh senseHigh => Sys2Proof.Machine.execProofStep k rbHigh senseHigh s
  | .proofDue => Sys2Proof.Machine.execProofDue s
  | .containerLanding c bytes => Sys2Proof.Machine.execContainerLanding c bytes s
  | .connectionWatchdog c => Sys2Proof.Machine.execConnectionWatchdog c s
  | .fioOutSet mask => Sys2Proof.Machine.execFioOutSet mask s
  | .fioOutClr mask => Sys2Proof.Machine.execFioOutClr mask s
  | .laneLost l => Sys2Proof.Machine.execLaneLost l s
  | .journalEntry mb tag opc accept bytes => Sys2Proof.Machine.execJournalEntry mb tag opc accept bytes s
  | .digestComparison f par stMap fbMap => Sys2Proof.Machine.execDigestComparison f par stMap fbMap s
  | .onesidedCopy a words => Sys2Proof.Machine.execOnesidedCopy a words s
  | .verdict own par failStep => Sys2Proof.Machine.execVerdict own par failStep s
  | .verdictTimeout own => Sys2Proof.Machine.execVerdictTimeout own s
  | .periodicSelfDiagnosis pass => Sys2Proof.Machine.execPeriodicSelfDiagnosis pass s
  | .switchOver => Sys2Proof.Machine.execSwitchOver s
  | .handover => Sys2Proof.Machine.execHandover s
  | .standstill => Sys2Proof.Machine.execStandstill s
  | .rejoinTransferComplete backlog => Sys2Proof.Machine.execRejoinTransferComplete backlog s
  | .replayComplete => Sys2Proof.Machine.execReplayComplete s
  | .rejoinConfirmed => Sys2Proof.Machine.execRejoinConfirmed s
  | .scrub arr => Sys2Proof.Machine.execScrub arr s
  | .converterCalibration ch ofs gain stale => Sys2Proof.Machine.execConverterCalibration ch ofs gain stale s
  | .telemetryMeasurement temps rails eyeH eyeV => Sys2Proof.Machine.execTelemetryMeasurement temps rails eyeH eyeV s
  | .clockLoss src => Sys2Proof.Machine.execClockLoss src s
  | .injection slot => Sys2Proof.Machine.execInjection slot s
  | .standbyEntry => Sys2Proof.Machine.execStandbyEntry s
  | .standbyExitComplete => Sys2Proof.Machine.execStandbyExitComplete s
  | .wake cause => Sys2Proof.Machine.execWake cause s
  | .vinLoss => Sys2Proof.Machine.execVinLoss s
  | .powerOnReset held => Sys2Proof.Machine.execPowerOnReset held s
  | .rstN low hsel => Sys2Proof.Machine.execRstN low hsel s
  | .conjunctionReset => Sys2Proof.Machine.execConjunctionReset s
  | .firmwareWatchdog => Sys2Proof.Machine.execFirmwareWatchdog s
  | .hostSideReset => Sys2Proof.Machine.execHostSideReset s
  | .boot us => Sys2Proof.Machine.execBoot us s
  | .tapBypass => Sys2Proof.Machine.execTapBypass s
  | .idcode => Sys2Proof.Machine.execIdcode s
  | .samplePreload pins => Sys2Proof.Machine.execSamplePreload pins s
  | .extest => Sys2Proof.Machine.execExtest s
  | .clamp => Sys2Proof.Machine.execClamp s
  | .highz => Sys2Proof.Machine.execHighz s
  | .dbgChal => Sys2Proof.Machine.execDbgChal s
  | .dbgToken bytes => Sys2Proof.Machine.execDbgToken bytes s
  | .dbgAccessRead level sp addr => Sys2Proof.Machine.execDbgAccessRead level sp addr s
  | .dbgAccessWrite sp addr v => Sys2Proof.Machine.execDbgAccessWrite sp addr v s
  | .coreHalt core => Sys2Proof.Machine.execCoreHalt core s
  | .coreStep core => Sys2Proof.Machine.execCoreStep core s
  | .breakpointHit core => Sys2Proof.Machine.execBreakpointHit core s
  | .trstN => Sys2Proof.Machine.execTrstN s
  | .registerRead ifc addr size => Sys2Proof.Machine.execRegisterRead ifc addr size s
  | .pciePowerState d3hot => Sys2Proof.Machine.execPciePowerState d3hot s
  | .laneRestored l => Sys2Proof.Machine.execLaneRestored l s
  | .clockRestored src => Sys2Proof.Machine.execClockRestored src s
  | .mgmtLockstepMismatch => Sys2Proof.Machine.execMgmtLockstepMismatch s
  | .expectedFrameMissing r => Sys2Proof.Machine.execExpectedFrameMissing r s
  | .journalCompletion mb tag status reason opc handle bytes => Sys2Proof.Machine.execJournalCompletion mb tag status reason opc handle bytes s
  | .echo mb => Sys2Proof.Machine.execEcho mb s
  | .getInfo mb => Sys2Proof.Machine.execGetInfo mb s
  | .lopSuspend mb => Sys2Proof.Machine.execLopSuspend mb s
  | .lopResume mb => Sys2Proof.Machine.execLopResume mb s
  | .lopCancel mb => Sys2Proof.Machine.execLopCancel mb s
  | .tagReset mb => Sys2Proof.Machine.execTagReset mb s
  | .winRead mb => Sys2Proof.Machine.execWinRead mb s
  | .winWrite mb => Sys2Proof.Machine.execWinWrite mb s
  | .axisConfigure mb => Sys2Proof.Machine.execAxisConfigure mb s
  | .axisDeconfigure mb => Sys2Proof.Machine.execAxisDeconfigure mb s
  | .axisEnable mb => Sys2Proof.Machine.execAxisEnable mb s
  | .axisDisable mb => Sys2Proof.Machine.execAxisDisable mb s
  | .axisFaultReset mb => Sys2Proof.Machine.execAxisFaultReset mb s
  | .axisFaultRaise mb => Sys2Proof.Machine.execAxisFaultRaise mb s
  | .axisReactions mb => Sys2Proof.Machine.execAxisReactions mb s
  | .recRead mb => Sys2Proof.Machine.execRecRead mb s
  | .recWrite mb => Sys2Proof.Machine.execRecWrite mb s
  | .secRecipe mb => Sys2Proof.Machine.execSecRecipe mb s
  | .grpRead mb => Sys2Proof.Machine.execGrpRead mb s
  | .grpWrite mb => Sys2Proof.Machine.execGrpWrite mb s
  | .lffWrite mb => Sys2Proof.Machine.execLffWrite mb s
  | .lffClear mb => Sys2Proof.Machine.execLffClear mb s
  | .lffExport mb => Sys2Proof.Machine.execLffExport mb s
  | .lffImport mb => Sys2Proof.Machine.execLffImport mb s
  | .probeAlloc mb => Sys2Proof.Machine.execProbeAlloc mb s
  | .sweepStart mb => Sys2Proof.Machine.execSweepStart mb s
  | .codeLoad mb => Sys2Proof.Machine.execCodeLoad mb s
  | .descWrite mb => Sys2Proof.Machine.execDescWrite mb s
  | .schConfig mb => Sys2Proof.Machine.execSchConfig mb s
  | .move mb => Sys2Proof.Machine.execMove mb s
  | .stop mb => Sys2Proof.Machine.execStop mb s
  | .segAppend mb => Sys2Proof.Machine.execSegAppend mb s
  | .tableStart mb => Sys2Proof.Machine.execTableStart mb s
  | .homeStart mb => Sys2Proof.Machine.execHomeStart mb s
  | .cmpConfig mb => Sys2Proof.Machine.execCmpConfig mb s
  | .cmpListWrite mb => Sys2Proof.Machine.execCmpListWrite mb s
  | .capConfig mb => Sys2Proof.Machine.execCapConfig mb s
  | .ringConfig mb => Sys2Proof.Machine.execRingConfig mb s
  | .ringStop mb => Sys2Proof.Machine.execRingStop mb s
  | .acyc mb => Sys2Proof.Machine.execAcyc mb s
  | .bypass mb => Sys2Proof.Machine.execBypass mb s
  | .topoRead mb => Sys2Proof.Machine.execTopoRead mb s
  | .modeSwitch mb => Sys2Proof.Machine.execModeSwitch mb s
  | .cfgCommit mb => Sys2Proof.Machine.execCfgCommit mb s
  | .fwUpdate mb => Sys2Proof.Machine.execFwUpdate mb s
  | .fwData mb => Sys2Proof.Machine.execFwData mb s
  | .flashScrub mb => Sys2Proof.Machine.execFlashScrub mb s
  | .safetyLogin mb => Sys2Proof.Machine.execSafetyLogin mb s
  | .safetyLogout mb => Sys2Proof.Machine.execSafetyLogout mb s
  | .passwordSet mb => Sys2Proof.Machine.execPasswordSet mb s
  | .ovlWrite mb => Sys2Proof.Machine.execOvlWrite mb s
  | .ovlRead mb => Sys2Proof.Machine.execOvlRead mb s
  | .ovlClear mb => Sys2Proof.Machine.execOvlClear mb s
  | .logRead mb => Sys2Proof.Machine.execLogRead mb s
  | .drvConfig mb => Sys2Proof.Machine.execDrvConfig mb s
  | .ptgConfig mb => Sys2Proof.Machine.execPtgConfig mb s
  | .calStart mb => Sys2Proof.Machine.execCalStart mb s
  | .drvClear mb => Sys2Proof.Machine.execDrvClear mb s
  | .encConfig mb => Sys2Proof.Machine.execEncConfig mb s
  | .fioConfig mb => Sys2Proof.Machine.execFioConfig mb s
  | .fioOut mb => Sys2Proof.Machine.execFioOut mb s
  | .fioClear mb => Sys2Proof.Machine.execFioClear mb s
  | .safeParamWrite mb => Sys2Proof.Machine.execSafeParamWrite mb s
  | .safeParamCommit mb => Sys2Proof.Machine.execSafeParamCommit mb s
  | .safeReset mb => Sys2Proof.Machine.execSafeReset mb s
  | .safeTest mb => Sys2Proof.Machine.execSafeTest mb s
  | .fullStop mb => Sys2Proof.Machine.execFullStop mb s
  | .fullStopRelease mb => Sys2Proof.Machine.execFullStopRelease mb s
  | .pairConfig mb => Sys2Proof.Machine.execPairConfig mb s
  | .pairRejoin mb => Sys2Proof.Machine.execPairRejoin mb s
  | .pairHandover mb => Sys2Proof.Machine.execPairHandover mb s
  | .pairTakeback mb => Sys2Proof.Machine.execPairTakeback mb s
  | .pairUnpair mb => Sys2Proof.Machine.execPairUnpair mb s
  | .injArm mb => Sys2Proof.Machine.execInjArm mb s
  | .injDisarm mb => Sys2Proof.Machine.execInjDisarm mb s
  | .evlogRead mb => Sys2Proof.Machine.execEvlogRead mb s
  | .telConfig mb => Sys2Proof.Machine.execTelConfig mb s
  | .pwrStateSet mb => Sys2Proof.Machine.execPwrStateSet mb s
  | .pwrReset mb => Sys2Proof.Machine.execPwrReset mb s
  | .pwrConfig mb => Sys2Proof.Machine.execPwrConfig mb s
  | .secProvision mb => Sys2Proof.Machine.execSecProvision mb s
  | .secSeal mb => Sys2Proof.Machine.execSecSeal mb s
  | .secToken mb => Sys2Proof.Machine.execSecToken mb s
  | .secRevoke mb => Sys2Proof.Machine.execSecRevoke mb s
  | .secPwClear mb => Sys2Proof.Machine.execSecPwClear mb s
  | .secAttest mb => Sys2Proof.Machine.execSecAttest mb s

end Sys2Proof.Machine
end

