-- ==== Sys2Proof/WellFormed.lean ====
section
/-! DEFINITION. Which commands are well formed: every operand in the range that the spec gives it. -/

namespace Sys2Proof

/-- Every element is a byte. -/
def bytesOk (l : List Nat) : Bool := l.all fun b => decide (b < 256)

/-- The bytes of a frame up to its FCS: addresses and EtherType, the Nirte header from VER to its reserved word, the payload, at most
what a frame of 8218 wire bytes holds (R205, R212, R213). -/
def frameWf (mac header payload : List Nat) : Bool :=
  decide (mac.length = 14) && decide (header.length = 64) && decide (payload.length ≤ 8128) && bytesOk (mac ++ header ++ payload)

/-- A second ALU operand (R113, R119). -/
def AluB.wf : AluB → Bool
  | .reg k => decide (k < 16)
  | .imm v => decide (v < 32768)

/-- A data access with an immediate of `w` bits, two's complement (R113). -/
def MemRef.wf (m : MemRef) (w : Nat) : Bool :=
  decide (m.p < 8) && decide (m.am < 4) && decide (-(2 ^ (w - 1) : Int) ≤ m.imm) && decide (m.imm < (2 ^ (w - 1) : Int))

/-- A second MAC unit (R115). -/
def MacUnit.wf (u : MacUnit) : Bool := decide (u.op < 3) && decide (u.ac < 4) && decide (u.da < 8) && decide (u.db < 8)

/-- An X move (R113). -/
def XMove.wf (x : XMove) : Bool := decide (x.dx < 8) && decide (x.px < 4)

/-- A Y move (R113). -/
def YMove.wf (y : YMove) : Bool := (if y.wide then decide (y.dst < 4) else decide (y.dst < 8)) && decide (y.py < 4) && decide (y.my < 4)

/-- A branch target (R118). -/
def BrTgt.wf : BrTgt → Bool
  | .ofs w => decide (-32768 ≤ w) && decide (w < 32768)
  | .ind k => decide (k < 16)

/-- A debug space (R482). -/
def DbgSpace.wf : DbgSpace → Bool
  | .engX e => decide (e < 16)
  | .engY e => decide (e < 16)
  | .engP e => decide (e < 16)
  | _ => true

/-- A command is well formed. -/
def Instr.wf : Instr → Bool
  | .reg64LowRead _ addr => decide (addr < 2 ^ 24)
  | .reg64HighWrite _ addr v => decide (addr < 2 ^ 24) && decide (v < 2 ^ 32)
  | .reg64LowWrite _ addr v => decide (addr < 2 ^ 24) && decide (v < 2 ^ 32)
  | .pcie64Read _ addr => decide (addr < 2 ^ 24)
  | .pcie64Write _ addr v => decide (addr < 2 ^ 24) && decide (v < 2 ^ 64)
  | .w1cWrite _ addr v hw => decide (addr < 2 ^ 24) && decide (v < 2 ^ 32) && decide (hw < 2 ^ 32)
  | .rcRead _ addr _ => decide (addr < 2 ^ 24)
  | .registerWrite _ addr bytes => decide (addr < 2 ^ 24) && bytesOk bytes
  | .boundary t n => decide (t < 2 ^ 64) && decide (n < 2 ^ 64)
  | .overlaySwap => true
  | .statisticsLatch => true
  | .enableTimeout a => decide (a < 256)
  | .stopHold a => decide (a < 256)
  | .brakeEngageDelay a => decide (a < 256)
  | .stopTimeout a => decide (a < 256)
  | .frstTimeout a => decide (a < 256)
  | .axisLoop a => decide (a < 256)
  | .feTimed a => decide (a < 256)
  | .positionPart a => decide (a < 256)
  | .groupClause g => decide (g < 32)
  | .velocityPart a => decide (a < 256)
  | .trajectoryStep a => decide (a < 256)
  | .supervision r => decide (r < 3)
  | .learningUpdate tb => decide (tb < 64)
  | .tuningCapture ch => decide (ch < 32)
  | .trackerRetune a k => decide (a < 256) && decide (k < 2)
  | .sweepComplete ch => decide (ch < 32)
  | .recordLoadDone e => decide (e < 16)
  | .clauseDispatch => true
  | .preemption e => decide (e < 16)
  | .nop e => decide (e < 16)
  | .done e => decide (e < 16)
  | .pub e dr w => decide (e < 16) && decide (dr < 16) && decide (w < 4)
  | .prot e n => decide (e < 16) && decide (n < 16)
  | .brkl e => decide (e < 16)
  | .mvfs e dr code => decide (e < 16) && decide (dr < 16) && decide (code < 64)
  | .mvts e code dr => decide (e < 16) && decide (code < 64) && decide (dr < 16)
  | .spush e code => decide (e < 16) && decide (code < 64)
  | .spop e code => decide (e < 16) && decide (code < 64)
  | .disp e => decide (e < 16)
  | .reti e => decide (e < 16)
  | .add e dd da b => decide (e < 16) && decide (dd < 16) && decide (da < 16) && b.wf
  | .sub e dd da b => decide (e < 16) && decide (dd < 16) && decide (da < 16) && b.wf
  | .adds e dd da b => decide (e < 16) && decide (dd < 16) && decide (da < 16) && b.wf
  | .subs e dd da b => decide (e < 16) && decide (dd < 16) && decide (da < 16) && b.wf
  | .rsub e dd da b => decide (e < 16) && decide (dd < 16) && decide (da < 16) && b.wf
  | .and e dd da b => decide (e < 16) && decide (dd < 16) && decide (da < 16) && b.wf
  | .or e dd da b => decide (e < 16) && decide (dd < 16) && decide (da < 16) && b.wf
  | .xor e dd da b => decide (e < 16) && decide (dd < 16) && decide (da < 16) && b.wf
  | .shl e dd da b => decide (e < 16) && decide (dd < 16) && decide (da < 16) && b.wf
  | .shr e dd da b => decide (e < 16) && decide (dd < 16) && decide (da < 16) && b.wf
  | .asr e dd da b => decide (e < 16) && decide (dd < 16) && decide (da < 16) && b.wf
  | .min e dd da b => decide (e < 16) && decide (dd < 16) && decide (da < 16) && b.wf
  | .max e dd da b => decide (e < 16) && decide (dd < 16) && decide (da < 16) && b.wf
  | .cmp e da b => decide (e < 16) && decide (da < 16) && b.wf
  | .mov e dd b => decide (e < 16) && decide (dd < 16) && b.wf
  | .abs e dd da => decide (e < 16) && decide (dd < 16) && decide (da < 16)
  | .neg e dd da => decide (e < 16) && decide (dd < 16) && decide (da < 16)
  | .ld32 e m dr => decide (e < 16) && m.wf 16 && decide (dr < 16)
  | .st32 e m dr => decide (e < 16) && m.wf 16 && decide (dr < 16)
  | .lda e m ac => decide (e < 16) && m.wf 11 && decide (ac < 4)
  | .sta64 e m ac sh _ => decide (e < 16) && m.wf 11 && decide (ac < 4) && decide (sh < 64)
  | .sta32 e m ac sh _ => decide (e < 16) && m.wf 11 && decide (ac < 4) && decide (sh < 64)
  | .mpy e ac da db u2 x y => decide (e < 16) && decide (ac < 4) && decide (da < 8) && decide (db < 8) && u2.all (·.wf) && x.all (·.wf) && y.all (·.wf)
  | .mac e ac da db u2 x y => decide (e < 16) && decide (ac < 4) && decide (da < 8) && decide (db < 8) && u2.all (·.wf) && x.all (·.wf) && y.all (·.wf)
  | .msu e ac da db u2 x y => decide (e < 16) && decide (ac < 4) && decide (da < 8) && decide (db < 8) && u2.all (·.wf) && x.all (·.wf) && y.all (·.wf)
  | .parallelMove e x y => decide (e < 16) && x.all (·.wf) && y.all (·.wf)
  | .tapm e ac _ px py => decide (e < 16) && decide (ac < 4) && decide (px < 4) && decide (py < 4)
  | .clra e ad => decide (e < 16) && decide (ad < 4)
  | .mova e ad src => decide (e < 16) && decide (ad < 4) && decide (src < 4)
  | .adda e ad src => decide (e < 16) && decide (ad < 4) && decide (src < 4)
  | .suba e ad src => decide (e < 16) && decide (ad < 4) && decide (src < 4)
  | .nega e ad src => decide (e < 16) && decide (ad < 4) && decide (src < 4)
  | .shla e ad src sh => decide (e < 16) && decide (ad < 4) && decide (src < 4) && decide (sh < 64)
  | .shra e ad src sh => decide (e < 16) && decide (ad < 4) && decide (src < 4) && decide (sh < 64)
  | .mva e dr src sh _ => decide (e < 16) && decide (dr < 16) && decide (src < 4) && decide (sh < 64)
  | .sout e dr src dk _ => decide (e < 16) && decide (dr < 16) && decide (src < 4) && decide (dk < 16)
  | .ldad e ad dr sh => decide (e < 16) && decide (ad < 4) && decide (dr < 16) && decide (sh < 64)
  | .tsta e src => decide (e < 16) && decide (src < 4)
  | .br e cond tgt => decide (e < 16) && decide (cond < 11) && tgt.wf
  | .call e cond tgt => decide (e < 16) && decide (cond < 11) && tgt.wf
  | .loop e count fin => decide (e < 16) && count.wf && decide (fin < 65536)
  | .farLoad e dr da => decide (e < 16) && decide (dr < 16) && decide (da < 16)
  | .farLoadArrival e => decide (e < 16)
  | .farStore e dr da => decide (e < 16) && decide (dr < 16) && decide (da < 16)
  | .ldi e dd v => decide (e < 16) && decide (dd < 16) && decide (v < 2 ^ 32)
  | .ldia e ad sh v => decide (e < 16) && decide (ad < 4) && decide (sh < 64) && decide (v < 2 ^ 32)
  | .brl e cond _ tgt => decide (e < 16) && decide (cond < 11) && decide (tgt < 65536)
  | .wdog e => decide (e < 16)
  | .selfTestComplete e _ => decide (e < 16)
  | .slotLanding r slot _ _ half => decide (r < 2) && decide (slot < 256) && bytesOk half
  | .backstopRelease d => decide (d < 1024)
  | .deadline d => decide (d < 1024)
  | .overrunFault a => decide (a < 256)
  | .budget e => decide (e < 16)
  | .traceDrain => true
  | .traceFreeze => true
  | .schTrcCtlFreeze => true
  | .schTrcCtlArm => true
  | .schTrcCtlRelease => true
  | .motionTakesHold a => decide (a < 256)
  | .segmentEnd a => decide (a < 256)
  | .homingTimeout a => decide (a < 256)
  | .hardStopStall a => decide (a < 256)
  | .compareFire u t => decide (u < 32) && decide (t < 2 ^ 64)
  | .comparePulseEnd u => decide (u < 32)
  | .captureEdge c t frac _ => decide (c < 32) && decide (t < 2 ^ 64) && decide (frac < 65536)
  | .cmpArm u => decide (u < 32)
  | .cmpDisarm u => decide (u < 32)
  | .cmpCapNext c => decide (c < 32)
  | .cmpCapArm c => decide (c < 32)
  | .cutOff r _ inst => decide (r < 2) && decide (inst < 256)
  | .cycleFrameReturn p _ eth header payload _ frac => decide (p < 4) && frameWf eth header payload && decide (frac < 65536)
  | .dcLock => true
  | .dcHoldover => true
  | .dcRef2Switch => true
  | .frameForward p _ eth header payload _ => decide (p < 4) && frameWf eth header payload
  | .foreignHeadFrame r cid epoch => decide (r < 2) && decide (cid < 2 ^ 32) && decide (epoch < 65536)
  | .portLinkUp p _ => decide (p < 4)
  | .portLinkDown p => decide (p < 4)
  | .linkWaitTimeout r => decide (r < 2)
  | .scanFrameReturn r hops _ => decide (r < 2) && decide (hops < 65536)
  | .delayMeasurement r => decide (r < 2)
  | .probeReturn r _ _ _ => decide (r < 2)
  | .peerDelayRequest p id _ _ => decide (p < 4) && decide (id < 65536)
  | .peerDelayResponse p id _ _ _ _ => decide (p < 4) && decide (id < 65536)
  | .nodeLost r node => decide (r < 2) && decide (node < 4096)
  | .identifyRepeat r node => decide (r < 2) && decide (node < 4096)
  | .acycMessage r node frags => decide (r < 2) && decide (node < 4096) && frags.all fun f => decide (f.1 < 65536) && bytesOk f.2
  | .acycTimeout r node => decide (r < 2) && decide (node < 4096)
  | .bypassTransition r _ => decide (r < 2)
  | .mbxDb _ n => decide (n < 32)
  | .hifDbAll _ mask => decide (mask < 2 ^ 32)
  | .mbxAck _ n => decide (n < 32)
  | .lopAck k => decide (k < 32)
  | .hifTick => true
  | .fastRead addr _ => decide (addr < 2 ^ 24)
  | .quadRead addr _ => decide (addr < 2 ^ 24)
  | .write addr bytes => decide (addr < 2 ^ 24) && bytesOk bytes
  | .quadWrite addr bytes => decide (addr < 2 ^ 24) && bytesOk bytes
  | .readStatus => true
  | .commitComplete => true
  | .fwSignatureCheck => true
  | .fwWriteComplete => true
  | .flashScrubComplete _ => true
  | .garbageCollection _ _ _ _ _ => true
  | .sessionTimeout => true
  | .lockoutExpiry => true
  | .safetyChangeComplete => true
  | .calibrationStepComplete p v w => decide (p < 8) && decide (v < 2 ^ 32) && decide (w < 2 ^ 32)
  | .conversion _ _ => true
  | .ovTrip p => decide (p < 8)
  | .chopperFault p => decide (p < 8)
  | .gateDriverFault p => decide (p < 8)
  | .dtcEvaluation p => decide (p < 8)
  | .ellipsisTorqueLimit p => decide (p < 8)
  | .ellipsisLimitEnd p => decide (p < 8)
  | .ellipsisHwoff p => decide (p < 8)
  | .pwmValley p => decide (p < 8)
  | .stepIssue dp q => (if dp then decide (q < 8) else decide (q < 16))
  | .stepperHoldCurrent p => decide (p < 8)
  | .stall p => decide (p < 8)
  | .offsetCalibrationComplete p o0 o1 o2 o3 => decide (p < 8) && [o0, o1, o2, o3].all fun o => decide (o < 65536)
  | .spinProbe p _ ang _ => decide (p < 8) && decide (ang < 65536)
  | .saturationTestPulse p _ _ => decide (p < 8)
  | .encoderEdge c ab _ => decide (c < 8) && decide (ab < 4)
  | .tick t => decide (t < 2 ^ 64)
  | .refresh _ _ => true
  | .returnLanding _ _ raw rb _ _ => decide (raw < 2 ^ 32) && decide (rb < 2 ^ 32)
  | .filterOutputChange c => decide (c < 32)
  | .debounceAccept c t frac _ => decide (c < 8) && decide (t < 2 ^ 64) && decide (frac < 65536)
  | .wireBreak c => decide (c < 32)
  | .wireBreakClear c => decide (c < 32)
  | .externalDrive c => decide (c < 32)
  | .externalDriveClear c => decide (c < 32)
  | .outputTestPulse c _ _ => decide (c < 32)
  | .currentLimit c _ => decide (c < 32)
  | .thermalShutdown c => decide (c < 32)
  | .thermalRestart c => decide (c < 32)
  | .groupOvercurrent g => decide (g < 4)
  | .supplyWarning g => decide (g < 4)
  | .supplyWarningClear g => decide (g < 4)
  | .undervoltage g => decide (g < 4)
  | .undervoltageRecovery g => decide (g < 4)
  | .silence => true
  | .fieldLinkLoss => true
  | .fieldDieStart => true
  | .fieldDieStop => true
  | .thresholdTrim c _ => decide (c < 32)
  | .safeSample j _ => decide (j < 2 ^ 64)
  | .watchdogExpiry => true
  | .ss1Expiry g => decide (g < 17)
  | .discrepancyFault k => decide (k < 4)
  | .fstopNLow => true
  | .fullStopEnd => true
  | .fullStopReleaseTimeout => true
  | .safeTestPulse k _ _ => decide (k < 4)
  | .proofStep k _ _ => decide (k < 4)
  | .proofDue => true
  | .containerLanding c bytes => decide (c < 64) && bytesOk bytes
  | .connectionWatchdog c => decide (c < 64)
  | .fioOutSet mask => decide (mask < 2 ^ 32)
  | .fioOutClr mask => decide (mask < 2 ^ 32)
  | .laneLost l => decide (l < 2)
  | .journalEntry mb tag opc accept bytes => decide (mb < 32) && decide (tag < 65536) && decide (opc < 65536) && decide (accept < 2 ^ 64) && bytesOk bytes
  | .digestComparison f _ _ _ => decide (f < 2 ^ 64)
  | .onesidedCopy a _ => decide (a < 256)
  | .verdict _ _ _ => true
  | .verdictTimeout _ => true
  | .periodicSelfDiagnosis _ => true
  | .switchOver => true
  | .handover => true
  | .standstill => true
  | .rejoinTransferComplete _ => true
  | .replayComplete => true
  | .rejoinConfirmed => true
  | .scrub arr => decide (arr < 10)
  | .converterCalibration ch _ _ _ => decide (ch < 48)
  | .telemetryMeasurement _ _ _ _ => true
  | .clockLoss src => decide (src < 6)
  | .injection slot => decide (slot < 8)
  | .standbyEntry => true
  | .standbyExitComplete => true
  | .wake cause => decide (cause < 5)
  | .vinLoss => true
  | .powerOnReset _ => true
  | .rstN _ hsel => decide (hsel < 4)
  | .conjunctionReset => true
  | .firmwareWatchdog => true
  | .hostSideReset => true
  | .boot us => decide (us < 2 ^ 32)
  | .tapBypass => true
  | .idcode => true
  | .samplePreload pins => decide (pins < 2 ^ 64)
  | .extest => true
  | .clamp => true
  | .highz => true
  | .dbgChal => true
  | .dbgToken bytes => bytesOk bytes
  | .dbgAccessRead level sp addr => decide (level < 4) && sp.wf && decide (addr < 2 ^ 32)
  | .dbgAccessWrite sp addr v => sp.wf && decide (addr < 2 ^ 32) && decide (v < 2 ^ 32)
  | .coreHalt core => decide (core < 18)
  | .coreStep core => decide (core < 18)
  | .breakpointHit core => decide (core < 18)
  | .trstN => true
  | .registerRead _ addr _ => decide (addr < 2 ^ 24)
  | .pciePowerState _ => true
  | .laneRestored l => decide (l < 2)
  | .clockRestored src => decide (src < 6)
  | .mgmtLockstepMismatch => true
  | .expectedFrameMissing r => decide (r < 2)
  | .journalCompletion mb tag status reason opc handle bytes => decide (mb < 32) && decide (tag < 65536) && decide (status < 8) && decide (reason < 65536) && decide (opc < 65536) && decide (handle < 65536) && bytesOk bytes
  | .echo mb => decide (mb < 32)
  | .getInfo mb => decide (mb < 32)
  | .lopSuspend mb => decide (mb < 32)
  | .lopResume mb => decide (mb < 32)
  | .lopCancel mb => decide (mb < 32)
  | .tagReset mb => decide (mb < 32)
  | .winRead mb => decide (mb < 32)
  | .winWrite mb => decide (mb < 32)
  | .axisConfigure mb => decide (mb < 32)
  | .axisDeconfigure mb => decide (mb < 32)
  | .axisEnable mb => decide (mb < 32)
  | .axisDisable mb => decide (mb < 32)
  | .axisFaultReset mb => decide (mb < 32)
  | .axisFaultRaise mb => decide (mb < 32)
  | .axisReactions mb => decide (mb < 32)
  | .recRead mb => decide (mb < 32)
  | .recWrite mb => decide (mb < 32)
  | .secRecipe mb => decide (mb < 32)
  | .grpRead mb => decide (mb < 32)
  | .grpWrite mb => decide (mb < 32)
  | .lffWrite mb => decide (mb < 32)
  | .lffClear mb => decide (mb < 32)
  | .lffExport mb => decide (mb < 32)
  | .lffImport mb => decide (mb < 32)
  | .probeAlloc mb => decide (mb < 32)
  | .sweepStart mb => decide (mb < 32)
  | .codeLoad mb => decide (mb < 32)
  | .descWrite mb => decide (mb < 32)
  | .schConfig mb => decide (mb < 32)
  | .move mb => decide (mb < 32)
  | .stop mb => decide (mb < 32)
  | .segAppend mb => decide (mb < 32)
  | .tableStart mb => decide (mb < 32)
  | .homeStart mb => decide (mb < 32)
  | .cmpConfig mb => decide (mb < 32)
  | .cmpListWrite mb => decide (mb < 32)
  | .capConfig mb => decide (mb < 32)
  | .ringConfig mb => decide (mb < 32)
  | .ringStop mb => decide (mb < 32)
  | .acyc mb => decide (mb < 32)
  | .bypass mb => decide (mb < 32)
  | .topoRead mb => decide (mb < 32)
  | .modeSwitch mb => decide (mb < 32)
  | .cfgCommit mb => decide (mb < 32)
  | .fwUpdate mb => decide (mb < 32)
  | .fwData mb => decide (mb < 32)
  | .flashScrub mb => decide (mb < 32)
  | .safetyLogin mb => decide (mb < 32)
  | .safetyLogout mb => decide (mb < 32)
  | .passwordSet mb => decide (mb < 32)
  | .ovlWrite mb => decide (mb < 32)
  | .ovlRead mb => decide (mb < 32)
  | .ovlClear mb => decide (mb < 32)
  | .logRead mb => decide (mb < 32)
  | .drvConfig mb => decide (mb < 32)
  | .ptgConfig mb => decide (mb < 32)
  | .calStart mb => decide (mb < 32)
  | .drvClear mb => decide (mb < 32)
  | .encConfig mb => decide (mb < 32)
  | .fioConfig mb => decide (mb < 32)
  | .fioOut mb => decide (mb < 32)
  | .fioClear mb => decide (mb < 32)
  | .safeParamWrite mb => decide (mb < 32)
  | .safeParamCommit mb => decide (mb < 32)
  | .safeReset mb => decide (mb < 32)
  | .safeTest mb => decide (mb < 32)
  | .fullStop mb => decide (mb < 32)
  | .fullStopRelease mb => decide (mb < 32)
  | .pairConfig mb => decide (mb < 32)
  | .pairRejoin mb => decide (mb < 32)
  | .pairHandover mb => decide (mb < 32)
  | .pairTakeback mb => decide (mb < 32)
  | .pairUnpair mb => decide (mb < 32)
  | .injArm mb => decide (mb < 32)
  | .injDisarm mb => decide (mb < 32)
  | .evlogRead mb => decide (mb < 32)
  | .telConfig mb => decide (mb < 32)
  | .pwrStateSet mb => decide (mb < 32)
  | .pwrReset mb => decide (mb < 32)
  | .pwrConfig mb => decide (mb < 32)
  | .secProvision mb => decide (mb < 32)
  | .secSeal mb => decide (mb < 32)
  | .secToken mb => decide (mb < 32)
  | .secRevoke mb => decide (mb < 32)
  | .secPwClear mb => decide (mb < 32)
  | .secAttest mb => decide (mb < 32)

end Sys2Proof
end

