-- ==== Sys2Proof/Safety.lean ====
section
/-! DEFINITION. What counts as a sound state of the part, and the words in which the claims speak of a step: that a
command completes, what a request answers, and what stays as it was. -/

namespace Sys2Proof.Machine

/-- What holds of every state that a step leaves behind: the two maps are canonical, and no buffer holds more than the
spec gives it: 256 entries in the firmware event log (R456), 32 records in the trace buffer (R159), 64 completions in the
tag history of a mailbox (R270), 16 entries in the FIFO of a capture unit (R202). -/
structure State.Inv (s : State) : Prop where
  regs : regSorted s.regs = true
  mem : Memory.wf s.mem = true
  evlog : s.evlog.length ≤ 256
  trc : s.trcBuf.length ≤ 32
  tags : ∀ mb, (s.tags.filter fun x => x.mb == mb).length ≤ 64
  caps : ∀ c, (s.caps.filter fun x => x.unit == c).length ≤ 16

end Sys2Proof.Machine

namespace Sys2Proof.Claims
open Sys2Proof.Machine

/-- The command answers a next state, and `P` holds of it. -/
def Completes (i : Instr) (s : State) (P : State → Prop) : Prop := ∃ t, exec i s = .next t ∧ P t

/-! ### Frames -/

/-- Every register field outside the listed places reads as before. -/
def RegsKept (ks : List Nat) (s t : State) : Prop :=
  ∀ (f : Fld) (i j : Nat), fkey f i j ∉ ks → t.get f i j = s.get f i j

/-- Every byte of memory outside `[lo, hi)` reads as before. -/
def BytesKept (lo hi : Nat) (s t : State) : Prop := ∀ a, a < lo ∨ hi ≤ a → t.byte a = s.byte a

/-- The lists of the state, without its registers and memory. -/
def lists (s : State) : State := { s with regs := [], mem := [] }

/-- The lists of the state that the answer of a request leaves alone: all but the waits, the tag histories and the
messages sent. -/
def quiet (s : State) : State := { s with regs := [], mem := [], waits := [], tags := [], msix := [] }

/-- Nothing but the registers at the listed places changes. -/
structure OnlyRegs (ks : List Nat) (s t : State) : Prop where
  regs : RegsKept ks s t
  mem : t.mem = s.mem
  lists : lists t = lists s

/-- Nothing but the registers at the listed places and the bytes of `[lo, hi)` changes. -/
structure OnlyRegsBytes (ks : List Nat) (lo hi : Nat) (s t : State) : Prop where
  regs : RegsKept ks s t
  bytes : BytesKept lo hi s t
  lists : lists t = lists s

/-! ### Requests -/

/-- The places that the completion of a request of mailbox `mb` writes (R259, R260, R264, R268). -/
def answerPlaces (mb : Nat) : List Nat :=
  [fkey R.MBX_STAT_STATUS mb 0, fkey R.MBX_RES_REASON mb 0, fkey R.MBX_RES_RLEN mb 0, fkey R.MBX_HANDLE mb 0,
   fkey R.MBX_ROP mb 0, fkey R.MBX_T_DONE mb 0, fkey R.HIF_INT_MBX_STAT 0 0, fkey R.HIF_MSIX_PBA 0 0]

/-- A request of mailbox `mb` waits to be served, of an opcode and at least `n` bytes long; the unit runs, and its pair,
if it has one, does not hold it off (R265, R275, R420, R466, R476). -/
structure Ready (s : State) (mb opc n : Nat) : Prop where
  live : s.live mb opc = true
  boot : s.get R.PWR_STATE_BOOT ≠ 2
  power : s.get R.PWR_STATE_STATE ≠ 2
  role : s.isStandby = false
  len : n ≤ s.get H.MB_LEN mb
  jrn : s.get H.MB_JRN mb = 0

/-- The request of mailbox `mb` is answered: status, reason and result (R268). -/
structure Answered (t : State) (mb status reason : Nat) (res : List Nat) : Prop where
  status : t.get R.MBX_STAT_STATUS mb = status
  reason : t.get R.MBX_RES_REASON mb = reason
  rlen : t.get R.MBX_RES_RLEN mb = res.length % 2 ^ 13
  cause : bit (t.get R.HIF_INT_MBX_STAT) mb = true
  result : ∀ k (h : k < res.length), t.byte (pageOf mb + k) = res[k] % 256
  served : ∀ w ∈ t.waits, w.mb ≠ mb

/-- What the answer of mailbox `mb` with a result of `n` bytes leaves, beside the places `ks`: registers, memory, and
every list but the waits, the tag history and the messages sent. -/
structure AnswerKeeps (ks : List Nat) (mb n : Nat) (s t : State) : Prop where
  regs : RegsKept (answerPlaces mb ++ ks) s t
  bytes : BytesKept (pageOf mb) (pageOf mb + n) s t
  quiet : quiet t = quiet s

/-- The request of mailbox `mb` stays PENDING, waiting under a key (R42, R274). -/
def Waits (s t : State) (mb opc key arg : Nat) : Prop :=
  t.waits = s.waits ++ [{ mb := mb, opc := opc, key := key, arg := arg }]

/-! ### Host accesses -/

/-- An access by interface `i` reaches the aligned word at `a` of BAR0: the interface answers, the address is mapped, its
domain is up, and a mailbox's registers belong to the interface (R28, R251, R253, R255). -/
structure Reaches (s : State) (i : Ifc) (a : Nat) : Prop where
  up : s.ifcUp i = true
  bar0 : i ≠ .bar2
  mapped : i = .qspi → qspiMapped a = true
  domain : s.barDown (bar0Dom a) = false
  owner : ∀ n, mbOf a = some n → s.owns i n = true
  aligned : a % 4 = 0
  range : a < 0x1000000

/-- A register write of the host's software, which comes over the attached interface, reaches the aligned word at `a` of
BAR0: the interface answers, the address is mapped, and its domain is up (R28, R251, R253). -/
structure HostWord (s : State) (a : Nat) : Prop where
  up : s.ifcUp (if s.attach = 1 then .qspi else .bar0) = true
  mapped : s.attach = 1 → qspiMapped a = true
  domain : s.barDown (bar0Dom a) = false

/-- The places of the fields of an access kind in the word at `a` of BAR0 (R11). -/
def accPlaces (acc : Acc) (a : Nat) : List Nat :=
  ((bar0Fields a).filter fun f => f.acc == acc).filterMap fun f => (fldAt f a).map fun p => fkey f p.1 p.2

/-- The registers of mailbox `n` that a doorbell or an acknowledge writes, beside the status (R265, R266). -/
def mbPlaces (n : Nat) : List Nat :=
  [fkey R.MBX_STAT_STATUS n 0, fkey R.MBX_STAT_DUP n 0, fkey R.MBX_STAT_DUP_OP n 0, fkey R.MBX_STAT_DUP_TRUNC n 0,
   fkey R.MBX_STAT_RTAG n 0, fkey R.MBX_RES_REASON n 0, fkey R.MBX_RES_RLEN n 0, fkey R.MBX_HANDLE n 0,
   fkey R.MBX_ROP n 0, fkey R.MBX_T_DONE n 0, fkey H.MB_OPC n 0, fkey H.MB_TAG n 0, fkey H.MB_LEN n 0, fkey H.MB_ARG n 0]

/-- Mailbox `n` takes a doorbell that makes a new request of its registers: it is free, and its tag is in no stored
completion (R265, R270, R476). -/
structure TakesNew (s : State) (n : Nat) : Prop where
  box : n < 32
  taken : s.takesDb n = true
  free : s.get R.MBX_STAT_STATUS n = 0
  jrn : s.get H.MB_JRN n = 0
  known : knownOp (s.get R.MBX_REQ_OPCODE n % 2 ^ 16) = true
  fresh : ∀ r ∈ s.tags, r.mb = n → r.tag = s.get R.MBX_REQ_TAG n % 2 ^ 16 → r.tag = 0

/-- Mailbox `n` holds the request of its registers, PENDING (R265). -/
structure Pending (s t : State) (n : Nat) : Prop where
  status : t.get R.MBX_STAT_STATUS n = 1
  opcode : t.get H.MB_OPC n = s.get R.MBX_REQ_OPCODE n % 2 ^ 16
  tag : t.get R.MBX_STAT_RTAG n = s.get R.MBX_REQ_TAG n % 2 ^ 16
  len : t.get H.MB_LEN n = s.get R.MBX_LEN n % 2 ^ 13
  reason : t.get R.MBX_RES_REASON n = 0

/-! ### Engine instructions -/

/-- Engine `e` executes its next instruction as it stands: it runs code, no far load is pending, no residue injection is
armed, no older value of R122 waits, no PROT window is open, it is in no delay slot, and the program counter is not at a
loop's end. -/
structure EngTurn (s : State) (e : Nat) : Prop where
  can : s.engCan e = true
  noFar : bit (s.esr e) 11 = false
  noInj : bit (s.get H.ENG_INJR e) 17 = false
  noOld : ∀ x ∈ s.olds, x.eng ≠ e
  noDelay : s.inDelay e = false
  noProt : esrProt (s.esr e) = 0
  noEnd : esrLvl (s.esr e) = 0 ∨ bit (s.esr e) 7 = true ∨ s.get H.ENG_PC e ≠ s.get H.ENG_LE e (esrLvl (s.esr e) - 1)

/-- As EngTurn, and no load waits to land (R122). -/
structure EngFree (s : State) (e : Nat) : Prop extends EngTurn s e where
  noLate : ∀ x ∈ s.late, x.eng ≠ e

/-- The registers that every instruction of engine `e` moves: its cycles, its program counter, and what R124 remembers of
the instruction before. -/
def engPlaces (e : Nat) : List Nat :=
  [fkey H.ENG_ECYC e 0, fkey H.ENG_BUSY e 0, fkey H.ENG_PC e 0, fkey H.ENG_BT e 0, fkey H.ENG_WL e 0]

/-- Engine `e` goes on after an instruction of `cost` cycles and `len` bytes, and of the registers only the listed ones
change beside (R104, R119). -/
structure EngNext (ks : List Nat) (s t : State) (e cost len : Nat) : Prop where
  pc : t.get H.ENG_PC e = (s.get H.ENG_PC e + len) % 2 ^ 16
  cycles : t.get H.ENG_ECYC e = (s.get H.ENG_ECYC e + cost) % 2 ^ 32
  regs : RegsKept (engPlaces e ++ ks) s t

/-- The flags of an ALU result (R109, R114, R130): Z and N of the value, C and V as the function gives them, SAT set where
it saturated; the other bits of ESR as they were. -/
structure AluFlagsAre (s t : State) (e val : Nat) (c v sat : Bool) : Prop where
  zero : bit (t.esr e) 0 = decide (val = 0)
  negative : bit (t.esr e) 1 = bit val 31
  carry : bit (t.esr e) 2 = c
  overflow : bit (t.esr e) 3 = v
  saturated : bit (t.esr e) 5 = (bit (s.esr e) 5 || sat)
  others : ∀ k < 16, k ∉ [0, 1, 2, 3, 5] → bit (t.esr e) k = bit (s.esr e) k

/-- An ALU instruction of engine `e` leaves `val` in Dd with its flags, and nothing else changes. -/
structure AluDone (s t : State) (e dd val : Nat) (c v sat : Bool) : Prop where
  result : t.dreg e dd = val
  flags : AluFlagsAre s t e val c v sat
  next : EngNext [fkey H.ENG_D e (dd % 16), fkey H.ENG_ESR e 0] s t e 1 4
  mem : t.mem = s.mem
  lists : lists t = lists s

/-- A signed value leaves 32 bits. -/
def leaves32 (v : Int) : Bool := decide (v < -2147483648 ∨ 2147483647 < v)

/-- A signed value held to 32 bits. -/
def held32 (v : Int) : Int := max (-2147483648) (min 2147483647 v)

/-- A signed value leaves 80 bits (R129). -/
def leaves80 (v : Int) : Bool := decide (v < -604462909807314587353088 ∨ 604462909807314587353087 < v)

/-- The second-last value of an accumulator, which the next class 0x8 function or store still reads (R122). -/
def oldAcc (s : State) (e k : Nat) : EngReg := { eng := e, fld := H.ENG_A, idx := k % 4, val := s.get H.ENG_A e (k % 4) }

/-- A class 0x8 function of engine `e` leaves `v` in Ad modulo 2^80, sets GOV where `v` leaves 80 bits, and nothing else
changes (R116, R129). -/
structure AccDone (s t : State) (e ad : Nat) (v : Int) : Prop where
  result : t.get H.ENG_A e (ad % 4) = trunc 80 v
  gov : bit (t.esr e) 4 = (bit (s.esr e) 4 || leaves80 v)
  others : ∀ k < 16, k ≠ 4 → bit (t.esr e) k = bit (s.esr e) k
  next : EngNext [fkey H.ENG_A e (ad % 4), fkey H.ENG_ESR e 0] s t e 1 4
  mem : t.mem = s.mem
  olds : t.olds = oldAcc s e ad :: s.olds
  lists : lists { t with olds := [] } = lists { s with olds := [] }

/-! ### Boundaries and samples -/

/-- A clause of descriptor `d` can be released: it is enabled, nothing holds releases back, fewer than four of its instances
are outstanding, and no join count waits to be loaded anew (R142 to R144). -/
structure CanRelease (s : State) (d : Nat) : Prop where
  enabled : s.get R.SCH_DESC_EN d ≠ 0
  allowed : s.noRelease = false
  clause : s.noClause d = false
  room : s.get R.SCH_DESC_PEND d < 4
  loaded : s.get H.DESC_RELOAD d = 0

/-- Nothing waits for the next boundary: no axis but those of `axs` is configured or about to be, no clause is enabled, no
ring but those of `rings` runs, no request, port, unit, mode switch, commit, injection or change of power waits, and no
statistics period ends. -/
structure QuietPart (s : State) (axs rings : List Nat) : Prop where
  net : s.domDown 4 = false
  noAxis : ∀ a < 256, a ∉ axs → s.axSt a = 0
  lists : s.axEvs = [] ∧ s.waits = [] ∧ s.injs = [] ∧ s.descPend = [] ∧ s.codePend = [] ∧ s.insts = []
  noDesc : ∀ d < 1024, s.get R.SCH_DESC_EN d = 0
  noRing : ∀ r < 2, (r ∉ rings → s.get R.NRT_RSTATE_STATE r = 0) ∧ s.get H.SPLITP r = 0 ∧ s.get H.RSTOP r = 0
  noPort : (∀ p < 8, s.get H.DP_NEWM p = 0 ∧ s.get H.ENC_NEWP p = 0) ∧ ∀ p < 16, s.get H.PT_NEWP p = 0
  noUnit : ∀ u < 32, s.get H.CMP_CFGP u = 0 ∧ s.get H.CMP_PEND u = 0 ∧ s.get H.CAP_CFGP u = 0 ∧ s.get H.CAP_PEND u = 0
  noClock : ∀ k < 6, s.get H.CLK_INJ k = 0
  noSwap : s.get H.MSW_B = 0
  noPeriod : s.get H.STAT_CNT + 1 < s.get H.STAT_LEN
  noPair : s.get H.CNJ_ISO = 0 ∧ s.get H.CNJ_CEASE = 0 ∧ s.get R.CNJ_STATE_ROLE = 0
  noRest : s.get H.SVC_P = 0 ∧ s.get H.DBG_WANT = 0 ∧ s.get H.DBG_SP = 0 ∧ s.get H.CMT = 0 ∧ s.get H.PWR_STBY = 0

/-- An engine runs the standard clause of type `ty` for record `r`, under the configuration as it stands. -/
structure ClauseRuns (s : State) (ty r : Nat) (x : Inst) : Prop where
  running : s.clauseOn ty r = some x
  saved : s.saved = []

/-- No function beside the loop works on a sample: no sweep, no probe, no waiting capture edge. -/
structure PlainSample (s : State) (a : Nat) : Prop where
  sweep : ∀ c < 32, s.get H.SW_ON c = 0
  probe : s.get R.AXS_PRB_CTL_EN a = 0
  edges : s.edges = []

/-- A local axis closes its loop with no section, no feed-forward, no learning and no homing at work: it is Operational with
torque on and holds its position, and its sample reports no index (R65, R82, R90, R187). -/
structure ClosedLoop (s : State) (a : Nat) (x : Inst) : Prop extends PlainSample s a where
  operational : s.axSt a = 4
  torque : s.get H.AX_TRQ a ≠ 0 ∧ s.get H.AX_RESEED a = 0
  localAxis : s.isNirte a = false
  noIndex : bit (x.word 3) 4 = false
  holds : s.motionsOf a = []
  noHoming : s.get R.HM_STAT_PHASE a = 0 ∧ s.get H.HM_M0 a = 0
  noLearning : s.get H.LRN_ON a = 0 ∧ s.get H.LRN_REC a = 0 ∧ s.get H.LRN_NR a = 0
  noSections : s.get R.AXS_STAGE_CFG_NPOS a = 0 ∧ s.get R.AXS_STAGE_CFG_NVEL a = 0 ∧ s.get R.AXS_STAGE_CFG_NOUT a = 0
  noForward : s.get R.AXS_KVFF a = 0 ∧ s.get R.AXS_KAFF a = 0 ∧ s.get R.AXS_KTFF a = 0

/-- An axis record after a write of words from an offset up, with its descriptors (R76 to R81, R157). -/
def recAfter (s : State) (a off : Nat) (ws : List Nat) : State :=
  (((((s.trkStops (s.recPut a off ws) a).recPut a off ws).notchRaw a off ws.length).confWroteAll 0 a off ws.length)).relink a

/-- A host request as R280 lists it: its mailbox, its opcode, and the least length of its parameters in bytes. -/
def requestOf (i : Instr) : Option (Nat × Nat × Nat) :=
  match i with
  | .echo mb => some (mb, 0x0001, 0)
  | .getInfo mb => some (mb, 0x0002, 0)
  | .lopSuspend mb => some (mb, 0x0003, 4)
  | .lopResume mb => some (mb, 0x0004, 4)
  | .lopCancel mb => some (mb, 0x0005, 4)
  | .tagReset mb => some (mb, 0x0006, 0)
  | .winRead mb => some (mb, 0x0007, 8)
  | .winWrite mb => some (mb, 0x0008, 8)
  | .axisConfigure mb => some (mb, 0x0100, 32)
  | .axisDeconfigure mb => some (mb, 0x0101, 4)
  | .axisEnable mb => some (mb, 0x0102, 4)
  | .axisDisable mb => some (mb, 0x0103, 4)
  | .axisFaultReset mb => some (mb, 0x0104, 4)
  | .axisFaultRaise mb => some (mb, 0x0105, 4)
  | .axisReactions mb => some (mb, 0x0106, 17)
  | .recRead mb => some (mb, 0x0107, 12)
  | .recWrite mb => some (mb, 0x0108, 12)
  | .secRecipe mb => some (mb, 0x0200, 12)
  | .grpRead mb => some (mb, 0x0201, 4)
  | .grpWrite mb => some (mb, 0x0202, 12)
  | .lffWrite mb => some (mb, 0x0203, 44)
  | .lffClear mb => some (mb, 0x0204, 4)
  | .lffExport mb => some (mb, 0x0205, 0)
  | .lffImport mb => some (mb, 0x0206, 4096)
  | .probeAlloc mb => some (mb, 0x0207, 8)
  | .sweepStart mb => some (mb, 0x0208, 64)
  | .codeLoad mb => some (mb, 0x0300, 8)
  | .descWrite mb => some (mb, 0x0301, 36)
  | .schConfig mb => some (mb, 0x0302, 12)
  | .move mb => some (mb, 0x0400, 60)
  | .stop mb => some (mb, 0x0401, 8)
  | .segAppend mb => some (mb, 0x0402, 32)
  | .tableStart mb => some (mb, 0x0403, 20)
  | .homeStart mb => some (mb, 0x0404, 4)
  | .cmpConfig mb => some (mb, 0x0405, 36)
  | .cmpListWrite mb => some (mb, 0x0406, 8)
  | .capConfig mb => some (mb, 0x0407, 8)
  | .ringConfig mb => some (mb, 0x0500, 20)
  | .ringStop mb => some (mb, 0x0501, 4)
  | .acyc mb => some (mb, 0x0502, 16)
  | .bypass mb => some (mb, 0x0503, 8)
  | .topoRead mb => some (mb, 0x0504, 4)
  | .modeSwitch mb => some (mb, 0x0600, 16)
  | .cfgCommit mb => some (mb, 0x0601, 8)
  | .fwUpdate mb => some (mb, 0x0602, 4)
  | .fwData mb => some (mb, 0x060A, 12)
  | .flashScrub mb => some (mb, 0x0603, 0)
  | .safetyLogin mb => some (mb, 0x0604, 8)
  | .safetyLogout mb => some (mb, 0x0605, 0)
  | .passwordSet mb => some (mb, 0x0606, 4)
  | .ovlWrite mb => some (mb, 0x0607, 12)
  | .ovlRead mb => some (mb, 0x0608, 12)
  | .ovlClear mb => some (mb, 0x0609, 4)
  | .logRead mb => some (mb, 0x060B, 8)
  | .drvConfig mb => some (mb, 0x0700, 16)
  | .ptgConfig mb => some (mb, 0x0701, 16)
  | .calStart mb => some (mb, 0x0702, 8)
  | .drvClear mb => some (mb, 0x0703, 4)
  | .encConfig mb => some (mb, 0x0704, 8)
  | .fioConfig mb => some (mb, 0x0800, 12)
  | .fioOut mb => some (mb, 0x0801, 16)
  | .fioClear mb => some (mb, 0x0802, 8)
  | .safeParamWrite mb => some (mb, 0x0900, 12)
  | .safeParamCommit mb => some (mb, 0x0901, 4)
  | .safeReset mb => some (mb, 0x0902, 20)
  | .safeTest mb => some (mb, 0x0903, 4)
  | .fullStop mb => some (mb, 0x0904, 0)
  | .fullStopRelease mb => some (mb, 0x0905, 0)
  | .pairConfig mb => some (mb, 0x0A00, 8)
  | .pairRejoin mb => some (mb, 0x0A01, 0)
  | .pairHandover mb => some (mb, 0x0A02, 8)
  | .pairTakeback mb => some (mb, 0x0A03, 8)
  | .pairUnpair mb => some (mb, 0x0A04, 0)
  | .injArm mb => some (mb, 0x0B00, 36)
  | .injDisarm mb => some (mb, 0x0B01, 4)
  | .evlogRead mb => some (mb, 0x0B02, 8)
  | .telConfig mb => some (mb, 0x0B03, 12)
  | .pwrStateSet mb => some (mb, 0x0C00, 12)
  | .pwrReset mb => some (mb, 0x0C01, 4)
  | .pwrConfig mb => some (mb, 0x0C02, 4)
  | .secProvision mb => some (mb, 0x0C03, 100)
  | .secSeal mb => some (mb, 0x0C04, 4)
  | .secToken mb => some (mb, 0x0C05, 96)
  | .secRevoke mb => some (mb, 0x0C06, 4)
  | .secPwClear mb => some (mb, 0x0C07, 0)
  | .secAttest mb => some (mb, 0x0C08, 16)
  | _ => none

end Sys2Proof.Claims
end

