-- ==== Sys2Proof/Certificates/Slice0/Obligations.lean ====
section
/-! DEFINITION. The obligations: what is claimed of the model, by the numbered rules of the spec. -/

open Sys2Proof Sys2Proof.Machine Sys2Proof.Claims

/-! ### The machine -/

/-- Derived: the model's queue of commands. A step takes the command at the front of the queue and executes it with the
queue's rest. It rests on the model's choices of log entries 1 and 2. -/
def Obligations.StepRunsFrontCommand : Prop :=
  ∀ (c : Instr) (rest : List Instr) (s : State), step { s with pending := c :: rest } = exec c { s with pending := rest }

/-- What start-up leaves, by R475 (every array zero), R475's step 1 and the reset columns: AON alone is on, every other
domain is in reset, no interrupt cause is set, no mailbox is taken, no axis is configured. It rests on the model's
choices of log entries 10, 13 and 14. -/
def Obligations.ResetStateIsClean : Prop :=
  (∀ a, State.reset.byte a = 0) ∧ State.reset.get R.PWR_DOM_ON = 1 ∧ State.reset.get R.PWR_DOM_RST = 0xFFE ∧
  State.reset.get R.HIF_INT_STAT = 0 ∧ State.reset.get R.HIF_INT_MBX_STAT = 0 ∧
  (∀ mb, State.reset.get R.MBX_STAT_STATUS mb = 0) ∧ (∀ k, State.reset.get R.LOP_ID_HANDLE k = 0) ∧
  (∀ a, State.reset.get R.AXS_STATUS_STATE a = 0) ∧ State.reset.pending = []

/-- The state after reset is sound. It rests on the model's choices of log entries 10 and 14. -/
def Obligations.ResetStateIsSound : Prop :=
  State.reset.Inv

/-- Every step keeps the state sound: canonical registers and memory, and no buffer over what R159, R202, R270 and R456
give it. It rests on the model's choices of log entry 1. -/
def Obligations.EveryStepKeepsStateSound : Prop :=
  ∀ s t : State, s.Inv → step s = .next t → t.Inv

/-- No command stops the part, and none touches the queue behind it. It rests on the model's choices of log entry 4. -/
def Obligations.EveryCommandAnswersAndLeavesQueue : Prop :=
  ∀ (i : Instr) (s : State), ∃ t, exec i s = .next t ∧ t.pending = s.pending

/-- A request acts only when its mailbox holds it PENDING with its opcode and nothing serves it yet (R265). It rests on
the model's choices of log entry 3. -/
def Obligations.RequestNotPendingDoesNothing : Prop :=
  ∀ (i : Instr) (s : State) (mb opc n : Nat), requestOf i = some (mb, opc, n) → s.live mb opc = false → exec i s = .next s

/-- A request shorter than its opcode's parameters is answered FAILED with LENGTH and changes nothing else (R275, R277).
It rests on the model's choices of log entry 20. -/
def Obligations.ShortRequestFailsWithLength : Prop :=
  ∀ (i : Instr) (s : State) (mb opc n : Nat), requestOf i = some (mb, opc, n) → s.live mb opc = true →
    s.get R.PWR_STATE_BOOT ≠ 2 → s.get R.PWR_STATE_STATE ≠ 2 → s.isStandby = false → s.get H.MB_JRN mb = 0 →
    s.get H.MB_LEN mb < n → Completes i s fun t => Answered t mb 3 0x0002 [] ∧ AnswerKeeps [] mb 0 s t

/-- The requests that a standby executes for its own host are those that R420 and R389 name; every other one is answered
FAILED with STANDBY and changes nothing else. It rests on the model's choices of log entries 18 and 20. -/
def Obligations.StandbyRefusesStateChanges : Prop :=
  ∀ (i : Instr) (s : State) (mb opc n : Nat), requestOf i = some (mb, opc, n) → s.live mb opc = true →
    s.get R.PWR_STATE_BOOT ≠ 2 → s.get R.PWR_STATE_STATE ≠ 2 → s.isStandby = true → s.get H.MB_JRN mb = 0 →
    opc ∉ [0x0001, 0x0002, 0x0006, 0x0007, 0x0107, 0x0201, 0x0205, 0x0504, 0x0608, 0x060B, 0x0A00, 0x0A01, 0x0A02, 0x0A03,
      0x0A04, 0x0905, 0x0B02, 0x0C08] →
    Completes i s fun t => Answered t mb 3 0x0A00 [] ∧ AnswerKeeps [] mb 0 s t

/-! ### Host accesses and the mailboxes -/

/-- R10, R11, R28: a read of a word that an interface reaches returns the word, clears its RC fields, and of a 64-bit
register's low half latches the high half; it changes nothing else. REG64_LOW_READ, REGISTER_READ, and over QSPI
FAST_READ and QUAD_READ. R10: after a read of the low half, a read of the high half returns what was latched, and
changes no register; an 8-byte PCIe read of a 64-bit register returns both halves of one moment. R250: a read of the low
half of the time latches the time's fraction too, which the next read of the fraction returns. It rests on the model's
choices of log entries 16, 17 and 31. -/
def Obligations.WordReadsReturnAndLatch : Prop :=
  (∀ (i : Ifc) (a : Nat) (s : State), Reaches s i a → isHigh (bar0Fields a) a = false →
    a ≠ 0x60008 ∨ bit (s.get H.LAT_HI a) 32 = false →
    let ok := fun t : State => t.rdata = toBytes 4 (s.bar0Word a) ∧ t.mem = s.mem ∧
      lists t = { lists s with rdata := t.rdata } ∧
      RegsKept ((if isLow (bar0Fields a) a then [fkey H.LAT_HI a 0] else []) ++
        (if a = 0x60000 then [fkey H.LAT_HI 0x60008 0] else []) ++ accPlaces .RC a) s t ∧
      (isLow (bar0Fields a) a = true → t.get H.LAT_HI a = 2 ^ 32 + s.bar0Word (a + 4) % 2 ^ 32) ∧
      (a = 0x60000 → t.get H.LAT_HI 0x60008 = 2 ^ 32 + s.get R.DCK_FRAC)
    Completes (.registerRead i a 4) s ok ∧
    (a % 8 = 0 → Completes (.reg64LowRead i a) s ok) ∧
    (i = .qspi → Completes (.fastRead a 1) s ok ∧ Completes (.quadRead a 1) s ok)) ∧
  (∀ (i : Ifc) (a : Nat) (s : State), Reaches s i a → isHigh (bar0Fields a) a = true →
    bit (s.get H.LAT_HI (a - 4)) 32 = true →
    exec (.registerRead i a 4) s = .next { s with rdata := toBytes 4 (s.get H.LAT_HI (a - 4) % 2 ^ 32) }) ∧
  (∀ (i : Ifc) (s : State), Reaches s i 0x60008 → bit (s.get H.LAT_HI 0x60008) 32 = true →
    exec (.registerRead i 0x60008 4) s = .next { s with rdata := toBytes 4 (s.get H.LAT_HI 0x60008 % 2 ^ 32) }) ∧
  (∀ (a : Nat) (s : State), Reaches s .bar0 a → a % 8 = 0 → isLow (bar0Fields a) a = true →
    isHigh (bar0Fields a) a = false →
    Completes (.pcie64Read .bar0 a) s fun t =>
      t.rdata = toBytes 4 (s.bar0Word a) ++ toBytes 4 (s.bar0Word (a + 4)) ∧ t.mem = s.mem ∧
      lists t = { lists s with rdata := t.rdata } ∧
      RegsKept ((if a = 0x60000 then [fkey H.LAT_HI 0x60008 0] else []) ++ fkey H.LAT_HI a 0 :: accPlaces .RC a) s t)

/-- R10: of a 64-bit register that host software writes (the addresses of the MSI-X table), a write of the high half is
staged, a write of the low half commits both, and an 8-byte PCIe write takes effect at once. It rests on the model's
choices of log entry 23. -/
def Obligations.Register64WritesStageAndCommit : Prop :=
  ∀ (i : Ifc) (k v : Nat) (s : State), k < 64 → v < 2 ^ 32 →
    let a := 0x8000 + 16 * k
    Reaches s i a → Reaches s i (a + 4) →
    Completes (.reg64HighWrite i a v) s (fun t => t.get H.STG_HI a = 2 ^ 32 + v ∧ OnlyRegs [fkey H.STG_HI a 0] s t) ∧
    (bit (s.get H.STG_HI a) 32 = true → Completes (.reg64LowWrite i a v) s (fun t =>
      t.get R.HIF_MSIX_ADDR k = v + 2 ^ 32 * (s.get H.STG_HI a % 2 ^ 32) ∧ t.get H.STG_HI a = 0 ∧
      RegsKept [fkey R.HIF_MSIX_ADDR k 0, fkey H.STG_HI a 0, fkey R.HIF_MSIX_PBA 0 0] s t ∧ t.mem = s.mem)) ∧
    (i = .bar0 → ∀ w < 2 ^ 64, Completes (.pcie64Write i a w) s (fun t =>
      t.get R.HIF_MSIX_ADDR k = w ∧ t.get H.STG_HI a = 0 ∧
      RegsKept [fkey R.HIF_MSIX_ADDR k 0, fkey H.STG_HI a 0, fkey R.HIF_MSIX_PBA 0 0] s t ∧ t.mem = s.mem))

/-- R11: a read of a counter that clears on reading returns it, and leaves the events that come in the cycle of the
read; nothing else changes. R11, R259: a 1 written to an interrupt cause clears it, unless hardware sets it in the same
cycle; a 0 leaves it. It rests on the model's choices of log entries 16 and 31. -/
def Obligations.ClearingReadsAndWrites : Prop :=
  (∀ (i : Ifc) (a ev : Nat) (f : Fld) (k j : Nat) (s : State), Reaches s i a →
    isHigh (bar0Fields a) a = false → isLow (bar0Fields a) a = false →
    ((bar0Fields a).filter fun g => g.acc == .RC && (fldAt g a).isSome) = [f] → fldAt f a = some (k, j) →
    Completes (.rcRead i a ev) s fun t =>
      t.get f k j = min ev (2 ^ f.width - 1) ∧ t.rdata = toBytes 4 (s.bar0Word a) ∧ t.mem = s.mem ∧
      RegsKept [fkey f k j] s t) ∧
  (∀ (i : Ifc) (v hw : Nat) (s : State), v < 2 ^ 32 → hw < 2 ^ 32 →
    (Reaches s i 0x30 → Completes (.w1cWrite i 0x30 v hw) s fun t =>
      (∀ k < 14, bit (t.get R.HIF_INT_STAT) k = ((bit (s.get R.HIF_INT_STAT) k && !bit v k) || bit hw k)) ∧
      t.mem = s.mem ∧ RegsKept [fkey R.HIF_INT_STAT 0 0, fkey R.HIF_MSIX_PBA 0 0] s t ∧ quiet t = quiet s) ∧
    (Reaches s i 0x38 → Completes (.w1cWrite i 0x38 v hw) s fun t =>
      (∀ k < 32, bit (t.get R.HIF_INT_MBX_STAT) k = ((bit (s.get R.HIF_INT_MBX_STAT) k && !bit v k) || bit hw k)) ∧
      t.mem = s.mem ∧ RegsKept [fkey R.HIF_INT_MBX_STAT 0 0, fkey R.HIF_MSIX_PBA 0 0] s t ∧ quiet t = quiet s))

/-- R253, R254, R265: bytes written to the page of a mailbox that the interface owns land in the page, and nowhere else,
while the mailbox is free. It rests on the model's choices of log entry 28. -/
def Obligations.PageWritesLandInPage : Prop :=
  ∀ (n a : Nat) (bs : List Nat) (s : State), n < 32 → s.barDown 2 = false → s.get R.MBX_STAT_STATUS n = 0 →
    pageOf n ≤ a → a + bs.length ≤ pageOf n + 0x1000 → bs ≠ [] →
    let ok := fun t : State => (∀ k (h : k < bs.length), t.byte (a + k) = bs[k] % 256) ∧
      OnlyRegsBytes [] a (a + bs.length) s t
    (s.ifcUp .bar0 = true → s.pcieOwns n = true → Completes (.registerWrite .bar0 a bs) s ok) ∧
    (s.ifcUp .qspi = true → s.qspiOwns n = true → a % 4 = 0 → bs.length % 4 = 0 →
      Completes (.registerWrite .qspi a bs) s ok ∧ Completes (.write a bs) s ok ∧ Completes (.quadWrite a bs) s ok)

/-- R265, R266: a doorbell makes the request in the mailbox's registers PENDING, with a snapshot of its opcode, tag and
length; nothing else changes. MBX_DB, and HIF_DB_ALL with one bit. R270: a doorbell whose tag the mailbox's history
holds executes nothing; the stored completion is returned, marked. R266: the acknowledge of a completed request frees
the mailbox and clears its result registers; nothing else changes. R272: the acknowledge of a long operation with a
final status frees its slot; nothing else changes (of a sweep, its trace pages are freed as well). It rests on the
model's choices of log entries 29 and 255. -/
def Obligations.DoorbellsAndAcknowledges : Prop :=
  (∀ (i : Ifc) (n : Nat) (s : State), s.ifcUp i = true → i ≠ .bar2 → s.owns i n = true → s.barDown 2 = false →
    TakesNew s n →
    let ks := [fkey H.DB_SEQ 0 0, fkey H.MB_SEQ n 0, fkey H.MB_ACC n 0, fkey H.FREE 0 0] ++ mbPlaces n
    Completes (.mbxDb i n) s (fun t => Pending s t n ∧ OnlyRegs ks s t) ∧
    Completes (.hifDbAll i (2 ^ n)) s (fun t => Pending s t n ∧ OnlyRegs ks s t)) ∧
  (∀ (i : Ifc) (n : Nat) (r : TagRec) (s : State), n < 32 → s.ifcUp i = true → i ≠ .bar2 → s.owns i n = true →
    s.barDown 2 = false → s.takesDb n = true → s.get R.MBX_STAT_STATUS n = 0 → s.get H.MB_JRN n = 0 →
    s.get R.MBX_REQ_TAG n ≠ 0 → s.get R.MBX_REQ_TAG n < 2 ^ 16 →
    s.tags.find? (fun x => x.mb == n && x.tag == s.get R.MBX_REQ_TAG n) = some r → r.status < 8 → r.reason < 2 ^ 16 →
    Completes (.mbxDb i n) s fun t =>
      t.get R.MBX_STAT_STATUS n = r.status ∧ t.get R.MBX_RES_REASON n = r.reason ∧ t.get R.MBX_STAT_DUP n = 1 ∧
      (∀ k (h : k < r.bytes.length), t.byte (pageOf n + k) = r.bytes[k] % 256) ∧
      BytesKept (pageOf n) (pageOf n + r.bytes.length) s t ∧ quiet t = quiet s) ∧
  (∀ (i : Ifc) (n : Nat) (s : State), n < 32 → s.ifcUp i = true → i ≠ .bar2 → s.owns i n = true →
    s.barDown 2 = false → s.get R.MBX_STAT_STATUS n = 2 ∨ s.get R.MBX_STAT_STATUS n = 3 →
    Completes (.mbxAck i n) s fun t => t.get R.MBX_STAT_STATUS n = 0 ∧ t.get R.MBX_RES_REASON n = 0 ∧
      t.get R.MBX_HANDLE n = 0 ∧ OnlyRegs (mbPlaces n) s t) ∧
  (∀ (k : Nat) (s : State), k < 32 → HostWord s (0x1100C + 0x20 * k) → s.get R.LOP_ID_HANDLE k ≠ 0 →
    s.get R.LOP_ID_STATUS k ∈ [2, 3, 5] →
    Completes (.lopAck k) s fun t => t.get R.LOP_ID_HANDLE k = 0 ∧ t.get R.LOP_ID_STATUS k = 0 ∧
      (s.get R.LOP_OBJ_OPCODE k ≠ 0x0208 → t.mem = s.mem ∧ quiet t = quiet s ∧ RegsKept [fkey R.LOP_ID_HANDLE k 0, fkey R.LOP_ID_STATUS k 0,
        fkey R.LOP_OBJ_OPCODE k 0, fkey R.LOP_OBJ_INDEX k 0, fkey R.LOP_PROG_REASON k 0, fkey R.LOP_PROG_PERMILLE k 0,
        fkey R.LOP_T_START k 0, fkey R.LOP_T_END k 0, fkey R.HIF_INT_STAT 0 0, fkey R.HIF_MSIX_PBA 0 0] s t))

/-- R252, R254, R259: the PCIe power state is taken; a QSPI status byte gives the interrupt line and READY; a tick
raises cause 2 and starts counting anew. It rests on the model's choices of log entries 30, 31 and 32. -/
def Obligations.PowerStateStatusByteAndTick : Prop :=
  ∀ (d3 : Bool) (s : State),
    (s.attach ≠ 1 → s.domDown 1 = false → Completes (.pciePowerState d3) s fun t =>
      t.get H.D3HOT = b2n d3 ∧ OnlyRegs [fkey H.D3HOT 0 0] s t) ∧
    (s.ifcUp .qspi = true → exec .readStatus s =
      .next { s with rdata := [b2n s.qspiIrq + 2 * s.get R.HIF_STATUS_READY] }) ∧
    (s.get R.HIF_TICK_DIV ≠ 0 → s.domDown 1 = false → s.get R.HIF_TICK_DIV ≤ s.get H.TICK_CNT →
      Completes .hifTick s fun t => bit (t.get R.HIF_INT_STAT) 2 = true ∧ t.get H.TICK_CNT = 0 ∧
        RegsKept [fkey H.TICK_CNT 0 0, fkey R.HIF_INT_STAT 0 0, fkey R.HIF_MSIX_PBA 0 0] s t ∧ t.mem = s.mem ∧
        quiet t = quiet s)

/-- R280: ECHO returns its parameters, GET_INFO the six words of R280, and WIN_READ the bytes of BAR2; TAG_RESET empties
the mailbox's history. R271, R280: WIN_WRITE stores its bytes in the output half of the process image, and nowhere else
beside its page. It rests on the model's choices of log entry 34. -/
def Obligations.MailboxRequestsReadAndWrite : Prop :=
  (∀ (mb : Nat) (s : State),
    (Ready s mb 0x0001 0 → Completes (.echo mb) s fun t =>
      Answered t mb 2 0 (s.bytes (pageOf mb) (s.get H.MB_LEN mb)) ∧ AnswerKeeps [] mb (s.get H.MB_LEN mb) s t) ∧
    (Ready s mb 0x0002 0 → Completes (.getInfo mb) s fun t =>
      Answered t mb 2 0 (ofWords [s.get R.HIF_FW_VER, s.get R.HIF_STATUS_BOOT_CNT, s.axes.length, s.descFreeN,
        ((List.range 248).filter fun p => !s.on H.PG_USED p).length,
        ((List.range 32).filter fun k => s.get R.LOP_ID_HANDLE k == 0).length]) ∧ AnswerKeeps [] mb 24 s t) ∧
    (Ready s mb 0x0006 0 → Completes (.tagReset mb) s fun t =>
      Answered t mb 2 0 [] ∧ AnswerKeeps [] mb 0 s t ∧ ∀ r, r ∈ t.tags ↔ r ∈ s.tags ∧ r.mb ≠ mb) ∧
    (Ready s mb 0x0007 8 → s.par mb 0 4 + clampN 4 4096 (s.par mb 4 4 / 4 * 4) ≤ 0x4000000 →
      Completes (.winRead mb) s fun t =>
        Answered t mb 2 0 (s.bar2Bytes (s.par mb 0 4) (clampN 4 4096 (s.par mb 4 4 / 4 * 4))) ∧
        AnswerKeeps [] mb 4096 s t)) ∧
  (∀ (mb : Nat) (s : State),
    let o := s.par mb 0 4
    let n := clampN 4 4088 (s.par mb 4 4 / 4 * 4)
    s.barDown 4 = false → Ready s mb 0x0008 (8 + n) → 0x200000 ≤ o → o + n ≤ 0x204000 →
    Completes (.winWrite mb) s fun t => Answered t mb 2 0 [] ∧ RegsKept (answerPlaces mb) s t ∧ quiet t = quiet s ∧
      (∀ k < n, t.byte (0x40000000 + o + k) = s.byte (pageOf mb + 8 + k)) ∧
      BytesKept (0x40000000 + o) (0x40000000 + o + n) s t)

/-- R273, R274: a flash scrub that runs suspends at once, one that is suspended resumes, and either is cancelled; the
request names it by its handle, which no other slot holds. It rests on the model's choices of log entries 22 and 33. -/
def Obligations.LongOperationControl : Prop :=
  ∀ (mb k : Nat) (s : State), k < 32 → s.waits = [] → s.get R.LOP_ID_HANDLE k = s.par mb 0 4 → s.par mb 0 4 ≠ 0 →
    (∀ k' < 32, s.get R.LOP_ID_HANDLE k' = s.par mb 0 4 → k' = k) → s.par mb 0 4 < 65536 →
    s.get R.LOP_OBJ_OPCODE k = 0x0603 →
    (Ready s mb 0x0003 4 → s.get R.LOP_ID_STATUS k = 1 → Completes (.lopSuspend mb) s fun t =>
      Answered t mb 2 0 [] ∧ t.get R.LOP_ID_STATUS k = 4 ∧
      AnswerKeeps [fkey R.LOP_ID_STATUS k 0, fkey R.HIF_INT_STAT 0 0] mb 0 s t) ∧
    (Ready s mb 0x0004 4 → s.get R.LOP_ID_STATUS k = 4 → Completes (.lopResume mb) s fun t =>
      Answered t mb 2 0 [] ∧ t.get R.LOP_ID_STATUS k = 1 ∧
      AnswerKeeps [fkey R.LOP_ID_STATUS k 0, fkey R.HIF_INT_STAT 0 0] mb 0 s t) ∧
    (Ready s mb 0x0005 4 → s.get R.LOP_ID_STATUS k = 1 ∨ s.get R.LOP_ID_STATUS k = 4 →
      Completes (.lopCancel mb) s fun t => Answered t mb 2 0 [] ∧ t.get R.LOP_ID_STATUS k = 5 ∧
      AnswerKeeps [fkey R.LOP_ID_STATUS k 0, fkey R.LOP_PROG_REASON k 0, fkey R.LOP_T_END k 0, fkey R.HIF_INT_STAT 0 0]
        mb 0 s t)

/-! ### Engine instructions: data -/

/-- R114, R130: the ALU functions of classes 0x1 and 0x2. `x` is Da, `y` the second operand (a register, or the
immediate sign-extended, zero-extended for AND, OR and XOR), `sh` a shift count; the flags C and V clear where R114
gives the function none. Nothing but Dd, the flags and the engine's progress changes. R114, R130: CMP sets the flags of
Da minus the operand and writes no register; NEG and ABS saturate. It rests on the model's choices of log entries 58,
231 and 232. -/
def Obligations.AluFunctionsGiveResultAndFlags : Prop :=
  (∀ (e dd da : Nat) (b : AluB) (s : State), EngFree s e →
    let x := s.dreg e da
    let y := s.aluS e b
    let z := s.aluZ e b
    let sh := s.aluZ e b % 32
    let xs := s32 x
    let ys := s32 y
    let ok := fun val c v sat t => AluDone s t e dd val c v sat
    Completes (.add e dd da b) s (ok ((x + y) % 2 ^ 32) (decide (2 ^ 32 ≤ x + y)) (leaves32 (xs + ys)) false) ∧
    Completes (.sub e dd da b) s (ok ((x + 2 ^ 32 - y) % 2 ^ 32) (decide (y ≤ x)) (leaves32 (xs - ys)) false) ∧
    Completes (.rsub e dd da b) s (ok ((y + 2 ^ 32 - x) % 2 ^ 32) (decide (x ≤ y)) (leaves32 (ys - xs)) false) ∧
    Completes (.adds e dd da b) s
      (ok (trunc 32 (held32 (xs + ys))) (decide (2 ^ 32 ≤ x + y)) (leaves32 (xs + ys)) (leaves32 (xs + ys))) ∧
    Completes (.subs e dd da b) s
      (ok (trunc 32 (held32 (xs - ys))) (decide (y ≤ x)) (leaves32 (xs - ys)) (leaves32 (xs - ys))) ∧
    Completes (.and e dd da b) s (ok ((x &&& z) % 2 ^ 32) false false false) ∧
    Completes (.or e dd da b) s (ok ((x ||| z) % 2 ^ 32) false false false) ∧
    Completes (.xor e dd da b) s (ok ((x ^^^ z) % 2 ^ 32) false false false) ∧
    Completes (.shl e dd da b) s (ok (x * 2 ^ sh % 2 ^ 32) false false false) ∧
    Completes (.shr e dd da b) s (ok (x / 2 ^ sh % 2 ^ 32) false false false) ∧
    Completes (.asr e dd da b) s (ok (trunc 32 (xs / 2 ^ sh)) false false false) ∧
    Completes (.min e dd da b) s (ok ((if xs ≤ ys then x else y) % 2 ^ 32) false false false) ∧
    Completes (.max e dd da b) s (ok ((if xs ≤ ys then y else x) % 2 ^ 32) false false false) ∧
    Completes (.mov e dd b) s (ok (y % 2 ^ 32) false false false)) ∧
  (∀ (e dd da : Nat) (b : AluB) (s : State), EngFree s e → s.dreg e da < 2 ^ 32 →
    let x := s.dreg e da
    let y := s.aluS e b
    let xs := s32 x
    Completes (.cmp e da b) s (fun t =>
      AluFlagsAre s t e ((x + 2 ^ 32 - y) % 2 ^ 32) (decide (y ≤ x)) (leaves32 (xs - s32 y)) false ∧
      EngNext [fkey H.ENG_ESR e 0] s t e 1 4 ∧ t.mem = s.mem ∧ lists t = lists s) ∧
    Completes (.neg e dd da) s
      (fun t => AluDone s t e dd (trunc 32 (held32 (-xs))) (decide (x = 0)) (decide (x = 2 ^ 31)) (decide (x = 2 ^ 31))) ∧
    (x < 2 ^ 31 → Completes (.abs e dd da) s fun t => AluDone s t e dd x false false false) ∧
    (2 ^ 31 ≤ x → Completes (.abs e dd da) s fun t =>
      AluDone s t e dd (trunc 32 (held32 (-xs))) false (decide (x = 2 ^ 31)) (decide (x = 2 ^ 31))))

/-- R111, R113, R122: LD32 and LDA read engine memory at the address the mode forms, move the pointer where the mode
says so, and hand the value to the register one instruction later; a far load asks for a word of the axis store and a
later event brings it; LDI and LDIA take their second word at once. An unaligned address is another statement. R121,
R122: the word of a far load arrives in its register and FLP clears; a load of the instruction before lands with the
next instruction, here a NOP. It rests on the model's choices of log entries 58, 59, 65 and 229. -/
def Obligations.EngineLoadsReachRegisters : Prop :=
  (∀ (e k v sh : Nat) (m : MemRef) (s : State), EngFree s e → s.arrErrs = [] →
    let a := s.memAddr e m
    let ptr := fun t : State => t.get H.ENG_P e (m.p % 8) = if m.am = 1 ∨ m.am = 2 then s.memPost e m % 2 ^ 16
      else s.get H.ENG_P e (m.p % 8)
    (a % 4 = 0 → Completes (.ld32 e m k) s fun t =>
      t.late = s.late ++ [{ eng := e, fld := H.ENG_D, idx := k % 16, val := s.engWord e (memOf m) a }] ∧ ptr t ∧
      EngNext [fkey H.ENG_P e (m.p % 8)] s t e 1 4 ∧ t.mem = s.mem) ∧
    (a % 8 = 0 → Completes (.lda e m k) s fun t =>
      t.late = s.late ++ [{ eng := e, fld := H.ENG_A, idx := k % 4, val := trunc 80 (sext 64 (s.engWord2 e (memOf m) a)) }] ∧
      ptr t ∧ EngNext [fkey H.ENG_P e (m.p % 8)] s t e 1 4 ∧ t.mem = s.mem) ∧
    (s.dreg e m.p % 4 = 0 → Completes (.farLoad e k m.p) s fun t =>
      t.get H.ENG_FARD e = k % 16 ∧ t.get H.ENG_FARA e = s.dreg e m.p % 2 ^ 22 ∧ bit (t.esr e) 11 = true ∧
      EngNext [fkey H.ENG_FARD e 0, fkey H.ENG_FARA e 0, fkey H.ENG_ESR e 0] s t e 1 4 ∧ t.mem = s.mem) ∧
    Completes (.ldi e k v) s (fun t => t.dreg e k = v % 2 ^ 32 ∧ EngNext [fkey H.ENG_D e (k % 16)] s t e 2 8 ∧
      t.mem = s.mem ∧ lists t = lists s) ∧
    Completes (.ldia e k sh v) s (fun t =>
      t.get H.ENG_A e (k % 4) = trunc 80 (sext 32 v * 2 ^ (sh % 64)) ∧ EngNext [fkey H.ENG_A e (k % 4)] s t e 2 8 ∧
      t.mem = s.mem ∧ lists t = lists s)) ∧
  (∀ (e k v : Nat) (s : State),
    (e < 16 → bit (s.esr e) 11 = true → Completes (.farLoadArrival e) s fun t =>
      t.get H.ENG_D e (s.get H.ENG_FARD e % 16) = s.storeWord (s.get H.ENG_FARA e / 4 * 4) % 2 ^ 32 ∧
      bit (t.esr e) 11 = false ∧ OnlyRegs [fkey H.ENG_D e (s.get H.ENG_FARD e % 16), fkey H.ENG_ESR e 0] s t) ∧
    (EngTurn s e → k < 16 → s.late = [{ eng := e, fld := H.ENG_D, idx := k, val := v }] →
      Completes (.nop e) s fun t => t.get H.ENG_D e k = v % 2 ^ 32 ∧ t.late = [] ∧
        EngNext [fkey H.ENG_D e k] s t e 1 4 ∧ t.mem = s.mem))

/-- R111, R113, R130: ST32, STA32 and STA64 store at the address their mode forms, outside the record slots, and nowhere
else; a shifted and rounded accumulator is held to the width stored, with SAT. In a record slot ST32 marks the word for
DONE and writes no memory (R106, R128). R121, R137: a far store inside a window of the running clause's descriptor
stores its word in the axis store; outside the windows it stores nothing and the clause is aborted. It rests on the
model's choices of log entries 65 and 67. -/
def Obligations.EngineStoresStayInPlace : Prop :=
  (∀ (e k sh : Nat) (rnd : Bool) (m : MemRef) (s : State), EngFree s e → s.arrErrs = [] → s.memAddr e m < 2 ^ 16 →
    let a := s.memAddr e m
    let at_ := engMem e (memOf m) + a
    let v := rndShift (s.acc e k) (sh % 64) rnd
    let ks := [fkey H.ENG_P e (m.p % 8), fkey H.ENG_ESR e 0]
    (a % 4 = 0 → s.slotAt e (memOf m) a = none →
      Completes (.st32 e m k) s (fun t => t.load at_ 4 = s.dreg e k % 2 ^ 32 ∧ BytesKept at_ (at_ + 4) s t ∧
        EngNext [fkey H.ENG_P e (m.p % 8)] s t e 1 4 ∧ lists t = lists s) ∧
      Completes (.sta32 e m k sh rnd) s (fun t => t.load at_ 4 = trunc 32 (held32 v) ∧
        bit (t.esr e) 5 = (bit (s.esr e) 5 || leaves32 v) ∧ BytesKept at_ (at_ + 4) s t ∧ EngNext ks s t e 1 4 ∧
        lists t = lists s)) ∧
    (a % 8 = 0 → s.slotAt e (memOf m) a = none → s.slotAt e (memOf m) (a + 4) = none →
      Completes (.sta64 e m k sh rnd) s fun t =>
        t.load at_ 8 = trunc 64 (max (-9223372036854775808) (min 9223372036854775807 v)) ∧
        BytesKept at_ (at_ + 8) s t ∧ EngNext ks s t e 1 4 ∧ lists t = lists s) ∧
    (∀ r : Nat × Nat, a % 4 = 0 → s.slotAt e (memOf m) a = some r → Completes (.st32 e m k) s fun t => t.mem = s.mem ∧
      t.slotW.head? = some { eng := e, addr := 0x10000 * memOf m + a, val := s.dreg e k % 2 ^ 32 })) ∧
  (∀ (e k p : Nat) (x : Inst) (s : State), EngFree s e → s.arrErrs = [] → s.runInst e = some x →
    let a := s.dreg e p % 2 ^ 22
    let inside := inWindow (s.get R.SCH_DESC_FSW0 x.desc) a || inWindow (s.get R.SCH_DESC_FSW1 x.desc) a
    (inside = true → a % 4 = 0 → 0x100000 ≤ a → Completes (.farStore e k p) s fun t =>
      t.load (0x58000000 + a) 4 = s.dreg e k % 2 ^ 32 ∧ BytesKept (0x58000000 + a) (0x58000000 + a + 4) s t ∧
      EngNext [] s t e 1 4 ∧ lists t = lists s) ∧
    (inside = true → a % 4 = 0 → a < 0x100000 → Completes (.farStore e k p) s fun t => t.mem = s.mem ∧ lists t = lists s ∧
      t.get H.ENG_PC e = (s.get H.ENG_PC e + 4) % 2 ^ 16) ∧
    (inside = false → (∀ c < 32, s.get H.SW_ON c = 0) → Completes (.farStore e k p) s fun t => t.mem = s.mem ∧ t.engSt e = 0))

/-- R115, R129: MPY, MAC and MSU with one unit or two, and their parallel moves: each accumulator takes its sum modulo
2^80, GOV sets where a sum leaves 80 bits, the moves load X and Y words and move their pointers; no memory is written.
R111, R115, R117: the parallel moves alone; and TAPM, one tap of a delay line: the product of X[Px] and Y[Py] goes into
Aa, Y[Py] moves to the next place of its buffer, and both pointers step back. It rests on the model's choices of log
entries 58 and 229. -/
def Obligations.MultiplyAccumulateAndMoves : Prop :=
  (∀ (e ac da db op : Nat) (u2 : Option MacUnit) (x : Option XMove) (y : Option YMove) (s : State), EngFree s e →
    s.arrErrs = [] → s.moveExc e x y = 0 → (∀ u, u2 = some u → u.ac % 4 ≠ ac % 4) →
    let prod := fun p q => s32 (s.dreg e (p % 8)) * s32 (s.dreg e (q % 8))
    let v := fun o c p q => if o = 0 then prod p q else if o = 1 then s.acc e c + prod p q else s.acc e c - prod p q
    let gov2 := match u2 with
      | some u => leaves80 (v u.op u.ac u.da u.db)
      | none => false
    let ok := fun (o : Nat) (t : State) =>
      t.get H.ENG_A e (ac % 4) = trunc 80 (v o ac da db) ∧
      (∀ u, u2 = some u → t.get H.ENG_A e (u.ac % 4) = trunc 80 (v u.op u.ac u.da u.db)) ∧
      bit (t.esr e) 4 = (bit (s.esr e) 4 || leaves80 (v o ac da db) || gov2) ∧
      (∀ m, x = some m → { eng := e, fld := H.ENG_D, idx := m.dx % 8, val := s.engWord e 0 (s.xAddr e m) } ∈ t.late) ∧
      (∀ m, y = some m → m.wide = false →
        { eng := e, fld := H.ENG_D, idx := m.dst % 8, val := s.engWord e 1 (s.yAddr e m) } ∈ t.late) ∧
      t.mem = s.mem ∧ t.get H.ENG_PC e = (s.get H.ENG_PC e + 4) % 2 ^ 16 ∧
      (∀ k < 16, t.dreg e k = s.dreg e k) ∧ t.waits = s.waits ∧ t.insts = s.insts ∧ t.axEvs = s.axEvs
    (op = 0 → Completes (.mpy e ac da db u2 x y) s (ok op)) ∧
    (op = 1 → Completes (.mac e ac da db u2 x y) s (ok op)) ∧
    (op = 2 → Completes (.msu e ac da db u2 x y) s (ok op))) ∧
  (∀ (e ac px py : Nat) (subtract : Bool) (m : XMove) (s : State), EngFree s e → s.arrErrs = [] →
    (s.xAddr e m % 4 = 0 → Completes (.parallelMove e (some m) none) s fun t =>
      t.late = s.late ++ [{ eng := e, fld := H.ENG_D, idx := m.dx % 8, val := s.engWord e 0 (s.xAddr e m) }] ∧
      t.get H.ENG_P e (m.px % 4) =
        ptrMove (s.xAddr e m) (s.mLen e (m.px % 4)) (if m.byN then s.nOfs e (m.px % 4) else 4) % 2 ^ 16 ∧
      EngNext [fkey H.ENG_P e (m.px % 4)] s t e 1 4 ∧ t.mem = s.mem) ∧
    (let xa := s.ptr e (px % 4)
     let ya := s.ptr e (4 + py % 4)
     let p := s32 (s.engWord e 0 xa) * s32 (s.engWord e 1 ya)
     let v := if subtract then s.acc e ac - p else s.acc e ac + p
     xa % 4 = 0 → ya % 4 = 0 → s.tapNext e py % 4 = 0 → s.slotAt e 1 (s.tapNext e py) = none →
     Completes (.tapm e ac subtract px py) s fun t =>
       t.get H.ENG_A e (ac % 4) = trunc 80 v ∧ bit (t.esr e) 4 = (bit (s.esr e) 4 || leaves80 v) ∧
       t.load (engMem e 1 + s.tapNext e py) 4 = s.engWord e 1 ya % 2 ^ 32 ∧
       BytesKept (engMem e 1 + s.tapNext e py) (engMem e 1 + s.tapNext e py + 4) s t ∧
       t.get H.ENG_P e (px % 4) = ptrMove xa (s.mLen e (px % 4)) (-4) % 2 ^ 16 ∧
       t.get H.ENG_P e (4 + py % 4) = ptrMove ya (s.mLen e (4 + py % 4)) (-4) % 2 ^ 16 ∧
       EngNext [fkey H.ENG_A e (ac % 4), fkey H.ENG_ESR e 0, fkey H.ENG_P e (px % 4), fkey H.ENG_P e (4 + py % 4)] s t e 1 4))

/-- R116, R129: the accumulator functions that leave their result in Ad. R116, R130: an accumulator shifted, rounded and
held to 32 bits in Dr; SOUT takes its shift from Dk and steps Dk; TSTA gives Z and N of an accumulator and leaves the
other flags. It rests on the model's choices of log entries 58, 66 and 271. -/
def Obligations.AccumulatorFunctionsAndOutputs : Prop :=
  (∀ (e ad src sh : Nat) (s : State), EngFree s e →
    let ok := fun v t => AccDone s t e ad v
    Completes (.clra e ad) s (ok 0) ∧
    Completes (.mova e ad src) s (ok (s.acc e src)) ∧
    Completes (.adda e ad src) s (ok (s.acc e ad + s.acc e src)) ∧
    Completes (.suba e ad src) s (ok (s.acc e ad - s.acc e src)) ∧
    Completes (.nega e ad src) s (ok (-s.acc e src)) ∧
    Completes (.shla e ad src sh) s (ok (s.acc e src * 2 ^ (sh % 64))) ∧
    Completes (.shra e ad src sh) s (ok (s.acc e src / 2 ^ (sh % 64))) ∧
    Completes (.ldad e ad src sh) s (fun t =>
      t.get H.ENG_A e (ad % 4) = trunc 80 (s32 (s.dreg e src) * 2 ^ (sh % 64)) ∧ t.mem = s.mem ∧
      EngNext [fkey H.ENG_A e (ad % 4)] s t e 1 4)) ∧
  (∀ (e dr src sh dk : Nat) (rnd : Bool) (s : State), EngFree s e →
    let v := rndShift (s.acc e src) (sh % 64) rnd
    let w := rndShift (s.acc e src) (30 - s.dreg e dk % 8) rnd
    Completes (.mva e dr src sh rnd) s (fun t => t.dreg e dr = trunc 32 (held32 v) ∧
      bit (t.esr e) 5 = (bit (s.esr e) 5 || leaves32 v) ∧
      EngNext [fkey H.ENG_D e (dr % 16), fkey H.ENG_ESR e 0] s t e 1 4 ∧ t.mem = s.mem ∧ lists t = lists s) ∧
    Completes (.sout e dr src dk rnd) s (fun t => (dr % 16 ≠ dk % 16 → t.dreg e dr = trunc 32 (held32 w)) ∧
      t.dreg e dk = s.dreg e dk / 8 % 2 ^ 32 ∧ bit (t.esr e) 5 = (bit (s.esr e) 5 || leaves32 w) ∧
      EngNext [fkey H.ENG_D e (dr % 16), fkey H.ENG_D e (dk % 16), fkey H.ENG_ESR e 0] s t e 1 4 ∧ t.mem = s.mem ∧
      lists t = lists s) ∧
    Completes (.tsta e src) s (fun t => bit (t.esr e) 0 = decide (s.acc e src = 0) ∧
      bit (t.esr e) 1 = decide (s.acc e src < 0) ∧ (∀ k < 16, 2 ≤ k → bit (t.esr e) k = bit (s.esr e) k) ∧
      EngNext [fkey H.ENG_ESR e 0] s t e 1 4 ∧ t.mem = s.mem ∧ lists t = lists s))

/-! ### Engine instructions: control, and dispatch -/

/-- R120, R127: NOP does nothing; PUB writes an outbox word of the clause's level; PROT closes the next instructions to
pre-emption; BRKL leaves the innermost loop level. R120, R122: MVFS reads a special register into Dr; MVTS writes a
pointer, an offset, a length or the save pointer, which its consumers see one instruction later; SPUSH and SPOP move
special registers to and from the stack in X. It rests on the model's choices of log entries 58 and 61. -/
def Obligations.NopPubProtAndSpecialMoves : Prop :=
  (∀ (e k w n : Nat) (s : State), EngFree s e →
    let lvl := s.get H.ENG_LVL1 e
    Completes (.nop e) s (fun t => EngNext [] s t e 1 4 ∧ t.mem = s.mem ∧ lists t = lists s) ∧
    Completes (.pub e k w) s (fun t => t.get H.ENG_OUT e (4 * lvl + w % 4) = s.dreg e k % 2 ^ 32 ∧
      t.get H.ENG_PUB e lvl = 1 ∧ EngNext [fkey H.ENG_OUT e (4 * lvl + w % 4), fkey H.ENG_PUB e lvl] s t e 1 4 ∧
      t.mem = s.mem ∧ lists t = lists s) ∧
    (0 < n → n < 16 → Completes (.prot e n) s fun t => esrProt (t.esr e) = n ∧
      EngNext [fkey H.ENG_ESR e 0] s t e 1 4 ∧ t.mem = s.mem ∧ lists t = lists s) ∧
    (0 < esrLvl (s.esr e) → Completes (.brkl e) s fun t => esrLvl (t.esr e) = esrLvl (s.esr e) - 1 ∧
      EngNext [fkey H.ENG_ESR e 0] s t e 1 4 ∧ t.mem = s.mem ∧ lists t = lists s)) ∧
  (∀ (e k code : Nat) (s : State), EngFree s e → s.arrErrs = [] →
    let sp := s.get H.ENG_SVP e
    let down := trunc 16 ((sp : Int) - 4)
    (code < 0x30 → Completes (.mvfs e k code) s fun t => t.dreg e k = s.special e code % 2 ^ 32 ∧
      EngNext [fkey H.ENG_D e (k % 16)] s t e 1 4 ∧ t.mem = s.mem ∧ lists t = lists s) ∧
    (code < 0x18 → Completes (.mvts e code k) s fun t => t.special e code = s.dreg e k % 2 ^ 16 ∧
      (t.olds.head?.map fun x => x.val) = some (s.special e code) ∧ t.mem = s.mem ∧
      t.get H.ENG_PC e = (s.get H.ENG_PC e + 4) % 2 ^ 16 ∧ ∀ j < 16, t.dreg e j = s.dreg e j) ∧
    Completes (.mvts e 0x1F k) s (fun t => t.get H.ENG_SVP e = s.dreg e k % 2 ^ 16 ∧
      EngNext [fkey H.ENG_SVP e 0] s t e 1 4 ∧ t.mem = s.mem ∧ lists t = lists s) ∧
    (code < 0x30 → sp % 4 = 0 → s.slotAt e 0 down = none → Completes (.spush e code) s fun t =>
      t.get H.ENG_SVP e = down ∧ t.load (engMem e 0 + down) 4 = s.special e code % 2 ^ 32 ∧
      BytesKept (engMem e 0 + down) (engMem e 0 + down + 4) s t ∧ EngNext [fkey H.ENG_SVP e 0] s t e 1 4 ∧
      lists t = lists s) ∧
    (0x30 ≤ code → code < 0x40 → sp % 4 = 0 → Completes (.spop e code) s fun t =>
      t.get H.ENG_SVP e = (sp + 4) % 2 ^ 16 ∧ t.dreg e (code - 0x30) = s.engWord e 0 sp % 2 ^ 32 ∧
      EngNext [fkey H.ENG_SVP e 0, fkey H.ENG_D e (code - 0x30)] s t e 1 4 ∧ t.mem = s.mem ∧ lists t = lists s))

/-- R118, R123: a branch whose condition holds goes on at its target after one delay slot, a call with D15 at the
instruction after the slot; one whose condition does not hold goes on behind its delay slot. R123: the instruction in a
delay slot is followed by the branch's target. R119: LOOP opens a level over the body that follows, with its count; a
count of 0 skips the body. At the end of the body the loop goes back while its count is above 1, and at 1 leaves the
level. It rests on the model's choices of log entries 58 and 268. -/
def Obligations.BranchesCallsAndLoops : Prop :=
  (∀ (e cond tgt : Nat) (b : BrTgt) (s : State), EngFree s e → cond ≤ 10 →
    let goes := fun (n len : Nat) (link : Bool) (t : State) => t.get H.ENG_DLY e = 2 ^ 16 + n % 2 ^ 16 ∧
      t.mem = s.mem ∧ lists t = lists s ∧ (link = true → t.dreg e 15 = (s.get H.ENG_PC e + len + 4) % 2 ^ 16) ∧
      EngNext (fkey H.ENG_DLY e 0 :: if link then [fkey H.ENG_D e 15] else []) s t e (len / 4) len
    let on := fun (len : Nat) (t : State) =>
      t.get H.ENG_DLY e = 2 ^ 16 + 2 ^ 18 + (s.get H.ENG_PC e + len + 4) % 2 ^ 16 ∧ t.mem = s.mem ∧ lists t = lists s ∧
      EngNext [fkey H.ENG_DLY e 0] s t e (len / 4) len
    (s.inLoopTail e 4 = false → condHolds cond (s.esr e) = true →
      Completes (.br e cond b) s (goes (s.target e b) 4 false) ∧
      Completes (.call e cond b) s (goes (s.target e b) 4 true)) ∧
    (s.inLoopTail e 8 = false → condHolds cond (s.esr e) = true →
      Completes (.brl e cond false tgt) s (goes tgt 8 false) ∧
      Completes (.brl e cond true tgt) s (goes tgt 8 true)) ∧
    (s.inLoopTail e 4 = false → condHolds cond (s.esr e) = false →
      Completes (.br e cond b) s (on 4) ∧ Completes (.call e cond b) s (on 4)) ∧
    (s.inLoopTail e 8 = false → condHolds cond (s.esr e) = false →
      ∀ link, Completes (.brl e cond link tgt) s (on 8))) ∧
  (∀ (e : Nat) (s : State), s.engCan e = true → bit (s.esr e) 11 = false → bit (s.get H.ENG_INJR e) 17 = false →
    (∀ x ∈ s.late, x.eng ≠ e) → s.inDelay e = true →
    Completes (.nop e) s fun t => t.get H.ENG_PC e = s.get H.ENG_DLY e % 2 ^ 16 ∧ t.inDelay e = false ∧ t.mem = s.mem) ∧
  (∀ (e fin : Nat) (c : AluB) (s : State), s.engCan e = true → bit (s.esr e) 11 = false →
    bit (s.get H.ENG_INJR e) 17 = false → (∀ x ∈ s.late, x.eng ≠ e) → (∀ x ∈ s.olds, x.eng ≠ e) → s.inDelay e = false →
    esrProt (s.esr e) = 0 →
    let n := esrLvl (s.esr e)
    let pc := s.get H.ENG_PC e
    (n = 0 → 0 < fin → s.loopCount e c ≠ 0 → Completes (.loop e c fin) s fun t =>
      t.get H.ENG_LS e 0 = (pc + 4) % 2 ^ 16 ∧ t.get H.ENG_LE e 0 = (pc + 4 * fin) % 2 ^ 16 ∧
      t.get H.ENG_LC e 0 = s.loopCount e c ∧ esrLvl (t.esr e) = 1 ∧ t.mem = s.mem ∧ lists t = lists s ∧
      EngNext [fkey H.ENG_LS e 0, fkey H.ENG_LE e 0, fkey H.ENG_LC e 0, fkey H.ENG_ESR e 0] s t e 1 4) ∧
    (n = 0 → 0 < fin → s.loopCount e c = 0 → Completes (.loop e c fin) s fun t =>
      t.get H.ENG_LC e 0 = 0 ∧ t.mem = s.mem ∧ lists t = lists s ∧
      EngNext [fkey H.ENG_LS e 0, fkey H.ENG_LE e 0, fkey H.ENG_LC e 0] s t e 2 (4 * fin + 4)) ∧
    (0 < n → bit (s.esr e) 7 = false → pc = s.get H.ENG_LE e (n - 1) → 1 < s.get H.ENG_LC e (n - 1) →
      Completes (.nop e) s fun t => t.get H.ENG_PC e = s.get H.ENG_LS e (n - 1) % 2 ^ 16 ∧
        t.get H.ENG_LC e (n - 1) = (s.get H.ENG_LC e (n - 1) - 1) % 2 ^ 16 ∧ t.esr e = s.esr e) ∧
    (0 < n → bit (s.esr e) 7 = false → pc = s.get H.ENG_LE e (n - 1) → s.get H.ENG_LC e (n - 1) = 1 →
      Completes (.nop e) s fun t => t.get H.ENG_PC e = (pc + 4) % 2 ^ 16 ∧ t.get H.ENG_LC e (n - 1) = 0 ∧
        esrLvl (t.esr e) = n - 1))

/-- R133: an unaligned load or store, an instruction that R118 to R123 call illegal, and the watchdog abort the clause:
the engine ends idle, outside any pre-empting clause, its saved registers cleared. It rests on the model's choices of
log entries 63 and 67. -/
def Obligations.EngineExceptionsAbortClause : Prop :=
  ∀ (e k : Nat) (m : MemRef) (s : State), s.engCan e = true → bit (s.esr e) 11 = false →
    let gone := fun t : State => t.engSt e = 0 ∧ t.get H.ENG_EPC e = 0 ∧ t.get H.ENG_ESS e = 0 ∧ t.get H.ENG_ECS e = 0 ∧
      t.get H.ENG_LVL1 e = 0 ∧ bit (t.esr e) 10 = false ∧ t.inDelay e = false
    (s.memAddr e m % 4 ≠ 0 → Completes (.ld32 e m k) s gone ∧ Completes (.st32 e m k) s gone) ∧
    (s.memAddr e m % 8 ≠ 0 → Completes (.lda e m k) s gone) ∧
    (s.inDelay e = true → Completes (.ldi e k k) s gone ∧ Completes (.done e) s gone ∧ Completes (.prot e k) s gone ∧
      Completes (.br e 0 (.ind k)) s gone) ∧
    Completes (.prot e 0) s gone ∧
    (bit (s.esr e) 10 = false → Completes (.reti e) s gone ∧ Completes (.disp e) s gone) ∧
    (65536 ≤ s.get H.ENG_ECYC e → Completes (.wdog e) s gone)

/-- R110, R148: the dispatcher gives the instance that R147 puts first to the engine that R148 chooses: its program
counter stands at the clause's entry, its registers as R110 says, and its affinity is the engine. R120, R124 to R126,
R151: a pre-emption saves the program counter, ESR and ECYC of the clause that R151 chooses and goes on at 0x0040; DISP
starts the pre-empting clause there; DONE of it goes on at 0x0080; RETI brings the saved registers back after its delay
slot. R128, R143: DONE ends the clause: the instance leaves the list, its cycles are recorded, and the engine is idle,
or, of a pre-empting clause, goes on at 0x0080. Stated here of a clause without a record and without a successor. It
rests on the model's choices of log entries 48, 60, 62, 269 and 270. -/
def Obligations.ClausesStartPreemptAndEnd : Prop :=
  (∀ (x : Inst) (e : Nat) (s : State), x.desc < 1024 → s.nextInst = some x → s.engineFor x = some e →
    s.get H.ENG_INJW e = 0 → s.arrErrs = [] →
    Completes .clauseDispatch s fun t => t.get H.ENG_PC e = x.entry % 2 ^ 16 ∧ t.engSt e = 1 ∧ t.get H.ENG_ECYC e = 0 ∧
      t.get H.ENG_P e 1 = 0xFFC0 ∧ t.get R.SCH_DESC_AFF x.desc = e ∧ t.get R.SCH_DESC_AFFV x.desc = 1 ∧
      (∀ k < 4, t.get H.ENG_OUT e k = 0) ∧ (∀ k, k < 24 → t.byte (engMem e 0 + 0xFFC0 + k) = x.pkt.getD k 0 % 256) ∧
      esrLvl (t.esr e) = 0 ∧ bit (t.esr e) 6 = decide (x.prio < 7) ∧ ∀ y ∈ t.insts, y.id = x.id → y.st = 1 ∧ y.eng = e) ∧
  (∀ (x y : Inst) (e : Nat) (s : State), x.desc < 1024 → s.arrErrs = [] → (∀ z ∈ s.late, z.eng ≠ e) →
    (s.nextInst = some x → x.prio = 7 → s.engineFor x = none → s.engCan e = true → s.openBoundary e = true →
      s.preemptVictim x = some y → y.eng = e → Completes (.preemption e) s fun t =>
        t.get H.ENG_EPC e = s.get H.ENG_PC e % 2 ^ 16 ∧ t.get H.ENG_ESS e = esrWhole e (s.esr e) ∧
        t.get H.ENG_ECS e = s.get H.ENG_ECYC e % 2 ^ 32 ∧ t.get H.ENG_PC e = 0x0040 ∧ bit (t.esr e) 10 = true ∧
        bit (t.esr e) 7 = true ∧ bit (t.esr e) 6 = false ∧ t.mem = s.mem) ∧
    (s.engCan e = true → bit (s.esr e) 10 = true → s.acceptedInst e = some x → s.get H.ENG_INJW e = 0 →
      Completes (.disp e) s fun t => t.get H.ENG_PC e = x.entry % 2 ^ 16 ∧ t.get H.ENG_LVL1 e = 1 ∧
        t.get H.ENG_P e 1 = 0xFF80 ∧ t.get H.ENG_ECYC e = 0 ∧ bit (t.esr e) 10 = true) ∧
    (EngFree s e → bit (s.esr e) 10 = true → Completes (.reti e) s fun t =>
      t.get H.ENG_DLY e = 2 ^ 16 + 2 ^ 17 + s.get H.ENG_EPC e % 2 ^ 16 ∧
      t.esr e = clrBit (s.get H.ENG_ESS e % 2 ^ 16) 11 ∧
      t.get H.ENG_ECYC e = s.get H.ENG_ECS e % 2 ^ 32 ∧ t.mem = s.mem)) ∧
  (∀ (x : Inst) (e : Nat) (s : State), x.desc < 1024 → EngFree s e → s.runInst e = some x → s.slotW = [] →
    x.rtype = 2 → bit (s.esr e) 4 = false → s.get R.SCH_DESC_NEXT_EN x.desc = 0 →
    Completes (.done e) s fun t => t.insts = s.insts.filter (fun y => y.id != x.id) ∧
      t.get R.SCH_DESC_LAST_CYC x.desc = min (s.get H.ENG_ECYC e) 65535 ∧ t.mem = s.mem ∧
      (s.get H.ENG_LVL1 e = 0 → t.engSt e = 0) ∧
      (s.get H.ENG_LVL1 e = 1 → t.get H.ENG_PC e = 0x0080 ∧ t.get H.ENG_LVL1 e = 0))

/-! ### Boundaries, the scheduler and the samples -/

/-- R30, R31, R257: a boundary at which nothing waits gives the part its cycle number and time, and counts toward the
tick. R31, R213, R229: at the boundary of cycle n the head of a running ring starts its frame: the ring's cycle is n,
the token is its own, and the frame's head bears n, the time of the boundary, the head's CID and the token. R262: at a
boundary of its own, the mirror entry of a configured axis is rewritten from its latest sample, and its two sequence
numbers agree. Each is stated of a boundary at which nothing else waits. It rests on the model's choices of log entries
7, 38, 39 and 240. -/
def Obligations.QuietBoundaryBeginsCycle : Prop :=
  ∀ (t n r a : Nat) (s : State),
    let began := fun u : State => u.get R.HIF_CYCLE = n % 2 ^ 64 ∧ u.get R.DCK_TIME = max s.now t % 2 ^ 64 ∧
      u.get H.BND_T = t % 2 ^ 64 ∧ u.get H.BND_N = n % 2 ^ 64 ∧ u.get H.TICK_CNT = min 65535 (s.get H.TICK_CNT + 1)
    let headField := fun (u : State) (at' len v : Nat) =>
      ((List.range len).map fun k => u.byte (headImg r + at' + k)) = toBytesBE len v
    (QuietPart s [] [] → Completes (.boundary t n) s fun u => began u ∧ u.mem = s.mem) ∧
    (QuietPart s [] [r] → r < 2 → s.get R.NRT_RSTATE_STATE r = 4 → s.get R.NRT_RSTATE_HEAD r = 1 →
      Completes (.boundary t n) s fun u => began u ∧ u.get R.NRT_CYCLE r = n % 2 ^ 64 ∧
        u.get R.NRT_TOKEN_CID r = s.get R.HIF_CID ∧ u.get R.NRT_TOKEN_EPOCH r = s.get R.CNJ_EPOCH ∧
        headField u 26 8 n ∧ headField u 34 8 t ∧ headField u 42 4 (s.get R.HIF_CID) ∧
        headField u 46 4 (s.get R.HIF_CID) ∧ headField u 50 2 (s.get R.CNJ_EPOCH)) ∧
    (QuietPart s [a] [] → a < 256 → s.axSt a = 2 → s.axDue a n = true → s.get R.PWR_STATE_STATE ≠ 2 →
      s.get R.HM_STAT_PHASE a = 0 → s.get H.FRST_ON a = 0 → s.get H.AX_STOP a = 0 →
      Completes (.boundary t n) s fun u => began u ∧ u.get R.MIR_MSEQ a = (s.get R.MIR_MSEQ a + 1) % 2 ^ 32 ∧
        u.get R.MIR_MSEQ_END a = u.get R.MIR_MSEQ a ∧ u.get R.MIR_FB_BOUNDARY a = s.get H.AX_FBB a ∧
        u.get R.MIR_P_DEM a = s.get R.AXS_P_DEM a ∧ u.get R.MIR_P_ACT a = s.get R.AXS_P_ACT a ∧
        u.get R.MIR_FE a = s.get R.AXS_FE a ∧ u.get R.MIR_V_ACT a = s.get R.AXS_V_ACT a ∧
        u.get R.MIR_TRQ_CMD a = s.get R.AXS_TRQ_CMD a ∧ u.get R.MIR_LIM_FLAGS a = s.get R.AXS_LIM_FLAGS a ∧
        u.get R.MIR_TRJ_TARGET a = s.get R.TRJ_TARGET a ∧ u.get R.MIR_TRJ_T_END a = s.get R.TRJ_T_END a ∧
        u.mem = s.mem)

/-- R57, R59, R61: the end of a statistics period copies the counters of every axis that has been counting through it
into the axis's snapshot, whose two sequence numbers agree and have advanced, restarts the counters, and raises cause 1.
R288, R289: the boundary of a staged mode switch, its staging complete and its start cycle come, makes its mode the
active one, with no switch pending; before that nothing is swapped. It rests on the model's choices of log entries 36,
40 and 278. -/
def Obligations.BoundaryEndsPeriodAndSwapsMode : Prop :=
  (∀ s : State, s.domDown 5 = false →
    Completes .statisticsLatch s fun t => bit (t.get R.HIF_INT_STAT) 1 = true ∧ t.get H.STAT_CNT = 0 ∧
      (∀ a ∈ s.axes, t.get R.LIV_SAMPLES a = 0 ∧ t.get R.LIV_OVERRUN a = 0 ∧ t.get R.LIV_CLAMP a = 0 ∧
        t.get R.LIV_FE_MIN a = 0x7FFFFFFF ∧ t.get R.LIV_FE_MAX a = 0x80000000) ∧
      (∀ a ∈ s.axes, s.get H.STAT_ON a ≠ 0 →
        t.get R.SNP_SAMPLES a = s.get R.LIV_SAMPLES a % 2 ^ 32 ∧ t.get R.SNP_OVERRUN a = s.get R.LIV_OVERRUN a % 2 ^ 32 ∧
        t.get R.SNP_FE_MIN a = s.get R.LIV_FE_MIN a % 2 ^ 32 ∧ t.get R.SNP_FE_MAX a = s.get R.LIV_FE_MAX a % 2 ^ 32 ∧
        t.get R.SNP_SEQ a = (s.get R.SNP_SEQ a + 1) % 2 ^ 32 ∧ t.get R.SNP_SEQ_END a = t.get R.SNP_SEQ a)) ∧
  (∀ s : State, s.swapDue (s.get H.BND_T) (s.get H.BND_N) = true → s.get H.MSW_MB = 0 →
    Completes .overlaySwap s fun t => t.get R.CFG_MODE_ACTIVE = s.get H.MSW_B - 1 ∧
      t.get H.MSW_B = 0 ∧ t.get R.CFG_MODE_OVERRIDDEN = 0 ∧ t.get R.CFG_MODE_CYC = s.get H.BND_N % 2 ^ 64) ∧
  (∀ s : State, s.swapDue (s.get H.BND_T) (s.get H.BND_N) = false → exec .overlaySwap s = .next s)

/-- R106, R135, R163: a record load that is done lets its clause begin; a self-test passed brings the engine back into
service, one failed quarantines it and reports the detector. R149, R152, R154: a deadline that passes drops an instance
not dispatched, and makes one that runs late; three overruns in a row raise fault class OVERRUN at the axis's boundary;
a clause past its budget leaves a BUDGET record. It rests on the model's choices of log entries 3, 48, 259 and 267. -/
def Obligations.LoadsSelfTestsAndDeadlines : Prop :=
  (∀ (e : Nat) (s : State), e < 16 →
    Completes (.recordLoadDone e) s (fun t => t.get H.ENG_LOAD e = 0 ∧ OnlyRegs [fkey H.ENG_LOAD e 0] s t) ∧
    (s.engSt e = 2 → s.get H.ENG_INJT e = 0 → Completes (.selfTestComplete e true) s fun t => t.engSt e = 0 ∧
      bit (t.get R.SCH_STATUS_ENG_INSVC) e = true ∧
      OnlyRegs [fkey R.SCH_ENG_STATE 0 0, fkey R.SCH_STATUS_ENG_INSVC 0 0, fkey R.SCH_ADMITTED 0 0,
        fkey R.SCH_STATUS_OVERLOAD 0 0] s t) ∧
    (s.engSt e = 2 → Completes (.selfTestComplete e false) s fun t => t.engSt e = 3 ∧
      t.get R.INT_DET_STICKY 6 = 1 ∧ t.mem = s.mem)) ∧
  (∀ (d a e : Nat) (x : Inst) (s : State),
    (s.insts.find? (fun y => y.desc == d && !y.late) = some x → s.timeUp x.dl = true →
      (x.st = 0 ∨ x.st = 3 → Completes (.deadline d) s fun t => t.insts = s.insts.filter fun y => y.id != x.id) ∧
      (x.st = 1 ∨ x.st = 2 → Completes (.deadline d) s fun t => t.insts = setInst s.insts { x with late := true })) ∧
    (a < 256 → s.get R.AXS_STATUS_OVR_CONSEC a = 3 →
      ¬(s.axSt a = 6 ∧ s.get H.AX_TRQ a ≠ 0 ∧ s.get R.AXS_STATUS_REACTION a < 2) →
      exec (.overrunFault a) s = .next { s with axEvs := s.axEvs ++ [{ axis := a, kind := .fault 3 }] }) ∧
    (a < 256 → s.get R.AXS_STATUS_OVR_CONSEC a = 3 → s.axSt a = 6 → s.get H.AX_TRQ a ≠ 0 →
      s.get R.AXS_STATUS_REACTION a < 2 →
      exec (.overrunFault a) s = .next { s with axEvs := s.axEvs ++ [{ axis := a, kind := .raiseOff }] }) ∧
    (s.runInst e = some x → s.get R.SCH_STATUS_TRC_FROZEN = 0 → s.trcBuf.length < 32 → s.get R.SCH_TRC_CTL_ARM = 0 →
      Completes (.budget e) s fun t => ∃ r, t = { s with trcBuf := s.trcBuf ++ [r] } ∧ r / 2 ^ 60 = 8))

/-- R159, R162: the oldest waiting record goes into trace memory at IDX, which moves on; a write of ARM arms the trace,
one of FREEZE on an armed trace writes a TRIGGER record, the records after it done the trace freezes with cause 3, and
RELEASE lets it go on. R107, R136, R157, R163, R280: CODE_LOAD and DESC_WRITE wait for the boundary with their words,
and SCH_CONFIG is in force at once, each held to its range; DESC_WRITE of a standard descriptor is refused. It rests on
the model's choices of log entries 42 and 94. -/
def Obligations.TraceAndSchedulerRequests : Prop :=
  (∀ (r : Nat) (rest : List Nat) (s : State),
    let i := s.get R.SCH_TRC_WPTR_IDX
    (s.trcBuf = r :: rest → s.get R.SCH_STATUS_TRC_FROZEN = 0 → s.get H.TRC_PHASE = 0 → r / 2 ^ 60 ≠ 10 → i < 4096 →
      s.get R.SCH_TRC_CTL_FREEZE = 0 →
      Completes .traceDrain s fun t => t.trcBuf = rest ∧ t.load (0x40100000 + 8 * i) 8 = r % 2 ^ 64 ∧
        t.get R.SCH_TRC_WPTR_IDX = (i + 1) % 4096 ∧ BytesKept (0x40100000 + 8 * i) (0x40100000 + 8 * i + 8) s t ∧
        RegsKept [fkey R.SCH_TRC_WPTR_IDX 0 0, fkey R.SCH_TRC_WPTR_WRAPS 0 0] s t) ∧
    (s.get H.TRC_PHASE ≠ 0 → s.get H.TRC_POST = 0 → Completes .traceFreeze s fun t =>
      t.get R.SCH_STATUS_TRC_FROZEN = 1 ∧ t.get R.SCH_TRC_TRIGIDX = s.get H.TRC_IDX % 4096 ∧ t.trcBuf = [] ∧
      t.get R.SCH_TRC_CTL_ARM = 0 ∧ bit (t.get R.HIF_INT_STAT) 3 = true ∧ t.mem = s.mem) ∧
    (HostWord s 0x40048 → Completes .schTrcCtlArm s fun t => t.get R.SCH_TRC_CTL_ARM = 1 ∧ OnlyRegs [fkey R.SCH_TRC_CTL_ARM 0 0] s t) ∧
    (HostWord s 0x40048 → Completes .schTrcCtlRelease s fun t => t.get R.SCH_STATUS_TRC_FROZEN = 0 ∧
      OnlyRegs [fkey R.SCH_STATUS_TRC_FROZEN 0 0] s t) ∧
    (HostWord s 0x40048 → s.get R.SCH_TRC_CTL_ARM ≠ 0 → s.get H.TRC_TRIG = 0 → s.get R.SCH_STATUS_TRC_FROZEN = 0 → s.trcBuf.length < 32 →
      Completes .schTrcCtlFreeze s fun t => t.get R.SCH_TRC_CTL_FREEZE = 1 ∧ t.get H.TRC_TRIG = 1 ∧
        (t.trcBuf.getLast?.map fun x => x / 2 ^ 60) = some 10 ∧ t.trcBuf.length = s.trcBuf.length + 1 ∧ t.mem = s.mem)) ∧
  (∀ (mb : Nat) (s : State),
    let off := s.par mb 0 4
    let n := clampN 1 1022 (s.par mb 4 4)
    let ws := (List.range 8).map fun k => s.par mb (4 + 4 * k) 4
    (Ready s mb 0x0300 (8 + 4 * n) → off + n ≤ 4096 → (∀ e < 16, s.get H.ENG_OWN e = 0) →
      Completes (.codeLoad mb) s fun t => Answered t mb 2 0 [] ∧
        t.codePend = s.codePend ++ [(off, (List.range n).map fun k => s.par mb (8 + 4 * k) 4)] ∧
        RegsKept (answerPlaces mb ++ [fkey R.CFG_STATUS_DIRTY 0 0, fkey H.CMT_D 0 0]) s t ∧ t.mem = s.mem) ∧
    (Ready s mb 0x0301 36 → off < 1024 → bits (ws.getD 0 0) 24 4 = 8 → bits ((s.descNext off).getD 0 0) 24 4 = 8 →
      bit (ws.getD 0 0) 22 = false → bits (ws.getD 3 0) 16 2 ≠ 3 → Completes (.descWrite mb) s fun t =>
        Answered t mb 2 0 (toBytes 4 off) ∧ t.descPend = s.descPend.filter (fun p => p.1 != off) ++ [(off, ws)] ∧
        RegsKept (answerPlaces mb ++ [fkey R.CFG_STATUS_DIRTY 0 0, fkey H.CMT_D 0 0]) s t) ∧
    (Ready s mb 0x0301 36 → bits (ws.getD 0 0) 24 4 ≠ 8 → Completes (.descWrite mb) s fun t =>
      Answered t mb 3 0x0302 [] ∧ AnswerKeeps [] mb 0 s t) ∧
    (Ready s mb 0x0302 12 → Completes (.schConfig mb) s fun t => Answered t mb 2 0 [] ∧
      t.get R.SCH_CFG_ADMIT = clampN 50 95 (s.par mb 0 4) ∧ t.get R.SCH_CFG_TRC_POST = min 4095 (s.par mb 4 4) ∧
      t.get R.SCH_TRC_TRIG = s.par mb 8 4 % 2 ^ 16 ∧
      AnswerKeeps [fkey R.SCH_CFG_ADMIT 0 0, fkey R.SCH_CFG_TRC_POST 0 0, fkey R.SCH_TRC_TRIG 0 0,
        fkey R.SCH_ADMITTED 0 0, fkey R.SCH_STATUS_OVERLOAD 0 0, fkey R.CFG_STATUS_DIRTY 0 0, fkey H.CMT_D 0 0] mb 0 s t))

/-- R65, R138, R306: a sample of an axis whose loop is open takes the position of its port, extended to 64 bits, counts
itself, and closes no loop: AXIS_LOOP, TRAJECTORY_STEP and POSITION_PART of a local axis; VELOCITY_PART of such a sample
publishes nothing. R65, R67, R73, R127, R305: a sample of an Operational axis without sections closes the loop and
publishes the command: AXIS_LOOP and POSITION_PART form the following error against the demand and x_p of it, saturated;
AXIS_LOOP goes on to the torque command held between its limits; TRAJECTORY_STEP publishes the demanded position as its
port counts it. R65, R73: the second half of a closed-loop sample without sections: the velocity stage sums z,
feed-forward and the actual velocity, the output stage the other feed-forward terms, each saturated once, and the
limiter holds the torque command between its limits, showing where it did. It rests on the model's choices of log
entries 72, 85, 98 and 274. -/
def Obligations.SamplesCloseTheLoop : Prop :=
  (∀ (a : Nat) (x : Inst) (s : State), a < 256 → PlainSample s a → s.axSt a < 3 → s.isNirte a = false →
    bit (x.word 3) 4 = false →
    let p := s.geti R.AXS_P_ACT a
    let d := sext 32 (trunc 32 ((x.word 0 : Int) - (p - s.geti H.AX_OFS a)))
    let done := fun t : State => t.get H.ENG_DID x.eng (s.get H.ENG_LVL1 x.eng) = 1 ∧ t.mem = s.mem ∧
      t.motions = s.motions ∧ t.axEvs = s.axEvs
    let ok := fun t : State => t.get R.AXS_P_ACT a = trunc 64 (p + d) ∧
      t.get R.AXS_STATUS_SAMPLE_SEQ a = (s.get R.AXS_STATUS_SAMPLE_SEQ a + 1) % 2 ^ 11 ∧
      t.get R.LIV_SAMPLES a = min (s.get R.LIV_SAMPLES a + 1) (2 ^ 32 - 1) ∧ done t
    (ClauseRuns s 0 a x → Completes (.axisLoop a) s ok) ∧
    (ClauseRuns s 4 a x → Completes (.trajectoryStep a) s ok) ∧
    (ClauseRuns s 1 a x → Completes (.positionPart a) s ok) ∧
    (ClauseRuns s 2 a x → s.get H.AX_SMODE a = 0 → Completes (.velocityPart a) s done)) ∧
  (∀ (a : Nat) (x : Inst) (s : State), a < 256 → ClosedLoop s a x →
    let lvl := s.get H.ENG_LVL1 x.eng
    let p := s.geti R.AXS_P_ACT a
    let p' := sext 64 (trunc 64 (p + sext 32 (trunc 32 ((x.word 0 : Int) - (p - s.geti H.AX_OFS a)))))
    let v' := satI 32 (roundUp (sext 32 (x.word 1) * s.geti R.AXS_VEL_SCALE a) 16)
    let fe := satI 32 (s.geti R.AXS_P_DEM a - p')
    let xp := satI 32 (roundUp (fe * s.geti R.AXS_POS_SCALE a) 16)
    let trq := clampI (s.geti R.AXS_TRQ_MIN a) (s.geti R.AXS_TRQ_MAX a) (satI 32 (xp - v'))
    let ok := fun t : State => t.geti R.AXS_P_ACT a = p' ∧ t.geti R.AXS_V_ACT a = v' ∧ t.geti R.AXS_FE a = fe ∧
      t.get R.AXS_P_DEM a = s.get R.AXS_P_DEM a ∧ t.get H.AX_SMODE a = 3 ∧ t.get H.ENG_DID x.eng lvl = 1 ∧ t.mem = s.mem
    (ClauseRuns s 0 a x → s.axKind a < 2 → s.groupOf a = 255 → Completes (.axisLoop a) s fun t => ok t ∧
      t.get R.AXS_TRQ_CMD a = trunc 32 trq ∧ t.get H.ENG_PUB x.eng lvl = 1 ∧
      (s.axKind a = 1 → t.get H.ENG_OUT x.eng (4 * lvl) = trunc 32 trq)) ∧
    (ClauseRuns s 1 a x → s.axKind a < 2 → Completes (.positionPart a) s fun t => ok t ∧
      t.geti H.AX_XP a = xp ∧ t.geti H.AX_YP a = xp) ∧
    (ClauseRuns s 4 a x → 2 ≤ s.axKind a → s.encOf a = none → s.groupOf a = 255 →
      Completes (.trajectoryStep a) s fun t => ok t ∧ t.get H.ENG_PUB x.eng lvl = 1 ∧
        t.get H.ENG_OUT x.eng (4 * lvl) = trunc 32 (s.geti R.AXS_P_DEM a - s.geti H.AX_OFS a))) ∧
  (∀ (a : Nat) (x : Inst) (s : State), a < 256 → PlainSample s a → ClauseRuns s 2 a x → s.get H.AX_SMODE a = 3 →
    s.axKind a < 2 → s.get R.AXS_STAGE_CFG_NVEL a = 0 → s.get R.AXS_STAGE_CFG_NOUT a = 0 → s.get R.HM_STAT_PHASE a = 0 →
    s.get H.LRN_ON a = 0 → s.get H.LRN_REC a = 0 → s.get R.AXS_KVFF a = 0 → s.get R.AXS_KAFF a = 0 →
    s.get R.AXS_KTFF a = 0 → s.groupOf a ≠ 255 →
    let xv := satI 32 (s.geti H.AX_Z a - s.geti R.AXS_V_ACT a)
    let lo := s.geti R.AXS_TRQ_MIN a
    let hi := s.geti R.AXS_TRQ_MAX a
    Completes (.velocityPart a) s fun t => t.get R.AXS_TRQ_CMD a = trunc 32 (clampI lo hi xv) ∧
      t.get R.AXS_LIM_FLAGS a = b2n (decide (hi < xv)) + 2 * b2n (decide (xv < lo)) ∧
      t.get R.LIV_CLAMP a = (if hi < xv ∨ xv < lo then min (s.get R.LIV_CLAMP a + 1) (2 ^ 32 - 1) else s.get R.LIV_CLAMP a) ∧
      t.get H.ENG_DID x.eng (s.get H.ENG_LVL1 x.eng) = 1)

/-- R83, R86, R88, R92, R99, R138: the group clause of two members without cross-coupling gives each the product of its
row of the decoupling matrix and their y_p, saturated, and hands its members the values of the last unfrozen sample
while FREEZE is 1; a supervision clause, a learning update with nothing to do and a capture off its sweep only spend
their cycles; a learning update that works goes one step on, and its eighth instance leaves the new table in the shadow
and counts the repetition; a sweep's capture writes one record. R80, R83, R98: the timed limit of a following error
raises its fault once; a sweep whose records are full ends; a tracked notch whose centre has moved by more than half a
per cent goes over to its other bank. It rests on the model's choices of log entries 79, 84, 87, 89, 93 and 248. -/
def Obligations.ClausesOfGroupsAndTimers : Prop :=
  (∀ (g r tb ch : Nat) (x : Inst) (s : State),
    let lvl := s.get H.ENG_LVL1 x.eng
    let spent := fun (n : Nat) (t : State) => OnlyRegs [fkey H.ENG_ECYC x.eng 0, fkey H.ENG_BUSY x.eng 0,
      fkey H.ENG_DID x.eng lvl] s t ∧ t.get H.ENG_DID x.eng lvl = 1 ∧
      t.get H.ENG_ECYC x.eng = (s.get H.ENG_ECYC x.eng + n) % 2 ^ 32
    (ClauseRuns s 3 g x → g < 32 → s.get R.GRP_CFG_FREEZE g = 1 → (s.members g).Nodup →
      Completes (.groupClause g) s fun t => t.get H.ENG_DID x.eng lvl = 1 ∧ t.mem = s.mem ∧
        ∀ j (h : j < (s.members g).length), t.get H.AX_Z (s.members g)[j] = trunc 32 (s.geti H.GRP_Z g j)) ∧
    (∀ (m0 m1 : Nat), ClauseRuns s 3 g x → g < 32 → s.get R.GRP_CFG_FREEZE g = 0 → s.members g = [m0, m1] → m0 ≠ m1 →
      (∀ c < 4, s.get R.GRP_CC_CTL_EN g c = 0) → s.get H.AX_SMODE m0 = 3 → s.get H.AX_SMODE m1 = 3 →
      let z := fun j : Nat => satI 32 (roundUp (s.geti R.GRP_M g (8 * j) * s.geti H.AX_YP m0) 30 +
        roundUp (s.geti R.GRP_M g (8 * j + 1) * s.geti H.AX_YP m1) 30)
      Completes (.groupClause g) s fun t => t.geti H.AX_Z m0 = z 0 ∧ t.geti H.AX_Z m1 = z 1 ∧
        t.get H.ENG_DID x.eng lvl = 1 ∧ t.mem = s.mem) ∧
    (s.supOn r = some x → Completes (.supervision r) s (spent (40 + 6 * (s.ringAxes r).length))) ∧
    (ClauseRuns s 6 tb x → x.rtype = 2 → s.get H.LFF_WAIT tb = 0 → s.get H.LFF_CHUNK tb = 0 →
      Completes (.learningUpdate tb) s (spent 30)) ∧
    (ClauseRuns s 6 tb x → x.rtype = 2 → tb < 64 → s.get R.LFF_CFG_FREEZE tb = 0 →
      0 < s.get H.LFF_CHUNK tb → s.get H.LFF_CHUNK tb < 7 → Completes (.learningUpdate tb) s fun t =>
        t.get H.LFF_CHUNK tb = s.get H.LFF_CHUNK tb + 1 ∧ t.get H.ENG_DID x.eng lvl = 1 ∧ t.mem = s.mem) ∧
    (ClauseRuns s 6 tb x → x.rtype = 2 → tb < 64 → s.get R.LFF_CFG_FREEZE tb = 0 → s.get H.LFF_CHUNK tb = 7 →
      Completes (.learningUpdate tb) s fun t => t.get H.LFF_CHUNK tb = 0 ∧ t.get H.LFF_NEW tb = 1 ∧
        t.get R.LFF_STAT_REPS tb = min (s.get R.LFF_STAT_REPS tb + 1) 65535 ∧
        t.get R.LFF_STAT_UPDATE_PENDING tb = b2n (s.on H.LFF_WAIT tb) ∧ t.get H.ENG_DID x.eng lvl = 1 ∧
        BytesKept (lffMem tb 0x2000) (lffMem tb 0x4000) s t) ∧
    (ClauseRuns s 7 ch x → x.rtype = 2 → s.get H.SW_ON ch = 0 →
      Completes (.tuningCapture ch) s (spent 24)) ∧
    (ClauseRuns s 7 ch x → x.rtype = 2 → ch < 32 → s.get H.SW_ON ch = 1 → s.get H.SW_RUN ch = 1 →
      s.get H.SW_REC ch < s.get H.SW_LEN ch → s.get H.SW_LEN ch < 2 ^ 32 → Completes (.tuningCapture ch) s fun t =>
        t.get H.SW_REC ch = s.get H.SW_REC ch + 1 ∧ t.get H.ENG_DID x.eng lvl = 1 ∧
        ∀ k < 4, t.load (pageAddr (s.get H.SW_PAGE ch - 1) + 0x40 + 16 * s.get H.SW_REC ch + 4 * k) 4 =
          s.get H.SW_V ch k % 2 ^ 32)) ∧
  (∀ (a ch k : Nat) (s : State),
    (a < 256 → s.get R.AXS_STATUS_FE_WARN a = 1 → s.feCount a ≤ s.get R.AXS_FE_CTL_FE_CNT a → s.get H.AX_FEHIT a = 0 →
      s.get R.AXS_FE_CTL_EN_TIMED a = 1 → Completes (.feTimed a) s fun t =>
        t.axEvs = s.axEvs ++ [{ axis := a, kind := .fault 1 }] ∧ t.get H.AX_FEHIT a = 1 ∧
        RegsKept [fkey H.AX_FEHIT a 0] s t ∧ t.mem = s.mem) ∧
    (ch < 32 → s.get H.SW_ON ch = 1 → s.get H.SW_RUN ch = 1 → s.get H.SW_LEN ch ≤ s.get H.SW_REC ch → s.waits = [] →
      s.lopOf 0x0208 ch = some k → Completes (.sweepComplete ch) s fun t =>
        t.get H.SW_ON ch = 0 ∧ t.get R.LOP_ID_STATUS k = 2 ∧ t.get R.LOP_PROG_PERMILLE k = 1000) ∧
    (∀ (p : Int) (f : Nat), a < 256 → s.get R.AXS_TRK_CTL_T0_EN a = 1 → s.get R.AXS_TRK_SRC_T0_NPT a = 2 → s.get H.TRK_T a 0 = 0 →
      s.get R.AXS_TRK_CTL_T0_SEC a < 24 → s.get R.AXS_TRK_SRC_T0_AXIS a < 256 → p = s.geti R.AXS_P_ACT (s.get R.AXS_TRK_SRC_T0_AXIS a) →
      p ≤ s.geti R.AXS_TRK0_PT_POS a 0 → f = s.get R.AXS_TRK0_PT_FRQ a 0 →
      s.get R.AXS_TRK0_FC a < 200 * absI ((f : Int) - s.get R.AXS_TRK0_FC a) → s.get R.AXS_TRK_CTL_T0_BANK a < 2 →
      Completes (.trackerRetune a 0) s fun t => t.get R.AXS_TRK0_FC a = f % 2 ^ 32 ∧
        t.get R.AXS_TRK_CTL_T0_BANK a = 1 - s.get R.AXS_TRK_CTL_T0_BANK a ∧ t.get H.TRK_T a 0 = s.now % 2 ^ 64 ∧
        t.mem = s.mem))

/-! ### Axes, motion, compare and capture -/

/-- R44 to R46, R49, R513: what the timers of an axis do as they run out. The enable and stop time-outs raise their
classes at the axis's boundary; the end of the hold applies the brake, the end of the brake's delay removes torque at
the boundary; a fault reset whose halves have not cleared FLT is answered FAILED with the state. R41, R42, R165, R166: a
request on an axis's state or motion waits, PENDING, with its event for the axis's next boundary, and changes nothing
else; on an Absent axis it fails WRONG_STATE with the state in its result; AXIS_CONFIGURE fails at once where one of its
checks fails. It rests on the model's choices of log entries 3, 97, 98, 99, 259 and 263. -/
def Obligations.AxisTimersAndRequests : Prop :=
  (∀ (a mb : Nat) (s : State), a < 256 →
    let posted : AxKind → Out := fun k => .next { s with axEvs := s.axEvs ++ [{ axis := a, kind := k }] }
    (s.axSt a = 3 → s.timeUp (s.get H.AX_T0 a + 1000000 * s.get R.AXS_EN_TIMEOUT a) = true →
      exec (.enableTimeout a) s = posted (.fault 8)) ∧
    (s.axSt a = 5 → s.get H.AX_STOP a = 1 ∨ s.get H.AX_STOP a = 2 →
      s.timeUp (s.get H.AX_T0 a + 1000000 * s.get R.AXS_STOP_TIMEOUT a) = true →
      exec (.stopTimeout a) s = posted (.fault 9)) ∧
    (s.get H.AX_STOP a = 3 → s.timeUp (s.get H.AX_HT a + 1000000 * s.get R.AXS_BRK_DELAY a) = true →
      exec (.brakeEngageDelay a) s = posted .stopDone) ∧
    (s.axSt a = 5 → s.get H.AX_STOP a = 2 → s.still a = true →
      s.timeUp (s.get H.AX_HT a + 1000000 * s.get R.AXS_STOP_HOLD a) = true → Completes (.stopHold a) s fun t =>
      t.get R.AXS_STATUS_BRAKE a = 1 ∧ t.get H.AX_STOP a = 3 ∧
      OnlyRegs [fkey R.AXS_STATUS_BRAKE a 0, fkey H.AX_STOP a 0, fkey H.AX_HT a 0] s t) ∧
    (s.get H.FRST_ON a ≠ 0 → 16 ≤ s.get H.FRST_N a → s.waiting 0x0104 a = [mb] → mb < 32 → s.get H.MB_JRN mb = 0 →
      Completes (.frstTimeout a) s fun t => t.get H.FRST_ON a = 0 ∧ Answered t mb 3 0x0102 (toBytes 4 (s.axSt a)) ∧
        AnswerKeeps [fkey H.FRST_ON a 0, fkey H.FRST_N a 0] mb 4 s t)) ∧
  (∀ (mb : Nat) (s : State),
    let a := s.par mb 0 4
    let posted : Nat → AxKind → Out := fun opc k => .next
      { s with waits := s.waits ++ [{ mb := mb, opc := opc, key := a + 0x10000, arg := 0 }],
               axEvs := s.axEvs ++ [{ axis := a, kind := k }] }
    let refused := fun t => Answered t mb 3 0x0004 (toBytes 4 0) ∧ AnswerKeeps [] mb 4 s t
    let seg := 16 + 16 * clampN 1 64 (s.par mb 4 4)
    a < 256 →
    (s.axSt a ≠ 0 →
      (Ready s mb 0x0101 4 → exec (.axisDeconfigure mb) s = posted 0x0101 (.deconfigured mb)) ∧
      (Ready s mb 0x0102 4 → exec (.axisEnable mb) s = posted 0x0102 (.enable mb)) ∧
      (Ready s mb 0x0103 4 → exec (.axisDisable mb) s = posted 0x0103 (.disable mb)) ∧
      (Ready s mb 0x0104 4 → exec (.axisFaultReset mb) s = posted 0x0104 (.faultReset mb)) ∧
      (Ready s mb 0x0105 4 → exec (.axisFaultRaise mb) s = posted 0x0105 (.faultRaise mb)) ∧
      (Ready s mb 0x0400 60 → exec (.move mb) s = posted 0x0400 (.motion mb)) ∧
      (Ready s mb 0x0401 8 → exec (.stop mb) s = posted 0x0401 (.motion mb)) ∧
      (Ready s mb 0x0402 seg → exec (.segAppend mb) s = posted 0x0402 (.motion mb)) ∧
      (Ready s mb 0x0403 20 → exec (.tableStart mb) s = posted 0x0403 (.motion mb)) ∧
      (Ready s mb 0x0404 4 → exec (.homeStart mb) s = posted 0x0404 (.motion mb))) ∧
    (Ready s mb 0x0100 32 → if s.cfgRefuse (s.cfgPars mb) = 0 then exec (.axisConfigure mb) s = posted 0x0100 (.configured mb)
      else Completes (.axisConfigure mb) s (fun t =>
        Answered t mb 3 (s.cfgRefuse (s.cfgPars mb)) [] ∧ AnswerKeeps [] mb 0 s t)) ∧
    (s.axSt a = 0 → s.axEvs = [] →
      (Ready s mb 0x0102 4 → Completes (.axisEnable mb) s refused) ∧
      (Ready s mb 0x0400 60 → Completes (.move mb) s refused)))

/-- R65, R77, R89, R279, R280: REC_READ and GRP_READ return words of a record; REC_WRITE takes its words, here KVFF,
unless R79, R81 or the admission of R157 refuse it whole; GRP_WRITE takes its words, here of a group without members.
R50, R55, R74, R78, R280: AXIS_REACTIONS sets the reaction codes of the classes, each held to its range, and leaves the
forced ones; SEC_RECIPE of a pass-through writes that section's coefficients, clears its freeze bit and returns them,
unless the admission refuses it. It rests on the model's choices of log entries 82, 83, 94, 96, 228 and 245. -/
def Obligations.RecordRequestsAndReactions : Prop :=
  (∀ (mb : Nat) (s : State),
    let a := s.par mb 0 4
    let off := s.par mb 4 4
    let n := max 4 (min (s.par mb 8 4) 4096)
    let u := recAfter s a off [s.par mb 8 4]
    (Ready s mb 0x0107 12 → a < 256 → s.axSt a ≠ 0 → off % 4 = 0 → n % 4 = 0 → off + n ≤ 0x1000 →
      Completes (.recRead mb) s fun t =>
        Answered t mb 2 0 (ofWords (s.words R.axsFields (0x10000000 + 0x1000 * a + off) (n / 4))) ∧
        AnswerKeeps [] mb n s t) ∧
    (Ready s mb 0x0201 4 → a < 32 → Completes (.grpRead mb) s fun t =>
      Answered t mb 2 0 (ofWords (s.words R.grpFields (0x18000000 + 0x200 * a) 128)) ∧ AnswerKeeps [] mb 512 s t) ∧
    (Ready s mb 0x0108 12 → a < 256 → s.axSt a ≠ 0 → off = 0x28 → s.get H.MB_LEN mb = 12 →
      s.trkCheck (s.recPut a off [s.par mb 8 4]) a off 1 = 0 →
      Completes (.recWrite mb) s fun t =>
        if s.overload u = true then Answered t mb 3 0x0301 [] ∧ AnswerKeeps [] mb 0 s t
        else Answered t mb 2 0 (toBytes 4 1) ∧ t.get R.AXS_KVFF a = s.par mb 8 4 ∧ t.motions = s.motions) ∧
    (Ready s mb 0x0202 12 → a < 32 → off = 0x10 → s.get H.MB_LEN mb = 12 → s.get R.GRP_CFG_N a = 0 →
      Completes (.grpWrite mb) s fun t =>
        Answered t mb 2 0 (toBytes 4 1) ∧ t.get R.GRP_M a 0 = s.par mb 8 4 ∧ t.descPend = s.descPend)) ∧
  (∀ (mb : Nat) (s : State),
    let a := s.par mb 0 4
    let k := s.par mb 4 4
    (Ready s mb 0x0106 17 → a < 256 → s.axSt a ≠ 0 → Completes (.axisReactions mb) s fun t =>
      Answered t mb 2 0 [] ∧
      ∀ c < 13, t.get R.AXS_REACT a c = (reactForced (c + 1)).getD (min 3 (s.par mb (4 + c) 1))) ∧
    (Ready s mb 0x0200 12 → a < 256 → s.axSt a ≠ 0 → k < 24 → s.par mb 8 4 = 0 → s.tracked a (0xA0 + 20 * k) 5 = false →
      Completes (.secRecipe mb) s fun t => if s.overload (s.withRecipe mb) = true then
          Answered t mb 3 0x0301 [] ∧ AnswerKeeps [] mb 0 s t
        else Answered t mb 2 0 (ofWords [0, 0x40000000, 0, 0, 0, 0]) ∧ t.get R.AXS_SEC_COEF a (5 * k) = 0x40000000 ∧
          (∀ c, 0 < c → c < 5 → t.get R.AXS_SEC_COEF a (5 * k + c) = 0) ∧ bit (t.get R.AXS_SEC_FREEZE a) k = false))

/-- R90, R93, R95: LFF_WRITE writes a header, here of a table that is bound to nothing; LFF_CLEAR zeroes a table and its
counts; LFF_EXPORT returns the half of a table that MBX_ARG names; LFF_IMPORT stages one. It rests on the model's
choices of log entry 90. -/
def Obligations.LearningTableRequests : Prop :=
  ∀ (mb : Nat) (s : State),
    let tb := s.par mb 0 4
    let p := s.lffArg mb
    (Ready s mb 0x0203 44 → tb < 64 → bit (s.par mb 4 4) 8 = false → bit (s.get H.LFF_DESC tb) 10 = false →
      Completes (.lffWrite mb) s fun t => Answered t mb 2 0 [] ∧ t.get R.LFF_BIND_EN tb = 0 ∧
        t.get R.LFF_GAIN tb = s.par mb 12 4 ∧ t.mem = s.mem) ∧
    (Ready s mb 0x0204 4 → tb < 64 → Completes (.lffClear mb) s fun t => Answered t mb 2 0 [] ∧
      t.get R.LFF_STAT_REPS tb = 0 ∧ t.get R.LFF_D0 tb = 0 ∧ (∀ x < 0xA000, t.byte (lffMem tb x) = 0) ∧
      BytesKept (lffMem tb 0) (lffMem tb 0xA000) s t) ∧
    (Ready s mb 0x0205 0 → Completes (.lffExport mb) s fun t =>
      Answered t mb 2 0 (s.bytes (lffMem p.1 (4096 * p.2)) 4096) ∧ AnswerKeeps [] mb 4096 s t) ∧
    (Ready s mb 0x0206 4096 → Completes (.lffImport mb) s fun t => Answered t mb 2 0 [] ∧
      bit (t.get H.LFF_IMP p.1) p.2 = true ∧
      (∀ x < 4096, t.byte (lffMem p.1 (0x4000 + 4096 * p.2) + x) = s.byte (pageOf mb + x)) ∧
      BytesKept (lffMem p.1 (0x4000 + 4096 * p.2)) (lffMem p.1 (0x5000 + 4096 * p.2)) s t)

/-- R97 to R99, R263, R272: PROBE_ALLOC takes a run of free trace pages for an axis's probe ring and answers where; and
SWEEP_START, on an Operational axis, opens a long operation and takes the first free channel and the pages its records
need. It rests on the model's choices of log entries 91, 92, 246 and 277. -/
def Obligations.TracePagesAreAllocated : Prop :=
  ∀ (mb p c k : Nat) (s : State), (∀ x < 32, s.get H.SW_ORPH x = 0) →
    let a := s.par mb 0 4
    let n := clampN 1 248 (s.par mb 4 4)
    let len := sweepLen (s.par mb 8 4) ((List.range 11).map fun j => s.par mb (20 + 4 * j) 4) (s.axPeriod a)
    (Ready s mb 0x0207 8 → a < 256 → s.axSt a ≠ 0 → s.get H.PRB_PAGE a = 0 → s.pageRun n = some p →
      Completes (.probeAlloc mb) s fun t =>
        Answered t mb 2 0 (toBytes 4 (0x108000 + 0x1000 * p) ++ toBytes 4 ((4096 * n - 64) / 40)) ∧
        t.get H.PRB_PAGE a = p + 1 ∧ t.get H.PRB_N a = n ∧ (∀ j < n, t.get H.PG_USED (p + j) = 1) ∧
        t.load (pageAddr p + 4) 4 = (4096 * n - 64) / 40 ∧ t.load (pageAddr p + 12) 4 = a ∧ quiet t = quiet s) ∧
    (Ready s mb 0x0208 64 → a < 256 → 0x18 ≤ s.par mb 4 4 → s.par mb 4 4 ≤ 0x1A → s.par mb 8 4 ≤ 2 → s.axSt a = 4 →
      ((List.range 32).find? fun x => !s.on H.SW_ON x && s.get H.SW_PAGE x == 0) = some c →
      s.swFor a (s.par mb 4 4) = none → sweepPages len ≤ 248 → s.pageRun (sweepPages len) = some p →
      s.descAlloc ≠ none → s.lopSlot = some k →
      Completes (.sweepStart mb) s fun t => Answered t mb 2 0 (toBytes 4 (0x108000 + 0x1000 * p)) ∧
        t.get R.MBX_HANDLE mb = s.lopHandle ∧ t.get R.LOP_ID_HANDLE k = s.lopHandle ∧ t.get R.LOP_ID_STATUS k = 1 ∧
        t.get R.LOP_OBJ_OPCODE k = 0x0208 ∧ t.get H.SW_ON c = 1 ∧ t.get H.SW_AXIS c = a ∧ t.get H.SW_PAGE c = p + 1)

/-- R165, R185, R188, R191, R192: what happens at the times a trajectory sets. The end of a segment starts its
successor, or without one counts an underrun and holds; a motion whose T_s has come takes hold, planned from the state
it finds; a homing that takes too long aborts with its reason; a hard stop found gives the reference and goes on to the
next phase. It rests on the model's choices of log entries 3, 103, 105, 108, 259 and 275. -/
def Obligations.TrajectoryEventsTakeEffect : Prop :=
  ∀ (a k : Nat) (m : Motion) (g : Seg) (l : List Seg) (s : State), a < 256 →
    let te := s.get H.SEG_TE a
    let x := s.segEnd a
    let one : Int := 4294967296
    (s.tableOn a = true → s.effectUp a te = true → s.segLeft a = false →
      (s.segsOf a = [] → x.v = 0 → Completes (.segmentEnd a) s fun t =>
        t.get R.TRJ_SEG_STAT_STATE a = 2 ∧ t.get R.TRJ_SEG_DONE a = (s.get R.TRJ_SEG_DONE a + 1) % 2 ^ 32 ∧
        t.get R.TRJ_SEG_STAT_UNDERRUNS a = min (s.get R.TRJ_SEG_STAT_UNDERRUNS a + 1) 65535 ∧ t.mem = s.mem) ∧
      (s.segsOf a = g :: l → s.get H.SEG_TS a = 0 →
        s.segOk a x.p x.v (s.swlClamp a g.pEnd * one) (g.vEnd * one) (g.dur * s.axPeriod a) = true →
        Completes (.segmentEnd a) s fun t => t.get R.TRJ_SEG_STAT_STATE a = 1 ∧ t.segs = dropSeg a s.segs ∧
          t.get R.TRJ_SEG_DONE a = (s.get R.TRJ_SEG_DONE a + 1) % 2 ^ 32 ∧
          t.get H.SEG_TE a = (te + g.dur * s.axPeriod a) % 2 ^ 64 ∧ t.mem = s.mem)) ∧
    (s.waitingMotion a = some m → s.effectUp a m.ts = true → (∀ y ∈ s.motionsOf a, y.ts ≤ m.ts) → s.get H.LRN_T a = 0 →
      m.kind = 1 → s.get R.TRJ_SEG_STAT_STATE a = 0 → s.segsOf a = [] →
      Completes (.motionTakesHold a) s fun t =>
        t.motions = s.motions.map (fun x => if x = m then { s.replan m with held := true } else x) ∧
        t.get R.TRJ_STAT_MODE a = 1 ∧ t.mem = s.mem ∧
        RegsKept [fkey R.TRJ_STAT_MODE a 0, fkey R.TRJ_TARGET a 0, fkey R.TRJ_T_END a 0, fkey R.TRJ_STAT_REVERSAL a 0] s t) ∧
    (s.get R.HM_STAT_PHASE a ≠ 0 → s.get H.HM_SUSP a = 0 → s.lopOf 0x0404 a = some k → s.waits = [] →
      s.timeUp (s.get H.HM_T0 a + 1000000 * s.get R.HM_TIMEOUT a) = true →
      Completes (.homingTimeout a) s fun t => t.get R.HM_STAT_PHASE a = 0 ∧ t.get R.HM_STAT_ERR a = 7 ∧
        t.get R.LOP_ID_STATUS k = 3 ∧ t.get R.LOP_PROG_REASON k = 0x0407 ∧ t.get R.TRJ_STAT_MODE a = 4 ∧ t.mem = s.mem) ∧
    (s.hardStop a = true → s.get H.HM_NEXT a = 0 → s.stallDwelt a = true → Completes (.hardStopStall a) s fun t =>
      t.get R.HM_REF a = s.get R.AXS_P_ACT a % 2 ^ 64 ∧ t.get R.HM_STAT_COARSE a = 0 ∧ t.get R.HM_STAT_PHASE a = 2 ∧
      t.mem = s.mem)

/-- R196, R197, R200 to R203, R346: a crossing of the armed position fires the output and moves on to the next position,
at most four times in one interval; the pulse ends; a field output a unit drives follows at once, no tick awaited; an edge at a capture unit waits for its sample, or is lost and counted
where the unit has no room; arming and disarming wait for the boundary, and NEXT takes out the oldest entry. R194, R200,
R203, R340: the configuration of a compare or capture unit waits for the boundary, unless its pin is an encoder's;
CMP_LIST_WRITE stores its positions at once. It rests on the model's choices of log entries 113, 114, 116, 117 and 259.
-/
def Obligations.CompareAndCaptureUnits : Prop :=
  (∀ (u c t₀ frac : Nat) (rising : Bool) (x : Track) (s : State), u < 32 → c < 32 →
    let src := s.get R.CMP_CAP_CTL_SRC c
    let waiting := (s.capsOf c).length + (s.edges.filter fun x => x.unit == c).length
    let clock := [fkey R.DCK_TIME 0 0, fkey R.DCK_FRAC 0 0]
    let outs := [fkey H.TRG_LVL 0 0, fkey H.FIO_SW 0 0, fkey H.FIO_TPD 0 0] ++ (List.range 32).map fun x => fkey H.FIO_CHG x 0
    let driven := fun (t : State) => ∀ x < 32,
      bit (t.get H.FIO_SW) x = if t.isSX && decide (24 ≤ x) then t.soHigh x else t.fioOn x
    (s.get R.CMP_CTL_EN u ≠ 0 → s.get R.CMP_STAT_ARMED u ≠ 0 → s.get H.CMP_TGAP u < 2 → s.trackAt u t₀ = some x →
      s.cmpPassed u (x.posAt ((t₀ : Int) - 2)) (x.posAt ((t₀ : Int) + 2)) = true →
      (x.fired < 4 → Completes (.compareFire u t₀) s fun t => t.get R.CMP_LAST_T u = t₀ % 2 ^ 64 ∧
        t.get R.CMP_STAT_FIRED u = min (s.get R.CMP_STAT_FIRED u + 1) 65535 ∧ t.get H.CMP_PON u = 1 ∧
        t.get H.CMP_K u = (s.get H.CMP_K u + 1) % 2 ^ 32 ∧ driven t ∧ t.mem = s.mem) ∧
      (4 ≤ x.fired → Completes (.compareFire u t₀) s fun t =>
        t.get R.CMP_STAT_MISSED u = min 255 (s.get R.CMP_STAT_MISSED u + 1) ∧
        OnlyRegs (fkey R.CMP_STAT_MISSED u 0 :: clock) s t)) ∧
    (s.get H.CMP_PON u ≠ 0 → s.timeUp (s.get H.CMP_TE u) = true → Completes (.comparePulseEnd u) s fun t =>
      t.get H.CMP_PON u = 0 ∧ driven t ∧ OnlyRegs (fkey H.CMP_PON u 0 :: outs ++ clock) s t) ∧
    (src ≠ 0x3F → (src < 16 → bit (s.get R.CMP_TRG_DIR) src = false) → s.capTakes c t₀ rising = true →
      (waiting < 16 → Completes (.captureEdge c t₀ frac rising) s fun t =>
        t.edges = s.edges ++ [{ unit := c, t := t₀, frac := frac, rising := rising }] ∧
        RegsKept (fkey R.CMP_CAP_STAT_ARMED c 0 :: fkey H.CAP_DIS c 0 :: clock) s t ∧ t.caps = s.caps) ∧
      (16 ≤ waiting → Completes (.captureEdge c t₀ frac rising) s fun t => t.get R.CMP_CAP_FLAGS_OVF c = 1 ∧
        t.get R.CMP_CAP_OVFCNT c = min (s.get R.CMP_CAP_OVFCNT c + 1) (2 ^ 32 - 1) ∧
        OnlyRegs (fkey R.CMP_CAP_FLAGS_OVF c 0 :: fkey R.CMP_CAP_OVFCNT c 0 :: clock) s t)) ∧
    (HostWord s (R.CMP_ARM.base + R.CMP_ARM.stride * u) → Completes (.cmpArm u) s fun t =>
      t.get H.CMP_PEND u = 1 ∧ OnlyRegs [fkey H.CMP_PEND u 0] s t) ∧
    (HostWord s (R.CMP_DISARM.base + R.CMP_DISARM.stride * u) → Completes (.cmpDisarm u) s fun t =>
      t.get H.CMP_PEND u = 2 ∧ OnlyRegs [fkey H.CMP_PEND u 0] s t) ∧
    (HostWord s (R.CMP_CAP_ARM.base + R.CMP_CAP_ARM.stride * c) → Completes (.cmpCapArm c) s fun t =>
      t.get H.CAP_PEND c = 1 ∧ OnlyRegs [fkey H.CAP_PEND c 0] s t) ∧
    (HostWord s (R.CMP_CAP_NEXT.base + R.CMP_CAP_NEXT.stride * c) → Completes (.cmpCapNext c) s fun t =>
      t.caps = dropCap c s.caps ∧ t.mem = s.mem ∧
      t.get R.CMP_CAP_STAT_COUNT c = ((dropCap c s.caps).filter fun x => x.unit == c).length % 32)) ∧
  (∀ (mb : Nat) (s : State),
    let u := s.par mb 0 4
    let w := s.par mb 4 4
    let n := clampN 1 511 w
    (Ready s mb 0x0405 36 → u < 32 →
      ((bit w 0 && s.encPin (bits w 8 6)) = false → Completes (.cmpConfig mb) s fun t =>
        Waits s t mb 0x0405 u 0 ∧ t.get H.CMP_CFGP u = 1 ∧ t.mem = s.mem ∧
        ∀ k < 8, t.get H.CMP_NEWW u k = s.par mb (4 + 4 * k) 4) ∧
      ((bit w 0 && s.encPin (bits w 8 6)) = true → Completes (.cmpConfig mb) s fun t =>
        Answered t mb 3 0x0702 [] ∧ AnswerKeeps [] mb 0 s t)) ∧
    (Ready s mb 0x0406 (8 + 8 * n) → u + n ≤ 8192 → Completes (.cmpListWrite mb) s fun t => Answered t mb 2 0 [] ∧
      (∀ i < n, t.load (0x90000 + 8 * (u + i)) 8 = s.par mb (8 + 8 * i) 8) ∧
      BytesKept (0x90000 + 8 * u) (0x90000 + 8 * (u + n)) s t ∧ RegsKept (answerPlaces mb) s t ∧ quiet t = quiet s) ∧
    (Ready s mb 0x0407 8 → u < 32 → (bit w 0 && s.encPin (bits w 4 6)) = false → Completes (.capConfig mb) s fun t =>
      Waits s t mb 0x0407 u 0 ∧ t.get H.CAP_CFGP u = 1 ∧ t.get H.CAP_NEWW u = w ∧
      RegsKept [fkey H.CAP_CFGP u 0, fkey H.CAP_NEWW u 0] s t ∧ t.mem = s.mem))

/-! ### Rings -/

/-- R205, R238, R239, R241, R243, R246: what the timers and link events of the rings do. The distributed clock locks,
holds over, and takes its backup reference; a measurement notes its cycle; a peer-delay request is answered and a
response gives the link's delay; IDENTIFY goes out again; a wait for link that runs out refuses the ring; the bypass
switches show their place; a link that goes down is counted. R140, R141, R207, R223, R237, R240, R244, R271: a feedback
half that lands is stored in the slot's input image and releases the clause of its slot; the backstop releases it
without one at its time and not before; a frame back at its head counts what is missing and the halves each slot gave
back, shows a change of topology or a break of the ring, and gives the clock's offset; a frame that is forwarded is
counted where it is foreign, and gives APPLY and HOPS where it is not. It rests on the model's choices of log entries 3,
6, 118, 124, 128, 239, 240, 243, 259, 261, 272 and 279. -/
def Obligations.RingsTimersLinksAndFrames : Prop :=
  (∀ (r p node id t1 t2 t3 t4 : Nat) (closed phyOk : Bool) (s : State), r < 2 → p < 4 → node < 4096 →
    let st := s.get R.NRT_RSTATE_STATE r
    (s.get R.DCK_STATE_STATE = 1 → 16 ≤ s.get H.DC_GOOD → Completes .dcLock s fun t =>
      t.get R.DCK_STATE_STATE = 2 ∧ OnlyRegs [fkey R.DCK_STATE_STATE 0 0] s t) ∧
    (s.get R.DCK_STATE_STATE = 1 ∨ s.get R.DCK_STATE_STATE = 2 → 16 ≤ s.get H.DC_STUCK → Completes .dcHoldover s fun t =>
      t.get R.DCK_STATE_STATE = 3 ∧ OnlyRegs [fkey R.DCK_STATE_STATE 0 0, fkey H.DC_HOLDN 0 0, fkey H.DC_GOOD 0 0] s t) ∧
    (s.get R.DCK_STATE_STATE = 3 → s.get R.NRT_RCFG4_REF2 0 ≠ 0 → 64 ≤ s.get H.DC_HOLDN → Completes .dcRef2Switch s fun t =>
      t.get R.DCK_STATE_REFSRC = 2 ∧ t.get R.DCK_STATE_STATE = 1 ∧ t.get H.DC_NEWREF = 1 ∧
      OnlyRegs [fkey R.DCK_STATE_REFSRC 0 0, fkey R.DCK_STATE_STATE 0 0, fkey H.DC_NEWREF 0 0, fkey H.DC_REFT 0 0,
        fkey H.DC_STUCK 0 0] s t) ∧
    (st = 4 → s.get R.NRT_RSTATE_HEAD r ≠ 0 → s.get H.BND_N % 1024 = 0 ∨ s.get H.BND_N % 1024 = 256 →
      Completes (.delayMeasurement r) s fun t => t.get R.NRT_MEAS_CYC r = s.get H.BND_N % 2 ^ 64 ∧
        bit (t.get H.PRB_OUT r) (if s.get H.BND_N % 1024 = 0 then 0 else 1) = true ∧ lists t = lists s ∧
        RegsKept [fkey H.PRB_OUT r 0, fkey R.NRT_MEAS_CYC r 0] s t) ∧
    (st = 4 → s.get H.BND_N % 1024 = 512 → Completes (.delayMeasurement r) s fun t =>
      t.get H.PD_ID (2 * r) = 2 ^ 16 + s.get H.PD_NEXT % 2 ^ 16 ∧
      t.get H.PD_ID (2 * r + 1) = 2 ^ 16 + (s.get H.PD_NEXT + 1) % 2 ^ 16 ∧ lists t = lists s ∧
      RegsKept [fkey H.PD_NEXT 0 0, fkey H.PD_ID (2 * r) 0, fkey H.PD_ID (2 * r + 1) 0] s t) ∧
    Completes (.peerDelayRequest p id t2 t3) s (fun t => t.get H.PD_RESP p 0 = id % 2 ^ 64 ∧
      t.get H.PD_RESP p 1 = t2 % 2 ^ 64 ∧ t.get H.PD_RESP p 2 = t3 % 2 ^ 64 ∧
      OnlyRegs [fkey H.PD_RESP p 0, fkey H.PD_RESP p 1, fkey H.PD_RESP p 2] s t) ∧
    (s.get H.PD_ID p = 2 ^ 16 + id → s.get R.NRT_RSTATE_STATE (p / 2) ≠ 3 →
      Completes (.peerDelayResponse p id t1 t2 t3 t4) s fun t =>
        t.get R.NRT_PD_PS p = ((((t4 : Int) - t1) - ((t3 : Int) - t2)) * 1000 / 131072).toNat % 2 ^ 32 ∧
        OnlyRegs [fkey R.NRT_PD_PS p 0, fkey H.PD_ID p 0] s t) ∧
    (s.get H.NODE_ST (4096 * r + node) = 3 → s.get H.NODE_SEEN (4096 * r + node) ≠ 0 → s.acyc = [] →
      s.get H.NODE_IDT (4096 * r + node) + 256 ≤ s.get H.BND_N →
      Completes (.identifyRepeat r node) s fun t => t.get H.NODE_IDT (4096 * r + node) = s.get H.BND_N % 2 ^ 64 ∧
        (t.acyc.map fun m => (m.ring, m.node, m.svc, m.data, m.mb)) = [(r, node, 1, [], none)] ∧
        RegsKept [fkey H.NODE_IDT (4096 * r + node) 0, fkey H.ACYC_TID r 0] s t ∧ t.mem = s.mem) ∧
    (st = 1 → s.waits = [] → s.timeUp (s.get H.LINK_T r + 500000000) = true → Completes (.linkWaitTimeout r) s fun t => t.get R.NRT_RSTATE_STATE r = 6 ∧
      t.get R.NRT_RSTATE_REFUSE r = 9 ∧ OnlyRegs [fkey R.NRT_RSTATE_STATE r 0, fkey R.NRT_RSTATE_REFUSE r 0] s t) ∧
    (s.get H.BYP_CMD r ≠ 0 → s.get H.PWR_HOLD = 0 → s.domDown 4 = false →
      s.on H.BYP_HOLD r = closed → s.get H.BND_N % 1024 ∉ [0, 256, 512] → s.waits = [] →
      Completes (.bypassTransition r closed) s fun t =>
      t.get R.NRT_PSTAT_BYP (2 * r) = b2n closed ∧ t.get R.NRT_PSTAT_BYP (2 * r + 1) = b2n closed ∧
      OnlyRegs [fkey R.NRT_PSTAT_BYP (2 * r) 0, fkey R.NRT_PSTAT_BYP (2 * r + 1) 0, fkey H.BYP_CMD r 0] s t) ∧
    (s.get H.PWR_HOLD ≠ 0 ∨ s.domDown 4 = true → exec (.bypassTransition r closed) s = .next s) ∧
    (s.get R.NRT_RCFG_MODE (p / 2) ≠ 2 ∨ phyOk = true → s.get R.NRT_RSTATE_STATE (p / 2) ≠ 1 →
      Completes (.portLinkUp p phyOk) s fun t => t.get R.NRT_PSTAT_LINK p = 1 ∧
        OnlyRegs [fkey R.NRT_PSTAT_LINK p 0] s t) ∧
    (s.get R.NRT_PSTAT_LINK p ≠ 0 → Completes (.portLinkDown p) s fun t => t.get R.NRT_PSTAT_LINK p = 0 ∧
      t.get R.NRT_PCNT_DOWN p = min (s.get R.NRT_PCNT_DOWN p + 1) (2 ^ 32 - 1) ∧ t.mem = s.mem)) ∧
  (∀ (r slot d p resid t₀ frac : Nat) (copy : Bool) (half mac hd pl : List Nat) (s : State), r < 2 → slot < 256 → p < 4 →
    let l := mac ++ hd ++ pl
    let hops := wireField l 60 2
    let flags := wireField l 24 2
    let mine := s.frameKnown (p / 2) l = true ∧ wireField l 23 1 = 1 ∧ wireField l 42 4 = s.get R.HIF_CID
    let heads := s.get R.NRT_RSTATE_STATE (p / 2) = 4 ∧ s.get R.NRT_RSTATE_HEAD (p / 2) ≠ 0
    let missfb := fun t : State => t.get R.NRT_CNT_MISSFB (p / 2) =
      min (s.get R.NRT_CNT_MISSFB (p / 2) + s.missHalves (p / 2) l) (2 ^ 32 - 1)
    let f := s.landFrame r slot
    let n := s.slotSize r / 2
    let h := (List.range n).map fun k => half.getD k 0 % 256
    let seen := fun (t : State) => t.mem = s.mem ∧ lists { t with mpq := [] } = lists { s with mpq := [] } ∧
      ∀ i < min 256 (s.get R.NRT_RCFG2_NSLOT (p / 2)), bit (s.retHalf (p / 2) l i) 7 = true → t.get H.SLOT_V0 (256 * (p / 2) + i) = 0
    let places := fkey R.NRT_CNT_MISSFB (p / 2) 0 :: fkey H.RET_CYC (p / 2) 0 ::
      (List.range 256).map fun i => fkey H.SLOT_V0 (256 * (p / 2) + i) 0
    let newInst := fun (t : State) (cyc : Nat) (pkt : List Nat) => ∃ x, t.insts = s.insts ++ [x] ∧ x.desc = d ∧
      x.cause = 0 ∧ x.cyc = cyc ∧ x.pkt = pkt ∧ x.prio = s.get R.SCH_DESC_PRIO d ∧ x.st = 0
    (slot < s.get R.NRT_RCFG2_NSLOT r → s.get R.NRT_RSTATE_STATE r = 4 → s.get R.NRT_RSTATE_SPLIT r = 0 →
      s.get H.FB_BAD (256 * r + slot) = 0 → s.landDescs r slot f = [d] → CanRelease s d → n ≤ 32 →
      Completes (.slotLanding r slot copy false half) s fun t => newInst t f (halfPkt h) ∧
        (∀ k < n, t.byte (piIn r slot + k) = half.getD k 0 % 256) ∧ BytesKept (piIn r slot) (piIn r slot + 32) s t) ∧
    (d < 1024 → s.get R.SCH_DESC_REL d = 0 → s.backFrame d ≤ s.get H.BND_N → CanRelease s d →
      s.timeUp (s.backTime d (s.backFrame d)) = true → Completes (.backstopRelease d) s fun t =>
        newInst t (s.backFrame d) (s.backPkt d (s.backFrame d)) ∧ t.mem = s.mem ∧
        (s.get R.NRT_RSTATE_SPLIT (s.get R.SCH_DESC_RING d) = 0 → s.backPkt d (s.backFrame d) = [])) ∧
    (s.timeUp (s.backTime d (s.backFrame d)) = false → exec (.backstopRelease d) s = .next s) ∧
    (heads → mine → s.get R.NRT_RSTATE_SPLIT (p / 2) = 0 → s.get H.INJ_FCS p = 0 →
      (hops = s.get R.NRT_TOPO_HOPS (p / 2) → bit flags 15 = false → (p = 1 → wireField l 62 2 = 0) →
        Completes (.cycleFrameReturn p true mac hd pl t₀ frac) s fun t => missfb t ∧ seen t ∧ RegsKept places s t) ∧
      (hops ≠ s.get R.NRT_TOPO_HOPS (p / 2) → Completes (.cycleFrameReturn p true mac hd pl t₀ frac) s fun t =>
        t.get R.NRT_FLAGS_TOPO_CHANGE (p / 2) = 1 ∧
        t.get H.PROBEP (p / 2) = (if s.get H.PROBEP (p / 2) = 0 then 2 else s.get H.PROBEP (p / 2)) ∧ missfb t) ∧
      (hops = s.get R.NRT_TOPO_HOPS (p / 2) → bit flags 15 = true → Completes (.cycleFrameReturn p true mac hd pl t₀ frac) s fun t =>
        t.get H.SPLITP (p / 2) = (if p % 2 = 0 then 1 else s.get H.SPLITP (p / 2)) ∧ missfb t ∧ seen t ∧
        RegsKept (fkey H.SPLITP (p / 2) 0 :: places) s t) ∧
      (hops = s.get R.NRT_TOPO_HOPS (p / 2) → bit flags 15 = false → (p = 1 → wireField l 62 2 = 0) →
        Completes (.cycleFrameReturn p false mac hd pl t₀ frac) s fun t => missfb t ∧
          t.get R.NRT_CNT_FCS (p / 2) = min (s.get R.NRT_CNT_FCS (p / 2) + 1) (2 ^ 32 - 1) ∧
          t.get R.NRT_PCNT_FCS p = min (s.get R.NRT_PCNT_FCS p + 1) (2 ^ 32 - 1) ∧ t.get R.INT_DET_STICKY 0x0B = 1)) ∧
    (p = 1 → heads → mine → s.get H.INJ_FCS 1 = 0 → bit flags 15 = false → wireField l 62 2 ≠ 0 →
      s.dcFresh (wireField l 26 8) (wireField l 64 8) = true → s.get H.DC_NEWREF = 0 → s.get H.DC_FIRST ≠ 0 →
      s.get R.DCK_STATE_STATE ≠ 2 → Completes (.cycleFrameReturn 1 true mac hd pl t₀ frac) s fun t =>
        t.get R.DCK_OFFSET = trunc 32 ((((t₀ : Int) - wireField l 64 8) * 65536 + ((frac : Int) - wireField l 72 2)) * 1000 /
          65536 - ((s.get R.NRT_R_PS 0 : Int) - s.dcRefDelay) - s.geti H.DC_PHASE) ∧ t.get H.DC_STUCK = 0 ∧
        (s.get R.DCK_STATE_STATE = 0 → t.get R.DCK_STATE_STATE = 1) ∧ t.mem = s.mem) ∧
    (s.frameKnown (p / 2) l = false → s.get R.NRT_RSTATE_HEAD (p / 2) = 0 ∨ s.get R.NRT_RSTATE_STATE (p / 2) = 4 →
      Completes (if s.get R.NRT_RSTATE_HEAD (p / 2) = 0 then .frameForward p true mac hd pl resid
        else .cycleFrameReturn p true mac hd pl t₀ frac) s fun t =>
        t.get R.NRT_PCNT_FOREIGN p = min (s.get R.NRT_PCNT_FOREIGN p + 1) (2 ^ 32 - 1) ∧
        OnlyRegs [fkey R.NRT_PCNT_FOREIGN p 0] s t) ∧
    (s.get R.NRT_RSTATE_HEAD (p / 2) = 0 → s.frameKnown (p / 2) l = true → wireField l 23 1 = 1 → s.get H.INJ_FCS p = 0 →
      l.length + 4 < 0x4000 →
      let out := forwarded l (s.get R.NRT_PD_PS p) resid
      (Completes (.frameForward p true mac hd pl resid) s fun t =>
        t.get R.NRT_APPLY_NS (p / 2) = wireField l 74 4 % 2 ^ 32 ∧ t.get R.NRT_TOPO_HOPS (p / 2) = hops % 2 ^ 12 ∧
        t.bytes (fwdImg p) (out.length + 4) = (out ++ frameFcs out).map (· % 256) ∧
        BytesKept (fwdImg p) (fwdImg p + (out.length + 4)) s t ∧ lists t = lists s ∧
        RegsKept [fkey H.CNJ_EFM 0 0, fkey R.NRT_APPLY_NS (p / 2) 0, fkey H.FWD_EPOCH (p / 2) 0, fkey H.FWD_LEN p 0,
          fkey R.NRT_TOPO_HOPS (p / 2) 0] s t) ∧
      Completes (.frameForward p false mac hd pl resid) s fun t =>
        t.bytes (fwdImg p) (out.length + 4) = (out ++ (frameFcs out).map fun b => 255 - b).map (· % 256) ∧
        t.get R.NRT_PCNT_FCS p = min (s.get R.NRT_PCNT_FCS p + 1) (2 ^ 32 - 1) ∧ t.get R.INT_DET_STICKY 0x0B = 1))

/-- R228, R230, R240 to R243: a first scan is kept; a second that is the same ends the scan; a probe gives R and L; the
second direction of the measurement begins cyclic operation where every margin holds; a node lost takes its axes with
it. It rests on the model's choices of log entries 122 and 262. -/
def Obligations.RingStartAndNodes : Prop :=
  ∀ (r hops acc maxrx node : Nat) (entries : List Nat) (s : State), r < 2 → node < 4096 →
    let st := s.get R.NRT_RSTATE_STATE r
    (st = 2 → s.get H.SCAN_HAVE r = 0 → Completes (.scanFrameReturn r hops entries) s fun t =>
      t.get H.SCAN_HAVE r = 1 ∧ t.scanList r = (entries.take 4096).map (· % 65536) ∧ t.get R.NRT_RSTATE_STATE r = 2 ∧
      t.axEvs = s.axEvs) ∧
    (st = 2 → s.get H.SCAN_HAVE r ≠ 0 → s.scanList r = entries.take 4096 → s.get H.SCAN_HOPS r = hops →
      entries.length ≤ 4064 → (scanAddrs entries).eraseDups.length = entries.length →
      Completes (.scanFrameReturn r hops entries) s fun t => t.get R.NRT_RSTATE_STATE r = 3 ∧
        t.get R.NRT_TOPO_NODES r = entries.length ∧ t.get R.NRT_TOPO_HOPS r = hops % 2 ^ 12) ∧
    (st = 3 → s.get H.MEAS r = 0 → bit (s.get H.PRB_OUT r) 0 = true → Completes (.probeReturn r false acc maxrx) s fun t =>
      t.get R.NRT_R_PS r = acc % 2 ^ 32 ∧ t.get R.NRT_L_PS r = (acc + s.framePs r) % 2 ^ 32 ∧ t.get H.MEAS r = 1 ∧
      bit (t.get H.PRB_OUT r) 0 = false ∧ t.get R.NRT_RSTATE_STATE r = 3 ∧ t.mem = s.mem) ∧
    (st = 3 → s.get H.MEAS r = 13 → bit (s.get H.PRB_OUT r) 1 = true → s.get H.NRT_RX r 0 ≤ maxrx → maxrx < 2 ^ 31 →
      s.lateL r = false → s.shortG r = false → applyFor maxrx ≤ s.ringCyc r → s.waits = [] →
      Completes (.probeReturn r true acc maxrx) s fun t =>
        t.get R.NRT_RSTATE_STATE r = 4 ∧ t.get R.NRT_RSTATE_HEAD r = b2n (!s.isForwarder) ∧
        t.get R.NRT_APPLY_NS r = applyFor maxrx ∧ t.get R.NRT_TOKEN_EPOCH r = s.get R.CNJ_EPOCH % 2 ^ 16 ∧ t.mem = s.mem) ∧
    (s.get H.NODE_ST (4096 * r + node) ≠ 0 → s.get H.NODE_ST (4096 * r + node) ≠ 3 → s.nodeSilent r node = true →
      Completes (.nodeLost r node) s fun t => t.get H.NODE_ST (4096 * r + node) = 3 ∧
        t.get R.NRT_FLAGS_NODE_LOST r = 1 ∧ t.mem = s.mem ∧
        t.axEvs = s.axEvs ++ ((s.nodeAxes r node).filter fun a => s.get H.AX_ONLINE a != 0).map
          (fun a => { axis := a, kind := .nodeLost }))

/-- R234, R241, R246, R280: an acyclic message is answered by its node's response, fails without one in time, and one
that is no message is dropped and counted; RING_CONFIG stores a ring's words and starts it where they enable it;
RING_STOP stops a ring at once where it launches nothing; BYPASS waits for the switches; TOPO_READ returns the last
scan. It rests on the model's choices of log entries 123, 126, 127 and 240. -/
def Obligations.RingRequests : Prop :=
  ∀ (mb r₀ node : Nat) (frags : List (Nat × List Nat)) (m : AcycMsg) (s : State), r₀ < 2 → node < 4096 →
    let r := s.par mb 0 4
    let n := s.par mb 4 4
    let len := min 752 (s.par mb 12 4)
    let ws := (List.range 4).map fun k => s.par mb (4 + 4 * k) 4
    let msg := fragBytes frags
    (fragsOk frags = false → Completes (.acycMessage r₀ node frags) s fun t =>
      t.get R.NRT_CNT_ACYC_DROP r₀ = min (s.get R.NRT_CNT_ACYC_DROP r₀ + 1) (2 ^ 32 - 1) ∧
      OnlyRegs [fkey R.NRT_CNT_ACYC_DROP r₀ 0] s t) ∧
    (fragsOk frags = true → s.acycOut r₀ node = some m → m.svc = ofBytesBE (msg.take 2) → m.tid = msg.getD 2 0 →
      m.sent = m.frags → m.svc ≠ 1 → s.acycReq m = some mb → mb < 32 → s.get H.MB_JRN mb = 0 →
      Completes (.acycMessage r₀ node frags) s fun t => Answered t mb 2 0 ((msg.drop 4).take 752) ∧
        t.acyc = s.acyc.erase m ∧ RegsKept (answerPlaces mb) s t ∧ BytesKept (pageOf mb) (pageOf mb + 752) s t) ∧
    (s.acyc.find? (fun x => x.ring == r₀ && x.node == node) = some m → m.cyc + 256 ≤ s.get H.BND_N → s.acycReq m = some mb →
      mb < 32 → s.get H.MB_JRN mb = 0 → Completes (.acycTimeout r₀ node) s fun t => Answered t mb 3 0x0510 [] ∧
        t.acyc = s.acyc.erase m ∧ RegsKept (answerPlaces mb) s t ∧ t.mem = s.mem) ∧
    (Ready s mb 0x0502 (16 + len) → r < 2 → n < 4096 → n ∈ scanAddrs (s.scanList r) → Completes (.acyc mb) s fun t =>
      Waits s t mb 0x0502 (4096 * r + n) 0 ∧ t.mem = s.mem ∧ RegsKept [fkey H.ACYC_TID r 0] s t ∧
      (t.acyc.map fun m => (m.ring, m.node, m.svc, m.data, m.mb, m.cyc)) =
        (s.acyc.map fun m => (m.ring, m.node, m.svc, m.data, m.mb, m.cyc)) ++
        [(r, n, s.par mb 8 4 % 65536, (List.range len).map fun k => s.par mb (16 + k) 1, some mb, s.get H.BND_N)]) ∧
    (Ready s mb 0x0500 20 → r < 2 → s.get H.RSTOP r = 0 → s.waits = [] →
      s.get R.NRT_RSTATE_STATE r = 0 ∨ s.get R.NRT_RSTATE_STATE r = 6 →
      (bit (s.par mb 4 4) 0 = false → Completes (.ringConfig mb) s fun t => Answered t mb 2 0 (toBytes 4 0) ∧
        t.get R.NRT_RCFG_EN r = 0 ∧ t.get R.NRT_RSTATE_STATE r = 0) ∧
      (bit (s.par mb 4 4) 0 = true → (s.ringStore r ws).refuseCfg r = 0 → s.get R.NRT_PSTAT_LINK (2 * r) = 0 →
        Completes (.ringConfig mb) s fun t => Waits s t mb 0x0500 r 0 ∧ t.get R.NRT_RCFG_EN r = 1 ∧
          t.get R.NRT_RSTATE_STATE r = 1 ∧ t.mem = s.mem)) ∧
    (Ready s mb 0x0501 4 → r < 2 → s.get H.RSTOP r = 0 → s.waits = [] →
      (s.get R.NRT_RSTATE_STATE r ≠ 4 → (∀ a ∈ s.ringAxes r, s.axSt a ≤ 1) → Completes (.ringStop mb) s fun t =>
        Answered t mb 2 0 [] ∧ t.get R.NRT_RSTATE_STATE r = 0) ∧
      (s.get R.NRT_RSTATE_STATE r = 4 → Completes (.ringStop mb) s fun t =>
        Waits s t mb 0x0501 r 0 ∧ t.get R.NRT_RSTATE_HEAD r = 0 ∧ t.get H.RSTOP r = 1)) ∧
    (Ready s mb 0x0503 8 → r < 2 →
      (s.get R.NRT_PSTAT_BYP (2 * r) ≠ min 1 n → Completes (.bypass mb) s fun t => Waits s t mb 0x0503 r 0 ∧
        t.get H.BYP_HOLD r = min 1 n ∧ t.get H.BYP_CMD r = 1 ∧
        RegsKept [fkey H.BYP_HOLD r 0, fkey H.BYP_CMD r 0] s t ∧ t.mem = s.mem) ∧
      (s.get R.NRT_PSTAT_BYP (2 * r) = min 1 n → Completes (.bypass mb) s fun t => Answered t mb 2 0 [] ∧
        t.get H.BYP_HOLD r = min 1 n ∧ t.get H.BYP_CMD r = 0 ∧
        AnswerKeeps [fkey H.BYP_HOLD r 0, fkey H.BYP_CMD r 0] mb 0 s t)) ∧
    (Ready s mb 0x0504 4 → r < 2 → Completes (.topoRead mb) s fun t =>
      Answered t mb 2 0 (((s.scanList r).take 2048).flatMap (toBytes 2)) ∧ AnswerKeeps [] mb 4096 s t)

/-! ### Drive ports -/

/-- R315, R326 to R328, R330: an overvoltage trip, a gate driver's fault and a long run of Ellipses turn a port off in
hardware, once, with the reaction of class PORT_HW for its axis; a chopper fault latches and leaves its bus group
motoring only; a run of Ellipses limits the torque until samples are measured again. It rests on the model's choices of
log entry 98. -/
def Obligations.DriveFaultsTurnPortOff : Prop :=
  ∀ (p : Nat) (s : State), p < 8 →
    let off := fun t : State => t.get R.DRV_STAT_HWOFF p = 1 ∧ t.get H.DP_EN p = 0 ∧ t.get H.DP_BRK p = 0 ∧ t.mem = s.mem ∧
      t.axEvs = s.axEvs ++ match s.axisOfDp p with
        | some a => [{ axis := a, kind := .hwReact 10 }]
        | none => []
    let ons := s.get R.DRV_CFG_MODE p ≠ 0
    (ons → 2 ≤ s.get H.DP_OVN p → s.get R.DRV_STAT_HWOFF p = 0 → Completes (.ovTrip p) s fun t => off t ∧
      t.get R.DRV_STAT_OVTRIP p = 1 ∧ t.get R.DRV_CNT_OV p = min (s.get R.DRV_CNT_OV p + 1) (2 ^ 32 - 1) ∧
      t.get R.INT_DET_STICKY 0x14 = 1) ∧
    (ons → s.drvOff = false → s.get R.DRV_STAT_HWOFF p = 0 → Completes (.gateDriverFault p) s fun t => off t ∧ t.get R.DRV_STAT_GFLT p = 1 ∧
      t.get H.GFLT_L p = 1 ∧
      t.get R.DRV_CNT_GFLT p = min (s.get R.DRV_CNT_GFLT p + 1) (2 ^ 32 - 1) ∧ t.get R.INT_DET_STICKY 0x13 = 1) ∧
    (8 ≤ s.get R.DRV_STAT_ELL_CONSEC p → s.get R.DRV_STAT_HWOFF p = 0 → Completes (.ellipsisHwoff p) s fun t => off t ∧
      t.get R.INT_DET_STICKY 0x16 = 1) ∧
    (s.get R.DRV_STAT_CHOP p ≠ 0 → s.get H.DP_CHS p = 0 → 10 * s.get R.DRV_CHS_T p ≤ s.get H.DP_CHN p →
      s.get H.DP_CHV p + s.get R.DRV_CHOP_RISE p ≤ s.get R.DRV_VBUS p → s.get R.DRV_STAT_CHOPF p = 0 →
      Completes (.chopperFault p) s fun t => t.get R.DRV_STAT_CHOPF p = 1 ∧ t.mem = s.mem ∧ t.axEvs = s.axEvs ∧
        t.get R.DRV_CNT_CHOPF p = min (s.get R.DRV_CNT_CHOPF p + 1) (2 ^ 32 - 1) ∧
        ∀ q ∈ s.busPorts (s.get R.DRV_CFG_BUSGRP p), t.get R.DRV_STAT_TLIM_CHOP q = 1) ∧
    (5 ≤ s.get R.DRV_STAT_ELL_CONSEC p → Completes (.ellipsisTorqueLimit p) s fun t =>
      t.get R.DRV_STAT_TLIM_ELL p = 1 ∧ t.get R.INT_DET_STICKY 0x16 = 1 ∧ t.mem = s.mem ∧ t.axEvs = s.axEvs) ∧
    (16 ≤ s.get H.DP_MEAS p → Completes (.ellipsisLimitEnd p) s fun t =>
      t.get R.DRV_STAT_TLIM_ELL p = 0 ∧ OnlyRegs [fkey R.DRV_STAT_TLIM_ELL p 0] s t)

/-- R302, R304, R309, R313, R314, R321, R324, R329, R334: a conversion gives every port its bus voltage and the analogue
inputs their values; an evaluation takes the currents of a readable instant, or counts an Ellipsis; an idle port applies
the zero vector; a valley takes the currents of readable phases or counts an Ellipsis, and gives the set points of the
angle and the amplitude; steps move the microstep index and the pulse count; standstill goes over to the hold current; a
stall, after as many full steps as it takes, raises its class; an encoder edge counts, or is an error. It rests on the
model's choices of log entries 131, 132, 137, 142, 251, 254, 259, 282, 284, 285 and 286. -/
def Obligations.DriveSamplesAndSteps : Prop :=
  ∀ (p q c chs ab : Nat) (vals : List Nat) (d : Int) (s : State), p < 8 → q < 16 → c < 8 →
    let rate := s.geti R.PTG_RATE q
    let cnt := s.get R.DRV_ENC_CNT c
    let run := s.get R.DRV_CFG_MODE p = 2 ∧ s.get H.DP_START p = 4 ∧ s.get H.DP_EN p ≠ 0
    let valley := run ∧ s.get H.DP_EVK p < s.pwmN p
    let ellipsis := fun t : State => t.get R.DRV_CNT_ELL p = min (s.get R.DRV_CNT_ELL p + 1) (2 ^ 32 - 1) ∧
      t.get R.DRV_STAT_ELL_CONSEC p = min (s.get R.DRV_STAT_ELL_CONSEC p + 1) 15 ∧ t.mem = s.mem ∧
      (4 ≤ s.get R.DRV_STAT_ELL_CONSEC p → t.get R.DRV_STAT_TLIM_ELL p = 1)
    let driven := fun t : State => t.get H.DP_IAMP p = t.iamp p % 2 ^ 32 ∧
      t.geti H.DP_SETP p 0 = t.iamp p * cosTurn (s.theta p) 1024 / 1073741824 ∧
      t.geti H.DP_SETP p 1 = t.iamp p * cosTurn ((s.theta p + 768) % 1024) 1024 / 1073741824
    (s.drvOff = false → s.get H.CV_REFN ≠ 4999 → Completes (.conversion vals chs) s fun t => t.mem = s.mem ∧ lists t = lists s ∧
      t.get H.CV_REFN = (s.get H.CV_REFN + 1) % 2 ^ 13 ∧ (∀ k < 8, t.get R.DRV_ANA k = vals.getD (40 + k) 0 % 2 ^ 16) ∧
      ∀ k < 8, t.get R.DRV_VBUS k = s.busVolt (vals.getD (32 + k) 0) k % 2 ^ 32 ∧
        (s.get R.DRV_CFG_MODE k ≠ 0 → t.get R.DRV_STAT_UV k = b2n (decide (t.get R.DRV_VBUS k < s.get R.DRV_UV k)))) ∧
    (s.get R.DRV_CFG_MODE p = 1 → s.get R.DRV_STAT_HWOFF p = 0 →
      (s.get H.DP_START p < 3 → Completes (.dtcEvaluation p) s fun t => t.get H.DP_LEG p = 0 ∧
        OnlyRegs [fkey H.DP_LEG p 0] s t) ∧
      (s.get H.DP_START p = 4 → s.get H.DP_EN p ≠ 0 → s.get H.DP_EVK p < s.evalN p → s.get H.INJ_ELL p = 0 →
        (s.get H.DP_SMP p ≠ 0 → Completes (.dtcEvaluation p) s fun t => t.get R.DRV_STAT_ELL_CONSEC p = 0 ∧
          t.get H.DP_SMP p = 0 ∧ t.mem = s.mem ∧ ∀ j < 3, t.get H.DP_I p j = s.get H.DP_IS p j % 2 ^ 16) ∧
        (s.get H.DP_SMP p = 0 → Completes (.dtcEvaluation p) s ellipsis))) ∧
    (valley → (s.get H.INJ_ELL p ≠ 0 ∨ s.valleyRead p = false → Completes (.pwmValley p) s fun t => ellipsis t ∧ driven t) ∧
      (s.get H.INJ_ELL p = 0 → s.valleyRead p = true → Completes (.pwmValley p) s fun t => driven t ∧ t.mem = s.mem ∧
        t.get R.DRV_STAT_ELL_CONSEC p = 0)) ∧
    (run → s.geti H.DP_RATE p ≠ 0 → s.timeUp (s.dpStepAt p / 65536) = true → Completes (.stepIssue true p) s fun t => t.get H.DP_HOLD p = 0 ∧ t.mem = s.mem ∧
      t.get R.DRV_MSTEP p = trunc 32 (if s.geti H.DP_RATE p < 0
        then (s.get R.DRV_MSTEP p : Int) - microCounts (t.get R.DRV_STAT_RES p)
        else (s.get R.DRV_MSTEP p : Int) + microCounts (t.get R.DRV_STAT_RES p))) ∧
    (rate ≠ 0 → bit (s.get H.PT_REF q 3) 0 = true → s.timeUp (s.ptStepAt q / 65536) = true →
      Completes (.stepIssue false q) s fun t =>
      t.get R.PTG_COUNT q = trunc 64 (s.geti R.PTG_COUNT q + if rate < 0 then -1 else 1) ∧
      t.get R.PTG_STAT_DIR q = b2n (decide (rate < 0)) ∧
      t.get H.PT_NS q = s.ptStepAt q % 2 ^ 80 ∧
      OnlyRegs [fkey R.PTG_COUNT q 0, fkey R.PTG_STAT_DIR q 0, fkey H.PT_DIRP q 0, fkey H.PT_NS q 0] s t) ∧
    (s.get R.DRV_CFG_MODE p = 2 → s.geti H.DP_RATE p = 0 → s.dpAxisIn p [4] = true →
      s.timeUp (s.get H.DP_NS p / 65536 + 1000000 * s.get R.DRV_ST_HOLD_T p) = true →
      Completes (.stepperHoldCurrent p) s fun t => t.get H.DP_HOLD p = 1 ∧
        t.get H.DP_IAMP p = t.iamp p % 2 ^ 32 ∧ (s.get R.DRV_STAT_TLIM_ELL p = 0 → t.get H.DP_IAMP p = s.get R.DRV_ST_IHOLD p % 2 ^ 32) ∧
        OnlyRegs [fkey H.DP_HOLD p 0, fkey H.DP_IAMP p 0] s t) ∧
    (∀ a : Nat, s.get R.DRV_CFG_MODE p = 2 → 256 * s.get R.DRV_ST_SVMIN p ≤ (s.geti H.DP_RATE p).natAbs →
      s.get R.DRV_ST_SN p ≤ s.get H.DP_LAC p → s.axisOfDp p = some a → s.get R.HM_STAT_PHASE a = 0 → Completes (.stall p) s fun t =>
      t.get R.DRV_STAT_STALL p = 1 ∧ t.get R.DRV_STAT_POS_UNC p = 1 ∧
        t.axEvs = s.axEvs ++ [{ axis := a, kind := .fault 11 }] ∧
        RegsKept [fkey R.DRV_STAT_STALL p 0, fkey R.DRV_STAT_POS_UNC p 0, fkey H.DP_STNOW p 0, fkey H.DP_LAC p 0] s t ∧
        t.mem = s.mem) ∧
    (s.get H.DP_LAC p < s.get R.DRV_ST_SN p → exec (.stall p) s = .next s) ∧
    (s.get R.DRV_ENC_CFG_EN c ≠ 0 → s.drvOff = false →
      (quadStep (s.get H.ENC_AB c) (ab % 4) = some d → Completes (.encoderEdge c ab false) s fun t =>
        t.get R.DRV_ENC_CNT c = trunc 32 (if s.get R.DRV_ENC_CFG_INV c = 0 then (cnt : Int) + d else (cnt : Int) - d) ∧
        t.get H.ENC_AB c = ab % 4 ∧ OnlyRegs [fkey R.DRV_ENC_CNT c 0, fkey H.ENC_AB c 0] s t) ∧
      (quadStep (s.get H.ENC_AB c) (ab % 4) = none → Completes (.encoderEdge c ab false) s fun t =>
        t.get R.DRV_ENC_ERR c = min (s.get R.DRV_ENC_ERR c + 1) (2 ^ 32 - 1) ∧ t.get R.DRV_ENC_CNT c = cnt))

/-- R316 to R320, R336, R337: the offsets of a port bring it online; a spin probe leads to a saturation start, to
braking or to running; test pulses are counted and repeated; a calibration step stores its result and the last ends the
operation; DRV_CLEAR clears the chopper faults of a bus group; CAL_START opens a long operation; the configuration of a
port, a pulse train or an encoder waits for the boundary. It rests on the model's choices of log entries 84, 131, 133,
134, 136, 251, 259, 283 and 284. -/
def Obligations.DriveStartsAndRequests : Prop :=
  ∀ (mb p k ang mag peak o0 o1 o2 o3 v w : Nat) (fe : Int) (s : State), p < 8 →
    let i := s.par mb 0 4
    let x := s.par mb 4 4
    let n := clampN 1 32 (s.par mb 8 4)
    let ready := s.get R.DRV_CFG_MODE p = 1 ∧ s.dpAxisIn p [3] = true
    let near := fun (j o : Nat) => (1024 * sext 16 o - s.geti H.DP_CALS p j).natAbs < 1024
    (s.get R.DRV_CFG_MODE p ≠ 0 → s.get R.DRV_STAT_CAL_OK p = 0 → 1024 ≤ s.get H.DP_CALN p →
      near 0 o0 → near 1 o1 → near 2 o2 → near 3 o3 →
      Completes (.offsetCalibrationComplete p o0 o1 o2 o3) s fun t => t.get R.DRV_STAT_CAL_OK p = 1 ∧
        t.get R.DRV_CAL_OFS01 p = o0 % 65536 + 65536 * (o1 % 65536) ∧
        t.get R.DRV_CAL_OFS23 p = o2 % 65536 + 65536 * (o3 % 65536) ∧ t.mem = s.mem ∧
        t.axEvs = s.axEvs ++ match s.axisOfDp p with
          | some a => [{ axis := a, kind := .nodeOnline }]
          | none => []) ∧
    (ready → s.get H.DP_START p = 1 → 420 ≤ s.get H.DP_STN p →
      (fe.natAbs ≤ s.get R.DRV_CATCH p → Completes (.spinProbe p fe ang mag) s fun t => t.get H.DP_START p = 2 ∧
        t.get H.DP_PLS p = 0 ∧ t.mem = s.mem) ∧
      (s.get R.DRV_CATCH p < fe.natAbs → decide (fe < 0) ≠ s.on R.DRV_CFG_CATCHDIR p →
        Completes (.spinProbe p fe ang mag) s fun t => t.get H.DP_START p = 3 ∧ t.mem = s.mem) ∧
      (s.get R.DRV_CATCH p < fe.natAbs → decide (fe < 0) = s.on R.DRV_CFG_CATCHDIR p →
        Completes (.spinProbe p fe ang mag) s fun t => t.get H.DP_START p = 4 ∧
          t.get R.DRV_ANGLE p = (ang + 49152) % 65536 ∧ t.mem = s.mem)) ∧
    (ready → s.get H.DP_START p = 2 →
      (s.pulseOver p 0 = true → s.get H.DP_PLSF p = 0 → Completes (.saturationTestPulse p peak false) s fun t =>
        t.get H.DP_PLSF p = 1 ∧ t.get H.DP_PPH p = 1 ∧
        OnlyRegs [fkey H.DP_PLSF p 0, fkey H.DP_PPH p 0, fkey H.DP_STN p 0] s t) ∧
      (s.pulseOver p peak = true → s.get H.DP_PLS p + 1 < s.pulseN p → Completes (.saturationTestPulse p peak true) s fun t =>
        t.get H.DP_PLS p = s.get H.DP_PLS p + 1 ∧ t.get H.DP_PLSF p = 0 ∧ t.get H.DP_START p = 2 ∧
        (s.get H.DP_PLS p = 0 → t.get H.DP_PKMAX p = peak % 2 ^ 32 ∧ t.get H.DP_PKMIN p = peak % 2 ^ 32))) ∧
    (s.lopOf 0x0702 p = some k → s.get R.LOP_ID_STATUS k = 1 → s.waits = [] →
      (s.get H.DP_CALF p = 1 → s.get H.DP_CALN p = 1024 → near 0 v → near 1 (v / 65536) → near 2 w → near 3 (w / 65536) →
        Completes (.calibrationStepComplete p v w) s fun t => t.get R.DRV_CAL_OFS01 p = v % 2 ^ 32 ∧
        t.get R.DRV_CAL_OFS23 p = w % 2 ^ 32 ∧ t.get R.DRV_STAT_CAL_OK p = 1 ∧ t.get R.LOP_ID_STATUS k = 2 ∧ t.get R.LOP_PROG_PERMILLE k = 1000) ∧
      (s.get H.DP_CALF p = 2 → s.timeUp (s.get H.DP_CALT0 p + 200000000) = true →
        Completes (.calibrationStepComplete p v w) s fun t => t.get R.DRV_RS p = applyFix R.DRV_RS.fix (v % 2 ^ 32) ∧
          t.get R.LOP_ID_STATUS k = 2 ∧ t.get R.LOP_PROG_PERMILLE k = 1000) ∧
      (s.get H.DP_CALF p = 4 → s.get H.DP_PLS p = 24 → Completes (.calibrationStepComplete p v w) s fun t =>
        t.get R.DRV_LS p = applyFix R.DRV_LS.fix (w % 2 ^ 32) ∧ t.get R.LOP_ID_STATUS k = 2 ∧
          t.get R.LOP_PROG_PERMILLE k = 1000)) ∧
    (Ready s mb 0x0703 4 → i < 8 →
      ((s.busPorts i).any fun q => s.on R.DRV_STAT_CHOP q && !s.on H.DP_CHSL q) = false →
      Completes (.drvClear mb) s fun t => Answered t mb 2 0 [] ∧ ∀ q ∈ s.busPorts i,
        t.get R.DRV_STAT_CHOPF q = 0 ∧ t.get R.DRV_STAT_TLIM_CHOP q = 0) ∧
    (Ready s mb 0x0702 8 → i < 8 → s.calMay i = true → s.lopOf 0x0702 i = none → s.lopSlot = some k → x % 8 ≠ 0 →
      Completes (.calStart mb) s fun t => Answered t mb 2 0 [] ∧ t.get R.MBX_HANDLE mb = s.lopHandle ∧
        t.get R.LOP_ID_STATUS k = 1 ∧ t.get R.LOP_OBJ_OPCODE k = 0x0702 ∧ t.get H.DP_CALF i = x % 8) ∧
    (Ready s mb 0x0700 (12 + 4 * n) → i < 8 → x / 4 + n ≤ 32 → s.portActive (0x10 + i) = false →
      (x / 4 = 0 ∧ bits (s.par mb 12 4) 12 4 ≠ s.get R.DRV_CFG_ENC i → s.encClash (bits (s.par mb 12 4) 12 4) = false) →
      Completes (.drvConfig mb) s fun t => Waits s t mb 0x0700 i n ∧ t.mem = s.mem ∧
        ∀ j < n, t.get H.DP_NEWW i (x / 4 + j) = s.par mb (12 + 4 * j) 4 ∧ bit (t.get H.DP_NEWM i) (x / 4 + j) = true) ∧
    (Ready s mb 0x0701 16 → i < 16 → s.portActive (0x20 + i) = false →
      (bits x 4 4 ≠ s.get R.PTG_CFG_ENC i → s.encClash (bits x 4 4) = false) → Completes (.ptgConfig mb) s fun t =>
      Waits s t mb 0x0701 i 0 ∧ t.get H.PT_NEWP i = 1 ∧ t.mem = s.mem ∧
      ∀ j < 3, t.get H.PT_NEWW i j = s.par mb (4 + 4 * j) 4) ∧
    (Ready s mb 0x0704 8 → i < 8 → s.encActive i = false →
      ((List.range 16).any fun pin => encUses x pin && s.trgTaken pin) = false → Completes (.encConfig mb) s fun t =>
        Waits s t mb 0x0704 i 0 ∧ t.get H.ENC_NEWP i = 1 ∧ t.get H.ENC_NEWW i = x ∧
        RegsKept [fkey H.ENC_NEWP i 0, fkey H.ENC_NEWW i 0] s t ∧ t.mem = s.mem)

/-! ### Field I/O -/

/-- R371, stated: of a write to FIO_OUT_SET or FIO_OUT_CLR, the bits of inputs, of channels an axis brake owns and of
channels the safety core owns have no effect, and such a write counts once in FIO_CNT_IGN; the other bits take effect.
-/
def Obligations.OutputWritesSkipForeignChannels : Prop :=
  ∀ (mask : Nat) (s : State), mask < 2 ^ 32 →
    let ours := fun c => s.fioOwner c = 0 ∧ s.get R.FIO_CFG_DIR c ≠ 0
    let ok := fun (v : Bool) (t : State) =>
      (∀ c < 32, bit mask c = true → ours c → bit (t.get R.FIO_OUT_CMD) c = v) ∧
      (∀ c < 32, ¬(bit mask c = true ∧ ours c) → bit (t.get R.FIO_OUT_CMD) c = bit (s.get R.FIO_OUT_CMD) c) ∧
      ((∃ c < 32, bit mask c = true ∧ ¬ours c) → t.get R.FIO_CNT_IGN = min (s.get R.FIO_CNT_IGN + 1) (2 ^ 32 - 1)) ∧
      (¬(∃ c < 32, bit mask c = true ∧ ¬ours c) → t.get R.FIO_CNT_IGN = s.get R.FIO_CNT_IGN) ∧
      OnlyRegs [fkey R.FIO_OUT_CMD 0 0, fkey R.FIO_CNT_IGN 0 0] s t
    (HostWord s 0xC0020 → Completes (.fioOutSet mask) s (ok true)) ∧ (HostWord s 0xC0024 → Completes (.fioOutClr mask) s (ok false))

/-- R345, R360 to R363, R379: a tick forms the refresh from the commands; the field die executes a valid one, which ends
a silence, and discards and counts another; a return that lands shows its tick, and one that fails is counted and shows
nothing, while the filters of the die count its sample all the same; silence holds the outputs in their safe states; a
lost link makes every input invalid; the die starts and stops with nothing carried over. It rests on the model's choices
of log entries 146, 259 and 281. -/
def Obligations.FieldLinkCycle : Prop :=
  ∀ (t₀ raw rb : Nat) (cur vfg : List Nat) (safeOk : Bool) (s : State),
    let live := s.get H.FIO_LIVE ≠ 0
    (t₀ % 10000 = 0 → Completes (.tick t₀) s fun t => t.get R.DCK_TIME = max s.now t₀ % 2 ^ 64 ∧ t.get H.FIO_TT = t₀ % 2 ^ 64 ∧
      t.get H.FIO_CMDR = t.get R.FIO_OUT_CMD % 2 ^ 32 ∧ t.mem = s.mem ∧ t.axEvs = s.axEvs) ∧
    (live → s.domDown 2 = false → s.get H.INJ_REFT = 0 → s.get H.INJ_REFN = 0 → s.waits = [] →
      Completes (.refresh true safeOk) s (fun t => t.get H.FIO_CMDX = s.get H.FIO_CMDR % 2 ^ 32 ∧
        t.get H.FIO_CONFD ≠ 0 ∧ t.get H.FIO_SILD = 0 ∧
        t.get R.DCK_TIME = max s.now (s.get H.FIO_TT + 2000) % 2 ^ 64) ∧
      Completes (.refresh false safeOk) s (fun t => t.get H.FIO_CMDX = s.get H.FIO_CMDX ∧ t.get H.SO_LOSS = 1 ∧
        t.get R.FIO_CNT_LINKERR = min (s.get R.FIO_CNT_LINKERR + 1) (2 ^ 32 - 1))) ∧
    (live → Completes (.returnLanding true safeOk raw rb cur vfg) s (fun t => t.get H.FIO_MISS = 0 ∧
        t.get R.FIO_LINK_STATE = (if s.get H.FIO_SILD = 0 then 1 else 2) ∧ t.get H.SAF_RET = b2n safeOk ∧
        t.get R.FIO_IN_T = s.get H.FIO_TT % 2 ^ 64 ∧ t.get R.FIO_OUT_ACT = s.get H.FIO_ACTT % 2 ^ 32 ∧ t.mem = s.mem ∧
        lists t = lists s) ∧
      Completes (.returnLanding false safeOk raw rb cur vfg) s (fun t =>
        t.get R.FIO_CNT_LINKERR = min (s.get R.FIO_CNT_LINKERR + 1) (2 ^ 32 - 1) ∧
        t.get H.FIO_MISS = min (s.get H.FIO_MISS + 1) 3 ∧
        t.get R.FIO_IN_T = s.get R.FIO_IN_T ∧ t.get R.FIO_OUT_ACT = s.get R.FIO_OUT_ACT ∧ t.get R.FIO_RAW = s.get R.FIO_RAW ∧
        t.mem = s.mem ∧ lists t = lists s) ∧
      ∀ (v : Bool) (c : Nat), c < 32 → s.get R.FIO_CFG_DIR c = 0 → s.get R.FIO_CFG_FILT c = 0 →
        s.get R.FIO_GRP_STAT_UV (c / 8) = 0 → s.get H.FIO_CONFD ≠ 0 →
        Completes (.returnLanding v safeOk raw rb cur vfg) s fun t => t.get R.FIO_CSTAT_CNT c =
          if bit raw c != s.on R.FIO_CFG_INV c then min (s.get R.FIO_CSTAT_CNT c + 1) (s.get R.FIO_CFG_THR c)
          else s.get R.FIO_CSTAT_CNT c - 1) ∧
    (live → s.get H.FIO_CONFD ≠ 0 → s.get H.FIO_SILD = 0 →
      s.timeUp (s.get H.FIO_VT + 950000 * s.get R.FIO_GCFG_SIL_TO) = true → Completes .silence s fun t => t.get H.FIO_SILD = 1 ∧
      t.get H.FIO_HOLD = s.get H.FIO_CMDX % 2 ^ 32 ∧ t.get H.FIO_TPX = 0 ∧
      ∀ c < 32, s.get R.FIO_CFG_DIR c ≠ 0 → s.isSX = false ∨ c < 24 → t.get R.FIO_CSTAT_SILOFF c = 1) ∧
    (3 ≤ s.get H.FIO_MISS → s.get R.FIO_LINK_STATE ≠ 0 → Completes .fieldLinkLoss s fun t =>
      t.get R.FIO_LINK_STATE = 0 ∧ t.get R.INT_DET_STICKY 0x11 = 1 ∧ t.mem = s.mem ∧
      ∀ c < 32, t.get R.FIO_CSTAT_VALID c = 0 ∧ bit (t.get R.FIO_VALID) c = false) ∧
    (s.get H.FIO_LIVE = 0 → Completes .fieldDieStart s fun t => t.get H.FIO_LIVE = 1 ∧ t.get H.FIO_CONFD = 0 ∧
      t.get H.FIO_CMDX = 0 ∧ ∀ c < 32, t.get R.FIO_CSTAT_VALID c = 0) ∧
    (live → Completes .fieldDieStop s fun t => t.get H.FIO_LIVE = 0 ∧ t.get H.FIO_CONFD = 0 ∧ t.get H.FIO_CMDX = 0 ∧
      ∀ c < 32, t.get R.FIO_CSTAT_VALID c = 0)

/-- R349 to R352, R364 to R366, R451: a filter's counter at its threshold or at 0 changes its output; a raw state that
has lasted is accepted with its edge's time; a broken wire makes its input invalid; a comparator is swapped, or
reported; a group's supply warns, fails and recovers. It rests on the model's choices of log entries 3 and 146. -/
def Obligations.FieldInputsAndSupplies : Prop :=
  ∀ (c g t₀ frac : Nat) (lvl : Bool) (s : State), c < 32 → g < 4 →
    let out := bit (s.get H.FIO_OUTF) c
    let edge := fun (v : Bool) (t : State) => bit (t.get H.FIO_OUTF) c = v ∧ t.mem = s.mem ∧ lists t = lists s ∧
      t.get R.FIO_CNT_EDGE c = min (s.get R.FIO_CNT_EDGE c + 1) (2 ^ 32 - 1)
    (s.get R.FIO_CFG_DIR c = 0 → s.get R.FIO_CFG_FILT c = 0 →
      (s.get R.FIO_CFG_THR c ≤ s.get R.FIO_CSTAT_CNT c → out = false → Completes (.filterOutputChange c) s (edge true)) ∧
      (s.get R.FIO_CSTAT_CNT c = 0 → out = true → Completes (.filterOutputChange c) s (edge false))) ∧
    (c < 8 → s.get R.FIO_CFG_DIR c = 0 → s.get R.FIO_CFG_FILT c ≠ 0 → s.get R.FIO_GRP_STAT_UV 0 = 0 → out ≠ lvl →
      Completes (.debounceAccept c t₀ frac lvl) s fun t => edge lvl t ∧ t.get H.FIO_EDGEF c = frac % 2 ^ 16 ∧
        ∀ a ∈ s.axes, s.get R.TRJ_CFG_HOME a = c → t.get H.HM_EDGE a = (2 ^ 80 + 65536 * t₀ + frac) % 2 ^ 81) ∧
    (s.get R.FIO_CFG_WB c ≠ 0 → s.get R.FIO_CSTAT_WB c = 0 → 2001 ≤ s.get H.FIO_WBL c → Completes (.wireBreak c) s fun t =>
      t.get R.FIO_CSTAT_WB c = 1 ∧ t.get R.FIO_CFLAGS_WB_SEEN c = 1 ∧ t.get R.FIO_CSTAT_VALID c = 0 ∧
      t.get R.INT_DET_STICKY 0x12 = 1 ∧ t.mem = s.mem) ∧
    (s.get R.FIO_CSTAT_WB c ≠ 0 → 2001 ≤ s.get H.FIO_WBH c → Completes (.wireBreakClear c) s fun t =>
      t.get R.FIO_CSTAT_WB c = 0 ∧ t.mem = s.mem ∧ lists t = lists s) ∧
    (s.get H.INJ_TRIM c = 0 →
      Completes (.thresholdTrim c true) s (fun t => t.get H.FIO_CMPS c = (1 - s.get H.FIO_CMPS c) % 2 ∧
        OnlyRegs [fkey H.INJ_TRIM c 0, fkey H.FIO_CMPS c 0] s t) ∧
      Completes (.thresholdTrim c false) s (fun t => t.get H.FIO_CMPS c = s.get H.FIO_CMPS c ∧
        t.get R.INT_DET_STICKY 0x1F = 1 ∧ t.mem = s.mem)) ∧
    (s.get R.FIO_GRP_STAT_WARN g = 0 → 102 ≤ s.get H.FIO_GL g → Completes (.supplyWarning g) s fun t =>
      t.get R.FIO_GRP_STAT_WARN g = 1 ∧ t.get R.FIO_GRP_FLAGS_WARN_SEEN g = 1 ∧ t.mem = s.mem) ∧
    (102 ≤ s.get H.FIO_GH g → Completes (.supplyWarningClear g) s fun t => t.get R.FIO_GRP_STAT_WARN g = 0 ∧
      OnlyRegs [fkey R.FIO_GRP_STAT_WARN g 0] s t) ∧
    (s.get R.FIO_GRP_STAT_UV g = 0 → 2 ≤ s.get H.FIO_UVL g → Completes (.undervoltage g) s fun t =>
      t.get R.FIO_GRP_STAT_UV g = 1 ∧ t.get R.FIO_GRP_FLAGS_UV_SEEN g = 1 ∧
      t.get R.FIO_GRP_CNT_UV g = min (s.get R.FIO_GRP_CNT_UV g + 1) (2 ^ 32 - 1) ∧ t.get R.INT_DET_STICKY 0x10 = 1 ∧
      ∀ k < 8, s.get R.FIO_CFG_DIR (8 * g + k) ≠ 0 → t.get R.FIO_CSTAT_UVOFF (8 * g + k) = 1) ∧
    (s.get R.FIO_GRP_STAT_UV g ≠ 0 → 2001 ≤ s.get H.FIO_REC g → Completes (.undervoltageRecovery g) s fun t =>
      t.get R.FIO_GRP_STAT_UV g = 0 ∧ t.get R.FIO_GRP_STAT_RECOV g = 0 ∧ t.mem = s.mem ∧
      ∀ k < 8, s.get R.FIO_CFG_DIR (8 * g + k) ≠ 0 → s.get R.FIO_CFG_AUTO (8 * g + k) ≠ 0 →
        t.get R.FIO_CSTAT_UVOFF (8 * g + k) = 0)

/-- R347, R356 to R358, R369: a driven output, a current limit, an overheated switch and a group's trip are shown and
latched, and clear; a test pulse opens its switch and its readback decides; FIO_CONFIG and FIO_CLEAR wait; FIO_OUT
commands the outputs of its mask, at once or from its cycle. It rests on the model's choices of log entries 3 and 149.
-/
def Obligations.FieldOutputsAndRequests : Prop :=
  ∀ (c g mb : Nat) (limiting : Bool) (s : State), c < 32 → g < 4 →
    let k := s.par mb 0 4 / 4
    let n := clampN 1 64 (s.par mb 4 4)
    let mask := s.par mb 0 4
    let cyc := s.par mb 8 8
    (s.get R.FIO_CFG_DIR c ≠ 0 → s.get R.FIO_CSTAT_EXT c = 0 → s.fioWants c = false → 3 ≤ s.get H.FIO_RBH c →
      s.get H.FIO_CHG c + 200000 ≤ s.get H.FIO_TT → Completes (.externalDrive c) s fun t =>
        t.get R.FIO_CSTAT_EXT c = 1 ∧ t.get R.FIO_CFLAGS_EXT_SEEN c = 1 ∧ t.get R.INT_DET_STICKY 0x0D = 1 ∧ t.mem = s.mem) ∧
    (3 ≤ s.get H.FIO_RBL c → Completes (.externalDriveClear c) s fun t => t.get R.FIO_CSTAT_EXT c = 0 ∧
      OnlyRegs [fkey R.FIO_CSTAT_EXT c 0] s t) ∧
    (s.safeCh c = false → s.get R.FIO_CFG_TP c ≠ 0 → s.get R.FIO_CFG_DIR c ≠ 0 → s.fioOn c = true → s.get H.FIO_SILD = 0 →
      s.tpStarts c (s.get H.FIO_TT) = true →
      Completes (.outputTestPulse c false limiting) s fun t => bit (t.get H.FIO_TPX) c = true ∧
        bit (t.get H.FIO_TPA) c = true ∧ (s.isSX = false ∨ c < 24 → bit (t.get H.FIO_SW) c = false) ∧ t.mem = s.mem) ∧
    (s.safeCh c = false → bit (s.get H.FIO_TPA) c = true → bit (s.get H.FIO_TPD) c = false →
      s.tpLast c (s.get H.FIO_TT) = true →
      Completes (.outputTestPulse c true true) s (fun t => bit (t.get H.FIO_TPA) c = false ∧
        t.get R.FIO_CSTAT_TPFAIL c = 1 ∧ t.get R.FIO_CFLAGS_TPFAIL_SEEN c = 1) ∧
      (s.get H.INJ_RBT c = 0 → Completes (.outputTestPulse c true false) s fun t => bit (t.get H.FIO_TPA) c = false ∧
        t.get R.FIO_CSTAT_TPFAIL c = 0)) ∧
    Completes (.currentLimit c limiting) s (fun t => t.get R.FIO_CSTAT_OVL c = b2n limiting ∧
      (limiting = true → t.get R.FIO_CFLAGS_OVL_SEEN c = 1) ∧
      OnlyRegs [fkey R.FIO_CSTAT_OVL c 0, fkey R.FIO_CFLAGS_OVL_SEEN c 0] s t) ∧
    (s.get R.FIO_CFG_DIR c ≠ 0 → s.get R.FIO_CSTAT_TSD c = 0 → Completes (.thermalShutdown c) s fun t =>
      t.get R.FIO_CSTAT_TSD c = 1 ∧ t.get R.FIO_CNT_TSD c = min (s.get R.FIO_CNT_TSD c + 1) (2 ^ 32 - 1) ∧
      bit (t.get H.FIO_HOT) c = true ∧ bit (t.get H.FIO_SW) c = false ∧ t.mem = s.mem) ∧
    Completes (.thermalRestart c) s (fun t => bit (t.get H.FIO_HOT) c = false ∧
      (s.get R.FIO_CFG_TSD_AUTO c ≠ 0 → t.get R.FIO_CSTAT_TSD c = 0) ∧
      (s.get R.FIO_CFG_TSD_AUTO c = 0 → OnlyRegs [fkey H.FIO_HOT 0 0] s t)) ∧
    (s.get R.FIO_GRP_STAT_OC g = 0 → 2001 ≤ s.get H.FIO_OCC g → Completes (.groupOvercurrent g) s fun t =>
      t.get R.FIO_GRP_STAT_OC g = 1 ∧
      ∀ j < 8, s.isSX = false ∨ g < 3 → bit (t.get H.FIO_SW) (8 * g + j) = false) ∧
    (Ready s mb 0x0800 (8 + 4 * n) → k + n ≤ 320 →
      (∀ i < n, s.fioRefuse (k + i) (s.par mb (8 + 4 * i) 4) = 0) → Completes (.fioConfig mb) s fun t =>
        Waits s t mb 0x0800 0 ((List.range n).filter fun i => fioIsCfg (k + i)).length ∧ t.mem = s.mem ∧
        ∀ i < n, fioIsCfg (k + i) = true →
          t.get H.FIO_NEWW (k + i) 0 = s.fioLimited (k + i) (s.par mb (8 + 4 * i) 4) ∧ t.get H.FIO_NEWM (k + i) 0 = 1) ∧
    (Ready s mb 0x0801 16 → (∀ x < 32, bit mask x = true → s.fioOwner x = 0 ∧ s.get R.FIO_CFG_DIR x ≠ 0) →
      (cyc = 0 → Completes (.fioOut mb) s fun t => Answered t mb 2 0 (toBytes 4 0) ∧
        AnswerKeeps [fkey R.FIO_OUT_CMD 0 0] mb 4 s t ∧ ∀ x < 32, bit (t.get R.FIO_OUT_CMD) x =
          if bit mask x then bit (s.par mb 4 4) x else bit (s.get R.FIO_OUT_CMD) x) ∧
      (s.get H.BND_N < cyc → exec (.fioOut mb) s = .next
        { s with waits := s.waits ++ [{ mb := mb, opc := 0x0801, key := 0, arg := cyc }] })) ∧
    (Ready s mb 0x0802 8 → (∀ x < 32, bit mask x = true → s.safeCh x = false) → exec (.fioClear mb) s = .next
      { s with waits := s.waits ++ [{ mb := mb, opc := 0x0802, key := 0, arg := 0 }] })

/-! ### Safety -/

/-- R222, R377, R378, R381, R383, R391, R392, R402 to R405: a safe sample that finds a pair open puts it and every group
it feeds into demand, and the end of path 2 ends what path 1 released; a pair that stays discrepant faults; an SS1-t
time that runs out is noted; the watchdog takes every gate and safe output off; a container is accepted, or faults its
connection; a cut-off fixes the half of a slot or the container of a connection. It rests on the model's choices of log
entries 152, 153, 155, 250, 252, 256, 259 and 293. -/
def Obligations.SafetyCoreEvaluates : Prop :=
  ∀ (j k g c r i a : Nat) (bytes : List Nat) (s : State), k < 4 → g < 16 → r < 2 → i < 256 →
    let b := (bytes.take 16).map (· % 256)
    let up := s.domDown 3 = false
    let conn1 := up ∧ s.conn c 1 = true ∧ s.get R.SAF_CONN_STAT_STATE c = 2
    let faulted := fun (err : Nat) (t : State) => t.get R.SAF_CONN_STAT_STATE c = 3 ∧ t.get R.SAF_CONN_STAT_ERR c = err ∧
      t.get R.SAF_CONN_SDATA c = 0 ∧ t.get R.SAF_CONN_CNT_ERR c = min (s.get R.SAF_CONN_CNT_ERR c + 1) (2 ^ 32 - 1) ∧
      bit (t.get R.SAF_EVT) 2 = true ∧ t.get R.INT_DET_STICKY 0x0C = 1
    let heads := s.get R.NRT_RSTATE_STATE r = 4 ∧ s.get R.NRT_RSTATE_HEAD r ≠ 0
    let f := s.cutFrame r i
    let due := s.cutDue a f
    (up → s.get H.SC_HALT = 0 → s.waits = [] →
      (s.get H.INJ_WD = 0 → s.get H.INJ_SC = 0 → s.get H.SAF_NEWP = 0 → s.get R.SAF_SIN_CFG_EN k ≠ 0 →
        s.get H.SAF_RET = 0 → s.get H.INJ_PMS k = 0 → s.get H.INJ_PT k = 0 → s.get H.SAF_J ≠ j + 1 → Completes (.safeSample j false) s fun t =>
          t.get H.SAF_J = (j + 1) % 2 ^ 65 ∧
          t.get R.SAF_SIN_STAT_DEMAND k = 1 ∧ t.get R.SAF_SIN_STAT_CH_A k = 0 ∧ t.get R.SAF_SIN_STAT_CH_B k = 0 ∧
          t.get R.DCK_TIME = max s.now (j * 125000) % 2 ^ 64 ∧
          (s.get R.SAF_SG_CFG_EN g ≠ 0 → bit (s.get R.SAF_SG_CFG_SRC_SIN g) k = true → bit (t.get R.SAF_SG_DEM) g = true)) ∧
      (s.get H.SAF_J = j + 1 → Completes (.safeSample j true) s fun t => t.get R.SAF_SAMPLE = j % 2 ^ 64 ∧ t.get H.SAF_REL = 0 ∧
        t.get H.SAF_PREL = 0 ∧ (bit (s.get H.SAF_PREL) k = true → t.get R.SAF_SIN_STAT_DEMAND k = 0) ∧
        (s.inFullStop = false → bit (s.get H.SAF_REL) g = true → bit (t.get R.SAF_SG_DEM) g = false ∧
          bit (t.get R.SAF_SG_STO) g = false))) ∧
    (s.get R.SAF_SIN_CFG_EN k ≠ 0 → s.get R.SAF_SIN_STAT_WIN k ≠ 0 →
      8 * s.get R.SAF_SIN_CFG_DISC k ≤ s.get R.SAF_SIN_STAT_WCNT k → Completes (.discrepancyFault k) s fun t =>
        t.get R.SAF_SIN_STAT_FAULT k = 1 ∧ t.get R.SAF_SIN_STAT_DEMAND k = 1 ∧ t.get R.SAF_SIN_STAT_WIN k = 0 ∧
        t.get R.SAF_SIN_CNT_DISC k = min (s.get R.SAF_SIN_CNT_DISC k + 1) (2 ^ 32 - 1) ∧ bit (t.get R.SAF_EVT) 1 = true ∧
        t.get R.INT_DET_STICKY 0x0F = 1 ∧ t.mem = s.mem) ∧
    (bit (s.get R.SAF_SG_DEM) g = true → s.get R.SAF_SG_CFG_FUNC g ≠ 0 → s.get H.SAF_OWN g ≠ 0 →
      s.get H.SAF_OWN g - 1 + s.get R.SAF_SG_T_SS1 g * 1000000 ≤ s.now →
      Completes (.ss1Expiry g) s fun t => bit (t.get H.SAF_SS1X) g = true ∧ OnlyRegs [fkey H.SAF_SS1X 0 0] s t) ∧
    (up → s.get H.SAF_WDD = 0 → (s.get H.SAF_J = 0 ∨
      s.timeUp ((s.get H.SAF_J - 1) * 125000 + 150000) = true) → Completes .watchdogExpiry s fun t => t.get H.SAF_WDD = 1 ∧ t.get R.SAF_STATUS_STATE = 3 ∧
      bit (t.get R.SAF_STATUS_FS_CAUSE) 3 = true ∧ t.get R.INT_DET_STICKY 0x08 = 1 ∧
      (∀ p < 8, t.get R.DRV_STAT_HWOFF p = 1) ∧ ∀ m < 4, t.get H.SO_CMD m = 0) ∧
    (s.get H.SAF_J ≠ 0 → s.timeUp ((s.get H.SAF_J - 1) * 125000 + 150000) = false → exec .watchdogExpiry s = .next s) ∧
    (conn1 → 16 ≤ bytes.length → s.get H.INJ_CN c = 0 → s.get H.INJ_CNT c ≤ s.now →
      (cCrcOk b = true → cId b = s.get R.SAF_CONN_ID c → cCnum b = cnumNext (s.get R.SAF_CONN_STAT_CNUM c) →
        Completes (.containerLanding c bytes) s fun t => t.get R.SAF_CONN_STAT_STATE c = 2 ∧
          t.get R.SAF_CONN_STAT_CNUM c = cCnum b ∧ t.get R.SAF_CONN_SDATA c = cSdata b) ∧
      (b.all (· == 0) = true → Completes (.containerLanding c bytes) s (faulted 1))) ∧
    (conn1 → s.timeUp (s.get H.CN_T c + 1000000 * s.get R.SAF_CONN_WD c) = true → Completes (.connectionWatchdog c) s (faulted 5)) ∧
    (heads → i < s.get R.NRT_RCFG2_NSLOT r → s.axisOfSlot r i = some a → s.get H.CM_BAD (256 * r + i) = 0 →
      s.slotSize r ≤ 64 → Completes (.cutOff r false i) s fun t =>
        t.bytes (sentHalf r i) 16 = (due.cutWords a f).1.flatMap (toBytesBE 4) ∧
        t.outs = due.outs.filter (fun o => o.axis != a || decide (f < o.frame)) ∧ t.waits = s.waits ∧
        t.axEvs = s.axEvs) ∧
    (heads → i < 64 → i < s.get R.NRT_RCFG2_NZHV r → up → s.get H.SAF_WDD = 0 →
      ((List.range 64).find? fun x => s.conn x 0 && s.get R.SAF_CONN_CFG_RING x == r && s.get R.SAF_CONN_CFG_CONT x == i) =
        some c → s.get H.INJ_CN c = 0 → s.get H.INJ_CNT c ≤ s.now → Completes (.cutOff r true i) s fun t =>
        t.get R.SAF_CONN_STAT_CNUM c = cnumNext (s.get R.SAF_CONN_STAT_CNUM c) ∧
        t.bytes (contAt r i) 16 = container (s.get H.CN_SD c) (cnumNext (s.get R.SAF_CONN_STAT_CNUM c))
          (s.get R.SAF_CONN_ID c))

/-- R387 to R389, R397 to R399: Full Stop is entered by its pin and by its request, and left by a release window with
the pin high; a test pulse opens the high-side switch of a live output and a stuck readback fails it; a proof goes
through its steps, and one that is due is shown. It rests on the model's choices of log entries 76, 201 and 259. -/
def Obligations.FullStopAndSafeOutputs : Prop :=
  ∀ (mb k : Nat) (rb se : Bool) (s : State), k < 4 → s.waits = [] →
    let entered := fun (cause : Nat) (t : State) => t.get R.SAF_STATUS_STATE = 2 ∧
      bit (t.get R.SAF_STATUS_FS_CAUSE) cause = true ∧ t.get R.SAF_STATUS_FSTOP_PIN = 0 ∧ t.get R.HIF_STATUS_FULL_STOP = 1 ∧
      bit (t.get R.HIF_INT_STAT) 8 = true ∧ ∀ g < 16, s.get R.SAF_SG_CFG_EN g ≠ 0 → bit (t.get R.SAF_SG_DEM) g = true
    let up := s.domDown 3 = false ∧ s.get H.SAF_WDD = 0
    let out := s.isSX = true ∧ s.get R.SAF_SO_CFG_EN k ≠ 0
    let p := s.get H.SO_PRF k
    (s.domDown 3 = false → (s.inFullStop = false → Completes .fstopNLow s (entered 0)) ∧
      (s.inFullStop = true → s.get H.REL_ON ≠ 0 → Completes .fstopNLow s fun t => t.get H.REL_L = s.now % 2 ^ 64 ∧
        bit (t.get R.SAF_STATUS_FS_CAUSE) 0 = true ∧ t.get R.SAF_STATUS_FSTOP_PIN = 0)) ∧
    (Ready s mb 0x0904 0 → s.inFullStop = false → Completes (.fullStop mb) s fun t => entered 1 t ∧ Answered t mb 2 0 [] ∧
      (s.sessionOk mb = true → t.get H.SS_T = s.now % 2 ^ 64)) ∧
    (Ready s mb 0x0905 0 →
      (s.inFullStop = false → Completes (.fullStopRelease mb) s fun t => Answered t mb 2 0 [] ∧
        AnswerKeeps [fkey H.SS_T 0 0] mb 0 s t) ∧
      (s.inFullStop = true → s.fsHeld = true → Completes (.fullStopRelease mb) s fun t =>
        Answered t mb 3 0x0902 [] ∧ AnswerKeeps [fkey H.SS_T 0 0] mb 0 s t) ∧
      (s.inFullStop = true → s.fsHeld = false → Completes (.fullStopRelease mb) s fun t => Waits s t mb 0x0905 0 0 ∧
        t.get H.REL_ON = 1 ∧ (s.get H.REL_ON = 0 → t.get H.REL_T = s.now % 2 ^ 64) ∧ t.mem = s.mem)) ∧
    (s.get H.REL_ON ≠ 0 → s.fsHeld = false → s.timeUp (s.get H.REL_L + 1000000) = true →
      s.now ≤ s.get H.REL_T + 100000000 → Completes .fullStopEnd s fun t =>
      t.get R.SAF_STATUS_STATE = s.get H.SAF_CONF % 4 ∧ t.get R.SAF_STATUS_FS_CAUSE = 0 ∧ t.get R.HIF_STATUS_FULL_STOP = 0 ∧
      t.get R.SAF_STATUS_FSTOP_PIN = 1 ∧ t.mem = s.mem ∧
      t.axEvs = s.axEvs ++ s.axes.map fun a => { axis := a, kind := .fullStopRelease }) ∧
    (s.get H.REL_ON ≠ 0 → s.timeUp (s.get H.REL_T + 100000000) = true → Completes .fullStopReleaseTimeout s fun t => t.get H.REL_ON = 0 ∧
      t.get R.SAF_STATUS_FSTOP_PIN = 0 ∧ OnlyRegs [fkey H.REL_ON 0 0, fkey R.SAF_STATUS_FSTOP_PIN 0 0] s t) ∧
    (out → up → p = 0 → s.get H.SO_WANT k ≠ 0 → s.get R.SAF_SO_STAT_PROOF_OK k ≠ 0 → s.get R.SAF_SO_STAT_FAULT k = 0 →
      s.get H.SO_LIVE k ≠ 0 → s.soSlotStarts k (s.get H.FIO_TT) = true → Completes (.safeTestPulse k false rb) s fun t => t.get H.SO_SLOT k = 1 ∧
        t.get H.SO_CMD k = 2 ∧ t.get H.SO_TPD k = 1 ∧ t.mem = s.mem) ∧
    (out → s.get H.SO_SLT k + 10000 * s.get R.SAF_TP_WIDTH ≤ s.get H.FIO_TT → s.get H.SO_TPD k ≠ 0 → s.get H.SO_CUT k = 0 → s.get R.SAF_SO_STAT_FAULT k = 0 → s.get H.INJ_SO k = 0 →
      Completes (.safeTestPulse k true false) s (fun t => t.get H.SO_SLOT k = 0 ∧ t.get H.SO_TP k = 0 ∧
        t.get R.SAF_SO_STAT_FAULT k = 0) ∧
      ((∀ m < 4, m ≠ k → s.get R.SAF_SO_STAT_ON m = 0) → Completes (.safeTestPulse k true true) s fun t =>
        t.get R.SAF_SO_STAT_FAULT k = 1 ∧ t.get R.SAF_SO_STAT_CAUSE k = 1 ∧ t.get H.SO_CMD k = 0 ∧
        t.get R.SAF_SO_STAT_PROOF_OK k = 0)) ∧
    (out → up → s.get H.INJ_SO k = 0 → s.timeUp (s.get H.SO_PRT k + s.proofNs p) = true →
      (0 < p → p < 4 → proofOk p rb se = true → Completes (.proofStep k rb se) s fun t => t.get H.SO_PRF k = p + 1 ∧
        t.get R.SAF_SO_STAT_PROOF_STEP k = p + 1 ∧ t.get H.SO_CMD k = proofCmd (p + 1) ∧ t.mem = s.mem) ∧
      (p = 4 → proofOk p rb se = true → Completes (.proofStep k rb se) s fun t => t.get H.SO_PRF k = 0 ∧
        t.get R.SAF_SO_STAT_PROOF_OK k = 1 ∧ t.get R.SAF_SO_T_PROOF k = s.now % 2 ^ 64) ∧
      (0 < p → p < 8 → proofOk p rb se = false → s.get R.SAF_SO_STAT_FAULT k = 0 → Completes (.proofStep k rb se) s fun t =>
        t.get R.SAF_SO_STAT_FAULT k = 1 ∧ t.get R.SAF_SO_STAT_CAUSE k = 3 ∧ t.get R.SAF_SO_STAT_PROOF_STEP k = p)) ∧
    (out → s.get R.SAF_STATUS_PROOF_DUE = 0 → s.timeUp (s.get R.SAF_SO_T_PROOF k + 2592000000000000) = true →
      Completes .proofDue s fun t => t.get R.SAF_STATUS_PROOF_DUE = 1 ∧
      bit (t.get R.SAF_EVT) 3 = true ∧ t.mem = s.mem)

/-- R276, R298, R399, R409, R410: within a session, safety parameters in their ranges are staged, and a set whose CRC is
given and that nothing bars is on its way to the safety store; SAFE_RESET waits for the next sample; SAFE_TEST begins
the proof of the outputs it names; a CX7420-NX refuses them. It rests on the model's choices of log entries 157, 158,
159, 253 and 266. -/
def Obligations.SafetyRequests : Prop :=
  ∀ (mb : Nat) (s : State),
    let off := s.par mb 0 4
    let n := s.par mb 4 4
    let new := s.safWith s.safNext
    let crc := Config.safetyCrc (safWords.map s.safNext ++ s.ovlSafety) % 2 ^ 32
    let nx := fun t => Answered t mb 3 0x0006 [] ∧ AnswerKeeps [] mb 0 s t
    (s.isSX = true → s.sessionOk mb = true →
      (Ready s mb 0x0900 (8 + 4 * n) → 0x20 ≤ off → off + 4 * n ≤ 0x1000 → off % 4 = 0 → 0 < n → n ≤ 1020 →
        (∀ i < n, safRange (off + 4 * i) (s.par mb (8 + 4 * i) 4) = true) → Completes (.safeParamWrite mb) s fun t =>
          Answered t mb 2 0 (toBytes 4 n) ∧ RegsKept (fkey H.SS_T 0 0 :: answerPlaces mb) s t ∧ quiet t = quiet s ∧
          ∀ i < n, t.load (0x5F000000 + off + 4 * i) 4 = s.par mb (8 + 4 * i) 4 ∧
            t.byte (0x5F001000 + (off + 4 * i) / 4) = 1) ∧
      (Ready s mb 0x0901 4 → Completes (.safeParamCommit mb) s fun t =>
        if safRefuse s new crc off = 0 then Waits s t mb 0x0901 0 (safChanged s new) ∧
          t.get H.SS_CR mb = s.get H.SS_REASON % 2 ^ 16 ∧ t.get H.SS_CA mb = s.get R.CFG_SAF_SESS_AUTHOR % 2 ^ 16 ∧
          RegsKept [fkey H.SS_T 0 0, fkey H.SS_CR mb 0, fkey H.SS_CA mb 0] s t ∧
          ∀ o ∈ safWords, t.load (0x5F010000 + 0x1000 * mb + o) 4 = s.safNext o
        else Answered t mb 3 (safRefuse s new crc off) [] ∧ AnswerKeeps [fkey H.SS_T 0 0] mb 0 s t)) ∧
    (s.isSX = true → Ready s mb 0x0902 20 → Completes (.safeReset mb) s fun t => Waits s t mb 0x0902 0 0 ∧
      (s.sessionOk mb = true → t.get H.SS_T = s.now % 2 ^ 64) ∧ RegsKept [fkey H.SS_T 0 0] s t ∧ t.mem = s.mem) ∧
    (s.isSX = true → Ready s mb 0x0903 4 →
      ((∀ k < 4, bit off k = true → s.get R.SAF_SO_CFG_EN k = 0) → Completes (.safeTest mb) s fun t =>
        Answered t mb 2 0 (toBytes 4 0) ∧ AnswerKeeps [fkey H.SS_T 0 0] mb 4 s t) ∧
      (∀ j < 4, bit off j = true → s.get R.SAF_SO_CFG_EN j ≠ 0 →
        (∀ k < 4, s.get H.SO_PRF k = 0 ∧ s.get R.SAF_SO_STAT_FAULT k = 0) →
        Completes (.safeTest mb) s fun t => t.waits.length = s.waits.length + 1 ∧ t.get H.SO_PRF j = 1 ∧
          t.get R.SAF_SO_STAT_PROOF_STEP j = 1 ∧ t.mem = s.mem)) ∧
    (s.isSX = false → (Ready s mb 0x0900 12 → Completes (.safeParamWrite mb) s nx) ∧
      (Ready s mb 0x0902 20 → Completes (.safeReset mb) s nx) ∧ (Ready s mb 0x0903 4 → Completes (.safeTest mb) s nx))

/-! ### The pair -/

/-- R418, R421, R424 to R429, R433, R434, R458: lanes, foreign heads, journal entries, digests and verdicts. A head that
meets a higher epoch ceases at its next boundary, at an equal epoch the part enters Full Stop; a lost lane is flagged,
and the loss of both takes the partner away; digests that differ start the self-diagnosis, and the verdicts decide as
R428's table has it; what the standby gets from the active unit it keeps. It rests on the model's choices of log entries
162, 168, 255, 257, 259 and 294. -/
def Obligations.PairLinkAndDigest : Prop :=
  ∀ (r cid epoch l mb tag opc accept stat why handle f par a off v own failed : Nat) (bytes : List Nat) (s : State),
    r < 2 → l < 2 → mb < 32 → a < 256 →
    let role := s.get R.CNJ_STATE_ROLE
    let b := bytes.take 4096
    let e := epoch % 2 ^ 16
    let d := s.digest f % 2 ^ 64
    let stopped := fun (t : State) => bit (t.get R.SAF_STATUS_FS_CAUSE) 4 = true
    (s.get R.NRT_RSTATE_HEAD r ≠ 0 → cid ≠ s.get R.HIF_CID → Completes (.foreignHeadFrame r cid epoch) s fun t =>
      (e ≠ s.get R.CNJ_EPOCH → t.get R.NRT_CNT_FOREIGN_HEAD r = min (s.get R.NRT_CNT_FOREIGN_HEAD r + 1) (2 ^ 32 - 1) ∧
        t.get H.CNJ_CEASE = (if s.get R.CNJ_EPOCH < e then 1 else s.get H.CNJ_CEASE) ∧ OnlyRegs
          [fkey R.NRT_CNT_FOREIGN_HEAD r 0, fkey H.CNJ_CEASE 0 0] s t) ∧ (e = s.get R.CNJ_EPOCH → stopped t)) ∧
    (bit (s.get R.CNJ_STATE_LANES) l = true → Completes (.laneLost l) s fun t =>
      bit (t.get R.CNJ_STATE_LANES) l = false ∧ t.get R.CNJ_FLAGS_LANE_LOST = 1 ∧
      (bit (s.get R.CNJ_STATE_LANES) (1 - l) = true → bit (t.get R.CNJ_STATE_LANES) (1 - l) = true ∧
        OnlyRegs [fkey R.CNJ_STATE_LANES 0 0, fkey R.CNJ_FLAGS_LANE_LOST 0 0] s t) ∧
      (bit (s.get R.CNJ_STATE_LANES) (1 - l) = false → t.get R.CNJ_FLAGS_LINK_LOST = 1 ∧
        (role = 1 → t.get H.CNJ_PROLE = 4) ∧ (role = 3 → t.get R.CNJ_STATE_ROLE = 4 ∧ t.get R.CNJ_FLAGS_REJOIN_FAIL = 1) ∧
        (role = 2 → t.get H.CNJ_ISO = 1 ∨ t.get H.CNJ_SWP = 3))) ∧
    Completes (.laneRestored l) s (fun t => bit (t.get R.CNJ_STATE_LANES) l = true ∧ t.get H.CNJ_ISO = 0 ∧
      OnlyRegs [fkey R.CNJ_STATE_LANES 0 0, fkey H.CNJ_ISO 0 0] s t) ∧
    (s.isStandby = true → Completes (.journalEntry mb tag opc accept bytes) s fun t =>
      t.get H.MB_JRN mb = 1 ∧ t.get R.MBX_STAT_STATUS mb = 1 ∧ t.get H.MB_OPC mb = opc % 2 ^ 16 ∧
      t.get H.MB_TAG mb = tag % 2 ^ 16 ∧ (∀ k (h : k < b.length), t.byte (pageOf mb + k) = b[k] % 256) ∧
      (s.get H.MB_JRN mb = 0 → t.get H.JS_STAT mb = s.get R.MBX_STAT_STATUS mb ∧
        ∀ k < 0x1000, t.byte (jrnPage mb + k) = s.byte (pageOf mb + k)) ∧ lists t = lists s ∧
      (∀ x, (x < pageOf mb ∨ pageOf mb + b.length ≤ x) → (x < jrnPage mb ∨ jrnPage mb + 0x1000 ≤ x) → t.byte x = s.byte x) ∧
      RegsKept [fkey H.MB_JRN mb 0, fkey R.MBX_STAT_STATUS mb 0, fkey H.MB_OPC mb 0, fkey H.MB_TAG mb 0,
        fkey H.MB_LEN mb 0, fkey H.MB_ACC mb 0, fkey H.MB_SEQ mb 0, fkey H.DB_SEQ 0 0, fkey H.JS_STAT mb 0,
        fkey H.JS_OPC mb 0, fkey H.JS_TAG mb 0, fkey H.JS_LEN mb 0, fkey H.JS_SEQ mb 0] s t) ∧
    (s.isStandby = true → tag ≠ 0 → Completes (.journalCompletion mb tag stat why opc handle bytes) s fun t =>
      t.regs = s.regs ∧ t.mem = s.mem ∧ t.tags.head? =
        some (TagRec.mk mb tag stat why bytes.length handle opc s.now (bytes.take 32))) ∧
    ((role = 2 ∨ (role = 1 ∧ s.get H.CNJ_PROLE = 2)) → Completes (.digestComparison f par [] []) s fun t =>
      t.get R.CNJ_DIG_LOCAL = d ∧ t.get R.CNJ_DIG_PARTNER = par % 2 ^ 64 ∧ t.get R.CNJ_DIG_CYC = f % 2 ^ 64 ∧
      t.get R.CNJ_CNT_CMP = min (s.get R.CNJ_CNT_CMP + 1) (2 ^ 32 - 1) ∧
      (s.digest f ≠ par % 2 ^ 64 → t.get R.CNJ_FLAGS_MISMATCH = 1 ∧ (s.get H.CNJ_SWP = 0 → t.get H.CNJ_DW = 1) ∧
        t.get R.CNJ_CNT_MISMATCH = min (s.get R.CNJ_CNT_MISMATCH + 1) (2 ^ 32 - 1)) ∧
      (s.digest f = par % 2 ^ 64 → OnlyRegs [fkey R.CNJ_DIG_LOCAL 0 0, fkey R.CNJ_DIG_PARTNER 0 0, fkey R.CNJ_DIG_CYC 0 0,
        fkey R.CNJ_CNT_CMP 0 0, fkey H.INJ_DIG 0 0, fkey H.CNJ_DETS 0 0] s t ∧ t.get H.CNJ_DETS = 0)) ∧
    (role = 3 → s.get R.CNJ_STATE_REJOIN_PH = 3 → Completes (.digestComparison f par [] []) s fun t =>
      (s.digest f = par % 2 ^ 64 → t.get H.CNJ_MATCH = min 64 (s.get H.CNJ_MATCH + 1) ∧ t.get R.CNJ_STATE_ROLE = 3) ∧
      (s.digest f ≠ par % 2 ^ 64 → t.get R.CNJ_STATE_ROLE = 4 ∧ t.get R.CNJ_FLAGS_REJOIN_FAIL = 1)) ∧
    (s.isStandby = true → off < 0x1000 → off % 4 = 0 → exec (.onesidedCopy a [(off, v)]) s =
      .next ((s.putWord R.axsFields (axRec a + off) v).put H.CNJ_CPY 0 a)) ∧
    (s.get H.CNJ_DW ≠ 0 → s.get H.INJ_DIAG = 0 → role = 1 → s.diagStep ≠ 0 → Completes (.verdict 1 par failed) s fun t =>
      t.get H.CNJ_DW = 0 ∧ t.get R.CNJ_DIAG_LOCAL = 2 ∧ t.get R.CNJ_DIAG_FAILSTEP = s.diagStep ∧
      (par = 1 → t.get H.CNJ_SWP = 1) ∧ (par ≠ 1 → stopped t)) ∧
    (s.get H.CNJ_DW ≠ 0 → s.get H.INJ_DIAG = 0 → role = 1 → (own = 1 → s.diagStep = 0) →
      Completes (.verdict own par failed) s fun t =>
      t.get H.CNJ_DW = 0 ∧ t.get R.CNJ_DIAG_LOCAL = (if own = 1 then 1 else 2) ∧
      t.get R.CNJ_DIAG_PARTNER = (if par = 1 then 1 else 2) ∧
      t.get R.CNJ_DIAG_FAILSTEP = (if own = 1 then 0 else failed % 16) ∧
      (own ≠ 1 → par = 1 → t.get H.CNJ_SWP = 1) ∧ (own = 1 → par ≠ 1 → t.get H.CNJ_PROLE = 4) ∧
      (own = 1 → par = 1 → t.get R.CNJ_FLAGS_DUAL_PASS = 1 ∧ stopped t) ∧ (own ≠ 1 → par ≠ 1 → stopped t)) ∧
    (s.get H.CNJ_DW ≠ 0 → s.timeUp (s.get H.CNJ_DWT + 10000) = true → role = 1 → Completes (.verdictTimeout false) s (fun t => t.get H.CNJ_DW = 0 ∧
      t.get R.CNJ_DIAG_PARTNER = 3 ∧ t.get H.CNJ_PROLE = 4) ∧ (s.get R.CNJ_STATE_LANES ≠ 0 →
        Completes (.verdictTimeout true) s stopped)) ∧
    (role = 1 ∨ role = 2 → Completes (.periodicSelfDiagnosis false) s fun t => t.get R.CNJ_DIAG_LOCAL = 2 ∧
      t.get R.CNJ_DIAG_FAILSTEP = 2 ∧ t.get R.INT_DET_STICKY 0x1B = 1 ∧
      (role = 1 → s.get H.CNJ_PROLE = 2 → t.get H.CNJ_SWP = 2))

/-- R414 to R416, R430, R433, R435 to R440: the roles of a pair. PAIR_CONFIG takes a role, or shows why it is refused; a
switch-over moves the token with a higher epoch and ends what waits on the outgoing unit; a handover takes effect at its
boundary; a rejoin goes through its phases. What the partner announces to PAIR_CONFIG is free. It rests on the model's
choices of log entries 161, 162, 163, 164, 291 and 295. -/
def Obligations.PairRolesAndRequests : Prop :=
  ∀ (mb r backlog : Nat) (s : State), r < 2 →
    let role := s.get R.CNJ_STATE_ROLE
    let call := fun (opc n : Nat) => s.live mb opc = true ∧ s.get R.PWR_STATE_BOOT ≠ 2 ∧ n ≤ s.get H.MB_LEN mb ∧
      s.get H.MB_JRN mb = 0
    let fl := s.par mb 4 4
    let c := s.par mb 0 8
    let refuse := s.pairRefuse (s.par mb 0 4) (bit fl 1)
    let agreed := fun (n cause : Nat) (t : State) => t.get H.CNJ_HO = (max n (s.get H.BND_N + 4) + 1) % 2 ^ 64 ∧
      t.get H.CNJ_HOC = cause ∧ t.get R.CNJ_STATE_ROLE = role
    let moved := fun (dest cause : Nat) (t : State) => t.get R.CNJ_STATE_ROLE = dest ∧ t.get R.CNJ_SW_CAUSE = cause % 8 ∧
      t.get R.CNJ_SW_CYC = (s.get H.BND_N + 1) % 2 ^ 64 ∧ t.get R.CNJ_FLAGS_SWITCH = 1 ∧
      t.get R.CNJ_CNT_SWITCH = min (s.get R.CNJ_CNT_SWITCH + 1) (2 ^ 32 - 1) ∧
      t.get R.CNJ_EPOCH = (if dest = 1 then (s.get R.CNJ_EPOCH + 1) % 2 ^ 16 else s.get R.CNJ_EPOCH)
    (call 0x0A00 8 →
      (bit fl 0 = false → Completes (.pairConfig mb) s fun t => Answered t mb 2 0 (toBytes 4 0 ++ toBytes 4 0) ∧
        t.get R.CNJ_STATE_ROLE = 0 ∧ t.get R.CNJ_CFG_EN = 0) ∧
      (bit fl 0 = true → Completes (.pairConfig mb) s fun t => t.get R.CNJ_STATE_REFUSE = refuse ∧
        if refuse = 0 then Answered t mb 2 0 (toBytes 4 (t.get R.CNJ_STATE_ROLE) ++ toBytes 4 0) ∧
          (t.get R.CNJ_STATE_ROLE = 1 ∨ (t.get R.CNJ_STATE_ROLE = 3 ∧ t.get R.CNJ_STATE_REJOIN_PH = 1)) ∧
          t.get R.CNJ_PARTNER_CID = s.par mb 0 4 ∧ t.get R.CNJ_CFG_EN = 1 ∧
          (s.get R.NRT_RSTATE_HEAD r ≠ 0 → s.get R.NRT_RSTATE_STATE r = 4 → t.get R.CNJ_STATE_ROLE = 1)
        else Answered t mb 3 0x0A01 (toBytes 4 5 ++ toBytes 4 refuse) ∧ t.get R.CNJ_STATE_ROLE = 5)) ∧
    (call 0x0A01 0 →
      (s.get R.CNJ_CFG_EN = 0 → Completes (.pairRejoin mb) s fun t => Answered t mb 3 0x0A02 []) ∧
      (s.get R.CNJ_CFG_EN ≠ 0 → role = 4 → s.get H.CNJ_PROLE = 1 → Completes (.pairRejoin mb) s fun t =>
        Answered t mb 2 0 [] ∧ t.get R.CNJ_STATE_ROLE = 3 ∧ t.get R.CNJ_STATE_REJOIN_PH = 1 ∧
        t.get R.CNJ_STATE_PERMILLE = 0)) ∧
    (call 0x0A02 8 →
      (role = 1 → s.get H.CNJ_PROLE = 2 → Completes (.pairHandover mb) s fun t => Waits s t mb 0x0A02 0 0 ∧
        (c = 0 → t.regs = s.regs) ∧ (c ≠ 0 → agreed c 5 t)) ∧
      (role ≠ 1 → Completes (.pairHandover mb) s fun t => Answered t mb 3 0x0A04 [] ∧ AnswerKeeps [] mb 0 s t)) ∧
    (call 0x0A03 8 →
      (s.get R.CNJ_CFG_PREF ≠ 0 → role = 2 → Completes (.pairTakeback mb) s fun t => Waits s t mb 0x0A03 0 0 ∧
        (c = 0 → t.regs = s.regs) ∧ (c ≠ 0 → agreed c 4 t)) ∧
      (s.get R.CNJ_CFG_PREF = 0 → Completes (.pairTakeback mb) s fun t =>
        Answered t mb 3 0x0A03 [] ∧ AnswerKeeps [] mb 0 s t)) ∧
    (call 0x0A04 0 → exec (.pairUnpair mb) s =
      .next { s with waits := s.waits ++ [{ mb := mb, opc := 0x0A04, key := 0, arg := 0 }] }) ∧
    (s.get H.CNJ_SWP ≠ 0 → s.get H.CNJ_SWT + 1000 ≤ s.get H.BND_T + s.baseNs → (role = 2 → Completes .switchOver s fun t => moved 1 (s.get H.CNJ_SWP) t ∧ t.get H.CNJ_SWP = 0 ∧
        (s.get R.NRT_RSTATE_STATE r = 4 → t.get R.NRT_RSTATE_HEAD r = 1 ∧ t.get R.NRT_TOKEN_CID r = s.get R.HIF_CID % 2 ^ 32 ∧
          t.get R.NRT_TOKEN_EPOCH r = t.get R.CNJ_EPOCH)) ∧
      (role = 1 → s.get H.CNJ_SWP < 4 → Completes .switchOver s fun t =>
        moved (if s.get R.CNJ_CFG_AUTO_REJOIN = 0 then 4 else 3) (s.get H.CNJ_SWP) t ∧ t.get R.NRT_RSTATE_HEAD r = 0 ∧
        ∀ m < 32, s.get R.MBX_STAT_STATUS m = 1 → s.get H.MB_JRN m = 0 → standbyRuns (s.get H.MB_OPC m) = false →
          t.get R.MBX_STAT_STATUS m = 3 ∧ t.get R.MBX_RES_REASON m = 0x0A07)) ∧
    (s.get H.CNJ_SWP ≠ 0 → s.get H.BND_T + s.baseNs < s.get H.CNJ_SWT + 1000 → exec .switchOver s = .next s) ∧
    (s.get H.CNJ_SWP = 0 → (role = 1 → s.get H.CNJ_PROLE = 2 → s.get H.QUAR_2 ≠ 0 → Completes .switchOver s fun t =>
        moved (if s.get R.CNJ_CFG_AUTO_REJOIN = 0 then 4 else 3) 2 t) ∧
      (role = 2 → s.get R.CNJ_STATE_LANES ≠ 0 → Completes .switchOver s fun t => moved 1 2 t)) ∧
    (s.get H.CNJ_SWP = 0 → s.get H.CNJ_DW = 0 → s.get H.CNJ_HO ≠ 0 → s.get H.CNJ_HO ≤ s.get H.BND_N + 2 →
      4 ≤ s.get H.CNJ_HOC →
      (role = 2 ∨ (role = 1 ∧ s.get H.CNJ_PROLE = 2)) → Completes .handover s fun t =>
        moved (if role = 1 then 2 else 1) (s.get H.CNJ_HOC) t ∧ t.get H.CNJ_HO = 0 ∧
        ∀ w ∈ t.waits, w.opc ≠ 0x0A02 ∧ w.opc ≠ 0x0A03) ∧
    (s.get H.CNJ_HO = 0 → 32 ≤ s.get H.CNJ_STL →
      (role = 1 → s.get H.CNJ_PROLE = 2 → s.waiting 0x0A02 0 ≠ [] → Completes .standstill s fun t => agreed 0 5 t ∧
        OnlyRegs [fkey H.CNJ_HO 0 0, fkey H.CNJ_HOC 0 0] s t) ∧
      (role = 2 → s.get R.CNJ_CFG_AUTO_TB ≠ 0 → s.get R.CNJ_CFG_PREF ≠ 0 → Completes .standstill s fun t => agreed 0 4 t ∧
        OnlyRegs [fkey H.CNJ_HO 0 0, fkey H.CNJ_HOC 0 0] s t)) ∧
    (role = 3 →
      (s.get R.CNJ_STATE_REJOIN_PH = 1 → Completes (.rejoinTransferComplete backlog) s fun t =>
        (backlog ≤ s.backlogCap → t.get R.CNJ_STATE_REJOIN_PH = 2 ∧ t.get R.CNJ_BACKLOG = backlog % 2 ^ 16 ∧
          t.get R.CNJ_STATE_ROLE = 3) ∧
        (s.backlogCap < backlog → t.get R.CNJ_STATE_ROLE = 4 ∧ t.get R.CNJ_FLAGS_REJOIN_FAIL = 1)) ∧
      (s.get R.CNJ_STATE_REJOIN_PH = 2 → Completes .replayComplete s fun t => t.get R.CNJ_STATE_REJOIN_PH = 3 ∧
        t.get R.CNJ_BACKLOG = 0 ∧ t.get R.CNJ_STATE_ROLE = 3) ∧
      (s.get R.CNJ_STATE_REJOIN_PH = 3 → 64 ≤ s.get H.CNJ_MATCH → Completes .rejoinConfirmed s fun t =>
        t.get R.CNJ_STATE_ROLE = 2 ∧ t.get R.CNJ_STATE_REJOIN_PH = 0 ∧ t.get R.HIF_STATUS_ROLE = 2)) ∧
    (s.get R.NRT_RCFG_EN r ≠ 0 → s.get R.NRT_RSTATE_HEAD r = 0 → Completes (.expectedFrameMissing r) s fun t =>
      t.get H.CNJ_EFM = 1 ∧ (role = 2 → s.get R.CNJ_STATE_LANES = 0 → t.get H.CNJ_SWP = 3))

/-! ### Configuration, images and firmware -/

/-- R288, R290 to R295, R299, R300: a mode switch is staged, or refused by name; a commit takes its snapshot and ends
when its record is read back; firmware is received, checked, and written to the other slot; a scrub pass ends, with the
image of a page that failed marked bad; garbage collection keeps the images down to the second newest valid one, moves
their pages only, retires the blocks that fail, and shows the blocks in service and their erase counts. Which image a
failing page belongs to is free. It rests on the model's choices of log entries 172, 173, 174, 175, 176, 178 and 288. -/
def Obligations.ModesImagesAndFirmware : Prop :=
  ∀ (mb k f0 f1 f2 f3 f4 : Nat) (bad : Bool) (m : Image) (s : State),
    let bare := fun (l : List Image) => l.map fun x => { x with ext := [] }
    let p := s.par mb 0 4
    let off := s.par mb 4 4
    let n := clampN 1 4080 (s.par mb 8 4)
    let begun := fun (opc : Nat) (t : State) => Answered t mb 2 0 [] ∧ t.get R.MBX_HANDLE mb = s.lopHandle ∧
      t.get R.LOP_ID_HANDLE k = s.lopHandle ∧ t.get R.LOP_ID_STATUS k = 1 ∧ t.get R.LOP_OBJ_OPCODE k = opc
    let ended := fun (t : State) => t.get R.LOP_ID_STATUS k = 2 ∧ t.get R.LOP_PROG_PERMILLE k = 1000
    let idle := fun (opc : Nat) => s.lopBusy opc = false ∧ s.lopSlot = some k
    let no := fun (reason : Nat) (t : State) => Answered t mb 3 reason [] ∧ AnswerKeeps [] mb 0 s t
    let chk := s.fwCheck (s.bytes 0x90000000 (s.get H.FW_LEN))
    let other := 1 - s.get R.CFG_FW_SLOT
    (Ready s mb 0x0600 16 →
      (8 < p → Completes (.modeSwitch mb) s (no 0x0003)) ∧
      (p ≤ 8 → s.get H.MSW_B ≠ 0 → Completes (.modeSwitch mb) s (no 0x000E)) ∧
      (p ≤ 8 → s.get H.MSW_B = 0 → s.swapTracked (s.swapTo p) p = true → Completes (.modeSwitch mb) s (no 0x0202)) ∧
      (p ≤ 8 → s.get H.MSW_B = 0 → s.swapTracked (s.swapTo p) p = false → s.overload (s.swapTo p) = false →
        Completes (.modeSwitch mb) s fun t => Waits s t mb 0x0600 0 0 ∧
          t.get H.MSW_B = p + 1 ∧ t.get H.MSW_CYC = s.par mb 8 8 ∧ t.mem = s.mem ∧
          t.get H.MSW_T = (s.now + 1000 + 50 * (s.ovlCount p + s.ovlCount (s.get R.CFG_MODE_ACTIVE))) % 2 ^ 64 ∧
          RegsKept [fkey H.MSW_B 0 0, fkey H.MSW_T 0 0, fkey H.MSW_CYC 0 0, fkey H.MSW_MB 0 0] s t)) ∧
    (Ready s mb 0x0601 8 → (idle 0x0601 → Completes (.cfgCommit mb) s fun t => begun 0x0601 t ∧ t.get H.CMT = 1 ∧
        t.get H.CMT_BM = min 8 p ∧ t.get H.CMT_LFF = off % 2) ∧
      (s.lopBusy 0x0601 = true → Completes (.cfgCommit mb) s (no 0x000E))) ∧
    (s.snap = some m → s.lopOf 0x0601 0 = some k → Completes .commitComplete s fun t => t.images = m :: s.images ∧
      t.snap = none ∧ t.get H.CMT = 0 ∧ t.get R.CFG_IMG_SEQ = m.seq % 2 ^ 32 ∧ t.get R.CFG_BOOT_MODE = m.bootMode % 16 ∧
      (s.get H.CMT_D = 0 → t.get R.CFG_STATUS_DIRTY = 0) ∧ ended t) ∧
    (Ready s mb 0x0602 4 → idle 0x0602 → Completes (.fwUpdate mb) s fun t => begun 0x0602 t ∧ t.get H.FW_PH = 1 ∧
      t.get H.FW_LEN = clampN 4096 4194304 p ∧ t.get H.FW_GOT = 0 ∧ bit (t.get H.FW_GOOD) other = false) ∧
    (Ready s mb 0x060A 12 → 0 < p → p < 65536 →
      (k < 32 → s.get R.LOP_ID_HANDLE k = p → s.get R.LOP_OBJ_OPCODE k = 0x0602 → s.get R.LOP_ID_STATUS k = 1 →
        (∀ j < 32, s.get R.LOP_ID_HANDLE j = p → j = k) → 12 + n ≤ s.get H.MB_LEN mb → off + n ≤ s.get H.FW_LEN →
        s.get H.FW_PH = 1 → Completes (.fwData mb) s fun t => Answered t mb 2 0 (toBytes 4 (t.get H.FW_GOT)) ∧
          (∀ i < n, t.byte (0x90000000 + off + i) = s.byte (pageOf mb + 12 + i)) ∧ t.get H.FW_GOT = (s.get H.FW_GOT +
            ((List.range n).filter fun i => s.byte (0x90800000 + off + i) == 0).length) % 2 ^ 23) ∧
      ((∀ j < 32, s.get R.LOP_ID_HANDLE j ≠ p) → Completes (.fwData mb) s (no 0x000A))) ∧
    (s.get H.FW_PH = 1 → s.get H.FW_GOT = s.get H.FW_LEN → s.lopOf 0x0602 0 = some k → Completes .fwSignatureCheck s fun t =>
      t.mem = s.mem ∧ (chk.1 = 0 → t.get H.FW_PH = 2 ∧ t.get H.FW_RK = chk.2 % 4 ∧ t.get R.LOP_PROG_PERMILLE k = 500) ∧
      (chk.1 ≠ 0 → t.get H.FW_PH = 0 ∧ t.get R.LOP_ID_STATUS k = 3 ∧ t.get R.LOP_PROG_REASON k = chk.1)) ∧
    (s.get H.FW_PH = 2 → s.lopOf 0x0602 0 = some k → Completes .fwWriteComplete s fun t => t.get H.FW_ACT = other ∧
      t.get H.FW_TRL = 1 ∧ t.get H.FW_PH = 0 ∧ bit (t.get H.FW_GOOD) other = true ∧ ended t ∧
      t.get (if other = 0 then R.CFG_FW_VER0 else R.CFG_FW_VER1) =
        Config.imageVersion (s.bytes 0x90000000 (s.get H.FW_LEN)) % 2 ^ 32 ∧
      ∀ i < s.get H.FW_LEN, t.byte (flashAt (flashSlot other).base + i) = s.byte (0x90000000 + i)) ∧
    (Ready s mb 0x0603 0 → idle 0x0603 → Completes (.flashScrub mb) s (begun 0x0603)) ∧
    (s.lopOf 0x0603 0 = some k → s.get R.LOP_ID_STATUS k = 1 → s.scrubPaused = false → s.get H.INJ_PG = 0 →
      Completes (.flashScrubComplete bad) s fun t => ended t ∧ (bad = false → bare t.images = bare s.images) ∧
        (bad = true → s.images ≠ [] → ∃ i < s.images.length,
          bare t.images = bare (s.images.modify i fun x => { x with good := false }) ∧
          (i = 0 → t.get R.CFG_STATUS_IMG_FALLBACK = 1))) ∧
    Completes (.garbageCollection f0 f1 f2 f3 f4) s fun t => bare t.images = bare (keepImages 2 s.images) ∧
      (∀ b ∈ [f0, f1, f2, f3, f4], b < 368 → t.get H.FL_RT b = 1) ∧
      (∀ b < 368, s.get H.FL_RT b ≠ 0 → t.get H.FL_RT b = 1) ∧
      t.get R.CFG_FL_BLK_ERASED = t.blkFree.length ∧ t.get R.CFG_FL_BLK_USED = t.blkUsed.length ∧
      t.get R.CFG_FL_RETIRED = 368 - (t.blkFree ++ t.blkUsed).length ∧
      t.get R.CFG_FL_ECMAX = t.blkMost (t.blkFree ++ t.blkUsed) ∧
      (∀ b ∈ t.blkFree ++ t.blkUsed, t.get R.CFG_FL_ECMIN ≤ t.get H.FL_EC b) ∧
      (t.get R.CFG_STATUS_FLASH_WORN = if (t.blkFree ++ t.blkUsed).length < 48 then 1 else s.get R.CFG_STATUS_FLASH_WORN) ∧
      t.mem = s.mem ∧ RegsKept (fkey H.FL_CUR 0 0 :: ([R.CFG_FL_BLK_ERASED, R.CFG_FL_BLK_USED, R.CFG_FL_RETIRED,
        R.CFG_FL_ECMAX, R.CFG_FL_ECMIN, R.CFG_STATUS_FLASH_WORN].map fun g => fkey g 0 0) ++
        [H.FL_EC, H.FL_WR, H.FL_RT].flatMap fun g => (List.range 368).map fun b => fkey g b 0) s t

/-- R284, R285, R296 to R300: overlays are read, written and cleared, and entries that carry safety parameters wait for
the safety store; a safety session opens with the password, counts its failures and ends; a safety change that reaches
the store has its entry in the change log. The salt of a new password is free. It rests on the model's choices of log
entries 170, 171, 182, 183, 185, 259 and 266. -/
def Obligations.OverlaysAndSafetySession : Prop :=
  ∀ (mb : Nat) (w : Wait) (rest : List Wait) (s : State),
    let no := fun (reason : Nat) (t : State) => Answered t mb 3 reason [] ∧ AnswerKeeps [] mb 0 s t
    let m := s.par mb 0 4
    let first := s.par mb 4 4
    let n := clampN 1 340 (s.par mb 8 4)
    let new := (s.ovlReq mb).2.2
    let cut := ((s.ovl m).drop first).take n
    let words := fun (e : OvlEntry) => toBytes 4 e.t ++ toBytes 4 e.mask ++ toBytes 4 e.val
    let seen := (((s.ovl m).drop first).take (clampN 1 341 (s.par mb 8 4))).flatMap words
    let held := ((s.ovl m).filter OvlEntry.safe).length
    let pw := clampN 8 64 first
    let right := s.get R.CFG_STATUS_NO_PASSWORD = 0 ∧
      Config.pbkdf2 (s.get H.SS_SALT) (s.bytes (pageOf mb + 8) pw) % 2 ^ 256 = s.get H.SS_HASH
    let session := [fkey R.CFG_SAF_SESS_OPEN 0 0, fkey R.CFG_SAF_SESS_MBX 0 0, fkey R.CFG_SAF_SESS_AUTHOR 0 0,
      fkey H.SS_REASON 0 0, fkey H.SS_T 0 0]
    let q := (s.get R.CFG_LOG_SEQ + 1) % 2 ^ 32
    let noted := fun (t : State) => t.get H.SS_CR mb = s.get H.SS_REASON % 2 ^ 16 ∧
      t.get H.SS_CA mb = s.get R.CFG_SAF_SESS_AUTHOR % 2 ^ 16 ∧
      RegsKept [fkey H.SS_T 0 0, fkey H.SS_CR mb 0, fkey H.SS_CA mb 0] s t
    let logged := fun (kind : Nat) (t : State) => t.get R.CFG_LOG_SEQ = q ∧ t.load (0x5F100000 + 32 * (q % 512)) 4 = q ∧
      t.load (0x5F100000 + 32 * (q % 512) + 4) 2 = s.get H.SS_CR w.mb ∧
      t.load (0x5F100000 + 32 * (q % 512) + 6) 2 = s.get H.SS_CA w.mb ∧
      t.load (0x5F100000 + 32 * (q % 512) + 20) 2 = kind ∧ Answered t w.mb 2 0 (if kind = 1 then toBytes 4 q else [])
    let kept := ((List.range (clampN 1 127 first)).map fun i => m + i).filter fun x =>
      decide (0 < x) && decide (x ≤ s.get R.CFG_LOG_SEQ) && decide (s.get R.CFG_LOG_SEQ < x + 512)
    let entries := kept.flatMap fun x => s.bytes (0x5F100000 + 32 * (x % 512)) 32
    (Ready s mb 0x0607 12 → 0 < m → m ≤ 8 → first ≤ 2047 → 12 + 12 * n ≤ s.get H.MB_LEN mb → s.ovlInUse m = false →
      first + n ≤ 2048 → new.all s.ovlMay = true →
      ((new ++ cut).any OvlEntry.safe = false → Completes (.ovlWrite mb) s fun t =>
        Answered t mb 2 0 (toBytes 4 (t.ovlCount m)) ∧ t.get R.CFG_STATUS_DIRTY = 1 ∧
        ∀ i < n, (t.ovl m)[first + i]? = new[i]?) ∧
      ((new ++ cut).any OvlEntry.safe = true → s.safeWriteBar mb = 0 → Completes (.ovlWrite mb) s fun t =>
        Waits s t mb 0x0607 0 ((new ++ cut).filter OvlEntry.safe).length ∧ noted t ∧ t.mem = s.mem)) ∧
    (Ready s mb 0x0607 12 → m = 0 ∨ 8 < m → Completes (.ovlWrite mb) s (no 0x0003)) ∧
    (Ready s mb 0x0608 12 → 0 < m → m ≤ 8 → first ≤ 2047 → Completes (.ovlRead mb) s fun t =>
      Answered t mb 2 0 seen ∧ AnswerKeeps [] mb seen.length s t) ∧
    (Ready s mb 0x0609 4 → 0 < m → m ≤ 8 → s.ovlInUse m = false →
      (held = 0 → Completes (.ovlClear mb) s fun t => Answered t mb 2 0 [] ∧ t.ovlCount m = 0 ∧
        t.get R.CFG_STATUS_DIRTY = 1 ∧ quiet t = quiet s ∧ BytesKept (ovlAt m 0) (ovlAt m 2048) s t ∧ RegsKept
          (answerPlaces mb ++ [fkey R.CFG_OVL_N 0 (m - 1), fkey R.CFG_STATUS_DIRTY 0 0, fkey H.CMT_D 0 0]) s t) ∧
      (held ≠ 0 → s.safeWriteBar mb = 0 → Completes (.ovlClear mb) s fun t => Waits s t mb 0x0609 0 held ∧
        noted t ∧ t.mem = s.mem)) ∧
    (Ready s mb 0x060B 8 → Completes (.logRead mb) s fun t => Answered t mb 2 0 entries ∧
      AnswerKeeps [] mb entries.length s t) ∧
    (s.isSX = true →
      (Ready s mb 0x0604 8 → 8 + pw ≤ s.get H.MB_LEN mb →
        (s.get R.CFG_SAF_LOCK ≠ 0 → Completes (.safetyLogin mb) s (no 0x060A)) ∧
        (s.get R.CFG_SAF_LOCK = 0 → Completes (.safetyLogin mb) s fun t =>
          if right then Answered t mb 2 0 [] ∧ t.get R.CFG_SAF_SESS_OPEN = 1 ∧ t.get R.CFG_SAF_SESS_MBX = mb ∧
            t.get R.CFG_SAF_SESS_AUTHOR = max 1 (s.par mb 0 2) ∧ t.get R.CFG_SAF_FAILS = 0 ∧
            AnswerKeeps (fkey R.CFG_SAF_FAILS 0 0 :: session) mb 0 s t
          else Answered t mb 3 0x0609 [] ∧ t.get R.CFG_SAF_FAILS = min (s.get R.CFG_SAF_FAILS + 1) 255 ∧
            t.get R.CFG_SAF_LOCK = lockSecs (min (s.get R.CFG_SAF_FAILS + 1) 255) ∧
            AnswerKeeps [fkey R.CFG_SAF_FAILS 0 0, fkey R.CFG_SAF_LOCK 0 0, fkey H.SS_LKT 0 0] mb 0 s t)) ∧
      (Ready s mb 0x0605 0 → (s.get R.CFG_SAF_SESS_OPEN ≠ 0 → s.get R.CFG_SAF_SESS_MBX = mb →
          Completes (.safetyLogout mb) s fun t => Answered t mb 2 0 [] ∧ t.get R.CFG_SAF_SESS_OPEN = 0 ∧
            AnswerKeeps session mb 0 s t) ∧
        (s.get R.CFG_SAF_SESS_OPEN = 0 → Completes (.safetyLogout mb) s (no 0x0008))) ∧
      (Ready s mb 0x0606 4 → 8 ≤ m → m ≤ 64 → 4 + m ≤ s.get H.MB_LEN mb →
        s.get R.CFG_STATUS_NO_PASSWORD ≠ 0 ∨ s.sessionOk mb = true → Completes (.passwordSet mb) s fun t =>
          Waits s t mb 0x0606 0 0 ∧ t.get H.SS_NEWS mb = s.free 128 ∧ t.mem = s.mem ∧
          t.get H.SS_NEWH mb = Config.pbkdf2 (s.free 128) (s.bytes (pageOf mb + 4) m) % 2 ^ 256)) ∧
    (s.isSX = false → Ready s mb 0x0604 8 → Completes (.safetyLogin mb) s (no 0x0006)) ∧
    (s.get R.CFG_SAF_SESS_OPEN ≠ 0 → s.timeUp (s.get H.SS_T + 600000000000) = true → Completes .sessionTimeout s fun t => t.get R.CFG_SAF_SESS_OPEN = 0 ∧ OnlyRegs session s t) ∧
    (s.timeUp (s.get H.SS_LKT) = true → Completes .lockoutExpiry s fun t => t.get R.CFG_SAF_LOCK = 0 ∧
      OnlyRegs [fkey R.CFG_SAF_LOCK 0 0, fkey H.SS_LKT 0 0] s t) ∧
    (s.waits = w :: rest → w.mb < 32 → s.get H.MB_JRN w.mb = 0 →
      (w.opc = 0x0901 → Completes .safetyChangeComplete s fun t => logged 1 t ∧ t.get H.SAF_NEWP = 1 ∧
        ∀ o ∈ safWords, t.load (0x5F002000 + o) 4 = s.load (0x5F010000 + 0x1000 * w.mb + o) 4) ∧
      (w.opc = 0x0606 → Completes .safetyChangeComplete s fun t => logged 3 t ∧
        t.get H.SS_HASH = s.get H.SS_NEWH w.mb % 2 ^ 256 ∧ t.get R.CFG_STATUS_NO_PASSWORD = 0))

/-! ### Integrity, power and resets -/

/-- R444, R446, R447, R450, R452 to R454, R456 to R460, R471, R472: scrubbers step through their arrays, counting and
writing back a single error; converters and telemetry take their corrections and measurements; a lost clock is shown and
brings Full Stop or a reset; an injection is armed, acts and is disarmed; a lockstep mismatch resets MGMT; the event log
is read. It rests on the model's choices of log entries 204, 208, 209, 211 and 292. -/
def Obligations.IntegritySupervision : Prop :=
  ∀ (mb arr ch src slot : Nat) (ofs gain : Int) (temps rails eyeH eyeV : List Nat) (x : InjSlot) (s : State),
    arr < 10 → ch < 48 → src < 6 → slot < 8 →
    let pos := s.get R.INT_ARR_POS arr
    let top := if arr < 4 then 0x30000 else arrSize arr
    let clean := (arr < 4 → ∀ k < 4, s.errBits arr (0x30000 * k + pos) = 0) ∧ (4 ≤ arr → s.errBits arr pos = 0)
    let runs := s.domDown (arrDomain arr) = false ∧ s.get H.INJ_SCU arr ≤ s.now
    let a := s.injPars mb
    let k := s.par mb 0 4
    let l := s.evlog.reverse.filter fun (e : EvEntry) => decide ((e.seq + 2 ^ 32 - k) % 2 ^ 32 < clampN 1 127 (s.par mb 4 4))
    let log := l.flatMap EvEntry.bytes
    (s.domDown (arrDomain arr) = true → Completes (.scrub arr) s fun t => t.get R.INT_ARR_POS arr = 0 ∧
      OnlyRegs [fkey R.INT_ARR_POS arr 0, fkey H.SCR_T0 arr 0] s t) ∧
    (runs → clean → Completes (.scrub arr) s fun t => t.mem = s.mem ∧ t.arrErrs = s.arrErrs ∧
      (pos + arrWord arr < top → t.get R.INT_ARR_POS arr = pos + arrWord arr ∧
        t.get R.INT_ARR_PASSES arr = s.get R.INT_ARR_PASSES arr) ∧
      (top ≤ pos + arrWord arr → t.get R.INT_ARR_POS arr = 0 ∧
        t.get R.INT_ARR_PASSES arr = (s.get R.INT_ARR_PASSES arr + 1) % 2 ^ 32)) ∧
    (runs → 4 ≤ arr → s.errBits arr pos = 1 → Completes (.scrub arr) s fun t => t.errBits arr pos = 0 ∧
      t.get R.INT_ARR_CE arr = min (s.get R.INT_ARR_CE arr + 1) (2 ^ 32 - 1) ∧
      t.get R.INT_ARR_LAST_CE arr = pos % 2 ^ 32 ∧ t.get R.INT_DET_STICKY 1 = 1) ∧
    (s.domDown 10 = false →
      Completes (.converterCalibration ch ofs gain true) s (fun t => t.get R.TEL_FLAGS_ADC_CAL = 1 ∧
        t.get R.INT_DET_STICKY 0x1D = 1 ∧ t.mem = s.mem) ∧
      (s.get H.INJ_CAL ch = 0 → Completes (.converterCalibration ch ofs gain false) s fun t =>
        t.geti H.CV_OFS ch = max (-64) (min 64 ofs) ∧ t.geti H.CV_GAIN ch = max (-20000) (min 20000 gain) ∧
        (64 ≤ ofs → t.get R.TEL_FLAGS_ADC_CAL = 1) ∧ (-64 < ofs → ofs < 64 → -20000 < gain → gain < 20000 →
          OnlyRegs [fkey H.INJ_CAL ch 0, fkey H.CV_OFS ch 0, fkey H.CV_GAIN ch 0] s t))) ∧
    (s.domDown 2 = false → s.waits = [] → (∀ i < 6, s.get H.INJ_TU i ≤ s.now ∧ s.get H.INJ_RU i ≤ s.now) →
      (∀ i < 10, s.get H.INJ_EU i ≤ s.now) → Completes (.telemetryMeasurement temps rails eyeH eyeV) s fun t =>
        (∀ i < 6, t.get R.TEL_TEMP i = temps.getD i 0 % 2 ^ 16 ∧ t.get R.TEL_RAIL i = rails.getD i 0 % 2 ^ 16) ∧
        (∀ i < 10, t.get R.TEL_EYE_H i = eyeH.getD i 0 % 2 ^ 16 ∧ t.get R.TEL_EYE_V i = eyeV.getD i 0 % 2 ^ 16) ∧
        (∀ i < 4, t.get R.TEL_VFG i = s.get R.FIO_GRP_V i % 2 ^ 16) ∧
        ∀ i < 5, s.get H.TEL_CRIT = 0 → (2000 : Int) ≤ tel16 (temps.getD i 0) → t.get H.TEL_CRIT = 1 ∧
          t.get R.TEL_FLAGS_TEMP_CRIT = 1 ∧ bit (t.get R.SAF_STATUS_FS_CAUSE) 1 = true) ∧
    (bit (s.get H.CLK_LOST) src = false → Completes (.clockLoss src) s fun t => bit (t.get H.CLK_LOST) src = true ∧
      t.get R.INT_DET_STICKY 0x0A = 1 ∧ (src = 0 → t.get R.PWR_CLK_REF = 0) ∧
      (0 < src → bit (t.get R.PWR_CLK_LOCK) (src - 1) = false) ∧
      (src ≤ 2 → s.inPair = false → bit (t.get R.SAF_STATUS_FS_CAUSE) 0 = true)) ∧
    (bit (s.get H.CLK_LOST) src = true → Completes (.clockRestored src) s fun t => bit (t.get H.CLK_LOST) src = false ∧
      (src = 0 → t.get R.PWR_CLK_REF = 1) ∧ (0 < src → bit (t.get R.PWR_CLK_LOCK) (src - 1) = true)) ∧
    (s.injs.find? (fun y => y.slot == slot) = some x → x.count ≠ 0 → x.start ≠ 0 → x.start ≤ s.get R.HIF_CYCLE →
      s.injOpen = true → x.det = 1 → s.waits = [] →
      Completes (.injection slot) s fun t => t.get R.INT_INJ_STAT_STATE slot = 2 ∧
        t.get R.INT_INJ_FIRED slot = (s.get R.INT_INJ_FIRED slot + 1) % 256 ∧
        t.errBits x.inst (x.arg1 / arrWord x.inst * arrWord x.inst) =
          s.errBits x.inst (x.arg1 / arrWord x.inst * arrWord x.inst) + 1) ∧
    (s.domDown 2 = false → Completes .mgmtLockstepMismatch s fun t => bit (t.get R.PWR_RSTCAUSE) 4 = true ∧
      t.get R.INT_DET_STICKY 9 = 1 ∧ t.tags = [] ∧ t.waits = [] ∧ ∀ n < 32, t.get R.MBX_STAT_STATUS n = 0) ∧
    (Ready s mb 0x0B00 36 →
      (s.injRefuse mb a = 0 → Completes (.injArm mb) s fun t => Waits s t mb 0x0B00 a.slot 0 ∧ a ∈ t.injs ∧
        t.get R.INT_INJ_STAT_STATE a.slot = 1 ∧ t.get R.INT_INJ_STAT_DET a.slot = a.det ∧
        t.get R.INT_INJ_FIRED a.slot = 0 ∧ t.mem = s.mem) ∧
      (s.injRefuse mb a ≠ 0 → Completes (.injArm mb) s fun t => Answered t mb 3 (s.injRefuse mb a) [] ∧
        AnswerKeeps [] mb 0 s t)) ∧
    (Ready s mb 0x0B01 4 → (k < 8 ∨ k = 0xFFFF → exec (.injDisarm mb) s = .next
        { s with waits := s.waits ++ [{ mb := mb, opc := 0x0B01, key := k, arg := 0 }] }) ∧
      (8 ≤ k → k ≠ 0xFFFF → Completes (.injDisarm mb) s fun t => Answered t mb 3 0x0003 [] ∧ AnswerKeeps [] mb 0 s t)) ∧
    (Ready s mb 0x0B02 8 → Completes (.evlogRead mb) s fun t => Answered t mb 2 0 log ∧
      AnswerKeeps [] mb log.length s t) ∧
    (Ready s mb 0x0B03 12 → exec (.telConfig mb) s = .next
      { s with waits := s.waits ++ [{ mb := mb, opc := 0x0B03, key := 0, arg := 0 }] })

/-- R464 to R476: Standby is entered once the instances under way are done, and left again; Hibernate is left by its
wake sources; resets say their cause, keep what the flash and the fuses hold, and a boot reaches READY, or recovery
where no firmware slot passes. R295: a slot on trial shows FW_TRIAL until READY, and one that resets before is given up
for the other. It rests on the model's choices of log entries 187, 190, 191 and 202. -/
def Obligations.PowerStatesAndResets : Prop :=
  ∀ (mb cause hsel us : Nat) (s : State),
    let p := s.par mb 0 4
    let no := fun (reason : Nat) (t : State) => Answered t mb 3 reason [] ∧ AnswerKeeps [] mb 0 s t
    let hold := s.get H.PWR_HOLD
    let cold := fun (t : State) => t.get R.HIF_STATUS_READY = 0 ∧ t.get R.PWR_DOM_ON = 1 ∧ t.get R.PWR_DOM_RST = 0xFFE ∧
      t.images = s.images ∧ t.pending = s.pending
    let restarted := fun (t : State) => t.tags = [] ∧ t.waits = [] ∧ ∀ n < 32, t.get R.MBX_STAT_STATUS n = 0
    (s.get H.PWR_STBY = 1 ∨ s.get H.PWR_STBY = 2 → s.insts = [] → Completes .standbyEntry s fun t =>
      t.get R.PWR_STATE_STATE = 2 ∧ t.get R.PWR_STATE_PENDING = 3 ∧ t.get H.PWR_STBY = 0 ∧
      (∀ d, 6 ≤ d → d ≤ 10 → t.domDown d = true) ∧ ∀ w ∈ t.waits, ¬(w.opc = 0x0C00 ∧ w.key = 2)) ∧
    (s.get H.PWR_STBY = 1 → s.insts ≠ [] → Completes .standbyEntry s fun t => t.get H.PWR_STBY = 2 ∧
      OnlyRegs [fkey H.PWR_STBY 0 0] s t) ∧
    (s.get H.PWR_STBY = 3 → Completes .standbyExitComplete s fun t =>
      t.get R.PWR_STATE_STATE = s.get R.PWR_CFG_IDLE_EN % 4 ∧ t.get R.PWR_STATE_PENDING = 3 ∧ t.get H.PWR_STBY = 0 ∧
      (∀ d, 6 ≤ d → d ≤ 10 → t.domDown d = false) ∧ ∀ w ∈ t.waits, ¬(w.opc = 0x0C00 ∧ w.key = 0)) ∧
    (hold = 8 → 1 ≤ cause → cause ≤ 4 → (cause = 2 → s.get R.PWR_WAKE_TMR ≠ 0) → Completes (.wake cause) s fun t =>
      t.get H.PWR_HOLD = 0 ∧ t.get R.PWR_WAKE_CAUSE = cause ∧ t.get R.PWR_WAKE_TMR = 0 ∧ t.mem = s.mem ∧
      t.get R.SEC_CHAL 0 0 = s.free 32) ∧
    Completes .vinLoss s (fun t => cold t ∧ bit (t.get H.PWR_HOLD) 2 = true ∧ t.get R.PWR_RSTCAUSE = 1) ∧
    Completes (.powerOnReset true) s (fun t => cold t ∧ bit (t.get H.PWR_HOLD) 0 = true ∧ t.get R.PWR_RSTCAUSE = 1) ∧
    Completes (.powerOnReset false) s (fun t => bit (t.get H.PWR_HOLD) 0 = false ∧ bit (t.get H.PWR_HOLD) 2 = false ∧
      OnlyRegs [fkey H.PWR_HOLD 0 0, fkey H.FW_TRL 0 0, fkey R.CFG_STATUS_FW_TRIAL 0 0] s t) ∧
    (bit hold 0 = false → bit hold 2 = false → Completes (.rstN true hsel) s fun t => cold t ∧
      bit (t.get H.PWR_HOLD) 1 = true ∧ bit (t.get H.PWR_HOLD) 3 = false ∧ bit (t.get R.PWR_RSTCAUSE) 1 = true) ∧
    Completes (.rstN false hsel) s (fun t => bit (t.get H.PWR_HOLD) 1 = false ∧ t.get R.HIF_STATUS_HSEL = hsel % 4 ∧
      (hold = 2 → s.get R.HIF_STATUS_READY = 0 → s.get H.FW_TRL = 1 → s.slotBoots (s.get H.FW_ACT) = true →
        t.get R.CFG_STATUS_FW_TRIAL = 1 ∧ t.get H.FW_TRL = 2) ∧
      OnlyRegs [fkey H.PWR_HOLD 0 0, fkey R.HIF_STATUS_HSEL 0 0, fkey H.FW_TRL 0 0, fkey R.CFG_STATUS_FW_TRIAL 0 0] s t) ∧
    (hold = 0 → Completes .conjunctionReset s fun t => cold t ∧ bit (t.get R.PWR_RSTCAUSE) 2 = true ∧
      t.get H.RST_CJ = 1 ∧ t.get R.CNJ_CFG_EN = s.get R.CNJ_CFG_EN % 2 ∧
      t.get R.CNJ_PARTNER_CID = s.get R.CNJ_PARTNER_CID % 2 ^ 32) ∧
    (s.domDown 2 = false → s.get H.MC_HALT = 0 → Completes .firmwareWatchdog s fun t => restarted t ∧
      bit (t.get R.PWR_RSTCAUSE) 3 = true ∧ t.get R.PWR_CNT_WDT = min (s.get R.PWR_CNT_WDT + 1) (2 ^ 32 - 1)) ∧
    (s.domDown 1 = false → s.attach ≠ 1 → Completes .hostSideReset s fun t => bit (t.get R.PWR_RSTCAUSE) 6 = true ∧
      t.get R.HIF_INT_STAT = 0 ∧ (∀ v < 64, t.get R.HIF_MSIX_MASK v = 1) ∧ t.mem = s.mem ∧ lists t = lists s) ∧
    (s.bootMay = true → s.slotBoots (s.get H.FW_ACT) = true → s.images = [] → Completes (.boot us) s fun t =>
      t.get R.HIF_STATUS_READY = 1 ∧ t.get R.PWR_BOOT_T = us % 2 ^ 32 ∧
      (s.get H.FW_TRL ≠ 3 → t.get R.PWR_STATE_BOOT = 0) ∧
      (s.get H.FW_TRL = 3 → t.get R.PWR_STATE_BOOT = 1 ∧ t.get R.CFG_STATUS_FW_FALLBACK = 1) ∧
      t.get R.CFG_STATUS_FW_TRIAL = 0 ∧
      t.get R.PWR_DOM_ON = 0xFFF ∧ t.get R.PWR_DOM_RST = 0 ∧
      t.get R.HIF_STATUS_BOOT_CNT = (s.get R.HIF_STATUS_BOOT_CNT + 1) % 256) ∧
    (s.bootMay = true → s.slotBoots (s.get H.FW_ACT) = false → s.slotBoots (1 - s.get H.FW_ACT) = false →
      Completes (.boot us) s fun t => t.get R.PWR_STATE_BOOT = 2 ∧ t.get R.PWR_DOM_RST = 8 ∧
        t.get R.HIF_STATUS_READY = 0 ∧ t.mem = s.mem) ∧
    (Ready s mb 0x0C00 12 → s.get H.PWR_STBY = 0 →
      (p < 2 → Completes (.pwrStateSet mb) s fun t => Answered t mb 2 0 [] ∧
        t.get R.PWR_CFG_IDLE_EN = min 1 (s.par mb 4 4) ∧ t.get R.PWR_STATE_STATE = min 1 (s.par mb 4 4) ∧
        AnswerKeeps [fkey R.PWR_CFG_IDLE_EN 0 0, fkey R.PWR_STATE_STATE 0 0] mb 0 s t) ∧
      (2 ≤ p → s.standbyBar ≠ 0 → Completes (.pwrStateSet mb) s (no s.standbyBar)) ∧
      (p = 2 → s.standbyBar = 0 → Completes (.pwrStateSet mb) s fun t => Waits s t mb 0x0C00 2 0 ∧
        t.get R.PWR_STATE_PENDING = 2 ∧ t.get H.PWR_STBY = 1 ∧ t.mem = s.mem) ∧
      (2 < p → s.standbyBar = 0 → s.flashBusy = false → Completes (.pwrStateSet mb) s fun t => cold t ∧
        bit (t.get H.PWR_HOLD) 3 = true ∧ t.get R.PWR_WAKE_TMR = s.par mb 8 4 ∧ t.get R.SEC_DBG_LEVEL = 0)) ∧
    (Ready s mb 0x0C01 4 →
      (7 < p → Completes (.pwrReset mb) s (no 0x0003)) ∧
      (p = 0 → Completes (.pwrReset mb) s fun t => cold t ∧ bit (t.get R.PWR_RSTCAUSE) 5 = true) ∧
      (p = 1 → Completes (.pwrReset mb) s fun t => restarted t ∧ bit (t.get R.PWR_RSTCAUSE) 5 = true) ∧
      (2 ≤ p → p ≤ 7 → s.scopeBar mb p = 0 → Completes (.pwrReset mb) s fun t => Answered t mb 2 0 [] ∧
        bit (t.get R.PWR_RSTCAUSE) 5 = true) ∧
      (p ≤ 7 → s.scopeBar mb p ≠ 0 → Completes (.pwrReset mb) s (no (s.scopeBar mb p)))) ∧
    (Ready s mb 0x0C02 4 → Completes (.pwrConfig mb) s fun t => Answered t mb 2 0 [] ∧
      t.get R.PWR_CFG_WDT = clampN 10 1000 p ∧ AnswerKeeps [fkey R.PWR_CFG_WDT 0 0] mb 0 s t)

/-! ### Security and debug -/

/-- R12: a read through the debug port at level Observe clears no RC field. It changes nothing but the TAP's
instruction, the level requested and granted, and, where the spec leaves the word open, the counter of free values. It
rests on the model's choices of log entries 11, 218 and 222. -/
def Obligations.DebugReadClearsNoRcField : Prop :=
  ∀ (sp : DbgSpace) (addr : Nat) (s : State), s.tapUp = true → s.inHibernate = false → s.get R.SEC_DBG_LEVEL ≠ 2 →
    s.dbgGrant 1 = 1 → Completes (.dbgAccessRead 1 sp addr) s fun t => t.get R.SEC_DBG_LEVEL = 1 ∧
      (∀ (a : Nat) (f : Fld) (i j : Nat), fkey f i j ∈ accPlaces .RC a → t.get f i j = s.get f i j) ∧
      RegsKept [fkey H.TAP_IR 0 0, fkey R.SEC_DBG_REQ 0 0, fkey R.SEC_DBG_LEVEL 0 0, fkey H.FREE 0 0] s t ∧ t.mem = s.mem ∧
      (sp = .bar0 → s.spDown sp (addr / 4 * 4) = false → t.rdata = toBytes 4 (t.bar0Word (addr / 4 * 4)))

/-- R477 to R480, R486: keys are fused, the module is sealed, tokens are checked against the challenge, which is then
drawn anew, a slot is revoked unless it is the last valid one, and the attestation is signed by the device key while it
stands. What the fuses read back is free. It rests on the model's choices of log entries 181, 213, 214 and 215. -/
def Obligations.SecurityRequests : Prop :=
  ∀ (mb : Nat) (s : State),
    let no := fun (reason : Nat) (t : State) => Answered t mb 3 reason [] ∧ AnswerKeeps [] mb 0 s t
    let st := s.get R.SEC_STATE_STATE
    let p := s.par mb 0 4
    let mask := p &&& 0xE
    let tok := s.bytes (pageOf mb) 96
    let kind := ofBytes (tok.take 2)
    let slot := ofBytes ((tok.drop 28).take 4)
    let sgn := Config.tokenSigned tok (s.get H.KEY_HASH slot)
    let valid := fun (j : Nat) => bit (s.get R.SEC_KEYS_PROG) j = true ∧ bit (s.get R.SEC_KEYS_REVOKED) j = false
    let id := toBytes 8 (s.get R.HIF_SERIAL) ++ toBytes 4 st ++ toBytes 4 (s.get R.HIF_FW_VER) ++
      toBytes 4 (s.get R.CFG_SAF_CRC)
    let signed := id ++ toBytes 64 (Config.deviceSign (s.bytes (pageOf mb) 16 ++ id))
    (Ready s mb 0x0C03 100 → st = 0 → mask ≠ 0 →
      Completes (.secProvision mb) s fun t =>
        if s.free 1 = 0 then Answered t mb 2 0 [] ∧ t.get R.SEC_STATE_STATE = 1 ∧
          t.get R.SEC_KEYS_PROG = (s.get R.SEC_KEYS_PROG ||| mask) % 16 ∧
          ∀ k, 1 ≤ k → k ≤ 3 → bit mask k = true → t.get H.KEY_HASH k = s.par mb (4 + 32 * (k - 1)) 32
        else Answered t mb 3 0x0C08 [] ∧ AnswerKeeps [fkey H.FREE 0 0] mb 0 s t) ∧
    (Ready s mb 0x0C03 100 → st ≠ 0 → Completes (.secProvision mb) s (no 0x0007)) ∧
    (Ready s mb 0x0C04 4 →
      (st = 1 → p = s.get R.HIF_SERIAL % 2 ^ 32 → Completes (.secSeal mb) s fun t => Answered t mb 2 0 [] ∧
        t.get R.SEC_STATE_STATE = 2 ∧ t.get R.SEC_DBG_LEVEL = 0 ∧ t.get R.CFG_SAF_SESS_OPEN = 0 ∧ t.injs = []) ∧
      (st = 1 → p ≠ s.get R.HIF_SERIAL % 2 ^ 32 → Completes (.secSeal mb) s (no 0x0C06)) ∧
      (st ≠ 1 → Completes (.secSeal mb) s (no 0x0007))) ∧
    (Ready s mb 0x0C05 96 →
      (s.tokenBar tok ≠ 0 → Completes (.secToken mb) s fun t => Answered t mb 3 (s.tokenBar tok) [] ∧
        t.get R.SEC_CNT_TOKFAIL = min (s.get R.SEC_CNT_TOKFAIL + 1) (2 ^ 32 - 1) ∧ t.get R.SEC_CHAL 0 0 = s.free 32 ∧
        t.get R.SEC_STATE_STATE = st ∧ t.get R.SEC_STATE_OBS_TOKEN = s.get R.SEC_STATE_OBS_TOKEN) ∧
      ((tok.drop 12).take 16 = s.chal → ofBytes ((tok.drop 4).take 8) = s.get R.HIF_SERIAL → 1 ≤ slot → slot ≤ 3 →
        valid slot → st = 2 →
        (kind = 1 → s.get H.SVC_P = 0 → Completes (.secToken mb) s fun t => t.get R.SEC_CHAL 0 0 = s.free 32 ∧
          if sgn then Answered t mb 2 0 (toBytes 4 st) ∧ t.get R.SEC_STATE_OBS_TOKEN = 1 else Answered t mb 3 0x0C03 []) ∧
        (kind = 2 → Completes (.secToken mb) s fun t => t.get R.SEC_STATE_STATE = st ∧ t.get R.SEC_CHAL 0 0 = s.free 32 ∧
          if sgn then Waits s t mb 0x0C05 0 0 ∧ t.get H.SVC_P = 1 ∧ t.mem = s.mem else Answered t mb 3 0x0C03 []))) ∧
    (Ready s mb 0x0C06 4 → 1 ≤ p → p ≤ 3 → st = 1 ∨ st = 3 →
      ((∃ j, 1 ≤ j ∧ j ≤ 3 ∧ j ≠ p ∧ valid j) → Completes (.secRevoke mb) s fun t => Answered t mb 2 0 [] ∧
        bit (t.get R.SEC_KEYS_REVOKED) p = true ∧ AnswerKeeps [fkey R.SEC_KEYS_REVOKED 0 0] mb 0 s t) ∧
      ((∀ j, 1 ≤ j → j ≤ 3 → j ≠ p → ¬valid j) → Completes (.secRevoke mb) s (no 0x0C05))) ∧
    (Ready s mb 0x0C06 4 → p = 0 ∨ 3 < p → Completes (.secRevoke mb) s (no 0x0003)) ∧
    (Ready s mb 0x0C07 0 →
      (s.isSX = true → st = 3 → Completes (.secPwClear mb) s fun t => Waits s t mb 0x0C07 0 0 ∧
        RegsKept [fkey H.SS_CR mb 0, fkey H.SS_CA mb 0] s t ∧ t.mem = s.mem) ∧
      (s.isSX = true → st ≠ 3 → Completes (.secPwClear mb) s (no 0x0007)) ∧
      (s.isSX = false → Completes (.secPwClear mb) s (no 0x0006))) ∧
    (Ready s mb 0x0C08 16 → (s.get H.DEV_OK ≠ 0 → Completes (.secAttest mb) s fun t => Answered t mb 2 0 signed ∧
        AnswerKeeps [] mb 84 s t) ∧
      (s.get H.DEV_OK = 0 → Completes (.secAttest mb) s (no 0x0C07)))

/-- R479, R481 to R484: what the TAP's instructions shift out and do. A halt of an engine stops it at once; a halt of
MC0/MC1 or SC and a pin instruction bring Full Stop first; below level Full a write, a step, a halt and a pin
instruction are refused and counted. It rests on the model's choices of log entries 218, 219, 220 and 221. -/
def Obligations.TapAndDebugAccess : Prop :=
  ∀ (pins core e addr v k : Nat) (bytes : List Nat) (s : State), s.tapUp = true → e < 16 →
    let live := s.inHibernate = false
    let lvl := s.get R.SEC_DBG_LEVEL
    let tok := (List.range 96).map fun k => bytes.getD k 0 % 256
    let a := addr / 4 * 4
    let ir := fkey H.TAP_IR 0 0
    let refused := fun (ks : List Nat) (t : State) =>
      t.get R.SEC_CNT_DBGREF = min (s.get R.SEC_CNT_DBGREF + 1) (2 ^ 32 - 1) ∧ OnlyRegs (fkey R.SEC_CNT_DBGREF 0 0 :: ks) s t
    let shown := fun (n : Nat) (bs : List Nat) (t : State) => t.rdata = bs ∧ t.get H.TAP_IR = n ∧ t.mem = s.mem
    let stopped := fun (t : State) => bit (t.get R.SAF_STATUS_FS_CAUSE) 5 = true
    let pinned := fun (n m : Nat) (t : State) => t.get H.DBG_INS = m ∧ t.get H.TAP_IR = n ∧ stopped t ∧
      (t.get R.SEC_DBG_EXTEST = 1 ∨ bit (t.get H.DBG_WANT) 18 = true)
    let engHalted := fun t : State => t.get H.ENG_HALT core = 1 ∧ t.get R.SEC_DBG_HALTED = 1
    let coreHalted := fun t : State => stopped t ∧
      (t.get (if core = 16 then H.MC_HALT else H.SC_HALT) = 1 ∨ bit (t.get H.DBG_WANT) core = true)
    Completes .tapBypass s (fun t => shown 1 [0] t ∧ RegsKept [ir] s t) ∧
    Completes .idcode s (fun t => shown 0 (toBytes 4 (s.get R.SEC_IDCODE)) t ∧ RegsKept [ir] s t) ∧
    (live → Completes (.samplePreload pins) s fun t => shown 2 (toBytes 8 (pins % 2 ^ 64)) t ∧
      t.get H.PINS = pins % 2 ^ 64 ∧ RegsKept [ir, fkey H.PINS 0 0] s t) ∧
    (live → lvl = 2 → s.dbgPaired = false → Completes .extest s (pinned 3 1) ∧ Completes .clamp s (pinned 4 2) ∧
      Completes .highz s (pinned 5 3)) ∧
    (live → lvl ≠ 2 ∨ s.dbgPaired = true → Completes .extest s (refused [ir]) ∧ Completes .clamp s (refused [ir]) ∧
      Completes .highz s (refused [ir])) ∧
    (live → Completes .dbgChal s fun t => shown 6 s.chal t ∧ RegsKept [ir] s t) ∧
    (live → Completes (.dbgToken bytes) s fun t => t.get R.SEC_CHAL 0 0 = s.free 32 ∧
      (s.tokenBar tok ≠ 0 → t.get R.SEC_CNT_TOKFAIL = min (s.get R.SEC_CNT_TOKFAIL + 1) (2 ^ 32 - 1) ∧ t.mem = s.mem) ∧
      (s.tokenBar tok = 0 → ofBytes (tok.take 2) = 1 → t.get R.SEC_STATE_OBS_TOKEN = 1) ∧
      (s.tokenBar tok = 0 → ofBytes (tok.take 2) = 2 → t.get H.SVC_P = 1)) ∧
    (lvl = 2 → s.domDown (6 + e / 4) = false → k < 2 →
      Completes (.dbgAccessWrite (if k = 0 then .engX e else .engY e) addr v) s fun t =>
        t.load (engMem e k + a % 0x10000) 4 = v % 2 ^ 32 ∧
        OnlyRegsBytes [ir] (engMem e k + a % 0x10000) (engMem e k + a % 0x10000 + 4) s t) ∧
    (lvl ≠ 2 → Completes (.dbgAccessWrite (.engX e) addr v) s (refused [ir])) ∧
    (s.haltMay core = true → core < 16 → Completes (.coreHalt core) s engHalted ∧
      (lvl = 2 → Completes (.breakpointHit core) s engHalted)) ∧
    (s.haltMay core = true → 16 ≤ core → s.get H.DBG_SP = 0 → Completes (.coreHalt core) s coreHalted ∧
      (lvl = 2 → Completes (.breakpointHit core) s coreHalted)) ∧
    (core < 18 → s.haltMay core = false → Completes (.coreHalt core) s (refused []) ∧
      (lvl = 2 → Completes (.breakpointHit core) s (refused []))) ∧
    (s.get H.ENG_HALT e ≠ 0 →
      (lvl = 2 → exec (.coreStep e) s = .next (s.stepEngine e) ∧ (s.stepEngine e).get H.ENG_HALT e = 1) ∧
      (lvl ≠ 2 → Completes (.coreStep e) s (refused []))) ∧
    Completes .trstN s (fun t => t.get R.SEC_DBG_REQ = 0 ∧ t.get R.SEC_DBG_LEVEL = 0 ∧ t.get H.TAP_IR = 0 ∧
      (lvl ≠ 2 → OnlyRegs [ir, fkey R.SEC_DBG_REQ 0 0, fkey R.SEC_DBG_LEVEL 0 0] s t))

/-- R113 to R116, R132, R139: words written out from the encodings of R113, among them those of the spec's own listings,
are the instructions they stand for; a class that R113 does not give spells none; and what an engine fetches it executes
as the command of that instruction. It rests on the model's choices of log entries 5 and 56. -/
def Obligations.EngineWordsDecodeAndRun : Prop :=
  ∀ e : Nat,
    (engDecode e 0x5C024604 0 = some (.parallelMove e (some ⟨1, 0, false⟩) (some ⟨true, 0, 0, 1⟩)) ∧
      engDecode e 0x5422C000 0 = some (.mac e 0 1 0 none (some ⟨3, 0, false⟩) none) ∧
      engDecode e 0x52634000 0 = some (.mpy e 2 3 0 none (some ⟨5, 0, false⟩) none) ∧
      engDecode e 0x870607A0 0 = some (.mva e 6 0 30 true) ∧
      engDecode e 0x699AAE00 0 = some (.msu e 1 4 6 (some ⟨2, 2, 5, 6⟩) none none) ∧
      engDecode e 0x88007020 0 = some (.sout e 0 0 7 true) ∧
      engDecode e 0x46C80008 0 = some (.sta64 e ⟨true, 4, 2, 8⟩ 1 0 false) ∧
      engDecode e 0x01000000 0 = some (.done e) ∧ engDecode e 0xE0300000 0x12345678 = some (.ldi e 3 0x12345678)) ∧
    (∀ w w2, bits w 28 4 ∈ [0xC, 0xD, 0xF] → engDecode e w w2 = none) ∧
    ∀ (w w2 : Nat) (i : Instr) (s : State), engDecode e w w2 = some i → exec i s = .next (engExec i s)
end

