-- ==== Sys2Proof/Laws/Maps.lean ====
section
/-! SUPPORT. Laws of the two sorted maps: what a read finds after a write, and that every change keeps the canonical
form. -/

namespace Sys2Proof.Machine

theorem regSorted_iff (l : List (Nat × Nat)) : regSorted l = true ↔ l.Pairwise fun p q => p.1 < q.1 := by
  induction l with
  | nil => simp [regSorted]
  | cons p t ih => simp [regSorted, ih, List.pairwise_cons]

theorem regSorted_filter {l : List (Nat × Nat)} (h : regSorted l = true) (p : Nat × Nat → Bool) :
    regSorted (l.filter p) = true :=
  (regSorted_iff _).2 (((regSorted_iff _).1 h).filter p)

theorem mem_regAdd {k v : Nat} {l : List (Nat × Nat)} {q : Nat × Nat} : q ∈ regAdd k v l ↔ q = (k, v) ∨ q ∈ l := by
  induction l with
  | nil => simp [regAdd]
  | cons p t ih =>
    unfold regAdd
    split
    · simp
    · simp only [List.mem_cons, ih]; tauto

/-- An entry put in at its place keeps the order, where its key was not listed. -/
theorem regSorted_regAdd {k v : Nat} {l : List (Nat × Nat)} (h : regSorted l = true) (hk : ∀ q ∈ l, q.1 ≠ k) :
    regSorted (regAdd k v l) = true := by
  rw [regSorted_iff] at *
  induction l with
  | nil => simp [regAdd]
  | cons p t ih =>
    rw [List.pairwise_cons] at h
    unfold regAdd
    split
    · rename_i hlt
      refine List.pairwise_cons.2 ⟨fun q hq => ?_, List.pairwise_cons.2 h⟩
      rcases List.mem_cons.1 hq with rfl | hq
      · exact hlt
      · exact lt_trans hlt (h.1 q hq)
    · rename_i hge
      refine List.pairwise_cons.2 ⟨fun q hq => ?_, ih h.2 fun q hq => hk q (List.mem_cons_of_mem _ hq)⟩
      have hp := hk p (List.mem_cons_self ..)
      rcases mem_regAdd.1 hq with rfl | hq
      · show p.1 < k; omega
      · exact h.1 q hq

theorem regDrop_ne {l : List (Nat × Nat)} {k : Nat} : ∀ q ∈ regDrop l k, q.1 ≠ k := by
  intro q hq
  simp only [regDrop, List.mem_filter, bne_iff_ne] at hq
  exact hq.2

/-- A value set in the register map keeps its order. -/
theorem regSorted_regSet {l : List (Nat × Nat)} (h : regSorted l = true) (k dflt v : Nat) :
    regSorted (regSet l k dflt v) = true := by
  unfold regSet
  split
  · exact regSorted_filter h _
  · exact regSorted_regAdd (regSorted_filter h _) regDrop_ne

theorem regFind_regAdd_self {k v : Nat} {l : List (Nat × Nat)} (hk : ∀ q ∈ l, q.1 ≠ k) :
    regFind (regAdd k v l) k = some v := by
  induction l with
  | nil => simp [regAdd, regFind]
  | cons p t ih =>
    unfold regAdd
    split
    · simp [regFind]
    · simp [regFind, hk p (List.mem_cons_self ..), ih fun q hq => hk q (List.mem_cons_of_mem _ hq)]

theorem regFind_regAdd_ne {k v k' : Nat} (l : List (Nat × Nat)) (hk : k ≠ k') :
    regFind (regAdd k v l) k' = regFind l k' := by
  induction l with
  | nil => simp [regAdd, regFind, hk]
  | cons p t ih =>
    unfold regAdd
    split
    · simp [regFind, hk]
    · simp only [regFind]; split <;> simp_all

theorem regFind_regDrop_self (l : List (Nat × Nat)) (k : Nat) : regFind (regDrop l k) k = none := by
  induction l with
  | nil => rfl
  | cons p t ih =>
    by_cases h : p.1 = k
    · simpa [regDrop, h] using ih
    · simpa [regDrop, h, regFind] using ih

theorem regFind_regDrop_ne (l : List (Nat × Nat)) {k k' : Nat} (hk : k ≠ k') :
    regFind (regDrop l k) k' = regFind l k' := by
  induction l with
  | nil => rfl
  | cons p t ih =>
    by_cases h : p.1 = k
    · have h' : p.1 ≠ k' := fun e => hk (h.symm.trans e)
      simpa [regDrop, h, regFind, h', hk] using ih
    · by_cases h' : p.1 = k' <;> simp_all [regDrop, regFind]

/-- A read of the key that was set finds the value. -/
theorem regGet_regSet_self (l : List (Nat × Nat)) (k d v : Nat) : regGet (regSet l k d v) k d = v := by
  unfold regGet regSet
  split
  · rename_i h; simp [regFind_regDrop_self, h]
  · simp [regFind_regAdd_self (regDrop_ne (l := l) (k := k))]

/-- A read of another key finds what it found before. -/
theorem regGet_regSet_ne (l : List (Nat × Nat)) {k k' : Nat} (d v d' : Nat) (hk : k ≠ k') :
    regGet (regSet l k d v) k' d' = regGet l k' d' := by
  unfold regGet regSet
  split
  · rw [regFind_regDrop_ne l hk]
  · rw [regFind_regAdd_ne _ hk, regFind_regDrop_ne l hk]

/-! ### Memory -/

theorem memWf_iff (l : List Host.Cell) :
    Memory.wf l = true ↔ (l.Pairwise fun p q => p.1 < q.1) ∧ ∀ c ∈ l, c.2 ≠ memEmpty := by
  induction l with
  | nil => simp [Memory.wf]
  | cons p t ih =>
    simp only [Memory.wf, Bool.and_eq_true, List.all_eq_true, decide_eq_true_eq, ih, List.pairwise_cons, List.mem_cons]
    constructor
    · rintro ⟨⟨h1, h2⟩, h3, h4⟩
      exact ⟨⟨h1, h3⟩, fun c hc => hc.elim (fun e => e ▸ h2) (h4 c)⟩
    · rintro ⟨⟨h1, h3⟩, h4⟩
      exact ⟨⟨h1, h4 p (.inl rfl)⟩, h3, fun c hc => h4 c (.inr hc)⟩

theorem memWf_filter {l : List Host.Cell} (h : Memory.wf l = true) (p : Host.Cell → Bool) :
    Memory.wf (l.filter p) = true := by
  rw [memWf_iff] at *
  exact ⟨h.1.filter p, fun c hc => h.2 c (List.mem_filter.1 hc).1⟩

theorem mem_memAdd {a : Nat} {v : Byte} {l : List Host.Cell} {q : Host.Cell} :
    q ∈ memAdd a v l ↔ q = (a, v) ∨ q ∈ l := by
  induction l with
  | nil => simp [memAdd]
  | cons p t ih =>
    unfold memAdd
    split
    · simp
    · simp only [List.mem_cons, ih]; tauto

theorem memWf_memAdd {a : Nat} {v : Byte} {l : List Host.Cell} (h : Memory.wf l = true) (hk : ∀ q ∈ l, q.1 ≠ a)
    (hv : v ≠ memEmpty) : Memory.wf (memAdd a v l) = true := by
  rw [memWf_iff] at *
  refine ⟨?_, fun c hc => ?_⟩
  · obtain ⟨h, -⟩ := h
    induction l with
    | nil => simp [memAdd]
    | cons p t ih =>
      rw [List.pairwise_cons] at h
      unfold memAdd
      split
      · rename_i hlt
        refine List.pairwise_cons.2 ⟨fun q hq => ?_, List.pairwise_cons.2 h⟩
        rcases List.mem_cons.1 hq with rfl | hq
        · exact hlt
        · exact lt_trans hlt (h.1 q hq)
      · rename_i hge
        refine List.pairwise_cons.2 ⟨fun q hq => ?_, ih (fun q hq => hk q (List.mem_cons_of_mem _ hq)) h.2⟩
        have hp := hk p (List.mem_cons_self ..)
        rcases mem_memAdd.1 hq with rfl | hq
        · show p.1 < a; omega
        · exact h.1 q hq
  · rcases mem_memAdd.1 hc with rfl | hc
    · exact hv
    · exact h.2 c hc

theorem memDrop_ne {l : List Host.Cell} {a : Nat} : ∀ q ∈ memDrop l a, q.1 ≠ a := by
  intro q hq
  simp only [memDrop, List.mem_filter, bne_iff_ne] at hq
  exact hq.2

/-- A byte written keeps the canonical form of the memory. -/
theorem memWf_memSet {l : List Host.Cell} (h : Memory.wf l = true) (a : Nat) (v : Byte) :
    Memory.wf (memSet l a v) = true := by
  unfold memSet
  split
  · exact memWf_filter h _
  · rename_i hv; exact memWf_memAdd (memWf_filter h _) memDrop_ne hv

theorem memGet_memAdd_self {a : Nat} {v : Byte} {l : List Host.Cell} (hk : ∀ q ∈ l, q.1 ≠ a) :
    memGet (memAdd a v l) a = v := by
  induction l with
  | nil => simp [memAdd, memGet]
  | cons p t ih =>
    unfold memAdd
    split
    · simp [memGet]
    · simp [memGet, hk p (List.mem_cons_self ..), ih fun q hq => hk q (List.mem_cons_of_mem _ hq)]

theorem memGet_memAdd_ne {a b : Nat} {v : Byte} (l : List Host.Cell) (hk : a ≠ b) :
    memGet (memAdd a v l) b = memGet l b := by
  induction l with
  | nil => simp [memAdd, memGet, hk]
  | cons p t ih =>
    unfold memAdd
    split
    · simp [memGet, hk]
    · simp only [memGet]; split <;> simp_all

theorem memGet_memDrop_self (l : List Host.Cell) (a : Nat) : memGet (memDrop l a) a = memEmpty := by
  induction l with
  | nil => rfl
  | cons p t ih =>
    by_cases h : p.1 = a
    · simpa [memDrop, h] using ih
    · simpa [memDrop, h, memGet] using ih

theorem memGet_memDrop_ne (l : List Host.Cell) {a b : Nat} (hk : a ≠ b) : memGet (memDrop l a) b = memGet l b := by
  induction l with
  | nil => rfl
  | cons p t ih =>
    by_cases h : p.1 = a
    · have h' : p.1 ≠ b := fun e => hk (h.symm.trans e)
      simpa [memDrop, h, memGet, h', hk] using ih
    · by_cases h' : p.1 = b <;> simp_all [memDrop, memGet]

/-- A read of the address written finds the byte. -/
theorem memGet_memSet_self (l : List Host.Cell) (a : Nat) (v : Byte) : memGet (memSet l a v) a = v := by
  unfold memSet
  split
  · rename_i h; rw [memGet_memDrop_self, h]
  · exact memGet_memAdd_self memDrop_ne

/-- A write leaves every other address alone. -/
theorem memGet_memSet_ne (l : List Host.Cell) {a b : Nat} (v : Byte) (hk : a ≠ b) :
    memGet (memSet l a v) b = memGet l b := by
  unfold memSet
  split
  · exact memGet_memDrop_ne l hk
  · rw [memGet_memAdd_ne _ hk, memGet_memDrop_ne l hk]

end Sys2Proof.Machine
end

