-- ==== Sys2Proof/Laws/Keeps.lean ====
section
/-! SUPPORT. What every operation keeps: the queue, and the invariant. -/

namespace Sys2Proof.Machine

/-- `t` follows from `s` with the queue as it was and the invariant kept. -/
structure Keeps (s t : State) : Prop where
  pending : t.pending = s.pending
  inv : s.Inv → t.Inv

/-- What an outcome keeps, where it is a next state. -/
def KeepsOut (s : State) (o : Out) : Prop := ∃ t, o = .next t ∧ Keeps s t

theorem Keeps.refl (s : State) : Keeps s s := ⟨rfl, id⟩

theorem Keeps.trans {s t u : State} (h : Keeps s t) (k : Keeps t u) : Keeps s u :=
  ⟨k.pending.trans h.pending, k.inv ∘ h.inv⟩

theorem keepsOut_next {s t : State} (h : Keeps s t) : KeepsOut s (.next t) := ⟨t, rfl, h⟩

theorem keeps_regs {s t : State} (h : Keeps s t) {l : List (Nat × Nat)}
    (hl : regSorted t.regs = true → regSorted l = true) : Keeps s { t with regs := l } :=
  h.trans ⟨rfl, fun i => ⟨hl i.regs, i.mem, i.evlog, i.trc, i.tags, i.caps⟩⟩

theorem keeps_mem {s t : State} (h : Keeps s t) {l : List Host.Cell}
    (hl : Memory.wf t.mem = true → Memory.wf l = true) : Keeps s { t with mem := l } :=
  h.trans ⟨rfl, fun i => ⟨i.regs, hl i.mem, i.evlog, i.trc, i.tags, i.caps⟩⟩

theorem keeps_evlog {s t : State} (h : Keeps s t) {l : List EvEntry} (hl : l.length ≤ 256) :
    Keeps s { t with evlog := l } :=
  h.trans ⟨rfl, fun i => ⟨i.regs, i.mem, hl, i.trc, i.tags, i.caps⟩⟩

theorem keeps_trc {s t : State} (h : Keeps s t) {l : List Nat}
    (hl : t.trcBuf.length ≤ 32 → l.length ≤ 32) : Keeps s { t with trcBuf := l } :=
  h.trans ⟨rfl, fun i => ⟨i.regs, i.mem, i.evlog, hl i.trc, i.tags, i.caps⟩⟩

theorem keeps_tags {s t : State} (h : Keeps s t) {l : List TagRec}
    (hl : (∀ mb, (t.tags.filter fun x => x.mb == mb).length ≤ 64) →
      ∀ mb, (l.filter fun x => x.mb == mb).length ≤ 64) : Keeps s { t with tags := l } :=
  h.trans ⟨rfl, fun i => ⟨i.regs, i.mem, i.evlog, i.trc, hl i.tags, i.caps⟩⟩

theorem keeps_caps {s t : State} (h : Keeps s t) {l : List CapEntry}
    (hl : (∀ c, (t.caps.filter fun x => x.unit == c).length ≤ 16) →
      ∀ c, (l.filter fun x => x.unit == c).length ≤ 16) : Keeps s { t with caps := l } :=
  h.trans ⟨rfl, fun i => ⟨i.regs, i.mem, i.evlog, i.trc, i.tags, hl i.caps⟩⟩

theorem length_filter_filter_le {α : Type} (l : List α) (p q : α → Bool) :
    ((l.filter p).filter q).length ≤ (l.filter q).length := by
  rw [List.filter_filter, show (fun a => q a && p a) = fun a => p a && q a from funext fun a => Bool.and_comm ..,
    ← List.filter_filter]
  exact List.length_filter_le ..

theorem State.put_keeps {s t : State} (h : Keeps s t) (f : Fld) (v i j : Nat) : Keeps s (t.put f v i j) :=
  keeps_regs h fun hl => regSorted_regSet hl ..

theorem State.resetRange_keeps {s t : State} (h : Keeps s t) (lo hi : Nat) : Keeps s (t.resetRange lo hi) :=
  keeps_regs h fun hl => regSorted_filter hl _

theorem State.setByte_keeps {s t : State} (h : Keeps s t) (a v : Nat) : Keeps s (t.setByte a v) :=
  keeps_mem h fun hl => memWf_memSet hl ..

theorem State.zeroRange_keeps {s t : State} (h : Keeps s t) (lo hi : Nat) : Keeps s (t.zeroRange lo hi) :=
  keeps_mem h fun hl => memWf_filter hl _

theorem State.setBytes_keeps {s : State} (l : List Nat) : ∀ {t : State}, Keeps s t → ∀ a, Keeps s (t.setBytes a l) := by
  induction l with
  | nil => exact fun h _ => h
  | cons b l ih => exact fun h a => ih (State.setByte_keeps h a b) _

theorem State.each_keeps {α : Type} {s : State} {f : State → α → State} (hf : ∀ t x, Keeps s t → Keeps s (f t x))
    (l : List α) : ∀ {t : State}, Keeps s t → Keeps s (t.each l f) := by
  induction l with
  | nil => exact fun h => h
  | cons x l ih => exact fun h => ih (hf _ x h)

theorem State.when_keeps {s t : State} {f : State → State} (h : Keeps s t) (hf : ∀ t, Keeps s t → Keeps s (f t))
    (c : Bool) : Keeps s (t.when c f) := by
  unfold State.when
  split
  · exact hf t h
  · exact h

variable {rdata msix : List Nat} {waits : List Wait} {axEvs : List AxEv} {injs : List InjSlot} {insts : List Inst}
  {descPend : List (Nat × List Nat)} {codePend : List (Nat × List Nat)} {late olds : List EngReg} {slotW : List SlotWord}
  {saved : List Saved} {arrErrs : List ArrErr} {motions : List Motion} {segs : List Seg} {edges : List CapEdge}
  {hist : List Hist} {mpq grants baseW : List (Nat × Nat)} {images : List Image} {snap : Option Image}
  {safOvl : List SafEntry} {outs : List OutCmd} {acyc : List AcycMsg} {tracks : List Track}

/-- A change of other fields keeps both. -/
theorem keeps_mk {s t : State} (h : Keeps s t) :
    Keeps s (State.mk t.regs t.mem t.pending rdata msix t.tags waits axEvs t.evlog injs insts descPend codePend t.trcBuf late olds
    slotW saved arrErrs motions segs edges hist mpq grants baseW t.caps images snap safOvl outs acyc tracks) :=
  h.trans ⟨rfl, fun i => ⟨i.regs, i.mem, i.evlog, i.trc, i.tags, i.caps⟩⟩

/-- The same, with the trace buffer emptied. -/
theorem keeps_noTrc {s t : State} (h : Keeps s t) :
    Keeps s (State.mk t.regs t.mem t.pending rdata msix t.tags waits axEvs t.evlog injs insts descPend codePend [] late olds
    slotW saved arrErrs motions segs edges hist mpq grants baseW t.caps images snap safOvl outs acyc tracks) :=
  h.trans ⟨rfl, fun i => ⟨i.regs, i.mem, i.evlog, Nat.zero_le _, i.tags, i.caps⟩⟩

/-- The same, with the capture FIFOs emptied. -/
theorem keeps_noCaps {s t : State} (h : Keeps s t) :
    Keeps s (State.mk t.regs t.mem t.pending rdata msix t.tags waits axEvs t.evlog injs insts descPend codePend t.trcBuf late olds
    slotW saved arrErrs motions segs edges hist mpq grants baseW [] images snap safOvl outs acyc tracks) :=
  h.trans ⟨rfl, fun i => ⟨i.regs, i.mem, i.evlog, i.trc, i.tags, fun _ => Nat.zero_le _⟩⟩

/-- The same, with the tag histories and the event log emptied. -/
theorem keeps_noTags {s t : State} (h : Keeps s t) :
    Keeps s (State.mk t.regs t.mem t.pending rdata msix [] waits axEvs [] injs insts descPend codePend t.trcBuf late olds
    slotW saved arrErrs motions segs edges hist mpq grants baseW t.caps images snap safOvl outs acyc tracks) :=
  h.trans ⟨rfl, fun i => ⟨i.regs, i.mem, Nat.zero_le _, i.trc, fun _ => Nat.zero_le _, i.caps⟩⟩

theorem keeps_ite {s a b : State} {c : Prop} [Decidable c] (ha : Keeps s a) (hb : Keeps s b) :
    Keeps s (if c then a else b) := by
  split
  · exact ha
  · exact hb

theorem keeps_foldl {α : Type} {s : State} {f : State → α → State} (hf : ∀ t x, Keeps s t → Keeps s (f t x))
    (l : List α) : ∀ {t : State}, Keeps s t → Keeps s (l.foldl f t) := by
  induction l with
  | nil => exact fun h => h
  | cons x l ih => exact fun h => ih (hf _ x h)

theorem keeps_foldl_fst {α β : Type} {s : State} {f : State × β → α → State × β}
    (hf : ∀ r x, Keeps s r.1 → Keeps s (f r x).1) (l : List α) :
    ∀ {r : State × β}, Keeps s r.1 → Keeps s (l.foldl f r).1 := by
  induction l with
  | nil => exact fun h => h
  | cons x l ih => exact fun h => ih (hf _ x h)

theorem keeps_regFold {s t : State} (h : Keeps s t) (d : Nat × Nat → Nat) (l : List (Nat × Nat)) :
    Keeps s { t with regs := l.foldl (fun r p => regSet r p.1 (d p) p.2) t.regs } := by
  refine keeps_regs h fun hl => ?_
  generalize t.regs = r at hl ⊢
  induction l generalizing r with
  | nil => exact hl
  | cons p l ih => exact ih _ (regSorted_regSet hl ..)

theorem keeps_memFold {s t : State} (h : Keeps s t) (l : List Host.Cell) :
    Keeps s { t with mem := l.foldl (fun x c => memSet x c.1 c.2) t.mem } := by
  refine keeps_mem h fun hl => ?_
  generalize t.mem = r at hl ⊢
  induction l generalizing r with
  | nil => exact hl
  | cons p l ih => exact ih _ (memWf_memSet hl ..)

end Sys2Proof.Machine
end

