-- ==== Sys2Proof/Laws/KeepsBase.lean ====
section
/-! SUPPORT. What the operations of the host side, local ports and the scheduler keep: each keeps the queue and the invariant. -/

set_option linter.unusedTactic false
set_option linter.unreachableTactic false
set_option linter.tactic.unusedName false

namespace Sys2Proof.Machine

theorem State.puti_keeps {s t : State} (h : Keeps s t) (f : Fld) (v : Int) (i : optParam Nat 0) (j : optParam Nat 0) :
    Keeps s (State.puti t f v i j) := by
  unfold State.puti
  repeat' first
  | intro _
  | with_reducible assumption
  | fail_if_no_progress extract_lets +onlyGivenNames z
    first
    | (refine (have hz : Keeps s z := ?_; ?_))
      subst z
      rotate_left
      try clear_value z
    | try clear_value z
  | with_reducible
      first
      | apply State.put_keeps | apply keeps_ite | apply keeps_foldl
  | split

theorem State.incSat_keeps {s t : State} (h : Keeps s t) (f : Fld) (i : optParam Nat 0) (j : optParam Nat 0) :
    Keeps s (State.incSat t f i j) := by
  unfold State.incSat
  repeat' first
  | intro _
  | with_reducible assumption
  | fail_if_no_progress extract_lets +onlyGivenNames z
    first
    | (refine (have hz : Keeps s z := ?_; ?_))
      subst z
      rotate_left
      try clear_value z
    | try clear_value z
  | with_reducible
      first
      | apply State.put_keeps | apply keeps_ite | apply keeps_foldl
  | split

theorem State.addSat_keeps {s t : State} (h : Keeps s t) (f : Fld) (n : Nat) (i : optParam Nat 0) (j : optParam Nat 0)
    :
    Keeps s (State.addSat t f n i j) := by
  unfold State.addSat
  repeat' first
  | intro _
  | with_reducible assumption
  | fail_if_no_progress extract_lets +onlyGivenNames z
    first
    | (refine (have hz : Keeps s z := ?_; ?_))
      subst z
      rotate_left
      try clear_value z
    | try clear_value z
  | with_reducible
      first
      | apply State.put_keeps | apply keeps_ite | apply keeps_foldl
  | split

theorem State.incWrap_keeps {s t : State} (h : Keeps s t) (f : Fld) (i : optParam Nat 0) (j : optParam Nat 0) :
    Keeps s (State.incWrap t f i j) := by
  unfold State.incWrap
  repeat' first
  | intro _
  | with_reducible assumption
  | fail_if_no_progress extract_lets +onlyGivenNames z
    first
    | (refine (have hz : Keeps s z := ?_; ?_))
      subst z
      rotate_left
      try clear_value z
    | try clear_value z
  | with_reducible
      first
      | apply State.put_keeps | apply keeps_ite | apply keeps_foldl
  | split

theorem State.orBit_keeps {s t : State} (h : Keeps s t) (f : Fld) (k : Nat) (i : optParam Nat 0) (j : optParam Nat 0)
    :
    Keeps s (State.orBit t f k i j) := by
  unfold State.orBit
  repeat' first
  | intro _
  | with_reducible assumption
  | fail_if_no_progress extract_lets +onlyGivenNames z
    first
    | (refine (have hz : Keeps s z := ?_; ?_))
      subst z
      rotate_left
      try clear_value z
    | try clear_value z
  | with_reducible
      first
      | apply State.put_keeps | apply keeps_ite | apply keeps_foldl
  | split

theorem State.clearBit_keeps {s t : State} (h : Keeps s t) (f : Fld) (k : Nat) (i : optParam Nat 0) (j : optParam Nat
    0) :
    Keeps s (State.clearBit t f k i j) := by
  unfold State.clearBit
  repeat' first
  | intro _
  | with_reducible assumption
  | fail_if_no_progress extract_lets +onlyGivenNames z
    first
    | (refine (have hz : Keeps s z := ?_; ?_))
      subst z
      rotate_left
      try clear_value z
    | try clear_value z
  | with_reducible
      first
      | apply State.put_keeps | apply keeps_ite | apply keeps_foldl
  | split

theorem State.resetFld_keeps {s t : State} (h : Keeps s t) (f : Fld) (i : optParam Nat 0) (j : optParam Nat 0) :
    Keeps s (State.resetFld t f i j) := by
  unfold State.resetFld
  repeat' first
  | intro _
  | with_reducible assumption
  | fail_if_no_progress extract_lets +onlyGivenNames z
    first
    | (refine (have hz : Keeps s z := ?_; ?_))
      subst z
      rotate_left
      try clear_value z
    | try clear_value z
  | with_reducible
      first
      | apply State.put_keeps | apply keeps_ite | apply keeps_foldl
  | split

theorem State.store_keeps {s t : State} (h : Keeps s t) (a : Nat) (n : Nat) (v : Nat) :
    Keeps s (State.store t a n v) := by
  unfold State.store
  repeat' first
  | intro _
  | with_reducible assumption
  | fail_if_no_progress extract_lets +onlyGivenNames z
    first
    | (refine (have hz : Keeps s z := ?_; ?_))
      subst z
      rotate_left
      try clear_value z
    | try clear_value z
  | with_reducible
      first
      | apply State.setBytes_keeps | apply keeps_ite | apply keeps_foldl
  | split

theorem State.clockTo_keeps {s t : State} (h : Keeps s t) (y1 : Nat) (frac : Nat) :
    Keeps s (State.clockTo t y1 frac) := by
  unfold State.clockTo
  repeat' first
  | intro _
  | with_reducible assumption
  | fail_if_no_progress extract_lets +onlyGivenNames z
    first
    | (refine (have hz : Keeps s z := ?_; ?_))
      subst z
      rotate_left
      try clear_value z
    | try clear_value z
  | with_reducible
      first
      | apply State.put_keeps | apply keeps_ite | apply keeps_foldl
  | split

theorem State.useFree_keeps {s t : State} (h : Keeps s t) :
    Keeps s (State.useFree t) := by
  unfold State.useFree
  repeat' first
  | intro _
  | with_reducible assumption
  | fail_if_no_progress extract_lets +onlyGivenNames z
    first
    | (refine (have hz : Keeps s z := ?_; ?_))
      subst z
      rotate_left
      try clear_value z
    | try clear_value z
  | with_reducible
      first
      | apply State.incWrap_keeps | apply keeps_ite | apply keeps_foldl
  | split

theorem State.sendMsix_keeps {s t : State} (h : Keeps s t) (v : Nat) :
    Keeps s (State.sendMsix t v) := by
  unfold State.sendMsix
  repeat' first
  | intro _
  | with_reducible assumption
  | fail_if_no_progress extract_lets +onlyGivenNames z
    first
    | (refine (have hz : Keeps s z := ?_; ?_))
      subst z
      rotate_left
      try clear_value z
    | try clear_value z
  | with_reducible
      first
      | apply State.orBit_keeps | apply keeps_ite | apply keeps_foldl
  | split
  | with_reducible apply keeps_mk

theorem State.cause_keeps {s t : State} (h : Keeps s t) (k : Nat) :
    Keeps s (State.cause t k) := by
  unfold State.cause
  repeat' first
  | intro _
  | with_reducible assumption
  | fail_if_no_progress extract_lets +onlyGivenNames z
    first
    | (refine (have hz : Keeps s z := ?_; ?_))
      subst z
      rotate_left
      try clear_value z
    | try clear_value z
  | with_reducible
      first
      | apply State.sendMsix_keeps | apply State.orBit_keeps | apply State.when_keeps | apply keeps_ite
      | apply keeps_foldl
  | split

theorem State.mbxCause_keeps {s t : State} (h : Keeps s t) (n : Nat) :
    Keeps s (State.mbxCause t n) := by
  unfold State.mbxCause
  repeat' first
  | intro _
  | with_reducible assumption
  | fail_if_no_progress extract_lets +onlyGivenNames z
    first
    | (refine (have hz : Keeps s z := ?_; ?_))
      subst z
      rotate_left
      try clear_value z
    | try clear_value z
  | with_reducible
      first
      | apply State.sendMsix_keeps | apply State.orBit_keeps | apply State.when_keeps | apply keeps_ite
      | apply keeps_foldl
  | split

theorem State.axEvt_keeps {s t : State} (h : Keeps s t) (a : Nat) :
    Keeps s (State.axEvt t a) := by
  unfold State.axEvt
  repeat' first
  | intro _
  | with_reducible assumption
  | fail_if_no_progress extract_lets +onlyGivenNames z
    first
    | (refine (have hz : Keeps s z := ?_; ?_))
      subst z
      rotate_left
      try clear_value z
    | try clear_value z
  | with_reducible
      first
      | apply State.cause_keeps | apply State.orBit_keeps | apply State.when_keeps | apply keeps_ite
      | apply keeps_foldl
  | split

theorem State.errLog_keeps {s t : State} (h : Keeps s t) (ifc : Sys2Proof.Ifc) (wr : Bool) (cause : Nat) (dom : Nat)
    (mb : Nat) (addr : Nat) :
    Keeps s (State.errLog t ifc wr cause dom mb addr) := by
  unfold State.errLog
  repeat' first
  | intro _
  | with_reducible assumption
  | fail_if_no_progress extract_lets +onlyGivenNames z
    first
    | (refine (have hz : Keeps s z := ?_; ?_))
      subst z
      rotate_left
      try clear_value z
    | try clear_value z
  | with_reducible
      first
      | apply State.incSat_keeps | apply State.cause_keeps | apply State.incWrap_keeps | apply State.when_keeps
      | apply State.put_keeps | apply keeps_ite | apply keeps_foldl
  | split

theorem State.hostWord_keeps {s t : State} (h : Keeps s t) (a : Nat) (f : State → State) (hf : ∀ t0, Keeps s t0 →
    Keeps s (f t0)) :
    Keeps s (State.hostWord t a f) := by
  unfold State.hostWord
  repeat' first
  | intro _
  | with_reducible assumption
  | fail_if_no_progress extract_lets +onlyGivenNames z
    first
    | (refine (have hz : Keeps s z := ?_; ?_))
      subst z
      rotate_left
      try clear_value z
    | try clear_value z
  | with_reducible
      first
      | apply State.errLog_keeps | apply hf | apply keeps_ite | apply keeps_foldl
  | split

theorem State.evAdd_keeps {s t : State} (h : Keeps s t) (kind code inst axis cls : Nat) (inj : Bool) (info : Nat) :
    Keeps s (State.evAdd t kind code inst axis cls inj info) :=
  State.cause_keeps (keeps_evlog (State.put_keeps h ..) (by simp)) 13

theorem State.sumUp_keeps {s t : State} (h : Keeps s t) :
    Keeps s (State.sumUp t) := by
  unfold State.sumUp
  repeat' first
  | intro _
  | with_reducible assumption
  | fail_if_no_progress extract_lets +onlyGivenNames z
    first
    | (refine (have hz : Keeps s z := ?_; ?_))
      subst z
      rotate_left
      try clear_value z
    | try clear_value z
  | with_reducible
      first
      | apply State.cause_keeps | apply State.when_keeps | apply State.put_keeps | apply keeps_ite | apply keeps_foldl
  | split

theorem State.reportIn_keeps {s t : State} (h : Keeps s t) (dom : Nat) (code : Nat) (inst : Nat) (axis : Nat) (info :
    Nat) :
    Keeps s (State.reportIn t dom code inst axis info) := by
  unfold State.reportIn
  repeat' first
  | intro _
  | with_reducible assumption
  | fail_if_no_progress extract_lets +onlyGivenNames z
    first
    | (refine (have hz : Keeps s z := ?_; ?_))
      subst z
      rotate_left
      try clear_value z
    | try clear_value z
  | with_reducible
      first
      | apply State.evAdd_keeps | apply State.when_keeps | apply State.orBit_keeps | apply State.sumUp_keeps
      | apply State.incSat_keeps | apply State.put_keeps | apply keeps_ite | apply keeps_foldl
  | split

theorem State.report_keeps {s t : State} (h : Keeps s t) (code : Nat) (inst : Nat) (axis : Nat) (info : Nat) :
    Keeps s (State.report t code inst axis info) := by
  unfold State.report
  repeat' first
  | intro _
  | with_reducible assumption
  | fail_if_no_progress extract_lets +onlyGivenNames z
    first
    | (refine (have hz : Keeps s z := ?_; ?_))
      subst z
      rotate_left
      try clear_value z
    | try clear_value z
  | with_reducible
      first
      | apply State.reportIn_keeps | apply keeps_ite | apply keeps_foldl
  | split

theorem State.dirty_keeps {s t : State} (h : Keeps s t) :
    Keeps s (State.dirty t) := by
  unfold State.dirty
  repeat' first
  | intro _
  | with_reducible assumption
  | fail_if_no_progress extract_lets +onlyGivenNames z
    first
    | (refine (have hz : Keeps s z := ?_; ?_))
      subst z
      rotate_left
      try clear_value z
    | try clear_value z
  | with_reducible
      first
      | apply State.put_keeps | apply keeps_ite | apply keeps_foldl
  | split

theorem State.tagAdd_keeps {s t : State} (h : Keeps s t) (r : TagRec) : Keeps s (State.tagAdd t r) := by
  unfold State.tagAdd
  refine keeps_tags h fun hl mb => ?_
  rw [List.filter_append, List.length_append]
  by_cases hm : r.mb = mb
  · have h2 : (List.filter (fun x => x.mb == mb) (List.filter (fun x => x.mb != r.mb) t.tags)) = [] := by
      simp [List.filter_eq_nil_iff, hm]
    rw [h2]
    exact (List.length_filter_le ..).trans (by simp)
  · have h1 : (List.filter (fun x => x.mb == mb)
        (List.take 64 (r :: List.filter (fun x => x.mb == r.mb) t.tags))) = [] := by
      rw [List.filter_eq_nil_iff]
      intro a ha
      have := List.mem_of_mem_take ha
      simp only [List.mem_cons, List.mem_filter, beq_iff_eq] at this ⊢
      rcases this with rfl | ⟨_, k⟩
      · exact hm
      · exact fun e => hm (k.symm.trans e)
    rw [h1]
    simpa using (length_filter_filter_le ..).trans (hl mb)

theorem State.copyRange_keeps {s t : State} (h : Keeps s t) (src : Nat) (dst : Nat) (n : Nat) :
    Keeps s (State.copyRange t src dst n) := by
  unfold State.copyRange
  repeat' first
  | intro _
  | with_reducible assumption
  | fail_if_no_progress extract_lets +onlyGivenNames z
    first
    | (refine (have hz : Keeps s z := ?_; ?_))
      subst z
      rotate_left
      try clear_value z
    | try clear_value z
  | with_reducible
      first
      | apply State.zeroRange_keeps | apply State.setByte_keeps | apply keeps_ite | apply keeps_foldl
  | split

theorem State.jrnAway_keeps {s t : State} (h : Keeps s t) (mb : Nat) :
    Keeps s (State.jrnAway t mb) := by
  unfold State.jrnAway
  repeat' first
  | intro _
  | with_reducible assumption
  | fail_if_no_progress extract_lets +onlyGivenNames z
    first
    | (refine (have hz : Keeps s z := ?_; ?_))
      subst z
      rotate_left
      try clear_value z
    | try clear_value z
  | with_reducible
      first
      | apply State.copyRange_keeps | apply State.put_keeps | apply keeps_ite | apply keeps_foldl
  | split

theorem State.jrnBack_keeps {s t : State} (h : Keeps s t) (mb : Nat) :
    Keeps s (State.jrnBack t mb) := by
  unfold State.jrnBack
  repeat' first
  | intro _
  | with_reducible assumption
  | fail_if_no_progress extract_lets +onlyGivenNames z
    first
    | (refine (have hz : Keeps s z := ?_; ?_))
      subst z
      rotate_left
      try clear_value z
    | try clear_value z
  | with_reducible
      first
      | apply State.copyRange_keeps | apply State.put_keeps | apply keeps_ite | apply keeps_foldl
  | split

theorem State.completeJournal_keeps {s t : State} (h : Keeps s t) (mb : Nat) (r : TagRec) :
    Keeps s (State.completeJournal t mb r) := by
  unfold State.completeJournal
  repeat' first
  | intro _
  | with_reducible assumption
  | fail_if_no_progress extract_lets +onlyGivenNames z
    first
    | (refine (have hz : Keeps s z := ?_; ?_))
      subst z
      rotate_left
      try clear_value z
    | try clear_value z
  | with_reducible
      first
      | apply State.tagAdd_keeps | apply State.put_keeps | apply State.jrnBack_keeps | apply keeps_ite
      | apply keeps_foldl
  | split
  | with_reducible apply keeps_mk

theorem State.complete_keeps {s t : State} (h : Keeps s t) (mb : Nat) (status : Nat) (reason : Nat) (handle : Nat)
    (res : List Nat) :
    Keeps s (State.complete t mb status reason handle res) := by
  unfold State.complete
  repeat' first
  | intro _
  | with_reducible assumption
  | fail_if_no_progress extract_lets +onlyGivenNames z
    first
    | (refine (have hz : Keeps s z := ?_; ?_))
      subst z
      rotate_left
      try clear_value z
    | try clear_value z
  | with_reducible
      first
      | apply State.tagAdd_keeps | apply State.mbxCause_keeps | apply State.put_keeps | apply State.setBytes_keeps
      | apply State.completeJournal_keeps | apply keeps_ite | apply keeps_foldl
  | split
  | with_reducible apply keeps_mk

theorem State.done_keeps {s t : State} (h : Keeps s t) (mb : Nat) (res : optParam (List Nat) []) :
    Keeps s (State.done t mb res) := by
  unfold State.done
  repeat' first
  | intro _
  | with_reducible assumption
  | fail_if_no_progress extract_lets +onlyGivenNames z
    first
    | (refine (have hz : Keeps s z := ?_; ?_))
      subst z
      rotate_left
      try clear_value z
    | try clear_value z
  | with_reducible
      first
      | apply State.complete_keeps | apply keeps_ite | apply keeps_foldl
  | split

theorem State.fail_keeps {s t : State} (h : Keeps s t) (mb : Nat) (reason : Nat) (res : optParam (List Nat) []) :
    Keeps s (State.fail t mb reason res) := by
  unfold State.fail
  repeat' first
  | intro _
  | with_reducible assumption
  | fail_if_no_progress extract_lets +onlyGivenNames z
    first
    | (refine (have hz : Keeps s z := ?_; ?_))
      subst z
      rotate_left
      try clear_value z
    | try clear_value z
  | with_reducible
      first
      | apply State.complete_keeps | apply keeps_ite | apply keeps_foldl
  | split

theorem State.wait_keeps {s t : State} (h : Keeps s t) (mb : Nat) (opc : Nat) (key : Nat) (arg : optParam Nat 0) :
    Keeps s (State.wait t mb opc key arg) := by
  unfold State.wait
  repeat' first
  | intro _
  | with_reducible assumption
  | fail_if_no_progress extract_lets +onlyGivenNames z
    first
    | (refine (have hz : Keeps s z := ?_; ?_))
      subst z
      rotate_left
      try clear_value z
    | try clear_value z
  | with_reducible
      first
      | apply keeps_ite | apply keeps_foldl
  | split
  | with_reducible apply keeps_mk

theorem State.request_keeps {s t : State} (h : Keeps s t) (mb : Nat) (opc : Nat) (minLen : Nat) (f : State → State)
    (hf : ∀ t0, Keeps s t0 → Keeps s (f t0)) :
    Keeps s (State.request t mb opc minLen f) := by
  unfold State.request
  repeat' first
  | intro _
  | with_reducible assumption
  | fail_if_no_progress extract_lets +onlyGivenNames z
    first
    | (refine (have hz : Keeps s z := ?_; ?_))
      subst z
      rotate_left
      try clear_value z
    | try clear_value z
  | with_reducible
      first
      | apply State.fail_keeps | apply hf | apply keeps_ite | apply keeps_foldl
  | split

theorem State.doneAll_keeps {s t : State} (h : Keeps s t) (opc : Nat) (key : Nat) (res : optParam (List Nat) []) :
    Keeps s (State.doneAll t opc key res) := by
  unfold State.doneAll
  repeat' first
  | intro _
  | with_reducible assumption
  | fail_if_no_progress extract_lets +onlyGivenNames z
    first
    | (refine (have hz : Keeps s z := ?_; ?_))
      subst z
      rotate_left
      try clear_value z
    | try clear_value z
  | with_reducible
      first
      | apply State.done_keeps | apply State.each_keeps | apply keeps_ite | apply keeps_foldl
  | split

theorem State.failAll_keeps {s t : State} (h : Keeps s t) (opc : Nat) (key : Nat) (reason : Nat) (res : optParam (List
    Nat) []) :
    Keeps s (State.failAll t opc key reason res) := by
  unfold State.failAll
  repeat' first
  | intro _
  | with_reducible assumption
  | fail_if_no_progress extract_lets +onlyGivenNames z
    first
    | (refine (have hz : Keeps s z := ?_; ?_))
      subst z
      rotate_left
      try clear_value z
    | try clear_value z
  | with_reducible
      first
      | apply State.fail_keeps | apply State.each_keeps | apply keeps_ite | apply keeps_foldl
  | split

theorem State.lopOpen_keeps {s t : State} (h : Keeps s t) (k : Nat) (h1 : Nat) (opc : Nat) (idx : Nat) :
    Keeps s (State.lopOpen t k h1 opc idx) := by
  unfold State.lopOpen
  repeat' first
  | intro _
  | with_reducible assumption
  | fail_if_no_progress extract_lets +onlyGivenNames z
    first
    | (refine (have hz : Keeps s z := ?_; ?_))
      subst z
      rotate_left
      try clear_value z
    | try clear_value z
  | with_reducible
      first
      | apply State.cause_keeps | apply State.put_keeps | apply keeps_ite | apply keeps_foldl
  | split

theorem State.lopStart_keeps {s t : State} (h : Keeps s t) (mb : Nat) (opc : Nat) (idx : Nat) (f : State → Nat →
    State) (res : optParam (List Nat) []) (hf : ∀ t0 x1, Keeps s t0 → Keeps s (f t0 x1)) :
    Keeps s (State.lopStart t mb opc idx f res) := by
  unfold State.lopStart
  repeat' first
  | intro _
  | with_reducible assumption
  | fail_if_no_progress extract_lets +onlyGivenNames z
    first
    | (refine (have hz : Keeps s z := ?_; ?_))
      subst z
      rotate_left
      try clear_value z
    | try clear_value z
  | with_reducible
      first
      | apply State.lopOpen_keeps | apply State.complete_keeps | apply State.fail_keeps | apply hf | apply keeps_ite
      | apply keeps_foldl
  | split

theorem State.lopEnd_keeps {s t : State} (h : Keeps s t) (k : Nat) (status : Nat) (reason : Nat) :
    Keeps s (State.lopEnd t k status reason) := by
  unfold State.lopEnd
  repeat' first
  | intro _
  | with_reducible assumption
  | fail_if_no_progress extract_lets +onlyGivenNames z
    first
    | (refine (have hz : Keeps s z := ?_; ?_))
      subst z
      rotate_left
      try clear_value z
    | try clear_value z
  | with_reducible
      first
      | apply State.failAll_keeps | apply State.doneAll_keeps | apply State.cause_keeps | apply State.when_keeps
      | apply State.put_keeps | apply keeps_ite | apply keeps_foldl
  | split

theorem State.lopFinish_keeps {s t : State} (h : Keeps s t) (opc : Nat) (idx : Nat) (status : Nat) (reason : Nat) :
    Keeps s (State.lopFinish t opc idx status reason) := by
  unfold State.lopFinish
  repeat' first
  | intro _
  | with_reducible assumption
  | fail_if_no_progress extract_lets +onlyGivenNames z
    first
    | (refine (have hz : Keeps s z := ?_; ?_))
      subst z
      rotate_left
      try clear_value z
    | try clear_value z
  | with_reducible
      first
      | apply State.lopEnd_keeps | apply keeps_ite | apply keeps_foldl
  | split

theorem State.lopSuspended_keeps {s t : State} (h : Keeps s t) (k : Nat) :
    Keeps s (State.lopSuspended t k) := by
  unfold State.lopSuspended
  repeat' first
  | intro _
  | with_reducible assumption
  | fail_if_no_progress extract_lets +onlyGivenNames z
    first
    | (refine (have hz : Keeps s z := ?_; ?_))
      subst z
      rotate_left
      try clear_value z
    | try clear_value z
  | with_reducible
      first
      | apply State.put_keeps | apply State.cause_keeps | apply State.doneAll_keeps | apply keeps_ite
      | apply keeps_foldl
  | split

theorem State.lopProgress_keeps {s t : State} (h : Keeps s t) (k : Nat) (n : Nat) (d : Nat) :
    Keeps s (State.lopProgress t k n d) := by
  unfold State.lopProgress
  repeat' first
  | intro _
  | with_reducible assumption
  | fail_if_no_progress extract_lets +onlyGivenNames z
    first
    | (refine (have hz : Keeps s z := ?_; ?_))
      subst z
      rotate_left
      try clear_value z
    | try clear_value z
  | with_reducible
      first
      | apply State.put_keeps | apply keeps_ite | apply keeps_foldl
  | split

theorem State.write_keeps {s t : State} (h : Keeps s t) (f : Fld) (v : Nat) (i : optParam Nat 0) (j : optParam Nat 0)
    :
    Keeps s (State.write t f v i j) := by
  unfold State.write
  repeat' first
  | intro _
  | with_reducible assumption
  | fail_if_no_progress extract_lets +onlyGivenNames z
    first
    | (refine (have hz : Keeps s z := ?_; ?_))
      subst z
      rotate_left
      try clear_value z
    | try clear_value z
  | with_reducible
      first
      | apply State.put_keeps | apply keeps_ite | apply keeps_foldl
  | split

theorem State.putPart_keeps {s t : State} (h : Keeps s t) (f : Fld) (w : Nat) (k : Nat) (v : Nat) :
    Keeps s (State.putPart t f w k v) := by
  unfold State.putPart
  repeat' first
  | intro _
  | with_reducible assumption
  | fail_if_no_progress extract_lets +onlyGivenNames z
    first
    | (refine (have hz : Keeps s z := ?_; ?_))
      subst z
      rotate_left
      try clear_value z
    | try clear_value z
  | with_reducible
      first
      | apply State.put_keeps | apply keeps_ite | apply keeps_foldl
  | split

theorem State.putHigh_keeps {s t : State} (h : Keeps s t) (f : Fld) (w : Nat) (v : Nat) :
    Keeps s (State.putHigh t f w v) := by
  unfold State.putHigh
  repeat' first
  | intro _
  | with_reducible assumption
  | fail_if_no_progress extract_lets +onlyGivenNames z
    first
    | (refine (have hz : Keeps s z := ?_; ?_))
      subst z
      rotate_left
      try clear_value z
    | try clear_value z
  | with_reducible
      first
      | apply State.put_keeps | apply keeps_ite | apply keeps_foldl
  | split

theorem State.putWord1_keeps {s t : State} (h : Keeps s t) (f : Fld) (w : Nat) (v : Nat) :
    Keeps s (State.putWord1 t f w v) := by
  unfold State.putWord1
  repeat' first
  | intro _
  | with_reducible assumption
  | fail_if_no_progress extract_lets +onlyGivenNames z
    first
    | (refine (have hz : Keeps s z := ?_; ?_))
      subst z
      rotate_left
      try clear_value z
    | try clear_value z
  | with_reducible
      first
      | apply State.putPart_keeps | apply State.putHigh_keeps | apply keeps_ite | apply keeps_foldl
  | split

theorem State.putWord_keeps {s t : State} (h : Keeps s t) (fs : List Fld) (w : Nat) (v : Nat) :
    Keeps s (State.putWord t fs w v) := by
  unfold State.putWord
  repeat' first
  | intro _
  | with_reducible assumption
  | fail_if_no_progress extract_lets +onlyGivenNames z
    first
    | (refine (have hz : Keeps s z := ?_; ?_))
      subst z
      rotate_left
      try clear_value z
    | try clear_value z
  | with_reducible
      first
      | apply State.putWord1_keeps | apply State.each_keeps | apply keeps_ite | apply keeps_foldl
  | split

theorem State.clampFld_keeps {s t : State} (h : Keeps s t) (f : Fld) (i : Nat) :
    Keeps s (State.clampFld t f i) := by
  unfold State.clampFld
  repeat' first
  | intro _
  | with_reducible assumption
  | fail_if_no_progress extract_lets +onlyGivenNames z
    first
    | (refine (have hz : Keeps s z := ?_; ?_))
      subst z
      rotate_left
      try clear_value z
    | try clear_value z
  | with_reducible
      first
      | apply State.put_keeps | apply State.each_keeps | apply keeps_ite | apply keeps_foldl
  | split

theorem State.clampAll_keeps {s t : State} (h : Keeps s t) (fs : List Fld) (i : Nat) :
    Keeps s (State.clampAll t fs i) := by
  unfold State.clampAll
  repeat' first
  | intro _
  | with_reducible assumption
  | fail_if_no_progress extract_lets +onlyGivenNames z
    first
    | (refine (have hz : Keeps s z := ?_; ?_))
      subst z
      rotate_left
      try clear_value z
    | try clear_value z
  | with_reducible
      first
      | apply State.clampFld_keeps | apply State.each_keeps | apply keeps_ite | apply keeps_foldl
  | split

theorem State.putWords_keeps {s : State} (fs : List Fld) (l : List Nat) : ∀ {t : State}, Keeps s t → ∀ w,
    Keeps s (State.putWords t fs w l) := by
  induction l with
  | nil => exact fun h _ => h
  | cons v l ih => exact fun h w => ih (State.putWord_keeps h fs w v) _

theorem State.recReset_keeps {s t : State} (h : Keeps s t) (a : Nat) :
    Keeps s (State.recReset t a) := by
  unfold State.recReset
  repeat' first
  | intro _
  | with_reducible assumption
  | fail_if_no_progress extract_lets +onlyGivenNames z
    first
    | (refine (have hz : Keeps s z := ?_; ?_))
      subst z
      rotate_left
      try clear_value z
    | try clear_value z
  | with_reducible
      first
      | apply State.resetRange_keeps | apply keeps_ite | apply keeps_foldl
  | split

theorem State.post_keeps {s t : State} (h : Keeps s t) (a : Nat) (k : AxKind) :
    Keeps s (State.post t a k) := by
  unfold State.post
  repeat' first
  | intro _
  | with_reducible assumption
  | fail_if_no_progress extract_lets +onlyGivenNames z
    first
    | (refine (have hz : Keeps s z := ?_; ?_))
      subst z
      rotate_left
      try clear_value z
    | try clear_value z
  | with_reducible
      first
      | apply keeps_ite | apply keeps_foldl
  | split
  | with_reducible apply keeps_mk

theorem State.injFired_keeps {s t : State} (h : Keeps s t) (det : Nat) (inst : Nat) :
    Keeps s (State.injFired t det inst) := by
  unfold State.injFired
  repeat' first
  | intro _
  | with_reducible assumption
  | fail_if_no_progress extract_lets +onlyGivenNames z
    first
    | (refine (have hz : Keeps s z := ?_; ?_))
      subst z
      rotate_left
      try clear_value z
    | try clear_value z
  | with_reducible
      first
      | apply State.put_keeps | apply State.each_keeps | apply keeps_ite | apply keeps_foldl
  | split

theorem State.sweepRec_keeps {s t : State} (h : Keeps s t) (c : Nat) (ws : List Nat) :
    Keeps s (State.sweepRec t c ws) := by
  unfold State.sweepRec
  repeat' first
  | intro _
  | with_reducible assumption
  | fail_if_no_progress extract_lets +onlyGivenNames z
    first
    | (refine (have hz : Keeps s z := ?_; ?_))
      subst z
      rotate_left
      try clear_value z
    | try clear_value z
  | with_reducible
      first
      | apply State.setBytes_keeps | apply State.store_keeps | apply State.put_keeps | apply keeps_ite
      | apply keeps_foldl
  | split

theorem State.sweepMissed_keeps {s t : State} (h : Keeps s t) (a : Nat) :
    Keeps s (State.sweepMissed t a) := by
  unfold State.sweepMissed
  repeat' first
  | intro _
  | with_reducible assumption
  | fail_if_no_progress extract_lets +onlyGivenNames z
    first
    | (refine (have hz : Keeps s z := ?_; ?_))
      subst z
      rotate_left
      try clear_value z
    | try clear_value z
  | with_reducible
      first
      | apply State.sweepRec_keeps | apply State.put_keeps | apply State.when_keeps | apply State.each_keeps
      | apply keeps_ite | apply keeps_foldl
  | split

theorem State.landPt_keeps {s t : State} (h : Keeps s t) (p : Nat) (ws : List Nat) (y3 : Nat) (tb : Nat) :
    Keeps s (State.landPt t p ws y3 tb) := by
  unfold State.landPt
  repeat' first
  | intro _
  | with_reducible assumption
  | fail_if_no_progress extract_lets +onlyGivenNames z
    first
    | (refine (have hz : Keeps s z := ?_; ?_))
      subst z
      rotate_left
      try clear_value z
    | try clear_value z
  | with_reducible
      first
      | apply State.incSat_keeps | apply State.when_keeps | apply State.puti_keeps | apply State.put_keeps
      | apply State.each_keeps | apply keeps_ite | apply keeps_foldl
  | split

theorem State.ofsStart_keeps {s t : State} (h : Keeps s t) (p : Nat) :
    Keeps s (State.ofsStart t p) := by
  unfold State.ofsStart
  repeat' first
  | intro _
  | with_reducible assumption
  | fail_if_no_progress extract_lets +onlyGivenNames z
    first
    | (refine (have hz : Keeps s z := ?_; ?_))
      subst z
      rotate_left
      try clear_value z
    | try clear_value z
  | with_reducible
      first
      | apply State.each_keeps | apply State.put_keeps | apply keeps_ite | apply keeps_foldl
  | split

theorem State.calStep_keeps {s t : State} (h : Keeps s t) (p : Nat) :
    Keeps s (State.calStep t p) := by
  unfold State.calStep
  repeat' first
  | intro _
  | with_reducible assumption
  | fail_if_no_progress extract_lets +onlyGivenNames z
    first
    | (refine (have hz : Keeps s z := ?_; ?_))
      subst z
      rotate_left
      try clear_value z
    | try clear_value z
  | with_reducible
      first
      | apply State.ofsStart_keeps | apply State.put_keeps | apply keeps_ite | apply keeps_foldl
  | split

theorem State.rdyUp_keeps {s t : State} (h : Keeps s t) (p : Nat) :
    Keeps s (State.rdyUp t p) := by
  unfold State.rdyUp
  repeat' first
  | intro _
  | with_reducible assumption
  | fail_if_no_progress extract_lets +onlyGivenNames z
    first
    | (refine (have hz : Keeps s z := ?_; ?_))
      subst z
      rotate_left
      try clear_value z
    | try clear_value z
  | with_reducible
      first
      | apply State.put_keeps | apply keeps_ite | apply keeps_foldl
  | split

theorem State.stageAt_keeps {s t : State} (h : Keeps s t) (p : Nat) (k : Nat) :
    Keeps s (State.stageAt t p k) := by
  unfold State.stageAt
  repeat' first
  | intro _
  | with_reducible assumption
  | fail_if_no_progress extract_lets +onlyGivenNames z
    first
    | (refine (have hz : Keeps s z := ?_; ?_))
      subst z
      rotate_left
      try clear_value z
    | try clear_value z
  | with_reducible
      first
      | apply State.put_keeps | apply State.each_keeps | apply keeps_ite | apply keeps_foldl
  | split

theorem State.resChange_keeps {s t : State} (h : Keeps s t) (p : Nat) :
    Keeps s (State.resChange t p) := by
  unfold State.resChange
  repeat' first
  | intro _
  | with_reducible assumption
  | fail_if_no_progress extract_lets +onlyGivenNames z
    first
    | (refine (have hz : Keeps s z := ?_; ?_))
      subst z
      rotate_left
      try clear_value z
    | try clear_value z
  | with_reducible
      first
      | apply State.put_keeps | apply keeps_ite | apply keeps_foldl
  | split

theorem State.resSettle_keeps {s t : State} (h : Keeps s t) (p : Nat) :
    Keeps s (State.resSettle t p) := by
  unfold State.resSettle
  repeat' first
  | intro _
  | with_reducible assumption
  | fail_if_no_progress extract_lets +onlyGivenNames z
    first
    | (refine (have hz : Keeps s z := ?_; ?_))
      subst z
      rotate_left
      try clear_value z
    | try clear_value z
  | with_reducible
      first
      | apply State.resChange_keeps | apply State.each_keeps | apply keeps_ite | apply keeps_foldl
  | split

theorem State.rateTo_keeps {s t : State} (h : Keeps s t) (p : Nat) (r : Int) :
    Keeps s (State.rateTo t p r) := by
  unfold State.rateTo
  repeat' first
  | intro _
  | with_reducible assumption
  | fail_if_no_progress extract_lets +onlyGivenNames z
    first
    | (refine (have hz : Keeps s z := ?_; ?_))
      subst z
      rotate_left
      try clear_value z
    | try clear_value z
  | with_reducible
      first
      | apply State.put_keeps | apply State.puti_keeps | apply State.resSettle_keeps | apply keeps_ite
      | apply keeps_foldl
  | split

theorem State.applyDp_keeps {s t : State} (h : Keeps s t) (p : Nat) (ws : List Nat) (y3 : Nat) (tb : Nat) :
    Keeps s (State.applyDp t p ws y3 tb) := by
  unfold State.applyDp
  repeat' first
  | intro _
  | with_reducible assumption
  | fail_if_no_progress extract_lets +onlyGivenNames z
    first
    | (refine (have hz : Keeps s z := ?_; ?_))
      subst z
      rotate_left
      try clear_value z
    | try clear_value z
  | with_reducible
      first
      | apply State.rdyUp_keeps | apply State.rateTo_keeps | apply State.when_keeps | apply State.put_keeps
      | apply State.each_keeps | apply keeps_ite | apply keeps_foldl
  | split

theorem State.landDp_keeps {s t : State} (h : Keeps s t) (p : Nat) (ws : List Nat) (y3 : Nat) (tb : Nat) :
    Keeps s (State.landDp t p ws y3 tb) := by
  unfold State.landDp
  repeat' first
  | intro _
  | with_reducible assumption
  | fail_if_no_progress extract_lets +onlyGivenNames z
    first
    | (refine (have hz : Keeps s z := ?_; ?_))
      subst z
      rotate_left
      try clear_value z
    | try clear_value z
  | with_reducible
      first
      | apply State.put_keeps | apply State.applyDp_keeps | apply keeps_ite | apply keeps_foldl
  | split

theorem State.landRefs_keeps {s t : State} (h : Keeps s t) (a : Nat) (ws : List Nat) (fb : Nat) :
    Keeps s (State.landRefs t a ws fb) := by
  unfold State.landRefs
  repeat' first
  | intro _
  | with_reducible assumption
  | fail_if_no_progress extract_lets +onlyGivenNames z
    first
    | (refine (have hz : Keeps s z := ?_; ?_))
      subst z
      rotate_left
      try clear_value z
    | try clear_value z
  | with_reducible
      first
      | apply State.landPt_keeps | apply State.landDp_keeps | apply keeps_ite | apply keeps_foldl
  | split

theorem State.errFix_keeps {s t : State} (h : Keeps s t) (arr : Nat) (off : Nat) :
    Keeps s (State.errFix t arr off) := by
  unfold State.errFix
  repeat' first
  | intro _
  | with_reducible assumption
  | fail_if_no_progress extract_lets +onlyGivenNames z
    first
    | (refine (have hz : Keeps s z := ?_; ?_))
      subst z
      rotate_left
      try clear_value z
    | try clear_value z
  | with_reducible
      first
      | apply keeps_ite | apply keeps_foldl
  | split
  | with_reducible apply keeps_mk

theorem State.errSingle_keeps {s t : State} (h : Keeps s t) (arr : Nat) (off : Nat) (ax : optParam Nat 65535) :
    Keeps s (State.errSingle t arr off ax) := by
  unfold State.errSingle
  repeat' first
  | intro _
  | with_reducible assumption
  | fail_if_no_progress extract_lets +onlyGivenNames z
    first
    | (refine (have hz : Keeps s z := ?_; ?_))
      subst z
      rotate_left
      try clear_value z
    | try clear_value z
  | with_reducible
      first
      | apply State.incSat_keeps | apply State.put_keeps | apply State.report_keeps | apply State.errFix_keeps
      | apply keeps_ite | apply keeps_foldl
  | split

theorem State.errDouble_keeps {s t : State} (h : Keeps s t) (arr : Nat) (off : Nat) (ax : optParam Nat 65535) :
    Keeps s (State.errDouble t arr off ax) := by
  unfold State.errDouble
  repeat' first
  | intro _
  | with_reducible assumption
  | fail_if_no_progress extract_lets +onlyGivenNames z
    first
    | (refine (have hz : Keeps s z := ?_; ?_))
      subst z
      rotate_left
      try clear_value z
    | try clear_value z
  | with_reducible
      first
      | apply State.incSat_keeps | apply State.put_keeps | apply State.report_keeps | apply keeps_ite
      | apply keeps_foldl
  | split

theorem State.errWrote_keeps {s t : State} (h : Keeps s t) (arr : Nat) (off : Nat) (n : Nat) :
    Keeps s (State.errWrote t arr off n) := by
  unfold State.errWrote
  repeat' first
  | intro _
  | with_reducible assumption
  | fail_if_no_progress extract_lets +onlyGivenNames z
    first
    | (refine (have hz : Keeps s z := ?_; ?_))
      subst z
      rotate_left
      try clear_value z
    | try clear_value z
  | with_reducible
      first
      | apply keeps_ite | apply keeps_foldl
  | split
  | with_reducible apply keeps_mk

theorem State.setEngSt_keeps {s t : State} (h : Keeps s t) (e : Nat) (v : Nat) :
    Keeps s (State.setEngSt t e v) := by
  unfold State.setEngSt
  repeat' first
  | intro _
  | with_reducible assumption
  | fail_if_no_progress extract_lets +onlyGivenNames z
    first
    | (refine (have hz : Keeps s z := ?_; ?_))
      subst z
      rotate_left
      try clear_value z
    | try clear_value z
  | with_reducible
      first
      | apply State.put_keeps | apply keeps_ite | apply keeps_foldl
  | split

theorem State.putInst_keeps {s t : State} (h : Keeps s t) (x : Inst) :
    Keeps s (State.putInst t x) := by
  unfold State.putInst
  repeat' first
  | intro _
  | with_reducible assumption
  | fail_if_no_progress extract_lets +onlyGivenNames z
    first
    | (refine (have hz : Keeps s z := ?_; ?_))
      subst z
      rotate_left
      try clear_value z
    | try clear_value z
  | with_reducible
      first
      | apply keeps_ite | apply keeps_foldl
  | split
  | with_reducible apply keeps_mk

theorem State.dropInst_keeps {s t : State} (h : Keeps s t) (x : Inst) :
    Keeps s (State.dropInst t x) := by
  unfold State.dropInst
  repeat' first
  | intro _
  | with_reducible assumption
  | fail_if_no_progress extract_lets +onlyGivenNames z
    first
    | (refine (have hz : Keeps s z := ?_; ?_))
      subst z
      rotate_left
      try clear_value z
    | try clear_value z
  | with_reducible
      first
      | apply State.put_keeps | apply keeps_ite | apply keeps_foldl
  | split
  | with_reducible apply keeps_mk

theorem State.trcPut_keeps {s t : State} (h : Keeps s t) (r : Nat) : Keeps s (State.trcPut t r) := by
  unfold State.trcPut
  refine keeps_ite h (?_ : Keeps s (ite _ _ _))
  split
  · exact State.incSat_keeps h ..
  · exact keeps_trc h fun _ => by simp; omega

theorem State.trcTrigger_keeps {s t : State} (h : Keeps s t) :
    Keeps s (State.trcTrigger t) := by
  unfold State.trcTrigger
  repeat' first
  | intro _
  | with_reducible assumption
  | fail_if_no_progress extract_lets +onlyGivenNames z
    first
    | (refine (have hz : Keeps s z := ?_; ?_))
      subst z
      rotate_left
      try clear_value z
    | try clear_value z
  | with_reducible
      first
      | apply State.put_keeps | apply State.trcPut_keeps | apply keeps_ite | apply keeps_foldl
  | split

theorem State.trcRec_keeps {s t : State} (h : Keeps s t) (ty : Nat) (r : Nat) :
    Keeps s (State.trcRec t ty r) := by
  unfold State.trcRec
  repeat' first
  | intro _
  | with_reducible assumption
  | fail_if_no_progress extract_lets +onlyGivenNames z
    first
    | (refine (have hz : Keeps s z := ?_; ?_))
      subst z
      rotate_left
      try clear_value z
    | try clear_value z
  | with_reducible
      first
      | apply State.trcTrigger_keeps | apply State.trcPut_keeps | apply State.when_keeps | apply keeps_ite
      | apply keeps_foldl
  | split

theorem State.trc_keeps {s t : State} (h : Keeps s t) (ty : Nat) (eng : Option Nat) (desc : Nat) (prio : Nat) (info :
    Nat) (aux : Nat) :
    Keeps s (State.trc t ty eng desc prio info aux) := by
  unfold State.trc
  repeat' first
  | intro _
  | with_reducible assumption
  | fail_if_no_progress extract_lets +onlyGivenNames z
    first
    | (refine (have hz : Keeps s z := ?_; ?_))
      subst z
      rotate_left
      try clear_value z
    | try clear_value z
  | with_reducible
      first
      | apply State.trcRec_keeps | apply keeps_ite | apply keeps_foldl
  | split

theorem State.trcBoundary_keeps {s t : State} (h : Keeps s t) :
    Keeps s (State.trcBoundary t) := by
  unfold State.trcBoundary
  repeat' first
  | intro _
  | with_reducible assumption
  | fail_if_no_progress extract_lets +onlyGivenNames z
    first
    | (refine (have hz : Keeps s z := ?_; ?_))
      subst z
      rotate_left
      try clear_value z
    | try clear_value z
  | with_reducible
      first
      | apply State.trcRec_keeps | apply keeps_ite | apply keeps_foldl
  | split

theorem State.loadUpdate_keeps {s t : State} (h : Keeps s t) :
    Keeps s (State.loadUpdate t) := by
  unfold State.loadUpdate
  repeat' first
  | intro _
  | with_reducible assumption
  | fail_if_no_progress extract_lets +onlyGivenNames z
    first
    | (refine (have hz : Keeps s z := ?_; ?_))
      subst z
      rotate_left
      try clear_value z
    | try clear_value z
  | with_reducible
      first
      | apply State.put_keeps | apply keeps_ite | apply keeps_foldl
  | split

theorem State.setService_keeps {s t : State} (h : Keeps s t) (e : Nat) (inSvc : Bool) :
    Keeps s (State.setService t e inSvc) := by
  unfold State.setService
  repeat' first
  | intro _
  | with_reducible assumption
  | fail_if_no_progress extract_lets +onlyGivenNames z
    first
    | (refine (have hz : Keeps s z := ?_; ?_))
      subst z
      rotate_left
      try clear_value z
    | try clear_value z
  | with_reducible
      first
      | apply State.clearBit_keeps | apply State.orBit_keeps | apply State.loadUpdate_keeps | apply keeps_ite
      | apply keeps_foldl
  | split

theorem State.engBack_keeps {s t : State} (h : Keeps s t) (e : Nat) :
    Keeps s (State.engBack t e) := by
  unfold State.engBack
  repeat' first
  | intro _
  | with_reducible assumption
  | fail_if_no_progress extract_lets +onlyGivenNames z
    first
    | (refine (have hz : Keeps s z := ?_; ?_))
      subst z
      rotate_left
      try clear_value z
    | try clear_value z
  | with_reducible
      first
      | apply State.setService_keeps | apply State.put_keeps | apply State.setEngSt_keeps | apply keeps_ite
      | apply keeps_foldl
  | split

theorem State.engForget_keeps {s t : State} (h : Keeps s t) (e : Nat) :
    Keeps s (State.engForget t e) := by
  unfold State.engForget
  repeat' first
  | intro _
  | with_reducible assumption
  | fail_if_no_progress extract_lets +onlyGivenNames z
    first
    | (refine (have hz : Keeps s z := ?_; ?_))
      subst z
      rotate_left
      try clear_value z
    | try clear_value z
  | with_reducible
      first
      | apply State.put_keeps | apply State.when_keeps | apply State.each_keeps | apply keeps_ite | apply keeps_foldl
  | split
  | with_reducible apply keeps_mk

theorem State.slotDrop_keeps {s t : State} (h : Keeps s t) (e : Nat) (k : Nat) :
    Keeps s (State.slotDrop t e k) := by
  unfold State.slotDrop
  repeat' first
  | intro _
  | with_reducible assumption
  | fail_if_no_progress extract_lets +onlyGivenNames z
    first
    | (refine (have hz : Keeps s z := ?_; ?_))
      subst z
      rotate_left
      try clear_value z
    | try clear_value z
  | with_reducible
      first
      | apply State.put_keeps | apply State.when_keeps | apply State.each_keeps | apply keeps_ite | apply keeps_foldl
  | split
  | with_reducible apply keeps_mk

theorem State.evictOthers_keeps {s t : State} (h : Keeps s t) (e : Nat) (rec : Nat) :
    Keeps s (State.evictOthers t e rec) := by
  unfold State.evictOthers
  repeat' first
  | intro _
  | with_reducible assumption
  | fail_if_no_progress extract_lets +onlyGivenNames z
    first
    | (refine (have hz : Keeps s z := ?_; ?_))
      subst z
      rotate_left
      try clear_value z
    | try clear_value z
  | with_reducible
      first
      | apply State.slotDrop_keeps | apply State.each_keeps | apply keeps_ite | apply keeps_foldl
  | split

theorem State.slotUse_keeps {s t : State} (h : Keeps s t) (e : Nat) (k : Nat) :
    Keeps s (State.slotUse t e k) := by
  unfold State.slotUse
  repeat' first
  | intro _
  | with_reducible assumption
  | fail_if_no_progress extract_lets +onlyGivenNames z
    first
    | (refine (have hz : Keeps s z := ?_; ?_))
      subst z
      rotate_left
      try clear_value z
    | try clear_value z
  | with_reducible
      first
      | apply State.incWrap_keeps | apply State.put_keeps | apply keeps_ite | apply keeps_foldl
  | split

theorem State.storeDouble_keeps {s t : State} (h : Keeps s t) (off : Nat) :
    Keeps s (State.storeDouble t off) := by
  unfold State.storeDouble
  repeat' first
  | intro _
  | with_reducible assumption
  | fail_if_no_progress extract_lets +onlyGivenNames z
    first
    | (refine (have hz : Keeps s z := ?_; ?_))
      subst z
      rotate_left
      try clear_value z
    | try clear_value z
  | with_reducible
      first
      | apply State.errFix_keeps | apply State.when_keeps | apply State.errDouble_keeps | apply State.put_keeps
      | apply keeps_ite | apply keeps_foldl
  | split

theorem State.recRead_keeps {s t : State} (h : Keeps s t) (a : Nat) :
    Keeps s (State.recRead t a) := by
  unfold State.recRead
  repeat' first
  | intro _
  | with_reducible assumption
  | fail_if_no_progress extract_lets +onlyGivenNames z
    first
    | (refine (have hz : Keeps s z := ?_; ?_))
      subst z
      rotate_left
      try clear_value z
    | try clear_value z
  | with_reducible
      first
      | apply State.storeDouble_keeps | apply State.errSingle_keeps | apply State.each_keeps | apply keeps_ite
      | apply keeps_foldl
  | split

theorem State.slotLoad_keeps {s t : State} (h : Keeps s t) (e : Nat) (rec : Nat) :
    Keeps s (State.slotLoad t e rec) := by
  unfold State.slotLoad
  repeat' first
  | intro _
  | with_reducible assumption
  | fail_if_no_progress extract_lets +onlyGivenNames z
    first
    | (refine (have hz : Keeps s z := ?_; ?_))
      subst z
      rotate_left
      try clear_value z
    | try clear_value z
  | with_reducible
      first
      | apply State.errWrote_keeps | apply State.slotDrop_keeps | apply State.put_keeps | apply State.recRead_keeps
      | apply State.when_keeps | apply State.slotUse_keeps | apply State.evictOthers_keeps | apply keeps_ite
      | apply keeps_foldl
  | split

theorem State.saveRec_keeps {s t : State} (h : Keeps s t) (x : Inst) :
    Keeps s (State.saveRec t x) := by
  unfold State.saveRec
  repeat' first
  | intro _
  | with_reducible assumption
  | fail_if_no_progress extract_lets +onlyGivenNames z
    first
    | (refine (have hz : Keeps s z := ?_; ?_))
      subst z
      rotate_left
      try clear_value z
    | try clear_value z
  | with_reducible
      first
      | apply keeps_ite | apply keeps_foldl
  | split
  | with_reducible apply keeps_mk

theorem State.noteWork_keeps {s t : State} (h : Keeps s t) (b : State) (x : Inst) :
    Keeps s (State.noteWork t b x) := by
  unfold State.noteWork
  repeat' first
  | intro _
  | with_reducible assumption
  | fail_if_no_progress extract_lets +onlyGivenNames z
    first
    | (refine (have hz : Keeps s z := ?_; ?_))
      subst z
      rotate_left
      try clear_value z
    | try clear_value z
  | with_reducible
      first
      | apply keeps_ite | apply keeps_foldl
  | split
  | with_reducible apply keeps_mk

theorem regSorted_regReplace {l : List (Nat × Nat)} (h : regSorted l = true) (p : Nat → Bool) (new : List (Nat × Nat)) :
    regSorted (regReplace l p new) = true := by
  unfold regReplace
  have h2 := regSorted_filter h fun q => !p q.1
  generalize l.filter (fun q => !p q.1) = m at h2
  induction new generalizing m with
  | nil => exact h2
  | cons q new ih => exact ih _ (regSorted_regAdd (regSorted_filter h2 _) regDrop_ne)

theorem regSorted_undoReg {l : List (Nat × Nat)} (h : regSorted l = true) (q : Nat × Option Nat × Option Nat) :
    regSorted (undoReg l q) = true := by
  unfold undoReg
  split
  · split
    · exact regSorted_filter h _
    · exact regSorted_regAdd (regSorted_filter h _) regDrop_ne
  · exact h

theorem memWf_undoByte {m : List Host.Cell} (h : Memory.wf m = true) (q : Nat × Byte × Byte) :
    Memory.wf (undoByte m q) = true := by
  unfold undoByte
  split
  · exact memWf_memSet h ..
  · exact h

theorem foldl_keeps {α β : Type} {P : α → Prop} {f : α → β → α} (hf : ∀ a b, P a → P (f a b)) (l : List β) :
    ∀ {a : α}, P a → P (l.foldl f a) := by
  induction l with
  | nil => exact id
  | cons b l ih => exact fun h => ih (hf _ b h)

/-- A list of which every entry's key occurs at most `n` times holds no key more often. -/
theorem keyed_of_all {α : Type} {l : List α} {f : α → Nat} {n : Nat}
    (h : (l.all fun x => decide ((l.filter fun y => f y == f x).length ≤ n)) = true) (k : Nat) :
    (l.filter fun x => f x == k).length ≤ n := by
  by_cases hk : ∃ x ∈ l, f x = k
  · obtain ⟨x, hx, rfl⟩ := hk
    exact of_decide_eq_true (List.all_eq_true.1 h x hx)
  · rw [List.filter_eq_nil_iff.2 fun x hx => by simpa using fun e => hk ⟨x, hx, e⟩]
    exact Nat.zero_le n

theorem State.restoreRec_keeps {s t : State} (h : Keeps s t) (x : Inst) : Keeps s (State.restoreRec t x) := by
  unfold State.restoreRec
  cases t.saved.find? _ with
  | none => exact h
  | some y =>
    have hr : Keeps s { t with regs := y.regs.foldl undoReg t.regs } :=
      keeps_regs h fun hl => foldl_keeps (P := fun l => regSorted l = true) (fun _ q k => regSorted_undoReg k q) _ hl
    have hm : Keeps s { t with regs := y.regs.foldl undoReg t.regs, mem := y.mem.foldl undoByte t.mem } :=
      keeps_mem hr fun hl => foldl_keeps (P := fun m => Memory.wf m = true) (fun _ q k => memWf_undoByte k q) _ hl
    dsimp only
    refine keeps_mk ?_
    split
    · exact keeps_caps (by
        split
        · exact keeps_tags hm fun _ => keyed_of_all (f := TagRec.mb) ‹_›
        · exact hm) fun _ => keyed_of_all (f := CapEntry.unit) ‹_›
    · split
      · exact keeps_tags hm fun _ => keyed_of_all (f := TagRec.mb) ‹_›
      · exact hm

theorem State.cfgThen_keeps {s t : State} (h : Keeps s t) (id : Nat) : Keeps s (State.cfgThen t id) := by
  unfold State.cfgThen
  cases t.saved.find? _ with
  | none => exact h
  | some y => exact keeps_regs h fun hl => regSorted_regReplace hl ..

theorem State.cfgFrom_keeps {s t : State} (h : Keeps s t) (rec : Nat) (now : State) :
    Keeps s (State.cfgFrom t rec now) :=
  keeps_regs h fun hl => regSorted_regReplace hl ..

theorem State.outPut_keeps {s t : State} (h : Keeps s t) (o : OutCmd) :
    Keeps s (State.outPut t o) := by
  unfold State.outPut
  repeat' first
  | intro _
  | with_reducible assumption
  | fail_if_no_progress extract_lets +onlyGivenNames z
    first
    | (refine (have hz : Keeps s z := ?_; ?_))
      subst z
      rotate_left
      try clear_value z
    | try clear_value z
  | with_reducible
      first
      | apply keeps_ite | apply keeps_foldl
  | split
  | with_reducible apply keeps_mk

theorem State.outDrop_keeps {s t : State} (h : Keeps s t) (a : Nat) :
    Keeps s (State.outDrop t a) := by
  unfold State.outDrop
  repeat' first
  | intro _
  | with_reducible assumption
  | fail_if_no_progress extract_lets +onlyGivenNames z
    first
    | (refine (have hz : Keeps s z := ?_; ?_))
      subst z
      rotate_left
      try clear_value z
    | try clear_value z
  | with_reducible
      first
      | apply keeps_ite | apply keeps_foldl
  | split
  | with_reducible apply keeps_mk

theorem State.overrun_keeps {s t : State} (h : Keeps s t) (a : Nat) (d : Nat) (prio : Nat) (info : Nat) (cyc : Nat) :
    Keeps s (State.overrun t a d prio info cyc) := by
  unfold State.overrun
  repeat' first
  | intro _
  | with_reducible assumption
  | fail_if_no_progress extract_lets +onlyGivenNames z
    first
    | (refine (have hz : Keeps s z := ?_; ?_))
      subst z
      rotate_left
      try clear_value z
    | try clear_value z
  | with_reducible
      first
      | apply State.trc_keeps | apply State.outPut_keeps | apply State.when_keeps | apply State.sweepMissed_keeps
      | apply State.incSat_keeps | apply State.put_keeps | apply keeps_ite | apply keeps_foldl
  | split

theorem State.groupFail_keeps {s t : State} (h : Keeps s t) (g : Nat) (cyc : Nat) :
    Keeps s (State.groupFail t g cyc) := by
  unfold State.groupFail
  repeat' first
  | intro _
  | with_reducible assumption
  | fail_if_no_progress extract_lets +onlyGivenNames z
    first
    | (refine (have hz : Keeps s z := ?_; ?_))
      subst z
      rotate_left
      try clear_value z
    | try clear_value z
  | with_reducible
      first
      | apply State.overrun_keeps | apply State.put_keeps | apply State.each_keeps | apply keeps_ite
      | apply keeps_foldl
  | split

theorem State.missed_keeps {s t : State} (h : Keeps s t) (x : Inst) (info : Nat) :
    Keeps s (State.missed t x info) := by
  unfold State.missed
  repeat' first
  | intro _
  | with_reducible assumption
  | fail_if_no_progress extract_lets +onlyGivenNames z
    first
    | (refine (have hz : Keeps s z := ?_; ?_))
      subst z
      rotate_left
      try clear_value z
    | try clear_value z
  | with_reducible
      first
      | apply State.overrun_keeps | apply State.groupFail_keeps | apply keeps_ite | apply keeps_foldl
  | split

theorem State.failInst_keeps {s t : State} (h : Keeps s t) (x : Inst) (info : Nat) :
    Keeps s (State.failInst t x info) := by
  unfold State.failInst
  repeat' first
  | intro _
  | with_reducible assumption
  | fail_if_no_progress extract_lets +onlyGivenNames z
    first
    | (refine (have hz : Keeps s z := ?_; ?_))
      subst z
      rotate_left
      try clear_value z
    | try clear_value z
  | with_reducible
      first
      | apply State.put_keeps | apply State.missed_keeps | apply State.dropInst_keeps | apply State.when_keeps
      | apply keeps_ite | apply keeps_foldl
  | split

theorem State.pastDeadline_keeps {s t : State} (h : Keeps s t) (x : Inst) :
    Keeps s (State.pastDeadline t x) := by
  unfold State.pastDeadline
  repeat' first
  | intro _
  | with_reducible assumption
  | fail_if_no_progress extract_lets +onlyGivenNames z
    first
    | (refine (have hz : Keeps s z := ?_; ?_))
      subst z
      rotate_left
      try clear_value z
    | try clear_value z
  | with_reducible
      first
      | apply State.putInst_keeps | apply State.put_keeps | apply State.missed_keeps | apply State.failInst_keeps
      | apply keeps_ite | apply keeps_foldl
  | split

theorem State.jReload_keeps {s t : State} (h : Keeps s t) (d : Nat) :
    Keeps s (State.jReload t d) := by
  unfold State.jReload
  repeat' first
  | intro _
  | with_reducible assumption
  | fail_if_no_progress extract_lets +onlyGivenNames z
    first
    | (refine (have hz : Keeps s z := ?_; ?_))
      subst z
      rotate_left
      try clear_value z
    | try clear_value z
  | with_reducible
      first
      | apply State.put_keeps | apply keeps_ite | apply keeps_foldl
  | split

theorem State.pktKeep_keeps {s t : State} (h : Keeps s t) (d : Nat) (cause : Nat) (cyc : Nat) (pkt : List Nat) :
    Keeps s (State.pktKeep t d cause cyc pkt) := by
  unfold State.pktKeep
  repeat' first
  | intro _
  | with_reducible assumption
  | fail_if_no_progress extract_lets +onlyGivenNames z
    first
    | (refine (have hz : Keeps s z := ?_; ?_))
      subst z
      rotate_left
      try clear_value z
    | try clear_value z
  | with_reducible
      first
      | apply State.put_keeps | apply State.each_keeps | apply keeps_ite | apply keeps_foldl
  | split

theorem State.release_keeps {s t : State} (h : Keeps s t) (d : Nat) (cause : Nat) (cyc : Nat) (fb : Nat) (pkt : List
    Nat) :
    Keeps s (State.release t d cause cyc fb pkt) := by
  unfold State.release
  repeat' first
  | intro _
  | with_reducible assumption
  | fail_if_no_progress extract_lets +onlyGivenNames z
    first
    | (refine (have hz : Keeps s z := ?_; ?_))
      subst z
      rotate_left
      try clear_value z
    | try clear_value z
  | with_reducible
      first
      | apply State.incWrap_keeps | apply State.pktKeep_keeps | apply State.jReload_keeps | apply State.put_keeps
      | apply State.each_keeps | apply State.when_keeps | apply State.failInst_keeps | apply keeps_ite
      | apply keeps_foldl
  | split
  | with_reducible apply keeps_mk

theorem State.releaseNext_keeps {s t : State} (h : Keeps s t) (x : Inst) :
    Keeps s (State.releaseNext t x) := by
  unfold State.releaseNext
  repeat' first
  | intro _
  | with_reducible assumption
  | fail_if_no_progress extract_lets +onlyGivenNames z
    first
    | (refine (have hz : Keeps s z := ?_; ?_))
      subst z
      rotate_left
      try clear_value z
    | try clear_value z
  | with_reducible
      first
      | apply State.put_keeps | apply State.jReload_keeps | apply State.release_keeps | apply State.each_keeps
      | apply keeps_ite | apply keeps_foldl
  | split

theorem State.engStart_keeps {s t : State} (h : Keeps s t) (e : Nat) (lvl : Nat) (x : Inst) :
    Keeps s (State.engStart t e lvl x) := by
  unfold State.engStart
  repeat' first
  | intro _
  | with_reducible assumption
  | fail_if_no_progress extract_lets +onlyGivenNames z
    first
    | (refine (have hz : Keeps s z := ?_; ?_))
      subst z
      rotate_left
      try clear_value z
    | try clear_value z
  | with_reducible
      first
      | apply State.each_keeps | apply State.injFired_keeps | apply State.when_keeps | apply State.put_keeps
      | apply State.errWrote_keeps | apply State.setBytes_keeps | apply keeps_ite | apply keeps_foldl
  | split
  | with_reducible apply keeps_mk

theorem State.dispatchTo_keeps {s t : State} (h : Keeps s t) (x : Inst) (e : Nat) :
    Keeps s (State.dispatchTo t x e) := by
  unfold State.dispatchTo
  repeat' first
  | intro _
  | with_reducible assumption
  | fail_if_no_progress extract_lets +onlyGivenNames z
    first
    | (refine (have hz : Keeps s z := ?_; ?_))
      subst z
      rotate_left
      try clear_value z
    | try clear_value z
  | with_reducible
      first
      | apply State.saveRec_keeps | apply State.engStart_keeps | apply State.setEngSt_keeps
      | apply State.putInst_keeps | apply State.slotLoad_keeps | apply State.incSat_keeps | apply State.put_keeps
      | apply State.when_keeps | apply State.trc_keeps | apply keeps_ite | apply keeps_foldl
  | split

theorem State.descStage_keeps {s t : State} (h : Keeps s t) (d : Nat) (ws : List Nat) :
    Keeps s (State.descStage t d ws) := by
  unfold State.descStage
  repeat' first
  | intro _
  | with_reducible assumption
  | fail_if_no_progress extract_lets +onlyGivenNames z
    first
    | (refine (have hz : Keeps s z := ?_; ?_))
      subst z
      rotate_left
      try clear_value z
    | try clear_value z
  | with_reducible
      first
      | apply keeps_ite | apply keeps_foldl
  | split
  | with_reducible apply keeps_mk

theorem State.descApply_keeps {s t : State} (h : Keeps s t) :
    Keeps s (State.descApply t) := by
  unfold State.descApply
  repeat' first
  | intro _
  | with_reducible assumption
  | fail_if_no_progress extract_lets +onlyGivenNames z
    first
    | (refine (have hz : Keeps s z := ?_; ?_))
      subst z
      rotate_left
      try clear_value z
    | try clear_value z
  | with_reducible
      first
      | apply State.loadUpdate_keeps | apply State.jReload_keeps | apply State.when_keeps | apply State.put_keeps
      | apply State.errWrote_keeps | apply State.putWords_keeps | apply State.each_keeps | apply keeps_ite
      | apply keeps_foldl
  | split
  | with_reducible apply keeps_mk

theorem State.deliver_keeps {s t : State} (h : Keeps s t) (a : Nat) (ws : List Nat) (fb : Nat) (cyc : Nat) :
    Keeps s (State.deliver t a ws fb cyc) := by
  unfold State.deliver
  repeat' first
  | intro _
  | with_reducible assumption
  | fail_if_no_progress extract_lets +onlyGivenNames z
    first
    | (refine (have hz : Keeps s z := ?_; ?_))
      subst z
      rotate_left
      try clear_value z
    | try clear_value z
  | with_reducible
      first
      | apply State.incSat_keeps | apply State.when_keeps | apply State.landRefs_keeps | apply State.each_keeps
      | apply State.outPut_keeps | apply State.put_keeps | apply keeps_ite | apply keeps_foldl
  | split

theorem State.cycStat_keeps {s t : State} (h : Keeps s t) (d : Nat) (c : Nat) :
    Keeps s (State.cycStat t d c) := by
  unfold State.cycStat
  repeat' first
  | intro _
  | with_reducible assumption
  | fail_if_no_progress extract_lets +onlyGivenNames z
    first
    | (refine (have hz : Keeps s z := ?_; ?_))
      subst z
      rotate_left
      try clear_value z
    | try clear_value z
  | with_reducible
      first
      | apply State.put_keeps | apply keeps_ite | apply keeps_foldl
  | split

theorem State.completeInst_keeps {s t : State} (h : Keeps s t) (x : Inst) (e : Nat) (cyc : Nat) :
    Keeps s (State.completeInst t x e cyc) := by
  unfold State.completeInst
  repeat' first
  | intro _
  | with_reducible assumption
  | fail_if_no_progress extract_lets +onlyGivenNames z
    first
    | (refine (have hz : Keeps s z := ?_; ?_))
      subst z
      rotate_left
      try clear_value z
    | try clear_value z
  | with_reducible
      first
      | apply State.releaseNext_keeps | apply State.dropInst_keeps | apply State.cycStat_keeps | apply State.trc_keeps
      | apply keeps_ite | apply keeps_foldl
  | split

theorem State.abortInst_keeps {s t : State} (h : Keeps s t) (x : Inst) (e : Nat) (cause : Nat) :
    Keeps s (State.abortInst t x e cause) := by
  unfold State.abortInst
  repeat' first
  | intro _
  | with_reducible assumption
  | fail_if_no_progress extract_lets +onlyGivenNames z
    first
    | (refine (have hz : Keeps s z := ?_; ?_))
      subst z
      rotate_left
      try clear_value z
    | try clear_value z
  | with_reducible
      first
      | apply State.failInst_keeps | apply State.putInst_keeps | apply State.trc_keeps | apply State.restoreRec_keeps
      | apply keeps_ite | apply keeps_foldl
  | split

theorem State.quarantined_keeps {s t : State} (h : Keeps s t) (e : Nat) :
    Keeps s (State.quarantined t e) := by
  unfold State.quarantined
  repeat' first
  | intro _
  | with_reducible assumption
  | fail_if_no_progress extract_lets +onlyGivenNames z
    first
    | (refine (have hz : Keeps s z := ?_; ?_))
      subst z
      rotate_left
      try clear_value z
    | try clear_value z
  | with_reducible
      first
      | apply State.when_keeps | apply State.put_keeps | apply keeps_ite | apply keeps_foldl
  | split

theorem State.engTest_keeps {s t : State} (h : Keeps s t) (e : Nat) :
    Keeps s (State.engTest t e) := by
  unfold State.engTest
  repeat' first
  | intro _
  | with_reducible assumption
  | fail_if_no_progress extract_lets +onlyGivenNames z
    first
    | (refine (have hz : Keeps s z := ?_; ?_))
      subst z
      rotate_left
      try clear_value z
    | try clear_value z
  | with_reducible
      first
      | apply State.quarantined_keeps | apply State.when_keeps | apply State.setEngSt_keeps
      | apply State.setService_keeps | apply State.put_keeps | apply State.engForget_keeps | apply keeps_ite
      | apply keeps_foldl
  | split

theorem State.progReload_keeps {s t : State} (h : Keeps s t) (e : Nat) :
    Keeps s (State.progReload t e) := by
  unfold State.progReload
  repeat' first
  | intro _
  | with_reducible assumption
  | fail_if_no_progress extract_lets +onlyGivenNames z
    first
    | (refine (have hz : Keeps s z := ?_; ?_))
      subst z
      rotate_left
      try clear_value z
    | try clear_value z
  | with_reducible
      first
      | apply State.setByte_keeps | apply State.zeroRange_keeps | apply State.each_keeps | apply State.errWrote_keeps
      | apply keeps_ite | apply keeps_foldl
  | split

theorem State.engAbort_keeps {s t : State} (h : Keeps s t) (e : Nat) (cause : Nat) :
    Keeps s (State.engAbort t e cause) := by
  unfold State.engAbort
  repeat' first
  | intro _
  | with_reducible assumption
  | fail_if_no_progress extract_lets +onlyGivenNames z
    first
    | (refine (have hz : Keeps s z := ?_; ?_))
      subst z
      rotate_left
      try clear_value z
    | try clear_value z
  | with_reducible
      first
      | apply State.setEngSt_keeps | apply State.engTest_keeps | apply State.progReload_keeps
      | apply State.abortInst_keeps | apply State.put_keeps | apply State.slotDrop_keeps | apply State.each_keeps
      | apply State.report_keeps | apply State.when_keeps | apply State.incSat_keeps | apply keeps_ite
      | apply keeps_foldl
  | split
  | with_reducible apply keeps_mk

theorem State.engStop_keeps {s t : State} (h : Keeps s t) (e : Nat) :
    Keeps s (State.engStop t e) := by
  unfold State.engStop
  repeat' first
  | intro _
  | with_reducible assumption
  | fail_if_no_progress extract_lets +onlyGivenNames z
    first
    | (refine (have hz : Keeps s z := ?_; ?_))
      subst z
      rotate_left
      try clear_value z
    | try clear_value z
  | with_reducible
      first
      | apply State.put_keeps | apply State.engForget_keeps | apply State.setEngSt_keeps
      | apply State.restoreRec_keeps | apply State.failInst_keeps | apply State.each_keeps | apply keeps_ite
      | apply keeps_foldl
  | split

end Sys2Proof.Machine
end

