-- ==== Sys2Proof/Laws/KeepsEngine.lean ====
section
/-! SUPPORT. What the operations of the loop engines keep: each keeps the queue and the invariant. -/

set_option linter.unusedTactic false
set_option linter.unreachableTactic false
set_option linter.tactic.unusedName false

namespace Sys2Proof.Machine

theorem State.esrPut_keeps {s t : State} (h : Keeps s t) (e : Nat) (k : Nat) (v : Bool) :
    Keeps s (State.esrPut t e k v) := by
  unfold State.esrPut
  repeat' first
  | intro _
  | with_reducible assumption
  | fail_if_no_progress extract_lets +onlyGivenNames z
    first
    | (refine (have hz : Keeps s z := ?_; ?_))
      subst z
      rotate_left
      try clear_value z
    | try clear_value z
  | with_reducible
      first
      | apply State.clearBit_keeps | apply State.orBit_keeps | apply keeps_ite | apply keeps_foldl
  | split

theorem State.flags_keeps {s t : State} (h : Keeps s t) (e : Nat) (z : Bool) (n : Bool) (c : Bool) (v : Bool) :
    Keeps s (State.flags t e z n c v) := by
  unfold State.flags
  repeat' first
  | intro _
  | with_reducible assumption
  | fail_if_no_progress extract_lets +onlyGivenNames z
    first
    | (refine (have hz : Keeps s z := ?_; ?_))
      subst z
      rotate_left
      try clear_value z
    | try clear_value z
  | with_reducible
      first
      | apply State.put_keeps | apply keeps_ite | apply keeps_foldl
  | split

theorem State.flagsZN_keeps {s t : State} (h : Keeps s t) (e : Nat) (z : Bool) (n : Bool) :
    Keeps s (State.flagsZN t e z n) := by
  unfold State.flagsZN
  repeat' first
  | intro _
  | with_reducible assumption
  | fail_if_no_progress extract_lets +onlyGivenNames z
    first
    | (refine (have hz : Keeps s z := ?_; ?_))
      subst z
      rotate_left
      try clear_value z
    | try clear_value z
  | with_reducible
      first
      | apply State.put_keeps | apply keeps_ite | apply keeps_foldl
  | split

theorem State.aluFlags_keeps {s t : State} (h : Keeps s t) (e : Nat) (r : AluRes) :
    Keeps s (State.aluFlags t e r) := by
  unfold State.aluFlags
  repeat' first
  | intro _
  | with_reducible assumption
  | fail_if_no_progress extract_lets +onlyGivenNames z
    first
    | (refine (have hz : Keeps s z := ?_; ?_))
      subst z
      rotate_left
      try clear_value z
    | try clear_value z
  | with_reducible
      first
      | apply State.esrPut_keeps | apply State.flags_keeps | apply State.when_keeps | apply keeps_ite
      | apply keeps_foldl
  | split

theorem State.putOld_keeps {s t : State} (h : Keeps s t) (e : Nat) (f : Fld) (k : Nat) (v : Nat) :
    Keeps s (State.putOld t e f k v) := by
  unfold State.putOld
  repeat' first
  | intro _
  | with_reducible assumption
  | fail_if_no_progress extract_lets +onlyGivenNames z
    first
    | (refine (have hz : Keeps s z := ?_; ?_))
      subst z
      rotate_left
      try clear_value z
    | try clear_value z
  | with_reducible
      first
      | apply State.put_keeps | apply keeps_ite | apply keeps_foldl
  | split
  | with_reducible apply keeps_mk

theorem State.putLate_keeps {s t : State} (h : Keeps s t) (e : Nat) (f : Fld) (k : Nat) (v : Nat) :
    Keeps s (State.putLate t e f k v) := by
  unfold State.putLate
  repeat' first
  | intro _
  | with_reducible assumption
  | fail_if_no_progress extract_lets +onlyGivenNames z
    first
    | (refine (have hz : Keeps s z := ?_; ?_))
      subst z
      rotate_left
      try clear_value z
    | try clear_value z
  | with_reducible
      first
      | apply keeps_ite | apply keeps_foldl
  | split
  | with_reducible apply keeps_mk

theorem State.landLate_keeps {s t : State} (h : Keeps s t) (e : Nat) :
    Keeps s (State.landLate t e) := by
  unfold State.landLate
  repeat' first
  | intro _
  | with_reducible assumption
  | fail_if_no_progress extract_lets +onlyGivenNames z
    first
    | (refine (have hz : Keeps s z := ?_; ?_))
      subst z
      rotate_left
      try clear_value z
    | try clear_value z
  | with_reducible
      first
      | apply State.put_keeps | apply State.each_keeps | apply keeps_ite | apply keeps_foldl
  | split
  | with_reducible apply keeps_mk

theorem State.putD_keeps {s t : State} (h : Keeps s t) (e : Nat) (k : Nat) (v : Nat) :
    Keeps s (State.putD t e k v) := by
  unfold State.putD
  repeat' first
  | intro _
  | with_reducible assumption
  | fail_if_no_progress extract_lets +onlyGivenNames z
    first
    | (refine (have hz : Keeps s z := ?_; ?_))
      subst z
      rotate_left
      try clear_value z
    | try clear_value z
  | with_reducible
      first
      | apply State.put_keeps | apply keeps_ite | apply keeps_foldl
  | split

theorem State.putAcc_keeps {s t : State} (h : Keeps s t) (e : Nat) (k : Nat) (v : Int) :
    Keeps s (State.putAcc t e k v) := by
  unfold State.putAcc
  repeat' first
  | intro _
  | with_reducible assumption
  | fail_if_no_progress extract_lets +onlyGivenNames z
    first
    | (refine (have hz : Keeps s z := ?_; ?_))
      subst z
      rotate_left
      try clear_value z
    | try clear_value z
  | with_reducible
      first
      | apply State.esrPut_keeps | apply State.putOld_keeps | apply State.when_keeps | apply keeps_ite
      | apply keeps_foldl
  | split

theorem State.postMod_keeps {s t : State} (h : Keeps s t) (y1 : State) (e : Nat) (m : Sys2Proof.MemRef) :
    Keeps s (State.postMod t y1 e m) := by
  unfold State.postMod
  repeat' first
  | intro _
  | with_reducible assumption
  | fail_if_no_progress extract_lets +onlyGivenNames z
    first
    | (refine (have hz : Keeps s z := ?_; ?_))
      subst z
      rotate_left
      try clear_value z
    | try clear_value z
  | with_reducible
      first
      | apply State.put_keeps | apply keeps_ite | apply keeps_foldl
  | split

theorem State.engView_keeps {s t : State} (h : Keeps s t) (e : Nat) :
    Keeps s (State.engView t e) := by
  unfold State.engView
  repeat' first
  | intro _
  | with_reducible assumption
  | fail_if_no_progress extract_lets +onlyGivenNames z
    first
    | (refine (have hz : Keeps s z := ?_; ?_))
      subst z
      rotate_left
      try clear_value z
    | try clear_value z
  | with_reducible
      first
      | apply State.cfgThen_keeps | apply keeps_ite | apply keeps_foldl
  | split

theorem State.engCe_keeps {s t : State} (h : Keeps s t) (e : Nat) (m : Nat) (addrs : List Nat) :
    Keeps s (State.engCe t e m addrs) := by
  unfold State.engCe
  repeat' first
  | intro _
  | with_reducible assumption
  | fail_if_no_progress extract_lets +onlyGivenNames z
    first
    | (refine (have hz : Keeps s z := ?_; ?_))
      subst z
      rotate_left
      try clear_value z
    | try clear_value z
  | with_reducible
      first
      | apply State.errSingle_keeps | apply State.each_keeps | apply keeps_ite | apply keeps_foldl
  | split

theorem State.putEngWord_keeps {s t : State} (h : Keeps s t) (e : Nat) (m : Nat) (addr : Nat) (v : Nat) :
    Keeps s (State.putEngWord t e m addr v) := by
  unfold State.putEngWord
  repeat' first
  | intro _
  | with_reducible assumption
  | fail_if_no_progress extract_lets +onlyGivenNames z
    first
    | (refine (have hz : Keeps s z := ?_; ?_))
      subst z
      rotate_left
      try clear_value z
    | try clear_value z
  | with_reducible
      first
      | apply State.store_keeps | apply State.errFix_keeps | apply keeps_ite | apply keeps_foldl
  | split
  | with_reducible apply keeps_mk

theorem State.putEngWord2_keeps {s t : State} (h : Keeps s t) (e : Nat) (m : Nat) (addr : Nat) (v : Nat) :
    Keeps s (State.putEngWord2 t e m addr v) := by
  unfold State.putEngWord2
  repeat' first
  | intro _
  | with_reducible assumption
  | fail_if_no_progress extract_lets +onlyGivenNames z
    first
    | (refine (have hz : Keeps s z := ?_; ?_))
      subst z
      rotate_left
      try clear_value z
    | try clear_value z
  | with_reducible
      first
      | apply State.putEngWord_keeps | apply keeps_ite | apply keeps_foldl
  | split

theorem State.putStoreWord_keeps {s t : State} (h : Keeps s t) (a : Nat) (v : Nat) :
    Keeps s (State.putStoreWord t a v) := by
  unfold State.putStoreWord
  repeat' first
  | intro _
  | with_reducible assumption
  | fail_if_no_progress extract_lets +onlyGivenNames z
    first
    | (refine (have hz : Keeps s z := ?_; ?_))
      subst z
      rotate_left
      try clear_value z
    | try clear_value z
  | with_reducible
      first
      | apply State.store_keeps | apply State.putWord_keeps | apply State.errWrote_keeps | apply keeps_ite
      | apply keeps_foldl
  | split

theorem State.putSpecial_keeps {s t : State} (h : Keeps s t) (e : Nat) (code : Nat) (v : Nat) :
    Keeps s (State.putSpecial t e code v) := by
  unfold State.putSpecial
  repeat' first
  | intro _
  | with_reducible assumption
  | fail_if_no_progress extract_lets +onlyGivenNames z
    first
    | (refine (have hz : Keeps s z := ?_; ?_))
      subst z
      rotate_left
      try clear_value z
    | try clear_value z
  | with_reducible
      first
      | apply State.putD_keeps | apply State.put_keeps | apply State.putOld_keeps | apply keeps_ite
      | apply keeps_foldl
  | split

theorem State.farArrive_keeps {s t : State} (h : Keeps s t) (e : Nat) :
    Keeps s (State.farArrive t e) := by
  unfold State.farArrive
  repeat' first
  | intro _
  | with_reducible assumption
  | fail_if_no_progress extract_lets +onlyGivenNames z
    first
    | (refine (have hz : Keeps s z := ?_; ?_))
      subst z
      rotate_left
      try clear_value z
    | try clear_value z
  | with_reducible
      first
      | apply State.putD_keeps | apply State.esrPut_keeps | apply keeps_ite | apply keeps_foldl
  | split

theorem State.farSettle_keeps {s t : State} (h : Keeps s t) (e : Nat) (far : Bool) (rd : List Nat) :
    Keeps s (State.farSettle t e far rd) := by
  unfold State.farSettle
  repeat' first
  | intro _
  | with_reducible assumption
  | fail_if_no_progress extract_lets +onlyGivenNames z
    first
    | (refine (have hz : Keeps s z := ?_; ?_))
      subst z
      rotate_left
      try clear_value z
    | try clear_value z
  | with_reducible
      first
      | apply State.farArrive_keeps | apply keeps_ite | apply keeps_foldl
  | split

theorem State.loopEnd_keeps {s t : State} (h : Keeps s t) (y1 : State) (e : Nat) (pc : Nat) (len : Nat) :
    Keeps s (State.loopEnd t y1 e pc len) := by
  unfold State.loopEnd
  repeat' first
  | intro _
  | with_reducible assumption
  | fail_if_no_progress extract_lets +onlyGivenNames z
    first
    | (refine (have hz : Keeps s z := ?_; ?_))
      subst z
      rotate_left
      try clear_value z
    | try clear_value z
  | with_reducible
      first
      | apply State.put_keeps | apply keeps_ite | apply keeps_foldl
  | split

theorem State.engAdvance_keeps {s t : State} (h : Keeps s t) (y1 : State) (e : Nat) (cost : Nat) (len : Nat) :
    Keeps s (State.engAdvance t y1 e cost len) := by
  unfold State.engAdvance
  repeat' first
  | intro _
  | with_reducible assumption
  | fail_if_no_progress extract_lets +onlyGivenNames z
    first
    | (refine (have hz : Keeps s z := ?_; ?_))
      subst z
      rotate_left
      try clear_value z
    | try clear_value z
  | with_reducible
      first
      | apply State.loopEnd_keeps | apply State.put_keeps | apply State.when_keeps | apply State.addSat_keeps
      | apply keeps_ite | apply keeps_foldl
  | split

theorem State.engResidue_keeps {s t : State} (h : Keeps s t) (e : Nat) :
    Keeps s (State.engResidue t e) := by
  unfold State.engResidue
  repeat' first
  | intro _
  | with_reducible assumption
  | fail_if_no_progress extract_lets +onlyGivenNames z
    first
    | (refine (have hz : Keeps s z := ?_; ?_))
      subst z
      rotate_left
      try clear_value z
    | try clear_value z
  | with_reducible
      first
      | apply State.put_keeps | apply State.injFired_keeps | apply State.engAbort_keeps | apply keeps_ite
      | apply keeps_foldl
  | split

theorem State.engExc_keeps {s t : State} (h : Keeps s t) (e : Nat) (c : Nat) :
    Keeps s (State.engExc t e c) := by
  unfold State.engExc
  repeat' first
  | intro _
  | with_reducible assumption
  | fail_if_no_progress extract_lets +onlyGivenNames z
    first
    | (refine (have hz : Keeps s z := ?_; ?_))
      subst z
      rotate_left
      try clear_value z
    | try clear_value z
  | with_reducible
      first
      | apply State.errDouble_keeps | apply State.when_keeps | apply State.engAbort_keeps | apply keeps_ite
      | apply keeps_foldl
  | split

theorem State.engRunOf_keeps {s t : State} (h : Keeps s t) (e : Nat) (far : Bool) (rd : List Nat) (exc : State → Nat)
    (wr : State → Bool) (cl : State → Nat × Nat) (f : State → State → State) (hf : ∀ t0 t1, Keeps s t0 → Keeps s t1 →
    Keeps s (f t0 t1)) :
    Keeps s (State.engRunOf t e far rd exc wr cl f) := by
  unfold State.engRunOf
  repeat' first
  | intro _
  | with_reducible assumption
  | fail_if_no_progress extract_lets +onlyGivenNames z
    first
    | (refine (have hz : Keeps s z := ?_; ?_))
      subst z
      rotate_left
      try clear_value z
    | try clear_value z
  | with_reducible
      first
      | apply State.engAdvance_keeps | apply State.landLate_keeps | apply State.put_keeps
      | apply State.engResidue_keeps | apply State.engExc_keeps | apply State.farSettle_keeps | apply hf
      | apply keeps_ite | apply keeps_foldl
  | split

theorem State.engRun_keeps {s t : State} (h : Keeps s t) (e : Nat) (far : Bool) (rd : List Nat) (exc : State → Nat)
    (wr : State → Bool) (cost : Nat) (len : Nat) (f : State → State → State) (hf : ∀ t0 t1, Keeps s t0 → Keeps s t1 →
    Keeps s (f t0 t1)) :
    Keeps s (State.engRun t e far rd exc wr cost len f) := by
  unfold State.engRun
  repeat' first
  | intro _
  | with_reducible assumption
  | fail_if_no_progress extract_lets +onlyGivenNames z
    first
    | (refine (have hz : Keeps s z := ?_; ?_))
      subst z
      rotate_left
      try clear_value z
    | try clear_value z
  | with_reducible
      first
      | apply State.engRunOf_keeps | apply hf | apply keeps_ite | apply keeps_foldl
  | split

theorem State.engPlain_keeps {s t : State} (h : Keeps s t) (e : Nat) (rd : List Nat) (wr : Bool) (f : State → State →
    State) (hf : ∀ t0 t1, Keeps s t0 → Keeps s t1 → Keeps s (f t0 t1)) :
    Keeps s (State.engPlain t e rd wr f) := by
  unfold State.engPlain
  repeat' first
  | intro _
  | with_reducible assumption
  | fail_if_no_progress extract_lets +onlyGivenNames z
    first
    | (refine (have hz : Keeps s z := ?_; ?_))
      subst z
      rotate_left
      try clear_value z
    | try clear_value z
  | with_reducible
      first
      | apply State.engRun_keeps | apply hf | apply keeps_ite | apply keeps_foldl
  | split

theorem State.engAlu_keeps {s t : State} (h : Keeps s t) (e : Nat) (dd : Nat) (rd : List Nat) (r : State → AluRes) :
    Keeps s (State.engAlu t e dd rd r) := by
  unfold State.engAlu
  repeat' first
  | intro _
  | with_reducible assumption
  | fail_if_no_progress extract_lets +onlyGivenNames z
    first
    | (refine (have hz : Keeps s z := ?_; ?_))
      subst z
      rotate_left
      try clear_value z
    | try clear_value z
  | with_reducible
      first
      | apply State.putD_keeps | apply State.aluFlags_keeps | apply State.engPlain_keeps | apply keeps_ite
      | apply keeps_foldl
  | split

theorem State.branchTo_keeps {s t : State} (h : Keeps s t) (e : Nat) (target : Nat) :
    Keeps s (State.branchTo t e target) := by
  unfold State.branchTo
  repeat' first
  | intro _
  | with_reducible assumption
  | fail_if_no_progress extract_lets +onlyGivenNames z
    first
    | (refine (have hz : Keeps s z := ?_; ?_))
      subst z
      rotate_left
      try clear_value z
    | try clear_value z
  | with_reducible
      first
      | apply State.put_keeps | apply keeps_ite | apply keeps_foldl
  | split

theorem State.branchNot_keeps {s t : State} (h : Keeps s t) (e : Nat) (next : Nat) :
    Keeps s (State.branchNot t e next) := by
  unfold State.branchNot
  repeat' first
  | intro _
  | with_reducible assumption
  | fail_if_no_progress extract_lets +onlyGivenNames z
    first
    | (refine (have hz : Keeps s z := ?_; ?_))
      subst z
      rotate_left
      try clear_value z
    | try clear_value z
  | with_reducible
      first
      | apply State.put_keeps | apply keeps_ite | apply keeps_foldl
  | split

theorem State.macUnit_keeps {s t : State} (h : Keeps s t) (y1 : State) (e : Nat) (op : Nat) (ac : Nat) (da : Nat) (db
    : Nat) :
    Keeps s (State.macUnit t y1 e op ac da db) := by
  unfold State.macUnit
  repeat' first
  | intro _
  | with_reducible assumption
  | fail_if_no_progress extract_lets +onlyGivenNames z
    first
    | (refine (have hz : Keeps s z := ?_; ?_))
      subst z
      rotate_left
      try clear_value z
    | try clear_value z
  | with_reducible
      first
      | apply State.putAcc_keeps | apply keeps_ite | apply keeps_foldl
  | split

theorem State.xMove_keeps {s t : State} (h : Keeps s t) (y1 : State) (e : Nat) (x : Sys2Proof.XMove) :
    Keeps s (State.xMove t y1 e x) := by
  unfold State.xMove
  repeat' first
  | intro _
  | with_reducible assumption
  | fail_if_no_progress extract_lets +onlyGivenNames z
    first
    | (refine (have hz : Keeps s z := ?_; ?_))
      subst z
      rotate_left
      try clear_value z
    | try clear_value z
  | with_reducible
      first
      | apply State.put_keeps | apply State.engCe_keeps | apply State.putLate_keeps | apply keeps_ite
      | apply keeps_foldl
  | split

theorem State.yMove_keeps {s t : State} (h : Keeps s t) (y1 : State) (e : Nat) (y : Sys2Proof.YMove) :
    Keeps s (State.yMove t y1 e y) := by
  unfold State.yMove
  repeat' first
  | intro _
  | with_reducible assumption
  | fail_if_no_progress extract_lets +onlyGivenNames z
    first
    | (refine (have hz : Keeps s z := ?_; ?_))
      subst z
      rotate_left
      try clear_value z
    | try clear_value z
  | with_reducible
      first
      | apply State.put_keeps | apply State.engCe_keeps | apply State.putLate_keeps | apply keeps_ite
      | apply keeps_foldl
  | split

theorem State.moves_keeps {s t : State} (h : Keeps s t) (y1 : State) (e : Nat) (x : Option Sys2Proof.XMove) (y :
    Option Sys2Proof.YMove) :
    Keeps s (State.moves t y1 e x y) := by
  unfold State.moves
  repeat' first
  | intro _
  | with_reducible assumption
  | fail_if_no_progress extract_lets +onlyGivenNames z
    first
    | (refine (have hz : Keeps s z := ?_; ?_))
      subst z
      rotate_left
      try clear_value z
    | try clear_value z
  | with_reducible
      first
      | apply State.putLate_keeps | apply State.useFree_keeps | apply State.yMove_keeps | apply State.xMove_keeps
      | apply keeps_ite | apply keeps_foldl
  | split

theorem State.engMac_keeps {s t : State} (h : Keeps s t) (e : Nat) (op : Nat) (ac : Nat) (da : Nat) (db : Nat) (u2 :
    Option Sys2Proof.MacUnit) (x : Option Sys2Proof.XMove) (y : Option Sys2Proof.YMove) :
    Keeps s (State.engMac t e op ac da db u2 x y) := by
  unfold State.engMac
  repeat' first
  | intro _
  | with_reducible assumption
  | fail_if_no_progress extract_lets +onlyGivenNames z
    first
    | (refine (have hz : Keeps s z := ?_; ?_))
      subst z
      rotate_left
      try clear_value z
    | try clear_value z
  | with_reducible
      first
      | apply State.moves_keeps | apply State.macUnit_keeps | apply State.engRun_keeps | apply keeps_ite
      | apply keeps_foldl
  | split

theorem State.engAcc_keeps {s t : State} (h : Keeps s t) (e : Nat) (ad : Nat) (rd : List Nat) (v : State → Int) :
    Keeps s (State.engAcc t e ad rd v) := by
  unfold State.engAcc
  repeat' first
  | intro _
  | with_reducible assumption
  | fail_if_no_progress extract_lets +onlyGivenNames z
    first
    | (refine (have hz : Keeps s z := ?_; ?_))
      subst z
      rotate_left
      try clear_value z
    | try clear_value z
  | with_reducible
      first
      | apply State.putAcc_keeps | apply State.engPlain_keeps | apply keeps_ite | apply keeps_foldl
  | split

theorem State.putSat_keeps {s t : State} (h : Keeps s t) (e : Nat) (dr : Nat) (v : Int) :
    Keeps s (State.putSat t e dr v) := by
  unfold State.putSat
  repeat' first
  | intro _
  | with_reducible assumption
  | fail_if_no_progress extract_lets +onlyGivenNames z
    first
    | (refine (have hz : Keeps s z := ?_; ?_))
      subst z
      rotate_left
      try clear_value z
    | try clear_value z
  | with_reducible
      first
      | apply State.esrPut_keeps | apply State.putD_keeps | apply State.when_keeps | apply keeps_ite
      | apply keeps_foldl
  | split

theorem State.backWord_keeps {s t : State} (h : Keeps s t) (r : Nat) (o : Nat) (v : Nat) :
    Keeps s (State.backWord t r o v) := by
  unfold State.backWord
  repeat' first
  | intro _
  | with_reducible assumption
  | fail_if_no_progress extract_lets +onlyGivenNames z
    first
    | (refine (have hz : Keeps s z := ?_; ?_))
      subst z
      rotate_left
      try clear_value z
    | try clear_value z
  | with_reducible
      first
      | apply State.errWrote_keeps | apply State.putWord_keeps | apply keeps_ite | apply keeps_foldl
  | split

theorem State.writeBack_keeps {s t : State} (h : Keeps s t) (e : Nat) :
    Keeps s (State.writeBack t e) := by
  unfold State.writeBack
  repeat' first
  | intro _
  | with_reducible assumption
  | fail_if_no_progress extract_lets +onlyGivenNames z
    first
    | (refine (have hz : Keeps s z := ?_; ?_))
      subst z
      rotate_left
      try clear_value z
    | try clear_value z
  | with_reducible
      first
      | apply State.backWord_keeps | apply State.each_keeps | apply keeps_ite | apply keeps_foldl
  | split
  | with_reducible apply keeps_mk

theorem State.engEnd_keeps {s t : State} (h : Keeps s t) (e : Nat) :
    Keeps s (State.engEnd t e) := by
  unfold State.engEnd
  repeat' first
  | intro _
  | with_reducible assumption
  | fail_if_no_progress extract_lets +onlyGivenNames z
    first
    | (refine (have hz : Keeps s z := ?_; ?_))
      subst z
      rotate_left
      try clear_value z
    | try clear_value z
  | with_reducible
      first
      | apply State.setEngSt_keeps | apply State.put_keeps | apply keeps_ite | apply keeps_foldl
  | split

theorem State.engDone_keeps {s t : State} (h : Keeps s t) (e : Nat) :
    Keeps s (State.engDone t e) := by
  unfold State.engDone
  repeat' first
  | intro _
  | with_reducible assumption
  | fail_if_no_progress extract_lets +onlyGivenNames z
    first
    | (refine (have hz : Keeps s z := ?_; ?_))
      subst z
      rotate_left
      try clear_value z
    | try clear_value z
  | with_reducible
      first
      | apply State.engEnd_keeps | apply State.completeInst_keeps | apply State.deliver_keeps
      | apply State.writeBack_keeps | apply State.post_keeps | apply State.failInst_keeps | apply State.cycStat_keeps
      | apply State.trc_keeps | apply State.restoreRec_keeps | apply State.slotDrop_keeps | apply State.report_keeps
      | apply State.injFired_keeps | apply State.when_keeps | apply State.put_keeps | apply keeps_ite
      | apply keeps_foldl
  | split

theorem execAdd_keeps {s t : State} (h : Keeps s t) (e : Nat) (dd : Nat) (da : Nat) (b : Sys2Proof.AluB) :
    KeepsOut s (execAdd e dd da b t) := by
  unfold execAdd
  repeat' first
  | intro _
  | with_reducible assumption
  | fail_if_no_progress extract_lets +onlyGivenNames z
    first
    | (refine (have hz : Keeps s z := ?_; ?_))
      subst z
      rotate_left
      try clear_value z
    | try clear_value z
  | with_reducible
      first
      | apply keepsOut_next | apply State.engAlu_keeps | apply keeps_ite | apply keeps_foldl
  | split

theorem execSub_keeps {s t : State} (h : Keeps s t) (e : Nat) (dd : Nat) (da : Nat) (b : Sys2Proof.AluB) :
    KeepsOut s (execSub e dd da b t) := by
  unfold execSub
  repeat' first
  | intro _
  | with_reducible assumption
  | fail_if_no_progress extract_lets +onlyGivenNames z
    first
    | (refine (have hz : Keeps s z := ?_; ?_))
      subst z
      rotate_left
      try clear_value z
    | try clear_value z
  | with_reducible
      first
      | apply keepsOut_next | apply State.engAlu_keeps | apply keeps_ite | apply keeps_foldl
  | split

theorem execAdds_keeps {s t : State} (h : Keeps s t) (e : Nat) (dd : Nat) (da : Nat) (b : Sys2Proof.AluB) :
    KeepsOut s (execAdds e dd da b t) := by
  unfold execAdds
  repeat' first
  | intro _
  | with_reducible assumption
  | fail_if_no_progress extract_lets +onlyGivenNames z
    first
    | (refine (have hz : Keeps s z := ?_; ?_))
      subst z
      rotate_left
      try clear_value z
    | try clear_value z
  | with_reducible
      first
      | apply keepsOut_next | apply State.engAlu_keeps | apply keeps_ite | apply keeps_foldl
  | split

theorem execSubs_keeps {s t : State} (h : Keeps s t) (e : Nat) (dd : Nat) (da : Nat) (b : Sys2Proof.AluB) :
    KeepsOut s (execSubs e dd da b t) := by
  unfold execSubs
  repeat' first
  | intro _
  | with_reducible assumption
  | fail_if_no_progress extract_lets +onlyGivenNames z
    first
    | (refine (have hz : Keeps s z := ?_; ?_))
      subst z
      rotate_left
      try clear_value z
    | try clear_value z
  | with_reducible
      first
      | apply keepsOut_next | apply State.engAlu_keeps | apply keeps_ite | apply keeps_foldl
  | split

theorem execRsub_keeps {s t : State} (h : Keeps s t) (e : Nat) (dd : Nat) (da : Nat) (b : Sys2Proof.AluB) :
    KeepsOut s (execRsub e dd da b t) := by
  unfold execRsub
  repeat' first
  | intro _
  | with_reducible assumption
  | fail_if_no_progress extract_lets +onlyGivenNames z
    first
    | (refine (have hz : Keeps s z := ?_; ?_))
      subst z
      rotate_left
      try clear_value z
    | try clear_value z
  | with_reducible
      first
      | apply keepsOut_next | apply State.engAlu_keeps | apply keeps_ite | apply keeps_foldl
  | split

theorem execAnd_keeps {s t : State} (h : Keeps s t) (e : Nat) (dd : Nat) (da : Nat) (b : Sys2Proof.AluB) :
    KeepsOut s (execAnd e dd da b t) := by
  unfold execAnd
  repeat' first
  | intro _
  | with_reducible assumption
  | fail_if_no_progress extract_lets +onlyGivenNames z
    first
    | (refine (have hz : Keeps s z := ?_; ?_))
      subst z
      rotate_left
      try clear_value z
    | try clear_value z
  | with_reducible
      first
      | apply keepsOut_next | apply State.engAlu_keeps | apply keeps_ite | apply keeps_foldl
  | split

theorem execOr_keeps {s t : State} (h : Keeps s t) (e : Nat) (dd : Nat) (da : Nat) (b : Sys2Proof.AluB) :
    KeepsOut s (execOr e dd da b t) := by
  unfold execOr
  repeat' first
  | intro _
  | with_reducible assumption
  | fail_if_no_progress extract_lets +onlyGivenNames z
    first
    | (refine (have hz : Keeps s z := ?_; ?_))
      subst z
      rotate_left
      try clear_value z
    | try clear_value z
  | with_reducible
      first
      | apply keepsOut_next | apply State.engAlu_keeps | apply keeps_ite | apply keeps_foldl
  | split

theorem execXor_keeps {s t : State} (h : Keeps s t) (e : Nat) (dd : Nat) (da : Nat) (b : Sys2Proof.AluB) :
    KeepsOut s (execXor e dd da b t) := by
  unfold execXor
  repeat' first
  | intro _
  | with_reducible assumption
  | fail_if_no_progress extract_lets +onlyGivenNames z
    first
    | (refine (have hz : Keeps s z := ?_; ?_))
      subst z
      rotate_left
      try clear_value z
    | try clear_value z
  | with_reducible
      first
      | apply keepsOut_next | apply State.engAlu_keeps | apply keeps_ite | apply keeps_foldl
  | split

theorem execShl_keeps {s t : State} (h : Keeps s t) (e : Nat) (dd : Nat) (da : Nat) (b : Sys2Proof.AluB) :
    KeepsOut s (execShl e dd da b t) := by
  unfold execShl
  repeat' first
  | intro _
  | with_reducible assumption
  | fail_if_no_progress extract_lets +onlyGivenNames z
    first
    | (refine (have hz : Keeps s z := ?_; ?_))
      subst z
      rotate_left
      try clear_value z
    | try clear_value z
  | with_reducible
      first
      | apply keepsOut_next | apply State.engAlu_keeps | apply keeps_ite | apply keeps_foldl
  | split

theorem execShr_keeps {s t : State} (h : Keeps s t) (e : Nat) (dd : Nat) (da : Nat) (b : Sys2Proof.AluB) :
    KeepsOut s (execShr e dd da b t) := by
  unfold execShr
  repeat' first
  | intro _
  | with_reducible assumption
  | fail_if_no_progress extract_lets +onlyGivenNames z
    first
    | (refine (have hz : Keeps s z := ?_; ?_))
      subst z
      rotate_left
      try clear_value z
    | try clear_value z
  | with_reducible
      first
      | apply keepsOut_next | apply State.engAlu_keeps | apply keeps_ite | apply keeps_foldl
  | split

theorem execAsr_keeps {s t : State} (h : Keeps s t) (e : Nat) (dd : Nat) (da : Nat) (b : Sys2Proof.AluB) :
    KeepsOut s (execAsr e dd da b t) := by
  unfold execAsr
  repeat' first
  | intro _
  | with_reducible assumption
  | fail_if_no_progress extract_lets +onlyGivenNames z
    first
    | (refine (have hz : Keeps s z := ?_; ?_))
      subst z
      rotate_left
      try clear_value z
    | try clear_value z
  | with_reducible
      first
      | apply keepsOut_next | apply State.engAlu_keeps | apply keeps_ite | apply keeps_foldl
  | split

theorem execMin_keeps {s t : State} (h : Keeps s t) (e : Nat) (dd : Nat) (da : Nat) (b : Sys2Proof.AluB) :
    KeepsOut s (execMin e dd da b t) := by
  unfold execMin
  repeat' first
  | intro _
  | with_reducible assumption
  | fail_if_no_progress extract_lets +onlyGivenNames z
    first
    | (refine (have hz : Keeps s z := ?_; ?_))
      subst z
      rotate_left
      try clear_value z
    | try clear_value z
  | with_reducible
      first
      | apply keepsOut_next | apply State.engAlu_keeps | apply keeps_ite | apply keeps_foldl
  | split

theorem execMax_keeps {s t : State} (h : Keeps s t) (e : Nat) (dd : Nat) (da : Nat) (b : Sys2Proof.AluB) :
    KeepsOut s (execMax e dd da b t) := by
  unfold execMax
  repeat' first
  | intro _
  | with_reducible assumption
  | fail_if_no_progress extract_lets +onlyGivenNames z
    first
    | (refine (have hz : Keeps s z := ?_; ?_))
      subst z
      rotate_left
      try clear_value z
    | try clear_value z
  | with_reducible
      first
      | apply keepsOut_next | apply State.engAlu_keeps | apply keeps_ite | apply keeps_foldl
  | split

theorem execCmp_keeps {s t : State} (h : Keeps s t) (e : Nat) (da : Nat) (b : Sys2Proof.AluB) :
    KeepsOut s (execCmp e da b t) := by
  unfold execCmp
  repeat' first
  | intro _
  | with_reducible assumption
  | fail_if_no_progress extract_lets +onlyGivenNames z
    first
    | (refine (have hz : Keeps s z := ?_; ?_))
      subst z
      rotate_left
      try clear_value z
    | try clear_value z
  | with_reducible
      first
      | apply keepsOut_next | apply State.aluFlags_keeps | apply State.engPlain_keeps | apply keeps_ite
      | apply keeps_foldl
  | split

theorem execMov_keeps {s t : State} (h : Keeps s t) (e : Nat) (dd : Nat) (b : Sys2Proof.AluB) :
    KeepsOut s (execMov e dd b t) := by
  unfold execMov
  repeat' first
  | intro _
  | with_reducible assumption
  | fail_if_no_progress extract_lets +onlyGivenNames z
    first
    | (refine (have hz : Keeps s z := ?_; ?_))
      subst z
      rotate_left
      try clear_value z
    | try clear_value z
  | with_reducible
      first
      | apply keepsOut_next | apply State.engAlu_keeps | apply keeps_ite | apply keeps_foldl
  | split

theorem execAbs_keeps {s t : State} (h : Keeps s t) (e : Nat) (dd : Nat) (da : Nat) :
    KeepsOut s (execAbs e dd da t) := by
  unfold execAbs
  repeat' first
  | intro _
  | with_reducible assumption
  | fail_if_no_progress extract_lets +onlyGivenNames z
    first
    | (refine (have hz : Keeps s z := ?_; ?_))
      subst z
      rotate_left
      try clear_value z
    | try clear_value z
  | with_reducible
      first
      | apply keepsOut_next | apply State.engAlu_keeps | apply keeps_ite | apply keeps_foldl
  | split

theorem execNeg_keeps {s t : State} (h : Keeps s t) (e : Nat) (dd : Nat) (da : Nat) :
    KeepsOut s (execNeg e dd da t) := by
  unfold execNeg
  repeat' first
  | intro _
  | with_reducible assumption
  | fail_if_no_progress extract_lets +onlyGivenNames z
    first
    | (refine (have hz : Keeps s z := ?_; ?_))
      subst z
      rotate_left
      try clear_value z
    | try clear_value z
  | with_reducible
      first
      | apply keepsOut_next | apply State.engAlu_keeps | apply keeps_ite | apply keeps_foldl
  | split

theorem execLd32_keeps {s t : State} (h : Keeps s t) (e : Nat) (m : Sys2Proof.MemRef) (dr : Nat) :
    KeepsOut s (execLd32 e m dr t) := by
  unfold execLd32
  repeat' first
  | intro _
  | with_reducible assumption
  | fail_if_no_progress extract_lets +onlyGivenNames z
    first
    | (refine (have hz : Keeps s z := ?_; ?_))
      subst z
      rotate_left
      try clear_value z
    | try clear_value z
  | with_reducible
      first
      | apply keepsOut_next | apply State.engCe_keeps | apply State.putLate_keeps | apply State.postMod_keeps
      | apply State.engRun_keeps | apply keeps_ite | apply keeps_foldl
  | split

theorem execSt32_keeps {s t : State} (h : Keeps s t) (e : Nat) (m : Sys2Proof.MemRef) (dr : Nat) :
    KeepsOut s (execSt32 e m dr t) := by
  unfold execSt32
  repeat' first
  | intro _
  | with_reducible assumption
  | fail_if_no_progress extract_lets +onlyGivenNames z
    first
    | (refine (have hz : Keeps s z := ?_; ?_))
      subst z
      rotate_left
      try clear_value z
    | try clear_value z
  | with_reducible
      first
      | apply keepsOut_next | apply State.putEngWord_keeps | apply State.postMod_keeps | apply State.engRun_keeps
      | apply keeps_ite | apply keeps_foldl
  | split

theorem execLda_keeps {s t : State} (h : Keeps s t) (e : Nat) (m : Sys2Proof.MemRef) (ac : Nat) :
    KeepsOut s (execLda e m ac t) := by
  unfold execLda
  repeat' first
  | intro _
  | with_reducible assumption
  | fail_if_no_progress extract_lets +onlyGivenNames z
    first
    | (refine (have hz : Keeps s z := ?_; ?_))
      subst z
      rotate_left
      try clear_value z
    | try clear_value z
  | with_reducible
      first
      | apply keepsOut_next | apply State.engCe_keeps | apply State.putLate_keeps | apply State.postMod_keeps
      | apply State.engRun_keeps | apply keeps_ite | apply keeps_foldl
  | split

theorem execSta64_keeps {s t : State} (h : Keeps s t) (e : Nat) (m : Sys2Proof.MemRef) (ac : Nat) (sh : Nat) (rnd :
    Bool) :
    KeepsOut s (execSta64 e m ac sh rnd t) := by
  unfold execSta64
  repeat' first
  | intro _
  | with_reducible assumption
  | fail_if_no_progress extract_lets +onlyGivenNames z
    first
    | (refine (have hz : Keeps s z := ?_; ?_))
      subst z
      rotate_left
      try clear_value z
    | try clear_value z
  | with_reducible
      first
      | apply keepsOut_next | apply State.esrPut_keeps | apply State.putEngWord2_keeps | apply State.when_keeps
      | apply State.postMod_keeps | apply State.engRun_keeps | apply keeps_ite | apply keeps_foldl
  | split

theorem execSta32_keeps {s t : State} (h : Keeps s t) (e : Nat) (m : Sys2Proof.MemRef) (ac : Nat) (sh : Nat) (rnd :
    Bool) :
    KeepsOut s (execSta32 e m ac sh rnd t) := by
  unfold execSta32
  repeat' first
  | intro _
  | with_reducible assumption
  | fail_if_no_progress extract_lets +onlyGivenNames z
    first
    | (refine (have hz : Keeps s z := ?_; ?_))
      subst z
      rotate_left
      try clear_value z
    | try clear_value z
  | with_reducible
      first
      | apply keepsOut_next | apply State.esrPut_keeps | apply State.putEngWord_keeps | apply State.when_keeps
      | apply State.postMod_keeps | apply State.engRun_keeps | apply keeps_ite | apply keeps_foldl
  | split

theorem execFarLoad_keeps {s t : State} (h : Keeps s t) (e : Nat) (dr : Nat) (da : Nat) :
    KeepsOut s (execFarLoad e dr da t) := by
  unfold execFarLoad
  repeat' first
  | intro _
  | with_reducible assumption
  | fail_if_no_progress extract_lets +onlyGivenNames z
    first
    | (refine (have hz : Keeps s z := ?_; ?_))
      subst z
      rotate_left
      try clear_value z
    | try clear_value z
  | with_reducible
      first
      | apply keepsOut_next | apply State.put_keeps | apply State.esrPut_keeps | apply State.engRun_keeps
      | apply keeps_ite | apply keeps_foldl
  | split

theorem execFarLoadArrival_keeps {s t : State} (h : Keeps s t) (e : Nat) :
    KeepsOut s (execFarLoadArrival e t) := by
  unfold execFarLoadArrival
  repeat' first
  | intro _
  | with_reducible assumption
  | fail_if_no_progress extract_lets +onlyGivenNames z
    first
    | (refine (have hz : Keeps s z := ?_; ?_))
      subst z
      rotate_left
      try clear_value z
    | try clear_value z
  | with_reducible
      first
      | apply keepsOut_next | apply State.farArrive_keeps | apply keeps_ite | apply keeps_foldl
  | split

theorem execFarStore_keeps {s t : State} (h : Keeps s t) (e : Nat) (dr : Nat) (da : Nat) :
    KeepsOut s (execFarStore e dr da t) := by
  unfold execFarStore
  repeat' first
  | intro _
  | with_reducible assumption
  | fail_if_no_progress extract_lets +onlyGivenNames z
    first
    | (refine (have hz : Keeps s z := ?_; ?_))
      subst z
      rotate_left
      try clear_value z
    | try clear_value z
  | with_reducible
      first
      | apply keepsOut_next | apply State.putStoreWord_keeps | apply State.engRun_keeps | apply keeps_ite
      | apply keeps_foldl
  | split

theorem execLdi_keeps {s t : State} (h : Keeps s t) (e : Nat) (dd : Nat) (v : Nat) :
    KeepsOut s (execLdi e dd v t) := by
  unfold execLdi
  repeat' first
  | intro _
  | with_reducible assumption
  | fail_if_no_progress extract_lets +onlyGivenNames z
    first
    | (refine (have hz : Keeps s z := ?_; ?_))
      subst z
      rotate_left
      try clear_value z
    | try clear_value z
  | with_reducible
      first
      | apply keepsOut_next | apply State.putD_keeps | apply State.engRun_keeps | apply keeps_ite | apply keeps_foldl
  | split

theorem execLdia_keeps {s t : State} (h : Keeps s t) (e : Nat) (ad : Nat) (sh : Nat) (v : Nat) :
    KeepsOut s (execLdia e ad sh v t) := by
  unfold execLdia
  repeat' first
  | intro _
  | with_reducible assumption
  | fail_if_no_progress extract_lets +onlyGivenNames z
    first
    | (refine (have hz : Keeps s z := ?_; ?_))
      subst z
      rotate_left
      try clear_value z
    | try clear_value z
  | with_reducible
      first
      | apply keepsOut_next | apply State.put_keeps | apply State.engRun_keeps | apply keeps_ite | apply keeps_foldl
  | split

theorem execMpy_keeps {s t : State} (h : Keeps s t) (e : Nat) (ac : Nat) (da : Nat) (db : Nat) (u2 : Option
    Sys2Proof.MacUnit) (x : Option Sys2Proof.XMove) (y : Option Sys2Proof.YMove) :
    KeepsOut s (execMpy e ac da db u2 x y t) := by
  unfold execMpy
  repeat' first
  | intro _
  | with_reducible assumption
  | fail_if_no_progress extract_lets +onlyGivenNames z
    first
    | (refine (have hz : Keeps s z := ?_; ?_))
      subst z
      rotate_left
      try clear_value z
    | try clear_value z
  | with_reducible
      first
      | apply keepsOut_next | apply State.engMac_keeps | apply keeps_ite | apply keeps_foldl
  | split

theorem execMac_keeps {s t : State} (h : Keeps s t) (e : Nat) (ac : Nat) (da : Nat) (db : Nat) (u2 : Option
    Sys2Proof.MacUnit) (x : Option Sys2Proof.XMove) (y : Option Sys2Proof.YMove) :
    KeepsOut s (execMac e ac da db u2 x y t) := by
  unfold execMac
  repeat' first
  | intro _
  | with_reducible assumption
  | fail_if_no_progress extract_lets +onlyGivenNames z
    first
    | (refine (have hz : Keeps s z := ?_; ?_))
      subst z
      rotate_left
      try clear_value z
    | try clear_value z
  | with_reducible
      first
      | apply keepsOut_next | apply State.engMac_keeps | apply keeps_ite | apply keeps_foldl
  | split

theorem execMsu_keeps {s t : State} (h : Keeps s t) (e : Nat) (ac : Nat) (da : Nat) (db : Nat) (u2 : Option
    Sys2Proof.MacUnit) (x : Option Sys2Proof.XMove) (y : Option Sys2Proof.YMove) :
    KeepsOut s (execMsu e ac da db u2 x y t) := by
  unfold execMsu
  repeat' first
  | intro _
  | with_reducible assumption
  | fail_if_no_progress extract_lets +onlyGivenNames z
    first
    | (refine (have hz : Keeps s z := ?_; ?_))
      subst z
      rotate_left
      try clear_value z
    | try clear_value z
  | with_reducible
      first
      | apply keepsOut_next | apply State.engMac_keeps | apply keeps_ite | apply keeps_foldl
  | split

theorem execParallelMove_keeps {s t : State} (h : Keeps s t) (e : Nat) (x : Option Sys2Proof.XMove) (y : Option
    Sys2Proof.YMove) :
    KeepsOut s (execParallelMove e x y t) := by
  unfold execParallelMove
  repeat' first
  | intro _
  | with_reducible assumption
  | fail_if_no_progress extract_lets +onlyGivenNames z
    first
    | (refine (have hz : Keeps s z := ?_; ?_))
      subst z
      rotate_left
      try clear_value z
    | try clear_value z
  | with_reducible
      first
      | apply keepsOut_next | apply State.moves_keeps | apply State.engRun_keeps | apply keeps_ite | apply keeps_foldl
  | split

theorem execTapm_keeps {s t : State} (h : Keeps s t) (e : Nat) (ac : Nat) (subtract : Bool) (px : Nat) (py : Nat) :
    KeepsOut s (execTapm e ac subtract px py t) := by
  unfold execTapm
  repeat' first
  | intro _
  | with_reducible assumption
  | fail_if_no_progress extract_lets +onlyGivenNames z
    first
    | (refine (have hz : Keeps s z := ?_; ?_))
      subst z
      rotate_left
      try clear_value z
    | try clear_value z
  | with_reducible
      first
      | apply keepsOut_next | apply State.put_keeps | apply State.putEngWord_keeps | apply State.putAcc_keeps
      | apply State.engCe_keeps | apply State.engRun_keeps | apply keeps_ite | apply keeps_foldl
  | split

theorem execClra_keeps {s t : State} (h : Keeps s t) (e : Nat) (ad : Nat) :
    KeepsOut s (execClra e ad t) := by
  unfold execClra
  repeat' first
  | intro _
  | with_reducible assumption
  | fail_if_no_progress extract_lets +onlyGivenNames z
    first
    | (refine (have hz : Keeps s z := ?_; ?_))
      subst z
      rotate_left
      try clear_value z
    | try clear_value z
  | with_reducible
      first
      | apply keepsOut_next | apply State.engAcc_keeps | apply keeps_ite | apply keeps_foldl
  | split

theorem execMova_keeps {s t : State} (h : Keeps s t) (e : Nat) (ad : Nat) (src : Nat) :
    KeepsOut s (execMova e ad src t) := by
  unfold execMova
  repeat' first
  | intro _
  | with_reducible assumption
  | fail_if_no_progress extract_lets +onlyGivenNames z
    first
    | (refine (have hz : Keeps s z := ?_; ?_))
      subst z
      rotate_left
      try clear_value z
    | try clear_value z
  | with_reducible
      first
      | apply keepsOut_next | apply State.engAcc_keeps | apply keeps_ite | apply keeps_foldl
  | split

theorem execAdda_keeps {s t : State} (h : Keeps s t) (e : Nat) (ad : Nat) (src : Nat) :
    KeepsOut s (execAdda e ad src t) := by
  unfold execAdda
  repeat' first
  | intro _
  | with_reducible assumption
  | fail_if_no_progress extract_lets +onlyGivenNames z
    first
    | (refine (have hz : Keeps s z := ?_; ?_))
      subst z
      rotate_left
      try clear_value z
    | try clear_value z
  | with_reducible
      first
      | apply keepsOut_next | apply State.engAcc_keeps | apply keeps_ite | apply keeps_foldl
  | split

theorem execSuba_keeps {s t : State} (h : Keeps s t) (e : Nat) (ad : Nat) (src : Nat) :
    KeepsOut s (execSuba e ad src t) := by
  unfold execSuba
  repeat' first
  | intro _
  | with_reducible assumption
  | fail_if_no_progress extract_lets +onlyGivenNames z
    first
    | (refine (have hz : Keeps s z := ?_; ?_))
      subst z
      rotate_left
      try clear_value z
    | try clear_value z
  | with_reducible
      first
      | apply keepsOut_next | apply State.engAcc_keeps | apply keeps_ite | apply keeps_foldl
  | split

theorem execNega_keeps {s t : State} (h : Keeps s t) (e : Nat) (ad : Nat) (src : Nat) :
    KeepsOut s (execNega e ad src t) := by
  unfold execNega
  repeat' first
  | intro _
  | with_reducible assumption
  | fail_if_no_progress extract_lets +onlyGivenNames z
    first
    | (refine (have hz : Keeps s z := ?_; ?_))
      subst z
      rotate_left
      try clear_value z
    | try clear_value z
  | with_reducible
      first
      | apply keepsOut_next | apply State.engAcc_keeps | apply keeps_ite | apply keeps_foldl
  | split

theorem execShla_keeps {s t : State} (h : Keeps s t) (e : Nat) (ad : Nat) (src : Nat) (sh : Nat) :
    KeepsOut s (execShla e ad src sh t) := by
  unfold execShla
  repeat' first
  | intro _
  | with_reducible assumption
  | fail_if_no_progress extract_lets +onlyGivenNames z
    first
    | (refine (have hz : Keeps s z := ?_; ?_))
      subst z
      rotate_left
      try clear_value z
    | try clear_value z
  | with_reducible
      first
      | apply keepsOut_next | apply State.engAcc_keeps | apply keeps_ite | apply keeps_foldl
  | split

theorem execShra_keeps {s t : State} (h : Keeps s t) (e : Nat) (ad : Nat) (src : Nat) (sh : Nat) :
    KeepsOut s (execShra e ad src sh t) := by
  unfold execShra
  repeat' first
  | intro _
  | with_reducible assumption
  | fail_if_no_progress extract_lets +onlyGivenNames z
    first
    | (refine (have hz : Keeps s z := ?_; ?_))
      subst z
      rotate_left
      try clear_value z
    | try clear_value z
  | with_reducible
      first
      | apply keepsOut_next | apply State.engAcc_keeps | apply keeps_ite | apply keeps_foldl
  | split

theorem execMva_keeps {s t : State} (h : Keeps s t) (e : Nat) (dr : Nat) (src : Nat) (sh : Nat) (rnd : Bool) :
    KeepsOut s (execMva e dr src sh rnd t) := by
  unfold execMva
  repeat' first
  | intro _
  | with_reducible assumption
  | fail_if_no_progress extract_lets +onlyGivenNames z
    first
    | (refine (have hz : Keeps s z := ?_; ?_))
      subst z
      rotate_left
      try clear_value z
    | try clear_value z
  | with_reducible
      first
      | apply keepsOut_next | apply State.putSat_keeps | apply State.engPlain_keeps | apply keeps_ite
      | apply keeps_foldl
  | split

theorem execSout_keeps {s t : State} (h : Keeps s t) (e : Nat) (dr : Nat) (src : Nat) (dk : Nat) (rnd : Bool) :
    KeepsOut s (execSout e dr src dk rnd t) := by
  unfold execSout
  repeat' first
  | intro _
  | with_reducible assumption
  | fail_if_no_progress extract_lets +onlyGivenNames z
    first
    | (refine (have hz : Keeps s z := ?_; ?_))
      subst z
      rotate_left
      try clear_value z
    | try clear_value z
  | with_reducible
      first
      | apply keepsOut_next | apply State.putSat_keeps | apply State.putD_keeps | apply State.engPlain_keeps
      | apply keeps_ite | apply keeps_foldl
  | split

theorem execLdad_keeps {s t : State} (h : Keeps s t) (e : Nat) (ad : Nat) (dr : Nat) (sh : Nat) :
    KeepsOut s (execLdad e ad dr sh t) := by
  unfold execLdad
  repeat' first
  | intro _
  | with_reducible assumption
  | fail_if_no_progress extract_lets +onlyGivenNames z
    first
    | (refine (have hz : Keeps s z := ?_; ?_))
      subst z
      rotate_left
      try clear_value z
    | try clear_value z
  | with_reducible
      first
      | apply keepsOut_next | apply State.putOld_keeps | apply State.engPlain_keeps | apply keeps_ite
      | apply keeps_foldl
  | split

theorem execTsta_keeps {s t : State} (h : Keeps s t) (e : Nat) (src : Nat) :
    KeepsOut s (execTsta e src t) := by
  unfold execTsta
  repeat' first
  | intro _
  | with_reducible assumption
  | fail_if_no_progress extract_lets +onlyGivenNames z
    first
    | (refine (have hz : Keeps s z := ?_; ?_))
      subst z
      rotate_left
      try clear_value z
    | try clear_value z
  | with_reducible
      first
      | apply keepsOut_next | apply State.flagsZN_keeps | apply State.engPlain_keeps | apply keeps_ite
      | apply keeps_foldl
  | split

theorem execNop_keeps {s t : State} (h : Keeps s t) (e : Nat) :
    KeepsOut s (execNop e t) := by
  unfold execNop
  repeat' first
  | intro _
  | with_reducible assumption
  | fail_if_no_progress extract_lets +onlyGivenNames z
    first
    | (refine (have hz : Keeps s z := ?_; ?_))
      subst z
      rotate_left
      try clear_value z
    | try clear_value z
  | with_reducible
      first
      | apply keepsOut_next | apply State.engPlain_keeps | apply keeps_ite | apply keeps_foldl
  | split

theorem execDone_keeps {s t : State} (h : Keeps s t) (e : Nat) :
    KeepsOut s (execDone e t) := by
  unfold execDone
  repeat' first
  | intro _
  | with_reducible assumption
  | fail_if_no_progress extract_lets +onlyGivenNames z
    first
    | (refine (have hz : Keeps s z := ?_; ?_))
      subst z
      rotate_left
      try clear_value z
    | try clear_value z
  | with_reducible
      first
      | apply keepsOut_next | apply State.landLate_keeps | apply State.engDone_keeps | apply State.engAbort_keeps
      | apply keeps_ite | apply keeps_foldl
  | split

theorem execPub_keeps {s t : State} (h : Keeps s t) (e : Nat) (dr : Nat) (w : Nat) :
    KeepsOut s (execPub e dr w t) := by
  unfold execPub
  repeat' first
  | intro _
  | with_reducible assumption
  | fail_if_no_progress extract_lets +onlyGivenNames z
    first
    | (refine (have hz : Keeps s z := ?_; ?_))
      subst z
      rotate_left
      try clear_value z
    | try clear_value z
  | with_reducible
      first
      | apply keepsOut_next | apply State.put_keeps | apply State.engPlain_keeps | apply keeps_ite | apply keeps_foldl
  | split

theorem execProt_keeps {s t : State} (h : Keeps s t) (e : Nat) (n : Nat) :
    KeepsOut s (execProt e n t) := by
  unfold execProt
  repeat' first
  | intro _
  | with_reducible assumption
  | fail_if_no_progress extract_lets +onlyGivenNames z
    first
    | (refine (have hz : Keeps s z := ?_; ?_))
      subst z
      rotate_left
      try clear_value z
    | try clear_value z
  | with_reducible
      first
      | apply keepsOut_next | apply State.put_keeps | apply State.engRun_keeps | apply keeps_ite | apply keeps_foldl
  | split

theorem execBrkl_keeps {s t : State} (h : Keeps s t) (e : Nat) :
    KeepsOut s (execBrkl e t) := by
  unfold execBrkl
  repeat' first
  | intro _
  | with_reducible assumption
  | fail_if_no_progress extract_lets +onlyGivenNames z
    first
    | (refine (have hz : Keeps s z := ?_; ?_))
      subst z
      rotate_left
      try clear_value z
    | try clear_value z
  | with_reducible
      first
      | apply keepsOut_next | apply State.put_keeps | apply State.engPlain_keeps | apply keeps_ite | apply keeps_foldl
  | split

theorem execMvfs_keeps {s t : State} (h : Keeps s t) (e : Nat) (dr : Nat) (code : Nat) :
    KeepsOut s (execMvfs e dr code t) := by
  unfold execMvfs
  repeat' first
  | intro _
  | with_reducible assumption
  | fail_if_no_progress extract_lets +onlyGivenNames z
    first
    | (refine (have hz : Keeps s z := ?_; ?_))
      subst z
      rotate_left
      try clear_value z
    | try clear_value z
  | with_reducible
      first
      | apply keepsOut_next | apply State.putD_keeps | apply State.engRun_keeps | apply keeps_ite | apply keeps_foldl
  | split

theorem execMvts_keeps {s t : State} (h : Keeps s t) (e : Nat) (code : Nat) (dr : Nat) :
    KeepsOut s (execMvts e code dr t) := by
  unfold execMvts
  repeat' first
  | intro _
  | with_reducible assumption
  | fail_if_no_progress extract_lets +onlyGivenNames z
    first
    | (refine (have hz : Keeps s z := ?_; ?_))
      subst z
      rotate_left
      try clear_value z
    | try clear_value z
  | with_reducible
      first
      | apply keepsOut_next | apply State.putSpecial_keeps | apply State.engRun_keeps | apply keeps_ite
      | apply keeps_foldl
  | split

theorem execSpush_keeps {s t : State} (h : Keeps s t) (e : Nat) (code : Nat) :
    KeepsOut s (execSpush e code t) := by
  unfold execSpush
  repeat' first
  | intro _
  | with_reducible assumption
  | fail_if_no_progress extract_lets +onlyGivenNames z
    first
    | (refine (have hz : Keeps s z := ?_; ?_))
      subst z
      rotate_left
      try clear_value z
    | try clear_value z
  | with_reducible
      first
      | apply keepsOut_next | apply State.put_keeps | apply State.putEngWord_keeps | apply State.engRun_keeps
      | apply keeps_ite | apply keeps_foldl
  | split

theorem execSpop_keeps {s t : State} (h : Keeps s t) (e : Nat) (code : Nat) :
    KeepsOut s (execSpop e code t) := by
  unfold execSpop
  repeat' first
  | intro _
  | with_reducible assumption
  | fail_if_no_progress extract_lets +onlyGivenNames z
    first
    | (refine (have hz : Keeps s z := ?_; ?_))
      subst z
      rotate_left
      try clear_value z
    | try clear_value z
  | with_reducible
      first
      | apply keepsOut_next | apply State.engCe_keeps | apply State.put_keeps | apply State.putSpecial_keeps
      | apply State.engRun_keeps | apply keeps_ite | apply keeps_foldl
  | split

theorem execDisp_keeps {s t : State} (h : Keeps s t) (e : Nat) :
    KeepsOut s (execDisp e t) := by
  unfold execDisp
  repeat' first
  | intro _
  | with_reducible assumption
  | fail_if_no_progress extract_lets +onlyGivenNames z
    first
    | (refine (have hz : Keeps s z := ?_; ?_))
      subst z
      rotate_left
      try clear_value z
    | try clear_value z
  | with_reducible
      first
      | apply keepsOut_next | apply State.putInst_keeps | apply State.saveRec_keeps | apply State.engStart_keeps
      | apply State.slotLoad_keeps | apply State.incSat_keeps | apply State.put_keeps | apply State.when_keeps
      | apply State.trc_keeps | apply State.landLate_keeps | apply State.engPlain_keeps | apply State.engAbort_keeps
      | apply keeps_ite | apply keeps_foldl
  | split

theorem execReti_keeps {s t : State} (h : Keeps s t) (e : Nat) :
    KeepsOut s (execReti e t) := by
  unfold execReti
  repeat' first
  | intro _
  | with_reducible assumption
  | fail_if_no_progress extract_lets +onlyGivenNames z
    first
    | (refine (have hz : Keeps s z := ?_; ?_))
      subst z
      rotate_left
      try clear_value z
    | try clear_value z
  | with_reducible
      first
      | apply keepsOut_next | apply State.putInst_keeps | apply State.trc_keeps | apply State.put_keeps
      | apply State.putOld_keeps | apply State.engRun_keeps | apply keeps_ite | apply keeps_foldl
  | split

theorem execBr_keeps {s t : State} (h : Keeps s t) (e : Nat) (cond : Nat) (tgt : Sys2Proof.BrTgt) :
    KeepsOut s (execBr e cond tgt t) := by
  unfold execBr
  repeat' first
  | intro _
  | with_reducible assumption
  | fail_if_no_progress extract_lets +onlyGivenNames z
    first
    | (refine (have hz : Keeps s z := ?_; ?_))
      subst z
      rotate_left
      try clear_value z
    | try clear_value z
  | with_reducible
      first
      | apply keepsOut_next | apply State.branchNot_keeps | apply State.branchTo_keeps | apply State.engRun_keeps
      | apply keeps_ite | apply keeps_foldl
  | split

theorem execCall_keeps {s t : State} (h : Keeps s t) (e : Nat) (cond : Nat) (tgt : Sys2Proof.BrTgt) :
    KeepsOut s (execCall e cond tgt t) := by
  unfold execCall
  repeat' first
  | intro _
  | with_reducible assumption
  | fail_if_no_progress extract_lets +onlyGivenNames z
    first
    | (refine (have hz : Keeps s z := ?_; ?_))
      subst z
      rotate_left
      try clear_value z
    | try clear_value z
  | with_reducible
      first
      | apply keepsOut_next | apply State.branchNot_keeps | apply State.branchTo_keeps | apply State.putD_keeps
      | apply State.engRun_keeps | apply keeps_ite | apply keeps_foldl
  | split

theorem execBrl_keeps {s t : State} (h : Keeps s t) (e : Nat) (cond : Nat) (link : Bool) (tgt : Nat) :
    KeepsOut s (execBrl e cond link tgt t) := by
  unfold execBrl
  repeat' first
  | intro _
  | with_reducible assumption
  | fail_if_no_progress extract_lets +onlyGivenNames z
    first
    | (refine (have hz : Keeps s z := ?_; ?_))
      subst z
      rotate_left
      try clear_value z
    | try clear_value z
  | with_reducible
      first
      | apply keepsOut_next | apply State.branchNot_keeps | apply State.putD_keeps | apply State.branchTo_keeps
      | apply State.when_keeps | apply State.engRun_keeps | apply keeps_ite | apply keeps_foldl
  | split

theorem execLoop_keeps {s t : State} (h : Keeps s t) (e : Nat) (count : Sys2Proof.AluB) (fin : Nat) :
    KeepsOut s (execLoop e count fin t) := by
  unfold execLoop
  repeat' first
  | intro _
  | with_reducible assumption
  | fail_if_no_progress extract_lets +onlyGivenNames z
    first
    | (refine (have hz : Keeps s z := ?_; ?_))
      subst z
      rotate_left
      try clear_value z
    | try clear_value z
  | with_reducible
      first
      | apply keepsOut_next | apply State.put_keeps | apply State.engRunOf_keeps | apply keeps_ite | apply keeps_foldl
  | split

theorem execWdog_keeps {s t : State} (h : Keeps s t) (e : Nat) :
    KeepsOut s (execWdog e t) := by
  unfold execWdog
  repeat' first
  | intro _
  | with_reducible assumption
  | fail_if_no_progress extract_lets +onlyGivenNames z
    first
    | (refine (have hz : Keeps s z := ?_; ?_))
      subst z
      rotate_left
      try clear_value z
    | try clear_value z
  | with_reducible
      first
      | apply keepsOut_next | apply State.engAbort_keeps | apply keeps_ite | apply keeps_foldl
  | split

theorem execPreemption_keeps {s t : State} (h : Keeps s t) (e : Nat) :
    KeepsOut s (execPreemption e t) := by
  unfold execPreemption
  repeat' first
  | intro _
  | with_reducible assumption
  | fail_if_no_progress extract_lets +onlyGivenNames z
    first
    | (refine (have hz : Keeps s z := ?_; ?_))
      subst z
      rotate_left
      try clear_value z
    | try clear_value z
  | with_reducible
      first
      | apply keepsOut_next | apply State.incSat_keeps | apply State.trc_keeps | apply State.putInst_keeps
      | apply State.put_keeps | apply State.landLate_keeps | apply keeps_ite | apply keeps_foldl
  | split

theorem stateOr_keeps {s t : State} {o : Out} (ho : KeepsOut s o) : Keeps s (stateOr t o) := by
  obtain ⟨u, rfl, k⟩ := ho
  exact k

theorem engExec_keeps {s t : State} (h : Keeps s t) (i : Instr) : Keeps s (engExec i t) := by
  unfold engExec
  refine stateOr_keeps ?_
  split
  · exact execNop_keeps h ..
  · exact execDone_keeps h ..
  · exact execPub_keeps h ..
  · exact execProt_keeps h ..
  · exact execBrkl_keeps h ..
  · exact execMvfs_keeps h ..
  · exact execMvts_keeps h ..
  · exact execSpush_keeps h ..
  · exact execSpop_keeps h ..
  · exact execDisp_keeps h ..
  · exact execReti_keeps h ..
  · exact execAdd_keeps h ..
  · exact execSub_keeps h ..
  · exact execAdds_keeps h ..
  · exact execSubs_keeps h ..
  · exact execRsub_keeps h ..
  · exact execAnd_keeps h ..
  · exact execOr_keeps h ..
  · exact execXor_keeps h ..
  · exact execShl_keeps h ..
  · exact execShr_keeps h ..
  · exact execAsr_keeps h ..
  · exact execMin_keeps h ..
  · exact execMax_keeps h ..
  · exact execCmp_keeps h ..
  · exact execMov_keeps h ..
  · exact execAbs_keeps h ..
  · exact execNeg_keeps h ..
  · exact execLd32_keeps h ..
  · exact execSt32_keeps h ..
  · exact execLda_keeps h ..
  · exact execSta64_keeps h ..
  · exact execSta32_keeps h ..
  · exact execMpy_keeps h ..
  · exact execMac_keeps h ..
  · exact execMsu_keeps h ..
  · exact execParallelMove_keeps h ..
  · exact execTapm_keeps h ..
  · exact execClra_keeps h ..
  · exact execMova_keeps h ..
  · exact execAdda_keeps h ..
  · exact execSuba_keeps h ..
  · exact execNega_keeps h ..
  · exact execShla_keeps h ..
  · exact execShra_keeps h ..
  · exact execMva_keeps h ..
  · exact execSout_keeps h ..
  · exact execLdad_keeps h ..
  · exact execTsta_keeps h ..
  · exact execBr_keeps h ..
  · exact execCall_keeps h ..
  · exact execLoop_keeps h ..
  · exact execFarLoad_keeps h ..
  · exact execFarStore_keeps h ..
  · exact execLdi_keeps h ..
  · exact execLdia_keeps h ..
  · exact execBrl_keeps h ..
  · exact keepsOut_next h

theorem State.engFetch_keeps {s t : State} (h : Keeps s t) (e : Nat) :
    Keeps s (State.engFetch t e) := by
  unfold State.engFetch
  repeat' first
  | intro _
  | with_reducible assumption
  | fail_if_no_progress extract_lets +onlyGivenNames z
    first
    | (refine (have hz : Keeps s z := ?_; ?_))
      subst z
      rotate_left
      try clear_value z
    | try clear_value z
  | with_reducible
      first
      | apply State.engAbort_keeps | apply engExec_keeps | apply State.engCe_keeps | apply State.engExc_keeps
      | apply keeps_ite | apply keeps_foldl
  | split

end Sys2Proof.Machine
end

