-- ==== Sys2Proof/Laws/KeepsAxis.lean ====
section
/-! SUPPORT. What the operations of axes, trajectories, homing, compare and capture keep: each keeps the queue and the invariant. -/

set_option linter.unusedTactic false
set_option linter.unreachableTactic false
set_option linter.tactic.unusedName false

namespace Sys2Proof.Machine

theorem execRecordLoadDone_keeps {s t : State} (h : Keeps s t) (e : Nat) :
    KeepsOut s (execRecordLoadDone e t) := by
  unfold execRecordLoadDone
  repeat' first
  | intro _
  | with_reducible assumption
  | fail_if_no_progress extract_lets +onlyGivenNames z
    first
    | (refine (have hz : Keeps s z := ?_; ?_))
      subst z
      rotate_left
      try clear_value z
    | try clear_value z
  | with_reducible
      first
      | apply keepsOut_next | apply State.put_keeps | apply keeps_ite | apply keeps_foldl
  | split

theorem execClauseDispatch_keeps {s t : State} (h : Keeps s t) :
    KeepsOut s (execClauseDispatch t) := by
  unfold execClauseDispatch
  repeat' first
  | intro _
  | with_reducible assumption
  | fail_if_no_progress extract_lets +onlyGivenNames z
    first
    | (refine (have hz : Keeps s z := ?_; ?_))
      subst z
      rotate_left
      try clear_value z
    | try clear_value z
  | with_reducible
      first
      | apply keepsOut_next | apply State.dispatchTo_keeps | apply keeps_ite | apply keeps_foldl
  | split

theorem execSelfTestComplete_keeps {s t : State} (h : Keeps s t) (e : Nat) (pass : Bool) :
    KeepsOut s (execSelfTestComplete e pass t) := by
  unfold execSelfTestComplete
  repeat' first
  | intro _
  | with_reducible assumption
  | fail_if_no_progress extract_lets +onlyGivenNames z
    first
    | (refine (have hz : Keeps s z := ?_; ?_))
      subst z
      rotate_left
      try clear_value z
    | try clear_value z
  | with_reducible
      first
      | apply keepsOut_next | apply State.quarantined_keeps | apply State.report_keeps | apply State.setService_keeps
      | apply State.setEngSt_keeps | apply State.put_keeps | apply State.injFired_keeps | apply State.when_keeps
      | apply keeps_ite | apply keeps_foldl
  | split

theorem execDeadline_keeps {s t : State} (h : Keeps s t) (d : Nat) :
    KeepsOut s (execDeadline d t) := by
  unfold execDeadline
  repeat' first
  | intro _
  | with_reducible assumption
  | fail_if_no_progress extract_lets +onlyGivenNames z
    first
    | (refine (have hz : Keeps s z := ?_; ?_))
      subst z
      rotate_left
      try clear_value z
    | try clear_value z
  | with_reducible
      first
      | apply keepsOut_next | apply State.pastDeadline_keeps | apply keeps_ite | apply keeps_foldl
  | split

theorem execOverrunFault_keeps {s t : State} (h : Keeps s t) (a : Nat) :
    KeepsOut s (execOverrunFault a t) := by
  unfold execOverrunFault
  repeat' first
  | intro _
  | with_reducible assumption
  | fail_if_no_progress extract_lets +onlyGivenNames z
    first
    | (refine (have hz : Keeps s z := ?_; ?_))
      subst z
      rotate_left
      try clear_value z
    | try clear_value z
  | with_reducible
      first
      | apply keepsOut_next | apply State.post_keeps | apply keeps_ite | apply keeps_foldl
  | split

theorem execBudget_keeps {s t : State} (h : Keeps s t) (e : Nat) :
    KeepsOut s (execBudget e t) := by
  unfold execBudget
  repeat' first
  | intro _
  | with_reducible assumption
  | fail_if_no_progress extract_lets +onlyGivenNames z
    first
    | (refine (have hz : Keeps s z := ?_; ?_))
      subst z
      rotate_left
      try clear_value z
    | try clear_value z
  | with_reducible
      first
      | apply keepsOut_next | apply State.putInst_keeps | apply State.trc_keeps | apply keeps_ite | apply keeps_foldl
  | split

theorem keeps_trcTail {s t : State} (h : Keeps s t) {r : Nat} {l : List Nat} (hl : t.trcBuf = r :: l) :
    Keeps s { t with trcBuf := l } :=
  keeps_trc h fun hb => by rw [hl] at hb; simp only [List.length_cons] at hb; omega

theorem execTraceDrain_keeps {s t : State} (h : Keeps s t) : KeepsOut s (execTraceDrain t) := by
  unfold execTraceDrain
  refine keepsOut_next ?_
  split
  · exact h
  rename_i hb
  split
  · exact h
  extract_lets +onlyGivenNames i z
  have hz : Keeps s z := State.store_keeps (State.errFix_keeps (keeps_trcTail h hb) ..) ..
  clear_value z
  repeat' first
  | intro _
  | with_reducible assumption
  | fail_if_no_progress extract_lets +onlyGivenNames z
    first
    | (refine (have hz : Keeps s z := ?_; ?_))
      subst z
      rotate_left
      try clear_value z
    | try clear_value z
  | with_reducible
      first
      | apply State.put_keeps
      | apply State.when_keeps | apply State.incWrap_keeps | apply State.trcTrigger_keeps | apply keeps_ite
  | split

theorem execTraceFreeze_keeps {s t : State} (h : Keeps s t) : KeepsOut s (execTraceFreeze t) := by
  unfold execTraceFreeze
  refine keepsOut_next ?_
  split
  · exact State.cause_keeps (keeps_trc (State.put_keeps (State.put_keeps (State.put_keeps (State.put_keeps
      (State.put_keeps h ..) ..) ..) ..) ..) fun _ => Nat.zero_le _) 3
  · exact h

theorem State.trcFreezeW_keeps {s t : State} (h : Keeps s t) :
    Keeps s (State.trcFreezeW t) := by
  unfold State.trcFreezeW
  repeat' first
  | intro _
  | with_reducible assumption
  | fail_if_no_progress extract_lets +onlyGivenNames z
    first
    | (refine (have hz : Keeps s z := ?_; ?_))
      subst z
      rotate_left
      try clear_value z
    | try clear_value z
  | with_reducible
      first
      | apply State.put_keeps | apply State.trcTrigger_keeps | apply keeps_ite | apply keeps_foldl
  | split

theorem execSchTrcCtlFreeze_keeps {s t : State} (h : Keeps s t) :
    KeepsOut s (execSchTrcCtlFreeze t) := by
  unfold execSchTrcCtlFreeze
  repeat' first
  | intro _
  | with_reducible assumption
  | fail_if_no_progress extract_lets +onlyGivenNames z
    first
    | (refine (have hz : Keeps s z := ?_; ?_))
      subst z
      rotate_left
      try clear_value z
    | try clear_value z
  | with_reducible
      first
      | apply keepsOut_next | apply State.trcFreezeW_keeps | apply State.hostWord_keeps | apply keeps_ite
      | apply keeps_foldl
  | split

theorem execSchTrcCtlArm_keeps {s t : State} (h : Keeps s t) :
    KeepsOut s (execSchTrcCtlArm t) := by
  unfold execSchTrcCtlArm
  repeat' first
  | intro _
  | with_reducible assumption
  | fail_if_no_progress extract_lets +onlyGivenNames z
    first
    | (refine (have hz : Keeps s z := ?_; ?_))
      subst z
      rotate_left
      try clear_value z
    | try clear_value z
  | with_reducible
      first
      | apply keepsOut_next | apply State.put_keeps | apply State.hostWord_keeps | apply keeps_ite | apply keeps_foldl
  | split

theorem execSchTrcCtlRelease_keeps {s t : State} (h : Keeps s t) :
    KeepsOut s (execSchTrcCtlRelease t) := by
  unfold execSchTrcCtlRelease
  repeat' first
  | intro _
  | with_reducible assumption
  | fail_if_no_progress extract_lets +onlyGivenNames z
    first
    | (refine (have hz : Keeps s z := ?_; ?_))
      subst z
      rotate_left
      try clear_value z
    | try clear_value z
  | with_reducible
      first
      | apply keepsOut_next | apply State.put_keeps | apply State.hostWord_keeps | apply keeps_ite | apply keeps_foldl
  | split

theorem State.codeApply_keeps {s t : State} (h : Keeps s t) :
    Keeps s (State.codeApply t) := by
  unfold State.codeApply
  repeat' first
  | intro _
  | with_reducible assumption
  | fail_if_no_progress extract_lets +onlyGivenNames z
    first
    | (refine (have hz : Keeps s z := ?_; ?_))
      subst z
      rotate_left
      try clear_value z
    | try clear_value z
  | with_reducible
      first
      | apply State.errWrote_keeps | apply State.setBytes_keeps | apply State.each_keeps | apply keeps_ite
      | apply keeps_foldl
  | split
  | with_reducible apply keeps_mk

theorem execCodeLoad_keeps {s t : State} (h : Keeps s t) (mb : Nat) :
    KeepsOut s (execCodeLoad mb t) := by
  unfold execCodeLoad
  repeat' first
  | intro _
  | with_reducible assumption
  | fail_if_no_progress extract_lets +onlyGivenNames z
    first
    | (refine (have hz : Keeps s z := ?_; ?_))
      subst z
      rotate_left
      try clear_value z
    | try clear_value z
  | with_reducible
      first
      | apply keepsOut_next | apply State.dirty_keeps | apply State.done_keeps | apply State.engBack_keeps
      | apply State.progReload_keeps | apply State.put_keeps | apply State.when_keeps | apply State.each_keeps
      | apply State.fail_keeps | apply State.request_keeps | apply keeps_ite | apply keeps_foldl
  | split
  | with_reducible apply keeps_mk

theorem execDescWrite_keeps {s t : State} (h : Keeps s t) (mb : Nat) :
    KeepsOut s (execDescWrite mb t) := by
  unfold execDescWrite
  dsimp only
  repeat' first
  | intro _
  | with_reducible assumption
  | with_reducible
      first
      | apply keepsOut_next | apply State.descStage_keeps | apply State.dirty_keeps | apply State.done_keeps
      | apply State.fail_keeps | apply State.request_keeps | apply keeps_ite | apply keeps_foldl
  | split

theorem execSchConfig_keeps {s t : State} (h : Keeps s t) (mb : Nat) :
    KeepsOut s (execSchConfig mb t) := by
  unfold execSchConfig
  repeat' first
  | intro _
  | with_reducible assumption
  | fail_if_no_progress extract_lets +onlyGivenNames z
    first
    | (refine (have hz : Keeps s z := ?_; ?_))
      subst z
      rotate_left
      try clear_value z
    | try clear_value z
  | with_reducible
      first
      | apply keepsOut_next | apply State.loadUpdate_keeps | apply State.dirty_keeps | apply State.done_keeps
      | apply State.put_keeps | apply State.request_keeps | apply keeps_ite | apply keeps_foldl
  | split

theorem State.setMotion_keeps {s t : State} (h : Keeps s t) (m : Motion) :
    Keeps s (State.setMotion t m) := by
  unfold State.setMotion
  repeat' first
  | intro _
  | with_reducible assumption
  | fail_if_no_progress extract_lets +onlyGivenNames z
    first
    | (refine (have hz : Keeps s z := ?_; ?_))
      subst z
      rotate_left
      try clear_value z
    | try clear_value z
  | with_reducible
      first
      | apply keeps_ite | apply keeps_foldl
  | split
  | with_reducible apply keeps_mk

theorem State.insMotion_keeps {s t : State} (h : Keeps s t) (m : Motion) :
    Keeps s (State.insMotion t m) := by
  unfold State.insMotion
  repeat' first
  | intro _
  | with_reducible assumption
  | fail_if_no_progress extract_lets +onlyGivenNames z
    first
    | (refine (have hz : Keeps s z := ?_; ?_))
      subst z
      rotate_left
      try clear_value z
    | try clear_value z
  | with_reducible
      first
      | apply keeps_ite | apply keeps_foldl
  | split
  | with_reducible apply keeps_mk

theorem State.showMotion_keeps {s t : State} (h : Keeps s t) (m : Motion) :
    Keeps s (State.showMotion t m) := by
  unfold State.showMotion
  repeat' first
  | intro _
  | with_reducible assumption
  | fail_if_no_progress extract_lets +onlyGivenNames z
    first
    | (refine (have hz : Keeps s z := ?_; ?_))
      subst z
      rotate_left
      try clear_value z
    | try clear_value z
  | with_reducible
      first
      | apply State.puti_keeps | apply State.put_keeps | apply keeps_ite | apply keeps_foldl
  | split

theorem State.flushSegs_keeps {s t : State} (h : Keeps s t) (a : Nat) (st : Nat) :
    Keeps s (State.flushSegs t a st) := by
  unfold State.flushSegs
  repeat' first
  | intro _
  | with_reducible assumption
  | fail_if_no_progress extract_lets +onlyGivenNames z
    first
    | (refine (have hz : Keeps s z := ?_; ?_))
      subst z
      rotate_left
      try clear_value z
    | try clear_value z
  | with_reducible
      first
      | apply State.put_keeps | apply keeps_ite | apply keeps_foldl
  | split
  | with_reducible apply keeps_mk

theorem State.flushTable_keeps {s t : State} (h : Keeps s t) (a : Nat) (st : Nat) (y3 : Nat) :
    Keeps s (State.flushTable t a st y3) := by
  unfold State.flushTable
  repeat' first
  | intro _
  | with_reducible assumption
  | fail_if_no_progress extract_lets +onlyGivenNames z
    first
    | (refine (have hz : Keeps s z := ?_; ?_))
      subst z
      rotate_left
      try clear_value z
    | try clear_value z
  | with_reducible
      first
      | apply State.insMotion_keeps | apply State.flushSegs_keeps | apply keeps_ite | apply keeps_foldl
  | split

theorem State.quickStop_keeps {s t : State} (h : Keeps s t) (a : Nat) (y2 : Nat) :
    Keeps s (State.quickStop t a y2) := by
  unfold State.quickStop
  repeat' first
  | intro _
  | with_reducible assumption
  | fail_if_no_progress extract_lets +onlyGivenNames z
    first
    | (refine (have hz : Keeps s z := ?_; ?_))
      subst z
      rotate_left
      try clear_value z
    | try clear_value z
  | with_reducible
      first
      | apply State.setMotion_keeps | apply State.showMotion_keeps | apply keeps_ite | apply keeps_foldl
  | split

theorem State.holdFrom_keeps {s t : State} (h : Keeps s t) (a : Nat) (y2 : Nat) :
    Keeps s (State.holdFrom t a y2) := by
  unfold State.holdFrom
  repeat' first
  | intro _
  | with_reducible assumption
  | fail_if_no_progress extract_lets +onlyGivenNames z
    first
    | (refine (have hz : Keeps s z := ?_; ?_))
      subst z
      rotate_left
      try clear_value z
    | try clear_value z
  | with_reducible
      first
      | apply State.setMotion_keeps | apply State.put_keeps | apply keeps_ite | apply keeps_foldl
  | split

theorem State.pruneMotions_keeps {s t : State} (h : Keeps s t) (a : Nat) :
    Keeps s (State.pruneMotions t a) := by
  unfold State.pruneMotions
  repeat' first
  | intro _
  | with_reducible assumption
  | fail_if_no_progress extract_lets +onlyGivenNames z
    first
    | (refine (have hz : Keeps s z := ?_; ?_))
      subst z
      rotate_left
      try clear_value z
    | try clear_value z
  | with_reducible
      first
      | apply keeps_ite | apply keeps_foldl
  | split
  | with_reducible apply keeps_mk

theorem State.putStates_keeps {s t : State} (h : Keeps s t) (a : Nat) (k : Nat) (st : Int × Int) :
    Keeps s (State.putStates t a k st) := by
  unfold State.putStates
  repeat' first
  | intro _
  | with_reducible assumption
  | fail_if_no_progress extract_lets +onlyGivenNames z
    first
    | (refine (have hz : Keeps s z := ?_; ?_))
      subst z
      rotate_left
      try clear_value z
    | try clear_value z
  | with_reducible
      first
      | apply State.puti_keeps | apply keeps_ite | apply keeps_foldl
  | split

theorem State.secRun_keeps {s t : State} (h : Keeps s t) (a : Nat) (k : Nat) (x : Int) :
    Keeps s (State.secRun t a k x) := by
  unfold State.secRun
  repeat' first
  | intro _
  | with_reducible assumption
  | fail_if_no_progress extract_lets +onlyGivenNames z
    first
    | (refine (have hz : Keeps s z := ?_; ?_))
      subst z
      rotate_left
      try clear_value z
    | try clear_value z
  | with_reducible
      first
      | apply State.putStates_keeps | apply State.when_keeps | apply State.puti_keeps | apply State.put_keeps
      | apply keeps_ite | apply keeps_foldl
  | split

theorem State.runStageFrom_keeps {s : State} (a : Nat) (l : List Nat) : ∀ {t : State}, Keeps s t → ∀ x,
    Keeps s (State.runStageFrom t a x l) := by
  induction l with
  | nil => exact fun h _ => h
  | cons k l ih => exact fun h x => ih (State.secRun_keeps h ..) _

theorem State.seedSec_keeps {s t : State} (h : Keeps s t) (a : Nat) (k : Nat) (st : Int × Int) (y : Int) :
    Keeps s (State.seedSec t a k st y) := by
  unfold State.seedSec
  repeat' first
  | intro _
  | with_reducible assumption
  | fail_if_no_progress extract_lets +onlyGivenNames z
    first
    | (refine (have hz : Keeps s z := ?_; ?_))
      subst z
      rotate_left
      try clear_value z
    | try clear_value z
  | with_reducible
      first
      | apply State.putStates_keeps | apply State.puti_keeps | apply State.put_keeps | apply keeps_ite
      | apply keeps_foldl
  | split

theorem State.seedChain_keeps {s : State} (a : Nat) (l : List Nat) : ∀ {t : State}, Keeps s t → ∀ x,
    Keeps s (State.seedChain t a x l) := by
  induction l with
  | nil => exact fun h _ => h
  | cons k l ih =>
    intro t h x
    unfold State.seedChain
    split
    · exact ih (State.seedSec_keeps h ..) _
    · exact ih (State.put_keeps (State.puti_keeps (State.puti_keeps h _ _ a k) _ _ a k) ..) _

theorem State.seedZero_keeps {s t : State} (h : Keeps s t) (a : Nat) (l : List Nat) :
    Keeps s (State.seedZero t a l) := by
  unfold State.seedZero
  repeat' first
  | intro _
  | with_reducible assumption
  | fail_if_no_progress extract_lets +onlyGivenNames z
    first
    | (refine (have hz : Keeps s z := ?_; ?_))
      subst z
      rotate_left
      try clear_value z
    | try clear_value z
  | with_reducible
      first
      | apply State.puti_keeps | apply State.put_keeps | apply State.seedSec_keeps | apply State.each_keeps
      | apply keeps_ite | apply keeps_foldl
  | split

theorem State.seedLast_keeps {s t : State} (h : Keeps s t) (a : Nat) (k : Nat) (x : Int) (y4 : Int) (s2 : Int) :
    Keeps s (State.seedLast t a k x y4 s2) := by
  unfold State.seedLast
  repeat' first
  | intro _
  | with_reducible assumption
  | fail_if_no_progress extract_lets +onlyGivenNames z
    first
    | (refine (have hz : Keeps s z := ?_; ?_))
      subst z
      rotate_left
      try clear_value z
    | try clear_value z
  | with_reducible
      first
      | apply State.seedSec_keeps | apply keeps_ite | apply keeps_foldl
  | split

theorem State.seedCarrier_keeps {s t : State} (h : Keeps s t) (a : Nat) (l : List Nat) (y3 : Int) :
    Keeps s (State.seedCarrier t a l y3) := by
  unfold State.seedCarrier
  repeat' first
  | intro _
  | with_reducible assumption
  | fail_if_no_progress extract_lets +onlyGivenNames z
    first
    | (refine (have hz : Keeps s z := ?_; ?_))
      subst z
      rotate_left
      try clear_value z
    | try clear_value z
  | with_reducible
      first
      | apply State.seedLast_keeps | apply State.seedSec_keeps | apply State.seedChain_keeps
      | apply State.seedZero_keeps | apply State.useFree_keeps | apply State.when_keeps | apply keeps_ite
      | apply keeps_foldl
  | split

theorem State.seed_keeps {s t : State} (h : Keeps s t) (a : Nat) (y2 : Int) :
    Keeps s (State.seed t a y2) := by
  unfold State.seed
  repeat' first
  | intro _
  | with_reducible assumption
  | fail_if_no_progress extract_lets +onlyGivenNames z
    first
    | (refine (have hz : Keeps s z := ?_; ?_))
      subst z
      rotate_left
      try clear_value z
    | try clear_value z
  | with_reducible
      first
      | apply State.seedLast_keeps | apply State.seedChain_keeps | apply State.seedCarrier_keeps
      | apply State.seedZero_keeps | apply keeps_ite | apply keeps_foldl
  | split

theorem State.ringPut_keeps {s t : State} (h : Keeps s t) (base : Nat) (size : Nat) (rec : List Nat) :
    Keeps s (State.ringPut t base size rec) := by
  unfold State.ringPut
  repeat' first
  | intro _
  | with_reducible assumption
  | fail_if_no_progress extract_lets +onlyGivenNames z
    first
    | (refine (have hz : Keeps s z := ?_; ?_))
      subst z
      rotate_left
      try clear_value z
    | try clear_value z
  | with_reducible
      first
      | apply State.store_keeps | apply State.setBytes_keeps | apply keeps_ite | apply keeps_foldl
  | split

theorem State.probeRecord_keeps {s t : State} (h : Keeps s t) (a : Nat) :
    Keeps s (State.probeRecord t a) := by
  unfold State.probeRecord
  repeat' first
  | intro _
  | with_reducible assumption
  | fail_if_no_progress extract_lets +onlyGivenNames z
    first
    | (refine (have hz : Keeps s z := ?_; ?_))
      subst z
      rotate_left
      try clear_value z
    | try clear_value z
  | with_reducible
      first
      | apply State.ringPut_keeps | apply State.put_keeps | apply State.incSat_keeps | apply State.when_keeps
      | apply State.incWrap_keeps | apply keeps_ite | apply keeps_foldl
  | split

theorem State.sweepSample_keeps {s t : State} (h : Keeps s t) (a : Nat) :
    Keeps s (State.sweepSample t a) := by
  unfold State.sweepSample
  repeat' first
  | intro _
  | with_reducible assumption
  | fail_if_no_progress extract_lets +onlyGivenNames z
    first
    | (refine (have hz : Keeps s z := ?_; ?_))
      subst z
      rotate_left
      try clear_value z
    | try clear_value z
  | with_reducible
      first
      | apply State.incSat_keeps | apply State.put_keeps | apply State.puti_keeps | apply State.when_keeps
      | apply State.each_keeps | apply keeps_ite | apply keeps_foldl
  | split

theorem State.feClear_keeps {s t : State} (h : Keeps s t) (a : Nat) :
    Keeps s (State.feClear t a) := by
  unfold State.feClear
  repeat' first
  | intro _
  | with_reducible assumption
  | fail_if_no_progress extract_lets +onlyGivenNames z
    first
    | (refine (have hz : Keeps s z := ?_; ?_))
      subst z
      rotate_left
      try clear_value z
    | try clear_value z
  | with_reducible
      first
      | apply State.put_keeps | apply keeps_ite | apply keeps_foldl
  | split

theorem State.supervise_keeps {s t : State} (h : Keeps s t) (a : Nat) (closed : Bool) :
    Keeps s (State.supervise t a closed) := by
  unfold State.supervise
  repeat' first
  | intro _
  | with_reducible assumption
  | fail_if_no_progress extract_lets +onlyGivenNames z
    first
    | (refine (have hz : Keeps s z := ?_; ?_))
      subst z
      rotate_left
      try clear_value z
    | try clear_value z
  | with_reducible
      first
      | apply State.incSat_keeps | apply State.post_keeps | apply State.when_keeps | apply State.feClear_keeps
      | apply State.put_keeps | apply keeps_ite | apply keeps_foldl
  | split

theorem State.stageAll_keeps {s t : State} (h : Keeps s t) (l : List (Nat × List Nat)) :
    Keeps s (State.stageAll t l) := by
  unfold State.stageAll
  repeat' first
  | intro _
  | with_reducible assumption
  | fail_if_no_progress extract_lets +onlyGivenNames z
    first
    | (refine (have hz : Keeps s z := ?_; ?_))
      subst z
      rotate_left
      try clear_value z
    | try clear_value z
  | with_reducible
      first
      | apply State.descStage_keeps | apply State.each_keeps | apply keeps_ite | apply keeps_foldl
  | split

theorem State.relink_keeps {s t : State} (h : Keeps s t) (a : Nat) :
    Keeps s (State.relink t a) := by
  unfold State.relink
  repeat' first
  | intro _
  | with_reducible assumption
  | fail_if_no_progress extract_lets +onlyGivenNames z
    first
    | (refine (have hz : Keeps s z := ?_; ?_))
      subst z
      rotate_left
      try clear_value z
    | try clear_value z
  | with_reducible
      first
      | apply State.when_keeps | apply State.stageAll_keeps | apply keeps_ite | apply keeps_foldl
  | split

theorem State.freeDesc_keeps {s t : State} (h : Keeps s t) (d : Nat) :
    Keeps s (State.freeDesc t d) := by
  unfold State.freeDesc
  repeat' first
  | intro _
  | with_reducible assumption
  | fail_if_no_progress extract_lets +onlyGivenNames z
    first
    | (refine (have hz : Keeps s z := ?_; ?_))
      subst z
      rotate_left
      try clear_value z
    | try clear_value z
  | with_reducible
      first
      | apply State.descStage_keeps | apply keeps_ite | apply keeps_foldl
  | split

theorem State.brake_keeps {s t : State} (h : Keeps s t) (a : Nat) (applied : Bool) :
    Keeps s (State.brake t a applied) := by
  unfold State.brake
  repeat' first
  | intro _
  | with_reducible assumption
  | fail_if_no_progress extract_lets +onlyGivenNames z
    first
    | (refine (have hz : Keeps s z := ?_; ?_))
      subst z
      rotate_left
      try clear_value z
    | try clear_value z
  | with_reducible
      first
      | apply State.put_keeps | apply keeps_ite | apply keeps_foldl
  | split

theorem State.portDown_keeps {s t : State} (h : Keeps s t) (a : Nat) :
    Keeps s (State.portDown t a) := by
  unfold State.portDown
  repeat' first
  | intro _
  | with_reducible assumption
  | fail_if_no_progress extract_lets +onlyGivenNames z
    first
    | (refine (have hz : Keeps s z := ?_; ?_))
      subst z
      rotate_left
      try clear_value z
    | try clear_value z
  | with_reducible
      first
      | apply State.rdyUp_keeps | apply State.put_keeps | apply State.when_keeps | apply keeps_ite | apply keeps_foldl
  | split

theorem State.portUp_keeps {s t : State} (h : Keeps s t) (a : Nat) :
    Keeps s (State.portUp t a) := by
  unfold State.portUp
  repeat' first
  | intro _
  | with_reducible assumption
  | fail_if_no_progress extract_lets +onlyGivenNames z
    first
    | (refine (have hz : Keeps s z := ?_; ?_))
      subst z
      rotate_left
      try clear_value z
    | try clear_value z
  | with_reducible
      first
      | apply State.stageAt_keeps | apply State.rdyUp_keeps | apply State.put_keeps | apply State.when_keeps
      | apply keeps_ite | apply keeps_foldl
  | split

theorem State.torqueOff_keeps {s t : State} (h : Keeps s t) (a : Nat) :
    Keeps s (State.torqueOff t a) := by
  unfold State.torqueOff
  repeat' first
  | intro _
  | with_reducible assumption
  | fail_if_no_progress extract_lets +onlyGivenNames z
    first
    | (refine (have hz : Keeps s z := ?_; ?_))
      subst z
      rotate_left
      try clear_value z
    | try clear_value z
  | with_reducible
      first
      | apply State.landRefs_keeps | apply State.portDown_keeps | apply State.brake_keeps | apply State.put_keeps
      | apply keeps_ite | apply keeps_foldl
  | split

theorem State.cmpIdle_keeps {s t : State} (h : Keeps s t) (a : Nat) :
    Keeps s (State.cmpIdle t a) := by
  unfold State.cmpIdle
  repeat' first
  | intro _
  | with_reducible assumption
  | fail_if_no_progress extract_lets +onlyGivenNames z
    first
    | (refine (have hz : Keeps s z := ?_; ?_))
      subst z
      rotate_left
      try clear_value z
    | try clear_value z
  | with_reducible
      first
      | apply State.put_keeps | apply State.when_keeps | apply State.each_keeps | apply keeps_ite | apply keeps_foldl
  | split

theorem State.sweepEnd_keeps {s t : State} (h : Keeps s t) (c : Nat) (st : Nat) (status : Nat) :
    Keeps s (State.sweepEnd t c st status) := by
  unfold State.sweepEnd
  repeat' first
  | intro _
  | with_reducible assumption
  | fail_if_no_progress extract_lets +onlyGivenNames z
    first
    | (refine (have hz : Keeps s z := ?_; ?_))
      subst z
      rotate_left
      try clear_value z
    | try clear_value z
  | with_reducible
      first
      | apply State.relink_keeps | apply State.lopFinish_keeps | apply State.freeDesc_keeps | apply State.store_keeps
      | apply State.put_keeps | apply keeps_ite | apply keeps_foldl
  | split

theorem State.sweepsIdle_keeps {s t : State} (h : Keeps s t) (a : Nat) :
    Keeps s (State.sweepsIdle t a) := by
  unfold State.sweepsIdle
  repeat' first
  | intro _
  | with_reducible assumption
  | fail_if_no_progress extract_lets +onlyGivenNames z
    first
    | (refine (have hz : Keeps s z := ?_; ?_))
      subst z
      rotate_left
      try clear_value z
    | try clear_value z
  | with_reducible
      first
      | apply State.sweepEnd_keeps | apply State.when_keeps | apply State.each_keeps | apply keeps_ite
      | apply keeps_foldl
  | split

theorem State.learnDrop_keeps {s t : State} (h : Keeps s t) (a : Nat) :
    Keeps s (State.learnDrop t a) := by
  unfold State.learnDrop
  repeat' first
  | intro _
  | with_reducible assumption
  | fail_if_no_progress extract_lets +onlyGivenNames z
    first
    | (refine (have hz : Keeps s z := ?_; ?_))
      subst z
      rotate_left
      try clear_value z
    | try clear_value z
  | with_reducible
      first
      | apply State.put_keeps | apply keeps_ite | apply keeps_foldl
  | split

theorem State.learnOff_keeps {s t : State} (h : Keeps s t) (a : Nat) (y2 : Nat) :
    Keeps s (State.learnOff t a y2) := by
  unfold State.learnOff
  repeat' first
  | intro _
  | with_reducible assumption
  | fail_if_no_progress extract_lets +onlyGivenNames z
    first
    | (refine (have hz : Keeps s z := ?_; ?_))
      subst z
      rotate_left
      try clear_value z
    | try clear_value z
  | with_reducible
      first
      | apply State.put_keeps | apply State.when_keeps | apply keeps_ite | apply keeps_foldl
  | split

theorem State.homingOff_keeps {s t : State} (h : Keeps s t) (a : Nat) :
    Keeps s (State.homingOff t a) := by
  unfold State.homingOff
  repeat' first
  | intro _
  | with_reducible assumption
  | fail_if_no_progress extract_lets +onlyGivenNames z
    first
    | (refine (have hz : Keeps s z := ?_; ?_))
      subst z
      rotate_left
      try clear_value z
    | try clear_value z
  | with_reducible
      first
      | apply State.put_keeps | apply keeps_ite | apply keeps_foldl
  | split

theorem State.homingEnd_keeps {s t : State} (h : Keeps s t) (a : Nat) (status : Nat) (reason : Nat) :
    Keeps s (State.homingEnd t a status reason) := by
  unfold State.homingEnd
  repeat' first
  | intro _
  | with_reducible assumption
  | fail_if_no_progress extract_lets +onlyGivenNames z
    first
    | (refine (have hz : Keeps s z := ?_; ?_))
      subst z
      rotate_left
      try clear_value z
    | try clear_value z
  | with_reducible
      first
      | apply State.lopFinish_keeps | apply State.put_keeps | apply State.when_keeps | apply State.homingOff_keeps
      | apply keeps_ite | apply keeps_foldl
  | split

theorem State.functionsIdle_keeps {s t : State} (h : Keeps s t) (a : Nat) :
    Keeps s (State.functionsIdle t a) := by
  unfold State.functionsIdle
  repeat' first
  | intro _
  | with_reducible assumption
  | fail_if_no_progress extract_lets +onlyGivenNames z
    first
    | (refine (have hz : Keeps s z := ?_; ?_))
      subst z
      rotate_left
      try clear_value z
    | try clear_value z
  | with_reducible
      first
      | apply State.cmpIdle_keeps | apply State.flushTable_keeps | apply State.sweepsIdle_keeps
      | apply State.put_keeps | apply State.learnDrop_keeps | apply State.homingEnd_keeps | apply State.when_keeps
      | apply keeps_ite | apply keeps_foldl
  | split

theorem State.reactionDone_keeps {s t : State} (h : Keeps s t) (a : Nat) :
    Keeps s (State.reactionDone t a) := by
  unfold State.reactionDone
  repeat' first
  | intro _
  | with_reducible assumption
  | fail_if_no_progress extract_lets +onlyGivenNames z
    first
    | (refine (have hz : Keeps s z := ?_; ?_))
      subst z
      rotate_left
      try clear_value z
    | try clear_value z
  | with_reducible
      first
      | apply State.doneAll_keeps | apply State.failAll_keeps | apply State.put_keeps | apply keeps_ite
      | apply keeps_foldl
  | split

theorem State.stopPhase_keeps {s t : State} (h : Keeps s t) (a : Nat) (k : Nat) :
    Keeps s (State.stopPhase t a k) := by
  unfold State.stopPhase
  repeat' first
  | intro _
  | with_reducible assumption
  | fail_if_no_progress extract_lets +onlyGivenNames z
    first
    | (refine (have hz : Keeps s z := ?_; ?_))
      subst z
      rotate_left
      try clear_value z
    | try clear_value z
  | with_reducible
      first
      | apply State.put_keeps | apply keeps_ite | apply keeps_foldl
  | split

theorem State.seqTimes_keeps {s t : State} (h : Keeps s t) (a : Nat) :
    Keeps s (State.seqTimes t a) := by
  unfold State.seqTimes
  repeat' first
  | intro _
  | with_reducible assumption
  | fail_if_no_progress extract_lets +onlyGivenNames z
    first
    | (refine (have hz : Keeps s z := ?_; ?_))
      subst z
      rotate_left
      try clear_value z
    | try clear_value z
  | with_reducible
      first
      | apply State.put_keeps | apply keeps_ite | apply keeps_foldl
  | split

theorem State.react_keeps {s t : State} (h : Keeps s t) (a : Nat) (r : Nat) (y3 : Nat) :
    Keeps s (State.react t a r y3) := by
  unfold State.react
  repeat' first
  | intro _
  | with_reducible assumption
  | fail_if_no_progress extract_lets +onlyGivenNames z
    first
    | (refine (have hz : Keeps s z := ?_; ?_))
      subst z
      rotate_left
      try clear_value z
    | try clear_value z
  | with_reducible
      first
      | apply State.quickStop_keeps | apply State.brake_keeps | apply State.stopPhase_keeps
      | apply State.torqueOff_keeps | apply State.reactionDone_keeps | apply State.put_keeps
      | apply State.seqTimes_keeps | apply keeps_ite | apply keeps_foldl
  | split

theorem State.failEnable_keeps {s t : State} (h : Keeps s t) (a : Nat) (reason : Nat) :
    Keeps s (State.failEnable t a reason) := by
  unfold State.failEnable
  repeat' first
  | intro _
  | with_reducible assumption
  | fail_if_no_progress extract_lets +onlyGivenNames z
    first
    | (refine (have hz : Keeps s z := ?_; ?_))
      subst z
      rotate_left
      try clear_value z
    | try clear_value z
  | with_reducible
      first
      | apply State.failAll_keeps | apply keeps_ite | apply keeps_foldl
  | split

theorem State.frstStop_keeps {s t : State} (h : Keeps s t) (a : Nat) :
    Keeps s (State.frstStop t a) := by
  unfold State.frstStop
  repeat' first
  | intro _
  | with_reducible assumption
  | fail_if_no_progress extract_lets +onlyGivenNames z
    first
    | (refine (have hz : Keeps s z := ?_; ?_))
      subst z
      rotate_left
      try clear_value z
    | try clear_value z
  | with_reducible
      first
      | apply State.put_keeps | apply keeps_ite | apply keeps_foldl
  | split

theorem State.enterFault_keeps {s t : State} (h : Keeps s t) (a : Nat) (cls : Nat) (r : Nat) (y4 : Nat) :
    Keeps s (State.enterFault t a cls r y4) := by
  unfold State.enterFault
  repeat' first
  | intro _
  | with_reducible assumption
  | fail_if_no_progress extract_lets +onlyGivenNames z
    first
    | (refine (have hz : Keeps s z := ?_; ?_))
      subst z
      rotate_left
      try clear_value z
    | try clear_value z
  | with_reducible
      first
      | apply State.react_keeps | apply State.functionsIdle_keeps | apply State.when_keeps
      | apply State.failEnable_keeps | apply State.axEvt_keeps | apply State.put_keeps | apply State.evAdd_keeps
      | apply keeps_ite | apply keeps_foldl
  | split

theorem State.takeFault1_keeps {s t : State} (h : Keeps s t) (a : Nat) (cls : Nat) (r : Nat) (y4 : Nat) :
    Keeps s (State.takeFault1 t a cls r y4) := by
  unfold State.takeFault1
  repeat' first
  | intro _
  | with_reducible assumption
  | fail_if_no_progress extract_lets +onlyGivenNames z
    first
    | (refine (have hz : Keeps s z := ?_; ?_))
      subst z
      rotate_left
      try clear_value z
    | try clear_value z
  | with_reducible
      first
      | apply State.enterFault_keeps | apply State.react_keeps | apply State.evAdd_keeps | apply State.put_keeps
      | apply State.when_keeps | apply keeps_ite | apply keeps_foldl
  | split

theorem State.takeFault_keeps {s t : State} (h : Keeps s t) (a : Nat) (cls : Nat) (y3 : Nat) :
    Keeps s (State.takeFault t a cls y3) := by
  unfold State.takeFault
  repeat' first
  | intro _
  | with_reducible assumption
  | fail_if_no_progress extract_lets +onlyGivenNames z
    first
    | (refine (have hz : Keeps s z := ?_; ?_))
      subst z
      rotate_left
      try clear_value z
    | try clear_value z
  | with_reducible
      first
      | apply State.each_keeps | apply State.when_keeps | apply State.takeFault1_keeps | apply keeps_ite
      | apply keeps_foldl
  | split

theorem State.gfltRise_keeps {s t : State} (h : Keeps s t) (a : Nat) :
    Keeps s (State.gfltRise t a) := by
  unfold State.gfltRise
  repeat' first
  | intro _
  | with_reducible assumption
  | fail_if_no_progress extract_lets +onlyGivenNames z
    first
    | (refine (have hz : Keeps s z := ?_; ?_))
      subst z
      rotate_left
      try clear_value z
    | try clear_value z
  | with_reducible
      first
      | apply State.put_keeps | apply State.useFree_keeps | apply State.when_keeps | apply keeps_ite
      | apply keeps_foldl
  | split

theorem State.resetFault_keeps {s t : State} (h : Keeps s t) (a : Nat) :
    Keeps s (State.resetFault t a) := by
  unfold State.resetFault
  repeat' first
  | intro _
  | with_reducible assumption
  | fail_if_no_progress extract_lets +onlyGivenNames z
    first
    | (refine (have hz : Keeps s z := ?_; ?_))
      subst z
      rotate_left
      try clear_value z
    | try clear_value z
  | with_reducible
      first
      | apply State.torqueOff_keeps | apply State.frstStop_keeps | apply State.put_keeps | apply keeps_ite
      | apply keeps_foldl
  | split

theorem State.toConfigured_keeps {s t : State} (h : Keeps s t) (a : Nat) :
    Keeps s (State.toConfigured t a) := by
  unfold State.toConfigured
  repeat' first
  | intro _
  | with_reducible assumption
  | fail_if_no_progress extract_lets +onlyGivenNames z
    first
    | (refine (have hz : Keeps s z := ?_; ?_))
      subst z
      rotate_left
      try clear_value z
    | try clear_value z
  | with_reducible
      first
      | apply State.failAll_keeps | apply State.outDrop_keeps | apply State.torqueOff_keeps
      | apply State.frstStop_keeps | apply State.put_keeps | apply State.evAdd_keeps | apply State.when_keeps
      | apply keeps_ite | apply keeps_foldl
  | split

theorem State.toDisabled_keeps {s t : State} (h : Keeps s t) (a : Nat) :
    Keeps s (State.toDisabled t a) := by
  unfold State.toDisabled
  repeat' first
  | intro _
  | with_reducible assumption
  | fail_if_no_progress extract_lets +onlyGivenNames z
    first
    | (refine (have hz : Keeps s z := ?_; ?_))
      subst z
      rotate_left
      try clear_value z
    | try clear_value z
  | with_reducible
      first
      | apply State.doneAll_keeps | apply State.torqueOff_keeps | apply State.put_keeps | apply keeps_ite
      | apply keeps_foldl
  | split

theorem State.doneSt_keeps {s t : State} (h : Keeps s t) (mb : Nat) (a : Nat) :
    Keeps s (State.doneSt t mb a) := by
  unfold State.doneSt
  repeat' first
  | intro _
  | with_reducible assumption
  | fail_if_no_progress extract_lets +onlyGivenNames z
    first
    | (refine (have hz : Keeps s z := ?_; ?_))
      subst z
      rotate_left
      try clear_value z
    | try clear_value z
  | with_reducible
      first
      | apply State.done_keeps | apply keeps_ite | apply keeps_foldl
  | split

theorem State.failSt_keeps {s t : State} (h : Keeps s t) (mb : Nat) (a : Nat) (reason : Nat) :
    Keeps s (State.failSt t mb a reason) := by
  unfold State.failSt
  repeat' first
  | intro _
  | with_reducible assumption
  | fail_if_no_progress extract_lets +onlyGivenNames z
    first
    | (refine (have hz : Keeps s z := ?_; ?_))
      subst z
      rotate_left
      try clear_value z
    | try clear_value z
  | with_reducible
      first
      | apply State.fail_keeps | apply keeps_ite | apply keeps_foldl
  | split

theorem State.safeSync_keeps {s t : State} (h : Keeps s t) (a : Nat) :
    Keeps s (State.safeSync t a) := by
  unfold State.safeSync
  repeat' first
  | intro _
  | with_reducible assumption
  | fail_if_no_progress extract_lets +onlyGivenNames z
    first
    | (refine (have hz : Keeps s z := ?_; ?_))
      subst z
      rotate_left
      try clear_value z
    | try clear_value z
  | with_reducible
      first
      | apply State.put_keeps | apply State.relink_keeps | apply keeps_ite | apply keeps_foldl
  | split

theorem State.takeDemand_keeps {s t : State} (h : Keeps s t) (a : Nat) (r : Nat) (y3 : Nat) :
    Keeps s (State.takeDemand t a r y3) := by
  unfold State.takeDemand
  repeat' first
  | intro _
  | with_reducible assumption
  | fail_if_no_progress extract_lets +onlyGivenNames z
    first
    | (refine (have hz : Keeps s z := ?_; ?_))
      subst z
      rotate_left
      try clear_value z
    | try clear_value z
  | with_reducible
      first
      | apply State.takeFault1_keeps | apply State.each_keeps | apply State.enterFault_keeps
      | apply State.torqueOff_keeps | apply State.put_keeps | apply State.react_keeps | apply State.when_keeps
      | apply State.safeSync_keeps | apply keeps_ite | apply keeps_foldl
  | split

theorem State.takeFullStop_keeps {s t : State} (h : Keeps s t) (a : Nat) (y2 : Nat) (ramp : Bool) :
    Keeps s (State.takeFullStop t a y2 ramp) := by
  unfold State.takeFullStop
  repeat' first
  | intro _
  | with_reducible assumption
  | fail_if_no_progress extract_lets +onlyGivenNames z
    first
    | (refine (have hz : Keeps s z := ?_; ?_))
      subst z
      rotate_left
      try clear_value z
    | try clear_value z
  | with_reducible
      first
      | apply State.quickStop_keeps | apply State.stopPhase_keeps | apply State.seqTimes_keeps
      | apply State.functionsIdle_keeps | apply State.failEnable_keeps | apply State.put_keeps
      | apply State.torqueOff_keeps | apply State.doneAll_keeps | apply State.when_keeps | apply keeps_ite
      | apply keeps_foldl
  | split

theorem State.takeRelease_keeps {s t : State} (h : Keeps s t) (a : Nat) :
    Keeps s (State.takeRelease t a) := by
  unfold State.takeRelease
  repeat' first
  | intro _
  | with_reducible assumption
  | fail_if_no_progress extract_lets +onlyGivenNames z
    first
    | (refine (have hz : Keeps s z := ?_; ?_))
      subst z
      rotate_left
      try clear_value z
    | try clear_value z
  | with_reducible
      first
      | apply State.when_keeps | apply State.axEvt_keeps | apply State.torqueOff_keeps | apply State.put_keeps
      | apply keeps_ite | apply keeps_foldl
  | split

theorem State.takeLost_keeps {s t : State} (h : Keeps s t) (a : Nat) (y2 : Nat) :
    Keeps s (State.takeLost t a y2) := by
  unfold State.takeLost
  repeat' first
  | intro _
  | with_reducible assumption
  | fail_if_no_progress extract_lets +onlyGivenNames z
    first
    | (refine (have hz : Keeps s z := ?_; ?_))
      subst z
      rotate_left
      try clear_value z
    | try clear_value z
  | with_reducible
      first
      | apply State.takeFault_keeps | apply State.put_keeps | apply State.toConfigured_keeps | apply keeps_ite
      | apply keeps_foldl
  | split

theorem State.takeOnline_keeps {s t : State} (h : Keeps s t) (a : Nat) :
    Keeps s (State.takeOnline t a) := by
  unfold State.takeOnline
  repeat' first
  | intro _
  | with_reducible assumption
  | fail_if_no_progress extract_lets +onlyGivenNames z
    first
    | (refine (have hz : Keeps s z := ?_; ?_))
      subst z
      rotate_left
      try clear_value z
    | try clear_value z
  | with_reducible
      first
      | apply State.put_keeps | apply State.torqueOff_keeps | apply keeps_ite | apply keeps_foldl
  | split

theorem State.takeEnable_keeps {s t : State} (h : Keeps s t) (a : Nat) (mb : Nat) :
    Keeps s (State.takeEnable t a mb) := by
  unfold State.takeEnable
  repeat' first
  | intro _
  | with_reducible assumption
  | fail_if_no_progress extract_lets +onlyGivenNames z
    first
    | (refine (have hz : Keeps s z := ?_; ?_))
      subst z
      rotate_left
      try clear_value z
    | try clear_value z
  | with_reducible
      first
      | apply State.doneSt_keeps | apply State.portUp_keeps | apply State.wait_keeps | apply State.outDrop_keeps
      | apply State.put_keeps | apply State.failSt_keeps | apply keeps_ite | apply keeps_foldl
  | split

theorem State.startStop_keeps {s t : State} (h : Keeps s t) (a : Nat) (y2 : Nat) :
    Keeps s (State.startStop t a y2) := by
  unfold State.startStop
  repeat' first
  | intro _
  | with_reducible assumption
  | fail_if_no_progress extract_lets +onlyGivenNames z
    first
    | (refine (have hz : Keeps s z := ?_; ?_))
      subst z
      rotate_left
      try clear_value z
    | try clear_value z
  | with_reducible
      first
      | apply State.quickStop_keeps | apply State.holdFrom_keeps | apply State.stopPhase_keeps
      | apply State.seqTimes_keeps | apply State.functionsIdle_keeps | apply State.put_keeps | apply keeps_ite
      | apply keeps_foldl
  | split

theorem State.takeDisable_keeps {s t : State} (h : Keeps s t) (a : Nat) (mb : Nat) (y3 : Nat) :
    Keeps s (State.takeDisable t a mb y3) := by
  unfold State.takeDisable
  repeat' first
  | intro _
  | with_reducible assumption
  | fail_if_no_progress extract_lets +onlyGivenNames z
    first
    | (refine (have hz : Keeps s z := ?_; ?_))
      subst z
      rotate_left
      try clear_value z
    | try clear_value z
  | with_reducible
      first
      | apply State.failSt_keeps | apply State.doneSt_keeps | apply State.torqueOff_keeps | apply State.put_keeps
      | apply State.failEnable_keeps | apply State.startStop_keeps | apply State.wait_keeps | apply keeps_ite
      | apply keeps_foldl
  | split

theorem State.takeReset_keeps {s t : State} (h : Keeps s t) (a : Nat) (mb : Nat) :
    Keeps s (State.takeReset t a mb) := by
  unfold State.takeReset
  repeat' first
  | intro _
  | with_reducible assumption
  | fail_if_no_progress extract_lets +onlyGivenNames z
    first
    | (refine (have hz : Keeps s z := ?_; ?_))
      subst z
      rotate_left
      try clear_value z
    | try clear_value z
  | with_reducible
      first
      | apply State.resetFault_keeps | apply State.doneSt_keeps | apply State.wait_keeps | apply State.put_keeps
      | apply State.when_keeps | apply State.failSt_keeps | apply keeps_ite | apply keeps_foldl
  | split

theorem State.frstResolve_keeps {s t : State} (h : Keeps s t) (a : Nat) (ok : Bool) :
    Keeps s (State.frstResolve t a ok) := by
  unfold State.frstResolve
  repeat' first
  | intro _
  | with_reducible assumption
  | fail_if_no_progress extract_lets +onlyGivenNames z
    first
    | (refine (have hz : Keeps s z := ?_; ?_))
      subst z
      rotate_left
      try clear_value z
    | try clear_value z
  | with_reducible
      first
      | apply State.failAll_keeps | apply State.resetFault_keeps | apply State.doneAll_keeps
      | apply State.frstStop_keeps | apply keeps_ite | apply keeps_foldl
  | split

theorem State.takeRaise_keeps {s t : State} (h : Keeps s t) (a : Nat) (mb : Nat) (y3 : Nat) :
    Keeps s (State.takeRaise t a mb y3) := by
  unfold State.takeRaise
  repeat' first
  | intro _
  | with_reducible assumption
  | fail_if_no_progress extract_lets +onlyGivenNames z
    first
    | (refine (have hz : Keeps s z := ?_; ?_))
      subst z
      rotate_left
      try clear_value z
    | try clear_value z
  | with_reducible
      first
      | apply State.failSt_keeps | apply State.takeFault_keeps | apply State.done_keeps | apply keeps_ite
      | apply keeps_foldl
  | split

theorem State.rampEnded_keeps {s t : State} (h : Keeps s t) (a : Nat) :
    Keeps s (State.rampEnded t a) := by
  unfold State.rampEnded
  repeat' first
  | intro _
  | with_reducible assumption
  | fail_if_no_progress extract_lets +onlyGivenNames z
    first
    | (refine (have hz : Keeps s z := ?_; ?_))
      subst z
      rotate_left
      try clear_value z
    | try clear_value z
  | with_reducible
      first
      | apply State.brake_keeps | apply State.reactionDone_keeps | apply State.stopPhase_keeps | apply State.put_keeps
      | apply keeps_ite | apply keeps_foldl
  | split

theorem State.takeStopDone_keeps {s t : State} (h : Keeps s t) (a : Nat) :
    Keeps s (State.takeStopDone t a) := by
  unfold State.takeStopDone
  repeat' first
  | intro _
  | with_reducible assumption
  | fail_if_no_progress extract_lets +onlyGivenNames z
    first
    | (refine (have hz : Keeps s z := ?_; ?_))
      subst z
      rotate_left
      try clear_value z
    | try clear_value z
  | with_reducible
      first
      | apply State.doneAll_keeps | apply State.torqueOff_keeps | apply State.reactionDone_keeps
      | apply State.toDisabled_keeps | apply keeps_ite | apply keeps_foldl
  | split

theorem State.stopProgress_keeps {s t : State} (h : Keeps s t) (a : Nat) (y2 : Nat) :
    Keeps s (State.stopProgress t a y2) := by
  unfold State.stopProgress
  repeat' first
  | intro _
  | with_reducible assumption
  | fail_if_no_progress extract_lets +onlyGivenNames z
    first
    | (refine (have hz : Keeps s z := ?_; ?_))
      subst z
      rotate_left
      try clear_value z
    | try clear_value z
  | with_reducible
      first
      | apply State.put_keeps | apply State.rampEnded_keeps | apply keeps_ite | apply keeps_foldl
  | split

theorem State.takeSeeded_keeps {s t : State} (h : Keeps s t) (a : Nat) :
    Keeps s (State.takeSeeded t a) := by
  unfold State.takeSeeded
  repeat' first
  | intro _
  | with_reducible assumption
  | fail_if_no_progress extract_lets +onlyGivenNames z
    first
    | (refine (have hz : Keeps s z := ?_; ?_))
      subst z
      rotate_left
      try clear_value z
    | try clear_value z
  | with_reducible
      first
      | apply State.brake_keeps | apply State.put_keeps | apply State.doneAll_keeps | apply keeps_ite
      | apply keeps_foldl
  | split

theorem State.takeRaiseOff_keeps {s t : State} (h : Keeps s t) (a : Nat) (y2 : Nat) :
    Keeps s (State.takeRaiseOff t a y2) := by
  unfold State.takeRaiseOff
  repeat' first
  | intro _
  | with_reducible assumption
  | fail_if_no_progress extract_lets +onlyGivenNames z
    first
    | (refine (have hz : Keeps s z := ?_; ?_))
      subst z
      rotate_left
      try clear_value z
    | try clear_value z
  | with_reducible
      first
      | apply State.react_keeps | apply State.put_keeps | apply keeps_ite | apply keeps_foldl
  | split

theorem State.fioUpd_keeps {s t : State} (h : Keeps s t) :
    Keeps s (State.fioUpd t) := by
  unfold State.fioUpd
  repeat' first
  | intro _
  | with_reducible assumption
  | fail_if_no_progress extract_lets +onlyGivenNames z
    first
    | (refine (have hz : Keeps s z := ?_; ?_))
      subst z
      rotate_left
      try clear_value z
    | try clear_value z
  | with_reducible
      first
      | apply State.clearBit_keeps | apply State.put_keeps | apply State.orBit_keeps | apply State.when_keeps
      | apply State.each_keeps | apply keeps_ite | apply keeps_foldl
  | split

theorem State.capView_keeps {s t : State} (h : Keeps s t) (c : Nat) :
    Keeps s (State.capView t c) := by
  unfold State.capView
  repeat' first
  | intro _
  | with_reducible assumption
  | fail_if_no_progress extract_lets +onlyGivenNames z
    first
    | (refine (have hz : Keeps s z := ?_; ?_))
      subst z
      rotate_left
      try clear_value z
    | try clear_value z
  | with_reducible
      first
      | apply State.puti_keeps | apply State.put_keeps | apply keeps_ite | apply keeps_foldl
  | split

theorem State.capLost_keeps {s t : State} (h : Keeps s t) (c : Nat) :
    Keeps s (State.capLost t c) := by
  unfold State.capLost
  repeat' first
  | intro _
  | with_reducible assumption
  | fail_if_no_progress extract_lets +onlyGivenNames z
    first
    | (refine (have hz : Keeps s z := ?_; ?_))
      subst z
      rotate_left
      try clear_value z
    | try clear_value z
  | with_reducible
      first
      | apply State.put_keeps | apply State.incSat_keeps | apply keeps_ite | apply keeps_foldl
  | split

theorem State.capPush_keeps {s t : State} (h : Keeps s t) (x : CapEntry) : Keeps s (State.capPush t x) := by
  unfold State.capPush
  split
  · exact State.capLost_keeps h _
  · rename_i hn
    refine State.cause_keeps (State.capView_keeps (keeps_caps h fun hl c => ?_) _) 4
    rw [List.filter_append, List.length_append]
    by_cases hc : x.unit = c
    · subst hc
      simp only [State.capsOf] at hn
      simp
      omega
    · simpa [hc] using hl c

theorem State.capEdge_keeps {s t : State} (h : Keeps s t) (c : Nat) (y2 : Nat) (frac : Nat) (rising : Bool) :
    Keeps s (State.capEdge t c y2 frac rising) := by
  unfold State.capEdge
  repeat' first
  | intro _
  | with_reducible assumption
  | fail_if_no_progress extract_lets +onlyGivenNames z
    first
    | (refine (have hz : Keeps s z := ?_; ?_))
      subst z
      rotate_left
      try clear_value z
    | try clear_value z
  | with_reducible
      first
      | apply State.put_keeps | apply State.when_keeps | apply State.capLost_keeps | apply keeps_ite
      | apply keeps_foldl
  | split
  | with_reducible apply keeps_mk

theorem State.histPut_keeps {s t : State} (h : Keeps s t) (a : Nat) :
    Keeps s (State.histPut t a) := by
  unfold State.histPut
  repeat' first
  | intro _
  | with_reducible assumption
  | fail_if_no_progress extract_lets +onlyGivenNames z
    first
    | (refine (have hz : Keeps s z := ?_; ?_))
      subst z
      rotate_left
      try clear_value z
    | try clear_value z
  | with_reducible
      first
      | apply keeps_ite | apply keeps_foldl
  | split
  | with_reducible apply keeps_mk

theorem State.capWrite_keeps {s t : State} (h : Keeps s t) (a : Nat) :
    Keeps s (State.capWrite t a) := by
  unfold State.capWrite
  repeat' first
  | intro _
  | with_reducible assumption
  | fail_if_no_progress extract_lets +onlyGivenNames z
    first
    | (refine (have hz : Keeps s z := ?_; ?_))
      subst z
      rotate_left
      try clear_value z
    | try clear_value z
  | with_reducible
      first
      | apply State.capPush_keeps | apply State.each_keeps | apply keeps_ite | apply keeps_foldl
  | split
  | with_reducible apply keeps_mk

theorem State.trgSync_keeps {s t : State} (h : Keeps s t) :
    Keeps s (State.trgSync t) := by
  unfold State.trgSync
  repeat' first
  | intro _
  | with_reducible assumption
  | fail_if_no_progress extract_lets +onlyGivenNames z
    first
    | (refine (have hz : Keeps s z := ?_; ?_))
      subst z
      rotate_left
      try clear_value z
    | try clear_value z
  | with_reducible
      first
      | apply State.put_keeps | apply keeps_ite | apply keeps_foldl
  | split

theorem State.cmpOut_keeps {s t : State} (h : Keeps s t) :
    Keeps s (State.cmpOut t) := by
  unfold State.cmpOut
  repeat' first
  | intro _
  | with_reducible assumption
  | fail_if_no_progress extract_lets +onlyGivenNames z
    first
    | (refine (have hz : Keeps s z := ?_; ?_))
      subst z
      rotate_left
      try clear_value z
    | try clear_value z
  | with_reducible
      first
      | apply State.trgSync_keeps | apply State.fioUpd_keeps | apply keeps_ite | apply keeps_foldl
  | split

theorem State.cmpFire_keeps {s t : State} (h : Keeps s t) (u : Nat) (y2 : Nat) :
    Keeps s (State.cmpFire t u y2) := by
  unfold State.cmpFire
  repeat' first
  | intro _
  | with_reducible assumption
  | fail_if_no_progress extract_lets +onlyGivenNames z
    first
    | (refine (have hz : Keeps s z := ?_; ?_))
      subst z
      rotate_left
      try clear_value z
    | try clear_value z
  | with_reducible
      first
      | apply State.cause_keeps | apply State.incSat_keeps | apply State.cmpOut_keeps | apply State.put_keeps
      | apply State.when_keeps | apply keeps_ite | apply keeps_foldl
  | split
  | with_reducible apply keeps_mk

theorem State.cmpCross_keeps {s t : State} (h : Keeps s t) (u : Nat) (y2 : Nat) :
    Keeps s (State.cmpCross t u y2) := by
  unfold State.cmpCross
  repeat' first
  | intro _
  | with_reducible assumption
  | fail_if_no_progress extract_lets +onlyGivenNames z
    first
    | (refine (have hz : Keeps s z := ?_; ?_))
      subst z
      rotate_left
      try clear_value z
    | try clear_value z
  | with_reducible
      first
      | apply State.cmpFire_keeps | apply State.put_keeps | apply keeps_ite | apply keeps_foldl
  | split

theorem State.trackPut_keeps {s t : State} (h : Keeps s t) (x : Track) :
    Keeps s (State.trackPut t x) := by
  unfold State.trackPut
  repeat' first
  | intro _
  | with_reducible assumption
  | fail_if_no_progress extract_lets +onlyGivenNames z
    first
    | (refine (have hz : Keeps s z := ?_; ?_))
      subst z
      rotate_left
      try clear_value z
    | try clear_value z
  | with_reducible
      first
      | apply keeps_ite | apply keeps_foldl
  | split
  | with_reducible apply keeps_mk

theorem State.trackWrite_keeps {s t : State} (h : Keeps s t) (a : Nat) (t0 : Nat) :
    Keeps s (State.trackWrite t a t0) := by
  unfold State.trackWrite
  repeat' first
  | intro _
  | with_reducible assumption
  | fail_if_no_progress extract_lets +onlyGivenNames z
    first
    | (refine (have hz : Keeps s z := ?_; ?_))
      subst z
      rotate_left
      try clear_value z
    | try clear_value z
  | with_reducible
      first
      | apply State.trackPut_keeps | apply State.when_keeps | apply State.each_keeps | apply keeps_ite
      | apply keeps_foldl
  | split

theorem State.trackGap_keeps {s t : State} (h : Keeps s t) (u : Nat) (y2 : Nat) :
    Keeps s (State.trackGap t u y2) := by
  unfold State.trackGap
  repeat' first
  | intro _
  | with_reducible assumption
  | fail_if_no_progress extract_lets +onlyGivenNames z
    first
    | (refine (have hz : Keeps s z := ?_; ?_))
      subst z
      rotate_left
      try clear_value z
    | try clear_value z
  | with_reducible
      first
      | apply State.put_keeps | apply State.trackPut_keeps | apply keeps_ite | apply keeps_foldl
  | split

theorem State.trackBegin_keeps {s t : State} (h : Keeps s t) (u : Nat) (x : Track) :
    Keeps s (State.trackBegin t u x) := by
  unfold State.trackBegin
  repeat' first
  | intro _
  | with_reducible assumption
  | fail_if_no_progress extract_lets +onlyGivenNames z
    first
    | (refine (have hz : Keeps s z := ?_; ?_))
      subst z
      rotate_left
      try clear_value z
    | try clear_value z
  | with_reducible
      first
      | apply State.cmpFire_keeps | apply State.when_keeps | apply State.put_keeps | apply keeps_ite
      | apply keeps_foldl
  | split
  | with_reducible apply keeps_mk

theorem State.trackStep_keeps {s t : State} (h : Keeps s t) (u : Nat) (y2 : Nat) (closed : Bool) :
    Keeps s (State.trackStep t u y2 closed) := by
  unfold State.trackStep
  repeat' first
  | intro _
  | with_reducible assumption
  | fail_if_no_progress extract_lets +onlyGivenNames z
    first
    | (refine (have hz : Keeps s z := ?_; ?_))
      subst z
      rotate_left
      try clear_value z
    | try clear_value z
  | with_reducible
      first
      | apply State.trackGap_keeps | apply State.trackBegin_keeps | apply keeps_ite | apply keeps_foldl
  | split
  | with_reducible apply keeps_mk

theorem State.cmpArmNow_keeps {s t : State} (h : Keeps s t) (u : Nat) :
    Keeps s (State.cmpArmNow t u) := by
  unfold State.cmpArmNow
  repeat' first
  | intro _
  | with_reducible assumption
  | fail_if_no_progress extract_lets +onlyGivenNames z
    first
    | (refine (have hz : Keeps s z := ?_; ?_))
      subst z
      rotate_left
      try clear_value z
    | try clear_value z
  | with_reducible
      first
      | apply State.cause_keeps | apply State.put_keeps | apply keeps_ite | apply keeps_foldl
  | split

theorem State.cmpOutFix_keeps {s t : State} (h : Keeps s t) (u : Nat) :
    Keeps s (State.cmpOutFix t u) := by
  unfold State.cmpOutFix
  repeat' first
  | intro _
  | with_reducible assumption
  | fail_if_no_progress extract_lets +onlyGivenNames z
    first
    | (refine (have hz : Keeps s z := ?_; ?_))
      subst z
      rotate_left
      try clear_value z
    | try clear_value z
  | with_reducible
      first
      | apply State.put_keeps | apply State.when_keeps | apply keeps_ite | apply keeps_foldl
  | split

theorem State.trgDir_keeps {s t : State} (h : Keeps s t) :
    Keeps s (State.trgDir t) := by
  unfold State.trgDir
  repeat' first
  | intro _
  | with_reducible assumption
  | fail_if_no_progress extract_lets +onlyGivenNames z
    first
    | (refine (have hz : Keeps s z := ?_; ?_))
      subst z
      rotate_left
      try clear_value z
    | try clear_value z
  | with_reducible
      first
      | apply State.put_keeps | apply keeps_ite | apply keeps_foldl
  | split

theorem State.cmpBoundary_keeps {s t : State} (h : Keeps s t) :
    Keeps s (State.cmpBoundary t) := by
  unfold State.cmpBoundary
  repeat' first
  | intro _
  | with_reducible assumption
  | fail_if_no_progress extract_lets +onlyGivenNames z
    first
    | (refine (have hz : Keeps s z := ?_; ?_))
      subst z
      rotate_left
      try clear_value z
    | try clear_value z
  | with_reducible
      first
      | apply State.trgDir_keeps | apply State.cmpOut_keeps | apply State.putWord_keeps | apply State.cmpArmNow_keeps
      | apply State.cmpOutFix_keeps | apply State.putWords_keeps | apply State.clampAll_keeps | apply State.put_keeps
      | apply State.when_keeps | apply State.each_keeps | apply keeps_ite | apply keeps_foldl
  | split
  | with_reducible apply keeps_mk

theorem State.homeLatches_keeps {s t : State} (h : Keeps s t) (a : Nat) :
    Keeps s (State.homeLatches t a) := by
  unfold State.homeLatches
  repeat' first
  | intro _
  | with_reducible assumption
  | fail_if_no_progress extract_lets +onlyGivenNames z
    first
    | (refine (have hz : Keeps s z := ?_; ?_))
      subst z
      rotate_left
      try clear_value z
    | try clear_value z
  | with_reducible
      first
      | apply State.put_keeps | apply keeps_ite | apply keeps_foldl
  | split

theorem State.homeGo_keeps {s t : State} (h : Keeps s t) (a : Nat) (y2 : Nat) :
    Keeps s (State.homeGo t a y2) := by
  unfold State.homeGo
  repeat' first
  | intro _
  | with_reducible assumption
  | fail_if_no_progress extract_lets +onlyGivenNames z
    first
    | (refine (have hz : Keeps s z := ?_; ?_))
      subst z
      rotate_left
      try clear_value z
    | try clear_value z
  | with_reducible
      first
      | apply State.insMotion_keeps | apply State.showMotion_keeps | apply State.puti_keeps | apply State.when_keeps
      | apply State.put_keeps | apply keeps_ite | apply keeps_foldl
  | split

theorem State.homeProgress_keeps {s t : State} (h : Keeps s t) (a : Nat) :
    Keeps s (State.homeProgress t a) := by
  unfold State.homeProgress
  repeat' first
  | intro _
  | with_reducible assumption
  | fail_if_no_progress extract_lets +onlyGivenNames z
    first
    | (refine (have hz : Keeps s z := ?_; ?_))
      subst z
      rotate_left
      try clear_value z
    | try clear_value z
  | with_reducible
      first
      | apply State.lopProgress_keeps | apply keeps_ite | apply keeps_foldl
  | split

theorem State.homeNext_keeps {s t : State} (h : Keeps s t) (a : Nat) (y2 : Nat) :
    Keeps s (State.homeNext t a y2) := by
  unfold State.homeNext
  repeat' first
  | intro _
  | with_reducible assumption
  | fail_if_no_progress extract_lets +onlyGivenNames z
    first
    | (refine (have hz : Keeps s z := ?_; ?_))
      subst z
      rotate_left
      try clear_value z
    | try clear_value z
  | with_reducible
      first
      | apply State.setMotion_keeps | apply State.put_keeps | apply State.homeLatches_keeps
      | apply State.homeProgress_keeps | apply keeps_ite | apply keeps_foldl
  | split

theorem State.homeAbort_keeps {s t : State} (h : Keeps s t) (a : Nat) (y2 : Nat) (reason : Nat) :
    Keeps s (State.homeAbort t a y2 reason) := by
  unfold State.homeAbort
  repeat' first
  | intro _
  | with_reducible assumption
  | fail_if_no_progress extract_lets +onlyGivenNames z
    first
    | (refine (have hz : Keeps s z := ?_; ?_))
      subst z
      rotate_left
      try clear_value z
    | try clear_value z
  | with_reducible
      first
      | apply State.quickStop_keeps | apply State.homingEnd_keeps | apply keeps_ite | apply keeps_foldl
  | split

theorem State.homeRef_keeps {s t : State} (h : Keeps s t) (a : Nat) (p : Int) (coarse : Bool) :
    Keeps s (State.homeRef t a p coarse) := by
  unfold State.homeRef
  repeat' first
  | intro _
  | with_reducible assumption
  | fail_if_no_progress extract_lets +onlyGivenNames z
    first
    | (refine (have hz : Keeps s z := ?_; ?_))
      subst z
      rotate_left
      try clear_value z
    | try clear_value z
  | with_reducible
      first
      | apply State.puti_keeps | apply State.put_keeps | apply keeps_ite | apply keeps_foldl
  | split

theorem State.shiftAxis_keeps {s t : State} (h : Keeps s t) (a : Nat) (o : Int) :
    Keeps s (State.shiftAxis t a o) := by
  unfold State.shiftAxis
  repeat' first
  | intro _
  | with_reducible assumption
  | fail_if_no_progress extract_lets +onlyGivenNames z
    first
    | (refine (have hz : Keeps s z := ?_; ?_))
      subst z
      rotate_left
      try clear_value z
    | try clear_value z
  | with_reducible
      first
      | apply State.store_keeps | apply State.when_keeps | apply State.each_keeps | apply State.puti_keeps
      | apply keeps_ite | apply keeps_foldl
  | split
  | with_reducible apply keeps_mk

theorem State.homeApply_keeps {s t : State} (h : Keeps s t) (a : Nat) :
    Keeps s (State.homeApply t a) := by
  unfold State.homeApply
  repeat' first
  | intro _
  | with_reducible assumption
  | fail_if_no_progress extract_lets +onlyGivenNames z
    first
    | (refine (have hz : Keeps s z := ?_; ?_))
      subst z
      rotate_left
      try clear_value z
    | try clear_value z
  | with_reducible
      first
      | apply State.put_keeps | apply State.shiftAxis_keeps | apply keeps_ite | apply keeps_foldl
  | split

theorem State.homeFinish_keeps {s t : State} (h : Keeps s t) (a : Nat) (y2 : Nat) :
    Keeps s (State.homeFinish t a y2) := by
  unfold State.homeFinish
  repeat' first
  | intro _
  | with_reducible assumption
  | fail_if_no_progress extract_lets +onlyGivenNames z
    first
    | (refine (have hz : Keeps s z := ?_; ?_))
      subst z
      rotate_left
      try clear_value z
    | try clear_value z
  | with_reducible
      first
      | apply State.homeApply_keeps | apply State.holdFrom_keeps | apply State.homingEnd_keeps | apply keeps_ite
      | apply keeps_foldl
  | split

theorem State.homeRest_keeps {s t : State} (h : Keeps s t) (a : Nat) (y2 : Nat) :
    Keeps s (State.homeRest t a y2) := by
  unfold State.homeRest
  repeat' first
  | intro _
  | with_reducible assumption
  | fail_if_no_progress extract_lets +onlyGivenNames z
    first
    | (refine (have hz : Keeps s z := ?_; ?_))
      subst z
      rotate_left
      try clear_value z
    | try clear_value z
  | with_reducible
      first
      | apply State.homeGo_keeps | apply State.homingEnd_keeps | apply State.lopSuspended_keeps
      | apply State.holdFrom_keeps | apply State.put_keeps | apply State.homeFinish_keeps | apply keeps_ite
      | apply keeps_foldl
  | split

theorem State.homeLimit_keeps {s t : State} (h : Keeps s t) (a : Nat) (y2 : Nat) :
    Keeps s (State.homeLimit t a y2).1 := by
  unfold State.homeLimit
  repeat' first
  | intro _
  | with_reducible assumption
  | fail_if_no_progress extract_lets +onlyGivenNames z
    first
    | (refine (have hz : Keeps s z := ?_; ?_))
      subst z
      rotate_left
      try clear_value z
    | try clear_value z
  | with_reducible
      first
      | apply State.homeAbort_keeps | apply State.setMotion_keeps | apply State.put_keeps | apply keeps_ite
      | apply keeps_foldl
  | split

theorem State.homeInput_keeps {s t : State} (h : Keeps s t) (a : Nat) (y2 : Nat) (acted : Bool) :
    Keeps s (State.homeInput t a y2 acted) := by
  unfold State.homeInput
  repeat' first
  | intro _
  | with_reducible assumption
  | fail_if_no_progress extract_lets +onlyGivenNames z
    first
    | (refine (have hz : Keeps s z := ?_; ?_))
      subst z
      rotate_left
      try clear_value z
    | try clear_value z
  | with_reducible
      first
      | apply State.homeNext_keeps | apply State.put_keeps | apply keeps_ite | apply keeps_foldl
  | split

theorem State.homeBoundary_keeps {s t : State} (h : Keeps s t) (a : Nat) (y2 : Nat) :
    Keeps s (State.homeBoundary t a y2) := by
  unfold State.homeBoundary
  repeat' first
  | intro _
  | with_reducible assumption
  | fail_if_no_progress extract_lets +onlyGivenNames z
    first
    | (refine (have hz : Keeps s z := ?_; ?_))
      subst z
      rotate_left
      try clear_value z
    | (refine (have hz : Keeps s z.1 := ?_; ?_))
      subst z
      rotate_left
      try clear_value z
    | (refine (have hz : Keeps s z.2 := ?_; ?_))
      subst z
      rotate_left
      try clear_value z
    | try clear_value z
  | with_reducible
      first
      | apply State.homeInput_keeps | apply State.homeLimit_keeps | apply keeps_ite | apply keeps_foldl
  | split

theorem State.homeTakeRef_keeps {s t : State} (h : Keeps s t) (a : Nat) (fb : Nat) :
    Keeps s (State.homeTakeRef t a fb) := by
  unfold State.homeTakeRef
  repeat' first
  | intro _
  | with_reducible assumption
  | fail_if_no_progress extract_lets +onlyGivenNames z
    first
    | (refine (have hz : Keeps s z := ?_; ?_))
      subst z
      rotate_left
      try clear_value z
    | try clear_value z
  | with_reducible
      first
      | apply State.homeRef_keeps | apply State.put_keeps | apply keeps_ite | apply keeps_foldl
  | split

theorem State.homeIndex_keeps {s t : State} (h : Keeps s t) (a : Nat) (te : Nat) (y3 : Nat) :
    Keeps s (State.homeIndex t a te y3) := by
  unfold State.homeIndex
  repeat' first
  | intro _
  | with_reducible assumption
  | fail_if_no_progress extract_lets +onlyGivenNames z
    first
    | (refine (have hz : Keeps s z := ?_; ?_))
      subst z
      rotate_left
      try clear_value z
    | try clear_value z
  | with_reducible
      first
      | apply State.homeRef_keeps | apply State.homeNext_keeps | apply keeps_ite | apply keeps_foldl
  | split

theorem State.stallNote_keeps {s t : State} (h : Keeps s t) (a : Nat) (fb : Nat) :
    Keeps s (State.stallNote t a fb) := by
  unfold State.stallNote
  repeat' first
  | intro _
  | with_reducible assumption
  | fail_if_no_progress extract_lets +onlyGivenNames z
    first
    | (refine (have hz : Keeps s z := ?_; ?_))
      subst z
      rotate_left
      try clear_value z
    | try clear_value z
  | with_reducible
      first
      | apply State.put_keeps | apply keeps_ite | apply keeps_foldl
  | split

theorem State.homeHere_keeps {s t : State} (h : Keeps s t) (a : Nat) (fb : Nat) :
    Keeps s (State.homeHere t a fb) := by
  unfold State.homeHere
  repeat' first
  | intro _
  | with_reducible assumption
  | fail_if_no_progress extract_lets +onlyGivenNames z
    first
    | (refine (have hz : Keeps s z := ?_; ?_))
      subst z
      rotate_left
      try clear_value z
    | try clear_value z
  | with_reducible
      first
      | apply State.homeRef_keeps | apply State.homeApply_keeps | apply State.homingEnd_keeps | apply keeps_ite
      | apply keeps_foldl
  | split

theorem State.homeSample_keeps {s t : State} (h : Keeps s t) (a : Nat) (fb : Nat) (eb : Nat) :
    Keeps s (State.homeSample t a fb eb) := by
  unfold State.homeSample
  repeat' first
  | intro _
  | with_reducible assumption
  | fail_if_no_progress extract_lets +onlyGivenNames z
    first
    | (refine (have hz : Keeps s z := ?_; ?_))
      subst z
      rotate_left
      try clear_value z
    | try clear_value z
  | with_reducible
      first
      | apply State.homeRest_keeps | apply State.homeAbort_keeps | apply State.homeTakeRef_keeps
      | apply State.stallNote_keeps | apply State.homeHere_keeps | apply keeps_ite | apply keeps_foldl
  | split

theorem State.homeStart_keeps {s t : State} (h : Keeps s t) (a : Nat) (y2 : Nat) :
    Keeps s (State.homeStart t a y2) := by
  unfold State.homeStart
  repeat' first
  | intro _
  | with_reducible assumption
  | fail_if_no_progress extract_lets +onlyGivenNames z
    first
    | (refine (have hz : Keeps s z := ?_; ?_))
      subst z
      rotate_left
      try clear_value z
    | try clear_value z
  | with_reducible
      first
      | apply State.homeGo_keeps | apply State.homeBoundary_keeps | apply State.homeLatches_keeps
      | apply State.put_keeps | apply keeps_ite | apply keeps_foldl
  | split

theorem State.portLatch_keeps {s t : State} (h : Keeps s t) (a : Nat) :
    Keeps s (State.portLatch t a) := by
  unfold State.portLatch
  repeat' first
  | intro _
  | with_reducible assumption
  | fail_if_no_progress extract_lets +onlyGivenNames z
    first
    | (refine (have hz : Keeps s z := ?_; ?_))
      subst z
      rotate_left
      try clear_value z
    | try clear_value z
  | with_reducible
      first
      | apply State.put_keeps | apply keeps_ite | apply keeps_foldl
  | split

theorem State.fbValid_keeps {s t : State} (h : Keeps s t) (a : Nat) (f : Feedback) :
    Keeps s (State.fbValid t a f) := by
  unfold State.fbValid
  repeat' first
  | intro _
  | with_reducible assumption
  | fail_if_no_progress extract_lets +onlyGivenNames z
    first
    | (refine (have hz : Keeps s z := ?_; ?_))
      subst z
      rotate_left
      try clear_value z
    | try clear_value z
  | with_reducible
      first
      | apply State.addSat_keeps | apply State.incSat_keeps | apply State.post_keeps | apply State.when_keeps
      | apply State.put_keeps | apply State.puti_keeps | apply keeps_ite | apply keeps_foldl
  | split

theorem State.fbMissing_keeps {s t : State} (h : Keeps s t) (a : Nat) (fb : Nat) :
    Keeps s (State.fbMissing t a fb) := by
  unfold State.fbMissing
  repeat' first
  | intro _
  | with_reducible assumption
  | fail_if_no_progress extract_lets +onlyGivenNames z
    first
    | (refine (have hz : Keeps s z := ?_; ?_))
      subst z
      rotate_left
      try clear_value z
    | try clear_value z
  | with_reducible
      first
      | apply State.post_keeps | apply State.when_keeps | apply State.incSat_keeps | apply State.puti_keeps
      | apply keeps_ite | apply keeps_foldl
  | split

theorem State.fbEvents_keeps {s t : State} (h : Keeps s t) (a : Nat) (fb : Nat) (f : Feedback) :
    Keeps s (State.fbEvents t a fb f) := by
  unfold State.fbEvents
  repeat' first
  | intro _
  | with_reducible assumption
  | fail_if_no_progress extract_lets +onlyGivenNames z
    first
    | (refine (have hz : Keeps s z := ?_; ?_))
      subst z
      rotate_left
      try clear_value z
    | try clear_value z
  | with_reducible
      first
      | apply State.capEdge_keeps | apply State.each_keeps | apply State.homeIndex_keeps | apply State.when_keeps
      | apply keeps_ite | apply keeps_foldl
  | split

theorem State.fbPart_keeps {s t : State} (h : Keeps s t) (a : Nat) (x : Inst) :
    Keeps s (State.fbPart t a x) := by
  unfold State.fbPart
  repeat' first
  | intro _
  | with_reducible assumption
  | fail_if_no_progress extract_lets +onlyGivenNames z
    first
    | (refine (have hz : Keeps s z := ?_; ?_))
      subst z
      rotate_left
      try clear_value z
    | try clear_value z
  | with_reducible
      first
      | apply State.incSat_keeps | apply State.incWrap_keeps | apply State.fbEvents_keeps | apply State.when_keeps
      | apply State.put_keeps | apply State.histPut_keeps | apply State.puti_keeps | apply State.fbMissing_keeps
      | apply State.fbValid_keeps | apply keeps_ite | apply keeps_foldl
  | split

theorem State.limitCheck_keeps {s t : State} (h : Keeps s t) (a : Nat) (y2 : Nat) :
    Keeps s (State.limitCheck t a y2) := by
  unfold State.limitCheck
  repeat' first
  | intro _
  | with_reducible assumption
  | fail_if_no_progress extract_lets +onlyGivenNames z
    first
    | (refine (have hz : Keeps s z := ?_; ?_))
      subst z
      rotate_left
      try clear_value z
    | try clear_value z
  | with_reducible
      first
      | apply State.put_keeps | apply State.setMotion_keeps | apply State.showMotion_keeps
      | apply State.flushTable_keeps | apply State.when_keeps | apply keeps_ite | apply keeps_foldl
  | split

theorem State.planEnds_keeps {s t : State} (h : Keeps s t) (a : Nat) (fb : Nat) :
    Keeps s (State.planEnds t a fb) := by
  unfold State.planEnds
  repeat' first
  | intro _
  | with_reducible assumption
  | fail_if_no_progress extract_lets +onlyGivenNames z
    first
    | (refine (have hz : Keeps s z := ?_; ?_))
      subst z
      rotate_left
      try clear_value z
    | try clear_value z
  | with_reducible
      first
      | apply State.put_keeps | apply State.when_keeps | apply keeps_ite | apply keeps_foldl
  | split

theorem State.inpos_keeps {s t : State} (h : Keeps s t) (a : Nat) (fb : Nat) :
    Keeps s (State.inpos t a fb) := by
  unfold State.inpos
  repeat' first
  | intro _
  | with_reducible assumption
  | fail_if_no_progress extract_lets +onlyGivenNames z
    first
    | (refine (have hz : Keeps s z := ?_; ?_))
      subst z
      rotate_left
      try clear_value z
    | try clear_value z
  | with_reducible
      first
      | apply State.put_keeps | apply keeps_ite | apply keeps_foldl
  | split

theorem State.ffTerms_keeps {s t : State} (h : Keeps s t) (a : Nat) (x : Pva) :
    Keeps s (State.ffTerms t a x) := by
  unfold State.ffTerms
  repeat' first
  | intro _
  | with_reducible assumption
  | fail_if_no_progress extract_lets +onlyGivenNames z
    first
    | (refine (have hz : Keeps s z := ?_; ?_))
      subst z
      rotate_left
      try clear_value z
    | try clear_value z
  | with_reducible
      first
      | apply State.puti_keeps | apply keeps_ite | apply keeps_foldl
  | split

theorem State.lffSwap_keeps {s t : State} (h : Keeps s t) (y1 : Nat) :
    Keeps s (State.lffSwap t y1) := by
  unfold State.lffSwap
  repeat' first
  | intro _
  | with_reducible assumption
  | fail_if_no_progress extract_lets +onlyGivenNames z
    first
    | (refine (have hz : Keeps s z := ?_; ?_))
      subst z
      rotate_left
      try clear_value z
    | try clear_value z
  | with_reducible
      first
      | apply State.setBytes_keeps | apply State.put_keeps | apply keeps_ite | apply keeps_foldl
  | split

theorem State.lrnTiming_keeps {s t : State} (h : Keeps s t) (a : Nat) (y2 : Nat) (d : Nat) :
    Keeps s (State.lrnTiming t a y2 d) := by
  unfold State.lrnTiming
  repeat' first
  | intro _
  | with_reducible assumption
  | fail_if_no_progress extract_lets +onlyGivenNames z
    first
    | (refine (have hz : Keeps s z := ?_; ?_))
      subst z
      rotate_left
      try clear_value z
    | try clear_value z
  | with_reducible
      first
      | apply State.put_keeps | apply keeps_ite | apply keeps_foldl
  | split

theorem State.lrnCut_keeps {s t : State} (h : Keeps s t) (a : Nat) (ts : Nat) :
    Keeps s (State.lrnCut t a ts) := by
  unfold State.lrnCut
  repeat' first
  | intro _
  | with_reducible assumption
  | fail_if_no_progress extract_lets +onlyGivenNames z
    first
    | (refine (have hz : Keeps s z := ?_; ?_))
      subst z
      rotate_left
      try clear_value z
    | try clear_value z
  | with_reducible
      first
      | apply State.when_keeps | apply State.put_keeps | apply keeps_ite | apply keeps_foldl
  | split

theorem State.lrnBegin_keeps {s t : State} (h : Keeps s t) (m : Motion) :
    Keeps s (State.lrnBegin t m) := by
  unfold State.lrnBegin
  repeat' first
  | intro _
  | with_reducible assumption
  | fail_if_no_progress extract_lets +onlyGivenNames z
    first
    | (refine (have hz : Keeps s z := ?_; ?_))
      subst z
      rotate_left
      try clear_value z
    | try clear_value z
  | with_reducible
      first
      | apply State.lffSwap_keeps | apply State.put_keeps | apply State.lrnTiming_keeps | apply State.lrnCut_keeps
      | apply keeps_ite | apply keeps_foldl
  | split

theorem State.lrnFollow_keeps {s t : State} (h : Keeps s t) (a : Nat) (y2 : Nat) :
    Keeps s (State.lrnFollow t a y2) := by
  unfold State.lrnFollow
  repeat' first
  | intro _
  | with_reducible assumption
  | fail_if_no_progress extract_lets +onlyGivenNames z
    first
    | (refine (have hz : Keeps s z := ?_; ?_))
      subst z
      rotate_left
      try clear_value z
    | try clear_value z
  | with_reducible
      first
      | apply State.lrnCut_keeps | apply State.when_keeps | apply State.lrnBegin_keeps | apply keeps_ite
      | apply keeps_foldl
  | split
  | with_reducible apply keeps_mk

theorem State.putList_keeps {s t : State} (h : Keeps s t) (base : Nat) (l : List Int) :
    Keeps s (State.putList t base l) := by
  unfold State.putList
  repeat' first
  | intro _
  | with_reducible assumption
  | fail_if_no_progress extract_lets +onlyGivenNames z
    first
    | (refine (have hz : Keeps s z := ?_; ?_))
      subst z
      rotate_left
      try clear_value z
    | try clear_value z
  | with_reducible
      first
      | apply State.setBytes_keeps | apply keeps_ite | apply keeps_foldl
  | split

theorem State.lffShow_keeps {s t : State} (h : Keeps s t) (y1 : Nat) :
    Keeps s (State.lffShow t y1) := by
  unfold State.lffShow
  repeat' first
  | intro _
  | with_reducible assumption
  | fail_if_no_progress extract_lets +onlyGivenNames z
    first
    | (refine (have hz : Keeps s z := ?_; ?_))
      subst z
      rotate_left
      try clear_value z
    | try clear_value z
  | with_reducible
      first
      | apply State.put_keeps | apply keeps_ite | apply keeps_foldl
  | split

theorem State.lrnComplete_keeps {s t : State} (h : Keeps s t) (a : Nat) :
    Keeps s (State.lrnComplete t a) := by
  unfold State.lrnComplete
  repeat' first
  | intro _
  | with_reducible assumption
  | fail_if_no_progress extract_lets +onlyGivenNames z
    first
    | (refine (have hz : Keeps s z := ?_; ?_))
      subst z
      rotate_left
      try clear_value z
    | try clear_value z
  | with_reducible
      first
      | apply State.lffShow_keeps | apply State.when_keeps | apply State.putList_keeps | apply State.put_keeps
      | apply keeps_ite | apply keeps_foldl
  | split

theorem State.lrnNote_keeps {s t : State} (h : Keeps s t) (a : Nat) (fb : Nat) :
    Keeps s (State.lrnNote t a fb) := by
  unfold State.lrnNote
  repeat' first
  | intro _
  | with_reducible assumption
  | fail_if_no_progress extract_lets +onlyGivenNames z
    first
    | (refine (have hz : Keeps s z := ?_; ?_))
      subst z
      rotate_left
      try clear_value z
    | try clear_value z
  | with_reducible
      first
      | apply State.store_keeps | apply keeps_ite | apply keeps_foldl
  | split

theorem State.lrnRecStart_keeps {s t : State} (h : Keeps s t) (a : Nat) :
    Keeps s (State.lrnRecStart t a) := by
  unfold State.lrnRecStart
  repeat' first
  | intro _
  | with_reducible assumption
  | fail_if_no_progress extract_lets +onlyGivenNames z
    first
    | (refine (have hz : Keeps s z := ?_; ?_))
      subst z
      rotate_left
      try clear_value z
    | try clear_value z
  | with_reducible
      first
      | apply State.put_keeps | apply State.zeroRange_keeps | apply keeps_ite | apply keeps_foldl
  | split

theorem State.lrnSample_keeps {s t : State} (h : Keeps s t) (a : Nat) (fb : Nat) :
    Keeps s (State.lrnSample t a fb) := by
  unfold State.lrnSample
  repeat' first
  | intro _
  | with_reducible assumption
  | fail_if_no_progress extract_lets +onlyGivenNames z
    first
    | (refine (have hz : Keeps s z := ?_; ?_))
      subst z
      rotate_left
      try clear_value z
    | try clear_value z
  | with_reducible
      first
      | apply State.lrnNote_keeps | apply State.lrnRecStart_keeps | apply State.lrnComplete_keeps
      | apply State.when_keeps | apply keeps_ite | apply keeps_foldl
  | split

theorem State.posPart_keeps {s t : State} (h : Keeps s t) (a : Nat) :
    Keeps s (State.posPart t a) := by
  unfold State.posPart
  repeat' first
  | intro _
  | with_reducible assumption
  | fail_if_no_progress extract_lets +onlyGivenNames z
    first
    | (refine (have hz : Keeps s z := ?_; ?_))
      subst z
      rotate_left
      try clear_value z
    | try clear_value z
  | with_reducible
      first
      | apply State.runStageFrom_keeps | apply State.puti_keeps | apply keeps_ite | apply keeps_foldl
  | split

theorem State.limit_keeps {s t : State} (h : Keeps s t) (a : Nat) (y : Int) :
    Keeps s (State.limit t a y) := by
  unfold State.limit
  repeat' first
  | intro _
  | with_reducible assumption
  | fail_if_no_progress extract_lets +onlyGivenNames z
    first
    | (refine (have hz : Keeps s z := ?_; ?_))
      subst z
      rotate_left
      try clear_value z
    | try clear_value z
  | with_reducible
      first
      | apply State.incSat_keeps | apply State.when_keeps | apply State.put_keeps | apply State.puti_keeps
      | apply keeps_ite | apply keeps_foldl
  | split

theorem State.velPart_keeps {s t : State} (h : Keeps s t) (a : Nat) (eb : Nat) :
    Keeps s (State.velPart t a eb) := by
  unfold State.velPart
  repeat' first
  | intro _
  | with_reducible assumption
  | fail_if_no_progress extract_lets +onlyGivenNames z
    first
    | (refine (have hz : Keeps s z := ?_; ?_))
      subst z
      rotate_left
      try clear_value z
    | try clear_value z
  | with_reducible
      first
      | apply State.limit_keeps | apply State.runStageFrom_keeps | apply State.puti_keeps | apply State.ffTerms_keeps
      | apply State.lrnFollow_keeps | apply keeps_ite | apply keeps_foldl
  | split

theorem State.seedSample_keeps {s t : State} (h : Keeps s t) (a : Nat) (fb : Nat) :
    Keeps s (State.seedSample t a fb) := by
  unfold State.seedSample
  repeat' first
  | intro _
  | with_reducible assumption
  | fail_if_no_progress extract_lets +onlyGivenNames z
    first
    | (refine (have hz : Keeps s z := ?_; ?_))
      subst z
      rotate_left
      try clear_value z
    | try clear_value z
  | with_reducible
      first
      | apply State.takeSeeded_keeps | apply State.put_keeps | apply State.limit_keeps | apply State.seed_keeps
      | apply State.setMotion_keeps | apply State.showMotion_keeps | apply State.puti_keeps
      | apply State.functionsIdle_keeps | apply State.when_keeps | apply State.learnDrop_keeps | apply keeps_ite
      | apply keeps_foldl
  | split
  | with_reducible apply keeps_mk

theorem State.feExtremes_keeps {s t : State} (h : Keeps s t) (a : Nat) :
    Keeps s (State.feExtremes t a) := by
  unfold State.feExtremes
  repeat' first
  | intro _
  | with_reducible assumption
  | fail_if_no_progress extract_lets +onlyGivenNames z
    first
    | (refine (have hz : Keeps s z := ?_; ?_))
      subst z
      rotate_left
      try clear_value z
    | try clear_value z
  | with_reducible
      first
      | apply State.puti_keeps | apply keeps_ite | apply keeps_foldl
  | split

theorem State.publish_keeps {s t : State} (h : Keeps s t) (x : Inst) (ws : List Nat) :
    Keeps s (State.publish t x ws) := by
  unfold State.publish
  repeat' first
  | intro _
  | with_reducible assumption
  | fail_if_no_progress extract_lets +onlyGivenNames z
    first
    | (refine (have hz : Keeps s z := ?_; ?_))
      subst z
      rotate_left
      try clear_value z
    | try clear_value z
  | with_reducible
      first
      | apply State.each_keeps | apply State.put_keeps | apply keeps_ite | apply keeps_foldl
  | split

theorem State.spend_keeps {s t : State} (h : Keeps s t) (x : Inst) (n : Nat) :
    Keeps s (State.spend t x n) := by
  unfold State.spend
  repeat' first
  | intro _
  | with_reducible assumption
  | fail_if_no_progress extract_lets +onlyGivenNames z
    first
    | (refine (have hz : Keeps s z := ?_; ?_))
      subst z
      rotate_left
      try clear_value z
    | try clear_value z
  | with_reducible
      first
      | apply State.put_keeps | apply State.addSat_keeps | apply keeps_ite | apply keeps_foldl
  | split

theorem State.sampleFirst_keeps {s t : State} (h : Keeps s t) (a : Nat) (x : Inst) :
    Keeps s (State.sampleFirst t a x) := by
  unfold State.sampleFirst
  repeat' first
  | intro _
  | with_reducible assumption
  | fail_if_no_progress extract_lets +onlyGivenNames z
    first
    | (refine (have hz : Keeps s z := ?_; ?_))
      subst z
      rotate_left
      try clear_value z
    | try clear_value z
  | with_reducible
      first
      | apply State.puti_keeps | apply State.posPart_keeps | apply State.limitCheck_keeps | apply State.planEnds_keeps
      | apply State.seedSample_keeps | apply State.when_keeps | apply State.put_keeps | apply State.fbPart_keeps
      | apply keeps_ite | apply keeps_foldl
  | split

theorem State.sampleAfter_keeps {s t : State} (h : Keeps s t) (a : Nat) (fb : Nat) (eb : Nat) :
    Keeps s (State.sampleAfter t a fb eb) := by
  unfold State.sampleAfter
  repeat' first
  | intro _
  | with_reducible assumption
  | fail_if_no_progress extract_lets +onlyGivenNames z
    first
    | (refine (have hz : Keeps s z := ?_; ?_))
      subst z
      rotate_left
      try clear_value z
    | try clear_value z
  | with_reducible
      first
      | apply State.trackWrite_keeps | apply State.inpos_keeps | apply State.homeSample_keeps
      | apply State.lrnSample_keeps | apply State.feExtremes_keeps | apply State.supervise_keeps | apply keeps_ite
      | apply keeps_foldl
  | split

theorem State.sampleSecond_keeps {s t : State} (h : Keeps s t) (a : Nat) (x : Inst) :
    Keeps s (State.sampleSecond t a x) := by
  unfold State.sampleSecond
  repeat' first
  | intro _
  | with_reducible assumption
  | fail_if_no_progress extract_lets +onlyGivenNames z
    first
    | (refine (have hz : Keeps s z := ?_; ?_))
      subst z
      rotate_left
      try clear_value z
    | try clear_value z
  | with_reducible
      first
      | apply State.sweepSample_keeps | apply State.probeRecord_keeps | apply State.capWrite_keeps
      | apply State.useFree_keeps | apply State.when_keeps | apply State.velPart_keeps | apply State.sampleAfter_keeps
      | apply State.supervise_keeps | apply State.inpos_keeps | apply State.publish_keeps | apply keeps_ite
      | apply keeps_foldl
  | split

theorem State.runClause_keeps {s t : State} (h : Keeps s t) (ty : Nat) (rec_ : Nat) (f : Inst → State → State) (hf : ∀
    x0 t1, Keeps s t1 → Keeps s (f x0 t1)) :
    Keeps s (State.runClause t ty rec_ f) := by
  unfold State.runClause
  repeat' first
  | intro _
  | with_reducible assumption
  | fail_if_no_progress extract_lets +onlyGivenNames z
    first
    | (refine (have hz : Keeps s z := ?_; ?_))
      subst z
      rotate_left
      try clear_value z
    | try clear_value z
  | with_reducible
      first
      | apply State.cfgThen_keeps | apply State.cfgFrom_keeps | apply State.noteWork_keeps | apply State.put_keeps
      | apply hf | apply keeps_ite | apply keeps_foldl
  | split

theorem execAxisLoop_keeps {s t : State} (h : Keeps s t) (a : Nat) :
    KeepsOut s (execAxisLoop a t) := by
  unfold execAxisLoop
  repeat' first
  | intro _
  | with_reducible assumption
  | fail_if_no_progress extract_lets +onlyGivenNames z
    first
    | (refine (have hz : Keeps s z := ?_; ?_))
      subst z
      rotate_left
      try clear_value z
    | try clear_value z
  | with_reducible
      first
      | apply keepsOut_next | apply State.spend_keeps | apply State.sampleFirst_keeps | apply State.sampleSecond_keeps
      | apply State.runClause_keeps | apply keeps_ite | apply keeps_foldl
  | split

theorem execTrajectoryStep_keeps {s t : State} (h : Keeps s t) (a : Nat) :
    KeepsOut s (execTrajectoryStep a t) := by
  unfold execTrajectoryStep
  repeat' first
  | intro _
  | with_reducible assumption
  | fail_if_no_progress extract_lets +onlyGivenNames z
    first
    | (refine (have hz : Keeps s z := ?_; ?_))
      subst z
      rotate_left
      try clear_value z
    | try clear_value z
  | with_reducible
      first
      | apply keepsOut_next | apply State.spend_keeps | apply State.sampleFirst_keeps | apply State.sampleSecond_keeps
      | apply State.runClause_keeps | apply keeps_ite | apply keeps_foldl
  | split

theorem execPositionPart_keeps {s t : State} (h : Keeps s t) (a : Nat) :
    KeepsOut s (execPositionPart a t) := by
  unfold execPositionPart
  repeat' first
  | intro _
  | with_reducible assumption
  | fail_if_no_progress extract_lets +onlyGivenNames z
    first
    | (refine (have hz : Keeps s z := ?_; ?_))
      subst z
      rotate_left
      try clear_value z
    | try clear_value z
  | with_reducible
      first
      | apply keepsOut_next | apply State.spend_keeps | apply State.sampleFirst_keeps | apply State.runClause_keeps
      | apply keeps_ite | apply keeps_foldl
  | split

theorem execVelocityPart_keeps {s t : State} (h : Keeps s t) (a : Nat) :
    KeepsOut s (execVelocityPart a t) := by
  unfold execVelocityPart
  repeat' first
  | intro _
  | with_reducible assumption
  | fail_if_no_progress extract_lets +onlyGivenNames z
    first
    | (refine (have hz : Keeps s z := ?_; ?_))
      subst z
      rotate_left
      try clear_value z
    | try clear_value z
  | with_reducible
      first
      | apply keepsOut_next | apply State.spend_keeps | apply State.sampleSecond_keeps | apply State.runClause_keeps
      | apply keeps_ite | apply keeps_foldl
  | split

theorem State.ccRun_keeps {s t : State} (h : Keeps s t) (g : Nat) (c : Nat) :
    Keeps s (State.ccRun t g c) := by
  unfold State.ccRun
  repeat' first
  | intro _
  | with_reducible assumption
  | fail_if_no_progress extract_lets +onlyGivenNames z
    first
    | (refine (have hz : Keeps s z := ?_; ?_))
      subst z
      rotate_left
      try clear_value z
    | try clear_value z
  | with_reducible
      first
      | apply State.puti_keeps | apply keeps_ite | apply keeps_foldl
  | split

theorem execGroupClause_keeps {s t : State} (h : Keeps s t) (g : Nat) :
    KeepsOut s (execGroupClause g t) := by
  unfold execGroupClause
  repeat' first
  | intro _
  | with_reducible assumption
  | fail_if_no_progress extract_lets +onlyGivenNames z
    first
    | (refine (have hz : Keeps s z := ?_; ?_))
      subst z
      rotate_left
      try clear_value z
    | try clear_value z
  | with_reducible
      first
      | apply keepsOut_next | apply State.spend_keeps | apply State.puti_keeps | apply State.ccRun_keeps
      | apply State.each_keeps | apply State.runClause_keeps | apply keeps_ite | apply keeps_foldl
  | split

theorem execSupervision_keeps {s t : State} (h : Keeps s t) (r : Nat) :
    KeepsOut s (execSupervision r t) := by
  unfold execSupervision
  repeat' first
  | intro _
  | with_reducible assumption
  | fail_if_no_progress extract_lets +onlyGivenNames z
    first
    | (refine (have hz : Keeps s z := ?_; ?_))
      subst z
      rotate_left
      try clear_value z
    | try clear_value z
  | with_reducible
      first
      | apply keepsOut_next | apply State.spend_keeps | apply State.put_keeps | apply keeps_ite | apply keeps_foldl
  | split

theorem execFeTimed_keeps {s t : State} (h : Keeps s t) (a : Nat) :
    KeepsOut s (execFeTimed a t) := by
  unfold execFeTimed
  repeat' first
  | intro _
  | with_reducible assumption
  | fail_if_no_progress extract_lets +onlyGivenNames z
    first
    | (refine (have hz : Keeps s z := ?_; ?_))
      subst z
      rotate_left
      try clear_value z
    | try clear_value z
  | with_reducible
      first
      | apply keepsOut_next | apply State.put_keeps | apply State.post_keeps | apply keeps_ite | apply keeps_foldl
  | split

theorem State.lffStep_keeps {s t : State} (h : Keeps s t) (y1 : Nat) :
    Keeps s (State.lffStep t y1) := by
  unfold State.lffStep
  repeat' first
  | intro _
  | with_reducible assumption
  | fail_if_no_progress extract_lets +onlyGivenNames z
    first
    | (refine (have hz : Keeps s z := ?_; ?_))
      subst z
      rotate_left
      try clear_value z
    | try clear_value z
  | with_reducible
      first
      | apply State.lffShow_keeps | apply State.incSat_keeps | apply State.putList_keeps | apply State.setBytes_keeps
      | apply State.put_keeps | apply State.when_keeps | apply keeps_ite | apply keeps_foldl
  | split

theorem execLearningUpdate_keeps {s t : State} (h : Keeps s t) (tb : Nat) :
    KeepsOut s (execLearningUpdate tb t) := by
  unfold execLearningUpdate
  repeat' first
  | intro _
  | with_reducible assumption
  | fail_if_no_progress extract_lets +onlyGivenNames z
    first
    | (refine (have hz : Keeps s z := ?_; ?_))
      subst z
      rotate_left
      try clear_value z
    | try clear_value z
  | with_reducible
      first
      | apply keepsOut_next | apply State.lffStep_keeps | apply State.spend_keeps | apply State.runClause_keeps
      | apply keeps_ite | apply keeps_foldl
  | split

theorem execTuningCapture_keeps {s t : State} (h : Keeps s t) (ch : Nat) :
    KeepsOut s (execTuningCapture ch t) := by
  unfold execTuningCapture
  repeat' first
  | intro _
  | with_reducible assumption
  | fail_if_no_progress extract_lets +onlyGivenNames z
    first
    | (refine (have hz : Keeps s z := ?_; ?_))
      subst z
      rotate_left
      try clear_value z
    | try clear_value z
  | with_reducible
      first
      | apply keepsOut_next | apply State.spend_keeps | apply State.lopProgress_keeps | apply State.sweepRec_keeps
      | apply State.when_keeps | apply State.runClause_keeps | apply keeps_ite | apply keeps_foldl
  | split

theorem execSweepComplete_keeps {s t : State} (h : Keeps s t) (ch : Nat) :
    KeepsOut s (execSweepComplete ch t) := by
  unfold execSweepComplete
  repeat' first
  | intro _
  | with_reducible assumption
  | fail_if_no_progress extract_lets +onlyGivenNames z
    first
    | (refine (have hz : Keeps s z := ?_; ?_))
      subst z
      rotate_left
      try clear_value z
    | try clear_value z
  | with_reducible
      first
      | apply keepsOut_next | apply State.sweepEnd_keeps | apply keeps_ite | apply keeps_foldl
  | split

theorem State.trkWrite_keeps {s t : State} (h : Keeps s t) (a : Nat) (x : Tracker) (bank : Nat) (c : List Int) :
    Keeps s (State.trkWrite t a x bank c) := by
  unfold State.trkWrite
  repeat' first
  | intro _
  | with_reducible assumption
  | fail_if_no_progress extract_lets +onlyGivenNames z
    first
    | (refine (have hz : Keeps s z := ?_; ?_))
      subst z
      rotate_left
      try clear_value z
    | try clear_value z
  | with_reducible
      first
      | apply State.puti_keeps | apply State.each_keeps | apply keeps_ite | apply keeps_foldl
  | split

theorem execTrackerRetune_keeps {s t : State} (h : Keeps s t) (a : Nat) (k : Nat) :
    KeepsOut s (execTrackerRetune a k t) := by
  unfold execTrackerRetune
  repeat' first
  | intro _
  | with_reducible assumption
  | fail_if_no_progress extract_lets +onlyGivenNames z
    first
    | (refine (have hz : Keeps s z := ?_; ?_))
      subst z
      rotate_left
      try clear_value z
    | try clear_value z
  | with_reducible
      first
      | apply keepsOut_next | apply State.trkWrite_keeps | apply State.when_keeps | apply State.put_keeps
      | apply keeps_ite | apply keeps_foldl
  | split

theorem State.drvFix_keeps {s t : State} (h : Keeps s t) (p : Nat) :
    Keeps s (State.drvFix t p) := by
  unfold State.drvFix
  repeat' first
  | intro _
  | with_reducible assumption
  | fail_if_no_progress extract_lets +onlyGivenNames z
    first
    | (refine (have hz : Keeps s z := ?_; ?_))
      subst z
      rotate_left
      try clear_value z
    | try clear_value z
  | with_reducible
      first
      | apply State.put_keeps | apply State.clampAll_keeps | apply keeps_ite | apply keeps_foldl
  | split

theorem State.fioTake_keeps {s t : State} (h : Keeps s t) (k : Nat) (w : Nat) :
    Keeps s (State.fioTake t k w) := by
  unfold State.fioTake
  repeat' first
  | intro _
  | with_reducible assumption
  | fail_if_no_progress extract_lets +onlyGivenNames z
    first
    | (refine (have hz : Keeps s z := ?_; ?_))
      subst z
      rotate_left
      try clear_value z
    | try clear_value z
  | with_reducible
      first
      | apply State.when_keeps | apply State.put_keeps | apply State.putWord_keeps | apply State.clampAll_keeps
      | apply keeps_ite | apply keeps_foldl
  | split

theorem State.confWrote_keeps {s t : State} (h : Keeps s t) (y1 : Nat) :
    Keeps s (State.confWrote t y1) := by
  unfold State.confWrote
  repeat' first
  | intro _
  | with_reducible assumption
  | fail_if_no_progress extract_lets +onlyGivenNames z
    first
    | (refine (have hz : Keeps s z := ?_; ?_))
      subst z
      rotate_left
      try clear_value z
    | try clear_value z
  | with_reducible
      first
      | apply State.dirty_keeps | apply State.put_keeps | apply keeps_ite | apply keeps_foldl
  | split

theorem State.confWroteAll_keeps {s t : State} (h : Keeps s t) (kind : Nat) (idx : Nat) (off : Nat) (n : Nat) :
    Keeps s (State.confWroteAll t kind idx off n) := by
  unfold State.confWroteAll
  repeat' first
  | intro _
  | with_reducible assumption
  | fail_if_no_progress extract_lets +onlyGivenNames z
    first
    | (refine (have hz : Keeps s z := ?_; ?_))
      subst z
      rotate_left
      try clear_value z
    | try clear_value z
  | with_reducible
      first
      | apply State.confWrote_keeps | apply State.each_keeps | apply keeps_ite | apply keeps_foldl
  | split

theorem State.recFix_keeps {s t : State} (h : Keeps s t) (a : Nat) :
    Keeps s (State.recFix t a) := by
  unfold State.recFix
  repeat' first
  | intro _
  | with_reducible assumption
  | fail_if_no_progress extract_lets +onlyGivenNames z
    first
    | (refine (have hz : Keeps s z := ?_; ?_))
      subst z
      rotate_left
      try clear_value z
    | try clear_value z
  | with_reducible
      first
      | apply State.each_keeps | apply State.puti_keeps | apply State.put_keeps | apply State.when_keeps
      | apply State.clampAll_keeps | apply keeps_ite | apply keeps_foldl
  | split

theorem State.brkHold_keeps {s t : State} (h : Keeps s t) (a : Nat) (st : Nat) (old : Nat) :
    Keeps s (State.brkHold t a st old) := by
  unfold State.brkHold
  repeat' first
  | intro _
  | with_reducible assumption
  | fail_if_no_progress extract_lets +onlyGivenNames z
    first
    | (refine (have hz : Keeps s z := ?_; ?_))
      subst z
      rotate_left
      try clear_value z
    | try clear_value z
  | with_reducible
      first
      | apply State.put_keeps | apply keeps_ite | apply keeps_foldl
  | split

theorem State.recPut_keeps {s t : State} (h : Keeps s t) (a : Nat) (off : Nat) (ws : List Nat) :
    Keeps s (State.recPut t a off ws) := by
  unfold State.recPut
  repeat' first
  | intro _
  | with_reducible assumption
  | fail_if_no_progress extract_lets +onlyGivenNames z
    first
    | (refine (have hz : Keeps s z := ?_; ?_))
      subst z
      rotate_left
      try clear_value z
    | try clear_value z
  | with_reducible
      first
      | apply State.brkHold_keeps | apply State.errWrote_keeps | apply State.putWords_keeps | apply State.recFix_keeps
      | apply keeps_ite | apply keeps_foldl
  | split

theorem State.trkStop_keeps {s t : State} (h : Keeps s t) (a : Nat) (k : Nat) (en : Fld) (bank : Fld) (sec : Fld)
    (coef : Fld) :
    Keeps s (State.trkStop t a k en bank sec coef) := by
  unfold State.trkStop
  repeat' first
  | intro _
  | with_reducible assumption
  | fail_if_no_progress extract_lets +onlyGivenNames z
    first
    | (refine (have hz : Keeps s z := ?_; ?_))
      subst z
      rotate_left
      try clear_value z
    | try clear_value z
  | with_reducible
      first
      | apply State.put_keeps | apply State.each_keeps | apply State.when_keeps | apply keeps_ite | apply keeps_foldl
  | split

theorem State.trkStops_keeps {s t : State} (h : Keeps s t) (y1 : State) (a : Nat) :
    Keeps s (State.trkStops t y1 a) := by
  unfold State.trkStops
  repeat' first
  | intro _
  | with_reducible assumption
  | fail_if_no_progress extract_lets +onlyGivenNames z
    first
    | (refine (have hz : Keeps s z := ?_; ?_))
      subst z
      rotate_left
      try clear_value z
    | try clear_value z
  | with_reducible
      first
      | apply State.trkStop_keeps | apply keeps_ite | apply keeps_foldl
  | split

theorem State.trkBeginOne_keeps {s t : State} (h : Keeps s t) (y1 : State) (a : Nat) (k : Nat) (en : Fld) (sec : Fld)
    :
    Keeps s (State.trkBeginOne t y1 a k en sec) := by
  unfold State.trkBeginOne
  repeat' first
  | intro _
  | with_reducible assumption
  | fail_if_no_progress extract_lets +onlyGivenNames z
    first
    | (refine (have hz : Keeps s z := ?_; ?_))
      subst z
      rotate_left
      try clear_value z
    | try clear_value z
  | with_reducible
      first
      | apply State.put_keeps | apply State.when_keeps | apply keeps_ite | apply keeps_foldl
  | split

theorem State.trkBegin_keeps {s t : State} (h : Keeps s t) (y1 : State) (a : Nat) :
    Keeps s (State.trkBegin t y1 a) := by
  unfold State.trkBegin
  repeat' first
  | intro _
  | with_reducible assumption
  | fail_if_no_progress extract_lets +onlyGivenNames z
    first
    | (refine (have hz : Keeps s z := ?_; ?_))
      subst z
      rotate_left
      try clear_value z
    | try clear_value z
  | with_reducible
      first
      | apply State.trkBeginOne_keeps | apply keeps_ite | apply keeps_foldl
  | split

theorem State.notchRaw_keeps {s t : State} (h : Keeps s t) (a : Nat) (off : Nat) (n : Nat) :
    Keeps s (State.notchRaw t a off n) := by
  unfold State.notchRaw
  repeat' first
  | intro _
  | with_reducible assumption
  | fail_if_no_progress extract_lets +onlyGivenNames z
    first
    | (refine (have hz : Keeps s z := ?_; ?_))
      subst z
      rotate_left
      try clear_value z
    | try clear_value z
  | with_reducible
      first
      | apply State.put_keeps | apply State.each_keeps | apply keeps_ite | apply keeps_foldl
  | split

theorem State.motoringOnly_keeps {s t : State} (h : Keeps s t) :
    Keeps s (State.motoringOnly t) := by
  unfold State.motoringOnly
  repeat' first
  | intro _
  | with_reducible assumption
  | fail_if_no_progress extract_lets +onlyGivenNames z
    first
    | (refine (have hz : Keeps s z := ?_; ?_))
      subst z
      rotate_left
      try clear_value z
    | try clear_value z
  | with_reducible
      first
      | apply State.put_keeps | apply State.each_keeps | apply keeps_ite | apply keeps_foldl
  | split

theorem State.swapWord_keeps {s t : State} (h : Keeps s t) (es : List OvlEntry) (y2 : Nat) :
    Keeps s (State.swapWord t es y2) := by
  unfold State.swapWord
  repeat' first
  | intro _
  | with_reducible assumption
  | fail_if_no_progress extract_lets +onlyGivenNames z
    first
    | (refine (have hz : Keeps s z := ?_; ?_))
      subst z
      rotate_left
      try clear_value z
    | try clear_value z
  | with_reducible
      first
      | apply State.brkHold_keeps | apply State.trkStops_keeps | apply State.trkBegin_keeps
      | apply State.putWord_keeps | apply State.put_keeps | apply keeps_ite | apply keeps_foldl
  | split

theorem State.fixTarget_keeps {s t : State} (h : Keeps s t) (y1 : Nat) :
    Keeps s (State.fixTarget t y1) := by
  unfold State.fixTarget
  repeat' first
  | intro _
  | with_reducible assumption
  | fail_if_no_progress extract_lets +onlyGivenNames z
    first
    | (refine (have hz : Keeps s z := ?_; ?_))
      subst z
      rotate_left
      try clear_value z
    | try clear_value z
  | with_reducible
      first
      | apply State.drvFix_keeps | apply State.clampAll_keeps | apply State.recFix_keeps | apply keeps_ite
      | apply keeps_foldl
  | split

theorem State.affClear_keeps {s t : State} (h : Keeps s t) (rec : Nat) :
    Keeps s (State.affClear t rec) := by
  unfold State.affClear
  repeat' first
  | intro _
  | with_reducible assumption
  | fail_if_no_progress extract_lets +onlyGivenNames z
    first
    | (refine (have hz : Keeps s z := ?_; ?_))
      subst z
      rotate_left
      try clear_value z
    | try clear_value z
  | with_reducible
      first
      | apply State.put_keeps | apply State.when_keeps | apply State.each_keeps | apply keeps_ite | apply keeps_foldl
  | split

theorem State.swapTo_keeps {s t : State} (h : Keeps s t) (b : Nat) :
    Keeps s (State.swapTo t b) := by
  unfold State.swapTo
  repeat' first
  | intro _
  | with_reducible assumption
  | fail_if_no_progress extract_lets +onlyGivenNames z
    first
    | (refine (have hz : Keeps s z := ?_; ?_))
      subst z
      rotate_left
      try clear_value z
    | try clear_value z
  | with_reducible
      first
      | apply State.put_keeps | apply State.stageAll_keeps | apply State.relink_keeps | apply State.affClear_keeps
      | apply State.motoringOnly_keeps | apply State.when_keeps | apply State.fixTarget_keeps
      | apply State.swapWord_keeps | apply State.each_keeps | apply keeps_ite | apply keeps_foldl
  | split
  | with_reducible apply keeps_mk

theorem State.swapNow_keeps {s t : State} (h : Keeps s t) (n : Nat) :
    Keeps s (State.swapNow t n) := by
  unfold State.swapNow
  repeat' first
  | intro _
  | with_reducible assumption
  | fail_if_no_progress extract_lets +onlyGivenNames z
    first
    | (refine (have hz : Keeps s z := ?_; ?_))
      subst z
      rotate_left
      try clear_value z
    | try clear_value z
  | with_reducible
      first
      | apply State.done_keeps | apply State.when_keeps | apply State.swapTo_keeps | apply State.put_keeps
      | apply keeps_ite | apply keeps_foldl
  | split

theorem execEnableTimeout_keeps {s t : State} (h : Keeps s t) (a : Nat) :
    KeepsOut s (execEnableTimeout a t) := by
  unfold execEnableTimeout
  repeat' first
  | intro _
  | with_reducible assumption
  | fail_if_no_progress extract_lets +onlyGivenNames z
    first
    | (refine (have hz : Keeps s z := ?_; ?_))
      subst z
      rotate_left
      try clear_value z
    | try clear_value z
  | with_reducible
      first
      | apply keepsOut_next | apply State.post_keeps | apply keeps_ite | apply keeps_foldl
  | split

theorem execStopHold_keeps {s t : State} (h : Keeps s t) (a : Nat) :
    KeepsOut s (execStopHold a t) := by
  unfold execStopHold
  repeat' first
  | intro _
  | with_reducible assumption
  | fail_if_no_progress extract_lets +onlyGivenNames z
    first
    | (refine (have hz : Keeps s z := ?_; ?_))
      subst z
      rotate_left
      try clear_value z
    | try clear_value z
  | with_reducible
      first
      | apply keepsOut_next | apply State.brake_keeps | apply State.stopPhase_keeps | apply keeps_ite
      | apply keeps_foldl
  | split

theorem execBrakeEngageDelay_keeps {s t : State} (h : Keeps s t) (a : Nat) :
    KeepsOut s (execBrakeEngageDelay a t) := by
  unfold execBrakeEngageDelay
  repeat' first
  | intro _
  | with_reducible assumption
  | fail_if_no_progress extract_lets +onlyGivenNames z
    first
    | (refine (have hz : Keeps s z := ?_; ?_))
      subst z
      rotate_left
      try clear_value z
    | try clear_value z
  | with_reducible
      first
      | apply keepsOut_next | apply State.post_keeps | apply keeps_ite | apply keeps_foldl
  | split

theorem execStopTimeout_keeps {s t : State} (h : Keeps s t) (a : Nat) :
    KeepsOut s (execStopTimeout a t) := by
  unfold execStopTimeout
  repeat' first
  | intro _
  | with_reducible assumption
  | fail_if_no_progress extract_lets +onlyGivenNames z
    first
    | (refine (have hz : Keeps s z := ?_; ?_))
      subst z
      rotate_left
      try clear_value z
    | try clear_value z
  | with_reducible
      first
      | apply keepsOut_next | apply State.post_keeps | apply keeps_ite | apply keeps_foldl
  | split

theorem execFrstTimeout_keeps {s t : State} (h : Keeps s t) (a : Nat) :
    KeepsOut s (execFrstTimeout a t) := by
  unfold execFrstTimeout
  repeat' first
  | intro _
  | with_reducible assumption
  | fail_if_no_progress extract_lets +onlyGivenNames z
    first
    | (refine (have hz : Keeps s z := ?_; ?_))
      subst z
      rotate_left
      try clear_value z
    | try clear_value z
  | with_reducible
      first
      | apply keepsOut_next | apply State.frstResolve_keeps | apply keeps_ite | apply keeps_foldl
  | split

theorem State.postReq_keeps {s t : State} (h : Keeps s t) (mb : Nat) (opc : Nat) (a : Nat) (k : AxKind) :
    Keeps s (State.postReq t mb opc a k) := by
  unfold State.postReq
  repeat' first
  | intro _
  | with_reducible assumption
  | fail_if_no_progress extract_lets +onlyGivenNames z
    first
    | (refine (have hz : Keeps s z := ?_; ?_))
      subst z
      rotate_left
      try clear_value z
    | try clear_value z
  | with_reducible
      first
      | apply State.wait_keeps | apply State.post_keeps | apply keeps_ite | apply keeps_foldl
  | split

theorem State.stateReq_keeps {s t : State} (h : Keeps s t) (mb : Nat) (opc : Nat) (k : AxKind) :
    Keeps s (State.stateReq t mb opc k) := by
  unfold State.stateReq
  repeat' first
  | intro _
  | with_reducible assumption
  | fail_if_no_progress extract_lets +onlyGivenNames z
    first
    | (refine (have hz : Keeps s z := ?_; ?_))
      subst z
      rotate_left
      try clear_value z
    | try clear_value z
  | with_reducible
      first
      | apply State.postReq_keeps | apply State.failSt_keeps | apply State.fail_keeps | apply State.request_keeps
      | apply keeps_ite | apply keeps_foldl
  | split

theorem execAxisEnable_keeps {s t : State} (h : Keeps s t) (mb : Nat) :
    KeepsOut s (execAxisEnable mb t) := by
  unfold execAxisEnable
  repeat' first
  | intro _
  | with_reducible assumption
  | fail_if_no_progress extract_lets +onlyGivenNames z
    first
    | (refine (have hz : Keeps s z := ?_; ?_))
      subst z
      rotate_left
      try clear_value z
    | try clear_value z
  | with_reducible
      first
      | apply keepsOut_next | apply State.stateReq_keeps | apply keeps_ite | apply keeps_foldl
  | split

theorem execAxisDisable_keeps {s t : State} (h : Keeps s t) (mb : Nat) :
    KeepsOut s (execAxisDisable mb t) := by
  unfold execAxisDisable
  repeat' first
  | intro _
  | with_reducible assumption
  | fail_if_no_progress extract_lets +onlyGivenNames z
    first
    | (refine (have hz : Keeps s z := ?_; ?_))
      subst z
      rotate_left
      try clear_value z
    | try clear_value z
  | with_reducible
      first
      | apply keepsOut_next | apply State.stateReq_keeps | apply keeps_ite | apply keeps_foldl
  | split

theorem execAxisFaultReset_keeps {s t : State} (h : Keeps s t) (mb : Nat) :
    KeepsOut s (execAxisFaultReset mb t) := by
  unfold execAxisFaultReset
  repeat' first
  | intro _
  | with_reducible assumption
  | fail_if_no_progress extract_lets +onlyGivenNames z
    first
    | (refine (have hz : Keeps s z := ?_; ?_))
      subst z
      rotate_left
      try clear_value z
    | try clear_value z
  | with_reducible
      first
      | apply keepsOut_next | apply State.stateReq_keeps | apply keeps_ite | apply keeps_foldl
  | split

theorem execAxisFaultRaise_keeps {s t : State} (h : Keeps s t) (mb : Nat) :
    KeepsOut s (execAxisFaultRaise mb t) := by
  unfold execAxisFaultRaise
  repeat' first
  | intro _
  | with_reducible assumption
  | fail_if_no_progress extract_lets +onlyGivenNames z
    first
    | (refine (have hz : Keeps s z := ?_; ?_))
      subst z
      rotate_left
      try clear_value z
    | try clear_value z
  | with_reducible
      first
      | apply keepsOut_next | apply State.stateReq_keeps | apply keeps_ite | apply keeps_foldl
  | split

theorem execAxisDeconfigure_keeps {s t : State} (h : Keeps s t) (mb : Nat) :
    KeepsOut s (execAxisDeconfigure mb t) := by
  unfold execAxisDeconfigure
  repeat' first
  | intro _
  | with_reducible assumption
  | fail_if_no_progress extract_lets +onlyGivenNames z
    first
    | (refine (have hz : Keeps s z := ?_; ?_))
      subst z
      rotate_left
      try clear_value z
    | try clear_value z
  | with_reducible
      first
      | apply keepsOut_next | apply State.stateReq_keeps | apply keeps_ite | apply keeps_foldl
  | split

theorem State.supUp_keeps {s t : State} (h : Keeps s t) (r : Nat) :
    Keeps s (State.supUp t r) := by
  unfold State.supUp
  repeat' first
  | intro _
  | with_reducible assumption
  | fail_if_no_progress extract_lets +onlyGivenNames z
    first
    | (refine (have hz : Keeps s z := ?_; ?_))
      subst z
      rotate_left
      try clear_value z
    | try clear_value z
  | with_reducible
      first
      | apply State.stageAll_keeps | apply State.when_keeps | apply State.freeDesc_keeps | apply State.put_keeps
      | apply keeps_ite | apply keeps_foldl
  | split

theorem State.axBind_keeps {s t : State} (h : Keeps s t) (p : List Nat) :
    Keeps s (State.axBind t p) := by
  unfold State.axBind
  repeat' first
  | intro _
  | with_reducible assumption
  | fail_if_no_progress extract_lets +onlyGivenNames z
    first
    | (refine (have hz : Keeps s z := ?_; ?_))
      subst z
      rotate_left
      try clear_value z
    | try clear_value z
  | with_reducible
      first
      | apply State.put_keeps | apply keeps_ite | apply keeps_foldl
  | split

theorem State.cfgStage_keeps {s t : State} (h : Keeps s t) (p : List Nat) :
    Keeps s (State.cfgStage t p) := by
  unfold State.cfgStage
  repeat' first
  | intro _
  | with_reducible assumption
  | fail_if_no_progress extract_lets +onlyGivenNames z
    first
    | (refine (have hz : Keeps s z := ?_; ?_))
      subst z
      rotate_left
      try clear_value z
    | try clear_value z
  | with_reducible
      first
      | apply State.relink_keeps | apply State.supUp_keeps | apply State.axBind_keeps | apply State.put_keeps
      | apply keeps_ite | apply keeps_foldl
  | split

theorem execAxisConfigure_keeps {s t : State} (h : Keeps s t) (mb : Nat) :
    KeepsOut s (execAxisConfigure mb t) := by
  unfold execAxisConfigure
  repeat' first
  | intro _
  | with_reducible assumption
  | fail_if_no_progress extract_lets +onlyGivenNames z
    first
    | (refine (have hz : Keeps s z := ?_; ?_))
      subst z
      rotate_left
      try clear_value z
    | try clear_value z
  | with_reducible
      first
      | apply keepsOut_next | apply State.postReq_keeps | apply State.fail_keeps | apply State.request_keeps
      | apply keeps_ite | apply keeps_foldl
  | split

theorem execAxisReactions_keeps {s t : State} (h : Keeps s t) (mb : Nat) :
    KeepsOut s (execAxisReactions mb t) := by
  unfold execAxisReactions
  repeat' first
  | intro _
  | with_reducible assumption
  | fail_if_no_progress extract_lets +onlyGivenNames z
    first
    | (refine (have hz : Keeps s z := ?_; ?_))
      subst z
      rotate_left
      try clear_value z
    | try clear_value z
  | with_reducible
      first
      | apply keepsOut_next | apply State.recFix_keeps | apply State.confWroteAll_keeps | apply State.done_keeps
      | apply State.put_keeps | apply State.each_keeps | apply State.fail_keeps | apply State.request_keeps
      | apply keeps_ite | apply keeps_foldl
  | split

theorem execRecRead_keeps {s t : State} (h : Keeps s t) (mb : Nat) :
    KeepsOut s (execRecRead mb t) := by
  unfold execRecRead
  repeat' first
  | intro _
  | with_reducible assumption
  | fail_if_no_progress extract_lets +onlyGivenNames z
    first
    | (refine (have hz : Keeps s z := ?_; ?_))
      subst z
      rotate_left
      try clear_value z
    | try clear_value z
  | with_reducible
      first
      | apply keepsOut_next | apply State.done_keeps | apply State.fail_keeps | apply State.request_keeps
      | apply keeps_ite | apply keeps_foldl
  | split

theorem State.recWrite_keeps {s t : State} (h : Keeps s t) (mb : Nat) (a : Nat) (off : Nat) (ws : List Nat) :
    Keeps s (State.recWrite t mb a off ws) := by
  unfold State.recWrite
  repeat' first
  | intro _
  | with_reducible assumption
  | fail_if_no_progress extract_lets +onlyGivenNames z
    first
    | (refine (have hz : Keeps s z := ?_; ?_))
      subst z
      rotate_left
      try clear_value z
    | try clear_value z
  | with_reducible
      first
      | apply State.done_keeps | apply State.confWroteAll_keeps | apply State.relink_keeps
      | apply State.trkStops_keeps | apply State.notchRaw_keeps | apply State.trkBegin_keeps | apply State.fail_keeps
      | apply State.recPut_keeps | apply keeps_ite | apply keeps_foldl
  | split

theorem execRecWrite_keeps {s t : State} (h : Keeps s t) (mb : Nat) :
    KeepsOut s (execRecWrite mb t) := by
  unfold execRecWrite
  repeat' first
  | intro _
  | with_reducible assumption
  | fail_if_no_progress extract_lets +onlyGivenNames z
    first
    | (refine (have hz : Keeps s z := ?_; ?_))
      subst z
      rotate_left
      try clear_value z
    | try clear_value z
  | with_reducible
      first
      | apply keepsOut_next | apply State.recWrite_keeps | apply State.fail_keeps | apply State.request_keeps
      | apply keeps_ite | apply keeps_foldl
  | split

theorem State.putShift_keeps {s t : State} (h : Keeps s t) (a : Nat) (k : Nat) (sh : Nat) :
    Keeps s (State.putShift t a k sh) := by
  unfold State.putShift
  repeat' first
  | intro _
  | with_reducible assumption
  | fail_if_no_progress extract_lets +onlyGivenNames z
    first
    | (refine (have hz : Keeps s z := ?_; ?_))
      subst z
      rotate_left
      try clear_value z
    | try clear_value z
  | with_reducible
      first
      | apply State.put_keeps | apply keeps_ite | apply keeps_foldl
  | split

theorem State.putSection_keeps {s t : State} (h : Keeps s t) (a : Nat) (k : Nat) (c : Nat × List Int) :
    Keeps s (State.putSection t a k c) := by
  unfold State.putSection
  repeat' first
  | intro _
  | with_reducible assumption
  | fail_if_no_progress extract_lets +onlyGivenNames z
    first
    | (refine (have hz : Keeps s z := ?_; ?_))
      subst z
      rotate_left
      try clear_value z
    | try clear_value z
  | with_reducible
      first
      | apply State.clearBit_keeps | apply State.puti_keeps | apply State.each_keeps | apply State.putShift_keeps
      | apply State.orBit_keeps | apply keeps_ite | apply keeps_foldl
  | split

theorem State.withRecipe_keeps {s t : State} (h : Keeps s t) (mb : Nat) :
    Keeps s (State.withRecipe t mb) := by
  unfold State.withRecipe
  repeat' first
  | intro _
  | with_reducible assumption
  | fail_if_no_progress extract_lets +onlyGivenNames z
    first
    | (refine (have hz : Keeps s z := ?_; ?_))
      subst z
      rotate_left
      try clear_value z
    | try clear_value z
  | with_reducible
      first
      | apply State.confWroteAll_keeps | apply State.relink_keeps | apply State.putSection_keeps
      | apply State.put_keeps | apply keeps_ite | apply keeps_foldl
  | split

theorem execSecRecipe_keeps {s t : State} (h : Keeps s t) (mb : Nat) :
    KeepsOut s (execSecRecipe mb t) := by
  unfold execSecRecipe
  repeat' first
  | intro _
  | with_reducible assumption
  | fail_if_no_progress extract_lets +onlyGivenNames z
    first
    | (refine (have hz : Keeps s z := ?_; ?_))
      subst z
      rotate_left
      try clear_value z
    | try clear_value z
  | with_reducible
      first
      | apply keepsOut_next | apply State.done_keeps | apply State.withRecipe_keeps | apply State.fail_keeps
      | apply State.request_keeps | apply keeps_ite | apply keeps_foldl
  | split

theorem execGrpRead_keeps {s t : State} (h : Keeps s t) (mb : Nat) :
    KeepsOut s (execGrpRead mb t) := by
  unfold execGrpRead
  repeat' first
  | intro _
  | with_reducible assumption
  | fail_if_no_progress extract_lets +onlyGivenNames z
    first
    | (refine (have hz : Keeps s z := ?_; ?_))
      subst z
      rotate_left
      try clear_value z
    | try clear_value z
  | with_reducible
      first
      | apply keepsOut_next | apply State.done_keeps | apply State.fail_keeps | apply State.request_keeps
      | apply keeps_ite | apply keeps_foldl
  | split

theorem State.grpLeave_keeps {s t : State} (h : Keeps s t) (g : Nat) (gone : List Nat) (last : Bool) :
    Keeps s (State.grpLeave t g gone last) := by
  unfold State.grpLeave
  repeat' first
  | intro _
  | with_reducible assumption
  | fail_if_no_progress extract_lets +onlyGivenNames z
    first
    | (refine (have hz : Keeps s z := ?_; ?_))
      subst z
      rotate_left
      try clear_value z
    | try clear_value z
  | with_reducible
      first
      | apply State.when_keeps | apply State.relink_keeps | apply State.freeDesc_keeps | apply State.put_keeps
      | apply State.each_keeps | apply keeps_ite | apply keeps_foldl
  | split

theorem State.grpForm_keeps {s t : State} (h : Keeps s t) (g : Nat) :
    Keeps s (State.grpForm t g) := by
  unfold State.grpForm
  repeat' first
  | intro _
  | with_reducible assumption
  | fail_if_no_progress extract_lets +onlyGivenNames z
    first
    | (refine (have hz : Keeps s z := ?_; ?_))
      subst z
      rotate_left
      try clear_value z
    | try clear_value z
  | with_reducible
      first
      | apply State.relink_keeps | apply State.each_keeps | apply State.stageAll_keeps | apply State.put_keeps
      | apply State.when_keeps | apply keeps_ite | apply keeps_foldl
  | split

theorem execGrpWrite_keeps {s t : State} (h : Keeps s t) (mb : Nat) :
    KeepsOut s (execGrpWrite mb t) := by
  unfold execGrpWrite
  repeat' first
  | intro _
  | with_reducible assumption
  | fail_if_no_progress extract_lets +onlyGivenNames z
    first
    | (refine (have hz : Keeps s z := ?_; ?_))
      subst z
      rotate_left
      try clear_value z
    | try clear_value z
  | with_reducible
      first
      | apply keepsOut_next | apply State.done_keeps | apply State.confWroteAll_keeps | apply State.grpForm_keeps
      | apply State.stageAll_keeps | apply State.grpLeave_keeps | apply State.putWords_keeps
      | apply State.clampAll_keeps | apply State.fail_keeps | apply State.request_keeps | apply keeps_ite
      | apply keeps_foldl
  | split

theorem State.lffBind_keeps {s t : State} (h : Keeps s t) (y1 : Nat) :
    Keeps s (State.lffBind t y1) := by
  unfold State.lffBind
  repeat' first
  | intro _
  | with_reducible assumption
  | fail_if_no_progress extract_lets +onlyGivenNames z
    first
    | (refine (have hz : Keeps s z := ?_; ?_))
      subst z
      rotate_left
      try clear_value z
    | try clear_value z
  | with_reducible
      first
      | apply State.freeDesc_keeps | apply State.put_keeps | apply State.descStage_keeps | apply keeps_ite
      | apply keeps_foldl
  | split

theorem execLffWrite_keeps {s t : State} (h : Keeps s t) (mb : Nat) :
    KeepsOut s (execLffWrite mb t) := by
  unfold execLffWrite
  repeat' first
  | intro _
  | with_reducible assumption
  | fail_if_no_progress extract_lets +onlyGivenNames z
    first
    | (refine (have hz : Keeps s z := ?_; ?_))
      subst z
      rotate_left
      try clear_value z
    | try clear_value z
  | with_reducible
      first
      | apply keepsOut_next | apply State.done_keeps | apply State.post_keeps | apply State.when_keeps
      | apply State.lffBind_keeps | apply State.lffShow_keeps | apply State.confWroteAll_keeps
      | apply State.putWords_keeps | apply State.clampAll_keeps | apply State.fail_keeps | apply State.request_keeps
      | apply keeps_ite | apply keeps_foldl
  | split

theorem State.lffClear_keeps {s t : State} (h : Keeps s t) (y1 : Nat) :
    Keeps s (State.lffClear t y1) := by
  unfold State.lffClear
  repeat' first
  | intro _
  | with_reducible assumption
  | fail_if_no_progress extract_lets +onlyGivenNames z
    first
    | (refine (have hz : Keeps s z := ?_; ?_))
      subst z
      rotate_left
      try clear_value z
    | try clear_value z
  | with_reducible
      first
      | apply State.lffShow_keeps | apply State.put_keeps | apply State.zeroRange_keeps | apply keeps_ite
      | apply keeps_foldl
  | split

theorem execLffClear_keeps {s t : State} (h : Keeps s t) (mb : Nat) :
    KeepsOut s (execLffClear mb t) := by
  unfold execLffClear
  repeat' first
  | intro _
  | with_reducible assumption
  | fail_if_no_progress extract_lets +onlyGivenNames z
    first
    | (refine (have hz : Keeps s z := ?_; ?_))
      subst z
      rotate_left
      try clear_value z
    | try clear_value z
  | with_reducible
      first
      | apply keepsOut_next | apply State.lffClear_keeps | apply State.done_keeps | apply State.fail_keeps
      | apply State.request_keeps | apply keeps_ite | apply keeps_foldl
  | split

theorem execLffExport_keeps {s t : State} (h : Keeps s t) (mb : Nat) :
    KeepsOut s (execLffExport mb t) := by
  unfold execLffExport
  repeat' first
  | intro _
  | with_reducible assumption
  | fail_if_no_progress extract_lets +onlyGivenNames z
    first
    | (refine (have hz : Keeps s z := ?_; ?_))
      subst z
      rotate_left
      try clear_value z
    | try clear_value z
  | with_reducible
      first
      | apply keepsOut_next | apply State.done_keeps | apply State.request_keeps | apply keeps_ite | apply keeps_foldl
  | split

theorem execLffImport_keeps {s t : State} (h : Keeps s t) (mb : Nat) :
    KeepsOut s (execLffImport mb t) := by
  unfold execLffImport
  repeat' first
  | intro _
  | with_reducible assumption
  | fail_if_no_progress extract_lets +onlyGivenNames z
    first
    | (refine (have hz : Keeps s z := ?_; ?_))
      subst z
      rotate_left
      try clear_value z
    | try clear_value z
  | with_reducible
      first
      | apply keepsOut_next | apply State.orBit_keeps | apply State.done_keeps | apply State.setBytes_keeps
      | apply State.request_keeps | apply keeps_ite | apply keeps_foldl
  | split

theorem State.pageMark_keeps {s t : State} (h : Keeps s t) (p : Nat) (n : Nat) (v : Nat) :
    Keeps s (State.pageMark t p n v) := by
  unfold State.pageMark
  repeat' first
  | intro _
  | with_reducible assumption
  | fail_if_no_progress extract_lets +onlyGivenNames z
    first
    | (refine (have hz : Keeps s z := ?_; ?_))
      subst z
      rotate_left
      try clear_value z
    | try clear_value z
  | with_reducible
      first
      | apply State.put_keeps | apply State.each_keeps | apply keeps_ite | apply keeps_foldl
  | split

theorem State.probeFree_keeps {s t : State} (h : Keeps s t) (a : Nat) :
    Keeps s (State.probeFree t a) := by
  unfold State.probeFree
  repeat' first
  | intro _
  | with_reducible assumption
  | fail_if_no_progress extract_lets +onlyGivenNames z
    first
    | (refine (have hz : Keeps s z := ?_; ?_))
      subst z
      rotate_left
      try clear_value z
    | try clear_value z
  | with_reducible
      first
      | apply State.pageMark_keeps | apply State.put_keeps | apply keeps_ite | apply keeps_foldl
  | split

theorem State.orphFree_keeps {s t : State} (h : Keeps s t) (a : Nat) :
    Keeps s (State.orphFree t a) := by
  unfold State.orphFree
  repeat' first
  | intro _
  | with_reducible assumption
  | fail_if_no_progress extract_lets +onlyGivenNames z
    first
    | (refine (have hz : Keeps s z := ?_; ?_))
      subst z
      rotate_left
      try clear_value z
    | try clear_value z
  | with_reducible
      first
      | apply State.pageMark_keeps | apply State.put_keeps | apply State.when_keeps | apply State.each_keeps
      | apply keeps_ite | apply keeps_foldl
  | split

theorem State.pageHead_keeps {s t : State} (h : Keeps s t) (p : Nat) (cap : Nat) (a : Nat) :
    Keeps s (State.pageHead t p cap a) := by
  unfold State.pageHead
  repeat' first
  | intro _
  | with_reducible assumption
  | fail_if_no_progress extract_lets +onlyGivenNames z
    first
    | (refine (have hz : Keeps s z := ?_; ?_))
      subst z
      rotate_left
      try clear_value z
    | try clear_value z
  | with_reducible
      first
      | apply State.setBytes_keeps | apply State.store_keeps | apply keeps_ite | apply keeps_foldl
  | split

theorem execProbeAlloc_keeps {s t : State} (h : Keeps s t) (mb : Nat) :
    KeepsOut s (execProbeAlloc mb t) := by
  unfold execProbeAlloc
  repeat' first
  | intro _
  | with_reducible assumption
  | fail_if_no_progress extract_lets +onlyGivenNames z
    first
    | (refine (have hz : Keeps s z := ?_; ?_))
      subst z
      rotate_left
      try clear_value z
    | try clear_value z
  | with_reducible
      first
      | apply keepsOut_next | apply State.pageHead_keeps | apply State.done_keeps | apply State.pageMark_keeps
      | apply State.put_keeps | apply State.probeFree_keeps | apply State.orphFree_keeps | apply State.fail_keeps
      | apply State.request_keeps | apply keeps_ite | apply keeps_foldl
  | split

theorem State.sweepSet_keeps {s t : State} (h : Keeps s t) (c : Nat) (a : Nat) (mb : Nat) (page : Nat) (len : Nat) :
    Keeps s (State.sweepSet t c a mb page len) := by
  unfold State.sweepSet
  repeat' first
  | intro _
  | with_reducible assumption
  | fail_if_no_progress extract_lets +onlyGivenNames z
    first
    | (refine (have hz : Keeps s z := ?_; ?_))
      subst z
      rotate_left
      try clear_value z
    | try clear_value z
  | with_reducible
      first
      | apply State.pageHead_keeps | apply State.relink_keeps | apply State.pageMark_keeps | apply State.each_keeps
      | apply State.put_keeps | apply keeps_ite | apply keeps_foldl
  | split

theorem execSweepStart_keeps {s t : State} (h : Keeps s t) (mb : Nat) :
    KeepsOut s (execSweepStart mb t) := by
  unfold execSweepStart
  repeat' first
  | intro _
  | with_reducible assumption
  | fail_if_no_progress extract_lets +onlyGivenNames z
    first
    | (refine (have hz : Keeps s z := ?_; ?_))
      subst z
      rotate_left
      try clear_value z
    | try clear_value z
  | with_reducible
      first
      | apply keepsOut_next | apply State.put_keeps | apply State.lopStart_keeps | apply State.sweepSet_keeps
      | apply State.orphFree_keeps | apply State.failSt_keeps | apply State.fail_keeps | apply State.request_keeps
      | apply keeps_ite | apply keeps_foldl
  | split

theorem State.accept_keeps {s t : State} (h : Keeps s t) (m : Motion) :
    Keeps s (State.accept t m) := by
  unfold State.accept
  repeat' first
  | intro _
  | with_reducible assumption
  | fail_if_no_progress extract_lets +onlyGivenNames z
    first
    | (refine (have hz : Keeps s z := ?_; ?_))
      subst z
      rotate_left
      try clear_value z
    | try clear_value z
  | with_reducible
      first
      | apply State.setMotion_keeps | apply State.showMotion_keeps | apply keeps_ite | apply keeps_foldl
  | split

theorem State.coast_keeps {s t : State} (h : Keeps s t) (a : Nat) :
    Keeps s (State.coast t a) := by
  unfold State.coast
  repeat' first
  | intro _
  | with_reducible assumption
  | fail_if_no_progress extract_lets +onlyGivenNames z
    first
    | (refine (have hz : Keeps s z := ?_; ?_))
      subst z
      rotate_left
      try clear_value z
    | try clear_value z
  | with_reducible
      first
      | apply keeps_ite | apply keeps_foldl
  | split
  | with_reducible apply keeps_mk

theorem State.takeMove_keeps {s t : State} (h : Keeps s t) (a : Nat) (mb : Nat) (ta : Nat) :
    Keeps s (State.takeMove t a mb ta) := by
  unfold State.takeMove
  repeat' first
  | intro _
  | with_reducible assumption
  | fail_if_no_progress extract_lets +onlyGivenNames z
    first
    | (refine (have hz : Keeps s z := ?_; ?_))
      subst z
      rotate_left
      try clear_value z
    | try clear_value z
  | with_reducible
      first
      | apply State.accept_keeps | apply State.done_keeps | apply State.coast_keeps | apply State.when_keeps
      | apply State.fail_keeps | apply State.failSt_keeps | apply keeps_ite | apply keeps_foldl
  | split

theorem State.takeStop_keeps {s t : State} (h : Keeps s t) (a : Nat) (mb : Nat) (ta : Nat) :
    Keeps s (State.takeStop t a mb ta) := by
  unfold State.takeStop
  dsimp only
  repeat' first
  | intro _
  | with_reducible assumption
  | with_reducible
      first
      | apply State.accept_keeps | apply State.homingEnd_keeps | apply State.when_keeps | apply State.failSt_keeps
      | apply State.done_keeps | apply keeps_ite | apply keeps_foldl
  | split

theorem State.segStart_keeps {s t : State} (h : Keeps s t) (a : Nat) (y2 : Nat) (x : Pva) (g : Seg) (mid : optParam
    Nat 0) (run : optParam Nat 0) (begun : optParam Bool true) :
    Keeps s (State.segStart t a y2 x g mid run begun) := by
  unfold State.segStart
  repeat' first
  | intro _
  | with_reducible assumption
  | fail_if_no_progress extract_lets +onlyGivenNames z
    first
    | (refine (have hz : Keeps s z := ?_; ?_))
      subst z
      rotate_left
      try clear_value z
    | try clear_value z
  | with_reducible
      first
      | apply State.flushSegs_keeps | apply State.puti_keeps | apply State.showMotion_keeps
      | apply State.insMotion_keeps | apply State.when_keeps | apply State.put_keeps | apply keeps_ite
      | apply keeps_foldl
  | split
  | with_reducible apply keeps_mk

theorem State.takeTable_keeps {s t : State} (h : Keeps s t) (a : Nat) (mb : Nat) (ta : Nat) :
    Keeps s (State.takeTable t a mb ta) := by
  unfold State.takeTable
  repeat' first
  | intro _
  | with_reducible assumption
  | fail_if_no_progress extract_lets +onlyGivenNames z
    first
    | (refine (have hz : Keeps s z := ?_; ?_))
      subst z
      rotate_left
      try clear_value z
    | try clear_value z
  | with_reducible
      first
      | apply State.done_keeps | apply State.put_keeps | apply State.setMotion_keeps | apply State.showMotion_keeps
      | apply State.fail_keeps | apply State.failSt_keeps | apply keeps_ite | apply keeps_foldl
  | split

theorem State.takeAppend_keeps {s t : State} (h : Keeps s t) (a : Nat) (mb : Nat) (ta : Nat) :
    Keeps s (State.takeAppend t a mb ta) := by
  unfold State.takeAppend
  repeat' first
  | intro _
  | with_reducible assumption
  | fail_if_no_progress extract_lets +onlyGivenNames z
    first
    | (refine (have hz : Keeps s z := ?_; ?_))
      subst z
      rotate_left
      try clear_value z
    | try clear_value z
  | with_reducible
      first
      | apply State.done_keeps | apply State.when_keeps | apply State.segStart_keeps | apply State.put_keeps
      | apply State.fail_keeps | apply State.failSt_keeps | apply keeps_ite | apply keeps_foldl
  | split
  | with_reducible apply keeps_mk

theorem State.segUnder_keeps {s t : State} (h : Keeps s t) (a : Nat) (late : Nat) (x : Pva) :
    Keeps s (State.segUnder t a late x) := by
  unfold State.segUnder
  repeat' first
  | intro _
  | with_reducible assumption
  | fail_if_no_progress extract_lets +onlyGivenNames z
    first
    | (refine (have hz : Keeps s z := ?_; ?_))
      subst z
      rotate_left
      try clear_value z
    | try clear_value z
  | with_reducible
      first
      | apply State.showMotion_keeps | apply State.when_keeps | apply State.segStart_keeps
      | apply State.insMotion_keeps | apply State.put_keeps | apply State.incSat_keeps | apply keeps_ite
      | apply keeps_foldl
  | split

theorem execSegmentEnd_keeps {s t : State} (h : Keeps s t) (a : Nat) :
    KeepsOut s (execSegmentEnd a t) := by
  unfold execSegmentEnd
  repeat' first
  | intro _
  | with_reducible assumption
  | fail_if_no_progress extract_lets +onlyGivenNames z
    first
    | (refine (have hz : Keeps s z := ?_; ?_))
      subst z
      rotate_left
      try clear_value z
    | try clear_value z
  | with_reducible
      first
      | apply keepsOut_next | apply State.segUnder_keeps | apply State.segStart_keeps | apply State.axEvt_keeps
      | apply State.when_keeps | apply State.put_keeps | apply keeps_ite | apply keeps_foldl
  | split

theorem State.takeHome_keeps {s t : State} (h : Keeps s t) (a : Nat) (mb : Nat) (ta : Nat) :
    Keeps s (State.takeHome t a mb ta) := by
  unfold State.takeHome
  repeat' first
  | intro _
  | with_reducible assumption
  | fail_if_no_progress extract_lets +onlyGivenNames z
    first
    | (refine (have hz : Keeps s z := ?_; ?_))
      subst z
      rotate_left
      try clear_value z
    | try clear_value z
  | with_reducible
      first
      | apply State.accept_keeps | apply State.put_keeps | apply State.lopProgress_keeps | apply State.lopStart_keeps
      | apply State.fail_keeps | apply State.failSt_keeps | apply keeps_ite | apply keeps_foldl
  | split

theorem State.takeHomeLop_keeps {s t : State} (h : Keeps s t) (a : Nat) (k : Nat) (mb : Nat) (ta : Nat) :
    Keeps s (State.takeHomeLop t a k mb ta) := by
  unfold State.takeHomeLop
  repeat' first
  | intro _
  | with_reducible assumption
  | fail_if_no_progress extract_lets +onlyGivenNames z
    first
    | (refine (have hz : Keeps s z := ?_; ?_))
      subst z
      rotate_left
      try clear_value z
    | try clear_value z
  | with_reducible
      first
      | apply State.wait_keeps | apply State.quickStop_keeps | apply State.homingEnd_keeps
      | apply State.homeLatches_keeps | apply State.homeGo_keeps | apply State.cause_keeps | apply State.put_keeps
      | apply State.done_keeps | apply State.fail_keeps | apply keeps_ite | apply keeps_foldl
  | split

theorem State.takeSweepLop_keeps {s t : State} (h : Keeps s t) (c : Nat) (k : Nat) (mb : Nat) :
    Keeps s (State.takeSweepLop t c k mb) := by
  unfold State.takeSweepLop
  repeat' first
  | intro _
  | with_reducible assumption
  | fail_if_no_progress extract_lets +onlyGivenNames z
    first
    | (refine (have hz : Keeps s z := ?_; ?_))
      subst z
      rotate_left
      try clear_value z
    | try clear_value z
  | with_reducible
      first
      | apply State.sweepEnd_keeps | apply State.done_keeps | apply State.fail_keeps | apply keeps_ite
      | apply keeps_foldl
  | split

theorem State.takeMotion_keeps {s t : State} (h : Keeps s t) (a : Nat) (mb : Nat) (ta : Nat) :
    Keeps s (State.takeMotion t a mb ta) := by
  unfold State.takeMotion
  repeat' first
  | intro _
  | with_reducible assumption
  | fail_if_no_progress extract_lets +onlyGivenNames z
    first
    | (refine (have hz : Keeps s z := ?_; ?_))
      subst z
      rotate_left
      try clear_value z
    | try clear_value z
  | with_reducible
      first
      | apply State.takeHomeLop_keeps | apply State.takeSweepLop_keeps | apply State.fail_keeps
      | apply State.takeHome_keeps | apply State.takeTable_keeps | apply State.takeAppend_keeps
      | apply State.takeStop_keeps | apply State.takeMove_keeps | apply keeps_ite | apply keeps_foldl
  | split

theorem State.lrnRetime_keeps {s t : State} (h : Keeps s t) (m : Motion) :
    Keeps s (State.lrnRetime t m) := by
  unfold State.lrnRetime
  repeat' first
  | intro _
  | with_reducible assumption
  | fail_if_no_progress extract_lets +onlyGivenNames z
    first
    | (refine (have hz : Keeps s z := ?_; ?_))
      subst z
      rotate_left
      try clear_value z
    | try clear_value z
  | with_reducible
      first
      | apply State.put_keeps | apply State.when_keeps | apply State.lrnTiming_keeps | apply keeps_ite
      | apply keeps_foldl
  | split

theorem State.holdFlush_keeps {s t : State} (h : Keeps s t) (m : Motion) :
    Keeps s (State.holdFlush t m) := by
  unfold State.holdFlush
  repeat' first
  | intro _
  | with_reducible assumption
  | fail_if_no_progress extract_lets +onlyGivenNames z
    first
    | (refine (have hz : Keeps s z := ?_; ?_))
      subst z
      rotate_left
      try clear_value z
    | try clear_value z
  | with_reducible
      first
      | apply State.flushTable_keeps | apply State.when_keeps | apply keeps_ite | apply keeps_foldl
  | split

theorem State.takeHold_keeps {s t : State} (h : Keeps s t) (m : Motion) :
    Keeps s (State.takeHold t m) := by
  unfold State.takeHold
  repeat' first
  | intro _
  | with_reducible assumption
  | fail_if_no_progress extract_lets +onlyGivenNames z
    first
    | (refine (have hz : Keeps s z := ?_; ?_))
      subst z
      rotate_left
      try clear_value z
    | try clear_value z
  | with_reducible
      first
      | apply State.homeStart_keeps | apply State.showMotion_keeps | apply State.when_keeps
      | apply State.holdFlush_keeps | apply State.lrnRetime_keeps | apply State.segStart_keeps | apply keeps_ite
      | apply keeps_foldl
  | split
  | with_reducible apply keeps_mk

theorem execMotionTakesHold_keeps {s t : State} (h : Keeps s t) (a : Nat) :
    KeepsOut s (execMotionTakesHold a t) := by
  unfold execMotionTakesHold
  repeat' first
  | intro _
  | with_reducible assumption
  | fail_if_no_progress extract_lets +onlyGivenNames z
    first
    | (refine (have hz : Keeps s z := ?_; ?_))
      subst z
      rotate_left
      try clear_value z
    | try clear_value z
  | with_reducible
      first
      | apply keepsOut_next | apply State.takeHold_keeps | apply keeps_ite | apply keeps_foldl
  | split

theorem execHomingTimeout_keeps {s t : State} (h : Keeps s t) (a : Nat) :
    KeepsOut s (execHomingTimeout a t) := by
  unfold execHomingTimeout
  repeat' first
  | intro _
  | with_reducible assumption
  | fail_if_no_progress extract_lets +onlyGivenNames z
    first
    | (refine (have hz : Keeps s z := ?_; ?_))
      subst z
      rotate_left
      try clear_value z
    | try clear_value z
  | with_reducible
      first
      | apply keepsOut_next | apply State.homeAbort_keeps | apply keeps_ite | apply keeps_foldl
  | split

theorem execHardStopStall_keeps {s t : State} (h : Keeps s t) (a : Nat) :
    KeepsOut s (execHardStopStall a t) := by
  unfold execHardStopStall
  repeat' first
  | intro _
  | with_reducible assumption
  | fail_if_no_progress extract_lets +onlyGivenNames z
    first
    | (refine (have hz : Keeps s z := ?_; ?_))
      subst z
      rotate_left
      try clear_value z
    | try clear_value z
  | with_reducible
      first
      | apply keepsOut_next | apply State.homeRef_keeps | apply State.homeNext_keeps | apply keeps_ite
      | apply keeps_foldl
  | split

theorem State.motionReq_keeps {s t : State} (h : Keeps s t) (mb : Nat) (opc : Nat) (minLen : Nat) :
    Keeps s (State.motionReq t mb opc minLen) := by
  unfold State.motionReq
  repeat' first
  | intro _
  | with_reducible assumption
  | fail_if_no_progress extract_lets +onlyGivenNames z
    first
    | (refine (have hz : Keeps s z := ?_; ?_))
      subst z
      rotate_left
      try clear_value z
    | try clear_value z
  | with_reducible
      first
      | apply State.postReq_keeps | apply State.failSt_keeps | apply State.fail_keeps | apply State.request_keeps
      | apply keeps_ite | apply keeps_foldl
  | split

theorem execMove_keeps {s t : State} (h : Keeps s t) (mb : Nat) :
    KeepsOut s (execMove mb t) := by
  unfold execMove
  repeat' first
  | intro _
  | with_reducible assumption
  | fail_if_no_progress extract_lets +onlyGivenNames z
    first
    | (refine (have hz : Keeps s z := ?_; ?_))
      subst z
      rotate_left
      try clear_value z
    | try clear_value z
  | with_reducible
      first
      | apply keepsOut_next | apply State.motionReq_keeps | apply keeps_ite | apply keeps_foldl
  | split

theorem execStop_keeps {s t : State} (h : Keeps s t) (mb : Nat) :
    KeepsOut s (execStop mb t) := by
  unfold execStop
  repeat' first
  | intro _
  | with_reducible assumption
  | fail_if_no_progress extract_lets +onlyGivenNames z
    first
    | (refine (have hz : Keeps s z := ?_; ?_))
      subst z
      rotate_left
      try clear_value z
    | try clear_value z
  | with_reducible
      first
      | apply keepsOut_next | apply State.motionReq_keeps | apply keeps_ite | apply keeps_foldl
  | split

theorem execTableStart_keeps {s t : State} (h : Keeps s t) (mb : Nat) :
    KeepsOut s (execTableStart mb t) := by
  unfold execTableStart
  repeat' first
  | intro _
  | with_reducible assumption
  | fail_if_no_progress extract_lets +onlyGivenNames z
    first
    | (refine (have hz : Keeps s z := ?_; ?_))
      subst z
      rotate_left
      try clear_value z
    | try clear_value z
  | with_reducible
      first
      | apply keepsOut_next | apply State.motionReq_keeps | apply keeps_ite | apply keeps_foldl
  | split

theorem execHomeStart_keeps {s t : State} (h : Keeps s t) (mb : Nat) :
    KeepsOut s (execHomeStart mb t) := by
  unfold execHomeStart
  repeat' first
  | intro _
  | with_reducible assumption
  | fail_if_no_progress extract_lets +onlyGivenNames z
    first
    | (refine (have hz : Keeps s z := ?_; ?_))
      subst z
      rotate_left
      try clear_value z
    | try clear_value z
  | with_reducible
      first
      | apply keepsOut_next | apply State.motionReq_keeps | apply keeps_ite | apply keeps_foldl
  | split

theorem execSegAppend_keeps {s t : State} (h : Keeps s t) (mb : Nat) :
    KeepsOut s (execSegAppend mb t) := by
  unfold execSegAppend
  repeat' first
  | intro _
  | with_reducible assumption
  | fail_if_no_progress extract_lets +onlyGivenNames z
    first
    | (refine (have hz : Keeps s z := ?_; ?_))
      subst z
      rotate_left
      try clear_value z
    | try clear_value z
  | with_reducible
      first
      | apply keepsOut_next | apply State.motionReq_keeps | apply keeps_ite | apply keeps_foldl
  | split

theorem execCompareFire_keeps {s t : State} (h : Keeps s t) (u : Nat) (y1 : Nat) :
    KeepsOut s (execCompareFire u y1 t) := by
  unfold execCompareFire
  repeat' first
  | intro _
  | with_reducible assumption
  | fail_if_no_progress extract_lets +onlyGivenNames z
    first
    | (refine (have hz : Keeps s z := ?_; ?_))
      subst z
      rotate_left
      try clear_value z
    | try clear_value z
  | with_reducible
      first
      | apply keepsOut_next | apply State.clockTo_keeps | apply State.cmpCross_keeps | apply keeps_ite
      | apply keeps_foldl
  | split

theorem execComparePulseEnd_keeps {s t : State} (h : Keeps s t) (u : Nat) :
    KeepsOut s (execComparePulseEnd u t) := by
  unfold execComparePulseEnd
  repeat' first
  | intro _
  | with_reducible assumption
  | fail_if_no_progress extract_lets +onlyGivenNames z
    first
    | (refine (have hz : Keeps s z := ?_; ?_))
      subst z
      rotate_left
      try clear_value z
    | try clear_value z
  | with_reducible
      first
      | apply keepsOut_next | apply State.clockTo_keeps | apply State.put_keeps | apply State.cmpOut_keeps
      | apply keeps_ite | apply keeps_foldl
  | split

theorem execCaptureEdge_keeps {s t : State} (h : Keeps s t) (c : Nat) (y1 : Nat) (frac : Nat) (rising : Bool) :
    KeepsOut s (execCaptureEdge c y1 frac rising t) := by
  unfold execCaptureEdge
  repeat' first
  | intro _
  | with_reducible assumption
  | fail_if_no_progress extract_lets +onlyGivenNames z
    first
    | (refine (have hz : Keeps s z := ?_; ?_))
      subst z
      rotate_left
      try clear_value z
    | try clear_value z
  | with_reducible
      first
      | apply keepsOut_next | apply State.clockTo_keeps | apply State.capEdge_keeps | apply keeps_ite
      | apply keeps_foldl
  | split

theorem State.cmpArmW_keeps {s t : State} (h : Keeps s t) (u : Nat) :
    Keeps s (State.cmpArmW t u) := by
  unfold State.cmpArmW
  repeat' first
  | intro _
  | with_reducible assumption
  | fail_if_no_progress extract_lets +onlyGivenNames z
    first
    | (refine (have hz : Keeps s z := ?_; ?_))
      subst z
      rotate_left
      try clear_value z
    | try clear_value z
  | with_reducible
      first
      | apply State.put_keeps | apply keeps_ite | apply keeps_foldl
  | split

theorem State.cmpDisarmW_keeps {s t : State} (h : Keeps s t) (u : Nat) :
    Keeps s (State.cmpDisarmW t u) := by
  unfold State.cmpDisarmW
  repeat' first
  | intro _
  | with_reducible assumption
  | fail_if_no_progress extract_lets +onlyGivenNames z
    first
    | (refine (have hz : Keeps s z := ?_; ?_))
      subst z
      rotate_left
      try clear_value z
    | try clear_value z
  | with_reducible
      first
      | apply State.put_keeps | apply keeps_ite | apply keeps_foldl
  | split

theorem State.capArmW_keeps {s t : State} (h : Keeps s t) (c : Nat) :
    Keeps s (State.capArmW t c) := by
  unfold State.capArmW
  repeat' first
  | intro _
  | with_reducible assumption
  | fail_if_no_progress extract_lets +onlyGivenNames z
    first
    | (refine (have hz : Keeps s z := ?_; ?_))
      subst z
      rotate_left
      try clear_value z
    | try clear_value z
  | with_reducible
      first
      | apply State.put_keeps | apply keeps_ite | apply keeps_foldl
  | split

theorem dropCap_sublist (c : Nat) (l : List CapEntry) : (dropCap c l).Sublist l := by
  induction l with
  | nil => exact List.Sublist.refl _
  | cons x l ih =>
    unfold dropCap
    split
    · exact List.sublist_cons_self ..
    · exact ih.cons_cons x

theorem State.capNextW_keeps {s t : State} (h : Keeps s t) (c : Nat) : Keeps s (State.capNextW t c) := by
  unfold State.capNextW
  split
  · exact State.capView_keeps (keeps_caps h fun hl u =>
      (((dropCap_sublist c t.caps).filter _).length_le).trans (hl u)) c
  · exact h

theorem execCmpArm_keeps {s t : State} (h : Keeps s t) (u : Nat) :
    KeepsOut s (execCmpArm u t) := by
  unfold execCmpArm
  repeat' first
  | intro _
  | with_reducible assumption
  | fail_if_no_progress extract_lets +onlyGivenNames z
    first
    | (refine (have hz : Keeps s z := ?_; ?_))
      subst z
      rotate_left
      try clear_value z
    | try clear_value z
  | with_reducible
      first
      | apply keepsOut_next | apply State.cmpArmW_keeps | apply State.hostWord_keeps | apply keeps_ite
      | apply keeps_foldl
  | split

theorem execCmpDisarm_keeps {s t : State} (h : Keeps s t) (u : Nat) :
    KeepsOut s (execCmpDisarm u t) := by
  unfold execCmpDisarm
  repeat' first
  | intro _
  | with_reducible assumption
  | fail_if_no_progress extract_lets +onlyGivenNames z
    first
    | (refine (have hz : Keeps s z := ?_; ?_))
      subst z
      rotate_left
      try clear_value z
    | try clear_value z
  | with_reducible
      first
      | apply keepsOut_next | apply State.cmpDisarmW_keeps | apply State.hostWord_keeps | apply keeps_ite
      | apply keeps_foldl
  | split

theorem execCmpCapArm_keeps {s t : State} (h : Keeps s t) (c : Nat) :
    KeepsOut s (execCmpCapArm c t) := by
  unfold execCmpCapArm
  repeat' first
  | intro _
  | with_reducible assumption
  | fail_if_no_progress extract_lets +onlyGivenNames z
    first
    | (refine (have hz : Keeps s z := ?_; ?_))
      subst z
      rotate_left
      try clear_value z
    | try clear_value z
  | with_reducible
      first
      | apply keepsOut_next | apply State.capArmW_keeps | apply State.hostWord_keeps | apply keeps_ite
      | apply keeps_foldl
  | split

theorem execCmpCapNext_keeps {s t : State} (h : Keeps s t) (c : Nat) :
    KeepsOut s (execCmpCapNext c t) := by
  unfold execCmpCapNext
  repeat' first
  | intro _
  | with_reducible assumption
  | fail_if_no_progress extract_lets +onlyGivenNames z
    first
    | (refine (have hz : Keeps s z := ?_; ?_))
      subst z
      rotate_left
      try clear_value z
    | try clear_value z
  | with_reducible
      first
      | apply keepsOut_next | apply State.capNextW_keeps | apply State.hostWord_keeps | apply keeps_ite
      | apply keeps_foldl
  | split

theorem execCmpConfig_keeps {s t : State} (h : Keeps s t) (mb : Nat) :
    KeepsOut s (execCmpConfig mb t) := by
  unfold execCmpConfig
  repeat' first
  | intro _
  | with_reducible assumption
  | fail_if_no_progress extract_lets +onlyGivenNames z
    first
    | (refine (have hz : Keeps s z := ?_; ?_))
      subst z
      rotate_left
      try clear_value z
    | try clear_value z
  | with_reducible
      first
      | apply keepsOut_next | apply State.wait_keeps | apply State.put_keeps | apply State.each_keeps
      | apply State.fail_keeps | apply State.request_keeps | apply keeps_ite | apply keeps_foldl
  | split

theorem execCmpListWrite_keeps {s t : State} (h : Keeps s t) (mb : Nat) :
    KeepsOut s (execCmpListWrite mb t) := by
  unfold execCmpListWrite
  repeat' first
  | intro _
  | with_reducible assumption
  | fail_if_no_progress extract_lets +onlyGivenNames z
    first
    | (refine (have hz : Keeps s z := ?_; ?_))
      subst z
      rotate_left
      try clear_value z
    | try clear_value z
  | with_reducible
      first
      | apply keepsOut_next | apply State.done_keeps | apply State.store_keeps | apply State.each_keeps
      | apply State.fail_keeps | apply State.request_keeps | apply keeps_ite | apply keeps_foldl
  | split

theorem execCapConfig_keeps {s t : State} (h : Keeps s t) (mb : Nat) :
    KeepsOut s (execCapConfig mb t) := by
  unfold execCapConfig
  repeat' first
  | intro _
  | with_reducible assumption
  | fail_if_no_progress extract_lets +onlyGivenNames z
    first
    | (refine (have hz : Keeps s z := ?_; ?_))
      subst z
      rotate_left
      try clear_value z
    | try clear_value z
  | with_reducible
      first
      | apply keepsOut_next | apply State.put_keeps | apply State.wait_keeps | apply State.fail_keeps
      | apply State.request_keeps | apply keeps_ite | apply keeps_foldl
  | split

theorem State.cmpReqs_keeps {s t : State} (h : Keeps s t) :
    Keeps s (State.cmpReqs t) := by
  unfold State.cmpReqs
  repeat' first
  | intro _
  | with_reducible assumption
  | fail_if_no_progress extract_lets +onlyGivenNames z
    first
    | (refine (have hz : Keeps s z := ?_; ?_))
      subst z
      rotate_left
      try clear_value z
    | try clear_value z
  | with_reducible
      first
      | apply State.doneAll_keeps | apply State.each_keeps | apply keeps_ite | apply keeps_foldl
  | split

end Sys2Proof.Machine
end

