-- ==== Sys2Proof/Laws/KeepsNirte.lean ====
section
/-! SUPPORT. What the operations of the rings keep: each keeps the queue and the invariant. -/

set_option linter.unusedTactic false
set_option linter.unreachableTactic false
set_option linter.tactic.unusedName false

namespace Sys2Proof.Machine

theorem State.setR_keeps {s t : State} (h : Keeps s t) (r : Nat) (acc : Nat) :
    Keeps s (State.setR t r acc) := by
  unfold State.setR
  repeat' first
  | intro _
  | with_reducible assumption
  | fail_if_no_progress extract_lets +onlyGivenNames z
    first
    | (refine (have hz : Keeps s z := ?_; ?_))
      subst z
      rotate_left
      try clear_value z
    | try clear_value z
  | with_reducible
      first
      | apply State.put_keeps | apply keeps_ite | apply keeps_foldl
  | split

theorem State.quietSend_keeps {s t : State} (h : Keeps s t) (r : Nat) (ty : Nat) (copy : Bool) (body : List Nat) :
    Keeps s (State.quietSend t r ty copy body) := by
  unfold State.quietSend
  repeat' first
  | intro _
  | with_reducible assumption
  | fail_if_no_progress extract_lets +onlyGivenNames z
    first
    | (refine (have hz : Keeps s z := ?_; ?_))
      subst z
      rotate_left
      try clear_value z
    | try clear_value z
  | with_reducible
      first
      | apply State.setBytes_keeps | apply keeps_ite | apply keeps_foldl
  | split

theorem State.nrtFlag_keeps {s t : State} (h : Keeps s t) (f : Fld) (r : Nat) :
    Keeps s (State.nrtFlag t f r) := by
  unfold State.nrtFlag
  repeat' first
  | intro _
  | with_reducible assumption
  | fail_if_no_progress extract_lets +onlyGivenNames z
    first
    | (refine (have hz : Keeps s z := ?_; ?_))
      subst z
      rotate_left
      try clear_value z
    | try clear_value z
  | with_reducible
      first
      | apply State.cause_keeps | apply State.put_keeps | apply State.when_keeps | apply keeps_ite | apply keeps_foldl
  | split

theorem State.axisLost_keeps {s t : State} (h : Keeps s t) (a : Nat) :
    Keeps s (State.axisLost t a) := by
  unfold State.axisLost
  repeat' first
  | intro _
  | with_reducible assumption
  | fail_if_no_progress extract_lets +onlyGivenNames z
    first
    | (refine (have hz : Keeps s z := ?_; ?_))
      subst z
      rotate_left
      try clear_value z
    | try clear_value z
  | with_reducible
      first
      | apply State.put_keeps | apply State.post_keeps | apply keeps_ite | apply keeps_foldl
  | split

theorem State.acycPut_keeps {s t : State} (h : Keeps s t) (r : Nat) (node : Nat) (svc : Nat) (data : List Nat) (mb :
    Option Nat) :
    Keeps s (State.acycPut t r node svc data mb) := by
  unfold State.acycPut
  repeat' first
  | intro _
  | with_reducible assumption
  | fail_if_no_progress extract_lets +onlyGivenNames z
    first
    | (refine (have hz : Keeps s z := ?_; ?_))
      subst z
      rotate_left
      try clear_value z
    | try clear_value z
  | with_reducible
      first
      | apply State.incWrap_keeps | apply keeps_ite | apply keeps_foldl
  | split
  | with_reducible apply keeps_mk

theorem State.queryNode_keeps {s t : State} (h : Keeps s t) (r : Nat) (node : Nat) :
    Keeps s (State.queryNode t r node) := by
  unfold State.queryNode
  repeat' first
  | intro _
  | with_reducible assumption
  | fail_if_no_progress extract_lets +onlyGivenNames z
    first
    | (refine (have hz : Keeps s z := ?_; ?_))
      subst z
      rotate_left
      try clear_value z
    | try clear_value z
  | with_reducible
      first
      | apply State.acycPut_keeps | apply State.put_keeps | apply keeps_ite | apply keeps_foldl
  | split

theorem State.queryDrop_keeps {s t : State} (h : Keeps s t) (r : Nat) (node : Nat) :
    Keeps s (State.queryDrop t r node) := by
  unfold State.queryDrop
  repeat' first
  | intro _
  | with_reducible assumption
  | fail_if_no_progress extract_lets +onlyGivenNames z
    first
    | (refine (have hz : Keeps s z := ?_; ?_))
      subst z
      rotate_left
      try clear_value z
    | try clear_value z
  | with_reducible
      first
      | apply keeps_ite | apply keeps_foldl
  | split
  | with_reducible apply keeps_mk

theorem State.nodeLost_keeps {s t : State} (h : Keeps s t) (r : Nat) (node : Nat) :
    Keeps s (State.nodeLost t r node) := by
  unfold State.nodeLost
  repeat' first
  | intro _
  | with_reducible assumption
  | fail_if_no_progress extract_lets +onlyGivenNames z
    first
    | (refine (have hz : Keeps s z := ?_; ?_))
      subst z
      rotate_left
      try clear_value z
    | try clear_value z
  | with_reducible
      first
      | apply State.axisLost_keeps | apply State.each_keeps | apply State.queryDrop_keeps | apply State.nrtFlag_keeps
      | apply State.put_keeps | apply keeps_ite | apply keeps_foldl
  | split

theorem State.axisSeen_keeps {s t : State} (h : Keeps s t) (a : Nat) :
    Keeps s (State.axisSeen t a) := by
  unfold State.axisSeen
  repeat' first
  | intro _
  | with_reducible assumption
  | fail_if_no_progress extract_lets +onlyGivenNames z
    first
    | (refine (have hz : Keeps s z := ?_; ?_))
      subst z
      rotate_left
      try clear_value z
    | try clear_value z
  | with_reducible
      first
      | apply State.axisLost_keeps | apply State.nrtFlag_keeps | apply State.put_keeps | apply State.post_keeps
      | apply keeps_ite | apply keeps_foldl
  | split

theorem State.identified_keeps {s t : State} (h : Keeps s t) (r : Nat) (node : Nat) (vend : Nat) (prod : Nat) :
    Keeps s (State.identified t r node vend prod) := by
  unfold State.identified
  repeat' first
  | intro _
  | with_reducible assumption
  | fail_if_no_progress extract_lets +onlyGivenNames z
    first
    | (refine (have hz : Keeps s z := ?_; ?_))
      subst z
      rotate_left
      try clear_value z
    | try clear_value z
  | with_reducible
      first
      | apply State.axisSeen_keeps | apply State.each_keeps | apply State.nrtFlag_keeps | apply State.when_keeps
      | apply State.put_keeps | apply keeps_ite | apply keeps_foldl
  | split

theorem State.nodeSeen_keeps {s t : State} (h : Keeps s t) (r : Nat) (node : Nat) :
    Keeps s (State.nodeSeen t r node) := by
  unfold State.nodeSeen
  repeat' first
  | intro _
  | with_reducible assumption
  | fail_if_no_progress extract_lets +onlyGivenNames z
    first
    | (refine (have hz : Keeps s z := ?_; ?_))
      subst z
      rotate_left
      try clear_value z
    | try clear_value z
  | with_reducible
      first
      | apply State.put_keeps | apply State.queryNode_keeps | apply keeps_ite | apply keeps_foldl
  | split

theorem State.scanPut_keeps {s t : State} (h : Keeps s t) (r : Nat) (hops : Nat) (es : List Nat) :
    Keeps s (State.scanPut t r hops es) := by
  unfold State.scanPut
  repeat' first
  | intro _
  | with_reducible assumption
  | fail_if_no_progress extract_lets +onlyGivenNames z
    first
    | (refine (have hz : Keeps s z := ?_; ?_))
      subst z
      rotate_left
      try clear_value z
    | try clear_value z
  | with_reducible
      first
      | apply State.put_keeps | apply State.setBytes_keeps | apply keeps_ite | apply keeps_foldl
  | split

theorem State.scanNodes_keeps {s t : State} (h : Keeps s t) (r : Nat) (es : List Nat) :
    Keeps s (State.scanNodes t r es) := by
  unfold State.scanNodes
  repeat' first
  | intro _
  | with_reducible assumption
  | fail_if_no_progress extract_lets +onlyGivenNames z
    first
    | (refine (have hz : Keeps s z := ?_; ?_))
      subst z
      rotate_left
      try clear_value z
    | try clear_value z
  | with_reducible
      first
      | apply State.nodeSeen_keeps | apply State.put_keeps | apply State.nodeLost_keeps | apply State.each_keeps
      | apply keeps_ite | apply keeps_foldl
  | split

theorem State.ringRefuse_keeps {s t : State} (h : Keeps s t) (r : Nat) (code : Nat) :
    Keeps s (State.ringRefuse t r code) := by
  unfold State.ringRefuse
  repeat' first
  | intro _
  | with_reducible assumption
  | fail_if_no_progress extract_lets +onlyGivenNames z
    first
    | (refine (have hz : Keeps s z := ?_; ?_))
      subst z
      rotate_left
      try clear_value z
    | try clear_value z
  | with_reducible
      first
      | apply State.failAll_keeps | apply State.put_keeps | apply keeps_ite | apply keeps_foldl
  | split

theorem State.ringScan_keeps {s t : State} (h : Keeps s t) (r : Nat) :
    Keeps s (State.ringScan t r) := by
  unfold State.ringScan
  repeat' first
  | intro _
  | with_reducible assumption
  | fail_if_no_progress extract_lets +onlyGivenNames z
    first
    | (refine (have hz : Keeps s z := ?_; ?_))
      subst z
      rotate_left
      try clear_value z
    | try clear_value z
  | with_reducible
      first
      | apply State.quietSend_keeps | apply State.put_keeps | apply keeps_ite | apply keeps_foldl
  | split

theorem State.baseChanged_keeps {s t : State} (h : Keeps s t) :
    Keeps s (State.baseChanged t) := by
  unfold State.baseChanged
  repeat' first
  | intro _
  | with_reducible assumption
  | fail_if_no_progress extract_lets +onlyGivenNames z
    first
    | (refine (have hz : Keeps s z := ?_; ?_))
      subst z
      rotate_left
      try clear_value z
    | try clear_value z
  | with_reducible
      first
      | apply State.relink_keeps | apply State.loadUpdate_keeps | apply State.stageAll_keeps | apply State.when_keeps
      | apply State.each_keeps | apply keeps_ite | apply keeps_foldl
  | split

theorem State.dckOwn_keeps {s t : State} (h : Keeps s t) :
    Keeps s (State.dckOwn t) := by
  unfold State.dckOwn
  repeat' first
  | intro _
  | with_reducible assumption
  | fail_if_no_progress extract_lets +onlyGivenNames z
    first
    | (refine (have hz : Keeps s z := ?_; ?_))
      subst z
      rotate_left
      try clear_value z
    | try clear_value z
  | with_reducible
      first
      | apply State.put_keeps | apply keeps_ite | apply keeps_foldl
  | split

theorem State.ringStore_keeps {s t : State} (h : Keeps s t) (r : Nat) (ws : List Nat) :
    Keeps s (State.ringStore t r ws) := by
  unfold State.ringStore
  repeat' first
  | intro _
  | with_reducible assumption
  | fail_if_no_progress extract_lets +onlyGivenNames z
    first
    | (refine (have hz : Keeps s z := ?_; ?_))
      subst z
      rotate_left
      try clear_value z
    | try clear_value z
  | with_reducible
      first
      | apply State.baseChanged_keeps | apply State.dirty_keeps | apply State.dckOwn_keeps | apply State.put_keeps
      | apply State.when_keeps | apply State.putWords_keeps | apply State.clampAll_keeps | apply keeps_ite
      | apply keeps_foldl
  | split

theorem State.ringStart_keeps {s t : State} (h : Keeps s t) (r : Nat) :
    Keeps s (State.ringStart t r) := by
  unfold State.ringStart
  repeat' first
  | intro _
  | with_reducible assumption
  | fail_if_no_progress extract_lets +onlyGivenNames z
    first
    | (refine (have hz : Keeps s z := ?_; ?_))
      subst z
      rotate_left
      try clear_value z
    | try clear_value z
  | with_reducible
      first
      | apply State.ringScan_keeps | apply State.each_keeps | apply State.when_keeps | apply State.ringRefuse_keeps
      | apply State.put_keeps | apply keeps_ite | apply keeps_foldl
  | split

theorem State.ringAbandon_keeps {s t : State} (h : Keeps s t) (r : Nat) :
    Keeps s (State.ringAbandon t r) := by
  unfold State.ringAbandon
  repeat' first
  | intro _
  | with_reducible assumption
  | fail_if_no_progress extract_lets +onlyGivenNames z
    first
    | (refine (have hz : Keeps s z := ?_; ?_))
      subst z
      rotate_left
      try clear_value z
    | try clear_value z
  | with_reducible
      first
      | apply State.failAll_keeps | apply keeps_ite | apply keeps_foldl
  | split

theorem State.ringHalt_keeps {s t : State} (h : Keeps s t) (r : Nat) :
    Keeps s (State.ringHalt t r) := by
  unfold State.ringHalt
  repeat' first
  | intro _
  | with_reducible assumption
  | fail_if_no_progress extract_lets +onlyGivenNames z
    first
    | (refine (have hz : Keeps s z := ?_; ?_))
      subst z
      rotate_left
      try clear_value z
    | try clear_value z
  | with_reducible
      first
      | apply State.nodeLost_keeps | apply State.put_keeps | apply State.each_keeps | apply keeps_ite
      | apply keeps_foldl
  | split

theorem State.ringStopped_keeps {s t : State} (h : Keeps s t) (r : Nat) :
    Keeps s (State.ringStopped t r) := by
  unfold State.ringStopped
  repeat' first
  | intro _
  | with_reducible assumption
  | fail_if_no_progress extract_lets +onlyGivenNames z
    first
    | (refine (have hz : Keeps s z := ?_; ?_))
      subst z
      rotate_left
      try clear_value z
    | try clear_value z
  | with_reducible
      first
      | apply State.ringStart_keeps | apply State.ringStore_keeps | apply State.doneAll_keeps
      | apply State.dckOwn_keeps | apply State.when_keeps | apply State.put_keeps | apply keeps_ite
      | apply keeps_foldl
  | split

theorem State.ringStop_keeps {s t : State} (h : Keeps s t) (r : Nat) :
    Keeps s (State.ringStop t r) := by
  unfold State.ringStop
  repeat' first
  | intro _
  | with_reducible assumption
  | fail_if_no_progress extract_lets +onlyGivenNames z
    first
    | (refine (have hz : Keeps s z := ?_; ?_))
      subst z
      rotate_left
      try clear_value z
    | try clear_value z
  | with_reducible
      first
      | apply State.put_keeps | apply State.each_keeps | apply State.ringStopped_keeps | apply State.ringHalt_keeps
      | apply keeps_ite | apply keeps_foldl
  | split

theorem State.ringMeasured_keeps {s t : State} (h : Keeps s t) (r : Nat) :
    Keeps s (State.ringMeasured t r) := by
  unfold State.ringMeasured
  repeat' first
  | intro _
  | with_reducible assumption
  | fail_if_no_progress extract_lets +onlyGivenNames z
    first
    | (refine (have hz : Keeps s z := ?_; ?_))
      subst z
      rotate_left
      try clear_value z
    | try clear_value z
  | with_reducible
      first
      | apply State.doneAll_keeps | apply State.queryNode_keeps | apply State.each_keeps | apply State.dckOwn_keeps
      | apply State.when_keeps | apply State.ringRefuse_keeps | apply State.put_keeps | apply keeps_ite
      | apply keeps_foldl
  | split

theorem State.swMark_keeps {s t : State} (h : Keeps s t) (c : Nat) :
    Keeps s (State.swMark t c) := by
  unfold State.swMark
  repeat' first
  | intro _
  | with_reducible assumption
  | fail_if_no_progress extract_lets +onlyGivenNames z
    first
    | (refine (have hz : Keeps s z := ?_; ?_))
      subst z
      rotate_left
      try clear_value z
    | try clear_value z
  | with_reducible
      first
      | apply State.when_keeps | apply State.put_keeps | apply keeps_ite | apply keeps_foldl
  | split

theorem State.cnjCheck_keeps {s t : State} (h : Keeps s t) :
    Keeps s (State.cnjCheck t) := by
  unfold State.cnjCheck
  repeat' first
  | intro _
  | with_reducible assumption
  | fail_if_no_progress extract_lets +onlyGivenNames z
    first
    | (refine (have hz : Keeps s z := ?_; ?_))
      subst z
      rotate_left
      try clear_value z
    | try clear_value z
  | with_reducible
      first
      | apply State.swMark_keeps | apply State.put_keeps | apply State.when_keeps | apply keeps_ite
      | apply keeps_foldl
  | split

theorem State.ringBreak_keeps {s t : State} (h : Keeps s t) (r : Nat) :
    Keeps s (State.ringBreak t r) := by
  unfold State.ringBreak
  repeat' first
  | intro _
  | with_reducible assumption
  | fail_if_no_progress extract_lets +onlyGivenNames z
    first
    | (refine (have hz : Keeps s z := ?_; ?_))
      subst z
      rotate_left
      try clear_value z
    | try clear_value z
  | with_reducible
      first
      | apply State.put_keeps | apply keeps_ite | apply keeps_foldl
  | split

theorem State.linkDown_keeps {s t : State} (h : Keeps s t) (p : Nat) :
    Keeps s (State.linkDown t p) := by
  unfold State.linkDown
  repeat' first
  | intro _
  | with_reducible assumption
  | fail_if_no_progress extract_lets +onlyGivenNames z
    first
    | (refine (have hz : Keeps s z := ?_; ?_))
      subst z
      rotate_left
      try clear_value z
    | try clear_value z
  | with_reducible
      first
      | apply State.cnjCheck_keeps | apply State.ringBreak_keeps | apply State.when_keeps | apply State.put_keeps
      | apply State.incSat_keeps | apply keeps_ite | apply keeps_foldl
  | split

theorem State.grantAll_keeps {s t : State} (h : Keeps s t) (r : Nat) :
    Keeps s (State.grantAll t r) := by
  unfold State.grantAll
  repeat' first
  | intro _
  | with_reducible assumption
  | fail_if_no_progress extract_lets +onlyGivenNames z
    first
    | (refine (have hz : Keeps s z := ?_; ?_))
      subst z
      rotate_left
      try clear_value z
    | try clear_value z
  | with_reducible
      first
      | apply State.put_keeps | apply keeps_ite | apply keeps_foldl
  | split
  | with_reducible apply keeps_mk

theorem State.headComma_keeps {s t : State} (h : Keeps s t) (r : Nat) (c : Nat) :
    Keeps s (State.headComma t r c) := by
  unfold State.headComma
  repeat' first
  | intro _
  | with_reducible assumption
  | fail_if_no_progress extract_lets +onlyGivenNames z
    first
    | (refine (have hz : Keeps s z := ?_; ?_))
      subst z
      rotate_left
      try clear_value z
    | try clear_value z
  | with_reducible
      first
      | apply State.setBytes_keeps | apply keeps_ite | apply keeps_foldl
  | split
  | with_reducible apply keeps_mk

theorem State.commaAll_keeps {s t : State} (h : Keeps s t) (r : Nat) :
    Keeps s (State.commaAll t r) := by
  unfold State.commaAll
  repeat' first
  | intro _
  | with_reducible assumption
  | fail_if_no_progress extract_lets +onlyGivenNames z
    first
    | (refine (have hz : Keeps s z := ?_; ?_))
      subst z
      rotate_left
      try clear_value z
    | try clear_value z
  | with_reducible
      first
      | apply State.setBytes_keeps | apply State.grantAll_keeps | apply State.headComma_keeps | apply State.each_keeps
      | apply keeps_ite | apply keeps_foldl
  | split

theorem State.landRelease_keeps {s t : State} (h : Keeps s t) (r : Nat) (slot : Nat) (f : Nat) (h1 : List Nat) :
    Keeps s (State.landRelease t r slot f h1) := by
  unfold State.landRelease
  repeat' first
  | intro _
  | with_reducible assumption
  | fail_if_no_progress extract_lets +onlyGivenNames z
    first
    | (refine (have hz : Keeps s z := ?_; ?_))
      subst z
      rotate_left
      try clear_value z
    | try clear_value z
  | with_reducible
      first
      | apply State.put_keeps | apply State.release_keeps | apply State.each_keeps | apply keeps_ite
      | apply keeps_foldl
  | split

theorem State.landNode_keeps {s t : State} (h : Keeps s t) (r : Nat) (slot : Nat) (h1 : List Nat) :
    Keeps s (State.landNode t r slot h1) := by
  unfold State.landNode
  repeat' first
  | intro _
  | with_reducible assumption
  | fail_if_no_progress extract_lets +onlyGivenNames z
    first
    | (refine (have hz : Keeps s z := ?_; ?_))
      subst z
      rotate_left
      try clear_value z
    | try clear_value z
  | with_reducible
      first
      | apply State.put_keeps | apply State.nodeSeen_keeps | apply State.when_keeps | apply keeps_ite
      | apply keeps_foldl
  | split

theorem State.landTake_keeps {s t : State} (h : Keeps s t) (r : Nat) (slot : Nat) (f : Nat) (h1 : List Nat) :
    Keeps s (State.landTake t r slot f h1) := by
  unfold State.landTake
  repeat' first
  | intro _
  | with_reducible assumption
  | fail_if_no_progress extract_lets +onlyGivenNames z
    first
    | (refine (have hz : Keeps s z := ?_; ?_))
      subst z
      rotate_left
      try clear_value z
    | try clear_value z
  | with_reducible
      first
      | apply State.setBytes_keeps | apply State.landRelease_keeps | apply keeps_ite | apply keeps_foldl
  | split

theorem State.landHalf_keeps {s t : State} (h : Keeps s t) (r : Nat) (slot : Nat) (copy : Bool) (codeErr : Bool) (half
    : List Nat) :
    Keeps s (State.landHalf t r slot copy codeErr half) := by
  unfold State.landHalf
  repeat' first
  | intro _
  | with_reducible assumption
  | fail_if_no_progress extract_lets +onlyGivenNames z
    first
    | (refine (have hz : Keeps s z := ?_; ?_))
      subst z
      rotate_left
      try clear_value z
    | try clear_value z
  | with_reducible
      first
      | apply State.setBytes_keeps | apply State.landTake_keeps | apply State.incSat_keeps | apply State.report_keeps
      | apply State.when_keeps | apply State.put_keeps | apply State.landNode_keeps | apply keeps_ite
      | apply keeps_foldl
  | split

theorem State.cutDue_keeps {s t : State} (h : Keeps s t) (a : Nat) (f : Nat) :
    Keeps s (State.cutDue t a f) := by
  unfold State.cutDue
  repeat' first
  | intro _
  | with_reducible assumption
  | fail_if_no_progress extract_lets +onlyGivenNames z
    first
    | (refine (have hz : Keeps s z := ?_; ?_))
      subst z
      rotate_left
      try clear_value z
    | try clear_value z
  | with_reducible
      first
      | apply State.pastDeadline_keeps | apply State.each_keeps | apply keeps_ite | apply keeps_foldl
  | split

theorem State.cutTake_keeps {s t : State} (h : Keeps s t) (a : Nat) (f : Nat) :
    Keeps s (State.cutTake t a f) := by
  unfold State.cutTake
  repeat' first
  | intro _
  | with_reducible assumption
  | fail_if_no_progress extract_lets +onlyGivenNames z
    first
    | (refine (have hz : Keeps s z := ?_; ?_))
      subst z
      rotate_left
      try clear_value z
    | try clear_value z
  | with_reducible
      first
      | apply State.each_keeps | apply State.put_keeps | apply keeps_ite | apply keeps_foldl
  | split
  | with_reducible apply keeps_mk

theorem State.piCopy_keeps {s t : State} (h : Keeps s t) (r : Nat) (slot : Nat) :
    Keeps s (State.piCopy t r slot) := by
  unfold State.piCopy
  repeat' first
  | intro _
  | with_reducible assumption
  | fail_if_no_progress extract_lets +onlyGivenNames z
    first
    | (refine (have hz : Keeps s z := ?_; ?_))
      subst z
      rotate_left
      try clear_value z
    | try clear_value z
  | with_reducible
      first
      | apply State.setBytes_keeps | apply keeps_ite | apply keeps_foldl
  | split

theorem State.digKeep_keeps {s t : State} (h : Keeps s t) (a : Nat) (f : Nat) (half : List Nat) :
    Keeps s (State.digKeep t a f half) := by
  unfold State.digKeep
  repeat' first
  | intro _
  | with_reducible assumption
  | fail_if_no_progress extract_lets +onlyGivenNames z
    first
    | (refine (have hz : Keeps s z := ?_; ?_))
      subst z
      rotate_left
      try clear_value z
    | try clear_value z
  | with_reducible
      first
      | apply State.setBytes_keeps | apply keeps_ite | apply keeps_foldl
  | split

theorem State.cutSlot_keeps {s t : State} (h : Keeps s t) (r : Nat) (slot : Nat) :
    Keeps s (State.cutSlot t r slot) := by
  unfold State.cutSlot
  repeat' first
  | intro _
  | with_reducible assumption
  | fail_if_no_progress extract_lets +onlyGivenNames z
    first
    | (refine (have hz : Keeps s z := ?_; ?_))
      subst z
      rotate_left
      try clear_value z
    | try clear_value z
  | with_reducible
      first
      | apply State.incSat_keeps | apply State.setBytes_keeps | apply State.digKeep_keeps | apply State.cutTake_keeps
      | apply State.put_keeps | apply State.outPut_keeps | apply State.when_keeps | apply State.cutDue_keeps
      | apply State.piCopy_keeps | apply keeps_ite | apply keeps_foldl
  | split

theorem execSlotLanding_keeps {s t : State} (h : Keeps s t) (r : Nat) (slot : Nat) (copy : Bool) (codeErr : Bool)
    (half : List Nat) :
    KeepsOut s (execSlotLanding r slot copy codeErr half t) := by
  unfold execSlotLanding
  repeat' first
  | intro _
  | with_reducible assumption
  | fail_if_no_progress extract_lets +onlyGivenNames z
    first
    | (refine (have hz : Keeps s z := ?_; ?_))
      subst z
      rotate_left
      try clear_value z
    | try clear_value z
  | with_reducible
      first
      | apply keepsOut_next | apply State.landHalf_keeps | apply keeps_ite | apply keeps_foldl
  | split

theorem execBackstopRelease_keeps {s t : State} (h : Keeps s t) (d : Nat) :
    KeepsOut s (execBackstopRelease d t) := by
  unfold execBackstopRelease
  repeat' first
  | intro _
  | with_reducible assumption
  | fail_if_no_progress extract_lets +onlyGivenNames z
    first
    | (refine (have hz : Keeps s z := ?_; ?_))
      subst z
      rotate_left
      try clear_value z
    | try clear_value z
  | with_reducible
      first
      | apply keepsOut_next | apply State.clockTo_keeps | apply State.put_keeps | apply State.release_keeps
      | apply keeps_ite | apply keeps_foldl
  | split

theorem State.dcRate_keeps {s t : State} (h : Keeps s t) :
    Keeps s (State.dcRate t) := by
  unfold State.dcRate
  repeat' first
  | intro _
  | with_reducible assumption
  | fail_if_no_progress extract_lets +onlyGivenNames z
    first
    | (refine (have hz : Keeps s z := ?_; ?_))
      subst z
      rotate_left
      try clear_value z
    | try clear_value z
  | with_reducible
      first
      | apply State.puti_keeps | apply State.useFree_keeps | apply keeps_ite | apply keeps_foldl
  | split

theorem State.dcStep_keeps {s t : State} (h : Keeps s t) (o : Int) :
    Keeps s (State.dcStep t o) := by
  unfold State.dcStep
  repeat' first
  | intro _
  | with_reducible assumption
  | fail_if_no_progress extract_lets +onlyGivenNames z
    first
    | (refine (have hz : Keeps s z := ?_; ?_))
      subst z
      rotate_left
      try clear_value z
    | try clear_value z
  | with_reducible
      first
      | apply State.put_keeps | apply keeps_ite | apply keeps_foldl
  | split

theorem State.dcOffset_keeps {s t : State} (h : Keeps s t) (o : Int) :
    Keeps s (State.dcOffset t o) := by
  unfold State.dcOffset
  repeat' first
  | intro _
  | with_reducible assumption
  | fail_if_no_progress extract_lets +onlyGivenNames z
    first
    | (refine (have hz : Keeps s z := ?_; ?_))
      subst z
      rotate_left
      try clear_value z
    | try clear_value z
  | with_reducible
      first
      | apply State.incSat_keeps | apply State.nrtFlag_keeps | apply State.dcRate_keeps | apply State.dcStep_keeps
      | apply State.puti_keeps | apply State.put_keeps | apply State.when_keeps | apply keeps_ite | apply keeps_foldl
  | split

theorem State.dcFrame_keeps {s t : State} (h : Keeps s t) (l : List Nat) (y2 : Nat) (frac : Nat) :
    Keeps s (State.dcFrame t l y2 frac) := by
  unfold State.dcFrame
  repeat' first
  | intro _
  | with_reducible assumption
  | fail_if_no_progress extract_lets +onlyGivenNames z
    first
    | (refine (have hz : Keeps s z := ?_; ?_))
      subst z
      rotate_left
      try clear_value z
    | try clear_value z
  | with_reducible
      first
      | apply State.dcOffset_keeps | apply State.put_keeps | apply keeps_ite | apply keeps_foldl
  | split

theorem State.fcsFail_keeps {s t : State} (h : Keeps s t) (p : Nat) :
    Keeps s (State.fcsFail t p) := by
  unfold State.fcsFail
  repeat' first
  | intro _
  | with_reducible assumption
  | fail_if_no_progress extract_lets +onlyGivenNames z
    first
    | (refine (have hz : Keeps s z := ?_; ?_))
      subst z
      rotate_left
      try clear_value z
    | try clear_value z
  | with_reducible
      first
      | apply State.put_keeps | apply State.incSat_keeps | apply State.report_keeps | apply keeps_ite
      | apply keeps_foldl
  | split

theorem State.splitReturn_keeps {s t : State} (h : Keeps s t) (p : Nat) (n : Nat) (ret : Bool) (copy : Bool) :
    Keeps s (State.splitReturn t p n ret copy) := by
  unfold State.splitReturn
  repeat' first
  | intro _
  | with_reducible assumption
  | fail_if_no_progress extract_lets +onlyGivenNames z
    first
    | (refine (have hz : Keeps s z := ?_; ?_))
      subst z
      rotate_left
      try clear_value z
    | try clear_value z
  | with_reducible
      first
      | apply State.put_keeps | apply State.ringBreak_keeps | apply State.when_keeps | apply keeps_ite
      | apply keeps_foldl
  | split

theorem State.retHalves_keeps {s t : State} (h : Keeps s t) (r : Nat) (n : Nat) (l : List Nat) :
    Keeps s (State.retHalves t r n l) := by
  unfold State.retHalves
  repeat' first
  | intro _
  | with_reducible assumption
  | fail_if_no_progress extract_lets +onlyGivenNames z
    first
    | (refine (have hz : Keeps s z := ?_; ?_))
      subst z
      rotate_left
      try clear_value z
    | try clear_value z
  | with_reducible
      first
      | apply State.incSat_keeps | apply State.when_keeps | apply State.put_keeps | apply State.each_keeps
      | apply keeps_ite | apply keeps_foldl
  | split
  | with_reducible apply keeps_mk

theorem execCycleFrameReturn_keeps {s t : State} (h : Keeps s t) (p : Nat) (fcsOk : Bool) (mac : List Nat) (header :
    List Nat) (payload : List Nat) (y5 : Nat) (frac : Nat) :
    KeepsOut s (execCycleFrameReturn p fcsOk mac header payload y5 frac t) := by
  unfold execCycleFrameReturn
  repeat' first
  | intro _
  | with_reducible assumption
  | fail_if_no_progress extract_lets +onlyGivenNames z
    first
    | (refine (have hz : Keeps s z := ?_; ?_))
      subst z
      rotate_left
      try clear_value z
    | try clear_value z
  | with_reducible
      first
      | apply keepsOut_next | apply State.dcFrame_keeps | apply State.put_keeps | apply State.nrtFlag_keeps
      | apply State.splitReturn_keeps | apply State.retHalves_keeps | apply State.addSat_keeps
      | apply State.fcsFail_keeps | apply State.when_keeps | apply State.incSat_keeps | apply keeps_ite
      | apply keeps_foldl
  | split

theorem execDcLock_keeps {s t : State} (h : Keeps s t) :
    KeepsOut s (execDcLock t) := by
  unfold execDcLock
  repeat' first
  | intro _
  | with_reducible assumption
  | fail_if_no_progress extract_lets +onlyGivenNames z
    first
    | (refine (have hz : Keeps s z := ?_; ?_))
      subst z
      rotate_left
      try clear_value z
    | try clear_value z
  | with_reducible
      first
      | apply keepsOut_next | apply State.put_keeps | apply keeps_ite | apply keeps_foldl
  | split

theorem execDcHoldover_keeps {s t : State} (h : Keeps s t) :
    KeepsOut s (execDcHoldover t) := by
  unfold execDcHoldover
  repeat' first
  | intro _
  | with_reducible assumption
  | fail_if_no_progress extract_lets +onlyGivenNames z
    first
    | (refine (have hz : Keeps s z := ?_; ?_))
      subst z
      rotate_left
      try clear_value z
    | try clear_value z
  | with_reducible
      first
      | apply keepsOut_next | apply State.put_keeps | apply keeps_ite | apply keeps_foldl
  | split

theorem execDcRef2Switch_keeps {s t : State} (h : Keeps s t) :
    KeepsOut s (execDcRef2Switch t) := by
  unfold execDcRef2Switch
  repeat' first
  | intro _
  | with_reducible assumption
  | fail_if_no_progress extract_lets +onlyGivenNames z
    first
    | (refine (have hz : Keeps s z := ?_; ?_))
      subst z
      rotate_left
      try clear_value z
    | try clear_value z
  | with_reducible
      first
      | apply keepsOut_next | apply State.put_keeps | apply keeps_ite | apply keeps_foldl
  | split

theorem execFrameForward_keeps {s t : State} (h : Keeps s t) (p : Nat) (fcsOk : Bool) (mac : List Nat) (header : List
    Nat) (payload : List Nat) (resid : Nat) :
    KeepsOut s (execFrameForward p fcsOk mac header payload resid t) := by
  unfold execFrameForward
  repeat' first
  | intro _
  | with_reducible assumption
  | fail_if_no_progress extract_lets +onlyGivenNames z
    first
    | (refine (have hz : Keeps s z := ?_; ?_))
      subst z
      rotate_left
      try clear_value z
    | try clear_value z
  | with_reducible
      first
      | apply keepsOut_next | apply State.setBytes_keeps | apply State.put_keeps | apply State.fcsFail_keeps
      | apply State.when_keeps | apply State.incSat_keeps | apply keeps_ite | apply keeps_foldl
  | split

theorem execPortLinkUp_keeps {s t : State} (h : Keeps s t) (p : Nat) (phyOk : Bool) :
    KeepsOut s (execPortLinkUp p phyOk t) := by
  unfold execPortLinkUp
  repeat' first
  | intro _
  | with_reducible assumption
  | fail_if_no_progress extract_lets +onlyGivenNames z
    first
    | (refine (have hz : Keeps s z := ?_; ?_))
      subst z
      rotate_left
      try clear_value z
    | try clear_value z
  | with_reducible
      first
      | apply keepsOut_next | apply State.ringScan_keeps | apply State.put_keeps | apply State.ringRefuse_keeps
      | apply keeps_ite | apply keeps_foldl
  | split

theorem execPortLinkDown_keeps {s t : State} (h : Keeps s t) (p : Nat) :
    KeepsOut s (execPortLinkDown p t) := by
  unfold execPortLinkDown
  repeat' first
  | intro _
  | with_reducible assumption
  | fail_if_no_progress extract_lets +onlyGivenNames z
    first
    | (refine (have hz : Keeps s z := ?_; ?_))
      subst z
      rotate_left
      try clear_value z
    | try clear_value z
  | with_reducible
      first
      | apply keepsOut_next | apply State.linkDown_keeps | apply keeps_ite | apply keeps_foldl
  | split

theorem execLinkWaitTimeout_keeps {s t : State} (h : Keeps s t) (r : Nat) :
    KeepsOut s (execLinkWaitTimeout r t) := by
  unfold execLinkWaitTimeout
  repeat' first
  | intro _
  | with_reducible assumption
  | fail_if_no_progress extract_lets +onlyGivenNames z
    first
    | (refine (have hz : Keeps s z := ?_; ?_))
      subst z
      rotate_left
      try clear_value z
    | try clear_value z
  | with_reducible
      first
      | apply keepsOut_next | apply State.ringRefuse_keeps | apply keeps_ite | apply keeps_foldl
  | split

theorem execBypassTransition_keeps {s t : State} (h : Keeps s t) (r : Nat) (closed : Bool) :
    KeepsOut s (execBypassTransition r closed t) := by
  unfold execBypassTransition
  repeat' first
  | intro _
  | with_reducible assumption
  | fail_if_no_progress extract_lets +onlyGivenNames z
    first
    | (refine (have hz : Keeps s z := ?_; ?_))
      subst z
      rotate_left
      try clear_value z
    | try clear_value z
  | with_reducible
      first
      | apply keepsOut_next | apply State.doneAll_keeps | apply State.put_keeps | apply State.each_keeps
      | apply keeps_ite | apply keeps_foldl
  | split

theorem execScanFrameReturn_keeps {s t : State} (h : Keeps s t) (r : Nat) (hops : Nat) (entries : List Nat) :
    KeepsOut s (execScanFrameReturn r hops entries t) := by
  unfold execScanFrameReturn
  repeat' first
  | intro _
  | with_reducible assumption
  | fail_if_no_progress extract_lets +onlyGivenNames z
    first
    | (refine (have hz : Keeps s z := ?_; ?_))
      subst z
      rotate_left
      try clear_value z
    | try clear_value z
  | with_reducible
      first
      | apply keepsOut_next | apply State.when_keeps | apply State.put_keeps | apply State.scanNodes_keeps
      | apply State.ringRefuse_keeps | apply State.scanPut_keeps | apply keeps_ite | apply keeps_foldl
  | split

theorem State.probeSend_keeps {s t : State} (h : Keeps s t) (r : Nat) (reverse : Bool) :
    Keeps s (State.probeSend t r reverse) := by
  unfold State.probeSend
  repeat' first
  | intro _
  | with_reducible assumption
  | fail_if_no_progress extract_lets +onlyGivenNames z
    first
    | (refine (have hz : Keeps s z := ?_; ?_))
      subst z
      rotate_left
      try clear_value z
    | try clear_value z
  | with_reducible
      first
      | apply State.quietSend_keeps | apply State.orBit_keeps | apply State.put_keeps | apply keeps_ite
      | apply keeps_foldl
  | split

theorem State.peerSend_keeps {s t : State} (h : Keeps s t) (r : Nat) :
    Keeps s (State.peerSend t r) := by
  unfold State.peerSend
  repeat' first
  | intro _
  | with_reducible assumption
  | fail_if_no_progress extract_lets +onlyGivenNames z
    first
    | (refine (have hz : Keeps s z := ?_; ?_))
      subst z
      rotate_left
      try clear_value z
    | try clear_value z
  | with_reducible
      first
      | apply State.quietSend_keeps | apply State.incWrap_keeps | apply State.put_keeps | apply State.each_keeps
      | apply keeps_ite | apply keeps_foldl
  | split

theorem execDelayMeasurement_keeps {s t : State} (h : Keeps s t) (r : Nat) :
    KeepsOut s (execDelayMeasurement r t) := by
  unfold execDelayMeasurement
  repeat' first
  | intro _
  | with_reducible assumption
  | fail_if_no_progress extract_lets +onlyGivenNames z
    first
    | (refine (have hz : Keeps s z := ?_; ?_))
      subst z
      rotate_left
      try clear_value z
    | try clear_value z
  | with_reducible
      first
      | apply keepsOut_next | apply State.peerSend_keeps | apply State.probeSend_keeps | apply State.put_keeps
      | apply keeps_ite | apply keeps_foldl
  | split

theorem execProbeReturn_keeps {s t : State} (h : Keeps s t) (r : Nat) (reverse : Bool) (acc : Nat) (maxrx : Nat) :
    KeepsOut s (execProbeReturn r reverse acc maxrx t) := by
  unfold execProbeReturn
  repeat' first
  | intro _
  | with_reducible assumption
  | fail_if_no_progress extract_lets +onlyGivenNames z
    first
    | (refine (have hz : Keeps s z := ?_; ?_))
      subst z
      rotate_left
      try clear_value z
    | try clear_value z
  | with_reducible
      first
      | apply keepsOut_next | apply State.nrtFlag_keeps | apply State.when_keeps | apply State.orBit_keeps
      | apply State.ringMeasured_keeps | apply State.put_keeps | apply State.setR_keeps | apply State.clearBit_keeps
      | apply keeps_ite | apply keeps_foldl
  | split

theorem execPeerDelayRequest_keeps {s t : State} (h : Keeps s t) (p : Nat) (id : Nat) (t2 : Nat) (t3 : Nat) :
    KeepsOut s (execPeerDelayRequest p id t2 t3 t) := by
  unfold execPeerDelayRequest
  repeat' first
  | intro _
  | with_reducible assumption
  | fail_if_no_progress extract_lets +onlyGivenNames z
    first
    | (refine (have hz : Keeps s z := ?_; ?_))
      subst z
      rotate_left
      try clear_value z
    | try clear_value z
  | with_reducible
      first
      | apply keepsOut_next | apply State.put_keeps | apply keeps_ite | apply keeps_foldl
  | split

theorem execPeerDelayResponse_keeps {s t : State} (h : Keeps s t) (p : Nat) (id : Nat) (t1 : Nat) (t2 : Nat) (t3 :
    Nat) (t4 : Nat) :
    KeepsOut s (execPeerDelayResponse p id t1 t2 t3 t4 t) := by
  unfold execPeerDelayResponse
  repeat' first
  | intro _
  | with_reducible assumption
  | fail_if_no_progress extract_lets +onlyGivenNames z
    first
    | (refine (have hz : Keeps s z := ?_; ?_))
      subst z
      rotate_left
      try clear_value z
    | try clear_value z
  | with_reducible
      first
      | apply keepsOut_next | apply State.orBit_keeps | apply State.ringMeasured_keeps | apply State.put_keeps
      | apply keeps_ite | apply keeps_foldl
  | split

theorem execNodeLost_keeps {s t : State} (h : Keeps s t) (r : Nat) (node : Nat) :
    KeepsOut s (execNodeLost r node t) := by
  unfold execNodeLost
  repeat' first
  | intro _
  | with_reducible assumption
  | fail_if_no_progress extract_lets +onlyGivenNames z
    first
    | (refine (have hz : Keeps s z := ?_; ?_))
      subst z
      rotate_left
      try clear_value z
    | try clear_value z
  | with_reducible
      first
      | apply keepsOut_next | apply State.nodeLost_keeps | apply keeps_ite | apply keeps_foldl
  | split

theorem execIdentifyRepeat_keeps {s t : State} (h : Keeps s t) (r : Nat) (node : Nat) :
    KeepsOut s (execIdentifyRepeat r node t) := by
  unfold execIdentifyRepeat
  repeat' first
  | intro _
  | with_reducible assumption
  | fail_if_no_progress extract_lets +onlyGivenNames z
    first
    | (refine (have hz : Keeps s z := ?_; ?_))
      subst z
      rotate_left
      try clear_value z
    | try clear_value z
  | with_reducible
      first
      | apply keepsOut_next | apply State.queryNode_keeps | apply keeps_ite | apply keeps_foldl
  | split

theorem State.acycEnd_keeps {s t : State} (h : Keeps s t) (m : AcycMsg) :
    Keeps s (State.acycEnd t m) := by
  unfold State.acycEnd
  repeat' first
  | intro _
  | with_reducible assumption
  | fail_if_no_progress extract_lets +onlyGivenNames z
    first
    | (refine (have hz : Keeps s z := ?_; ?_))
      subst z
      rotate_left
      try clear_value z
    | try clear_value z
  | with_reducible
      first
      | apply keeps_ite | apply keeps_foldl
  | split
  | with_reducible apply keeps_mk

theorem execAcycMessage_keeps {s t : State} (h : Keeps s t) (r : Nat) (node : Nat) (frags : List (Nat × List Nat)) :
    KeepsOut s (execAcycMessage r node frags t) := by
  unfold execAcycMessage
  repeat' first
  | intro _
  | with_reducible assumption
  | fail_if_no_progress extract_lets +onlyGivenNames z
    first
    | (refine (have hz : Keeps s z := ?_; ?_))
      subst z
      rotate_left
      try clear_value z
    | try clear_value z
  | with_reducible
      first
      | apply keepsOut_next | apply State.identified_keeps | apply State.acycEnd_keeps | apply State.done_keeps
      | apply State.incSat_keeps | apply keeps_ite | apply keeps_foldl
  | split

theorem execAcycTimeout_keeps {s t : State} (h : Keeps s t) (r : Nat) (node : Nat) :
    KeepsOut s (execAcycTimeout r node t) := by
  unfold execAcycTimeout
  repeat' first
  | intro _
  | with_reducible assumption
  | fail_if_no_progress extract_lets +onlyGivenNames z
    first
    | (refine (have hz : Keeps s z := ?_; ?_))
      subst z
      rotate_left
      try clear_value z
    | try clear_value z
  | with_reducible
      first
      | apply keepsOut_next | apply State.fail_keeps | apply State.acycEnd_keeps | apply keeps_ite | apply keeps_foldl
  | split

theorem execRingConfig_keeps {s t : State} (h : Keeps s t) (mb : Nat) :
    KeepsOut s (execRingConfig mb t) := by
  unfold execRingConfig
  repeat' first
  | intro _
  | with_reducible assumption
  | fail_if_no_progress extract_lets +onlyGivenNames z
    first
    | (refine (have hz : Keeps s z := ?_; ?_))
      subst z
      rotate_left
      try clear_value z
    | try clear_value z
  | with_reducible
      first
      | apply keepsOut_next | apply State.doneAll_keeps | apply State.ringStart_keeps | apply State.ringStore_keeps
      | apply State.ringStop_keeps | apply State.put_keeps | apply State.each_keeps | apply State.ringAbandon_keeps
      | apply State.wait_keeps | apply State.fail_keeps | apply State.request_keeps | apply keeps_ite
      | apply keeps_foldl
  | split

theorem execRingStop_keeps {s t : State} (h : Keeps s t) (mb : Nat) :
    KeepsOut s (execRingStop mb t) := by
  unfold execRingStop
  repeat' first
  | intro _
  | with_reducible assumption
  | fail_if_no_progress extract_lets +onlyGivenNames z
    first
    | (refine (have hz : Keeps s z := ?_; ?_))
      subst z
      rotate_left
      try clear_value z
    | try clear_value z
  | with_reducible
      first
      | apply keepsOut_next | apply State.ringStop_keeps | apply State.ringAbandon_keeps | apply State.put_keeps
      | apply State.wait_keeps | apply State.fail_keeps | apply State.request_keeps | apply keeps_ite
      | apply keeps_foldl
  | split

theorem execAcyc_keeps {s t : State} (h : Keeps s t) (mb : Nat) :
    KeepsOut s (execAcyc mb t) := by
  unfold execAcyc
  repeat' first
  | intro _
  | with_reducible assumption
  | fail_if_no_progress extract_lets +onlyGivenNames z
    first
    | (refine (have hz : Keeps s z := ?_; ?_))
      subst z
      rotate_left
      try clear_value z
    | try clear_value z
  | with_reducible
      first
      | apply keepsOut_next | apply State.acycPut_keeps | apply State.wait_keeps | apply State.fail_keeps
      | apply State.request_keeps | apply keeps_ite | apply keeps_foldl
  | split

theorem execBypass_keeps {s t : State} (h : Keeps s t) (mb : Nat) :
    KeepsOut s (execBypass mb t) := by
  unfold execBypass
  repeat' first
  | intro _
  | with_reducible assumption
  | fail_if_no_progress extract_lets +onlyGivenNames z
    first
    | (refine (have hz : Keeps s z := ?_; ?_))
      subst z
      rotate_left
      try clear_value z
    | try clear_value z
  | with_reducible
      first
      | apply keepsOut_next | apply State.wait_keeps | apply State.done_keeps | apply State.put_keeps
      | apply State.fail_keeps | apply State.request_keeps | apply keeps_ite | apply keeps_foldl
  | split

theorem execTopoRead_keeps {s t : State} (h : Keeps s t) (mb : Nat) :
    KeepsOut s (execTopoRead mb t) := by
  unfold execTopoRead
  repeat' first
  | intro _
  | with_reducible assumption
  | fail_if_no_progress extract_lets +onlyGivenNames z
    first
    | (refine (have hz : Keeps s z := ?_; ?_))
      subst z
      rotate_left
      try clear_value z
    | try clear_value z
  | with_reducible
      first
      | apply keepsOut_next | apply State.done_keeps | apply State.fail_keeps | apply State.request_keeps
      | apply keeps_ite | apply keeps_foldl
  | split

end Sys2Proof.Machine
end

