-- ==== Sys2Proof/Laws/KeepsDrive.lean ====
section
/-! SUPPORT. What the operations of local drives and field I/O keep: each keeps the queue and the invariant. -/

set_option linter.unusedTactic false
set_option linter.unreachableTactic false
set_option linter.tactic.unusedName false

namespace Sys2Proof.Machine

theorem State.gatesOff_keeps {s t : State} (h : Keeps s t) (p : Nat) :
    Keeps s (State.gatesOff t p) := by
  unfold State.gatesOff
  repeat' first
  | intro _
  | with_reducible assumption
  | fail_if_no_progress extract_lets +onlyGivenNames z
    first
    | (refine (have hz : Keeps s z := ?_; ?_))
      subst z
      rotate_left
      try clear_value z
    | try clear_value z
  | with_reducible
      first
      | apply State.rdyUp_keeps | apply State.put_keeps | apply keeps_ite | apply keeps_foldl
  | split

theorem State.hwOff_keeps {s t : State} (h : Keeps s t) (p : Nat) :
    Keeps s (State.hwOff t p) := by
  unfold State.hwOff
  repeat' first
  | intro _
  | with_reducible assumption
  | fail_if_no_progress extract_lets +onlyGivenNames z
    first
    | (refine (have hz : Keeps s z := ?_; ?_))
      subst z
      rotate_left
      try clear_value z
    | try clear_value z
  | with_reducible
      first
      | apply State.post_keeps | apply State.gatesOff_keeps | apply keeps_ite | apply keeps_foldl
  | split

theorem State.gateFault_keeps {s t : State} (h : Keeps s t) (p : Nat) :
    Keeps s (State.gateFault t p) := by
  unfold State.gateFault
  repeat' first
  | intro _
  | with_reducible assumption
  | fail_if_no_progress extract_lets +onlyGivenNames z
    first
    | (refine (have hz : Keeps s z := ?_; ?_))
      subst z
      rotate_left
      try clear_value z
    | try clear_value z
  | with_reducible
      first
      | apply State.put_keeps | apply State.incSat_keeps | apply State.hwOff_keeps | apply State.report_keeps
      | apply keeps_ite | apply keeps_foldl
  | split

theorem State.phaseRead_keeps {s t : State} (h : Keeps s t) (vals : List Nat) (p : Nat) :
    Keeps s (State.phaseRead t vals p) := by
  unfold State.phaseRead
  repeat' first
  | intro _
  | with_reducible assumption
  | fail_if_no_progress extract_lets +onlyGivenNames z
    first
    | (refine (have hz : Keeps s z := ?_; ?_))
      subst z
      rotate_left
      try clear_value z
    | try clear_value z
  | with_reducible
      first
      | apply State.put_keeps | apply State.puti_keeps | apply State.each_keeps | apply keeps_ite | apply keeps_foldl
  | split

theorem State.chopper_keeps {s t : State} (h : Keeps s t) (p : Nat) (chs : Bool) :
    Keeps s (State.chopper t p chs) := by
  unfold State.chopper
  repeat' first
  | intro _
  | with_reducible assumption
  | fail_if_no_progress extract_lets +onlyGivenNames z
    first
    | (refine (have hz : Keeps s z := ?_; ?_))
      subst z
      rotate_left
      try clear_value z
    | try clear_value z
  | with_reducible
      first
      | apply State.incSat_keeps | apply State.when_keeps | apply State.put_keeps | apply keeps_ite
      | apply keeps_foldl
  | split

theorem State.ofsAdd_keeps {s t : State} (h : Keeps s t) (vals : List Nat) (p : Nat) :
    Keeps s (State.ofsAdd t vals p) := by
  unfold State.ofsAdd
  repeat' first
  | intro _
  | with_reducible assumption
  | fail_if_no_progress extract_lets +onlyGivenNames z
    first
    | (refine (have hz : Keeps s z := ?_; ?_))
      subst z
      rotate_left
      try clear_value z
    | try clear_value z
  | with_reducible
      first
      | apply State.put_keeps | apply State.puti_keeps | apply State.each_keeps | apply keeps_ite | apply keeps_foldl
  | split

theorem State.ofsTake_keeps {s t : State} (h : Keeps s t) (p : Nat) (v : Nat) (w : Nat) :
    Keeps s (State.ofsTake t p v w) := by
  unfold State.ofsTake
  repeat' first
  | intro _
  | with_reducible assumption
  | fail_if_no_progress extract_lets +onlyGivenNames z
    first
    | (refine (have hz : Keeps s z := ?_; ?_))
      subst z
      rotate_left
      try clear_value z
    | try clear_value z
  | with_reducible
      first
      | apply State.put_keeps | apply keeps_ite | apply keeps_foldl
  | split

theorem State.pulseRest_keeps {s t : State} (h : Keeps s t) (p : Nat) :
    Keeps s (State.pulseRest t p) := by
  unfold State.pulseRest
  repeat' first
  | intro _
  | with_reducible assumption
  | fail_if_no_progress extract_lets +onlyGivenNames z
    first
    | (refine (have hz : Keeps s z := ?_; ?_))
      subst z
      rotate_left
      try clear_value z
    | try clear_value z
  | with_reducible
      first
      | apply State.put_keeps | apply keeps_ite | apply keeps_foldl
  | split

theorem State.startTick_keeps {s t : State} (h : Keeps s t) (p : Nat) :
    Keeps s (State.startTick t p) := by
  unfold State.startTick
  repeat' first
  | intro _
  | with_reducible assumption
  | fail_if_no_progress extract_lets +onlyGivenNames z
    first
    | (refine (have hz : Keeps s z := ?_; ?_))
      subst z
      rotate_left
      try clear_value z
    | try clear_value z
  | with_reducible
      first
      | apply State.each_keeps | apply State.pulseRest_keeps | apply State.put_keeps | apply State.when_keeps
      | apply State.incSat_keeps | apply keeps_ite | apply keeps_foldl
  | split

theorem State.convPort_keeps {s t : State} (h : Keeps s t) (vals : List Nat) (chs : Nat) (ref : Bool) (p : Nat) :
    Keeps s (State.convPort t vals chs ref p) := by
  unfold State.convPort
  repeat' first
  | intro _
  | with_reducible assumption
  | fail_if_no_progress extract_lets +onlyGivenNames z
    first
    | (refine (have hz : Keeps s z := ?_; ?_))
      subst z
      rotate_left
      try clear_value z
    | try clear_value z
  | with_reducible
      first
      | apply State.phaseRead_keeps | apply State.startTick_keeps | apply State.each_keeps | apply State.incSat_keeps
      | apply State.rdyUp_keeps | apply State.chopper_keeps | apply State.ofsAdd_keeps | apply State.put_keeps
      | apply keeps_ite | apply keeps_foldl
  | split

theorem State.sampled_keeps {s t : State} (h : Keeps s t) (p : Nat) :
    Keeps s (State.sampled t p) := by
  unfold State.sampled
  repeat' first
  | intro _
  | with_reducible assumption
  | fail_if_no_progress extract_lets +onlyGivenNames z
    first
    | (refine (have hz : Keeps s z := ?_; ?_))
      subst z
      rotate_left
      try clear_value z
    | try clear_value z
  | with_reducible
      first
      | apply State.incSat_keeps | apply State.put_keeps | apply keeps_ite | apply keeps_foldl
  | split

theorem State.ellipsis_keeps {s t : State} (h : Keeps s t) (p : Nat) :
    Keeps s (State.ellipsis t p) := by
  unfold State.ellipsis
  repeat' first
  | intro _
  | with_reducible assumption
  | fail_if_no_progress extract_lets +onlyGivenNames z
    first
    | (refine (have hz : Keeps s z := ?_; ?_))
      subst z
      rotate_left
      try clear_value z
    | try clear_value z
  | with_reducible
      first
      | apply State.put_keeps | apply State.when_keeps | apply State.incSat_keeps | apply keeps_ite
      | apply keeps_foldl
  | split

theorem State.showCurrents_keeps {s t : State} (h : Keeps s t) (p : Nat) :
    Keeps s (State.showCurrents t p) := by
  unfold State.showCurrents
  repeat' first
  | intro _
  | with_reducible assumption
  | fail_if_no_progress extract_lets +onlyGivenNames z
    first
    | (refine (have hz : Keeps s z := ?_; ?_))
      subst z
      rotate_left
      try clear_value z
    | try clear_value z
  | with_reducible
      first
      | apply State.put_keeps | apply keeps_ite | apply keeps_foldl
  | split

theorem State.takeSample_keeps {s t : State} (h : Keeps s t) (p : Nat) :
    Keeps s (State.takeSample t p) := by
  unfold State.takeSample
  repeat' first
  | intro _
  | with_reducible assumption
  | fail_if_no_progress extract_lets +onlyGivenNames z
    first
    | (refine (have hz : Keeps s z := ?_; ?_))
      subst z
      rotate_left
      try clear_value z
    | try clear_value z
  | with_reducible
      first
      | apply State.showCurrents_keeps | apply State.puti_keeps | apply State.ellipsis_keeps | apply State.each_keeps
      | apply State.sampled_keeps | apply State.put_keeps | apply keeps_ite | apply keeps_foldl
  | split

theorem State.angleTo_keeps {s t : State} (h : Keeps s t) (p : Nat) (ang : Nat) :
    Keeps s (State.angleTo t p ang) := by
  unfold State.angleTo
  repeat' first
  | intro _
  | with_reducible assumption
  | fail_if_no_progress extract_lets +onlyGivenNames z
    first
    | (refine (have hz : Keeps s z := ?_; ?_))
      subst z
      rotate_left
      try clear_value z
    | try clear_value z
  | with_reducible
      first
      | apply State.put_keeps | apply keeps_ite | apply keeps_foldl
  | split

theorem State.estimate_keeps {s t : State} (h : Keeps s t) (p : Nat) :
    Keeps s (State.estimate t p) := by
  unfold State.estimate
  repeat' first
  | intro _
  | with_reducible assumption
  | fail_if_no_progress extract_lets +onlyGivenNames z
    first
    | (refine (have hz : Keeps s z := ?_; ?_))
      subst z
      rotate_left
      try clear_value z
    | try clear_value z
  | with_reducible
      first
      | apply State.angleTo_keeps | apply State.put_keeps | apply State.puti_keeps | apply keeps_ite
      | apply keeps_foldl
  | split

theorem State.applyVec_keeps {s t : State} (h : Keeps s t) (p : Nat) (v : Nat) :
    Keeps s (State.applyVec t p v) := by
  unfold State.applyVec
  repeat' first
  | intro _
  | with_reducible assumption
  | fail_if_no_progress extract_lets +onlyGivenNames z
    first
    | (refine (have hz : Keeps s z := ?_; ?_))
      subst z
      rotate_left
      try clear_value z
    | try clear_value z
  | with_reducible
      first
      | apply State.each_keeps | apply State.put_keeps | apply keeps_ite | apply keeps_foldl
  | split

theorem State.evaluate_keeps {s t : State} (h : Keeps s t) (p : Nat) :
    Keeps s (State.evaluate t p) := by
  unfold State.evaluate
  repeat' first
  | intro _
  | with_reducible assumption
  | fail_if_no_progress extract_lets +onlyGivenNames z
    first
    | (refine (have hz : Keeps s z := ?_; ?_))
      subst z
      rotate_left
      try clear_value z
    | try clear_value z
  | with_reducible
      first
      | apply State.stageAt_keeps | apply State.when_keeps | apply State.applyVec_keeps | apply State.put_keeps
      | apply State.incSat_keeps | apply State.takeSample_keeps | apply State.estimate_keeps | apply keeps_ite
      | apply keeps_foldl
  | split

theorem State.seedFlux_keeps {s t : State} (h : Keeps s t) (p : Nat) (ang : Nat) (mag : Int) :
    Keeps s (State.seedFlux t p ang mag) := by
  unfold State.seedFlux
  repeat' first
  | intro _
  | with_reducible assumption
  | fail_if_no_progress extract_lets +onlyGivenNames z
    first
    | (refine (have hz : Keeps s z := ?_; ?_))
      subst z
      rotate_left
      try clear_value z
    | try clear_value z
  | with_reducible
      first
      | apply State.stageAt_keeps | apply State.rdyUp_keeps | apply State.angleTo_keeps | apply State.put_keeps
      | apply State.puti_keeps | apply keeps_ite | apply keeps_foldl
  | split

theorem State.startFails_keeps {s t : State} (h : Keeps s t) (p : Nat) :
    Keeps s (State.startFails t p) := by
  unfold State.startFails
  repeat' first
  | intro _
  | with_reducible assumption
  | fail_if_no_progress extract_lets +onlyGivenNames z
    first
    | (refine (have hz : Keeps s z := ?_; ?_))
      subst z
      rotate_left
      try clear_value z
    | try clear_value z
  | with_reducible
      first
      | apply State.stageAt_keeps | apply State.put_keeps | apply keeps_ite | apply keeps_foldl
  | split

theorem State.pulsesDone_keeps {s t : State} (h : Keeps s t) (p : Nat) :
    Keeps s (State.pulsesDone t p) := by
  unfold State.pulsesDone
  repeat' first
  | intro _
  | with_reducible assumption
  | fail_if_no_progress extract_lets +onlyGivenNames z
    first
    | (refine (have hz : Keeps s z := ?_; ?_))
      subst z
      rotate_left
      try clear_value z
    | try clear_value z
  | with_reducible
      first
      | apply State.seedFlux_keeps | apply State.startFails_keeps | apply keeps_ite | apply keeps_foldl
  | split

theorem State.loadAngle_keeps {s t : State} (h : Keeps s t) (p : Nat) :
    Keeps s (State.loadAngle t p) := by
  unfold State.loadAngle
  repeat' first
  | intro _
  | with_reducible assumption
  | fail_if_no_progress extract_lets +onlyGivenNames z
    first
    | (refine (have hz : Keeps s z := ?_; ?_))
      subst z
      rotate_left
      try clear_value z
    | try clear_value z
  | with_reducible
      first
      | apply State.incSat_keeps | apply State.useFree_keeps | apply State.put_keeps | apply keeps_ite
      | apply keeps_foldl
  | split

theorem State.setPoints_keeps {s t : State} (h : Keeps s t) (p : Nat) :
    Keeps s (State.setPoints t p) := by
  unfold State.setPoints
  repeat' first
  | intro _
  | with_reducible assumption
  | fail_if_no_progress extract_lets +onlyGivenNames z
    first
    | (refine (have hz : Keeps s z := ?_; ?_))
      subst z
      rotate_left
      try clear_value z
    | try clear_value z
  | with_reducible
      first
      | apply State.puti_keeps | apply keeps_ite | apply keeps_foldl
  | split

theorem State.currentLoop_keeps {s t : State} (h : Keeps s t) (p : Nat) (k : Nat) :
    Keeps s (State.currentLoop t p k) := by
  unfold State.currentLoop
  repeat' first
  | intro _
  | with_reducible assumption
  | fail_if_no_progress extract_lets +onlyGivenNames z
    first
    | (refine (have hz : Keeps s z := ?_; ?_))
      subst z
      rotate_left
      try clear_value z
    | try clear_value z
  | with_reducible
      first
      | apply State.put_keeps | apply State.puti_keeps | apply keeps_ite | apply keeps_foldl
  | split

theorem State.microStep_keeps {s t : State} (h : Keeps s t) (p : Nat) :
    Keeps s (State.microStep t p) := by
  unfold State.microStep
  repeat' first
  | intro _
  | with_reducible assumption
  | fail_if_no_progress extract_lets +onlyGivenNames z
    first
    | (refine (have hz : Keeps s z := ?_; ?_))
      subst z
      rotate_left
      try clear_value z
    | try clear_value z
  | with_reducible
      first
      | apply State.loadAngle_keeps | apply State.resChange_keeps | apply State.put_keeps | apply keeps_ite
      | apply keeps_foldl
  | split

theorem State.pulseStep_keeps {s t : State} (h : Keeps s t) (q : Nat) :
    Keeps s (State.pulseStep t q) := by
  unfold State.pulseStep
  repeat' first
  | intro _
  | with_reducible assumption
  | fail_if_no_progress extract_lets +onlyGivenNames z
    first
    | (refine (have hz : Keeps s z := ?_; ?_))
      subst z
      rotate_left
      try clear_value z
    | try clear_value z
  | with_reducible
      first
      | apply State.puti_keeps | apply State.put_keeps | apply keeps_ite | apply keeps_foldl
  | split

theorem State.portPeriod_keeps {s t : State} (h : Keeps s t) (a : Nat) :
    Keeps s (State.portPeriod t a) := by
  unfold State.portPeriod
  repeat' first
  | intro _
  | with_reducible assumption
  | fail_if_no_progress extract_lets +onlyGivenNames z
    first
    | (refine (have hz : Keeps s z := ?_; ?_))
      subst z
      rotate_left
      try clear_value z
    | try clear_value z
  | with_reducible
      first
      | apply State.rateTo_keeps | apply State.when_keeps | apply State.put_keeps | apply keeps_ite
      | apply keeps_foldl
  | split

theorem State.portOff_keeps {s t : State} (h : Keeps s t) (p : Nat) :
    Keeps s (State.portOff t p) := by
  unfold State.portOff
  repeat' first
  | intro _
  | with_reducible assumption
  | fail_if_no_progress extract_lets +onlyGivenNames z
    first
    | (refine (have hz : Keeps s z := ?_; ?_))
      subst z
      rotate_left
      try clear_value z
    | try clear_value z
  | with_reducible
      first
      | apply State.stageAt_keeps | apply State.put_keeps | apply keeps_ite | apply keeps_foldl
  | split

theorem State.drvApply_keeps {s t : State} (h : Keeps s t) (p : Nat) :
    Keeps s (State.drvApply t p) := by
  unfold State.drvApply
  repeat' first
  | intro _
  | with_reducible assumption
  | fail_if_no_progress extract_lets +onlyGivenNames z
    first
    | (refine (have hz : Keeps s z := ?_; ?_))
      subst z
      rotate_left
      try clear_value z
    | try clear_value z
  | with_reducible
      first
      | apply State.done_keeps | apply State.post_keeps | apply State.recFix_keeps | apply State.relink_keeps
      | apply State.portOff_keeps | apply State.ofsStart_keeps | apply State.rdyUp_keeps | apply State.when_keeps
      | apply State.drvFix_keeps | apply State.put_keeps | apply State.motoringOnly_keeps | apply State.putWord_keeps
      | apply State.confWrote_keeps | apply State.each_keeps | apply keeps_ite | apply keeps_foldl
  | split

theorem State.portCfgs_keeps {s t : State} (h : Keeps s t) :
    Keeps s (State.portCfgs t) := by
  unfold State.portCfgs
  repeat' first
  | intro _
  | with_reducible assumption
  | fail_if_no_progress extract_lets +onlyGivenNames z
    first
    | (refine (have hz : Keeps s z := ?_; ?_))
      subst z
      rotate_left
      try clear_value z
    | try clear_value z
  | with_reducible
      first
      | apply State.putWord_keeps | apply State.dirty_keeps | apply State.doneAll_keeps | apply State.putWords_keeps
      | apply State.clampAll_keeps | apply State.when_keeps | apply State.drvApply_keeps | apply State.put_keeps
      | apply State.each_keeps | apply keeps_ite | apply keeps_foldl
  | split

theorem execConversion_keeps {s t : State} (h : Keeps s t) (vals : List Nat) (chs : Nat) :
    KeepsOut s (execConversion vals chs t) := by
  unfold execConversion
  repeat' first
  | intro _
  | with_reducible assumption
  | fail_if_no_progress extract_lets +onlyGivenNames z
    first
    | (refine (have hz : Keeps s z := ?_; ?_))
      subst z
      rotate_left
      try clear_value z
    | try clear_value z
  | with_reducible
      first
      | apply keepsOut_next | apply State.convPort_keeps | apply State.each_keeps | apply State.put_keeps
      | apply keeps_ite | apply keeps_foldl
  | split

theorem execOvTrip_keeps {s t : State} (h : Keeps s t) (p : Nat) :
    KeepsOut s (execOvTrip p t) := by
  unfold execOvTrip
  repeat' first
  | intro _
  | with_reducible assumption
  | fail_if_no_progress extract_lets +onlyGivenNames z
    first
    | (refine (have hz : Keeps s z := ?_; ?_))
      subst z
      rotate_left
      try clear_value z
    | try clear_value z
  | with_reducible
      first
      | apply keepsOut_next | apply State.put_keeps | apply State.incSat_keeps | apply State.hwOff_keeps
      | apply State.report_keeps | apply keeps_ite | apply keeps_foldl
  | split

theorem execChopperFault_keeps {s t : State} (h : Keeps s t) (p : Nat) :
    KeepsOut s (execChopperFault p t) := by
  unfold execChopperFault
  repeat' first
  | intro _
  | with_reducible assumption
  | fail_if_no_progress extract_lets +onlyGivenNames z
    first
    | (refine (have hz : Keeps s z := ?_; ?_))
      subst z
      rotate_left
      try clear_value z
    | try clear_value z
  | with_reducible
      first
      | apply keepsOut_next | apply State.motoringOnly_keeps | apply State.put_keeps | apply State.incSat_keeps
      | apply State.report_keeps | apply keeps_ite | apply keeps_foldl
  | split

theorem execGateDriverFault_keeps {s t : State} (h : Keeps s t) (p : Nat) :
    KeepsOut s (execGateDriverFault p t) := by
  unfold execGateDriverFault
  repeat' first
  | intro _
  | with_reducible assumption
  | fail_if_no_progress extract_lets +onlyGivenNames z
    first
    | (refine (have hz : Keeps s z := ?_; ?_))
      subst z
      rotate_left
      try clear_value z
    | try clear_value z
  | with_reducible
      first
      | apply keepsOut_next | apply State.put_keeps | apply State.when_keeps | apply State.gateFault_keeps
      | apply keeps_ite | apply keeps_foldl
  | split

theorem execDtcEvaluation_keeps {s t : State} (h : Keeps s t) (p : Nat) :
    KeepsOut s (execDtcEvaluation p t) := by
  unfold execDtcEvaluation
  repeat' first
  | intro _
  | with_reducible assumption
  | fail_if_no_progress extract_lets +onlyGivenNames z
    first
    | (refine (have hz : Keeps s z := ?_; ?_))
      subst z
      rotate_left
      try clear_value z
    | try clear_value z
  | with_reducible
      first
      | apply keepsOut_next | apply State.put_keeps | apply State.evaluate_keeps | apply keeps_ite | apply keeps_foldl
  | split

theorem execEllipsisTorqueLimit_keeps {s t : State} (h : Keeps s t) (p : Nat) :
    KeepsOut s (execEllipsisTorqueLimit p t) := by
  unfold execEllipsisTorqueLimit
  repeat' first
  | intro _
  | with_reducible assumption
  | fail_if_no_progress extract_lets +onlyGivenNames z
    first
    | (refine (have hz : Keeps s z := ?_; ?_))
      subst z
      rotate_left
      try clear_value z
    | try clear_value z
  | with_reducible
      first
      | apply keepsOut_next | apply State.put_keeps | apply State.report_keeps | apply keeps_ite | apply keeps_foldl
  | split

theorem execEllipsisLimitEnd_keeps {s t : State} (h : Keeps s t) (p : Nat) :
    KeepsOut s (execEllipsisLimitEnd p t) := by
  unfold execEllipsisLimitEnd
  repeat' first
  | intro _
  | with_reducible assumption
  | fail_if_no_progress extract_lets +onlyGivenNames z
    first
    | (refine (have hz : Keeps s z := ?_; ?_))
      subst z
      rotate_left
      try clear_value z
    | try clear_value z
  | with_reducible
      first
      | apply keepsOut_next | apply State.put_keeps | apply keeps_ite | apply keeps_foldl
  | split

theorem execEllipsisHwoff_keeps {s t : State} (h : Keeps s t) (p : Nat) :
    KeepsOut s (execEllipsisHwoff p t) := by
  unfold execEllipsisHwoff
  repeat' first
  | intro _
  | with_reducible assumption
  | fail_if_no_progress extract_lets +onlyGivenNames z
    first
    | (refine (have hz : Keeps s z := ?_; ?_))
      subst z
      rotate_left
      try clear_value z
    | try clear_value z
  | with_reducible
      first
      | apply keepsOut_next | apply State.hwOff_keeps | apply State.report_keeps | apply keeps_ite | apply keeps_foldl
  | split

theorem execPwmValley_keeps {s t : State} (h : Keeps s t) (p : Nat) :
    KeepsOut s (execPwmValley p t) := by
  unfold execPwmValley
  repeat' first
  | intro _
  | with_reducible assumption
  | fail_if_no_progress extract_lets +onlyGivenNames z
    first
    | (refine (have hz : Keeps s z := ?_; ?_))
      subst z
      rotate_left
      try clear_value z
    | try clear_value z
  | with_reducible
      first
      | apply keepsOut_next | apply State.currentLoop_keeps | apply State.setPoints_keeps | apply State.ellipsis_keeps
      | apply State.sampled_keeps | apply State.puti_keeps | apply State.incSat_keeps | apply State.put_keeps
      | apply keeps_ite | apply keeps_foldl
  | split

theorem execStepIssue_keeps {s t : State} (h : Keeps s t) (dp : Bool) (q : Nat) :
    KeepsOut s (execStepIssue dp q t) := by
  unfold execStepIssue
  repeat' first
  | intro _
  | with_reducible assumption
  | fail_if_no_progress extract_lets +onlyGivenNames z
    first
    | (refine (have hz : Keeps s z := ?_; ?_))
      subst z
      rotate_left
      try clear_value z
    | try clear_value z
  | with_reducible
      first
      | apply keepsOut_next | apply State.pulseStep_keeps | apply State.microStep_keeps | apply keeps_ite
      | apply keeps_foldl
  | split

theorem execStepperHoldCurrent_keeps {s t : State} (h : Keeps s t) (p : Nat) :
    KeepsOut s (execStepperHoldCurrent p t) := by
  unfold execStepperHoldCurrent
  repeat' first
  | intro _
  | with_reducible assumption
  | fail_if_no_progress extract_lets +onlyGivenNames z
    first
    | (refine (have hz : Keeps s z := ?_; ?_))
      subst z
      rotate_left
      try clear_value z
    | try clear_value z
  | with_reducible
      first
      | apply keepsOut_next | apply State.put_keeps | apply keeps_ite | apply keeps_foldl
  | split

theorem execStall_keeps {s t : State} (h : Keeps s t) (p : Nat) :
    KeepsOut s (execStall p t) := by
  unfold execStall
  repeat' first
  | intro _
  | with_reducible assumption
  | fail_if_no_progress extract_lets +onlyGivenNames z
    first
    | (refine (have hz : Keeps s z := ?_; ?_))
      subst z
      rotate_left
      try clear_value z
    | try clear_value z
  | with_reducible
      first
      | apply keepsOut_next | apply State.homingEnd_keeps | apply State.when_keeps | apply State.post_keeps
      | apply State.homeRef_keeps | apply State.homeNext_keeps | apply State.put_keeps | apply keeps_ite
      | apply keeps_foldl
  | split

theorem State.calOk_keeps {s t : State} (h : Keeps s t) (p : Nat) :
    Keeps s (State.calOk t p) := by
  unfold State.calOk
  repeat' first
  | intro _
  | with_reducible assumption
  | fail_if_no_progress extract_lets +onlyGivenNames z
    first
    | (refine (have hz : Keeps s z := ?_; ?_))
      subst z
      rotate_left
      try clear_value z
    | try clear_value z
  | with_reducible
      first
      | apply State.post_keeps | apply State.put_keeps | apply State.rdyUp_keeps | apply keeps_ite | apply keeps_foldl
  | split

theorem execOffsetCalibrationComplete_keeps {s t : State} (h : Keeps s t) (p : Nat) (o0 : Nat) (o1 : Nat) (o2 : Nat)
    (o3 : Nat) :
    KeepsOut s (execOffsetCalibrationComplete p o0 o1 o2 o3 t) := by
  unfold execOffsetCalibrationComplete
  repeat' first
  | intro _
  | with_reducible assumption
  | fail_if_no_progress extract_lets +onlyGivenNames z
    first
    | (refine (have hz : Keeps s z := ?_; ?_))
      subst z
      rotate_left
      try clear_value z
    | try clear_value z
  | with_reducible
      first
      | apply keepsOut_next | apply State.ofsTake_keeps | apply State.calOk_keeps | apply keeps_ite
      | apply keeps_foldl
  | split

theorem execSpinProbe_keeps {s t : State} (h : Keeps s t) (p : Nat) (fe : Int) (ang : Nat) (mag : Nat) :
    KeepsOut s (execSpinProbe p fe ang mag t) := by
  unfold execSpinProbe
  repeat' first
  | intro _
  | with_reducible assumption
  | fail_if_no_progress extract_lets +onlyGivenNames z
    first
    | (refine (have hz : Keeps s z := ?_; ?_))
      subst z
      rotate_left
      try clear_value z
    | try clear_value z
  | with_reducible
      first
      | apply keepsOut_next | apply State.seedFlux_keeps | apply State.stageAt_keeps | apply State.put_keeps
      | apply State.puti_keeps | apply keeps_ite | apply keeps_foldl
  | split

theorem execSaturationTestPulse_keeps {s t : State} (h : Keeps s t) (p : Nat) (peak : Nat) (readable : Bool) :
    KeepsOut s (execSaturationTestPulse p peak readable t) := by
  unfold execSaturationTestPulse
  repeat' first
  | intro _
  | with_reducible assumption
  | fail_if_no_progress extract_lets +onlyGivenNames z
    first
    | (refine (have hz : Keeps s z := ?_; ?_))
      subst z
      rotate_left
      try clear_value z
    | try clear_value z
  | with_reducible
      first
      | apply keepsOut_next | apply State.pulsesDone_keeps | apply State.put_keeps | apply State.pulseRest_keeps
      | apply State.startFails_keeps | apply keeps_ite | apply keeps_foldl
  | split

theorem execEncoderEdge_keeps {s t : State} (h : Keeps s t) (c : Nat) (ab : Nat) (z : Bool) :
    KeepsOut s (execEncoderEdge c ab z t) := by
  unfold execEncoderEdge
  repeat' first
  | intro _
  | with_reducible assumption
  | fail_if_no_progress extract_lets +onlyGivenNames z
    first
    | (refine (have hz : Keeps s z := ?_; ?_))
      subst z
      rotate_left
      try clear_value z
    | try clear_value z
  | with_reducible
      first
      | apply keepsOut_next | apply State.put_keeps | apply State.incSat_keeps | apply keeps_ite | apply keeps_foldl
  | split

theorem execCalStart_keeps {s t : State} (h : Keeps s t) (mb : Nat) :
    KeepsOut s (execCalStart mb t) := by
  unfold execCalStart
  repeat' first
  | intro _
  | with_reducible assumption
  | fail_if_no_progress extract_lets +onlyGivenNames z
    first
    | (refine (have hz : Keeps s z := ?_; ?_))
      subst z
      rotate_left
      try clear_value z
    | try clear_value z
  | with_reducible
      first
      | apply keepsOut_next | apply State.lopEnd_keeps | apply State.when_keeps | apply State.put_keeps
      | apply State.calStep_keeps | apply State.lopStart_keeps | apply State.fail_keeps | apply State.request_keeps
      | apply keeps_ite | apply keeps_foldl
  | split

theorem execCalibrationStepComplete_keeps {s t : State} (h : Keeps s t) (p : Nat) (v : Nat) (w : Nat) :
    KeepsOut s (execCalibrationStepComplete p v w t) := by
  unfold execCalibrationStepComplete
  repeat' first
  | intro _
  | with_reducible assumption
  | fail_if_no_progress extract_lets +onlyGivenNames z
    first
    | (refine (have hz : Keeps s z := ?_; ?_))
      subst z
      rotate_left
      try clear_value z
    | try clear_value z
  | with_reducible
      first
      | apply keepsOut_next | apply State.lopProgress_keeps | apply State.lopEnd_keeps | apply State.put_keeps
      | apply State.calStep_keeps | apply State.write_keeps | apply State.confWrote_keeps | apply State.ofsTake_keeps
      | apply State.calOk_keeps | apply keeps_ite | apply keeps_foldl
  | split

theorem execDrvClear_keeps {s t : State} (h : Keeps s t) (mb : Nat) :
    KeepsOut s (execDrvClear mb t) := by
  unfold execDrvClear
  repeat' first
  | intro _
  | with_reducible assumption
  | fail_if_no_progress extract_lets +onlyGivenNames z
    first
    | (refine (have hz : Keeps s z := ?_; ?_))
      subst z
      rotate_left
      try clear_value z
    | try clear_value z
  | with_reducible
      first
      | apply keepsOut_next | apply State.put_keeps | apply State.each_keeps | apply State.motoringOnly_keeps
      | apply State.done_keeps | apply State.fail_keeps | apply State.request_keeps | apply keeps_ite
      | apply keeps_foldl
  | split

theorem execDrvConfig_keeps {s t : State} (h : Keeps s t) (mb : Nat) :
    KeepsOut s (execDrvConfig mb t) := by
  unfold execDrvConfig
  repeat' first
  | intro _
  | with_reducible assumption
  | fail_if_no_progress extract_lets +onlyGivenNames z
    first
    | (refine (have hz : Keeps s z := ?_; ?_))
      subst z
      rotate_left
      try clear_value z
    | try clear_value z
  | with_reducible
      first
      | apply keepsOut_next | apply State.wait_keeps | apply State.put_keeps | apply State.orBit_keeps
      | apply State.each_keeps | apply State.fail_keeps | apply State.request_keeps | apply keeps_ite
      | apply keeps_foldl
  | split

theorem execPtgConfig_keeps {s t : State} (h : Keeps s t) (mb : Nat) :
    KeepsOut s (execPtgConfig mb t) := by
  unfold execPtgConfig
  repeat' first
  | intro _
  | with_reducible assumption
  | fail_if_no_progress extract_lets +onlyGivenNames z
    first
    | (refine (have hz : Keeps s z := ?_; ?_))
      subst z
      rotate_left
      try clear_value z
    | try clear_value z
  | with_reducible
      first
      | apply keepsOut_next | apply State.each_keeps | apply State.put_keeps | apply State.wait_keeps
      | apply State.fail_keeps | apply State.request_keeps | apply keeps_ite | apply keeps_foldl
  | split

theorem execEncConfig_keeps {s t : State} (h : Keeps s t) (mb : Nat) :
    KeepsOut s (execEncConfig mb t) := by
  unfold execEncConfig
  repeat' first
  | intro _
  | with_reducible assumption
  | fail_if_no_progress extract_lets +onlyGivenNames z
    first
    | (refine (have hz : Keeps s z := ?_; ?_))
      subst z
      rotate_left
      try clear_value z
    | try clear_value z
  | with_reducible
      first
      | apply keepsOut_next | apply State.put_keeps | apply State.wait_keeps | apply State.fail_keeps
      | apply State.request_keeps | apply keeps_ite | apply keeps_foldl
  | split

theorem State.brakeOut_keeps {s t : State} (h : Keeps s t) :
    Keeps s (State.brakeOut t) := by
  unfold State.brakeOut
  repeat' first
  | intro _
  | with_reducible assumption
  | fail_if_no_progress extract_lets +onlyGivenNames z
    first
    | (refine (have hz : Keeps s z := ?_; ?_))
      subst z
      rotate_left
      try clear_value z
    | try clear_value z
  | with_reducible
      first
      | apply State.orBit_keeps | apply State.clearBit_keeps | apply State.put_keeps | apply State.each_keeps
      | apply keeps_ite | apply keeps_foldl
  | split

theorem State.fioOutW_keeps {s t : State} (h : Keeps s t) (mask : Nat) (on : Bool) :
    Keeps s (State.fioOutW t mask on) := by
  unfold State.fioOutW
  repeat' first
  | intro _
  | with_reducible assumption
  | fail_if_no_progress extract_lets +onlyGivenNames z
    first
    | (refine (have hz : Keeps s z := ?_; ?_))
      subst z
      rotate_left
      try clear_value z
    | try clear_value z
  | with_reducible
      first
      | apply State.incSat_keeps | apply State.when_keeps | apply State.clearBit_keeps | apply State.orBit_keeps
      | apply State.each_keeps | apply keeps_ite | apply keeps_foldl
  | split

theorem State.fioView_keeps {s t : State} (h : Keeps s t) :
    Keeps s (State.fioView t) := by
  unfold State.fioView
  repeat' first
  | intro _
  | with_reducible assumption
  | fail_if_no_progress extract_lets +onlyGivenNames z
    first
    | (refine (have hz : Keeps s z := ?_; ?_))
      subst z
      rotate_left
      try clear_value z
    | try clear_value z
  | with_reducible
      first
      | apply State.clearBit_keeps | apply State.orBit_keeps | apply State.put_keeps | apply State.each_keeps
      | apply keeps_ite | apply keeps_foldl
  | split

theorem State.filtRestart_keeps {s t : State} (h : Keeps s t) (c : Nat) :
    Keeps s (State.filtRestart t c) := by
  unfold State.filtRestart
  repeat' first
  | intro _
  | with_reducible assumption
  | fail_if_no_progress extract_lets +onlyGivenNames z
    first
    | (refine (have hz : Keeps s z := ?_; ?_))
      subst z
      rotate_left
      try clear_value z
    | try clear_value z
  | with_reducible
      first
      | apply State.put_keeps | apply State.clearBit_keeps | apply keeps_ite | apply keeps_foldl
  | split

theorem State.filtZero_keeps {s t : State} (h : Keeps s t) (c : Nat) :
    Keeps s (State.filtZero t c) := by
  unfold State.filtZero
  repeat' first
  | intro _
  | with_reducible assumption
  | fail_if_no_progress extract_lets +onlyGivenNames z
    first
    | (refine (have hz : Keeps s z := ?_; ?_))
      subst z
      rotate_left
      try clear_value z
    | try clear_value z
  | with_reducible
      first
      | apply State.filtRestart_keeps | apply State.put_keeps | apply keeps_ite | apply keeps_foldl
  | split

theorem State.safEvt_keeps {s t : State} (h : Keeps s t) (k : Nat) :
    Keeps s (State.safEvt t k) := by
  unfold State.safEvt
  repeat' first
  | intro _
  | with_reducible assumption
  | fail_if_no_progress extract_lets +onlyGivenNames z
    first
    | (refine (have hz : Keeps s z := ?_; ?_))
      subst z
      rotate_left
      try clear_value z
    | try clear_value z
  | with_reducible
      first
      | apply State.orBit_keeps | apply State.cause_keeps | apply State.when_keeps | apply keeps_ite
      | apply keeps_foldl
  | split

theorem State.soTested_keeps {s t : State} (h : Keeps s t) (k : Nat) (r : Nat) :
    Keeps s (State.soTested t k r) := by
  unfold State.soTested
  repeat' first
  | intro _
  | with_reducible assumption
  | fail_if_no_progress extract_lets +onlyGivenNames z
    first
    | (refine (have hz : Keeps s z := ?_; ?_))
      subst z
      rotate_left
      try clear_value z
    | try clear_value z
  | with_reducible
      first
      | apply State.fail_keeps | apply State.done_keeps | apply State.each_keeps | apply keeps_ite | apply keeps_foldl
  | split
  | with_reducible apply keeps_mk

theorem State.soProofOff_keeps {s t : State} (h : Keeps s t) (k : Nat) (r : Nat) :
    Keeps s (State.soProofOff t k r) := by
  unfold State.soProofOff
  repeat' first
  | intro _
  | with_reducible assumption
  | fail_if_no_progress extract_lets +onlyGivenNames z
    first
    | (refine (have hz : Keeps s z := ?_; ?_))
      subst z
      rotate_left
      try clear_value z
    | try clear_value z
  | with_reducible
      first
      | apply State.put_keeps | apply State.soTested_keeps | apply keeps_ite | apply keeps_foldl
  | split

theorem State.soFail_keeps {s t : State} (h : Keeps s t) (k : Nat) (cause : Nat) :
    Keeps s (State.soFail t k cause) := by
  unfold State.soFail
  repeat' first
  | intro _
  | with_reducible assumption
  | fail_if_no_progress extract_lets +onlyGivenNames z
    first
    | (refine (have hz : Keeps s z := ?_; ?_))
      subst z
      rotate_left
      try clear_value z
    | try clear_value z
  | with_reducible
      first
      | apply State.report_keeps | apply State.safEvt_keeps | apply State.soProofOff_keeps | apply State.put_keeps
      | apply keeps_ite | apply keeps_foldl
  | split

theorem State.soLost_keeps {s t : State} (h : Keeps s t) :
    Keeps s (State.soLost t) := by
  unfold State.soLost
  repeat' first
  | intro _
  | with_reducible assumption
  | fail_if_no_progress extract_lets +onlyGivenNames z
    first
    | (refine (have hz : Keeps s z := ?_; ?_))
      subst z
      rotate_left
      try clear_value z
    | try clear_value z
  | with_reducible
      first
      | apply State.put_keeps | apply State.soFail_keeps | apply State.each_keeps | apply keeps_ite
      | apply keeps_foldl
  | split

theorem State.soFailAll_keeps {s t : State} (h : Keeps s t) (cause : Nat) :
    Keeps s (State.soFailAll t cause) := by
  unfold State.soFailAll
  repeat' first
  | intro _
  | with_reducible assumption
  | fail_if_no_progress extract_lets +onlyGivenNames z
    first
    | (refine (have hz : Keeps s z := ?_; ?_))
      subst z
      rotate_left
      try clear_value z
    | try clear_value z
  | with_reducible
      first
      | apply State.soFail_keeps | apply State.each_keeps | apply keeps_ite | apply keeps_foldl
  | split

theorem State.soExec_keeps {s t : State} (h : Keeps s t) :
    Keeps s (State.soExec t) := by
  unfold State.soExec
  repeat' first
  | intro _
  | with_reducible assumption
  | fail_if_no_progress extract_lets +onlyGivenNames z
    first
    | (refine (have hz : Keeps s z := ?_; ?_))
      subst z
      rotate_left
      try clear_value z
    | try clear_value z
  | with_reducible
      first
      | apply State.put_keeps | apply State.each_keeps | apply keeps_ite | apply keeps_foldl
  | split

theorem State.fioApply_keeps {s t : State} (h : Keeps s t) (k : Nat) :
    Keeps s (State.fioApply t k) := by
  unfold State.fioApply
  repeat' first
  | intro _
  | with_reducible assumption
  | fail_if_no_progress extract_lets +onlyGivenNames z
    first
    | (refine (have hz : Keeps s z := ?_; ?_))
      subst z
      rotate_left
      try clear_value z
    | try clear_value z
  | with_reducible
      first
      | apply State.filtRestart_keeps | apply State.put_keeps | apply State.when_keeps | apply State.fioTake_keeps
      | apply keeps_ite | apply keeps_foldl
  | split

theorem State.fioStage_keeps {s t : State} (h : Keeps s t) (j : Nat) :
    Keeps s (State.fioStage t j) := by
  unfold State.fioStage
  repeat' first
  | intro _
  | with_reducible assumption
  | fail_if_no_progress extract_lets +onlyGivenNames z
    first
    | (refine (have hz : Keeps s z := ?_; ?_))
      subst z
      rotate_left
      try clear_value z
    | try clear_value z
  | with_reducible
      first
      | apply State.put_keeps | apply State.each_keeps | apply keeps_ite | apply keeps_foldl
  | split

theorem State.fioConfNow_keeps {s t : State} (h : Keeps s t) :
    Keeps s (State.fioConfNow t) := by
  unfold State.fioConfNow
  repeat' first
  | intro _
  | with_reducible assumption
  | fail_if_no_progress extract_lets +onlyGivenNames z
    first
    | (refine (have hz : Keeps s z := ?_; ?_))
      subst z
      rotate_left
      try clear_value z
    | try clear_value z
  | with_reducible
      first
      | apply State.fioApply_keeps | apply State.put_keeps | apply State.each_keeps | apply keeps_ite
      | apply keeps_foldl
  | split

theorem State.fioClearCh_keeps {s t : State} (h : Keeps s t) (c : Nat) :
    Keeps s (State.fioClearCh t c).1 := by
  unfold State.fioClearCh
  repeat' first
  | intro _
  | with_reducible assumption
  | fail_if_no_progress extract_lets +onlyGivenNames z
    first
    | (refine (have hz : Keeps s z := ?_; ?_))
      subst z
      rotate_left
      try clear_value z
    | try clear_value z
  | with_reducible
      first
      | apply State.put_keeps | apply keeps_ite | apply keeps_foldl
  | split

theorem State.fioClearGr_keeps {s t : State} (h : Keeps s t) (g : Nat) :
    Keeps s (State.fioClearGr t g).1 := by
  unfold State.fioClearGr
  repeat' first
  | intro _
  | with_reducible assumption
  | fail_if_no_progress extract_lets +onlyGivenNames z
    first
    | (refine (have hz : Keeps s z := ?_; ?_))
      subst z
      rotate_left
      try clear_value z
    | try clear_value z
  | with_reducible
      first
      | apply State.put_keeps | apply keeps_ite | apply keeps_foldl
  | split

theorem State.fioClear_keeps {s t : State} (h : Keeps s t) (cm : Nat) (gm : Nat) :
    Keeps s (State.fioClear t cm gm).1 := by
  unfold State.fioClear
  refine keeps_foldl_fst (fun r c hr => ?_) _ (keeps_foldl_fst (fun r g hr => ?_) _ h)
  · exact State.fioClearCh_keeps hr c
  · exact State.fioClearGr_keeps hr g

theorem State.fioClears_keeps {s t : State} (h : Keeps s t) :
    Keeps s (State.fioClears t) := by
  unfold State.fioClears
  repeat' first
  | intro _
  | with_reducible assumption
  | fail_if_no_progress extract_lets +onlyGivenNames z
    first
    | (refine (have hz : Keeps s z := ?_; ?_))
      subst z
      rotate_left
      try clear_value z
    | (refine (have hz : Keeps s z.1 := ?_; ?_))
      subst z
      rotate_left
      try clear_value z
    | (refine (have hz : Keeps s z.2 := ?_; ?_))
      subst z
      rotate_left
      try clear_value z
    | try clear_value z
  | with_reducible
      first
      | apply State.done_keeps | apply State.fioClear_keeps | apply State.each_keeps | apply keeps_ite
      | apply keeps_foldl
  | split

theorem State.waitStage_keeps {s t : State} (h : Keeps s t) (opc : Nat) (a : Nat) (b : Nat) :
    Keeps s (State.waitStage t opc a b) := by
  unfold State.waitStage
  repeat' first
  | intro _
  | with_reducible assumption
  | fail_if_no_progress extract_lets +onlyGivenNames z
    first
    | (refine (have hz : Keeps s z := ?_; ?_))
      subst z
      rotate_left
      try clear_value z
    | try clear_value z
  | with_reducible
      first
      | apply keeps_ite | apply keeps_foldl
  | split
  | with_reducible apply keeps_mk

theorem State.fioOutNow_keeps {s t : State} (h : Keeps s t) (mb : Nat) :
    Keeps s (State.fioOutNow t mb) := by
  unfold State.fioOutNow
  repeat' first
  | intro _
  | with_reducible assumption
  | fail_if_no_progress extract_lets +onlyGivenNames z
    first
    | (refine (have hz : Keeps s z := ?_; ?_))
      subst z
      rotate_left
      try clear_value z
    | try clear_value z
  | with_reducible
      first
      | apply State.put_keeps | apply keeps_ite | apply keeps_foldl
  | split

theorem State.fioOutsDue_keeps {s t : State} (h : Keeps s t) (n : Nat) :
    Keeps s (State.fioOutsDue t n) := by
  unfold State.fioOutsDue
  repeat' first
  | intro _
  | with_reducible assumption
  | fail_if_no_progress extract_lets +onlyGivenNames z
    first
    | (refine (have hz : Keeps s z := ?_; ?_))
      subst z
      rotate_left
      try clear_value z
    | try clear_value z
  | with_reducible
      first
      | apply State.fioOutNow_keeps | apply State.each_keeps | apply keeps_ite | apply keeps_foldl
  | split
  | with_reducible apply keeps_mk

theorem State.fioBoundary_keeps {s t : State} (h : Keeps s t) (n : Nat) :
    Keeps s (State.fioBoundary t n) := by
  unfold State.fioBoundary
  repeat' first
  | intro _
  | with_reducible assumption
  | fail_if_no_progress extract_lets +onlyGivenNames z
    first
    | (refine (have hz : Keeps s z := ?_; ?_))
      subst z
      rotate_left
      try clear_value z
    | try clear_value z
  | with_reducible
      first
      | apply State.brakeOut_keeps | apply State.done_keeps | apply State.each_keeps | apply State.fioStage_keeps
      | apply State.fioOutsDue_keeps | apply keeps_ite | apply keeps_foldl
  | split

theorem State.enterSilence_keeps {s t : State} (h : Keeps s t) :
    Keeps s (State.enterSilence t) := by
  unfold State.enterSilence
  repeat' first
  | intro _
  | with_reducible assumption
  | fail_if_no_progress extract_lets +onlyGivenNames z
    first
    | (refine (have hz : Keeps s z := ?_; ?_))
      subst z
      rotate_left
      try clear_value z
    | try clear_value z
  | with_reducible
      first
      | apply State.report_keeps | apply State.fioUpd_keeps | apply State.soFailAll_keeps | apply State.when_keeps
      | apply State.each_keeps | apply State.put_keeps | apply keeps_ite | apply keeps_foldl
  | split

theorem State.endSilence_keeps {s t : State} (h : Keeps s t) :
    Keeps s (State.endSilence t) := by
  unfold State.endSilence
  repeat' first
  | intro _
  | with_reducible assumption
  | fail_if_no_progress extract_lets +onlyGivenNames z
    first
    | (refine (have hz : Keeps s z := ?_; ?_))
      subst z
      rotate_left
      try clear_value z
    | try clear_value z
  | with_reducible
      first
      | apply State.each_keeps | apply State.when_keeps | apply State.put_keeps | apply keeps_ite | apply keeps_foldl
  | split

theorem State.refreshBad_keeps {s t : State} (h : Keeps s t) :
    Keeps s (State.refreshBad t) := by
  unfold State.refreshBad
  repeat' first
  | intro _
  | with_reducible assumption
  | fail_if_no_progress extract_lets +onlyGivenNames z
    first
    | (refine (have hz : Keeps s z := ?_; ?_))
      subst z
      rotate_left
      try clear_value z
    | try clear_value z
  | with_reducible
      first
      | apply State.incSat_keeps | apply State.report_keeps | apply State.put_keeps | apply State.soFailAll_keeps
      | apply keeps_ite | apply keeps_foldl
  | split

theorem State.refreshOk_keeps {s t : State} (h : Keeps s t) (safeOk : Bool) :
    Keeps s (State.refreshOk t safeOk) := by
  unfold State.refreshOk
  repeat' first
  | intro _
  | with_reducible assumption
  | fail_if_no_progress extract_lets +onlyGivenNames z
    first
    | (refine (have hz : Keeps s z := ?_; ?_))
      subst z
      rotate_left
      try clear_value z
    | try clear_value z
  | with_reducible
      first
      | apply State.fioUpd_keeps | apply State.soFailAll_keeps | apply State.soExec_keeps
      | apply State.endSilence_keeps | apply State.fioClears_keeps | apply State.doneAll_keeps
      | apply State.when_keeps | apply State.fioConfNow_keeps | apply State.put_keeps | apply keeps_ite
      | apply keeps_foldl
  | split

theorem State.groupUv_keeps {s t : State} (h : Keeps s t) (g : Nat) :
    Keeps s (State.groupUv t g) := by
  unfold State.groupUv
  repeat' first
  | intro _
  | with_reducible assumption
  | fail_if_no_progress extract_lets +onlyGivenNames z
    first
    | (refine (have hz : Keeps s z := ?_; ?_))
      subst z
      rotate_left
      try clear_value z
    | try clear_value z
  | with_reducible
      first
      | apply State.report_keeps | apply State.fioUpd_keeps | apply State.fioView_keeps | apply State.soFailAll_keeps
      | apply State.filtZero_keeps | apply State.clearBit_keeps | apply State.orBit_keeps | apply State.when_keeps
      | apply State.each_keeps | apply State.incSat_keeps | apply State.put_keeps | apply keeps_ite
      | apply keeps_foldl
  | split

theorem State.groupBack_keeps {s t : State} (h : Keeps s t) (g : Nat) :
    Keeps s (State.groupBack t g) := by
  unfold State.groupBack
  repeat' first
  | intro _
  | with_reducible assumption
  | fail_if_no_progress extract_lets +onlyGivenNames z
    first
    | (refine (have hz : Keeps s z := ?_; ?_))
      subst z
      rotate_left
      try clear_value z
    | try clear_value z
  | with_reducible
      first
      | apply State.fioUpd_keeps | apply State.fioView_keeps | apply State.when_keeps | apply State.each_keeps
      | apply State.put_keeps | apply keeps_ite | apply keeps_foldl
  | split

theorem State.dieReset_keeps {s t : State} (h : Keeps s t) :
    Keeps s (State.dieReset t) := by
  unfold State.dieReset
  repeat' first
  | intro _
  | with_reducible assumption
  | fail_if_no_progress extract_lets +onlyGivenNames z
    first
    | (refine (have hz : Keeps s z := ?_; ?_))
      subst z
      rotate_left
      try clear_value z
    | try clear_value z
  | with_reducible
      first
      | apply State.soLost_keeps | apply State.fioUpd_keeps | apply State.fioView_keeps
      | apply State.filtRestart_keeps | apply State.each_keeps | apply State.put_keeps | apply keeps_ite
      | apply keeps_foldl
  | split

theorem State.sampleInput_keeps {s t : State} (h : Keeps s t) (c : Nat) (raw : Bool) (ua : Nat) :
    Keeps s (State.sampleInput t c raw ua) := by
  unfold State.sampleInput
  repeat' first
  | intro _
  | with_reducible assumption
  | fail_if_no_progress extract_lets +onlyGivenNames z
    first
    | (refine (have hz : Keeps s z := ?_; ?_))
      subst z
      rotate_left
      try clear_value z
    | try clear_value z
  | with_reducible
      first
      | apply State.incSat_keeps | apply State.put_keeps | apply State.when_keeps | apply keeps_ite
      | apply keeps_foldl
  | split

theorem State.sampleOutput_keeps {s t : State} (h : Keeps s t) (c : Nat) (hi : Bool) :
    Keeps s (State.sampleOutput t c hi) := by
  unfold State.sampleOutput
  repeat' first
  | intro _
  | with_reducible assumption
  | fail_if_no_progress extract_lets +onlyGivenNames z
    first
    | (refine (have hz : Keeps s z := ?_; ?_))
      subst z
      rotate_left
      try clear_value z
    | try clear_value z
  | with_reducible
      first
      | apply State.clearBit_keeps | apply State.orBit_keeps | apply State.incSat_keeps | apply State.put_keeps
      | apply keeps_ite | apply keeps_foldl
  | split

theorem State.sampleGroup_keeps {s t : State} (h : Keeps s t) (g : Nat) (v : Nat) (tot : Nat) :
    Keeps s (State.sampleGroup t g v tot) := by
  unfold State.sampleGroup
  repeat' first
  | intro _
  | with_reducible assumption
  | fail_if_no_progress extract_lets +onlyGivenNames z
    first
    | (refine (have hz : Keeps s z := ?_; ?_))
      subst z
      rotate_left
      try clear_value z
    | try clear_value z
  | with_reducible
      first
      | apply State.incSat_keeps | apply State.put_keeps | apply keeps_ite | apply keeps_foldl
  | split

theorem State.tickDown_keeps {s t : State} (h : Keeps s t) (f : Fld) (i : Nat) :
    Keeps s (State.tickDown t f i) := by
  unfold State.tickDown
  repeat' first
  | intro _
  | with_reducible assumption
  | fail_if_no_progress extract_lets +onlyGivenNames z
    first
    | (refine (have hz : Keeps s z := ?_; ?_))
      subst z
      rotate_left
      try clear_value z
    | try clear_value z
  | with_reducible
      first
      | apply State.put_keeps | apply keeps_ite | apply keeps_foldl
  | split

theorem State.dieSample_keeps {s t : State} (h : Keeps s t) (x : Samples) :
    Keeps s (State.dieSample t x) := by
  unfold State.dieSample
  repeat' first
  | intro _
  | with_reducible assumption
  | fail_if_no_progress extract_lets +onlyGivenNames z
    first
    | (refine (have hz : Keeps s z := ?_; ?_))
      subst z
      rotate_left
      try clear_value z
    | try clear_value z
  | with_reducible
      first
      | apply State.sampleInput_keeps | apply State.sampleOutput_keeps | apply State.sampleGroup_keeps
      | apply State.tickDown_keeps | apply State.each_keeps | apply State.put_keeps | apply keeps_ite
      | apply keeps_foldl
  | split

theorem State.returnLost_keeps {s t : State} (h : Keeps s t) :
    Keeps s (State.returnLost t) := by
  unfold State.returnLost
  repeat' first
  | intro _
  | with_reducible assumption
  | fail_if_no_progress extract_lets +onlyGivenNames z
    first
    | (refine (have hz : Keeps s z := ?_; ?_))
      subst z
      rotate_left
      try clear_value z
    | try clear_value z
  | with_reducible
      first
      | apply State.dieSample_keeps | apply State.put_keeps | apply State.incSat_keeps | apply keeps_ite
      | apply keeps_foldl
  | split

theorem State.showReturn_keeps {s t : State} (h : Keeps s t) (x : Samples) :
    Keeps s (State.showReturn t x) := by
  unfold State.showReturn
  repeat' first
  | intro _
  | with_reducible assumption
  | fail_if_no_progress extract_lets +onlyGivenNames z
    first
    | (refine (have hz : Keeps s z := ?_; ?_))
      subst z
      rotate_left
      try clear_value z
    | try clear_value z
  | with_reducible
      first
      | apply State.clearBit_keeps | apply State.orBit_keeps | apply State.put_keeps | apply State.each_keeps
      | apply keeps_ite | apply keeps_foldl
  | split

theorem State.landReturn_keeps {s t : State} (h : Keeps s t) (x : Samples) :
    Keeps s (State.landReturn t x) := by
  unfold State.landReturn
  repeat' first
  | intro _
  | with_reducible assumption
  | fail_if_no_progress extract_lets +onlyGivenNames z
    first
    | (refine (have hz : Keeps s z := ?_; ?_))
      subst z
      rotate_left
      try clear_value z
    | try clear_value z
  | with_reducible
      first
      | apply State.showReturn_keeps | apply State.dieSample_keeps | apply State.fioView_keeps | apply State.put_keeps
      | apply keeps_ite | apply keeps_foldl
  | split

theorem State.tpEnds_keeps {s t : State} (h : Keeps s t) (y1 : Nat) :
    Keeps s (State.tpEnds t y1) := by
  unfold State.tpEnds
  repeat' first
  | intro _
  | with_reducible assumption
  | fail_if_no_progress extract_lets +onlyGivenNames z
    first
    | (refine (have hz : Keeps s z := ?_; ?_))
      subst z
      rotate_left
      try clear_value z
    | try clear_value z
  | with_reducible
      first
      | apply State.clearBit_keeps | apply State.when_keeps | apply State.each_keeps | apply keeps_ite
      | apply keeps_foldl
  | split

theorem State.fioRestart_keeps {s t : State} (h : Keeps s t) :
    Keeps s (State.fioRestart t) := by
  unfold State.fioRestart
  repeat' first
  | intro _
  | with_reducible assumption
  | fail_if_no_progress extract_lets +onlyGivenNames z
    first
    | (refine (have hz : Keeps s z := ?_; ?_))
      subst z
      rotate_left
      try clear_value z
    | try clear_value z
  | with_reducible
      first
      | apply State.fioView_keeps | apply State.put_keeps | apply State.clearBit_keeps | apply State.resetFld_keeps
      | apply State.each_keeps | apply keeps_ite | apply keeps_foldl
  | split

theorem execTick_keeps {s t : State} (h : Keeps s t) (y0 : Nat) :
    KeepsOut s (execTick y0 t) := by
  unfold execTick
  repeat' first
  | intro _
  | with_reducible assumption
  | fail_if_no_progress extract_lets +onlyGivenNames z
    first
    | (refine (have hz : Keeps s z := ?_; ?_))
      subst z
      rotate_left
      try clear_value z
    | try clear_value z
  | with_reducible
      first
      | apply keepsOut_next | apply State.fioUpd_keeps | apply State.each_keeps | apply State.waitStage_keeps
      | apply State.fioStage_keeps | apply State.clockTo_keeps | apply State.put_keeps | apply State.tpEnds_keeps
      | apply State.brakeOut_keeps | apply State.returnLost_keeps | apply State.when_keeps | apply keeps_ite
      | apply keeps_foldl
  | split

theorem execRefresh_keeps {s t : State} (h : Keeps s t) (valid : Bool) (safeOk : Bool) :
    KeepsOut s (execRefresh valid safeOk t) := by
  unfold execRefresh
  repeat' first
  | intro _
  | with_reducible assumption
  | fail_if_no_progress extract_lets +onlyGivenNames z
    first
    | (refine (have hz : Keeps s z := ?_; ?_))
      subst z
      rotate_left
      try clear_value z
    | try clear_value z
  | with_reducible
      first
      | apply keepsOut_next | apply State.refreshOk_keeps | apply State.refreshBad_keeps | apply State.fioUpd_keeps
      | apply State.put_keeps | apply State.soFailAll_keeps | apply State.clockTo_keeps | apply keeps_ite
      | apply keeps_foldl
  | split

theorem execReturnLanding_keeps {s t : State} (h : Keeps s t) (valid : Bool) (safeOk : Bool) (raw : Nat) (rb : Nat)
    (cur : List Nat) (vfg : List Nat) :
    KeepsOut s (execReturnLanding valid safeOk raw rb cur vfg t) := by
  unfold execReturnLanding
  repeat' first
  | intro _
  | with_reducible assumption
  | fail_if_no_progress extract_lets +onlyGivenNames z
    first
    | (refine (have hz : Keeps s z := ?_; ?_))
      subst z
      rotate_left
      try clear_value z
    | try clear_value z
  | with_reducible
      first
      | apply keepsOut_next | apply State.landReturn_keeps | apply State.dieSample_keeps | apply State.incSat_keeps
      | apply State.put_keeps | apply keeps_ite | apply keeps_foldl
  | split

theorem execSilence_keeps {s t : State} (h : Keeps s t) :
    KeepsOut s (execSilence t) := by
  unfold execSilence
  repeat' first
  | intro _
  | with_reducible assumption
  | fail_if_no_progress extract_lets +onlyGivenNames z
    first
    | (refine (have hz : Keeps s z := ?_; ?_))
      subst z
      rotate_left
      try clear_value z
    | try clear_value z
  | with_reducible
      first
      | apply keepsOut_next | apply State.enterSilence_keeps | apply keeps_ite | apply keeps_foldl
  | split

theorem execFieldLinkLoss_keeps {s t : State} (h : Keeps s t) :
    KeepsOut s (execFieldLinkLoss t) := by
  unfold execFieldLinkLoss
  repeat' first
  | intro _
  | with_reducible assumption
  | fail_if_no_progress extract_lets +onlyGivenNames z
    first
    | (refine (have hz : Keeps s z := ?_; ?_))
      subst z
      rotate_left
      try clear_value z
    | try clear_value z
  | with_reducible
      first
      | apply keepsOut_next | apply State.put_keeps | apply State.fioView_keeps | apply State.report_keeps
      | apply keeps_ite | apply keeps_foldl
  | split

theorem execFieldDieStart_keeps {s t : State} (h : Keeps s t) :
    KeepsOut s (execFieldDieStart t) := by
  unfold execFieldDieStart
  repeat' first
  | intro _
  | with_reducible assumption
  | fail_if_no_progress extract_lets +onlyGivenNames z
    first
    | (refine (have hz : Keeps s z := ?_; ?_))
      subst z
      rotate_left
      try clear_value z
    | try clear_value z
  | with_reducible
      first
      | apply keepsOut_next | apply State.put_keeps | apply State.dieReset_keeps | apply keeps_ite | apply keeps_foldl
  | split

theorem execFieldDieStop_keeps {s t : State} (h : Keeps s t) :
    KeepsOut s (execFieldDieStop t) := by
  unfold execFieldDieStop
  repeat' first
  | intro _
  | with_reducible assumption
  | fail_if_no_progress extract_lets +onlyGivenNames z
    first
    | (refine (have hz : Keeps s z := ?_; ?_))
      subst z
      rotate_left
      try clear_value z
    | try clear_value z
  | with_reducible
      first
      | apply keepsOut_next | apply State.put_keeps | apply State.dieReset_keeps | apply keeps_ite | apply keeps_foldl
  | split

theorem execFilterOutputChange_keeps {s t : State} (h : Keeps s t) (c : Nat) :
    KeepsOut s (execFilterOutputChange c t) := by
  unfold execFilterOutputChange
  repeat' first
  | intro _
  | with_reducible assumption
  | fail_if_no_progress extract_lets +onlyGivenNames z
    first
    | (refine (have hz : Keeps s z := ?_; ?_))
      subst z
      rotate_left
      try clear_value z
    | try clear_value z
  | with_reducible
      first
      | apply keepsOut_next | apply State.clearBit_keeps | apply State.orBit_keeps | apply State.incSat_keeps
      | apply State.fioView_keeps | apply keeps_ite | apply keeps_foldl
  | split

theorem execDebounceAccept_keeps {s t : State} (h : Keeps s t) (c : Nat) (y1 : Nat) (frac : Nat) (lvl : Bool) :
    KeepsOut s (execDebounceAccept c y1 frac lvl t) := by
  unfold execDebounceAccept
  repeat' first
  | intro _
  | with_reducible assumption
  | fail_if_no_progress extract_lets +onlyGivenNames z
    first
    | (refine (have hz : Keeps s z := ?_; ?_))
      subst z
      rotate_left
      try clear_value z
    | try clear_value z
  | with_reducible
      first
      | apply keepsOut_next | apply State.fioView_keeps | apply State.each_keeps | apply State.put_keeps
      | apply State.clearBit_keeps | apply State.orBit_keeps | apply State.incSat_keeps | apply State.clockTo_keeps
      | apply keeps_ite | apply keeps_foldl
  | split

theorem execWireBreak_keeps {s t : State} (h : Keeps s t) (c : Nat) :
    KeepsOut s (execWireBreak c t) := by
  unfold execWireBreak
  repeat' first
  | intro _
  | with_reducible assumption
  | fail_if_no_progress extract_lets +onlyGivenNames z
    first
    | (refine (have hz : Keeps s z := ?_; ?_))
      subst z
      rotate_left
      try clear_value z
    | try clear_value z
  | with_reducible
      first
      | apply keepsOut_next | apply State.put_keeps | apply State.fioView_keeps | apply State.report_keeps
      | apply keeps_ite | apply keeps_foldl
  | split

theorem execWireBreakClear_keeps {s t : State} (h : Keeps s t) (c : Nat) :
    KeepsOut s (execWireBreakClear c t) := by
  unfold execWireBreakClear
  repeat' first
  | intro _
  | with_reducible assumption
  | fail_if_no_progress extract_lets +onlyGivenNames z
    first
    | (refine (have hz : Keeps s z := ?_; ?_))
      subst z
      rotate_left
      try clear_value z
    | try clear_value z
  | with_reducible
      first
      | apply keepsOut_next | apply State.put_keeps | apply State.fioView_keeps | apply keeps_ite | apply keeps_foldl
  | split

theorem execThresholdTrim_keeps {s t : State} (h : Keeps s t) (c : Nat) (ok : Bool) :
    KeepsOut s (execThresholdTrim c ok t) := by
  unfold execThresholdTrim
  repeat' first
  | intro _
  | with_reducible assumption
  | fail_if_no_progress extract_lets +onlyGivenNames z
    first
    | (refine (have hz : Keeps s z := ?_; ?_))
      subst z
      rotate_left
      try clear_value z
    | try clear_value z
  | with_reducible
      first
      | apply keepsOut_next | apply State.report_keeps | apply State.put_keeps | apply keeps_ite | apply keeps_foldl
  | split

theorem execExternalDrive_keeps {s t : State} (h : Keeps s t) (c : Nat) :
    KeepsOut s (execExternalDrive c t) := by
  unfold execExternalDrive
  repeat' first
  | intro _
  | with_reducible assumption
  | fail_if_no_progress extract_lets +onlyGivenNames z
    first
    | (refine (have hz : Keeps s z := ?_; ?_))
      subst z
      rotate_left
      try clear_value z
    | try clear_value z
  | with_reducible
      first
      | apply keepsOut_next | apply State.put_keeps | apply State.report_keeps | apply keeps_ite | apply keeps_foldl
  | split

theorem execExternalDriveClear_keeps {s t : State} (h : Keeps s t) (c : Nat) :
    KeepsOut s (execExternalDriveClear c t) := by
  unfold execExternalDriveClear
  repeat' first
  | intro _
  | with_reducible assumption
  | fail_if_no_progress extract_lets +onlyGivenNames z
    first
    | (refine (have hz : Keeps s z := ?_; ?_))
      subst z
      rotate_left
      try clear_value z
    | try clear_value z
  | with_reducible
      first
      | apply keepsOut_next | apply State.put_keeps | apply keeps_ite | apply keeps_foldl
  | split

theorem execOutputTestPulse_keeps {s t : State} (h : Keeps s t) (c : Nat) (last : Bool) (rbHigh : Bool) :
    KeepsOut s (execOutputTestPulse c last rbHigh t) := by
  unfold execOutputTestPulse
  repeat' first
  | intro _
  | with_reducible assumption
  | fail_if_no_progress extract_lets +onlyGivenNames z
    first
    | (refine (have hz : Keeps s z := ?_; ?_))
      subst z
      rotate_left
      try clear_value z
    | try clear_value z
  | with_reducible
      first
      | apply keepsOut_next | apply State.report_keeps | apply State.orBit_keeps | apply State.clearBit_keeps
      | apply State.put_keeps | apply State.fioUpd_keeps | apply keeps_ite | apply keeps_foldl
  | split

theorem execCurrentLimit_keeps {s t : State} (h : Keeps s t) (c : Nat) (limiting : Bool) :
    KeepsOut s (execCurrentLimit c limiting t) := by
  unfold execCurrentLimit
  repeat' first
  | intro _
  | with_reducible assumption
  | fail_if_no_progress extract_lets +onlyGivenNames z
    first
    | (refine (have hz : Keeps s z := ?_; ?_))
      subst z
      rotate_left
      try clear_value z
    | try clear_value z
  | with_reducible
      first
      | apply keepsOut_next | apply State.put_keeps | apply State.when_keeps | apply keeps_ite | apply keeps_foldl
  | split

theorem State.soTrip_keeps {s t : State} (h : Keeps s t) (c : Nat) :
    Keeps s (State.soTrip t c) := by
  unfold State.soTrip
  repeat' first
  | intro _
  | with_reducible assumption
  | fail_if_no_progress extract_lets +onlyGivenNames z
    first
    | (refine (have hz : Keeps s z := ?_; ?_))
      subst z
      rotate_left
      try clear_value z
    | try clear_value z
  | with_reducible
      first
      | apply State.put_keeps | apply State.when_keeps | apply keeps_ite | apply keeps_foldl
  | split

theorem execThermalShutdown_keeps {s t : State} (h : Keeps s t) (c : Nat) :
    KeepsOut s (execThermalShutdown c t) := by
  unfold execThermalShutdown
  repeat' first
  | intro _
  | with_reducible assumption
  | fail_if_no_progress extract_lets +onlyGivenNames z
    first
    | (refine (have hz : Keeps s z := ?_; ?_))
      subst z
      rotate_left
      try clear_value z
    | try clear_value z
  | with_reducible
      first
      | apply keepsOut_next | apply State.soTrip_keeps | apply State.fioUpd_keeps | apply State.incSat_keeps
      | apply State.evAdd_keeps | apply State.orBit_keeps | apply State.put_keeps | apply keeps_ite
      | apply keeps_foldl
  | split

theorem execThermalRestart_keeps {s t : State} (h : Keeps s t) (c : Nat) :
    KeepsOut s (execThermalRestart c t) := by
  unfold execThermalRestart
  repeat' first
  | intro _
  | with_reducible assumption
  | fail_if_no_progress extract_lets +onlyGivenNames z
    first
    | (refine (have hz : Keeps s z := ?_; ?_))
      subst z
      rotate_left
      try clear_value z
    | try clear_value z
  | with_reducible
      first
      | apply keepsOut_next | apply State.put_keeps | apply State.fioUpd_keeps | apply State.clearBit_keeps
      | apply keeps_ite | apply keeps_foldl
  | split

theorem execGroupOvercurrent_keeps {s t : State} (h : Keeps s t) (g : Nat) :
    KeepsOut s (execGroupOvercurrent g t) := by
  unfold execGroupOvercurrent
  repeat' first
  | intro _
  | with_reducible assumption
  | fail_if_no_progress extract_lets +onlyGivenNames z
    first
    | (refine (have hz : Keeps s z := ?_; ?_))
      subst z
      rotate_left
      try clear_value z
    | try clear_value z
  | with_reducible
      first
      | apply keepsOut_next | apply State.soFailAll_keeps | apply State.put_keeps | apply State.when_keeps
      | apply State.fioUpd_keeps | apply keeps_ite | apply keeps_foldl
  | split

theorem execSupplyWarning_keeps {s t : State} (h : Keeps s t) (g : Nat) :
    KeepsOut s (execSupplyWarning g t) := by
  unfold execSupplyWarning
  repeat' first
  | intro _
  | with_reducible assumption
  | fail_if_no_progress extract_lets +onlyGivenNames z
    first
    | (refine (have hz : Keeps s z := ?_; ?_))
      subst z
      rotate_left
      try clear_value z
    | try clear_value z
  | with_reducible
      first
      | apply keepsOut_next | apply State.put_keeps | apply State.evAdd_keeps | apply keeps_ite | apply keeps_foldl
  | split

theorem execSupplyWarningClear_keeps {s t : State} (h : Keeps s t) (g : Nat) :
    KeepsOut s (execSupplyWarningClear g t) := by
  unfold execSupplyWarningClear
  repeat' first
  | intro _
  | with_reducible assumption
  | fail_if_no_progress extract_lets +onlyGivenNames z
    first
    | (refine (have hz : Keeps s z := ?_; ?_))
      subst z
      rotate_left
      try clear_value z
    | try clear_value z
  | with_reducible
      first
      | apply keepsOut_next | apply State.put_keeps | apply keeps_ite | apply keeps_foldl
  | split

theorem execUndervoltage_keeps {s t : State} (h : Keeps s t) (g : Nat) :
    KeepsOut s (execUndervoltage g t) := by
  unfold execUndervoltage
  repeat' first
  | intro _
  | with_reducible assumption
  | fail_if_no_progress extract_lets +onlyGivenNames z
    first
    | (refine (have hz : Keeps s z := ?_; ?_))
      subst z
      rotate_left
      try clear_value z
    | try clear_value z
  | with_reducible
      first
      | apply keepsOut_next | apply State.groupUv_keeps | apply keeps_ite | apply keeps_foldl
  | split

theorem execUndervoltageRecovery_keeps {s t : State} (h : Keeps s t) (g : Nat) :
    KeepsOut s (execUndervoltageRecovery g t) := by
  unfold execUndervoltageRecovery
  repeat' first
  | intro _
  | with_reducible assumption
  | fail_if_no_progress extract_lets +onlyGivenNames z
    first
    | (refine (have hz : Keeps s z := ?_; ?_))
      subst z
      rotate_left
      try clear_value z
    | try clear_value z
  | with_reducible
      first
      | apply keepsOut_next | apply State.groupBack_keeps | apply keeps_ite | apply keeps_foldl
  | split

theorem execFioOutSet_keeps {s t : State} (h : Keeps s t) (mask : Nat) :
    KeepsOut s (execFioOutSet mask t) := by
  unfold execFioOutSet
  repeat' first
  | intro _
  | with_reducible assumption
  | fail_if_no_progress extract_lets +onlyGivenNames z
    first
    | (refine (have hz : Keeps s z := ?_; ?_))
      subst z
      rotate_left
      try clear_value z
    | try clear_value z
  | with_reducible
      first
      | apply keepsOut_next | apply State.fioOutW_keeps | apply State.hostWord_keeps | apply keeps_ite
      | apply keeps_foldl
  | split

theorem execFioOutClr_keeps {s t : State} (h : Keeps s t) (mask : Nat) :
    KeepsOut s (execFioOutClr mask t) := by
  unfold execFioOutClr
  repeat' first
  | intro _
  | with_reducible assumption
  | fail_if_no_progress extract_lets +onlyGivenNames z
    first
    | (refine (have hz : Keeps s z := ?_; ?_))
      subst z
      rotate_left
      try clear_value z
    | try clear_value z
  | with_reducible
      first
      | apply keepsOut_next | apply State.fioOutW_keeps | apply State.hostWord_keeps | apply keeps_ite
      | apply keeps_foldl
  | split

theorem execFioConfig_keeps {s t : State} (h : Keeps s t) (mb : Nat) :
    KeepsOut s (execFioConfig mb t) := by
  unfold execFioConfig
  repeat' first
  | intro _
  | with_reducible assumption
  | fail_if_no_progress extract_lets +onlyGivenNames z
    first
    | (refine (have hz : Keeps s z := ?_; ?_))
      subst z
      rotate_left
      try clear_value z
    | try clear_value z
  | with_reducible
      first
      | apply keepsOut_next | apply State.wait_keeps | apply State.dirty_keeps | apply State.confWrote_keeps
      | apply State.put_keeps | apply State.each_keeps | apply State.fail_keeps | apply State.request_keeps
      | apply keeps_ite | apply keeps_foldl
  | split

theorem execFioOut_keeps {s t : State} (h : Keeps s t) (mb : Nat) :
    KeepsOut s (execFioOut mb t) := by
  unfold execFioOut
  repeat' first
  | intro _
  | with_reducible assumption
  | fail_if_no_progress extract_lets +onlyGivenNames z
    first
    | (refine (have hz : Keeps s z := ?_; ?_))
      subst z
      rotate_left
      try clear_value z
    | try clear_value z
  | with_reducible
      first
      | apply keepsOut_next | apply State.wait_keeps | apply State.fioOutNow_keeps | apply State.done_keeps
      | apply State.fail_keeps | apply State.request_keeps | apply keeps_ite | apply keeps_foldl
  | split

theorem execFioClear_keeps {s t : State} (h : Keeps s t) (mb : Nat) :
    KeepsOut s (execFioClear mb t) := by
  unfold execFioClear
  repeat' first
  | intro _
  | with_reducible assumption
  | fail_if_no_progress extract_lets +onlyGivenNames z
    first
    | (refine (have hz : Keeps s z := ?_; ?_))
      subst z
      rotate_left
      try clear_value z
    | try clear_value z
  | with_reducible
      first
      | apply keepsOut_next | apply State.wait_keeps | apply State.fail_keeps | apply State.request_keeps
      | apply keeps_ite | apply keeps_foldl
  | split

end Sys2Proof.Machine
end

