-- ==== Sys2Proof/Laws/KeepsSafe.lean ====
section
/-! SUPPORT. What the operations of the safety core and the pair keep: each keeps the queue and the invariant. -/

set_option linter.unusedTactic false
set_option linter.unreachableTactic false
set_option linter.tactic.unusedName false

namespace Sys2Proof.Machine

theorem State.connFault_keeps {s t : State} (h : Keeps s t) (c : Nat) (err : Nat) :
    Keeps s (State.connFault t c err) := by
  unfold State.connFault
  repeat' first
  | intro _
  | with_reducible assumption
  | fail_if_no_progress extract_lets +onlyGivenNames z
    first
    | (refine (have hz : Keeps s z := ?_; ?_))
      subst z
      rotate_left
      try clear_value z
    | try clear_value z
  | with_reducible
      first
      | apply State.incSat_keeps | apply State.report_keeps | apply State.safEvt_keeps | apply State.put_keeps
      | apply keeps_ite | apply keeps_foldl
  | split

theorem State.connStart_keeps {s t : State} (h : Keeps s t) (c : Nat) :
    Keeps s (State.connStart t c) := by
  unfold State.connStart
  repeat' first
  | intro _
  | with_reducible assumption
  | fail_if_no_progress extract_lets +onlyGivenNames z
    first
    | (refine (have hz : Keeps s z := ?_; ?_))
      subst z
      rotate_left
      try clear_value z
    | try clear_value z
  | with_reducible
      first
      | apply State.put_keeps | apply keeps_ite | apply keeps_foldl
  | split

theorem State.connTake_keeps {s t : State} (h : Keeps s t) (c : Nat) (bs : List Nat) :
    Keeps s (State.connTake t c bs) := by
  unfold State.connTake
  repeat' first
  | intro _
  | with_reducible assumption
  | fail_if_no_progress extract_lets +onlyGivenNames z
    first
    | (refine (have hz : Keeps s z := ?_; ?_))
      subst z
      rotate_left
      try clear_value z
    | try clear_value z
  | with_reducible
      first
      | apply State.put_keeps | apply keeps_ite | apply keeps_foldl
  | split

theorem State.landStart_keeps {s t : State} (h : Keeps s t) (c : Nat) (bs : List Nat) :
    Keeps s (State.landStart t c bs) := by
  unfold State.landStart
  repeat' first
  | intro _
  | with_reducible assumption
  | fail_if_no_progress extract_lets +onlyGivenNames z
    first
    | (refine (have hz : Keeps s z := ?_; ?_))
      subst z
      rotate_left
      try clear_value z
    | try clear_value z
  | with_reducible
      first
      | apply State.put_keeps | apply State.connTake_keeps | apply State.incSat_keeps | apply keeps_ite
      | apply keeps_foldl
  | split

theorem State.landRun_keeps {s t : State} (h : Keeps s t) (c : Nat) (bs : List Nat) :
    Keeps s (State.landRun t c bs) := by
  unfold State.landRun
  repeat' first
  | intro _
  | with_reducible assumption
  | fail_if_no_progress extract_lets +onlyGivenNames z
    first
    | (refine (have hz : Keeps s z := ?_; ?_))
      subst z
      rotate_left
      try clear_value z
    | try clear_value z
  | with_reducible
      first
      | apply State.connTake_keeps | apply State.incSat_keeps | apply State.connFault_keeps | apply keeps_ite
      | apply keeps_foldl
  | split

theorem State.landCont_keeps {s t : State} (h : Keeps s t) (c : Nat) (bs : List Nat) :
    Keeps s (State.landCont t c bs) := by
  unfold State.landCont
  repeat' first
  | intro _
  | with_reducible assumption
  | fail_if_no_progress extract_lets +onlyGivenNames z
    first
    | (refine (have hz : Keeps s z := ?_; ?_))
      subst z
      rotate_left
      try clear_value z
    | try clear_value z
  | with_reducible
      first
      | apply State.landRun_keeps | apply State.landStart_keeps | apply State.setBytes_keeps | apply State.put_keeps
      | apply State.when_keeps | apply keeps_ite | apply keeps_foldl
  | split

theorem State.produce_keeps {s t : State} (h : Keeps s t) :
    Keeps s (State.produce t) := by
  unfold State.produce
  repeat' first
  | intro _
  | with_reducible assumption
  | fail_if_no_progress extract_lets +onlyGivenNames z
    first
    | (refine (have hz : Keeps s z := ?_; ?_))
      subst z
      rotate_left
      try clear_value z
    | try clear_value z
  | with_reducible
      first
      | apply State.put_keeps | apply State.each_keeps | apply keeps_ite | apply keeps_foldl
  | split

theorem State.cutCont_keeps {s t : State} (h : Keeps s t) (r : Nat) (i : Nat) :
    Keeps s (State.cutCont t r i) := by
  unfold State.cutCont
  repeat' first
  | intro _
  | with_reducible assumption
  | fail_if_no_progress extract_lets +onlyGivenNames z
    first
    | (refine (have hz : Keeps s z := ?_; ?_))
      subst z
      rotate_left
      try clear_value z
    | try clear_value z
  | with_reducible
      first
      | apply State.put_keeps | apply State.when_keeps | apply State.setBytes_keeps | apply keeps_ite
      | apply keeps_foldl
  | split

theorem State.soDrive_keeps {s t : State} (h : Keeps s t) (k : Nat) :
    Keeps s (State.soDrive t k) := by
  unfold State.soDrive
  repeat' first
  | intro _
  | with_reducible assumption
  | fail_if_no_progress extract_lets +onlyGivenNames z
    first
    | (refine (have hz : Keeps s z := ?_; ?_))
      subst z
      rotate_left
      try clear_value z
    | try clear_value z
  | with_reducible
      first
      | apply State.put_keeps | apply State.when_keeps | apply keeps_ite | apply keeps_foldl
  | split

theorem State.soProve_keeps {s t : State} (h : Keeps s t) (k : Nat) (blocked : Bool) :
    Keeps s (State.soProve t k blocked) := by
  unfold State.soProve
  repeat' first
  | intro _
  | with_reducible assumption
  | fail_if_no_progress extract_lets +onlyGivenNames z
    first
    | (refine (have hz : Keeps s z := ?_; ?_))
      subst z
      rotate_left
      try clear_value z
    | try clear_value z
  | with_reducible
      first
      | apply State.put_keeps | apply State.soDrive_keeps | apply keeps_ite | apply keeps_foldl
  | split

theorem State.soOff_keeps {s t : State} (h : Keeps s t) (k : Nat) :
    Keeps s (State.soOff t k) := by
  unfold State.soOff
  repeat' first
  | intro _
  | with_reducible assumption
  | fail_if_no_progress extract_lets +onlyGivenNames z
    first
    | (refine (have hz : Keeps s z := ?_; ?_))
      subst z
      rotate_left
      try clear_value z
    | try clear_value z
  | with_reducible
      first
      | apply State.soDrive_keeps | apply State.soProofOff_keeps | apply State.put_keeps | apply State.when_keeps
      | apply keeps_ite | apply keeps_foldl
  | split

theorem State.soOn_keeps {s t : State} (h : Keeps s t) (k : Nat) :
    Keeps s (State.soOn t k) := by
  unfold State.soOn
  repeat' first
  | intro _
  | with_reducible assumption
  | fail_if_no_progress extract_lets +onlyGivenNames z
    first
    | (refine (have hz : Keeps s z := ?_; ?_))
      subst z
      rotate_left
      try clear_value z
    | try clear_value z
  | with_reducible
      first
      | apply State.soProve_keeps | apply State.soDrive_keeps | apply State.put_keeps | apply keeps_ite
      | apply keeps_foldl
  | split

theorem State.proofDue_keeps {s t : State} (h : Keeps s t) :
    Keeps s (State.proofDue t) := by
  unfold State.proofDue
  repeat' first
  | intro _
  | with_reducible assumption
  | fail_if_no_progress extract_lets +onlyGivenNames z
    first
    | (refine (have hz : Keeps s z := ?_; ?_))
      subst z
      rotate_left
      try clear_value z
    | try clear_value z
  | with_reducible
      first
      | apply State.put_keeps | apply State.safEvt_keeps | apply keeps_ite | apply keeps_foldl
  | split

theorem State.soStep_keeps {s t : State} (h : Keeps s t) (k : Nat) (rb : Bool) (se : Bool) :
    Keeps s (State.soStep t k rb se) := by
  unfold State.soStep
  repeat' first
  | intro _
  | with_reducible assumption
  | fail_if_no_progress extract_lets +onlyGivenNames z
    first
    | (refine (have hz : Keeps s z := ?_; ?_))
      subst z
      rotate_left
      try clear_value z
    | try clear_value z
  | with_reducible
      first
      | apply State.soTested_keeps | apply State.soDrive_keeps | apply State.soFail_keeps | apply State.put_keeps
      | apply State.when_keeps | apply keeps_ite | apply keeps_foldl
  | split

theorem State.sgPost_keeps {s t : State} (h : Keeps s t) (g : Nat) (react : Nat) :
    Keeps s (State.sgPost t g react) := by
  unfold State.sgPost
  repeat' first
  | intro _
  | with_reducible assumption
  | fail_if_no_progress extract_lets +onlyGivenNames z
    first
    | (refine (have hz : Keeps s z := ?_; ?_))
      subst z
      rotate_left
      try clear_value z
    | try clear_value z
  | with_reducible
      first
      | apply State.post_keeps | apply State.each_keeps | apply keeps_ite | apply keeps_foldl
  | split

theorem State.sgSto_keeps {s t : State} (h : Keeps s t) (g : Nat) :
    Keeps s (State.sgSto t g) := by
  unfold State.sgSto
  repeat' first
  | intro _
  | with_reducible assumption
  | fail_if_no_progress extract_lets +onlyGivenNames z
    first
    | (refine (have hz : Keeps s z := ?_; ?_))
      subst z
      rotate_left
      try clear_value z
    | try clear_value z
  | with_reducible
      first
      | apply State.sgPost_keeps | apply State.gatesOff_keeps | apply State.each_keeps | apply State.orBit_keeps
      | apply keeps_ite | apply keeps_foldl
  | split

theorem State.sgLeave_keeps {s t : State} (h : Keeps s t) (g : Nat) :
    Keeps s (State.sgLeave t g) := by
  unfold State.sgLeave
  repeat' first
  | intro _
  | with_reducible assumption
  | fail_if_no_progress extract_lets +onlyGivenNames z
    first
    | (refine (have hz : Keeps s z := ?_; ?_))
      subst z
      rotate_left
      try clear_value z
    | try clear_value z
  | with_reducible
      first
      | apply State.safeSync_keeps | apply State.each_keeps | apply State.put_keeps | apply State.clearBit_keeps
      | apply keeps_ite | apply keeps_foldl
  | split

theorem State.sgNone_keeps {s t : State} (h : Keeps s t) (g : Nat) :
    Keeps s (State.sgNone t g) := by
  unfold State.sgNone
  repeat' first
  | intro _
  | with_reducible assumption
  | fail_if_no_progress extract_lets +onlyGivenNames z
    first
    | (refine (have hz : Keeps s z := ?_; ?_))
      subst z
      rotate_left
      try clear_value z
    | try clear_value z
  | with_reducible
      first
      | apply State.clearBit_keeps | apply State.when_keeps | apply keeps_ite | apply keeps_foldl
  | split

theorem State.sgEval_keeps {s t : State} (h : Keeps s t) (named : Nat) (g : Nat) :
    Keeps s (State.sgEval t named g) := by
  unfold State.sgEval
  repeat' first
  | intro _
  | with_reducible assumption
  | fail_if_no_progress extract_lets +onlyGivenNames z
    first
    | (refine (have hz : Keeps s z := ?_; ?_))
      subst z
      rotate_left
      try clear_value z
    | try clear_value z
  | with_reducible
      first
      | apply State.sgPost_keeps | apply State.sgSto_keeps | apply State.safEvt_keeps | apply State.put_keeps
      | apply State.clearBit_keeps | apply State.orBit_keeps | apply State.when_keeps | apply State.sgNone_keeps
      | apply keeps_ite | apply keeps_foldl
  | split

theorem State.relFail_keeps {s t : State} (h : Keeps s t) :
    Keeps s (State.relFail t) := by
  unfold State.relFail
  repeat' first
  | intro _
  | with_reducible assumption
  | fail_if_no_progress extract_lets +onlyGivenNames z
    first
    | (refine (have hz : Keeps s z := ?_; ?_))
      subst z
      rotate_left
      try clear_value z
    | try clear_value z
  | with_reducible
      first
      | apply State.put_keeps | apply State.failAll_keeps | apply keeps_ite | apply keeps_foldl
  | split

theorem State.fsSto_keeps {s t : State} (h : Keeps s t) :
    Keeps s (State.fsSto t) := by
  unfold State.fsSto
  repeat' first
  | intro _
  | with_reducible assumption
  | fail_if_no_progress extract_lets +onlyGivenNames z
    first
    | (refine (have hz : Keeps s z := ?_; ?_))
      subst z
      rotate_left
      try clear_value z
    | try clear_value z
  | with_reducible
      first
      | apply State.post_keeps | apply State.sgSto_keeps | apply State.each_keeps | apply State.put_keeps
      | apply keeps_ite | apply keeps_foldl
  | split

theorem State.fsEnter_keeps {s t : State} (h : Keeps s t) (k : Nat) :
    Keeps s (State.fsEnter t k) := by
  unfold State.fsEnter
  repeat' first
  | intro _
  | with_reducible assumption
  | fail_if_no_progress extract_lets +onlyGivenNames z
    first
    | (refine (have hz : Keeps s z := ?_; ?_))
      subst z
      rotate_left
      try clear_value z
    | try clear_value z
  | with_reducible
      first
      | apply State.post_keeps | apply State.soOff_keeps | apply State.sgPost_keeps | apply State.each_keeps
      | apply State.cause_keeps | apply State.safEvt_keeps | apply State.fsSto_keeps | apply State.put_keeps
      | apply State.relFail_keeps | apply State.when_keeps | apply State.orBit_keeps | apply keeps_ite
      | apply keeps_foldl
  | split

theorem State.scFault_keeps {s t : State} (h : Keeps s t) (k : Nat) :
    Keeps s (State.scFault t k) := by
  unfold State.scFault
  repeat' first
  | intro _
  | with_reducible assumption
  | fail_if_no_progress extract_lets +onlyGivenNames z
    first
    | (refine (have hz : Keeps s z := ?_; ?_))
      subst z
      rotate_left
      try clear_value z
    | try clear_value z
  | with_reducible
      first
      | apply State.fsEnter_keeps | apply State.put_keeps | apply keeps_ite | apply keeps_foldl
  | split

theorem State.wdExpire_keeps {s t : State} (h : Keeps s t) :
    Keeps s (State.wdExpire t) := by
  unfold State.wdExpire
  repeat' first
  | intro _
  | with_reducible assumption
  | fail_if_no_progress extract_lets +onlyGivenNames z
    first
    | (refine (have hz : Keeps s z := ?_; ?_))
      subst z
      rotate_left
      try clear_value z
    | try clear_value z
  | with_reducible
      first
      | apply State.report_keeps | apply State.scFault_keeps | apply State.soDrive_keeps | apply State.gatesOff_keeps
      | apply State.put_keeps | apply State.each_keeps | apply keeps_ite | apply keeps_foldl
  | split

theorem State.fsEnd_keeps {s t : State} (h : Keeps s t) :
    Keeps s (State.fsEnd t) := by
  unfold State.fsEnd
  repeat' first
  | intro _
  | with_reducible assumption
  | fail_if_no_progress extract_lets +onlyGivenNames z
    first
    | (refine (have hz : Keeps s z := ?_; ?_))
      subst z
      rotate_left
      try clear_value z
    | try clear_value z
  | with_reducible
      first
      | apply State.post_keeps | apply State.each_keeps | apply State.doneAll_keeps | apply State.cause_keeps
      | apply State.put_keeps | apply keeps_ite | apply keeps_foldl
  | split

theorem State.pairFault_keeps {s t : State} (h : Keeps s t) (k : Nat) :
    Keeps s (State.pairFault t k) := by
  unfold State.pairFault
  repeat' first
  | intro _
  | with_reducible assumption
  | fail_if_no_progress extract_lets +onlyGivenNames z
    first
    | (refine (have hz : Keeps s z := ?_; ?_))
      subst z
      rotate_left
      try clear_value z
    | try clear_value z
  | with_reducible
      first
      | apply State.report_keeps | apply State.safEvt_keeps | apply State.incSat_keeps | apply State.put_keeps
      | apply keeps_ite | apply keeps_foldl
  | split

theorem State.pairIn_keeps {s t : State} (h : Keeps s t) (k : Nat) :
    Keeps s (State.pairIn t k).1 := by
  unfold State.pairIn
  repeat' first
  | intro _
  | with_reducible assumption
  | fail_if_no_progress extract_lets +onlyGivenNames z
    first
    | (refine (have hz : Keeps s z := ?_; ?_))
      subst z
      rotate_left
      try clear_value z
    | try clear_value z
  | with_reducible
      first
      | apply State.put_keeps | apply State.when_keeps | apply keeps_ite | apply keeps_foldl
  | split

theorem State.pairEval_keeps {s t : State} (h : Keeps s t) (k : Nat) (a : Bool) (b : Bool) :
    Keeps s (State.pairEval t k a b) := by
  unfold State.pairEval
  repeat' first
  | intro _
  | with_reducible assumption
  | fail_if_no_progress extract_lets +onlyGivenNames z
    first
    | (refine (have hz : Keeps s z := ?_; ?_))
      subst z
      rotate_left
      try clear_value z
    | try clear_value z
  | with_reducible
      first
      | apply State.orBit_keeps | apply State.when_keeps | apply State.pairFault_keeps | apply State.put_keeps
      | apply keeps_ite | apply keeps_foldl
  | split

theorem State.soUnbar_keeps {s t : State} (h : Keeps s t) (k : Nat) :
    Keeps s (State.soUnbar t k) := by
  unfold State.soUnbar
  repeat' first
  | intro _
  | with_reducible assumption
  | fail_if_no_progress extract_lets +onlyGivenNames z
    first
    | (refine (have hz : Keeps s z := ?_; ?_))
      subst z
      rotate_left
      try clear_value z
    | try clear_value z
  | with_reducible
      first
      | apply State.put_keeps | apply State.when_keeps | apply keeps_ite | apply keeps_foldl
  | split

theorem State.resetItems_keeps {s t : State} (h : Keeps s t) (ps : Nat) (os : Nat) (cs : Nat) :
    Keeps s (State.resetItems t ps os cs).1 := by
  unfold State.resetItems
  repeat' first
  | intro _
  | with_reducible assumption
  | fail_if_no_progress extract_lets +onlyGivenNames z
    first
    | (refine (have hz : Keeps s z := ?_; ?_))
      subst z
      rotate_left
      try clear_value z
    | try clear_value z
  | with_reducible
      first
      | apply State.soUnbar_keeps | apply State.connStart_keeps | apply State.put_keeps | apply State.each_keeps
      | apply keeps_ite | apply keeps_foldl
  | split

theorem State.resetOne_keeps {s t : State} (h : Keeps s t) (mb : Nat) :
    Keeps s (State.resetOne t mb).1 := by
  unfold State.resetOne
  repeat' first
  | intro _
  | with_reducible assumption
  | fail_if_no_progress extract_lets +onlyGivenNames z
    first
    | (refine (have hz : Keeps s z := ?_; ?_))
      subst z
      rotate_left
      try clear_value z
    | (refine (have hz : Keeps s z.1 := ?_; ?_))
      subst z
      rotate_left
      try clear_value z
    | (refine (have hz : Keeps s z.2 := ?_; ?_))
      subst z
      rotate_left
      try clear_value z
    | try clear_value z
  | with_reducible
      first
      | apply State.put_keeps | apply State.resetItems_keeps | apply State.fail_keeps | apply keeps_ite
      | apply keeps_foldl
  | split
  | with_reducible apply keeps_mk

theorem State.resetsNow_keeps {s t : State} (h : Keeps s t) : Keeps s (State.resetsNow t).1 := by
  unfold State.resetsNow
  refine keeps_foldl_fst (fun r mb hr => ?_) _ h
  exact State.resetOne_keeps hr mb

theorem State.resetCount_keeps {s t : State} (h : Keeps s t) :
    Keeps s (State.resetCount t) := by
  unfold State.resetCount
  repeat' first
  | intro _
  | with_reducible assumption
  | fail_if_no_progress extract_lets +onlyGivenNames z
    first
    | (refine (have hz : Keeps s z := ?_; ?_))
      subst z
      rotate_left
      try clear_value z
    | try clear_value z
  | with_reducible
      first
      | apply keeps_ite | apply keeps_foldl
  | split
  | with_reducible apply keeps_mk

theorem State.safWith_keeps {s t : State} (h : Keeps s t) (f : Nat → Nat) :
    Keeps s (State.safWith t f) := by
  unfold State.safWith
  repeat' first
  | intro _
  | with_reducible assumption
  | fail_if_no_progress extract_lets +onlyGivenNames z
    first
    | (refine (have hz : Keeps s z := ?_; ?_))
      subst z
      rotate_left
      try clear_value z
    | try clear_value z
  | with_reducible
      first
      | apply State.putWord_keeps | apply State.each_keeps | apply keeps_ite | apply keeps_foldl
  | split

theorem State.safetyUse_keeps {s t : State} (h : Keeps s t) (mb : Nat) :
    Keeps s (State.safetyUse t mb) := by
  unfold State.safetyUse
  repeat' first
  | intro _
  | with_reducible assumption
  | fail_if_no_progress extract_lets +onlyGivenNames z
    first
    | (refine (have hz : Keeps s z := ?_; ?_))
      subst z
      rotate_left
      try clear_value z
    | try clear_value z
  | with_reducible
      first
      | apply State.put_keeps | apply State.when_keeps | apply keeps_ite | apply keeps_foldl
  | split

theorem State.changeWait_keeps {s t : State} (h : Keeps s t) (mb : Nat) (opc : Nat) (arg : optParam Nat 0) :
    Keeps s (State.changeWait t mb opc arg) := by
  unfold State.changeWait
  repeat' first
  | intro _
  | with_reducible assumption
  | fail_if_no_progress extract_lets +onlyGivenNames z
    first
    | (refine (have hz : Keeps s z := ?_; ?_))
      subst z
      rotate_left
      try clear_value z
    | try clear_value z
  | with_reducible
      first
      | apply State.put_keeps | apply State.wait_keeps | apply keeps_ite | apply keeps_foldl
  | split

theorem State.safChannels_keeps {s t : State} (h : Keeps s t) :
    Keeps s (State.safChannels t) := by
  unfold State.safChannels
  repeat' first
  | intro _
  | with_reducible assumption
  | fail_if_no_progress extract_lets +onlyGivenNames z
    first
    | (refine (have hz : Keeps s z := ?_; ?_))
      subst z
      rotate_left
      try clear_value z
    | try clear_value z
  | with_reducible
      first
      | apply State.put_keeps | apply State.each_keeps | apply keeps_ite | apply keeps_foldl
  | split

theorem State.safRebase_keeps {s t : State} (h : Keeps s t) :
    Keeps s (State.safRebase t) := by
  unfold State.safRebase
  repeat' first
  | intro _
  | with_reducible assumption
  | fail_if_no_progress extract_lets +onlyGivenNames z
    first
    | (refine (have hz : Keeps s z := ?_; ?_))
      subst z
      rotate_left
      try clear_value z
    | try clear_value z
  | with_reducible
      first
      | apply State.put_keeps | apply State.when_keeps | apply keeps_ite | apply keeps_foldl
  | split
  | with_reducible apply keeps_mk

theorem State.safApply_keeps {s t : State} (h : Keeps s t) :
    Keeps s (State.safApply t) := by
  unfold State.safApply
  repeat' first
  | intro _
  | with_reducible assumption
  | fail_if_no_progress extract_lets +onlyGivenNames z
    first
    | (refine (have hz : Keeps s z := ?_; ?_))
      subst z
      rotate_left
      try clear_value z
    | try clear_value z
  | with_reducible
      first
      | apply State.safChannels_keeps | apply State.when_keeps | apply State.connStart_keeps | apply State.orBit_keeps
      | apply State.each_keeps | apply State.safWith_keeps | apply State.safRebase_keeps | apply State.put_keeps
      | apply keeps_ite | apply keeps_foldl
  | split

theorem State.partnerDemand_keeps {s t : State} (h : Keeps s t) :
    Keeps s (State.partnerDemand t) := by
  unfold State.partnerDemand
  repeat' first
  | intro _
  | with_reducible assumption
  | fail_if_no_progress extract_lets +onlyGivenNames z
    first
    | (refine (have hz : Keeps s z := ?_; ?_))
      subst z
      rotate_left
      try clear_value z
    | try clear_value z
  | with_reducible
      first
      | apply State.put_keeps | apply State.useFree_keeps | apply keeps_ite | apply keeps_foldl
  | split

theorem State.path1_keeps {s t : State} (h : Keeps s t) :
    Keeps s (State.path1 t) := by
  unfold State.path1
  repeat' first
  | intro _
  | with_reducible assumption
  | fail_if_no_progress extract_lets +onlyGivenNames z
    first
    | (refine (have hz : Keeps s z := ?_; ?_))
      subst z
      rotate_left
      try clear_value z
    | (refine (have hz : Keeps s z.1 := ?_; ?_))
      subst z
      rotate_left
      try clear_value z
    | (refine (have hz : Keeps s z.2 := ?_; ?_))
      subst z
      rotate_left
      try clear_value z
    | try clear_value z
  | with_reducible
      first
      | apply State.resetCount_keeps | apply State.produce_keeps | apply State.soOff_keeps | apply State.sgEval_keeps
      | apply State.pairEval_keeps | apply State.resetsNow_keeps | apply State.pairIn_keeps | apply State.each_keeps
      | apply State.fsSto_keeps | apply State.report_keeps | apply State.scFault_keeps | apply State.when_keeps
      | apply State.safApply_keeps | apply State.put_keeps | apply State.partnerDemand_keeps | apply keeps_ite
      | apply keeps_foldl
  | split

theorem State.path2_keeps {s t : State} (h : Keeps s t) :
    Keeps s (State.path2 t) := by
  unfold State.path2
  repeat' first
  | intro _
  | with_reducible assumption
  | fail_if_no_progress extract_lets +onlyGivenNames z
    first
    | (refine (have hz : Keeps s z := ?_; ?_))
      subst z
      rotate_left
      try clear_value z
    | try clear_value z
  | with_reducible
      first
      | apply State.produce_keeps | apply State.done_keeps | apply State.soOn_keeps | apply State.clearBit_keeps
      | apply State.sgLeave_keeps | apply State.when_keeps | apply State.put_keeps | apply State.each_keeps
      | apply keeps_ite | apply keeps_foldl
  | split

theorem execCutOff_keeps {s t : State} (h : Keeps s t) (r : Nat) (cont : Bool) (i : Nat) :
    KeepsOut s (execCutOff r cont i t) := by
  unfold execCutOff
  repeat' first
  | intro _
  | with_reducible assumption
  | fail_if_no_progress extract_lets +onlyGivenNames z
    first
    | (refine (have hz : Keeps s z := ?_; ?_))
      subst z
      rotate_left
      try clear_value z
    | try clear_value z
  | with_reducible
      first
      | apply keepsOut_next | apply State.cutSlot_keeps | apply State.cutCont_keeps | apply keeps_ite
      | apply keeps_foldl
  | split

theorem execSafeSample_keeps {s t : State} (h : Keeps s t) (j : Nat) (path2 : Bool) :
    KeepsOut s (execSafeSample j path2 t) := by
  unfold execSafeSample
  repeat' first
  | intro _
  | with_reducible assumption
  | fail_if_no_progress extract_lets +onlyGivenNames z
    first
    | (refine (have hz : Keeps s z := ?_; ?_))
      subst z
      rotate_left
      try clear_value z
    | try clear_value z
  | with_reducible
      first
      | apply keepsOut_next | apply State.path1_keeps | apply State.injFired_keeps | apply State.put_keeps
      | apply State.path2_keeps | apply State.when_keeps | apply State.clockTo_keeps | apply keeps_ite
      | apply keeps_foldl
  | split

theorem execWatchdogExpiry_keeps {s t : State} (h : Keeps s t) :
    KeepsOut s (execWatchdogExpiry t) := by
  unfold execWatchdogExpiry
  repeat' first
  | intro _
  | with_reducible assumption
  | fail_if_no_progress extract_lets +onlyGivenNames z
    first
    | (refine (have hz : Keeps s z := ?_; ?_))
      subst z
      rotate_left
      try clear_value z
    | try clear_value z
  | with_reducible
      first
      | apply keepsOut_next | apply State.wdExpire_keeps | apply keeps_ite | apply keeps_foldl
  | split

theorem execSs1Expiry_keeps {s t : State} (h : Keeps s t) (g : Nat) :
    KeepsOut s (execSs1Expiry g t) := by
  unfold execSs1Expiry
  repeat' first
  | intro _
  | with_reducible assumption
  | fail_if_no_progress extract_lets +onlyGivenNames z
    first
    | (refine (have hz : Keeps s z := ?_; ?_))
      subst z
      rotate_left
      try clear_value z
    | try clear_value z
  | with_reducible
      first
      | apply keepsOut_next | apply State.orBit_keeps | apply State.put_keeps | apply State.when_keeps
      | apply keeps_ite | apply keeps_foldl
  | split

theorem execDiscrepancyFault_keeps {s t : State} (h : Keeps s t) (k : Nat) :
    KeepsOut s (execDiscrepancyFault k t) := by
  unfold execDiscrepancyFault
  repeat' first
  | intro _
  | with_reducible assumption
  | fail_if_no_progress extract_lets +onlyGivenNames z
    first
    | (refine (have hz : Keeps s z := ?_; ?_))
      subst z
      rotate_left
      try clear_value z
    | try clear_value z
  | with_reducible
      first
      | apply keepsOut_next | apply State.pairFault_keeps | apply State.when_keeps | apply keeps_ite
      | apply keeps_foldl
  | split

theorem execFstopNLow_keeps {s t : State} (h : Keeps s t) :
    KeepsOut s (execFstopNLow t) := by
  unfold execFstopNLow
  repeat' first
  | intro _
  | with_reducible assumption
  | fail_if_no_progress extract_lets +onlyGivenNames z
    first
    | (refine (have hz : Keeps s z := ?_; ?_))
      subst z
      rotate_left
      try clear_value z
    | try clear_value z
  | with_reducible
      first
      | apply keepsOut_next | apply State.fsEnter_keeps | apply State.put_keeps | apply keeps_ite | apply keeps_foldl
  | split

theorem execFullStopEnd_keeps {s t : State} (h : Keeps s t) :
    KeepsOut s (execFullStopEnd t) := by
  unfold execFullStopEnd
  repeat' first
  | intro _
  | with_reducible assumption
  | fail_if_no_progress extract_lets +onlyGivenNames z
    first
    | (refine (have hz : Keeps s z := ?_; ?_))
      subst z
      rotate_left
      try clear_value z
    | try clear_value z
  | with_reducible
      first
      | apply keepsOut_next | apply State.fsEnd_keeps | apply State.when_keeps | apply keeps_ite | apply keeps_foldl
  | split

theorem execFullStopReleaseTimeout_keeps {s t : State} (h : Keeps s t) :
    KeepsOut s (execFullStopReleaseTimeout t) := by
  unfold execFullStopReleaseTimeout
  repeat' first
  | intro _
  | with_reducible assumption
  | fail_if_no_progress extract_lets +onlyGivenNames z
    first
    | (refine (have hz : Keeps s z := ?_; ?_))
      subst z
      rotate_left
      try clear_value z
    | try clear_value z
  | with_reducible
      first
      | apply keepsOut_next | apply State.relFail_keeps | apply State.when_keeps | apply keeps_ite | apply keeps_foldl
  | split

theorem State.soSend_keeps {s t : State} (h : Keeps s t) (k : Nat) :
    Keeps s (State.soSend t k) := by
  unfold State.soSend
  repeat' first
  | intro _
  | with_reducible assumption
  | fail_if_no_progress extract_lets +onlyGivenNames z
    first
    | (refine (have hz : Keeps s z := ?_; ?_))
      subst z
      rotate_left
      try clear_value z
    | try clear_value z
  | with_reducible
      first
      | apply State.put_keeps | apply keeps_ite | apply keeps_foldl
  | split

theorem execSafeTestPulse_keeps {s t : State} (h : Keeps s t) (k : Nat) (last : Bool) (rbHigh : Bool) :
    KeepsOut s (execSafeTestPulse k last rbHigh t) := by
  unfold execSafeTestPulse
  repeat' first
  | intro _
  | with_reducible assumption
  | fail_if_no_progress extract_lets +onlyGivenNames z
    first
    | (refine (have hz : Keeps s z := ?_; ?_))
      subst z
      rotate_left
      try clear_value z
    | try clear_value z
  | with_reducible
      first
      | apply keepsOut_next | apply State.soFail_keeps | apply State.incSat_keeps | apply State.when_keeps
      | apply State.soDrive_keeps | apply State.soSend_keeps | apply State.put_keeps | apply keeps_ite
      | apply keeps_foldl
  | split

theorem execProofStep_keeps {s t : State} (h : Keeps s t) (k : Nat) (rbHigh : Bool) (senseHigh : Bool) :
    KeepsOut s (execProofStep k rbHigh senseHigh t) := by
  unfold execProofStep
  repeat' first
  | intro _
  | with_reducible assumption
  | fail_if_no_progress extract_lets +onlyGivenNames z
    first
    | (refine (have hz : Keeps s z := ?_; ?_))
      subst z
      rotate_left
      try clear_value z
    | try clear_value z
  | with_reducible
      first
      | apply keepsOut_next | apply State.soStep_keeps | apply State.when_keeps | apply keeps_ite | apply keeps_foldl
  | split

theorem execProofDue_keeps {s t : State} (h : Keeps s t) :
    KeepsOut s (execProofDue t) := by
  unfold execProofDue
  repeat' first
  | intro _
  | with_reducible assumption
  | fail_if_no_progress extract_lets +onlyGivenNames z
    first
    | (refine (have hz : Keeps s z := ?_; ?_))
      subst z
      rotate_left
      try clear_value z
    | try clear_value z
  | with_reducible
      first
      | apply keepsOut_next | apply State.proofDue_keeps | apply State.when_keeps | apply keeps_ite
      | apply keeps_foldl
  | split

theorem execContainerLanding_keeps {s t : State} (h : Keeps s t) (c : Nat) (bytes : List Nat) :
    KeepsOut s (execContainerLanding c bytes t) := by
  unfold execContainerLanding
  repeat' first
  | intro _
  | with_reducible assumption
  | fail_if_no_progress extract_lets +onlyGivenNames z
    first
    | (refine (have hz : Keeps s z := ?_; ?_))
      subst z
      rotate_left
      try clear_value z
    | try clear_value z
  | with_reducible
      first
      | apply keepsOut_next | apply State.put_keeps | apply State.landCont_keeps | apply keeps_ite | apply keeps_foldl
  | split

theorem execConnectionWatchdog_keeps {s t : State} (h : Keeps s t) (c : Nat) :
    KeepsOut s (execConnectionWatchdog c t) := by
  unfold execConnectionWatchdog
  repeat' first
  | intro _
  | with_reducible assumption
  | fail_if_no_progress extract_lets +onlyGivenNames z
    first
    | (refine (have hz : Keeps s z := ?_; ?_))
      subst z
      rotate_left
      try clear_value z
    | try clear_value z
  | with_reducible
      first
      | apply keepsOut_next | apply State.connFault_keeps | apply State.when_keeps | apply keeps_ite
      | apply keeps_foldl
  | split

theorem execSafeParamWrite_keeps {s t : State} (h : Keeps s t) (mb : Nat) :
    KeepsOut s (execSafeParamWrite mb t) := by
  unfold execSafeParamWrite
  repeat' first
  | intro _
  | with_reducible assumption
  | fail_if_no_progress extract_lets +onlyGivenNames z
    first
    | (refine (have hz : Keeps s z := ?_; ?_))
      subst z
      rotate_left
      try clear_value z
    | try clear_value z
  | with_reducible
      first
      | apply keepsOut_next | apply State.done_keeps | apply State.store_keeps | apply State.setByte_keeps
      | apply State.each_keeps | apply State.safetyUse_keeps | apply State.fail_keeps | apply State.request_keeps
      | apply keeps_ite | apply keeps_foldl
  | split

theorem execSafeParamCommit_keeps {s t : State} (h : Keeps s t) (mb : Nat) :
    KeepsOut s (execSafeParamCommit mb t) := by
  unfold execSafeParamCommit
  repeat' first
  | intro _
  | with_reducible assumption
  | fail_if_no_progress extract_lets +onlyGivenNames z
    first
    | (refine (have hz : Keeps s z := ?_; ?_))
      subst z
      rotate_left
      try clear_value z
    | try clear_value z
  | with_reducible
      first
      | apply keepsOut_next | apply State.zeroRange_keeps | apply State.changeWait_keeps | apply State.store_keeps
      | apply State.each_keeps | apply State.safWith_keeps | apply State.safetyUse_keeps | apply State.fail_keeps
      | apply State.request_keeps | apply keeps_ite | apply keeps_foldl
  | split

theorem execSafeReset_keeps {s t : State} (h : Keeps s t) (mb : Nat) :
    KeepsOut s (execSafeReset mb t) := by
  unfold execSafeReset
  repeat' first
  | intro _
  | with_reducible assumption
  | fail_if_no_progress extract_lets +onlyGivenNames z
    first
    | (refine (have hz : Keeps s z := ?_; ?_))
      subst z
      rotate_left
      try clear_value z
    | try clear_value z
  | with_reducible
      first
      | apply keepsOut_next | apply State.safetyUse_keeps | apply State.wait_keeps | apply State.fail_keeps
      | apply State.request_keeps | apply keeps_ite | apply keeps_foldl
  | split

theorem execSafeTest_keeps {s t : State} (h : Keeps s t) (mb : Nat) :
    KeepsOut s (execSafeTest mb t) := by
  unfold execSafeTest
  repeat' first
  | intro _
  | with_reducible assumption
  | fail_if_no_progress extract_lets +onlyGivenNames z
    first
    | (refine (have hz : Keeps s z := ?_; ?_))
      subst z
      rotate_left
      try clear_value z
    | try clear_value z
  | with_reducible
      first
      | apply keepsOut_next | apply State.soProve_keeps | apply State.soTested_keeps | apply State.wait_keeps
      | apply State.soProofOff_keeps | apply State.each_keeps | apply State.done_keeps | apply State.safetyUse_keeps
      | apply State.fail_keeps | apply State.request_keeps | apply keeps_ite | apply keeps_foldl
  | split

theorem execFullStop_keeps {s t : State} (h : Keeps s t) (mb : Nat) :
    KeepsOut s (execFullStop mb t) := by
  unfold execFullStop
  repeat' first
  | intro _
  | with_reducible assumption
  | fail_if_no_progress extract_lets +onlyGivenNames z
    first
    | (refine (have hz : Keeps s z := ?_; ?_))
      subst z
      rotate_left
      try clear_value z
    | try clear_value z
  | with_reducible
      first
      | apply keepsOut_next | apply State.safetyUse_keeps | apply State.fsEnter_keeps | apply State.done_keeps
      | apply State.request_keeps | apply keeps_ite | apply keeps_foldl
  | split

theorem execFullStopRelease_keeps {s t : State} (h : Keeps s t) (mb : Nat) :
    KeepsOut s (execFullStopRelease mb t) := by
  unfold execFullStopRelease
  repeat' first
  | intro _
  | with_reducible assumption
  | fail_if_no_progress extract_lets +onlyGivenNames z
    first
    | (refine (have hz : Keeps s z := ?_; ?_))
      subst z
      rotate_left
      try clear_value z
    | try clear_value z
  | with_reducible
      first
      | apply keepsOut_next | apply State.wait_keeps | apply State.useFree_keeps | apply State.put_keeps
      | apply State.when_keeps | apply State.fail_keeps | apply State.done_keeps | apply State.safetyUse_keeps
      | apply State.request_keeps | apply keeps_ite | apply keeps_foldl
  | split

theorem State.setRole_keeps {s t : State} (h : Keeps s t) (r : Nat) :
    Keeps s (State.setRole t r) := by
  unfold State.setRole
  repeat' first
  | intro _
  | with_reducible assumption
  | fail_if_no_progress extract_lets +onlyGivenNames z
    first
    | (refine (have hz : Keeps s z := ?_; ?_))
      subst z
      rotate_left
      try clear_value z
    | try clear_value z
  | with_reducible
      first
      | apply State.cause_keeps | apply State.when_keeps | apply State.put_keeps | apply keeps_ite | apply keeps_foldl
  | split

theorem State.takeHead_keeps {s t : State} (h : Keeps s t) :
    Keeps s (State.takeHead t) := by
  unfold State.takeHead
  repeat' first
  | intro _
  | with_reducible assumption
  | fail_if_no_progress extract_lets +onlyGivenNames z
    first
    | (refine (have hz : Keeps s z := ?_; ?_))
      subst z
      rotate_left
      try clear_value z
    | try clear_value z
  | with_reducible
      first
      | apply State.put_keeps | apply State.when_keeps | apply State.each_keeps | apply keeps_ite | apply keeps_foldl
  | split

theorem State.dropHead_keeps {s t : State} (h : Keeps s t) :
    Keeps s (State.dropHead t) := by
  unfold State.dropHead
  repeat' first
  | intro _
  | with_reducible assumption
  | fail_if_no_progress extract_lets +onlyGivenNames z
    first
    | (refine (have hz : Keeps s z := ?_; ?_))
      subst z
      rotate_left
      try clear_value z
    | try clear_value z
  | with_reducible
      first
      | apply State.put_keeps | apply State.each_keeps | apply keeps_ite | apply keeps_foldl
  | split

theorem State.rejoinStart_keeps {s t : State} (h : Keeps s t) :
    Keeps s (State.rejoinStart t) := by
  unfold State.rejoinStart
  repeat' first
  | intro _
  | with_reducible assumption
  | fail_if_no_progress extract_lets +onlyGivenNames z
    first
    | (refine (have hz : Keeps s z := ?_; ?_))
      subst z
      rotate_left
      try clear_value z
    | try clear_value z
  | with_reducible
      first
      | apply State.setRole_keeps | apply State.put_keeps | apply keeps_ite | apply keeps_foldl
  | split

theorem State.rejoinFail_keeps {s t : State} (h : Keeps s t) :
    Keeps s (State.rejoinFail t) := by
  unfold State.rejoinFail
  repeat' first
  | intro _
  | with_reducible assumption
  | fail_if_no_progress extract_lets +onlyGivenNames z
    first
    | (refine (have hz : Keeps s z := ?_; ?_))
      subst z
      rotate_left
      try clear_value z
    | try clear_value z
  | with_reducible
      first
      | apply State.setRole_keeps | apply State.put_keeps | apply keeps_ite | apply keeps_foldl
  | split

theorem State.gaveUp_keeps {s t : State} (h : Keeps s t) :
    Keeps s (State.gaveUp t) := by
  unfold State.gaveUp
  repeat' first
  | intro _
  | with_reducible assumption
  | fail_if_no_progress extract_lets +onlyGivenNames z
    first
    | (refine (have hz : Keeps s z := ?_; ?_))
      subst z
      rotate_left
      try clear_value z
    | try clear_value z
  | with_reducible
      first
      | apply State.setRole_keeps | apply State.rejoinStart_keeps | apply keeps_ite | apply keeps_foldl
  | split

theorem State.handoverEnd_keeps {s t : State} (h : Keeps s t) (reason : Nat) (cyc : Nat) :
    Keeps s (State.handoverEnd t reason cyc) := by
  unfold State.handoverEnd
  repeat' first
  | intro _
  | with_reducible assumption
  | fail_if_no_progress extract_lets +onlyGivenNames z
    first
    | (refine (have hz : Keeps s z := ?_; ?_))
      subst z
      rotate_left
      try clear_value z
    | try clear_value z
  | with_reducible
      first
      | apply State.fail_keeps | apply State.done_keeps | apply State.each_keeps | apply State.put_keeps
      | apply keeps_ite | apply keeps_foldl
  | split

theorem State.swDue_keeps {s t : State} (h : Keeps s t) (c : Nat) :
    Keeps s (State.swDue t c) := by
  unfold State.swDue
  repeat' first
  | intro _
  | with_reducible assumption
  | fail_if_no_progress extract_lets +onlyGivenNames z
    first
    | (refine (have hz : Keeps s z := ?_; ?_))
      subst z
      rotate_left
      try clear_value z
    | try clear_value z
  | with_reducible
      first
      | apply State.swMark_keeps | apply State.put_keeps | apply State.handoverEnd_keeps | apply keeps_ite
      | apply keeps_foldl
  | split

theorem State.ownFault_keeps {s t : State} (h : Keeps s t) :
    Keeps s (State.ownFault t) := by
  unfold State.ownFault
  repeat' first
  | intro _
  | with_reducible assumption
  | fail_if_no_progress extract_lets +onlyGivenNames z
    first
    | (refine (have hz : Keeps s z := ?_; ?_))
      subst z
      rotate_left
      try clear_value z
    | try clear_value z
  | with_reducible
      first
      | apply State.rejoinFail_keeps | apply State.swDue_keeps | apply keeps_ite | apply keeps_foldl
  | split

theorem State.oneSided_keeps {s t : State} (h : Keeps s t) (f : Nat) (as : List Nat) :
    Keeps s (State.oneSided t f as) := by
  unfold State.oneSided
  repeat' first
  | intro _
  | with_reducible assumption
  | fail_if_no_progress extract_lets +onlyGivenNames z
    first
    | (refine (have hz : Keeps s z := ?_; ?_))
      subst z
      rotate_left
      try clear_value z
    | try clear_value z
  | with_reducible
      first
      | apply State.when_keeps | apply State.put_keeps | apply State.incSat_keeps | apply State.each_keeps
      | apply keeps_ite | apply keeps_foldl
  | split

theorem State.mismatch_keeps {s t : State} (h : Keeps s t) :
    Keeps s (State.mismatch t) := by
  unfold State.mismatch
  repeat' first
  | intro _
  | with_reducible assumption
  | fail_if_no_progress extract_lets +onlyGivenNames z
    first
    | (refine (have hz : Keeps s z := ?_; ?_))
      subst z
      rotate_left
      try clear_value z
    | try clear_value z
  | with_reducible
      first
      | apply State.when_keeps | apply State.handoverEnd_keeps | apply State.report_keeps | apply State.put_keeps
      | apply State.incSat_keeps | apply keeps_ite | apply keeps_foldl
  | split

theorem State.pairDecide_keeps {s t : State} (h : Keeps s t) (act : Nat) (stb : Nat) :
    Keeps s (State.pairDecide t act stb) := by
  unfold State.pairDecide
  repeat' first
  | intro _
  | with_reducible assumption
  | fail_if_no_progress extract_lets +onlyGivenNames z
    first
    | (refine (have hz : Keeps s z := ?_; ?_))
      subst z
      rotate_left
      try clear_value z
    | try clear_value z
  | with_reducible
      first
      | apply State.fsEnter_keeps | apply State.when_keeps | apply State.setRole_keeps | apply State.swDue_keeps
      | apply State.put_keeps | apply keeps_ite | apply keeps_foldl
  | split

theorem State.roleChanged_keeps {s t : State} (h : Keeps s t) :
    Keeps s (State.roleChanged t) := by
  unfold State.roleChanged
  repeat' first
  | intro _
  | with_reducible assumption
  | fail_if_no_progress extract_lets +onlyGivenNames z
    first
    | (refine (have hz : Keeps s z := ?_; ?_))
      subst z
      rotate_left
      try clear_value z
    | try clear_value z
  | with_reducible
      first
      | apply State.fail_keeps | apply State.when_keeps | apply State.each_keeps | apply keeps_ite | apply keeps_foldl
  | split

theorem State.tokenMove_keeps {s t : State} (h : Keeps s t) (c : Nat) :
    Keeps s (State.tokenMove t c) := by
  unfold State.tokenMove
  repeat' first
  | intro _
  | with_reducible assumption
  | fail_if_no_progress extract_lets +onlyGivenNames z
    first
    | (refine (have hz : Keeps s z := ?_; ?_))
      subst z
      rotate_left
      try clear_value z
    | try clear_value z
  | with_reducible
      first
      | apply State.incWrap_keeps | apply State.takeHead_keeps | apply State.roleChanged_keeps
      | apply State.gaveUp_keeps | apply State.setRole_keeps | apply State.dropHead_keeps | apply State.incSat_keeps
      | apply State.put_keeps | apply keeps_ite | apply keeps_foldl
  | split

theorem State.handoverAgree_keeps {s t : State} (h : Keeps s t) (c : Nat) (cyc : Nat) :
    Keeps s (State.handoverAgree t c cyc) := by
  unfold State.handoverAgree
  repeat' first
  | intro _
  | with_reducible assumption
  | fail_if_no_progress extract_lets +onlyGivenNames z
    first
    | (refine (have hz : Keeps s z := ?_; ?_))
      subst z
      rotate_left
      try clear_value z
    | try clear_value z
  | with_reducible
      first
      | apply State.put_keeps | apply keeps_ite | apply keeps_foldl
  | split

theorem State.rejoinCycle_keeps {s t : State} (h : Keeps s t) :
    Keeps s (State.rejoinCycle t) := by
  unfold State.rejoinCycle
  repeat' first
  | intro _
  | with_reducible assumption
  | fail_if_no_progress extract_lets +onlyGivenNames z
    first
    | (refine (have hz : Keeps s z := ?_; ?_))
      subst z
      rotate_left
      try clear_value z
    | try clear_value z
  | with_reducible
      first
      | apply State.rejoinFail_keeps | apply State.put_keeps | apply State.useFree_keeps | apply keeps_ite
      | apply keeps_foldl
  | split

theorem State.pairBoundary_keeps {s t : State} (h : Keeps s t) :
    Keeps s (State.pairBoundary t) := by
  unfold State.pairBoundary
  repeat' first
  | intro _
  | with_reducible assumption
  | fail_if_no_progress extract_lets +onlyGivenNames z
    first
    | (refine (have hz : Keeps s z := ?_; ?_))
      subst z
      rotate_left
      try clear_value z
    | try clear_value z
  | with_reducible
      first
      | apply State.handoverEnd_keeps | apply State.done_keeps | apply State.dropHead_keeps
      | apply State.rejoinStart_keeps | apply State.setRole_keeps | apply State.rejoinCycle_keeps
      | apply State.each_keeps | apply State.when_keeps | apply State.put_keeps | apply State.incSat_keeps
      | apply keeps_ite | apply keeps_foldl
  | split

theorem State.laneLost_keeps {s t : State} (h : Keeps s t) (l : Nat) :
    Keeps s (State.laneLost t l) := by
  unfold State.laneLost
  repeat' first
  | intro _
  | with_reducible assumption
  | fail_if_no_progress extract_lets +onlyGivenNames z
    first
    | (refine (have hz : Keeps s z := ?_; ?_))
      subst z
      rotate_left
      try clear_value z
    | try clear_value z
  | with_reducible
      first
      | apply State.cnjCheck_keeps | apply State.handoverEnd_keeps | apply State.rejoinFail_keeps
      | apply State.clearBit_keeps | apply State.put_keeps | apply keeps_ite | apply keeps_foldl
  | split

theorem execForeignHeadFrame_keeps {s t : State} (h : Keeps s t) (r : Nat) (cid : Nat) (epoch : Nat) :
    KeepsOut s (execForeignHeadFrame r cid epoch t) := by
  unfold execForeignHeadFrame
  repeat' first
  | intro _
  | with_reducible assumption
  | fail_if_no_progress extract_lets +onlyGivenNames z
    first
    | (refine (have hz : Keeps s z := ?_; ?_))
      subst z
      rotate_left
      try clear_value z
    | try clear_value z
  | with_reducible
      first
      | apply keepsOut_next | apply State.fsEnter_keeps | apply State.put_keeps | apply State.incSat_keeps
      | apply keeps_ite | apply keeps_foldl
  | split

theorem State.pairConf_keeps {s t : State} (h : Keeps s t) (cid : Nat) (fl : Nat) :
    Keeps s (State.pairConf t cid fl) := by
  unfold State.pairConf
  repeat' first
  | intro _
  | with_reducible assumption
  | fail_if_no_progress extract_lets +onlyGivenNames z
    first
    | (refine (have hz : Keeps s z := ?_; ?_))
      subst z
      rotate_left
      try clear_value z
    | try clear_value z
  | with_reducible
      first
      | apply State.put_keeps | apply keeps_ite | apply keeps_foldl
  | split

theorem execPairConfig_keeps {s t : State} (h : Keeps s t) (mb : Nat) :
    KeepsOut s (execPairConfig mb t) := by
  unfold execPairConfig
  repeat' first
  | intro _
  | with_reducible assumption
  | fail_if_no_progress extract_lets +onlyGivenNames z
    first
    | (refine (have hz : Keeps s z := ?_; ?_))
      subst z
      rotate_left
      try clear_value z
    | try clear_value z
  | with_reducible
      first
      | apply keepsOut_next | apply State.dropHead_keeps | apply State.rejoinStart_keeps | apply State.fail_keeps
      | apply State.useFree_keeps | apply State.each_keeps | apply State.done_keeps | apply State.pairConf_keeps
      | apply State.setRole_keeps | apply State.put_keeps | apply State.request_keeps | apply keeps_ite
      | apply keeps_foldl
  | split

theorem execPairRejoin_keeps {s t : State} (h : Keeps s t) (mb : Nat) :
    KeepsOut s (execPairRejoin mb t) := by
  unfold execPairRejoin
  repeat' first
  | intro _
  | with_reducible assumption
  | fail_if_no_progress extract_lets +onlyGivenNames z
    first
    | (refine (have hz : Keeps s z := ?_; ?_))
      subst z
      rotate_left
      try clear_value z
    | try clear_value z
  | with_reducible
      first
      | apply keepsOut_next | apply State.rejoinStart_keeps | apply State.done_keeps | apply State.fail_keeps
      | apply State.request_keeps | apply keeps_ite | apply keeps_foldl
  | split

theorem execPairHandover_keeps {s t : State} (h : Keeps s t) (mb : Nat) :
    KeepsOut s (execPairHandover mb t) := by
  unfold execPairHandover
  repeat' first
  | intro _
  | with_reducible assumption
  | fail_if_no_progress extract_lets +onlyGivenNames z
    first
    | (refine (have hz : Keeps s z := ?_; ?_))
      subst z
      rotate_left
      try clear_value z
    | try clear_value z
  | with_reducible
      first
      | apply keepsOut_next | apply State.handoverAgree_keeps | apply State.when_keeps | apply State.wait_keeps
      | apply State.fail_keeps | apply State.request_keeps | apply keeps_ite | apply keeps_foldl
  | split

theorem execPairTakeback_keeps {s t : State} (h : Keeps s t) (mb : Nat) :
    KeepsOut s (execPairTakeback mb t) := by
  unfold execPairTakeback
  repeat' first
  | intro _
  | with_reducible assumption
  | fail_if_no_progress extract_lets +onlyGivenNames z
    first
    | (refine (have hz : Keeps s z := ?_; ?_))
      subst z
      rotate_left
      try clear_value z
    | try clear_value z
  | with_reducible
      first
      | apply keepsOut_next | apply State.handoverAgree_keeps | apply State.when_keeps | apply State.wait_keeps
      | apply State.fail_keeps | apply State.request_keeps | apply keeps_ite | apply keeps_foldl
  | split

theorem execPairUnpair_keeps {s t : State} (h : Keeps s t) (mb : Nat) :
    KeepsOut s (execPairUnpair mb t) := by
  unfold execPairUnpair
  repeat' first
  | intro _
  | with_reducible assumption
  | fail_if_no_progress extract_lets +onlyGivenNames z
    first
    | (refine (have hz : Keeps s z := ?_; ?_))
      subst z
      rotate_left
      try clear_value z
    | try clear_value z
  | with_reducible
      first
      | apply keepsOut_next | apply State.wait_keeps | apply State.request_keeps | apply keeps_ite | apply keeps_foldl
  | split

theorem execLaneLost_keeps {s t : State} (h : Keeps s t) (l : Nat) :
    KeepsOut s (execLaneLost l t) := by
  unfold execLaneLost
  repeat' first
  | intro _
  | with_reducible assumption
  | fail_if_no_progress extract_lets +onlyGivenNames z
    first
    | (refine (have hz : Keeps s z := ?_; ?_))
      subst z
      rotate_left
      try clear_value z
    | try clear_value z
  | with_reducible
      first
      | apply keepsOut_next | apply State.laneLost_keeps | apply keeps_ite | apply keeps_foldl
  | split

theorem execLaneRestored_keeps {s t : State} (h : Keeps s t) (l : Nat) :
    KeepsOut s (execLaneRestored l t) := by
  unfold execLaneRestored
  repeat' first
  | intro _
  | with_reducible assumption
  | fail_if_no_progress extract_lets +onlyGivenNames z
    first
    | (refine (have hz : Keeps s z := ?_; ?_))
      subst z
      rotate_left
      try clear_value z
    | try clear_value z
  | with_reducible
      first
      | apply keepsOut_next | apply State.orBit_keeps | apply State.put_keeps | apply keeps_ite | apply keeps_foldl
  | split

theorem execJournalEntry_keeps {s t : State} (h : Keeps s t) (mb : Nat) (tag : Nat) (opc : Nat) (accept : Nat) (bytes
    : List Nat) :
    KeepsOut s (execJournalEntry mb tag opc accept bytes t) := by
  unfold execJournalEntry
  repeat' first
  | intro _
  | with_reducible assumption
  | fail_if_no_progress extract_lets +onlyGivenNames z
    first
    | (refine (have hz : Keeps s z := ?_; ?_))
      subst z
      rotate_left
      try clear_value z
    | try clear_value z
  | with_reducible
      first
      | apply keepsOut_next | apply State.incWrap_keeps | apply State.setBytes_keeps | apply State.put_keeps
      | apply State.jrnAway_keeps | apply State.when_keeps | apply keeps_ite | apply keeps_foldl
  | split

theorem execJournalCompletion_keeps {s t : State} (h : Keeps s t) (mb : Nat) (tag : Nat) (status : Nat) (reason : Nat)
    (opc : Nat) (handle : Nat) (bytes : List Nat) :
    KeepsOut s (execJournalCompletion mb tag status reason opc handle bytes t) := by
  unfold execJournalCompletion
  repeat' first
  | intro _
  | with_reducible assumption
  | fail_if_no_progress extract_lets +onlyGivenNames z
    first
    | (refine (have hz : Keeps s z := ?_; ?_))
      subst z
      rotate_left
      try clear_value z
    | try clear_value z
  | with_reducible
      first
      | apply keepsOut_next | apply State.tagAdd_keeps | apply keeps_ite | apply keeps_foldl
  | split

theorem execDigestComparison_keeps {s t : State} (h : Keeps s t) (f : Nat) (par : Nat) (stMap : List Nat) (fbMap :
    List Nat) :
    KeepsOut s (execDigestComparison f par stMap fbMap t) := by
  unfold execDigestComparison
  repeat' first
  | intro _
  | with_reducible assumption
  | fail_if_no_progress extract_lets +onlyGivenNames z
    first
    | (refine (have hz : Keeps s z := ?_; ?_))
      subst z
      rotate_left
      try clear_value z
    | try clear_value z
  | with_reducible
      first
      | apply keepsOut_next | apply State.mismatch_keeps | apply State.rejoinFail_keeps | apply State.incSat_keeps
      | apply State.put_keeps | apply State.when_keeps | apply State.oneSided_keeps | apply keeps_ite
      | apply keeps_foldl
  | split

theorem execOnesidedCopy_keeps {s t : State} (h : Keeps s t) (a : Nat) (words : List (Nat × Nat)) :
    KeepsOut s (execOnesidedCopy a words t) := by
  unfold execOnesidedCopy
  repeat' first
  | intro _
  | with_reducible assumption
  | fail_if_no_progress extract_lets +onlyGivenNames z
    first
    | (refine (have hz : Keeps s z := ?_; ?_))
      subst z
      rotate_left
      try clear_value z
    | try clear_value z
  | with_reducible
      first
      | apply keepsOut_next | apply State.put_keeps | apply State.when_keeps | apply State.putWord_keeps
      | apply State.each_keeps | apply keeps_ite | apply keeps_foldl
  | split

theorem execVerdict_keeps {s t : State} (h : Keeps s t) (own : Nat) (par : Nat) (failStep : Nat) :
    KeepsOut s (execVerdict own par failStep t) := by
  unfold execVerdict
  repeat' first
  | intro _
  | with_reducible assumption
  | fail_if_no_progress extract_lets +onlyGivenNames z
    first
    | (refine (have hz : Keeps s z := ?_; ?_))
      subst z
      rotate_left
      try clear_value z
    | try clear_value z
  | with_reducible
      first
      | apply keepsOut_next | apply State.pairDecide_keeps | apply State.report_keeps | apply State.when_keeps
      | apply State.put_keeps | apply keeps_ite | apply keeps_foldl
  | split

theorem execVerdictTimeout_keeps {s t : State} (h : Keeps s t) (own : Bool) :
    KeepsOut s (execVerdictTimeout own t) := by
  unfold execVerdictTimeout
  repeat' first
  | intro _
  | with_reducible assumption
  | fail_if_no_progress extract_lets +onlyGivenNames z
    first
    | (refine (have hz : Keeps s z := ?_; ?_))
      subst z
      rotate_left
      try clear_value z
    | try clear_value z
  | with_reducible
      first
      | apply keepsOut_next | apply State.pairDecide_keeps | apply State.put_keeps | apply keeps_ite
      | apply keeps_foldl
  | split

theorem execPeriodicSelfDiagnosis_keeps {s t : State} (h : Keeps s t) (pass : Bool) :
    KeepsOut s (execPeriodicSelfDiagnosis pass t) := by
  unfold execPeriodicSelfDiagnosis
  repeat' first
  | intro _
  | with_reducible assumption
  | fail_if_no_progress extract_lets +onlyGivenNames z
    first
    | (refine (have hz : Keeps s z := ?_; ?_))
      subst z
      rotate_left
      try clear_value z
    | try clear_value z
  | with_reducible
      first
      | apply keepsOut_next | apply State.report_keeps | apply State.ownFault_keeps | apply State.put_keeps
      | apply State.clearBit_keeps | apply keeps_ite | apply keeps_foldl
  | split

theorem execSwitchOver_keeps {s t : State} (h : Keeps s t) :
    KeepsOut s (execSwitchOver t) := by
  unfold execSwitchOver
  repeat' first
  | intro _
  | with_reducible assumption
  | fail_if_no_progress extract_lets +onlyGivenNames z
    first
    | (refine (have hz : Keeps s z := ?_; ?_))
      subst z
      rotate_left
      try clear_value z
    | try clear_value z
  | with_reducible
      first
      | apply keepsOut_next | apply State.swDue_keeps | apply State.tokenMove_keeps | apply State.put_keeps
      | apply keeps_ite | apply keeps_foldl
  | split

theorem execHandover_keeps {s t : State} (h : Keeps s t) :
    KeepsOut s (execHandover t) := by
  unfold execHandover
  repeat' first
  | intro _
  | with_reducible assumption
  | fail_if_no_progress extract_lets +onlyGivenNames z
    first
    | (refine (have hz : Keeps s z := ?_; ?_))
      subst z
      rotate_left
      try clear_value z
    | try clear_value z
  | with_reducible
      first
      | apply keepsOut_next | apply State.handoverEnd_keeps | apply State.tokenMove_keeps | apply keeps_ite
      | apply keeps_foldl
  | split

theorem execStandstill_keeps {s t : State} (h : Keeps s t) :
    KeepsOut s (execStandstill t) := by
  unfold execStandstill
  repeat' first
  | intro _
  | with_reducible assumption
  | fail_if_no_progress extract_lets +onlyGivenNames z
    first
    | (refine (have hz : Keeps s z := ?_; ?_))
      subst z
      rotate_left
      try clear_value z
    | try clear_value z
  | with_reducible
      first
      | apply keepsOut_next | apply State.handoverAgree_keeps | apply State.when_keeps | apply keeps_ite
      | apply keeps_foldl
  | split

theorem execRejoinTransferComplete_keeps {s t : State} (h : Keeps s t) (backlog : Nat) :
    KeepsOut s (execRejoinTransferComplete backlog t) := by
  unfold execRejoinTransferComplete
  repeat' first
  | intro _
  | with_reducible assumption
  | fail_if_no_progress extract_lets +onlyGivenNames z
    first
    | (refine (have hz : Keeps s z := ?_; ?_))
      subst z
      rotate_left
      try clear_value z
    | try clear_value z
  | with_reducible
      first
      | apply keepsOut_next | apply State.rejoinFail_keeps | apply State.put_keeps | apply keeps_ite
      | apply keeps_foldl
  | split

theorem execReplayComplete_keeps {s t : State} (h : Keeps s t) :
    KeepsOut s (execReplayComplete t) := by
  unfold execReplayComplete
  repeat' first
  | intro _
  | with_reducible assumption
  | fail_if_no_progress extract_lets +onlyGivenNames z
    first
    | (refine (have hz : Keeps s z := ?_; ?_))
      subst z
      rotate_left
      try clear_value z
    | try clear_value z
  | with_reducible
      first
      | apply keepsOut_next | apply State.put_keeps | apply keeps_ite | apply keeps_foldl
  | split

theorem execRejoinConfirmed_keeps {s t : State} (h : Keeps s t) :
    KeepsOut s (execRejoinConfirmed t) := by
  unfold execRejoinConfirmed
  repeat' first
  | intro _
  | with_reducible assumption
  | fail_if_no_progress extract_lets +onlyGivenNames z
    first
    | (refine (have hz : Keeps s z := ?_; ?_))
      subst z
      rotate_left
      try clear_value z
    | try clear_value z
  | with_reducible
      first
      | apply keepsOut_next | apply State.setRole_keeps | apply State.put_keeps | apply keeps_ite | apply keeps_foldl
  | split

theorem execExpectedFrameMissing_keeps {s t : State} (h : Keeps s t) (r : Nat) :
    KeepsOut s (execExpectedFrameMissing r t) := by
  unfold execExpectedFrameMissing
  repeat' first
  | intro _
  | with_reducible assumption
  | fail_if_no_progress extract_lets +onlyGivenNames z
    first
    | (refine (have hz : Keeps s z := ?_; ?_))
      subst z
      rotate_left
      try clear_value z
    | try clear_value z
  | with_reducible
      first
      | apply keepsOut_next | apply State.put_keeps | apply State.cnjCheck_keeps | apply keeps_ite | apply keeps_foldl
  | split

end Sys2Proof.Machine
end

