-- ==== Sys2Proof/Laws/KeepsConfig.lean ====
section
/-! SUPPORT. What the operations of configuration, images, resets and integrity keep: each keeps the queue and the invariant. -/

set_option linter.unusedTactic false
set_option linter.unreachableTactic false
set_option linter.tactic.unusedName false

namespace Sys2Proof.Machine

theorem State.flView_keeps {s t : State} (h : Keeps s t) :
    Keeps s (State.flView t) := by
  unfold State.flView
  repeat' first
  | intro _
  | with_reducible assumption
  | fail_if_no_progress extract_lets +onlyGivenNames z
    first
    | (refine (have hz : Keeps s z := ?_; ?_))
      subst z
      rotate_left
      try clear_value z
    | try clear_value z
  | with_reducible
      first
      | apply State.when_keeps | apply State.put_keeps | apply keeps_ite | apply keeps_foldl
  | split

theorem State.pagesTake_keeps {s : State} (k : Nat) : ∀ {t : State}, Keeps s t → ∀ n,
    Keeps s (State.pagesTake k t n).1 := by
  induction k with
  | zero => exact fun h _ => h
  | succ k ih =>
    intro t h n
    unfold State.pagesTake
    extract_lets +onlyGivenNames c left g r
    split
    · exact h
    split
    · split
      · exact ih (State.put_keeps h ..) _
      · exact h
    · exact ih (State.put_keeps h ..) _

theorem State.extMove_keeps {s t : State} (h : Keeps s t) (b : Nat) (l : List (Nat × Nat)) :
    Keeps s (State.extMove t b l).1 := by
  unfold State.extMove
  dsimp only
  split
  · exact h
  · exact State.pagesTake_keeps _ h _

theorem State.blkMove_keeps {s t : State} (h : Keeps s t) (b : Nat) : Keeps s (State.blkMove t b) := by
  unfold State.blkMove
  extract_lets +onlyGivenNames z
  have hz : Keeps s z := State.when_keeps h (fun t ht => State.put_keeps ht ..) _
  clear_value z
  split
  · exact hz
  extract_lets +onlyGivenNames r
  have hr : Keeps s r.1 :=
    keeps_foldl_fst (r := (z, [])) (fun r m hr => State.extMove_keeps hr b m.ext) _ hz
  clear_value r
  split
  · exact keeps_mk (State.extMove_keeps hr ..)
  · exact keeps_mk hr

theorem State.blkErase_keeps {s t : State} (h : Keeps s t) (b : Nat) :
    Keeps s (State.blkErase t b) := by
  unfold State.blkErase
  repeat' first
  | intro _
  | with_reducible assumption
  | fail_if_no_progress extract_lets +onlyGivenNames z
    first
    | (refine (have hz : Keeps s z := ?_; ?_))
      subst z
      rotate_left
      try clear_value z
    | try clear_value z
  | with_reducible
      first
      | apply State.put_keeps | apply State.when_keeps | apply keeps_ite | apply keeps_foldl
  | split

theorem State.blkFail_keeps {s t : State} (h : Keeps s t) (b : Nat) :
    Keeps s (State.blkFail t b) := by
  unfold State.blkFail
  repeat' first
  | intro _
  | with_reducible assumption
  | fail_if_no_progress extract_lets +onlyGivenNames z
    first
    | (refine (have hz : Keeps s z := ?_; ?_))
      subst z
      rotate_left
      try clear_value z
    | try clear_value z
  | with_reducible
      first
      | apply State.blkMove_keeps | apply State.put_keeps | apply keeps_ite | apply keeps_foldl
  | split

theorem State.blkReclaim_keeps {s t : State} (h : Keeps s t) (b : Nat) :
    Keeps s (State.blkReclaim t b) := by
  unfold State.blkReclaim
  repeat' first
  | intro _
  | with_reducible assumption
  | fail_if_no_progress extract_lets +onlyGivenNames z
    first
    | (refine (have hz : Keeps s z := ?_; ?_))
      subst z
      rotate_left
      try clear_value z
    | try clear_value z
  | with_reducible
      first
      | apply State.blkMove_keeps | apply State.blkErase_keeps | apply keeps_ite | apply keeps_foldl
  | split

theorem State.blkLevel_keeps {s t : State} (h : Keeps s t) :
    Keeps s (State.blkLevel t) := by
  unfold State.blkLevel
  repeat' first
  | intro _
  | with_reducible assumption
  | fail_if_no_progress extract_lets +onlyGivenNames z
    first
    | (refine (have hz : Keeps s z := ?_; ?_))
      subst z
      rotate_left
      try clear_value z
    | try clear_value z
  | with_reducible
      first
      | apply State.blkMove_keeps | apply State.blkErase_keeps | apply keeps_ite | apply keeps_foldl
  | split

theorem State.flashCollect_keeps {s t : State} (h : Keeps s t) (bad : List Nat) :
    Keeps s (State.flashCollect t bad) := by
  unfold State.flashCollect
  repeat' first
  | intro _
  | with_reducible assumption
  | fail_if_no_progress extract_lets +onlyGivenNames z
    first
    | (refine (have hz : Keeps s z := ?_; ?_))
      subst z
      rotate_left
      try clear_value z
    | try clear_value z
  | with_reducible
      first
      | apply State.blkLevel_keeps | apply State.flView_keeps | apply State.blkReclaim_keeps
      | apply State.blkFail_keeps | apply State.each_keeps | apply keeps_ite | apply keeps_foldl
  | split

theorem State.flashWork_keeps {s t : State} (h : Keeps s t) :
    Keeps s (State.flashWork t) := by
  unfold State.flashWork
  repeat' first
  | intro _
  | with_reducible assumption
  | fail_if_no_progress extract_lets +onlyGivenNames z
    first
    | (refine (have hz : Keeps s z := ?_; ?_))
      subst z
      rotate_left
      try clear_value z
    | try clear_value z
  | with_reducible
      first
      | apply State.useFree_keeps | apply State.put_keeps | apply State.lopProgress_keeps | apply keeps_ite
      | apply keeps_foldl
  | split

theorem State.axClear_keeps {s t : State} (h : Keeps s t) (a : Nat) :
    Keeps s (State.axClear t a) := by
  unfold State.axClear
  repeat' first
  | intro _
  | with_reducible assumption
  | fail_if_no_progress extract_lets +onlyGivenNames z
    first
    | (refine (have hz : Keeps s z := ?_; ?_))
      subst z
      rotate_left
      try clear_value z
    | try clear_value z
  | with_reducible
      first
      | apply State.resetFld_keeps | apply State.each_keeps | apply State.recReset_keeps
      | apply State.resetRange_keeps | apply keeps_ite | apply keeps_foldl
  | split
  | with_reducible apply keeps_mk

theorem State.axConfigured_keeps {s t : State} (h : Keeps s t) (p : List Nat) :
    Keeps s (State.axConfigured t p) := by
  unfold State.axConfigured
  repeat' first
  | intro _
  | with_reducible assumption
  | fail_if_no_progress extract_lets +onlyGivenNames z
    first
    | (refine (have hz : Keeps s z := ?_; ?_))
      subst z
      rotate_left
      try clear_value z
    | try clear_value z
  | with_reducible
      first
      | apply State.post_keeps | apply State.when_keeps | apply State.axisSeen_keeps | apply State.cfgStage_keeps
      | apply State.safeSync_keeps | apply State.axClear_keeps | apply State.resetRange_keeps
      | apply State.axBind_keeps | apply State.recFix_keeps | apply keeps_ite | apply keeps_foldl
  | split

theorem State.pagesFree_keeps {s t : State} (h : Keeps s t) (a : Nat) :
    Keeps s (State.pagesFree t a) := by
  unfold State.pagesFree
  repeat' first
  | intro _
  | with_reducible assumption
  | fail_if_no_progress extract_lets +onlyGivenNames z
    first
    | (refine (have hz : Keeps s z := ?_; ?_))
      subst z
      rotate_left
      try clear_value z
    | try clear_value z
  | with_reducible
      first
      | apply State.pageMark_keeps | apply State.put_keeps | apply State.when_keeps | apply State.each_keeps
      | apply State.probeFree_keeps | apply keeps_ite | apply keeps_foldl
  | split

theorem State.axAbsent_keeps {s t : State} (h : Keeps s t) (a : Nat) :
    Keeps s (State.axAbsent t a) := by
  unfold State.axAbsent
  repeat' first
  | intro _
  | with_reducible assumption
  | fail_if_no_progress extract_lets +onlyGivenNames z
    first
    | (refine (have hz : Keeps s z := ?_; ?_))
      subst z
      rotate_left
      try clear_value z
    | try clear_value z
  | with_reducible
      first
      | apply State.axClear_keeps | apply State.supUp_keeps | apply State.put_keeps | apply State.pagesFree_keeps
      | apply State.freeDesc_keeps | apply keeps_ite | apply keeps_foldl
  | split

theorem State.unwait_keeps {s t : State} (h : Keeps s t) (mb : Nat) :
    Keeps s (State.unwait t mb) := by
  unfold State.unwait
  repeat' first
  | intro _
  | with_reducible assumption
  | fail_if_no_progress extract_lets +onlyGivenNames z
    first
    | (refine (have hz : Keeps s z := ?_; ?_))
      subst z
      rotate_left
      try clear_value z
    | try clear_value z
  | with_reducible
      first
      | apply keeps_ite | apply keeps_foldl
  | split
  | with_reducible apply keeps_mk

theorem State.takeConfigured_keeps {s t : State} (h : Keeps s t) (a : Nat) (mb : Nat) :
    Keeps s (State.takeConfigured t a mb) := by
  unfold State.takeConfigured
  repeat' first
  | intro _
  | with_reducible assumption
  | fail_if_no_progress extract_lets +onlyGivenNames z
    first
    | (refine (have hz : Keeps s z := ?_; ?_))
      subst z
      rotate_left
      try clear_value z
    | try clear_value z
  | with_reducible
      first
      | apply State.axConfigured_keeps | apply State.dirty_keeps | apply State.done_keeps | apply State.fail_keeps
      | apply State.failSt_keeps | apply State.unwait_keeps | apply keeps_ite | apply keeps_foldl
  | split

theorem State.takeDeconfigured_keeps {s t : State} (h : Keeps s t) (a : Nat) (mb : Nat) :
    Keeps s (State.takeDeconfigured t a mb) := by
  unfold State.takeDeconfigured
  repeat' first
  | intro _
  | with_reducible assumption
  | fail_if_no_progress extract_lets +onlyGivenNames z
    first
    | (refine (have hz : Keeps s z := ?_; ?_))
      subst z
      rotate_left
      try clear_value z
    | try clear_value z
  | with_reducible
      first
      | apply State.axAbsent_keeps | apply State.dirty_keeps | apply State.done_keeps | apply State.fail_keeps
      | apply State.failSt_keeps | apply State.unwait_keeps | apply keeps_ite | apply keeps_foldl
  | split

theorem State.baseState_keeps {s t : State} (h : Keeps s t) :
    Keeps s (State.baseState t) := by
  unfold State.baseState
  repeat' first
  | intro _
  | with_reducible assumption
  | fail_if_no_progress extract_lets +onlyGivenNames z
    first
    | (refine (have hz : Keeps s z := ?_; ?_))
      subst z
      rotate_left
      try clear_value z
    | try clear_value z
  | with_reducible
      first
      | apply State.putWord_keeps | apply State.when_keeps | apply State.each_keeps | apply keeps_ite
      | apply keeps_foldl
  | split

theorem State.ovlPut_keeps {s t : State} (h : Keeps s t) (m : Nat) (es : List OvlEntry) :
    Keeps s (State.ovlPut t m es) := by
  unfold State.ovlPut
  repeat' first
  | intro _
  | with_reducible assumption
  | fail_if_no_progress extract_lets +onlyGivenNames z
    first
    | (refine (have hz : Keeps s z := ?_; ?_))
      subst z
      rotate_left
      try clear_value z
    | try clear_value z
  | with_reducible
      first
      | apply State.put_keeps | apply State.zeroRange_keeps | apply State.setBytes_keeps | apply keeps_ite
      | apply keeps_foldl
  | split

theorem State.ovlPlain_keeps {s t : State} (h : Keeps s t) :
    Keeps s (State.ovlPlain t) := by
  unfold State.ovlPlain
  repeat' first
  | intro _
  | with_reducible assumption
  | fail_if_no_progress extract_lets +onlyGivenNames z
    first
    | (refine (have hz : Keeps s z := ?_; ?_))
      subst z
      rotate_left
      try clear_value z
    | try clear_value z
  | with_reducible
      first
      | apply State.ovlPut_keeps | apply State.each_keeps | apply keeps_ite | apply keeps_foldl
  | split

theorem State.ovlFromStore_keeps {s t : State} (h : Keeps s t) :
    Keeps s (State.ovlFromStore t) := by
  unfold State.ovlFromStore
  repeat' first
  | intro _
  | with_reducible assumption
  | fail_if_no_progress extract_lets +onlyGivenNames z
    first
    | (refine (have hz : Keeps s z := ?_; ?_))
      subst z
      rotate_left
      try clear_value z
    | try clear_value z
  | with_reducible
      first
      | apply State.ovlPut_keeps | apply State.each_keeps | apply keeps_ite | apply keeps_foldl
  | split

theorem State.ovlToStore_keeps {s t : State} (h : Keeps s t) :
    Keeps s (State.ovlToStore t) := by
  unfold State.ovlToStore
  repeat' first
  | intro _
  | with_reducible assumption
  | fail_if_no_progress extract_lets +onlyGivenNames z
    first
    | (refine (have hz : Keeps s z := ?_; ?_))
      subst z
      rotate_left
      try clear_value z
    | try clear_value z
  | with_reducible
      first
      | apply keeps_ite | apply keeps_foldl
  | split
  | with_reducible apply keeps_mk

theorem keeps_imgFold {s t : State} (h : Keeps s t) (l : List (Nat × Nat)) (m : List Host.Cell) :
    Keeps s { t with regs := l.foldl (fun r p => regSet r p.1 (p.2 + 1) p.2) t.regs
                     mem := m.foldl (fun x c => memSet x c.1 c.2) t.mem } :=
  keeps_memFold (keeps_regFold h _ l) m

theorem State.imgLoad_keeps {s t : State} (h : Keeps s t) (m : Image) :
    Keeps s (State.imgLoad t m) := by
  unfold State.imgLoad
  repeat' first
  | intro _
  | with_reducible assumption
  | fail_if_no_progress extract_lets +onlyGivenNames z
    first
    | (refine (have hz : Keeps s z := ?_; ?_))
      subst z
      rotate_left
      try clear_value z
    | try clear_value z
  | with_reducible
      first
      | apply State.loadUpdate_keeps | apply State.when_keeps | apply State.put_keeps | apply State.recFix_keeps
      | apply State.relink_keeps | apply State.descStage_keeps | apply State.lffBind_keeps | apply State.lffShow_keeps
      | apply State.grpForm_keeps | apply State.axConfigured_keeps | apply State.each_keeps | apply keeps_imgFold
      | apply keeps_ite | apply keeps_foldl
  | split
  | with_reducible apply keeps_mk

theorem State.injPage_keeps {s t : State} (h : Keeps s t) :
    Keeps s (State.injPage t) := by
  unfold State.injPage
  repeat' first
  | intro _
  | with_reducible assumption
  | fail_if_no_progress extract_lets +onlyGivenNames z
    first
    | (refine (have hz : Keeps s z := ?_; ?_))
      subst z
      rotate_left
      try clear_value z
    | try clear_value z
  | with_reducible
      first
      | apply State.put_keeps | apply State.injFired_keeps | apply State.report_keeps | apply keeps_ite
      | apply keeps_foldl
  | split
  | with_reducible apply keeps_mk

theorem State.bootImage_keeps {s t : State} (h : Keeps s t) :
    Keeps s (State.bootImage t) := by
  unfold State.bootImage
  repeat' first
  | intro _
  | with_reducible assumption
  | fail_if_no_progress extract_lets +onlyGivenNames z
    first
    | (refine (have hz : Keeps s z := ?_; ?_))
      subst z
      rotate_left
      try clear_value z
    | try clear_value z
  | with_reducible
      first
      | apply State.imgLoad_keeps | apply State.put_keeps | apply State.when_keeps | apply State.injPage_keeps
      | apply keeps_ite | apply keeps_foldl
  | split

theorem State.commitSnap_keeps {s t : State} (h : Keeps s t) :
    Keeps s (State.commitSnap t) := by
  unfold State.commitSnap
  repeat' first
  | intro _
  | with_reducible assumption
  | fail_if_no_progress extract_lets +onlyGivenNames z
    first
    | (refine (have hz : Keeps s z := ?_; ?_))
      subst z
      rotate_left
      try clear_value z
    | (refine (have hz : Keeps s z.1 := ?_; ?_))
      subst z
      rotate_left
      try clear_value z
    | (refine (have hz : Keeps s z.2 := ?_; ?_))
      subst z
      rotate_left
      try clear_value z
    | try clear_value z
  | with_reducible
      first
      | apply State.flView_keeps | apply State.put_keeps | apply State.pagesTake_keeps
      | apply State.flashCollect_keeps | apply State.when_keeps | apply State.useFree_keeps | apply keeps_ite
      | apply keeps_foldl
  | split
  | with_reducible apply keeps_mk

theorem State.commitLost_keeps {s t : State} (h : Keeps s t) :
    Keeps s (State.commitLost t) := by
  unfold State.commitLost
  repeat' first
  | intro _
  | with_reducible assumption
  | fail_if_no_progress extract_lets +onlyGivenNames z
    first
    | (refine (have hz : Keeps s z := ?_; ?_))
      subst z
      rotate_left
      try clear_value z
    | try clear_value z
  | with_reducible
      first
      | apply State.put_keeps | apply State.when_keeps | apply keeps_ite | apply keeps_foldl
  | split
  | with_reducible apply keeps_mk

theorem State.resetList_keeps {s t : State} (h : Keeps s t) (fs : List Fld) :
    Keeps s (State.resetList t fs) := by
  unfold State.resetList
  repeat' first
  | intro _
  | with_reducible assumption
  | fail_if_no_progress extract_lets +onlyGivenNames z
    first
    | (refine (have hz : Keeps s z := ?_; ?_))
      subst z
      rotate_left
      try clear_value z
    | try clear_value z
  | with_reducible
      first
      | apply State.resetFld_keeps | apply State.each_keeps | apply keeps_ite | apply keeps_foldl
  | split

theorem State.keepList_keeps {s t : State} (h : Keeps s t) (y1 : State) (fs : List Fld) :
    Keeps s (State.keepList t y1 fs) := by
  unfold State.keepList
  repeat' first
  | intro _
  | with_reducible assumption
  | fail_if_no_progress extract_lets +onlyGivenNames z
    first
    | (refine (have hz : Keeps s z := ?_; ?_))
      subst z
      rotate_left
      try clear_value z
    | try clear_value z
  | with_reducible
      first
      | apply State.put_keeps | apply State.each_keeps | apply keeps_ite | apply keeps_foldl
  | split

theorem State.keepRange_keeps {s t : State} (h : Keeps s t) (y1 : State) (lo : Nat) (hi : Nat) :
    Keeps s (State.keepRange t y1 lo hi) := by
  unfold State.keepRange
  repeat' first
  | intro _
  | with_reducible assumption
  | fail_if_no_progress extract_lets +onlyGivenNames z
    first
    | (refine (have hz : Keeps s z := ?_; ?_))
      subst z
      rotate_left
      try clear_value z
    | try clear_value z
  | with_reducible
      first
      | apply State.resetRange_keeps | apply keeps_regFold | apply keeps_ite | apply keeps_foldl
  | split
  | with_reducible apply keeps_mk

theorem State.keepMem_keeps {s t : State} (h : Keeps s t) (y1 : State) (lo : Nat) (hi : Nat) :
    Keeps s (State.keepMem t y1 lo hi) := by
  unfold State.keepMem
  repeat' first
  | intro _
  | with_reducible assumption
  | fail_if_no_progress extract_lets +onlyGivenNames z
    first
    | (refine (have hz : Keeps s z := ?_; ?_))
      subst z
      rotate_left
      try clear_value z
    | try clear_value z
  | with_reducible
      first
      | apply State.zeroRange_keeps | apply keeps_memFold | apply keeps_ite | apply keeps_foldl
  | split
  | with_reducible apply keeps_mk

theorem State.hostReset_keeps {s t : State} (h : Keeps s t) :
    Keeps s (State.hostReset t) := by
  unfold State.hostReset
  repeat' first
  | intro _
  | with_reducible assumption
  | fail_if_no_progress extract_lets +onlyGivenNames z
    first
    | (refine (have hz : Keeps s z := ?_; ?_))
      subst z
      rotate_left
      try clear_value z
    | try clear_value z
  | with_reducible
      first
      | apply State.put_keeps | apply State.resetList_keeps | apply State.resetRange_keeps | apply keeps_ite
      | apply keeps_foldl
  | split

theorem State.clkHold_keeps {s t : State} (h : Keeps s t) :
    Keeps s (State.clkHold t) := by
  unfold State.clkHold
  repeat' first
  | intro _
  | with_reducible assumption
  | fail_if_no_progress extract_lets +onlyGivenNames z
    first
    | (refine (have hz : Keeps s z := ?_; ?_))
      subst z
      rotate_left
      try clear_value z
    | try clear_value z
  | with_reducible
      first
      | apply State.clearBit_keeps | apply keeps_ite | apply keeps_foldl
  | split

theorem State.clkLoss_keeps {s t : State} (h : Keeps s t) (k : Nat) :
    Keeps s (State.clkLoss t k) := by
  unfold State.clkLoss
  repeat' first
  | intro _
  | with_reducible assumption
  | fail_if_no_progress extract_lets +onlyGivenNames z
    first
    | (refine (have hz : Keeps s z := ?_; ?_))
      subst z
      rotate_left
      try clear_value z
    | try clear_value z
  | with_reducible
      first
      | apply State.hostReset_keeps | apply State.linkDown_keeps | apply State.each_keeps | apply State.laneLost_keeps
      | apply State.wdExpire_keeps | apply State.rejoinFail_keeps | apply State.fsEnter_keeps
      | apply State.setRole_keeps | apply State.ownFault_keeps | apply State.clearBit_keeps | apply State.put_keeps
      | apply State.orBit_keeps | apply State.report_keeps | apply keeps_ite | apply keeps_foldl
  | split

theorem State.clkBack_keeps {s t : State} (h : Keeps s t) (k : Nat) :
    Keeps s (State.clkBack t k) := by
  unfold State.clkBack
  repeat' first
  | intro _
  | with_reducible assumption
  | fail_if_no_progress extract_lets +onlyGivenNames z
    first
    | (refine (have hz : Keeps s z := ?_; ?_))
      subst z
      rotate_left
      try clear_value z
    | try clear_value z
  | with_reducible
      first
      | apply State.clkHold_keeps | apply State.orBit_keeps | apply State.clearBit_keeps | apply State.put_keeps
      | apply keeps_ite | apply keeps_foldl
  | split

theorem State.injEnd_keeps {s t : State} (h : Keeps s t) (x : InjSlot) :
    Keeps s (State.injEnd t x) := by
  unfold State.injEnd
  repeat' first
  | intro _
  | with_reducible assumption
  | fail_if_no_progress extract_lets +onlyGivenNames z
    first
    | (refine (have hz : Keeps s z := ?_; ?_))
      subst z
      rotate_left
      try clear_value z
    | try clear_value z
  | with_reducible
      first
      | apply State.put_keeps | apply State.each_keeps | apply State.clearBit_keeps | apply State.clkBack_keeps
      | apply State.when_keeps | apply keeps_ite | apply keeps_foldl
  | split

theorem State.disarm_keeps {s t : State} (h : Keeps s t) (p : Nat → Bool) :
    Keeps s (State.disarm t p) := by
  unfold State.disarm
  repeat' first
  | intro _
  | with_reducible assumption
  | fail_if_no_progress extract_lets +onlyGivenNames z
    first
    | (refine (have hz : Keeps s z := ?_; ?_))
      subst z
      rotate_left
      try clear_value z
    | try clear_value z
  | with_reducible
      first
      | apply State.put_keeps | apply State.injEnd_keeps | apply State.each_keeps | apply keeps_ite
      | apply keeps_foldl
  | split
  | with_reducible apply keeps_mk

theorem State.haltShow_keeps {s t : State} (h : Keeps s t) :
    Keeps s (State.haltShow t) := by
  unfold State.haltShow
  repeat' first
  | intro _
  | with_reducible assumption
  | fail_if_no_progress extract_lets +onlyGivenNames z
    first
    | (refine (have hz : Keeps s z := ?_; ?_))
      subst z
      rotate_left
      try clear_value z
    | try clear_value z
  | with_reducible
      first
      | apply State.clearBit_keeps | apply State.put_keeps | apply keeps_ite | apply keeps_foldl
  | split

theorem State.lopRestart_keeps {s t : State} (h : Keeps s t) (opc : Nat) (idx : Nat) :
    Keeps s (State.lopRestart t opc idx) := by
  unfold State.lopRestart
  repeat' first
  | intro _
  | with_reducible assumption
  | fail_if_no_progress extract_lets +onlyGivenNames z
    first
    | (refine (have hz : Keeps s z := ?_; ?_))
      subst z
      rotate_left
      try clear_value z
    | try clear_value z
  | with_reducible
      first
      | apply State.clearBit_keeps | apply State.commitLost_keeps | apply State.relink_keeps | apply State.store_keeps
      | apply State.freeDesc_keeps | apply State.quickStop_keeps | apply State.when_keeps
      | apply State.homingOff_keeps | apply State.put_keeps | apply State.evAdd_keeps | apply keeps_ite
      | apply keeps_foldl
  | split

theorem State.fwPick_keeps {s t : State} (h : Keeps s t) :
    Keeps s (State.fwPick t) := by
  unfold State.fwPick
  dsimp only
  repeat' first
  | intro _
  | with_reducible assumption
  | with_reducible
      first
      | apply State.when_keeps | apply State.put_keeps | apply keeps_ite | apply keeps_foldl
  | split

theorem State.sessionEnd_keeps {s t : State} (h : Keeps s t) :
    Keeps s (State.sessionEnd t) := by
  unfold State.sessionEnd
  repeat' first
  | intro _
  | with_reducible assumption
  | fail_if_no_progress extract_lets +onlyGivenNames z
    first
    | (refine (have hz : Keeps s z := ?_; ?_))
      subst z
      rotate_left
      try clear_value z
    | try clear_value z
  | with_reducible
      first
      | apply State.put_keeps | apply keeps_ite | apply keeps_foldl
  | split

theorem State.mgmtReset_keeps {s t : State} (h : Keeps s t) :
    Keeps s (State.mgmtReset t) := by
  unfold State.mgmtReset
  repeat' first
  | intro _
  | with_reducible assumption
  | fail_if_no_progress extract_lets +onlyGivenNames z
    first
    | (refine (have hz : Keeps s z := ?_; ?_))
      subst z
      rotate_left
      try clear_value z
    | try clear_value z
  | with_reducible
      first
      | apply State.sumUp_keeps | apply State.haltShow_keeps | apply State.fwPick_keeps | apply State.lopRestart_keeps
      | apply State.each_keeps | apply State.fioRestart_keeps | apply State.put_keeps | apply State.clearBit_keeps
      | apply State.resetList_keeps | apply State.resetRange_keeps | apply State.disarm_keeps
      | apply State.sessionEnd_keeps | apply State.cause_keeps | apply State.when_keeps | apply keeps_noTags
      | apply keeps_ite | apply keeps_foldl
  | split
  | with_reducible apply keeps_mk

theorem State.scStart_keeps {s t : State} (h : Keeps s t) :
    Keeps s (State.scStart t) := by
  unfold State.scStart
  repeat' first
  | intro _
  | with_reducible assumption
  | fail_if_no_progress extract_lets +onlyGivenNames z
    first
    | (refine (have hz : Keeps s z := ?_; ?_))
      subst z
      rotate_left
      try clear_value z
    | try clear_value z
  | with_reducible
      first
      | apply State.fsEnter_keeps | apply State.safChannels_keeps | apply State.connStart_keeps
      | apply State.when_keeps | apply State.sgNone_keeps | apply State.clearBit_keeps | apply State.orBit_keeps
      | apply State.each_keeps | apply State.safWith_keeps | apply State.put_keeps | apply keeps_ite
      | apply keeps_foldl
  | split

theorem State.safeReset_keeps {s t : State} (h : Keeps s t) :
    Keeps s (State.safeReset t) := by
  unfold State.safeReset
  repeat' first
  | intro _
  | with_reducible assumption
  | fail_if_no_progress extract_lets +onlyGivenNames z
    first
    | (refine (have hz : Keeps s z := ?_; ?_))
      subst z
      rotate_left
      try clear_value z
    | try clear_value z
  | with_reducible
      first
      | apply State.haltShow_keeps | apply State.scStart_keeps | apply State.resetRange_keeps
      | apply State.resetList_keeps | apply State.put_keeps | apply keeps_ite | apply keeps_foldl
  | split

theorem State.drvReset_keeps {s t : State} (h : Keeps s t) :
    Keeps s (State.drvReset t) := by
  unfold State.drvReset
  repeat' first
  | intro _
  | with_reducible assumption
  | fail_if_no_progress extract_lets +onlyGivenNames z
    first
    | (refine (have hz : Keeps s z := ?_; ?_))
      subst z
      rotate_left
      try clear_value z
    | try clear_value z
  | with_reducible
      first
      | apply State.post_keeps | apply State.when_keeps | apply State.put_keeps | apply State.each_keeps
      | apply State.keepList_keeps | apply State.resetRange_keeps | apply State.resetList_keeps | apply keeps_ite
      | apply keeps_foldl
  | split

theorem State.engReset_keeps {s t : State} (h : Keeps s t) (q : Nat) :
    Keeps s (State.engReset t q) := by
  unfold State.engReset
  repeat' first
  | intro _
  | with_reducible assumption
  | fail_if_no_progress extract_lets +onlyGivenNames z
    first
    | (refine (have hz : Keeps s z := ?_; ?_))
      subst z
      rotate_left
      try clear_value z
    | try clear_value z
  | with_reducible
      first
      | apply State.setEngSt_keeps | apply State.setService_keeps | apply State.put_keeps | apply State.resetFld_keeps
      | apply State.engStop_keeps | apply State.progReload_keeps | apply State.each_keeps | apply State.haltShow_keeps
      | apply keeps_ite | apply keeps_foldl
  | split
  | with_reducible apply keeps_mk

theorem State.netReset_keeps {s t : State} (h : Keeps s t) :
    Keeps s (State.netReset t) := by
  unfold State.netReset
  repeat' first
  | intro _
  | with_reducible assumption
  | fail_if_no_progress extract_lets +onlyGivenNames z
    first
    | (refine (have hz : Keeps s z := ?_; ?_))
      subst z
      rotate_left
      try clear_value z
    | try clear_value z
  | with_reducible
      first
      | apply State.post_keeps | apply State.each_keeps | apply State.cause_keeps | apply State.put_keeps
      | apply State.when_keeps | apply State.resetList_keeps | apply State.resetRange_keeps | apply keeps_noCaps
      | apply keeps_ite | apply keeps_foldl
  | split
  | with_reducible apply keeps_mk

theorem State.storeReset_keeps {s t : State} (h : Keeps s t) :
    Keeps s (State.storeReset t) := by
  unfold State.storeReset
  repeat' first
  | intro _
  | with_reducible assumption
  | fail_if_no_progress extract_lets +onlyGivenNames z
    first
    | (refine (have hz : Keeps s z := ?_; ?_))
      subst z
      rotate_left
      try clear_value z
    | try clear_value z
  | with_reducible
      first
      | apply State.resetList_keeps | apply State.resetRange_keeps | apply State.axAbsent_keeps
      | apply State.each_keeps | apply keeps_noTrc | apply keeps_ite | apply keeps_foldl
  | split
  | with_reducible apply keeps_mk

theorem State.newChal_keeps {s t : State} (h : Keeps s t) :
    Keeps s (State.newChal t) := by
  unfold State.newChal
  repeat' first
  | intro _
  | with_reducible assumption
  | fail_if_no_progress extract_lets +onlyGivenNames z
    first
    | (refine (have hz : Keeps s z := ?_; ?_))
      subst z
      rotate_left
      try clear_value z
    | try clear_value z
  | with_reducible
      first
      | apply State.put_keeps | apply State.useFree_keeps | apply State.each_keeps | apply keeps_ite
      | apply keeps_foldl
  | split

theorem State.romStart_keeps {s t : State} (h : Keeps s t) :
    Keeps s (State.romStart t) := by
  unfold State.romStart
  repeat' first
  | intro _
  | with_reducible assumption
  | fail_if_no_progress extract_lets +onlyGivenNames z
    first
    | (refine (have hz : Keeps s z := ?_; ?_))
      subst z
      rotate_left
      try clear_value z
    | try clear_value z
  | with_reducible
      first
      | apply State.put_keeps | apply keeps_ite | apply keeps_foldl
  | split

theorem State.trialLost_keeps {s t : State} (h : Keeps s t) :
    Keeps s (State.trialLost t) := by
  unfold State.trialLost
  repeat' first
  | intro _
  | with_reducible assumption
  | fail_if_no_progress extract_lets +onlyGivenNames z
    first
    | (refine (have hz : Keeps s z := ?_; ?_))
      subst z
      rotate_left
      try clear_value z
    | try clear_value z
  | with_reducible
      first
      | apply State.put_keeps | apply keeps_ite | apply keeps_foldl
  | split

theorem State.reset_inv : State.reset.Inv :=
  ⟨rfl, rfl, Nat.zero_le _, Nat.zero_le _, fun _ => Nat.zero_le _, fun _ => Nat.zero_le _⟩

theorem keeps_fresh {s t : State} (h : Keeps s t) {msix : List Nat} {images : List Image} {safOvl : List SafEntry} :
    Keeps s { State.reset with pending := t.pending, msix := msix, images := images, safOvl := safOvl } :=
  ⟨h.pending, fun _ => ⟨State.reset_inv.regs, State.reset_inv.mem, State.reset_inv.evlog, State.reset_inv.trc,
    State.reset_inv.tags, State.reset_inv.caps⟩⟩

theorem State.flashKept_keeps {s t : State} (h : Keeps s t) : Keeps s (State.flashKept t) := by
  unfold State.flashKept
  extract_lets +onlyGivenNames z1 z2 z0 z3 z4 z5 z6 sec
  have h1 : Keeps s z1 := State.trialLost_keeps (State.commitLost_keeps h)
  have h2 : Keeps s z2 := State.when_keeps h1 (fun t ht => State.clearBit_keeps ht ..) _
  have h3 : Keeps s z3 := keeps_fresh h2
  have h4 : Keeps s z4 := State.keepList_keeps (State.keepList_keeps h3 ..) ..
  have h5 : Keeps s z5 := State.keepMem_keeps (State.keepMem_keeps h4 ..) ..
  have h6 : Keeps s z6 := State.keepMem_keeps h5 ..
  exact State.keepList_keeps (State.put_keeps h6 ..) ..

theorem State.powerReset_keeps {s t : State} (h : Keeps s t) :
    Keeps s (State.powerReset t) := by
  unfold State.powerReset
  repeat' first
  | intro _
  | with_reducible assumption
  | fail_if_no_progress extract_lets +onlyGivenNames z
    first
    | (refine (have hz : Keeps s z := ?_; ?_))
      subst z
      rotate_left
      try clear_value z
    | try clear_value z
  | with_reducible
      first
      | apply State.flashKept_keeps | apply State.newChal_keeps | apply keeps_ite | apply keeps_foldl
  | split

theorem State.warmReset_keeps {s t : State} (h : Keeps s t) (cause : Nat) :
    Keeps s (State.warmReset t cause) := by
  unfold State.warmReset
  repeat' first
  | intro _
  | with_reducible assumption
  | fail_if_no_progress extract_lets +onlyGivenNames z
    first
    | (refine (have hz : Keeps s z := ?_; ?_))
      subst z
      rotate_left
      try clear_value z
    | try clear_value z
  | with_reducible
      first
      | apply State.orBit_keeps | apply State.newChal_keeps | apply State.when_keeps | apply State.put_keeps
      | apply State.flashKept_keeps | apply State.keepRange_keeps | apply keeps_ite | apply keeps_foldl
  | split

theorem State.errAdd_keeps {s t : State} (h : Keeps s t) (arr : Nat) (off : Nat) (n : Nat) :
    Keeps s (State.errAdd t arr off n) := by
  unfold State.errAdd
  repeat' first
  | intro _
  | with_reducible assumption
  | fail_if_no_progress extract_lets +onlyGivenNames z
    first
    | (refine (have hz : Keeps s z := ?_; ?_))
      subst z
      rotate_left
      try clear_value z
    | try clear_value z
  | with_reducible
      first
      | apply State.errFix_keeps | apply keeps_ite | apply keeps_foldl
  | split
  | with_reducible apply keeps_mk

theorem State.lockstepFail_keeps {s t : State} (h : Keeps s t) (inj : Bool) : Keeps s (State.lockstepFail t inj) := by
  unfold State.lockstepFail
  extract_lets +onlyGivenNames z
  have hz : Keeps s z :=
    State.report_keeps (State.orBit_keeps (State.mgmtReset_keeps (State.ownFault_keeps h)) ..) ..
  clear_value z
  split
  · have hp : Keeps s (z.put R.INT_DET_INJ 1 9) := State.put_keeps hz ..
    refine hp.trans ⟨rfl, fun i => ⟨i.regs, i.mem, ?_, i.trc, i.tags, i.caps⟩⟩
    have he : z.evlog.length ≤ 256 := i.evlog
    dsimp only
    split <;> rename_i hq <;> rw [hq] at he
    · simpa using he
    · simp
  · exact hz

theorem State.injApply_keeps {s t : State} (h : Keeps s t) (x : InjSlot) :
    Keeps s (State.injApply t x) := by
  unfold State.injApply
  repeat' first
  | intro _
  | with_reducible assumption
  | fail_if_no_progress extract_lets +onlyGivenNames z
    first
    | (refine (have hz : Keeps s z := ?_; ?_))
      subst z
      rotate_left
      try clear_value z
    | try clear_value z
  | with_reducible
      first
      | apply State.orBit_keeps | apply State.gateFault_keeps | apply State.clkLoss_keeps
      | apply State.lockstepFail_keeps | apply State.put_keeps | apply State.errAdd_keeps | apply keeps_ite
      | apply keeps_foldl
  | split

theorem State.injOnce_keeps {s t : State} (h : Keeps s t) (x : InjSlot) (n : Nat) :
    Keeps s (State.injOnce t x n) := by
  unfold State.injOnce
  repeat' first
  | intro _
  | with_reducible assumption
  | fail_if_no_progress extract_lets +onlyGivenNames z
    first
    | (refine (have hz : Keeps s z := ?_; ?_))
      subst z
      rotate_left
      try clear_value z
    | try clear_value z
  | with_reducible
      first
      | apply State.doneAll_keeps | apply State.injApply_keeps | apply State.when_keeps | apply State.put_keeps
      | apply keeps_ite | apply keeps_foldl
  | split
  | with_reducible apply keeps_mk

theorem State.injRun_keeps {s : State} (n k : Nat) : ∀ {t : State}, Keeps s t → Keeps s (State.injRun n k t) := by
  induction k with
  | zero => exact fun h => h
  | succ k ih =>
    intro t h
    unfold State.injRun
    split
    · exact h
    · exact ih (State.injOnce_keeps h ..)

theorem State.injDisarm_keeps {s t : State} (h : Keeps s t) (p : Nat → Bool) :
    Keeps s (State.injDisarm t p) := by
  unfold State.injDisarm
  repeat' first
  | intro _
  | with_reducible assumption
  | fail_if_no_progress extract_lets +onlyGivenNames z
    first
    | (refine (have hz : Keeps s z := ?_; ?_))
      subst z
      rotate_left
      try clear_value z
    | try clear_value z
  | with_reducible
      first
      | apply State.doneAll_keeps | apply State.disarm_keeps | apply State.each_keeps | apply keeps_ite
      | apply keeps_foldl
  | split

theorem State.injDone_keeps {s t : State} (h : Keeps s t) :
    Keeps s (State.injDone t) := by
  unfold State.injDone
  repeat' first
  | intro _
  | with_reducible assumption
  | fail_if_no_progress extract_lets +onlyGivenNames z
    first
    | (refine (have hz : Keeps s z := ?_; ?_))
      subst z
      rotate_left
      try clear_value z
    | try clear_value z
  | with_reducible
      first
      | apply State.put_keeps | apply State.each_keeps | apply keeps_ite | apply keeps_foldl
  | split
  | with_reducible apply keeps_mk

theorem State.injBoundary_keeps {s t : State} (h : Keeps s t) (n : Nat) :
    Keeps s (State.injBoundary t n) := by
  unfold State.injBoundary
  repeat' first
  | intro _
  | with_reducible assumption
  | fail_if_no_progress extract_lets +onlyGivenNames z
    first
    | (refine (have hz : Keeps s z := ?_; ?_))
      subst z
      rotate_left
      try clear_value z
    | try clear_value z
  | with_reducible
      first
      | apply State.injDone_keeps | apply State.injRun_keeps | apply State.clkBack_keeps | apply State.when_keeps
      | apply State.doneAll_keeps | apply State.each_keeps | apply State.injDisarm_keeps | apply keeps_ite
      | apply keeps_foldl
  | split

theorem State.clkStop_keeps {s t : State} (h : Keeps s t) (k : Nat) :
    Keeps s (State.clkStop t k) := by
  unfold State.clkStop
  repeat' first
  | intro _
  | with_reducible assumption
  | fail_if_no_progress extract_lets +onlyGivenNames z
    first
    | (refine (have hz : Keeps s z := ?_; ?_))
      subst z
      rotate_left
      try clear_value z
    | try clear_value z
  | with_reducible
      first
      | apply State.clkLoss_keeps | apply State.put_keeps | apply keeps_ite | apply keeps_foldl
  | split

theorem State.clkStart_keeps {s t : State} (h : Keeps s t) (k : Nat) :
    Keeps s (State.clkStart t k) := by
  unfold State.clkStart
  repeat' first
  | intro _
  | with_reducible assumption
  | fail_if_no_progress extract_lets +onlyGivenNames z
    first
    | (refine (have hz : Keeps s z := ?_; ?_))
      subst z
      rotate_left
      try clear_value z
    | try clear_value z
  | with_reducible
      first
      | apply State.put_keeps | apply State.clkBack_keeps | apply keeps_ite | apply keeps_foldl
  | split

theorem State.clkResets_keeps {s t : State} (h : Keeps s t) (k : Nat) :
    Keeps s (State.clkResets t k) := by
  unfold State.clkResets
  dsimp only
  repeat' first
  | intro _
  | with_reducible assumption
  | with_reducible
      first
      | apply State.when_keeps | apply State.safeReset_keeps | apply State.hostReset_keeps
      | apply State.mgmtReset_keeps | apply State.drvReset_keeps | apply State.engReset_keeps
      | apply State.netReset_keeps | apply State.storeReset_keeps | apply State.each_keeps | apply keeps_ite
      | apply keeps_foldl
  | split

theorem State.engDouble_keeps {s t : State} (h : Keeps s t) (q : Nat) (off : Nat) : Keeps s (State.engDouble t q off) := by
  unfold State.engDouble
  extract_lets +onlyGivenNames e m z z2
  have hz : Keeps s z := State.errDouble_keeps h ..
  refine State.errFix_keeps ?_ ..
  subst z2
  split
  · refine State.affClear_keeps ?_ _
    cases z.slotOf e _ with
    | none => exact hz
    | some k => exact State.slotDrop_keeps hz ..
  · exact State.progReload_keeps (State.engTest_keeps (State.engStop_keeps hz _) _) _

theorem State.queueDouble_keeps {s t : State} (h : Keeps s t) (off : Nat) :
    Keeps s (State.queueDouble t off) := by
  unfold State.queueDouble
  repeat' first
  | intro _
  | with_reducible assumption
  | fail_if_no_progress extract_lets +onlyGivenNames z
    first
    | (refine (have hz : Keeps s z := ?_; ?_))
      subst z
      rotate_left
      try clear_value z
    | try clear_value z
  | with_reducible
      first
      | apply State.flushSegs_keeps | apply State.quickStop_keeps | apply State.lffClear_keeps
      | apply State.useFree_keeps | apply State.errDouble_keeps | apply State.put_keeps | apply State.errFix_keeps
      | apply keeps_ite | apply keeps_foldl
  | split

theorem State.scrubDouble_keeps {s t : State} (h : Keeps s t) (arr : Nat) (off : Nat) :
    Keeps s (State.scrubDouble t arr off) := by
  unfold State.scrubDouble
  repeat' first
  | intro _
  | with_reducible assumption
  | fail_if_no_progress extract_lets +onlyGivenNames z
    first
    | (refine (have hz : Keeps s z := ?_; ?_))
      subst z
      rotate_left
      try clear_value z
    | try clear_value z
  | with_reducible
      first
      | apply State.scFault_keeps | apply State.zeroRange_keeps | apply State.mgmtReset_keeps
      | apply State.orBit_keeps | apply State.useFree_keeps | apply State.loadUpdate_keeps
      | apply State.storeDouble_keeps | apply State.errDouble_keeps | apply State.put_keeps | apply State.errFix_keeps
      | apply State.queueDouble_keeps | apply State.engDouble_keeps | apply keeps_ite | apply keeps_foldl
  | split

theorem State.scrubWord_keeps {s t : State} (h : Keeps s t) (arr : Nat) (off : Nat) :
    Keeps s (State.scrubWord t arr off) := by
  unfold State.scrubWord
  repeat' first
  | intro _
  | with_reducible assumption
  | fail_if_no_progress extract_lets +onlyGivenNames z
    first
    | (refine (have hz : Keeps s z := ?_; ?_))
      subst z
      rotate_left
      try clear_value z
    | try clear_value z
  | with_reducible
      first
      | apply State.scrubDouble_keeps | apply State.errSingle_keeps | apply keeps_ite | apply keeps_foldl
  | split

theorem State.scrubLate_keeps {s t : State} (h : Keeps s t) (arr : Nat) :
    Keeps s (State.scrubLate t arr) := by
  unfold State.scrubLate
  repeat' first
  | intro _
  | with_reducible assumption
  | fail_if_no_progress extract_lets +onlyGivenNames z
    first
    | (refine (have hz : Keeps s z := ?_; ?_))
      subst z
      rotate_left
      try clear_value z
    | try clear_value z
  | with_reducible
      first
      | apply State.put_keeps | apply State.report_keeps | apply keeps_ite | apply keeps_foldl
  | split

theorem State.scrubStep_keeps {s t : State} (h : Keeps s t) (arr : Nat) :
    Keeps s (State.scrubStep t arr) := by
  unfold State.scrubStep
  repeat' first
  | intro _
  | with_reducible assumption
  | fail_if_no_progress extract_lets +onlyGivenNames z
    first
    | (refine (have hz : Keeps s z := ?_; ?_))
      subst z
      rotate_left
      try clear_value z
    | try clear_value z
  | with_reducible
      first
      | apply State.scrubWord_keeps | apply State.each_keeps | apply State.incWrap_keeps | apply State.when_keeps
      | apply State.put_keeps | apply State.scrubLate_keeps | apply keeps_ite | apply keeps_foldl
  | split

theorem State.telWarn_keeps {s t : State} (h : Keeps s t) (have_ : Fld) (flag : Fld) (det : Nat) (i : Nat) (out :
    Bool) (back : Bool) (info : Nat) :
    Keeps s (State.telWarn t have_ flag det i out back info) := by
  unfold State.telWarn
  repeat' first
  | intro _
  | with_reducible assumption
  | fail_if_no_progress extract_lets +onlyGivenNames z
    first
    | (refine (have hz : Keeps s z := ?_; ?_))
      subst z
      rotate_left
      try clear_value z
    | try clear_value z
  | with_reducible
      first
      | apply State.clearBit_keeps | apply State.orBit_keeps | apply State.put_keeps | apply State.report_keeps
      | apply keeps_ite | apply keeps_foldl
  | split

theorem State.telTemp_keeps {s t : State} (h : Keeps s t) (y1 : Nat) (v : Nat) :
    Keeps s (State.telTemp t y1 v) := by
  unfold State.telTemp
  repeat' first
  | intro _
  | with_reducible assumption
  | fail_if_no_progress extract_lets +onlyGivenNames z
    first
    | (refine (have hz : Keeps s z := ?_; ?_))
      subst z
      rotate_left
      try clear_value z
    | try clear_value z
  | with_reducible
      first
      | apply State.puti_keeps | apply State.telWarn_keeps | apply keeps_ite | apply keeps_foldl
  | split

theorem State.telRail_keeps {s t : State} (h : Keeps s t) (r : Nat) (v : Nat) :
    Keeps s (State.telRail t r v) := by
  unfold State.telRail
  repeat' first
  | intro _
  | with_reducible assumption
  | fail_if_no_progress extract_lets +onlyGivenNames z
    first
    | (refine (have hz : Keeps s z := ?_; ?_))
      subst z
      rotate_left
      try clear_value z
    | try clear_value z
  | with_reducible
      first
      | apply State.puti_keeps | apply State.telWarn_keeps | apply keeps_ite | apply keeps_foldl
  | split

theorem State.telEye_keeps {s t : State} (h : Keeps s t) (l : Nat) (h1 : Nat) (v : Nat) :
    Keeps s (State.telEye t l h1 v) := by
  unfold State.telEye
  repeat' first
  | intro _
  | with_reducible assumption
  | fail_if_no_progress extract_lets +onlyGivenNames z
    first
    | (refine (have hz : Keeps s z := ?_; ?_))
      subst z
      rotate_left
      try clear_value z
    | try clear_value z
  | with_reducible
      first
      | apply State.put_keeps | apply State.telWarn_keeps | apply keeps_ite | apply keeps_foldl
  | split

theorem State.telCrit_keeps {s t : State} (h : Keeps s t) :
    Keeps s (State.telCrit t) := by
  unfold State.telCrit
  repeat' first
  | intro _
  | with_reducible assumption
  | fail_if_no_progress extract_lets +onlyGivenNames z
    first
    | (refine (have hz : Keeps s z := ?_; ?_))
      subst z
      rotate_left
      try clear_value z
    | try clear_value z
  | with_reducible
      first
      | apply State.orBit_keeps | apply State.fsEnter_keeps | apply State.put_keeps | apply State.clearBit_keeps
      | apply keeps_ite | apply keeps_foldl
  | split

theorem State.telConfigs_keeps {s t : State} (h : Keeps s t) :
    Keeps s (State.telConfigs t) := by
  unfold State.telConfigs
  repeat' first
  | intro _
  | with_reducible assumption
  | fail_if_no_progress extract_lets +onlyGivenNames z
    first
    | (refine (have hz : Keeps s z := ?_; ?_))
      subst z
      rotate_left
      try clear_value z
    | try clear_value z
  | with_reducible
      first
      | apply State.done_keeps | apply State.put_keeps | apply State.each_keeps | apply keeps_ite | apply keeps_foldl
  | split

theorem State.telMeasure_keeps {s t : State} (h : Keeps s t) (temps : List Nat) (rails : List Nat) (eyeH : List Nat)
    (eyeV : List Nat) :
    Keeps s (State.telMeasure t temps rails eyeH eyeV) := by
  unfold State.telMeasure
  repeat' first
  | intro _
  | with_reducible assumption
  | fail_if_no_progress extract_lets +onlyGivenNames z
    first
    | (refine (have hz : Keeps s z := ?_; ?_))
      subst z
      rotate_left
      try clear_value z
    | try clear_value z
  | with_reducible
      first
      | apply State.telCrit_keeps | apply State.put_keeps | apply State.telEye_keeps | apply State.telRail_keeps
      | apply State.telTemp_keeps | apply State.each_keeps | apply State.telConfigs_keeps | apply keeps_ite
      | apply keeps_foldl
  | split

theorem State.convCal_keeps {s t : State} (h : Keeps s t) (ch : Nat) (ofs : Int) (gain : Int) :
    Keeps s (State.convCal t ch ofs gain) := by
  unfold State.convCal
  repeat' first
  | intro _
  | with_reducible assumption
  | fail_if_no_progress extract_lets +onlyGivenNames z
    first
    | (refine (have hz : Keeps s z := ?_; ?_))
      subst z
      rotate_left
      try clear_value z
    | try clear_value z
  | with_reducible
      first
      | apply State.report_keeps | apply State.when_keeps | apply State.put_keeps | apply State.puti_keeps
      | apply keeps_ite | apply keeps_foldl
  | split

theorem execScrub_keeps {s t : State} (h : Keeps s t) (arr : Nat) :
    KeepsOut s (execScrub arr t) := by
  unfold execScrub
  repeat' first
  | intro _
  | with_reducible assumption
  | fail_if_no_progress extract_lets +onlyGivenNames z
    first
    | (refine (have hz : Keeps s z := ?_; ?_))
      subst z
      rotate_left
      try clear_value z
    | try clear_value z
  | with_reducible
      first
      | apply keepsOut_next | apply State.scrubStep_keeps | apply State.put_keeps | apply keeps_ite
      | apply keeps_foldl
  | split

theorem execConverterCalibration_keeps {s t : State} (h : Keeps s t) (ch : Nat) (ofs : Int) (gain : Int) (stale :
    Bool) :
    KeepsOut s (execConverterCalibration ch ofs gain stale t) := by
  unfold execConverterCalibration
  repeat' first
  | intro _
  | with_reducible assumption
  | fail_if_no_progress extract_lets +onlyGivenNames z
    first
    | (refine (have hz : Keeps s z := ?_; ?_))
      subst z
      rotate_left
      try clear_value z
    | try clear_value z
  | with_reducible
      first
      | apply keepsOut_next | apply State.convCal_keeps | apply State.put_keeps | apply State.report_keeps
      | apply keeps_ite | apply keeps_foldl
  | split

theorem execTelemetryMeasurement_keeps {s t : State} (h : Keeps s t) (temps : List Nat) (rails : List Nat) (eyeH :
    List Nat) (eyeV : List Nat) :
    KeepsOut s (execTelemetryMeasurement temps rails eyeH eyeV t) := by
  unfold execTelemetryMeasurement
  repeat' first
  | intro _
  | with_reducible assumption
  | fail_if_no_progress extract_lets +onlyGivenNames z
    first
    | (refine (have hz : Keeps s z := ?_; ?_))
      subst z
      rotate_left
      try clear_value z
    | try clear_value z
  | with_reducible
      first
      | apply keepsOut_next | apply State.telMeasure_keeps | apply keeps_ite | apply keeps_foldl
  | split

theorem execClockLoss_keeps {s t : State} (h : Keeps s t) (src : Nat) :
    KeepsOut s (execClockLoss src t) := by
  unfold execClockLoss
  repeat' first
  | intro _
  | with_reducible assumption
  | fail_if_no_progress extract_lets +onlyGivenNames z
    first
    | (refine (have hz : Keeps s z := ?_; ?_))
      subst z
      rotate_left
      try clear_value z
    | try clear_value z
  | with_reducible
      first
      | apply keepsOut_next | apply State.clkStop_keeps | apply keeps_ite | apply keeps_foldl
  | split

theorem execClockRestored_keeps {s t : State} (h : Keeps s t) (src : Nat) :
    KeepsOut s (execClockRestored src t) := by
  unfold execClockRestored
  repeat' first
  | intro _
  | with_reducible assumption
  | fail_if_no_progress extract_lets +onlyGivenNames z
    first
    | (refine (have hz : Keeps s z := ?_; ?_))
      subst z
      rotate_left
      try clear_value z
    | try clear_value z
  | with_reducible
      first
      | apply keepsOut_next | apply State.clkStart_keeps | apply State.clkResets_keeps | apply keeps_ite
      | apply keeps_foldl
  | split

theorem execInjection_keeps {s t : State} (h : Keeps s t) (slot : Nat) :
    KeepsOut s (execInjection slot t) := by
  unfold execInjection
  repeat' first
  | intro _
  | with_reducible assumption
  | fail_if_no_progress extract_lets +onlyGivenNames z
    first
    | (refine (have hz : Keeps s z := ?_; ?_))
      subst z
      rotate_left
      try clear_value z
    | try clear_value z
  | with_reducible
      first
      | apply keepsOut_next | apply State.injOnce_keeps | apply keeps_ite | apply keeps_foldl
  | split

theorem execInjArm_keeps {s t : State} (h : Keeps s t) (mb : Nat) :
    KeepsOut s (execInjArm mb t) := by
  unfold execInjArm
  repeat' first
  | intro _
  | with_reducible assumption
  | fail_if_no_progress extract_lets +onlyGivenNames z
    first
    | (refine (have hz : Keeps s z := ?_; ?_))
      subst z
      rotate_left
      try clear_value z
    | try clear_value z
  | with_reducible
      first
      | apply keepsOut_next | apply State.wait_keeps | apply State.put_keeps | apply State.safetyUse_keeps
      | apply State.when_keeps | apply State.fail_keeps | apply State.request_keeps | apply keeps_ite
      | apply keeps_foldl
  | split
  | with_reducible apply keeps_mk

theorem execInjDisarm_keeps {s t : State} (h : Keeps s t) (mb : Nat) :
    KeepsOut s (execInjDisarm mb t) := by
  unfold execInjDisarm
  repeat' first
  | intro _
  | with_reducible assumption
  | fail_if_no_progress extract_lets +onlyGivenNames z
    first
    | (refine (have hz : Keeps s z := ?_; ?_))
      subst z
      rotate_left
      try clear_value z
    | try clear_value z
  | with_reducible
      first
      | apply keepsOut_next | apply State.wait_keeps | apply State.fail_keeps | apply State.request_keeps
      | apply keeps_ite | apply keeps_foldl
  | split

theorem execEvlogRead_keeps {s t : State} (h : Keeps s t) (mb : Nat) :
    KeepsOut s (execEvlogRead mb t) := by
  unfold execEvlogRead
  repeat' first
  | intro _
  | with_reducible assumption
  | fail_if_no_progress extract_lets +onlyGivenNames z
    first
    | (refine (have hz : Keeps s z := ?_; ?_))
      subst z
      rotate_left
      try clear_value z
    | try clear_value z
  | with_reducible
      first
      | apply keepsOut_next | apply State.done_keeps | apply State.request_keeps | apply keeps_ite | apply keeps_foldl
  | split

theorem execTelConfig_keeps {s t : State} (h : Keeps s t) (mb : Nat) :
    KeepsOut s (execTelConfig mb t) := by
  unfold execTelConfig
  repeat' first
  | intro _
  | with_reducible assumption
  | fail_if_no_progress extract_lets +onlyGivenNames z
    first
    | (refine (have hz : Keeps s z := ?_; ?_))
      subst z
      rotate_left
      try clear_value z
    | try clear_value z
  | with_reducible
      first
      | apply keepsOut_next | apply State.wait_keeps | apply State.request_keeps | apply keeps_ite | apply keeps_foldl
  | split

theorem execMgmtLockstepMismatch_keeps {s t : State} (h : Keeps s t) :
    KeepsOut s (execMgmtLockstepMismatch t) := by
  unfold execMgmtLockstepMismatch
  repeat' first
  | intro _
  | with_reducible assumption
  | fail_if_no_progress extract_lets +onlyGivenNames z
    first
    | (refine (have hz : Keeps s z := ?_; ?_))
      subst z
      rotate_left
      try clear_value z
    | try clear_value z
  | with_reducible
      first
      | apply keepsOut_next | apply State.lockstepFail_keeps | apply keeps_ite | apply keeps_foldl
  | split

theorem State.ovlWrite_keeps {s t : State} (h : Keeps s t) (mb : Nat) :
    Keeps s (State.ovlWrite t mb) := by
  unfold State.ovlWrite
  repeat' first
  | intro _
  | with_reducible assumption
  | fail_if_no_progress extract_lets +onlyGivenNames z
    first
    | (refine (have hz : Keeps s z := ?_; ?_))
      subst z
      rotate_left
      try clear_value z
    | try clear_value z
  | with_reducible
      first
      | apply State.ovlPut_keeps | apply keeps_ite | apply keeps_foldl
  | split

theorem State.modeStage_keeps {s t : State} (h : Keeps s t) (mb : Nat) (b : Nat) (cyc : Nat) :
    Keeps s (State.modeStage t mb b cyc) := by
  unfold State.modeStage
  repeat' first
  | intro _
  | with_reducible assumption
  | fail_if_no_progress extract_lets +onlyGivenNames z
    first
    | (refine (have hz : Keeps s z := ?_; ?_))
      subst z
      rotate_left
      try clear_value z
    | try clear_value z
  | with_reducible
      first
      | apply State.wait_keeps | apply State.put_keeps | apply keeps_ite | apply keeps_foldl
  | split

theorem State.commitDone_keeps {s t : State} (h : Keeps s t) (m : Image) :
    Keeps s (State.commitDone t m) := by
  unfold State.commitDone
  repeat' first
  | intro _
  | with_reducible assumption
  | fail_if_no_progress extract_lets +onlyGivenNames z
    first
    | (refine (have hz : Keeps s z := ?_; ?_))
      subst z
      rotate_left
      try clear_value z
    | try clear_value z
  | with_reducible
      first
      | apply State.lopFinish_keeps | apply State.when_keeps | apply State.put_keeps | apply keeps_ite
      | apply keeps_foldl
  | split
  | with_reducible apply keeps_mk

theorem State.fwTake_keeps {s t : State} (h : Keeps s t) (off : Nat) (bs : List Nat) :
    Keeps s (State.fwTake t off bs) := by
  unfold State.fwTake
  repeat' first
  | intro _
  | with_reducible assumption
  | fail_if_no_progress extract_lets +onlyGivenNames z
    first
    | (refine (have hz : Keeps s z := ?_; ?_))
      subst z
      rotate_left
      try clear_value z
    | try clear_value z
  | with_reducible
      first
      | apply State.put_keeps | apply State.setBytes_keeps | apply keeps_ite | apply keeps_foldl
  | split

theorem State.imageBad_keeps {s t : State} (h : Keeps s t) (i : Nat) :
    Keeps s (State.imageBad t i) := by
  unfold State.imageBad
  repeat' first
  | intro _
  | with_reducible assumption
  | fail_if_no_progress extract_lets +onlyGivenNames z
    first
    | (refine (have hz : Keeps s z := ?_; ?_))
      subst z
      rotate_left
      try clear_value z
    | try clear_value z
  | with_reducible
      first
      | apply State.put_keeps | apply State.when_keeps | apply State.report_keeps | apply keeps_ite
      | apply keeps_foldl
  | split
  | with_reducible apply keeps_mk

theorem State.loginFails_keeps {s t : State} (h : Keeps s t) (mb : Nat) :
    Keeps s (State.loginFails t mb) := by
  unfold State.loginFails
  repeat' first
  | intro _
  | with_reducible assumption
  | fail_if_no_progress extract_lets +onlyGivenNames z
    first
    | (refine (have hz : Keeps s z := ?_; ?_))
      subst z
      rotate_left
      try clear_value z
    | try clear_value z
  | with_reducible
      first
      | apply State.put_keeps | apply State.fail_keeps | apply State.incSat_keeps | apply keeps_ite
      | apply keeps_foldl
  | split

theorem State.loginOk_keeps {s t : State} (h : Keeps s t) (mb : Nat) (author : Nat) (reason : Nat) :
    Keeps s (State.loginOk t mb author reason) := by
  unfold State.loginOk
  repeat' first
  | intro _
  | with_reducible assumption
  | fail_if_no_progress extract_lets +onlyGivenNames z
    first
    | (refine (have hz : Keeps s z := ?_; ?_))
      subst z
      rotate_left
      try clear_value z
    | try clear_value z
  | with_reducible
      first
      | apply State.done_keeps | apply State.sessionEnd_keeps | apply State.put_keeps | apply keeps_ite
      | apply keeps_foldl
  | split

theorem State.logAdd_keeps {s t : State} (h : Keeps s t) (mb : Nat) (kind : Nat) (n : Nat) :
    Keeps s (State.logAdd t mb kind n) := by
  unfold State.logAdd
  repeat' first
  | intro _
  | with_reducible assumption
  | fail_if_no_progress extract_lets +onlyGivenNames z
    first
    | (refine (have hz : Keeps s z := ?_; ?_))
      subst z
      rotate_left
      try clear_value z
    | try clear_value z
  | with_reducible
      first
      | apply State.setBytes_keeps | apply State.ovlToStore_keeps | apply State.when_keeps | apply State.put_keeps
      | apply keeps_ite | apply keeps_foldl
  | split

theorem State.safNewSet_keeps {s t : State} (h : Keeps s t) (f : Nat → Nat) :
    Keeps s (State.safNewSet t f) := by
  unfold State.safNewSet
  repeat' first
  | intro _
  | with_reducible assumption
  | fail_if_no_progress extract_lets +onlyGivenNames z
    first
    | (refine (have hz : Keeps s z := ?_; ?_))
      subst z
      rotate_left
      try clear_value z
    | try clear_value z
  | with_reducible
      first
      | apply State.store_keeps | apply State.each_keeps | apply State.put_keeps | apply keeps_ite | apply keeps_foldl
  | split

theorem State.ovlNoSafety_keeps {s t : State} (h : Keeps s t) :
    Keeps s (State.ovlNoSafety t) := by
  unfold State.ovlNoSafety
  repeat' first
  | intro _
  | with_reducible assumption
  | fail_if_no_progress extract_lets +onlyGivenNames z
    first
    | (refine (have hz : Keeps s z := ?_; ?_))
      subst z
      rotate_left
      try clear_value z
    | try clear_value z
  | with_reducible
      first
      | apply State.ovlPut_keeps | apply State.each_keeps | apply keeps_ite | apply keeps_foldl
  | split

theorem State.safetyChange_keeps {s t : State} (h : Keeps s t) (w : Wait) :
    Keeps s (State.safetyChange t w) := by
  unfold State.safetyChange
  repeat' first
  | intro _
  | with_reducible assumption
  | fail_if_no_progress extract_lets +onlyGivenNames z
    first
    | (refine (have hz : Keeps s z := ?_; ?_))
      subst z
      rotate_left
      try clear_value z
    | try clear_value z
  | with_reducible
      first
      | apply State.ovlNoSafety_keeps | apply State.safWith_keeps | apply State.put_keeps | apply State.ovlPut_keeps
      | apply State.ovlWrite_keeps | apply State.dirty_keeps | apply State.done_keeps | apply State.safNewSet_keeps
      | apply State.logAdd_keeps | apply keeps_ite | apply keeps_foldl
  | split
  | with_reducible apply keeps_mk

theorem execModeSwitch_keeps {s t : State} (h : Keeps s t) (mb : Nat) :
    KeepsOut s (execModeSwitch mb t) := by
  unfold execModeSwitch
  repeat' first
  | intro _
  | with_reducible assumption
  | fail_if_no_progress extract_lets +onlyGivenNames z
    first
    | (refine (have hz : Keeps s z := ?_; ?_))
      subst z
      rotate_left
      try clear_value z
    | try clear_value z
  | with_reducible
      first
      | apply keepsOut_next | apply State.modeStage_keeps | apply State.fail_keeps | apply State.swapTo_keeps
      | apply State.request_keeps | apply keeps_ite | apply keeps_foldl
  | split

theorem execCfgCommit_keeps {s t : State} (h : Keeps s t) (mb : Nat) :
    KeepsOut s (execCfgCommit mb t) := by
  unfold execCfgCommit
  repeat' first
  | intro _
  | with_reducible assumption
  | fail_if_no_progress extract_lets +onlyGivenNames z
    first
    | (refine (have hz : Keeps s z := ?_; ?_))
      subst z
      rotate_left
      try clear_value z
    | try clear_value z
  | with_reducible
      first
      | apply keepsOut_next | apply State.put_keeps | apply State.lopStart_keeps | apply State.fail_keeps
      | apply State.request_keeps | apply keeps_ite | apply keeps_foldl
  | split

theorem execCommitComplete_keeps {s t : State} (h : Keeps s t) :
    KeepsOut s (execCommitComplete t) := by
  unfold execCommitComplete
  repeat' first
  | intro _
  | with_reducible assumption
  | fail_if_no_progress extract_lets +onlyGivenNames z
    first
    | (refine (have hz : Keeps s z := ?_; ?_))
      subst z
      rotate_left
      try clear_value z
    | try clear_value z
  | with_reducible
      first
      | apply keepsOut_next | apply State.commitDone_keeps | apply keeps_ite | apply keeps_foldl
  | split

theorem execFwUpdate_keeps {s t : State} (h : Keeps s t) (mb : Nat) :
    KeepsOut s (execFwUpdate mb t) := by
  unfold execFwUpdate
  repeat' first
  | intro _
  | with_reducible assumption
  | fail_if_no_progress extract_lets +onlyGivenNames z
    first
    | (refine (have hz : Keeps s z := ?_; ?_))
      subst z
      rotate_left
      try clear_value z
    | try clear_value z
  | with_reducible
      first
      | apply keepsOut_next | apply State.clearBit_keeps | apply State.put_keeps | apply State.zeroRange_keeps
      | apply State.lopStart_keeps | apply State.fail_keeps | apply State.request_keeps | apply keeps_ite
      | apply keeps_foldl
  | split

theorem execFwData_keeps {s t : State} (h : Keeps s t) (mb : Nat) :
    KeepsOut s (execFwData mb t) := by
  unfold execFwData
  repeat' first
  | intro _
  | with_reducible assumption
  | fail_if_no_progress extract_lets +onlyGivenNames z
    first
    | (refine (have hz : Keeps s z := ?_; ?_))
      subst z
      rotate_left
      try clear_value z
    | try clear_value z
  | with_reducible
      first
      | apply keepsOut_next | apply State.done_keeps | apply State.lopProgress_keeps | apply State.fwTake_keeps
      | apply State.when_keeps | apply State.fail_keeps | apply State.request_keeps | apply keeps_ite
      | apply keeps_foldl
  | split

theorem execFwSignatureCheck_keeps {s t : State} (h : Keeps s t) :
    KeepsOut s (execFwSignatureCheck t) := by
  unfold execFwSignatureCheck
  repeat' first
  | intro _
  | with_reducible assumption
  | fail_if_no_progress extract_lets +onlyGivenNames z
    first
    | (refine (have hz : Keeps s z := ?_; ?_))
      subst z
      rotate_left
      try clear_value z
    | try clear_value z
  | with_reducible
      first
      | apply keepsOut_next | apply State.lopProgress_keeps | apply State.put_keeps | apply State.lopFinish_keeps
      | apply keeps_ite | apply keeps_foldl
  | split

theorem execFwWriteComplete_keeps {s t : State} (h : Keeps s t) :
    KeepsOut s (execFwWriteComplete t) := by
  unfold execFwWriteComplete
  repeat' first
  | intro _
  | with_reducible assumption
  | fail_if_no_progress extract_lets +onlyGivenNames z
    first
    | (refine (have hz : Keeps s z := ?_; ?_))
      subst z
      rotate_left
      try clear_value z
    | try clear_value z
  | with_reducible
      first
      | apply keepsOut_next | apply State.lopFinish_keeps | apply State.orBit_keeps | apply State.put_keeps
      | apply State.copyRange_keeps | apply keeps_ite | apply keeps_foldl
  | split

theorem execFlashScrub_keeps {s t : State} (h : Keeps s t) (mb : Nat) :
    KeepsOut s (execFlashScrub mb t) := by
  unfold execFlashScrub
  repeat' first
  | intro _
  | with_reducible assumption
  | fail_if_no_progress extract_lets +onlyGivenNames z
    first
    | (refine (have hz : Keeps s z := ?_; ?_))
      subst z
      rotate_left
      try clear_value z
    | try clear_value z
  | with_reducible
      first
      | apply keepsOut_next | apply State.put_keeps | apply State.lopStart_keeps | apply State.fail_keeps
      | apply State.request_keeps | apply keeps_ite | apply keeps_foldl
  | split

theorem execFlashScrubComplete_keeps {s t : State} (h : Keeps s t) (bad : Bool) :
    KeepsOut s (execFlashScrubComplete bad t) := by
  unfold execFlashScrubComplete
  repeat' first
  | intro _
  | with_reducible assumption
  | fail_if_no_progress extract_lets +onlyGivenNames z
    first
    | (refine (have hz : Keeps s z := ?_; ?_))
      subst z
      rotate_left
      try clear_value z
    | try clear_value z
  | with_reducible
      first
      | apply keepsOut_next | apply State.lopEnd_keeps | apply State.imageBad_keeps | apply State.injPage_keeps
      | apply State.put_keeps | apply State.blkMove_keeps | apply State.flView_keeps | apply State.when_keeps
      | apply State.useFree_keeps | apply keeps_ite | apply keeps_foldl
  | split

theorem execGarbageCollection_keeps {s t : State} (h : Keeps s t) (f0 : Nat) (f1 : Nat) (f2 : Nat) (f3 : Nat) (f4 :
    Nat) :
    KeepsOut s (execGarbageCollection f0 f1 f2 f3 f4 t) := by
  unfold execGarbageCollection
  repeat' first
  | intro _
  | with_reducible assumption
  | fail_if_no_progress extract_lets +onlyGivenNames z
    first
    | (refine (have hz : Keeps s z := ?_; ?_))
      subst z
      rotate_left
      try clear_value z
    | try clear_value z
  | with_reducible
      first
      | apply keepsOut_next | apply State.flashCollect_keeps | apply keeps_ite | apply keeps_foldl
  | split
  | with_reducible apply keeps_mk

theorem execSafetyLogin_keeps {s t : State} (h : Keeps s t) (mb : Nat) :
    KeepsOut s (execSafetyLogin mb t) := by
  unfold execSafetyLogin
  repeat' first
  | intro _
  | with_reducible assumption
  | fail_if_no_progress extract_lets +onlyGivenNames z
    first
    | (refine (have hz : Keeps s z := ?_; ?_))
      subst z
      rotate_left
      try clear_value z
    | try clear_value z
  | with_reducible
      first
      | apply keepsOut_next | apply State.loginFails_keeps | apply State.loginOk_keeps | apply State.fail_keeps
      | apply State.request_keeps | apply keeps_ite | apply keeps_foldl
  | split

theorem execSafetyLogout_keeps {s t : State} (h : Keeps s t) (mb : Nat) :
    KeepsOut s (execSafetyLogout mb t) := by
  unfold execSafetyLogout
  repeat' first
  | intro _
  | with_reducible assumption
  | fail_if_no_progress extract_lets +onlyGivenNames z
    first
    | (refine (have hz : Keeps s z := ?_; ?_))
      subst z
      rotate_left
      try clear_value z
    | try clear_value z
  | with_reducible
      first
      | apply keepsOut_next | apply State.sessionEnd_keeps | apply State.done_keeps | apply State.fail_keeps
      | apply State.request_keeps | apply keeps_ite | apply keeps_foldl
  | split

theorem execSessionTimeout_keeps {s t : State} (h : Keeps s t) :
    KeepsOut s (execSessionTimeout t) := by
  unfold execSessionTimeout
  repeat' first
  | intro _
  | with_reducible assumption
  | fail_if_no_progress extract_lets +onlyGivenNames z
    first
    | (refine (have hz : Keeps s z := ?_; ?_))
      subst z
      rotate_left
      try clear_value z
    | try clear_value z
  | with_reducible
      first
      | apply keepsOut_next | apply State.sessionEnd_keeps | apply State.when_keeps | apply keeps_ite
      | apply keeps_foldl
  | split

theorem execLockoutExpiry_keeps {s t : State} (h : Keeps s t) :
    KeepsOut s (execLockoutExpiry t) := by
  unfold execLockoutExpiry
  repeat' first
  | intro _
  | with_reducible assumption
  | fail_if_no_progress extract_lets +onlyGivenNames z
    first
    | (refine (have hz : Keeps s z := ?_; ?_))
      subst z
      rotate_left
      try clear_value z
    | try clear_value z
  | with_reducible
      first
      | apply keepsOut_next | apply State.put_keeps | apply State.when_keeps | apply keeps_ite | apply keeps_foldl
  | split

theorem execPasswordSet_keeps {s t : State} (h : Keeps s t) (mb : Nat) :
    KeepsOut s (execPasswordSet mb t) := by
  unfold execPasswordSet
  repeat' first
  | intro _
  | with_reducible assumption
  | fail_if_no_progress extract_lets +onlyGivenNames z
    first
    | (refine (have hz : Keeps s z := ?_; ?_))
      subst z
      rotate_left
      try clear_value z
    | try clear_value z
  | with_reducible
      first
      | apply keepsOut_next | apply State.changeWait_keeps | apply State.safetyUse_keeps | apply State.useFree_keeps
      | apply State.put_keeps | apply State.fail_keeps | apply State.request_keeps | apply keeps_ite
      | apply keeps_foldl
  | split

theorem execSafetyChangeComplete_keeps {s t : State} (h : Keeps s t) :
    KeepsOut s (execSafetyChangeComplete t) := by
  unfold execSafetyChangeComplete
  repeat' first
  | intro _
  | with_reducible assumption
  | fail_if_no_progress extract_lets +onlyGivenNames z
    first
    | (refine (have hz : Keeps s z := ?_; ?_))
      subst z
      rotate_left
      try clear_value z
    | try clear_value z
  | with_reducible
      first
      | apply keepsOut_next | apply State.safetyChange_keeps | apply keeps_ite | apply keeps_foldl
  | split

theorem execOvlWrite_keeps {s t : State} (h : Keeps s t) (mb : Nat) :
    KeepsOut s (execOvlWrite mb t) := by
  unfold execOvlWrite
  repeat' first
  | intro _
  | with_reducible assumption
  | fail_if_no_progress extract_lets +onlyGivenNames z
    first
    | (refine (have hz : Keeps s z := ?_; ?_))
      subst z
      rotate_left
      try clear_value z
    | try clear_value z
  | with_reducible
      first
      | apply keepsOut_next | apply State.done_keeps | apply State.ovlWrite_keeps | apply State.dirty_keeps
      | apply State.safetyUse_keeps | apply State.changeWait_keeps | apply State.fail_keeps
      | apply State.request_keeps | apply keeps_ite | apply keeps_foldl
  | split

theorem execOvlRead_keeps {s t : State} (h : Keeps s t) (mb : Nat) :
    KeepsOut s (execOvlRead mb t) := by
  unfold execOvlRead
  repeat' first
  | intro _
  | with_reducible assumption
  | fail_if_no_progress extract_lets +onlyGivenNames z
    first
    | (refine (have hz : Keeps s z := ?_; ?_))
      subst z
      rotate_left
      try clear_value z
    | try clear_value z
  | with_reducible
      first
      | apply keepsOut_next | apply State.done_keeps | apply State.fail_keeps | apply State.request_keeps
      | apply keeps_ite | apply keeps_foldl
  | split

theorem execOvlClear_keeps {s t : State} (h : Keeps s t) (mb : Nat) :
    KeepsOut s (execOvlClear mb t) := by
  unfold execOvlClear
  repeat' first
  | intro _
  | with_reducible assumption
  | fail_if_no_progress extract_lets +onlyGivenNames z
    first
    | (refine (have hz : Keeps s z := ?_; ?_))
      subst z
      rotate_left
      try clear_value z
    | try clear_value z
  | with_reducible
      first
      | apply keepsOut_next | apply State.safetyUse_keeps | apply State.changeWait_keeps | apply State.ovlPut_keeps
      | apply State.dirty_keeps | apply State.done_keeps | apply State.fail_keeps | apply State.request_keeps
      | apply keeps_ite | apply keeps_foldl
  | split

theorem execLogRead_keeps {s t : State} (h : Keeps s t) (mb : Nat) :
    KeepsOut s (execLogRead mb t) := by
  unfold execLogRead
  repeat' first
  | intro _
  | with_reducible assumption
  | fail_if_no_progress extract_lets +onlyGivenNames z
    first
    | (refine (have hz : Keeps s z := ?_; ?_))
      subst z
      rotate_left
      try clear_value z
    | try clear_value z
  | with_reducible
      first
      | apply keepsOut_next | apply State.done_keeps | apply State.request_keeps | apply keeps_ite | apply keeps_foldl
  | split

end Sys2Proof.Machine
end

