-- ==== Sys2Proof/Laws/KeepsHost.lean ====
section
/-! SUPPORT. What the operations of host accesses, power, security and the boundary keep: each keeps the queue and the invariant. -/

set_option linter.unusedTactic false
set_option linter.unreachableTactic false
set_option linter.tactic.unusedName false

namespace Sys2Proof.Machine

theorem State.statusView_keeps {s t : State} (h : Keeps s t) :
    Keeps s (State.statusView t) := by
  unfold State.statusView
  repeat' first
  | intro _
  | with_reducible assumption
  | fail_if_no_progress extract_lets +onlyGivenNames z
    first
    | (refine (have hz : Keeps s z := ?_; ?_))
      subst z
      rotate_left
      try clear_value z
    | try clear_value z
  | with_reducible
      first
      | apply State.put_keeps | apply keeps_ite | apply keeps_foldl
  | split

theorem State.lockView_keeps {s t : State} (h : Keeps s t) :
    Keeps s (State.lockView t) := by
  unfold State.lockView
  repeat' first
  | intro _
  | with_reducible assumption
  | fail_if_no_progress extract_lets +onlyGivenNames z
    first
    | (refine (have hz : Keeps s z := ?_; ?_))
      subst z
      rotate_left
      try clear_value z
    | try clear_value z
  | with_reducible
      first
      | apply State.put_keeps | apply keeps_ite | apply keeps_foldl
  | split

theorem State.pendView_keeps {s t : State} (h : Keeps s t) :
    Keeps s (State.pendView t) := by
  unfold State.pendView
  repeat' first
  | intro _
  | with_reducible assumption
  | fail_if_no_progress extract_lets +onlyGivenNames z
    first
    | (refine (have hz : Keeps s z := ?_; ?_))
      subst z
      rotate_left
      try clear_value z
    | try clear_value z
  | with_reducible
      first
      | apply State.put_keeps | apply keeps_ite | apply keeps_foldl
  | split

theorem State.jrnView_keeps {s t : State} (h : Keeps s t) :
    Keeps s (State.jrnView t) := by
  unfold State.jrnView
  repeat' first
  | intro _
  | with_reducible assumption
  | fail_if_no_progress extract_lets +onlyGivenNames z
    first
    | (refine (have hz : Keeps s z := ?_; ?_))
      subst z
      rotate_left
      try clear_value z
    | try clear_value z
  | with_reducible
      first
      | apply State.put_keeps | apply State.when_keeps | apply State.each_keeps | apply keeps_ite | apply keeps_foldl
  | split

theorem State.fioShown_keeps {s t : State} (h : Keeps s t) :
    Keeps s (State.fioShown t) := by
  unfold State.fioShown
  repeat' first
  | intro _
  | with_reducible assumption
  | fail_if_no_progress extract_lets +onlyGivenNames z
    first
    | (refine (have hz : Keeps s z := ?_; ?_))
      subst z
      rotate_left
      try clear_value z
    | try clear_value z
  | with_reducible
      first
      | apply State.resetFld_keeps | apply State.each_keeps | apply State.when_keeps | apply keeps_ite
      | apply keeps_foldl
  | split

theorem State.rcClear_keeps {s t : State} (h : Keeps s t) (fs : List Fld) (a : Nat) :
    Keeps s (State.rcClear t fs a) := by
  unfold State.rcClear
  repeat' first
  | intro _
  | with_reducible assumption
  | fail_if_no_progress extract_lets +onlyGivenNames z
    first
    | (refine (have hz : Keeps s z := ?_; ?_))
      subst z
      rotate_left
      try clear_value z
    | try clear_value z
  | with_reducible
      first
      | apply State.put_keeps | apply State.each_keeps | apply keeps_ite | apply keeps_foldl
  | split

theorem State.readHalf_keeps {s t : State} (h : Keeps s t) (fs : List Fld) (k : Nat) (lat : Fld) (o : Nat) (v : Nat →
    Nat) :
    Keeps s (State.readHalf t fs k lat o v).2 := by
  unfold State.readHalf
  repeat' first
  | intro _
  | with_reducible assumption
  | fail_if_no_progress extract_lets +onlyGivenNames z
    first
    | (refine (have hz : Keeps s z := ?_; ?_))
      subst z
      rotate_left
      try clear_value z
    | try clear_value z
  | with_reducible
      first
      | apply State.rcClear_keeps | apply State.put_keeps | apply State.when_keeps | apply keeps_ite
      | apply keeps_foldl
  | split

theorem State.logAccess_keeps {s t : State} (h : Keeps s t) (i : Sys2Proof.Ifc) (wr : Bool) (as : List Nat) :
    Keeps s (State.logAccess t i wr as) := by
  unfold State.logAccess
  repeat' first
  | intro _
  | with_reducible assumption
  | fail_if_no_progress extract_lets +onlyGivenNames z
    first
    | (refine (have hz : Keeps s z := ?_; ?_))
      subst z
      rotate_left
      try clear_value z
    | try clear_value z
  | with_reducible
      first
      | apply State.errLog_keeps | apply keeps_ite | apply keeps_foldl
  | split

theorem State.readBar0_keeps {s t : State} (h : Keeps s t) (i : Sys2Proof.Ifc) (a : Nat) :
    Keeps s (State.readBar0 t i a).2 := by
  unfold State.readBar0
  repeat' first
  | intro _
  | with_reducible assumption
  | fail_if_no_progress extract_lets +onlyGivenNames z
    first
    | (refine (have hz : Keeps s z := ?_; ?_))
      subst z
      rotate_left
      try clear_value z
    | (refine (have hz : Keeps s z.1 := ?_; ?_))
      subst z
      rotate_left
      try clear_value z
    | (refine (have hz : Keeps s z.2 := ?_; ?_))
      subst z
      rotate_left
      try clear_value z
    | try clear_value z
  | with_reducible
      first
      | apply State.put_keeps | apply State.when_keeps | apply State.readHalf_keeps | apply keeps_ite
      | apply keeps_foldl
  | split

theorem State.readBar2_keeps {s t : State} (h : Keeps s t) (o : Nat) :
    Keeps s (State.readBar2 t o).2 := by
  unfold State.readBar2
  repeat' first
  | intro _
  | with_reducible assumption
  | fail_if_no_progress extract_lets +onlyGivenNames z
    first
    | (refine (have hz : Keeps s z := ?_; ?_))
      subst z
      rotate_left
      try clear_value z
    | (refine (have hz : Keeps s z.1 := ?_; ?_))
      subst z
      rotate_left
      try clear_value z
    | (refine (have hz : Keeps s z.2 := ?_; ?_))
      subst z
      rotate_left
      try clear_value z
    | try clear_value z
  | with_reducible
      first
      | apply State.readHalf_keeps | apply keeps_ite | apply keeps_foldl
  | split

theorem State.readWord_keeps {s t : State} (h : Keeps s t) (i : Sys2Proof.Ifc) (a : Nat) :
    Keeps s (State.readWord t i a).2 := by
  unfold State.readWord
  repeat' first
  | intro _
  | with_reducible assumption
  | fail_if_no_progress extract_lets +onlyGivenNames z
    first
    | (refine (have hz : Keeps s z := ?_; ?_))
      subst z
      rotate_left
      try clear_value z
    | (refine (have hz : Keeps s z.1 := ?_; ?_))
      subst z
      rotate_left
      try clear_value z
    | (refine (have hz : Keeps s z.2 := ?_; ?_))
      subst z
      rotate_left
      try clear_value z
    | try clear_value z
  | with_reducible
      first
      | apply State.readBar0_keeps | apply State.readBar2_keeps | apply keeps_ite | apply keeps_foldl
  | split

theorem State.readWords_keeps {s : State} (i : Ifc) (l : List Nat) : ∀ {t : State}, Keeps s t →
    Keeps s (State.readWords t i l).2 := by
  induction l with
  | nil => exact fun h => h
  | cons a l ih => exact fun h => ih (State.readWord_keeps h ..)

theorem State.readBytes_keeps {s t : State} (h : Keeps s t) (i : Ifc) (a : Nat) (n : Nat) :
    Keeps s (State.readBytes t i a n) := by
  unfold State.readBytes
  split
  · exact keeps_mk h
  · exact keeps_mk (State.readWords_keeps i _ (State.logAccess_keeps h ..))

theorem State.mbIgnored_keeps {s t : State} (h : Keeps s t) (i : Sys2Proof.Ifc) (n : Nat) (cause : Nat) (a : Nat) :
    Keeps s (State.mbIgnored t i n cause a) := by
  unfold State.mbIgnored
  repeat' first
  | intro _
  | with_reducible assumption
  | fail_if_no_progress extract_lets +onlyGivenNames z
    first
    | (refine (have hz : Keeps s z := ?_; ?_))
      subst z
      rotate_left
      try clear_value z
    | try clear_value z
  | with_reducible
      first
      | apply State.incSat_keeps | apply State.errLog_keeps | apply keeps_ite | apply keeps_foldl
  | split

theorem State.mbBlank_keeps {s t : State} (h : Keeps s t) (n : Nat) :
    Keeps s (State.mbBlank t n) := by
  unfold State.mbBlank
  repeat' first
  | intro _
  | with_reducible assumption
  | fail_if_no_progress extract_lets +onlyGivenNames z
    first
    | (refine (have hz : Keeps s z := ?_; ?_))
      subst z
      rotate_left
      try clear_value z
    | try clear_value z
  | with_reducible
      first
      | apply State.put_keeps | apply keeps_ite | apply keeps_foldl
  | split

theorem State.mbDup_keeps {s t : State} (h : Keeps s t) (n : Nat) (r : TagRec) :
    Keeps s (State.mbDup t n r) := by
  unfold State.mbDup
  repeat' first
  | intro _
  | with_reducible assumption
  | fail_if_no_progress extract_lets +onlyGivenNames z
    first
    | (refine (have hz : Keeps s z := ?_; ?_))
      subst z
      rotate_left
      try clear_value z
    | try clear_value z
  | with_reducible
      first
      | apply State.mbxCause_keeps | apply State.put_keeps | apply State.setBytes_keeps | apply keeps_ite
      | apply keeps_foldl
  | split

theorem State.mbPend_keeps {s t : State} (h : Keeps s t) (n : Nat) :
    Keeps s (State.mbPend t n) := by
  unfold State.mbPend
  repeat' first
  | intro _
  | with_reducible assumption
  | fail_if_no_progress extract_lets +onlyGivenNames z
    first
    | (refine (have hz : Keeps s z := ?_; ?_))
      subst z
      rotate_left
      try clear_value z
    | try clear_value z
  | with_reducible
      first
      | apply State.mbBlank_keeps | apply State.useFree_keeps | apply State.incWrap_keeps | apply State.put_keeps
      | apply keeps_ite | apply keeps_foldl
  | split

theorem State.doorbell_keeps {s t : State} (h : Keeps s t) (i : Sys2Proof.Ifc) (n : Nat) (a : Nat) :
    Keeps s (State.doorbell t i n a) := by
  unfold State.doorbell
  repeat' first
  | intro _
  | with_reducible assumption
  | fail_if_no_progress extract_lets +onlyGivenNames z
    first
    | (refine (have hz : Keeps s z := ?_; ?_))
      subst z
      rotate_left
      try clear_value z
    | try clear_value z
  | with_reducible
      first
      | apply State.fail_keeps | apply State.mbDup_keeps | apply State.mbPend_keeps | apply State.mbIgnored_keeps
      | apply keeps_ite | apply keeps_foldl
  | split

theorem State.ringDb_keeps {s t : State} (h : Keeps s t) (i : Sys2Proof.Ifc) (n : Nat) (a : Nat) :
    Keeps s (State.ringDb t i n a) := by
  unfold State.ringDb
  repeat' first
  | intro _
  | with_reducible assumption
  | fail_if_no_progress extract_lets +onlyGivenNames z
    first
    | (refine (have hz : Keeps s z := ?_; ?_))
      subst z
      rotate_left
      try clear_value z
    | try clear_value z
  | with_reducible
      first
      | apply State.doorbell_keeps | apply State.errLog_keeps | apply keeps_ite | apply keeps_foldl
  | split

theorem State.mbAck_keeps {s t : State} (h : Keeps s t) (i : Sys2Proof.Ifc) (n : Nat) (a : Nat) :
    Keeps s (State.mbAck t i n a) := by
  unfold State.mbAck
  repeat' first
  | intro _
  | with_reducible assumption
  | fail_if_no_progress extract_lets +onlyGivenNames z
    first
    | (refine (have hz : Keeps s z := ?_; ?_))
      subst z
      rotate_left
      try clear_value z
    | try clear_value z
  | with_reducible
      first
      | apply State.mbIgnored_keeps | apply State.mbBlank_keeps | apply State.put_keeps | apply keeps_ite
      | apply keeps_foldl
  | split

theorem State.lopAck_keeps {s t : State} (h : Keeps s t) (k : Nat) :
    Keeps s (State.lopAck t k) := by
  unfold State.lopAck
  repeat' first
  | intro _
  | with_reducible assumption
  | fail_if_no_progress extract_lets +onlyGivenNames z
    first
    | (refine (have hz : Keeps s z := ?_; ?_))
      subst z
      rotate_left
      try clear_value z
    | try clear_value z
  | with_reducible
      first
      | apply State.cause_keeps | apply State.pageMark_keeps | apply State.put_keeps | apply State.when_keeps
      | apply keeps_ite | apply keeps_foldl
  | split

theorem State.mbWrite_keeps {s t : State} (h : Keeps s t) (i : Sys2Proof.Ifc) (n : Nat) (a : Nat) (v : Nat) :
    Keeps s (State.mbWrite t i n a v) := by
  unfold State.mbWrite
  repeat' first
  | intro _
  | with_reducible assumption
  | fail_if_no_progress extract_lets +onlyGivenNames z
    first
    | (refine (have hz : Keeps s z := ?_; ?_))
      subst z
      rotate_left
      try clear_value z
    | try clear_value z
  | with_reducible
      first
      | apply State.put_keeps | apply State.mbIgnored_keeps | apply State.mbAck_keeps | apply State.doorbell_keeps
      | apply keeps_ite | apply keeps_foldl
  | split

theorem State.pageWrite_keeps {s t : State} (h : Keeps s t) (i : Sys2Proof.Ifc) (n : Nat) (a : Nat) (bs : List Nat) :
    Keeps s (State.pageWrite t i n a bs) := by
  unfold State.pageWrite
  repeat' first
  | intro _
  | with_reducible assumption
  | fail_if_no_progress extract_lets +onlyGivenNames z
    first
    | (refine (have hz : Keeps s z := ?_; ?_))
      subst z
      rotate_left
      try clear_value z
    | try clear_value z
  | with_reducible
      first
      | apply State.setBytes_keeps | apply State.mbIgnored_keeps | apply keeps_ite | apply keeps_foldl
  | split

theorem State.sendRise_keeps {s t : State} (h : Keeps s t) (stat0 : Nat) (en0 : Nat) (mbx : Nat) (isMbx : Bool) :
    Keeps s (State.sendRise t stat0 en0 mbx isMbx) := by
  unfold State.sendRise
  repeat' first
  | intro _
  | with_reducible assumption
  | fail_if_no_progress extract_lets +onlyGivenNames z
    first
    | (refine (have hz : Keeps s z := ?_; ?_))
      subst z
      rotate_left
      try clear_value z
    | try clear_value z
  | with_reducible
      first
      | apply State.sendMsix_keeps | apply State.when_keeps | apply State.each_keeps | apply keeps_ite
      | apply keeps_foldl
  | split

theorem State.w1cFields_keeps {s t : State} (h : Keeps s t) (fs : List Fld) (a : Nat) (v : Nat) (hw : Nat) :
    Keeps s (State.w1cFields t fs a v hw) := by
  unfold State.w1cFields
  repeat' first
  | intro _
  | with_reducible assumption
  | fail_if_no_progress extract_lets +onlyGivenNames z
    first
    | (refine (have hz : Keeps s z := ?_; ?_))
      subst z
      rotate_left
      try clear_value z
    | try clear_value z
  | with_reducible
      first
      | apply State.put_keeps | apply State.each_keeps | apply keeps_ite | apply keeps_foldl
  | split

theorem State.w1cAfter_keeps {s t : State} (h : Keeps s t) (y1 : State) (a : Nat) (v : Nat) (hw : Nat) :
    Keeps s (State.w1cAfter t y1 a v hw) := by
  unfold State.w1cAfter
  repeat' first
  | intro _
  | with_reducible assumption
  | fail_if_no_progress extract_lets +onlyGivenNames z
    first
    | (refine (have hz : Keeps s z := ?_; ?_))
      subst z
      rotate_left
      try clear_value z
    | try clear_value z
  | with_reducible
      first
      | apply State.put_keeps | apply State.orBit_keeps | apply State.sumUp_keeps | apply State.cause_keeps
      | apply State.when_keeps | apply State.sendRise_keeps | apply keeps_ite | apply keeps_foldl
  | split

theorem State.w1cWrite_keeps {s t : State} (h : Keeps s t) (a : Nat) (v : Nat) (hw : Nat) :
    Keeps s (State.w1cWrite t a v hw) := by
  unfold State.w1cWrite
  repeat' first
  | intro _
  | with_reducible assumption
  | fail_if_no_progress extract_lets +onlyGivenNames z
    first
    | (refine (have hz : Keeps s z := ?_; ?_))
      subst z
      rotate_left
      try clear_value z
    | try clear_value z
  | with_reducible
      first
      | apply State.w1cFields_keeps | apply State.w1cAfter_keeps | apply keeps_ite | apply keeps_foldl
  | split

theorem State.msixUnmask_keeps {s t : State} (h : Keeps s t) (v : Nat) :
    Keeps s (State.msixUnmask t v) := by
  unfold State.msixUnmask
  repeat' first
  | intro _
  | with_reducible assumption
  | fail_if_no_progress extract_lets +onlyGivenNames z
    first
    | (refine (have hz : Keeps s z := ?_; ?_))
      subst z
      rotate_left
      try clear_value z
    | try clear_value z
  | with_reducible
      first
      | apply State.clearBit_keeps | apply State.sendMsix_keeps | apply keeps_ite | apply keeps_foldl
  | split

theorem State.hifWrite_keeps {s t : State} (h : Keeps s t) (a : Nat) (v : Nat) :
    Keeps s (State.hifWrite t a v) := by
  unfold State.hifWrite
  repeat' first
  | intro _
  | with_reducible assumption
  | fail_if_no_progress extract_lets +onlyGivenNames z
    first
    | (refine (have hz : Keeps s z := ?_; ?_))
      subst z
      rotate_left
      try clear_value z
    | try clear_value z
  | with_reducible
      first
      | apply State.msixUnmask_keeps | apply State.sendRise_keeps | apply State.when_keeps | apply State.putWord_keeps
      | apply State.put_keeps | apply keeps_ite | apply keeps_foldl
  | split

theorem State.trcWrite_keeps {s t : State} (h : Keeps s t) (v : Nat) :
    Keeps s (State.trcWrite t v) := by
  unfold State.trcWrite
  repeat' first
  | intro _
  | with_reducible assumption
  | fail_if_no_progress extract_lets +onlyGivenNames z
    first
    | (refine (have hz : Keeps s z := ?_; ?_))
      subst z
      rotate_left
      try clear_value z
    | try clear_value z
  | with_reducible
      first
      | apply State.trcFreezeW_keeps | apply State.put_keeps | apply State.when_keeps | apply keeps_ite
      | apply keeps_foldl
  | split

theorem State.cmpWrite_keeps {s t : State} (h : Keeps s t) (a : Nat) (v : Nat) :
    Keeps s (State.cmpWrite t a v) := by
  unfold State.cmpWrite
  repeat' first
  | intro _
  | with_reducible assumption
  | fail_if_no_progress extract_lets +onlyGivenNames z
    first
    | (refine (have hz : Keeps s z := ?_; ?_))
      subst z
      rotate_left
      try clear_value z
    | try clear_value z
  | with_reducible
      first
      | apply State.capNextW_keeps | apply State.capArmW_keeps | apply State.cmpDisarmW_keeps
      | apply State.cmpArmW_keeps | apply keeps_ite | apply keeps_foldl
  | split

theorem State.regWrite_keeps {s t : State} (h : Keeps s t) (i : Sys2Proof.Ifc) (a : Nat) (v : Nat) :
    Keeps s (State.regWrite t i a v) := by
  unfold State.regWrite
  repeat' first
  | intro _
  | with_reducible assumption
  | fail_if_no_progress extract_lets +onlyGivenNames z
    first
    | (refine (have hz : Keeps s z := ?_; ?_))
      subst z
      rotate_left
      try clear_value z
    | try clear_value z
  | with_reducible
      first
      | apply State.fioOutW_keeps | apply State.cmpWrite_keeps | apply State.trcWrite_keeps | apply State.lopAck_keeps
      | apply State.hifWrite_keeps | apply State.w1cWrite_keeps | apply State.ringDb_keeps | apply State.each_keeps
      | apply keeps_ite | apply keeps_foldl
  | split

theorem State.writeBar0_keeps {s t : State} (h : Keeps s t) (i : Sys2Proof.Ifc) (a : Nat) (v : Nat) :
    Keeps s (State.writeBar0 t i a v) := by
  unfold State.writeBar0
  repeat' first
  | intro _
  | with_reducible assumption
  | fail_if_no_progress extract_lets +onlyGivenNames z
    first
    | (refine (have hz : Keeps s z := ?_; ?_))
      subst z
      rotate_left
      try clear_value z
    | try clear_value z
  | with_reducible
      first
      | apply State.regWrite_keeps | apply State.pageWrite_keeps | apply State.mbWrite_keeps
      | apply State.errLog_keeps | apply keeps_ite | apply keeps_foldl
  | split

theorem State.writePage_keeps {s t : State} (h : Keeps s t) (i : Sys2Proof.Ifc) (n : Nat) (a : Nat) (bs : List Nat) :
    Keeps s (State.writePage t i n a bs) := by
  unfold State.writePage
  repeat' first
  | intro _
  | with_reducible assumption
  | fail_if_no_progress extract_lets +onlyGivenNames z
    first
    | (refine (have hz : Keeps s z := ?_; ?_))
      subst z
      rotate_left
      try clear_value z
    | try clear_value z
  | with_reducible
      first
      | apply State.pageWrite_keeps | apply State.errLog_keeps | apply keeps_ite | apply keeps_foldl
  | split

theorem State.writeWords_keeps {s : State} (i : Ifc) : ∀ (l : List Nat) {t : State}, Keeps s t → ∀ a,
    Keeps s (State.writeWords t i a l)
  | [], _, h, _ => h
  | [_], _, h, _ => by unfold State.writeWords; exact keeps_ite h (State.errLog_keeps h ..)
  | [_, _], _, h, _ => by unfold State.writeWords; exact keeps_ite h (State.errLog_keeps h ..)
  | [_, _, _], _, h, _ => by unfold State.writeWords; exact keeps_ite h (State.errLog_keeps h ..)
  | _ :: _ :: _ :: _ :: l, _, h, _ => State.writeWords_keeps i l (State.writeBar0_keeps h ..) _

theorem State.writeB0_keeps {s t : State} (h : Keeps s t) (a : Nat) (bs : List Nat) :
    Keeps s (State.writeB0 t a bs) := by
  unfold State.writeB0
  repeat' first
  | intro _
  | with_reducible assumption
  | fail_if_no_progress extract_lets +onlyGivenNames z
    first
    | (refine (have hz : Keeps s z := ?_; ?_))
      subst z
      rotate_left
      try clear_value z
    | try clear_value z
  | with_reducible
      first
      | apply State.writeWords_keeps | apply State.errLog_keeps | apply State.writePage_keeps
      | apply State.logAccess_keeps | apply keeps_ite | apply keeps_foldl
  | split

theorem State.writeB2_keeps {s t : State} (h : Keeps s t) (o : Nat) (bs : List Nat) :
    Keeps s (State.writeB2 t o bs) := by
  unfold State.writeB2
  repeat' first
  | intro _
  | with_reducible assumption
  | fail_if_no_progress extract_lets +onlyGivenNames z
    first
    | (refine (have hz : Keeps s z := ?_; ?_))
      subst z
      rotate_left
      try clear_value z
    | try clear_value z
  | with_reducible
      first
      | apply State.setBytes_keeps | apply State.errLog_keeps | apply keeps_ite | apply keeps_foldl
  | split

theorem State.writeBytes_keeps {s t : State} (h : Keeps s t) (i : Sys2Proof.Ifc) (a : Nat) (bs : List Nat) :
    Keeps s (State.writeBytes t i a bs) := by
  unfold State.writeBytes
  repeat' first
  | intro _
  | with_reducible assumption
  | fail_if_no_progress extract_lets +onlyGivenNames z
    first
    | (refine (have hz : Keeps s z := ?_; ?_))
      subst z
      rotate_left
      try clear_value z
    | try clear_value z
  | with_reducible
      first
      | apply State.writeWords_keeps | apply State.writeB2_keeps | apply State.writeB0_keeps | apply keeps_ite
      | apply keeps_foldl
  | split

theorem State.write64_keeps {s t : State} (h : Keeps s t) (i : Sys2Proof.Ifc) (a : Nat) (v : Nat) :
    Keeps s (State.write64 t i a v) := by
  unfold State.write64
  repeat' first
  | intro _
  | with_reducible assumption
  | fail_if_no_progress extract_lets +onlyGivenNames z
    first
    | (refine (have hz : Keeps s z := ?_; ?_))
      subst z
      rotate_left
      try clear_value z
    | try clear_value z
  | with_reducible
      first
      | apply State.put_keeps | apply State.writeBar0_keeps | apply State.writeB0_keeps | apply State.writeB2_keeps
      | apply keeps_ite | apply keeps_foldl
  | split

theorem execReg64LowRead_keeps {s t : State} (h : Keeps s t) (ifc : Sys2Proof.Ifc) (addr : Nat) :
    KeepsOut s (execReg64LowRead ifc addr t) := by
  unfold execReg64LowRead
  repeat' first
  | intro _
  | with_reducible assumption
  | fail_if_no_progress extract_lets +onlyGivenNames z
    first
    | (refine (have hz : Keeps s z := ?_; ?_))
      subst z
      rotate_left
      try clear_value z
    | try clear_value z
  | with_reducible
      first
      | apply keepsOut_next | apply State.readBytes_keeps | apply keeps_ite | apply keeps_foldl
  | split

theorem State.writeHalf_keeps {s t : State} (h : Keeps s t) (i : Sys2Proof.Ifc) (a : Nat) (v : Nat) :
    Keeps s (State.writeHalf t i a v) := by
  unfold State.writeHalf
  repeat' first
  | intro _
  | with_reducible assumption
  | fail_if_no_progress extract_lets +onlyGivenNames z
    first
    | (refine (have hz : Keeps s z := ?_; ?_))
      subst z
      rotate_left
      try clear_value z
    | try clear_value z
  | with_reducible
      first
      | apply State.writeBytes_keeps | apply keeps_ite | apply keeps_foldl
  | split

theorem execReg64HighWrite_keeps {s t : State} (h : Keeps s t) (ifc : Sys2Proof.Ifc) (addr : Nat) (v : Nat) :
    KeepsOut s (execReg64HighWrite ifc addr v t) := by
  unfold execReg64HighWrite
  repeat' first
  | intro _
  | with_reducible assumption
  | fail_if_no_progress extract_lets +onlyGivenNames z
    first
    | (refine (have hz : Keeps s z := ?_; ?_))
      subst z
      rotate_left
      try clear_value z
    | try clear_value z
  | with_reducible
      first
      | apply keepsOut_next | apply State.writeHalf_keeps | apply keeps_ite | apply keeps_foldl
  | split

theorem execReg64LowWrite_keeps {s t : State} (h : Keeps s t) (ifc : Sys2Proof.Ifc) (addr : Nat) (v : Nat) :
    KeepsOut s (execReg64LowWrite ifc addr v t) := by
  unfold execReg64LowWrite
  repeat' first
  | intro _
  | with_reducible assumption
  | fail_if_no_progress extract_lets +onlyGivenNames z
    first
    | (refine (have hz : Keeps s z := ?_; ?_))
      subst z
      rotate_left
      try clear_value z
    | try clear_value z
  | with_reducible
      first
      | apply keepsOut_next | apply State.writeHalf_keeps | apply keeps_ite | apply keeps_foldl
  | split

theorem execPcie64Read_keeps {s t : State} (h : Keeps s t) (ifc : Sys2Proof.Ifc) (addr : Nat) :
    KeepsOut s (execPcie64Read ifc addr t) := by
  unfold execPcie64Read
  repeat' first
  | intro _
  | with_reducible assumption
  | fail_if_no_progress extract_lets +onlyGivenNames z
    first
    | (refine (have hz : Keeps s z := ?_; ?_))
      subst z
      rotate_left
      try clear_value z
    | try clear_value z
  | with_reducible
      first
      | apply keepsOut_next | apply State.readBytes_keeps | apply keeps_ite | apply keeps_foldl
  | split

theorem execPcie64Write_keeps {s t : State} (h : Keeps s t) (ifc : Sys2Proof.Ifc) (addr : Nat) (v : Nat) :
    KeepsOut s (execPcie64Write ifc addr v t) := by
  unfold execPcie64Write
  repeat' first
  | intro _
  | with_reducible assumption
  | fail_if_no_progress extract_lets +onlyGivenNames z
    first
    | (refine (have hz : Keeps s z := ?_; ?_))
      subst z
      rotate_left
      try clear_value z
    | try clear_value z
  | with_reducible
      first
      | apply keepsOut_next | apply State.write64_keeps | apply keeps_ite | apply keeps_foldl
  | split

theorem execW1cWrite_keeps {s t : State} (h : Keeps s t) (ifc : Sys2Proof.Ifc) (addr : Nat) (v : Nat) (hw : Nat) :
    KeepsOut s (execW1cWrite ifc addr v hw t) := by
  unfold execW1cWrite
  repeat' first
  | intro _
  | with_reducible assumption
  | fail_if_no_progress extract_lets +onlyGivenNames z
    first
    | (refine (have hz : Keeps s z := ?_; ?_))
      subst z
      rotate_left
      try clear_value z
    | try clear_value z
  | with_reducible
      first
      | apply keepsOut_next | apply State.writeHalf_keeps | apply State.w1cWrite_keeps | apply keeps_ite
      | apply keeps_foldl
  | split

theorem State.rcEvents_keeps {s t : State} (h : Keeps s t) (a : Nat) (ev : Nat) :
    Keeps s (State.rcEvents t a ev) := by
  unfold State.rcEvents
  repeat' first
  | intro _
  | with_reducible assumption
  | fail_if_no_progress extract_lets +onlyGivenNames z
    first
    | (refine (have hz : Keeps s z := ?_; ?_))
      subst z
      rotate_left
      try clear_value z
    | try clear_value z
  | with_reducible
      first
      | apply State.addSat_keeps | apply State.each_keeps | apply keeps_ite | apply keeps_foldl
  | split

theorem execRcRead_keeps {s t : State} (h : Keeps s t) (ifc : Sys2Proof.Ifc) (addr : Nat) (ev : Nat) :
    KeepsOut s (execRcRead ifc addr ev t) := by
  unfold execRcRead
  repeat' first
  | intro _
  | with_reducible assumption
  | fail_if_no_progress extract_lets +onlyGivenNames z
    first
    | (refine (have hz : Keeps s z := ?_; ?_))
      subst z
      rotate_left
      try clear_value z
    | try clear_value z
  | with_reducible
      first
      | apply keepsOut_next | apply State.rcEvents_keeps | apply State.readBytes_keeps | apply keeps_ite
      | apply keeps_foldl
  | split

theorem execRegisterWrite_keeps {s t : State} (h : Keeps s t) (ifc : Sys2Proof.Ifc) (addr : Nat) (bytes : List Nat) :
    KeepsOut s (execRegisterWrite ifc addr bytes t) := by
  unfold execRegisterWrite
  repeat' first
  | intro _
  | with_reducible assumption
  | fail_if_no_progress extract_lets +onlyGivenNames z
    first
    | (refine (have hz : Keeps s z := ?_; ?_))
      subst z
      rotate_left
      try clear_value z
    | try clear_value z
  | with_reducible
      first
      | apply keepsOut_next | apply State.writeBytes_keeps | apply keeps_ite | apply keeps_foldl
  | split

theorem execRegisterRead_keeps {s t : State} (h : Keeps s t) (ifc : Sys2Proof.Ifc) (addr : Nat) (size : Nat) :
    KeepsOut s (execRegisterRead ifc addr size t) := by
  unfold execRegisterRead
  repeat' first
  | intro _
  | with_reducible assumption
  | fail_if_no_progress extract_lets +onlyGivenNames z
    first
    | (refine (have hz : Keeps s z := ?_; ?_))
      subst z
      rotate_left
      try clear_value z
    | try clear_value z
  | with_reducible
      first
      | apply keepsOut_next | apply State.readBytes_keeps | apply keeps_ite | apply keeps_foldl
  | split

theorem execPciePowerState_keeps {s t : State} (h : Keeps s t) (d3hot : Bool) :
    KeepsOut s (execPciePowerState d3hot t) := by
  unfold execPciePowerState
  repeat' first
  | intro _
  | with_reducible assumption
  | fail_if_no_progress extract_lets +onlyGivenNames z
    first
    | (refine (have hz : Keeps s z := ?_; ?_))
      subst z
      rotate_left
      try clear_value z
    | try clear_value z
  | with_reducible
      first
      | apply keepsOut_next | apply State.put_keeps | apply keeps_ite | apply keeps_foldl
  | split

theorem execFastRead_keeps {s t : State} (h : Keeps s t) (addr : Nat) (words : Nat) :
    KeepsOut s (execFastRead addr words t) := by
  unfold execFastRead
  repeat' first
  | intro _
  | with_reducible assumption
  | fail_if_no_progress extract_lets +onlyGivenNames z
    first
    | (refine (have hz : Keeps s z := ?_; ?_))
      subst z
      rotate_left
      try clear_value z
    | try clear_value z
  | with_reducible
      first
      | apply keepsOut_next | apply State.readBytes_keeps | apply keeps_ite | apply keeps_foldl
  | split

theorem execQuadRead_keeps {s t : State} (h : Keeps s t) (addr : Nat) (words : Nat) :
    KeepsOut s (execQuadRead addr words t) := by
  unfold execQuadRead
  repeat' first
  | intro _
  | with_reducible assumption
  | fail_if_no_progress extract_lets +onlyGivenNames z
    first
    | (refine (have hz : Keeps s z := ?_; ?_))
      subst z
      rotate_left
      try clear_value z
    | try clear_value z
  | with_reducible
      first
      | apply keepsOut_next | apply State.readBytes_keeps | apply keeps_ite | apply keeps_foldl
  | split

theorem execWrite_keeps {s t : State} (h : Keeps s t) (addr : Nat) (bytes : List Nat) :
    KeepsOut s (execWrite addr bytes t) := by
  unfold execWrite
  repeat' first
  | intro _
  | with_reducible assumption
  | fail_if_no_progress extract_lets +onlyGivenNames z
    first
    | (refine (have hz : Keeps s z := ?_; ?_))
      subst z
      rotate_left
      try clear_value z
    | try clear_value z
  | with_reducible
      first
      | apply keepsOut_next | apply State.writeBytes_keeps | apply keeps_ite | apply keeps_foldl
  | split

theorem execQuadWrite_keeps {s t : State} (h : Keeps s t) (addr : Nat) (bytes : List Nat) :
    KeepsOut s (execQuadWrite addr bytes t) := by
  unfold execQuadWrite
  repeat' first
  | intro _
  | with_reducible assumption
  | fail_if_no_progress extract_lets +onlyGivenNames z
    first
    | (refine (have hz : Keeps s z := ?_; ?_))
      subst z
      rotate_left
      try clear_value z
    | try clear_value z
  | with_reducible
      first
      | apply keepsOut_next | apply State.writeBytes_keeps | apply keeps_ite | apply keeps_foldl
  | split

theorem execReadStatus_keeps {s t : State} (h : Keeps s t) :
    KeepsOut s (execReadStatus t) := by
  unfold execReadStatus
  repeat' first
  | intro _
  | with_reducible assumption
  | fail_if_no_progress extract_lets +onlyGivenNames z
    first
    | (refine (have hz : Keeps s z := ?_; ?_))
      subst z
      rotate_left
      try clear_value z
    | try clear_value z
  | with_reducible
      first
      | apply keepsOut_next | apply keeps_ite | apply keeps_foldl
  | split
  | with_reducible apply keeps_mk

theorem execMbxDb_keeps {s t : State} (h : Keeps s t) (ifc : Sys2Proof.Ifc) (n : Nat) :
    KeepsOut s (execMbxDb ifc n t) := by
  unfold execMbxDb
  repeat' first
  | intro _
  | with_reducible assumption
  | fail_if_no_progress extract_lets +onlyGivenNames z
    first
    | (refine (have hz : Keeps s z := ?_; ?_))
      subst z
      rotate_left
      try clear_value z
    | try clear_value z
  | with_reducible
      first
      | apply keepsOut_next | apply State.writeHalf_keeps | apply keeps_ite | apply keeps_foldl
  | split

theorem execHifDbAll_keeps {s t : State} (h : Keeps s t) (ifc : Sys2Proof.Ifc) (mask : Nat) :
    KeepsOut s (execHifDbAll ifc mask t) := by
  unfold execHifDbAll
  repeat' first
  | intro _
  | with_reducible assumption
  | fail_if_no_progress extract_lets +onlyGivenNames z
    first
    | (refine (have hz : Keeps s z := ?_; ?_))
      subst z
      rotate_left
      try clear_value z
    | try clear_value z
  | with_reducible
      first
      | apply keepsOut_next | apply State.writeHalf_keeps | apply keeps_ite | apply keeps_foldl
  | split

theorem execMbxAck_keeps {s t : State} (h : Keeps s t) (ifc : Sys2Proof.Ifc) (n : Nat) :
    KeepsOut s (execMbxAck ifc n t) := by
  unfold execMbxAck
  repeat' first
  | intro _
  | with_reducible assumption
  | fail_if_no_progress extract_lets +onlyGivenNames z
    first
    | (refine (have hz : Keeps s z := ?_; ?_))
      subst z
      rotate_left
      try clear_value z
    | try clear_value z
  | with_reducible
      first
      | apply keepsOut_next | apply State.writeHalf_keeps | apply keeps_ite | apply keeps_foldl
  | split

theorem execLopAck_keeps {s t : State} (h : Keeps s t) (k : Nat) :
    KeepsOut s (execLopAck k t) := by
  unfold execLopAck
  repeat' first
  | intro _
  | with_reducible assumption
  | fail_if_no_progress extract_lets +onlyGivenNames z
    first
    | (refine (have hz : Keeps s z := ?_; ?_))
      subst z
      rotate_left
      try clear_value z
    | try clear_value z
  | with_reducible
      first
      | apply keepsOut_next | apply State.lopAck_keeps | apply State.hostWord_keeps | apply keeps_ite
      | apply keeps_foldl
  | split

theorem execHifTick_keeps {s t : State} (h : Keeps s t) :
    KeepsOut s (execHifTick t) := by
  unfold execHifTick
  repeat' first
  | intro _
  | with_reducible assumption
  | fail_if_no_progress extract_lets +onlyGivenNames z
    first
    | (refine (have hz : Keeps s z := ?_; ?_))
      subst z
      rotate_left
      try clear_value z
    | try clear_value z
  | with_reducible
      first
      | apply keepsOut_next | apply State.put_keeps | apply State.cause_keeps | apply keeps_ite | apply keeps_foldl
  | split

theorem execEcho_keeps {s t : State} (h : Keeps s t) (mb : Nat) :
    KeepsOut s (execEcho mb t) := by
  unfold execEcho
  repeat' first
  | intro _
  | with_reducible assumption
  | fail_if_no_progress extract_lets +onlyGivenNames z
    first
    | (refine (have hz : Keeps s z := ?_; ?_))
      subst z
      rotate_left
      try clear_value z
    | try clear_value z
  | with_reducible
      first
      | apply keepsOut_next | apply State.done_keeps | apply State.request_keeps | apply keeps_ite | apply keeps_foldl
  | split

theorem execGetInfo_keeps {s t : State} (h : Keeps s t) (mb : Nat) :
    KeepsOut s (execGetInfo mb t) := by
  unfold execGetInfo
  repeat' first
  | intro _
  | with_reducible assumption
  | fail_if_no_progress extract_lets +onlyGivenNames z
    first
    | (refine (have hz : Keeps s z := ?_; ?_))
      subst z
      rotate_left
      try clear_value z
    | try clear_value z
  | with_reducible
      first
      | apply keepsOut_next | apply State.done_keeps | apply State.request_keeps | apply keeps_ite | apply keeps_foldl
  | split

theorem execTagReset_keeps {s t : State} (h : Keeps s t) (mb : Nat) : KeepsOut s (execTagReset mb t) := by
  unfold execTagReset
  refine keepsOut_next (State.request_keeps h _ _ _ _ fun u hu => State.done_keeps (keeps_tags hu fun hl c => ?_) ..)
  exact (length_filter_filter_le ..).trans (hl c)

theorem execWinRead_keeps {s t : State} (h : Keeps s t) (mb : Nat) :
    KeepsOut s (execWinRead mb t) := by
  unfold execWinRead
  repeat' first
  | intro _
  | with_reducible assumption
  | fail_if_no_progress extract_lets +onlyGivenNames z
    first
    | (refine (have hz : Keeps s z := ?_; ?_))
      subst z
      rotate_left
      try clear_value z
    | try clear_value z
  | with_reducible
      first
      | apply keepsOut_next | apply State.done_keeps | apply State.fail_keeps | apply State.request_keeps
      | apply keeps_ite | apply keeps_foldl
  | split

theorem execWinWrite_keeps {s t : State} (h : Keeps s t) (mb : Nat) :
    KeepsOut s (execWinWrite mb t) := by
  unfold execWinWrite
  repeat' first
  | intro _
  | with_reducible assumption
  | fail_if_no_progress extract_lets +onlyGivenNames z
    first
    | (refine (have hz : Keeps s z := ?_; ?_))
      subst z
      rotate_left
      try clear_value z
    | try clear_value z
  | with_reducible
      first
      | apply keepsOut_next | apply State.setBytes_keeps | apply State.when_keeps | apply State.done_keeps
      | apply State.fail_keeps | apply State.request_keeps | apply keeps_ite | apply keeps_foldl
  | split

theorem State.lopAtAxis_keeps {s t : State} (h : Keeps s t) (mb : Nat) (opc : Nat) (a : Nat) :
    Keeps s (State.lopAtAxis t mb opc a) := by
  unfold State.lopAtAxis
  repeat' first
  | intro _
  | with_reducible assumption
  | fail_if_no_progress extract_lets +onlyGivenNames z
    first
    | (refine (have hz : Keeps s z := ?_; ?_))
      subst z
      rotate_left
      try clear_value z
    | try clear_value z
  | with_reducible
      first
      | apply State.postReq_keeps | apply keeps_ite | apply keeps_foldl
  | split

theorem State.lopSuspend_keeps {s t : State} (h : Keeps s t) (mb : Nat) (k : Nat) :
    Keeps s (State.lopSuspend t mb k) := by
  unfold State.lopSuspend
  repeat' first
  | intro _
  | with_reducible assumption
  | fail_if_no_progress extract_lets +onlyGivenNames z
    first
    | (refine (have hz : Keeps s z := ?_; ?_))
      subst z
      rotate_left
      try clear_value z
    | try clear_value z
  | with_reducible
      first
      | apply State.fail_keeps | apply State.put_keeps | apply State.when_keeps | apply State.lopSuspended_keeps
      | apply State.done_keeps | apply State.lopAtAxis_keeps | apply keeps_ite | apply keeps_foldl
  | split

theorem State.lopResume_keeps {s t : State} (h : Keeps s t) (mb : Nat) (k : Nat) :
    Keeps s (State.lopResume t mb k) := by
  unfold State.lopResume
  repeat' first
  | intro _
  | with_reducible assumption
  | fail_if_no_progress extract_lets +onlyGivenNames z
    first
    | (refine (have hz : Keeps s z := ?_; ?_))
      subst z
      rotate_left
      try clear_value z
    | try clear_value z
  | with_reducible
      first
      | apply State.put_keeps | apply State.cause_keeps | apply State.done_keeps | apply State.calStep_keeps
      | apply State.when_keeps | apply State.lopAtAxis_keeps | apply keeps_ite | apply keeps_foldl
  | split

theorem State.lopCancel_keeps {s t : State} (h : Keeps s t) (mb : Nat) (k : Nat) :
    Keeps s (State.lopCancel t mb k) := by
  unfold State.lopCancel
  repeat' first
  | intro _
  | with_reducible assumption
  | fail_if_no_progress extract_lets +onlyGivenNames z
    first
    | (refine (have hz : Keeps s z := ?_; ?_))
      subst z
      rotate_left
      try clear_value z
    | try clear_value z
  | with_reducible
      first
      | apply State.fail_keeps | apply State.put_keeps | apply State.lopEnd_keeps | apply State.lopAtAxis_keeps
      | apply State.homingEnd_keeps | apply State.done_keeps | apply keeps_ite | apply keeps_foldl
  | split

theorem State.lopCtl_keeps {s t : State} (h : Keeps s t) (mb : Nat) (opc : Nat) (f : State → Nat → State) (hf : ∀ t0
    x1, Keeps s t0 → Keeps s (f t0 x1)) :
    Keeps s (State.lopCtl t mb opc f) := by
  unfold State.lopCtl
  repeat' first
  | intro _
  | with_reducible assumption
  | fail_if_no_progress extract_lets +onlyGivenNames z
    first
    | (refine (have hz : Keeps s z := ?_; ?_))
      subst z
      rotate_left
      try clear_value z
    | try clear_value z
  | with_reducible
      first
      | apply State.fail_keeps | apply State.request_keeps | apply hf | apply keeps_ite | apply keeps_foldl
  | split

theorem execLopSuspend_keeps {s t : State} (h : Keeps s t) (mb : Nat) :
    KeepsOut s (execLopSuspend mb t) := by
  unfold execLopSuspend
  repeat' first
  | intro _
  | with_reducible assumption
  | fail_if_no_progress extract_lets +onlyGivenNames z
    first
    | (refine (have hz : Keeps s z := ?_; ?_))
      subst z
      rotate_left
      try clear_value z
    | try clear_value z
  | with_reducible
      first
      | apply keepsOut_next | apply State.lopSuspend_keeps | apply State.lopCtl_keeps | apply keeps_ite
      | apply keeps_foldl
  | split

theorem execLopResume_keeps {s t : State} (h : Keeps s t) (mb : Nat) :
    KeepsOut s (execLopResume mb t) := by
  unfold execLopResume
  repeat' first
  | intro _
  | with_reducible assumption
  | fail_if_no_progress extract_lets +onlyGivenNames z
    first
    | (refine (have hz : Keeps s z := ?_; ?_))
      subst z
      rotate_left
      try clear_value z
    | try clear_value z
  | with_reducible
      first
      | apply keepsOut_next | apply State.lopResume_keeps | apply State.lopCtl_keeps | apply keeps_ite
      | apply keeps_foldl
  | split

theorem execLopCancel_keeps {s t : State} (h : Keeps s t) (mb : Nat) :
    KeepsOut s (execLopCancel mb t) := by
  unfold execLopCancel
  repeat' first
  | intro _
  | with_reducible assumption
  | fail_if_no_progress extract_lets +onlyGivenNames z
    first
    | (refine (have hz : Keeps s z := ?_; ?_))
      subst z
      rotate_left
      try clear_value z
    | try clear_value z
  | with_reducible
      first
      | apply keepsOut_next | apply State.lopCancel_keeps | apply State.lopCtl_keeps | apply keeps_ite
      | apply keeps_foldl
  | split

theorem State.domsUp_keeps {s t : State} (h : Keeps s t) (m : Nat) :
    Keeps s (State.domsUp t m) := by
  unfold State.domsUp
  repeat' first
  | intro _
  | with_reducible assumption
  | fail_if_no_progress extract_lets +onlyGivenNames z
    first
    | (refine (have hz : Keeps s z := ?_; ?_))
      subst z
      rotate_left
      try clear_value z
    | try clear_value z
  | with_reducible
      first
      | apply State.put_keeps | apply keeps_ite | apply keeps_foldl
  | split

theorem State.domsOff_keeps {s t : State} (h : Keeps s t) (m : Nat) :
    Keeps s (State.domsOff t m) := by
  unfold State.domsOff
  repeat' first
  | intro _
  | with_reducible assumption
  | fail_if_no_progress extract_lets +onlyGivenNames z
    first
    | (refine (have hz : Keeps s z := ?_; ?_))
      subst z
      rotate_left
      try clear_value z
    | try clear_value z
  | with_reducible
      first
      | apply State.put_keeps | apply keeps_ite | apply keeps_foldl
  | split

theorem State.runState_keeps {s t : State} (h : Keeps s t) :
    Keeps s (State.runState t) := by
  unfold State.runState
  repeat' first
  | intro _
  | with_reducible assumption
  | fail_if_no_progress extract_lets +onlyGivenNames z
    first
    | (refine (have hz : Keeps s z := ?_; ?_))
      subst z
      rotate_left
      try clear_value z
    | try clear_value z
  | with_reducible
      first
      | apply State.put_keeps | apply keeps_ite | apply keeps_foldl
  | split

theorem State.standbyOff_keeps {s t : State} (h : Keeps s t) :
    Keeps s (State.standbyOff t) := by
  unfold State.standbyOff
  repeat' first
  | intro _
  | with_reducible assumption
  | fail_if_no_progress extract_lets +onlyGivenNames z
    first
    | (refine (have hz : Keeps s z := ?_; ?_))
      subst z
      rotate_left
      try clear_value z
    | try clear_value z
  | with_reducible
      first
      | apply State.post_keeps | apply State.zeroRange_keeps | apply State.drvReset_keeps | apply State.domsOff_keeps
      | apply State.setEngSt_keeps | apply State.put_keeps | apply State.each_keeps | apply State.engReset_keeps
      | apply keeps_ite | apply keeps_foldl
  | split

theorem State.standbyStep_keeps {s t : State} (h : Keeps s t) :
    Keeps s (State.standbyStep t) := by
  unfold State.standbyStep
  repeat' first
  | intro _
  | with_reducible assumption
  | fail_if_no_progress extract_lets +onlyGivenNames z
    first
    | (refine (have hz : Keeps s z := ?_; ?_))
      subst z
      rotate_left
      try clear_value z
    | try clear_value z
  | with_reducible
      first
      | apply State.loadUpdate_keeps | apply State.doneAll_keeps | apply State.standbyOff_keeps
      | apply State.put_keeps | apply State.when_keeps | apply keeps_ite | apply keeps_foldl
  | split

theorem State.standbyExit_keeps {s t : State} (h : Keeps s t) :
    Keeps s (State.standbyExit t) := by
  unfold State.standbyExit
  repeat' first
  | intro _
  | with_reducible assumption
  | fail_if_no_progress extract_lets +onlyGivenNames z
    first
    | (refine (have hz : Keeps s z := ?_; ?_))
      subst z
      rotate_left
      try clear_value z
    | try clear_value z
  | with_reducible
      first
      | apply State.doneAll_keeps | apply State.post_keeps | apply State.each_keeps | apply State.drvReset_keeps
      | apply State.runState_keeps | apply State.put_keeps | apply State.domsUp_keeps | apply State.engReset_keeps
      | apply keeps_ite | apply keeps_foldl
  | split

theorem State.hibernate_keeps {s t : State} (h : Keeps s t) (mb : Nat) (tmr : Nat) :
    Keeps s (State.hibernate t mb tmr) := by
  unfold State.hibernate
  repeat' first
  | intro _
  | with_reducible assumption
  | fail_if_no_progress extract_lets +onlyGivenNames z
    first
    | (refine (have hz : Keeps s z := ?_; ?_))
      subst z
      rotate_left
      try clear_value z
    | try clear_value z
  | with_reducible
      first
      | apply State.orBit_keeps | apply State.put_keeps | apply State.keepList_keeps | apply State.flashKept_keeps
      | apply State.keepRange_keeps | apply State.done_keeps | apply keeps_ite | apply keeps_foldl
  | split

theorem State.wakeFrom_keeps {s t : State} (h : Keeps s t) (cause : Nat) :
    Keeps s (State.wakeFrom t cause) := by
  unfold State.wakeFrom
  repeat' first
  | intro _
  | with_reducible assumption
  | fail_if_no_progress extract_lets +onlyGivenNames z
    first
    | (refine (have hz : Keeps s z := ?_; ?_))
      subst z
      rotate_left
      try clear_value z
    | try clear_value z
  | with_reducible
      first
      | apply State.newChal_keeps | apply State.romStart_keeps | apply State.clearBit_keeps | apply State.put_keeps
      | apply keeps_ite | apply keeps_foldl
  | split

theorem State.bootPower_keeps {s t : State} (h : Keeps s t) :
    Keeps s (State.bootPower t) := by
  unfold State.bootPower
  repeat' first
  | intro _
  | with_reducible assumption
  | fail_if_no_progress extract_lets +onlyGivenNames z
    first
    | (refine (have hz : Keeps s z := ?_; ?_))
      subst z
      rotate_left
      try clear_value z
    | try clear_value z
  | with_reducible
      first
      | apply State.domsUp_keeps | apply State.put_keeps | apply keeps_ite | apply keeps_foldl
  | split

theorem State.bootEngines_keeps {s t : State} (h : Keeps s t) :
    Keeps s (State.bootEngines t) := by
  unfold State.bootEngines
  repeat' first
  | intro _
  | with_reducible assumption
  | fail_if_no_progress extract_lets +onlyGivenNames z
    first
    | (refine (have hz : Keeps s z := ?_; ?_))
      subst z
      rotate_left
      try clear_value z
    | try clear_value z
  | with_reducible
      first
      | apply State.progReload_keeps | apply State.setEngSt_keeps | apply State.orBit_keeps | apply State.put_keeps
      | apply State.each_keeps | apply State.loadUpdate_keeps | apply keeps_ite | apply keeps_foldl
  | split

theorem State.bootFirmware_keeps {s t : State} (h : Keeps s t) (us : Nat) :
    Keeps s (State.bootFirmware t us) := by
  unfold State.bootFirmware
  repeat' first
  | intro _
  | with_reducible assumption
  | fail_if_no_progress extract_lets +onlyGivenNames z
    first
    | (refine (have hz : Keeps s z := ?_; ?_))
      subst z
      rotate_left
      try clear_value z
    | try clear_value z
  | with_reducible
      first
      | apply State.gaveUp_keeps | apply State.ringStart_keeps | apply State.when_keeps | apply State.each_keeps
      | apply State.flView_keeps | apply State.scStart_keeps | apply State.bootImage_keeps
      | apply State.ovlFromStore_keeps | apply State.bootEngines_keeps | apply State.runState_keeps
      | apply State.put_keeps | apply keeps_ite | apply keeps_foldl
  | split

theorem State.bootRun_keeps {s t : State} (h : Keeps s t) (us : Nat) :
    Keeps s (State.bootRun t us) := by
  unfold State.bootRun
  repeat' first
  | intro _
  | with_reducible assumption
  | fail_if_no_progress extract_lets +onlyGivenNames z
    first
    | (refine (have hz : Keeps s z := ?_; ?_))
      subst z
      rotate_left
      try clear_value z
    | try clear_value z
  | with_reducible
      first
      | apply State.bootFirmware_keeps | apply State.put_keeps | apply State.bootPower_keeps
      | apply State.fwPick_keeps | apply keeps_ite | apply keeps_foldl
  | split

theorem State.partnerReset_keeps {s t : State} (h : Keeps s t) :
    Keeps s (State.partnerReset t) := by
  unfold State.partnerReset
  repeat' first
  | intro _
  | with_reducible assumption
  | fail_if_no_progress extract_lets +onlyGivenNames z
    first
    | (refine (have hz : Keeps s z := ?_; ?_))
      subst z
      rotate_left
      try clear_value z
    | try clear_value z
  | with_reducible
      first
      | apply State.warmReset_keeps | apply State.keepList_keeps | apply State.put_keeps | apply State.romStart_keeps
      | apply keeps_ite | apply keeps_foldl
  | split

theorem State.scopeReset_keeps {s t : State} (h : Keeps s t) (mb : Nat) (scope : Nat) :
    Keeps s (State.scopeReset t mb scope) := by
  unfold State.scopeReset
  repeat' first
  | intro _
  | with_reducible assumption
  | fail_if_no_progress extract_lets +onlyGivenNames z
    first
    | (refine (have hz : Keeps s z := ?_; ?_))
      subst z
      rotate_left
      try clear_value z
    | try clear_value z
  | with_reducible
      first
      | apply State.engReset_keeps | apply State.drvReset_keeps | apply State.when_keeps | apply State.safetyUse_keeps
      | apply State.safeReset_keeps | apply State.done_keeps | apply State.mgmtReset_keeps | apply State.orBit_keeps
      | apply State.warmReset_keeps | apply keeps_ite | apply keeps_foldl
  | split

theorem execPwrStateSet_keeps {s t : State} (h : Keeps s t) (mb : Nat) :
    KeepsOut s (execPwrStateSet mb t) := by
  unfold execPwrStateSet
  dsimp only
  repeat' first
  | intro _
  | with_reducible assumption
  | with_reducible
      first
      | apply keepsOut_next | apply State.hibernate_keeps | apply State.runState_keeps | apply State.done_keeps
      | apply State.wait_keeps | apply State.fail_keeps | apply State.put_keeps | apply State.request_keeps
      | apply keeps_ite | apply keeps_foldl
  | split

theorem execStandbyEntry_keeps {s t : State} (h : Keeps s t) :
    KeepsOut s (execStandbyEntry t) := by
  unfold execStandbyEntry
  repeat' first
  | intro _
  | with_reducible assumption
  | fail_if_no_progress extract_lets +onlyGivenNames z
    first
    | (refine (have hz : Keeps s z := ?_; ?_))
      subst z
      rotate_left
      try clear_value z
    | try clear_value z
  | with_reducible
      first
      | apply keepsOut_next | apply State.standbyStep_keeps | apply keeps_ite | apply keeps_foldl
  | split

theorem execStandbyExitComplete_keeps {s t : State} (h : Keeps s t) :
    KeepsOut s (execStandbyExitComplete t) := by
  unfold execStandbyExitComplete
  repeat' first
  | intro _
  | with_reducible assumption
  | fail_if_no_progress extract_lets +onlyGivenNames z
    first
    | (refine (have hz : Keeps s z := ?_; ?_))
      subst z
      rotate_left
      try clear_value z
    | try clear_value z
  | with_reducible
      first
      | apply keepsOut_next | apply State.standbyExit_keeps | apply keeps_ite | apply keeps_foldl
  | split

theorem execWake_keeps {s t : State} (h : Keeps s t) (cause : Nat) :
    KeepsOut s (execWake cause t) := by
  unfold execWake
  repeat' first
  | intro _
  | with_reducible assumption
  | fail_if_no_progress extract_lets +onlyGivenNames z
    first
    | (refine (have hz : Keeps s z := ?_; ?_))
      subst z
      rotate_left
      try clear_value z
    | try clear_value z
  | with_reducible
      first
      | apply keepsOut_next | apply State.wakeFrom_keeps | apply keeps_ite | apply keeps_foldl
  | split

theorem execVinLoss_keeps {s t : State} (h : Keeps s t) :
    KeepsOut s (execVinLoss t) := by
  unfold execVinLoss
  repeat' first
  | intro _
  | with_reducible assumption
  | fail_if_no_progress extract_lets +onlyGivenNames z
    first
    | (refine (have hz : Keeps s z := ?_; ?_))
      subst z
      rotate_left
      try clear_value z
    | try clear_value z
  | with_reducible
      first
      | apply keepsOut_next | apply State.powerReset_keeps | apply State.clearBit_keeps | apply State.orBit_keeps
      | apply keeps_ite | apply keeps_foldl
  | split

theorem execPowerOnReset_keeps {s t : State} (h : Keeps s t) (held : Bool) :
    KeepsOut s (execPowerOnReset held t) := by
  unfold execPowerOnReset
  repeat' first
  | intro _
  | with_reducible assumption
  | fail_if_no_progress extract_lets +onlyGivenNames z
    first
    | (refine (have hz : Keeps s z := ?_; ?_))
      subst z
      rotate_left
      try clear_value z
    | try clear_value z
  | with_reducible
      first
      | apply keepsOut_next | apply State.romStart_keeps | apply State.powerReset_keeps | apply State.clearBit_keeps
      | apply State.orBit_keeps | apply keeps_ite | apply keeps_foldl
  | split

theorem execRstN_keeps {s t : State} (h : Keeps s t) (low : Bool) (hsel : Nat) :
    KeepsOut s (execRstN low hsel t) := by
  unfold execRstN
  repeat' first
  | intro _
  | with_reducible assumption
  | fail_if_no_progress extract_lets +onlyGivenNames z
    first
    | (refine (have hz : Keeps s z := ?_; ?_))
      subst z
      rotate_left
      try clear_value z
    | try clear_value z
  | with_reducible
      first
      | apply keepsOut_next | apply State.warmReset_keeps | apply State.orBit_keeps | apply State.clearBit_keeps
      | apply State.put_keeps | apply State.romStart_keeps | apply keeps_ite | apply keeps_foldl
  | split

theorem execConjunctionReset_keeps {s t : State} (h : Keeps s t) :
    KeepsOut s (execConjunctionReset t) := by
  unfold execConjunctionReset
  repeat' first
  | intro _
  | with_reducible assumption
  | fail_if_no_progress extract_lets +onlyGivenNames z
    first
    | (refine (have hz : Keeps s z := ?_; ?_))
      subst z
      rotate_left
      try clear_value z
    | try clear_value z
  | with_reducible
      first
      | apply keepsOut_next | apply State.partnerReset_keeps | apply keeps_ite | apply keeps_foldl
  | split

theorem execFirmwareWatchdog_keeps {s t : State} (h : Keeps s t) :
    KeepsOut s (execFirmwareWatchdog t) := by
  unfold execFirmwareWatchdog
  repeat' first
  | intro _
  | with_reducible assumption
  | fail_if_no_progress extract_lets +onlyGivenNames z
    first
    | (refine (have hz : Keeps s z := ?_; ?_))
      subst z
      rotate_left
      try clear_value z
    | try clear_value z
  | with_reducible
      first
      | apply keepsOut_next | apply State.incSat_keeps | apply State.mgmtReset_keeps | apply State.orBit_keeps
      | apply keeps_ite | apply keeps_foldl
  | split

theorem execHostSideReset_keeps {s t : State} (h : Keeps s t) :
    KeepsOut s (execHostSideReset t) := by
  unfold execHostSideReset
  repeat' first
  | intro _
  | with_reducible assumption
  | fail_if_no_progress extract_lets +onlyGivenNames z
    first
    | (refine (have hz : Keeps s z := ?_; ?_))
      subst z
      rotate_left
      try clear_value z
    | try clear_value z
  | with_reducible
      first
      | apply keepsOut_next | apply State.hostReset_keeps | apply State.orBit_keeps | apply keeps_ite
      | apply keeps_foldl
  | split

theorem execPwrReset_keeps {s t : State} (h : Keeps s t) (mb : Nat) :
    KeepsOut s (execPwrReset mb t) := by
  unfold execPwrReset
  repeat' first
  | intro _
  | with_reducible assumption
  | fail_if_no_progress extract_lets +onlyGivenNames z
    first
    | (refine (have hz : Keeps s z := ?_; ?_))
      subst z
      rotate_left
      try clear_value z
    | try clear_value z
  | with_reducible
      first
      | apply keepsOut_next | apply State.scopeReset_keeps | apply State.fail_keeps | apply State.request_keeps
      | apply keeps_ite | apply keeps_foldl
  | split

theorem execPwrConfig_keeps {s t : State} (h : Keeps s t) (mb : Nat) :
    KeepsOut s (execPwrConfig mb t) := by
  unfold execPwrConfig
  repeat' first
  | intro _
  | with_reducible assumption
  | fail_if_no_progress extract_lets +onlyGivenNames z
    first
    | (refine (have hz : Keeps s z := ?_; ?_))
      subst z
      rotate_left
      try clear_value z
    | try clear_value z
  | with_reducible
      first
      | apply keepsOut_next | apply State.put_keeps | apply State.done_keeps | apply State.request_keeps
      | apply keeps_ite | apply keeps_foldl
  | split

theorem execBoot_keeps {s t : State} (h : Keeps s t) (us : Nat) :
    KeepsOut s (execBoot us t) := by
  unfold execBoot
  repeat' first
  | intro _
  | with_reducible assumption
  | fail_if_no_progress extract_lets +onlyGivenNames z
    first
    | (refine (have hz : Keeps s z := ?_; ?_))
      subst z
      rotate_left
      try clear_value z
    | try clear_value z
  | with_reducible
      first
      | apply keepsOut_next | apply State.bootRun_keeps | apply keeps_ite | apply keeps_foldl
  | split

theorem State.dbgRefuse_keeps {s t : State} (h : Keeps s t) :
    Keeps s (State.dbgRefuse t) := by
  unfold State.dbgRefuse
  repeat' first
  | intro _
  | with_reducible assumption
  | fail_if_no_progress extract_lets +onlyGivenNames z
    first
    | (refine (have hz : Keeps s z := ?_; ?_))
      subst z
      rotate_left
      try clear_value z
    | try clear_value z
  | with_reducible
      first
      | apply State.incSat_keeps | apply keeps_ite | apply keeps_foldl
  | split

theorem State.dbgFall_keeps {s t : State} (h : Keeps s t) :
    Keeps s (State.dbgFall t) := by
  unfold State.dbgFall
  repeat' first
  | intro _
  | with_reducible assumption
  | fail_if_no_progress extract_lets +onlyGivenNames z
    first
    | (refine (have hz : Keeps s z := ?_; ?_))
      subst z
      rotate_left
      try clear_value z
    | try clear_value z
  | with_reducible
      first
      | apply State.haltShow_keeps | apply State.engBack_keeps | apply State.put_keeps | apply State.when_keeps
      | apply State.each_keeps | apply keeps_ite | apply keeps_foldl
  | split

theorem State.dbgSet_keeps {s t : State} (h : Keeps s t) (lvl : Nat) :
    Keeps s (State.dbgSet t lvl) := by
  unfold State.dbgSet
  repeat' first
  | intro _
  | with_reducible assumption
  | fail_if_no_progress extract_lets +onlyGivenNames z
    first
    | (refine (have hz : Keeps s z := ?_; ?_))
      subst z
      rotate_left
      try clear_value z
    | try clear_value z
  | with_reducible
      first
      | apply State.dbgFall_keeps | apply State.put_keeps | apply State.when_keeps | apply keeps_ite
      | apply keeps_foldl
  | split

theorem State.dbgUp_keeps {s t : State} (h : Keeps s t) :
    Keeps s (State.dbgUp t) := by
  unfold State.dbgUp
  repeat' first
  | intro _
  | with_reducible assumption
  | fail_if_no_progress extract_lets +onlyGivenNames z
    first
    | (refine (have hz : Keeps s z := ?_; ?_))
      subst z
      rotate_left
      try clear_value z
    | try clear_value z
  | with_reducible
      first
      | apply State.dbgSet_keeps | apply keeps_ite | apply keeps_foldl
  | split

theorem State.dbgAsk_keeps {s t : State} (h : Keeps s t) (lvl : Nat) :
    Keeps s (State.dbgAsk t lvl) := by
  unfold State.dbgAsk
  repeat' first
  | intro _
  | with_reducible assumption
  | fail_if_no_progress extract_lets +onlyGivenNames z
    first
    | (refine (have hz : Keeps s z := ?_; ?_))
      subst z
      rotate_left
      try clear_value z
    | try clear_value z
  | with_reducible
      first
      | apply State.put_keeps | apply State.dbgUp_keeps | apply State.dbgRefuse_keeps | apply State.when_keeps
      | apply keeps_ite | apply keeps_foldl
  | split

theorem State.dbgOff_keeps {s t : State} (h : Keeps s t) :
    Keeps s (State.dbgOff t) := by
  unfold State.dbgOff
  repeat' first
  | intro _
  | with_reducible assumption
  | fail_if_no_progress extract_lets +onlyGivenNames z
    first
    | (refine (have hz : Keeps s z := ?_; ?_))
      subst z
      rotate_left
      try clear_value z
    | try clear_value z
  | with_reducible
      first
      | apply State.put_keeps | apply State.dbgSet_keeps | apply keeps_ite | apply keeps_foldl
  | split

theorem State.wantNow_keeps {s t : State} (h : Keeps s t) :
    Keeps s (State.wantNow t) := by
  unfold State.wantNow
  repeat' first
  | intro _
  | with_reducible assumption
  | fail_if_no_progress extract_lets +onlyGivenNames z
    first
    | (refine (have hz : Keeps s z := ?_; ?_))
      subst z
      rotate_left
      try clear_value z
    | try clear_value z
  | with_reducible
      first
      | apply State.haltShow_keeps | apply State.put_keeps | apply State.when_keeps | apply keeps_ite
      | apply keeps_foldl
  | split

theorem State.dbgSto_keeps {s t : State} (h : Keeps s t) :
    Keeps s (State.dbgSto t) := by
  unfold State.dbgSto
  repeat' first
  | intro _
  | with_reducible assumption
  | fail_if_no_progress extract_lets +onlyGivenNames z
    first
    | (refine (have hz : Keeps s z := ?_; ?_))
      subst z
      rotate_left
      try clear_value z
    | try clear_value z
  | with_reducible
      first
      | apply State.put_keeps | apply State.dbgUp_keeps | apply State.wantNow_keeps | apply State.when_keeps
      | apply keeps_ite | apply keeps_foldl
  | split

theorem State.dbgStop_keeps {s t : State} (h : Keeps s t) (k : Nat) :
    Keeps s (State.dbgStop t k) := by
  unfold State.dbgStop
  repeat' first
  | intro _
  | with_reducible assumption
  | fail_if_no_progress extract_lets +onlyGivenNames z
    first
    | (refine (have hz : Keeps s z := ?_; ?_))
      subst z
      rotate_left
      try clear_value z
    | try clear_value z
  | with_reducible
      first
      | apply State.fsEnter_keeps | apply State.orBit_keeps | apply State.dbgSto_keeps | apply keeps_ite
      | apply keeps_foldl
  | split

theorem State.haltCore_keeps {s t : State} (h : Keeps s t) (c : Nat) :
    Keeps s (State.haltCore t c) := by
  unfold State.haltCore
  repeat' first
  | intro _
  | with_reducible assumption
  | fail_if_no_progress extract_lets +onlyGivenNames z
    first
    | (refine (have hz : Keeps s z := ?_; ?_))
      subst z
      rotate_left
      try clear_value z
    | try clear_value z
  | with_reducible
      first
      | apply State.dbgStop_keeps | apply State.engStop_keeps | apply State.setEngSt_keeps
      | apply State.setService_keeps | apply State.haltShow_keeps | apply State.put_keeps | apply State.when_keeps
      | apply State.dbgRefuse_keeps | apply keeps_ite | apply keeps_foldl
  | split

theorem State.stepEngine_keeps {s t : State} (h : Keeps s t) (e : Nat) :
    Keeps s (State.stepEngine t e) := by
  unfold State.stepEngine
  repeat' first
  | intro _
  | with_reducible assumption
  | fail_if_no_progress extract_lets +onlyGivenNames z
    first
    | (refine (have hz : Keeps s z := ?_; ?_))
      subst z
      rotate_left
      try clear_value z
    | try clear_value z
  | with_reducible
      first
      | apply State.when_keeps | apply State.put_keeps | apply State.setEngSt_keeps | apply State.engFetch_keeps
      | apply keeps_ite | apply keeps_foldl
  | split

theorem State.pinInstr_keeps {s t : State} (h : Keeps s t) (k : Nat) :
    Keeps s (State.pinInstr t k) := by
  unfold State.pinInstr
  repeat' first
  | intro _
  | with_reducible assumption
  | fail_if_no_progress extract_lets +onlyGivenNames z
    first
    | (refine (have hz : Keeps s z := ?_; ?_))
      subst z
      rotate_left
      try clear_value z
    | try clear_value z
  | with_reducible
      first
      | apply State.put_keeps | apply State.dbgStop_keeps | apply State.dbgRefuse_keeps | apply keeps_ite
      | apply keeps_foldl
  | split

theorem State.secChange_keeps {s t : State} (h : Keeps s t) (st : Nat) :
    Keeps s (State.secChange t st) := by
  unfold State.secChange
  repeat' first
  | intro _
  | with_reducible assumption
  | fail_if_no_progress extract_lets +onlyGivenNames z
    first
    | (refine (have hz : Keeps s z := ?_; ?_))
      subst z
      rotate_left
      try clear_value z
    | try clear_value z
  | with_reducible
      first
      | apply State.put_keeps | apply State.sessionEnd_keeps | apply State.evAdd_keeps | apply State.dbgUp_keeps
      | apply keeps_ite | apply keeps_foldl
  | split

theorem State.serviceEnter_keeps {s t : State} (h : Keeps s t) :
    Keeps s (State.serviceEnter t) := by
  unfold State.serviceEnter
  repeat' first
  | intro _
  | with_reducible assumption
  | fail_if_no_progress extract_lets +onlyGivenNames z
    first
    | (refine (have hz : Keeps s z := ?_; ?_))
      subst z
      rotate_left
      try clear_value z
    | try clear_value z
  | with_reducible
      first
      | apply State.dbgUp_keeps | apply State.fsEnter_keeps | apply State.dbgSto_keeps | apply State.put_keeps
      | apply State.secChange_keeps | apply keeps_ite | apply keeps_foldl
  | split

theorem State.securityBoundary_keeps {s t : State} (h : Keeps s t) :
    Keeps s (State.securityBoundary t) := by
  unfold State.securityBoundary
  repeat' first
  | intro _
  | with_reducible assumption
  | fail_if_no_progress extract_lets +onlyGivenNames z
    first
    | (refine (have hz : Keeps s z := ?_; ?_))
      subst z
      rotate_left
      try clear_value z
    | try clear_value z
  | with_reducible
      first
      | apply State.dbgSto_keeps | apply State.doneAll_keeps | apply State.serviceEnter_keeps | apply State.when_keeps
      | apply keeps_ite | apply keeps_foldl
  | split

theorem State.tokenTake_keeps {s t : State} (h : Keeps s t) (y1 : List Nat) :
    Keeps s (State.tokenTake t y1).1 := by
  unfold State.tokenTake
  repeat' first
  | intro _
  | with_reducible assumption
  | fail_if_no_progress extract_lets +onlyGivenNames z
    first
    | (refine (have hz : Keeps s z := ?_; ?_))
      subst z
      rotate_left
      try clear_value z
    | try clear_value z
  | with_reducible
      first
      | apply State.put_keeps | apply State.dbgUp_keeps | apply State.incSat_keeps | apply State.newChal_keeps
      | apply keeps_ite | apply keeps_foldl
  | split

theorem State.dbgRead_keeps {s t : State} (h : Keeps s t) (sp : Sys2Proof.DbgSpace) (a : Nat) :
    Keeps s (State.dbgRead t sp a) := by
  unfold State.dbgRead
  repeat' first
  | intro _
  | with_reducible assumption
  | fail_if_no_progress extract_lets +onlyGivenNames z
    first
    | (refine (have hz : Keeps s z := ?_; ?_))
      subst z
      rotate_left
      try clear_value z
    | try clear_value z
  | with_reducible
      first
      | apply State.useFree_keeps | apply keeps_ite | apply keeps_foldl
  | split
  | with_reducible apply keeps_mk

theorem State.dbgWriteBar_keeps {s t : State} (h : Keeps s t) (sp : Sys2Proof.DbgSpace) (a : Nat) (v : Nat) :
    Keeps s (State.dbgWriteBar t sp a v) := by
  unfold State.dbgWriteBar
  repeat' first
  | intro _
  | with_reducible assumption
  | fail_if_no_progress extract_lets +onlyGivenNames z
    first
    | (refine (have hz : Keeps s z := ?_; ?_))
      subst z
      rotate_left
      try clear_value z
    | try clear_value z
  | with_reducible
      first
      | apply State.regWrite_keeps | apply State.store_keeps | apply State.mbWrite_keeps | apply keeps_ite
      | apply keeps_foldl
  | split

theorem State.engStore_keeps {s t : State} (h : Keeps s t) (e : Nat) (m : Nat) (a : Nat) (v : Nat) :
    Keeps s (State.engStore t e m a v) := by
  unfold State.engStore
  repeat' first
  | intro _
  | with_reducible assumption
  | fail_if_no_progress extract_lets +onlyGivenNames z
    first
    | (refine (have hz : Keeps s z := ?_; ?_))
      subst z
      rotate_left
      try clear_value z
    | try clear_value z
  | with_reducible
      first
      | apply State.errFix_keeps | apply State.store_keeps | apply keeps_ite | apply keeps_foldl
  | split

theorem State.dbgWrite_keeps {s t : State} (h : Keeps s t) (sp : Sys2Proof.DbgSpace) (a : Nat) (v : Nat) :
    Keeps s (State.dbgWrite t sp a v) := by
  unfold State.dbgWrite
  repeat' first
  | intro _
  | with_reducible assumption
  | fail_if_no_progress extract_lets +onlyGivenNames z
    first
    | (refine (have hz : Keeps s z := ?_; ?_))
      subst z
      rotate_left
      try clear_value z
    | try clear_value z
  | with_reducible
      first
      | apply State.dbgWriteBar_keeps | apply State.errWrote_keeps | apply State.store_keeps
      | apply State.putStoreWord_keeps | apply State.put_keeps | apply State.engStore_keeps
      | apply State.dbgRefuse_keeps | apply keeps_ite | apply keeps_foldl
  | split

theorem execSecProvision_keeps {s t : State} (h : Keeps s t) (mb : Nat) :
    KeepsOut s (execSecProvision mb t) := by
  unfold execSecProvision
  repeat' first
  | intro _
  | with_reducible assumption
  | fail_if_no_progress extract_lets +onlyGivenNames z
    first
    | (refine (have hz : Keeps s z := ?_; ?_))
      subst z
      rotate_left
      try clear_value z
    | try clear_value z
  | with_reducible
      first
      | apply keepsOut_next | apply State.secChange_keeps | apply State.done_keeps | apply State.put_keeps
      | apply State.when_keeps | apply State.each_keeps | apply State.useFree_keeps | apply State.fail_keeps
      | apply State.request_keeps | apply keeps_ite | apply keeps_foldl
  | split

theorem execSecSeal_keeps {s t : State} (h : Keeps s t) (mb : Nat) :
    KeepsOut s (execSecSeal mb t) := by
  unfold execSecSeal
  repeat' first
  | intro _
  | with_reducible assumption
  | fail_if_no_progress extract_lets +onlyGivenNames z
    first
    | (refine (have hz : Keeps s z := ?_; ?_))
      subst z
      rotate_left
      try clear_value z
    | try clear_value z
  | with_reducible
      first
      | apply keepsOut_next | apply State.secChange_keeps | apply State.dbgOff_keeps | apply State.injDisarm_keeps
      | apply State.done_keeps | apply State.fail_keeps | apply State.request_keeps | apply keeps_ite
      | apply keeps_foldl
  | split

theorem execSecToken_keeps {s t : State} (h : Keeps s t) (mb : Nat) :
    KeepsOut s (execSecToken mb t) := by
  unfold execSecToken
  repeat' first
  | intro _
  | with_reducible assumption
  | fail_if_no_progress extract_lets +onlyGivenNames z
    first
    | (refine (have hz : Keeps s z := ?_; ?_))
      subst z
      rotate_left
      try clear_value z
    | (refine (have hz : Keeps s z.1 := ?_; ?_))
      subst z
      rotate_left
      try clear_value z
    | (refine (have hz : Keeps s z.2 := ?_; ?_))
      subst z
      rotate_left
      try clear_value z
    | try clear_value z
  | with_reducible
      first
      | apply keepsOut_next | apply State.done_keeps | apply State.wait_keeps | apply State.fail_keeps
      | apply State.tokenTake_keeps | apply State.request_keeps | apply keeps_ite | apply keeps_foldl
  | split

theorem execSecRevoke_keeps {s t : State} (h : Keeps s t) (mb : Nat) :
    KeepsOut s (execSecRevoke mb t) := by
  unfold execSecRevoke
  repeat' first
  | intro _
  | with_reducible assumption
  | fail_if_no_progress extract_lets +onlyGivenNames z
    first
    | (refine (have hz : Keeps s z := ?_; ?_))
      subst z
      rotate_left
      try clear_value z
    | try clear_value z
  | with_reducible
      first
      | apply keepsOut_next | apply State.orBit_keeps | apply State.done_keeps | apply State.fail_keeps
      | apply State.request_keeps | apply keeps_ite | apply keeps_foldl
  | split

theorem execSecPwClear_keeps {s t : State} (h : Keeps s t) (mb : Nat) :
    KeepsOut s (execSecPwClear mb t) := by
  unfold execSecPwClear
  repeat' first
  | intro _
  | with_reducible assumption
  | fail_if_no_progress extract_lets +onlyGivenNames z
    first
    | (refine (have hz : Keeps s z := ?_; ?_))
      subst z
      rotate_left
      try clear_value z
    | try clear_value z
  | with_reducible
      first
      | apply keepsOut_next | apply State.changeWait_keeps | apply State.fail_keeps | apply State.request_keeps
      | apply keeps_ite | apply keeps_foldl
  | split

theorem execSecAttest_keeps {s t : State} (h : Keeps s t) (mb : Nat) :
    KeepsOut s (execSecAttest mb t) := by
  unfold execSecAttest
  repeat' first
  | intro _
  | with_reducible assumption
  | fail_if_no_progress extract_lets +onlyGivenNames z
    first
    | (refine (have hz : Keeps s z := ?_; ?_))
      subst z
      rotate_left
      try clear_value z
    | try clear_value z
  | with_reducible
      first
      | apply keepsOut_next | apply State.done_keeps | apply State.fail_keeps | apply State.request_keeps
      | apply keeps_ite | apply keeps_foldl
  | split

theorem execTapBypass_keeps {s t : State} (h : Keeps s t) :
    KeepsOut s (execTapBypass t) := by
  unfold execTapBypass
  repeat' first
  | intro _
  | with_reducible assumption
  | fail_if_no_progress extract_lets +onlyGivenNames z
    first
    | (refine (have hz : Keeps s z := ?_; ?_))
      subst z
      rotate_left
      try clear_value z
    | try clear_value z
  | with_reducible
      first
      | apply keepsOut_next | apply State.put_keeps | apply keeps_ite | apply keeps_foldl
  | split
  | with_reducible apply keeps_mk

theorem execIdcode_keeps {s t : State} (h : Keeps s t) :
    KeepsOut s (execIdcode t) := by
  unfold execIdcode
  repeat' first
  | intro _
  | with_reducible assumption
  | fail_if_no_progress extract_lets +onlyGivenNames z
    first
    | (refine (have hz : Keeps s z := ?_; ?_))
      subst z
      rotate_left
      try clear_value z
    | try clear_value z
  | with_reducible
      first
      | apply keepsOut_next | apply State.put_keeps | apply keeps_ite | apply keeps_foldl
  | split
  | with_reducible apply keeps_mk

theorem execSamplePreload_keeps {s t : State} (h : Keeps s t) (pins : Nat) :
    KeepsOut s (execSamplePreload pins t) := by
  unfold execSamplePreload
  repeat' first
  | intro _
  | with_reducible assumption
  | fail_if_no_progress extract_lets +onlyGivenNames z
    first
    | (refine (have hz : Keeps s z := ?_; ?_))
      subst z
      rotate_left
      try clear_value z
    | try clear_value z
  | with_reducible
      first
      | apply keepsOut_next | apply State.put_keeps | apply keeps_ite | apply keeps_foldl
  | split
  | with_reducible apply keeps_mk

theorem execExtest_keeps {s t : State} (h : Keeps s t) :
    KeepsOut s (execExtest t) := by
  unfold execExtest
  repeat' first
  | intro _
  | with_reducible assumption
  | fail_if_no_progress extract_lets +onlyGivenNames z
    first
    | (refine (have hz : Keeps s z := ?_; ?_))
      subst z
      rotate_left
      try clear_value z
    | try clear_value z
  | with_reducible
      first
      | apply keepsOut_next | apply State.put_keeps | apply State.pinInstr_keeps | apply keeps_ite | apply keeps_foldl
  | split

theorem execClamp_keeps {s t : State} (h : Keeps s t) :
    KeepsOut s (execClamp t) := by
  unfold execClamp
  repeat' first
  | intro _
  | with_reducible assumption
  | fail_if_no_progress extract_lets +onlyGivenNames z
    first
    | (refine (have hz : Keeps s z := ?_; ?_))
      subst z
      rotate_left
      try clear_value z
    | try clear_value z
  | with_reducible
      first
      | apply keepsOut_next | apply State.put_keeps | apply State.pinInstr_keeps | apply keeps_ite | apply keeps_foldl
  | split

theorem execHighz_keeps {s t : State} (h : Keeps s t) :
    KeepsOut s (execHighz t) := by
  unfold execHighz
  repeat' first
  | intro _
  | with_reducible assumption
  | fail_if_no_progress extract_lets +onlyGivenNames z
    first
    | (refine (have hz : Keeps s z := ?_; ?_))
      subst z
      rotate_left
      try clear_value z
    | try clear_value z
  | with_reducible
      first
      | apply keepsOut_next | apply State.put_keeps | apply State.pinInstr_keeps | apply keeps_ite | apply keeps_foldl
  | split

theorem execDbgChal_keeps {s t : State} (h : Keeps s t) :
    KeepsOut s (execDbgChal t) := by
  unfold execDbgChal
  repeat' first
  | intro _
  | with_reducible assumption
  | fail_if_no_progress extract_lets +onlyGivenNames z
    first
    | (refine (have hz : Keeps s z := ?_; ?_))
      subst z
      rotate_left
      try clear_value z
    | try clear_value z
  | with_reducible
      first
      | apply keepsOut_next | apply State.put_keeps | apply keeps_ite | apply keeps_foldl
  | split
  | with_reducible apply keeps_mk

theorem execDbgToken_keeps {s t : State} (h : Keeps s t) (bytes : List Nat) :
    KeepsOut s (execDbgToken bytes t) := by
  unfold execDbgToken
  repeat' first
  | intro _
  | with_reducible assumption
  | fail_if_no_progress extract_lets +onlyGivenNames z
    first
    | (refine (have hz : Keeps s z := ?_; ?_))
      subst z
      rotate_left
      try clear_value z
    | (refine (have hz : Keeps s z.1 := ?_; ?_))
      subst z
      rotate_left
      try clear_value z
    | (refine (have hz : Keeps s z.2 := ?_; ?_))
      subst z
      rotate_left
      try clear_value z
    | try clear_value z
  | with_reducible
      first
      | apply keepsOut_next | apply State.put_keeps | apply State.tokenTake_keeps | apply keeps_ite
      | apply keeps_foldl
  | split

theorem execDbgAccessRead_keeps {s t : State} (h : Keeps s t) (level : Nat) (sp : Sys2Proof.DbgSpace) (addr : Nat) :
    KeepsOut s (execDbgAccessRead level sp addr t) := by
  unfold execDbgAccessRead
  repeat' first
  | intro _
  | with_reducible assumption
  | fail_if_no_progress extract_lets +onlyGivenNames z
    first
    | (refine (have hz : Keeps s z := ?_; ?_))
      subst z
      rotate_left
      try clear_value z
    | try clear_value z
  | with_reducible
      first
      | apply keepsOut_next | apply State.put_keeps | apply State.dbgAsk_keeps | apply State.dbgRead_keeps
      | apply keeps_ite | apply keeps_foldl
  | split

theorem execDbgAccessWrite_keeps {s t : State} (h : Keeps s t) (sp : Sys2Proof.DbgSpace) (addr : Nat) (v : Nat) :
    KeepsOut s (execDbgAccessWrite sp addr v t) := by
  unfold execDbgAccessWrite
  repeat' first
  | intro _
  | with_reducible assumption
  | fail_if_no_progress extract_lets +onlyGivenNames z
    first
    | (refine (have hz : Keeps s z := ?_; ?_))
      subst z
      rotate_left
      try clear_value z
    | try clear_value z
  | with_reducible
      first
      | apply keepsOut_next | apply State.put_keeps | apply State.dbgWrite_keeps | apply keeps_ite | apply keeps_foldl
  | split

theorem execCoreHalt_keeps {s t : State} (h : Keeps s t) (core : Nat) :
    KeepsOut s (execCoreHalt core t) := by
  unfold execCoreHalt
  repeat' first
  | intro _
  | with_reducible assumption
  | fail_if_no_progress extract_lets +onlyGivenNames z
    first
    | (refine (have hz : Keeps s z := ?_; ?_))
      subst z
      rotate_left
      try clear_value z
    | try clear_value z
  | with_reducible
      first
      | apply keepsOut_next | apply State.haltCore_keeps | apply keeps_ite | apply keeps_foldl
  | split

theorem execCoreStep_keeps {s t : State} (h : Keeps s t) (core : Nat) :
    KeepsOut s (execCoreStep core t) := by
  unfold execCoreStep
  repeat' first
  | intro _
  | with_reducible assumption
  | fail_if_no_progress extract_lets +onlyGivenNames z
    first
    | (refine (have hz : Keeps s z := ?_; ?_))
      subst z
      rotate_left
      try clear_value z
    | try clear_value z
  | with_reducible
      first
      | apply keepsOut_next | apply State.stepEngine_keeps | apply State.dbgRefuse_keeps | apply keeps_ite
      | apply keeps_foldl
  | split

theorem execBreakpointHit_keeps {s t : State} (h : Keeps s t) (core : Nat) :
    KeepsOut s (execBreakpointHit core t) := by
  unfold execBreakpointHit
  repeat' first
  | intro _
  | with_reducible assumption
  | fail_if_no_progress extract_lets +onlyGivenNames z
    first
    | (refine (have hz : Keeps s z := ?_; ?_))
      subst z
      rotate_left
      try clear_value z
    | try clear_value z
  | with_reducible
      first
      | apply keepsOut_next | apply State.haltCore_keeps | apply keeps_ite | apply keeps_foldl
  | split

theorem execTrstN_keeps {s t : State} (h : Keeps s t) :
    KeepsOut s (execTrstN t) := by
  unfold execTrstN
  repeat' first
  | intro _
  | with_reducible assumption
  | fail_if_no_progress extract_lets +onlyGivenNames z
    first
    | (refine (have hz : Keeps s z := ?_; ?_))
      subst z
      rotate_left
      try clear_value z
    | try clear_value z
  | with_reducible
      first
      | apply keepsOut_next | apply State.put_keeps | apply State.dbgOff_keeps | apply keeps_ite | apply keeps_foldl
  | split

theorem State.newCycle_keeps {s t : State} (h : Keeps s t) (y1 : Nat) (n : Nat) :
    Keeps s (State.newCycle t y1 n) := by
  unfold State.newCycle
  repeat' first
  | intro _
  | with_reducible assumption
  | fail_if_no_progress extract_lets +onlyGivenNames z
    first
    | (refine (have hz : Keeps s z := ?_; ?_))
      subst z
      rotate_left
      try clear_value z
    | try clear_value z
  | with_reducible
      first
      | apply State.put_keeps | apply State.clockTo_keeps | apply keeps_ite | apply keeps_foldl
  | split

theorem State.schLoad_keeps {s t : State} (h : Keeps s t) :
    Keeps s (State.schLoad t) := by
  unfold State.schLoad
  repeat' first
  | intro _
  | with_reducible assumption
  | fail_if_no_progress extract_lets +onlyGivenNames z
    first
    | (refine (have hz : Keeps s z := ?_; ?_))
      subst z
      rotate_left
      try clear_value z
    | try clear_value z
  | with_reducible
      first
      | apply State.each_keeps | apply State.put_keeps | apply keeps_ite | apply keeps_foldl
  | split

theorem State.splitStep_keeps {s t : State} (h : Keeps s t) (r : Nat) :
    Keeps s (State.splitStep t r) := by
  unfold State.splitStep
  repeat' first
  | intro _
  | with_reducible assumption
  | fail_if_no_progress extract_lets +onlyGivenNames z
    first
    | (refine (have hz : Keeps s z := ?_; ?_))
      subst z
      rotate_left
      try clear_value z
    | try clear_value z
  | with_reducible
      first
      | apply State.nrtFlag_keeps | apply State.put_keeps | apply keeps_ite | apply keeps_foldl
  | split

theorem State.launchCount_keeps {s t : State} (h : Keeps s t) (r : Nat) :
    Keeps s (State.launchCount t r) := by
  unfold State.launchCount
  repeat' first
  | intro _
  | with_reducible assumption
  | fail_if_no_progress extract_lets +onlyGivenNames z
    first
    | (refine (have hz : Keeps s z := ?_; ?_))
      subst z
      rotate_left
      try clear_value z
    | try clear_value z
  | with_reducible
      first
      | apply State.incSat_keeps | apply State.when_keeps | apply keeps_ite | apply keeps_foldl
  | split

theorem State.wireCode_keeps {s t : State} (h : Keeps s t) (p : Nat) :
    Keeps s (State.wireCode t p) := by
  unfold State.wireCode
  repeat' first
  | intro _
  | with_reducible assumption
  | fail_if_no_progress extract_lets +onlyGivenNames z
    first
    | (refine (have hz : Keeps s z := ?_; ?_))
      subst z
      rotate_left
      try clear_value z
    | try clear_value z
  | with_reducible
      first
      | apply State.put_keeps | apply keeps_ite | apply keeps_foldl
  | split

theorem State.launch_keeps {s t : State} (h : Keeps s t) (n : Nat) (r : Nat) :
    Keeps s (State.launch t n r) := by
  unfold State.launch
  repeat' first
  | intro _
  | with_reducible assumption
  | fail_if_no_progress extract_lets +onlyGivenNames z
    first
    | (refine (have hz : Keeps s z := ?_; ?_))
      subst z
      rotate_left
      try clear_value z
    | try clear_value z
  | with_reducible
      first
      | apply State.setBytes_keeps | apply State.commaAll_keeps | apply State.launchCount_keeps
      | apply State.wireCode_keeps | apply State.each_keeps | apply State.put_keeps | apply State.splitStep_keeps
      | apply keeps_ite | apply keeps_foldl
  | split

theorem State.statRestart_keeps {s t : State} (h : Keeps s t) (a : Nat) :
    Keeps s (State.statRestart t a) := by
  unfold State.statRestart
  repeat' first
  | intro _
  | with_reducible assumption
  | fail_if_no_progress extract_lets +onlyGivenNames z
    first
    | (refine (have hz : Keeps s z := ?_; ?_))
      subst z
      rotate_left
      try clear_value z
    | try clear_value z
  | with_reducible
      first
      | apply State.resetFld_keeps | apply State.put_keeps | apply State.each_keeps | apply keeps_ite
      | apply keeps_foldl
  | split

theorem State.statMark_keeps {s t : State} (h : Keeps s t) (k : Nat) (y2 : Nat) :
    Keeps s (State.statMark t k y2) := by
  unfold State.statMark
  repeat' first
  | intro _
  | with_reducible assumption
  | fail_if_no_progress extract_lets +onlyGivenNames z
    first
    | (refine (have hz : Keeps s z := ?_; ?_))
      subst z
      rotate_left
      try clear_value z
    | try clear_value z
  | with_reducible
      first
      | apply State.incWrap_keeps | apply State.put_keeps | apply keeps_ite | apply keeps_foldl
  | split

theorem State.statAxis_keeps {s t : State} (h : Keeps s t) (a : Nat) (y2 : Nat) :
    Keeps s (State.statAxis t a y2) := by
  unfold State.statAxis
  repeat' first
  | intro _
  | with_reducible assumption
  | fail_if_no_progress extract_lets +onlyGivenNames z
    first
    | (refine (have hz : Keeps s z := ?_; ?_))
      subst z
      rotate_left
      try clear_value z
    | try clear_value z
  | with_reducible
      first
      | apply State.statMark_keeps | apply State.put_keeps | apply State.each_keeps | apply keeps_ite
      | apply keeps_foldl
  | split

theorem State.statRing_keeps {s t : State} (h : Keeps s t) (as : List Nat) (r : Nat) (y3 : Nat) :
    Keeps s (State.statRing t as r y3) := by
  unfold State.statRing
  repeat' first
  | intro _
  | with_reducible assumption
  | fail_if_no_progress extract_lets +onlyGivenNames z
    first
    | (refine (have hz : Keeps s z := ?_; ?_))
      subst z
      rotate_left
      try clear_value z
    | try clear_value z
  | with_reducible
      first
      | apply State.statMark_keeps | apply State.puti_keeps | apply State.put_keeps | apply State.each_keeps
      | apply keeps_ite | apply keeps_foldl
  | split

theorem State.statLatch_keeps {s t : State} (h : Keeps s t) (y1 : Nat) :
    Keeps s (State.statLatch t y1) := by
  unfold State.statLatch
  repeat' first
  | intro _
  | with_reducible assumption
  | fail_if_no_progress extract_lets +onlyGivenNames z
    first
    | (refine (have hz : Keeps s z := ?_; ?_))
      subst z
      rotate_left
      try clear_value z
    | try clear_value z
  | with_reducible
      first
      | apply State.cause_keeps | apply State.statRestart_keeps | apply State.put_keeps | apply State.statRing_keeps
      | apply State.statAxis_keeps | apply State.each_keeps | apply keeps_ite | apply keeps_foldl
  | split

theorem State.statStep_keeps {s t : State} (h : Keeps s t) (y1 : Nat) :
    Keeps s (State.statStep t y1) := by
  unfold State.statStep
  repeat' first
  | intro _
  | with_reducible assumption
  | fail_if_no_progress extract_lets +onlyGivenNames z
    first
    | (refine (have hz : Keeps s z := ?_; ?_))
      subst z
      rotate_left
      try clear_value z
    | try clear_value z
  | with_reducible
      first
      | apply State.statLatch_keeps | apply State.put_keeps | apply State.when_keeps | apply keeps_ite
      | apply keeps_foldl
  | split

theorem State.hardLimit_keeps {s t : State} (h : Keeps s t) (a : Nat) (y2 : Nat) (sign : Int) :
    Keeps s (State.hardLimit t a y2 sign) := by
  unfold State.hardLimit
  repeat' first
  | intro _
  | with_reducible assumption
  | fail_if_no_progress extract_lets +onlyGivenNames z
    first
    | (refine (have hz : Keeps s z := ?_; ?_))
      subst z
      rotate_left
      try clear_value z
    | try clear_value z
  | with_reducible
      first
      | apply State.post_keeps | apply State.when_keeps | apply keeps_ite | apply keeps_foldl
  | split

theorem State.limitInputs_keeps {s t : State} (h : Keeps s t) (a : Nat) (y2 : Nat) :
    Keeps s (State.limitInputs t a y2) := by
  unfold State.limitInputs
  repeat' first
  | intro _
  | with_reducible assumption
  | fail_if_no_progress extract_lets +onlyGivenNames z
    first
    | (refine (have hz : Keeps s z := ?_; ?_))
      subst z
      rotate_left
      try clear_value z
    | try clear_value z
  | with_reducible
      first
      | apply State.hardLimit_keeps | apply State.when_keeps | apply State.put_keeps | apply keeps_ite
      | apply keeps_foldl
  | split

theorem State.ifWaits_keeps {s t : State} (h : Keeps s t) (mb : Nat) (opc : Nat) (a : Nat) (f : State → State) (hf : ∀
    t0, Keeps s t0 → Keeps s (f t0)) :
    Keeps s (State.ifWaits t mb opc a f) := by
  unfold State.ifWaits
  repeat' first
  | intro _
  | with_reducible assumption
  | fail_if_no_progress extract_lets +onlyGivenNames z
    first
    | (refine (have hz : Keeps s z := ?_; ?_))
      subst z
      rotate_left
      try clear_value z
    | try clear_value z
  | with_reducible
      first
      | apply State.unwait_keeps | apply State.when_keeps | apply hf | apply keeps_ite | apply keeps_foldl
  | split

theorem State.takeEv_keeps {s t : State} (h : Keeps s t) (a : Nat) (y2 : Nat) (k : AxKind) :
    Keeps s (State.takeEv t a y2 k) := by
  unfold State.takeEv
  repeat' first
  | intro _
  | with_reducible assumption
  | fail_if_no_progress extract_lets +onlyGivenNames z
    first
    | (refine (have hz : Keeps s z := ?_; ?_))
      subst z
      rotate_left
      try clear_value z
    | try clear_value z
  | with_reducible
      first
      | apply State.learnOff_keeps | apply State.takeMotion_keeps | apply State.takeDeconfigured_keeps
      | apply State.takeConfigured_keeps | apply State.takeRaise_keeps | apply State.takeReset_keeps
      | apply State.takeDisable_keeps | apply State.takeEnable_keeps | apply State.ifWaits_keeps
      | apply State.takeStopDone_keeps | apply State.takeLost_keeps | apply State.takeOnline_keeps
      | apply State.takeRaiseOff_keeps | apply State.takeRelease_keeps | apply State.takeFullStop_keeps
      | apply State.takeFault_keeps | apply State.takeDemand_keeps | apply keeps_ite | apply keeps_foldl
  | split

theorem State.boundaryEvents_keeps {s t : State} (h : Keeps s t) (y1 : Nat) (due : List Nat) :
    Keeps s (State.boundaryEvents t y1 due) := by
  unfold State.boundaryEvents
  repeat' first
  | intro _
  | with_reducible assumption
  | fail_if_no_progress extract_lets +onlyGivenNames z
    first
    | (refine (have hz : Keeps s z := ?_; ?_))
      subst z
      rotate_left
      try clear_value z
    | try clear_value z
  | with_reducible
      first
      | apply State.takeEv_keeps | apply State.each_keeps | apply keeps_ite | apply keeps_foldl
  | split
  | with_reducible apply keeps_mk

theorem State.axisAfter_keeps {s t : State} (h : Keeps s t) (a : Nat) (y2 : Nat) (gone : Bool) :
    Keeps s (State.axisAfter t a y2 gone) := by
  unfold State.axisAfter
  repeat' first
  | intro _
  | with_reducible assumption
  | fail_if_no_progress extract_lets +onlyGivenNames z
    first
    | (refine (have hz : Keeps s z := ?_; ?_))
      subst z
      rotate_left
      try clear_value z
    | try clear_value z
  | with_reducible
      first
      | apply State.safeSync_keeps | apply State.homeBoundary_keeps | apply State.pruneMotions_keeps
      | apply State.toConfigured_keeps | apply State.frstResolve_keeps | apply State.when_keeps
      | apply State.stopProgress_keeps | apply State.gfltRise_keeps | apply keeps_ite | apply keeps_foldl
  | split

theorem State.axesBoundary_keeps {s t : State} (h : Keeps s t) (y1 : Nat) (due : List Nat) :
    Keeps s (State.axesBoundary t y1 due) := by
  unfold State.axesBoundary
  repeat' first
  | intro _
  | with_reducible assumption
  | fail_if_no_progress extract_lets +onlyGivenNames z
    first
    | (refine (have hz : Keeps s z := ?_; ?_))
      subst z
      rotate_left
      try clear_value z
    | try clear_value z
  | with_reducible
      first
      | apply State.axisAfter_keeps | apply State.boundaryEvents_keeps | apply State.limitInputs_keeps
      | apply State.when_keeps | apply State.each_keeps | apply keeps_ite | apply keeps_foldl
  | split

theorem State.trackCheck_keeps {s t : State} (h : Keeps s t) (a : Nat) (y2 : Nat) :
    Keeps s (State.trackCheck t a y2) := by
  unfold State.trackCheck
  repeat' first
  | intro _
  | with_reducible assumption
  | fail_if_no_progress extract_lets +onlyGivenNames z
    first
    | (refine (have hz : Keeps s z := ?_; ?_))
      subst z
      rotate_left
      try clear_value z
    | try clear_value z
  | with_reducible
      first
      | apply State.trackStep_keeps | apply State.each_keeps | apply keeps_ite | apply keeps_foldl
  | split

theorem State.startRelease_keeps {s t : State} (h : Keeps s t) (y1 : Nat) (n : Nat) (due : List Nat) :
    Keeps s (State.startRelease t y1 n due) := by
  unfold State.startRelease
  repeat' first
  | intro _
  | with_reducible assumption
  | fail_if_no_progress extract_lets +onlyGivenNames z
    first
    | (refine (have hz : Keeps s z := ?_; ?_))
      subst z
      rotate_left
      try clear_value z
    | try clear_value z
  | with_reducible
      first
      | apply State.portLatch_keeps | apply State.portPeriod_keeps | apply State.release_keeps
      | apply State.each_keeps | apply keeps_ite | apply keeps_foldl
  | split

theorem State.mirror_keeps {s t : State} (h : Keeps s t) (a : Nat) :
    Keeps s (State.mirror t a) := by
  unfold State.mirror
  repeat' first
  | intro _
  | with_reducible assumption
  | fail_if_no_progress extract_lets +onlyGivenNames z
    first
    | (refine (have hz : Keeps s z := ?_; ?_))
      subst z
      rotate_left
      try clear_value z
    | try clear_value z
  | with_reducible
      first
      | apply State.incWrap_keeps | apply State.put_keeps | apply State.when_keeps | apply keeps_ite
      | apply keeps_foldl
  | split

theorem State.boundaryRest_keeps {s t : State} (h : Keeps s t) (n : Nat) :
    Keeps s (State.boundaryRest t n) := by
  unfold State.boundaryRest
  repeat' first
  | intro _
  | with_reducible assumption
  | fail_if_no_progress extract_lets +onlyGivenNames z
    first
    | (refine (have hz : Keeps s z := ?_; ?_))
      subst z
      rotate_left
      try clear_value z
    | try clear_value z
  | with_reducible
      first
      | apply State.put_keeps | apply State.pairBoundary_keeps | apply State.commitSnap_keeps
      | apply State.flashWork_keeps | apply State.standbyStep_keeps | apply State.ownFault_keeps
      | apply State.when_keeps | apply State.injBoundary_keeps | apply State.securityBoundary_keeps
      | apply State.portCfgs_keeps | apply State.fioBoundary_keeps | apply State.cmpBoundary_keeps
      | apply State.cmpReqs_keeps | apply keeps_ite | apply keeps_foldl
  | split

theorem State.boundary_keeps {s t : State} (h : Keeps s t) (y1 : Nat) (n : Nat) :
    Keeps s (State.boundary t y1 n) := by
  unfold State.boundary
  repeat' first
  | intro _
  | with_reducible assumption
  | fail_if_no_progress extract_lets +onlyGivenNames z
    first
    | (refine (have hz : Keeps s z := ?_; ?_))
      subst z
      rotate_left
      try clear_value z
    | try clear_value z
  | with_reducible
      first
      | apply State.mirror_keeps | apply State.startRelease_keeps | apply State.descApply_keeps
      | apply State.codeApply_keeps | apply State.trcBoundary_keeps | apply State.trackCheck_keeps
      | apply State.boundaryRest_keeps | apply State.ringStopped_keeps | apply State.axesBoundary_keeps
      | apply State.swapNow_keeps | apply State.when_keeps | apply State.statStep_keeps | apply State.launch_keeps
      | apply State.each_keeps | apply State.newCycle_keeps | apply State.schLoad_keeps | apply keeps_ite
      | apply keeps_foldl
  | split

theorem execBoundary_keeps {s t : State} (h : Keeps s t) (y0 : Nat) (n : Nat) :
    KeepsOut s (execBoundary y0 n t) := by
  unfold execBoundary
  repeat' first
  | intro _
  | with_reducible assumption
  | fail_if_no_progress extract_lets +onlyGivenNames z
    first
    | (refine (have hz : Keeps s z := ?_; ?_))
      subst z
      rotate_left
      try clear_value z
    | try clear_value z
  | with_reducible
      first
      | apply keepsOut_next | apply State.boundary_keeps | apply keeps_ite | apply keeps_foldl
  | split

theorem execOverlaySwap_keeps {s t : State} (h : Keeps s t) :
    KeepsOut s (execOverlaySwap t) := by
  unfold execOverlaySwap
  repeat' first
  | intro _
  | with_reducible assumption
  | fail_if_no_progress extract_lets +onlyGivenNames z
    first
    | (refine (have hz : Keeps s z := ?_; ?_))
      subst z
      rotate_left
      try clear_value z
    | try clear_value z
  | with_reducible
      first
      | apply keepsOut_next | apply State.swapNow_keeps | apply keeps_ite | apply keeps_foldl
  | split

theorem execStatisticsLatch_keeps {s t : State} (h : Keeps s t) :
    KeepsOut s (execStatisticsLatch t) := by
  unfold execStatisticsLatch
  repeat' first
  | intro _
  | with_reducible assumption
  | fail_if_no_progress extract_lets +onlyGivenNames z
    first
    | (refine (have hz : Keeps s z := ?_; ?_))
      subst z
      rotate_left
      try clear_value z
    | try clear_value z
  | with_reducible
      first
      | apply keepsOut_next | apply State.statLatch_keeps | apply keeps_ite | apply keeps_foldl
  | split

end Sys2Proof.Machine
end

