-- ==== Sys2Proof/Laws/State.lean ====
section
/-! SUPPORT. The small lemmas of the state: what each named update changes and leaves, and what the shared operations on
interrupts and mailboxes do to registers and memory. -/

namespace Sys2Proof.Machine

/-! ### Fields and updates -/

@[simp] theorem State.put_mem (s : State) (f : Fld) (v i j : Nat) : (s.put f v i j).mem = s.mem := rfl
@[simp] theorem State.put_pending (s : State) (f : Fld) (v i j : Nat) : (s.put f v i j).pending = s.pending := rfl
@[simp] theorem State.put_rdata (s : State) (f : Fld) (v i j : Nat) : (s.put f v i j).rdata = s.rdata := rfl
@[simp] theorem State.put_msix (s : State) (f : Fld) (v i j : Nat) : (s.put f v i j).msix = s.msix := rfl
@[simp] theorem State.put_tags (s : State) (f : Fld) (v i j : Nat) : (s.put f v i j).tags = s.tags := rfl
@[simp] theorem State.put_waits (s : State) (f : Fld) (v i j : Nat) : (s.put f v i j).waits = s.waits := rfl
@[simp] theorem State.put_axEvs (s : State) (f : Fld) (v i j : Nat) : (s.put f v i j).axEvs = s.axEvs := rfl
@[simp] theorem State.put_evlog (s : State) (f : Fld) (v i j : Nat) : (s.put f v i j).evlog = s.evlog := rfl
@[simp] theorem State.put_injs (s : State) (f : Fld) (v i j : Nat) : (s.put f v i j).injs = s.injs := rfl
@[simp] theorem State.put_insts (s : State) (f : Fld) (v i j : Nat) : (s.put f v i j).insts = s.insts := rfl
@[simp] theorem State.put_descPend (s : State) (f : Fld) (v i j : Nat) : (s.put f v i j).descPend = s.descPend := rfl
@[simp] theorem State.put_codePend (s : State) (f : Fld) (v i j : Nat) : (s.put f v i j).codePend = s.codePend := rfl
@[simp] theorem State.put_trcBuf (s : State) (f : Fld) (v i j : Nat) : (s.put f v i j).trcBuf = s.trcBuf := rfl
@[simp] theorem State.put_late (s : State) (f : Fld) (v i j : Nat) : (s.put f v i j).late = s.late := rfl
@[simp] theorem State.put_olds (s : State) (f : Fld) (v i j : Nat) : (s.put f v i j).olds = s.olds := rfl
@[simp] theorem State.put_slotW (s : State) (f : Fld) (v i j : Nat) : (s.put f v i j).slotW = s.slotW := rfl
@[simp] theorem State.put_saved (s : State) (f : Fld) (v i j : Nat) : (s.put f v i j).saved = s.saved := rfl
@[simp] theorem State.put_arrErrs (s : State) (f : Fld) (v i j : Nat) : (s.put f v i j).arrErrs = s.arrErrs := rfl
@[simp] theorem State.put_motions (s : State) (f : Fld) (v i j : Nat) : (s.put f v i j).motions = s.motions := rfl
@[simp] theorem State.put_segs (s : State) (f : Fld) (v i j : Nat) : (s.put f v i j).segs = s.segs := rfl
@[simp] theorem State.put_edges (s : State) (f : Fld) (v i j : Nat) : (s.put f v i j).edges = s.edges := rfl
@[simp] theorem State.put_hist (s : State) (f : Fld) (v i j : Nat) : (s.put f v i j).hist = s.hist := rfl
@[simp] theorem State.put_mpq (s : State) (f : Fld) (v i j : Nat) : (s.put f v i j).mpq = s.mpq := rfl
@[simp] theorem State.put_grants (s : State) (f : Fld) (v i j : Nat) : (s.put f v i j).grants = s.grants := rfl
@[simp] theorem State.put_baseW (s : State) (f : Fld) (v i j : Nat) : (s.put f v i j).baseW = s.baseW := rfl
@[simp] theorem State.put_caps (s : State) (f : Fld) (v i j : Nat) : (s.put f v i j).caps = s.caps := rfl
@[simp] theorem State.put_images (s : State) (f : Fld) (v i j : Nat) : (s.put f v i j).images = s.images := rfl
@[simp] theorem State.put_snap (s : State) (f : Fld) (v i j : Nat) : (s.put f v i j).snap = s.snap := rfl
@[simp] theorem State.put_safOvl (s : State) (f : Fld) (v i j : Nat) : (s.put f v i j).safOvl = s.safOvl := rfl
@[simp] theorem State.put_outs (s : State) (f : Fld) (v i j : Nat) : (s.put f v i j).outs = s.outs := rfl
@[simp] theorem State.put_acyc (s : State) (f : Fld) (v i j : Nat) : (s.put f v i j).acyc = s.acyc := rfl
@[simp] theorem State.put_tracks (s : State) (f : Fld) (v i j : Nat) : (s.put f v i j).tracks = s.tracks := rfl
@[simp] theorem State.put_byte (s : State) (f : Fld) (v i j : Nat) (x : Nat) : (s.put f v i j).byte x = s.byte x := rfl

@[simp] theorem State.resetRange_mem (s : State) (lo hi : Nat) : (s.resetRange lo hi).mem = s.mem := rfl
@[simp] theorem State.resetRange_pending (s : State) (lo hi : Nat) : (s.resetRange lo hi).pending = s.pending := rfl
@[simp] theorem State.resetRange_rdata (s : State) (lo hi : Nat) : (s.resetRange lo hi).rdata = s.rdata := rfl
@[simp] theorem State.resetRange_msix (s : State) (lo hi : Nat) : (s.resetRange lo hi).msix = s.msix := rfl
@[simp] theorem State.resetRange_tags (s : State) (lo hi : Nat) : (s.resetRange lo hi).tags = s.tags := rfl
@[simp] theorem State.resetRange_waits (s : State) (lo hi : Nat) : (s.resetRange lo hi).waits = s.waits := rfl
@[simp] theorem State.resetRange_axEvs (s : State) (lo hi : Nat) : (s.resetRange lo hi).axEvs = s.axEvs := rfl
@[simp] theorem State.resetRange_evlog (s : State) (lo hi : Nat) : (s.resetRange lo hi).evlog = s.evlog := rfl
@[simp] theorem State.resetRange_injs (s : State) (lo hi : Nat) : (s.resetRange lo hi).injs = s.injs := rfl
@[simp] theorem State.resetRange_insts (s : State) (lo hi : Nat) : (s.resetRange lo hi).insts = s.insts := rfl
@[simp] theorem State.resetRange_descPend (s : State) (lo hi : Nat) : (s.resetRange lo hi).descPend = s.descPend := rfl
@[simp] theorem State.resetRange_codePend (s : State) (lo hi : Nat) : (s.resetRange lo hi).codePend = s.codePend := rfl
@[simp] theorem State.resetRange_trcBuf (s : State) (lo hi : Nat) : (s.resetRange lo hi).trcBuf = s.trcBuf := rfl
@[simp] theorem State.resetRange_late (s : State) (lo hi : Nat) : (s.resetRange lo hi).late = s.late := rfl
@[simp] theorem State.resetRange_olds (s : State) (lo hi : Nat) : (s.resetRange lo hi).olds = s.olds := rfl
@[simp] theorem State.resetRange_slotW (s : State) (lo hi : Nat) : (s.resetRange lo hi).slotW = s.slotW := rfl
@[simp] theorem State.resetRange_saved (s : State) (lo hi : Nat) : (s.resetRange lo hi).saved = s.saved := rfl
@[simp] theorem State.resetRange_arrErrs (s : State) (lo hi : Nat) : (s.resetRange lo hi).arrErrs = s.arrErrs := rfl
@[simp] theorem State.resetRange_motions (s : State) (lo hi : Nat) : (s.resetRange lo hi).motions = s.motions := rfl
@[simp] theorem State.resetRange_segs (s : State) (lo hi : Nat) : (s.resetRange lo hi).segs = s.segs := rfl
@[simp] theorem State.resetRange_edges (s : State) (lo hi : Nat) : (s.resetRange lo hi).edges = s.edges := rfl
@[simp] theorem State.resetRange_hist (s : State) (lo hi : Nat) : (s.resetRange lo hi).hist = s.hist := rfl
@[simp] theorem State.resetRange_mpq (s : State) (lo hi : Nat) : (s.resetRange lo hi).mpq = s.mpq := rfl
@[simp] theorem State.resetRange_grants (s : State) (lo hi : Nat) : (s.resetRange lo hi).grants = s.grants := rfl
@[simp] theorem State.resetRange_baseW (s : State) (lo hi : Nat) : (s.resetRange lo hi).baseW = s.baseW := rfl
@[simp] theorem State.resetRange_caps (s : State) (lo hi : Nat) : (s.resetRange lo hi).caps = s.caps := rfl
@[simp] theorem State.resetRange_images (s : State) (lo hi : Nat) : (s.resetRange lo hi).images = s.images := rfl
@[simp] theorem State.resetRange_snap (s : State) (lo hi : Nat) : (s.resetRange lo hi).snap = s.snap := rfl
@[simp] theorem State.resetRange_safOvl (s : State) (lo hi : Nat) : (s.resetRange lo hi).safOvl = s.safOvl := rfl
@[simp] theorem State.resetRange_outs (s : State) (lo hi : Nat) : (s.resetRange lo hi).outs = s.outs := rfl
@[simp] theorem State.resetRange_acyc (s : State) (lo hi : Nat) : (s.resetRange lo hi).acyc = s.acyc := rfl
@[simp] theorem State.resetRange_tracks (s : State) (lo hi : Nat) : (s.resetRange lo hi).tracks = s.tracks := rfl
@[simp] theorem State.resetRange_byte (s : State) (lo hi : Nat) (x : Nat) : (s.resetRange lo hi).byte x = s.byte x := rfl

@[simp] theorem State.setByte_regs (s : State) (a v : Nat) : (s.setByte a v).regs = s.regs := rfl
@[simp] theorem State.setByte_pending (s : State) (a v : Nat) : (s.setByte a v).pending = s.pending := rfl
@[simp] theorem State.setByte_rdata (s : State) (a v : Nat) : (s.setByte a v).rdata = s.rdata := rfl
@[simp] theorem State.setByte_msix (s : State) (a v : Nat) : (s.setByte a v).msix = s.msix := rfl
@[simp] theorem State.setByte_tags (s : State) (a v : Nat) : (s.setByte a v).tags = s.tags := rfl
@[simp] theorem State.setByte_waits (s : State) (a v : Nat) : (s.setByte a v).waits = s.waits := rfl
@[simp] theorem State.setByte_axEvs (s : State) (a v : Nat) : (s.setByte a v).axEvs = s.axEvs := rfl
@[simp] theorem State.setByte_evlog (s : State) (a v : Nat) : (s.setByte a v).evlog = s.evlog := rfl
@[simp] theorem State.setByte_injs (s : State) (a v : Nat) : (s.setByte a v).injs = s.injs := rfl
@[simp] theorem State.setByte_insts (s : State) (a v : Nat) : (s.setByte a v).insts = s.insts := rfl
@[simp] theorem State.setByte_descPend (s : State) (a v : Nat) : (s.setByte a v).descPend = s.descPend := rfl
@[simp] theorem State.setByte_codePend (s : State) (a v : Nat) : (s.setByte a v).codePend = s.codePend := rfl
@[simp] theorem State.setByte_trcBuf (s : State) (a v : Nat) : (s.setByte a v).trcBuf = s.trcBuf := rfl
@[simp] theorem State.setByte_late (s : State) (a v : Nat) : (s.setByte a v).late = s.late := rfl
@[simp] theorem State.setByte_olds (s : State) (a v : Nat) : (s.setByte a v).olds = s.olds := rfl
@[simp] theorem State.setByte_slotW (s : State) (a v : Nat) : (s.setByte a v).slotW = s.slotW := rfl
@[simp] theorem State.setByte_saved (s : State) (a v : Nat) : (s.setByte a v).saved = s.saved := rfl
@[simp] theorem State.setByte_arrErrs (s : State) (a v : Nat) : (s.setByte a v).arrErrs = s.arrErrs := rfl
@[simp] theorem State.setByte_motions (s : State) (a v : Nat) : (s.setByte a v).motions = s.motions := rfl
@[simp] theorem State.setByte_segs (s : State) (a v : Nat) : (s.setByte a v).segs = s.segs := rfl
@[simp] theorem State.setByte_edges (s : State) (a v : Nat) : (s.setByte a v).edges = s.edges := rfl
@[simp] theorem State.setByte_hist (s : State) (a v : Nat) : (s.setByte a v).hist = s.hist := rfl
@[simp] theorem State.setByte_mpq (s : State) (a v : Nat) : (s.setByte a v).mpq = s.mpq := rfl
@[simp] theorem State.setByte_grants (s : State) (a v : Nat) : (s.setByte a v).grants = s.grants := rfl
@[simp] theorem State.setByte_baseW (s : State) (a v : Nat) : (s.setByte a v).baseW = s.baseW := rfl
@[simp] theorem State.setByte_caps (s : State) (a v : Nat) : (s.setByte a v).caps = s.caps := rfl
@[simp] theorem State.setByte_images (s : State) (a v : Nat) : (s.setByte a v).images = s.images := rfl
@[simp] theorem State.setByte_snap (s : State) (a v : Nat) : (s.setByte a v).snap = s.snap := rfl
@[simp] theorem State.setByte_safOvl (s : State) (a v : Nat) : (s.setByte a v).safOvl = s.safOvl := rfl
@[simp] theorem State.setByte_outs (s : State) (a v : Nat) : (s.setByte a v).outs = s.outs := rfl
@[simp] theorem State.setByte_acyc (s : State) (a v : Nat) : (s.setByte a v).acyc = s.acyc := rfl
@[simp] theorem State.setByte_tracks (s : State) (a v : Nat) : (s.setByte a v).tracks = s.tracks := rfl
@[simp] theorem State.setByte_get (s : State) (a v : Nat) (g : Fld) (k l : Nat) : (s.setByte a v).get g k l = s.get g k l := rfl

@[simp] theorem State.zeroRange_regs (s : State) (lo hi : Nat) : (s.zeroRange lo hi).regs = s.regs := rfl
@[simp] theorem State.zeroRange_pending (s : State) (lo hi : Nat) : (s.zeroRange lo hi).pending = s.pending := rfl
@[simp] theorem State.zeroRange_rdata (s : State) (lo hi : Nat) : (s.zeroRange lo hi).rdata = s.rdata := rfl
@[simp] theorem State.zeroRange_msix (s : State) (lo hi : Nat) : (s.zeroRange lo hi).msix = s.msix := rfl
@[simp] theorem State.zeroRange_tags (s : State) (lo hi : Nat) : (s.zeroRange lo hi).tags = s.tags := rfl
@[simp] theorem State.zeroRange_waits (s : State) (lo hi : Nat) : (s.zeroRange lo hi).waits = s.waits := rfl
@[simp] theorem State.zeroRange_axEvs (s : State) (lo hi : Nat) : (s.zeroRange lo hi).axEvs = s.axEvs := rfl
@[simp] theorem State.zeroRange_evlog (s : State) (lo hi : Nat) : (s.zeroRange lo hi).evlog = s.evlog := rfl
@[simp] theorem State.zeroRange_injs (s : State) (lo hi : Nat) : (s.zeroRange lo hi).injs = s.injs := rfl
@[simp] theorem State.zeroRange_insts (s : State) (lo hi : Nat) : (s.zeroRange lo hi).insts = s.insts := rfl
@[simp] theorem State.zeroRange_descPend (s : State) (lo hi : Nat) : (s.zeroRange lo hi).descPend = s.descPend := rfl
@[simp] theorem State.zeroRange_codePend (s : State) (lo hi : Nat) : (s.zeroRange lo hi).codePend = s.codePend := rfl
@[simp] theorem State.zeroRange_trcBuf (s : State) (lo hi : Nat) : (s.zeroRange lo hi).trcBuf = s.trcBuf := rfl
@[simp] theorem State.zeroRange_late (s : State) (lo hi : Nat) : (s.zeroRange lo hi).late = s.late := rfl
@[simp] theorem State.zeroRange_olds (s : State) (lo hi : Nat) : (s.zeroRange lo hi).olds = s.olds := rfl
@[simp] theorem State.zeroRange_slotW (s : State) (lo hi : Nat) : (s.zeroRange lo hi).slotW = s.slotW := rfl
@[simp] theorem State.zeroRange_saved (s : State) (lo hi : Nat) : (s.zeroRange lo hi).saved = s.saved := rfl
@[simp] theorem State.zeroRange_arrErrs (s : State) (lo hi : Nat) : (s.zeroRange lo hi).arrErrs = s.arrErrs := rfl
@[simp] theorem State.zeroRange_motions (s : State) (lo hi : Nat) : (s.zeroRange lo hi).motions = s.motions := rfl
@[simp] theorem State.zeroRange_segs (s : State) (lo hi : Nat) : (s.zeroRange lo hi).segs = s.segs := rfl
@[simp] theorem State.zeroRange_edges (s : State) (lo hi : Nat) : (s.zeroRange lo hi).edges = s.edges := rfl
@[simp] theorem State.zeroRange_hist (s : State) (lo hi : Nat) : (s.zeroRange lo hi).hist = s.hist := rfl
@[simp] theorem State.zeroRange_mpq (s : State) (lo hi : Nat) : (s.zeroRange lo hi).mpq = s.mpq := rfl
@[simp] theorem State.zeroRange_grants (s : State) (lo hi : Nat) : (s.zeroRange lo hi).grants = s.grants := rfl
@[simp] theorem State.zeroRange_baseW (s : State) (lo hi : Nat) : (s.zeroRange lo hi).baseW = s.baseW := rfl
@[simp] theorem State.zeroRange_caps (s : State) (lo hi : Nat) : (s.zeroRange lo hi).caps = s.caps := rfl
@[simp] theorem State.zeroRange_images (s : State) (lo hi : Nat) : (s.zeroRange lo hi).images = s.images := rfl
@[simp] theorem State.zeroRange_snap (s : State) (lo hi : Nat) : (s.zeroRange lo hi).snap = s.snap := rfl
@[simp] theorem State.zeroRange_safOvl (s : State) (lo hi : Nat) : (s.zeroRange lo hi).safOvl = s.safOvl := rfl
@[simp] theorem State.zeroRange_outs (s : State) (lo hi : Nat) : (s.zeroRange lo hi).outs = s.outs := rfl
@[simp] theorem State.zeroRange_acyc (s : State) (lo hi : Nat) : (s.zeroRange lo hi).acyc = s.acyc := rfl
@[simp] theorem State.zeroRange_tracks (s : State) (lo hi : Nat) : (s.zeroRange lo hi).tracks = s.tracks := rfl
@[simp] theorem State.zeroRange_get (s : State) (lo hi : Nat) (g : Fld) (k l : Nat) : (s.zeroRange lo hi).get g k l = s.get g k l := rfl

@[simp] theorem State.get_pending (s : State) (x : _) (g : Fld) (k l : Nat) :
    ({ s with pending := x } : State).get g k l = s.get g k l := rfl
@[simp] theorem State.byte_pending (s : State) (x : _) (a : Nat) : ({ s with pending := x } : State).byte a = s.byte a := rfl
@[simp] theorem State.get_rdata (s : State) (x : _) (g : Fld) (k l : Nat) :
    ({ s with rdata := x } : State).get g k l = s.get g k l := rfl
@[simp] theorem State.byte_rdata (s : State) (x : _) (a : Nat) : ({ s with rdata := x } : State).byte a = s.byte a := rfl
@[simp] theorem State.get_msix (s : State) (x : _) (g : Fld) (k l : Nat) :
    ({ s with msix := x } : State).get g k l = s.get g k l := rfl
@[simp] theorem State.byte_msix (s : State) (x : _) (a : Nat) : ({ s with msix := x } : State).byte a = s.byte a := rfl
@[simp] theorem State.get_tags (s : State) (x : _) (g : Fld) (k l : Nat) :
    ({ s with tags := x } : State).get g k l = s.get g k l := rfl
@[simp] theorem State.byte_tags (s : State) (x : _) (a : Nat) : ({ s with tags := x } : State).byte a = s.byte a := rfl
@[simp] theorem State.get_waits (s : State) (x : _) (g : Fld) (k l : Nat) :
    ({ s with waits := x } : State).get g k l = s.get g k l := rfl
@[simp] theorem State.byte_waits (s : State) (x : _) (a : Nat) : ({ s with waits := x } : State).byte a = s.byte a := rfl
@[simp] theorem State.get_axEvs (s : State) (x : _) (g : Fld) (k l : Nat) :
    ({ s with axEvs := x } : State).get g k l = s.get g k l := rfl
@[simp] theorem State.byte_axEvs (s : State) (x : _) (a : Nat) : ({ s with axEvs := x } : State).byte a = s.byte a := rfl
@[simp] theorem State.get_evlog (s : State) (x : _) (g : Fld) (k l : Nat) :
    ({ s with evlog := x } : State).get g k l = s.get g k l := rfl
@[simp] theorem State.byte_evlog (s : State) (x : _) (a : Nat) : ({ s with evlog := x } : State).byte a = s.byte a := rfl
@[simp] theorem State.get_injs (s : State) (x : _) (g : Fld) (k l : Nat) :
    ({ s with injs := x } : State).get g k l = s.get g k l := rfl
@[simp] theorem State.byte_injs (s : State) (x : _) (a : Nat) : ({ s with injs := x } : State).byte a = s.byte a := rfl
@[simp] theorem State.get_insts (s : State) (x : _) (g : Fld) (k l : Nat) :
    ({ s with insts := x } : State).get g k l = s.get g k l := rfl
@[simp] theorem State.byte_insts (s : State) (x : _) (a : Nat) : ({ s with insts := x } : State).byte a = s.byte a := rfl
@[simp] theorem State.get_descPend (s : State) (x : _) (g : Fld) (k l : Nat) :
    ({ s with descPend := x } : State).get g k l = s.get g k l := rfl
@[simp] theorem State.byte_descPend (s : State) (x : _) (a : Nat) : ({ s with descPend := x } : State).byte a = s.byte a := rfl
@[simp] theorem State.get_codePend (s : State) (x : _) (g : Fld) (k l : Nat) :
    ({ s with codePend := x } : State).get g k l = s.get g k l := rfl
@[simp] theorem State.byte_codePend (s : State) (x : _) (a : Nat) : ({ s with codePend := x } : State).byte a = s.byte a := rfl
@[simp] theorem State.get_trcBuf (s : State) (x : _) (g : Fld) (k l : Nat) :
    ({ s with trcBuf := x } : State).get g k l = s.get g k l := rfl
@[simp] theorem State.byte_trcBuf (s : State) (x : _) (a : Nat) : ({ s with trcBuf := x } : State).byte a = s.byte a := rfl
@[simp] theorem State.get_late (s : State) (x : _) (g : Fld) (k l : Nat) :
    ({ s with late := x } : State).get g k l = s.get g k l := rfl
@[simp] theorem State.byte_late (s : State) (x : _) (a : Nat) : ({ s with late := x } : State).byte a = s.byte a := rfl
@[simp] theorem State.get_olds (s : State) (x : _) (g : Fld) (k l : Nat) :
    ({ s with olds := x } : State).get g k l = s.get g k l := rfl
@[simp] theorem State.byte_olds (s : State) (x : _) (a : Nat) : ({ s with olds := x } : State).byte a = s.byte a := rfl
@[simp] theorem State.get_slotW (s : State) (x : _) (g : Fld) (k l : Nat) :
    ({ s with slotW := x } : State).get g k l = s.get g k l := rfl
@[simp] theorem State.byte_slotW (s : State) (x : _) (a : Nat) : ({ s with slotW := x } : State).byte a = s.byte a := rfl
@[simp] theorem State.get_saved (s : State) (x : _) (g : Fld) (k l : Nat) :
    ({ s with saved := x } : State).get g k l = s.get g k l := rfl
@[simp] theorem State.byte_saved (s : State) (x : _) (a : Nat) : ({ s with saved := x } : State).byte a = s.byte a := rfl
@[simp] theorem State.get_arrErrs (s : State) (x : _) (g : Fld) (k l : Nat) :
    ({ s with arrErrs := x } : State).get g k l = s.get g k l := rfl
@[simp] theorem State.byte_arrErrs (s : State) (x : _) (a : Nat) : ({ s with arrErrs := x } : State).byte a = s.byte a := rfl
@[simp] theorem State.get_motions (s : State) (x : _) (g : Fld) (k l : Nat) :
    ({ s with motions := x } : State).get g k l = s.get g k l := rfl
@[simp] theorem State.byte_motions (s : State) (x : _) (a : Nat) : ({ s with motions := x } : State).byte a = s.byte a := rfl
@[simp] theorem State.get_segs (s : State) (x : _) (g : Fld) (k l : Nat) :
    ({ s with segs := x } : State).get g k l = s.get g k l := rfl
@[simp] theorem State.byte_segs (s : State) (x : _) (a : Nat) : ({ s with segs := x } : State).byte a = s.byte a := rfl
@[simp] theorem State.get_edges (s : State) (x : _) (g : Fld) (k l : Nat) :
    ({ s with edges := x } : State).get g k l = s.get g k l := rfl
@[simp] theorem State.byte_edges (s : State) (x : _) (a : Nat) : ({ s with edges := x } : State).byte a = s.byte a := rfl
@[simp] theorem State.get_hist (s : State) (x : _) (g : Fld) (k l : Nat) :
    ({ s with hist := x } : State).get g k l = s.get g k l := rfl
@[simp] theorem State.byte_hist (s : State) (x : _) (a : Nat) : ({ s with hist := x } : State).byte a = s.byte a := rfl
@[simp] theorem State.get_mpq (s : State) (x : _) (g : Fld) (k l : Nat) :
    ({ s with mpq := x } : State).get g k l = s.get g k l := rfl
@[simp] theorem State.byte_mpq (s : State) (x : _) (a : Nat) : ({ s with mpq := x } : State).byte a = s.byte a := rfl
@[simp] theorem State.get_grants (s : State) (x : _) (g : Fld) (k l : Nat) :
    ({ s with grants := x } : State).get g k l = s.get g k l := rfl
@[simp] theorem State.byte_grants (s : State) (x : _) (a : Nat) : ({ s with grants := x } : State).byte a = s.byte a := rfl
@[simp] theorem State.get_baseW (s : State) (x : _) (g : Fld) (k l : Nat) :
    ({ s with baseW := x } : State).get g k l = s.get g k l := rfl
@[simp] theorem State.byte_baseW (s : State) (x : _) (a : Nat) : ({ s with baseW := x } : State).byte a = s.byte a := rfl
@[simp] theorem State.get_caps (s : State) (x : _) (g : Fld) (k l : Nat) :
    ({ s with caps := x } : State).get g k l = s.get g k l := rfl
@[simp] theorem State.byte_caps (s : State) (x : _) (a : Nat) : ({ s with caps := x } : State).byte a = s.byte a := rfl
@[simp] theorem State.get_images (s : State) (x : _) (g : Fld) (k l : Nat) :
    ({ s with images := x } : State).get g k l = s.get g k l := rfl
@[simp] theorem State.byte_images (s : State) (x : _) (a : Nat) : ({ s with images := x } : State).byte a = s.byte a := rfl
@[simp] theorem State.get_snap (s : State) (x : _) (g : Fld) (k l : Nat) :
    ({ s with snap := x } : State).get g k l = s.get g k l := rfl
@[simp] theorem State.byte_snap (s : State) (x : _) (a : Nat) : ({ s with snap := x } : State).byte a = s.byte a := rfl
@[simp] theorem State.get_safOvl (s : State) (x : _) (g : Fld) (k l : Nat) :
    ({ s with safOvl := x } : State).get g k l = s.get g k l := rfl
@[simp] theorem State.byte_safOvl (s : State) (x : _) (a : Nat) : ({ s with safOvl := x } : State).byte a = s.byte a := rfl
@[simp] theorem State.get_outs (s : State) (x : _) (g : Fld) (k l : Nat) :
    ({ s with outs := x } : State).get g k l = s.get g k l := rfl
@[simp] theorem State.byte_outs (s : State) (x : _) (a : Nat) : ({ s with outs := x } : State).byte a = s.byte a := rfl
@[simp] theorem State.get_acyc (s : State) (x : _) (g : Fld) (k l : Nat) :
    ({ s with acyc := x } : State).get g k l = s.get g k l := rfl
@[simp] theorem State.byte_acyc (s : State) (x : _) (a : Nat) : ({ s with acyc := x } : State).byte a = s.byte a := rfl
@[simp] theorem State.get_tracks (s : State) (x : _) (g : Fld) (k l : Nat) :
    ({ s with tracks := x } : State).get g k l = s.get g k l := rfl
@[simp] theorem State.byte_tracks (s : State) (x : _) (a : Nat) : ({ s with tracks := x } : State).byte a = s.byte a := rfl

/-! ### Registers -/

/-- Two fields stand at different places. -/
def apart (f : Fld) (i j : Nat) (g : Fld) (k l : Nat) : Prop := fkey f i j ≠ fkey g k l

theorem State.get_put_self (s : State) (f : Fld) (v i j : Nat) : (s.put f v i j).get f i j = v % 2 ^ f.width := by
  simp only [State.get, State.put, regGet_regSet_self, Nat.mod_mod]

/-- A field reads as a value of its width. -/
theorem State.get_lt (s : State) (f : Fld) (i j : Nat) : s.get f i j < 2 ^ f.width :=
  Nat.mod_lt _ (Nat.two_pow_pos _)

theorem State.get_put_ne (s : State) {f g : Fld} (v : Nat) {i j k l : Nat} (h : fkey f i j ≠ fkey g k l) :
    (s.put f v i j).get g k l = s.get g k l := by
  simp only [State.get, State.put, regGet_regSet_ne _ _ _ _ h]

theorem State.get_put_lt (s : State) (f : Fld) (v i j : Nat) : (s.put f v i j).get f i j < 2 ^ f.width := by
  rw [State.get_put_self]
  exact Nat.mod_lt _ (Nat.two_pow_pos _)

theorem State.get_put_of_lt (s : State) {f : Fld} {v : Nat} (i j : Nat) (h : v < 2 ^ f.width) :
    (s.put f v i j).get f i j = v := by
  rw [State.get_put_self, Nat.mod_eq_of_lt h]

@[simp] theorem State.when_true (s : State) (f : State → State) : s.when true f = f s := rfl
@[simp] theorem State.when_false (s : State) (f : State → State) : s.when false f = s := rfl

/-- A conditional change leaves what the change leaves. -/
theorem State.when_same {α : Type} (g : State → α) (s : State) (c : Bool) {f : State → State}
    (h : g (f s) = g s) : g (s.when c f) = g s := by
  cases c
  · rfl
  · exact h

/-! ### Memory -/

theorem State.byte_setByte_self (s : State) (a v : Nat) : (s.setByte a v).byte a = v % 256 := by
  unfold State.byte State.setByte
  rw [memGet_memSet_self, BitVec.toNat_ofNat]

theorem State.byte_setByte_ne (s : State) {a b : Nat} (v : Nat) (h : a ≠ b) : (s.setByte a v).byte b = s.byte b := by
  unfold State.byte State.setByte
  rw [memGet_memSet_ne _ _ h]

@[simp] theorem State.setBytes_get (l : List Nat) (s : State) (a : Nat) (g : Fld) (i j : Nat) :
    (s.setBytes a l).get g i j = s.get g i j := by
  induction l generalizing s a with
  | nil => rfl
  | cons b l ih => exact ih ..

/-- Storing bytes leaves every byte outside them. -/
theorem State.byte_setBytes_out (l : List Nat) (s : State) {a b : Nat} (h : b < a ∨ a + l.length ≤ b) :
    (s.setBytes a l).byte b = s.byte b := by
  induction l generalizing s a with
  | nil => rfl
  | cons x l ih =>
    simp only [List.length_cons] at h
    exact (ih (s.setByte a x) (by omega)).trans (s.byte_setByte_ne x (by omega))

/-- A stored byte reads back. -/
theorem State.byte_setBytes_in (l : List Nat) (s : State) (a k : Nat) (h : k < l.length) :
    (s.setBytes a l).byte (a + k) = l[k] % 256 := by
  induction l generalizing s a k with
  | nil => exact absurd h (Nat.not_lt_zero _)
  | cons x l ih =>
    cases k with
    | zero =>
      exact (State.byte_setBytes_out l (s.setByte a x) (.inl (Nat.lt_succ_self a))).trans (s.byte_setByte_self a x)
    | succ k =>
      have := ih (s.setByte a x) (a + 1) k (by simpa using h)
      rw [show a + (k + 1) = a + 1 + k by omega]
      exact this

/-! ### Interrupts -/

theorem State.sendMsix_get (s : State) (v : Nat) {g : Fld} {k l : Nat}
    (h : fkey R.HIF_MSIX_PBA 0 0 ≠ fkey g k l) : (s.sendMsix v).get g k l = s.get g k l := by
  unfold State.sendMsix
  split
  · rfl
  · split
    · exact State.get_put_ne _ _ h
    · rfl

theorem State.sendMsix_mem (s : State) (v : Nat) : (s.sendMsix v).mem = s.mem := by
  unfold State.sendMsix
  split
  · rfl
  · split <;> rfl

end Sys2Proof.Machine
end

