-- ==== Sys2Proof/Laws/Mailbox.lean ====
section
/-! SUPPORT. What keeps a frame, and what the shared operations of the mailboxes do: the answer of a request, a request
that is ready. -/

namespace Sys2Proof.Machine

theorem State.on_eq_false {s : State} {f : Fld} {i j : Nat} (h : s.get f i j = 0) : s.on f i j = false := by
  simp [State.on, h]

theorem State.on_eq_true {s : State} {f : Fld} {i j : Nat} (h : s.get f i j ≠ 0) : s.on f i j = true := by
  simp [State.on, h]

theorem bit_setBit (n k : Nat) : bit (setBit n k) k = true := by
  have h : (n ||| 2 ^ k).testBit k = true := by simp
  simpa [bit, setBit, Nat.testBit_eq_decide_div_mod_eq] using h

theorem State.mbxCause_mem (s : State) (n : Nat) : (s.mbxCause n).mem = s.mem := by
  unfold State.mbxCause State.when
  split
  · exact State.sendMsix_mem ..
  · rfl

@[simp] theorem toBytes_length (n v : Nat) : (toBytes n v).length = n := by
  induction n generalizing v with
  | zero => rfl
  | succ n ih => simp [toBytes, ih]

@[simp] theorem State.bytes_length (s : State) (a n : Nat) : (s.bytes a n).length = n := by simp [State.bytes]

@[simp] theorem State.bytes_getElem (s : State) (a n k : Nat) (h : k < (s.bytes a n).length) :
    (s.bytes a n)[k] = s.byte (a + k) := by simp [State.bytes]

theorem State.byte_lt (s : State) (a : Nat) : s.byte a < 256 := (memGet s.mem a).isLt

end Sys2Proof.Machine

namespace Sys2Proof.Claims
open Sys2Proof.Machine

/-! ### What keeps the registers outside a list of places -/

variable {ks : List Nat} {s t : State}

theorem kept_refl (ks : List Nat) (s : State) : RegsKept ks s s := fun _ _ _ _ => rfl

theorem kept_mono {ks' : List Nat} (h : RegsKept ks s t) (hs : ∀ k ∈ ks, k ∈ ks') : RegsKept ks' s t :=
  fun f i j hk => h f i j fun hm => hk (hs _ hm)

/-- A write of a listed place keeps the others. -/
theorem kept_put {f : Fld} {v i j : Nat} (hk : fkey f i j ∈ ks) (h : RegsKept ks s t) :
    RegsKept ks s (t.put f v i j) :=
  fun _ _ _ hn => (State.get_put_ne _ _ fun e => hn (e ▸ hk)).trans (h _ _ _ hn)

theorem kept_of_regs {u : State} (e : u.regs = t.regs) (h : RegsKept ks s t) : RegsKept ks s u := by
  intro f i j hn
  have := h f i j hn
  simp only [State.get, e] at this ⊢
  exact this

theorem kept_when {c : Bool} {f : State → State} (h : RegsKept ks s t) (h' : RegsKept ks s (f t)) :
    RegsKept ks s (t.when c f) := by
  cases c
  · exact h
  · exact h'

theorem kept_sendMsix {v : Nat} (hk : fkey R.HIF_MSIX_PBA 0 0 ∈ ks) (h : RegsKept ks s t) :
    RegsKept ks s (t.sendMsix v) :=
  fun _ _ _ hn => (State.sendMsix_get _ _ fun e => hn (e ▸ hk)).trans (h _ _ _ hn)

theorem kept_mbxCause {n : Nat} (hk : fkey R.HIF_MSIX_PBA 0 0 ∈ ks) (hk' : fkey R.HIF_INT_MBX_STAT 0 0 ∈ ks)
    (h : RegsKept ks s t) : RegsKept ks s (t.mbxCause n) :=
  kept_when (kept_put hk' h) (kept_sendMsix hk (kept_put hk' h))

theorem kept_setBytes {a : Nat} {l : List Nat} (h : RegsKept ks s t) : RegsKept ks s (t.setBytes a l) :=
  fun f i j hn => (State.setBytes_get ..).trans (h f i j hn)

/-! ### The lists beside registers and memory -/

@[simp] theorem quiet_put (s : State) (f : Fld) (v i j : Nat) : quiet (s.put f v i j) = quiet s := rfl
@[simp] theorem lists_put (s : State) (f : Fld) (v i j : Nat) : lists (s.put f v i j) = lists s := rfl
@[simp] theorem quiet_setByte (s : State) (a v : Nat) : quiet (s.setByte a v) = quiet s := rfl
@[simp] theorem lists_setByte (s : State) (a v : Nat) : lists (s.setByte a v) = lists s := rfl
@[simp] theorem quiet_tagAdd (s : State) (r : TagRec) : quiet (s.tagAdd r) = quiet s := rfl
@[simp] theorem quiet_waits (s : State) (x : List Wait) : quiet { s with waits := x } = quiet s := rfl

@[simp] theorem quiet_setBytes (s : State) (a : Nat) (l : List Nat) : quiet (s.setBytes a l) = quiet s := by
  induction l generalizing s a with
  | nil => rfl
  | cons b l ih => exact (ih (s.setByte a b) (a + 1)).trans rfl

@[simp] theorem lists_setBytes (s : State) (a : Nat) (l : List Nat) : lists (s.setBytes a l) = lists s := by
  induction l generalizing s a with
  | nil => rfl
  | cons b l ih => exact (ih (s.setByte a b) (a + 1)).trans rfl

@[simp] theorem quiet_sendMsix (s : State) (v : Nat) : quiet (s.sendMsix v) = quiet s := by
  unfold State.sendMsix
  split
  · rfl
  · split <;> rfl

@[simp] theorem quiet_mbxCause (s : State) (n : Nat) : quiet (s.mbxCause n) = quiet s := by
  unfold State.mbxCause State.when
  split
  · exact (quiet_sendMsix ..).trans rfl
  · rfl

theorem mbxCause_waits (s : State) (n : Nat) : (s.mbxCause n).waits = s.waits := by
  unfold State.mbxCause State.when State.sendMsix
  split
  · dsimp only
    split
    · rfl
    · split <;> rfl
  · rfl

/-- The registers at one place agree after both states took the same write there. -/
theorem get_mbxCause {n : Nat} {g : Fld} {k l : Nat} (h : fkey R.HIF_MSIX_PBA 0 0 ≠ fkey g k l)
    (h' : fkey R.HIF_INT_MBX_STAT 0 0 ≠ fkey g k l) : (s.mbxCause n).get g k l = s.get g k l := by
  unfold State.mbxCause State.when
  split
  · exact (State.sendMsix_get _ _ h).trans (State.get_put_ne _ _ h')
  · exact State.get_put_ne _ _ h'

theorem mbxCause_bit {n : Nat} (hn : n < 32) : bit ((s.mbxCause n).get R.HIF_INT_MBX_STAT) n = true := by
  have key : bit (((s.orBit R.HIF_INT_MBX_STAT n)).get R.HIF_INT_MBX_STAT) n = true := by
    have hm : setBit (s.get R.HIF_INT_MBX_STAT) n % 2 ^ 32 / 2 ^ n % 2 = setBit (s.get R.HIF_INT_MBX_STAT) n / 2 ^ n % 2 := by
      have h1 : ∀ m : Nat, (m % 2 ^ 32).testBit n = m.testBit n := by
        intro m; rw [Nat.testBit_mod_two_pow]; simp [hn]
      have h2 := h1 (setBit (s.get R.HIF_INT_MBX_STAT) n)
      simp only [Nat.testBit_eq_decide_div_mod_eq, decide_eq_decide] at h2
      omega
    have hb := bit_setBit (s.get R.HIF_INT_MBX_STAT) n
    have hg : (s.orBit R.HIF_INT_MBX_STAT n).get R.HIF_INT_MBX_STAT = setBit (s.get R.HIF_INT_MBX_STAT) n % 2 ^ 32 :=
      State.get_put_self ..
    unfold bit at hb ⊢
    rw [hg, hm]
    exact hb
  unfold State.mbxCause State.when
  split
  · rw [State.sendMsix_get _ _ (by decide)]; exact key
  · exact key

/-! ### The answer of a request -/

/-- The answer, once the page holds the result: registers, waits and the cause. -/
theorem answer_core {mb status reason handle opc now : Nat} {res : List Nat} (hm : mb < 32) (hs : status < 8)
    (hr : reason < 65536) (hv : s = t.setBytes (pageOf mb) res) :
    let u := ({ (((((((s.put R.MBX_RES_REASON reason mb).put R.MBX_RES_RLEN res.length mb).put R.MBX_HANDLE handle mb).put
      R.MBX_ROP opc mb).put R.MBX_T_DONE now mb).put R.MBX_STAT_STATUS status mb)) with
        waits := s.waits.filter fun w => w.mb != mb } : State).mbxCause mb
    Answered u mb status reason res ∧ AnswerKeeps [] mb res.length t u := by
  intro u
  have hu : u.mem = s.mem := State.mbxCause_mem ..
  have hb : ∀ a, u.byte a = s.byte a := fun a => by simp only [State.byte, hu]
  have hw : u.waits = s.waits.filter fun w => w.mb != mb := by
    exact mbxCause_waits _ _
  refine ⟨⟨?_, ?_, ?_, mbxCause_bit hm, ?_, ?_⟩, ⟨?_, ?_, ?_⟩⟩
  · rw [get_mbxCause (by simp [fkey, R.HIF_MSIX_PBA, R.MBX_STAT_STATUS]; omega)
      (by simp [fkey, R.HIF_INT_MBX_STAT, R.MBX_STAT_STATUS]; omega)]
    exact State.get_put_of_lt _ _ _ hs
  · rw [get_mbxCause (by simp [fkey, R.HIF_MSIX_PBA, R.MBX_RES_REASON]; omega)
      (by simp [fkey, R.HIF_INT_MBX_STAT, R.MBX_RES_REASON]; omega)]
    simp only [State.get_waits]
    rw [State.get_put_ne, State.get_put_ne, State.get_put_ne, State.get_put_ne, State.get_put_ne,
      State.get_put_of_lt _ _ _ hr] <;>
    simp [fkey, R.MBX_RES_REASON, R.MBX_RES_RLEN, R.MBX_HANDLE, R.MBX_ROP, R.MBX_T_DONE, R.MBX_STAT_STATUS]
  · rw [get_mbxCause (by simp [fkey, R.HIF_MSIX_PBA, R.MBX_RES_RLEN]; omega)
      (by simp [fkey, R.HIF_INT_MBX_STAT, R.MBX_RES_RLEN]; omega)]
    simp only [State.get_waits]
    rw [State.get_put_ne, State.get_put_ne, State.get_put_ne, State.get_put_ne, State.get_put_self] <;>
    simp [fkey, R.MBX_RES_RLEN, R.MBX_HANDLE, R.MBX_ROP, R.MBX_T_DONE, R.MBX_STAT_STATUS] <;> omega
  · intro k hk
    rw [hb, hv]
    exact State.byte_setBytes_in ..
  · intro w h
    rw [hw] at h
    simpa using (List.mem_filter.1 h).2
  · apply kept_mbxCause (by simp [answerPlaces]) (by simp [answerPlaces])
    refine kept_of_regs rfl ?_
    iterate 6 refine kept_put (by simp [answerPlaces]) ?_
    rw [hv]
    exact kept_setBytes (kept_refl _ _)
  · intro a ha
    rw [hb, hv]
    exact State.byte_setBytes_out _ _ ha
  · rw [quiet_mbxCause]
    exact (congrArg quiet hv).trans (quiet_setBytes ..)

/-- What a completion of a request that is no journal entry says, and all that it changes (R268). -/
theorem complete_answers {mb status reason handle : Nat} {res : List Nat} (hj : s.get H.MB_JRN mb = 0) (hm : mb < 32)
    (hs : status < 8) (hr : reason < 65536) :
    Answered (s.complete mb status reason handle res) mb status reason res ∧
      AnswerKeeps [] mb res.length s (s.complete mb status reason handle res) := by
  unfold State.complete
  simp only [State.on_eq_false hj, Bool.false_eq_true, if_false]
  split
  · exact answer_core hm hs hr rfl
  · obtain ⟨ha, hk⟩ := answer_core (handle := handle) (opc := s.get H.MB_OPC mb) (now := _) (t := s) hm hs hr rfl
    exact ⟨⟨ha.1, ha.2, ha.3, ha.4, ha.5, ha.6⟩, ⟨hk.1, hk.2, hk.3⟩⟩

/-- A live request that the unit's power state, its boot and its role let pass. -/
theorem request_open {mb opc n : Nat} {f : State → State} (hl : s.live mb opc = true) (hb : s.get R.PWR_STATE_BOOT ≠ 2)
    (hp : s.get R.PWR_STATE_STATE ≠ 2) (hr : s.isStandby = false) :
    s.request mb opc n f = if s.get H.MB_LEN mb < n then s.fail mb 0x0002 else f s := by
  simp [State.request, hl, hb, hp, hr]

/-- A request that is ready is executed. -/
theorem Ready.request {mb opc n : Nat} (h : Ready s mb opc n) (f : State → State) : s.request mb opc n f = f s := by
  rw [request_open h.live h.boot h.power h.role, if_neg (Nat.not_lt.2 h.len)]

theorem Ready.mono {mb opc n m : Nat} (h : Ready s mb opc n) (hm : m ≤ n) : Ready s mb opc m :=
  ⟨h.live, h.boot, h.power, h.role, Nat.le_trans hm h.len, h.jrn⟩

theorem live_lt {mb opc : Nat} (h : s.live mb opc = true) : mb < 32 := by
  simp only [State.live, Bool.and_eq_true, decide_eq_true_eq] at h
  exact h.1.1.1.1.1.1

theorem live_opc {mb opc : Nat} (h : s.live mb opc = true) : s.get H.MB_OPC mb = opc := by
  simp only [State.live, Bool.and_eq_true, beq_iff_eq] at h
  exact h.1.1.1.2

theorem Ready.lt {mb opc n : Nat} (h : Ready s mb opc n) : mb < 32 := live_lt h.live

/-- DONE, in a state reached from `s` by changes at `ks` and none to memory and lists. -/
theorem answers_after {mb status reason handle : Nat} {res : List Nat} (hk : RegsKept ks s t) (hm : t.mem = s.mem)
    (hq : quiet t = quiet s) (hj : t.get H.MB_JRN mb = 0) (hb : mb < 32) (hs : status < 8) (hr : reason < 65536) :
    Answered (t.complete mb status reason handle res) mb status reason res ∧
      AnswerKeeps ks mb res.length s (t.complete mb status reason handle res) := by
  obtain ⟨ha, h⟩ := complete_answers (handle := handle) (res := res) hj hb hs hr
  refine ⟨ha, ⟨fun f i j hn => ?_, fun a h' => ?_, h.quiet.trans hq⟩⟩
  · simp only [List.mem_append, not_or] at hn
    exact (h.regs f i j (by simpa using hn.1)).trans (hk f i j hn.2)
  · exact (h.bytes a h').trans (by simp only [State.byte, hm])

/-- Every host request is a request of its mailbox under its opcode, at least as long as R280 says. -/
theorem exec_request_cases (i : Instr) (s : State) :
    match requestOf i with
    | none => True
    | some (mb, opc, n) => ∃ f n', n ≤ n' ∧ exec i s = .next (s.request mb opc n' f) := by
  cases i with
  | segAppend mb =>
    exact ⟨_, 16 + 16 * clampN 1 64 (s.par mb 4 4), by unfold clampN; split <;> first | omega | (split <;> omega), rfl⟩
  | _ => first | exact trivial | exact ⟨_, _, Nat.le_refl _, rfl⟩

theorem exec_request {i : Instr} {mb opc n : Nat} (s : State) (h : requestOf i = some (mb, opc, n)) :
    ∃ f n', n ≤ n' ∧ exec i s = .next (s.request mb opc n' f) := by
  have := exec_request_cases i s
  rw [h] at this
  exact this

end Sys2Proof.Claims
end

