-- ==== Sys2Proof/Laws/Residue.lean ====
section
/-! SUPPORT. The predictions of R132's table: from the residues of the operands, with the corrections for wraps, they give the residue of
the result, so a write without an injected error never finds a mismatch. -/

namespace Sys2Proof.Machine

/-- A residue is a legal code. -/
theorem residue_lt (v : Nat) : residue v < 7 := Nat.mod_lt _ (by decide)

/-- ADD on a data register: a wrap takes 2^32 ≡ 4 away. -/
theorem residue_add {a b : Nat} (ha : a < 2 ^ 32) (hb : b < 2 ^ 32) :
    residue ((a + b) % 2 ^ 32) = (residue a + residue b + if 2 ^ 32 ≤ a + b then 3 else 0) % 7 := by
  unfold residue
  split <;> omega

/-- SUB, RSUB and CMP on a data register: a borrow adds 2^32 ≡ 4. -/
theorem residue_sub {a b : Nat} (ha : a < 2 ^ 32) (hb : b < 2 ^ 32) :
    residue ((a + 2 ^ 32 - b) % 2 ^ 32) = (residue a + (7 - residue b) + if a < b then 4 else 0) % 7 := by
  obtain ⟨c, hc⟩ : ∃ c, a + 2 ^ 32 = c + b := ⟨a + 2 ^ 32 - b, (Nat.sub_add_cancel (by omega)).symm⟩
  obtain ⟨r, hr⟩ : ∃ r, 7 = r + residue b := ⟨7 - residue b, (Nat.sub_add_cancel (residue_lt b).le).symm⟩
  rw [hc, Nat.add_sub_cancel, show 7 - residue b = r from Nat.sub_eq_of_eq_add hr]
  unfold residue at *
  split <;> omega

/-- A pointer modification by an offset's bit pattern: a wrap takes 2^16 ≡ 2 away. -/
theorem residue_pointer {p m : Nat} (hp : p < 2 ^ 16) (hm : m < 2 ^ 16) :
    residue ((p + m) % 2 ^ 16) = (residue p + residue m + if 2 ^ 16 ≤ p + m then 5 else 0) % 7 := by
  unfold residue
  split <;> omega

/-- The signed value of a 32-bit pattern: its residue less 4 where the sign bit is set. -/
theorem residue_signed {x : Nat} (hx : x < 2 ^ 32) :
    sext 32 x % 7 = ((residue x : Int) - if 2 ^ 31 ≤ x then 4 else 0) % 7 := by
  unfold residue sext
  split <;> split <;> omega

/-- MPY, MAC, MSU, TAPM, ADDA, SUBA and NEGA: an accumulator takes the exact value less 2^80 ≡ 4 a wrap. -/
theorem residue_acc (v : Int) : (residue (trunc 80 v) : Int) = (v - 4 * (v / 2 ^ 80)) % 7 := by
  unfold residue trunc
  omega

/-- The product of two signed words, predicted from their residues. -/
theorem residue_product {x y : Nat} (hx : x < 2 ^ 32) (hy : y < 2 ^ 32) :
    sext 32 x * sext 32 y % 7 = (((residue x : Int) - if 2 ^ 31 ≤ x then 4 else 0) *
      ((residue y : Int) - if 2 ^ 31 ≤ y then 4 else 0)) % 7 := by
  rw [Int.mul_emod, residue_signed hx, residue_signed hy, ← Int.mul_emod]

end Sys2Proof.Machine
end

