-- ==== Sys2Proof/Tests/Slice0.lean ====
section
/-! SUPPORT. The model's own tests: ill-formed commands are refused by WellFormed, engine words of the spec decode to their
instructions, and for every obligation with hypotheses a state and operands that meet them. -/

namespace Sys2Proof.Tests
open Sys2Proof Sys2Proof.Machine Sys2Proof.Claims

set_option Elab.async false

/-! ### Helpers -/

/-- Fields of a state set: field, index, value. -/
def set (s : State) (l : List (Fld × Nat × Nat)) : State := s.each l fun s p => s.put p.1 p.2.2 p.2.1

/-- The part after a boot: every domain up. -/
def up : State := set State.reset [(R.PWR_DOM_ON, 0, 0xFFF), (R.PWR_DOM_RST, 0, 0), (R.HIF_STATUS_READY, 0, 1),
  (R.PWR_CLK_LOCK, 0, 0x1F), (R.PWR_CLK_REF, 0, 1)]

/-- A request that waits in a mailbox: opcode and the bytes of its parameters. -/
def req (s : State) (mb opc : Nat) (bs : List Nat) : State :=
  set (s.setBytes (pageOf mb) bs) [(R.MBX_STAT_STATUS, mb, 1), (H.MB_OPC, mb, opc), (H.MB_LEN, mb, bs.length)]

/-- As `req`, with words as its parameters. -/
def reqW (s : State) (mb opc : Nat) (ws : List Nat) : State := req s mb opc (ofWords ws)

/-- A running instance of engine `e`: descriptor 3, priority 4, cycle 5. -/
def inst (e : Nat) : Inst :=
  { id := 1, desc := 3, cause := 0, cyc := 5, t := 100, dl := 100000, prio := 4, budget := 500, entry := 0, st := 1, eng := e }

/-- Engine `e` executes an instruction. -/
def eng (e : Nat) : State := { (up.setEngSt e 1) with insts := [inst e] }

/-- Reaches, as a Bool. -/
def reachesB (s : State) (i : Ifc) (a : Nat) : Bool :=
  s.ifcUp i && decide (i ≠ .bar2) && decide (i = .qspi → qspiMapped a = true) && !s.barDown (bar0Dom a) &&
    (match mbOf a with
      | some n => s.owns i n
      | none => true) && decide (a % 4 = 0) && decide (a < 0x1000000)

theorem reaches_of {s : State} {i : Ifc} {a : Nat} (h : reachesB s i a = true) : Reaches s i a := by
  simp only [reachesB, Bool.and_eq_true, decide_eq_true_eq, Bool.not_eq_true'] at h
  obtain ⟨⟨⟨⟨⟨⟨h1, h2⟩, h3⟩, h4⟩, h5⟩, h6⟩, h7⟩ := h
  exact ⟨h1, h2, h3, h4, fun n hn => by rw [hn] at h5; exact h5, h6, h7⟩

theorem engFree_of {s : State} {e : Nat}
    (h : (s.engCan e = true ∧ bit (s.esr e) 11 = false ∧ bit (s.get H.ENG_INJR e) 17 = false ∧
      (∀ x ∈ s.olds, x.eng ≠ e) ∧ s.inDelay e = false ∧ esrProt (s.esr e) = 0 ∧
      (esrLvl (s.esr e) = 0 ∨ bit (s.esr e) 7 = true ∨ s.get H.ENG_PC e ≠ s.get H.ENG_LE e (esrLvl (s.esr e) - 1))) ∧
      ∀ x ∈ s.late, x.eng ≠ e) : EngFree s e :=
  have ⟨⟨a, b, c, d, f, g, k⟩, l⟩ := h
  ⟨⟨a, b, c, d, f, g, k⟩, l⟩

/-- What holds of the key slots 1 to 3 (R479). -/
theorem forall_slot {P : Nat → Prop} (h : P 1 ∧ P 2 ∧ P 3) : ∀ j, 1 ≤ j → j ≤ 3 → P j := by
  intro j h1 h3
  have : j = 1 ∨ j = 2 ∨ j = 3 := by omega
  rcases this with rfl | rfl | rfl
  · exact h.1
  · exact h.2.1
  · exact h.2.2

/-! ### Ill-formed commands -/

theorem test_wf_register_address : Instr.wf (.registerWrite .bar0 (2 ^ 24) [0]) = false := by decide +kernel
theorem test_wf_bytes : bytesOk [0, 255, 256] = false ∧ Instr.wf (.registerWrite .bar0 0 [256]) = false := by decide +kernel
theorem test_wf_value : Instr.wf (.w1cWrite .bar0 0x30 (2 ^ 32) 0) = false := by decide +kernel
theorem test_wf_axis : Instr.wf (.axisLoop 256) = false := by decide +kernel
theorem test_wf_mailbox : Instr.wf (.echo 32) = false := by decide +kernel
theorem test_wf_engine : Instr.wf (.nop 16) = false := by decide +kernel
theorem test_wf_alu_operand : AluB.wf (.reg 16) = false ∧ AluB.wf (.imm 32768) = false := by decide +kernel
theorem test_wf_memory_operand : MemRef.wf ⟨false, 8, 0, 0⟩ 13 = false ∧ MemRef.wf ⟨false, 0, 0, 4096⟩ 13 = false := by decide +kernel
theorem test_wf_second_unit : MacUnit.wf ⟨3, 0, 0, 0⟩ = false := by decide +kernel
theorem test_wf_moves : XMove.wf ⟨8, 0, false⟩ = false ∧ YMove.wf ⟨true, 4, 0, 0⟩ = false := by decide +kernel
theorem test_wf_branch_target : BrTgt.wf (.ofs 32768) = false ∧ BrTgt.wf (.ind 16) = false := by decide +kernel
theorem test_wf_debug_space : DbgSpace.wf (.engP 16) = false := by decide +kernel
theorem test_wf_frame : frameWf (List.replicate 14 0) (List.replicate 63 0) [] = false ∧
    frameWf (List.replicate 14 256) (List.replicate 64 0) [] = false ∧
    Instr.wf (.cycleFrameReturn 4 true (List.replicate 14 0) (List.replicate 64 0) [] 0 0) = false ∧
    Instr.wf (.cycleFrameReturn 3 true (List.replicate 14 0) (List.replicate 64 0) [] 0 65536) = false ∧
    Instr.wf (.frameForward 4 true (List.replicate 14 0) (List.replicate 64 0) [] 0) = false := by decide +kernel
theorem test_wf_drive_port : Instr.wf (.offsetCalibrationComplete 8 0 0 0 0) = false ∧
    Instr.wf (.offsetCalibrationComplete 7 0 0 0 65536) = false ∧
    Instr.wf (.calibrationStepComplete 0 (2 ^ 32) 0) = false := by decide +kernel
theorem test_wf_well_formed : Instr.wf (.registerWrite .qspi 0x100000 [1, 2, 3, 4]) = true ∧ Instr.wf (.echo 31) = true := by
  decide +kernel

/-! ### Engine words, written out from R113 and from the spec's own listings -/

theorem test_word_parallel_move :
    engDecode 2 0x5C024604 0 = some (.parallelMove 2 (some ⟨1, 0, false⟩) (some ⟨true, 0, 0, 1⟩)) := by decide +kernel
theorem test_word_mac : engDecode 2 0x5422C000 0 = some (.mac 2 0 1 0 none (some ⟨3, 0, false⟩) none) := by decide +kernel
theorem test_word_mpy : engDecode 2 0x52634000 0 = some (.mpy 2 2 3 0 none (some ⟨5, 0, false⟩) none) := by decide +kernel
theorem test_word_msu : engDecode 2 0x699AAE00 0 = some (.msu 2 1 4 6 (some ⟨2, 2, 5, 6⟩) none none) := by decide +kernel
theorem test_word_mva : engDecode 2 0x870607A0 0 = some (.mva 2 6 0 30 true) := by decide +kernel
theorem test_word_sout : engDecode 2 0x88007020 0 = some (.sout 2 0 0 7 true) := by decide +kernel
theorem test_word_sta64 : engDecode 2 0x46C80008 0 = some (.sta64 2 ⟨true, 4, 2, 8⟩ 1 0 false) := by decide +kernel
theorem test_word_done : engDecode 2 0x01000000 0 = some (.done 2) := by decide +kernel
theorem test_word_ldi : engDecode 2 0xE0300000 0x12345678 = some (.ldi 2 3 0x12345678) := by decide +kernel
theorem test_word_class_c : engDecode 2 0xC0000000 0 = none := by decide +kernel

/-! ### Witnesses of the statements about the machine -/

/-- What Obligations.EveryStepKeepsStateSound assumes holds somewhere: a supply loss waits after reset. -/
theorem wit_EveryStepKeepsStateSound :
    ∃ s t : State, s.Inv ∧ s.pending ≠ [] ∧ step s = .next t :=
  ⟨{ State.reset with pending := [.vinLoss] }, _, ⟨by decide, by decide, by decide, by decide, fun _ => by simp [State.reset], fun _ => by simp [State.reset]⟩, by decide, rfl⟩

/-- What Obligations.RequestNotPendingDoesNothing assumes holds somewhere. -/
theorem wit_RequestNotPendingDoesNothing : ∃ (i : Instr) (s : State) (mb opc n : Nat),
    requestOf i = some (mb, opc, n) ∧ s.live mb opc = false :=
  ⟨.secAttest 31, up, 31, 0x0C08, 16, by decide +kernel, by decide +kernel⟩

/-- What Obligations.ShortRequestFailsWithLength assumes holds somewhere. -/
theorem wit_ShortRequestFailsWithLength : ∃ (i : Instr) (s : State) (mb opc n : Nat),
    requestOf i = some (mb, opc, n) ∧ s.live mb opc = true ∧ s.get R.PWR_STATE_BOOT ≠ 2 ∧ s.get R.PWR_STATE_STATE ≠ 2 ∧
      s.isStandby = false ∧ s.get H.MB_JRN mb = 0 ∧ s.get H.MB_LEN mb < n :=
  ⟨.move 31, reqW up 31 0x0400 (List.replicate 14 0), 31, 0x0400, 60, by decide +kernel, by decide +kernel, by decide +kernel,
    by decide +kernel, by decide +kernel, by decide +kernel, by decide +kernel⟩

/-- What Obligations.StandbyRefusesStateChanges assumes holds somewhere. -/
theorem wit_StandbyRefusesStateChanges : ∃ (i : Instr) (s : State) (mb opc n : Nat),
    requestOf i = some (mb, opc, n) ∧ s.live mb opc = true ∧ s.get R.PWR_STATE_BOOT ≠ 2 ∧ s.get R.PWR_STATE_STATE ≠ 2 ∧
      s.isStandby = true ∧ s.get H.MB_JRN mb = 0 ∧
      opc ∉ [0x0001, 0x0002, 0x0006, 0x0007, 0x0107, 0x0201, 0x0205, 0x0504, 0x0608, 0x060B, 0x0A00, 0x0A01, 0x0A02, 0x0A03,
        0x0A04, 0x0905, 0x0B02, 0x0C08] :=
  ⟨.axisEnable 31, set (reqW up 31 0x0102 [255]) [(R.CNJ_STATE_ROLE, 0, 2)], 31, 0x0102, 4, by decide +kernel,
    by decide +kernel, by decide +kernel, by decide +kernel, by decide +kernel, by decide +kernel, by decide +kernel⟩

/-! ### Witnesses of the other statements -/


/-! Helpers of the witnesses for the control instructions of an engine. -/

/-- A state or an item for the witnesses of the control instructions of an engine. -/
def w4idle : State := { set up [(R.SCH_STATUS_ENG_INSVC,0,0xFFFF)] with insts := [{ inst 0 with st := 0 }] }

/-- A state or an item for the witnesses of the control instructions of an engine. -/
def w4pre : State :=
  { (set (eng 2) [(H.ENG_ESR,2,0x40),(H.ENG_ECYC,2,9),(H.ENG_PC,2,0x100),(R.SCH_ENG_STATE,0,0xFFFFFFDF)]) with insts := [inst 2, { inst 0 with id := 2, desc := 4, st := 0, prio := 7, rtype := 2 }] }

/-- A state or an item for the witnesses of the control instructions of an engine. -/
def w4acc : State :=
  { (set (eng 2) [(H.ENG_ESR,2,0x440),(H.ENG_EPC,2,0x100),(H.ENG_ESS,2,0x43),(H.ENG_ECS,2,9)]) with insts := [{inst 2 with st := 2 }, { inst 2 with id := 2, desc := 4, entry := 0x200, prio := 7, st := 3 }] }

/-! Helpers of the witnesses for the boundaries and the scheduler. -/

/-- A state or an item for the witnesses of the boundaries and the scheduler. -/
def w5x (ty r rt : Nat) : Inst := { inst 2 with ty := ty, recd := r, rtype := rt }

/-- A state or an item for the witnesses of the boundaries and the scheduler. -/
def w5cl (ty r rt : Nat) : State := { eng 2 with insts := [w5x ty r rt] }

/-- A state or an item for the witnesses of the boundaries and the scheduler. -/
def w5i (ty r : Nat) : Inst := { w5x ty r 0 with pkt := ofWords [0xFFFFFFF0, 5, 0, 0] }

/-- A state or an item for the witnesses of the boundaries and the scheduler. -/
def w5s (ty a : Nat) : State :=
  { (set (w5cl ty a 0) [(H.AX_BIND,a,0x20),(R.AXS_STATUS_STATE,a,1)]) with insts := [w5i ty a] }

/-- A state or an item for the witnesses of the boundaries and the scheduler. -/
def w5v (z : Nat) : State :=
  { (set (w5cl 2 7 0) [(H.AX_BIND,7,0x20),(R.AXS_STATUS_STATE,7,3),(H.AX_SMODE,7,3),(R.AXS_STAGE_CFG_GROUP,7,0),(H.AX_Z,7,z),(R.AXS_TRQ_MIN,7,0xFFFFF000),(R.AXS_TRQ_MAX,7,0x1000)]) with insts := [w5i 2 7] }

/-- A state or an item for the witnesses of the boundaries and the scheduler. -/
def w5c (ty kind : Nat) : State :=
  { (set (w5cl ty 7 0) [(H.AX_BIND,7,0x20),(R.AXS_STATUS_KIND,7,kind),(R.AXS_STATUS_STATE,7,4),(H.AX_TRQ,7,1),(R.AXS_STAGE_CFG_GROUP,7,255),(R.AXS_POS_SCALE,7,0x30000),(R.AXS_VEL_SCALE,7,0x8000),(R.AXS_P_DEM,7,1000),(R.AXS_TRQ_MIN,7,0xFFFFF000),(R.AXS_TRQ_MAX,7,0x1000)]) with insts := [w5i ty 7] }

/-- A state or an item for the witnesses of the boundaries and the scheduler. -/
def w5d (st : Nat) : State := { up with insts := [{ inst 2 with st := st }] }

/-- A state or an item for the witnesses of the boundaries and the scheduler. -/
def w5sch (opc len : Nat) (ws : List Nat) : State := reqW up 3 opc ws

/-! Helpers of the witnesses for the axes. -/

/-- A state or an item for the witnesses of the axes. -/
def w6 (mb opc len : Nat) (ws : List Nat) (st : Nat :=
  4) : State := set (reqW up mb opc (ws ++ List.replicate (len / 4 + 1 - ws.length) 0)) [(R.AXS_STATUS_STATE, ws.headD 0 % 256, st)]

/-- A state or an item for the witnesses of the axes. -/
def w6x (mb opc : Nat) (ws : List Nat) (st : Nat :=
  4) : State := set (reqW up mb opc ws) [(R.AXS_STATUS_STATE, ws.headD 0 % 256, st)]

/-- A state or an item for the witnesses of the axes. -/
def w6f : State :=
  { (set (reqW up 31 0x104 [255]) [(R.AXS_STATUS_STATE,255,6),(H.FRST_ON,255,1),(H.FRST_N,255,16)]) with waits := [{ mb := 31, opc := 0x104, key := 255 }] }

/-- A state or an item for the witnesses of the axes. -/
def w6m : Motion :=
  { axis := 255, ts := 1000, kind := 1, tgt := 100, v := 1000, a := 10000, d := 10000, j := 0, held := false }

/-- A state or an item for the witnesses of the axes. -/
def w6g : Seg := { axis := 255, dur := 8, flags := 0, pEnd := 0, vEnd := 0 }

/-- A state or an item for the witnesses of the axes. -/
def w6s (g : List Seg) : State :=
  { (set up [(R.AXS_STATUS_STATE,255,4),(R.TRJ_SEG_STAT_STATE,255,1),(R.TRJ_STAT_MODE,255,2)]) with segs := g }

/-- A state or an item for the witnesses of the axes. -/
def w6t (n : Nat) : Track :=
  { unit := 31, t0 := 0, len := 1000, p0 := -4294967296, v0 := 8589934592000000, p1 := 4294967296, v1 := 8589934592000000, fired := n }

/-- A state or an item for the witnesses of the axes. -/
def w6c (n : Nat) : State :=
  { (set up [(R.CMP_CTL_EN,31,1),(R.CMP_STAT_ARMED,31,1),(R.CMP_CAP_CTL_EN,31,1),(R.CMP_CAP_CTL_SRC,31,15),(R.CMP_CAP_STAT_ARMED,31,1),(R.CMP_CAP_CTL_EDGE,31,2),(H.CMP_TGAP,31,1),(R.CMP_CTL_DIR,31,1)]) with tracks := [w6t n] }

/-- A state or an item for the witnesses of the axes. -/
def w6e (n : Nat) : State :=
  { w6c 4 with edges := List.replicate n { unit := 31, t := 5, frac := 0, rising := true } }

/-! Helpers of the witnesses for the rings. -/

/-- A state or an item for the witnesses of the rings. -/
def w7 (l : List (Fld × Nat × Nat)) : State := set up l

/-- A state or an item for the witnesses of the rings. -/
def w7a (r nslot : Nat) : State :=
  set up [(R.NRT_RSTATE_STATE,r,4),(R.NRT_RSTATE_HEAD,r,1),(R.NRT_RCFG2_NSLOT,r,nslot),(R.SCH_DESC_EN,1023,1),(R.SCH_DESC_REL,1023,0),(R.SCH_DESC_RING,1023,r),(R.SCH_DESC_SLOT,1023,nslot-1),(H.BND_N,0,100),(R.NRT_TOPO_HOPS,r,7)]

/-- A cycle frame of the head 1, from its destination address on: FLAGS, HOPS, REF_ADDR, REF_TIME. -/
def w7l (flags hops refa reft : Nat) : List Nat :=
  List.replicate 12 0 ++ toBytesBE 2 (up.get R.NRT_RCFG3_ETYPE 0) ++ [1, 1] ++ toBytesBE 2 flags ++ toBytesBE 8 100 ++
    List.replicate 8 0 ++ toBytesBE 4 1 ++ List.replicate 14 0 ++ toBytesBE 2 hops ++ toBytesBE 2 refa ++ toBytesBE 8 reft ++
    [0, 0] ++ toBytesBE 4 777 ++ List.replicate 8 0

/-- A state or an item for the witnesses of the rings. -/
def w7n : State :=
  set up [(H.NODE_ST,8191,2),(R.AXS_STATUS_STATE,255,4),(H.AX_BIND,255,1),(H.AX_NODE,255,4095),(H.AX_ONLINE,255,1)]

/-- A state or an item for the witnesses of the rings. -/
def w7q (ln : Nat) (ws : List Nat) (opc : Nat) (l : List (Fld × Nat × Nat)) : State :=
  set (reqW up 31 opc (ws ++ List.replicate (ln / 4 - ws.length) 0)) l

/-- A state or an item for the witnesses of the rings. -/
def w7w : AcycMsg := { ring := 1, node := 4095, svc := 0x1234, tid := 5, data := [1, 2], mb := some 31, sent := 1 }

/-- A state or an item for the witnesses of the rings. -/
def w7f : State := { (set (reqW up 31 0x502 [1,4095,0x1234,0,0]) [(H.BND_N,0,300)]) with acyc := [w7w], waits := [{ mb := 31, opc := 0x502, key := 8191 }] }

/-- A state or an item for the witnesses of the rings. -/
def w7s : State :=
  ((set (reqW up 31 0x502 [1,4095,0x11234,800]) [(H.SCAN_N,1,2),(H.MB_LEN,31,4096)]).setBytes (scanAt 1 0) [2,0]).setBytes (scanAt 1 1) [0xFF,0x1F]

/-! Helpers of the witnesses for the drive ports. -/

/-- A state or an item for the witnesses of the drive ports. -/
def w8 (l : List (Fld × Nat × Nat)) : State :=
  set up ([(R.DRV_CFG_MODE,7,1),(R.AXS_STATUS_STATE,200,4),(H.AX_BIND,200,0x17)] ++ l)

/-- A state or an item for the witnesses of the drive ports. -/
def w8q (opc : Nat) (ws : List Nat) (len : Nat) (l : List (Fld × Nat × Nat)) : State :=
  set (reqW up 31 opc (ws ++ List.replicate (len / 4 - ws.length) 0)) l

/-! Helpers of the witnesses for the field I/O. -/

/-- A state or an item for the witnesses of the field I/O. -/
def w9 (l : List (Fld × Nat × Nat)) : State :=
  set up ([(R.FIO_CFG_DIR,3,1),(R.FIO_CFG_DIR,7,1),(R.FIO_CFG_DIR,31,1)] ++ l)

/-- A state or an item for the witnesses of the field I/O. -/
def w9q (opc : Nat) (ws : List Nat) (l : List (Fld × Nat × Nat)) : State := set (reqW (w9 []) 31 opc ws) l

/-! Helpers of the witnesses for the safety core. -/

/-- A state or an item for the witnesses of the safety core. -/
def w10 (l : List (Fld × Nat × Nat)) : State := set up ([(R.HIF_ID_VARIANT,0,1)] ++ l)

/-- A state or an item for the witnesses of the safety core. -/
def w10q (opc : Nat) (ws : List Nat) (l : List (Fld × Nat × Nat)) : State := set (reqW (w10 []) 31 opc ws) l

/-- A state or an item for the witnesses of the safety core. -/
def w10s (opc : Nat) (ws : List Nat) (l : List (Fld × Nat × Nat)) : State :=
  set (w10q opc ws l) [(R.CFG_SAF_SESS_OPEN,0,1),(R.CFG_SAF_SESS_MBX,0,31),(R.CFG_STATUS_NO_PASSWORD,0,0)]

/-- A state or an item for the witnesses of the safety core. -/
def w10c : List (Fld × Nat × Nat) :=
  [(R.SAF_CONN_CFG_EN,63,1),(R.SAF_CONN_CFG_DIR,63,1),(R.SAF_CONN_STAT_STATE,63,2),(R.SAF_CONN_STAT_CNUM,63,65535),(R.SAF_CONN_ID,63,9)]

/-- A state or an item for the witnesses of the safety core. -/
def w10a : List (Fld × Nat × Nat) :=
  [(R.NRT_RSTATE_STATE,1,4),(R.NRT_RSTATE_HEAD,1,1),(R.NRT_RCFG2_NSLOT,1,256),(R.AXS_STATUS_STATE,200,4),(H.AX_BIND,200,1),(H.AX_SLOT,200,255),(R.NRT_RCFG2_NZHV,1,64)]

/-! Helpers of the witnesses for the pair. -/

/-- A state or an item for the witnesses of the pair. -/
def w11 (l : List (Fld × Nat × Nat)) : State := set up l

/-- A state or an item for the witnesses of the pair. -/
def w11q (opc : Nat) (ws : List Nat) (l : List (Fld × Nat × Nat)) : State :=
  set (reqW up 31 opc (ws ++ [0,0,0])) l

/-- A state or an item for the witnesses of the pair. -/
def w11w : Wait := { mb := 30, opc := 0x0A02, key := 0 }

/-! Helpers of the witnesses for the configuration. -/

/-- A state or an item for the witnesses of the configuration. -/
def w12q (opc len : Nat) (ws : List Nat) (l : List (Fld × Nat × Nat)) : State :=
  set (reqW up 31 opc (ws ++ List.replicate ((len + 3) / 4 - ws.length) 0)) l

/-- A state or an item for the witnesses of the configuration. -/
def w12l (opc st k : Nat) : List (Fld × Nat × Nat) :=
  [(R.LOP_ID_HANDLE,k,0x1FF),(R.LOP_OBJ_OPCODE,k,opc),(R.LOP_ID_STATUS,k,st)]

/-- A state or an item for the witnesses of the configuration. -/
def w12i : Image :=
  { seq := 7, bootMode := 3, size := 4096, good := true, regs := [], mem := [], axes := [], descs := [] }

/-- A state or an item for the witnesses of the configuration. -/
def w12m (opc : Nat) : Wait := { mb := 31, opc := opc, key := 0, arg := 1 }

/-- A state or an item for the witnesses of the configuration. -/
def w12s : List (Fld × Nat × Nat) :=
  [(R.CFG_SAF_SESS_OPEN,0,1),(R.CFG_SAF_SESS_MBX,0,31),(R.CFG_STATUS_NO_PASSWORD,0,0)]

/-! Helpers of the witnesses for integrity and power. -/

/-- A state or an item for the witnesses of integrity and power. -/
def w13q (opc : Nat) (ws : List Nat) (l : List (Fld × Nat × Nat)) : State := set (reqW up 31 opc ws) l

/-- A state or an item for the witnesses of integrity and power. -/
def w13i : InjSlot :=
  { slot := 7, det := 1, inst := 5, count := 1, interval := 0, start := 0, arg0 := 0, arg1 := 6, arg2 := 0 }

/-- A state or an item for the witnesses of integrity and power. -/
def w13x (l : List (Fld × Nat × Nat)) : State := { set up l with injs := [w13i] }

/-- A state or an item for the witnesses of integrity and power. -/
def w13h (h : Nat) : State := set State.reset [(H.PWR_HOLD,0,h)]

/-- A state or an item for the witnesses of integrity and power. -/
def w13e (q : Nat) : EvEntry :=
  { seq := q, t := 5, kind := 1, code := 2, inst := 3, axis := 4, cls := 5, inj := true, info := 7 }

/-! Helpers of the witnesses for security and debug. -/

/-- A state or an item for the witnesses of security and debug. -/
def w14q (opc : Nat) (ws : List Nat) (l : List (Fld × Nat × Nat)) : State := set (reqW up 31 opc ws) l

/-- A state or an item for the witnesses of security and debug. -/
def w14t (kind slot : Nat) : List Nat := [kind, 0, 0, 0,0,0,0, slot] ++ List.replicate 16 0

/-- A state or an item for the witnesses of security and debug. -/
def w14l (n : Nat) (l : List (Fld × Nat × Nat)) : State :=
  set up ([(R.SEC_DBG_LEVEL,0,n),(R.SEC_STATE_STATE,0,1)] ++ l)

/-- What Obligations.WordReadsReturnAndLatch assumes (part 1) holds somewhere, clause by clause. -/
theorem wit_WordReadsReturnAndLatch_1 :
    (∃ (i : Ifc) (a : Nat) (s : State),
    Reaches s i a ∧ isHigh (bar0Fields a) a = false ∧ (a ≠ 0x60008 ∨ bit (s.get H.LAT_HI a) 32 = false) ∧ a % 8 = 0) ∧
    (∃ (i : Ifc) (a : Nat) (s : State),
    Reaches s i a ∧ isHigh (bar0Fields a) a = false ∧ (a ≠ 0x60008 ∨ bit (s.get H.LAT_HI a) 32 = false) ∧ i = .qspi) :=
  ⟨⟨.bar0, 0x60000, set up [(R.DCK_TIME,0,0x1122334455667788),(R.DCK_FRAC,0,7)], by and_intros <;> first | decide +kernel | exact reaches_of (by decide +kernel)⟩,
   ⟨.qspi, 0x30, set up [(R.HIF_STATUS_HSEL,0,1)], by and_intros <;> first | decide +kernel | exact reaches_of (by decide +kernel)⟩⟩

/-- What Obligations.WordReadsReturnAndLatch assumes (part 2) holds somewhere, clause by clause. -/
theorem wit_WordReadsReturnAndLatch_2 :
    (∃ (i : Ifc) (a : Nat) (s : State),
    Reaches s i a ∧ isHigh (bar0Fields a) a = true ∧ bit (s.get H.LAT_HI (a - 4)) 32 = true) := by
  refine ⟨.bar0, 0x70014, set up [(H.LAT_HI,0x70010,2^32+5)], ?_⟩
  and_intros <;> first | decide +kernel | exact reaches_of (by decide +kernel)

/-- What Obligations.WordReadsReturnAndLatch assumes (part 3) holds somewhere, clause by clause. -/
theorem wit_WordReadsReturnAndLatch_3 :
    (∃ (i : Ifc) (s : State),
    Reaches s i 0x60008 ∧ bit (s.get H.LAT_HI 0x60008) 32 = true) :=
  ⟨.bar0, set up [(H.LAT_HI,0x60008,2^32+5)], by and_intros <;> first | decide +kernel | exact reaches_of (by decide +kernel)⟩

/-- What Obligations.WordReadsReturnAndLatch assumes (part 4) holds somewhere, clause by clause. -/
theorem wit_WordReadsReturnAndLatch_4 :
    (∃ (a : Nat) (s : State),
    Reaches s .bar0 a ∧ a % 8 = 0 ∧ isLow (bar0Fields a) a = true ∧ isHigh (bar0Fields a) a = false) :=
  ⟨0x70010, set up [(R.CNJ_DIG_LOCAL,0,0x1122334455667788)], by and_intros <;> first | decide +kernel | exact reaches_of (by decide +kernel)⟩

/-- What Obligations.Register64WritesStageAndCommit assumes holds somewhere, clause by clause. -/
theorem wit_Register64WritesStageAndCommit :
    (∃ (i : Ifc) (k v : Nat) (s : State),
    k < 64 ∧ v < 2 ^ 32 ∧
    let a := 0x8000 + 16 * k
    Reaches s i a ∧ Reaches s i (a + 4) ∧ bit (s.get H.STG_HI a) 32 = true) ∧
    (∃ (i : Ifc) (k v : Nat) (s : State),
    k < 64 ∧ v < 2 ^ 32 ∧
    let a := 0x8000 + 16 * k
    Reaches s i a ∧ Reaches s i (a + 4) ∧ i = .bar0) :=
  ⟨⟨.bar0, 63, 2^32-1, set up [(H.STG_HI,0x83F0,2^32+9)], by and_intros <;> first | decide +kernel | exact reaches_of (by decide +kernel)⟩,
   ⟨.bar0, 63, 2^32-1, set up [(H.STG_HI,0x83F0,2^32+9)], by and_intros <;> first | decide +kernel | exact reaches_of (by decide +kernel)⟩⟩

/-- What Obligations.ClearingReadsAndWrites assumes (part 1) holds somewhere, clause by clause. -/
theorem wit_ClearingReadsAndWrites_1 :
    (∃ (i : Ifc) (a : Nat) (f : Fld) (k j : Nat) (s : State),
    Reaches s i a ∧ isHigh (bar0Fields a) a = false ∧ isLow (bar0Fields a) a = false ∧
    ((bar0Fields a).filter fun g => g.acc == .RC && (fldAt g a).isSome) = [f] ∧ fldAt f a = some (k, j)) := by
  refine ⟨.bar0, 0x50064, R.NRT_CNT_FOREIGN_HEAD, 0, 0, set up [(R.NRT_CNT_FOREIGN_HEAD,0,7)], ?_⟩
  and_intros <;> first | decide +kernel | exact reaches_of (by decide +kernel)

/-- What Obligations.ClearingReadsAndWrites assumes (part 2) holds somewhere, clause by clause. -/
theorem wit_ClearingReadsAndWrites_2 :
    (∃ (i : Ifc) (v hw : Nat) (s : State),
    v < 2 ^ 32 ∧ hw < 2 ^ 32 ∧ Reaches s i 0x30) ∧
    (∃ (i : Ifc) (v hw : Nat) (s : State),
    v < 2 ^ 32 ∧ hw < 2 ^ 32 ∧ Reaches s i 0x38) :=
  ⟨⟨.bar0, 0x101, 2, set up [(R.HIF_INT_STAT,0,0x3FFF),(R.HIF_INT_MBX_STAT,0,0x80000101),(R.HIF_INT_EN,0,3)], by and_intros <;> first | decide +kernel | exact reaches_of (by decide +kernel)⟩,
   ⟨.bar0, 0x101, 2, set up [(R.HIF_INT_STAT,0,0x3FFF),(R.HIF_INT_MBX_STAT,0,0x80000101),(R.HIF_INT_EN,0,3)], by and_intros <;> first | decide +kernel | exact reaches_of (by decide +kernel)⟩⟩

/-- What Obligations.PageWritesLandInPage assumes holds somewhere, clause by clause. -/
theorem wit_PageWritesLandInPage :
    (∃ (n a : Nat) (bs : List Nat) (s : State),
    n < 32 ∧ s.barDown 2 = false ∧ s.get R.MBX_STAT_STATUS n = 0 ∧ pageOf n ≤ a ∧ a + bs.length ≤ pageOf n + 0x1000 ∧
    bs ≠ [] ∧ s.ifcUp .bar0 = true ∧ s.pcieOwns n = true) ∧
    (∃ (n a : Nat) (bs : List Nat) (s : State),
    n < 32 ∧ s.barDown 2 = false ∧ s.get R.MBX_STAT_STATUS n = 0 ∧ pageOf n ≤ a ∧ a + bs.length ≤ pageOf n + 0x1000 ∧
    bs ≠ [] ∧ s.ifcUp .qspi = true ∧ s.qspiOwns n = true ∧ a % 4 = 0 ∧ bs.length % 4 = 0) :=
  ⟨⟨31, pageOf 31 + 0xFFC, [1,2,3,300], set up [], by and_intros <;> decide +kernel⟩,
   ⟨0, pageOf 0, [1,2,3,4], set up [(R.HIF_STATUS_HSEL,0,1)], by and_intros <;> decide +kernel⟩⟩

/-- What Obligations.DoorbellsAndAcknowledges assumes (part 1) holds somewhere, clause by clause. -/
theorem wit_DoorbellsAndAcknowledges_1 :
    (∃ (i : Ifc) (n : Nat) (s : State),
    s.ifcUp i = true ∧ i ≠ .bar2 ∧ s.owns i n = true ∧ s.barDown 2 = false ∧ TakesNew s n) := by
  refine ⟨.bar0, 31, set up [(R.MBX_REQ_OPCODE,31,1),(R.MBX_REQ_TAG,31,9),(R.MBX_LEN,31,4096)], ?_⟩
  and_intros <;> first | decide +kernel | (constructor <;> decide +kernel)

/-- What Obligations.DoorbellsAndAcknowledges assumes (part 2) holds somewhere, clause by clause. -/
theorem wit_DoorbellsAndAcknowledges_2 :
    (∃ (i : Ifc) (n : Nat) (r : TagRec) (s : State),
    n < 32 ∧ s.ifcUp i = true ∧ i ≠ .bar2 ∧ s.owns i n = true ∧ s.barDown 2 = false ∧ s.takesDb n = true ∧
    s.get R.MBX_STAT_STATUS n = 0 ∧ s.get H.MB_JRN n = 0 ∧ s.get R.MBX_REQ_TAG n ≠ 0 ∧ s.get R.MBX_REQ_TAG n < 2 ^ 16 ∧
    s.tags.find? (fun x => x.mb == n && x.tag == s.get R.MBX_REQ_TAG n) = some r ∧ r.status < 8 ∧ r.reason < 2 ^ 16) := by
  refine ⟨.bar0, 5, ⟨5,9,2,0,4,0,1,77,[1,2,3,4]⟩, { set up [(R.MBX_REQ_OPCODE,5,1),(R.MBX_REQ_TAG,5,9)] with tags := [⟨5,9,2,0,4,0,1,77,[1,2,3,4]⟩] }, ?_⟩
  and_intros <;> decide +kernel

/-- What Obligations.DoorbellsAndAcknowledges assumes (part 3) holds somewhere, clause by clause. -/
theorem wit_DoorbellsAndAcknowledges_3 :
    (∃ (i : Ifc) (n : Nat) (s : State),
    n < 32 ∧ s.ifcUp i = true ∧ i ≠ .bar2 ∧ s.owns i n = true ∧ s.barDown 2 = false ∧
    (s.get R.MBX_STAT_STATUS n = 2 ∨ s.get R.MBX_STAT_STATUS n = 3)) := by
  refine ⟨.bar0, 5, set up [(R.MBX_STAT_STATUS,5,3),(R.MBX_RES_REASON,5,2)], ?_⟩
  and_intros <;> decide +kernel

/-- What Obligations.DoorbellsAndAcknowledges assumes (part 4) holds somewhere, clause by clause. -/
theorem wit_DoorbellsAndAcknowledges_4 :
    (∃ (k : Nat) (s : State),
    k < 32 ∧ HostWord s (0x1100C + 0x20 * k) ∧ s.get R.LOP_ID_HANDLE k ≠ 0 ∧ s.get R.LOP_ID_STATUS k ∈ [2, 3, 5]) :=
  ⟨31, set up [(R.LOP_ID_HANDLE,31,77),(R.LOP_ID_STATUS,31,5),(R.LOP_OBJ_OPCODE,31,0x603)], by and_intros <;> first | decide +kernel | (constructor <;> decide +kernel)⟩

/-- What Obligations.PowerStateStatusByteAndTick assumes holds somewhere, clause by clause. -/
theorem wit_PowerStateStatusByteAndTick :
    (∃ (s : State),
    s.attach ≠ 1 ∧ s.domDown 1 = false) ∧
    (∃ (s : State),
    s.ifcUp .qspi = true) ∧
    (∃ (s : State),
    s.get R.HIF_TICK_DIV ≠ 0 ∧ s.domDown 1 = false ∧ s.get R.HIF_TICK_DIV ≤ s.get H.TICK_CNT) :=
  ⟨⟨set up [(R.HIF_STATUS_HSEL,0,2),(R.HIF_TICK_DIV,0,4),(H.TICK_CNT,0,4)], by and_intros <;> decide +kernel⟩,
   ⟨set up [(R.HIF_STATUS_HSEL,0,2),(R.HIF_TICK_DIV,0,4),(H.TICK_CNT,0,4)], by decide +kernel⟩,
   ⟨set up [(R.HIF_STATUS_HSEL,0,2),(R.HIF_TICK_DIV,0,4),(H.TICK_CNT,0,4)], by and_intros <;> decide +kernel⟩⟩

/-- What Obligations.MailboxRequestsReadAndWrite assumes (part 1) holds somewhere, clause by clause. -/
theorem wit_MailboxRequestsReadAndWrite_1 :
    (∃ (mb : Nat) (s : State),
    Ready s mb 0x0001 0) ∧
    (∃ (mb : Nat) (s : State),
    Ready s mb 0x0002 0) ∧
    (∃ (mb : Nat) (s : State),
    Ready s mb 0x0006 0) ∧
    (∃ (mb : Nat) (s : State),
    Ready s mb 0x0007 8 ∧ s.par mb 0 4 + clampN 4 4096 (s.par mb 4 4 / 4 * 4) ≤ 0x4000000) :=
  ⟨⟨31, req up 31 1 [1,2,3,4,5], by first | decide +kernel | (constructor <;> decide +kernel)⟩,
   ⟨0, req up 0 2 [], by first | decide +kernel | (constructor <;> decide +kernel)⟩,
   ⟨3, { req up 3 6 [] with tags := [⟨5,9,2,0,4,0,1,77,[1,2,3,4]⟩, ⟨3,9,2,0,4,0,1,77,[1,2,3,4]⟩] }, by first | decide +kernel | (constructor <;> decide +kernel)⟩,
   ⟨3, reqW up 3 7 [0x3FFFFF0, 16], by and_intros <;> first | decide +kernel | (constructor <;> decide +kernel)⟩⟩

/-- What Obligations.MailboxRequestsReadAndWrite assumes (part 2) holds somewhere, clause by clause. -/
theorem wit_MailboxRequestsReadAndWrite_2 :
    (∃ (mb : Nat) (s : State),
    let o := s.par mb 0 4
    let n := clampN 4 4088 (s.par mb 4 4 / 4 * 4)
    s.barDown 4 = false ∧ Ready s mb 0x0008 (8 + n) ∧ 0x200000 ≤ o ∧ o + n ≤ 0x204000) :=
  ⟨4, reqW up 4 8 [0x203FF8, 8, 0x11223344, 0x55667788], by and_intros <;> first | decide +kernel | (constructor <;> decide +kernel)⟩

/-- What Obligations.LongOperationControl assumes holds somewhere, clause by clause. -/
theorem wit_LongOperationControl :
    (∃ (mb k : Nat) (s : State),
    k < 32 ∧ s.waits = [] ∧ s.get R.LOP_ID_HANDLE k = s.par mb 0 4 ∧ s.par mb 0 4 ≠ 0 ∧
    (∀ k' < 32, s.get R.LOP_ID_HANDLE k' = s.par mb 0 4 → k' = k) ∧ s.par mb 0 4 < 65536 ∧
    s.get R.LOP_OBJ_OPCODE k = 0x0603 ∧ Ready s mb 0x0003 4 ∧ s.get R.LOP_ID_STATUS k = 1) ∧
    (∃ (mb k : Nat) (s : State),
    k < 32 ∧ s.waits = [] ∧ s.get R.LOP_ID_HANDLE k = s.par mb 0 4 ∧ s.par mb 0 4 ≠ 0 ∧
    (∀ k' < 32, s.get R.LOP_ID_HANDLE k' = s.par mb 0 4 → k' = k) ∧ s.par mb 0 4 < 65536 ∧
    s.get R.LOP_OBJ_OPCODE k = 0x0603 ∧ Ready s mb 0x0004 4 ∧ s.get R.LOP_ID_STATUS k = 4) ∧
    (∃ (mb k : Nat) (s : State),
    k < 32 ∧ s.waits = [] ∧ s.get R.LOP_ID_HANDLE k = s.par mb 0 4 ∧ s.par mb 0 4 ≠ 0 ∧
    (∀ k' < 32, s.get R.LOP_ID_HANDLE k' = s.par mb 0 4 → k' = k) ∧ s.par mb 0 4 < 65536 ∧
    s.get R.LOP_OBJ_OPCODE k = 0x0603 ∧ Ready s mb 0x0005 4 ∧
    (s.get R.LOP_ID_STATUS k = 1 ∨ s.get R.LOP_ID_STATUS k = 4)) :=
  ⟨⟨2, 7, set (reqW up 2 3 [77]) [(R.LOP_ID_HANDLE,7,77),(R.LOP_ID_STATUS,7,1),(R.LOP_OBJ_OPCODE,7,0x603)], by and_intros <;> first | decide +kernel | (constructor <;> decide +kernel)⟩,
   ⟨2, 7, set (reqW up 2 4 [77]) [(R.LOP_ID_HANDLE,7,77),(R.LOP_ID_STATUS,7,4),(R.LOP_OBJ_OPCODE,7,0x603)], by and_intros <;> first | decide +kernel | (constructor <;> decide +kernel)⟩,
   ⟨2, 7, set (reqW up 2 5 [77]) [(R.LOP_ID_HANDLE,7,77),(R.LOP_ID_STATUS,7,4),(R.LOP_OBJ_OPCODE,7,0x603)], by and_intros <;> first | decide +kernel | (constructor <;> decide +kernel)⟩⟩

/-- What Obligations.AluFunctionsGiveResultAndFlags assumes (part 1) holds somewhere, clause by clause. -/
theorem wit_AluFunctionsGiveResultAndFlags_1 :
    (∃ (e : Nat) (s : State),
    EngFree s e) := by
  refine ⟨15, (((eng 15).put H.ENG_D 0x7FFFFFFF 15 1).put H.ENG_D 0xFFFFFFFF 15 2), ?_⟩
  first | decide +kernel | exact engFree_of (by decide +kernel)

/-- What Obligations.AluFunctionsGiveResultAndFlags assumes (part 2) holds somewhere, clause by clause. -/
theorem wit_AluFunctionsGiveResultAndFlags_2 :
    (∃ (e da : Nat) (s : State),
    EngFree s e ∧ s.dreg e da < 2 ^ 32 ∧
    let x := s.dreg e da
    x < 2 ^ 31) ∧
    (∃ (e da : Nat) (s : State),
    EngFree s e ∧ s.dreg e da < 2 ^ 32 ∧
    let x := s.dreg e da
    2 ^ 31 ≤ x) :=
  ⟨⟨3, 7, ((eng 3).put H.ENG_D 0x7FFFFFFF 3 7), by and_intros <;> first | decide +kernel | exact engFree_of (by decide +kernel)⟩,
   ⟨3, 7, ((eng 3).put H.ENG_D 0x80000000 3 7), by and_intros <;> first | decide +kernel | exact engFree_of (by decide +kernel)⟩⟩

/-- What Obligations.EngineLoadsReachRegisters assumes (part 1) holds somewhere, clause by clause. -/
theorem wit_EngineLoadsReachRegisters_1 :
    (∃ (e : Nat) (m : MemRef) (s : State),
    EngFree s e ∧ s.arrErrs = [] ∧
    let a := s.memAddr e m
    a % 4 = 0) ∧
    (∃ (e : Nat) (m : MemRef) (s : State),
    EngFree s e ∧ s.arrErrs = [] ∧
    let a := s.memAddr e m
    a % 8 = 0) ∧
    (∃ (e : Nat) (m : MemRef) (s : State),
    EngFree s e ∧ s.arrErrs = [] ∧ s.dreg e m.p % 4 = 0) :=
  ⟨⟨2, ⟨true, 4, 2, 8⟩, (((eng 2).put H.ENG_P 0xFFF8 2 4).store (engMem 2 1 + 0xFFF8) 4 0x11223344), by and_intros <;> first | decide +kernel | exact engFree_of (by decide +kernel)⟩,
   ⟨2, ⟨true, 4, 2, 8⟩, (((eng 2).put H.ENG_P 0xFFF8 2 4).store (engMem 2 1 + 0xFFF8) 4 0x11223344), by and_intros <;> first | decide +kernel | exact engFree_of (by decide +kernel)⟩,
   ⟨2, ⟨true, 4, 2, 8⟩, (((eng 2).put H.ENG_P 0xFFF8 2 4).store (engMem 2 1 + 0xFFF8) 4 0x11223344), by and_intros <;> first | decide +kernel | exact engFree_of (by decide +kernel)⟩⟩

/-- What Obligations.EngineLoadsReachRegisters assumes (part 2) holds somewhere, clause by clause. -/
theorem wit_EngineLoadsReachRegisters_2 :
    (∃ (e : Nat) (s : State),
    e < 16 ∧ bit (s.esr e) 11 = true) ∧
    (∃ (e k v : Nat) (s : State),
    EngTurn s e ∧ k < 16 ∧ s.late = [{ eng := e, fld := H.ENG_D, idx := k, val := v }]) :=
  ⟨⟨2, { set (eng 2) [(H.ENG_ESR,2,0x800),(H.ENG_FARD,2,5),(H.ENG_FARA,2,0x100000)] with late := [] }, by and_intros <;> decide +kernel⟩,
   ⟨2, 15, 7, { eng 2 with late := [⟨2, H.ENG_D, 15, 7⟩] }, by and_intros <;> first | decide +kernel | (constructor <;> decide +kernel)⟩⟩

/-- What Obligations.EngineStoresStayInPlace assumes (part 1) holds somewhere, clause by clause. -/
theorem wit_EngineStoresStayInPlace_1 :
    (∃ (e : Nat) (m : MemRef) (s : State),
    EngFree s e ∧ s.arrErrs = [] ∧ s.memAddr e m < 2 ^ 16 ∧
    let a := s.memAddr e m
    a % 4 = 0 ∧ s.slotAt e (memOf m) a = none) ∧
    (∃ (e : Nat) (m : MemRef) (s : State),
    EngFree s e ∧ s.arrErrs = [] ∧ s.memAddr e m < 2 ^ 16 ∧
    let a := s.memAddr e m
    a % 8 = 0 ∧ s.slotAt e (memOf m) a = none ∧ s.slotAt e (memOf m) (a + 4) = none) ∧
    (∃ (e : Nat) (m : MemRef) (s : State) (r : Nat × Nat),
    EngFree s e ∧ s.arrErrs = [] ∧ s.memAddr e m < 2 ^ 16 ∧
    let a := s.memAddr e m
    a % 4 = 0 ∧ s.slotAt e (memOf m) a = some r) :=
  ⟨⟨2, ⟨true, 4, 2, 8⟩, (((eng 2).put H.ENG_P 0xFFF8 2 4).put H.ENG_A 0x7FFFFFFFFFFFFFFFFFFF 2 1), by and_intros <;> first | decide +kernel | exact engFree_of (by decide +kernel)⟩,
   ⟨2, ⟨true, 4, 2, 8⟩, (((eng 2).put H.ENG_P 0xFFF8 2 4).put H.ENG_A 0x7FFFFFFFFFFFFFFFFFFF 2 1), by and_intros <;> first | decide +kernel | exact engFree_of (by decide +kernel)⟩,
   ⟨2, ⟨false, 4, 0, 4⟩, (((eng 2).put H.ENG_P 0x4000 2 4).put H.ENG_SLOT 5 2 0), (5, 0), by and_intros <;> first | decide +kernel | exact engFree_of (by decide +kernel)⟩⟩

/-- What Obligations.EngineStoresStayInPlace assumes (part 2) holds somewhere, clause by clause. -/
theorem wit_EngineStoresStayInPlace_2 :
    (∃ (e p : Nat) (x : Inst) (s : State),
    EngFree s e ∧ s.arrErrs = [] ∧ s.runInst e = some x ∧
    let a := s.dreg e p % 2 ^ 22
    let inside := inWindow (s.get R.SCH_DESC_FSW0 x.desc) a || inWindow (s.get R.SCH_DESC_FSW1 x.desc) a
    inside = true ∧ a % 4 = 0 ∧ 0x100000 ≤ a) ∧
    (∃ (e p : Nat) (x : Inst) (s : State),
    EngFree s e ∧ s.arrErrs = [] ∧ s.runInst e = some x ∧
    let a := s.dreg e p % 2 ^ 22
    let inside := inWindow (s.get R.SCH_DESC_FSW0 x.desc) a || inWindow (s.get R.SCH_DESC_FSW1 x.desc) a
    inside = true ∧ a % 4 = 0 ∧ a < 0x100000) ∧
    (∃ (e p : Nat) (x : Inst) (s : State),
    EngFree s e ∧ s.arrErrs = [] ∧ s.runInst e = some x ∧
    let a := s.dreg e p % 2 ^ 22
    let inside := inWindow (s.get R.SCH_DESC_FSW0 x.desc) a || inWindow (s.get R.SCH_DESC_FSW1 x.desc) a
    inside = false ∧ (∀ c < 32, s.get H.SW_ON c = 0)) :=
  ⟨⟨2, 3, inst 2, ((((eng 2).put R.SCH_DESC_FSW0 0x104000 3).put H.ENG_D 0x1003FC 2 3).put H.ENG_D 77 2 1), by and_intros <;> first | decide +kernel | exact engFree_of (by decide +kernel)⟩,
   ⟨2, 3, inst 2, ((((eng 2).put R.SCH_DESC_FSW1 0x100000 3).put H.ENG_D 0 2 3).put H.ENG_D 77 2 1), by and_intros <;> first | decide +kernel | exact engFree_of (by decide +kernel)⟩,
   ⟨2, 3, inst 2, ((eng 2).put H.ENG_D 0x100004 2 3), by and_intros <;> first | decide +kernel | exact engFree_of (by decide +kernel)⟩⟩

/-- What Obligations.MultiplyAccumulateAndMoves assumes (part 1) holds somewhere, clause by clause. -/
theorem wit_MultiplyAccumulateAndMoves_1 :
    (∃ (e ac op : Nat) (u2 : Option MacUnit) (x : Option XMove) (y : Option YMove) (s : State),
    EngFree s e ∧ s.arrErrs = [] ∧ s.moveExc e x y = 0 ∧ (∀ u, u2 = some u → u.ac % 4 ≠ ac % 4) ∧ op = 0) ∧
    (∃ (e ac op : Nat) (u2 : Option MacUnit) (x : Option XMove) (y : Option YMove) (s : State),
    EngFree s e ∧ s.arrErrs = [] ∧ s.moveExc e x y = 0 ∧ (∀ u, u2 = some u → u.ac % 4 ≠ ac % 4) ∧ op = 1) ∧
    (∃ (e ac op : Nat) (u2 : Option MacUnit) (x : Option XMove) (y : Option YMove) (s : State),
    EngFree s e ∧ s.arrErrs = [] ∧ s.moveExc e x y = 0 ∧ (∀ u, u2 = some u → u.ac % 4 ≠ ac % 4) ∧ op = 2) :=
  ⟨⟨2, 1, 0, some ⟨2, 2, 5, 6⟩, some ⟨3, 1, true⟩, none, (((eng 2).put H.ENG_D 0x80000000 2 4).put H.ENG_D 0x80000000 2 6), by and_intros <;> first | decide +kernel | exact engFree_of (by decide +kernel)⟩,
   ⟨2, 1, 1, none, some ⟨3, 1, false⟩, some ⟨true, 0, 1, 2⟩, ((((eng 2).put H.ENG_D 0x80000000 2 4).put H.ENG_D 0x80000000 2 6).put H.ENG_A 0x7FFFFFFFFFFFFFFFFFFF 2 1), by and_intros <;> first | decide +kernel | exact engFree_of (by decide +kernel)⟩,
   ⟨2, 1, 2, none, none, some ⟨false, 7, 3, 1⟩, ((((eng 2).put H.ENG_D 0x80000000 2 4).put H.ENG_D 0x80000000 2 6).put H.ENG_A 0x80000000000000000000 2 1), by and_intros <;> first | decide +kernel | exact engFree_of (by decide +kernel)⟩⟩

/-- What Obligations.MultiplyAccumulateAndMoves assumes (part 2) holds somewhere, clause by clause. -/
theorem wit_MultiplyAccumulateAndMoves_2 :
    (∃ (e : Nat) (m : XMove) (s : State),
    EngFree s e ∧ s.arrErrs = [] ∧ s.xAddr e m % 4 = 0) ∧
    (∃ (e px py : Nat) (s : State),
    EngFree s e ∧ s.arrErrs = [] ∧
    let xa := s.ptr e (px % 4)
    let ya := s.ptr e (4 + py % 4)
    xa % 4 = 0 ∧ ya % 4 = 0 ∧ s.tapNext e py % 4 = 0 ∧ s.slotAt e 1 (s.tapNext e py) = none) :=
  ⟨⟨2, ⟨3, 1, true⟩, ((eng 2).put H.ENG_A 5 2 1), by and_intros <;> first | decide +kernel | exact engFree_of (by decide +kernel)⟩,
   ⟨2, 2, 3, ((eng 2).put H.ENG_A 5 2 1), by and_intros <;> first | decide +kernel | exact engFree_of (by decide +kernel)⟩⟩

/-- What Obligations.AccumulatorFunctionsAndOutputs assumes (part 1) holds somewhere, clause by clause. -/
theorem wit_AccumulatorFunctionsAndOutputs_1 :
    (∃ (e : Nat) (s : State),
    EngFree s e) := by
  refine ⟨2, (((eng 2).put H.ENG_A 0x80000000000000000000 2 0).put H.ENG_A 0x80000000000000000000 2 3), ?_⟩
  first | decide +kernel | exact engFree_of (by decide +kernel)

/-- What Obligations.AccumulatorFunctionsAndOutputs assumes (part 2) holds somewhere, clause by clause. -/
theorem wit_AccumulatorFunctionsAndOutputs_2 :
    (∃ (e : Nat) (s : State),
    EngFree s e) := by
  refine ⟨2, (((eng 2).put H.ENG_A 0x7FFFFFFFFFFFFFFFFFFF 2 0).put H.ENG_D 7 2 3), ?_⟩
  first | decide +kernel | exact engFree_of (by decide +kernel)

/-- What Obligations.NopPubProtAndSpecialMoves assumes (part 1) holds somewhere, clause by clause. -/
theorem wit_NopPubProtAndSpecialMoves_1 :
    (∃ (e n : Nat) (s : State),
    EngFree s e ∧ 0 < n ∧ n < 16) ∧
    (∃ (e : Nat) (s : State),
    EngFree s e ∧ 0 < esrLvl (s.esr e)) :=
  ⟨⟨2, 15, ((eng 2).put H.ENG_D 7 2 3), by and_intros <;> first | decide +kernel | exact engFree_of (by decide +kernel)⟩,
   ⟨2, set (eng 2) [(H.ENG_ESR,2,0x200),(H.ENG_LVL1,2,1),(H.ENG_PC,2,0x10)], by and_intros <;> first | decide +kernel | exact engFree_of (by decide +kernel)⟩⟩

/-- What Obligations.NopPubProtAndSpecialMoves assumes (part 2) holds somewhere, clause by clause. -/
theorem wit_NopPubProtAndSpecialMoves_2 :
    (∃ (e code : Nat) (s : State),
    EngFree s e ∧ s.arrErrs = [] ∧ code < 0x18) ∧
    (∃ (e code : Nat) (s : State),
    EngFree s e ∧ s.arrErrs = [] ∧
    let sp := s.get H.ENG_SVP e
    let down := trunc 16 ((sp : Int) - 4)
    code < 0x30 ∧ sp % 4 = 0 ∧ s.slotAt e 0 down = none) ∧
    (∃ (e code : Nat) (s : State),
    EngFree s e ∧ s.arrErrs = [] ∧
    let sp := s.get H.ENG_SVP e
    0x30 ≤ code ∧ code < 0x40 ∧ sp % 4 = 0) :=
  ⟨⟨2, 0x17, ((((eng 2).put H.ENG_D 0xFFFFFFFF 2 3).put H.ENG_SVP 0x3000 2)), by and_intros <;> first | decide +kernel | exact engFree_of (by decide +kernel)⟩,
   ⟨2, 0x17, ((((eng 2).put H.ENG_D 0xFFFFFFFF 2 3).put H.ENG_SVP 0x3000 2)), by and_intros <;> first | decide +kernel | exact engFree_of (by decide +kernel)⟩,
   ⟨2, 0x3F, ((eng 2).put H.ENG_SVP 0xFFFC 2), by and_intros <;> first | decide +kernel | exact engFree_of (by decide +kernel)⟩⟩

/-- What Obligations.BranchesCallsAndLoops assumes (part 1) holds somewhere, clause by clause. -/
theorem wit_BranchesCallsAndLoops_1 :
    (∃ (e cond : Nat) (s : State),
    EngFree s e ∧ cond ≤ 10 ∧ s.inLoopTail e 4 = false ∧ condHolds cond (s.esr e) = true) ∧
    (∃ (e cond : Nat) (s : State),
    EngFree s e ∧ cond ≤ 10 ∧ s.inLoopTail e 8 = false ∧ condHolds cond (s.esr e) = true) ∧
    (∃ (e cond : Nat) (s : State),
    EngFree s e ∧ cond ≤ 10 ∧ s.inLoopTail e 4 = false ∧ condHolds cond (s.esr e) = false) ∧
    (∃ (e cond : Nat) (s : State),
    EngFree s e ∧ cond ≤ 10 ∧ s.inLoopTail e 8 = false ∧ condHolds cond (s.esr e) = false) :=
  ⟨⟨2, 0, ((eng 2).put H.ENG_PC 0 2), by and_intros <;> first | decide +kernel | exact engFree_of (by decide +kernel)⟩,
   ⟨2, 0, ((eng 2).put H.ENG_PC 0 2), by and_intros <;> first | decide +kernel | exact engFree_of (by decide +kernel)⟩,
   ⟨2, 10, (((eng 2).put H.ENG_PC 0xFFFC 2).put H.ENG_D 0x10004 2 4), by and_intros <;> first | decide +kernel | exact engFree_of (by decide +kernel)⟩,
   ⟨2, 10, (((eng 2).put H.ENG_PC 0xFFFC 2).put H.ENG_D 0x10004 2 4), by and_intros <;> first | decide +kernel | exact engFree_of (by decide +kernel)⟩⟩

/-- What Obligations.BranchesCallsAndLoops assumes (part 2) holds somewhere, clause by clause. -/
theorem wit_BranchesCallsAndLoops_2 :
    (∃ (e : Nat) (s : State),
    s.engCan e = true ∧ bit (s.esr e) 11 = false ∧ bit (s.get H.ENG_INJR e) 17 = false ∧ (∀ x ∈ s.late, x.eng ≠ e) ∧
    s.inDelay e = true) := by
  refine ⟨2, ((eng 2).put H.ENG_DLY 0x1FFFC 2), ?_⟩
  and_intros <;> decide +kernel

/-- What Obligations.BranchesCallsAndLoops assumes (part 3) holds somewhere, clause by clause. -/
theorem wit_BranchesCallsAndLoops_3 :
    (∃ (e fin : Nat) (c : AluB) (s : State),
    s.engCan e = true ∧ bit (s.esr e) 11 = false ∧ bit (s.get H.ENG_INJR e) 17 = false ∧ (∀ x ∈ s.late, x.eng ≠ e) ∧
    (∀ x ∈ s.olds, x.eng ≠ e) ∧ s.inDelay e = false ∧ esrProt (s.esr e) = 0 ∧
    let n := esrLvl (s.esr e)
    n = 0 ∧ 0 < fin ∧ s.loopCount e c ≠ 0) ∧
    (∃ (e fin : Nat) (c : AluB) (s : State),
    s.engCan e = true ∧ bit (s.esr e) 11 = false ∧ bit (s.get H.ENG_INJR e) 17 = false ∧ (∀ x ∈ s.late, x.eng ≠ e) ∧
    (∀ x ∈ s.olds, x.eng ≠ e) ∧ s.inDelay e = false ∧ esrProt (s.esr e) = 0 ∧
    let n := esrLvl (s.esr e)
    n = 0 ∧ 0 < fin ∧ s.loopCount e c = 0) ∧
    (∃ (e : Nat) (s : State),
    s.engCan e = true ∧ bit (s.esr e) 11 = false ∧ bit (s.get H.ENG_INJR e) 17 = false ∧ (∀ x ∈ s.late, x.eng ≠ e) ∧
    (∀ x ∈ s.olds, x.eng ≠ e) ∧ s.inDelay e = false ∧ esrProt (s.esr e) = 0 ∧
    let n := esrLvl (s.esr e)
    let pc := s.get H.ENG_PC e
    0 < n ∧ bit (s.esr e) 7 = false ∧ pc = s.get H.ENG_LE e (n - 1) ∧ 1 < s.get H.ENG_LC e (n - 1)) ∧
    (∃ (e : Nat) (s : State),
    s.engCan e = true ∧ bit (s.esr e) 11 = false ∧ bit (s.get H.ENG_INJR e) 17 = false ∧ (∀ x ∈ s.late, x.eng ≠ e) ∧
    (∀ x ∈ s.olds, x.eng ≠ e) ∧ s.inDelay e = false ∧ esrProt (s.esr e) = 0 ∧
    let n := esrLvl (s.esr e)
    let pc := s.get H.ENG_PC e
    0 < n ∧ bit (s.esr e) 7 = false ∧ pc = s.get H.ENG_LE e (n - 1) ∧ s.get H.ENG_LC e (n - 1) = 1) :=
  ⟨⟨2, 3, .imm 2047, eng 2, by and_intros <;> decide +kernel⟩,
   ⟨2, 1, .reg 0, eng 2, by and_intros <;> decide +kernel⟩,
   ⟨2, set (eng 2) [(H.ENG_ESR,2,0x100),(H.ENG_PC,2,0x40),(H.ENG_LE,2,0x40),(H.ENG_LS,2,0x20),(H.ENG_LC,2,2)], by and_intros <;> decide +kernel⟩,
   ⟨2, set (eng 2) [(H.ENG_ESR,2,0x100),(H.ENG_PC,2,0x40),(H.ENG_LE,2,0x40),(H.ENG_LS,2,0x20),(H.ENG_LC,2,1)], by and_intros <;> decide +kernel⟩⟩

/-- What Obligations.EngineExceptionsAbortClause assumes holds somewhere, clause by clause. -/
theorem wit_EngineExceptionsAbortClause :
    (∃ (e : Nat) (m : MemRef) (s : State),
    s.engCan e = true ∧ bit (s.esr e) 11 = false ∧ s.memAddr e m % 4 ≠ 0) ∧
    (∃ (e : Nat) (m : MemRef) (s : State),
    s.engCan e = true ∧ bit (s.esr e) 11 = false ∧ s.memAddr e m % 8 ≠ 0) ∧
    (∃ (e : Nat) (s : State),
    s.engCan e = true ∧ bit (s.esr e) 11 = false ∧ s.inDelay e = true) ∧
    (∃ (e : Nat) (s : State),
    s.engCan e = true ∧ bit (s.esr e) 11 = false ∧ bit (s.esr e) 10 = false) ∧
    (∃ (e : Nat) (s : State),
    s.engCan e = true ∧ bit (s.esr e) 11 = false ∧ 65536 ≤ s.get H.ENG_ECYC e) :=
  ⟨⟨2, ⟨true,4,0,0⟩, ((eng 2).put H.ENG_P 2 2 4), by and_intros <;> decide +kernel⟩,
   ⟨2, ⟨true,4,0,0⟩, ((eng 2).put H.ENG_P 2 2 4), by and_intros <;> decide +kernel⟩,
   ⟨2, (((eng 2).put H.ENG_P 4 2 4).put H.ENG_DLY 0x10000 2), by and_intros <;> decide +kernel⟩,
   ⟨2, ((eng 2).put H.ENG_P 2 2 4), by and_intros <;> decide +kernel⟩,
   ⟨2, set (eng 2) [(H.ENG_ECYC,2,65536)], by and_intros <;> decide +kernel⟩⟩

/-- What Obligations.ClausesStartPreemptAndEnd assumes (part 1) holds somewhere, clause by clause. -/
theorem wit_ClausesStartPreemptAndEnd_1 :
    (∃ (x : Inst) (e : Nat) (s : State),
    x.desc < 1024 ∧ s.nextInst = some x ∧ s.engineFor x = some e ∧ s.get H.ENG_INJW e = 0 ∧ s.arrErrs = []) := by
  refine ⟨{ inst 0 with st := 0 }, 0, w4idle, ?_⟩
  and_intros <;> decide +kernel

/-- What Obligations.ClausesStartPreemptAndEnd assumes (part 2) holds somewhere, clause by clause. -/
theorem wit_ClausesStartPreemptAndEnd_2 :
    (∃ (x y : Inst) (e : Nat) (s : State),
    x.desc < 1024 ∧ s.arrErrs = [] ∧ (∀ z ∈ s.late, z.eng ≠ e) ∧ s.nextInst = some x ∧ x.prio = 7 ∧
    s.engineFor x = none ∧ s.engCan e = true ∧ s.openBoundary e = true ∧ s.preemptVictim x = some y ∧ y.eng = e) ∧
    (∃ (x : Inst) (e : Nat) (s : State),
    x.desc < 1024 ∧ s.arrErrs = [] ∧ (∀ z ∈ s.late, z.eng ≠ e) ∧ s.engCan e = true ∧ bit (s.esr e) 10 = true ∧
    s.acceptedInst e = some x ∧ s.get H.ENG_INJW e = 0) ∧
    (∃ (x : Inst) (e : Nat) (s : State),
    x.desc < 1024 ∧ s.arrErrs = [] ∧ (∀ z ∈ s.late, z.eng ≠ e) ∧ EngFree s e ∧ bit (s.esr e) 10 = true) :=
  ⟨⟨{ inst 0 with id := 2, desc := 4, st := 0, prio := 7, rtype := 2 }, inst 2, 2, w4pre, by and_intros <;> decide +kernel⟩,
   ⟨{ inst 2 with id := 2, desc := 4, entry := 0x200, prio := 7, st := 3 }, 2, w4acc, by and_intros <;> decide +kernel⟩,
   ⟨{ inst 2 with id := 2, desc := 4, entry := 0x200, prio := 7, st := 3 }, 2, w4acc, by and_intros <;> first | decide +kernel | exact engFree_of (by decide +kernel)⟩⟩

/-- What Obligations.ClausesStartPreemptAndEnd assumes (part 3) holds somewhere, clause by clause. -/
theorem wit_ClausesStartPreemptAndEnd_3 :
    (∃ (x : Inst) (e : Nat) (s : State),
    x.desc < 1024 ∧ EngFree s e ∧ s.runInst e = some x ∧ s.slotW = [] ∧ x.rtype = 2 ∧
    bit (s.esr e) 4 = false ∧ s.get R.SCH_DESC_NEXT_EN x.desc = 0) := by
  refine ⟨w5x 0 0 2, 2, w5cl 0 0 2, ?_⟩
  and_intros <;> first | decide +kernel | exact engFree_of (by decide +kernel)

/-- What Obligations.QuietBoundaryBeginsCycle assumes holds somewhere, clause by clause. -/
theorem wit_QuietBoundaryBeginsCycle :
    (∃ (s : State),
    QuietPart s [] []) ∧
    (∃ (r : Nat) (s : State),
    QuietPart s [] [r] ∧ r < 2 ∧ s.get R.NRT_RSTATE_STATE r = 4 ∧ s.get R.NRT_RSTATE_HEAD r = 1) ∧
    (∃ (n a : Nat) (s : State),
    QuietPart s [a] [] ∧ a < 256 ∧ s.axSt a = 2 ∧ s.axDue a n = true ∧ s.get R.PWR_STATE_STATE ≠ 2 ∧
    s.get R.HM_STAT_PHASE a = 0 ∧ s.get H.FRST_ON a = 0 ∧ s.get H.AX_STOP a = 0) :=
  ⟨⟨set up [(H.STAT_LEN,0,1000)], by constructor <;> decide +kernel⟩,
   ⟨1, set up [(H.STAT_LEN,0,1000),(R.NRT_RSTATE_STATE,1,4),(R.NRT_RSTATE_HEAD,1,1),(R.HIF_CID,0,0x11223344),(R.CNJ_EPOCH,0,77),(R.NRT_RCFG2_NSLOT,1,2),(R.NRT_RCFG2_NCOMMA,1,3),(R.NRT_RCFG3_NHC,1,1)], by and_intros <;> first | decide +kernel | (constructor <;> decide +kernel)⟩,
   ⟨6, 255, set up [(H.STAT_LEN,0,1000),(R.AXS_STATUS_STATE,255,2),(H.AX_DIV,255,1),(R.AXS_P_ACT,255,12345),(R.AXS_P_DEM,255,54321),(R.AXS_FE,255,7),(R.MIR_MSEQ,255,0xFFFFFFFF),(H.AX_FBB,255,99),(R.AXS_V_ACT,255,5),(R.AXS_TRQ_CMD,255,6),(R.AXS_LIM_FLAGS,255,1)], by and_intros <;> first | decide +kernel | (constructor <;> decide +kernel)⟩⟩

/-- What Obligations.BoundaryEndsPeriodAndSwapsMode assumes (part 1) holds somewhere, clause by clause. -/
theorem wit_BoundaryEndsPeriodAndSwapsMode_1 :
    (∃ (s : State),
    s.domDown 5 = false) := by
  refine ⟨set up [(R.AXS_STATUS_STATE,4,3),(H.STAT_ON,4,1),(R.LIV_SAMPLES,4,100),(R.AXS_STATUS_STATE,255,3),(R.LIV_OVERRUN,255,9)], ?_⟩
  decide +kernel

/-- What Obligations.BoundaryEndsPeriodAndSwapsMode assumes (part 2) holds somewhere, clause by clause. -/
theorem wit_BoundaryEndsPeriodAndSwapsMode_2 :
    (∃ (s : State),
    s.swapDue (s.get H.BND_T) (s.get H.BND_N) = true ∧ s.get H.MSW_MB = 0) :=
  ⟨set up [(H.MSW_B,0,9),(H.BND_T,0,5000000),(H.MSW_T,0,5000000),(H.BND_N,0,40),(H.MSW_CYC,0,40)], by and_intros <;> decide +kernel⟩

/-- What Obligations.BoundaryEndsPeriodAndSwapsMode assumes (part 3) holds somewhere, clause by clause. -/
theorem wit_BoundaryEndsPeriodAndSwapsMode_3 :
    (∃ (s : State),
    s.swapDue (s.get H.BND_T) (s.get H.BND_N) = false) :=
  ⟨set up [(H.MSW_B,0,9),(H.BND_T,0,5000000),(H.MSW_T,0,5000001),(H.BND_N,0,40)], by decide +kernel⟩

/-- What Obligations.LoadsSelfTestsAndDeadlines assumes (part 1) holds somewhere, clause by clause. -/
theorem wit_LoadsSelfTestsAndDeadlines_1 :
    (∃ (e : Nat) (s : State),
    e < 16 ∧ s.engSt e = 2 ∧ s.get H.ENG_INJT e = 0) := by
  refine ⟨15, set up [(H.ENG_LOAD,15,1),(R.SCH_ENG_STATE,0,0x80000000)], ?_⟩
  and_intros <;> decide +kernel

/-- What Obligations.LoadsSelfTestsAndDeadlines assumes (part 2) holds somewhere, clause by clause. -/
theorem wit_LoadsSelfTestsAndDeadlines_2 :
    (∃ (d : Nat) (x : Inst) (s : State),
    s.insts.find? (fun y => y.desc == d && !y.late) = some x ∧ s.timeUp x.dl = true ∧ (x.st = 0 ∨ x.st = 3)) ∧
    (∃ (d : Nat) (x : Inst) (s : State),
    s.insts.find? (fun y => y.desc == d && !y.late) = some x ∧ s.timeUp x.dl = true ∧ (x.st = 1 ∨ x.st = 2)) ∧
    (∃ (a : Nat) (s : State),
    a < 256 ∧ s.get R.AXS_STATUS_OVR_CONSEC a = 3 ∧
    (¬(s.axSt a = 6 ∧ s.get H.AX_TRQ a ≠ 0 ∧ s.get R.AXS_STATUS_REACTION a < 2))) ∧
    (∃ (a : Nat) (s : State),
    a < 256 ∧ s.get R.AXS_STATUS_OVR_CONSEC a = 3 ∧ s.axSt a = 6 ∧ s.get H.AX_TRQ a ≠ 0 ∧
    s.get R.AXS_STATUS_REACTION a < 2) ∧
    (∃ (e : Nat) (x : Inst) (s : State),
    s.runInst e = some x ∧ s.get R.SCH_STATUS_TRC_FROZEN = 0 ∧ s.trcBuf.length < 32 ∧ s.get R.SCH_TRC_CTL_ARM = 0) :=
  ⟨⟨3, {inst 2 with st := 0}, (set (w5d 0) [(R.AXS_STATUS_OVR_CONSEC,255,3),(R.DCK_TIME,0,2^62)]), by and_intros <;> decide +kernel⟩,
   ⟨3, inst 2, (set (w5d 1) [(R.DCK_TIME,0,2^62)]), by and_intros <;> decide +kernel⟩,
   ⟨255, (set (w5d 0) [(R.AXS_STATUS_OVR_CONSEC,255,3)]), by and_intros <;> decide +kernel⟩,
   ⟨255, (set (w5d 0) [(R.AXS_STATUS_OVR_CONSEC,255,3),(R.AXS_STATUS_STATE,255,6),(H.AX_TRQ,255,1),(R.AXS_STATUS_REACTION,255,1)]), by and_intros <;> decide +kernel⟩,
   ⟨2, inst 2, (w5d 1), by and_intros <;> decide +kernel⟩⟩

/-- What Obligations.TraceAndSchedulerRequests assumes (part 1) holds somewhere, clause by clause. -/
theorem wit_TraceAndSchedulerRequests_1 :
    (∃ (r : Nat) (rest : List Nat) (s : State),
    let i := s.get R.SCH_TRC_WPTR_IDX
    s.trcBuf = r :: rest ∧ s.get R.SCH_STATUS_TRC_FROZEN = 0 ∧ s.get H.TRC_PHASE = 0 ∧ r / 2 ^ 60 ≠ 10 ∧ i < 4096 ∧
    s.get R.SCH_TRC_CTL_FREEZE = 0) ∧
    (∃ (s : State),
    s.get H.TRC_PHASE ≠ 0 ∧ s.get H.TRC_POST = 0) ∧
    (∃ (s : State),
    HostWord s 0x40048 ∧ s.get R.SCH_TRC_CTL_ARM ≠ 0 ∧ s.get H.TRC_TRIG = 0 ∧ s.get R.SCH_STATUS_TRC_FROZEN = 0 ∧
    s.trcBuf.length < 32) :=
  ⟨⟨0x5000000000000001, [7], { (set up [(R.SCH_TRC_WPTR_IDX,0,4095)]) with trcBuf := [0x5000000000000001, 7] }, by and_intros <;> decide +kernel⟩,
   ⟨{ (set up [(H.TRC_PHASE,0,1)]) with trcBuf := [7] }, by and_intros <;> decide +kernel⟩,
   ⟨{ (set up [(R.SCH_TRC_CTL_ARM,0,1)]) with trcBuf := [7] }, by and_intros <;> first | decide +kernel | (constructor <;> decide +kernel)⟩⟩

/-- What Obligations.TraceAndSchedulerRequests assumes (part 2) holds somewhere, clause by clause. -/
theorem wit_TraceAndSchedulerRequests_2 :
    (∃ (mb : Nat) (s : State),
    let off := s.par mb 0 4
    let n := clampN 1 1022 (s.par mb 4 4)
    Ready s mb 0x0300 (8 + 4 * n) ∧ off + n ≤ 4096 ∧ (∀ e < 16, s.get H.ENG_OWN e = 0)) ∧
    (∃ (mb : Nat) (s : State),
    let off := s.par mb 0 4
    let ws := (List.range 8).map fun k => s.par mb (4 + 4 * k) 4
    Ready s mb 0x0301 36 ∧ off < 1024 ∧ bits (ws.getD 0 0) 24 4 = 8 ∧ bits ((s.descNext off).getD 0 0) 24 4 = 8 ∧
    bit (ws.getD 0 0) 22 = false ∧ bits (ws.getD 3 0) 16 2 ≠ 3) ∧
    (∃ (mb : Nat) (s : State),
    let ws := (List.range 8).map fun k => s.par mb (4 + 4 * k) 4
    Ready s mb 0x0301 36 ∧ bits (ws.getD 0 0) 24 4 ≠ 8) ∧
    (∃ (mb : Nat) (s : State),
    Ready s mb 0x0302 12) :=
  ⟨⟨3, reqW up 3 0x0300 [4095, 1, 0x12345678], by and_intros <;> first | decide +kernel | (constructor <;> decide +kernel)⟩,
   ⟨3, set (reqW up 3 0x0301 [1023, 0x08000000, 0, 0, 0, 0,0,0,0]) [(R.SCH_DESC_TYPE,1023,8)], by and_intros <;> first | decide +kernel | (constructor <;> decide +kernel)⟩,
   ⟨3, reqW up 3 0x0301 [1023, 0x07000000, 0, 0, 0, 0,0,0,0], by and_intros <;> first | decide +kernel | (constructor <;> decide +kernel)⟩,
   ⟨3, reqW up 3 0x0302 [200, 0xFFFFFFFF, 0xFFFFFFFF], by first | decide +kernel | (constructor <;> decide +kernel)⟩⟩

/-- What Obligations.SamplesCloseTheLoop assumes (part 1) holds somewhere, clause by clause. -/
theorem wit_SamplesCloseTheLoop_1 :
    (∃ (a : Nat) (x : Inst) (s : State),
    a < 256 ∧ PlainSample s a ∧ s.axSt a < 3 ∧ s.isNirte a = false ∧ bit (x.word 3) 4 = false ∧ ClauseRuns s 0 a x) ∧
    (∃ (a : Nat) (x : Inst) (s : State),
    a < 256 ∧ PlainSample s a ∧ s.axSt a < 3 ∧ s.isNirte a = false ∧ bit (x.word 3) 4 = false ∧ ClauseRuns s 4 a x) ∧
    (∃ (a : Nat) (x : Inst) (s : State),
    a < 256 ∧ PlainSample s a ∧ s.axSt a < 3 ∧ s.isNirte a = false ∧ bit (x.word 3) 4 = false ∧ ClauseRuns s 1 a x) ∧
    (∃ (a : Nat) (x : Inst) (s : State),
    a < 256 ∧ PlainSample s a ∧ s.axSt a < 3 ∧ s.isNirte a = false ∧ bit (x.word 3) 4 = false ∧ ClauseRuns s 2 a x ∧
    s.get H.AX_SMODE a = 0) :=
  ⟨⟨0, w5i 0 0, (w5s 0 0), by and_intros <;> first | decide +kernel | (constructor <;> decide +kernel)⟩,
   ⟨255, w5i 4 255, (w5s 4 255), by and_intros <;> first | decide +kernel | (constructor <;> decide +kernel)⟩,
   ⟨255, w5i 1 255, (w5s 1 255), by and_intros <;> first | decide +kernel | (constructor <;> decide +kernel)⟩,
   ⟨255, w5i 2 255, (w5s 2 255), by and_intros <;> first | decide +kernel | (constructor <;> decide +kernel)⟩⟩

/-- What Obligations.SamplesCloseTheLoop assumes (part 2) holds somewhere, clause by clause. -/
theorem wit_SamplesCloseTheLoop_2 :
    (∃ (a : Nat) (x : Inst) (s : State),
    a < 256 ∧ ClosedLoop s a x ∧ ClauseRuns s 0 a x ∧ s.axKind a < 2 ∧ s.groupOf a = 255) ∧
    (∃ (a : Nat) (x : Inst) (s : State),
    a < 256 ∧ ClosedLoop s a x ∧ ClauseRuns s 1 a x ∧ s.axKind a < 2) ∧
    (∃ (a : Nat) (x : Inst) (s : State),
    a < 256 ∧ ClosedLoop s a x ∧ ClauseRuns s 4 a x ∧ 2 ≤ s.axKind a ∧ s.encOf a = none ∧ s.groupOf a = 255) :=
  ⟨⟨7, w5i 0 7, w5c 0 1, by and_intros <;> first | decide +kernel | (constructor <;> first | decide +kernel | (constructor <;> decide +kernel))⟩,
   ⟨7, w5i 1 7, w5c 1 0, by and_intros <;> first | decide +kernel | (constructor <;> first | decide +kernel | (constructor <;> decide +kernel))⟩,
   ⟨7, w5i 4 7, w5c 4 2, by and_intros <;> first | decide +kernel | (constructor <;> first | decide +kernel | (constructor <;> decide +kernel))⟩⟩

/-- What Obligations.SamplesCloseTheLoop assumes (part 3) holds somewhere, clause by clause. -/
theorem wit_SamplesCloseTheLoop_3 :
    (∃ (a : Nat) (x : Inst) (s : State),
    a < 256 ∧ PlainSample s a ∧ ClauseRuns s 2 a x ∧ s.get H.AX_SMODE a = 3 ∧ s.axKind a < 2 ∧
    s.get R.AXS_STAGE_CFG_NVEL a = 0 ∧ s.get R.AXS_STAGE_CFG_NOUT a = 0 ∧ s.get R.HM_STAT_PHASE a = 0 ∧
    s.get H.LRN_ON a = 0 ∧ s.get H.LRN_REC a = 0 ∧ s.get R.AXS_KVFF a = 0 ∧ s.get R.AXS_KAFF a = 0 ∧
    s.get R.AXS_KTFF a = 0 ∧ s.groupOf a ≠ 255) :=
  ⟨7, w5i 2 7, (w5v 0xFFFFFFFF), by and_intros <;> first | decide +kernel | (constructor <;> decide +kernel)⟩

/-- What Obligations.ClausesOfGroupsAndTimers assumes (part 1) holds somewhere, clause by clause. -/
theorem wit_ClausesOfGroupsAndTimers_1 :
    (∃ (g : Nat) (x : Inst) (s : State),
    ClauseRuns s 3 g x ∧ g < 32 ∧ s.get R.GRP_CFG_FREEZE g = 1 ∧ (s.members g).Nodup) ∧
    (∃ (g : Nat) (x : Inst) (s : State) (m0 m1 : Nat),
    ClauseRuns s 3 g x ∧ g < 32 ∧ s.get R.GRP_CFG_FREEZE g = 0 ∧ s.members g = [m0, m1] ∧ m0 ≠ m1 ∧
    (∀ c < 4, s.get R.GRP_CC_CTL_EN g c = 0) ∧ s.get H.AX_SMODE m0 = 3 ∧ s.get H.AX_SMODE m1 = 3) ∧
    (∃ (r : Nat) (x : Inst) (s : State),
    s.supOn r = some x) ∧
    (∃ (tb : Nat) (x : Inst) (s : State),
    ClauseRuns s 6 tb x ∧ x.rtype = 2 ∧ s.get H.LFF_WAIT tb = 0 ∧ s.get H.LFF_CHUNK tb = 0) ∧
    (∃ (tb : Nat) (x : Inst) (s : State),
    ClauseRuns s 6 tb x ∧ x.rtype = 2 ∧ tb < 64 ∧ s.get R.LFF_CFG_FREEZE tb = 0 ∧ 0 < s.get H.LFF_CHUNK tb ∧
    s.get H.LFF_CHUNK tb < 7) ∧
    (∃ (tb : Nat) (x : Inst) (s : State),
    ClauseRuns s 6 tb x ∧ x.rtype = 2 ∧ tb < 64 ∧ s.get R.LFF_CFG_FREEZE tb = 0 ∧ s.get H.LFF_CHUNK tb = 7) ∧
    (∃ (ch : Nat) (x : Inst) (s : State),
    ClauseRuns s 7 ch x ∧ x.rtype = 2 ∧ s.get H.SW_ON ch = 0) ∧
    (∃ (ch : Nat) (x : Inst) (s : State),
    ClauseRuns s 7 ch x ∧ x.rtype = 2 ∧ ch < 32 ∧ s.get H.SW_ON ch = 1 ∧ s.get H.SW_RUN ch = 1 ∧
    s.get H.SW_REC ch < s.get H.SW_LEN ch ∧ s.get H.SW_LEN ch < 2 ^ 32) :=
  ⟨⟨31, w5x 3 31 1, (set (w5cl 3 31 1) [(R.GRP_CFG_FREEZE,31,1),(R.GRP_CFG_N,31,2),(R.GRP_MEM0,31,0xFF00)] |>.put H.GRP_Z 5 31 0 |>.put H.GRP_Z 0xFFFFFFFE 31 1), by and_intros <;> first | decide +kernel | (constructor <;> decide +kernel)⟩,
   ⟨31, w5x 3 31 1, set (w5cl 3 31 1) [(R.GRP_CFG_N,31,2),(R.GRP_MEM0,31,0x0905),(H.AX_SMODE,5,3),(H.AX_SMODE,9,3),(H.AX_YP,5,1000),(H.AX_YP,9,0xFFFFFF00),(R.GRP_M,31,0x40000000)], 5, 9, by and_intros <;> first | decide +kernel | (constructor <;> decide +kernel)⟩,
   ⟨1, w5x 5 31 1, (set (w5cl 5 31 1) [(H.SUP_DESC,1,0x403),(R.AXS_STATUS_STATE,7,3),(H.AX_BIND,7,1)]), by decide +kernel⟩,
   ⟨63, w5x 6 63 2, (w5cl 6 63 2), by and_intros <;> first | decide +kernel | (constructor <;> decide +kernel)⟩,
   ⟨63, w5x 6 63 2, (set (w5cl 6 63 2) [(H.LFF_CHUNK,63,6)]), by and_intros <;> first | decide +kernel | (constructor <;> decide +kernel)⟩,
   ⟨63, w5x 6 63 2, set (w5cl 6 63 2) [(H.LFF_CHUNK,63,7),(R.LFF_BIND_EN,63,1),(R.LFF_STAT_REPS,63,3)], by and_intros <;> first | decide +kernel | (constructor <;> decide +kernel)⟩,
   ⟨31, w5x 7 31 2, (w5cl 7 31 2), by and_intros <;> first | decide +kernel | (constructor <;> decide +kernel)⟩,
   ⟨31, w5x 7 31 2, (set (w5cl 7 31 2) [(H.SW_ON,31,1),(H.SW_RUN,31,1),(H.SW_LEN,31,5),(H.SW_REC,31,4),(H.SW_PAGE,31,9)] |>.put H.SW_V 0x12345678 31 2), by and_intros <;> first | decide +kernel | (constructor <;> decide +kernel)⟩⟩

/-- What Obligations.ClausesOfGroupsAndTimers assumes (part 2) holds somewhere, clause by clause. -/
theorem wit_ClausesOfGroupsAndTimers_2 :
    (∃ (a : Nat) (s : State),
    a < 256 ∧ s.get R.AXS_STATUS_FE_WARN a = 1 ∧ s.feCount a ≤ s.get R.AXS_FE_CTL_FE_CNT a ∧ s.get H.AX_FEHIT a = 0 ∧
    s.get R.AXS_FE_CTL_EN_TIMED a = 1) ∧
    (∃ (ch k : Nat) (s : State),
    ch < 32 ∧ s.get H.SW_ON ch = 1 ∧ s.get H.SW_RUN ch = 1 ∧ s.get H.SW_LEN ch ≤ s.get H.SW_REC ch ∧ s.waits = [] ∧
    s.lopOf 0x0208 ch = some k) ∧
    (∃ (a : Nat) (s : State) (p : Int) (f : Nat),
    a < 256 ∧ s.get R.AXS_TRK_CTL_T0_EN a = 1 ∧ s.get R.AXS_TRK_SRC_T0_NPT a = 2 ∧ s.get H.TRK_T a 0 = 0 ∧
    s.get R.AXS_TRK_CTL_T0_SEC a < 24 ∧ s.get R.AXS_TRK_SRC_T0_AXIS a < 256 ∧
    p = s.geti R.AXS_P_ACT (s.get R.AXS_TRK_SRC_T0_AXIS a) ∧ p ≤ s.geti R.AXS_TRK0_PT_POS a 0 ∧
    f = s.get R.AXS_TRK0_PT_FRQ a 0 ∧ s.get R.AXS_TRK0_FC a < 200 * absI ((f : Int) - s.get R.AXS_TRK0_FC a) ∧
    s.get R.AXS_TRK_CTL_T0_BANK a < 2) :=
  ⟨⟨255, (set up [(R.AXS_STATUS_FE_WARN,255,1),(R.AXS_FE_CTL_FE_CNT,255,0xFFFF),(R.AXS_FE_CTL_EN_TIMED,255,1)]), by and_intros <;> decide +kernel⟩,
   ⟨31, 31, (set up [(H.SW_ON,31,1),(H.SW_RUN,31,1),(R.LOP_ID_HANDLE,31,0x1FF),(R.LOP_OBJ_OPCODE,31,0x208),(R.LOP_OBJ_INDEX,31,31),(R.LOP_ID_STATUS,31,1)]), by and_intros <;> decide +kernel⟩,
   ⟨255, (set up [(R.AXS_TRK_CTL_T0_EN,255,1),(R.AXS_TRK_SRC_T0_NPT,255,2),(R.AXS_TRK_CTL_T0_SEC,255,23),(R.AXS_TRK_SRC_T0_AXIS,255,255)] |>.put R.AXS_TRK0_PT_POS 0x10 255 0 |>.put R.AXS_TRK0_PT_FRQ 0x8000 255 0), 0, 0x8000, by and_intros <;> decide +kernel⟩⟩

/-- What Obligations.AxisTimersAndRequests assumes (part 1) holds somewhere, clause by clause. -/
theorem wit_AxisTimersAndRequests_1 :
    (∃ (a : Nat) (s : State),
    a < 256 ∧ s.axSt a = 3 ∧ s.timeUp (s.get H.AX_T0 a + 1000000 * s.get R.AXS_EN_TIMEOUT a) = true) ∧
    (∃ (a : Nat) (s : State),
    a < 256 ∧ s.axSt a = 5 ∧ (s.get H.AX_STOP a = 1 ∨ s.get H.AX_STOP a = 2) ∧
    s.timeUp (s.get H.AX_T0 a + 1000000 * s.get R.AXS_STOP_TIMEOUT a) = true) ∧
    (∃ (a : Nat) (s : State),
    a < 256 ∧ s.get H.AX_STOP a = 3 ∧ s.timeUp (s.get H.AX_HT a + 1000000 * s.get R.AXS_BRK_DELAY a) = true) ∧
    (∃ (a : Nat) (s : State),
    a < 256 ∧ s.axSt a = 5 ∧ s.get H.AX_STOP a = 2 ∧ s.still a = true ∧
    s.timeUp (s.get H.AX_HT a + 1000000 * s.get R.AXS_STOP_HOLD a) = true) ∧
    (∃ (a mb : Nat) (s : State),
    a < 256 ∧ s.get H.FRST_ON a ≠ 0 ∧ 16 ≤ s.get H.FRST_N a ∧ s.waiting 0x0104 a = [mb] ∧ mb < 32 ∧
    s.get H.MB_JRN mb = 0) :=
  ⟨⟨255, set up [(R.AXS_STATUS_STATE,255,3),(R.DCK_TIME,0,2^62)], by and_intros <;> decide +kernel⟩,
   ⟨255, set up [(R.AXS_STATUS_STATE,255,5),(H.AX_STOP,255,1),(R.DCK_TIME,0,2^62)], by and_intros <;> decide +kernel⟩,
   ⟨255, set up [(H.AX_STOP,255,3),(R.DCK_TIME,0,2^62)], by and_intros <;> decide +kernel⟩,
   ⟨255, set up [(R.AXS_STATUS_STATE,255,5),(H.AX_STOP,255,2),(R.DCK_TIME,0,2^62)], by and_intros <;> decide +kernel⟩,
   ⟨255, 31, w6f, by and_intros <;> decide +kernel⟩⟩

/-- What Obligations.AxisTimersAndRequests assumes (part 2) holds somewhere, clause by clause. -/
theorem wit_AxisTimersAndRequests_2 :
    (∃ (mb : Nat) (s : State),
    let a := s.par mb 0 4
    a < 256 ∧ s.axSt a ≠ 0 ∧ Ready s mb 0x0101 4) ∧
    (∃ (mb : Nat) (s : State),
    let a := s.par mb 0 4
    a < 256 ∧ s.axSt a ≠ 0 ∧ Ready s mb 0x0102 4) ∧
    (∃ (mb : Nat) (s : State),
    let a := s.par mb 0 4
    a < 256 ∧ s.axSt a ≠ 0 ∧ Ready s mb 0x0103 4) ∧
    (∃ (mb : Nat) (s : State),
    let a := s.par mb 0 4
    a < 256 ∧ s.axSt a ≠ 0 ∧ Ready s mb 0x0104 4) ∧
    (∃ (mb : Nat) (s : State),
    let a := s.par mb 0 4
    a < 256 ∧ s.axSt a ≠ 0 ∧ Ready s mb 0x0105 4) ∧
    (∃ (mb : Nat) (s : State),
    let a := s.par mb 0 4
    a < 256 ∧ s.axSt a ≠ 0 ∧ Ready s mb 0x0400 60) ∧
    (∃ (mb : Nat) (s : State),
    let a := s.par mb 0 4
    a < 256 ∧ s.axSt a ≠ 0 ∧ Ready s mb 0x0401 8) ∧
    (∃ (mb : Nat) (s : State),
    let a := s.par mb 0 4
    let seg := 16 + 16 * clampN 1 64 (s.par mb 4 4)
    a < 256 ∧ s.axSt a ≠ 0 ∧ Ready s mb 0x0402 seg) ∧
    (∃ (mb : Nat) (s : State),
    let a := s.par mb 0 4
    a < 256 ∧ s.axSt a ≠ 0 ∧ Ready s mb 0x0403 20) ∧
    (∃ (mb : Nat) (s : State),
    let a := s.par mb 0 4
    a < 256 ∧ s.axSt a ≠ 0 ∧ Ready s mb 0x0404 4) ∧
    (∃ (mb : Nat) (s : State),
    let a := s.par mb 0 4
    a < 256 ∧ Ready s mb 0x0100 32) ∧
    (∃ (mb : Nat) (s : State),
    let a := s.par mb 0 4
    a < 256 ∧ s.axSt a = 0 ∧ s.axEvs = [] ∧ Ready s mb 0x0102 4) ∧
    (∃ (mb : Nat) (s : State),
    let a := s.par mb 0 4
    a < 256 ∧ s.axSt a = 0 ∧ s.axEvs = [] ∧ Ready s mb 0x0400 60) :=
  ⟨⟨31, w6 31 257 4 [255], by and_intros <;> first | decide +kernel | (constructor <;> decide +kernel)⟩,
   ⟨31, w6 31 258 4 [255], by and_intros <;> first | decide +kernel | (constructor <;> decide +kernel)⟩,
   ⟨31, w6 31 259 4 [255], by and_intros <;> first | decide +kernel | (constructor <;> decide +kernel)⟩,
   ⟨31, w6 31 260 4 [255], by and_intros <;> first | decide +kernel | (constructor <;> decide +kernel)⟩,
   ⟨31, w6 31 261 4 [255], by and_intros <;> first | decide +kernel | (constructor <;> decide +kernel)⟩,
   ⟨31, w6 31 1024 60 [255], by and_intros <;> first | decide +kernel | (constructor <;> decide +kernel)⟩,
   ⟨31, w6 31 1025 8 [255], by and_intros <;> first | decide +kernel | (constructor <;> decide +kernel)⟩,
   ⟨31, w6 31 1026 32 [255], by and_intros <;> first | decide +kernel | (constructor <;> decide +kernel)⟩,
   ⟨31, w6 31 1027 20 [255], by and_intros <;> first | decide +kernel | (constructor <;> decide +kernel)⟩,
   ⟨31, w6 31 1028 4 [255], by and_intros <;> first | decide +kernel | (constructor <;> decide +kernel)⟩,
   ⟨31, w6 31 0x100 32 [255,0x20] 0, by and_intros <;> first | decide +kernel | (constructor <;> decide +kernel)⟩,
   ⟨31, w6 31 0x102 4 [255] 0, by and_intros <;> first | decide +kernel | (constructor <;> decide +kernel)⟩,
   ⟨31, w6 31 0x400 60 [255] 0, by and_intros <;> first | decide +kernel | (constructor <;> decide +kernel)⟩⟩

/-- What Obligations.RecordRequestsAndReactions assumes (part 1) holds somewhere, clause by clause. -/
theorem wit_RecordRequestsAndReactions_1 :
    (∃ (mb : Nat) (s : State),
    let a := s.par mb 0 4
    let off := s.par mb 4 4
    let n := max 4 (min (s.par mb 8 4) 4096)
    Ready s mb 0x0107 12 ∧ a < 256 ∧ s.axSt a ≠ 0 ∧ off % 4 = 0 ∧ n % 4 = 0 ∧ off + n ≤ 0x1000) ∧
    (∃ (mb : Nat) (s : State),
    let a := s.par mb 0 4
    Ready s mb 0x0201 4 ∧ a < 32) ∧
    (∃ (mb : Nat) (s : State),
    let a := s.par mb 0 4
    let off := s.par mb 4 4
    Ready s mb 0x0108 12 ∧ a < 256 ∧ s.axSt a ≠ 0 ∧ off = 0x28 ∧ s.get H.MB_LEN mb = 12 ∧
    s.trkCheck (s.recPut a off [s.par mb 8 4]) a off 1 = 0) ∧
    (∃ (mb : Nat) (s : State),
    let a := s.par mb 0 4
    let off := s.par mb 4 4
    Ready s mb 0x0202 12 ∧ a < 32 ∧ off = 0x10 ∧ s.get H.MB_LEN mb = 12 ∧ s.get R.GRP_CFG_N a = 0) :=
  ⟨⟨31, w6x 31 0x107 [255,0xFFC,4], by and_intros <;> first | decide +kernel | (constructor <;> decide +kernel)⟩,
   ⟨31, w6x 31 0x201 [31], by and_intros <;> first | decide +kernel | (constructor <;> decide +kernel)⟩,
   ⟨31, w6x 31 0x108 [255,0x28,0xFFFFFFFF], by and_intros <;> first | decide +kernel | (constructor <;> decide +kernel)⟩,
   ⟨31, set (w6x 31 0x202 [31,0x10,0xFFFFFFFF]) [], by and_intros <;> first | decide +kernel | (constructor <;> decide +kernel)⟩⟩

/-- What Obligations.RecordRequestsAndReactions assumes (part 2) holds somewhere, clause by clause. -/
theorem wit_RecordRequestsAndReactions_2 :
    (∃ (mb : Nat) (s : State),
    let a := s.par mb 0 4
    Ready s mb 0x0106 17 ∧ a < 256 ∧ s.axSt a ≠ 0) ∧
    (∃ (mb : Nat) (s : State),
    let a := s.par mb 0 4
    let k := s.par mb 4 4
    Ready s mb 0x0200 12 ∧ a < 256 ∧ s.axSt a ≠ 0 ∧ k < 24 ∧ s.par mb 8 4 = 0 ∧ s.tracked a (0xA0 + 20 * k) 5 = false) :=
  ⟨⟨31, w6 31 0x106 17 [255,0xFFFFFFFF,0x03020100,0xFFFFFFFF,0x02020202,0xFF], by and_intros <;> first | decide +kernel | (constructor <;> decide +kernel)⟩,
   ⟨31, w6 31 0x200 12 [255,23,0], by and_intros <;> first | decide +kernel | (constructor <;> decide +kernel)⟩⟩

/-- What Obligations.LearningTableRequests assumes holds somewhere, clause by clause. -/
theorem wit_LearningTableRequests :
    (∃ (mb : Nat) (s : State),
    let tb := s.par mb 0 4
    Ready s mb 0x0203 44 ∧ tb < 64 ∧ bit (s.par mb 4 4) 8 = false ∧ bit (s.get H.LFF_DESC tb) 10 = false) ∧
    (∃ (mb : Nat) (s : State),
    let tb := s.par mb 0 4
    Ready s mb 0x0204 4 ∧ tb < 64) ∧
    (∃ (mb : Nat) (s : State),
    Ready s mb 0x0205 0) ∧
    (∃ (mb : Nat) (s : State),
    Ready s mb 0x0206 4096) :=
  ⟨⟨31, w6 31 0x203 44 [63,7,0,0xFFFFFFFF], by and_intros <;> first | decide +kernel | (constructor <;> decide +kernel)⟩,
   ⟨31, set (w6 31 0x204 4 [63]) [(R.LFF_STAT_REPS,63,9)], by and_intros <;> first | decide +kernel | (constructor <;> decide +kernel)⟩,
   ⟨31, set (w6 31 0x205 4 []) [(H.MB_ARG,31,0x13F)], by first | decide +kernel | (constructor <;> decide +kernel)⟩,
   ⟨31, set (w6 31 0x206 4096 [1,2,3]) [(H.MB_ARG,31,0x13F)], by first | decide +kernel | (constructor <;> decide +kernel)⟩⟩

/-- What Obligations.TracePagesAreAllocated assumes holds somewhere, clause by clause. -/
theorem wit_TracePagesAreAllocated :
    (∃ (mb p : Nat) (s : State),
    (∀ x < 32, s.get H.SW_ORPH x = 0) ∧
    let a := s.par mb 0 4
    let n := clampN 1 248 (s.par mb 4 4)
    Ready s mb 0x0207 8 ∧ a < 256 ∧ s.axSt a ≠ 0 ∧ s.get H.PRB_PAGE a = 0 ∧ s.pageRun n = some p) ∧
    (∃ (mb p c k : Nat) (s : State),
    (∀ x < 32, s.get H.SW_ORPH x = 0) ∧
    let a := s.par mb 0 4
    let len := sweepLen (s.par mb 8 4) ((List.range 11).map fun j => s.par mb (20 + 4 * j) 4) (s.axPeriod a)
    Ready s mb 0x0208 64 ∧ a < 256 ∧ 0x18 ≤ s.par mb 4 4 ∧ s.par mb 4 4 ≤ 0x1A ∧ s.par mb 8 4 ≤ 2 ∧ s.axSt a = 4 ∧
    ((List.range 32).find? fun x => !s.on H.SW_ON x && s.get H.SW_PAGE x == 0) = some c ∧
    s.swFor a (s.par mb 4 4) = none ∧ sweepPages len ≤ 248 ∧ s.pageRun (sweepPages len) = some p ∧ s.descAlloc ≠ none ∧
    s.lopSlot = some k) :=
  ⟨⟨31, 0, w6 31 0x207 8 [255,248], by and_intros <;> first | decide +kernel | (constructor <;> decide +kernel)⟩,
   ⟨31, 0, 0, 0, w6 31 0x208 64 [255,0x18,0,1000,10], by and_intros <;> first | decide +kernel | (constructor <;> decide +kernel)⟩⟩

/-- What Obligations.TrajectoryEventsTakeEffect assumes holds somewhere, clause by clause. -/
theorem wit_TrajectoryEventsTakeEffect :
    (∃ (a : Nat) (s : State),
    a < 256 ∧
    let te := s.get H.SEG_TE a
    let x := s.segEnd a
    s.tableOn a = true ∧ s.effectUp a te = true ∧ s.segLeft a = false ∧ s.segsOf a = [] ∧ x.v = 0) ∧
    (∃ (a : Nat) (g : Seg) (l : List Seg) (s : State),
    a < 256 ∧
    let te := s.get H.SEG_TE a
    let x := s.segEnd a
    let one : Int := 4294967296
    s.tableOn a = true ∧ s.effectUp a te = true ∧ s.segLeft a = false ∧ s.segsOf a = g :: l ∧ s.get H.SEG_TS a = 0 ∧
    s.segOk a x.p x.v (s.swlClamp a g.pEnd * one) (g.vEnd * one) (g.dur * s.axPeriod a) = true) ∧
    (∃ (a : Nat) (m : Motion) (s : State),
    a < 256 ∧ s.waitingMotion a = some m ∧ s.effectUp a m.ts = true ∧ (∀ y ∈ s.motionsOf a, y.ts ≤ m.ts) ∧
    s.get H.LRN_T a = 0 ∧ m.kind = 1 ∧ s.get R.TRJ_SEG_STAT_STATE a = 0 ∧ s.segsOf a = []) ∧
    (∃ (a k : Nat) (s : State),
    a < 256 ∧ s.get R.HM_STAT_PHASE a ≠ 0 ∧ s.get H.HM_SUSP a = 0 ∧ s.lopOf 0x0404 a = some k ∧ s.waits = [] ∧
    s.timeUp (s.get H.HM_T0 a + 1000000 * s.get R.HM_TIMEOUT a) = true) ∧
    (∃ (a : Nat) (s : State),
    a < 256 ∧ s.hardStop a = true ∧ s.get H.HM_NEXT a = 0 ∧ s.stallDwelt a = true) :=
  ⟨⟨255, set (w6s []) [(R.DCK_TIME,0,2^62)], by and_intros <;> decide +kernel⟩,
   ⟨255, w6g, [], set (w6s [w6g]) [(H.AX_DIV,255,2),(R.DCK_TIME,0,2^62)], by and_intros <;> decide +kernel⟩,
   ⟨255, w6m, { (set up [(R.AXS_STATUS_STATE,255,4),(R.DCK_TIME,0,2^62)]) with motions := [w6m] }, by and_intros <;> decide +kernel⟩,
   ⟨255, 31, set up [(R.AXS_STATUS_STATE,255,4),(R.HM_STAT_PHASE,255,7),(R.LOP_ID_HANDLE,31,0x1FF),(R.LOP_OBJ_OPCODE,31,0x404),(R.LOP_OBJ_INDEX,31,255),(R.LOP_ID_STATUS,31,4),(R.DCK_TIME,0,2^62)], by and_intros <;> decide +kernel⟩,
   ⟨255, set up [(R.AXS_STATUS_STATE,255,4),(R.HM_STAT_PHASE,255,1),(R.HM_CFG_METHOD,255,4),(H.HM_STALL,255,2^64),(R.AXS_P_ACT,255,12345),(R.DCK_TIME,0,2^62)], by and_intros <;> decide +kernel⟩⟩

/-- What Obligations.CompareAndCaptureUnits assumes (part 1) holds somewhere, clause by clause. -/
theorem wit_CompareAndCaptureUnits_1 :
    (∃ (u c t₀ : Nat) (x : Track) (s : State),
    u < 32 ∧ c < 32 ∧ s.get R.CMP_CTL_EN u ≠ 0 ∧ s.get R.CMP_STAT_ARMED u ≠ 0 ∧ s.get H.CMP_TGAP u < 2 ∧
    s.trackAt u t₀ = some x ∧ s.cmpPassed u (x.posAt ((t₀ : Int) - 2)) (x.posAt ((t₀ : Int) + 2)) = true ∧ x.fired < 4) ∧
    (∃ (u c t₀ : Nat) (x : Track) (s : State),
    u < 32 ∧ c < 32 ∧ s.get R.CMP_CTL_EN u ≠ 0 ∧ s.get R.CMP_STAT_ARMED u ≠ 0 ∧ s.get H.CMP_TGAP u < 2 ∧
    s.trackAt u t₀ = some x ∧ s.cmpPassed u (x.posAt ((t₀ : Int) - 2)) (x.posAt ((t₀ : Int) + 2)) = true ∧ 4 ≤ x.fired) ∧
    (∃ (u c : Nat) (s : State),
    u < 32 ∧ c < 32 ∧ s.get H.CMP_PON u ≠ 0 ∧ s.timeUp (s.get H.CMP_TE u) = true) ∧
    (∃ (u c t₀ : Nat) (rising : Bool) (x : Track) (s : State),
    u < 32 ∧ c < 32 ∧
    let src := s.get R.CMP_CAP_CTL_SRC c
    let waiting := (s.capsOf c).length + (s.edges.filter fun x => x.unit == c).length
    src ≠ 0x3F ∧ (src < 16 → bit (s.get R.CMP_TRG_DIR) src = false) ∧ s.capTakes c t₀ rising = true ∧ waiting < 16) ∧
    (∃ (u c t₀ : Nat) (rising : Bool) (x : Track) (s : State),
    u < 32 ∧ c < 32 ∧
    let src := s.get R.CMP_CAP_CTL_SRC c
    let waiting := (s.capsOf c).length + (s.edges.filter fun x => x.unit == c).length
    src ≠ 0x3F ∧ (src < 16 → bit (s.get R.CMP_TRG_DIR) src = false) ∧ s.capTakes c t₀ rising = true ∧ 16 ≤ waiting) ∧
    (∃ (u c : Nat) (s : State),
    u < 32 ∧ c < 32 ∧ HostWord s (R.CMP_ARM.base + R.CMP_ARM.stride * u)) ∧
    (∃ (u c : Nat) (s : State),
    u < 32 ∧ c < 32 ∧ HostWord s (R.CMP_DISARM.base + R.CMP_DISARM.stride * u)) ∧
    (∃ (u c : Nat) (s : State),
    u < 32 ∧ c < 32 ∧ HostWord s (R.CMP_CAP_ARM.base + R.CMP_CAP_ARM.stride * c)) ∧
    (∃ (u c : Nat) (s : State),
    u < 32 ∧ c < 32 ∧ HostWord s (R.CMP_CAP_NEXT.base + R.CMP_CAP_NEXT.stride * c)) :=
  ⟨⟨31, 31, 500, w6t 3, w6c 3, by and_intros <;> decide +kernel⟩,
   ⟨31, 31, 500, w6t 4, w6c 4, by and_intros <;> decide +kernel⟩,
   ⟨31, 31, set up [(H.CMP_PON,31,1)], by and_intros <;> decide +kernel⟩,
   ⟨31, 31, 100, false, w6t 0, w6c 3, by and_intros <;> decide +kernel⟩,
   ⟨31, 31, 100, false, w6t 0, set (w6e 16) [(R.CMP_CAP_CTL_EDGE,31,3)], by and_intros <;> decide +kernel⟩,
   ⟨31, 31, w6c 3, by and_intros <;> first | decide +kernel | (constructor <;> decide +kernel)⟩,
   ⟨31, 31, w6c 3, by and_intros <;> first | decide +kernel | (constructor <;> decide +kernel)⟩,
   ⟨31, 31, w6c 3, by and_intros <;> first | decide +kernel | (constructor <;> decide +kernel)⟩,
   ⟨31, 31, w6c 3, by and_intros <;> first | decide +kernel | (constructor <;> decide +kernel)⟩⟩

/-- What Obligations.CompareAndCaptureUnits assumes (part 2) holds somewhere, clause by clause. -/
theorem wit_CompareAndCaptureUnits_2 :
    (∃ (mb : Nat) (s : State),
    let u := s.par mb 0 4
    let w := s.par mb 4 4
    Ready s mb 0x0405 36 ∧ u < 32 ∧ (bit w 0 && s.encPin (bits w 8 6)) = false) ∧
    (∃ (mb : Nat) (s : State),
    let u := s.par mb 0 4
    let w := s.par mb 4 4
    Ready s mb 0x0405 36 ∧ u < 32 ∧ (bit w 0 && s.encPin (bits w 8 6)) = true) ∧
    (∃ (mb : Nat) (s : State),
    let u := s.par mb 0 4
    let w := s.par mb 4 4
    let n := clampN 1 511 w
    Ready s mb 0x0406 (8 + 8 * n) ∧ u + n ≤ 8192) ∧
    (∃ (mb : Nat) (s : State),
    let u := s.par mb 0 4
    let w := s.par mb 4 4
    Ready s mb 0x0407 8 ∧ u < 32 ∧ (bit w 0 && s.encPin (bits w 4 6)) = false) :=
  ⟨⟨31, w6 31 0x405 36 [31,0x3F01,2,3,4,5,6,7,8], by and_intros <;> first | decide +kernel | (constructor <;> decide +kernel)⟩,
   ⟨31, set (w6 31 0x405 36 [31,0xF01,2,3,4,5,6,7,8]) [(H.ENC_NEWP,7,1),(H.ENC_NEWW,7,0xFFFFFFFF)], by and_intros <;> first | decide +kernel | (constructor <;> decide +kernel)⟩,
   ⟨31, set (w6 31 0x406 40 [8192-511,600,1,2,3,4]) [(H.MB_LEN,31,4096)], by and_intros <;> first | decide +kernel | (constructor <;> decide +kernel)⟩,
   ⟨31, w6 31 0x407 8 [31,0xFFFFFFFF], by and_intros <;> first | decide +kernel | (constructor <;> decide +kernel)⟩⟩

/-- What Obligations.RingsTimersLinksAndFrames assumes (part 1) holds somewhere, clause by clause. -/
theorem wit_RingsTimersLinksAndFrames_1 :
    (∃ (r p node : Nat) (s : State),
    r < 2 ∧ p < 4 ∧ node < 4096 ∧ s.get R.DCK_STATE_STATE = 1 ∧ 16 ≤ s.get H.DC_GOOD) ∧
    (∃ (r p node : Nat) (s : State),
    r < 2 ∧ p < 4 ∧ node < 4096 ∧ (s.get R.DCK_STATE_STATE = 1 ∨ s.get R.DCK_STATE_STATE = 2) ∧ 16 ≤ s.get H.DC_STUCK) ∧
    (∃ (r p node : Nat) (s : State),
    r < 2 ∧ p < 4 ∧ node < 4096 ∧ s.get R.DCK_STATE_STATE = 3 ∧ s.get R.NRT_RCFG4_REF2 0 ≠ 0 ∧ 64 ≤ s.get H.DC_HOLDN) ∧
    (∃ (r p node : Nat) (s : State),
    r < 2 ∧ p < 4 ∧ node < 4096 ∧
    let st := s.get R.NRT_RSTATE_STATE r
    st = 4 ∧ s.get R.NRT_RSTATE_HEAD r ≠ 0 ∧ (s.get H.BND_N % 1024 = 0 ∨ s.get H.BND_N % 1024 = 256)) ∧
    (∃ (r p node : Nat) (s : State),
    r < 2 ∧ p < 4 ∧ node < 4096 ∧
    let st := s.get R.NRT_RSTATE_STATE r
    st = 4 ∧ s.get H.BND_N % 1024 = 512) ∧
    (∃ (r p node id : Nat) (s : State),
    r < 2 ∧ p < 4 ∧ node < 4096 ∧ s.get H.PD_ID p = 2 ^ 16 + id ∧ s.get R.NRT_RSTATE_STATE (p / 2) ≠ 3) ∧
    (∃ (r p node : Nat) (s : State),
    r < 2 ∧ p < 4 ∧ node < 4096 ∧ s.get H.NODE_ST (4096 * r + node) = 3 ∧ s.get H.NODE_SEEN (4096 * r + node) ≠ 0 ∧
    s.acyc = [] ∧ s.get H.NODE_IDT (4096 * r + node) + 256 ≤ s.get H.BND_N) ∧
    (∃ (r p node : Nat) (s : State),
    r < 2 ∧ p < 4 ∧ node < 4096 ∧
    let st := s.get R.NRT_RSTATE_STATE r
    st = 1 ∧ s.waits = [] ∧ s.timeUp (s.get H.LINK_T r + 500000000) = true) ∧
    (∃ (r p node : Nat) (closed : Bool) (s : State),
    r < 2 ∧ p < 4 ∧ node < 4096 ∧ s.get H.BYP_CMD r ≠ 0 ∧ s.get H.PWR_HOLD = 0 ∧ s.domDown 4 = false ∧
    s.on H.BYP_HOLD r = closed ∧ s.get H.BND_N % 1024 ∉ [0, 256, 512] ∧ s.waits = []) ∧
    (∃ (r p node : Nat) (s : State),
    r < 2 ∧ p < 4 ∧ node < 4096 ∧ (s.get H.PWR_HOLD ≠ 0 ∨ s.domDown 4 = true)) ∧
    (∃ (r p node : Nat) (phyOk : Bool) (s : State),
    r < 2 ∧ p < 4 ∧ node < 4096 ∧ (s.get R.NRT_RCFG_MODE (p / 2) ≠ 2 ∨ phyOk = true) ∧
    s.get R.NRT_RSTATE_STATE (p / 2) ≠ 1) ∧
    (∃ (r p node : Nat) (s : State),
    r < 2 ∧ p < 4 ∧ node < 4096 ∧ s.get R.NRT_PSTAT_LINK p ≠ 0) :=
  ⟨⟨1, 3, 4095, w7 [(R.DCK_STATE_STATE,0,1),(R.DCK_OFFSET,0,0xFFFFFFFF),(H.DC_GOOD,0,16)], by and_intros <;> decide +kernel⟩,
   ⟨1, 3, 4095, w7 [(R.DCK_STATE_STATE,0,1),(H.DC_STUCK,0,16)], by and_intros <;> decide +kernel⟩,
   ⟨1, 3, 4095, w7 [(R.DCK_STATE_STATE,0,3),(R.NRT_RCFG4_REF2,0,5),(H.DC_HOLDN,0,64)], by and_intros <;> decide +kernel⟩,
   ⟨1, 3, 4095, w7 [(R.NRT_RSTATE_STATE,1,4),(R.NRT_RSTATE_HEAD,1,1),(R.NRT_CYCLE,1,700),(H.BND_N,0,1280)], by and_intros <;> decide +kernel⟩,
   ⟨1, 3, 4095, w7 [(R.NRT_RSTATE_STATE,1,4),(H.BND_N,0,1536),(H.PD_NEXT,0,65535)], by and_intros <;> decide +kernel⟩,
   ⟨1, 3, 4095, 65535, w7 [(H.PD_ID,3,0x1FFFF)], by and_intros <;> decide +kernel⟩,
   ⟨1, 3, 4095, w7 [(H.NODE_ST,8191,3),(H.NODE_SEEN,8191,1),(H.BND_N,0,300)], by and_intros <;> decide +kernel⟩,
   ⟨1, 3, 4095, w7 [(R.NRT_RSTATE_STATE,1,1),(R.DCK_TIME,0,2^62)], by and_intros <;> decide +kernel⟩,
   ⟨1, 3, 4095, false, w7 [(H.BND_N,0,5),(R.DCK_STATE_STATE,0,1),(H.BYP_CMD,1,1)], by and_intros <;> decide +kernel⟩,
   ⟨1, 3, 4095, w7 [(H.BYP_CMD,1,1),(H.BYP_HOLD,1,0),(H.PWR_HOLD,0,8)], by and_intros <;> decide +kernel⟩,
   ⟨1, 3, 4095, true, w7 [(R.DCK_STATE_STATE,0,1),(R.DCK_OFFSET,0,0xFFFFFFFF)], by and_intros <;> decide +kernel⟩,
   ⟨1, 3, 4095, w7 [(R.NRT_PSTAT_LINK,3,1),(R.NRT_PCNT_DOWN,3,0xFFFFFFFF)], by and_intros <;> decide +kernel⟩⟩

/-- What Obligations.RingsTimersLinksAndFrames assumes (part 2) holds somewhere, clause by clause. -/
theorem wit_RingsTimersLinksAndFrames_2 :
    (∃ (r slot d p : Nat) (s : State),
    r < 2 ∧ slot < 256 ∧ p < 4 ∧
    let f := s.landFrame r slot
    let n := s.slotSize r / 2
    slot < s.get R.NRT_RCFG2_NSLOT r ∧ s.get R.NRT_RSTATE_STATE r = 4 ∧ s.get R.NRT_RSTATE_SPLIT r = 0 ∧
    s.get H.FB_BAD (256 * r + slot) = 0 ∧ s.landDescs r slot f = [d] ∧ CanRelease s d ∧ n ≤ 32) ∧
    (∃ (r slot d p : Nat) (s : State),
    r < 2 ∧ slot < 256 ∧ p < 4 ∧ d < 1024 ∧ s.get R.SCH_DESC_REL d = 0 ∧ s.backFrame d ≤ s.get H.BND_N ∧
    CanRelease s d ∧ s.timeUp (s.backTime d (s.backFrame d)) = true) ∧
    (∃ (r slot d p : Nat) (s : State),
    r < 2 ∧ slot < 256 ∧ p < 4 ∧ s.timeUp (s.backTime d (s.backFrame d)) = false) ∧
    (∃ (r slot p : Nat) (mac hd pl : List Nat) (s : State),
    r < 2 ∧ slot < 256 ∧ p < 4 ∧
    let l := mac ++ hd ++ pl
    let hops := wireField l 60 2
    let flags := wireField l 24 2
    let mine := s.frameKnown (p / 2) l = true ∧ wireField l 23 1 = 1 ∧ wireField l 42 4 = s.get R.HIF_CID
    let heads := s.get R.NRT_RSTATE_STATE (p / 2) = 4 ∧ s.get R.NRT_RSTATE_HEAD (p / 2) ≠ 0
    heads ∧ mine ∧ s.get R.NRT_RSTATE_SPLIT (p / 2) = 0 ∧ s.get H.INJ_FCS p = 0 ∧
    hops = s.get R.NRT_TOPO_HOPS (p / 2) ∧ bit flags 15 = false ∧ (p = 1 → wireField l 62 2 = 0)) ∧
    (∃ (r slot p : Nat) (mac hd pl : List Nat) (s : State),
    r < 2 ∧ slot < 256 ∧ p < 4 ∧
    let l := mac ++ hd ++ pl
    let hops := wireField l 60 2
    let mine := s.frameKnown (p / 2) l = true ∧ wireField l 23 1 = 1 ∧ wireField l 42 4 = s.get R.HIF_CID
    let heads := s.get R.NRT_RSTATE_STATE (p / 2) = 4 ∧ s.get R.NRT_RSTATE_HEAD (p / 2) ≠ 0
    heads ∧ mine ∧ s.get R.NRT_RSTATE_SPLIT (p / 2) = 0 ∧ s.get H.INJ_FCS p = 0 ∧ hops ≠ s.get R.NRT_TOPO_HOPS (p / 2)) ∧
    (∃ (r slot p : Nat) (mac hd pl : List Nat) (s : State),
    r < 2 ∧ slot < 256 ∧ p < 4 ∧
    let l := mac ++ hd ++ pl
    let hops := wireField l 60 2
    let flags := wireField l 24 2
    let mine := s.frameKnown (p / 2) l = true ∧ wireField l 23 1 = 1 ∧ wireField l 42 4 = s.get R.HIF_CID
    let heads := s.get R.NRT_RSTATE_STATE (p / 2) = 4 ∧ s.get R.NRT_RSTATE_HEAD (p / 2) ≠ 0
    heads ∧ mine ∧ s.get R.NRT_RSTATE_SPLIT (p / 2) = 0 ∧ s.get H.INJ_FCS p = 0 ∧
    hops = s.get R.NRT_TOPO_HOPS (p / 2) ∧ bit flags 15 = true) ∧
    (∃ (r slot p : Nat) (mac hd pl : List Nat) (s : State),
    r < 2 ∧ slot < 256 ∧ p < 4 ∧
    let l := mac ++ hd ++ pl
    let flags := wireField l 24 2
    let mine := s.frameKnown (p / 2) l = true ∧ wireField l 23 1 = 1 ∧ wireField l 42 4 = s.get R.HIF_CID
    let heads := s.get R.NRT_RSTATE_STATE (p / 2) = 4 ∧ s.get R.NRT_RSTATE_HEAD (p / 2) ≠ 0
    p = 1 ∧ heads ∧ mine ∧ s.get H.INJ_FCS 1 = 0 ∧ bit flags 15 = false ∧ wireField l 62 2 ≠ 0 ∧
    s.dcFresh (wireField l 26 8) (wireField l 64 8) = true ∧ s.get H.DC_NEWREF = 0 ∧ s.get H.DC_FIRST ≠ 0 ∧
    s.get R.DCK_STATE_STATE ≠ 2) ∧
    (∃ (r slot p : Nat) (mac hd pl : List Nat) (s : State),
    r < 2 ∧ slot < 256 ∧ p < 4 ∧
    let l := mac ++ hd ++ pl
    s.frameKnown (p / 2) l = false ∧ (s.get R.NRT_RSTATE_HEAD (p / 2) = 0 ∨ s.get R.NRT_RSTATE_STATE (p / 2) = 4)) ∧
    (∃ (r slot p : Nat) (mac hd pl : List Nat) (s : State),
    r < 2 ∧ slot < 256 ∧ p < 4 ∧
    let l := mac ++ hd ++ pl
    s.get R.NRT_RSTATE_HEAD (p / 2) = 0 ∧ s.frameKnown (p / 2) l = true ∧ wireField l 23 1 = 1 ∧
    s.get H.INJ_FCS p = 0 ∧ l.length + 4 < 0x4000) :=
  ⟨⟨1, 255, 1023, 3, w7a 1 256, by and_intros <;> first | decide +kernel | (constructor <;> decide +kernel)⟩,
   ⟨1, 255, 1023, 3, set (w7a 1 256) [(R.DCK_TIME,0,2^62)], by and_intros <;> first | decide +kernel | (constructor <;> decide +kernel)⟩,
   ⟨1, 255, 1023, 3, set (w7a 1 256) [(H.BND_T,0,100000000)], by and_intros <;> decide +kernel⟩,
   ⟨1, 255, 3, (w7l 0 7 0 0).take 14, ((w7l 0 7 0 0).drop 14).take 64, (w7l 0 7 0 0).drop 78, w7a 1 256, by and_intros <;> decide +kernel⟩,
   ⟨0, 0, 1, (w7l 0 8 0 0).take 14, ((w7l 0 8 0 0).drop 14).take 64, (w7l 0 8 0 0).drop 78, w7a 0 1, by and_intros <;> decide +kernel⟩,
   ⟨1, 255, 3, (w7l 0x8000 7 0 0).take 14, ((w7l 0x8000 7 0 0).drop 14).take 64, (w7l 0x8000 7 0 0).drop 78, w7a 1 256, by and_intros <;> decide +kernel⟩,
   ⟨0, 0, 1, (w7l 0 7 5 1000).take 14, ((w7l 0 7 5 1000).drop 14).take 64, (w7l 0 7 5 1000).drop 78, set (w7a 0 1) [(H.DC_FIRST,0,1)], by and_intros <;> decide +kernel⟩,
   ⟨0, 0, 3, List.replicate 14 0, List.replicate 64 0, [], w7a 0 1, by and_intros <;> decide +kernel⟩,
   ⟨0, 0, 3, (w7l 0 7 0 0).take 14, ((w7l 0 7 0 0).drop 14).take 64, (w7l 0 7 0 0).drop 78, w7a 0 1, by and_intros <;> decide +kernel⟩⟩

/-- What Obligations.RingStartAndNodes assumes holds somewhere, clause by clause. -/
theorem wit_RingStartAndNodes :
    (∃ (r node : Nat) (s : State),
    r < 2 ∧ node < 4096 ∧
    let st := s.get R.NRT_RSTATE_STATE r
    st = 2 ∧ s.get H.SCAN_HAVE r = 0) ∧
    (∃ (r hops node : Nat) (entries : List Nat) (s : State),
    r < 2 ∧ node < 4096 ∧
    let st := s.get R.NRT_RSTATE_STATE r
    st = 2 ∧ s.get H.SCAN_HAVE r ≠ 0 ∧ s.scanList r = entries.take 4096 ∧ s.get H.SCAN_HOPS r = hops ∧
    entries.length ≤ 4064 ∧ (scanAddrs entries).eraseDups.length = entries.length) ∧
    (∃ (r node : Nat) (s : State),
    r < 2 ∧ node < 4096 ∧
    let st := s.get R.NRT_RSTATE_STATE r
    st = 3 ∧ s.get H.MEAS r = 0 ∧ bit (s.get H.PRB_OUT r) 0 = true) ∧
    (∃ (r maxrx node : Nat) (s : State),
    r < 2 ∧ node < 4096 ∧
    let st := s.get R.NRT_RSTATE_STATE r
    st = 3 ∧ s.get H.MEAS r = 13 ∧ bit (s.get H.PRB_OUT r) 1 = true ∧ s.get H.NRT_RX r 0 ≤ maxrx ∧ maxrx < 2 ^ 31 ∧
    s.lateL r = false ∧ s.shortG r = false ∧ applyFor maxrx ≤ s.ringCyc r ∧ s.waits = []) ∧
    (∃ (r node : Nat) (s : State),
    r < 2 ∧ node < 4096 ∧ s.get H.NODE_ST (4096 * r + node) ≠ 0 ∧ s.get H.NODE_ST (4096 * r + node) ≠ 3 ∧
    s.nodeSilent r node = true) :=
  ⟨⟨1, 4095, w7 [(R.NRT_RSTATE_STATE,1,2)], by and_intros <;> decide +kernel⟩,
   ⟨1, 5, 4095, [2,0x1FFF], set w7s [(R.NRT_RSTATE_STATE,1,2),(H.SCAN_HAVE,1,1),(H.SCAN_HOPS,1,5)], by and_intros <;> decide +kernel⟩,
   ⟨1, 4095, w7 [(R.NRT_RSTATE_STATE,1,3),(H.PRB_OUT,1,3)], by and_intros <;> decide +kernel⟩,
   ⟨1, 2500, 4095, w7 [(R.NRT_RSTATE_STATE,1,3),(H.PRB_OUT,1,3),(H.MEAS,1,13),(R.NRT_G_PS,1,5000000),(H.SCAN_N,1,1),(R.NRT_TOPO_NODES,1,1)], by and_intros <;> decide +kernel⟩,
   ⟨1, 4095, set w7n [(H.SLOT_V0,256,64),(H.AX_SLOT,255,0),(R.NRT_RCFG2_NSLOT,1,1)], by and_intros <;> decide +kernel⟩⟩

/-- What Obligations.RingRequests assumes holds somewhere, clause by clause. -/
theorem wit_RingRequests :
    (∃ (r₀ node : Nat) (frags : List (Nat × List Nat)),
    r₀ < 2 ∧ node < 4096 ∧ fragsOk frags = false) ∧
    (∃ (mb r₀ node : Nat) (frags : List (Nat × List Nat)) (m : AcycMsg) (s : State),
    r₀ < 2 ∧ node < 4096 ∧
    let msg := fragBytes frags
    fragsOk frags = true ∧ s.acycOut r₀ node = some m ∧ m.svc = ofBytesBE (msg.take 2) ∧ m.tid = msg.getD 2 0 ∧
    m.sent = m.frags ∧ m.svc ≠ 1 ∧ s.acycReq m = some mb ∧ mb < 32 ∧ s.get H.MB_JRN mb = 0) ∧
    (∃ (mb r₀ node : Nat) (m : AcycMsg) (s : State),
    r₀ < 2 ∧ node < 4096 ∧ s.acyc.find? (fun x => x.ring == r₀ && x.node == node) = some m ∧
    m.cyc + 256 ≤ s.get H.BND_N ∧ s.acycReq m = some mb ∧ mb < 32 ∧ s.get H.MB_JRN mb = 0) ∧
    (∃ (mb r₀ node : Nat) (s : State),
    r₀ < 2 ∧ node < 4096 ∧
    let r := s.par mb 0 4
    let n := s.par mb 4 4
    let len := min 752 (s.par mb 12 4)
    Ready s mb 0x0502 (16 + len) ∧ r < 2 ∧ n < 4096 ∧ n ∈ scanAddrs (s.scanList r)) ∧
    (∃ (mb r₀ node : Nat) (s : State),
    r₀ < 2 ∧ node < 4096 ∧
    let r := s.par mb 0 4
    Ready s mb 0x0500 20 ∧ r < 2 ∧ s.get H.RSTOP r = 0 ∧ s.waits = [] ∧
    (s.get R.NRT_RSTATE_STATE r = 0 ∨ s.get R.NRT_RSTATE_STATE r = 6) ∧ bit (s.par mb 4 4) 0 = false) ∧
    (∃ (mb r₀ node : Nat) (s : State),
    r₀ < 2 ∧ node < 4096 ∧
    let r := s.par mb 0 4
    let ws := (List.range 4).map fun k => s.par mb (4 + 4 * k) 4
    Ready s mb 0x0500 20 ∧ r < 2 ∧ s.get H.RSTOP r = 0 ∧ s.waits = [] ∧
    (s.get R.NRT_RSTATE_STATE r = 0 ∨ s.get R.NRT_RSTATE_STATE r = 6) ∧ bit (s.par mb 4 4) 0 = true ∧
    (s.ringStore r ws).refuseCfg r = 0 ∧ s.get R.NRT_PSTAT_LINK (2 * r) = 0) ∧
    (∃ (mb r₀ node : Nat) (s : State),
    r₀ < 2 ∧ node < 4096 ∧
    let r := s.par mb 0 4
    Ready s mb 0x0501 4 ∧ r < 2 ∧ s.get H.RSTOP r = 0 ∧ s.waits = [] ∧ s.get R.NRT_RSTATE_STATE r ≠ 4 ∧
    (∀ a ∈ s.ringAxes r, s.axSt a ≤ 1)) ∧
    (∃ (mb r₀ node : Nat) (s : State),
    r₀ < 2 ∧ node < 4096 ∧
    let r := s.par mb 0 4
    Ready s mb 0x0501 4 ∧ r < 2 ∧ s.get H.RSTOP r = 0 ∧ s.waits = [] ∧ s.get R.NRT_RSTATE_STATE r = 4) ∧
    (∃ (mb r₀ node : Nat) (s : State),
    r₀ < 2 ∧ node < 4096 ∧
    let r := s.par mb 0 4
    let n := s.par mb 4 4
    Ready s mb 0x0503 8 ∧ r < 2 ∧ s.get R.NRT_PSTAT_BYP (2 * r) ≠ min 1 n) ∧
    (∃ (mb r₀ node : Nat) (s : State),
    r₀ < 2 ∧ node < 4096 ∧
    let r := s.par mb 0 4
    let n := s.par mb 4 4
    Ready s mb 0x0503 8 ∧ r < 2 ∧ s.get R.NRT_PSTAT_BYP (2 * r) = min 1 n) ∧
    (∃ (mb r₀ node : Nat) (s : State),
    r₀ < 2 ∧ node < 4096 ∧
    let r := s.par mb 0 4
    Ready s mb 0x0504 4 ∧ r < 2) :=
  ⟨⟨1, 4095, [(0x8000,[])], by and_intros <;> decide +kernel⟩,
   ⟨31, 1, 4095, [(0xC006,[0x12,0x34,5,2,0xAB,0xCD])], w7w, w7f, by and_intros <;> decide +kernel⟩,
   ⟨31, 1, 4095, w7w, w7f, by and_intros <;> decide +kernel⟩,
   ⟨31, 1, 4095, w7s, by and_intros <;> first | decide +kernel | (constructor <;> decide +kernel)⟩,
   ⟨31, 1, 4095, w7q 20 [1,0xFFFFFFFE] 0x500 [(R.NRT_RSTATE_STATE,1,6)], by and_intros <;> first | decide +kernel | (constructor <;> decide +kernel)⟩,
   ⟨31, 1, 4095, w7q 20 [1,0xFFFF12FF,4,5,6] 0x500 [], by and_intros <;> first | decide +kernel | (constructor <;> decide +kernel)⟩,
   ⟨31, 1, 4095, w7q 20 [1] 0x501 [(R.NRT_RSTATE_STATE,1,3),(R.AXS_STATUS_STATE,9,1),(H.AX_BIND,9,1)], by and_intros <;> first | decide +kernel | (constructor <;> decide +kernel)⟩,
   ⟨31, 1, 4095, w7q 20 [1] 0x501 [(R.NRT_RSTATE_STATE,1,4),(R.NRT_RSTATE_HEAD,1,1)], by and_intros <;> first | decide +kernel | (constructor <;> decide +kernel)⟩,
   ⟨31, 1, 4095, w7q 20 [1,0] 0x503 [], by and_intros <;> first | decide +kernel | (constructor <;> decide +kernel)⟩,
   ⟨31, 1, 4095, w7q 20 [1,7] 0x503 [], by and_intros <;> first | decide +kernel | (constructor <;> decide +kernel)⟩,
   ⟨31, 1, 4095, set (w7q 20 [1,7] 0x504 []) [(H.SCAN_N,1,3000)], by and_intros <;> first | decide +kernel | (constructor <;> decide +kernel)⟩⟩

/-- What Obligations.DriveFaultsTurnPortOff assumes holds somewhere, clause by clause. -/
theorem wit_DriveFaultsTurnPortOff :
    (∃ (p : Nat) (s : State),
    p < 8 ∧
    let ons := s.get R.DRV_CFG_MODE p ≠ 0
    ons ∧ 2 ≤ s.get H.DP_OVN p ∧ s.get R.DRV_STAT_HWOFF p = 0) ∧
    (∃ (p : Nat) (s : State),
    p < 8 ∧
    let ons := s.get R.DRV_CFG_MODE p ≠ 0
    ons ∧ s.drvOff = false ∧ s.get R.DRV_STAT_HWOFF p = 0) ∧
    (∃ (p : Nat) (s : State),
    p < 8 ∧ 8 ≤ s.get R.DRV_STAT_ELL_CONSEC p ∧ s.get R.DRV_STAT_HWOFF p = 0) ∧
    (∃ (p : Nat) (s : State),
    p < 8 ∧ s.get R.DRV_STAT_CHOP p ≠ 0 ∧ s.get H.DP_CHS p = 0 ∧ 10 * s.get R.DRV_CHS_T p ≤ s.get H.DP_CHN p ∧
    s.get H.DP_CHV p + s.get R.DRV_CHOP_RISE p ≤ s.get R.DRV_VBUS p ∧ s.get R.DRV_STAT_CHOPF p = 0) ∧
    (∃ (p : Nat) (s : State),
    p < 8 ∧ 5 ≤ s.get R.DRV_STAT_ELL_CONSEC p) ∧
    (∃ (p : Nat) (s : State),
    p < 8 ∧ 16 ≤ s.get H.DP_MEAS p) :=
  ⟨⟨7, w8 [(H.DP_OVN,7,2)], by and_intros <;> decide +kernel⟩,
   ⟨7, w8 [(R.DRV_STAT_ELL_CONSEC,7,15)], by and_intros <;> decide +kernel⟩,
   ⟨7, w8 [(R.DRV_STAT_ELL_CONSEC,7,8)], by and_intros <;> decide +kernel⟩,
   ⟨7, w8 [(R.DRV_STAT_CHOP,7,1),(H.DP_CHN,7,300),(R.DRV_VBUS,7,700000),(R.DRV_CNT_CHOPF,7,0xFFFFFFFF),(R.DRV_CFG_MODE,2,2)], by and_intros <;> decide +kernel⟩,
   ⟨7, w8 [(R.DRV_STAT_ELL_CONSEC,7,8)], by and_intros <;> decide +kernel⟩,
   ⟨7, w8 [(R.DRV_STAT_ELL_CONSEC,7,5),(H.DP_MEAS,7,16),(R.DRV_STAT_TLIM_ELL,7,1)], by and_intros <;> decide +kernel⟩⟩

/-- What Obligations.DriveSamplesAndSteps assumes holds somewhere, clause by clause. -/
theorem wit_DriveSamplesAndSteps :
    (∃ (p q c : Nat) (s : State),
    p < 8 ∧ q < 16 ∧ c < 8 ∧ s.drvOff = false ∧ s.get H.CV_REFN ≠ 4999) ∧
    (∃ (p q c : Nat) (s : State),
    p < 8 ∧ q < 16 ∧ c < 8 ∧ s.get R.DRV_CFG_MODE p = 1 ∧ s.get R.DRV_STAT_HWOFF p = 0 ∧ s.get H.DP_START p < 3) ∧
    (∃ (p q c : Nat) (s : State),
    p < 8 ∧ q < 16 ∧ c < 8 ∧ s.get R.DRV_CFG_MODE p = 1 ∧ s.get R.DRV_STAT_HWOFF p = 0 ∧ s.get H.DP_START p = 4 ∧
    s.get H.DP_EN p ≠ 0 ∧ s.get H.DP_EVK p < s.evalN p ∧ s.get H.INJ_ELL p = 0 ∧ s.get H.DP_SMP p ≠ 0) ∧
    (∃ (p q c : Nat) (s : State),
    p < 8 ∧ q < 16 ∧ c < 8 ∧ s.get R.DRV_CFG_MODE p = 1 ∧ s.get R.DRV_STAT_HWOFF p = 0 ∧ s.get H.DP_START p = 4 ∧
    s.get H.DP_EN p ≠ 0 ∧ s.get H.DP_EVK p < s.evalN p ∧ s.get H.INJ_ELL p = 0 ∧ s.get H.DP_SMP p = 0) ∧
    (∃ (p q c : Nat) (s : State),
    p < 8 ∧ q < 16 ∧ c < 8 ∧
    let run := s.get R.DRV_CFG_MODE p = 2 ∧ s.get H.DP_START p = 4 ∧ s.get H.DP_EN p ≠ 0
    let valley := run ∧ s.get H.DP_EVK p < s.pwmN p
    valley ∧ (s.get H.INJ_ELL p ≠ 0 ∨ s.valleyRead p = false)) ∧
    (∃ (p q c : Nat) (s : State),
    p < 8 ∧ q < 16 ∧ c < 8 ∧
    let run := s.get R.DRV_CFG_MODE p = 2 ∧ s.get H.DP_START p = 4 ∧ s.get H.DP_EN p ≠ 0
    let valley := run ∧ s.get H.DP_EVK p < s.pwmN p
    valley ∧ s.get H.INJ_ELL p = 0 ∧ s.valleyRead p = true) ∧
    (∃ (p q c : Nat) (s : State),
    p < 8 ∧ q < 16 ∧ c < 8 ∧
    let run := s.get R.DRV_CFG_MODE p = 2 ∧ s.get H.DP_START p = 4 ∧ s.get H.DP_EN p ≠ 0
    run ∧ s.geti H.DP_RATE p ≠ 0 ∧ s.timeUp (s.dpStepAt p / 65536) = true) ∧
    (∃ (p q c : Nat) (s : State),
    p < 8 ∧ q < 16 ∧ c < 8 ∧
    let rate := s.geti R.PTG_RATE q
    rate ≠ 0 ∧ bit (s.get H.PT_REF q 3) 0 = true ∧ s.timeUp (s.ptStepAt q / 65536) = true) ∧
    (∃ (p q c : Nat) (s : State),
    p < 8 ∧ q < 16 ∧ c < 8 ∧ s.get R.DRV_CFG_MODE p = 2 ∧ s.geti H.DP_RATE p = 0 ∧ s.dpAxisIn p [4] = true ∧
    s.timeUp (s.get H.DP_NS p / 65536 + 1000000 * s.get R.DRV_ST_HOLD_T p) = true) ∧
    (∃ (p q c : Nat) (s : State) (a : Nat),
    p < 8 ∧ q < 16 ∧ c < 8 ∧ s.get R.DRV_CFG_MODE p = 2 ∧ 256 * s.get R.DRV_ST_SVMIN p ≤ (s.geti H.DP_RATE p).natAbs ∧
    s.get R.DRV_ST_SN p ≤ s.get H.DP_LAC p ∧ s.axisOfDp p = some a ∧ s.get R.HM_STAT_PHASE a = 0) ∧
    (∃ (p q c : Nat) (s : State),
    p < 8 ∧ q < 16 ∧ c < 8 ∧ s.get H.DP_LAC p < s.get R.DRV_ST_SN p) ∧
    (∃ (p q c ab : Nat) (d : Int) (s : State),
    p < 8 ∧ q < 16 ∧ c < 8 ∧ s.get R.DRV_ENC_CFG_EN c ≠ 0 ∧ s.drvOff = false ∧
    quadStep (s.get H.ENC_AB c) (ab % 4) = some d) ∧
    (∃ (p q c ab : Nat) (s : State),
    p < 8 ∧ q < 16 ∧ c < 8 ∧ s.get R.DRV_ENC_CFG_EN c ≠ 0 ∧ s.drvOff = false ∧
    quadStep (s.get H.ENC_AB c) (ab % 4) = none) :=
  ⟨⟨7, 15, 7, w8 [(H.CV_REFN,0,7)], by and_intros <;> decide +kernel⟩,
   ⟨7, 15, 7, w8 [], by and_intros <;> decide +kernel⟩,
   ⟨7, 15, 7, w8 [(R.DRV_CFG_MODE,7,1),(H.DP_START,7,4),(H.DP_EN,7,1),(H.DP_SMP,7,1),(H.DP_IS,7,0x9000)], by and_intros <;> decide +kernel⟩,
   ⟨7, 15, 7, w8 [(R.DRV_CFG_MODE,7,1),(H.DP_START,7,4),(H.DP_EN,7,1)], by and_intros <;> decide +kernel⟩,
   ⟨7, 15, 7, ((w8 [(R.DRV_CFG_MODE,7,2),(H.DP_START,7,4),(H.DP_EN,7,1),(R.DRV_STAT_ELL_CONSEC,7,4),(H.DP_HOLD,7,1),(R.DRV_ST_IHOLD,7,0x60000000)]).put H.DP_DUTY 65535 7 0).put H.DP_DUTY 65535 7 1, by and_intros <;> decide +kernel⟩,
   ⟨7, 15, 7, w8 [(R.DRV_CFG_MODE,7,2),(H.DP_START,7,4),(H.DP_EN,7,1),(R.DRV_STAT_ELL_CONSEC,7,3),(R.DRV_MSTEP,7,0xFFFFFFFF),(R.DRV_ST_IRUN,7,0x7FFFFFFF)], by and_intros <;> decide +kernel⟩,
   ⟨7, 15, 7, w8 [(R.DRV_CFG_MODE,7,2),(H.DP_START,7,4),(H.DP_EN,7,1),(H.INJ_ELL,7,1),(H.DP_RATE,7,0xFFFFFFFF),(R.DRV_STAT_RES,7,5),(H.DP_HOLD,7,1),(R.DCK_TIME,0,2^62)], by and_intros <;> decide +kernel⟩,
   ⟨7, 15, 7, ((w8 [(R.PTG_RATE,15,0xFFFFFFFF),(R.DCK_TIME,0,2^62)]).put H.PT_REF 1 15 3), by and_intros <;> decide +kernel⟩,
   ⟨7, 15, 7, w8 [(R.DRV_CFG_MODE,7,2),(R.DCK_TIME,0,2^62)], by and_intros <;> decide +kernel⟩,
   ⟨7, 15, 7, w8 [(R.DRV_CFG_MODE,7,2),(H.DP_START,7,4),(H.DP_EN,7,1),(R.DRV_STAT_ELL_CONSEC,7,3),(H.DP_RATE,7,0x7FFFFFFF),(H.DP_HOLD,7,1),(H.DP_LAC,7,3),(R.DRV_ST_SN,7,3)], 200, by and_intros <;> decide +kernel⟩,
   ⟨7, 15, 7, w8 [(R.DRV_CFG_MODE,7,2),(H.DP_RATE,7,0x7FFFFFFF),(H.DP_LAC,7,2),(R.DRV_ST_SN,7,3)], by and_intros <;> decide +kernel⟩,
   ⟨7, 15, 7, 2, -1, w8 [(R.DRV_CFG_MODE,7,2),(R.DRV_ENC_CFG_EN,7,1),(H.ENC_AB,7,0)], by and_intros <;> decide +kernel⟩,
   ⟨7, 15, 7, 7, w8 [(R.DRV_CFG_MODE,7,2),(R.DRV_ENC_CFG_EN,7,1),(H.ENC_AB,7,0),(R.DRV_ENC_CNT,7,0xFFFFFFFF)], by and_intros <;> decide +kernel⟩⟩

/-- What Obligations.DriveStartsAndRequests assumes holds somewhere, clause by clause. -/
theorem wit_DriveStartsAndRequests :
    (∃ (p o0 o1 o2 o3 : Nat) (s : State),
    p < 8 ∧
    let near := fun (j o : Nat) => (1024 * sext 16 o - s.geti H.DP_CALS p j).natAbs < 1024
    s.get R.DRV_CFG_MODE p ≠ 0 ∧ s.get R.DRV_STAT_CAL_OK p = 0 ∧ 1024 ≤ s.get H.DP_CALN p ∧ near 0 o0 ∧ near 1 o1 ∧
    near 2 o2 ∧ near 3 o3) ∧
    (∃ (p : Nat) (fe : Int) (s : State),
    p < 8 ∧
    let ready := s.get R.DRV_CFG_MODE p = 1 ∧ s.dpAxisIn p [3] = true
    ready ∧ s.get H.DP_START p = 1 ∧ 420 ≤ s.get H.DP_STN p ∧ fe.natAbs ≤ s.get R.DRV_CATCH p) ∧
    (∃ (p : Nat) (fe : Int) (s : State),
    p < 8 ∧
    let ready := s.get R.DRV_CFG_MODE p = 1 ∧ s.dpAxisIn p [3] = true
    ready ∧ s.get H.DP_START p = 1 ∧ 420 ≤ s.get H.DP_STN p ∧ s.get R.DRV_CATCH p < fe.natAbs ∧
    decide (fe < 0) ≠ s.on R.DRV_CFG_CATCHDIR p) ∧
    (∃ (p : Nat) (fe : Int) (s : State),
    p < 8 ∧
    let ready := s.get R.DRV_CFG_MODE p = 1 ∧ s.dpAxisIn p [3] = true
    ready ∧ s.get H.DP_START p = 1 ∧ 420 ≤ s.get H.DP_STN p ∧ s.get R.DRV_CATCH p < fe.natAbs ∧
    decide (fe < 0) = s.on R.DRV_CFG_CATCHDIR p) ∧
    (∃ (p : Nat) (s : State),
    p < 8 ∧
    let ready := s.get R.DRV_CFG_MODE p = 1 ∧ s.dpAxisIn p [3] = true
    ready ∧ s.get H.DP_START p = 2 ∧ s.pulseOver p 0 = true ∧ s.get H.DP_PLSF p = 0) ∧
    (∃ (p peak : Nat) (s : State),
    p < 8 ∧
    let ready := s.get R.DRV_CFG_MODE p = 1 ∧ s.dpAxisIn p [3] = true
    ready ∧ s.get H.DP_START p = 2 ∧ s.pulseOver p peak = true ∧ s.get H.DP_PLS p + 1 < s.pulseN p) ∧
    (∃ (p k v w : Nat) (s : State),
    p < 8 ∧
    let near := fun (j o : Nat) => (1024 * sext 16 o - s.geti H.DP_CALS p j).natAbs < 1024
    s.lopOf 0x0702 p = some k ∧ s.get R.LOP_ID_STATUS k = 1 ∧ s.waits = [] ∧ s.get H.DP_CALF p = 1 ∧
    s.get H.DP_CALN p = 1024 ∧ near 0 v ∧ near 1 (v / 65536) ∧ near 2 w ∧ near 3 (w / 65536)) ∧
    (∃ (p k : Nat) (s : State),
    p < 8 ∧ s.lopOf 0x0702 p = some k ∧ s.get R.LOP_ID_STATUS k = 1 ∧ s.waits = [] ∧ s.get H.DP_CALF p = 2 ∧
    s.timeUp (s.get H.DP_CALT0 p + 200000000) = true) ∧
    (∃ (p k : Nat) (s : State),
    p < 8 ∧ s.lopOf 0x0702 p = some k ∧ s.get R.LOP_ID_STATUS k = 1 ∧ s.waits = [] ∧ s.get H.DP_CALF p = 4 ∧
    s.get H.DP_PLS p = 24) ∧
    (∃ (mb p : Nat) (s : State),
    p < 8 ∧
    let i := s.par mb 0 4
    Ready s mb 0x0703 4 ∧ i < 8 ∧ ((s.busPorts i).any fun q => s.on R.DRV_STAT_CHOP q && !s.on H.DP_CHSL q) = false) ∧
    (∃ (mb p k : Nat) (s : State),
    p < 8 ∧
    let i := s.par mb 0 4
    let x := s.par mb 4 4
    Ready s mb 0x0702 8 ∧ i < 8 ∧ s.calMay i = true ∧ s.lopOf 0x0702 i = none ∧ s.lopSlot = some k ∧ x % 8 ≠ 0) ∧
    (∃ (mb p : Nat) (s : State),
    p < 8 ∧
    let i := s.par mb 0 4
    let x := s.par mb 4 4
    let n := clampN 1 32 (s.par mb 8 4)
    Ready s mb 0x0700 (12 + 4 * n) ∧ i < 8 ∧ x / 4 + n ≤ 32 ∧ s.portActive (0x10 + i) = false ∧
    (x / 4 = 0 ∧ bits (s.par mb 12 4) 12 4 ≠ s.get R.DRV_CFG_ENC i → s.encClash (bits (s.par mb 12 4) 12 4) = false)) ∧
    (∃ (mb p : Nat) (s : State),
    p < 8 ∧
    let i := s.par mb 0 4
    let x := s.par mb 4 4
    Ready s mb 0x0701 16 ∧ i < 16 ∧ s.portActive (0x20 + i) = false ∧
    (bits x 4 4 ≠ s.get R.PTG_CFG_ENC i → s.encClash (bits x 4 4) = false)) ∧
    (∃ (mb p : Nat) (s : State),
    p < 8 ∧
    let i := s.par mb 0 4
    let x := s.par mb 4 4
    Ready s mb 0x0704 8 ∧ i < 8 ∧ s.encActive i = false ∧
    ((List.range 16).any fun pin => encUses x pin && s.trgTaken pin) = false) :=
  ⟨⟨7, 4, 0, 0, 0, w8 [(H.DP_CALN,7,1024),(H.DP_CALS,7,3584)], by and_intros <;> decide +kernel⟩,
   ⟨7, -5, w8 [(R.AXS_STATUS_STATE,200,3),(H.DP_START,7,1),(H.DP_STN,7,420)], by and_intros <;> decide +kernel⟩,
   ⟨7, -100000, w8 [(R.AXS_STATUS_STATE,200,3),(H.DP_START,7,1),(H.DP_STN,7,420),(R.DRV_CATCH,7,99999)], by and_intros <;> decide +kernel⟩,
   ⟨7, 100000, w8 [(R.AXS_STATUS_STATE,200,3),(H.DP_START,7,1),(H.DP_STN,7,421),(R.DRV_CATCH,7,99999)], by and_intros <;> decide +kernel⟩,
   ⟨7, w8 [(R.AXS_STATUS_STATE,200,3),(H.DP_START,7,2),(H.DP_STN,7,65535)], by and_intros <;> decide +kernel⟩,
   ⟨7, 0xFFFF, w8 [(R.AXS_STATUS_STATE,200,3),(H.DP_START,7,2)], by and_intros <;> decide +kernel⟩,
   ⟨7, 31, 3, 0, w8 [(R.LOP_ID_HANDLE,31,9),(R.LOP_OBJ_OPCODE,31,0x702),(R.LOP_OBJ_INDEX,31,7),(R.LOP_ID_STATUS,31,1),(H.DP_CALF,7,1),(H.DP_CALN,7,1024),(H.DP_CALS,7,3584)], by and_intros <;> decide +kernel⟩,
   ⟨7, 31, w8 [(R.LOP_ID_HANDLE,31,9),(R.LOP_OBJ_OPCODE,31,0x702),(R.LOP_OBJ_INDEX,31,7),(R.LOP_ID_STATUS,31,1),(H.DP_CALF,7,2),(R.DCK_TIME,0,2^62)], by and_intros <;> decide +kernel⟩,
   ⟨7, 31, w8 [(R.LOP_ID_HANDLE,31,9),(R.LOP_OBJ_OPCODE,31,0x702),(R.LOP_OBJ_INDEX,31,7),(R.LOP_ID_STATUS,31,1),(H.DP_CALF,7,4),(H.DP_PLS,7,24)], by and_intros <;> decide +kernel⟩,
   ⟨31, 7, w8q 0x703 [7] 4 [(R.DRV_CFG_MODE,3,1),(R.DRV_CFG_BUSGRP,3,7),(R.DRV_STAT_CHOPF,3,1)], by and_intros <;> first | decide +kernel | (constructor <;> decide +kernel)⟩,
   ⟨31, 7, 0, w8q 0x702 [7,15] 8 [(R.AXS_STATUS_STATE,200,1),(H.AX_BIND,200,0x17)], by and_intros <;> first | decide +kernel | (constructor <;> decide +kernel)⟩,
   ⟨31, 7, w8q 0x700 [7,27*4,5,1,2,3,4,5] 40 [], by and_intros <;> first | decide +kernel | (constructor <;> decide +kernel)⟩,
   ⟨31, 7, w8q 0x701 [15,1,2,0xFFFFFFFF] 16 [], by and_intros <;> first | decide +kernel | (constructor <;> decide +kernel)⟩,
   ⟨31, 7, w8q 0x704 [7,0xFFFFFFFF] 8 [], by and_intros <;> first | decide +kernel | (constructor <;> decide +kernel)⟩⟩

/-- What Obligations.OutputWritesSkipForeignChannels assumes holds somewhere, clause by clause. -/
theorem wit_OutputWritesSkipForeignChannels :
    (∃ (mask : Nat) (s : State),
    mask < 2 ^ 32 ∧ HostWord s 0xC0020) ∧
    (∃ (mask : Nat) (s : State),
    mask < 2 ^ 32 ∧ HostWord s 0xC0024) :=
  ⟨⟨0x88, w9 [], by and_intros <;> first | decide +kernel | (constructor <;> decide +kernel)⟩,
   ⟨0x88, w9 [], by and_intros <;> first | decide +kernel | (constructor <;> decide +kernel)⟩⟩

/-- What Obligations.FieldLinkCycle assumes holds somewhere, clause by clause. -/
theorem wit_FieldLinkCycle :
    (∃ (t₀ : Nat),
    t₀ % 10000 = 0) ∧
    (∃ (s : State),
    let live := s.get H.FIO_LIVE ≠ 0
    live ∧ s.domDown 2 = false ∧ s.get H.INJ_REFT = 0 ∧ s.get H.INJ_REFN = 0 ∧ s.waits = []) ∧
    (∃ (s : State) (c : Nat),
    let live := s.get H.FIO_LIVE ≠ 0
    live ∧ c < 32 ∧ s.get R.FIO_CFG_DIR c = 0 ∧ s.get R.FIO_CFG_FILT c = 0 ∧ s.get R.FIO_GRP_STAT_UV (c / 8) = 0 ∧
    s.get H.FIO_CONFD ≠ 0) ∧
    (∃ (s : State),
    let live := s.get H.FIO_LIVE ≠ 0
    live ∧ s.get H.FIO_CONFD ≠ 0 ∧ s.get H.FIO_SILD = 0 ∧
    s.timeUp (s.get H.FIO_VT + 950000 * s.get R.FIO_GCFG_SIL_TO) = true) ∧
    (∃ (s : State),
    3 ≤ s.get H.FIO_MISS ∧ s.get R.FIO_LINK_STATE ≠ 0) ∧
    (∃ (s : State),
    s.get H.FIO_LIVE = 0) :=
  ⟨⟨10000, by decide +kernel⟩,
   ⟨w9 [(H.FIO_LIVE,0,1),(H.FIO_CONFD,0,1),(H.FIO_CMDX,0,0xFF),(H.FIO_CMDR,0,0x88),(R.FIO_CFG_SAFE,7,2)], by and_intros <;> decide +kernel⟩,
   ⟨w9 [(H.FIO_LIVE,0,1),(H.FIO_CONFD,0,1),(R.FIO_CSTAT_CNT,4,1),(R.FIO_CFG_THR,4,1)], 4, by and_intros <;> decide +kernel⟩,
   ⟨w9 [(H.FIO_LIVE,0,1),(H.FIO_CONFD,0,1),(H.FIO_CMDX,0,0xFF),(H.FIO_CMDR,0,0x88),(R.FIO_CFG_SAFE,7,2),(R.DCK_TIME,0,2^62)], by and_intros <;> decide +kernel⟩,
   ⟨w9 [(H.FIO_LIVE,0,1),(H.FIO_SILD,0,1),(H.FIO_CMDR,0,0x88),(H.FIO_MISS,0,3),(R.FIO_LINK_STATE,0,1),(R.FIO_CSTAT_VALID,0,1),(R.FIO_VALID,0,0xFF)], by and_intros <;> decide +kernel⟩,
   ⟨w9 [], by decide +kernel⟩⟩

/-- What Obligations.FieldInputsAndSupplies assumes holds somewhere, clause by clause. -/
theorem wit_FieldInputsAndSupplies :
    (∃ (c g : Nat) (s : State),
    c < 32 ∧ g < 4 ∧
    let out := bit (s.get H.FIO_OUTF) c
    s.get R.FIO_CFG_DIR c = 0 ∧ s.get R.FIO_CFG_FILT c = 0 ∧ s.get R.FIO_CFG_THR c ≤ s.get R.FIO_CSTAT_CNT c ∧
    out = false) ∧
    (∃ (c g : Nat) (s : State),
    c < 32 ∧ g < 4 ∧
    let out := bit (s.get H.FIO_OUTF) c
    s.get R.FIO_CFG_DIR c = 0 ∧ s.get R.FIO_CFG_FILT c = 0 ∧ s.get R.FIO_CSTAT_CNT c = 0 ∧ out = true) ∧
    (∃ (c g : Nat) (lvl : Bool) (s : State),
    c < 32 ∧ g < 4 ∧
    let out := bit (s.get H.FIO_OUTF) c
    c < 8 ∧ s.get R.FIO_CFG_DIR c = 0 ∧ s.get R.FIO_CFG_FILT c ≠ 0 ∧ s.get R.FIO_GRP_STAT_UV 0 = 0 ∧ out ≠ lvl) ∧
    (∃ (c g : Nat) (s : State),
    c < 32 ∧ g < 4 ∧ s.get R.FIO_CFG_WB c ≠ 0 ∧ s.get R.FIO_CSTAT_WB c = 0 ∧ 2001 ≤ s.get H.FIO_WBL c) ∧
    (∃ (c g : Nat) (s : State),
    c < 32 ∧ g < 4 ∧ s.get R.FIO_CSTAT_WB c ≠ 0 ∧ 2001 ≤ s.get H.FIO_WBH c) ∧
    (∃ (c g : Nat) (s : State),
    c < 32 ∧ g < 4 ∧ s.get H.INJ_TRIM c = 0) ∧
    (∃ (c g : Nat) (s : State),
    c < 32 ∧ g < 4 ∧ s.get R.FIO_GRP_STAT_WARN g = 0 ∧ 102 ≤ s.get H.FIO_GL g) ∧
    (∃ (c g : Nat) (s : State),
    c < 32 ∧ g < 4 ∧ 102 ≤ s.get H.FIO_GH g) ∧
    (∃ (c g : Nat) (s : State),
    c < 32 ∧ g < 4 ∧ s.get R.FIO_GRP_STAT_UV g = 0 ∧ 2 ≤ s.get H.FIO_UVL g) ∧
    (∃ (c g : Nat) (s : State),
    c < 32 ∧ g < 4 ∧ s.get R.FIO_GRP_STAT_UV g ≠ 0 ∧ 2001 ≤ s.get H.FIO_REC g) :=
  ⟨⟨31, 3, w9 [(R.FIO_CFG_DIR,31,0),(R.FIO_CSTAT_CNT,31,3)], by and_intros <;> decide +kernel⟩,
   ⟨31, 3, w9 [(R.FIO_CFG_DIR,31,0),(H.FIO_OUTF,0,0x80000000)], by and_intros <;> decide +kernel⟩,
   ⟨5, 3, true, w9 [(R.FIO_CFG_FILT,5,1),(R.TRJ_CFG_HOME,9,5),(R.AXS_STATUS_STATE,9,4)], by and_intros <;> decide +kernel⟩,
   ⟨31, 3, w9 [(R.FIO_CFG_WB,31,1),(H.FIO_WBL,31,2001),(R.FIO_CSTAT_VALID,31,1)], by and_intros <;> decide +kernel⟩,
   ⟨31, 3, w9 [(R.FIO_CSTAT_WB,31,1),(H.FIO_WBH,31,2001)], by and_intros <;> decide +kernel⟩,
   ⟨31, 3, w9 [(R.FIO_CFG_DIR,31,0),(R.FIO_CSTAT_CNT,31,3)], by and_intros <;> decide +kernel⟩,
   ⟨31, 3, w9 [(H.FIO_GL,3,102)], by and_intros <;> decide +kernel⟩,
   ⟨31, 3, w9 [(H.FIO_GL,3,102),(H.FIO_GH,3,102),(R.FIO_GRP_STAT_WARN,3,1)], by and_intros <;> decide +kernel⟩,
   ⟨31, 3, w9 [(H.FIO_UVL,3,2)], by and_intros <;> decide +kernel⟩,
   ⟨31, 3, w9 [(R.FIO_GRP_STAT_UV,3,1),(H.FIO_REC,3,2001),(R.FIO_CFG_AUTO,31,1),(R.FIO_CSTAT_UVOFF,31,1)], by and_intros <;> decide +kernel⟩⟩

/-- What Obligations.FieldOutputsAndRequests assumes holds somewhere, clause by clause. -/
theorem wit_FieldOutputsAndRequests :
    (∃ (c g : Nat) (s : State),
    c < 32 ∧ g < 4 ∧ s.get R.FIO_CFG_DIR c ≠ 0 ∧ s.get R.FIO_CSTAT_EXT c = 0 ∧ s.fioWants c = false ∧
    3 ≤ s.get H.FIO_RBH c ∧ s.get H.FIO_CHG c + 200000 ≤ s.get H.FIO_TT) ∧
    (∃ (c g : Nat) (s : State),
    c < 32 ∧ g < 4 ∧ 3 ≤ s.get H.FIO_RBL c) ∧
    (∃ (c g : Nat) (s : State),
    c < 32 ∧ g < 4 ∧ s.safeCh c = false ∧ s.get R.FIO_CFG_TP c ≠ 0 ∧ s.get R.FIO_CFG_DIR c ≠ 0 ∧ s.fioOn c = true ∧
    s.get H.FIO_SILD = 0 ∧ s.tpStarts c (s.get H.FIO_TT) = true) ∧
    (∃ (c g : Nat) (s : State),
    c < 32 ∧ g < 4 ∧ s.safeCh c = false ∧ bit (s.get H.FIO_TPA) c = true ∧ bit (s.get H.FIO_TPD) c = false ∧
    s.tpLast c (s.get H.FIO_TT) = true ∧ s.get H.INJ_RBT c = 0) ∧
    (∃ (c g : Nat) (s : State),
    c < 32 ∧ g < 4 ∧ s.get R.FIO_CFG_DIR c ≠ 0 ∧ s.get R.FIO_CSTAT_TSD c = 0) ∧
    (∃ (c g : Nat) (s : State),
    c < 32 ∧ g < 4 ∧ s.get R.FIO_GRP_STAT_OC g = 0 ∧ 2001 ≤ s.get H.FIO_OCC g) ∧
    (∃ (c g mb : Nat) (s : State),
    c < 32 ∧ g < 4 ∧
    let k := s.par mb 0 4 / 4
    let n := clampN 1 64 (s.par mb 4 4)
    Ready s mb 0x0800 (8 + 4 * n) ∧ k + n ≤ 320 ∧ (∀ i < n, s.fioRefuse (k + i) (s.par mb (8 + 4 * i) 4) = 0)) ∧
    (∃ (c g mb : Nat) (s : State),
    c < 32 ∧ g < 4 ∧
    let mask := s.par mb 0 4
    let cyc := s.par mb 8 8
    Ready s mb 0x0801 16 ∧ (∀ x < 32, bit mask x = true → s.fioOwner x = 0 ∧ s.get R.FIO_CFG_DIR x ≠ 0) ∧ cyc = 0) ∧
    (∃ (c g mb : Nat) (s : State),
    c < 32 ∧ g < 4 ∧
    let mask := s.par mb 0 4
    let cyc := s.par mb 8 8
    Ready s mb 0x0801 16 ∧ (∀ x < 32, bit mask x = true → s.fioOwner x = 0 ∧ s.get R.FIO_CFG_DIR x ≠ 0) ∧
    s.get H.BND_N < cyc) ∧
    (∃ (c g mb : Nat) (s : State),
    c < 32 ∧ g < 4 ∧
    let mask := s.par mb 0 4
    Ready s mb 0x0802 8 ∧ (∀ x < 32, bit mask x = true → s.safeCh x = false)) :=
  ⟨⟨31, 3, w9 [(H.FIO_RBH,31,3),(H.FIO_TT,0,300000),(H.FIO_CHG,31,100000)], by and_intros <;> decide +kernel⟩,
   ⟨31, 3, w9 [(H.FIO_RBL,31,3),(R.FIO_CSTAT_EXT,31,1)], by and_intros <;> decide +kernel⟩,
   ⟨0, 0, w9 [(R.FIO_CFG_TP,0,1),(R.FIO_CFG_DIR,0,1),(H.FIO_CMDX,0,0x81),(H.FIO_LIVE,0,1),(H.FIO_CONFD,0,1)], by and_intros <;> decide +kernel⟩,
   ⟨7, 0, w9 [(R.FIO_CFG_TP,7,1),(H.FIO_CMDX,0,0x80),(H.FIO_LIVE,0,1),(H.FIO_TPX,0,0x80),(H.FIO_TPA,0,0x80),(H.FIO_TT,0,10000000)], by and_intros <;> decide +kernel⟩,
   ⟨31, 3, w9 [(H.FIO_RBH,31,3),(H.FIO_TT,0,300000),(H.FIO_CHG,31,100000)], by and_intros <;> decide +kernel⟩,
   ⟨31, 3, w9 [(H.FIO_OCC,3,2001)], by and_intros <;> decide +kernel⟩,
   ⟨31, 3, 31, w9q 0x800 [0x100,2,0x00FF0001,5] [], by and_intros <;> first | decide +kernel | (constructor <;> decide +kernel)⟩,
   ⟨31, 3, 31, w9q 0x801 [0x88,0x80,0,0] [(R.FIO_OUT_CMD,0,0xF00)], by and_intros <;> first | decide +kernel | (constructor <;> decide +kernel)⟩,
   ⟨31, 3, 31, w9q 0x801 [0x88,0x80,1,0] [(R.FIO_OUT_CMD,0,0xF00)], by and_intros <;> first | decide +kernel | (constructor <;> decide +kernel)⟩,
   ⟨31, 3, 31, w9q 0x802 [0x88,0x80] [], by and_intros <;> first | decide +kernel | (constructor <;> decide +kernel)⟩⟩

/-- What Obligations.SafetyCoreEvaluates assumes holds somewhere, clause by clause. -/
theorem wit_SafetyCoreEvaluates :
    (∃ (j k g r i : Nat) (s : State),
    k < 4 ∧ g < 16 ∧ r < 2 ∧ i < 256 ∧
    let up := s.domDown 3 = false
    up ∧ s.get H.SC_HALT = 0 ∧ s.waits = [] ∧ s.get H.INJ_WD = 0 ∧ s.get H.INJ_SC = 0 ∧ s.get H.SAF_NEWP = 0 ∧
    s.get R.SAF_SIN_CFG_EN k ≠ 0 ∧ s.get H.SAF_RET = 0 ∧ s.get H.INJ_PMS k = 0 ∧ s.get H.INJ_PT k = 0 ∧
    s.get H.SAF_J ≠ j + 1) ∧
    (∃ (j k g r i : Nat) (s : State),
    k < 4 ∧ g < 16 ∧ r < 2 ∧ i < 256 ∧
    let up := s.domDown 3 = false
    up ∧ s.get H.SC_HALT = 0 ∧ s.waits = [] ∧ s.get H.SAF_J = j + 1) ∧
    (∃ (k g r i : Nat) (s : State),
    k < 4 ∧ g < 16 ∧ r < 2 ∧ i < 256 ∧ s.get R.SAF_SIN_CFG_EN k ≠ 0 ∧ s.get R.SAF_SIN_STAT_WIN k ≠ 0 ∧
    8 * s.get R.SAF_SIN_CFG_DISC k ≤ s.get R.SAF_SIN_STAT_WCNT k) ∧
    (∃ (k g r i : Nat) (s : State),
    k < 4 ∧ g < 16 ∧ r < 2 ∧ i < 256 ∧ bit (s.get R.SAF_SG_DEM) g = true ∧ s.get R.SAF_SG_CFG_FUNC g ≠ 0 ∧
    s.get H.SAF_OWN g ≠ 0 ∧ s.get H.SAF_OWN g - 1 + s.get R.SAF_SG_T_SS1 g * 1000000 ≤ s.now) ∧
    (∃ (k g r i : Nat) (s : State),
    k < 4 ∧ g < 16 ∧ r < 2 ∧ i < 256 ∧
    let up := s.domDown 3 = false
    up ∧ s.get H.SAF_WDD = 0 ∧ (s.get H.SAF_J = 0 ∨ s.timeUp ((s.get H.SAF_J - 1) * 125000 + 150000) = true)) ∧
    (∃ (k g r i : Nat) (s : State),
    k < 4 ∧ g < 16 ∧ r < 2 ∧ i < 256 ∧ s.get H.SAF_J ≠ 0 ∧ s.timeUp ((s.get H.SAF_J - 1) * 125000 + 150000) = false) ∧
    (∃ (k g c r i : Nat) (bytes : List Nat) (s : State),
    k < 4 ∧ g < 16 ∧ r < 2 ∧ i < 256 ∧
    let b := (bytes.take 16).map (· % 256)
    let up := s.domDown 3 = false
    let conn1 := up ∧ s.conn c 1 = true ∧ s.get R.SAF_CONN_STAT_STATE c = 2
    conn1 ∧ 16 ≤ bytes.length ∧ s.get H.INJ_CN c = 0 ∧ s.get H.INJ_CNT c ≤ s.now ∧ cCrcOk b = true ∧
    cId b = s.get R.SAF_CONN_ID c ∧ cCnum b = cnumNext (s.get R.SAF_CONN_STAT_CNUM c)) ∧
    (∃ (k g c r i : Nat) (bytes : List Nat) (s : State),
    k < 4 ∧ g < 16 ∧ r < 2 ∧ i < 256 ∧
    let b := (bytes.take 16).map (· % 256)
    let up := s.domDown 3 = false
    let conn1 := up ∧ s.conn c 1 = true ∧ s.get R.SAF_CONN_STAT_STATE c = 2
    conn1 ∧ 16 ≤ bytes.length ∧ s.get H.INJ_CN c = 0 ∧ s.get H.INJ_CNT c ≤ s.now ∧ b.all (· == 0) = true) ∧
    (∃ (k g c r i : Nat) (s : State),
    k < 4 ∧ g < 16 ∧ r < 2 ∧ i < 256 ∧
    let up := s.domDown 3 = false
    let conn1 := up ∧ s.conn c 1 = true ∧ s.get R.SAF_CONN_STAT_STATE c = 2
    conn1 ∧ s.timeUp (s.get H.CN_T c + 1000000 * s.get R.SAF_CONN_WD c) = true) ∧
    (∃ (k g r i a : Nat) (s : State),
    k < 4 ∧ g < 16 ∧ r < 2 ∧ i < 256 ∧
    let heads := s.get R.NRT_RSTATE_STATE r = 4 ∧ s.get R.NRT_RSTATE_HEAD r ≠ 0
    heads ∧ i < s.get R.NRT_RCFG2_NSLOT r ∧ s.axisOfSlot r i = some a ∧ s.get H.CM_BAD (256 * r + i) = 0 ∧
    s.slotSize r ≤ 64) ∧
    (∃ (k g c r i : Nat) (s : State),
    k < 4 ∧ g < 16 ∧ r < 2 ∧ i < 256 ∧
    let up := s.domDown 3 = false
    let heads := s.get R.NRT_RSTATE_STATE r = 4 ∧ s.get R.NRT_RSTATE_HEAD r ≠ 0
    heads ∧ i < 64 ∧ i < s.get R.NRT_RCFG2_NZHV r ∧ up ∧ s.get H.SAF_WDD = 0 ∧
    ((List.range 64).find? fun x => s.conn x 0 && s.get R.SAF_CONN_CFG_RING x == r && s.get R.SAF_CONN_CFG_CONT x == i) = some c ∧
    s.get H.INJ_CN c = 0 ∧ s.get H.INJ_CNT c ≤ s.now) :=
  ⟨⟨8, 3, 15, 1, 255, w10 ([(R.SAF_SIN_CFG_EN,3,1),(R.SAF_SG_CFG_EN,15,1),(R.SAF_SG_CFG_SRC_SIN,15,15),(R.SAF_SG_DEM,0,0),(R.SAF_SIN_STAT_DEMAND,3,0),(R.SAF_STATUS_STATE,0,1),(H.SAF_CONF,0,1)]), by and_intros <;> decide +kernel⟩,
   ⟨8, 3, 15, 1, 255, w10 ([(H.SAF_J,0,9),(H.SAF_REL,0,1),(H.SAF_PREL,0,3)]), by and_intros <;> decide +kernel⟩,
   ⟨3, 15, 1, 255, w10 ([(R.SAF_SIN_CFG_EN,3,1),(R.SAF_SIN_STAT_WIN,3,1),(R.SAF_SIN_STAT_WCNT,3,80)]), by and_intros <;> decide +kernel⟩,
   ⟨3, 15, 1, 255, w10 ([(R.SAF_SG_CFG_FUNC,15,1),(H.SAF_OWN,15,1),(R.SAF_SG_DEM,0,0x8000),(R.DCK_TIME,0,2^62)]), by and_intros <;> decide +kernel⟩,
   ⟨3, 15, 1, 255, w10 [(H.SAF_J,0,9),(R.DCK_TIME,0,1150000)], by and_intros <;> decide +kernel⟩,
   ⟨3, 15, 1, 255, w10 [(H.SAF_J,0,9),(R.DCK_TIME,0,1149999)], by and_intros <;> decide +kernel⟩,
   ⟨3, 15, 63, 1, 255, container 0x1234567890 1 9, w10 (w10c ++ []), by and_intros <;> decide +kernel⟩,
   ⟨3, 15, 63, 1, 255, List.replicate 16 0, w10 (w10c ++ []), by and_intros <;> decide +kernel⟩,
   ⟨3, 15, 63, 1, 255, w10 (w10c ++ [(R.DCK_TIME,0,2^62)]), by and_intros <;> decide +kernel⟩,
   ⟨3, 15, 1, 255, 200, w10 (w10a ++ []), by and_intros <;> decide +kernel⟩,
   ⟨3, 15, 63, 1, 63, w10 (w10a ++ [(R.SAF_CONN_CFG_EN,63,1),(R.SAF_CONN_CFG_RING,63,1),(R.SAF_CONN_CFG_CONT,63,63),(R.SAF_CONN_ID,63,9),(H.CN_SD,63,0x1234567890ABCDEF)]), by and_intros <;> decide +kernel⟩⟩

/-- What Obligations.FullStopAndSafeOutputs assumes holds somewhere, clause by clause. -/
theorem wit_FullStopAndSafeOutputs :
    (∃ (k : Nat) (s : State),
    k < 4 ∧ s.waits = [] ∧ s.domDown 3 = false ∧ s.inFullStop = false) ∧
    (∃ (k : Nat) (s : State),
    k < 4 ∧ s.waits = [] ∧ s.domDown 3 = false ∧ s.inFullStop = true ∧ s.get H.REL_ON ≠ 0) ∧
    (∃ (mb k : Nat) (s : State),
    k < 4 ∧ s.waits = [] ∧ Ready s mb 0x0904 0 ∧ s.inFullStop = false) ∧
    (∃ (mb k : Nat) (s : State),
    k < 4 ∧ s.waits = [] ∧ Ready s mb 0x0905 0 ∧ s.inFullStop = false) ∧
    (∃ (mb k : Nat) (s : State),
    k < 4 ∧ s.waits = [] ∧ Ready s mb 0x0905 0 ∧ s.inFullStop = true ∧ s.fsHeld = true) ∧
    (∃ (mb k : Nat) (s : State),
    k < 4 ∧ s.waits = [] ∧ Ready s mb 0x0905 0 ∧ s.inFullStop = true ∧ s.fsHeld = false) ∧
    (∃ (k : Nat) (s : State),
    k < 4 ∧ s.waits = [] ∧ s.get H.REL_ON ≠ 0 ∧ s.fsHeld = false ∧ s.timeUp (s.get H.REL_L + 1000000) = true ∧
    s.now ≤ s.get H.REL_T + 100000000) ∧
    (∃ (k : Nat) (s : State),
    k < 4 ∧ s.waits = [] ∧ s.get H.REL_ON ≠ 0 ∧ s.timeUp (s.get H.REL_T + 100000000) = true) ∧
    (∃ (k : Nat) (s : State),
    k < 4 ∧ s.waits = [] ∧
    let up := s.domDown 3 = false ∧ s.get H.SAF_WDD = 0
    let out := s.isSX = true ∧ s.get R.SAF_SO_CFG_EN k ≠ 0
    let p := s.get H.SO_PRF k
    out ∧ up ∧ p = 0 ∧ s.get H.SO_WANT k ≠ 0 ∧ s.get R.SAF_SO_STAT_PROOF_OK k ≠ 0 ∧ s.get R.SAF_SO_STAT_FAULT k = 0 ∧
    s.get H.SO_LIVE k ≠ 0 ∧ s.soSlotStarts k (s.get H.FIO_TT) = true) ∧
    (∃ (k : Nat) (s : State),
    k < 4 ∧ s.waits = [] ∧
    let out := s.isSX = true ∧ s.get R.SAF_SO_CFG_EN k ≠ 0
    out ∧ s.get H.SO_SLT k + 10000 * s.get R.SAF_TP_WIDTH ≤ s.get H.FIO_TT ∧ s.get H.SO_TPD k ≠ 0 ∧
    s.get H.SO_CUT k = 0 ∧ s.get R.SAF_SO_STAT_FAULT k = 0 ∧ s.get H.INJ_SO k = 0 ∧
    (∀ m < 4, m ≠ k → s.get R.SAF_SO_STAT_ON m = 0)) ∧
    (∃ (k : Nat) (rb se : Bool) (s : State),
    k < 4 ∧ s.waits = [] ∧
    let up := s.domDown 3 = false ∧ s.get H.SAF_WDD = 0
    let out := s.isSX = true ∧ s.get R.SAF_SO_CFG_EN k ≠ 0
    let p := s.get H.SO_PRF k
    out ∧ up ∧ s.get H.INJ_SO k = 0 ∧ s.timeUp (s.get H.SO_PRT k + s.proofNs p) = true ∧ 0 < p ∧ p < 4 ∧
    proofOk p rb se = true) ∧
    (∃ (k : Nat) (rb se : Bool) (s : State),
    k < 4 ∧ s.waits = [] ∧
    let up := s.domDown 3 = false ∧ s.get H.SAF_WDD = 0
    let out := s.isSX = true ∧ s.get R.SAF_SO_CFG_EN k ≠ 0
    let p := s.get H.SO_PRF k
    out ∧ up ∧ s.get H.INJ_SO k = 0 ∧ s.timeUp (s.get H.SO_PRT k + s.proofNs p) = true ∧ p = 4 ∧
    proofOk p rb se = true) ∧
    (∃ (k : Nat) (rb se : Bool) (s : State),
    k < 4 ∧ s.waits = [] ∧
    let up := s.domDown 3 = false ∧ s.get H.SAF_WDD = 0
    let out := s.isSX = true ∧ s.get R.SAF_SO_CFG_EN k ≠ 0
    let p := s.get H.SO_PRF k
    out ∧ up ∧ s.get H.INJ_SO k = 0 ∧ s.timeUp (s.get H.SO_PRT k + s.proofNs p) = true ∧ 0 < p ∧ p < 8 ∧
    proofOk p rb se = false ∧ s.get R.SAF_SO_STAT_FAULT k = 0) ∧
    (∃ (k : Nat) (s : State),
    k < 4 ∧ s.waits = [] ∧
    let out := s.isSX = true ∧ s.get R.SAF_SO_CFG_EN k ≠ 0
    out ∧ s.get R.SAF_STATUS_PROOF_DUE = 0 ∧ s.timeUp (s.get R.SAF_SO_T_PROOF k + 2592000000000000) = true) :=
  ⟨⟨3, w10 [], by and_intros <;> decide +kernel⟩,
   ⟨3, w10 [(R.SAF_STATUS_STATE,0,2),(H.REL_ON,0,1),(R.DCK_TIME,0,2000000)], by and_intros <;> decide +kernel⟩,
   ⟨31, 3, w10q 0x904 [] [(R.SAF_SG_CFG_EN,15,1),(R.SAF_SG_DEM,0,0)], by and_intros <;> first | decide +kernel | (constructor <;> decide +kernel)⟩,
   ⟨31, 3, w10q 0x905 [] [], by and_intros <;> first | decide +kernel | (constructor <;> decide +kernel)⟩,
   ⟨31, 3, w10q 0x905 [] [(R.SAF_STATUS_STATE,0,2),(H.FS_HOLD,0,0x20)], by and_intros <;> first | decide +kernel | (constructor <;> decide +kernel)⟩,
   ⟨31, 3, w10q 0x905 [] [(R.SAF_STATUS_STATE,0,2)], by and_intros <;> first | decide +kernel | (constructor <;> decide +kernel)⟩,
   ⟨3, w10 [(R.SAF_STATUS_STATE,0,2),(H.REL_ON,0,1),(H.SAF_CONF,0,1),(R.AXS_STATUS_STATE,255,2),(R.DCK_TIME,0,2000000)], by and_intros <;> decide +kernel⟩,
   ⟨3, w10 [(R.SAF_STATUS_STATE,0,2),(H.REL_ON,0,1),(H.SAF_CONF,0,1),(R.DCK_TIME,0,2^62)], by and_intros <;> decide +kernel⟩,
   ⟨0, w10 [(R.SAF_SO_CFG_EN,0,1),(H.SO_WANT,0,1),(R.SAF_SO_STAT_PROOF_OK,0,1),(H.SO_LIVE,0,1)], by and_intros <;> decide +kernel⟩,
   ⟨3, w10 [(R.SAF_SO_CFG_EN,3,1),(H.SO_TPD,3,1),(H.SO_TP,3,1),(H.SO_SLOT,3,1),(H.FIO_TT,0,10000000)], by and_intros <;> decide +kernel⟩,
   ⟨3, false, false, w10 [(R.SAF_SO_CFG_EN,3,1),(H.SO_PRF,3,1),(R.DCK_TIME,0,2^62)], by and_intros <;> decide +kernel⟩,
   ⟨3, false, true, w10 [(R.SAF_SO_CFG_EN,3,1),(H.SO_PRF,3,4),(R.DCK_TIME,0,2^62)], by and_intros <;> decide +kernel⟩,
   ⟨3, true, true, w10 [(R.SAF_SO_CFG_EN,3,1),(H.SO_PRF,3,7),(R.DCK_TIME,0,2^62)], by and_intros <;> decide +kernel⟩,
   ⟨3, w10 [(R.SAF_SO_CFG_EN,3,1),(H.SO_WANT,3,1),(R.SAF_SO_STAT_PROOF_OK,3,1),(H.SO_LIVE,3,1),(R.DCK_TIME,0,2^62)], by and_intros <;> decide +kernel⟩⟩

/-- What Obligations.SafetyRequests assumes holds somewhere, clause by clause. -/
theorem wit_SafetyRequests :
    (∃ (mb : Nat) (s : State),
    let off := s.par mb 0 4
    let n := s.par mb 4 4
    s.isSX = true ∧ s.sessionOk mb = true ∧ Ready s mb 0x0900 (8 + 4 * n) ∧ 0x20 ≤ off ∧ off + 4 * n ≤ 0x1000 ∧
    off % 4 = 0 ∧ 0 < n ∧ n ≤ 1020 ∧ (∀ i < n, safRange (off + 4 * i) (s.par mb (8 + 4 * i) 4) = true)) ∧
    (∃ (mb : Nat) (s : State),
    s.isSX = true ∧ s.sessionOk mb = true ∧ Ready s mb 0x0901 4) ∧
    (∃ (mb : Nat) (s : State),
    s.isSX = true ∧ Ready s mb 0x0902 20) ∧
    (∃ (mb : Nat) (s : State),
    let off := s.par mb 0 4
    s.isSX = true ∧ Ready s mb 0x0903 4 ∧ (∀ k < 4, bit off k = true → s.get R.SAF_SO_CFG_EN k = 0)) ∧
    (∃ (mb : Nat) (s : State),
    s.isSX = false ∧ Ready s mb 0x0900 12) ∧
    (∃ (mb : Nat) (s : State),
    s.isSX = false ∧ Ready s mb 0x0902 20) ∧
    (∃ (mb : Nat) (s : State),
    s.isSX = false ∧ Ready s mb 0x0903 4) :=
  ⟨⟨31, w10s 0x900 [0xFFC,1,0xFFFFFFFF] [], by and_intros <;> first | decide +kernel | (constructor <;> decide +kernel)⟩,
   ⟨31, w10s 0x901 [7] [], by and_intros <;> first | decide +kernel | (constructor <;> decide +kernel)⟩,
   ⟨31, w10q 0x902 [1,2,3,4,5] [], by and_intros <;> first | decide +kernel | (constructor <;> decide +kernel)⟩,
   ⟨31, w10q 0x903 [15] [], by and_intros <;> first | decide +kernel | (constructor <;> decide +kernel)⟩,
   ⟨31, w10q 0x900 [1,2,3,4,5] [(R.HIF_ID_VARIANT,0,0)], by and_intros <;> first | decide +kernel | (constructor <;> decide +kernel)⟩,
   ⟨31, w10q 0x902 [1,2,3,4,5] [(R.HIF_ID_VARIANT,0,0)], by and_intros <;> first | decide +kernel | (constructor <;> decide +kernel)⟩,
   ⟨31, w10q 0x903 [1,2,3,4,5] [(R.HIF_ID_VARIANT,0,0)], by and_intros <;> first | decide +kernel | (constructor <;> decide +kernel)⟩⟩

/-- What Obligations.PairLinkAndDigest assumes holds somewhere, clause by clause. -/
theorem wit_PairLinkAndDigest :
    (∃ (r cid l mb a : Nat) (s : State),
    r < 2 ∧ l < 2 ∧ mb < 32 ∧ a < 256 ∧ s.get R.NRT_RSTATE_HEAD r ≠ 0 ∧ cid ≠ s.get R.HIF_CID) ∧
    (∃ (r l mb a : Nat) (s : State),
    r < 2 ∧ l < 2 ∧ mb < 32 ∧ a < 256 ∧ bit (s.get R.CNJ_STATE_LANES) l = true) ∧
    (∃ (r l mb tag a : Nat) (s : State),
    r < 2 ∧ l < 2 ∧ mb < 32 ∧ a < 256 ∧ s.isStandby = true ∧ tag ≠ 0) ∧
    (∃ (r l mb a : Nat) (s : State),
    r < 2 ∧ l < 2 ∧ mb < 32 ∧ a < 256 ∧
    let role := s.get R.CNJ_STATE_ROLE
    (role = 2 ∨ (role = 1 ∧ s.get H.CNJ_PROLE = 2))) ∧
    (∃ (r l mb a : Nat) (s : State),
    r < 2 ∧ l < 2 ∧ mb < 32 ∧ a < 256 ∧
    let role := s.get R.CNJ_STATE_ROLE
    role = 3 ∧ s.get R.CNJ_STATE_REJOIN_PH = 3) ∧
    (∃ (r l mb a off : Nat) (s : State),
    r < 2 ∧ l < 2 ∧ mb < 32 ∧ a < 256 ∧ s.isStandby = true ∧ off < 0x1000 ∧ off % 4 = 0) ∧
    (∃ (r l mb a : Nat) (s : State),
    r < 2 ∧ l < 2 ∧ mb < 32 ∧ a < 256 ∧
    let role := s.get R.CNJ_STATE_ROLE
    s.get H.CNJ_DW ≠ 0 ∧ s.get H.INJ_DIAG = 0 ∧ role = 1 ∧ s.diagStep ≠ 0) ∧
    (∃ (r l mb a own : Nat) (s : State),
    r < 2 ∧ l < 2 ∧ mb < 32 ∧ a < 256 ∧
    let role := s.get R.CNJ_STATE_ROLE
    s.get H.CNJ_DW ≠ 0 ∧ s.get H.INJ_DIAG = 0 ∧ role = 1 ∧ (own = 1 → s.diagStep = 0)) ∧
    (∃ (r l mb a : Nat) (s : State),
    r < 2 ∧ l < 2 ∧ mb < 32 ∧ a < 256 ∧
    let role := s.get R.CNJ_STATE_ROLE
    s.get H.CNJ_DW ≠ 0 ∧ s.timeUp (s.get H.CNJ_DWT + 10000) = true ∧ role = 1 ∧ s.get R.CNJ_STATE_LANES ≠ 0) ∧
    (∃ (r l mb a : Nat) (s : State),
    r < 2 ∧ l < 2 ∧ mb < 32 ∧ a < 256 ∧
    let role := s.get R.CNJ_STATE_ROLE
    (role = 1 ∨ role = 2)) :=
  ⟨⟨1, 5, 1, 31, 255, w11 [(R.NRT_RSTATE_HEAD,1,1),(R.CNJ_EPOCH,0,7)], by and_intros <;> decide +kernel⟩,
   ⟨1, 1, 31, 255, w11 [(R.CNJ_STATE_LANES,0,3)], by and_intros <;> decide +kernel⟩,
   ⟨1, 1, 31, 9, 255, w11 [(R.CNJ_STATE_LANES,0,2),(R.CNJ_STATE_ROLE,0,2)], by and_intros <;> decide +kernel⟩,
   ⟨1, 1, 31, 255, w11 [(R.CNJ_STATE_LANES,0,2),(R.CNJ_STATE_ROLE,0,2)], by and_intros <;> decide +kernel⟩,
   ⟨1, 1, 31, 255, w11 [(R.CNJ_STATE_ROLE,0,3),(R.CNJ_STATE_REJOIN_PH,0,3)], by and_intros <;> decide +kernel⟩,
   ⟨1, 1, 31, 255, 40, w11 [(R.CNJ_STATE_LANES,0,2),(R.CNJ_STATE_ROLE,0,2)], by and_intros <;> decide +kernel⟩,
   ⟨1, 1, 31, 255, w11 [(R.CNJ_STATE_ROLE,0,1),(H.CNJ_DW,0,1),(H.CNJ_PROLE,0,2),(H.CNJ_DETS,0,1)], by and_intros <;> decide +kernel⟩,
   ⟨1, 1, 31, 255, 1, w11 [(R.CNJ_STATE_ROLE,0,1),(H.CNJ_DW,0,1),(H.CNJ_PROLE,0,2)], by and_intros <;> decide +kernel⟩,
   ⟨1, 1, 31, 255, w11 [(R.CNJ_STATE_ROLE,0,1),(H.CNJ_DW,0,1),(H.CNJ_PROLE,0,2),(R.CNJ_STATE_LANES,0,1),(R.DCK_TIME,0,2^62)], by and_intros <;> decide +kernel⟩,
   ⟨1, 1, 31, 255, w11 [(R.CNJ_STATE_LANES,0,2),(R.CNJ_STATE_ROLE,0,1)], by and_intros <;> decide +kernel⟩⟩

/-- What Obligations.PairRolesAndRequests assumes holds somewhere, clause by clause. -/
theorem wit_PairRolesAndRequests :
    (∃ (mb r : Nat) (s : State),
    r < 2 ∧
    let call := fun (opc n : Nat) => s.live mb opc = true ∧ s.get R.PWR_STATE_BOOT ≠ 2 ∧ n ≤ s.get H.MB_LEN mb ∧
      s.get H.MB_JRN mb = 0
    let fl := s.par mb 4 4
    call 0x0A00 8 ∧ bit fl 0 = false) ∧
    (∃ (mb r : Nat) (s : State),
    r < 2 ∧
    let call := fun (opc n : Nat) => s.live mb opc = true ∧ s.get R.PWR_STATE_BOOT ≠ 2 ∧ n ≤ s.get H.MB_LEN mb ∧
      s.get H.MB_JRN mb = 0
    let fl := s.par mb 4 4
    call 0x0A00 8 ∧ bit fl 0 = true) ∧
    (∃ (mb r : Nat) (s : State),
    r < 2 ∧
    let call := fun (opc n : Nat) => s.live mb opc = true ∧ s.get R.PWR_STATE_BOOT ≠ 2 ∧ n ≤ s.get H.MB_LEN mb ∧
      s.get H.MB_JRN mb = 0
    call 0x0A01 0 ∧ s.get R.CNJ_CFG_EN = 0) ∧
    (∃ (mb r : Nat) (s : State),
    r < 2 ∧
    let role := s.get R.CNJ_STATE_ROLE
    let call := fun (opc n : Nat) => s.live mb opc = true ∧ s.get R.PWR_STATE_BOOT ≠ 2 ∧ n ≤ s.get H.MB_LEN mb ∧
      s.get H.MB_JRN mb = 0
    call 0x0A01 0 ∧ s.get R.CNJ_CFG_EN ≠ 0 ∧ role = 4 ∧ s.get H.CNJ_PROLE = 1) ∧
    (∃ (mb r : Nat) (s : State),
    r < 2 ∧
    let role := s.get R.CNJ_STATE_ROLE
    let call := fun (opc n : Nat) => s.live mb opc = true ∧ s.get R.PWR_STATE_BOOT ≠ 2 ∧ n ≤ s.get H.MB_LEN mb ∧
      s.get H.MB_JRN mb = 0
    call 0x0A02 8 ∧ role = 1 ∧ s.get H.CNJ_PROLE = 2) ∧
    (∃ (mb r : Nat) (s : State),
    r < 2 ∧
    let role := s.get R.CNJ_STATE_ROLE
    let call := fun (opc n : Nat) => s.live mb opc = true ∧ s.get R.PWR_STATE_BOOT ≠ 2 ∧ n ≤ s.get H.MB_LEN mb ∧
      s.get H.MB_JRN mb = 0
    call 0x0A02 8 ∧ role ≠ 1) ∧
    (∃ (mb r : Nat) (s : State),
    r < 2 ∧
    let role := s.get R.CNJ_STATE_ROLE
    let call := fun (opc n : Nat) => s.live mb opc = true ∧ s.get R.PWR_STATE_BOOT ≠ 2 ∧ n ≤ s.get H.MB_LEN mb ∧
      s.get H.MB_JRN mb = 0
    call 0x0A03 8 ∧ s.get R.CNJ_CFG_PREF ≠ 0 ∧ role = 2) ∧
    (∃ (mb r : Nat) (s : State),
    r < 2 ∧
    let call := fun (opc n : Nat) => s.live mb opc = true ∧ s.get R.PWR_STATE_BOOT ≠ 2 ∧ n ≤ s.get H.MB_LEN mb ∧
      s.get H.MB_JRN mb = 0
    call 0x0A03 8 ∧ s.get R.CNJ_CFG_PREF = 0) ∧
    (∃ (mb r : Nat) (s : State),
    r < 2 ∧
    let call := fun (opc n : Nat) => s.live mb opc = true ∧ s.get R.PWR_STATE_BOOT ≠ 2 ∧ n ≤ s.get H.MB_LEN mb ∧
      s.get H.MB_JRN mb = 0
    call 0x0A04 0) ∧
    (∃ (r : Nat) (s : State),
    r < 2 ∧
    let role := s.get R.CNJ_STATE_ROLE
    s.get H.CNJ_SWP ≠ 0 ∧ s.get H.CNJ_SWT + 1000 ≤ s.get H.BND_T + s.baseNs ∧ role = 2) ∧
    (∃ (r : Nat) (s : State),
    r < 2 ∧
    let role := s.get R.CNJ_STATE_ROLE
    s.get H.CNJ_SWP ≠ 0 ∧ s.get H.CNJ_SWT + 1000 ≤ s.get H.BND_T + s.baseNs ∧ role = 1 ∧ s.get H.CNJ_SWP < 4) ∧
    (∃ (r : Nat) (s : State),
    r < 2 ∧ s.get H.CNJ_SWP ≠ 0 ∧ s.get H.BND_T + s.baseNs < s.get H.CNJ_SWT + 1000) ∧
    (∃ (r : Nat) (s : State),
    r < 2 ∧
    let role := s.get R.CNJ_STATE_ROLE
    s.get H.CNJ_SWP = 0 ∧ role = 1 ∧ s.get H.CNJ_PROLE = 2 ∧ s.get H.QUAR_2 ≠ 0) ∧
    (∃ (r : Nat) (s : State),
    r < 2 ∧
    let role := s.get R.CNJ_STATE_ROLE
    s.get H.CNJ_SWP = 0 ∧ role = 2 ∧ s.get R.CNJ_STATE_LANES ≠ 0) ∧
    (∃ (r : Nat) (s : State),
    r < 2 ∧
    let role := s.get R.CNJ_STATE_ROLE
    s.get H.CNJ_SWP = 0 ∧ s.get H.CNJ_DW = 0 ∧ s.get H.CNJ_HO ≠ 0 ∧ s.get H.CNJ_HO ≤ s.get H.BND_N + 2 ∧
    4 ≤ s.get H.CNJ_HOC ∧ (role = 2 ∨ (role = 1 ∧ s.get H.CNJ_PROLE = 2))) ∧
    (∃ (r : Nat) (s : State),
    r < 2 ∧
    let role := s.get R.CNJ_STATE_ROLE
    s.get H.CNJ_HO = 0 ∧ 32 ≤ s.get H.CNJ_STL ∧ role = 1 ∧ s.get H.CNJ_PROLE = 2 ∧ s.waiting 0x0A02 0 ≠ []) ∧
    (∃ (r : Nat) (s : State),
    r < 2 ∧
    let role := s.get R.CNJ_STATE_ROLE
    s.get H.CNJ_HO = 0 ∧ 32 ≤ s.get H.CNJ_STL ∧ role = 2 ∧ s.get R.CNJ_CFG_AUTO_TB ≠ 0 ∧ s.get R.CNJ_CFG_PREF ≠ 0) ∧
    (∃ (r : Nat) (s : State),
    r < 2 ∧
    let role := s.get R.CNJ_STATE_ROLE
    role = 3 ∧ s.get R.CNJ_STATE_REJOIN_PH = 1) ∧
    (∃ (r : Nat) (s : State),
    r < 2 ∧
    let role := s.get R.CNJ_STATE_ROLE
    role = 3 ∧ s.get R.CNJ_STATE_REJOIN_PH = 2) ∧
    (∃ (r : Nat) (s : State),
    r < 2 ∧
    let role := s.get R.CNJ_STATE_ROLE
    role = 3 ∧ s.get R.CNJ_STATE_REJOIN_PH = 3 ∧ 64 ≤ s.get H.CNJ_MATCH) ∧
    (∃ (r : Nat) (s : State),
    r < 2 ∧ s.get R.NRT_RCFG_EN r ≠ 0 ∧ s.get R.NRT_RSTATE_HEAD r = 0) :=
  ⟨⟨31, 1, w11q 0xA00 [5,2] [], by and_intros <;> decide +kernel⟩,
   ⟨31, 1, w11q 0xA00 [5,1] [], by and_intros <;> decide +kernel⟩,
   ⟨31, 1, w11q 0xA01 [5,1] [], by and_intros <;> decide +kernel⟩,
   ⟨31, 1, w11q 0xA01 [] [(R.CNJ_CFG_EN,0,1),(R.CNJ_STATE_ROLE,0,4),(H.CNJ_PROLE,0,1)], by and_intros <;> decide +kernel⟩,
   ⟨31, 1, w11q 0xA02 [0,0] [(R.CNJ_STATE_ROLE,0,1),(H.CNJ_PROLE,0,2)], by and_intros <;> decide +kernel⟩,
   ⟨31, 1, w11q 0xA02 [9,0] [], by and_intros <;> decide +kernel⟩,
   ⟨31, 1, w11q 0xA03 [0,0] [(R.CNJ_STATE_ROLE,0,2),(R.CNJ_CFG_PREF,0,1)], by and_intros <;> decide +kernel⟩,
   ⟨31, 1, w11q 0xA03 [9,9] [], by and_intros <;> decide +kernel⟩,
   ⟨31, 1, w11q 0xA04 [] [], by and_intros <;> decide +kernel⟩,
   ⟨1, w11 [(R.CNJ_STATE_ROLE,0,2),(H.CNJ_SWP,0,3),(R.CNJ_EPOCH,0,0xFFFF),(H.BND_N,0,100),(H.BND_T,0,5000)], by and_intros <;> decide +kernel⟩,
   ⟨1, w11 [(R.CNJ_STATE_ROLE,0,1),(H.CNJ_SWP,0,1),(R.CNJ_CFG_AUTO_REJOIN,0,1),(H.BND_T,0,5000)], by and_intros <;> decide +kernel⟩,
   ⟨1, w11 [(H.CNJ_SWP,0,1),(H.CNJ_SWT,0,2^40)], by and_intros <;> decide +kernel⟩,
   ⟨1, w11 [(R.CNJ_STATE_ROLE,0,1),(H.CNJ_PROLE,0,2),(H.QUAR_2,0,1),(R.CNJ_CFG_AUTO_REJOIN,0,1)], by and_intros <;> decide +kernel⟩,
   ⟨1, w11 [(R.CNJ_STATE_ROLE,0,2),(R.CNJ_STATE_LANES,0,1)], by and_intros <;> decide +kernel⟩,
   ⟨1, w11 [(R.CNJ_STATE_ROLE,0,1),(H.CNJ_PROLE,0,2),(H.CNJ_HO,0,9),(H.CNJ_HOC,0,4),(H.BND_N,0,8)], by and_intros <;> decide +kernel⟩,
   ⟨1, { w11 [(R.CNJ_STATE_ROLE,0,1),(H.CNJ_PROLE,0,2),(H.CNJ_STL,0,32)] with waits := [w11w] }, by and_intros <;> decide +kernel⟩,
   ⟨1, w11 [(R.CNJ_STATE_ROLE,0,2),(R.CNJ_CFG_AUTO_TB,0,1),(R.CNJ_CFG_PREF,0,1),(H.BND_N,0,77),(H.CNJ_STL,0,40)], by and_intros <;> decide +kernel⟩,
   ⟨1, w11 [(R.CNJ_STATE_ROLE,0,3),(R.CNJ_STATE_REJOIN_PH,0,1)], by and_intros <;> decide +kernel⟩,
   ⟨1, w11 [(R.CNJ_STATE_ROLE,0,3),(R.CNJ_STATE_REJOIN_PH,0,2)], by and_intros <;> decide +kernel⟩,
   ⟨1, w11 [(R.CNJ_STATE_ROLE,0,3),(R.CNJ_STATE_REJOIN_PH,0,3),(H.CNJ_MATCH,0,64)], by and_intros <;> decide +kernel⟩,
   ⟨1, w11 [(R.NRT_RCFG_EN,1,1)], by and_intros <;> decide +kernel⟩⟩

/-- What Obligations.ModesImagesAndFirmware assumes holds somewhere, clause by clause. -/
theorem wit_ModesImagesAndFirmware :
    (∃ (mb : Nat) (s : State),
    let p := s.par mb 0 4
    Ready s mb 0x0600 16 ∧ 8 < p) ∧
    (∃ (mb : Nat) (s : State),
    let p := s.par mb 0 4
    Ready s mb 0x0600 16 ∧ p ≤ 8 ∧ s.get H.MSW_B ≠ 0) ∧
    (∃ (mb : Nat) (s : State),
    let p := s.par mb 0 4
    Ready s mb 0x0600 16 ∧ p ≤ 8 ∧ s.get H.MSW_B = 0 ∧ s.swapTracked (s.swapTo p) p = true) ∧
    (∃ (mb : Nat) (s : State),
    let p := s.par mb 0 4
    Ready s mb 0x0600 16 ∧ p ≤ 8 ∧ s.get H.MSW_B = 0 ∧ s.swapTracked (s.swapTo p) p = false ∧
    s.overload (s.swapTo p) = false) ∧
    (∃ (mb k : Nat) (s : State),
    let idle := fun (opc : Nat) => s.lopBusy opc = false ∧ s.lopSlot = some k
    Ready s mb 0x0601 8 ∧ idle 0x0601) ∧
    (∃ (mb : Nat) (s : State),
    Ready s mb 0x0601 8 ∧ s.lopBusy 0x0601 = true) ∧
    (∃ (k : Nat) (m : Image) (s : State),
    s.snap = some m ∧ s.lopOf 0x0601 0 = some k) ∧
    (∃ (mb k : Nat) (s : State),
    let idle := fun (opc : Nat) => s.lopBusy opc = false ∧ s.lopSlot = some k
    Ready s mb 0x0602 4 ∧ idle 0x0602) ∧
    (∃ (mb k : Nat) (s : State),
    let p := s.par mb 0 4
    let off := s.par mb 4 4
    let n := clampN 1 4080 (s.par mb 8 4)
    Ready s mb 0x060A 12 ∧ 0 < p ∧ p < 65536 ∧ k < 32 ∧ s.get R.LOP_ID_HANDLE k = p ∧
    s.get R.LOP_OBJ_OPCODE k = 0x0602 ∧ s.get R.LOP_ID_STATUS k = 1 ∧
    (∀ j < 32, s.get R.LOP_ID_HANDLE j = p → j = k) ∧ 12 + n ≤ s.get H.MB_LEN mb ∧ off + n ≤ s.get H.FW_LEN ∧
    s.get H.FW_PH = 1) ∧
    (∃ (mb : Nat) (s : State),
    let p := s.par mb 0 4
    Ready s mb 0x060A 12 ∧ 0 < p ∧ p < 65536 ∧ (∀ j < 32, s.get R.LOP_ID_HANDLE j ≠ p)) ∧
    (∃ (k : Nat) (s : State),
    s.get H.FW_PH = 1 ∧ s.get H.FW_GOT = s.get H.FW_LEN ∧ s.lopOf 0x0602 0 = some k) ∧
    (∃ (k : Nat) (s : State),
    s.get H.FW_PH = 2 ∧ s.lopOf 0x0602 0 = some k) ∧
    (∃ (mb k : Nat) (s : State),
    let idle := fun (opc : Nat) => s.lopBusy opc = false ∧ s.lopSlot = some k
    Ready s mb 0x0603 0 ∧ idle 0x0603) ∧
    (∃ (k : Nat) (s : State),
    s.lopOf 0x0603 0 = some k ∧ s.get R.LOP_ID_STATUS k = 1 ∧ s.scrubPaused = false ∧ s.get H.INJ_PG = 0) :=
  ⟨⟨31, w12q 0x600 16 [9,0,7] [], by and_intros <;> first | decide +kernel | (constructor <;> decide +kernel)⟩,
   ⟨31, w12q 0x600 16 [8,0,7] [(H.MSW_B,0,2)], by and_intros <;> first | decide +kernel | (constructor <;> decide +kernel)⟩,
   ⟨31, (w12q 0x600 16 [1,0,7] [(R.CFG_OVL_N,0,1),(R.AXS_TRK_CTL_T0_EN,0,1)]).setBytes (ovlAt 1 0) [0xA0], by
    and_intros <;> first
      | exact swapTracked_of (l := [⟨160, 0, 0⟩]) (by decide +kernel) (by decide +kernel)
      | decide +kernel
      | (constructor <;> decide +kernel)⟩,
   ⟨31, w12q 0x600 16 [8,0,7] [], by and_intros <;> first | decide +kernel | (constructor <;> decide +kernel)⟩,
   ⟨31, 0, w12q 0x601 8 [8,1] [], by and_intros <;> first | decide +kernel | (constructor <;> decide +kernel)⟩,
   ⟨31, w12q 0x601 8 [99,2] (w12l 0x601 4 31), by and_intros <;> first | decide +kernel | (constructor <;> decide +kernel)⟩,
   ⟨31, w12i, { set up (w12l 0x601 1 31) with snap := some w12i }, by and_intros <;> decide +kernel⟩,
   ⟨31, 0, w12q 0x602 4 [0xFFFFFFFF] [], by and_intros <;> first | decide +kernel | (constructor <;> decide +kernel)⟩,
   ⟨31, 31, w12q 0x60A 24 [0x1FF,100,4080,5,6,7] (w12l 0x602 1 31 ++ [(H.MB_LEN,31,4096),(H.FW_LEN,0,4194304),(H.FW_PH,0,1)]), by and_intros <;> first | decide +kernel | (constructor <;> decide +kernel)⟩,
   ⟨31, w12q 0x60A 12 [0x1FE,100,1,5,6,7] (w12l 0x602 1 31), by and_intros <;> first | decide +kernel | (constructor <;> decide +kernel)⟩,
   ⟨31, set up (w12l 0x602 1 31 ++ [(H.FW_LEN,0,100),(H.FW_GOT,0,100),(H.FW_PH,0,1)]), by and_intros <;> decide +kernel⟩,
   ⟨31, set up (w12l 0x602 1 31 ++ [(H.FW_PH,0,2)]), by and_intros <;> decide +kernel⟩,
   ⟨31, 0, w12q 0x603 4 [] [], by and_intros <;> first | decide +kernel | (constructor <;> decide +kernel)⟩,
   ⟨31, { set up (w12l 0x603 1 31) with images := [w12i,{w12i with seq := 6}] }, by and_intros <;> decide +kernel⟩⟩

/-- What Obligations.OverlaysAndSafetySession assumes holds somewhere, clause by clause. -/
theorem wit_OverlaysAndSafetySession :
    (∃ (mb : Nat) (s : State),
    let m := s.par mb 0 4
    let first := s.par mb 4 4
    let n := clampN 1 340 (s.par mb 8 4)
    let new := (s.ovlReq mb).2.2
    let cut := ((s.ovl m).drop first).take n
    Ready s mb 0x0607 12 ∧ 0 < m ∧ m ≤ 8 ∧ first ≤ 2047 ∧ 12 + 12 * n ≤ s.get H.MB_LEN mb ∧ s.ovlInUse m = false ∧
    first + n ≤ 2048 ∧ new.all s.ovlMay = true ∧ (new ++ cut).any OvlEntry.safe = false) ∧
    (∃ (mb : Nat) (s : State),
    let m := s.par mb 0 4
    let first := s.par mb 4 4
    let n := clampN 1 340 (s.par mb 8 4)
    let new := (s.ovlReq mb).2.2
    let cut := ((s.ovl m).drop first).take n
    Ready s mb 0x0607 12 ∧ 0 < m ∧ m ≤ 8 ∧ first ≤ 2047 ∧ 12 + 12 * n ≤ s.get H.MB_LEN mb ∧ s.ovlInUse m = false ∧
    first + n ≤ 2048 ∧ new.all s.ovlMay = true ∧ (new ++ cut).any OvlEntry.safe = true ∧ s.safeWriteBar mb = 0) ∧
    (∃ (mb : Nat) (s : State),
    let m := s.par mb 0 4
    Ready s mb 0x0607 12 ∧ (m = 0 ∨ 8 < m)) ∧
    (∃ (mb : Nat) (s : State),
    let m := s.par mb 0 4
    let first := s.par mb 4 4
    Ready s mb 0x0608 12 ∧ 0 < m ∧ m ≤ 8 ∧ first ≤ 2047) ∧
    (∃ (mb : Nat) (s : State),
    let m := s.par mb 0 4
    let held := ((s.ovl m).filter OvlEntry.safe).length
    Ready s mb 0x0609 4 ∧ 0 < m ∧ m ≤ 8 ∧ s.ovlInUse m = false ∧ held = 0) ∧
    (∃ (mb : Nat) (s : State),
    let m := s.par mb 0 4
    let held := ((s.ovl m).filter OvlEntry.safe).length
    Ready s mb 0x0609 4 ∧ 0 < m ∧ m ≤ 8 ∧ s.ovlInUse m = false ∧ held ≠ 0 ∧ s.safeWriteBar mb = 0) ∧
    (∃ (mb : Nat) (s : State),
    Ready s mb 0x060B 8) ∧
    (∃ (mb : Nat) (s : State),
    let first := s.par mb 4 4
    let pw := clampN 8 64 first
    s.isSX = true ∧ Ready s mb 0x0604 8 ∧ 8 + pw ≤ s.get H.MB_LEN mb ∧ s.get R.CFG_SAF_LOCK ≠ 0) ∧
    (∃ (mb : Nat) (s : State),
    let first := s.par mb 4 4
    let pw := clampN 8 64 first
    s.isSX = true ∧ Ready s mb 0x0604 8 ∧ 8 + pw ≤ s.get H.MB_LEN mb ∧ s.get R.CFG_SAF_LOCK = 0) ∧
    (∃ (mb : Nat) (s : State),
    s.isSX = true ∧ Ready s mb 0x0605 0 ∧ s.get R.CFG_SAF_SESS_OPEN ≠ 0 ∧ s.get R.CFG_SAF_SESS_MBX = mb) ∧
    (∃ (mb : Nat) (s : State),
    s.isSX = true ∧ Ready s mb 0x0605 0 ∧ s.get R.CFG_SAF_SESS_OPEN = 0) ∧
    (∃ (mb : Nat) (s : State),
    let m := s.par mb 0 4
    s.isSX = true ∧ Ready s mb 0x0606 4 ∧ 8 ≤ m ∧ m ≤ 64 ∧ 4 + m ≤ s.get H.MB_LEN mb ∧
    (s.get R.CFG_STATUS_NO_PASSWORD ≠ 0 ∨ s.sessionOk mb = true)) ∧
    (∃ (mb : Nat) (s : State),
    s.isSX = false ∧ Ready s mb 0x0604 8) ∧
    (∃ (s : State),
    s.get R.CFG_SAF_SESS_OPEN ≠ 0 ∧ s.timeUp (s.get H.SS_T + 600000000000) = true) ∧
    (∃ (s : State),
    s.timeUp (s.get H.SS_LKT) = true) ∧
    (∃ (w : Wait) (rest : List Wait) (s : State),
    s.waits = w :: rest ∧ w.mb < 32 ∧ s.get H.MB_JRN w.mb = 0 ∧ w.opc = 0x0901) ∧
    (∃ (w : Wait) (rest : List Wait) (s : State),
    s.waits = w :: rest ∧ w.mb < 32 ∧ s.get H.MB_JRN w.mb = 0 ∧ w.opc = 0x0606) :=
  ⟨⟨31, w12q 0x607 (12+12) [8,0,1,0x00FF0028,0xFFFFFFFF,5] [], by and_intros <;> first | decide +kernel | (constructor <;> decide +kernel)⟩,
   ⟨31, w12q 0x607 (12+12) [8,0,1,0x50000400,0x3000,0x1000] w12s, by and_intros <;> first | decide +kernel | (constructor <;> decide +kernel)⟩,
   ⟨31, w12q 0x607 12 [9] [], by and_intros <;> first | decide +kernel | (constructor <;> decide +kernel)⟩,
   ⟨31, w12q 0x608 12 [8,0,400] [(H.FREE,0,0)] |>.put R.CFG_OVL_N 3 0 7, by and_intros <;> first | decide +kernel | (constructor <;> decide +kernel)⟩,
   ⟨31, w12q 0x609 4 [8] [] |>.put R.CFG_OVL_N 3 0 7, by and_intros <;> first | decide +kernel | (constructor <;> decide +kernel)⟩,
   ⟨31, ((w12q 0x609 4 [8] w12s).put R.CFG_OVL_N 1 0 7).setBytes (ovlAt 8 0) [4,4,0,0x50], by and_intros <;> first | decide +kernel | (constructor <;> decide +kernel)⟩,
   ⟨31, w12q 0x60B 8 [1,200] [(R.CFG_LOG_SEQ,0,5)], by first | decide +kernel | (constructor <;> decide +kernel)⟩,
   ⟨31, w12q 0x604 72 [1,64] [(R.CFG_SAF_LOCK,0,5)], by and_intros <;> first | decide +kernel | (constructor <;> decide +kernel)⟩,
   ⟨31, w12q 0x604 72 [1,64] [], by and_intros <;> first | decide +kernel | (constructor <;> decide +kernel)⟩,
   ⟨31, w12q 0x605 0 [1,8,3,4] w12s, by and_intros <;> first | decide +kernel | (constructor <;> decide +kernel)⟩,
   ⟨31, w12q 0x605 0 [] [], by and_intros <;> first | decide +kernel | (constructor <;> decide +kernel)⟩,
   ⟨31, w12q 0x606 12 [8,3,4] [], by and_intros <;> first | decide +kernel | (constructor <;> decide +kernel)⟩,
   ⟨31, w12q 0x604 16 [1,8,3,4] [(R.HIF_ID_VARIANT,0,0)], by and_intros <;> first | decide +kernel | (constructor <;> decide +kernel)⟩,
   ⟨w11 [(R.CFG_SAF_SESS_OPEN,0,1),(R.DCK_TIME,0,2^62)], by and_intros <;> decide +kernel⟩,
   ⟨w11 [(R.CFG_SAF_LOCK,0,1),(R.DCK_TIME,0,2^62)], by decide +kernel⟩,
   ⟨w12m 0x901, [], { w12q 0x901 4 [1] [] with waits := [w12m 0x901] }, by and_intros <;> decide +kernel⟩,
   ⟨w12m 0x606, [w12m 0x901], { w12q 0x606 4 [1] [(H.SS_NEWH,31,77),(R.CFG_LOG_SEQ,0,0xFFFFFFFF)] with waits := [w12m 0x606,w12m 0x901] }, by and_intros <;> decide +kernel⟩⟩

/-- What Obligations.IntegritySupervision assumes holds somewhere, clause by clause. -/
theorem wit_IntegritySupervision :
    (∃ (arr ch src slot : Nat) (s : State),
    arr < 10 ∧ ch < 48 ∧ src < 6 ∧ slot < 8 ∧ s.domDown (arrDomain arr) = true) ∧
    (∃ (arr ch src slot : Nat) (s : State),
    arr < 10 ∧ ch < 48 ∧ src < 6 ∧ slot < 8 ∧
    let pos := s.get R.INT_ARR_POS arr
    let clean := (arr < 4 → ∀ k < 4, s.errBits arr (0x30000 * k + pos) = 0) ∧ (4 ≤ arr → s.errBits arr pos = 0)
    let runs := s.domDown (arrDomain arr) = false ∧ s.get H.INJ_SCU arr ≤ s.now
    runs ∧ clean) ∧
    (∃ (arr ch src slot : Nat) (s : State),
    arr < 10 ∧ ch < 48 ∧ src < 6 ∧ slot < 8 ∧
    let pos := s.get R.INT_ARR_POS arr
    let runs := s.domDown (arrDomain arr) = false ∧ s.get H.INJ_SCU arr ≤ s.now
    runs ∧ 4 ≤ arr ∧ s.errBits arr pos = 1) ∧
    (∃ (arr ch src slot : Nat) (s : State),
    arr < 10 ∧ ch < 48 ∧ src < 6 ∧ slot < 8 ∧ s.domDown 10 = false ∧ s.get H.INJ_CAL ch = 0) ∧
    (∃ (arr ch src slot : Nat) (s : State),
    arr < 10 ∧ ch < 48 ∧ src < 6 ∧ slot < 8 ∧ s.domDown 2 = false ∧ s.waits = [] ∧
    (∀ i < 6, s.get H.INJ_TU i ≤ s.now ∧ s.get H.INJ_RU i ≤ s.now) ∧ (∀ i < 10, s.get H.INJ_EU i ≤ s.now)) ∧
    (∃ (arr ch src slot : Nat) (s : State),
    arr < 10 ∧ ch < 48 ∧ src < 6 ∧ slot < 8 ∧ bit (s.get H.CLK_LOST) src = false) ∧
    (∃ (arr ch src slot : Nat) (s : State),
    arr < 10 ∧ ch < 48 ∧ src < 6 ∧ slot < 8 ∧ bit (s.get H.CLK_LOST) src = true) ∧
    (∃ (arr ch src slot : Nat) (x : InjSlot) (s : State),
    arr < 10 ∧ ch < 48 ∧ src < 6 ∧ slot < 8 ∧ s.injs.find? (fun y => y.slot == slot) = some x ∧ x.count ≠ 0 ∧
    x.start ≠ 0 ∧ x.start ≤ s.get R.HIF_CYCLE ∧ s.injOpen = true ∧ x.det = 1 ∧ s.waits = []) ∧
    (∃ (mb arr ch src slot : Nat) (s : State),
    arr < 10 ∧ ch < 48 ∧ src < 6 ∧ slot < 8 ∧
    let a := s.injPars mb
    Ready s mb 0x0B00 36 ∧ s.injRefuse mb a = 0) ∧
    (∃ (mb arr ch src slot : Nat) (s : State),
    arr < 10 ∧ ch < 48 ∧ src < 6 ∧ slot < 8 ∧
    let a := s.injPars mb
    Ready s mb 0x0B00 36 ∧ s.injRefuse mb a ≠ 0) ∧
    (∃ (mb arr ch src slot : Nat) (s : State),
    arr < 10 ∧ ch < 48 ∧ src < 6 ∧ slot < 8 ∧
    let k := s.par mb 0 4
    Ready s mb 0x0B01 4 ∧ (k < 8 ∨ k = 0xFFFF)) ∧
    (∃ (mb arr ch src slot : Nat) (s : State),
    arr < 10 ∧ ch < 48 ∧ src < 6 ∧ slot < 8 ∧
    let k := s.par mb 0 4
    Ready s mb 0x0B01 4 ∧ 8 ≤ k ∧ k ≠ 0xFFFF) ∧
    (∃ (mb arr ch src slot : Nat) (s : State),
    arr < 10 ∧ ch < 48 ∧ src < 6 ∧ slot < 8 ∧ Ready s mb 0x0B02 8) ∧
    (∃ (mb arr ch src slot : Nat) (s : State),
    arr < 10 ∧ ch < 48 ∧ src < 6 ∧ slot < 8 ∧ Ready s mb 0x0B03 12) :=
  ⟨⟨4, 47, 5, 7, State.reset, by and_intros <;> decide +kernel⟩,
   ⟨0, 47, 5, 7, up, by and_intros <;> decide +kernel⟩,
   ⟨9, 47, 5, 7, { set up [(R.INT_ARR_POS,9,16)] with arrErrs := [⟨9,16,1⟩] }, by and_intros <;> decide +kernel⟩,
   ⟨0, 47, 5, 7, up, by and_intros <;> decide +kernel⟩,
   ⟨0, 47, 5, 7, up, by and_intros <;> decide +kernel⟩,
   ⟨4, 47, 5, 7, State.reset, by and_intros <;> decide +kernel⟩,
   ⟨9, 47, 0, 7, set up [(H.CLK_LOST,0,0x3F)], by and_intros <;> decide +kernel⟩,
   ⟨9, 47, 5, 7, { w13i with start := 40 }, { w13x [(R.SEC_STATE_STATE,0,1),(R.HIF_CYCLE,0,40)] with injs := [{ w13i with start := 40 }] }, by and_intros <;> decide +kernel⟩,
   ⟨31, 9, 47, 5, 7, w13q 0xB00 [1,5,1,0,0,0,0,6,0] [(R.SEC_STATE_STATE,0,1)], by and_intros <;> first | decide +kernel | (constructor <;> decide +kernel)⟩,
   ⟨31, 9, 47, 5, 7, w13q 0xB00 [32,5,1,0,0,0,0,6,0] [(R.SEC_STATE_STATE,0,1)], by and_intros <;> first | decide +kernel | (constructor <;> decide +kernel)⟩,
   ⟨31, 9, 47, 5, 7, w13q 0xB01 [0xFFFF] [], by and_intros <;> first | decide +kernel | (constructor <;> decide +kernel)⟩,
   ⟨31, 9, 47, 5, 7, w13q 0xB01 [8] [], by and_intros <;> first | decide +kernel | (constructor <;> decide +kernel)⟩,
   ⟨31, 9, 47, 5, 7, { w13q 0xB02 [0xFFFFFFFF,2] [] with evlog := [w13e 1,w13e 0,w13e 0xFFFFFFFF] }, by and_intros <;> first | decide +kernel | (constructor <;> decide +kernel)⟩,
   ⟨31, 9, 47, 5, 7, w13q 0xB03 [1,2,3] [], by and_intros <;> first | decide +kernel | (constructor <;> decide +kernel)⟩⟩

/-- What Obligations.PowerStatesAndResets assumes holds somewhere, clause by clause. -/
theorem wit_PowerStatesAndResets :
    (∃ (s : State),
    (s.get H.PWR_STBY = 1 ∨ s.get H.PWR_STBY = 2) ∧ s.insts = []) ∧
    (∃ (s : State),
    s.get H.PWR_STBY = 1 ∧ s.insts ≠ []) ∧
    (∃ (s : State),
    s.get H.PWR_STBY = 3) ∧
    (∃ (cause : Nat) (s : State),
    let hold := s.get H.PWR_HOLD
    hold = 8 ∧ 1 ≤ cause ∧ cause ≤ 4 ∧ (cause = 2 → s.get R.PWR_WAKE_TMR ≠ 0)) ∧
    (∃ (s : State),
    let hold := s.get H.PWR_HOLD
    bit hold 0 = false ∧ bit hold 2 = false) ∧
    (∃ (s : State),
    let hold := s.get H.PWR_HOLD
    hold = 0) ∧
    (∃ (s : State),
    s.domDown 2 = false ∧ s.get H.MC_HALT = 0) ∧
    (∃ (s : State),
    s.domDown 1 = false ∧ s.attach ≠ 1) ∧
    (∃ (s : State),
    s.bootMay = true ∧ s.slotBoots (s.get H.FW_ACT) = true ∧ s.images = []) ∧
    (∃ (s : State),
    s.bootMay = true ∧ s.slotBoots (s.get H.FW_ACT) = false ∧ s.slotBoots (1 - s.get H.FW_ACT) = false) ∧
    (∃ (mb : Nat) (s : State),
    let p := s.par mb 0 4
    Ready s mb 0x0C00 12 ∧ s.get H.PWR_STBY = 0 ∧ p < 2) ∧
    (∃ (mb : Nat) (s : State),
    let p := s.par mb 0 4
    Ready s mb 0x0C00 12 ∧ s.get H.PWR_STBY = 0 ∧ 2 ≤ p ∧ s.standbyBar ≠ 0) ∧
    (∃ (mb : Nat) (s : State),
    let p := s.par mb 0 4
    Ready s mb 0x0C00 12 ∧ s.get H.PWR_STBY = 0 ∧ p = 2 ∧ s.standbyBar = 0) ∧
    (∃ (mb : Nat) (s : State),
    let p := s.par mb 0 4
    Ready s mb 0x0C00 12 ∧ s.get H.PWR_STBY = 0 ∧ 2 < p ∧ s.standbyBar = 0 ∧ s.flashBusy = false) ∧
    (∃ (mb : Nat) (s : State),
    let p := s.par mb 0 4
    Ready s mb 0x0C01 4 ∧ 7 < p) ∧
    (∃ (mb : Nat) (s : State),
    let p := s.par mb 0 4
    Ready s mb 0x0C01 4 ∧ p = 0) ∧
    (∃ (mb : Nat) (s : State),
    let p := s.par mb 0 4
    Ready s mb 0x0C01 4 ∧ p = 1) ∧
    (∃ (mb : Nat) (s : State),
    let p := s.par mb 0 4
    Ready s mb 0x0C01 4 ∧ 2 ≤ p ∧ p ≤ 7 ∧ s.scopeBar mb p = 0) ∧
    (∃ (mb : Nat) (s : State),
    let p := s.par mb 0 4
    Ready s mb 0x0C01 4 ∧ p ≤ 7 ∧ s.scopeBar mb p ≠ 0) ∧
    (∃ (mb : Nat) (s : State),
    Ready s mb 0x0C02 4) :=
  ⟨⟨set up [(H.PWR_STBY,0,2)], by and_intros <;> decide +kernel⟩,
   ⟨{ set up [(H.PWR_STBY,0,1)] with insts := [inst 0] }, by and_intros <;> decide +kernel⟩,
   ⟨set up [(H.PWR_STBY,0,3),(R.PWR_STATE_STATE,0,2),(R.PWR_CFG_IDLE_EN,0,1)], by decide +kernel⟩,
   ⟨2, set (w13h 8) [(R.PWR_WAKE_TMR,0,5)], by and_intros <;> decide +kernel⟩,
   ⟨set up [(H.PWR_STBY,0,2)], by and_intros <;> decide +kernel⟩,
   ⟨set up [(H.PWR_STBY,0,2)], by and_intros <;> decide +kernel⟩,
   ⟨set up [(H.PWR_STBY,0,2)], by and_intros <;> decide +kernel⟩,
   ⟨set up [(H.PWR_STBY,0,2)], by and_intros <;> decide +kernel⟩,
   ⟨set State.reset [(H.PWR_HOLD,0,0)], by and_intros <;> decide +kernel⟩,
   ⟨set State.reset [(H.FW_GOOD,0,0)], by and_intros <;> decide +kernel⟩,
   ⟨31, w13q 0xC00 [1,9,0] [], by and_intros <;> first | decide +kernel | (constructor <;> decide +kernel)⟩,
   ⟨31, w13q 0xC00 [2,9,0] [(R.AXS_STATUS_STATE,3,4)], by and_intros <;> first | decide +kernel | (constructor <;> decide +kernel)⟩,
   ⟨31, w13q 0xC00 [2,9,0] [], by and_intros <;> first | decide +kernel | (constructor <;> decide +kernel)⟩,
   ⟨31, w13q 0xC00 [9,9,0xFFFFFFFF] [], by and_intros <;> first | decide +kernel | (constructor <;> decide +kernel)⟩,
   ⟨31, w13q 0xC01 [8,1,2,3] [], by and_intros <;> first | decide +kernel | (constructor <;> decide +kernel)⟩,
   ⟨31, w13q 0xC01 [0,1,2,3] [], by and_intros <;> first | decide +kernel | (constructor <;> decide +kernel)⟩,
   ⟨31, w13q 0xC01 [1,1,2,3] [], by and_intros <;> first | decide +kernel | (constructor <;> decide +kernel)⟩,
   ⟨31, w13q 0xC01 [3,1,2,3] [], by and_intros <;> first | decide +kernel | (constructor <;> decide +kernel)⟩,
   ⟨31, w13q 0xC01 [2,1,2,3] [], by and_intros <;> first | decide +kernel | (constructor <;> decide +kernel)⟩,
   ⟨31, w13q 0xC02 [5] [], by first | decide +kernel | (constructor <;> decide +kernel)⟩⟩

/-- What Obligations.DebugReadClearsNoRcField assumes holds somewhere, clause by clause. -/
theorem wit_DebugReadClearsNoRcField :
    (∃ (s : State),
    s.tapUp = true ∧ s.inHibernate = false ∧ s.get R.SEC_DBG_LEVEL ≠ 2 ∧ s.dbgGrant 1 = 1) := by
  refine ⟨w14l 0 [(R.FIO_CNT_IGN,0,5),(R.FIO_CNT_LINKERR,0,6)], ?_⟩
  and_intros <;> decide +kernel

/-- What Obligations.SecurityRequests assumes holds somewhere, clause by clause. -/
theorem wit_SecurityRequests :
    (∃ (mb : Nat) (s : State),
    let st := s.get R.SEC_STATE_STATE
    let p := s.par mb 0 4
    let mask := p &&& 0xE
    Ready s mb 0x0C03 100 ∧ st = 0 ∧ mask ≠ 0) ∧
    (∃ (mb : Nat) (s : State),
    let st := s.get R.SEC_STATE_STATE
    Ready s mb 0x0C03 100 ∧ st ≠ 0) ∧
    (∃ (mb : Nat) (s : State),
    let st := s.get R.SEC_STATE_STATE
    let p := s.par mb 0 4
    Ready s mb 0x0C04 4 ∧ st = 1 ∧ p = s.get R.HIF_SERIAL % 2 ^ 32) ∧
    (∃ (mb : Nat) (s : State),
    let st := s.get R.SEC_STATE_STATE
    let p := s.par mb 0 4
    Ready s mb 0x0C04 4 ∧ st = 1 ∧ p ≠ s.get R.HIF_SERIAL % 2 ^ 32) ∧
    (∃ (mb : Nat) (s : State),
    let st := s.get R.SEC_STATE_STATE
    Ready s mb 0x0C04 4 ∧ st ≠ 1) ∧
    (∃ (mb : Nat) (s : State),
    let tok := s.bytes (pageOf mb) 96
    Ready s mb 0x0C05 96 ∧ s.tokenBar tok ≠ 0) ∧
    (∃ (mb : Nat) (s : State),
    let st := s.get R.SEC_STATE_STATE
    let tok := s.bytes (pageOf mb) 96
    let kind := ofBytes (tok.take 2)
    let slot := ofBytes ((tok.drop 28).take 4)
    let valid := fun (j : Nat) => bit (s.get R.SEC_KEYS_PROG) j = true ∧ bit (s.get R.SEC_KEYS_REVOKED) j = false
    Ready s mb 0x0C05 96 ∧ (tok.drop 12).take 16 = s.chal ∧ ofBytes ((tok.drop 4).take 8) = s.get R.HIF_SERIAL ∧
    1 ≤ slot ∧ slot ≤ 3 ∧ valid slot ∧ st = 2 ∧ kind = 1 ∧ s.get H.SVC_P = 0) ∧
    (∃ (mb : Nat) (s : State),
    let st := s.get R.SEC_STATE_STATE
    let tok := s.bytes (pageOf mb) 96
    let kind := ofBytes (tok.take 2)
    let slot := ofBytes ((tok.drop 28).take 4)
    let valid := fun (j : Nat) => bit (s.get R.SEC_KEYS_PROG) j = true ∧ bit (s.get R.SEC_KEYS_REVOKED) j = false
    Ready s mb 0x0C05 96 ∧ (tok.drop 12).take 16 = s.chal ∧ ofBytes ((tok.drop 4).take 8) = s.get R.HIF_SERIAL ∧
    1 ≤ slot ∧ slot ≤ 3 ∧ valid slot ∧ st = 2 ∧ kind = 2) ∧
    (∃ (mb : Nat) (s : State),
    let st := s.get R.SEC_STATE_STATE
    let p := s.par mb 0 4
    let valid := fun (j : Nat) => bit (s.get R.SEC_KEYS_PROG) j = true ∧ bit (s.get R.SEC_KEYS_REVOKED) j = false
    Ready s mb 0x0C06 4 ∧ 1 ≤ p ∧ p ≤ 3 ∧ (st = 1 ∨ st = 3) ∧ (∃ j, 1 ≤ j ∧ j ≤ 3 ∧ j ≠ p ∧ valid j)) ∧
    (∃ (mb : Nat) (s : State),
    let st := s.get R.SEC_STATE_STATE
    let p := s.par mb 0 4
    let valid := fun (j : Nat) => bit (s.get R.SEC_KEYS_PROG) j = true ∧ bit (s.get R.SEC_KEYS_REVOKED) j = false
    Ready s mb 0x0C06 4 ∧ 1 ≤ p ∧ p ≤ 3 ∧ (st = 1 ∨ st = 3) ∧ (∀ j, 1 ≤ j → j ≤ 3 → j ≠ p → ¬valid j)) ∧
    (∃ (mb : Nat) (s : State),
    let p := s.par mb 0 4
    Ready s mb 0x0C06 4 ∧ (p = 0 ∨ 3 < p)) ∧
    (∃ (mb : Nat) (s : State),
    let st := s.get R.SEC_STATE_STATE
    Ready s mb 0x0C07 0 ∧ s.isSX = true ∧ st = 3) ∧
    (∃ (mb : Nat) (s : State),
    let st := s.get R.SEC_STATE_STATE
    Ready s mb 0x0C07 0 ∧ s.isSX = true ∧ st ≠ 3) ∧
    (∃ (mb : Nat) (s : State),
    Ready s mb 0x0C07 0 ∧ s.isSX = false) ∧
    (∃ (mb : Nat) (s : State),
    Ready s mb 0x0C08 16 ∧ s.get H.DEV_OK ≠ 0) ∧
    (∃ (mb : Nat) (s : State),
    Ready s mb 0x0C08 16 ∧ s.get H.DEV_OK = 0) :=
  ⟨⟨31, w14q 0xC03 (0xE :: List.replicate 24 5) [(R.SEC_STATE_STATE,0,0)], by and_intros <;> first | decide +kernel | (constructor <;> decide +kernel)⟩,
   ⟨31, w14q 0xC03 (0xE :: List.replicate 24 5) [(R.SEC_STATE_STATE,0,1)], by and_intros <;> first | decide +kernel | (constructor <;> decide +kernel)⟩,
   ⟨31, w14q 0xC04 [0] [(R.HIF_SERIAL,0,0),(R.SEC_STATE_STATE,0,1)], by and_intros <;> first | decide +kernel | (constructor <;> decide +kernel)⟩,
   ⟨31, w14q 0xC04 [1] [(R.HIF_SERIAL,0,0),(R.SEC_STATE_STATE,0,1)], by and_intros <;> first | decide +kernel | (constructor <;> decide +kernel)⟩,
   ⟨31, w14q 0xC04 [1] [(R.HIF_SERIAL,0,0),(R.SEC_STATE_STATE,0,2)], by and_intros <;> first | decide +kernel | (constructor <;> decide +kernel)⟩,
   ⟨31, w14q 0xC05 (w14t 3 1) [], by and_intros <;> first | decide +kernel | (constructor <;> decide +kernel)⟩,
   ⟨31, w14q 0xC05 (w14t 1 3) [(R.HIF_SERIAL,0,0),(R.SEC_KEYS_PROG,0,15),(R.SEC_STATE_STATE,0,2)], by and_intros <;> first | decide +kernel | (constructor <;> decide +kernel)⟩,
   ⟨31, w14q 0xC05 (w14t 2 1) [(R.HIF_SERIAL,0,0),(R.SEC_KEYS_PROG,0,15),(R.SEC_STATE_STATE,0,2)], by and_intros <;> first | decide +kernel | (constructor <;> decide +kernel)⟩,
   ⟨31, w14q 0xC06 [3] [(R.SEC_KEYS_PROG,0,15),(R.SEC_STATE_STATE,0,3)], by and_intros <;> first | decide +kernel | (constructor <;> decide +kernel) | exact ⟨1, by decide +kernel⟩⟩,
   ⟨31, w14q 0xC06 [3] [(R.SEC_KEYS_PROG,0,15),(R.SEC_KEYS_REVOKED,0,6),(R.SEC_STATE_STATE,0,1)], by and_intros <;> first | decide +kernel | (constructor <;> decide +kernel) | exact forall_slot (by decide +kernel)⟩,
   ⟨31, w14q 0xC06 [4] [], by and_intros <;> first | decide +kernel | (constructor <;> decide +kernel)⟩,
   ⟨31, w14q 0xC07 [0] [(R.SEC_STATE_STATE,0,3)], by and_intros <;> first | decide +kernel | (constructor <;> decide +kernel)⟩,
   ⟨31, w14q 0xC07 [0] [(R.SEC_STATE_STATE,0,2)], by and_intros <;> first | decide +kernel | (constructor <;> decide +kernel)⟩,
   ⟨31, w14q 0xC07 [0] [(R.HIF_ID_VARIANT,0,0)], by and_intros <;> first | decide +kernel | (constructor <;> decide +kernel)⟩,
   ⟨31, w14q 0xC08 [1,2,3,4] [(H.DEV_OK,0,1)], by and_intros <;> first | decide +kernel | (constructor <;> decide +kernel)⟩,
   ⟨31, w14q 0xC08 [1,2,3,4] [(H.DEV_OK,0,0)], by and_intros <;> first | decide +kernel | (constructor <;> decide +kernel)⟩⟩

/-- What Obligations.TapAndDebugAccess assumes holds somewhere, clause by clause. -/
theorem wit_TapAndDebugAccess :
    (∃ (e : Nat) (s : State),
    s.tapUp = true ∧ e < 16 ∧
    let live := s.inHibernate = false
    let lvl := s.get R.SEC_DBG_LEVEL
    live ∧ lvl = 2 ∧ s.dbgPaired = false) ∧
    (∃ (e : Nat) (s : State),
    s.tapUp = true ∧ e < 16 ∧
    let live := s.inHibernate = false
    let lvl := s.get R.SEC_DBG_LEVEL
    live ∧ (lvl ≠ 2 ∨ s.dbgPaired = true)) ∧
    (∃ (e k : Nat) (s : State),
    s.tapUp = true ∧ e < 16 ∧
    let lvl := s.get R.SEC_DBG_LEVEL
    lvl = 2 ∧ s.domDown (6 + e / 4) = false ∧ k < 2) ∧
    (∃ (core e : Nat) (s : State),
    s.tapUp = true ∧ e < 16 ∧
    let lvl := s.get R.SEC_DBG_LEVEL
    s.haltMay core = true ∧ core < 16 ∧ lvl = 2) ∧
    (∃ (core e : Nat) (s : State),
    s.tapUp = true ∧ e < 16 ∧
    let lvl := s.get R.SEC_DBG_LEVEL
    s.haltMay core = true ∧ 16 ≤ core ∧ s.get H.DBG_SP = 0 ∧ lvl = 2) ∧
    (∃ (core e : Nat) (s : State),
    s.tapUp = true ∧ e < 16 ∧
    let lvl := s.get R.SEC_DBG_LEVEL
    core < 18 ∧ s.haltMay core = false ∧ lvl = 2) ∧
    (∃ (e : Nat) (s : State),
    s.tapUp = true ∧ e < 16 ∧
    let lvl := s.get R.SEC_DBG_LEVEL
    s.get H.ENG_HALT e ≠ 0 ∧ lvl = 2) ∧
    (∃ (e : Nat) (s : State),
    s.tapUp = true ∧ e < 16 ∧
    let lvl := s.get R.SEC_DBG_LEVEL
    s.get H.ENG_HALT e ≠ 0 ∧ lvl ≠ 2) :=
  ⟨⟨15, w14l 2 [], by and_intros <;> decide +kernel⟩,
   ⟨15, w14l 1 [], by and_intros <;> decide +kernel⟩,
   ⟨15, 0, w14l 2 [], by and_intros <;> decide +kernel⟩,
   ⟨3, 15, w14l 2 [], by and_intros <;> decide +kernel⟩,
   ⟨16, 15, w14l 2 [], by and_intros <;> decide +kernel⟩,
   ⟨17, 15, w14l 2 [], by and_intros <;> decide +kernel⟩,
   ⟨15, w14l 2 [(H.ENG_HALT,15,1)], by and_intros <;> decide +kernel⟩,
   ⟨15, w14l 1 [(H.ENG_HALT,15,1)], by and_intros <;> decide +kernel⟩⟩

/-- What Obligations.EngineWordsDecodeAndRun assumes holds somewhere, clause by clause. -/
theorem wit_EngineWordsDecodeAndRun :
    (∃ (w : Nat), bits w 28 4 ∈ [0xC, 0xD, 0xF]) ∧
    (∃ (e w w2 : Nat) (i : Instr), engDecode e w w2 = some i) :=
  ⟨⟨0xF0000000, by decide +kernel⟩, ⟨15, 0xE0300000, 0x12345678, .ldi 15 3 0x12345678, by decide +kernel⟩⟩

end Sys2Proof.Tests
end

section
/-! SUPPORT. Host accesses to BAR0: the places of fields, the size of a word, and what an access that reaches a word
does. -/

namespace Sys2Proof.Machine

/-! ### Runs through lists -/

/-- What every step of a run keeps, the run keeps. -/
theorem State.each_induction {α : Type} {P : State → Prop} {f : State → α → State} {l : List α}
    (hf : ∀ t, ∀ x ∈ l, P t → P (f t x)) {s : State} (h : P s) : P (s.each l f) := by
  induction l generalizing s with
  | nil => exact h
  | cons x l ih =>
    exact ih (fun t y hy => hf t y (List.mem_cons_of_mem _ hy)) (hf s x (List.mem_cons_self ..) h)

/-- A run may leave out what its step ignores. -/
theorem State.each_filter_of_ignores {α : Type} {f : State → α → State} (p q : α → Bool)
    (hf : ∀ s x, q x = false → f s x = s) (s : State) (l : List α) :
    s.each (l.filter p) f = s.each (l.filter fun x => p x && q x) f := by
  induction l generalizing s with
  | nil => rfl
  | cons x l ih =>
    cases hp : p x
    · simpa only [List.filter_cons, hp, Bool.false_and, Bool.false_eq_true, if_false] using ih s
    · cases hq : q x
      · simp only [List.filter_cons, hp, hq, Bool.and_false, Bool.false_eq_true, if_false, if_true]
        exact (congrArg (State.each · (l.filter p) f) (hf s x hq)).trans (ih s)
      · simp only [List.filter_cons, hp, hq, Bool.and_self, if_true]
        exact ih (f s x)

/-- Where one field of an access kind has a place in the word at `a`, a run through the fields of that kind is the step of
this field. -/
theorem State.each_of_single {step : State → Fld → State} {fs : List Fld} {acc : Acc} {a : Nat} {f : Fld}
    (hf : (fs.filter fun g => g.acc == acc && (fldAt g a).isSome) = [f])
    (hn : ∀ s g, fldAt g a = none → step s g = s) (s : State) :
    s.each (fs.filter fun g => g.acc == acc) step = step s f := by
  rw [State.each_filter_of_ignores _ (fun g => (fldAt g a).isSome), hf]
  · rfl
  · exact fun s g hg => hn s g (Option.isNone_iff_eq_none.1 (Option.isSome_eq_false_iff.1 hg))

theorem State.when_induction {P : State → Prop} {s : State} {c : Bool} {f : State → State} (h : P s) (hf : P (f s)) :
    P (s.when c f) := by
  cases c
  · exact h
  · exact hf

/-! ### The place of a field -/

/-- A field stands where it is found. -/
theorem fkey_of_fldAt {f : Fld} {b i j : Nat} (h : fldAt f b = some (i, j)) : fkey f i j = 8 * b + f.lo := by
  simp only [fldAt, Option.ite_none_left_eq_some, Option.ite_none_right_eq_some, Option.some.injEq, Prod.mk.injEq] at h
  obtain ⟨hb, ⟨hr, -, -⟩, hi, hj⟩ := h
  rw [hi] at hr hj
  rw [hj] at hr
  have hle : f.stride * i ≤ b - f.base := by
    rw [← hi]
    split
    · simp
    · exact Nat.mul_div_le ..
  unfold fkey
  omega

/-- A region of BAR0 has one list of fields (R256). -/
theorem bar0Fields_congr {a b : Nat} (h : a / 0x10000 = b / 0x10000) : bar0Fields a = bar0Fields b := by
  unfold bar0Fields
  rw [h]

/-- RC fields begin at bit 0 of their words. -/
theorem lo_of_rc {a : Nat} {f : Fld} (hf : f ∈ bar0Fields a) (hr : f.acc = .RC) : f.lo = 0 := by
  have key : ∀ f ∈ bar0Fields a, f.acc = .RC → f.lo = 0 := by
    unfold bar0Fields
    split <;> decide +kernel
  exact key f hf hr

/-! ### The size of a word -/

theorem State.fldPart_lt (s : State) (f : Fld) (w k : Nat) : s.fldPart f w k < 2 ^ 32 := by
  unfold State.fldPart
  split
  · decide
  · exact Nat.mod_lt _ (by decide)

theorem State.fldHigh_lt (s : State) (f : Fld) (w : Nat) : s.fldHigh f w < 2 ^ 32 := by
  unfold State.fldHigh
  split
  · decide
  · split
    · decide
    · exact Nat.mod_lt _ (by decide)

theorem State.fldWord_lt (s : State) (f : Fld) (w : Nat) : s.fldWord f w < 2 ^ 32 := by
  unfold State.fldWord
  split
  · decide
  · have hp := s.fldPart_lt f w
    exact Nat.or_lt_two_pow (Nat.or_lt_two_pow (Nat.or_lt_two_pow (Nat.or_lt_two_pow (hp 0) (hp 1)) (hp 2)) (hp 3))
      (s.fldHigh_lt f w)

theorem State.word_lt (s : State) (fs : List Fld) (w : Nat) : s.word fs w < 2 ^ 32 := by
  have key : ∀ n < 2 ^ 32, fs.foldl (fun acc f => acc ||| s.fldWord f w) n < 2 ^ 32 := by
    induction fs with
    | nil => exact fun n hn => hn
    | cons f fs ih => exact fun n hn => ih _ (Nat.or_lt_two_pow hn (s.fldWord_lt f w))
  exact key 0 (by decide)

theorem ofBytes_lt (l : List Nat) : ofBytes l < 256 ^ l.length := by
  induction l with
  | nil => decide
  | cons b l ih =>
    have hb : b % 256 < 256 := Nat.mod_lt _ (by decide)
    simp only [ofBytes, List.length_cons, Nat.pow_succ]
    omega

theorem State.load_lt (s : State) (a n : Nat) : s.load a n < 256 ^ n := by
  simpa [State.load] using ofBytes_lt (s.bytes a n)

theorem b2n_le (b : Bool) : b2n b ≤ 1 := by cases b <;> decide

/-- A number put together from `n` bits is below `2^n`. -/
theorem sum_bits_lt (c : Nat → Bool) (n : Nat) :
    (List.range n).foldl (fun m p => m + b2n (c p) * 2 ^ p) 0 < 2 ^ n := by
  induction n with
  | zero => exact Nat.two_pow_pos 0
  | succ n ih =>
    rw [List.range_succ, List.foldl_append, Nat.pow_succ]
    have hb := Nat.mul_le_mul_right (2 ^ n) (b2n_le (c n))
    simp only [List.foldl_cons, List.foldl_nil]
    omega

theorem State.rdyView_lt (s : State) : s.rdyView < 2 ^ 32 := Nat.lt_trans (sum_bits_lt _ 8) (by decide)

/-- A word of BAR0 has 32 bits (R6). -/
theorem State.bar0Word_lt (s : State) (a : Nat) : s.bar0Word a < 2 ^ 32 := by
  unfold State.bar0Word
  split_ifs
  · exact s.load_lt _ 4
  · exact State.word_lt ..
  · exact State.word_lt ..
  · exact State.word_lt ..
  · exact s.rdyView_lt
  · exact State.word_lt ..
  · exact State.word_lt ..
  · exact State.word_lt ..

end Sys2Proof.Machine

namespace Sys2Proof.Claims
open Sys2Proof.Machine

/-! ### Places of fields that clear on reading -/

/-- An RC field of a word stands at the word's first bit. -/
theorem eq_of_mem_rcPlaces {a k : Nat} (h : k ∈ accPlaces .RC a) : k = 8 * a := by
  simp only [accPlaces, List.mem_filterMap, List.mem_filter, beq_iff_eq, Option.map_eq_some_iff] at h
  obtain ⟨f, ⟨hf, hr⟩, ⟨i, j⟩, hp, rfl⟩ := h
  rw [fkey_of_fldAt hp, lo_of_rc hf hr, Nat.add_zero]

/-- A place is no RC field's where the word it lies in has none. -/
theorem not_mem_rcPlaces {k : Nat} (h : accPlaces .RC (k / 8) = []) (a : Nat) : k ∉ accPlaces .RC a := by
  intro hk
  have ha : a = k / 8 := by have := eq_of_mem_rcPlaces hk; omega
  rw [ha, h] at hk
  exact List.not_mem_nil hk

/-- No latch is an RC field. -/
theorem latch_not_mem_rcPlaces (b : Nat) {a : Nat} (ha : a < 0x1000000) : fkey H.LAT_HI b 0 ∉ accPlaces .RC a := by
  intro hk
  have := eq_of_mem_rcPlaces hk
  simp only [fkey, H.LAT_HI] at this
  omega

/-- The latch of a register is the latch of no other. -/
theorem latch_ne {a b : Nat} (h : a ≠ b) : fkey H.LAT_HI a 0 ≠ fkey H.LAT_HI b 0 := by
  simp only [fkey, H.LAT_HI]
  omega

/-! ### Which words an access reaches -/

variable {s t : State} {i : Ifc} {a : Nat} {ks : List Nat}

theorem Reaches.not_unmapped (h : Reaches s i a) : (i == .qspi && !qspiMapped a) = false := by
  cases i with
  | qspi => simp [h.mapped rfl]
  | _ => rfl

theorem Reaches.barFault (h : Reaches s i a) : s.barFault i a = none := by
  unfold State.barFault
  split
  · rename_i n hn
    simp [h.owner n hn, h.domain]
  · simp [h.domain]

theorem Reaches.wordFault (h : Reaches s i a) : s.wordFault i a = none := by
  have hf := h.barFault
  have hr : a % 0x1000000 = a := Nat.mod_eq_of_lt h.range
  cases i with
  | bar0 => simpa only [State.wordFault, hr] using hf
  | bar2 => exact absurd rfl h.bar0
  | qspi => simp only [State.wordFault, hr, hf, ite_self]

theorem Reaches.regUp (h : Reaches s i a) : s.regUp i a = true := by
  cases i with
  | bar2 => exact absurd rfl h.bar0
  | bar0 => simp [State.regUp, h.up, h.domain]
  | qspi => simp [State.regUp, h.up, h.domain, h.mapped rfl]

/-- The two words of an aligned pair are reached together over PCIe. -/
theorem Reaches.next (h : Reaches s .bar0 a) (ha : a % 8 = 0) : Reaches s .bar0 (a + 4) := by
  have hr := h.range
  have hd : bar0Dom (a + 4) = bar0Dom a := by
    unfold bar0Dom
    rw [show (a + 4) / 0x10000 = a / 0x10000 by omega]
    exact if_congr (by omega) rfl rfl
  have hm : mbOf (a + 4) = mbOf a := by
    unfold mbOf
    rw [show (a + 4 - 0x10000) / 0x40 = (a - 0x10000) / 0x40 by omega,
      show (a + 4 - 0x20000) / 0x1000 = (a - 0x20000) / 0x1000 by omega]
    exact if_congr (by omega) rfl (if_congr (by omega) rfl rfl)
  exact ⟨h.up, h.bar0, nofun, hd ▸ h.domain, hm ▸ h.owner, by omega, by omega⟩

end Sys2Proof.Claims
end

section
/-! SUPPORT. Reads of words of BAR0 (R10, R11, R28, R250), and what they claim. -/

namespace Sys2Proof.Machine

/-! ### What a read of a word does to the state -/

/-- The state after a read of the word at `a` that no latch answers: a low half latches its high half, the RC fields
clear, the low half of the time latches the time's fraction (R10, R11, R250). -/
def State.afterRead (s : State) (a : Nat) : State :=
  ((s.when (isLow (bar0Fields a) a) fun t => t.put H.LAT_HI (2 ^ 32 + s.bar0Word (a + 4)) a).rcClear
    (bar0Fields a) a).when (a == 0x60000) fun t => t.put H.LAT_HI (2 ^ 32 + s.get R.DCK_FRAC) 0x60008

/-- What a step of a clearing read keeps, the clearing keeps. -/
theorem State.rcClear_induction {P : State → Prop} {s : State} {fs : List Fld} {a : Nat}
    (hf : ∀ t f i j, f ∈ fs → f.acc = .RC → fldAt f a = some (i, j) → P t → P (t.put f 0 i j)) (h : P s) :
    P (s.rcClear fs a) := by
  refine State.each_induction (fun t f hm ht => ?_) h
  obtain ⟨hm, hr⟩ := List.mem_filter.1 hm
  split
  · rename_i i j hp
    exact hf t f i j hm (eq_of_beq hr) hp ht
  · exact ht

/-- A word with one RC field: the read clears that field. -/
theorem State.rcClear_of_single {s : State} {fs : List Fld} {a i j : Nat} {f : Fld}
    (hs : (fs.filter fun g => g.acc == .RC && (fldAt g a).isSome) = [f]) (hp : fldAt f a = some (i, j)) :
    s.rcClear fs a = s.put f 0 i j := by
  unfold State.rcClear
  rw [State.each_of_single hs fun s g hg => by simp only [hg]]
  simp only [hp]

/-- A word with one RC field: that field counts the events. -/
theorem State.rcEvents_of_single {s : State} {a ev i j : Nat} {f : Fld}
    (hs : ((bar0Fields a).filter fun g => g.acc == .RC && (fldAt g a).isSome) = [f]) (hp : fldAt f a = some (i, j)) :
    s.rcEvents a ev = s.addSat f ev i j := by
  unfold State.rcEvents
  rw [State.each_of_single hs fun s g hg => by simp only [hg]]
  simp only [hp]

/-- A latched half is bit 32 and the half. -/
theorem latch_value {w : Nat} (h : w < 2 ^ 32) : (2 ^ 32 + w) % 2 ^ H.LAT_HI.width = 2 ^ 32 + w :=
  Nat.mod_eq_of_lt (by simp only [H.LAT_HI]; omega)

theorem latch_full {w : Nat} (h : w < 2 ^ 32) : bit (2 ^ 32 + w) 32 = true := by
  simp only [bit, beq_iff_eq]
  omega

theorem latch_half {w : Nat} (h : w < 2 ^ 32) : (2 ^ 32 + w) % 2 ^ 32 = w := by omega

end Sys2Proof.Machine

namespace Sys2Proof.Claims
open Sys2Proof.Machine

variable {s t : State} {i : Ifc} {a : Nat}

/-! ### The state after a read -/

theorem mem_rcPlaces {f : Fld} {k j : Nat} (hf : f ∈ bar0Fields a) (hr : f.acc = .RC) (hp : fldAt f a = some (k, j)) :
    fkey f k j ∈ accPlaces .RC a := by
  simp only [accPlaces, List.mem_filterMap, List.mem_filter, beq_iff_eq, Option.map_eq_some_iff]
  exact ⟨f, ⟨hf, hr⟩, _, hp, rfl⟩

theorem rcClear_kept {ks : List Nat} (hk : ∀ k ∈ accPlaces .RC a, k ∈ ks) (h : RegsKept ks s t) :
    RegsKept ks s (t.rcClear (bar0Fields a) a) :=
  State.rcClear_induction (fun _ _ _ _ hf hr hp h => kept_put (hk _ (mem_rcPlaces hf hr hp)) h) h

theorem rcClear_mem (s : State) (fs : List Fld) (a : Nat) : (s.rcClear fs a).mem = s.mem :=
  State.rcClear_induction (P := fun t => t.mem = s.mem) (fun _ _ _ _ _ _ _ h => h) rfl

theorem lists_rcClear (s : State) (fs : List Fld) (a : Nat) : lists (s.rcClear fs a) = lists s :=
  State.rcClear_induction (P := fun t => lists t = lists s) (fun _ _ _ _ _ _ _ h => h) rfl

/-- The places that a read of the word at `a` may write. -/
def readPlaces (a : Nat) : List Nat :=
  (if isLow (bar0Fields a) a then [fkey H.LAT_HI a 0] else []) ++
    (if a = 0x60000 then [fkey H.LAT_HI 0x60008 0] else []) ++ accPlaces .RC a

theorem afterRead_mem (s : State) (a : Nat) : (s.afterRead a).mem = s.mem :=
  (State.when_same State.mem _ _ rfl).trans ((rcClear_mem ..).trans (State.when_same State.mem _ _ rfl))

theorem lists_afterRead (s : State) (a : Nat) : lists (s.afterRead a) = lists s :=
  (State.when_same lists _ _ rfl).trans ((lists_rcClear ..).trans (State.when_same lists _ _ rfl))

theorem afterRead_kept (s : State) (a : Nat) : RegsKept (readPlaces a) s (s.afterRead a) := by
  have hlow : RegsKept (readPlaces a) s
      (s.when (isLow (bar0Fields a) a) fun t => t.put H.LAT_HI (2 ^ 32 + s.bar0Word (a + 4)) a) := by
    cases hl : isLow (bar0Fields a) a
    · exact kept_refl _ _
    · exact kept_put (by simp [readPlaces, hl]) (kept_refl _ _)
  have hrc := rcClear_kept (ks := readPlaces a) (a := a) (fun k hk => List.mem_append_right _ hk) hlow
  by_cases ha : a = 0x60000
  · subst ha
    exact kept_put (by simp [readPlaces]) hrc
  · simpa only [State.afterRead, beq_eq_false_iff_ne.2 ha, State.when_false] using hrc

/-- A read of a low half latches the high half as it stands (R10). -/
theorem afterRead_latch (hl : isLow (bar0Fields a) a = true) (ha : a < 0x1000000) :
    (s.afterRead a).get H.LAT_HI a = 2 ^ 32 + s.bar0Word (a + 4) := by
  have hput : (s.put H.LAT_HI (2 ^ 32 + s.bar0Word (a + 4)) a).get H.LAT_HI a = 2 ^ 32 + s.bar0Word (a + 4) := by
    rw [State.get_put_self, latch_value (s.bar0Word_lt _)]
  have hrc := (rcClear_kept (a := a) (fun _ h => h) (kept_refl _ (s.put H.LAT_HI (2 ^ 32 + s.bar0Word (a + 4)) a)))
    H.LAT_HI a 0 (latch_not_mem_rcPlaces a ha)
  unfold State.afterRead
  rw [hl, State.when_true]
  cases hf : a == 0x60000
  · exact hrc.trans hput
  · rw [State.when_true, State.get_put_ne _ _ (latch_ne (by rw [eq_of_beq hf]; decide))]
    exact hrc.trans hput

/-- A read of the low half of the time latches the time's fraction (R250). -/
theorem afterRead_frac (s : State) : (s.afterRead 0x60000).get H.LAT_HI 0x60008 = 2 ^ 32 + s.get R.DCK_FRAC := by
  have hf : s.get R.DCK_FRAC < 2 ^ 32 := Nat.lt_trans (s.get_lt ..) (by decide)
  exact (State.get_put_self ..).trans (latch_value hf)

/-- A word without a 64-bit register's low half: its read clears the RC fields, and that is all. -/
theorem afterRead_of_not_low (hl : isLow (bar0Fields a) a = false) : s.afterRead a = s.rcClear (bar0Fields a) a := by
  have ha : (a == 0x60000) = false := by
    rw [beq_eq_false_iff_ne]
    rintro rfl
    exact absurd hl (by decide +kernel)
  simp only [State.afterRead, hl, ha, State.when_false]

/-! ### Reads of one word -/

theorem readWord_eq_readBar0 (h : Reaches s i a) : s.readWord i a = s.readBar0 i a := by
  have hr : a % 0x1000000 = a := Nat.mod_eq_of_lt h.range
  cases i with
  | bar2 => exact absurd rfl h.bar0
  | _ => simp only [State.readWord, hr]

/-- A word that no latch answers returns itself. -/
theorem readWord_fresh (h : Reaches s i a) (hh : isHigh (bar0Fields a) a = false)
    (hd : a ≠ 0x60008 ∨ bit (s.get H.LAT_HI a) 32 = false) : s.readWord i a = (s.bar0Word a, s.afterRead a) := by
  have hd' : ¬ (a = 0x60008 ∧ bit (s.get H.LAT_HI a) 32 = true) := by
    rintro ⟨ha, hb⟩
    rcases hd with hd | hd
    · exact hd ha
    · exact absurd hb (by simp [hd])
  rw [readWord_eq_readBar0 h]
  unfold State.readBar0
  rw [h.not_unmapped, h.barFault]
  simp only [Bool.false_eq_true, if_false, if_neg hd', State.readHalf, hh, false_and]
  rfl

/-- A high half returns what the low half's read latched, and nothing changes (R10). -/
theorem readWord_latched (h : Reaches s i a) (hh : isHigh (bar0Fields a) a = true)
    (hb : bit (s.get H.LAT_HI (a - 4)) 32 = true) : s.readWord i a = (s.get H.LAT_HI (a - 4) % 2 ^ 32, s) := by
  have hfrac : a ≠ 0x60008 := by
    rintro rfl
    exact absurd hh (by decide +kernel)
  have htime : (a == 0x60000) = false := by
    rw [beq_eq_false_iff_ne]
    rintro rfl
    exact absurd hh (by decide +kernel)
  rw [readWord_eq_readBar0 h]
  unfold State.readBar0
  rw [h.not_unmapped, h.barFault]
  simp only [Bool.false_eq_true, if_false, hfrac, false_and, State.readHalf, hh, hb, and_self, if_true, htime,
    State.when_false]

/-- The fraction of the time returns what the time's read latched, and nothing changes (R250). -/
theorem readWord_frac (h : Reaches s i 0x60008) (hb : bit (s.get H.LAT_HI 0x60008) 32 = true) :
    s.readWord i 0x60008 = (s.get H.LAT_HI 0x60008 % 2 ^ 32, s) := by
  rw [readWord_eq_readBar0 h]
  unfold State.readBar0
  rw [h.not_unmapped, h.barFault]
  simp only [Bool.false_eq_true, if_false, hb, and_self, if_true]

/-! ### Reads of bytes -/

/-- A read of four bytes of a reached word is the read of the word. -/
theorem readBytes_word (h : Reaches s i a) :
    s.readBytes i a 4 = { (s.readWord i a).2 with rdata := toBytes 4 (s.readWord i a).1 } := by
  have ha := h.aligned
  have hr := h.range
  have h4 : 4 * (a / 4) = a := by omega
  have hw : (if (i == .qspi) = true then a % 0x1000000 else a) = a := by split <;> omega
  unfold State.readBytes
  rw [h.up]
  simp only [Bool.not_true, Bool.false_eq_true, if_false, show (a + 4 + 3) / 4 - a / 4 = 1 by omega, List.range_one,
    List.map_cons, List.map_nil, Nat.add_zero, h4, hw, ha]
  have hlog : s.logAccess i false [a] = s := by simp [State.logAccess, h.wordFault]
  rw [hlog]
  rfl

/-- A read of eight bytes over PCIe reads the two words, the low one first. -/
theorem readBytes_pair (h : Reaches s .bar0 a) (ha : a % 8 = 0) :
    s.readBytes .bar0 a 8 =
      { ((s.readWord .bar0 a).2.readWord .bar0 (a + 4)).2 with
        rdata := toBytes 4 (s.readWord .bar0 a).1 ++ toBytes 4 ((s.readWord .bar0 a).2.readWord .bar0 (a + 4)).1 } := by
  have h4 : 4 * (a / 4) = a := by omega
  have h4' : 4 * (a / 4 + 1) = a + 4 := by omega
  have hlog : s.logAccess .bar0 false [a, a + 4] = s := by
    simp [State.logAccess, h.wordFault, (h.next ha).wordFault]
  unfold State.readBytes
  rw [h.up]
  simp only [Bool.not_true, Bool.false_eq_true, if_false, show (a + 8 + 3) / 4 - a / 4 = 2 by omega, List.range_succ,
    List.range_zero, List.nil_append, List.cons_append, List.map_cons, List.map_nil, Nat.add_zero, h4, h4',
    show a % 4 = 0 by omega, show (Ifc.bar0 == Ifc.qspi) = false from rfl, hlog]
  rfl

end Sys2Proof.Claims
end

section
/-! PROOFS. Reads of words (R10, R11, R28, R250): the second word of a pair, and the claims of reads. -/

namespace Sys2Proof.Claims
open Sys2Proof.Machine

variable {s t : State} {i : Ifc} {a : Nat} {ks : List Nat}

/-! ### The second word of a pair -/

/-- The registers that say whether an access reaches a word (R28, R251, R253). -/
def reachPlaces : List Nat :=
  [fkey R.PWR_DOM_ON 0 0, fkey R.PWR_DOM_RST 0 0, fkey R.HIF_STATUS_HSEL 0 0, fkey H.D3HOT 0 0, fkey H.CLK_LOST 0 0]

/-- An access reaches a word still after a change that leaves those registers. -/
theorem Reaches.of_kept (h : Reaches s i a) (hk : RegsKept ks s t) (hks : ∀ k ∈ reachPlaces, k ∉ ks) :
    Reaches t i a := by
  simp only [reachPlaces, List.forall_mem_cons, List.not_mem_nil, false_imp_iff, implies_true, and_true] at hks
  obtain ⟨hon, hrst, hsel, hd3, hclk⟩ := hks
  have hattach : t.attach = s.attach := by simp only [State.attach, hk _ _ _ hsel]
  have hdom : ∀ d, t.domDown d = s.domDown d := fun d => by simp only [State.domDown, hk _ _ _ hon, hk _ _ _ hrst]
  have hup : t.ifcUp i = s.ifcUp i := by
    simp only [State.ifcUp, State.on, hdom, hattach, hk _ _ _ hd3, hk _ _ _ hclk]
  have howns : ∀ n, t.owns i n = s.owns i n := fun n => by
    simp only [State.owns, State.qspiOwns, State.pcieOwns, hattach]
  refine ⟨hup.trans h.up, h.bar0, h.mapped, ?_, fun n hn => (howns n).trans (h.owner n hn), h.aligned, h.range⟩
  simpa only [State.barDown, hdom] using h.domain

/-- A read writes none of them. -/
theorem reachPlaces_not_read (ha : a < 0x1000000) : ∀ k ∈ reachPlaces, k ∉ readPlaces a := by
  intro k hk hm
  have hlat : ∀ b < 0x1000000, k ≠ fkey H.LAT_HI b 0 := by
    intro b hb he
    simp only [reachPlaces, List.mem_cons, List.not_mem_nil, or_false] at hk
    simp only [fkey, R.PWR_DOM_ON, R.PWR_DOM_RST, R.HIF_STATUS_HSEL, H.D3HOT, H.CLK_LOST, H.LAT_HI] at hk he
    omega
  have hrc : k ∉ accPlaces .RC a := by
    refine not_mem_rcPlaces ?_ a
    have key : ∀ k ∈ reachPlaces, accPlaces .RC (k / 8) = [] := by decide +kernel
    exact key k hk
  simp only [readPlaces, List.mem_append, hrc, or_false] at hm
  rcases hm with hm | hm
  · split at hm
    · exact hlat a ha (List.mem_singleton.1 hm)
    · exact List.not_mem_nil hm
  · split at hm
    · exact hlat 0x60008 (by decide) (List.mem_singleton.1 hm)
    · exact List.not_mem_nil hm

/-- After a read of the low half the read of the high half returns the value of the same moment (R10). -/
theorem readWord_high_after_low (h : Reaches s .bar0 a) (ha : a % 8 = 0) (hl : isLow (bar0Fields a) a = true) :
    (s.afterRead a).readWord .bar0 (a + 4) = (s.bar0Word (a + 4), s.afterRead a) := by
  have hr : Reaches (s.afterRead a) .bar0 (a + 4) :=
    (h.next ha).of_kept (afterRead_kept s a) (reachPlaces_not_read h.range)
  have hlat := afterRead_latch (s := s) hl h.range
  have hw := s.bar0Word_lt (a + 4)
  have hh : isHigh (bar0Fields (a + 4)) (a + 4) = true := by
    rw [isHigh, Nat.add_sub_cancel, bar0Fields_congr (b := a) (by omega), hl]
    simp
  rw [readWord_latched hr hh (by rw [Nat.add_sub_cancel, hlat]; exact latch_full hw), Nat.add_sub_cancel, hlat,
    latch_half hw]

/-! ### The claims -/

/-- What a read of a reached word leaves, and returns. -/
def WordRead (s : State) (a : Nat) (t : State) : Prop :=
  t.rdata = toBytes 4 (s.bar0Word a) ∧ t.mem = s.mem ∧ lists t = { lists s with rdata := t.rdata } ∧
  RegsKept (readPlaces a) s t ∧
  (isLow (bar0Fields a) a = true → t.get H.LAT_HI a = 2 ^ 32 + s.bar0Word (a + 4) % 2 ^ 32) ∧
  (a = 0x60000 → t.get H.LAT_HI 0x60008 = 2 ^ 32 + s.get R.DCK_FRAC)

/-- The lists after a change of `rdata` and of what is no list. -/
theorem lists_rdata (h : lists t = lists s) (x : List Nat) :
    lists { t with rdata := x } = { lists s with rdata := x } := by
  rw [← h]
  rfl

/-- A read of a word that no latch answers returns it, latches what it latches, clears the RC fields, and changes nothing
else (R10, R11, R28, R250). -/
theorem readBytes_wordRead (h : Reaches s i a) (hh : isHigh (bar0Fields a) a = false)
    (hd : a ≠ 0x60008 ∨ bit (s.get H.LAT_HI a) 32 = false) : WordRead s a (s.readBytes i a 4) := by
  rw [readBytes_word h, readWord_fresh h hh hd]
  refine ⟨rfl, afterRead_mem s a, lists_rdata (lists_afterRead s a) _, afterRead_kept s a, fun hl => ?_, ?_⟩
  · rw [Nat.mod_eq_of_lt (s.bar0Word_lt _)]
    exact afterRead_latch hl h.range
  · rintro rfl
    exact afterRead_frac s

/-- An 8-byte PCIe read of an aligned address reads the bytes of that address (R10). -/
theorem exec_pcie64Read (ha : a % 8 = 0) : exec (.pcie64Read i a) s = .next (s.readBytes i a 8) := by
  show Host.Outcome.next (s.readBytes i (a / 8 * 8) 8) = _
  rw [Nat.div_mul_cancel (Nat.dvd_of_mod_eq_zero ha)]

/-- Settles O9: each of the four commands reads the bytes of one or two reached words, and what such a read does is
`readBytes_wordRead`. -/
theorem wordReadsReturnAndLatch : Obligations.WordReadsReturnAndLatch := by
  unfold Obligations.WordReadsReturnAndLatch
  refine ⟨fun i a s h hh hd => ?_, fun i a s h hh hb => ?_, fun i s h hb => ?_, fun a s h ha hl hh => ?_⟩
  · have hok : WordRead s a (s.readBytes i a 4) := readBytes_wordRead h hh hd
    have h4 : a / 4 * 4 = a := Nat.div_mul_cancel (Nat.dvd_of_mod_eq_zero h.aligned)
    refine ⟨⟨_, rfl, hok⟩, fun h8 => ⟨_, rfl, ?_⟩, ?_⟩
    · rwa [Nat.div_mul_cancel (Nat.dvd_of_mod_eq_zero h8)]
    · rintro rfl
      exact ⟨⟨_, rfl, by rwa [h4]⟩, ⟨_, rfl, by rwa [h4]⟩⟩
  · show Host.Outcome.next (s.readBytes i a 4) = _
    rw [readBytes_word h, readWord_latched h hh hb]
  · show Host.Outcome.next (s.readBytes i 0x60008 4) = _
    rw [readBytes_word h, readWord_frac h hb]
  · have hd : a ≠ 0x60008 := by
      rintro rfl
      exact absurd hl (by decide +kernel)
    refine ⟨s.readBytes .bar0 a 8, exec_pcie64Read ha, ?_⟩
    rw [readBytes_pair h ha, readWord_fresh h hh (.inl hd), readWord_high_after_low h ha hl]
    refine ⟨rfl, afterRead_mem s a, lists_rdata (lists_afterRead s a) _, ?_⟩
    refine kept_mono (afterRead_kept s a) fun k hk => ?_
    simp only [readPlaces, hl, if_true, List.mem_append, List.mem_cons] at hk ⊢
    tauto

end Sys2Proof.Claims
end

section
/-! PROOFS. What the clearing accesses claim: RC_READ and W1C_WRITE (R11, R259, R260). -/

namespace Sys2Proof.Machine

/-! ### Bits -/

theorem bit_eq_testBit (n k : Nat) : bit n k = n.testBit k := by
  rw [Nat.testBit_eq_decide_div_mod_eq]
  rfl

theorem andNot_div_two (n m : Nat) : andNot n m / 2 = andNot (n / 2) (m / 2) := by
  have hle : n &&& m ≤ n := Nat.and_le_left
  have hmod := @Nat.and_mod_two_eq_one n m
  unfold andNot
  rw [← Nat.and_div_two]
  omega

/-- Bits taken out of a number are clear, and the others stay. -/
theorem testBit_andNot (n m k : Nat) : (andNot n m).testBit k = (n.testBit k && !m.testBit k) := by
  induction k generalizing n m with
  | zero =>
    have hle : n &&& m ≤ n := Nat.and_le_left
    have hmod := @Nat.and_mod_two_eq_one n m
    rw [Bool.eq_iff_iff]
    simp only [Nat.testBit_zero, Bool.and_eq_true, Bool.not_eq_true', decide_eq_true_eq, decide_eq_false_iff_not, andNot]
    omega
  | succ k ih => rw [Nat.testBit_add_one, andNot_div_two, ih, Nat.testBit_add_one, Nat.testBit_add_one]

/-- What a W1C field of `w` bits holds after a write: its bits without those written as 1, and with those that hardware
sets in the same cycle (R11). -/
def w1cValue (w g v hw : Nat) : Nat := andNot g (v &&& 2 ^ w - 1) ||| (hw &&& 2 ^ w - 1)

theorem bit_w1cValue {w k : Nat} (g v hw : Nat) (hk : k < w) :
    bit (w1cValue w g v hw % 2 ^ w) k = ((bit g k && !bit v k) || bit hw k) := by
  simp [w1cValue, bit_eq_testBit, Nat.testBit_mod_two_pow, testBit_andNot, hk]

/-! ### W1C fields of one word -/

/-- A word with one W1C field, at its first bit: the write gives that field its value. -/
theorem State.w1cFields_of_single {s : State} {fs : List Fld} {a i j : Nat} {f : Fld} (v hw : Nat)
    (hs : (fs.filter fun g => g.acc == .W1C && (fldAt g a).isSome) = [f]) (hp : fldAt f a = some (i, j))
    (hl : f.lo = 0) : s.w1cFields fs a v hw = s.put f (w1cValue f.width (s.get f i j) v hw) i j := by
  unfold State.w1cFields
  rw [State.each_of_single hs fun s g hg => by simp only [hg]]
  simp only [hp, hl, Nat.pow_zero, Nat.div_one]
  rfl

/-- HIF_INT_STAT takes a write, and the causes that rose send their messages (R259, R260). -/
theorem State.w1cWrite_intStat (s : State) (v hw : Nat) :
    s.w1cWrite 0x30 v hw =
      (s.put R.HIF_INT_STAT (w1cValue 14 (s.get R.HIF_INT_STAT) v hw)).sendRise (s.get R.HIF_INT_STAT)
        (s.get R.HIF_INT_EN) (v &&& hw) false := by
  rw [State.w1cWrite, State.w1cFields_of_single (f := R.HIF_INT_STAT) (i := 0) (j := 0) v hw (by decide +kernel) (by decide)
    rfl]
  rfl

/-- HIF_INT_MBX_STAT takes a write, and the mailboxes' bits that rose send their messages (R259, R260). -/
theorem State.w1cWrite_intMbxStat (s : State) (v hw : Nat) :
    s.w1cWrite 0x38 v hw =
      (s.put R.HIF_INT_MBX_STAT (w1cValue 32 (s.get R.HIF_INT_MBX_STAT) v hw)).sendRise (s.get R.HIF_INT_MBX_STAT)
        (s.get R.HIF_INT_MBX_EN) (v &&& hw) true := by
  rw [State.w1cWrite, State.w1cFields_of_single (f := R.HIF_INT_MBX_STAT) (i := 0) (j := 0) v hw (by decide +kernel)
    (by decide) rfl]
  rfl

/-! ### Messages of rising bits -/

/-- What a message keeps, the messages of rising bits keep. -/
theorem State.sendRise_induction {P : State → Prop} (hm : ∀ t v, P t → P (t.sendMsix v)) {s : State} (h : P s)
    (stat0 en0 mbx : Nat) (isMbx : Bool) : P (s.sendRise stat0 en0 mbx isMbx) := by
  exact State.each_induction (fun t _ _ ht => State.when_induction ht (hm t _ ht)) h

end Sys2Proof.Machine

namespace Sys2Proof.Claims
open Sys2Proof.Machine

variable {s t : State} {i : Ifc} {a : Nat} {ks : List Nat}

/-- The pending bits and the messages sent are all that rising bits change (R260). -/
theorem sendRise_mem (s : State) (stat0 en0 mbx : Nat) (isMbx : Bool) :
    (s.sendRise stat0 en0 mbx isMbx).mem = s.mem :=
  State.sendRise_induction (P := fun t => t.mem = s.mem) (fun _ _ h => (State.sendMsix_mem ..).trans h) rfl ..

theorem quiet_sendRise (s : State) (stat0 en0 mbx : Nat) (isMbx : Bool) :
    quiet (s.sendRise stat0 en0 mbx isMbx) = quiet s :=
  State.sendRise_induction (P := fun t => quiet t = quiet s) (fun _ _ h => (quiet_sendMsix ..).trans h) rfl ..

theorem kept_sendRise (hk : fkey R.HIF_MSIX_PBA 0 0 ∈ ks) (h : RegsKept ks s t) (stat0 en0 mbx : Nat) (isMbx : Bool) :
    RegsKept ks s (t.sendRise stat0 en0 mbx isMbx) :=
  State.sendRise_induction (fun _ _ h => kept_sendMsix hk h) h _ _ _ _

/-- A W1C field at another place than the pending bits, written, with the messages of its risen bits: its bits are those
of the claim, and beside it only pending bits and messages change. -/
theorem w1c_sendRise {f : Fld} (hf : fkey R.HIF_MSIX_PBA 0 0 ≠ fkey f 0 0) (s : State) (v hw stat0 en0 mbx : Nat)
    (isMbx : Bool) :
    let t := (s.put f (w1cValue f.width (s.get f) v hw)).sendRise stat0 en0 mbx isMbx
    (∀ k < f.width, bit (t.get f) k = ((bit (s.get f) k && !bit v k) || bit hw k)) ∧
    t.mem = s.mem ∧ RegsKept [fkey f 0 0, fkey R.HIF_MSIX_PBA 0 0] s t ∧ quiet t = quiet s := by
  intro t
  have hkept : RegsKept [fkey R.HIF_MSIX_PBA 0 0] (s.put f (w1cValue f.width (s.get f) v hw)) t :=
    kept_sendRise (List.mem_singleton.2 rfl) (kept_refl _ _) _ _ _ _
  refine ⟨fun k hk => ?_, sendRise_mem .., ?_, quiet_sendRise ..⟩
  · rw [hkept f 0 0 (by simpa using hf.symm), State.get_put_self]
    exact bit_w1cValue _ _ _ hk
  · exact kept_sendRise (by simp) (kept_put (by simp) (kept_refl _ _)) _ _ _ _

/-- A W1C write that reaches its word acts on it (R11). -/
theorem exec_w1cWrite (h : Reaches s i a) (v hw : Nat) : exec (.w1cWrite i a v hw) s = .next (s.w1cWrite a v hw) := by
  have ha : a / 4 * 4 % 0x1000000 = a := by have := h.aligned; have := h.range; omega
  show Host.Outcome.next (if s.regUp i (a / 4 * 4 % 0x1000000) then s.w1cWrite (a / 4 * 4 % 0x1000000) v hw
    else s.writeHalf i (a / 4 * 4 % 0x1000000) v) = _
  rw [ha, h.regUp, if_pos rfl]

/-- A clearing read that reaches its word reads it, and then counts the events of its cycle (R11). -/
theorem exec_rcRead (h : Reaches s i a) (ev : Nat) :
    exec (.rcRead i a ev) s = .next ((s.readBytes i a 4).rcEvents a ev) := by
  have ha : a / 4 * 4 = a := Nat.div_mul_cancel (Nat.dvd_of_mod_eq_zero h.aligned)
  show Host.Outcome.next (if s.regUp i (a / 4 * 4 % 0x1000000) then
    (s.readBytes i (a / 4 * 4) 4).rcEvents (a / 4 * 4 % 0x1000000) ev else s.readBytes i (a / 4 * 4) 4) = _
  rw [ha, Nat.mod_eq_of_lt h.range, h.regUp, if_pos rfl]

/-- Settles O11: a clearing read of a word with one counter leaves the counter at 0 and then counts the events of the
cycle; the write of a cause register is `w1c_sendRise`. -/
theorem clearingReadsAndWrites : Obligations.ClearingReadsAndWrites := by
  unfold Obligations.ClearingReadsAndWrites
  refine ⟨fun i a ev f k j s h hh hl hs hp => ?_, fun i v hw s _ _ => ⟨fun h => ?_, fun h => ?_⟩⟩
  · have hd : a ≠ 0x60008 := by
      rintro rfl
      have hnone : ((bar0Fields 0x60008).filter fun g => g.acc == .RC && (fldAt g 0x60008).isSome) = [] := by
        decide +kernel
      exact List.cons_ne_nil _ _ (hs.symm.trans hnone)
    have hread : s.readBytes i a 4 = { s.put f 0 k j with rdata := toBytes 4 (s.bar0Word a) } := by
      rw [readBytes_word h, readWord_fresh h hh (.inl hd), afterRead_of_not_low hl, State.rcClear_of_single hs hp]
    refine ⟨_, exec_rcRead h ev, ?_⟩
    rw [State.rcEvents_of_single hs hp, hread]
    refine ⟨?_, rfl, rfl, ?_⟩
    · have hz : ({ s.put f 0 k j with rdata := toBytes 4 (s.bar0Word a) } : State).get f k j = 0 :=
        (State.get_put_self ..).trans (Nat.zero_mod _)
      have hpos := Nat.two_pow_pos f.width
      rw [State.addSat, State.get_put_of_lt _ _ _ (by omega), hz, Nat.zero_add]
    · exact kept_put (List.mem_singleton.2 rfl) (kept_of_regs rfl (kept_put (List.mem_singleton.2 rfl) (kept_refl _ s)))
  · refine ⟨_, exec_w1cWrite h v hw, ?_⟩
    rw [State.w1cWrite_intStat]
    exact w1c_sendRise (f := R.HIF_INT_STAT) (by decide) s v hw _ _ _ false
  · refine ⟨_, exec_w1cWrite h v hw, ?_⟩
    rw [State.w1cWrite_intMbxStat]
    exact w1c_sendRise (f := R.HIF_INT_MBX_STAT) (by decide) s v hw _ _ _ true

end Sys2Proof.Claims
end

section
/-! PROOFS. Writes of the 64-bit registers of the MSI-X table (R10). -/

namespace Sys2Proof.Machine

/-! ### The words of the table -/

/-- The word of the address of vector `k` (R260). -/
def msixWord (k : Nat) : Nat := 0x8000 + 16 * k

/-- No W1C field of HIF lies in the table. -/
theorem w1cFields_msix (s : State) {a : Nat} (h : 0x8000 ≤ a) (h' : a < 0x8400) (v hw : Nat) :
    s.w1cFields (bar0Fields a) a v hw = s := by
  have hfs : (bar0Fields a).filter (fun f => f.acc == .W1C) = [R.HIF_INT_STAT, R.HIF_INT_MBX_STAT, R.HIF_AXEVT] := by
    rw [bar0Fields_congr (b := 0) (by omega)]
    decide +kernel
  have hnone : ∀ f ∈ [R.HIF_INT_STAT, R.HIF_INT_MBX_STAT, R.HIF_AXEVT], fldAt f a = none := by
    simp [fldAt, R.HIF_INT_STAT, R.HIF_INT_MBX_STAT, R.HIF_AXEVT]
    omega
  unfold State.w1cFields
  rw [hfs]
  exact State.each_induction (P := (· = s)) (fun t f hf ht => by rw [ht]; simp only [hnone f hf]) rfl

/-- A register write to the table is a write of RW fields. -/
theorem State.regWrite_msix (s : State) (i : Ifc) {a : Nat} (h : 0x8000 ≤ a) (h' : a < 0x8400) (v : Nat) :
    s.regWrite i a v = s.hifWrite a v := by
  have hw : s.w1cWrite a v 0 = s := by
    unfold State.w1cWrite State.w1cAfter
    rw [w1cFields_msix s h h']
    simp only [show a ≠ 0x30 by omega, show a ≠ 0x38 by omega, show ¬ (0x60 ≤ a ∧ a < 0x80) by omega,
      show a / 0x10000 ≠ 5 by omega, show a ≠ 0xD000C by omega, show ¬ (0xE0400 ≤ a ∧ a < 0xE0600) by omega, if_false]
  unfold State.regWrite
  rw [hw, if_neg (by omega), if_pos (by omega)]

/-- In the word of an address, and in the word above it, the address is the one field that host software writes; only the
first is a low half. -/
theorem msixWord_fields : ∀ k < 64,
    fieldsOf (rwFields R.hifFields) (msixWord k) = [R.HIF_MSIX_ADDR] ∧
    fieldsOf (rwFields R.hifFields) (msixWord k + 4) = [R.HIF_MSIX_ADDR] ∧
    isLow (rwFields R.hifFields) (msixWord k) = true ∧ isHigh (rwFields R.hifFields) (msixWord k) = false := by
  decide +kernel

/-- Where the address of vector `k` is found: at its word, and nowhere else in the two words. -/
theorem fldAt_msixAddr : ∀ k < 64, fldAt R.HIF_MSIX_ADDR (msixWord k) = some (k, 0) ∧
    ∀ d < 8, d ≠ 0 → fldAt R.HIF_MSIX_ADDR (msixWord k + d) = none := by
  decide +kernel

theorem fldAt_msixAddr_below : ∀ k < 64, fldAt R.HIF_MSIX_ADDR (msixWord k - 4) = none := by
  decide +kernel

/-- A low word written into the address (R260). -/
theorem State.putWord_msixLow (s : State) {k v : Nat} (hk : k < 64) :
    s.putWord (rwFields R.hifFields) (msixWord k) v =
      s.put R.HIF_MSIX_ADDR (s.get R.HIF_MSIX_ADDR k / 2 ^ 32 * 2 ^ 32 + v) k := by
  obtain ⟨hfs, -, -, -⟩ := msixWord_fields k hk
  obtain ⟨h0, hd⟩ := fldAt_msixAddr k hk
  have hb := fldAt_msixAddr_below k hk
  have hw : ¬ (R.HIF_MSIX_ADDR.lo + R.HIF_MSIX_ADDR.width ≤ 32) := by decide
  unfold State.putWord
  rw [hfs]
  simp only [State.each, List.foldl_cons, List.foldl_nil, State.putWord1, State.putPart, State.putHigh, Nat.add_zero, h0,
    hd 1, hd 2, hd 3, hb, Nat.reduceLT, ne_eq, one_ne_zero, OfNat.ofNat_ne_zero, not_false_eq_true,
    if_pos, Nat.lt_of_not_le hw, ite_self]
  simp [R.HIF_MSIX_ADDR]

/-- A high word written into the address (R260). -/
theorem State.putWord_msixHigh (s : State) {k v : Nat} (hk : k < 64) :
    s.putWord (rwFields R.hifFields) (msixWord k + 4) v =
      s.put R.HIF_MSIX_ADDR (s.get R.HIF_MSIX_ADDR k % 2 ^ 32 + v * 2 ^ 32) k := by
  obtain ⟨-, hfs, -, -⟩ := msixWord_fields k hk
  obtain ⟨h0, hd⟩ := fldAt_msixAddr k hk
  unfold State.putWord
  rw [hfs]
  have hw : ¬ (R.HIF_MSIX_ADDR.lo + R.HIF_MSIX_ADDR.width ≤ 32 ∨ msixWord k + 4 < 4) := by
    simp [R.HIF_MSIX_ADDR]
  simp only [State.each, List.foldl_cons, List.foldl_nil, State.putWord1, State.putPart, State.putHigh, Nat.add_assoc,
    Nat.add_sub_cancel, h0, Nat.reduceAdd, hd 4, hd 5, hd 6, hd 7, Nat.reduceLT, ne_eq, OfNat.ofNat_ne_zero,
    not_false_eq_true, if_neg hw]
  rfl

/-- A high half written is staged (R10). -/
theorem State.hifWrite_msixHigh (s : State) {k : Nat} (hk : k < 64) (v : Nat) :
    s.hifWrite (msixWord k + 4) v = s.put H.STG_HI (2 ^ 32 + v) (msixWord k) := by
  obtain ⟨-, -, hl, -⟩ := msixWord_fields k hk
  have hh : isHigh (rwFields R.hifFields) (msixWord k + 4) = true := by simp [isHigh, hl]
  unfold State.hifWrite
  rw [if_pos hh, Nat.add_sub_cancel]

/-- A low half written takes the staged half with it (R10), and the vector may then be unmasked. -/
theorem State.hifWrite_msixLow (s : State) {k : Nat} (hk : k < 64) (v : Nat)
    (hb : bit (s.get H.STG_HI (msixWord k)) 32 = true) :
    ∃ x y, s.hifWrite (msixWord k) v =
      (((s.put R.HIF_MSIX_ADDR x k).put R.HIF_MSIX_ADDR y k).put H.STG_HI 0 (msixWord k)).msixUnmask k ∧
      x = s.get R.HIF_MSIX_ADDR k / 2 ^ 32 * 2 ^ 32 + v ∧
      y = (s.put R.HIF_MSIX_ADDR x k).get R.HIF_MSIX_ADDR k % 2 ^ 32 + s.get H.STG_HI (msixWord k) * 2 ^ 32 := by
  obtain ⟨-, -, hl, hh⟩ := msixWord_fields k hk
  refine ⟨_, _, ?_, rfl, rfl⟩
  unfold State.hifWrite
  simp only [hh, Bool.false_eq_true, if_false, hl, hb, Bool.and_self, State.when_true, s.putWord_msixLow hk,
    State.putWord_msixHigh _ hk]
  have h1 : msixWord k ≠ 0x34 ∧ msixWord k ≠ 0x3C ∧ msixWord k ≠ 0x40 ∧ (0x8000 ≤ msixWord k ∧ msixWord k < 0x8400) ∧
      (msixWord k - 0x8000) / 16 = k := by
    unfold msixWord
    omega
  obtain ⟨h34, h3c, h40, hin, hdiv⟩ := h1
  rw [if_neg h34, if_neg h3c, if_neg h40, if_pos hin, hdiv]

/-! ### Writes of one word -/

theorem ofBytes_toBytes {v : Nat} (h : v < 2 ^ 32) : ofBytes ((toBytes 4 v).map (· % 256)) = v := by
  simp only [toBytes, List.map_cons, List.map_nil, ofBytes]
  omega

end Sys2Proof.Machine

namespace Sys2Proof.Claims
open Sys2Proof.Machine

variable {s t : State} {i : Ifc} {a k : Nat} {ks : List Nat}

/-- A write of a reached word outside the mailboxes is a register write. -/
theorem writeBar0_reg (h : Reaches s i a) (hm : mbOf a = none) (v : Nat) : s.writeBar0 i a v = s.regWrite i a v := by
  unfold State.writeBar0
  simp only [h.not_unmapped, Bool.false_eq_true, if_false, hm, h.domain]

/-- Four bytes written to a reached word outside the mailboxes are a register write of the word. -/
theorem writeHalf_reg (h : Reaches s i a) (hm : mbOf a = none) {v : Nat} (hv : v < 2 ^ 32) :
    s.writeHalf i a v = s.regWrite i a v := by
  have hr := h.range
  have ha := h.aligned
  have hmod : a % 0x1000000 = a := Nat.mod_eq_of_lt hr
  have hpage : ¬ (0x20000 ≤ a ∧ a < 0x40000) := by
    intro hp
    simp only [mbOf, if_neg (show ¬ (0x10000 ≤ a ∧ a < 0x10800) by omega), if_pos hp, reduceCtorEq] at hm
  have hwords : s.writeWords i a ((toBytes 4 v).map (· % 256)) = s.writeBar0 i a v := by
    show (s.writeBar0 i (a % 0x1000000) (ofBytes ((toBytes 4 v).map (· % 256)))).writeWords i (a + 4) [] = _
    rw [ofBytes_toBytes hv, hmod]
    rfl
  rw [← writeBar0_reg h hm v, ← hwords]
  unfold State.writeHalf State.writeBytes
  rw [h.up]
  cases i with
  | bar2 => exact absurd rfl h.bar0
  | bar0 =>
    show s.writeB0 (a % 0x1000000) ((toBytes 4 v).map (· % 256)) = _
    unfold State.writeB0
    rw [hmod, h.barFault, if_neg (by simp), if_neg hpage, if_neg (by omega)]
  | qspi =>
    show s.writeWords .qspi (a / 4 * 4) _ = _
    rw [Nat.div_mul_cancel (Nat.dvd_of_mod_eq_zero ha)]

/-! ### The claim -/

theorem msixUnmask_kept (hk : fkey R.HIF_MSIX_PBA 0 0 ∈ ks) (h : RegsKept ks s t) (v : Nat) :
    RegsKept ks s (t.msixUnmask v) := by
  unfold State.msixUnmask
  split
  · exact kept_sendMsix hk (kept_put hk h)
  · exact h

theorem msixUnmask_mem (s : State) (v : Nat) : (s.msixUnmask v).mem = s.mem := by
  unfold State.msixUnmask
  split
  · exact State.sendMsix_mem ..
  · rfl

/-- The address of vector `k` is set to `w`, nothing stays staged for it, and beside these only pending bits and messages
change. -/
def AddressSet (s : State) (k w : Nat) (t : State) : Prop :=
  t.get R.HIF_MSIX_ADDR k = w ∧ t.get H.STG_HI (msixWord k) = 0 ∧
  RegsKept [fkey R.HIF_MSIX_ADDR k 0, fkey H.STG_HI (msixWord k) 0, fkey R.HIF_MSIX_PBA 0 0] s t ∧ t.mem = s.mem

/-- A low half written commits both halves (R10). -/
theorem hifWrite_addressSet (s : State) (hk : k < 64) {v : Nat} (hv : v < 2 ^ 32)
    (hb : bit (s.get H.STG_HI (msixWord k)) 32 = true) :
    AddressSet s k (v + 2 ^ 32 * (s.get H.STG_HI (msixWord k) % 2 ^ 32)) (s.hifWrite (msixWord k) v) := by
  obtain ⟨x, y, ht, hx, hy⟩ := s.hifWrite_msixLow hk v hb
  have hw : R.HIF_MSIX_ADDR.width = 64 := rfl
  have hpa : fkey R.HIF_MSIX_PBA 0 0 ≠ fkey R.HIF_MSIX_ADDR k 0 := by
    simp only [fkey, R.HIF_MSIX_PBA, R.HIF_MSIX_ADDR]
    omega
  have hps : fkey R.HIF_MSIX_PBA 0 0 ≠ fkey H.STG_HI (msixWord k) 0 := by
    simp only [fkey, R.HIF_MSIX_PBA, H.STG_HI]
    omega
  have hsa : fkey H.STG_HI (msixWord k) 0 ≠ fkey R.HIF_MSIX_ADDR k 0 := by
    simp only [fkey, H.STG_HI, R.HIF_MSIX_ADDR, msixWord]
    omega
  have hkept := fun u : State => msixUnmask_kept (ks := [fkey R.HIF_MSIX_PBA 0 0]) (by simp) (kept_refl _ u) k
  rw [ht]
  refine ⟨?_, ?_, ?_, (msixUnmask_mem ..).trans rfl⟩
  · rw [hkept _ _ _ _ (by simpa using hpa.symm), State.get_put_ne _ _ hsa, State.get_put_self, hy, State.get_put_self,
      hx, hw]
    omega
  · rw [hkept _ _ _ _ (by simpa using hps.symm), State.get_put_self, Nat.zero_mod]
  · exact msixUnmask_kept (by simp) (kept_put (by simp) (kept_put (by simp) (kept_put (by simp) (kept_refl _ s)))) k

/-- What is said of the state with a half staged holds of the state before. -/
theorem addressSet_of_staged {x w : Nat} (h : AddressSet (s.put H.STG_HI x (msixWord k)) k w t) : AddressSet s k w t := by
  obtain ⟨hset, hstaged, hkept, hmem⟩ := h
  refine ⟨hset, hstaged, fun f i j hn => (hkept f i j hn).trans (State.get_put_ne _ _ fun he => hn ?_), hmem⟩
  rw [← he]
  simp

theorem mbOf_msix (h : 0x8000 ≤ a) (h' : a < 0x8400) : mbOf a = none := by
  rw [mbOf, if_neg (by omega), if_neg (by omega)]

/-- A write of one word to the table over either interface. -/
theorem writeHalf_msix (h : Reaches s i a) (hl : 0x8000 ≤ a) (hu : a < 0x8400) {v : Nat} (hv : v < 2 ^ 32) :
    s.writeHalf i a v = s.hifWrite a v := by
  rw [writeHalf_reg h (mbOf_msix hl hu) hv, State.regWrite_msix _ _ hl hu]

/-- An 8-byte PCIe write of an address stages its high half and writes its low half (R10). -/
theorem write64_msix (h : Reaches s .bar0 (msixWord k)) (hk : k < 64) (w : Nat) :
    s.write64 .bar0 (msixWord k) w =
      (s.put H.STG_HI (2 ^ 32 + w / 2 ^ 32 % 2 ^ 32) (msixWord k)).hifWrite (msixWord k) (w % 2 ^ 32) := by
  obtain ⟨-, -, hlow, -⟩ := msixWord_fields k hk
  have hin : 0x8000 ≤ msixWord k ∧ msixWord k < 0x8400 := by unfold msixWord; omega
  have hstaged : Reaches (s.put H.STG_HI (2 ^ 32 + w / 2 ^ 32 % 2 ^ 32) (msixWord k)) .bar0 (msixWord k) := by
    refine h.of_kept (kept_put (List.mem_singleton.2 rfl) (kept_refl _ s)) fun p hp hm => ?_
    rw [List.mem_singleton.1 hm] at hp
    simp only [reachPlaces, List.mem_cons, List.not_mem_nil, or_false, fkey, R.PWR_DOM_ON, R.PWR_DOM_RST,
      R.HIF_STATUS_HSEL, H.D3HOT, H.CLK_LOST, H.STG_HI] at hp
    omega
  unfold State.write64
  simp only [h.up, Bool.not_true, Bool.false_eq_true, if_false, Nat.mod_eq_of_lt h.range, h.barFault, hlow,
    Option.isSome_none, Bool.false_or, Bool.true_and, Bool.and_eq_true, decide_eq_true_eq]
  rw [if_neg (by omega), if_pos (by omega), writeBar0_reg hstaged (mbOf_msix hin.1 hin.2),
    State.regWrite_msix _ _ hin.1 hin.2]

/-- Settles O10: the three writes are writes of the table's words, and what these do is `hifWrite_msixHigh` and
`hifWrite_addressSet`. -/
theorem register64WritesStageAndCommit : Obligations.Register64WritesStageAndCommit := by
  unfold Obligations.Register64WritesStageAndCommit
  intro i k v s hk hv a hlow hhigh
  have h8 : a / 8 * 8 = a := by omega
  have hstaged : ∀ x < 2 ^ 32, (s.put H.STG_HI (2 ^ 32 + x) a).get H.STG_HI a = 2 ^ 32 + x := fun x hx =>
    (State.get_put_self ..).trans (Nat.mod_eq_of_lt (by simp only [H.STG_HI]; omega))
  refine ⟨⟨s.put H.STG_HI (2 ^ 32 + v) a, ?_, hstaged v hv, kept_put (by simp) (kept_refl _ s), rfl, rfl⟩,
    fun hb => ⟨s.hifWrite a v, ?_, hifWrite_addressSet s hk hv hb⟩, ?_⟩
  · show Host.Outcome.next (s.writeHalf i (a / 8 * 8 + 4) v) = _
    rw [h8, writeHalf_msix hhigh (by omega) (by omega) hv]
    exact congrArg _ (s.hifWrite_msixHigh hk v)
  · show Host.Outcome.next (s.writeHalf i (a / 8 * 8) v) = _
    rw [h8, writeHalf_msix hlow (by omega) (by omega) hv]
  · rintro rfl w hw
    have hx : w / 2 ^ 32 % 2 ^ 32 < 2 ^ 32 := Nat.mod_lt _ (by decide)
    have hset := hifWrite_addressSet (s.put H.STG_HI (2 ^ 32 + w / 2 ^ 32 % 2 ^ 32) a) hk
      (Nat.mod_lt w (show 0 < 2 ^ 32 by decide)) (by rw [show msixWord k = a from rfl, hstaged _ hx]; exact latch_full hx)
    have hsum : w % 2 ^ 32 + 2 ^ 32 * ((2 ^ 32 + w / 2 ^ 32 % 2 ^ 32) % 2 ^ 32) = w := by omega
    refine ⟨_, ?_, addressSet_of_staged (by rwa [show msixWord k = a from rfl, hstaged _ hx, hsum] at hset)⟩
    show Host.Outcome.next (s.write64 .bar0 (a / 8 * 8) w) = _
    rw [h8]
    exact congrArg _ (write64_msix hlow hk w)

end Sys2Proof.Claims
end

section
/-! PROOFS. Reads through the debug port at level Observe (R12, R482, R483). -/

namespace Sys2Proof.Machine

/-! ### Words do not depend on what was read last -/

theorem State.when_rdata {s : State} {x : List Nat} {c d : Bool} {f g : State → State} (hc : c = d)
    (hf : f { s with rdata := x } = { g s with rdata := x }) :
    ({ s with rdata := x } : State).when c f = { s.when d g with rdata := x } := by
  subst hc
  cases c
  · rfl
  · exact hf

theorem State.each_rdata {α : Type} {x : List Nat} {f : State → α → State}
    (hf : ∀ s y, f { s with rdata := x } y = { f s y with rdata := x }) (s : State) (l : List α) :
    ({ s with rdata := x } : State).each l f = { s.each l f with rdata := x } := by
  induction l generalizing s with
  | nil => rfl
  | cons y l ih => exact (congrArg (State.each · l f) (hf s y)).trans (ih (f s y))

theorem State.jrnView_rdata (s : State) (x : List Nat) :
    ({ s with rdata := x } : State).jrnView = { s.jrnView with rdata := x } :=
  State.each_rdata (fun _ _ => State.when_rdata rfl rfl) s _

theorem State.fioShown_rdata (s : State) (x : List Nat) :
    ({ s with rdata := x } : State).fioShown = { s.fioShown with rdata := x } := by
  refine State.when_rdata rfl ?_
  have hreset : ∀ (fs : List Fld) (s : State) (k : Nat),
      ({ s with rdata := x } : State).each fs (fun s f => s.resetFld f k) =
      { s.each fs (fun s f => s.resetFld f k) with rdata := x } :=
    fun fs s k => State.each_rdata (fun _ _ => rfl) s fs
  exact (congrArg (State.each · _ _) (State.each_rdata (hreset _) s _)).trans (State.each_rdata (hreset _) _ _)

theorem State.lockView_rdata (s : State) (x : List Nat) :
    ({ s with rdata := x } : State).lockView = { s.lockView with rdata := x } := by
  unfold State.lockView
  split
  · rw [if_pos (by assumption)]
  · rw [if_neg (by assumption)]
    rfl

theorem State.word_rdata (s : State) (x : List Nat) (fs : List Fld) (a : Nat) :
    ({ s with rdata := x } : State).word fs a = s.word fs a := rfl

/-- The word at a BAR0 address is one of the state, whatever was read last. -/
theorem State.bar0Word_rdata (s : State) (x : List Nat) (a : Nat) :
    ({ s with rdata := x } : State).bar0Word a = s.bar0Word a := by
  have hstatus : ({ s with rdata := x } : State).statusView = { s.statusView with rdata := x } := rfl
  have hpend : ({ s with rdata := x } : State).pendView = { s.pendView with rdata := x } := rfl
  have hload : ∀ a n, ({ s with rdata := x } : State).load a n = s.load a n := fun _ _ => rfl
  have hseen : ∀ a, ({ s with rdata := x } : State).pageSeen a = s.pageSeen a := fun _ => rfl
  have hrdy : ({ s with rdata := x } : State).rdyView = s.rdyView := rfl
  simp only [State.bar0Word, hload, hseen, hrdy, hstatus, hpend, State.jrnView_rdata, State.fioShown_rdata,
    State.lockView_rdata, State.word_rdata]

/-! ### The level of a debug read -/

theorem State.dbgRefused_awake {s : State} (h : s.inHibernate = false) (lvl : Nat) : s.dbgRefused lvl = false := by
  rw [State.dbgRefused, h, Bool.false_and]

/-- The state in which a debug read at level Observe reads: the TAP's instruction is DBG_ACCESS, Observe is requested and
granted (R482). -/
def State.observing (s : State) : State := ((s.put H.TAP_IR 8).put R.SEC_DBG_REQ 1).put R.SEC_DBG_LEVEL 1

/-- A level is granted by the state of the part, its security state and its tokens (R483). -/
theorem State.dbgGrant_congr {s t : State} (hib : t.inHibernate = s.inHibernate)
    (hst : t.get R.SEC_STATE_STATE = s.get R.SEC_STATE_STATE)
    (hobs : t.get R.SEC_STATE_OBS_TOKEN = s.get R.SEC_STATE_OBS_TOKEN) (hsp : t.get H.DBG_SP = s.get H.DBG_SP)
    (lvl : Nat) : t.dbgGrant lvl = s.dbgGrant lvl := by
  unfold State.dbgGrant State.dbgRefused State.on
  rw [hib, hst, hobs, hsp]

/-- Observe requested and granted, where the level was not Full: nothing falls (R482, R484). -/
theorem State.dbgAsk_observe {s : State} (hib : s.inHibernate = false) (hl : s.get R.SEC_DBG_LEVEL ≠ 2)
    (hg : s.dbgGrant 1 = 1) : (s.put H.TAP_IR 8).dbgAsk 1 = s.observing := by
  have hib' : (s.put H.TAP_IR 8).inHibernate = false := by
    rw [State.inHibernate, State.get_put_ne _ _ (by decide)]
    exact hib
  have hreq : ((s.put H.TAP_IR 8).put R.SEC_DBG_REQ 1).get R.SEC_DBG_REQ = 1 := State.get_put_self ..
  have hother : ∀ g : Fld, fkey R.SEC_DBG_REQ 0 0 ≠ fkey g 0 0 → fkey H.TAP_IR 0 0 ≠ fkey g 0 0 →
      ((s.put H.TAP_IR 8).put R.SEC_DBG_REQ 1).get g = s.get g := fun g h h' =>
    (State.get_put_ne _ _ h).trans (State.get_put_ne _ _ h')
  have hgrant : ((s.put H.TAP_IR 8).put R.SEC_DBG_REQ 1).dbgGrant 1 = 1 :=
    (State.dbgGrant_congr (by rw [State.inHibernate, hother _ (by decide) (by decide), State.inHibernate])
      (hother _ (by decide) (by decide)) (hother _ (by decide) (by decide)) (hother _ (by decide) (by decide)) 1).trans hg
  have hlvl : (((s.put H.TAP_IR 8).put R.SEC_DBG_REQ 1).get R.SEC_DBG_LEVEL == 2) = false := by
    rw [hother _ (by decide) (by decide), beq_eq_false_iff_ne]
    exact hl
  unfold State.dbgAsk
  simp only [show min 1 2 = 1 from rfl, State.dbgRefused_awake hib', State.when_false, State.dbgUp, hreq, hgrant,
    State.dbgSet, hlvl, Bool.false_and]
  rfl

/-! ### What a debug read does -/

/-- A debug read shows bytes, and takes a free value or nothing. -/
theorem State.dbgRead_cases (s : State) (sp : DbgSpace) (a : Nat) :
    ∃ x, s.dbgRead sp a = { s with rdata := x } ∨ s.dbgRead sp a = { s.useFree with rdata := x } := by
  unfold State.dbgRead
  dsimp only
  split
  · exact ⟨_, .inl rfl⟩
  · split
    · exact ⟨_, .inl rfl⟩
    · split
      · exact ⟨_, .inr rfl⟩
      · exact ⟨_, .inl rfl⟩

/-- A debug read of a register at a level granted, in a domain that is up, shows its word (R482). -/
theorem State.dbgRead_bar0 {s : State} {a : Nat} (hib : s.inHibernate = false) (hl : 1 ≤ s.get R.SEC_DBG_LEVEL)
    (hd : s.spDown .bar0 (a / 4 * 4) = false) :
    s.dbgRead .bar0 a = { s with rdata := toBytes 4 (s.bar0Word (a / 4 * 4)) } := by
  have hr : s.dbgReads .bar0 (a / 4 * 4) = true := by simp [State.dbgReads, hib, hl]
  unfold State.dbgRead
  simp only [hr, hd, Bool.not_true, Bool.false_eq_true, if_false]
  rfl

end Sys2Proof.Machine

namespace Sys2Proof.Claims
open Sys2Proof.Machine

variable {s t : State}

/-- The places that a debug read at level Observe may write. -/
def observePlaces : List Nat := [fkey H.TAP_IR 0 0, fkey R.SEC_DBG_REQ 0 0, fkey R.SEC_DBG_LEVEL 0 0, fkey H.FREE 0 0]

theorem observing_kept (s : State) : RegsKept observePlaces s s.observing :=
  kept_put (by simp [observePlaces]) (kept_put (by simp [observePlaces]) (kept_put (by simp [observePlaces])
    (kept_refl _ s)))

theorem observing_level (s : State) : s.observing.get R.SEC_DBG_LEVEL = 1 := State.get_put_self ..

/-- A debug read writes the counter of free values, or no register. -/
theorem dbgRead_kept (s : State) (sp : DbgSpace) (a : Nat) : RegsKept [fkey H.FREE 0 0] s (s.dbgRead sp a) := by
  obtain ⟨x, h | h⟩ := s.dbgRead_cases sp a
  · exact kept_of_regs (t := s) (by rw [h]) (kept_refl _ s)
  · exact kept_of_regs (t := s.useFree) (by rw [h]) (kept_put (by simp) (kept_refl _ s))

theorem dbgRead_mem (s : State) (sp : DbgSpace) (a : Nat) : (s.dbgRead sp a).mem = s.mem := by
  obtain ⟨x, h | h⟩ := s.dbgRead_cases sp a <;> rw [h]
  rfl

/-- None of these places is an RC field (R12). -/
theorem observePlaces_not_rc (a : Nat) : ∀ k ∈ observePlaces, k ∉ accPlaces .RC a := by
  have key : ∀ k ∈ observePlaces, accPlaces .RC (k / 8) = [] := by decide +kernel
  exact fun k hk => not_mem_rcPlaces (key k hk) a

/-- Settles O57: the read is `dbgRead` in the observing state, and writes at `observePlaces` alone, none of which is an RC
field. -/
theorem debugReadClearsNoRcField : Obligations.DebugReadClearsNoRcField := by
  unfold Obligations.DebugReadClearsNoRcField
  intro sp addr s htap hib hl hg
  have hexec : exec (.dbgAccessRead 1 sp addr) s = .next (s.observing.dbgRead sp addr) := by
    show Host.Outcome.next (if s.tapUp then ((s.put H.TAP_IR 8).dbgAsk 1).dbgRead sp addr else s) = _
    rw [htap, if_pos rfl, State.dbgAsk_observe hib hl hg]
  have hread := dbgRead_kept s.observing sp addr
  have hkept : RegsKept observePlaces s (s.observing.dbgRead sp addr) := fun f i j hn =>
    (hread f i j fun hm => hn (by simp only [observePlaces, List.mem_cons] at hm ⊢; tauto)).trans
      (observing_kept s f i j hn)
  refine ⟨_, hexec, (hread _ _ _ (by decide)).trans (observing_level s), fun a f i j hf => ?_, hkept, dbgRead_mem ..,
    fun hsp hd => ?_⟩
  · exact hkept f i j fun hm => observePlaces_not_rc a _ hm hf
  · subst hsp
    have hib' : s.observing.inHibernate = false := by
      rw [State.inHibernate, observing_kept s H.PWR_HOLD 0 0 (by decide)]
      exact hib
    have hd' : s.observing.spDown .bar0 (addr / 4 * 4) = false := by
      rw [← hd]
      simp only [State.spDown, State.domDown, observing_kept s R.PWR_DOM_ON 0 0 (by decide),
        observing_kept s R.PWR_DOM_RST 0 0 (by decide)]
    rw [State.dbgRead_bar0 hib' (observing_level s).ge hd']
    exact congrArg (toBytes 4) (State.bar0Word_rdata ..).symm

end Sys2Proof.Claims
end

section
/-! PROOFS. The cycle boundary (R30, R31): the steps of it that have nothing to do, and the boundary that writes the buffer
of a sweep, which refutes what is claimed of a quiet one. -/

namespace Sys2Proof.Machine

/-! ### Fields that share no place -/

/-- The last place of a field. -/
def Fld.lastKey (f : Fld) : Nat := fkey f (f.n - 1) (f.m - 1)

/-- Two fields share no place: their places differ modulo what divides all their strides, or one ends before the other
begins. -/
def Fld.disjoint (f g : Fld) : Bool :=
  let d := 8 * ((f.stride.gcd f.step).gcd (g.stride.gcd g.step))
  fkey f 0 0 % d != fkey g 0 0 % d || decide (f.lastKey < fkey g 0 0) || decide (g.lastKey < fkey f 0 0)

theorem fkey_mod (f : Fld) (i j : Nat) {d : Nat} (hd : d ∣ f.stride.gcd f.step) :
    fkey f i j % (8 * d) = fkey f 0 0 % (8 * d) := by
  obtain ⟨a, ha⟩ := hd.trans (Nat.gcd_dvd_left ..)
  obtain ⟨b, hb⟩ := hd.trans (Nat.gcd_dvd_right ..)
  have h : fkey f i j = fkey f 0 0 + 8 * d * (a * i + b * j) := by
    simp only [fkey]
    rw [ha, hb]
    ring
  rw [h, Nat.add_mul_mod_self_left]

theorem fkey_le_lastKey {f : Fld} {i j : Nat} (hi : i ≤ f.n - 1) (hj : j ≤ f.m - 1) : fkey f i j ≤ f.lastKey := by
  have h1 := Nat.mul_le_mul_left f.stride hi
  have h2 := Nat.mul_le_mul_left f.step hj
  simp only [Fld.lastKey, fkey]
  omega

theorem fkey_zero_le (f : Fld) (i j : Nat) : fkey f 0 0 ≤ fkey f i j := by
  simp only [fkey]
  omega

theorem fkey_ne_of_disjoint {f g : Fld} {i j k l : Nat} (h : f.disjoint g = true) (hi : i ≤ f.n - 1) (hj : j ≤ f.m - 1)
    (hk : k ≤ g.n - 1) (hl : l ≤ g.m - 1) : fkey f i j ≠ fkey g k l := by
  intro he
  have hf := fkey_zero_le f i j
  have hg := fkey_zero_le g k l
  have hf' := fkey_le_lastKey hi hj
  have hg' := fkey_le_lastKey hk hl
  simp only [Fld.disjoint, Bool.or_eq_true, bne_iff_ne, decide_eq_true_eq] at h
  rcases h with (h | h) | h
  · refine h ?_
    rw [← fkey_mod f i j (Nat.gcd_dvd_left ..), ← fkey_mod g k l (Nat.gcd_dvd_right ..), he]
  · omega
  · omega

/-! ### The boundary in two halves -/

/-- The boundary up to the events of the axes (R31, steps 1 to 3). -/
def State.openCycle (s : State) (t n : Nat) : State :=
  let s := ((s.newCycle t n).schLoad.each (List.range 2) fun s r => s.launch n r).statStep t
  s.when (s.swapDue t n) fun s => s.swapNow n

/-- The boundary after the events of the axes, up to the releases (R31). -/
def State.settle (s : State) (t n : Nat) (due : List Nat) : State :=
  let s := (s.each (List.range 2) fun s r => s.ringStopped r).boundaryRest n
  s.each due fun s a => s.trackCheck a t

/-- The releases of the boundary and the mirror (R31, R142, R262). -/
def State.releaseCycle (s : State) (t n : Nat) (due : List Nat) : State :=
  let s := (s.descApply.codeApply.trcBoundary).startRelease t n due
  s.each (due.filter fun a => s.axSt a != 0) fun s a => s.mirror a

theorem State.boundary_eq (s : State) (t n : Nat) : s.boundary t n =
    (((s.openCycle t n).axesBoundary t ((s.openCycle t n).dueAxes n)).settle t n
      ((s.openCycle t n).dueAxes n)).releaseCycle t n ((s.openCycle t n).dueAxes n) := rfl

/-! ### Steps of a boundary with nothing to do -/

variable {s : State}

theorem State.doneAll_of_no_waits (h : s.waits = []) (opc key : Nat) (res : List Nat) : s.doneAll opc key res = s := by
  simp [State.doneAll, State.waiting, h, State.each]

theorem State.ringStopped_of_running {r : Nat} (h : s.get H.RSTOP r = 0) : s.ringStopped r = s := by
  simp [State.ringStopped, State.on_eq_false h]

theorem State.cmpReqs_of_no_waits (h : s.waits = []) : s.cmpReqs = s := by
  unfold State.cmpReqs
  refine State.each_induction (P := (· = s)) (fun t u _ ht => ?_) rfl
  rw [ht, State.doneAll_of_no_waits h, State.doneAll_of_no_waits h]

theorem State.trackCheck_of_off (h : ∀ u < 32, s.get R.CMP_CTL_EN u = 0) (a t : Nat) : s.trackCheck a t = s := by
  have hl : ((List.range 32).filter fun u => s.on R.CMP_CTL_EN u && s.get R.CMP_CTL_AXIS u == a) = [] := by
    refine List.filter_eq_nil_iff.2 fun u hu => ?_
    simp [State.on_eq_false (h u (List.mem_range.1 hu))]
  simp only [State.trackCheck, hl]
  rfl

theorem State.securityBoundary_of_idle (hw : s.waits = []) (hs : s.get H.SVC_P = 0) (hd : s.get H.DBG_WANT = 0)
    (hp : s.get H.DBG_SP = 0) : s.securityBoundary = s := by
  have h : s.dbgSto = s := by
    unfold State.dbgSto
    split
    · rfl
    · simp [hd, State.on_eq_false hp]
  simp only [State.securityBoundary, State.on_eq_false hs, State.when_false, h, State.doneAll_of_no_waits hw]

theorem State.ownFault_of_unpaired (h : s.get R.CNJ_STATE_ROLE = 0) : s.ownFault = s := by
  simp [State.ownFault, State.rejoinFail, h]

theorem State.rejoinCycle_of_unpaired (h : s.get R.CNJ_STATE_ROLE = 0) : s.rejoinCycle = s := by
  simp [State.rejoinCycle, h]

theorem State.commitSnap_of_idle (h : s.get H.CMT = 0) : s.commitSnap = s := by
  simp [State.commitSnap, h]

theorem State.standbyStep_of_idle (h : s.get H.PWR_STBY = 0) : s.standbyStep = s := by
  simp [State.standbyStep, h]

theorem State.injRun_of_none (h : s.injs = []) (n k : Nat) : State.injRun n k s = s := by
  cases k with
  | zero => rfl
  | succ k =>
    have hd : s.injDue n = none := by
      unfold State.injDue
      rw [h]
      exact List.findSome?_eq_none_iff.2 fun _ _ => rfl
    simp only [State.injRun, hd]

/-- Where no slot is armed, none is left out. -/
theorem State.filter_injs_of_none (h : s.injs = []) (p : InjSlot → Bool) : { s with injs := s.injs.filter p } = s := by
  have hf : s.injs.filter p = s.injs := by rw [h]; rfl
  rw [hf]

theorem State.injDone_of_none (h : s.injs = []) : s.injDone = s := by
  have hl : (s.injs.filter fun (x : InjSlot) => x.count == 0 && !s.injHeld x) = [] := by rw [h]; rfl
  simp only [State.injDone, hl]
  exact State.filter_injs_of_none h _

end Sys2Proof.Machine

namespace Sys2Proof.Claims
open Sys2Proof.Machine

/-! ### What a boundary at which nothing waits leaves until the releases -/

/-- Fields that such a boundary leaves: those that say that nothing waits, and those that a release reads. -/
def heldFlds : List Fld :=
  [H.RSTOP, H.DP_NEWM, H.PT_NEWP, H.ENC_NEWP, H.CMP_CFGP, H.CAP_CFGP, R.CMP_CTL_EN, H.CLK_INJ, H.SVC_P, H.DBG_WANT,
   H.DBG_SP, R.CNJ_STATE_ROLE, H.CNJ_ISO, H.CNJ_CEASE, H.CMT, H.PWR_STBY,
   R.DCK_TIME, R.PWR_STATE_STATE, R.AXS_STATUS_STATE, R.SCH_DESC_EN, R.SCH_DESC_PEND, H.DESC_RELOAD, H.DESC_RWT,
   H.SW_ON, H.SW_RUN, H.SW_AXIS, H.SW_PAGE, H.SW_LEN, H.SW_REC]

/-- A state without its registers and the messages it sent. -/
def unsent (s : State) : State := { s with regs := [], msix := [] }

/-- `t` holds what `s` holds: the fields above, memory, and every list but the messages sent. -/
structure Holds (s t : State) : Prop where
  regs : ∀ g ∈ heldFlds, ∀ k < g.n, t.get g k = s.get g k
  rest : unsent t = unsent s

/-- Nothing waits for the steps of a boundary between the axes' events and the releases. -/
structure Idle (s : State) : Prop where
  lists : s.waits = [] ∧ s.injs = []
  noRing : ∀ r < 2, s.get H.RSTOP r = 0
  noPort : (∀ p < 8, s.get H.DP_NEWM p = 0 ∧ s.get H.ENC_NEWP p = 0) ∧ ∀ p < 16, s.get H.PT_NEWP p = 0
  noUnit : ∀ u < 32, s.get H.CMP_CFGP u = 0 ∧ s.get H.CAP_CFGP u = 0 ∧ s.get R.CMP_CTL_EN u = 0
  noClock : ∀ k < 6, s.get H.CLK_INJ k = 0
  noPair : s.get H.CNJ_ISO = 0 ∧ s.get H.CNJ_CEASE = 0 ∧ s.get R.CNJ_STATE_ROLE = 0
  noRest : s.get H.SVC_P = 0 ∧ s.get H.DBG_WANT = 0 ∧ s.get H.DBG_SP = 0 ∧ s.get H.CMT = 0 ∧ s.get H.PWR_STBY = 0

/-- A field at no place of those held. -/
def spare (f : Fld) : Bool := heldFlds.all f.disjoint

variable {s t u : State}

theorem Holds.refl (s : State) : Holds s s := ⟨fun _ _ _ _ => rfl, rfl⟩

theorem Holds.trans (h : Holds s t) (k : Holds t u) : Holds s u :=
  ⟨fun g hg i hi => (k.regs g hg i hi).trans (h.regs g hg i hi), k.rest.trans h.rest⟩

theorem Holds.put {f : Fld} {v i j : Nat} (h : Holds s t) (hf : spare f = true) (hi : i ≤ f.n - 1 := by decide)
    (hj : j ≤ f.m - 1 := by decide) : Holds s (t.put f v i j) where
  regs g hg k hk := by
    have hd : f.disjoint g = true := List.all_eq_true.1 hf g hg
    exact (State.get_put_ne _ _ (fkey_ne_of_disjoint hd hi hj (by omega) (Nat.zero_le _))).trans (h.regs g hg k hk)
  rest := h.rest

theorem Holds.msix (h : Holds s t) (x : List Nat) : Holds s { t with msix := x } := ⟨h.regs, h.rest⟩

theorem Holds.each {α : Type} {l : List α} {f : State → α → State} (h : Holds s t)
    (hf : ∀ v, ∀ x ∈ l, Holds s v → Holds s (f v x)) : Holds s (t.each l f) := State.each_induction hf h

theorem Holds.when {c : Bool} {f : State → State} (h : Holds s t) (hf : Holds s (f t)) : Holds s (t.when c f) :=
  State.when_induction h hf

theorem Holds.get {g : Fld} {k : Nat} (h : Holds s t) (hg : g ∈ heldFlds := by simp [heldFlds])
    (hk : k < g.n := by decide) : t.get g k = s.get g k := h.regs g hg k hk

theorem Holds.waits (h : Holds s t) : t.waits = s.waits := (congrArg State.waits h.rest :)
theorem Holds.injs (h : Holds s t) : t.injs = s.injs := (congrArg State.injs h.rest :)
theorem Holds.descPend (h : Holds s t) : t.descPend = s.descPend := (congrArg State.descPend h.rest :)

theorem Idle.of_holds (h : Idle s) (k : Holds s t) : Idle t := by
  obtain ⟨⟨hw, hi⟩, hr, ⟨hp, hq⟩, hu, hc, ⟨hiso, hce, hro⟩, hsv, hdw, hds, hcm, hst⟩ := h
  refine ⟨⟨k.waits.trans hw, k.injs.trans hi⟩, fun r h => (k.get (hk := h)).trans (hr r h), ⟨fun p h => ?_, fun p h => ?_⟩,
    fun u h => ?_, fun c h => (k.get (hk := h)).trans (hc c h), ⟨k.get.trans hiso, k.get.trans hce, k.get.trans hro⟩,
    k.get.trans hsv, k.get.trans hdw, k.get.trans hds, k.get.trans hcm, k.get.trans hst⟩
  · exact ⟨(k.get (hk := h)).trans (hp p h).1, (k.get (hk := h)).trans (hp p h).2⟩
  · exact (k.get (hk := h)).trans (hq p h)
  · obtain ⟨h1, h2, h3⟩ := hu u h
    exact ⟨(k.get (hk := h)).trans h1, (k.get (hk := h)).trans h2, (k.get (hk := h)).trans h3⟩

theorem Holds.cause (h : Holds s t) (k : Nat) : Holds s (t.cause k) := by
  have ho : Holds s (t.orBit R.HIF_INT_STAT k) := h.put (by decide +kernel)
  refine ho.when ?_
  unfold State.sendMsix
  split
  · exact ho
  · split
    · exact ho.put (by decide +kernel)
    · exact ho.msix _

theorem Idle.portCfgs (h : Idle s) : Holds s s.portCfgs := by
  obtain ⟨hp, hq⟩ := h.noPort
  unfold State.portCfgs
  have h1 : Holds s (s.each (List.range 8) fun s p => (s.drvApply p).put H.DP_EVK 0 p) := by
    refine (Holds.refl s).each fun v p hm k => ?_
    have hp8 := List.mem_range.1 hm
    have hv : v.drvApply p = v := by simp [State.drvApply, (k.get (hk := hp8)).trans (hp p hp8).1]
    rw [hv]
    exact k.put (by decide +kernel) (by show p ≤ 7; omega)
  refine (h1.each fun v q hm k => ?_).each fun v c hm k => ?_
  · have hq16 := List.mem_range.1 hm
    rw [State.on_eq_false ((k.get (hk := hq16)).trans (hq q hq16)), State.when_false]
    exact k
  · have hc8 := List.mem_range.1 hm
    rw [State.on_eq_false ((k.get (hk := hc8)).trans (hp c hc8).2), State.when_false]
    exact k

theorem Holds.brakeOut (h : Holds s t) : Holds s t.brakeOut := by
  refine h.each fun v c hm k => ?_
  have ho : Holds s (v.put R.FIO_CSTAT_OWNER (v.fioOwner c) c) :=
    k.put (by decide +kernel) (by have := List.mem_range.1 hm; show c ≤ 31; omega)
  dsimp only
  split
  · split_ifs
    · exact ho
    · exact ho.put (by decide +kernel)
    · exact ho.put (by decide +kernel)
  · exact ho

theorem Idle.fioBoundary (h : Idle s) (n : Nat) : Holds s (s.fioBoundary n) := by
  have h0 : Holds s (s.fioStage 0) := by
    refine (Holds.refl s).each fun v k hm hv => ?_
    have hk : k ≤ 319 := by have := List.mem_range.1 (List.mem_filter.1 hm).1; omega
    exact ((hv.put (by decide +kernel) hk).put (by decide +kernel) hk).put (by decide +kernel) hk
  have h1 : (s.fioStage 0).fioOutsDue n = s.fioStage 0 := by
    simp only [State.fioOutsDue, h0.waits, h.lists.1]
    rfl
  unfold State.fioBoundary
  simp only [h1, h0.waits, h.lists.1]
  exact h0.brakeOut

theorem Holds.fioUpd (h : Holds s t) : Holds s t.fioUpd := by
  refine h.each fun v c hm k => ?_
  have hc : c ≤ 31 := by have := List.mem_range.1 hm; omega
  have hsw : ∀ (w : State) (on : Bool), Holds s w → Holds s (if on == bit (w.get H.FIO_SW) c then w
      else (if on then w.orBit H.FIO_SW c else w.clearBit H.FIO_SW c).put H.FIO_CHG w.now c) := by
    intro w on hw
    split_ifs
    · exact hw
    · exact (hw.put (by decide +kernel)).put (by decide +kernel) hc
    · exact (hw.put (by decide +kernel)).put (by decide +kernel) hc
  exact hsw _ _ (k.when (k.put (by decide +kernel)))

theorem Holds.cmpArmNow (h : Holds s t) {u : Nat} (hu : u ≤ 31) : Holds s (t.cmpArmNow u) := by
  have h0 := ((h.put (f := H.CMP_K) (v := 0) (j := 0) (by decide +kernel) hu).put (f := R.CMP_STAT_FIRED) (v := 0) (j := 0)
    (by decide +kernel) hu).put (f := R.CMP_STAT_DONE) (v := 0) (j := 0) (by decide +kernel) hu
  unfold State.cmpArmNow
  dsimp only
  split
  · exact ((h0.put (by decide +kernel) hu).put (by decide +kernel) hu).cause 5
  · exact h0.put (by decide +kernel) hu

theorem Idle.cmpBoundary (h : Idle s) : Holds s s.cmpBoundary := by
  unfold State.cmpBoundary
  have hout : ∀ t, Holds s t → Holds s t.trgDir.cmpOut := fun t ht =>
    Holds.fioUpd ((ht.put (by decide +kernel)).put (by decide +kernel))
  refine hout _ (Holds.each (Holds.each (Holds.refl s) fun v u hm k => ?_) fun v c hm k => ?_)
  · have hu := List.mem_range.1 hm
    have hu' : u ≤ 31 := by omega
    dsimp only
    rw [State.on_eq_false ((k.get (hk := hu)).trans (h.noUnit u hu).1), State.when_false]
    refine Holds.put ?_ (by decide +kernel) hu'
    split_ifs
    · exact k.cmpArmNow hu'
    · exact k.put (by decide +kernel) hu'
    · exact k
  · have hc := List.mem_range.1 hm
    have hc' : c ≤ 31 := by omega
    dsimp only
    rw [State.on_eq_false ((k.get (hk := hc)).trans (h.noUnit c hc).2.1), State.when_false]
    exact (k.when ((k.put (by decide +kernel) hc').put (by decide +kernel) hc')).put (by decide +kernel) hc'

theorem Idle.injBoundary (h : Idle s) (n : Nat) : Holds s (s.injBoundary n) := by
  obtain ⟨hw, hi⟩ := h.lists
  have hdis : Holds s (s.injDisarm fun _ => true) := by
    have h1 : Holds s (s.disarm fun _ => true) := by
      unfold State.disarm
      simp only [hi, List.filter_nil]
      have h2 : Holds s ((s.each [] State.injEnd).each ((List.range 8).filter fun _ => true) fun s k =>
          ((s.put R.INT_INJ_STAT_STATE 0 k).put R.INT_INJ_STAT_DET 0 k).put R.INT_INJ_STAT_INST 0 k) := by
        refine (Holds.refl s).each fun v k hm hv => ?_
        have hk : k ≤ 7 := by have := List.mem_range.1 (List.mem_filter.1 hm).1; omega
        exact ((hv.put (by decide +kernel) hk).put (by decide +kernel) hk).put (by decide +kernel) hk
      rw [State.filter_injs_of_none (h2.injs.trans hi)]
      exact h2
    refine h1.each fun v k _ hv => ?_
    rwa [State.doneAll_of_no_waits (hv.waits.trans hw)]
  have hopen : Holds s (if s.injOpen then s else s.injDisarm fun _ => true) := by
    split
    · exact Holds.refl s
    · exact hdis
  unfold State.injBoundary
  have hcan : ∀ v, Holds s v → Holds s (v.each (List.range 8 ++ [0xFFFF]) fun s k =>
      if (s.waiting 0x0B01 k).isEmpty then s
      else (s.injDisarm fun j => j == k || k == 0xFFFF).doneAll 0x0B01 k) := fun v hv => by
    refine hv.each fun w k _ hw' => ?_
    rw [State.waiting, hw'.waits, hw]
    exact hw'
  have hclk : ∀ v, Holds s v → Holds s (v.each (List.range 6) fun s k =>
      s.when (s.get H.CLK_INJ k != 0 && decide (s.get H.CLK_INJ k ≤ s.now)) fun s => s.clkBack k) := fun v hv => by
    refine hv.each fun w k hm hw' => ?_
    have hk := List.mem_range.1 hm
    simpa [(hw'.get (hk := hk)).trans (h.noClock k hk)] using hw'
  have hall := hclk _ (hcan _ hopen)
  dsimp only
  rw [State.injDone_of_none (hall.injs.trans hi), State.injRun_of_none (hall.injs.trans hi)]
  exact hall

theorem lopOf_lt {opc idx k : Nat} (h : s.lopOf opc idx = some k) : k ≤ 31 := by
  have := List.mem_range.1 (List.mem_of_find?_eq_some h)
  omega

theorem Holds.pairBoundary (hs : Idle s) (h : Holds s t) : Holds s t.pairBoundary := by
  obtain ⟨hi, hc, hr⟩ := hs.noPair
  have h1 : Holds s (if t.standing then t.incSat H.CNJ_STL else t.put H.CNJ_STL 0) := by
    split
    · exact h.put (by decide +kernel)
    · exact h.put (by decide +kernel)
  have h2 : ∀ v, Holds s v → Holds s (v.when (v.get R.CNJ_STATE_ROLE != 2) fun s =>
      s.each ((List.range 256).filter fun a => s.on H.CNJ_CPY a) fun s a => s.put H.CNJ_CPY 0 a) := fun v hv => by
    refine hv.when (hv.each fun w a hm hw => hw.put (by decide +kernel) ?_)
    have := List.mem_range.1 (List.mem_filter.1 hm).1
    show a ≤ 255
    omega
  have h3 := h2 _ h1
  unfold State.pairBoundary
  dsimp only
  rw [State.rejoinCycle_of_unpaired (h3.get.trans hr), State.on_eq_false (h3.get.trans hi), State.when_false,
    State.on_eq_false (h3.get.trans hc), State.when_false, State.waiting, h3.waits, hs.lists.1]
  exact h3

theorem Holds.flashWork (h : Holds s t) : Holds s t.flashWork := by
  have hfree : ∀ v, Holds s v → Holds s v.useFree := fun v hv => hv.put (by decide +kernel)
  have hprog : ∀ v k n d, Holds s v → k ≤ 31 → Holds s (v.lopProgress k n d) := fun v k n d hv hk =>
    hv.put (by decide +kernel) hk
  unfold State.flashWork
  extract_lets +onlyGivenNames a
  have ha : Holds s a := by
    dsimp only [a]
    split
    · rename_i hk
      exact hprog _ _ _ _ ((hfree _ h).put (by decide +kernel)) (lopOf_lt hk)
    · exact h
  clear_value a
  extract_lets -underBinder +onlyGivenNames b
  have hb : Holds s b := by
    dsimp only [b]
    split
    · rename_i hk
      split at hk
      · exact hprog _ _ _ _ ((hfree _ ha).put (by decide +kernel)) (lopOf_lt hk)
      · cases hk
    · exact ha
  clear_value b
  split
  · rename_i hk
    split at hk
    · cases hk
    · split
      · exact hb
      · exact hprog _ _ _ _ ((hfree _ hb).put (by decide +kernel)) (lopOf_lt hk)
  · exact hb

theorem Idle.boundaryRest (h : Idle s) (n : Nat) : Holds s (s.boundaryRest n) := by
  have hw := h.lists.1
  have h1 : Holds s (((s.portCfgs).fioBoundary n).cmpBoundary) := by
    have hp := h.portCfgs
    have hf := hp.trans ((h.of_holds hp).fioBoundary n)
    exact hf.trans (h.of_holds hf).cmpBoundary
  have h2 := h1.trans ((h.of_holds h1).injBoundary n)
  obtain ⟨hsv, hdw, hds, hcm, hst⟩ := (h.of_holds h2).noRest
  have h3 := (h2.put (f := H.QUAR_2) (v := 0) (i := 0) (j := 0) (by decide +kernel)).pairBoundary h
  obtain ⟨-, -, -, hcm3, -⟩ := (h.of_holds h3).noRest
  have h4 := h3.flashWork
  obtain ⟨-, -, -, -, hst4⟩ := (h.of_holds h4).noRest
  unfold State.boundaryRest
  simp only [State.cmpReqs_of_no_waits (h1.waits.trans hw),
    State.securityBoundary_of_idle (h2.waits.trans hw) hsv hdw hds,
    State.ownFault_of_unpaired (h.of_holds h2).noPair.2.2, State.when, ite_self, State.commitSnap_of_idle hcm3,
    State.standbyStep_of_idle hst4]
  exact h4

theorem Idle.settle (h : Idle s) (t n : Nat) (due : List Nat) : Holds s (s.settle t n due) := by
  have hr : (s.each (List.range 2) fun s r => s.ringStopped r) = s :=
    State.each_induction (P := (· = s)) (fun v r hm hv => by
      rw [hv, State.ringStopped_of_running (h.noRing r (List.mem_range.1 hm))]) rfl
  have hb := h.boundaryRest n
  have ht : ((s.boundaryRest n).each due fun s a => s.trackCheck a t) = s.boundaryRest n :=
    State.each_induction (P := (· = s.boundaryRest n)) (fun v a _ hv => by
      rw [hv, State.trackCheck_of_off fun u hu => ((h.of_holds hb).noUnit u hu).2.2]) rfl
  unfold State.settle
  dsimp only
  rw [hr, ht]
  exact hb

end Sys2Proof.Claims
end

section
/-! PROOFS. What a boundary does to memory and registers between the staging of a clause and its release (R106, R136, R142):
the words of a descriptor applied, a release that fails, a sample that a sweep misses. -/

namespace Sys2Proof.Machine

variable {s : State}

/-! ### The standard clause of an axis -/

/-- An axis in no group, with no sweep to serve, stages its own descriptors alone. -/
theorem State.relink_ungrouped {a : Nat} (h : s.axSt a ≠ 0) (hg : s.groupOf a = 255) (hc : s.capChans a = []) :
    s.relink a = s.stageAll (s.axDescs a) := by
  simp [State.relink, h, hg, hc, State.stageAll, State.each]

theorem State.axDescs_ungrouped {a : Nat} (hg : s.groupOf a = 255) (hk : s.axKind a < 2)
    (hs : s.get R.AXS_STATUS_SAFE_DEMAND a = 0) (hc : s.capChans a = []) :
    s.axDescs a = [(s.get H.AX_DESC a % 1024, { s.axStd a 0 with prio := 5 }.words)] := by
  have hk' : ¬ 2 ≤ s.axKind a := by omega
  simp [State.axDescs, hg, hk', State.on_eq_false hs, State.capDescOf, hc, State.axStd]

theorem State.stageAll_single {d : Nat} {ws : List Nat} (h : (s.descNext d).take 5 ≠ ws.take 5) :
    s.stageAll [(d, ws)] = s.descStage d ws := by
  simp [State.stageAll, State.each, h]

/-- An axis that neither stops nor resets, on no drive port, follows a change of its safety demand (R47). -/
theorem State.axisAfter_of_safeSync {a t : Nat} {gone : Bool} (hst : s.axSt a ≠ 0) (hstop : s.get H.AX_STOP a = 0)
    (hdp : s.dpOf a = none) (hf : s.get H.FRST_ON a = 0) (hg : s.get H.NODE_GONE a = 0)
    (hh : (s.safeSync a).get R.HM_STAT_PHASE a = 0) (hm : (s.safeSync a).motions = []) :
    s.axisAfter a t gone = s.safeSync a := by
  simp [State.axisAfter, hst, State.stopProgress, hstop, State.gfltRise, hdp, State.on_eq_false hf, State.on_eq_false hg,
    State.homeBoundary, hh, State.pruneMotions, State.motionsOf, hm]

theorem State.descStage_of_none (h : s.descPend = []) (d : Nat) (ws : List Nat) :
    s.descStage d ws = { s with descPend := [(d, ws)] } := by
  simp [State.descStage, h]

/-- The end of a safety demand has an ungrouped axis stage its standard clause, where that is not in force (R47, R137). -/
theorem State.safeSync_stages {a d : Nat} {t : State} {ws : List Nat} (ht : s.put R.AXS_STATUS_SAFE_DEMAND 0 a = t)
    (hst : s.axSt a ≠ 0) (hsg : s.sgOf a = 255) (hsd : s.get R.AXS_STATUS_SAFE_DEMAND a ≠ 0) (hr : t.axSt a ≠ 0)
    (hg : t.groupOf a = 255) (hc : t.capChans a = []) (hds : t.axDescs a = [(d, ws)])
    (hne : (t.descNext d).take 5 ≠ ws.take 5) (hp : t.descPend = []) :
    s.safeSync a = { t with descPend := [(d, ws)] } := by
  have hv : b2n (s.sgOf a != 255 && bit (s.get R.SAF_SG_DEM) (s.sgOf a)) = 0 := by simp [hsg, b2n]
  unfold State.safeSync
  dsimp only
  rw [hv, if_neg (by tauto), ht, State.relink_ungrouped hr hg hc, hds, State.stageAll_single hne,
    State.descStage_of_none hp]

/-- An axis at its boundary: its limit inputs, at which its events are taken, and what follows them (R41). -/
def State.eventsOf (s : State) (t a : Nat) : State :=
  (s.each [a] fun s a => s.when (s.axSt a != 0) fun s => s.limitInputs a t).boundaryEvents t [a]

theorem State.axesBoundary_single (s : State) (t a : Nat) :
    ∃ gone, s.axesBoundary t [a] = (s.eventsOf t a).axisAfter a t gone := ⟨_, rfl⟩

/-! ### Words of a register written -/

theorem State.putWord1_eq_put {f : Fld} {w i : Nat} (h : fldAt f w = some (i, 0)) (h1 : fldAt f (w + 1) = none)
    (h2 : fldAt f (w + 2) = none) (h3 : fldAt f (w + 3) = none) (hf : f.lo + f.width ≤ 32) (s : State) (v : Nat) :
    s.putWord1 f w v = s.put f (v / 2 ^ f.lo) i := by
  simp [State.putWord1, State.putPart, State.putHigh, h, h1, h2, h3, hf, Nat.not_lt.2 hf]

/-- Where every field of the word lies in it, a write of the word writes each of them. -/
theorem State.putWord_eq_puts {fs : List Fld} {w i : Nat}
    (h : ∀ f ∈ fieldsOf fs w, fldAt f w = some (i, 0) ∧ fldAt f (w + 1) = none ∧ fldAt f (w + 2) = none ∧
      fldAt f (w + 3) = none ∧ f.lo + f.width ≤ 32) (s : State) (v : Nat) :
    s.putWord fs w v = s.each (fieldsOf fs w) fun s f => s.put f (v / 2 ^ f.lo) i := by
  unfold State.putWord State.each
  refine List.foldl_ext _ _ _ fun t f hf => ?_
  obtain ⟨h0, h1, h2, h3, hl⟩ := h f hf
  exact State.putWord1_eq_put h0 h1 h2 h3 hl t v

/-! ### Runs of writes, and memory -/

theorem State.get_each_puts {l : List Fld} {i : Nat} (val : Fld → Nat) (hl : (l.map fun f => fkey f i 0).Nodup) {f : Fld}
    (hf : f ∈ l) (s : State) : (s.each l fun s f => s.put f (val f) i).get f i 0 = val f % 2 ^ f.width := by
  induction l generalizing s with
  | nil => exact absurd hf List.not_mem_nil
  | cons g l ih =>
    obtain ⟨hg, hl'⟩ := List.nodup_cons.1 hl
    rcases List.mem_cons.1 hf with rfl | hf'
    · refine State.each_induction (l := l) (s := s.put f (val f) i) (P := fun t => t.get f i 0 = val f % 2 ^ f.width)
        (fun t x hx ht => ?_) (State.get_put_self ..)
      rwa [State.get_put_ne]
      exact fun he => hg (List.mem_map.2 ⟨x, hx, he⟩)
    · exact ih hl' hf' _

theorem State.trcRec_mem (s : State) (ty r : Nat) : (s.trcRec ty r).mem = s.mem := by
  have hput : ∀ (t : State) r, (t.trcPut r).mem = t.mem := fun t r => by
    unfold State.trcPut
    split_ifs <;> rfl
  exact (State.when_same State.mem _ _ (hput _ _)).trans (hput _ _)

theorem State.each_cons {α : Type} (s : State) (x : α) (l : List α) (f : State → α → State) :
    s.each (x :: l) f = (f s x).each l f := rfl

/-- A first record of a sweep counts itself in the first word of its buffer, and starts no other sweep (R263). -/
theorem State.sweepRec_first {c : Nat} (hrec : s.get H.SW_REC c = 0) (hlen : s.get H.SW_LEN c ≠ 0) (ws : List Nat) :
    (s.sweepRec c ws).byte (pageAddr (s.get H.SW_PAGE c - 1)) = 1 := by
  unfold State.sweepRec
  simp only [hrec, Nat.le_zero, if_neg hlen]
  exact State.byte_setBytes_in (toBytes 4 (0 + 1)) _ _ 0 (by decide)

theorem State.sweepRec_on {c : Nat} (hc : c < 32) (ws : List Nat) {k : Nat} (hk : k < 32) :
    (s.sweepRec c ws).get H.SW_ON k = s.get H.SW_ON k := by
  unfold State.sweepRec
  dsimp only
  split_ifs
  · rfl
  · rw [State.get_put_ne, State.store, State.setBytes_get, State.setBytes_get]
    simp only [fkey, H.SW_REC, H.SW_ON]
    omega

/-- A sample that a running sweep on channel 0 misses is counted in the first word of its buffer (R99, R263). -/
theorem State.sweepMissed_byte {a : Nat} (hon : s.get H.SW_ON 0 ≠ 0) (hrun : s.get H.SW_RUN 0 ≠ 0)
    (hax : s.get H.SW_AXIS 0 = a) (hrec : s.get H.SW_REC 0 = 0) (hlen : s.get H.SW_LEN 0 ≠ 0)
    (hoff : ∀ c < 32, c ≠ 0 → s.get H.SW_ON c = 0) :
    (s.sweepMissed a).byte (pageAddr (s.get H.SW_PAGE 0 - 1)) = 1 := by
  have hfirst : (s.on H.SW_ON 0 && s.on H.SW_RUN 0 && s.get H.SW_AXIS 0 == a) = true := by
    simp [State.on_eq_true hon, State.on_eq_true hrun, hax]
  have hb := State.sweepRec_first hrec hlen [s.get H.SW_V 0 0, 0x80000000, 0x80000000, 0x80000000]
  have hs : ∀ c < 32, c ≠ 0 → (s.sweepRec 0 [s.get H.SW_V 0 0, 0x80000000, 0x80000000, 0x80000000]).get H.SW_ON c = 0 :=
    fun c hc h0 => (State.sweepRec_on (by decide) _ hc).trans (hoff c hc h0)
  unfold State.sweepMissed
  rw [List.range_eq_range', List.range'_succ, State.each_cons, hfirst, State.when_true]
  generalize s.sweepRec 0 [s.get H.SW_V 0 0, 0x80000000, 0x80000000, 0x80000000] = w at hb hs ⊢
  generalize (max _ _ : Nat) = v
  refine (State.each_induction (l := List.range' (0 + 1) 31) (P := fun t => t = w.put H.SW_K v) (fun t c hc ht => ?_)
    rfl).symm ▸ hb
  obtain ⟨hc1, hc2⟩ := List.mem_range'_1.1 hc
  have hz : t.get H.SW_ON c = 0 := by
    rw [ht, State.get_put_ne _ _ (by simp only [fkey, H.SW_K, H.SW_ON]; omega)]
    exact hs c (by omega) (by omega)
  simp only [State.on_eq_false hz, Bool.false_and, State.when_false]
  exact ht

theorem State.portLatch_mem (s : State) (a : Nat) : (s.portLatch a).mem = s.mem := by
  unfold State.portLatch
  dsimp only
  split <;> split <;> rfl

theorem State.each_mem {α : Type} {l : List α} {f : State → α → State} (hf : ∀ t, ∀ x ∈ l, (f t x).mem = t.mem)
    (s : State) : (s.each l f).mem = s.mem :=
  State.each_induction (P := fun t => t.mem = s.mem) (fun t x hx ht => (hf t x hx).trans ht) rfl

theorem State.rateTo_mem (s : State) (p : Nat) (r : Int) : (s.rateTo p r).mem = s.mem := by
  have hset : ∀ t : State, (t.resSettle p).mem = t.mem := fun t => by
    unfold State.resSettle
    split
    · rfl
    · refine State.each_mem (fun v _ _ => ?_) t
      unfold State.resChange
      dsimp only
      split <;> rfl
  exact hset _

theorem State.portPeriod_mem (s : State) (a : Nat) : (s.portPeriod a).mem = s.mem := by
  unfold State.portPeriod
  split
  · exact State.when_same State.mem _ _ (State.rateTo_mem ..)
  · split
    · exact State.when_same State.mem _ _ rfl
    · rfl

theorem State.mirror_mem (s : State) (a : Nat) : (s.mirror a).mem = s.mem := by
  unfold State.mirror
  simp only [State.put_mem]
  refine State.when_same State.mem s _ ?_
  rfl

theorem State.trc_mem (s : State) (ty : Nat) (eng : Option Nat) (desc prio info aux : Nat) :
    (s.trc ty eng desc prio info aux).mem = s.mem := State.trcRec_mem ..

end Sys2Proof.Machine

namespace Sys2Proof.Claims
open Sys2Proof.Machine

variable {s t : State} {ks : List Nat}

/-! ### The words of descriptor 0 (R137) -/

/-- The fields of the words of descriptor 0 lie each in its word (R137). -/
theorem desc0_fields : ∀ k < 8, ∀ f ∈ fieldsOf descCfg (0x41000 + 4 * k), fldAt f (0x41000 + 4 * k) = some (0, 0) ∧
    fldAt f (0x41000 + 4 * k + 1) = none ∧ fldAt f (0x41000 + 4 * k + 2) = none ∧ fldAt f (0x41000 + 4 * k + 3) = none ∧
    f.lo + f.width ≤ 32 := by decide +kernel

theorem each_kept {α : Type} {l : List α} {f : State → α → State} (h : RegsKept ks s t)
    (hf : ∀ v, ∀ x ∈ l, RegsKept ks s v → RegsKept ks s (f v x)) : RegsKept ks s (t.each l f) :=
  State.each_induction hf h

/-- The fields of word `k` of a descriptor (R137). -/
def descWord (k : Nat) : List Fld := fieldsOf descCfg (0x41000 + 4 * k)

/-- Their places in descriptor 0. -/
def descWordPlaces (k : Nat) : List Nat := (descWord k).map fun f => fkey f 0 0

theorem descWordPlaces_nodup : ∀ k < 8, (descWordPlaces k).Nodup := by decide +kernel

theorem descWord_apart : ∀ k < 8, ∀ j < 8, j = k ∨ ∀ f ∈ descWord j, fkey f 0 0 ∉ descWordPlaces k := by decide +kernel

/-- The words of descriptor 0 from word `k` on read back, and the words before as they were. -/
theorem get_descWords {f : Fld} {j : Nat} (hj : j < 8) (hf : f ∈ descWord j) (ws : List Nat) (k : Nat) (s : State)
    (hk : k + ws.length ≤ 8) : (s.putWords descCfg (0x41000 + 4 * k) ws).get f =
      if k ≤ j ∧ j < k + ws.length then ws.getD (j - k) 0 / 2 ^ f.lo % 2 ^ f.width else s.get f := by
  induction ws generalizing s k with
  | nil =>
    rw [if_neg (by simp)]
    rfl
  | cons w ws ih =>
    simp only [List.length_cons] at hk ⊢
    have hput := State.putWord_eq_puts (desc0_fields k (by omega)) s w
    show ((s.putWord descCfg (0x41000 + 4 * k) w).putWords descCfg (0x41000 + 4 * (k + 1)) ws).get f = _
    rw [ih (k + 1) _ (by omega)]
    by_cases hjk : j = k
    · subst hjk
      rw [if_neg (by omega), if_pos (by omega), hput, Nat.sub_self]
      exact State.get_each_puts _ (descWordPlaces_nodup j hj) hf s
    · have hkeep : (s.putWord descCfg (0x41000 + 4 * k) w).get f = s.get f := by
        rw [hput]
        exact each_kept (ks := descWordPlaces k) (kept_refl _ s)
          (fun v x hx hv => kept_put (List.mem_map_of_mem hx) hv) f 0 0
          (((descWord_apart k (by omega) j hj).resolve_left hjk) f hf)
      rw [hkeep]
      by_cases hgt : k < j
      · rw [show j - k = j - (k + 1) + 1 by omega, List.getD_cons_succ]
        exact if_congr (by omega) rfl rfl
      · rw [if_neg (by omega), if_neg (by omega)]

/-! ### The words of descriptor 0 that wait are applied -/

/-- The places that the application of descriptor 0 writes beside its words (R136, R145). -/
def applyPlaces : List Nat :=
  [fkey H.DESC_CUSTOM 0 0, fkey R.SCH_DESC_LAST_CYC 0 0, fkey R.SCH_DESC_MAX_CYC 0 0, fkey R.SCH_DESC_AFFV 0 0,
   fkey H.REL_F 0 0, fkey R.SCH_DESC_JCNT 0 0, fkey R.SCH_ADMITTED 0 0, fkey R.SCH_STATUS_OVERLOAD 0 0]

/-- The state in which the words of descriptor 0 stand as they were staged (R136). -/
def descWritten (s : State) (ws : List Nat) : State := (s.errWrote 5 (0x20 * 0) 32).putWords descCfg 0x41000 ws

theorem kept_when_put {c : Bool} {f : Fld} {i j : Nat} {val : State → Nat} (hk : fkey f i j ∈ ks)
    (h : RegsKept ks s t) : RegsKept ks s (t.when c fun t => t.put f (val t) i j) := kept_when h (kept_put hk h)

theorem descApply_kept {ws : List Nat} (h : s.descPend = [(0, ws)]) :
    RegsKept applyPlaces (descWritten s ws) s.descApply := by
  unfold State.descApply
  rw [h, List.isEmpty_cons, if_neg Bool.false_ne_true, State.each_cons]
  extract_lets t0 t1 rises anew t2 t3 t4
  have h1 : RegsKept applyPlaces (descWritten s ws) t1 := kept_put (by simp [applyPlaces]) (kept_refl _ _)
  have h2 : RegsKept applyPlaces (descWritten s ws) t2 :=
    kept_when h1 (kept_put (by simp [applyPlaces]) (kept_put (by simp [applyPlaces]) h1))
  have h3 : RegsKept applyPlaces (descWritten s ws) t3 := kept_when_put (by simp [applyPlaces]) h2
  have h4 : RegsKept applyPlaces (descWritten s ws) t4 := kept_when_put (by simp [applyPlaces]) h3
  clear_value t4
  have h5 := kept_when_put (c := anew || s.get R.SCH_DESC_JOIN 0 != t4.get R.SCH_DESC_JOIN 0) (f := R.SCH_DESC_JCNT)
    (i := 0) (j := 0) (val := fun t => max 1 (t.get R.SCH_DESC_JOIN 0)) (by simp [applyPlaces]) h4
  exact kept_put (by simp [applyPlaces]) (kept_put (by simp [applyPlaces]) (kept_of_regs (by rfl) h5))

theorem codeApply_kept (h : RegsKept ks s t) : RegsKept ks s t.codeApply := by
  unfold State.codeApply
  split
  · exact h
  · refine kept_of_regs (by rfl) (each_kept h fun v p _ hv => each_kept (kept_setBytes hv) fun w e _ hw => ?_)
    exact kept_setBytes (kept_of_regs (by rfl) hw)

/-- The places that the trace record of a boundary writes (R159). -/
def tracePlaces : List Nat := [fkey R.SCH_CNT_TRCLOST 0 0, fkey H.TRC_TRIG 0 0]

theorem trcPut_kept (h : RegsKept tracePlaces s t) (r : Nat) : RegsKept tracePlaces s (t.trcPut r) := by
  unfold State.trcPut
  split_ifs
  · exact h
  · exact kept_put (by simp [tracePlaces]) h
  · exact kept_of_regs rfl h

theorem trcBoundary_kept (s : State) : RegsKept tracePlaces s s.trcBoundary := by
  have h := trcPut_kept (kept_refl _ s) (9 * 2 ^ 60 + s.get H.BND_N % 2 ^ 36 * 2 ^ 24)
  exact kept_when h (trcPut_kept (kept_put (by simp [tracePlaces]) h) _)

theorem kept_trans {ks ks' : List Nat} {u : State} (h : RegsKept ks s t) (k : RegsKept ks' t u) :
    RegsKept (ks ++ ks') s u := fun f i j hn => by
  simp only [List.mem_append, not_or] at hn
  exact (k f i j hn.2).trans (h f i j hn.1)

/-- The places of the words of descriptor 0. -/
def desc0Places : List Nat := (List.range 8).flatMap descWordPlaces

theorem descWritten_kept {ws : List Nat} (h : ws.length ≤ 8) : RegsKept desc0Places s (descWritten s ws) := by
  have key : ∀ (ws : List Nat) (k : Nat) (t : State), k + ws.length ≤ 8 → RegsKept desc0Places s t →
      RegsKept desc0Places s (t.putWords descCfg (0x41000 + 4 * k) ws) := by
    intro ws
    induction ws with
    | nil => exact fun k t _ ht => ht
    | cons w ws ih =>
      intro k t hk ht
      simp only [List.length_cons] at hk
      refine ih (k + 1) _ (by omega) ?_
      rw [State.putWord_eq_puts (desc0_fields k (by omega))]
      exact each_kept ht fun v f hf hv =>
        kept_put (List.mem_flatMap.2 ⟨k, List.mem_range.2 (by omega), List.mem_map_of_mem hf⟩) hv
  exact key ws 0 _ (by omega) (kept_of_regs rfl (kept_refl _ s))

/-! ### A release that fails at once, and what it misses (R135, R144) -/

/-- The places that a release of descriptor 0 for axis 0 in cycle 0 writes (R144). -/
def releasePlaces : List Nat :=
  [fkey H.INST_ID 0 0, fkey R.SCH_DESC_PEND 0 0] ++ (List.range 6).map fun k => fkey H.AX_PKT 0 k

theorem pktKeep_kept (hr : s.get R.SCH_DESC_REC 0 = 0) (pkt : List Nat) (h : RegsKept releasePlaces s t) :
    RegsKept releasePlaces s (t.pktKeep 0 1 0 pkt) := by
  unfold State.pktKeep
  split
  · exact h
  · refine each_kept h fun v k hk hv => kept_put ?_ hv
    rw [(hv _ _ _ (by decide)).trans hr, show 6 * (0 % 64) + k = k by omega]
    exact List.mem_append_right _ (List.mem_map_of_mem hk)

/-- A release for axis 0 of descriptor 0 that is being rewritten fails at once (R144). -/
theorem release_eq_failInst {fb : Nat} {pkt : List Nat} (hen : s.get R.SCH_DESC_EN 0 ≠ 0)
    (hall : s.noRelease = false) (hcl : s.noClause 0 = false) (hp : s.get R.SCH_DESC_PEND 0 < 4)
    (hrl : s.get H.DESC_RELOAD 0 = 0) (hrec : s.get R.SCH_DESC_REC 0 = 0) (hw : s.now < s.get H.DESC_RWT 0) :
    ∃ (w : State) (x : Inst), s.release 0 1 0 fb pkt = w.failInst x 0 ∧ RegsKept releasePlaces s w ∧
      x.desc = 0 ∧ x.ty = s.get R.SCH_DESC_TYPE 0 ∧ x.recd = 0 ∧ x.rtype = s.get R.SCH_DESC_RTYPE 0 ∧ x.late = false := by
  have h0 : (!s.on R.SCH_DESC_EN 0 || s.noRelease || s.noClause 0) = false := by
    simp [State.on_eq_true hen, hall, hcl]
  have hwhen : ∀ (w : State) (x : Inst), RegsKept releasePlaces s w →
      (w.when (decide (w.now < w.get H.DESC_RWT 0)) fun s => s.failInst x 0) = w.failInst x 0 := fun w x hk => by
    have hlt : w.now < w.get H.DESC_RWT 0 := by
      rwa [State.now, hk _ _ _ (by decide), hk _ _ _ (by decide)]
    rw [decide_eq_true hlt, State.when_true]
  have hkept : ∀ (x : Inst) (v : Nat), RegsKept releasePlaces s
      ((({ s with insts := s.insts ++ [x] }.pktKeep 0 1 0 pkt).incWrap H.INST_ID).put R.SCH_DESC_PEND v) := fun x v =>
    kept_put (by decide) (kept_put (by decide) (pktKeep_kept hrec pkt (kept_of_regs (t := s) rfl (kept_refl _ s))))
  unfold State.release
  simp only [h0, Bool.false_eq_true, if_false, if_pos hp, State.on_eq_false hrl, State.when_false]
  exact ⟨_, _, hwhen _ _ (hkept _ _), hkept _ _, rfl, rfl, hrec, rfl, rfl⟩

/-- The places that an overrun of axis `a` writes before its sweeps see it (R135). -/
def overrunPlaces (a : Nat) : List Nat :=
  [fkey R.AXS_STATUS_STALE a 0, fkey R.LIV_OVERRUN a 0, fkey R.SCH_CNT_OVR 0 0, fkey R.AXS_STATUS_OVR_CONSEC a 0]

/-- Of an overrun only what the sweeps of the axis record is in memory (R135, R263). -/
theorem overrun_mem (s : State) (a d prio info cyc : Nat) :
    ∃ w : State, RegsKept (overrunPlaces a) s w ∧ (s.overrun a d prio info cyc).mem = (w.sweepMissed a).mem := by
  unfold State.overrun
  extract_lets b c e f
  have hf : RegsKept (overrunPlaces a) s f :=
    kept_put (by simp [overrunPlaces]) (kept_put (by simp [overrunPlaces]) (kept_put (by simp [overrunPlaces])
      (kept_put (by simp [overrunPlaces]) (kept_refl _ s))))
  clear_value f
  exact ⟨_, kept_when hf hf, State.trc_mem ..⟩

/-- A clause of axis 0 that fails is a sample that the sweeps of the axis miss (R135, R263). -/
theorem failInst_mem {x : Inst} (hd : x.desc = 0) (hty : x.ty = 0) (hrec : x.recd = 0) (hrt : x.rtype = 0)
    (hl : x.late = false) (info : Nat) :
    ∃ w : State, RegsKept ([fkey R.SCH_DESC_PEND 0 0, fkey H.DESC_RELOAD 0 0] ++ overrunPlaces 0) s w ∧
      (s.failInst x info).mem = (w.sweepMissed 0).mem := by
  have hk : RegsKept [fkey R.SCH_DESC_PEND 0 0, fkey H.DESC_RELOAD 0 0] s ((s.dropInst x).put H.DESC_RELOAD 1 0) := by
    unfold State.dropInst
    rw [hd]
    exact kept_put (by simp) (kept_put (by simp) (kept_of_regs (t := s) rfl (kept_refl _ s)))
  obtain ⟨w, hw, hm⟩ := overrun_mem ((s.dropInst x).put H.DESC_RELOAD 1 0) 0 0 x.prio info x.cyc
  refine ⟨w, fun f i j hn => ?_, ?_⟩
  · simp only [List.mem_append, not_or] at hn
    exact (hw f i j hn.2).trans (hk f i j hn.1)
  · have hz : ¬ (0 : Nat) = 1 ∧ ¬ (0 : Nat) = 3 := by decide
    rw [← hm, State.failInst, hl, Bool.not_false, State.when_true, State.missed, hd, hty, hrt, hrec, if_neg hz.1,
      if_neg hz.2, if_pos ⟨.inl rfl, rfl⟩]

end Sys2Proof.Claims
end

section
/-! PROOFS. A boundary at which nothing waits and that writes memory: the counterexample to its claim. -/

namespace Sys2Proof.Claims
open Sys2Proof.Machine

variable {s t : State}

/-! ### The counterexample: a sweep of an axis whose standard clause is staged at its boundary -/

/-- Axis 0 is Disabled on pulse port 0, and follows the end of a safety demand at its next boundary; a sweep of it runs on
channel 0, and descriptor 0, its standard clause, is being rewritten. -/
def sweptAxis : State :=
  let s := ((State.reset.put R.PWR_DOM_ON 0xFFF).put R.PWR_DOM_RST 0).put H.STAT_LEN 1000
  let s := ((s.put R.AXS_STATUS_STATE 2).put R.AXS_STATUS_SAFE_DEMAND 1).put H.AX_BIND 0x20
  let s := (((s.put H.SW_ON 1).put H.SW_RUN 1).put H.SW_PAGE 1).put H.SW_LEN 8
  s.put H.DESC_RWT 20000

/-- The same behind the first half of the boundary of cycle 0, which only counts. -/
def sweptOpened : State := (sweptAxis.put H.STAT_CNT 1).put H.TICK_CNT 1

/-- The same behind the axis's events. -/
def sweptEvents : State := sweptOpened.eventsOf 0 0

/-- The same with the end of the safety demand taken. -/
def sweptFreed : State := sweptEvents.put R.AXS_STATUS_SAFE_DEMAND 0

/-- The words of its standard clause. -/
def sweptWords : List Nat := { sweptFreed.axStd 0 0 with prio := 5 }.words

/-- The state behind its events: the clause is staged. -/
def sweptStaged : State := { sweptFreed with descPend := [(0, sweptWords)] }

theorem sweptAxis_quiet : QuietPart sweptAxis [0] [] := by constructor <;> decide +kernel

theorem sweptAxis_openCycle : sweptAxis.openCycle 0 0 = sweptOpened := by
  have hcount : ((sweptAxis.newCycle 0 0).schLoad.each (List.range 2) fun s r => s.launch 0 r).statStep 0 = sweptOpened := by
    decide +kernel
  have hswap : sweptOpened.swapDue 0 0 = false := by decide +kernel
  unfold State.openCycle
  dsimp only
  rw [hcount, hswap, State.when_false]

theorem sweptOpened_due : sweptOpened.dueAxes 0 = [0] := by decide +kernel

theorem sweptEvents_facts : sweptEvents.axSt 0 ≠ 0 ∧ sweptEvents.get H.AX_STOP 0 = 0 ∧ sweptEvents.dpOf 0 = none ∧
    sweptEvents.get H.FRST_ON 0 = 0 ∧ sweptEvents.get H.NODE_GONE 0 = 0 ∧ sweptEvents.sgOf 0 = 255 ∧
    sweptEvents.get R.AXS_STATUS_SAFE_DEMAND 0 ≠ 0 := by decide +kernel

theorem sweptFreed_facts : sweptFreed.axSt 0 ≠ 0 ∧ sweptFreed.groupOf 0 = 255 ∧ sweptFreed.capChans 0 = [] ∧
    sweptFreed.axKind 0 < 2 ∧ sweptFreed.get R.AXS_STATUS_SAFE_DEMAND 0 = 0 ∧ sweptFreed.get H.AX_DESC 0 % 1024 = 0 ∧
    (sweptFreed.descNext 0)[1]? = some 512 ∧ sweptFreed.descPend = [] := by decide +kernel

/-- Behind the words of a descriptor in force, those of an axis's clause differ in the second (R137). -/
theorem sweptWords_ne : (sweptFreed.descNext 0).take 5 ≠ sweptWords.take 5 := by
  obtain ⟨-, -, -, -, -, -, h, -⟩ := sweptFreed_facts
  intro he
  have h1 : (sweptWords.take 5)[1]? = some 512 := by rw [← he, List.getElem?_take, if_pos (by decide), h]
  have h2 : (sweptWords.take 5)[1]? = some 0 := by decide +kernel
  exact absurd (h1.symm.trans h2) (by decide)

theorem sweptStaged_facts : sweptStaged.get R.HM_STAT_PHASE 0 = 0 ∧ sweptStaged.motions = [] := by decide +kernel

theorem sweptOpened_axesBoundary : sweptOpened.axesBoundary 0 [0] = sweptStaged := by
  obtain ⟨hst, hstop, hdp, hfr, hng, hsg, hsd⟩ := sweptEvents_facts
  obtain ⟨h1, h2, h3, h4, h5, h6, -, hp⟩ := sweptFreed_facts
  obtain ⟨hh, hm⟩ := sweptStaged_facts
  have hds := State.axDescs_ungrouped h2 h4 h5 h3
  rw [h6] at hds
  have hsync : sweptEvents.safeSync 0 = sweptStaged :=
    State.safeSync_stages (t := sweptFreed) rfl hst hsg hsd h1 h2 h3 hds sweptWords_ne hp
  obtain ⟨gone, hgone⟩ := sweptOpened.axesBoundary_single 0 0
  rw [hgone]
  rw [← hsync] at hh hm
  exact (State.axisAfter_of_safeSync hst hstop hdp hfr hng hh hm).trans hsync

theorem sweptStaged_idle : Idle sweptStaged := by constructor <;> decide +kernel

/-! ### The release that fails -/

/-- At the releases of a boundary: descriptor 0 alone waits to be enabled, under a rewrite, and a sweep of axis 0 runs on
channel 0 with nothing recorded. -/
structure Poised (s : State) : Prop where
  staged : s.descPend = [(0, sweptWords)]
  disabled : s.get R.AXS_STATUS_STATE 0 = 2
  power : s.get R.PWR_STATE_STATE = 0 ∧ s.get H.PWR_STBY = 0
  noDesc : ∀ d < 1024, s.get R.SCH_DESC_EN d = 0
  desc : s.get R.SCH_DESC_PEND 0 = 0 ∧ s.get H.DESC_RELOAD 0 = 0
  rewrite : s.get R.DCK_TIME < s.get H.DESC_RWT 0
  sweep : s.get H.SW_ON 0 ≠ 0 ∧ s.get H.SW_RUN 0 ≠ 0 ∧ s.get H.SW_AXIS 0 = 0
  buffer : s.get H.SW_REC 0 = 0 ∧ s.get H.SW_LEN 0 ≠ 0 ∧ s.get H.SW_PAGE 0 = 1
  others : ∀ c < 32, c ≠ 0 → s.get H.SW_ON c = 0

theorem Poised.of_holds (h : Poised s) (k : Holds s t) : Poised t := by
  obtain ⟨h1, h2, ⟨h3, h4⟩, h5, ⟨h6, h7⟩, h8, ⟨h9, h10, h11⟩, ⟨h12, h13, h14⟩, h15⟩ := h
  refine ⟨k.descPend.trans h1, k.get.trans h2, ⟨k.get.trans h3, k.get.trans h4⟩, fun d hd => (k.get (hk := hd)).trans (h5 d hd),
    ⟨k.get.trans h6, k.get.trans h7⟩, ?_, ⟨?_, ?_, k.get.trans h11⟩, ⟨k.get.trans h12, ?_, k.get.trans h14⟩,
    fun c hc h0 => (k.get (hk := hc)).trans (h15 c hc h0)⟩
  · rwa [k.get, k.get (g := H.DESC_RWT)]
  · rwa [k.get]
  · rwa [k.get]
  · rwa [k.get]

theorem sweptStaged_poised : Poised sweptStaged :=
  ⟨rfl, by decide +kernel, by decide +kernel, by decide +kernel, by decide +kernel, by decide +kernel, by decide +kernel,
    by decide +kernel, by decide +kernel⟩

/-- The standard clause of axis 0 runs for the axis, at every start of a period (R137, R142). -/
def sweptClause : StdDesc := { prio := 5, rel := 1, rtype := 0, cost := 220 }

theorem sweptWords_eq : sweptWords = sweptClause.words := by
  have h : { sweptFreed.axStd 0 0 with prio := 5 } = sweptClause := by decide +kernel
  exact congrArg StdDesc.words h

theorem words_length (d : StdDesc) : d.words.length = 8 := rfl

theorem entryOf_lt (ty : Nat) : entryOf ty < 0xC000 := Nat.mod_lt _ (by decide)

/-- The first word of the clause says EN, REL and TYPE, whatever its entry point (R137). -/
theorem words_zero {d : StdDesc} (hp : d.prio = 5) (hr : d.rel = 1) (ht : d.ty = 0) :
    ∃ w, d.words.getD 0 0 = w ∧ w / 2 ^ 22 % 2 ^ 1 = 1 ∧ w / 2 ^ 20 % 2 ^ 2 = 1 ∧ w / 2 ^ 24 % 2 ^ 4 = 0 := by
  refine ⟨_, rfl, ?_⟩
  rw [StdDesc.words, List.getD_cons_zero, hp, hr, ht]
  have he := entryOf_lt 0
  generalize entryOf 0 = e at he
  omega

theorem sweptClause_zero : ∃ w, sweptClause.words.getD 0 0 = w ∧ w / 2 ^ 22 % 2 ^ 1 = 1 ∧ w / 2 ^ 20 % 2 ^ 2 = 1 ∧
    w / 2 ^ 24 % 2 ^ 4 = 0 := words_zero rfl rfl rfl

theorem sweptClause_one : sweptClause.words.getD 1 0 = 0 := by decide

theorem sweptClause_two : sweptClause.words.getD 2 0 = 0 := by decide

/-- The configuration of the boundary: the descriptor's words and the custom code are applied, and the trace marks the
cycle (R106, R136). -/
def configApplied (s : State) : State := s.descApply.codeApply.trcBoundary

theorem configApplied_kept {ws : List Nat} (h : s.descPend = [(0, ws)]) :
    RegsKept (applyPlaces ++ tracePlaces) (descWritten s ws) (configApplied s) :=
  kept_trans (codeApply_kept (descApply_kept h)) (trcBoundary_kept _)

/-- A field of descriptor 0 reads behind the boundary's configuration as the word staged says (R136). -/
theorem get_configApplied {f : Fld} {j w : Nat} (h : Poised s) (hw : sweptClause.words.getD j 0 = w) (hj : j < 8)
    (hf : f ∈ descWord j) (hn : fkey f 0 0 ∉ applyPlaces ++ tracePlaces) :
    (configApplied s).get f = w / 2 ^ f.lo % 2 ^ f.width := by
  rw [configApplied_kept h.staged f 0 0 hn, sweptWords_eq, ← hw]
  refine (get_descWords hj hf sweptClause.words 0 _ (words_length sweptClause).le).trans ?_
  rw [words_length, if_pos ⟨Nat.zero_le _, by omega⟩, Nat.sub_zero]

/-- The clause in force behind the boundary's configuration (R137). -/
theorem configApplied_clause (h : Poised s) :
    (configApplied s).get R.SCH_DESC_EN 0 = 1 ∧ (configApplied s).get R.SCH_DESC_REL 0 = 1 ∧
    (configApplied s).get R.SCH_DESC_TYPE 0 = 0 ∧ (configApplied s).get R.SCH_DESC_REC 0 = 0 ∧
    (configApplied s).get R.SCH_DESC_RTYPE 0 = 0 ∧ (configApplied s).get R.SCH_DESC_PHASE 0 = 0 := by
  obtain ⟨w, hw, hen, hrel, hty⟩ := sweptClause_zero
  exact ⟨(get_configApplied h hw (by decide) (by decide +kernel) (by decide +kernel)).trans hen,
    (get_configApplied h hw (by decide) (by decide +kernel) (by decide +kernel)).trans hrel,
    (get_configApplied h hw (by decide) (by decide +kernel) (by decide +kernel)).trans hty,
    (get_configApplied h sweptClause_one (by decide) (by decide +kernel) (by decide +kernel)).trans (by decide),
    (get_configApplied h sweptClause_one (by decide) (by decide +kernel) (by decide +kernel)).trans (by decide),
    (get_configApplied h sweptClause_two (by decide) (by decide +kernel) (by decide +kernel)).trans (by decide)⟩

/-- The places that the boundary's configuration writes. -/
def configPlaces : List Nat := desc0Places ++ (applyPlaces ++ tracePlaces)

theorem configApplied_config (h : Poised s) : RegsKept configPlaces s (configApplied s) := by
  have hw : sweptWords.length ≤ 8 := by rw [sweptWords_eq, words_length]
  exact kept_trans (descWritten_kept hw) (configApplied_kept h.staged)

/-- They lie outside the descriptors behind the first. -/
theorem configPlaces_outside : ∀ k ∈ configPlaces, k < 8 * 0x41020 ∨ 8 * 0x49000 ≤ k := by decide +kernel

/-- Descriptor 0 alone starts a clause at the boundary of cycle 0 (R142). -/
theorem startDescs_configApplied (h : Poised s) : (configApplied s).startDescs 0 = [0] := by
  obtain ⟨hen, hrel, -, -, -, hph⟩ := configApplied_clause h
  have hother : ∀ d < 1024, d ≠ 0 → fkey R.SCH_DESC_EN d 0 ∉ configPlaces := fun d hd h0 hm => by
    have hout := configPlaces_outside _ hm
    simp only [fkey, R.SCH_DESC_EN] at hout
    omega
  have hon : ∀ d ∈ List.range 1024, (configApplied s).on R.SCH_DESC_EN d = (d == 0) := fun d hd => by
    by_cases h0 : d = 0
    · rw [h0, State.on_eq_true (by rw [hen]; decide)]
      rfl
    · have hd' := List.mem_range.1 hd
      have hz := (configApplied_config h _ _ _ (hother d hd' h0)).trans (h.noDesc d hd')
      rw [State.on_eq_false hz, beq_false_of_ne h0]
  have hall : (configApplied s).enabled = [0] := by
    rw [State.enabled, List.filter_congr hon]
    decide +kernel
  simp [State.startDescs, hall, hrel, hph]

/-- The failed release is a sample that the sweep misses: its buffer counts a record (R263). -/
theorem release_configApplied_byte (h : Poised s) (fb : Nat) (pkt : List Nat) :
    ((configApplied s).release 0 1 0 fb pkt).byte (pageAddr 0) = 1 := by
  have hc := configApplied_config h
  obtain ⟨hen, -, hty, hrec, hrt, -⟩ := configApplied_clause h
  obtain ⟨hp, hrl⟩ := h.desc
  obtain ⟨hpw, hst⟩ := h.power
  have hall : (configApplied s).noRelease = false := by
    rw [State.noRelease, hc _ _ _ (by decide +kernel), hc _ _ _ (by decide +kernel), hpw, hst]
    rfl
  have hcl : (configApplied s).noClause 0 = false := by
    rw [State.noClause, hrt, hrec, State.axSt, hc _ _ _ (by decide +kernel), h.disabled]
    rfl
  have hpend : (configApplied s).get R.SCH_DESC_PEND 0 < 4 := by
    rw [hc _ _ _ (by decide +kernel), hp]
    decide
  have hnow : (configApplied s).now < (configApplied s).get H.DESC_RWT 0 := by
    rw [State.now, hc _ _ _ (by decide +kernel), hc _ _ _ (by decide +kernel)]
    exact h.rewrite
  obtain ⟨w, x, hrel, hw, hd, hxty, hxrec, hxrt, hl⟩ := release_eq_failInst (fb := fb) (pkt := pkt)
    (by rw [hen]; decide) hall hcl hpend ((hc _ _ _ (by decide +kernel)).trans hrl) hrec hnow
  obtain ⟨v, hv, hm⟩ := failInst_mem (s := w) hd (hxty.trans hty) hxrec (hxrt.trans hrt) hl 0
  have hk := kept_trans hc (kept_trans hw hv)
  obtain ⟨hon, hrun, hax⟩ := h.sweep
  obtain ⟨hr, hlen, hpage⟩ := h.buffer
  have hoff : ∀ c < 32, c ≠ 0 → v.get H.SW_ON c = 0 := fun c hc h0 => by
    have hn : ∀ c < 32, fkey H.SW_ON c 0 ∉ configPlaces ++ (releasePlaces ++
        ([fkey R.SCH_DESC_PEND 0 0, fkey H.DESC_RELOAD 0 0] ++ overrunPlaces 0)) := by decide +kernel
    exact (hk _ _ _ (hn c hc)).trans (h.others c hc h0)
  have hb := State.sweepMissed_byte (s := v) (a := 0) (by rwa [hk _ _ _ (by decide +kernel)])
    (by rwa [hk _ _ _ (by decide +kernel)]) ((hk _ _ _ (by decide +kernel)).trans hax)
    ((hk _ _ _ (by decide +kernel)).trans hr) (by rwa [hk _ _ _ (by decide +kernel)]) hoff
  rw [(hk _ _ _ (by decide +kernel)).trans hpage] at hb
  rw [hrel, State.byte, hm]
  exact hb

/-- Behind its releases a boundary writes no memory (R262). -/
theorem releaseCycle_mem (s : State) (t n : Nat) (due : List Nat) : (s.releaseCycle t n due).mem =
    ((configApplied s).each ((configApplied s).startDescs n) fun v d => v.release d 1 n t (v.startPkt d t)).mem := by
  refine (State.each_mem (fun v a _ => State.mirror_mem v a) _).trans ?_
  exact State.each_mem (fun v a _ => (State.portPeriod_mem _ a).trans (State.portLatch_mem v a)) _

theorem releaseCycle_byte (h : Poised s) (due : List Nat) : (s.releaseCycle 0 0 due).byte (pageAddr 0) = 1 := by
  rw [State.byte, releaseCycle_mem, startDescs_configApplied h]
  exact release_configApplied_byte h 0 _

theorem exec_boundary_swept :
    exec (.boundary 0 0) sweptAxis = .next ((sweptStaged.settle 0 0 [0]).releaseCycle 0 0 [0]) := by
  have h : sweptAxis.boundary 0 0 = (sweptStaged.settle 0 0 [0]).releaseCycle 0 0 [0] := by
    rw [State.boundary_eq, sweptAxis_openCycle, sweptOpened_due, sweptOpened_axesBoundary]
  rw [← h]
  show Host.Outcome.next (if sweptAxis.domDown 4 then sweptAxis else sweptAxis.boundary 0 0) = _
  rw [sweptAxis_quiet.net, if_neg Bool.false_ne_true]

/-- Refutes O26. Descriptor 0, the standard clause of axis 0, is staged at the axis's own boundary, where the end of a
safety demand is taken, and its release at that boundary fails, since the descriptor is being rewritten. The missed sample
is recorded by the sweep of the axis that runs: the boundary writes memory, where the claim says that it does not. Neither
a running sweep nor a descriptor under rewrite is excluded by `QuietPart` or by the clause's own hypotheses. -/
theorem not_quietBoundaryBeginsCycle : ¬ Obligations.QuietBoundaryBeginsCycle := by
  unfold Obligations.QuietBoundaryBeginsCycle
  intro h
  obtain ⟨-, -, hmirror⟩ := h 0 0 0 0 sweptAxis
  have hax : sweptAxis.axSt 0 = 2 ∧ sweptAxis.axDue 0 0 = true ∧ sweptAxis.get R.PWR_STATE_STATE ≠ 2 ∧
      sweptAxis.get R.HM_STAT_PHASE 0 = 0 ∧ sweptAxis.get H.FRST_ON 0 = 0 ∧ sweptAxis.get H.AX_STOP 0 = 0 := by
    decide +kernel
  obtain ⟨h1, h2, h3, h4, h5, h6⟩ := hax
  obtain ⟨u, hu, -, -, -, -, -, -, -, -, -, -, -, -, hmem⟩ := hmirror sweptAxis_quiet (by decide) h1 h2 h3 h4 h5 h6
  have hwritten := releaseCycle_byte (sweptStaged_poised.of_holds (sweptStaged_idle.settle 0 0 [0])) [0]
  have hclear : sweptAxis.byte (pageAddr 0) = 0 := rfl
  rw [exec_boundary_swept, Host.Outcome.next.injEq] at hu
  rw [hu, State.byte, hmem] at hwritten
  exact absurd (hclear.symm.trans hwritten) (by decide)

end Sys2Proof.Claims
end

section
/-! PROOFS. The end of a statistics period (R57 to R61) and the swap of a staged mode (R288, R289). -/

namespace Sys2Proof.Machine

/-! ### Records of one table -/

/-- The places of the fields of a table in its record `a`. -/
def rowPlaces (fs : List Fld) (a : Nat) : List Nat := fs.map fun f => fkey f a 0

/-- Every field of the table of records of 0x40 bytes from `base` up lies inside its record. -/
def tableAt (base : Nat) (fs : List Fld) : Bool :=
  fs.all fun f => f.stride == 0x40 && decide (8 * base ≤ fkey f 0 0) && decide (fkey f 0 0 < 8 * (base + 0x40))

theorem mem_rowPlaces_bounds {fs : List Fld} {base a k : Nat} (hfs : tableAt base fs = true) (hk : k ∈ rowPlaces fs a) :
    8 * (base + 0x40 * a) ≤ k ∧ k < 8 * (base + 0x40 * a + 0x40) := by
  obtain ⟨f, hf, rfl⟩ := List.mem_map.1 hk
  have h := List.all_eq_true.1 hfs f hf
  simp only [Bool.and_eq_true, beq_iff_eq, decide_eq_true_eq] at h
  obtain ⟨⟨hs, hl⟩, hu⟩ := h
  simp only [fkey] at hl hu ⊢
  rw [hs]
  omega

theorem live_table : tableAt 0x21000000 R.livFields = true := by decide

theorem snap_table : tableAt 0x40010000 R.snpFields = true := by decide

/-- Two fields of one stride that stand apart in the first record stand apart in each. -/
theorem State.get_put_row {f g : Fld} (hs : f.stride = g.stride) (h : fkey f 0 0 ≠ fkey g 0 0) (s : State) (v a : Nat) :
    (s.put f v a).get g a = s.get g a := by
  refine State.get_put_ne s v fun he => h ?_
  simp only [fkey, hs] at he ⊢
  omega

/-! ### The steps of the latch -/

/-- What the snapshot of axis `a` in `t` says of its counters in `s` (R59, R61). -/
structure Snapshot (s t : State) (a : Nat) : Prop where
  samples : t.get R.SNP_SAMPLES a = s.get R.LIV_SAMPLES a % 2 ^ 32
  overrun : t.get R.SNP_OVERRUN a = s.get R.LIV_OVERRUN a % 2 ^ 32
  feMin : t.get R.SNP_FE_MIN a = s.get R.LIV_FE_MIN a % 2 ^ 32
  feMax : t.get R.SNP_FE_MAX a = s.get R.LIV_FE_MAX a % 2 ^ 32
  seq : t.get R.SNP_SEQ a = (s.get R.SNP_SEQ a + 1) % 2 ^ 32
  seqEnd : t.get R.SNP_SEQ_END a = t.get R.SNP_SEQ a

/-- The counters of axis `a` stand as they start (R59). -/
structure Restarted (t : State) (a : Nat) : Prop where
  samples : t.get R.LIV_SAMPLES a = 0
  overrun : t.get R.LIV_OVERRUN a = 0
  clamp : t.get R.LIV_CLAMP a = 0
  feMin : t.get R.LIV_FE_MIN a = 0x7FFFFFFF
  feMax : t.get R.LIV_FE_MAX a = 0x80000000

theorem State.statAxis_snapshot (s : State) (a t : Nat) : Snapshot s (s.statAxis a t) a := by
  constructor <;>
  simp (disch := decide) only [State.statAxis, State.statMark, statCounts, State.each, List.foldl, State.incWrap,
    State.get_put_row, State.get_put_self, R.SNP_SAMPLES, R.SNP_OVERRUN, R.SNP_FE_MIN, R.SNP_FE_MAX, R.SNP_SEQ,
    R.SNP_SEQ_END, Nat.mod_mod]

theorem State.statRestart_restarted (s : State) (a : Nat) : Restarted (s.statRestart a) a := by
  constructor <;>
  simp (disch := decide) only [State.statRestart, statCounts, State.each, List.foldl, State.resetFld, State.get_put_row,
    State.get_put_self] <;>
  rfl

theorem Snapshot.congr {s t u v : State} {a : Nat} (h : Snapshot u v a) (hs : ∀ f ∈ R.livFields ++ R.snpFields, u.get f a = s.get f a)
    (ht : ∀ f ∈ R.snpFields, t.get f a = v.get f a) : Snapshot s t a where
  samples := by rw [ht _ (by decide), h.samples, hs _ (by decide)]
  overrun := by rw [ht _ (by decide), h.overrun, hs _ (by decide)]
  feMin := by rw [ht _ (by decide), h.feMin, hs _ (by decide)]
  feMax := by rw [ht _ (by decide), h.feMax, hs _ (by decide)]
  seq := by rw [ht _ (by decide), h.seq, hs _ (by decide)]
  seqEnd := by rw [ht _ (by decide), ht _ (by decide), h.seqEnd]

theorem Restarted.congr {t u : State} {a : Nat} (h : Restarted u a) (ht : ∀ f ∈ R.livFields, t.get f a = u.get f a) : Restarted t a where
  samples := by rw [ht _ (by decide), h.samples]
  overrun := by rw [ht _ (by decide), h.overrun]
  clamp := by rw [ht _ (by decide), h.clamp]
  feMin := by rw [ht _ (by decide), h.feMin]
  feMax := by rw [ht _ (by decide), h.feMax]

end Sys2Proof.Machine

namespace Sys2Proof.Claims
open Sys2Proof.Machine

variable {s t u : State} {ks : List Nat}

/-! ### Runs over records -/

theorem kept_step (h : RegsKept ks s t) (k : RegsKept ks t u) : RegsKept ks s u :=
  fun f i j hn => (k f i j hn).trans (h f i j hn)

/-- A run over records writes no more than their places. -/
theorem each_rows_kept {l : List Nat} {row : Nat → List Nat} {f : State → Nat → State}
    (hf : ∀ v, ∀ x ∈ l, RegsKept (row x) v (f v x)) (s : State) : RegsKept (l.flatMap row) s (s.each l f) :=
  each_kept (kept_refl _ s) fun v x hx hv =>
    kept_step hv (kept_mono (hf v x hx) fun _ hk => List.mem_flatMap.2 ⟨x, hx, hk⟩)

/-- In a run over distinct records, one record is touched by its own step alone. -/
theorem each_of_mem {l : List Nat} {f : State → Nat → State} {a : Nat} (hn : l.Nodup) (ha : a ∈ l)
    (hf : ∀ v, ∀ x ∈ l, x ≠ a → RegsKept ks v (f v x)) (s : State) :
    ∃ u, RegsKept ks s u ∧ RegsKept ks (f u a) (s.each l f) := by
  induction l generalizing s with
  | nil => exact absurd ha List.not_mem_nil
  | cons x l ih =>
    obtain ⟨hx, hl⟩ := List.nodup_cons.1 hn
    by_cases hxa : x = a
    · subst hxa
      refine ⟨s, kept_refl _ s, ?_⟩
      rw [State.each_cons]
      exact each_kept (kept_refl _ _) fun v y hy hv =>
        kept_step hv (hf v y (List.mem_cons_of_mem _ hy) fun he => hx (he ▸ hy))
    · have ha' : a ∈ l := (List.mem_cons.1 ha).resolve_left fun he => hxa he.symm
      obtain ⟨u, hu, hr⟩ := ih hl ha' (fun v y hy => hf v y (List.mem_cons_of_mem _ hy)) (f s x)
      exact ⟨u, kept_step (hf s x (List.mem_cons_self ..) hxa) hu, hr⟩

/-- In a run over distinct records, the places of one are written by its own step alone. -/
theorem each_rows_of_mem {l : List Nat} {row : Nat → List Nat} {f : State → Nat → State} {a : Nat} (hn : l.Nodup)
    (ha : a ∈ l) (hf : ∀ v, ∀ x ∈ l, RegsKept (row x) v (f v x)) (s : State) :
    ∃ u, RegsKept ((l.erase a).flatMap row) s u ∧ RegsKept ((l.erase a).flatMap row) (f u a) (s.each l f) :=
  each_of_mem hn ha (fun v x hx hxa => kept_mono (hf v x hx) fun _ hk =>
    List.mem_flatMap.2 ⟨x, hn.mem_erase_iff.2 ⟨hxa, hx⟩, hk⟩) s

theorem mem_rowPlaces {fs : List Fld} {f : Fld} (hf : f ∈ fs) (a : Nat) : fkey f a 0 ∈ rowPlaces fs a :=
  List.mem_map_of_mem hf

theorem below_not_mem_rows {fs : List Fld} {base k : Nat} {l : List Nat} (hfs : tableAt base fs = true)
    (hk : k < 8 * base) : k ∉ l.flatMap (rowPlaces fs) := fun hm => by
  obtain ⟨x, -, hx⟩ := List.mem_flatMap.1 hm
  have h := mem_rowPlaces_bounds hfs hx
  omega

theorem row_not_mem_rows {fs : List Fld} {base a : Nat} {f : Fld} {l : List Nat} (hfs : tableAt base fs = true)
    (hf : f ∈ fs) (ha : a ∉ l) : fkey f a 0 ∉ l.flatMap (rowPlaces fs) := fun hm => by
  obtain ⟨x, hx, hk⟩ := List.mem_flatMap.1 hm
  have hxa : x ≠ a := fun he => ha (he ▸ hx)
  have h := mem_rowPlaces_bounds hfs hk
  have h' := mem_rowPlaces_bounds hfs (mem_rowPlaces hf a)
  omega

/-! ### What the steps of the latch write -/

/-- The places of the snapshot record `k` (R61). -/
def snapPlaces (k : Nat) : List Nat := rowPlaces R.snpFields k

/-- The places of the live counters of axis `a`, and whether it has begun to count. -/
def livePlaces (a : Nat) : List Nat := fkey H.STAT_ON a 0 :: rowPlaces R.livFields a

theorem kept_put_snap {f : Fld} {k v : Nat} (h : RegsKept (snapPlaces k) s t) (hf : f ∈ R.snpFields := by decide) :
    RegsKept (snapPlaces k) s (t.put f v k) := kept_put (mem_rowPlaces hf k) h

theorem statCounts_fields : ∀ p ∈ statCounts, p.1 ∈ R.livFields ∧ p.2 ∈ R.snpFields := by decide

theorem statMark_kept {k : Nat} (h : RegsKept (snapPlaces k) s t) (b : Nat) : RegsKept (snapPlaces k) s (t.statMark k b) :=
  kept_put_snap (kept_put_snap (kept_put_snap h))

theorem statAxis_kept (s : State) (a b : Nat) : RegsKept (snapPlaces a) s (s.statAxis a b) := by
  refine statMark_kept (kept_put_snap (kept_put_snap (each_kept (kept_refl _ s) fun v p hp hv => ?_))) b
  exact kept_put_snap hv (statCounts_fields p hp).2

theorem statRing_kept (s : State) (as : List Nat) (r b : Nat) : RegsKept (snapPlaces (256 + r)) s (s.statRing as r b) := by
  refine statMark_kept (kept_put_snap (kept_put_snap (kept_put_snap (each_kept (kept_refl _ s) fun v p hp hv => ?_)))) b
  exact kept_put_snap hv (statCounts_fields p hp).2

theorem statRestart_kept (s : State) (a : Nat) : RegsKept (rowPlaces R.livFields a) s (s.statRestart a) := by
  have hcount : RegsKept (rowPlaces R.livFields a) s (s.each statCounts fun s p => s.put p.1 0 a) :=
    each_kept (kept_refl _ s) fun v p hp hv => kept_put (mem_rowPlaces (statCounts_fields p hp).1 a) hv
  exact kept_put (mem_rowPlaces (by decide) a) (kept_put (mem_rowPlaces (by decide) a) hcount)

/-! ### The latch in three parts -/

/-- The axes whose counters a latch records: those that have counted since the last one (R42, R59). -/
def counting (s : State) : List Nat := s.axes.filter fun a => s.on H.STAT_ON a

/-- The snapshots of the axes are taken. -/
def snapped (s : State) (b : Nat) : State := s.each (counting s) fun s a => s.statAxis a b

/-- The records of the rings are taken. -/
def ringed (s : State) (b : Nat) : State := (snapped s b).each (List.range 3) fun v r => v.statRing (counting s) r b

/-- The counters start again. -/
def restarted (s : State) (b : Nat) : State := (ringed s b).each s.axes fun v a => (v.statRestart a).put H.STAT_ON 1 a

theorem axes_of_kept (h : RegsKept ks s t) (hs : ∀ a < 256, fkey R.AXS_STATUS_STATE a 0 ∉ ks) : t.axes = s.axes := by
  unfold State.axes State.axSt
  exact List.filter_congr fun a ha => by rw [h _ _ _ (hs a (List.mem_range.1 ha))]

theorem axes_lt {a : Nat} (ha : a ∈ s.axes) : a < 256 := List.mem_range.1 (List.mem_filter.1 ha).1

theorem axes_nodup (s : State) : s.axes.Nodup := List.nodup_range.filter _

theorem counting_lt {a : Nat} (ha : a ∈ counting s) : a < 256 := axes_lt (List.mem_filter.1 ha).1

theorem snapped_kept (s : State) (b : Nat) : RegsKept ((counting s).flatMap snapPlaces) s (snapped s b) :=
  each_rows_kept (fun v a _ => statAxis_kept v a b) s

/-- The snapshot records of the rings stand behind those of the axes (R61). -/
def ringPlaces : List Nat := [256, 257, 258].flatMap snapPlaces

theorem ringed_kept (s : State) (b : Nat) : RegsKept ringPlaces (snapped s b) (ringed s b) :=
  (each_rows_kept (l := List.range 3) (fun v r _ => statRing_kept v (counting s) r b) (snapped s b) :)

theorem restart_kept (s : State) (a : Nat) : RegsKept (livePlaces a) s ((s.statRestart a).put H.STAT_ON 1 a) :=
  kept_put (List.mem_cons_self ..) (kept_mono (statRestart_kept s a) fun _ => List.mem_cons_of_mem _)

theorem restarted_kept (s : State) (b : Nat) : RegsKept (s.axes.flatMap livePlaces) (ringed s b) (restarted s b) :=
  each_rows_kept (fun v a _ => restart_kept v a) _

theorem ringed_axes (s : State) (b : Nat) : (ringed s b).axes = s.axes := by
  have hlow : ∀ a < 256, fkey R.AXS_STATUS_STATE a 0 < 8 * 0x40010000 := fun a ha => by
    simp only [fkey, R.AXS_STATUS_STATE]
    omega
  refine axes_of_kept (kept_trans (snapped_kept s b) (ringed_kept s b)) fun a ha hm => ?_
  rcases List.mem_append.1 hm with hm | hm
  · exact below_not_mem_rows snap_table (hlow a ha) hm
  · exact below_not_mem_rows snap_table (hlow a ha) hm

theorem statLatch_eq (s : State) (b : Nat) : s.statLatch b =
    (((restarted s b).put H.STAT_CNT 0).put H.STAT_LEN (restarted s b).statLen).cause 1 := by
  unfold restarted
  rw [← ringed_axes s b]
  rfl

/-- The places that the latch writes at its end. -/
def latchPlaces : List Nat :=
  [fkey H.STAT_CNT 0 0, fkey H.STAT_LEN 0 0, fkey R.HIF_INT_STAT 0 0, fkey R.HIF_MSIX_PBA 0 0]

theorem kept_cause {k : Nat} (hk : fkey R.HIF_MSIX_PBA 0 0 ∈ ks) (hk' : fkey R.HIF_INT_STAT 0 0 ∈ ks)
    (h : RegsKept ks s t) : RegsKept ks s (t.cause k) :=
  kept_when (kept_put hk' h) (kept_sendMsix hk (kept_put hk' h))

theorem statLatch_kept (s : State) (b : Nat) : RegsKept latchPlaces (restarted s b) (s.statLatch b) := by
  rw [statLatch_eq]
  exact kept_cause (by simp [latchPlaces]) (by simp [latchPlaces])
    (kept_put (by simp [latchPlaces]) (kept_put (by simp [latchPlaces]) (kept_refl _ _)))

/-! ### What the latch leaves in the records -/

theorem live_place {f : Fld} {a : Nat} (hf : f ∈ R.livFields) (ha : a < 256) :
    8 * 0x21000000 ≤ fkey f a 0 ∧ fkey f a 0 < 8 * 0x21004000 := by
  have h := mem_rowPlaces_bounds live_table (mem_rowPlaces hf a)
  omega

theorem snap_place {f : Fld} {a : Nat} (hf : f ∈ R.snpFields) (ha : a < 256) :
    8 * 0x40010000 ≤ fkey f a 0 ∧ fkey f a 0 < 8 * 0x40014000 := by
  have h := mem_rowPlaces_bounds snap_table (mem_rowPlaces hf a)
  omega

theorem snapped_snapshot {a : Nat} (ha : a ∈ counting s) (b : Nat) : Snapshot s (snapped s b) a := by
  obtain ⟨u, hu, hr⟩ := each_rows_of_mem (row := snapPlaces) ((axes_nodup s).filter _) ha
    (fun v x _ => statAxis_kept v x b) s
  have hsnap : ∀ f ∈ R.snpFields, fkey f a 0 ∉ ((counting s).erase a).flatMap snapPlaces := fun f hf =>
    row_not_mem_rows snap_table hf ((axes_nodup s).filter _).not_mem_erase
  refine (u.statAxis_snapshot a b).congr (fun f hf => hu f a 0 ?_) fun f hf => hr f a 0 (hsnap f hf)
  rcases List.mem_append.1 hf with hf | hf
  · have h := live_place hf (counting_lt ha)
    exact below_not_mem_rows snap_table (by omega)
  · exact hsnap f hf

theorem ringed_snapshot {a : Nat} (ha : a ∈ counting s) (b : Nat) : Snapshot s (ringed s b) a := by
  refine (snapped_snapshot ha b).congr (fun _ _ => rfl) fun f hf => ringed_kept s b f a 0 ?_
  have h := counting_lt ha
  exact row_not_mem_rows snap_table hf (by simp; omega)

theorem snap_not_mem_live {f : Fld} {a : Nat} (hf : f ∈ R.snpFields) (ha : a < 256) :
    fkey f a 0 ∉ s.axes.flatMap livePlaces := fun hm => by
  obtain ⟨x, hx, hk⟩ := List.mem_flatMap.1 hm
  have h := snap_place hf ha
  have hx' := axes_lt hx
  rcases List.mem_cons.1 hk with hk | hk
  · simp only [fkey, H.STAT_ON] at hk h
    omega
  · have h' := mem_rowPlaces_bounds live_table hk
    omega

theorem not_mem_latchPlaces {k : Nat} (hl : 8 * 0x21000000 ≤ k) (hu : k < 8 * 0x40014000) : k ∉ latchPlaces := by
  simp only [latchPlaces, fkey, H.STAT_CNT, H.STAT_LEN, R.HIF_INT_STAT, R.HIF_MSIX_PBA, List.mem_cons,
    List.not_mem_nil, or_false]
  omega

theorem statLatch_snapshot {a : Nat} (ha : a ∈ counting s) (b : Nat) : Snapshot s (s.statLatch b) a := by
  refine (ringed_snapshot ha b).congr (fun _ _ => rfl) fun f hf => ?_
  have h := snap_place hf (counting_lt ha)
  rw [statLatch_kept s b f a 0 (not_mem_latchPlaces (by omega) (by omega)),
    restarted_kept s b f a 0 (snap_not_mem_live hf (counting_lt ha))]

theorem restarted_restarted {a : Nat} (ha : a ∈ s.axes) (b : Nat) : Restarted (restarted s b) a := by
  obtain ⟨u, -, hr⟩ := each_rows_of_mem (row := livePlaces) (axes_nodup s) ha (fun v x _ => restart_kept v x) (ringed s b)
  refine (u.statRestart_restarted a).congr fun f hf => ?_
  have hp := live_place hf (axes_lt ha)
  refine (hr f a 0 fun hm => ?_).trans (State.get_put_ne _ _ ?_)
  · obtain ⟨x, hx, hk⟩ := List.mem_flatMap.1 hm
    have hxa := ((axes_nodup s).mem_erase_iff.1 hx).1
    rcases List.mem_cons.1 hk with hk | hk
    · simp only [fkey, H.STAT_ON] at hk hp
      omega
    · have h := mem_rowPlaces_bounds live_table hk
      have h' := mem_rowPlaces_bounds live_table (mem_rowPlaces hf a)
      omega
  · simp only [fkey, H.STAT_ON] at hp ⊢
    omega

theorem statLatch_restarted {a : Nat} (ha : a ∈ s.axes) (b : Nat) : Restarted (s.statLatch b) a := by
  refine (restarted_restarted ha b).congr fun f hf => statLatch_kept s b f a 0 ?_
  have h := live_place hf (axes_lt ha)
  exact not_mem_latchPlaces (by omega) (by omega)

/-! ### The count and the cause -/

theorem bit_orBit (s : State) {f : Fld} {i j n : Nat} (hn : n < f.width) : bit ((s.orBit f n i j).get f i j) n = true := by
  rw [State.orBit, State.get_put_self, bit_eq_testBit, Nat.testBit_mod_two_pow, ← bit_eq_testBit, bit_setBit]
  simpa using hn

theorem get_cause {k : Nat} {g : Fld} {i j : Nat} (h : fkey R.HIF_MSIX_PBA 0 0 ≠ fkey g i j) :
    (s.cause k).get g i j = (s.orBit R.HIF_INT_STAT k).get g i j :=
  State.when_same (fun t => t.get g i j) _ _ (State.sendMsix_get _ _ h)

theorem cause_bit (s : State) {k : Nat} (hk : k < 14) : bit ((s.cause k).get R.HIF_INT_STAT) k = true := by
  rw [get_cause (by decide)]
  exact bit_orBit s hk

theorem statLatch_count (s : State) (b : Nat) : (s.statLatch b).get H.STAT_CNT = 0 := by
  rw [statLatch_eq, get_cause (by decide), State.orBit, State.get_put_ne _ _ (by decide), State.get_put_ne _ _ (by decide),
    State.get_put_self]
  rfl

theorem statLatch_cause (s : State) (b : Nat) : bit ((s.statLatch b).get R.HIF_INT_STAT) 1 = true := by
  rw [statLatch_eq]
  exact cause_bit _ (by decide)

/-! ### The swap of a staged mode (R288) -/

/-- A swap ends with the new mode shown, none staged and none overridden. -/
theorem swapTo_eq (s : State) (b : Nat) :
    ∃ u : State, s.swapTo b = ((u.put R.CFG_MODE_ACTIVE b).put H.MSW_B 0).put R.CFG_MODE_OVERRIDDEN 0 := ⟨_, rfl⟩

/-- A staged switch that no request waits for. -/
theorem swapNow_of_unasked (hb : s.get H.MSW_B ≠ 0) (hm : s.get H.MSW_MB = 0) (n : Nat) :
    s.swapNow n = ((s.swapTo (s.get H.MSW_B - 1)).put R.CFG_MODE_CYC n).put H.MSW_MB 0 := by
  unfold State.swapNow
  rw [if_neg hb, hm]
  rfl

theorem staged_of_swapDue {b n : Nat} (h : s.swapDue b n = true) : s.get H.MSW_B ≠ 0 := by
  simp only [State.swapDue, Bool.and_eq_true, bne_iff_ne] at h
  exact h.1.1

/-! ### The claim -/

theorem exec_statisticsLatch (h : s.domDown 5 = false) :
    exec .statisticsLatch s = .next (s.statLatch (s.get H.BND_T)) := by
  show execStatisticsLatch s = _
  rw [execStatisticsLatch, h, if_neg Bool.false_ne_true]

theorem exec_overlaySwap (s : State) : exec .overlaySwap s =
    .next (if s.swapDue (s.get H.BND_T) (s.get H.BND_N) then s.swapNow (s.get H.BND_N) else s) := rfl

/-- Settles O27: the records of an axis are written by its own step of the latch alone, and the swap writes the mode last. -/
theorem boundaryEndsPeriodAndSwapsMode : Obligations.BoundaryEndsPeriodAndSwapsMode := by
  unfold Obligations.BoundaryEndsPeriodAndSwapsMode
  refine ⟨fun s hup => ?_, fun s hdue hmb => ?_, fun s hdue => ?_⟩
  · refine ⟨_, exec_statisticsLatch hup, statLatch_cause .., statLatch_count .., fun a ha => ?_, fun a ha hon => ?_⟩
    · obtain ⟨h1, h2, h3, h4, h5⟩ := statLatch_restarted ha (s.get H.BND_T)
      exact ⟨h1, h2, h3, h4, h5⟩
    · obtain ⟨h1, h2, h3, h4, h5, h6⟩ := statLatch_snapshot (List.mem_filter.2 ⟨ha, State.on_eq_true hon⟩) (s.get H.BND_T)
      exact ⟨h1, h2, h3, h4, h5, h6⟩
  · have hb := staged_of_swapDue hdue
    have hlt : s.get H.MSW_B < 2 ^ 4 := State.get_lt ..
    obtain ⟨u, hu⟩ := swapTo_eq s (s.get H.MSW_B - 1)
    rw [Completes, exec_overlaySwap, if_pos hdue, swapNow_of_unasked hb hmb, hu]
    refine ⟨_, rfl, ?_, ?_, ?_, ?_⟩ <;>
      simp (disch := decide) only [State.get_put_row, State.get_put_self]
    · exact Nat.mod_eq_of_lt (show s.get H.MSW_B - 1 < 2 ^ 4 by omega)
    · rfl
    · rfl
    · rfl
  · rw [exec_overlaySwap, hdue, if_neg Bool.false_ne_true]

end Sys2Proof.Claims
end

section
/-! PROOFS. The enabling timeout (R44) of an axis whose time is rewritten while it is Enabling (R55): the counterexample to
what is claimed of the timers. -/

namespace Sys2Proof.Claims
open Sys2Proof.Machine

/-- Axis 0 is Disabled, and its enable request of mailbox 0 takes effect at time 0, under the timeout of 500 ms of reset. -/
def enablingAxis : State := (State.reset.put R.AXS_STATUS_STATE 2).takeEnable 0 0

/-- Its enabling timeout is then rewritten to 100 ms, and 200 ms pass. -/
def hastenedAxis : State := (enablingAxis.put R.AXS_EN_TIMEOUT 100).clockTo 200000000 0

/-- The timer runs by the time with which the enabling started (R55). -/
theorem exec_enableTimeout_early {s : State} {a : Nat} (h : s.timeUp (s.get H.AX_T0 a + 1000000 * s.get H.SEQ_EN a) = false) :
    exec (.enableTimeout a) s = .next s := by
  show execEnableTimeout a s = _
  rw [execEnableTimeout, if_neg fun hc => Bool.false_ne_true (h.symm.trans hc.2.2)]

/-- By the register the timeout is over; by the time that R55 keeps it is not. -/
theorem hastenedAxis_times : hastenedAxis.axSt 0 = 3 ∧
    hastenedAxis.timeUp (hastenedAxis.get H.AX_T0 0 + 1000000 * hastenedAxis.get R.AXS_EN_TIMEOUT 0) = true ∧
    hastenedAxis.timeUp (hastenedAxis.get H.AX_T0 0 + 1000000 * hastenedAxis.get H.SEQ_EN 0) = false ∧
    hastenedAxis.axEvs = [] := by decide +kernel

/-- Refutes O32. The claim reads the enabling timeout from AXS_EN_TIMEOUT; a sequence that runs keeps the values with which it
started (R55), so a shorter timeout written while the axis is Enabling raises no class when it runs out. -/
theorem not_axisTimersAndRequests : ¬ Obligations.AxisTimersAndRequests := by
  unfold Obligations.AxisTimersAndRequests
  intro h
  obtain ⟨hst, hreg, hseq, hev⟩ := hastenedAxis_times
  have hclaim := (h.1 0 0 hastenedAxis (by decide)).1 hst hreg
  rw [exec_enableTimeout_early hseq, Host.Outcome.next.injEq] at hclaim
  have hposted := congrArg State.axEvs hclaim
  rw [hev] at hposted
  exact absurd hposted (by simp)

end Sys2Proof.Claims
end

section
/-! PROOFS. The velocity part of a sample at which a learned move starts (R90): the counterexample to what is claimed of a
sample that closes the loop. -/

namespace Sys2Proof.Claims
open Sys2Proof.Machine

/-! ### The counterexample: the first sample of a move whose identity a learning table is bound to -/

/-- A move of axis 0 under identity 1 over 1 ms from time 0, which no sample has evaluated. -/
def boundMove : Motion := { axis := 0, ts := 0, kind := 1, mid := 1, te := 1000000, pieces := [.jerk 0 0 0 0 0] }

/-- The velocity part of axis 0, on engine 0. -/
def velocityInst : Inst :=
  { id := 1, desc := 0, cause := 2, cyc := 0, t := 0, dl := 100000, prio := 6, budget := 500, entry := 0, st := 1, ty := 2 }

/-- Axis 0, on drive port 0 and a member of group 0, is Operational at rest and closes its loop in this sample; the move starts with it, and
the first entry of the learning table bound to the move is 1000. Nothing else is set: every gain is that of reset, and
learning is not at work yet. -/
def moveStarts : State :=
  let s := ((State.reset.put R.PWR_DOM_ON 0xFFF).put R.PWR_DOM_RST 0).setEngSt 0 1
  let s := (((s.put R.AXS_STATUS_STATE 4).put R.AXS_STATUS_KIND 1).put H.AX_BIND 0x10).put R.AXS_STAGE_CFG_GROUP 0
  let s := ((s.put H.AX_SMODE 3).put R.LFF_BIND_EN 1).put R.LFF_BIND_MOVE_ID 1
  { s.store (lffMem 0 0) 4 1000 with insts := [velocityInst], motions := [boundMove] }

theorem moveStarts_plain : PlainSample moveStarts 0 := by constructor <;> decide +kernel

theorem moveStarts_runs : ClauseRuns moveStarts 2 0 velocityInst := by constructor <;> decide +kernel

/-- The record of axis 0 as the claim has it: no section, no feed-forward, and no learning at work. -/
theorem moveStarts_record : moveStarts.get H.AX_SMODE 0 = 3 ∧ moveStarts.axKind 0 < 2 ∧
    moveStarts.get R.AXS_STAGE_CFG_NVEL 0 = 0 ∧ moveStarts.get R.AXS_STAGE_CFG_NOUT 0 = 0 ∧
    moveStarts.get R.HM_STAT_PHASE 0 = 0 ∧ moveStarts.get H.LRN_ON 0 = 0 ∧ moveStarts.get H.LRN_REC 0 = 0 ∧
    moveStarts.get R.AXS_KVFF 0 = 0 ∧ moveStarts.get R.AXS_KAFF 0 = 0 ∧ moveStarts.get R.AXS_KTFF 0 = 0 ∧
    moveStarts.groupOf 0 ≠ 255 := by decide +kernel

/-- The claimed torque command: of z and the actual velocity alone, both 0 here. -/
theorem moveStarts_claimed : trunc 32 (clampI (moveStarts.geti R.AXS_TRQ_MIN 0) (moveStarts.geti R.AXS_TRQ_MAX 0)
    (satI 32 (moveStarts.geti H.AX_Z 0 - moveStarts.geti R.AXS_V_ACT 0))) = 0 := by decide +kernel

/-- The torque command of the sample is the table's entry under the unit gain KLFF (R65, R90). -/
theorem moveStarts_trq : Completes (.velocityPart 0) moveStarts fun t => t.get R.AXS_TRQ_CMD 0 = 1000 :=
  ⟨_, rfl, by decide +kernel⟩

/-- Refutes O30. A sample at which a learned move starts takes up its table, and u_L of the table reaches the torque command
in that very sample. The claim asks that learning be idle before the sample, and leaves KLFF and the motions free. -/
theorem not_samplesCloseTheLoop : ¬ Obligations.SamplesCloseTheLoop := by
  unfold Obligations.SamplesCloseTheLoop
  intro h
  obtain ⟨-, -, hvel⟩ := h
  obtain ⟨hmode, hkind, hnvel, hnout, hphase, hon, hrec, hkv, hka, hkt, hgrp⟩ := moveStarts_record
  obtain ⟨t, ht, hclaim, -⟩ := hvel 0 velocityInst moveStarts (by decide) moveStarts_plain moveStarts_runs hmode hkind hnvel
    hnout hphase hon hrec hkv hka hkt hgrp
  obtain ⟨u, hu, htrq⟩ := moveStarts_trq
  obtain rfl : t = u := Host.Outcome.next.inj (ht.symm.trans hu)
  rw [moveStarts_claimed, htrq] at hclaim
  exact absurd hclaim (by decide)

end Sys2Proof.Claims
end

section
/-! PROOFS. An idle learning update on a state that lists a register twice (R38, R92): the counterexample to what is claimed
of it. -/

namespace Sys2Proof.Claims
open Sys2Proof.Machine

/-! ### The counterexample: two entries for the gain of a learning table -/

/-- The learning update of table 0, on engine 0. -/
def learningInst : Inst :=
  { id := 1, desc := 0, cause := 1, cyc := 0, t := 0, dl := 100000, prio := 2, budget := 6240, entry := 0, st := 1, ty := 6,
    rtype := 2 }

/-- Engine 0 runs the learning update of table 0, for which nothing waits; the register list holds two entries for the
table's gain, 1 and behind it 2, so it is not canonical, and a read finds the first. -/
def gainTwice : State :=
  let s := ((State.reset.put R.PWR_DOM_ON 0xFFF).put R.PWR_DOM_RST 0).setEngSt 0 1
  { s with insts := [learningInst], regs := (fkey R.LFF_GAIN 0 0, 1) :: (fkey R.LFF_GAIN 0 0, 2) :: s.regs }

theorem gainTwice_runs : ClauseRuns gainTwice 6 0 learningInst := by constructor <;> decide +kernel

theorem gainTwice_idle : gainTwice.get H.LFF_WAIT 0 = 0 ∧ gainTwice.get H.LFF_CHUNK 0 = 0 ∧
    gainTwice.get R.LFF_GAIN 0 = 1 := by decide +kernel

/-- The state is none that a step leaves behind. -/
theorem gainTwice_not_inv : ¬ gainTwice.Inv := fun h => absurd h.regs (by decide +kernel)

/-- Behind the clause the table's configuration is put back entry by entry, and the last one stays (R38). -/
theorem gainTwice_after : Completes (.learningUpdate 0) gainTwice fun t => t.get R.LFF_GAIN 0 = 2 :=
  ⟨_, rfl, by decide +kernel⟩

/-- Refutes O31. The claim asks of an update with nothing to do that it leave every register but the engine's counters, and
asks it of every state, also of one whose register list names a register twice (`gainTwice_not_inv`): there a read takes the
first entry, and the configuration that a clause puts back when its body has run ends with the last. -/
theorem not_clausesOfGroupsAndTimers : ¬ Obligations.ClausesOfGroupsAndTimers := by
  unfold Obligations.ClausesOfGroupsAndTimers
  intro h
  obtain ⟨-, -, -, hidle, -⟩ := h.1 0 0 0 0 learningInst gainTwice
  obtain ⟨hwait, hchunk, hgain⟩ := gainTwice_idle
  obtain ⟨t, ht, hspent, -⟩ := hidle gainTwice_runs rfl hwait hchunk
  obtain ⟨u, hu, hlast⟩ := gainTwice_after
  obtain rfl : t = u := Host.Outcome.next.inj (ht.symm.trans hu)
  rw [hspent.regs R.LFF_GAIN 0 0 (by decide +kernel), hgain] at hlast
  exact absurd hlast (by decide)

end Sys2Proof.Claims
end

section
/-! PROOFS. A header of a learning table that is written with EN at 0 and with the identity of another table (R90, R95): the
counterexample to what is claimed of it. -/

namespace Sys2Proof.Claims
open Sys2Proof.Machine

/-! ### The counterexample: an identity that another table of the axis has -/

/-- Mailbox 0 holds an LFF_WRITE of table 0 that names identity 5 with EN at 0; table 1 holds identity 5, and both tables
name axis 0. -/
def sameIdentity : State :=
  let s := (State.reset.setBytes (pageOf 0) (ofWords [0, 0x50000])).put R.LFF_BIND_MOVE_ID 5 1
  ((s.put R.MBX_STAT_STATUS 1).put H.MB_OPC 0x0203).put H.MB_LEN 44

theorem sameIdentity_ready : Ready sameIdentity 0 0x0203 44 := by constructor <;> decide +kernel

/-- The request is one of those claimed of: its header has EN at 0, and the table has no descriptor. -/
theorem sameIdentity_pars : sameIdentity.par 0 0 4 = 0 ∧ bit (sameIdentity.par 0 4 4) 8 = false ∧
    bit (sameIdentity.get H.LFF_DESC 0) 10 = false := by decide +kernel

/-- The request fails, since two tables would hold one identity of an axis (R90). -/
theorem sameIdentity_fails : Completes (.lffWrite 0) sameIdentity fun t => t.get R.MBX_STAT_STATUS 0 = 3 :=
  ⟨_, rfl, by decide +kernel⟩

/-- Refutes O34. LFF_WRITE refuses an identity that another table of the same axis holds whatever EN is; the claim lets the
written header name any identity. -/
theorem not_learningTableRequests : ¬ Obligations.LearningTableRequests := by
  unfold Obligations.LearningTableRequests
  intro h
  obtain ⟨hwrite, -⟩ := h 0 sameIdentity
  obtain ⟨htab, hen, hdesc⟩ := sameIdentity_pars
  rw [htab] at hwrite
  obtain ⟨t, ht, hdone, -⟩ := hwrite sameIdentity_ready (by decide) hen hdesc
  obtain ⟨u, hu, hfail⟩ := sameIdentity_fails
  obtain rfl : t = u := Host.Outcome.next.inj (ht.symm.trans hu)
  exact absurd (hdone.status.symm.trans hfail) (by decide)

end Sys2Proof.Claims
end

section
/-! PROOFS. A sweep whose capture clause does not fit the load (R99, R157): the counterexample to what is claimed of its
start. -/

namespace Sys2Proof.Machine

/-! ### The staged descriptors (R136) -/

theorem State.descStage_find (s : State) (d : Nat) (ws : List Nat) :
    (s.descStage d ws).descPend.find? (fun p => p.1 == d) = some (d, ws) := by
  have hno : (s.descPend.filter fun p => p.1 != d).find? (fun p => p.1 == d) = none := by
    simp [List.find?_eq_none]
  simp [State.descStage, List.find?_append, hno]

theorem State.descStage_find_ne (s : State) {d e : Nat} (ws : List Nat) (h : e ≠ d) :
    (s.descStage e ws).descPend.find? (fun p => p.1 == d) = s.descPend.find? (fun p => p.1 == d) := by
  have hall : (fun p : Nat × List Nat => decide ((p.1 != e) = true ∧ (p.1 == d) = true)) = fun p => p.1 == d := by
    funext p
    by_cases hp : p.1 = d
    · simp [hp, Ne.symm h]
    · simp [hp]
  have hnew : (e == d) = false := by simpa using h
  rw [State.descStage, List.find?_append, List.find?_filter, hall, List.find?_singleton, hnew]
  simp

/-- What is staged for other descriptors leaves what waits for this one. -/
theorem State.stageAll_find_ne {l : List (Nat × List Nat)} {d : Nat} (s : State) (h : ∀ p ∈ l, p.1 ≠ d) :
    (s.stageAll l).descPend.find? (fun p => p.1 == d) = s.descPend.find? (fun p => p.1 == d) :=
  State.each_induction (P := fun t => t.descPend.find? (fun p => p.1 == d) = s.descPend.find? fun p => p.1 == d)
    (fun t p hp ht => by
      split
      · exact ht
      · exact (t.descStage_find_ne p.2 (h p hp)).trans ht) rfl

/-- The first word of a standard clause has EN at 1, whatever its entry point (R137). -/
theorem words_enabled {d : StdDesc} (hp : d.prio = 1) (hr : d.rel = 2) : bits (d.words.getD 0 0) 22 1 = 1 := by
  rw [StdDesc.words, List.getD_cons_zero, hp, hr, bits]
  have he := Claims.entryOf_lt d.ty
  omega

theorem words_budget {d : StdDesc} (hc : d.cost = 24) : bits (d.words.getD 3 0) 0 16 = 64 := by
  rw [StdDesc.words, List.getD_cons_succ, List.getD_cons_succ, List.getD_cons_succ, List.getD_cons_zero, hc, bits]
  omega

theorem State.swDesc_words (s : State) (c a : Nat) :
    ∃ d : StdDesc, s.swDesc c a = d.words ∧ d.prio = 1 ∧ d.rel = 2 ∧ d.cost = 24 := ⟨_, rfl, rfl, rfl, rfl⟩

/-- The capture clause of a sweep is enabled, with a budget of 64 cycles (R138). -/
theorem State.swDesc_loads (s : State) (c a : Nat) :
    bits ((s.swDesc c a).getD 0 0) 22 1 = 1 ∧ bits ((s.swDesc c a).getD 3 0) 0 16 = 64 := by
  obtain ⟨d, hws, hp, hr, hc⟩ := s.swDesc_words c a
  exact hws ▸ ⟨words_enabled hp hr, words_budget hc⟩

/-- The descriptors of an axis alone with one sweep are brought up to date. -/
theorem State.relink_swept {s : State} {a c : Nat} (h : s.axSt a ≠ 0) (hg : s.groupOf a = 255)
    (hc : s.capChans a = [c]) : s.relink a = (s.stageAll [(s.get H.SW_DESC c % 1024, s.swDesc c a)]).stageAll
      ((s.stageAll [(s.get H.SW_DESC c % 1024, s.swDesc c a)]).axDescs a) := by
  simp [State.relink, h, hg, hc]

/-- An axis alone has one descriptor of its own. -/
theorem State.axDescs_alone {s : State} {a : Nat} (hg : s.groupOf a = 255) :
    ∃ ws, s.axDescs a = [(s.get H.AX_DESC a % 1024, ws)] := ⟨_, if_pos hg⟩

/-- The capture clause of the one sweep of an axis waits for its descriptor, which was not enabled. -/
theorem State.relink_stages {s : State} {a c d : Nat} (h : s.axSt a ≠ 0) (hg : s.groupOf a = 255)
    (hc : s.capChans a = [c]) (hd : s.get H.SW_DESC c % 1024 = d) (hne : s.get H.AX_DESC a % 1024 ≠ d)
    (hoff : bits ((s.descNext d).getD 0 0) 22 1 = 0) :
    (s.relink a).descPend.find? (fun p => p.1 == d) = some (d, s.swDesc c a) := by
  have hdiff : (s.descNext d).take 5 ≠ (s.swDesc c a).take 5 := fun he => by
    have hword := congrArg (fun l : List Nat => bits (l.getD 0 0) 22 1) he
    have hon := (s.swDesc_loads c a).1
    simp [List.getD_eq_getElem?_getD] at hword hon hoff
    omega
  obtain ⟨ws, hown⟩ := State.axDescs_alone (s := s.descStage d (s.swDesc c a)) (a := a) hg
  have hother : ∀ p ∈ (s.descStage d (s.swDesc c a)).axDescs a, p.1 ≠ d := by
    rw [hown, List.forall_mem_singleton]
    exact hne
  rw [State.relink_swept h hg hc, hd, State.stageAll_single hdiff]
  exact (State.stageAll_find_ne _ hother).trans (State.descStage_find ..)

/-- A channel with a sweep taken up, before the axis's descriptors are brought up to date (R98, R99). -/
def State.sweepHold (s : State) (c a mb page len : Nat) : State :=
  let s := (((s.put H.SW_ON 1 c).put H.SW_RUN 1 c).put H.SW_AXIS a c).put H.SW_CODE (s.par mb 4 4) c
  let s := ((s.put H.SW_SIG (s.par mb 8 4) c).put H.SW_AMP (s.par mb 16 4) c).put H.SW_LEN len c
  let s := s.each (List.range 3) fun s k => s.put H.SW_RESP (s.par mb (12 + k) 1) c k
  let s := s.each (List.range 11) fun s k => s.put H.SW_PAR (s.par mb (20 + 4 * k) 4) c k
  let s := ((s.put H.SW_K 0 c).put H.SW_REC 0 c).put H.SW_PAGE (page + 1) c
  let s := (s.put H.SW_NPG (sweepPages len) c).pageMark page (sweepPages len) 1
  (s.put H.SW_DESC (s.takeDesc.getD 0) c).pageHead page len a

theorem State.sweepSet_eq (s : State) (c a mb page len : Nat) :
    s.sweepSet c a mb page len = (s.sweepHold c a mb page len).relink a := rfl

/-! ### The admitted load (R157) -/

variable {s t : State} {pend : List (Nat × List Nat)}

theorem divOf_share_pos (k : Nat) : 0 < 8 / divOf k := by
  have hk : k % 4 < 4 := Nat.mod_lt _ (by decide)
  have key : ∀ n < 4, 0 < 8 / 2 ^ n := by decide
  exact key _ hk

theorem State.willDiv_share_pos (s : State) (pend : List (Nat × List Nat)) (ds : List Nat) (n d : Nat) :
    0 < 8 / s.willDiv pend ds n d := by
  induction n generalizing d with
  | zero => exact divOf_share_pos _
  | succ n ih =>
    unfold State.willDiv
    split
    · split
      · exact ih _
      · exact divOf_share_pos _
    · exact divOf_share_pos _

theorem State.will_of_find {d : Nat} {ws : List Nat} (h : pend.find? (fun p => p.1 == d) = some (d, ws)) (k lo w : Nat)
    (f : Fld) : s.will pend d k lo w f = bits (ws.getD k 0) lo w := by
  simp [State.will, h]

/-- Without a descriptor enabled there is no load. -/
theorem State.loadSum_of_none (h : ∀ d < 1024, s.get R.SCH_DESC_EN d = 0) : s.loadSum [] = 0 := by
  have hno : s.willEnabled [] = [] := List.filter_eq_nil_iff.2 fun d hd => by
    simp [State.will, h d (List.mem_range.1 hd)]
  unfold State.loadSum
  rw [hno]
  rfl

/-- A descriptor that will be enabled with a budget is a load. -/
theorem State.loadSum_pos {d : Nat} (hd : d < 1024) (hen : s.will pend d 0 22 1 R.SCH_DESC_EN ≠ 0)
    (hb : s.will pend d 3 0 16 R.SCH_DESC_BUDGET ≠ 0) : 0 < s.loadSum pend := by
  have hmem : d ∈ s.willEnabled pend := List.mem_filter.2 ⟨List.mem_range.2 hd, by simpa using hen⟩
  have hterm := Nat.mul_pos (Nat.mul_pos (Nat.pos_of_ne_zero hb) (by decide : 0 < 2))
    (s.willDiv_share_pos pend (s.willEnabled pend) 1024 d)
  unfold State.loadSum
  dsimp only
  rw [← List.foldl_map (f := fun d => s.will pend d 3 0 16 R.SCH_DESC_BUDGET * 2 *
      (8 / s.willDiv pend (s.willEnabled pend) 1024 d)) (g := fun acc x => acc + x), ← List.sum_eq_foldl]
  exact hterm.trans_le (List.single_le_sum (fun _ _ => Nat.zero_le _) _ (List.mem_map_of_mem hmem))

/-- With no engine in service a first load is too much. -/
theorem State.overload_of_no_engine (hn : s.nService = 0) (hs : s.loadSum s.descPend = 0) (ht : 0 < t.loadSum t.descPend) :
    s.overload t = true := by
  simp [State.overload, State.loadRefuses, State.loadOver, hn, hs, ht, ht.ne']

end Sys2Proof.Machine

namespace Sys2Proof.Claims
open Sys2Proof.Machine

/-! ### The counterexample: no engine in service -/

/-- Axis 0 is Operational, and mailbox 0 holds a SWEEP_START for it: a sine of 10 ms at the position stage. No engine is in
service, so any load is too much (R157). -/
def noEngineLeft : State :=
  let s := (State.reset.put H.AX_DESC 5).setBytes (pageOf 0) (ofWords [0, 0x18])
  let s := (s.put R.AXS_STATUS_STATE 4).put R.SCH_STATUS_ENG_INSVC 0
  ((s.put R.MBX_STAT_STATUS 1).put H.MB_OPC 0x0208).put H.MB_LEN 64

theorem noEngineLeft_ready : Ready noEngineLeft 0 0x0208 64 := by constructor <;> decide +kernel

theorem noEngineLeft_pars : noEngineLeft.par 0 0 4 = 0 ∧ noEngineLeft.par 0 4 4 = 0x18 ∧ noEngineLeft.par 0 8 4 = 0 ∧
    noEngineLeft.axSt 0 = 4 := by decide +kernel

/-- The samples of the sweep. -/
def shortSweep : Nat :=
  sweepLen (noEngineLeft.par 0 8 4) ((List.range 11).map fun j => noEngineLeft.par 0 (20 + 4 * j) 4) (noEngineLeft.axPeriod 0)

/-- A channel, pages, a descriptor and a handle are free. -/
theorem noEngineLeft_room : (∀ x < 32, noEngineLeft.get H.SW_ORPH x = 0) ∧
    ((List.range 32).find? fun x => !noEngineLeft.on H.SW_ON x && noEngineLeft.get H.SW_PAGE x == 0) = some 0 ∧
    noEngineLeft.swFor 0 0x18 = none ∧ sweepPages shortSweep ≤ 248 ∧
    noEngineLeft.pageRun (sweepPages shortSweep) = some 0 ∧ noEngineLeft.descAlloc ≠ none ∧
    noEngineLeft.lopSlot = some 0 := by decide +kernel

/-- The axis with the sweep taken up. -/
def sweepTaken : State := noEngineLeft.sweepSet 0 0 0 0 shortSweep

/-- The sweep as it stands before the axis's descriptors are brought up to date. -/
def sweepHeld : State := noEngineLeft.sweepHold 0 0 0 0 shortSweep

theorem sweepTaken_eq : sweepTaken = sweepHeld.relink 0 := State.sweepSet_eq ..

/-- The descriptor of the sweep's capture clause is free, and the axis's own one is another. -/
theorem sweepHeld_relinks : sweepHeld.axSt 0 ≠ 0 ∧ sweepHeld.groupOf 0 = 255 ∧ sweepHeld.capChans 0 = [0] ∧
    sweepHeld.get H.SW_DESC 0 % 1024 = 0 ∧ sweepHeld.get H.AX_DESC 0 % 1024 = 5 ∧
    bits ((sweepHeld.descNext 0).getD 0 0) 22 1 = 0 := by decide +kernel

/-- Of the sweep's clauses, the one that waits for descriptor 0 has a budget. -/
theorem sweepTaken_load : sweepTaken.will sweepTaken.descPend 0 0 22 1 R.SCH_DESC_EN ≠ 0 ∧
    sweepTaken.will sweepTaken.descPend 0 3 0 16 R.SCH_DESC_BUDGET ≠ 0 := by
  obtain ⟨hst, hg, hc, hd, hax, hoff⟩ := sweepHeld_relinks
  have hfind := State.relink_stages hst hg hc hd (by omega) hoff
  rw [← sweepTaken_eq] at hfind
  rw [State.will_of_find hfind, State.will_of_find hfind, (sweepHeld.swDesc_loads 0 0).1, (sweepHeld.swDesc_loads 0 0).2]
  decide

/-- No descriptor is enabled. -/
theorem noEngineLeft_off (d : Nat) (hd : d < 1024) : noEngineLeft.get R.SCH_DESC_EN d = 0 := by
  have hput : ∀ (s : State) (f : Fld) (v : Nat), f.disjoint R.SCH_DESC_EN = true →
      (s.put f v).get R.SCH_DESC_EN d = s.get R.SCH_DESC_EN d := fun s f v h =>
    State.get_put_ne s v (fkey_ne_of_disjoint h (Nat.zero_le _) (Nat.zero_le _) (Nat.le_pred_of_lt hd) (Nat.zero_le _))
  rw [noEngineLeft, hput _ _ _ (by decide), hput _ _ _ (by decide), hput _ _ _ (by decide), hput _ _ _ (by decide),
    hput _ _ _ (by decide), State.setBytes_get, hput _ _ _ (by decide)]
  rfl

theorem noEngineLeft_overload : noEngineLeft.overload sweepTaken = true := by
  obtain ⟨hen, hb⟩ := sweepTaken_load
  exact State.overload_of_no_engine (by decide +kernel) (State.loadSum_of_none noEngineLeft_off)
    (State.loadSum_pos (by decide) hen hb)

theorem noEngineLeft_orphFree : noEngineLeft.orphFree 0 = noEngineLeft := by decide +kernel

/-- The request fails for the load (R157). -/
theorem exec_sweepStart_noEngineLeft : exec (.sweepStart 0) noEngineLeft = .next (noEngineLeft.fail 0 0x0301) := by
  obtain ⟨-, hchan, hfor, hfit, hrun, hdesc, -⟩ := noEngineLeft_room
  obtain ⟨hax, hcode, hsig, hst⟩ := noEngineLeft_pars
  have hover := noEngineLeft_overload
  have hfree : noEngineLeft.descAlloc.isNone = false := by
    simpa [Option.isNone_eq_false_iff, Option.isSome_iff_ne_none] using hdesc
  unfold sweepTaken at hover
  unfold shortSweep at hover hrun hfit
  show execSweepStart 0 noEngineLeft = _
  unfold execSweepStart
  rw [noEngineLeft_ready.request]
  rw [hsig] at hover hrun hfit
  simp only [State.parAxis, hax, hcode, hsig, hst, noEngineLeft_orphFree, hchan, hfor]
  simp [hrun, hover, hfree, not_lt.2 hfit]

/-- Refutes O35. SWEEP_START goes through the admission of R157 like every request that adds a clause; the claim asks for a
channel, pages, a descriptor and a handle, and not for the load. -/
theorem not_tracePagesAreAllocated : ¬ Obligations.TracePagesAreAllocated := by
  unfold Obligations.TracePagesAreAllocated
  intro h
  obtain ⟨horph, hchan, hfor, hfit, hrun, hdesc, hslot⟩ := noEngineLeft_room
  obtain ⟨-, hstart⟩ := h 0 0 0 0 noEngineLeft horph
  obtain ⟨hax, hcode, hsig, hst⟩ := noEngineLeft_pars
  rw [hax, hcode] at hstart
  obtain ⟨t, ht, hdone, -⟩ := hstart noEngineLeft_ready (by decide) (by decide) (by decide) (hsig ▸ by decide) hst hchan hfor
    hfit hrun hdesc hslot
  obtain rfl : t = noEngineLeft.fail 0 0x0301 := Host.Outcome.next.inj (ht.symm.trans exec_sweepStart_noEngineLeft)
  have hfail := (complete_answers (handle := 0) (res := []) noEngineLeft_ready.jrn (by decide) (by decide : 3 < 8)
    (by decide : 0x0301 < 65536)).1.status
  exact absurd (hdone.status.symm.trans hfail) (by decide)

end Sys2Proof.Claims
end

section
/-! PROOFS. The ranges of an axis record taken apart (R275), and the load of descriptors that read the same (R157). -/

namespace Sys2Proof.Machine

/-- The ranges that relate fields of a record or its kind, without the reaction codes (R50, R67, R73, R84, R170, R171). -/
def State.recTies (s : State) (a : Nat) : State :=
  let s := s.when (decide (2 ≤ s.axKind a)) fun s => (s.put R.AXS_STAGE_CFG_NVEL 0 a).put R.AXS_STAGE_CFG_NOUT 0 a
  let s := s.when (s.axKind a == 3) fun s => s.put R.TRJ_VMAX (min 10000000 (s.get R.TRJ_VMAX a)) a
  let s := s.when (decide (s.geti R.TRJ_SWL_POS a < s.geti R.TRJ_SWL_NEG a)) fun s =>
    s.puti R.TRJ_SWL_NEG (s.geti R.TRJ_SWL_POS a) a
  let s := s.when (decide (s.geti R.AXS_TRQ_MAX a < s.geti R.AXS_TRQ_MIN a)) fun s =>
    s.puti R.AXS_TRQ_MIN (s.geti R.AXS_TRQ_MAX a) a
  let s := s.put R.AXS_FE_IMM (max (s.get R.AXS_FE_LIMIT a) (s.get R.AXS_FE_IMM a)) a
  let s := s.each [R.TRJ_CFG_LIM_P, R.TRJ_CFG_LIM_N, R.TRJ_CFG_HOME] fun s f =>
    s.when (decide (32 ≤ s.get f a) && !(decide (0x40 ≤ s.get f a) && decide (s.get f a ≤ 0x42))) fun s => s.put f 0xFF a
  s.when (s.axKind a != 3) fun s => s.put R.AXS_BRK_FIO 0x3F a

/-- The reaction codes of a record: the forced ones, the others in their range (R50, R55). -/
def State.reactFix (s : State) (a : Nat) : State :=
  s.each (List.range 13) fun s k =>
    match reactForced (k + 1) with
    | some r => s.put R.AXS_REACT r a k
    | none => s.put R.AXS_REACT (min 3 (s.get R.AXS_REACT a k)) a k

theorem State.recFix_eq (s : State) (a : Nat) : s.recFix a = ((s.clampAll axsRw a).recTies a).reactFix a := rfl

variable {s t : State} {pend : List (Nat × List Nat)}

/-! ### The load of what reads the same (R157) -/

/-- The fields of a descriptor that the load depends on. -/
def loadFields : List Fld :=
  [R.SCH_DESC_EN, R.SCH_DESC_BUDGET, R.SCH_DESC_REL, R.SCH_DESC_DIV, R.SCH_DESC_NEXT_EN, R.SCH_DESC_NEXT, R.SCH_DESC_SIB_EN,
   R.SCH_DESC_SIB]

/-- The descriptors of two states are alike, as far as the load goes. -/
def SameLoad (s t : State) : Prop := ∀ f ∈ loadFields, ∀ d < 1024, t.get f d = s.get f d

theorem State.will_congr (h : SameLoad s t) {f : Fld} (hf : f ∈ loadFields) {d : Nat} (hd : d < 1024) (k lo w : Nat) :
    t.will pend d k lo w f = s.will pend d k lo w f := by
  unfold State.will
  split
  · rfl
  · exact h f hf d hd

theorem State.willEnabled_congr (h : SameLoad s t) : t.willEnabled pend = s.willEnabled pend :=
  List.filter_congr fun d hd => by rw [State.will_congr h (by decide) (List.mem_range.1 hd)]

theorem State.will_lt (s : State) {w : Nat} {f : Fld} (hf : f.width = w) (d k lo : Nat) : s.will pend d k lo w f < 2 ^ w := by
  unfold State.will
  split
  · exact Nat.mod_lt _ (Nat.two_pow_pos w)
  · exact hf ▸ State.get_lt s f d 0

theorem State.willFrom_congr (h : SameLoad s t) (n : Nat) {d : Nat} (hd : d < 1024) :
    t.willFrom pend n d = s.willFrom pend n d := by
  induction n generalizing d with
  | zero => rfl
  | succ n ih =>
    unfold State.willFrom
    rw [State.will_congr h (by decide) hd, State.will_congr h (by decide) hd,
      ih (s.will_lt (f := R.SCH_DESC_SIB) (w := 10) rfl d 4 16)]

theorem State.willChain_congr (h : SameLoad s t) {d : Nat} (hd : d < 1024) : t.willChain pend d = s.willChain pend d := by
  unfold State.willChain
  rw [State.will_congr h (by decide) hd, State.will_congr h (by decide) hd,
    State.willFrom_congr h 1024 (s.will_lt (f := R.SCH_DESC_NEXT) (w := 10) rfl d 4 0)]

theorem State.willDiv_congr (h : SameLoad s t) {ds : List Nat} (hds : ∀ r ∈ ds, r < 1024) (n : Nat) {d : Nat}
    (hd : d < 1024) : t.willDiv pend ds n d = s.willDiv pend ds n d := by
  induction n generalizing d with
  | zero =>
    unfold State.willDiv
    rw [State.will_congr h (by decide) hd]
  | succ n ih =>
    have hfind : (ds.find? fun r => (t.willChain pend r).contains d) = ds.find? fun r => (s.willChain pend r).contains d :=
      List.find?_congr fun r hr => by rw [State.willChain_congr h (hds r hr)]
    unfold State.willDiv
    rw [State.will_congr h (by decide) hd, State.will_congr h (by decide) hd, hfind]
    split
    · split
      · rename_i r hr
        exact ih (hds r (List.mem_of_find?_eq_some hr))
      · rfl
    · rfl

theorem State.loadSum_congr (h : SameLoad s t) (pend : List (Nat × List Nat)) : t.loadSum pend = s.loadSum pend := by
  have hds : ∀ r ∈ s.willEnabled pend, r < 1024 := fun r hr => List.mem_range.1 (List.mem_filter.1 hr).1
  unfold State.loadSum
  rw [State.willEnabled_congr h]
  refine List.foldl_ext _ _ _ fun acc d hd => ?_
  rw [State.will_congr h (by decide) (hds d hd), State.willDiv_congr h hds 1024 (hds d hd)]

/-- Changes that leave the descriptors alone raise no load. -/
theorem State.overload_of_sameLoad (h : SameLoad s t) (hp : t.descPend = s.descPend) : s.overload t = false := by
  simp [State.overload, State.loadRefuses, hp, State.loadSum_congr h]

end Sys2Proof.Machine
end

section
/-! PROOFS. What the writes of requests into records leave alone (R77, R275, R287): changes of registers, the ranges of an axis
record, the notes of a word written, the descriptors that follow. -/

namespace Sys2Proof.Claims
open Sys2Proof.Machine

variable {s t u : State} {ks ks' : List Nat}

/-! ### Changes of registers alone -/

theorem OnlyRegs.refl (ks : List Nat) (s : State) : OnlyRegs ks s s := ⟨kept_refl ks s, rfl, rfl⟩

theorem OnlyRegs.put (h : OnlyRegs ks s t) {f : Fld} {i j : Nat} (hk : fkey f i j ∈ ks) (v : Nat) :
    OnlyRegs ks s (t.put f v i j) := ⟨kept_put hk h.regs, h.mem, h.lists⟩

theorem OnlyRegs.trans (h : OnlyRegs ks s t) (k : OnlyRegs ks t u) : OnlyRegs ks s u :=
  ⟨kept_step h.regs k.regs, k.mem.trans h.mem, k.lists.trans h.lists⟩

theorem OnlyRegs.mono (h : OnlyRegs ks s t) (hs : ∀ k ∈ ks, k ∈ ks') : OnlyRegs ks' s t :=
  ⟨kept_mono h.regs hs, h.mem, h.lists⟩

theorem OnlyRegs.append (h : OnlyRegs ks s t) (k : OnlyRegs ks' t u) : OnlyRegs (ks ++ ks') s u :=
  (h.mono fun _ hm => List.mem_append_left _ hm).trans (k.mono fun _ hm => List.mem_append_right _ hm)

theorem OnlyRegs.when {c : Bool} {f : State → State} (h : OnlyRegs ks t (f t)) : OnlyRegs ks t (t.when c f) :=
  State.when_induction (OnlyRegs.refl ks t) h

theorem OnlyRegs.each {α : Type} {l : List α} {f : State → α → State} (hf : ∀ v, ∀ x ∈ l, OnlyRegs ks v (f v x))
    (s : State) : OnlyRegs ks s (s.each l f) :=
  State.each_induction (fun v x hx hv => hv.trans (hf v x hx)) (OnlyRegs.refl ks s)

theorem OnlyRegs.descPend (h : OnlyRegs ks s t) : t.descPend = s.descPend :=
  (congrArg State.descPend h.lists :)

theorem OnlyRegs.motions (h : OnlyRegs ks s t) : t.motions = s.motions :=
  (congrArg State.motions h.lists :)

/-- In a run in which only the step for `c` changes what `g` reads, that step decides it. -/
theorem each_at {α β : Type} {l : List α} {f : State → α → State} {c : α} {P : State → Prop} {g : State → β}
    (hn : l.Nodup) (hc : c ∈ l) (hP : ∀ v, ∀ x ∈ l, P v → P (f v x)) (hg : ∀ v, ∀ x ∈ l, x ≠ c → g (f v x) = g v)
    (hs : P s) : ∃ u, P u ∧ g u = g s ∧ g (s.each l f) = g (f u c) := by
  induction l generalizing s with
  | nil => exact absurd hc List.not_mem_nil
  | cons x l ih =>
    obtain ⟨hx, hl⟩ := List.nodup_cons.1 hn
    by_cases hxc : x = c
    · subst hxc
      exact ⟨s, hs, rfl, State.each_induction (P := fun t => g t = g (f s x)) (fun v y hy hv =>
        (hg v y (List.mem_cons_of_mem _ hy) fun e => hx (e ▸ hy)).trans hv) (s := f s x) rfl⟩
    · obtain ⟨u, hu, hgu, hlast⟩ := ih hl ((List.mem_cons.1 hc).resolve_left (Ne.symm hxc))
        (fun v y hy => hP v y (List.mem_cons_of_mem _ hy)) (fun v y hy => hg v y (List.mem_cons_of_mem _ hy))
        (hP s x (List.mem_cons_self ..) hs)
      exact ⟨u, hu, hgu.trans (hg s x (List.mem_cons_self ..) hxc), hlast⟩

/-! ### The ranges of a record (R275) -/

/-- The places of the fields of record `i` that have a range. -/
def clampPlaces (fs : List Fld) (i : Nat) : List Nat :=
  (fs.filter fun f => !f.fix.isEmpty).flatMap fun f => (List.range f.m).map fun j => fkey f i j

theorem clampAll_only (fs : List Fld) (i : Nat) (s : State) : OnlyRegs (clampPlaces fs i) s (s.clampAll fs i) := by
  refine OnlyRegs.each (fun v f hf => ?_) s
  unfold State.clampFld
  split
  · exact OnlyRegs.refl _ v
  · rename_i hfix
    exact OnlyRegs.each (fun w j hj => (OnlyRegs.refl _ w).put (List.mem_flatMap.2
      ⟨f, List.mem_filter.2 ⟨hf, by simpa using hfix⟩, List.mem_map_of_mem hj⟩) _) v

/-- The fields of an axis record whose ranges depend on other fields, without the reaction codes. -/
def tiedFields : List Fld :=
  [R.AXS_STAGE_CFG_NVEL, R.AXS_STAGE_CFG_NOUT, R.TRJ_VMAX, R.TRJ_SWL_NEG, R.AXS_TRQ_MIN, R.AXS_FE_IMM, R.TRJ_CFG_LIM_P,
   R.TRJ_CFG_LIM_N, R.TRJ_CFG_HOME, R.AXS_BRK_FIO]

def tiedPlaces (a : Nat) : List Nat := tiedFields.map fun f => fkey f a 0

theorem recTies_only (s : State) (a : Nat) : OnlyRegs (tiedPlaces a) s (s.recTies a) := by
  have hput : ∀ f ∈ tiedFields, ∀ (v : State) (x : Nat), OnlyRegs (tiedPlaces a) v (v.put f x a) := fun f hf v x =>
    (OnlyRegs.refl _ v).put (List.mem_map_of_mem (f := fun f => fkey f a 0) hf) x
  unfold State.recTies
  extract_lets s1 s2 s3 s4 s5 s6
  have h1 : OnlyRegs (tiedPlaces a) s s1 := OnlyRegs.when ((hput _ (by decide) _ _).trans (hput _ (by decide) _ _))
  have h2 : OnlyRegs (tiedPlaces a) s1 s2 := OnlyRegs.when (hput _ (by decide) _ _)
  have h3 : OnlyRegs (tiedPlaces a) s2 s3 := OnlyRegs.when (hput _ (by decide) _ _)
  have h4 : OnlyRegs (tiedPlaces a) s3 s4 := OnlyRegs.when (hput _ (by decide) _ _)
  have h5 : OnlyRegs (tiedPlaces a) s4 s5 := hput _ (by decide) _ _
  have hin : ∀ f ∈ [R.TRJ_CFG_LIM_P, R.TRJ_CFG_LIM_N, R.TRJ_CFG_HOME], f ∈ tiedFields := by decide
  have h6 : OnlyRegs (tiedPlaces a) s5 s6 := OnlyRegs.each (fun v f hf => OnlyRegs.when (hput f (hin f hf) _ _)) s5
  have h7 : OnlyRegs (tiedPlaces a) s6 (s6.when (s6.axKind a != 3) fun s => s.put R.AXS_BRK_FIO 0x3F a) :=
    OnlyRegs.when (hput _ (by decide) _ _)
  exact ((((((h1.trans h2).trans h3).trans h4).trans h5).trans h6).trans h7)

def reactPlaces (a : Nat) : List Nat := (List.range 13).map fun c => fkey R.AXS_REACT a c

theorem reactFix_only (s : State) (a : Nat) : OnlyRegs (reactPlaces a) s (s.reactFix a) :=
  OnlyRegs.each (fun v k hk => by
    have hput := fun x => (OnlyRegs.refl (reactPlaces a) v).put (List.mem_map_of_mem hk) x
    split
    · exact hput _
    · exact hput _) s

/-- The places that the ranges of an axis record may change. -/
def fixPlaces (a : Nat) : List Nat := clampPlaces axsRw a ++ tiedPlaces a ++ reactPlaces a

theorem recFix_only (s : State) (a : Nat) : OnlyRegs (fixPlaces a) s (s.recFix a) :=
  ((clampAll_only axsRw a s).append (recTies_only _ a)).append (reactFix_only _ a)

theorem brkHold_only (s : State) (a st old : Nat) : OnlyRegs (fixPlaces a) s (s.brkHold a st old) := by
  have hput := fun x => (OnlyRegs.refl (fixPlaces a) s).put (f := R.AXS_BRK_FIO) (i := a) (j := 0)
    (List.mem_append_left _ (List.mem_append_right _ (List.mem_map_of_mem (by decide : R.AXS_BRK_FIO ∈ tiedFields)))) x
  unfold State.brkHold
  split
  · exact hput _
  · split
    · exact hput _
    · exact OnlyRegs.refl _ s

/-! ### The place of a field in its record -/

/-- The places of record `a` stand where those of record 0 do, `a` records on. -/
theorem fkey_record {f : Fld} (hf : f.stride = 0x1000) (a j : Nat) : fkey f a j = fkey f 0 j + 0x8000 * a := by
  simp only [fkey, hf]
  omega

theorem clampPlaces_record {fs : List Fld} (h : ∀ f ∈ fs, f.stride = 0x1000) (a : Nat) :
    clampPlaces fs a = (clampPlaces fs 0).map (· + 0x8000 * a) := by
  unfold clampPlaces
  rw [List.map_flatMap]
  refine List.flatMap_congr fun f hf => ?_
  rw [List.map_map]
  exact List.map_congr_left fun j _ => fkey_record (h f (List.mem_filter.1 hf).1) a j

theorem fixPlaces_record (a : Nat) : fixPlaces a = (fixPlaces 0).map (· + 0x8000 * a) := by
  have htied : tiedPlaces a = (tiedPlaces 0).map (· + 0x8000 * a) := by
    simp only [tiedPlaces, List.map_map]
    exact List.map_congr_left fun f hf => fkey_record ((by decide : ∀ f ∈ tiedFields, f.stride = 0x1000) f hf) a 0
  have hreact : reactPlaces a = (reactPlaces 0).map (· + 0x8000 * a) := by
    simp only [reactPlaces, List.map_map]
    exact List.map_congr_left fun c _ => fkey_record rfl a c
  rw [fixPlaces, clampPlaces_record (by decide : ∀ f ∈ axsRw, f.stride = 0x1000), htied, hreact, fixPlaces, List.map_append,
    List.map_append]

/-- A field of the record that has no range reads as before. -/
theorem fkey_notMem_fixPlaces {g : Fld} {j : Nat} (hg : g.stride = 0x1000) (h : fkey g 0 j ∉ fixPlaces 0) (a : Nat) :
    fkey g a j ∉ fixPlaces a := by
  rw [fixPlaces_record, fkey_record hg]
  intro hm
  obtain ⟨k, hk, he⟩ := List.mem_map.1 hm
  exact h (by simpa [Nat.add_right_cancel he] using hk)

/-- The places of axis records. -/
theorem fixPlaces_range {a k : Nat} (ha : a < 256) (hk : k ∈ fixPlaces a) : 0x80000000 ≤ k ∧ k < 0x80800000 := by
  rw [fixPlaces_record] at hk
  obtain ⟨x, hx, rfl⟩ := List.mem_map.1 hk
  have hrow : ∀ x ∈ fixPlaces 0, 0x80000000 ≤ x ∧ x < 0x80008000 := by decide +kernel
  have := hrow x hx
  constructor
  · omega
  · omega

/-! ### What follows a write -/

/-- The notes of a host write into the configuration (R287, R291). -/
def confPlaces : List Nat := [fkey R.CFG_MODE_OVERRIDDEN 0 0, fkey R.CFG_STATUS_DIRTY 0 0, fkey H.CMT_D 0 0]

theorem confWroteAll_only (s : State) (kind idx off n : Nat) :
    OnlyRegs confPlaces s (s.confWroteAll kind idx off n) := by
  refine OnlyRegs.each (fun v k _ => ?_) s
  have hv := OnlyRegs.refl confPlaces v
  unfold State.confWrote
  split
  · exact hv.put (by simp [confPlaces]) 1
  · exact (hv.put (by simp [confPlaces]) 1).put (by simp [confPlaces]) 1

/-- Descriptors are staged, and nothing else changes. -/
theorem stageAll_eq (s : State) (l : List (Nat × List Nat)) : ∃ p, s.stageAll l = { s with descPend := p } :=
  State.each_induction (P := fun t => ∃ p, t = { s with descPend := p }) (fun t x _ ht => by
    obtain ⟨p, rfl⟩ := ht
    split
    · exact ⟨p, rfl⟩
    · exact ⟨_, rfl⟩) ⟨s.descPend, rfl⟩

theorem relink_eq (s : State) (a : Nat) : ∃ p, s.relink a = { s with descPend := p } := by
  unfold State.relink
  split
  · exact ⟨s.descPend, rfl⟩
  · obtain ⟨p1, h1⟩ := stageAll_eq s ((s.capChans a).map fun c => (s.get H.SW_DESC c % 1024, s.swDesc c a))
    dsimp only
    rw [h1]
    obtain ⟨p2, h2⟩ := stageAll_eq { s with descPend := p1 } (State.axDescs { s with descPend := p1 } a)
    rw [h2]
    cases s.groupOf a != 255
    · exact ⟨p2, rfl⟩
    · exact stageAll_eq { s with descPend := p2 } _

theorem get_relink (s : State) (a : Nat) (f : Fld) (i j : Nat) : (s.relink a).get f i j = s.get f i j := by
  obtain ⟨p, h⟩ := relink_eq s a
  rw [h]
  rfl

theorem relink_motions (s : State) (a : Nat) : (s.relink a).motions = s.motions := by
  obtain ⟨p, h⟩ := relink_eq s a
  rw [h]

end Sys2Proof.Claims
end

section
/-! PROOFS. A write of one word of an axis record, followed through the trackers and recipes of the axis (R77, R81). -/

namespace Sys2Proof.Claims
open Sys2Proof.Machine

/-! ### An axis record is written (R77) -/

/-- A field of the axis record, all of it in the 4 KiB of one. -/
structure InRecord (f : Fld) : Prop where
  stride : f.stride = 0x1000
  count : f.n = 256
  low : 0x10000000 ≤ f.base
  high : f.base + f.step * (f.m - 1) < 0x10001000

theorem axsRw_inRecord : ∀ f ∈ axsRw, InRecord f := fun f hf =>
  have h : ∀ f ∈ axsRw, f.stride = 0x1000 ∧ f.n = 256 ∧ 0x10000000 ≤ f.base ∧ f.base + f.step * (f.m - 1) < 0x10001000 := by
    decide
  have ⟨h1, h2, h3, h4⟩ := h f hf
  ⟨h1, h2, h3, h4⟩

/-- The element of a field that stands `r` bytes above its first one, if there is one. -/
def elemAt (f : Fld) (r : Nat) : Option Nat :=
  let j := if f.step = 0 then 0 else r / f.step
  if r = f.step * j ∧ j < f.m then some j else none

/-- Where the fields of a record are found. -/
theorem fldAt_axRec {f : Fld} (hf : InRecord f) {a b : Nat} (ha : a < 256) (hb : b < 0x1000) :
    fldAt f (axRec a + b) = if axRec 0 + b < f.base then none else (elemAt f (axRec 0 + b - f.base)).map fun j => (a, j) := by
  obtain ⟨hs, hn, hlo, hhi⟩ := hf
  have hmul : ∀ j, j < f.m → f.step * j ≤ f.step * (f.m - 1) := fun j hj => Nat.mul_le_mul_left _ (by omega)
  unfold fldAt elemAt axRec
  simp only [hs, hn, if_neg (by decide : ¬ 0x1000 = 0)]
  by_cases hlow : 0x10000000 + 0x1000 * 0 + b < f.base
  · rw [if_pos hlow]
    by_cases hfirst : 0x10000000 + 0x1000 * a + b < f.base
    · exact if_pos hfirst
    · rw [if_neg hfirst, show (0x10000000 + 0x1000 * a + b - f.base) / 0x1000 = a - 1 by omega]
      generalize (if f.step = 0 then 0 else (0x10000000 + 0x1000 * a + b - f.base - 0x1000 * (a - 1)) / f.step) = j
      refine if_neg fun ⟨hr, _, hj⟩ => ?_
      have := hmul j hj
      omega
  · rw [if_neg hlow, if_neg (by omega), show (0x10000000 + 0x1000 * a + b - f.base) / 0x1000 = a by omega,
      show 0x10000000 + 0x1000 * a + b - f.base - 0x1000 * a = 0x10000000 + 0x1000 * 0 + b - f.base by omega]
    generalize (if f.step = 0 then 0 else (0x10000000 + 0x1000 * 0 + b - f.base) / f.step) = j
    by_cases hc : 0x10000000 + 0x1000 * 0 + b - f.base = f.step * j ∧ j < f.m
    · rw [if_pos ⟨hc.1, ha, hc.2⟩, if_pos hc]
      rfl
    · rw [if_neg fun h => hc ⟨h.1, h.2.2⟩, if_neg hc]
      rfl

/-- Every record has its fields at the same offsets. -/
theorem fldAt_record {f : Fld} (hf : InRecord f) {a b : Nat} (ha : a < 256) (hb : b < 0x1000) :
    fldAt f (axRec a + b) = (fldAt f (axRec 0 + b)).map fun p => (a, p.2) := by
  rw [fldAt_axRec hf ha hb, fldAt_axRec hf (by decide) hb]
  split
  · rfl
  · rw [Option.map_map]
    rfl

/-- The one field of the word of KVFF. -/
theorem fieldsOf_kvff {a : Nat} (ha : a < 256) : fieldsOf axsRw (axRec a + 0x28) = [R.AXS_KVFF] := by
  have hrow : fieldsOf axsRw (axRec 0 + 0x28) = [R.AXS_KVFF] := by decide +kernel
  rw [← hrow]
  refine List.filter_congr fun f hf => ?_
  have hat : ∀ k < 0x1000, (fldAt f (axRec a + k)).isSome = (fldAt f (axRec 0 + k)).isSome := fun k hk => by
    rw [fldAt_record (axsRw_inRecord f hf) ha hk, Option.isSome_map]
  have hw : 4 ≤ axRec a + 0x28 := by omega
  have h4 : axRec a + 0x28 - 4 = axRec a + 0x24 := by omega
  simp only [Nat.add_assoc, hat _ (by decide : 0x28 < 0x1000), hat _ (by decide : 0x28 + 1 < 0x1000), h4,
    hat _ (by decide : 0x28 + 2 < 0x1000), hat _ (by decide : 0x28 + 3 < 0x1000), hat _ (by decide : 0x24 < 0x1000), hw]
  rfl

/-- The word of KVFF written into a record. -/
theorem putWords_kvff {a : Nat} (ha : a < 256) (s : State) (v : Nat) :
    s.putWords axsRw (axRec a + 0x28) [v] = s.put R.AXS_KVFF v a := by
  have hrow := fun (k : Nat) (hk : k < 0x1000) => fldAt_record (axsRw_inRecord R.AXS_KVFF (by decide)) ha hk
  show s.putWord axsRw (axRec a + 0x28) v = _
  rw [State.putWord, fieldsOf_kvff ha]
  show s.putWord1 R.AXS_KVFF (axRec a + 0x28) v = _
  have hnone := fun (k : Nat) (hk : k < 0x1000) (h0 : fldAt R.AXS_KVFF (axRec 0 + k) = none) =>
    (hrow k hk).trans (congrArg _ h0)
  have hfirst : fldAt R.AXS_KVFF (axRec 0 + 0x28) = some (0, 0) := by decide
  rw [State.putWord1_eq_put (i := a) ((hrow 0x28 (by decide)).trans (congrArg _ hfirst))
    (hnone 0x29 (by decide) (by decide)) (hnone 0x2A (by decide) (by decide))
    (hnone 0x2B (by decide) (by decide)) (by decide), show R.AXS_KVFF.lo = 0 from rfl, Nat.pow_zero, Nat.div_one]

/-- What a write of the word of KVFF may change (R77). -/
def kvffPlaces (a : Nat) : List Nat := fkey R.AXS_KVFF a 0 :: fixPlaces a

/-- The state with KVFF put, before the ranges are held. -/
def kvffPut (s : State) (a v : Nat) : State := (s.errWrote 4 (0x1000 * a + 0x28) 4).put R.AXS_KVFF v a

theorem recPut_kvff {a : Nat} (ha : a < 256) (s : State) (v : Nat) :
    OnlyRegs (fixPlaces a) (kvffPut s a v) (s.recPut a 0x28 [v]) := by
  unfold State.recPut
  rw [putWords_kvff ha]
  exact (recFix_only _ a).trans (brkHold_only _ a _ _)

theorem recPut_kvff_kept {a : Nat} (ha : a < 256) (s : State) (v : Nat) :
    RegsKept (kvffPlaces a) s (s.recPut a 0x28 [v]) := by
  have hput : RegsKept (kvffPlaces a) s (kvffPut s a v) :=
    kept_put (List.mem_cons_self ..) (kept_of_regs (t := s) rfl (kept_refl _ s))
  exact kept_step hput (kept_mono (recPut_kvff ha s v).regs fun _ => List.mem_cons_of_mem _)

theorem recPut_kvff_get {a : Nat} (ha : a < 256) (s : State) (v : Nat) :
    (s.recPut a 0x28 [v]).get R.AXS_KVFF a = v % 2 ^ 32 := by
  rw [(recPut_kvff ha s v).regs _ _ _ (fkey_notMem_fixPlaces rfl (by decide +kernel) a)]
  exact State.get_put_self ..

theorem recPut_kvff_motions {a : Nat} (ha : a < 256) (s : State) (v : Nat) :
    (s.recPut a 0x28 [v]).motions = s.motions := (recPut_kvff ha s v).motions

/-- A field of the record with no range reads as before, unless it is KVFF. -/
theorem recPut_kvff_other {a : Nat} (ha : a < 256) (s : State) (v : Nat) {g : Fld} (hg : g.stride = 0x1000)
    (hk : fkey g 0 0 ≠ fkey R.AXS_KVFF 0 0) (h : fkey g 0 0 ∉ fixPlaces 0) :
    (s.recPut a 0x28 [v]).get g a = s.get g a := by
  refine recPut_kvff_kept ha s v g a 0 fun hm => ?_
  rcases List.mem_cons.1 hm with he | hm
  · rw [fkey_record hg, fkey_record (f := R.AXS_KVFF) rfl] at he
    exact hk (Nat.add_right_cancel he)
  · exact fkey_notMem_fixPlaces hg h a hm

/-- What stands outside the axis records reads as before. -/
theorem recPut_kvff_outside {a : Nat} (ha : a < 256) (s : State) (v : Nat) {g : Fld} {i j : Nat}
    (h : fkey g i j < 0x80000000 ∨ 0x80800000 ≤ fkey g i j) : (s.recPut a 0x28 [v]).get g i j = s.get g i j := by
  refine recPut_kvff_kept ha s v g i j fun hm => ?_
  rcases List.mem_cons.1 hm with he | hm
  · rw [he, fkey_record rfl, show fkey R.AXS_KVFF 0 0 = 0x80000140 from rfl] at h
    omega
  · have := fixPlaces_range ha hm
    omega

/-- Neither tracker of the axis is switched by a write of KVFF (R81). -/
theorem recPut_kvff_trackers {a : Nat} (ha : a < 256) (s : State) (v : Nat) :
    let t := s.recPut a 0x28 [v]
    t.on R.AXS_TRK_CTL_T0_EN a = s.on R.AXS_TRK_CTL_T0_EN a ∧ t.on R.AXS_TRK_CTL_T1_EN a = s.on R.AXS_TRK_CTL_T1_EN a ∧
    t.get R.AXS_TRK_CTL_T0_SEC a = s.get R.AXS_TRK_CTL_T0_SEC a ∧
    t.get R.AXS_TRK_CTL_T1_SEC a = s.get R.AXS_TRK_CTL_T1_SEC a := by
  have h := fun (g : Fld) (hg : g.stride = 0x1000) (hk : fkey g 0 0 ≠ fkey R.AXS_KVFF 0 0) (hn : fkey g 0 0 ∉ fixPlaces 0) =>
    recPut_kvff_other ha s v hg hk hn
  refine ⟨?_, ?_, h _ rfl (by decide) (by decide +kernel), h _ rfl (by decide) (by decide +kernel)⟩
  · rw [State.on, h _ rfl (by decide) (by decide +kernel), State.on]
  · rw [State.on, h _ rfl (by decide) (by decide +kernel), State.on]

theorem trkStop_of_off {s : State} {a k : Nat} {en bank sec coef : Fld} (h : s.on en a = false) :
    s.trkStop a k en bank sec coef = s := by
  simp [State.trkStop, h]

theorem trkStop_unless {s : State} {a k : Nat} {en bank sec coef : Fld} :
    (if s.on en a = true then s else s.trkStop a k en bank sec coef) = s := by
  split
  · rfl
  · rename_i h
    exact trkStop_of_off (Bool.eq_false_iff.2 h)

theorem trkStops_of_same {s t : State} {a : Nat} (h0 : t.on R.AXS_TRK_CTL_T0_EN a = s.on R.AXS_TRK_CTL_T0_EN a)
    (h1 : t.on R.AXS_TRK_CTL_T1_EN a = s.on R.AXS_TRK_CTL_T1_EN a) : s.trkStops t a = s := by
  unfold State.trkStops
  rw [h0, h1, trkStop_unless]
  exact trkStop_unless

theorem trkBeginOne_of_same {s t : State} {a k : Nat} {en sec : Fld} (h : t.on en a = s.on en a)
    (hs : t.get sec a = s.get sec a) : t.trkBeginOne s a k en sec = t := by
  have hno : (t.on en a && (!s.on en a || s.get sec a != t.get sec a)) = false := by
    rw [h, hs]
    cases s.on en a <;> simp
  rw [State.trkBeginOne, hno, State.when_false]

/-- No recipe is met by the word of KVFF (R79). -/
theorem notchRaw_kvff (s : State) (a : Nat) : s.notchRaw a 0x28 1 = s := by
  have hno : ((List.range 24).filter fun k => touchesSec k 0x28 1) = [] := by decide
  unfold State.notchRaw
  rw [hno]
  rfl

/-- The trackers and recipes take no part in a write of KVFF. -/
theorem recAfter_kvff {a : Nat} (ha : a < 256) (s : State) (v : Nat) :
    recAfter s a 0x28 [v] = ((s.recPut a 0x28 [v]).confWroteAll 0 a 0x28 1).relink a := by
  obtain ⟨h0, h1, -, -⟩ := recPut_kvff_trackers ha s v
  unfold recAfter
  rw [trkStops_of_same h0 h1, List.length_singleton, notchRaw_kvff]

/-- A write that the trackers let through (R76 to R81, R157). -/
theorem recWrite_admits {a off mb : Nat} {s : State} {ws : List Nat}
    (hc : s.trkCheck (s.recPut a off ws) a off ws.length = 0) {u : State}
    (hu : ((((((s.trkStops (s.recPut a off ws) a).recPut a off ws).notchRaw a off ws.length).trkBegin s a).confWroteAll
      0 a off ws.length).relink a) = u) :
    s.recWrite mb a off ws = if s.overload u then s.fail mb 0x0301 else u.done mb (toBytes 4 ws.length) := by
  subst hu
  exact if_neg (not_not.2 hc)

theorem recWrite_kvff {a mb v : Nat} (ha : a < 256) (s : State)
    (hc : s.trkCheck (s.recPut a 0x28 [v]) a 0x28 1 = 0) :
    s.recWrite mb a 0x28 [v] = if s.overload (recAfter s a 0x28 [v]) then s.fail mb 0x0301
      else (recAfter s a 0x28 [v]).done mb (toBytes 4 1) := by
  obtain ⟨h0, h1, hs0, hs1⟩ := recPut_kvff_trackers ha s v
  refine recWrite_admits hc ?_
  rw [List.length_singleton, trkStops_of_same h0 h1, notchRaw_kvff, State.trkBegin, trkBeginOne_of_same h0 hs0,
    trkBeginOne_of_same h1 hs1, recAfter_kvff ha]

end Sys2Proof.Claims
end

section
/-! PROOFS. How requests that read or write records are answered: REC_READ, GRP_READ and REC_WRITE (R77, R280). -/

namespace Sys2Proof.Claims
open Sys2Proof.Machine

/-! ### The answers of requests on records -/

/-- A place in the records of axes, groups and learning tables. -/
def inRecords (k : Nat) : Prop := 0x80000000 ≤ k ∧ k < 0x100000000

theorem inRecords_field {f : Fld} {a j : Nat} (hf : f.stride = 0x1000) (ha : a < 256)
    (h : 0x80000000 ≤ fkey f 0 j ∧ fkey f 0 j < 0x80008000) : inRecords (fkey f a j) := by
  rw [fkey_record hf, inRecords]
  omega

theorem answerPlaces_outside {mb k : Nat} (hmb : mb < 32) (hk : inRecords k) : k ∉ answerPlaces mb := by
  intro hm
  have hall : ∀ k ∈ answerPlaces mb, k < 0x80000000 ∨ 0x100000000 ≤ k := by
    simp [answerPlaces, fkey, R.MBX_STAT_STATUS, R.MBX_RES_REASON, R.MBX_RES_RLEN, R.MBX_HANDLE, R.MBX_ROP, R.MBX_T_DONE,
      R.HIF_INT_MBX_STAT, R.HIF_MSIX_PBA]
    omega
  obtain ⟨h1, h2⟩ := hk
  have := hall k hm
  omega

theorem confPlaces_outside {k : Nat} (hk : inRecords k) : k ∉ confPlaces := by
  intro hm
  have hall : ∀ k ∈ confPlaces, k < 0x80000000 ∨ 0x100000000 ≤ k := by decide
  obtain ⟨h1, h2⟩ := hk
  have := hall k hm
  omega

/-- The place that marks a mailbox as a journal entry. -/
theorem fkey_jrn (mb : Nat) : fkey H.MB_JRN mb 0 = 8 * (0xa2017a1a + mb) := by
  simp [fkey, H.MB_JRN]

theorem jrn_notMem_confPlaces {mb : Nat} (hmb : mb < 32) : fkey H.MB_JRN mb 0 ∉ confPlaces := by
  rw [fkey_jrn]
  simp [confPlaces, fkey, R.CFG_MODE_OVERRIDDEN, R.CFG_STATUS_DIRTY, H.CMT_D]
  omega

/-- A request that wrote into a record, and noted it, is DONE. -/
theorem done_record {x y : State} {mb : Nat} (hk : RegsKept confPlaces x y) (hj : x.get H.MB_JRN mb = 0) (hmb : mb < 32)
    (res : List Nat) : Answered (y.done mb res) mb 2 0 res ∧
    (∀ g i j, inRecords (fkey g i j) → (y.done mb res).get g i j = x.get g i j) ∧ (y.done mb res).motions = y.motions ∧
    (y.done mb res).descPend = y.descPend := by
  have hjy : y.get H.MB_JRN mb = 0 := (hk _ _ _ (jrn_notMem_confPlaces hmb)).trans hj
  obtain ⟨ha, hkeep⟩ := complete_answers (handle := 0) (res := res) hjy hmb (by decide : 2 < 8) (by decide : 0 < 65536)
  refine ⟨ha, fun g i j hg => ?_, (congrArg State.motions hkeep.quiet :),
    (congrArg State.descPend hkeep.quiet :)⟩
  refine (hkeep.regs g i j ?_).trans (hk g i j (confPlaces_outside hg))
  rw [List.append_nil]
  exact answerPlaces_outside hmb hg

theorem fail_keeps {x : State} {mb reason : Nat} (hj : x.get H.MB_JRN mb = 0) (hmb : mb < 32) (hr : reason < 65536) :
    Answered (x.fail mb reason) mb 3 reason [] ∧ AnswerKeeps [] mb 0 x (x.fail mb reason) :=
  complete_answers (res := []) hj hmb (by decide) hr

theorem ofWords_length (ws : List Nat) : (ofWords ws).length = 4 * ws.length := by
  induction ws with
  | nil => rfl
  | cons w ws ih =>
    rw [ofWords, List.flatMap_cons, List.length_append, toBytes_length, List.length_cons]
    rw [ofWords] at ih
    omega

/-- A request that only reads words is DONE with them. -/
theorem done_words {x : State} {mb n : Nat} (hj : x.get H.MB_JRN mb = 0) (hmb : mb < 32) (fs : List Fld) (w : Nat)
    (hn : n % 4 = 0) : Answered (x.done mb (ofWords (x.words fs w (n / 4)))) mb 2 0 (ofWords (x.words fs w (n / 4))) ∧
    AnswerKeeps [] mb n x (x.done mb (ofWords (x.words fs w (n / 4)))) := by
  have hlen : (ofWords (x.words fs w (n / 4))).length = n := by
    rw [ofWords_length, State.words, List.length_map, List.length_range]
    omega
  have h := complete_answers (handle := 0) (res := ofWords (x.words fs w (n / 4))) hj hmb (by decide : 2 < 8)
    (by decide : 0 < 65536)
  rw [hlen] at h
  exact h

theorem par_lt (s : State) (mb off n : Nat) : s.par mb off n < 256 ^ n := State.load_lt ..

/-- REC_READ answers the words asked for (R280). -/
theorem recRead_answers {s : State} {mb : Nat} (h : Ready s mb 0x0107 12) (ha : s.par mb 0 4 < 256)
    (hst : s.axSt (s.par mb 0 4) ≠ 0) (hoff : s.par mb 4 4 % 4 = 0) (hn : max 4 (min (s.par mb 8 4) 4096) % 4 = 0)
    (hin : s.par mb 4 4 + max 4 (min (s.par mb 8 4) 4096) ≤ 0x1000) : Completes (.recRead mb) s fun t =>
      Answered t mb 2 0 (ofWords (s.words R.axsFields (0x10000000 + 0x1000 * s.par mb 0 4 + s.par mb 4 4)
        (max 4 (min (s.par mb 8 4) 4096) / 4))) ∧ AnswerKeeps [] mb (max 4 (min (s.par mb 8 4) 4096)) s t := by
  refine ⟨_, ?_, done_words h.jrn h.lt _ _ hn⟩
  show execRecRead mb s = _
  unfold execRecRead
  rw [h.request]
  dsimp only
  rw [State.parAxis, if_neg (Nat.not_le.2 ha), if_neg hst, if_neg (by omega)]
  rfl

/-- GRP_READ answers the 512 bytes of the record (R280). -/
theorem grpRead_answers {s : State} {mb : Nat} (h : Ready s mb 0x0201 4) (hg : s.par mb 0 4 < 32) :
    Completes (.grpRead mb) s fun t => Answered t mb 2 0
      (ofWords (s.words R.grpFields (0x18000000 + 0x200 * s.par mb 0 4) 128)) ∧ AnswerKeeps [] mb 512 s t := by
  refine ⟨_, ?_, done_words (n := 512) h.jrn h.lt _ _ (by decide)⟩
  show execGrpRead mb s = _
  unfold execGrpRead
  rw [h.request]
  dsimp only
  rw [if_neg (by omega)]
  rfl

theorem parWords_one {s : State} {mb : Nat} (h : s.get H.MB_LEN mb = 12) : s.parWords mb 8 = [s.par mb 8 4] := by
  rw [State.parWords, h]
  rfl

/-- REC_WRITE of the word of KVFF (R77, R157). -/
theorem recWrite_answers {s : State} {mb : Nat} (h : Ready s mb 0x0108 12) (ha : s.par mb 0 4 < 256)
    (hst : s.axSt (s.par mb 0 4) ≠ 0) (hoff : s.par mb 4 4 = 0x28) (hlen : s.get H.MB_LEN mb = 12)
    (hc : s.trkCheck (s.recPut (s.par mb 0 4) 0x28 [s.par mb 8 4]) (s.par mb 0 4) 0x28 1 = 0) :
    Completes (.recWrite mb) s fun t =>
      if s.overload (recAfter s (s.par mb 0 4) 0x28 [s.par mb 8 4]) = true then
        Answered t mb 3 0x0301 [] ∧ AnswerKeeps [] mb 0 s t
      else Answered t mb 2 0 (toBytes 4 1) ∧ t.get R.AXS_KVFF (s.par mb 0 4) = s.par mb 8 4 ∧ t.motions = s.motions := by
  have hexec : exec (.recWrite mb) s = .next (s.recWrite mb (s.par mb 0 4) 0x28 [s.par mb 8 4]) := by
    show execRecWrite mb s = _
    unfold execRecWrite
    rw [h.request]
    dsimp only
    rw [parWords_one hlen, hoff, State.parAxis, if_neg (by omega), if_neg hst, if_neg (by simp)]
  refine ⟨_, hexec, ?_⟩
  rw [recWrite_kvff ha s hc]
  split
  · exact fail_keeps h.jrn h.lt (by decide)
  · have hv : s.par mb 8 4 < 2 ^ 32 := par_lt s mb 8 4
    generalize s.par mb 0 4 = a at ha hst hc
    generalize s.par mb 8 4 = v at hc hv
    rw [recAfter_kvff ha]
    obtain ⟨hans, hget, hmot, -⟩ := done_record (x := s.recPut a 0x28 [v])
      (y := ((s.recPut a 0x28 [v]).confWroteAll 0 a 0x28 1).relink a) (fun f i j hn =>
        (get_relink ..).trans ((confWroteAll_only ..).regs f i j hn))
      ((recPut_kvff_outside ha s v (by rw [fkey_jrn]; omega)).trans h.jrn) h.lt (toBytes 4 1)
    refine ⟨hans, ?_, ?_⟩
    · rw [hget _ _ _ (inRecords_field rfl ha (by decide)), recPut_kvff_get ha, Nat.mod_eq_of_lt hv]
    · rw [hmot, relink_motions, (confWroteAll_only ..).motions, recPut_kvff_motions ha]

end Sys2Proof.Claims
end

section
/-! PROOFS. GRP_WRITE of a group without members (R85, R89). -/

namespace Sys2Proof.Claims
open Sys2Proof.Machine

/-! ### A group record is written (R89) -/

theorem clampFld_of_free {f : Fld} (h : f.fix.isEmpty = true) (s : State) (i : Nat) : s.clampFld f i = s := by
  rw [State.clampFld, if_pos h]

/-- What a write of the first weight of a group may change. -/
def grpPlaces (g : Nat) : List Nat := [fkey R.GRP_M g 0, fkey R.GRP_CFG_N g 0]

/-- The state with the first weight of a group written, and its ranges held. -/
def grpPut (s : State) (g v : Nat) : State := (s.put R.GRP_M v g).clampAll (rwFields R.grpFields) g

theorem putWords_grpM {g : Nat} (hg : g < 32) (s : State) (v : Nat) :
    s.putWords (rwFields R.grpFields) (grRec g + 0x10) [v] = s.put R.GRP_M v g := by
  have hfield : ∀ g < 32, fieldsOf (rwFields R.grpFields) (grRec g + 0x10) = [R.GRP_M] := by decide +kernel
  have hat : ∀ g < 32, fldAt R.GRP_M (grRec g + 0x10) = some (g, 0) ∧ fldAt R.GRP_M (grRec g + 0x10 + 1) = none ∧
      fldAt R.GRP_M (grRec g + 0x10 + 2) = none ∧ fldAt R.GRP_M (grRec g + 0x10 + 3) = none := by decide +kernel
  obtain ⟨h0, h1, h2, h3⟩ := hat g hg
  show s.putWord (rwFields R.grpFields) (grRec g + 0x10) v = _
  rw [State.putWord, hfield g hg]
  show s.putWord1 R.GRP_M (grRec g + 0x10) v = _
  rw [State.putWord1_eq_put h0 h1 h2 h3 (by decide), show R.GRP_M.lo = 0 from rfl, Nat.pow_zero, Nat.div_one]

theorem grpPut_only (s : State) (g v : Nat) : OnlyRegs (grpPlaces g) s (grpPut s g v) := by
  have hclamp : clampPlaces (rwFields R.grpFields) g = [fkey R.GRP_CFG_N g 0] := rfl
  refine ((OnlyRegs.refl _ s).put (List.mem_cons_self ..) v).trans ((clampAll_only _ g _).mono fun k hk => ?_)
  rw [hclamp] at hk
  exact List.mem_cons_of_mem _ hk

theorem grpPut_m (s : State) (g v : Nat) : (grpPut s g v).get R.GRP_M g = v % 2 ^ 32 := by
  have hclamp : clampPlaces (rwFields R.grpFields) g = [fkey R.GRP_CFG_N g 0] := rfl
  refine ((clampAll_only (rwFields R.grpFields) g (s.put R.GRP_M v g)).regs _ _ _ ?_).trans (State.get_put_self ..)
  rw [hclamp, List.mem_singleton, fkey, fkey]
  simp [R.GRP_M, R.GRP_CFG_N]

/-- A group without members stays without. -/
theorem grpPut_n {s : State} {g : Nat} (v : Nat) (h : s.get R.GRP_CFG_N g = 0) : (grpPut s g v).get R.GRP_CFG_N g = 0 := by
  have hn : (s.put R.GRP_M v g).get R.GRP_CFG_N g = 0 := by
    rw [State.get_put_row (f := R.GRP_M) (g := R.GRP_CFG_N) rfl (by decide), h]
  have hfree : ∀ f ∈ rwFields R.grpFields, f ≠ R.GRP_CFG_N → f.fix.isEmpty = true := by decide
  refine State.each_induction (P := fun t => t.get R.GRP_CFG_N g = 0) (fun t f hf ht => ?_) hn
  by_cases hfn : f = R.GRP_CFG_N
  · subst hfn
    show (t.put R.GRP_CFG_N (applyFix R.GRP_CFG_N.fix (t.get R.GRP_CFG_N g)) g).get R.GRP_CFG_N g = 0
    rw [ht, State.get_put_self]
    rfl
  · rw [clampFld_of_free (hfree f hf hfn), ht]

theorem members_of_none {s : State} {g : Nat} (h : s.get R.GRP_CFG_N g = 0) : s.members g = [] := by
  rw [State.members, h]
  rfl

theorem grpRefuse_nil (s : State) (g : Nat) : s.grpRefuse g [] = 0 := rfl

theorem stageAll_nil (s : State) : s.stageAll [] = s := rfl

/-! ### A word of which every field reads as before -/

theorem fldWord_congr {s t : State} {f : Fld} {w : Nat} (hf : f.lo + f.width ≤ 32)
    (h : ∀ k < 4, ∀ i j, fldAt f (w + k) = some (i, j) → t.get f i j = s.get f i j) : t.fldWord f w = s.fldWord f w := by
  have hpart : ∀ k < 4, t.fldPart f w k = s.fldPart f w k := fun k hk => by
    unfold State.fldPart
    split
    · rfl
    · rename_i i j hat
      rw [h k hk i j hat]
  unfold State.fldWord State.fldHigh
  rw [hpart 0 (by decide), hpart 1 (by decide), hpart 2 (by decide), hpart 3 (by decide), if_pos (Or.inl hf),
    if_pos (Or.inl hf)]

theorem word_congr {s t : State} {fs : List Fld} {w : Nat} (h : ∀ f ∈ fs, t.fldWord f w = s.fldWord f w) :
    t.word fs w = s.word fs w :=
  List.foldl_ext _ _ _ fun acc f hf => by rw [h f hf]

/-- The word of the cross-coupling control reads as before. -/
theorem grpPut_ccWord (s : State) (g v : Nat) :
    (grpPut s g v).word (rwFields R.grpFields) (grRec g + 0x0C) = s.word (rwFields R.grpFields) (grRec g + 0x0C) := by
  have hlow : ∀ f ∈ rwFields R.grpFields, f.lo + f.width ≤ 32 ∧ (f.lo < 8 ∨ f = R.GRP_CFG_CC_SHIFT) := by decide
  refine word_congr fun f hf => fldWord_congr (hlow f hf).1 fun k hk i j hat => (grpPut_only s g v).regs f i j ?_
  have hkey := fkey_of_fldAt hat
  have hm : fkey R.GRP_M g 0 = 8 * (grRec g + 0x10) := by simp [fkey, R.GRP_M, grRec]; omega
  have hn : fkey R.GRP_CFG_N g 0 = 8 * grRec g := by simp [fkey, R.GRP_CFG_N, grRec]
  have hne : fkey f i j ≠ 8 * (grRec g + 0x10) := by
    rcases (hlow f hf).2 with hlo | rfl
    · omega
    · simp only [fkey, R.GRP_CFG_CC_SHIFT, grRec] at hkey ⊢
      omega
  simp only [grpPlaces, List.mem_cons, List.not_mem_nil, or_false, hm, hn, not_or]
  exact ⟨hne, by omega⟩

theorem confWord_grp {s : State} {g : Nat} (hg : g < 32) :
    s.confWord (ovlTgt 1 g 0x0C) = s.word (rwFields R.grpFields) (grRec g + 0x0C) := by
  have hbits : ∀ g < 32, bits (ovlTgt 1 g 0x0C) 28 4 = 1 ∧ bits (ovlTgt 1 g 0x0C) 16 12 = g ∧
      bits (ovlTgt 1 g 0x0C) 0 16 = 0x0C := by decide
  obtain ⟨hk, hi, ho⟩ := hbits g hg
  simp [State.confWord, targetWord, hk, hi, ho, List.find?_eq_none.2]

/-- No cross-coupling section loses a member (R89). -/
theorem grpCcBad_grpPut {s : State} {g : Nat} (hg : g < 32) (v : Nat) (h : s.get R.GRP_CFG_N g = 0) :
    s.grpCcBad (grpPut s g v) g = false := by
  simp [State.grpCcBad, confWord_grp hg, grpPut_ccWord, grpPut_n v h, h]

/-- The group records stand apart from the descriptors. -/
theorem grpPut_sameLoad {s : State} {g : Nat} (v : Nat) :
    SameLoad s ((grpPut s g v).confWroteAll 1 g 0x10 1) := by
  intro f hf d hd
  refine ((grpPut_only s g v).append (confWroteAll_only _ 1 g 0x10 1)).regs f d 0 fun hm => ?_
  have hdesc : ∀ f ∈ loadFields, fkey f 0 0 ≤ 0x210000 ∧ f.stride = 0x20 := by decide
  obtain ⟨hlow, hs⟩ := hdesc f hf
  have hhigh : ∀ k ∈ grpPlaces g ++ confPlaces, 0x900000 ≤ k := by
    simp [grpPlaces, confPlaces, fkey, R.GRP_M, R.GRP_CFG_N, R.CFG_MODE_OVERRIDDEN, R.CFG_STATUS_DIRTY, H.CMT_D]
    omega
  have hk := hhigh _ hm
  simp only [fkey, hs] at hk hlow
  omega

/-- GRP_WRITE of the first weight of a group without members (R89). -/
theorem grpWrite_answers {s : State} {mb : Nat} (h : Ready s mb 0x0202 12) (hg : s.par mb 0 4 < 32)
    (hoff : s.par mb 4 4 = 0x10) (hlen : s.get H.MB_LEN mb = 12) (hn : s.get R.GRP_CFG_N (s.par mb 0 4) = 0) :
    Completes (.grpWrite mb) s fun t =>
      Answered t mb 2 0 (toBytes 4 1) ∧ t.get R.GRP_M (s.par mb 0 4) 0 = s.par mb 8 4 ∧ t.descPend = s.descPend := by
  have hv : s.par mb 8 4 < 2 ^ 32 := par_lt s mb 8 4
  have hexec : exec (.grpWrite mb) s =
      .next (((grpPut s (s.par mb 0 4) (s.par mb 8 4)).confWroteAll 1 (s.par mb 0 4) 0x10 1).done mb (toBytes 4 1)) := by
    show execGrpWrite mb s = _
    unfold execGrpWrite
    rw [h.request]
    dsimp only
    rw [parWords_one hlen, hoff]
    generalize s.par mb 0 4 = g at hg hn
    generalize s.par mb 8 4 = v
    have hs := members_of_none hn
    have ht := members_of_none (grpPut_n v hn)
    have hover := State.overload_of_sameLoad (grpPut_sameLoad (s := s) (g := g) v)
      ((confWroteAll_only _ 1 g 0x10 1).descPend.trans (grpPut_only s g v).descPend)
    have hdesc : (grpPut s g v).groupDesc g = [] := by
      rw [State.groupDesc, ht]
    rw [putWords_grpM hg, if_neg (by simp; omega), show (s.put R.GRP_M v g).clampAll (rwFields R.grpFields) g = grpPut s g v from rfl]
    simp only [grpCcBad_grpPut hg v hn, hs, ht, Bool.false_eq_true, if_false, grpRefuse_nil, beq_self_eq_true, if_true,
      Bool.not_true, false_and, ne_eq, not_true_eq_false, hdesc, stageAll_nil, List.length_singleton, hover]
  refine ⟨_, hexec, ?_⟩
  generalize s.par mb 0 4 = g at hg hn
  generalize s.par mb 8 4 = v at hv
  have hjrn : (grpPut s g v).get H.MB_JRN mb = 0 := by
    refine ((grpPut_only s g v).regs _ _ _ ?_).trans h.jrn
    rw [fkey_jrn]
    simp [grpPlaces, fkey, R.GRP_M, R.GRP_CFG_N]
    omega
  obtain ⟨hans, hget, -, hpend⟩ := done_record (confWroteAll_only (grpPut s g v) 1 g 0x10 1).regs hjrn h.lt (toBytes 4 1)
  refine ⟨hans, ?_, ?_⟩
  · rw [hget _ _ _ (by simp [inRecords, fkey, R.GRP_M]; omega), grpPut_m, Nat.mod_eq_of_lt hv]
  · rw [hpend, (confWroteAll_only ..).descPend, (grpPut_only s g v).descPend]

end Sys2Proof.Claims
end

section
/-! PROOFS. AXIS_REACTIONS: the codes through the ranges of the record (R50, R55). -/

namespace Sys2Proof.Claims
open Sys2Proof.Machine

/-! ### The reaction codes (R50, R55) -/

/-- The reaction codes of a request put into the record. -/
def codesPut (s : State) (mb a : Nat) : State :=
  s.each (List.range 13) fun s k => s.put R.AXS_REACT (s.par mb (4 + k) 1) a k

theorem react_ne {a c x : Nat} (h : x ≠ c) : fkey R.AXS_REACT a x ≠ fkey R.AXS_REACT a c := by
  simp only [fkey, R.AXS_REACT]
  omega

theorem par_congr {s t : State} (h : t.mem = s.mem) (mb off n : Nat) : t.par mb off n = s.par mb off n := by
  simp only [State.par, State.load, State.bytes, State.byte, h]

theorem codesPut_only (s : State) (mb a : Nat) : OnlyRegs (reactPlaces a) s (codesPut s mb a) :=
  OnlyRegs.each (fun v _ hk => (OnlyRegs.refl _ v).put (List.mem_map_of_mem hk) _) s

theorem codesPut_get (s : State) (mb a : Nat) {c : Nat} (hc : c < 13) :
    (codesPut s mb a).get R.AXS_REACT a c = s.par mb (4 + c) 1 := by
  obtain ⟨u, hmem, -, hlast⟩ := each_at (P := fun u => u.mem = s.mem) (g := fun u => u.get R.AXS_REACT a c)
    (f := fun s k => s.put R.AXS_REACT (s.par mb (4 + k) 1) a k) List.nodup_range (List.mem_range.2 hc)
    (fun _ _ _ hv => hv) (fun v x _ hx => State.get_put_ne v _ (react_ne hx)) (rfl : s.mem = s.mem)
  refine hlast.trans ((State.get_put_self ..).trans ?_)
  rw [par_congr hmem]
  exact Nat.mod_eq_of_lt (par_lt s mb (4 + c) 1)

/-- The range of the reaction codes does not tell codes apart that are the same in it. -/
theorem clampAll_react (s : State) (a : Nat) {c : Nat} (hc : c < 13) :
    min 3 ((s.clampAll axsRw a).get R.AXS_REACT a c) = min 3 (s.get R.AXS_REACT a c) := by
  refine State.each_induction (P := fun t => min 3 (t.get R.AXS_REACT a c) = min 3 (s.get R.AXS_REACT a c))
    (fun t f hf ht => ?_) rfl
  by_cases hfr : f = R.AXS_REACT
  · subst hfr
    obtain ⟨u, -, hu, hlast⟩ := each_at (P := fun _ => True) (g := fun u => u.get R.AXS_REACT a c) (s := t)
      (f := fun s j => s.put R.AXS_REACT (applyFix R.AXS_REACT.fix (s.get R.AXS_REACT a j)) a j) List.nodup_range
      (List.mem_range.2 hc) (fun _ _ _ _ => trivial) (fun v x _ hx => State.get_put_ne v _ (react_ne hx)) trivial
    have hclamp : (t.clampFld R.AXS_REACT a).get R.AXS_REACT a c = clampN 0 3 (t.get R.AXS_REACT a c) % 2 ^ 8 := by
      rw [← hu]
      exact hlast.trans (State.get_put_self ..)
    rw [hclamp, ← ht, clampN]
    split
    · omega
    · split <;> omega
  · have hapart : ∀ f ∈ axsRw, f = R.AXS_REACT ∨ f.fix.isEmpty = true ∨
        (∀ c < 13, fkey R.AXS_REACT 0 c ∉ clampPlaces [f] 0) := by decide +kernel
    have hkept : (t.clampFld f a).get R.AXS_REACT a c = t.get R.AXS_REACT a c := by
      rcases (hapart f hf).resolve_left hfr with hfree | hrow
      · rw [clampFld_of_free hfree]
      · refine (clampAll_only [f] a t).regs _ _ _ ?_
        rw [clampPlaces_record (by simpa using (axsRw_inRecord f hf).stride), fkey_record rfl]
        intro hm
        obtain ⟨k, hk, he⟩ := List.mem_map.1 hm
        exact hrow c hc (Nat.add_right_cancel he ▸ hk)
    rw [hkept, ht]

theorem recTies_react (s : State) {a c : Nat} (hc : c < 13) :
    (s.recTies a).get R.AXS_REACT a c = s.get R.AXS_REACT a c := by
  refine (recTies_only s a).regs _ _ _ fun hm => ?_
  have hrow : ∀ c < 13, ∀ f ∈ tiedFields, f.stride = 0x1000 ∧ fkey f 0 0 ≠ fkey R.AXS_REACT 0 c := by decide
  obtain ⟨f, hf, he⟩ := List.mem_map.1 hm
  obtain ⟨hs, hne⟩ := hrow c hc f hf
  rw [fkey_record hs, fkey_record (f := R.AXS_REACT) rfl] at he
  exact hne (Nat.add_right_cancel he)

theorem reactFix_get (s : State) {a c : Nat} (hc : c < 13) :
    (s.reactFix a).get R.AXS_REACT a c = (reactForced (c + 1)).getD (min 3 (s.get R.AXS_REACT a c)) := by
  have hforced : ∀ c < 13, (reactForced (c + 1)).getD 0 < 256 := by decide
  obtain ⟨u, -, hu, hlast⟩ := each_at (P := fun _ => True) (g := fun u => u.get R.AXS_REACT a c) (s := s)
    (f := fun s k => match reactForced (k + 1) with
      | some r => s.put R.AXS_REACT r a k
      | none => s.put R.AXS_REACT (min 3 (s.get R.AXS_REACT a k)) a k) List.nodup_range (List.mem_range.2 hc)
    (fun _ _ _ _ => trivial) (fun v x _ hx => by
      split
      · exact State.get_put_ne v _ (react_ne hx)
      · exact State.get_put_ne v _ (react_ne hx)) trivial
  refine hlast.trans ?_
  have hlt := hforced c hc
  rw [← hu]
  cases hr : reactForced (c + 1) with
  | some r =>
    rw [hr] at hlt
    exact (State.get_put_self ..).trans (Nat.mod_eq_of_lt hlt)
  | none =>
    refine (State.get_put_self ..).trans (Nat.mod_eq_of_lt ?_)
    show min 3 _ < 256
    omega

/-- AXIS_REACTIONS sets the codes, held to their range, and leaves the forced ones (R50, R55). -/
theorem axisReactions_answers {s : State} {mb : Nat} (h : Ready s mb 0x0106 17) (ha : s.par mb 0 4 < 256)
    (hst : s.axSt (s.par mb 0 4) ≠ 0) : Completes (.axisReactions mb) s fun t => Answered t mb 2 0 [] ∧
      ∀ c < 13, t.get R.AXS_REACT (s.par mb 0 4) c = (reactForced (c + 1)).getD (min 3 (s.par mb (4 + c) 1)) := by
  have hexec : exec (.axisReactions mb) s = .next ((((codesPut s mb (s.par mb 0 4)).recFix (s.par mb 0 4)).confWroteAll
      0 (s.par mb 0 4) 0x710 4).done mb) := by
    show execAxisReactions mb s = _
    unfold execAxisReactions
    rw [h.request]
    dsimp only
    rw [State.parAxis, if_neg (Nat.not_le.2 ha), if_neg hst]
    rfl
  refine ⟨_, hexec, ?_⟩
  generalize s.par mb 0 4 = a at ha hst
  have hjrn : ((codesPut s mb a).recFix a).get H.MB_JRN mb = 0 := by
    have hkept := ((codesPut_only s mb a).mono fun _ hk => List.mem_append_right _ hk).trans (recFix_only _ a)
    refine (hkept.regs _ _ _ fun hm => ?_).trans h.jrn
    have := fixPlaces_range ha hm
    rw [fkey_jrn] at this
    omega
  obtain ⟨hans, hget, -⟩ := done_record (confWroteAll_only _ 0 a 0x710 4).regs hjrn h.lt []
  refine ⟨hans, fun c hc => ?_⟩
  have hrow : ∀ c < 13, 0x80000000 ≤ fkey R.AXS_REACT 0 c ∧ fkey R.AXS_REACT 0 c < 0x80008000 := by decide
  rw [hget _ _ _ (inRecords_field rfl ha (hrow c hc)), State.recFix_eq, reactFix_get _ hc, recTies_react _ hc,
    clampAll_react _ a hc, codesPut_get s mb a hc]

end Sys2Proof.Claims
end

section
/-! PROOFS. SEC_RECIPE of a pass-through (R74, R78), and the requests on records together. -/

namespace Sys2Proof.Claims
open Sys2Proof.Machine

/-! ### A section's recipe (R74, R78) -/

/-- The coefficients of a pass-through in Q2.30. -/
def passThrough : Nat × List Int := (0, [0x40000000, 0, 0, 0, 0])

/-- Code 0 is the pass-through, under SHIFT 0, whatever its parameters (R74). -/
theorem recipeCoef_passThrough {s : State} {mb : Nat} (h : s.par mb 8 4 = 0) : s.recipeCoef mb = passThrough := by
  have hrec : ∀ pars period, recipeOf 0 pars period = [1, 0, 0, 0, 0] := fun _ _ => rfl
  have hscaled : scaled [1, 0, 0, 0, 0] = passThrough := by decide +kernel
  rw [State.recipeCoef, h, hrec, hscaled]

/-- The places a section's recipe is written to. -/
def sectionPlaces (a k : Nat) : List Nat :=
  [fkey R.AXS_SEC_FREEZE a 0, fkey R.AXS_SEC_SHIFT0 a 0, fkey R.AXS_SEC_SHIFT1 a 0, fkey R.AXS_SEC_SHIFT2 a 0,
    fkey H.SEC_NOTCH a k] ++ (List.range 5).map fun n => fkey R.AXS_SEC_COEF a (5 * k + n)

theorem putShift_only (s : State) (a k sh : Nat) : OnlyRegs (sectionPlaces a k) s (s.putShift a k sh) := by
  have hs := OnlyRegs.refl (sectionPlaces a k) s
  unfold State.putShift
  dsimp only
  split
  · exact hs.put (by simp [sectionPlaces]) _
  · split
    · exact hs.put (by simp [sectionPlaces]) _
    · exact hs.put (by simp [sectionPlaces]) _

theorem coefPut_only (s : State) (a k : Nat) (cs : List Int) :
    OnlyRegs (sectionPlaces a k) s (s.each (List.range 5) fun s n => s.puti R.AXS_SEC_COEF (cs.getD n 0) a (5 * k + n)) :=
  OnlyRegs.each (fun v _ hn => (OnlyRegs.refl _ v).put (List.mem_append_right _
    (List.mem_map_of_mem (f := fun n => fkey R.AXS_SEC_COEF a (5 * k + n)) hn)) _) s

/-- A section written, and its recipe noted. -/
def recipePut (s : State) (mb a k : Nat) : State :=
  (s.putSection a k passThrough).put H.SEC_NOTCH (s.par mb 8 4 + 1) a k

theorem recipePut_only (s : State) (mb a k : Nat) : OnlyRegs (sectionPlaces a k) s (recipePut s mb a k) := by
  have h1 := (OnlyRegs.refl (sectionPlaces a k) s).put (f := R.AXS_SEC_FREEZE) (i := a) (j := 0) (by simp [sectionPlaces])
    (setBit (s.get R.AXS_SEC_FREEZE a) k)
  have h2 := (h1.trans (putShift_only _ a k passThrough.1)).trans (coefPut_only _ a k passThrough.2)
  exact (h2.put (by simp [sectionPlaces]) _).put (by simp [sectionPlaces]) _

theorem withRecipe_eq {s : State} {mb : Nat} (h : s.par mb 8 4 = 0) : s.withRecipe mb =
    (((recipePut s mb (s.par mb 0 4) (s.par mb 4 4)).confWroteAll 0 (s.par mb 0 4) (0x14 + 4 * (s.par mb 4 4 / 8))
      1).confWroteAll 0 (s.par mb 0 4) (0xA0 + 20 * s.par mb 4 4) 5).relink (s.par mb 0 4) := by
  unfold State.withRecipe
  rw [recipeCoef_passThrough h]
  rfl

/-- A coefficient of the section reads as the recipe has it. -/
theorem recipePut_coef (s : State) (mb : Nat) {a k c : Nat} (_ : a < 256) (hk : k < 24) (hc : c < 5) :
    (recipePut s mb a k).get R.AXS_SEC_COEF a (5 * k + c) = trunc 32 (passThrough.2.getD c 0) := by
  have hcoef : ∀ x, x ≠ c → fkey R.AXS_SEC_COEF a (5 * k + x) ≠ fkey R.AXS_SEC_COEF a (5 * k + c) := fun x hx => by
    simp only [fkey, R.AXS_SEC_COEF]
    omega
  have hfreeze : fkey R.AXS_SEC_FREEZE a 0 ≠ fkey R.AXS_SEC_COEF a (5 * k + c) := by
    simp only [fkey, R.AXS_SEC_FREEZE, R.AXS_SEC_COEF]
    omega
  have hnotch : fkey H.SEC_NOTCH a k ≠ fkey R.AXS_SEC_COEF a (5 * k + c) := by
    simp only [fkey, H.SEC_NOTCH, R.AXS_SEC_COEF]
    omega
  have htrunc : ∀ c < 5, trunc 32 (passThrough.2.getD c 0) < 2 ^ 32 := by decide
  obtain ⟨u, -, -, hlast⟩ := each_at (P := fun _ => True) (g := fun u => u.get R.AXS_SEC_COEF a (5 * k + c))
    (s := (s.orBit R.AXS_SEC_FREEZE k a).putShift a k passThrough.1)
    (f := fun s n => s.puti R.AXS_SEC_COEF (passThrough.2.getD n 0) a (5 * k + n)) List.nodup_range (List.mem_range.2 hc)
    (fun _ _ _ _ => trivial) (fun v x _ hx => State.get_put_ne v _ (hcoef x hx)) trivial
  refine (State.get_put_ne _ _ hnotch).trans ((State.get_put_ne _ _ hfreeze).trans (hlast.trans ?_))
  exact (State.get_put_self ..).trans (Nat.mod_eq_of_lt (htrunc c hc))

theorem bit_clrBit (n k : Nat) : bit (clrBit n k) k = false := by
  unfold clrBit
  split
  · rename_i h
    have hdiv : (n - 2 ^ k) / 2 ^ k = n / 2 ^ k - 1 := by simpa using Nat.sub_mul_div n (2 ^ k) 1
    simp only [bit, beq_iff_eq] at h
    simp only [bit, hdiv, beq_eq_false_iff_ne]
    omega
  · rename_i h
    exact Bool.eq_false_iff.2 h

theorem recipePut_freeze (s : State) (mb : Nat) {a k : Nat} (_ : a < 256) (hk : k < 24) :
    bit ((recipePut s mb a k).get R.AXS_SEC_FREEZE a) k = false := by
  have hnotch : fkey H.SEC_NOTCH a k ≠ fkey R.AXS_SEC_FREEZE a 0 := by
    simp only [fkey, H.SEC_NOTCH, R.AXS_SEC_FREEZE]
    omega
  generalize hv : ((s.orBit R.AXS_SEC_FREEZE k a).putShift a k passThrough.1).each (List.range 5) (fun s n =>
    s.puti R.AXS_SEC_COEF (passThrough.2.getD n 0) a (5 * k + n)) = v
  have hclear : recipePut s mb a k = (v.clearBit R.AXS_SEC_FREEZE k a).put H.SEC_NOTCH (s.par mb 8 4 + 1) a k := by
    rw [← hv]
    rfl
  have hle : clrBit (v.get R.AXS_SEC_FREEZE a) k ≤ v.get R.AXS_SEC_FREEZE a := by
    unfold clrBit
    split
    · exact Nat.sub_le ..
    · exact Nat.le_refl _
  have hlt : clrBit (v.get R.AXS_SEC_FREEZE a) k < 2 ^ R.AXS_SEC_FREEZE.width := hle.trans_lt (State.get_lt ..)
  rw [hclear, State.get_put_ne _ _ hnotch, State.clearBit, State.get_put_of_lt _ _ _ hlt, bit_clrBit]

/-- SEC_RECIPE of a pass-through (R74, R78, R157). -/
theorem secRecipe_answers {s : State} {mb : Nat} (h : Ready s mb 0x0200 12) (ha : s.par mb 0 4 < 256)
    (hst : s.axSt (s.par mb 0 4) ≠ 0) (hk : s.par mb 4 4 < 24) (hcode : s.par mb 8 4 = 0)
    (htr : s.tracked (s.par mb 0 4) (0xA0 + 20 * s.par mb 4 4) 5 = false) : Completes (.secRecipe mb) s fun t =>
      if s.overload (s.withRecipe mb) = true then Answered t mb 3 0x0301 [] ∧ AnswerKeeps [] mb 0 s t
      else Answered t mb 2 0 (ofWords [0, 0x40000000, 0, 0, 0, 0]) ∧
        t.get R.AXS_SEC_COEF (s.par mb 0 4) (5 * s.par mb 4 4) = 0x40000000 ∧
        (∀ c, 0 < c → c < 5 → t.get R.AXS_SEC_COEF (s.par mb 0 4) (5 * s.par mb 4 4 + c) = 0) ∧
        bit (t.get R.AXS_SEC_FREEZE (s.par mb 0 4)) (s.par mb 4 4) = false := by
  have hexec : exec (.secRecipe mb) s = .next (if s.overload (s.withRecipe mb) then s.fail mb 0x0301
      else (s.withRecipe mb).done mb (ofWords [0, 0x40000000, 0, 0, 0, 0])) := by
    show execSecRecipe mb s = _
    unfold execSecRecipe
    rw [h.request]
    dsimp only
    rw [State.parAxis, if_neg (by omega), if_neg hst, htr, if_neg Bool.false_ne_true, recipeCoef_passThrough hcode]
    rfl
  refine ⟨_, hexec, ?_⟩
  split
  · exact fail_keeps h.jrn h.lt (by decide)
  · rw [withRecipe_eq hcode]
    generalize s.par mb 0 4 = a at ha hst htr
    generalize s.par mb 4 4 = k at hk htr
    generalize hy : ((recipePut s mb a k).confWroteAll 0 a (0x14 + 4 * (k / 8)) 1).confWroteAll 0 a (0xA0 + 20 * k) 5 = y
    have hconf : RegsKept confPlaces (recipePut s mb a k) (y.relink a) := fun f i j hn => by
      rw [get_relink, ← hy]
      exact ((confWroteAll_only _ _ _ _ _).trans (confWroteAll_only _ _ _ _ _)).regs f i j hn
    have hjrn : (recipePut s mb a k).get H.MB_JRN mb = 0 := by
      have hmb := h.lt
      refine ((recipePut_only s mb a k).regs _ _ _ ?_).trans h.jrn
      rw [fkey_jrn]
      simp [sectionPlaces, fkey, R.AXS_SEC_FREEZE, R.AXS_SEC_SHIFT0, R.AXS_SEC_SHIFT1, R.AXS_SEC_SHIFT2, H.SEC_NOTCH,
        R.AXS_SEC_COEF]
      exact ⟨by omega, by omega, by omega, by omega, by omega, fun x hx => by omega⟩
    obtain ⟨hans, hget, -⟩ := done_record hconf hjrn h.lt (ofWords [0, 0x40000000, 0, 0, 0, 0])
    have hcoef : ∀ c < 5, ((y.relink a).done mb (ofWords [0, 0x40000000, 0, 0, 0, 0])).get R.AXS_SEC_COEF a (5 * k + c) =
        trunc 32 (passThrough.2.getD c 0) := fun c hc => by
      rw [hget _ _ _ (by simp only [inRecords, fkey, R.AXS_SEC_COEF]; omega), recipePut_coef s mb ha hk hc]
    refine ⟨hans, hcoef 0 (by decide), fun c h0 hc => ?_, ?_⟩
    · have hzero : ∀ c < 5, 0 < c → trunc 32 (passThrough.2.getD c 0) = 0 := by decide
      rw [hcoef c hc, hzero c hc h0]
    · rw [hget _ _ _ (by simp only [inRecords, fkey, R.AXS_SEC_FREEZE]; omega), recipePut_freeze s mb ha hk]

/-- Settles O33: each request is executed, its write is followed through the record and its ranges, and the answer keeps what
was written. -/
theorem recordRequestsAndReactions : Obligations.RecordRequestsAndReactions := by
  unfold Obligations.RecordRequestsAndReactions
  refine ⟨fun mb s => ⟨fun h ha hst hoff hn hin => recRead_answers h ha hst hoff hn hin, fun h hg => grpRead_answers h hg,
    fun h ha hst hoff hlen hc => ?_, fun h hg hoff hlen hn => grpWrite_answers h hg hoff hlen hn⟩,
    fun mb s => ⟨fun h ha hst => axisReactions_answers h ha hst,
      fun h ha hst hk hcode htr => secRecipe_answers h ha hst hk hcode htr⟩⟩
  rw [hoff] at hc ⊢
  exact recWrite_answers h ha hst hoff hlen hc

end Sys2Proof.Claims
end

section
/-! SUPPORT. One instruction of a loop engine (R104, R119, R122): where its variables stand, how it begins and ends, the bits of
ESR, and what an engine does that executes an instruction as it stands. -/

namespace Sys2Proof.Machine

/-! ### Variables of the engines -/

/-- Two variables that each of the 16 engines has, at places apart. -/
def Fld.engApart (f g : Fld) : Bool := f.n == 16 && g.n == 16 && f.disjoint g

theorem engKey_ne {f g : Fld} {e j l : Nat} (he : e < 16) (h : f.engApart g = true) (hj : j ≤ f.m - 1) (hl : l ≤ g.m - 1) :
    fkey f e j ≠ fkey g e l := by
  simp only [Fld.engApart, Bool.and_eq_true, beq_iff_eq] at h
  obtain ⟨⟨hf, hg⟩, hd⟩ := h
  exact fkey_ne_of_disjoint hd (by omega) hj (by omega) hl

theorem State.get_put_engVar {f g : Fld} {e j l : Nat} (he : e < 16) (h : f.engApart g = true) (hj : j ≤ f.m - 1)
    (hl : l ≤ g.m - 1) (s : State) (v : Nat) : (s.put f v e j).get g e l = s.get g e l :=
  State.get_put_ne _ _ (engKey_ne he h hj hl)

/-! ### An engine's state -/

theorem State.engCan_lt {s : State} {e : Nat} (h : s.engCan e = true) : e < 16 := by
  simp only [State.engCan, Bool.and_eq_true, decide_eq_true_eq] at h
  exact h.1.1.1.1

theorem State.engSt_setEngSt (s : State) {e v : Nat} (he : e < 16) (hv : v < 4) : (s.setEngSt e v).engSt e = v := by
  have hlt : s.get R.SCH_ENG_STATE < 2 ^ 32 := State.get_lt ..
  have hself : (s.setEngSt e v).get R.SCH_ENG_STATE =
      (s.get R.SCH_ENG_STATE + v * 4 ^ e - s.engSt e * 4 ^ e) % 2 ^ 32 := State.get_put_self ..
  unfold State.engSt at hself ⊢
  rw [hself]
  unfold bits
  interval_cases e <;> omega

theorem State.get_setEngSt {g : Fld} {e l : Nat} (he : e < 16) (hg : (g.n == 16 && R.SCH_ENG_STATE.disjoint g) = true)
    (hl : l ≤ g.m - 1) (s : State) (i v : Nat) : (s.setEngSt i v).get g e l = s.get g e l := by
  simp only [Bool.and_eq_true, beq_iff_eq] at hg
  exact State.get_put_ne _ _ (fkey_ne_of_disjoint hg.2 (Nat.zero_le _) (Nat.zero_le _) (by omega) hl)

/-! ### Bits -/

theorem bit_mod_two_pow {n w k : Nat} (h : k < w) : bit (n % 2 ^ w) k = bit n k := by
  rw [bit_eq_testBit, Nat.testBit_mod_two_pow, bit_eq_testBit, decide_eq_true h, Bool.true_and]

/-- A word with its low bits replaced. -/
theorem bit_lowReplaced {r x w : Nat} (hx : x < 2 ^ w) (k : Nat) :
    bit (r / 2 ^ w * 2 ^ w + x) k = if k < w then bit x k else bit r k := by
  rw [bit_eq_testBit, Nat.mul_comm, Nat.testBit_two_pow_mul_add _ hx, bit_eq_testBit, bit_eq_testBit]
  split
  · rfl
  · rw [Nat.testBit_div_two_pow, Nat.sub_add_cancel (by omega)]

theorem bit_setBit_eq (n k j : Nat) : bit (setBit n k) j = (bit n j || decide (j = k)) := by
  rw [bit_eq_testBit, bit_eq_testBit, setBit, Nat.testBit_or, Nat.testBit_two_pow]
  simp only [eq_comm]

/-! ### The status register -/

/-- A bit of ESR set where a condition holds: GOV, SAT. -/
theorem State.bit_esr_when (t : State) (e : Nat) {j k : Nat} (hj : j < 16) (c : Bool) :
    bit ((t.when c fun t => t.esrPut e k true).esr e) j = (bit (t.esr e) j || (c && decide (j = k))) := by
  cases c
  · rw [State.when_false, Bool.false_and, Bool.or_false]
  · have h : ((t.esrPut e k true).esr e) = setBit (t.esr e) k % 2 ^ 16 := State.get_put_self ..
    rw [State.when_true, h, bit_mod_two_pow hj, bit_setBit_eq, Bool.true_and]

theorem State.get_when_esrPut {g : Fld} {e l : Nat} (he : e < 16) (h : H.ENG_ESR.engApart g = true) (hl : l ≤ g.m - 1)
    (t : State) (c : Bool) (k : Nat) : (t.when c fun t => t.esrPut e k true).get g e l = t.get g e l :=
  State.when_same (fun t => t.get g e l) t c (State.get_put_engVar he h (Nat.zero_le _) hl ..)

/-! ### The beginning and the end of an instruction -/

/-- An instruction begins where no load waits to land. -/
def State.engBegin (s : State) (e : Nat) : State := (s.put H.ENG_BT 0 e).put H.ENG_WL 0 e

/-- An instruction that no branch and no loop redirects ends: its cycles count, and the program counter moves to `pc`. -/
def State.engTick (t : State) (e cost pc : Nat) : State :=
  ((t.put H.ENG_ECYC (t.get H.ENG_ECYC e + cost) e).addSat H.ENG_BUSY cost e).put H.ENG_PC pc e

@[simp] theorem State.engBegin_mem (s : State) (e : Nat) : (s.engBegin e).mem = s.mem := rfl
@[simp] theorem State.engBegin_late (s : State) (e : Nat) : (s.engBegin e).late = s.late := rfl
@[simp] theorem State.engBegin_olds (s : State) (e : Nat) : (s.engBegin e).olds = s.olds := rfl
@[simp] theorem State.engBegin_arrErrs (s : State) (e : Nat) : (s.engBegin e).arrErrs = s.arrErrs := rfl
@[simp] theorem State.engTick_mem (t : State) (e cost pc : Nat) : (t.engTick e cost pc).mem = t.mem := rfl
@[simp] theorem State.engTick_late (t : State) (e cost pc : Nat) : (t.engTick e cost pc).late = t.late := rfl
@[simp] theorem State.engTick_olds (t : State) (e cost pc : Nat) : (t.engTick e cost pc).olds = t.olds := rfl

@[simp] theorem State.putD_mem (s : State) (e k v : Nat) : (s.putD e k v).mem = s.mem := rfl
@[simp] theorem State.putOld_mem (s : State) (e : Nat) (f : Fld) (k v : Nat) : (s.putOld e f k v).mem = s.mem := rfl

theorem State.get_engBegin {g : Fld} {e l : Nat} (he : e < 16) (h : (H.ENG_BT.engApart g && H.ENG_WL.engApart g) = true)
    (hl : l ≤ g.m - 1) (s : State) : (s.engBegin e).get g e l = s.get g e l := by
  rw [Bool.and_eq_true] at h
  exact (State.get_put_engVar he h.2 (Nat.zero_le _) hl ..).trans (State.get_put_engVar he h.1 (Nat.zero_le _) hl ..)

theorem State.get_engTick {g : Fld} {e l : Nat} (he : e < 16)
    (h : (H.ENG_ECYC.engApart g && H.ENG_BUSY.engApart g && H.ENG_PC.engApart g) = true) (hl : l ≤ g.m - 1) (t : State)
    (cost pc : Nat) : (t.engTick e cost pc).get g e l = t.get g e l := by
  simp only [Bool.and_eq_true] at h
  obtain ⟨⟨hc, hb⟩, hp⟩ := h
  exact (State.get_put_engVar he hp (Nat.zero_le _) hl ..).trans ((State.get_put_engVar he hb (Nat.zero_le _) hl ..).trans
    (State.get_put_engVar he hc (Nat.zero_le _) hl ..))

theorem State.engTick_pc (t : State) (e cost pc : Nat) : (t.engTick e cost pc).get H.ENG_PC e = pc % 2 ^ 16 :=
  State.get_put_self ..

theorem State.engTick_cycles (t : State) {e : Nat} (he : e < 16) (cost pc : Nat) :
    (t.engTick e cost pc).get H.ENG_ECYC e = (t.get H.ENG_ECYC e + cost) % 2 ^ 32 := by
  unfold State.engTick State.addSat
  simp (disch := decide) only [State.get_put_engVar he, State.get_put_self]
  rfl

end Sys2Proof.Machine

namespace Sys2Proof.Claims
open Sys2Proof.Machine

variable {s t u : State} {ks : List Nat} {e : Nat}

@[simp] theorem lists_engBegin (s : State) (e : Nat) : lists (s.engBegin e) = lists s := rfl
@[simp] theorem lists_engTick (t : State) (e cost pc : Nat) : lists (t.engTick e cost pc) = lists t := rfl

@[simp] theorem lists_putD (s : State) (e k v : Nat) : lists (s.putD e k v) = lists s := rfl

theorem kept_engBegin (ks : List Nat) (s : State) (e : Nat) : RegsKept (engPlaces e ++ ks) s (s.engBegin e) :=
  kept_put (by simp [engPlaces]) (kept_put (by simp [engPlaces]) (kept_refl _ _))

theorem kept_engTick (h : RegsKept (engPlaces e ++ ks) s t) (cost pc : Nat) :
    RegsKept (engPlaces e ++ ks) s (t.engTick e cost pc) :=
  kept_put (by simp [engPlaces]) (kept_put (by simp [engPlaces]) (kept_put (by simp [engPlaces]) h))

theorem kept_esrWhen {c : Bool} {k : Nat} (hk : fkey H.ENG_ESR e 0 ∈ ks) (h : RegsKept ks s t) :
    RegsKept ks s (t.when c fun t => t.esrPut e k true) := kept_when h (kept_put hk h)

theorem mem_esrWhen (t : State) (e k : Nat) (c : Bool) : (t.when c fun t => t.esrPut e k true).mem = t.mem :=
  State.when_same State.mem t c rfl

theorem lists_esrWhen (t : State) (e k : Nat) (c : Bool) : lists (t.when c fun t => t.esrPut e k true) = lists t :=
  State.when_same lists t c rfl

/-! ### An engine that executes its next instruction as it stands -/

theorem EngTurn.lt (h : EngTurn s e) : e < 16 := State.engCan_lt h.can

/-- Where no older value waits for the engine, it reads its registers as they are (R122). -/
theorem older_of_none (hn : ∀ x ∈ s.olds, x.eng ≠ e) (f : Fld) (k : Nat) : s.older e f k = s.get f e k := by
  have hno : (s.olds.find? fun x => x.eng == e && x.fld == f && x.idx == k) = none :=
    List.find?_eq_none.2 fun x hx => by simp [hn x hx]
  rw [State.older, hno]

theorem EngTurn.older (h : EngTurn s e) (f : Fld) (k : Nat) : s.older e f k = s.get f e k := older_of_none h.noOld f k

theorem EngTurn.accOld (h : EngTurn s e) (k : Nat) : s.accOld e k = s.acc e k := by
  rw [State.accOld, h.older]
  rfl

theorem landLate_of_none (hl : ∀ x ∈ s.late, x.eng ≠ e) :
    s.landLate e = { s with olds := s.olds.filter fun x => x.eng != e } := by
  have h0 : s.late.filter (fun x => x.eng == e) = [] := List.filter_eq_nil_iff.2 fun x hx => by simpa using hl x hx
  have h1 : s.late.filter (fun x => x.eng != e) = s.late := List.filter_eq_self.2 fun x hx => by simpa using hl x hx
  unfold State.landLate
  rw [h0]
  simp only [State.each, List.foldl_nil, h1]

theorem landLate_self (hl : ∀ x ∈ s.late, x.eng ≠ e) (hn : ∀ x ∈ s.olds, x.eng ≠ e) : s.landLate e = s := by
  have h2 : s.olds.filter (fun x => x.eng != e) = s.olds := List.filter_eq_self.2 fun x hx => by simpa using hn x hx
  rw [landLate_of_none hl, h2]

theorem EngFree.landLate (h : EngFree s e) : s.landLate e = s := landLate_self h.noLate h.noOld

/-- An exception of R133 ends an instruction. -/
theorem engRunOf_exc {far : Bool} {rd : List Nat} {exc : State → Nat} {wr : State → Bool} {cl : State → Nat × Nat}
    {f : State → State → State} (hc : s.engCan e = true) (hf : bit (s.esr e) 11 = false) (hx : exc s ≠ 0) :
    s.engRunOf e far rd exc wr cl f = s.engExc e (exc s) := by
  unfold State.engRunOf State.farSettle
  simp only [hc, hf, Bool.not_true, Bool.false_and, Bool.false_eq_true, if_false]
  rw [if_pos hx]

/-- Without an exception and an injected mismatch the instruction has its effect, and the engine goes on. -/
theorem engRunOf_effect {far : Bool} {rd : List Nat} {exc : State → Nat} {wr : State → Bool} {cl : State → Nat × Nat}
    {f : State → State → State} (hc : s.engCan e = true) (hf : bit (s.esr e) 11 = false)
    (hi : bit (s.get H.ENG_INJR e) 17 = false) (hx : exc s = 0) :
    s.engRunOf e far rd exc wr cl f =
      (f s ((s.landLate e).engBegin e)).engAdvance s e (cl s).1 (cl s).2 := by
  unfold State.engRunOf State.farSettle State.resDue
  simp only [hc, hf, hi, hx, Bool.not_true, Bool.false_and, Bool.and_false, Bool.false_eq_true, if_false, ne_eq,
    not_true_eq_false]
  rfl

/-- At no loop's end the program counter moves to the next instruction (R119). -/
theorem EngTurn.loopEnd (h : EngTurn s e) (u : State) (len : Nat) :
    u.loopEnd s e (s.get H.ENG_PC e) len = u.put H.ENG_PC (s.get H.ENG_PC e + len) e := by
  have hend : esrLvl (s.esr e) = 0 ∨ bit (s.esr e) 7 = true ∨
      s.get H.ENG_PC e ≠ s.older e H.ENG_LE (esrLvl (s.esr e) - 1) := by
    rw [h.older]
    exact h.noEnd
  unfold State.loopEnd
  exact if_pos hend

/-- An instruction outside delay slots and PROT windows, and not at a loop's end, that does not begin a return from a
pre-emption, ends with the next one (R119, R123). -/
theorem EngTurn.advance (h : EngTurn s e) (hown : (u.inDelay e && bit (u.get H.ENG_DLY e) 17) = false) (cost len : Nat) :
    u.engAdvance s e cost len = u.engTick e cost (s.get H.ENG_PC e + len) := by
  unfold State.engAdvance
  simp only [hown, h.noProt, h.noDelay, Bool.not_false, State.when_true, bne_self_eq_false, State.when_false,
    Bool.false_eq_true, if_false, h.loopEnd]
  rfl

/-- Places of variables of engine `e`, among them neither its delay slot nor its cycles. -/
def Undirected (ks : List Nat) (e : Nat) : Prop := fkey H.ENG_DLY e 0 ∉ ks ∧ fkey H.ENG_ECYC e 0 ∉ ks

theorem undirected_nil (e : Nat) : Undirected [] e := ⟨List.not_mem_nil, List.not_mem_nil⟩

theorem Undirected.cons {f : Fld} {j : Nat} (h : Undirected ks e) (he : e < 16) (hj : j ≤ f.m - 1)
    (hf : (H.ENG_DLY.engApart f && H.ENG_ECYC.engApart f) = true := by decide) : Undirected (fkey f e j :: ks) e := by
  rw [Bool.and_eq_true] at hf
  exact ⟨List.not_mem_cons_of_ne_of_not_mem (engKey_ne he hf.1 (Nat.zero_le _) hj) h.1,
    List.not_mem_cons_of_ne_of_not_mem (engKey_ne he hf.2 (Nat.zero_le _) hj) h.2⟩

/-- The run of an instruction with effect `u` that does not redirect the engine. -/
theorem EngTurn.exec_run {i : Instr} {far : Bool} {rd : List Nat} {exc : State → Nat} {wr : State → Bool} {cost len : Nat}
    {f : State → State → State} (h : EngTurn s e) (hi : exec i s = .next (s.engRun e far rd exc wr cost len f))
    (hx : exc s = 0) (hu : f s ((s.landLate e).engBegin e) = u)
    (hown : (u.inDelay e && bit (u.get H.ENG_DLY e) 17) = false) :
    exec i s = .next (u.engTick e cost (s.get H.ENG_PC e + len)) := by
  rw [hi, State.engRun, engRunOf_effect h.can h.noFar h.noInj hx, hu, h.advance hown]

/-- The same, where no load lands and the effect writes at `ks` alone. -/
theorem EngFree.exec_run {i : Instr} {far : Bool} {rd : List Nat} {exc : State → Nat} {wr : State → Bool} {cost len : Nat}
    {f : State → State → State} (h : EngFree s e) (hi : exec i s = .next (s.engRun e far rd exc wr cost len f))
    (hx : exc s = 0) (hu : f s (s.engBegin e) = u) (hd : Undirected ks e) (hk : RegsKept ks (s.engBegin e) u) :
    exec i s = .next (u.engTick e cost (s.get H.ENG_PC e + len)) := by
  refine h.toEngTurn.exec_run hi hx (by rw [h.landLate, hu]) ?_
  rw [State.inDelay, hk _ _ _ hd.1, State.get_engBegin h.lt (by decide) (Nat.zero_le _), ← State.inDelay, h.noDelay,
    Bool.false_and]

theorem EngFree.exec_plain {i : Instr} {rd : List Nat} {wr : Bool} {f : State → State → State} (h : EngFree s e)
    (hi : exec i s = .next (s.engPlain e rd wr f)) (hu : f s (s.engBegin e) = u) (hd : Undirected ks e)
    (hk : RegsKept ks (s.engBegin e) u) : exec i s = .next (u.engTick e 1 (s.get H.ENG_PC e + 4)) :=
  h.exec_run hi rfl hu hd hk

theorem engNext_of_cycles (he : e < 16) (hk : RegsKept (engPlaces e ++ ks) s u)
    (hc : u.get H.ENG_ECYC e = s.get H.ENG_ECYC e) (cost len : Nat) :
    EngNext ks s (u.engTick e cost (s.get H.ENG_PC e + len)) e cost len where
  pc := State.engTick_pc ..
  cycles := by rw [State.engTick_cycles u he, hc]
  regs := by exact kept_engTick hk _ _

theorem engNext_of_kept (he : e < 16) (hc : fkey H.ENG_ECYC e 0 ∉ ks) (hk : RegsKept ks (s.engBegin e) u) (cost len : Nat) :
    EngNext ks s (u.engTick e cost (s.get H.ENG_PC e + len)) e cost len :=
  engNext_of_cycles he (kept_step (kept_engBegin ks s e) (kept_mono hk fun _ h => List.mem_append_right _ h))
    ((hk _ _ _ hc).trans (State.get_engBegin he (by decide) (Nat.zero_le _) s)) cost len

/-! ### Indices of registers -/

theorem dIndex (k : Nat) : k % 16 ≤ H.ENG_D.m - 1 := Nat.le_of_lt_succ (Nat.mod_lt k (by decide))
theorem aIndex (k : Nat) : k % 4 ≤ H.ENG_A.m - 1 := Nat.le_of_lt_succ (Nat.mod_lt k (by decide))
theorem pIndex (k : Nat) : k % 8 ≤ H.ENG_P.m - 1 := Nat.le_of_lt_succ (Nat.mod_lt k (by decide))
theorem xIndex (k : Nat) : k % 4 ≤ H.ENG_P.m - 1 := Nat.le_trans (Nat.le_of_lt_succ (Nat.mod_lt k (by decide))) (by decide)
theorem yIndex (k : Nat) : 4 + k % 4 ≤ H.ENG_P.m - 1 := Nat.add_le_add_left (Nat.le_of_lt_succ (Nat.mod_lt k (by decide))) 4

end Sys2Proof.Claims
end

section
/-! PROOFS. The ALU functions of the loop engines (R114, R130). -/

namespace Sys2Proof.Machine

/-! ### Saturation -/

theorem fitsI_iff (w : Nat) (v : Int) :
    fitsI w v = true ↔ -((2 ^ (w - 1) : Nat) : Int) ≤ v ∧ v ≤ ((2 ^ (w - 1) : Nat) : Int) - 1 := by
  have hp : 0 < 2 ^ (w - 1) := Nat.two_pow_pos _
  rw [fitsI, decide_eq_true_eq]
  unfold satI clampI
  split
  · omega
  · split <;> omega

theorem trunc_lt (w : Nat) (v : Int) : trunc w v < 2 ^ w := by
  have hp : (0 : Int) < ((2 ^ w : Nat) : Int) := by exact_mod_cast Nat.two_pow_pos w
  have hlt := Int.emod_lt_of_pos v hp
  have hnn := Int.emod_nonneg v (ne_of_gt hp)
  unfold trunc
  omega

/-! ### The flags of a result -/

theorem flags_low (z n c v : Bool) : let x := b2n z + 2 * b2n n + 4 * b2n c + 8 * b2n v
    x < 2 ^ 4 ∧ bit x 0 = z ∧ bit x 1 = n ∧ bit x 2 = c ∧ bit x 3 = v := by
  revert z n c v
  decide

/-- The bits of ESR after its flags are written. -/
theorem State.bit_flags (t : State) (e : Nat) (z n c v : Bool) :
    bit ((t.flags e z n c v).esr e) 0 = z ∧ bit ((t.flags e z n c v).esr e) 1 = n ∧
    bit ((t.flags e z n c v).esr e) 2 = c ∧ bit ((t.flags e z n c v).esr e) 3 = v ∧
    ∀ k, 4 ≤ k → k < 16 → bit ((t.flags e z n c v).esr e) k = bit (t.esr e) k := by
  obtain ⟨hx, hz, hn, hc, hv⟩ := flags_low z n c v
  have hesr : (t.flags e z n c v).esr e =
      (t.esr e / 2 ^ 4 * 2 ^ 4 + (b2n z + 2 * b2n n + 4 * b2n c + 8 * b2n v)) % 2 ^ 16 := by
    rw [← Nat.add_assoc, ← Nat.add_assoc, ← Nat.add_assoc]
    exact State.get_put_self ..
  rw [hesr]
  refine ⟨?_, ?_, ?_, ?_, fun k h4 hk => ?_⟩
  · rwa [bit_mod_two_pow (by decide), bit_lowReplaced hx]
  · rwa [bit_mod_two_pow (by decide), bit_lowReplaced hx]
  · rwa [bit_mod_two_pow (by decide), bit_lowReplaced hx]
  · rwa [bit_mod_two_pow (by decide), bit_lowReplaced hx]
  · rw [bit_mod_two_pow hk, bit_lowReplaced hx, if_neg (by omega)]

end Sys2Proof.Machine

namespace Sys2Proof.Claims
open Sys2Proof.Machine

variable {s t : State} {e dd : Nat}

theorem leaves32_eq (v : Int) : leaves32 v = !fitsI 32 v := by
  have h := fitsI_iff 32 v
  cases hf : fitsI 32 v <;> simp [hf, leaves32] at h ⊢ <;> omega

theorem held32_eq (v : Int) : held32 v = satI 32 v := by
  unfold held32 satI clampI
  split
  · omega
  · split <;> omega

/-- The flags of an ALU result (R114, R130) are those of the claim. -/
theorem aluFlags_are {p : State} {r : AluRes} (hp : p.esr e = s.esr e) (ht : t.esr e = (p.aluFlags e r).esr e) :
    AluFlagsAre s t e r.val r.c r.v r.sat := by
  obtain ⟨hz, hn, hc, hv, hrest⟩ := p.bit_flags e (r.val == 0) (neg32 r.val) r.c r.v
  refine ⟨?_, ?_, ?_, ?_, ?_, fun k hk16 hk => ?_⟩
  all_goals rw [ht, State.aluFlags, State.bit_esr_when _ e (by omega)]
  · rw [hz]
    simp [beq_eq_decide]
  · rw [hn]
    simp [neg32]
  · rw [hc]
    simp
  · rw [hv]
    simp
  · rw [hrest 5 (by decide) (by decide), hp]
    simp
  · simp only [List.mem_cons, List.not_mem_nil, or_false, not_or] at hk
    rw [hrest k (by omega) hk16, hp]
    simp [hk]

theorem kept_aluFlags {ks : List Nat} {r : AluRes} (hk : fkey H.ENG_ESR e 0 ∈ ks) (h : RegsKept ks s t) :
    RegsKept ks s (t.aluFlags e r) := kept_esrWhen hk (kept_put hk h)

theorem get_aluFlags {g : Fld} {l : Nat} (he : e < 16) (h : H.ENG_ESR.engApart g = true) (hl : l ≤ g.m - 1) (t : State)
    (r : AluRes) : (t.aluFlags e r).get g e l = t.get g e l :=
  (State.get_when_esrPut he h hl ..).trans (State.get_put_engVar he h (Nat.zero_le _) hl ..)

theorem aluFlags_mem (t : State) (e : Nat) (r : AluRes) : (t.aluFlags e r).mem = t.mem := mem_esrWhen ..

theorem lists_aluFlags (t : State) (e : Nat) (r : AluRes) : lists (t.aluFlags e r) = lists t := lists_esrWhen ..

/-- A function with a result in Dd (R114): what it leaves, its result given part by part. -/
theorem alu_completes {i : Instr} {rd : List Nat} {r : State → AluRes} {val : Nat} {c v sat : Bool} (h : EngFree s e)
    (hi : exec i s = .next (s.engAlu e dd rd r)) (hr : r s = { val := val, c := c, v := v, sat := sat })
    (hv : val < 2 ^ 32) : Completes i s fun t => AluDone s t e dd val c v sat := by
  have he := h.lt
  let p := (s.engBegin e).putD e dd val
  let ks := [fkey H.ENG_D e (dd % 16), fkey H.ENG_ESR e 0]
  have hd : Undirected ks e := ((undirected_nil e).cons he (Nat.zero_le _)).cons he (dIndex dd)
  have hk : RegsKept ks (s.engBegin e) (p.aluFlags e ⟨val, c, v, sat⟩) :=
    kept_aluFlags (by simp [ks]) (kept_put (by simp [ks]) (kept_refl _ _))
  have hp : p.esr e = s.esr e :=
    (State.get_put_engVar he (by decide) (dIndex dd) (Nat.zero_le _) ..).trans
      (State.get_engBegin he (by decide) (Nat.zero_le _) s)
  refine ⟨_, h.exec_plain hi (by rw [hr]) hd hk, ?_, aluFlags_are hp (State.get_engTick he (by decide) (Nat.zero_le _) ..),
    engNext_of_kept he hd.2 hk 1 4, ?_, ?_⟩
  · calc ((p.aluFlags e ⟨val, c, v, sat⟩).engTick e 1 (s.get H.ENG_PC e + 4)).dreg e dd
      _ = (p.aluFlags e ⟨val, c, v, sat⟩).dreg e dd := State.get_engTick he (by decide) (dIndex dd) ..
      _ = p.dreg e dd := get_aluFlags he (by decide) (dIndex dd) ..
      _ = val := State.get_put_of_lt _ _ _ hv
  · rw [State.engTick_mem, aluFlags_mem, State.putD_mem, State.engBegin_mem]
  · rw [lists_engTick, lists_aluFlags, lists_putD, lists_engBegin]

/-- A function that writes flags alone (R114): what it leaves. -/
theorem cmp_completes {i : Instr} {rd : List Nat} {wr : Bool} {f : State → State → State} {r : AluRes} (h : EngFree s e)
    (hi : exec i s = .next (s.engPlain e rd wr f)) (hf : f s (s.engBegin e) = (s.engBegin e).aluFlags e r) :
    Completes i s fun t => AluFlagsAre s t e r.val r.c r.v r.sat ∧ EngNext [fkey H.ENG_ESR e 0] s t e 1 4 ∧ t.mem = s.mem ∧
      lists t = lists s := by
  have hd : Undirected [fkey H.ENG_ESR e 0] e := (undirected_nil e).cons h.lt (Nat.zero_le _)
  have hk : RegsKept [fkey H.ENG_ESR e 0] (s.engBegin e) ((s.engBegin e).aluFlags e r) :=
    kept_aluFlags (by simp) (kept_refl _ _)
  exact ⟨_, h.exec_plain hi hf hd hk, aluFlags_are (State.get_engBegin h.lt (by decide) (Nat.zero_le _) s)
    (State.get_engTick h.lt (by decide) (Nat.zero_le _) ..), engNext_of_kept h.lt hd.2 hk 1 4,
    by rw [State.engTick_mem, aluFlags_mem, State.engBegin_mem], by rw [lists_engTick, lists_aluFlags, lists_engBegin]⟩

/-! ### The results of R114 -/

theorem aluAdd_eq (x y : Nat) : aluAdd x y =
    { val := (x + y) % 2 ^ 32, c := decide (2 ^ 32 ≤ x + y), v := leaves32 (s32 x + s32 y), sat := false } := by
  rw [leaves32_eq]
  rfl

theorem aluSub_eq (x y : Nat) : aluSub x y =
    { val := (x + 2 ^ 32 - y) % 2 ^ 32, c := decide (y ≤ x), v := leaves32 (s32 x - s32 y), sat := false } := by
  rw [leaves32_eq]
  rfl

theorem aluAdds_eq (x y : Nat) : aluAdds x y =
    { val := trunc 32 (held32 (s32 x + s32 y)), c := decide (2 ^ 32 ≤ x + y), v := leaves32 (s32 x + s32 y),
      sat := leaves32 (s32 x + s32 y) } := by
  rw [held32_eq, leaves32_eq]
  rfl

theorem aluSubs_eq (x y : Nat) : aluSubs x y =
    { val := trunc 32 (held32 (s32 x - s32 y)), c := decide (y ≤ x), v := leaves32 (s32 x - s32 y),
      sat := leaves32 (s32 x - s32 y) } := by
  rw [held32_eq, leaves32_eq]
  rfl

/-- Of a word below 2^32 only −2^31 has a negative that leaves 32 bits. -/
theorem leaves32_neg {x : Nat} (hx : x < 2 ^ 32) : leaves32 (-s32 x) = decide (x = 2 ^ 31) := by
  unfold leaves32 s32 sext
  rw [decide_eq_decide]
  split <;> omega

theorem aluNeg_eq {x : Nat} (hx : x < 2 ^ 32) : aluNeg x =
    { val := trunc 32 (held32 (-s32 x)), c := decide (x = 0), v := decide (x = 2 ^ 31), sat := decide (x = 2 ^ 31) } := by
  have hzero : s32 0 - s32 x = -s32 x := by
    rw [show s32 0 = 0 from rfl, Int.zero_sub]
  rw [aluNeg, aluSubs_eq, hzero, leaves32_neg hx]
  simp only [Nat.le_zero_eq]

theorem neg32_eq {x : Nat} (hx : x < 2 ^ 32) : neg32 x = decide (2 ^ 31 ≤ x) := by
  unfold neg32 bit
  rw [Bool.eq_iff_iff, beq_iff_eq, decide_eq_true_eq]
  omega

theorem asr_eq (v : Int) (n : Nat) : asr v n = v / 2 ^ n := by
  rw [asr, Nat.cast_pow, Nat.cast_ofNat]

theorem aluPlain_lt (v : Nat) : v % 2 ^ 32 < 2 ^ 32 := Nat.mod_lt _ (by decide)

/-- Settles O17: each function is an ALU function of its result, and what such a function leaves is `alu_completes`. -/
theorem aluFunctionsGiveResultAndFlags : Obligations.AluFunctionsGiveResultAndFlags := by
  unfold Obligations.AluFunctionsGiveResultAndFlags
  constructor
  · intro e dd da b s h x y z sh xs ys ok
    refine ⟨?_, ?_, ?_, ?_, ?_, ?_, ?_, ?_, ?_, ?_, ?_, ?_, ?_, ?_⟩
    · exact alu_completes h rfl (aluAdd_eq x y) (aluPlain_lt _)
    · exact alu_completes h rfl (aluSub_eq x y) (aluPlain_lt _)
    · exact alu_completes h rfl (aluSub_eq y x) (aluPlain_lt _)
    · exact alu_completes h rfl (aluAdds_eq x y) (trunc_lt 32 _)
    · exact alu_completes h rfl (aluSubs_eq x y) (trunc_lt 32 _)
    · exact alu_completes h rfl rfl (aluPlain_lt _)
    · exact alu_completes h rfl rfl (aluPlain_lt _)
    · exact alu_completes h rfl rfl (aluPlain_lt _)
    · exact alu_completes h rfl rfl (aluPlain_lt _)
    · exact alu_completes h rfl rfl (aluPlain_lt _)
    · refine alu_completes h rfl ?_ (trunc_lt 32 _)
      rw [aluPlain, Nat.mod_eq_of_lt (trunc_lt 32 _), asr_eq]
      rfl
    · exact alu_completes h rfl rfl (aluPlain_lt _)
    · exact alu_completes h rfl rfl (aluPlain_lt _)
    · exact alu_completes h rfl rfl (aluPlain_lt _)
  · intro e dd da b s h hx x y xs
    refine ⟨?_, alu_completes h rfl (aluNeg_eq hx) (trunc_lt 32 _), fun hpos => ?_, fun hneg => ?_⟩
    · have hcmp := cmp_completes (i := .cmp e da b) (r := aluSub x y) h rfl rfl
      rwa [aluSub_eq] at hcmp
    · refine alu_completes h rfl ?_ hx
      show aluAbs x = _
      rw [aluAbs, neg32_eq hx, decide_eq_false (Nat.not_le.2 hpos), if_neg Bool.false_ne_true]
    · refine alu_completes h rfl ?_ (trunc_lt 32 _)
      show aluAbs x = _
      rw [aluAbs, neg32_eq hx, decide_eq_true hneg, if_pos rfl, aluNeg_eq hx, decide_eq_false (by omega : ¬x = 0)]

end Sys2Proof.Claims
end

section
/-! PROOFS. The accumulator functions of the loop engines, and accumulators in registers (R116, R129, R130). -/

namespace Sys2Proof.Machine

theorem State.bit_flagsZN (t : State) (e : Nat) (z n : Bool) :
    bit ((t.flagsZN e z n).esr e) 0 = z ∧ bit ((t.flagsZN e z n).esr e) 1 = n ∧
    ∀ k < 16, 2 ≤ k → bit ((t.flagsZN e z n).esr e) k = bit (t.esr e) k := by
  have hlow : b2n z + 2 * b2n n < 2 ^ 2 ∧ bit (b2n z + 2 * b2n n) 0 = z ∧ bit (b2n z + 2 * b2n n) 1 = n := by
    revert z n
    decide
  obtain ⟨hx, hz, hn⟩ := hlow
  have hesr : (t.flagsZN e z n).esr e = (t.esr e / 2 ^ 2 * 2 ^ 2 + (b2n z + 2 * b2n n)) % 2 ^ 16 := by
    rw [← Nat.add_assoc]
    exact State.get_put_self ..
  rw [hesr]
  refine ⟨?_, ?_, fun k hk h2 => ?_⟩
  · rwa [bit_mod_two_pow (by decide), bit_lowReplaced hx]
  · rwa [bit_mod_two_pow (by decide), bit_lowReplaced hx]
  · rw [bit_mod_two_pow hk, bit_lowReplaced hx, if_neg (by omega)]

theorem State.flagsZN_mem (t : State) (e : Nat) (z n : Bool) : (t.flagsZN e z n).mem = t.mem := rfl

theorem State.putOld_self (s : State) (e : Nat) (f : Fld) (k v : Nat) : (s.putOld e f k v).get f e k = v % 2 ^ f.width :=
  State.get_put_self ..

theorem State.get_putOld {f g : Fld} {e k l : Nat} (he : e < 16) (h : f.engApart g = true) (hk : k ≤ f.m - 1)
    (hl : l ≤ g.m - 1) (s : State) (v : Nat) : (s.putOld e f k v).get g e l = s.get g e l :=
  State.get_put_engVar he h hk hl ..

end Sys2Proof.Machine

namespace Sys2Proof.Claims
open Sys2Proof.Machine

variable {s t : State} {e : Nat} {ks : List Nat}

theorem leaves80_eq (v : Int) : leaves80 v = govOf v := by
  have h := fitsI_iff 80 v
  cases hf : fitsI 80 v <;> simp [hf, leaves80, govOf] at h ⊢ <;> omega

theorem kept_putOld {f : Fld} {k v : Nat} (hk : fkey f e k ∈ ks) (h : RegsKept ks s t) :
    RegsKept ks s (t.putOld e f k v) := kept_put hk (kept_of_regs rfl h)

theorem kept_putAcc {k : Nat} {v : Int} (ha : fkey H.ENG_A e (k % 4) ∈ ks) (hr : fkey H.ENG_ESR e 0 ∈ ks)
    (h : RegsKept ks s t) : RegsKept ks s (t.putAcc e k v) := kept_esrWhen hr (kept_putOld ha h)

theorem get_putAcc {g : Fld} {l : Nat} (he : e < 16) (h : (H.ENG_ESR.engApart g && H.ENG_A.engApart g) = true)
    (hl : l ≤ g.m - 1) (t : State) (k : Nat) (v : Int) : (t.putAcc e k v).get g e l = t.get g e l := by
  rw [Bool.and_eq_true] at h
  exact (State.get_when_esrPut he h.1 hl ..).trans (State.get_putOld he h.2 (aIndex k) hl ..)

theorem putAcc_self (he : e < 16) (t : State) (k : Nat) (v : Int) :
    (t.putAcc e k v).get H.ENG_A e (k % 4) = trunc 80 v :=
  (State.get_when_esrPut he (by decide) (aIndex k) ..).trans
    ((State.putOld_self ..).trans (Nat.mod_eq_of_lt (trunc_lt 80 v)))

theorem bit_putAcc (he : e < 16) (t : State) (a : Nat) (v : Int) {k : Nat} (hk : k < 16) :
    bit ((t.putAcc e a v).esr e) k = (bit (t.esr e) k || (leaves80 v && decide (k = 4))) := by
  rw [State.putAcc, State.bit_esr_when _ e hk, leaves80_eq]
  exact congrArg (fun x => bit x k || _) (State.get_putOld he (by decide) (aIndex a) (Nat.zero_le _) ..)

theorem putAcc_mem (t : State) (e k : Nat) (v : Int) : (t.putAcc e k v).mem = t.mem := mem_esrWhen ..

theorem putAcc_olds (t : State) (e k : Nat) (v : Int) : (t.putAcc e k v).olds = oldAcc t e k :: t.olds :=
  State.when_same State.olds _ _ rfl

theorem lists_noOlds_engTick (t : State) (e cost pc : Nat) :
    lists { t.engTick e cost pc with olds := [] } = lists { t with olds := [] } := rfl

theorem lists_noOlds_engBegin (s : State) (e : Nat) :
    lists { s.engBegin e with olds := [] } = lists { s with olds := [] } := rfl

theorem putAcc_lists (t : State) (e k : Nat) (v : Int) :
    lists { t.putAcc e k v with olds := [] } = lists { t with olds := [] } :=
  State.when_same (fun t : State => lists { t with olds := [] }) _ _ rfl

/-- A class 0x8 function with its result in Ad: what it leaves (R116, R129). -/
theorem acc_completes {i : Instr} {ad : Nat} {rd : List Nat} {v : State → Int} {w : Int} (h : EngFree s e)
    (hi : exec i s = .next (s.engAcc e ad rd v)) (hv : v s = w) : Completes i s fun t => AccDone s t e ad w := by
  have he := h.lt
  let ks := [fkey H.ENG_A e (ad % 4), fkey H.ENG_ESR e 0]
  have hd : Undirected ks e := ((undirected_nil e).cons he (Nat.zero_le _)).cons he (aIndex ad)
  have hk : RegsKept ks (s.engBegin e) ((s.engBegin e).putAcc e ad w) :=
    kept_putAcc (by simp [ks]) (by simp [ks]) (kept_refl _ _)
  have hesr : (s.engBegin e).esr e = s.esr e := State.get_engBegin he (by decide) (Nat.zero_le _) s
  have hbit : ∀ k < 16, bit ((((s.engBegin e).putAcc e ad w).engTick e 1 (s.get H.ENG_PC e + 4)).esr e) k =
      (bit (s.esr e) k || (leaves80 w && decide (k = 4))) := fun k hk => by
    rw [State.esr, State.get_engTick he (by decide) (Nat.zero_le _), ← State.esr, bit_putAcc he _ _ _ hk, hesr]
  refine ⟨_, h.exec_plain hi (by rw [hv]) hd hk, ?_, ?_, fun k hk h4 => ?_, engNext_of_kept he hd.2 hk 1 4, ?_,
    ?_, ?_⟩
  · exact (State.get_engTick he (by decide) (aIndex ad) ..).trans (putAcc_self he ..)
  · simpa using hbit 4 (by decide)
  · simpa [h4] using hbit k hk
  · rw [State.engTick_mem, putAcc_mem, State.engBegin_mem]
  · rw [State.engTick_olds, putAcc_olds, State.engBegin_olds, oldAcc, State.get_engBegin he (by decide) (aIndex ad), oldAcc]
  · rw [lists_noOlds_engTick, putAcc_lists, lists_noOlds_engBegin]

/-! ### Accumulators in registers (R130) -/

theorem kept_putSat {dr : Nat} {v : Int} (hd : fkey H.ENG_D e (dr % 16) ∈ ks) (hr : fkey H.ENG_ESR e 0 ∈ ks)
    (h : RegsKept ks s t) : RegsKept ks s (t.putSat e dr v) := kept_esrWhen hr (kept_put hd h)

theorem dreg_putSat (he : e < 16) (t : State) (dr : Nat) (v : Int) : (t.putSat e dr v).dreg e dr = trunc 32 (held32 v) := by
  rw [held32_eq]
  exact (State.get_when_esrPut he (by decide) (dIndex dr) ..).trans (State.get_put_of_lt _ _ _ (trunc_lt 32 _))

theorem bit_putSat (he : e < 16) (t : State) (dr : Nat) (v : Int) :
    bit ((t.putSat e dr v).esr e) 5 = (bit (t.esr e) 5 || leaves32 v) := by
  rw [State.putSat, State.bit_esr_when _ e (by decide), leaves32_eq, decide_eq_true rfl, Bool.and_true]
  exact congrArg (fun x => bit x 5 || _) (State.get_put_engVar he (by decide) (dIndex dr) (Nat.zero_le _) ..)

theorem putSat_mem (t : State) (e dr : Nat) (v : Int) : (t.putSat e dr v).mem = t.mem := mem_esrWhen ..

theorem lists_putSat (t : State) (e dr : Nat) (v : Int) : lists (t.putSat e dr v) = lists t := lists_esrWhen ..

theorem dreg_ne {i j : Nat} (h : i % 16 ≠ j % 16) : fkey H.ENG_D e (i % 16) ≠ fkey H.ENG_D e (j % 16) := by
  simp only [fkey, H.ENG_D]
  omega

theorem mva_completes (h : EngFree s e) (dr src sh : Nat) (rnd : Bool) :
    Completes (.mva e dr src sh rnd) s fun t => t.dreg e dr = trunc 32 (held32 (rndShift (s.acc e src) (sh % 64) rnd)) ∧
      bit (t.esr e) 5 = (bit (s.esr e) 5 || leaves32 (rndShift (s.acc e src) (sh % 64) rnd)) ∧
      EngNext [fkey H.ENG_D e (dr % 16), fkey H.ENG_ESR e 0] s t e 1 4 ∧ t.mem = s.mem ∧ lists t = lists s := by
  have he := h.lt
  generalize hv : rndShift (s.acc e src) (sh % 64) rnd = v
  let ks := [fkey H.ENG_D e (dr % 16), fkey H.ENG_ESR e 0]
  have hd : Undirected ks e := ((undirected_nil e).cons he (Nat.zero_le _)).cons he (dIndex dr)
  have hk : RegsKept ks (s.engBegin e) ((s.engBegin e).putSat e dr v) :=
    kept_putSat (by simp [ks]) (by simp [ks]) (kept_refl _ _)
  have hesr : (s.engBegin e).esr e = s.esr e := State.get_engBegin he (by decide) (Nat.zero_le _) s
  refine ⟨_, h.exec_plain rfl (by rw [h.accOld, hv]) hd hk, ?_, ?_, engNext_of_kept he hd.2 hk 1 4,
    by rw [State.engTick_mem, putSat_mem, State.engBegin_mem], by rw [lists_engTick, lists_putSat, lists_engBegin]⟩
  · exact (State.get_engTick he (by decide) (dIndex dr) ..).trans (dreg_putSat he ..)
  · rw [State.esr, State.get_engTick he (by decide) (Nat.zero_le _), ← State.esr, bit_putSat he, hesr]

theorem sout_completes (h : EngFree s e) (dr src dk : Nat) (rnd : Bool) :
    let w := rndShift (s.acc e src) (30 - s.dreg e dk % 8) rnd
    Completes (.sout e dr src dk rnd) s fun t => (dr % 16 ≠ dk % 16 → t.dreg e dr = trunc 32 (held32 w)) ∧
      t.dreg e dk = s.dreg e dk / 8 % 2 ^ 32 ∧ bit (t.esr e) 5 = (bit (s.esr e) 5 || leaves32 w) ∧
      EngNext [fkey H.ENG_D e (dr % 16), fkey H.ENG_D e (dk % 16), fkey H.ENG_ESR e 0] s t e 1 4 ∧ t.mem = s.mem ∧
      lists t = lists s := by
  intro w
  have he := h.lt
  let ks := [fkey H.ENG_D e (dr % 16), fkey H.ENG_D e (dk % 16), fkey H.ENG_ESR e 0]
  let u := ((s.engBegin e).putSat e dr w).putD e dk (s.dreg e dk / 8)
  have hd : Undirected ks e :=
    (((undirected_nil e).cons he (Nat.zero_le _)).cons he (dIndex dk)).cons he (dIndex dr)
  have hk : RegsKept ks (s.engBegin e) u :=
    kept_put (by simp [ks]) (kept_putSat (by simp [ks]) (by simp [ks]) (kept_refl _ _))
  have hesr : (s.engBegin e).esr e = s.esr e := State.get_engBegin he (by decide) (Nat.zero_le _) s
  refine ⟨_, h.exec_plain (u := u) rfl (by rw [h.accOld]) hd hk, fun hne => ?_, ?_, ?_, engNext_of_kept he hd.2 hk 1 4,
    by rw [State.engTick_mem, State.putD_mem, putSat_mem, State.engBegin_mem],
    by rw [lists_engTick, lists_putD, lists_putSat, lists_engBegin]⟩
  · exact (State.get_engTick he (by decide) (dIndex dr) ..).trans
      ((State.get_put_ne _ _ (dreg_ne (Ne.symm hne))).trans (dreg_putSat he ..))
  · exact (State.get_engTick he (by decide) (dIndex dk) ..).trans (State.get_put_self ..)
  · have hu : u.esr e = ((s.engBegin e).putSat e dr w).esr e :=
      State.get_put_engVar he (by decide) (dIndex dk) (Nat.zero_le _) ..
    rw [State.esr, State.get_engTick he (by decide) (Nat.zero_le _), ← State.esr, hu, bit_putSat he, hesr]

theorem lists_flagsZN (t : State) (e : Nat) (z n : Bool) : lists (t.flagsZN e z n) = lists t := rfl

theorem tsta_completes (h : EngFree s e) (src : Nat) :
    Completes (.tsta e src) s fun t => bit (t.esr e) 0 = decide (s.acc e src = 0) ∧
      bit (t.esr e) 1 = decide (s.acc e src < 0) ∧ (∀ k < 16, 2 ≤ k → bit (t.esr e) k = bit (s.esr e) k) ∧
      EngNext [fkey H.ENG_ESR e 0] s t e 1 4 ∧ t.mem = s.mem ∧ lists t = lists s := by
  have he := h.lt
  let u := (s.engBegin e).flagsZN e (s.acc e src == 0) (decide (s.acc e src < 0))
  have hd : Undirected [fkey H.ENG_ESR e 0] e := (undirected_nil e).cons he (Nat.zero_le _)
  have hk : RegsKept [fkey H.ENG_ESR e 0] (s.engBegin e) u := kept_put (by simp) (kept_refl _ _)
  have hesr : (s.engBegin e).esr e = s.esr e := State.get_engBegin he (by decide) (Nat.zero_le _) s
  have htick : (u.engTick e 1 (s.get H.ENG_PC e + 4)).esr e = u.esr e := State.get_engTick he (by decide) (Nat.zero_le _) ..
  obtain ⟨hz, hn, hrest⟩ := (s.engBegin e).bit_flagsZN e (s.acc e src == 0) (decide (s.acc e src < 0))
  refine ⟨_, h.exec_plain (u := u) rfl (by rw [h.accOld]) hd hk, ?_, ?_, fun k hk16 h2 => ?_, engNext_of_kept he hd.2 hk 1 4,
    by rw [State.engTick_mem, State.flagsZN_mem, State.engBegin_mem],
    by rw [lists_engTick, lists_flagsZN, lists_engBegin]⟩
  · rw [htick, hz, beq_eq_decide]
  · rw [htick, hn]
  · rw [htick, hrest k hk16 h2, hesr]

theorem ldad_completes (h : EngFree s e) (ad src sh : Nat) :
    Completes (.ldad e ad src sh) s fun t =>
      t.get H.ENG_A e (ad % 4) = trunc 80 (s32 (s.dreg e src) * 2 ^ (sh % 64)) ∧ t.mem = s.mem ∧
      EngNext [fkey H.ENG_A e (ad % 4)] s t e 1 4 := by
  have he := h.lt
  generalize hv : trunc 80 (s32 (s.dreg e src) * 2 ^ (sh % 64)) = v
  have hlt : v < 2 ^ 80 := hv ▸ trunc_lt 80 _
  have hd : Undirected [fkey H.ENG_A e (ad % 4)] e := (undirected_nil e).cons he (aIndex ad)
  have hk : RegsKept [fkey H.ENG_A e (ad % 4)] (s.engBegin e) ((s.engBegin e).putOld e H.ENG_A (ad % 4) v) :=
    kept_putOld (by simp) (kept_refl _ _)
  refine ⟨_, h.exec_plain rfl (by rw [Nat.cast_pow, Nat.cast_ofNat, hv]) hd hk, ?_,
    by rw [State.engTick_mem, State.putOld_mem, State.engBegin_mem],
    engNext_of_kept he hd.2 hk 1 4⟩
  exact (State.get_engTick he (by decide) (aIndex ad) ..).trans ((State.putOld_self ..).trans (Nat.mod_eq_of_lt hlt))

/-- Settles O21: a function with its result in Ad is `acc_completes` at its value, where As is read as it stands, and each of
the others has its lemma. -/
theorem accumulatorFunctionsAndOutputs : Obligations.AccumulatorFunctionsAndOutputs := by
  unfold Obligations.AccumulatorFunctionsAndOutputs
  constructor
  · intro e ad src sh s h ok
    refine ⟨?_, ?_, ?_, ?_, ?_, ?_, ?_, ldad_completes h ad src sh⟩
    · exact acc_completes h rfl rfl
    · exact acc_completes h rfl (h.accOld src)
    · exact acc_completes h rfl (by rw [h.accOld, h.accOld])
    · exact acc_completes h rfl (by rw [h.accOld, h.accOld])
    · exact acc_completes h rfl (by rw [h.accOld])
    · exact acc_completes h rfl (by rw [h.accOld, Nat.cast_pow, Nat.cast_ofNat])
    · exact acc_completes h rfl (by rw [h.accOld, asr_eq])
  · intro e dr src sh dk rnd s h v w
    exact ⟨mva_completes h dr src sh rnd, sout_completes h dr src dk rnd, tsta_completes h src⟩

end Sys2Proof.Claims
end

section
/-! PROOFS. Loads of the loop engines, the far load, and the long immediates (R111, R113, R121, R122). -/

namespace Sys2Proof.Machine

variable {s : State}

/-! ### Arrays without errors -/

theorem State.engErr_of_clean (h : s.arrErrs = []) (e m a : Nat) : s.engErr e m a = 0 := by
  unfold State.engErr State.errBits
  rw [h]
  rfl

theorem State.engCe_of_clean (h : s.arrErrs = []) (e m : Nat) (as : List Nat) : s.engCe e m as = s := by
  refine State.each_induction (P := (· = s)) (fun t a _ ht => ?_) rfl
  rw [ht, State.engErr_of_clean h, if_neg (by decide)]

theorem State.memExc_of_clean (h : s.arrErrs = []) {e m a size : Nat} (ha : a % size = 0) : s.memExc e m a size = 0 := by
  unfold State.memExc
  simp [ha, State.engErr_of_clean h]

/-! ### Loads and the step of their pointer -/

@[simp] theorem State.putLate_mem (t : State) (e : Nat) (f : Fld) (k v : Nat) : (t.putLate e f k v).mem = t.mem := rfl

theorem State.postMod_mem (t s : State) (e : Nat) (m : MemRef) : (t.postMod s e m).mem = t.mem := by
  unfold State.postMod
  split <;> rfl

theorem State.postMod_late (t s : State) (e : Nat) (m : MemRef) : (t.postMod s e m).late = t.late := by
  unfold State.postMod
  split <;> rfl

theorem State.postMod_pointer (t s : State) (e : Nat) (m : MemRef) : (t.postMod s e m).get H.ENG_P e (m.p % 8) =
    if m.am = 1 ∨ m.am = 2 then s.memPost e m % 2 ^ 16 else t.get H.ENG_P e (m.p % 8) := by
  unfold State.postMod
  split
  · exact State.get_put_self ..
  · rfl

end Sys2Proof.Machine

namespace Sys2Proof.Claims
open Sys2Proof.Machine

variable {s t : State} {e : Nat} {ks : List Nat}

theorem kept_putLate {f : Fld} {k v : Nat} (h : RegsKept ks s t) : RegsKept ks s (t.putLate e f k v) := kept_of_regs rfl h

theorem kept_postMod {m : MemRef} (u : State) (hk : fkey H.ENG_P e (m.p % 8) ∈ ks) (h : RegsKept ks s t) :
    RegsKept ks s (t.postMod u e m) := by
  unfold State.postMod
  split
  · exact kept_put hk h
  · exact h

/-- A load from engine memory: its value lands one instruction later, and its pointer moves where the mode says so. -/
theorem load_completes {i : Instr} {m : MemRef} {exc : State → Nat} {wr : State → Bool} {g : State → State → State}
    {f : Fld} {k v : Nat} {as : List Nat} (h : EngFree s e) (harr : s.arrErrs = [])
    (hi : exec i s = .next (s.engRun e false [] exc wr 1 4 g)) (hx : exc s = 0)
    (hg : g s (s.engBegin e) = (((s.engBegin e).engCe e (memOf m) as).putLate e f k v).postMod s e m) :
    Completes i s fun t => t.late = s.late ++ [{ eng := e, fld := f, idx := k, val := v }] ∧
      (t.get H.ENG_P e (m.p % 8) =
        if m.am = 1 ∨ m.am = 2 then s.memPost e m % 2 ^ 16 else s.get H.ENG_P e (m.p % 8)) ∧
      EngNext [fkey H.ENG_P e (m.p % 8)] s t e 1 4 ∧ t.mem = s.mem := by
  have he := h.lt
  rw [State.engCe_of_clean (by rw [State.engBegin_arrErrs, harr])] at hg
  have hd : Undirected [fkey H.ENG_P e (m.p % 8)] e := (undirected_nil e).cons he (pIndex m.p)
  have hk : RegsKept [fkey H.ENG_P e (m.p % 8)] (s.engBegin e) (((s.engBegin e).putLate e f k v).postMod s e m) :=
    kept_postMod s (by simp) (kept_putLate (kept_refl _ _))
  have hptr : ((s.engBegin e).putLate e f k v).get H.ENG_P e (m.p % 8) = s.get H.ENG_P e (m.p % 8) :=
    State.get_engBegin he (by decide) (pIndex m.p) s
  refine ⟨_, h.exec_run hi hx hg hd hk, ?_, ?_, engNext_of_kept he hd.2 hk 1 4, ?_⟩
  · rw [State.engTick_late, State.postMod_late]
    rfl
  · rw [State.get_engTick he (by decide) (pIndex m.p), State.postMod_pointer, hptr]
  · rw [State.engTick_mem, State.postMod_mem, State.putLate_mem, State.engBegin_mem]

/-- A far load is issued (R121). -/
theorem farLoad_completes (h : EngFree s e) (k : Nat) {p : Nat} (hp : s.dreg e p % 4 = 0) :
    Completes (.farLoad e k p) s fun t => t.get H.ENG_FARD e = k % 16 ∧ t.get H.ENG_FARA e = s.dreg e p % 2 ^ 22 ∧
      bit (t.esr e) 11 = true ∧ EngNext [fkey H.ENG_FARD e 0, fkey H.ENG_FARA e 0, fkey H.ENG_ESR e 0] s t e 1 4 ∧
      t.mem = s.mem := by
  have he := h.lt
  let ks := [fkey H.ENG_FARD e 0, fkey H.ENG_FARA e 0, fkey H.ENG_ESR e 0]
  let a := ((s.engBegin e).put H.ENG_FARD (k % 16) e).put H.ENG_FARA (s.dreg e p) e
  have hd : Undirected ks e :=
    (((undirected_nil e).cons he (Nat.zero_le _)).cons he (Nat.zero_le _)).cons he (Nat.zero_le _)
  have hk : RegsKept ks (s.engBegin e) (a.esrPut e 11 true) :=
    kept_put (by simp [ks]) (kept_put (by simp [ks]) (kept_put (by simp [ks]) (kept_refl _ _)))
  have hx : (if s.dreg e p % 4 ≠ 0 then 4 else 0) = 0 := if_neg (not_not_intro hp)
  refine ⟨_, h.exec_run rfl hx rfl hd hk, ?_, ?_, ?_, engNext_of_kept he hd.2 hk 1 4, ?_⟩
  · have hself : a.get H.ENG_FARD e = k % 16 := by
      refine (State.get_put_engVar he (by decide) (Nat.zero_le _) (Nat.zero_le _) ..).trans ((State.get_put_self ..).trans ?_)
      exact Nat.mod_mod_of_dvd k (by decide)
    exact (State.get_engTick he (by decide) (Nat.zero_le _) ..).trans
      ((State.get_put_engVar he (by decide) (Nat.zero_le _) (Nat.zero_le _) ..).trans hself)
  · exact (State.get_engTick he (by decide) (Nat.zero_le _) ..).trans
      ((State.get_put_engVar he (by decide) (Nat.zero_le _) (Nat.zero_le _) ..).trans (State.get_put_self ..))
  · have hbit := State.bit_esr_when a e (j := 11) (k := 11) (by decide) true
    rw [State.when_true, decide_eq_true rfl, Bool.and_true, Bool.or_true] at hbit
    rwa [State.esr, State.get_engTick he (by decide) (Nat.zero_le _)]
  · rw [State.engTick_mem]
    rfl

/-- The second word of a long instruction goes into a register at once (R113). -/
theorem long_completes {i : Instr} {rd : List Nat} {wr : State → Bool} {g : State → State → State} {f : Fld} {j v : Nat}
    (h : EngFree s e) (hi : exec i s = .next (s.engRun e false rd (fun s => s.delayIllegal e) wr 2 8 g))
    (hg : g s (s.engBegin e) = (s.engBegin e).put f v e j) (hj : j ≤ f.m - 1)
    (hf : (H.ENG_DLY.engApart f && H.ENG_ECYC.engApart f) = true)
    (ht : (H.ENG_ECYC.engApart f && H.ENG_BUSY.engApart f && H.ENG_PC.engApart f) = true) :
    Completes i s fun t => t.get f e j = v % 2 ^ f.width ∧ EngNext [fkey f e j] s t e 2 8 ∧ t.mem = s.mem ∧
      lists t = lists s := by
  have he := h.lt
  have hd : Undirected [fkey f e j] e := (undirected_nil e).cons he hj hf
  have hk : RegsKept [fkey f e j] (s.engBegin e) ((s.engBegin e).put f v e j) := kept_put (by simp) (kept_refl _ _)
  have hx : s.delayIllegal e = 0 := by
    rw [State.delayIllegal, h.noDelay, if_neg Bool.false_ne_true]
  refine ⟨_, h.exec_run hi hx hg hd hk, ?_, engNext_of_kept he hd.2 hk 2 8, ?_, ?_⟩
  · exact (State.get_engTick he ht hj ..).trans (State.get_put_self ..)
  · rw [State.engTick_mem, State.put_mem, State.engBegin_mem]
  · rw [lists_engTick, lists_put, lists_engBegin]

/-- The word of a far load arrives (R121). -/
theorem farLoadArrival_completes (he : e < 16) (hp : bit (s.esr e) 11 = true) :
    Completes (.farLoadArrival e) s fun t =>
      t.get H.ENG_D e (s.get H.ENG_FARD e % 16) = s.storeWord (s.get H.ENG_FARA e / 4 * 4) % 2 ^ 32 ∧
      bit (t.esr e) 11 = false ∧ OnlyRegs [fkey H.ENG_D e (s.get H.ENG_FARD e % 16), fkey H.ENG_ESR e 0] s t := by
  have hexec : exec (.farLoadArrival e) s = .next (s.farArrive e) := by
    show execFarLoadArrival e s = _
    rw [execFarLoadArrival, if_pos ⟨he, hp⟩]
  let a := s.putD e (s.get H.ENG_FARD e) (s.storeWord (s.get H.ENG_FARA e / 4 * 4))
  refine ⟨_, hexec, ?_, ?_, ?_⟩
  · exact (State.get_put_engVar he (by decide) (Nat.zero_le _) (dIndex _) a _).trans (State.get_put_self ..)
  · have hself : (s.farArrive e).esr e = clrBit (a.esr e) 11 % 2 ^ 16 := State.get_put_self ..
    rw [hself, bit_mod_two_pow (by decide), bit_clrBit]
  · exact ((OnlyRegs.refl _ s).put (by simp) _).put (by simp) _

/-- The load of the instruction before lands with a NOP (R122). -/
theorem nop_landing_completes {k v : Nat} (h : EngTurn s e) (hk : k < 16)
    (hl : s.late = [{ eng := e, fld := H.ENG_D, idx := k, val := v }]) :
    Completes (.nop e) s fun t => t.get H.ENG_D e k = v % 2 ^ 32 ∧ t.late = [] ∧ EngNext [fkey H.ENG_D e k] s t e 1 4 ∧
      t.mem = s.mem := by
  have he := h.lt
  have hkm : k ≤ H.ENG_D.m - 1 := Nat.le_of_lt_succ hk
  have hland : s.landLate e = { s.put H.ENG_D v e k with late := [], olds := s.olds.filter fun x => x.eng != e } := by
    unfold State.landLate
    simp only [hl, List.filter_cons, List.filter_nil, beq_self_eq_true, if_true, State.each, List.foldl_cons,
      List.foldl_nil, State.put_late, State.put_olds, bne_self_eq_false, Bool.false_eq_true, if_false]
  let u := (s.landLate e).engBegin e
  have hu : RegsKept (engPlaces e ++ [fkey H.ENG_D e k]) s u := by
    refine kept_put (by simp [engPlaces]) (kept_put (by simp [engPlaces]) ?_)
    rw [hland]
    exact kept_of_regs rfl (kept_put (by simp) (kept_refl _ _))
  have hget : ∀ {g : Fld}, (H.ENG_BT.engApart g && H.ENG_WL.engApart g) = true → H.ENG_D.engApart g = true →
      u.get g e = s.get g e := fun hb hg => by
    refine (State.get_engBegin he hb (Nat.zero_le _) _).trans ?_
    rw [hland]
    exact State.get_put_engVar he hg hkm (Nat.zero_le _) ..
  have hrun : exec (.nop e) s = .next (u.engTick e 1 (s.get H.ENG_PC e + 4)) := by
    refine h.exec_run rfl rfl rfl ?_
    rw [State.inDelay, hget (by decide) (by decide), ← State.inDelay, h.noDelay, Bool.false_and]
  refine ⟨_, hrun, ?_, ?_, ?_, ?_⟩
  · refine (State.get_engTick he (by decide) hkm ..).trans ((State.get_engBegin he (by decide) hkm _).trans ?_)
    rw [hland]
    exact State.get_put_self ..
  · rw [State.engTick_late, State.engBegin_late, hland]
  · exact engNext_of_cycles he hu (hget (by decide) (by decide)) 1 4
  · rw [State.engTick_mem, State.engBegin_mem, hland]
    rfl

/-- Settles O18: LD32 and LDA are `load_completes`, LDI and LDIA `long_completes`, and each far event has its lemma. -/
theorem engineLoadsReachRegisters : Obligations.EngineLoadsReachRegisters := by
  unfold Obligations.EngineLoadsReachRegisters
  constructor
  · intro e k v sh m s h harr a ptr
    refine ⟨fun ha => ?_, fun ha => ?_, fun hp => farLoad_completes h k hp, ?_, ?_⟩
    · exact load_completes h harr rfl (State.memExc_of_clean harr ha) rfl
    · exact load_completes h harr rfl (State.memExc_of_clean harr ha) rfl
    · exact long_completes h rfl rfl (dIndex k) (by decide) (by decide)
    · obtain ⟨t, ht, hval, hrest⟩ := long_completes (i := .ldia e k sh v) h rfl rfl (aIndex k) (by decide) (by decide)
      refine ⟨t, ht, hval.trans ?_, hrest⟩
      rw [Nat.mod_eq_of_lt (show _ < 2 ^ H.ENG_A.width from trunc_lt 80 _), Nat.cast_pow, Nat.cast_ofNat]
  · intro e k v s
    exact ⟨fun he hp => farLoadArrival_completes he hp, fun h hk hl => nop_landing_completes h hk hl⟩

end Sys2Proof.Claims
end

section
/-! PROOFS. Multiplications with their parallel moves, and the tap of a delay line (R111, R115, R117, R129). -/

namespace Sys2Proof.Machine

variable {s t : State}

/-! ### Words of memory -/

theorem State.load_congr (h : t.mem = s.mem) (a n : Nat) : t.load a n = s.load a n := by
  unfold State.load State.bytes State.byte
  rw [h]

theorem State.load_store_word (s : State) (a v : Nat) : (s.store a 4 v).load a 4 = v % 2 ^ 32 := by
  have hbytes : (s.store a 4 v).bytes a 4 = (toBytes 4 v).map (· % 256) := by
    refine List.ext_getElem (by simp) fun k hk hk' => ?_
    rw [State.bytes_getElem, List.getElem_map]
    exact State.byte_setBytes_in ..
  have hlow : toBytes 4 v = toBytes 4 (v % 2 ^ 32) := by
    simp only [toBytes]
    refine congrArg₂ _ (by omega) (congrArg₂ _ (by omega) (congrArg₂ _ (by omega) (congrArg₂ _ (by omega) rfl)))
  rw [State.load, hbytes, hlow]
  exact ofBytes_toBytes (Nat.mod_lt _ (by decide))

theorem State.slotAt_congr {e : Nat} (h : ∀ k < 32, t.get H.ENG_SLOT e k = s.get H.ENG_SLOT e k) (m a : Nat) :
    t.slotAt e m a = s.slotAt e m a := by
  unfold State.slotAt
  dsimp only
  split
  · rw [h ((a - 0x4000) / 0x280) (by omega)]
  · split
    · rw [h ((a - 0x4000) / 0x180) (by omega)]
    · rfl

theorem State.errFix_of_clean (h : s.arrErrs = []) (arr off : Nat) : s.errFix arr off = s := by
  unfold State.errFix
  rw [h, List.filter_nil, ← h]

/-- A word of engine memory outside the record slots is stored where it lies. -/
theorem State.putEngWord_of_plain (h : s.arrErrs = []) {e m a : Nat} (hs : s.slotAt e m a = none) (v : Nat) :
    s.putEngWord e m a v = s.store (engMem e m + a) 4 v := by
  unfold State.putEngWord
  rw [State.errFix_of_clean h]
  simp only [hs]

/-- The load of a Y move. -/
def State.yLoad (t s : State) (e : Nat) (y : YMove) : State :=
  if y.wide then t.putLate e H.ENG_A (y.dst % 4) (trunc 80 (sext 64 (s.engWord2 e 1 (s.yAddr e y))))
  else t.putLate e H.ENG_D (y.dst % 8) (s.engWord e 1 (s.yAddr e y))

/-- The accumulations of one or two MAC units (R115). -/
def State.units (t s : State) (e op ac da db : Nat) : Option MacUnit → State
  | some u => (t.macUnit s e op ac (da % 8) (db % 8)).macUnit s e u.op u.ac (u.da % 8) (u.db % 8)
  | none => t.macUnit s e op ac (da % 8) (db % 8)

end Sys2Proof.Machine

namespace Sys2Proof.Claims
open Sys2Proof.Machine

variable {s t u : State} {e : Nat} {ks : List Nat}

/-! ### The parallel moves -/

/-- The lists of the state, without the loads that wait and the older values. -/
def unloaded (s : State) : State := lists { s with late := [], olds := [] }

/-- The places that parallel moves write: the pointers of the engine, and the count of the free values. -/
def movePlaces (e : Nat) : List Nat := fkey H.FREE 0 0 :: (List.range 8).map fun k => fkey H.ENG_P e k

/-- What parallel moves leave: every other register, memory, the loads that wait already, and every other list. -/
structure Moved (e : Nat) (s t : State) : Prop where
  regs : RegsKept (movePlaces e) s t
  mem : t.mem = s.mem
  late : ∀ x ∈ s.late, x ∈ t.late
  rest : unloaded t = unloaded s

theorem Moved.refl (e : Nat) (s : State) : Moved e s s := ⟨kept_refl _ s, rfl, fun _ h => h, rfl⟩

theorem Moved.trans (h : Moved e s t) (k : Moved e t u) : Moved e s u :=
  ⟨kept_step h.regs k.regs, k.mem.trans h.mem, fun x hx => k.late x (h.late x hx), k.rest.trans h.rest⟩

theorem pointer_mem_movePlaces {k : Nat} (hk : k < 8) : fkey H.ENG_P e k ∈ movePlaces e :=
  List.mem_cons_of_mem _ (List.mem_map.2 ⟨k, List.mem_range.2 hk, rfl⟩)

theorem Moved.pointer (h : Moved e s t) {k : Nat} (hk : k < 8) (v : Nat) : Moved e s (t.put H.ENG_P v e k) :=
  ⟨kept_put (pointer_mem_movePlaces hk) h.regs, h.mem, h.late, h.rest⟩

theorem Moved.putLate (h : Moved e s t) (f : Fld) (k v : Nat) : Moved e s (t.putLate e f k v) :=
  ⟨kept_of_regs rfl h.regs, h.mem, fun x hx => List.mem_append_left _ (h.late x hx), h.rest⟩

theorem Moved.arrErrs (h : Moved e s t) : t.arrErrs = s.arrErrs := (congrArg State.arrErrs h.rest :)

theorem Moved.get {g : Fld} {l : Nat} (h : Moved e s t) (he : e < 16)
    (hg : (H.ENG_P.engApart g && H.FREE.disjoint g) = true) (hl : l ≤ g.m - 1) : t.get g e l = s.get g e l := by
  rw [Bool.and_eq_true] at hg
  refine h.regs _ _ _ (List.not_mem_cons_of_ne_of_not_mem ?_ fun hm => ?_)
  · have hn : g.n = 16 := by
      have := hg.1
      simp only [Fld.engApart, Bool.and_eq_true, beq_iff_eq] at this
      exact this.1.2
    exact Ne.symm (fkey_ne_of_disjoint hg.2 (Nat.zero_le _) (Nat.zero_le _) (by omega) hl)
  · obtain ⟨k, hk, heq⟩ := List.mem_map.1 hm
    exact engKey_ne he hg.1 (Nat.le_of_lt_succ (List.mem_range.1 hk)) hl heq

theorem xMove_eq (h : t.arrErrs = []) (s : State) (e : Nat) (x : XMove) : t.xMove s e x =
    (t.putLate e H.ENG_D (x.dx % 8) (s.engWord e 0 (s.xAddr e x))).put H.ENG_P
      (ptrMove (s.xAddr e x) (s.mLen e (x.px % 4)) (if x.byN then s.nOfs e (x.px % 4) else 4)) e (x.px % 4) := by
  unfold State.xMove
  rw [State.engCe_of_clean h]
  rfl

theorem xMove_moved (h : t.arrErrs = []) (s : State) (e : Nat) (x : XMove) : Moved e t (t.xMove s e x) := by
  rw [xMove_eq h]
  exact ((Moved.refl e t).putLate ..).pointer (by omega) _

theorem xMove_late (h : t.arrErrs = []) (s : State) (e : Nat) (x : XMove) : (t.xMove s e x).late =
    t.late ++ [{ eng := e, fld := H.ENG_D, idx := x.dx % 8, val := s.engWord e 0 (s.xAddr e x) }] := by
  rw [xMove_eq h]
  rfl

/-- A Y move is its load and, in three of its modes, the step of its pointer. -/
theorem yMove_eq (h : t.arrErrs = []) (s : State) (e : Nat) (y : YMove) :
    t.yMove s e y = t.yLoad s e y ∨ ∃ p, t.yMove s e y = (t.yLoad s e y).put H.ENG_P p e (4 + y.py % 4) := by
  unfold State.yMove State.yLoad
  simp only [State.engCe_of_clean h]
  split
  · exact .inl rfl
  · exact .inr ⟨_, rfl⟩
  · exact .inr ⟨_, rfl⟩
  · exact .inr ⟨_, rfl⟩

theorem yLoad_moved (t s : State) (e : Nat) (y : YMove) : Moved e t (t.yLoad s e y) := by
  unfold State.yLoad
  split <;> exact (Moved.refl e t).putLate ..

theorem yMove_moved (h : t.arrErrs = []) (s : State) (e : Nat) (y : YMove) : Moved e t (t.yMove s e y) := by
  rcases yMove_eq h s e y with hy | ⟨p, hy⟩ <;> rw [hy]
  · exact yLoad_moved t s e y
  · exact (yLoad_moved t s e y).pointer (by omega) p

theorem yMove_mem (h : t.arrErrs = []) (s : State) (e : Nat) {y : YMove} (hw : y.wide = false) :
    { eng := e, fld := H.ENG_D, idx := y.dst % 8, val := s.engWord e 1 (s.yAddr e y) } ∈ (t.yMove s e y).late := by
  have hl : (t.yMove s e y).late = (t.yLoad s e y).late := by
    rcases yMove_eq h s e y with hy | ⟨p, hy⟩ <;> rw [hy]
    rfl
  rw [hl, State.yLoad, hw, if_neg Bool.false_ne_true]
  exact List.mem_append_right _ (List.mem_singleton_self _)

theorem useFree_moved (h : Moved e s t) : Moved e s t.useFree :=
  ⟨kept_put (List.mem_cons_self ..) h.regs, h.mem, h.late, h.rest⟩

/-- Both moves, and the free value of a register that both of them load. -/
theorem moves_pair (t s : State) (e : Nat) (x : XMove) (y : YMove) :
    Moved e ((t.xMove s e x).yMove s e y) (t.moves s e (some x) (some y)) := by
  unfold State.moves
  dsimp only
  split
  · exact useFree_moved ((Moved.refl e _).putLate ..)
  · exact Moved.refl e _

/-- What the loads of the parallel moves hand on (R115, R122). -/
def MovesLoad (s : State) (e : Nat) (x : Option XMove) (y : Option YMove) (t : State) : Prop :=
  (∀ m, x = some m →
    { eng := e, fld := H.ENG_D, idx := m.dx % 8, val := s.engWord e 0 (s.xAddr e m) } ∈ t.late) ∧
  (∀ m, y = some m → m.wide = false →
    { eng := e, fld := H.ENG_D, idx := m.dst % 8, val := s.engWord e 1 (s.yAddr e m) } ∈ t.late)

theorem xMove_mem (h : t.arrErrs = []) (s : State) (e : Nat) (x : XMove) :
    { eng := e, fld := H.ENG_D, idx := x.dx % 8, val := s.engWord e 0 (s.xAddr e x) } ∈ (t.xMove s e x).late := by
  rw [xMove_late h]
  exact List.mem_append_right _ (List.mem_singleton_self _)

/-- The parallel moves of an instruction: what they leave, and the loads they hand on. -/
theorem moves_moved (h : t.arrErrs = []) (s : State) (e : Nat) (x : Option XMove) (y : Option YMove) :
    Moved e t (t.moves s e x y) ∧ MovesLoad s e x y (t.moves s e x y) := by
  cases x with
  | none =>
    cases y with
    | none => exact ⟨Moved.refl e t, nofun, nofun⟩
    | some y => exact ⟨yMove_moved h s e y, nofun, fun m hm hw => by cases hm; exact yMove_mem h s e hw⟩
  | some x =>
    cases y with
    | none => exact ⟨xMove_moved h s e x, fun m hm => by cases hm; exact xMove_mem h s e x, nofun⟩
    | some y =>
      have hx := xMove_moved h s e x
      have hc : (t.xMove s e x).arrErrs = [] := hx.arrErrs.trans h
      have hy := yMove_moved hc s e y
      have hend := moves_pair t s e x y
      refine ⟨hx.trans (hy.trans hend), fun m hm => ?_, fun m hm hw => ?_⟩ <;> cases hm
      · exact hend.late _ (hy.late _ (xMove_mem h s e x))
      · exact hend.late _ (yMove_mem hc s e hw)

/-! ### The MAC units -/

/-- What a MAC unit leaves in its accumulator, before it is held to 80 bits. -/
def unitVal (s : State) (e op ac da db : Nat) : Int := macVal op (s.acc e ac) (s.product e (da % 8) (db % 8))

/-- Whether the sum of the second unit leaves 80 bits. -/
def secondLeaves (s : State) (e : Nat) : Option MacUnit → Bool
  | some u => leaves80 (unitVal s e u.op u.ac u.da u.db)
  | none => false

theorem get_putAcc_ne {j k : Nat} (he : e < 16) (h : j % 4 ≠ k % 4) (t : State) (v : Int) :
    (t.putAcc e k v).get H.ENG_A e (j % 4) = t.get H.ENG_A e (j % 4) := by
  have hkey : fkey H.ENG_A e (k % 4) ≠ fkey H.ENG_A e (j % 4) := by
    simp only [fkey, H.ENG_A]
    omega
  exact (State.get_when_esrPut he (by decide) (aIndex j) ..).trans (State.get_put_ne _ _ hkey)

theorem unloaded_putAcc (t : State) (e k : Nat) (v : Int) : unloaded (t.putAcc e k v) = unloaded t :=
  State.when_same unloaded _ _ rfl

theorem units_mem (t s : State) (e op ac da db : Nat) (u2 : Option MacUnit) :
    (t.units s e op ac da db u2).mem = t.mem := by
  cases u2 with
  | none => exact putAcc_mem ..
  | some u => exact (putAcc_mem ..).trans (putAcc_mem ..)

theorem unloaded_units (t s : State) (e op ac da db : Nat) (u2 : Option MacUnit) :
    unloaded (t.units s e op ac da db u2) = unloaded t := by
  cases u2 with
  | none => exact unloaded_putAcc ..
  | some u => exact (unloaded_putAcc ..).trans (unloaded_putAcc ..)

theorem get_units {g : Fld} {l : Nat} (he : e < 16) (h : (H.ENG_ESR.engApart g && H.ENG_A.engApart g) = true)
    (hl : l ≤ g.m - 1) (t s : State) (op ac da db : Nat) (u2 : Option MacUnit) :
    (t.units s e op ac da db u2).get g e l = t.get g e l := by
  cases u2 with
  | none => exact get_putAcc he h hl ..
  | some u => exact (get_putAcc he h hl ..).trans (get_putAcc he h hl ..)

/-- The accumulators and GOV after one or two units that name different accumulators. -/
theorem units_values {u2 : Option MacUnit} {ac : Nat} (he : e < 16) (hne : ∀ u, u2 = some u → u.ac % 4 ≠ ac % 4)
    (t s : State) (op da db : Nat) :
    (t.units s e op ac da db u2).get H.ENG_A e (ac % 4) = trunc 80 (unitVal s e op ac da db) ∧
    (∀ u, u2 = some u →
      (t.units s e op ac da db u2).get H.ENG_A e (u.ac % 4) = trunc 80 (unitVal s e u.op u.ac u.da u.db)) ∧
    bit ((t.units s e op ac da db u2).esr e) 4 =
      (bit (t.esr e) 4 || leaves80 (unitVal s e op ac da db) || secondLeaves s e u2) := by
  have hfirst : bit ((t.putAcc e ac (unitVal s e op ac da db)).esr e) 4 =
      (bit (t.esr e) 4 || leaves80 (unitVal s e op ac da db)) := by
    rw [bit_putAcc he _ _ _ (by decide), decide_eq_true rfl, Bool.and_true]
  cases u2 with
  | none => exact ⟨putAcc_self he .., nofun, hfirst.trans (Bool.or_false _).symm⟩
  | some u =>
    refine ⟨(get_putAcc_ne he (Ne.symm (hne u rfl)) ..).trans (putAcc_self he ..), fun w hw => ?_, ?_⟩
    · cases hw
      exact putAcc_self he ..
    · refine (bit_putAcc he _ _ _ (by decide)).trans ?_
      rw [decide_eq_true rfl, Bool.and_true]
      exact congrArg (· || secondLeaves s e (some u)) hfirst

/-- MPY, MAC and MSU with their parallel moves (R115, R129). -/
theorem mac_completes {i : Instr} {op ac da db : Nat} {u2 : Option MacUnit} {x : Option XMove} {y : Option YMove}
    (h : EngFree s e) (harr : s.arrErrs = []) (hx : s.moveExc e x y = 0) (hne : ∀ u, u2 = some u → u.ac % 4 ≠ ac % 4)
    (hi : exec i s = .next (s.engMac e op ac da db u2 x y)) :
    Completes i s fun t => t.get H.ENG_A e (ac % 4) = trunc 80 (unitVal s e op ac da db) ∧
      (∀ u, u2 = some u → t.get H.ENG_A e (u.ac % 4) = trunc 80 (unitVal s e u.op u.ac u.da u.db)) ∧
      bit (t.esr e) 4 = (bit (s.esr e) 4 || leaves80 (unitVal s e op ac da db) || secondLeaves s e u2) ∧
      (∀ m, x = some m → { eng := e, fld := H.ENG_D, idx := m.dx % 8, val := s.engWord e 0 (s.xAddr e m) } ∈ t.late) ∧
      (∀ m, y = some m → m.wide = false →
        { eng := e, fld := H.ENG_D, idx := m.dst % 8, val := s.engWord e 1 (s.yAddr e m) } ∈ t.late) ∧
      t.mem = s.mem ∧ t.get H.ENG_PC e = (s.get H.ENG_PC e + 4) % 2 ^ 16 ∧ (∀ k < 16, t.dreg e k = s.dreg e k) ∧
      t.waits = s.waits ∧ t.insts = s.insts ∧ t.axEvs = s.axEvs := by
  have he := h.lt
  let w := (s.engBegin e).units s e op ac da db u2
  have hw : unloaded w = unloaded s := unloaded_units ..
  have hclean : w.arrErrs = [] := (congrArg State.arrErrs hw :).trans harr
  obtain ⟨hm, hlx, hly⟩ := moves_moved hclean s e x y
  have hrest : unloaded (w.moves s e x y) = unloaded s := hm.rest.trans hw
  obtain ⟨hac, hsecond, hgov⟩ := units_values he hne (s.engBegin e) s op da db
  have hexc : (match u2 with
      | some u => if u.ac % 4 = ac % 4 then 3 else s.moveExc e x y
      | none => s.moveExc e x y) = 0 := by
    cases u2 with
    | none => exact hx
    | some u => exact (if_neg (hne u rfl)).trans hx
  have heff : (w.moves s e x y).inDelay e = false := by
    rw [State.inDelay, hm.get he (by decide) (Nat.zero_le _), get_units he (by decide) (Nat.zero_le _),
      State.get_engBegin he (by decide) (Nat.zero_le _), ← State.inDelay, h.noDelay]
  have hrun : exec i s = .next ((w.moves s e x y).engTick e 1 (s.get H.ENG_PC e + 4)) := by
    refine h.toEngTurn.exec_run hi hexc ?_ (by rw [heff, Bool.false_and])
    rw [h.landLate]
    cases u2 <;> rfl
  have hend : ∀ {k : Nat}, ((w.moves s e x y).engTick e 1 (s.get H.ENG_PC e + 4)).get H.ENG_A e (k % 4) =
      w.get H.ENG_A e (k % 4) := fun {k} =>
    (State.get_engTick he (by decide) (aIndex k) ..).trans (hm.get he (by decide) (aIndex k))
  refine ⟨_, hrun, hend.trans hac, fun u hu => hend.trans (hsecond u hu), ?_, hlx, hly, ?_, State.engTick_pc .., ?_, ?_⟩
  · rw [State.esr, State.get_engTick he (by decide) (Nat.zero_le _), hm.get he (by decide) (Nat.zero_le _), ← State.esr, hgov,
      State.esr, State.get_engBegin he (by decide) (Nat.zero_le _), ← State.esr]
  · rw [State.engTick_mem, hm.mem, units_mem, State.engBegin_mem]
  · intro k _
    exact (State.get_engTick he (by decide) (dIndex k) ..).trans ((hm.get he (by decide) (dIndex k)).trans
      ((get_units he (by decide) (dIndex k) ..).trans (State.get_engBegin he (by decide) (dIndex k) s)))
  · exact ⟨(congrArg State.waits hrest :), (congrArg State.insts hrest :), (congrArg State.axEvs hrest :)⟩

/-- An X move alone (R115, OP 11). -/
theorem xMove_completes (h : EngFree s e) (harr : s.arrErrs = []) {m : XMove} (ha : s.xAddr e m % 4 = 0) :
    Completes (.parallelMove e (some m) none) s fun t =>
      t.late = s.late ++ [{ eng := e, fld := H.ENG_D, idx := m.dx % 8, val := s.engWord e 0 (s.xAddr e m) }] ∧
      t.get H.ENG_P e (m.px % 4) =
        ptrMove (s.xAddr e m) (s.mLen e (m.px % 4)) (if m.byN then s.nOfs e (m.px % 4) else 4) % 2 ^ 16 ∧
      EngNext [fkey H.ENG_P e (m.px % 4)] s t e 1 4 ∧ t.mem = s.mem := by
  have he := h.lt
  have hclean : (s.engBegin e).arrErrs = [] := harr
  have hd : Undirected [fkey H.ENG_P e (m.px % 4)] e := (undirected_nil e).cons he (xIndex m.px)
  have hk : RegsKept [fkey H.ENG_P e (m.px % 4)] (s.engBegin e) ((s.engBegin e).xMove s e m) := by
    rw [xMove_eq hclean]
    exact kept_put (by simp) (kept_putLate (kept_refl _ _))
  have hx : s.moveExc e (some m) none = 0 := by
    simp only [State.moveExc, State.memExc_of_clean harr ha, ne_eq, not_true_eq_false, if_false]
  refine ⟨_, h.exec_run (u := (s.engBegin e).xMove s e m) rfl hx rfl hd hk, ?_, ?_,
    engNext_of_kept he hd.2 hk 1 4, ?_⟩
  · rw [State.engTick_late, xMove_late hclean, State.engBegin_late]
  · rw [State.get_engTick he (by decide) (xIndex m.px), xMove_eq hclean]
    exact State.get_put_self ..
  · rw [State.engTick_mem, (xMove_moved hclean s e m).mem, State.engBegin_mem]

/-- One tap of a delay line (R117). -/
theorem tapm_completes {ac px py : Nat} {subtract : Bool} {v : Int} (h : EngFree s e) (harr : s.arrErrs = [])
    (hxa : s.ptr e (px % 4) % 4 = 0) (hya : s.ptr e (4 + py % 4) % 4 = 0) (hnext : s.tapNext e py % 4 = 0)
    (hslot : s.slotAt e 1 (s.tapNext e py) = none)
    (hv : (let p := s32 (s.engWord e 0 (s.ptr e (px % 4))) * s32 (s.engWord e 1 (s.ptr e (4 + py % 4)))
      if subtract then s.acc e ac - p else s.acc e ac + p) = v) :
    Completes (.tapm e ac subtract px py) s fun t =>
      t.get H.ENG_A e (ac % 4) = trunc 80 v ∧ bit (t.esr e) 4 = (bit (s.esr e) 4 || leaves80 v) ∧
      t.load (engMem e 1 + s.tapNext e py) 4 = s.engWord e 1 (s.ptr e (4 + py % 4)) % 2 ^ 32 ∧
      BytesKept (engMem e 1 + s.tapNext e py) (engMem e 1 + s.tapNext e py + 4) s t ∧
      t.get H.ENG_P e (px % 4) = ptrMove (s.ptr e (px % 4)) (s.mLen e (px % 4)) (-4) % 2 ^ 16 ∧
      t.get H.ENG_P e (4 + py % 4) = ptrMove (s.ptr e (4 + py % 4)) (s.mLen e (4 + py % 4)) (-4) % 2 ^ 16 ∧
      EngNext [fkey H.ENG_A e (ac % 4), fkey H.ENG_ESR e 0, fkey H.ENG_P e (px % 4), fkey H.ENG_P e (4 + py % 4)] s t e 1
        4 := by
  have he := h.lt
  let ks := [fkey H.ENG_A e (ac % 4), fkey H.ENG_ESR e 0, fkey H.ENG_P e (px % 4), fkey H.ENG_P e (4 + py % 4)]
  let a := (s.engBegin e).putAcc e ac v
  let b := a.store (engMem e 1 + s.tapNext e py) 4 (s.engWord e 1 (s.ptr e (4 + py % 4)))
  let c := b.put H.ENG_P (ptrMove (s.ptr e (px % 4)) (s.mLen e (px % 4)) (-4)) e (px % 4)
  let u := c.put H.ENG_P (ptrMove (s.ptr e (4 + py % 4)) (s.mLen e (4 + py % 4)) (-4)) e (4 + py % 4)
  have hbegin : (s.engBegin e).arrErrs = [] := harr
  have ha : a.arrErrs = [] := (State.when_same State.arrErrs _ _ rfl).trans harr
  have hplain : a.putEngWord e 1 (s.tapNext e py) (s.engWord e 1 (s.ptr e (4 + py % 4))) = b := by
    refine State.putEngWord_of_plain ha ((State.slotAt_congr (fun k hk => ?_) ..).trans hslot) _
    have hl : k ≤ H.ENG_SLOT.m - 1 := Nat.le_of_lt_succ hk
    exact (get_putAcc he (by decide) hl ..).trans (State.get_engBegin he (by decide) hl s)
  have hx : (let x := s.memExc e 0 (s.ptr e (px % 4)) 4
      let y := s.memExc e 1 (s.ptr e (4 + py % 4)) 4
      if x ≠ 0 then x else if y ≠ 0 then y else if s.tapNext e py % 4 ≠ 0 then 4 else 0) = 0 := by
    simp only [State.memExc_of_clean harr hxa, State.memExc_of_clean harr hya, hnext, ne_eq, not_true_eq_false, if_false]
  have hd : Undirected ks e :=
    ((((undirected_nil e).cons he (yIndex py)).cons he (xIndex px)).cons he (Nat.zero_le _)).cons he (aIndex ac)
  have hka : RegsKept ks (s.engBegin e) a := kept_putAcc (by simp [ks]) (by simp [ks]) (kept_refl _ _)
  have hk : RegsKept ks (s.engBegin e) u :=
    kept_put (by simp [ks]) (kept_put (by simp [ks]) (kept_setBytes hka))
  have hbget : ∀ {g : Fld} {l : Nat}, b.get g e l = a.get g e l := State.setBytes_get ..
  have huget : ∀ {g : Fld} {l : Nat}, H.ENG_P.engApart g = true → l ≤ g.m - 1 → u.get g e l = a.get g e l :=
    fun hg hl => (State.get_put_engVar he hg (yIndex py) hl ..).trans
      ((State.get_put_engVar he hg (xIndex px) hl ..).trans hbget)
  have hum : u.mem = b.mem := rfl
  refine ⟨_, h.exec_run (u := u) rfl hx ?_ hd hk, ?_, ?_, ?_, ?_, ?_, ?_, engNext_of_kept he hd.2 hk 1 4⟩
  · dsimp only
    rw [State.engCe_of_clean hbegin, State.engCe_of_clean hbegin, hv, hplain]
  · exact (State.get_engTick he (by decide) (aIndex ac) ..).trans
      ((huget (by decide) (aIndex ac)).trans (putAcc_self he ..))
  · rw [State.esr, State.get_engTick he (by decide) (Nat.zero_le _), huget (by decide) (Nat.zero_le _), ← State.esr,
      bit_putAcc he _ _ _ (by decide), decide_eq_true rfl, Bool.and_true, State.esr,
      State.get_engBegin he (by decide) (Nat.zero_le _), ← State.esr]
  · rw [State.load_congr (State.engTick_mem ..), State.load_congr hum, State.load_store_word]
  · intro x hout
    rw [State.byte, State.engTick_mem, hum, ← State.byte]
    refine (State.byte_setBytes_out _ _ (by simpa only [toBytes_length] using hout)).trans ?_
    rw [State.byte, putAcc_mem, State.engBegin_mem, ← State.byte]
  · refine (State.get_engTick he (by decide) (xIndex px) ..).trans ((State.get_put_ne _ _ ?_).trans (State.get_put_self ..))
    simp only [fkey, H.ENG_P]
    omega
  · exact (State.get_engTick he (by decide) (yIndex py) ..).trans (State.get_put_self ..)

/-- Settles O20: MPY, MAC and MSU are `mac_completes`, and a move alone and TAPM have their lemmas. -/
theorem multiplyAccumulateAndMoves : Obligations.MultiplyAccumulateAndMoves := by
  unfold Obligations.MultiplyAccumulateAndMoves
  constructor
  · intro e ac da db op u2 x y s h harr hx hne prod v gov2 ok
    refine ⟨fun ho => ?_, fun ho => ?_, fun ho => ?_⟩ <;> subst ho
    · exact mac_completes (i := .mpy e ac da db u2 x y) h harr hx hne rfl
    · exact mac_completes (i := .mac e ac da db u2 x y) h harr hx hne rfl
    · exact mac_completes (i := .msu e ac da db u2 x y) h harr hx hne rfl
  · intro e ac px py subtract m s h harr
    exact ⟨fun ha => xMove_completes h harr ha, fun hxa hya hnext hslot => tapm_completes h harr hxa hya hnext hslot rfl⟩

end Sys2Proof.Claims
end

section
/-! PROOFS. Branches and calls with their delay slot, and hardware loops (R118, R119, R123). -/

namespace Sys2Proof.Machine

theorem esrLvl_esrWithLvl (r n : Nat) : esrLvl (esrWithLvl r n % 2 ^ 16) = n % 4 := by
  simp only [esrLvl, esrWithLvl, bits]
  omega

/-- The delay slot of a branch taken, and of one not taken, is no return's (R126). -/
theorem bit_delaySlot (n : Nat) :
    bit (2 ^ 16 + n % 2 ^ 16) 17 = false ∧ bit (2 ^ 16 + 2 ^ 18 + n % 2 ^ 16) 17 = false := by
  simp only [bit, beq_eq_false_iff_ne]
  omega

end Sys2Proof.Machine

namespace Sys2Proof.Claims
open Sys2Proof.Machine

variable {s : State} {e : Nat}

/-! ### Branches and calls -/

theorem branchIllegal_eq_zero {cond len : Nat} (h : EngTurn s e) (hc : cond ≤ 10) (ht : s.inLoopTail e len = false) :
    s.branchIllegal e cond len = 0 := by
  rw [State.branchIllegal, h.noDelay, ht, if_neg (by simpa using hc)]

/-- A branch opens its delay slot with the value `v`, and a call that is taken writes D15 as well (R118, R123). -/
theorem branch_completes {i : Instr} {rd : List Nat} {exc : State → Nat} {wr : State → Bool} {cost len : Nat}
    {f : State → State → State} (h : EngFree s e) (link : Bool) {v d : Nat}
    (hi : exec i s = .next (s.engRun e false rd exc wr cost len f)) (hx : exc s = 0)
    (hu : f s (s.engBegin e) = ((s.engBegin e).put H.ENG_DLY v e).when link fun t => t.putD e 15 (d % 2 ^ 16))
    (hv : v < 2 ^ 19) (hown : bit v 17 = false) :
    Completes i s fun t => t.get H.ENG_DLY e = v ∧ t.mem = s.mem ∧ lists t = lists s ∧
      (link = true → t.dreg e 15 = d % 2 ^ 16) ∧
      EngNext (fkey H.ENG_DLY e 0 :: if link then [fkey H.ENG_D e 15] else []) s t e cost len := by
  have he := h.lt
  let ks := fkey H.ENG_DLY e 0 :: if link then [fkey H.ENG_D e 15] else []
  let u := ((s.engBegin e).put H.ENG_DLY v e).when link fun t => t.putD e 15 (d % 2 ^ 16)
  have hdly : u.get H.ENG_DLY e = v :=
    (State.when_same (fun t => t.get H.ENG_DLY e) _ _
      (State.get_put_engVar he (by decide) (dIndex 15) (Nat.zero_le _) ..)).trans (State.get_put_of_lt _ _ _ hv)
  have hk : RegsKept ks (s.engBegin e) u := by
    have hput : RegsKept ks (s.engBegin e) ((s.engBegin e).put H.ENG_DLY v e) := kept_put (by simp [ks]) (kept_refl _ _)
    cases link with
    | false => exact hput
    | true => exact kept_put (by simp [ks]) hput
  have hcyc : fkey H.ENG_ECYC e 0 ∉ ks := by
    have hne := engKey_ne he (f := H.ENG_ECYC) (g := H.ENG_DLY) (by decide) (Nat.zero_le 0) (Nat.zero_le 0)
    have hned := engKey_ne he (f := H.ENG_ECYC) (g := H.ENG_D) (by decide) (Nat.zero_le 0) (dIndex 15)
    cases link
    · simpa [ks] using hne
    · simpa [ks] using ⟨hne, hned⟩
  have hrun : exec i s = .next (u.engTick e cost (s.get H.ENG_PC e + len)) :=
    h.toEngTurn.exec_run hi hx (by rw [h.landLate, hu]) (by rw [hdly, hown, Bool.and_false])
  refine ⟨_, hrun, (State.get_engTick he (by decide) (Nat.zero_le _) ..).trans hdly, ?_, ?_, fun hl => ?_,
    engNext_of_kept he hcyc hk cost len⟩
  · rw [State.engTick_mem]
    exact State.when_same State.mem _ _ rfl
  · rw [lists_engTick]
    exact State.when_same lists _ _ rfl
  · subst hl
    refine (State.get_engTick he (by decide) (dIndex 15) ..).trans ((State.get_put_self ..).trans ?_)
    exact Nat.mod_eq_of_lt (Nat.lt_trans (Nat.mod_lt d (by decide)) (by decide))

/-- A branch whose condition does not hold goes on behind its delay slot. -/
theorem branchNot_completes {i : Instr} {rd : List Nat} {exc : State → Nat} {wr : State → Bool} {cost len : Nat}
    {f : State → State → State} (h : EngFree s e) {n : Nat}
    (hi : exec i s = .next (s.engRun e false rd exc wr cost len f)) (hx : exc s = 0)
    (hu : f s (s.engBegin e) = (s.engBegin e).branchNot e n) :
    Completes i s fun t => t.get H.ENG_DLY e = 2 ^ 16 + 2 ^ 18 + n % 2 ^ 16 ∧ t.mem = s.mem ∧ lists t = lists s ∧
      EngNext [fkey H.ENG_DLY e 0] s t e cost len := by
  obtain ⟨t, ht, hdly, hmem, hlists, -, hnext⟩ :=
    branch_completes (d := 0) h false hi hx hu (by omega) (bit_delaySlot n).2
  exact ⟨t, ht, hdly, hmem, hlists, hnext⟩

/-! ### The instruction in a delay slot, and the end of a loop body -/

/-- The run of a NOP where no load lands. -/
theorem nop_run (hc : s.engCan e = true) (hf : bit (s.esr e) 11 = false) (hj : bit (s.get H.ENG_INJR e) 17 = false) :
    exec (.nop e) s = .next (((s.landLate e).engBegin e).engAdvance s e 1 4) := by
  have hrun := engRunOf_effect (far := false) (rd := []) (exc := fun _ => 0) (wr := fun _ => false) (cl := fun _ => (1, 4))
    (f := fun _ t => t) hc hf hj rfl
  show Host.Outcome.next (s.engRunOf e false [] (fun _ => 0) (fun _ => false) (fun _ => (1, 4)) fun _ t => t) = _
  rw [hrun]

theorem nop_inDelay_completes (hc : s.engCan e = true) (hf : bit (s.esr e) 11 = false)
    (hj : bit (s.get H.ENG_INJR e) 17 = false) (hl : ∀ x ∈ s.late, x.eng ≠ e) (hd : s.inDelay e = true) :
    Completes (.nop e) s fun t => t.get H.ENG_PC e = s.get H.ENG_DLY e % 2 ^ 16 ∧ t.inDelay e = false ∧ t.mem = s.mem := by
  have he := State.engCan_lt hc
  refine ⟨_, nop_run hc hf hj, ?_⟩
  unfold State.engAdvance
  rw [if_pos hd]
  refine ⟨?_, ?_, ?_⟩
  · refine (State.get_put_engVar he (by decide) (Nat.zero_le _) (Nat.zero_le _) ..).trans
      ((State.get_put_engVar he (by decide) (Nat.zero_le _) (Nat.zero_le _) ..).trans ((State.get_put_self ..).trans ?_))
    exact Nat.mod_mod _ _
  · rw [State.inDelay, State.get_put_engVar he (by decide) (Nat.zero_le _) (Nat.zero_le _), State.get_put_self]
    rfl
  · refine (State.when_same State.mem _ _ rfl).trans ((State.when_same State.mem _ _ rfl).trans ?_)
    rw [State.engBegin_mem, landLate_of_none hl]

/-- The cycle of an instruction counts. -/
def counted (t : State) (e : Nat) : State := (t.put H.ENG_ECYC (t.get H.ENG_ECYC e + 1) e).addSat H.ENG_BUSY 1 e

theorem get_counted {g : Fld} {l : Nat} (he : e < 16)
    (hb : (H.ENG_BT.engApart g && H.ENG_WL.engApart g && H.ENG_ECYC.engApart g && H.ENG_BUSY.engApart g) = true)
    (hl : l ≤ g.m - 1) (s : State) : (counted (s.engBegin e) e).get g e l = s.get g e l := by
  simp only [Bool.and_eq_true] at hb
  obtain ⟨⟨⟨hbt, hwl⟩, hcyc⟩, hbusy⟩ := hb
  exact (State.get_put_engVar he hbusy (Nat.zero_le _) hl ..).trans ((State.get_put_engVar he hcyc (Nat.zero_le _) hl ..).trans
    (State.get_engBegin he (Bool.and_eq_true .. ▸ ⟨hbt, hwl⟩) hl s))

/-- The keys of a loop's count and of two other registers of its engine. -/
theorem loopCount_ne (he : e < 16) (n : Nat) (hn : n < 3) :
    fkey H.ENG_LC e n ≠ fkey H.ENG_PC e 0 ∧ fkey H.ENG_LC e n ≠ fkey H.ENG_ESR e 0 := by
  simp only [fkey, H.ENG_LC, H.ENG_PC, H.ENG_ESR]
  omega

theorem esrLvl_lt (r : Nat) : esrLvl r < 4 := Nat.mod_lt _ (by decide)

/-- The engine may execute a NOP as it stands: nothing of the instructions before waits (R121, R122, R123). -/
structure Settled (s : State) (e : Nat) : Prop where
  can : s.engCan e = true
  noFar : bit (s.esr e) 11 = false
  noInj : bit (s.get H.ENG_INJR e) 17 = false
  noLate : ∀ x ∈ s.late, x.eng ≠ e
  noOld : ∀ x ∈ s.olds, x.eng ≠ e
  noDelay : s.inDelay e = false
  noProt : esrProt (s.esr e) = 0

theorem Settled.engFree (h : Settled s e) (hlvl : esrLvl (s.esr e) = 0) : EngFree s e :=
  { h with noEnd := .inl hlvl }

/-- A NOP ends with the comparison of the loop's end (R119). -/
theorem Settled.nop_run (h : Settled s e) :
    exec (.nop e) s = .next ((counted (s.engBegin e) e).loopEnd s e (s.get H.ENG_PC e) 4) := by
  have hown : ((s.engBegin e).inDelay e && bit ((s.engBegin e).get H.ENG_DLY e) 17) = false := by
    rw [State.inDelay, State.get_engBegin (State.engCan_lt h.can) (by decide) (Nat.zero_le _), ← State.inDelay, h.noDelay,
      Bool.false_and]
  rw [Claims.nop_run h.can h.noFar h.noInj, landLate_self h.noLate h.noOld]
  unfold State.engAdvance
  simp only [hown, h.noProt, h.noDelay, Bool.not_false, State.when_true, bne_self_eq_false, State.when_false,
    Bool.false_eq_true, if_false]
  rfl

/-- At the end of a loop's body the loop goes back while its count is above 1. -/
theorem nop_loopsBack (h : Settled s e) {n : Nat} (hn : esrLvl (s.esr e) = n + 1) (hsusp : bit (s.esr e) 7 = false)
    (hpc : s.get H.ENG_PC e = s.get H.ENG_LE e n) (hcount : 1 < s.get H.ENG_LC e n) :
    Completes (.nop e) s fun t => t.get H.ENG_PC e = s.get H.ENG_LS e n % 2 ^ 16 ∧
      t.get H.ENG_LC e n = (s.get H.ENG_LC e n - 1) % 2 ^ 16 ∧ t.esr e = s.esr e := by
  have he := State.engCan_lt h.can
  obtain ⟨hpcne, hesrne⟩ := loopCount_ne he n (by have := esrLvl_lt (s.esr e); omega)
  have hend : (counted (s.engBegin e) e).loopEnd s e (s.get H.ENG_PC e) 4 =
      ((counted (s.engBegin e) e).put H.ENG_LC (s.get H.ENG_LC e n - 1) e n).put H.ENG_PC (s.get H.ENG_LS e n) e := by
    unfold State.loopEnd
    simp only [older_of_none h.noOld, hn, Nat.add_sub_cancel, hsusp, hpc, hcount, if_true, Nat.succ_ne_zero, ne_eq,
      not_true_eq_false, Bool.false_eq_true, or_self, if_false]
  refine ⟨_, h.nop_run.trans (by rw [hend]), State.get_put_self .., ?_, ?_⟩
  · exact (State.get_put_ne _ _ hpcne.symm).trans (State.get_put_self ..)
  · refine (State.get_put_engVar he (by decide) (Nat.zero_le _) (Nat.zero_le _) ..).trans
      ((State.get_put_ne _ _ hesrne).trans ?_)
    exact get_counted he (by decide) (Nat.zero_le _) s

/-- At a count of 1 the engine leaves the level. -/
theorem nop_leavesLoop (h : Settled s e) {n : Nat} (hn : esrLvl (s.esr e) = n + 1) (hsusp : bit (s.esr e) 7 = false)
    (hpc : s.get H.ENG_PC e = s.get H.ENG_LE e n) (hcount : s.get H.ENG_LC e n = 1) :
    Completes (.nop e) s fun t => t.get H.ENG_PC e = (s.get H.ENG_PC e + 4) % 2 ^ 16 ∧ t.get H.ENG_LC e n = 0 ∧
      esrLvl (t.esr e) = n := by
  have he := State.engCan_lt h.can
  have hn3 : n < 3 := by have := esrLvl_lt (s.esr e); omega
  obtain ⟨hpcne, hesrne⟩ := loopCount_ne he n hn3
  have hend : (counted (s.engBegin e) e).loopEnd s e (s.get H.ENG_PC e) 4 =
      ((((counted (s.engBegin e) e).put H.ENG_LC 0 e n).put H.ENG_ESR
        (esrWithLvl ((counted (s.engBegin e) e).esr e) n) e).put H.ENG_PC (s.get H.ENG_PC e + 4) e) := by
    unfold State.loopEnd
    simp only [older_of_none h.noOld, hn, Nat.add_sub_cancel, hsusp, hpc, hcount, lt_self_iff_false, if_true,
      Nat.succ_ne_zero, ne_eq, not_true_eq_false, Bool.false_eq_true, or_self, if_false]
  refine ⟨_, h.nop_run.trans (by rw [hend]), State.get_put_self .., ?_, ?_⟩
  · exact (State.get_put_ne _ _ hpcne.symm).trans ((State.get_put_ne _ _ hesrne.symm).trans (State.get_put_self ..))
  · rw [State.esr, State.get_put_engVar he (by decide) (Nat.zero_le _) (Nat.zero_le _), State.get_put_self]
    exact (esrLvl_esrWithLvl ..).trans (Nat.mod_eq_of_lt (by omega))

/-! ### LOOP -/

/-- The registers of loop level 0 set up over the body that follows. -/
def loopSet (t : State) (e start fin count : Nat) : State :=
  (((t.put H.ENG_LS start e).put H.ENG_LE fin e).put H.ENG_LC count e).put H.ENG_WL 1 e

theorem get_loopSet {g : Fld} {l : Nat} (he : e < 16)
    (hg : (H.ENG_LS.engApart g && H.ENG_LE.engApart g && H.ENG_LC.engApart g && H.ENG_WL.engApart g) = true)
    (hl : l ≤ g.m - 1) (t : State) (start fin count : Nat) : (loopSet t e start fin count).get g e l = t.get g e l := by
  simp only [Bool.and_eq_true] at hg
  obtain ⟨⟨⟨hls, hle⟩, hlc⟩, hwl⟩ := hg
  exact (State.get_put_engVar he hwl (Nat.zero_le _) hl ..).trans ((State.get_put_engVar he hlc (Nat.zero_le _) hl ..).trans
    ((State.get_put_engVar he hle (Nat.zero_le _) hl ..).trans (State.get_put_engVar he hls (Nat.zero_le _) hl ..)))

theorem loopSet_values (he : e < 16) (t : State) (start fin count : Nat) :
    (loopSet t e start fin count).get H.ENG_LS e = start % 2 ^ 16 ∧
    (loopSet t e start fin count).get H.ENG_LE e = fin % 2 ^ 16 ∧
    (loopSet t e start fin count).get H.ENG_LC e = count % 2 ^ 16 := by
  unfold loopSet
  refine ⟨?_, ?_, ?_⟩ <;>
    · simp (disch := decide) only [State.get_put_engVar he, State.get_put_self]
      rfl

theorem loopSet_mem (t : State) (e start fin count : Nat) : (loopSet t e start fin count).mem = t.mem := rfl

theorem lists_loopSet (t : State) (e start fin count : Nat) : lists (loopSet t e start fin count) = lists t := rfl

/-- The places of loop level 0. -/
def loopPlaces (e : Nat) : List Nat := [fkey H.ENG_LS e 0, fkey H.ENG_LE e 0, fkey H.ENG_LC e 0]

theorem kept_loopSet {ks : List Nat} (hks : ∀ k ∈ loopPlaces e, k ∈ ks) (s : State) (start fin count : Nat) :
    RegsKept (engPlaces e ++ ks) s (loopSet (s.engBegin e) e start fin count) := by
  have hin : ∀ k ∈ loopPlaces e, k ∈ engPlaces e ++ ks := fun k hk => List.mem_append_right _ (hks k hk)
  exact kept_put (by simp [engPlaces]) (kept_put (hin _ (by simp [loopPlaces])) (kept_put (hin _ (by simp [loopPlaces]))
    (kept_put (hin _ (by simp [loopPlaces])) (kept_engBegin ks s e))))

/-- The run of a LOOP outside every loop, whose effect on the loop's level is `u`. -/
theorem loop_run {fin cost len : Nat} {c : AluB} {u : State} (h : EngFree s e) (hlvl : esrLvl (s.esr e) = 0) (hfin : 0 < fin)
    (hcl : (if s.loopCount e c = 0 then (2, 4 * fin + 4) else (1, 4)) = (cost, len))
    (hu : (let t := loopSet (s.engBegin e) e (s.get H.ENG_PC e + 4) (s.get H.ENG_PC e + 4 * fin) (s.loopCount e c)
      if s.loopCount e c = 0 then t else t.put H.ENG_ESR (esrWithLvl (t.esr e) 1) e) = u)
    (hd : u.inDelay e = false) :
    exec (.loop e c fin) s = .next (u.engTick e cost (s.get H.ENG_PC e + len)) := by
  have hx : s.loopIllegal e fin = 0 := by
    unfold State.loopIllegal
    simp only [h.noDelay, hlvl, Nat.ne_of_gt hfin, Bool.false_eq_true, false_or, or_false, zero_ne_one, false_and, if_false]
    rfl
  have hrun := engRunOf_effect (far := false) (rd := aluRegs c) (exc := fun s => s.loopIllegal e fin) (wr := fun _ => true)
    (cl := fun s => if s.loopCount e c = 0 then (2, 4 * fin + 4) else (1, 4)) (f := fun s t =>
      let n := esrLvl (s.esr e)
      let pc := s.get H.ENG_PC e
      let t := t.put H.ENG_LS (pc + 4) e n
      let t := t.put H.ENG_LE (pc + 4 * fin) e n
      let t := (t.put H.ENG_LC (s.loopCount e c) e n).put H.ENG_WL 1 e
      if s.loopCount e c = 0 then t else t.put H.ENG_ESR (esrWithLvl (t.esr e) (n + 1)) e) h.can h.noFar h.noInj hx
  refine congrArg Host.Outcome.next (hrun.trans ?_)
  dsimp only
  rw [hcl, h.landLate, hlvl, ← h.toEngTurn.advance (by rw [hd, Bool.false_and]), ← hu]
  rfl

theorem loopCount_lt (s : State) (e : Nat) (c : AluB) : s.loopCount e c < 2 ^ 16 := by
  cases c with
  | reg k => exact Nat.mod_lt _ (by decide)
  | imm v => exact Nat.lt_of_lt_of_le (Nat.mod_lt _ (by decide)) (by decide)

theorem loopSet_inDelay (h : EngFree s e) (start fin count : Nat) :
    (loopSet (s.engBegin e) e start fin count).inDelay e = false := by
  rw [State.inDelay, get_loopSet h.lt (by decide) (Nat.zero_le _), State.get_engBegin h.lt (by decide) (Nat.zero_le _),
    ← State.inDelay, h.noDelay]

theorem loopSet_cycles (he : e < 16) (s : State) (start fin count : Nat) :
    (loopSet (s.engBegin e) e start fin count).get H.ENG_ECYC e = s.get H.ENG_ECYC e :=
  (get_loopSet he (by decide) (Nat.zero_le _) ..).trans (State.get_engBegin he (by decide) (Nat.zero_le _) s)

/-- A count of 0 skips the body (R119). -/
theorem loop_skips {fin : Nat} {c : AluB} (h : EngFree s e) (hlvl : esrLvl (s.esr e) = 0) (hfin : 0 < fin)
    (hcount : s.loopCount e c = 0) :
    Completes (.loop e c fin) s fun t => t.get H.ENG_LC e 0 = 0 ∧ t.mem = s.mem ∧ lists t = lists s ∧
      EngNext [fkey H.ENG_LS e 0, fkey H.ENG_LE e 0, fkey H.ENG_LC e 0] s t e 2 (4 * fin + 4) := by
  have he := h.lt
  let u := loopSet (s.engBegin e) e (s.get H.ENG_PC e + 4) (s.get H.ENG_PC e + 4 * fin) 0
  have hrun := loop_run (u := u) (c := c) h hlvl hfin (if_pos hcount) (by rw [hcount]; rfl) (loopSet_inDelay h ..)
  refine ⟨_, hrun, ?_, ?_, ?_, engNext_of_cycles he (kept_loopSet (by simp [loopPlaces]) s _ _ _) (loopSet_cycles he ..) _ _⟩
  · exact (State.get_engTick he (by decide) (Nat.zero_le _) ..).trans (loopSet_values he ..).2.2
  · rw [State.engTick_mem, loopSet_mem, State.engBegin_mem]
  · rw [lists_engTick, lists_loopSet, lists_engBegin]

/-- LOOP opens its level (R119). -/
theorem loop_opens {fin : Nat} {c : AluB} (h : EngFree s e) (hlvl : esrLvl (s.esr e) = 0) (hfin : 0 < fin)
    (hcount : s.loopCount e c ≠ 0) :
    Completes (.loop e c fin) s fun t =>
      t.get H.ENG_LS e 0 = (s.get H.ENG_PC e + 4) % 2 ^ 16 ∧ t.get H.ENG_LE e 0 = (s.get H.ENG_PC e + 4 * fin) % 2 ^ 16 ∧
      t.get H.ENG_LC e 0 = s.loopCount e c ∧ esrLvl (t.esr e) = 1 ∧ t.mem = s.mem ∧ lists t = lists s ∧
      EngNext [fkey H.ENG_LS e 0, fkey H.ENG_LE e 0, fkey H.ENG_LC e 0, fkey H.ENG_ESR e 0] s t e 1 4 := by
  have he := h.lt
  let ks := [fkey H.ENG_LS e 0, fkey H.ENG_LE e 0, fkey H.ENG_LC e 0, fkey H.ENG_ESR e 0]
  let a := loopSet (s.engBegin e) e (s.get H.ENG_PC e + 4) (s.get H.ENG_PC e + 4 * fin) (s.loopCount e c)
  let u := a.put H.ENG_ESR (esrWithLvl (a.esr e) 1) e
  have hdelay : u.inDelay e = false := by
    rw [State.inDelay, State.get_put_engVar he (by decide) (Nat.zero_le _) (Nat.zero_le _)]
    exact loopSet_inDelay h ..
  have hcyc : u.get H.ENG_ECYC e = s.get H.ENG_ECYC e :=
    (State.get_put_engVar he (by decide) (Nat.zero_le _) (Nat.zero_le _) ..).trans (loopSet_cycles he ..)
  have hk : RegsKept (engPlaces e ++ ks) s u :=
    kept_put (by simp [ks]) (kept_loopSet (by simp [loopPlaces, ks]) s _ _ _)
  have hrun := loop_run (u := u) h hlvl hfin (if_neg hcount) (if_neg hcount) hdelay
  obtain ⟨hls, hle, hlc⟩ := loopSet_values he (s.engBegin e) (s.get H.ENG_PC e + 4) (s.get H.ENG_PC e + 4 * fin)
    (s.loopCount e c)
  have hend : ∀ {g : Fld}, (H.ENG_ECYC.engApart g && H.ENG_BUSY.engApart g && H.ENG_PC.engApart g) = true →
      H.ENG_ESR.engApart g = true → (u.engTick e 1 (s.get H.ENG_PC e + 4)).get g e = a.get g e := fun ht hg =>
    (State.get_engTick he ht (Nat.zero_le _) ..).trans (State.get_put_engVar he hg (Nat.zero_le _) (Nat.zero_le _) ..)
  refine ⟨_, hrun, (hend (by decide) (by decide)).trans hls, (hend (by decide) (by decide)).trans hle,
    (hend (by decide) (by decide)).trans (hlc.trans (Nat.mod_eq_of_lt (loopCount_lt s e c))), ?_, ?_, ?_,
    engNext_of_cycles he hk hcyc 1 4⟩
  · rw [State.esr, State.get_engTick he (by decide) (Nat.zero_le _), State.get_put_self]
    exact esrLvl_esrWithLvl (a.esr e) 1
  · rw [State.engTick_mem, State.put_mem, loopSet_mem, State.engBegin_mem]
  · rw [lists_engTick, lists_put, lists_loopSet, lists_engBegin]

/-- Settles O23: each branch is `branch_completes` with the value of its delay slot, and the delay slot, LOOP and the loop's end
have their lemmas. -/
theorem branchesCallsAndLoops : Obligations.BranchesCallsAndLoops := by
  unfold Obligations.BranchesCallsAndLoops
  refine ⟨?_, ?_, ?_⟩
  · intro e cond tgt b s h hc goes on
    have hold : s.older e H.ENG_ESR 0 = s.esr e := h.older ..
    have hlegal : ∀ {len : Nat}, s.inLoopTail e len = false → s.branchIllegal e cond len = 0 :=
      branchIllegal_eq_zero h.toEngTurn hc
    have htaken : ∀ n : Nat, 2 ^ 16 + n % 2 ^ 16 < 2 ^ 19 := fun n => by omega
    refine ⟨fun ht hcond => ⟨?_, ?_⟩, fun ht hcond => ⟨?_, ?_⟩, fun ht hcond => ⟨?_, ?_⟩, fun ht hcond link => ?_⟩
    · exact branch_completes h false rfl (hlegal ht) (if_pos (hold ▸ hcond)) (htaken _) (bit_delaySlot _).1
    · exact branch_completes h true rfl (hlegal ht) (if_pos (hold ▸ hcond)) (htaken _) (bit_delaySlot _).1
    · exact branch_completes h false rfl (hlegal ht) (if_pos (hold ▸ hcond)) (htaken _) (bit_delaySlot _).1
    · exact branch_completes h true rfl (hlegal ht) (if_pos (hold ▸ hcond)) (htaken _) (bit_delaySlot _).1
    · exact branchNot_completes h rfl (hlegal ht) (if_neg (by rw [hold, hcond]; decide))
    · exact branchNot_completes h rfl (hlegal ht) (if_neg (by rw [hold, hcond]; decide))
    · exact branchNot_completes h rfl (hlegal ht) (if_neg (by rw [hold, hcond]; decide))
  · intro e s hcan hfar hinj hlate hdelay
    exact nop_inDelay_completes hcan hfar hinj hlate hdelay
  · intro e fin c s hcan hfar hinj hlate hold hdelay hprot n pc
    have h : Settled s e := ⟨hcan, hfar, hinj, hlate, hold, hdelay, hprot⟩
    refine ⟨fun hn hfin hcount => loop_opens (h.engFree hn) hn hfin hcount,
      fun hn hfin hcount => loop_skips (h.engFree hn) hn hfin hcount, fun hn hsusp hpc hcount => ?_,
      fun hn hsusp hpc hcount => ?_⟩
    · exact nop_loopsBack h (Nat.sub_add_cancel hn).symm hsusp hpc hcount
    · exact nop_leavesLoop h (Nat.sub_add_cancel hn).symm hsusp hpc hcount

end Sys2Proof.Claims
end

section
/-! SUPPORT. The fields that a step writes, as a list: its frame (R23), and the frames of the trace, the record slots and the
lists. -/

namespace Sys2Proof.Claims
open Sys2Proof.Machine

variable {s t u : State} {e : Nat} {fs gs : List Fld}

/-- Of the registers, `t` differs from `s` in fields of `fs` alone. -/
def WritesIn (fs : List Fld) (s t : State) : Prop :=
  ∀ (g : Fld) (i j : Nat), (fs.all fun f => f.disjoint g) = true → i ≤ g.n - 1 → j ≤ g.m - 1 →
    t.get g i j = s.get g i j

theorem WritesIn.refl (fs : List Fld) (s : State) : WritesIn fs s s := fun _ _ _ _ _ _ => rfl

theorem WritesIn.trans (h : WritesIn fs s t) (k : WritesIn fs t u) : WritesIn fs s u :=
  fun g i j hg hi hj => (k g i j hg hi hj).trans (h g i j hg hi hj)

theorem WritesIn.put (h : WritesIn fs s t) {f : Fld} {i j : Nat} (hf : f ∈ fs) (hi : i ≤ f.n - 1) (hj : j ≤ f.m - 1)
    (v : Nat) : WritesIn fs s (t.put f v i j) := fun g k l hg hk hl =>
  (State.get_put_ne _ _ (fkey_ne_of_disjoint (List.all_eq_true.1 hg f hf) hi hj hk hl)).trans (h g k l hg hk hl)

theorem WritesIn.incSat (h : WritesIn fs s t) {f : Fld} {i j : Nat} (hf : f ∈ fs) (hi : i ≤ f.n - 1) (hj : j ≤ f.m - 1) :
    WritesIn fs s (t.incSat f i j) := h.put hf hi hj _

theorem WritesIn.mono (h : WritesIn fs s t) (hs : fs ⊆ gs) : WritesIn gs s t := fun g i j hg hi hj =>
  h g i j (List.all_eq_true.2 fun f hf => List.all_eq_true.1 hg f (hs hf)) hi hj

theorem WritesIn.ofRegs (h : WritesIn fs s t) (e : u.regs = t.regs) : WritesIn fs s u := fun g i j hg hi hj => by
  have := h g i j hg hi hj
  simp only [State.get, e] at this ⊢
  exact this

theorem WritesIn.when (h : WritesIn fs s t) {c : Bool} {f : State → State} (hf : WritesIn fs s (f t)) :
    WritesIn fs s (t.when c f) := by
  cases c
  · exact h
  · exact hf

theorem WritesIn.eng {g : Fld} {l : Nat} (h : WritesIn fs s t) (he : e < 16)
    (hg : (g.n == 16 && fs.all fun f => f.disjoint g) = true) (hl : l ≤ g.m - 1) : t.get g e l = s.get g e l := by
  rw [Bool.and_eq_true, beq_iff_eq] at hg
  exact h g e l hg.2 (by omega) hl

/-- A step that writes fields of `fs`, and neither memory nor the instances nor an array's errors. -/
structure Steps (fs : List Fld) (s t : State) : Prop where
  regs : WritesIn fs s t
  mem : t.mem = s.mem
  insts : t.insts = s.insts
  clean : s.arrErrs = [] → t.arrErrs = []

theorem Steps.refl (fs : List Fld) (s : State) : Steps fs s s := ⟨.refl fs s, rfl, rfl, id⟩

theorem Steps.trans (h : Steps fs s t) (k : Steps fs t u) : Steps fs s u :=
  ⟨h.regs.trans k.regs, k.mem.trans h.mem, k.insts.trans h.insts, fun hs => k.clean (h.clean hs)⟩

theorem Steps.put (h : Steps fs s t) {f : Fld} {i j : Nat} (hf : f ∈ fs) (hi : i ≤ f.n - 1) (hj : j ≤ f.m - 1) (v : Nat) :
    Steps fs s (t.put f v i j) := ⟨h.regs.put hf hi hj v, h.mem, h.insts, h.clean⟩

theorem Steps.when (h : Steps fs s t) {c : Bool} {f : State → State} (hf : Steps fs s (f t)) : Steps fs s (t.when c f) := by
  cases c
  · exact h
  · exact hf

theorem Steps.lates (h : Steps fs s t) (l o : List EngReg) : Steps fs s { t with late := l, olds := o } :=
  ⟨h.regs.ofRegs rfl, h.mem, h.insts, h.clean⟩

/-! ### The trace -/

/-- The fields that a trace record writes (R159, R162). -/
def traceFields : List Fld := [R.SCH_CNT_TRCLOST, H.TRC_TRIG]

theorem trcPut_steps (hf : traceFields ⊆ fs) (h : Steps fs s t) (r : Nat) : Steps fs s (t.trcPut r) := by
  unfold State.trcPut
  split_ifs
  · exact h
  · exact h.put (hf (by decide)) (Nat.zero_le _) (Nat.zero_le _) _
  · exact ⟨h.regs.ofRegs rfl, h.mem, h.insts, h.clean⟩

theorem trc_steps (hf : traceFields ⊆ fs) (h : Steps fs s t) (ty : Nat) (eng : Option Nat) (desc prio info aux : Nat) :
    Steps fs s (t.trc ty eng desc prio info aux) := by
  have hput := trcPut_steps hf h (ty * 2 ^ 60 + (eng.getD 0) % 16 * 2 ^ 56 + desc % 1024 * 2 ^ 46 + prio % 8 * 2 ^ 43 +
    info % 8 * 2 ^ 40 + b2n eng.isSome * 2 ^ 39 + aux % 2 ^ 15 * 2 ^ 24 + t.tofs % 2 ^ 24)
  exact hput.when (trcPut_steps hf (hput.put (hf (by decide)) (Nat.zero_le _) (Nat.zero_le _) _) _)

/-! ### Record slots -/

/-- The fields that a record's move between engines writes (R106, R148). -/
def slotFields : List Fld := [R.SCH_DESC_AFFV, H.ENG_SLOT, H.ENG_USE, H.ENG_SLOT_T]

theorem slotOf_lt {rec k : Nat} (h : s.slotOf e rec = some k) : k < 32 := List.mem_range.1 (List.mem_of_find?_eq_some h)

theorem victim_lt (s : State) (e : Nat) : s.victim e < 32 := by
  have hfold : ∀ l : List Nat, (∀ k ∈ l, k < 32) → ∀ b < 32,
      l.foldl (fun b k => if s.get H.ENG_SLOT_T e k < s.get H.ENG_SLOT_T e b then k else b) b < 32 := by
    intro l
    induction l with
    | nil => exact fun _ _ hb => hb
    | cons k l ih =>
      intro hl b hb
      refine ih (fun x hx => hl x (List.mem_cons_of_mem _ hx)) _ ?_
      dsimp only
      split
      · exact hl k (List.mem_cons_self ..)
      · exact hb
  have hok : ∀ (p : Nat → Bool), ∀ k ∈ (List.range 32).filter p, k < 32 := fun p k hk =>
    List.mem_range.1 (List.mem_of_mem_filter hk)
  unfold State.victim
  dsimp only
  split
  · next k hk => exact hok _ k (List.mem_of_find?_eq_some hk)
  · refine hfold _ (hok _) _ ?_
    rw [List.headD_eq_head?_getD]
    cases hh : ((List.range 32).filter fun k =>
        !(s.heldRecs e).contains (s.get H.ENG_SLOT e k) || s.get H.ENG_SLOT e k == 0).head? with
    | none => decide
    | some k => exact hok _ k (List.mem_of_head? hh)

theorem slotDrop_steps (hf : slotFields ⊆ fs) (h : Steps fs s t) (he : e < 16) {k : Nat} (hk : k < 32) :
    Steps fs s (t.slotDrop e k) := by
  unfold State.slotDrop
  have hclear : Steps fs s (if t.get H.ENG_SLOT e k = 0 then t else t.each (List.range 1024) fun u d =>
      u.when (u.on R.SCH_DESC_AFFV d && u.get R.SCH_DESC_AFF d == e && u.descRec d == t.get H.ENG_SLOT e k) fun u =>
        u.put R.SCH_DESC_AFFV 0 d) := by
    split
    · exact h
    · refine State.each_induction (fun v d hd hv => hv.when (hv.put (hf (by decide)) ?_ (Nat.zero_le _) _)) h
      exact Nat.le_of_lt_succ (List.mem_range.1 hd)
  have hput := hclear.put (hf (by decide)) (Nat.le_of_lt_succ he) (Nat.le_of_lt_succ hk) 0 (f := H.ENG_SLOT)
  exact ⟨hput.regs.ofRegs rfl, hput.mem, hput.insts, hput.clean⟩

theorem slotUse_steps (hf : slotFields ⊆ fs) (h : Steps fs s t) (he : e < 16) {k : Nat} (hk : k < 32) :
    Steps fs s (t.slotUse e k) :=
  (h.put (f := H.ENG_USE) (hf (by decide)) (Nat.zero_le _) (Nat.zero_le _) _).put (hf (by decide)) (Nat.le_of_lt_succ he)
    (Nat.le_of_lt_succ hk) _

theorem evictOthers_steps (hf : slotFields ⊆ fs) (h : Steps fs s t) (e rec : Nat) : Steps fs s (t.evictOthers e rec) := by
  refine State.each_induction (fun v x hx hv => ?_) h
  split
  · exact hv
  · split
    · next k hk => exact slotDrop_steps hf hv (List.mem_range.1 hx) (slotOf_lt hk)
    · exact hv

theorem errWrote_steps (h : Steps fs s t) (arr off n : Nat) : Steps fs s (t.errWrote arr off n) :=
  ⟨h.regs.ofRegs rfl, h.mem, h.insts, fun hs => by simp only [State.errWrote, h.clean hs, List.filter_nil]⟩

theorem recRead_of_clean (h : s.arrErrs = []) (a : Nat) : s.recRead a = s := by
  unfold State.recRead
  rw [h]
  rfl

/-- Where no array has an error, a record comes into its slot. -/
theorem slotLoad_steps (hf : slotFields ⊆ fs) (hs : s.arrErrs = []) (h : Steps fs s t) (he : e < 16) (rec : Nat) :
    Steps fs s (t.slotLoad e rec) := by
  unfold State.slotLoad
  split
  · exact h
  · have hev := evictOthers_steps hf h e rec
    dsimp only
    split
    · next k hk => exact slotUse_steps hf hev he (slotOf_lt hk)
    · have hk := victim_lt (t.evictOthers e rec) e
      have hread : Steps fs s ((t.evictOthers e rec).when (decide (rec < 0x200)) fun s => s.recRead (rec - 1)) :=
        hev.when (by rwa [recRead_of_clean (hev.clean hs)])
      exact errWrote_steps (errWrote_steps (slotUse_steps hf (Steps.put (slotDrop_steps hf hread he hk) (hf (by decide))
        (Nat.le_of_lt_succ he) (Nat.le_of_lt_succ hk) _) he hk) ..) ..

end Sys2Proof.Claims
end

section
/-! PROOFS. A clause dispatched, pre-empted and resumed, and ended by DONE (R110, R120, R124 to R128, R143, R148, R151). -/

namespace Sys2Proof.Machine

/-- The inbox of a clause started at level 0 or 1 (R110). -/
def inboxAt (lvl : Nat) : Nat := if lvl = 0 then 0xFFC0 else 0xFF80

/-- The start of a clause, first part: the inbox, the program counter and the pointers (R110). -/
def State.startHead (s : State) (e lvl : Nat) (x : Inst) : State :=
  let s := (s.errWrote (e / 4) (e % 4 * 0x30000 + inboxAt lvl) 64).setBytes (engMem e 0 + inboxAt lvl) x.inbox
  let s := (s.put H.ENG_PC x.entry e).put H.ENG_P (inboxAt lvl) e 1
  match s.slotOf e x.rcode with
  | some k => (s.put H.ENG_P (0x4000 + 0x280 * k) e 0).put H.ENG_P (0x4000 + 0x180 * k) e 4
  | none => s

/-- Second part: the counters and ESR, of a clause without an injected watchdog. -/
def State.startMid (s : State) (e prio : Nat) : State :=
  let s := (s.put H.ENG_ECYC 0 e).put H.ENG_INJW 0 e
  let s := s.when (bit (s.get H.ENG_INJR e) 16) fun s => s.put H.ENG_INJR (2 ^ 17 + bits (s.get H.ENG_INJR e) 0 16) e
  s.put H.ENG_ESR (esrDispatch (s.get H.ENG_ESR e) prio) e

/-- Third part: the outbox, the level, and what R122 and R124 remember. -/
def State.startTail (s : State) (e lvl : Nat) : State :=
  let s := s.each (List.range 4) fun s k => s.put H.ENG_OUT 0 e (4 * lvl + k)
  let s := ((s.put H.ENG_PUB 0 e lvl).put H.ENG_LVL1 lvl e).put H.ENG_DID 0 e lvl
  let s := ((s.put H.ENG_DLY 0 e).put H.ENG_BT 0 e).put H.ENG_WL 0 e
  { s with late := s.late.filter fun y => y.eng != e, olds := s.olds.filter fun y => y.eng != e }

end Sys2Proof.Machine

namespace Sys2Proof.Claims
open Sys2Proof.Machine

variable {s t : State} {e lvl : Nat}

/-! ### The start of a clause -/

theorem startHead_writes (he : e < 16) (s : State) (lvl : Nat) (x : Inst) :
    WritesIn [H.ENG_PC, H.ENG_P] s (s.startHead e lvl x) := by
  have hi : e ≤ 15 := Nat.le_of_lt_succ he
  have hmem : WritesIn [H.ENG_PC, H.ENG_P] s
      ((s.errWrote (e / 4) (e % 4 * 0x30000 + inboxAt lvl) 64).setBytes (engMem e 0 + inboxAt lvl) x.inbox) :=
    fun g i j _ _ _ => State.setBytes_get ..
  have hhead := (hmem.put (f := H.ENG_PC) (by decide) hi (Nat.zero_le 0) x.entry).put (f := H.ENG_P) (by decide) hi
    (show 1 ≤ 7 by decide) (inboxAt lvl)
  unfold State.startHead
  dsimp only
  split
  · exact (hhead.put (by decide) hi (show 0 ≤ 7 by decide) _).put (by decide) hi (show 4 ≤ 7 by decide) _
  · exact hhead

theorem startMid_steps (he : e < 16) (s : State) (prio : Nat) :
    Steps [H.ENG_ECYC, H.ENG_INJW, H.ENG_INJR, H.ENG_ESR] s (s.startMid e prio) := by
  have hi : e ≤ 15 := Nat.le_of_lt_succ he
  have h := ((Steps.refl [H.ENG_ECYC, H.ENG_INJW, H.ENG_INJR, H.ENG_ESR] s).put (f := H.ENG_ECYC) (by decide) hi
    (Nat.zero_le 0) 0).put (f := H.ENG_INJW) (by decide) hi (Nat.zero_le 0) 0
  exact (h.when (h.put (by decide) hi (Nat.zero_le 0) _)).put (by decide) hi (Nat.zero_le 0) _

/-- The fields that the last part of a clause's start writes. -/
def tailFields : List Fld := [H.ENG_OUT, H.ENG_PUB, H.ENG_LVL1, H.ENG_DID, H.ENG_DLY, H.ENG_BT, H.ENG_WL]

theorem startTail_steps (he : e < 16) (hl : lvl < 2) (s : State) : Steps tailFields s (s.startTail e lvl) := by
  have hi : e ≤ 15 := Nat.le_of_lt_succ he
  have hout : Steps tailFields s (s.each (List.range 4) fun s k => s.put H.ENG_OUT 0 e (4 * lvl + k)) := by
    refine State.each_induction (fun v k hk hv => hv.put (by decide) hi ?_ _) (.refl _ _)
    have := List.mem_range.1 hk
    exact (show 4 * lvl + k ≤ 7 by omega)
  have hlvl := ((hout.put (f := H.ENG_PUB) (by decide) hi (show lvl ≤ 1 by omega) 0).put (f := H.ENG_LVL1) (by decide) hi
    (Nat.zero_le 0) lvl).put (f := H.ENG_DID) (by decide) hi (show lvl ≤ 1 by omega) 0
  have hend := ((hlvl.put (f := H.ENG_DLY) (by decide) hi (Nat.zero_le 0) 0).put (f := H.ENG_BT) (by decide) hi
    (Nat.zero_le 0) 0).put (f := H.ENG_WL) (by decide) hi (Nat.zero_le 0) 0
  exact hend.lates _ _

/-- The start of a clause without an injected watchdog is its three parts. -/
theorem engStart_eq (he : e < 16) (hw : s.get H.ENG_INJW e = 0) (x : Inst) :
    s.engStart e lvl x = ((s.startHead e lvl x).startMid e x.prio).startTail e lvl := by
  have hget : (s.startHead e lvl x).get H.ENG_INJW e = 0 :=
    ((startHead_writes he s lvl x).eng he (by decide) (Nat.zero_le _)).trans hw
  have hhead : (s.startHead e lvl x).on H.ENG_INJW e = false := State.on_eq_false hget
  have hcyc : ((s.startHead e lvl x).put H.ENG_ECYC 0 e).on H.ENG_INJW e = false :=
    State.on_eq_false ((State.get_put_engVar he (by decide) (Nat.zero_le _) (Nat.zero_le _) ..).trans hget)
  have hstart : s.engStart e lvl x = (let s := s.startHead e lvl x
      let s := s.put H.ENG_ECYC (if s.on H.ENG_INJW e then 65535 - bits (s.get H.ENG_INJW e) 0 16 else 0) e
      let s := s.when (s.on H.ENG_INJW e) fun s => s.injFired 0x05 e
      let s := s.put H.ENG_INJW 0 e
      let s := s.when (bit (s.get H.ENG_INJR e) 16) fun s => s.put H.ENG_INJR (2 ^ 17 + bits (s.get H.ENG_INJR e) 0 16) e
      (s.put H.ENG_ESR (esrDispatch (s.get H.ENG_ESR e) x.prio) e).startTail e lvl) := rfl
  rw [hstart]
  simp only [hhead, Bool.false_eq_true, if_false, hcyc, State.when_false]
  rfl

/-- Every field that the start of a clause writes. -/
def startFields : List Fld :=
  [H.ENG_PC, H.ENG_P, H.ENG_ECYC, H.ENG_INJW, H.ENG_INJR, H.ENG_ESR] ++ tailFields

theorem insts_of_lists (h : lists t = lists s) : t.insts = s.insts := (congrArg State.insts h :)

theorem setBytes_insts (s : State) (a : Nat) (l : List Nat) : (s.setBytes a l).insts = s.insts :=
  insts_of_lists (lists_setBytes s a l)

theorem errWrote_insts (s : State) (arr off n : Nat) : (s.errWrote arr off n).insts = s.insts := rfl

theorem startHead_insts (s : State) (e lvl : Nat) (x : Inst) : (s.startHead e lvl x).insts = s.insts := by
  unfold State.startHead
  dsimp only
  split
  · rw [State.put_insts, State.put_insts, State.put_insts, State.put_insts, setBytes_insts, errWrote_insts]
  · rw [State.put_insts, State.put_insts, setBytes_insts, errWrote_insts]

theorem startHead_pc (he : e < 16) (s : State) (lvl : Nat) (x : Inst) :
    (s.startHead e lvl x).get H.ENG_PC e = x.entry % 2 ^ 16 ∧ (s.startHead e lvl x).get H.ENG_P e 1 = inboxAt lvl := by
  have hin : inboxAt lvl % 2 ^ 16 = inboxAt lvl := by
    unfold inboxAt
    split <;> rfl
  have hne : ∀ k : Nat, k ≠ 1 → fkey H.ENG_P e k ≠ fkey H.ENG_P e 1 := fun k hk => by
    simp only [fkey, H.ENG_P]
    omega
  unfold State.startHead
  dsimp only
  split
  · refine ⟨?_, ?_⟩
    · simp (disch := decide) only [State.get_put_engVar he, State.get_put_self]
      rfl
    · rw [State.get_put_ne _ _ (hne 4 (by decide)), State.get_put_ne _ _ (hne 0 (by decide)), State.get_put_self]
      exact hin
  · exact ⟨(State.get_put_engVar he (by decide) (by decide) (by decide) ..).trans (State.get_put_self ..),
      (State.get_put_self ..).trans hin⟩

/-- The release packet leads the inbox (R110). -/
theorem inbox_getElem (x : Inst) {k : Nat} (hk : k < 24) :
    ∃ h : k < x.inbox.length, x.inbox[k] = x.pkt.getD k 0 := by
  have hlen : k < ((List.range 24).map fun k => x.pkt.getD k 0).length := by simpa using hk
  have happ : x.inbox = ((List.range 24).map fun k => x.pkt.getD k 0) ++ (toBytes 8 x.fb ++ (toBytes 8 x.t ++
      (toBytes 4 (x.desc % 1024 + x.cause * 4096 + b2n x.retry * 65536) ++ List.replicate 20 0))) := by
    simp only [Inst.inbox, List.append_assoc]
  refine ⟨by rw [happ, List.length_append]; omega, ?_⟩
  simp only [happ, List.getElem_append_left hlen, List.getElem_map, List.getElem_range]

theorem startHead_packet (s : State) (e lvl : Nat) (x : Inst) {k : Nat} (hk : k < 24) :
    (s.startHead e lvl x).byte (engMem e 0 + inboxAt lvl + k) = x.pkt.getD k 0 % 256 := by
  obtain ⟨hlen, hval⟩ := inbox_getElem x hk
  have hset := State.byte_setBytes_in x.inbox (s.errWrote (e / 4) (e % 4 * 0x30000 + inboxAt lvl) 64)
    (engMem e 0 + inboxAt lvl) k hlen
  rw [hval] at hset
  unfold State.startHead
  dsimp only
  split <;> simp only [State.put_byte, hset]

theorem startMid_values (he : e < 16) (s : State) (prio : Nat) :
    (s.startMid e prio).get H.ENG_ECYC e = 0 ∧ (s.startMid e prio).esr e = esrDispatch (s.esr e) prio % 2 ^ 16 := by
  let a := (s.put H.ENG_ECYC 0 e).put H.ENG_INJW 0 e
  let b := a.when (bit (a.get H.ENG_INJR e) 16) fun s => s.put H.ENG_INJR (2 ^ 17 + bits (s.get H.ENG_INJR e) 0 16) e
  have hb : ∀ {g : Fld}, H.ENG_INJR.engApart g = true → b.get g e = a.get g e := fun hg =>
    State.when_same (fun t => t.get _ e) _ _ (State.get_put_engVar he hg (Nat.zero_le _) (Nat.zero_le _) ..)
  have hcyc : a.get H.ENG_ECYC e = 0 :=
    (State.get_put_engVar he (by decide) (Nat.zero_le _) (Nat.zero_le _) ..).trans (State.get_put_self ..)
  have hesr : a.get H.ENG_ESR e = s.get H.ENG_ESR e :=
    (State.get_put_engVar he (by decide) (Nat.zero_le _) (Nat.zero_le _) ..).trans
      (State.get_put_engVar he (by decide) (Nat.zero_le _) (Nat.zero_le _) ..)
  refine ⟨(State.get_put_engVar he (by decide) (Nat.zero_le _) (Nat.zero_le _) ..).trans ((hb (by decide)).trans hcyc), ?_⟩
  refine (State.get_put_self b H.ENG_ESR (esrDispatch (b.get H.ENG_ESR e) prio) e 0).trans ?_
  rw [hb (by decide), hesr]
  rfl

theorem get_put_out_ne {i j : Nat} (h : i ≠ j) (s : State) (v : Nat) :
    (s.put H.ENG_OUT v e i).get H.ENG_OUT e j = s.get H.ENG_OUT e j := by
  refine State.get_put_ne _ _ ?_
  simp only [fkey, H.ENG_OUT]
  omega

theorem startTail_values (he : e < 16) (hl : lvl < 2) (s : State) :
    (s.startTail e lvl).get H.ENG_LVL1 e = lvl ∧ ∀ k < 4, (s.startTail e lvl).get H.ENG_OUT e (4 * lvl + k) = 0 := by
  let o := s.each (List.range 4) fun s k => s.put H.ENG_OUT 0 e (4 * lvl + k)
  have hi : e ≤ 15 := Nat.le_of_lt_succ he
  have hlvl : WritesIn [H.ENG_DID, H.ENG_DLY, H.ENG_BT, H.ENG_WL] ((o.put H.ENG_PUB 0 e lvl).put H.ENG_LVL1 lvl e)
      (s.startTail e lvl) := by
    have hdid := (Steps.refl [H.ENG_DID, H.ENG_DLY, H.ENG_BT, H.ENG_WL] ((o.put H.ENG_PUB 0 e lvl).put H.ENG_LVL1 lvl e)).put
      (f := H.ENG_DID) (by decide) hi (show lvl ≤ 1 by omega) 0
    have hwl := ((hdid.put (f := H.ENG_DLY) (by decide) hi (Nat.zero_le 0) 0).put (f := H.ENG_BT) (by decide) hi
      (Nat.zero_le 0) 0).put (f := H.ENG_WL) (by decide) hi (Nat.zero_le 0) 0
    exact (hwl.lates _ _).regs
  have hpub : WritesIn [H.ENG_PUB, H.ENG_LVL1] o ((o.put H.ENG_PUB 0 e lvl).put H.ENG_LVL1 lvl e) :=
    ((WritesIn.refl _ _).put (by decide) hi (show lvl ≤ 1 by omega) 0).put (by decide) hi (Nat.zero_le 0) lvl
  refine ⟨(hlvl.eng he (by decide) (Nat.zero_le _)).trans ((State.get_put_self ..).trans ?_), fun k hk => ?_⟩
  · exact Nat.mod_eq_of_lt hl
  · have hm : 4 * lvl + k ≤ H.ENG_OUT.m - 1 := (show 4 * lvl + k ≤ 7 by omega)
    refine (hlvl.eng he (by decide) hm).trans ((hpub.eng he (by decide) hm).trans ?_)
    have ho : o = (((s.put H.ENG_OUT 0 e (4 * lvl + 0)).put H.ENG_OUT 0 e (4 * lvl + 1)).put H.ENG_OUT 0 e
      (4 * lvl + 2)).put H.ENG_OUT 0 e (4 * lvl + 3) := rfl
    rw [ho]
    interval_cases k <;> simp (disch := omega) only [get_put_out_ne, State.get_put_self, Nat.zero_mod]

/-- A clause as its start leaves it (R110). -/
structure Started (s t : State) (e lvl : Nat) (x : Inst) : Prop where
  pc : t.get H.ENG_PC e = x.entry % 2 ^ 16
  inbox : t.get H.ENG_P e 1 = inboxAt lvl
  cycles : t.get H.ENG_ECYC e = 0
  level : t.get H.ENG_LVL1 e = lvl
  outbox : ∀ k < 4, t.get H.ENG_OUT e (4 * lvl + k) = 0
  esr : t.esr e = esrDispatch (s.esr e) x.prio % 2 ^ 16
  packet : ∀ k < 24, t.byte (engMem e 0 + inboxAt lvl + k) = x.pkt.getD k 0 % 256
  insts : t.insts = s.insts
  regs : WritesIn startFields s t

theorem Started.outbox_zero {x : Inst} (h : Started s t e 0 x) : ∀ k < 4, t.get H.ENG_OUT e k = 0 := fun k hk => by
  simpa only [Nat.mul_zero, Nat.zero_add] using h.outbox k hk

theorem engStart_started (he : e < 16) (hl : lvl < 2) (hw : s.get H.ENG_INJW e = 0) (x : Inst) :
    Started s (s.engStart e lvl x) e lvl x := by
  rw [engStart_eq he hw]
  have hhead := startHead_writes he s lvl x
  have hmids := startMid_steps he (s.startHead e lvl x) x.prio
  have htails := startTail_steps he hl ((s.startHead e lvl x).startMid e x.prio)
  have hmid := hmids.regs
  have htail := htails.regs
  obtain ⟨hpc, hp⟩ := startHead_pc he s lvl x
  obtain ⟨hcyc, hesr⟩ := startMid_values he (s.startHead e lvl x) x.prio
  obtain ⟨hlvl, hout⟩ := startTail_values he hl ((s.startHead e lvl x).startMid e x.prio)
  refine ⟨?_, ?_, ?_, hlvl, hout, ?_, fun k hk => ?_, ?_, ?_⟩
  · exact (htail.eng he (by decide) (Nat.zero_le _)).trans ((hmid.eng he (by decide) (Nat.zero_le _)).trans hpc)
  · exact (htail.eng he (by decide) (by decide)).trans ((hmid.eng he (by decide) (by decide)).trans hp)
  · exact (htail.eng he (by decide) (Nat.zero_le _)).trans hcyc
  · refine (htail.eng he (by decide) (Nat.zero_le _)).trans (hesr.trans ?_)
    rw [State.esr, hhead.eng he (by decide) (Nat.zero_le _), State.esr]
  · rw [State.byte, htails.mem, hmids.mem, ← State.byte, startHead_packet s e lvl x hk]
  · rw [htails.insts, hmids.insts, startHead_insts]
  · exact (hhead.mono (by decide)).trans ((hmid.mono (by decide)).trans (htail.mono (by decide)))

/-! ### Dispatch -/

/-- What precedes the start of a clause, in the scheduler and at DISP (R126, R148): the trace, the misses counted, and the
record's load. -/
def loadFor (s : State) (x : Inst) (e : Nat) : State :=
  let d := x.desc
  let hit := s.on R.SCH_DESC_AFFV d && s.get R.SCH_DESC_AFF d == e
  let s := s.trc (if hit then 1 else 2) (some e) d x.prio 0 (x.cause + b2n x.retry * 4)
  let s := s.when (!hit) fun s => (s.incSat R.SCH_CNT_AFFMISS).put H.ENG_LOAD (b2n (x.rcode != 0)) e
  let s := s.when x.retry fun s => s.incSat R.SCH_CNT_RETRY
  s.slotLoad e x.rcode

/-- The affinity of a descriptor set (R137). -/
def affine (s : State) (d e : Nat) : State := (s.put R.SCH_DESC_AFF e d).put R.SCH_DESC_AFFV 1 d

/-- The fields written before the start of a clause. -/
def loadFields : List Fld :=
  slotFields ++ traceFields ++ [R.SCH_CNT_AFFMISS, H.ENG_LOAD, R.SCH_CNT_RETRY]

theorem loadFor_steps (hs : s.arrErrs = []) (he : e < 16) (x : Inst) : Steps loadFields s (loadFor s x e) := by
  have hi : e ≤ 15 := Nat.le_of_lt_succ he
  unfold loadFor
  dsimp only
  refine slotLoad_steps (by decide) hs ?_ he _
  generalize hhit : (s.on R.SCH_DESC_AFFV x.desc && s.get R.SCH_DESC_AFF x.desc == e) = hit
  have htrc := trc_steps (fs := loadFields) (by decide) (Steps.refl _ s) (if hit then 1 else 2) (some e) x.desc x.prio 0
    (x.cause + b2n x.retry * 4)
  have hmiss := htrc.when (c := !hit) (f := fun s => (s.incSat R.SCH_CNT_AFFMISS).put H.ENG_LOAD (b2n (x.rcode != 0)) e)
    ((htrc.put (f := R.SCH_CNT_AFFMISS) (by decide) (Nat.zero_le _) (Nat.zero_le _) _).put (by decide) hi (Nat.zero_le _) _)
  exact hmiss.when (hmiss.put (by decide) (Nat.zero_le _) (Nat.zero_le _) _)

theorem affine_writes {d : Nat} (hd : d < 1024) (s : State) (e : Nat) :
    WritesIn [R.SCH_DESC_AFF, R.SCH_DESC_AFFV] s (affine s d e) :=
  (((WritesIn.refl [R.SCH_DESC_AFF, R.SCH_DESC_AFFV] s).put (f := R.SCH_DESC_AFF) (by decide) (Nat.le_of_lt_succ hd)
    (Nat.zero_le _) e).put (f := R.SCH_DESC_AFFV) (by decide) (Nat.le_of_lt_succ hd) (Nat.zero_le _) 1)

theorem affine_values (he : e < 16) (s : State) (d : Nat) :
    (affine s d e).get R.SCH_DESC_AFF d = e ∧ (affine s d e).get R.SCH_DESC_AFFV d = 1 := by
  have hne : fkey R.SCH_DESC_AFFV d 0 ≠ fkey R.SCH_DESC_AFF d 0 := by
    simp only [fkey, R.SCH_DESC_AFFV, R.SCH_DESC_AFF]
    omega
  exact ⟨(State.get_put_ne _ _ hne).trans (State.get_put_of_lt _ _ _ he), State.get_put_self ..⟩

theorem dispatchTo_eq (s : State) (x : Inst) (e : Nat) : s.dispatchTo x e =
    ((((affine (loadFor s x e) x.desc e).setEngSt e 1).putInst { x with st := 1, eng := e }).saveRec x).engStart e 0 x := rfl

theorem engineFor_lt {x : Inst} (h : s.engineFor x = some e) : e < 16 := by
  have hok : ∀ (p : Nat → Bool), ∀ k ∈ (List.range 16).filter p, k < 16 := fun p k hk =>
    List.mem_range.1 (List.mem_of_mem_filter hk)
  unfold State.engineFor at h
  dsimp only at h
  split at h
  · next hc =>
    cases h
    rw [Bool.and_eq_true, List.contains_iff_mem] at hc
    exact hok _ _ hc.2
  · split at h
    · next k hk =>
      cases h
      exact hok _ _ (List.mem_of_find?_eq_some hk)
    · exact hok _ _ (List.mem_of_head? h)

theorem eq_of_mem_setInst {l : List Inst} {x y : Inst} (h : y ∈ setInst l x) (hid : y.id = x.id) : y = x := by
  obtain ⟨z, -, hz⟩ := List.mem_map.1 h
  split at hz
  · exact hz.symm
  · next hne => exact absurd (hz ▸ hid) hne

theorem esrDispatch_eq (r prio : Nat) : esrLvl (esrDispatch r prio % 2 ^ 16) = 0 ∧
    bit (esrDispatch r prio % 2 ^ 16) 6 = decide (prio < 7) ∧
    bit (esrDispatch r prio % 2 ^ 16) 10 = bit r 10 := by
  unfold esrDispatch esrLvl bits bit
  refine ⟨?_, ?_, ?_⟩
  · split <;> omega
  · by_cases h : prio < 7
    · simp only [h, if_true, decide_true, beq_iff_eq]
      omega
    · simp only [h, if_false, decide_false, beq_eq_false_iff_ne]
      omega
  · rw [Bool.eq_iff_iff, beq_iff_eq, beq_iff_eq]
    split <;> omega

/-- The dispatcher gives an instance to an engine (R110, R148). -/
theorem dispatch_completes {x : Inst} (hd : x.desc < 1024) (hnext : s.nextInst = some x) (heng : s.engineFor x = some e)
    (hw : s.get H.ENG_INJW e = 0) (harr : s.arrErrs = []) :
    Completes .clauseDispatch s fun t => t.get H.ENG_PC e = x.entry % 2 ^ 16 ∧ t.engSt e = 1 ∧ t.get H.ENG_ECYC e = 0 ∧
      t.get H.ENG_P e 1 = 0xFFC0 ∧ t.get R.SCH_DESC_AFF x.desc = e ∧ t.get R.SCH_DESC_AFFV x.desc = 1 ∧
      (∀ k < 4, t.get H.ENG_OUT e k = 0) ∧ (∀ k, k < 24 → t.byte (engMem e 0 + 0xFFC0 + k) = x.pkt.getD k 0 % 256) ∧
      esrLvl (t.esr e) = 0 ∧ bit (t.esr e) 6 = decide (x.prio < 7) ∧
      ∀ y ∈ t.insts, y.id = x.id → y.st = 1 ∧ y.eng = e := by
  have he := engineFor_lt heng
  have hdi : x.desc ≤ R.SCH_DESC_AFF.n - 1 := (show x.desc ≤ 1023 by omega)
  have hdv : x.desc ≤ R.SCH_DESC_AFFV.n - 1 := (show x.desc ≤ 1023 by omega)
  let a := affine (loadFor s x e) x.desc e
  let w := ((a.setEngSt e 1).putInst { x with st := 1, eng := e }).saveRec x
  have hexec : exec .clauseDispatch s = .next (w.engStart e 0 x) := by
    show execClauseDispatch s = _
    simp only [execClauseDispatch, hnext, heng]
    exact congrArg Host.Outcome.next (dispatchTo_eq s x e)
  have hload := (loadFor_steps harr he x).regs
  have haff : WritesIn [R.SCH_DESC_AFF, R.SCH_DESC_AFFV] (loadFor s x e) a :=
    affine_writes hd _ e
  have haffv := affine_values he (loadFor s x e) x.desc
  have hst : WritesIn [R.SCH_ENG_STATE] a w :=
    ((WritesIn.refl _ _).put (f := R.SCH_ENG_STATE) (by decide) (Nat.zero_le _) (Nat.zero_le _) _).ofRegs rfl
  have hww : w.get H.ENG_INJW e = 0 := (hst.eng he (by decide) (Nat.zero_le _)).trans
    ((haff.eng he (by decide) (Nat.zero_le _)).trans ((hload.eng he (by decide) (Nat.zero_le _)).trans hw))
  have hgo := engStart_started (lvl := 0) he (by decide) hww x
  obtain ⟨hlvl, hie, -⟩ := esrDispatch_eq (w.esr e) x.prio
  refine ⟨_, hexec, hgo.pc, ?_, hgo.cycles, hgo.inbox, ?_, ?_, fun k hk => ?_, hgo.packet, ?_, ?_, fun y hy hid => ?_⟩
  · have hsame : (w.engStart e 0 x).get R.SCH_ENG_STATE = (a.setEngSt e 1).get R.SCH_ENG_STATE :=
      hgo.regs _ _ _ (by decide) (Nat.zero_le _) (Nat.zero_le _)
    rw [State.engSt, hsame, ← State.engSt, State.engSt_setEngSt a he (by decide)]
  · refine (hgo.regs _ _ _ (by decide) hdi (Nat.zero_le _)).trans ((hst _ _ _ (by decide) hdi (Nat.zero_le _)).trans ?_)
    exact haffv.1
  · refine (hgo.regs _ _ _ (by decide) hdv (Nat.zero_le _)).trans ((hst _ _ _ (by decide) hdv (Nat.zero_le _)).trans ?_)
    exact haffv.2
  · exact hgo.outbox_zero k hk
  · rw [hgo.esr, hlvl]
  · rw [hgo.esr, hie]
  · rw [hgo.insts] at hy
    rw [eq_of_mem_setInst (x := { x with st := 1, eng := e }) hy hid]
    exact ⟨rfl, rfl⟩

/-! ### Pre-emption -/

/-- DISP starts the pre-empting clause (R110, R120, R126). -/
theorem disp_completes {x : Inst} (hd : x.desc < 1024) (harr : s.arrErrs = []) (hlate : ∀ z ∈ s.late, z.eng ≠ e)
    (hcan : s.engCan e = true) (hpre : bit (s.esr e) 10 = true) (hacc : s.acceptedInst e = some x)
    (hw : s.get H.ENG_INJW e = 0) :
    Completes (.disp e) s fun t => t.get H.ENG_PC e = x.entry % 2 ^ 16 ∧ t.get H.ENG_LVL1 e = 1 ∧
      t.get H.ENG_P e 1 = 0xFF80 ∧ t.get H.ENG_ECYC e = 0 ∧ bit (t.esr e) 10 = true := by
  have he := State.engCan_lt hcan
  let u : State := { s with olds := s.olds.filter fun x => x.eng != e }
  let w := ((affine (loadFor u x e) x.desc e).putInst { x with st := 1 }).saveRec x
  have hexec : exec (.disp e) s = .next (w.engStart e 1 x) := by
    show execDisp e s = _
    simp only [execDisp, hcan, hpre, Bool.not_true, Bool.false_eq_true, if_false, hacc, landLate_of_none hlate]
    rfl
  have hww : ∀ {g : Fld}, (g.n == 16 && loadFields.all fun f => f.disjoint g) = true →
      (g.n == 16 && [R.SCH_DESC_AFF, R.SCH_DESC_AFFV].all fun f => f.disjoint g) = true → w.get g e = s.get g e :=
    fun hl ha => ((affine_writes hd _ e).eng he ha (Nat.zero_le _)).trans
      ((loadFor_steps (s := u) harr he x).regs.eng he hl (Nat.zero_le _))
  have hgo := engStart_started (lvl := 1) he (by decide) ((hww (by decide) (by decide)).trans hw) x
  refine ⟨_, hexec, hgo.pc, hgo.level, hgo.inbox, hgo.cycles, ?_⟩
  rw [hgo.esr, (esrDispatch_eq ..).2.2, State.esr, hww (by decide) (by decide), ← State.esr, hpre]

/-- ESR of a handler that a pre-emption starts: PRE and LSUSP set, IE and LVL clear (R125). -/
theorem preemptEsr (r : Nat) :
    let h := esrWithLvl (setBit (setBit (clrBit r 6) 7) 10) 0 % 2 ^ 16
    bit h 10 = true ∧ bit h 7 = true ∧ bit h 6 = false := by
  intro h
  generalize hx : setBit (setBit (clrBit r 6) 7) 10 = x
  have hbit : ∀ k, bit x k = (bit (clrBit r 6) k || decide (k = 7) || decide (k = 10)) := fun k => by
    rw [← hx, bit_setBit_eq, bit_setBit_eq]
  have hlow : x % 2 ^ 8 < 2 ^ 10 := Nat.lt_of_lt_of_le (Nat.mod_lt _ (by decide)) (by decide)
  have heq : h = (x / 2 ^ 10 * 2 ^ 10 + x % 2 ^ 8) % 2 ^ 16 := by
    have hval : esrWithLvl x 0 = x / 2 ^ 10 * 2 ^ 10 + x % 2 ^ 8 := by
      simp only [esrWithLvl, bits]
      omega
    rw [← hval, ← hx]
  have hread : ∀ k < 16, bit h k = if k < 10 then bit (x % 2 ^ 8) k else bit x k := fun k hk => by
    rw [heq, bit_mod_two_pow hk, bit_lowReplaced hlow]
  refine ⟨?_, ?_, ?_⟩
  · rw [hread 10 (by decide), if_neg (by decide), hbit, decide_eq_true rfl, Bool.or_true]
  · rw [hread 7 (by decide), if_pos (by decide), bit_mod_two_pow (by decide), hbit, decide_eq_true rfl, Bool.or_true,
      Bool.true_or]
  · rw [hread 6 (by decide), if_pos (by decide), bit_mod_two_pow (by decide), hbit, bit_clrBit]
    rfl

/-- The state of the pre-empted clause saved (R125). -/
def preemptSaved (s : State) (e : Nat) : State :=
  ((s.put H.ENG_EPC (s.get H.ENG_PC e) e).put H.ENG_ESS (esrWhole e (s.esr e)) e).put H.ENG_ECS (s.get H.ENG_ECYC e) e

theorem preemptSaved_values (he : e < 16) (s : State) :
    (preemptSaved s e).get H.ENG_EPC e = s.get H.ENG_PC e % 2 ^ 16 ∧
    (preemptSaved s e).get H.ENG_ESS e = esrWhole e (s.esr e) ∧
    (preemptSaved s e).get H.ENG_ECS e = s.get H.ENG_ECYC e % 2 ^ 32 := by
  have hwhole : esrWhole e (s.esr e) < 2 ^ 32 := by
    unfold esrWhole
    omega
  unfold preemptSaved
  refine ⟨?_, ?_, State.get_put_self ..⟩
  · exact (State.get_put_engVar he (by decide) (Nat.zero_le _) (Nat.zero_le _) ..).trans
      ((State.get_put_engVar he (by decide) (Nat.zero_le _) (Nat.zero_le _) ..).trans (State.get_put_self ..))
  · exact (State.get_put_engVar he (by decide) (Nat.zero_le _) (Nat.zero_le _) ..).trans (State.get_put_of_lt _ _ _ hwhole)

/-- The handler begins at 0x0040 (R125). -/
def preemptHead (s : State) (e : Nat) : State :=
  ((preemptSaved s e).put H.ENG_ESR (esrWithLvl (setBit (setBit (clrBit (s.esr e) 6) 7) 10) 0) e).put H.ENG_PC 0x0040 e

/-- What a pre-emption notes: that the handler's first instruction is a branch target, the two instances, and a record. -/
def preemptNoted (s : State) (e : Nat) (x y : Inst) : State :=
  ((((s.put H.ENG_BT 1 e).putInst { y with st := 2 }).putInst { x with st := 3, eng := e }).incSat R.SCH_CNT_PREEMPT).trc 4
    (some e) x.desc x.prio 0 0

/-- The fields that a pre-emption notes. -/
def notedFields : List Fld := R.SCH_CNT_PREEMPT :: H.ENG_BT :: traceFields

theorem preemptNoted_writes (he : e < 16) (s : State) (x y : Inst) : WritesIn notedFields s (preemptNoted s e x y) := by
  have hbt := (WritesIn.refl notedFields s).put (f := H.ENG_BT) (by decide) (Nat.le_of_lt_succ he) (Nat.zero_le _) 1
  have hput : WritesIn notedFields s
      (((s.put H.ENG_BT 1 e).putInst { y with st := 2 }).putInst { x with st := 3, eng := e }) := hbt.ofRegs rfl
  have hcnt := hput.incSat (f := R.SCH_CNT_PREEMPT) (by decide) (Nat.zero_le 0) (Nat.zero_le 0)
  exact hcnt.trans (trc_steps (by decide) (.refl notedFields _) ..).regs

theorem incSat_mem (s : State) (f : Fld) (i j : Nat) : (s.incSat f i j).mem = s.mem := rfl

theorem addSat_mem (s : State) (f : Fld) (n i j : Nat) : (s.addSat f n i j).mem = s.mem := rfl

theorem putInst_mem (s : State) (x : Inst) : (s.putInst x).mem = s.mem := rfl

theorem preemptNoted_mem (s : State) (e : Nat) (x y : Inst) : (preemptNoted s e x y).mem = s.mem := by
  rw [preemptNoted, State.trc_mem, incSat_mem, putInst_mem, putInst_mem, State.put_mem]

theorem preemptHead_mem (s : State) (e : Nat) : (preemptHead s e).mem = s.mem := by
  rw [preemptHead, State.put_mem, State.put_mem, preemptSaved, State.put_mem, State.put_mem, State.put_mem]

theorem handlerEsr (he : e < 16) (s : State) (v pc : Nat) : ((s.put H.ENG_ESR v e).put H.ENG_PC pc e).esr e = v % 2 ^ 16 :=
  (State.get_put_engVar he (by decide) (Nat.zero_le _) (Nat.zero_le _) ..).trans (State.get_put_self ..)

theorem preemptHead_values (he : e < 16) (s : State) :
    (preemptHead s e).get H.ENG_PC e = 0x0040 ∧
    (preemptHead s e).esr e = esrWithLvl (setBit (setBit (clrBit (s.esr e) 6) 7) 10) 0 % 2 ^ 16 ∧
    ∀ {g : Fld}, H.ENG_PC.engApart g = true → H.ENG_ESR.engApart g = true →
      (preemptHead s e).get g e = (preemptSaved s e).get g e :=
  ⟨State.get_put_of_lt _ _ _ (by decide), handlerEsr he ..,
    fun hp hr => (State.get_put_engVar he hp (Nat.zero_le _) (Nat.zero_le _) ..).trans
      (State.get_put_engVar he hr (Nat.zero_le _) (Nat.zero_le _) ..)⟩

theorem preemption_run {x y : Inst} (hlate : ∀ z ∈ s.late, z.eng ≠ e) (hnext : s.nextInst = some x)
    (hprio : x.prio = 7) (hfull : s.engineFor x = none) (hcan : s.engCan e = true) (hopen : s.openBoundary e = true)
    (hvictim : s.preemptVictim x = some y) (hy : y.eng = e) : exec (.preemption e) s =
      .next (preemptNoted (preemptHead { s with olds := s.olds.filter fun x => x.eng != e } e) e x y) := by
  have hgoes : ¬(x.prio ≠ 7 ∨ (s.engineFor x).isSome ∨ !s.engCan e ∨ !s.openBoundary e) := by
    simp [hprio, hfull, hcan, hopen]
  show execPreemption e s = _
  unfold execPreemption
  rw [hnext]
  dsimp only
  rw [if_neg hgoes, hvictim]
  dsimp only
  rw [if_neg (not_not_intro hy), landLate_of_none hlate]
  rfl

/-- A pre-emption saves the state of the clause it chooses and goes on in the handler (R124, R125, R151). -/
theorem preemption_completes {x y : Inst} (hlate : ∀ z ∈ s.late, z.eng ≠ e) (hnext : s.nextInst = some x)
    (hprio : x.prio = 7) (hfull : s.engineFor x = none) (hcan : s.engCan e = true) (hopen : s.openBoundary e = true)
    (hvictim : s.preemptVictim x = some y) (hy : y.eng = e) :
    Completes (.preemption e) s fun t => t.get H.ENG_EPC e = s.get H.ENG_PC e % 2 ^ 16 ∧
      t.get H.ENG_ESS e = esrWhole e (s.esr e) ∧ t.get H.ENG_ECS e = s.get H.ENG_ECYC e % 2 ^ 32 ∧
      t.get H.ENG_PC e = 0x0040 ∧ bit (t.esr e) 10 = true ∧ bit (t.esr e) 7 = true ∧ bit (t.esr e) 6 = false ∧
      t.mem = s.mem := by
  have he := State.engCan_lt hcan
  have hexec := preemption_run hlate hnext hprio hfull hcan hopen hvictim hy
  generalize hu : ({ s with olds := s.olds.filter fun x => x.eng != e } : State) = u at hexec
  have hget : ∀ g : Fld, u.get g e = s.get g e := fun g => by rw [← hu, State.get_olds]
  have hmem : u.mem = s.mem := by rw [← hu]
  have hesru : u.esr e = s.esr e := hget _
  have hw := preemptNoted_writes he (preemptHead u e) x y
  obtain ⟨hpc, hesr, hsaved⟩ := preemptHead_values he u
  obtain ⟨hepc, hess, hecs⟩ := preemptSaved_values he u
  obtain ⟨hpre, hsusp, hie⟩ := preemptEsr (u.esr e)
  have hesrt := (hw.eng he (by decide) (Nat.zero_le _)).trans hesr
  refine ⟨_, hexec, ?_, ?_, ?_, (hw.eng he (by decide) (Nat.zero_le _)).trans hpc, ?_, ?_, ?_, ?_⟩
  · rw [hw.eng he (by decide) (Nat.zero_le _), hsaved (by decide) (by decide), hepc, hget]
  · rw [hw.eng he (by decide) (Nat.zero_le _), hsaved (by decide) (by decide), hess, hesru]
  · rw [hw.eng he (by decide) (Nat.zero_le _), hsaved (by decide) (by decide), hecs, hget]
  · rw [State.esr, hesrt, hpre]
  · rw [State.esr, hesrt, hsusp]
  · rw [State.esr, hesrt, hie]
  · rw [preemptNoted_mem, preemptHead_mem, hmem]

/-! ### RETI -/

/-- The state that RETI brings back (R120). -/
def resumed (t s : State) (e : Nat) : State :=
  ((t.putOld e H.ENG_ESR 0 (clrBit (s.get H.ENG_ESS e % 2 ^ 16) 11 + 2048 * bits (s.esr e) 11 1)).put H.ENG_ECYC
    (s.get H.ENG_ECS e) e).put H.ENG_DLY (2 ^ 16 + 2 ^ 17 + s.get H.ENG_EPC e % 2 ^ 16) e

/-- The pre-empted clause runs on (R151). -/
def ranOn (t s : State) (e : Nat) : State :=
  match s.insts.find? fun x => x.st == 2 && x.eng == e with
  | none => t
  | some x => (t.putInst { x with st := 1 }).trc 5 (some e) x.desc x.prio 0 0

theorem ranOn_writes (t s : State) (e : Nat) : WritesIn traceFields t (ranOn t s e) := by
  unfold ranOn
  split
  · exact .refl _ _
  · next x _ =>
    have hput : WritesIn traceFields t (t.putInst { x with st := 1 }) := (WritesIn.refl _ _).ofRegs rfl
    exact hput.trans (trc_steps (by decide) (.refl traceFields _) ..).regs

theorem ranOn_mem (t s : State) (e : Nat) : (ranOn t s e).mem = t.mem := by
  unfold ranOn
  split
  · rfl
  · exact State.trc_mem ..

/-- RETI and its delay slot do not count in ECYC (R126). -/
theorem advance_of_return (h : EngTurn s e) (hown : (t.inDelay e && bit (t.get H.ENG_DLY e) 17) = true) :
    t.engAdvance s e 1 4 = (t.addSat H.ENG_BUSY 1 e).put H.ENG_PC (s.get H.ENG_PC e + 4) e := by
  unfold State.engAdvance
  simp only [hown, h.noProt, h.noDelay, Bool.not_true, State.when_false, bne_self_eq_false, Bool.false_eq_true, if_false,
    h.loopEnd]

theorem resumed_values (he : e < 16) (t s : State) (hf : bit (s.esr e) 11 = false) :
    (resumed t s e).get H.ENG_DLY e = 2 ^ 16 + 2 ^ 17 + s.get H.ENG_EPC e % 2 ^ 16 ∧
    (resumed t s e).get H.ENG_ESR e = clrBit (s.get H.ENG_ESS e % 2 ^ 16) 11 ∧
    (resumed t s e).get H.ENG_ECYC e = s.get H.ENG_ECS e % 2 ^ 32 := by
  have hflp : bits (s.esr e) 11 1 = 0 := by
    simp only [bit, beq_eq_false_iff_ne] at hf
    unfold bits
    omega
  have hclr : clrBit (s.get H.ENG_ESS e % 2 ^ 16) 11 < 2 ^ 16 := by
    unfold clrBit
    split <;> omega
  refine ⟨State.get_put_of_lt _ _ _ ?_, ?_, ?_⟩
  · exact (show _ < 2 ^ 19 by omega)
  · refine (State.get_put_engVar he (by decide) (Nat.zero_le _) (Nat.zero_le _) ..).trans
      ((State.get_put_engVar he (by decide) (Nat.zero_le _) (Nat.zero_le _) ..).trans ((State.putOld_self ..).trans ?_))
    rw [hflp]
    exact Nat.mod_eq_of_lt hclr
  · exact (State.get_put_engVar he (by decide) (Nat.zero_le _) (Nat.zero_le _) ..).trans (State.get_put_self ..)

theorem resumed_mem (t s : State) (e : Nat) : (resumed t s e).mem = t.mem := by
  rw [resumed, State.put_mem, State.put_mem, State.putOld_mem]

/-- RETI brings the saved registers back, and goes on at EPC after its delay slot (R120, R126). -/
theorem reti_completes (h : EngFree s e) (hpre : bit (s.esr e) 10 = true) :
    Completes (.reti e) s fun t => t.get H.ENG_DLY e = 2 ^ 16 + 2 ^ 17 + s.get H.ENG_EPC e % 2 ^ 16 ∧
      t.esr e = clrBit (s.get H.ENG_ESS e % 2 ^ 16) 11 ∧ t.get H.ENG_ECYC e = s.get H.ENG_ECS e % 2 ^ 32 ∧
      t.mem = s.mem := by
  have he := h.lt
  have hi : e ≤ 15 := Nat.le_of_lt_succ he
  obtain ⟨hdly, hesr, hcyc⟩ := resumed_values he (s.engBegin e) s h.noFar
  have hran := ranOn_writes (resumed (s.engBegin e) s e) s e
  have hrmem := ranOn_mem (resumed (s.engBegin e) s e) s e
  generalize hu : ranOn (resumed (s.engBegin e) s e) s e = u at hran hrmem
  have hdlyu := (hran.eng he (by decide) (Nat.zero_le _)).trans hdly
  have hown : (u.inDelay e && bit (u.get H.ENG_DLY e) 17) = true := by
    simp only [State.inDelay, hdlyu, bit, Bool.and_eq_true, beq_iff_eq]
    omega
  have hexec : exec (.reti e) s = .next ((u.addSat H.ENG_BUSY 1 e).put H.ENG_PC (s.get H.ENG_PC e + 4) e) := by
    have hx : (if s.inDelay e ∨ !bit (s.esr e) 10 then 3 else 0) = 0 := by
      rw [h.noDelay, hpre]
      rfl
    have hrun := engRunOf_effect (far := false) (rd := []) (exc := fun s => if s.inDelay e ∨ !bit (s.esr e) 10 then 3 else 0)
      (wr := fun _ => false) (cl := fun _ => (1, 4)) (f := fun s t => ranOn (resumed t s e) s e) h.can h.noFar h.noInj hx
    refine congrArg Host.Outcome.next (hrun.trans ?_)
    rw [h.landLate, hu, advance_of_return h.toEngTurn hown]
  have hend : WritesIn [H.ENG_BUSY, H.ENG_PC] u ((u.addSat H.ENG_BUSY 1 e).put H.ENG_PC (s.get H.ENG_PC e + 4) e) :=
    ((WritesIn.refl [H.ENG_BUSY, H.ENG_PC] u).put (f := H.ENG_BUSY) (by decide) hi (Nat.zero_le _) _).put (f := H.ENG_PC)
      (by decide) hi (Nat.zero_le _) _
  refine ⟨_, hexec, (hend.eng he (by decide) (Nat.zero_le _)).trans hdlyu, ?_, ?_, ?_⟩
  · exact (hend.eng he (by decide) (Nat.zero_le _)).trans ((hran.eng he (by decide) (Nat.zero_le _)).trans hesr)
  · exact (hend.eng he (by decide) (Nat.zero_le _)).trans ((hran.eng he (by decide) (Nat.zero_le _)).trans hcyc)
  · rw [State.put_mem, addSat_mem, hrmem, resumed_mem, State.engBegin_mem]

/-! ### DONE -/

theorem writeBack_of_none (h : s.slotW = []) (e : Nat) : s.writeBack e = s := by
  unfold State.writeBack
  simp only [h, List.filter_nil, List.reverse_nil, State.each, List.foldl_nil]
  exact congrArg (fun l => { s with slotW := l }) h.symm

theorem releaseNext_of_none {x : Inst} (h : s.get R.SCH_DESC_NEXT_EN x.desc = 0) : s.releaseNext x = s := by
  have hchain : s.chain x.desc = [] := by
    rw [State.chain, State.on_eq_false h]
    rfl
  rw [State.releaseNext, hchain]
  rfl

/-- What DONE records of an instance that ends (R128, R137, R143). -/
def recorded (s : State) (x : Inst) (e cyc : Nat) : State :=
  (((s.put H.ENG_INJR (s.get H.ENG_INJR e % 2 ^ 17) e).trc 3 (some e) x.desc x.prio (if x.late then 2 else 0)
    (min cyc 0x7FFF)).dropInst x).cycStat x.desc cyc

/-- The fields that DONE records. -/
def doneFields : List Fld :=
  H.ENG_INJR :: R.SCH_DESC_PEND :: R.SCH_DESC_LAST_CYC :: R.SCH_DESC_MAX_CYC :: traceFields

theorem dropInst_eq (s : State) (x : Inst) : (s.dropInst x).mem = s.mem ∧
    (s.dropInst x).insts = s.insts.filter (fun y => y.id != x.id) := ⟨rfl, rfl⟩

theorem dropInst_writes {x : Inst} (hd : x.desc < 1024) (s : State) : WritesIn [R.SCH_DESC_PEND] s (s.dropInst x) :=
  WritesIn.put (t := { s with insts := s.insts.filter fun y => y.id != x.id,
                              saved := s.saved.filter fun y => y.inst != x.id })
    ((WritesIn.refl _ _).ofRegs rfl) (by decide) (Nat.le_of_lt_succ hd) (Nat.zero_le _) _

theorem cycStat_steps {d : Nat} (hd : d < 1024) (s : State) (c : Nat) :
    Steps [R.SCH_DESC_LAST_CYC, R.SCH_DESC_MAX_CYC] s (s.cycStat d c) :=
  ((Steps.refl [R.SCH_DESC_LAST_CYC, R.SCH_DESC_MAX_CYC] s).put (f := R.SCH_DESC_LAST_CYC) (by decide)
    (Nat.le_of_lt_succ hd) (Nat.zero_le _) _).put (f := R.SCH_DESC_MAX_CYC) (by decide) (Nat.le_of_lt_succ hd)
    (Nat.zero_le _) _

theorem cycStat_last (s : State) (d c : Nat) : (s.cycStat d c).get R.SCH_DESC_LAST_CYC d = min c 65535 := by
  have hne : fkey R.SCH_DESC_MAX_CYC d 0 ≠ fkey R.SCH_DESC_LAST_CYC d 0 := by
    simp only [fkey, R.SCH_DESC_MAX_CYC, R.SCH_DESC_LAST_CYC]
    omega
  exact (State.get_put_ne _ _ hne).trans (State.get_put_of_lt _ _ _ (show min c 65535 < 2 ^ 16 by omega))

/-- What is recorded leaves memory and the other registers, and the instance leaves the list. -/
theorem recorded_values {x : Inst} (he : e < 16) (hd : x.desc < 1024) (s : State) (cyc : Nat) :
    WritesIn doneFields s (recorded s x e cyc) ∧ (recorded s x e cyc).mem = s.mem ∧
    (recorded s x e cyc).insts = s.insts.filter (fun y => y.id != x.id) ∧
    (recorded s x e cyc).get R.SCH_DESC_LAST_CYC x.desc = min cyc 65535 := by
  have hput := (Steps.refl doneFields s).put (f := H.ENG_INJR) (by decide) (Nat.le_of_lt_succ he) (Nat.zero_le _)
    (s.get H.ENG_INJR e % 2 ^ 17)
  have htrc := trc_steps (by decide) hput 3 (some e) x.desc x.prio (if x.late then 2 else 0) (min cyc 0x7FFF)
  unfold recorded
  generalize ((s.put H.ENG_INJR (s.get H.ENG_INJR e % 2 ^ 17) e).trc 3 (some e) x.desc x.prio (if x.late then 2 else 0)
    (min cyc 0x7FFF)) = u at htrc
  obtain ⟨hmem, hinsts⟩ := dropInst_eq u x
  have hstat := cycStat_steps hd (u.dropInst x) cyc
  refine ⟨htrc.regs.trans (((dropInst_writes hd u).mono (by decide)).trans (hstat.regs.mono (by decide))), ?_, ?_,
    cycStat_last ..⟩
  · rw [hstat.mem, hmem, htrc.mem]
  · rw [hstat.insts, hinsts, htrc.insts]

/-- DONE of a clause without a record, a written slot or a successor. -/
theorem engDone_eq {x : Inst} (he : e < 16) (hd : x.desc < 1024) (hrun : s.runInst e = some x) (hslot : s.slotW = [])
    (hrt : x.rtype = 2) (hgov : bit (s.esr e) 4 = false) (hnext : s.get R.SCH_DESC_NEXT_EN x.desc = 0) :
    s.engDone e = (recorded s x e (s.get H.ENG_ECYC e)).engEnd e := by
  have hax : (x.rtype == 0) = false := by rw [hrt]; rfl
  have hdi : x.desc ≤ R.SCH_DESC_NEXT_EN.n - 1 := (show x.desc ≤ 1023 by omega)
  have hchain : (recorded s x e (s.get H.ENG_ECYC e)).releaseNext x = recorded s x e (s.get H.ENG_ECYC e) :=
    releaseNext_of_none (((recorded_values he hd s _).1 _ _ _ (by decide) hdi (Nat.zero_le _)).trans hnext)
  have hback : (s.put H.ENG_INJR (s.get H.ENG_INJR e % 2 ^ 17) e).writeBack e =
      s.put H.ENG_INJR (s.get H.ENG_INJR e % 2 ^ 17) e := 
    writeBack_of_none (by rw [State.put_slotW, hslot]) e
  have hcomp : (s.put H.ENG_INJR (s.get H.ENG_INJR e % 2 ^ 17) e).completeInst x e (s.get H.ENG_ECYC e) =
      if x.late then recorded s x e (s.get H.ENG_ECYC e)
      else (recorded s x e (s.get H.ENG_ECYC e)).releaseNext x := rfl
  unfold State.engDone
  rw [hrun]
  dsimp only
  simp only [hax, hgov, Bool.false_and, Bool.or_self, State.when_false, Bool.false_eq_true, if_false, hback, hcomp, hchain,
    ite_self]

theorem engEnd_values (he : e < 16) (s : State) : (s.engEnd e).mem = s.mem ∧ (s.engEnd e).insts = s.insts ∧
    WritesIn [H.ENG_ESR, H.ENG_PC, H.ENG_LVL1, H.ENG_BT, R.SCH_ENG_STATE] s (s.engEnd e) := by
  have hi : e ≤ 15 := Nat.le_of_lt_succ he
  let fs : List Fld := [H.ENG_ESR, H.ENG_PC, H.ENG_LVL1, H.ENG_BT, R.SCH_ENG_STATE]
  have hsteps : Steps fs s (s.engEnd e) := by
    have h := Steps.refl fs s
    unfold State.engEnd
    split
    · exact (((h.put (f := H.ENG_ESR) (by decide) hi (Nat.zero_le _) _).put (f := H.ENG_PC) (by decide) hi (Nat.zero_le _)
        _).put (f := H.ENG_LVL1) (by decide) hi (Nat.zero_le _) _).put (f := H.ENG_BT) (by decide) hi (Nat.zero_le _) _
    · exact h.put (f := R.SCH_ENG_STATE) (by decide) (Nat.zero_le _) (Nat.zero_le _) _
  exact ⟨hsteps.mem, hsteps.insts, hsteps.regs⟩

theorem engEnd_idle (he : e < 16) (h : s.get H.ENG_LVL1 e = 0) : (s.engEnd e).engSt e = 0 := by
  rw [State.engEnd, State.on_eq_false h]
  exact State.engSt_setEngSt s he (by decide)

theorem engEnd_handler (he : e < 16) (h : s.get H.ENG_LVL1 e = 1) :
    (s.engEnd e).get H.ENG_PC e = 0x0080 ∧ (s.engEnd e).get H.ENG_LVL1 e = 0 := by
  rw [State.engEnd, State.on_eq_true (by rw [h]; decide), if_pos rfl]
  refine ⟨?_, ?_⟩
  · exact (State.get_put_engVar he (by decide) (Nat.zero_le _) (Nat.zero_le _) ..).trans
      ((State.get_put_engVar he (by decide) (Nat.zero_le _) (Nat.zero_le _) ..).trans (State.get_put_self ..))
  · exact (State.get_put_engVar he (by decide) (Nat.zero_le _) (Nat.zero_le _) ..).trans (State.get_put_self ..)

/-- DONE ends the clause (R128, R143). -/
theorem done_completes {x : Inst} (hd : x.desc < 1024) (h : EngFree s e) (hrun : s.runInst e = some x)
    (hslot : s.slotW = []) (hrt : x.rtype = 2) (hgov : bit (s.esr e) 4 = false)
    (hnext : s.get R.SCH_DESC_NEXT_EN x.desc = 0) :
    Completes (.done e) s fun t => t.insts = s.insts.filter (fun y => y.id != x.id) ∧
      t.get R.SCH_DESC_LAST_CYC x.desc = min (s.get H.ENG_ECYC e) 65535 ∧ t.mem = s.mem ∧
      (s.get H.ENG_LVL1 e = 0 → t.engSt e = 0) ∧
      (s.get H.ENG_LVL1 e = 1 → t.get H.ENG_PC e = 0x0080 ∧ t.get H.ENG_LVL1 e = 0) := by
  have he := h.lt
  have hexec : exec (.done e) s = .next ((recorded s x e (s.get H.ENG_ECYC e)).engEnd e) := by
    show execDone e s = _
    simp only [execDone, h.can, h.noDelay, Bool.not_true, Bool.false_eq_true, if_false, h.landLate,
      engDone_eq he hd hrun hslot hrt hgov hnext]
  obtain ⟨hw, hmem, hinsts, hlast⟩ := recorded_values he hd s (s.get H.ENG_ECYC e)
  obtain ⟨hemem, heinsts, hew⟩ := engEnd_values he (recorded s x e (s.get H.ENG_ECYC e))
  have hlvl := hw.eng (g := H.ENG_LVL1) he (by decide) (Nat.zero_le _)
  have hdi : x.desc ≤ R.SCH_DESC_LAST_CYC.n - 1 := (show x.desc ≤ 1023 by omega)
  exact ⟨_, hexec, heinsts.trans hinsts, (hew _ _ _ (by decide) hdi (Nat.zero_le _)).trans hlast, hemem.trans hmem,
    fun h0 => engEnd_idle he (hlvl.trans h0), fun h1 => engEnd_handler he (hlvl.trans h1)⟩

/-- Settles O25: each of the five events has its lemma. -/
theorem clausesStartPreemptAndEnd : Obligations.ClausesStartPreemptAndEnd := by
  unfold Obligations.ClausesStartPreemptAndEnd
  refine ⟨?_, ?_, ?_⟩
  · intro x e s hd hnext heng hw harr
    exact dispatch_completes hd hnext heng hw harr
  · intro x y e s hd harr hlate
    exact ⟨fun hnext hprio hfull hcan hopen hvictim hy => preemption_completes hlate hnext hprio hfull hcan hopen hvictim hy,
      fun hcan hpre hacc hw => disp_completes hd harr hlate hcan hpre hacc hw, fun h hpre => reti_completes h hpre⟩
  · intro x e s hd h hrun hslot hrt hgov hnext
    exact done_completes hd h hrun hslot hrt hgov hnext

end Sys2Proof.Claims
end

section
/-! PROOFS. Exceptions of the loop engines (R133): the engine as an abort leaves it. -/

namespace Sys2Proof.Machine

/-- Of ESR, an abort clears PRE, LVL and LSUSP (R133). -/
def abortEsr (r : Nat) : Nat := clrBit (clrBit r 10) 7 / 1024 * 1024 + clrBit r 7 % 256

theorem bit_abortEsr (r : Nat) : bit (abortEsr r) 10 = false := by
  have hclr : bit (clrBit r 10) 10 = false := Claims.bit_clrBit r 10
  have hlow : clrBit r 7 % 256 < 2 ^ 10 := Nat.lt_of_lt_of_le (Nat.mod_lt _ (by decide)) (by decide)
  have hkeep : bit (clrBit (clrBit r 10) 7) 10 = bit (clrBit r 10) 10 := by
    generalize clrBit r 10 = n
    unfold clrBit bit
    split
    · rename_i h
      rw [beq_iff_eq] at h
      rw [Bool.eq_iff_iff, beq_iff_eq, beq_iff_eq]
      omega
    · rfl
  exact (bit_lowReplaced hlow 10).trans (hkeep.trans hclr)

/-- An engine as an abort leaves it, before it goes idle (R133). -/
def State.abortRegs (u : State) (e : Nat) : State :=
  ((((((u.put H.ENG_ESR (abortEsr (u.get H.ENG_ESR e)) e).put H.ENG_EPC 0 e).put H.ENG_ESS 0 e).put H.ENG_ECS 0 e).put
    H.ENG_LVL1 0 e).put H.ENG_DLY 0 e).put H.ENG_LOAD 0 e

theorem State.engAbort_eq (s : State) (e : Nat) {c : Nat} (h1 : c ≠ 1) (h2 : c ≠ 2) :
    ∃ u : State, s.engAbort e c = (u.abortRegs e).setEngSt e 0 := by
  unfold State.engAbort
  simp only [h1, h2, or_self, if_false, beq_eq_false_iff_ne.2 h2, State.when_false]
  exact ⟨_, rfl⟩

theorem State.abortRegs_cleared (u : State) {e : Nat} (he : e < 16) :
    (u.abortRegs e).get H.ENG_EPC e = 0 ∧ (u.abortRegs e).get H.ENG_ESS e = 0 ∧ (u.abortRegs e).get H.ENG_ECS e = 0 ∧
    (u.abortRegs e).get H.ENG_LVL1 e = 0 ∧ (u.abortRegs e).get H.ENG_DLY e = 0 ∧
    (u.abortRegs e).get H.ENG_ESR e = abortEsr (u.get H.ENG_ESR e) % 2 ^ 16 := by
  unfold State.abortRegs
  refine ⟨?_, ?_, ?_, ?_, ?_, ?_⟩ <;>
    · simp (disch := decide) only [State.get_put_engVar he, State.get_put_self]
      rfl

/-- A variable of an engine as an abort leaves it. -/
theorem State.get_aborted {g : Fld} {e : Nat} (he : e < 16) (u : State)
    (hg : (g.n == 16 && R.SCH_ENG_STATE.disjoint g) = true) :
    ((u.abortRegs e).setEngSt e 0).get g e = (u.abortRegs e).get g e :=
  State.get_setEngSt he hg (Nat.zero_le _) ..

end Sys2Proof.Machine

namespace Sys2Proof.Claims
open Sys2Proof.Machine

variable {s : State} {e : Nat}

/-- The clause of engine `e` is aborted: the engine is idle, outside any pre-empting clause, its saved registers cleared
(R133). -/
def Aborted (e : Nat) (t : State) : Prop :=
  t.engSt e = 0 ∧ t.get H.ENG_EPC e = 0 ∧ t.get H.ENG_ESS e = 0 ∧ t.get H.ENG_ECS e = 0 ∧ t.get H.ENG_LVL1 e = 0 ∧
    bit (t.esr e) 10 = false ∧ t.inDelay e = false

/-- An exception of a cause that is no error of the engine's own hardware leaves it idle. -/
theorem engAbort_aborted (he : e < 16) (s : State) {c : Nat} (h1 : c ≠ 1) (h2 : c ≠ 2) : Aborted e (s.engAbort e c) := by
  obtain ⟨u, hu⟩ := s.engAbort_eq e h1 h2
  rw [hu]
  obtain ⟨hepc, hess, hecs, hlvl, hdly, hesr⟩ := u.abortRegs_cleared he
  refine ⟨State.engSt_setEngSt _ he (by decide), (State.get_aborted he u (by decide)).trans hepc,
    (State.get_aborted he u (by decide)).trans hess, (State.get_aborted he u (by decide)).trans hecs,
    (State.get_aborted he u (by decide)).trans hlvl, ?_, ?_⟩
  · rw [State.esr, State.get_aborted he u (by decide), hesr, bit_mod_two_pow (by decide), bit_abortEsr]
  · rw [State.inDelay, State.get_aborted he u (by decide), hdly]
    rfl

theorem aborts_of_exc {i : Instr} {far : Bool} {rd : List Nat} {exc : State → Nat} {wr : State → Bool} {cost len : Nat}
    {f : State → State → State} {c : Nat} (hi : exec i s = .next (s.engRun e far rd exc wr cost len f))
    (hcan : s.engCan e = true) (hfar : bit (s.esr e) 11 = false) (hc : exc s = c) (hcause : c = 3 ∨ c = 4) :
    Completes i s (Aborted e) := by
  have hne : exc s ≠ 0 := by omega
  refine ⟨_, hi, ?_⟩
  rw [State.engRun, engRunOf_exc hcan hfar hne, hc]
  have he := State.engCan_lt hcan
  rcases hcause with rfl | rfl
  · exact engAbort_aborted he s (by decide) (by decide)
  · exact engAbort_aborted he s (by decide) (by decide)

/-- Settles O24: each of the cases is an exception of cause ILLEGAL, ALIGN or WDOG, and `engAbort_aborted` says what such a
one leaves. -/
theorem engineExceptionsAbortClause : Obligations.EngineExceptionsAbortClause := by
  unfold Obligations.EngineExceptionsAbortClause
  intro e k m s hcan hfar gone
  have he := State.engCan_lt hcan
  refine ⟨fun h => ⟨?_, ?_⟩, fun h => ?_, fun h => ⟨?_, ?_, ?_, ?_⟩, ?_, fun h => ⟨?_, ?_⟩, fun h => ?_⟩
  · exact aborts_of_exc rfl hcan hfar (if_pos h) (.inr rfl)
  · exact aborts_of_exc rfl hcan hfar (if_pos h) (.inr rfl)
  · exact aborts_of_exc rfl hcan hfar (if_pos h) (.inr rfl)
  · exact aborts_of_exc rfl hcan hfar (if_pos h) (.inl rfl)
  · have hdone : exec (.done e) s = .next (s.engAbort e 3) := by
      show execDone e s = _
      simp only [execDone, hcan, h, Bool.not_true, Bool.false_eq_true, if_false, if_true]
    exact ⟨_, hdone, engAbort_aborted he s (by decide) (by decide)⟩
  · exact aborts_of_exc rfl hcan hfar (if_pos (.inl h)) (.inl rfl)
  · exact aborts_of_exc rfl hcan hfar (if_pos (.inl h)) (.inl rfl)
  · exact aborts_of_exc rfl hcan hfar (if_pos (.inr (.inl rfl))) (.inl rfl)
  · exact aborts_of_exc rfl hcan hfar (if_pos (.inr (by rw [h]; rfl))) (.inl rfl)
  · have hdisp : exec (.disp e) s = .next (s.engAbort e 3) := by
      show execDisp e s = _
      simp only [execDisp, hcan, h, Bool.not_true, Bool.not_false, Bool.false_eq_true, if_false, if_true]
    exact ⟨_, hdisp, engAbort_aborted he s (by decide) (by decide)⟩
  · have hwdog : exec (.wdog e) s = .next (s.engAbort e 6) := by
      show execWdog e s = _
      rw [execWdog, if_pos ⟨hcan, h⟩]
    exact ⟨_, hwdog, engAbort_aborted he s (by decide) (by decide)⟩

end Sys2Proof.Claims
end

section
/-! PROOFS. The instruction words of the loop engines (R113): what a word spells, an engine executes as the command. -/

namespace Sys2Proof.Claims
open Sys2Proof.Machine

/-- An engine executes the instruction as the command of that instruction does (R139). -/
def RunsAsCommand (i : Instr) : Prop := ∀ s, exec i s = .next (engExec i s)

variable {e w w2 : Nat} {i : Instr}

theorem decodeCtl_runs (h : decodeCtl e w = some i) : RunsAsCommand i := by
  unfold decodeCtl at h
  split at h <;> cases h <;> exact fun _ => rfl

theorem decodeAlu_runs {b : AluB} (h : decodeAlu e w b = some i) : RunsAsCommand i := by
  unfold decodeAlu at h
  split at h <;> cases h <;> exact fun _ => rfl

theorem decodeWordMem_runs (h : decodeWordMem e w = some i) : RunsAsCommand i := by
  unfold decodeWordMem at h
  split at h <;> cases h <;> exact fun _ => rfl

theorem decodeAccMem_runs (h : decodeAccMem e w = some i) : RunsAsCommand i := by
  unfold decodeAccMem at h
  split at h <;> cases h <;> exact fun _ => rfl

theorem macOf_runs (e op ac da db : Nat) (u2 : Option MacUnit) (x : Option XMove) (y : Option YMove) :
    RunsAsCommand (macOf e op ac da db u2 x y) := by
  unfold macOf
  split <;> exact fun _ => rfl

theorem decodeMac_runs (h : decodeMac e w = some i) : RunsAsCommand i := by
  cases h
  exact macOf_runs _ _ _ _ _ _ _ _

theorem decodeDual_runs (h : decodeDual e w = some i) : RunsAsCommand i := by
  unfold decodeDual at h
  split at h <;> cases h <;> exact macOf_runs _ _ _ _ _ _ _ _

theorem decodeTapm_runs (h : decodeTapm e w = some i) : RunsAsCommand i := by
  unfold decodeTapm at h
  split at h <;> cases h
  exact fun _ => rfl

theorem decodeAcc_runs (h : decodeAcc e w = some i) : RunsAsCommand i := by
  unfold decodeAcc at h
  split at h <;> cases h <;> exact fun _ => rfl

theorem decodeBranch_runs (h : decodeBranch e w = some i) : RunsAsCommand i := by
  unfold decodeBranch at h
  dsimp only at h
  split at h
  · cases h
  · split at h <;> cases h <;> exact fun _ => rfl

theorem decodeLoop_runs (h : decodeLoop e w = some i) : RunsAsCommand i := by
  cases h
  exact fun _ => rfl

theorem decodeFar_runs (h : decodeFar e w = some i) : RunsAsCommand i := by
  unfold decodeFar at h
  split at h <;> cases h <;> exact fun _ => rfl

theorem decodeLong_runs (h : decodeLong e w w2 = some i) : RunsAsCommand i := by
  unfold decodeLong at h
  split at h
  · cases h; exact fun _ => rfl
  · cases h; exact fun _ => rfl
  · split at h <;> cases h
    exact fun _ => rfl
  · cases h

/-- Every class of R113 decodes to commands that an engine executes. -/
theorem engDecode_runs (h : engDecode e w w2 = some i) : RunsAsCommand i := by
  unfold engDecode at h
  split at h
  · exact decodeCtl_runs h
  · exact decodeAlu_runs h
  · exact decodeAlu_runs h
  · exact decodeWordMem_runs h
  · exact decodeAccMem_runs h
  · exact decodeMac_runs h
  · exact decodeDual_runs h
  · exact decodeTapm_runs h
  · exact decodeAcc_runs h
  · exact decodeBranch_runs h
  · exact decodeLoop_runs h
  · exact decodeFar_runs h
  · exact decodeLong_runs h
  · cases h

/-- Classes 0xC, 0xD and 0xF have no instructions (R113). -/
theorem engDecode_unused_class (h : bits w 28 4 ∈ [0xC, 0xD, 0xF]) : engDecode e w w2 = none := by
  simp only [List.mem_cons, List.not_mem_nil, or_false] at h
  unfold engDecode
  rcases h with h | h | h <;> simp only [h]

/-- Settles O60: the words compute to their instructions, and each class decodes to commands that an engine executes. -/
theorem engineWordsDecodeAndRun : Obligations.EngineWordsDecodeAndRun := by
  unfold Obligations.EngineWordsDecodeAndRun
  refine fun e => ⟨?_, fun w w2 h => engDecode_unused_class h, fun w w2 i s h => engDecode_runs h s⟩
  exact ⟨rfl, rfl, rfl, rfl, rfl, rfl, rfl, rfl, rfl⟩

end Sys2Proof.Claims
end

section
/-! PROOFS. Three states of a loop engine that refute what is claimed of stores (R121, R133), of the stack (R120) and of the
budget (R149). -/

namespace Sys2Proof.Claims
open Sys2Proof.Machine

/-- A clause without a record, running on engine 0 under descriptor 0 with a budget of 500 cycles. -/
def plainClause : Inst :=
  { id := 1, desc := 0, cause := 0, cyc := 0, t := 0, dl := 100000, prio := 4, budget := 500, entry := 0, st := 1, rtype := 2 }

/-- Quad 0 is powered, and engine 0 runs the clause. -/
def clauseRunning : State :=
  { (((State.reset.put R.PWR_DOM_ON 0xFFF).put R.PWR_DOM_RST 0).setEngSt 0 1) with insts := [plainClause] }

/-! ### A far store outside its windows (R121) -/

/-- The body of the clause has cleared a byte of the axis store that held 1 (R23). -/
def clauseCleared : State :=
  { clauseRunning with saved := [{ inst := 1, recd := 0, cfg := [], mem := [(0x58100000, 1, 0)] }] }

theorem clauseCleared_free : EngFree clauseCleared 0 := ⟨by constructor <;> decide +kernel, by decide +kernel⟩

theorem clauseCleared_outside : clauseCleared.arrErrs = [] ∧ clauseCleared.runInst 0 = some plainClause ∧
    (inWindow (clauseCleared.get R.SCH_DESC_FSW0 plainClause.desc) (clauseCleared.dreg 0 0 % 2 ^ 22) ||
      inWindow (clauseCleared.get R.SCH_DESC_FSW1 plainClause.desc) (clauseCleared.dreg 0 0 % 2 ^ 22)) = false ∧
    ∀ c < 32, clauseCleared.get H.SW_ON c = 0 := by decide +kernel

/-- The abort puts the byte back (R23, R133). -/
theorem clauseCleared_restored : Completes (.farStore 0 0 0) clauseCleared fun t => t.mem ≠ clauseCleared.mem :=
  ⟨_, rfl, by decide +kernel⟩

/-- Refutes O19. A far store outside the windows aborts the clause, and with it the work of the clause is lost (R23): a byte that
the clause has written before takes its old value again, so memory does not stand as the store found it. -/
theorem not_engineStoresStayInPlace : ¬ Obligations.EngineStoresStayInPlace := by
  unfold Obligations.EngineStoresStayInPlace
  intro h
  obtain ⟨harr, hrun, hout, hsweep⟩ := clauseCleared_outside
  obtain ⟨t, ht, hmem, -⟩ := (h.2 0 0 0 plainClause clauseCleared clauseCleared_free harr hrun).2.2 hout hsweep
  obtain ⟨u, hu, hne⟩ := clauseCleared_restored
  rw [hu, Host.Outcome.next.injEq] at ht
  exact hne (ht ▸ hmem)

/-! ### The save pointer pushed on its own stack (R120) -/

/-- The save pointer of engine 0 is at 8. -/
def stackAtEight : State := clauseRunning.put H.ENG_SVP 8

theorem stackAtEight_free : EngFree stackAtEight 0 := ⟨by constructor <;> decide +kernel, by decide +kernel⟩

theorem stackAtEight_room : stackAtEight.arrErrs = [] ∧ stackAtEight.get H.ENG_SVP % 4 = 0 ∧
    stackAtEight.slotAt 0 0 (trunc 16 ((stackAtEight.get H.ENG_SVP : Int) - 4)) = none := by decide +kernel

/-- The word pushed is the pointer's new value. -/
theorem stackAtEight_pushed : Completes (.spush 0 0x1F) stackAtEight fun t =>
    t.load (engMem 0 0 + trunc 16 ((stackAtEight.get H.ENG_SVP : Int) - 4)) 4 ≠ stackAtEight.special 0 0x1F % 2 ^ 32 :=
  ⟨_, rfl, by decide +kernel⟩

/-- Refutes O22. SPUSH moves SVP before it stores; of SVP itself it stores the value just formed, 4, where the claim has the
value before the instruction, 8. -/
theorem not_nopPubProtAndSpecialMoves : ¬ Obligations.NopPubProtAndSpecialMoves := by
  unfold Obligations.NopPubProtAndSpecialMoves
  intro h
  obtain ⟨harr, hsp, hslot⟩ := stackAtEight_room
  obtain ⟨-, -, -, hpush, -⟩ := h.2 0 0 0x1F stackAtEight stackAtEight_free harr
  obtain ⟨t, ht, -, hload, -⟩ := hpush (by decide) hsp hslot
  obtain ⟨u, hu, hne⟩ := stackAtEight_pushed
  rw [hu, Host.Outcome.next.injEq] at ht
  exact hne (ht ▸ hload)

/-! ### A clause past its budget (R149) -/

/-- The clause has run for 501 cycles. -/
def pastBudget : State := clauseRunning.put H.ENG_ECYC 501

theorem pastBudget_traces : pastBudget.runInst 0 = some plainClause ∧ pastBudget.get R.SCH_STATUS_TRC_FROZEN = 0 ∧
    pastBudget.trcBuf.length < 32 ∧ pastBudget.get R.SCH_TRC_CTL_ARM = 0 := by decide +kernel

theorem pastBudget_marked : Completes (.budget 0) pastBudget fun t => t.insts ≠ pastBudget.insts :=
  ⟨_, rfl, by decide +kernel⟩

/-- Refutes O28. With its BUDGET record the instance is marked, so that the run leaves one record alone; the claim has the trace
buffer as the only change. -/
theorem not_loadsSelfTestsAndDeadlines : ¬ Obligations.LoadsSelfTestsAndDeadlines := by
  unfold Obligations.LoadsSelfTestsAndDeadlines
  intro h
  obtain ⟨hrun, hfrozen, hroom, harm⟩ := pastBudget_traces
  obtain ⟨-, -, -, hbudget⟩ := h.2 0 0 0 plainClause pastBudget
  obtain ⟨t, ht, r, hr, -⟩ := hbudget hrun hfrozen hroom harm
  obtain ⟨u, hu, hne⟩ := pastBudget_marked
  rw [hu, Host.Outcome.next.injEq] at ht
  exact hne (by rw [ht, hr])

end Sys2Proof.Claims
end

section
/-! PROOFS. The invariant: it holds after reset, and every command, and with it every step, keeps it (R159, R202, R270, R456). -/

namespace Sys2Proof.Machine

/-- Every command answers a next state with the queue as it was and the invariant kept. -/
theorem exec_keeps (i : Instr) (s : State) : KeepsOut s (exec i s) :=
  match i with
  | .reg64LowRead _ _ => execReg64LowRead_keeps (.refl s) ..
  | .reg64HighWrite _ _ _ => execReg64HighWrite_keeps (.refl s) ..
  | .reg64LowWrite _ _ _ => execReg64LowWrite_keeps (.refl s) ..
  | .pcie64Read _ _ => execPcie64Read_keeps (.refl s) ..
  | .pcie64Write _ _ _ => execPcie64Write_keeps (.refl s) ..
  | .w1cWrite _ _ _ _ => execW1cWrite_keeps (.refl s) ..
  | .rcRead _ _ _ => execRcRead_keeps (.refl s) ..
  | .registerWrite _ _ _ => execRegisterWrite_keeps (.refl s) ..
  | .boundary _ _ => execBoundary_keeps (.refl s) ..
  | .overlaySwap => execOverlaySwap_keeps (.refl s)
  | .statisticsLatch => execStatisticsLatch_keeps (.refl s)
  | .enableTimeout _ => execEnableTimeout_keeps (.refl s) ..
  | .stopHold _ => execStopHold_keeps (.refl s) ..
  | .brakeEngageDelay _ => execBrakeEngageDelay_keeps (.refl s) ..
  | .stopTimeout _ => execStopTimeout_keeps (.refl s) ..
  | .frstTimeout _ => execFrstTimeout_keeps (.refl s) ..
  | .axisLoop _ => execAxisLoop_keeps (.refl s) ..
  | .feTimed _ => execFeTimed_keeps (.refl s) ..
  | .positionPart _ => execPositionPart_keeps (.refl s) ..
  | .groupClause _ => execGroupClause_keeps (.refl s) ..
  | .velocityPart _ => execVelocityPart_keeps (.refl s) ..
  | .trajectoryStep _ => execTrajectoryStep_keeps (.refl s) ..
  | .supervision _ => execSupervision_keeps (.refl s) ..
  | .learningUpdate _ => execLearningUpdate_keeps (.refl s) ..
  | .tuningCapture _ => execTuningCapture_keeps (.refl s) ..
  | .trackerRetune _ _ => execTrackerRetune_keeps (.refl s) ..
  | .sweepComplete _ => execSweepComplete_keeps (.refl s) ..
  | .recordLoadDone _ => execRecordLoadDone_keeps (.refl s) ..
  | .clauseDispatch => execClauseDispatch_keeps (.refl s)
  | .preemption _ => execPreemption_keeps (.refl s) ..
  | .nop _ => execNop_keeps (.refl s) ..
  | .done _ => execDone_keeps (.refl s) ..
  | .pub _ _ _ => execPub_keeps (.refl s) ..
  | .prot _ _ => execProt_keeps (.refl s) ..
  | .brkl _ => execBrkl_keeps (.refl s) ..
  | .mvfs _ _ _ => execMvfs_keeps (.refl s) ..
  | .mvts _ _ _ => execMvts_keeps (.refl s) ..
  | .spush _ _ => execSpush_keeps (.refl s) ..
  | .spop _ _ => execSpop_keeps (.refl s) ..
  | .disp _ => execDisp_keeps (.refl s) ..
  | .reti _ => execReti_keeps (.refl s) ..
  | .add _ _ _ _ => execAdd_keeps (.refl s) ..
  | .sub _ _ _ _ => execSub_keeps (.refl s) ..
  | .adds _ _ _ _ => execAdds_keeps (.refl s) ..
  | .subs _ _ _ _ => execSubs_keeps (.refl s) ..
  | .rsub _ _ _ _ => execRsub_keeps (.refl s) ..
  | .and _ _ _ _ => execAnd_keeps (.refl s) ..
  | .or _ _ _ _ => execOr_keeps (.refl s) ..
  | .xor _ _ _ _ => execXor_keeps (.refl s) ..
  | .shl _ _ _ _ => execShl_keeps (.refl s) ..
  | .shr _ _ _ _ => execShr_keeps (.refl s) ..
  | .asr _ _ _ _ => execAsr_keeps (.refl s) ..
  | .min _ _ _ _ => execMin_keeps (.refl s) ..
  | .max _ _ _ _ => execMax_keeps (.refl s) ..
  | .cmp _ _ _ => execCmp_keeps (.refl s) ..
  | .mov _ _ _ => execMov_keeps (.refl s) ..
  | .abs _ _ _ => execAbs_keeps (.refl s) ..
  | .neg _ _ _ => execNeg_keeps (.refl s) ..
  | .ld32 _ _ _ => execLd32_keeps (.refl s) ..
  | .st32 _ _ _ => execSt32_keeps (.refl s) ..
  | .lda _ _ _ => execLda_keeps (.refl s) ..
  | .sta64 _ _ _ _ _ => execSta64_keeps (.refl s) ..
  | .sta32 _ _ _ _ _ => execSta32_keeps (.refl s) ..
  | .mpy _ _ _ _ _ _ _ => execMpy_keeps (.refl s) ..
  | .mac _ _ _ _ _ _ _ => execMac_keeps (.refl s) ..
  | .msu _ _ _ _ _ _ _ => execMsu_keeps (.refl s) ..
  | .parallelMove _ _ _ => execParallelMove_keeps (.refl s) ..
  | .tapm _ _ _ _ _ => execTapm_keeps (.refl s) ..
  | .clra _ _ => execClra_keeps (.refl s) ..
  | .mova _ _ _ => execMova_keeps (.refl s) ..
  | .adda _ _ _ => execAdda_keeps (.refl s) ..
  | .suba _ _ _ => execSuba_keeps (.refl s) ..
  | .nega _ _ _ => execNega_keeps (.refl s) ..
  | .shla _ _ _ _ => execShla_keeps (.refl s) ..
  | .shra _ _ _ _ => execShra_keeps (.refl s) ..
  | .mva _ _ _ _ _ => execMva_keeps (.refl s) ..
  | .sout _ _ _ _ _ => execSout_keeps (.refl s) ..
  | .ldad _ _ _ _ => execLdad_keeps (.refl s) ..
  | .tsta _ _ => execTsta_keeps (.refl s) ..
  | .br _ _ _ => execBr_keeps (.refl s) ..
  | .call _ _ _ => execCall_keeps (.refl s) ..
  | .loop _ _ _ => execLoop_keeps (.refl s) ..
  | .farLoad _ _ _ => execFarLoad_keeps (.refl s) ..
  | .farLoadArrival _ => execFarLoadArrival_keeps (.refl s) ..
  | .farStore _ _ _ => execFarStore_keeps (.refl s) ..
  | .ldi _ _ _ => execLdi_keeps (.refl s) ..
  | .ldia _ _ _ _ => execLdia_keeps (.refl s) ..
  | .brl _ _ _ _ => execBrl_keeps (.refl s) ..
  | .wdog _ => execWdog_keeps (.refl s) ..
  | .selfTestComplete _ _ => execSelfTestComplete_keeps (.refl s) ..
  | .slotLanding _ _ _ _ _ => execSlotLanding_keeps (.refl s) ..
  | .backstopRelease _ => execBackstopRelease_keeps (.refl s) ..
  | .deadline _ => execDeadline_keeps (.refl s) ..
  | .overrunFault _ => execOverrunFault_keeps (.refl s) ..
  | .budget _ => execBudget_keeps (.refl s) ..
  | .traceDrain => execTraceDrain_keeps (.refl s)
  | .traceFreeze => execTraceFreeze_keeps (.refl s)
  | .schTrcCtlFreeze => execSchTrcCtlFreeze_keeps (.refl s)
  | .schTrcCtlArm => execSchTrcCtlArm_keeps (.refl s)
  | .schTrcCtlRelease => execSchTrcCtlRelease_keeps (.refl s)
  | .motionTakesHold _ => execMotionTakesHold_keeps (.refl s) ..
  | .segmentEnd _ => execSegmentEnd_keeps (.refl s) ..
  | .homingTimeout _ => execHomingTimeout_keeps (.refl s) ..
  | .hardStopStall _ => execHardStopStall_keeps (.refl s) ..
  | .compareFire _ _ => execCompareFire_keeps (.refl s) ..
  | .comparePulseEnd _ => execComparePulseEnd_keeps (.refl s) ..
  | .captureEdge _ _ _ _ => execCaptureEdge_keeps (.refl s) ..
  | .cmpArm _ => execCmpArm_keeps (.refl s) ..
  | .cmpDisarm _ => execCmpDisarm_keeps (.refl s) ..
  | .cmpCapNext _ => execCmpCapNext_keeps (.refl s) ..
  | .cmpCapArm _ => execCmpCapArm_keeps (.refl s) ..
  | .cutOff _ _ _ => execCutOff_keeps (.refl s) ..
  | .cycleFrameReturn _ _ _ _ _ _ _ => execCycleFrameReturn_keeps (.refl s) ..
  | .dcLock => execDcLock_keeps (.refl s)
  | .dcHoldover => execDcHoldover_keeps (.refl s)
  | .dcRef2Switch => execDcRef2Switch_keeps (.refl s)
  | .frameForward _ _ _ _ _ _ => execFrameForward_keeps (.refl s) ..
  | .foreignHeadFrame _ _ _ => execForeignHeadFrame_keeps (.refl s) ..
  | .portLinkUp _ _ => execPortLinkUp_keeps (.refl s) ..
  | .portLinkDown _ => execPortLinkDown_keeps (.refl s) ..
  | .linkWaitTimeout _ => execLinkWaitTimeout_keeps (.refl s) ..
  | .scanFrameReturn _ _ _ => execScanFrameReturn_keeps (.refl s) ..
  | .delayMeasurement _ => execDelayMeasurement_keeps (.refl s) ..
  | .probeReturn _ _ _ _ => execProbeReturn_keeps (.refl s) ..
  | .peerDelayRequest _ _ _ _ => execPeerDelayRequest_keeps (.refl s) ..
  | .peerDelayResponse _ _ _ _ _ _ => execPeerDelayResponse_keeps (.refl s) ..
  | .nodeLost _ _ => execNodeLost_keeps (.refl s) ..
  | .identifyRepeat _ _ => execIdentifyRepeat_keeps (.refl s) ..
  | .acycMessage _ _ _ => execAcycMessage_keeps (.refl s) ..
  | .acycTimeout _ _ => execAcycTimeout_keeps (.refl s) ..
  | .bypassTransition _ _ => execBypassTransition_keeps (.refl s) ..
  | .mbxDb _ _ => execMbxDb_keeps (.refl s) ..
  | .hifDbAll _ _ => execHifDbAll_keeps (.refl s) ..
  | .mbxAck _ _ => execMbxAck_keeps (.refl s) ..
  | .lopAck _ => execLopAck_keeps (.refl s) ..
  | .hifTick => execHifTick_keeps (.refl s)
  | .fastRead _ _ => execFastRead_keeps (.refl s) ..
  | .quadRead _ _ => execQuadRead_keeps (.refl s) ..
  | .write _ _ => execWrite_keeps (.refl s) ..
  | .quadWrite _ _ => execQuadWrite_keeps (.refl s) ..
  | .readStatus => execReadStatus_keeps (.refl s)
  | .commitComplete => execCommitComplete_keeps (.refl s)
  | .fwSignatureCheck => execFwSignatureCheck_keeps (.refl s)
  | .fwWriteComplete => execFwWriteComplete_keeps (.refl s)
  | .flashScrubComplete _ => execFlashScrubComplete_keeps (.refl s) ..
  | .garbageCollection _ _ _ _ _ => execGarbageCollection_keeps (.refl s) ..
  | .sessionTimeout => execSessionTimeout_keeps (.refl s)
  | .lockoutExpiry => execLockoutExpiry_keeps (.refl s)
  | .safetyChangeComplete => execSafetyChangeComplete_keeps (.refl s)
  | .calibrationStepComplete _ _ _ => execCalibrationStepComplete_keeps (.refl s) ..
  | .conversion _ _ => execConversion_keeps (.refl s) ..
  | .ovTrip _ => execOvTrip_keeps (.refl s) ..
  | .chopperFault _ => execChopperFault_keeps (.refl s) ..
  | .gateDriverFault _ => execGateDriverFault_keeps (.refl s) ..
  | .dtcEvaluation _ => execDtcEvaluation_keeps (.refl s) ..
  | .ellipsisTorqueLimit _ => execEllipsisTorqueLimit_keeps (.refl s) ..
  | .ellipsisLimitEnd _ => execEllipsisLimitEnd_keeps (.refl s) ..
  | .ellipsisHwoff _ => execEllipsisHwoff_keeps (.refl s) ..
  | .pwmValley _ => execPwmValley_keeps (.refl s) ..
  | .stepIssue _ _ => execStepIssue_keeps (.refl s) ..
  | .stepperHoldCurrent _ => execStepperHoldCurrent_keeps (.refl s) ..
  | .stall _ => execStall_keeps (.refl s) ..
  | .offsetCalibrationComplete _ _ _ _ _ => execOffsetCalibrationComplete_keeps (.refl s) ..
  | .spinProbe _ _ _ _ => execSpinProbe_keeps (.refl s) ..
  | .saturationTestPulse _ _ _ => execSaturationTestPulse_keeps (.refl s) ..
  | .encoderEdge _ _ _ => execEncoderEdge_keeps (.refl s) ..
  | .tick _ => execTick_keeps (.refl s) ..
  | .refresh _ _ => execRefresh_keeps (.refl s) ..
  | .returnLanding _ _ _ _ _ _ => execReturnLanding_keeps (.refl s) ..
  | .filterOutputChange _ => execFilterOutputChange_keeps (.refl s) ..
  | .debounceAccept _ _ _ _ => execDebounceAccept_keeps (.refl s) ..
  | .wireBreak _ => execWireBreak_keeps (.refl s) ..
  | .wireBreakClear _ => execWireBreakClear_keeps (.refl s) ..
  | .externalDrive _ => execExternalDrive_keeps (.refl s) ..
  | .externalDriveClear _ => execExternalDriveClear_keeps (.refl s) ..
  | .outputTestPulse _ _ _ => execOutputTestPulse_keeps (.refl s) ..
  | .currentLimit _ _ => execCurrentLimit_keeps (.refl s) ..
  | .thermalShutdown _ => execThermalShutdown_keeps (.refl s) ..
  | .thermalRestart _ => execThermalRestart_keeps (.refl s) ..
  | .groupOvercurrent _ => execGroupOvercurrent_keeps (.refl s) ..
  | .supplyWarning _ => execSupplyWarning_keeps (.refl s) ..
  | .supplyWarningClear _ => execSupplyWarningClear_keeps (.refl s) ..
  | .undervoltage _ => execUndervoltage_keeps (.refl s) ..
  | .undervoltageRecovery _ => execUndervoltageRecovery_keeps (.refl s) ..
  | .silence => execSilence_keeps (.refl s)
  | .fieldLinkLoss => execFieldLinkLoss_keeps (.refl s)
  | .fieldDieStart => execFieldDieStart_keeps (.refl s)
  | .fieldDieStop => execFieldDieStop_keeps (.refl s)
  | .thresholdTrim _ _ => execThresholdTrim_keeps (.refl s) ..
  | .safeSample _ _ => execSafeSample_keeps (.refl s) ..
  | .watchdogExpiry => execWatchdogExpiry_keeps (.refl s)
  | .ss1Expiry _ => execSs1Expiry_keeps (.refl s) ..
  | .discrepancyFault _ => execDiscrepancyFault_keeps (.refl s) ..
  | .fstopNLow => execFstopNLow_keeps (.refl s)
  | .fullStopEnd => execFullStopEnd_keeps (.refl s)
  | .fullStopReleaseTimeout => execFullStopReleaseTimeout_keeps (.refl s)
  | .safeTestPulse _ _ _ => execSafeTestPulse_keeps (.refl s) ..
  | .proofStep _ _ _ => execProofStep_keeps (.refl s) ..
  | .proofDue => execProofDue_keeps (.refl s)
  | .containerLanding _ _ => execContainerLanding_keeps (.refl s) ..
  | .connectionWatchdog _ => execConnectionWatchdog_keeps (.refl s) ..
  | .fioOutSet _ => execFioOutSet_keeps (.refl s) ..
  | .fioOutClr _ => execFioOutClr_keeps (.refl s) ..
  | .laneLost _ => execLaneLost_keeps (.refl s) ..
  | .journalEntry _ _ _ _ _ => execJournalEntry_keeps (.refl s) ..
  | .digestComparison _ _ _ _ => execDigestComparison_keeps (.refl s) ..
  | .onesidedCopy _ _ => execOnesidedCopy_keeps (.refl s) ..
  | .verdict _ _ _ => execVerdict_keeps (.refl s) ..
  | .verdictTimeout _ => execVerdictTimeout_keeps (.refl s) ..
  | .periodicSelfDiagnosis _ => execPeriodicSelfDiagnosis_keeps (.refl s) ..
  | .switchOver => execSwitchOver_keeps (.refl s)
  | .handover => execHandover_keeps (.refl s)
  | .standstill => execStandstill_keeps (.refl s)
  | .rejoinTransferComplete _ => execRejoinTransferComplete_keeps (.refl s) ..
  | .replayComplete => execReplayComplete_keeps (.refl s)
  | .rejoinConfirmed => execRejoinConfirmed_keeps (.refl s)
  | .scrub _ => execScrub_keeps (.refl s) ..
  | .converterCalibration _ _ _ _ => execConverterCalibration_keeps (.refl s) ..
  | .telemetryMeasurement _ _ _ _ => execTelemetryMeasurement_keeps (.refl s) ..
  | .clockLoss _ => execClockLoss_keeps (.refl s) ..
  | .injection _ => execInjection_keeps (.refl s) ..
  | .standbyEntry => execStandbyEntry_keeps (.refl s)
  | .standbyExitComplete => execStandbyExitComplete_keeps (.refl s)
  | .wake _ => execWake_keeps (.refl s) ..
  | .vinLoss => execVinLoss_keeps (.refl s)
  | .powerOnReset _ => execPowerOnReset_keeps (.refl s) ..
  | .rstN _ _ => execRstN_keeps (.refl s) ..
  | .conjunctionReset => execConjunctionReset_keeps (.refl s)
  | .firmwareWatchdog => execFirmwareWatchdog_keeps (.refl s)
  | .hostSideReset => execHostSideReset_keeps (.refl s)
  | .boot _ => execBoot_keeps (.refl s) ..
  | .tapBypass => execTapBypass_keeps (.refl s)
  | .idcode => execIdcode_keeps (.refl s)
  | .samplePreload _ => execSamplePreload_keeps (.refl s) ..
  | .extest => execExtest_keeps (.refl s)
  | .clamp => execClamp_keeps (.refl s)
  | .highz => execHighz_keeps (.refl s)
  | .dbgChal => execDbgChal_keeps (.refl s)
  | .dbgToken _ => execDbgToken_keeps (.refl s) ..
  | .dbgAccessRead _ _ _ => execDbgAccessRead_keeps (.refl s) ..
  | .dbgAccessWrite _ _ _ => execDbgAccessWrite_keeps (.refl s) ..
  | .coreHalt _ => execCoreHalt_keeps (.refl s) ..
  | .coreStep _ => execCoreStep_keeps (.refl s) ..
  | .breakpointHit _ => execBreakpointHit_keeps (.refl s) ..
  | .trstN => execTrstN_keeps (.refl s)
  | .registerRead _ _ _ => execRegisterRead_keeps (.refl s) ..
  | .pciePowerState _ => execPciePowerState_keeps (.refl s) ..
  | .laneRestored _ => execLaneRestored_keeps (.refl s) ..
  | .clockRestored _ => execClockRestored_keeps (.refl s) ..
  | .mgmtLockstepMismatch => execMgmtLockstepMismatch_keeps (.refl s)
  | .expectedFrameMissing _ => execExpectedFrameMissing_keeps (.refl s) ..
  | .journalCompletion _ _ _ _ _ _ _ => execJournalCompletion_keeps (.refl s) ..
  | .echo _ => execEcho_keeps (.refl s) ..
  | .getInfo _ => execGetInfo_keeps (.refl s) ..
  | .lopSuspend _ => execLopSuspend_keeps (.refl s) ..
  | .lopResume _ => execLopResume_keeps (.refl s) ..
  | .lopCancel _ => execLopCancel_keeps (.refl s) ..
  | .tagReset _ => execTagReset_keeps (.refl s) ..
  | .winRead _ => execWinRead_keeps (.refl s) ..
  | .winWrite _ => execWinWrite_keeps (.refl s) ..
  | .axisConfigure _ => execAxisConfigure_keeps (.refl s) ..
  | .axisDeconfigure _ => execAxisDeconfigure_keeps (.refl s) ..
  | .axisEnable _ => execAxisEnable_keeps (.refl s) ..
  | .axisDisable _ => execAxisDisable_keeps (.refl s) ..
  | .axisFaultReset _ => execAxisFaultReset_keeps (.refl s) ..
  | .axisFaultRaise _ => execAxisFaultRaise_keeps (.refl s) ..
  | .axisReactions _ => execAxisReactions_keeps (.refl s) ..
  | .recRead _ => execRecRead_keeps (.refl s) ..
  | .recWrite _ => execRecWrite_keeps (.refl s) ..
  | .secRecipe _ => execSecRecipe_keeps (.refl s) ..
  | .grpRead _ => execGrpRead_keeps (.refl s) ..
  | .grpWrite _ => execGrpWrite_keeps (.refl s) ..
  | .lffWrite _ => execLffWrite_keeps (.refl s) ..
  | .lffClear _ => execLffClear_keeps (.refl s) ..
  | .lffExport _ => execLffExport_keeps (.refl s) ..
  | .lffImport _ => execLffImport_keeps (.refl s) ..
  | .probeAlloc _ => execProbeAlloc_keeps (.refl s) ..
  | .sweepStart _ => execSweepStart_keeps (.refl s) ..
  | .codeLoad _ => execCodeLoad_keeps (.refl s) ..
  | .descWrite _ => execDescWrite_keeps (.refl s) ..
  | .schConfig _ => execSchConfig_keeps (.refl s) ..
  | .move _ => execMove_keeps (.refl s) ..
  | .stop _ => execStop_keeps (.refl s) ..
  | .segAppend _ => execSegAppend_keeps (.refl s) ..
  | .tableStart _ => execTableStart_keeps (.refl s) ..
  | .homeStart _ => execHomeStart_keeps (.refl s) ..
  | .cmpConfig _ => execCmpConfig_keeps (.refl s) ..
  | .cmpListWrite _ => execCmpListWrite_keeps (.refl s) ..
  | .capConfig _ => execCapConfig_keeps (.refl s) ..
  | .ringConfig _ => execRingConfig_keeps (.refl s) ..
  | .ringStop _ => execRingStop_keeps (.refl s) ..
  | .acyc _ => execAcyc_keeps (.refl s) ..
  | .bypass _ => execBypass_keeps (.refl s) ..
  | .topoRead _ => execTopoRead_keeps (.refl s) ..
  | .modeSwitch _ => execModeSwitch_keeps (.refl s) ..
  | .cfgCommit _ => execCfgCommit_keeps (.refl s) ..
  | .fwUpdate _ => execFwUpdate_keeps (.refl s) ..
  | .fwData _ => execFwData_keeps (.refl s) ..
  | .flashScrub _ => execFlashScrub_keeps (.refl s) ..
  | .safetyLogin _ => execSafetyLogin_keeps (.refl s) ..
  | .safetyLogout _ => execSafetyLogout_keeps (.refl s) ..
  | .passwordSet _ => execPasswordSet_keeps (.refl s) ..
  | .ovlWrite _ => execOvlWrite_keeps (.refl s) ..
  | .ovlRead _ => execOvlRead_keeps (.refl s) ..
  | .ovlClear _ => execOvlClear_keeps (.refl s) ..
  | .logRead _ => execLogRead_keeps (.refl s) ..
  | .drvConfig _ => execDrvConfig_keeps (.refl s) ..
  | .ptgConfig _ => execPtgConfig_keeps (.refl s) ..
  | .calStart _ => execCalStart_keeps (.refl s) ..
  | .drvClear _ => execDrvClear_keeps (.refl s) ..
  | .encConfig _ => execEncConfig_keeps (.refl s) ..
  | .fioConfig _ => execFioConfig_keeps (.refl s) ..
  | .fioOut _ => execFioOut_keeps (.refl s) ..
  | .fioClear _ => execFioClear_keeps (.refl s) ..
  | .safeParamWrite _ => execSafeParamWrite_keeps (.refl s) ..
  | .safeParamCommit _ => execSafeParamCommit_keeps (.refl s) ..
  | .safeReset _ => execSafeReset_keeps (.refl s) ..
  | .safeTest _ => execSafeTest_keeps (.refl s) ..
  | .fullStop _ => execFullStop_keeps (.refl s) ..
  | .fullStopRelease _ => execFullStopRelease_keeps (.refl s) ..
  | .pairConfig _ => execPairConfig_keeps (.refl s) ..
  | .pairRejoin _ => execPairRejoin_keeps (.refl s) ..
  | .pairHandover _ => execPairHandover_keeps (.refl s) ..
  | .pairTakeback _ => execPairTakeback_keeps (.refl s) ..
  | .pairUnpair _ => execPairUnpair_keeps (.refl s) ..
  | .injArm _ => execInjArm_keeps (.refl s) ..
  | .injDisarm _ => execInjDisarm_keeps (.refl s) ..
  | .evlogRead _ => execEvlogRead_keeps (.refl s) ..
  | .telConfig _ => execTelConfig_keeps (.refl s) ..
  | .pwrStateSet _ => execPwrStateSet_keeps (.refl s) ..
  | .pwrReset _ => execPwrReset_keeps (.refl s) ..
  | .pwrConfig _ => execPwrConfig_keeps (.refl s) ..
  | .secProvision _ => execSecProvision_keeps (.refl s) ..
  | .secSeal _ => execSecSeal_keeps (.refl s) ..
  | .secToken _ => execSecToken_keeps (.refl s) ..
  | .secRevoke _ => execSecRevoke_keeps (.refl s) ..
  | .secPwClear _ => execSecPwClear_keeps (.refl s) ..
  | .secAttest _ => execSecAttest_keeps (.refl s) ..
/-- The invariant says nothing of the queue. -/
theorem State.Inv.pending {s : State} (h : s.Inv) (q : List Instr) : ({ s with pending := q } : State).Inv :=
  ⟨h.regs, h.mem, h.evlog, h.trc, h.tags, h.caps⟩

/-- A step idles, or is the command at the front of the queue. -/
theorem step_cases {s t : State} (h : step s = .next t) :
    t = s ∨ ∃ c rest, s.pending = c :: rest ∧ exec c { s with pending := rest } = .next t := by
  unfold step at h
  split at h
  · exact .inl (Host.Outcome.next.inj h).symm
  · next c rest hq => exact .inr ⟨c, rest, hq, h⟩

end Sys2Proof.Machine

namespace Sys2Proof.Claims
open Sys2Proof.Machine

/-- Settles O3: after reset the maps and the buffers are empty. -/
theorem resetStateIsSound : Obligations.ResetStateIsSound := State.reset_inv

/-- Settles O4: an idle step changes nothing, and the command that a step executes keeps the invariant. -/
theorem everyStepKeepsStateSound : Obligations.EveryStepKeepsStateSound := by
  unfold Obligations.EveryStepKeepsStateSound
  intro s t hs hstep
  rcases step_cases hstep with rfl | ⟨c, rest, -, hexec⟩
  · exact hs
  · obtain ⟨u, hu, hkeeps⟩ := exec_keeps c { s with pending := rest }
    obtain rfl : u = t := Host.Outcome.next.inj (hu.symm.trans hexec)
    exact hkeeps.inv (hs.pending rest)

end Sys2Proof.Claims
end

section
/-! PROOFS. A change that disables a custom descriptor and is refused for the load (R143, R157): the counterexample to what is
claimed of DESC_WRITE. -/

namespace Sys2Proof.Claims
open Sys2Proof.Machine

/-- Descriptors 0 and 1 are enabled custom descriptors, every eighth period and every period, and both release descriptor 2, whose
budget is 60000 cycles. One engine is in service. Mailbox 0 holds a DESC_WRITE that disables descriptor 0. -/
def twoReleasers : State :=
  let s := State.reset.setBytes (pageOf 0) (ofWords [0, 0x08000000])
  let s := ((s.put R.SCH_DESC_EN 1 0).put R.SCH_DESC_TYPE 8 0).put R.SCH_DESC_DIV 3 0
  let s := (s.put R.SCH_DESC_NEXT_EN 1 0).put R.SCH_DESC_NEXT 2 0
  let s := (s.put R.SCH_DESC_EN 1 1).put R.SCH_DESC_TYPE 8 1
  let s := (s.put R.SCH_DESC_NEXT_EN 1 1).put R.SCH_DESC_NEXT 2 1
  let s := ((s.put R.SCH_DESC_EN 1 2).put R.SCH_DESC_REL 2 2).put R.SCH_DESC_BUDGET 60000 2
  let s := s.put R.SCH_STATUS_ENG_INSVC 1
  ((s.put R.MBX_STAT_STATUS 1).put H.MB_OPC 0x0301).put H.MB_LEN 36

theorem twoReleasers_ready : Ready twoReleasers 0 0x0301 36 := by constructor <;> decide +kernel

/-- The words that the request gives descriptor 0. -/
def disabledWords : List Nat := (List.range 8).map fun k => twoReleasers.par 0 (4 + 4 * k) 4

/-- They are a custom descriptor's, with EN at 0 and DLSEL at 0, and descriptor 0 is a custom one. -/
theorem twoReleasers_request : twoReleasers.par 0 0 4 = 0 ∧ bits (disabledWords.getD 0 0) 24 4 = 8 ∧
    bits ((twoReleasers.descNext 0).getD 0 0) 24 4 = 8 ∧ bit (disabledWords.getD 0 0) 22 = false ∧
    bits (disabledWords.getD 3 0) 16 2 = 0 := by decide +kernel

/-- Descriptor 2 counts with the divider 8 of descriptor 0, and once that is off with the divider 1 of descriptor 1: the sum of
R157 grows from 15000 ns to 120000 ns. -/
theorem twoReleasers_load : twoReleasers.loadSum [] = 8 * 15000 ∧ twoReleasers.loadSum [(0, disabledWords)] = 8 * 120000 := by
  decide +kernel

/-- The base period is 31250 ns, and no more than 85 % of the one engine may be admitted. -/
theorem twoReleasers_limit : twoReleasers.descPend = [] ∧ twoReleasers.nService = 1 ∧ twoReleasers.baseNs = 31250 ∧
    twoReleasers.get R.SCH_CFG_ADMIT = 85 := by decide +kernel

/-- The change is over ADMIT and raises the load (R157). -/
theorem twoReleasers_over : twoReleasers.descOver 0 disabledWords = true := by
  obtain ⟨hold, hnew⟩ := twoReleasers_load
  obtain ⟨hpend, hserv, hbase, hadmit⟩ := twoReleasers_limit
  simp [State.descOver, State.loadRefuses, State.loadOver, hpend, hold, hnew, hserv, hbase, hadmit]

/-- The request fails for the load. -/
theorem exec_descWrite_twoReleasers : exec (.descWrite 0) twoReleasers = .next (twoReleasers.fail 0 0x0301) := by
  obtain ⟨hpar, htype, hnext, -, hsel⟩ := twoReleasers_request
  have hover := twoReleasers_over
  unfold disabledWords at htype hsel hover
  show execDescWrite 0 twoReleasers = _
  unfold execDescWrite
  rw [twoReleasers_ready.request]
  simp only [hpar, htype, hnext, hsel, hover]
  rfl

/-- Refutes O29. Where two descriptors release a third, it counts for the load with the divider of the first; disabling that one
raises the load, and the request is refused as any other that does (R157). The claim has every change with EN at 0 accepted. -/
theorem not_traceAndSchedulerRequests : ¬ Obligations.TraceAndSchedulerRequests := by
  unfold Obligations.TraceAndSchedulerRequests
  intro h
  obtain ⟨hpar, htype, hnext, hoff, hsel⟩ := twoReleasers_request
  obtain ⟨-, hwrite, -⟩ := h.2 0 twoReleasers
  rw [hpar] at hwrite
  obtain ⟨t, ht, hdone, -⟩ := hwrite twoReleasers_ready (by decide) htype hnext hoff (hsel.trans_ne (by decide))
  obtain rfl : t = twoReleasers.fail 0 0x0301 := Host.Outcome.next.inj (ht.symm.trans exec_descWrite_twoReleasers)
  have hfail := (complete_answers (handle := 0) (res := []) twoReleasers_ready.jrn (by decide) (by decide : 3 < 8)
    (by decide : 0x0301 < 65536)).1.status
  exact absurd (hdone.status.symm.trans hfail) (by decide)

end Sys2Proof.Claims
end

section
/-! SUPPORT. Steps known by the fields that they write: what they leave, the causes of HIF_INT_STAT and the events of an axis
(R257, R259), the functions of an axis shown (R170), and the long operations of the module (R272, R274). -/

namespace Sys2Proof.Claims
open Sys2Proof.Machine

-- One proof after another: each thread has a stack of its own, and the text compiled at once is near its memory.
set_option Elab.async false

variable {s t u : State} {fs gs : List Fld} {a : Nat}

/-! ### What a step leaves -/

/-- A field apart from those written reads as before. -/
theorem Steps.get {g : Fld} {i : Nat} (h : Steps fs s t) (hi : i ≤ g.n - 1)
    (hg : (fs.all fun f => f.disjoint g) = true := by rfl) : t.get g i = s.get g i :=
  h.regs g i 0 hg hi (Nat.zero_le _)

theorem Steps.mono (h : Steps fs s t) (hs : fs ⊆ gs) : Steps gs s t := ⟨h.regs.mono hs, h.mem, h.insts, h.clean⟩

/-- A change of lists other than the instances and the errors of the arrays writes no field. -/
theorem Steps.ofLists (h : Steps fs s t) (hr : u.regs = t.regs := by rfl) (hm : u.mem = t.mem := by rfl)
    (hi : u.insts = t.insts := by rfl) (he : u.arrErrs = t.arrErrs := by rfl) : Steps fs s u :=
  ⟨h.regs.ofRegs hr, hm.trans h.mem, hi.trans h.insts, fun hs => he.trans (h.clean hs)⟩

/-- A change of places that belong to fields of `fs` writes those fields. -/
theorem OnlyRegs.steps {ks : List Nat} (h : OnlyRegs ks s t)
    (hks : ∀ k ∈ ks, ∃ f ∈ fs, ∃ i j, i ≤ f.n - 1 ∧ j ≤ f.m - 1 ∧ k = fkey f i j) : Steps fs s t where
  regs g i j hg hi hj := h.regs g i j fun hk => by
    obtain ⟨f, hf, i', j', hi', hj', he⟩ := hks _ hk
    exact fkey_ne_of_disjoint (List.all_eq_true.1 hg f hf) hi' hj' hi hj he.symm
  mem := h.mem
  insts := insts_of_lists h.lists
  clean hs := (congrArg State.arrErrs h.lists :).trans hs

/-! ### Causes and axis events (R257, R259) -/

/-- The fields that a cause of HIF_INT_STAT writes. -/
def causeFields : List Fld := [R.HIF_INT_STAT, R.HIF_MSIX_PBA]

theorem Steps.sendMsix (h : Steps fs s t) (hf : R.HIF_MSIX_PBA ∈ fs) (v : Nat) : Steps fs s (t.sendMsix v) := by
  unfold State.sendMsix
  split_ifs
  · exact h
  · exact h.put hf (Nat.zero_le _) (Nat.zero_le _) _
  · exact h.ofLists

theorem Steps.cause (h : Steps fs s t) (hf : causeFields ⊆ fs) (k : Nat) : Steps fs s (t.cause k) :=
  have ho := h.put (hf (by decide : R.HIF_INT_STAT ∈ causeFields)) (Nat.zero_le 0) (Nat.zero_le 0) _
  ho.when (ho.sendMsix (hf (by decide)) _)

theorem cause_waits (s : State) (k : Nat) : (s.cause k).waits = s.waits := ((Holds.refl s).cause k).waits

theorem Steps.axEvt (h : Steps fs s t) (hf : R.HIF_AXEVT :: causeFields ⊆ fs) (ha : a < 256) : Steps fs s (t.axEvt a) :=
  have ho := h.put (hf (by decide : R.HIF_AXEVT ∈ R.HIF_AXEVT :: causeFields)) (Nat.zero_le 0)
    (show a / 32 ≤ 7 by omega) _
  ho.when (ho.cause (List.subset_of_cons_subset hf) 6)

theorem axEvt_segs (s : State) (a : Nat) : (s.axEvt a).segs = s.segs := by
  have hcause : ∀ t : State, (t.cause 6).segs = t.segs := fun t =>
    (congrArg State.segs ((Holds.refl t).cause 6).rest :)
  exact State.when_same State.segs _ _ (hcause _)

/-! ### Functions of an axis (R165, R170) -/

theorem Steps.setMotion (h : Steps fs s t) (m : Motion) : Steps fs s (t.setMotion m) := h.ofLists

theorem Steps.insMotion (h : Steps fs s t) (m : Motion) : Steps fs s (t.insMotion m) := h.ofLists

/-- The fields that a function in force shows. -/
def shownFields : List Fld := [R.TRJ_STAT_MODE, R.TRJ_TARGET, R.TRJ_T_END, R.TRJ_STAT_REVERSAL]

theorem Steps.showMotion {m : Motion} (h : Steps fs s t) (hf : shownFields ⊆ fs) (ha : m.axis < 256) :
    Steps fs s (t.showMotion m) :=
  have hi : m.axis ≤ 255 := Nat.le_of_lt_succ ha
  (((h.put (f := R.TRJ_STAT_MODE) (hf (by decide)) hi (Nat.zero_le 0) _).put (f := R.TRJ_TARGET) (hf (by decide)) hi
    (Nat.zero_le 0) _).put (f := R.TRJ_T_END) (hf (by decide)) hi (Nat.zero_le 0) _).put (f := R.TRJ_STAT_REVERSAL)
    (hf (by decide)) hi (Nat.zero_le 0) _

theorem showMotion_mode {m : Motion} (hm : m.axis = a) (s : State) :
    (s.showMotion m).get R.TRJ_STAT_MODE a = modeOf m.kind % 8 := by
  subst hm
  unfold State.showMotion State.puti
  dsimp only
  rw [State.get_put_ne, State.get_put_ne, State.get_put_ne, State.get_put_self]
  · rfl
  all_goals
    simp only [fkey, R.TRJ_STAT_MODE, R.TRJ_TARGET, R.TRJ_T_END, R.TRJ_STAT_REVERSAL]
    omega

/-- The quick stop of an axis is shown, with MODE 4. -/
theorem quickStop_steps (ha : a < 256) (s : State) (x : Nat) : Steps shownFields s (s.quickStop a x) :=
  Steps.showMotion ((Steps.refl _ s).setMotion _) (List.Subset.refl _) ha

theorem quickStop_mode (s : State) (a x : Nat) : (s.quickStop a x).get R.TRJ_STAT_MODE a = 4 :=
  showMotion_mode (m := s.stopMotion a x 4 (s.quickLimits a)) rfl _

/-! ### Long operations (R272, R274) -/

/-- The fields by which a long operation is found. -/
def lopFields : List Fld := [R.LOP_ID_HANDLE, R.LOP_OBJ_OPCODE, R.LOP_OBJ_INDEX, R.LOP_ID_STATUS]

/-- A step that writes none of these finds the same one. -/
theorem Steps.lopOf (h : Steps fs s t) (hf : (lopFields.all fun g => fs.all fun f => f.disjoint g) = true) (opc idx : Nat) :
    t.lopOf opc idx = s.lopOf opc idx := by
  refine List.find?_congr fun k hk => ?_
  have hk : k ≤ 31 := Nat.le_of_lt_succ (List.mem_range.1 hk)
  have hget : ∀ g ∈ lopFields, k ≤ g.n - 1 → t.get g k = s.get g k := fun g hg hi =>
    h.get hi (List.all_eq_true.1 hf g hg)
  rw [hget R.LOP_ID_HANDLE (by decide) hk, hget R.LOP_OBJ_OPCODE (by decide) hk, hget R.LOP_OBJ_INDEX (by decide) hk,
    hget R.LOP_ID_STATUS (by decide) hk]

theorem lopOf_running {opc idx k : Nat} (h : s.lopOf opc idx = some k) :
    k < 32 ∧ (s.get R.LOP_ID_STATUS k = 1 ∨ s.get R.LOP_ID_STATUS k = 4) := by
  have hk := List.find?_some h
  simp only [Bool.and_eq_true, Bool.or_eq_true, beq_iff_eq] at hk
  exact ⟨List.mem_range.1 (List.mem_of_find?_eq_some h), hk.2⟩

/-- The fields that the end of a long operation writes where no request waits on it. -/
def lopEndFields : List Fld := R.LOP_ID_STATUS :: R.LOP_PROG_REASON :: R.LOP_T_END :: causeFields

theorem State.failAll_of_no_waits (h : s.waits = []) (opc key reason : Nat) : s.failAll opc key reason = s := by
  simp [State.failAll, State.waiting, h, State.each]

/-- A running operation that fails, where no request waits on it. -/
theorem lopFinish_failed {opc idx k reason : Nat} (h : s.lopOf opc idx = some k) (hw : s.waits = []) :
    s.lopFinish opc idx 3 reason =
      (((s.put R.LOP_ID_STATUS 3 k).put R.LOP_PROG_REASON reason k).put R.LOP_T_END s.now k).cause 0 := by
  have hnow : ((s.put R.LOP_ID_STATUS 3 k).put R.LOP_PROG_REASON reason k).now = s.now := by
    unfold State.now
    rw [State.get_put_ne, State.get_put_ne]
    all_goals
      have := (lopOf_running h).1
      simp only [fkey, R.LOP_ID_STATUS, R.LOP_PROG_REASON, R.DCK_TIME]
      omega
  unfold State.lopFinish
  simp only [h, State.lopEnd, if_pos (lopOf_running h).2, hnow]
  exact (State.failAll_of_no_waits ((congrArg State.waits (State.failAll_of_no_waits (by rw [cause_waits]; exact hw) ..)).trans
    (by rw [cause_waits]; exact hw)) ..).trans (State.failAll_of_no_waits (by rw [cause_waits]; exact hw) ..)

theorem lopFinish_steps {opc idx k reason : Nat} (h : s.lopOf opc idx = some k) (hw : s.waits = []) :
    Steps lopEndFields s (s.lopFinish opc idx 3 reason) := by
  have hk : k ≤ 31 := Nat.le_of_lt_succ (lopOf_running h).1
  rw [lopFinish_failed h hw]
  exact ((((Steps.refl lopEndFields s).put (f := R.LOP_ID_STATUS) (by decide) hk (Nat.zero_le 0) 3).put
    (f := R.LOP_PROG_REASON) (by decide) hk (Nat.zero_le 0) reason).put (f := R.LOP_T_END) (by decide) hk (Nat.zero_le 0)
    _).cause (by decide) 0

/-- The operation shows FAILED and its reason. -/
theorem lopFinish_status {opc idx k reason : Nat} (h : s.lopOf opc idx = some k) (hw : s.waits = []) (hr : reason < 2 ^ 16) :
    (s.lopFinish opc idx 3 reason).get R.LOP_ID_STATUS k = 3 ∧
      (s.lopFinish opc idx 3 reason).get R.LOP_PROG_REASON k = reason := by
  have hk := (lopOf_running h).1
  rw [lopFinish_failed h hw, get_cause (by simp only [fkey, R.HIF_MSIX_PBA, R.LOP_ID_STATUS]; omega),
    get_cause (by simp only [fkey, R.HIF_MSIX_PBA, R.LOP_PROG_REASON]; omega)]
  constructor
  · rw [State.orBit, State.get_put_ne, State.get_put_ne, State.get_put_ne, State.get_put_self]
    · rfl
    all_goals
      simp only [fkey, R.LOP_ID_STATUS, R.LOP_PROG_REASON, R.LOP_T_END, R.HIF_INT_STAT]
      omega
  · rw [State.orBit, State.get_put_ne, State.get_put_ne, State.get_put_of_lt _ _ _ hr]
    all_goals
      simp only [fkey, R.LOP_PROG_REASON, R.LOP_T_END, R.HIF_INT_STAT]
      omega

end Sys2Proof.Claims
end

section
/-! PROOFS. What happens at the times a trajectory sets: the end of a segment (R185), a motion that takes hold (R165), a homing
that takes too long (R191) or finds its hard stop (R188, R192). -/

namespace Sys2Proof.Claims
open Sys2Proof.Machine

-- One proof after another: each thread has a stack of its own, and the text compiled at once is near its memory.
set_option Elab.async false

variable {s t : State} {a : Nat}

/-! ### The end of a segment (R181, R184, R185) -/

/-- The end of a segment is counted and reported where the segment asks for it; what came late is noted no longer. -/
def segNoted (s : State) (a : Nat) : State :=
  let s := s.put R.TRJ_SEG_DONE (s.get R.TRJ_SEG_DONE a + 1) a
  (s.when (bit (s.get H.SEG_FL a) 1) fun s => s.axEvt a).put H.SEG_TS 0 a

/-- The fields that this writes. -/
def notedSegFields : List Fld := R.TRJ_SEG_DONE :: H.SEG_TS :: R.HIF_AXEVT :: causeFields

theorem segNoted_steps (ha : a < 256) (s : State) : Steps notedSegFields s (segNoted s a) :=
  have hi : a ≤ 255 := Nat.le_of_lt_succ ha
  have hdone := (Steps.refl notedSegFields s).put (f := R.TRJ_SEG_DONE) (by decide) hi (Nat.zero_le 0)
    (s.get R.TRJ_SEG_DONE a + 1)
  Steps.put (f := H.SEG_TS) (hdone.when (hdone.axEvt (by decide) ha)) (by decide) hi (Nat.zero_le 0) 0

theorem segNoted_done (ha : a < 256) (s : State) :
    (segNoted s a).get R.TRJ_SEG_DONE a = (s.get R.TRJ_SEG_DONE a + 1) % 2 ^ 32 := by
  have hi : a ≤ 255 := Nat.le_of_lt_succ ha
  have hevt : ∀ t : State, Steps (H.SEG_TS :: R.HIF_AXEVT :: causeFields) t
      ((t.when (bit (t.get H.SEG_FL a) 1) fun s => s.axEvt a).put H.SEG_TS 0 a) := fun t =>
    Steps.put (f := H.SEG_TS) ((Steps.refl _ t).when ((Steps.refl _ t).axEvt (by decide) ha)) (by decide) hi (Nat.zero_le 0) 0
  exact ((hevt _).get hi).trans (State.get_put_self ..)

theorem segNoted_segs (s : State) (a : Nat) : (segNoted s a).segs = s.segs :=
  State.when_same State.segs (s.put R.TRJ_SEG_DONE (s.get R.TRJ_SEG_DONE a + 1) a) _ (axEvt_segs _ a)

/-- Whether software limits act does not depend on what the end of a segment writes (R176). -/
theorem swlOn_segNoted (ha : a < 256) (s : State) : (segNoted s a).swlOn a = s.swlOn a := by
  have h := segNoted_steps ha s
  have hi : a ≤ 255 := Nat.le_of_lt_succ ha
  unfold State.swlOn State.on
  rw [h.get (g := R.TRJ_CFG_SWL_EN) hi, h.get (g := R.AXS_STATUS_HOMED) hi, h.get (g := R.HM_STAT_PHASE) hi]

/-- Nor does the check of R184. -/
theorem segOk_segNoted (ha : a < 256) (s : State) (p0 v0 p1 v1 : Int) (n : Nat) :
    (segNoted s a).segOk a p0 v0 p1 v1 n = s.segOk a p0 v0 p1 v1 n := by
  have h := segNoted_steps ha s
  have hi : a ≤ 255 := Nat.le_of_lt_succ ha
  unfold State.segOk State.lim State.geti
  rw [swlOn_segNoted ha, h.get (g := R.TRJ_VMAX) hi, h.get (g := R.TRJ_AMAX) hi, h.get (g := R.TRJ_DMAX) hi,
    h.get (g := R.TRJ_SWL_NEG) hi, h.get (g := R.TRJ_SWL_POS) hi]

theorem swlClamp_segNoted (ha : a < 256) (s : State) (p : Int) : (segNoted s a).swlClamp a p = s.swlClamp a p := by
  have h := segNoted_steps ha s
  have hi : a ≤ 255 := Nat.le_of_lt_succ ha
  unfold State.swlClamp State.geti
  rw [swlOn_segNoted ha, h.get (g := R.TRJ_SWL_NEG) hi, h.get (g := R.TRJ_SWL_POS) hi]

theorem axPeriod_segNoted (ha : a < 256) (s : State) : (segNoted s a).axPeriod a = s.axPeriod a := by
  have h := segNoted_steps ha s
  unfold State.axPeriod State.baseNs State.ringCyc State.on
  rw [h.get (g := H.AX_DIV) (Nat.le_of_lt_succ ha), h.get (g := R.NRT_RCFG_EN) (i := 0) (by decide),
    h.get (g := R.NRT_RCFG_EN) (i := 1) (by decide), h.get (g := R.NRT_RCFG_CYC) (i := 0) (by decide),
    h.get (g := R.NRT_RCFG_CYC) (i := 1) (by decide)]

section
variable (ha : a < 256) (hon : s.tableOn a = true) (hup : s.effectUp a (s.get H.SEG_TE a) = true)
  (hleft : s.segLeft a = false)
include ha hon hup hleft

/-- Without a successor there is an underrun. -/
theorem exec_segmentEnd_of_nil (hq : s.segsOf a = []) : exec (.segmentEnd a) s =
    .next ((segNoted s a).segUnder a (s.get H.SEG_TS a) (s.segEnd a)) := by
  have hq' : (segNoted s a).segsOf a = [] := by rw [State.segsOf, segNoted_segs]; exact hq
  show execSegmentEnd a s = _
  unfold execSegmentEnd
  rw [if_neg (by simp only [hon, hup]; simpa using ha)]
  simp only [hleft]
  unfold segNoted at hq' ⊢
  simp only [hq']
  rfl

/-- A successor that came in time starts. -/
theorem exec_segmentEnd_of_cons {g : Seg} {l : List Seg} (hq : s.segsOf a = g :: l) (hlate : s.get H.SEG_TS a = 0) :
    exec (.segmentEnd a) s = .next ((segNoted s a).segStart a (s.get H.SEG_TE a) (s.segEnd a) g) := by
  have hq' : (segNoted s a).segsOf a = g :: l := by rw [State.segsOf, segNoted_segs]; exact hq
  have hte : (segNoted s a).get H.SEG_TE a = s.get H.SEG_TE a := (segNoted_steps ha s).get (Nat.le_of_lt_succ ha)
  show execSegmentEnd a s = _
  unfold execSegmentEnd
  rw [if_neg (by simp only [hon, hup]; simpa using ha)]
  simp only [hleft, hlate]
  rw [← hte]
  unfold segNoted at hq' ⊢
  simp only [hq']
  rfl

end

/-- An underrun at rest, with nothing queued: the axis holds (R185). -/
theorem segUnder_of_rest {x : Pva} (late : Nat) (hq : s.segsOf a = []) (hx : x.v = 0) : ∃ m, s.segUnder a late x =
    ((s.incSat R.TRJ_SEG_STAT_UNDERRUNS a).insMotion m).put R.TRJ_SEG_STAT_STATE 2 a := by
  refine ⟨{ holdMotion a ((s.incSat R.TRJ_SEG_STAT_UNDERRUNS a).get H.SEG_TE a) x.p with kind := 2, begun := true }, ?_⟩
  have hq' : (((s.incSat R.TRJ_SEG_STAT_UNDERRUNS a).insMotion { holdMotion a ((s.incSat R.TRJ_SEG_STAT_UNDERRUNS a).get
      H.SEG_TE a) x.p with kind := 2, begun := true }).put R.TRJ_SEG_STAT_STATE 2 a).segsOf a = [] := hq
  unfold State.segUnder
  simp only [if_pos hx, hq']

/-- The last segment of a table ends at rest (R185). -/
theorem segmentEnd_underruns (ha : a < 256) (hon : s.tableOn a = true) (hup : s.effectUp a (s.get H.SEG_TE a) = true)
    (hleft : s.segLeft a = false) (hq : s.segsOf a = []) (hx : (s.segEnd a).v = 0) :
    Completes (.segmentEnd a) s fun t => t.get R.TRJ_SEG_STAT_STATE a = 2 ∧
      t.get R.TRJ_SEG_DONE a = (s.get R.TRJ_SEG_DONE a + 1) % 2 ^ 32 ∧
      t.get R.TRJ_SEG_STAT_UNDERRUNS a = min (s.get R.TRJ_SEG_STAT_UNDERRUNS a + 1) 65535 ∧ t.mem = s.mem := by
  have hi : a ≤ 255 := Nat.le_of_lt_succ ha
  have hnoted := segNoted_steps ha s
  obtain ⟨m, hm⟩ := segUnder_of_rest (s := segNoted s a) (s.get H.SEG_TS a)
    (by rw [State.segsOf, segNoted_segs]; exact hq) hx
  refine ⟨_, (exec_segmentEnd_of_nil ha hon hup hleft hq).trans (congrArg _ hm), State.get_put_self .., ?_, ?_, hnoted.mem⟩
  · have hunder : Steps [R.TRJ_SEG_STAT_UNDERRUNS, R.TRJ_SEG_STAT_STATE] (segNoted s a)
        ((((segNoted s a).incSat R.TRJ_SEG_STAT_UNDERRUNS a).insMotion m).put R.TRJ_SEG_STAT_STATE 2 a) :=
      Steps.put (f := R.TRJ_SEG_STAT_STATE) (Steps.ofLists ((Steps.refl _ (segNoted s a)).put
        (f := R.TRJ_SEG_STAT_UNDERRUNS) (by decide) hi (Nat.zero_le 0) _)) (by decide) hi (Nat.zero_le 0) 2
    exact (hunder.get hi).trans (segNoted_done ha s)
  · rw [State.get_put_ne _ _ (by simp only [fkey, R.TRJ_SEG_STAT_STATE, R.TRJ_SEG_STAT_UNDERRUNS]; omega)]
    refine (State.get_put_of_lt _ _ _ (Nat.lt_of_le_of_lt (Nat.min_le_right ..) (by decide))).trans ?_
    rw [hnoted.get hi]
    rfl

/-- A segment that passes its check brings its cubic (R181, R184). -/
theorem segFrom_of_ok {x : Pva} {g : Seg} (t : Nat) (hok : s.segOk a x.p x.v (s.swlClamp a g.pEnd * 4294967296)
    (g.vEnd * 4294967296) (g.dur * s.axPeriod a) = true) : (s.segFrom a t x g).axis = a ∧
      (s.segFrom a t x g).kind = 2 ∧ (s.segFrom a t x g).te = t + g.dur * s.axPeriod a := by
  unfold State.segFrom
  simp only [hok, if_true, and_self]

/-- The first queued segment taken out of the queue. -/
def segTaken (s : State) (a : Nat) : State :=
  let s : State := { s with segs := dropSeg a s.segs }
  s.put R.TRJ_SEG_STAT_COUNT (s.segsOf a).length a

/-- A segment `g` noted as the active one, with the function `m` that it brings at `t`. -/
def segActive (s : State) (a t : Nat) (m : Motion) (g : Seg) : State :=
  let s := ((s.put H.SEG_TK t a).put H.SEG_TE m.te a).put H.SEG_FL g.flags a
  ((s.puti H.SEG_PE m.tgt a).puti H.SEG_VE g.vEnd a).put R.TRJ_SEG_STAT_STATE 1 a

/-- The fields that the start of a segment writes. -/
def segStartFields : List Fld := [R.TRJ_SEG_STAT_COUNT, R.TRJ_SEG_STAT_STATE, H.SEG_TK, H.SEG_TE, H.SEG_FL, H.SEG_PE,
  H.SEG_VE] ++ shownFields

theorem segTaken_steps (ha : a < 256) (s : State) : Steps segStartFields s (segTaken s a) :=
  Steps.put (f := R.TRJ_SEG_STAT_COUNT) (Steps.ofLists (Steps.refl _ s)) (by decide) (Nat.le_of_lt_succ ha) (Nat.zero_le 0) _

theorem segActive_steps (ha : a < 256) {u : State} (h : Steps segStartFields s u) (t : Nat) (m : Motion) (g : Seg) :
    Steps segStartFields s (segActive u a t m g) :=
  have hi : a ≤ 255 := Nat.le_of_lt_succ ha
  (((((h.put (f := H.SEG_TK) (by decide) hi (Nat.zero_le 0) _).put (f := H.SEG_TE) (by decide) hi (Nat.zero_le 0) _).put
    (f := H.SEG_FL) (by decide) hi (Nat.zero_le 0) _).put (f := H.SEG_PE) (by decide) hi (Nat.zero_le 0) _).put
    (f := H.SEG_VE) (by decide) hi (Nat.zero_le 0) _).put (f := R.TRJ_SEG_STAT_STATE) (by decide) hi (Nat.zero_le 0) _

theorem segActive_end (s : State) (a t : Nat) (m : Motion) (g : Seg) :
    (segActive s a t m g).get H.SEG_TE a = m.te % 2 ^ 64 := by
  unfold segActive State.puti
  dsimp only
  rw [State.get_put_ne, State.get_put_ne, State.get_put_ne, State.get_put_ne, State.get_put_self]
  · rfl
  all_goals
    simp only [fkey, R.TRJ_SEG_STAT_STATE, H.SEG_TE, H.SEG_FL, H.SEG_PE, H.SEG_VE]
    omega

/-- The start of a segment that passes its check (R181, R184). -/
theorem segStart_of_ok (ha : a < 256) {x : Pva} {g : Seg} (t : Nat) (hok : s.segOk a x.p x.v
    (s.swlClamp a g.pEnd * 4294967296) (g.vEnd * 4294967296) (g.dur * s.axPeriod a) = true) :
    Steps segStartFields s (s.segStart a t x g) ∧ (s.segStart a t x g).segs = dropSeg a s.segs ∧
      (s.segStart a t x g).get R.TRJ_SEG_STAT_STATE a = 1 ∧
      (s.segStart a t x g).get H.SEG_TE a = (t + g.dur * s.axPeriod a) % 2 ^ 64 := by
  obtain ⟨haxis, hkind, hte⟩ := segFrom_of_ok t hok
  rw [← hte]
  unfold State.segStart
  generalize s.segFrom a t x g = m at haxis hkind
  dsimp only
  rw [if_pos hkind]
  have hins := (segTaken_steps ha s).insMotion { m with mid := 0, run := 0, begun := true }
  have hshown := Steps.when (f := fun s => s.showMotion m) (c := !(s.motionsOf a).any fun y => decide (t < y.ts)) hins
    (hins.showMotion (by decide) (haxis ▸ ha))
  exact ⟨segActive_steps ha hshown t m g, State.when_same State.segs ((segTaken s a).insMotion _) _ rfl,
    State.get_put_self .., segActive_end _ a t m g⟩

/-- A segment ends and its successor starts (R181, R185). -/
theorem segmentEnd_starts {g : Seg} {l : List Seg} (ha : a < 256) (hon : s.tableOn a = true)
    (hup : s.effectUp a (s.get H.SEG_TE a) = true) (hleft : s.segLeft a = false) (hq : s.segsOf a = g :: l)
    (hlate : s.get H.SEG_TS a = 0) (hok : s.segOk a (s.segEnd a).p (s.segEnd a).v (s.swlClamp a g.pEnd * 4294967296)
      (g.vEnd * 4294967296) (g.dur * s.axPeriod a) = true) :
    Completes (.segmentEnd a) s fun t => t.get R.TRJ_SEG_STAT_STATE a = 1 ∧ t.segs = dropSeg a s.segs ∧
      t.get R.TRJ_SEG_DONE a = (s.get R.TRJ_SEG_DONE a + 1) % 2 ^ 32 ∧
      t.get H.SEG_TE a = (s.get H.SEG_TE a + g.dur * s.axPeriod a) % 2 ^ 64 ∧ t.mem = s.mem := by
  rw [← segOk_segNoted ha, ← swlClamp_segNoted ha, ← axPeriod_segNoted ha] at hok
  obtain ⟨hsteps, hsegs, hst, hte⟩ := segStart_of_ok ha (s.get H.SEG_TE a) hok
  refine ⟨_, exec_segmentEnd_of_cons ha hon hup hleft hq hlate, hst, ?_, ?_, ?_, hsteps.mem.trans (segNoted_steps ha s).mem⟩
  · rw [hsegs, segNoted_segs]
  · exact (hsteps.get (Nat.le_of_lt_succ ha)).trans (segNoted_done ha s)
  · rw [hte, axPeriod_segNoted ha]

/-! ### A motion takes hold (R165) -/

/-- A move planned anew keeps its axis, its kind and its time. -/
theorem replan_of_move {m : Motion} (hk : m.kind = 1) (s : State) :
    (s.replan m).axis = m.axis ∧ (s.replan m).kind = 1 ∧ (s.replan m).ts = m.ts := by
  unfold State.replan
  rw [if_pos hk]
  exact ⟨rfl, hk, rfl⟩

theorem lrnRetime_of_none {m : Motion} (h : s.get H.LRN_T m.axis = 0) : s.lrnRetime m = s := by
  unfold State.lrnRetime
  dsimp only
  split
  · rw [if_neg (by simp [h])]
  · rfl

/-- A move, the last function of its axis, takes hold where no table stands: it is shown as it is planned now (R165, R170). -/
theorem takeHold_of_move {m : Motion} (hax : m.axis < 256) (hk : m.kind = 1) (hlast : ∀ y ∈ s.motionsOf m.axis, y.ts ≤ m.ts)
    (hlrn : s.get H.LRN_T m.axis = 0) (hst : s.get R.TRJ_SEG_STAT_STATE m.axis = 0) (hq : s.segsOf m.axis = []) :
    s.takeHold m = State.showMotion
      { s with motions := s.motions.map fun x => if x = m then { s.replan m with held := true } else x }
      { s.replan m with held := true } := by
  have hseg : s.runningSeg m = false := by simp [State.runningSeg, hk]
  obtain ⟨haxis, -, hts⟩ := replan_of_move hk s
  unfold State.takeHold
  simp only [hseg]
  generalize hn : ({ s.replan m with held := true } : Motion) = n
  have hnax : n.axis = m.axis := by rw [← hn]; exact haxis
  have hnts : n.ts = m.ts := by rw [← hn]; exact hts
  generalize hu : ({ s with motions := s.motions.map fun x => if x = m then n else x } : State) = u
  have hshown : Steps shownFields s (u.showMotion n) := by
    subst hu
    exact Steps.showMotion (Steps.ofLists (Steps.refl _ s)) (List.Subset.refl _) (hnax ▸ hax)
  have hno : (u.motionsOf m.axis).any (fun y => decide (m.ts < y.ts)) = false := by
    rw [List.any_eq_false]
    intro y hy
    subst hu
    obtain ⟨hmem, haxy⟩ := List.mem_filter.1 hy
    obtain ⟨z, hz, rfl⟩ := List.mem_map.1 hmem
    simp only [decide_eq_true_eq, Nat.not_lt]
    by_cases hzm : z = m
    · rw [if_pos hzm]
      exact hnts.le
    · rw [if_neg hzm] at haxy ⊢
      exact hlast z (List.mem_filter.2 ⟨hz, haxy⟩)
  have hsegs : (u.showMotion n).segsOf m.axis = [] := by subst hu; exact hq
  have hflush : (u.showMotion n).holdFlush m = u.showMotion n := by
    unfold State.holdFlush
    simp only [hshown.get (g := R.TRJ_SEG_STAT_STATE) (Nat.le_of_lt_succ hax), hst, hsegs]
    simp
  have hretime : (u.showMotion n).lrnRetime n = u.showMotion n :=
    lrnRetime_of_none (by rw [hnax]; exact (hshown.get (Nat.le_of_lt_succ hax)).trans hlrn)
  rw [hno, Bool.not_false, State.when_true, hflush, hretime]
  simp [hk]

theorem motionTakesHold_shows {m : Motion} (ha : a < 256) (hw : s.waitingMotion a = some m)
    (hup : s.effectUp a m.ts = true) (hlast : ∀ y ∈ s.motionsOf a, y.ts ≤ m.ts) (hlrn : s.get H.LRN_T a = 0)
    (hk : m.kind = 1) (hst : s.get R.TRJ_SEG_STAT_STATE a = 0) (hq : s.segsOf a = []) :
    Completes (.motionTakesHold a) s fun t =>
      t.motions = s.motions.map (fun x => if x = m then { s.replan m with held := true } else x) ∧
      t.get R.TRJ_STAT_MODE a = 1 ∧ t.mem = s.mem ∧
      RegsKept [fkey R.TRJ_STAT_MODE a 0, fkey R.TRJ_TARGET a 0, fkey R.TRJ_T_END a 0, fkey R.TRJ_STAT_REVERSAL a 0] s t := by
  obtain rfl : m.axis = a := by
    simpa using (List.mem_filter.1 (List.mem_of_find?_eq_some hw)).2
  obtain ⟨haxis, hkind, -⟩ := replan_of_move hk s
  have hexec : exec (.motionTakesHold m.axis) s = .next (s.takeHold m) := by
    show execMotionTakesHold m.axis s = _
    unfold execMotionTakesHold
    rw [hw]
    simp only [hup, if_true]
  refine ⟨_, hexec.trans (congrArg _ (takeHold_of_move ha hk hlast hlrn hst hq)), rfl, ?_, rfl, ?_⟩
  · refine (showMotion_mode (m := { s.replan m with held := true }) haxis _).trans ?_
    rw [hkind]
    rfl
  · unfold State.showMotion State.puti
    simp only [haxis]
    exact kept_put (by simp) (kept_put (by simp) (kept_put (by simp) (kept_put (by simp) (kept_of_regs rfl (kept_refl _ s)))))

/-! ### Homing (R188, R191, R192) -/

/-- The variables of a homing that ends. -/
def homingFields : List Fld := [R.HM_STAT_PHASE, H.HM_NEXT, H.HM_SUSP, R.HM_STAT_REVERSED, H.HM_STALL, H.IDX_ARM, H.HM_M0,
  R.HM_STAT_ERR]

/-- The failed end of homing, before its operation ends. -/
theorem homingOff_failed (ha : a < 256) (s : State) (reason : Nat) :
    Steps homingFields s ((s.homingOff a).put R.HM_STAT_ERR reason a) ∧
      ((s.homingOff a).put R.HM_STAT_ERR reason a).get R.HM_STAT_PHASE a = 0 := by
  have hi : a ≤ 255 := Nat.le_of_lt_succ ha
  have hphase := (Steps.refl homingFields s).put (f := R.HM_STAT_PHASE) (by decide) hi (Nat.zero_le 0) 0
  have hrest : ∀ {fs : List Fld} {u v : State}, homingFields.tail ⊆ fs → Steps fs u v → Steps fs u
      ((((((v.put H.HM_NEXT 0 a).put H.HM_SUSP 0 a).put R.HM_STAT_REVERSED 0 a).put H.HM_STALL 0 a).put H.IDX_ARM 0 a).put
        H.HM_M0 0 a |>.put R.HM_STAT_ERR reason a) := fun hf h =>
    ((((((h.put (f := H.HM_NEXT) (hf (by decide)) hi (Nat.zero_le 0) _).put (f := H.HM_SUSP) (hf (by decide)) hi
      (Nat.zero_le 0) _).put (f := R.HM_STAT_REVERSED) (hf (by decide)) hi (Nat.zero_le 0) _).put (f := H.HM_STALL)
      (hf (by decide)) hi (Nat.zero_le 0) _).put (f := H.IDX_ARM) (hf (by decide)) hi (Nat.zero_le 0) _).put (f := H.HM_M0)
      (hf (by decide)) hi (Nat.zero_le 0) _).put (f := R.HM_STAT_ERR) (hf (by decide)) hi (Nat.zero_le 0) _
  exact ⟨hrest (by decide) hphase, ((hrest (List.Subset.refl _) (Steps.refl _ _)).get hi).trans (State.get_put_self ..)⟩

/-- A homing that takes too long is aborted (R191). -/
theorem homingTimeout_aborts {k : Nat} (ha : a < 256) (hp : s.get R.HM_STAT_PHASE a ≠ 0) (hsusp : s.get H.HM_SUSP a = 0)
    (hlop : s.lopOf 0x0404 a = some k) (hw : s.waits = [])
    (hup : s.timeUp (s.get H.HM_T0 a + 1000000 * s.get R.HM_TIMEOUT a) = true) :
    Completes (.homingTimeout a) s fun t => t.get R.HM_STAT_PHASE a = 0 ∧ t.get R.HM_STAT_ERR a = 7 ∧
      t.get R.LOP_ID_STATUS k = 3 ∧ t.get R.LOP_PROG_REASON k = 0x0407 ∧ t.get R.TRJ_STAT_MODE a = 4 ∧ t.mem = s.mem := by
  have hexec : exec (.homingTimeout a) s = .next (s.homeAbort a (s.nextEffect a) 0x0407) := by
    show execHomingTimeout a s = _
    unfold execHomingTimeout
    rw [if_pos ⟨ha, hp, by rw [State.on_eq_false hsusp]; rfl, hup⟩]
  have hi : a ≤ 255 := Nat.le_of_lt_succ ha
  have hquick := quickStop_steps ha s (s.nextEffect a)
  have hmode := quickStop_mode s a (s.nextEffect a)
  have hwq : (s.quickStop a (s.nextEffect a)).waits = [] := hw
  have hlopq := (hquick.lopOf (by rfl) 0x0404 a).trans hlop
  refine ⟨_, hexec, ?_⟩
  show _ ∧ _
  unfold State.homeAbort State.homingEnd
  simp only [BEq.rfl, State.when_true]
  generalize s.quickStop a (s.nextEffect a) = q at hquick hmode hwq hlopq
  obtain ⟨hoff, hphase⟩ := homingOff_failed ha q 0x0407
  have herr : ((q.homingOff a).put R.HM_STAT_ERR 0x0407 a).get R.HM_STAT_ERR a = 7 := State.get_put_self ..
  have hwo : ((q.homingOff a).put R.HM_STAT_ERR 0x0407 a).waits = [] := hwq
  generalize (q.homingOff a).put R.HM_STAT_ERR 0x0407 a = o at hoff hphase herr hwo
  have hlopo := (hoff.lopOf (by rfl) 0x0404 a).trans hlopq
  have hend := lopFinish_steps (reason := 0x0407) hlopo hwo
  obtain ⟨hstatus, hreason⟩ := lopFinish_status (reason := 0x0407) hlopo hwo (by decide)
  exact ⟨(hend.get hi).trans hphase, (hend.get hi).trans herr, hstatus, hreason,
    (hend.get hi).trans ((hoff.get hi).trans hmode), hend.mem.trans (hoff.mem.trans hquick.mem)⟩

/-- The fields that the passage to the next phase writes once the phase is shown (R188, R190, R273). -/
def nextPhaseFields : List Fld := [R.HM_STAT_REVERSED, R.HM_STAT_LAT_P, R.HM_STAT_LAT_N, R.LOP_PROG_PERMILLE, H.HM_NEXT,
  H.IDX_ARM]

/-- The next phase is shown, and the axis goes to rest before it. -/
theorem homeNext_steps (ha : a < 256) (s : State) (t : Nat) :
    Steps nextPhaseFields (s.put R.HM_STAT_PHASE (s.get R.HM_STAT_PHASE a + 1) a) (s.homeNext a t) := by
  have hi : a ≤ 255 := Nat.le_of_lt_succ ha
  unfold State.homeNext
  generalize s.put R.HM_STAT_PHASE (s.get R.HM_STAT_PHASE a + 1) a = p
  have hlatch : Steps nextPhaseFields p (p.homeLatches a) :=
    (((Steps.refl _ p).put (f := R.HM_STAT_REVERSED) (by decide) hi (Nat.zero_le 0) 0).put (f := R.HM_STAT_LAT_P)
      (by decide) hi (Nat.zero_le 0) 0).put (f := R.HM_STAT_LAT_N) (by decide) hi (Nat.zero_le 0) 0
  have hprog : Steps nextPhaseFields p ((p.homeLatches a).homeProgress a) := by
    unfold State.homeProgress
    split
    · exact hlatch
    · next k hk => exact hlatch.put (by decide) (Nat.le_of_lt_succ (lopOf_running hk).1) (Nat.zero_le 0) _
  exact ((hprog.setMotion _).put (f := H.HM_NEXT) (by decide) hi (Nat.zero_le 0) 1).put
    (f := H.IDX_ARM) (by decide) hi (Nat.zero_le 0) 0

theorem homeNext_phase (ha : a < 256) (s : State) (t : Nat) :
    (s.homeNext a t).get R.HM_STAT_PHASE a = (s.get R.HM_STAT_PHASE a + 1) % 8 :=
  ((homeNext_steps ha s t).get (Nat.le_of_lt_succ ha)).trans (State.get_put_self ..)

/-- A reference taken at the sample's own resolution (R189). -/
theorem homeRef_values (ha : a < 256) (s : State) (p : Int) :
    Steps [R.HM_REF, R.HM_STAT_COARSE] s (s.homeRef a p false) ∧ (s.homeRef a p false).get R.HM_REF a = trunc 64 p % 2 ^ 64 ∧
      (s.homeRef a p false).get R.HM_STAT_COARSE a = 0 := by
  have hi : a ≤ 255 := Nat.le_of_lt_succ ha
  refine ⟨((Steps.refl _ s).put (f := R.HM_REF) (by decide) hi (Nat.zero_le 0) _).put (f := R.HM_STAT_COARSE) (by decide) hi
    (Nat.zero_le 0) _, ?_, State.get_put_self ..⟩
  unfold State.homeRef State.puti
  rw [State.get_put_ne _ _ (by simp only [fkey, R.HM_STAT_COARSE, R.HM_REF]; omega), State.get_put_self]
  rfl

theorem trunc_sext (n : Nat) : trunc 64 (sext 64 n) = n % 2 ^ 64 := by
  unfold trunc sext
  split <;> omega

/-- A hard stop found gives the reference and goes on to the next phase (R188, R192). -/
theorem hardStopStall_goesOn (ha : a < 256) (hstop : s.hardStop a = true) (hnext : s.get H.HM_NEXT a = 0)
    (hdwelt : s.stallDwelt a = true) : Completes (.hardStopStall a) s fun t =>
      t.get R.HM_REF a = s.get R.AXS_P_ACT a % 2 ^ 64 ∧ t.get R.HM_STAT_COARSE a = 0 ∧ t.get R.HM_STAT_PHASE a = 2 ∧
      t.mem = s.mem := by
  have hexec : exec (.hardStopStall a) s =
      .next ((s.homeRef a (s.geti R.AXS_P_ACT a) false).homeNext a (s.nextEffect a)) := by
    show execHardStopStall a s = _
    unfold execHardStopStall
    rw [if_pos ⟨ha, hstop, hnext, hdwelt⟩]
  have hi : a ≤ 255 := Nat.le_of_lt_succ ha
  have hone : s.get R.HM_STAT_PHASE a = 1 := by
    simp only [State.hardStop, Bool.and_eq_true, beq_iff_eq] at hstop
    exact hstop.1
  obtain ⟨href, hval, hcoarse⟩ := homeRef_values ha s (s.geti R.AXS_P_ACT a)
  refine ⟨_, hexec, ?_⟩
  generalize s.homeRef a (s.geti R.AXS_P_ACT a) false = r at href hval hcoarse
  have hgo := homeNext_steps ha r (s.nextEffect a)
  have hput : Steps [R.HM_STAT_PHASE] r (r.put R.HM_STAT_PHASE (r.get R.HM_STAT_PHASE a + 1) a) :=
    (Steps.refl _ r).put (by decide) hi (Nat.zero_le 0) _
  refine ⟨?_, ?_, ?_, hgo.mem.trans href.mem⟩
  · rw [hgo.get hi, hput.get hi, hval, State.geti, show R.AXS_P_ACT.width = 64 from rfl, trunc_sext, Nat.mod_mod]
  · exact (hgo.get hi).trans ((hput.get hi).trans hcoarse)
  · rw [homeNext_phase ha, href.get hi, hone]

/-! ### The claim -/

/-- Settles O36: each of the commands, at its time, does what its lemma above says of it. -/
theorem trajectoryEventsTakeEffect : Obligations.TrajectoryEventsTakeEffect := by
  unfold Obligations.TrajectoryEventsTakeEffect
  intro a k m g l s ha
  refine ⟨fun hon hup hleft => ⟨fun hq hx => ?_, fun hq hlate hok => ?_⟩, fun hw hup hlast hlrn hk hst hq => ?_,
    fun hp hsusp hlop hw hup => ?_, fun hstop hnext hdwelt => ?_⟩
  · exact segmentEnd_underruns ha hon hup hleft hq hx
  · exact segmentEnd_starts ha hon hup hleft hq hlate hok
  · exact motionTakesHold_shows ha hw hup hlast hlrn hk hst hq
  · exact homingTimeout_aborts ha hp hsusp hlop hw hup
  · exact hardStopStall_goesOn ha hstop hnext hdwelt

end Sys2Proof.Claims
end

section
/-! SUPPORT. The clock moved on (R16), and the outputs that compare units drive: the switches of the field outputs follow at once
what is wanted of them (R194, R344, R346, R360, R367). -/

namespace Sys2Proof.Claims
open Sys2Proof.Machine

-- One proof after another: each thread has a stack of its own, and the text compiled at once is near its memory.
set_option Elab.async false

variable {s t : State} {fs : List Fld} {c x : Nat}

/-! ### The clock (R16) -/

/-- The places of the distributed clock. -/
def clockPlaces : List Nat := [fkey R.DCK_TIME 0 0, fkey R.DCK_FRAC 0 0]

theorem clockTo_only (s : State) (t frac : Nat) : OnlyRegs clockPlaces s (s.clockTo t frac) := by
  unfold State.clockTo
  split_ifs
  · exact ((OnlyRegs.refl _ s).put (by simp [clockPlaces]) _).put (by simp [clockPlaces]) _
  · exact OnlyRegs.refl _ s

theorem clockTo_steps (s : State) (t frac : Nat) : Steps [R.DCK_TIME, R.DCK_FRAC] s (s.clockTo t frac) := by
  refine (clockTo_only s t frac).steps fun k hk => ?_
  simp only [clockPlaces, List.mem_cons, List.not_mem_nil, or_false] at hk
  rcases hk with rfl | rfl
  · exact ⟨R.DCK_TIME, by decide, 0, 0, Nat.zero_le _, Nat.zero_le _, rfl⟩
  · exact ⟨R.DCK_FRAC, by decide, 0, 0, Nat.zero_le _, Nat.zero_le _, rfl⟩

/-! ### What is wanted of a switch -/

theorem clrBit_eq_andNot (n k : Nat) : clrBit n k = andNot n (2 ^ k) := by
  unfold clrBit andNot
  rw [Nat.and_two_pow, bit_eq_testBit]
  cases n.testBit k <;> simp

theorem bit_clrBit_eq (n k j : Nat) : bit (clrBit n k) j = (bit n j && !decide (j = k)) := by
  rw [clrBit_eq_andNot, bit_eq_testBit, testBit_andNot, Nat.testBit_two_pow, bit_eq_testBit]
  simp only [eq_comm]

/-- Channel `c` is to be on: a safe output of a CX7420-SX by the safety core, an ordinary output by its command, its pulse and its
silence. -/
def switchWanted (s : State) (c : Nat) : Bool := if s.isSX && decide (24 ≤ c) then s.soHigh c else s.fioOn c

/-- The fields that decide it. -/
def switchFields : List Fld :=
  [R.HIF_ID_VARIANT, R.SAF_SO_STAT_HS, R.FIO_CFG_DIR, R.FIO_CFG_SAFE, H.FIO_LIVE, H.FIO_CONFD, R.FIO_GRP_STAT_UV,
   R.FIO_GRP_STAT_OC, R.FIO_CSTAT_UVOFF, R.FIO_CSTAT_TSD, R.FIO_CSTAT_SILOFF, H.FIO_HOLD, H.FIO_TPX, H.FIO_CMDX,
   R.CMP_CTL_EN, R.CMP_CTL_OUT, R.CMP_CTL_POL, H.CMP_PON]

theorem fioPulse_congr (h : ∀ g ∈ switchFields, ∀ i ≤ g.n - 1, t.get g i = s.get g i) (c : Nat) :
    t.fioPulse c = s.fioPulse c := by
  unfold State.fioPulse State.on
  rw [Bool.eq_iff_iff, List.any_eq_true, List.any_eq_true]
  refine exists_congr fun u => and_congr_right fun hu => ?_
  have hu : u ≤ 31 := Nat.le_of_lt_succ (List.mem_range.1 hu)
  rw [h R.CMP_CTL_EN (by decide) u hu, h R.CMP_CTL_OUT (by decide) u hu, h H.CMP_PON (by decide) u hu,
    h R.CMP_CTL_POL (by decide) u hu]

theorem fioBarred_congr (h : ∀ g ∈ switchFields, ∀ i ≤ g.n - 1, t.get g i = s.get g i) (hc : c < 32) :
    t.fioBarred c = s.fioBarred c := by
  have hi : c ≤ 31 := Nat.le_of_lt_succ hc
  have hg : c / 8 ≤ 3 := by omega
  unfold State.fioBarred State.on
  rw [h H.FIO_LIVE (by decide) 0 (Nat.zero_le _), h H.FIO_CONFD (by decide) 0 (Nat.zero_le _),
    h R.FIO_GRP_STAT_UV (by decide) _ hg, h R.FIO_GRP_STAT_OC (by decide) _ hg, h R.FIO_CSTAT_UVOFF (by decide) _ hi,
    h R.FIO_CSTAT_TSD (by decide) _ hi]

theorem fioOn_congr (h : ∀ g ∈ switchFields, ∀ i ≤ g.n - 1, t.get g i = s.get g i) (hc : c < 32) :
    t.fioOn c = s.fioOn c := by
  have hi : c ≤ 31 := Nat.le_of_lt_succ hc
  unfold State.fioOn State.fioSafe State.on
  rw [fioPulse_congr h, fioBarred_congr h hc, h R.FIO_CFG_DIR (by decide) _ hi, h R.FIO_CSTAT_SILOFF (by decide) _ hi,
    h R.FIO_CFG_SAFE (by decide) _ hi, h H.FIO_HOLD (by decide) 0 (Nat.zero_le _), h H.FIO_TPX (by decide) 0 (Nat.zero_le _),
    h H.FIO_CMDX (by decide) 0 (Nat.zero_le _)]

theorem switchWanted_congr (h : ∀ g ∈ switchFields, ∀ i ≤ g.n - 1, t.get g i = s.get g i) (hc : c < 32) :
    switchWanted t c = switchWanted s c := by
  unfold switchWanted State.isSX State.soHigh State.on
  rw [fioOn_congr h hc, h R.HIF_ID_VARIANT (by decide) 0 (Nat.zero_le _),
    h R.SAF_SO_STAT_HS (by decide) ((c - 24) / 2) (show (c - 24) / 2 ≤ 3 by omega)]

/-- A step that writes none of these fields changes nothing of what is wanted. -/
theorem Steps.switchWanted (h : Steps fs s t) (hf : (switchFields.all fun g => fs.all fun f => f.disjoint g) = true)
    (hc : c < 32) : switchWanted t c = switchWanted s c :=
  switchWanted_congr (fun g hg _ hi => h.get hi (List.all_eq_true.1 hf g hg)) hc

/-! ### The switches follow -/

/-- The places of the outputs that compare units drive, and of the notes on the field outputs. -/
def drivenPlaces : List Nat :=
  [fkey H.TRG_LVL 0 0, fkey H.FIO_SW 0 0, fkey H.FIO_TPD 0 0] ++ (List.range 32).map fun x => fkey H.FIO_CHG x 0

/-- Their fields. -/
def drivenFields : List Fld := [H.TRG_LVL, H.FIO_SW, H.FIO_TPD, H.FIO_CHG]

theorem OnlyRegs.driven (h : OnlyRegs drivenPlaces s t) : Steps drivenFields s t := by
  refine h.steps fun k hk => ?_
  simp only [drivenPlaces, List.cons_append, List.nil_append, List.mem_cons, List.mem_map, List.mem_range] at hk
  rcases hk with rfl | rfl | rfl | ⟨y, hy, rfl⟩
  · exact ⟨H.TRG_LVL, by decide, 0, 0, Nat.zero_le _, Nat.zero_le _, rfl⟩
  · exact ⟨H.FIO_SW, by decide, 0, 0, Nat.zero_le _, Nat.zero_le _, rfl⟩
  · exact ⟨H.FIO_TPD, by decide, 0, 0, Nat.zero_le _, Nat.zero_le _, rfl⟩
  · exact ⟨H.FIO_CHG, by decide, y, 0, Nat.le_of_lt_succ hy, Nat.zero_le _, rfl⟩

/-- One switch follows what is wanted of it. -/
def fioStep (s : State) (c : Nat) : State :=
  let on := switchWanted s c
  let s := s.when (bit (s.get H.FIO_TPX) c && s.fioPulse c) fun s => s.orBit H.FIO_TPD c
  if on == bit (s.get H.FIO_SW) c then s
  else (if on then s.orBit H.FIO_SW c else s.clearBit H.FIO_SW c).put H.FIO_CHG s.now c

theorem fioUpd_eq (s : State) : s.fioUpd = s.each (List.range 32) fioStep := rfl

theorem fioStep_only (hc : c < 32) (s : State) : OnlyRegs drivenPlaces s (fioStep s c) := by
  have hchg : fkey H.FIO_CHG c 0 ∈ drivenPlaces := List.mem_append_right _ (List.mem_map_of_mem (List.mem_range.2 hc))
  have htest : OnlyRegs drivenPlaces s (s.when (bit (s.get H.FIO_TPX) c && s.fioPulse c) fun s => s.orBit H.FIO_TPD c) :=
    OnlyRegs.when ((OnlyRegs.refl _ s).put (by simp [drivenPlaces]) _)
  unfold fioStep
  dsimp only
  split_ifs
  · exact htest
  · exact (htest.put (by simp [drivenPlaces]) _).put hchg _
  · exact (htest.put (by simp [drivenPlaces]) _).put hchg _

/-- The step sets the bit of its own switch and leaves the others. -/
theorem fioStep_bit (s : State) (c : Nat) (hx : x < 32) :
    bit ((fioStep s c).get H.FIO_SW) x = if x = c then switchWanted s c else bit (s.get H.FIO_SW) x := by
  have htest : (s.when (bit (s.get H.FIO_TPX) c && s.fioPulse c) fun s => s.orBit H.FIO_TPD c).get H.FIO_SW =
      s.get H.FIO_SW := State.when_same (fun s => s.get H.FIO_SW) _ _ (State.get_put_ne _ _ (by decide))
  have hchg : ∀ (u : State) (v : Nat), (u.put H.FIO_CHG v c).get H.FIO_SW = u.get H.FIO_SW := fun u v =>
    State.get_put_ne _ _ (by simp only [fkey, H.FIO_CHG, H.FIO_SW]; omega)
  have hself : ∀ (u : State) (v : Nat), bit ((u.put H.FIO_SW v).get H.FIO_SW) x = bit v x := fun u v => by
    rw [State.get_put_self]
    exact bit_mod_two_pow hx
  unfold fioStep
  generalize switchWanted s c = on
  generalize (s.when (bit (s.get H.FIO_TPX) c && s.fioPulse c) fun s => s.orBit H.FIO_TPD c) = u at htest
  dsimp only
  rw [← htest]
  by_cases hsame : on = bit (u.get H.FIO_SW) c
  · rw [if_pos (beq_iff_eq.2 hsame)]
    split_ifs with hxc
    · rw [hxc, hsame]
    · rfl
  · rw [if_neg (mt beq_iff_eq.1 hsame), hchg]
    cases on
    · rw [if_neg Bool.false_ne_true, State.clearBit, hself, bit_clrBit_eq]
      split_ifs with hxc
      · simp [hxc]
      · simp [hxc]
    · rw [if_pos rfl, State.orBit, hself, bit_setBit_eq]
      split_ifs with hxc
      · simp [hxc]
      · simp [hxc]

/-- Every field output is switched as is wanted of it. -/
def Driven (t : State) : Prop := ∀ x < 32, bit (t.get H.FIO_SW) x = switchWanted t x

theorem Driven.of_steps (h : Driven s) (k : Steps fs s t)
    (hf : ((H.FIO_SW :: switchFields).all fun g => fs.all fun f => f.disjoint g) = true) : Driven t := fun x hx => by
  rw [List.all_cons, Bool.and_eq_true] at hf
  rw [k.get (Nat.zero_le _) hf.1, k.switchWanted hf.2 hx]
  exact h x hx

theorem fioUpd_only (s : State) : OnlyRegs drivenPlaces s s.fioUpd :=
  OnlyRegs.each (fun v _ hc => fioStep_only (List.mem_range.1 hc) v) s

theorem fioUpd_driven (s : State) : Driven s.fioUpd := fun x hx => by
  obtain ⟨u, hu, -, hlast⟩ := each_at (l := List.range 32) (f := fioStep) (c := x)
    (P := fun v => switchWanted v x = switchWanted s x) (g := fun v => bit (v.get H.FIO_SW) x) List.nodup_range
    (List.mem_range.2 hx)
    (fun v _ hc hv => ((fioStep_only (List.mem_range.1 hc) v).driven.switchWanted (by rfl) hx).trans hv)
    (fun v y _ hyx => (fioStep_bit v y hx).trans (if_neg hyx.symm)) (s := s) rfl
  rw [(fioUpd_only s).driven.switchWanted (by rfl) hx]
  exact hlast.trans ((fioStep_bit u x hx).trans ((if_pos rfl).trans hu))

theorem cmpOut_only (s : State) : OnlyRegs drivenPlaces s s.cmpOut :=
  OnlyRegs.trans ((OnlyRegs.refl _ s).put (by simp [drivenPlaces]) _) (fioUpd_only _)

theorem cmpOut_driven (s : State) : Driven s.cmpOut := fioUpd_driven _

end Sys2Proof.Claims
end

section
/-! PROOFS. Compare units that cross their position (R195 to R198), the end of their pulses (R197), and the edges, the arming and
the FIFO of capture units (R200 to R203). -/

namespace Sys2Proof.Claims
open Sys2Proof.Machine

-- One proof after another: each thread has a stack of its own, and the text compiled at once is near its memory.
set_option Elab.async false

variable {s t : State} {fs : List Fld} {u c : Nat}

/-! ### A crossing (R196 to R198) -/

/-- The fields that decide whether an armed position is passed. -/
def passFields : List Fld := [R.CMP_CTL_DIR, R.CMP_CTL_MODE, R.CMP_LIST_BASE, R.CMP_POS, R.CMP_INC, H.CMP_K]

theorem Steps.cmpPassed (h : Steps fs s t) (hf : (passFields.all fun g => fs.all fun f => f.disjoint g) = true) (hu : u < 32)
    (p q : Int) : t.cmpPassed u p q = s.cmpPassed u p q := by
  have hget : ∀ g ∈ passFields, u ≤ g.n - 1 → t.get g u = s.get g u := fun g hg hi => h.get hi (List.all_eq_true.1 hf g hg)
  have hi : u ≤ 31 := Nat.le_of_lt_succ hu
  have harmed : t.cmpArmed u = s.cmpArmed u := by
    unfold State.cmpArmed State.geti
    dsimp only
    rw [hget R.CMP_CTL_MODE (by decide) hi, hget R.CMP_LIST_BASE (by decide) hi, hget R.CMP_POS (by decide) hi,
      hget R.CMP_INC (by decide) hi, hget H.CMP_K (by decide) hi, State.load_congr h.mem]
  unfold State.cmpPassed
  rw [harmed, hget R.CMP_CTL_DIR (by decide) hi]

/-- What a crossing does once four firings are told apart from fewer (R196). -/
theorem cmpCross_of_passed {x : Track} {t : Nat} (hen : s.get R.CMP_CTL_EN u ≠ 0) (harm : s.get R.CMP_STAT_ARMED u ≠ 0)
    (hgap : s.get H.CMP_TGAP u < 2) (htr : s.trackAt u t = some x)
    (hpass : s.cmpPassed u (x.posAt ((t : Int) - 2)) (x.posAt ((t : Int) + 2)) = true) :
    s.cmpCross u t = if 4 ≤ x.fired then s.put R.CMP_STAT_MISSED (min 255 (s.get R.CMP_STAT_MISSED u + 1)) u
      else s.cmpFire u t := by
  unfold State.cmpCross
  simp [State.on_eq_true hen, State.on_eq_true harm, hgap, htr, hpass]

/-- The command: the clock moves on, and the crossing is looked at as before. -/
theorem exec_compareFire {x : Track} {t : Nat} (hu : u < 32) (hen : s.get R.CMP_CTL_EN u ≠ 0)
    (harm : s.get R.CMP_STAT_ARMED u ≠ 0) (hgap : s.get H.CMP_TGAP u < 2) (htr : s.trackAt u t = some x)
    (hpass : s.cmpPassed u (x.posAt ((t : Int) - 2)) (x.posAt ((t : Int) + 2)) = true) :
    exec (.compareFire u t) s = .next (if 4 ≤ x.fired then
      (s.clockTo t 0).put R.CMP_STAT_MISSED (min 255 ((s.clockTo t 0).get R.CMP_STAT_MISSED u + 1)) u
      else (s.clockTo t 0).cmpFire u t) := by
  have hclk := clockTo_steps s t 0
  have hi : u ≤ 31 := Nat.le_of_lt_succ hu
  have htracks : (s.clockTo t 0).trackAt u t = s.trackAt u t := by
    unfold State.trackAt
    rw [show (s.clockTo t 0).tracks = s.tracks from (congrArg State.tracks (clockTo_only s t 0).lists :)]
  show execCompareFire u t s = _
  unfold execCompareFire
  rw [if_pos hu, cmpCross_of_passed (x := x) (by rwa [hclk.get hi]) (by rwa [hclk.get hi]) (by rwa [hclk.get hi])
    (htracks.trans htr) (by rwa [hclk.cmpPassed (by rfl) hu])]

/-! ### A firing (R196, R197) -/

/-- The pulse of a unit begins, or is extended. -/
def pulseStarted (s : State) (u t : Nat) : State :=
  let s := s.when (s.on H.CMP_PON u) fun s => s.put R.CMP_FLAGS_OVERLAP 1 u
  (s.put H.CMP_PON 1 u).put H.CMP_TE (t + s.pulseNs u) u

/-- The firing is noted in the unit and in its interval. -/
def firingNoted (s : State) (u t : Nat) : State :=
  let s := (s.put R.CMP_LAST_T t u).incSat R.CMP_STAT_FIRED u
  match s.trackAt u t with
  | some x => { s with tracks := s.tracks.map fun y => if y = x then { y with fired := y.fired + 1 } else y }
  | none => s

/-- The unit moves on to its next position, or is done. -/
def nextPosition (s : State) (u : Nat) : State :=
  let k := s.get H.CMP_K u + 1
  let s := s.put H.CMP_K k u
  if s.cmpOver u k then
    (s.put R.CMP_STAT_ARMED 0 u).when (s.get R.CMP_CTL_MODE u != 0) fun s => (s.put R.CMP_STAT_DONE 1 u).cause 5
  else s

theorem cmpFire_eq (s : State) (u t : Nat) :
    s.cmpFire u t = nextPosition (firingNoted (pulseStarted s u t).cmpOut u t) u := by
  unfold State.cmpFire firingNoted pulseStarted
  dsimp only
  generalize State.incSat (State.put _ R.CMP_LAST_T t u) R.CMP_STAT_FIRED u = v
  cases v.trackAt u t
  · rfl
  · rfl

theorem pulseStarted_steps (hu : u < 32) (s : State) (t : Nat) :
    Steps [R.CMP_FLAGS_OVERLAP, H.CMP_PON, H.CMP_TE] s (pulseStarted s u t) :=
  have hi : u ≤ 31 := Nat.le_of_lt_succ hu
  have hover := (Steps.refl [R.CMP_FLAGS_OVERLAP, H.CMP_PON, H.CMP_TE] s).put (f := R.CMP_FLAGS_OVERLAP) (by decide) hi
    (Nat.zero_le 0) 1
  ((Steps.when (f := fun s => s.put R.CMP_FLAGS_OVERLAP 1 u) (Steps.refl _ s) hover).put (f := H.CMP_PON) (by decide) hi
    (Nat.zero_le 0) 1).put (f := H.CMP_TE) (by decide) hi (Nat.zero_le 0) _

theorem pulseStarted_on (s : State) (u t : Nat) : (pulseStarted s u t).get H.CMP_PON u = 1 :=
  (State.get_put_ne _ _ (by simp only [fkey, H.CMP_TE, H.CMP_PON]; omega)).trans (State.get_put_self ..)

theorem firingNoted_eq (s : State) (u t : Nat) :
    ∃ l, firingNoted s u t = { (s.put R.CMP_LAST_T t u).incSat R.CMP_STAT_FIRED u with tracks := l } := by
  unfold firingNoted
  dsimp only
  split
  · exact ⟨_, rfl⟩
  · exact ⟨s.tracks, rfl⟩

theorem firingNoted_steps (hu : u < 32) (s : State) (t : Nat) :
    Steps [R.CMP_LAST_T, R.CMP_STAT_FIRED] s (firingNoted s u t) := by
  have hi : u ≤ 31 := Nat.le_of_lt_succ hu
  obtain ⟨l, hl⟩ := firingNoted_eq s u t
  rw [hl]
  exact (((Steps.refl _ s).put (f := R.CMP_LAST_T) (by decide) hi (Nat.zero_le 0) t).put (f := R.CMP_STAT_FIRED) (by decide)
    hi (Nat.zero_le 0) _).ofLists

theorem firingNoted_values (s : State) (u t : Nat) : (firingNoted s u t).get R.CMP_LAST_T u = t % 2 ^ 64 ∧
    (firingNoted s u t).get R.CMP_STAT_FIRED u = min (s.get R.CMP_STAT_FIRED u + 1) 65535 := by
  have hne : fkey R.CMP_STAT_FIRED u 0 ≠ fkey R.CMP_LAST_T u 0 := by
    simp only [fkey, R.CMP_STAT_FIRED, R.CMP_LAST_T]
    omega
  obtain ⟨l, hl⟩ := firingNoted_eq s u t
  rw [hl]
  refine ⟨(State.get_put_ne _ _ hne).trans (State.get_put_self ..), ?_⟩
  refine (State.get_put_of_lt _ _ _ (Nat.lt_of_le_of_lt (Nat.min_le_right ..) (by decide))).trans ?_
  rw [State.get_put_ne _ _ hne.symm]
  rfl

/-- The fields that the move to the next position writes. -/
def nextPosFields : List Fld := H.CMP_K :: R.CMP_STAT_ARMED :: R.CMP_STAT_DONE :: causeFields

theorem nextPosition_cases (hu : u < 32) (s : State) :
    Steps nextPosFields s (nextPosition s u) ∧ (nextPosition s u).get H.CMP_K u = (s.get H.CMP_K u + 1) % 2 ^ 32 := by
  have hi : u ≤ 31 := Nat.le_of_lt_succ hu
  have hk : (s.put H.CMP_K (s.get H.CMP_K u + 1) u).get H.CMP_K u = (s.get H.CMP_K u + 1) % 2 ^ 32 := State.get_put_self ..
  have hput := (Steps.refl nextPosFields s).put (f := H.CMP_K) (by decide) hi (Nat.zero_le 0) (s.get H.CMP_K u + 1)
  have hdone : ∀ {fs : List Fld} {v w : State} {b : Bool}, nextPosFields.tail ⊆ fs → Steps fs v w → Steps fs v
      ((w.put R.CMP_STAT_ARMED 0 u).when b fun s => (s.put R.CMP_STAT_DONE 1 u).cause 5) := fun hf h =>
    have harm := h.put (f := R.CMP_STAT_ARMED) (hf (by decide)) hi (Nat.zero_le 0) 0
    harm.when ((harm.put (f := R.CMP_STAT_DONE) (hf (by decide)) hi (Nat.zero_le 0) 1).cause
      (fun _ hm => hf (List.mem_cons_of_mem _ (List.mem_cons_of_mem _ hm))) 5)
  unfold nextPosition
  dsimp only
  split
  · exact ⟨hdone (List.tail_subset _) hput, ((hdone (List.Subset.refl _) (Steps.refl _ _)).get hi).trans hk⟩
  · exact ⟨hput, hk⟩

/-- A unit fires (R196, R197). -/
theorem cmpFire_values (hu : u < 32) (s : State) (t : Nat) : (s.cmpFire u t).get R.CMP_LAST_T u = t % 2 ^ 64 ∧
    (s.cmpFire u t).get R.CMP_STAT_FIRED u = min (s.get R.CMP_STAT_FIRED u + 1) 65535 ∧
    (s.cmpFire u t).get H.CMP_PON u = 1 ∧ (s.cmpFire u t).get H.CMP_K u = (s.get H.CMP_K u + 1) % 2 ^ 32 ∧
    Driven (s.cmpFire u t) ∧ (s.cmpFire u t).mem = s.mem := by
  have hi : u ≤ 31 := Nat.le_of_lt_succ hu
  have hpulse := pulseStarted_steps hu s t
  have hon := pulseStarted_on s u t
  have hout := (cmpOut_only (pulseStarted s u t)).driven
  have hdriven := cmpOut_driven (pulseStarted s u t)
  rw [cmpFire_eq]
  generalize pulseStarted s u t = p at hpulse hon hout hdriven
  have hnote := firingNoted_steps hu p.cmpOut t
  obtain ⟨hlast, hfired⟩ := firingNoted_values p.cmpOut u t
  generalize firingNoted p.cmpOut u t = n at hnote hlast hfired
  obtain ⟨hnext, hk⟩ := nextPosition_cases hu n
  refine ⟨(hnext.get hi).trans hlast, ?_, ?_, ?_, ?_, hnext.mem.trans (hnote.mem.trans (hout.mem.trans hpulse.mem))⟩
  · rw [hnext.get hi, hfired, hout.get hi, hpulse.get hi]
  · rw [hnext.get hi, hnote.get hi, hout.get hi, hon]
  · rw [hk, hnote.get hi, hout.get hi, hpulse.get hi]
  · exact (hdriven.of_steps hnote (by rfl)).of_steps hnext (by rfl)

/-- A crossing with fewer than four firings in its interval fires. -/
theorem compareFire_fires {x : Track} {t₀ : Nat} (hu : u < 32) (hen : s.get R.CMP_CTL_EN u ≠ 0)
    (harm : s.get R.CMP_STAT_ARMED u ≠ 0) (hgap : s.get H.CMP_TGAP u < 2) (htr : s.trackAt u t₀ = some x)
    (hpass : s.cmpPassed u (x.posAt ((t₀ : Int) - 2)) (x.posAt ((t₀ : Int) + 2)) = true) (hfew : x.fired < 4) :
    Completes (.compareFire u t₀) s fun t => t.get R.CMP_LAST_T u = t₀ % 2 ^ 64 ∧
      t.get R.CMP_STAT_FIRED u = min (s.get R.CMP_STAT_FIRED u + 1) 65535 ∧ t.get H.CMP_PON u = 1 ∧
      t.get H.CMP_K u = (s.get H.CMP_K u + 1) % 2 ^ 32 ∧ Driven t ∧ t.mem = s.mem := by
  have hi : u ≤ 31 := Nat.le_of_lt_succ hu
  have hclk := clockTo_steps s t₀ 0
  obtain ⟨hlast, hfired, hon, hk, hdriven, hmem⟩ := cmpFire_values hu (s.clockTo t₀ 0) t₀
  rw [hclk.get hi] at hfired hk
  exact ⟨_, (exec_compareFire hu hen harm hgap htr hpass).trans (congrArg _ (if_neg (Nat.not_le.2 hfew))),
    hlast, hfired, hon, hk, hdriven, hmem.trans hclk.mem⟩

/-- One after four firings in its interval is missed. -/
theorem compareFire_misses {x : Track} {t₀ : Nat} (hu : u < 32) (hen : s.get R.CMP_CTL_EN u ≠ 0)
    (harm : s.get R.CMP_STAT_ARMED u ≠ 0) (hgap : s.get H.CMP_TGAP u < 2) (htr : s.trackAt u t₀ = some x)
    (hpass : s.cmpPassed u (x.posAt ((t₀ : Int) - 2)) (x.posAt ((t₀ : Int) + 2)) = true) (hmany : 4 ≤ x.fired) :
    Completes (.compareFire u t₀) s fun t => t.get R.CMP_STAT_MISSED u = min 255 (s.get R.CMP_STAT_MISSED u + 1) ∧
      OnlyRegs (fkey R.CMP_STAT_MISSED u 0 :: clockPlaces) s t := by
  refine ⟨_, (exec_compareFire hu hen harm hgap htr hpass).trans (congrArg _ (if_pos hmany)), ?_, ?_⟩
  · rw [(clockTo_steps s t₀ 0).get (Nat.le_of_lt_succ hu)]
    exact State.get_put_of_lt _ _ _ (Nat.lt_of_le_of_lt (Nat.min_le_left ..) (by decide))
  · exact ((clockTo_only s t₀ 0).mono fun _ hk => List.mem_cons_of_mem _ hk).put (List.mem_cons_self ..) _

/-- A pulse has lasted its width (R197). -/
theorem comparePulseEnd_ends (hu : u < 32) (hon : s.get H.CMP_PON u ≠ 0) (hup : s.timeUp (s.get H.CMP_TE u) = true) :
    Completes (.comparePulseEnd u) s fun t => t.get H.CMP_PON u = 0 ∧ Driven t ∧
      OnlyRegs (fkey H.CMP_PON u 0 :: drivenPlaces ++ clockPlaces) s t := by
  have hexec : exec (.comparePulseEnd u) s = .next (((s.clockTo (s.get H.CMP_TE u) 0).put H.CMP_PON 0 u).cmpOut) := by
    show execComparePulseEnd u s = _
    unfold execComparePulseEnd
    rw [if_pos ⟨hu, State.on_eq_true hon, hup⟩]
  refine ⟨_, hexec, ?_, cmpOut_driven _, ?_⟩
  · rw [(cmpOut_only _).driven.get (Nat.le_of_lt_succ hu), State.get_put_self]
    rfl
  · have hclk := (clockTo_only s (s.get H.CMP_TE u) 0).mono (ks' := fkey H.CMP_PON u 0 :: drivenPlaces ++ clockPlaces)
      fun _ hk => List.mem_append_right _ hk
    exact (hclk.put (List.mem_cons_self ..) 0).trans ((cmpOut_only _).mono fun _ hk =>
      List.mem_append_left _ (List.mem_cons_of_mem _ hk))

/-! ### Edges (R200 to R202) -/

/-- The clock does not decide whether a unit takes an edge. -/
theorem capTakes_clockTo (hc : c < 32) (s : State) (t₀ frac t : Nat) (rising : Bool) :
    (s.clockTo t₀ frac).capTakes c t rising = s.capTakes c t rising := by
  have h := clockTo_steps s t₀ frac
  have hi : c ≤ 31 := Nat.le_of_lt_succ hc
  unfold State.capTakes State.on
  rw [h.get (g := R.CMP_CAP_CTL_EN) hi, h.get (g := R.CMP_CAP_CTL_EDGE) hi, h.get (g := R.CMP_CAP_STAT_ARMED) hi,
    h.get (g := H.CAP_DIS) hi]

/-- An edge that the unit takes: it waits where there is room, and is lost where there is none. -/
theorem exec_captureEdge {t₀ frac : Nat} {rising : Bool} (hc : c < 32) (hsrc : s.get R.CMP_CAP_CTL_SRC c ≠ 0x3F)
    (hdir : s.get R.CMP_CAP_CTL_SRC c < 16 → bit (s.get R.CMP_TRG_DIR) (s.get R.CMP_CAP_CTL_SRC c) = false)
    (htakes : s.capTakes c t₀ rising = true) : exec (.captureEdge c t₀ frac rising) s = .next (
      if 16 ≤ (s.capsOf c).length + (s.edges.filter fun x => x.unit == c).length then (s.clockTo t₀ frac).capLost c
      else ({ s.clockTo t₀ frac with edges := s.edges ++ [{ unit := c, t := t₀, frac := frac, rising := rising }] } :
        State).when ((s.clockTo t₀ frac).get R.CMP_CAP_CTL_MODE c == 0) fun s =>
          (s.put R.CMP_CAP_STAT_ARMED 0 c).put H.CAP_DIS 0 c) := by
  have hedges : (s.clockTo t₀ frac).edges = s.edges := (congrArg State.edges (clockTo_only s t₀ frac).lists :)
  have hcaps : (s.clockTo t₀ frac).capsOf c = s.capsOf c := by
    unfold State.capsOf
    rw [show (s.clockTo t₀ frac).caps = s.caps from (congrArg State.caps (clockTo_only s t₀ frac).lists :)]
  have hguard : ¬ (32 ≤ c ∨ s.get R.CMP_CAP_CTL_SRC c = 0x3F ∨
      (s.get R.CMP_CAP_CTL_SRC c < 16 ∧ bit (s.get R.CMP_TRG_DIR) (s.get R.CMP_CAP_CTL_SRC c) = true)) := by
    rintro (h | h | ⟨h, hb⟩)
    · omega
    · exact hsrc h
    · rw [hdir h] at hb
      exact Bool.false_ne_true hb
  show execCaptureEdge c t₀ frac rising s = _
  unfold execCaptureEdge
  dsimp only
  rw [if_neg hguard]
  unfold State.capEdge
  rw [capTakes_clockTo hc, htakes, if_neg (by decide), hedges, hcaps]
  rfl

/-- The places that the disarming of a unit in single mode writes, and the clock. -/
def edgePlaces (c : Nat) : List Nat := fkey R.CMP_CAP_STAT_ARMED c 0 :: fkey H.CAP_DIS c 0 :: clockPlaces

theorem captureEdge_waits {t₀ frac : Nat} {rising : Bool} (hc : c < 32) (hsrc : s.get R.CMP_CAP_CTL_SRC c ≠ 0x3F)
    (hdir : s.get R.CMP_CAP_CTL_SRC c < 16 → bit (s.get R.CMP_TRG_DIR) (s.get R.CMP_CAP_CTL_SRC c) = false)
    (htakes : s.capTakes c t₀ rising = true)
    (hroom : (s.capsOf c).length + (s.edges.filter fun x => x.unit == c).length < 16) :
    Completes (.captureEdge c t₀ frac rising) s fun t =>
      t.edges = s.edges ++ [{ unit := c, t := t₀, frac := frac, rising := rising }] ∧
      RegsKept (edgePlaces c) s t ∧ t.caps = s.caps := by
  have hclk := (clockTo_only s t₀ frac).mono (ks' := edgePlaces c)
    fun _ hk => List.mem_cons_of_mem _ (List.mem_cons_of_mem _ hk)
  refine ⟨_, (exec_captureEdge hc hsrc hdir htakes).trans (congrArg _ (if_neg (Nat.not_le.2 hroom))), ?_, ?_, ?_⟩
  · exact (State.when_same State.edges _ _ rfl)
  · have hedge := kept_of_regs (u := { s.clockTo t₀ frac with edges := s.edges ++
      [{ unit := c, t := t₀, frac := frac, rising := rising }] }) rfl hclk.regs
    exact kept_when hedge (kept_put (by simp [edgePlaces]) (kept_put (by simp [edgePlaces]) hedge))
  · exact (State.when_same State.caps _ _ rfl).trans (congrArg State.caps hclk.lists :)

theorem captureEdge_isLost {t₀ frac : Nat} {rising : Bool} (hc : c < 32) (hsrc : s.get R.CMP_CAP_CTL_SRC c ≠ 0x3F)
    (hdir : s.get R.CMP_CAP_CTL_SRC c < 16 → bit (s.get R.CMP_TRG_DIR) (s.get R.CMP_CAP_CTL_SRC c) = false)
    (htakes : s.capTakes c t₀ rising = true)
    (hfull : 16 ≤ (s.capsOf c).length + (s.edges.filter fun x => x.unit == c).length) :
    Completes (.captureEdge c t₀ frac rising) s fun t => t.get R.CMP_CAP_FLAGS_OVF c = 1 ∧
      t.get R.CMP_CAP_OVFCNT c = min (s.get R.CMP_CAP_OVFCNT c + 1) (2 ^ 32 - 1) ∧
      OnlyRegs (fkey R.CMP_CAP_FLAGS_OVF c 0 :: fkey R.CMP_CAP_OVFCNT c 0 :: clockPlaces) s t := by
  have hne : fkey R.CMP_CAP_OVFCNT c 0 ≠ fkey R.CMP_CAP_FLAGS_OVF c 0 := by
    simp only [fkey, R.CMP_CAP_OVFCNT, R.CMP_CAP_FLAGS_OVF]
    omega
  have hclk := (clockTo_only s t₀ frac).mono (ks' := fkey R.CMP_CAP_FLAGS_OVF c 0 :: fkey R.CMP_CAP_OVFCNT c 0 :: clockPlaces)
    fun _ hk => List.mem_cons_of_mem _ (List.mem_cons_of_mem _ hk)
  refine ⟨_, (exec_captureEdge hc hsrc hdir htakes).trans (congrArg _ (if_pos hfull)), ?_, ?_,
    (hclk.put (by simp) 1).put (by simp) _⟩
  · exact (State.get_put_ne _ _ hne).trans (State.get_put_self ..)
  · refine (State.get_put_of_lt _ _ _ (Nat.lt_of_le_of_lt (Nat.min_le_right ..) (by decide))).trans ?_
    rw [State.get_put_ne _ _ hne.symm, (clockTo_steps s t₀ frac).get (Nat.le_of_lt_succ hc)]
    rfl

/-! ### Command registers (R28, R203) -/

/-- A write of the host's that reaches its word has its effect. -/
theorem hostWord_of_reached {a : Nat} (h : HostWord s a) (f : State → State) : s.hostWord a f = f s := by
  obtain ⟨hup, hmap, hdom⟩ := h
  unfold State.hostWord
  dsimp only
  rw [hup, hdom, if_neg ?_, if_neg Bool.false_ne_true]
  simp only [Bool.not_true, Bool.false_or, Bool.and_eq_true, beq_iff_eq, Bool.not_eq_true', not_and, Bool.not_eq_false]
  exact hmap

/-- A command that the next boundary takes up is one field noted. -/
theorem noted_at_boundary {i : Instr} {f : Fld} {k v : Nat} (hexec : exec i s = .next (s.put f v k)) (hv : v < 2 ^ f.width) :
    Completes i s fun t => t.get f k = v ∧ OnlyRegs [fkey f k 0] s t :=
  ⟨_, hexec, State.get_put_of_lt _ _ _ hv, (OnlyRegs.refl _ s).put (List.mem_cons_self ..) v⟩

theorem exec_cmpArm (hu : u < 32) (h : HostWord s (R.CMP_ARM.base + R.CMP_ARM.stride * u)) :
    exec (.cmpArm u) s = .next (s.put H.CMP_PEND 1 u) := by
  show execCmpArm u s = _
  unfold execCmpArm
  rw [if_pos hu, hostWord_of_reached h, State.cmpArmW, if_pos hu]

theorem exec_cmpDisarm (hu : u < 32) (h : HostWord s (R.CMP_DISARM.base + R.CMP_DISARM.stride * u)) :
    exec (.cmpDisarm u) s = .next (s.put H.CMP_PEND 2 u) := by
  show execCmpDisarm u s = _
  unfold execCmpDisarm
  rw [if_pos hu, hostWord_of_reached h, State.cmpDisarmW, if_pos hu]

theorem exec_cmpCapArm (hc : c < 32) (h : HostWord s (R.CMP_CAP_ARM.base + R.CMP_CAP_ARM.stride * c)) :
    exec (.cmpCapArm c) s = .next (s.put H.CAP_PEND 1 c) := by
  show execCmpCapArm c s = _
  unfold execCmpCapArm
  rw [if_pos hc, hostWord_of_reached h, State.capArmW, if_pos hc]

/-- The registers of a capture unit show how many entries wait (R203). -/
theorem capView_count (s : State) (c : Nat) : (s.capView c).get R.CMP_CAP_STAT_COUNT c = (s.capsOf c).length % 32 ∧
    (s.capView c).mem = s.mem ∧ (s.capView c).caps = s.caps := by
  have hcount : (s.put R.CMP_CAP_STAT_COUNT (s.capsOf c).length c).get R.CMP_CAP_STAT_COUNT c = (s.capsOf c).length % 32 :=
    State.get_put_self ..
  have hrest : ∀ (w : State) (v1 v2 v3 v4 : Nat), ((((w.put R.CMP_CAP_TS v1 c).put R.CMP_CAP_TSF v2 c).put R.CMP_CAP_EDGE v3
      c).put R.CMP_CAP_POS v4 c).get R.CMP_CAP_STAT_COUNT c = w.get R.CMP_CAP_STAT_COUNT c := fun w v1 v2 v3 v4 => by
    rw [State.get_put_ne, State.get_put_ne, State.get_put_ne, State.get_put_ne]
    all_goals
      simp only [fkey, R.CMP_CAP_STAT_COUNT, R.CMP_CAP_TS, R.CMP_CAP_TSF, R.CMP_CAP_EDGE, R.CMP_CAP_POS]
      omega
  unfold State.capView
  dsimp only
  split
  · exact ⟨(hrest ..).trans hcount, rfl, rfl⟩
  · exact ⟨(hrest ..).trans hcount, rfl, rfl⟩

/-- NEXT takes out the oldest entry. -/
theorem cmpCapNext_drops (hc : c < 32) (h : HostWord s (R.CMP_CAP_NEXT.base + R.CMP_CAP_NEXT.stride * c)) :
    Completes (.cmpCapNext c) s fun t => t.caps = dropCap c s.caps ∧ t.mem = s.mem ∧
      t.get R.CMP_CAP_STAT_COUNT c = ((dropCap c s.caps).filter fun x => x.unit == c).length % 32 := by
  have hexec : exec (.cmpCapNext c) s = .next (({ s with caps := dropCap c s.caps } : State).capView c) := by
    show execCmpCapNext c s = _
    unfold execCmpCapNext
    rw [if_pos hc, hostWord_of_reached h, State.capNextW, if_pos hc]
  obtain ⟨hcount, hmem, hcaps⟩ := capView_count { s with caps := dropCap c s.caps } c
  exact ⟨_, hexec, hcaps, hmem, hcount⟩

end Sys2Proof.Claims
end

section
/-! PROOFS. The requests of compare and capture (R194, R200, R203, R340): configurations wait for the boundary, positions of the list
memory are stored at once; and what compare and capture units do, together. -/

namespace Sys2Proof.Claims
open Sys2Proof.Machine

-- One proof after another: each thread has a stack of its own, and the text compiled at once is near its memory.
set_option Elab.async false

variable {s t : State} {mb : Nat}

/-! ### Words stored (R8) -/

/-- The bytes of a value that they hold give it back. -/
theorem ofBytes_toBytes_of_lt {n v : Nat} (h : v < 256 ^ n) : ofBytes ((toBytes n v).map (· % 256)) = v := by
  induction n generalizing v with
  | zero =>
    rw [Nat.pow_zero, Nat.lt_one_iff] at h
    rw [h]
    rfl
  | succ n ih =>
    rw [toBytes, List.map_cons, ofBytes, ih (Nat.div_lt_of_lt_mul (by rwa [← Nat.pow_succ']))]
    omega

theorem load_store_self {n v : Nat} (h : v < 256 ^ n) (s : State) (a : Nat) : (s.store a n v).load a n = v := by
  have hbytes : (s.store a n v).bytes a n = (toBytes n v).map (· % 256) := by
    refine List.ext_getElem (by simp) fun k hk hk' => ?_
    rw [State.bytes_getElem, List.getElem_map]
    exact State.byte_setBytes_in ..
  rw [State.load, hbytes, ofBytes_toBytes_of_lt h]

theorem load_congr_bytes {a n : Nat} (h : ∀ k < n, t.byte (a + k) = s.byte (a + k)) : t.load a n = s.load a n := by
  unfold State.load State.bytes
  rw [List.map_congr_left fun k hk => h k (List.mem_range.1 hk)]

theorem byte_store_out {a n v b : Nat} (s : State) (h : b < a ∨ a + n ≤ b) : (s.store a n v).byte b = s.byte b :=
  State.byte_setBytes_out _ _ (by rwa [toBytes_length])

/-! ### Configurations (R194, R200) -/

/-- A request that waits leaves the registers. -/
theorem wait_get (s : State) (mb opc key arg : Nat) (f : Fld) (i j : Nat) :
    (s.wait mb opc key arg).get f i j = s.get f i j := rfl

theorem wait_mem (s : State) (mb opc key arg : Nat) : (s.wait mb opc key arg).mem = s.mem := rfl

theorem wait_waits {v : State} (h : v.waits = s.waits) (opc key : Nat) : Waits s (v.wait mb opc key) mb opc key 0 := by
  unfold Waits State.wait
  rw [h]

/-- The words of a compare unit's configuration noted. -/
def cmpWords (s : State) (mb u : Nat) : State :=
  s.each (List.range 8) fun s k => s.put H.CMP_NEWW (s.par mb (4 + 4 * k) 4) u k

theorem cmpWords_lists (s : State) (mb u : Nat) : (cmpWords s mb u).mem = s.mem ∧ (cmpWords s mb u).waits = s.waits := by
  unfold cmpWords
  refine State.each_induction (P := fun t => t.mem = s.mem ∧ t.waits = s.waits) (fun t k _ ht => ?_) ⟨rfl, rfl⟩
  exact ht

theorem cmpWords_get (s : State) (mb u : Nat) {k : Nat} (hk : k < 8) :
    (cmpWords s mb u).get H.CMP_NEWW u k = s.par mb (4 + 4 * k) 4 := by
  obtain ⟨v, hv, -, hlast⟩ := each_at (s := s) (P := fun t => t.mem = s.mem) (g := fun t => t.get H.CMP_NEWW u k)
    (f := fun s k => s.put H.CMP_NEWW (s.par mb (4 + 4 * k) 4) u k) List.nodup_range (List.mem_range.2 hk)
    (fun _ _ _ h => h) (fun _ x _ hx => State.get_put_ne _ _ (by simp only [fkey, H.CMP_NEWW]; omega)) rfl
  refine hlast.trans ?_
  rw [par_congr hv]
  exact State.get_put_of_lt _ _ _ (par_lt ..)

/-- CMP_CONFIG, once its unit and its pin are looked at. -/
theorem exec_cmpConfig (h : Ready s mb 0x0405 36) (hu : s.par mb 0 4 < 32) : exec (.cmpConfig mb) s = .next (
    if bit (s.par mb 4 4) 0 && s.encPin (bits (s.par mb 4 4) 8 6) then s.fail mb 0x0702
    else ((cmpWords s mb (s.par mb 0 4)).put H.CMP_CFGP 1 (s.par mb 0 4)).wait mb 0x0405 (s.par mb 0 4)) := by
  show execCmpConfig mb s = _
  unfold execCmpConfig
  rw [h.request]
  dsimp only
  rw [if_neg (Nat.not_le.2 hu)]
  rfl

/-- A configuration that its pin allows waits for the boundary. -/
theorem cmpConfig_waits (h : Ready s mb 0x0405 36) (hu : s.par mb 0 4 < 32)
    (hpin : (bit (s.par mb 4 4) 0 && s.encPin (bits (s.par mb 4 4) 8 6)) = false) :
    Completes (.cmpConfig mb) s fun t => Waits s t mb 0x0405 (s.par mb 0 4) 0 ∧ t.get H.CMP_CFGP (s.par mb 0 4) = 1 ∧
      t.mem = s.mem ∧ ∀ k < 8, t.get H.CMP_NEWW (s.par mb 0 4) k = s.par mb (4 + 4 * k) 4 := by
  obtain ⟨hmem, hwaits⟩ := cmpWords_lists s mb (s.par mb 0 4)
  refine ⟨_, (exec_cmpConfig h hu).trans (congrArg _ (if_neg (by simp [hpin]))), wait_waits ((State.put_waits ..).trans hwaits) _ _,
    ?_, (wait_mem ..).trans ((State.put_mem ..).trans hmem), fun k hk => ?_⟩
  · rw [wait_get, State.get_put_self]
    rfl
  · rw [wait_get, State.get_put_ne, cmpWords_get s mb _ hk]
    simp only [fkey, H.CMP_CFGP, H.CMP_NEWW]
    omega

/-- One whose pin is an encoder's is refused (R340). -/
theorem cmpConfig_refused (h : Ready s mb 0x0405 36) (hu : s.par mb 0 4 < 32)
    (hpin : (bit (s.par mb 4 4) 0 && s.encPin (bits (s.par mb 4 4) 8 6)) = true) :
    Completes (.cmpConfig mb) s fun t => Answered t mb 3 0x0702 [] ∧ AnswerKeeps [] mb 0 s t :=
  ⟨_, (exec_cmpConfig h hu).trans (congrArg _ (if_pos hpin)), fail_keeps h.jrn h.lt (by decide)⟩

/-- The same of a capture unit's. -/
theorem capConfig_waits (h : Ready s mb 0x0407 8) (hu : s.par mb 0 4 < 32)
    (hpin : (bit (s.par mb 4 4) 0 && s.encPin (bits (s.par mb 4 4) 4 6)) = false) :
    Completes (.capConfig mb) s fun t => Waits s t mb 0x0407 (s.par mb 0 4) 0 ∧ t.get H.CAP_CFGP (s.par mb 0 4) = 1 ∧
      t.get H.CAP_NEWW (s.par mb 0 4) = s.par mb 4 4 ∧
      RegsKept [fkey H.CAP_CFGP (s.par mb 0 4) 0, fkey H.CAP_NEWW (s.par mb 0 4) 0] s t ∧ t.mem = s.mem := by
  have hexec : exec (.capConfig mb) s = .next (((s.put H.CAP_NEWW (s.par mb 4 4) (s.par mb 0 4)).put H.CAP_CFGP 1
      (s.par mb 0 4)).wait mb 0x0407 (s.par mb 0 4)) := by
    show execCapConfig mb s = _
    unfold execCapConfig
    rw [h.request]
    dsimp only
    rw [if_neg (Nat.not_le.2 hu), if_neg (by simp [hpin])]
  refine ⟨_, hexec, wait_waits rfl _ _, ?_, ?_, ?_, rfl⟩
  · rw [wait_get, State.get_put_self]
    rfl
  · rw [wait_get, State.get_put_ne, State.get_put_of_lt _ _ _ (par_lt ..)]
    simp only [fkey, H.CAP_CFGP, H.CAP_NEWW]
    omega
  · have hkept : RegsKept [fkey H.CAP_CFGP (s.par mb 0 4) 0, fkey H.CAP_NEWW (s.par mb 0 4) 0] s
        ((s.put H.CAP_NEWW (s.par mb 4 4) (s.par mb 0 4)).put H.CAP_CFGP 1 (s.par mb 0 4)) :=
      kept_put (by simp) (kept_put (by simp) (kept_refl _ s))
    exact fun f i j hn => (wait_get ..).trans (hkept f i j hn)

/-! ### The list memory (R203) -/

/-- The first `n` positions of a request stored from entry `k` of the list on. -/
def listStored (s : State) (mb k n : Nat) : State :=
  s.each (List.range n) fun s i => s.store (cmpList (k + i)) 8 (s.par mb (8 + 8 * i) 8)

/-- A run of entries `k` to `k + n - 1` lies in one piece. -/
theorem cmpList_of_lt {k n i : Nat} (hk : k + n ≤ 8192) (hi : i < n) : cmpList (k + i) = 0x90000 + 8 * (k + i) := by
  unfold cmpList
  rw [Nat.mod_eq_of_lt (by omega)]

/-- One entry stored among `n` from `k` on. -/
theorem storeEntry_keeps {v : State} {k n i : Nat} (hk : k + n ≤ 8192) (hi : i < n)
    (hv : OnlyRegsBytes [] (0x90000 + 8 * k) (0x90000 + 8 * (k + n)) s v) (w : Nat) :
    OnlyRegsBytes [] (0x90000 + 8 * k) (0x90000 + 8 * (k + n)) s (v.store (cmpList (k + i)) 8 w) := by
  refine ⟨kept_setBytes hv.regs, fun b hb => ?_, (lists_setBytes ..).trans hv.lists⟩
  rw [cmpList_of_lt hk hi, byte_store_out v (by omega)]
  exact hv.bytes b hb

/-- Storing entries leaves the registers, the lists and the bytes outside them. -/
theorem listStored_keeps {k n : Nat} (hk : k + n ≤ 8192) (s : State) : OnlyRegsBytes [] (0x90000 + 8 * k)
    (0x90000 + 8 * (k + n)) s (listStored s mb k n) :=
  State.each_induction (P := OnlyRegsBytes [] (0x90000 + 8 * k) (0x90000 + 8 * (k + n)) s)
    (fun _ _ hi hv => storeEntry_keeps hk (List.mem_range.1 hi) hv _) ⟨kept_refl _ s, fun _ _ => rfl, rfl⟩

/-- The page of a mailbox lies apart from the list memory, so parameters read the same while positions are stored. -/
theorem par_outside_list {k n off len : Nat} (hmb : mb < 32) (hoff : off + len ≤ 0x1000)
    (h : BytesKept (0x90000 + 8 * k) (0x90000 + 8 * (k + n)) s t) : t.par mb off len = s.par mb off len :=
  load_congr_bytes fun j hj => h _ (.inl (by unfold pageOf; omega))

/-- Each position reads back. -/
theorem listStored_load {k n i : Nat} (hmb : mb < 32) (hn : n ≤ 511) (hk : k + n ≤ 8192) (hi : i < n) (s : State) :
    (listStored s mb k n).load (0x90000 + 8 * (k + i)) 8 = s.par mb (8 + 8 * i) 8 := by
  have hother : ∀ (v : State), ∀ x ∈ List.range n, x ≠ i → (v.store (cmpList (k + x)) 8 (v.par mb (8 + 8 * x) 8)).load
      (0x90000 + 8 * (k + i)) 8 = v.load (0x90000 + 8 * (k + i)) 8 := fun v x hx hxi => by
    rw [cmpList_of_lt hk (List.mem_range.1 hx)]
    exact load_congr_bytes fun j hj => byte_store_out v (by omega)
  obtain ⟨v, hv, -, hlast⟩ := each_at (s := s) (P := OnlyRegsBytes [] (0x90000 + 8 * k) (0x90000 + 8 * (k + n)) s)
    (g := fun t => t.load (0x90000 + 8 * (k + i)) 8) (f := fun s i => s.store (cmpList (k + i)) 8 (s.par mb (8 + 8 * i) 8))
    List.nodup_range (List.mem_range.2 hi) (fun _ _ hx hv => storeEntry_keeps hk (List.mem_range.1 hx) hv _) hother
    ⟨kept_refl _ s, fun _ _ => rfl, rfl⟩
  refine hlast.trans ?_
  rw [cmpList_of_lt hk hi, load_store_self (par_lt ..), par_outside_list hmb (by omega) hv.bytes]

/-- CMP_LIST_WRITE stores its positions at once, and is answered. -/
theorem cmpListWrite_stores {n : Nat} (hn : n = clampN 1 511 (s.par mb 4 4)) (h : Ready s mb 0x0406 (8 + 8 * n))
    (hk : s.par mb 0 4 + n ≤ 8192) : Completes (.cmpListWrite mb) s fun t => Answered t mb 2 0 [] ∧
      (∀ i < n, t.load (0x90000 + 8 * (s.par mb 0 4 + i)) 8 = s.par mb (8 + 8 * i) 8) ∧
      BytesKept (0x90000 + 8 * s.par mb 0 4) (0x90000 + 8 * (s.par mb 0 4 + n)) s t ∧
      RegsKept (answerPlaces mb) s t ∧ quiet t = quiet s := by
  have hrange : 1 ≤ n ∧ n ≤ 511 := by
    rw [hn]
    unfold clampN
    split_ifs <;> omega
  generalize hp : s.par mb 0 4 = k at hk
  have hexec : exec (.cmpListWrite mb) s = .next ((listStored s mb k n).done mb) := by
    show execCmpListWrite mb s = _
    unfold execCmpListWrite
    rw [(h.mono (by omega)).request]
    dsimp only
    rw [hp, ← hn, if_neg (by omega), if_neg (Nat.not_lt.2 h.len), Nat.min_eq_left (by omega)]
    rfl
  have hstore := listStored_keeps (mb := mb) hk s
  have hjrn : (listStored s mb k n).get H.MB_JRN mb = 0 := (hstore.regs _ _ _ (by simp)).trans h.jrn
  have hquiet : quiet (listStored s mb k n) = quiet s := (congrArg quiet hstore.lists :)
  obtain ⟨hans, hkeep⟩ := complete_answers (handle := 0) (res := []) hjrn h.lt (by decide : 2 < 8) (by decide : 0 < 65536)
  have hbyte : ∀ b, ((listStored s mb k n).done mb).byte b = (listStored s mb k n).byte b := fun b =>
    hkeep.bytes b (by simp only [List.length_nil]; omega)
  refine ⟨_, hexec, hans, fun i hi => ?_, fun b hb => (hbyte b).trans (hstore.bytes b hb), fun f i j hf => ?_,
    hkeep.quiet.trans hquiet⟩
  · rw [load_congr_bytes fun j _ => hbyte _]
    exact listStored_load h.lt hrange.2 hk hi s
  · exact (hkeep.regs f i j (by simpa using hf)).trans (hstore.regs f i j (by simp))

/-! ### The claim -/

/-- Settles O37: crossings, pulses, edges and command registers act as their lemmas say, and so do the three requests. -/
theorem compareAndCaptureUnits : Obligations.CompareAndCaptureUnits := by
  unfold Obligations.CompareAndCaptureUnits
  refine ⟨fun u c t₀ frac rising x s hu hc => ⟨fun hen harm hgap htr hpass => ⟨fun hfew => ?_, fun hmany => ?_⟩,
    fun hon hup => ?_, fun hsrc hdir htakes => ⟨fun hroom => ?_, fun hfull => ?_⟩, fun hw => ?_, fun hw => ?_, fun hw => ?_,
    fun hw => ?_⟩, fun mb s => ⟨fun h hu => ⟨fun hpin => ?_, fun hpin => ?_⟩, fun h hk => ?_, fun h hu hpin => ?_⟩⟩
  · exact compareFire_fires hu hen harm hgap htr hpass hfew
  · exact compareFire_misses hu hen harm hgap htr hpass hmany
  · exact comparePulseEnd_ends hu hon hup
  · exact captureEdge_waits hc hsrc hdir htakes hroom
  · exact captureEdge_isLost hc hsrc hdir htakes hfull
  · exact noted_at_boundary (exec_cmpArm hu hw) (by decide)
  · exact noted_at_boundary (exec_cmpDisarm hu hw) (by decide)
  · exact noted_at_boundary (exec_cmpCapArm hc hw) (by decide)
  · exact cmpCapNext_drops hc hw
  · exact cmpConfig_waits h hu hpin
  · exact cmpConfig_refused h hu hpin
  · exact cmpListWrite_stores rfl h hk
  · exact capConfig_waits h hu hpin

end Sys2Proof.Claims
end

section
/-! PROOFS. Three states that refute what is claimed of a peer-delay request (R239), of an acyclic message (R234, R275), and of a safe
sample on a CX7420-NX (R412). -/

namespace Sys2Proof.Claims
open Sys2Proof.Machine

/-- A command has one next state, so what two accounts say of it holds together. -/
theorem Completes.both {i : Instr} {s : State} {P Q : State → Prop} (hp : Completes i s P) (hq : Completes i s Q) :
    ∃ t, P t ∧ Q t := by
  obtain ⟨t, ht, hP⟩ := hp
  obtain ⟨u, hu, hQ⟩ := hq
  obtain rfl : t = u := Host.Outcome.next.inj (ht.symm.trans hu)
  exact ⟨t, hP, hQ⟩

/-! ### A peer-delay request stamped later than 2^64 units of the clock (R16, R239) -/

/-- The response gives T2 whole: 8 bytes of nanoseconds above 2 bytes of fraction. -/
theorem peerDelayRequest_stamp : Completes (.peerDelayRequest 0 0 (2 ^ 64) 0) State.reset fun t =>
    t.get H.PD_RESP 0 1 = 2 ^ 64 := ⟨_, rfl, by decide +kernel⟩

/-- Refutes O38. T2 and T3 are times of 8 bytes in ns and 2 bytes of fraction, 80 bits, and the response keeps them whole; the claim
cuts them to 64 bits, and already a request that comes in 2^48 ns after the clock's start has a T2 of 2^64. -/
theorem not_ringsTimersLinksAndFrames : ¬ Obligations.RingsTimersLinksAndFrames := by
  unfold Obligations.RingsTimersLinksAndFrames
  intro h
  obtain ⟨-, -, -, -, -, hrequest, -⟩ := h.1 0 0 0 0 0 (2 ^ 64) 0 0 false false State.reset (by decide) (by decide) (by decide)
  obtain ⟨t, ⟨-, hcut, -⟩, hwhole⟩ := hrequest.both peerDelayRequest_stamp
  exact absurd (hcut.symm.trans hwhole) (by decide)

/-! ### An acyclic request for a service number out of range (R234, R275) -/

/-- Mailbox 0 holds an ACYC without data to node 5 of Ring A, which the last scan has found, for service 0x10000. -/
def wideService : State :=
  let s := State.reset.setBytes (pageOf 0) (ofWords [0, 5, 0x10000, 0])
  let s := (s.setBytes (scanAt 0 0) [5, 0]).put H.SCAN_N 1
  ((s.put R.MBX_STAT_STATUS 1).put H.MB_OPC 0x0502).put H.MB_LEN 16

theorem wideService_ready : Ready wideService 0 0x0502 16 := by constructor <;> decide +kernel

/-- The request is one of those claimed of. -/
theorem wideService_pars : wideService.par 0 0 4 = 0 ∧ wideService.par 0 4 4 = 5 ∧ wideService.par 0 8 4 = 0x10000 ∧
    min 752 (wideService.par 0 12 4) = 0 ∧ 5 ∈ scanAddrs (wideService.scanList 0) ∧ wideService.acyc = [] := by decide +kernel

/-- The service is held to its greatest value, as every number out of its range is (R275). -/
theorem wideService_sent : Completes (.acyc 0) wideService fun t => t.acyc.map (·.svc) = [65535] := ⟨_, rfl, by decide +kernel⟩

/-- Refutes O40. SERVICE has 16 bits, and a parameter above them is clamped to 65535 (R275); the claim has its low 16 bits. -/
theorem not_ringRequests : ¬ Obligations.RingRequests := by
  unfold Obligations.RingRequests
  intro h
  obtain ⟨hring, hnode, hsvc, hlen, hseen, hnone⟩ := wideService_pars
  obtain ⟨-, -, -, hacyc, -⟩ := h 0 0 0 [] { ring := 0, node := 0, svc := 0, tid := 0, data := [] } wideService (by decide)
    (by decide)
  simp only [hring, hnode, hsvc, hlen] at hacyc
  obtain ⟨t, ⟨-, -, -, hlow⟩, hclamped⟩ :=
    (hacyc wideService_ready (by decide) (by decide) hseen).both wideService_sent
  have hsvcs := congrArg (List.map fun m => m.2.2.1) hlow
  simp only [List.map_map, hnone, List.map_append, Function.comp_def] at hsvcs
  rw [hclamped] at hsvcs
  exact absurd hsvcs (by decide)

/-! ### A safe sample on a CX7420-NX (R412) -/

/-- A CX7420-NX whose domains are up, at the time of safe sample 1, of which path 1 has ended. -/
def sampleOnNx : State :=
  ((((State.reset.put R.PWR_DOM_ON 0xFFF).put R.PWR_DOM_RST 0).put R.HIF_ID_VARIANT 0).put R.DCK_TIME 125000).put H.SAF_J 2

theorem sampleOnNx_due : sampleOnNx.domDown 3 = false ∧ sampleOnNx.get H.SC_HALT = 0 ∧ sampleOnNx.waits = [] ∧
    sampleOnNx.get H.SAF_J = 1 + 1 := by decide +kernel

/-- SAF_SAMPLE stands at its reset value behind the sample. -/
theorem sampleOnNx_after : Completes (.safeSample 1 true) sampleOnNx fun t => t.get R.SAF_SAMPLE = 0 := ⟨_, rfl, by decide +kernel⟩

/-- Refutes O48. On a CX7420-NX the fields of SAF read their reset values (R412), SAF_SAMPLE among them; the claim has every
module show the number of the sample. -/
theorem not_safetyCoreEvaluates : ¬ Obligations.SafetyCoreEvaluates := by
  unfold Obligations.SafetyCoreEvaluates
  intro h
  obtain ⟨hup, hrun, hwaits, hdue⟩ := sampleOnNx_due
  obtain ⟨hsample, -⟩ := h 1 0 0 0 0 0 0 [] sampleOnNx (by decide) (by decide) (by decide) (by decide)
  obtain ⟨t, ⟨hshown, -⟩, hreset⟩ := ((hsample hup hrun hwaits).2 hdue).both sampleOnNx_after
  exact absurd (hshown.symm.trans hreset) (by decide)

end Sys2Proof.Claims
end

section
/-! SUPPORT. What the operations on the nodes of a ring write (R232, R241, R243), and entries of a scan stored (R241). -/

namespace Sys2Proof.Claims
open Sys2Proof.Machine

-- One proof after another: each thread has a stack of its own, and the text compiled at once is near its memory.
set_option Elab.async false

variable {s t : State} {fs : List Fld} {r node : Nat}

/-! ### Flags and queries -/

theorem Steps.nrtFlag (h : Steps fs s t) {f : Fld} (hf : f ∈ fs) (hc : causeFields ⊆ fs) (hr : r ≤ f.n - 1) :
    Steps fs s (t.nrtFlag f r) :=
  have hput := h.put hf hr (Nat.zero_le _) 1
  hput.when (hput.cause hc 7)

/-- The fields that a query to a node writes (R234, R243). -/
def queryFields : List Fld := [H.NODE_IDT, H.ACYC_TID]

theorem nodeAt_le (r node : Nat) : nodeAt r node ≤ 8191 := by unfold nodeAt; omega

theorem nodeAt_of_lt (hr : r < 2) (hn : node < 4096) : nodeAt r node = 4096 * r + node := by unfold nodeAt; omega

theorem Steps.queryNode (h : Steps fs s t) (hf : queryFields ⊆ fs) (hr : r < 2) (node : Nat) :
    Steps fs s (t.queryNode r node) := by
  have hidt := h.put (f := H.NODE_IDT) (hf (by decide)) (nodeAt_le r node) (Nat.zero_le 0) (t.get H.BND_N)
  unfold State.queryNode
  dsimp only
  split_ifs
  · exact hidt
  · exact (hidt.put (f := H.ACYC_TID) (hf (by decide)) (Nat.le_of_lt_succ hr) (Nat.zero_le 0) _).ofLists

theorem queryNode_waits (s : State) (r node : Nat) : (s.queryNode r node).waits = s.waits := by
  unfold State.queryNode
  dsimp only
  split_ifs <;> rfl

/-! ### Nodes lost and seen (R243) -/

/-- The fields that a lost node writes, but for its axes. -/
def nodeGoneFields : List Fld := [H.NODE_ST, H.NODE_SEEN, R.NRT_FLAGS_NODE_LOST] ++ causeFields

/-- The fields that the operations on nodes write. -/
def nodeFields : List Fld := H.AX_ONLINE :: nodeGoneFields ++ queryFields

theorem mem_nodeAxes_lt {a : Nat} (ha : a ∈ s.nodeAxes r node) : a < 256 := axes_lt (List.mem_filter.1 ha).1

theorem Steps.axisLost (h : Steps fs s t) (hf : H.AX_ONLINE ∈ fs) {a : Nat} (ha : a < 256) : Steps fs s (t.axisLost a) := by
  unfold State.axisLost
  split_ifs
  · exact (h.put hf (Nat.le_of_lt_succ ha) (Nat.zero_le _) 0).ofLists
  · exact h

/-- A node lost, but for its axes: its state, and the flag of its ring. -/
def nodeGone (s : State) (r node : Nat) : State :=
  (((s.put H.NODE_ST 3 (nodeAt r node)).put H.NODE_SEEN 0 (nodeAt r node)).queryDrop r node).nrtFlag R.NRT_FLAGS_NODE_LOST r

theorem nodeLost_eq (h0 : s.get H.NODE_ST (nodeAt r node) ≠ 0) (h3 : s.get H.NODE_ST (nodeAt r node) ≠ 3) :
    s.nodeLost r node = (nodeGone s r node).each ((nodeGone s r node).nodeAxes r node) fun s a => s.axisLost a := by
  unfold State.nodeLost
  rw [if_neg (not_or.2 ⟨h0, h3⟩)]
  rfl

theorem Steps.nodeGone (h : Steps fs s t) (hf : nodeGoneFields ⊆ fs) (hr : r < 2) (node : Nat) :
    Steps fs s (nodeGone t r node) :=
  have hst := h.put (f := H.NODE_ST) (hf (by decide)) (nodeAt_le r node) (Nat.zero_le 0) 3
  have hseen := hst.put (f := H.NODE_SEEN) (hf (by decide)) (nodeAt_le r node) (Nat.zero_le 0) 0
  Steps.nrtFlag hseen.ofLists (hf (by decide)) (List.Subset.trans (by decide) hf) (Nat.le_of_lt_succ hr)

theorem Steps.nodeLost (h : Steps fs s t) (hf : nodeFields ⊆ fs) (hr : r < 2) (node : Nat) :
    Steps fs s (t.nodeLost r node) := by
  by_cases hst : t.get H.NODE_ST (nodeAt r node) = 0 ∨ t.get H.NODE_ST (nodeAt r node) = 3
  · unfold State.nodeLost
    rwa [if_pos hst]
  · rw [nodeLost_eq (not_or.1 hst).1 (not_or.1 hst).2]
    exact State.each_induction (fun u a ha hu => hu.axisLost (hf (by decide)) (mem_nodeAxes_lt ha))
      (h.nodeGone (List.Subset.trans (by decide) hf) hr node)

theorem Steps.nodeSeen (h : Steps fs s t) (hf : nodeFields ⊆ fs) (hr : r < 2) (node : Nat) :
    Steps fs s (t.nodeSeen r node) := by
  unfold State.nodeSeen
  dsimp only
  split_ifs
  · exact Steps.queryNode (h.put (f := H.NODE_SEEN) (hf (by decide)) (nodeAt_le r node) (Nat.zero_le 0) 1)
      (List.Subset.trans (by decide) hf) hr node
  · exact h

/-- A completed scan writes no more than the fields of nodes. -/
theorem Steps.scanNodes (h : Steps fs s t) (hf : nodeFields ⊆ fs) (hr : r < 2) (es : List Nat) :
    Steps fs s (t.scanNodes r es) := by
  unfold State.scanNodes
  refine State.each_induction (fun u n _ hu => ?_) (State.each_induction (fun u n _ hu => ?_) h)
  · split_ifs
    · exact hu.put (f := H.NODE_ST) (hf (by decide)) (nodeAt_le r n) (Nat.zero_le 0) 1
    · exact hu.nodeSeen hf hr n
  · split_ifs
    · exact hu.nodeLost hf hr n
    · exact hu

/-! ### What a lost node shows (R243) -/

theorem nodeGone_state (hr : r < 2) (s : State) (node : Nat) : (nodeGone s r node).get H.NODE_ST (nodeAt r node) = 3 := by
  have hk := nodeAt_le r node
  have hseen : Steps [H.NODE_SEEN] (s.put H.NODE_ST 3 (nodeAt r node))
      (((s.put H.NODE_ST 3 (nodeAt r node)).put H.NODE_SEEN 0 (nodeAt r node)).queryDrop r node) :=
    ((Steps.refl _ _).put (f := H.NODE_SEEN) (by decide) hk (Nat.zero_le 0) 0).ofLists
  have hflag : Steps (R.NRT_FLAGS_NODE_LOST :: causeFields)
      (((s.put H.NODE_ST 3 (nodeAt r node)).put H.NODE_SEEN 0 (nodeAt r node)).queryDrop r node) (nodeGone s r node) :=
    (Steps.refl _ _).nrtFlag (by decide) (by decide) (Nat.le_of_lt_succ hr)
  rw [hflag.get hk, hseen.get hk, State.get_put_self]
  rfl

theorem nodeGone_axEvs (s : State) (r node : Nat) : (nodeGone s r node).axEvs = s.axEvs :=
  (State.when_same State.axEvs _ _ (congrArg State.axEvs ((Holds.refl _).cause 7).rest :)).trans rfl

/-- A flag that sets reads 1 (R249). -/
theorem nrtFlag_get {f : Fld} (hr : r ≤ f.n - 1) (hw : f.width = 1) (hf : (causeFields.all fun g => g.disjoint f) = true)
    (s : State) : (s.nrtFlag f r).get f r = 1 := by
  have hput : (s.put f 1 r).get f r = 1 := by rw [State.get_put_self, hw]; rfl
  have hcause : Steps causeFields (s.put f 1 r) ((s.put f 1 r).cause 7) := (Steps.refl _ _).cause (List.Subset.refl _) 7
  exact (State.when_same (fun t => t.get f r) (s.put f 1 r) _ (hcause.get hr hf)).trans hput

/-- The axes bound to a node, found where no record and no binding has changed. -/
theorem Steps.nodeAxes (h : Steps fs s t) (hf : ([R.AXS_STATUS_STATE, H.AX_BIND, H.AX_NODE].all fun g => fs.all fun f =>
    f.disjoint g) = true) (r node : Nat) : t.nodeAxes r node = s.nodeAxes r node := by
  have hget : ∀ g ∈ [R.AXS_STATUS_STATE, H.AX_BIND, H.AX_NODE], ∀ a < 256, t.get g a = s.get g a := fun g hg a ha => by
    refine h.get ?_ (List.all_eq_true.1 hf g hg)
    simp only [List.mem_cons, List.not_mem_nil, or_false] at hg
    rcases hg with rfl | rfl | rfl <;> exact Nat.le_of_lt_succ ha
  have haxes : t.axes = s.axes := List.filter_congr fun a ha => by
    rw [State.axSt, State.axSt, hget R.AXS_STATUS_STATE (by decide) a (List.mem_range.1 ha)]
  unfold State.nodeAxes
  rw [haxes]
  refine List.filter_congr fun a ha => ?_
  rw [hget H.AX_BIND (by decide) a (axes_lt ha), hget H.AX_NODE (by decide) a (axes_lt ha)]

/-- Of distinct axes, those that are online get the event, in their order. -/
theorem each_axisLost_axEvs {l : List Nat} (hl : l.Nodup) (s : State) :
    (s.each l fun s a => s.axisLost a).axEvs =
      s.axEvs ++ (l.filter fun a => s.get H.AX_ONLINE a != 0).map fun a => { axis := a, kind := .nodeLost } := by
  induction l generalizing s with
  | nil => exact (List.append_nil _).symm
  | cons a l ih =>
    obtain ⟨ha, hl'⟩ := List.nodup_cons.1 hl
    rw [State.each_cons, ih hl']
    unfold State.axisLost
    by_cases hon : s.get H.AX_ONLINE a = 0
    · rw [State.on_eq_false hon, if_neg Bool.false_ne_true, List.filter_cons_of_neg (by simp [hon])]
    · have hrest : ∀ b ∈ l, (((s.put H.AX_ONLINE 0 a).post a .nodeLost).get H.AX_ONLINE b != 0) =
          (s.get H.AX_ONLINE b != 0) := fun b hb => by
        have hne : a ≠ b := fun he => ha (he ▸ hb)
        have hput : (s.put H.AX_ONLINE 0 a).get H.AX_ONLINE b = s.get H.AX_ONLINE b :=
          State.get_put_ne _ _ (by simp only [fkey, H.AX_ONLINE]; omega)
        exact congrArg (· != 0) hput
      rw [State.on_eq_true hon, if_pos rfl, List.filter_cons_of_pos (by simp [hon]), List.filter_congr hrest]
      exact List.append_assoc s.axEvs [_] _

/-! ### Entries of a scan stored (R241) -/

theorem setBytes_append (s : State) (a : Nat) (l l' : List Nat) :
    s.setBytes a (l ++ l') = (s.setBytes a l).setBytes (a + l.length) l' := by
  induction l generalizing s a with
  | nil => rfl
  | cons b l ih =>
    rw [List.cons_append, State.setBytes, ih, List.length_cons, Nat.add_assoc, Nat.add_comm 1]
    rfl

theorem toBytes_mod (n v : Nat) : toBytes n (v % 256 ^ n) = toBytes n v := by
  induction n generalizing v with
  | zero => rfl
  | succ n ih =>
    rw [toBytes, toBytes, Nat.mod_mod_of_dvd _ (Dvd.intro_left (256 ^ n) (Nat.pow_succ ..).symm), Nat.pow_succ',
      Nat.mod_mul_right_div_self, ih]

/-- Values of `n` bytes stored one behind the other read back. -/
theorem load_setBytes_flatMap {n i : Nat} {l : List Nat} (hi : i < l.length) (s : State) (a : Nat) :
    (s.setBytes a (l.flatMap (toBytes n))).load (a + n * i) n = l[i] % 256 ^ n := by
  induction l generalizing s a i with
  | nil => exact absurd hi (Nat.not_lt_zero i)
  | cons v l ih =>
    rw [List.flatMap_cons, setBytes_append, toBytes_length]
    cases i with
    | zero =>
      rw [load_congr_bytes fun k hk => State.byte_setBytes_out _ _ (.inl (by omega)), ← toBytes_mod]
      exact load_store_self (Nat.mod_lt _ (Nat.pow_pos (by decide))) s a
    | succ i =>
      rw [show a + n * (i + 1) = a + n + n * i by ring]
      exact ih (Nat.lt_of_succ_lt_succ hi) _ _

end Sys2Proof.Claims
end

section
/-! PROOFS. A ring is scanned, measured and started, and a node of it is lost (R228, R230, R240 to R243). -/

namespace Sys2Proof.Claims
open Sys2Proof.Machine

-- One proof after another: each thread has a stack of its own, and the text compiled at once is near its memory.
set_option Elab.async false

variable {s t : State} {fs : List Fld} {r hops acc maxrx node : Nat} {entries : List Nat}

/-! ### Scans (R241) -/

/-- A scan stored: its number of entries, that there is one, and HOPS. -/
theorem scanPut_eq (s : State) (r hops : Nat) (es : List Nat) : s.scanPut r hops es =
    (((s.setBytes (scanAt r 0) ((es.take 4096).flatMap (toBytes 2))).put H.SCAN_N (min 4096 es.length) r).put H.SCAN_HAVE 1
      r).put H.SCAN_HOPS hops r := rfl

theorem scanPut_writesIn (hr : r < 2) (s : State) (hops : Nat) (es : List Nat) :
    WritesIn [H.SCAN_N, H.SCAN_HAVE, H.SCAN_HOPS] s (s.scanPut r hops es) := by
  have hi : r ≤ 1 := Nat.le_of_lt_succ hr
  rw [scanPut_eq]
  have hbytes : WritesIn [H.SCAN_N, H.SCAN_HAVE, H.SCAN_HOPS] s (s.setBytes (scanAt r 0) ((es.take 4096).flatMap (toBytes 2))) :=
    fun g i j _ _ _ => State.setBytes_get ..
  exact ((hbytes.put (f := H.SCAN_N) (by decide) hi (Nat.zero_le 0) _).put (f := H.SCAN_HAVE) (by decide) hi (Nat.zero_le 0)
    1).put (f := H.SCAN_HOPS) (by decide) hi (Nat.zero_le 0) hops

theorem scanPut_count (s : State) (r hops : Nat) (es : List Nat) :
    (s.scanPut r hops es).get H.SCAN_N r = min 4096 es.length ∧ (s.scanPut r hops es).get H.SCAN_HAVE r = 1 := by
  rw [scanPut_eq]
  constructor
  · rw [State.get_put_ne, State.get_put_ne, State.get_put_of_lt _ _ _ (Nat.lt_of_le_of_lt (Nat.min_le_left ..) (by decide))] <;>
      simp only [fkey, H.SCAN_N, H.SCAN_HAVE, H.SCAN_HOPS] <;> omega
  · rw [State.get_put_ne _ _ (by simp only [fkey, H.SCAN_HAVE, H.SCAN_HOPS]; omega), State.get_put_self]
    rfl

/-- The entries stored read back. -/
theorem scanPut_scanList (s : State) (r hops : Nat) (es : List Nat) :
    (s.scanPut r hops es).scanList r = (es.take 4096).map (· % 65536) := by
  refine List.ext_getElem ?_ fun i hi hi' => ?_
  · rw [State.scanList, List.length_map, List.length_range, (scanPut_count s r hops es).1, List.length_map,
      List.length_take]
  · rw [List.length_map] at hi'
    simp only [State.scanList, List.getElem_map, List.getElem_range]
    exact load_setBytes_flatMap hi' s (scanAt r 0)

/-- Before the ring is measured, a scan that is not the same as the one before is kept, and the scan goes on. -/
theorem exec_scanFrameReturn_first (hr : r < 2) (hst : s.get R.NRT_RSTATE_STATE r = 2) (hno : s.get H.SCAN_HAVE r = 0) :
    exec (.scanFrameReturn r hops entries) s = .next (s.scanPut r hops entries) := by
  show execScanFrameReturn r hops entries s = _
  unfold execScanFrameReturn
  simp only [State.on_eq_false hno, hst]
  rw [if_neg (by omega)]
  rfl

/-- A first scan is kept. -/
theorem scanFrameReturn_kept (hr : r < 2) (hst : s.get R.NRT_RSTATE_STATE r = 2) (hno : s.get H.SCAN_HAVE r = 0) :
    Completes (.scanFrameReturn r hops entries) s fun t => t.get H.SCAN_HAVE r = 1 ∧
      t.scanList r = (entries.take 4096).map (· % 65536) ∧ t.get R.NRT_RSTATE_STATE r = 2 ∧ t.axEvs = s.axEvs := by
  refine ⟨_, exec_scanFrameReturn_first hr hst hno, (scanPut_count ..).2, scanPut_scanList .., ?_, ?_⟩
  · exact (scanPut_writesIn hr s hops entries _ _ _ (by rfl) (Nat.le_of_lt_succ hr) (Nat.zero_le 0)).trans hst
  · exact (congrArg State.axEvs (lists_setBytes s (scanAt r 0) ((entries.take 4096).flatMap (toBytes 2))) :)

/-- What the end of step 2 shows: the nodes and HOPS, the nodes found and lost, and step 3. -/
def scanEnded (s : State) (r hops : Nat) (es : List Nat) : State :=
  ((((s.scanPut r hops es).put R.NRT_TOPO_NODES es.length r).put R.NRT_TOPO_HOPS hops r).scanNodes r es).put
    R.NRT_RSTATE_STATE 3 r

theorem exec_scanFrameReturn_same (hr : r < 2) (hst : s.get R.NRT_RSTATE_STATE r = 2) (hhave : s.get H.SCAN_HAVE r ≠ 0)
    (hsame : s.scanList r = entries.take 4096) (hhops : s.get H.SCAN_HOPS r = hops) (hlen : entries.length ≤ 4064)
    (hdiff : (scanAddrs entries).eraseDups.length = entries.length) :
    exec (.scanFrameReturn r hops entries) s = .next (scanEnded s r hops entries) := by
  show execScanFrameReturn r hops entries s = _
  unfold execScanFrameReturn scanEnded
  simp only [State.on_eq_true hhave, hst, hsame, hhops, BEq.rfl, Bool.and_self]
  rw [if_neg (by omega), if_neg (by simp), if_neg (by omega), if_neg fun h => h.2 hdiff]
  rfl

/-- A second scan that is the same ends the scan. -/
theorem scanFrameReturn_ends (hr : r < 2) (hst : s.get R.NRT_RSTATE_STATE r = 2) (hhave : s.get H.SCAN_HAVE r ≠ 0)
    (hsame : s.scanList r = entries.take 4096) (hhops : s.get H.SCAN_HOPS r = hops) (hlen : entries.length ≤ 4064)
    (hdiff : (scanAddrs entries).eraseDups.length = entries.length) :
    Completes (.scanFrameReturn r hops entries) s fun t => t.get R.NRT_RSTATE_STATE r = 3 ∧
      t.get R.NRT_TOPO_NODES r = entries.length ∧ t.get R.NRT_TOPO_HOPS r = hops % 2 ^ 12 := by
  have hi : r ≤ 1 := Nat.le_of_lt_succ hr
  refine ⟨_, exec_scanFrameReturn_same hr hst hhave hsame hhops hlen hdiff, State.get_put_self .., ?_⟩
  unfold scanEnded
  generalize s.scanPut r hops entries = u
  have hrest : Steps (R.NRT_RSTATE_STATE :: nodeFields) ((u.put R.NRT_TOPO_NODES entries.length r).put R.NRT_TOPO_HOPS hops r)
      ((((u.put R.NRT_TOPO_NODES entries.length r).put R.NRT_TOPO_HOPS hops r).scanNodes r entries).put R.NRT_RSTATE_STATE 3 r) :=
    Steps.put (f := R.NRT_RSTATE_STATE) ((Steps.refl _ _).scanNodes (List.subset_cons_self ..) hr entries) (by decide) hi
      (Nat.zero_le 0) 3
  rw [hrest.get hi, hrest.get hi]
  constructor
  · rw [State.get_put_ne _ _ (by simp only [fkey, R.NRT_TOPO_NODES, R.NRT_TOPO_HOPS]; omega)]
    exact State.get_put_of_lt _ _ _ (Nat.lt_of_le_of_lt hlen (by decide))
  · exact State.get_put_self ..

/-! ### Probes (R239, R240) -/

/-- What a frame's wire time depends on stands as it was. -/
theorem Steps.framePs (h : Steps fs s t) (hf : ([R.NRT_RCFG2_NSLOT, R.NRT_RCFG_SSIZE, R.NRT_RCFG2_NZHV, R.NRT_RCFG2_NCOMMA,
    R.NRT_RCFG_MODE].all fun g => fs.all fun f => f.disjoint g) = true) (hr : r < 2) : t.framePs r = s.framePs r := by
  have hi : r ≤ 1 := Nat.le_of_lt_succ hr
  have hd := List.all_eq_true.1 hf
  unfold State.framePs State.payload State.bytePs State.slotSize
  rw [h.get (g := R.NRT_RCFG2_NSLOT) hi (hd _ (by decide)), h.get (g := R.NRT_RCFG_SSIZE) hi (hd _ (by decide)),
    h.get (g := R.NRT_RCFG2_NZHV) hi (hd _ (by decide)), h.get (g := R.NRT_RCFG2_NCOMMA) hi (hd _ (by decide)),
    h.get (g := R.NRT_RCFG_MODE) hi (hd _ (by decide))]

/-- The fields that a forward measurement sets (R34, R240). -/
def latencyFields : List Fld := [H.NRT_ACC, R.NRT_R_PS, R.NRT_F_PS, R.NRT_L_PS, R.NRT_G_PS]

theorem setR_steps (hr : r < 2) (s : State) (acc : Nat) : Steps latencyFields s (s.setR r acc) := by
  have hi : r ≤ 1 := Nat.le_of_lt_succ hr
  exact (((((Steps.refl _ s).put (f := H.NRT_ACC) (by decide) hi (Nat.zero_le 0) _).put (f := R.NRT_R_PS) (by decide) hi
    (Nat.zero_le 0) _).put (f := R.NRT_F_PS) (by decide) hi (Nat.zero_le 0) _).put (f := R.NRT_L_PS) (by decide) hi
    (Nat.zero_le 0) _).put (f := R.NRT_G_PS) (by decide) hi (Nat.zero_le 0) _

theorem setR_values (hr : r < 2) (s : State) (acc : Nat) :
    (s.setR r acc).get R.NRT_R_PS r = acc % 2 ^ 32 ∧ (s.setR r acc).get R.NRT_L_PS r = (acc + s.framePs r) % 2 ^ 32 := by
  have hi : r ≤ 1 := Nat.le_of_lt_succ hr
  unfold State.setR
  dsimp only
  constructor
  · rw [State.get_put_ne, State.get_put_ne, State.get_put_ne, State.get_put_self]
    · rfl
    all_goals simp only [fkey, R.NRT_R_PS, R.NRT_F_PS, R.NRT_L_PS, R.NRT_G_PS]; omega
  · rw [State.get_put_ne _ _ (by simp only [fkey, R.NRT_L_PS, R.NRT_G_PS]; omega), State.get_put_self]
    have hframe : ∀ v w : Nat, (((s.put H.NRT_ACC acc r).put R.NRT_R_PS v r).put R.NRT_F_PS w r).framePs r = s.framePs r :=
      fun v w => Steps.framePs (fs := latencyFields) ((((Steps.refl _ s).put (f := H.NRT_ACC) (by decide) hi (Nat.zero_le 0)
        _).put (f := R.NRT_R_PS) (by decide) hi (Nat.zero_le 0) _).put (f := R.NRT_F_PS) (by decide) hi (Nat.zero_le 0) _)
        (by rfl) hr
    rw [hframe]
    rfl

/-- The receipt time of a probe stored, and that this direction is measured (R228, R241). -/
def probeStored (s : State) (r : Nat) (reverse : Bool) (maxrx : Nat) : State :=
  let s := s.put H.NRT_RX maxrx r (b2n reverse)
  (s.put R.NRT_MAXRX_PS (max (s.get H.NRT_RX r 0) (s.get H.NRT_RX r 1)) r).orBit H.MEAS (b2n reverse) r

theorem probeStored_steps (hr : r < 2) (s : State) (reverse : Bool) (maxrx : Nat) :
    Steps [H.NRT_RX, R.NRT_MAXRX_PS, H.MEAS] s (probeStored s r reverse maxrx) := by
  have hi : r ≤ 1 := Nat.le_of_lt_succ hr
  exact (((Steps.refl _ s).put (f := H.NRT_RX) (by decide) hi (by cases reverse <;> decide) _).put (f := R.NRT_MAXRX_PS)
    (by decide) hi (Nat.zero_le 0) _).put (f := H.MEAS) (by decide) hi (Nat.zero_le 0) _

theorem probeStored_meas (hr : r < 2) (s : State) (reverse : Bool) (maxrx : Nat) :
    (probeStored s r reverse maxrx).get H.MEAS r = setBit (s.get H.MEAS r) (b2n reverse) % 16 := by
  have hrow : b2n reverse ≤ 1 := by cases reverse <;> decide
  unfold probeStored State.orBit
  dsimp only
  rw [State.get_put_self, State.get_put_ne, State.get_put_ne]
  · rfl
  all_goals simp only [fkey, H.NRT_RX, R.NRT_MAXRX_PS, H.MEAS]; omega

/-- The greatest receipt time, behind the probe of the second direction. -/
theorem probeStored_maxrx (hr : r < 2) (hle : s.get H.NRT_RX r 0 ≤ maxrx) (hlt : maxrx < 2 ^ 31) :
    (probeStored s r true maxrx).get R.NRT_MAXRX_PS r = maxrx := by
  have hfirst : (s.put H.NRT_RX maxrx r 1).get H.NRT_RX r 0 = s.get H.NRT_RX r 0 :=
    State.get_put_ne _ _ (by simp only [fkey, H.NRT_RX]; omega)
  have hsecond : (s.put H.NRT_RX maxrx r 1).get H.NRT_RX r 1 = maxrx :=
    State.get_put_of_lt _ _ _ (Nat.lt_of_lt_of_le hlt (by decide))
  unfold probeStored State.orBit
  dsimp only
  rw [show b2n true = 1 from rfl, State.get_put_ne _ _ (by simp only [fkey, R.NRT_MAXRX_PS, H.MEAS]; omega), hfirst, hsecond,
    max_eq_right hle]
  exact State.get_put_of_lt _ _ _ (Nat.lt_of_lt_of_le hlt (by decide))

/-- A probe that comes back in step 3. -/
theorem exec_probeReturn_start {reverse : Bool} (hr : r < 2) (hst : s.get R.NRT_RSTATE_STATE r = 3)
    (hout : bit (s.get H.PRB_OUT r) (b2n reverse) = true) :
    exec (.probeReturn r reverse acc maxrx) s = .next ((probeStored (if reverse then s.clearBit H.PRB_OUT (b2n reverse) r
      else (s.clearBit H.PRB_OUT (b2n reverse) r).setR r acc) r reverse maxrx).ringMeasured r) := by
  show execProbeReturn r reverse acc maxrx s = _
  unfold execProbeReturn
  simp only [hst, hout]
  rw [if_neg (by simp; omega), if_pos trivial]
  rfl

theorem clearBit_out_steps (hr : r < 2) (s : State) (k : Nat) : Steps [H.PRB_OUT] s (s.clearBit H.PRB_OUT k r) :=
  (Steps.refl _ s).put (f := H.PRB_OUT) (by decide) (Nat.le_of_lt_succ hr) (Nat.zero_le 0) _

/-- The measurements are not complete. -/
theorem ringMeasured_of_missing (h : s.get H.MEAS r ≠ 15) : s.ringMeasured r = s := by
  unfold State.ringMeasured
  rw [if_pos (.inr h)]

/-- The first probe gives R and L. -/
theorem probeReturn_measures (hr : r < 2) (hst : s.get R.NRT_RSTATE_STATE r = 3) (hno : s.get H.MEAS r = 0)
    (hout : bit (s.get H.PRB_OUT r) 0 = true) :
    Completes (.probeReturn r false acc maxrx) s fun t => t.get R.NRT_R_PS r = acc % 2 ^ 32 ∧
      t.get R.NRT_L_PS r = (acc + s.framePs r) % 2 ^ 32 ∧ t.get H.MEAS r = 1 ∧ bit (t.get H.PRB_OUT r) 0 = false ∧
      t.get R.NRT_RSTATE_STATE r = 3 ∧ t.mem = s.mem := by
  have hi : r ≤ 1 := Nat.le_of_lt_succ hr
  refine ⟨_, exec_probeReturn_start hr hst hout, ?_⟩
  have hclear := clearBit_out_steps hr s 0
  have hbit : bit ((s.clearBit H.PRB_OUT 0 r).get H.PRB_OUT r) 0 = false := by
    rw [State.clearBit, State.get_put_self, bit_mod_two_pow (by decide), bit_clrBit]
  simp only [Bool.false_eq_true, if_false, show b2n false = 0 from rfl]
  generalize s.clearBit H.PRB_OUT 0 r = c at hclear hbit
  obtain ⟨hR, hL⟩ := setR_values hr c acc
  have hset := setR_steps hr c acc
  generalize c.setR r acc = u at hR hL hset
  have hstored := probeStored_steps hr u false maxrx
  have hmeas : (probeStored u r false maxrx).get H.MEAS r = 1 := by
    rw [probeStored_meas hr, hset.get hi, hclear.get hi, hno]
    rfl
  rw [ringMeasured_of_missing (hmeas.trans_ne (by decide))]
  generalize probeStored u r false maxrx = v at hstored hmeas
  refine ⟨(hstored.get hi).trans hR, (hstored.get hi).trans (hL.trans ?_), hmeas, ?_, ?_,
    hstored.mem.trans (hset.mem.trans hclear.mem)⟩
  · rw [hclear.framePs (by rfl) hr]
  · rwa [hstored.get hi, hset.get hi]
  · rw [hstored.get hi, hset.get hi, hclear.get hi, hst]

/-! ### Cyclic operation begins (R241, R242) -/

/-- What follows the state of a ring that begins cyclic operation: the clock of Ring A starts anew, and the nodes of the scan are
queried. -/
def ringGoes (s : State) (r : Nat) : State :=
  let s := s.when (r == 0) fun s => (((s.put H.DC_FIRST 0).put H.DC_REFT 0).put H.DC_PHASE 0).dckOwn
  let s := s.put H.RING_N0 (s.get H.BND_N + 1) r
  let as := scanAddrs (s.scanList r)
  let s := s.when (r == 0 && s.get R.NRT_RCFG4_REF 0 == 0) fun s => s.put R.NRT_RCFG4_REF (as.headD 0) 0
  s.each as fun s n => s.queryNode r n

/-- The fields that this writes. -/
def ringGoesFields : List Fld := [H.DC_FIRST, H.DC_REFT, H.DC_PHASE, R.DCK_STATE_STATE, R.DCK_STATE_REFSRC, H.DC_GOOD,
  H.DC_STUCK, H.RING_N0, R.NRT_RCFG4_REF] ++ queryFields

theorem ringGoes_steps (hr : r < 2) (s : State) : Steps ringGoesFields s (ringGoes s r) := by
  have hput : ∀ {f : Fld} {t : State}, f ∈ ringGoesFields → Steps ringGoesFields s t → ∀ v,
      Steps ringGoesFields s (t.put f v) := fun hf h v => h.put hf (Nat.zero_le _) (Nat.zero_le _) v
  have hclock := (Steps.refl ringGoesFields s).when (c := r == 0)
    (f := fun s => (((s.put H.DC_FIRST 0).put H.DC_REFT 0).put H.DC_PHASE 0).dckOwn)
    (hput (by decide) (hput (by decide) (hput (by decide) (hput (by decide) (hput (by decide) (hput (by decide)
      (hput (by decide) (Steps.refl _ s) _) _) _) _) _) _) _)
  have hfirst := fun v => hclock.put (f := H.RING_N0) (i := r) (by decide) (Nat.le_of_lt_succ hr) (Nat.zero_le 0) v
  unfold ringGoes
  exact State.each_induction (fun u n _ hu => hu.queryNode (by decide) hr n)
    ((hfirst _).when (hput (by decide) (hfirst _) _))

theorem ringGoes_waits (s : State) (r : Nat) : (ringGoes s r).waits = s.waits := by
  unfold ringGoes
  refine (State.each_induction (P := fun u => u.waits = _) (fun u n _ hu => (queryNode_waits u r n).trans hu) rfl).trans ?_
  exact (State.when_same State.waits _ _ rfl).trans (State.when_same State.waits s _ rfl)

/-- A ring shown in cyclic operation: APPLY, the state, and whether the unit is its head. -/
def ringRuns (s : State) (r ap : Nat) : State :=
  ((s.put R.NRT_APPLY_NS ap r).put R.NRT_RSTATE_STATE 4 r).put R.NRT_RSTATE_HEAD (b2n (!(s.put R.NRT_APPLY_NS ap r).isForwarder)) r

/-- The token of a ring (R229): the controller and the epoch of its head. -/
def ringToken (s : State) (r : Nat) : State :=
  (s.put R.NRT_TOKEN_CID (s.get R.HIF_CID) r).put R.NRT_TOKEN_EPOCH (s.get R.CNJ_EPOCH) r

theorem ringToken_waits (s : State) (r : Nat) : (ringToken s r).waits = s.waits := rfl

theorem ringRuns_waits (s : State) (r ap : Nat) : (ringRuns s r ap).waits = s.waits := rfl

/-- A ring that begins cyclic operation. -/
def ringStarted (s : State) (r ap : Nat) : State := ringToken (ringGoes (ringRuns s r ap) r) r

theorem ringStarted_waits (s : State) (r ap : Nat) : (ringStarted s r ap).waits = s.waits :=
  (ringToken_waits _ r).trans ((ringGoes_waits _ r).trans (ringRuns_waits s r ap))

theorem ringToken_steps (hr : r < 2) (s : State) : Steps [R.NRT_TOKEN_CID, R.NRT_TOKEN_EPOCH] s (ringToken s r) := by
  have hi : r ≤ 1 := Nat.le_of_lt_succ hr
  exact ((Steps.refl _ s).put (f := R.NRT_TOKEN_CID) (by decide) hi (Nat.zero_le 0) _).put (f := R.NRT_TOKEN_EPOCH)
    (by decide) hi (Nat.zero_le 0) _

/-- With every measurement in and every margin kept, the ring runs. -/
theorem ringMeasured_of_margins {ap : Nat} (hr : r < 2) (hst : s.get R.NRT_RSTATE_STATE r = 3) (hmeas : s.get H.MEAS r = 15)
    (hap : applyFor (s.get R.NRT_MAXRX_PS r) = ap) (hlate : s.lateL r = false) (hshort : s.shortG r = false)
    (happly : ap ≤ s.ringCyc r) (hw : s.waits = []) : s.ringMeasured r = ringStarted s r ap := by
  have hi : r ≤ 1 := Nat.le_of_lt_succ hr
  have hput : Steps [R.NRT_APPLY_NS] s (s.put R.NRT_APPLY_NS ap r) :=
    (Steps.refl _ s).put (f := R.NRT_APPLY_NS) (by decide) hi (Nat.zero_le 0) ap
  have hcyc : (s.put R.NRT_APPLY_NS ap r).ringCyc r = s.ringCyc r := by
    unfold State.ringCyc
    rw [hput.get hi]
  have hlate' : (s.put R.NRT_APPLY_NS ap r).lateL r = false := by
    unfold State.lateL State.ceilPs at hlate ⊢
    rwa [hput.get hi, hput.get (g := H.NRT_ACC) hi, hput.framePs (by rfl) hr, hcyc]
  have hshort' : (s.put R.NRT_APPLY_NS ap r).shortG r = false := by
    unfold State.shortG at hshort ⊢
    rwa [hput.get hi]
  have hnow : (ringStarted s r ap).waits = [] := (ringStarted_waits s r ap).trans hw
  unfold State.ringMeasured
  rw [if_neg (by omega), hap]
  dsimp only
  rw [hlate', hshort', hcyc, if_neg Bool.false_ne_true, if_neg Bool.false_ne_true, if_neg (Nat.not_lt.2 happly)]
  exact State.doneAll_of_no_waits hnow 0x0500 r (toBytes 4 0)

/-- The unit's part in its pair does not depend on a ring's APPLY. -/
theorem Steps.isForwarder (h : Steps fs s t) (hf : (fs.all fun f => f.disjoint R.CNJ_STATE_ROLE) = true) :
    t.isForwarder = s.isForwarder := by
  unfold State.isForwarder State.isStandby
  rw [h.get (g := R.CNJ_STATE_ROLE) (i := 0) (Nat.zero_le _) hf]

/-- A ring that runs shows its state, its head, APPLY and the epoch of its token. -/
theorem ringStarted_shows {ap : Nat} (hr : r < 2) (hap : ap < 2 ^ 32) (s : State) :
    (ringStarted s r ap).get R.NRT_RSTATE_STATE r = 4 ∧ (ringStarted s r ap).get R.NRT_RSTATE_HEAD r = b2n (!s.isForwarder) ∧
    (ringStarted s r ap).get R.NRT_APPLY_NS r = ap ∧
    (ringStarted s r ap).get R.NRT_TOKEN_EPOCH r = s.get R.CNJ_EPOCH % 2 ^ 16 ∧ (ringStarted s r ap).mem = s.mem := by
  have hi : r ≤ 1 := Nat.le_of_lt_succ hr
  have happ : Steps [R.NRT_APPLY_NS] s (s.put R.NRT_APPLY_NS ap r) :=
    (Steps.refl _ s).put (f := R.NRT_APPLY_NS) (by decide) hi (Nat.zero_le 0) ap
  have hruns : Steps [R.NRT_APPLY_NS, R.NRT_RSTATE_STATE, R.NRT_RSTATE_HEAD] s (ringRuns s r ap) :=
    ((happ.mono (by decide)).put (f := R.NRT_RSTATE_STATE) (by decide) hi (Nat.zero_le 0) 4).put (f := R.NRT_RSTATE_HEAD)
      (by decide) hi (Nat.zero_le 0) _
  have hstate : (ringRuns s r ap).get R.NRT_RSTATE_STATE r = 4 := by
    unfold ringRuns
    rw [State.get_put_ne _ _ (by simp only [fkey, R.NRT_RSTATE_STATE, R.NRT_RSTATE_HEAD]; omega), State.get_put_self]
    rfl
  have hhead : (ringRuns s r ap).get R.NRT_RSTATE_HEAD r = b2n (!s.isForwarder) := by
    unfold ringRuns
    rw [happ.isForwarder (by rfl)]
    exact State.get_put_of_lt _ _ _ (by cases s.isForwarder <;> decide)
  have happly : (ringRuns s r ap).get R.NRT_APPLY_NS r = ap := by
    unfold ringRuns
    rw [State.get_put_ne, State.get_put_ne, State.get_put_of_lt _ _ _ hap]
    all_goals simp only [fkey, R.NRT_APPLY_NS, R.NRT_RSTATE_STATE, R.NRT_RSTATE_HEAD]; omega
  unfold ringStarted
  generalize ringRuns s r ap = u at hruns hstate hhead happly
  have hgoes := ringGoes_steps hr u
  generalize ringGoes u r = v at hgoes
  have htoken := ringToken_steps hr v
  refine ⟨?_, ?_, ?_, ?_, htoken.mem.trans (hgoes.mem.trans hruns.mem)⟩
  · rw [htoken.get hi, hgoes.get hi, hstate]
  · rw [htoken.get hi, hgoes.get hi, hhead]
  · rw [htoken.get hi, hgoes.get hi, happly]
  · unfold ringToken
    rw [State.get_put_self, hgoes.get (Nat.zero_le _), hruns.get (Nat.zero_le _)]
    rfl

/-- The probe of the second direction, with every margin kept, begins cyclic operation. -/
theorem probeReturn_begins (hr : r < 2) (hst : s.get R.NRT_RSTATE_STATE r = 3) (hmeas : s.get H.MEAS r = 13)
    (hout : bit (s.get H.PRB_OUT r) 1 = true) (hle : s.get H.NRT_RX r 0 ≤ maxrx) (hlt : maxrx < 2 ^ 31)
    (hlate : s.lateL r = false) (hshort : s.shortG r = false) (happly : applyFor maxrx ≤ s.ringCyc r) (hw : s.waits = []) :
    Completes (.probeReturn r true acc maxrx) s fun t => t.get R.NRT_RSTATE_STATE r = 4 ∧
      t.get R.NRT_RSTATE_HEAD r = b2n (!s.isForwarder) ∧ t.get R.NRT_APPLY_NS r = applyFor maxrx ∧
      t.get R.NRT_TOKEN_EPOCH r = s.get R.CNJ_EPOCH % 2 ^ 16 ∧ t.mem = s.mem := by
  have hi : r ≤ 1 := Nat.le_of_lt_succ hr
  have hclear := clearBit_out_steps hr s 1
  have hstored : Steps [H.PRB_OUT, H.NRT_RX, R.NRT_MAXRX_PS, H.MEAS] s (probeStored (s.clearBit H.PRB_OUT 1 r) r true maxrx) :=
    (hclear.mono (by decide)).trans ((probeStored_steps hr _ true maxrx).mono (by decide))
  have hall : (probeStored (s.clearBit H.PRB_OUT 1 r) r true maxrx).get H.MEAS r = 15 := by
    rw [probeStored_meas hr, hclear.get hi, hmeas]
    rfl
  have hmax : (probeStored (s.clearBit H.PRB_OUT 1 r) r true maxrx).get R.NRT_MAXRX_PS r = maxrx :=
    probeStored_maxrx hr (by rwa [hclear.regs H.NRT_RX r 0 (by rfl) hi (Nat.zero_le _)]) hlt
  have hnow : (probeStored (s.clearBit H.PRB_OUT 1 r) r true maxrx).waits = [] := hw
  refine ⟨_, exec_probeReturn_start hr hst hout, ?_⟩
  simp only [if_true, show b2n true = 1 from rfl]
  generalize probeStored (s.clearBit H.PRB_OUT 1 r) r true maxrx = u at hstored hall hmax hnow
  have hcyc : u.ringCyc r = s.ringCyc r := by
    unfold State.ringCyc
    rw [hstored.get hi]
  rw [ringMeasured_of_margins hr ((hstored.get hi).trans hst) hall (congrArg applyFor hmax) ?_ ?_ ?_ hnow]
  rotate_left
  · unfold State.lateL State.ceilPs at hlate ⊢
    rwa [hstored.get hi, hstored.get (g := H.NRT_ACC) hi, hstored.framePs (by rfl) hr, hcyc]
  · unfold State.shortG at hshort ⊢
    rwa [hstored.get hi]
  · rwa [hcyc]
  have hap : applyFor maxrx < 2 ^ 32 := by unfold applyFor; omega
  obtain ⟨hstate, hhead, happ, hepoch, hmem⟩ := ringStarted_shows hr hap u
  rw [hstored.isForwarder (by rfl)] at hhead
  rw [hstored.get (Nat.zero_le _)] at hepoch
  exact ⟨hstate, hhead, happ, hepoch, hmem.trans hstored.mem⟩

/-! ### A node lost (R243) -/

theorem nodeLost_shows (hr : r < 2) (hn : node < 4096) (h0 : s.get H.NODE_ST (4096 * r + node) ≠ 0)
    (h3 : s.get H.NODE_ST (4096 * r + node) ≠ 3) (hsilent : s.nodeSilent r node = true) :
    Completes (.nodeLost r node) s fun t => t.get H.NODE_ST (4096 * r + node) = 3 ∧
      t.get R.NRT_FLAGS_NODE_LOST r = 1 ∧ t.mem = s.mem ∧
      t.axEvs = s.axEvs ++ ((s.nodeAxes r node).filter fun a => s.get H.AX_ONLINE a != 0).map
        (fun a => { axis := a, kind := .nodeLost }) := by
  have hexec : exec (.nodeLost r node) s = .next (s.nodeLost r node) := by
    show execNodeLost r node s = _
    unfold execNodeLost
    rw [if_pos ⟨hr, hn, hsilent⟩]
  rw [← nodeAt_of_lt hr hn] at h0 h3 ⊢
  refine ⟨_, hexec.trans (congrArg _ (nodeLost_eq h0 h3)), ?_⟩
  have hk := nodeAt_le r node
  have hgone : Steps nodeGoneFields s (nodeGone s r node) := (Steps.refl _ s).nodeGone (List.Subset.refl _) hr node
  have hstate := nodeGone_state hr s node
  have hflag : (nodeGone s r node).get R.NRT_FLAGS_NODE_LOST r = 1 := nrtFlag_get (Nat.le_of_lt_succ hr) rfl (by rfl) _
  have hevs := nodeGone_axEvs s r node
  generalize nodeGone s r node = u at hgone hstate hflag hevs
  have haxes : Steps [H.AX_ONLINE] u (u.each (u.nodeAxes r node) fun s a => s.axisLost a) :=
    State.each_induction (fun v a ha hv => hv.axisLost (by decide) (mem_nodeAxes_lt ha)) (Steps.refl _ u)
  refine ⟨(haxes.get hk).trans hstate, (haxes.get (Nat.le_of_lt_succ hr)).trans hflag, haxes.mem.trans hgone.mem, ?_⟩
  have hnodup : (u.nodeAxes r node).Nodup := (axes_nodup u).filter _
  rw [each_axisLost_axEvs hnodup, hevs, hgone.nodeAxes (by rfl)]
  have honline : ∀ a ∈ s.nodeAxes r node, (u.get H.AX_ONLINE a != 0) = (s.get H.AX_ONLINE a != 0) := fun a ha =>
    congrArg (· != 0) (hgone.get (Nat.le_of_lt_succ (mem_nodeAxes_lt ha)))
  rw [List.filter_congr honline]

/-- Settles O39, one frame that comes back after the other: what it writes is apart from the fields that are shown, and the last
measurement with every margin kept leaves `ringMeasured` no refusal. A lost node's axes are distinct, so that each one that is
online posts its event once. -/
theorem ringStartAndNodes : Obligations.RingStartAndNodes := by
  unfold Obligations.RingStartAndNodes
  intro r hops acc maxrx node entries s hr hn
  exact ⟨scanFrameReturn_kept hr, scanFrameReturn_ends hr, probeReturn_measures hr, probeReturn_begins hr, nodeLost_shows hr hn⟩

end Sys2Proof.Claims
end

section
/-! PROOFS. What every request has in common: one that its mailbox does not hold PENDING does nothing (R265), one shorter than its
parameters is answered with LENGTH (R275, R277). -/

namespace Sys2Proof.Claims
open Sys2Proof.Machine

-- One proof after another: each thread has a stack of its own, and the text compiled at once is near its memory.
set_option Elab.async false

/-- Settles O6: every request is one of its mailbox, which acts on a live request alone. -/
theorem requestNotPendingDoesNothing : Obligations.RequestNotPendingDoesNothing := by
  unfold Obligations.RequestNotPendingDoesNothing
  intro i s mb opc n hreq hlive
  obtain ⟨f, n', -, hexec⟩ := exec_request s hreq
  rw [hexec, State.request, hlive]
  rfl

/-- Settles O7: the length is looked at after state and role, and the answer of a request that fails is all that it changes. -/
theorem shortRequestFailsWithLength : Obligations.ShortRequestFailsWithLength := by
  unfold Obligations.ShortRequestFailsWithLength
  intro i s mb opc n hreq hlive hboot hpower hrole hjrn hlen
  obtain ⟨f, n', hn, hexec⟩ := exec_request s hreq
  rw [request_open hlive hboot hpower hrole, if_pos (Nat.lt_of_lt_of_le hlen hn)] at hexec
  exact ⟨_, hexec, fail_keeps hjrn (live_lt hlive) (by decide)⟩

end Sys2Proof.Claims
end

section
/-! PROOFS. Bytes written to the page of a free mailbox, over PCIe and over QSPI (R253, R254, R265). -/

namespace Sys2Proof.Claims
open Sys2Proof.Machine

-- One proof after another: each thread has a stack of its own, and the text compiled at once is near its memory.
set_option Elab.async false

variable {s : State} {i : Ifc} {n a : Nat}

/-- A command that answers a state completes with what holds of that state under another name. -/
theorem completes_of_eq {c : Instr} {t u : State} {P : State → Prop} (hexec : exec c s = .next t) (ht : t = u) (hP : P u) :
    Completes c s P := ⟨u, hexec.trans (congrArg _ ht), hP⟩

/-! ### Addresses of pages -/

/-- An address of mailbox `n`'s page. -/
structure InPage (n a : Nat) : Prop where
  box : n < 32
  low : pageOf n ≤ a
  high : a < pageOf n + 0x1000

theorem InPage.bounds (h : InPage n a) : 0x20000 ≤ a ∧ a < 0x40000 := by
  obtain ⟨hbox, hlow, hhigh⟩ := h
  unfold pageOf at hlow hhigh
  omega

theorem InPage.mod (h : InPage n a) : a % 0x1000000 = a := Nat.mod_eq_of_lt (by have := h.bounds; omega)

theorem InPage.index (h : InPage n a) : (a - 0x20000) / 0x1000 = n := by
  obtain ⟨-, hlow, hhigh⟩ := h
  unfold pageOf at hlow hhigh
  omega

theorem InPage.mbOf (h : InPage n a) : mbOf a = some n := by
  have hb := h.bounds
  unfold Machine.mbOf
  rw [if_neg (by omega), if_pos hb, h.index]

theorem InPage.bar0Dom (h : InPage n a) : bar0Dom a = 2 := by
  have hb := h.bounds
  unfold Machine.bar0Dom
  rw [if_neg (by omega)]
  obtain hd | hd : a / 0x10000 = 2 ∨ a / 0x10000 = 3 := by omega
  all_goals
    rw [hd]
    rfl

/-- The pages that QSPI owns are within its window (R255). -/
theorem InPage.qspiMapped (h : InPage n a) (hn : n < 4) : qspiMapped a = true := by
  obtain ⟨-, hlow, hhigh⟩ := h
  unfold pageOf at hlow hhigh
  simp only [Machine.qspiMapped, Bool.or_eq_true, Bool.and_eq_true, decide_eq_true_eq]
  omega

theorem lt_of_qspiOwns (h : s.qspiOwns n = true) : n < 4 := by
  simp only [State.qspiOwns, Bool.and_eq_true, decide_eq_true_eq] at h
  exact h.2

/-! ### Writes -/

/-- An interface may write mailbox `n`'s page: it owns the mailbox, whose domain is up and which is free. -/
structure PageFree (s : State) (i : Ifc) (n : Nat) : Prop where
  owner : s.owns i n = true
  domain : s.barDown 2 = false
  free : s.get R.MBX_STAT_STATUS n = 0

theorem PageFree.setBytes (h : PageFree s i n) (a : Nat) (bs : List Nat) : PageFree (s.setBytes a bs) i n := by
  obtain ⟨howner, hdomain, hfree⟩ := h
  refine ⟨?_, ?_, (State.setBytes_get ..).trans hfree⟩
  · rw [← howner]
    unfold State.owns State.qspiOwns State.pcieOwns State.attach
    simp only [State.setBytes_get]
  · rw [← hdomain]
    unfold State.barDown State.domDown
    simp only [State.setBytes_get]

theorem PageFree.pageWrite (h : PageFree s i n) (a : Nat) (bs : List Nat) : s.pageWrite i n a bs = s.setBytes a bs :=
  if_neg (not_not.2 h.free)

theorem PageFree.barFault (h : PageFree s i n) (ha : InPage n a) : s.barFault i a = none := by
  simp [State.barFault, ha.mbOf, ha.bar0Dom, h.owner, h.domain]

/-- Over PCIe a page takes a write of any size. -/
theorem writeB0_page (h : PageFree s .bar0 n) (ha : InPage n a) {bs : List Nat} (hend : a + bs.length ≤ pageOf n + 0x1000) :
    s.writeB0 a bs = s.setBytes a bs := by
  have hroom : bs.length ≤ 0x1000 - a % 0x1000 := by
    obtain ⟨-, hlow, -⟩ := ha
    unfold pageOf at hlow hend
    omega
  unfold State.writeB0 State.writePage
  rw [h.barFault ha, if_neg (by simp), if_pos ha.bounds, ha.index, h.owner, h.domain, List.take_of_length_le hroom]
  exact h.pageWrite a bs

theorem writeBar0_page (h : PageFree s .qspi n) (ha : InPage n a) (hn : n < 4) (v : Nat) :
    s.writeBar0 .qspi a v = s.setBytes a (toBytes 4 v) := by
  unfold State.writeBar0
  have hb := ha.bounds
  simp only [ha.mbOf, ha.bar0Dom, ha.qspiMapped hn, h.owner, h.domain, Bool.not_true, Bool.and_false, Bool.false_eq_true,
    if_false, if_neg (Nat.not_lt.2 hb.1)]
  exact h.pageWrite a _

/-- Over QSPI a page takes whole words. -/
theorem writeWords_page (hn : n < 4) : ∀ {s : State} {a : Nat} (bs : List Nat), PageFree s .qspi n → pageOf n ≤ a →
    a + bs.length ≤ pageOf n + 0x1000 → bs.length % 4 = 0 →
    s.writeWords .qspi a (bs.map (· % 256)) = s.setBytes a (bs.map (· % 256))
  | _, _, [], _, _, _, _ => rfl
  | s, a, b0 :: b1 :: b2 :: b3 :: bs, h, hlow, hend, hwords => by
    simp only [List.length_cons] at hend hwords
    have ha : InPage n a := ⟨by omega, hlow, by omega⟩
    have hword : toBytes 4 (ofBytes ([b0, b1, b2, b3].map (· % 256))) = [b0, b1, b2, b3].map (· % 256) := by
      simp only [List.map_cons, List.map_nil, ofBytes, toBytes, List.cons.injEq, and_true]
      omega
    show (s.writeBar0 .qspi (a % 0x1000000) (ofBytes ([b0, b1, b2, b3].map (· % 256)))).writeWords .qspi (a + 4)
      (bs.map (· % 256)) = _
    rw [ha.mod, writeBar0_page h ha hn, hword]
    exact writeWords_page hn bs (h.setBytes _ _) (by omega) (by omega) (by omega)
  | _, _, [_], _, _, _, hwords => absurd hwords (by simp)
  | _, _, [_, _], _, _, _, hwords => absurd hwords (by simp)
  | _, _, [_, _, _], _, _, _, hwords => absurd hwords (by simp)

/-- Bytes stored are all that changes. -/
theorem setBytes_stores (s : State) (a : Nat) (bs : List Nat) :
    let t := s.setBytes a (bs.map (· % 256))
    (∀ k (h : k < bs.length), t.byte (a + k) = bs[k] % 256) ∧ OnlyRegsBytes [] a (a + bs.length) s t := by
  refine ⟨fun k hk => ?_, kept_setBytes (kept_refl _ s), fun b hb => ?_, lists_setBytes ..⟩
  · rw [State.byte_setBytes_in _ _ _ _ (by simpa using hk), List.getElem_map, Nat.mod_mod]
  · exact State.byte_setBytes_out _ _ (by simpa using hb)

theorem writeBytes_page_bar0 (h : PageFree s .bar0 n) (hup : s.ifcUp .bar0 = true) (ha : InPage n a) {bs : List Nat}
    (hbs : bs ≠ []) (hend : a + bs.length ≤ pageOf n + 0x1000) :
    s.writeBytes .bar0 a bs = s.setBytes a (bs.map (· % 256)) := by
  unfold State.writeBytes
  rw [if_neg (by simp [hup, hbs])]
  dsimp only
  rw [ha.mod]
  exact writeB0_page h ha (by rwa [List.length_map])

theorem writeBytes_page_qspi (h : PageFree s .qspi n) (hup : s.ifcUp .qspi = true) (ha : InPage n a) {bs : List Nat}
    (hbs : bs ≠ []) (hend : a + bs.length ≤ pageOf n + 0x1000) (halign : a % 4 = 0) (hwords : bs.length % 4 = 0) :
    s.writeBytes .qspi a bs = s.setBytes a (bs.map (· % 256)) := by
  unfold State.writeBytes
  rw [if_neg (by simp [hup, hbs])]
  dsimp only
  rw [Nat.div_mul_cancel (Nat.dvd_of_mod_eq_zero halign)]
  exact writeWords_page (lt_of_qspiOwns h.owner) bs h ha.low hend hwords

/-- Settles O12: over either interface the bytes are stored at the address, once the write has been found to reach the page. -/
theorem pageWritesLandInPage : Obligations.PageWritesLandInPage := by
  unfold Obligations.PageWritesLandInPage
  intro n a bs s hbox hdomain hfree hlow hend hbs ok
  have hlen := List.length_pos_iff.2 hbs
  have ha : InPage n a := ⟨hbox, hlow, by omega⟩
  have hok : ok (s.setBytes a (bs.map (· % 256))) := setBytes_stores s a bs
  refine ⟨fun hup howner => ?_, fun hup howner halign hwords => ?_⟩
  · exact completes_of_eq rfl (writeBytes_page_bar0 ⟨howner, hdomain, hfree⟩ hup ha hbs hend) hok
  · have hwrite := writeBytes_page_qspi ⟨howner, hdomain, hfree⟩ hup ha hbs hend halign hwords
    exact ⟨completes_of_eq rfl hwrite hok, completes_of_eq rfl hwrite hok, completes_of_eq rfl hwrite hok⟩

end Sys2Proof.Claims
end

section
/-! PROOFS. The PCIe power state, the QSPI status byte and the tick (R252, R254, R259). -/

namespace Sys2Proof.Claims
open Sys2Proof.Machine

-- One proof after another: each thread has a stack of its own, and the text compiled at once is near its memory.
set_option Elab.async false

variable {s t : State} {ks : List Nat} {k : Nat}

theorem mem_cause (s : State) (k : Nat) : (s.cause k).mem = s.mem := State.when_same State.mem _ _ (State.sendMsix_mem ..)

theorem quiet_cause (s : State) (k : Nat) : quiet (s.cause k) = quiet s := State.when_same quiet _ _ (quiet_sendMsix ..)

theorem pciePowerState_taken (d3 : Bool) (hattach : s.attach ≠ 1) (hup : s.domDown 1 = false) :
    Completes (.pciePowerState d3) s fun t => t.get H.D3HOT = b2n d3 ∧ OnlyRegs [fkey H.D3HOT 0 0] s t := by
  have hexec : exec (.pciePowerState d3) s = .next (s.put H.D3HOT (b2n d3)) := by
    show execPciePowerState d3 s = _
    unfold execPciePowerState
    rw [if_neg (by simp [hattach, hup])]
  exact ⟨_, hexec, State.get_put_of_lt _ _ _ (Nat.lt_succ_of_le (b2n_le d3)),
    (OnlyRegs.refl _ s).put (List.mem_singleton_self _) _⟩

theorem readStatus_shown (hup : s.ifcUp .qspi = true) :
    exec .readStatus s = .next { s with rdata := [b2n s.qspiIrq + 2 * s.get R.HIF_STATUS_READY] } := by
  show execReadStatus s = _
  unfold execReadStatus
  rw [if_pos hup]

/-- The places that a tick writes. -/
def tickPlaces : List Nat := [fkey H.TICK_CNT 0 0, fkey R.HIF_INT_STAT 0 0, fkey R.HIF_MSIX_PBA 0 0]

theorem hifTick_ticks (hdiv : s.get R.HIF_TICK_DIV ≠ 0) (hup : s.domDown 1 = false)
    (hdue : s.get R.HIF_TICK_DIV ≤ s.get H.TICK_CNT) : Completes .hifTick s fun t =>
      bit (t.get R.HIF_INT_STAT) 2 = true ∧ t.get H.TICK_CNT = 0 ∧ RegsKept tickPlaces s t ∧ t.mem = s.mem ∧
      quiet t = quiet s := by
  have hexec : exec .hifTick s = .next ((s.put H.TICK_CNT 0).cause 2) := by
    show execHifTick s = _
    unfold execHifTick
    rw [if_neg (by simp [hdiv, hup, hdue])]
  refine ⟨_, hexec, cause_bit _ (by decide), ?_, ?_, mem_cause .., quiet_cause ..⟩
  · rw [get_cause (by decide), State.orBit, State.get_put_ne _ _ (by decide), State.get_put_self]
    rfl
  · exact kept_cause (by simp [tickPlaces]) (by simp [tickPlaces]) (kept_put (by simp [tickPlaces]) (kept_refl _ _))

/-- Settles O14: each of the three commands does what its lemma says. -/
theorem powerStateStatusByteAndTick : Obligations.PowerStateStatusByteAndTick := by
  unfold Obligations.PowerStateStatusByteAndTick
  exact fun d3 s => ⟨pciePowerState_taken d3, readStatus_shown, hifTick_ticks⟩

end Sys2Proof.Claims
end

section
/-! PROOFS. The requests of the mailboxes themselves: ECHO, GET_INFO, TAG_RESET, WIN_READ and WIN_WRITE (R270, R271, R280). -/

namespace Sys2Proof.Claims
open Sys2Proof.Machine

-- One proof after another: each thread has a stack of its own, and the text compiled at once is near its memory.
set_option Elab.async false

variable {s t : State} {ks : List Nat} {mb : Nat}

/-! ### Answers -/

theorem done_answers {opc n : Nat} (h : Ready s mb opc n) (res : List Nat) :
    Answered (s.done mb res) mb 2 0 res ∧ AnswerKeeps [] mb res.length s (s.done mb res) :=
  complete_answers h.jrn h.lt (by decide) (by decide)

theorem AnswerKeeps.widen {n m : Nat} (h : AnswerKeeps ks mb n s t) (hn : n ≤ m) : AnswerKeeps ks mb m s t :=
  ⟨h.regs, fun a ha => h.bytes a (by omega), h.quiet⟩

theorem clampN_le {lo hi : Nat} (h : lo ≤ hi) (v : Nat) : clampN lo hi v ≤ hi := by
  unfold clampN
  split_ifs <;> omega

/-! ### ECHO, GET_INFO, WIN_READ -/

theorem echo_answers (h : Ready s mb 0x0001 0) : Completes (.echo mb) s fun t =>
    Answered t mb 2 0 (s.bytes (pageOf mb) (s.get H.MB_LEN mb)) ∧ AnswerKeeps [] mb (s.get H.MB_LEN mb) s t := by
  have hdone := done_answers h (s.bytes (pageOf mb) (s.get H.MB_LEN mb))
  rw [State.bytes_length] at hdone
  exact completes_of_eq rfl (h.request _) hdone

/-- The six words of GET_INFO (R280). -/
def infoWords (s : State) : List Nat :=
  [s.get R.HIF_FW_VER, s.get R.HIF_STATUS_BOOT_CNT, s.axes.length, s.descFreeN,
    ((List.range 248).filter fun p => !s.on H.PG_USED p).length,
    ((List.range 32).filter fun k => s.get R.LOP_ID_HANDLE k == 0).length]

theorem getInfo_answers (h : Ready s mb 0x0002 0) : Completes (.getInfo mb) s fun t =>
    Answered t mb 2 0 (ofWords (infoWords s)) ∧ AnswerKeeps [] mb 24 s t := by
  have hdone := done_answers h (ofWords (infoWords s))
  rw [ofWords_length] at hdone
  exact completes_of_eq rfl (h.request _) hdone

theorem bar2Bytes_length_le (s : State) (o n : Nat) : (s.bar2Bytes o n).length ≤ n := List.length_take_le ..

theorem winRead_answers (h : Ready s mb 0x0007 8)
    (hin : s.par mb 0 4 + clampN 4 4096 (s.par mb 4 4 / 4 * 4) ≤ 0x4000000) : Completes (.winRead mb) s fun t =>
      Answered t mb 2 0 (s.bar2Bytes (s.par mb 0 4) (clampN 4 4096 (s.par mb 4 4 / 4 * 4))) ∧
      AnswerKeeps [] mb 4096 s t := by
  obtain ⟨hanswered, hkeeps⟩ := done_answers h (s.bar2Bytes (s.par mb 0 4) (clampN 4 4096 (s.par mb 4 4 / 4 * 4)))
  refine completes_of_eq rfl ((h.request _).trans (if_neg (Nat.not_lt.2 hin))) ⟨hanswered, hkeeps.widen ?_⟩
  exact (bar2Bytes_length_le ..).trans (clampN_le (by decide) _)

/-! ### TAG_RESET (R270) -/

theorem mbxCause_tags (s : State) (n : Nat) : (s.mbxCause n).tags = s.tags := by
  refine State.when_same State.tags _ _ ?_
  unfold State.sendMsix
  split_ifs <;> rfl

/-- The completion of a TAG_RESET enters no tag history. -/
theorem complete_tags_of_tagReset {status reason handle : Nat} {res : List Nat} (hj : s.get H.MB_JRN mb = 0)
    (ho : s.get H.MB_OPC mb = 0x0006) : (s.complete mb status reason handle res).tags = s.tags := by
  unfold State.complete
  simp only [State.on_eq_false hj, Bool.false_eq_true, if_false, ho, or_true, if_true]
  exact (mbxCause_tags ..).trans (congrArg State.tags (lists_setBytes ..) :)

/-- The tag history of a mailbox emptied. -/
def untagged (s : State) (mb : Nat) : State := { s with tags := s.tags.filter fun r => r.mb != mb }

theorem tagReset_answers (h : Ready s mb 0x0006 0) : Completes (.tagReset mb) s fun t =>
    Answered t mb 2 0 [] ∧ AnswerKeeps [] mb 0 s t ∧ ∀ r, r ∈ t.tags ↔ r ∈ s.tags ∧ r.mb ≠ mb := by
  obtain ⟨hanswered, hkeeps⟩ := complete_answers (s := untagged s mb) (handle := 0) (res := []) h.jrn h.lt
    (by decide : 2 < 8) (by decide : 0 < 65536)
  have htags : ((untagged s mb).done mb).tags = s.tags.filter fun r => r.mb != mb :=
    complete_tags_of_tagReset h.jrn (live_opc h.live)
  refine completes_of_eq rfl (h.request _) ⟨hanswered, ⟨hkeeps.regs, hkeeps.bytes, hkeeps.quiet⟩, fun r => ?_⟩
  show r ∈ ((untagged s mb).done mb).tags ↔ _
  simp [htags]

/-! ### WIN_WRITE (R271) -/

/-- A request is DONE, with no result, after bytes have been stored. -/
theorem done_after_setBytes {opc n : Nat} (h : Ready s mb opc n) (a : Nat) (bs : List Nat) :
    let t := (s.setBytes a bs).done mb
    Answered t mb 2 0 [] ∧ RegsKept (answerPlaces mb) s t ∧ quiet t = quiet s ∧
      ∀ b, t.byte b = (s.setBytes a bs).byte b := by
  obtain ⟨hanswered, hkeeps⟩ := complete_answers (s := s.setBytes a bs) (handle := 0) (res := [])
    ((State.setBytes_get ..).trans h.jrn) h.lt (by decide : 2 < 8) (by decide : 0 < 65536)
  have hregs := hkeeps.regs
  rw [List.append_nil] at hregs
  exact ⟨hanswered, kept_step (kept_setBytes (kept_refl _ s)) hregs, hkeeps.quiet.trans (quiet_setBytes ..),
    fun b => hkeeps.bytes b (Nat.lt_or_ge b _)⟩

theorem winWrite_stores {o n : Nat} (ho : s.par mb 0 4 = o) (hn : clampN 4 4088 (s.par mb 4 4 / 4 * 4) = n)
    (hup : s.barDown 4 = false) (h : Ready s mb 0x0008 (8 + n)) (hlow : 0x200000 ≤ o) (hhigh : o + n ≤ 0x204000) :
    Completes (.winWrite mb) s fun t => Answered t mb 2 0 [] ∧ RegsKept (answerPlaces mb) s t ∧ quiet t = quiet s ∧
      (∀ k < n, t.byte (0x40000000 + o + k) = s.byte (pageOf mb + 8 + k)) ∧
      BytesKept (0x40000000 + o) (0x40000000 + o + n) s t := by
  have hexec : exec (.winWrite mb) s = .next ((s.setBytes (0x40000000 + o) (s.parBytes mb 8 n)).done mb) := by
    show execWinWrite mb s = _
    unfold execWinWrite
    rw [(h.mono (Nat.le_add_right 8 n)).request]
    dsimp only
    rw [ho, hn, if_neg (by omega), if_neg (Nat.not_lt.2 h.len), hup]
    rfl
  obtain ⟨hanswered, hregs, hquiet, hbytes⟩ := done_after_setBytes h (0x40000000 + o) (s.parBytes mb 8 n)
  have hlen : (s.parBytes mb 8 n).length = n := State.bytes_length ..
  refine ⟨_, hexec, hanswered, hregs, hquiet, fun k hk => ?_, fun b hb => ?_⟩
  · rw [hbytes, State.byte_setBytes_in _ _ _ _ (hlen.symm ▸ hk)]
    exact (congrArg (· % 256) (State.bytes_getElem ..)).trans (Nat.mod_eq_of_lt (State.byte_lt ..))
  · rw [hbytes, State.byte_setBytes_out _ _ (hlen.symm ▸ hb)]

/-- Settles O15: each of the five requests has its lemma. -/
theorem mailboxRequestsReadAndWrite : Obligations.MailboxRequestsReadAndWrite := by
  unfold Obligations.MailboxRequestsReadAndWrite
  exact ⟨fun mb s => ⟨echo_answers, getInfo_answers, tagReset_answers, winRead_answers⟩,
    fun mb s => winWrite_stores rfl rfl⟩

end Sys2Proof.Claims
end

section
/-! PROOFS. A flash scrub suspended, resumed and cancelled by its handle (R273, R274). -/

namespace Sys2Proof.Claims
open Sys2Proof.Machine

-- One proof after another: each thread has a stack of its own, and the text compiled at once is near its memory.
set_option Elab.async false

variable {s v : State} {ks : List Nat} {mb k : Nat}

/-! ### The operation that a request names -/

/-- The request of mailbox `mb` names, by its handle, the flash scrub in slot `k`. -/
structure NamesScrub (s : State) (mb k : Nat) : Prop where
  slot : k < 32
  handle : s.get R.LOP_ID_HANDLE k = s.par mb 0 4
  given : s.par mb 0 4 ≠ 0
  alone : ∀ k' < 32, s.get R.LOP_ID_HANDLE k' = s.par mb 0 4 → k' = k
  range : s.par mb 0 4 < 65536
  opcode : s.get R.LOP_OBJ_OPCODE k = 0x0603

theorem NamesScrub.find (h : NamesScrub s mb k) :
    ((List.range 32).find? fun k => s.get R.LOP_ID_HANDLE k == s.par mb 0 4) = some k := by
  refine List.find?_range_eq_some.2 ⟨beq_iff_eq.2 h.handle, List.mem_range.2 h.slot, fun j hj => ?_⟩
  rw [Bool.not_eq_true', beq_eq_false_iff_ne]
  exact fun he => Nat.ne_of_lt hj (h.alone j (Nat.lt_trans hj h.slot) he)

/-- A request that names an operation without a final status acts on its slot. -/
theorem NamesScrub.lopCtl {opc : Nat} (h : NamesScrub s mb k) (hready : Ready s mb opc 4)
    (hopen : s.get R.LOP_ID_STATUS k = 1 ∨ s.get R.LOP_ID_STATUS k = 4) (f : State → Nat → State) :
    s.lopCtl mb opc f = f s k := by
  have hrange := h.range
  unfold State.lopCtl
  rw [hready.request]
  dsimp only
  rw [if_neg (by have := h.given; omega), h.find]
  exact if_neg (by omega)

/-! ### The answer behind a change of status -/

/-- DONE behind the cause of a status that changed (R259): what was written stands, and nothing else changes. -/
theorem done_after_cause {opc n : Nat} (h : Ready s mb opc n) (hk : RegsKept ks s v) (hm : v.mem = s.mem)
    (hq : quiet v = quiet s) (hj : fkey H.MB_JRN mb 0 ∉ ks) (hi : fkey R.HIF_INT_STAT 0 0 ∈ ks) :
    let t := (v.cause 0).done mb
    Answered t mb 2 0 [] ∧ AnswerKeeps ks mb 0 s t ∧
      ∀ (f : Fld) (i j : Nat), fkey f i j ∉ fkey R.HIF_INT_STAT 0 0 :: answerPlaces mb → t.get f i j = v.get f i j := by
  have hcause : RegsKept [fkey R.HIF_INT_STAT 0 0, fkey R.HIF_MSIX_PBA 0 0] v (v.cause 0) :=
    kept_cause (by simp) (by simp) (kept_refl _ v)
  have hjrn : (v.cause 0).get H.MB_JRN mb = 0 := by
    rw [hcause _ _ _ (by have := h.lt; simp [fkey, H.MB_JRN, R.HIF_INT_STAT, R.HIF_MSIX_PBA]; omega), hk _ _ _ hj, h.jrn]
  obtain ⟨hanswered, hkeeps⟩ := complete_answers (s := v.cause 0) (handle := 0) (res := []) hjrn h.lt (by decide : 2 < 8)
    (by decide : 0 < 65536)
  have hstands : ∀ (f : Fld) (i j : Nat), fkey f i j ∉ fkey R.HIF_INT_STAT 0 0 :: answerPlaces mb →
      ((v.cause 0).done mb).get f i j = v.get f i j := fun f i j hf => by
    rw [List.mem_cons, not_or] at hf
    refine (hkeeps.regs f i j (by simpa using hf.2)).trans (hcause f i j ?_)
    rw [List.mem_cons, List.mem_singleton, not_or]
    exact ⟨hf.1, fun he => hf.2 (by simp [he, answerPlaces])⟩
  refine ⟨hanswered, ⟨fun f i j hf => ?_, fun a ha => ?_, hkeeps.quiet.trans ((quiet_cause ..).trans hq)⟩, hstands⟩
  · rw [List.mem_append, not_or] at hf
    refine (hstands f i j ?_).trans (hk f i j hf.2)
    rw [List.mem_cons, not_or]
    exact ⟨fun he => hf.2 (he ▸ hi), hf.1⟩
  · refine (hkeeps.bytes a ha).trans ?_
    simp only [State.byte, mem_cause, hm]

/-- The status of a slot is at no place that the answer of a request writes. -/
theorem lopStatus_apart (hk : k < 32) (mb : Nat) :
    fkey R.LOP_ID_STATUS k 0 ∉ fkey R.HIF_INT_STAT 0 0 :: answerPlaces mb := by
  simp only [answerPlaces, fkey, R.LOP_ID_STATUS, R.HIF_INT_STAT, R.MBX_STAT_STATUS, R.MBX_RES_REASON, R.MBX_RES_RLEN,
    R.MBX_HANDLE, R.MBX_ROP, R.MBX_T_DONE, R.HIF_INT_MBX_STAT, R.HIF_MSIX_PBA, List.mem_cons, List.not_mem_nil, or_false]
  omega

/-! ### Suspend and resume -/

/-- The places of a slot's status and of its cause. -/
def statusPlaces (k : Nat) : List Nat := [fkey R.LOP_ID_STATUS k 0, fkey R.HIF_INT_STAT 0 0]

theorem status_done {opc n st : Nat} (h : Ready s mb opc n) (hk : k < 32) (hst : st < 8) :
    let t := ((s.put R.LOP_ID_STATUS st k).cause 0).done mb
    Answered t mb 2 0 [] ∧ t.get R.LOP_ID_STATUS k = st ∧ AnswerKeeps (statusPlaces k) mb 0 s t := by
  have hmb := h.lt
  obtain ⟨hanswered, hkeeps, hstands⟩ := done_after_cause (v := s.put R.LOP_ID_STATUS st k) (ks := statusPlaces k) h
    (kept_put (by simp [statusPlaces]) (kept_refl _ s)) rfl rfl
    (by simp [statusPlaces, fkey, H.MB_JRN, R.LOP_ID_STATUS, R.HIF_INT_STAT]; omega) (by simp [statusPlaces])
  exact ⟨hanswered, (hstands _ _ _ (lopStatus_apart hk mb)).trans (State.get_put_of_lt _ _ _ hst), hkeeps⟩

theorem lopSuspend_suspends (hn : NamesScrub s mb k) (hw : s.waits = []) (h : Ready s mb 0x0003 4)
    (hst : s.get R.LOP_ID_STATUS k = 1) : Completes (.lopSuspend mb) s fun t =>
      Answered t mb 2 0 [] ∧ t.get R.LOP_ID_STATUS k = 4 ∧ AnswerKeeps (statusPlaces k) mb 0 s t := by
  refine completes_of_eq rfl ((hn.lopCtl h (.inl hst) _).trans ?_) (status_done (st := 4) h hn.slot (by decide))
  have hnone : ((s.put R.LOP_ID_STATUS 4 k).cause 0).waits = [] := (cause_waits ..).trans hw
  unfold State.lopSuspend
  rw [hn.opcode, hst]
  exact congrArg (State.done · mb) (State.doneAll_of_no_waits hnone ..)

theorem lopResume_resumes (hn : NamesScrub s mb k) (h : Ready s mb 0x0004 4) (hst : s.get R.LOP_ID_STATUS k = 4) :
    Completes (.lopResume mb) s fun t =>
      Answered t mb 2 0 [] ∧ t.get R.LOP_ID_STATUS k = 1 ∧ AnswerKeeps (statusPlaces k) mb 0 s t := by
  refine completes_of_eq rfl ((hn.lopCtl h (.inr hst) _).trans ?_) (status_done (st := 1) h hn.slot (by decide))
  unfold State.lopResume
  rw [hn.opcode, hst]
  rfl

/-! ### Cancel -/

/-- The operation of a slot marked cancelled, with its time of end. -/
def cancelled (s : State) (k : Nat) : State :=
  let s := (s.put R.LOP_ID_STATUS 5 k).put R.LOP_PROG_REASON 0 k
  s.put R.LOP_T_END s.now k

/-- The end of an operation on which no request waits. -/
theorem lopEnd_cancelled (hw : s.waits = []) (hopen : s.get R.LOP_ID_STATUS k = 1 ∨ s.get R.LOP_ID_STATUS k = 4) :
    s.lopEnd k 5 0 = (cancelled s k).cause 0 := by
  have hnone : ((cancelled s k).cause 0).waits = [] := (cause_waits ..).trans hw
  unfold State.lopEnd
  rw [if_pos hopen]
  show (((cancelled s k).cause 0).doneAll 0x0005 k).failAll 0x0003 k 0x000D = _
  rw [State.doneAll_of_no_waits hnone, State.failAll_of_no_waits hnone]

/-- The places that a cancel writes. -/
def cancelPlaces (k : Nat) : List Nat :=
  [fkey R.LOP_ID_STATUS k 0, fkey R.LOP_PROG_REASON k 0, fkey R.LOP_T_END k 0, fkey R.HIF_INT_STAT 0 0]

theorem cancelled_kept (s : State) (k : Nat) : RegsKept (cancelPlaces k) s (cancelled s k) :=
  kept_put (by simp [cancelPlaces]) (kept_put (by simp [cancelPlaces]) (kept_put (by simp [cancelPlaces]) (kept_refl _ s)))

theorem cancelled_status (s : State) (k : Nat) : (cancelled s k).get R.LOP_ID_STATUS k = 5 := by
  unfold cancelled
  rw [State.get_put_ne, State.get_put_ne, State.get_put_of_lt _ _ _ (by decide)]
  all_goals
    simp only [fkey, R.LOP_ID_STATUS, R.LOP_PROG_REASON, R.LOP_T_END]
    omega

theorem lopCancel_cancels (hn : NamesScrub s mb k) (hw : s.waits = []) (h : Ready s mb 0x0005 4)
    (hopen : s.get R.LOP_ID_STATUS k = 1 ∨ s.get R.LOP_ID_STATUS k = 4) : Completes (.lopCancel mb) s fun t =>
      Answered t mb 2 0 [] ∧ t.get R.LOP_ID_STATUS k = 5 ∧ AnswerKeeps (cancelPlaces k) mb 0 s t := by
  have hk := hn.slot
  have hmb := h.lt
  obtain ⟨hanswered, hkeeps, hstands⟩ := done_after_cause h (cancelled_kept s k) rfl rfl
    (by simp [cancelPlaces, fkey, H.MB_JRN, R.LOP_ID_STATUS, R.LOP_PROG_REASON, R.LOP_T_END, R.HIF_INT_STAT]; omega)
    (by simp [cancelPlaces])
  refine completes_of_eq rfl ((hn.lopCtl h hopen _).trans ?_)
    ⟨hanswered, (hstands _ _ _ (lopStatus_apart hk mb)).trans (cancelled_status s k), hkeeps⟩
  unfold State.lopCancel
  rw [hn.opcode, lopEnd_cancelled hw hopen]
  rfl

/-- Settles O16: a request finds the slot of its handle, and each of the three writes the status and is DONE. -/
theorem longOperationControl : Obligations.LongOperationControl := by
  unfold Obligations.LongOperationControl
  intro mb k s hk hw hhandle hgiven halone hrange hopc
  have hn : NamesScrub s mb k := ⟨hk, hhandle, hgiven, halone, hrange, hopc⟩
  exact ⟨lopSuspend_suspends hn hw, lopResume_resumes hn, lopCancel_cancels hn hw⟩

end Sys2Proof.Claims
end

section
/-! PROOFS. Two states that refute what is claimed of an acknowledge (R266, R421) and of the commit of a set of safety parameters
(R287, R409). -/

namespace Sys2Proof.Claims
open Sys2Proof.Machine

-- One proof after another: each thread has a stack of its own, and the text compiled at once is near its memory.
set_option Elab.async false

/-! ### An acknowledge while a journal entry is executed in the mailbox (R266, R421) -/

/-- Mailbox 0 holds a journal entry with status DONE; the host's own status, put away for it, is free. -/
def journalInBox : State :=
  (((State.reset.put R.PWR_DOM_ON 0xFFF).put R.PWR_DOM_RST 0).put R.MBX_STAT_STATUS 2).put H.MB_JRN 1

/-- The acknowledge is one of those claimed of. -/
theorem journalInBox_reached : journalInBox.ifcUp .bar0 = true ∧ journalInBox.owns .bar0 0 = true ∧
    journalInBox.barDown 2 = false ∧ journalInBox.get R.MBX_STAT_STATUS 0 = 2 := by decide +kernel

/-- It meets the host's status, for which there is nothing to acknowledge, and leaves that of the entry. -/
theorem journalInBox_ignored : Completes (.mbxAck .bar0 0) journalInBox fun t => t.get R.MBX_STAT_STATUS 0 = 2 :=
  ⟨_, rfl, by decide +kernel⟩

/-- Refutes O13. While a journal entry of the pair is executed in a mailbox, its registers are the entry's, and an acknowledge goes
by the status that the host had, which has been put away (R266, R421); the claim goes by the registers alone. -/
theorem not_doorbellsAndAcknowledges : ¬ Obligations.DoorbellsAndAcknowledges := by
  unfold Obligations.DoorbellsAndAcknowledges
  intro h
  obtain ⟨-, -, hack, -⟩ := h
  obtain ⟨hup, howner, hdomain, hdone⟩ := journalInBox_reached
  obtain ⟨t, ⟨hfree, -⟩, hkept⟩ :=
    (hack .bar0 0 journalInBox (by decide) hup (by decide) howner hdomain (.inl hdone)).both journalInBox_ignored
  exact absurd (hfree.symm.trans hkept) (by decide)

/-! ### A commit over a base value of more than 32 bits (R287, R409) -/

/-- No stop group is enabled, no safe output is on and no axis is configured. -/
structure NothingGuarded (s : State) : Prop where
  groups : ∀ g < 16, s.get R.SAF_SG_CFG_EN g = 0
  outputs : ∀ k < 4, s.get R.SAF_SO_STAT_ON k = 0 ∧ s.get H.SO_LIVE k = 0
  axes : s.axes = []

/-- Nothing then bars a set whose CRC is given. -/
theorem NothingGuarded.safRefuse {s : State} (h : NothingGuarded s) (t : State) (crc : Nat) : safRefuse s t crc crc = 0 := by
  have hdemand : safNotInDemand s t = false := by
    unfold safNotInDemand
    rw [Bool.or_eq_false_iff]
    refine ⟨List.any_eq_false.2 fun g hg => ?_, List.any_eq_false.2 fun k hk => ?_⟩
    · simp [State.on_eq_false (h.groups g (List.mem_range.1 (List.mem_filter.1 hg).1))]
    · obtain ⟨hon, hlive⟩ := h.outputs k (List.mem_range.1 hk)
      simp [State.on_eq_false hon, State.on_eq_false hlive]
  simp [Machine.safRefuse, hdemand, h.axes]

/-- A CX7420-SX in a session of mailbox 0, which holds a SAFE_PARAM_COMMIT. The base table has 2^32 for the first word of the
set. -/
def wideBase : State :=
  let s := ((State.reset.put R.HIF_ID_VARIANT 1).put R.CFG_SAF_SESS_OPEN 1).put R.CFG_STATUS_NO_PASSWORD 0
  { ((s.put R.MBX_STAT_STATUS 1).put H.MB_OPC 0x0901).put H.MB_LEN 4 with baseW := [(0x50000020, 2 ^ 32)] }

/-- The same with a CRC given in the request. -/
def wideBaseGiven (crc : Nat) : State := { wideBase with mem := (State.reset.store (pageOf 0) 4 crc).mem }

theorem wideBaseGiven_par {crc : Nat} (h : crc < 2 ^ 32) : (wideBaseGiven crc).par 0 0 4 = crc :=
  load_store_self (n := 4) h State.reset (pageOf 0)

theorem wideBase_session : wideBase.isSX = true ∧ wideBase.sessionOk 0 = true := by decide +kernel

theorem wideBase_first : wideBase.safBase 0x20 = 256 ^ 4 := by decide +kernel

theorem wideBaseGiven_guards (crc : Nat) : NothingGuarded (wideBaseGiven crc) := by
  have h : NothingGuarded wideBase := by constructor <;> decide +kernel
  exact ⟨h.groups, h.outputs, h.axes⟩

/-- Nothing is staged, so the set is that of the base values, whatever the request gives. -/
theorem wideBaseGiven_safNext (crc : Nat) {o : Nat} (ho : o < 0x1000) :
    (wideBaseGiven crc).safNext o = wideBase.safBase o := by
  have hmark : (wideBaseGiven crc).byte (safMark o) = 0 :=
    byte_store_out State.reset (by unfold safMark pageOf; omega)
  have hnew : (wideBaseGiven crc).on H.SAF_NEWP = false :=
    State.on_eq_false (by decide +kernel : wideBase.get H.SAF_NEWP = 0)
  unfold State.safNext
  rw [if_neg (not_not.2 hmark), hnew]
  rfl

theorem safWords_lt : ∀ o ∈ safWords, o < 0x1000 := fun o ho => by
  obtain ⟨k, hk, rfl⟩ := List.mem_map.1 (List.mem_filter.1 ho).1
  have := List.mem_range.1 hk
  omega

/-- The CRC of the base values. -/
def wideCrc : Nat := Config.safetyCrc (safWords.map wideBase.safBase) % 2 ^ 32

theorem wideBaseGiven_ovlSafety (crc : Nat) : (wideBaseGiven crc).ovlSafety = [] := by
  have hcount : ∀ m < 8, wideBase.ovlCount (m + 1) = 0 := by decide +kernel
  refine List.flatMap_eq_nil_iff.2 fun m hm => ?_
  have hnone : (wideBaseGiven crc).ovlCount (m + 1) = 0 := hcount m (List.mem_range.1 hm)
  rw [State.ovl, hnone]
  rfl

theorem wideBaseGiven_crc (crc : Nat) :
    Config.safetyCrc (safWords.map (wideBaseGiven crc).safNext ++ (wideBaseGiven crc).ovlSafety) % 2 ^ 32 = wideCrc := by
  rw [wideBaseGiven_ovlSafety, List.append_nil, List.map_congr_left fun o ho => wideBaseGiven_safNext crc (safWords_lt o ho)]
  rfl

/-- A commit of safety parameters addresses no record, so no earlier request holds it up (R77, R265). -/
theorem behind_of_commit {s : State} {mb : Nat} (h : s.get H.MB_OPC mb = 0x0901) : s.behind mb = false := by
  have hrec : s.recOf mb = 0 := by simp [State.recOf, h]
  simp [State.behind, hrec]

theorem wideBaseGiven_live (crc : Nat) : (wideBaseGiven crc).live 0 0x0901 = true := by
  have h : wideBase.get H.MC_HALT = 0 ∧ wideBase.get R.MBX_STAT_STATUS = 1 ∧ wideBase.get H.MB_OPC = 0x0901 ∧
      wideBase.waits = [] ∧ wideBase.get H.MB_ACC ≤ wideBase.get H.BND_N + accAhead 0x0901 := by decide +kernel
  obtain ⟨hrun, hstatus, hopc, hwaits, hacc⟩ : (wideBaseGiven crc).get H.MC_HALT = 0 ∧
    (wideBaseGiven crc).get R.MBX_STAT_STATUS = 1 ∧ (wideBaseGiven crc).get H.MB_OPC = 0x0901 ∧
    (wideBaseGiven crc).waits = [] ∧ (wideBaseGiven crc).get H.MB_ACC ≤ (wideBaseGiven crc).get H.BND_N + accAhead 0x0901 := h
  simp [State.live, State.on_eq_false hrun, hstatus, hopc, hwaits, hacc, behind_of_commit hopc]

theorem wideBaseGiven_ready (crc : Nat) : Ready (wideBaseGiven crc) 0 0x0901 4 := by
  have h : Ready wideBase 0 0x0901 4 := by constructor <;> decide +kernel
  exact ⟨wideBaseGiven_live crc, h.boot, h.power, h.role, h.len, h.jrn⟩

/-- Refutes O50. Of a word that the active overlay covers, the base table has the value, a number of the model's own without a bound
of 32 bits; the set that is written has its low 32 bits, where the claim has the number. -/
theorem not_safetyRequests : ¬ Obligations.SafetyRequests := by
  unfold Obligations.SafetyRequests
  intro h
  obtain ⟨hsx, hsession⟩ := wideBase_session
  have hlt : wideCrc < 2 ^ 32 := Nat.mod_lt _ (by decide)
  obtain ⟨t, -, hcommit⟩ := ((h 0 (wideBaseGiven wideCrc)).1 hsx hsession).2 (wideBaseGiven_ready _)
  rw [wideBaseGiven_crc, wideBaseGiven_par hlt, (wideBaseGiven_guards _).safRefuse, if_pos rfl] at hcommit
  obtain ⟨-, -, -, -, hstored⟩ := hcommit
  have hword := hstored 0x20 (by decide +kernel)
  rw [wideBaseGiven_safNext _ (by decide), wideBase_first] at hword
  exact absurd hword (Nat.ne_of_lt (State.load_lt ..))

end Sys2Proof.Claims
end

section
/-! PROOFS. Two states that refute what is claimed of the check of a received firmware image (R266, R274, R295, R421) and of a write
into an overlay (R89, R285). -/

namespace Sys2Proof.Claims
open Sys2Proof.Machine

-- One proof after another: each thread has a stack of its own, and the text compiled at once is near its memory.
set_option Elab.async false

/-! ### A journaled request that waits on a firmware update (R266, R274, R421) -/

/-- All 4096 bytes of an image have been received, in a part without a fused key. Mailbox 0 executes a journal entry, a LOP_CANCEL
that waits on the update; the page put away for the mailbox's host begins with a 1, the page of the entry with a 0. -/
def journaledCancelWaits : State :=
  let s := ((State.reset.put R.LOP_ID_HANDLE 1).put R.LOP_OBJ_OPCODE 0x0602).put R.LOP_ID_STATUS 1
  let s := (((s.put R.SEC_KEYS_PROG 0).put H.FW_PH 1).put H.FW_LEN 4096).put H.FW_GOT 4096
  { (s.put H.MB_JRN 1).setByte (jrnPage 0) 1 with waits := [{ mb := 0, opc := 0x0005, key := 0 }] }

/-- The check is one of those claimed of. -/
theorem journaledCancelWaits_received : journaledCancelWaits.get H.FW_PH = 1 ∧
    journaledCancelWaits.get H.FW_GOT = journaledCancelWaits.get H.FW_LEN ∧
    journaledCancelWaits.lopOf 0x0602 0 = some 0 := by decide +kernel

/-- The image has no key and the update ends FAILED, with it the LOP_CANCEL, and the host's page comes back. -/
theorem journaledCancelWaits_checked : Completes .fwSignatureCheck journaledCancelWaits fun t =>
    t.byte (pageOf 0) = 1 := ⟨_, rfl, by decide +kernel⟩

theorem journaledCancelWaits_page : journaledCancelWaits.byte (pageOf 0) = 0 := by decide +kernel

/-- Refutes O53. A cancel that waits on an operation is answered ALREADY_ENDED once the operation fails (R274), and with the end of a
journal entry the mailbox has its host's page again (R266, R421); the claim has every check of a received image leave all memory as it
was. The claim is made of every state: the model's own LOP_CANCEL of an update is answered at once and does not wait. -/
theorem not_modesImagesAndFirmware : ¬ Obligations.ModesImagesAndFirmware := by
  unfold Obligations.ModesImagesAndFirmware
  intro h
  obtain ⟨hphase, hall, hslot⟩ := journaledCancelWaits_received
  obtain ⟨-, -, -, -, -, hcheck, -⟩ := h 0 0 0 0 0 0 0 false
    { seq := 0, bootMode := 0, size := 0, good := true, regs := [], mem := [], axes := [], descs := [] } journaledCancelWaits
  obtain ⟨t, ⟨hmem, -⟩, hback⟩ := (hcheck hphase hall hslot).both journaledCancelWaits_checked
  have hkept : t.byte (pageOf 0) = 0 := by rw [State.byte, hmem]; exact journaledCancelWaits_page
  exact absurd (hkept.symm.trans hback) (by decide)

/-! ### An entry that enables a cross-coupling section of a group without members (R89) -/

/-- Mailbox 0 holds an OVL_WRITE of one entry into overlay 1: EN of cross-coupling section 0 of group 0, which has no members. -/
def couplesNobody : State :=
  let s := State.reset.setBytes (pageOf 0) (ofWords [1, 0, 1, ovlTgt 1 0 0x0C, 0x40, 0x40])
  ((s.put R.MBX_STAT_STATUS 1).put H.MB_OPC 0x0607).put H.MB_LEN 24

theorem couplesNobody_ready : Ready couplesNobody 0 0x0607 12 := by constructor <;> decide +kernel

/-- The write goes to an overlay that is not in use, and within its bounds. -/
theorem couplesNobody_pars : 0 < couplesNobody.par 0 0 4 ∧ couplesNobody.par 0 0 4 ≤ 8 ∧ couplesNobody.par 0 4 4 ≤ 2047 ∧
    12 + 12 * clampN 1 340 (couplesNobody.par 0 8 4) ≤ couplesNobody.get H.MB_LEN ∧
    couplesNobody.ovlInUse (couplesNobody.par 0 0 4) = false ∧
    couplesNobody.par 0 4 4 + clampN 1 340 (couplesNobody.par 0 8 4) ≤ 2048 := by decide +kernel

/-- Its entry targets a word that an overlay may hold, and no safety parameter is among what it writes and replaces. -/
theorem couplesNobody_entry : (couplesNobody.ovlReq 0).2.2.all couplesNobody.ovlMay = true ∧
    ((couplesNobody.ovlReq 0).2.2 ++ ((couplesNobody.ovl (couplesNobody.par 0 0 4)).drop (couplesNobody.par 0 4 4)).take
      (clampN 1 340 (couplesNobody.par 0 8 4))).any OvlEntry.safe = false := by decide +kernel

/-- The request is refused with OVL_TARGET. -/
theorem couplesNobody_refused : Completes (.ovlWrite 0) couplesNobody fun t =>
    t.get R.MBX_STAT_STATUS = 3 ∧ t.get R.MBX_RES_REASON = 0x0600 := ⟨_, rfl, by decide +kernel⟩

/-- Refutes O54. An entry that would enable a cross-coupling section of a member that does not exist fails with OVL_TARGET (R89),
though its target is one that R285 allows; the claim goes by the targets alone and has every such write DONE. -/
theorem not_overlaysAndSafetySession : ¬ Obligations.OverlaysAndSafetySession := by
  unfold Obligations.OverlaysAndSafetySession
  intro h
  obtain ⟨hmode, hmost, hfirst, hlen, hidle, hroom⟩ := couplesNobody_pars
  obtain ⟨hmay, hplain⟩ := couplesNobody_entry
  obtain ⟨hwrite, -⟩ := h 0 { mb := 0, opc := 0, key := 0 } [] couplesNobody
  have hdone := (hwrite couplesNobody_ready hmode hmost hfirst hlen hidle hroom hmay).1 hplain
  obtain ⟨t, ⟨hanswer, -⟩, hfailed, -⟩ := hdone.both couplesNobody_refused
  exact absurd (hanswer.status.symm.trans hfailed) (by decide)

end Sys2Proof.Claims
end

section
/-! SUPPORT. Steps of one drive port, known by the fields of the port that they write (R302 to R333): what they leave, and the
detector reports that go with them (R455, R456). -/

namespace Sys2Proof.Claims
open Sys2Proof.Machine

-- One proof after another: each thread has a stack of its own, and the text compiled at once is near its memory.
set_option Elab.async false

variable {s t u : State} {fs gs : List Fld} {p : Nat}

theorem Completes.imp {c : Instr} {P Q : State → Prop} (h : Completes c s P) (hi : ∀ t, P t → Q t) : Completes c s Q := by
  obtain ⟨t, ht, hP⟩ := h
  exact ⟨t, ht, hi t hP⟩

/-! ### The fields of one port -/

/-- The instances of a field share no place: the elements of one end before the next begins. -/
def Fld.spread (f : Fld) : Bool := decide (f.step * (f.m - 1) < f.stride)

theorem fkey_lt_of_spread {f : Fld} {i j k l : Nat} (h : Fld.spread f = true) (hj : j ≤ f.m - 1) (hik : i < k) :
    fkey f i j < fkey f k l := by
  have hstep : f.step * j ≤ f.step * (f.m - 1) := Nat.mul_le_mul_left _ hj
  have hstride : f.stride * (i + 1) ≤ f.stride * k := Nat.mul_le_mul_left _ hik
  have hend : f.step * (f.m - 1) < f.stride := of_decide_eq_true h
  have hnext : f.stride * (i + 1) = f.stride * i + f.stride := Nat.mul_succ ..
  simp only [fkey]
  omega

theorem fkey_ne_of_spread {f : Fld} {i j k l : Nat} (h : Fld.spread f = true) (hj : j ≤ f.m - 1) (hl : l ≤ f.m - 1)
    (hik : i ≠ k) : fkey f i j ≠ fkey f k l := by
  rcases Nat.lt_or_gt_of_ne hik with hlt | hgt
  · exact Nat.ne_of_lt (fkey_lt_of_spread h hj hlt)
  · exact Nat.ne_of_gt (fkey_lt_of_spread h hl hgt)

/-- Of everything, `t` differs from `s` in fields of `fs` of port `p` alone. -/
structure SetsPort (fs : List Fld) (p : Nat) (s t : State) : Prop where
  port : p < 8
  regs : ∀ (g : Fld) (i j : Nat), i ≤ g.n - 1 → j ≤ g.m - 1 →
    (fs.all fun f => f.disjoint g || (decide (f = g) && Fld.spread g && i != p)) = true → t.get g i j = s.get g i j
  mem : t.mem = s.mem
  lists : lists t = lists s

theorem SetsPort.refl (fs : List Fld) (hp : p < 8) (s : State) : SetsPort fs p s s := ⟨hp, fun _ _ _ _ _ _ => rfl, rfl, rfl⟩

theorem SetsPort.trans (h : SetsPort fs p s t) (k : SetsPort fs p t u) : SetsPort fs p s u :=
  ⟨h.port, fun g i j hi hj hg => (k.regs g i j hi hj hg).trans (h.regs g i j hi hj hg), k.mem.trans h.mem,
    k.lists.trans h.lists⟩

theorem SetsPort.mono (h : SetsPort fs p s t) (hs : fs ⊆ gs) : SetsPort gs p s t :=
  ⟨h.port, fun g i j hi hj hg => h.regs g i j hi hj (List.all_eq_true.2 fun f hf => List.all_eq_true.1 hg f (hs hf)), h.mem,
    h.lists⟩

/-- A field that a step of a port may write: it is one of `fs`, and every port has it. -/
def portFld (fs : List Fld) (f : Fld) : Bool := decide (f ∈ fs) && decide (f.n = 8)

/-- A write of a field of `fs`. -/
theorem SetsPort.put (h : SetsPort fs p s t) {f : Fld} {j : Nat} (v : Nat) (hf : portFld fs f = true := by decide)
    (hj : j ≤ f.m - 1 := by decide) : SetsPort fs p s (t.put f v p j) where
  port := h.port
  regs g k l hk hl hg := by
    simp only [portFld, Bool.and_eq_true, decide_eq_true_eq] at hf
    obtain ⟨hmem, hn⟩ := hf
    have hp : p ≤ f.n - 1 := by have := h.port; omega
    refine (State.get_put_ne _ _ ?_).trans (h.regs g k l hk hl hg)
    have hgf := List.all_eq_true.1 hg f hmem
    simp only [Bool.or_eq_true, Bool.and_eq_true, decide_eq_true_eq, bne_iff_ne] at hgf
    rcases hgf with hd | ⟨⟨rfl, hs⟩, hne⟩
    · exact fkey_ne_of_disjoint hd hp hj hk hl
    · exact fkey_ne_of_spread hs hj hl hne.symm
  mem := h.mem
  lists := h.lists

theorem SetsPort.when {c : Bool} {f : State → State} (h : SetsPort fs p s t) (hf : SetsPort fs p s (f t)) :
    SetsPort fs p s (t.when c f) := State.when_induction h hf

theorem SetsPort.each {α : Type} {l : List α} {f : State → α → State} (h : SetsPort fs p s t)
    (hf : ∀ v, ∀ x ∈ l, SetsPort fs p s v → SetsPort fs p s (f v x)) : SetsPort fs p s (t.each l f) :=
  State.each_induction hf h

/-- A field apart from those written reads as before. -/
theorem SetsPort.get {g : Fld} {i j : Nat} (h : SetsPort fs p s t) (hi : i ≤ g.n - 1) (hj : j ≤ g.m - 1 := by decide)
    (hg : (fs.all fun f => f.disjoint g) = true := by decide) : t.get g i j = s.get g i j :=
  h.regs g i j hi hj (List.all_eq_true.2 fun f hf => by rw [List.all_eq_true.1 hg f hf]; rfl)

/-- The same field of the port itself, which every port has. -/
theorem SetsPort.own {g : Fld} {j : Nat} (h : SetsPort fs p s t)
    (hg : (fs.all (fun f => f.disjoint g) && decide (g.n = 8)) = true := by decide) (hj : j ≤ g.m - 1 := by decide) :
    t.get g p j = s.get g p j := by
  rw [Bool.and_eq_true, decide_eq_true_eq] at hg
  exact h.get (by have := h.port; omega) hj hg.1

/-- A field of another port reads as before. -/
theorem SetsPort.other {g : Fld} {k j : Nat} (h : SetsPort fs p s t) (hk : k < 8) (hkp : k ≠ p)
    (hg : (fs.all (fun f => f.disjoint g || (decide (f = g) && Fld.spread g)) && decide (g.n = 8)) = true := by decide)
    (hj : j ≤ g.m - 1 := by decide) : t.get g k j = s.get g k j := by
  rw [Bool.and_eq_true, decide_eq_true_eq] at hg
  refine h.regs g k j (by omega) hj (List.all_eq_true.2 fun f hf => ?_)
  have := List.all_eq_true.1 hg.1 f hf
  simp only [Bool.or_eq_true, Bool.and_eq_true, decide_eq_true_eq, bne_iff_ne] at this ⊢
  exact this.imp_right fun hfg => ⟨hfg, hkp⟩

/-- A write to one field of a record leaves the other fields of the record. -/
theorem get_put_record {f g : Fld} {N i j l : Nat} (hi : i < N) (v : Nat)
    (h : (f.disjoint g && decide (f.n = N) && decide (g.n = N)) = true) (hj : j ≤ f.m - 1) (hl : l ≤ g.m - 1) :
    (t.put f v i j).get g i l = t.get g i l := by
  simp only [Bool.and_eq_true, decide_eq_true_eq] at h
  obtain ⟨⟨hd, hf⟩, hg⟩ := h
  exact State.get_put_ne _ _ (fkey_ne_of_disjoint hd (by omega) hj (by omega) hl)

/-- A count goes up by one, and no further than its width. -/
theorem incSat_counts (s : State) (f : Fld) (i j : Nat) :
    (s.incSat f i j).get f i j = min (s.get f i j + 1) (2 ^ f.width - 1) := by
  refine State.get_put_of_lt _ _ _ ?_
  have := Nat.two_pow_pos f.width
  omega

theorem SetsPort.axEvs (h : SetsPort fs p s t) : t.axEvs = s.axEvs := (congrArg State.axEvs h.lists :)

theorem SetsPort.waits (h : SetsPort fs p s t) : t.waits = s.waits := (congrArg State.waits h.lists :)

theorem OnlyRegs.axEvs {ks : List Nat} (h : OnlyRegs ks s t) : t.axEvs = s.axEvs := (congrArg State.axEvs h.lists :)

/-- The axis of a port is found by fields of the axes alone. -/
theorem axisOf_congr (h : ∀ a < 256, t.axSt a = s.axSt a ∧ t.get H.AX_BIND a = s.get H.AX_BIND a) (b : Nat) :
    t.axisOf b = s.axisOf b :=
  List.find?_congr fun a ha => by
    obtain ⟨hst, hbind⟩ := h a (List.mem_range.1 ha)
    rw [hst, hbind]

theorem axisOf_lt {a b : Nat} (h : s.axisOf b = some a) : a < 256 := List.mem_range.1 (List.mem_of_find?_eq_some h)

theorem SetsPort.axSt {a : Nat} (h : SetsPort fs p s t) (ha : a < 256)
    (hf : (fs.all fun f => f.disjoint R.AXS_STATUS_STATE) = true := by decide) : t.axSt a = s.axSt a :=
  h.get (g := R.AXS_STATUS_STATE) (Nat.le_of_lt_succ ha) (Nat.zero_le _) hf

theorem SetsPort.axisOf (h : SetsPort fs p s t)
    (hf : ([R.AXS_STATUS_STATE, H.AX_BIND].all fun g => fs.all fun f => f.disjoint g) = true := by decide) (b : Nat) :
    t.axisOf b = s.axisOf b := by
  simp only [List.all_cons, List.all_nil, Bool.and_true, Bool.and_eq_true] at hf
  exact axisOf_congr (fun a ha => ⟨h.axSt ha hf.1, h.get (Nat.le_of_lt_succ ha) (Nat.zero_le _) hf.2⟩) b

/-! ### Detector reports (R455, R456) -/

/-- The fields that a report writes beside the mark of its detector, where it is no report of a corrected bit error. -/
def reportRest : List Fld :=
  [R.INT_DET_INJ, R.INT_DET_INST, R.INT_DET_CNT, R.INT_DET_T, H.DET_DOMS, R.INT_SUM_DOM, R.INT_SUM_ERR,
    H.CNJ_DETS, R.INT_EVLOG_SEQ] ++ causeFields

/-- A step that writes fields of `fs` and leaves memory and the events of the axes. -/
structure SetsQuietly (fs : List Fld) (s t : State) : Prop where
  regs : WritesIn fs s t
  mem : t.mem = s.mem
  axEvs : t.axEvs = s.axEvs

theorem SetsQuietly.refl (fs : List Fld) (s : State) : SetsQuietly fs s s := ⟨.refl fs s, rfl, rfl⟩

theorem SetsQuietly.put (h : SetsQuietly fs s t) {f : Fld} {i : Nat} (hf : f ∈ fs) (hi : i ≤ f.n - 1) (v : Nat) :
    SetsQuietly fs s (t.put f v i) := ⟨h.regs.put hf hi (Nat.zero_le _) v, h.mem, h.axEvs⟩

theorem SetsQuietly.when {c : Bool} {f : State → State} (h : SetsQuietly fs s t) (hf : SetsQuietly fs s (f t)) :
    SetsQuietly fs s (t.when c f) := State.when_induction h hf

theorem SetsQuietly.cause (h : SetsQuietly fs s t) (hf : causeFields ⊆ fs) (k : Nat) : SetsQuietly fs s (t.cause k) := by
  have hsteps : Steps fs t (t.cause k) := (Steps.refl fs t).cause hf k
  exact ⟨h.regs.trans hsteps.regs, hsteps.mem.trans h.mem,
    (congrArg State.axEvs ((Holds.refl t).cause k).rest :).trans h.axEvs⟩

theorem SetsQuietly.evAdd (h : SetsQuietly fs s t) (hf : R.INT_EVLOG_SEQ :: causeFields ⊆ fs) (kind code inst axis cls : Nat)
    (inj : Bool) (info : Nat) : SetsQuietly fs s (t.evAdd kind code inst axis cls inj info) := by
  have hseq := h.put (i := 0) (hf (List.mem_cons_self ..)) (Nat.zero_le _) ((t.get R.INT_EVLOG_SEQ + 1) % 2 ^ 32)
  refine SetsQuietly.cause ?_ (List.subset_of_cons_subset hf) 13
  exact ⟨hseq.regs.ofRegs rfl, hseq.mem, hseq.axEvs⟩

theorem SetsQuietly.sumUp (h : SetsQuietly fs s t) (hf : R.INT_SUM_DOM :: R.INT_SUM_ERR :: causeFields ⊆ fs) :
    SetsQuietly fs s t.sumUp := by
  have hsum := fun d e => (h.put (f := R.INT_SUM_DOM) (i := 0) (hf (by decide)) (Nat.zero_le _) d).put (f := R.INT_SUM_ERR)
    (i := 0) (hf (by decide)) (Nat.zero_le _) e
  unfold State.sumUp
  dsimp only
  exact (hsum _ _).when ((hsum _ _).cause (List.Subset.trans (by decide) hf) 9)

/-- A report marks its detector, and writes no more than the fields above beside. -/
theorem report_sets {code : Nat} (hc : code < 32) (hne : code ≠ 1) (s : State) (inst axis info : Nat) :
    SetsQuietly reportRest (s.put R.INT_DET_STICKY 1 code) (s.report code inst axis info) := by
  have hi : code ≤ 31 := Nat.le_of_lt_succ hc
  have hnote := fun a b c d e => (((((SetsQuietly.refl reportRest (s.put R.INT_DET_STICKY 1 code)).put (f := R.INT_DET_INJ)
    (by decide) hi a).put (f := R.INT_DET_INST) (by decide) hi b).put (f := R.INT_DET_CNT) (by decide) hi c).put
    (f := R.INT_DET_T) (by decide) hi d).put (f := H.DET_DOMS) (by decide) hi e
  have hsum := fun a b c d e => (hnote a b c d e).sumUp (by decide)
  unfold State.report State.reportIn
  dsimp only
  rw [if_neg hne]
  exact ((hsum _ _ _ _ _).when ((hsum _ _ _ _ _).put (i := 0) (by decide) (Nat.zero_le _) 1)).evAdd (by decide) ..

theorem report_sticky {code : Nat} (hc : code < 32) (hne : code ≠ 1) (s : State) (inst axis info : Nat) :
    (s.report code inst axis info).get R.INT_DET_STICKY code = 1 :=
  ((report_sets hc hne s inst axis info).regs R.INT_DET_STICKY code 0 (by decide) (Nat.le_of_lt_succ hc) (Nat.zero_le _)).trans
    (State.get_put_of_lt _ _ _ (by decide))

/-- A report leaves every field of a port. -/
theorem report_port {code : Nat} (hc : code < 32) (hne : code ≠ 1) (hp : p < 8) (s : State) (inst axis info : Nat) {g : Fld}
    (hg : ((R.INT_DET_STICKY :: reportRest).all (fun f => f.disjoint g) && decide (g.n = 8)) = true := by decide) :
    (s.report code inst axis info).get g p = s.get g p := by
  simp only [Bool.and_eq_true, decide_eq_true_eq, List.all_cons] at hg
  obtain ⟨⟨hsticky, hrest⟩, hn⟩ := hg
  have hi : p ≤ g.n - 1 := by omega
  exact ((report_sets hc hne s inst axis info).regs g p 0 hrest hi (Nat.zero_le _)).trans
    (State.get_put_ne _ _ (fkey_ne_of_disjoint hsticky (Nat.le_of_lt_succ hc) (Nat.zero_le _) hi (Nat.zero_le _)))

end Sys2Proof.Claims
end

section
/-! PROOFS. Faults of the drive ports: hardware turn-offs, chopper faults and runs of Ellipses (R315, R326 to R328, R330). -/

namespace Sys2Proof.Claims
open Sys2Proof.Machine

-- One proof after another: each thread has a stack of its own, and the text compiled at once is near its memory.
set_option Elab.async false

variable {s t u : State} {fs : List Fld} {p : Nat}

/-! ### A hardware turn-off (R315, R328, R330) -/

/-- The event that a port's axis gets, where the port has one. -/
def portEvent (o : Option Nat) (k : AxKind) : List AxEv :=
  match o with
  | some a => [{ axis := a, kind := k }]
  | none => []

/-- The port is off in hardware since `s`, and its axis reacts with class PORT_HW. -/
structure TurnedOff (p : Nat) (s t : State) : Prop where
  hwoff : t.get R.DRV_STAT_HWOFF p = 1
  gates : t.get H.DP_EN p = 0
  brake : t.get H.DP_BRK p = 0
  mem : t.mem = s.mem
  reacts : t.axEvs = s.axEvs ++ portEvent (s.axisOfDp p) (.hwReact 10)

theorem TurnedOff.shows (h : TurnedOff p s t) : t.get R.DRV_STAT_HWOFF p = 1 ∧ t.get H.DP_EN p = 0 ∧ t.get H.DP_BRK p = 0 ∧
    t.mem = s.mem ∧ t.axEvs = s.axEvs ++ portEvent (s.axisOfDp p) (.hwReact 10) :=
  ⟨h.hwoff, h.gates, h.brake, h.mem, h.reacts⟩

/-- The fields that a port writes when its gates go off. -/
def offFields : List Fld :=
  [R.DRV_STAT_HWOFF, H.DP_EN, H.DP_BRK, H.DP_FR, H.DP_EN0, H.DP_LEG, R.DRV_STAT_RDY]

theorem gatesOff_sets (hp : p < 8) (s : State) : SetsPort offFields p s (s.gatesOff p) :=
  (((((((SetsPort.refl _ hp s).put (f := R.DRV_STAT_HWOFF) 1).put (f := H.DP_EN) 0).put (f := H.DP_BRK) 0).put
    (f := H.DP_FR) 0).put (f := H.DP_EN0) 0).put (f := H.DP_LEG) 0).put (f := R.DRV_STAT_RDY) _

theorem gatesOff_shows (hp : p < 8) (s : State) : (s.gatesOff p).get R.DRV_STAT_HWOFF p = 1 ∧
    (s.gatesOff p).get H.DP_EN p = 0 ∧ (s.gatesOff p).get H.DP_BRK p = 0 := by
  unfold State.gatesOff State.rdyUp
  dsimp only
  simp (disch := decide) only [get_put_record hp, State.get_put_self]
  decide

/-- A turn-off of a port that was on, but for its axis, writes no more than the port. -/
theorem hwOff_eq (hon : s.get R.DRV_STAT_HWOFF p = 0) (hp : p < 8) :
    s.hwOff p = { s.gatesOff p with axEvs := s.axEvs ++ portEvent (s.axisOfDp p) (.hwReact 10) } := by
  have hsets := gatesOff_sets hp s
  have haxis : (s.gatesOff p).axisOfDp p = s.axisOfDp p := hsets.axisOf (by decide) _
  unfold State.hwOff
  rw [State.on_eq_false hon, if_neg Bool.false_ne_true]
  dsimp only
  rw [haxis]
  cases s.axisOfDp p with
  | none => rw [portEvent, List.append_nil, ← hsets.axEvs]
  | some a => exact congrArg (fun l => { s.gatesOff p with axEvs := l ++ portEvent (some a) (.hwReact 10) }) hsets.axEvs

/-- A turn-off behind writes of the port, from a state in which it was on. -/
theorem hwOff_turnsOff (h : SetsPort fs p s t) (hon : t.get R.DRV_STAT_HWOFF p = 0)
    (hf : ([R.AXS_STATUS_STATE, H.AX_BIND].all fun g => fs.all fun f => f.disjoint g) = true := by decide) :
    TurnedOff p s (t.hwOff p) := by
  obtain ⟨hwoff, hen, hbrk⟩ := gatesOff_shows h.port t
  have haxis : t.axisOfDp p = s.axisOfDp p := h.axisOf hf _
  rw [hwOff_eq hon h.port, haxis, h.axEvs]
  exact ⟨hwoff, hen, hbrk, (gatesOff_sets h.port t).mem.trans h.mem, rfl⟩

theorem TurnedOff.report {code : Nat} (h : TurnedOff p s t) (hp : p < 8) (inst axis info : Nat) (hc : code < 32 := by decide)
    (hne : code ≠ 1 := by decide) : TurnedOff p s (t.report code inst axis info) := by
  have hsets := report_sets hc hne t inst axis info
  exact ⟨(report_port hc hne hp ..).trans h.hwoff, (report_port hc hne hp ..).trans h.gates,
    (report_port hc hne hp ..).trans h.brake, hsets.mem.trans h.mem, hsets.axEvs.trans h.reacts⟩

/-- What a turn-off leaves of the port. -/
theorem hwOff_port {g : Fld} (hp : p < 8) (hon : t.get R.DRV_STAT_HWOFF p = 0)
    (hg : (offFields.all (fun f => f.disjoint g) && decide (g.n = 8)) = true := by decide) :
    (t.hwOff p).get g p = t.get g p := by
  rw [hwOff_eq hon hp]
  exact (gatesOff_sets hp t).own hg (Nat.zero_le _)

/-- OV_TRIP (R328). -/
theorem ovTrip_turnsOff (hp : p < 8) (hmode : s.get R.DRV_CFG_MODE p ≠ 0) (hov : 2 ≤ s.get H.DP_OVN p)
    (hon : s.get R.DRV_STAT_HWOFF p = 0) : Completes (.ovTrip p) s fun t => TurnedOff p s t ∧
      t.get R.DRV_STAT_OVTRIP p = 1 ∧ t.get R.DRV_CNT_OV p = min (s.get R.DRV_CNT_OV p + 1) (2 ^ 32 - 1) ∧
      t.get R.INT_DET_STICKY 0x14 = 1 := by
  have hsets : SetsPort [H.DP_OVN, R.DRV_STAT_OVTRIP, R.DRV_CNT_OV] p s
      (((s.put H.DP_OVN 0 p).put R.DRV_STAT_OVTRIP 1 p).incSat R.DRV_CNT_OV p) :=
    (((SetsPort.refl _ hp s).put (f := H.DP_OVN) 0).put (f := R.DRV_STAT_OVTRIP) 1).put (f := R.DRV_CNT_OV) _
  have hon' := (hsets.own (g := R.DRV_STAT_HWOFF)).trans hon
  have hcount : (((s.put H.DP_OVN 0 p).put R.DRV_STAT_OVTRIP 1 p).incSat R.DRV_CNT_OV p).get R.DRV_CNT_OV p =
      min (s.get R.DRV_CNT_OV p + 1) (2 ^ 32 - 1) := by
    rw [incSat_counts]
    simp (disch := decide) only [get_put_record hp]
    rfl
  refine completes_of_eq rfl (if_neg (by omega)) ⟨(hwOff_turnsOff hsets hon').report hp .., ?_, ?_, report_sticky (by decide)
    (by decide) ..⟩
  · rw [report_port (by decide) (by decide) hp, hwOff_port hp hon']
    simp (disch := decide) only [State.incSat, get_put_record hp, State.get_put_self]
    rfl
  · rw [report_port (by decide) (by decide) hp, hwOff_port hp hon', hcount]

/-- GATE_DRIVER_FAULT (R330). -/
theorem gateDriverFault_turnsOff (hp : p < 8) (hmode : s.get R.DRV_CFG_MODE p ≠ 0) (hup : s.drvOff = false)
    (hon : s.get R.DRV_STAT_HWOFF p = 0) : Completes (.gateDriverFault p) s fun t => TurnedOff p s t ∧
      t.get R.DRV_STAT_GFLT p = 1 ∧ t.get H.GFLT_L p = 1 ∧
      t.get R.DRV_CNT_GFLT p = min (s.get R.DRV_CNT_GFLT p + 1) (2 ^ 32 - 1) ∧ t.get R.INT_DET_STICKY 0x13 = 1 := by
  have hlow : SetsPort [H.GFLT_L] p s (s.put H.GFLT_L 1 p) := (SetsPort.refl _ hp s).put (f := H.GFLT_L) 1
  have hsets : SetsPort [H.GFLT_L, R.DRV_STAT_GFLT, R.DRV_CNT_GFLT] p s
      (((s.put H.GFLT_L 1 p).put R.DRV_STAT_GFLT 1 p).incSat R.DRV_CNT_GFLT p) :=
    (((SetsPort.refl _ hp s).put (f := H.GFLT_L) 1).put (f := R.DRV_STAT_GFLT) 1).put (f := R.DRV_CNT_GFLT) _
  have hon' := (hsets.own (g := R.DRV_STAT_HWOFF)).trans hon
  have hdom : (s.put H.GFLT_L 1 p).drvOff = false := by
    unfold State.drvOff State.domDown
    rw [hlow.get (by decide), hlow.get (by decide)]
    exact hup
  have hmode' : (s.put H.GFLT_L 1 p).get R.DRV_CFG_MODE p ≠ 0 := by rwa [hlow.own (g := R.DRV_CFG_MODE)]
  have hexec : exec (.gateDriverFault p) s = .next ((s.put H.GFLT_L 1 p).gateFault p) := by
    show execGateDriverFault p s = _
    unfold execGateDriverFault
    rw [decide_eq_true hp, State.when_true]
  refine completes_of_eq hexec (if_neg (by simp [hdom, hmode', hp])) ⟨(hwOff_turnsOff hsets hon').report hp .., ?_, ?_, ?_,
    report_sticky (by decide) (by decide) ..⟩
  · rw [report_port (by decide) (by decide) hp, hwOff_port hp hon']
    simp (disch := decide) only [State.incSat, get_put_record hp, State.get_put_self]
    rfl
  · rw [report_port (by decide) (by decide) hp, hwOff_port hp hon']
    simp (disch := decide) only [State.incSat, get_put_record hp, State.get_put_self]
    rfl
  · rw [report_port (by decide) (by decide) hp, hwOff_port hp hon', incSat_counts]
    simp (disch := decide) only [get_put_record hp]
    rfl

/-! ### Ellipses in a row (R315) -/

theorem ellipsisHwoff_turnsOff (hp : p < 8) (hrun : 8 ≤ s.get R.DRV_STAT_ELL_CONSEC p) (hon : s.get R.DRV_STAT_HWOFF p = 0) :
    Completes (.ellipsisHwoff p) s fun t => TurnedOff p s t ∧ t.get R.INT_DET_STICKY 0x16 = 1 :=
  completes_of_eq rfl (if_pos ⟨hp, hrun⟩) ⟨(hwOff_turnsOff (SetsPort.refl [] hp s) hon).report hp ..,
    report_sticky (by decide) (by decide) ..⟩

theorem ellipsisTorqueLimit_limits (hp : p < 8) (hrun : 5 ≤ s.get R.DRV_STAT_ELL_CONSEC p) :
    Completes (.ellipsisTorqueLimit p) s fun t => t.get R.DRV_STAT_TLIM_ELL p = 1 ∧ t.get R.INT_DET_STICKY 0x16 = 1 ∧
      t.mem = s.mem ∧ t.axEvs = s.axEvs := by
  have hsets := report_sets (code := 0x16) (by decide) (by decide) (s.put R.DRV_STAT_TLIM_ELL 1 p) p (s.dpAxis p) 0
  refine completes_of_eq rfl (if_pos ⟨hp, hrun⟩) ⟨?_, report_sticky (by decide) (by decide) .., hsets.mem, hsets.axEvs⟩
  exact (report_port (by decide) (by decide) hp ..).trans (State.get_put_of_lt _ _ _ (by decide))

theorem ellipsisLimitEnd_ends (hp : p < 8) (hrun : 16 ≤ s.get H.DP_MEAS p) : Completes (.ellipsisLimitEnd p) s fun t =>
    t.get R.DRV_STAT_TLIM_ELL p = 0 ∧ OnlyRegs [fkey R.DRV_STAT_TLIM_ELL p 0] s t :=
  completes_of_eq rfl (if_pos ⟨hp, hrun⟩) ⟨State.get_put_of_lt _ _ _ (by decide),
    (OnlyRegs.refl _ s).put (List.mem_singleton_self _) _⟩

/-! ### A chopper fault (R326, R327) -/

/-- The places of the bit that says motoring only. -/
def motoringPlaces : List Nat := (List.range 8).map fun q => fkey R.DRV_STAT_TLIM_CHOP q 0

theorem motoringPlaces_apart : ∀ q < 8, fkey R.DRV_CFG_BUSGRP q 0 ∉ motoringPlaces ∧
    fkey R.DRV_STAT_CHOPF q 0 ∉ motoringPlaces ∧ fkey R.DRV_CNT_CHOPF q 0 ∉ motoringPlaces := by decide +kernel

theorem motoringOnly_only (s : State) : OnlyRegs motoringPlaces s s.motoringOnly :=
  OnlyRegs.each (fun v _ hq => (OnlyRegs.refl _ v).put (List.mem_map_of_mem (f := fun q => fkey R.DRV_STAT_TLIM_CHOP q 0) hq) _) s

/-- The bus groups and the chopper faults of the ports read the same. -/
def SameFaults (s t : State) : Prop :=
  ∀ q < 8, t.get R.DRV_CFG_BUSGRP q = s.get R.DRV_CFG_BUSGRP q ∧ t.get R.DRV_STAT_CHOPF q = s.get R.DRV_STAT_CHOPF q

/-- A bus group has a chopper fault. -/
def faulty (s : State) (g : Nat) : Bool := (s.busPorts g).any fun q => s.on R.DRV_STAT_CHOPF q

theorem busPorts_lt {g q : Nat} (h : q ∈ s.busPorts g) : q < 8 := List.mem_range.1 (List.mem_filter.1 h).1

theorem SameFaults.busPorts (h : SameFaults s t) (g : Nat) : t.busPorts g = s.busPorts g :=
  List.filter_congr fun q hq => by rw [(h q (List.mem_range.1 hq)).1]

theorem SameFaults.faulty (h : SameFaults s t) (g : Nat) : faulty t g = faulty s g := by
  unfold Claims.faulty
  rw [h.busPorts, Bool.eq_iff_iff, List.any_eq_true, List.any_eq_true]
  exact exists_congr fun q => and_congr_right fun hq => by rw [State.on, State.on, (h q (busPorts_lt hq)).2]

theorem SameFaults.of_only (h : OnlyRegs motoringPlaces s t) : SameFaults s t := by
  intro q hq
  obtain ⟨hgrp, hflt, -⟩ := motoringPlaces_apart q hq
  exact ⟨h.regs _ _ _ hgrp, h.regs _ _ _ hflt⟩

/-- Each port runs motoring only where its bus group has a chopper fault (R327). -/
theorem motoringOnly_get {q : Nat} (hq : q < 8) (s : State) :
    s.motoringOnly.get R.DRV_STAT_TLIM_CHOP q = b2n (faulty s (s.get R.DRV_CFG_BUSGRP q)) := by
  have hstep : ∀ (v : State) (b x : Nat), x < 8 → SameFaults v (v.put R.DRV_STAT_TLIM_CHOP b x) := fun v b x hx =>
    SameFaults.of_only ((OnlyRegs.refl _ v).put (List.mem_map_of_mem (f := fun q => fkey R.DRV_STAT_TLIM_CHOP q 0)
      (List.mem_range.2 hx)) b)
  obtain ⟨v, hv, -, hlast⟩ := each_at (s := s) (P := SameFaults s) (g := fun t => t.get R.DRV_STAT_TLIM_CHOP q)
    (f := fun s p => s.put R.DRV_STAT_TLIM_CHOP (b2n (faulty s (s.get R.DRV_CFG_BUSGRP p))) p) List.nodup_range
    (List.mem_range.2 hq)
    (fun v x hx hv r hr => by
      obtain ⟨hgrp, hflt⟩ := hstep v (b2n (faulty v (v.get R.DRV_CFG_BUSGRP x))) x (List.mem_range.1 hx) r hr
      exact ⟨hgrp.trans (hv r hr).1, hflt.trans (hv r hr).2⟩)
    (fun v x hx hxq => State.get_put_ne _ _ (fkey_ne_of_spread (by decide) (Nat.zero_le _) (Nat.zero_le _) hxq))
    (fun _ _ => ⟨rfl, rfl⟩)
  refine hlast.trans ((State.get_put_of_lt _ _ _ (Nat.lt_succ_of_le (b2n_le _))).trans ?_)
  rw [hv.faulty, (hv q hq).1]

/-- A chopper fault latched, counted and reported. -/
def chopNoted (s : State) (p : Nat) : State :=
  ((s.put R.DRV_STAT_CHOPF 1 p).incSat R.DRV_CNT_CHOPF p).report 0x15 p (s.dpAxis p) 0

theorem chopNoted_sets (hp : p < 8) (s : State) :
    SetsPort [R.DRV_STAT_CHOPF, R.DRV_CNT_CHOPF] p s ((s.put R.DRV_STAT_CHOPF 1 p).incSat R.DRV_CNT_CHOPF p) :=
  ((SetsPort.refl _ hp s).put (f := R.DRV_STAT_CHOPF) 1).put (f := R.DRV_CNT_CHOPF) _

theorem chopNoted_quiet (hp : p < 8) (s : State) : (chopNoted s p).mem = s.mem ∧ (chopNoted s p).axEvs = s.axEvs := by
  have hsets := chopNoted_sets hp s
  have hrep := report_sets (code := 0x15) (by decide) (by decide) ((s.put R.DRV_STAT_CHOPF 1 p).incSat R.DRV_CNT_CHOPF p) p
    (s.dpAxis p) 0
  exact ⟨hrep.mem.trans hsets.mem, hrep.axEvs.trans hsets.axEvs⟩

theorem chopNoted_shows (hp : p < 8) (s : State) : (chopNoted s p).get R.DRV_STAT_CHOPF p = 1 ∧
    (chopNoted s p).get R.DRV_CNT_CHOPF p = min (s.get R.DRV_CNT_CHOPF p + 1) (2 ^ 32 - 1) := by
  unfold chopNoted
  rw [report_port (by decide) (by decide) hp, report_port (by decide) (by decide) hp, incSat_counts]
  simp (disch := decide) only [State.incSat, get_put_record hp, State.get_put_self]
  exact ⟨rfl, rfl⟩

theorem chopNoted_group {q : Nat} (hp : p < 8) (hq : q < 8) (s : State) :
    (chopNoted s p).get R.DRV_CFG_BUSGRP q = s.get R.DRV_CFG_BUSGRP q :=
  (report_port (by decide) (by decide) hq ..).trans ((chopNoted_sets hp s).get (Nat.le_of_lt_succ hq))

/-- Every port of the group of a port with a chopper fault runs motoring only. -/
theorem motoringOnly_ofFault {q : Nat} (hp : p < 8) (hflt : s.get R.DRV_STAT_CHOPF p = 1) (hq : q < 8)
    (hgrp : s.get R.DRV_CFG_BUSGRP q = s.get R.DRV_CFG_BUSGRP p) : s.motoringOnly.get R.DRV_STAT_TLIM_CHOP q = 1 := by
  have hfaulty : faulty s (s.get R.DRV_CFG_BUSGRP q) = true := List.any_eq_true.2 ⟨p, List.mem_filter.2
    ⟨List.mem_range.2 hp, by rw [hgrp, beq_self_eq_true]⟩, State.on_eq_true (by rw [hflt]; decide)⟩
  rw [motoringOnly_get hq, hfaulty]
  rfl

/-- CHOPPER_FAULT (R326, R327). -/
theorem chopperFault_latches (hp : p < 8) (hchop : s.get R.DRV_STAT_CHOP p ≠ 0) (hchs : s.get H.DP_CHS p = 0)
    (htime : 10 * s.get R.DRV_CHS_T p ≤ s.get H.DP_CHN p)
    (hrise : s.get H.DP_CHV p + s.get R.DRV_CHOP_RISE p ≤ s.get R.DRV_VBUS p) (hflt : s.get R.DRV_STAT_CHOPF p = 0) :
    Completes (.chopperFault p) s fun t => t.get R.DRV_STAT_CHOPF p = 1 ∧ t.mem = s.mem ∧ t.axEvs = s.axEvs ∧
      t.get R.DRV_CNT_CHOPF p = min (s.get R.DRV_CNT_CHOPF p + 1) (2 ^ 32 - 1) ∧
      ∀ q ∈ s.busPorts (s.get R.DRV_CFG_BUSGRP p), t.get R.DRV_STAT_TLIM_CHOP q = 1 := by
  obtain ⟨hmem, haxEvs⟩ := chopNoted_quiet hp s
  obtain ⟨hlatched, hcount⟩ := chopNoted_shows hp s
  have hmot := motoringOnly_only (chopNoted s p)
  have hexec : execChopperFault p s = .next (chopNoted s p).motoringOnly := by
    unfold execChopperFault
    rw [if_neg (by simp [State.on, hp, hchop, hchs, htime, hrise, hflt])]
    rfl
  obtain ⟨-, hflt', hcnt'⟩ := motoringPlaces_apart p hp
  refine ⟨_, hexec, (hmot.regs R.DRV_STAT_CHOPF p 0 hflt').trans hlatched, hmot.mem.trans hmem, hmot.axEvs.trans haxEvs,
    (hmot.regs R.DRV_CNT_CHOPF p 0 hcnt').trans hcount, fun q hq => ?_⟩
  have hgroup : s.get R.DRV_CFG_BUSGRP q = s.get R.DRV_CFG_BUSGRP p := beq_iff_eq.1 (List.mem_filter.1 hq).2
  exact motoringOnly_ofFault hp hlatched (busPorts_lt hq)
    ((chopNoted_group hp (busPorts_lt hq) s).trans (hgroup.trans (chopNoted_group hp hp s).symm))

/-- Settles O41: each fault of a port does what its lemma says. -/
theorem driveFaultsTurnPortOff : Obligations.DriveFaultsTurnPortOff := by
  unfold Obligations.DriveFaultsTurnPortOff
  intro p s hp
  refine ⟨fun hmode hov hon => ?_, fun hmode hup hon => ?_, fun hrun hon => ?_, chopperFault_latches hp,
    ellipsisTorqueLimit_limits hp, ellipsisLimitEnd_ends hp⟩
  · exact (ovTrip_turnsOff hp hmode hov hon).imp fun _ ht => ⟨ht.1.shows, ht.2⟩
  · exact (gateDriverFault_turnsOff hp hmode hup hon).imp fun _ ht => ⟨ht.1.shows, ht.2⟩
  · exact (ellipsisHwoff_turnsOff hp hrun hon).imp fun _ ht => ⟨ht.1.shows, ht.2⟩

end Sys2Proof.Claims
end

section
/-! PROOFS. What a conversion gives the ports (R304, R313, R314, R325, R329). -/

namespace Sys2Proof.Claims
open Sys2Proof.Machine

-- One proof after another: each thread has a stack of its own, and the text compiled at once is near its memory.
set_option Elab.async false

variable {s t u : State} {fs gs : List Fld} {p : Nat}

/-- A step of the port behind another. -/
theorem SetsPort.step (h : SetsPort fs p s t) (k : SetsPort gs p t u) (hs : gs ⊆ fs := by decide) : SetsPort fs p s u :=
  h.trans (k.mono hs)

theorem SetsPort.ite {c : Prop} [Decidable c] {v : State} (h : SetsPort fs p s t) (k : SetsPort fs p s v) :
    SetsPort fs p s (if c then t else v) := by
  split
  · exact h
  · exact k

/-! ### What a conversion writes at one port -/

theorem ofsAdd_sets (hp : p < 8) (s : State) (vals : List Nat) : SetsPort [H.DP_CALS, H.DP_CALN] p s (s.ofsAdd vals p) := by
  unfold State.ofsAdd
  split_ifs
  · exact SetsPort.refl _ hp s
  · exact ((SetsPort.refl _ hp s).each fun v j hj hv =>
      hv.put (f := H.DP_CALS) _ (hj := Nat.le_of_lt_succ (List.mem_range.1 hj))).put (f := H.DP_CALN) _

theorem chopper_sets (hp : p < 8) (s : State) (chs : Bool) :
    SetsPort [H.DP_CHSL, R.DRV_STAT_CHOP, H.DP_CHV, H.DP_CHN, H.DP_CHS] p s (s.chopper p chs) := by
  have hlevel := fun b => (SetsPort.refl [H.DP_CHSL, R.DRV_STAT_CHOP, H.DP_CHV, H.DP_CHN, H.DP_CHS] hp s).put
    (f := H.DP_CHSL) (j := 0) b
  unfold State.chopper
  dsimp only
  split_ifs
  · exact (hlevel _).put (f := R.DRV_STAT_CHOP) 0
  · exact ((((hlevel _).put (f := R.DRV_STAT_CHOP) 1).put (f := H.DP_CHV) _).put (f := H.DP_CHN) 0).put (f := H.DP_CHS) _
  · exact hlevel _
  · exact (hlevel _).put (f := R.DRV_STAT_CHOP) 0
  · exact ((hlevel _).put (f := H.DP_CHN) _).when (((hlevel _).put (f := H.DP_CHN) _).put (f := H.DP_CHS) 1)

theorem phaseRead_sets (hp : p < 8) (s : State) (vals : List Nat) : SetsPort [H.DP_IS, H.DP_SMP] p s (s.phaseRead vals p) := by
  have hread := fun g : State → Nat → Int => (SetsPort.refl [H.DP_IS, H.DP_SMP] hp s).each (l := List.range 3)
    (f := fun s j => s.puti H.DP_IS (g s j) p j) fun _ j hj hv => hv.put (f := H.DP_IS) _
      (hj := Nat.le_succ_of_le (Nat.le_of_lt_succ (List.mem_range.1 hj)))
  exact SetsPort.ite (SetsPort.refl _ hp s) ((hread _).put (f := H.DP_SMP) 1)

/-- The fields that the time of a conversion writes in a start or a calibration. -/
def startTickFields : List Fld := [H.DP_STN, H.DP_PPH, H.DP_PLS, H.DP_LEGN, H.DP_SVEC]

theorem startTick_sets (hp : p < 8) (s : State) : SetsPort startTickFields p s (s.startTick p) := by
  unfold State.startTick
  split_ifs
  · exact SetsPort.refl _ hp s
  · extract_lets s1 s2 s3 v was s4
    have h1 : SetsPort startTickFields p s s1 := (SetsPort.refl _ hp s).put (f := H.DP_STN) _
    have h2 : SetsPort startTickFields p s s2 :=
      h1.when (((h1.put (f := H.DP_PPH) 1).put (f := H.DP_STN) 0).put (f := H.DP_PLS) _)
    have h3 : SetsPort startTickFields p s s3 := h2.when ((h2.put (f := H.DP_PPH) 0).put (f := H.DP_STN) 0)
    have h4 : SetsPort startTickFields p s s4 := h3.each fun _ j hj hv => hv.put (f := H.DP_LEGN) 0
      (hj := Nat.le_of_lt_succ (List.mem_range.1 (List.mem_filter.1 hj).1))
    exact h4.put (f := H.DP_SVEC) v

/-! ### A conversion at one port, in parts -/

/-- The bus voltage of a conversion. -/
def convHead (s : State) (vals : List Nat) (p : Nat) : State :=
  (s.put R.DRV_VBUS (s.busVolt (vals.getD (32 + p) 0) p) p).put H.INJ_OVN (s.get H.INJ_OVN p - 1) p

/-- The offset averages and the chopper. -/
def convMid (s : State) (vals : List Nat) (chs p : Nat) : State :=
  let s := s.ofsAdd vals p
  let s := s.chopper p (bit chs p && !s.on H.INJ_CHS p)
  s.put H.INJ_CHS (s.get H.INJ_CHS p - 1) p

/-- What follows the undervoltage bit, the bus being at `v`. -/
def convTail (s : State) (vals : List Nat) (p v : Nat) : State :=
  let s := s.rdyUp p
  let s := if s.get R.DRV_OV_TRIP p ≤ v then s.incSat H.DP_OVN p else s.put H.DP_OVN 0 p
  let s := s.each (List.range 3) fun s j => s.incSat H.DP_LEGN p j
  let i := fun j => trunc 16 (s.shunt vals p j)
  if s.get R.DRV_CFG_MODE p = 1 then
    ((s.put R.DRV_I23 (s.get R.DRV_I23 p % 65536 + 65536 * i 3) p).phaseRead vals p).startTick p
  else s.each (List.range 4) fun s j => (s.incSat H.DP_PWT p).put H.DP_IS (i j) p j

theorem convPort_eq (s : State) (vals : List Nat) (chs p : Nat) : s.convPort vals chs false p =
    if (convHead s vals p).get R.DRV_CFG_MODE p = 0 then convHead s vals p
    else convTail ((convMid (convHead s vals p) vals chs p).put R.DRV_STAT_UV (b2n (decide ((convHead s vals p).get R.DRV_VBUS p <
      (convMid (convHead s vals p) vals chs p).get R.DRV_UV p))) p) vals p ((convHead s vals p).get R.DRV_VBUS p) := by
  unfold State.convPort convHead convMid convTail
  simp only [Bool.false_eq_true, if_false]

def convMidFields : List Fld :=
  [H.DP_CALS, H.DP_CALN, H.DP_CHSL, R.DRV_STAT_CHOP, H.DP_CHV, H.DP_CHN, H.DP_CHS, H.INJ_CHS]

def convTailFields : List Fld :=
  [R.DRV_STAT_RDY, H.DP_OVN, R.DRV_I23, H.DP_IS, H.DP_SMP, H.DP_PWT] ++ startTickFields

theorem convHead_sets (hp : p < 8) (s : State) (vals : List Nat) :
    SetsPort [R.DRV_VBUS, H.INJ_OVN] p s (convHead s vals p) :=
  ((SetsPort.refl _ hp s).put (f := R.DRV_VBUS) _).put (f := H.INJ_OVN) _

theorem convMid_sets (hp : p < 8) (s : State) (vals : List Nat) (chs : Nat) :
    SetsPort convMidFields p s (convMid s vals chs p) :=
  (((SetsPort.refl convMidFields hp s).step (ofsAdd_sets hp s vals)).step (chopper_sets hp _ _)).put (f := H.INJ_CHS) _

theorem convTail_sets (hp : p < 8) (s : State) (vals : List Nat) (v : Nat) :
    SetsPort convTailFields p s (convTail s vals p v) := by
  unfold convTail
  extract_lets s1 s2 s3 i
  have h1 : SetsPort convTailFields p s s1 := (SetsPort.refl _ hp s).put (f := R.DRV_STAT_RDY) _
  have h2 : SetsPort convTailFields p s s2 := (h1.put (f := H.DP_OVN) _).ite (h1.put (f := H.DP_OVN) 0)
  have h3 : SetsPort convTailFields p s s3 := h2.each fun _ j hj hv => hv.put (f := H.DP_LEGN) _
    (hj := Nat.le_of_lt_succ (List.mem_range.1 hj))
  exact (((h3.put (f := R.DRV_I23) _).step (phaseRead_sets hp _ vals)).step (startTick_sets hp _)).ite
    (h3.each fun _ j hj hv => (hv.put (f := H.DP_PWT) _).put (f := H.DP_IS) _ (hj := Nat.le_of_lt_succ (List.mem_range.1 hj)))

/-- The fields that a conversion writes at a port. -/
def convFields : List Fld := [R.DRV_VBUS, H.INJ_OVN, R.DRV_STAT_UV] ++ convMidFields ++ convTailFields

theorem convPort_sets (hp : p < 8) (s : State) (vals : List Nat) (chs : Nat) :
    SetsPort convFields p s (s.convPort vals chs false p) := by
  have hhead : SetsPort convFields p s (convHead s vals p) := (SetsPort.refl _ hp s).step (convHead_sets hp s vals)
  rw [convPort_eq]
  split_ifs
  · exact hhead
  · exact ((hhead.step (convMid_sets hp _ vals chs)).put (f := R.DRV_STAT_UV) _).step (convTail_sets hp _ vals _)

theorem convHead_vbus (hp : p < 8) (s : State) (vals : List Nat) :
    (convHead s vals p).get R.DRV_VBUS p = s.busVolt (vals.getD (32 + p) 0) p % 2 ^ 32 := by
  unfold convHead
  rw [get_put_record hp _ (by decide) (by decide) (by decide), State.get_put_self]
  rfl

/-- The bus voltage that a conversion shows (R302, R304). -/
theorem convPort_vbus (hp : p < 8) (s : State) (vals : List Nat) (chs : Nat) :
    (s.convPort vals chs false p).get R.DRV_VBUS p = s.busVolt (vals.getD (32 + p) 0) p % 2 ^ 32 := by
  rw [convPort_eq]
  split_ifs
  · exact convHead_vbus hp s vals
  · rw [(convTail_sets hp _ vals _).own, get_put_record hp _ (by decide) (by decide) (by decide), (convMid_sets hp _ vals chs).own,
      convHead_vbus hp]

/-- The undervoltage bit of a port that is in use (R329). -/
theorem convPort_uv (hp : p < 8) (hmode : s.get R.DRV_CFG_MODE p ≠ 0) (vals : List Nat) (chs : Nat) :
    (s.convPort vals chs false p).get R.DRV_STAT_UV p =
      b2n (decide ((s.convPort vals chs false p).get R.DRV_VBUS p < s.get R.DRV_UV p)) := by
  have hhead := convHead_sets hp s vals
  have huv : (convMid (convHead s vals p) vals chs p).get R.DRV_UV p = s.get R.DRV_UV p :=
    (convMid_sets hp _ vals chs).own.trans hhead.own
  rw [convPort_vbus hp, ← convHead_vbus hp, ← huv, convPort_eq, if_neg (by rwa [hhead.own (g := R.DRV_CFG_MODE)]),
    (convTail_sets hp _ vals _).own]
  exact State.get_put_of_lt _ _ _ (Nat.lt_succ_of_le (b2n_le _))

/-! ### The conversion at every port (R304) -/

/-- What the bus voltage of a port is read from, and what its undervoltage bit and its mode are. -/
def busReads (k : Nat) (s : State) : List Nat :=
  [s.get R.DRV_VBUS k, s.get R.DRV_STAT_UV k, s.get H.INJ_OVN k]

/-- What a conversion reads of a port and does not write. -/
structure SameBus (k : Nat) (s t : State) : Prop where
  mode : t.get R.DRV_CFG_MODE k = s.get R.DRV_CFG_MODE k
  uv : t.get R.DRV_UV k = s.get R.DRV_UV k
  scale : t.get R.DRV_VBUS_FS k = s.get R.DRV_VBUS_FS k
  injected : t.get H.INJ_OVA k = s.get H.INJ_OVA k

theorem SetsPort.sameBus {k : Nat} (h : SetsPort convFields p s t) (hk : k < 8) : SameBus k s t :=
  ⟨h.get (Nat.le_of_lt_succ hk), h.get (Nat.le_of_lt_succ hk), h.get (Nat.le_of_lt_succ hk), h.get (Nat.le_of_lt_succ hk)⟩

theorem SameBus.trans {k : Nat} (h : SameBus k s t) (h' : SameBus k t u) : SameBus k s u :=
  ⟨h'.mode.trans h.mode, h'.uv.trans h.uv, h'.scale.trans h.scale, h'.injected.trans h.injected⟩

theorem SetsPort.busReads_other {k : Nat} (h : SetsPort convFields p s t) (hk : k < 8) (hkp : k ≠ p) :
    busReads k t = busReads k s := by
  unfold busReads
  rw [h.other hk hkp, h.other (g := R.DRV_STAT_UV) hk hkp, h.other (g := H.INJ_OVN) hk hkp]

/-- The conversion at the ports, one after another. -/
def convPorts (s : State) (vals : List Nat) (chs : Nat) : State :=
  s.each (List.range 8) fun s p => s.convPort vals chs false p

theorem convPorts_quiet (s : State) (vals : List Nat) (chs : Nat) :
    (convPorts s vals chs).mem = s.mem ∧ lists (convPorts s vals chs) = lists s :=
  State.each_induction (P := fun t => t.mem = s.mem ∧ lists t = lists s) (fun t p hp ht => by
    have h := convPort_sets (List.mem_range.1 hp) t vals chs
    exact ⟨h.mem.trans ht.1, h.lists.trans ht.2⟩) ⟨rfl, rfl⟩

theorem convPorts_get {g : Fld} {i : Nat} (hi : i ≤ g.n - 1) (s : State) (vals : List Nat) (chs : Nat)
    (hg : (convFields.all fun f => f.disjoint g) = true := by decide) : (convPorts s vals chs).get g i = s.get g i :=
  State.each_induction (P := fun t => t.get g i = s.get g i) (fun t _ hp ht =>
    ((convPort_sets (List.mem_range.1 hp) t vals chs).get hi (Nat.zero_le _) hg).trans ht) rfl

/-- Each port shows its bus voltage, and whether it is too low. -/
theorem convPorts_bus {k : Nat} (hk : k < 8) (s : State) (vals : List Nat) (chs : Nat) :
    (convPorts s vals chs).get R.DRV_VBUS k = s.busVolt (vals.getD (32 + k) 0) k % 2 ^ 32 ∧
      (s.get R.DRV_CFG_MODE k ≠ 0 → (convPorts s vals chs).get R.DRV_STAT_UV k =
        b2n (decide ((convPorts s vals chs).get R.DRV_VBUS k < s.get R.DRV_UV k))) := by
  obtain ⟨v, hv, hreads, hlast⟩ := each_at (s := s) (P := SameBus k s) (g := busReads k)
    (f := fun s p => s.convPort vals chs false p) List.nodup_range (List.mem_range.2 hk)
    (fun t p hp ht => ht.trans ((convPort_sets (List.mem_range.1 hp) t vals chs).sameBus hk))
    (fun t _ hp hne => (convPort_sets (List.mem_range.1 hp) t vals chs).busReads_other hk hne.symm) ⟨rfl, rfl, rfl, rfl⟩
  simp only [busReads, List.cons.injEq, and_true] at hreads hlast
  obtain ⟨-, -, hinj⟩ := hreads
  obtain ⟨hvbus, huv, -⟩ := hlast
  have hvolt : v.busVolt (vals.getD (32 + k) 0) k = s.busVolt (vals.getD (32 + k) 0) k := by
    unfold State.busVolt State.on
    rw [hv.scale, hv.injected, hinj]
  refine ⟨hvbus.trans ((convPort_vbus hk v vals chs).trans (by rw [hvolt])), fun hmode => huv.trans ?_⟩
  rw [convPort_uv hk (by rwa [hv.mode]), hv.uv]
  exact congrArg (fun x => b2n (decide (x < s.get R.DRV_UV k))) hvbus.symm

/-- The analogue inputs take their values. -/
def anaShown (s : State) (vals : List Nat) : State := s.each (List.range 8) fun s k => s.put R.DRV_ANA (vals.getD (40 + k) 0) k

theorem anaShown_only (s : State) (vals : List Nat) :
    OnlyRegs ((List.range 8).map fun k => fkey R.DRV_ANA k 0) s (anaShown s vals) :=
  OnlyRegs.each (fun v _ hk => (OnlyRegs.refl _ v).put (List.mem_map_of_mem (f := fun k => fkey R.DRV_ANA k 0) hk) _) s

theorem anaShown_get {k : Nat} (hk : k < 8) (s : State) (vals : List Nat) :
    (anaShown s vals).get R.DRV_ANA k = vals.getD (40 + k) 0 % 2 ^ 16 := by
  obtain ⟨v, -, -, hlast⟩ := each_at (s := s) (P := fun _ => True) (g := fun t => t.get R.DRV_ANA k)
    (f := fun s k => s.put R.DRV_ANA (vals.getD (40 + k) 0) k) List.nodup_range (List.mem_range.2 hk) (fun _ _ _ _ => trivial)
    (fun _ _ _ hne => State.get_put_ne _ _ (fkey_ne_of_spread (by decide) (Nat.zero_le _) (Nat.zero_le _) hne)) trivial
  exact hlast.trans (State.get_put_self ..)

theorem anaShown_port {g : Fld} {k : Nat} (hk : k < 8) (s : State) (vals : List Nat)
    (hg : (R.DRV_ANA.disjoint g && decide (g.n = 8)) = true := by decide) : (anaShown s vals).get g k = s.get g k := by
  rw [Bool.and_eq_true, decide_eq_true_eq] at hg
  refine (anaShown_only s vals).regs _ _ _ fun hm => ?_
  obtain ⟨i, hi, he⟩ := List.mem_map.1 hm
  exact fkey_ne_of_disjoint hg.1 (Nat.le_of_lt_succ (List.mem_range.1 hi)) (Nat.zero_le _) (by omega) (Nat.zero_le _) he

/-- CONVERSION (R302, R304, R329). -/
theorem conversion_shows (chs : Nat) (vals : List Nat) (hup : s.drvOff = false) (href : s.get H.CV_REFN ≠ 4999) :
    Completes (.conversion vals chs) s fun t => t.mem = s.mem ∧ lists t = lists s ∧
      t.get H.CV_REFN = (s.get H.CV_REFN + 1) % 2 ^ 13 ∧ (∀ k < 8, t.get R.DRV_ANA k = vals.getD (40 + k) 0 % 2 ^ 16) ∧
      ∀ k < 8, t.get R.DRV_VBUS k = s.busVolt (vals.getD (32 + k) 0) k % 2 ^ 32 ∧
        (s.get R.DRV_CFG_MODE k ≠ 0 → t.get R.DRV_STAT_UV k = b2n (decide (t.get R.DRV_VBUS k < s.get R.DRV_UV k))) := by
  generalize hu : s.put H.CV_REFN (s.get H.CV_REFN + 1) = u
  have hexec : exec (.conversion vals chs) s = .next (anaShown (convPorts u vals chs) vals) := by
    show execConversion vals chs s = _
    have hn : (s.get H.CV_REFN == 4999) = false := by simpa using href
    unfold execConversion
    rw [hup]
    simp only [hn, Bool.false_eq_true, if_false, hu]
    rfl
  have honly : OnlyRegs [fkey H.CV_REFN 0 0] s u := hu ▸ (OnlyRegs.refl _ s).put (List.mem_singleton_self _) _
  have hsame : ∀ g : Fld, ∀ k < 8, (H.CV_REFN.disjoint g && decide (g.n = 8)) = true → u.get g k = s.get g k :=
    fun g k hk hg => by
      rw [Bool.and_eq_true, decide_eq_true_eq] at hg
      rw [← hu]
      exact State.get_put_ne _ _ (fkey_ne_of_disjoint hg.1 (by decide) (by decide) (by omega) (Nat.zero_le _))
  have hvolt : ∀ k < 8, ∀ v, u.busVolt v k = s.busVolt v k := fun k hk v => by
    unfold State.busVolt State.on
    rw [hsame _ k hk (by decide), hsame _ k hk (by decide), hsame _ k hk (by decide)]
  obtain ⟨hmem, hlists⟩ := convPorts_quiet u vals chs
  have hana := anaShown_only (convPorts u vals chs) vals
  refine ⟨_, hexec, hana.mem.trans (hmem.trans honly.mem), hana.lists.trans (hlists.trans honly.lists), ?_,
    fun k hk => anaShown_get hk .., fun k hk => ?_⟩
  · rw [hana.regs H.CV_REFN 0 0 (by decide), convPorts_get (by decide), ← hu, State.get_put_self]
    rfl
  · obtain ⟨hvbus, huv⟩ := convPorts_bus hk u vals chs
    rw [anaShown_port hk, anaShown_port hk, ← hvolt k hk, ← hsame R.DRV_UV k hk (by decide),
      ← hsame R.DRV_CFG_MODE k hk (by decide)]
    exact ⟨hvbus, huv⟩

end Sys2Proof.Claims
end

section
/-! PROOFS. Samples of the currents: the evaluation of a three-phase port and the valley of a two-phase one (R307, R310 to R315,
R321). -/

namespace Sys2Proof.Claims
open Sys2Proof.Machine

-- One proof after another: each thread has a stack of its own, and the text compiled at once is near its memory.
set_option Elab.async false

variable {s t u : State} {fs gs : List Fld} {p : Nat}

/-! ### Ellipses and samples (R314, R315) -/

/-- An Ellipsis since `s`: counted, in its run, and from the fifth of a run on with the limit. -/
structure EllipsisCounted (p : Nat) (s t : State) : Prop where
  count : t.get R.DRV_CNT_ELL p = min (s.get R.DRV_CNT_ELL p + 1) (2 ^ 32 - 1)
  run : t.get R.DRV_STAT_ELL_CONSEC p = min (s.get R.DRV_STAT_ELL_CONSEC p + 1) 15
  mem : t.mem = s.mem
  limit : 4 ≤ s.get R.DRV_STAT_ELL_CONSEC p → t.get R.DRV_STAT_TLIM_ELL p = 1

theorem EllipsisCounted.shows (h : EllipsisCounted p s t) :
    t.get R.DRV_CNT_ELL p = min (s.get R.DRV_CNT_ELL p + 1) (2 ^ 32 - 1) ∧
      t.get R.DRV_STAT_ELL_CONSEC p = min (s.get R.DRV_STAT_ELL_CONSEC p + 1) 15 ∧ t.mem = s.mem ∧
      (4 ≤ s.get R.DRV_STAT_ELL_CONSEC p → t.get R.DRV_STAT_TLIM_ELL p = 1) := ⟨h.count, h.run, h.mem, h.limit⟩

/-- The fields that a sample writes at a port. -/
def sampleFields : List Fld :=
  [R.DRV_CNT_ELL, R.DRV_STAT_ELL_CONSEC, H.DP_ELLP, R.DRV_STAT_TLIM_ELL, H.DP_MEAS, H.DP_ELLS]

theorem sampled_sets (hp : p < 8) (s : State) : SetsPort sampleFields p s (s.sampled p) :=
  (((SetsPort.refl _ hp s).put (f := R.DRV_STAT_ELL_CONSEC) 0).put (f := H.DP_MEAS) _).put (f := H.DP_ELLS) 0

theorem sampled_run (hp : p < 8) (s : State) : (s.sampled p).get R.DRV_STAT_ELL_CONSEC p = 0 := by
  unfold State.sampled State.incSat
  simp (disch := decide) only [get_put_record hp, State.get_put_self]
  rfl

/-- An Ellipsis counted, before what its run brings. -/
def ellCounted (s : State) (p : Nat) : State :=
  ((s.incSat R.DRV_CNT_ELL p).incSat R.DRV_STAT_ELL_CONSEC p).incSat H.DP_ELLP p

/-- The limit from the fifth Ellipsis of a run on. -/
def ellLimited (s : State) (p : Nat) : State :=
  s.when (decide (5 ≤ s.get R.DRV_STAT_ELL_CONSEC p)) fun s => s.put R.DRV_STAT_TLIM_ELL 1 p

theorem ellCounted_sets (hp : p < 8) (s : State) :
    SetsPort [R.DRV_CNT_ELL, R.DRV_STAT_ELL_CONSEC, H.DP_ELLP] p s (ellCounted s p) :=
  (((SetsPort.refl _ hp s).put (f := R.DRV_CNT_ELL) _).put (f := R.DRV_STAT_ELL_CONSEC) _).put (f := H.DP_ELLP) _

theorem ellLimited_sets (hp : p < 8) (s : State) : SetsPort [R.DRV_STAT_TLIM_ELL] p s (ellLimited s p) :=
  (SetsPort.refl _ hp s).when ((SetsPort.refl _ hp s).put (f := R.DRV_STAT_TLIM_ELL) 1)

theorem ellipsis_rest (hp : p < 8) (s : State) :
    SetsPort [H.DP_MEAS, H.DP_ELLS] p (ellLimited (ellCounted s p) p) (s.ellipsis p) :=
  ((SetsPort.refl _ hp _).put (f := H.DP_MEAS) 0).put (f := H.DP_ELLS) 1

theorem ellipsis_sets (hp : p < 8) (s : State) : SetsPort sampleFields p s (s.ellipsis p) :=
  (((SetsPort.refl sampleFields hp s).step (ellCounted_sets hp s)).step (ellLimited_sets hp _)).step (ellipsis_rest hp s)

theorem ellCounted_shows (hp : p < 8) (s : State) :
    (ellCounted s p).get R.DRV_CNT_ELL p = min (s.get R.DRV_CNT_ELL p + 1) (2 ^ 32 - 1) ∧
      (ellCounted s p).get R.DRV_STAT_ELL_CONSEC p = min (s.get R.DRV_STAT_ELL_CONSEC p + 1) 15 := by
  have hcnt : SetsPort [R.DRV_CNT_ELL] p s (s.incSat R.DRV_CNT_ELL p) := (SetsPort.refl _ hp s).put (f := R.DRV_CNT_ELL) _
  have hrun : SetsPort [R.DRV_STAT_ELL_CONSEC, H.DP_ELLP] p (s.incSat R.DRV_CNT_ELL p) (ellCounted s p) :=
    ((SetsPort.refl _ hp _).put (f := R.DRV_STAT_ELL_CONSEC) _).put (f := H.DP_ELLP) _
  have hlast : SetsPort [H.DP_ELLP] p ((s.incSat R.DRV_CNT_ELL p).incSat R.DRV_STAT_ELL_CONSEC p) (ellCounted s p) :=
    (SetsPort.refl _ hp _).put (f := H.DP_ELLP) _
  constructor
  · exact (hrun.own (g := R.DRV_CNT_ELL)).trans (incSat_counts ..)
  · rw [hlast.own (g := R.DRV_STAT_ELL_CONSEC), incSat_counts, hcnt.own (g := R.DRV_STAT_ELL_CONSEC)]
    rfl

theorem ellLimited_limit (h : 5 ≤ s.get R.DRV_STAT_ELL_CONSEC p) : (ellLimited s p).get R.DRV_STAT_TLIM_ELL p = 1 := by
  unfold ellLimited
  rw [decide_eq_true h, State.when_true]
  exact State.get_put_of_lt _ _ _ (by decide)

/-- An Ellipsis behind steps of the port that leave its counts. -/
theorem ellipsis_counted (h : SetsPort fs p s t)
    (hf : ([R.DRV_CNT_ELL, R.DRV_STAT_ELL_CONSEC].all fun g => fs.all fun f => f.disjoint g) = true := by decide) :
    EllipsisCounted p s (t.ellipsis p) := by
  have hp := h.port
  simp only [List.all_cons, List.all_nil, Bool.and_true, Bool.and_eq_true] at hf
  obtain ⟨hcnt, hrun⟩ := ellCounted_shows hp t
  have hlim := ellLimited_sets hp (ellCounted t p)
  have hrest := ellipsis_rest hp t
  rw [h.get (g := R.DRV_CNT_ELL) (Nat.le_of_lt_succ hp) (Nat.zero_le _) hf.1] at hcnt
  rw [h.get (g := R.DRV_STAT_ELL_CONSEC) (Nat.le_of_lt_succ hp) (Nat.zero_le _) hf.2] at hrun
  refine ⟨hrest.own.trans (hlim.own.trans hcnt), hrest.own.trans (hlim.own.trans hrun),
    (ellipsis_sets hp t).mem.trans h.mem, fun hmany => hrest.own.trans (ellLimited_limit ?_)⟩
  rw [hrun]
  omega

/-- Steps that leave the counts and the limit. -/
theorem EllipsisCounted.after (h : EllipsisCounted p s t) (k : SetsPort fs p t u)
    (hf : ([R.DRV_CNT_ELL, R.DRV_STAT_ELL_CONSEC, R.DRV_STAT_TLIM_ELL].all fun g => fs.all fun f => f.disjoint g) = true :=
      by decide) : EllipsisCounted p s u := by
  simp only [List.all_cons, List.all_nil, Bool.and_true, Bool.and_eq_true] at hf
  obtain ⟨hcnt, hrun, hlim⟩ := hf
  have hp := Nat.le_of_lt_succ k.port
  exact ⟨(k.get (g := R.DRV_CNT_ELL) hp (Nat.zero_le _) hcnt).trans h.count,
    (k.get (g := R.DRV_STAT_ELL_CONSEC) hp (Nat.zero_le _) hrun).trans h.run, k.mem.trans h.mem,
    fun hmany => (k.get (g := R.DRV_STAT_TLIM_ELL) hp (Nat.zero_le _) hlim).trans (h.limit hmany)⟩

/-! ### The sample of an evaluation (R314) -/

/-- The currents of the latest readable instant. -/
def currentsTaken (s : State) (p : Nat) : State := s.each (List.range 3) fun s j => s.put H.DP_I (s.get H.DP_IS p j) p j

/-- The predicted ones. -/
def currentsPredicted (s : State) (p : Nat) : State := s.each (List.range 3) fun v j => v.puti H.DP_I (s.predicted p j) p j

/-- The end of a sample: the registers show it, and the instant is used up. -/
def sampleShown (s : State) (p : Nat) : State := (s.put H.DP_SMP 0 p).showCurrents p

theorem currentsTaken_sets (hp : p < 8) (s : State) : SetsPort [H.DP_I] p s (currentsTaken s p) :=
  (SetsPort.refl _ hp s).each fun _ _ hj hv => hv.put (f := H.DP_I) _ (hj := Nat.le_of_lt_succ (List.mem_range.1 hj))

theorem currentsPredicted_sets (hp : p < 8) (s : State) : SetsPort [H.DP_I] p s (currentsPredicted s p) :=
  (SetsPort.refl _ hp s).each fun _ _ hj hv => hv.put (f := H.DP_I) _ (hj := Nat.le_of_lt_succ (List.mem_range.1 hj))

theorem currentsTaken_get {j : Nat} (hp : p < 8) (hj : j < 3) (s : State) :
    (currentsTaken s p).get H.DP_I p j = s.get H.DP_IS p j % 2 ^ 16 := by
  obtain ⟨v, hv, -, hlast⟩ := each_at (s := s) (P := fun t => t.get H.DP_IS p j = s.get H.DP_IS p j)
    (g := fun t => t.get H.DP_I p j) (f := fun s j => s.put H.DP_I (s.get H.DP_IS p j) p j) List.nodup_range
    (List.mem_range.2 hj)
    (fun t k hk ht => (get_put_record hp _ (by decide) (Nat.le_of_lt_succ (List.mem_range.1 hk))
      (Nat.le_succ_of_le (Nat.le_of_lt_succ hj))).trans ht)
    (fun _ _ _ hne => State.get_put_ne _ _ (by simp only [fkey, H.DP_I]; omega)) rfl
  exact hlast.trans ((State.get_put_self ..).trans (by rw [hv]; rfl))

theorem sampleShown_sets (hp : p < 8) (s : State) :
    SetsPort [H.DP_SMP, R.DRV_I01, R.DRV_I23] p s (sampleShown s p) :=
  (((SetsPort.refl _ hp s).put (f := H.DP_SMP) 0).put (f := R.DRV_I01) _).put (f := R.DRV_I23) _

theorem sampleShown_used (hp : p < 8) (s : State) : (sampleShown s p).get H.DP_SMP p = 0 := by
  unfold sampleShown State.showCurrents
  simp (disch := decide) only [get_put_record hp, State.get_put_self]
  rfl

/-- The count of the current samples that an injection makes unreadable goes down (R458). -/
def injPassed (s : State) (p : Nat) : State := s.put H.INJ_ELL (s.get H.INJ_ELL p - 1) p

theorem injPassed_sets (hp : p < 8) (s : State) : SetsPort [H.INJ_ELL] p s (injPassed s p) :=
  (SetsPort.refl _ hp s).put (f := H.INJ_ELL) _

/-- A sample measured, where no injection hides it. -/
theorem takeSample_measured (hp : p < 8) (hinj : s.get H.INJ_ELL p = 0) (hsmp : s.get H.DP_SMP p ≠ 0) :
    s.takeSample p = sampleShown ((currentsTaken (injPassed s p) p).sampled p) p := by
  have hsmp' : (injPassed s p).on H.DP_SMP p = true := State.on_eq_true (by rwa [(injPassed_sets hp s).own])
  unfold State.takeSample
  rw [State.on_eq_false hinj]
  exact congrArg (fun u => sampleShown u p) (if_pos (by rw [Bool.and_eq_true]; exact ⟨hsmp', rfl⟩))

/-- A sample that no readable instant gave. -/
theorem takeSample_predicted (hp : p < 8) (hsmp : s.get H.DP_SMP p = 0) :
    s.takeSample p = sampleShown ((currentsPredicted (injPassed s p) p).ellipsis p) p := by
  have hsmp' : (injPassed s p).on H.DP_SMP p = false := State.on_eq_false (by rwa [(injPassed_sets hp s).own])
  unfold State.takeSample
  exact congrArg (fun u => sampleShown u p) (if_neg fun h => by
    rw [Bool.and_eq_true] at h
    exact Bool.false_ne_true (hsmp'.symm.trans h.1))

/-! ### The evaluation (R307, R310 to R313) -/

/-- The estimator, the comparators and the vector, behind the sample. -/
def controlled (s : State) (p : Nat) : State :=
  let s := s.estimate p
  let fr : Int := if s.get H.DP_START p = 3 then 0 else s.geti H.DP_REF p 1
  let terr := s.trqRef p - s.geti R.DRV_TQE p
  let ref : Int := s.get R.DRV_FLUX_REF p
  let ferr := 2 * fr * ref - 2147483648 * (s.get R.DRV_FLUX_EST p : Int)
  let s := s.put H.DP_CTQ (cmpTorque (s.get H.DP_CTQ p) terr (s.get R.DRV_TBAND p)) p
  let s := s.put H.DP_CFL (cmpFlux (s.get H.DP_CFL p) ferr (s.get R.DRV_FBAND p * s.get R.DRV_FLUX_REF p : Nat)) p
  s.applyVec p (s.selected p)

theorem evaluate_eq (s : State) (p : Nat) :
    s.evaluate p = (controlled ((s.incSat H.DP_EVK p).takeSample p) p).when
      ((controlled ((s.incSat H.DP_EVK p).takeSample p) p).get H.DP_START p == 3 &&
        (controlled ((s.incSat H.DP_EVK p).takeSample p) p).slow p) fun s => (s.stageAt p 2).put H.DP_PLS 0 p := rfl

/-- The fields that the control writes at a port. -/
def controlFields : List Fld :=
  [H.DP_PSI, R.DRV_FLUX_EST, R.DRV_TQE, R.DRV_ANGLE, H.DP_POSU, H.DP_SPEED, H.DP_CTQ, H.DP_CFL, H.DP_LEGN, H.DP_LEG]

theorem estimate_sets (hp : p < 8) (s : State) : SetsPort controlFields p s (s.estimate p) := by
  unfold State.estimate State.angleTo
  extract_lets pa pb s1 s2 s3 ang
  have h1 : SetsPort controlFields p s s1 :=
    ((SetsPort.refl _ hp s).put (f := H.DP_PSI) (j := 0) _).put (f := H.DP_PSI) (j := 1) _
  have h2 : SetsPort controlFields p s s2 := h1.put (f := R.DRV_FLUX_EST) _
  have h3 : SetsPort controlFields p s s3 := h2.put (f := R.DRV_TQE) _
  exact ((h3.put (f := R.DRV_ANGLE) _).put (f := H.DP_POSU) _).put (f := H.DP_SPEED) _

theorem applyVec_sets (hp : p < 8) (s : State) (v : Nat) : SetsPort controlFields p s (s.applyVec p v) := by
  have hlegs := (SetsPort.refl controlFields hp s).each (l := (List.range 3).filter fun j => bit (s.get H.DP_LEG p ^^^ v) (2 - j))
    (f := fun s j => s.put H.DP_LEGN 0 p j) fun _ _ hj hv => hv.put (f := H.DP_LEGN) 0
      (hj := Nat.le_of_lt_succ (List.mem_range.1 (List.mem_filter.1 hj).1))
  exact (SetsPort.refl _ hp s).ite (hlegs.put (f := H.DP_LEG) v)

theorem controlled_sets (hp : p < 8) (s : State) : SetsPort controlFields p s (controlled s p) :=
  (((estimate_sets hp s).put (f := H.DP_CTQ) _).put (f := H.DP_CFL) _).trans (applyVec_sets hp _ _)

/-- The evaluation of a port that runs, behind its sample. -/
theorem evaluate_sets (hp : p < 8) (hstart : ((s.incSat H.DP_EVK p).takeSample p).get H.DP_START p = 4) :
    SetsPort controlFields p ((s.incSat H.DP_EVK p).takeSample p) (s.evaluate p) := by
  have hsets := controlled_sets hp ((s.incSat H.DP_EVK p).takeSample p)
  have hrun : (controlled ((s.incSat H.DP_EVK p).takeSample p) p).get H.DP_START p = 4 := hsets.own.trans hstart
  rw [evaluate_eq, hrun]
  exact hsets

/-- DTC_EVALUATION of a port that runs. -/
theorem exec_dtcEvaluation (hp : p < 8) (hmode : s.get R.DRV_CFG_MODE p = 1) (hon : s.get R.DRV_STAT_HWOFF p = 0)
    (hstart : s.get H.DP_START p = 4) (hen : s.get H.DP_EN p ≠ 0) (hn : s.get H.DP_EVK p < s.evalN p) :
    exec (.dtcEvaluation p) s = .next (s.evaluate p) := by
  show execDtcEvaluation p s = _
  unfold execDtcEvaluation
  rw [if_neg (by simp [State.on, hp, hmode, hon]), if_pos (.inr ⟨hstart, State.on_eq_true hen⟩), if_pos hn]

theorem evaluation_begins (hp : p < 8) (s : State) :
    SetsPort [H.DP_EVK, H.INJ_ELL] p s (injPassed (s.incSat H.DP_EVK p) p) :=
  ((SetsPort.refl _ hp s).put (f := H.DP_EVK) _).step (injPassed_sets hp _)

theorem dtcEvaluation_measures (hp : p < 8) (hmode : s.get R.DRV_CFG_MODE p = 1) (hon : s.get R.DRV_STAT_HWOFF p = 0)
    (hstart : s.get H.DP_START p = 4) (hen : s.get H.DP_EN p ≠ 0) (hn : s.get H.DP_EVK p < s.evalN p)
    (hinj : s.get H.INJ_ELL p = 0) (hsmp : s.get H.DP_SMP p ≠ 0) : Completes (.dtcEvaluation p) s fun t =>
      t.get R.DRV_STAT_ELL_CONSEC p = 0 ∧ t.get H.DP_SMP p = 0 ∧ t.mem = s.mem ∧
        ∀ j < 3, t.get H.DP_I p j = s.get H.DP_IS p j % 2 ^ 16 := by
  have hevk : SetsPort [H.DP_EVK] p s (s.incSat H.DP_EVK p) := (SetsPort.refl _ hp s).put (f := H.DP_EVK) _
  have hbegun := evaluation_begins hp s
  have htake := takeSample_measured hp (hevk.own.trans hinj) (by rwa [hevk.own (g := H.DP_SMP)])
  generalize injPassed (s.incSat H.DP_EVK p) p = v at hbegun htake
  have hcur := currentsTaken_sets hp v
  have hsam := sampled_sets hp (currentsTaken v p)
  have hshown := sampleShown_sets hp ((currentsTaken v p).sampled p)
  have hctl := evaluate_sets hp (by rw [htake, hshown.own, hsam.own, hcur.own, hbegun.own, hstart])
  rw [htake] at hctl
  refine ⟨_, exec_dtcEvaluation hp hmode hon hstart hen hn, ?_, ?_, ?_, fun j hj => ?_⟩
  · rw [hctl.own, hshown.own, sampled_run hp]
  · rw [hctl.own, sampleShown_used hp]
  · rw [hctl.mem, hshown.mem, hsam.mem, hcur.mem, hbegun.mem]
  · have hj3 : j ≤ 2 := Nat.le_of_lt_succ hj
    rw [hctl.own (hj := hj3), hshown.own (hj := hj3), hsam.own (hj := hj3), currentsTaken_get hp hj,
      hbegun.own (hj := Nat.le_succ_of_le hj3)]

theorem dtcEvaluation_predicts (hp : p < 8) (hmode : s.get R.DRV_CFG_MODE p = 1) (hon : s.get R.DRV_STAT_HWOFF p = 0)
    (hstart : s.get H.DP_START p = 4) (hen : s.get H.DP_EN p ≠ 0) (hn : s.get H.DP_EVK p < s.evalN p)
    (hsmp : s.get H.DP_SMP p = 0) : Completes (.dtcEvaluation p) s (EllipsisCounted p s) := by
  have hevk : SetsPort [H.DP_EVK] p s (s.incSat H.DP_EVK p) := (SetsPort.refl _ hp s).put (f := H.DP_EVK) _
  have hbegun := evaluation_begins hp s
  have htake := takeSample_predicted hp (hevk.own.trans hsmp)
  generalize injPassed (s.incSat H.DP_EVK p) p = v at hbegun htake
  have hcur : SetsPort [H.DP_EVK, H.INJ_ELL, H.DP_I] p s (currentsPredicted v p) :=
    ((SetsPort.refl _ hp s).step hbegun).step (currentsPredicted_sets hp v)
  have hell := ellipsis_sets hp (currentsPredicted v p)
  have hshown := sampleShown_sets hp ((currentsPredicted v p).ellipsis p)
  have hctl := evaluate_sets hp (by rw [htake, hshown.own, hell.own, hcur.own, hstart])
  rw [htake] at hctl
  exact ⟨_, exec_dtcEvaluation hp hmode hon hstart hen hn, ((ellipsis_counted hcur).after hshown).after hctl⟩

/-- A port that does not run applies the zero vector (R313, R317). -/
theorem dtcEvaluation_idles (hp : p < 8) (hmode : s.get R.DRV_CFG_MODE p = 1) (hon : s.get R.DRV_STAT_HWOFF p = 0)
    (hstart : s.get H.DP_START p < 3) : Completes (.dtcEvaluation p) s fun t =>
      t.get H.DP_LEG p = 0 ∧ OnlyRegs [fkey H.DP_LEG p 0] s t := by
  have hexec : exec (.dtcEvaluation p) s = .next (s.put H.DP_LEG 0 p) := by
    show execDtcEvaluation p s = _
    unfold execDtcEvaluation
    rw [if_neg (by simp [State.on, hp, hmode, hon]), if_neg (by omega)]
  exact ⟨_, hexec, State.get_put_of_lt _ _ _ (by decide), (OnlyRegs.refl _ s).put (List.mem_singleton_self _) 0⟩

end Sys2Proof.Claims
end

section
/-! PROOFS. Two-phase ports: the current amplitude, its set points, and the valley of the PWM (R305, R307, R314, R321). -/

namespace Sys2Proof.Claims
open Sys2Proof.Machine

-- One proof after another: each thread has a stack of its own, and the text compiled at once is near its memory.
set_option Elab.async false

variable {s t u : State} {fs gs : List Fld} {p q c : Nat}

/-! ### The size of a cosine (R79) -/

theorem ediv_natAbs_le {a b : Int} {m : Nat} (hb : 0 < b) (hlo : -(m * b) ≤ a) (hhi : a ≤ m * b) : (a / b).natAbs ≤ m := by
  have h1 : -(m : Int) ≤ a / b := (Int.le_ediv_iff_mul_le hb).2 (by rwa [Int.neg_mul])
  have h2 : a / b ≤ m := Int.ediv_le_of_le_mul hb hhi
  omega

/-- No term of the series is greater than the one before it. -/
theorem trigTerm_natAbs_le {sq : Int} (h0 : 0 ≤ sq) (h1 : sq ≤ 2 ^ 64) (x : Int) {k : Nat} (hk : 0 < k) :
    (-(x * sq) / (2 ^ 64 * (k * (k + 1) : Nat))).natAbs ≤ x.natAbs := by
  have hkk : (1 : Int) ≤ (k * (k + 1) : Nat) := by exact_mod_cast Nat.mul_pos hk (Nat.succ_pos k)
  have hsize : (x * sq).natAbs ≤ x.natAbs * 2 ^ 64 := by
    rw [Int.natAbs_mul]
    exact Nat.mul_le_mul_left _ (by omega)
  have hden : (x.natAbs : Int) * 2 ^ 64 ≤ x.natAbs * (2 ^ 64 * (k * (k + 1) : Nat)) :=
    Int.mul_le_mul_of_nonneg_left (by omega) (Int.natCast_nonneg _)
  exact ediv_natAbs_le (by omega) (by omega) (by omega)

theorem trigSum_natAbs_le {sq : Int} (h0 : 0 ≤ sq) (h1 : sq ≤ 2 ^ 64) (n : Nat) (x : Int) {k : Nat} (hk : 0 < k) :
    (trigSum n x k sq).natAbs ≤ n * x.natAbs := by
  induction n generalizing x k with
  | zero => exact Nat.zero_le _
  | succ n ih =>
    have hterm := trigTerm_natAbs_le h0 h1 x hk
    have hrest := ih (-(x * sq) / (2 ^ 64 * (k * (k + 1) : Nat))) (Nat.add_pos_left hk 2)
    have hle := Nat.mul_le_mul_left n hterm
    unfold trigSum
    dsimp only
    rw [Nat.succ_mul]
    omega

/-- The angles of the series are less than one. -/
theorem radians64_le {r : Nat} (hr : r ≤ 2 ^ 61) : radians64 r ≤ 2 ^ 64 := by
  unfold radians64 twoPi64
  omega

theorem radians64_sq {r : Nat} (hr : r ≤ 2 ^ 61) :
    0 ≤ (radians64 r : Int) * radians64 r / 2 ^ 64 ∧ (radians64 r : Int) * radians64 r / 2 ^ 64 ≤ 2 ^ 64 := by
  have hle : radians64 r * radians64 r / 2 ^ 64 ≤ 2 ^ 64 :=
    Nat.div_le_of_le_mul (Nat.mul_le_mul (radians64_le hr) (radians64_le hr))
  constructor
  · exact_mod_cast Nat.zero_le _
  · exact_mod_cast hle

theorem sinFirst_natAbs_le (r : Nat) : (sinFirst r).natAbs ≤ 13 * 2 ^ 64 := by
  unfold sinFirst
  split_ifs with hr
  · obtain ⟨h0, h1⟩ := radians64_sq hr
    have hsum := trigSum_natAbs_le h0 h1 12 (radians64 r) (k := 2) (by decide)
    have hrad := radians64_le hr
    unfold sinSmall
    dsimp only
    omega
  · obtain ⟨h0, h1⟩ := radians64_sq (r := 2 ^ 62 - r) (by omega)
    have hsum := trigSum_natAbs_le h0 h1 12 (2 ^ 64) (k := 1) (by decide)
    unfold cosSmall
    dsimp only
    omega

theorem cos64_natAbs_le (r : Nat) : (cos64 r).natAbs ≤ 13 * 2 ^ 64 := by
  have h := fun x => sinFirst_natAbs_le x
  unfold cos64 sin64
  dsimp only
  split
  · exact h _
  · exact h _
  · exact (Int.natAbs_neg _).trans_le (h _)
  · exact (Int.natAbs_neg _).trans_le (h _)

/-- A cosine of a register takes no more than 35 bits. -/
theorem cosTurn_natAbs_le (n d : Nat) : (cosTurn n d).natAbs ≤ 2 ^ 34 := by
  have hcos := cos64_natAbs_le (turn64 (mkRat n d))
  have hasr : (asr (cos64 (turn64 (mkRat n d))) (64 - 30)).natAbs ≤ 13 * 2 ^ 30 :=
    ediv_natAbs_le (by decide) (by push_cast; omega) (by push_cast; omega)
  unfold cosTurn lastBit
  split_ifs
  · omega
  · omega

theorem sext_trunc {v : Int} (h : v.natAbs < 2 ^ 63) : sext 64 (trunc 64 v % 2 ^ 64) = v := by
  unfold sext trunc
  split_ifs
  · omega
  · omega

/-- A signed value of 64 bits reads back. -/
theorem geti_puti {f : Fld} {v : Int} (hf : f.width = 64) (h : v.natAbs < 2 ^ 63) (s : State) (i j : Nat) :
    (s.puti f v i j).geti f i j = v := by
  unfold State.geti State.puti
  rw [State.get_put_self, hf]
  exact sext_trunc h

/-! ### The current amplitude and its set points (R305, R321) -/

/-- What the current amplitude of a two-phase port is read from. -/
def ampFields : List Fld :=
  [H.DP_REF, H.DP_HOLD, R.DRV_ST_IHOLD, R.DRV_ST_IRUN, R.DRV_STAT_TLIM_ELL, R.DRV_STAT_TLIM_CHOP, H.DP_FALL]

theorem SetsPort.iamp (h : SetsPort fs p s t) (hf : (ampFields.all fun g => fs.all fun f => f.disjoint g) = true := by decide) :
    t.iamp p = s.iamp p := by
  have hget : ∀ g ∈ ampFields, ∀ j ≤ g.m - 1, t.get g p j = s.get g p j := fun g hg j hj =>
    h.get ((by decide : ∀ g ∈ ampFields, 7 ≤ g.n - 1) g hg |>.trans' (Nat.le_of_lt_succ h.port)) hj (List.all_eq_true.1 hf g hg)
  unfold State.iamp State.on
  rw [hget H.DP_REF (by decide) 2 (by decide), hget H.DP_HOLD (by decide) 0 (by decide),
    hget R.DRV_ST_IHOLD (by decide) 0 (by decide), hget R.DRV_ST_IRUN (by decide) 0 (by decide),
    hget R.DRV_STAT_TLIM_ELL (by decide) 0 (by decide), hget R.DRV_STAT_TLIM_CHOP (by decide) 0 (by decide),
    hget H.DP_FALL (by decide) 0 (by decide)]

theorem iamp_lt (s : State) (p : Nat) : s.iamp p < 2 ^ 32 := by
  have href := State.get_lt s H.DP_REF p 2
  have hhold := State.get_lt s R.DRV_ST_IHOLD p 0
  have hrun := State.get_lt s R.DRV_ST_IRUN p 0
  simp only [H.DP_REF, R.DRV_ST_IHOLD, R.DRV_ST_IRUN] at href hhold hrun
  unfold State.iamp
  dsimp only [H.DP_REF, R.DRV_ST_IHOLD, R.DRV_ST_IRUN]
  split_ifs
  all_goals omega

/-- A set point fits its field. -/
theorem setPoint_natAbs_lt (s : State) (p n d : Nat) : ((s.iamp p : Int) * cosTurn n d / 1073741824).natAbs < 2 ^ 63 := by
  have hmul : ((s.iamp p : Int) * cosTurn n d).natAbs ≤ 2 ^ 32 * 2 ^ 34 := by
    rw [Int.natAbs_mul]
    exact Nat.mul_le_mul (Nat.le_of_lt (iamp_lt s p)) (cosTurn_natAbs_le n d)
  have hdiv : ((s.iamp p : Int) * cosTurn n d / 1073741824).natAbs ≤ 2 ^ 36 :=
    ediv_natAbs_le (by decide) (by push_cast; omega) (by push_cast; omega)
  exact Nat.lt_of_le_of_lt hdiv (by decide)

/-- The port is driven at the angle that it had in `s`. -/
structure DrivenAt (p : Nat) (s t : State) : Prop where
  amp : t.get H.DP_IAMP p = t.iamp p % 2 ^ 32
  setA : t.geti H.DP_SETP p 0 = t.iamp p * cosTurn (s.theta p) 1024 / 1073741824
  setB : t.geti H.DP_SETP p 1 = t.iamp p * cosTurn ((s.theta p + 768) % 1024) 1024 / 1073741824

theorem DrivenAt.shows (h : DrivenAt p s t) : t.get H.DP_IAMP p = t.iamp p % 2 ^ 32 ∧
    t.geti H.DP_SETP p 0 = t.iamp p * cosTurn (s.theta p) 1024 / 1073741824 ∧
    t.geti H.DP_SETP p 1 = t.iamp p * cosTurn ((s.theta p + 768) % 1024) 1024 / 1073741824 := ⟨h.amp, h.setA, h.setB⟩

theorem setPoints_sets (hp : p < 8) (s : State) : SetsPort [H.DP_SETP] p s (s.setPoints p) :=
  ((SetsPort.refl _ hp s).put (f := H.DP_SETP) (j := 0) _).put (f := H.DP_SETP) (j := 1) _

theorem setPoints_get (s : State) (p : Nat) :
    (s.setPoints p).geti H.DP_SETP p 0 = s.iamp p * cosTurn (s.theta p) 1024 / 1073741824 ∧
      (s.setPoints p).geti H.DP_SETP p 1 = s.iamp p * cosTurn ((s.theta p + 768) % 1024) 1024 / 1073741824 := by
  have hapart : ∀ (u : State) (v : Nat), (u.put H.DP_SETP v p 1).geti H.DP_SETP p 0 = u.geti H.DP_SETP p 0 := fun u v =>
    congrArg (sext 64) (State.get_put_ne _ _ (by simp only [fkey, H.DP_SETP]; omega))
  constructor
  · exact (hapart _ _).trans (geti_puti rfl (setPoint_natAbs_lt ..) ..)
  · exact geti_puti rfl (setPoint_natAbs_lt ..) ..

theorem currentLoop_sets {k : Nat} (hp : p < 8) (hk : k < 2) (s : State) :
    SetsPort [H.DP_INT, H.DP_DUTY] p s (s.currentLoop p k) :=
  (((SetsPort.refl _ hp s).put (f := H.DP_INT) (j := k) _ (hj := Nat.le_of_lt_succ hk)).put (f := H.DP_DUTY) (j := 2 * k) _
    (hj := show 2 * k ≤ 3 by omega)).put (f := H.DP_DUTY) (j := 2 * k + 1) _ (hj := show 2 * k + 1 ≤ 3 by omega)

/-! ### The valley of the PWM (R307, R314, R321) -/

/-- A valley counted. -/
def valleyBegun (s : State) (p : Nat) : State := (s.incSat H.DP_EVK p).put H.DP_PWT 0 p

/-- The currents of the readable legs. -/
def valleyMeasured (s : State) (p : Nat) : State :=
  let i := fun j => s.get H.DP_IS p j
  let s := (s.puti H.DP_I (s.phaseCur p 0) p 0).puti H.DP_I (s.phaseCur p 1) p 1
  (s.put R.DRV_I01 (i 0 + 65536 * i 1) p).put R.DRV_I23 (i 2 + 65536 * i 3) p

/-- The predicted ones. -/
def valleyPredicted (s : State) (p : Nat) : State :=
  let a := s.predictedTwo p 0
  let b := s.predictedTwo p 1
  let w := fun i => trunc 16 i + 65536 * trunc 16 (satI 16 (-i))
  (((s.puti H.DP_I a p 0).puti H.DP_I b p 1).put R.DRV_I01 (w a) p).put R.DRV_I23 (w b) p

/-- The set points and the two current loops, behind the sample. -/
def valleyDriven (s : State) (p : Nat) : State :=
  ((((s.put H.DP_IAMP (s.iamp p) p).setPoints p).currentLoop p 0).currentLoop p 1)

theorem valleyBegun_sets (hp : p < 8) (s : State) : SetsPort [H.DP_EVK, H.DP_PWT] p s (valleyBegun s p) :=
  ((SetsPort.refl _ hp s).put (f := H.DP_EVK) _).put (f := H.DP_PWT) 0

theorem valleyMeasured_sets (hp : p < 8) (s : State) :
    SetsPort [H.DP_I, R.DRV_I01, R.DRV_I23] p s (valleyMeasured s p) :=
  ((((SetsPort.refl _ hp s).put (f := H.DP_I) (j := 0) _).put (f := H.DP_I) (j := 1) _).put (f := R.DRV_I01) _).put
    (f := R.DRV_I23) _

theorem valleyPredicted_sets (hp : p < 8) (s : State) :
    SetsPort [H.DP_I, R.DRV_I01, R.DRV_I23] p s (valleyPredicted s p) :=
  ((((SetsPort.refl _ hp s).put (f := H.DP_I) (j := 0) _).put (f := H.DP_I) (j := 1) _).put (f := R.DRV_I01) _).put
    (f := R.DRV_I23) _

/-- The fields that the drive of a valley writes. -/
def valleyDriveFields : List Fld := [H.DP_IAMP, H.DP_SETP, H.DP_INT, H.DP_DUTY]

theorem valleyLoops_sets (hp : p < 8) (s : State) :
    SetsPort [H.DP_INT, H.DP_DUTY] p ((s.put H.DP_IAMP (s.iamp p) p).setPoints p) (valleyDriven s p) :=
  (currentLoop_sets hp (by decide) _).trans (currentLoop_sets hp (by decide) _)

theorem valleyDriven_sets (hp : p < 8) (s : State) : SetsPort valleyDriveFields p s (valleyDriven s p) :=
  (((SetsPort.refl valleyDriveFields hp s).put (f := H.DP_IAMP) _).step (setPoints_sets hp _)).step (valleyLoops_sets hp s)

theorem valleyDriven_drives (h : SetsPort fs p s t) (hf : (fs.all fun f => f.disjoint R.DRV_MSTEP) = true := by decide) :
    DrivenAt p s (valleyDriven t p) := by
  have hp := h.port
  have hamp : SetsPort [H.DP_IAMP] p t (t.put H.DP_IAMP (t.iamp p) p) := (SetsPort.refl _ hp t).put (f := H.DP_IAMP) _
  have htheta : (t.put H.DP_IAMP (t.iamp p) p).theta p = s.theta p := by
    unfold State.theta
    rw [hamp.own (g := R.DRV_MSTEP), h.get (g := R.DRV_MSTEP) (Nat.le_of_lt_succ hp) (Nat.zero_le _) hf]
  obtain ⟨hA, hB⟩ := setPoints_get (t.put H.DP_IAMP (t.iamp p) p) p
  have hset := setPoints_sets hp (t.put H.DP_IAMP (t.iamp p) p)
  have hloop := valleyLoops_sets hp t
  have hsame : (valleyDriven t p).iamp p = (t.put H.DP_IAMP (t.iamp p) p).iamp p := hloop.iamp.trans hset.iamp
  refine ⟨?_, ?_, ?_⟩
  · rw [hloop.own (g := H.DP_IAMP), hset.own (g := H.DP_IAMP), hsame, hamp.iamp, State.get_put_self]
    rfl
  · rw [State.geti, hloop.own (g := H.DP_SETP) (j := 0), hsame, ← htheta]
    exact hA
  · rw [State.geti, hloop.own (g := H.DP_SETP) (j := 1), hsame, ← htheta]
    exact hB

theorem SetsPort.baseNs (h : SetsPort fs p s t)
    (hf : ([R.NRT_RCFG_EN, R.NRT_RCFG_CYC].all fun g => fs.all fun f => f.disjoint g) = true := by decide) :
    t.baseNs = s.baseNs := by
  simp only [List.all_cons, List.all_nil, Bool.and_true, Bool.and_eq_true] at hf
  obtain ⟨hen, hcyc⟩ := hf
  unfold State.baseNs State.ringCyc State.on
  rw [h.get (g := R.NRT_RCFG_EN) (i := 0) (by decide) (by decide) hen,
    h.get (g := R.NRT_RCFG_EN) (i := 1) (by decide) (by decide) hen,
    h.get (g := R.NRT_RCFG_CYC) (i := 0) (by decide) (by decide) hcyc,
    h.get (g := R.NRT_RCFG_CYC) (i := 1) (by decide) (by decide) hcyc]

/-- A valley counted leaves which legs are readable. -/
theorem valleyBegun_read (hp : p < 8) (s : State) : (valleyBegun s p).valleyRead p = s.valleyRead p := by
  have h := valleyBegun_sets hp s
  have hleg : ∀ j ≤ 3, (valleyBegun s p).valleyLeg p j = s.valleyLeg p j := fun j hj => by
    unfold State.valleyLeg State.pwmN
    rw [h.baseNs, h.own (g := R.DRV_DEAD), h.own (g := R.DRV_TSHUNT), h.own (g := R.DRV_FSW_MAX),
      h.own (g := H.DP_DUTY) (hj := hj)]
  unfold State.valleyRead
  rw [hleg 0 (by decide), hleg 1 (by decide), hleg 2 (by decide), hleg 3 (by decide)]

/-- A two-phase port that runs, with a valley to come in the base period. -/
structure ValleyDue (p : Nat) (s : State) : Prop where
  port : p < 8
  mode : s.get R.DRV_CFG_MODE p = 2
  start : s.get H.DP_START p = 4
  gates : s.get H.DP_EN p ≠ 0
  due : s.get H.DP_EVK p < s.pwmN p

/-- PWM_VALLEY of a port that runs. -/
theorem exec_pwmValley (h : ValleyDue p s) : exec (.pwmValley p) s = .next (valleyDriven
    (if (s.valleyRead p && !s.on H.INJ_ELL p) = true then (valleyMeasured (injPassed (valleyBegun s p) p) p).sampled p
      else (valleyPredicted (injPassed (valleyBegun s p) p) p).ellipsis p) p) := by
  have hinj : (valleyBegun s p).on H.INJ_ELL p = s.on H.INJ_ELL p := by
    unfold State.on
    rw [(valleyBegun_sets h.port s).own]
  show execPwmValley p s = _
  unfold execPwmValley
  rw [if_neg (by simp [State.on, h.port, h.mode, h.start, h.gates, h.due]), ← valleyBegun_read h.port, ← hinj]
  rfl

theorem valley_begins (hp : p < 8) (s : State) :
    SetsPort [H.DP_EVK, H.DP_PWT, H.INJ_ELL] p s (injPassed (valleyBegun s p) p) :=
  ((SetsPort.refl _ hp s).step (valleyBegun_sets hp s)).step (injPassed_sets hp _)

/-- The fields that a valley writes before its drive. -/
def valleyFields : List Fld := [H.DP_EVK, H.DP_PWT, H.INJ_ELL, H.DP_I, R.DRV_I01, R.DRV_I23]

theorem pwmValley_measures (h : ValleyDue p s) (hinj : s.get H.INJ_ELL p = 0) (hread : s.valleyRead p = true) :
    Completes (.pwmValley p) s fun t => DrivenAt p s t ∧ t.mem = s.mem ∧ t.get R.DRV_STAT_ELL_CONSEC p = 0 := by
  have hp := h.port
  have hmeas : SetsPort (valleyFields ++ sampleFields) p s (valleyMeasured (injPassed (valleyBegun s p) p) p) :=
    ((SetsPort.refl _ hp s).step (valley_begins hp s)).step (valleyMeasured_sets hp _)
  have hsam := hmeas.step (sampled_sets hp _)
  have hdriven := valleyDriven_sets hp ((valleyMeasured (injPassed (valleyBegun s p) p) p).sampled p)
  refine completes_of_eq (exec_pwmValley h) (by rw [hread, State.on_eq_false hinj]; rfl)
    ⟨valleyDriven_drives hsam, hdriven.mem.trans hsam.mem, hdriven.own.trans (sampled_run hp _)⟩

theorem pwmValley_predicts (h : ValleyDue p s) (hno : s.get H.INJ_ELL p ≠ 0 ∨ s.valleyRead p = false) :
    Completes (.pwmValley p) s fun t => EllipsisCounted p s t ∧ DrivenAt p s t := by
  have hp := h.port
  have hread : (s.valleyRead p && !s.on H.INJ_ELL p) = false := by
    rcases hno with hinj | hleg
    · rw [State.on_eq_true hinj, Bool.not_true, Bool.and_false]
    · rw [hleg, Bool.false_and]
  have hpred : SetsPort valleyFields p s (valleyPredicted (injPassed (valleyBegun s p) p) p) :=
    ((SetsPort.refl _ hp s).step (valley_begins hp s)).step (valleyPredicted_sets hp _)
  have hell : SetsPort (valleyFields ++ sampleFields) p s ((valleyPredicted (injPassed (valleyBegun s p) p) p).ellipsis p) :=
    ((SetsPort.refl _ hp s).step hpred).step (ellipsis_sets hp _)
  refine completes_of_eq (exec_pwmValley h) (by rw [hread]; rfl)
    ⟨(ellipsis_counted hpred).after (valleyDriven_sets hp _), valleyDriven_drives hell⟩

end Sys2Proof.Claims
end

section
/-! PROOFS. Steps, standstill, stalls and edges of the encoders (R309, R321, R322, R324, R334); and the samples and steps of the
ports, together. -/

namespace Sys2Proof.Claims
open Sys2Proof.Machine

-- One proof after another: each thread has a stack of its own, and the text compiled at once is near its memory.
set_option Elab.async false

variable {s t u : State} {fs gs : List Fld} {p q c : Nat}

/-! ### Microsteps (R321, R322, R324) -/

/-- The time of a microstep, with the change of the resolution that is due. -/
def stepSettled (s : State) (p : Nat) : State :=
  let s := s.put H.DP_NS (s.dpStepAt p) p
  if s.on H.DP_STNOW p then s.put H.DP_STNOW 0 p else s.resChange p

/-- The index of the next microstep at a speed. -/
def nextMicrostep (s : State) (p : Nat) (speed : Int) : Int :=
  if speed < 0 then (s.get R.DRV_MSTEP p : Int) - microCounts (s.get R.DRV_STAT_RES p)
  else (s.get R.DRV_MSTEP p : Int) + microCounts (s.get R.DRV_STAT_RES p)

/-- The step itself; the run current returns. -/
def stepMoved (s : State) (p : Nat) (speed : Int) : State :=
  let s := (s.put R.DRV_MSTEP (trunc 32 (nextMicrostep s p speed)) p).put H.DP_HOLD 0 p
  s.put H.DP_IAMP (s.iamp p) p

theorem resChange_sets (hp : p < 8) (s : State) : SetsPort [R.DRV_STAT_RES] p s (s.resChange p) :=
  SetsPort.ite ((SetsPort.refl _ hp s).put (f := R.DRV_STAT_RES) _) (SetsPort.refl _ hp s)

theorem stepSettled_sets (hp : p < 8) (s : State) :
    SetsPort [H.DP_NS, H.DP_STNOW, R.DRV_STAT_RES] p s (stepSettled s p) := by
  have htime : SetsPort [H.DP_NS, H.DP_STNOW, R.DRV_STAT_RES] p s (s.put H.DP_NS (s.dpStepAt p) p) :=
    (SetsPort.refl _ hp s).put (f := H.DP_NS) _
  exact SetsPort.ite (htime.put (f := H.DP_STNOW) 0) (htime.step (resChange_sets hp _))

theorem stepMoved_sets (hp : p < 8) (s : State) (speed : Int) :
    SetsPort [R.DRV_MSTEP, H.DP_HOLD, H.DP_IAMP] p s (stepMoved s p speed) :=
  (((SetsPort.refl _ hp s).put (f := R.DRV_MSTEP) _).put (f := H.DP_HOLD) 0).put (f := H.DP_IAMP) _

theorem stepMoved_moves (hp : p < 8) (s : State) (speed : Int) : (stepMoved s p speed).get H.DP_HOLD p = 0 ∧
    (stepMoved s p speed).get R.DRV_MSTEP p = trunc 32 (nextMicrostep s p speed) := by
  unfold stepMoved
  simp (disch := decide) only [get_put_record hp, State.get_put_self]
  exact ⟨rfl, Nat.mod_eq_of_lt (trunc_lt 32 _)⟩

theorem loadAngle_sets (hp : p < 8) (s : State) : SetsQuietly [H.DP_LAC, H.FREE] s (s.loadAngle p) := by
  have hcount := fun v => (SetsQuietly.refl [H.DP_LAC, H.FREE] s).put (f := H.DP_LAC) (i := p) (by decide)
    (Nat.le_of_lt_succ hp) v
  unfold State.loadAngle
  split_ifs
  · exact hcount 0
  · exact .refl _ s
  · exact (hcount _).put (f := H.FREE) (i := 0) (by decide) (by decide) _
  · exact (hcount 0).put (f := H.FREE) (i := 0) (by decide) (by decide) _

/-- A microstep of a port that runs, at its time. -/
theorem microStep_eq (hstart : s.get H.DP_START p = 4) (hen : s.get H.DP_EN p ≠ 0) (hrate : s.geti H.DP_RATE p ≠ 0)
    (htime : s.timeUp (s.dpStepAt p / 65536) = true) :
    s.microStep p = (stepMoved (stepSettled s p) p (s.geti H.DP_RATE p)).loadAngle p := by
  unfold State.microStep
  rw [if_neg (by simp [State.on, hstart, hen, hrate, htime])]
  unfold stepMoved nextMicrostep
  split_ifs
  · rfl
  · rfl

theorem stepIssue_microsteps (hp : p < 8) (hmode : s.get R.DRV_CFG_MODE p = 2) (hstart : s.get H.DP_START p = 4)
    (hen : s.get H.DP_EN p ≠ 0) (hrate : s.geti H.DP_RATE p ≠ 0) (htime : s.timeUp (s.dpStepAt p / 65536) = true) :
    Completes (.stepIssue true p) s fun t => t.get H.DP_HOLD p = 0 ∧ t.mem = s.mem ∧
      t.get R.DRV_MSTEP p = trunc 32 (if s.geti H.DP_RATE p < 0
        then (s.get R.DRV_MSTEP p : Int) - microCounts (t.get R.DRV_STAT_RES p)
        else (s.get R.DRV_MSTEP p : Int) + microCounts (t.get R.DRV_STAT_RES p)) := by
  have hset := stepSettled_sets hp s
  have hmove := stepMoved_sets hp (stepSettled s p) (s.geti H.DP_RATE p)
  have hload := loadAngle_sets hp (stepMoved (stepSettled s p) p (s.geti H.DP_RATE p))
  obtain ⟨hhold, hstep⟩ := stepMoved_moves hp (stepSettled s p) (s.geti H.DP_RATE p)
  have hport := Nat.le_of_lt_succ hp
  have hexec : exec (.stepIssue true p) s =
      .next ((stepMoved (stepSettled s p) p (s.geti H.DP_RATE p)).loadAngle p) := by
    rw [← microStep_eq hstart hen hrate htime]
    exact congrArg Host.Outcome.next (if_pos (c := p < 8 ∧ s.get R.DRV_CFG_MODE p = 2) ⟨hp, hmode⟩)
  refine ⟨_, hexec, (hload.regs H.DP_HOLD p 0 (by decide) hport (by decide)).trans hhold,
    hload.mem.trans (hmove.mem.trans hset.mem), ?_⟩
  rw [hload.regs R.DRV_MSTEP p 0 (by decide) hport (by decide), hload.regs R.DRV_STAT_RES p 0 (by decide) hport (by decide),
    hmove.own (g := R.DRV_STAT_RES), hstep, nextMicrostep, hset.own (g := R.DRV_MSTEP)]

/-! ### Pulse trains (R334) -/

/-- The places that a step of a pulse train writes. -/
def pulsePlaces (q : Nat) : List Nat :=
  [fkey R.PTG_COUNT q 0, fkey R.PTG_STAT_DIR q 0, fkey H.PT_DIRP q 0, fkey H.PT_NS q 0]

/-- A step of a pulse train: its time and direction, and the count that follows. -/
def pulseIssued (s : State) (q : Nat) : State :=
  let neg := decide (s.geti R.PTG_RATE q < 0)
  let s := ((s.put H.PT_NS (s.ptStepAt q) q).put R.PTG_STAT_DIR (b2n neg) q).put H.PT_DIRP 0 q
  s.puti R.PTG_COUNT (s.geti R.PTG_COUNT q + if neg then -1 else 1) q

theorem pulseIssued_only (s : State) (q : Nat) : OnlyRegs (pulsePlaces q) s (pulseIssued s q) := by
  refine ((((OnlyRegs.refl _ s).put ?_ _).put ?_ _).put ?_ _).put ?_ _
  all_goals simp only [pulsePlaces, List.mem_cons, true_or, or_true]

theorem pulseIssued_shows (hq : q < 16) (s : State) :
    (pulseIssued s q).get R.PTG_COUNT q = trunc 64 (s.geti R.PTG_COUNT q + if s.geti R.PTG_RATE q < 0 then -1 else 1) ∧
      (pulseIssued s q).get R.PTG_STAT_DIR q = b2n (decide (s.geti R.PTG_RATE q < 0)) ∧
      (pulseIssued s q).get H.PT_NS q = s.ptStepAt q % 2 ^ 80 := by
  unfold pulseIssued State.puti State.geti
  simp (disch := decide) only [get_put_record hq, State.get_put_self, decide_eq_true_eq]
  exact ⟨Nat.mod_eq_of_lt (trunc_lt 64 _), Nat.mod_eq_of_lt (Nat.lt_succ_of_le (b2n_le _)), rfl⟩

theorem stepIssue_pulses (hq : q < 16) (hrate : s.geti R.PTG_RATE q ≠ 0) (hon : bit (s.get H.PT_REF q 3) 0 = true)
    (htime : s.timeUp (s.ptStepAt q / 65536) = true) : Completes (.stepIssue false q) s fun t =>
      t.get R.PTG_COUNT q = trunc 64 (s.geti R.PTG_COUNT q + if s.geti R.PTG_RATE q < 0 then -1 else 1) ∧
      t.get R.PTG_STAT_DIR q = b2n (decide (s.geti R.PTG_RATE q < 0)) ∧ t.get H.PT_NS q = s.ptStepAt q % 2 ^ 80 ∧
      OnlyRegs (pulsePlaces q) s t := by
  obtain ⟨hcount, hdir, htimed⟩ := pulseIssued_shows hq s
  have hstep : s.pulseStep q = pulseIssued s q := if_neg (by simp [hrate, hon, htime])
  exact completes_of_eq rfl (((if_neg Bool.false_ne_true).trans (if_pos hq)).trans hstep)
    ⟨hcount, hdir, htimed, pulseIssued_only s q⟩

/-! ### Standstill (R321) -/

theorem stepperHoldCurrent_holds (hp : p < 8) (hmode : s.get R.DRV_CFG_MODE p = 2) (hrate : s.geti H.DP_RATE p = 0)
    (haxis : s.dpAxisIn p [4] = true)
    (htime : s.timeUp (s.get H.DP_NS p / 65536 + 1000000 * s.get R.DRV_ST_HOLD_T p) = true) :
    Completes (.stepperHoldCurrent p) s fun t => t.get H.DP_HOLD p = 1 ∧ t.get H.DP_IAMP p = t.iamp p % 2 ^ 32 ∧
      (s.get R.DRV_STAT_TLIM_ELL p = 0 → t.get H.DP_IAMP p = s.get R.DRV_ST_IHOLD p % 2 ^ 32) ∧
      OnlyRegs [fkey H.DP_HOLD p 0, fkey H.DP_IAMP p 0] s t := by
  have hhold : SetsPort [H.DP_HOLD] p s (s.put H.DP_HOLD 1 p) := (SetsPort.refl _ hp s).put (f := H.DP_HOLD) 1
  have hamp : SetsPort [H.DP_IAMP] p (s.put H.DP_HOLD 1 p)
    ((s.put H.DP_HOLD 1 p).put H.DP_IAMP ((s.put H.DP_HOLD 1 p).iamp p) p) := (SetsPort.refl _ hp _).put (f := H.DP_IAMP) _
  have hheld : (s.put H.DP_HOLD 1 p).get H.DP_HOLD p = 1 := State.get_put_of_lt _ _ _ (by decide)
  have hnow : ((s.put H.DP_HOLD 1 p).put H.DP_IAMP ((s.put H.DP_HOLD 1 p).iamp p) p).get H.DP_IAMP p =
      (s.put H.DP_HOLD 1 p).iamp p % 2 ^ 32 := State.get_put_self ..
  refine completes_of_eq rfl (if_pos ⟨hp, hmode, hrate, haxis, htime⟩) ⟨hamp.own.trans hheld, ?_, fun hlim => ?_, ?_⟩
  · rw [hamp.iamp]
    exact hnow
  · have hlim' : (s.put H.DP_HOLD 1 p).get R.DRV_STAT_TLIM_ELL p = 0 := hhold.own.trans hlim
    rw [hnow]
    unfold State.iamp
    rw [State.on_eq_true (by rw [hheld]; decide), State.on_eq_false hlim', hhold.own (g := R.DRV_ST_IHOLD)]
    simp only [if_true, Bool.false_eq_true, if_false, min_self, ite_self]
  · refine ((OnlyRegs.refl _ s).put ?_ _).put ?_ _
    all_goals simp only [List.mem_cons, true_or, or_true]

/-! ### Stalls (R324) -/

/-- The places that a stall writes. -/
def stallPlaces (p : Nat) : List Nat :=
  [fkey R.DRV_STAT_STALL p 0, fkey R.DRV_STAT_POS_UNC p 0, fkey H.DP_STNOW p 0, fkey H.DP_LAC p 0]

/-- A stall noted at the port. -/
def stallNoted (s : State) (p : Nat) : State := ((s.put R.DRV_STAT_STALL 1 p).put H.DP_STNOW 1 p).put H.DP_LAC 0 p

theorem stallNoted_sets (hp : p < 8) (s : State) :
    SetsPort [R.DRV_STAT_STALL, H.DP_STNOW, H.DP_LAC] p s (stallNoted s p) :=
  (((SetsPort.refl _ hp s).put (f := R.DRV_STAT_STALL) 1).put (f := H.DP_STNOW) 1).put (f := H.DP_LAC) 0

theorem stallNoted_only (s : State) (p : Nat) : OnlyRegs (stallPlaces p) s ((stallNoted s p).put R.DRV_STAT_POS_UNC 1 p) := by
  refine ((((OnlyRegs.refl _ s).put ?_ _).put ?_ _).put ?_ _).put ?_ _
  all_goals simp only [stallPlaces, List.mem_cons, true_or, or_true]

theorem stallNoted_shows (hp : p < 8) (s : State) :
    ((stallNoted s p).put R.DRV_STAT_POS_UNC 1 p).get R.DRV_STAT_STALL p = 1 ∧
      ((stallNoted s p).put R.DRV_STAT_POS_UNC 1 p).get R.DRV_STAT_POS_UNC p = 1 := by
  unfold stallNoted
  simp (disch := decide) only [get_put_record hp, State.get_put_self]
  decide

/-- No stall ends a homing that is not in progress. -/
theorem hardStop_of_idle {a : Nat} (h : s.get R.HM_STAT_PHASE a = 0) : s.hardStop a = false := by
  unfold State.hardStop
  rw [h]
  rfl

theorem stall_raises {a : Nat} (hp : p < 8) (hmode : s.get R.DRV_CFG_MODE p = 2)
    (hspeed : 256 * s.get R.DRV_ST_SVMIN p ≤ (s.geti H.DP_RATE p).natAbs) (hsteps : s.get R.DRV_ST_SN p ≤ s.get H.DP_LAC p)
    (haxis : s.axisOfDp p = some a) (hidle : s.get R.HM_STAT_PHASE a = 0) : Completes (.stall p) s fun t =>
      t.get R.DRV_STAT_STALL p = 1 ∧ t.get R.DRV_STAT_POS_UNC p = 1 ∧
        t.axEvs = s.axEvs ++ [{ axis := a, kind := .fault 11 }] ∧ RegsKept (stallPlaces p) s t ∧ t.mem = s.mem := by
  have hsets := stallNoted_sets hp s
  have hall : SetsPort [R.DRV_STAT_STALL, H.DP_STNOW, H.DP_LAC, R.DRV_STAT_POS_UNC] p s
      ((stallNoted s p).put R.DRV_STAT_POS_UNC 1 p) := ((SetsPort.refl _ hp s).step hsets).put (f := R.DRV_STAT_POS_UNC) 1
  have ha : a ≤ 255 := Nat.le_of_lt_succ (axisOf_lt haxis)
  have haxis' : (stallNoted s p).axisOfDp p = some a := (hsets.axisOf (by decide) _).trans haxis
  have hstop : (stallNoted s p).hardStop a = false := hardStop_of_idle ((hsets.get (g := R.HM_STAT_PHASE) ha).trans hidle)
  have hidle' : ((stallNoted s p).put R.DRV_STAT_POS_UNC 1 p).get R.HM_STAT_PHASE a = 0 :=
    (hall.get (g := R.HM_STAT_PHASE) ha).trans hidle
  obtain ⟨hstall, hunc⟩ := stallNoted_shows hp s
  have honly := stallNoted_only s p
  have hexec : execStall p s = .next (((stallNoted s p).put R.DRV_STAT_POS_UNC 1 p).post a (.fault 11)) := by
    unfold execStall
    rw [if_neg (by omega)]
    dsimp only
    rw [← stallNoted, haxis']
    dsimp only
    rw [hstop, if_neg (by simp), hidle']
    rfl
  refine ⟨_, hexec, hstall, hunc, ?_, kept_of_regs rfl honly.regs, honly.mem⟩
  exact congrArg (· ++ [{ axis := a, kind := .fault 11 }]) honly.axEvs

/-! ### Edges of an encoder (R309) -/

/-- The count of an encoder one step on. -/
def encCounted (s : State) (c : Nat) (d : Int) : State :=
  s.put R.DRV_ENC_CNT (trunc 32 ((s.get R.DRV_ENC_CNT c : Int) + if s.on R.DRV_ENC_CFG_INV c then -d else d)) c

theorem exec_encoderEdge {ab : Nat} (hc : c < 8) (hen : s.get R.DRV_ENC_CFG_EN c ≠ 0) (hup : s.drvOff = false) :
    exec (.encoderEdge c ab false) s = .next ((match quadStep (s.get H.ENC_AB c) (ab % 4) with
      | none => s.incSat R.DRV_ENC_ERR c
      | some d => encCounted s c d).put H.ENC_AB ab c) := by
  show execEncoderEdge c ab false s = _
  unfold execEncoderEdge
  rw [if_neg (by simp [State.on, hc, hen, hup])]
  dsimp only
  rw [if_neg (by simp)]
  cases quadStep (s.get H.ENC_AB c) (ab % 4) <;> rfl

theorem encoderEdge_counts {ab : Nat} {d : Int} (hc : c < 8) (hen : s.get R.DRV_ENC_CFG_EN c ≠ 0) (hup : s.drvOff = false)
    (hstep : quadStep (s.get H.ENC_AB c) (ab % 4) = some d) : Completes (.encoderEdge c ab false) s fun t =>
      t.get R.DRV_ENC_CNT c = trunc 32 (if s.get R.DRV_ENC_CFG_INV c = 0 then (s.get R.DRV_ENC_CNT c : Int) + d
        else (s.get R.DRV_ENC_CNT c : Int) - d) ∧
      t.get H.ENC_AB c = ab % 4 ∧ OnlyRegs [fkey R.DRV_ENC_CNT c 0, fkey H.ENC_AB c 0] s t := by
  refine completes_of_eq (exec_encoderEdge hc hen hup) (by rw [hstep]) ⟨?_, State.get_put_self .., ?_⟩
  · rw [get_put_record hc _ (by decide) (by decide) (by decide)]
    refine (State.get_put_of_lt _ _ _ (trunc_lt 32 _)).trans (congrArg (trunc 32) ?_)
    by_cases hinv : s.get R.DRV_ENC_CFG_INV c = 0
    · rw [State.on_eq_false hinv, if_pos hinv]
      rfl
    · rw [State.on_eq_true hinv, if_neg hinv]
      rfl
  · refine ((OnlyRegs.refl _ s).put ?_ _).put ?_ _
    all_goals simp only [List.mem_cons, true_or, or_true]

theorem encoderEdge_errs {ab : Nat} (hc : c < 8) (hen : s.get R.DRV_ENC_CFG_EN c ≠ 0) (hup : s.drvOff = false)
    (hstep : quadStep (s.get H.ENC_AB c) (ab % 4) = none) : Completes (.encoderEdge c ab false) s fun t =>
      t.get R.DRV_ENC_ERR c = min (s.get R.DRV_ENC_ERR c + 1) (2 ^ 32 - 1) ∧ t.get R.DRV_ENC_CNT c = s.get R.DRV_ENC_CNT c := by
  have hsets : SetsPort [R.DRV_ENC_ERR, H.ENC_AB] c s ((s.incSat R.DRV_ENC_ERR c).put H.ENC_AB ab c) :=
    ((SetsPort.refl _ hc s).put (f := R.DRV_ENC_ERR) _).put (f := H.ENC_AB) _
  refine completes_of_eq (exec_encoderEdge hc hen hup) (by rw [hstep]) ⟨?_, hsets.own⟩
  rw [get_put_record hc _ (by decide) (by decide) (by decide), incSat_counts]
  rfl

/-! ### The samples and steps of the ports -/

/-- Settles O42: each kind of sample, step and edge does what its lemma says. -/
theorem driveSamplesAndSteps : Obligations.DriveSamplesAndSteps := by
  unfold Obligations.DriveSamplesAndSteps
  intro p q c chs ab vals d s hp hq hc
  refine ⟨conversion_shows chs vals, fun hmode hon => ⟨dtcEvaluation_idles hp hmode hon, fun hstart hen hdue hinj =>
      ⟨dtcEvaluation_measures hp hmode hon hstart hen hdue hinj, fun hsmp => ?_⟩⟩,
    fun ⟨⟨hmode, hstart, hen⟩, hdue⟩ => ⟨fun hno => ?_, fun hinj hread => ?_⟩, ?_, stepIssue_pulses hq,
    stepperHoldCurrent_holds hp, fun a => stall_raises hp, fun hfew => ?_, fun hen hup => ⟨encoderEdge_counts hc hen hup,
      encoderEdge_errs hc hen hup⟩⟩
  · exact (dtcEvaluation_predicts hp hmode hon hstart hen hdue hsmp).imp fun _ ht => ht.shows
  · exact (pwmValley_predicts ⟨hp, hmode, hstart, hen, hdue⟩ hno).imp fun _ ht => ⟨ht.1.shows, ht.2.shows⟩
  · exact (pwmValley_measures ⟨hp, hmode, hstart, hen, hdue⟩ hinj hread).imp fun _ ht => ⟨ht.1.shows, ht.2⟩
  · exact fun ⟨hmode, hstart, hen⟩ => stepIssue_microsteps hp hmode hstart hen
  · exact congrArg Host.Outcome.next (if_pos (Or.inr (Or.inr (Or.inr hfew))))

end Sys2Proof.Claims
end

section
/-! PROOFS. Offsets, spin probes, test pulses and calibrations of the drive ports (R316 to R320, R336). -/

namespace Sys2Proof.Claims
open Sys2Proof.Machine

-- One proof after another: each thread has a stack of its own, and the text compiled at once is near its memory.
set_option Elab.async false

variable {s t u : State} {fs gs : List Fld} {p k v w : Nat}

/-- The fields that a step of a port writes. -/
theorem SetsPort.writes (h : SetsPort fs p s t) : WritesIn fs s t := fun _ _ _ hg hi hj => h.get hi hj hg

/-! ### Offsets (R316) -/

theorem sext_congr {n a b : Nat} (h : a % 2 ^ n = b % 2 ^ n) : sext n a = sext n b := by
  unfold sext
  rw [h]

theorem ofsMean_of_near (h0 : (1024 * sext 16 v - s.geti H.DP_CALS p 0).natAbs < 1024)
    (h1 : (1024 * sext 16 (v / 65536) - s.geti H.DP_CALS p 1).natAbs < 1024)
    (h2 : (1024 * sext 16 w - s.geti H.DP_CALS p 2).natAbs < 1024)
    (h3 : (1024 * sext 16 (w / 65536) - s.geti H.DP_CALS p 3).natAbs < 1024) : s.ofsMean p v w = true := by
  simp only [State.ofsMean, State.ofsNear, h0, h1, h2, h3, decide_true, Bool.and_self]

/-- Two averages in a word. -/
def ofsWord (a b : Nat) : Nat := a % 65536 + 65536 * (b % 65536)

theorem ofsWord_lt (a b : Nat) : ofsWord a b < 2 ^ 32 := by
  unfold ofsWord
  omega

theorem ofsWord_low (a b : Nat) : ofsWord a b % 2 ^ 16 = a % 2 ^ 16 := by
  unfold ofsWord
  omega

theorem ofsWord_high (a b : Nat) : ofsWord a b / 65536 % 2 ^ 16 = b % 2 ^ 16 := by
  unfold ofsWord
  omega

theorem ofsTake_sets (hp : p < 8) (s : State) (v w : Nat) :
    SetsPort [R.DRV_CAL_OFS01, R.DRV_CAL_OFS23] p s (s.ofsTake p v w) :=
  ((SetsPort.refl _ hp s).put (f := R.DRV_CAL_OFS01) v).put (f := R.DRV_CAL_OFS23) w

theorem ofsTake_shows (hp : p < 8) (s : State) (v w : Nat) : (s.ofsTake p v w).get R.DRV_CAL_OFS01 p = v % 2 ^ 32 ∧
    (s.ofsTake p v w).get R.DRV_CAL_OFS23 p = w % 2 ^ 32 := by
  unfold State.ofsTake
  simp (disch := decide) only [get_put_record hp, State.get_put_self]
  exact ⟨rfl, rfl⟩

/-- The port is online since `s`, with nothing but its own bits written. -/
structure CameOnline (p : Nat) (s t : State) : Prop where
  regs : WritesIn [R.DRV_STAT_CAL_OK, R.DRV_STAT_RDY] s t
  online : t.get R.DRV_STAT_CAL_OK p = 1
  mem : t.mem = s.mem
  waits : t.waits = s.waits

theorem onlineBits_sets (hp : p < 8) (s : State) :
    SetsPort [R.DRV_STAT_CAL_OK, R.DRV_STAT_RDY] p s ((s.put R.DRV_STAT_CAL_OK 1 p).rdyUp p) :=
  ((SetsPort.refl _ hp s).put (f := R.DRV_STAT_CAL_OK) 1).put (f := R.DRV_STAT_RDY) _

/-- A port that was not online tells its axis. -/
theorem calOk_eq (hp : p < 8) (hoff : s.get R.DRV_STAT_CAL_OK p = 0) : s.calOk p =
    { (s.put R.DRV_STAT_CAL_OK 1 p).rdyUp p with axEvs := s.axEvs ++ portEvent (s.axisOfDp p) .nodeOnline } := by
  have hsets := onlineBits_sets hp s
  have haxis : ((s.put R.DRV_STAT_CAL_OK 1 p).rdyUp p).axisOfDp p = s.axisOfDp p := hsets.axisOf (by decide) _
  unfold State.calOk
  rw [State.on_eq_false hoff, if_neg Bool.false_ne_true]
  dsimp only
  rw [haxis]
  cases s.axisOfDp p with
  | none =>
    rw [portEvent, List.append_nil, ← hsets.axEvs]
  | some a =>
    exact congrArg (fun l => { (s.put R.DRV_STAT_CAL_OK 1 p).rdyUp p with axEvs := l ++ portEvent (some a) .nodeOnline })
      hsets.axEvs

theorem calOk_online (hp : p < 8) (s : State) : CameOnline p s (s.calOk p) := by
  by_cases hoff : s.get R.DRV_STAT_CAL_OK p = 0
  · have hsets := onlineBits_sets hp s
    rw [calOk_eq hp hoff]
    refine ⟨hsets.writes.ofRegs rfl, ?_, hsets.mem, hsets.waits⟩
    exact (get_put_record hp _ (by decide) (by decide) (by decide)).trans (State.get_put_of_lt _ _ _ (by decide))
  · have hsame : s.calOk p = s := if_pos (State.on_eq_true hoff)
    have hbit := State.get_lt s R.DRV_STAT_CAL_OK p 0
    rw [hsame]
    refine ⟨.refl _ s, ?_, rfl, rfl⟩
    simp only [show R.DRV_STAT_CAL_OK.width = 1 from rfl] at hbit
    omega

theorem CameOnline.port {g : Fld} (h : CameOnline p s t) (hp : p < 8)
    (hg : ([R.DRV_STAT_CAL_OK, R.DRV_STAT_RDY].all (fun f => f.disjoint g) && decide (g.n = 8)) = true := by decide) :
    t.get g p = s.get g p := by
  rw [Bool.and_eq_true, decide_eq_true_eq] at hg
  exact h.regs g p 0 hg.1 (by omega) (Nat.zero_le _)

theorem offsetCalibrationComplete_online {o0 o1 o2 o3 : Nat} (hp : p < 8) (hmode : s.get R.DRV_CFG_MODE p ≠ 0)
    (hoff : s.get R.DRV_STAT_CAL_OK p = 0) (hcount : 1024 ≤ s.get H.DP_CALN p)
    (h0 : (1024 * sext 16 o0 - s.geti H.DP_CALS p 0).natAbs < 1024)
    (h1 : (1024 * sext 16 o1 - s.geti H.DP_CALS p 1).natAbs < 1024)
    (h2 : (1024 * sext 16 o2 - s.geti H.DP_CALS p 2).natAbs < 1024)
    (h3 : (1024 * sext 16 o3 - s.geti H.DP_CALS p 3).natAbs < 1024) :
    Completes (.offsetCalibrationComplete p o0 o1 o2 o3) s fun t => t.get R.DRV_STAT_CAL_OK p = 1 ∧
      t.get R.DRV_CAL_OFS01 p = ofsWord o0 o1 ∧ t.get R.DRV_CAL_OFS23 p = ofsWord o2 o3 ∧ t.mem = s.mem ∧
      t.axEvs = s.axEvs ++ portEvent (s.axisOfDp p) .nodeOnline := by
  have hmean : s.ofsMean p (ofsWord o0 o1) (ofsWord o2 o3) = true := ofsMean_of_near
    (by rwa [sext_congr (ofsWord_low ..)]) (by rwa [sext_congr (ofsWord_high ..)])
    (by rwa [sext_congr (ofsWord_low ..)]) (by rwa [sext_congr (ofsWord_high ..)])
  have htake := ofsTake_sets hp s (ofsWord o0 o1) (ofsWord o2 o3)
  have honline := calOk_online hp (s.ofsTake p (ofsWord o0 o1) (ofsWord o2 o3))
  obtain ⟨hlow, hhigh⟩ := ofsTake_shows hp s (ofsWord o0 o1) (ofsWord o2 o3)
  have hexec : exec (.offsetCalibrationComplete p o0 o1 o2 o3) s =
      .next ((s.ofsTake p (ofsWord o0 o1) (ofsWord o2 o3)).calOk p) := by
    show execOffsetCalibrationComplete p o0 o1 o2 o3 s = _
    unfold execOffsetCalibrationComplete
    refine congrArg Host.Outcome.next (if_neg ?_)
    change ¬ (_ ∨ _ ∨ _ ∨ _ ∨ (!s.ofsMean p (ofsWord o0 o1) (ofsWord o2 o3)) = true)
    rw [hmean, State.on_eq_false hoff]
    simp [hp, hmode, hcount]
  refine ⟨_, hexec, honline.online, ?_, ?_, honline.mem.trans htake.mem, ?_⟩
  · rw [honline.port hp, hlow, Nat.mod_eq_of_lt (ofsWord_lt ..)]
  · rw [honline.port hp, hhigh, Nat.mod_eq_of_lt (ofsWord_lt ..)]
  · rw [calOk_eq hp (htake.own.trans hoff), htake.axEvs]
    exact congrArg (fun o => s.axEvs ++ portEvent o .nodeOnline) (htake.axisOf (by decide) _)

/-! ### Spin probes (R317 to R319) -/

/-- The fields of the stage of a start. -/
def stageFields : List Fld := [H.DP_LEGN, H.DP_START, H.DP_STN, H.DP_PPH, H.DP_SVEC, H.DP_SMP]

theorem stageAt_sets (hp : p < 8) (s : State) (k : Nat) : SetsPort stageFields p s (s.stageAt p k) :=
  ((((((SetsPort.refl stageFields hp s).each fun _ _ hj hv => hv.put (f := H.DP_LEGN) 0
    (hj := Nat.le_of_lt_succ (List.mem_range.1 hj))).put (f := H.DP_START) k).put (f := H.DP_STN) 0).put (f := H.DP_PPH)
    0).put (f := H.DP_SVEC) 0).put (f := H.DP_SMP) 0

theorem stageAt_start (hp : p < 8) (hk : k < 8) (s : State) : (s.stageAt p k).get H.DP_START p = k := by
  unfold State.stageAt
  dsimp only
  generalize s.each (List.range 3) (fun s j => s.put H.DP_LEGN 0 p j) = u
  simp (disch := decide) only [get_put_record hp, State.get_put_self]
  exact Nat.mod_eq_of_lt hk

/-- The estimator at an angle, before the stage in which the port runs. -/
def seeded (s : State) (p ang : Nat) (mag : Int) : State :=
  let s := (s.puti H.DP_PSI (mag * cosTurn ang 65536 / 1073741824) p 0).puti H.DP_PSI
    (mag * cosTurn ((ang + 49152) % 65536) 65536 / 1073741824) p 1
  (s.angleTo p ang).put R.DRV_FLUX_EST (mag / 65536).toNat p

/-- The fields of the estimator. -/
def estimatorFields : List Fld := [H.DP_PSI, R.DRV_ANGLE, H.DP_POSU, R.DRV_FLUX_EST]

theorem seeded_sets (hp : p < 8) (s : State) (ang : Nat) (mag : Int) :
    SetsPort estimatorFields p s (seeded s p ang mag) :=
  (((((SetsPort.refl estimatorFields hp s).put (f := H.DP_PSI) (j := 0) _).put (f := H.DP_PSI) (j := 1) _).put
    (f := R.DRV_ANGLE) ang).put (f := H.DP_POSU) _).put (f := R.DRV_FLUX_EST) _

theorem seeded_angle (hp : p < 8) (s : State) (ang : Nat) (mag : Int) :
    (seeded s p ang mag).get R.DRV_ANGLE p = ang % 2 ^ 16 := by
  unfold seeded State.angleTo
  simp (disch := decide) only [get_put_record hp, State.get_put_self]
  rfl

theorem seedFlux_runs (hp : p < 8) (s : State) (ang : Nat) (mag : Int) : (s.seedFlux p ang mag).mem = s.mem ∧
    (s.seedFlux p ang mag).get H.DP_START p = 4 ∧ (s.seedFlux p ang mag).get R.DRV_ANGLE p = ang % 2 ^ 16 := by
  have hseed := seeded_sets hp s ang mag
  have hstage := stageAt_sets hp (seeded s p ang mag) 4
  have hrest : SetsPort [H.DP_LEG, R.DRV_STAT_RDY] p ((seeded s p ang mag).stageAt p 4) (s.seedFlux p ang mag) :=
    ((SetsPort.refl _ hp _).put (f := H.DP_LEG) 0).put (f := R.DRV_STAT_RDY) _
  exact ⟨hrest.mem.trans (hstage.mem.trans hseed.mem), hrest.own.trans (stageAt_start hp (by decide) _),
    hrest.own.trans (hstage.own.trans (seeded_angle hp ..))⟩

/-- The speed that a probe found, the count of test pulses at its start. -/
def probed (s : State) (p : Nat) (fe : Int) : State :=
  let s := s.puti H.DP_SPEED (satI 32 (divRound fe (max 1 (s.get R.DRV_PP p)))) p
  (s.put H.DP_PLS 0 p).put H.DP_PLSF 0 p

theorem probed_sets (hp : p < 8) (s : State) (fe : Int) :
    SetsPort [H.DP_SPEED, H.DP_PLS, H.DP_PLSF] p s (probed s p fe) :=
  (((SetsPort.refl _ hp s).put (f := H.DP_SPEED) _).put (f := H.DP_PLS) 0).put (f := H.DP_PLSF) 0

theorem probed_pulses (hp : p < 8) (s : State) (fe : Int) : (probed s p fe).get H.DP_PLS p = 0 := by
  unfold probed State.puti
  simp (disch := decide) only [get_put_record hp, State.get_put_self]
  rfl

/-- A start of a three-phase port in progress at stage `k`, its axis Enabling. -/
structure Starting (p k : Nat) (s : State) : Prop where
  port : p < 8
  mode : s.get R.DRV_CFG_MODE p = 1
  axis : s.dpAxisIn p [3] = true
  stage : s.get H.DP_START p = k

/-- SPIN_PROBE, after its three pulses. -/
theorem exec_spinProbe (h : Starting p 1 s) (htime : 420 ≤ s.get H.DP_STN p) (fe : Int) (ang mag : Nat) :
    exec (.spinProbe p fe ang mag) s = .next (
      if fe.natAbs ≤ s.get R.DRV_CATCH p then (probed s p fe).stageAt p 2
      else if decide (fe < 0) == s.on R.DRV_CFG_CATCHDIR p then
        (probed s p fe).seedFlux p ((ang + 49152) % 65536) (catchFlux mag fe.natAbs)
      else (probed s p fe).stageAt p 3) := by
  have hsets := probed_sets h.port s fe
  have hdir : (probed s p fe).on R.DRV_CFG_CATCHDIR p = s.on R.DRV_CFG_CATCHDIR p := congrArg (· != 0) hsets.own
  rw [← hsets.own (g := R.DRV_CATCH), ← hdir]
  exact congrArg Host.Outcome.next (if_neg (by simp [h.port, h.mode, h.stage, h.axis, htime]))

theorem spinProbe_saturates (h : Starting p 1 s) (htime : 420 ≤ s.get H.DP_STN p) (ang mag : Nat) {fe : Int}
    (hslow : fe.natAbs ≤ s.get R.DRV_CATCH p) : Completes (.spinProbe p fe ang mag) s fun t => t.get H.DP_START p = 2 ∧
      t.get H.DP_PLS p = 0 ∧ t.mem = s.mem := by
  have hstage := stageAt_sets h.port (probed s p fe) 2
  exact completes_of_eq (exec_spinProbe h htime fe ang mag) (if_pos hslow) ⟨stageAt_start h.port (by decide) _,
    hstage.own.trans (probed_pulses h.port ..), hstage.mem.trans (probed_sets h.port ..).mem⟩

theorem spinProbe_brakes (h : Starting p 1 s) (htime : 420 ≤ s.get H.DP_STN p) (ang mag : Nat) {fe : Int}
    (hfast : s.get R.DRV_CATCH p < fe.natAbs) (hdir : decide (fe < 0) ≠ s.on R.DRV_CFG_CATCHDIR p) :
    Completes (.spinProbe p fe ang mag) s fun t => t.get H.DP_START p = 3 ∧ t.mem = s.mem := by
  have hstage := stageAt_sets h.port (probed s p fe) 3
  exact completes_of_eq (exec_spinProbe h htime fe ang mag)
    ((if_neg (Nat.not_le.2 hfast)).trans (if_neg fun he => hdir (beq_iff_eq.1 he)))
    ⟨stageAt_start h.port (by decide) _, hstage.mem.trans (probed_sets h.port ..).mem⟩

theorem spinProbe_catches (h : Starting p 1 s) (htime : 420 ≤ s.get H.DP_STN p) (ang mag : Nat) {fe : Int}
    (hfast : s.get R.DRV_CATCH p < fe.natAbs) (hdir : decide (fe < 0) = s.on R.DRV_CFG_CATCHDIR p) :
    Completes (.spinProbe p fe ang mag) s fun t => t.get H.DP_START p = 4 ∧
      t.get R.DRV_ANGLE p = (ang + 49152) % 65536 ∧ t.mem = s.mem := by
  obtain ⟨hmem, hstart, hangle⟩ := seedFlux_runs h.port (probed s p fe) ((ang + 49152) % 65536) (catchFlux mag fe.natAbs)
  exact completes_of_eq (exec_spinProbe h htime fe ang mag)
    ((if_neg (Nat.not_le.2 hfast)).trans (if_pos (beq_iff_eq.2 hdir)))
    ⟨hstart, hangle.trans (Nat.mod_mod ..), hmem.trans (probed_sets h.port ..).mem⟩

/-! ### Test pulses (R318, R320) -/

/-- A pulse that could not be read is repeated. -/
theorem saturationTestPulse_repeats (h : Starting p 2 s) (hover : s.pulseOver p 0 = true) (hfirst : s.get H.DP_PLSF p = 0)
    (peak : Nat) : Completes (.saturationTestPulse p peak false) s fun t =>
      t.get H.DP_PLSF p = 1 ∧ t.get H.DP_PPH p = 1 ∧
      OnlyRegs [fkey H.DP_PLSF p 0, fkey H.DP_PPH p 0, fkey H.DP_STN p 0] s t := by
  have hp := h.port
  have hexec : exec (.saturationTestPulse p peak false) s = .next ((s.put H.DP_PLSF 1 p).pulseRest p) := by
    show execSaturationTestPulse p peak false s = _
    unfold execSaturationTestPulse
    rw [if_neg (by simp [hp, h.mode, h.stage, h.axis, hover]), State.on_eq_false hfirst]
    rfl
  refine ⟨_, hexec, ?_, ?_, ?_⟩
  · unfold State.pulseRest
    simp (disch := decide) only [get_put_record hp, State.get_put_self]
    rfl
  · unfold State.pulseRest
    simp (disch := decide) only [get_put_record hp, State.get_put_self]
    rfl
  · refine (((OnlyRegs.refl _ s).put ?_ _).put ?_ _).put ?_ _
    all_goals simp only [List.mem_cons, true_or, or_true]

/-- The peaks after pulse `k`. -/
def peaksNoted (s : State) (p k peak : Nat) : State :=
  let s := if k = 0 ∨ s.get H.DP_PKMAX p < peak then (s.put H.DP_PKMAX peak p).put H.DP_PKI k p else s
  if k = 0 ∨ peak < s.get H.DP_PKMIN p then s.put H.DP_PKMIN peak p else s

/-- A pulse that was read, before the next. -/
def pulseRead (s : State) (p peak : Nat) : State :=
  let s := s.pulseRest p
  let k := s.get H.DP_PLS p
  (peaksNoted (s.put H.DP_PLSF 0 p) p k peak).put H.DP_PLS (k + 1) p

theorem peaksNoted_sets (hp : p < 8) (s : State) (k peak : Nat) :
    SetsPort [H.DP_PKMAX, H.DP_PKI, H.DP_PKMIN] p s (peaksNoted s p k peak) := by
  have hmax : SetsPort [H.DP_PKMAX, H.DP_PKI, H.DP_PKMIN] p s
      (if k = 0 ∨ s.get H.DP_PKMAX p < peak then (s.put H.DP_PKMAX peak p).put H.DP_PKI k p else s) :=
    SetsPort.ite (((SetsPort.refl _ hp s).put (f := H.DP_PKMAX) peak).put (f := H.DP_PKI) k) (SetsPort.refl _ hp s)
  exact SetsPort.ite (hmax.put (f := H.DP_PKMIN) peak) hmax

theorem peaksNoted_first (hp : p < 8) (s : State) (peak : Nat) :
    (peaksNoted s p 0 peak).get H.DP_PKMAX p = peak % 2 ^ 32 ∧ (peaksNoted s p 0 peak).get H.DP_PKMIN p = peak % 2 ^ 32 := by
  unfold peaksNoted
  simp (disch := decide) only [true_or, if_true, get_put_record hp, State.get_put_self]
  exact ⟨rfl, rfl⟩

theorem pulseRest_sets (hp : p < 8) (s : State) :
    SetsPort [H.DP_PPH, H.DP_STN, H.DP_PLSF] p s ((s.pulseRest p).put H.DP_PLSF 0 p) :=
  (((SetsPort.refl _ hp s).put (f := H.DP_PPH) 1).put (f := H.DP_STN) 0).put (f := H.DP_PLSF) 0

theorem pulseRead_eq (hp : p < 8) (s : State) (peak : Nat) : pulseRead s p peak =
    (peaksNoted ((s.pulseRest p).put H.DP_PLSF 0 p) p (s.get H.DP_PLS p) peak).put H.DP_PLS (s.get H.DP_PLS p + 1) p := by
  have hrest : SetsPort [H.DP_PPH, H.DP_STN] p s (s.pulseRest p) :=
    ((SetsPort.refl _ hp s).put (f := H.DP_PPH) 1).put (f := H.DP_STN) 0
  unfold pulseRead
  dsimp only
  rw [hrest.own (g := H.DP_PLS)]

/-- The fields of a pulse that was read. -/
def pulseFields : List Fld :=
  [H.DP_PPH, H.DP_STN, H.DP_PLSF, H.DP_PKMAX, H.DP_PKI, H.DP_PKMIN, H.DP_PLS]

theorem pulseRead_sets (hp : p < 8) (s : State) (peak : Nat) : SetsPort pulseFields p s (pulseRead s p peak) := by
  rw [pulseRead_eq hp]
  exact (((SetsPort.refl pulseFields hp s).step (pulseRest_sets hp s)).step (peaksNoted_sets hp ..)).put (f := H.DP_PLS) _

theorem pulseN_le (s : State) (p : Nat) : s.pulseN p ≤ 24 := by
  unfold State.pulseN
  split_ifs
  · exact Nat.le_refl _
  · decide

theorem SetsPort.pulseN (h : SetsPort fs p s t)
    (hf : ([R.DRV_CFG_SSN, H.DP_START].all fun g => fs.all fun f => f.disjoint g) = true := by decide) :
    t.pulseN p = s.pulseN p := by
  simp only [List.all_cons, List.all_nil, Bool.and_true, Bool.and_eq_true] at hf
  have hp := Nat.le_of_lt_succ h.port
  unfold State.pulseN State.on
  rw [h.get (g := R.DRV_CFG_SSN) hp (Nat.zero_le _) hf.1, h.get (g := H.DP_START) hp (Nat.zero_le _) hf.2]

/-- A pulse that is not the last is counted. -/
theorem saturationTestPulse_counts {peak : Nat} (h : Starting p 2 s) (hover : s.pulseOver p peak = true)
    (hmore : s.get H.DP_PLS p + 1 < s.pulseN p) : Completes (.saturationTestPulse p peak true) s fun t =>
      t.get H.DP_PLS p = s.get H.DP_PLS p + 1 ∧ t.get H.DP_PLSF p = 0 ∧ t.get H.DP_START p = 2 ∧
      (s.get H.DP_PLS p = 0 → t.get H.DP_PKMAX p = peak % 2 ^ 32 ∧ t.get H.DP_PKMIN p = peak % 2 ^ 32) := by
  have hp := h.port
  have hread := pulseRead_sets hp s peak
  have heq := pulseRead_eq hp s peak
  have hlast : (pulseRead s p peak).pulseN p = s.pulseN p := hread.pulseN
  have hkeep : (s.pulseRest p).get H.DP_PLS p = s.get H.DP_PLS p := by
    unfold State.pulseRest
    simp (disch := decide) only [get_put_record hp]
  have hmany : ¬ (pulseRead s p peak).pulseN p ≤ (s.pulseRest p).get H.DP_PLS p + 1 := by rw [hlast, hkeep]; omega
  have hexec : exec (.saturationTestPulse p peak true) s = .next (if (pulseRead s p peak).pulseN p ≤
      (s.pulseRest p).get H.DP_PLS p + 1 then (pulseRead s p peak).pulsesDone p else pulseRead s p peak) :=
    congrArg Host.Outcome.next (if_neg (by simp [hp, h.mode, h.stage, h.axis, hover]))
  have hnoted := peaksNoted_sets hp ((s.pulseRest p).put H.DP_PLSF 0 p) (s.get H.DP_PLS p) peak
  have hcount : SetsPort [H.DP_PLS] p (peaksNoted ((s.pulseRest p).put H.DP_PLSF 0 p) p (s.get H.DP_PLS p) peak)
      (pulseRead s p peak) := heq ▸ (SetsPort.refl _ hp _).put (f := H.DP_PLS) _
  refine completes_of_eq hexec (if_neg hmany) ⟨?_, ?_, hread.own.trans h.stage, fun hzero => ?_⟩
  · have hle := pulseN_le s p
    rw [heq]
    exact State.get_put_of_lt _ _ _ (show s.get H.DP_PLS p + 1 < 2 ^ 5 by omega)
  · exact hcount.own.trans (hnoted.own.trans (State.get_put_of_lt _ _ _ (by decide)))
  · obtain ⟨hmax, hmin⟩ := peaksNoted_first hp ((s.pulseRest p).put H.DP_PLSF 0 p) peak
    rw [hcount.own (g := H.DP_PKMAX), hcount.own (g := H.DP_PKMIN), hzero]
    exact ⟨hmax, hmin⟩

end Sys2Proof.Claims
end

section
/-! PROOFS. Calibrations of the drive ports and long operations that begin and end (R272, R336). -/

namespace Sys2Proof.Claims
open Sys2Proof.Machine

-- One proof after another: each thread has a stack of its own, and the text compiled at once is near its memory.
set_option Elab.async false

variable {s t u : State} {fs gs : List Fld} {p k v w mb : Nat}

/-! ### The end of a long operation (R272) -/

/-- The operation of a slot marked done, with its time of end. -/
def lopDone (s : State) (k : Nat) : State :=
  let s := (s.put R.LOP_ID_STATUS 2 k).put R.LOP_PROG_REASON 0 k
  (s.put R.LOP_T_END s.now k).put R.LOP_PROG_PERMILLE 1000 k

/-- The end of an operation on which no request waits. -/
theorem lopEnd_done (hw : s.waits = []) (hopen : s.get R.LOP_ID_STATUS k = 1 ∨ s.get R.LOP_ID_STATUS k = 4) :
    s.lopEnd k 2 0 = (lopDone s k).cause 0 := by
  have hnone : ((lopDone s k).cause 0).waits = [] := (cause_waits ..).trans hw
  unfold State.lopEnd
  rw [if_pos hopen]
  show (((lopDone s k).cause 0).failAll 0x0005 k 0x000D).failAll 0x0003 k 0x000D = _
  rw [State.failAll_of_no_waits hnone, State.failAll_of_no_waits hnone]

/-- The fields that such an end writes. -/
def lopDoneFields : List Fld :=
  [R.LOP_ID_STATUS, R.LOP_PROG_REASON, R.LOP_T_END, R.LOP_PROG_PERMILLE] ++ causeFields

theorem lopDone_steps (hk : k < 32) (s : State) : Steps lopDoneFields s (lopDone s k) :=
  have hk : k ≤ 31 := Nat.le_of_lt_succ hk
  ((((Steps.refl lopDoneFields s).put (f := R.LOP_ID_STATUS) (j := 0) (by decide) hk (by decide) 2).put
    (f := R.LOP_PROG_REASON) (j := 0) (by decide) hk (by decide) 0).put (f := R.LOP_T_END) (j := 0) (by decide) hk (by decide)
    _).put (f := R.LOP_PROG_PERMILLE) (j := 0) (by decide) hk (by decide) 1000

theorem lopDone_shows (hk : k < 32) (s : State) : (lopDone s k).get R.LOP_ID_STATUS k = 2 ∧
    (lopDone s k).get R.LOP_PROG_PERMILLE k = 1000 := by
  unfold lopDone
  simp (disch := decide) only [get_put_record hk, State.get_put_self]
  decide

/-- What the end of an operation shows, and leaves. -/
theorem lopEnd_ends (hw : s.waits = []) (hk : k < 32) (hrun : s.get R.LOP_ID_STATUS k = 1) :
    (s.lopEnd k 2 0).get R.LOP_ID_STATUS k = 2 ∧ (s.lopEnd k 2 0).get R.LOP_PROG_PERMILLE k = 1000 ∧
      Steps lopDoneFields s (s.lopEnd k 2 0) := by
  obtain ⟨hstatus, hmille⟩ := lopDone_shows hk s
  have hcause := (Steps.refl causeFields (lopDone s k)).cause (List.Subset.refl _) 0
  have hk' : k ≤ 31 := Nat.le_of_lt_succ hk
  rw [lopEnd_done hw (.inl hrun)]
  exact ⟨(hcause.get (g := R.LOP_ID_STATUS) hk').trans hstatus, (hcause.get (g := R.LOP_PROG_PERMILLE) hk').trans hmille,
    (lopDone_steps hk s).cause (by decide) 0⟩

/-! ### The start of one (R272) -/

theorem lopHandleAt_lt (s : State) (n : Nat) : s.lopHandleAt n < 2 ^ 16 := by
  unfold State.lopHandleAt
  omega

theorem lopHandle_lt (s : State) : s.lopHandle < 2 ^ 16 := by
  unfold State.lopHandle
  generalize hfound : ((List.range 33).map s.lopHandleAt).find? _ = found
  cases found with
  | none => decide
  | some h =>
    obtain ⟨n, -, rfl⟩ := List.mem_map.1 (List.mem_of_find?_eq_some hfound)
    exact lopHandleAt_lt s n

/-- The fields that the start of an operation writes. -/
def lopOpenFields : List Fld :=
  [R.LOP_ID_HANDLE, R.LOP_ID_STATUS, R.LOP_OBJ_OPCODE, R.LOP_OBJ_INDEX, R.LOP_PROG_REASON, R.LOP_PROG_PERMILLE, R.LOP_T_START,
    R.LOP_T_END, H.LOP_NEXT] ++ causeFields

/-- A slot that opens, before the cause. -/
def lopOpened (s : State) (k h opc idx : Nat) : State :=
  let s := (((s.put R.LOP_ID_HANDLE h k).put R.LOP_ID_STATUS 1 k).put R.LOP_OBJ_OPCODE opc k).put R.LOP_OBJ_INDEX idx k
  let s := (s.put R.LOP_PROG_REASON 0 k).put R.LOP_PROG_PERMILLE 0 k
  (s.put R.LOP_T_START s.now k).put R.LOP_T_END 0 k

theorem lopOpened_steps (hk : k < 32) (s : State) (h opc idx : Nat) :
    Steps lopOpenFields s (lopOpened s k h opc idx) := by
  have hput : ∀ {t : State} {f : Fld} (v : Nat), Steps lopOpenFields s t → f ∈ lopOpenFields → 31 ≤ f.n - 1 →
      Steps lopOpenFields s (t.put f v k) := fun v ht hf hn => ht.put hf (by omega) (Nat.zero_le _) v
  unfold lopOpened
  iterate 8 refine hput _ ?_ (by decide) (by decide)
  exact .refl _ s

theorem lopOpened_shows (hk : k < 32) (s : State) (h opc idx : Nat) :
    (lopOpened s k h opc idx).get R.LOP_ID_STATUS k = 1 ∧ (lopOpened s k h opc idx).get R.LOP_OBJ_OPCODE k = opc % 2 ^ 16 := by
  unfold lopOpened
  simp (disch := decide) only [get_put_record hk, State.get_put_self]
  exact ⟨rfl, rfl⟩

theorem lopOpen_opens (hk : k < 32) (s : State) (h opc idx : Nat) :
    (s.lopOpen k h opc idx).get R.LOP_ID_STATUS k = 1 ∧ (s.lopOpen k h opc idx).get R.LOP_OBJ_OPCODE k = opc % 2 ^ 16 ∧
      Steps lopOpenFields s (s.lopOpen k h opc idx) := by
  obtain ⟨hstatus, hopc⟩ := lopOpened_shows hk s h opc idx
  have hk' : k ≤ 31 := Nat.le_of_lt_succ hk
  have hrest : Steps (H.LOP_NEXT :: causeFields) (lopOpened s k h opc idx) (s.lopOpen k h opc idx) :=
    ((Steps.refl _ _).put (f := H.LOP_NEXT) (i := 0) (j := 0) (by decide) (by decide) (by decide) h).cause (by decide) 0
  exact ⟨(hrest.get (g := R.LOP_ID_STATUS) hk').trans hstatus, (hrest.get (g := R.LOP_OBJ_OPCODE) hk').trans hopc,
    (lopOpened_steps hk s h opc idx).trans (hrest.mono (by decide))⟩

/-! ### Calibration steps (R336) -/

/-- The fields that the result of a calibration step is stored in, and those of its notes. -/
def calFields : List Fld :=
  [R.DRV_CAL_OFS01, R.DRV_CAL_OFS23, R.DRV_STAT_CAL_OK, R.DRV_STAT_RDY, R.DRV_RS, R.DRV_LS, R.CFG_MODE_OVERRIDDEN,
    R.CFG_STATUS_DIRTY, H.CMT_D]

/-- The result of a calibration step stored. -/
def calStored (s : State) (p v w : Nat) : State :=
  if bit (s.get H.DP_CALF p) 0 then (s.ofsTake p v w).calOk p
  else if bit (s.get H.DP_CALF p) 1 then (s.write R.DRV_RS v p).confWrote (ovlTgt 4 p 0x18)
  else (s.write R.DRV_LS w p).confWrote (ovlTgt 4 p 0x1C)

/-- The step that begins after the last. -/
def calNext (s : State) (p : Nat) : State := (s.put H.DP_CALF 0 p).calStep p

/-- The fields that the beginning of a step writes. -/
def calStepFields : List Fld :=
  [H.DP_CALS, H.DP_CALN, H.DP_CALT0, H.DP_STN, H.DP_PPH, H.DP_SVEC, H.DP_PLS]

theorem calStep_sets (hp : p < 8) (s : State) : SetsPort calStepFields p s (s.calStep p) :=
  (((((((SetsPort.refl calStepFields hp s).each fun _ _ hj hv => hv.put (f := H.DP_CALS) 0
    (hj := Nat.le_of_lt_succ (List.mem_range.1 hj))).put (f := H.DP_CALN) 0).put (f := H.DP_CALT0) _).put (f := H.DP_STN)
    0).put (f := H.DP_PPH) 0).put (f := H.DP_SVEC) 0).put (f := H.DP_PLS) 0

theorem calNext_sets (hp : p < 8) (s : State) : SetsPort (H.DP_CALF :: calStepFields) p s (calNext s p) :=
  ((SetsPort.refl _ hp s).put (f := H.DP_CALF) 0).step (calStep_sets hp _)

/-- CALIBRATION_STEP_COMPLETE of the last step. -/
theorem exec_calibrationStepComplete (hp : p < 8) (hlop : s.lopOf 0x0702 p = some k) (hrun : s.get R.LOP_ID_STATUS k = 1)
    (hdue : s.calDue p v w = true) (hlast : s.get H.DP_CALF p = 1 ∨ s.get H.DP_CALF p = 2 ∨ s.get H.DP_CALF p = 4) :
    exec (.calibrationStepComplete p v w) s = .next ((calNext (calStored s p v w) p).lopEnd k 2 0) := by
  have hzero : (if bit (s.get H.DP_CALF p) 0 then clrBit (s.get H.DP_CALF p) 0
      else if bit (s.get H.DP_CALF p) 1 then clrBit (s.get H.DP_CALF p) 1 else 0) = 0 := by
    rcases hlast with h | h | h
    all_goals rw [h]; decide
  show execCalibrationStepComplete p v w s = _
  unfold execCalibrationStepComplete
  rw [if_pos hp, hlop]
  dsimp only
  rw [if_neg (by simp [hrun, hdue]), hzero, if_pos rfl]
  rfl

/-- The operation of the calibration, done, behind a result that leaves it. -/
theorem calibration_ends (hp : p < 8) (hlop : s.lopOf 0x0702 p = some k) (hrun : s.get R.LOP_ID_STATUS k = 1)
    (hu : WritesIn calFields s u) (hw : u.waits = []) :
    let t := (calNext u p).lopEnd k 2 0
    t.get R.LOP_ID_STATUS k = 2 ∧ t.get R.LOP_PROG_PERMILLE k = 1000 ∧
      Steps (lopDoneFields ++ H.DP_CALF :: calStepFields) u t := by
  have hk := (lopOf_running hlop).1
  have hnext := calNext_sets hp u
  have hrun' : (calNext u p).get R.LOP_ID_STATUS k = 1 :=
    (hnext.get (g := R.LOP_ID_STATUS) (Nat.le_of_lt_succ hk)).trans
      ((hu R.LOP_ID_STATUS k 0 (by decide) (Nat.le_of_lt_succ hk) (by decide)).trans hrun)
  obtain ⟨hstatus, hmille, hends⟩ := lopEnd_ends (hnext.waits.trans hw) hk hrun'
  have hsteps : Steps (H.DP_CALF :: calStepFields) u (calNext u p) :=
    ⟨hnext.writes, hnext.mem, insts_of_lists hnext.lists, (congrArg State.arrErrs hnext.lists :).trans⟩
  exact ⟨hstatus, hmille, (hsteps.mono (by decide)).trans (hends.mono (by decide))⟩

/-- The offsets of a calibration. -/
theorem calibrationStepComplete_offsets (hp : p < 8) (hlop : s.lopOf 0x0702 p = some k) (hrun : s.get R.LOP_ID_STATUS k = 1)
    (hw : s.waits = []) (hstep : s.get H.DP_CALF p = 1) (hcount : s.get H.DP_CALN p = 1024)
    (hmean : s.ofsMean p v w = true) : Completes (.calibrationStepComplete p v w) s fun t =>
      t.get R.DRV_CAL_OFS01 p = v % 2 ^ 32 ∧ t.get R.DRV_CAL_OFS23 p = w % 2 ^ 32 ∧ t.get R.DRV_STAT_CAL_OK p = 1 ∧
      t.get R.LOP_ID_STATUS k = 2 ∧ t.get R.LOP_PROG_PERMILLE k = 1000 := by
  have hp' : p ≤ 7 := Nat.le_of_lt_succ hp
  have hbit : bit (s.get H.DP_CALF p) 0 = true := by rw [hstep]; rfl
  have hdue : s.calDue p v w = true := by
    unfold State.calDue
    rw [hbit, if_pos rfl, hcount, hmean]
    rfl
  have hstored : calStored s p v w = (s.ofsTake p v w).calOk p := if_pos hbit
  have htake := ofsTake_sets hp s v w
  have honline := calOk_online hp (s.ofsTake p v w)
  obtain ⟨hlow, hhigh⟩ := ofsTake_shows hp s v w
  obtain ⟨hstatus, hmille, hends⟩ := calibration_ends hp hlop hrun
    ((htake.writes.mono (by decide)).trans (honline.regs.mono (by decide))) (honline.waits.trans (htake.waits.trans hw))
  exact completes_of_eq (exec_calibrationStepComplete hp hlop hrun hdue (.inl hstep)) (by rw [hstored])
    ⟨(hends.get (g := R.DRV_CAL_OFS01) hp').trans ((honline.port hp).trans hlow),
      (hends.get (g := R.DRV_CAL_OFS23) hp').trans ((honline.port hp).trans hhigh),
      (hends.get (g := R.DRV_STAT_CAL_OK) hp').trans honline.online, hstatus, hmille⟩

theorem confWrote_writes (s : State) (target : Nat) :
    WritesIn [R.CFG_MODE_OVERRIDDEN, R.CFG_STATUS_DIRTY, H.CMT_D] s (s.confWrote target) := by
  have hput := fun {t : State} (h : WritesIn [R.CFG_MODE_OVERRIDDEN, R.CFG_STATUS_DIRTY, H.CMT_D] s t) (f : Fld)
    (hf : f ∈ [R.CFG_MODE_OVERRIDDEN, R.CFG_STATUS_DIRTY, H.CMT_D]) => h.put (i := 0) (j := 0) hf (Nat.zero_le _)
      (Nat.zero_le _) 1
  unfold State.confWrote
  split_ifs
  · exact hput (.refl _ s) R.CFG_MODE_OVERRIDDEN (by decide)
  · exact hput (hput (.refl _ s) R.CFG_STATUS_DIRTY (by decide)) H.CMT_D (by decide)

theorem confWrote_waits (s : State) (target : Nat) : (s.confWrote target).waits = s.waits := by
  unfold State.confWrote
  split_ifs
  · rfl
  · rfl

/-- A clamped value fits its field. -/
theorem applyFix_lt (n : Nat) : applyFix R.DRV_RS.fix n < 2 ^ 32 := by
  have h := clampN_le (lo := 0x1) (hi := 0x7fffffff) (by decide) n
  exact Nat.lt_of_le_of_lt h (by decide)

/-- A value of the motor stored, and the configuration marked. -/
theorem motorValue_stored (hp : p < 8) {f : Fld} (hf : f ∈ [R.DRV_RS, R.DRV_LS]) (s : State) (x target : Nat) :
    ((s.write f x p).confWrote target).get f p = applyFix f.fix (x % 2 ^ 32) ∧
      WritesIn calFields s ((s.write f x p).confWrote target) := by
  have hconf := confWrote_writes (s.write f x p) target
  have hfld : 7 ≤ f.n - 1 ∧ f.width = 32 ∧ f.fix = R.DRV_RS.fix ∧ f ∈ calFields ∧
      ([R.CFG_MODE_OVERRIDDEN, R.CFG_STATUS_DIRTY, H.CMT_D].all fun g => g.disjoint f) = true := by
    simp only [List.mem_cons, List.not_mem_nil, or_false] at hf
    rcases hf with rfl | rfl
    · decide
    · decide
  obtain ⟨hn, hwidth, hfix, hmem, hapart⟩ := hfld
  have hp' : p ≤ f.n - 1 := by omega
  constructor
  · rw [hconf f p 0 hapart hp' (Nat.zero_le _), State.write, hwidth]
    refine State.get_put_of_lt _ _ _ ?_
    rw [hwidth, hfix]
    exact applyFix_lt _
  · exact ((WritesIn.refl calFields s).put hmem hp' (Nat.zero_le _) _).trans (hconf.mono (by decide))

/-- The resistance. -/
theorem calibrationStepComplete_resistance (hp : p < 8) (hlop : s.lopOf 0x0702 p = some k)
    (hrun : s.get R.LOP_ID_STATUS k = 1) (hw : s.waits = []) (hstep : s.get H.DP_CALF p = 2)
    (htime : s.timeUp (s.get H.DP_CALT0 p + 200000000) = true) : Completes (.calibrationStepComplete p v w) s fun t =>
      t.get R.DRV_RS p = applyFix R.DRV_RS.fix (v % 2 ^ 32) ∧ t.get R.LOP_ID_STATUS k = 2 ∧
      t.get R.LOP_PROG_PERMILLE k = 1000 := by
  have hbits : bit (s.get H.DP_CALF p) 0 = false ∧ bit (s.get H.DP_CALF p) 1 = true := by rw [hstep]; decide
  have hdue : s.calDue p v w = true := by
    unfold State.calDue
    rw [hbits.1, hbits.2, htime]
    rfl
  have hstored : calStored s p v w = (s.write R.DRV_RS v p).confWrote (ovlTgt 4 p 0x18) := by
    unfold calStored
    rw [hbits.1, hbits.2, if_neg Bool.false_ne_true, if_pos rfl]
  obtain ⟨hvalue, hwrites⟩ := motorValue_stored hp (f := R.DRV_RS) (by decide) s v (ovlTgt 4 p 0x18)
  obtain ⟨hstatus, hmille, hends⟩ := calibration_ends hp hlop hrun hwrites ((confWrote_waits ..).trans hw)
  exact completes_of_eq (exec_calibrationStepComplete hp hlop hrun hdue (.inr (.inl hstep))) (by rw [hstored])
    ⟨(hends.get (g := R.DRV_RS) (Nat.le_of_lt_succ hp)).trans hvalue, hstatus, hmille⟩

/-- The inductance. -/
theorem calibrationStepComplete_inductance (hp : p < 8) (hlop : s.lopOf 0x0702 p = some k)
    (hrun : s.get R.LOP_ID_STATUS k = 1) (hw : s.waits = []) (hstep : s.get H.DP_CALF p = 4)
    (hpulses : s.get H.DP_PLS p = 24) : Completes (.calibrationStepComplete p v w) s fun t =>
      t.get R.DRV_LS p = applyFix R.DRV_LS.fix (w % 2 ^ 32) ∧ t.get R.LOP_ID_STATUS k = 2 ∧
      t.get R.LOP_PROG_PERMILLE k = 1000 := by
  have hbits : bit (s.get H.DP_CALF p) 0 = false ∧ bit (s.get H.DP_CALF p) 1 = false := by rw [hstep]; decide
  have hdue : s.calDue p v w = true := by
    unfold State.calDue
    rw [hbits.1, hbits.2, hpulses]
    rfl
  have hstored : calStored s p v w = (s.write R.DRV_LS w p).confWrote (ovlTgt 4 p 0x1C) := by
    unfold calStored
    rw [hbits.1, hbits.2, if_neg Bool.false_ne_true, if_neg Bool.false_ne_true]
  obtain ⟨hvalue, hwrites⟩ := motorValue_stored hp (f := R.DRV_LS) (by decide) s w (ovlTgt 4 p 0x1C)
  obtain ⟨hstatus, hmille, hends⟩ := calibration_ends hp hlop hrun hwrites ((confWrote_waits ..).trans hw)
  exact completes_of_eq (exec_calibrationStepComplete hp hlop hrun hdue (.inr (.inr hstep))) (by rw [hstored])
    ⟨(hends.get (g := R.DRV_LS) (Nat.le_of_lt_succ hp)).trans hvalue, hstatus, hmille⟩

end Sys2Proof.Claims
end

section
/-! PROOFS. The requests of the drive ports, pulse trains and encoders (R316, R326, R336, R337); and starts, calibrations and
requests, together. -/

namespace Sys2Proof.Claims
open Sys2Proof.Machine

-- One proof after another: each thread has a stack of its own, and the text compiled at once is near its memory.
set_option Elab.async false

variable {s t u : State} {fs gs : List Fld} {p k n mb : Nat}

/-! ### Answers -/

/-- The fields that an answer writes. -/
def answerFields : List Fld :=
  [R.MBX_STAT_STATUS, R.MBX_RES_REASON, R.MBX_RES_RLEN, R.MBX_HANDLE, R.MBX_ROP, R.MBX_T_DONE, R.HIF_INT_MBX_STAT,
    R.HIF_MSIX_PBA]

theorem answerPlaces_fields (hmb : mb < 32) :
    ∀ x ∈ answerPlaces mb, ∃ f ∈ answerFields, ∃ i, i ≤ f.n - 1 ∧ x = fkey f i 0 := by
  have hmb : mb ≤ 31 := Nat.le_of_lt_succ hmb
  intro x hx
  simp only [answerPlaces, List.mem_cons, List.not_mem_nil, or_false] at hx
  rcases hx with rfl | rfl | rfl | rfl | rfl | rfl | rfl | rfl
  · exact ⟨R.MBX_STAT_STATUS, by decide, mb, hmb, rfl⟩
  · exact ⟨R.MBX_RES_REASON, by decide, mb, hmb, rfl⟩
  · exact ⟨R.MBX_RES_RLEN, by decide, mb, hmb, rfl⟩
  · exact ⟨R.MBX_HANDLE, by decide, mb, hmb, rfl⟩
  · exact ⟨R.MBX_ROP, by decide, mb, hmb, rfl⟩
  · exact ⟨R.MBX_T_DONE, by decide, mb, hmb, rfl⟩
  · exact ⟨R.HIF_INT_MBX_STAT, by decide, 0, by decide, rfl⟩
  · exact ⟨R.HIF_MSIX_PBA, by decide, 0, by decide, rfl⟩

/-- An answer leaves the fields that are none of its own. -/
theorem AnswerKeeps.get {g : Fld} {i : Nat} (h : AnswerKeeps [] mb n s t) (hmb : mb < 32) (hi : i ≤ g.n - 1)
    (hg : (answerFields.all fun f => f.disjoint g) = true := by decide) : t.get g i = s.get g i := by
  refine h.regs g i 0 fun hx => ?_
  obtain ⟨f, hf, k, hk, he⟩ := answerPlaces_fields hmb _ (by simpa using hx)
  exact fkey_ne_of_disjoint (List.all_eq_true.1 hg f hf) hk (Nat.zero_le _) hi (Nat.zero_le _) he.symm

theorem complete_handle {status reason handle : Nat} {res : List Nat} (hj : s.get H.MB_JRN mb = 0) (hm : mb < 32)
    (hh : handle < 2 ^ 16) : (s.complete mb status reason handle res).get R.MBX_HANDLE mb = handle := by
  have hcause : ∀ u : State, (u.mbxCause mb).get R.MBX_HANDLE mb = u.get R.MBX_HANDLE mb := fun u =>
    get_mbxCause (fkey_ne_of_disjoint (by decide) (by decide) (by decide) (Nat.le_of_lt_succ hm) (by decide))
      (fkey_ne_of_disjoint (by decide) (by decide) (by decide) (Nat.le_of_lt_succ hm) (by decide))
  have hput : ∀ u : State, ∀ a b c : Nat, ((((u.put R.MBX_HANDLE handle mb).put R.MBX_ROP a mb).put R.MBX_T_DONE b mb).put
      R.MBX_STAT_STATUS c mb).get R.MBX_HANDLE mb = handle := fun u a b c => by
    simp (disch := decide) only [get_put_record hm, State.get_put_self]
    exact Nat.mod_eq_of_lt hh
  unfold State.complete
  rw [State.on_eq_false hj, if_neg Bool.false_ne_true]
  dsimp only
  split_ifs
  · exact (hcause _).trans (hput ..)
  · exact (hcause _).trans (hput ..)

/-! ### DRV_CLEAR (R326, R337) -/

/-- The chopper faults of a bus group cleared. -/
def groupCleared (s : State) (g : Nat) : State := s.each (s.busPorts g) fun s p => s.put R.DRV_STAT_CHOPF 0 p

theorem groupCleared_writes (s : State) (g : Nat) : WritesIn [R.DRV_STAT_CHOPF] s (groupCleared s g) :=
  State.each_induction (fun _ _ hq hv => hv.put (List.mem_singleton_self _) (Nat.le_of_lt_succ (busPorts_lt hq))
    (Nat.zero_le _) 0) (.refl _ s)

theorem groupCleared_clears {g q : Nat} (hq : q ∈ s.busPorts g) : (groupCleared s g).get R.DRV_STAT_CHOPF q = 0 := by
  obtain ⟨v, -, -, hlast⟩ := each_at (s := s) (P := fun _ => True) (g := fun t => t.get R.DRV_STAT_CHOPF q)
    (f := fun s p => s.put R.DRV_STAT_CHOPF 0 p) (List.nodup_range.filter _) hq (fun _ _ _ _ => trivial)
    (fun _ _ _ hne => State.get_put_ne _ _ (fkey_ne_of_spread (by decide) (Nat.zero_le _) (Nat.zero_le _) hne)) trivial
  exact hlast.trans (State.get_put_self ..)

/-- With its faults cleared, a bus group brakes again. -/
theorem groupCleared_brakes {g q : Nat} (hq : q ∈ s.busPorts g) :
    (groupCleared s g).motoringOnly.get R.DRV_STAT_TLIM_CHOP q = 0 := by
  have hgrp : ∀ r < 8, (groupCleared s g).get R.DRV_CFG_BUSGRP r = s.get R.DRV_CFG_BUSGRP r := fun r hr =>
    groupCleared_writes s g R.DRV_CFG_BUSGRP r 0 (by decide) (Nat.le_of_lt_succ hr) (Nat.zero_le _)
  have hmem : s.get R.DRV_CFG_BUSGRP q = g := beq_iff_eq.1 (List.mem_filter.1 hq).2
  have hnone : faulty (groupCleared s g) g = false := by
    refine List.any_eq_false.2 fun r hr => ?_
    have hr' : r ∈ s.busPorts g := by
      obtain ⟨hlt, hg⟩ := List.mem_filter.1 hr
      exact List.mem_filter.2 ⟨hlt, by rwa [hgrp r (List.mem_range.1 hlt)] at hg⟩
    rw [State.on_eq_false (groupCleared_clears hr')]
    exact Bool.false_ne_true
  rw [motoringOnly_get (busPorts_lt hq), hgrp q (busPorts_lt hq), hmem, hnone]
  rfl

theorem drvClear_clears (h : Ready s mb 0x0703 4) (hg : s.par mb 0 4 < 8)
    (hoff : ((s.busPorts (s.par mb 0 4)).any fun q => s.on R.DRV_STAT_CHOP q && !s.on H.DP_CHSL q) = false) :
    Completes (.drvClear mb) s fun t => Answered t mb 2 0 [] ∧ ∀ q ∈ s.busPorts (s.par mb 0 4),
      t.get R.DRV_STAT_CHOPF q = 0 ∧ t.get R.DRV_STAT_TLIM_CHOP q = 0 := by
  have hmot := motoringOnly_only (groupCleared s (s.par mb 0 4))
  have hmb := h.lt
  have hjrn : (groupCleared s (s.par mb 0 4)).motoringOnly.get H.MB_JRN mb = 0 := by
    have hapart : fkey H.MB_JRN mb 0 ∉ motoringPlaces :=
      (by decide +kernel : ∀ m < 32, fkey H.MB_JRN m 0 ∉ motoringPlaces) mb hmb
    rw [hmot.regs _ _ _ hapart, groupCleared_writes s _ H.MB_JRN mb 0 (by decide) (Nat.le_of_lt_succ hmb) (Nat.zero_le _), h.jrn]
  have hexec : exec (.drvClear mb) s = .next ((groupCleared s (s.par mb 0 4)).motoringOnly.done mb) := by
    show execDrvClear mb s = _
    unfold execDrvClear
    rw [h.request]
    dsimp only
    rw [if_neg (Nat.not_le.2 hg), hoff, if_neg Bool.false_ne_true]
    rfl
  obtain ⟨hanswered, hkeeps⟩ := complete_answers (handle := 0) (res := []) hjrn hmb (by decide : 2 < 8) (by decide : 0 < 65536)
  refine ⟨_, hexec, hanswered, fun q hq => ?_⟩
  have hq' := busPorts_lt hq
  have hflt := (motoringPlaces_apart q hq').2.1
  exact ⟨(hkeeps.get hmb (Nat.le_of_lt_succ hq')).trans ((hmot.regs _ _ _ hflt).trans (groupCleared_clears hq)),
    (hkeeps.get hmb (Nat.le_of_lt_succ hq')).trans (groupCleared_brakes hq)⟩

/-! ### CAL_START (R272, R336) -/

/-- The steps of a calibration chosen, and the first begun. -/
def calBegun (s : State) (p f : Nat) : State := ((s.put H.DP_CALF f p).put H.DP_CALT (popCount 3 f) p).calStep p

theorem calBegun_sets (hp : p < 8) (s : State) (f : Nat) :
    SetsPort (H.DP_CALF :: H.DP_CALT :: calStepFields) p s (calBegun s p f) :=
  (((SetsPort.refl _ hp s).put (f := H.DP_CALF) f).put (f := H.DP_CALT) _).step (calStep_sets hp _)

theorem calBegun_steps (hp : p < 8) (s : State) (f : Nat) : (calBegun s p f).get H.DP_CALF p = f % 2 ^ 3 :=
  ((calStep_sets hp _).own (g := H.DP_CALF)).trans ((get_put_record hp _ (by decide) (by decide) (by decide)).trans
    (State.get_put_self ..))

theorem calStart_begins (h : Ready s mb 0x0702 8) (hp : s.par mb 0 4 < 8) (hmay : s.calMay (s.par mb 0 4) = true)
    (hnone : s.lopOf 0x0702 (s.par mb 0 4) = none) (hslot : s.lopSlot = some k) (hsome : s.par mb 4 4 % 8 ≠ 0) :
    Completes (.calStart mb) s fun t => Answered t mb 2 0 [] ∧ t.get R.MBX_HANDLE mb = s.lopHandle ∧
      t.get R.LOP_ID_STATUS k = 1 ∧ t.get R.LOP_OBJ_OPCODE k = 0x0702 ∧
      t.get H.DP_CALF (s.par mb 0 4) = s.par mb 4 4 % 8 := by
  have hmb := h.lt
  have hk : k < 32 := List.mem_range.1 (List.mem_of_find?_eq_some hslot)
  have hk' : k ≤ 31 := Nat.le_of_lt_succ hk
  generalize hpar : s.par mb 0 4 = p at hp hmay hnone
  generalize hf : s.par mb 4 4 % 8 = f at hsome
  obtain ⟨hstatus, hopc, hopen⟩ := lopOpen_opens hk s s.lopHandle 0x0702 p
  have hbegun := calBegun_sets hp (s.lopOpen k s.lopHandle 0x0702 p) f
  have hjrn : (calBegun (s.lopOpen k s.lopHandle 0x0702 p) p f).get H.MB_JRN mb = 0 := by
    rw [hbegun.get (Nat.le_of_lt_succ hmb), hopen.get (g := H.MB_JRN) (Nat.le_of_lt_succ hmb), h.jrn]
  have hexec : exec (.calStart mb) s =
      .next ((calBegun (s.lopOpen k s.lopHandle 0x0702 p) p f).complete mb 2 0 s.lopHandle []) := by
    show execCalStart mb s = _
    unfold execCalStart
    rw [h.request]
    dsimp only
    rw [hpar, hf, if_neg (Nat.not_le.2 hp), hmay, if_neg (by decide), hnone, if_neg (by decide), State.lopStart, hslot,
      beq_false_of_ne hsome]
    rfl
  obtain ⟨hanswered, hkeeps⟩ := complete_answers (handle := s.lopHandle) (res := []) hjrn hmb (by decide : 2 < 8)
    (by decide : 0 < 65536)
  have hfit : f % 2 ^ 3 = f := by omega
  exact ⟨_, hexec, hanswered, complete_handle hjrn hmb (lopHandle_lt s),
    (hkeeps.get hmb hk').trans ((hbegun.get hk').trans hstatus), (hkeeps.get hmb hk').trans ((hbegun.get hk').trans hopc),
    (hkeeps.get hmb (Nat.le_of_lt_succ hp)).trans ((calBegun_steps hp _ f).trans hfit)⟩

/-! ### DRV_CONFIG (R337) -/

theorem le_clampN {lo hi : Nat} (h : lo ≤ hi) (x : Nat) : lo ≤ clampN lo hi x := by
  unfold clampN
  split_ifs
  · exact Nat.le_refl _
  · exact h
  · omega

/-- The first `n` words of a request noted for a port, from word `k` on. -/
def drvWords (s : State) (mb p k n : Nat) : State :=
  s.each (List.range n) fun t i => (t.put H.DP_NEWW (s.par mb (12 + 4 * i) 4) p (k + i)).orBit H.DP_NEWM (k + i) p

theorem drvWords_lists (s : State) (mb p k n : Nat) :
    (drvWords s mb p k n).mem = s.mem ∧ (drvWords s mb p k n).waits = s.waits := by
  unfold drvWords
  refine State.each_induction (P := fun t => t.mem = s.mem ∧ t.waits = s.waits) (fun t j _ ht => ?_) ⟨rfl, rfl⟩
  exact ht

theorem drvWords_word {j : Nat} (hp : p < 8) (hkn : k + n ≤ 32) (hj : j < n) :
    (drvWords s mb p k n).get H.DP_NEWW p (k + j) = s.par mb (12 + 4 * j) 4 := by
  have hmark : ∀ (t : State) (b : Nat), (t.orBit H.DP_NEWM b p).get H.DP_NEWW p (k + j) = t.get H.DP_NEWW p (k + j) :=
    fun _ _ => get_put_record hp _ (by decide) (by decide) (show k + j ≤ 31 by omega)
  obtain ⟨v, -, -, hlast⟩ := each_at (s := s) (P := fun _ => True) (g := fun t => t.get H.DP_NEWW p (k + j))
    (f := fun t i => (t.put H.DP_NEWW (s.par mb (12 + 4 * i) 4) p (k + i)).orBit H.DP_NEWM (k + i) p) List.nodup_range
    (List.mem_range.2 hj) (fun _ _ _ _ => trivial)
    (fun _ _ _ hne => (hmark ..).trans (State.get_put_ne _ _ (by simp only [fkey, H.DP_NEWW]; omega))) trivial
  exact hlast.trans ((hmark ..).trans (State.get_put_of_lt _ _ _ (par_lt ..)))

theorem drvWords_mark {j : Nat} (hp : p < 8) (hkn : k + n ≤ 32) (hj : j < n) :
    bit ((drvWords s mb p k n).get H.DP_NEWM p) (k + j) = true := by
  have hmark : ∀ (t : State) (x i : Nat), i ∈ List.range n →
      bit (((t.put H.DP_NEWW x p (k + i)).orBit H.DP_NEWM (k + i) p).get H.DP_NEWM p) (k + j) =
        (bit (t.get H.DP_NEWM p) (k + j) || decide (k + j = k + i)) := fun t x i hi => by
    have hi := List.mem_range.1 hi
    rw [State.orBit, State.get_put_self, get_put_record hp _ (by decide) (show k + i ≤ 31 by omega) (by decide)]
    exact (bit_mod_two_pow (show k + j < 32 by omega)).trans (bit_setBit_eq ..)
  obtain ⟨v, -, -, hlast⟩ := each_at (s := s) (P := fun _ => True) (g := fun t => bit (t.get H.DP_NEWM p) (k + j))
    (f := fun t i => (t.put H.DP_NEWW (s.par mb (12 + 4 * i) 4) p (k + i)).orBit H.DP_NEWM (k + i) p) List.nodup_range
    (List.mem_range.2 hj) (fun _ _ _ _ => trivial)
    (fun t i hi hne => (hmark t _ i hi).trans (by rw [decide_eq_false (by omega), Bool.or_false])) trivial
  exact hlast.trans ((hmark v _ j (List.mem_range.2 hj)).trans (by rw [decide_eq_true rfl, Bool.or_true]))

theorem drvConfig_waits (h : Ready s mb 0x0700 (12 + 4 * clampN 1 32 (s.par mb 8 4))) (hp : s.par mb 0 4 < 8)
    (hkn : s.par mb 4 4 / 4 + clampN 1 32 (s.par mb 8 4) ≤ 32) (hidle : s.portActive (0x10 + s.par mb 0 4) = false)
    (hpin : s.par mb 4 4 / 4 = 0 ∧ bits (s.par mb 12 4) 12 4 ≠ s.get R.DRV_CFG_ENC (s.par mb 0 4) →
      s.encClash (bits (s.par mb 12 4) 12 4) = false) :
    Completes (.drvConfig mb) s fun t => Waits s t mb 0x0700 (s.par mb 0 4) (clampN 1 32 (s.par mb 8 4)) ∧ t.mem = s.mem ∧
      ∀ j < clampN 1 32 (s.par mb 8 4), t.get H.DP_NEWW (s.par mb 0 4) (s.par mb 4 4 / 4 + j) = s.par mb (12 + 4 * j) 4 ∧
        bit (t.get H.DP_NEWM (s.par mb 0 4)) (s.par mb 4 4 / 4 + j) = true := by
  have hn := le_clampN (by decide : 1 ≤ 32) (s.par mb 8 4)
  have hlen := h.len
  have hreq := (h.mono (m := 16) (by omega)).request
  have hexec : exec (.drvConfig mb) s = .next ((drvWords s mb (s.par mb 0 4) (s.par mb 4 4 / 4)
      (clampN 1 32 (s.par mb 8 4))).wait mb 0x0700 (s.par mb 0 4) (clampN 1 32 (s.par mb 8 4))) := by
    show execDrvConfig mb s = _
    unfold execDrvConfig
    rw [hreq]
    dsimp only
    rw [if_neg (by omega), if_neg (by omega), hidle, Bool.false_and, if_neg Bool.false_ne_true,
      if_neg (fun hc => Bool.false_ne_true ((hpin ⟨hc.1, hc.2.1⟩).symm.trans hc.2.2)), Nat.min_eq_left (by omega)]
    rfl
  obtain ⟨hmem, hwaits⟩ := drvWords_lists s mb (s.par mb 0 4) (s.par mb 4 4 / 4) (clampN 1 32 (s.par mb 8 4))
  refine ⟨_, hexec, ?_, (wait_mem ..).trans hmem, fun j hj => ?_⟩
  · unfold Waits State.wait
    rw [hwaits]
  · rw [wait_get, wait_get]
    exact ⟨drvWords_word hp hkn hj, drvWords_mark hp hkn hj⟩

/-! ### PTG_CONFIG and ENC_CONFIG (R309, R337) -/

/-- The words of a pulse train's configuration noted. -/
def trainWords (s : State) (mb q : Nat) : State :=
  s.each (List.range 3) fun t i => t.put H.PT_NEWW (s.par mb (4 + 4 * i) 4) q i

theorem trainWords_lists (s : State) (mb q : Nat) :
    (trainWords s mb q).mem = s.mem ∧ (trainWords s mb q).waits = s.waits := by
  unfold trainWords
  refine State.each_induction (P := fun t => t.mem = s.mem ∧ t.waits = s.waits) (fun t j _ ht => ?_) ⟨rfl, rfl⟩
  exact ht

theorem trainWords_get {j : Nat} (q : Nat) (hj : j < 3) :
    (trainWords s mb q).get H.PT_NEWW q j = s.par mb (4 + 4 * j) 4 := by
  obtain ⟨v, -, -, hlast⟩ := each_at (s := s) (P := fun _ => True) (g := fun t => t.get H.PT_NEWW q j)
    (f := fun t i => t.put H.PT_NEWW (s.par mb (4 + 4 * i) 4) q i) List.nodup_range (List.mem_range.2 hj)
    (fun _ _ _ _ => trivial) (fun _ _ _ hne => State.get_put_ne _ _ (by simp only [fkey, H.PT_NEWW]; omega)) trivial
  exact hlast.trans (State.get_put_of_lt _ _ _ (par_lt ..))

theorem ptgConfig_waits (h : Ready s mb 0x0701 16) (hq : s.par mb 0 4 < 16) (hidle : s.portActive (0x20 + s.par mb 0 4) = false)
    (hpin : bits (s.par mb 4 4) 4 4 ≠ s.get R.PTG_CFG_ENC (s.par mb 0 4) → s.encClash (bits (s.par mb 4 4) 4 4) = false) :
    Completes (.ptgConfig mb) s fun t => Waits s t mb 0x0701 (s.par mb 0 4) 0 ∧ t.get H.PT_NEWP (s.par mb 0 4) = 1 ∧
      t.mem = s.mem ∧ ∀ j < 3, t.get H.PT_NEWW (s.par mb 0 4) j = s.par mb (4 + 4 * j) 4 := by
  have hexec : exec (.ptgConfig mb) s =
      .next (((trainWords s mb (s.par mb 0 4)).put H.PT_NEWP 1 (s.par mb 0 4)).wait mb 0x0701 (s.par mb 0 4)) := by
    show execPtgConfig mb s = _
    unfold execPtgConfig
    rw [h.request]
    dsimp only
    rw [if_neg (Nat.not_le.2 hq), hidle, Bool.false_and, if_neg Bool.false_ne_true,
      if_neg (fun hc => Bool.false_ne_true ((hpin hc.1).symm.trans hc.2))]
    rfl
  obtain ⟨hmem, hwaits⟩ := trainWords_lists s mb (s.par mb 0 4)
  refine ⟨_, hexec, wait_waits ((State.put_waits ..).trans hwaits) _ _, ?_,
    (wait_mem ..).trans ((State.put_mem ..).trans hmem), fun j hj => ?_⟩
  · rw [wait_get, State.get_put_self]
    rfl
  · rw [wait_get, State.get_put_ne, trainWords_get _ hj]
    exact fkey_ne_of_disjoint (by decide) (Nat.le_of_lt_succ hq) (by decide) (Nat.le_of_lt_succ hq) (Nat.le_of_lt_succ hj)

/-- The places of a channel's new configuration. -/
def encPlaces (c : Nat) : List Nat := [fkey H.ENC_NEWP c 0, fkey H.ENC_NEWW c 0]

theorem encConfig_waits (h : Ready s mb 0x0704 8) (hc : s.par mb 0 4 < 8) (hidle : s.encActive (s.par mb 0 4) = false)
    (hpin : ((List.range 16).any fun pin => encUses (s.par mb 4 4) pin && s.trgTaken pin) = false) :
    Completes (.encConfig mb) s fun t => Waits s t mb 0x0704 (s.par mb 0 4) 0 ∧ t.get H.ENC_NEWP (s.par mb 0 4) = 1 ∧
      t.get H.ENC_NEWW (s.par mb 0 4) = s.par mb 4 4 ∧ RegsKept (encPlaces (s.par mb 0 4)) s t ∧ t.mem = s.mem := by
  have hexec : exec (.encConfig mb) s = .next (((s.put H.ENC_NEWW (s.par mb 4 4) (s.par mb 0 4)).put H.ENC_NEWP 1
      (s.par mb 0 4)).wait mb 0x0704 (s.par mb 0 4)) := by
    show execEncConfig mb s = _
    unfold execEncConfig
    rw [h.request]
    dsimp only
    rw [if_neg (Nat.not_le.2 hc), hidle, Bool.false_and, if_neg Bool.false_ne_true, hpin, if_neg Bool.false_ne_true]
  refine ⟨_, hexec, wait_waits rfl _ _, ?_, ?_, ?_, rfl⟩
  · rw [wait_get, State.get_put_self]
    rfl
  · rw [wait_get, get_put_record hc _ (by decide) (by decide) (by decide), State.get_put_of_lt _ _ _ (par_lt ..)]
  · have hkept : RegsKept (encPlaces (s.par mb 0 4)) s
        ((s.put H.ENC_NEWW (s.par mb 4 4) (s.par mb 0 4)).put H.ENC_NEWP 1 (s.par mb 0 4)) :=
      kept_put (by simp [encPlaces]) (kept_put (by simp [encPlaces]) (kept_refl _ s))
    exact fun f i j hn => (wait_get ..).trans (hkept f i j hn)

/-! ### Starts, calibrations and requests -/

/-- Settles O43: each start, calibration step and request does what its lemma says. -/
theorem driveStartsAndRequests : Obligations.DriveStartsAndRequests := by
  unfold Obligations.DriveStartsAndRequests
  intro mb p k ang mag peak o0 o1 o2 o3 v w fe s hp
  refine ⟨?_, ?_, ?_, ?_, drvClear_clears, calStart_begins, drvConfig_waits, ptgConfig_waits, encConfig_waits⟩
  · exact offsetCalibrationComplete_online hp
  · rintro ⟨hmode, haxis⟩ hstage htime
    have hstart : Starting p 1 s := ⟨hp, hmode, haxis, hstage⟩
    exact ⟨spinProbe_saturates hstart htime ang mag, spinProbe_brakes hstart htime ang mag,
      spinProbe_catches hstart htime ang mag⟩
  · rintro ⟨hmode, haxis⟩ hstage
    have hstart : Starting p 2 s := ⟨hp, hmode, haxis, hstage⟩
    exact ⟨fun hover hfirst => saturationTestPulse_repeats hstart hover hfirst peak, saturationTestPulse_counts hstart⟩
  · intro hlop hrun hw
    exact ⟨fun hstep hcount h0 h1 h2 h3 => calibrationStepComplete_offsets hp hlop hrun hw hstep hcount
      (ofsMean_of_near h0 h1 h2 h3), calibrationStepComplete_resistance hp hlop hrun hw,
      calibrationStepComplete_inductance hp hlop hrun hw⟩

end Sys2Proof.Claims
end
